-- ==== Sys2Proof/Word.lean ====
section
/-! DEFINITION. The machine's words and bytes, and the arithmetic functions of R7. -/

namespace Sys2Proof

/-- A register word: the controller makes aligned 32-bit accesses only (R34). -/
abbrev Word := BitVec 32

/-- A byte of image memory, of a message or of a frame. -/
abbrev Byte := BitVec 8

/-- floor(a / b + 1/2) for b > 0, the round-half-up of R7 applied to a quotient. -/
def roundHalfUp (a : Int) (b : Nat) : Int := (2 * a + b) / (2 * b)

/-- satN of R7. -/
def satN (n : Nat) (x : Int) : Nat := min (2 ^ n - 1) x.toNat

/-- ssatN of R7. -/
def ssatN (n : Nat) (x : Int) : Int := max (-(2 ^ (n - 1))) (min (2 ^ (n - 1) - 1) x)

/-- ceil(a / b). -/
def ceilDiv (a b : Nat) : Nat := (a + b - 1) / b

/-- The `n` low bits of `x` read as a signed number (R3). -/
def signed (n : Nat) (x : Nat) : Int :=
  if x % 2 ^ n < 2 ^ (n - 1) then (x % 2 ^ n : Nat) else (x % 2 ^ n : Nat) - (2 ^ n : Nat)

/-- A signed number in `n` bits of two's complement (R3). -/
def twos (n : Nat) (x : Int) : Nat := (x % (2 ^ n : Nat)).toNat

/-- Bits [hi:lo] of `x`. -/
def field (x hi lo : Nat) : Nat := x / 2 ^ lo % 2 ^ (hi + 1 - lo)

/-- Bit `i` of `x`. -/
def bitOf (x i : Nat) : Bool := x.testBit i

/-- `x` with bits [hi:lo] replaced by `v`. -/
def putField (x hi lo v : Nat) : Nat :=
  x % 2 ^ lo + v % 2 ^ (hi + 1 - lo) * 2 ^ lo + x / 2 ^ (hi + 1) * 2 ^ (hi + 1)

/-- One bit as a number. -/
def b2n (b : Bool) : Nat := if b then 1 else 0

end Sys2Proof
end

