-- ==== Sys2Proof/Syntax.lean ====
section
/-! DEFINITION. The commands of the block: one constructor of `Instr` per row of the table of steps, in its order.
A command carries what its row receives from outside: the requester and the value of a register access, the bytes of
a message or frame, a pin level, a reading, or the engine or timer it reports. -/

namespace Sys2Proof

/-- Who makes a register access (R26). -/
inductive Requester where
  | core (n : Nat)
  | pcie
  | session (n : Nat)
deriving DecidableEq, Repr

/-- The UDP payload of a Gisha message, with the port it came in on, its sender and whether it was sent to the press
service address (R62, R85). -/
structure UdpMsg where
  ethPort : Nat
  srcAddr : Nat
  srcPort : Nat
  toService : Bool
  data : List Byte
deriving DecidableEq, Repr

/-- What an Ethernet frame holds, as far as R58, R59, R85, R331 and R424 tell frames apart. -/
inductive EthKind where
  | arp (target : Nat)
  | ndp (target : Nat)
  | icmpEcho (dest : Nat)
  | ipFragment
  | gisha (m : UdpMsg)
  | ptp
  | pause
  | magicPattern
  | other
deriving DecidableEq, Repr

/-- An Ethernet frame as received: length from the destination address to the FCS, its tags, and its content. -/
structure EthFrame where
  length : Nat
  fcsOk : Bool
  vids : List Nat
  kind : EthKind
deriving DecidableEq, Repr

/-- A Flelyn frame as the lane's receiver hands it over: the bytes from TYPE to CRC (R248), and whether every block of
it had a defined type (R246). -/
structure RxFrame where
  bytes : List Byte
  blocksOk : Bool
deriving DecidableEq, Repr

/-- A pair message as received on a pair lane: its bytes from TYPE to CRC. -/
structure PairRx where
  lane : Nat
  bytes : List Byte
deriving DecidableEq, Repr

/-- The fields of a PTP message that R329 to R336 use. Times are in 2^-16 ns, as the offset arithmetic of R333. -/
structure PtpMsg where
  port : Nat
  domain : Nat
  sourceClock : Nat
  sourcePort : Nat
  seq : Nat
  twoStep : Bool
  correction : Int
  origin : Nat
  rxTime : Nat
deriving DecidableEq, Repr

/-- The data set of an Announce message that the best master clock algorithm compares (R329, R330). -/
structure AnnounceData where
  priority1 : Nat
  clockClass : Nat
  clockAccuracy : Nat
  variance : Nat
  priority2 : Nat
  grandmaster : Nat
  stepsRemoved : Nat
deriving DecidableEq, Repr

/-- Which PTP frame the transparent clock forwards (R334, R335). -/
inductive TcKind where
  | sync | delayReq | pdelayReq | pdelayResp | pdelayFollowUp | general
deriving DecidableEq, Repr

/-- The peer-delay messages of R335. -/
inductive PdelayKind where
  | req | resp | respFollowUp
deriving DecidableEq, Repr

/-- A serial frame of SSI or BiSS as sampled (R154, R155). -/
structure SerialFrame where
  startOk : Bool
  data : Nat
  /-- The 6-bit CRC as received, inverted (BISS). -/
  crc : Nat
  nE : Bool
  nW : Bool
deriving DecidableEq, Repr

/-- A conversion of one temperature sensor (R430): 1/16 degrees for an on-die sensor, the voltage difference in
microvolts for a remote input in diode mode, and the 12-bit code for one in NTC mode. `value` is what the circuit gives with
its trim code at zero; `applied` counts the applies of its trim group since the conversion started (R458). -/
structure TempReading where
  sensor : Nat
  value : Int
  applied : Nat := 0
deriving DecidableEq, Repr

/-- What a training finds (R250, R276): the figure of merit and the presets of the two transmitters. -/
structure TrainReading where
  fom : Nat
  own : Nat
  peer : Nat
deriving DecidableEq, Repr

/-- A conversion of the twelve rails in mV (R443), with the applies of MONADC since it started (R458). -/
structure RailReading where
  mv : List Nat
  applied : Nat
deriving DecidableEq, Repr

/-- A trim group and an entry of it (R450). -/
structure TrimEntry where
  group : Nat
  entry : Nat
deriving DecidableEq, Repr

/-- One CSI-2 packet header status (R280). -/
inductive EccStatus where
  | ok | corrected | bad
deriving DecidableEq, Repr

/-- A CRC entry of R353. -/
structure CrcEntry where
  line : Nat
  bar : Nat
  transient : Bool
  persistent : Bool
  crc : Nat
deriving DecidableEq, Repr

/-- The reason a boot step ends (R477 to R480). -/
inductive BootResult where
  | ok
  | slotFailed (reason : Nat)
  | selftestFailed (bits : Nat)
  | repaired (rows : Nat)
  | trainFailed
deriving DecidableEq, Repr

/-- How a flash operation ended (R488). -/
inductive FlashEnd where
  | done
  | failed
  | abandoned
deriving DecidableEq, Repr

/-- How a regulator transaction ended (R446, R447). -/
inductive PmbusEnd where
  | ok (voutMode : Nat) (reading : Nat)
  | failed
deriving DecidableEq, Repr

/-- The commands. Each docstring-free constructor is the row of the same name; its operands are named for what they
hold. `page` is a page index, `slot` a journal entry, `lane` 0 to 47 a Flelyn lane and 48 to 51 a pair lane. -/
inductive Instr where
  -- register pages (02)
  | watchdogExpiry (core : Nat)
  | registerWrite (rq : Requester) (addr : Nat) (val : Word) (byteEn : BitVec 4)
  | srst (rq : Requester) (page : Nat)
  | srstDone (page : Nat)
  | blockEnable (rq : Requester) (page : Nat) (en clkReq : Bool)
  | clockStart (page : Nat)
  | counterLowRead (rq : Requester) (page k : Nat) (rime : Bool)
  | counterHighRead (rq : Requester) (page k : Nat) (rime : Bool)
  | highWordWrite (rq : Requester) (addr : Nat) (val : Word)
  | commitArm (rq : Requester) (page : Nat) (val : Word)
  | commitCancel (rq : Requester) (page : Nat)
  | commitApply (page : Nat)
  | nozzleTableWrite (rq : Requester) (bar col : Nat) (val : Word)
  | tableWindowWrite (rq : Requester) (addr : Nat) (val : Word)
  | ownerWrite (rq : Requester) (resource : Nat) (code : Nat)
  | gpioDirWrite (rq : Requester) (openDrain : Bool) (val : Word)
  | gpioOutWrite (rq : Requester) (op : Nat) (val : Word)
  | evSetWrite (rq : Requester) (page : Nat) (val : Word)
  | snapshotTrigger (rq : Requester) (val : Word)
  | snapshotTake
  -- host links, jobs and Gisha (03)
  | ethFrameReceive (port : Nat) (frame : EthFrame)
  | hello (m : UdpMsg)
  | close (m : UdpMsg)
  | keepalive (m : UdpMsg)
  | cmd (m : UdpMsg)
  | helloRing (slot : Nat)
  | closeRing (slot : Nat)
  | nop (slot : Nat)
  | jobDefine (slot : Nat)
  | jobStart (slot : Nat)
  | jobStop (slot : Nat)
  | jobRelease (slot : Nat)
  | tilePut (slot : Nat)
  | tileQuery (slot : Nat)
  | regRead (slot : Nat)
  | regWrite (slot : Nat)
  | applyLineWrite (slot : Nat)
  | tableWrite (slot : Nat)
  | inflate (slot : Nat)
  | inflateDone (slot : Nat)
  | snapshot (slot : Nat)
  | sessionTimeout (session : Nat)
  | resumeLimit (session : Nat)
  | pcieLinkLoss
  | submissionDoorbell (q : Nat) (tail : Nat)
  | completionDoorbell (q : Nat) (head : Nat)
  | submissionFetch (q : Nat) (entry data : List Byte)
  | completionWrite (q : Nat)
  | announce
  | journalReplay
  | gratuitousArp
  -- tiles and the Firn store (04)
  | fragmentStoreDone (slot : Nat)
  | fragTimeout (job plane x y : Nat)
  | thawStart (engine : Nat)
  | thawDone (engine : Nat)
  | tileFetchDone (bar x y : Nat)
  | reqTimeout (job plane x y : Nat)
  | freezeDone (engine client : Nat) (input : List Byte) (flushes : List Nat)
  -- image memory (05)
  | refresh (sub : Nat)
  | mr4Read (sub : Nat) (double0 double1 : Bool)
  | retrainStep (sub edge : Nat) (move : Int) (margins : List Nat)
  | hotHoldExpiry (sub : Nat)
  | agePromotion (channel request : Nat)
  | dramRead (addr cls : Nat)
  | dramWrite (addr cls : Nat) (bytes : List (Option Byte))
  | freqReq (rq : Requester) (target : Nat) (req : Bool)
  | freqDone (ok : Bool)
  | derateWindow
  -- web position and line starts (06)
  | countEdge (chan : Nat) (u v w : Bool) (phase : Nat)
  | index (chan : Nat)
  | serialFrame (chan : Nat)
  | serialSample (chan : Nat) (f : SerialFrame)
  | serTimeout (chan : Nat)
  | load (rq : Requester) (chan : Nat)
  | clrFault (rq : Requester) (chan : Nat)
  | posLoRead (rq : Requester) (chan : Nat)
  | speedWindow (chan : Nat)
  | stillTimeout (chan : Nat)
  | mark (bar : Nat) (falling : Bool) (edgesBack : Nat)
  -- bar pipeline, placement, waveforms (07, 08)
  | rowLineBuilt (bar : Nat)
  | bandTrimWrite (rq : Requester) (bar bank band : Nat) (val : Word)
  | lineSend (bar stream : Nat)
  | skipEpisodeEnd (bar : Nat)
  | drypointDone (results : List (Option Int))
  | validate (rq : Requester) (wave : Nat)
  | tempTimeout (lane slot : Nat)
  -- Flelyn link (09)
  | detect (lane : Nat) (terminated : Bool)
  | trainDone (lane : Nat) (found : TrainReading)
  | trainTimeout (lane : Nat)
  | cap (lane : Nat) (f : RxFrame)
  | capTimeout (lane : Nat)
  | lane (lane : Nat) (f : RxFrame)
  | blockLockLost (lane : Nat)
  | stat (lane : Nat) (f : RxFrame)
  | lineLostEpisodeEnd (lane bar : Nat)
  | nack (lane : Nat) (f : RxFrame)
  | timeResp (lane : Nat) (f : RxFrame)
  | idle (lane : Nat) (f : RxFrame)
  | idleSend (lane : Nat)
  | linkTimeout (lane : Nat)
  | syncSend (lane : Nat)
  | waveResend (lane wave : Nat)
  | planWrite (rq : Requester) (lane : Nat) (serialHi : Bool) (val : Word)
  | fomReport (lane : Nat) (fom : Nat)
  | eiDelay (lane : Nat)
  | eiWake (lane : Nat)
  | ioOutWrite (rq : Requester) (lane : Nat) (val : Word)
  | ioSafeWrite (rq : Requester) (lane : Nat) (mask : Bool) (val : Word)
  | ioOutResend
  -- cameras and the colour loop (10)
  | csiPacket (port vc dataType wordCount : Nat) (ecc : EccStatus) (crcOk : Bool) (payload : List Byte)
  | frameStart (port vc : Nat) (number : Nat)
  | frameEnd (port vc : Nat)
  | strobeTimeout (ctx : Nat)
  | pipelineStart
  | pipelineDone
  | contextEnable (rq : Requester) (ctx : Nat) (val : Word)
  | tapRel (rq : Requester) (ctx : Nat) (val : Word)
  | loopUpdate
  | ladderClassify
  | loopEnable (rq : Requester) (val : Word)
  | ladderEnable (rq : Requester) (val : Word)
  | loopNoData (bar : Nat)
  -- press time and PTP (11)
  | incrWrite (rq : Requester) (hi : Word)
  | ptpSync (m : PtpMsg)
  | followUp (m : PtpMsg)
  | delayResp (m : PtpMsg)
  | pdelay (kind : PdelayKind) (m : PtpMsg)
  | ptpAnnounce (m : PtpMsg) (d : AnnounceData)
  | servoMeasurement
  | announceTimeout
  | ptcStep (rq : Requester)
  | adj (rq : Requester)
  | acceptStep (rq : Requester)
  | stepDone
  | tcForward (kind : TcKind) (m : PtpMsg) (transport : Nat) (trailer : Bool) (egress : Nat)
  | pairTimeExchange
  -- the redundant pair (12)
  | pairHello (m : PairRx)
  | hbSend
  | hb (m : PairRx)
  | hbTimeout
  | pairFault (m : PairRx)
  | input (m : PairRx)
  | inputApply
  | crcMessage (m : PairRx)
  | crcWait (line bar : Nat)
  | copy (m : PairRx)
  | copyCtrl (m : PairRx)
  | copyPassDone
  | position (m : PairRx)
  | health (m : PairRx)
  | healthSend (laneErr : Bool) (scrubbedMiB : Nat)
  | checkInput
  | tileReq (m : PairRx)
  | tileData (m : PairRx)
  | retry (seq : Nat)
  | formTimeout
  | switch (rq : Requester)
  | join (rq : Requester)
  | solo (rq : Requester)
  | leave (rq : Requester)
  | soloWait
  | copyTimeout
  | safeOutput
  -- axes and compare outputs (13)
  | profileUpdate (axis : Nat)
  | targetWrite (rq : Requester) (axis : Nat) (hi : Word)
  | stop (rq : Requester) (axis : Nat)
  | qstop (rq : Requester) (axis : Nat)
  | home (rq : Requester) (axis : Nat)
  | engage (rq : Requester) (axis : Nat)
  | disengage (rq : Requester) (axis : Nat)
  | setPos (rq : Requester) (axis : Nat)
  | axisClrFault (rq : Requester) (axis : Nat)
  | pendArm (rq : Requester) (axis : Nat) (hi : Word)
  | ratioApply (axis : Nat)
  | step (axis : Nat)
  | stall (axis : Nat)
  | limitAssert (axis : Nat) (positive : Bool)
  | limitRelease (axis : Nat) (positive : Bool)
  | homeInput (axis : Nat) (active : Bool) (stepsBack : Nat)
  | homeTimeout (axis : Nat)
  | compareArm (rq : Requester) (unit : Nat) (hi : Word)
  | compareFire (unit : Nat)
  -- events (14)
  | gpioEdge (pin : Nat) (level : Bool)
  | pendSet (rq : Requester) (word : Nat) (val : Word)
  | pendClr (rq : Requester) (word : Nat) (val : Word)
  | enSet (rq : Requester) (word : Nat) (val : Word)
  | enClr (rq : Requester) (word : Nat) (val : Word)
  | claim (rq : Requester) (target : Nat)
  | complete (rq : Requester) (target : Nat) (source : Nat)
  | evmsgRepeat
  | srccfgWrite (rq : Requester) (source : Nat) (val : Word)
  -- power, thermal, monitors (15)
  | pstateDoze (rq : Requester)
  | pstateDeep (rq : Requester)
  | wake (cause pin : Nat)
  | wakeDone (recordOk : Bool)
  | xtalFail
  | xtalRestore
  | tempMeasurement (readings : List TempReading)
  | thermalStopDone
  | tripRestart (temps : List Int)
  | holdExpiry
  | clrStop (rq : Requester)
  | voltageConversion (reading : RailReading)
  | roCount (counts : List Nat)
  | pmbusTransaction (cmd : Nat) (result : PmbusEnd)
  | voutCheck (mv : Nat)
  -- trims (16)
  | cal (rq : Requester) (group : Nat)
  | calDone (group : Nat) (corrections : List Int)
  | apply (rq : Requester) (group : Nat)
  | reload (rq : Requester) (group : Nat)
  -- display (17)
  | hpdUnplug
  | hpdIrq (lockLost : Bool)
  | linkTrainingDone
  | ltTimeout
  | dispRetry
  | latch
  | vblank
  | lineMatch
  | frameDone (readback : List Byte)
  | underrun (layers : List Nat) (pixel : Nat)
  -- bring-up, reset and faults (18)
  | powerOnReset (straps : Nat)
  | nreset (widthNs : Nat)
  | bootStepDone (r : BootResult)
  | bootRetry (slot0 slot1 : Nat)
  | resetRecordCopy
  | nvLogProgram
  | nvmRead (rq : Requester)
  | nvmProgram (rq : Requester)
  | nvmErase (rq : Requester)
  | nvmDone (r : FlashEnd)
  | barStoppingEnd (bar : Nat)
  | blockLockGained (lane : Nat)
  | bringUpResend (lane : Nat)
  | applyTReached (lane : Nat)
  | requestIssue (sub : Nat)
  | sharedStepPulse (axis : Nat) (dir : Bool)
  | dramScrub (job plane x y : Nat)
  | timeMessage (m : PairRx)
  | msixTableWrite (index : Nat) (val : Word)
  | hpdPlug (maxRate maxLanes : Nat)
  | nresetRelease (straps : Nat)
  | vddAonLoss
  | dramSupplyLoss
  | ethLinkChange (port : Nat) (blockLock fecLock linkUp : Bool)
  | ptpSyncInterval
  | ptpAnnounceInterval
  | delayRequestInterval
  | delayReq (m : PtpMsg)
  | cameraPllStop
  | calibrationBound (at_ : TrimEntry)
deriving DecidableEq, Repr

end Sys2Proof
end

