-- ==== Sys2Proof/WellFormed.lean ====
section
/-! DEFINITION. Which commands are well formed: every operand names something that the block has. -/

namespace Sys2Proof

/-- A requester of R26: control cores 0 to 3, the PCIe function, Gisha sessions 0 to 16. -/
def Requester.wf : Requester → Bool
  | .core n => decide (n < 4)
  | .pcie => true
  | .session n => decide (n ≤ 16)

/-- One of the 256 pages of the register window (R27). -/
def pageWf (p : Nat) : Bool := decide (p < 256)

/-- An aligned word of the 16 MiB register window (R25, R34). -/
def addrWf (a : Nat) : Bool := decide (a < 16777216) && decide (a % 4 = 0)

/-- A UDP payload on one of the four Ethernet ports. -/
def UdpMsg.wf (m : UdpMsg) : Bool := decide (m.ethPort < 4) && decide (m.srcPort < 65536)

/-- An Ethernet frame: its VLAN identifiers have 12 bits, and a Gisha message of it is well formed. -/
def EthFrame.wf (f : EthFrame) : Bool :=
  f.vids.all (fun v => decide (v < 4096)) &&
    match f.kind with
    | .gisha m => m.wf
    | _ => true

/-- A frame is at least TYPE, FLAGS, LENGTH, CLAIM and a CRC (R248). -/
def RxFrame.wf (f : RxFrame) : Bool := decide (12 ≤ f.bytes.length)

/-- A message on one of the four pair lanes (R341), long enough for its header and CRC (R343). -/
def PairRx.wf (m : PairRx) : Bool := decide (48 ≤ m.lane) && decide (m.lane < 52) && decide (16 ≤ m.bytes.length)

/-- A PTP message on one of the four Ethernet ports. -/
def PtpMsg.wf (m : PtpMsg) : Bool := decide (m.port < 4) && decide (m.seq < 65536)

/-- A reading of one of the temperature sensors (R430). -/
def TempReading.wf (r : TempReading) : Bool := decide (r.sensor < 24)

/-- A tile name: a tile column of a bar's 32 or 64, and a 32-bit tile row (R88). -/
def tileWf (job plane x y : Nat) : Bool :=
  decide (job < 2 ^ 32) && decide (plane < 8) && decide (x < 64) && decide (y < 2 ^ 32)

/-- A command is well formed. -/
def wellFormed : Instr → Bool
  | .watchdogExpiry core => decide (core < 4)
  | .registerWrite rq addr _ _ | .highWordWrite rq addr _ | .tableWindowWrite rq addr _ =>
    rq.wf && decide (addr < 16777216) && (rq == .pcie || addrWf addr)
  | .srst rq page | .blockEnable rq page _ _ | .commitArm rq page _ | .commitCancel rq page | .evSetWrite rq page _ =>
    rq.wf && pageWf page
  | .srstDone page | .clockStart page | .commitApply page => pageWf page
  | .counterLowRead rq page k _ | .counterHighRead rq page k _ => rq.wf && pageWf page && decide (k < 128)
  | .nozzleTableWrite rq bar col _ => rq.wf && decide (bar < 8) && decide (col < 131072)
  | .ownerWrite rq resource code => rq.wf && decide (resource < 60) && decide (code < 4)
  | .gpioDirWrite rq _ _ | .snapshotTrigger rq _ | .loopEnable rq _ | .ladderEnable rq _ | .incrWrite rq _ => rq.wf
  | .gpioOutWrite rq op _ => rq.wf && decide (op < 3)
  | .snapshotTake | .pcieLinkLoss | .announce | .journalReplay | .gratuitousArp | .derateWindow | .ioOutResend
  | .pipelineStart | .pipelineDone | .loopUpdate | .ladderClassify | .servoMeasurement | .announceTimeout | .stepDone
  | .pairTimeExchange | .hbSend | .hbTimeout | .inputApply | .copyPassDone | .checkInput | .formTimeout | .soloWait
  | .copyTimeout | .safeOutput | .evmsgRepeat | .xtalFail | .xtalRestore | .thermalStopDone | .holdExpiry | .hpdUnplug
  | .linkTrainingDone | .ltTimeout | .dispRetry | .latch | .vblank | .lineMatch | .resetRecordCopy | .nvLogProgram
  | .vddAonLoss | .dramSupplyLoss | .ptpSyncInterval | .ptpAnnounceInterval | .delayRequestInterval
  | .cameraPllStop => true
  | .ethFrameReceive port frame => decide (port < 4) && frame.wf
  | .hello m | .close m | .keepalive m | .cmd m => m.wf
  | .helloRing slot | .closeRing slot | .nop slot | .jobDefine slot | .jobStart slot | .jobStop slot | .jobRelease slot
  | .tilePut slot | .tileQuery slot | .regRead slot | .regWrite slot | .applyLineWrite slot | .tableWrite slot
  | .inflate slot | .inflateDone slot | .snapshot slot | .fragmentStoreDone slot => decide (slot < 256)
  | .sessionTimeout session | .resumeLimit session => decide (1 ≤ session) && decide (session ≤ 16)
  | .submissionDoorbell q tail => decide (q < 32) && decide (tail < 4096)
  | .completionDoorbell q head => decide (q < 32) && decide (head < 4096)
  | .submissionFetch q entry _ => decide (q < 32) && decide (entry.length = 64)
  | .completionWrite q => decide (q < 32)
  | .fragTimeout job plane x y | .reqTimeout job plane x y | .dramScrub job plane x y => tileWf job plane x y
  | .thawStart engine | .thawDone engine => decide (engine < 24)
  | .tileFetchDone bar x y => decide (bar < 8) && tileWf 0 0 x y
  | .freezeDone engine client _ _ => decide (engine < 4) && decide (client < 5)
  | .refresh sub | .mr4Read sub _ _ | .hotHoldExpiry sub | .requestIssue sub => decide (sub < 8)
  | .retrainStep sub edge move margins =>
    decide (sub < 8) && decide (edge < 16) && decide (move.natAbs ≤ 1) && margins.length == 4 &&
      margins.all (fun m => decide (m < 16))
  | .agePromotion channel _ => decide (channel < 4)
  | .dramRead addr cls => decide (addr < 2 ^ 36) && decide (cls < 5)
  | .dramWrite addr cls bytes => decide (addr < 2 ^ 36) && decide (cls < 5) && decide (bytes.length ≤ 64)
  | .freqReq rq target _ => rq.wf && decide (target < 4)
  | .freqDone _ => true
  | .countEdge chan _ _ _ phase => decide (chan < 8) && decide (phase < 4)
  | .index chan | .serialFrame chan | .serTimeout chan | .speedWindow chan | .stillTimeout chan => decide (chan < 8)
  | .serialSample chan f => decide (chan < 8) && decide (f.data < 2 ^ 40) && decide (f.crc < 64)
  | .load rq chan | .clrFault rq chan | .posLoRead rq chan => rq.wf && decide (chan < 8)
  | .mark bar _ _ | .rowLineBuilt bar | .skipEpisodeEnd bar | .loopNoData bar | .barStoppingEnd bar => decide (bar < 8)
  | .bandTrimWrite rq bar bank band _ => rq.wf && decide (bar < 8) && decide (bank < 2) && decide (band < 2048)
  | .lineSend bar stream => decide (bar < 8) && decide (stream < 128)
  | .drypointDone results => decide (results.length ≤ 1024)
  | .validate rq wave => rq.wf && decide (wave < 32)
  | .tempTimeout lane slot => decide (lane < 48) && decide (slot < 16)
  | .detect lane _ | .trainTimeout lane | .capTimeout lane | .blockLockLost lane | .idleSend lane | .linkTimeout lane
  | .blockLockGained lane => decide (lane < 52)
  | .trainDone lane found =>
    decide (lane < 52) && decide (found.fom < 256) && decide (found.own < 4) && decide (found.peer < 4)
  | .cap lane f | .lane lane f | .idle lane f => decide (lane < 52) && f.wf
  | .stat lane f | .nack lane f | .timeResp lane f => decide (lane < 48) && f.wf
  | .lineLostEpisodeEnd lane bar => decide (lane < 48) && decide (bar < 8)
  | .syncSend lane | .eiDelay lane | .eiWake lane | .bringUpResend lane | .applyTReached lane => decide (lane < 48)
  | .waveResend lane wave => decide (lane < 48) && decide (wave < 32)
  | .planWrite rq lane _ _ | .ioOutWrite rq lane _ | .ioSafeWrite rq lane _ _ => rq.wf && decide (lane < 48)
  | .fomReport lane fom => decide (lane < 52) && decide (fom < 256)
  | .csiPacket port vc dataType wordCount _ _ _ =>
    decide (port < 4) && decide (vc < 16) && decide (dataType < 64) && decide (wordCount < 65536)
  | .frameStart port vc number => decide (port < 4) && decide (vc < 16) && decide (number < 65536)
  | .frameEnd port vc => decide (port < 4) && decide (vc < 16)
  | .strobeTimeout ctx => decide (ctx < 8)
  | .contextEnable rq ctx _ | .tapRel rq ctx _ => rq.wf && decide (ctx < 8)
  | .ptpSync m | .followUp m | .delayResp m | .pdelay _ m | .ptpAnnounce m _ | .delayReq m => m.wf
  | .ptcStep rq | .adj rq | .acceptStep rq | .switch rq | .join rq | .solo rq | .leave rq | .pstateDoze rq
  | .pstateDeep rq | .clrStop rq | .nvmRead rq | .nvmProgram rq | .nvmErase rq => rq.wf
  | .tcForward _ m transport _ egress => m.wf && decide (transport < 3) && decide (egress < 4)
  | .pairHello m | .hb m | .pairFault m | .input m | .crcMessage m | .copy m | .copyCtrl m | .position m | .health m
  | .tileReq m | .tileData m | .timeMessage m => m.wf
  | .crcWait line bar => decide (line < 2 ^ 48) && decide (bar < 8)
  | .healthSend _ _ => true
  | .retry seq => decide (seq < 2 ^ 32)
  | .profileUpdate axis | .ratioApply axis | .step axis | .stall axis | .limitAssert axis _ | .limitRelease axis _
  | .homeInput axis _ _ | .homeTimeout axis | .sharedStepPulse axis _ => decide (axis < 16)
  | .targetWrite rq axis _ | .stop rq axis | .qstop rq axis | .home rq axis | .engage rq axis | .disengage rq axis
  | .setPos rq axis | .axisClrFault rq axis | .pendArm rq axis _ => rq.wf && decide (axis < 16)
  | .compareArm rq unit _ => rq.wf && decide (unit < 32)
  | .compareFire unit => decide (unit < 32)
  | .gpioEdge pin _ => decide (pin < 32)
  | .pendSet rq word _ | .pendClr rq word _ | .enSet rq word _ | .enClr rq word _ => rq.wf && decide (word < 16)
  | .claim rq target => rq.wf && decide (target < 5)
  | .complete rq target source => rq.wf && decide (target < 5) && decide (source < 512)
  | .srccfgWrite rq source _ => rq.wf && decide (source < 512)
  | .wake cause pin => decide (1 ≤ cause) && decide (cause ≤ 5) && (decide (pin < 4) || (decide (cause = 1) && decide (pin < 8)))
  | .wakeDone _ => true
  | .tempMeasurement readings => readings.all TempReading.wf
  | .tripRestart temps => decide (temps.length ≤ 16)
  | .voltageConversion reading => decide (reading.mv.length = 12)
  | .roCount counts => decide (counts.length = 8)
  | .pmbusTransaction cmd _ => decide (cmd < 256)
  | .voutCheck mv => decide (mv < 65536)
  | .cal rq group | .apply rq group | .reload rq group => rq.wf && decide (group < 6)
  | .calDone group _ => decide (group < 6)
  | .calibrationBound at_ => decide (at_.group < 6)
  | .hpdIrq _ => true
  | .frameDone _ => true
  | .underrun layers pixel => layers.all (fun l => decide (l < 3)) && decide (pixel < 2560)
  | .powerOnReset straps | .nresetRelease straps => decide (straps < 32)
  | .nreset _ => true
  | .bootStepDone _ => true
  | .bootRetry slot0 slot1 => decide (slot0 < 16) && decide (slot1 < 16)
  | .nvmDone _ => true
  | .msixTableWrite index _ => decide (index < 256)
  | .hpdPlug maxRate maxLanes => decide (maxRate < 3) && decide (maxLanes ≤ 4)
  | .ethLinkChange port _ _ _ => decide (port < 4)

end Sys2Proof
end

