-- ==== Sys2Proof/Config.lean ====
section
/-! DEFINITION. What an implementation fixes and what the manual leaves free. Every constant here is opaque: no proof
sees a value. -/

namespace Sys2Proof.Config

/-- The value that boot firmware loads from the signed image configuration into the register or table word at a window
address (00, Reset column "boot"; R125, R192, R221, R237). -/
opaque bootWord : Nat → Word

/-- Whether the signed image configuration enables the block of a page (R508). -/
opaque bootEnable : Nat → Bool

/-- PG_VER, PG_CAP0 and PG_CAP1 of a page: "per block" (R28, R29, R30). -/
opaque blockInfo : Nat → Nat → Word

/-- A free value: the n-th open value of width at most `bits` that the manual does not fix. -/
opaque freeBits : Nat → Nat → Nat

/-- The Huffman encoding that a freeze engine finds for a block after the bytes before it, with a hash-chain depth: BTYPE
and what follows it, in the bit order of RFC 1951 (R118, R119; which matches its hash chains find is not given). -/
opaque huffBlock : Nat → List Byte → List Byte → List Bool

/-- The tag in the JOB, PLANE and tile fields of a frozen container, by freeze client (R118; no chapter defines it). -/
opaque freezeTag : Nat → Nat

/-- SESSION_ID of the n-th session opened (R65 does not say how it is chosen). -/
opaque sessionId : Nat → Nat

/-- Serial number of the unit, CONFIG_CRC of its pair section (R342), and its press name (R84). -/
opaque serial : Nat
opaque configCrc : Nat
opaque pressName : List Byte

/-- Production trim codes (R450), by TRIM page offset. -/
opaque factoryTrim : Nat → Word

/-- Jerk plan of R384 from the state (v, a, distance) under the limits (vmax, amax, dmax, jmax): the sign of the jerk and the
number of updates of each phase of the plan with the fewest updates, which the manual constrains but does not spell out. -/
opaque profilePlan : Int → Int → Int → Nat → Nat → Nat → Nat → List (Int × Nat)

/-- J of that plan. -/
opaque profileJerk : Int → Int → Int → Nat → Nat → Nat → Nat → Nat

/-- Jerk plan of a stop to rest under (dmax, jmax) from the state (v, a) (R387), and J of it, as above. -/
opaque stopPlan : Int → Int → Nat → Nat → List (Int × Nat)
opaque stopJerk : Int → Int → Nat → Nat → Nat

/-- The frequency correction of the servo of R321 for a measurement: the new increment before it is limited. -/
opaque servoIncr : Nat → Int → Int → Nat → Nat

/-- Clock identity and offsetScaledLogVariance of the unit's own PTP data set (R329). -/
opaque clockIdentity : Nat
opaque clockVariance : Nat

/-- The fixed PHY latencies that PTC.LATp shows (R332). -/
opaque phyLatency : Nat → Nat → Nat

/-- For each quotient q of R291, whether the density is the integer above the exact value or the one below it. -/
opaque densityUp : Nat → Bool

/-- The ratio of R312 for an amplitude against a reference of 0. -/
opaque ratioByZero : Nat → Nat

/-- Where boot firmware sets out the Moraine journal with its result store, in bytes of image memory, and the bytes of the
journal beside the result store (R78, R101). -/
opaque journalStart : Nat
opaque journalBytes : Nat

/-- Contents of a sound flash image's configuration are in `bootWord`; this is the flash size in MiB (NVM.SIZE). -/
opaque flashMiB : Nat

/-- The temperature that R430 gives no value for: diode mode with an ideality of 0, by the voltage difference. -/
opaque diodeByZero : Int → Int

/-- The 6-bit value of an 8-bit colour component (R472 gives its place in the byte, not the conversion). -/
opaque sixBits : Nat → Nat

/-- A byte of the boot flash before anything has programmed it. -/
opaque flashByte : Nat → Byte

end Sys2Proof.Config
end

