-- ==== Sys2Proof/Machine/State.lean ====
section
/-! DEFINITION. The state of the block as plain data: the words of the register window, the committed values, the
counters, image memory, and the state of every engine, link, session, axis and log the manual names. Defaults of the
fields are the values right after power-on reset. -/

namespace Sys2Proof.Machine

open Sys2Proof

/-- A sparse table: entries by rising key. An unlisted key holds the table's default. -/
abbrev Tab (α : Type) := List (Nat × α)

/-- Why the machine stops. -/
inductive Fault where
  /-- Raised by an access to image memory at an address beyond the installed memory, which the address map R126 does
  not have. Safe: the model stops where the manual describes no access. -/
  | outsideImageMemory (addr : Nat)
deriving DecidableEq, Repr

/-- Why a command has no meaning in the model. -/
inductive Refusal where
  /-- Raised by a dispatch arm that has no meaning yet. Safe: nothing can be proved of a refused command's effect. -/
  | notModelled (mnemonic : String)
deriving DecidableEq, Repr

/-- A fault record (R482). `cls` is 0 A, 1 B, 2 C, 3 D. -/
structure FaultRecord where
  code : Nat
  cls : Nat
  late : Bool
  unitA : Bool
  role : Nat
  bar : Nat
  seq : Nat
  ptSec : Nat
  ptNs : Nat
  boots : Nat
  webPos : Int
  imageLine : Nat
  detail : List Nat
  page : Nat
deriving DecidableEq, Repr

/-- The way of a sent UDP packet: from the press service address or the unit's own, its destination address and port, and
the PCP and VID of its tag on a tagged port (R58, R84, R86). -/
structure UdpPath where
  service : Bool
  addr : Nat
  port : Nat
  tag : Option (Nat × Nat)
deriving DecidableEq, Repr

/-- What the block puts on its wires. -/
inductive Out where
  /-- A Gisha message: Ethernet port, session, the packet's way, message bytes (R62). -/
  | udp (port session : Nat) (path : UdpPath) (bytes : List Byte)
  /-- An answer to ARP, NDP or ICMP, with the tag of a tagged port (R58). -/
  | ethReply (port : Nat) (kind : EthKind) (tag : Option (Nat × Nat))
  /-- A gratuitous ARP request for an IPv4 address, or with `v6` an unsolicited Neighbor Advertisement with the override
  flag for an IPv6 address (R85). -/
  | ethAnnounce (port : Nat) (v6 : Bool) (addr : Nat) (tag : Option (Nat × Nat))
  /-- A Flelyn frame: lane, and the bytes of the frame with its header and CRC (R248). -/
  | fln (lane : Nat) (frame : List Byte)
  /-- 0 idle blocks, 1 a training burst, 2 a rate change, 3 electrical idle on a lane; 4 to 7 its transmit preset from now
  on is 0 to 3 (R251, R276 to R278). -/
  | lanePhy (lane : Nat) (what : Nat)
  /-- A pair message on a pair lane, its bytes from TYPE to CRC (R343). -/
  | pair (lane : Nat) (message : List Byte)
  /-- A PCIe write into host memory (R70, R77). -/
  | host (addr : Nat) (bytes : List Byte)
  /-- HOST_INTn is driven low, or left high-impedance again (R412). -/
  | hostInt (low : Bool)
  /-- An MSI-X message (R413). -/
  | msix (vector : Nat)
  /-- A PTP message sent on a port; kind 0 Sync, 1 Delay_Req, 2 Delay_Resp, 3 Announce, 4 Pdelay_Req, 5 Pdelay_Resp,
  6 a frame that the transparent clock forwards as it came; 7 to 9 one that it corrects: 7 over Ethernet, 8 over UDP/IPv4
  with the UDP checksum zero, 9 over UDP/IPv6 with trailer bytes that keep the checksum valid (R334). -/
  | ptp (port kind : Nat) (m : PtpMsg)
  /-- A step pulse (R380). -/
  | stepPulse (axis : Nat) (positive : Bool)
  /-- A pulse on a TRIG pin (R400). -/
  | trig (pin : Nat) (low : Bool) (width : Nat)
  /-- A PMBus command with its data (R446). -/
  | pmbus (cmd value : Nat)
  /-- The GPIO pins that the unit drives, and the levels on them (R53). -/
  | gpio (driven levels : Nat)
  /-- MA clocks the frame of a serial channel, at 250 MHz / (div + 1) (R154). -/
  | maClock (chan div : Nat)
  /-- The pass-through outputs of a channel from now on: high impedance, or the levels A, B, Z in bits 0 to 2 of the filtered
  or the `raw` inputs (R173). -/
  | encpt (chan : Nat) (levels : Option Nat) (raw : Bool)
  /-- A flash operation: 1 read, 2 program, 3 erase (R487, R488). -/
  | flash (op addr : Nat)
  /-- A DRAM command: sub-channel, 0 refresh, 1 read, 2 write, 3 retraining step, 4 self-refresh entry, 5 exit; for a read
  or a write, the bank group and bank, the row and the burst column of R126. -/
  | dram (sub kind bank row col : Nat)
  /-- A CTRL frame of display link training, or the stream starting and ending (R461, R462). -/
  | disp (what : Nat)
deriving DecidableEq, Repr

/-- A position channel (R147 to R172). Positions are in 2^-16 counts, times in the 40.8 ns format, speeds signed
32.16 counts/s. -/
structure Channel where
  pos : Int := 0
  high : Int := 0
  low : Int := 0
  latchT : Nat := 0
  speed : Int := 0
  /-- The last 256 latches, newest first: position and time (R165, R179). -/
  edges : List (Int × Nat) := []
  /-- H and W at the same latches, newest first (R359). -/
  marks : List (Int × Int) := []
  /-- Edges since the channel was enabled or last left STILL (R165). -/
  nEdges : Nat := 0
  /-- Highest position since DIR became forward, or lowest since it became reverse (R162). -/
  dirMark : Int := 0
  reverse : Bool := false
  useWindow : Bool := false
  perSpeed : Nat := 0
  winSpeed : Nat := 0
  winFirst : Option (Int × Nat) := none
  winLast : Option (Int × Nat) := none
  still : Bool := false
  reversed : Bool := false
  posFault : Bool := false
  /-- Accepted levels: A or U in bit 0, B or V in bit 1, Z or W in bit 2; undriven inputs read high (R502). -/
  levels : Nat := 7
  /-- The last legal switch state 4 U + 2 V + W (R153), 7 before any. -/
  lastLegal : Nat := 7
  idxErrs : Nat := 0
  learned : Bool := false
  /-- An index has come since EN or LOAD (R169). -/
  indexed : Bool := false
  indexPos : Int := 0
  indexDev : Int := 0
  warn : Bool := false
  serPrev : Option Nat := none
  serErrs : Nat := 0
  serOpen : Bool := false
  serT : Nat := 0
deriving DecidableEq, Repr

/-- A row stream of a printing bar (R174, R215). -/
structure Stream where
  head : Nat
  row : Nat
  /-- G_s in 2^-16 counts (R215). -/
  g : Int
  /-- The next row-line to start building. -/
  next : Nat
  done : Bool
  /-- Fire time of the last row-line that was not skipped (R242). -/
  lastFire : Option Nat
deriving DecidableEq, Repr

/-- A row-line between its line start and its send. -/
structure RowLine where
  stream : Nat
  k : Nat
  img : Nat
  built : Bool
  /-- Uses the fast waveform map (R241). -/
  fast : Bool
  /-- Tile columns that print blank (R109, R110, R115, R132); transient for the pair (R353). -/
  blanks : List Nat
  transient : Bool
  /-- Tile columns that it reads (R188, R210). -/
  tiles : List Nat
  /-- The level string of R185. -/
  string : List Byte
deriving DecidableEq, Repr

/-- A skip episode of a bar (R243). -/
structure Episode where
  count : Nat
  lastImg : Nat
  quiet : Nat
deriving DecidableEq, Repr

/-- A bar: its pass, its row streams and the row-lines on their way (07, 08). -/
structure Bar where
  printing : Bool := false
  stopping : Bool := false
  job : Nat := 0
  /-- S_b of the pass (R176), or of each sheet begun (R181). -/
  starts : List Int := []
  /-- Row-lines of one sheet, 0 when the pass has no sheets (R181). -/
  per : Nat := 0
  /-- Job values of the pass: image lines (0 open-ended), lines per contone line, repeat in contone lines, width in
  columns, and the plane that the bar prints. -/
  len : Nat := 0
  u : Nat := 1
  rep : Nat := 0
  wc : Nat := 0
  plane : Nat := 0
  ret : Bool := false
  armed : Bool := false
  sheet : Bool := false
  /-- Offset of a start by mark, from JOB_START (R180). -/
  markOfs : Int := 0
  lastMark : Option Int := none
  /-- Windows of MARK_WIN that have passed since the last accepted mark (R181). -/
  misses : Nat := 0
  /-- The last line that prints, when JOB_STOP has named one (R512). -/
  stopLine : Option Nat := none
  streams : List Stream := []
  lines : List RowLine := []
  ovs : Nat := 0
  fastMap : Bool := false
  /-- The maps decided so far in the pass: from row-line number k on, fast or not, newest first (R241). -/
  maps : List (Nat × Bool) := []
  skip : Option Episode := none
  /-- Staged nozzle entries by column (R47). -/
  staging : Tab Word := []
  /-- Level strings of image lines not yet complete: image line, row stream, string (R186). -/
  strings : List (Nat × Nat × List Byte) := []
  /-- Image lines of which some row-line printed blank under R110, R115 or R132 (R353). -/
  transients : List Nat := []
  /-- QUAD_ERR, POS_FAULT or a serial error since JOB_START or catch-up (R353). -/
  persistent : Bool := false
  lastDivA : Option Nat := none
  /-- Tiles evicted from the row window before their last use (R189): x and tile row counted over the pass. -/
  evicted : List (Nat × Nat) := []
  /-- Image lines to go until the loop reports no data, counted by its own row; the line of the last data (R307). -/
  loopData : Nat := 0
  /-- Sheets or passes of a repeat begun: marks the pass for once-per-pass records. -/
  pass : Nat := 0
deriving DecidableEq, Repr

/-- A slot of a bar's row window (R188). `bytes` is the fetched content, `ready` once verified. -/
structure WinSlot where
  job : Nat
  plane : Nat
  x : Nat
  y : Nat
  ready : Bool
  /-- The last contone line of the pass, in build order, that reads the tile in this use (R189). -/
  last : Nat
  bytes : List Byte
  /-- The recovery step that this fetch has joined, 0 for none (R115). -/
  step : Nat := 0
deriving DecidableEq, Repr

/-- A job (R88, R511). Sizes of `quota` and `alloc` are bytes. -/
structure Job where
  number : Nat
  mask : Nat
  dpi1200 : Bool
  width : Nat
  length : Nat
  repeatLen : Nat
  quota : Nat
  alloc : Nat
  descBase : Nat
  descRows : Nat
  ringBase : Nat
  started : Bool
  /-- Journal slot of a JOB_START that waits (marks, FREQ_DONE, STEP_DONE). -/
  startSlot : Option Nat
  held : Bool
  mode : Nat
  arg : Int
deriving DecidableEq, Repr

/-- A run of received bytes of a container, with its fragment store CRC (R95). -/
structure Run where
  start : Nat
  stop : Nat
  crc : Nat
deriving DecidableEq, Repr

/-- A tile and its descriptor (04). -/
structure Tile where
  job : Nat
  plane : Nat
  x : Nat
  y : Nat
  /-- STATE of R105. -/
  state : Nat
  storedFmt : Bool
  pinned : Bool
  refrozen : Bool
  recovered : Bool
  /-- Firn offset in 256 B granules of the stored container, with its length. -/
  gran : Nat
  length : Nat
  compLen : Nat
  size : Nat
  storeCrc : Nat
  contentCrc : Nat
  slot : Nat
  storageCrc : Nat
  lastErr : Nat
  /-- A container still arriving: granule, length, session, and the received runs in the order of their
  store. -/
  arriving : Option (Nat × Nat × Nat × List Run)
  /-- Recovery step of R114: 0 none, 1 refetch, 2 re-thaw, 3 the partner's content, 5 waiting for it; 4 a
  request to the partner for a defective Firn copy (R113). -/
  recovery : Nat
  retried : Bool
  /-- The thaw engine that the CONTENT retry keeps away from (R113). -/
  avoid : Nat
  /-- Repeats of the job, 0 without one, in which the tile is absent (R109) or its recovery FAILED (R115). -/
  absent : List Nat
  failed : List Nat
  lateSeen : Bool
  fetchLate : Bool
  /-- A frozen copy not yet verified: granule, length, payload length, store CRC (R122). -/
  frozen : Option (Nat × Nat × Nat × Nat)
  /-- First row-line printed blank under R115: image line and web position. -/
  blankAt : Option (Nat × Int)
deriving DecidableEq, Repr

/-- A thaw engine at work: on a print tile, or on an INFLATE of a journal slot. -/
structure Engine where
  tile : Option (Nat × Nat × Nat × Nat) := none
  inflate : Option Nat := none
deriving DecidableEq, Repr

/-- What a commit replaced on a bar with row-lines on their way: the words in effect for the image lines that the pass of
`job` builds before `line` (R40, R178, R198). Register addresses stand for committed words, nozzle table addresses for
entries in effect. -/
structure PastCommit where
  page : Nat
  bar : Nat
  job : Nat
  ret : Bool
  line : Int
  old : List (Nat × Word)
deriving DecidableEq, Repr

/-- The image path: jobs, tiles, thaw and the row windows. -/
structure Print where
  jobs : List Job := []
  tiles : List Tile := []
  engines : Tab Engine := []
  /-- The print thaw queue: first image line in build order, job, plane, x, y (R108). -/
  thawQueue : List (Nat × Nat × Nat × Nat × Nat) := []
  /-- The last container that each freeze engine has produced (R118). -/
  frozen : Tab (List Byte) := []
  windows : Tab (List WinSlot) := []
  bars : Tab Bar := []
  /-- Stopping passes of bars that a JOB_START has started again, oldest first: bar and record (R176, R211). -/
  old : List (Nat × Bar) := []
  past : List PastCommit := []
  /-- Bar line CRCs this unit holds and those of its partner, not yet compared (R354). -/
  ownCrcs : List CrcEntry := []
  peerCrcs : List CrcEntry := []
deriving DecidableEq, Repr

/-- A read waiting in an image memory channel. -/
structure DramReq where
  id : Nat
  addr : Nat
  cls : Nat
  promoted : Bool
  held : Bool
deriving DecidableEq, Repr

/-- A write queue entry of one 64 B block: a byte or nothing for each byte enable. -/
structure DramWr where
  id : Nat
  addr : Nat
  cls : Nat
  promoted : Bool
  bytes : List (Option Byte)
deriving DecidableEq, Repr

/-- A request that waits at its source (R128): a read, or a write with a byte or nothing for each byte enable. -/
structure DramOffer where
  addr : Nat
  cls : Nat
  bytes : Option (List (Option Byte))
deriving DecidableEq, Repr

/-- A channel of image memory (R128 to R135). -/
structure DramChan where
  reads : List DramReq := []
  writes : List DramWr := []
  drain : Bool := false
  /-- Requests that the full queues or a frequency change keep waiting at their sources, oldest first (R128, R141). -/
  offers : List DramOffer := []
deriving DecidableEq, Repr

/-- A sub-channel of image memory (R136 to R140). -/
structure DramSub where
  /-- Open rows by bank. -/
  openRows : Tab Nat := []
  /-- Row hits served in a row while an older request of the same rank waited, and that rank (R129). -/
  streak : Nat := 0
  streakRank : Nat := 0
  refreshes : Nat := 0
  retrainDue : Bool := false
  hotMr4 : Bool := false
  hotTs : Bool := false
  hot : Bool := false
  /-- Retraining steps of the present sweep of 192, and the delay edges in taps since training: key 4 x lane, plus 2 for
  writes, plus 1 for the upper edge (R139). -/
  sweep : Nat := 0
  edges : Tab Int := []
  /-- 0 untrained, 1 serving, 2 self-refresh, 3 training (DRCn.STAT). -/
  state : Nat := 0
deriving DecidableEq, Repr

/-- Image memory and its controller. -/
structure Dram where
  /-- Bytes by address, rising, none equal to what an unlisted byte reads as. -/
  mem : List Host.Cell := []
  chans : Tab DramChan := []
  subs : Tab DramSub := []
  nextId : Nat := 0
  /-- Data returned to the source of the last read served. -/
  lastRead : List Byte := []
  /-- Demand of the present window in bytes, c0 to c3 (R145). -/
  c0 : Nat := 0
  c1 : Nat := 0
  c2 : Nat := 0
  c3 : Nat := 0
  /-- C1 traffic that the thaw engines have begun in the present window (R146). -/
  c1Begun : Nat := 0
  /-- Target of the frequency change in progress (R141). -/
  freqTarget : Nat := 0
  limited : Bool := false
  slow : Bool := false
deriving DecidableEq, Repr

/-- A Gisha session (R63 to R67): 0 Listen, 1 Open, 2 Closing, 3 Suspended. -/
structure Session where
  state : Nat := 0
  id : Nat := 0
  major : Nat := 0
  minor : Nat := 0
  window : Nat := 0
  maxMsg : Nat := 0
  accepted : Nat := 0
  srcAddr : Nat := 0
  srcPort : Nat := 0
  ethPort : Nat := 0
  /-- Host software has addressed the press service address, from which the unit then answers (R86). -/
  service : Bool := false
  events : Nat := 0
deriving DecidableEq, Repr

/-- A Moraine journal entry (R78 to R82): 0 Accepted, 1 Running, 2 Done. -/
structure JEntry where
  stamp : Nat
  session : Nat
  seq : Nat
  ring : Nat
  entry : List Byte
  data : List Byte
  state : Nat
  progress : Nat
  status : Nat
  result0 : Nat
  result1 : Nat
  result : List Byte
  imageLine : Nat
  ptNs : Nat
  ptSec : Nat
  webPos : Int
  replayed : Bool
  peer : Bool
  written : Bool
  /-- The acknowledgement waits for the standby (R79, R368). -/
  withheld : Bool
  late : Bool
  /-- The entry may run: at once in a single unit, at its apply-line in a pair (R348). -/
  ready : Bool
  /-- SEQ of the INPUT message that forwarded it, 0 when none did. -/
  pairSeq : Nat
  /-- Completion ring entry that its completion was written at, until the head doorbell passes it (R70). -/
  wpos : Option Nat
  /-- A REG_WRITE with APPLY waits for its line (R75). -/
  waiting : Bool
  /-- The entry is replayed after a reset, in the order of its session (R82). -/
  inReplay : Bool := false
deriving DecidableEq, Repr

/-- Host links (03). -/
structure HostSide where
  sessions : Tab Session := []
  journal : Tab JEntry := []
  /-- Error completions of commands that were not journalled, to be written to their rings (R73). -/
  errs : List JEntry := []
  /-- The last completions that were retired, oldest first (R72). -/
  retired : List JEntry := []
  nextStamp : Nat := 0
  nextSessionId : Nat := 0
  /-- Register writes of the PCIe function that wait for the end of Doze (R422). -/
  heldWrites : List (Nat × Word × BitVec 4) := []
  /-- Messages received and not yet processed (Doze holds them, R422). -/
  rx : List UdpMsg := []
  phase : Tab Bool := []
  annCount : Nat := 0
  arpLeft : Nat := 0
  msixTable : Tab Word := []
  msixPending : List Nat := []
  serviceHeld : Bool := false
deriving DecidableEq, Repr

/-- A LINE frame in a lane's line history (R266). -/
structure SentLine where
  slot : Nat
  row : Nat
  rline : Nat
  fire : Nat
  minGofs : Int
  flags : Nat
  body : List Byte
  img : Nat
  bar : Nat
  target : Int
deriving DecidableEq, Repr

/-- A lane: 0 to 47 Flelyn, 48 to 51 pair (09, R341). -/
structure Lane where
  /-- Lane state of the table before R251. -/
  state : Nat := 0
  lock : Bool := true
  rate : Nat := 0
  want : Nat := 0
  fom : Nat := 0
  degraded : Bool := false
  pfom : Nat := 0
  capSeen : Bool := false
  kind : Nat := 0
  verMajor : Nat := 0
  verMinor : Nat := 0
  rates : Nat := 0
  serial : Nat := 0
  setup : Nat := 0
  slots : List (Nat × Nat) := []
  refused : Bool := false
  delays : List Nat := []
  delay : Int := 0
  delayValid : Bool := false
  exchanges : Nat := 0
  syncSeq : Nat := 0
  syncT1 : Option Nat := none
  accepted : Bool := false
  waveHeld : Nat := 0
  waveSent : List (Nat × Nat) := []
  blankCnt : Nat := 0
  lateCnt : Nat := 0
  lost : Option Episode := none
  /-- The bar of the last blank row-line, 15 when its frame was not in the history (R269). -/
  lostBar : Nat := 15
  history : List SentLine := []
  amps : List (Nat × Nat × Nat) := []
  temps : Tab Int := []
  tempLost : List Nat := []
  ioIn : Nat := 0
  ioLevel : Nat := 0
  ioTimed : List (Nat × Nat × Nat) := []
  idleCnt : Nat := 0
  keepSerial : Option Nat := none
  /-- Frames that wait for the lane to leave electrical idle: type, flags, body (R278). -/
  queued : List (Nat × Nat × List Byte) := []
  wasActive : Bool := false
  eiAsked : Bool := false
  /-- Awake for one STAT exchange, after which the lane returns to electrical idle (R278). -/
  eiReturn : Bool := false
  /-- The transmit preset that training selected with a 2.3 partner (R276). -/
  preset : Nat := 0
deriving DecidableEq, Repr

/-- Links (09). -/
structure Links where
  lanes : Tab Lane := []
  slowReq : Bool := false
deriving DecidableEq, Repr

/-- A frame being captured or processed (R283 to R286). -/
structure Frame where
  slot : Nat
  number : Nat
  lines : Nat
  short : Bool
  long : Bool
  err : Bool
  /-- The compare value of the matching strobe. -/
  strobe : Option Int
deriving DecidableEq, Repr

/-- A camera context (R282 to R292). -/
structure Ctx where
  strobes : List Int := []
  current : Option Frame := none
  /-- Slot states 0 FREE, 1 FILLING, 2 READY, 3 PROCESSING. -/
  slot0 : Nat := 0
  slot1 : Nat := 0
  ready : List Frame := []
  taps : Nat := 0
  /-- The last frame that the pipeline finished gives no result: it was flagged or unsolicited (R283, R285). -/
  unfit : Bool := false
deriving DecidableEq, Repr

/-- Sums of one patch (R295, R297), keyed by window, band and stripe. -/
structure Patch where
  pixels : Nat := 0
  d : List Nat := [0, 0, 0, 0]
deriving DecidableEq, Repr

/-- Expected record of one bar and patch (R297). -/
structure Expected where
  sumA : Nat := 0
  minV : Nat := 255
  maxV : Nat := 0
  dirty : Bool := false
deriving DecidableEq, Repr

/-- A column that a ladder frame shows (R311): its amplitude times `scale`, and whether it deviates by more than
DEV_MAX. -/
structure LadderCol where
  bar : Nat
  col : Nat
  amp : Nat
  scale : Nat
  wide : Bool
deriving DecidableEq, Repr

/-- Cameras and the colour loop (10). -/
structure Cams where
  ctxs : Tab Ctx := []
  skipping : List (Nat × Nat) := []
  busy : Option (Nat × Frame) := none
  /-- Parameters that the pipeline loaded at the first tick of its frame: the context's registers SRC to ROW_PITCH and
  its table words (R286). -/
  loadedRegs : List Nat := []
  loadedTable : Tab Word := []
  ispTable : Tab Word := []
  aim : Tab Nat := []
  lastDm : Tab (Nat × Nat) := []
  lastDe : Tab (Nat × Nat) := []
  /-- First lines of the open measurement windows, oldest first (R296). -/
  windows : List Nat := []
  patches : Tab Patch := []
  expected : Tab Expected := []
  /-- C(b, k): the line at which a band's last change applied (R301), key 2048 b + k. -/
  changed : Tab Nat := []
  /-- Commits the loop has armed: bar, line, bands. -/
  armed : List (Nat × Nat × List Nat) := []
  atLimit : List (Nat × Nat) := []
  noData : List Nat := []
  /-- Consecutive ladders in which the candidate class of a column differed from its STATE: key 131072 b + c (R313). -/
  ladderCount : Tab Nat := []
  /-- What the pipeline has read of the last ladder, until core 1 classifies it (R311). -/
  ladderRead : List LadderCol := []
  ladderLine : Option Nat := none
  limitSeen : List Nat := []
  noCamera : Bool := false
  /-- First lines of the last windows that this unit's own cameras measured, newest first, and of the ladder that they
  read last (R306). -/
  ownWindows : List Nat := []
  ownLadder : Option Nat := none
deriving DecidableEq, Repr

/-- Press time and PTP (11). -/
structure Clock where
  sec : Nat := 0
  ns : Nat := 0
  frac : Nat := 0
  /-- INCR in force, 8.32 ns (R316). -/
  incr : Nat := 17179869184
  /-- STAT.STATE of R320. -/
  state : Nat := 0
  jump : Bool := false
  stepBusy : Bool := false
  goodRun : Nat := 0
  badRun : Nat := 0
  first : Bool := false
  suspended : Bool := false
  /-- Foreign masters heard: port, source clock, data set (R330). -/
  foreign : List (Nat × Nat × AnnounceData) := []
  best : Option (Nat × AnnounceData) := none
  /-- Source clock of the selected master. -/
  parent : Nat := 0
  /-- A complete measurement that the servo has still to act on, in 2^-16 ns (R321). -/
  measured : Option Int := none
  /-- Grandmaster that the servo follows; none until one is selected, and while the unit follows its partner. -/
  adopted : Option Nat := none
  heldSync : Option PtpMsg := none
  /-- t1, t2 of the last complete Sync; t3 of the last delay request. -/
  t1 : Int := 0
  t2 : Int := 0
  t3 : Int := 0
  mpd : Int := 0
  reqSeq : Nat := 0
  syncSeq : Nat := 0
  annSeq : Nat := 0
  peerDelay : Tab Int := []
  /-- By port: sequence number and transmit time of the last Pdelay_Req, and a two-step answer that waits. -/
  pdReq : Tab (Nat × Int) := []
  pdHeld : Tab PtpMsg := []
  pairSeq : Nat := 0
  pairT1 : Option Nat := none
  pairLane : Option Nat := none
  pairDiscard : Nat := 0
  pairOffset : Int := 0
  pairBeyond : Bool := false
  /-- Since when the offset has been within PAIR_LIMIT again, in ns of press time (R338). -/
  pairOkSince : Option Nat := none
  /-- Lanes that were ACTIVE before a step (R323). -/
  stepLanes : List Nat := []
deriving DecidableEq, Repr

/-- An input of the pair protocol held for its apply-line (R348). -/
structure PairInput where
  kind : Nat
  late : Bool
  apply : Nat
  bar : Nat
  payload : List Byte
  seq : Nat
  own : Bool
deriving DecidableEq, Repr

/-- The redundant pair (12). -/
structure PairSt where
  role : Nat := 0
  joinStep : Nat := 0
  peerRole : Nat := 15
  verified : Bool := false
  switchPending : Bool := false
  soloWait : Bool := false
  sameUnit : Bool := false
  peerSeen : Bool := false
  mustWait : Bool := false
  restarts : Nat := 0
  txSeq : Nat := 0
  rxSeq : Nat := 0
  /-- Sequenced messages sent and not yet acknowledged: SEQ, TYPE, FLAGS, body. -/
  unacked : List (Nat × Nat × Nat × List Byte) := []
  /-- The lane that has carried each of them last. -/
  sentOn : Tab Nat := []
  /-- An INPUT or TILE_DATA whose body goes on in the next message: type and what has come. -/
  partial_ : Option (Nat × List Byte) := none
  /-- Sequenced messages received ahead of their turn. -/
  early : List (Nat × Nat × Nat × List Byte) := []
  inputs : List PairInput := []
  /-- L of the present catch-up; at the joining unit the printing bars with job, S_b and return flag, and the channels
  that are still to be aligned (R358, R359). -/
  catchup : Option Nat := none
  catchBars : List (Nat × Nat × List Int × Bool) := []
  catchChans : List Nat := []
  /-- At the joining unit: bars that print at the active, and from bit 8 on those in a return pass, until the own ones start
  (R356, R358). -/
  peerBars : Nat := 0
  /-- Consecutive matching lines of each bar (R361). -/
  matched : Tab Nat := []
  posFails : Nat := 0
  dirty : List Nat := []
  hbCount : Nat := 0
  healthNo : Nat := 0
  scrubErrs : Nat := 0
  digestErr : Bool := false
  /-- The digest at the last CHECK (R378). -/
  digest : Option Nat := none
  /-- Excused lines and an unexplained divergence in the present health period (R379). -/
  excused : Nat := 0
  diverged : Bool := false
  /-- BUILD of the last heartbeat. -/
  peerBuild : Nat := 2 ^ 48 - 1
  hbLost : Bool := false
  safe : Bool := false
  /-- Features of the lower minor version are in use (R342). -/
  minor : Nat := 3
deriving DecidableEq, Repr

/-- An axis (R380 to R396). Profile units are 2^-48 steps with microseconds. -/
structure Axis where
  a : Int := 0
  v : Int := 0
  p : Int := 0
  act : Int := 0
  cmd : Int := 0
  sched : Nat := 0
  schedNeg : Bool := false
  /-- Phases of the plan still to run: jerk and number of updates. -/
  plan : List (Int × Nat) := []
  /-- TARGET of the last plan or stop, and the position at which the present plan ends (R384, R387). -/
  target : Int := 0
  goal : Int := 0
  waiting : Nat := 0
  qstop : Bool := false
  atTarget : Bool := false
  homed : Bool := false
  geared : Bool := false
  m0 : Int := 0
  p0 : Int := 0
  pend : Bool := false
  pendBelow : Bool := false
  mp : Int := 0
  lastM : Option (Int × Nat) := none
  stalled : Bool := false
  backlog : Bool := false
  limP : Bool := false
  limN : Bool := false
  homeIn : Bool := false
  /-- Homing phase (R394, R395): 0 none, 1 search, 2 stop before the back-off, 3 back off until the input is inactive,
  4 the HOME_BACKOFF steps, 5 approach, 6 last stop, 7 moving on in a reversed search, 8 stop before the reversed
  search. -/
  homing : Nat := 0
  homeRev : Bool := false
  stopping : Bool := false
  /-- Direction of the last step. -/
  lastNeg : Bool := false
  /-- Press time in ns at which the last step began and at which DIRn last changed, and the direction that DIRn shows
  (R380). -/
  stepT : Option Nat := none
  /-- Press times in ns of the last 8 steps, newest first (R394). -/
  stepHist : List Nat := []
  dirT : Option Nat := none
  dirNeg : Bool := false
  pref : Int := 0
  eref : Int := 0
  /-- Position of the shared STEP ball: the pulses on it, with the offsets of R402 (R371). -/
  counted : Int := 0
  fault : Bool := false
deriving DecidableEq, Repr

/-- A compare unit (R397 to R400). -/
structure Cmp where
  armed : Bool := false
  neg : Bool := false
  value : Int := 0
  passed : Bool := false
deriving DecidableEq, Repr

/-- Axes and compare units (13). -/
structure Motion where
  axes : Tab Axis := []
  cmps : Tab Cmp := []
deriving DecidableEq, Repr

/-- The event controller (14). Bit s of each mask is source s. -/
structure Evc where
  pend : Nat := 0
  active : Nat := 0
  en : Nat := 0
  gpio : Nat := 0
  flags : Nat := 0
  /-- The message of the target 4 flag waits in the pending bit array (R413). -/
  msixHeld : Bool := false
deriving DecidableEq, Repr

/-- A temperature sensor (R431, R432). -/
structure Sensor where
  failed : Bool := false
  reason : Nat := 0
  value : Int := 0
  last : Option (Int × Nat) := none
  good : Nat := 0
  hotSeen : Bool := false
deriving DecidableEq, Repr

/-- A voltage channel (R443). -/
structure Rail where
  warn : Nat := 0
  crit : Nat := 0
  warned : Bool := false
  critical : Bool := false
  goodW : Nat := 0
  goodC : Nat := 0
deriving DecidableEq, Repr

/-- Power states, temperatures, supplies (15). -/
structure Power where
  /-- CLK.PSTATE.STATE: 0 Run, 1 Ready, 2 entering, 3 Doze, 4 waking; 5 stands for Deep. -/
  pstate : Nat := 1
  waking : Bool := false
  resume : Bool := false
  /-- The trained delays in the Deep resume record: delay edge e of sub-channel k under key 16 x k + e (R423). -/
  resumeEdges : Tab Int := []
  sensors : Tab Sensor := []
  tmaxSensor : Nat := 0
  tmax : Int := 0
  level : Nat := 0
  hold : Bool := false
  holdSensor : Nat := 0
  /-- Press time of the last level change, in ns; none since reset. -/
  lastChange : Option Nat := none
  /-- 0 none, 1 orderly stop begun, 2 stopped. -/
  stop : Nat := 0
  tripped : Bool := false
  tripSensor : Nat := 0
  tripValue : Int := 0
  rails : Tab Rail := []
  avsLow : Nat := 0
  lastLower : Option Nat := none
  pmbFails : Nat := 0
  avsHeld : Bool := false
  voutMode : Nat := 0
  /-- The press time and web position that the TRIP record holds (R440). -/
  tripNs : Nat := 0
  tripPos : Int := 0
  fast : Bool := false
  camPll : Bool := false
  rc : Bool := true
  /-- Words of TSENSE, RDIODE and MONADC entries before the applies that a running conversion may not have seen, newest
  first, by the offset of the live word (R458). -/
  trimPast : Tab (List Nat) := []
  /-- A READ_VOUT that checks a change of V is being retried (R447). -/
  voutRetry : Bool := false
deriving DecidableEq, Repr

/-- Display (17). -/
structure Disp where
  /-- 0 off, 1 training, 2 running, 3 black frame, 4 link down. -/
  state : Nat := 0
  hpd : Bool := false
  maxRate : Nat := 0
  maxLanes : Nat := 0
  rate : Nat := 0
  lanes : Nat := 0
  armedLate : Bool := false
  mismatches : Nat := 0
  matches_ : Nat := 60
  crcRecorded : Bool := false
  /-- Layers that underran in the present frame, with the pixel from which each is off. -/
  offLayers : List (Nat × Nat) := []
  lastActive : Bool := false
  /-- The line that the scan began to show, and the press time in ns at which it did (R468). -/
  scanLine : Nat := 0
  scanNs : Nat := 0
  /-- Preview: the planes that have sampled each line not yet composed, and the newest composed line. -/
  sampled : Tab Nat := []
  newest : Option Nat := none
  shown : Option Nat := none
  switching : Bool := false
deriving DecidableEq, Repr

/-- Logs, reset and the flash (16, 18). -/
structure Sys where
  seq : Nat := 0
  ramLog : List FaultRecord := []
  nvWait : List FaultRecord := []
  /-- Press-time second of the last record programmed, and the records programmed in it (R487). -/
  nvSec : Nat := 0
  nvCount : Nat := 0
  nvLog : List FaultRecord := []
  /-- The unit is stopped by a class D fault (R481). -/
  stopped : Bool := false
  inReset : Bool := false
  powered : Bool := true
  bootState : Nat := 0
  cause : Nat := 0
  slot : Nat := 0
  triedOther : Bool := false
  bootFailSeen : Bool := false
  /-- The reset record: press time, web position, build line, SEQ last copied (R485). -/
  recSec : Nat := 0
  recNs : Nat := 0
  recPos : Int := 0
  recLine : Nat := 281474976710655
  recSeq : Nat := 0
  lateFaults : List (Nat × Nat) := []
  memLost : Bool := true
  /-- Running flash operation: 0 none, 1 READ, 2 PROGRAM, 3 ERASE. -/
  flashOp : Nat := 0
  /-- A watchdog of a single unit has expired: SLOW_REQ stays asserted until Ready (R23). -/
  wdStop : Bool := false
  /-- Pages of the boot flash that have been programmed or erased, 256 bytes each. -/
  flash : Tab (List Byte) := []
  /-- Records programmed into the non-volatile log: the place of the next (R487). -/
  nvNext : Nat := 0
deriving DecidableEq, Repr

/-- The whole block. -/
structure State where
  /-- Words of the register window by byte address; an unlisted address reads its reset value (R25). -/
  regs : Tab Word := []
  /-- Committed values of shadowed registers (R38). -/
  committed : Tab Word := []
  /-- Held low words of 64-bit registers (R37). -/
  held : Tab Word := []
  /-- High-word latch of each requester (R36), and its captured sets (R160). -/
  latches : Tab Nat := []
  captured : Tab Word := []
  /-- The word that the last read of each requester returned: the model's own record. -/
  lastRead : Tab Word := []
  /-- Live counters and their Rime copies, key 128 x page + k (R28). -/
  counters : Tab Nat := []
  rime : Tab Nat := []
  clk : Clock := {}
  chans : Tab Channel := []
  print : Print := {}
  dram : Dram := {}
  host : HostSide := {}
  links : Links := {}
  cams : Cams := {}
  pair : PairSt := {}
  motion : Motion := {}
  evc : Evc := {}
  power : Power := {}
  disp : Disp := {}
  sys : Sys := {}
  /-- Snapshot armed: the causes that wait (R55). -/
  snapWait : List Nat := []
  /-- Free values drawn so far: the model's own counter. -/
  freeCount : Nat := 0
  /-- Everything the block has sent, oldest first. -/
  out : List Out := []
  /-- Commands that wait, first in, first out. -/
  pending : List Instr := []
deriving DecidableEq, Repr

/-- The block right after power-on reset. -/
def State.reset : State := {}

end Sys2Proof.Machine
end

