-- ==== Sys2Proof/Machine/RegMap.lean ====
section
/-! DEFINITION. The register map: which words the register window has, which bits of them are writable and how, their
reset values and value ranges, from the register maps of the chapters; and the page table of R27 and the table windows
of R46. -/

namespace Sys2Proof.Machine

open Sys2Proof

/-- A field with a value range: bits [hi:lo] hold min to max, signed where `sgn` (R509). -/
structure RangeSpec where
  hi : Nat
  lo : Nat
  min : Int
  max : Int
  sgn : Bool
deriving DecidableEq, Repr

/-- A register, or an array of `n` registers `stride` bytes apart. The masks give the bits of each access code of R5;
bits in no mask are RO or RZ. `boot` are the bits loaded by boot firmware; `half` is 1 for the low word and 2 for the
high word of a 64-bit register (R37); `sh` marks a shadowed register (R38). -/
structure RegSpec where
  off : Nat
  n : Nat := 1
  stride : Nat := 4
  rw : Nat := 0
  w1s : Nat := 0
  w1c : Nat := 0
  wo : Nat := 0
  rc : Nat := 0
  reset : Nat := 0
  boot : Nat := 0
  sh : Bool := false
  half : Nat := 0
  ranges : List RangeSpec := []
deriving DecidableEq, Repr

/-- Registers of the SYS page, from the register map of its chapter. -/
def regsSys : List RegSpec := [
  { off := 0x40, reset := 0x260800B1 }, -- ID (SYS-regs)
  { off := 0x44, boot := 0xFFFFFFFF }, -- FW (SYS-regs)
  { off := 0x48, rw := 0x7 }, -- COMMIT_REF (R39)
  { off := 0x4C }, -- STRAPS (R476)
  { off := 0x50 }, -- RESET_CAUSE (R474)
  { off := 0x54 }, -- BOOT_STAT (R478)
  { off := 0x58 }, -- SELFTEST (R480)
  { off := 0x60 }, -- FLOG_SEQ (R482)
  { off := 0x64, rw := 0xFFFFFFFF }, -- FLOG_SEL (R487)
  { off := 0x100, n := 16 } -- FLOG_DATA (R487)
]

/-- Registers of the CLK page, from the register map of its chapter. -/
def regsClk : List RegSpec := [
  { off := 0x40, wo := 0x3, reset := 0x10 }, -- PSTATE (R420)
  { off := 0x44, rw := 0x3FF, reset := 0xC }, -- WAKE_CFG (R424)
  { off := 0x48, rw := 0xF }, -- WAKE_POL (R424)
  { off := 0x4C, rw := 0xFFFFFFFF, ranges := [⟨31, 0, 1, 4294967295, false⟩] }, -- WAKE_TIMER (R424)
  { off := 0x50 }, -- WAKE_CAUSE (R424)
  { off := 0x54 } -- PLL_STAT (R418)
]

/-- Registers of the THM page, from the register map of its chapter. -/
def regsThm : List RegSpec := [
  { off := 0x40, rw := 0xFFFF, reset := 0x690, ranges := [⟨15, 0, 1120, 1680, true⟩] }, -- THROTTLE (R434)
  { off := 0x44, rw := 0xFFFF, reset := 0x730, ranges := [⟨15, 0, 1280, 1840, true⟩] }, -- STOP (R438)
  { off := 0x48, reset := 0x7D0 }, -- TRIP (R439)
  { off := 0x4C, rw := 0xFF, reset := 0x30, ranges := [⟨7, 0, 16, 160, false⟩] }, -- HYST (R434)
  { off := 0x50 }, -- STAT (R434)
  { off := 0x54, wo := 0x1 }, -- CMD (R438)
  { off := 0x100, n := 24 }, -- TEMP (R432)
  { off := 0x180, n := 24, rw := 0xFFFFFF, boot := 0xFFFFFF }, -- NBR (R431)
  { off := 0x200, n := 8, rw := 0xF000FFFF, reset := 0x4083 }, -- RCFG (R430)
  { off := 0x220, n := 8, rw := 0xFFFF, reset := 0x550 }, -- ALERT (R433)
  { off := 0x300, n := 33, rw := 0xFFFF }, -- NTC0 (R430)
  { off := 0x384, n := 33, rw := 0xFFFF }, -- NTC1 (R430)
  { off := 0x408, n := 33, rw := 0xFFFF }, -- NTC2 (R430)
  { off := 0x48C, n := 33, rw := 0xFFFF }, -- NTC3 (R430)
  { off := 0x510, n := 33, rw := 0xFFFF }, -- NTC4 (R430)
  { off := 0x594, n := 33, rw := 0xFFFF }, -- NTC5 (R430)
  { off := 0x618, n := 33, rw := 0xFFFF }, -- NTC6 (R430)
  { off := 0x69C, n := 33, rw := 0xFFFF } -- NTC7 (R430)
]

/-- Registers of the MON page, part 1, from the register map of its chapter. -/
def regsMonA : List RegSpec := [
  { off := 0x40, n := 12 }, -- VAL (R443)
  { off := 0x80, reset := 0x30C02D0 }, -- LIM0 (R443)
  { off := 0x84, rw := 0xFFFFFFFF, reset := 0x37D0328 }, -- LIM0 (R443)
  { off := 0x88, rw := 0xFFFFFFFF, reset := 0x34802F8 }, -- LIM1 (R443)
  { off := 0x8C, rw := 0xFFFFFFFF, reset := 0x4830415 }, -- LIM2 (R443)
  { off := 0x90, rw := 0xFFFFFFFF, reset := 0x31402C9 }, -- LIM3 (R443)
  { off := 0x94, rw := 0xFFFFFFFF, reset := 0x3B10357 }, -- LIM4 (R443)
  { off := 0x98, rw := 0xFFFFFFFF, reset := 0x3B10357 }, -- LIM5 (R443)
  { off := 0x9C, rw := 0xFFFFFFFF, reset := 0x4EC0474 }, -- LIM6 (R443)
  { off := 0xA0, rw := 0xFFFFFFFF, reset := 0x3B10357 }, -- LIM7 (R443)
  { off := 0xA4, rw := 0xFFFFFFFF, reset := 0x76206AE }, -- LIM8 (R443)
  { off := 0xA8, rw := 0xFFFFFFFF, reset := 0xD890C3F }, -- LIM9 (R443)
  { off := 0xAC, rw := 0xFFFFFFFF, reset := 0x4EC0474 }, -- LIM10 (R443)
  { off := 0xC0, rw := 0xFFFFFFFF, reset := 0x384028A }, -- CRIT0 (R443)
  { off := 0xC4, rw := 0xFFFFFFFF, reset := 0x3A702FD }, -- CRIT1 (R443)
  { off := 0xC8, rw := 0xFFFFFFFF, reset := 0x37002D0 }, -- CRIT2 (R443)
  { off := 0xCC, rw := 0xFFFFFFFF, reset := 0x4BA03DE }, -- CRIT3 (R443)
  { off := 0xD0, rw := 0xFFFFFFFF, reset := 0x33902A3 }, -- CRIT4 (R443)
  { off := 0xD4, rw := 0xFFFFFFFF, reset := 0x3DE032A }, -- CRIT5 (R443)
  { off := 0xD8, rw := 0xFFFFFFFF, reset := 0x3DE032A }, -- CRIT6 (R443)
  { off := 0xDC, rw := 0xFFFFFFFF, reset := 0x5280438 }, -- CRIT7 (R443)
  { off := 0xE0, rw := 0xFFFFFFFF, reset := 0x3DE032A }, -- CRIT8 (R443)
  { off := 0xE4, rw := 0xFFFFFFFF, reset := 0x7BC0654 }, -- CRIT9 (R443)
  { off := 0xE8, rw := 0xFFFFFFFF, reset := 0xE2E0B9A } -- CRIT10 (R443)
]

/-- Registers of the MON page, part 2, from the register map of its chapter. -/
def regsMonB : List RegSpec := [
  { off := 0xEC, rw := 0xFFFFFFFF, reset := 0x5280438 }, -- CRIT11 (R443)
  { off := 0x100, n := 8 }, -- RO (R444)
  { off := 0x120, rw := 0x800FFFFF, boot := 0x800FFFFF }, -- AVS_CFG (R445)
  { off := 0x124, rw := 0xFFFF, reset := 0x64 }, -- AVS_HYST (R445)
  { off := 0x128, reset := 0x2EE }, -- VCORE_SET (R445)
  { off := 0x12C, rw := 0xFFFFFFFF, reset := 0x35202BC, ranges := [⟨31, 16, 700, 850, false⟩, ⟨15, 0, 700, 850, false⟩] }, -- VCORE_LIM (R445)
  { off := 0x130, rw := 0x37F, reset := 0x260 }, -- PMB_CFG (R446)
  { off := 0x134 }, -- PMB_STAT (R447)
  { off := 0x138 }, -- VOUT_READ (R447)
  { off := 0x13C } -- IOUT_READ (R446)
]

/-- All registers of the MON page. -/
def regsMon : List RegSpec := regsMonA ++ regsMonB

/-- Registers of the TRIM page, from the register map of its chapter. -/
def regsTrim : List RegSpec := [
  { off := 0x40, wo := 0x707, ranges := [⟨2, 0, 0, 5, false⟩] }, -- CMD (R453)
  { off := 0x44 }, -- STAT (R453)
  { off := 0x48, rw := 0xFF, reset := 0x10, ranges := [⟨7, 0, 1, 255, false⟩] }, -- LIMIT0 (R450)
  { off := 0x4C, rw := 0xFF, reset := 0x14, ranges := [⟨7, 0, 1, 255, false⟩] }, -- LIMIT1 (R450)
  { off := 0x50, rw := 0xFF, reset := 0x20, ranges := [⟨7, 0, 1, 255, false⟩] }, -- LIMIT2 (R450)
  { off := 0x54, rw := 0xFF, reset := 0x28, ranges := [⟨7, 0, 1, 255, false⟩] }, -- LIMIT3 (R450)
  { off := 0x58, rw := 0xFF, reset := 0x8, ranges := [⟨7, 0, 1, 255, false⟩] }, -- LIMIT4 (R450)
  { off := 0x5C, rw := 0xFF, reset := 0x6, ranges := [⟨7, 0, 1, 255, false⟩] }, -- LIMIT5 (R450)
  { off := 0x100, n := 16 }, -- LIVE TSENSE (R450)
  { off := 0x140, n := 8 }, -- LIVE RDIODE (R450)
  { off := 0x160, n := 1 }, -- LIVE MONADC gain (R450)
  { off := 0x164, n := 1 }, -- LIVE MONADC offset (R450)
  { off := 0x168, n := 1 }, -- LIVE OSC (R450)
  { off := 0x180, n := 52 }, -- LIVE LANE (R450)
  { off := 0x260, n := 8 }, -- LIVE DDRPHY (R450)
  { off := 0x300, n := 16, rw := 0x3f }, -- STAGING TSENSE (R450)
  { off := 0x340, n := 8, rw := 0x7f }, -- STAGING RDIODE (R450)
  { off := 0x360, n := 1, rw := 0xff }, -- STAGING MONADC gain (R450)
  { off := 0x364, n := 1, rw := 0x3f }, -- STAGING MONADC offset (R450)
  { off := 0x368, n := 1, rw := 0xff }, -- STAGING OSC (R450)
  { off := 0x380, n := 52, rw := 0x3ff3 }, -- STAGING LANE (R450)
  { off := 0x460, n := 8, rw := 0x1f1f }, -- STAGING DDRPHY (R450)
  { off := 0x500, n := 16 }, -- FACTORY TSENSE (R450)
  { off := 0x540, n := 8 }, -- FACTORY RDIODE (R450)
  { off := 0x560, n := 1 }, -- FACTORY MONADC gain (R450)
  { off := 0x564, n := 1 }, -- FACTORY MONADC offset (R450)
  { off := 0x568, n := 1 }, -- FACTORY OSC (R450)
  { off := 0x580, n := 52 }, -- FACTORY LANE (R450)
  { off := 0x660, n := 8 } -- FACTORY DDRPHY (R450)
]

/-- Registers of the EVC0 page, from the register map of its chapter. -/
def regsEvc0 : List RegSpec := [
  { off := 0x40, n := 16 }, -- RAW (R405)
  { off := 0x80, n := 16 }, -- PEND (R405)
  { off := 0xC0, n := 16, w1s := 0xFFFFFFFF }, -- PEND_SET (R406)
  { off := 0x100, n := 16, w1c := 0xFFFFFFFF }, -- PEND_CLR (R406)
  { off := 0x140, n := 16 }, -- EN (R406)
  { off := 0x180, n := 16, w1s := 0xFFFFFFFF }, -- EN_SET (R406)
  { off := 0x1C0, n := 16, w1c := 0xFFFFFFFF }, -- EN_CLR (R406)
  { off := 0x200, n := 16 }, -- ACTIVE (R408)
  { off := 0x244, rw := 0x73F }, -- HOST_CFG (R412)
  { off := 0x248, rw := 0x1FFFE }, -- EVMSG_SESS (R414)
  { off := 0x24C, rw := 0x3FF, reset := 0xA, ranges := [⟨9, 0, 1, 1000, false⟩] }, -- EVMSG_REPEAT (R414)
  { off := 0x250, rw := 0xFF } -- GPIO_FILT (R404)
]

/-- Registers of the EVC1 page, from the register map of its chapter. -/
def regsEvc1 : List RegSpec := [
  { off := 0x40, n := 256, rw := 0x7F7 } -- SRCCFG (R416)
]

/-- Registers of the EVC2 page, from the register map of its chapter. -/
def regsEvc2 : List RegSpec := [
  { off := 0x40, n := 256, rw := 0x7F7 } -- SRCCFG (R416)
]

/-- Registers of the EVC3 page, from the register map of its chapter. -/
def regsEvc3 : List RegSpec := [
  { off := 0x40, n := 5, stride := 0x10 }, -- CLAIM (R408)
  { off := 0x44, n := 5, stride := 0x10, wo := 0x1FF }, -- COMPLETE (R409)
  { off := 0x48, n := 5, stride := 0x10, rw := 0xF }, -- THRESH (R407)
  { off := 0x4C, n := 5, stride := 0x10 } -- TOP (R407)
]

/-- Registers of the PIN page, from the register map of its chapter. -/
def regsPin : List RegSpec := [
  { off := 0x40, n := 4, rw := 0xF, ranges := [⟨3, 0, 0, 2, false⟩] }, -- OWN_ENC (R49)
  { off := 0x80, n := 32, rw := 0xF, ranges := [⟨3, 0, 0, 3, false⟩] }, -- OWN_CMP (R49)
  { off := 0x100, n := 24, rw := 0xF, ranges := [⟨3, 0, 0, 2, false⟩] }, -- OWN_THAW (R49)
  { off := 0x200, rw := 0xFFFFFFF0 }, -- GPIO_DIR (R53)
  { off := 0x204, rw := 0xFFFFFFF0 }, -- GPIO_OD (R53)
  { off := 0x208, rw := 0xFFFFFFFF }, -- GPIO_OUT (R53)
  { off := 0x20C, w1s := 0xFFFFFFFF }, -- GPIO_OUT_SET (R53)
  { off := 0x210, w1c := 0xFFFFFFFF }, -- GPIO_OUT_CLR (R53)
  { off := 0x214 } -- GPIO_IN (R53)
]

/-- Registers of the NVM page, from the register map of its chapter. -/
def regsNvm : List RegSpec := [
  { off := 0x40, rw := 0x1 }, -- CFG (R488)
  { off := 0x44, rw := 0x7FFFFFF }, -- ADDR (R488)
  { off := 0x48, wo := 0x3 }, -- CMD (R488)
  { off := 0x4C }, -- STAT (R488)
  { off := 0x50, boot := 0xFFFFFFFF }, -- SIZE (R488)
  { off := 0x54, rw := 0x3 }, -- BOOT_PREF (R489)
  { off := 0x100, n := 64, rw := 0xFFFFFFFF } -- BUF (R488)
]

/-- Registers of the ETH page, from the register map of its chapter. -/
def regsEth : List RegSpec := [
  { off := 0x40, rw := 0x378, boot := 0x378 }, -- PORT_CFG (R58)
  { off := 0x44, rw := 0x7FFF, boot := 0x7FFF }, -- VLAN (R58)
  { off := 0x48, rw := 0xFFFFFFFF, boot := 0xFFFFFFFF, half := 1 }, -- MAC_LO (R37, R58)
  { off := 0x4C, rw := 0xFFFF, boot := 0xFFFF, half := 2 }, -- MAC_HI (R37, R58)
  { off := 0x50 } -- LINK (R58)
]

/-- Registers of the GSH0 page, from the register map of its chapter. -/
def regsGsh0 : List RegSpec := [
  { off := 0x40, rw := 0xE000FFFF, reset := 0xE000B400 }, -- UDP_CFG (R66)
  { off := 0x44, rw := 0xFFFF, reset := 0xBB8, ranges := [⟨15, 0, 100, 60000, false⟩] }, -- SESSION_TIMEOUT (R66)
  { off := 0x48, rw := 0xFFF, reset := 0x3C, ranges := [⟨11, 0, 0, 3600, false⟩] }, -- RESUME_LIMIT (R66)
  { off := 0x4C, rw := 0xFFFFFFFF, boot := 0xFFFFFFFF }, -- UNIT_V4 (R85)
  { off := 0x50, n := 4, rw := 0xFFFFFFFF, boot := 0xFFFFFFFF }, -- UNIT_V6 (R85)
  { off := 0x60, rw := 0xFFFFFFFF, boot := 0xFFFFFFFF }, -- SVC_V4 (R85)
  { off := 0x64, n := 4, rw := 0xFFFFFFFF, boot := 0xFFFFFFFF }, -- SVC_V6 (R85)
  { off := 0x74 } -- SESS_OPEN (R66)
]

/-- Registers of the GSH1 page, from the register map of its chapter. -/
def regsGsh1 : List RegSpec := [
  { off := 0x40, n := 32, stride := 0x20, rw := 0xFFFFF000, half := 1 }, -- BASE_LO (R37, R68)
  { off := 0x44, n := 32, stride := 0x20, rw := 0xFFFFFFFF, half := 2 }, -- BASE_HI (R37, R68)
  { off := 0x48, n := 32, stride := 0x20, rw := 0x8000000F }, -- CFG (R68)
  { off := 0x4C, n := 32, stride := 0x20 }, -- HEAD (R69)
  { off := 0x50, n := 32, stride := 0x20 } -- TAIL (R69)
]

/-- Registers of the GSH2 page, from the register map of its chapter. -/
def regsGsh2 : List RegSpec := [
  { off := 0x40, n := 32, stride := 0x20, rw := 0xFFFFF000, half := 1 }, -- BASE_LO (R37, R68)
  { off := 0x44, n := 32, stride := 0x20, rw := 0xFFFFFFFF, half := 2 }, -- BASE_HI (R37, R68)
  { off := 0x48, n := 32, stride := 0x20, rw := 0x801F800F }, -- CFG (R68)
  { off := 0x4C, n := 32, stride := 0x20 }, -- HEAD (R70)
  { off := 0x50, n := 32, stride := 0x20 } -- TAIL (R70)
]

/-- Registers of the JRN page, from the register map of its chapter. -/
def regsJrn : List RegSpec := [
  { off := 0x40 }, -- STAT (R80)
  { off := 0x44 } -- EPOCH (R83)
]

/-- Registers of the PTC page, part 1, from the register map of its chapter. -/
def regsPtcA : List RegSpec := [
  { off := 0x40, rw := 0xFF3731, reset := 0x10, boot := 0xFF3721, ranges := [⟨13, 12, 0, 2, false⟩, ⟨9, 8, 0, 2, false⟩] }, -- CFG (R320)
  { off := 0x44 }, -- STAT (R320)
  { off := 0x48, wo := 0x7 }, -- CMD (R322)
  { off := 0x50, rw := 0xFFFFFFFF, half := 1 }, -- INCR_LO (R318)
  { off := 0x54, rw := 0xFF, reset := 0x4, half := 2 }, -- INCR_HI (R318)
  { off := 0x58 }, -- TIME_FRAC (R316)
  { off := 0x5C }, -- TIME_NS (R316)
  { off := 0x60 }, -- TIME_SEC_LO (R316)
  { off := 0x64 }, -- TIME_SEC_HI (R316)
  { off := 0x68, rw := 0x3FFFFFFF, ranges := [⟨29, 0, 0, 999999999, false⟩] }, -- SET_NS (R322)
  { off := 0x6C, rw := 0xFFFFFFFF, half := 1 }, -- SET_SEC_LO (R322)
  { off := 0x70, rw := 0xFFFF, half := 2 }, -- SET_SEC_HI (R322)
  { off := 0x74, rw := 0xFFFFFFFF, ranges := [⟨31, 0, -999999999, 999999999, true⟩] }, -- ADJ_NS (R322)
  { off := 0x78, rw := 0xFFFFF, reset := 0x3E8, ranges := [⟨19, 0, 100, 1000000, false⟩] }, -- JUMP_THRESHOLD (R325)
  { off := 0x7C, rw := 0x7F, reset := 0xA, ranges := [⟨6, 0, 1, 100, false⟩] }, -- SLEW_MAX (R321)
  { off := 0x80, rw := 0xFFF, reset := 0x64, ranges := [⟨11, 0, 10, 4000, false⟩] }, -- LOCK_NS (R321)
  { off := 0x84, rw := 0xFFF, reset := 0x64, ranges := [⟨11, 0, 10, 4000, false⟩] }, -- PAIR_LIMIT (R338)
  { off := 0x88, rw := 0xFFFFFFFF, reset := 0x8080F8FE }, -- DS (R329)
  { off := 0x8C, rw := 0xFFFFFF0F, reset := 0xFD000003, ranges := [⟨31, 24, -7, 1, true⟩, ⟨23, 16, -3, 4, true⟩, ⟨15, 8, -7, 5, true⟩, ⟨3, 0, 2, 10, false⟩] }, -- INTERVALS (R329)
  { off := 0x90 }, -- OFFSET (R333)
  { off := 0x94 }, -- MPD (R333)
  { off := 0x98 }, -- GM_LO (R326)
  { off := 0x9C }, -- GM_HI (R326)
  { off := 0xA0, n := 4, boot := 0xFFFFFFFF } -- LAT (R332)
]

/-- Registers of the PTC page, part 2, from the register map of its chapter. -/
def regsPtcB : List RegSpec := [
  { off := 0xB0, n := 4, rw := 0xFFFFFFFF } -- ASYM (R332)
]

/-- All registers of the PTC page. -/
def regsPtc : List RegSpec := regsPtcA ++ regsPtcB

/-- Registers of the DRC page, from the register map of its chapter. -/
def regsDrc : List RegSpec := [
  { off := 0x40 }, -- STAT (R137)
  { off := 0x44 }, -- MARGIN (R140)
  { off := 0x48, rw := 0xF, reset := 0x4, ranges := [⟨3, 0, 1, 15, false⟩] }, -- MARGIN_MIN (R140)
  { off := 0x50, n := 3, stride := 0x10, rw := 0xFFF0FFF, boot := 0xFFF0FFF }, -- TSET_REF (R136)
  { off := 0x54, n := 3, stride := 0x10, rw := 0xFFFFFFFF, boot := 0xFFFFFFFF }, -- TSET_CMD (R125)
  { off := 0x58, n := 3, stride := 0x10, rw := 0xFFFFFF, boot := 0xFFFFFF } -- TSET_WR (R125)
]

/-- Registers of the DRG page, from the register map of its chapter. -/
def regsDrg : List RegSpec := [
  { off := 0x40, rw := 0x8C07, reset := 1, boot := 0x0C06, ranges := [⟨11, 10, 0, 2, false⟩] }, -- CFG (R141, R146)
  { off := 0x44, rw := 0x3, w1s := 0x100, ranges := [⟨1, 0, 0, 2, false⟩] }, -- FREQ (R141)
  { off := 0x48, rw := 0xFFF, reset := 0xFA, ranges := [⟨11, 0, 1, 4095, false⟩] }, -- AGE_LIMIT1 (R130)
  { off := 0x4C, rw := 0xFFF, reset := 0x1F4, ranges := [⟨11, 0, 1, 4095, false⟩] }, -- AGE_LIMIT2 (R130)
  { off := 0x50, rw := 0xFFF, reset := 0x7D, ranges := [⟨11, 0, 1, 4095, false⟩] }, -- AGE_LIMIT3 (R130)
  { off := 0x54, rw := 0xFFF, reset := 0x7D0, ranges := [⟨11, 0, 1, 4095, false⟩] }, -- AGE_LIMIT4 (R130)
  { off := 0x58, rw := 0x1F, reset := 0x10, ranges := [⟨4, 0, 1, 31, false⟩] }, -- HIT_STREAK (R129)
  { off := 0x5C, rw := 0xFFF, reset := 0x28, ranges := [⟨11, 0, 0, 1000, false⟩] }, -- RESERVE (R145)
  { off := 0x60, boot := 0xFFFFFFFF }, -- USABLE (R144)
  { off := 0x64, reset := 0xFFF }, -- VD_CAP (R145)
  { off := 0x68, reset := 0xFFFFF }, -- SPEED_ADV (R145)
  { off := 0x6C, rw := 0xFFFFF, reset := 0x550 }, -- HOT_CFG (R137)
  { off := 0x70 }, -- HOT_STAT (R138)
  { off := 0x74, rw := 0x1, reset := 0x1 }, -- RETRAIN (R139)
  { off := 0x78 } -- SIZE (R127), read through the installed memory
]

/-- Registers of the FIRN page, from the register map of its chapter. -/
def regsFirn : List RegSpec := [
  { off := 0x40, rw := 0x3FFFF, boot := 0x3FFFF, sh := true }, -- STORE_BASE (R101)
  { off := 0x44, rw := 0x3FFFF, boot := 0x3FFFF, sh := true }, -- STORE_SIZE (R101)
  { off := 0x48, rw := 0x3FFFF, boot := 0x3FFFF, sh := true }, -- WIN_BASE (R101)
  { off := 0x4C, rw := 0x3FFFF, boot := 0x3FFFF, sh := true }, -- WIN_SIZE (R101)
  { off := 0x50, rw := 0x3FFFF, boot := 0x3FFFF, sh := true }, -- DESC_BASE (R101)
  { off := 0x54, rw := 0x3FFFFF, boot := 0x3FFFFF, sh := true, ranges := [⟨21, 0, 0, 2097152, false⟩] }, -- DESC_COUNT (R123)
  { off := 0x58, rw := 0xFFFF, reset := 0x1000, ranges := [⟨15, 0, 16, 65535, false⟩] }, -- RING_ROWS (R102)
  { off := 0x5C, rw := 0x1, reset := 0x1 }, -- CFG (R122)
  { off := 0x60, rw := 0x3FF, reset := 0xA, ranges := [⟨9, 0, 1, 600, false⟩] }, -- FRAG_TIMEOUT (R98)
  { off := 0x64, rw := 0x3FFF, reset := 0x64, ranges := [⟨13, 0, 10, 10000, false⟩] }, -- REQ_TIMEOUT (R117)
  { off := 0x68 }, -- FREE (R511)
  { off := 0x6C }, -- CHECK_ERR (R123)
  { off := 0x70, rw := 0x3FFFF, boot := 0x3FFFF, sh := true, ranges := [⟨17, 0, 0, 131072, false⟩] } -- DESC_SIZE (R123)
]

/-- Registers of the THAW page, from the register map of its chapter. -/
def regsThaw : List RegSpec := [
  { off := 0x40, rw := 0x1F, reset := 0x16, ranges := [⟨4, 0, 1, 24, false⟩] }, -- CFG (R107)
  { off := 0x44, rw := 0x3FFF, reset := 0x200, sh := true, ranges := [⟨13, 0, 64, 8192, false⟩] }, -- DIST (R108)
  { off := 0x48 }, -- BUSY (R107)
  { off := 0x4C }, -- LAST_ERR (R113)
  { off := 0x50 } -- PRINT_HELD (R107)
]

/-- Registers of the FRZ page, from the register map of its chapter. -/
def regsFrz : List RegSpec := [
  { off := 0x40, rw := 0x7F, reset := 0x10, ranges := [⟨6, 0, 1, 127, false⟩] }, -- CFG (R118)
  { off := 0x44 } -- STAT (R118)
]

/-- Registers of the POS page, part 1, from the register map of its chapter. -/
def regsPosA : List RegSpec := [
  { off := 0x40, rw := 0xFFFF, reset := 0x2000, ranges := [⟨2, 0, 0, 4, false⟩] }, -- CFG (R147)
  { off := 0x44, rw := 0x3FFFFFF, reset := 0x30D40, ranges := [⟨25, 0, 1000, 10000000, false⟩] }, -- SPD_XOVER (R166)
  { off := 0x48, rw := 0xFFFFFF, reset := 0x4E20, ranges := [⟨23, 0, 0, 1000000, false⟩] }, -- SPD_HYST (R166)
  { off := 0x4C, rw := 0xFF, reset := 0x10, ranges := [⟨7, 0, 1, 255, false⟩] }, -- SPD_AVG (R165)
  { off := 0x50, rw := 0x3FFF, reset := 0x64, ranges := [⟨13, 0, 10, 10000, false⟩] }, -- SPD_WIN (R165)
  { off := 0x54, rw := 0x3FFF, reset := 0x64, ranges := [⟨13, 0, 1, 10000, false⟩] }, -- STILL_TIMEOUT (R167)
  { off := 0x58, rw := 0xFFFFFFFF }, -- REV_COUNTS (R168)
  { off := 0x5C, rw := 0xFFFFFFFF }, -- INDEX_EXP (R168)
  { off := 0x60, rw := 0x7FFF, reset := 0x4 }, -- INDEX_TOL (R170)
  { off := 0x64, rw := 0xFF, reset := 0x3, ranges := [⟨7, 0, 1, 255, false⟩] }, -- INDEX_ERR_LIMIT (R170)
  { off := 0x68, rw := 0xFFFF7F, reset := 0x33119, ranges := [⟨23, 16, 1, 255, false⟩, ⟨15, 8, 24, 255, false⟩, ⟨5, 0, 8, 40, false⟩] }, -- SER_CFG (R154)
  { off := 0x6C, rw := 0x1FFFF, reset := 0x32, ranges := [⟨16, 0, 5, 100000, false⟩] }, -- SER_PERIOD (R154)
  { off := 0x70, rw := 0xFFF, reset := 0x14, ranges := [⟨11, 0, 1, 4095, false⟩] }, -- SER_TIMEOUT (R155)
  { off := 0x74, rw := 0xFFFF, reset := 0x40, ranges := [⟨15, 0, 2, 65535, false⟩] }, -- REVERSE_LIMIT (R164)
  { off := 0x78, rw := 0xFFFFFFFF, half := 1 }, -- POS_SET_LO (R161)
  { off := 0x7C, rw := 0xFFFFFFFF, half := 2 }, -- POS_SET_HI (R161)
  { off := 0x80, wo := 0x3 }, -- POS_CMD (R161)
  { off := 0x84 }, -- STAT (R162)
  { off := 0x88 }, -- POS_LO (R160)
  { off := 0x8C }, -- POS_HI (R160)
  { off := 0x90 }, -- LATCH_T_LO (R160)
  { off := 0x94 }, -- LATCH_T_HI (R160)
  { off := 0x98 }, -- SPEED_LO (R160)
  { off := 0x9C } -- SPEED_HI (R160)
]

/-- Registers of the POS page, part 2, from the register map of its chapter. -/
def regsPosB : List RegSpec := [
  { off := 0xA0 }, -- HIGH_LO (R163)
  { off := 0xA4 }, -- HIGH_HI (R163)
  { off := 0xA8 }, -- INDEX_POS_LO (R168)
  { off := 0xAC }, -- INDEX_POS_HI (R168)
  { off := 0xB0 }, -- INDEX_DEV (R168)
  { off := 0xB4, rw := 0xFFFFFFFF, reset := 0x8000, ranges := [⟨31, 0, 1, 4294967295, false⟩] } -- COUNT_LEN (R145)
]

/-- All registers of the POS page. -/
def regsPos : List RegSpec := regsPosA ++ regsPosB

/-- Registers of the LINE page, from the register map of its chapter. -/
def regsLine : List RegSpec := [
  { off := 0x40, n := 8, stride := 0x20, rw := 0x107, sh := true }, -- SRC (R174)
  { off := 0x44, n := 8, stride := 0x20, rw := 0xFFFFFFFF, reset := 0x2A5555, sh := true }, -- PITCH (R174)
  { off := 0x48, n := 8, stride := 0x20, rw := 0xFFFFFFFF, reset := 0x10003, sh := true }, -- CORR (R174)
  { off := 0x4C, n := 8, stride := 0x20, rw := 0xFF, reset := 0x40, sh := true }, -- AHEAD (R174)
  { off := 0x50, n := 8, stride := 0x20, rw := 0x33F, reset := 0xA }, -- MARK_CFG (R179)
  { off := 0x54, n := 8, stride := 0x20, rw := 0xFFFFFF }, -- MARK_WIN (R181)
  { off := 0x58, n := 8, stride := 0x20, rw := 0xFFFFFFFF, sh := true, half := 1 }, -- MARK_ADJ_LO (R180)
  { off := 0x5C, n := 8, stride := 0x20, rw := 0xFFFFFFFF, sh := true, half := 2 }, -- MARK_ADJ_HI (R180)
  { off := 0x140, n := 8 }, -- LSTAT (R181)
  { off := 0x160 } -- CHECK_ERR (R175)
]

/-- Registers of the BAR0 page, from the register map of its chapter. -/
def regsBar0 : List RegSpec := [
  { off := 0x40, rw := 0xF701, sh := true }, -- CFG (R200)
  { off := 0x44, rw := 0xF, sh := true }, -- SET_SEL (R193)
  { off := 0x48, rw := 0x1FFFF, sh := true }, -- FIRST (R184)
  { off := 0x4C, rw := 0x3FFFF, reset := 0x20000, sh := true, ranges := [⟨17, 0, 1, 131072, false⟩] }, -- NCOLS (R183)
  { off := 0x50, rw := 0xFFFF, sh := true }, -- SCREEN_PHASE (R208)
  { off := 0x54, rw := 0x1, sh := true }, -- TRIM_SEL (R195)
  { off := 0x58 } -- CHECK_ERR (R211)
]

/-- Registers of the BAR1 page, from the register map of its chapter. -/
def regsBar1 : List RegSpec := [
  { off := 0x40 }, -- WIN_HELD (R188)
  { off := 0x44, rc := 0x7F }, -- WIN_PEAK (R189)
  { off := 0x48 } -- STAGED (R47)
]

/-- Registers of the PLC page, from the register map of its chapter. -/
def regsPlc : List RegSpec := [
  { off := 0x40, rw := 0x1, sh := true }, -- PASS (R225)
  { off := 0x44, rw := 0xF, sh := true }, -- SET_SEL (R222)
  { off := 0x48, rw := 0xFFFFFF, sh := true }, -- FLIGHT (R217)
  { off := 0x4C, rw := 0xF, reset := 0x6, sh := true, ranges := [⟨3, 0, 3, 12, false⟩] }, -- LEAD (R217)
  { off := 0x50, rw := 0xFFFFFFFF, sh := true, half := 1 }, -- ORIGIN_LO (R212)
  { off := 0x54, rw := 0xFFFFFFFF, sh := true, half := 2 }, -- ORIGIN_HI (R212)
  { off := 0x58, rw := 0x3, reset := 0x2, sh := true }, -- OVS_CFG (R244)
  { off := 0x5C }, -- OVS_STAT (R241)
  { off := 0x60 }, -- LIMIT (R239)
  { off := 0x64 }, -- LIMIT_FAST (R239)
  { off := 0x68 }, -- MINP (R239)
  { off := 0x6C }, -- MINP_FAST (R239)
  { off := 0x70 }, -- CHECK_ERR (R245)
  { off := 0x80, n := 8, rw := 0xFFFFFF0F, sh := true }, -- ROW (R213)
  { off := 0xA0 }, -- SKIP_FIRST_LO (R243)
  { off := 0xA4 }, -- SKIP_FIRST_HI (R243)
  { off := 0xA8 }, -- SKIP_LAST_LO (R242)
  { off := 0xAC }, -- SKIP_LAST_HI (R242)
  { off := 0x100, n := 32, stride := 0x20, rw := 0xC701FFFF, sh := true }, -- HGEOM0 (R213)
  { off := 0x104, n := 32, stride := 0x20, rw := 0x1FFF000F, sh := true, ranges := [⟨28, 16, 1, 4096, false⟩, ⟨3, 0, 1, 8, false⟩] }, -- HGEOM1 (R213)
  { off := 0x108, n := 32, stride := 0x20, rw := 0x1FFFF, sh := true }, -- OWN_FIRST (R216)
  { off := 0x10C, n := 32, stride := 0x20, rw := 0x1FFFF, sh := true }, -- OWN_LAST (R216)
  { off := 0x110, n := 32, stride := 0x20, rw := 0xFFFFFFFF, sh := true }, -- HOFS (R213)
  { off := 0x114, n := 32, stride := 0x20, rw := 0x3F0007, sh := true, ranges := [⟨21, 16, 0, 47, false⟩] } -- LINK (R213)
]

/-- Registers of the WAVE page, from the register map of its chapter. -/
def regsWave : List RegSpec := [
  { off := 0x40, n := 16, rw := 0x1F1F1F1F, boot := 0x1F1F1F1F }, -- SET (R237)
  { off := 0x80 }, -- VALID (R234)
  { off := 0x84, wo := 0x1F }, -- VALIDATE (R234)
  { off := 0x88 }, -- VAL_ERR (R234)
  { off := 0x8C, rw := 0x3FFF, reset := 0x3E8, ranges := [⟨13, 0, 10, 10000, false⟩] }, -- TEMP_TIMEOUT (R236)
  { off := 0x90 } -- IN_USE (R238)
]

/-- Registers of the DRYP page, from the register map of its chapter. -/
def regsDryp : List RegSpec := [
  { off := 0x40, rw := 0xFFFFFFFF, reset := 0x3330000, sh := true, ranges := [⟨23, 20, 1, 15, false⟩] }, -- CFG (R229)
  { off := 0x44, rw := 0xFFFFFFFF, sh := true, half := 1 }, -- START_LO (R228)
  { off := 0x48, rw := 0xFFFF, sh := true, half := 2 }, -- START_HI (R228)
  { off := 0x4C, rw := 0x1, sh := true }, -- HEAD_HI (R229)
  { off := 0x50, rw := 0xFFFFFFFF, reset := 0x640000 }, -- LIMIT (R230)
  { off := 0x54 }, -- STAT (R229)
  { off := 0x58 }, -- CHECK_ERR (R229)
  { off := 0x400, n := 256 } -- RESULT (R229)
]

/-- Registers of the FLN page, from the register map of its chapter. -/
def regsFln : List RegSpec := [
  { off := 0x40, rw := 0x130, reset := 0x30 }, -- CFG (R277)
  { off := 0x44 }, -- STAT (R276)
  { off := 0x48 }, -- PARTNER (R253)
  { off := 0x4C }, -- SERIAL_LO (R253)
  { off := 0x50 }, -- SERIAL_HI (R253)
  { off := 0x54, rw := 0xF0000000, boot := 0xF0000000, ranges := [⟨31, 28, 0, 2, false⟩] }, -- PLAN (R255)
  { off := 0x58, rw := 0xFFFFFFFF, boot := 0xFFFFFFFF, half := 1 }, -- PLAN_SERIAL_LO (R255)
  { off := 0x5C, rw := 0xFFFFFFFF, boot := 0xFFFFFFFF, half := 2 }, -- PLAN_SERIAL_HI (R255)
  { off := 0x60, n := 8 }, -- SLOT (R256)
  { off := 0x80 }, -- DELAY (R258)
  { off := 0x84, rw := 0xFFFFFFFF }, -- ASYM (R258)
  { off := 0x88 }, -- LOAD (R250)
  { off := 0x8C }, -- IO_IN (R273)
  { off := 0x90 }, -- SETUP (R262)
  { off := 0x94, rw := 0xFFFFFFFF }, -- IO_OUT (R513)
  { off := 0x98, rw := 0xFFFFFFFF, half := 1 }, -- IO_APPLY_LO (R513)
  { off := 0x9C, rw := 0xFFFF, half := 2 }, -- IO_APPLY_HI (R513)
  { off := 0xA0, rw := 0xFFFFFFFF }, -- IO_SAFE (R513)
  { off := 0xA4, rw := 0xFFFFFFFF } -- IO_SAFE_MASK (R513)
]

/-- Registers of the FLNG page, from the register map of its chapter. -/
def regsFlng : List RegSpec := [
  { off := 0x40 }, -- CLAIM (R270)
  { off := 0x44, rw := 0xFF, reset := 0x14, ranges := [⟨7, 0, 5, 200, false⟩] }, -- CLAIM_HOLD (R271)
  { off := 0x48, rw := 0x3FF, reset := 0x5, ranges := [⟨9, 0, 0, 1000, false⟩] }, -- IO_HOLD (R275)
  { off := 0x4C, rw := 0xFFF, reset := 0xC8, ranges := [⟨11, 0, 50, 2000, false⟩] }, -- REPLAY_MARGIN (R268)
  { off := 0x50, rw := 0x3FF, reset := 0xA, ranges := [⟨9, 0, 2, 1000, false⟩] }, -- LINK_TIMEOUT (R257)
  { off := 0x54, rw := 0x3FF, reset := 0xA, ranges := [⟨9, 0, 1, 1000, false⟩] }, -- TSYNC_PERIOD (R258)
  { off := 0x58, rw := 0x3FF, reset := 0x64, ranges := [⟨9, 0, 10, 1000, false⟩] }, -- STAT_PERIOD (R273)
  { off := 0x5C, rw := 0xFF, reset := 0x1, ranges := [⟨7, 0, 1, 100, false⟩] }, -- DETECT_PERIOD (R251)
  { off := 0x60, rw := 0xFF, reset := 0x5, ranges := [⟨7, 0, 1, 100, false⟩] }, -- TRAIN_TIMEOUT (R251)
  { off := 0x64, rw := 0xFF, reset := 0x1, ranges := [⟨7, 0, 1, 100, false⟩] }, -- CAP_TIMEOUT (R251)
  { off := 0x68, rw := 0xFFF, reset := 0xA, ranges := [⟨11, 0, 1, 4095, false⟩] }, -- EI_DELAY (R277)
  { off := 0x6C, rw := 0xFFF, reset := 0xC8, ranges := [⟨11, 0, 10, 4095, false⟩] }, -- EI_WAKE (R278)
  { off := 0x70, rw := 0xFF, reset := 0x40, ranges := [⟨7, 0, 1, 239, false⟩] }, -- FOM_MIN (R276)
  { off := 0x74 }, -- UP_LO (R251)
  { off := 0x78 }, -- UP_HI (R251)
  { off := 0x7C, rw := 0x1 } -- IO_STOP (R513)
]

/-- Registers of the PRL page, from the register map of its chapter. -/
def regsPrl : List RegSpec := [
  { off := 0x44 } -- STAT (R341)
]

/-- Registers of the CAM page, from the register map of its chapter. -/
def regsCam : List RegSpec := [
  { off := 0x40, rw := 0x3FFF, reset := 0x20FA, ranges := [⟨13, 12, 0, 2, false⟩, ⟨11, 0, 8, 250, false⟩] }, -- CFG (R279)
  { off := 0x44 } -- STAT (R279)
]

/-- Registers of the ISP page, from the register map of its chapter. -/
def regsIsp : List RegSpec := [
  { off := 0x40, rw := 0x7FFFF }, -- TBL_ADDR (R282)
  { off := 0x44, rw := 0xFFFFFFFF }, -- TBL_DATA (R282)
  { off := 0x48 }, -- CHECK_ERR (R282)
  { off := 0x4C }, -- BUSY (R286)
  { off := 0x100, n := 8, stride := 0x40, rw := 0xDF7333DF, reset := 0x300000 }, -- SRC (R282)
  { off := 0x104, n := 8, stride := 0x40, rw := 0xFFFFFFFF, ranges := [⟨31, 16, 16, 16384, false⟩, ⟨15, 0, 16, 16384, false⟩] }, -- SIZE (R284)
  { off := 0x108, n := 8, stride := 0x40, rw := 0x3FFFF }, -- RING (R284)
  { off := 0x10C, n := 8, stride := 0x40, rw := 0x3FFFF }, -- TAPB (R292)
  { off := 0x110, n := 8, stride := 0x40, rw := 0xFFFFFFFF, half := 1 }, -- MAP_LO (R288)
  { off := 0x114, n := 8, stride := 0x40, rw := 0xFFFF, half := 2 }, -- MAP_HI (R288)
  { off := 0x118, n := 8, stride := 0x40, rw := 0xFFFFFFFF }, -- COL0 (R293)
  { off := 0x11C, n := 8, stride := 0x40, rw := 0xFFFFFFFF, reset := 0x10000 }, -- COL_PITCH (R293)
  { off := 0x120, n := 8, stride := 0x40, rw := 0xFFFFFFFF, half := 1 }, -- LOC_LO (R294)
  { off := 0x124, n := 8, stride := 0x40, rw := 0xFFFFFFFF, half := 2 }, -- LOC_HI (R294)
  { off := 0x128, n := 8, stride := 0x40, rw := 0xFFFFFFFF, reset := 0x10000 }, -- ROW_PITCH (R294)
  { off := 0x12C, n := 8, stride := 0x40, rw := 0xFFFF, reset := 0x4E20, ranges := [⟨15, 0, 100, 60000, false⟩] }, -- TIMEOUT (R283)
  { off := 0x130, n := 8, stride := 0x40 }, -- FSTAT (R285)
  { off := 0x134, n := 8, stride := 0x40, wo := 0x3FF }, -- TAP_REL (R292)
  { off := 0x138, n := 8, stride := 0x40 } -- TAP_STAT (R292)
]

/-- Registers of the LOOP page, from the register map of its chapter. -/
def regsLoop : List RegSpec := [
  { off := 0x40, rw := 0xFF87 }, -- CFG (R296)
  { off := 0x44, rw := 0xFFFFFF, reset := 0x8000, ranges := [⟨23, 0, 1024, 16777215, false⟩] }, -- PERIOD (R296)
  { off := 0x48, rw := 0xFFFF, reset := 0x200, ranges := [⟨15, 0, 16, 32768, false⟩] }, -- LINES (R296)
  { off := 0x4C, rw := 0x7FF3F, reset := 0x20408 }, -- STRIPE (R295)
  { off := 0x50, rw := 0xFFFFFFFF, reset := 0xE8180C00 }, -- QUAL (R298)
  { off := 0x54, rw := 0xFF7FFFF0, reset := 0x80400520, ranges := [⟨31, 24, 1, 255, false⟩, ⟨22, 16, 1, 64, false⟩, ⟨7, 4, 1, 15, false⟩] }, -- LAW (R300)
  { off := 0x58, rw := 0xFFF0FFF, reset := 0x3FF0C00 }, -- TLIM (R300)
  { off := 0x5C, rw := 0xFF0FFF, reset := 0x100100, ranges := [⟨23, 16, 1, 255, false⟩, ⟨11, 0, 16, 4095, false⟩] }, -- AHEAD (R303)
  { off := 0x60, rw := 0xFFFF, reset := 0x200, ranges := [⟨15, 0, 1, 65535, false⟩] }, -- STALE (R307)
  { off := 0x64, rw := 0xFFFF }, -- CHAN (R291)
  { off := 0x68, rw := 0x73FFF }, -- TBL_ADDR (R297)
  { off := 0x6C, rw := 0xFFFF }, -- TBL_DATA (R297)
  { off := 0x70 }, -- STAT (R296)
  { off := 0x74 }, -- CHECK_ERR (R315)
  { off := 0x78 }, -- LAST_LO (R303)
  { off := 0x7C }, -- LAST_HI (R303)
  { off := 0x80, rw := 0xCFFFFFF0, reset := 0x41003230, ranges := [⟨11, 8, 1, 8, false⟩] }, -- LADDER_CFG (R309)
  { off := 0x84, rw := 0x3FFFFF, reset := 0x200808, ranges := [⟨21, 16, 8, 64, false⟩, ⟨15, 8, 2, 32, false⟩, ⟨7, 0, 2, 32, false⟩] }, -- LADDER_GEOM (R309)
  { off := 0x88, rw := 0xFFFF, reset := 0x903 }, -- LADDER_EVERY (R309)
  { off := 0x8C, rw := 0xFFFFFF }, -- LADDER_PHASE (R309)
  { off := 0x90, rw := 0x3FF03FF, reset := 0x2CD0100 }, -- LADDER_THR (R312)
  { off := 0x94, rw := 0xFFFFFF, reset := 0x6608 }, -- LADDER_DEV (R312)
  { off := 0x98, rw := 0x1FFFF, reset := 0x100 }, -- MISS_LIMIT (R314)
  { off := 0xA0, n := 8 } -- MISSING (R314)
]

/-- Registers of the PAIR page, part 1, from the register map of its chapter. -/
def regsPairA : List RegSpec := [
  { off := 0x40, rw := 0xFF0D, reset := 0x808, boot := 0x5, ranges := [⟨15, 8, 4, 255, false⟩] }, -- CFG (R340)
  { off := 0x44, reset := 0xF0000 }, -- STAT (R345)
  { off := 0x48, wo := 0xF }, -- CMD (R346)
  { off := 0x4C }, -- EPOCH (R347)
  { off := 0x50 }, -- PEER_EPOCH (R344)
  { off := 0x54 }, -- EPOCH_KEEP (R347)
  { off := 0x58, rw := 0x7F, reset := 0xA, ranges := [⟨6, 0, 5, 100, false⟩] }, -- HB_PERIOD (R344)
  { off := 0x5C, rw := 0xF, reset := 0x3, ranges := [⟨3, 0, 2, 8, false⟩] }, -- HB_MISS (R365)
  { off := 0x60, rw := 0x3FFF, reset := 0xC8, ranges := [⟨13, 0, 50, 10000, false⟩] }, -- SOLO_WAIT (R368)
  { off := 0x64, rw := 0x3F, reset := 0x5, ranges := [⟨5, 0, 1, 60, false⟩] }, -- FORM_TIMEOUT (R346)
  { off := 0x68, rw := 0x7F, reset := 0x5, ranges := [⟨6, 0, 2, 100, false⟩] }, -- RETRY (R343)
  { off := 0x6C, rw := 0x3FFF, reset := 0x3E8, ranges := [⟨13, 0, 100, 10000, false⟩] }, -- CRC_WAIT (R355)
  { off := 0x70, rw := 0xFFFF, reset := 0x1000, ranges := [⟨15, 0, 256, 65535, false⟩] }, -- CATCHUP_LINES (R358)
  { off := 0x74, rw := 0xFFFF, reset := 0x1000, ranges := [⟨15, 0, 256, 65535, false⟩] }, -- VERIFY_LINES (R361)
  { off := 0x78, rw := 0xFF, reset := 0xC, ranges := [⟨7, 0, 1, 60, false⟩] }, -- COPY_RATE (R357)
  { off := 0x7C, rw := 0x3FF, reset := 0x78, ranges := [⟨9, 0, 10, 1000, false⟩] }, -- COPY_TIMEOUT (R363)
  { off := 0x80, rw := 0xFFF, reset := 0x40, ranges := [⟨11, 0, 1, 4095, false⟩] }, -- DIRTY_MAX (R357)
  { off := 0x84, rw := 0xFFFFFF, reset := 0x1000, ranges := [⟨23, 0, 256, 16777215, false⟩] }, -- START_MARGIN (R351)
  { off := 0x88, rw := 0x3FF, reset := 0x64, ranges := [⟨9, 0, 10, 1000, false⟩] }, -- HEALTH_PERIOD (R379)
  { off := 0x8C, rw := 0xFFFFFFFF }, -- SAFE_GPIO (R372)
  { off := 0x90, rw := 0xFFFFFFFF }, -- SAFE_MASK (R372)
  { off := 0x94 }, -- CHECK_ERR (R342)
  { off := 0x98 }, -- PEER_VER (R342)
  { off := 0x9C } -- COPY_LEFT (R357)
]

/-- Registers of the PAIR page, part 2, from the register map of its chapter. -/
def regsPairB : List RegSpec := [
  { off := 0xA0, n := 12 } -- HEALTH (R379)
]

/-- All registers of the PAIR page. -/
def regsPair : List RegSpec := regsPairA ++ regsPairB

/-- Registers of the AX page, part 1, from the register map of its chapter. -/
def regsAxA : List RegSpec := [
  { off := 0x40, rw := 0x3FFF7FF, ranges := [⟨2, 0, 0, 3, false⟩] }, -- CFG (R380)
  { off := 0x44, rw := 0x7FFFFF, reset := 0x186A0, ranges := [⟨22, 0, 1, 5000000, false⟩] }, -- VMAX (R383)
  { off := 0x48, rw := 0xFFFFFFF, reset := 0xF4240, ranges := [⟨27, 0, 1, 268435455, false⟩] }, -- AMAX (R383)
  { off := 0x4C, rw := 0xFFFFFFF, reset := 0xF4240, ranges := [⟨27, 0, 1, 268435455, false⟩] }, -- DMAX (R383)
  { off := 0x50, rw := 0xFFFFFFFF, reset := 0x5F5E100, ranges := [⟨31, 0, 1000000, 4294967295, false⟩] }, -- JMAX (R383)
  { off := 0x54, rw := 0xFFFFFFF, reset := 0x989680, ranges := [⟨27, 0, 1, 268435455, false⟩] }, -- QDEC (R387)
  { off := 0x58, rw := 0xFF00FF, reset := 0x14000A, ranges := [⟨23, 16, 2, 255, false⟩, ⟨7, 0, 2, 255, false⟩] }, -- PULSE (R380)
  { off := 0x60, rw := 0xFFFFFFFF, half := 1 }, -- TARGET_LO (R384)
  { off := 0x64, rw := 0xFFFF, half := 2 }, -- TARGET_HI (R384)
  { off := 0x68 }, -- CMD_POS_LO (R381)
  { off := 0x6C }, -- CMD_POS_HI (R381)
  { off := 0x70 }, -- ACT_POS_LO (R380)
  { off := 0x74 }, -- ACT_POS_HI (R380)
  { off := 0x78, rw := 0xFFFFFFFF, half := 1 }, -- RATIO_LO (R388)
  { off := 0x7C, rw := 0xFFFFFFFF, reset := 0x1, half := 2 }, -- RATIO_HI (R388)
  { off := 0x80, rw := 0xFFFFFFFF, half := 1 }, -- PEND_RATIO_LO (R389)
  { off := 0x84, rw := 0xFFFFFFFF, reset := 0x1, half := 2 }, -- PEND_RATIO_HI (R389)
  { off := 0x88, rw := 0xFFFFFFFF, half := 1 }, -- PEND_POS_LO (R389)
  { off := 0x8C, rw := 0xFFFFFFFF, half := 2 }, -- PEND_POS_HI (R389)
  { off := 0x90, rw := 0xFFFFFFFF, reset := 0x10000 }, -- ENC_SCALE (R391)
  { off := 0x94, rw := 0xFFFF, reset := 0x40, ranges := [⟨15, 0, 1, 65535, false⟩] }, -- STALL_WIN (R391)
  { off := 0x98, rw := 0xFFFF, reset := 0x3E8, ranges := [⟨15, 0, 10, 65535, false⟩] }, -- STALL_TIME (R391)
  { off := 0xA0, rw := 0xFFFFFFFF, half := 1 }, -- SOFT_MIN_LO (R386)
  { off := 0xA4, rw := 0xFFFF, half := 2 } -- SOFT_MIN_HI (R386)
]

/-- Registers of the AX page, part 2, from the register map of its chapter. -/
def regsAxB : List RegSpec := [
  { off := 0xA8, rw := 0xFFFFFFFF, half := 1 }, -- SOFT_MAX_LO (R386)
  { off := 0xAC, rw := 0xFFFF, half := 2 }, -- SOFT_MAX_HI (R386)
  { off := 0xB0, rw := 0xFF, reset := 0x14, ranges := [⟨7, 0, 1, 255, false⟩] }, -- LIM_DEB (R392)
  { off := 0xB4, rw := 0x13 }, -- HOME_CFG (R394)
  { off := 0xB8, rw := 0x7FFFFF, reset := 0x4E20 }, -- HOME_VFAST (R394)
  { off := 0xBC, rw := 0x7FFFFF, reset := 0x7D0 }, -- HOME_VSLOW (R394)
  { off := 0xC0, rw := 0xFFFF, reset := 0x100 }, -- HOME_BACKOFF (R394)
  { off := 0xC4, rw := 0xFFFFFFFF, half := 1 }, -- HOME_OFS_LO (R394)
  { off := 0xC8, rw := 0xFFFF, half := 2 }, -- HOME_OFS_HI (R394)
  { off := 0xCC, rw := 0x3FF, reset := 0x1E, ranges := [⟨9, 0, 1, 600, false⟩] }, -- HOME_TIMEOUT (R396)
  { off := 0xD0, wo := 0x7F }, -- CMD (R387)
  { off := 0xD4 }, -- STAT (R391)
  { off := 0xD8 } -- DEV (R391)
]

/-- All registers of the AX page. -/
def regsAx : List RegSpec := regsAxA ++ regsAxB

/-- Registers of the CMP page, from the register map of its chapter. -/
def regsCmp : List RegSpec := [
  { off := 0x40, n := 32, stride := 0x20, rw := 0xFEF7030F, ranges := [⟨29, 28, 0, 2, false⟩, ⟨27, 26, 0, 2, false⟩] }, -- CFG (R401)
  { off := 0x44, n := 32, stride := 0x20, rw := 0xFFFF, reset := 0x64, ranges := [⟨15, 0, 1, 65535, false⟩] }, -- PW (R400)
  { off := 0x48, n := 32, stride := 0x20, rw := 0xFFFFFFFF, half := 1 }, -- VAL_LO (R397)
  { off := 0x4C, n := 32, stride := 0x20, rw := 0xFFFFFFFF, half := 2 }, -- VAL_HI (R397)
  { off := 0x50, n := 32, stride := 0x20, rw := 0xFFFFFFFF, reset := 0x10000, half := 1 }, -- PERIOD_LO (R399)
  { off := 0x54, n := 32, stride := 0x20, rw := 0xFFFFFFFF, half := 2 }, -- PERIOD_HI (R399)
  { off := 0x58, n := 32, stride := 0x20 }, -- STAT (R397)
  { off := 0x440, n := 32, stride := 0x8 }, -- FIRE_T_LO (R400)
  { off := 0x444, n := 32, stride := 0x8 }, -- FIRE_T_HI (R400)
  { off := 0x540, w1c := 0xFFFFFFFF }, -- FIRED (R400)
  { off := 0x544, w1c := 0xFFFFFFFF } -- PASSED (R398)
]

/-- Registers of the DISP page, part 1, from the register map of its chapter. -/
def regsDispA : List RegSpec := [
  { off := 0x40, rw := 0x33C, boot := 0x33C, sh := true, ranges := [⟨9, 8, 0, 2, false⟩, ⟨5, 4, 0, 2, false⟩] }, -- CFG (R460)
  { off := 0x44, rw := 0x7FFFF, boot := 0x7FFFF, sh := true, ranges := [⟨18, 0, 25000, 300000, false⟩] }, -- PCLK (R471)
  { off := 0x48, rw := 0xFFF03FF, boot := 0xFFF03FF, sh := true, ranges := [⟨27, 16, 16, 2560, false⟩, ⟨9, 0, 1, 1023, false⟩] }, -- HTIM0 (R471)
  { off := 0x4C, rw := 0x83FF03FF, boot := 0x83FF03FF, sh := true, ranges := [⟨25, 16, 1, 1023, false⟩, ⟨9, 0, 1, 1023, false⟩] }, -- HTIM1 (R471)
  { off := 0x50, rw := 0x7FF00FF, boot := 0x7FF00FF, sh := true, ranges := [⟨26, 16, 16, 1600, false⟩, ⟨7, 0, 1, 255, false⟩] }, -- VTIM0 (R471)
  { off := 0x54, rw := 0x80FF00FF, boot := 0x80FF00FF, sh := true, ranges := [⟨23, 16, 1, 255, false⟩, ⟨7, 0, 1, 255, false⟩] }, -- VTIM1 (R471)
  { off := 0x58, rw := 0xFFFFFF, sh := true }, -- BG (R463)
  { off := 0x5C, rw := 0x7FF, sh := true }, -- LINE_MATCH (R468)
  { off := 0x60 }, -- STAT (R461)
  { off := 0x64 }, -- CHECK_ERR (R467)
  { off := 0x68, rw := 0x7F, reset := 0xA, ranges := [⟨6, 0, 1, 100, false⟩] }, -- LT_TIMEOUT (R461)
  { off := 0x80, n := 2, stride := 0x40, rw := 0x800000FF, reset := 0xFF, sh := true }, -- L0_CTRL, L2_CTRL (R463)
  { off := 0xA0, rw := 0xC00000FF, reset := 0xFF, sh := true }, -- L1_CTRL (R463, R467)
  { off := 0x84, n := 3, stride := 0x20, rw := 0x7FF0FFF, sh := true }, -- L_POS (R463)
  { off := 0x88, n := 3, stride := 0x20, rw := 0x7FF0FFF, sh := true }, -- L_SIZE (R463)
  { off := 0x8C, n := 3, stride := 0x20, rw := 0xFFFFFFF, sh := true }, -- L_BASE (R463)
  { off := 0x90, n := 3, stride := 0x20, rw := 0x3FFFF, sh := true }, -- L_STRIDE (R463)
  { off := 0x94, n := 3, stride := 0x20, rw := 0x3FFF, sh := true }, -- L_DEPTH (R467)
  { off := 0xE0, rw := 0xC000FFFF, reset := 0x1, sh := true, ranges := [⟨7, 0, 1, 255, false⟩] }, -- PREV_CFG (R465)
  { off := 0xE4, rw := 0xFFF, reset := 0x1, sh := true, ranges := [⟨11, 0, 1, 4095, false⟩] }, -- PREV_SUBY (R465)
  { off := 0xE8, rw := 0x1FFFF, sh := true }, -- PREV_X0 (R465)
  { off := 0xEC, rw := 0xFFFFFFF, sh := true }, -- SAMP_BASE (R465)
  { off := 0xF0, rw := 0x3FFF, reset := 0x800, sh := true, ranges := [⟨13, 0, 64, 16384, false⟩] }, -- SAMP_DEPTH (R465)
  { off := 0x100, n := 8, rw := 0xFFFFFF, sh := true }, -- INK (R466)
  { off := 0x140, rw := 0xF } -- CRC_CTL (R473)
]

/-- Registers of the DISP page, part 2, from the register map of its chapter. -/
def regsDispB : List RegSpec := [
  { off := 0x144 }, -- FRAME_CRC (R472)
  { off := 0x148 }, -- READBACK_CRC (R472)
  { off := 0x150, n := 4, stride := 0x10, rw := 0x7FF0FFF, sh := true }, -- RECT_POS (R473)
  { off := 0x154, n := 4, stride := 0x10, rw := 0x7FF0FFF, sh := true }, -- RECT_SIZE (R473)
  { off := 0x158, n := 4, stride := 0x10, rw := 0xFFFFFFFF }, -- RECT_EXP (R473)
  { off := 0x15C, n := 4, stride := 0x10 }, -- RECT_CRC (R473)
  { off := 0x400, n := 256, rw := 0xFFFFFFFF, sh := true } -- PAL (R464)
]

/-- All registers of the DISP page. -/
def regsDisp : List RegSpec := regsDispA ++ regsDispB

/-- Registers of the RIME page, from the register map of its chapter. -/
def regsRime : List RegSpec := [
  { off := 0x40, rw := 0xA, w1s := 0x1, reset := 0x8 }, -- SNAP_CTRL (R55)
  { off := 0x44, rw := 0xFFFFFFFF, half := 1 }, -- SNAP_LINE_LO (R55)
  { off := 0x48, rw := 0xFFFF, half := 2 }, -- SNAP_LINE_HI (R55)
  { off := 0x4C, rw := 0xFFFFFF }, -- PERIOD (R55)
  { off := 0x50 }, -- SEQ (R55)
  { off := 0x54 }, -- CAUSE (R55)
  { off := 0x58 }, -- IMG_LO (R55)
  { off := 0x5C }, -- IMG_HI (R55)
  { off := 0x60 }, -- POS_LO (R55)
  { off := 0x64 }, -- POS_HI (R55)
  { off := 0x68 }, -- PT_NS (R55)
  { off := 0x6C }, -- PT_SEC_LO (R55)
  { off := 0x70 } -- PT_SEC_HI (R55)
]

/-- Page indices of the page table of R27. -/
def pgSys : Nat := 0x00
def pgClk : Nat := 0x01
def pgThm : Nat := 0x02
def pgMon : Nat := 0x03
def pgTrim : Nat := 0x04
def pgEvc : Nat := 0x05
def pgPin : Nat := 0x09
def pgNvm : Nat := 0x0A
def pgEth (p : Nat) : Nat := 0x10 + p
def pgPcie : Nat := 0x14
def pgGsh : Nat := 0x18
def pgJrn : Nat := 0x1C
def pgPtc : Nat := 0x20
def pgDrc (n : Nat) : Nat := 0x28 + n
def pgDrg : Nat := 0x2C
def pgFirn : Nat := 0x30
def pgThaw : Nat := 0x31
def pgFrz (e : Nat) : Nat := 0x32 + e
def pgPos (c : Nat) : Nat := 0x40 + c
def pgLine : Nat := 0x48
def pgBar (b : Nat) : Nat := 0x50 + 2 * b
def pgPlc (b : Nat) : Nat := 0x60 + b
def pgWave : Nat := 0x68
def pgDryp : Nat := 0x69
def pgFln (l : Nat) : Nat := 0x70 + l
def pgFlng : Nat := 0xA0
def pgPrl (l : Nat) : Nat := 0xA8 + l
def pgCam (c : Nat) : Nat := 0xB0 + c
def pgIsp : Nat := 0xB4
def pgLoop : Nat := 0xB8
def pgPair : Nat := 0xC0
def pgAx (a : Nat) : Nat := 0xC8 + a
def pgCmp : Nat := 0xD8
def pgDisp : Nat := 0xE0
def pgRime : Nat := 0xF0

/-- The page table of R27: PG_ID.TYPE, instance, header page and block registers of a page index; none where the index
holds no page. -/
structure PageInfo where
  type : Nat
  inst : Nat
  header : Nat
  regs : List RegSpec
deriving DecidableEq, Repr

/-- The page at a page index (R27). -/
def pageInfo (p : Nat) : Option PageInfo :=
  if p < 0x10 then
    if p = 0x00 then some ⟨0x0001, 0, p, regsSys⟩ else
    if p = 0x01 then some ⟨0x0002, 0, p, regsClk⟩ else
    if p = 0x02 then some ⟨0x0003, 0, p, regsThm⟩ else
    if p = 0x03 then some ⟨0x0004, 0, p, regsMon⟩ else
    if p = 0x04 then some ⟨0x0005, 0, p, regsTrim⟩ else
    if p = 0x05 then some ⟨0x0006, 0, 0x05, regsEvc0⟩ else
    if p = 0x06 then some ⟨0x0006, 0, 0x05, regsEvc1⟩ else
    if p = 0x07 then some ⟨0x0006, 0, 0x05, regsEvc2⟩ else
    if p = 0x08 then some ⟨0x0006, 0, 0x05, regsEvc3⟩ else
    if p = 0x09 then some ⟨0x0007, 0, p, regsPin⟩ else
    if p = 0x0A then some ⟨0x0008, 0, p, regsNvm⟩ else none
  else if p < 0x40 then
    if p < 0x14 then some ⟨0x0010, p - 0x10, p, regsEth⟩ else
    if p = 0x14 then some ⟨0x0011, 0, p, []⟩ else
    if p = 0x18 then some ⟨0x0012, 0, 0x18, regsGsh0⟩ else
    if p = 0x19 then some ⟨0x0012, 0, 0x18, regsGsh1⟩ else
    if p = 0x1A then some ⟨0x0012, 0, 0x18, regsGsh2⟩ else
    if p = 0x1B then some ⟨0x0012, 0, 0x18, []⟩ else
    if p = 0x1C then some ⟨0x0013, 0, p, regsJrn⟩ else
    if p = 0x20 then some ⟨0x0020, 0, p, regsPtc⟩ else
    if 0x28 ≤ p ∧ p < 0x2C then some ⟨0x0028, p - 0x28, p, regsDrc⟩ else
    if p = 0x2C then some ⟨0x0029, 0, p, regsDrg⟩ else
    if p = 0x30 then some ⟨0x0030, 0, p, regsFirn⟩ else
    if p = 0x31 then some ⟨0x0031, 0, p, regsThaw⟩ else
    if 0x32 ≤ p ∧ p < 0x36 then some ⟨0x0032, p - 0x32, p, regsFrz⟩ else none
  else if p < 0x70 then
    if p < 0x48 then some ⟨0x0040, p - 0x40, p, regsPos⟩ else
    if p = 0x48 then some ⟨0x0041, 0, p, regsLine⟩ else
    if 0x50 ≤ p ∧ p < 0x60 then
      if p % 2 = 0 then some ⟨0x0050, (p - 0x50) / 2, p, regsBar0⟩
      else some ⟨0x0050, (p - 0x50) / 2, p - 1, regsBar1⟩ else
    if 0x60 ≤ p ∧ p < 0x68 then some ⟨0x0060, p - 0x60, p, regsPlc⟩ else
    if p = 0x68 then some ⟨0x0061, 0, p, regsWave⟩ else
    if p = 0x69 then some ⟨0x0062, 0, p, regsDryp⟩ else none
  else
    if p < 0xA0 then some ⟨0x0070, p - 0x70, p, regsFln⟩ else
    if p = 0xA0 then some ⟨0x0071, 0, p, regsFlng⟩ else
    if 0xA8 ≤ p ∧ p < 0xAC then some ⟨0x00A8, p - 0xA8, p, regsPrl⟩ else
    if 0xB0 ≤ p ∧ p < 0xB4 then some ⟨0x00B0, p - 0xB0, p, regsCam⟩ else
    if p = 0xB4 then some ⟨0x00B1, 0, p, regsIsp⟩ else
    if p = 0xB8 then some ⟨0x00B8, 0, p, regsLoop⟩ else
    if p = 0xC0 then some ⟨0x00C0, 0, p, regsPair⟩ else
    if 0xC8 ≤ p ∧ p < 0xD8 then some ⟨0x00C8, p - 0xC8, p, regsAx⟩ else
    if p = 0xD8 then some ⟨0x00D8, 0, p, regsCmp⟩ else
    if p = 0xE0 then some ⟨0x00E0, 0, p, regsDisp⟩ else
    if p = 0xF0 then some ⟨0x00F0, 0, p, regsRime⟩ else none

/-- Whether a page index holds a header page (R27, R28). -/
def isHeader (p : Nat) : Bool :=
  match pageInfo p with
  | some i => i.header == p
  | none => false

/-- The header page of the block that a page belongs to (R27). -/
def headerOf (p : Nat) : Nat :=
  match pageInfo p with
  | some i => i.header
  | none => p

/-- Whether a register array holds offset `o`. -/
def RegSpec.holds (r : RegSpec) (o : Nat) : Bool :=
  decide (r.off ≤ o) && (o - r.off) % r.stride == 0 && decide ((o - r.off) / r.stride < r.n)

/-- The register at a byte address of the register pages, if a map defines it. -/
def regSpec (a : Nat) : Option RegSpec :=
  match pageInfo (a / 4096) with
  | some i => i.regs.find? (fun r => r.holds (a % 4096))
  | none => none

/-- Writable bits of a word of the table windows (R46, R192, R194, R221, R231); 0 where the word is undefined. -/
def windowMask (a : Nat) : Nat :=
  if a < 0x400000 then 0
  else if a < 0x800000 then 0x0FFFFFFF
  else if a < 0xC00000 then 0x0FFF0FFF
  else if a < 0xC20000 then 0xFFF
  else if a < 0xC40000 then 0
  else if a < 0xC60000 then 0xFFF
  else if a < 0xC80000 then 0
  else if a < 0xC90000 then
    let o := a % 512
    if o < 8 ∨ (0x80 ≤ o ∧ o < 0x180) then 0xFFFFFFFF else 0
  else if a < 0xD00000 then 0
  else if a < 0xD10000 then
    let o := a % 2048
    if o = 0 then 0x011F1F3F
    else if o = 4 then 0xFFFFF
    else if 0x10 ≤ o ∧ o < 0x30 then 0xFFFFFFFF
    else if 0x40 ≤ o ∧ o < 0x140 then (if o % 8 = 0 then 0xFFFFFFFF else 0xFFFF)
    else 0
  else 0

/-- Reset value of a word of the table windows: nozzle entries hold 0x800, trims 0, and the others what boot firmware
loads. -/
def windowReset (a : Nat) : Word :=
  if a < 0x800000 then 0x800#32
  else if 0xC40000 ≤ a ∧ a < 0xC60000 then 0#32
  else Config.bootWord a &&& BitVec.ofNat 32 (windowMask a)

/-- The event source that a word of EVC.SRCCFG configures, for the pages 0x06 and 0x07 (R416). -/
def srccfgSource (a : Nat) : Option Nat :=
  if 0x6040 ≤ a ∧ a < 0x6440 then some ((a - 0x6040) / 4)
  else if 0x7040 ≤ a ∧ a < 0x7440 then some ((a - 0x7040) / 4 + 256)
  else none

/-- Source numbers that exist: software, GPIO and page sources (R403). -/
def sourceExists (s : Nat) : Bool :=
  (decide (1 ≤ s) && decide (s ≤ 0xF)) || (decide (0x20 ≤ s) && decide (s ≤ 0x3F)) ||
    (decide (0x100 ≤ s) && decide (s ≤ 0x1FF) && isHeader (s - 0x100))

/-- Reset value of EVC.SRCCFG of a source: reserved sources read 0; boot firmware locks the sources it serves and routes
every other one to target 4 with priority 0 (14, SRCCFG; R416). Software sources are RISING, page sources LEVEL_HIGH. -/
def srccfgReset (src : Nat) : Word :=
  if src = 0 ∨ (0x10 ≤ src ∧ src < 0x20) ∨ (0x40 ≤ src ∧ src < 0x100) then 0#32
  else
    let a := if src < 256 then 0x6040 + 4 * src else 0x7040 + 4 * (src - 256)
    let sense : Word := if src < 0x10 then 2#32 else 0#32
    if (Config.bootWord a).getLsbD 31 then (Config.bootWord a &&& 0x800003F0#32) ||| sense
    else 0x400#32 ||| sense

/-- Bits of a trim entry at a page offset: live, staging and factory windows share the formats of R450. -/
def trimMask (o : Nat) : Nat :=
  let x := o % 0x200
  if o < 0x100 ∨ 0x680 ≤ o then 0
  else if 0x100 ≤ x ∧ x < 0x140 then 0x3F
  else if 0x140 ≤ x ∧ x < 0x160 then 0x7F
  else if x = 0x160 then 0xFF
  else if x = 0x164 then 0x3F
  else if x = 0x168 then 0xFF
  else if 0x180 ≤ x ∧ x < 0x250 then 0x3FF3
  else if 0x60 ≤ x ∧ x < 0x80 ∧ 0x200 ≤ o then 0x1F1F
  else 0

/-- The factory code of a trim entry, that its live and staging words hold after power-on reset (R451). -/
def trimFactory (o : Nat) : Word :=
  Config.factoryTrim (0x500 + (o - 0x100) % 0x200) &&& BitVec.ofNat 32 (trimMask o)

/-- Reset value of a word of the register window. -/
def regReset (a : Nat) : Word :=
  if 0x400000 ≤ a then windowReset a
  else if 0x4100 ≤ a ∧ a < 0x4680 then trimFactory (a - 0x4000)
  else match srccfgSource a with
    | some src => srccfgReset src
    | none =>
      match regSpec a with
      | some r =>
        if r.boot = 0 then BitVec.ofNat 32 r.reset
        else BitVec.ofNat 32 r.reset ||| (Config.bootWord a &&& BitVec.ofNat 32 r.boot)
      | none => 0#32

end Sys2Proof.Machine
end

