-- ==== Sys2Proof/Machine/Ops.lean ====
section
/-! DEFINITION. The named operations over the state that every family uses: sparse tables, register words, shadows and
their committed values, counters, image memory bytes, byte lists, CRC-32C, press time, web positions and build lines. -/

namespace Sys2Proof.Machine

open Sys2Proof

/-! ### Sparse tables -/

/-- The value of key `k`; an unlisted key holds `d k`. -/
def tget {α : Type} (d : Nat → α) : Tab α → Nat → α
  | [], k => d k
  | (k', v) :: r, k => if k' = k then v else tget d r k

/-- The table without key `k`. -/
def tdel {α : Type} : Tab α → Nat → Tab α
  | [], _ => []
  | (k', v) :: r, k => if k' = k then tdel r k else (k', v) :: tdel r k

/-- Inserts an absent key before the first larger one. -/
def tins {α : Type} : Tab α → Nat → α → Tab α
  | [], k, v => [(k, v)]
  | (k', v') :: r, k, v => if k < k' then (k, v) :: (k', v') :: r else (k', v') :: tins r k v

/-- The table with `v` at key `k`. -/
def tset {α : Type} (t : Tab α) (k : Nat) (v : α) : Tab α := tins (tdel t k) k v

/-- As `tset`, but the default is not listed, so that equal tables are equal data. -/
def tsetD {α : Type} [DecidableEq α] (d : Nat → α) (t : Tab α) (k : Nat) (v : α) : Tab α :=
  if v = d k then tdel t k else tset t k v

/-! ### Register words -/

/-- Byte address of offset `off` of a page. -/
def ra (page off : Nat) : Nat := page * 4096 + off

/-- The word at an address of the register window, as stored. -/
def rd (s : State) (a : Nat) : Nat := (tget regReset s.regs a).toNat

/-- Stores a word of the register window. -/
def wr (s : State) (a v : Nat) : State := { s with regs := tsetD regReset s.regs a (BitVec.ofNat 32 v) }

/-- Bits [hi:lo] of a stored word. -/
def rdf (s : State) (a hi lo : Nat) : Nat := field (rd s a) hi lo

/-- Stores bits [hi:lo] of a word and keeps the others. -/
def wrf (s : State) (a hi lo v : Nat) : State := wr s a (putField (rd s a) hi lo v)

/-- One bit of a stored word. -/
def rdb (s : State) (a i : Nat) : Bool := bitOf (rd s a) i

/-- The 64-bit value of the two words at `a` and `a + 4`. -/
def rd64 (s : State) (a : Nat) : Nat := rd s a + 2 ^ 32 * rd s (a + 4)

/-- Stores a 64-bit value in the two words at `a` and `a + 4`. -/
def wr64 (s : State) (a : Nat) (v : Nat) : State := wr (wr s a (v % 2 ^ 32)) (a + 4) (v / 2 ^ 32 % 2 ^ 32)

/-- The committed word of a shadowed register (R38). -/
def cm (s : State) (a : Nat) : Nat := (tget regReset s.committed a).toNat

/-- Bits [hi:lo] of a committed word. -/
def cmf (s : State) (a hi lo : Nat) : Nat := field (cm s a) hi lo

/-- One bit of a committed word. -/
def cmb (s : State) (a i : Nat) : Bool := bitOf (cm s a) i

/-- The committed 64-bit value at `a`. -/
def cm64 (s : State) (a : Nat) : Nat := cm s a + 2 ^ 32 * cm s (a + 4)

/-- Stores a committed word. -/
def setCm (s : State) (a v : Nat) : State :=
  { s with committed := tsetD regReset s.committed a (BitVec.ofNat 32 v) }

/-- PG_CTRL.EN of a page (R28). -/
def pgEn (s : State) (p : Nat) : Bool := rdb s (ra p 0x10) 0

/-- PG_STAT.CLK_ON of a page's block (R33). -/
def pgClkOn (s : State) (p : Nat) : Bool := rdb s (ra (headerOf p) 0x14) 1

/-- EV_PEND of a page. -/
def evPend (s : State) (p : Nat) : Nat := rd s (ra p 0x24)

/-- A read answers its requester, numbered `k`, with a word. -/
def answerRead (s : State) (k v : Nat) : State := { s with lastRead := tset s.lastRead k (BitVec.ofNat 32 v) }

/-! ### Counters -/

/-- Live counter k of a page (R28, R36). -/
def counter (s : State) (p k : Nat) : Nat := tget (fun _ => 0) s.counters (128 * p + k)

/-- Sets live counter k. -/
def setCounter (s : State) (p k v : Nat) : State :=
  { s with counters := tsetD (fun _ => 0) s.counters (128 * p + k) (v % 2 ^ 64) }

/-- Adds n to live counter k, modulo 2^64 (R36). -/
def countN (s : State) (p k n : Nat) : State := setCounter s p k (counter s p k + n)

/-- Adds one to live counter k. -/
def count (s : State) (p k : Nat) : State := countN s p k 1

/-! ### Bytes and checksums -/

/-- The n low bytes of a number, little-endian. -/
def leBytes : Nat → Nat → List Byte
  | 0, _ => []
  | n + 1, v => BitVec.ofNat 8 v :: leBytes n (v / 256)

/-- The number that little-endian bytes hold. -/
def leNat : List Byte → Nat
  | [] => 0
  | b :: r => b.toNat + 256 * leNat r

/-- The `n` bytes at offset `o` of a message as a little-endian number; bytes past the end are 0. -/
def bytesAt (bs : List Byte) (o n : Nat) : Nat := leNat ((bs.drop o).take n)

/-- n zero bytes. -/
def zeroBytes (n : Nat) : List Byte := List.replicate n 0#8

/-- Pads or cuts a list of bytes to n bytes. -/
def padTo (n : Nat) (bs : List Byte) : List Byte := (bs ++ zeroBytes n).take n

/-- One bit step of the reflected CRC-32C register (R93). -/
def crcBit (c : Nat) : Nat := if c.testBit 0 then (c >>> 1) ^^^ 0x82F63B78 else c >>> 1

/-- One byte step of CRC-32C. -/
def crcByte (c : Nat) (b : Byte) : Nat :=
  let x := c ^^^ b.toNat
  crcBit (crcBit (crcBit (crcBit (crcBit (crcBit (crcBit (crcBit x)))))))

/-- CRC-32C of a list of bytes (R93). -/
def crc32c (bs : List Byte) : Nat := bs.foldl crcByte 0xFFFFFFFF ^^^ 0xFFFFFFFF

/-- Appends the CRC-32C of what is before it. -/
def withCrc (bs : List Byte) : List Byte := bs ++ leBytes 4 (crc32c bs)

/-! ### Image memory bytes -/

/-- What a byte of image memory that nothing has written reads as. -/
def memDefault : Byte := 0#8

/-- A byte of image memory. -/
def memByte (m : List Host.Cell) (a : Nat) : Byte := tget (fun _ => memDefault) m a

/-- Writes a byte of image memory; the canonical form lists no byte equal to the default. -/
def memSet (m : List Host.Cell) (a : Nat) (v : Byte) : List Host.Cell := tsetD (fun _ => memDefault) m a v

/-- Writes consecutive bytes. -/
def memWrite (m : List Host.Cell) (a : Nat) : List Byte → List Host.Cell
  | [] => m
  | b :: r => memWrite (memSet m a b) (a + 1) r

/-- Reads n consecutive bytes. -/
def memRead (m : List Host.Cell) : Nat → Nat → List Byte
  | _, 0 => []
  | a, n + 1 => memByte m a :: memRead m (a + 1) n

/-- The canonical form: addresses rise strictly and no listed byte equals the default. -/
def memWf : List Host.Cell → Bool
  | [] => true
  | [(_, v)] => decide (v ≠ memDefault)
  | (a, v) :: (b, w) :: r => decide (a < b) && decide (v ≠ memDefault) && memWf ((b, w) :: r)

/-- DRG.CFG.DENSITY: 0 8 Gbit, 1 16 Gbit, 2 32 Gbit. -/
def density_ (s : State) : Nat := rdf s (ra pgDrg 0x40) 11 10

/-- Bytes installed (R126). -/
def installed (s : State) : Nat := 2 ^ (34 + min (density_ s) 2)

/-- DRG.SIZE: the installed memory in MiB minus 1 (R127). -/
def drgSize (s : State) : Nat := installed s / 2 ^ 20 - 1

/-- Counts offered demand in bytes for the derating window (R145): class 0 to 3. Class 4 is covered by the reserve. -/
def demand (s : State) (c n : Nat) : State :=
  let d := s.dram
  { s with dram := if c = 0 then { d with c0 := d.c0 + n } else if c = 1 then { d with c1 := d.c1 + n }
                   else if c = 2 then { d with c2 := d.c2 + n }
                   else if c = 3 then { d with c3 := d.c3 + n } else d }

/-! ### Records of engines -/

def getChan (s : State) (c : Nat) : Channel := tget (fun _ => {}) s.chans c
def setChan (s : State) (c : Nat) (v : Channel) : State := { s with chans := tset s.chans c v }

def getBar (s : State) (b : Nat) : Bar := tget (fun _ => {}) s.print.bars b
def setBar (s : State) (b : Nat) (v : Bar) : State :=
  { s with print := { s.print with bars := tset s.print.bars b v } }

def getLane (s : State) (l : Nat) : Lane := tget (fun _ => {}) s.links.lanes l
def setLane (s : State) (l : Nat) (v : Lane) : State :=
  { s with links := { s.links with lanes := tset s.links.lanes l v } }

def getAxis (s : State) (a : Nat) : Axis := tget (fun _ => {}) s.motion.axes a
def setAxis (s : State) (a : Nat) (v : Axis) : State :=
  { s with motion := { s.motion with axes := tset s.motion.axes a v } }

def getCmp (s : State) (k : Nat) : Cmp := tget (fun _ => {}) s.motion.cmps k
def setCmp (s : State) (k : Nat) (v : Cmp) : State :=
  { s with motion := { s.motion with cmps := tset s.motion.cmps k v } }

def getCtx (s : State) (x : Nat) : Ctx := tget (fun _ => {}) s.cams.ctxs x
def setCtx (s : State) (x : Nat) (v : Ctx) : State :=
  { s with cams := { s.cams with ctxs := tset s.cams.ctxs x v } }

def getSession (s : State) (n : Nat) : Session := tget (fun _ => {}) s.host.sessions n
def setSession (s : State) (n : Nat) (v : Session) : State :=
  { s with host := { s.host with sessions := tset s.host.sessions n v } }

def getDram (s : State) (c : Nat) : DramChan := tget (fun _ => {}) s.dram.chans c
def setDram (s : State) (c : Nat) (v : DramChan) : State :=
  { s with dram := { s.dram with chans := tset s.dram.chans c v } }

def getSub (s : State) (c : Nat) : DramSub := tget (fun _ => {}) s.dram.subs c
def setSub (s : State) (c : Nat) (v : DramSub) : State :=
  { s with dram := { s.dram with subs := tset s.dram.subs c v } }

def getEngine (s : State) (e : Nat) : Engine := tget (fun _ => {}) s.print.engines e
def setEngine (s : State) (e : Nat) (v : Engine) : State :=
  { s with print := { s.print with engines := tset s.print.engines e v } }

/-- A job by number. -/
def findJob (s : State) (j : Nat) : Option Job := s.print.jobs.find? (fun x => x.number == j)

/-- Tiles across (R88). -/
def Job.across (j : Job) : Nat := ceilDiv j.width 2048

/-- Number of planes. -/
def Job.planes (j : Job) : Nat := ((List.range 8).filter (fun b => bitOf j.mask b)).length

/-- Replaces the job of the same number, or adds it. -/
def setJob (s : State) (j : Job) : State :=
  { s with print := { s.print with jobs := s.print.jobs.filter (fun x => x.number != j.number) ++ [j] } }

/-- A tile by its name. -/
def findTile (s : State) (job plane x y : Nat) : Option Tile :=
  s.print.tiles.find? (fun t => t.job == job && t.plane == plane && t.x == x && t.y == y)

/-- Replaces the tile of the same name, or adds it. -/
def setTile (s : State) (t : Tile) : State :=
  { s with print := { s.print with
      tiles := s.print.tiles.filter (fun u => !(u.job == t.job && u.plane == t.plane && u.x == t.x && u.y == t.y)) ++ [t] } }

/-- A journal entry. -/
def getEntry (s : State) (slot : Nat) : Option JEntry :=
  (s.host.journal.find? (fun e => e.1 == slot)).map (fun e => e.2)

def setEntry (s : State) (slot : Nat) (e : JEntry) : State :=
  { s with host := { s.host with journal := tset s.host.journal slot e } }

def delEntry (s : State) (slot : Nat) : State :=
  { s with host := { s.host with journal := tdel s.host.journal slot } }

/-- Appends to what the block has sent. -/
def send (s : State) (o : Out) : State := { s with out := s.out ++ [o] }

/-- The next free value of at most `bits` bits, and the state that has drawn it. -/
def drawFree (s : State) (bits : Nat) : Nat × State :=
  (Config.freeBits s.freeCount bits % 2 ^ bits, { s with freeCount := s.freeCount + 1 })

/-! ### Press time (R316, R4) -/

/-- Press time in ns since its epoch. -/
def ptTotalNs (s : State) : Nat := s.clk.sec * 1000000000 + s.clk.ns

/-- Press time in the fire-time format, 40.8 ns (R4, R317). -/
def fireNow (s : State) : Nat := (ptTotalNs s * 256 + s.clk.frac / 2 ^ 24) % 2 ^ 48

/-! ### Bars, channels and build lines -/

/-- LINE.SRCb.CHAN: the line-start channel of a bar (R174). -/
def lineChan (s : State) (b : Nat) : Nat := cmf s (ra pgLine (0x40 + 0x20 * b)) 2 0

/-- A bar is printing. -/
def printing (s : State) (b : Nat) : Bool := (getBar s b).printing

/-- Some bar prints. -/
def anyPrinting (s : State) : Bool := (List.range 8).any (printing s)

/-- Printing bars whose line starts come from a channel. -/
def barsOn (s : State) (c : Nat) : List Nat :=
  (List.range 8).filter (fun b => printing s b && lineChan s b == c)

/-- The web position of a bar's channel, in 2^-16 counts. -/
def webPos (s : State) (b : Nat) : Int := (getChan s (lineChan s b)).pos

/-- SYS.COMMIT_REF.BAR (R39). -/
def refBar (s : State) : Nat := rdf s (ra pgSys 0x48) 2 0

/-- The bar a page's commits refer to: bar b for the pages tied to bar b, else COMMIT_REF (R39). -/
def pageBar (s : State) (p : Nat) : Nat :=
  if 0x50 ≤ p ∧ p < 0x60 then (p - 0x50) / 2
  else if 0x60 ≤ p ∧ p < 0x68 then p - 0x60
  else refBar s

/-- Whether a page is tied to a bar (R39). -/
def tiedPage (p : Nat) : Bool := (decide (0x50 ≤ p) && decide (p < 0x68))

/-- Sets the position fields of a channel without touching what it has latched. -/
def shiftChan (c : Channel) (d : Int) : Channel :=
  { c with pos := c.pos - d, high := c.high - d }

end Sys2Proof.Machine
end

