-- ==== Sys2Proof/Machine/Operands.lean ====
section
/-! DEFINITION. The operand forms: the requesters of register accesses, the fields of Gisha messages, command entries
and completions, of Flelyn frames and pair messages, and the bar geometry that row-lines are named by. -/

namespace Sys2Proof.Machine

open Sys2Proof

/-! ### Requesters (R26) -/

/-- One number per requester, in the order of R26. -/
def rqKey : Requester → Nat
  | .core n => n % 4
  | .pcie => 4
  | .session n => 5 + n % 17

/-- A control core. -/
def isCore : Requester → Bool
  | .core _ => true
  | _ => false

/-- Whether a requester serves an event target (R408): core t is the requester of target t, the host requesters serve
target 4. -/
def serves (rq : Requester) (t : Nat) : Bool :=
  match rq with
  | .core n => n % 4 == t
  | _ => t == 4

/-! ### Gisha messages (R62) and entries (R72) -/

def gMagic (m : List Byte) : Nat := bytesAt m 0 2
def gMinor (m : List Byte) : Nat := bytesAt m 2 1
def gMajor (m : List Byte) : Nat := bytesAt m 3 1
def gType (m : List Byte) : Nat := bytesAt m 4 1
def gCount (m : List Byte) : Nat := bytesAt m 5 1
def gAckValid (m : List Byte) : Bool := bitOf (bytesAt m 6 2) 0
def gSession (m : List Byte) : Nat := bytesAt m 8 4
def gSeq (m : List Byte) : Nat := bytesAt m 0x0C 4
def gAck (m : List Byte) : Nat := bytesAt m 0x10 4
def gLength (m : List Byte) : Nat := bytesAt m 0x14 4
def gCrc (m : List Byte) : Nat := bytesAt m 0x1C 4

/-- MSG_CRC: CRC-32C over the header with MSG_CRC as zero and over the COUNT entries. -/
def gCrcOf (m : List Byte) : Nat :=
  crc32c (m.take 0x1C ++ zeroBytes 4 ++ (m.drop 32).take (64 * gCount m))

/-- The MAGIC, MSG_CRC and LENGTH checks of R62, and COUNT within 0 to 8. -/
def gWellFormed (m : List Byte) : Bool :=
  decide (32 ≤ m.length) && gMagic m == 0x4753 && gCrc m == gCrcOf m && gLength m == m.length - 32 &&
    decide (gCount m ≤ 8)

/-- Entry i of a message. -/
def gEntry (m : List Byte) (i : Nat) : List Byte := (m.drop (32 + 64 * i)).take 64

/-- A message that the controller sends: header, entries of 64 bytes, data (R62). -/
def gMessage (minor major type count session seq ack : Nat) (entries data : List Byte) : List Byte :=
  let h := leBytes 2 0x4753 ++ leBytes 1 minor ++ leBytes 1 major ++ leBytes 1 type ++ leBytes 1 count ++ leBytes 2 1 ++
    leBytes 4 session ++ leBytes 4 seq ++ leBytes 4 ack ++ leBytes 4 (entries.length + data.length) ++ zeroBytes 4
  h ++ leBytes 4 (crc32c (h ++ zeroBytes 4 ++ entries)) ++ entries ++ data

def eOpcode (e : List Byte) : Nat := bytesAt e 0 1
def eFence (e : List Byte) : Bool := bitOf (bytesAt e 1 1) 0
def eSeq (e : List Byte) : Nat := bytesAt e 4 4
def eJob (e : List Byte) : Nat := bytesAt e 8 4
def eDataAddr (e : List Byte) : Nat := bytesAt e 0x10 8
def eDataLen (e : List Byte) : Nat := bytesAt e 0x18 4
def eDataCrc (e : List Byte) : Nat := bytesAt e 0x1C 4
/-- The `n` bytes at offset `o` of PARAMS. -/
def eParam (e : List Byte) (o n : Nat) : Nat := bytesAt e (0x20 + o) n
def eCrcOk (e : List Byte) : Bool := bytesAt e 0x3C 4 == crc32c (e.take 0x3C)

/-- The sequence number after `q`, modulo 2^32 and skipping 0 (R72). -/
def nextSeq (q : Nat) : Nat := if (q + 1) % 2 ^ 32 = 0 then 1 else (q + 1) % 2 ^ 32

/-- Whether sequence number `a` lies at or before `b`, in modulo 2^32 order. -/
def seqLe (a b : Nat) : Bool := decide ((b + 2 ^ 32 - a % 2 ^ 32) % 2 ^ 32 < 2 ^ 31)

/-! ### Line positions and image lines (R174, R201, R202, R225, R510) -/

/-- LINE.PITCHb, 16.16 counts. -/
def pitch (s : State) (b : Nat) : Nat := cm s (ra pgLine (0x44 + 0x20 * b))

/-- LINE.AHEADb. -/
def ahead (s : State) (b : Nat) : Nat := cmf s (ra pgLine (0x4C + 0x20 * b)) 7 0

/-- L(k) in 2^-16 counts (R174). -/
def linePos (s : State) (b k : Nat) : Nat :=
  let cn := cmf s (ra pgLine (0x48 + 0x20 * b)) 31 16
  let cd := cmf s (ra pgLine (0x48 + 0x20 * b)) 15 0
  k * pitch s b + (if cd = 0 then 0 else k * cn / cd)

/-- BARn.CFG as committed. -/
def barCfg (s : State) (b : Nat) : Nat := cm s (ra (pgBar b) 0x40)
def drop4 (s : State) (b : Nat) : Bool := bitOf (barCfg s b) 0
/-- 0 off, 1 INTERLEAVE, 2 HALF. -/
def twinMode (s : State) (b : Nat) : Nat := field (barCfg s b) 9 8
def twinSecondary (s : State) (b : Nat) : Bool := bitOf (barCfg s b) 10
def twinPartner (s : State) (b : Nat) : Nat := field (barCfg s b) 14 12
def ilComp (s : State) (b : Nat) : Bool := bitOf (barCfg s b) 15

/-- The bar builds every second image line only (R201, R202). -/
def halfLines (s : State) (b : Nat) : Bool :=
  twinMode s b == 1 && !(twinSecondary s b && ilComp s b)

/-- Image lines from one row-line to the next. -/
def lineStep (s : State) (b : Nat) : Nat := if halfLines s b then 2 else 1

/-- 1 for the secondary of INTERLEAVE that prints its own lines only. -/
def lineOff (s : State) (b : Nat) : Nat := if halfLines s b && twinSecondary s b then 1 else 0

/-- Sheet and row-line number within it of the running row-line number `k` (R181). -/
def sheetOf (br : Bar) (k : Nat) : Nat := if br.per = 0 then 0 else k / br.per
def inSheet (br : Bar) (k : Nat) : Nat := if br.per = 0 then k else k % br.per

/-- The image line of row-line `k` of a bar's pass (R201, R202, R225); a sheet continues the image lines of the last. -/
def imgLine (s : State) (b : Nat) (br : Bar) (k : Nat) : Int :=
  let n := sheetOf br k * (br.rep * br.u) + lineStep s b * inSheet br k + lineOff s b
  if br.ret then
    let top : Int := br.len - 1 - lineOff s b
    top - top % (lineStep s b : Int) + 2 * (lineOff s b : Int) - n
  else n

/-- Row-line `k` lies in the job (R225). -/
def lineExists (s : State) (b : Nat) (br : Bar) (k : Nat) : Bool :=
  let n := imgLine s b br k
  decide (0 ≤ n) && (br.len == 0 || decide (n < br.len))

/-- Image line `x` is built before `y` (R510). -/
def before (ret : Bool) (x y : Int) : Bool := if ret then decide (y < x) else decide (x < y)

/-- The reference row stream: smallest G_s forward, largest in a return pass, the first among equals (R176, R226). -/
def refStream (br : Bar) : Nat :=
  let better (x y : Int) : Bool := if br.ret then decide (y < x) else decide (x < y)
  let g (i : Nat) : Int := ((br.streams[i]?).map (fun t => t.g)).getD 0
  (List.range br.streams.length).foldl (fun best i => if better (g i) (g best) then i else best) 0

/-- The build line of a bar: the image line its reference row stream starts building next (R39). -/
def buildLineI (s : State) (b : Nat) : Int :=
  let br := getBar s b
  imgLine s b br (((br.streams[refStream br]?).map (fun t => t.next)).getD 0)

/-- The build line as a 48-bit number; all ones while the bar does not print (R482). -/
def buildLine (s : State) (b : Nat) : Nat :=
  if printing s b then ((buildLineI s b) % (2 ^ 48 : Nat)).toNat else 2 ^ 48 - 1

/-- The bar's pass builds its lines in descending order (R510). -/
def retPass (s : State) (b : Nat) : Bool := (getBar s b).ret

/-- The line `n` lines after the build line, in build order (R510). -/
def lineAfter (s : State) (b n : Nat) : Int :=
  if retPass s b then buildLineI s b - n else buildLineI s b + n

/-- The passes of a bar: those that still stop, oldest first, and the present one (R176, R211). -/
def passesOf (s : State) (b : Nat) : List Bar :=
  (s.print.old.filter (fun e => e.1 == b)).map (fun e => e.2) ++ [getBar s b]

/-- A bar is stopping: an earlier pass still has row-lines to build or to fire, or the present one does (R211). -/
def barStopping (s : State) (b : Nat) : Bool := (passesOf s b).any (fun br => br.stopping)

/-- Image lines of row-lines of a job's pass of a bar that are still to start, or started and not yet built, or, with
`sends`, not yet sent. -/
def linesLeft (s : State) (b job : Nat) (sends : Bool) : List Int :=
  ((passesOf s b).filter (fun br => br.job == job)).flatMap (fun br =>
    (br.lines.filter (fun l => sends || !l.built)).map (fun l => (l.img : Int)) ++
      (br.streams.filter (fun t => !t.done)).map (fun t => imgLine s b br t.next))

/-- A past commit holds for image line `img` of the present pass of bar `b` (R40, R198). -/
def PastCommit.holds (e : PastCommit) (s : State) (b : Nat) (img : Int) : Bool :=
  e.bar == b && e.job == (getBar s b).job && before e.ret img e.line

/-- A word in effect for image line `img` of bar `b`: the committed word, or what the commits of later lines replaced
(R40, R198). -/
def inEffect (s : State) (b : Nat) (img : Int) (a : Nat) (now : Nat) : Nat :=
  s.print.past.foldl (fun v e =>
    if e.holds s b img = true then
      (match e.old.find? (fun x => x.1 == a) with
       | some x => x.2.toNat
       | none => v)
    else v) now

/-- The state with every word in effect for image line `img` of bar `b`: what the commits of later lines replaced stands
as before them (R40, R178, R198). -/
def asOf (s : State) (b : Nat) (img : Int) : State :=
  s.print.past.foldl (fun t e =>
    if e.holds s b img = true then
      e.old.foldl (fun t x =>
        if 0x400000 ≤ x.1 ∨ x.1 = ra pgDryp 0x54 then wr t x.1 x.2.toNat else setCm t x.1 x.2.toNat) t
    else t) s

/-- A committed register word in effect for an image line of a bar. -/
def cmAt (s : State) (b : Nat) (img : Int) (a : Nat) : Nat := inEffect s b img a (cm s a)

/-- Address of a nozzle table entry (R46). -/
def nozzleAddr (b c : Nat) : Nat := 0x400000 + 4 * (131072 * b + c)

/-- A nozzle table entry in effect for an image line (R198). -/
def nozzleAt (s : State) (b : Nat) (img : Int) (c : Nat) : Nat :=
  inEffect s b img (nozzleAddr b c) (rd s (nozzleAddr b c))

/-- Head descriptor word `o` of head `h` of bar `b` (R213). -/
def hword (s : State) (b h o : Nat) : Nat := cm s (ra (pgPlc b) (0x100 + 0x20 * h + o))
def headEn (s : State) (b h : Nat) : Bool := bitOf (hword s b h 0) 31
def headMirror (s : State) (b h : Nat) : Bool := bitOf (hword s b h 0) 30
def headRows (s : State) (b h : Nat) : Nat := field (hword s b h 0) 26 24 + 1
def headCol0 (s : State) (b h : Nat) : Nat := field (hword s b h 0) 16 0
def headNpr (s : State) (b h : Nat) : Nat := field (hword s b h 4) 28 16
def headStep (s : State) (b h : Nat) : Nat := field (hword s b h 4) 3 0
def ownFirst (s : State) (b h : Nat) : Nat := field (hword s b h 8) 16 0
def ownLast (s : State) (b h : Nat) : Nat := field (hword s b h 0xC) 16 0
def headHofs (s : State) (b h : Nat) : Int := signed 32 (hword s b h 0x10)
def headLane (s : State) (b h : Nat) : Nat := field (hword s b h 0x14) 21 16
def headSlot (s : State) (b h : Nat) : Nat := field (hword s b h 0x14) 2 0
def rowAlong (s : State) (b r : Nat) : Int := signed 24 (field (cm s (ra (pgPlc b) (0x80 + 4 * r))) 31 8)
def rowCol (s : State) (b r : Nat) : Nat := field (cm s (ra (pgPlc b) (0x80 + 4 * r))) 3 0

/-- Enabled heads of a bar. -/
def headsOf (s : State) (b : Nat) : List Nat := (List.range 32).filter (headEn s b)

/-- The column of nozzle `j` of row `r` of head `h` (R214). -/
def nozzleCol (s : State) (b h r j : Nat) : Nat :=
  headCol0 s b h + rowCol s b r + headStep s b h * (if headMirror s b h then headNpr s b h - 1 - j else j)

/-- The head owns a column (R216). -/
def owns (s : State) (b h c : Nat) : Bool := decide (ownFirst s b h ≤ c) && decide (c ≤ ownLast s b h)

/-- G_s of row `r` of head `h` (R215). -/
def groupOffset (s : State) (b h r : Nat) : Int :=
  signed 64 (cm64 s (ra (pgPlc b) 0x50)) + 2 ^ 8 * headHofs s b h + 2 ^ 8 * rowAlong s b r

/-- The row streams of a bar, heads ascending and rows within a head (R215). -/
def streamsOf (s : State) (b : Nat) : List Stream :=
  (headsOf s b).flatMap (fun h => (List.range (headRows s b h)).map (fun r =>
    { head := h, row := r, g := groupOffset s b h r, next := 0, done := false, lastFire := none }))

/-! ### Speed between edges (R167) -/

/-- POSn.CFG.MODE. -/
def posMode (s : State) (c : Nat) : Nat := rdf s (ra (pgPos c) 0x40) 2 0

/-- QUAD or SWITCH mode. -/
def incremental (s : State) (c : Nat) : Bool := posMode s c == 1 || posMode s c == 2

/-- Time since a latch in 2^-8 ns; 0 where the time lies before the latch (R159). -/
def sinceLatch (t tl : Nat) : Nat :=
  let dt := (t + 2 ^ 48 - tl % 2 ^ 48) % 2 ^ 48
  if 2 ^ 47 ≤ dt then 0 else dt

/-- The speed magnitude in effect at a time: the latched one, or the decayed one (R167), in 2^-16 counts/s. -/
def speedAt (s : State) (c t : Nat) : Nat :=
  let ch := getChan s c
  let v := ch.speed.natAbs
  let dt := sinceLatch t ch.latchT
  if v = 0 ∨ incremental s c = false then v
  else if 10 ^ 9 * 2 ^ 24 < dt * v then 10 ^ 9 * 2 ^ 24 / dt else v

/-- The speed in effect with the sign of DIR. -/
def signedSpeedAt (s : State) (c t : Nat) : Int :=
  if (getChan s c).reverse then -(speedAt s c t : Int) else (speedAt s c t : Int)

end Sys2Proof.Machine
end

