-- ==== Sys2Proof/Machine/Flags.lean ====
section
/-! DEFINITION. Events, flags and faults: the EV_PEND bits of a page, the event controller's sources and signal flags,
SLOW_REQ, the claim word, frames put on lanes, fault records with what each class does, and the stopping of bars. -/

namespace Sys2Proof.Machine

open Sys2Proof

/-! ### The event controller (R403 to R414) -/

/-- Address of EVC.SRCCFG of a source. -/
def srccfgAddr (src : Nat) : Nat := if src < 256 then 0x6040 + 4 * src else 0x7040 + 4 * (src - 256)

/-- SENSE: software sources are RISING, page sources LEVEL_HIGH, GPIO sources as configured (R403). -/
def senseOf (s : State) (src : Nat) : Nat :=
  if 0x100 ≤ src then 0 else if src < 0x10 then 2 else field (rd s (srccfgAddr src)) 2 0

/-- A level source: LEVEL_HIGH or LEVEL_LOW. -/
def levelSource (s : State) (src : Nat) : Bool := decide (senseOf s src < 2)

/-- GPIO n is an input (R53, R404). -/
def gpioInput (s : State) (n : Nat) : Bool := !rdb s (ra pgPin 0x200) n

/-- The accepted level of a source before SENSE: a page's EV_PEND and EV_EN, or the accepted pin level of an input. -/
def rawLevel (s : State) (src : Nat) : Bool :=
  if 0x100 ≤ src then
    isHeader (src - 0x100) && evPend s (src - 0x100) &&& rd s (ra (src - 0x100) 0x2C) != 0
  else if 0x20 ≤ src ∧ src < 0x40 then gpioInput s (src - 0x20) && bitOf s.evc.gpio (src - 0x20)
  else false

/-- A level source is asserted (R405). -/
def asserted (s : State) (src : Nat) : Bool :=
  if 0x100 ≤ src then rawLevel s src
  else if 0x20 ≤ src ∧ src < 0x40 then
    gpioInput s (src - 0x20) && (rawLevel s src != (senseOf s src == 1))
  else false

/-- P of a source (R405): a level source follows its level while A = 0 and shows 0 while A = 1. -/
def pendOf (s : State) (src : Nat) : Bool :=
  sourceExists src &&
    (if 0x100 ≤ src then !bitOf s.evc.active src && asserted s src
     else if levelSource s src then !bitOf s.evc.active src && asserted s src
     else bitOf s.evc.pend src)

def prioOf (s : State) (src : Nat) : Nat := field (rd s (srccfgAddr src)) 7 4
def targetOf (s : State) (src : Nat) : Nat := field (rd s (srccfgAddr src)) 10 8

/-- EVC.TGTt.THRESH. -/
def threshOf (s : State) (t : Nat) : Nat := rdf s (0x8048 + 0x10 * t) 3 0

/-- Eligible for target t (R407). -/
def eligible (s : State) (t src : Nat) : Bool :=
  bitOf s.evc.en src && pendOf s src && !bitOf s.evc.active src && targetOf s src == t &&
    decide (threshOf s t ≤ prioOf s src)

/-- The best source of a target, 0 when none (R407): highest priority, then lowest number. -/
def bestSource (s : State) (t : Nat) : Nat :=
  (List.range 512).foldl (fun best src =>
    if eligible s t src = true then
      (if best = 0 then src else if prioOf s best < prioOf s src then src else best)
    else best) 0

/-- Signal flag of a target. -/
def flagOf (s : State) (t : Nat) : Bool := bitOf s.evc.flags t

def setEvc (s : State) (e : Evc) : State := { s with evc := e }

/-- The EVENT entry of R414 for a session that has been sent `num` of them. -/
def eventEntry (s : State) (num : Nat) : List Byte :=
  let src := bestSource s 4
  withCrc (leBytes 1 1 ++ leBytes 1 (if src = 0 then 0 else prioOf s src) ++ leBytes 2 src ++ leBytes 4 num ++
    leBytes 4 (if 0x100 ≤ src then evPend s (src - 0x100) else 0) ++ leBytes 4 s.clk.ns ++ leBytes 4 s.clk.sec ++
    zeroBytes 4 ++ leBytes 8 (twos 64 (webPos s (refBar s))) ++ leBytes 8 (buildLine s (refBar s)) ++ zeroBytes 20)

/-- The unit is active: SINGLE, ACTIVE or ACTIVE_ALONE. -/
def isActive (s : State) : Bool := s.pair.role == 0 || s.pair.role == 2 || s.pair.role == 3

/-- The tag of the frames that a port sends: PCP and VID on a port with VLAN_EN (R58). -/
def portTag (s : State) (p : Nat) : Option (Nat × Nat) :=
  if rdb s (ra (pgEth p) 0x40) 3 then some (rdf s (ra (pgEth p) 0x44) 14 12, rdf s (ra (pgEth p) 0x44) 11 0) else none

/-- The way of the packets of a session (R62, R86). -/
def sessionPath (s : State) (ss : Session) : UdpPath :=
  { service := ss.service, addr := ss.srcAddr, port := ss.srcPort, tag := portTag s ss.ethPort }

/-- Sends a message of a session. -/
def sendMsg (s : State) (n : Nat) (ss : Session) (m : List Byte) : State :=
  send s (.udp ss.ethPort n (sessionPath s ss) m)

/-- Highest SEQ of a session that the unit may acknowledge: before the first whose acknowledgement is withheld (R79). -/
def ackOf (s : State) (n : Nat) : Nat :=
  let ss := getSession s n
  let held := (s.host.journal.filter (fun e => e.2.session == n && e.2.withheld && !e.2.peer)).map (fun e => e.2.seq)
  held.foldl (fun a q => if seqLe q a then (if q = 1 then 0 else q - 1) else a) ss.accepted

/-- Sends an EVENT message to one session if it is subscribed, Open and not of version 2.x (R414). The sessions of a
pair are the active unit's (R86). -/
def sendEvent (s : State) (n : Nat) : State :=
  let ss := getSession s n
  if isActive s && rdb s (ra pgEvc 0x248) n && ss.state == 1 && decide (3 ≤ ss.major) then
    let num := ss.events + 1
    let m := gMessage ss.minor ss.major 0x20 1 n 0 (ackOf s n) (eventEntry s num) []
    count (sendMsg (setSession s n { ss with events := num }) n ss m) pgEvc 23
  else s

/-- EVENT messages to all subscribed sessions. -/
def sendEvents (s : State) : State :=
  if rdb s (ra pgEvc 0x244) 10 then (List.range 16).foldl (fun s i => sendEvent s (i + 1)) s else s

/-- A word of the MSI-X table; entries are masked at reset, as PCIe defines. -/
def msixWord (s : State) (i : Nat) : Word := tget (fun k => if k % 4 = 3 then 1#32 else 0#32) s.host.msixTable i

/-- Sends an MSI-X vector, or holds it in the pending bit array while it is masked (R413). -/
def msix (s : State) (v : Nat) : State :=
  if (msixWord s (4 * v + 3)).getLsbD 0 then
    { s with host := { s.host with msixPending := if s.host.msixPending.contains v then s.host.msixPending
                                                   else s.host.msixPending ++ [v] } }
  else send s (.msix v)

/-- HOST_INTn is driven low: PIN_EN and the flag of target 4 (R412). -/
def hostIntLow (s : State) : Bool := flagOf s 4 && rdb s (ra pgEvc 0x244) 8

/-- HOST_INTn follows a change of `s` from `old`; each assertion is counted (R412). -/
def hostPin (old s : State) : State :=
  if hostIntLow old = hostIntLow s then s
  else if hostIntLow s then send (count s pgEvc 21) (.hostInt true)
  else send s (.hostInt false)

/-- The MSI-X message of the target 4 flag: counted when it is sent, held while its vector is masked (R413). -/
def signalMsix (s : State) : State :=
  let v := rdf s (ra pgEvc 0x244) 5 0
  if (msixWord s (4 * v + 3)).getLsbD 0 then msix (setEvc s { s.evc with msixHeld := true }) v
  else count (msix s v) pgEvc 22

/-- Sets the signal flag of a target and delivers it (R411 to R414). -/
def setFlag (s : State) (t : Nat) : State :=
  if flagOf s t then s
  else
    let old := s
    let s := setEvc s { s.evc with flags := s.evc.flags ||| 2 ^ t }
    if t = 4 then
      let s := hostPin old s
      let s := if rdb s (ra pgEvc 0x244) 9 then signalMsix s else s
      sendEvents s
    else s

/-- Presents one source: when it is eligible for its target, the target's flag is set (R411). -/
def notify (s : State) (src : Nat) : State :=
  if bitOf s.evc.en src && pendOf s src then
    (let t := targetOf s src
     if eligible s t src then setFlag s t else s)
  else s

/-- Presents the best source of every target: after a claim, a completion or a change of configuration (R411). -/
def notifyAll (s : State) : State :=
  (List.range 5).foldl (fun s t => if bestSource s t = 0 then s else setFlag s t) s

/-- An edge of an edge source sets P; a second one is coalesced (R405). -/
def edgeEvent (s : State) (src : Nat) : State :=
  if bitOf s.evc.pend src then count s pgEvc 20
  else notify (setEvc s { s.evc with pend := s.evc.pend ||| 2 ^ src }) src

/-- Raises bits of a page's EV_PEND and presents the page's source. -/
def evBits (s : State) (p bits : Nat) : State :=
  notify (wr s (ra p 0x24) (evPend s p ||| bits)) (0x100 + p)

/-- Raises one bit of a page's EV_PEND. -/
def ev (s : State) (p bit : Nat) : State := evBits s p (2 ^ bit)

/-- EV_PEND.REFUSED of the block a page belongs to. -/
def refuse (s : State) (p : Nat) : State := ev s (headerOf p) 4

/-! ### Roles and claims (R270, R345) -/

/-- PAIR.CFG.MODE (R340). -/
def pairMode (s : State) : Bool := rdb s (ra pgPair 0x40) 0

/-- UNIT strap: unit A (R340, R476). -/
def unitA (s : State) : Bool := rdb s (ra pgSys 0x4C) 0

/-- PAIR.EPOCH. -/
def epoch (s : State) : Nat := rd s (ra pgPair 0x4C)

/-- The claim word that the unit sends on every lane (R270, R345). -/
def claimWord (s : State) : Nat :=
  let u := b2n (unitA s)
  if s.pair.role = 0 then 0x180 + u
  else if s.pair.role = 2 ∨ s.pair.role = 3 then epoch s * 256 + 0x80 + u
  else if s.pair.role = 5 then epoch s * 256 + u
  else u

/-- A lane is ACTIVE. -/
def laneActive (s : State) (l : Nat) : Bool := (getLane s l).state == 6

/-- Pair lanes that are up (R341). -/
def pairLanes (s : State) : List Nat := ((List.range 4).map (fun i => 48 + i)).filter (laneActive s)

/-- At least one pair lane is up: PAIR.STAT.LINK. -/
def pairLink (s : State) : Bool := !(pairLanes s).isEmpty

/-- A pair message: 12-byte header, body, and CRC-32C (R343). -/
def pairMessage (type flags seq ack : Nat) (body : List Byte) : List Byte :=
  withCrc (leBytes 1 type ++ leBytes 1 flags ++ leBytes 2 body.length ++ leBytes 4 seq ++ leBytes 4 ack ++ body)

/-- Sends a pair message on a lane and counts it on the lane's page and on the PAIR page. -/
def pairPut (s : State) (l type flags seq : Nat) (body : List Byte) : State :=
  count (count (send s (.pair l (pairMessage type flags seq s.pair.rxSeq body))) (pgPrl (l - 48)) 0) pgPair 0

/-- Sends a message that is not sequenced. DESIGN CHOICE (log 56): a message goes on the lowest pair lane that is up. -/
def pairSend (s : State) (type flags : Nat) (body : List Byte) : State :=
  match pairLanes s with
  | l :: _ => pairPut s l type flags 0 body
  | [] => s

/-- Numbers a sequenced message and keeps it until it is acknowledged; it goes out on the given lanes (R343). -/
def pairSendOn (s : State) (ls : List Nat) (type flags : Nat) (body : List Byte) : State :=
  let q := nextSeq s.pair.txSeq
  let s := { s with pair := { s.pair with
    txSeq := q, unacked := s.pair.unacked ++ [(q, type, flags, body)],
    sentOn := match ls with
      | l :: _ => tset s.pair.sentOn q l
      | [] => s.pair.sentOn } }
  ls.foldl (fun s l => pairPut s l type flags q body) s

/-- Sends one sequenced message. -/
def pairSendOne (s : State) (type flags : Nat) (body : List Byte) : State :=
  pairSendOn s ((pairLanes s).take 1) type flags body

/-- Pieces of at most `n` bytes. -/
def pieces (n : Nat) : Nat → List Byte → List (List Byte)
  | 0, _ => []
  | k + 1, bs => if bs.length ≤ n then [bs] else bs.take n :: pieces n k (bs.drop n)

/-- Sends a sequenced message; a body of more than 2,304 bytes goes on in further messages of the same type. -/
def pairSendSeq (s : State) (type flags : Nat) (body : List Byte) : State :=
  (pieces 2304 (body.length / 2304 + 1) body).foldl (fun s b => pairSendOne s type flags b) s

/-- The body of a HELLO message (R342). -/
def helloBody (s : State) : List Byte :=
  leBytes 1 3 ++ leBytes 1 1 ++ leBytes 1 (b2n (unitA s)) ++ leBytes 1 s.pair.role ++ leBytes 4 (epoch s) ++
    leBytes 4 (rd s (ra pgPair 0x54)) ++ leBytes 2 (rd s (ra pgSys 0x44) / 2 ^ 16 % 2 ^ 16) ++ zeroBytes 2 ++
    leBytes 4 (drgSize s) ++ leBytes 4 Config.configCrc ++ leBytes 8 Config.serial

/-! ### Press time and the role (R320, R337, R339) -/

def ptcA (o : Nat) : Nat := ra pgPtc o
def setClk (s : State) (c : Clock) : State := { s with clk := c }

/-- PTC.CFG.SRC is PTP. -/
def srcPtp (s : State) : Bool := rdb s (ptcA 0x40) 0

/-- A standby or joining unit that follows the active unit. -/
def pairFollow (s : State) : Bool := rdb s (ptcA 0x40) 4 && (s.pair.role == 4 || s.pair.role == 5)

/-- The state follows the source after a change of SRC or of the role (R320, R328, R337, R339). A unit that follows its
partner has no master of its own; where that ends with SRC = PTP, the state becomes ACQUIRE (R339). -/
def ptcSource (s : State) : State :=
  let st := s.clk.state
  if pairFollow s then
    (if st = 6 then s
     else setClk s { s.clk with state := 6, first := true, jump := false, measured := none, best := none, foreign := [],
                                adopted := none })
  else if srcPtp s = false then setClk s { s.clk with state := 0, jump := false, measured := none, adopted := none }
  else if st = 6 ∨ (st = 4 ∧ s.clk.adopted = none) then
    setClk s { s.clk with state := 2, first := false, jump := false, suspended := false, goodRun := 0, badRun := 0 }
  else if st = 0 then setClk s { s.clk with state := 1 }
  else s

/-- The unit drives the shared outputs: it is single, or active in a pair (R53, R370). -/
def drivesOutputs (s : State) : Bool := !pairMode s || isActive s

/-- GPIO pins that the unit drives, and their levels (R53): push-pull at the GPIO_OUT level, open drain low only. -/
def gpioDrive (s : State) : Nat × Nat :=
  let out := rd s (ra pgPin 0x208)
  let dir := if drivesOutputs s then rd s (ra pgPin 0x200) else 0
  (dir &&& (0xFFFFFFFF ^^^ (rd s (ra pgPin 0x204) &&& out)), out)

/-- The pins of the unit show what it drives, after a change of `s` from `old`. -/
def gpioShow (old s : State) : State :=
  let x := gpioDrive s
  if (gpioDrive old).1 = x.1 ∧ (gpioDrive old).2 &&& x.1 = x.2 &&& x.1 then s else send s (.gpio x.1 (x.2 &&& x.1))

/-- Changes the role; press time follows its source, HELLO tells the partner (table of R343), the shared outputs are
driven by an active unit only (R370), and a unit that is no longer alone takes its partner's camera results again, so
that LOOP_NO_CAMERA is reported anew when it next finds itself alone (R20). -/
def setRole (s : State) (r : Nat) : State :=
  let t := ptcSource { s with
    pair := { s.pair with role := r }
    cams := { s.cams with noCamera := s.cams.noCamera && (r == 0 || r == 3) } }
  let t := gpioShow s t
  if pairMode t then pairSendSeq t 0x01 0 (helloBody t) else t

/-! ### Frames on Flelyn lanes (R248, R255, R278, R367) -/

/-- LINE, WAVE and CTRL frames may begin: not after a class D fault or a demotion (R367, R377). -/
def mayBegin (s : State) : Bool := !s.sys.stopped && s.pair.role != 6

/-- The bytes of a sent frame: header, body of LEN bytes, CRC-32C (R248). -/
def flnFrame (type flags claim : Nat) (body : List Byte) : List Byte :=
  withCrc (leBytes 1 type ++ leBytes 1 flags ++ leBytes 2 body.length ++ leBytes 4 claim ++ body)

/-- Puts a frame on a lane. In MISMATCH no LINE, WAVE or CTRL frame is sent (R255); in electrical idle a frame waits for
the burst that wakes the lane, and then, but for IDLE and the SYNC itself, for the time exchange (R257, R278). -/
def flnSend (s : State) (l type flags : Nat) (body : List Byte) : State :=
  let ln := getLane s l
  let printData := type == 1 || type == 2 || type == 6
  if printData && !mayBegin s then s
  else if ln.state = 5 ∧ ln.wasActive = true ∧ type ≠ 3 ∧ type ≠ 0xF then
    setLane s l { ln with queued := ln.queued ++ [(type, flags, body)] }
  else if ln.state = 7 then
    (if ln.eiAsked then setLane s l { ln with queued := ln.queued ++ [(type, flags, body)] }
     else send (setLane s l { ln with queued := ln.queued ++ [(type, flags, body)], eiAsked := true }) (.lanePhy l 1))
  else if ln.state = 8 ∧ printData = true then s
  else if ln.state ≤ 2 ∨ ln.state = 9 then s
  else count (send s (.fln l (flnFrame type flags (claimWord s) body))) (pgFln l) 0

/-! ### SLOW_REQ (R244, R513) -/

/-- Some source asserts SLOW_REQ: overspeed of a bar (R244), the speed limit of image memory (R146), a thermal stop
or trip (R438, R439), a class D fault (R481), a watchdog (R23), a failed boot (R479) or the safe state of the shared outputs
(R372). -/
def slowReq (s : State) : Bool :=
  (List.range 8).any (fun b => (getBar s b).ovs != 0 && cmb s (ra (pgPlc b) 0x58) 1) ||
    s.dram.slow || s.power.stop != 0 || s.power.tripped || s.sys.stopped || s.sys.wdStop || s.sys.bootState == 6 || s.pair.safe

/-- An IO_OUT frame to the IO node on a lane (R262 table, R513). -/
def ioOutBody (s : State) (applyT value mask : Nat) : List Byte :=
  leBytes 1 7 ++ leBytes 1 0 ++ leBytes 6 applyT ++ leBytes 4 value ++ leBytes 4 mask ++
    leBytes 1 (b2n s.links.slowReq + 2 * b2n (rdb s (ra pgFlng 0x7C) 0))

/-- ACTIVE lanes with an IO node. -/
def ioLanes (s : State) : List Nat :=
  (List.range 48).filter (fun l => laneActive s l && (getLane s l).kind == 2)

/-- Sends the present state of every output to every ACTIVE IO node (R513). -/
def ioResend (s : State) : State :=
  (ioLanes s).foldl (fun s l => flnSend s l 2 0 (ioOutBody s 0 (getLane s l).ioLevel 0xFFFFFFFF)) s

/-- Follows a change of the sources of SLOW_REQ on its pin and on every IO node (R244). -/
def slowSync (s : State) : State :=
  if s.links.slowReq = slowReq s then s
  else ioResend { s with links := { s.links with slowReq := slowReq s } }

/-! ### Pass-through of encoder channels (R173) -/

/-- What the pass-through outputs of a channel show: none in high impedance; else the levels, and whether they are raw. -/
def ptOut (s : State) (c : Nat) : Option (Nat × Bool) :=
  let m := rdf s (ra (pgPos c) 0x40) 9 8
  if 4 ≤ c ∨ posMode s c ≠ 1 ∨ m = 0 ∨ s.sys.inReset = true ∨ s.sys.stopped = true then none
  else some ((getChan s c).levels, m == 2)

/-- Sends the outputs of a channel when they differ from what they were. -/
def ptShow (old : Option (Nat × Bool)) (s : State) (c : Nat) : State :=
  if ptOut s c = old then s
  else send s (.encpt c ((ptOut s c).map (fun x => x.1)) (((ptOut s c).map (fun x => x.2)).getD false))

/-- Sends all outputs that differ from those of an earlier state. -/
def ptShowAll (old s : State) : State := (List.range 4).foldl (fun s c => ptShow (ptOut old c) s c) s

/-! ### Bars that stop -/

/-- The bar issues no further line starts; row-lines already started are built and sent, and the bar is stopping until
their fire times have passed (R164, R211). -/
def stopBar (s : State) (b : Nat) : State :=
  let br := getBar s b
  if br.printing then
    setBar s b { br with printing := false, stopping := true, armed := false, streams := br.streams.map (fun t => { t with done := true }) }
  else if br.armed then setBar s b { br with armed := false } else s

/-- Stops a list of bars. -/
def stopBars (s : State) (bs : List Nat) : State := bs.foldl stopBar s

/-! ### Fault records (R481 to R487) -/

/-- Records made with a class that goes to the non-volatile log (R487): at most 64 records a second, class B beyond
that in the RAM log only. -/
def nvEnter (s : State) (r : FaultRecord) : State :=
  let n := (if s.sys.nvSec = s.clk.sec then s.sys.nvCount else 0) + s.sys.nvWait.length
  if r.cls = 0 ∨ (r.cls = 1 ∧ 64 ≤ n) then s
  else { s with sys := { s.sys with nvWait := s.sys.nvWait ++ [r] } }

/-- Arms a Rime snapshot with a cause (R55). -/
def armSnapshot (s : State) (cause : Nat) : State :=
  { s with snapWait := if s.snapWait.contains cause then s.snapWait else s.snapWait ++ [cause] }

/-- What a class D fault does to the unit (R367, R346, R481): FAULT on the pair lanes, no further line starts, outputs
released, DEMOTED in a paired role. SPLIT_BRAIN rejoins and so does not hold the unit stopped (R377). -/
def stopUnit (s : State) (code : Nat) : State :=
  let s := if pairMode s then pairSendOn s (pairLanes s) 0x30 0 [] else s
  let s := stopBars s (List.range 8)
  let s := if code = 0x0A09 then s else ptShowAll s { s with sys := { s.sys with stopped := true } }
  let s := if s.pair.role = 0 then s else setRole s 6
  slowSync s

/-- The record of a fault at the present tick (R24, R482, R483). `at?` gives the image line and web position that the
recording rule names instead. -/
def faultRecord (s : State) (code cls page bar : Nat) (detail : List Nat) (at? : Option (Nat × Int)) : FaultRecord :=
  let b := if bar < 8 then bar else refBar s
  { code := code, cls := cls, late := false, unitA := unitA s, role := s.pair.role, bar := bar, seq := s.sys.seq,
    ptSec := s.clk.sec, ptNs := s.clk.ns, boots := counter s pgSys 7,
    webPos := match at? with
      | some x => x.2
      | none => webPos s b,
    imageLine := match at? with
      | some x => x.1
      | none => buildLine s b,
    detail := (detail ++ [0, 0, 0, 0]).take 4, page := page }

/-- Enters a record in the RAM log, a ring of 1,024 (R486). -/
def ramEnter (s : State) (r : FaultRecord) : State :=
  let s := if s.sys.ramLog.length < 1024 then s else count s pgSys 4
  { s with sys := { s.sys with ramLog := (if s.sys.ramLog.length < 1024 then s.sys.ramLog else s.sys.ramLog.drop 1) ++ [r],
                               seq := s.sys.seq + 1 } }

/-- Records a fault and takes the action of its class (R481): class 0 A, 1 B, 2 C, 3 D. -/
def faultAt (s : State) (code cls page bar : Nat) (detail : List Nat) (at? : Option (Nat × Int)) : State :=
  let r := faultRecord s code cls page bar detail at?
  let s := nvEnter (ramEnter s r) r
  let s := count s pgSys cls
  let s := ev (ev s pgSys (8 + cls)) page 3
  let s := if decide (2 ≤ cls) && rdb s (ra pgRime 0x40) 3 then armSnapshot s 2 else s
  if cls = 3 then stopUnit s code else s

/-- Records a fault that no rule ties to a row-line. -/
def fault (s : State) (code cls page bar : Nat) (detail : List Nat) : State := faultAt s code cls page bar detail none

/-- Bar number of a fault that is not tied to a bar (R24). -/
def noBar : Nat := 0xF

/-- The unit is active alone, or single, with the colour loop enabled and no camera port in use: LOOP_NO_CAMERA once (R20). -/
def checkCamera (s : State) : State :=
  let lost := (s.pair.role == 0 || s.pair.role == 3) && pgEn s pgLoop && !(List.range 4).any (fun c => pgEn s (pgCam c))
  if lost = s.cams.noCamera then s
  else
    let s := { s with cams := { s.cams with noCamera := lost } }
    if lost then fault s 0x0804 1 pgLoop noBar [] else s

/-- Bar b, while it prints, depends on a header page (R32 and the register sections of the chapters). -/
def barDepends (s : State) (b p : Nat) : Bool :=
  p == pgLine || p == pgPos (lineChan s b) || p == pgBar b || p == pgPlc b || p == pgWave || p == pgFlng ||
    p == pgFirn || p == pgThaw ||
    p == pgDrg || (List.range 4).any (fun n => p == pgDrc n) || p == pgPtc ||
    (headsOf s b).any (fun h => p == pgFln (headLane s b h)) || (pairMode s && p == pgPair)

end Sys2Proof.Machine
end

