-- ==== Sys2Proof/Machine/Bar.lean ====
section
/-! DEFINITION. The bar pipeline (07): contone, density, gain, twins, compensation, screening, level strings and bar
line CRCs; the Drypoint and ladder patterns that replace levels; the row window; the expected records of the loop. -/

namespace Sys2Proof.Machine

open Sys2Proof

/-! ### The row window (R188, R189) -/

/-- Slots of a bar's row window. -/
def winSlots (s : State) (b : Nat) : List WinSlot := tget (fun _ => []) s.print.windows b

def setWin (s : State) (b : Nat) (w : List WinSlot) : State :=
  let s := { s with print := { s.print with windows := tset s.print.windows b w } }
  let peak := rd s (ra (pgBar b + 1) 0x44)
  let s := wr s (ra (pgBar b + 1) 0x40) w.length
  if peak < w.length then wr s (ra (pgBar b + 1) 0x44) w.length else s

/-- BARn.FIRST and BARn.NCOLS as committed. -/
def firstCol (s : State) (b : Nat) : Nat := cmf s (ra (pgBar b) 0x48) 16 0
def ncols (s : State) (b : Nat) : Nat := cmf s (ra (pgBar b) 0x4C) 17 0

/-- The contone line of an image line within the pass, and within the repeat (R191). -/
def contoneAbs (br : Bar) (n : Nat) : Nat := n / br.u
def contoneLine (br : Bar) (n : Nat) : Nat := if br.rep = 0 then contoneAbs br n else contoneAbs br n % br.rep

/-- Column c lies inside the image (R184). -/
def inImage (s : State) (b : Nat) (br : Bar) (c : Nat) : Bool :=
  decide (firstCol s b ≤ c) && decide (c < firstCol s b + br.wc) && decide (c < ncols s b)

/-- The pixel and the tile column of a column (R191). -/
def pixelOf (s : State) (b : Nat) (br : Bar) (c : Nat) : Nat := (c - firstCol s b) / br.u
def tileCol (s : State) (b : Nat) (br : Bar) (c : Nat) : Nat := pixelOf s b br c / 2048

/-- Lowest and highest column of a row of a head. -/
def rowCols (s : State) (b h r : Nat) : Nat × Nat :=
  let lo := headCol0 s b h + rowCol s b r
  (lo, lo + headStep s b h * (headNpr s b h - 1))

/-- The tile columns that the nozzles of a row stream cover (R188, R189). -/
def streamTiles (s : State) (b : Nat) (br : Bar) (t : Stream) : List Nat :=
  let rc := rowCols s b t.head t.row
  let lo := max rc.1 (firstCol s b)
  let hi := min rc.2 (firstCol s b + br.wc - 1)
  if br.wc = 0 ∨ hi < lo then []
  else (List.range (tileCol s b br hi + 1 - tileCol s b br lo)).map (fun i => tileCol s b br lo + i)

/-- The slot that holds tile (x, y) of the plane a bar prints. -/
def findSlot (s : State) (b : Nat) (br : Bar) (x y : Nat) : Option WinSlot :=
  (winSlots s b).find? (fun w => w.job == br.job && w.plane == br.plane && w.x == x && w.y == y)

/-- The contone byte that column c reads on image line n (R191); 0 where the tile is not held. -/
def contone (s : State) (b : Nat) (br : Bar) (c n : Nat) : Nat :=
  let px := pixelOf s b br c
  let m := contoneLine br n
  match findSlot s b br (px / 2048) (m / 16) with
  | some w => ((w.bytes[2048 * (m % 16) + px % 2048]?).map (fun v => v.toNat)).getD 0
  | none => 0

/-! ### Gain, twins and compensation (R196 to R206) -/

def nzGain (e : Nat) : Nat := field e 11 0
def nzWset (e : Nat) : Nat := field e 15 12
def nzFdly (e : Nat) : Int := signed 6 (field e 21 16)
def nzState (e : Nat) : Nat := field e 23 22
def nzComp (e : Nat) : Nat := field e 27 24

/-- Density set entry of a bar (R192). -/
def density (s : State) (k b v : Nat) : Nat := rdf s (0xC00000 + 0x2000 * k + 0x400 * b + 4 * v) 11 0

/-- Address of a band trim, and the trim (R194). -/
def trimAddr (b j k : Nat) : Nat := 0xC40000 + 0x4000 * b + 0x2000 * j + 4 * k
def bandTrim (s : State) (b j k : Nat) : Int := signed 12 (rd s (trimAddr b j k))

/-- The fraction before saturation of a column inside the image (R199). -/
def rawFraction (s : State) (b : Nat) (br : Bar) (c n : Nat) : Int :=
  let d := density s (cmAt s b n (ra (pgBar b) 0x44) % 16) b (contone s b br c n)
  let g := nzGain (nozzleAt s b n c)
  let t := bandTrim s b (cmAt s b n (ra (pgBar b) 0x54) % 2) ((c - firstCol s b) / 64)
  roundHalfUp ((d : Int) * g * (4096 + t)) (2 ^ 23)

/-- The own full fraction of a column (R184, R199); 0 on a tile that prints blank (R205). -/
def fraction (s : State) (b : Nat) (br : Bar) (blanks : List Nat) (c n : Nat) : Nat :=
  if inImage s b br c && !blanks.contains (tileCol s b br c) then satN 12 (rawFraction s b br c n) else 0

/-- The fraction after twin halving (R200). -/
def halved (s : State) (b : Nat) (f : Nat) : Nat :=
  if twinMode s b = 2 then (if twinSecondary s b then f - f / 2 else f / 2) else f

/-- A column can receive shares on an image line (R204). -/
def canReceive (s : State) (b n c : Nat) : Bool :=
  decide (c < ncols s b) && decide (nzState (nozzleAt s b n c) < 2)

/-- The commit of a bar's header page, armed at a line that it has not reached, applies to image line n (R40, R198). -/
def pendingFor (s : State) (b n : Nat) : Bool :=
  let p := pgBar b
  let d := ((if retPass s b then buildLineI s b - (cm s (ra p 0x1C) : Int) else (cm s (ra p 0x1C) : Int) - buildLineI s b) %
    (2 ^ 32 : Nat)).toNat
  let line := if retPass s b then buildLineI s b - d else buildLineI s b + d
  rdb s (ra p 0x18) 2 && cmb s (ra p 0x18) 1 && printing s b && decide (d < 2 ^ 31) && !before (retPass s b) n line

/-- A nozzle table entry in effect for an image line, as either twin reads it (R206): when the other twin has not reached
the line at which staged entries are to apply, the reader takes them from that line on. -/
def nozzleOn (s : State) (b n c : Nat) : Nat :=
  if pendingFor s b n then
    (match (getBar s b).staging.find? (fun e => e.1 == c) with
     | some e => e.2.toNat
     | none => nozzleAt s b n c)
  else nozzleAt s b n c

/-- A past commit still has row-lines before its line: of its bar, or of the twin, which reads the entries of the columns
that it takes over (R206). -/
def pastNeeded (s : State) (e : PastCommit) : Bool :=
  (linesLeft s e.bar e.job true ++
    (if twinMode s e.bar = 0 then [] else linesLeft s (twinPartner s e.bar) e.job true)).any
    (fun n => before e.ret n e.line)

/-- The tile columns that a row stream reads on image line n: those of its nozzles, and that of a MISSING neighbour of
its outermost nozzles, which gives them a share (R188, R204, R210). -/
def lineTiles (s : State) (b : Nat) (br : Bar) (t : Stream) (n : Nat) : List Nat :=
  let rc := rowCols s b t.head t.row
  let own := streamTiles s b br t
  let side := ((if rc.1 = 0 then [] else [rc.1 - 1]) ++ [rc.2 + 1]).filter (fun q =>
    inImage s b br q && nzState (nozzleAt s b n q) == 2)
  own ++ (side.map (tileCol s b br)).filter (fun x => !own.contains x)

/-- Bar p's column q is printed by its twin on image line n (R206). -/
def takenOver (s : State) (p n q : Nat) : Bool :=
  let e := nozzleOn s p n q
  nzState e == 2 && nzComp e == 4 &&
    (twinMode s p == 2 || (twinMode s p == 1 && !twinSecondary s p && ilComp s (twinPartner s p))) &&
    decide (q < ncols s (twinPartner s p)) && decide (nzState (nozzleOn s (twinPartner s p) n q) < 2)

/-- On an IL_COMP secondary, the image lines of the primary (R201, R202). -/
def primaryLine (s : State) (b n : Nat) : Bool :=
  twinMode s b == 1 && twinSecondary s b && ilComp s b && n % 2 == 0

/-- The share that a missing column q gives to its lower (`up = false`) or upper neighbour (R204). -/
def shareOf (s : State) (b : Nat) (br : Bar) (blanks : List Nat) (q n : Nat) (up : Bool) : Nat :=
  let e := nozzleAt s b n q
  if nzState e = 2 ∧ takenOver s b n q = false ∧ primaryLine s b n = false then
    let f := halved s b (fraction s b br blanks q n)
    let l := decide (1 ≤ q) && canReceive s b n (q - 1)
    let r := canReceive s b n (q + 1)
    let comp := nzComp e
    if comp = 1 ∨ comp = 4 then
      (if l && r then (if up then f - f / 2 else f / 2)
       else if up then (if r then f else 0) else (if l then f else 0))
    else if comp = 2 then (if !up && l then f else 0)
    else if comp = 3 then (if up && r then f else 0)
    else 0
  else 0

/-- A share of column q is dropped (R204). -/
def shareDropped (s : State) (b : Nat) (br : Bar) (blanks : List Nat) (q n : Nat) : Bool :=
  let e := nozzleAt s b n q
  nzState e == 2 && !takenOver s b n q && !primaryLine s b n && halved s b (fraction s b br blanks q n) != 0 &&
    shareOf s b br blanks q n false == 0 && shareOf s b br blanks q n true == 0

/-- Shares of column q that are delivered (R204). -/
def sharesDelivered (s : State) (b : Nat) (br : Bar) (blanks : List Nat) (q n : Nat) : Nat :=
  b2n (shareOf s b br blanks q n false != 0) + b2n (shareOf s b br blanks q n true != 0)

/-- Column c of bar b prints for its twin on image line n (R206). -/
def takesOver (s : State) (b n c : Nat) : Bool :=
  twinMode s b != 0 && takenOver s (twinPartner s b) n c &&
    (twinMode s b == 2 || primaryLine s b n)

/-- The fraction that a column fires with (R205, R206). -/
def fireFraction (s : State) (b : Nat) (br : Bar) (blanks : List Nat) (c n : Nat) : Nat :=
  let own := fraction s b br blanks c n
  let f := if takesOver s b n c then own else if primaryLine s b n then 0 else halved s b own
  let up := if c = 0 then 0 else shareOf s b br blanks (c - 1) n true
  satN 12 ((f + up + shareOf s b br blanks (c + 1) n false : Nat) : Int)

/-- Threshold k of a screen cell (R207, R208). -/
def threshold (s : State) (b c n k : Nat) : Nat :=
  let ph := cmAt s b n (ra (pgBar b) 0x50)
  let m := if drop4 s b then 128 else 256
  let cell := if drop4 s b then 32 else 8
  let a := 0x800000 + 0x80000 * b + cell * (m * ((n + field ph 15 8) % m) + (c + field ph 7 0) % m)
  rdf s (a + 4 * ((k - 1) / 2)) (16 * ((k - 1) % 2) + 11) (16 * ((k - 1) % 2))

/-- The bits that a word of a screen has in the bar's drop mode (R207): two thresholds, but one in the last word of a
cell. -/
def screenMask (s : State) (a : Nat) : Nat :=
  let cell := if drop4 s ((a - 0x800000) / 0x80000) then 32 else 8
  if a % cell = cell - 4 then 0x00000FFF else 0x0FFF0FFF

/-- The bits that a word of the table windows has. -/
def tableMask (s : State) (a : Nat) : Nat :=
  if 0x800000 ≤ a ∧ a < 0xC00000 then screenMask s a else windowMask a

/-- The drop level of a fraction: the count of thresholds it exceeds (R208). -/
def screen (s : State) (b c n a : Nat) : Nat :=
  ((List.range (if drop4 s b then 15 else 3)).filter (fun i => decide (threshold s b c n (i + 1) < a))).length

/-- The drop level of Stipple for an owned column (R205, R208). -/
def stipple (s : State) (b : Nat) (br : Bar) (blanks : List Nat) (c n : Nat) : Nat :=
  if decide (2 ≤ nzState (nozzleAt s b n c)) || (primaryLine s b n && !takesOver s b n c) ||
      (inImage s b br c && blanks.contains (tileCol s b br c)) then 0
  else screen s b c n (fireFraction s b br blanks c n)

/-! ### Drypoint and ladder patterns (R228, R229, R309, R310) -/

/-- DRYP.CFG as committed, and whether a pattern is armed or printing. -/
def drypCfg (s : State) : Nat := cm s (ra pgDryp 0x40)
def drypOn (s : State) : Bool := rdb s (ra pgDryp 0x54) 0 || rdb s (ra pgDryp 0x54) 1
def drypStart (s : State) : Nat := cm64 s (ra pgDryp 0x44)
def drypPattern (s : State) : Nat := field (drypCfg s) 3 0
def drypHead (s : State) : Nat := field (drypCfg s) 7 4 + 16 * cmf s (ra pgDryp 0x4C) 0 0

/-- The single bar of a HEAD or GROUP pattern: the lowest of BARS. -/
def drypBar (s : State) : Nat := ((List.range 8).find? (fun b => bitOf (field (drypCfg s) 15 8) b)).getD 0

/-- Lines that a pattern spans (R229). -/
def drypLength (s : State) : Nat :=
  if drypPattern s = 1 then 384
  else if drypPattern s = 2 then 192
  else if drypPattern s = 3 then 48 * headRows s (drypBar s) (drypHead s)
  else 0

/-- Image line n is a pattern line of bar b (R228) under the Drypoint words of `s`. -/
def drypHits (s : State) (b n : Nat) : Bool :=
  drypOn s && bitOf (field (drypCfg s) 15 8) b && decide (drypStart s ≤ n) && decide (n < drypStart s + drypLength s)

/-- Image line n is a pattern line of bar b (R228): a commit of DRYP changes only the lines from its own line on (R10,
R40). -/
def drypLine (s : State) (b n : Nat) : Bool := drypHits (asOf s b n) b n

/-- The level that the pattern fires at a column of row r of head h (R229) under the Drypoint words of `s`. -/
def drypMark (s : State) (b h r n : Nat) : Nat :=
  let o := n - drypStart s
  let first := if drypPattern s = 1 then 48 * b
    else if drypPattern s = 2 then 48 * (h % 4)
    else 48 * r
  let hit := decide (first ≤ o) && decide (o < first + 4) && (drypPattern s != 3 || h == drypHead s)
  if hit then field (drypCfg s) 23 20 else 0

/-- The level that the pattern fires at a column of row r of head h (R229). -/
def drypLevel (s : State) (b h r n : Nat) : Nat := drypMark (asOf s b n) b h r n

/-- Ladder registers (R309). -/
def ladderCfg (s : State) : Nat := rd s (ra pgLoop 0x80)
def ladderSteps (s : State) : Nat := rdf s (ra pgLoop 0x84) 21 16
def ladderDash (s : State) : Nat := rdf s (ra pgLoop 0x84) 15 8
def ladderGap (s : State) : Nat := rdf s (ra pgLoop 0x84) 7 0
def ladderPeriod (s : State) : Nat := 1024 * rdf s (ra pgLoop 0x88) 15 0
def ladderBars (s : State) : List Nat := (List.range 8).filter (fun b => bitOf (field (ladderCfg s) 23 16) b)
def ladderT (s : State) : Nat := ladderSteps s * (ladderDash s + ladderGap s)
def ladderOn (s : State) : Bool := bitOf (ladderCfg s) 31 && ladderPeriod s != 0

/-- The first image line of the ladder that image line n would lie in, and the offset of n from it. -/
def ladderBase (s : State) (n : Nat) : Option (Nat × Nat) :=
  let ph := rdf s (ra pgLoop 0x8C) 23 0
  if ladderOn s ∧ ph ≤ n then
    let o := (n - ph) % ladderPeriod s
    if o < ladderT s * (ladderBars s).length then some (n - o, o) else none
  else none

/-- A ladder from `base` falls on a line of a Drypoint pattern on some bar of both, and is skipped (R310). -/
def ladderSkipped (s : State) (base : Nat) : Bool :=
  (List.range (ladderBars s).length).any (fun i =>
    let b := ((ladderBars s)[i]?).getD 0
    let lo := base + i * ladderT s
    let s := asOf s b lo
    drypOn s && bitOf (field (drypCfg s) 15 8) b && decide (drypStart s < lo + ladderT s) &&
      decide (lo < drypStart s + drypLength s))

/-- Image line n lies in bar b's block of a ladder that prints: its offset in the block (R309). -/
def ladderLineOf (s : State) (b n : Nat) : Option Nat :=
  match ladderBase s n with
  | some x =>
    if ladderSkipped s x.1 then none
    else if (ladderBars s)[x.2 / ladderT s]? = some b then some (x.2 % ladderT s) else none
  | none => none

/-- The level a ladder fires at a column (R309). -/
def ladderLevel (s : State) (b n c o : Nat) : Nat :=
  let st := nzState (nozzleAt s b n c)
  let j := o / (ladderDash s + ladderGap s)
  if o % (ladderDash s + ladderGap s) < ladderDash s ∧ c % ladderSteps s = j ∧ st ≠ 3 ∧
      (st = 2 → bitOf (ladderCfg s) 30 = true) then field (ladderCfg s) 15 12 else 0

/-- The level of an owned column of row r of head h on image line n. -/
def columnLevel (s : State) (b : Nat) (br : Bar) (blanks : List Nat) (h r c n : Nat) : Nat :=
  if drypLine s b n then drypLevel s b h r n
  else match ladderLineOf s b n with
    | some o => ladderLevel s b n c o
    | none => stipple s b br blanks c n

/-! ### Level strings (R185) -/

/-- Packs levels of w bits, nozzle 0 lowest, padded to whole 32-bit words. -/
def packLevels (w : Nat) (ls : List Nat) : List Byte :=
  leBytes (4 * ceilDiv (w * ls.length) 32) (ls.foldr (fun l acc => acc * 2 ^ w + l % 2 ^ w) 0)

/-- The levels of the nozzles of a head row on an image line; a nozzle whose column the head does not own has level 0
(R183, R216). -/
def rowLevels (s : State) (b : Nat) (br : Bar) (blanks : List Nat) (h r n : Nat) : List Nat :=
  (List.range (headNpr s b h)).map (fun j =>
    let c := nozzleCol s b h r j
    if owns s b h c then columnLevel s b br blanks h r c n else 0)

/-- The level string of a row-line. -/
def levelString (s : State) (b : Nat) (br : Bar) (blanks : List Nat) (h r n : Nat) : List Byte :=
  packLevels (if drop4 s b then 4 else 2) (rowLevels s b br blanks h r n)

/-- The owned columns of a head row. -/
def ownedCols (s : State) (b h r : Nat) : List Nat :=
  ((List.range (headNpr s b h)).map (nozzleCol s b h r)).filter (owns s b h)

/-! ### Counting what a row-line computes -/

/-- Live counters 3 to 6 of the BAR page for one column (R199, R204, R206). -/
def countColumn (s : State) (b : Nat) (br : Bar) (blanks : List Nat) (n : Nat) (acc : State) (c : Nat) : State :=
  let sat := inImage s b br c && !blanks.contains (tileCol s b br c) && decide (4095 < rawFraction s b br c n)
  let acc := countN acc (pgBar b) 3 (b2n sat)
  let acc := countN acc (pgBar b) 4 (sharesDelivered s b br blanks c n)
  let acc := if shareDropped s b br blanks c n then ev (count acc (pgBar b) 5) (pgBar b) 9 else acc
  countN acc (pgBar b) 6 (b2n (takesOver s b n c))

/-- Live counters 8 to 11: columns fired per level (07), in the drop mode of the row-line. -/
def countLevels (s : State) (b : Nat) (d4 : Bool) (ls : List Nat) : State :=
  ls.foldl (fun acc l => count acc (pgBar b) (8 + (if d4 then l / 4 else l))) s

/-! ### Expected records of the loop (R297) -/

def loopLines (s : State) : Nat := rdf s (ra pgLoop 0x48) 15 0
def loopStripe (s : State) : Nat := 16 * 2 ^ rdf s (ra pgLoop 0x4C) 18 16
def loopRowGuard (s : State) : Nat := rdf s (ra pgLoop 0x4C) 15 8
def loopGuard (s : State) : Nat := rdf s (ra pgLoop 0x4C) 5 0

def loopPeriod (s : State) : Nat := rdf s (ra pgLoop 0x44) 23 0

/-- Key of a patch record: window number, bar, band and stripe. -/
def patchKey (w b band stripe : Nat) : Nat := ((w * 8 + b) * 4096 + band) * 4096 + stripe

/-- The window that image line n lies in, by its number n0 / PERIOD, and its offset in build order (R296, R510). -/
def loopWindow (s : State) (ret : Bool) (n : Nat) : Option (Nat × Nat) :=
  let p := loopPeriod s
  let o := if ret then (p - n % p) % p else n % p
  if p ≠ 0 ∧ o < loopLines s then some ((if ret then n + o else n) / p, o) else none

/-- The window and stripe of an interior line of a stripe (R295). -/
def patchLine (s : State) (ret : Bool) (n : Nat) : Option (Nat × Nat) :=
  match loopWindow s ret n with
  | some (w, o) =>
    let r := n % loopStripe s
    if loopRowGuard s ≤ r ∧ r + loopRowGuard s < loopStripe s then some (w, o / loopStripe s) else none
  | none => none

/-- An entry of the AIM table of a bar (R297). -/
def aimOf (s : State) (b v : Nat) : Nat := tget (fun _ => 0) s.cams.aim (256 * b + v)

/-- Adds one column's contone to the expected record of its patch. A new record adds to the C3 traffic; DESIGN CHOICE
(log 52): it takes 8 bytes. -/
def expectColumn (s : State) (b : Nat) (br : Bar) (n w stripe : Nat) (dirty : Bool) (c : Nat) : State :=
  let o := (c - firstCol s b) % 64
  if inImage s b br c ∧ loopGuard s ≤ o ∧ o + loopGuard s < 64 then
    let k := patchKey w b ((c - firstCol s b) / 64) stripe
    let e := tget (fun _ => ({} : Expected)) s.cams.expected k
    let v := contone s b br c n
    let e' : Expected :=
      { sumA := e.sumA + aimOf s b v, minV := min e.minV v, maxV := max e.maxV v, dirty := e.dirty || dirty }
    let s := if s.cams.expected.any (fun x => x.1 == k) then s else demand s 3 8
    { s with cams := { s.cams with expected := tset s.cams.expected k e' } }
  else s

/-- Keeps the expected records of a row-line while the loop is enabled (R297). -/
def expectLine (s : State) (b : Nat) (br : Bar) (h r n : Nat) (dirty : Bool) : State :=
  if pgEn s pgLoop then
    match patchLine s br.ret n with
    | some (w, stripe) => (ownedCols s b h r).foldl (fun acc c => expectColumn acc b br n w stripe dirty c) s
    | none => s
  else s

/-- Marks the patches of a row-line dirty: a skipped or lost row-line (R297). -/
def dirtyLine (s : State) (b : Nat) (br : Bar) (h r n : Nat) : State :=
  if pgEn s pgLoop then
    match patchLine s br.ret n with
    | some (w, stripe) =>
      (ownedCols s b h r).foldl (fun acc c =>
        let k := patchKey w b ((c - firstCol s b) / 64) stripe
        let e := tget (fun _ => ({} : Expected)) acc.cams.expected k
        if inImage s b br c then
          { acc with cams := { acc.cams with expected := tset acc.cams.expected k { e with dirty := true } } }
        else acc) s
    | none => s
  else s

/-! ### The bar line CRC (R186, R353) -/

/-- Row streams whose strings of an image line are complete. -/
def stringsOf (br : Bar) (n : Nat) : List (Nat × List Byte) :=
  (br.strings.filter (fun e => e.1 == n)).map (fun e => e.2)

/-- Strings of an image line in ascending row stream number. -/
def orderedStrings (br : Bar) (n : Nat) : List Byte :=
  (List.range br.streams.length).flatMap (fun i =>
    (((stringsOf br n).find? (fun e => e.1 == i)).map (fun e => e.2)).getD [])

/-- The bytes of a CRC entry (R353). -/
def crcEntryBytes (e : CrcEntry) : List Byte :=
  leBytes 6 e.line ++ leBytes 1 e.bar ++ leBytes 1 (b2n e.transient + 2 * b2n e.persistent) ++ leBytes 4 e.crc

/-- Image line n of bar b lies before the line L of the catch-up, or no catch-up has named one (R360). -/
def beforeCatchup (s : State) (b n : Nat) : Bool :=
  match s.pair.catchup with
  | none => true
  | some l => before (retPass s b) n l

/-- The units of the pair compare bar lines: a Ready pair, or a join from line L on (R353, R354, R360). -/
def verifying (s : State) (b n : Nat) : Bool :=
  s.pair.role == 2 || s.pair.role == 5 ||
    ((s.pair.role == 4 || (s.pair.role == 3 && decide (4 ≤ s.pair.joinStep))) && !beforeCatchup s b n)

/-- Completes an image line when every row stream has built it: counts it and, in a pair, sends its CRC (R186, R353). -/
def completeLine (s : State) (b n : Nat) : State :=
  let br := getBar s b
  if (stringsOf br n).length = br.streams.length then
    let e : CrcEntry := { line := n, bar := b, transient := br.transients.contains n, persistent := br.persistent,
                          crc := crc32c (orderedStrings br n) }
    let s := setBar s b { br with strings := br.strings.filter (fun x => x.1 != n),
                                  transients := br.transients.filter (fun x => x != n) }
    let s := count s (pgBar b) 0
    if verifying s b n then
      let s := { s with print := { s.print with ownCrcs := s.print.ownCrcs ++ [e] } }
      pairSendSeq s 0x11 0 (crcEntryBytes e)
    else s
  else s

/-! ### Releasing slots (R189) -/

/-- The row-lines that stream i of a pass has still to build, the started ones first, as far as they are known: the contone
line, counted over the pass, and the tile columns that each reads. -/
def readsAhead (s : State) (b : Nat) (br : Bar) (i : Nat) (t : Stream) : List (Nat × List Nat) :=
  let n := (imgLine s b br t.next).toNat
  (br.lines.filter (fun l => l.stream == i && !l.built)).map (fun l => (contoneAbs br l.img, l.tiles)) ++
    (if t.done then [] else [(contoneAbs br n, lineTiles s b br t n)])

/-- The row-lines of `readsAhead` that read a slot in its present use. -/
def readsSlot (s : State) (b : Nat) (br : Bar) (w : WinSlot) (i : Nat) (t : Stream) : List Nat :=
  ((readsAhead s b br i t).filter (fun x =>
    x.2.contains w.x && (if br.ret then decide (w.last ≤ x.1) else decide (x.1 ≤ w.last)))).map (fun x => x.1)

/-- The row streams of a pass with their numbers. -/
def Bar.numbered (br : Bar) : List (Nat × Stream) :=
  (List.range br.streams.length).filterMap (fun i => (br.streams[i]?).map (fun t => (i, t)))

/-- A slot holds a tile of the job and plane of a pass. -/
def WinSlot.serves (w : WinSlot) (br : Bar) : Bool := w.job == br.job && w.plane == br.plane

/-- A slot is still needed by some row stream of some pass of the bar. -/
def slotNeeded (s : State) (b : Nat) (w : WinSlot) : Bool :=
  (passesOf s b).any (fun br => w.serves br && br.numbered.any (fun x => !(readsSlot s b br w x.1 x.2).isEmpty))

/-- Frees the slots that no row stream needs any more. -/
def releaseSlots (s : State) (b : Nat) : State :=
  setWin s b ((winSlots s b).filter (fun w => !w.ready || slotNeeded s b w))

/-! ### Building a row-line (R187) -/

/-- The bar's first row-line still to be built. -/
def nextToBuild (br : Bar) : Option RowLine := br.lines.find? (fun l => !l.built)

/-- Replaces the first unbuilt row-line by its built form. -/
def markBuilt : List RowLine → RowLine → List RowLine
  | [], _ => []
  | l :: r, x => if l.built then l :: markBuilt r x else x :: r

/-- Builds the level string of a row-line, with the words in effect for its image line, and keeps it for the send and for
the bar line CRC (R178, R185, R187). -/
def buildRowLine (s : State) (b : Nat) (l : RowLine) (t : Stream) : State :=
  let br := getBar s b
  let s0 := asOf s b l.img
  let ls := rowLevels s0 b br l.blanks t.head t.row l.img
  let str := packLevels (if drop4 s0 b then 4 else 2) ls
  let cols := ownedCols s0 b t.head t.row
  let s := cols.foldl (fun acc c => countColumn s0 b br l.blanks l.img acc c) s
  let s := countLevels s b (drop4 s0 b) (cols.map (fun c => columnLevel s0 b br l.blanks t.head t.row c l.img))
  let replaced := drypLine s0 b l.img || (ladderLineOf s0 b l.img).isSome
  let s := expectLine s b br t.head t.row l.img (replaced || !l.blanks.isEmpty)
  let blank := (streamTiles s0 b br t).any l.blanks.contains
  let s := if blank then ev (count s (pgBar b) 7) (pgBar b) 10 else s
  let s := setBar s b { br with lines := markBuilt br.lines { l with built := true, string := str },
                                strings := br.strings ++ [(l.img, l.stream, str)],
                                transients := if l.transient then br.transients ++ [l.img] else br.transients }
  releaseSlots (completeLine s b l.img) b

/-! ### Passes that still stop (R176, R211)

A JOB_START of a bar that is stopping leaves the row-lines of the pass before on their way. What builds or sends one of
them works on a view of the state in which that pass is the bar's present one, and the other bars of its job show the
same job. -/

/-- Exchanges the present record of a bar with entry i of the stopping passes; the skip episode of the bar stays. -/
def swapPass (s : State) (i : Nat) : State :=
  match s.print.old[i]? with
  | some e =>
    let br := getBar s e.1
    setBar { s with print := { s.print with old := s.print.old.set i (e.1, br) } } e.1 { e.2 with skip := br.skip }
  | none => s

/-- The state seen through a list of exchanges. -/
def inView (s : State) (v : List Nat) : State := v.foldl swapPass s

/-- Works on a view, and exchanges back. -/
def onView (s : State) (v : List Nat) (f : State → State) : State := v.reverse.foldl swapPass (f (inView s v))

/-- The views of the passes of a bar, oldest first; the last is the state itself. -/
def passViews (s : State) (b : Nat) : List (List Nat) :=
  let job (i : Nat) : Option Nat := (s.print.old[i]?).map (fun e => e.2.job)
  let is := List.range s.print.old.length
  (is.filter (fun i => (s.print.old[i]?).map (fun e => e.1) == some b)).map (fun i => is.filter (fun k => job k == job i)) ++ [[]]

/-- Works on the first view of a bar's passes that has a property. -/
def onPass (s : State) (b : Nat) (p : State → Bool) (f : State → State) : State :=
  match (passViews s b).find? (fun v => p (inView s v)) with
  | some v => onView s v f
  | none => s

end Sys2Proof.Machine
end

