-- ==== Sys2Proof/Machine/Placement.lean ====
section
/-! DEFINITION. Placement in time (08): extrapolated position and speed in effect, send positions and fire times, group
offsets, LINE frames, the skip rule, the line-rate limits and the overspeed state; and waveforms: sets, validity,
downloads and amplitude factors. -/

namespace Sys2Proof.Machine

open Sys2Proof

/-! ### Position between edges (R159) -/

/-- pos_at of R159, in 2^-16 counts. -/
def posAt (s : State) (c t : Nat) : Int :=
  let ch := getChan s c
  let dt0 := sinceLatch t ch.latchT
  let dt := if incremental s c then dt0 else min dt0 (rdf s (ra (pgPos c) 0x6C) 16 0 * 256 * 1000)
  let d0 : Nat := speedAt s c t * dt / (2 ^ 8 * 10 ^ 9)
  let d : Int := ((if incremental s c then min d0 65535 else d0 : Nat) : Int)
  if ch.reverse then ch.pos - d else ch.pos + d

/-! ### Targets and fire times (R217, R218, R224) -/

/-- A word of the alignment set that a bar uses for an image line (R221, R222). -/
def alignWord (s : State) (b : Nat) (n : Int) (o : Nat) : Int :=
  signed 32 (rd s (0xC80000 + 0x1000 * (cmAt s b n (ra (pgPlc b) 0x44) % 16) + 0x200 * b + o))

/-- S_b of the sheet that row-line k belongs to (R176, R181). -/
def startOf (br : Bar) (k : Nat) : Int := (br.starts[sheetOf br k]?).getD 0

/-- The target position X of a row-line (R217). -/
def targetPos (s : State) (b : Nat) (br : Bar) (t : Stream) (k : Nat) (n : Nat) : Int :=
  let d : Int := if br.ret then -1 else 1
  let o := if br.ret then 4 else 0
  let oh := (if br.ret then 0x100 else 0x80) + 4 * t.head
  startOf br k + t.g + d * (linePos s b (inSheet br k) : Int) + alignWord s b n o + alignWord s b n oh

/-- PLCn.FLIGHT in effect for an image line, in 1/16 ns. -/
def flight (s : State) (b : Nat) (n : Nat) : Nat := field (cmAt s b n (ra (pgPlc b) 0x48)) 23 0

/-- PLCn.LEAD. -/
def leadLines (s : State) (b : Nat) : Nat := cmf s (ra (pgPlc b) 0x4C) 3 0

/-- The send position SX for a speed magnitude (R217). -/
def sendPos (s : State) (b : Nat) (br : Bar) (t : Stream) (k n v : Nat) : Int :=
  let w := v * flight s b n / (16 * 10 ^ 9)
  let back : Int := (w + linePos s b (leadLines s b) : Nat)
  if br.ret then targetPos s b br t k n + back else targetPos s b br t k n - back

/-- The send position has been reached and the latch carries a speed (R217). -/
def sendReached (s : State) (b : Nat) (br : Bar) (t : Stream) (l : RowLine) : Bool :=
  let s := asOf s b l.img
  let ch := getChan s (lineChan s b)
  let sx := sendPos s b br t l.k l.img ch.speed.natAbs
  ch.speed != 0 && (if br.ret then decide (ch.pos ≤ sx) else decide (sx ≤ ch.pos))

/-- The fire time of R218 from a latch and a speed magnitude. -/
def fireTime (br : Bar) (x pl : Int) (tl v flt : Nat) : Nat :=
  let delta := if br.ret then pl - x else x - pl
  (((tl : Int) + roundHalfUp (delta * 2 ^ 8 * 10 ^ 9) v - 16 * flt) % (2 ^ 48 : Nat)).toNat

/-- FDLY of group g of a head row on an image line (R223). -/
def groupDelay (s : State) (b h r g : Nat) (n : Nat) : Int :=
  let js := (List.range 32).map (fun i => 32 * g + i)
  match js.find? (fun j => decide (j < headNpr s b h) && owns s b h (nozzleCol s b h r j)) with
  | some j => nzFdly (nozzleAt s b n (nozzleCol s b h r j))
  | none => 0

/-- The group offset before saturation, in 1/4 ns (R224). -/
def rawGofs (s : State) (b : Nat) (br : Bar) (fdly : Int) (v : Nat) : Int :=
  roundHalfUp ((if br.ret then -1 else 1) * fdly * pitch s b * 10 ^ 9) (8 * v)

/-- Group offsets of a row-line (R224). -/
def gofsList (s : State) (b : Nat) (br : Bar) (h r n v : Nat) : List Int :=
  (List.range (ceilDiv (headNpr s b h) 32)).map (fun g => rawGofs s b br (groupDelay s b h r g n) v)

/-! ### Waveform sets (R234 to R239) -/

def waveWord (s : State) (w o : Nat) : Nat := rd s (0xD00000 + 0x800 * w + o)
def waveValid (s : State) (w : Nat) : Bool := rdb s (ra pgWave 0x80) w
def waveMulti (s : State) (w : Nat) : Bool := bitOf (waveWord s w 0) 24
def wavePeriod (s : State) (w : Nat) : Nat := field (waveWord s w 4) 19 0
def setWord (s : State) (k : Nat) : Nat := rd s (ra pgWave (0x40 + 4 * k))

/-- The waveforms that set k plays for a bar of the given drop mode (R237). -/
def setWaves (s : State) (k : Nat) (d4 : Bool) : List Nat :=
  let w := setWord s k
  if d4 then [field w 4 0] else [field w 4 0, field w 12 8, field w 20 16]

/-- The fast form of a set, if it has one (R237). -/
def fastForm (s : State) (k : Nat) : Option Nat :=
  if bitOf (setWord s k) 28 then some (field (setWord s k) 27 24) else none

/-- A set passes the checks of R238 for a drop mode. -/
def setOk (s : State) (k : Nat) (d4 : Bool) : Bool :=
  (setWaves s k d4).all (fun w => waveValid s w && (!d4 || waveMulti s w))

/-- Sets selected by the GOOD and WEAK nozzles of a bar. -/
def setsOf (s : State) (b : Nat) : List Nat :=
  (List.range 16).filter (fun k =>
    (List.range (ncols s b)).any (fun c =>
      let e := rd s (nozzleAddr b c)
      decide (nzState e < 2) && nzWset e == k))

/-- Sets in use by a bar: the selected ones and their fast forms (R238). -/
def setsInUse (s : State) (b : Nat) : List Nat :=
  setsOf s b ++ (setsOf s b).filterMap (fastForm s)

/-- Longest MIN_PERIOD of a list of sets. -/
def longest (s : State) (ks : List Nat) (d4 : Bool) : Nat :=
  (ks.flatMap (fun k => setWaves s k d4)).foldl (fun m w => max m (wavePeriod s w)) 0

/-- The fast map of a bar is available (R239). -/
def fastOk (s : State) (b : Nat) : Bool :=
  (setsOf s b).all (fun k => match fastForm s k with
    | some f => (setWaves s f (drop4 s b)).all (waveValid s)
    | none => false)

/-- Pn and Pf in ns (R239). -/
def periodN (s : State) (b : Nat) : Nat := longest s (setsOf s b) (drop4 s b)
def periodF (s : State) (b : Nat) : Nat := longest s ((setsOf s b).filterMap (fastForm s)) (drop4 s b)

/-- floor(10^9 / P), up to 1,000,000; 0 for no period. -/
def rateOf (p : Nat) : Nat := if p = 0 then 0 else min 1000000 (10 ^ 9 / p)

/-- Recomputes the line-rate limits of a bar: LIMIT, LIMIT_FAST, MINP, MINP_FAST (R239). -/
def refreshLimits (s : State) (b : Nat) : State :=
  let pn := periodN s b
  let pf := periodF s b
  let s1 := wr (wr s (ra (pgPlc b) 0x60) (rateOf pn)) (ra (pgPlc b) 0x68) pn
  wr (wr s1 (ra (pgPlc b) 0x64) (if fastOk s b then rateOf pf else 0)) (ra (pgPlc b) 0x6C) pf

/-- PC of R239 in ns. -/
def periodC (s : State) (b : Nat) : Nat := if drop4 s b then 12500 else 6250

/-- Waveforms in use by printing bars: WAVE.IN_USE (R238). -/
def waveInUse (s : State) (w : Nat) : Bool :=
  (List.range 8).any (fun b => printing s b && ((setsInUse s b).flatMap (fun k => setWaves s k (drop4 s b))).contains w)

/-- A waveform set in use by a printing bar (R238). -/
def setInUse (s : State) (k : Nat) : Bool :=
  (List.range 8).any (fun b => printing s b && (setsInUse s b).contains k)

/-! ### LINE frames (R217 to R220, R242, R243, R260, R266) -/

/-- Partner of version 1.x on a lane. -/
def partner1x (s : State) (l : Nat) : Bool := (getLane s l).verMajor == 1

/-- The body of a LINE frame (R260). -/
def lineBody (s : State) (lane slot row : Nat) (l : RowLine) (fire v : Nat) (skip : Bool) : List Byte :=
  let f := if partner1x s lane then (fire + 128) / 256 * 256 % 2 ^ 48 else fire
  leBytes 1 (slot * 8 + row) ++ leBytes 1 0 ++ leBytes 2 l.k ++ leBytes 2 l.img ++ leBytes 6 f ++
    leBytes 6 (if partner1x s lane then 0 else v) ++ (if skip then [] else l.string)

/-- A bar prints 4-bit drops to the partner on a lane; a partner of version 1.x lacks them (R254). -/
def drop4On (s : State) (b lane : Nat) : Bool := drop4 s b && !partner1x s lane

/-- FLAGS of a LINE frame on a lane without REPLAY (R254, R260). -/
def lineFlags (s : State) (b lane : Nat) (br : Bar) (l : RowLine) (skip : Bool) : Nat :=
  b2n skip + 2 * b2n l.fast + 8 * b2n (drop4On s b lane) + 16 * b2n br.ret

/-- Keeps a LINE frame in the line history: the last 16 of each row stream (R266). -/
def keepSent (ln : Lane) (x : SentLine) : Lane :=
  let same := ln.history.filter (fun y => y.slot == x.slot && y.row == x.row)
  let rest := ln.history.filter (fun y => !(y.slot == x.slot && y.row == x.row))
  { ln with history := rest ++ (if same.length < 16 then same else same.drop 1) ++ [x] }

/-- The first skip of an episode records LINE_SKIP; a later one counts (R242, R243). -/
def recordSkip (s : State) (b : Nat) (l : RowLine) (x : Int) : State :=
  let s := wr64 (count s (pgPlc b) 1) (ra (pgPlc b) 0xA8) (twos 64 x)
  let br := getBar s b
  match br.skip with
  | some e => setBar s b { br with skip := some { count := e.count + 1, lastImg := l.img, quiet := 0 } }
  | none =>
    let s := setBar s b { br with skip := some { count := 1, lastImg := l.img, quiet := 0 } }
    let s := ev (wr64 s (ra (pgPlc b) 0xA0) (twos 64 x)) (pgPlc b) 11
    faultAt s 0x0601 1 (pgPlc b) b [] (some (l.img, x))

/-- The fire time of a row-line lies too close to the last one of its row stream that was not skipped (R242). -/
def tooClose (s : State) (b : Nat) (t : Stream) (l : RowLine) (fire : Nat) : Bool :=
  match t.lastFire with
  | some f =>
    let p := max (rdf s (ra (pgPlc b) (if l.fast then 0x6C else 0x68)) 19 0) (periodC s b)
    decide (signed 48 (fire + 2 ^ 48 - f % 2 ^ 48) < (p * 256 : Nat))
  | none => false

/-- Removes the first built row-line of a row stream. -/
def dropSent (i : Nat) : List RowLine → List RowLine
  | [] => []
  | l :: r => if l.built && l.stream == i then r else l :: dropSent i r

/-- The smallest number of a list, 0 for none. -/
def leastOf (gs : List Int) : Int := gs.foldl min (gs.headD 0)

/-- Sends a built row-line, with the words in effect for its image line, from a latch with a speed magnitude that is not 0
(R178, R217 to R220, R242, R257). -/
def sendRowLine (s : State) (b i : Nat) (l : RowLine) (t : Stream) (v : Nat) : State :=
  let br := getBar s b
  let s0 := asOf s b l.img
  let ch := getChan s (lineChan s0 b)
  let x := targetPos s0 b br t l.k l.img
  let fire := fireTime br x ch.pos ch.latchT v (flight s0 b l.img)
  let skip := tooClose s b t l fire
  let gs := gofsList s0 b br t.head t.row l.img v
  let sat := (gs.filter (fun g => ssatN 24 g != g)).length
  let lane := headLane s0 b t.head
  let slot := headSlot s0 b t.head
  let body := lineBody s lane slot t.row l fire v skip
  let flags := lineFlags s0 b lane br l skip
  let streams := br.streams.set i { t with lastFire := if skip then t.lastFire else some fire }
  let s := setBar s b { br with lines := dropSent i br.lines, streams := streams }
  let s := if sat = 0 then s else ev (countN s (pgPlc b) 3 sat) (pgPlc b) 13
  let s := if skip then dirtyLine (recordSkip s b l x) b br t.head t.row l.img else s
  let ln := getLane s lane
  if s.pair.role = 4 ∧ beforeCatchup s b l.img = true then s
  else if ln.state = 6 ∨ ln.state = 7 ∨ (ln.state = 5 ∧ ln.wasActive = true) then
    let s := count s (pgPlc b) 0
    let s := setLane s lane (keepSent (getLane s lane)
      { slot := slot, row := t.row, rline := l.k % 65536, fire := fire, minGofs := leastOf (gs.map (ssatN 24)),
        flags := flags, body := body, img := l.img, bar := b, target := x })
    flnSend s lane 1 flags body
  else s

/-- A row-line built after its send position is sent at once and counted late (R219), with the speed in effect (R167). -/
def sendIfLate (s : State) (b : Nat) (l : RowLine) (t : Stream) : State :=
  let br := getBar s b
  let first := (br.lines.find? (fun x => x.built && x.stream == l.stream)).map (fun x => x.k)
  if first = some l.k ∧ sendReached s b br t l = true then
    let s := ev (count s (pgPlc b) 2) (pgPlc b) 12
    sendRowLine s b l.stream l t (speedAt s (lineChan (asOf s b l.img) b) (fireNow s))
  else s

/-! ### Overspeed (R240, R241) -/

/-- evaluate(state) of R240: 0 NORMAL, 1 WARN, 2 FAST, 3 SKIP. -/
def evaluateOvs (state q rn rf rc : Nat) (fast : Bool) : Nat :=
  if q < rc then 3
  else if q < rn ∨ ((state = 2 ∨ state = 3) ∧ 97 * q ≤ 100 * rn) then
    (if fast = true ∧ rf ≤ q then 2 else 3)
  else if 95 * q ≤ 100 * rn ∨ 99 * q ≤ 100 * rc then 1
  else if state = 1 ∧ 93 * q ≤ 100 * rn then 1
  else 0

/-- Evaluates a bar at a line start of its reference row stream (R240, R241). -/
def overspeed (s : State) (b : Nat) : State :=
  let br := getBar s b
  let v := (getChan s (lineChan s b)).speed.natAbs
  let fastEn := cmb s (ra (pgPlc b) 0x58) 0 && rdf s (ra (pgPlc b) 0x64) 19 0 != 0
  let o := evaluateOvs br.ovs (pitch s b * 10 ^ 9) (v * rdf s (ra (pgPlc b) 0x68) 19 0)
    (v * rdf s (ra (pgPlc b) 0x6C) 19 0) (v * periodC s b) fastEn
  let fm := if o = 2 then true else if o = 3 then br.fastMap else false
  let s := setBar s b { br with ovs := o, fastMap := fm,
                                skip := br.skip.map (fun e => { e with quiet := e.quiet + 1 }) }
  let s := wr s (ra (pgPlc b) 0x5C) (o + 4 * b2n fm)
  let s := if o = 2 then count s (pgPlc b) 4 else if o = 3 then count s (pgPlc b) 5 else s
  let s := if o ≠ br.ovs ∧ o ≠ 0 then ev s (pgPlc b) (7 + o) else s
  slowSync s

/-! ### Waveform checks and downloads (R231 to R235, R265) -/

def segWord (s : State) (w m : Nat) : Nat := waveWord s w (0x40 + 8 * m) + 2 ^ 32 * waveWord s w (0x44 + 8 * m)
def segLevel (s : State) (w m : Nat) : Int := signed 16 (field (segWord s w m) 15 0)
def segSlew (s : State) (w m : Nat) : Nat := field (segWord s w m) 31 16
def segDur (s : State) (w m : Nat) : Nat := field (segWord s w m) 47 32
def waveT (s : State) (w i : Nat) : Int := signed 16 (field (waveWord s w (0x10 + 4 * i)) 31 16)
def waveA (s : State) (w i : Nat) : Nat := field (waveWord s w (0x10 + 4 * i)) 15 0
def pulseFirst (s : State) (w : Nat) : Nat := field (waveWord s w 0) 12 8
def pulseLast (s : State) (w : Nat) : Nat := field (waveWord s w 0) 20 16
def nseg (s : State) (w : Nat) : Nat := field (waveWord s w 0) 5 0

/-- Levels that segment m can start from (R234 reason 4). -/
def segStarts (s : State) (w m : Nat) : List Int :=
  (if m = 0 then [0] else [segLevel s w (m - 1)]) ++
    (if waveMulti s w = true ∧ m = pulseFirst s w then [segLevel s w (pulseLast s w)] else [])

/-- Total duration, counting the pulse segments 15 times for MULTI (R234). -/
def waveDuration (s : State) (w : Nat) : Nat :=
  ((List.range (nseg s w)).map (fun m =>
    (if waveMulti s w = true ∧ pulseFirst s w ≤ m ∧ m ≤ pulseLast s w then 15 else 1) * segDur s w m)).sum

/-- The number of the first check of R234 that a waveform fails, 0 when it passes. -/
def waveCheck (s : State) (w : Nat) : Nat :=
  let n := nseg s w
  let segs := List.range n
  if n = 0 ∨ 32 < n then 1
  else if segLevel s w (n - 1) ≠ 0 then 2
  else if segs.any (fun m => segDur s w m == 0) then 3
  else if segs.any (fun m => segSlew s w m != 0 &&
      (segStarts s w m).any (fun l => decide (segDur s w m * segSlew s w m < 20 * (segLevel s w m - l).natAbs))) then 4
  else if wavePeriod s w < 1000 ∨ 1000000 < wavePeriod s w ∨ wavePeriod s w < waveDuration s w then 5
  else if (List.range 7).any (fun i => decide (waveT s w (i + 1) ≤ waveT s w i)) ||
      (List.range 8).any (fun i => decide (waveA s w i < 0x2000) || decide (0x7FFF < waveA s w i)) then 6
  else if waveMulti s w = true ∧ ¬ (pulseFirst s w ≤ pulseLast s w ∧ pulseLast s w < n) then 7
  else 0

/-- The body of a WAVE frame (R265). -/
def waveBody (s : State) (w : Nat) : List Byte :=
  leBytes 4 w ++ (List.range 80).flatMap (fun i => leBytes 4 (waveWord s w (4 * i)))

/-- Downloads a waveform to the HCB on a lane; a new download has its own 3 resends (R234, R265). -/
def sendWave (s : State) (l w : Nat) : State :=
  let ln := getLane s l
  let s := setLane s l { ln with waveSent := ln.waveSent.filter (fun e => e.1 != w) ++ [(w, 0)] }
  flnSend (count s pgWave 0) l 6 0 (waveBody s w)

/-- ACTIVE or EIDLE lanes with an HCB. -/
def hcbLanes (s : State) : List Nat :=
  (List.range 48).filter (fun l => ((getLane s l).state == 6 || (getLane s l).state == 7) && (getLane s l).kind == 1)

/-- amp(T) of a waveform (08, before R235), 2.14. -/
def ampOf (s : State) (w : Nat) (t : Int) : Int :=
  if t ≤ waveT s w 0 then waveA s w 0
  else if waveT s w 7 ≤ t then waveA s w 7
  else
    let i := (((List.range 7).filter (fun i => decide (waveT s w i ≤ t))).getLast?).getD 0
    (waveA s w i : Int) + roundHalfUp (((waveA s w (i + 1) : Int) - waveA s w i) * (t - waveT s w i))
      (waveT s w (i + 1) - waveT s w i).toNat

/-- The 16 set words (WSETS). -/
def wsetsBody (s : State) (apply : Nat) : List Byte :=
  leBytes 1 5 ++ leBytes 1 0 ++ leBytes 2 apply ++ (List.range 16).flatMap (fun k => leBytes 4 (setWord s k))

end Sys2Proof.Machine
end

