-- ==== Sys2Proof/Machine/Access.lean ====
section
/-! DEFINITION. How a word of the register window is written: the checks that every write passes (R6, R33, R42, R509),
the access codes of R5, the held low words of 64-bit registers (R37), and the first part of taking a refused write. -/

namespace Sys2Proof.Machine

open Sys2Proof

/-- PG_COMMIT.PENDING of a page (R40). -/
def commitPending (s : State) (p : Nat) : Bool := rdb s (ra p 0x18) 2

/-- A field of a word lies in its range (R509). -/
def RangeSpec.ok (r : RangeSpec) (v : Nat) : Bool :=
  let f := field v r.hi r.lo
  let x : Int := if r.sgn then signed (r.hi + 1 - r.lo) f else f
  decide (r.min ≤ x) && decide (x ≤ r.max)

/-- Every field of a word lies in its range. -/
def rangesOk (r : RegSpec) (v : Nat) : Bool := r.ranges.all (fun x => x.ok v)

/-- The checks of a write to a block register: the address is defined (R6), the block's clock runs (R33), its shadows
are not locked (R42), and the fields are in range (R509). Answers the state after a write that is ignored or refused,
or nothing when the write goes on. -/
def gate (s : State) (a v : Nat) : Option State :=
  match regSpec a with
  | none => some s
  | some r =>
    if pgClkOn s (a / 4096) = false then some (ev s (headerOf (a / 4096)) 6)
    else if r.sh = true ∧ commitPending s (headerOf (a / 4096)) = true then some (refuse s (a / 4096))
    else if rangesOk r v = false then some (refuse s (a / 4096))
    else none

/-- The word that a write leaves under the access codes of R5: RW bits take the value, W1S bits are set, W1C bits
cleared, all others kept. -/
def writtenWord (r : RegSpec) (old v : Nat) : Nat :=
  let keep := (old % 2 ^ 32) &&& (0xFFFFFFFF ^^^ r.rw)
  let x := keep ||| (v &&& r.rw) ||| (v &&& r.w1s)
  x &&& (0xFFFFFFFF ^^^ (v &&& r.w1c &&& 0xFFFFFFFF))

/-- The low word that waits for its high word, or the low word in effect (R37). -/
def heldLow (s : State) (a : Nat) : Nat := (tget (fun k => BitVec.ofNat 32 (rd s k)) s.held a).toNat

/-- Stores a write that has passed its checks: a low word is held, a high word takes effect with it (R37). -/
def store (s : State) (a v : Nat) : State :=
  match regSpec a with
  | none => s
  | some r =>
    if r.half = 1 then { s with held := tset s.held a (BitVec.ofNat 32 (v &&& r.rw)) }
    else if r.half = 2 then
      let lo := heldLow s (a - 4)
      let s := wr (wr s (a - 4) lo) a (writtenWord r (rd s a) v)
      { s with held := tdel s.held (a - 4) }
    else wr s a (writtenWord r (rd s a) v)

/-- A write of one block register: checked, then stored. -/
def plainWrite (s : State) (a v : Nat) : State :=
  match gate s a v with
  | some s' => s'
  | none => store s a v

/-- Runs an effect when a write passes its checks. -/
def gated (s : State) (a v : Nat) (f : State → State) : State :=
  match gate s a v with
  | some s' => s'
  | none => f s

/-- A write of a register, refused with REFUSED on its page while a condition holds. -/
def refuseIf (c : Bool) (s : State) (a v : Nat) (f : State → State) : State :=
  gated s a v (fun s => if c then refuse s (a / 4096) else f s)

end Sys2Proof.Machine
end

