-- ==== Sys2Proof/Machine/Forward.lean ====
section
/-! DEFINITION. Inputs of the pair (12): build-line tests, the INPUT body, apply-lines, and how an active unit takes an
input or a standby proposes one (R348 to R352). -/

namespace Sys2Proof.Machine

open Sys2Proof

/-- All ones in 48 bits: the APPLY of an ordered input, and no image line. -/
def ones48 : Nat := 2 ^ 48 - 1

/-- The bar prints and starts building image line `n` next, or has built it (R39, R40). -/
def lineReached (s : State) (b n : Nat) : Bool :=
  printing s b && !before (retPass s b) (buildLineI s b) n

/-- Image line `n` has already been built by the bar's reference row stream (R510). -/
def linePassed (s : State) (b n : Nat) : Bool := printing s b && before (retPass s b) n (buildLineI s b)

/-- PAIR.CFG.FWD_LINES. -/
def fwdLines (s : State) : Nat := rdf s (ra pgPair 0x40) 15 8

/-- The apply-line and LATE mark of an input on a reference bar (R349, R350): all ones while no bar prints. -/
def applyLine (s : State) (b : Nat) (line : Option Nat) : Nat × Bool :=
  if printing s b then
    match line with
    | some n => (n, before (retPass s b) n (lineAfter s b (fwdLines s)))
    | none => (((lineAfter s b (fwdLines s)) % (2 ^ 48 : Nat)).toNat, false)
  else (ones48, false)

/-- A unit that a forwarded input goes to: the Ready Standby, or the joining unit from step 2 on (R348, R356). -/
def partnered (s : State) : Bool := s.pair.role == 2 || (s.pair.role == 3 && decide (2 ≤ s.pair.joinStep))

/-- The body of an INPUT message (12). -/
def inputBody (kind : Nat) (late proposal : Bool) (apply bar : Nat) (payload : List Byte) : List Byte :=
  leBytes 1 kind ++ leBytes 1 (b2n late + 2 * b2n proposal) ++ leBytes 2 payload.length ++ leBytes 6 apply ++
    leBytes 1 bar ++ leBytes 1 0 ++ payload

/-- The active takes an input: it chooses its apply-line, forwards it, and holds it for that line (R348, R349). -/
def takeInput (s : State) (kind bar : Nat) (line : Option Nat) (payload : List Byte) : State :=
  let al := applyLine s bar line
  let fwd := partnered s
  let s := if fwd then pairSendSeq (count s pgPair 3) 0x10 0 (inputBody kind al.2 false al.1 bar payload) else s
  { s with pair := { s.pair with inputs := s.pair.inputs ++
      [{ kind := kind, late := al.2, apply := al.1, bar := bar, payload := payload,
         seq := if fwd then s.pair.txSeq else 0, own := true }] } }

/-- An input that reaches this unit: a single unit acts on it at once, an active unit of a pair takes it, and a standby
proposes it to the active (R348). -/
def asInput (s : State) (kind bar : Nat) (line : Option Nat) (payload : List Byte) (act : State → State) : State :=
  if s.pair.role = 0 then act s
  else if isActive s then takeInput s kind bar line payload
  else if s.pair.role = 5 then pairSendSeq s 0x10 0 (inputBody kind false true ones48 bar payload)
  else s

/-- The sequenced message has been acknowledged by the partner. -/
def acked (s : State) (seq : Nat) : Bool := !s.pair.unacked.any (fun u => u.1 == seq)

/-- An input is due (R349, R350): its line is reached, its bar no longer prints, or, for an ordered input, the partner
holds it. -/
def inputDue (s : State) (i : PairInput) : Bool :=
  if i.apply = ones48 then (!i.own || i.seq == 0 || acked s i.seq)
  else !printing s i.bar || lineReached s i.bar i.apply

end Sys2Proof.Machine
end

