-- ==== Sys2Proof/Machine/Axes.lean ====
section
/-! DEFINITION. Axes (13): profiles, the step generator, gearing with pending ratios, stall detection, limits and
homing. -/

namespace Sys2Proof.Machine

open Sys2Proof

/-! ### Configuration and units (R380, R383) -/

/-- A register of an axis. -/
def axA (n o : Nat) : Nat := ra (pgAx n) o
def axMode (s : State) (n : Nat) : Nat := rdf s (axA n 0x40) 2 0
def axMaster (s : State) (n : Nat) : Nat := rdf s (axA n 0x40) 10 8
def axEnc (s : State) (n : Nat) : Nat := rdf s (axA n 0x40) 14 12

/-- A limit in steps per s^k in units of 2^-48 steps and microseconds, with floor (R383). -/
def convLim (x e : Nat) : Nat := x * 2 ^ 48 / 10 ^ e
def axVmax (s : State) (n : Nat) : Nat := convLim (rdf s (axA n 0x44) 22 0) 6
def axAmax (s : State) (n : Nat) : Nat := convLim (rdf s (axA n 0x48) 27 0) 12
def axDmax (s : State) (n : Nat) : Nat := convLim (rdf s (axA n 0x4C) 27 0) 12
def axJmax (s : State) (n : Nat) : Nat := convLim (rd s (axA n 0x50)) 18
def axQdec (s : State) (n : Nat) : Nat := convLim (rdf s (axA n 0x54) 27 0) 12

/-- RATIO in signed 32.32: the register in GEAR, MULT in FOLLOW (R388). -/
def axRatio (s : State) (n : Nat) : Int :=
  if axMode s n = 3 then ((rdf s (axA n 0x40) 23 16 + 1) * 2 ^ 32 : Nat) else signed 64 (rd64 s (axA n 0x78))

/-- A signed 48-bit step count of a register pair. -/
def axSteps (s : State) (n o : Nat) : Int := signed 48 (rd64 s (axA n o))

/-- The axis is in motion: a plan runs or waits, a quick stop runs, or steps are scheduled. -/
def Axis.busy (x : Axis) : Bool := !x.plan.isEmpty || x.waiting != 0 || x.qstop || x.v != 0 || x.sched != 0

/-- AXn.PG_STAT.STATE: 0 off, 1 idle, 2 moving, 3 geared, 4 homing, 5 stopping, 6 fault. -/
def axState (s : State) (n : Nat) : Nat :=
  let x := getAxis s n
  if pgEn s (pgAx n) = false then 0
  else if x.fault then 6
  else if x.homing != 0 then 4
  else if x.qstop || x.stopping then 5
  else if x.geared then 3
  else if x.busy then 2
  else 1

/-- Floor of the commanded position in steps. -/
def Axis.cmdSteps (x : Axis) : Int := x.cmd / 65536

/-! ### The step generator (R380, R382) -/

/-- Least spacing of two steps in ns (R380). -/
def pMin (s : State) (n : Nat) : Nat := max 200 (20 * rdf s (axA n 0x58) 7 0)

/-- The steps owed are scheduled, those scheduled earlier among them; DIRn shows their direction (R380, R382). -/
def schedule (s : State) (x : Axis) (owed : Int) : Axis :=
  let neg := decide (owed < 0)
  let x := { x with sched := owed.natAbs, schedNeg := neg }
  if owed = 0 ∨ neg = x.dirNeg then x else { x with dirNeg := neg, dirT := some (ptTotalNs s) }

/-- A source event: the steps owed are spread over `t` ns; STEP_OVERRUN when more than 64 are still scheduled (R382). -/
def sourceEvent (s : State) (n t : Nat) : State :=
  let x := getAxis s n
  let s := if 64 < x.sched then count (ev s (pgAx n) 18) (pgAx n) 6 else s
  let owed := x.cmdSteps - x.act
  let late := x.backlog || decide (t < owed.natAbs * pMin s n)
  setAxis s n { schedule s x owed with backlog := decide (owed ≠ 0) && late }

/-- The unit drives its shared outputs: single or active, not stopped (R367, R370). -/
def drivesShared (s : State) : Bool := isActive s && !s.sys.stopped && !s.sys.inReset

/-- Less than `d` ns have passed since an event. -/
def withinNs (s : State) (t : Option Nat) (d : Nat) : Bool :=
  match t with
  | some t => decide (t ≤ ptTotalNs s) && decide (ptTotalNs s < t + d)
  | none => false

/-- A step may not begin yet: within Pmin of the last one, or within DIR_SETUP of a change of DIRn (R380). -/
def stepHeld (s : State) (n : Nat) : Bool :=
  let x := getAxis s n
  withinNs s x.stepT (pMin s n) || withinNs s x.dirT (10 * rdf s (axA n 0x58) 23 16)

/-- STEP (R380, R382): the next scheduled step is emitted; one that Pmin or DIR_SETUP delays waits, and BACKLOG is set. -/
def execStep (axis : Nat) (s : State) : Host.Outcome State Fault Refusal :=
  let n := axis % 16
  let x := getAxis s n
  .next <|
    if x.sched = 0 then s
    else if stepHeld s n then setAxis s n { x with backlog := true }
    else
      let s := count s (pgAx n) (b2n x.schedNeg)
      let d : Int := if x.schedNeg then -1 else 1
      let x := if drivesShared s then { x with counted := x.counted + d } else x
      let s := if drivesShared s then send s (.stepPulse n (x.schedNeg == rdb s (axA n 0x40) 3)) else s
      setAxis s n { x with act := x.act + d, sched := x.sched - 1, lastNeg := x.schedNeg, stepT := some (ptTotalNs s),
                           stepHist := ptTotalNs s :: x.stepHist.take 7, backlog := x.backlog && x.sched != 1 }

/-! ### Profiles (R383 to R387) -/

/-- A plan within the form of R384: at most 7 phases of whole updates, the jerk 0, +J or −J in each, and J within jmax. -/
def shapePlan (jmax jerk : Nat) (pl : List (Int × Nat)) : List (Int × Nat) :=
  ((pl.filter (fun ph => ph.2 != 0)).take 7).map (fun ph => (ph.1.sign * (min jerk jmax : Nat), ph.2))

/-- Plan to a position in 2^-48 steps under a top speed. -/
def planTo (s : State) (n : Nat) (x : Axis) (goal : Int) (vmax : Nat) : List (Int × Nat) :=
  let d := goal - x.p
  shapePlan (axJmax s n) (Config.profileJerk x.v x.a d vmax (axAmax s n) (axDmax s n) (axJmax s n))
    (Config.profilePlan x.v x.a d vmax (axAmax s n) (axDmax s n) (axJmax s n))

/-- Plan of a stop to rest under dmax and jmax. -/
def restPlan (s : State) (n : Nat) (x : Axis) : List (Int × Nat) :=
  shapePlan (axJmax s n) (Config.stopJerk x.v x.a (axDmax s n) (axJmax s n)) (Config.stopPlan x.v x.a (axDmax s n) (axJmax s n))

/-- Position at the end of a plan. -/
def runPhase (j : Int) : Nat → Int × Int × Int → Int × Int × Int
  | 0, r => r
  | k + 1, (a, v, p) => runPhase j k (a + j, v + (a + j), p + (v + (a + j)))

/-- Position at which a stop under dmax and jmax comes to rest. -/
def restPos (s : State) (n : Nat) (x : Axis) : Int :=
  ((restPlan s n x).foldl (fun r ph => runPhase ph.1 ph.2 r) (x.a, x.v, x.p)).2.2

/-- Steps as 2^-48 steps. -/
def stepUnits (k : Int) : Int := k * 2 ^ 48

/-- Leaves gearing: the profile goes on from the commanded position at the speed of the master. -/
def ungear (s : State) (n : Nat) : Axis :=
  let x := getAxis s n
  if x.geared then
    { x with geared := false, pend := false, p := x.cmd * 2 ^ 32, a := 0,
             v := signedSpeedAt s (axMaster s n) (fireNow s) * axRatio s n / 10 ^ 6 }
  else x

/-- Plans a stop to rest; the rest position becomes the target (R387). -/
def planStop (s : State) (n : Nat) (x : Axis) : Axis :=
  let rest := restPos s n x
  let goal := (rest + 2 ^ 47) / 2 ^ 48
  { x with plan := if x.v = 0 ∧ x.a = 0 then [] else restPlan s n x, waiting := 0, target := goal, goal := goal, stopping := x.v != 0 || x.a != 0 }

/-- A quick stop acts in the next update; gearing and homing end (R387). -/
def quickStop (s : State) (n : Nat) : State :=
  let x := ungear s n
  setAxis s n { x with plan := [], waiting := 0, qstop := x.v != 0, a := if x.v = 0 then 0 else x.a, stopping := false, homing := 0, homeRev := false }

/-- Latches the references of stall detection (R391). -/
def latchRef (s : State) (n : Nat) (x : Axis) : Axis :=
  { x with pref := x.act, eref := (getChan s (axEnc s n)).pos / 65536 }

/-- dev of R391. -/
def axDev (s : State) (n : Nat) : Int :=
  let x := getAxis s n
  (x.act - x.pref) - roundHalfUp (signed 32 (rd s (axA n 0x90)) * ((getChan s (axEnc s n)).pos / 65536 - x.eref)) 65536

/-- A move at a speed in a direction until an event ends it: the plan runs toward the end of the position range. -/
def cruise (s : State) (n : Nat) (x : Axis) (positive : Bool) (speedReg : Nat) : Axis :=
  let goal := if positive then stepUnits (2 ^ 47 - 1) else stepUnits (-(2 ^ 47))
  { x with plan := planTo s n x goal (convLim (rdf s (axA n speedReg) 22 0) 6), goal := goal / 2 ^ 48, waiting := 0,
           stopping := false, qstop := false }

/-- HOME_CFG.DIR and METHOD. -/
def homePos (s : State) (n : Nat) : Bool := rdb s (axA n 0xB4) 4
def homeMethod (s : State) (n : Nat) : Nat := rdf s (axA n 0xB4) 1 0

/-- The home input of the method: HOME for SWITCH, the limit in DIR for LIMIT. -/
def homeActive (s : State) (n : Nat) : Bool :=
  let x := getAxis s n
  if homeMethod s n = 2 then (if homePos s n then x.limP else x.limN) else x.homeIn

/-- The HOME_BACKOFF steps away from the home (R394). -/
def backOffSteps (s : State) (n : Nat) : State :=
  let x := getAxis s n
  let d : Int := rdf s (axA n 0xC0) 15 0
  let goal := (if homePos s n then x.p - stepUnits d else x.p + stepUnits d)
  setAxis s n { x with homing := 4, goal := goal / 2 ^ 48,
                       plan := planTo s n x goal (convLim (rdf s (axA n 0xB8) 22 0) 6), waiting := 0 }

/-- The approach at HOME_VSLOW in DIR. -/
def approach (s : State) (n : Nat) : State :=
  let x := getAxis s n
  setAxis s n { cruise s n x (homePos s n) 0xBC with homing := 5 }

/-- A homing sequence ends at rest: HOMED and HOMED_DONE (R394). -/
def homed (s : State) (n : Nat) : State :=
  let x := getAxis s n
  ev (setAxis s n (latchRef s n { x with homing := 0, homeRev := false, homed := true, atTarget := false })) (pgAx n) 14

/-- What follows when a plan comes to its end. -/
def planEnd (s : State) (n : Nat) : State :=
  let x := getAxis s n
  if x.homing = 2 then
    (if homeActive s n then setAxis s n { cruise s n x (!homePos s n) 0xB8 with homing := 3 } else backOffSteps s n)
  else if x.homing = 4 then approach s n
  else if x.homing = 6 then homed s n
  else if x.homing = 8 then setAxis s n { cruise s n x (!homePos s n) 0xB8 with homing := 1, homeRev := true }
  else if x.stopping then setAxis s n { x with stopping := false }
  else ev (count (setAxis s n { x with atTarget := true }) (pgAx n) 2) (pgAx n) 8

/-- CMD_POS follows p (R383). -/
def Axis.follow (x : Axis) : Axis := { x with cmd := x.p / 2 ^ 32 }

/-- One update of a quick stop (R387). -/
def qstopUpdate (s : State) (n : Nat) (x : Axis) : Axis :=
  let a : Int := if 0 < x.v then -(axQdec s n : Int) else axQdec s n
  let v := x.v + a
  if x.v = 0 ∨ v * x.v ≤ 0 then { x with v := 0, a := 0, qstop := false }.follow
  else { x with a := a, v := v, p := x.p + v }.follow

/-- One update of a plan: the jerk of its phase; in the last update the axis stands at its target (R383, R384). -/
def planUpdate (x : Axis) : Axis × Bool :=
  match x.plan with
  | [] => (x, false)
  | (j, k) :: rest =>
    let a := x.a + j
    let v := x.v + a
    let x' := { x with a := a, v := v, p := x.p + v, plan := if k ≤ 1 then rest else (j, k - 1) :: rest }
    if x'.plan.isEmpty then ({ x' with a := 0, v := 0, p := stepUnits x.goal }.follow, true)
    else (x'.follow, false)

/-- The plan of a new target starts with its first update (R384). -/
def startPlan (s : State) (n : Nat) (x : Axis) : Axis :=
  if x.waiting = 0 then x
  else if x.waiting = 1 then
    { x with waiting := 0, target := axSteps s n 0x60, goal := axSteps s n 0x60, atTarget := false, stopping := false,
             plan := planTo s n x (stepUnits (axSteps s n 0x60)) (axVmax s n) }
  else { x with waiting := x.waiting - 1 }

/-- PROFILE_UPDATE (R382 to R387, R391, R394): every 1 us. -/
def execProfileUpdate (axis : Nat) (s : State) : Host.Outcome State Fault Refusal :=
  let n := axis % 16
  .next <|
    if pgEn s (pgAx n) = false ∨ axMode s n ≠ 1 ∧ (getAxis s n).plan.isEmpty = true ∧ (getAxis s n).qstop = false then s
    else
      let x := startPlan s n (getAxis s n)
      let started := (getAxis s n).waiting == 1
      if x.qstop then sourceEvent (setAxis s n (qstopUpdate s n x)) n 1000
      else if started && x.plan.isEmpty then
        let s := setAxis s n { x with p := stepUnits x.goal, a := 0, v := 0 }.follow
        sourceEvent (planEnd s n) n 1000
      else
        let r := planUpdate x
        let s := setAxis s n r.1
        let s := sourceEvent s n 1000
        if r.2 then planEnd s n else s

/-- A direction in which a limit is asserted (R393). -/
def towardLimit (x : Axis) (d : Int) : Bool := (decide (0 < d) && x.limP) || (decide (d < 0) && x.limN)

/-- The checks of a new target (R385, R386, R393): the event bit of the refusal, if any. -/
def targetRefusal (s : State) (n : Nat) (t : Int) : Option Nat :=
  let x := getAxis s n
  let soft := rdb s (axA n 0x40) 7
  let uni := rdb s (axA n 0x40) 4
  let neg := rdb s (axA n 0x40) 5
  let rest := restPos s n x
  let behind := (decide (0 < x.v) && decide (stepUnits t < rest)) || (decide (x.v < 0) && decide (rest < stepUnits t))
  let opposite := decide (x.v = 0) && (if neg then decide (x.p < stepUnits t) else decide (stepUnits t < x.p))
  if axMode s n ≠ 1 ∨ pgEn s (pgAx n) = false ∨ x.fault = true ∨ x.homing ≠ 0 then some 4
  else if soft = true ∧ (t < axSteps s n 0xA0 ∨ axSteps s n 0xA8 < t) then some 10
  else if towardLimit x (stepUnits t - x.p) then some 11
  else if uni = true ∧ (behind = true ∨ opposite = true) then some 9
  else none

/-- TARGET_WRITE (R37, R384, R385, R386, R393): a write of TARGET_HI. DEDUCED (log 57): the plan's first update is the
20th after the write, as for a write taken at an update. -/
def execTargetWrite (_rq : Requester) (axis : Nat) (hi : Word) (s : State) : Host.Outcome State Fault Refusal :=
  let n := axis % 16
  let a := axA n 0x64
  .next <| gated s a hi.toNat (fun s =>
    let t := signed 48 (heldLow s (a - 4) + 2 ^ 32 * (hi.toNat % 65536))
    match targetRefusal s n t with
    | some b => ev { s with held := tdel s.held (a - 4) } (pgAx n) b
    | none =>
      let s := store s a hi.toNat
      setAxis s n { getAxis s n with waiting := 20, atTarget := false })

/-- A command bit of AXn.CMD: refused while the page has no clock or the axis is off. -/
def axisCmd (s : State) (n bit : Nat) (act : State → State) : State :=
  gated s (axA n 0xD0) (2 ^ bit) (fun s => if pgEn s (pgAx n) then act s else refuse s (pgAx n))

/-- STOP (R387). -/
def execStop (_rq : Requester) (axis : Nat) (s : State) : Host.Outcome State Fault Refusal :=
  let n := axis % 16
  .next <| axisCmd s n 0 (fun s =>
    let x := ungear s n
    let x := { x with homing := 0, homeRev := false }
    if x.qstop then setAxis s n x else setAxis s n (planStop s n x))

/-- QSTOP (R387). -/
def execQstop (_rq : Requester) (axis : Nat) (s : State) : Host.Outcome State Fault Refusal :=
  let n := axis % 16
  .next <| axisCmd s n 1 (fun s => quickStop s n)

/-! ### Homing (R394 to R396) -/

/-- HOME (R394, R396). -/
def execHome (_rq : Requester) (axis : Nat) (s : State) : Host.Outcome State Fault Refusal :=
  let n := axis % 16
  .next <| axisCmd s n 2 (fun s =>
    let x := getAxis s n
    let limit := if homePos s n then x.limP else x.limN
    if x.geared ∨ homeMethod s n = 3 ∨ axMode s n ≠ 1 ∨ x.fault = true then refuse s (pgAx n)
    else if limit = true ∧ homeMethod s n ≠ 2 then ev s (pgAx n) 11
    else
      let x := { x with homed := false, homeRev := false, atTarget := false, p := if x.busy then x.p else x.cmd * 2 ^ 32 }
      if homeMethod s n ≠ 1 ∧ homeActive s n = true then
        let s := setAxis s n { planStop s n x with homing := 2 }
        if (getAxis s n).plan.isEmpty then planEnd s n else s
      else
        setAxis s n { cruise s n x (homePos s n) (if homeMethod s n = 1 then 0xBC else 0xB8) with homing := 1 })

/-- Shifts the coordinates of an axis (R394, R402). The counted position goes with them where the unit drives the ball. -/
def axisShift (s : State) (x : Axis) (d : Int) : Axis :=
  { x with act := x.act + d, cmd := x.cmd + d * 65536, p := x.p + stepUnits d, target := x.target + d, goal := x.goal + d,
           counted := if drivesShared s then x.counted + d else x.counted, p0 := x.p0 + d * 65536, pref := x.pref + d }

/-- The payload of a PIN input that shifts an axis. -/
def shiftPayload (n : Nat) (d : Int) : List Byte := leBytes 1 1 ++ leBytes 1 n ++ leBytes 8 (twos 64 d)

/-- An active unit of a pair forwards a shift as an input of kind PIN (R402). -/
def forwardShift (s : State) (n : Nat) (d : Int) : State :=
  if partnered s then
    let al := applyLine s (refBar s) none
    pairSendSeq (count s pgPair 3) 0x10 0 (inputBody 9 al.2 false al.1 (refBar s) (shiftPayload n d))
  else s

/-- The home is latched at an actual position; the axis then stops at rest (R394). -/
def homeLatch (s : State) (n : Nat) (edge : Int) : State :=
  let d := axSteps s n 0xC4 - edge
  let x := axisShift s (getAxis s n) d
  let s := forwardShift (setAxis s n x) n d
  let s := setAxis s n { planStop s n x with homing := 6 }
  if (getAxis s n).plan.isEmpty then planEnd s n else s

/-- A homing sequence aborts: quick stop, HOMING_FAIL and its fault (R395, R396). -/
def homingFail (s : State) (n code : Nat) : State :=
  fault (ev (quickStop s n) (pgAx n) 15) code 1 (pgAx n) noBar [n]

/-- HOME_INPUT (R394, R395). `stepsBack` steps were emitted since the edge at the pin. -/
def execHomeInput (axis : Nat) (active : Bool) (stepsBack : Nat) (s : State) : Host.Outcome State Fault Refusal :=
  let n := axis % 16
  let s := setAxis s n { getAxis s n with homeIn := active }
  let x := getAxis s n
  .next <|
    if x.homing = 0 ∨ homeMethod s n ≠ 0 then s
    else if x.homing = 1 ∧ active = true ∧ x.homeRev = false then setAxis s n { planStop s n x with homing := 2 }
    else if x.homing = 1 ∧ active = true then setAxis s n { x with homing := 7 }
    else if x.homing = 7 ∧ active = false then approach s n
    else if x.homing = 3 ∧ active = false then backOffSteps s n
    else if x.homing = 5 ∧ active = true then
      homeLatch s n (if homePos s n then x.act - stepsBack else x.act + stepsBack)
    else s

/-- An index of a channel ends the homing search of the axes that home on it (R394). -/
def indexHomes (s : State) (c : Nat) : State :=
  (List.range 16).foldl (fun s n =>
    if (getAxis s n).homing = 1 ∧ homeMethod s n = 1 ∧ axEnc s n = c then homeLatch s n (getAxis s n).act else s) s

/-- HOME_TIMEOUT (R396). -/
def execHomeTimeout (axis : Nat) (s : State) : Host.Outcome State Fault Refusal :=
  let n := axis % 16
  .next <| if (getAxis s n).homing = 0 then s else homingFail s n 0x0B04

/-! ### Limits (R392, R393, R395) -/

/-- The debounced limit flag of a direction. -/
def limitOf (x : Axis) (positive : Bool) : Bool := if positive then x.limP else x.limN
def setLimit (x : Axis) (positive on : Bool) : Axis := if positive then { x with limP := on } else { x with limN := on }

/-- Steps emitted since the edge at a pin whose filter has just accepted it: those of the last 1 us (R392, R394). -/
def stepsSinceEdge (s : State) (x : Axis) : Nat := (x.stepHist.filter (fun t => decide (ptTotalNs s < t + 1000))).length

/-- What an asserted limit does during homing (R394, R395): the limit in the home direction of the LIMIT method is no
trip. -/
def limitHoming (s : State) (n : Nat) (positive : Bool) : State :=
  let x := getAxis s n
  let home := homeMethod s n == 2 && positive == homePos s n
  let back := stepsSinceEdge s x
  if home then
    (if x.homing = 1 then setAxis s n { planStop s n x with homing := 2 }
     else if x.homing = 5 then homeLatch s n (if homePos s n then x.act - back else x.act + back)
     else s)
  else if x.homing = 1 ∧ x.homeRev = false ∧ positive = homePos s n then
    let s := setAxis s n { planStop s n x with homing := 8 }
    if (getAxis s n).plan.isEmpty then planEnd s n else s
  else homingFail s n 0x0B03

/-- LIMIT_ASSERT (R392 to R395). A return to active while the limit is still asserted is chatter. -/
def execLimitAssert (axis : Nat) (positive : Bool) (s : State) : Host.Outcome State Fault Refusal :=
  let n := axis % 16
  let x := getAxis s n
  .next <|
    if limitOf x positive then ev (count s (pgAx n) 4) (pgAx n) 12
    else
      let s := count (setAxis s n (setLimit x positive true)) (pgAx n) 3
      if x.homing ≠ 0 then limitHoming s n positive
      else if x.busy || x.geared then
        fault (ev (quickStop s n) (pgAx n) 11) 0x0B02 1 (pgAx n) noBar [n]
      else s

/-- LIMIT_RELEASE (R392, R394): inactive for LIM_DEB. -/
def execLimitRelease (axis : Nat) (positive : Bool) (s : State) : Host.Outcome State Fault Refusal :=
  let n := axis % 16
  let x := getAxis s n
  let s := setAxis s n (setLimit x positive false)
  .next <| if x.homing = 3 ∧ homeMethod s n = 2 ∧ positive = homePos s n then backOffSteps s n else s

/-! ### Gearing (R388 to R390) -/

/-- CMD_POS of a geared axis for a master position (R388). -/
def gearedCmd (p0 m0 ratio m : Int) : Int := p0 + roundHalfUp (ratio * (m - m0)) (2 ^ 32)

/-- A master event of channel c: every axis geared to it takes its new position (R382, R388). -/
def masterEvent (s : State) (c : Nat) : State :=
  let ch := getChan s c
  (List.range 16).foldl (fun s n =>
    let x := getAxis s n
    if x.geared ∧ axMaster s n = c then
      let t := match x.lastM with
        | some e => min 1000000 (((ch.latchT + 2 ^ 48 - e.2 % 2 ^ 48) % 2 ^ 48) / 256)
        | none => 1000000
      sourceEvent (setAxis s n { x with cmd := gearedCmd x.p0 x.m0 (axRatio s n) ch.pos,
                                        lastM := some (ch.pos, ch.latchT) }) n t
    else s) s

/-- ENGAGE (R388, R391). -/
def execEngage (_rq : Requester) (axis : Nat) (s : State) : Host.Outcome State Fault Refusal :=
  let n := axis % 16
  .next <| axisCmd s n 3 (fun s =>
    let x := getAxis s n
    let c := axMaster s n
    if (axMode s n ≠ 2 ∧ axMode s n ≠ 3) ∨ x.busy = true ∧ x.geared = false ∨ posMode s c = 0 ∨ x.limP = true ∨
        x.limN = true ∨ x.fault = true then refuse s (pgAx n)
    else
      setAxis s n (latchRef s n { x with geared := true, m0 := (getChan s c).pos, p0 := x.cmd, atTarget := false,
                                         lastM := some ((getChan s c).pos, (getChan s c).latchT) }))

/-- DISENGAGE (R388). -/
def execDisengage (_rq : Requester) (axis : Nat) (s : State) : Host.Outcome State Fault Refusal :=
  let n := axis % 16
  .next <| axisCmd s n 4 (fun s => if (getAxis s n).geared then setAxis s n (planStop s n (ungear s n)) else s)

/-- SET_POS (R391, R402): the position becomes HOME_OFS, at rest only. -/
def execSetPos (_rq : Requester) (axis : Nat) (s : State) : Host.Outcome State Fault Refusal :=
  let n := axis % 16
  .next <| axisCmd s n 5 (fun s =>
    let x := getAxis s n
    if x.busy || x.geared || x.homing != 0 then refuse s (pgAx n)
    else
      let d := axSteps s n 0xC4 - x.act
      let y := axisShift s x d
      let y := { y with cmd := y.act * 65536, p := stepUnits y.act, target := y.act, goal := y.act }
      forwardShift (setAxis s n (latchRef s n y)) n d)

/-- AXIS_CLR_FAULT (R391): clears STALLED; STATE 6 returns to 1. -/
def execAxisClrFault (_rq : Requester) (axis : Nat) (s : State) : Host.Outcome State Fault Refusal :=
  let n := axis % 16
  .next <| axisCmd s n 6 (fun s => setAxis s n { getAxis s n with stalled := false, fault := false })

/-- The pending ratio becomes the ratio. -/
def takeRatio (s : State) (n : Nat) : State := wr64 s (axA n 0x78) (rd64 s (axA n 0x80))

/-- The pending ratio applies at master position `mp`, with RATIO_APPLIED (R389, R390). -/
def applyRatio (s : State) (n : Nat) (mp : Int) : State :=
  let x := getAxis s n
  let p0 := gearedCmd x.p0 x.m0 (axRatio s n) mp
  let s := takeRatio s n
  let m := (getChan s (axMaster s n)).pos
  let x := if x.geared then { x with p0 := p0, m0 := mp, cmd := gearedCmd p0 mp (axRatio s n) m } else x
  let s := ev (count (setAxis s n { x with pend := false }) (pgAx n) 7) (pgAx n) 16
  let y := getAxis s n
  setAxis s n (schedule s y (y.cmdSteps - y.act))

/-- PEND_ARM (R37, R389, R390): a write of PEND_POS_HI. -/
def execPendArm (_rq : Requester) (axis : Nat) (hi : Word) (s : State) : Host.Outcome State Fault Refusal :=
  let n := axis % 16
  let a := axA n 0x8C
  .next <| gated s a hi.toNat (fun s =>
    let s := store s a hi.toNat
    let mp := signed 64 (rd64 s (a - 4))
    let ch := getChan s (axMaster s n)
    let late := if ch.reverse then decide (ch.pos ≤ mp) else decide (mp ≤ ch.pos)
    if late then applyRatio (ev (setAxis s n { getAxis s n with mp := ch.pos }) (pgAx n) 17) n ch.pos
    else setAxis s n { getAxis s n with pend := true, mp := mp, pendBelow := decide (ch.pos < mp) })

/-- RATIO_APPLY (R389): the master has reached or passed MP from the side of the arm. -/
def execRatioApply (axis : Nat) (s : State) : Host.Outcome State Fault Refusal :=
  let n := axis % 16
  let x := getAxis s n
  let m := (getChan s (axMaster s n)).pos
  .next <| if x.pend && (if x.pendBelow then decide (x.mp ≤ m) else decide (m ≤ x.mp)) then applyRatio s n x.mp else s

/-! ### Stall detection and shared pulses (R371, R391) -/

/-- STALL (R391): the deviation has exceeded STALL_WIN for STALL_TIME. With STALL_ACT = 0 the steps still owed are discarded:
the commanded position becomes the emitted one. -/
def execStall (axis : Nat) (s : State) : Host.Outcome State Fault Refusal :=
  let n := axis % 16
  .next <|
    if rdb s (axA n 0x40) 15 && decide (rdf s (axA n 0x94) 15 0 < (axDev s n).natAbs) && !(getAxis s n).stalled then
      let x := getAxis s n
      let stop := !rdb s (axA n 0x40) 6
      let x := { x with stalled := true }
      let x := if stop then { x with plan := [], waiting := 0, qstop := false, geared := false, pend := false, sched := 0,
                                     v := 0, a := 0, p := stepUnits x.act, cmd := x.act * 65536, homing := 0,
                                     stopping := false, fault := true } else x
      let s := ev (count (setAxis s n x) (pgAx n) 5) (pgAx n) 13
      fault s 0x0B01 1 (pgAx n) noBar [n]
    else s

/-- SHARED_STEP_PULSE (R371): a unit that does not drive the balls counts their pulses. -/
def execSharedStepPulse (axis : Nat) (dir : Bool) (s : State) : Host.Outcome State Fault Refusal :=
  let n := axis % 16
  let x := getAxis s n
  let positive := dir != rdb s (axA n 0x40) 3
  .next <| if drivesShared s then s
    else setAxis s n { x with counted := if positive then x.counted + 1 else x.counted - 1 }

/-- At takeover each generator resumes from the counted position (R371, R402). -/
def resumeAxes (s : State) : State :=
  (List.range 16).foldl (fun s n =>
    let x := getAxis s n
    setAxis s n (schedule s { x with act := x.counted } (x.cmdSteps - x.counted))) s

end Sys2Proof.Machine
end

