-- ==== Sys2Proof/Machine/Compare.lean ====
section
/-! DEFINITION. Claims of resources (R49 to R51) and compare units (13): arming, values that are behind, firing, repeat,
the TRIG pulse, and the strobes that a firing gives to camera contexts (R283). -/

namespace Sys2Proof.Machine

open Sys2Proof

/-! ### Claims -/

/-- A claim refused: LAST_REFUSED, and CONFLICT on the PIN page and on the claimant's page (R50). -/
def conflict (s : State) (a code page : Nat) : State :=
  ev (ev (wrf s a 11 8 code) pgPin 5) (headerOf page) 5

/-- A claim succeeds on a FREE resource and has no effect on one that the claimant owns (R49, R50). -/
def claimable (s : State) (a code : Nat) : Bool := rdf s a 3 0 == 0 || rdf s a 3 0 == code

/-- Claims a resource that is claimable and marks it in use (R49). -/
def claimRes (s : State) (a code : Nat) : State := wrf (wrf s a 3 0 code) a 31 31 1

/-- PIN.OWN_CMPk and PIN.OWN_ENCn, n = 4 to 7. -/
def ownCmp (k : Nat) : Nat := ra pgPin (0x80 + 4 * k)
def ownEnc (n : Nat) : Nat := ra pgPin (0x40 + 4 * (n - 4))

/-! ### Compare units (R397 to R401) -/

def cmpA (k o : Nat) : Nat := ra pgCmp (0x40 + 0x20 * k + o)
def cmpCfg (s : State) (k : Nat) : Nat := rd s (cmpA k 0)
def cmpMode (s : State) (k : Nat) : Nat := field (cmpCfg s k) 29 28
def cmpSrc (s : State) (k : Nat) : Nat := field (cmpCfg s k) 23 20
def cmpOnAxis (s : State) (k : Nat) : Bool := bitOf (cmpCfg s k) 25
def cmpPeriod (s : State) (k : Nat) : Nat := rd64 s (cmpA k 0x10)

/-- The integer position that a unit watches, in 2^-16 counts (R397). -/
def cmpPos (s : State) (k : Nat) : Int :=
  if cmpOnAxis s k then (getAxis s (cmpSrc s k)).act * 65536
  else (getChan s (cmpSrc s k % 8)).pos / 65536 * 65536

/-- The source is OFF or disabled: arming is refused (R397). -/
def cmpSrcOff (s : State) (k : Nat) : Bool :=
  if cmpOnAxis s k then axMode s (cmpSrc s k) == 0 || !pgEn s (pgAx (cmpSrc s k))
  else posMode s (cmpSrc s k % 8) == 0

/-- The direction that an arm fixes: true for negative (R397). -/
def cmpNeg (s : State) (k : Nat) : Bool :=
  let sel := field (cmpCfg s k) 27 26
  if sel = 1 then false
  else if sel = 2 then true
  else if cmpOnAxis s k then (getAxis s (cmpSrc s k)).lastNeg
  else (getChan s (cmpSrc s k % 8)).reverse

/-- d × (p − V) ≥ 0 (R397, R398). -/
def cmpReached (s : State) (k : Nat) (neg : Bool) (v : Int) : Bool :=
  if neg then decide (cmpPos s k ≤ v) else decide (v ≤ cmpPos s k)

/-- STATk follows the unit. -/
def cmpShow (s : State) (k : Nat) : State :=
  let c := getCmp s k
  wr s (cmpA k 0x18) (b2n c.armed + 2 * b2n (rdb s (ra pgCmp 0x544) k) + 4 * b2n (rdb s (ra pgCmp 0x540) k) + 8 * b2n c.neg)

/-- A strobe of a compare unit joins the waiting lists of its contexts, of two strobes each (R283). -/
def strobe (s : State) (k : Nat) (v : Int) : State :=
  (List.range 8).foldl (fun s x =>
    let src := rd s (ra pgIsp (0x100 + 0x40 * x))
    if bitOf src 31 && bitOf src 30 && field src 28 24 == k then
      let c := getCtx s x
      if c.strobes.length < 2 then setCtx s x { c with strobes := c.strobes ++ [v] }
      else count (setCtx s x { c with strobes := c.strobes.drop 1 ++ [v] }) pgIsp (4 * x + 1)
    else s) s

/-- The latch time of the last source event (R158, R400); a step is its own event. -/
def cmpLatch (s : State) (k : Nat) : Nat :=
  if cmpOnAxis s k then fireNow s else (getChan s (cmpSrc s k % 8)).latchT

/-- A firing (R400): FIRED, FIRE_T, the pulse on TRIG OUT that only a unit driving its shared outputs makes (R370), and
the strobe of the contexts that own the unit. -/
def cmpPulse (s : State) (k : Nat) (v : Int) : State :=
  let cfg := cmpCfg s k
  let s := wr s (ra pgCmp 0x540) (rd s (ra pgCmp 0x540) ||| 2 ^ k)
  let s := ev (count (wr64 s (ra pgCmp (0x440 + 8 * k)) (cmpLatch s k)) pgCmp k) pgCmp 8
  let s := if bitOf cfg 8 && drivesShared s then
      send s (.trig (field cfg 3 0) (bitOf cfg 9) (10 * rdf s (cmpA k 4) 15 0)) else s
  strobe s k v

/-- The value after a firing in REPEAT mode, and the periods skipped (R399). -/
def cmpNext (s : State) (k : Nat) (neg : Bool) (v : Int) : Int × Nat :=
  let p : Int := cmpPeriod s k
  let beyond : Int := if neg then v - cmpPos s k else cmpPos s k - v
  let n := (beyond / p).toNat + 1
  (if neg then v - n * p else v + n * p, n - 1)

/-- A unit fires, and then disarms, or arms again in REPEAT mode (R397, R399). -/
def cmpFire (s : State) (k : Nat) : State :=
  let c := getCmp s k
  let s := cmpPulse s k c.value
  if cmpMode s k = 1 then
    let nx := cmpNext s k c.neg c.value
    let s := setCmp s k { c with armed := true, value := nx.1, passed := false }
    let s := wr64 s (cmpA k 8) (twos 64 nx.1)
    cmpShow (if nx.2 = 0 then s else ev (countN s pgCmp 32 nx.2) pgCmp 10) k
  else cmpShow (setCmp s k { c with armed := false }) k

/-- Arms a unit with a value in a direction (R397); a value that is behind is passed, and fires with LATE_FIRE (R398). -/
def cmpArmDir (s : State) (k : Nat) (neg : Bool) (v : Int) : State :=
  if cmpSrcOff s k then refuse s pgCmp
  else if cmpReached s k neg v then
    let s := setCmp s k { armed := false, neg := neg, value := v, passed := true }
    let s := ev (wr s (ra pgCmp 0x544) (rd s (ra pgCmp 0x544) ||| 2 ^ k)) pgCmp 9
    if bitOf (cmpCfg s k) 30 then cmpFire s k else cmpShow s k
  else cmpShow (setCmp s k { armed := true, neg := neg, value := v, passed := false }) k

/-- Arms a unit in the direction that its DIRSEL selects. -/
def cmpArm (s : State) (k : Nat) (v : Int) : State := cmpArmDir s k (cmpNeg s k) v

/-- A compare unit is enabled on an enabled page. -/
def cmpOn (s : State) (k : Nat) : Bool := pgEn s pgCmp && bitOf (cmpCfg s k) 31

/-- At a mark accepted for a bar, the units of MODE MARK on that bar arm forward with V = S_b + VAL on its line-start
channel (R401). -/
def armMarks (s : State) (b : Nat) (sb : Int) : State :=
  (List.range 32).foldl (fun s k =>
    if cmpOn s k && cmpMode s k == 2 && field (cmpCfg s k) 18 16 == b then
      let s := wrf (wrf s (cmpA k 0) 25 25 0) (cmpA k 0) 23 20 (lineChan s b)
      cmpArmDir s k false (sb + signed 64 (rd64 s (cmpA k 8)))
    else s) s

/-- A host requester may not write CFG, VAL and PERIOD of a unit owned by STROBE or MARK_OUT (R401). -/
def cmpHeld (s : State) (rq : Requester) (k : Nat) : Bool := !isCore rq && decide (2 ≤ rdf s (ownCmp k) 3 0)

/-- COMPARE_ARM (R37, R397, R398, R401): a write of VALk_HI. The value of a unit that is not enabled is kept only. -/
def execCompareArm (rq : Requester) (unit : Nat) (hi : Word) (s : State) : Host.Outcome State Fault Refusal :=
  let k := unit % 32
  .next (refuseIf (cmpHeld s rq k) s (cmpA k 0xC) hi.toNat (fun s =>
    let s := store s (cmpA k 0xC) hi.toNat
    if cmpOn s k && cmpMode s k != 2 then cmpArm s k (signed 64 (rd64 s (cmpA k 8))) else s))

/-- COMPARE_FIRE (R397, R399, R400): the source has reached the value of an armed unit. -/
def execCompareFire (unit : Nat) (s : State) : Host.Outcome State Fault Refusal :=
  let k := unit % 32
  let c := getCmp s k
  .next (if c.armed && cmpReached s k c.neg c.value then cmpFire s k else s)

end Sys2Proof.Machine
end

