-- ==== Sys2Proof/Machine/Dram.lean ====
section
/-! DEFINITION. The image memory controller (05): the address map, read and write queues with their hazards, the
scheduler, refresh, hot state, retraining and the derating rule. -/

namespace Sys2Proof.Machine

open Sys2Proof

/-- Channel, sub-channel within it, and the sub-channel number of R136, of an address (R126). -/
def chanOf (a : Nat) : Nat := field a 10 9
def subOf (a : Nat) : Nat := 2 * field a 10 9 + field a 8 8

/-- Bank (bank group in the low two bits) and row of an address (R126). -/
def bankOf (s : State) (a : Nat) : Nat := if density_ s = 0 then field a 17 15 else field a 18 15
def rowOf (s : State) (a : Nat) : Nat := if density_ s = 0 then field a 33 18 else a / 2 ^ 19

/-- Burst column of an address (R126). -/
def colOf (a : Nat) : Nat := 4 * field a 14 11 + field a 7 6

/-- A DRAM command of a sub-channel without an address, and one at an address. -/
def dramCmd (s : State) (k kind : Nat) : State := send s (.dram k kind 0 0 0)
def dramAt (s : State) (k kind a : Nat) : State := send s (.dram k kind (bankOf s a) (rowOf s a) (colOf a))

/-- Start of the training area, the highest row of every bank (R127). -/
def trainBase (s : State) : Nat := installed s - (if density_ s = 0 then 2 ^ 18 else 2 ^ 19)

/-- Training of sub-channel k writes the training area only (R127). The manual gives no pattern: the first burst of the
sub-channel there takes a free value. -/
def trainArea (s : State) (k : Nat) : State :=
  let (v, s) := drawFree s 512
  { s with dram := { s.dram with mem := memWrite s.dram.mem (trainBase s + 256 * k) (leBytes 64 v) } }

/-- DRCn.STAT state of sub-channel k: 1 serving. -/
def subState (s : State) (k : Nat) : Nat := rdf s (ra (pgDrc (k / 2)) 0x40) (4 * (k % 2) + 3) (4 * (k % 2))

/-- Sets DRCn.STAT state of sub-channel k. -/
def setSubState (s : State) (k v : Nat) : State :=
  setSub (wrf s (ra (pgDrc (k / 2)) 0x40) (4 * (k % 2) + 3) (4 * (k % 2)) v) k { getSub s k with state := v }

/-- DRG.FREQ.BUSY. -/
def freqBusy (s : State) : Bool := rdb s (ra pgDrg 0x44) 9

/-- Timing set in use and its refresh timing. -/
def activeSet (s : State) : Nat := rdf s (ra pgDrg 0x40) 9 8
def setRate (k : Nat) : Nat := if k = 0 then 4800 else if k = 1 then 3200 else 1600

/-- DRG.HOT_STAT of any sub-channel. -/
def anyHot (s : State) : Bool := (List.range 8).any (fun k => (getSub s k).hot)

/-- DRG.USABLE of R144, in 0.1 GB/s; times in 1/4 ns so that 400 / 64 is exact. -/
def usableOf (s : State) (hot : Bool) : Nat :=
  let k := activeSet s
  let w := rd s (ra (pgDrc 0) (0x50 + 0x10 * k))
  let trefi := if hot then field w 11 0 * 2 else field w 11 0 * 4
  let avail := trefi - field w 27 16 * 4 - 25
  4 * 8 * setRate k / 100 * avail * 7 / (8 * trefi)

/-- The controller derates: a sub-channel is hot or a timing set other than 0 is active (R145). -/
def derating (s : State) : Bool := anyHot s || activeSet s != 0

/-- USABLE and the derating status follow the hot state and the timing set (R138, R144, R145). -/
def syncDram (s : State) : State :=
  let s := wr s (ra pgDrg 0x60) (usableOf s (anyHot s))
  let hots := ((List.range 8).map (fun k => b2n (getSub s k).hot * 2 ^ k)).sum
  let s := wr s (ra pgDrg 0x70) (hots + 256 * b2n (derating s))
  if derating s then s
  else
    let s := wr (wr s (ra pgDrg 0x64) 0xFFF) (ra pgDrg 0x68) 0xFFFFF
    slowSync { s with dram := { s.dram with limited := false, slow := false } }

/-- SLOW_ON_HOT with SPEED_ADV below the web speed asserts SLOW_REQ (R146). -/
def syncSlow (s : State) : State :=
  slowSync { s with dram := { s.dram with slow := s.dram.limited && rdb s (ra pgDrg 0x40) 15 } }

/-- Both hot conditions of a sub-channel (R137). -/
def hotCond (d : DramSub) : Bool := d.hotMr4 || d.hotTs

/-- A sub-channel becomes hot at once, and normal only at the end of its hold (R137, R138). -/
def makeHot (s : State) (k : Nat) : State :=
  let d := getSub s k
  if hotCond d && !d.hot then
    let first := !anyHot s
    let s := setSub s k { d with hot := true }
    let s := wrf s (ra (pgDrc (k / 2)) 0x40) (8 + k % 2) (8 + k % 2) 1
    let s := if first then ev s pgDrg 9 else s
    syncDram s
  else s

/-- MR4_READ (R137, R138). -/
def execMr4Read (sub : Nat) (double0 double1 : Bool) (s : State) : Host.Outcome State Fault Refusal :=
  let k := sub % 8
  .next (makeHot (setSub s k { getSub s k with hotMr4 := double0 || double1 }) k)

/-- HOT_HOLD_EXPIRY (R137, R138): both conditions have been false for 100 ms. -/
def execHotHoldExpiry (sub : Nat) (s : State) : Host.Outcome State Fault Refusal :=
  let k := sub % 8
  let d := getSub s k
  .next <|
    if d.hot && !hotCond d then
      let s := setSub s k { d with hot := false }
      let s := wrf s (ra (pgDrc (k / 2)) 0x40) (8 + k % 2) (8 + k % 2) 0
      let s := if anyHot s then s else ev s pgDrg 10
      syncDram s
    else s

/-- The remote sensor of HOT_CFG has been measured (R137). -/
def dramSensor (s : State) (sensor : Nat) (value : Int) (good : Bool) : State :=
  if rdb s (ra pgDrg 0x6C) 19 && rdf s (ra pgDrg 0x6C) 18 16 + 16 == sensor && good then
    let hot := decide (signed 16 (rdf s (ra pgDrg 0x6C) 15 0) < value)
    (List.range 8).foldl (fun s k => makeHot (setSub s k { getSub s k with hotTs := hot }) k) s
  else s

/-- A write of HOT_CFG: the condition follows the last reading of the sensor that it names; without one it is false (R137). -/
def hotCfgChanged (s : State) : State :=
  let n := rdf s (ra pgDrg 0x6C) 18 16 + 16
  let x := tget (fun _ => {}) s.power.sensors n
  let hot := rdb s (ra pgDrg 0x6C) 19 && x.last.isSome && decide (signed 16 (rdf s (ra pgDrg 0x6C) 15 0) < x.value)
  (List.range 8).foldl (fun s k => makeHot (setSub s k { getSub s k with hotTs := hot }) k) s

/-- REFRESH (R129, R136, R139): an all-bank refresh closes every row; every 64th is followed by a retraining step. -/
def execRefresh (sub : Nat) (s : State) : Host.Outcome State Fault Refusal :=
  let k := sub % 8
  .next <|
    if subState s k ≠ 1 then s
    else
      let d := getSub s k
      let n := d.refreshes + 1
      let s := count (dramCmd s k 0) (pgDrc (k / 2)) 6
      setSub s k { d with refreshes := n, openRows := [], streak := 0,
                          retrainDue := d.retrainDue || (n % 64 == 0 && rdb s (ra pgDrg 0x74) 0) }

/-- Centre of the read or (`write`) write eye of a byte lane, from its two edges (R139). -/
def eyeCentre (d : DramSub) (lane : Nat) (write : Bool) : Int :=
  let k := 4 * lane + 2 * b2n write
  (tget (fun _ => 0) d.edges k + tget (fun _ => 0) d.edges (k + 1)) / 2

/-- The margin of a byte lane at the end of a sweep is shown, and recorded when it is low (R140). -/
def judgeMargin (s : State) (k lane m : Nat) : State :=
  let p := pgDrc (k / 2)
  let l := 4 * (k % 2) + lane
  let s := wrf s (ra p 0x44) (4 * l + 3) (4 * l) m
  if m < rdf s (ra p 0x48) 3 0 then fault (ev s pgDrg 12) 0x0403 1 p noBar [k, lane, m] else s

/-- A byte lane has no margin left (R140). -/
def judgeEye (s : State) (k lane m : Nat) : State :=
  if m = 0 then fault s 0x0404 3 (pgDrc (k / 2)) noBar [k, lane, m] else s

/-- The margins of the four byte lanes are judged; the records of one tick follow their codes (R484). -/
def judgeSweep (s : State) (k : Nat) (ms : List Nat) : State :=
  let each (f : State → Nat → Nat → Nat → State) (s : State) : State :=
    (List.range 4).foldl (fun s i => f s k i ((ms[i]?).getD 15)) s
  each judgeEye (each judgeMargin s)

/-- RETRAIN_STEP (R127, R139, R140): one delay edge of one byte lane is probed in the training area and moves by at most one
tap; the 192nd step ends a sweep with the margins of the four lanes. DESIGN CHOICE (log 45): which edge a step probes, and
the margins it finds, come with the command. -/
def execRetrainStep (sub edge : Nat) (move : Int) (margins : List Nat) (s : State) : Host.Outcome State Fault Refusal :=
  let k := sub % 8
  let d := getSub s k
  .next <|
    if subState s k ≠ 1 ∨ d.retrainDue = false then s
    else
      let e := edge % 16
      let tap := max (-1) (min 1 move)
      let ms := (List.range 4).map (fun i => min 15 ((margins[i]?).getD 15))
      let last := decide (d.sweep + 1 = 192)
      let s := trainArea (count (dramCmd s k 3) (pgDrc (k / 2)) 7) k
      let s := setSub s k { d with retrainDue := false, sweep := if last then 0 else d.sweep + 1,
                                   edges := tset d.edges e (tget (fun _ => 0) d.edges e + tap) }
      if last then judgeSweep s k ms else s

/-! ### Tile descriptors in image memory (R101, R102) -/

/-- Start of the descriptor table. -/
def descTable (s : State) : Nat := cmf s (ra pgFirn 0x50) 17 0 * 2 ^ 20

/-- The k-th plane of a job's mask, from 0. -/
def Job.planeAt (j : Job) (k : Nat) : Nat := (((List.range 8).filter (fun b => bitOf j.mask b))[k]?).getD 0

/-- Descriptors of a job (R102). -/
def Job.descs (j : Job) : Nat := j.planes * j.across * j.descRows

/-- The tile that descriptor `i` of the table describes: index base + ((y mod R) x P + k) x X + x (R102, R103). -/
def descTile (s : State) (i : Nat) : Option Tile :=
  match s.print.jobs.find? (fun j => decide (j.descBase ≤ i) && decide (i < j.descBase + j.descs)) with
  | none => none
  | some j =>
    let d := i - j.descBase
    let row := d / j.across / j.planes
    let y := j.ringBase + (row + j.descRows - j.ringBase % j.descRows) % j.descRows
    findTile s j.number (j.planeAt (d / j.across % j.planes)) (d % j.across) y

/-- FLAGS of a descriptor. -/
def Tile.flags (t : Tile) : Nat := b2n t.storedFmt + 2 * b2n t.pinned + 4 * b2n t.refrozen + 8 * b2n t.recovered

/-- The 64 bytes of a descriptor (04). DESIGN CHOICE (log 42): that of an ABSENT tile holds zeros. -/
def descBytes (t : Tile) : List Byte :=
  if t.state = 0 then zeroBytes 64
  else padTo 64 (leBytes 1 t.state ++ leBytes 1 t.flags ++ leBytes 1 t.plane ++ leBytes 1 t.x ++ leBytes 4 t.job ++
    leBytes 8 t.y ++ leBytes 4 t.gran ++ leBytes 2 t.compLen ++ leBytes 2 t.size ++ leBytes 4 t.storeCrc ++
    leBytes 4 t.contentCrc ++ leBytes 4 (t.slot - 1) ++ leBytes 4 t.storageCrc ++ leBytes 1 t.lastErr)

/-- The 64 bytes that a read of a block of image memory returns. The descriptor table is held as tiles, and shows their
descriptors; DESIGN CHOICE (log 42): what other sources write there changes no tile. -/
def blockBytes (s : State) (a : Nat) : List Byte :=
  if descTable s ≤ a ∧ a < descTable s + 64 * cmf s (ra pgFirn 0x54) 21 0 then
    (match descTile s ((a - descTable s) / 64) with
     | some t => descBytes t
     | none => zeroBytes 64)
  else memRead s.dram.mem a 64

/-! ### Queues (R128, R130 to R135) -/

/-- The queued write of a 64 B block. -/
def queuedWrite (c : DramChan) (a : Nat) : Option DramWr := c.writes.find? (fun w => w.addr / 64 == a / 64)

/-- Bytes of a queued write over what memory holds. -/
def mergeBytes (old new : List (Option Byte)) : List (Option Byte) :=
  (List.range 64).map (fun i => match (new[i]?).join with
    | some b => some b
    | none => (old[i]?).join)

/-- Writes the enabled bytes of a block. -/
def writeBlock (m : List Host.Cell) (a : Nat) : List (Option Byte) → List Host.Cell
  | [] => m
  | some b :: r => writeBlock (memSet m a b) (a + 1) r
  | none :: r => writeBlock m (a + 1) r

/-- An access beyond the installed memory, which R126 does not map. -/
def outside (s : State) (a : Nat) : Bool := decide (installed s ≤ a)

/-- Counts bytes read for a class. -/
def countRead (s : State) (a cls : Nat) : State := countN s (pgDrc (chanOf a)) (min cls 4) 64

/-- A read enters its channel (R134, R135): from memory, from the write queue, or held behind a partial write. -/
def enterRead (s : State) (c a cls : Nat) : State :=
  let ch := getDram s c
  let r : DramReq := { id := s.dram.nextId, addr := a, cls := cls, promoted := false, held := false }
  let s := { s with dram := { s.dram with nextId := s.dram.nextId + 1 } }
  match queuedWrite ch a with
  | none => setDram s c { ch with reads := ch.reads ++ [r] }
  | some w =>
    if w.bytes.all (fun b => b.isSome) then
      let s := countRead (count s (pgDrc c) 8) a cls
      { s with dram := { s.dram with lastRead := w.bytes.map (fun b => b.getD 0#8) } }
    else setDram (count s (pgDrc c) 9) c { ch with reads := ch.reads ++ [{ r with held := true }] }

/-- A write enters the write queue or merges into the entry of its block (R131, R133). -/
def enterWrite (s : State) (c a cls : Nat) (bs : List (Option Byte)) : State :=
  let ch := getDram s c
  match queuedWrite ch a with
  | some w =>
    setDram s c { ch with writes := ch.writes.map (fun v =>
      if v.id = w.id then { v with bytes := mergeBytes v.bytes bs } else v) }
  | none =>
    let w : DramWr := { id := s.dram.nextId, addr := a, cls := cls, promoted := false, bytes := bs }
    let s := { s with dram := { s.dram with nextId := s.dram.nextId + 1 } }
    let ws := ch.writes ++ [w]
    setDram s c { ch with writes := ws, drain := ch.drain || decide (48 ≤ ws.length) }

/-- A waiting request finds room in its channel: 128 reads, or 64 writes where none merges (R128). -/
def hasRoom (s : State) (c : Nat) (o : DramOffer) : Bool :=
  match o.bytes with
  | none => decide ((getDram s c).reads.length < 128)
  | some _ => (queuedWrite (getDram s c) o.addr).isSome || decide ((getDram s c).writes.length < 64)

/-- Waiting requests enter a channel while it has room, oldest first; one that still waits holds back the later ones of its
class. DESIGN CHOICE (log 46): the sources of one class wait in one line. -/
def enterWaiting (s : State) (c : Nat) : State :=
  if freqBusy s then s
  else
    let x := (getDram s c).offers.foldl (fun (x : State × List DramOffer) o =>
      if x.2.any (fun w => w.cls == o.cls) || !hasRoom x.1 c o then (x.1, x.2 ++ [o])
      else match o.bytes with
        | none => (enterRead x.1 c o.addr o.cls, x.2)
        | some bs => (enterWrite x.1 c o.addr o.cls bs, x.2)) (s, [])
    setDram x.1 c { getDram x.1 c with offers := x.2 }

/-- A source offers a request of one block; a full queue or a frequency change makes it wait (R128, R141). -/
def offer (s : State) (a cls : Nat) (bytes : Option (List (Option Byte))) : State :=
  let c := chanOf a
  let ch := getDram s c
  enterWaiting (setDram s c { ch with offers := ch.offers ++ [{ addr := a, cls := min cls 4, bytes := bytes }] }) c

/-- DRAM_READ (R128, R134, R135): a request of 64 B is offered to its channel. -/
def execDramRead (addr cls : Nat) (s : State) : Host.Outcome State Fault Refusal :=
  let a := addr / 64 * 64
  if outside s a then .fault (.outsideImageMemory a) else .next (offer s a cls none)

/-- DRAM_WRITE (R128, R131, R133): bytes of a 64 B block are offered to its channel. -/
def execDramWrite (addr cls : Nat) (bytes : List (Option Byte)) (s : State) : Host.Outcome State Fault Refusal :=
  let a := addr / 64 * 64
  if outside s a then .fault (.outsideImageMemory a) else .next (offer s a cls (some (mergeBytes [] bytes)))

/-- AGE_PROMOTION (R130): a request of class C1 to C4 reaches its age limit. -/
def execAgePromotion (channel request : Nat) (s : State) : Host.Outcome State Fault Refusal :=
  let c := channel % 4
  let ch := getDram s c
  let hitR (r : DramReq) : Bool := r.id == request && r.cls != 0 && !r.promoted
  let hitW (w : DramWr) : Bool := w.id == request && w.cls != 0 && !w.promoted
  .next <|
    if ch.reads.any hitR || ch.writes.any hitW then
      setDram (count s (pgDrc c) 10) c { ch with
        reads := ch.reads.map (fun r => if hitR r then { r with promoted := true } else r),
        writes := ch.writes.map (fun w => if hitW w then { w with promoted := true } else w) }
    else s

/-- A request that a scheduler may choose: rank, row hit, id, and whether it is a write. -/
structure Cand where
  rank : Nat
  hit : Bool
  id : Nat
  write : Bool
deriving DecidableEq, Repr

/-- The row of an address is open. -/
def rowHit (s : State) (k a : Nat) : Bool :=
  (getSub s k).openRows.any (fun e => e.1 == bankOf s a && e.2 == rowOf s a)

/-- The requests of a sub-channel. In write drain every write ranks between C0 reads and the other reads (R131). -/
def candidates (s : State) (k : Nat) : List Cand :=
  let ch := getDram s (k / 2)
  let rank (cls : Nat) (pro : Bool) : Nat := if pro || cls == 0 then 0 else cls + 1
  (ch.reads.filter (fun r => subOf r.addr == k && !r.held)).map (fun r =>
      { rank := rank r.cls r.promoted, hit := rowHit s k r.addr, id := r.id, write := false }) ++
    (ch.writes.filter (fun w => subOf w.addr == k)).map (fun w =>
      { rank := if ch.drain then 1 else rank w.cls w.promoted, hit := rowHit s k w.addr, id := w.id, write := true })

/-- The oldest of some candidates. -/
def oldestCand (cs : List Cand) : Option Cand :=
  cs.foldl (fun best c => match best with
    | some b => if c.id < b.id then some c else best
    | none => some c) none

/-- The scheduler's choice (R129). -/
def choose (s : State) (k : Nat) : Option Cand :=
  let cs := candidates s k
  let top := cs.foldl (fun m c => min m c.rank) 9
  let best := cs.filter (fun c => c.rank == top)
  match oldestCand best, oldestCand (best.filter (fun c => c.hit)) with
  | some o, some h =>
    if o.id < h.id ∧ (getSub s k).streakRank = top ∧ rdf s (ra pgDrg 0x58) 4 0 ≤ (getSub s k).streak then some o
    else some h
  | some o, none => some o
  | none, _ => none

/-- Opens the row of the address of a chosen request and counts the streak of hits that an older request of the same rank
has waited for (R129). -/
def touchRow (s : State) (k a : Nat) (x : Cand) : State :=
  let d := getSub s k
  let waits := (candidates s k).any (fun c => c.rank == x.rank && decide (c.id < x.id))
  let before := if d.streakRank = x.rank then d.streak else 0
  setSub s k { d with openRows := tset d.openRows (bankOf s a) (rowOf s a), streakRank := x.rank,
                      streak := if x.hit && waits then before + 1 else 0 }

/-- During a frequency change the sub-channels enter self-refresh once every queued read and write is complete (R141). -/
def enterSelf (s : State) : State :=
  if freqBusy s && (List.range 4).all (fun c => (getDram s c).reads.isEmpty && (getDram s c).writes.isEmpty) then
    (List.range 8).foldl (fun s k => setSubState (dramCmd s k 4) k 2) s
  else s

/-- REQUEST_ISSUE (R129, R131, R134): the scheduler of a sub-channel issues one request. -/
def execRequestIssue (sub : Nat) (s : State) : Host.Outcome State Fault Refusal :=
  let k := sub % 8
  let c := k / 2
  let ch := getDram s c
  .next <|
    if subState s k ≠ 1 ∨ (getSub s k).retrainDue = true then s
    else match choose s k with
      | none => s
      | some x =>
        if x.write then
          match ch.writes.find? (fun w => w.id == x.id) with
          | none => s
          | some w =>
            let ws := ch.writes.filter (fun v => v.id != x.id)
            let s := touchRow s k w.addr x
            let s := countN (dramAt s k 2 w.addr) (pgDrc c) 5 (w.bytes.filter (fun b => b.isSome)).length
            let s := { s with dram := { s.dram with mem := writeBlock s.dram.mem w.addr w.bytes } }
            let rs := ch.reads.map (fun r => if r.addr = w.addr then { r with held := false } else r)
            let drain := ch.drain && decide (16 < ws.length)
            enterSelf (enterWaiting (setDram s c { ch with writes := ws, drain := drain, reads := rs }) c)
        else
          match ch.reads.find? (fun r => r.id == x.id) with
          | none => s
          | some r =>
            let s := touchRow s k r.addr x
            let s := countRead (dramAt s k 1 r.addr) r.addr r.cls
            let s := { s with dram := { s.dram with lastRead := blockBytes s r.addr } }
            enterSelf (enterWaiting (setDram s c { ch with reads := ch.reads.filter (fun v => v.id != x.id) }) c)

/-! ### Frequency change (R141) -/

/-- FREQ_REQ: a write of DRG.FREQ (R141). -/
def execFreqReq (_rq : Requester) (target : Nat) (req : Bool) (s : State) : Host.Outcome State Fault Refusal :=
  let t := target % 4
  let a := ra pgDrg 0x44
  .next <|
    if pgClkOn s pgDrg = false then ev s pgDrg 6
    else if t = 3 then refuse s pgDrg
    else if req = false then wrf s a 1 0 t
    else if anyPrinting s = true ∨ rdb s (ra pgDrg 0x40) t = false ∨ t = activeSet s ∨ freqBusy s = true then
      refuse s pgDrg
    else
      let s := wrf (wrf (wrf s a 1 0 t) a 9 9 1) a 8 8 1
      let s := { s with dram := { s.dram with freqTarget := t } }
      enterSelf ((List.range 8).foldl (fun s k =>
        setSub s k { getSub s k with sweep := 0, retrainDue := false }) s)

/-- Every sub-channel is in self-refresh: a frequency change can end (R141). -/
def allSelf (s : State) : Bool := (List.range 8).all (fun k => subState s k == 2)

/-- The end of a frequency change: the target set serves, and what waited enters the channels; or training failed (R141,
R144). -/
def freqEnd (s : State) (ok : Bool) : State :=
  let a := ra pgDrg 0x44
  let t := s.dram.freqTarget
  let s := wrf (wrf s a 9 9 0) a 8 8 0
  if ok then
    let s := wrf s (ra pgDrg 0x40) 9 8 t
    let s := (List.range 8).foldl (fun s k =>
      setSubState (setSub (dramCmd s k 5) k { getSub s k with refreshes := 0, sweep := 0, openRows := [] }) k 1) s
    (List.range 4).foldl enterWaiting (ev (syncDram s) pgDrg 8)
  else fault s 0x0404 3 pgDrg noBar [t]

/-! ### The hot derating rule (R145, R146) -/

/-- Web speed in mm/s of the channel of the reference bar, with its speed in effect (R145, R167). -/
def webSpeed (s : State) : Nat :=
  let c := lineChan s (refBar s)
  speedAt s c (fireNow s) * rd s (ra (pgPos c) 0xB4) / (2 ^ 32 * 1000)

/-- The thaw engines may begin `n` bytes of C1 traffic in the present window: while derating, at most VD_CAP in all (R12,
R146). -/
def mayThaw (s : State) (n : Nat) : Bool :=
  !derating s || decide (s.dram.c1Begun + n ≤ rdf s (ra pgDrg 0x64) 11 0 * 100000)

/-- Thaw engines begin `n` bytes of C1 traffic. -/
def beginThaw (s : State) (n : Nat) : State := { s with dram := { s.dram with c1Begun := s.dram.c1Begun + n } }

/-- DERATE_WINDOW (R12, R145, R146): demands in 0.1 GB/s are bytes of the 1 ms window over 100,000. -/
def execDerateWindow (s : State) : Host.Outcome State Fault Refusal :=
  let d := s.dram
  let s0 := { s with dram := { d with c0 := 0, c1 := 0, c2 := 0, c3 := 0, c1Begun := 0 } }
  .next <|
    if derating s then
      let u : Int := (rdf s (ra pgDrg 0x60) 11 0 : Int) - rdf s (ra pgDrg 0x5C) 11 0
      let c0 := d.c0 / 100000
      let c1 := d.c1 / 100000
      let c2 := d.c2 / 100000
      let c3 := d.c3 / 100000
      let cap := (u - c0 - c2 - c3).toNat
      let v := webSpeed s
      let spd := if c0 + c1 + c2 = 0 then 0xFFFFF else v * (u - c3).toNat / (c0 + c1 + c2)
      let s := wr (wr s0 (ra pgDrg 0x64) (min cap 0xFFF)) (ra pgDrg 0x68) (min spd 0xFFFFF)
      let below := decide (spd < v)
      let s := if below && !d.limited then fault (ev s pgDrg 11) 0x0402 1 pgDrg noBar [spd, v] else s
      syncSlow { s with dram := { s.dram with limited := below } }
    else s0

end Sys2Proof.Machine
end

