-- ==== Sys2Proof/Machine/Inflate.lean ====
section
/-! DEFINITION. Decoding of raw DEFLATE streams (RFC 1951) as the thaw engines decode them, with the output limit and
the error codes of R111 to R113, and the stored encoding of R119. -/

namespace Sys2Proof.Machine

open Sys2Proof

/-- Thaw error codes (04). -/
def thOk : Nat := 0
def thBomb : Nat := 1
def thShort : Nat := 2
def thTrunc : Nat := 3
def thTrailing : Nat := 4
def thBadBlock : Nat := 5
def thBadLen : Nat := 6
def thBadCode : Nat := 7
def thBadDist : Nat := 8
def thBadFormat : Nat := 9
def thContent : Nat := 10
def thStore : Nat := 11

/-- The bits of a byte, least significant first. -/
def byteBits (b : Byte) : List Bool := (List.range 8).map (fun i => b.getLsbD i)

/-- The bits of a stream in the order of RFC 1951. -/
def streamBits (bs : List Byte) : List Bool := bs.flatMap byteBits

/-- Reads n bits as a number, least significant first. -/
def takeBits : Nat → List Bool → Option (Nat × List Bool)
  | 0, bs => some (0, bs)
  | _ + 1, [] => none
  | n + 1, b :: bs =>
    match takeBits n bs with
    | some (v, r) => some (b2n b + 2 * v, r)
    | none => none

/-- Output so far, newest byte first, with its length and its limit. -/
structure Sink where
  out : List Byte
  n : Nat
  limit : Nat
deriving DecidableEq, Repr

/-- Appends a byte; none beyond the limit (R112). -/
def Sink.put (k : Sink) (b : Byte) : Option Sink :=
  if k.limit ≤ k.n then none else some { k with out := b :: k.out, n := k.n + 1 }

/-- Copies `len` bytes from distance `d`; the second part is false when the limit stopped it. -/
def Sink.copy (d : Nat) : Nat → Sink → Sink × Bool
  | 0, k => (k, true)
  | len + 1, k =>
    match k.put ((k.out[d - 1]?).getD 0#8) with
    | some k' => Sink.copy d len k'
    | none => (k, false)

/-- A canonical Huffman code: how many codes each length from 1 to 15 has, and the symbols in code order. -/
structure Huff where
  counts : List Nat
  syms : List Nat
deriving DecidableEq, Repr

/-- The code of a list of code lengths (RFC 1951, 3.2.2). -/
def huffOf (lens : List Nat) : Huff :=
  let idx := List.range lens.length
  let at_ (l : Nat) : List Nat := idx.filter (fun i => (lens[i]?).getD 0 == l)
  let ls := (List.range 15).map (fun i => i + 1)
  { counts := ls.map (fun l => (at_ l).length), syms := ls.flatMap at_ }

/-- Codes left unused at length 15; negative when the set is over-subscribed. -/
def huffLeft (h : Huff) : Int := h.counts.foldl (fun left c => 2 * left - c) 1

/-- A set that RFC 1951 allows: complete, or a single code of one bit, or (`empty`) no code at all. -/
def huffValid (h : Huff) (single empty : Bool) : Bool :=
  huffLeft h == 0 || (single && h.syms.length == 1 && h.counts.head? == some 1) || (empty && h.syms.isEmpty)

/-- Decodes one symbol: the symbol and the rest, or an error code. -/
def huffGo (syms : List Nat) : List Nat → Int → Int → Nat → List Bool → Except Nat (Nat × List Bool)
  | [], _, _, _, _ => .error thBadCode
  | _ :: _, _, _, _, [] => .error thTrunc
  | c :: cs, code, first, index, b :: bs =>
    let code := code + b2n b
    if code - first < c then
      match syms[index + (code - first).toNat]? with
      | some v => .ok (v, bs)
      | none => .error thBadCode
    else huffGo syms cs (2 * code) (2 * (first + c)) (index + c) bs

def huffSym (h : Huff) (bs : List Bool) : Except Nat (Nat × List Bool) := huffGo h.syms h.counts 0 0 0 bs

/-- Base and extra bits of length symbols 257 to 285, and of distance symbols 0 to 29. -/
def lenBase : List Nat := [3, 4, 5, 6, 7, 8, 9, 10, 11, 13, 15, 17, 19, 23, 27, 31, 35, 43, 51, 59, 67, 83, 99, 115, 131,
  163, 195, 227, 258]
def lenExtra : List Nat := [0, 0, 0, 0, 0, 0, 0, 0, 1, 1, 1, 1, 2, 2, 2, 2, 3, 3, 3, 3, 4, 4, 4, 4, 5, 5, 5, 5, 0]
def distBase : List Nat := [1, 2, 3, 4, 5, 7, 9, 13, 17, 25, 33, 49, 65, 97, 129, 193, 257, 385, 513, 769, 1025, 1537,
  2049, 3073, 4097, 6145, 8193, 12289, 16385, 24577]
def distExtra : List Nat := [0, 0, 0, 0, 1, 1, 2, 2, 3, 3, 4, 4, 5, 5, 6, 6, 7, 7, 8, 8, 9, 9, 10, 10, 11, 11, 12, 12, 13,
  13]

/-- What a part of a stream leaves: the rest of the bits and the output, or an error with the output so far. -/
abbrev InfOut := Except (Nat × Sink) (List Bool × Sink)

/-- Decodes the symbols of a compressed block until its end. -/
def infCodes (lit dist : Huff) : Nat → List Bool → Sink → InfOut
  | 0, _, k => .error (thTrunc, k)
  | fuel + 1, bs, k =>
    match huffSym lit bs with
    | .error e => .error (e, k)
    | .ok (v, bs) =>
      if v < 256 then
        match k.put (BitVec.ofNat 8 v) with
        | some k => infCodes lit dist fuel bs k
        | none => .error (thBomb, k)
      else if v = 256 then .ok (bs, k)
      else if 286 ≤ v then .error (thBadCode, k)
      else
        match takeBits ((lenExtra[v - 257]?).getD 0) bs with
        | none => .error (thTrunc, k)
        | some (x, bs) =>
          match huffSym dist bs with
          | .error e => .error (e, k)
          | .ok (dv, bs) =>
            if 30 ≤ dv then .error (thBadCode, k)
            else
              match takeBits ((distExtra[dv]?).getD 0) bs with
              | none => .error (thTrunc, k)
              | some (y, bs) =>
                let d := (distBase[dv]?).getD 0 + y
                if k.n < d then .error (thBadDist, k)
                else
                  match Sink.copy d ((lenBase[v - 257]?).getD 0 + x) k with
                  | (k, true) => infCodes lit dist fuel bs k
                  | (k, false) => .error (thBomb, k)

/-- Copies the bytes of a stored block. -/
def infStored : Nat → List Bool → Sink → InfOut
  | 0, bs, k => .ok (bs, k)
  | n + 1, bs, k =>
    match takeBits 8 bs with
    | none => .error (thTrunc, k)
    | some (v, bs) =>
      match k.put (BitVec.ofNat 8 v) with
      | some k => infStored n bs k
      | none => .error (thBomb, k)

/-- Lengths of the fixed Huffman codes. -/
def fixedLit : List Nat := List.replicate 144 8 ++ List.replicate 112 9 ++ List.replicate 24 7 ++ List.replicate 8 8
def fixedDist : List Nat := List.replicate 32 5

/-- Order of the code length code lengths. -/
def clOrder : List Nat := [16, 17, 18, 0, 8, 7, 9, 6, 10, 5, 11, 4, 12, 3, 13, 2, 14, 1, 15]

/-- Reads n code length code lengths of 3 bits. -/
def readCl : Nat → List Bool → Option (List Nat × List Bool)
  | 0, bs => some ([], bs)
  | n + 1, bs =>
    match takeBits 3 bs with
    | none => none
    | some (v, bs) =>
      match readCl n bs with
      | some (vs, bs) => some (v :: vs, bs)
      | none => none

/-- Reads the code lengths of a dynamic block, newest first in `acc`. -/
def readLens (h : Huff) (total : Nat) : Nat → List Bool → List Nat → Except Nat (List Nat × List Bool)
  | 0, _, _ => .error thBadCode
  | fuel + 1, bs, acc =>
    if acc.length = total then .ok (acc.reverse, bs)
    else if total < acc.length then .error thBadCode
    else
      match huffSym h bs with
      | .error e => .error e
      | .ok (v, bs) =>
        if v < 16 then readLens h total fuel bs (v :: acc)
        else
          let extra := if v = 16 then 2 else if v = 17 then 3 else 7
          match takeBits extra bs with
          | none => .error thTrunc
          | some (x, bs) =>
            if v = 16 then
              match acc with
              | [] => .error thBadCode
              | p :: _ => readLens h total fuel bs (List.replicate (3 + x) p ++ acc)
            else readLens h total fuel bs (List.replicate ((if v = 17 then 3 else 11) + x) 0 ++ acc)

/-- Reads the header of a dynamic block: its two codes (RFC 1951, 3.2.7). -/
def readDynamic (bs : List Bool) : Except Nat (Huff × Huff × List Bool) :=
  match takeBits 14 bs with
  | none => .error thTrunc
  | some (h, bs) =>
    let nl := h % 32 + 257
    let nd := h / 32 % 32 + 1
    let nc := h / 1024 + 4
    if 286 < nl then .error thBadCode
    else
      match readCl nc bs with
      | none => .error thTrunc
      | some (cl, bs) =>
        let lens := (List.range 19).map (fun i =>
          ((List.range nc).find? (fun j => clOrder[j]? == some i)).elim 0 (fun j => (cl[j]?).getD 0))
        let hc := huffOf lens
        if huffValid hc false false = false then .error thBadCode
        else
          match readLens hc (nl + nd) (nl + nd + 1) bs [] with
          | .error e => .error e
          | .ok (all, bs) =>
            let lit := huffOf (all.take nl)
            let dist := huffOf (all.drop nl)
            if huffValid lit true false && huffValid dist true true then .ok (lit, dist, bs) else .error thBadCode

/-- One block: whether it is the final one, with what it leaves. `storedOnly` is the STORED format of R92. -/
def infBlock (storedOnly : Bool) (bs : List Bool) (k : Sink) : Except (Nat × Sink) (Bool × List Bool × Sink) :=
  match takeBits 3 bs with
  | none => .error (thTrunc, k)
  | some (h, bs) =>
    let fin := h % 2 == 1
    let wrap (r : InfOut) : Except (Nat × Sink) (Bool × List Bool × Sink) :=
      match r with
      | .ok (bs, k) => .ok (fin, bs, k)
      | .error e => .error e
    if h / 2 = 3 then .error (thBadBlock, k)
    else if h / 2 ≠ 0 ∧ storedOnly = true then .error (thBadFormat, k)
    else if h / 2 = 0 then
      match takeBits 32 (bs.drop (bs.length % 8)) with
      | none => .error (thTrunc, k)
      | some (v, bs) =>
        if v % 65536 + v / 65536 = 65535 then wrap (infStored (v % 65536) bs k) else .error (thBadLen, k)
    else if h / 2 = 1 then wrap (infCodes (huffOf fixedLit) (huffOf fixedDist) (bs.length + 1) bs k)
    else
      match readDynamic bs with
      | .error e => .error (e, k)
      | .ok (lit, dist, bs) => wrap (infCodes lit dist (bs.length + 1) bs k)

/-- Blocks until the final one; then SHORT and TRAILING are told apart from a sound end. -/
def infBlocks (storedOnly : Bool) : Nat → List Bool → Sink → Nat × Sink
  | 0, _, k => (thTrunc, k)
  | fuel + 1, bs, k =>
    match infBlock storedOnly bs k with
    | .error (e, k) => (e, k)
    | .ok (true, bs, k) =>
      if k.n < k.limit then (thShort, k) else if 8 ≤ bs.length then (thTrailing, k) else (thOk, k)
    | .ok (false, bs, k) => infBlocks storedOnly fuel bs k

/-- Decodes a raw DEFLATE stream with an output limit: the error code, 0 when sound, and the output (R111, R112). -/
def inflate (storedOnly : Bool) (limit : Nat) (payload : List Byte) : Nat × List Byte :=
  let bits := streamBits payload
  let r := infBlocks storedOnly (bits.length + 1) bits { out := [], n := 0, limit := limit }
  (r.1, r.2.out.reverse)

/-! ### Freeze (R118 to R120) -/

/-- The bits of a 16-bit number. -/
def bits16 (v : Nat) : List Bool := (List.range 16).map (fun i => bitOf v i)

/-- Zero bits from a bit position up to the next byte boundary. -/
def padBits (pos : Nat) : List Bool := List.replicate ((8 - pos % 8) % 8) false

/-- A stored block that begins at a bit position (RFC 1951, 3.2.4). -/
def storedBlock (pos : Nat) (final : Bool) (bs : List Byte) : List Bool :=
  [final, false, false] ++ padBits (pos + 3) ++ bits16 bs.length ++ bits16 (65535 - bs.length) ++ streamBits bs

/-- BTYPE and codes form one compressed block, and no more, that expands to `bs` after the bytes `prior`. -/
def oneBlock (prior bs : List Byte) (code : List Bool) : Bool :=
  let k : Sink := { out := prior.reverse, n := prior.length, limit := prior.length + bs.length }
  code.take 2 != [false, false] &&
    (match infBlock false (false :: code) k with
     | .ok (_, rest, k) => rest.isEmpty && k.out == (prior ++ bs).reverse
     | .error _ => false)

/-- The encoding that a freeze engine emits for a block: the Huffman encoding, with its sync flush when the block ends at a
flush, or the stored encoding when that is no longer (R119). The engine finds a sound Huffman encoding or none. -/
def freezeBlock (depth pos : Nat) (prior bs : List Byte) (flush final : Bool) : List Bool :=
  let code := Config.huffBlock depth prior bs
  let huff := final :: code
  let huff := if flush then huff ++ storedBlock (pos + huff.length) false [] else huff
  let stored := storedBlock pos final bs
  if oneBlock prior bs code && decide (huff.length < stored.length) then huff else stored

/-- The blocks of an input from offset `a` on: a block ends at every flush, after 65,535 bytes, and at the end of input; a
flush at the end of input is merged into the final block (R119). -/
def freezeBlocks (depth : Nat) : Nat → List Nat → List Byte → List Byte → List Bool → List Bool
  | 0, _, _, _, acc => acc
  | fuel + 1, flushes, prior, bs, acc =>
    let a := prior.length
    match flushes with
    | f :: fs =>
      if a + bs.length ≤ f then freezeBlocks depth fuel [] prior bs acc
      else if f - a ≤ 65535 then
        let part := bs.take (f - a)
        freezeBlocks depth fuel fs (prior ++ part) (bs.drop (f - a))
          (acc ++ freezeBlock depth acc.length prior part true false)
      else
        let part := bs.take 65535
        freezeBlocks depth fuel (f :: fs) (prior ++ part) (bs.drop 65535)
          (acc ++ freezeBlock depth acc.length prior part false false)
    | [] =>
      if bs.length ≤ 65535 then acc ++ freezeBlock depth acc.length prior bs false true
      else
        let part := bs.take 65535
        freezeBlocks depth fuel [] (prior ++ part) (bs.drop 65535)
          (acc ++ freezeBlock depth acc.length prior part false false)

/-- The bytes of a bit stream; zero bits fill the last one. -/
def packBits : Nat → List Bool → List Byte
  | 0, _ => []
  | fuel + 1, bs =>
    if bs.isEmpty then []
    else
      let v := (bs.take 8).foldr (fun b n => b2n b + 2 * n) 0
      BitVec.ofNat 8 v :: packBits fuel (bs.drop 8)

/-- The payload that a freeze engine emits (R118 to R121) for an input with flushes after the given numbers of bytes. -/
def freezePayload (depth : Nat) (input : List Byte) (flushes : List Nat) : List Byte :=
  let bits := freezeBlocks depth (input.length / 65535 + flushes.length + 2) flushes [] input []
  packBits (bits.length + 1) bits

/-- Most bytes that a freeze engine emits for n bytes with F flushes, header included (R120). -/
def freezeBound (n flushes : Nat) : Nat := n + 5 * (n / 65535 + 1 + flushes) + 24

end Sys2Proof.Machine
end

