-- ==== Sys2Proof/Machine/Verify.lean ====
section
/-! DEFINITION. Comparing bar lines in a pair (12): the outcomes of R354, the runs that verify a standby, how a join
starts, fails and starts again, how it ends, and the request for a planned switch-over (R353 to R356, R361, R373). -/

namespace Sys2Proof.Machine

open Sys2Proof

/-- A register of the PAIR page. -/
def pairA (o : Nat) : Nat := ra pgPair o

/-- PAIR.PEER_EPOCH. -/
def peerEpoch (s : State) : Nat := rd s (pairA 0x50)

/-- Changes the pair's part of the state. -/
def setPair (s : State) (p : PairSt) : State := { s with pair := p }

/-- A fault of the pair, with the epochs of both units as detail. -/
def pairRecord (s : State) (code cls : Nat) : State := fault s code cls pgPair noBar [epoch s, peerEpoch s]

/-- The partner is active, by its last HELLO or HB. -/
def peerActive (s : State) : Bool := s.pair.peerRole == 2 || s.pair.peerRole == 3

/-- Body of a COPY_CTRL message that names a step of the join: 0 when the join has ended without success. -/
def stepMark (n : Nat) : List Byte := leBytes 1 1 ++ leBytes 1 n

/-- Body of a COPY_CTRL message that asks for catch-up: of one channel, or of all with 0xFF. -/
def catchRequest (c : Nat) : List Byte := leBytes 1 3 ++ leBytes 1 c

/-- Forgets what a comparison has collected. -/
def clearRuns (s : State) : State :=
  let s := { s with print := { s.print with ownCrcs := [], peerCrcs := [] } }
  setPair s { s.pair with matched := [], catchup := none, catchBars := [], catchChans := [] }

/-- The joining unit begins a join (step 1) with an active partner, unless it waits for CMD.JOIN (R346). -/
def startJoin (s : State) : State :=
  if s.pair.role = 4 ∧ s.pair.joinStep = 0 ∧ s.pair.mustWait = false ∧ peerActive s = true ∧ pairLink s = true then
    let s := setPair (clearRuns s) { (clearRuns s).pair with joinStep := 1, restarts := 0, posFails := 0 }
    pairSendSeq s 0x21 0 (stepMark 1)
  else s

/-- Enters JOINING (R346). -/
def enterJoining (s : State) : State :=
  let s := clearRuns s
  let s := setPair s { s.pair with joinStep := 0, verified := false, digest := none, switchPending := false }
  startJoin (setRole s 4)

/-- The join has failed: JOIN_FAIL, and the unit waits for CMD.JOIN (R359, R361, R363). -/
def joinFail (s : State) : State :=
  let s := clearRuns (stopBars s (List.range 8))
  let s := setPair s { s.pair with joinStep := 0, mustWait := true }
  pairRecord (ev (pairSendSeq s 0x21 0 (stepMark 0)) pgPair 11) 0x0A06 1

/-- An outcome other than a match or an excuse starts the join again at step 4, and the third one ends it (R361). -/
def restartJoin (s : State) : State :=
  if 2 ≤ s.pair.restarts then joinFail s
  else
    let s := clearRuns (stopBars s (List.range 8))
    let s := setPair s { s.pair with joinStep := 4, restarts := s.pair.restarts + 1, posFails := 0 }
    pairSendSeq s 0x21 0 (catchRequest 0xFF)

/-- The join is complete: Ready Standby with the epoch of the active (R345, R346, R361, R362). -/
def becomeReady (s : State) (verified : Bool) : State :=
  let s := clearRuns (wr s (pairA 0x4C) (peerEpoch s))
  let s := setPair s { s.pair with joinStep := 0, verified := verified, scrubErrs := 0, digestErr := false,
                                   excused := 0, diverged := false }
  ev (setRole s 5) pgPair 10

/-- A planned switch-over is asked for: refused unless the standby is Ready and VERIFIED is 1 (R373). -/
def requestSwitch (s : State) : State :=
  if s.pair.role = 2 ∧ s.pair.verified = true then
    (if s.pair.switchPending then s
     else takeInput (setPair s { s.pair with switchPending := true }) 11 (refBar s) none [])
  else refuse s pgPair

/-- PAIR.VERIFY_LINES. -/
def verifyLines (s : State) : Nat := rdf s (pairA 0x74) 15 0

/-- A line of a bar has matched; a run of VERIFY_LINES lines of every printing bar verifies the standby (R361, R362). -/
def lineMatched (s : State) (b : Nat) : State :=
  let n := tget (fun _ => 0) s.pair.matched b + 1
  let s := setPair s { s.pair with matched := tset s.pair.matched b n }
  let bars := (List.range 8).filter (printing s)
  if !bars.isEmpty && bars.all (fun b => decide (verifyLines s ≤ tget (fun _ => 0) s.pair.matched b)) then
    (if s.pair.role = 4 then becomeReady s true
     else if s.pair.role = 5 then setPair s { s.pair with verified := true } else s)
  else s

/-- DIVERGENCE, with the bar and the image line (R24, R354). -/
def divergence (s : State) (cls b n : Nat) : State :=
  faultAt (ev s pgPair 12) 0x0A05 cls pgPair b [epoch s, peerEpoch s] (some (n, webPos s b))

/-- An excused line is counted; its class A record is made at most once per 1,024 image lines of a bar (R354). -/
def excuse (s : State) (b n : Nat) (record : Bool) : State :=
  let s := count s pgPair 7
  let s := setPair s { s.pair with excused := s.pair.excused + 1 }
  let far := match (getBar s b).lastDivA with
    | some m => decide (1024 ≤ ((m : Int) - n).natAbs)
    | none => true
  if record && far then divergence (setBar s b { getBar s b with lastDivA := some n }) 0 b n else s

/-- The standby is marked unhealthy: DIVERGENCE of class B; the standby enters JOINING, and a join starts again. -/
def unexplained (s : State) (b n : Nat) : State :=
  let s := divergence (count s pgPair 6) 1 b n
  let s := setPair s { s.pair with diverged := true, matched := [] }
  if s.pair.role = 5 then enterJoining s else if s.pair.role = 4 then restartJoin s else s

/-- The outcome of a bar line whose CRCs differ, by the flags of both units (table of R354). -/
def lineDiffers (s : State) (own : CrcEntry) (peerT peerP : Bool) : State :=
  let active := isActive s
  let at' := if active then own.transient else peerT
  let ap := if active then own.persistent else peerP
  let st := if active then peerT else own.transient
  let sp := if active then peerP else own.persistent
  if sp || (!at' && !ap && !st) then unexplained s own.bar own.line
  else
    let s := excuse s own.bar own.line (!ap || st)
    if ap && active then requestSwitch s else s

/-- Compares an entry with the partner's (R354). -/
def compareEntry (s : State) (own peer : CrcEntry) : State :=
  let s := count s pgPair 5
  if own.crc = peer.crc then lineMatched s own.bar else lineDiffers s own peer.transient peer.persistent

/-- Two entries are of the same bar line. -/
def sameLine (x y : CrcEntry) : Bool := x.line == y.line && x.bar == y.bar

/-- Drops the entries of a bar line. -/
def dropLine (s : State) (e : CrcEntry) : State :=
  { s with print := { s.print with ownCrcs := s.print.ownCrcs.filter (fun x => !sameLine x e),
                                   peerCrcs := s.print.peerCrcs.filter (fun x => !sameLine x e) } }

/-- Compares every bar line of which both entries are held (R354). -/
def compareLines (s : State) : State :=
  s.print.ownCrcs.foldl (fun s e =>
    if s.print.ownCrcs.contains e then
      match s.print.peerCrcs.find? (sameLine e) with
      | some p => compareEntry (dropLine s e) e p
      | none => s
    else s) s

/-- Step 4 of a join ends when image line L is built (12, "Joining"). -/
def lineLBuilt (s : State) : State :=
  if s.pair.role = 4 ∧ s.pair.joinStep = 4 ∧ s.print.ownCrcs.isEmpty = false then
    pairSendSeq (setPair s { s.pair with joinStep := 5 }) 0x21 0 (stepMark 5)
  else s

/-- The entries of a CRC message (R353). -/
def crcEntries (body : List Byte) : List CrcEntry :=
  (List.range (min 64 (body.length / 12))).map (fun i =>
    let e := (body.drop (12 * i)).take 12
    { line := bytesAt e 0 6, bar := bytesAt e 6 1, transient := bitOf (bytesAt e 7 1) 0,
      persistent := bitOf (bytesAt e 7 1) 1, crc := bytesAt e 8 4 })

/-- A CRC message of the partner (R353, R354). -/
def onCrc (s : State) (body : List Byte) : State :=
  let es := (crcEntries body).filter (fun e => decide (e.bar < 8) && verifying s e.bar e.line)
  compareLines { s with print := { s.print with peerCrcs := s.print.peerCrcs ++ es } }

/-- CRC_WAIT (R355): no entry of the partner has come in time; the line counts as differing, its flags clear. -/
def execCrcWait (line bar : Nat) (s : State) : Host.Outcome State Fault Refusal :=
  .next <| match s.print.ownCrcs.find? (fun e => e.line == line && e.bar == bar) with
    | some e => lineDiffers (count (dropLine s e) pgPair 5) e false false
    | none => s

end Sys2Proof.Machine
end

