-- ==== Sys2Proof/Machine/Session.lean ====
section
/-! DEFINITION. Host links (03): Ethernet ports, Gisha sessions on UDP and on the PCIe rings, the Moraine journal with
its completions, acknowledgement and retirement, and discovery. -/

namespace Sys2Proof.Machine

open Sys2Proof

/-! ### Ports and addresses (R58, R60, R85) -/

/-- ETHp.PORT_CFG.ROLE: 0 Off, 1 Host, 2 Press-ring. -/
def ethRole (s : State) (p : Nat) : Nat := rdf s (ra (pgEth p) 0x40) 9 8

/-- A port that carries Gisha: role Host, enabled, link up. -/
def hostPort (s : State) (p : Nat) : Bool :=
  decide (p < 4) && ethRole s p == 1 && pgEn s (pgEth p) && rdb s (ra (pgEth p) 0x50) 2

/-- Host ports with link up. -/
def hostPorts (s : State) : List Nat := (List.range 4).filter (hostPort s)

def ipv4On (s : State) : Bool := rdb s (ra pgGsh 0x40) 31
def ipv6On (s : State) : Bool := rdb s (ra pgGsh 0x40) 30

/-- Four words from a register address as a 128-bit number, low word first. -/
def rd128 (s : State) (a : Nat) : Nat := rd64 s a + 2 ^ 64 * rd64 s (a + 8)

/-- Whether the unit answers for an IPv4 address: its own in every role, the service address while active (R85). -/
def ownsV4 (s : State) (a : Nat) : Bool :=
  ipv4On s && (a == rd s (ra pgGsh 0x4C) || (isActive s && a == rd s (ra pgGsh 0x60)))

/-- The link-local address that a port forms from its MAC address (modified EUI-64, R58). -/
def linkLocal (s : State) (p : Nat) : Nat :=
  let mac := rd64 s (ra (pgEth p) 0x48) % 2 ^ 48
  0xFE80 * 2 ^ 112 + (field mac 47 24 ^^^ 2 ^ 17) * 2 ^ 40 + 0xFFFE * 2 ^ 24 + field mac 23 0

/-- Whether the unit answers for an IPv6 address on a port. -/
def ownsV6 (s : State) (p a : Nat) : Bool :=
  ipv6On s && (a == linkLocal s p || a == rd128 s (ra pgGsh 0x50) || (isActive s && a == rd128 s (ra pgGsh 0x64)))

/-- Largest Gisha message on a port for a sender's address (R59); an address of 2^32 or more is IPv6. -/
def maxMsg (s : State) (p src : Nat) : Nat :=
  let jumbo := rdb s (ra (pgEth p) 0x40) 4
  let tag := if rdb s (ra (pgEth p) 0x40) 3 then 4 else 0
  (if jumbo then (if 2 ^ 32 ≤ src then 9534 else 9554) else (if 2 ^ 32 ≤ src then 1452 else 1472)) - tag

/-- A discarded Gisha message is counted on the GSH page, with no reply (R62). -/
def gshDiscard (s : State) : State := count s pgGsh 0

/-- A frame that a port drops is counted (R58, R59). -/
def ethDrop (s : State) (p : Nat) : State := count s (pgEth p) 0

/-- The tags of a frame are as the port accepts them (R58). -/
def tagsOk (s : State) (p : Nat) (vids : List Nat) : Bool :=
  if rdb s (ra (pgEth p) 0x40) 3 then vids == [rdf s (ra (pgEth p) 0x44) 11 0] else vids.isEmpty

/-- The power states in which the part handles commands: Run and Ready (R422). -/
def dozing (s : State) : Bool := decide (2 ≤ s.power.pstate)

/-- Hands a received Gisha message on: not one to the service address unless the unit is active (R85). -/
def takeMessage (s : State) (m : UdpMsg) : State :=
  if m.toService && !isActive s then s
  else if dozing s && decide (65536 < ((s.host.rx.filter (fun x => x.ethPort == m.ethPort)).map (fun x => x.data.length)).sum +
      m.data.length) then ethDrop s (m.ethPort % 4)
  else { s with host := { s.host with rx := s.host.rx ++ [m] } }

/-- What a Host port does with a frame that has passed its checks. -/
def hostFrame (s : State) (p : Nat) (k : EthKind) : State :=
  match k with
  | .arp t => if ownsV4 s t then send s (.ethReply p (.arp t) (portTag s p)) else s
  | .ndp t => if ownsV6 s p t then send s (.ethReply p (.ndp t) (portTag s p)) else s
  | .icmpEcho d => if ownsV4 s d || ownsV6 s p d then send s (.ethReply p (.icmpEcho d) (portTag s p)) else s
  | .ipFragment => ethDrop s p
  | .gisha m => takeMessage s m
  | .pause => s
  | .ptp => s
  | .magicPattern => s
  | .other => ethDrop s p

/-- What a Press-ring port does with a frame that has passed its checks: PTP is taken by the commands of 11, a fragment is
counted (R59), and nothing else is for the unit. -/
def ringFrame (s : State) (p : Nat) (k : EthKind) : State :=
  match k with
  | .ipFragment => ethDrop s p
  | _ => s

/-- ETH_FRAME_RECEIVE (R58, R59, R331, R422). The limits count the tag of a tagged frame: R59 derives its 9,578 B from
9,600 B. -/
def execEthFrameReceive (port : Nat) (f : EthFrame) (s : State) : Host.Outcome State Fault Refusal :=
  let p := port % 4
  let limit := if rdb s (ra (pgEth p) 0x40) 4 then 9600 else 1518
  .next <|
    if pgEn s (pgEth p) = false ∨ ethRole s p = 0 ∨ ethRole s p = 3 ∨ rdb s (ra (pgEth p) 0x50) 2 = false then s
    else if f.fcsOk = false ∨ limit < f.length ∨ tagsOk s p f.vids = false then ethDrop s p
    else if ethRole s p = 1 then hostFrame (demand s 2 f.length) p f.kind
    else ringFrame s p f.kind

/-! ### Sessions (R62 to R67) -/

/-- Removes a message from those received and not yet processed. -/
def rxDone (s : State) (m : UdpMsg) : State := { s with host := { s.host with rx := s.host.rx.erase m } }

/-- The message reaches this unit: on a Host port with link up, and to the service address only while active. -/
def arrives (s : State) (m : UdpMsg) : Bool := hostPort s m.ethPort && (!m.toService || isActive s)

/-- The SESSION of a message is open from its sender (R62). -/
def sessionOf (s : State) (m : UdpMsg) : Option Nat :=
  let n := gSession m.data
  let ss := getSession s n
  if decide (1 ≤ n) && decide (n ≤ 16) && (ss.state == 1 || ss.state == 2) && ss.srcAddr == m.srcAddr &&
      ss.srcPort == m.srcPort then some n else none

/-- Sends a message of a session that is a header only. -/
def sendHeader (s : State) (n type : Nat) : State :=
  let ss := getSession s n
  sendMsg s n ss (gMessage ss.minor ss.major type 0 n 0 (ackOf s n) [] [])

/-- A copy of a session for the standby, which holds the session table (R86). -/
def sessionBytes (n : Nat) (ss : Session) : List Byte :=
  leBytes 1 2 ++ leBytes 8 n ++ leBytes 1 ss.state ++ leBytes 8 ss.id ++ leBytes 1 ss.major ++ leBytes 1 ss.minor ++
    leBytes 4 ss.window ++ leBytes 4 ss.maxMsg ++ leBytes 4 ss.accepted ++ leBytes 16 ss.srcAddr ++
    leBytes 2 ss.srcPort ++ leBytes 1 ss.ethPort ++ leBytes 4 ss.events ++
    leBytes 1 (b2n ss.service)

/-- An active unit with a partner sends it the present state of a session (R86, R356). -/
def shareSession (s : State) (n : Nat) : State :=
  if partnered s && n != 0 then pairSendSeq s 0x20 0 (sessionBytes n (getSession s n)) else s

/-- Changes a session, and shares the change. -/
def putSession (s : State) (n : Nat) (ss : Session) : State := shareSession (setSession s n ss) n

/-- Entries of a session that are not yet retired. -/
def entriesOf (s : State) (n : Nat) : List (Nat × JEntry) :=
  s.host.journal.filter (fun e => e.2.session == n && !e.2.peer)

/-- A Closing session whose last command is retired returns to Listen; CLOSE_ACK is sent on UDP (R66). -/
def closeIfDone (s : State) (n : Nat) : State :=
  if (getSession s n).state = 2 ∧ (entriesOf s n).isEmpty = true then
    let s := if n = 0 then s else sendHeader s n 0x04
    putSession s n {}
  else s

/-- Status codes (03). -/
def stOk : Nat := 0
def stBadOpcode : Nat := 1
def stBadParam : Nat := 2
def stBadCrc : Nat := 3
def stNoSpace : Nat := 4
def stRefused : Nat := 5
def stLate : Nat := 6
def stConflict : Nat := 7
def stNotActive : Nat := 8
def stVersion : Nat := 9
def stNoSession : Nat := 10
def stClosing : Nat := 11
def stAborted : Nat := 12

/-- The version chosen from an offered range, 0 when refused (R63). -/
def chooseVersion (lo hi : Nat) : Nat :=
  if 0x0304 < lo ∨ hi < 0x0200 ∨ hi < lo then 0 else if 0x0304 ≤ hi then 0x0304 else hi

/-- The role in HELLO_ACK and ANNOUNCE (R345). -/
def hostRole (s : State) : Nat :=
  if s.pair.role = 0 then 0 else if s.pair.role = 2 ∨ s.pair.role = 3 then 1 else if s.pair.role = 5 then 2 else 3

/-- The HELLO_ACK entry (03). UNIT is a feature of 3.4. -/
def helloAckEntry (s : State) (ver status window id maxm n last : Nat) : List Byte :=
  padTo 64 (leBytes 2 (if status = 0 then ver else 0) ++ leBytes 2 status ++ leBytes 4 window ++ leBytes 8 id ++
    leBytes 4 maxm ++ leBytes 4 n ++ leBytes 4 (rd s (ra pgJrn 0x44)) ++ leBytes 4 last ++
    leBytes 4 (if ver = 0x0304 then b2n (unitA s) + 2 * hostRole s else 0))

/-- Answers a HELLO that is refused. -/
def helloRefused (s : State) (m : UdpMsg) (ver status : Nat) : State :=
  send s (.udp m.ethPort 0
    { service := m.toService, addr := m.srcAddr, port := m.srcPort, tag := portTag s m.ethPort }
    (gMessage 4 3 0x02 1 0 0 0 (helloAckEntry s ver status 0 0 0 0 0) []))

/-- Answers a HELLO that opened or resumed session n. -/
def helloGranted (s : State) (n : Nat) : State :=
  let ss := getSession s n
  sendMsg s n ss (gMessage ss.minor ss.major 0x02 1 n 0 (ackOf s n)
    (helloAckEntry s (256 * ss.major + ss.minor) 0 ss.window ss.id ss.maxMsg n (ackOf s n)) [])

/-- WINDOW granted for the window that host software wants: within 1 to 64. -/
def grantWindow (w : Nat) : Nat := max 1 (min 64 w)

/-- The lowest free UDP session number. -/
def freeSession (s : State) : Option Nat :=
  ((List.range 16).map (fun i => i + 1)).find? (fun n => (getSession s n).state == 0)

/-! ### Completions (R78, R80) -/

/-- The completion entry of a journalled command; WEB_POS and IMAGE_LINE read as zero in a 2.x session, and PEER is a
feature of 3.4 (R63, R64). -/
def completionEntry (s : State) (e : JEntry) (phase : Bool) : List Byte :=
  let ss := getSession s e.session
  let old := decide (ss.major < 3) && !e.peer
  let flags := b2n phase + 2 * b2n e.replayed + 4 * b2n (e.peer && ss.major == 3 && ss.minor == 4)
  withCrc (leBytes 1 (eOpcode e.entry) ++ leBytes 1 e.status ++ leBytes 1 flags ++ leBytes 1 e.ring ++ leBytes 4 e.seq ++
    leBytes 8 e.result0 ++ leBytes 8 e.result1 ++ leBytes 4 e.ptNs ++ leBytes 4 e.ptSec ++
    leBytes 8 (if old then 0 else twos 64 e.webPos) ++ leBytes 8 (if old then 0 else e.imageLine % 2 ^ 48) ++
    leBytes 4 e.result.length ++ zeroBytes 8)

/-- Sends the completion of a UDP command in a COMPLETE message; a Suspended session holds it. A reset closes the
session, but a completion replayed after it still goes to the sender that the journal knows (R82; DESIGN CHOICE, log 34). -/
def sendComplete (s : State) (e : JEntry) : State :=
  let ss := getSession s e.session
  if isActive s && (ss.state == 1 || ss.state == 2 || (ss.state == 0 && ss.major != 0 && (e.replayed || e.inReplay))) then
    sendMsg s e.session ss (gMessage ss.minor ss.major 0x18 1 e.session e.seq (ackOf s e.session)
      (completionEntry s e false) e.result)
  else s

/-- Delivers the completion of a Done entry: by COMPLETE on UDP; on PCIe it waits for its completion ring. -/
def deliver (s : State) (slot : Nat) : State :=
  match getEntry s slot with
  | some e => if e.session != 0 && e.state == 2 then sendComplete s e else s
  | none => s

/-- Makes a command Done with its status and results, stamped at the present tick (03), and delivers it. -/
def finish (s : State) (slot : Nat) (status r0 r1 : Nat) (result : List Byte) (img : Nat) : State :=
  match getEntry s slot with
  | some e =>
    let e := { e with state := 2, status := status, result0 := r0, result1 := r1, result := result,
                      imageLine := img, ptNs := s.clk.ns, ptSec := s.clk.sec % 2 ^ 32,
                      webPos := webPos s (refBar s), waiting := false }
    deliver (setEntry s slot e) slot
  | none => s

/-- Finishes a command with a status and nothing else. -/
def finishStatus (s : State) (slot status : Nat) : State := finish s slot status 0 0 [] 0

/-- A command that is not journalled completes with an error at once (R73). -/
def completeError (s : State) (n ring seq : Nat) (entry : List Byte) (status : Nat) : State :=
  let e : JEntry :=
    { stamp := s.host.nextStamp, session := n, seq := seq, ring := ring, entry := entry, data := [],
      state := 2, progress := 0, status := status, result0 := 0, result1 := 0, result := [], imageLine := 0,
      ptNs := s.clk.ns, ptSec := s.clk.sec % 2 ^ 32, webPos := webPos s (refBar s), replayed := false, peer := false,
      written := false, withheld := false, late := false, ready := true, pairSeq := 0, wpos := none, waiting := false }
  if n = 0 then { s with host := { s.host with errs := s.host.errs ++ [e], nextStamp := s.host.nextStamp + 1 } }
  else sendComplete s e

/-! ### Retirement (R70, R80) -/

/-- Frees the journal entries that a test names. Their completions are kept for a duplicate command, the last 256 of them
(R72; DESIGN CHOICE, log 32: the rule does not say for how long). -/
def freeEntries (s : State) (gone : JEntry → Bool) : State :=
  let old := (s.host.journal.filter (fun e => gone e.2)).map (fun e => e.2)
  let kept := s.host.retired ++ old
  { s with host := { s.host with
    journal := s.host.journal.filter (fun e => !gone e.2)
    retired := kept.drop (kept.length - 256) } }

/-- Frees every Done entry of a session up to a SEQ. -/
def retireNow (s : State) (n seq : Nat) : State :=
  closeIfDone (freeEntries s (fun e => e.session == n && !e.peer && e.state == 2 && seqLe e.seq seq)) n

/-- Forgets what the journal holds of a session: its entries and its retired completions. -/
def forgetSession (s : State) (n : Nat) : State :=
  { s with host := { s.host with
    journal := s.host.journal.filter (fun e => !(e.2.session == n && !e.2.peer))
    retired := s.host.retired.filter (fun e => e.session != n) } }

/-- Retires completions of a session up to a SEQ; in a pair this is an input (12, RETIRE). -/
def retire (s : State) (n seq : Nat) : State :=
  if (entriesOf s n).any (fun e => e.2.state == 2 && seqLe e.2.seq seq) then
    asInput s 2 (refBar s) none (leBytes 4 n ++ leBytes 4 seq) (fun s => retireNow s n seq)
  else s

/-- The ACK that a message of host software carries (R80). -/
def hostAck (s : State) (n : Nat) (m : List Byte) : State := if gAckValid m then retire s n (gAck m) else s

/-- Runs what a session message does, or discards the message (R62). DESIGN CHOICE (log 33): a message of a known session
that comes to a unit that is not active, on its own address, is discarded and counted like one of no session.-/
def onSession (s : State) (m : UdpMsg) (type : Nat) (act : State → Nat → State) : State :=
  if dozing s then s else
  let s := rxDone s m
  if arrives s m = false then s
  else if gWellFormed m.data = false ∨ gType m.data ≠ type then gshDiscard s
  else match sessionOf s m with
    | some n => if isActive s then act s n else gshDiscard s
    | none => gshDiscard s

/-- Sends again, with REPLAYED, every completion of a session that is Done and not retired (R65, R366). -/
def replaySession (s : State) (n : Nat) : State :=
  (entriesOf s n).foldl (fun s x =>
    if x.2.state = 2 then
      deliver (setEntry s x.1 { x.2 with replayed := true, written := false, wpos := none }) x.1
    else s) s

/-- HELLO on UDP (R63, R65). DESIGN CHOICE (log 30): a resumed session keeps its version, whatever range the HELLO offers
(that range must still hold a version); a non-zero SESSION_ID that names no Suspended session of this sender's address
with version 3.1 or later, an Open one among them, is refused with NO_SESSION. A session number that a reset left with
journalled commands is given to a new session, and those commands are forgotten. -/
def hello (s : State) (m : UdpMsg) : State :=
  let e := gEntry m.data 0
  let ver := chooseVersion (bytesAt e 0 2) (bytesAt e 2 2)
  let id := bytesAt e 8 8
  if isActive s = false then helloRefused s m ver stNotActive
  else if ver = 0 then helloRefused s m 0x0304 stVersion
  else if id = 0 then
    match freeSession s with
    | none => helloRefused s m ver stNoSession
    | some n =>
      let ss : Session :=
        { state := 1, id := Config.sessionId s.host.nextSessionId % 2 ^ 64, major := ver / 256,
          minor := ver % 256, window := grantWindow (bytesAt e 4 4), maxMsg := maxMsg s m.ethPort m.srcAddr,
          accepted := 0, srcAddr := m.srcAddr, srcPort := m.srcPort, ethPort := m.ethPort, service := m.toService }
      let s := forgetSession { s with host := { s.host with nextSessionId := s.host.nextSessionId + 1 } } n
      helloGranted (putSession s n ss) n
  else
    match ((List.range 16).map (fun i => i + 1)).find? (fun n =>
      let ss := getSession s n
      ss.state == 3 && ss.id == id && ss.srcAddr == m.srcAddr && ss.major == 3 && decide (1 ≤ ss.minor)) with
    | none => helloRefused s m ver stNoSession
    | some n =>
      let s := putSession s n
        { getSession s n with state := 1, srcPort := m.srcPort, ethPort := m.ethPort, service := m.toService }
      replaySession (helloGranted s n) n

/-- HELLO (R62, R63, R65). -/
def execHello (m : UdpMsg) (s : State) : Host.Outcome State Fault Refusal :=
  .next <|
    if dozing s then s else
    let s := rxDone s m
    if arrives s m = false then s
    else if gWellFormed m.data = false ∨ gType m.data ≠ 0x01 ∨ gCount m.data ≠ 1 then gshDiscard s
    else hello s m

/-- CLOSE (R66). -/
def execClose (m : UdpMsg) (s : State) : Host.Outcome State Fault Refusal :=
  .next <| onSession s m 0x03 (fun s n =>
    let s := hostAck s n m.data
    closeIfDone (if (getSession s n).state = 1 then putSession s n { getSession s n with state := 2 } else s) n)

/-- KEEPALIVE: retires by its ACK and is answered (R80). -/
def execKeepalive (m : UdpMsg) (s : State) : Host.Outcome State Fault Refusal :=
  .next <| onSession s m 0x05 (fun s n =>
    let s := hostAck s n m.data
    if (getSession s n).state = 0 then s else sendHeader s n 0x05)

/-! ### Accepting commands (R72, R73, R79, R80) -/

/-- The lowest free journal entry. -/
def freeEntry (s : State) : Option Nat := (List.range 256).find? (fun i => (getEntry s i).isNone)

/-- Unacknowledged commands of a session: journalled and not yet retired (R72). -/
def windowOf (s : State) (n : Nat) : Nat := (entriesOf s n).length

/-- Opcodes of Gisha 3.4, and those of the 2.x subset (R64). -/
def opcodes : List Nat := [1, 2, 3, 0x10, 0x11, 0x12, 0x13, 0x18, 0x19, 0x20, 0x21, 0x28, 0x30, 0x38]
def opcodes2 : List Nat := [0x10, 0x11, 0x12, 0x13, 0x18, 0x20, 0x21]

/-- The session knows the opcode (R63, R64); HELLO and CLOSE are commands of ring 0 only. -/
def opcodeKnown (ss : Session) (ring op : Nat) : Bool :=
  if op = 1 ∨ op = 2 then ring == 0
  else if ss.major = 2 then opcodes2.contains op
  else opcodes.contains op && (op != 0x30 || decide (2 ≤ ss.minor))

/-- Commands that a standby or joining unit runs (R87). -/
def anyRoleOp (op : Nat) : Bool := op == 1 || op == 2 || op == 3 || op == 0x20 || op == 0x19

/-- The image line and reference bar that a command names for its apply-line (R75, R348): REG_WRITE with APPLY. -/
def commandLine (entry : List Byte) : Option Nat :=
  if eOpcode entry = 0x21 ∧ bitOf (eParam entry 4 4) 0 = true then some (eParam entry 8 6)
  else if eOpcode entry = 0x12 ∧ eParam entry 0 6 ≠ ones48 then some (eParam entry 0 6)
  else if eOpcode entry = 0x38 ∧ bitOf (eParam entry 0 4) 0 = true then some (eParam entry 4 6)
  else none

/-- The reference bar of a command: that of the page of the first pair of a REG_WRITE with APPLY, else COMMIT_REF (R39, R75).
DESIGN CHOICE (log 37): R75 does not say whose bar it is when the pairs span pages. -/
def commandBar (s : State) (entry data : List Byte) : Nat :=
  if eOpcode entry = 0x21 ∧ bitOf (eParam entry 4 4) 0 = true ∧ bytesAt data 0 4 < 0x400000 then
    pageBar s (bytesAt data 0 4 / 4096)
  else refBar s

/-- Writes a command into the journal in state Accepted; in a pair it is an input of kind COMMAND (R79, R348). -/
def journalEntry (s : State) (slot n ring seq : Nat) (entry data : List Byte) : State :=
  let known := opcodeKnown (getSession s n) ring (eOpcode entry)
  let pairCmd := s.pair.role != 0 && isActive s
  let e : JEntry :=
    { stamp := s.host.nextStamp, session := n, seq := seq, ring := ring, entry := entry, data := data,
      state := 0, progress := 0, status := 0, result0 := 0, result1 := 0, result := [], imageLine := 0,
      ptNs := 0, ptSec := 0, webPos := 0, replayed := false, peer := false, written := false,
      withheld := pairCmd && (partnered s || s.pair.soloWait), late := false, ready := !pairCmd, pairSeq := 0,
      wpos := none, waiting := false }
  let s := { s with host := { s.host with nextStamp := s.host.nextStamp + 1 } }
  let s := count (setEntry s slot e) pgJrn 0
  let s := if pairCmd then
      takeInput s 1 (commandBar s entry data) (commandLine entry) (leBytes 4 n ++ leBytes 4 seq ++ entry ++ data)
    else s
  let s := if pairCmd && partnered s then setEntry s slot { e with pairSeq := s.pair.txSeq } else s
  if known = false then finishStatus s slot stBadOpcode
  else if isActive s = false ∧ anyRoleOp (eOpcode entry) = false then finishStatus s slot stNotActive
  else s

/-- How the acceptance of one command ended. -/
inductive Accepted where
  | taken | busy | again | ahead
deriving DecidableEq, Repr

/-- Takes one command in SEQ order, or tells why not (R72, R73, R80). The standby learns of the accepted SEQ after the
command itself (R79). -/
def acceptCommand (s : State) (n ring seq : Nat) (entry data : List Byte) : Accepted × State :=
  let ss := getSession s n
  if seq = nextSeq ss.accepted then
    match freeEntry s with
    | none => (.busy, s)
    | some slot =>
      if ss.window ≤ windowOf s n ∧ ss.state = 1 then (.busy, s)
      else
        let s := setSession s n { ss with accepted := seq }
        let s := if eCrcOk entry = false then completeError s n ring seq entry stBadCrc
          else if ss.state = 2 then completeError s n ring seq entry stClosing
          else journalEntry s slot n ring seq entry data
        (.taken, shareSession s n)
  else if seqLe seq ss.accepted && seq != 0 then (.again, s)
  else (.ahead, s)

/-- A command whose SEQ was accepted before is not run again; a complete one is answered again with REPLAYED, from the
journal or, retired, from the kept completions (R72). On the rings it is written again once its ring has a slot. -/
def answerAgain (s : State) (n seq : Nat) : State :=
  let s := count s pgJrn 1
  match (entriesOf s n).find? (fun e => e.2.seq == seq) with
  | some x => if x.2.state = 2 then deliver (setEntry s x.1 { x.2 with replayed := true }) x.1 else s
  | none =>
    match (s.host.retired.reverse).find? (fun e => e.session == n && e.seq == seq && !e.peer) with
    | some e =>
      let e := { e with replayed := true, written := false, wpos := none }
      if n = 0 then { s with host := { s.host with errs := s.host.errs ++ [e] } } else sendComplete s e
    | none => s

/-- Takes the entries of a CMD message from entry `i` on: true when BUSY is the answer. -/
def acceptAll (s : State) (n : Nat) (m : List Byte) : Nat → Nat → Bool × State
  | _, 0 => (false, s)
  | i, k + 1 =>
    let e := gEntry m i
    let body := m.drop 32
    let data := (body.drop (eDataAddr e)).take (eDataLen e)
    match acceptCommand s n 0xFF (eSeq e) e data with
    | (.busy, s) => (true, s)
    | (.again, s) => acceptAll (answerAgain s n (eSeq e)) n m (i + 1) k
    | (_, s) => acceptAll s n m (i + 1) k

/-- CMD (R62, R64, R72, R73, R79, R80). -/
def execCmd (m : UdpMsg) (s : State) : Host.Outcome State Fault Refusal :=
  .next <| onSession s m 0x10 (fun s n =>
    if (getSession s n).major = 2 ∧ gCount m.data ≠ 1 then gshDiscard s
    else
      let s := hostAck s n m.data
      if (freeEntry s).isNone then sendHeader (count s pgJrn 3) n 0x12
      else match acceptAll s n m.data 0 (gCount m.data) with
        | (true, s) => sendHeader (count s pgJrn 3) n 0x12
        | (false, s) => sendHeader s n 0x11)

/-! ### Running commands -/

/-- Every earlier command of an entry's session meets a test. -/
def earlierAll (s : State) (e : JEntry) (p : JEntry → Bool) : Bool :=
  s.host.journal.all (fun x =>
    !(x.2.session == e.session && x.2.peer == e.peer && decide (x.2.stamp < e.stamp)) || p x.2)

/-- The command in a journal entry may start: it is Accepted with this opcode, its apply-line is reached, with FENCE
every earlier command of its session is Done, and, replayed, every earlier one has been started again (R82). -/
def startable (s : State) (slot op : Nat) : Option JEntry :=
  match getEntry s slot with
  | some e =>
    if e.state = 0 ∧ e.ready = true ∧ e.waiting = false ∧ eOpcode e.entry = op ∧
        (eFence e.entry = true → earlierAll s e (fun x => x.state == 2) = true) ∧
        (e.inReplay = true → earlierAll s e (fun x => x.state != 0) = true)
    then some e else none
  | none => none

/-- Runs a command of the journal that may start. -/
def onEntry (s : State) (slot op : Nat) (act : State → JEntry → State) : State :=
  match startable s slot op with
  | some e => act s e
  | none => s

/-- The command came over the PCIe rings. -/
def onRing (e : JEntry) : Bool := e.session == 0

/-- The data of a command are as long as its entry says (R76). -/
def dataInside (e : JEntry) : Bool := e.data.length == eDataLen e.entry

/-- DATA_CRC holds over the data (R95). -/
def dataCrcOk (e : JEntry) : Bool := eDataLen e.entry == 0 || crc32c e.data == eDataCrc e.entry

/-- Result data fit: in one COMPLETE message on UDP (R76). -/
def resultFits (s : State) (e : JEntry) (len : Nat) : Bool :=
  onRing e || decide (32 + 64 + len ≤ (getSession s e.session).maxMsg)

/-- Runs a command whose input data are limited and covered by DATA_CRC (R76, R95). -/
def withData (s : State) (slot : Nat) (e : JEntry) (ringMax : Nat) (act : State → State) : State :=
  if dataInside e = false ∨ (onRing e = true ∧ ringMax < eDataLen e.entry) then finishStatus s slot stBadParam
  else if dataCrcOk e = false then finishStatus s slot stBadCrc
  else act s

/-- NOP (R72). -/
def execNop (slot : Nat) (s : State) : Host.Outcome State Fault Refusal :=
  .next <| onEntry s slot 3 (fun s _ => finishStatus s slot stOk)

/-- HELLO on ring 0 (R63, R64, R67, R77). DESIGN CHOICE (log 31): while session 0 is open it completes with NO_SESSION, and
the MAX_MSG that it gives is the largest message of R59, though the rings carry no messages. One that another unit's
rings have brought opens nothing here: each unit's PCIe session is its own (R87). -/
def execHelloRing (slot : Nat) (s : State) : Host.Outcome State Fault Refusal :=
  .next <| onEntry s slot 1 (fun s e =>
    if e.peer then finishStatus s slot stOk else
    let ver := chooseVersion (eParam e.entry 0 2) (eParam e.entry 2 2)
    let ans (s : State) (st n : Nat) : State :=
      let ss := getSession s 0
      finish s slot st ((if st = 0 then ver else 0) + 65536 * st) (if st = 0 then ss.id else 0)
        (if st = 0 then helloAckEntry s ver 0 ss.window ss.id ss.maxMsg n ss.accepted
         else helloAckEntry s ver st 0 0 0 0 0) 0
    if eDataLen e.entry ≠ 64 then finishStatus s slot stBadParam
    else if ver / 256 ≠ 3 then ans s stVersion 0
    else if (getSession s 0).state ≠ 0 then ans s stNoSession 0
    else
      let ss : Session :=
        { state := 1, id := Config.sessionId s.host.nextSessionId % 2 ^ 64, major := 3,
          minor := ver % 256, window := grantWindow (eParam e.entry 4 4), maxMsg := 9554, accepted := 0 }
      let s := setSession { s with host := { s.host with nextSessionId := s.host.nextSessionId + 1 } } 0 ss
      let s := (entriesOf s 0).foldl (fun s x => if x.2.state = 2 ∧ x.2.written = true then
        setEntry s x.1 { x.2 with written := false, wpos := none, replayed := true } else s) s
      ans s stOk 0)

/-- CLOSE on ring 0 (R66, R67); one that another unit's rings have brought closes nothing here (R87). -/
def execCloseRing (slot : Nat) (s : State) : Host.Outcome State Fault Refusal :=
  .next <| onEntry s slot 2 (fun s e =>
    finishStatus (if e.peer then s else setSession s 0 { getSession s 0 with state := 2 }) slot stOk)

/-- A message of host software for session n has been received and is not yet processed (R66, R8). -/
def messageWaits (s : State) (n : Nat) : Bool :=
  s.host.rx.any (fun m => gWellFormed m.data && sessionOf s m == some n)

/-- A HELLO that resumes session n has been received and is not yet processed (R66, R8). -/
def helloWaits (s : State) (n : Nat) : Bool :=
  let ss := getSession s n
  s.host.rx.any (fun m => gWellFormed m.data && gType m.data == 1 && m.srcAddr == ss.srcAddr &&
    bytesAt (gEntry m.data 0) 8 8 == ss.id)

/-- A Suspended session is discarded, its entries retired, SESSION_LOST recorded (R66). -/
def discardSession (s : State) (n : Nat) : State :=
  let id := (getSession s n).id
  fault (putSession (forgetSession s n) n {}) 0x0201 1 pgGsh noBar [n, id % 2 ^ 32, id / 2 ^ 32]

/-- SESSION_TIMEOUT (R66): an Open session becomes Suspended, and with RESUME_LIMIT 0 is discarded at once; session 0 never
does (R67). -/
def execSessionTimeout (n : Nat) (s : State) : Host.Outcome State Fault Refusal :=
  .next <| if decide (1 ≤ n) && decide (n ≤ 16) && (getSession s n).state == 1 && !messageWaits s n then
      let s := putSession s n { getSession s n with state := 3 }
      if rdf s (ra pgGsh 0x48) 11 0 = 0 then discardSession s n else s
    else s

/-- RESUME_LIMIT (R66): a Suspended session is discarded. -/
def execResumeLimit (n : Nat) (s : State) : Host.Outcome State Fault Refusal :=
  .next <| if decide (1 ≤ n) && decide (n ≤ 16) && (getSession s n).state == 3 && !helloWaits s n then discardSession s n
    else s

/-! ### Rings (R68 to R71) -/

def subRing (q : Nat) : Nat := ra (pgGsh + 1) (0x40 + 0x20 * q)
def cplRing (q : Nat) : Nat := ra (pgGsh + 2) (0x40 + 0x20 * q)
def ringEn (s : State) (a : Nat) : Bool := rdb s (a + 8) 31
def ringSize (s : State) (a : Nat) : Nat := 2 ^ rdf s (a + 8) 3 0
def ringHead (s : State) (a : Nat) : Nat := rdf s (a + 0xC) 11 0
def ringTail (s : State) (a : Nat) : Nat := rdf s (a + 0x10) 11 0

/-- A doorbell value is usable: the ring is enabled and the value below its size (R68). -/
def doorbellOk (s : State) (a v : Nat) : Bool := ringEn s a && decide (v < ringSize s a)

/-- GSH.EV_PEND.RING_ERR. -/
def ringErr (s : State) : State := ev s pgGsh 8

/-- SUBMISSION_DOORBELL (R68, R71). -/
def execSubmissionDoorbell (q tail : Nat) (s : State) : Host.Outcome State Fault Refusal :=
  let v := tail % 2 ^ 12
  .next <| if 32 ≤ q then s
    else if doorbellOk s (subRing q) v then wr s (subRing q + 0x10) v else ringErr s

/-- SEQ up to which session 0 has retired its commands: before the first that remains, or the last accepted. -/
def ringRetired (s : State) : Nat :=
  ((entriesOf s 0).map (fun e => e.2.seq)).foldl (fun a q => if seqLe q a then (if q = 1 then 0 else q - 1) else a)
    (getSession s 0).accepted

/-- An active unit of a pair forwards what its rings have retired (12, RETIRE). -/
def forwardRetired (s : State) (old : Nat) : State :=
  if partnered s && ringRetired s != old then
    pairSendSeq (count s pgPair 3) 0x10 0
      (inputBody 2 false false (applyLine s (refBar s) none).1 (refBar s) (leBytes 4 0 ++ leBytes 4 (ringRetired s)))
  else s

/-- COMPLETION_DOORBELL (R68, R70): retires the completions that the head passes. -/
def execCompletionDoorbell (q head : Nat) (s : State) : Host.Outcome State Fault Refusal :=
  let v := head % 2 ^ 12
  let a := cplRing q
  .next <| if 32 ≤ q then s
    else if doorbellOk s a v then
      let sz := ringSize s a
      let h := ringHead s a
      let passed (i : Nat) : Bool := decide ((i + sz - h) % sz < (v + sz - h) % sz)
      let gone (e : JEntry) : Bool := e.written && (if e.peer then q == 0 else e.session == 0 && e.ring == q) &&
        (match e.wpos with | some i => passed i | none => false)
      let old := ringRetired s
      closeIfDone (forwardRetired (wr (freeEntries s gone) (a + 0xC) v) old) 0
    else ringErr s

/-- The entry at HEAD of ring q is journalled and its acknowledgement withheld (R69, R79). -/
def ringHeld (s : State) (q : Nat) : Bool :=
  s.host.journal.any (fun e => e.2.session == 0 && !e.2.peer && e.2.ring == q && e.2.withheld)

/-- HEAD of submission ring q advances: the entry is acknowledged (R69). -/
def advanceHead (s : State) (q : Nat) : State :=
  wr s (subRing q + 0xC) ((ringHead s (subRing q) + 1) % ringSize s (subRing q))

/-- SUBMISSION_FETCH (R69, R72, R73, R80): the entry at HEAD of ring q, with its data read from host memory. While the
window is full nothing is fetched. DESIGN CHOICE (log 35): an entry with a SEQ above the next stays at HEAD, so that its
ring stalls until the next SEQ comes by another ring; and while session 0 is in Listen every command but a HELLO on
ring 0 completes with NO_SESSION. -/
def execSubmissionFetch (q : Nat) (entry data : List Byte) (s : State) : Host.Outcome State Fault Refusal :=
  let a := subRing q
  let e := padTo 64 entry
  .next <|
    if 32 ≤ q ∨ ringEn s a = false ∨ ringHead s a = ringTail s a ∨ (freeEntry s).isNone = true ∨ ringHeld s q = true ∨
        ((getSession s 0).state = 1 ∧ (getSession s 0).window ≤ windowOf s 0) then s
    else
      let s := demand s 2 (64 + data.length)
      let adv (s : State) : State := if ringHeld s q then s else advanceHead s q
      let ss := getSession s 0
      if ss.state = 0 then
        if q = 0 ∧ eOpcode e = 1 ∧ eCrcOk e = true then
          adv (journalEntry s ((freeEntry s).getD 0) 0 q (eSeq e) e data)
        else adv (completeError s 0 q (eSeq e) e (if eCrcOk e then stNoSession else stBadCrc))
      else
        match acceptCommand s 0 q (eSeq e) e data with
        | (.taken, s) => adv s
        | (.busy, s) => s
        | (.again, s) => adv (answerAgain s 0 (eSeq e))
        | (.ahead, s) => s

/-- The oldest of the completions that wait for completion ring q. -/
def oldest (xs : List (Nat × JEntry)) : Option (Nat × JEntry) :=
  xs.foldl (fun best x => match best with
    | some y => if x.2.stamp < y.2.stamp then some x else best
    | none => some x) none

/-- Done entries whose completion waits for ring q (R70); those of the former active wait for ring 0 of the unit that has
taken over (R87). -/
def waitingFor (s : State) (q : Nat) : List (Nat × JEntry) :=
  s.host.journal.filter (fun x => x.2.state == 2 && !x.2.written &&
    (if x.2.peer then isActive s && q == 0 && x.2.session == 0 else x.2.session == 0 && x.2.ring == q))

/-- Host address of the result data of a command on the rings (R77). -/
def resultAddr (e : List Byte) : Nat := if eOpcode e = 0x30 then eParam e 8 8 else eDataAddr e

/-- Writes one completion at TAIL of ring q: the result data first, then the entry with the phase, then the vector. -/
def writeCompletion (s : State) (q : Nat) (e : JEntry) : State :=
  let a := cplRing q
  let phase := tget (fun _ => true) s.host.phase q
  let t := ringTail s a
  let t' := (t + 1) % ringSize s a
  let s := if e.result.isEmpty then s else send s (.host (resultAddr e.entry) e.result)
  let s := send s (.host (rd64 s a / 4096 * 4096 + 64 * t) (completionEntry s e phase))
  let s := wr s (a + 0x10) t'
  let s := if t' = 0 then { s with host := { s.host with phase := tset s.host.phase q (!phase) } } else s
  msix s (rdf s (a + 8) 20 15)

/-- COMPLETION_WRITE (R70): once a slot of the ring is free and session 0 is open. -/
def execCompletionWrite (q : Nat) (s : State) : Host.Outcome State Fault Refusal :=
  let a := cplRing q
  .next <|
    if 32 ≤ q ∨ ringEn s a = false ∨ (ringTail s a + 1) % ringSize s a = ringHead s a then s
    else match s.host.errs.find? (fun e => e.ring == q) with
      | some e => writeCompletion { s with host := { s.host with errs := s.host.errs.erase e } } q e
      | none =>
        if (getSession s 0).state = 0 ∧ (waitingFor s q).all (fun x => eOpcode x.2.entry != 1) = true then s
        else match oldest ((waitingFor s q).filter (fun x => (getSession s 0).state != 0 || eOpcode x.2.entry == 1)) with
          | some x =>
            let t := ringTail s a
            setEntry (writeCompletion s q x.2) x.1 { x.2 with written := true, wpos := some t }
          | none => s

/-- PCIE_LINK_LOSS (R67): session 0 closes; its completions stay in the journal. DESIGN CHOICE (log 36): it goes straight to
Listen, so that a new HELLO can open it while completions are held, and not through Closing. -/
def execPcieLinkLoss (s : State) : Host.Outcome State Fault Refusal :=
  .next <| setSession s 0 {}

/-! ### The journal across a reset (R78, R82) -/

/-- JOURNAL_REPLAY (R82): after a reset that kept image memory, once it is trained. An entry that was Running goes on at the
step after its progress count when its command runs again; all keep their order within each session. -/
def execJournalReplay (s : State) : Host.Outcome State Fault Refusal :=
  .next <|
    if rdb s (ra pgJrn 0x40) 17 then
      let s := wrf s (ra pgJrn 0x40) 17 17 0
      s.host.journal.foldl (fun s x =>
        let e := x.2
        let s := count s pgJrn 2
        if e.state = 2 then deliver (setEntry s x.1 { e with replayed := true, written := false, wpos := none }) x.1
        else setEntry s x.1 { e with state := 0, ready := true, inReplay := true,
                                     late := e.late || (e.waiting && printing s (refBar s) == false),
                                     waiting := false }) s
    else s

/-! ### Discovery (R84, R85) -/

/-- The 96-byte announcement (R84). -/
def announcement (s : State) : List Byte :=
  let free := ((List.range 16).filter (fun i => (getSession s (i + 1)).state == 0)).length
  let formed := s.pair.role == 2 || s.pair.role == 5
  leBytes 4 0x2608 ++ leBytes 1 0xB1 ++ leBytes 2 (rd s (ra pgSys 0x44) / 2 ^ 16 % 2 ^ 16) ++
    leBytes 1 (b2n (unitA s) + 2 * hostRole s + 8 * b2n formed + 16 * b2n (free != 0)) ++ leBytes 8 Config.serial ++
    leBytes 4 0x03040300 ++ leBytes 2 (rdf s (ra pgGsh 0x40) 15 0) ++ leBytes 2 free ++
    leBytes 4 (rd s (ra pgGsh 0x60)) ++ leBytes 4 (rd s (ra pgGsh 0x4C)) ++ leBytes 16 (rd128 s (ra pgGsh 0x64)) ++
    leBytes 16 (rd128 s (ra pgGsh 0x50)) ++ padTo 32 Config.pressName

/-- The groups that announcements go to: 239.192.46.80, and ff02::4680 (R84). -/
def announceV4 : Nat := 0xEFC02E50
def announceV6 : Nat := 0xFF02 * 2 ^ 112 + 0x4680

/-- The way of an announcement: from the unit address to a group at the Gisha UDP port (R84). -/
def announcePath (s : State) (p g : Nat) : UdpPath :=
  { service := false, addr := g, port := rdf s (ra pgGsh 0x40) 15 0, tag := portTag s p }

/-- The groups of the protocols that are on. -/
def announceGroups (s : State) : List Nat :=
  (if ipv4On s then [announceV4] else []) ++ (if ipv6On s then [announceV6] else [])

/-- ANNOUNCE (R84). -/
def execAnnounce (s : State) : Host.Outcome State Fault Refusal :=
  let noOpen := (List.range 17).all (fun n => (getSession s n).state != 1)
  let unformed := pairMode s && s.pair.role != 2 && s.pair.role != 5
  .next <|
    if rdb s (ra pgGsh 0x40) 29 && (noOpen || unformed) then
      let c := s.host.annCount
      let m := gMessage 4 3 0x08 0 0 c 0 [] (announcement s)
      let s := { s with host := { s.host with annCount := (c + 1) % 2 ^ 32 } }
      (hostPorts s).foldl (fun s p => (announceGroups s).foldl (fun s g => send s (.udp p 0 (announcePath s p g) m)) s) s
    else s

/-- GRATUITOUS_ARP (R85): at once and again 100 ms and 200 ms after the unit became active. -/
def execGratuitousArp (s : State) : Host.Outcome State Fault Refusal :=
  .next <|
    if s.host.arpLeft = 0 ∨ isActive s = false then s
    else
      let s := { s with host := { s.host with arpLeft := s.host.arpLeft - 1 } }
      (hostPorts s).foldl (fun s p =>
        let s := if ipv4On s then send s (.ethAnnounce p false (rd s (ra pgGsh 0x60)) (portTag s p)) else s
        if ipv6On s then send s (.ethAnnounce p true (rd128 s (ra pgGsh 0x64)) (portTag s p)) else s) s

end Sys2Proof.Machine
end

