-- ==== Sys2Proof/Machine/Firn.lean ====
section
/-! DEFINITION. Jobs, tiles and the Firn store (04): definition and release of jobs, arrival and the store check, thaw,
recovery of a failed checksum, and freeze. -/

namespace Sys2Proof.Machine

open Sys2Proof

/-! ### Tiling of a job (R88 to R90, R102) -/

/-- Image lines and columns per contone pixel (R191). -/
def Job.u (j : Job) : Nat := if j.dpi1200 then 1 else 2

/-- Width and height of tile (x, y) in pixels and contone lines (R88). -/
def Job.tileW (j : Job) (x : Nat) : Nat := min 2048 (j.width - 2048 * x)
def Job.tileH (j : Job) (y : Nat) : Nat :=
  if j.repeatLen ≠ 0 ∨ j.length = 0 then 16 else min 16 (j.length - 16 * y)

/-- Tile rows that have descriptors (R102); `ring` is FIRN.RING_ROWS. -/
def tileRows (length repeatLen ring : Nat) : Nat :=
  if repeatLen ≠ 0 then repeatLen / 16 else if length ≠ 0 then ceilDiv length 16 else ring

/-- The job is open-ended: no length and no repeat (R103). -/
def Job.openEnded (j : Job) : Bool := j.length == 0 && j.repeatLen == 0

/-- The declared size of a tile (R88). -/
def Job.tileSize (j : Job) (x y : Nat) : Nat := j.tileW x * j.tileH y

/-! ### Space (R94, R101, R102, R511) -/

/-- Committed regions of image memory in bytes (R101). -/
def storeBase (s : State) : Nat := cmf s (ra pgFirn 0x40) 17 0 * 2 ^ 20
def storeSize (s : State) : Nat := cmf s (ra pgFirn 0x44) 17 0 * 2 ^ 20
def winBase (s : State) : Nat := cmf s (ra pgFirn 0x48) 17 0 * 2 ^ 20
def winSize (s : State) : Nat := cmf s (ra pgFirn 0x4C) 17 0 * 2 ^ 20
def descCount (s : State) : Nat := cmf s (ra pgFirn 0x54) 21 0

/-- Bytes of a container rounded up to 256 B (R94). -/
def grans (len : Nat) : Nat := ceilDiv len 256

/-- Bytes that a job takes from the store: its reservation, or its allocations when it reserves nothing. -/
def jobTakes (j : Job) : Nat := if j.quota = 0 then j.alloc else j.quota

/-- The part of the store neither allocated nor reserved (R511). -/
def storeFree (s : State) : Nat := storeSize s - (s.print.jobs.map jobTakes).sum

/-- Granule ranges in use: stored containers, arriving containers and frozen copies. -/
def granUse (s : State) : List (Nat × Nat) :=
  s.print.tiles.flatMap (fun t =>
    (if t.length = 0 then [] else [(t.gran, grans t.length)]) ++
      (match t.arriving with | some a => [(a.1, grans a.2.1)] | none => []) ++
      (match t.frozen with | some f => [(f.1, grans f.2.1)] | none => []))

/-- The lowest start from which `n` units are free of the ranges in use and lie below `top`. -/
def firstFit (use : List (Nat × Nat)) (n top : Nat) : Option Nat :=
  let starts := 0 :: use.map (fun r => r.1 + r.2)
  let free (a : Nat) : Bool := decide (a + n ≤ top) && use.all (fun r => decide (a + n ≤ r.1) || decide (r.1 + r.2 ≤ a))
  starts.foldl (fun best a => if free a then (match best with | some b => some (min a b) | none => some a) else best) none

/-- Byte address of a granule of the store. -/
def granAddr (s : State) (g : Nat) : Nat := storeBase s + 256 * g

/-- Print window slots in use. -/
def slotsUsed (s : State) : List Nat :=
  (s.print.tiles.filter (fun t => t.state == 4 || t.slot != 0)).map (fun t => t.slot - 1)

/-- The lowest free slot of the print window. `Tile.slot` holds the slot plus one, 0 for none. -/
def freeSlot (s : State) : Option Nat :=
  (List.range (slotsUsed s).length.succ).find? (fun k => !(slotsUsed s).contains k && decide (32768 * (k + 1) ≤ winSize s))

/-- Byte address of a slot. -/
def slotAddr (s : State) (k : Nat) : Nat := winBase s + 32768 * k

/-- Writes image memory; blocks of a copied region become dirty during step 3 of a join (R357). -/
def writeMem (s : State) (a : Nat) (bs : List Byte) : State :=
  { s with dram := { s.dram with mem := memWrite s.dram.mem a bs } }

/-- Marks the 64 KiB blocks of a range dirty while the joining unit copies regions (R357). -/
def markDirty (s : State) (a len : Nat) : State :=
  if s.pair.role = 3 ∧ s.pair.joinStep = 3 ∧ len ≠ 0 then
    let bs := (List.range ((a + len - 1) / 65536 - a / 65536 + 1)).map (fun i => a / 65536 + i)
    { s with pair := { s.pair with dirty := s.pair.dirty ++ bs.filter (fun b => !s.pair.dirty.contains b) } }
  else s

/-- The containers in the store by tile: which of the tile's three (0 stored, 1 arriving, 2 frozen), granule, length. -/
def containers (s : State) : List (Tile × Nat × Nat × Nat) :=
  s.print.tiles.flatMap (fun t =>
    (if t.length = 0 then [] else [(t, 0, t.gran, t.length)]) ++
      (match t.arriving with | some a => [(t, 1, a.1, a.2.1)] | none => []) ++
      (match t.frozen with | some f => [(t, 2, f.1, f.2.1)] | none => []))

/-- Inserts a container in the order of granules. -/
def insertCont (c : Tile × Nat × Nat × Nat) : List (Tile × Nat × Nat × Nat) → List (Tile × Nat × Nat × Nat)
  | [] => [c]
  | d :: r => if c.2.2.1 ≤ d.2.2.1 then c :: d :: r else d :: insertCont c r

/-- Moves one container to granule `g`. -/
def moveCont (s : State) (c : Tile × Nat × Nat × Nat) (g : Nat) : State :=
  match findTile s c.1.job c.1.plane c.1.x c.1.y with
  | none => s
  | some t =>
    let s := writeMem (markDirty s (granAddr s g) c.2.2.2) (granAddr s g)
      (memRead s.dram.mem (granAddr s c.2.2.1) c.2.2.2)
    setTile s (if c.2.1 = 0 then { t with gran := g }
      else if c.2.1 = 1 then { t with arriving := t.arriving.map (fun a => (g, a.2)) }
      else { t with frozen := t.frozen.map (fun f => (g, f.2)) })

/-- Moves all containers together, lowest granule first, so that the free granules of the store form one range. -/
def compactStore (s : State) : State :=
  (((containers s).foldr insertCont []).foldl (fun x c => (moveCont x.1 c x.2, x.2 + grans c.2.2.2)) (s, 0)).1

/-- The store with a range for `n` granules, and where it starts. DESIGN CHOICE (log 43): R94 refuses only for want of
space, so when the free granules do not adjoin, the containers are first moved together. -/
def placeStore (s : State) (n : Nat) : Option (Nat × State) :=
  match firstFit (granUse s) n (storeSize s / 256) with
  | some g => some (g, s)
  | none => (firstFit (granUse (compactStore s)) n (storeSize s / 256)).map (fun g => (g, compactStore s))

/-- `bytes` more of a job's tiles fit: within its quota, or, for a job that reserves nothing, in the part of the store that
no job has reserved and no tile holds (R94, R511). -/
def jobFits (s : State) (j : Job) (bytes : Nat) : Bool :=
  if j.quota = 0 then decide (bytes ≤ storeFree s) else decide (j.alloc + bytes ≤ j.quota)

/-! ### Faults of tiles -/

/-- Detail words of a tile fault (04). -/
def tileDetail (t : Tile) : List Nat := [t.job, t.plane, t.x, t.y % 2 ^ 32]

/-- Records a tile fault of class B. -/
def tileFault (s : State) (t : Tile) (code evBit : Nat) (at? : Option (Nat × Int)) : State :=
  faultAt (ev s pgFirn evBit) code 1 pgFirn t.plane (tileDetail t) at?

/-! ### Jobs (R511, R102, R107) -/

/-- Descriptor ranges in use. -/
def descUse (s : State) : List (Nat × Nat) := s.print.jobs.map (fun j => (j.descBase, j.descs))

/-- JOB_DEFINE of a journalled entry. -/
def jobDefine (s : State) (slot : Nat) (e : JEntry) : State :=
  let p := e.entry
  let mask := eParam p 0 1
  let hi := bitOf (eParam p 1 1) 0
  let width := eParam p 4 4
  let len := eParam p 8 6
  let rep := eParam p 0x10 6
  let quota := eParam p 0x18 4 * 2 ^ 20
  let rows := tileRows len rep (rdf s (ra pgFirn 0x58) 15 0)
  let j : Job :=
    { number := eJob p, mask := mask, dpi1200 := hi, width := width, length := len, repeatLen := rep, quota := quota,
      alloc := 0, descBase := 0, descRows := rows, ringBase := 0, started := false, startSlot := none, held := false,
      mode := 0, arg := 0 }
  if (findJob s (eJob p)).isSome = true ∨ mask = 0 ∨ width = 0 ∨ (if hi then 131072 else 65536) < width ∨
      rep % 16 ≠ 0 then finishStatus s slot stBadParam
  else if storeFree s < quota then finishStatus s slot stNoSpace
  else match firstFit (descUse s) (j.planes * j.across * rows) (descCount s) with
    | none => finishStatus s slot stNoSpace
    | some b => finish (setJob s { j with descBase := b }) slot stOk quota 0 [] 0

/-- JOB_DEFINE (R88, R90, R102, R511). -/
def execJobDefine (slot : Nat) (s : State) : Host.Outcome State Fault Refusal :=
  .next <| onEntry s slot 0x10 (fun s e => jobDefine s slot e)

/-- Addresses of PIN.OWN_THAWe. -/
def ownThaw (e : Nat) : Nat := ra pgPin (0x100 + 4 * e)
def thawOwner (s : State) (e : Nat) : Nat := rdf s (ownThaw e) 3 0

/-- THAW.PRINT_HELD follows the owners. -/
def syncHeld (s : State) : State :=
  wr s (ra pgThaw 0x50) ((List.range 24).filter (fun e => thawOwner s e == 1)).length

/-- Engines that PRINT holds. -/
def printHeld (s : State) : Nat := ((List.range 24).filter (fun e => thawOwner s e == 1)).length

/-- Claims free engines for PRINT in ascending order, up to PRINT_ENGINES (R107). -/
def claimPrint (s : State) : State :=
  syncHeld ((List.range 24).foldl (fun s e =>
    if thawOwner s e = 0 ∧ printHeld s < rdf s (ra pgThaw 0x40) 4 0 then wrf s (ownThaw e) 3 0 1 else s) s)

/-- Releases the PRINT engines when no job is defined (R107). -/
def releasePrint (s : State) : State :=
  if s.print.jobs.isEmpty then
    syncHeld ((List.range 24).foldl (fun s e => if thawOwner s e = 1 then wrf s (ownThaw e) 3 0 0 else s) s)
  else s

/-- Marks an engine as working or idle: THAW.BUSY and IN_USE. -/
def engineBusy (s : State) (e : Nat) (on : Bool) : State :=
  wrf (wrf s (ra pgThaw 0x48) e e (b2n on)) (ownThaw e) 31 31 (b2n on)

/-- Ends a job's commands that wait: JOB_START that is armed, and TILE_PUTs in progress (status ABORTED). -/
def abortJob (s : State) (job : Nat) : State :=
  s.host.journal.foldl (fun s x =>
    if eJob x.2.entry = job ∧ x.2.state = 1 ∧ (eOpcode x.2.entry = 0x11 ∨ eOpcode x.2.entry = 0x18) then
      finishStatus s x.1 stAborted else s) s

/-- Bars of a job: the bars of its planes that print or are armed for it. -/
def jobBars (s : State) (job : Nat) : List Nat :=
  (List.range 8).filter (fun b => ((getBar s b).printing || (getBar s b).armed || (getBar s b).stopping) &&
    (getBar s b).job == job)

/-- JOB_RELEASE of a journalled entry: bars of the job stop, and its number, reservation, tiles, allocations and
descriptors are freed. -/
def jobRelease (s : State) (slot : Nat) (e : JEntry) : State :=
  match findJob s (eJob e.entry) with
  | none => finishStatus s slot stBadParam
  | some j =>
    let s := stopBars s (jobBars s j.number)
    let s := abortJob s j.number
    let s := (s.print.tiles.filter (fun t => t.job == j.number)).foldl
      (fun s t => markDirty s (granAddr s t.gran) t.length) s
    let s := { s with print := { s.print with
        jobs := s.print.jobs.filter (fun x => x.number != j.number),
        tiles := s.print.tiles.filter (fun t => t.job != j.number),
        thawQueue := s.print.thawQueue.filter (fun q => q.2.1 != j.number) } }
    finish (releasePrint s) slot stOk (jobTakes j) 0 [] 0

/-- JOB_RELEASE (R106, R107, R511, R512). -/
def execJobRelease (slot : Nat) (s : State) : Host.Outcome State Fault Refusal :=
  .next <| onEntry s slot 0x13 (fun s e => jobRelease s slot e)

/-! ### Arrival (R74, R94 to R98) -/

/-- A tile of which nothing has arrived. -/
def newTile (job plane x y : Nat) : Tile :=
  { job := job, plane := plane, x := x, y := y, state := 0, storedFmt := false, pinned := false, refrozen := false,
    recovered := false, gran := 0, length := 0, compLen := 0, size := 0, storeCrc := 0, contentCrc := 0, slot := 0,
    storageCrc := 0, lastErr := 0, arriving := none, recovery := 0, retried := false, avoid := 24, absent := [],
    failed := [], lateSeen := false, fetchLate := false, frozen := none, blankAt := none }

/-- A tile, or one of which nothing has arrived. -/
def tileOr (s : State) (job plane x y : Nat) : Tile := (findTile s job plane x y).getD (newTile job plane x y)

/-- Where a tile named in a command lies (R74, R103). -/
inductive Place where
  | inside | outside | beyondRing
deriving DecidableEq, Repr

/-- The checks of R74 on the tile that an entry names. -/
def placeOf (j : Job) (plane x y : Nat) : Place :=
  if bitOf j.mask plane = false ∨ j.across ≤ x then .outside
  else if j.openEnded then
    (if y < j.ringBase then .outside else if j.ringBase + j.descRows ≤ y then .beyondRing else .inside)
  else if y < j.descRows then .inside else .outside

/-- Changes the bytes a job has allocated. -/
def jobAlloc (s : State) (job : Nat) (f : Nat → Nat) : State :=
  match findJob s job with
  | some j => setJob s { j with alloc := f j.alloc }
  | none => s

/-- Discards what has arrived of a container: its allocation is freed, and a tile that was PARTIAL becomes ABSENT (R95,
R96, R98). -/
def discardArriving (s : State) (t : Tile) : State :=
  match t.arriving with
  | some a =>
    let s := markDirty s (granAddr s a.1) a.2.1
    let s := jobAlloc s t.job (fun n => n - 256 * grans a.2.1)
    if t.state = 1 then setTile s { t with state := 0, arriving := none } else setTile s { t with arriving := none }
  | none => s

/-- The throttle level and whether throttled work may begin in the present slot (R436). -/
def mayThrottled (s : State) : Bool := decide (ptTotalNs s / 128000 % 8 < 8 - s.power.level)

/-- The thaw line of tile row y lies more than 2 x THAW.DIST contone lines beyond the build line of its bar (R436). -/
def farTile (s : State) (j : Job) (plane y : Nat) : Bool :=
  let br := getBar s plane
  printing s plane && br.job == j.number &&
    decide (((buildLineI s plane).toNat / j.u) + 3 * cmf s (ra pgThaw 0x44) 13 0 < 16 * y)

/-- TILE_PUT of a journalled entry: its checks, the allocation of the first fragment, and the start of the store. The
throttle does not hold it back while a partner stores the tile at the same line (R99). DESIGN CHOICE (log 40): a fragment
of no bytes completes with BAD_PARAM. -/
def tilePut (s : State) (slot : Nat) (e : JEntry) : State :=
  let p := e.entry
  let total := eParam p 0 4
  let ofs := eParam p 4 4
  let plane := eParam p 8 1 % 8
  let x := eParam p 9 1 % 64
  let y := eParam p 0xC 6
  match findJob s (eJob p) with
  | none => finishStatus s slot stBadParam
  | some j =>
    match placeOf j plane x y with
    | .outside => finishStatus s slot stBadParam
    | .beyondRing => finishStatus (ev s pgFirn 11) slot stNoSpace
    | .inside =>
      let t := tileOr s j.number plane x y
      let otherLength := match t.arriving with
        | some a => a.2.1 != total || a.2.2.1 != e.session
        | none => false
      if dataInside e = false ∨ (onRing e = true ∧ 40960 < eDataLen p) ∨ 40960 < total ∨ total < ofs + eDataLen p ∨
          eDataLen p = 0 ∨ 3 ≤ t.state ∨ otherLength = true then finishStatus s slot stBadParam
      else if farTile s j plane y = true ∧ mayThrottled s = false ∧ partnered s = false then s
      else if t.arriving.isSome then setEntry s slot { e with state := 1 }
      else
        match (if jobFits s j (256 * grans total) then placeStore s (grans total) else none) with
        | none => finishStatus s slot stNoSpace
        | some (g, s) =>
          let s := jobAlloc s j.number (fun n => n + 256 * grans total)
          let t := tileOr s j.number plane x y
          let s := setTile s { t with state := if t.state = 0 then 1 else t.state,
                                      arriving := some (g, total, e.session, []) }
          setEntry s slot { e with state := 1 }

/-- TILE_PUT (R74, R76, R94, R103). -/
def execTilePut (slot : Nat) (s : State) : Host.Outcome State Fault Refusal :=
  .next <| onEntry s slot 0x18 (fun s e => tilePut s slot e)

/-- Byte i of a container has been received. -/
def received (rs : List Run) (i : Nat) : Bool := rs.any (fun r => decide (r.start ≤ i) && decide (i < r.stop))

/-- Every byte of a container has been received. -/
def complete (rs : List Run) (len : Nat) : Bool := (List.range len).all (received rs)

/-- The fragment changes a byte received before (R74). -/
def rewrites (s : State) (a : Nat) (rs : List Run) : Nat → List Byte → Bool
  | _, [] => false
  | i, b :: r => (received rs i && memByte s.dram.mem (a + i) != b) || rewrites s a rs (i + 1) r

/-- The runs of a fragment that have not been received before: offset and bytes. `run` is the run now open, newest byte
first. -/
def newRuns (rs : List Run) : Nat → List Byte → List Byte → List (Nat × List Byte)
  | i, [], run => if run.isEmpty then [] else [(i - run.length, run.reverse)]
  | i, b :: r, run =>
    if received rs i then
      (if run.isEmpty then [] else [(i - run.length, run.reverse)]) ++ newRuns rs (i + 1) r []
    else newRuns rs (i + 1) r (b :: run)

/-- The CRC-32C of two parts after one another, from the CRC of each and the length of the second. -/
def crcJoin (a b len : Nat) : Nat := (zeroBytes len).foldl crcByte a ^^^ b

/-- The store CRC of a container: the fragment store CRCs of its runs, combined in the order of their offsets (R96). -/
def combineCrcs (rs : List Run) : Nat → Nat → Nat → Nat
  | 0, _, crc => crc
  | fuel + 1, at_, crc =>
    match rs.find? (fun r => r.start == at_ && decide (at_ < r.stop)) with
    | some r => combineCrcs rs fuel r.stop (crcJoin crc r.crc (r.stop - at_))
    | none => crc

/-- The header checks of R96 on a container of `total` bytes. -/
def headerOk (s : State) (t : Tile) (c : List Byte) (total : Nat) : Bool :=
  match findJob s t.job with
  | none => false
  | some j =>
    bytesAt c 0 2 == 0x4946 && bytesAt c 2 1 == 1 && decide (bytesAt c 3 1 ≤ 1) && bytesAt c 0x10 4 + 24 == total &&
      bytesAt c 4 4 == t.job && bytesAt c 8 1 == t.plane && bytesAt c 9 1 == t.x && bytesAt c 0xA 6 == t.y &&
      placeOf j t.plane t.x t.y == .inside

/-- The store check of a complete container (R96, R97): the tile becomes STORED, or what arrived is discarded. A tile that
has left STORED meanwhile keeps what it holds. Only the header is read from the store. -/
def storeCheck (s : State) (slot : Nat) (t : Tile) (g total : Nat) (rs : List Run) : State :=
  let h := memRead s.dram.mem (granAddr s g) 24
  if headerOk s t h total && decide (t.state < 3) then
    let s := if t.length = 0 then s
      else jobAlloc (markDirty s (granAddr s t.gran) t.length) t.job (fun n => n - 256 * grans t.length)
    let j := findJob s t.job
    let t' : Tile :=
      { t with state := 2, storedFmt := bytesAt h 3 1 == 1, refrozen := false, gran := g, length := total,
               compLen := total - 24, size := (j.map (fun j => j.tileSize t.x t.y)).getD 0,
               storeCrc := combineCrcs rs rs.length 0 0,
               contentCrc := bytesAt h 0x14 4, lastErr := 0, arriving := none, frozen := none }
    finish (count (setTile s t') pgFirn 0) slot stOk 1 0 [] 0
  else finishStatus (discardArriving s t) slot stBadParam

/-- The store of a fragment ends: its new bytes are in the store with their fragment store CRCs, then DATA_CRC is verified,
and the container checked when it is complete (R95, R96). Bytes received before are not written again. -/
def fragmentDone (s : State) (slot : Nat) (e : JEntry) : State :=
  let p := e.entry
  let ofs := eParam p 4 4
  match findTile s (eJob p) (eParam p 8 1 % 8) (eParam p 9 1 % 64) (eParam p 0xC 6) with
  | none => finishStatus s slot stBadParam
  | some t =>
    match t.arriving with
    | none => finishStatus s slot stBadParam
    | some (g, total, ses, rs) =>
      let new := newRuns rs ofs e.data []
      let again := rewrites s (granAddr s g) rs ofs e.data
      let s := new.foldl (fun s r => writeMem s (granAddr s g + r.1) r.2) s
      if dataCrcOk e = false then
        let s := count s pgFirn 1
        finishStatus (if rs.isEmpty then discardArriving s t else s) slot stBadCrc
      else if again then finishStatus (discardArriving s t) slot stBadParam
      else
        let rs := rs ++ new.map (fun r => { start := r.1, stop := r.1 + r.2.length, crc := crc32c r.2 })
        let t := { t with arriving := some (g, total, ses, rs) }
        if complete rs total then storeCheck s slot t g total rs
        else finish (setTile s t) slot stOk 0 0 [] 0

/-- In a pair the store of a fragment ends at its apply-line: the tile becomes STORED there in both units (R99). -/
def tilePutAt (s : State) (slot : Nat) : State :=
  let s := onEntry s slot 0x18 (fun s e => tilePut s slot e)
  match getEntry s slot with
  | some e => if e.state = 1 ∧ eOpcode e.entry = 0x18 then fragmentDone s slot e else s
  | none => s

/-- FRAGMENT_STORE_DONE (R92, R95, R96, R97, R100). -/
def execFragmentStoreDone (slot : Nat) (s : State) : Host.Outcome State Fault Refusal :=
  .next <| match getEntry s slot with
    | some e => if e.state = 1 ∧ eOpcode e.entry = 0x18 then fragmentDone s slot e else s
    | none => s

/-- FRAG_TIMEOUT (R98). -/
def execFragTimeout (job plane x y : Nat) (s : State) : Host.Outcome State Fault Refusal :=
  .next <| match findTile s job plane x y with
    | some t =>
      if t.state = 1 ∧ t.arriving.isSome = true ∧
          (s.host.journal.any (fun e => e.2.state == 1 && eOpcode e.2.entry == 0x18 && eJob e.2.entry == job &&
            eParam e.2.entry 8 1 % 8 == plane && eParam e.2.entry 9 1 % 64 == x && eParam e.2.entry 0xC 6 == y)) = false
      then ev (discardArriving s t) pgFirn 12 else s
    | none => s

/-- TILE_QUERY (R105). -/
def execTileQuery (slot : Nat) (s : State) : Host.Outcome State Fault Refusal :=
  .next <| onEntry s slot 0x19 (fun s e =>
    match findJob s (eJob e.entry) with
    | none => finishStatus s slot stBadParam
    | some j =>
      let plane := eParam e.entry 0 4
      let x := eParam e.entry 4 4
      let y := eParam e.entry 8 6
      if plane < 8 ∧ placeOf j plane x y = .inside then
        let t := tileOr s j.number plane x y
        finish s slot stOk (t.state + 256 * t.lastErr) 0 [] 0
      else if plane < 8 ∧ j.openEnded = true ∧ y < j.ringBase ∧ bitOf j.mask plane = true ∧ x < j.across then
        finish s slot stOk 5 0 [] 0
      else finishStatus s slot stBadParam)

/-! ### Thaw (R107 to R113) -/

/-- Inserts in the order of first image line, then of x (R108). -/
def enqueueThaw (s : State) (order : Nat) (t : Tile) : State :=
  let before' (q : Nat × Nat × Nat × Nat × Nat) : Bool :=
    decide (q.1 < order) || (q.1 == order && decide (q.2.2.2.1 ≤ t.x))
  let q := s.print.thawQueue
  let s := demand s 1 (t.size + t.compLen)
  { s with print := { s.print with
      thawQueue := q.takeWhile before' ++ [(order, t.job, t.plane, t.x, t.y)] ++ q.dropWhile before' } }

/-- Engines at work on print tiles, which will each take a slot. -/
def thawing (s : State) : Nat :=
  ((List.range 24).filter (fun e => (getEngine s e).tile.isSome)).length

/-- The queue entry that engine e may take: a tile retried stays off the engine that failed it while PRINT holds another
(R113). -/
def nextThaw (s : State) (e : Nat) : Option (Nat × Nat × Nat × Nat × Nat) :=
  s.print.thawQueue.find? (fun q =>
    match findTile s q.2.1 q.2.2.1 q.2.2.2.1 q.2.2.2.2 with
    | some t => t.avoid != e || printHeld s == 1
    | none => true)

/-- THAW_START (R107, R108, R111, R146): only while a print window slot is free for the output, and within VD_CAP while
derating. -/
def execThawStart (engine : Nat) (s : State) : Host.Outcome State Fault Refusal :=
  let free := winSize s / 32768 - (slotsUsed s).length
  .next <|
    if s.power.stop = 2 ∨ 24 ≤ engine ∨ thawOwner s engine ≠ 1 ∨ (getEngine s engine).tile.isSome = true ∨ free ≤ thawing s then s
    else match nextThaw s engine with
      | none => s
      | some q =>
        let rest := { s with print := { s.print with thawQueue := s.print.thawQueue.erase q } }
        match findTile s q.2.1 q.2.2.1 q.2.2.2.1 q.2.2.2.2 with
        | none => rest
        | some t =>
          if t.length = 0 then rest
          else if mayThaw s (t.size + t.compLen) = false then s
          else
            let s := beginThaw rest (t.size + t.compLen)
            let s := if t.state = 2 then setTile s { t with state := 3 } else s
            engineBusy (setEngine s engine { tile := some (t.job, t.plane, t.x, t.y), inflate := none }) engine true

/-- The stored container of a tile, or its frozen copy that waits for its check (R122). -/
def containerOf (s : State) (t : Tile) : List Byte × Nat × Nat × Bool :=
  match t.frozen with
  | some (g, len, comp, crc) => (memRead s.dram.mem (granAddr s g) len, comp, crc, false)
  | none => (memRead s.dram.mem (granAddr s t.gran) t.length, t.compLen, t.storeCrc, t.storedFmt)

/-- What an engine finds (R111 to R113): the error code and the output. -/
def thawResult (s : State) (t : Tile) : Nat × List Byte :=
  let (c, comp, crc, stored) := containerOf s t
  let r := inflate stored t.size ((c.drop 24).take comp)
  if crc32c c ≠ crc then (thStore, r.2)
  else if r.1 = thOk ∧ crc32c r.2 ≠ t.contentCrc then (thContent, r.2)
  else r

/-- Writes the content of a tile into a slot, line j at 2,048 j (R104). -/
def writeSlot (s : State) (k w : Nat) (content : List Byte) : State :=
  (List.range (ceilDiv content.length (max w 1))).foldl
    (fun s j => writeMem s (slotAddr s k + 2048 * j) ((content.drop (w * j)).take w)) s

/-- Reads the content of a tile back from its slot. -/
def readSlot (s : State) (k w h : Nat) : List Byte :=
  (List.range h).flatMap (fun j => memRead s.dram.mem (slotAddr s k + 2048 * j) w)

/-- Width and height of a tile. -/
def dimsOf (s : State) (t : Tile) : Nat × Nat :=
  match findJob s t.job with
  | some j => (j.tileW t.x, j.tileH t.y)
  | none => (1, t.size)

/-- The tile's job repeats: its tiles are PINNED (R106). -/
def repeating (s : State) (job : Nat) : Bool := ((findJob s job).map (fun j => j.repeatLen != 0)).getD false

/-- The tile enters the print window in a new slot with its storage checksum (R100, R104). -/
def tileThawed (s : State) (t : Tile) (content : List Byte) : State :=
  match freeSlot s with
  | none => setTile s { t with state := if t.state = 3 then 2 else t.state }
  | some k =>
    let s := writeSlot s k (dimsOf s t).1 content
    setTile s { t with state := 4, slot := k + 1, storageCrc := crc32c content, pinned := repeating s t.job,
                       retried := false, avoid := 24 }

/-- Ends a tile without usable content: BOMB or BAD (04). -/
def tileDefective (s : State) (t : Tile) (state code evBit : Nat) : State :=
  tileFault (setTile s { t with state := state }) t code evBit none

/-- A pair with a Ready partner (R114). -/
def pairReady (s : State) : Bool := s.pair.role == 2 || s.pair.role == 5

/-- Asks the partner for a tile (R113, R114). -/
def askPartner (s : State) (t : Tile) (step : Nat) : State :=
  pairSendSeq (setTile s { t with recovery := step }) 0x31 0
    (leBytes 4 t.job ++ leBytes 1 t.plane ++ leBytes 1 t.x ++ leBytes 6 t.y)

/-- The repeat of the job in which the bar of a plane now builds; 0 without a repeat. -/
def repeatNow (s : State) (plane job : Nat) : Nat :=
  let br := getBar s plane
  match findJob s job with
  | some j => if j.repeatLen = 0 ∨ br.printing = false then 0 else (buildLineI s plane).toNat / j.u / j.repeatLen
  | none => 0

/-- On a standby a failure that is not recovered is a scrub error (R378). -/
def scrubError (s : State) : State :=
  if s.pair.role = 5 then
    count { s with pair := { s.pair with scrubErrs := s.pair.scrubErrs + 1 } } pgPair 13
  else s

/-- Bars that print a plane: its own, and a twinned secondary (R191). -/
def readersOf (s : State) (p : Nat) : List Nat :=
  (List.range 8).filter (fun b => if twinMode s b != 0 && twinSecondary s b then twinPartner s b == p else b == p)

/-- The first row-line that a FAILED recovery will print blank: the oldest row-line still to be built that reads the tile
(R115, R116), with its image line and web position (R483). -/
def firstBlank (s : State) (t : Tile) : Option (Nat × Int) :=
  ((readersOf s t.plane).flatMap (fun b =>
    (passesOf s b).flatMap (fun br => br.lines.filterMap (fun l =>
      match br.streams[l.stream]? with
      | some w =>
        if br.job == t.job && !l.built && contoneLine br l.img / 16 == t.y && l.tiles.contains t.x then
          some (l.img, targetPos s b br w l.k l.img)
        else none
      | none => none)))).head?

/-- A recovery ends in RECOVERED_A or FAILED (R114 to R116). `how` is the live counter of the way that served. -/
def recoveryEnd (s : State) (t : Tile) (ok : Bool) (how : Nat) : State :=
  let cls := if ok && t.blankAt.isNone then 0 else 1
  let at? := if ok || t.blankAt.isSome then t.blankAt else firstBlank s t
  let t' : Tile := if ok then { t with recovery := 0, recovered := true, blankAt := none }
    else { t with recovery := 0, blankAt := none, failed := t.failed ++ [repeatNow s t.plane t.job] }
  let s := setTile s t'
  let s := if ok then ev (count s pgFirn how) pgFirn 13 else scrubError s
  faultAt (ev s pgFirn 8) 0x0301 cls pgFirn t.plane (tileDetail t) at?

/-- A recovery waits for its re-thaw or for the partner: the tile has no new slot to fetch from (R114). -/
def recoveryWaits (s : State) (t : Tile) : Bool :=
  t.recovery == 5 || (t.recovery == 2 && (s.print.thawQueue.any (fun q => q.2 == (t.job, t.plane, t.x, t.y)) ||
    (List.range 24).any (fun e => (getEngine s e).tile == some (t.job, t.plane, t.x, t.y))))

/-- The last way of recovery: the partner, or FAILED (R114). -/
def recoverByPartner (s : State) (t : Tile) : State :=
  if pairReady s then askPartner s t 5 else recoveryEnd s t false 0

/-- A tile of a repeating job that arrived in STORED format is to be re-compressed (R122). -/
def wantsRefreeze (s : State) (t : Tile) : Bool :=
  rdb s (ra pgFirn 0x5C) 0 && t.storedFmt && !t.refrozen && t.pinned && t.state == 4 && t.frozen.isNone &&
    t.recovery == 0

/-- A frozen copy has been thawed once: it replaces the original when it matched, and is discarded otherwise (R122). -/
def frozenChecked (s : State) (t : Tile) (code : Nat) : State :=
  match t.frozen with
  | none => s
  | some (g, len, comp, crc) =>
    if code = thOk then
      let s := jobAlloc (markDirty s (granAddr s t.gran) t.length) t.job (fun n => n - 256 * grans t.length)
      setTile s { t with gran := g, length := len, compLen := comp, storeCrc := crc, storedFmt := false, refrozen := true,
                         frozen := none }
    else
      jobAlloc (setTile s { t with frozen := none }) t.job (fun n => n - 256 * grans len)

/-- What THAW_DONE does with a tile, by the error code (table of thaw error codes, R113, R114). -/
def thawOutcome (s : State) (e : Nat) (t : Tile) (code : Nat) (out : List Byte) : State :=
  if t.frozen.isSome then frozenChecked s t code
  else if t.recovery = 2 then
    (if code = thOk then tileThawed s t out
     else recoverByPartner (if code = thStore then count s pgFirn 2 else s) t)
  else if code = thOk then tileThawed s t out
  else if code = thContent ∧ t.retried = false then
    enqueueThaw (setTile s { t with state := 2, retried := true, avoid := e }) 0 t
  else if code = thStore then
    let s := count s pgFirn 2
    if pairReady s then askPartner s t 4 else tileDefective s t 7 0x0301 8
  else if code = thBomb then tileDefective s t 6 0x0303 9
  else tileDefective s t 7 0x0302 8

/-- THAW_DONE (R100, R104, R110 to R114, R122). -/
def execThawDone (engine : Nat) (s : State) : Host.Outcome State Fault Refusal :=
  .next <| match (getEngine s engine).tile with
    | none => s
    | some (j, p, x, y) =>
      let s := engineBusy (setEngine s engine {}) engine false
      match findTile s j p x y with
      | none => s
      | some t =>
        let r := thawResult s t
        let s := countN s pgThaw engine r.2.length
        let s := if r.1 = 0 then s
          else ev (wr s (ra pgThaw 0x4C) (t.x * 65536 + engine * 256 + r.1)) pgThaw 8
        let t := if r.1 = 0 then t else { t with lastErr := r.1 }
        thawOutcome (setTile s t) engine t r.1 r.2

/-! ### Fetch into the row window and recovery (R114 to R116, R132, R188) -/

/-- The fetch that bar b has open for a tile (x, y). -/
def openFetch (s : State) (b x y : Nat) : Option WinSlot :=
  (winSlots s b).find? (fun w => !w.ready && w.x == x && w.y == y)

/-- Drops the slots of bars that wait for a tile whose recovery failed (R115). -/
def dropFetches (s : State) (t : Tile) : State :=
  (List.range 8).foldl (fun s b =>
    setWin s b ((winSlots s b).filter (fun w => w.ready || !(w.job == t.job && w.plane == t.plane && w.x == t.x && w.y == t.y)))) s

/-- The storage checksum of a tile failed at use: the next way of recovery (R114, R115). Live counter 3 counts the
failure that starts a recovery. -/
def recoverTile (s : State) (t : Tile) : State :=
  if t.recovery = 0 then setTile (count s pgFirn 3) { t with recovery := 1 }
  else if t.recovery = 1 ∧ t.length ≠ 0 then enqueueThaw (setTile s { t with recovery := 2 }) 0 t
  else if t.recovery = 3 then dropFetches (recoveryEnd s t false 0) t
  else
    let s := recoverByPartner s t
    if pairReady s then s else dropFetches s t

/-- The fetch of a slot has joined the present step of its tile's recovery. -/
def joinRecovery (s : State) (b : Nat) (w : WinSlot) (step : Nat) : State :=
  setWin s b ((winSlots s b).map (fun v => if v = w then { v with step := step } else v))

/-- A fetch of bar b fails its checksum: one that has not yet joined the recovery that runs joins it, and is made again;
else the recovery goes on to its next way (R115). -/
def fetchFails (s : State) (b : Nat) (w : WinSlot) (t : Tile) : State :=
  let running := t.recovery ≠ 0 ∧ t.recovery ≠ 4
  if running ∧ w.step ≠ t.recovery then joinRecovery s b w t.recovery
  else
    let s := recoverTile s t
    match findTile s t.job t.plane t.x t.y with
    | some t' => if t'.failed.length = t.failed.length then joinRecovery s b w t'.recovery else dropFetches s t'
    | none => s

/-- TILE_FETCH_DONE (R100, R114 to R116, R132, R190): the storage checksum over the whole tile as fetched. -/
def execTileFetchDone (bar x y : Nat) (s : State) : Host.Outcome State Fault Refusal :=
  .next <| match openFetch s bar x y with
    | none => s
    | some w =>
      match findTile s w.job w.plane x y with
      | none => s
      | some t =>
        if t.state ≠ 4 ∨ t.slot = 0 ∨ recoveryWaits s t = true then s
        else
          let d := dimsOf s t
          let content := readSlot s (t.slot - 1) d.1 d.2
          if crc32c content = t.storageCrc then
            let bytes := (List.range 16).flatMap (fun j => padTo 2048 ((content.drop (d.1 * j)).take d.1))
            let s := setWin s bar ((winSlots s bar).map (fun v => if v = w then { v with ready := true, bytes := bytes } else v))
            if t.recovery = 0 ∨ t.recovery = 4 then s
            else recoveryEnd s t true (3 + t.recovery)
          else fetchFails s bar w t

/-- REQ_TIMEOUT (R114 to R117): the partner's tile has not come in time. -/
def execReqTimeout (job plane x y : Nat) (s : State) : Host.Outcome State Fault Refusal :=
  .next <| match findTile s job plane x y with
    | some t =>
      if t.recovery = 5 then dropFetches (recoveryEnd s t false 0) t
      else if t.recovery = 4 then tileDefective (scrubError s) { t with recovery := 0, lastErr := thStore } 7 0x0301 8
      else s
    | none => s

/-! ### Freeze (R118 to R122) -/

/-- The container of frozen data: header and payload (R91, R118). -/
def frozenContainer (depth job plane x y : Nat) (input : List Byte) (flushes : List Nat) : List Byte :=
  let p := freezePayload depth input flushes
  leBytes 2 0x4946 ++ leBytes 1 1 ++ leBytes 1 0 ++ leBytes 4 job ++ leBytes 1 plane ++ leBytes 1 x ++ leBytes 6 y ++
    leBytes 4 p.length ++ leBytes 4 (crc32c input) ++ p

/-- Stores the frozen copy of a tile beside the original, when the job has the space for both, and queues it for its check
(R122, R511). -/
def storeFrozen (s : State) (t : Tile) (c : List Byte) : State :=
  match findJob s t.job with
  | none => s
  | some j =>
    match (if jobFits s j (256 * grans c.length) then placeStore s (grans c.length) else none) with
    | none => s
    | some (g, s) =>
      let s := writeMem s (granAddr s g) c
      let s := jobAlloc s t.job (fun n => n + 256 * grans c.length)
      let t := { tileOr s t.job t.plane t.x t.y with frozen := some (g, c.length, c.length - 24, crc32c c) }
      enqueueThaw (setTile s t) ((buildLineI s t.plane).toNat) t

/-- FRZn.CFG.DEPTH. -/
def freezeDepth (s : State) (n : Nat) : Nat := rdf s (ra (pgFrz n) 0x40) 6 0

/-- FREEZE_DONE (R118 to R122): counts input and output bytes; a re-compressed tile is stored for its check. `flushes`
lists the numbers of input bytes after which the client flushed. DESIGN CHOICE (log 41): the depth is that of the register
at the end of the input, and the tag of a client that is not a tile is a free value. -/
def execFreezeDone (engine client : Nat) (input : List Byte) (flushes : List Nat) (s : State) :
    Host.Outcome State Fault Refusal :=
  let p := pgFrz (engine % 4)
  let d := freezeDepth s (engine % 4)
  let t? := if client = 4 then s.print.tiles.find? (fun t => wantsRefreeze s t &&
    readSlot s (t.slot - 1) (dimsOf s t).1 (dimsOf s t).2 == input) else none
  let tag := Config.freezeTag client
  let c := match t? with
    | some t => frozenContainer d t.job t.plane t.x t.y input flushes
    | none => frozenContainer d (tag % 2 ^ 32) (tag / 2 ^ 32 % 8) (tag / 2 ^ 35 % 64) (tag / 2 ^ 41 % 2 ^ 48) input flushes
  let s := countN (countN s p 0 input.length) p 1 c.length
  let s := wr s (ra p 0x44) 0
  let s := { s with print := { s.print with frozen := tset s.print.frozen (engine % 4) c } }
  .next <| match t? with
    | some t => storeFrozen s t c
    | none => s

/-! ### INFLATE (03) -/

/-- INFLATE: claims a free engine, or completes with CONFLICT. -/
def execInflate (slot : Nat) (s : State) : Host.Outcome State Fault Refusal :=
  .next <| onEntry s slot 0x30 (fun s e => withData s slot e 40960 (fun s =>
    let n := eParam e.entry 0 4
    if 32768 < n ∨ resultFits s e n = false then finishStatus s slot stBadParam
    else if mayThrottled s = false ∨ mayThaw s (n + e.data.length) = false then s
    else match (List.range 24).find? (fun k => thawOwner s k == 0) with
      | none => finishStatus s slot stConflict
      | some k =>
        let s := engineBusy (wrf (beginThaw s (n + e.data.length)) (ownThaw k) 3 0 2) k true
        setEntry (setEngine s k { tile := none, inflate := some slot }) slot { e with state := 1 }))

/-- The engine that works on an INFLATE. -/
def inflateEngine (s : State) (slot : Nat) : Option Nat :=
  (List.range 24).find? (fun k => (getEngine s k).inflate == some slot)

/-- An engine that INFLATE releases becomes FREE, or PRINT's while PRINT holds too few (R107). -/
def releaseInflate (s : State) (k : Nat) : State :=
  let s := engineBusy (setEngine (wrf s (ownThaw k) 3 0 0) k {}) k false
  if s.print.jobs.any (fun j => j.started) || printHeld s != 0 then claimPrint s else s

/-- INFLATE_DONE (R77, R107, R111, R112). -/
def execInflateDone (slot : Nat) (s : State) : Host.Outcome State Fault Refusal :=
  .next <| match inflateEngine s slot, getEntry s slot with
    | some k, some e =>
      let r := inflate false (eParam e.entry 0 4) e.data
      let s := countN (releaseInflate s k) pgThaw k r.2.length
      if r.1 = 0 then finish s slot stOk 0 0 r.2 0
      else
        let s := ev (wr s (ra pgThaw 0x4C) (k * 256 + r.1)) pgThaw 8
        finish s slot stBadParam r.1 0 [] 0
    | _, _ => s

end Sys2Proof.Machine
end

