-- ==== Sys2Proof/Machine/Preview.lean ====
section
/-! DEFINITION. The print preview (17): sampling of contone lines as bars build them, and composition of preview lines
into the ring of layer L0 (R465, R466). -/

namespace Sys2Proof.Machine

open Sys2Proof

/-- A committed register of the DISP page. -/
def dcm (s : State) (o : Nat) : Nat := cm s (ra pgDisp o)

/-- The preview runs. -/
def prevOn (s : State) : Bool := pgEn s pgDisp && bitOf (dcm s 0xE0) 31

/-- Planes of the preview. -/
def prevPlanes (s : State) : List Nat := (List.range 8).filter (fun b => bitOf (field (dcm s 0xE0) 15 8) b)

/-- Width of L0, and the lines of its ring. -/
def prevWidth (s : State) : Nat := field (dcm s 0x88) 11 0
def ringDepth (s : State) : Nat := field (dcm s 0x94) 13 0

/-- The byte that the preview reads at a pixel of contone line m of bar b's pass (R465). -/
def previewByte (s : State) (br : Bar) (m px : Nat) : Nat :=
  let y := (if br.rep = 0 then m else m % br.rep)
  if br.wc / br.u ≤ px then 0
  else match findTile s br.job br.plane (px / 2048) (y / 16) with
    | some t => if t.state = 4 ∧ t.slot ≠ 0 then
        (memByte s.dram.mem (slotAddr s (t.slot - 1) + 2048 * (y % 16) + px % 2048)).toNat else 0
    | none => 0

/-- Lines of a sample ring. -/
def sampDepth (s : State) : Nat := max 1 (field (dcm s 0xF0) 13 0)

/-- Image memory address of preview line p in the sample ring of plane b: the rings lie in ascending b (R465). -/
def sampleAddr (s : State) (p b : Nat) : Nat :=
  256 * field (dcm s 0xEC) 27 0 +
    (((prevPlanes s).filter (fun c => decide (c < b))).length * sampDepth s + p % sampDepth s) * prevWidth s

/-- Sample i of a plane on a preview line; an unsampled plane is 0 (R466). -/
def sampleOf (s : State) (p b i : Nat) : Nat :=
  if bitOf (tget (fun _ => 0) s.disp.sampled p) b then (memByte s.dram.mem (sampleAddr s p b + i)).toNat else 0

/-- One colour channel of a composed pixel (R466): `lo` is the low bit of the channel in INK. -/
def inkChannel (s : State) (p i lo : Nat) : Nat :=
  255 - min 255 (((prevPlanes s).map (fun b => sampleOf s p b i * field (dcm s (0x100 + 4 * b)) (lo + 7) lo)).sum / 255)

/-- The RGB888 bytes of a composed preview line. -/
def composed (s : State) (p : Nat) : List Byte :=
  (List.range (prevWidth s)).flatMap (fun i =>
    [BitVec.ofNat 8 (inkChannel s p i 16), BitVec.ofNat 8 (inkChannel s p i 8), BitVec.ofNat 8 (inkChannel s p i 0)])

/-- Composes preview line p into its line of the L0 ring and drops its samples (R466). -/
def compose (s : State) (p : Nat) : State :=
  let bytes := composed s p
  let a := dcm s 0x8C * 256 + dcm s 0x90 * (if ringDepth s = 0 then 0 else p % ringDepth s)
  let s := demand (writeMem s a bytes) 3 (bytes.length + prevWidth s * (prevPlanes s).length)
  { s with disp := { s.disp with sampled := tdel s.disp.sampled p, newest := some p } }

/-- Samples contone line m of bar b (R465); a line still incomplete whose sample-ring slot is needed is composed
first, and counted in live counter 8 (R466). -/
def sampleLine (s : State) (b m : Nat) : State :=
  let sub := field (dcm s 0xE4) 11 0
  if prevOn s = false ∨ (prevPlanes s).contains b = false ∨ sub = 0 ∨ m % sub ≠ 0 then s
  else
    let br := getBar s b
    let p := m / sub
    let depth := sampDepth s
    let s := (s.disp.sampled.filter (fun e => e.1 != p && e.1 % depth == p % depth)).foldl
      (fun s e => count (compose s e.1) pgDisp 8) s
    let px (i : Nat) : Nat := field (dcm s 0xE8) 16 0 + field (dcm s 0xE0) 7 0 * i
    let bytes := (List.range (prevWidth s)).map (fun i => BitVec.ofNat 8 (previewByte s br m (px i)))
    let bursts := ((List.range (prevWidth s)).filter (fun i => i == 0 || px i / 64 != px (i - 1) / 64)).length
    let mask := tget (fun _ => 0) s.disp.sampled p ||| 2 ^ b
    let s := demand (writeMem s (sampleAddr s p b) bytes) 3 (64 * bursts + prevWidth s)
    let s := { s with disp := { s.disp with sampled := tset s.disp.sampled p mask } }
    if (prevPlanes s).all (bitOf mask) then compose s p else s

end Sys2Proof.Machine
end

