-- ==== Sys2Proof/Machine/Lines.lean ====
section
/-! DEFINITION. Line starts (06, 04, 05, 07): what the start of a row-line does: thaw lines, absent and late tiles,
fetches into the row window, overspeed, measurement windows and ladders, the preview; and the row-lines built and sent. -/

namespace Sys2Proof.Machine

open Sys2Proof

/-! ### Arming a commit at a line (R39, R40, R42) -/

/-- The line and the AT_LINE bit of a pending commit are those of its ARM: the model keeps them as committed words of the
two header registers. -/
def commitLine (s : State) (p : Nat) : Nat := cm s (ra p 0x1C)

/-- The commit of a page is armed at its line. -/
def commitAtLine (s : State) (p : Nat) : Bool := commitPending s p && cmb s (ra p 0x18) 1

/-- d of R40 against the build line of the reference bar. -/
def commitDist (s : State) (p : Nat) : Nat :=
  let b := pageBar s p
  let l : Int := commitLine s p
  ((if retPass s b then buildLineI s b - l else l - buildLineI s b) % (2 ^ 32 : Nat)).toNat

/-- A late commit is not applied: PENDING clears, LATE and COMMIT_LATE are set (R40). -/
def refuseLate (s : State) (p : Nat) : State :=
  ev (wr s (ra p 0x18) (rd s (ra p 0x18) &&& 0xA ||| 8)) p 1

/-- Arms the commit of a page at a line (R40); a second ARM has no effect (R42). -/
def armAt (s : State) (p line : Nat) : State :=
  if commitPending s p then s
  else
    let s := wr (wr s (ra p 0x1C) (line % 2 ^ 32)) (ra p 0x18) (rd s (ra p 0x18) &&& 8 ||| 7)
    let s := setCm (setCm s (ra p 0x1C) (line % 2 ^ 32)) (ra p 0x18) 2
    if printing s (pageBar s p) && decide (2 ^ 31 ≤ commitDist s p) then refuseLate s p else s

/-- Header pages. -/
def headerPages : List Nat := (List.range 256).filter isHeader

/-- At the first build line of a bar, a commit armed at a line already behind it is late (R40). -/
def testArmed (s : State) (b : Nat) : State :=
  headerPages.foldl (fun s p =>
    if commitAtLine s p && pageBar s p == b && p != pgDisp && decide (2 ^ 31 ≤ commitDist s p) then refuseLate s p else s) s

/-! ### Thaw lines (R108, R109) -/

/-- FIRST image line, in build order, of the tile row `a` counted over the pass. -/
def rowFirst (br : Bar) (a : Nat) : Nat :=
  if br.ret then (min (16 * a + 16) (br.len / br.u)) * br.u - 1 else 16 * a * br.u

/-- The tile row of the job that the pass row `a` reads (R191, R103). -/
def rowTile (br : Bar) (a : Nat) : Nat := if br.rep = 0 then a else a % (br.rep / 16)

/-- The repeat that a contone line of the pass lies in. -/
def repeatOf (br : Bar) (m : Nat) : Nat := if br.rep = 0 then 0 else m / br.rep

/-- A tile reaches its thaw line: it is queued when STORED, and absent for the pass when nothing or only a part of it
has arrived (R108, R109). -/
def thawTile (s : State) (br : Bar) (a x : Nat) : State :=
  let r := repeatOf br (16 * a)
  let t := tileOr s br.job br.plane x (rowTile br a)
  if t.state ≤ 1 then
    (if t.absent.contains r then s
     else tileFault (setTile s { t with absent := t.absent ++ [r] }) t 0x0304 10 none)
  else if t.state = 2 ∧ t.absent.contains r = false ∧ (s.print.thawQueue.any (fun q => q.2.1 == t.job && q.2.2.1 == t.plane && q.2.2.2.1 == x &&
      q.2.2.2.2 == t.y)) = false then
    enqueueThaw s (if br.ret then br.len - 1 - rowFirst br a else rowFirst br a) t
  else s

/-- All tiles of the pass rows whose first image line lies in [lo, hi] reach their thaw line. -/
def thawRows (s : State) (b : Nat) (lo hi : Int) : State :=
  let br := getBar s b
  match findJob s br.job with
  | none => s
  | some j =>
    if hi < 0 ∨ br.u = 0 then s
    else
      let a0 := lo.toNat / (16 * br.u)
      let a1 := hi.toNat / (16 * br.u)
      ((List.range (a1 + 1 - a0)).map (fun i => a0 + i)).foldl (fun s a =>
        let f := rowFirst br a
        if decide (lo ≤ (f : Int)) && decide ((f : Int) ≤ hi) && (br.len == 0 || decide (16 * a * br.u < br.len)) then
          (List.range j.across).foldl (fun s x => thawTile s br a x) s
        else s) s

/-- THAW.DIST in image lines. -/
def thawDist (s : State) (br : Bar) : Nat := cmf s (ra pgThaw 0x44) 13 0 * br.u

/-- The build line has moved from `prev`, or is the first of the pass: the tile rows that reach their thaw line. -/
def thawLines (s : State) (b : Nat) (prev : Option Int) : State :=
  let br := getBar s b
  let l := buildLineI s b
  let d : Int := thawDist s br
  if br.ret then thawRows s b (l - d) (match prev with | some p => p - d - 1 | none => l)
  else thawRows s b (match prev with | some p => p + d + 1 | none => 0) (l + d)

/-! ### Which tile columns print blank (R109, R110, R115) -/

/-- How a row-line finds a tile at the start of its building: prints, blank, blank and transient (R353), or late. -/
inductive TileUse where
  | prints | blank | failed | late
deriving DecidableEq, Repr

/-- The use of tile column x by image line n of a bar. A tile that is BAD because its store CRC failed prints blank under
TILE_CHECK (R113, R117). -/
def tileUse (s : State) (b : Nat) (br : Bar) (n x : Nat) : TileUse :=
  let m := contoneAbs br n
  let r := repeatOf br m
  let y := contoneLine br n / 16
  let t := tileOr s br.job br.plane x y
  if t.absent.contains r ∨ t.state = 6 ∨ (t.state = 7 ∧ t.lastErr ≠ thStore) then .blank
  else if t.state = 7 ∨ t.failed.contains r then .failed
  else match findSlot s b br x y with
    | some w => if w.ready ∨ t.state = 4 then .prints else .late
    | none => if t.state = 4 then .prints else .late

/-- Records THAW_LATE once per tile (R110). -/
def recordLate (s : State) (br : Bar) (n x : Nat) : State :=
  let t := tileOr s br.job br.plane x (contoneLine br n / 16)
  if t.lateSeen || (s.pair.role == 4 && beforeCatchup s br.plane n) then s else tileFault (setTile s { t with lateSeen := true }) t 0x0305 10 none

/-! ### Fetches (R188, R189) -/

/-- The last contone line of the pass, in build order, that reads pass row `a`. -/
def rowLast (br : Bar) (a : Nat) : Nat :=
  if br.ret then 16 * a else if br.len = 0 then 16 * a + 15 else min (16 * a + 15) ((br.len - 1) / br.u)

/-- The next line that a stream reads of a slot, as a distance in build order; none when it needs it no more. -/
def nextNeed (s : State) (b : Nat) (br : Bar) (w : WinSlot) (i : Nat) (t : Stream) : Option Nat :=
  (readsSlot s b br w i t).head?.map (fun m =>
    let a := w.last / 16
    if br.ret then br.len - min m (16 * a + 15) else max m (16 * a))

/-- Nearest need of a slot over all row streams; the row-lines of a pass that still stops come before all others. -/
def slotNeed (s : State) (b : Nat) (w : WinSlot) : Nat :=
  ((passesOf s b).flatMap (fun br =>
    if w.serves br then
      (br.numbered.filterMap (fun x => nextNeed s b br w x.1 x.2)).map (fun d => if br.printing then d else 0)
    else [])).foldl min (2 ^ 62)

/-- Some row-line now building reads the slot. -/
def slotRead (s : State) (b : Nat) (w : WinSlot) : Bool :=
  (passesOf s b).any (fun br => w.serves br &&
    br.lines.any (fun l => !l.built && contoneLine br l.img / 16 == w.y && l.tiles.contains w.x))

/-- The slot to evict: held, not being read, with the latest need, among equals the lowest x (R189). -/
def evictee (s : State) (b : Nat) : Option WinSlot :=
  ((winSlots s b).filter (fun w => w.ready && !slotRead s b w)).foldl (fun best w =>
    match best with
    | none => some w
    | some v =>
      let nv := slotNeed s b v
      let nw := slotNeed s b w
      if decide (nv < nw) || (nv == nw && decide (w.x < v.x)) then some w else best) none

/-- Starts a fetch in a free slot. -/
def startFetch (s : State) (b : Nat) (br : Bar) (t : Tile) (a : Nat) : State :=
  let s := demand s 0 t.size
  let again := br.evicted.contains (t.x, a)
  let s := setBar s b { getBar s b with evicted := (getBar s b).evicted.filter (fun e => e != (t.x, a)) }
  let s := count s (pgBar b) (if again then 2 else 1)
  setWin s b (winSlots s b ++
    [{ job := t.job, plane := t.plane, x := t.x, y := t.y, ready := false, last := rowLast br a, bytes := [] }])

/-- A row-line needs tile column x: it is held, its fetch is merged with one that runs, or it is fetched (R188, R189). -/
def needTile (s : State) (b n x : Nat) : State :=
  let br := getBar s b
  let a := contoneAbs br n / 16
  let y := contoneLine br n / 16
  match findSlot s b br x y with
  | some w =>
    let last := if br.ret then min w.last (rowLast br a) else max w.last (rowLast br a)
    setWin s b ((winSlots s b).map (fun v => if v = w then { v with last := last } else v))
  | none =>
    match findTile s br.job br.plane x y with
    | none => s
    | some t =>
      if t.state ≠ 4 ∨ t.failed.contains (repeatOf br (contoneAbs br n)) = true then s
      else if (winSlots s b).length < 64 then startFetch s b br t a
      else match evictee s b with
        | none => s
        | some w =>
          let s := setBar s b { br with evicted := br.evicted ++ [(w.x, w.last / 16)] }
          startFetch (setWin s b ((winSlots s b).erase w)) b (getBar s b) t a

/-- Fetches for the row-lines of a bar that are still to be built. -/
def openFetches (s : State) (b : Nat) : State :=
  (getBar s b).lines.foldl (fun s l =>
    if l.built then s
    else (l.tiles.filter (fun x => !l.blanks.contains x)).foldl (fun s x => needTile s b l.img x) s) s

/-! ### Measurement windows and ladders at the loop reference bar (R296, R309, R310) -/

/-- LOOP.CFG.REF. -/
def loopRef (s : State) : Nat := rdf s (ra pgLoop 0x40) 2 0

/-- A register of an ISP context. -/
def ctxA (x o : Nat) : Nat := ra pgIsp (0x100 + 0x40 * x + o)
def ctxSrc (s : State) (x : Nat) : Nat := rd s (ctxA x 0)
def ctxOn (s : State) (x : Nat) : Bool := bitOf (ctxSrc s x) 31
def ctxLoop (s : State) (x : Nat) : Bool := bitOf (ctxSrc s x) 7
def ctxHeight (s : State) (x : Nat) : Nat := rdf s (ctxA x 4) 31 16
def ctxWidth (s : State) (x : Nat) : Nat := rdf s (ctxA x 4) 15 0
def ctxLoc (s : State) (x : Nat) : Int := signed 64 (rd64 s (ctxA x 0x20))
def rowPitch (s : State) (x : Nat) : Int := signed 32 (rd s (ctxA x 0x28))

/-- Web position of image line n of a bar's pass, S_b + d L(k) for the row-line number k = n of a full bar (R294). -/
def imgPos (s : State) (b n : Nat) : Int :=
  let br := getBar s b
  let k := if br.ret then br.len - 1 - n else n
  if br.ret then startOf br k - linePos s b (inSheet br k) else startOf br k + linePos s b (inSheet br k)

/-- The strobe position at which row HEIGHT / 2 shows image line `mid` (R296). -/
def strobePos (s : State) (x mid : Nat) : Int :=
  imgPos s (loopRef s) mid + ctxLoc s x + (ctxHeight s x / 2 : Nat) * rowPitch s x

/-- The controller writes a strobe position to the compare unit of a context (R296, R401); a passed one is counted in
live counter 34. -/
def writeStrobe (s : State) (x mid : Nat) : State :=
  let u := field (ctxSrc s x) 28 24
  if ctxOn s x && bitOf (ctxSrc s x) 30 then
    let s := wrf (wrf s (cmpA u 0) 25 25 0) (cmpA u 0) 23 20 (lineChan s (loopRef s))
    let s := wrf (wrf s (cmpA u 0) 29 28 0) (cmpA u 0) 30 30 0
    let s := cmpArm (wr64 s (cmpA u 8) (twos 64 (strobePos s x mid))) u (strobePos s x mid)
    if (getCmp s u).passed then count s pgLoop 34 else s
  else s

/-- The middle line of a run of `len` lines from n in build order. -/
def middle (s : State) (n len : Nat) : Nat := if retPass s (loopRef s) then n - len / 2 else n + len / 2

/-- The build line of the loop reference bar has reached image line n. -/
def loopLine (s : State) (n : Nat) : State :=
  let s := if pgEn s pgLoop ∧ loopPeriod s ≠ 0 ∧ n % loopPeriod s = 0 then
      let own := s.cams.ownWindows.filter (fun m => m != n)
      let s := { s with cams := { s.cams with windows := s.cams.windows ++ [n], ownWindows := own } }
      let s := wrf s (ra pgLoop 0x70) 0 0 1
      (List.range 8).foldl (fun s x => if ctxOn s x && ctxLoop s x then writeStrobe s x (middle s n (loopLines s)) else s) s
    else s
  match ladderBase s n with
  | some (base, 0) =>
    if ladderSkipped s base then ev (count s pgLoop 33) pgLoop 15
    else
      let s := { s with cams := { s.cams with ladderLine := some base, ownLadder := none } }
      writeStrobe (wrf s (ra pgLoop 0x70) 1 1 1) (field (ladderCfg s) 7 4 % 8)
        (middle s n (ladderT s * (ladderBars s).length))
  | _ => s

/-! ### The start of a row-line (R174) -/

/-- A row-line that the pass still has: inside the job, and not after the line that JOB_STOP named (R512). -/
def lineLeft (s : State) (b : Nat) (br : Bar) (k : Nat) : Bool :=
  lineExists s b br k &&
    (match br.stopLine with
     | some q => !before br.ret q (imgLine s b br k)
     | none => true)

/-- The sheet that row-line k belongs to has its mark (R181). -/
def sheetBegun (br : Bar) (k : Nat) : Bool := decide (sheetOf br k < br.starts.length)

/-- The compare value of row-line k of a stream (R174, R226). -/
def compareValue (s : State) (b : Nat) (br : Bar) (t : Stream) (k : Nat) : Int :=
  let d : Int := (linePos s b (inSheet br k) : Int) - linePos s b (ahead s b)
  startOf br k + t.g + (if br.ret then -d else d)

/-- The build line of a bar is new: thaw lines, and what the loop reference bar starts (R108, R296, R309). -/
def newBuildLine (s : State) (b : Nat) (prev : Option Int) : State :=
  let s := thawLines s b prev
  if b = loopRef s ∧ 0 ≤ buildLineI s b ∧ lineExists s b (getBar s b)
      (((((getBar s b).streams)[refStream (getBar s b)]?).map (fun t => t.next)).getD 0) = true then
    loopLine s (buildLineI s b).toNat
  else s

/-- A line start of a bar's reference row stream counts for the LINE_LOST episodes of its lanes (R269). -/
def quietLanes (s : State) (b : Nat) : State :=
  (List.range 48).foldl (fun s l =>
    let ln := getLane s l
    let mine := ln.lostBar == b || (ln.lostBar == noBar && (headsOf s b).any (fun h => headLane s b h == l))
    match ln.lost with
    | some e => if mine then setLane s l { ln with lost := some { e with quiet := e.quiet + 1 } } else s
    | none => s) s

/-- What the line start of the reference row stream does before its row-line: live counter 4b, overspeed and the map in
use (R240, R241), the quiet line starts of LINE_LOST (R269), the Drypoint status and the preview (R465). -/
def referenceStart (s : State) (b k n : Nat) : State :=
  let s := quietLanes (overspeed (count s pgLine (4 * b)) b) b
  let br := getBar s b
  let s := if (br.maps.head?.map (fun m => m.2)).getD false = br.fastMap then s
    else setBar s b { br with maps := (k, br.fastMap) :: br.maps }
  let s := if drypLine s b n then wr s (ra pgDryp 0x54) (rd s (ra pgDryp 0x54) &&& 4 ||| 2) else s
  if k = 0 ∨ contoneAbs br (imgLine s b br (k - 1)).toNat ≠ contoneAbs br n then sampleLine s b (contoneAbs br n) else s

/-- The map that row-line k uses (R241). -/
def mapOf (br : Bar) (k : Nat) : Bool :=
  ((br.maps.find? (fun m => decide (m.1 ≤ k))).map (fun m => m.2)).getD false

/-- Ends the line starts of a bar whose row streams have all started their last row-line: it is stopping (07). -/
def endStarts (s : State) (b : Nat) : State :=
  let br := getBar s b
  if br.printing ∧ (br.streams.all (fun t => t.done)) = true then
    setBar s b { br with printing := false, stopping := true, armed := false, sheet := false }
  else s

/-- Row stream i of a bar starts building its next row-line (R174, R109, R110, R188). -/
def startRowLine (s : State) (b i : Nat) : State :=
  let br0 := getBar s b
  match br0.streams[i]? with
  | none => s
  | some t =>
    let k := t.next
    if lineLeft s b br0 k = false then setBar s b { br0 with streams := br0.streams.set i { t with done := true } }
    else
      let n := (imgLine s b br0 k).toNat
      let ref := i == refStream br0
      let s := if ref then referenceStart s b k n else s
      let br := getBar s b
      let uses := (lineTiles s b br t n).map (fun x => (x, tileUse s b br n x))
      let s := uses.foldl (fun s u => if u.2 = .late then recordLate s br n u.1 else s) s
      let l : RowLine :=
        { stream := i, k := k, img := n, built := false, fast := mapOf br k,
          blanks := (uses.filter (fun u => u.2 != .prints)).map (fun u => u.1),
          transient := uses.any (fun u => u.2 == .late || u.2 == .failed), tiles := uses.map (fun u => u.1), string := [] }
      let br := getBar s b
      let next := { t with next := k + 1, done := !lineLeft s b br (k + 1) }
      let s := setBar s b { br with lines := br.lines ++ [l], streams := br.streams.set i next }
      let s := openFetches s b
      if ref then newBuildLine s b (some n) else s

/-- Starts the row-line of a stream whose compare value the high-water or low-water mark has reached. -/
def lineStart (s : State) (b i : Nat) : State :=
  let br := getBar s b
  match br.streams[i]? with
  | none => s
  | some t =>
    let ch := getChan s (lineChan s b)
    let cv := compareValue s b br t t.next
    if !br.printing || t.done || !sheetBegun br t.next then s
    else if (if br.ret then decide (ch.low ≤ cv) else decide (cv ≤ ch.high)) then startRowLine s b i
    else s

/-- MARK_MISS (R181): H has passed the last accepted mark plus MARK_WIN. Only the first miss is recorded. -/
def markMiss (s : State) (b : Nat) : State :=
  let br := getBar s b
  let win : Nat := rdf s (ra pgLine (0x54 + 0x20 * b)) 23 0 * 65536
  match br.lastMark with
  | some m =>
    if br.armed = false ∨ win = 0 then s
    else
      let n := (((getChan s (lineChan s b)).high - m - 1) / (win : Int)).toNat
      if n ≤ br.misses then s
      else
        let s := countN (setBar s b { br with misses := n }) pgLine (4 * b + 3) (n - br.misses)
        if br.misses = 0 then fault (ev s pgLine (8 + b)) 0x0505 1 pgLine b [] else s
  | none => s

/-- All line starts of a bar at a count edge. -/
def lineStarts (s : State) (b : Nat) : State :=
  let s := (List.range (getBar s b).streams.length).foldl (fun s i => lineStart s b i) s
  markMiss (endStarts s b) b

/-! ### Row-lines built (R187, R219, R181) and tiles freed (R103, R106) -/

/-- The contone line, counted over the pass, of the next row-line that a stream has to build. -/
def streamAt (s : State) (b : Nat) (br : Bar) (i : Nat) (t : Stream) : Int :=
  match br.lines.find? (fun l => l.stream == i && !l.built) with
  | some l => (contoneAbs br l.img : Int)
  | none => imgLine s b br t.next / (br.u : Int)

/-- The pass row `a` lies before the next row-line of a stream in build order. -/
def streamPast (s : State) (b : Nat) (br : Bar) (i : Nat) (t : Stream) (a : Nat) : Bool :=
  if br.ret then decide (streamAt s b br i t < (16 * a : Nat)) else decide ((rowLast br a : Int) < streamAt s b br i t)

/-- Every row stream of a bar has built the last line of tile row y of a job: in its pass of the job, or because that
pass has ended and another has begun since. -/
def barPast (s : State) (job b y : Nat) : Bool :=
  let ps := (passesOf s b).filter (fun br => br.job == job)
  (if ps.isEmpty then ((findJob s job).map (fun j => j.started)).getD false else ps.all (fun br => !br.streams.isEmpty)) &&
    ps.all (fun br => br.numbered.all (fun x => streamPast s b br x.1 x.2 y))

/-- Releases what a tile holds (R106). -/
def freeTile (s : State) (t : Tile) : State :=
  let s := if t.length = 0 then s
    else jobAlloc (markDirty s (granAddr s t.gran) t.length) t.job (fun n => n - 256 * grans t.length)
  let s := match t.arriving with
    | some a => jobAlloc (markDirty s (granAddr s a.1) a.2.1) t.job (fun n => n - 256 * grans a.2.1)
    | none => s
  let s := match t.frozen with
    | some f => jobAlloc s t.job (fun n => n - 256 * grans f.2.1)
    | none => s
  setTile s { t with state := 5, gran := 0, length := 0, slot := 0, arriving := none, frozen := none }

/-- Frees the tiles of variable-data jobs that every row stream has passed, and in an open-ended job their tile rows
(R103, R106). -/
def freePassed (s : State) (job : Nat) : State :=
  match findJob s job with
  | none => s
  | some j =>
    if j.repeatLen ≠ 0 then s
    else
      let s := (s.print.tiles.filter (fun t => t.job == job && t.state != 5)).foldl (fun s t =>
        if (readersOf s t.plane).all (fun b => barPast s job b t.y) then freeTile s t else s) s
      if j.openEnded ∧ ((List.range 8).filter (bitOf j.mask)).all (fun p =>
          (readersOf s p).all (fun b => barPast s job b j.ringBase)) = true then
        let s := { s with print := { s.print with
            tiles := s.print.tiles.filter (fun t => !(t.job == job && t.y == j.ringBase)) } }
        setJob s { (findJob s job).getD j with ringBase := j.ringBase + 1 }
      else s

/-- Tile columns of a row-line whose fetch is not complete and verified when the pipeline builds it (R115, R132). -/
def unfetched (s : State) (b : Nat) (br : Bar) (l : RowLine) : List Nat :=
  (l.tiles.filter (fun x => !l.blanks.contains x)).filter (fun x =>
    match findSlot s b br x (contoneLine br l.img / 16) with
    | some w => !w.ready
    | none => true)

/-- Prints a tile column blank for want of its fetch: the tile's recovery notes its first blank row-line (R116), and
otherwise FETCH_LATE is recorded once per tile (R132). -/
def fetchLate (s : State) (b : Nat) (br : Bar) (l : RowLine) (t : Stream) (x : Nat) : State :=
  let tile := tileOr s br.job br.plane x (contoneLine br l.img / 16)
  if tile.recovery ≠ 0 ∧ tile.recovery ≠ 4 then
    (if tile.blankAt.isSome then s
     else setTile s { tile with blankAt := some (l.img, targetPos (asOf s b l.img) b br t l.k l.img) })
  else if tile.failed.contains (repeatOf br (contoneAbs br l.img)) || tile.fetchLate || (s.pair.role == 4 && beforeCatchup s b l.img) then s
  else fault (ev (setTile s { tile with fetchLate := true }) pgDrg 13) 0x0401 1 pgDrg b (tileDetail tile)

/-- After building the last line of a sheet's repeat on the reference row stream, the bar arms again (R181). -/
def rearm (s : State) (b : Nat) (l : RowLine) : State :=
  let br := getBar s b
  if br.per ≠ 0 ∧ br.printing ∧ l.stream = refStream br ∧ (l.k + 1) % br.per = 0 ∧
      sheetBegun br (l.k + 1) = false ∧ lineLeft s b br (l.k + 1) = true then
    markMiss (setBar s b { br with armed := true, sheet := false }) b
  else s

/-- The pipeline finishes a row-line of the bar's present pass (R115, R132, R181, R185 to R189, R219). -/
def finishLine (s : State) (b : Nat) : State :=
  match nextToBuild (getBar s b) with
  | none => s
  | some l =>
    match (getBar s b).streams[l.stream]? with
    | none => s
    | some t =>
      let xs := unfetched s b (getBar s b) l
      let s := xs.foldl (fun s x => fetchLate s b (getBar s b) l t x) s
      let l := { l with blanks := l.blanks ++ xs, transient := l.transient || !xs.isEmpty }
      let s := compareLines (lineLBuilt (buildRowLine s b l t))
      let s := rearm s b l
      let s := sendIfLate s b l t
      let s := openFetches s b
      freePassed s (getBar s b).job

/-- ROW_LINE_BUILT (R115, R132, R176, R181, R185 to R189, R219): the pipeline finishes the bar's oldest row-line. -/
def execRowLineBuilt (bar : Nat) (s : State) : Host.Outcome State Fault Refusal :=
  let b := bar % 8
  .next (onPass s b (fun s => (nextToBuild (getBar s b)).isSome) (fun s => finishLine s b))

/-- The oldest built row-line of a stream of the present pass, whose send position is reached. -/
def dueLine (s : State) (b stream : Nat) : Option (RowLine × Stream) :=
  let br := getBar s b
  match br.lines.find? (fun l => l.built && l.stream == stream), br.streams[stream]? with
  | some l, some t => if sendReached s b br t l then some (l, t) else none
  | _, _ => none

/-- Sends that row-line. -/
def sendDue (s : State) (b stream : Nat) : State :=
  match dueLine s b stream with
  | some (l, t) => sendRowLine s b stream l t (getChan s (lineChan (asOf s b l.img) b)).speed.natAbs
  | none => s

/-- LINE_SEND (R176, R217 to R220, R242): the send position of the stream's oldest built row-line is reached. -/
def execLineSend (bar stream : Nat) (s : State) : Host.Outcome State Fault Refusal :=
  let b := bar % 8
  .next (onPass s b (fun s => (dueLine s b stream).isSome) (fun s => sendDue s b stream))

/-- SKIP_EPISODE_END (R243): 1,024 line starts of the reference row stream have passed without a skip. -/
def execSkipEpisodeEnd (bar : Nat) (s : State) : Host.Outcome State Fault Refusal :=
  let b := bar % 8
  let br := getBar s b
  .next <| match br.skip with
    | some e =>
      if 1024 ≤ e.quiet then
        fault (ev (setBar s b { br with skip := none }) (pgPlc b) 11) 0x0601 1 (pgPlc b) b
          [e.count % 2 ^ 32, e.lastImg % 2 ^ 32, e.lastImg / 2 ^ 32]
      else s
    | none => s

/-- The present pass of a bar has sent its last built row-line while stopping. -/
def stopsEmpty (s : State) (b : Nat) : Bool := (getBar s b).stopping && (getBar s b).lines.isEmpty

/-- Forgets the past commits that no row-line needs any more. -/
def forgetPast (s : State) : State :=
  { s with print := { s.print with past := s.print.past.filter (pastNeeded s) } }

/-- The present pass of a bar ends: the bar is idle, in NORMAL with the normal map. -/
def endPass (s : State) (b : Nat) : State :=
  let br := getBar s b
  let s := forgetPast (setBar s b { br with stopping := false, ovs := 0, fastMap := false, maps := [] })
  slowSync (freePassed (setWin (wr s (ra (pgPlc b) 0x5C) 0) b []) br.job)

/-- The oldest stopping pass of a bar ends beside the pass that has begun since (R176). -/
def endOld (s : State) (b : Nat) : State :=
  match (List.range s.print.old.length).find? (fun i =>
      match s.print.old[i]? with | some e => e.1 == b && e.2.lines.isEmpty | none => false) with
  | some i =>
    let s := freePassed s (((s.print.old[i]?).map (fun e => e.2.job)).getD 0)
    releaseSlots (forgetPast { s with print := { s.print with old := s.print.old.eraseIdx i } }) b
  | none => s

/-- BAR_STOPPING_END (07, R241, R244): the last built row-line of a stopping pass has been sent and its fire time has
passed. -/
def execBarStoppingEnd (bar : Nat) (s : State) : Host.Outcome State Fault Refusal :=
  let b := bar % 8
  .next (if s.print.old.any (fun e => e.1 == b && e.2.lines.isEmpty) then endOld s b
    else if stopsEmpty s b && !s.print.old.any (fun e => e.1 == b) then endPass s b
    else s)

/-! ### Waveform validation (R234) and Drypoint results (R229, R230) -/

/-- VALIDATE (R234): a write of WAVE.VALIDATE. A waveform that passes is downloaded to every active HCB. -/
def execValidate (_rq : Requester) (wave : Nat) (s : State) : Host.Outcome State Fault Refusal :=
  let w := wave % 32
  .next (gated s (ra pgWave 0x84) wave (fun s =>
    let r := waveCheck s w
    if r = 0 then hcbLanes s |>.foldl (fun s l => sendWave s l w) (ev (wrf s (ra pgWave 0x80) w w 1) pgWave 8)
    else ev (wr (wrf s (ra pgWave 0x80) w w 0) (ra pgWave 0x88) (256 * r + w)) pgWave 9))

/-- Adds a result to the alignment word at offset `o` of bar b in set `k`. -/
def addAlign (s : State) (k b o : Nat) (r : Int) : State :=
  let a := 0xC80000 + 0x1000 * k + 0x200 * b + o
  wr s a (twos 32 (signed 32 (rd s a) + r))

/-- Copies the alignment block of bar b from set `j` to set `k`. -/
def copyAlign (s : State) (j k b : Nat) : State :=
  (List.range 128).foldl (fun s i =>
    let o := 0x200 * b + 4 * i
    if windowMask (0xC80000 + o) = 0 then s
    else wr s (0xC80000 + 0x1000 * k + o) (rd s (0xC80000 + 0x1000 * j + o))) s

/-- A commit replaced the value of the register at `a`, and the value it replaced, of which `sel` takes the selection, is
`k` and still in effect for an image line that some row stream of the bar has to build, begun or not, or, with `sends`,
that some row-line of it has to send. -/
def oldSelects (s : State) (b a : Nat) (sel : Nat → Nat) (k : Nat) (sends : Bool) : Bool :=
  s.print.past.any (fun e =>
    e.bar == b && e.old.any (fun x => x.1 == a && sel x.2.toNat == k) &&
      (linesLeft s b e.job sends).any (fun n => before e.ret n e.line))

/-- A printing bar has selected `k` by the register at `a` (R48): committed, named by a pending commit, or still in
effect. -/
def selects (s : State) (b a : Nat) (sel : Nat → Nat) (k : Nat) (sends : Bool) : Bool :=
  printing s b &&
    (sel (cm s a) == k || (commitPending s (a / 4096) && sel (rd s a) == k) || oldSelects s b a sel k sends)

/-- Alignment set k is selected (R48, R222). -/
def alignSelected (s : State) (b k : Nat) : Bool := selects s b (ra (pgPlc b) 0x44) (fun v => v % 16) k true

/-- Refuses a write on the BAR page of every bar of a list. -/
def refuseBars (s : State) (bs : List Nat) : State := bs.foldl (fun s b => refuse s (pgBar b)) s

/-- RESULT[i] of Drypoint. -/
def drypResult (s : State) (i : Nat) : Int := signed 32 (rd s (ra pgDryp (0x400 + 4 * i)))

/-- Number of results of the committed pattern (R229). -/
def drypCount (s : State) : Nat :=
  if drypPattern s = 1 then 8
  else if drypPattern s = 2 then 32
  else if drypPattern s = 3 then headRows s (drypBar s) (drypHead s) * ceilDiv (headNpr s (drypBar s) (drypHead s)) 32
  else 0

/-- The pattern prints a mark for result i: a bar of BARS, an enabled head, any group. -/
def drypExpected (s : State) (i : Nat) : Bool :=
  if drypPattern s = 1 then bitOf (field (drypCfg s) 15 8) i
  else if drypPattern s = 2 then headEn s (drypBar s) i
  else true

/-- The bars that AUTO corrects (R230). -/
def drypBars (s : State) : List Nat :=
  if drypPattern s = 1 then (List.range 8).filter (fun b => bitOf (field (drypCfg s) 15 8) b) else [drypBar s]

/-- The alignment set that a bar has committed. -/
def alignSel (s : State) (b : Nat) : Nat := cmf s (ra (pgPlc b) 0x44) 3 0

/-- The selected set is copied into the spare one (R230): whole, from the lowest of the bars concerned; a bar concerned
that has selected another set keeps its own block. -/
def copySelected (s : State) (spare : Nat) (bs : List Nat) : State :=
  let first := alignSel s (bs.headD 0)
  let s' := (List.range 8).foldl (fun t b => copyAlign t first spare b) s
  bs.foldl (fun t b => if alignSel s b = first then t else copyAlign t (alignSel s b) spare b) s'

/-- AUTO applies the results of BAR or HEAD to the spare set and commits SET_SEL 1,024 lines later (R230). A spare set
that a printing bar has selected is not written, and each such bar says so as for any write of the set (R48). -/
def drypAuto (s : State) : State :=
  let spare := field (drypCfg s) 30 27
  let bs := (drypBars s).filter (fun b => !commitPending s (pgPlc b) && alignSel s b != spare)
  let users := (List.range 8).filter (fun b => alignSelected s b spare)
  if users ≠ [] then refuseBars s users
  else
    let s := if bs.isEmpty then s else copySelected s spare bs
    bs.foldl (fun s b =>
      let s := if drypPattern s = 1 then addAlign s spare b (if retPass s b then 4 else 0) (drypResult s b)
        else (List.range 32).foldl (fun s h =>
          addAlign s spare b ((if retPass s b then 0x100 else 0x80) + 4 * h) (drypResult s h)) s
      let s := wrf s (ra (pgPlc b) 0x44) 3 0 spare
      if printing s b then armAt s (pgPlc b) ((lineAfter s b 1024 % (2 ^ 32 : Nat)).toNat)
      else armAt s (pgPlc b) 1024) s

/-- The results of a pattern from the position errors of its marks (R229): those of BAR are relative to the mark of bar
REF, so that its own is 0, and none can be formed without that mark. -/
def drypResults (s : State) (errors : List (Option Int)) : List (Option Int) :=
  if drypPattern s = 1 then
    (match (errors[field (drypCfg s) 26 24]?).join with
     | some r => errors.map (fun e => e.map (fun x => x - r))
     | none => errors.map (fun _ => none))
  else errors

/-- Writes the results of a pattern, raises DONE, and applies them with AUTO (R229, R230). A mark not found has no
result: its word keeps 0 and NOT_FOUND is raised. -/
def drypDone (s : State) (errors : List (Option Int)) : State :=
  let n := min (drypCount s) 256
  let results := drypResults s errors
  let rs := (List.range n).map (fun i => (results[i]?).join)
  let s := (List.range n).foldl (fun s i =>
    wr s (ra pgDryp (0x400 + 4 * i)) (twos 32 (((rs[i]?).join).getD 0))) s
  let s := wr s (ra pgDryp 0x54) 4
  let missing := (List.range n).any (fun i => drypExpected s i && ((rs[i]?).join).isNone)
  let s := ev (if missing then ev s pgDryp 10 else s) pgDryp 8
  let auto := bitOf (drypCfg s) 31 && (drypPattern s == 1 || drypPattern s == 2)
  if auto = false then s
  else if (List.range n).any (fun i => decide (signed 32 (rd s (ra pgDryp 0x50)) < ((drypResult s i).natAbs : Int))) then
    ev s pgDryp 9
  else drypAuto s

/-- The payload of a DRYPOINT input: a presence byte and a signed word per result. -/
def drypPayload (results : List (Option Int)) : List Byte :=
  results.flatMap (fun r => match r with
    | some x => leBytes 1 1 ++ leBytes 4 (twos 32 x)
    | none => leBytes 1 0 ++ zeroBytes 4)

/-- The results that a payload of `n` results holds. -/
def drypRead (p : List Byte) (n : Nat) : List (Option Int) :=
  (List.range n).map (fun i => if bytesAt p (5 * i) 1 = 1 then some (signed 32 (bytesAt p (5 * i + 1) 4)) else none)

/-- The marks that core 1 can have found: none in a frame of DRYP.CFG.CTX that was flagged or unsolicited, which never
contributes to a Drypoint result (R283, R285). -/
def drypFound (s : State) (results : List (Option Int)) : List (Option Int) :=
  if (getCtx s (field (drypCfg s) 19 16 % 8)).unfit then results.map (fun _ => none) else results

/-- DRYPOINT_DONE (R229, R230): control core 1 has found the marks of the pattern. -/
def execDrypointDone (results : List (Option Int)) (s : State) : Host.Outcome State Fault Refusal :=
  .next (if drypOn s then
      let found := drypFound s results
      asInput s 5 (refBar s) none (drypPayload found) (fun s => drypDone s found)
    else s)

end Sys2Proof.Machine
end

