-- ==== Sys2Proof/Machine/Isp.lean ====
section
/-! DEFINITION. The camera pipeline (10): from the pixels of a capture ring slot to densities, the raw taps, the
measurement geometry, the patches of a measurement window and the columns of a ladder. -/

namespace Sys2Proof.Machine

open Sys2Proof

/-! ### Context tables -/

/-- Reset value of an ISP table word: shading gains 1.0, WHITE at full scale, all others 0. -/
def ispReset (k : Nat) : Word :=
  let i := k % 65536
  if 0x100 ≤ i then 0x4000#32 else if 0x8 ≤ i ∧ i < 0xD then 0x3FFF#32 else 0#32

/-- A word of a context's table. -/
def ispWord (s : State) (x i : Nat) : Nat := (tget ispReset s.cams.ispTable (65536 * x + i)).toNat

/-- The registers of a context that the pipeline loads, SRC to ROW_PITCH (R286). -/
def ctxRegs (s : State) (x : Nat) : List Nat := (List.range 11).map (fun i => rd s (ctxA x (4 * i)))

/-- The table words of a context. -/
def ctxTable (s : State) (x : Nat) : Tab Word := s.cams.ispTable.filter (fun e => e.1 / 65536 == x)

/-- The state in which a context has the given parameters. -/
def withParams (s : State) (x : Nat) (regs : List Nat) (table : Tab Word) : State :=
  let s := (List.range 11).foldl (fun s i => wr s (ctxA x (4 * i)) ((regs[i]?).getD 0)) s
  let others := s.cams.ispTable.filter (fun e => e.1 / 65536 != x)
  { s with cams := { s.cams with ispTable := table.foldl (fun t e => tset t e.1 e.2) others } }

/-- Mosaic code of a pixel. -/
def mosaic (s : State) (x px py : Nat) : Nat :=
  rd64 s (ctxA x 0x10) / 2 ^ (3 * (4 * (py % 4) + px % 4)) % 8

/-- Some cell of a context's map holds a code. -/
def mapHolds (s : State) (x o : Nat) : Bool := (List.range 16).any (fun c => mosaic s x (c % 4) (c / 4) == o)

/-- FMT: bits of a raw pixel. -/
def rawBits (s : State) (x : Nat) : Nat := 10 + 2 * field (ctxSrc s x) 9 8

/-! ### Stages (R288 to R291) -/

/-- Address of a pixel in a capture ring slot (R284). -/
def pixelAddr (s : State) (x slot px py : Nat) : Nat :=
  rdf s (ctxA x 8) 17 0 * 2 ^ 20 + 2 * (ctxWidth s x * ctxHeight s x * slot + ctxWidth s x * py + px)

/-- p0: the raw pixel as a 14-bit linear value (R288). -/
def stage0 (s : State) (x slot px py : Nat) : Nat :=
  leNat (memRead s.dram.mem (pixelAddr s x slot px py) 2) * 2 ^ (14 - rawBits s x)

/-- p1: black level (R288). -/
def stage1 (s : State) (x slot px py : Nat) : Nat :=
  stage0 s x slot px py - ispWord s x (mosaic s x px py) % 2 ^ 14

/-- A shading gain at a grid point. -/
def gainAt (s : State) (x code gi gj : Nat) : Nat := ispWord s x (0x100 + 297 * code + 33 * gj + gi) % 2 ^ 16

/-- p2: illumination shading (R289). -/
def stage2 (s : State) (x slot px py : Nat) : Nat :=
  let gx := ceilDiv (ctxWidth s x) 32
  let gy := ceilDiv (ctxHeight s x) 8
  let i := px / gx
  let fx := px % gx
  let j := py / gy
  let fy := py % gy
  let g (a b : Nat) : Nat := gainAt s x (mosaic s x px py) a b
  let sum := g i j * (gx - fx) * (gy - fy) + g (i + 1) j * fx * (gy - fy) + g i (j + 1) * (gx - fx) * fy +
    g (i + 1) (j + 1) * fx * fy
  satN 14 (roundHalfUp ((stage1 s x slot px py : Int) * roundHalfUp sum (gx * gy)) 16384)

/-- K_o(i, j), with i and j counted from 0 for -2. -/
def kernel (s : State) (x o i j : Nat) : Int := signed 12 (ispWord s x (0x40 + 25 * o + 5 * j + i))

/-- The 25 neighbours of a kernel. -/
def taps25 : List (Nat × Nat) := (List.range 25).map (fun n => (n % 5, n / 5))

/-- den of R290 at a position of the map. -/
def kernelDen (s : State) (x o px py : Nat) : Int :=
  (taps25.map (fun t => if mosaic s x (px + t.1 + 2) (py + t.2 + 2) = o then kernel s x o t.1 t.2 else 0)).sum

/-- The two outermost rows and columns are never measured (R290). -/
def inner (s : State) (x px py : Nat) : Bool :=
  decide (2 ≤ px) && decide (px + 2 < ctxWidth s x) && decide (2 ≤ py) && decide (py + 2 < ctxHeight s x)

/-- r_o: reconstruction of one channel (R290). -/
def stage3 (s : State) (x slot o px py : Nat) : Nat :=
  if inner s x px py && mapHolds s x o then
    let num : Int := (taps25.map (fun t =>
      let qx := px + t.1 - 2
      let qy := py + t.2 - 2
      if mosaic s x qx qy = o then kernel s x o t.1 t.2 * (stage2 s x slot qx qy : Int) else 0)).sum
    satN 14 (roundHalfUp num (kernelDen s x o px py).toNat)
  else 0

/-- The density of a quotient q of 2^16 (R291): floor or ceiling of the exact -log10(q / 65,536) x 4,096. The exact
value is an integer only at q = 65,536, where 0 or 1 lies within the bound. -/
def densityOf (q : Nat) : Nat :=
  min 19728 (Nat.log 10 (2 ^ 65536 / (max q 1) ^ 4096) + b2n (Config.densityUp (max q 1)))

/-- d_o: density of one channel (R291). -/
def stage4 (s : State) (x slot o px py : Nat) : Nat :=
  densityOf (min 65536 (stage3 s x slot o px py * 65536 / (ispWord s x (8 + o) % 2 ^ 14)))

/-- D_j: the density matrix (R291). -/
def stage5 (s : State) (x slot j px py : Nat) : Nat :=
  let sum : Int := ((List.range 5).map (fun o =>
    signed 16 (ispWord s x (0x10 + 5 * j + o)) * (stage4 s x slot o px py : Int))).sum
  satN 16 (roundHalfUp sum 4096 + signed 16 (ispWord s x (0x28 + j)))

/-! ### Raw taps (R292) -/

/-- Bytes of a pixel at a tap. -/
def tapBytes (t : Nat) : Nat := if t < 3 then 2 else if t = 3 then 10 else 8

/-- Bytes of a tap slot. -/
def tapSize (s : State) (x t : Nat) : Nat := ctxWidth s x * ctxHeight s x * tapBytes t

/-- TAPS of a context. -/
def tapOn (s : State) (x t : Nat) : Bool := bitOf (ctxSrc s x) t

/-- Bytes of the whole tap area: two slots of each tap of TAPS. -/
def tapArea (s : State) (x n : Nat) : Nat :=
  (((List.range n).filter (tapOn s x)).map (fun t => 2 * tapSize s x t)).sum

/-- The stream of a pixel at a tap. -/
def tapPixel (s : State) (x slot t px py : Nat) : List Byte :=
  if t = 0 then leBytes 2 (stage0 s x slot px py)
  else if t = 1 then leBytes 2 (stage1 s x slot px py)
  else if t = 2 then leBytes 2 (stage2 s x slot px py)
  else if t = 3 then (List.range 5).flatMap (fun o => leBytes 2 (stage3 s x slot o px py))
  else (List.range 4).flatMap (fun j => leBytes 2 (stage5 s x slot j px py))

/-- Positions of a frame, row by row. -/
def framePixels (s : State) (x : Nat) : List (Nat × Nat) :=
  (List.range (ctxWidth s x * ctxHeight s x)).map (fun n => (n % ctxWidth s x, n / ctxWidth s x))

/-- ISP.CTXk_TAP_STAT follows the full bits. -/
def setTaps (s : State) (x v : Nat) : State := wr (setCtx s x { getCtx s x with taps := v }) (ctxA x 0x38) v

/-- Writes one tap of a frame into its lower slot that is not full; with both full the tap is skipped (R292). -/
def writeTap (s : State) (x slot t : Nat) : State :=
  let full := (getCtx s x).taps
  let put (n : Nat) : State :=
    let a := rdf s (ctxA x 0xC) 17 0 * 2 ^ 20 + tapArea s x t + n * tapSize s x t
    let s := demand s 3 (tapSize s x t)
    let s := { s with dram := { s.dram with
        mem := memWrite s.dram.mem a ((framePixels s x).flatMap (fun q => tapPixel s x slot t q.1 q.2)) } }
    setTaps s x (full ||| 2 ^ (2 * t + n))
  if bitOf full (2 * t) = false then put 0
  else if bitOf full (2 * t + 1) = false then put 1
  else ev (count s pgIsp (4 * x + 3)) pgIsp 12

/-! ### Measurement geometry (R293, R294) -/

/-- c(x): the nozzle column that a pixel column shows. -/
def shownCol (s : State) (x px : Nat) : Int :=
  (signed 32 (rd s (ctxA x 0x18)) * 16 + px * signed 32 (rd s (ctxA x 0x1C))) / 65536

/-- The largest k with L(k) at or before d counts of 2^-16. -/
def lineAtDist (s : State) (b d : Nat) : Nat := Nat.findGreatest (fun k => linePos s b k ≤ d) (d / pitch s b)

/-- The image line that passes web point q on the reference bar, in its pass or the sheet begun last before q. -/
def lineShown (s : State) (b : Nat) (q : Int) : Option Nat :=
  let br := getBar s b
  if br.ret then
    let d := startOf br 0 - q
    if d < 0 ∨ br.len ≤ lineAtDist s b d.toNat then none else some (br.len - 1 - lineAtDist s b d.toNat)
  else
    let begun := br.starts.filter (fun x => decide (x ≤ q))
    match begun.getLast? with
    | none => none
    | some x =>
      let k := lineAtDist s b (q - x).toNat
      if br.per ≠ 0 ∧ br.per ≤ k then none else some ((begun.length - 1) * br.per + k)

/-- The image line of row y at a strobe of compare value p (R294). -/
def rowLineShown (s : State) (x : Nat) (p : Int) (py : Nat) : Option Nat :=
  lineShown s (loopRef s) (p - (ctxLoc s x + py * rowPitch s x))

/-! ### Patches (R295) -/

/-- LOOP.CFG.BARS. -/
def loopBars (s : State) : List Nat := (List.range 8).filter (fun b => bitOf (rdf s (ra pgLoop 0x40) 15 8) b)

/-- Adds one pixel to the patch it falls in. -/
def patchPixel (s : State) (x slot : Nat) (p : Int) (px py : Nat) : State :=
  match loopBars s, rowLineShown s x p py with
  | b0 :: _, some n =>
    let ci := shownCol s x px
    let c := ci.toNat
    let o := (c - firstCol s b0) % 64
    if inner s x px py = true ∧ 0 ≤ ci ∧ (loopBars s).all (fun b => inImage s b (getBar s b) c) = true ∧
        loopGuard s ≤ o ∧ o + loopGuard s < 64 then
      match patchLine s (retPass s (loopRef s)) n with
      | some (w, stripe) =>
        let k := patchKey w 0 ((c - firstCol s b0) / 64) stripe
        let e := tget (fun _ => ({} : Patch)) s.cams.patches k
        let d := (List.range 4).map (fun j => (e.d[j]?).getD 0 + stage5 s x slot j px py)
        { s with cams := { s.cams with patches := tset s.cams.patches k { pixels := e.pixels + 1, d := d } } }
      | none => s
    else s
  | _, _ => s

/-- Accumulates the patches of a frame. -/
def measureFrame (s : State) (x slot : Nat) (p : Int) : State :=
  (framePixels s x).foldl (fun s q => patchPixel s x slot p q.1 q.2) s

/-! ### Ladder columns (R311) -/

/-- LOOP.CHAN of a bar. -/
def loopChan (s : State) (b : Nat) : Nat := field (rd s (ra pgLoop 0x64)) (2 * b + 1) (2 * b)

/-- Rows of a frame whose image line lies strictly between two lines. -/
def rowsBetween (s : State) (x : Nat) (p : Int) (lo hi : Nat) : List Nat :=
  (List.range (ctxHeight s x)).filter (fun y => match rowLineShown s x p y with
    | some n => decide (lo < n) && decide (n < hi) && inner s x 2 y
    | none => false)

/-- Sum of D_j of a pixel column over rows. -/
def columnSum (s : State) (x slot j px : Nat) (rows : List Nat) : Nat :=
  (rows.map (fun y => stage5 s x slot j px y)).sum

/-- The pixel column that shows column c. -/
def pixelFor (s : State) (x c : Nat) : Int :=
  Int.fdiv ((c : Int) * 65536 - signed 32 (rd s (ctxA x 0x18)) * 16) (signed 32 (rd s (ctxA x 0x1C)))

/-- What a ladder frame shows of column c of the i-th ladder bar. -/
def readColumn (s : State) (x slot : Nat) (p : Int) (base i b c : Nat) : Option LadderCol :=
  let first := base + i * ladderT s + (c % ladderSteps s) * (ladderDash s + ladderGap s)
  let dash := rowsBetween s x p first (first + ladderDash s - 1)
  let gap := rowsBetween s x p (first + ladderDash s) (first + ladderDash s + ladderGap s - 1)
  let xc := pixelFor s x c
  let shown := decide (3 ≤ xc) && decide (xc + 3 < ctxWidth s x) && signed 32 (rd s (ctxA x 0x1C)) != 0
  if shown = false ∨ dash.isEmpty = true ∨ gap.isEmpty = true then none
  else
    let a (px : Nat) : Nat :=
      columnSum s x slot (loopChan s b) px dash * gap.length - columnSum s x slot (loopChan s b) px gap * dash.length
    let xs := [xc.toNat - 1, xc.toNat, xc.toNat + 1]
    let total := (xs.map a).sum
    let at2 (px : Nat) : Int :=
      2 * signed 32 (rd s (ctxA x 0x18)) * 16 + (2 * px + 1) * signed 32 (rd s (ctxA x 0x1C)) - (2 * c + 1) * 65536
    let moment : Int := (xs.map (fun px => (a px : Int) * at2 px)).sum
    let devMax := rdf s (ra pgLoop 0x94) 7 0
    some { bar := b, col := c, amp := total, scale := dash.length * gap.length,
           wide := decide (devMax * total * 131072 < moment.natAbs) }

/-- Reads all columns of a ladder. -/
def readLadder (s : State) (x slot : Nat) (p : Int) (base : Nat) : State :=
  let cols := (List.range (ladderBars s).length).flatMap (fun i =>
    let b := ((ladderBars s)[i]?).getD 0
    (List.range (ncols s b)).filterMap (readColumn s x slot p base i b))
  { s with cams := { s.cams with ladderRead := cols, ownLadder := some base } }

end Sys2Proof.Machine
end

