-- ==== Sys2Proof/Machine/Camera.lean ====
section
/-! DEFINITION. Cameras (10): CSI-2 packets, frames and their slots, strobes, the shared pipeline, and the enable of a
context. -/

namespace Sys2Proof.Machine

open Sys2Proof

/-! ### Packets and lines (R279, R280, R285) -/

/-- The enabled context that names a port and virtual channel (R281). -/
def ctxFor (s : State) (p c : Nat) : Option Nat :=
  if pgEn s pgIsp then
    (List.range 8).find? (fun x => ctxOn s x && field (ctxSrc s x) 17 16 == p && field (ctxSrc s x) 13 12 == c)
  else none

/-- Slot i of the capture ring. -/
def slotOf (c : Ctx) (i : Nat) : Nat := if i = 0 then c.slot0 else c.slot1

/-- Sets slot i, with FSTAT. -/
def setSlot (s : State) (x i v : Nat) : State :=
  let c := getCtx s x
  let s := setCtx s x (if i = 0 then { c with slot0 := v } else { c with slot1 := v })
  if i = 0 then wrf s (ctxA x 0x30) 1 0 v else wrf s (ctxA x 0x30) 3 2 v

/-- Changes the frame that a context is capturing. -/
def withFrame (s : State) (x : Nat) (g : Frame → Frame) : State :=
  setCtx s x { getCtx s x with current := (getCtx s x).current.map g }

/-- A line that is not written passes: its frame is ERR, and LONG beyond HEIGHT (R280, R285). -/
def lostLine (s : State) (x : Nat) : State :=
  withFrame s x (fun f => { f with
    err := true, long := f.long || decide (ctxHeight s x ≤ f.lines), lines := f.lines + 1 })

/-- A packet is discarded: its open frame is ERR (R280); the line of a long packet is not written but passes. -/
def badPacket (s : State) (p c : Nat) (line : Bool) : State :=
  match ctxFor s p c with
  | some x => if line then lostLine s x else withFrame s x (fun f => { f with err := true })
  | none => s

/-- Pixel i of a RAW10, RAW12 or RAW14 line as CSI-2 packs it. -/
def rawPixel (fmt : Nat) (bs : List Byte) (i : Nat) : Nat :=
  if fmt = 0 then bytesAt bs (5 * (i / 4) + i % 4) 1 * 4 + bytesAt bs (5 * (i / 4) + 4) 1 / 4 ^ (i % 4) % 4
  else if fmt = 1 then bytesAt bs (3 * (i / 2) + i % 2) 1 * 16 + bytesAt bs (3 * (i / 2) + 2) 1 / 16 ^ (i % 2) % 16
  else bytesAt bs (7 * (i / 4) + i % 4) 1 * 64 + bytesAt bs (7 * (i / 4) + 4) 3 / 64 ^ (i % 4) % 64

/-- Writes a line of the open frame to its slot (R284). -/
def writeLine (s : State) (x : Nat) (f : Frame) (payload : List Byte) : State :=
  let w := ctxWidth s x
  let bytes := (List.range w).flatMap (fun i => leBytes 2 (rawPixel (field (ctxSrc s x) 9 8) payload i))
  let s := demand s 3 (2 * w)
  let s := { s with dram := { s.dram with mem := memWrite s.dram.mem (pixelAddr s x f.slot 0 f.lines) bytes } }
  withFrame s x (fun f => { f with lines := f.lines + 1 })

/-- A sound long packet of the open frame: wrong length, beyond HEIGHT, or a line (R280, R285). -/
def takeLine (s : State) (x wc : Nat) (payload : List Byte) : State :=
  match (getCtx s x).current with
  | none => s
  | some f =>
    if 8 * wc ≠ ctxWidth s x * rawBits s x then lostLine s x
    else if ctxHeight s x ≤ f.lines then withFrame s x (fun f => { f with long := true })
    else writeLine s x f payload

/-- CSI_PACKET (R279, R280, R284, R285): a packet other than a frame start or frame end. -/
def execCsiPacket (port vc dataType wordCount : Nat) (ecc : EccStatus) (crcOk : Bool) (payload : List Byte)
    (s : State) : Host.Outcome State Fault Refusal :=
  let p := port % 4
  .next (if pgEn s (pgCam p) = false then s
    else
      let s := if ecc = .corrected then ev (count s (pgCam p) 1) (pgCam p) 8 else s
      if ecc = .bad then badPacket (ev (count s (pgCam p) 2) (pgCam p) 8) p vc false
      else if vc < 4 ∧ (dataType = 2 ∨ dataType = 3) then s
      else if 4 ≤ vc ∨ dataType < 0x2B ∨ 0x2D < dataType then badPacket (count s (pgCam p) 4) p vc false
      else
        let s := count s (pgCam p) 0
        if crcOk = false then badPacket (ev (count s (pgCam p) 3) (pgCam p) 9) p vc true
        else if s.cams.skipping.contains (p, vc) then s
        else match ctxFor s p vc with
          | some x => takeLine s x wordCount payload
          | none => s)

/-! ### Frames (R281, R283 to R285) -/

/-- Closes the open frame of a context: its flags, and its slot READY (R285). -/
def closeFrame (s : State) (x : Nat) (early : Bool) : State :=
  match (getCtx s x).current with
  | none => s
  | some f =>
    let f := { f with short := decide (f.lines < ctxHeight s x), err := f.err || early }
    let c := getCtx s x
    let s := setSlot (setCtx s x { c with current := none, ready := c.ready ++ [f] }) x f.slot 2
    let s := wrf s (ctxA x 0x30) 10 8 (b2n f.short + 2 * b2n f.long + 4 * b2n f.err)
    if f.short || f.long || f.err then ev (count s pgIsp (4 * x + 2)) pgIsp 10 else s

/-- A frame starts in a context: the frame still open closes, the oldest strobe is matched, and a FREE slot is taken
(R283, R284, R285). -/
def openFrame (s : State) (p c x number : Nat) : State :=
  let s := closeFrame s x true
  let st := (getCtx s x).strobes
  let s := setCtx s x { getCtx s x with strobes := st.drop 1 }
  let s := wrf s (ctxA x 0x30) 31 16 number
  let take (i : Nat) : State :=
    let f : Frame := { slot := i, number := number % 65536, lines := 0, short := false, long := false, err := false,
                       strobe := st.head? }
    setSlot (setCtx s x { getCtx s x with current := some f }) x i 1
  if (getCtx s x).slot0 = 0 then take 0
  else if (getCtx s x).slot1 = 0 then take 1
  else
    let s := ev (count s pgIsp (4 * x + 1)) pgIsp 9
    { s with cams := { s.cams with skipping := s.cams.skipping ++ [(p, c)] } }

/-- FRAME_START (R279, R281, R283 to R285). -/
def execFrameStart (port vc number : Nat) (s : State) : Host.Outcome State Fault Refusal :=
  let p := port % 4
  .next (if pgEn s (pgCam p) = false then s
    else if 4 ≤ vc then count s (pgCam p) 4
    else
      let s := count s (pgCam p) 5
      let s := { s with cams := { s.cams with skipping := s.cams.skipping.filter (fun e => e != (p, vc)) } }
      match ctxFor s p vc with
      | some x => openFrame s p vc x number
      | none =>
        let s := ev (count s (pgCam p) 6) (pgCam p) 10
        { s with cams := { s.cams with skipping := s.cams.skipping ++ [(p, vc)] } })

/-- FRAME_END (R281, R285). -/
def execFrameEnd (port vc : Nat) (s : State) : Host.Outcome State Fault Refusal :=
  let p := port % 4
  .next (if pgEn s (pgCam p) = false then s
    else if 4 ≤ vc then count s (pgCam p) 4
    else match ctxFor s p vc with
      | some x => closeFrame s x false
      | none => s)

/-- STROBE_TIMEOUT (R283): no frame start has followed the oldest strobe within TIMEOUT. -/
def execStrobeTimeout (ctx : Nat) (s : State) : Host.Outcome State Fault Refusal :=
  let x := ctx % 8
  let c := getCtx s x
  .next (if ctxOn s x ∧ c.strobes ≠ [] then
      let s := count (setCtx s x { c with strobes := c.strobes.drop 1 }) pgIsp (4 * x + 1)
      fault (ev s pgIsp 11) 0x0801 1 pgIsp noBar [x]
    else s)

/-! ### The shared pipeline (R286, R287) -/

/-- PRIO of a context. -/
def ctxPrio (s : State) (x : Nat) : Nat := field (ctxSrc s x) 22 20

/-- A frame of a context may begin now: frames of other contexts than loop and ladder contexts are throttled work
(R287, R436). DEDUCED (log 53): the taps of a frame that has begun finish with it, as R436's unit is a camera frame, and
a pause before a frame holds up no frame of a loop or ladder context. -/
def mayBeginFrame (s : State) (x : Nat) : Bool := ctxLoop s x || bitOf (ctxSrc s x) 6 || mayThrottled s

/-- The context whose READY frame the idle pipeline takes: highest priority, then lowest number, among those that may
begin (R286, R287). -/
def nextCtx (s : State) : Option Nat :=
  (List.range 8).foldl (fun best x =>
    if (getCtx s x).ready.isEmpty || !mayBeginFrame s x then best
    else match best with
      | none => some x
      | some y => if ctxPrio s x < ctxPrio s y then some x else best) none

/-- PIPELINE_START (R286): the idle pipeline takes a READY frame and loads the parameters of its context. -/
def execPipelineStart (s : State) : Host.Outcome State Fault Refusal :=
  .next <| match s.cams.busy, nextCtx s with
    | none, some x =>
      match (getCtx s x).ready with
      | f :: r =>
        if pgEn s pgIsp then
          let s := setSlot (setCtx s x { getCtx s x with ready := r }) x f.slot 3
          let cams := { s.cams with busy := some (x, f), loadedRegs := ctxRegs s x, loadedTable := ctxTable s x }
          wr { s with cams := cams } (ra pgIsp 0x4C) (8 + x)
        else s
      | [] => s
    | _, _ => s

/-- What a finished frame gives to the loop or to the ladder: only an unflagged frame with a strobe (R283, R285). -/
def useFrame (s : State) (x : Nat) (f : Frame) : State :=
  match f.strobe, f.short || f.long || f.err with
  | some p, false =>
    let s := if ctxLoop s x && pgEn s pgLoop then measureFrame s x f.slot p else s
    match bitOf (ctxSrc s x) 6 && ladderOn s && field (ladderCfg s) 7 4 == x, s.cams.ladderLine with
    | true, some base => readLadder s x f.slot p base
    | _, _ => s
  | _, _ => s

/-- What the pipeline does with a frame: its taps and its results, with the parameters loaded at its first tick; the
context then has its present ones again (R286). -/
def processFrame (s : State) (x : Nat) (f : Frame) : State :=
  let regs := ctxRegs s x
  let table := ctxTable s x
  let s := withParams s x s.cams.loadedRegs s.cams.loadedTable
  let s := ((List.range 5).filter (tapOn s x)).foldl (fun s t => writeTap s x f.slot t) s
  let s := withParams (useFrame s x f) x regs table
  setCtx s x { getCtx s x with unfit := f.short || f.long || f.err || f.strobe.isNone }

/-- PIPELINE_DONE (R284, R286, R288 to R295): the pipeline finishes its frame. -/
def execPipelineDone (s : State) : Host.Outcome State Fault Refusal :=
  .next <| match s.cams.busy with
    | some (x, f) =>
      let s := processFrame s x f
      let s := setSlot (wr { s with cams := { s.cams with busy := none } } (ra pgIsp 0x4C) 0) x f.slot 0
      ev (count s pgIsp (4 * x)) pgIsp 8
    | none => s

/-- TAP_REL (R292): a write of ISP.CTXk_TAP_REL releases tap slots. -/
def execTapRel (_rq : Requester) (ctx : Nat) (val : Word) (s : State) : Host.Outcome State Fault Refusal :=
  let x := ctx % 8
  .next (gated s (ctxA x 0x34) val.toNat (fun s =>
    setTaps s x ((getCtx s x).taps &&& (0x3FF ^^^ (val.toNat &&& 0x3FF)))))

/-! ### Enabling a context (R282, R283) -/

/-- Bytes of a context's capture ring. -/
def captureSize (s : State) (x : Nat) : Nat := 4 * (ctxWidth s x * ctxHeight s x)

/-- Areas of image memory that a context uses: start and length in bytes. -/
def ctxAreas (s : State) (x : Nat) : List (Nat × Nat) :=
  [(rdf s (ctxA x 8) 17 0 * 2 ^ 20, captureSize s x), (rdf s (ctxA x 0xC) 17 0 * 2 ^ 20, tapArea s x 5)]

/-- The journal's region (R80): 8 MiB of results and its 256 entries. DESIGN CHOICE (log 64): its place is free, and an entry
takes a free size below 4 KiB. -/
def journalArea : Nat × Nat := (Config.journalStart, 8 * 2 ^ 20 + Config.journalBytes % 2 ^ 20)

/-- The FIRN regions and the journal (R101, R80). -/
def fixedAreas (s : State) : List (Nat × Nat) :=
  let mib (o : Nat) : Nat := cmf s (ra pgFirn o) 17 0 * 2 ^ 20
  [(mib 0x40, mib 0x44), (mib 0x48, mib 0x4C), (mib 0x50, mib 0x70),
   journalArea]

/-- Two areas overlap. -/
def overlap (a b : Nat × Nat) : Bool := decide (0 < a.2 ∧ 0 < b.2 ∧ a.1 < b.1 + b.2 ∧ b.1 < a.1 + a.2)

/-- Check 3: areas of another context, enabled or not, FIRN, the journal, or the end of image memory. A context without a
SIZE has none. -/
def areaClash (s : State) (x : Nat) : Bool :=
  let others := fixedAreas s ++ ((List.range 8).filter (fun y => y != x)).flatMap (ctxAreas s)
  (ctxAreas s x).any (fun a => others.any (overlap a) || (a.2 != 0 &&
    decide (drgSize s * 2 ^ 20 < a.1 + a.2)))

/-- The registers check of an enable, 0 when all pass; the strobe claim follows. -/
def ctxCheck (s : State) (x : Nat) : Nat :=
  let src := ctxSrc s x
  let size (n : Nat) : Bool := decide (16 ≤ n) && decide (n ≤ 16384) && n % 4 == 0
  if (List.range 8).any (fun y => y != x && ctxOn s y && field (ctxSrc s y) 17 16 == field src 17 16 &&
      field (ctxSrc s y) 13 12 == field src 13 12) then 1
  else if !size (ctxWidth s x) || !size (ctxHeight s x) || field src 9 8 == 3 then 2
  else if areaClash s x then 3
  else if (List.range 5).any (fun o => mapHolds s x o && (List.range 16).any (fun n =>
      decide (kernelDen s x o (n % 4) (n / 4) ≤ 0))) then 4
  else if (List.range 16).any (fun n => decide (5 ≤ mosaic s x (n % 4) (n / 4))) then 5
  else if bitOf src 7 && bitOf src 6 then 7
  else 0

/-- Another enabled context uses a compare unit. -/
def strobeShared (s : State) (x k : Nat) : Bool :=
  (List.range 8).any (fun y => y != x && ctxOn s y && bitOf (ctxSrc s y) 30 && field (ctxSrc s y) 28 24 == k)

/-- An enable fails: REFUSED, and the reason in CHECK_ERR; EN stays 0. -/
def ctxRefuse (s : State) (r : Nat) : State := wr (refuse s pgIsp) (ra pgIsp 0x48) r

/-- The enable of a context whose other fields are stored. -/
def enableCtx (s : State) (x : Nat) : State :=
  let k := field (ctxSrc s x) 28 24
  let r := ctxCheck s x
  if r ≠ 0 then ctxRefuse s r
  else if bitOf (ctxSrc s x) 30 then
    (if claimable s (ownCmp k) 2 then wrf (claimRes s (ownCmp k) 2) (ctxA x 0) 31 31 1
     else ctxRefuse (conflict s (ownCmp k) 2 pgIsp) 6)
  else wrf s (ctxA x 0) 31 31 1

/-- A context is disabled: its strobe unit is no longer in use, and what it waits for or captures is dropped. -/
def disableCtx (s : State) (x : Nat) : State :=
  let k := field (ctxSrc s x) 28 24
  let s := if bitOf (ctxSrc s x) 30 && !strobeShared s x k then wrf s (ownCmp k) 31 31 0 else s
  let c := getCtx s x
  let s := setCtx (wrf s (ctxA x 0) 31 31 0) x { c with strobes := [], current := none, ready := [] }
  [0, 1].foldl (fun s i => if slotOf c i = 3 then s else setSlot s x i 0) s

/-- CONTEXT_ENABLE (R282, R283): a write of ISP.CTXk_SRC. -/
def execContextEnable (_rq : Requester) (ctx : Nat) (val : Word) (s : State) : Host.Outcome State Fault Refusal :=
  let x := ctx % 8
  let a := ctxA x 0
  .next (gated s a val.toNat (fun s =>
    let v := val.toNat &&& 0xDF7333DF
    let on := bitOf v 31
    if ctxOn s x then
      let s := if v % 2 ^ 31 = ctxSrc s x % 2 ^ 31 then s else refuse s pgIsp
      if on then s else disableCtx s x
    else
      let s := wr s a (v % 2 ^ 31)
      if on then enableCtx s x else s))

end Sys2Proof.Machine
end

