-- ==== Sys2Proof/Machine/Enable.lean ====
section
/-! DEFINITION. What the pages of a block share when they are enabled (R28, R32, R33), and writes of nozzle table
entries (R47). -/

namespace Sys2Proof.Machine

open Sys2Proof

/-- The camera pipeline domain runs for 1 ms more after its last request (15). -/
def cameraPage (p : Nat) : Bool := decide (0xB0 ≤ p) && decide (p ≤ 0xB4)

/-- Writes EN and CLKREQ of a header page. A block that requests no clock any more has none, but for the camera pages,
whose PLL stops later. -/
def setCtrl (s : State) (p : Nat) (en clkReq : Bool) : State :=
  let s := wr s (ra p 0x10) (b2n en + 4 * b2n clkReq)
  if en || clkReq || cameraPage p then s else wrf s (ra p 0x14) 1 1 0

/-- A printing bar depends on a header page (R32). -/
def pageInUse (s : State) (p : Nat) : Bool := (List.range 8).any (fun b => printing s b && barDepends s b p)

/-- Clearing EN of a page that a printing bar depends on is refused (R32). -/
def ctrlRefused (s : State) (p : Nat) (en : Bool) : Bool := pgEn s p && !en && pageInUse s p

/-- The value of a nozzle table entry that the next commit leaves: the staged one, or the one in effect. -/
def nozzleNext (s : State) (b c : Nat) : Nat :=
  (tget (fun _ => BitVec.ofNat 32 (rd s (nozzleAddr b c))) (getBar s b).staging c).toNat

/-- A column of a bar is staged. -/
def staged (s : State) (b c : Nat) : Bool := (getBar s b).staging.any (fun e => e.1 == c)

/-- The bar prints, or it prints at the active whose state this unit is copying (R356). -/
def barPasses (s : State) (b : Nat) : Bool := printing s b || (s.pair.role == 4 && bitOf s.pair.peerBars b)

/-- A write of a nozzle table entry (R47): staged while the bar prints, at once otherwise. -/
def nozzleWrite (s : State) (b c v : Nat) : State :=
  let v := v % 2 ^ 28
  let br := getBar s b
  if barPasses s b then
    (if staged s b c || decide (br.staging.length < 1024) then
      setBar s b { br with staging := tset br.staging c (BitVec.ofNat 32 v) }
     else ev s (pgBar b) 8)
  else wr (setBar s b { br with staging := tdel br.staging c }) (nozzleAddr b c) v

end Sys2Proof.Machine
end

