-- ==== Sys2Proof/Machine/Flelyn.lean ====
section
/-! DEFINITION. The Flelyn link (09): frames received, bring-up of a lane, the head plan, link time synchronisation,
state items, replay, STAT reports, IO nodes, signal quality and electrical idle. Pair lanes 48 to 51 share the bring-up
(R341). -/

namespace Sys2Proof.Machine

open Sys2Proof

/-- Page of a lane: FLN for 0 to 47, PRL for 48 to 51. -/
def lanePage (l : Nat) : Nat := if l < 48 then pgFln l else pgPrl (l - 48)

/-- Lanes that exist. -/
def isLane (l : Nat) : Bool := decide (l < 52)

/-! ### Received frames (R246, R248, R249) -/

def fType (f : RxFrame) : Nat := bytesAt f.bytes 0 1
def fLen (f : RxFrame) : Nat := bytesAt f.bytes 2 2
def fBody (f : RxFrame) : List Byte := (f.bytes.drop 8).take (fLen f)

/-- A frame of the given type passes the discard rules (R246, R249). -/
def frameOk (f : RxFrame) (type : Nat) : Bool :=
  f.blocksOk && decide (fLen f ≤ 2304) && f.bytes.length == fLen f + 12 && fType f == type &&
    bytesAt f.bytes (8 + fLen f) 4 == crc32c (f.bytes.take (8 + fLen f))

/-- The receiver of a lane runs: not down, failed or without lock (R247, R251). -/
def receiving (s : State) (l : Nat) : Bool :=
  let ln := getLane s l
  decide (3 ≤ ln.state) && ln.state != 9 && ln.lock

/-- Receives a frame on a Flelyn lane: discards it (R249) or hands its body on. -/
def onFrame (s : State) (l type : Nat) (f : RxFrame) (act : State → List Byte → State) : State :=
  if decide (l < 48) && receiving s l then
    if frameOk f type then act (count s (pgFln l) 1) (fBody f) else count s (pgFln l) 2
  else s

/-! ### State items (R263) -/

/-- Heads of a bar on a lane. -/
def headsOnLane (s : State) (b l : Nat) : List Nat := (headsOf s b).filter (fun h => headLane s b h == l)

/-- A head of a printing bar lies on a lane. -/
def lanePrinting (s : State) (l : Nat) : Bool :=
  (List.range 8).any (fun b => printing s b && !(headsOnLane s b l).isEmpty)

/-- Packs 4-bit values, the first lowest. -/
def packNibbles (ls : List Nat) : List Byte :=
  leBytes (ceilDiv ls.length 2) (ls.foldr (fun l acc => acc * 16 + l % 16) 0)

/-- SLOT_CFG of a head. -/
def slotCfgBody (s : State) (b h : Nat) : List Byte :=
  leBytes 1 2 ++ leBytes 1 (headSlot s b h) ++
    leBytes 1 (cmf s (ra (pgPlc b) 0x40) 0 0 + 2 * b2n (drop4On s b (headLane s b h))) ++
    leBytes 1 0 ++ leBytes 4 (pitch s b)

/-- The WSET values of `cnt` nozzles of a head row from nozzle `j0`, in effect for image line n. -/
def wsetsOfRow (s : State) (b h r j0 cnt : Nat) (n : Nat) : List Nat :=
  (List.range cnt).map (fun i =>
    let c := nozzleCol s b h r (j0 + i)
    if owns s b h c then nzWset (nozzleAt s b n c) else 0)

/-- NOZZLE items of a head row, at most 1,024 nozzles each. -/
def nozzleBodies (s : State) (b h r apply n : Nat) : List (List Byte) :=
  (List.range (ceilDiv (headNpr s b h) 1024)).map (fun i =>
    let cnt := min 1024 (headNpr s b h - 1024 * i)
    leBytes 1 3 ++ leBytes 1 (headSlot s b h * 8 + r) ++ leBytes 2 apply ++ leBytes 2 (1024 * i) ++ leBytes 2 cnt ++
      packNibbles (wsetsOfRow s b h r (1024 * i) cnt n))

/-- The GROUP item of a head row (at most 128 groups, since NPR is at most 4,096). A partner of version 1.x, which lacks
group offsets, is sent no delays (R254). -/
def groupBody (s : State) (b h r apply n : Nat) : List Byte :=
  let g := ceilDiv (headNpr s b h) 32
  leBytes 1 4 ++ leBytes 1 (headSlot s b h * 8 + r) ++ leBytes 2 apply ++ leBytes 1 0 ++ leBytes 1 g ++
    (List.range g).flatMap (fun i =>
      leBytes 1 (if partner1x s (headLane s b h) then 0 else twos 6 (groupDelay s b h r i n)))

/-- Sends the NOZZLE and GROUP items of the rows of a head. -/
def sendHeadItems (s : State) (l b h flags apply n : Nat) : State :=
  (List.range (headRows s b h)).foldl (fun s r =>
    let s := (nozzleBodies s b h r apply n).foldl (fun s m => flnSend s l 2 flags m) s
    flnSend s l 2 flags (groupBody s b h r apply n)) s

/-- The earliest image line that a row-line still to be sent on a lane can carry, for a bar (R263). -/
def earliestLine (s : State) (b : Nat) : Nat :=
  match linesLeft s b (getBar s b).job true with
  | [] => 0
  | x :: r => (r.foldl (fun m y => if before (getBar s b).ret y m then y else m) x).toNat

/-- The changes of staged nozzle entries that apply after an image line, with their lines (R263). -/
def laterCommits (s : State) (b n : Nat) : List Nat :=
  ((s.print.past.filter (fun e => e.page == pgBar b && e.holds s b n)).map (fun e => e.line.toNat)).reverse

/-- The full state that a lane receives when it becomes ACTIVE (R263), for one bar. -/
def sendBarState (s : State) (l b : Nat) : State :=
  (headsOnLane s b l).foldl (fun s h =>
    let n := earliestLine s b
    let s := flnSend s l 2 0 (slotCfgBody s b h)
    let s := sendHeadItems s l b h 0 0 n
    (laterCommits s b n).foldl (fun s m => sendHeadItems s l b h 1 (m % 65536) m) s) s

/-- PARAM (R271, R273, R275). -/
def paramBody (s : State) : List Byte :=
  leBytes 1 1 ++ leBytes 1 0 ++ leBytes 2 (rdf s (ra pgFlng 0x44) 7 0) ++ leBytes 2 (rdf s (ra pgFlng 0x48) 9 0) ++
    leBytes 2 (rdf s (ra pgFlng 0x58) 9 0)

/-- IO_SAFE of a lane (R513). -/
def ioSafeBody (s : State) (l : Nat) : List Byte :=
  leBytes 1 8 ++ zeroBytes 3 ++ leBytes 4 (rd s (ra (pgFln l) 0xA0)) ++ leBytes 4 (rd s (ra (pgFln l) 0xA4))

/-- Waveforms that the nozzles of a head use (R237). -/
def headWaves (s : State) (b h : Nat) : List Nat :=
  let cols := (List.range (headRows s b h)).flatMap (ownedCols s b h)
  let sets := (List.range 16).filter (fun k => cols.any (fun c =>
    let e := rd s (nozzleAddr b c)
    decide (nzState e < 2) && nzWset e == k))
  ((sets ++ sets.filterMap (fastForm s)).flatMap (fun k => setWaves s k (drop4 s b))).dedup

/-- Sends AMP for a waveform of a slot of an ACTIVE lane when it differs from the last one sent (R235). -/
def sendAmp (s : State) (l slot w : Nat) (t : Int) : State :=
  let ln := getLane s l
  let a := (ampOf s w t).toNat
  if ln.amps.contains (slot, w, a) || ln.state != 6 || !mayBegin s then s
  else
    let s := setLane s l { ln with amps := ln.amps.filter (fun x => !(x.1 == slot && x.2.1 == w)) ++ [(slot, w, a)] }
    flnSend (count s pgWave 1) l 2 0 (leBytes 1 6 ++ leBytes 1 slot ++ leBytes 1 w ++ leBytes 1 0 ++ leBytes 2 a)

/-- The amplitude factors of the head in a slot at a temperature (R235). -/
def sendAmps (s : State) (l slot : Nat) (t : Int) : State :=
  (List.range 8).foldl (fun s b =>
    (headsOnLane s b l).foldl (fun s h =>
      if headSlot s b h = slot then (headWaves s b h).foldl (fun s w => sendAmp s l slot w t) s else s) s) s

/-- A partner that times IO outputs itself: version 2.2 or later (R253, R274). -/
def timedIo (s : State) (l : Nat) : Bool :=
  let ln := getLane s l
  decide (3 ≤ ln.verMajor) || (ln.verMajor == 2 && decide (2 ≤ ln.verMinor))

/-- The level of every output of an IO node: that of IO_OUT, but the old one where a timed change has still to come
(R513). -/
def ioPresent (s : State) (l : Nat) : Nat :=
  let ln := getLane s l
  let later := ln.ioTimed.foldl (fun m x => m ||| x.2.2) 0
  (rd s (ra (pgFln l) 0x94) &&& (0xFFFFFFFF ^^^ later)) ||| (ln.ioLevel &&& later)

/-- Everything a lane is sent when it becomes ACTIVE: parameters, state items, valid waveforms (R234), the amplitudes of
the heads that have reported a temperature (R235, R236, R263), IO state with the timed changes still to come. -/
def sendFullState (s : State) (l : Nat) : State :=
  let s := flnSend s l 2 0 (paramBody s)
  if (getLane s l).kind = 1 then
    let s := (List.range 8).foldl (fun s b => sendBarState s l b) s
    let s := flnSend s l 2 0 (wsetsBody s 0)
    let s := (List.range 32).foldl (fun s w => if waveValid s w then sendWave s l w else s) s
    let s := setLane s l { getLane s l with amps := [] }
    (getLane s l).temps.foldl (fun s x => sendAmps s l x.1 x.2) s
  else
    let s := flnSend s l 2 0 (ioSafeBody s l)
    let s := setLane s l { getLane s l with ioLevel := ioPresent s l }
    let s := flnSend s l 2 0 (ioOutBody s 0 (getLane s l).ioLevel 0xFFFFFFFF)
    if timedIo s l then (getLane s l).ioTimed.foldl (fun s x => flnSend s l 2 0 (ioOutBody s x.1 x.2.1 x.2.2)) s else s

/-! ### Bring-up (R251 to R257) -/

/-- There is a partner, and it matches the head plan (R255). -/
def planMatches (s : State) (l : Nat) : Bool :=
  let ln := getLane s l
  ln.capSeen && rdf s (ra (pgFln l) 0x54) 31 28 == ln.kind && rd64 s (ra (pgFln l) 0x58) == ln.serial

/-- MISMATCH is entered: raised and recorded each time (R255). -/
def enterMismatch (s : State) (l : Nat) : State :=
  let s := setLane s l { getLane s l with state := 8 }
  fault (ev s (pgFln l) 10) 0x0702 1 (pgFln l) noBar [l]

/-- ACTIVE is entered (R251 step 6): raises UP and sends the full state. -/
def enterActive (s : State) (l : Nat) : State :=
  let s := setLane s l { getLane s l with state := 6, keepSerial := none }
  sendFullState (ev s (pgFln l) 8) l

/-- A pair lane comes up; HELLO follows (R341, table of R343). -/
def enterPairUp (s : State) (l : Nat) : State :=
  let s := setLane s l { getLane s l with state := 6 }
  pairSendSeq s 0x01 0 (helloBody s)

/-- Step 6 of bring-up; while a bar with a head on the lane prints, only the partner it had returns to ACTIVE (R257). -/
def finishBringUp (s : State) (l : Nat) : State :=
  let ln := getLane s l
  let same := match ln.keepSerial with
    | some x => x == ln.serial || !lanePrinting s l
    | none => true
  if planMatches s l && same then enterActive s l else enterMismatch s l

/-- Takes a lane down: DOWN, LANE_DOWN or PAIR_LANE, and bring-up again at DETECT (R257, R341). -/
def laneDown (s : State) (l : Nat) : State :=
  let ln := getLane s l
  let keep := if l < 48 ∧ (ln.state = 6 ∨ ln.state = 7) then some ln.serial else ln.keepSerial
  let s := setLane s l { ln with state := 1, delays := [], delayValid := false, exchanges := 0, accepted := false,
                                 keepSerial := keep, queued := [], eiAsked := false, wasActive := false, waveSent := [],
                                 waveHeld := 0, capSeen := false, amps := [], eiReturn := false }
  if l < 48 then fault (ev s (pgFln l) 9) 0x0701 1 (pgFln l) noBar [l]
  else if pairLink s then fault s 0x0A04 1 (lanePage l) noBar [l, epoch s, rd s (ra pgPair 0x50)]
  else s

/-- A failed training or step at 3.125 Gbaud: FAIL, retried after DETECT_PERIOD (R252). -/
def laneFail (s : State) (l : Nat) : State := setLane s l { getLane s l with state := 9 }

/-- Rates both sides support, at most MAX_RATE; a 1.x partner has none above 6.25 Gbaud (R251, R253). -/
def commonRate (s : State) (l r : Nat) : Bool :=
  let ln := getLane s l
  (r == 0 || bitOf ln.rates r) && decide (r ≤ rdf s (ra (pgFln l) 0x40) 5 4) && (decide (r ≤ 1) || decide (2 ≤ ln.verMajor))

/-- The highest common rate below `top`. -/
def rateBelow (s : State) (l top : Nat) : Nat :=
  (List.range top).foldl (fun m r => if commonRate s l r then r else m) 0

/-- A partner of version 2.3, with figure of merit and transmit presets (R253). -/
def presetPartner (s : State) (l : Nat) : Bool :=
  let ln := getLane s l
  ln.capSeen && ln.verMajor == 2 && decide (3 ≤ ln.verMinor)

/-- The transmit preset of a lane (R276): what training selected with a 2.3 partner, else that of the lane trim (R450). -/
def txPreset (s : State) (l : Nat) : Nat :=
  if presetPartner s l then (getLane s l).preset else rdf s (ra pgTrim (0x180 + 4 * l)) 1 0

/-- The transmitter takes its preset. -/
def showPreset (s : State) (l : Nat) : State := send s (.lanePhy l (4 + txPreset s l))

/-- Training at a stepped rate has selected the presets of both sides with a 2.3 partner: the own one by the partner's
figure of merit, the partner's, which CTRL TXEQ names, by the own (R276). -/
def selectPresets (s : State) (l own peer : Nat) : State :=
  if presetPartner s l then
    flnSend (showPreset (setLane s l { getLane s l with preset := own % 4 }) l) l 2 0 (leBytes 1 0x0A ++ leBytes 1 (peer % 4))
  else s

/-- CTRL LANE with a rate request (R251 step 4). -/
def rateRequest (r : Nat) : List Byte := leBytes 1 9 ++ leBytes 1 4 ++ leBytes 1 r

/-- Asks for a rate, or goes on with time synchronisation when none above 3.125 Gbaud is left (R251, R252). -/
def askRate (s : State) (l r : Nat) : State :=
  let ln := getLane s l
  if r = 0 then setLane s l { ln with state := 5, want := 0, exchanges := 0, delays := [], delayValid := false }
  else flnSend (setLane s l { ln with state := 4, want := r }) l 2 0 (rateRequest r)

/-- The next lower common rate after a failure at a stepped rate (R252). -/
def stepDown (s : State) (l : Nat) : State :=
  let ln := getLane s l
  let r := rateBelow s l ln.want
  if ln.rate = ln.want then setLane s l { ln with rate := r, want := r } else askRate s l r

/-- The CAP frame of the controller (CAP table). -/
def capBody (s : State) : List Byte :=
  leBytes 1 0 ++ leBytes 1 3 ++ leBytes 1 2 ++ leBytes 1 0x0F ++ leBytes 8 Config.serial ++
    leBytes 1 (b2n (unitA s)) ++ leBytes 1 0 ++ leBytes 2 0

/-- The step of a pair lane after training at 3.125 Gbaud: HELLO, then 12.5 Gbaud (R341). -/
def pairTrained (s : State) (l : Nat) : State :=
  let ln := getLane s l
  if ln.rate = 3 then enterPairUp s l
  else send (setLane s l { ln with state := 4, rate := 3, want := 3 }) (.lanePhy l 2)

/-- DETECT (R251 step 1): the transmitter tests for a terminated receiver. -/
def execDetect (l : Nat) (terminated : Bool) (s : State) : Host.Outcome State Fault Refusal :=
  let ln := getLane s l
  .next (if isLane l && pgEn s (lanePage l) && !ln.refused && (decide (ln.state ≤ 1) || ln.state == 9) then
    (if terminated then
       send (showPreset (setLane s l { ln with state := 2, rate := 0, want := 0, capSeen := false, lock := true }) l) (.lanePhy l 0)
     else setLane s l { ln with state := 1 })
  else s)

/-- TRAIN_DONE (R251 steps 2 and 4, R252, R276): block lock has held in both directions; `own` and `peer` are the presets
that gave the best figures of merit. -/
def execTrainDone (l : Nat) (found : TrainReading) (s : State) : Host.Outcome State Fault Refusal :=
  let ln := { getLane s l with fom := found.fom }
  .next (if isLane l then
    (if ln.state = 2 then
       (let s := setLane s l { ln with lock := true }
        if l < 48 then flnSend (setLane s l { getLane s l with state := 3 }) l 7 0 (capBody s) else pairTrained s l)
     else if ln.state = 4 ∧ ln.rate = ln.want then
       (let s := setLane s l { ln with lock := true }
        let s := if l < 48 then selectPresets s l found.own found.peer else s
        if 48 ≤ l then enterPairUp s l
        else if found.fom < rdf s (ra pgFlng 0x70) 7 0 ∧ ln.rate ≠ 0 then stepDown (count s (pgFln l) 8) l
        else askRate s l 0)
     else s)
  else s)

/-- TRAIN_TIMEOUT (R251, R252, R341). -/
def execTrainTimeout (l : Nat) (s : State) : Host.Outcome State Fault Refusal :=
  let ln := getLane s l
  .next (if isLane l && (ln.state == 2 || (ln.state == 4 && ln.rate == ln.want)) then
    (let s := if l < 48 then count s (pgFln l) 8 else s
     if ln.state = 4 ∧ l < 48 ∧ ln.rate ≠ 0 then stepDown s l else laneFail s l)
  else s)

/-- The partner's SLOT entries of a CAP frame: ROWS and NPR. -/
def capSlots (m : List Byte) : List (Nat × Nat) :=
  (List.range (min 8 (bytesAt m 0x0D 1))).map (fun i =>
    let w := bytesAt m (0x10 + 8 * i) 4
    (field w 15 13 + 1, field w 12 0))

/-- A partner version that the controller refuses (R253). -/
def versionRefused (major minor : Nat) : Bool :=
  major == 0 || decide (3 ≤ major) || (major == 1 && decide (minor < 2))

/-- Takes the partner's CAP data (R253, head map). -/
def takeCap (s : State) (l : Nat) (m : List Byte) : State :=
  let ln := getLane s l
  let ln := { ln with capSeen := true, kind := bytesAt m 0 1, verMinor := bytesAt m 1 1, verMajor := bytesAt m 2 1,
                      rates := bytesAt m 3 1, serial := bytesAt m 4 8, setup := bytesAt m 0xE 2,
                      slots := if bytesAt m 0 1 = 1 then capSlots m else [],
                      temps := if ln.serial = bytesAt m 4 8 then ln.temps else [] }
  if versionRefused ln.verMajor ln.verMinor then
    let s := setLane s l { ln with state := 9, refused := true }
    fault (ev s (pgFln l) 13) 0x0703 1 (pgFln l) noBar [l]
  else
    let s := setLane s l ln
    askRate s l (rateBelow s l 4)

/-- CAP (R251 step 3, R253). -/
def execCap (l : Nat) (f : RxFrame) (s : State) : Host.Outcome State Fault Refusal :=
  .next (onFrame s l 7 f (fun s m => if (getLane s l).state = 3 then takeCap s l m else s))

/-- CAP_TIMEOUT (R251 steps 3 and 4): no CAP frame, or no acknowledgement of a rate request. -/
def execCapTimeout (l : Nat) (s : State) : Host.Outcome State Fault Refusal :=
  let ln := getLane s l
  .next (if l < 48 then
    (if ln.state = 3 then laneFail s l
     else if ln.state = 4 ∧ ln.rate ≠ ln.want then askRate (count s (pgFln l) 8) l (rateBelow s l ln.want)
     else s)
  else s)

/-- BRING_UP_RESEND (R251): every 100 us the CAP frame or the rate request is sent again while its answer is awaited. -/
def execBringUpResend (l : Nat) (s : State) : Host.Outcome State Fault Refusal :=
  let ln := getLane s l
  .next (if l < 48 then
    (if ln.state = 3 then flnSend s l 7 0 (capBody s)
     else if ln.state = 4 ∧ ln.rate ≠ ln.want then flnSend s l 2 0 (rateRequest ln.want)
     else s)
  else s)

/-- LANE (R251 step 4, R277): a CTRL LANE frame from the partner. -/
def execLane (l : Nat) (f : RxFrame) (s : State) : Host.Outcome State Fault Refusal :=
  .next (onFrame s l 2 f (fun s m =>
    let ln := getLane s l
    let bits := bytesAt m 1 1
    if bytesAt m 0 1 ≠ 9 then s
    else if ln.state = 4 ∧ bitOf bits 3 = true ∧ bytesAt m 2 1 = ln.want ∧ ln.rate ≠ ln.want then
      send (setLane s l { ln with rate := ln.want, lock := false }) (.lanePhy l 2)
    else if ln.state = 6 ∧ bitOf bits 1 = true ∧ ln.eiAsked = true then
      count (send (setLane s l { ln with state := 7, eiAsked := false }) (.lanePhy l 3)) (pgFln l) 9
    else s))

/-- BLOCK_LOCK_LOST (R247): the receive direction is down until lock returns. A standby's pair time exchange moves to
another lane (R337). -/
def execBlockLockLost (l : Nat) (s : State) : Host.Outcome State Fault Refusal :=
  .next (if isLane l then
    (let s := setLane s l { getLane s l with lock := false }
     if s.clk.pairLane = some l then
       { s with clk := { s.clk with
          pairLane := (pairLanes s).find? (fun x => x != l && (getLane s x).lock),
          pairT1 := none,
          pairDiscard := 8 } }
     else s)
  else s)

/-- Sends a SYNC with the present time (R258). -/
def sendSync (s : State) (l : Nat) : State :=
  let ln := getLane s l
  let q := (ln.syncSeq + 1) % 256
  let t := fireNow s
  let s := setLane s l { ln with syncSeq := q, syncT1 := some t }
  flnSend s l 3 0 (leBytes 1 1 ++ leBytes 1 q ++ leBytes 2 0 ++ leBytes 6 t ++
    leBytes 4 (if ln.delayValid then twos 32 ln.delay else 0) ++ leBytes 2 0)

/-- BLOCK_LOCK_GAINED (R247, R278): receive is up again; a lane that leaves electrical idle runs one TIME exchange, after
a burst of its own when the partner began. -/
def execBlockLockGained (l : Nat) (s : State) : Host.Outcome State Fault Refusal :=
  .next (if isLane l then
    (let ln := getLane s l
     let s := setLane s l { ln with lock := true }
     if ln.state = 7 then
       (let s := if ln.eiAsked then s else send s (.lanePhy l 1)
        sendSync (setLane s l { ln with lock := true, state := 5, exchanges := 7, wasActive := true, eiAsked := false }) l)
     else s)
  else s)

/-! ### Time synchronisation (R258) -/

/-- SYNC_SEND: every TSYNC_PERIOD. -/
def execSyncSend (l : Nat) (s : State) : Host.Outcome State Fault Refusal :=
  let st := (getLane s l).state
  .next (if decide (l < 48) && (st == 5 || st == 6 || st == 8) then sendSync s l else s)

/-- The measurement m of one exchange (R258), 2^-8 ns. -/
def delayOf (t1 t2 t3 t4 : Nat) : Nat := ((((t4 : Int) - t1 - ((t3 : Int) - t2)) % (2 ^ 48 : Nat)).toNat) / 2

/-- DELAY of the last 8 measurements (R258). -/
def meanDelay (s : State) (l : Nat) (ds : List Nat) : Int :=
  roundHalfUp (ds.sum : Nat) 8 + signed 32 (rd s (ra (pgFln l) 0x84))

/-- A lane that has left electrical idle is ACTIVE again and sends what waited (R278), unless its plan has changed since
(R14, R255). -/
def backToActive (s : State) (l : Nat) : State :=
  let ln := getLane s l
  let q := ln.queued
  let s := setLane s l { ln with state := 6, wasActive := false, queued := [] }
  if planMatches s l then q.foldl (fun s x => flnSend s l x.1 x.2.1 x.2.2) s else enterMismatch s l

/-- Electrical idle is allowed on a lane (R277): EI_EN, ACTIVE to an HCB of version 2.1 or later, and no head of a
printing bar. -/
def eiAllowed (s : State) (l : Nat) : Bool :=
  let ln := getLane s l
  let new := decide (3 ≤ ln.verMajor) || (ln.verMajor == 2 && decide (1 ≤ ln.verMinor))
  decide (l < 48) && rdb s (ra (pgFln l) 0x40) 8 && ln.state == 6 && ln.kind == 1 && new && !lanePrinting s l

/-- CTRL LANE with the EI request (R277). -/
def askIdle (s : State) (l : Nat) : State :=
  flnSend (setLane s l { getLane s l with eiAsked := true }) l 2 0 (leBytes 1 9 ++ leBytes 1 1 ++ leBytes 1 0)

/-- After the STAT exchange of a periodic wake the lane returns to electrical idle, in Doze without regard to EI_EN (R278,
R421). -/
def afterWake (s : State) (l : Nat) : State :=
  if (getLane s l).eiReturn && (getLane s l).state == 6 then
    let s := setLane s l { getLane s l with eiReturn := false }
    if eiAllowed s l || s.power.pstate == 3 then askIdle s l else s
  else s

/-- TIME_RESP (R258, R251 steps 5 and 6). -/
def execTimeResp (l : Nat) (f : RxFrame) (s : State) : Host.Outcome State Fault Refusal :=
  .next (onFrame s l 3 f (fun s m =>
    let ln := getLane s l
    let t4 := fireNow s
    match ln.syncT1 with
    | none => count s (pgFln l) 2
    | some t1 =>
      if bytesAt m 0 1 ≠ 2 ∨ bytesAt m 1 1 ≠ ln.syncSeq ∨ 100000 * 256 < (t4 + 2 ^ 48 - t1) % 2 ^ 48 then count s (pgFln l) 2
      else
        let ds := (delayOf t1 (bytesAt m 4 6) (bytesAt m 0xA 6) t4 :: ln.delays).take 8
        let full := decide (8 ≤ ds.length)
        let d := meanDelay s l ds
        let x := ln.exchanges + 1
        let s := count (setLane s l { ln with delays := ds, delay := if full then d else ln.delay,
                                              delayValid := ln.delayValid || full, exchanges := x, syncT1 := none })
          (pgFln l) 10
        if full = true ∧ 100000 * 256 < d then laneDown (fault s 0x0706 1 (pgFln l) noBar [l]) l
        else if ln.state = 5 ∧ ln.wasActive = true then backToActive s l
        else if ln.state = 5 ∧ 8 ≤ x then finishBringUp s l
        else s))

/-! ### Heartbeats and loss (R257) -/

/-- IDLE: a heartbeat from the partner. -/
def execIdle (l : Nat) (f : RxFrame) (s : State) : Host.Outcome State Fault Refusal :=
  .next (onFrame s l 0xF f (fun s _ => s))

/-- IDLE_SEND: no other frame was sent on the lane for 1 us. -/
def execIdleSend (l : Nat) (s : State) : Host.Outcome State Fault Refusal :=
  let ln := getLane s l
  .next (if decide (l < 48) && decide (3 ≤ ln.state) && ln.state != 7 && ln.state != 9 then
    flnSend (setLane s l { ln with idleCnt := ln.idleCnt + 1 }) l 0xF 0 (leBytes 4 (ln.idleCnt + 1))
  else s)

/-- LINK_TIMEOUT: suspended in electrical idle. -/
def execLinkTimeout (l : Nat) (s : State) : Host.Outcome State Fault Refusal :=
  let st := (getLane s l).state
  .next (if isLane l && (st == 5 || st == 6 || st == 8) then laneDown s l else s)

/-! ### STAT reports (R235, R269, R273, R375) -/

/-- One temperature report of a slot (R235, R236). -/
def tempReport (s : State) (l slot : Nat) (t : Int) : State :=
  let ln := getLane s l
  let s := setLane s l { ln with temps := tset ln.temps slot t, tempLost := ln.tempLost.filter (fun x => x != slot) }
  sendAmps (count s pgWave 2) l slot t

/-- A unit that demotes itself (R377). -/
def demote (s : State) : State :=
  let s := { s with pair := { s.pair with role := 6, switchPending := false, soloWait := false } }
  let s := fault s 0x0A09 3 pgPair noBar [epoch s, rd s (ra pgPair 0x50)]
  ev (slowSync s) pgPair 13

/-- R375: a larger claim is accepted on a lane of a unit that sends ACTIVE = 1. -/
def statDemotes (s : State) (acc other : Nat) : Bool :=
  pairMode s && (s.pair.role == 2 || s.pair.role == 3) && !bitOf acc 0 && bitOf acc 1 && decide (claimWord s < other) &&
    !(s.pair.switchPending && other / 256 == epoch s + 1)

/-- New blank row-lines of a STAT: the first of an episode records LINE_LOST with the row-line it names (R269). -/
def reportBlank (s : State) (l n rline head : Nat) : State :=
  let s := countN s (pgFln l) 6 n
  let ln := getLane s l
  let x := ln.history.find? (fun y => y.slot == head / 8 && y.row == head % 8 && y.rline == rline)
  let img := (x.map (fun y => y.img)).getD (2 ^ 48 - 1)
  let bar := (x.map (fun y => y.bar)).getD noBar
  let s := match x with
    | some y => (headsOnLane s y.bar l).foldl (fun s h =>
        if headSlot s y.bar h = y.slot then dirtyLine s y.bar (getBar s y.bar) h y.row y.img else s) s
    | none => s
  match ln.lost with
  | some e => setLane s l { ln with lost := some { count := e.count + n, lastImg := img, quiet := 0 }, lostBar := bar }
  | none =>
    let s := setLane s l { ln with lost := some { count := n, lastImg := img, quiet := 0 }, lostBar := bar }
    faultAt (ev s (pgFln l) 12) 0x0705 1 (pgFln l) bar [l] (x.map (fun y => (y.img, y.target)))

/-- STAT (R273): counts, claims, temperatures, waveforms held and IO levels of a partner. -/
def execStat (l : Nat) (f : RxFrame) (s : State) : Host.Outcome State Fault Refusal :=
  .next (onFrame s l 4 f (fun s m =>
    let ln := getLane s l
    let acc := bytesAt m 1 1
    let blank := (bytesAt m 8 4 + 2 ^ 32 - ln.blankCnt) % 2 ^ 32
    let late := (bytesAt m 0xC 4 + 2 ^ 32 - ln.lateCnt) % 2 ^ 32
    let held := bytesAt m 0x14 4
    let s := setLane s l { ln with pfom := if presetPartner s l then bytesAt m 2 1 else 0, accepted := bitOf acc 0, blankCnt := bytesAt m 8 4,
                                   lateCnt := bytesAt m 0xC 4, waveHeld := held,
                                   waveSent := ln.waveSent.filter (fun e => !bitOf held e.1),
                                   ioIn := if ln.kind = 2 then bytesAt m 0x1C 4 else ln.ioIn }
    let s := countN s (pgFln l) 7 late
    let s := if blank = 0 then s else reportBlank s l blank (bytesAt m 0x18 2) (bytesAt m 0x1A 1)
    let s := if ln.kind = 1 then
        (List.range (min 8 (bytesAt m 3 1))).foldl (fun s i =>
          let t := bytesAt m (0x1C + 2 * i) 2
          if t = 0x8000 then s else tempReport s l i (signed 16 t)) s
      else s
    let s := if !bitOf acc 0 && bitOf (claimWord s) 7 then ev s (pgFln l) 14 else s
    if statDemotes s acc (bytesAt m 4 4) then demote s else afterWake s l))

/-- LINE_LOST_EPISODE_END (R269): 1,024 line starts of the bar's reference row stream without a blank row-line on the
lane; the second record of an episode. -/
def execLineLostEpisodeEnd (l bar : Nat) (s : State) : Host.Outcome State Fault Refusal :=
  .next (match (getLane s l).lost with
    | some e =>
      if l < 48 ∧ 1024 ≤ e.quiet ∧ ((getLane s l).lostBar = bar ∨ (getLane s l).lostBar = noBar) then
        fault (setLane s l { getLane s l with lost := none }) 0x0705 1 (pgFln l) bar [l, e.count, e.lastImg % 2 ^ 32, e.lastImg / 2 ^ 32]
      else s
    | none => s)

/-- TEMP_TIMEOUT (R236): no temperature report of an enabled head on an ACTIVE or EIDLE lane. -/
def execTempTimeout (l slot : Nat) (s : State) : Host.Outcome State Fault Refusal :=
  let ln := getLane s l
  let head := (List.range 8).any (fun b => (headsOnLane s b l).any (fun h => headSlot s b h == slot))
  .next (if head && decide (l < 48) && (ln.state == 6 || ln.state == 7) && !ln.tempLost.contains slot then
    fault (ev (setLane s l { ln with tempLost := ln.tempLost ++ [slot] }) pgWave 10) 0x0602 1 pgWave noBar [l, slot]
  else s)

/-! ### Replay (R266, R268) -/

/-- One entry of a NACK. -/
def replay (s : State) (l : Nat) (head rline : Nat) : State :=
  let s := count s (pgFln l) 3
  let x := (getLane s l).history.find? (fun y => y.slot == head / 8 && y.row == head % 8 && y.rline == rline)
  match x with
  | some y =>
    let limit : Int := (y.fire : Int) + y.minGofs * 64 - (rdf s (ra pgFlng 0x4C) 11 0 * 10 * 256 : Nat)
    let inTime := decide (0 ≤ signed 48 (((limit - fireNow s) % (2 ^ 48 : Nat)).toNat))
    if inTime && claimWord s / 256 != 0 then count (flnSend s l 1 (y.flags + 4) y.body) (pgFln l) 4
    else count s (pgFln l) 5
  | none => count s (pgFln l) 5

/-- NACK (R266, R268). -/
def execNack (l : Nat) (f : RxFrame) (s : State) : Host.Outcome State Fault Refusal :=
  .next (onFrame s l 5 f (fun s m =>
    (List.range (min 8 (bytesAt m 0 1))).foldl (fun s i =>
      replay s l (bytesAt m (4 + 4 * i) 1) (bytesAt m (6 + 4 * i) 2)) s))

/-- WAVE_RESEND (R265): a download not shown in WAVE_HELD within 1 ms; at most 3 resends, then the lane goes down. -/
def execWaveResend (l w : Nat) (s : State) : Host.Outcome State Fault Refusal :=
  let ln := getLane s l
  .next (match ln.waveSent.find? (fun e => e.1 == w) with
    | some e =>
      if l < 48 ∧ bitOf ln.waveHeld w = false then
        (if e.2 < 3 then
           flnSend (count (setLane s l { ln with waveSent := ln.waveSent.filter (fun x => x.1 != w) ++ [(w, e.2 + 1)] }) pgWave 0)
             l 6 0 (waveBody s w)
         else laneDown s l)
      else s
    | none => s)

/-! ### The head plan (R255) -/

/-- The check of a changed plan at a lane that is ACTIVE, EIDLE or MISMATCH. -/
def checkPlan (s : State) (l : Nat) : State :=
  let st := (getLane s l).state
  if st = 8 then (if planMatches s l then enterActive s l else s)
  else if st = 6 ∨ st = 7 then (if planMatches s l then s else enterMismatch s l)
  else s

/-- PLAN_WRITE: PLAN, or the high word of PLAN_SERIAL. -/
def execPlanWrite (_rq : Requester) (l : Nat) (serialHi : Bool) (val : Word) (s : State) :
    Host.Outcome State Fault Refusal :=
  let a := ra (pgFln l) (if serialHi then 0x5C else 0x54)
  .next (if l < 48 then refuseIf (lanePrinting s l) s a val.toNat (fun s => checkPlan (store s a val.toNat) l) else s)

/-! ### Signal quality and electrical idle (R276 to R278) -/

/-- FOM_REPORT: the receiver's figure of merit, every 1 ms. -/
def execFomReport (l fom : Nat) (s : State) : Host.Outcome State Fault Refusal :=
  let ln := getLane s l
  let mn := rdf s (ra pgFlng 0x70) 7 0
  .next (if l < 48 then
    (let s := setLane s l { ln with fom := fom, degraded := if fom < mn then true else if mn + 16 < fom then false else ln.degraded }
     if fom < mn ∧ ln.degraded = false then
       (let s := fault (ev s (pgFln l) 11) 0x0704 1 (pgFln l) noBar [l]
        if lanePrinting s l = false ∧ (ln.state = 6 ∨ ln.state = 8) then setLane s l { getLane s l with state := 2, rate := 0, want := 0 } else s)
     else if fom < mn ∧ lanePrinting s l = false ∧ (ln.state = 6 ∨ ln.state = 8) then
       setLane s l { getLane s l with state := 2, rate := 0, want := 0 }
     else s)
  else if isLane l then setLane s l { ln with fom := fom } else s)

/-- EI_DELAY: no bar with a head on the lane has printed for EI_DELAY (R277). -/
def execEiDelay (l : Nat) (s : State) : Host.Outcome State Fault Refusal :=
  .next (if eiAllowed s l then askIdle s l else s)

/-- EI_WAKE: the periodic burst for one STAT exchange, after which the lane returns to electrical idle (R278). -/
def execEiWake (l : Nat) (s : State) : Host.Outcome State Fault Refusal :=
  let ln := getLane s l
  .next (if l < 48 ∧ ln.state = 7 then send (setLane s l { ln with eiAsked := true, eiReturn := true }) (.lanePhy l 1) else s)

/-! ### IO nodes (R274, R513) -/

/-- A write of IO_OUT, IO_SAFE or IO_STOP sends a frame only to an ACTIVE IO node (R513). -/
def ioActive (s : State) (l : Nat) : Bool := laneActive s l && (getLane s l).kind == 2

/-- The bits of `mask` from a new value, the others from the old one. -/
def masked (old new mask : Nat) : Nat := (old &&& (0xFFFFFFFF ^^^ mask)) ||| (new &&& mask)

/-- The effect of a write of FLNn.IO_OUT that has passed its checks (R513). -/
def ioOutEffect (s : State) (l v : Nat) : State :=
  let old := rd s (ra (pgFln l) 0x94)
  let s := wr s (ra (pgFln l) 0x94) v
  if ioActive s l then
    let mask := old ^^^ v
    let t := rd64 s (ra (pgFln l) 0x98)
    let ln := getLane s l
    if t = 0 then
      flnSend (setLane s l { ln with ioLevel := masked ln.ioLevel v mask }) l 2 0 (ioOutBody s 0 v mask)
    else
      let s := wr64 (setLane s l { ln with ioTimed := ln.ioTimed ++ [(t, v, mask)] }) (ra (pgFln l) 0x98) 0
      if timedIo s l then flnSend s l 2 0 (ioOutBody s t v mask) else s
  else s

/-- IO_OUT_WRITE (R513). -/
def execIoOutWrite (_rq : Requester) (l : Nat) (val : Word) (s : State) : Host.Outcome State Fault Refusal :=
  .next (if l < 48 then gated s (ra (pgFln l) 0x94) val.toNat (fun s => ioOutEffect s l val.toNat) else s)

/-- The timed change whose APPLY_T comes first; of two at one time the one written first (R274). -/
def firstTimed (now : Nat) : List (Nat × Nat × Nat) → Option (Nat × Nat × Nat)
  | [] => none
  | x :: r =>
    let left (t : Nat) : Int := signed 48 ((t + 2 ^ 48 - now % 2 ^ 48) % 2 ^ 48)
    match firstTimed now r with
    | some y => if left y.1 < left x.1 then some y else some x
    | none => some x

/-- APPLY_T_REACHED (R274, R513): the timed change whose APPLY_T is reached takes effect at the node; to a node below 2.2
the IO_OUT is sent now. -/
def execApplyTReached (l : Nat) (s : State) : Host.Outcome State Fault Refusal :=
  let ln := getLane s l
  .next (match firstTimed (fireNow s) ln.ioTimed with
    | some x =>
      let s := setLane s l { ln with ioTimed := ln.ioTimed.erase x, ioLevel := masked ln.ioLevel x.2.1 x.2.2 }
      if timedIo s l then s else flnSend s l 2 0 (ioOutBody s 0 x.2.1 x.2.2)
    | none => s)

/-- IO_SAFE_WRITE: IO_SAFE or IO_SAFE_MASK (R513). -/
def execIoSafeWrite (_rq : Requester) (l : Nat) (mask : Bool) (val : Word) (s : State) :
    Host.Outcome State Fault Refusal :=
  let a := ra (pgFln l) (if mask then 0xA4 else 0xA0)
  .next (if l < 48 then gated s a val.toNat (fun s =>
    let s := store s a val.toNat
    if ioActive s l then flnSend s l 2 0 (ioSafeBody s l) else s) else s)

/-- IO_OUT_RESEND: the whole output state, every STAT_PERIOD (R513). -/
def execIoOutResend (s : State) : Host.Outcome State Fault Refusal := .next (ioResend s)

end Sys2Proof.Machine
end

