-- ==== Sys2Proof/Machine/Start.lean ====
section
/-! DEFINITION. Starting and stopping a job (R176, R177, R225, R238, R250, R254, R256, R351, R352, R369, R512), print
marks (R179 to R182), and the end of a frequency change (R141, R142). -/

namespace Sys2Proof.Machine

open Sys2Proof

/-! ### The bars of a job -/

/-- Bar b is a twinned secondary, and prints the plane of its primary (R191). -/
def isSecondary (s : State) (b : Nat) : Bool := twinMode s b != 0 && twinSecondary s b

/-- The plane that a bar prints (R191). -/
def planeOf (s : State) (b : Nat) : Nat := if isSecondary s b then twinPartner s b else b

/-- Bars of a job: those of its plane mask, and the secondaries of those (R176, R177, R191). -/
def barsOfJob (s : State) (j : Job) : List Nat :=
  (List.range 8).filter (fun b => bitOf j.mask b || (isSecondary s b && bitOf j.mask (twinPartner s b)))

/-- A secondary of INTERLEAVE whose start follows from its primary (R177). -/
def interleaved (s : State) (b : Nat) : Bool := isSecondary s b && twinMode s b == 1

/-- PLCn.PASS.RET as committed. -/
def retOf (s : State) (b : Nat) : Bool := cmb s (ra (pgPlc b) 0x40) 0

/-- LINE.SRCb.SHEET as committed. -/
def sheetMode (s : State) (b : Nat) : Bool := cmb s (ra pgLine (0x40 + 0x20 * b)) 8

/-- The offset factor of R177 for a secondary; `n` is the job's length in image lines. -/
def ilFactor (s : State) (b n : Nat) : Int :=
  if retOf s b then (if ilComp s b then 1 else if n % 2 = 0 then 1 else -1)
  else if ilComp s b then 0 else 1

/-- Start position of an INTERLEAVE secondary from that of its primary (R177). -/
def secondaryStart (s : State) (b n : Nat) (prim : Int) : Int :=
  prim + ilFactor s b n * (linePos s (twinPartner s b) 1 / 2 : Nat)

/-! ### The record of a pass -/

/-- A bar at the start of a pass, without its start position. -/
def freshBar (s : State) (b : Nat) (j : Job) (ofs : Int) : Bar :=
  let old := getBar s b
  let step := if twinMode s b = 1 ∧ (twinSecondary s b && ilComp s b) = false then 2 else 1
  { job := j.number, per := if sheetMode s b ∧ j.repeatLen ≠ 0 then j.repeatLen * j.u / step else 0,
    len := j.length * j.u, u := j.u, rep := j.repeatLen, wc := j.width * j.u, plane := planeOf s b, ret := retOf s b,
    markOfs := ofs, streams := streamsOf s b, staging := old.staging, skip := old.skip, pass := old.pass + 1 }

/-- The row-lines of a pass that is still stopping go on beside the new pass (R176, R211). -/
def pushOld (s : State) (b : Nat) : State :=
  let br := getBar s b
  if br.stopping then { s with print := { s.print with old := s.print.old ++ [(b, { br with staging := [], skip := none })] } }
  else s

/-- A new pass takes the place of the last one: in NORMAL with the normal map (R241), with its line-rate limits (R239),
and with an empty row window but for the tiles that earlier row-lines still need. -/
def placePass (s : State) (b : Nat) (br : Bar) : State :=
  let s := setBar (pushOld s b) b br
  let s := refreshLimits (wr s (ra (pgPlc b) 0x5C) 0) b
  slowSync (setWin s b ((winSlots s b).filter (slotNeeded s b)))

/-- G_s of the reference row stream. -/
def refG (br : Bar) : Int := ((br.streams[refStream br]?).map (fun t => t.g)).getD 0

/-- First compare value of the reference row stream for a start position (R174, R226). -/
def firstCompare (s : State) (b : Nat) (br : Bar) (sb : Int) : Int :=
  if br.ret then sb + refG br + linePos s b (ahead s b) else sb + refG br - linePos s b (ahead s b)

/-- The start position that places that compare value at `p`. -/
def startFor (s : State) (b : Nat) (br : Bar) (p : Int) : Int :=
  if br.ret then p - refG br - linePos s b (ahead s b) else p - refG br + linePos s b (ahead s b)

/-- The mark of the channel that a pass follows: H forward, W in a return pass (R226). -/
def frontOf (s : State) (b : Nat) (ret : Bool) : Int :=
  let ch := getChan s (lineChan s b)
  if ret then ch.low else ch.high

/-! ### Checks of JOB_START -/

/-- The position function owns the channel (R148, R176). -/
def channelOwned (s : State) (c : Nat) : Bool := decide (c < 4) || rdf s (ownEnc c) 3 0 == 1

/-- Checks of one bar (R176, R184, R238). -/
def barStartOk (s : State) (j : Job) (b : Nat) : Bool :=
  let br := getBar s b
  !br.printing && !(br.armed && br.job != j.number) && posMode s (lineChan s b) == 1 &&
    channelOwned s (lineChan s b) && !(headsOf s b).isEmpty && decide (firstCol s b + j.width * j.u ≤ ncols s b) &&
    (setsOf s b).all (fun k => setOk s k (drop4 s b))

/-- The checks of R225 on the pass direction. -/
def passOk (s : State) (j : Job) (bs : List Nat) : Bool :=
  bs.all (fun b => !retOf s b || (j.length != 0 && j.repeatLen == 0)) &&
    bs.all (fun b => bs.all (fun c => retOf s b == retOf s c)) &&
    bs.all (fun b => (barsOn s (lineChan s b)).all (fun c => retPass s c == retOf s b))

/-- Block cost of one row-line of a head, and its rate (R250). -/
def headLoad (s : State) (b h : Nat) : Nat :=
  let bytes := 4 * ceilDiv ((if drop4 s b then 4 else 2) * headNpr s b h) 32
  headRows s b h * ceilDiv (bytes + 32) 8 * (if drop4 s b then 80000 else 160000)

/-- Load of a lane over a list of bars in blocks per second (R250). -/
def laneLoad (s : State) (bs : List Nat) (l : Nat) : Nat :=
  (bs.map (fun b => ((headsOnLane s b l).map (headLoad s b)).sum)).sum

/-- Rates in 100 baud: 3.125, 6.25, 10.3125 and 12.5 Gbaud (R246). -/
def laneBaud (r : Nat) : Nat := if r = 0 then 31250000 else if r = 1 then 62500000 else if r = 2 then 103125000 else 125000000

/-- Bars whose row streams load the lanes: those of the job and those already printing (R250). -/
def loadBars (s : State) (bs : List Nat) : List Nat := (List.range 8).filter (fun b => bs.contains b || printing s b)

/-- No lane is overloaded (R250). -/
def loadOk (s : State) (bs : List Nat) : Bool :=
  (List.range 48).all (fun l =>
    let load := laneLoad s (loadBars s bs) l
    load == 0 || decide (load * 66 ≤ 99 * laneBaud (getLane s l).rate))

/-- FLNn.LOAD in 0.1 %, rounded down (R250). -/
def showLoads (s : State) (bs : List Nat) : State :=
  (List.range 48).foldl (fun s l =>
    let load := laneLoad s (loadBars s bs) l
    wr s (ra (pgFln l) 0x88) (min 1023 (load * 66 * 10 / laneBaud (getLane s l).rate))) s

/-- Checks of one enabled head: R254 and R256. -/
def headOk (s : State) (b h : Nat) : Bool :=
  let ln := getLane s (headLane s b h)
  (ln.state == 6 || ln.state == 7) && ln.kind == 1 && rdf s (ra (pgFln (headLane s b h)) 0x54) 31 28 == 1 &&
    ln.slots[headSlot s b h]? == some (headRows s b h, headNpr s b h) &&
    (ln.verMajor != 1 || (!drop4 s b && (List.range (headRows s b h)).all (fun r =>
      (ownedCols s b h r).all (fun c => nzFdly (rd s (nozzleAddr b c)) == 0))))

/-- In a pair, LEAD is at least 6 and CLAIM_HOLD + 2 us fits 4 PC (R369). -/
def pairLeadOk (s : State) (b : Nat) : Bool :=
  !pairMode s || (decide (6 ≤ leadLines s b) && decide ((rdf s (ra pgFlng 0x44) 7 0 + 2) * 1000 ≤ 4 * periodC s b))

/-- The distance from a mark to the first compare value is at least L(8) (R180). -/
def markMarginOk (s : State) (b : Nat) (br : Bar) (ofs : Int) : Bool :=
  let first := firstCompare s b br (signed 64 (cm64 s (ra pgLine (0x58 + 0x20 * b))) + ofs)
  if br.ret then decide ((linePos s b 8 : Int) ≤ -first) else decide ((linePos s b 8 : Int) ≤ first)

/-- All checks with which JOB_START completes with BAD_PARAM and starts nothing. -/
def startOk (s : State) (j : Job) (mode : Nat) (ofs : Int) : Bool :=
  let bs := barsOfJob s j
  s.sys.bootState == 5 && !s.sys.stopped && s.power.stop == 0 && !j.started && decide (mode ≤ 2) && bs.all (barStartOk s j) &&
    passOk s j bs && loadOk s bs && bs.all (fun b => (headsOf s b).all (headOk s b)) &&
    bs.all (fun b => !interleaved s b || lineChan s b == lineChan s (twinPartner s b)) &&
    bs.all (pairLeadOk s) && !(pairMode s && mode == 2 && decide (8 < fwdLines s)) &&
    (mode != 2 || bs.all (fun b => interleaved s b || markMarginOk s b (freshBar s b j ofs) ofs))

/-! ### Starting -/

/-- W is set to the present position at a JOB_START of a return-pass job (R226). -/
def resetLow (s : State) (bs : List Nat) : State :=
  bs.foldl (fun s b =>
    if retOf s b then setChan s (lineChan s b) { getChan s (lineChan s b) with low := (getChan s (lineChan s b)).pos }
    else s) s

/-- Sends the state items of the job's heads before its first LINE frame (R263), and wakes idle lanes (R278). -/
def sendJobItems (s : State) (b : Nat) : State :=
  (headsOf s b).foldl (fun s h =>
    let l := headLane s b h
    let s := flnSend s l 2 0 (slotCfgBody s b h)
    let s := sendHeadItems s l b h 0 0 (buildLineI s b).toNat
    flnSend s l 2 0 (wsetsBody s 0)) s

/-- Start position of every bar of a job, mode 0 at the next count (R176) or mode 1 at a position; secondaries of
INTERLEAVE follow their primaries (R177). -/
def jobStarts (s : State) (j : Job) (pos? : Option Int) : List (Nat × Int) :=
  let bs := barsOfJob s j
  let own (b : Nat) : Int := match pos? with
    | some p => p
    | none =>
      let br := freshBar s b j 0
      startFor s b br (frontOf s b br.ret + (if br.ret then -65536 else 65536))
  bs.map (fun b => (b, if interleaved s b then secondaryStart s b (j.length * j.u) (own (twinPartner s b)) else own b))

/-- The first compare value of the reference row stream lies behind the web by `margin` (R176, R226, R351). -/
def startLate (s : State) (j : Job) (starts : List (Nat × Int)) (margin : Int) : Bool :=
  starts.any (fun x =>
    let br := freshBar s x.1 j 0
    let f := firstCompare s x.1 br x.2
    if br.ret then decide (frontOf s x.1 true - margin ≤ f) else decide (f ≤ frontOf s x.1 false + margin))

/-- First image line of a job in build order. -/
def firstImage (s : State) (j : Job) : Nat :=
  match barsOfJob s j with
  | b :: _ => if retOf s b then j.length * j.u - 1 else 0
  | [] => 0

/-- A bar begins its pass at a start position. -/
def beginPass (s : State) (b : Nat) (j : Job) (sb : Int) : State :=
  let br := freshBar s b j 0
  testArmed (placePass s b { br with printing := true, starts := [sb], sheet := br.per != 0 }) b

/-- The job has started: engines are claimed for PRINT (R107), loads are shown, items are sent, thaw lines begin. -/
def jobBegun (s : State) (j : Job) (bs : List Nat) : State :=
  let s := setJob s { (findJob s j.number).getD j with started := true, held := false }
  let s := claimPrint (showLoads s bs)
  let s := bs.foldl sendJobItems s
  bs.foldl (fun s b => if printing s b then newBuildLine s b none else s) s

/-- All bars of a job start at once (R176), and the command completes with the image line of the first line. -/
def startJob (s : State) (slot : Nat) (j : Job) (starts : List (Nat × Int)) : State :=
  let s := starts.foldl (fun s x => beginPass s x.1 j x.2) s
  let s := jobBegun s j (starts.map (fun x => x.1))
  finish s slot stOk 0 0 [] (firstImage s j)

/-- Mode 2: the bars arm for their marks (R180); a secondary of INTERLEAVE starts with its primary. -/
def armJob (s : State) (slot : Nat) (j : Job) (ofs : Int) (e : JEntry) : State :=
  let bs := barsOfJob s j
  let s := bs.foldl (fun s b =>
    let br := freshBar s b j ofs
    placePass s b { br with armed := !interleaved s b }) s
  let s := setEntry s slot { e with state := 1 }
  let s := setJob s { (findJob s j.number).getD j with startSlot := some slot, mode := 2, arg := ofs }
  jobBegun s j bs

/-- The position that an active unit of a pair gives a START (R351): the first compare value of the reference row
stream of every bar lies at least START_MARGIN beyond the web, and that of one bar exactly there. -/
def convertStart (s : State) (j : Job) : Int :=
  let m : Int := rdf s (ra pgPair 0x84) 23 0 * 65536
  let ps := ((barsOfJob s j).filter (fun b => !interleaved s b)).map (fun b =>
    let br := freshBar s b j 0
    startFor s b br (frontOf s b br.ret + (if br.ret then -m else m)))
  match ps with
  | [] => 0
  | p :: r => r.foldl (fun a x => if (barsOfJob s j).any (retOf s) then min a x else max a x) p

/-- The payload of a START input: session, SEQ and position. -/
def startPayload (e : JEntry) (p : Int) : List Byte := leBytes 4 e.session ++ leBytes 4 e.seq ++ leBytes 8 (twos 64 p)

/-- JOB_START of a journalled entry (R142, R176, R323, R351). -/
def jobStart (s : State) (slot : Nat) (e : JEntry) : State :=
  let mode := eParam e.entry 0 4
  let arg := signed 64 (eParam e.entry 8 8)
  match findJob s (eJob e.entry) with
  | none => finishStatus s slot stBadParam
  | some j =>
    if j.startSlot.isSome ∨ startOk s j mode arg = false then finishStatus s slot stBadParam
    else if s.clk.stepBusy ∨ (freqBusy s = true ∧ mode = 0) then
      setJob (setEntry s slot { e with state := 1 }) { j with startSlot := some slot, held := true, mode := mode, arg := arg }
    else
      let s := resetLow s (barsOfJob s j)
      if mode = 2 then armJob s slot j arg e
      else if s.pair.role = 0 then
        let starts := jobStarts s j (if mode = 1 then some arg else none)
        if mode = 1 ∧ startLate s j starts 0 = true then finishStatus s slot stLate else startJob s slot j starts
      else if isActive s then
        let margin : Int := rdf s (ra pgPair 0x84) 23 0 * 65536
        if mode = 1 ∧ startLate s j (jobStarts s j (some arg)) margin = true then finishStatus s slot stLate
        else
          let p := if mode = 1 then arg else convertStart s j
          takeInput (setEntry s slot { e with state := 1 }) 7 (refBar s) none (startPayload e p)
      else setEntry s slot { e with state := 1 }

/-- JOB_START (R142, R176, R177, R180, R184, R225, R238, R250, R254, R256, R323, R351, R352, R369). -/
def execJobStart (slot : Nat) (s : State) : Host.Outcome State Fault Refusal :=
  .next <| onEntry s slot 0x11 (fun s e => jobStart s slot e)

/-- A START input is applied: both units start at the forwarded position, without a LATE test of their own (R351). -/
def applyStart (s : State) (payload : List Byte) : State :=
  match s.host.journal.find? (fun x => x.2.session == bytesAt payload 0 4 && x.2.seq == bytesAt payload 4 4 &&
      eOpcode x.2.entry == 0x11 && x.2.state != 2) with
  | none => s
  | some x =>
    match findJob s (eJob x.2.entry) with
    | none => finishStatus s x.1 stAborted
    | some j =>
      let s := resetLow s (barsOfJob s j)
      startJob s x.1 j (jobStarts s j (some (signed 64 (bytesAt payload 8 8))))

/-- JOB_STARTs held by a frequency change or a press-time step take effect (R142, R323). -/
def releaseStarts (s : State) : State :=
  s.print.jobs.foldl (fun s j =>
    match j.held, j.startSlot with
    | true, some slot =>
      if s.clk.stepBusy ∨ (freqBusy s = true ∧ j.mode = 0) then s
      else
        let s := setJob s { (findJob s j.number).getD j with held := false, startSlot := none }
        match getEntry s slot with
        | some e => jobStart s slot e
        | none => s
    | _, _ => s) s

/-- FREQ_DONE (R141, R142, R144). -/
def execFreqDone (ok : Bool) (s : State) : Host.Outcome State Fault Refusal :=
  .next (if freqBusy s && allSelf s then releaseStarts (freqEnd s ok) else s)

/-! ### Stopping (R512) -/

/-- The later of two image lines in build order. -/
def laterLine (ret : Bool) (x y : Int) : Int := if before ret x y then y else x

/-- Gives a printing bar its last line; a bar that has started it already stops (R512). -/
def setStopLine (s : State) (b : Nat) (n : Nat) : State :=
  let s := setBar s b { getBar s b with stopLine := some n }
  let br := getBar s b
  let s := setBar s b { br with streams := br.streams.map (fun t => { t with done := t.done || !lineLeft s b br t.next }) }
  endStarts s b

/-- Disarms the bars of a job that wait for their first mark; its JOB_START completes with ABORTED (R512). -/
def disarmJob (s : State) (j : Job) : State :=
  let s := (jobBars s j.number).foldl (fun s b =>
    let br := getBar s b
    if br.printing || br.stopping then s else setBar s b { br with armed := false, job := 0, streams := [] }) s
  match j.startSlot with
  | some k => setJob (finishStatus s k stAborted) { (findJob s j.number).getD j with startSlot := none }
  | none => s

/-- JOB_STOP of a journalled entry. -/
def jobStop (s : State) (slot : Nat) (e : JEntry) : State :=
  match findJob s (eJob e.entry) with
  | none => finishStatus s slot stBadParam
  | some j =>
    let named := eParam e.entry 0 6
    let bs := (jobBars s j.number).filter (printing s)
    let armed := (jobBars s j.number).any (fun b => (getBar s b).armed && !printing s b)
    match bs with
    | [] => finish (if armed then disarmJob s j else s) slot stOk 0 0 [] 0
    | b0 :: _ =>
      if e.late then finishStatus s slot stLate
      else
        let ret := retPass s b0
        let next := bs.foldl (fun x b => laterLine ret x (buildLineI s b)) (buildLineI s b0)
        let late := named != ones48 && bs.any (fun b => linePassed s b named)
        let last : Nat := if named = ones48 ∨ late = true then next.toNat else named
        let last := if ret ∨ j.length = 0 then last else min last (j.length * j.u - 1)
        let s := bs.foldl (fun s b => setStopLine s b last) s
        let s := if armed then disarmJob s j else s
        finish s slot (if late then stLate else stOk) 0 0 [] last

/-- JOB_STOP (R349, R512). -/
def execJobStop (slot : Nat) (s : State) : Host.Outcome State Fault Refusal :=
  .next <| onEntry s slot 0x12 (fun s e => jobStop s slot e)

/-! ### Marks (R179 to R182) -/

/-- The mark position: the integer position of the bar's channel at the mark edge, `back` count edges ago (R179). -/
def markPos (s : State) (b back : Nat) : Int :=
  let ch := getChan s (lineChan s b)
  ((match ch.edges[back]? with
    | some e => e.1
    | none => ((ch.edges.getLast?).map (fun e => e.1)).getD ch.pos) / 65536) * 65536

/-- The secondary of INTERLEAVE that starts with bar b in the same job. -/
def ilSecondary (s : State) (b : Nat) : Option Nat :=
  (List.range 8).find? (fun q => interleaved s q && twinPartner s q == b && (getBar s q).job == (getBar s b).job)

/-- A bar takes a start position from a mark: a sheet begins (R180, R181). -/
def takeMark (s : State) (b : Nat) (m sb : Int) : State :=
  let br := getBar s b
  let first := br.starts.isEmpty
  let s := setBar s b { br with armed := false, printing := true, sheet := br.per != 0, starts := br.starts ++ [sb],
                                lastMark := some m, misses := 0 }
  let s := armMarks s b sb
  if first then newBuildLine (testArmed s b) b none else s

/-- Every bar of the job has taken its first mark: JOB_START completes (R512). -/
def marksDone (s : State) (b : Nat) : State :=
  match findJob s (getBar s b).job with
  | some j =>
    match j.startSlot with
    | some k =>
      if (barsOfJob s j).all (fun q => printing s q) then
        setJob (finish s k stOk 0 0 [] (firstImage s j)) { j with startSlot := none }
      else s
    | none => s
  | none => s

/-- An accepted mark at position m sets S_b of an armed bar (R180), and S of its secondary (R177). -/
def acceptMark (s : State) (b : Nat) (m : Int) : State :=
  let br := getBar s b
  let sb := m + signed 64 (cm64 s (ra pgLine (0x58 + 0x20 * b))) + br.markOfs
  let s := takeMark (count s pgLine (4 * b + 1)) b m sb
  let s := match ilSecondary s b with
    | some q => takeMark s q m (secondaryStart s q br.len sb)
    | none => s
  marksDone s b

/-- The first image line that a mark of an armed bar will start (R182). -/
def markLine (s : State) (b : Nat) : Nat :=
  let br := getBar s b
  (imgLine s b br (br.starts.length * br.per)).toNat

/-- MARK (R179 to R182): a qualified mark edge. Only an active unit's marks take effect; it forwards each one. -/
def execMark (bar : Nat) (falling : Bool) (edgesBack : Nat) (s : State) : Host.Outcome State Fault Refusal :=
  let b := bar % 8
  let cfg := rd s (ra pgLine (0x50 + 0x20 * b))
  let br := getBar s b
  .next (if bitOf cfg 8 = false ∨ bitOf cfg 9 ≠ falling ∨ isActive s = false then s
    else if br.armed then
      let m := markPos s b edgesBack
      if br.starts.isEmpty ∧ markMarginOk s b br br.markOfs = false then
        (match findJob s br.job with
         | some j =>
           let s := match j.startSlot with | some k => finishStatus s k stBadParam | none => s
           disarmJob s { j with startSlot := none }
         | none => s)
      else
        let s := if partnered s then
            pairSendSeq (count s pgPair 3) 0x10 0 (inputBody 6 false false (markLine s b) b (leBytes 1 b ++ leBytes 8 (twos 64 m)))
          else s
        acceptMark s b m
    else if br.printing && br.sheet then ev (count s pgLine (4 * b + 2)) pgLine (16 + b)
    else s)

end Sys2Proof.Machine
end

