-- ==== Sys2Proof/Machine/PressTime.lean ====
section
/-! DEFINITION. Press time and PTP (11): the increment, steps and their refusal, offset measurements and the servo, the
best master, the transparent clock, and the time exchange of a pair. -/

namespace Sys2Proof.Machine

open Sys2Proof

/-! ### The counter (R316 to R319) -/

/-- Seconds and nanoseconds from a total of nanoseconds, modulo 2^48 seconds. -/
def setTotal (s : State) (t : Int) : State :=
  let n := (t % ((2 ^ 48 * 1000000000 : Nat) : Int)).toNat
  setClk s { s.clk with sec := n / 1000000000, ns := n % 1000000000 }

/-- Press time in 2^-16 ns. -/
def now16 (s : State) : Nat := ptTotalNs s * 65536 + s.clk.frac / 65536

/-- Sets the counter to a time in 2^-16 ns. -/
def setTime16 (s : State) (t : Int) : State :=
  setTotal (setClk s { s.clk with frac := (t % (65536 : Nat)).toNat * 65536 + s.clk.frac % 65536 }) (t / 65536)

/-- One press-time tick (R316). -/
def ptTick (s : State) : State :=
  let v := s.clk.ns * 2 ^ 32 + s.clk.frac + s.clk.incr
  let ns := v / 2 ^ 32
  setClk s (if 1000000000 ≤ ns then
      { s.clk with frac := v % 2 ^ 32, ns := ns - 1000000000, sec := (s.clk.sec + 1) % 2 ^ 48 }
    else { s.clk with frac := v % 2 ^ 32, ns := ns })

/-- The range of INCR (R318). -/
def incrMin : Nat := 0x3FF7CED92
def incrMax : Nat := 0x40083126E

/-- Sets INCR and the register that shows it. -/
def setIncr (s : State) (v : Nat) : State := wr64 (setClk s { s.clk with incr := v }) (ptcA 0x50) v

/-- INCR_WRITE (R318): the high word of INCR; refused while SRC = 1, in state PAIR, or out of range. -/
def execIncrWrite (_rq : Requester) (hi : Word) (s : State) : Host.Outcome State Fault Refusal :=
  let a := ptcA 0x54
  .next (gated s a hi.toNat (fun s =>
    let v := heldLow s (a - 4) + 2 ^ 32 * (hi.toNat % 256)
    let s := { s with held := tdel s.held (a - 4) }
    if srcPtp s || s.clk.state == 6 || decide (v < incrMin) || decide (incrMax < v) then refuse s pgPtc
    else setIncr s v))

/-! ### Steps (R322 to R324) -/

/-- Takes every ACTIVE and EIDLE lane through bring-up from Train, without LANE_DOWN (R323). -/
def retrainLanes (s : State) : State :=
  let ls := (List.range 48).filter (fun l => (getLane s l).state == 6 || (getLane s l).state == 7)
  let act := ls.filter (laneActive s)
  let s := ls.foldl (fun s l =>
    send (setLane s l { getLane s l with state := 2, rate := 0, want := 0, capSeen := false, delays := [], delayValid := false,
                                         exchanges := 0, eiAsked := false, eiReturn := false, wasActive := false,
                                         queued := [] }) (.lanePhy l 0)) s
  setClk s { s.clk with stepBusy := true, stepLanes := act }

/-- A step of the counter to a total of nanoseconds (R323). -/
def stepTo (s : State) (t : Int) : State := retrainLanes (setTotal s t)

/-- A step of the counter by an offset from the master, in 2^-16 ns (R323, R324). -/
def stepBack (s : State) (off : Int) : State := retrainLanes (setTime16 s ((now16 s : Int) - off))

/-- PTC_STEP (R322): loads SET_SEC and SET_NS with FRAC 0. -/
def execPtcStep (_rq : Requester) (s : State) : Host.Outcome State Fault Refusal :=
  .next (gated s (ptcA 0x48) 1 (fun s =>
    if anyPrinting s then refuse (count s pgPtc 8) pgPtc
    else
      let t : Nat := (rd64 s (ptcA 0x6C) % 2 ^ 48) * 1000000000 + rdf s (ptcA 0x68) 29 0
      let s := setClk s { s.clk with frac := 0 }
      stepTo s t))

/-- ADJ (R322): adds ADJ_NS. -/
def execAdj (_rq : Requester) (s : State) : Host.Outcome State Fault Refusal :=
  .next (gated s (ptcA 0x48) 2 (fun s =>
    if anyPrinting s then refuse (count s pgPtc 8) pgPtc
    else stepTo s (ptTotalNs s + signed 32 (rd s (ptcA 0x74)))))

/-- STEP_DONE (R323): every lane that was ACTIVE before the step is ACTIVE again. -/
def execStepDone (s : State) : Host.Outcome State Fault Refusal :=
  .next (if s.clk.stepBusy && s.clk.stepLanes.all (laneActive s) then
      releaseStarts (ev (setClk s { s.clk with stepBusy := false, stepLanes := [] }) pgPtc 11)
    else s)

/-! ### Times on the wire (R332), in 2^-16 ns -/

/-- PTC.LATp: receive latency in [31:16], transmit latency in [15:0]. -/
def latency (s : State) (p : Nat) : Nat := Config.phyLatency p (rd s (ra (pgEth p) 0x40)) % 2 ^ 32

/-- PTC.ASYMp. -/
def asym (s : State) (p : Nat) : Int := signed 32 (rd s (ptcA (0xB0 + 4 * (p % 4))))

/-- The receive timestamp of a message, and the transmit time of one that leaves now (R332). -/
def rxStamp (s : State) (m : PtpMsg) : Int := (m.rxTime : Int) - 256 * (latency s m.port / 65536 : Nat) + 256 * asym s m.port
def txStamp (s : State) (p : Nat) : Int := (now16 s : Int) + 256 * (latency s p % 65536 : Nat) + 256 * asym s p

/-- A Press-ring port that is enabled with link up (R331). -/
def ringPort (s : State) (p : Nat) : Bool :=
  decide (p < 4) && ethRole s p == 2 && pgEn s (pgEth p) && rdb s (ra (pgEth p) 0x50) 2

/-- Fields of PTC.CFG. -/
def ptpDomain (s : State) : Nat := rdf s (ptcA 0x40) 23 16
def tcMode (s : State) : Nat := rdf s (ptcA 0x40) 13 12
def delayP2p (s : State) : Bool := rdb s (ptcA 0x40) 10

/-- The ordinary clock hears a message: PTP is the source, and its domain on a Press-ring port. -/
def hears (s : State) (m : PtpMsg) : Bool :=
  pgEn s pgPtc && srcPtp s && ringPort s m.port && m.domain == ptpDomain s && m.sourceClock != Config.clockIdentity

/-- The message comes from the selected master. -/
def fromMaster (s : State) (m : PtpMsg) : Bool :=
  hears s m && (s.clk.best.map (fun b => b.1)) == some m.port && s.clk.parent == m.sourceClock

/-- Saturates 2^-16 ns to 32 bits of signed ns (R333). -/
def satNs (x : Int) : Nat := twos 32 (ssatN 32 (roundHalfUp x 65536))

/-- Sends a PTP message of the unit's own. -/
def sendPtp (s : State) (p kind seq : Nat) (origin correction : Int) : State :=
  send s (.ptp p kind { port := p, domain := ptpDomain s, sourceClock := Config.clockIdentity, sourcePort := 1,
                        seq := seq % 65536, twoStep := false, correction := correction, origin := origin.toNat, rxTime := 0 })

/-! ### Offset and delay (R333) -/

/-- A complete offset measurement waits for the servo, and shows in OFFSET. -/
def offsetMeasured (s : State) (t1 t2 : Int) : State :=
  let off := t2 - t1 - s.clk.mpd
  wr (setClk s { s.clk with t1 := t1, t2 := t2, measured := some off }) (ptcA 0x90) (satNs off)

/-- PTP_SYNC (R329, R332, R333). -/
def execPtpSync (m : PtpMsg) (s : State) : Host.Outcome State Fault Refusal :=
  .next (if fromMaster s m then
      let s := count s pgPtc 0
      if m.twoStep then setClk s { s.clk with heldSync := some m }
      else offsetMeasured s (m.origin + m.correction) (rxStamp s m)
    else s)

/-- INTERVALS: 2^LOG s in 2^-16 ns. -/
def interval (s : State) (hi lo : Nat) : Nat :=
  let l := signed 8 (rdf s (ptcA 0x8C) hi lo)
  if 0 ≤ l then 2 ^ l.toNat * 1000000000 * 65536 else 1000000000 * 65536 / 2 ^ l.natAbs

/-- FOLLOW_UP (R333): supplies t1 of the held Sync; a late one or one without its Sync is discarded. -/
def execFollowUp (m : PtpMsg) (s : State) : Host.Outcome State Fault Refusal :=
  .next (if fromMaster s m then
      let s := count s pgPtc 1
      match s.clk.heldSync with
      | some h =>
        if h.seq = m.seq ∧ m.rxTime ≤ h.rxTime + interval s 31 24 then
          offsetMeasured (setClk s { s.clk with heldSync := none }) (m.origin + m.correction + h.correction) (rxStamp s h)
        else count s pgPtc 10
      | none => count s pgPtc 10
    else s)

/-- A new mean path delay (R333). -/
def setMpd (s : State) (d : Int) : State := wr (setClk s { s.clk with mpd := d }) (ptcA 0x94) (satNs d)

/-- DELAY_RESP (R333): completes the delay request-response exchange. -/
def execDelayResp (m : PtpMsg) (s : State) : Host.Outcome State Fault Refusal :=
  .next (if fromMaster s m && !delayP2p s then
      let s := count s pgPtc 3
      if m.seq = s.clk.reqSeq then
        setMpd s ((s.clk.t2 - s.clk.t3 + (m.origin - m.correction - s.clk.t1)) / 2)
      else s
    else s)

/-- A peer-delay measurement completes (R335). -/
def setPeerDelay (s : State) (p : Nat) (d : Int) : State :=
  let s := count (setClk s { s.clk with peerDelay := tset s.clk.peerDelay p d, pdHeld := tdel s.clk.pdHeld p }) pgPtc 4
  if delayP2p s && (s.clk.best.map (fun b => b.1)) == some p then setMpd s d else s

/-- PDELAY (R329, R335): a peer-delay message on a Press-ring port. -/
def execPdelay (kind : PdelayKind) (m : PtpMsg) (s : State) : Host.Outcome State Fault Refusal :=
  let p := m.port
  .next (if (pgEn s pgPtc && ringPort s p && (delayP2p s || tcMode s == 2)) = false then s
    else match kind with
      | .req => sendPtp s p 5 m.seq 0 (m.correction + (txStamp s p - rxStamp s m))
      | .resp =>
        match s.clk.pdReq.find? (fun e => e.1 == p) with
        | some (_, q, t1) =>
          if q ≠ m.seq then s
          else if m.twoStep then setClk s { s.clk with pdHeld := tset s.clk.pdHeld p m }
          else setPeerDelay s p ((rxStamp s m - t1 - m.correction) / 2)
        | none => s
      | .respFollowUp =>
        match s.clk.pdReq.find? (fun e => e.1 == p), s.clk.pdHeld.find? (fun e => e.1 == p) with
        | some (_, q, t1), some (_, h) =>
          if q ≠ m.seq ∨ h.seq ≠ m.seq then s
          else setPeerDelay s p ((rxStamp s h - t1 - (m.origin - h.origin) - h.correction - m.correction) / 2)
        | _, _ => s)

/-- Sends a Pdelay_Req on a port. -/
def sendPdelayReq (s : State) (p : Nat) : State :=
  let q := (s.clk.reqSeq + 1) % 65536
  let t := txStamp s p
  sendPtp (setClk s { s.clk with reqSeq := q, pdReq := tset s.clk.pdReq p (q, t) }) p 4 q 0 0

/-- DELAY_REQUEST_INTERVAL (R330, R335): every 2^LOG_DELAY s. -/
def execDelayRequestInterval (s : State) : Host.Outcome State Fault Refusal :=
  .next (if pgEn s pgPtc = false then s
    else
      let ring := (List.range 4).filter (ringPort s)
      let ps := if tcMode s = 2 then ring
        else if delayP2p s && srcPtp s then ring.filter (fun p => (s.clk.best.map (fun b => b.1)) == some p) else []
      let s := ps.foldl sendPdelayReq s
      match s.clk.best with
      | some (p, _) =>
        if srcPtp s && !delayP2p s && s.clk.state != 5 && ringPort s p then
          let q := (s.clk.reqSeq + 1) % 65536
          let t := txStamp s p
          count (sendPtp (setClk s { s.clk with reqSeq := q, t3 := t }) p 1 q t 0) pgPtc 2
        else s
      | none => s)

/-! ### As master (R329) -/

/-- The unit is the PTP master. -/
def ptpMaster (s : State) : Bool := pgEn s pgPtc && srcPtp s && s.clk.state == 5

/-- PTP_SYNC_INTERVAL: a one-step Sync on every Press-ring port. -/
def execPtpSyncInterval (s : State) : Host.Outcome State Fault Refusal :=
  .next (if ptpMaster s then
      let q := (s.clk.syncSeq + 1) % 65536
      let s := setClk s { s.clk with syncSeq := q }
      ((List.range 4).filter (ringPort s)).foldl (fun s p => sendPtp s p 0 q (txStamp s p) 0) s
    else s)

/-- PTP_ANNOUNCE_INTERVAL: an Announce on every Press-ring port. -/
def execPtpAnnounceInterval (s : State) : Host.Outcome State Fault Refusal :=
  .next (if ptpMaster s then
      let q := (s.clk.annSeq + 1) % 65536
      let s := setClk s { s.clk with annSeq := q }
      ((List.range 4).filter (ringPort s)).foldl (fun s p => sendPtp s p 3 q 0 0) s
    else s)

/-- DELAY_REQ: the master answers with its receive time. -/
def execDelayReq (m : PtpMsg) (s : State) : Host.Outcome State Fault Refusal :=
  .next (if ptpMaster s && hears s m && !delayP2p s then sendPtp s m.port 2 m.seq (rxStamp s m) m.correction else s)

/-! ### The best master (R326, R330) -/

/-- Lexicographic order of data sets. -/
def lexLt : List Nat → List Nat → Bool
  | [], [] => false
  | [], _ :: _ => true
  | _ :: _, [] => false
  | a :: r, b :: t => decide (a < b) || (a == b && lexLt r t)

/-- What the best master clock algorithm compares of a foreign master, and of the unit itself. -/
def masterKey (f : Nat × Nat × AnnounceData) : List Nat :=
  let d := f.2.2
  [d.priority1, d.clockClass, d.clockAccuracy, d.variance, d.priority2, d.grandmaster, d.stepsRemoved, f.2.1, f.1]

def ownKey (s : State) : List Nat :=
  let d (hi lo : Nat) : Nat := rdf s (ptcA 0x88) hi lo
  [d 31 24, d 15 8, d 7 0, Config.clockVariance, d 23 16, Config.clockIdentity]

/-- The best of the foreign masters heard. -/
def bestForeign (s : State) : Option (Nat × Nat × AnnounceData) :=
  s.clk.foreign.foldl (fun best f => match best with
    | none => some f
    | some g => if lexLt (masterKey f) (masterKey g) then some f else best) none

/-- PTC.CFG.SLAVE_ONLY. -/
def slaveOnly (s : State) : Bool := rdb s (ptcA 0x40) 5

/-- Enters HOLDOVER. -/
def enterHoldover (s : State) : State := ev (setClk s { s.clk with state := 4, goodRun := 0, badRun := 0 }) pgPtc 10

/-- A measurement or a master change is refused (R325, R326): HOLDOVER, JUMP, MASTER_JUMP. -/
def masterJump (s : State) (off : Int) (gm : Nat) : State :=
  let s := enterHoldover (setClk s { s.clk with jump := true })
  fault (ev s pgPtc 8) 0x0901 1 pgPtc noBar [satNs off, gm % 2 ^ 32, gm / 2 ^ 32]

/-- Selects a foreign master: the first selection leads to ACQUIRE, a change of grandmaster to HOLDOVER (R326). A unit that
took over has no grandmaster yet, and the first one is no change (R339). -/
def selectMaster (s : State) (f : Nat × Nat × AnnounceData) : State :=
  let gm := f.2.2.grandmaster
  let new := (s.clk.best.map (fun b => b.2.grandmaster)) != some gm
  let s := wr64 (setClk s { s.clk with best := some (f.1, f.2.2), parent := f.2.1 }) (ptcA 0x98) gm
  if s.clk.state = 1 ∨ s.clk.state = 5 then
    setClk s { s.clk with state := 2, first := true, adopted := some gm, goodRun := 0, badRun := 0 }
  else if s.clk.adopted = none then setClk s { s.clk with adopted := some gm }
  else if new && s.clk.adopted != some gm then masterJump s (signed 32 (rd s (ptcA 0x90)) * 65536) gm
  else s

/-- Runs the best master clock algorithm. DESIGN CHOICE (log 163): a unit in HOLDOVER whose own data set is the best stays
there (R328), without a master; in another state it becomes the master. -/
def runBmca (s : State) : State :=
  match bestForeign s with
  | none => s
  | some f =>
    if !slaveOnly s && lexLt (ownKey s) (masterKey f) then
      (if s.clk.state = 4 then setClk s { s.clk with best := none }
       else setClk s { s.clk with state := 5, best := none, jump := false })
    else selectMaster s f

/-- PTP_ANNOUNCE (R326, R329, R330). -/
def execPtpAnnounce (m : PtpMsg) (d : AnnounceData) (s : State) : Host.Outcome State Fault Refusal :=
  .next (if hears s m && s.clk.state != 6 then
      let s := count s pgPtc 5
      let rest := s.clk.foreign.filter (fun f => !(f.1 == m.port && f.2.1 == m.sourceClock))
      runBmca (setClk s { s.clk with foreign := rest ++ [(m.port, m.sourceClock, d)] })
    else s)

/-- ANNOUNCE_TIMEOUT (R330): no Announce of the selected master; without one, a unit that may becomes master. -/
def execAnnounceTimeout (s : State) : Host.Outcome State Fault Refusal :=
  .next (if pgEn s pgPtc && srcPtp s && s.clk.state != 6 then
      match s.clk.best with
      | some (p, d) =>
        let s := setClk s { s.clk with best := none,
                                       foreign := s.clk.foreign.filter (fun f => !(f.1 == p && f.2.1 == s.clk.parent)) }
        let s := ev (enterHoldover s) pgPtc 12
        runBmca (fault s 0x0902 1 pgPtc noBar [rd s (ptcA 0x90), d.grandmaster % 2 ^ 32, d.grandmaster / 2 ^ 32])
      | none => if s.clk.state = 1 && !slaveOnly s then setClk s { s.clk with state := 5 } else s
    else s)

/-! ### The servo (R321, R324, R325, R327) -/

/-- Applies a measurement by slewing: a new INCR, which the manual bounds but does not spell out, at the limit if it
would lie outside the range of R318. -/
def slew (s : State) (off : Int) : State :=
  let raw := Config.servoIncr s.clk.incr off (rdf s (ptcA 0x7C) 6 0) s.freeCount
  let s := { s with freeCount := s.freeCount + 1 }
  let v := max incrMin (min incrMax raw)
  setIncr (if v = raw then s else count s pgPtc 9) v

/-- Runs of measurements within and above LOCK_NS: LOCKED after 16, back to ACQUIRE after 16 (R321). -/
def lockRuns (s : State) (off : Int) : State :=
  let good := decide (off.natAbs ≤ rdf s (ptcA 0x80) 11 0 * 65536)
  let g := if good then min 16 (s.clk.goodRun + 1) else 0
  let b := if good then 0 else min 16 (s.clk.badRun + 1)
  let s := setClk s { s.clk with goodRun := g, badRun := b }
  if s.clk.state = 2 ∧ 16 ≤ g then ev (setClk s { s.clk with state := 3, suspended := false }) pgPtc 9
  else if s.clk.state = 3 ∧ 16 ≤ b then setClk s { s.clk with state := 2 }
  else s

/-- The servo acts on an offset from the selected master. -/
def servo (s : State) (off : Int) (gm : Nat) : State :=
  let within := decide (off.natAbs ≤ rdf s (ptcA 0x78) 19 0 * 65536)
  if s.clk.state = 4 then
    (if within && s.clk.adopted == some gm then
      lockRuns (slew (setClk s { s.clk with state := 2, jump := false, first := false }) off) off
     else s)
  else if s.clk.state = 2 ∧ s.clk.first = true ∧ anyPrinting s = false then
    lockRuns (stepBack (setClk s { s.clk with first := false }) off) off
  else if s.clk.state = 2 ∨ s.clk.state = 3 then
    (if within || s.clk.suspended then lockRuns (slew (setClk s { s.clk with first := false }) off) off
     else masterJump s off gm)
  else s

/-- SERVO_MEASUREMENT (R321 to R326): control core 3 acts on the complete measurement that waits. -/
def execServoMeasurement (s : State) : Host.Outcome State Fault Refusal :=
  .next <| match s.clk.measured, s.clk.best with
    | some off, some (_, d) =>
      let s := setClk s { s.clk with measured := none }
      if pgEn s pgPtc && srcPtp s then servo s off d.grandmaster else s
    | _, _ => s

/-- ACCEPT_STEP (R327). -/
def execAcceptStep (_rq : Requester) (s : State) : Host.Outcome State Fault Refusal :=
  .next (gated s (ptcA 0x48) 4 (fun s =>
    match s.clk.jump, s.clk.best with
    | true, some (_, d) =>
      let p := anyPrinting s
      setClk s { s.clk with jump := false, state := 2, adopted := some d.grandmaster, suspended := p, first := !p, goodRun := 0,
                            badRun := 0 }
    | _, _ => s))

/-! ### The transparent clock (R334 to R336) -/

/-- TC_FORWARD (R334 to R336): a PTP frame leaves on the other Press-ring port. Peer-delay messages stay on their link in
P2P mode; event messages are corrected, with the checksum that their transport asks for. -/
def execTcForward (kind : TcKind) (m : PtpMsg) (transport : Nat) (trailer : Bool) (egress : Nat) (s : State) :
    Host.Outcome State Fault Refusal :=
  let pd := kind == .pdelayReq || kind == .pdelayResp || kind == .pdelayFollowUp
  .next (if (pgEn s pgPtc && tcMode s != 0 && ringPort s m.port && ringPort s egress && egress != m.port &&
      m.sourceClock != Config.clockIdentity && !(tcMode s == 2 && pd)) = false then s
    else if kind = .general ∨ kind = .pdelayFollowUp then send s (.ptp egress 6 m)
    else if transport = 2 ∧ trailer = false then send (count s pgPtc 7) (.ptp egress 6 m)
    else
      let residence := txStamp s egress - rxStamp s m
      let peer : Int := if tcMode s = 2 ∧ kind = .sync then tget (fun _ => 0) s.clk.peerDelay m.port else 0
      send (count s pgPtc 6) (.ptp egress (7 + transport % 3) { m with correction := m.correction + residence + peer }))

/-! ### Press time in a pair (R337 to R339) -/

/-- PAIR_TIME_EXCHANGE (R337): every 10 us a following unit sends a SYNC on the lowest pair lane that is up. -/
def execPairTimeExchange (s : State) : Host.Outcome State Fault Refusal :=
  .next (if pairFollow s then
      match (pairLanes s).find? (fun l => (getLane s l).lock) with
      | some l =>
        let q := (s.clk.pairSeq + 1) % 256
        let moved := s.clk.pairLane.isSome && s.clk.pairLane != some l
        let s := setClk s { s.clk with pairSeq := q, pairT1 := some (fireNow s), pairLane := some l,
                                       pairDiscard := if moved then 8 else s.clk.pairDiscard }
        pairPut s l 0x03 0 0 (leBytes 1 1 ++ leBytes 1 q ++ leBytes 2 0 ++ leBytes 6 (fireNow s) ++ leBytes 4 0 ++ leBytes 2 0)
      | none => s
    else s)

/-- PAIR_LIMIT in 2^-8 ns. -/
def pairLimit (s : State) : Nat := rdf s (ptcA 0x84) 11 0 * 256

/-- The record of PAIR_TIME: once, and again after 1 s within the limit (R338). -/
def pairTimeCheck (s : State) (off : Int) : State :=
  if off.natAbs ≤ pairLimit s then
    match s.clk.pairBeyond, s.clk.pairOkSince with
    | true, some t =>
      if t + 1000000000 ≤ ptTotalNs s then setClk s { s.clk with pairBeyond := false } else s
    | _, none => setClk s { s.clk with pairOkSince := some (ptTotalNs s) }
    | _, _ => s
  else
    let was := s.clk.pairBeyond
    let s := setClk s { s.clk with pairBeyond := true, pairOkSince := none }
    if was || s.pair.role != 5 then s
    else fault (ev s pgPtc 13) 0x0903 1 pgPtc noBar [satNs (off * 256)]

/-- The servo of a following unit acts on its offset from the active (R337). -/
def pairServo (s : State) (off : Int) : State :=
  let s := wr (setClk s { s.clk with pairOffset := off }) (ptcA 0x90) (satNs (off * 256))
  let s := count s pgPtc 11
  if s.clk.pairDiscard ≠ 0 then setClk s { s.clk with pairDiscard := s.clk.pairDiscard - 1 }
  else if s.clk.state = 6 ∧ s.clk.first = true ∧ s.pair.role = 4 ∧ s.pair.joinStep < 4 ∧ anyPrinting s = false then
    let s := stepBack (setClk s { s.clk with first := false }) (off * 256)
    pairTimeCheck s 0
  else
    let s := pairTimeCheck s off
    if off.natAbs ≤ pairLimit s then slew (setClk s { s.clk with state := 6, jump := false }) (off * 256)
    else if s.clk.state = 6 then masterJump s (off * 256) 0
    else s

/-- A TIME message of the pair: the active answers a SYNC on the lane that it came on, and a following unit completes a
measurement from a RESP (R337). -/
def pairTime (s : State) (l : Nat) (body : List Byte) : State :=
  if bytesAt body 0 1 = 1 then
    (if isActive s then
      pairPut s l 0x03 0 0 (leBytes 1 2 ++ leBytes 1 (bytesAt body 1 1) ++ leBytes 2 0 ++ leBytes 6 (fireNow s) ++
        leBytes 6 (fireNow s))
     else s)
  else if pairFollow s && bytesAt body 0 1 == 2 && bytesAt body 1 1 == s.clk.pairSeq then
    match s.clk.pairT1 with
    | some t1 =>
      let t4 := fireNow s
      let half (x y : Nat) : Int := signed 48 ((x + 2 ^ 48 - y % 2 ^ 48) % 2 ^ 48)
      pairServo (setClk s { s.clk with pairT1 := none }) ((half t1 (bytesAt body 4 6) + half t4 (bytesAt body 0xA 6)) / 2)
    | none => s
  else s

end Sys2Proof.Machine
end

