-- ==== Sys2Proof/Machine/Join.lean ====
section
/-! DEFINITION. The join of a pair (12): what the active copies and how the joining unit writes it (R356, R357), the
catch-up (R358, R360, R362), the alignment of channels (R359), and tiles asked of the partner (R113, R114). -/

namespace Sys2Proof.Machine

open Sys2Proof

/-! ### What is copied (R356) -/

/-- Pages that belong to the unit itself: CLK, THM, MON, TRIM, NVM, PCIE, PRL and PAIR. -/
def ownPage (p : Nat) : Bool :=
  p == pgClk || p == pgThm || p == pgMon || p == pgTrim || p == pgNvm || p == pgPcie || p == pgPair ||
    (decide (0xA8 ≤ p) && decide (p < 0xAC))

/-- Unit and MAC addresses, which stay the unit's own. -/
def ownAddress (p o : Nat) : Bool :=
  (decide (0x10 ≤ p) && decide (p < 0x14) && (o == 0x48 || o == 0x4C)) ||
    (p == pgGsh && decide (0x4C ≤ o) && decide (o < 0x60))

/-- Words of the register window that step 2 copies: table words, the control words of the page headers, and the
writable registers of every page that is not the unit's own. -/
def copiedWord (a : Nat) : Bool :=
  if 0x400000 ≤ a then true
  else
    let p := a / 4096
    let o := a % 4096
    if ownPage (headerOf p) then false
    else if isHeader p && (o == 0x10 || o == 0x14 || o == 0x18 || o == 0x1C || o == 0x2C) then true
    else match regSpec a with
      | some r => r.rw != 0 && !ownAddress p o
      | none => false

/-- Numbers of a record, 8 bytes each. -/
def encNats (l : List Nat) : List Byte := l.flatMap (fun n => leBytes 8 n)
def decNats (b : List Byte) : List Nat := (List.range (b.length / 8)).map (fun i => bytesAt b (8 * i) 8)

/-- Number i of a record. -/
def natAt (l : List Nat) (i : Nat) : Nat := (l[i]?).getD 0

def jobNats (j : Job) : List Nat :=
  [j.number, j.mask, b2n j.dpi1200, j.width, j.length, j.repeatLen, j.quota, j.alloc, j.descBase, j.descRows, j.ringBase,
    b2n j.started, b2n j.held, j.mode, twos 64 j.arg]

def jobOf (l : List Nat) : Job :=
  { number := natAt l 0, mask := natAt l 1, dpi1200 := natAt l 2 == 1, width := natAt l 3, length := natAt l 4,
    repeatLen := natAt l 5, quota := natAt l 6, alloc := natAt l 7, descBase := natAt l 8, descRows := natAt l 9,
    ringBase := natAt l 10, started := natAt l 11 == 1, startSlot := none, held := natAt l 12 == 1, mode := natAt l 13,
    arg := signed 64 (natAt l 14) }

/-- A descriptor with what the controller keeps beside it. -/
def tileNats (t : Tile) : List Nat :=
  let arr := match t.arriving with
    | some (g, n, ses, rs) => [1, g, n, ses, rs.length] ++ rs.flatMap (fun r => [r.start, r.stop, r.crc])
    | none => [0, 0, 0, 0, 0]
  [t.job, t.plane, t.x, t.y, t.state,
    t.flags, t.gran, t.length, t.compLen, t.size,
    t.storeCrc, t.contentCrc, t.slot, t.storageCrc, t.lastErr, t.absent.length, t.failed.length] ++
    t.absent ++ t.failed ++ arr

/-- The descriptor at the joining unit: an unpinned print window slot is not copied, so its tile is STORED (R358). -/
def tileOf (l : List Nat) : Tile :=
  let f := natAt l 5
  let thawed := natAt l 4 == 4 && bitOf f 1
  let state := if natAt l 4 = 3 ∨ (natAt l 4 = 4 ∧ thawed = false) then 2 else natAt l 4
  let na := natAt l 15
  let nf := natAt l 16
  let r := l.drop (17 + na + nf)
  { job := natAt l 0, plane := natAt l 1, x := natAt l 2, y := natAt l 3, state := state, storedFmt := bitOf f 0,
    pinned := bitOf f 1, refrozen := bitOf f 2, recovered := bitOf f 3, gran := natAt l 6, length := natAt l 7,
    compLen := natAt l 8, size := natAt l 9, storeCrc := natAt l 10, contentCrc := natAt l 11,
    slot := if thawed then natAt l 12 else 0, storageCrc := if thawed then natAt l 13 else 0, lastErr := natAt l 14,
    arriving := if natAt r 0 = 1 then
        some (natAt r 1, natAt r 2, natAt r 3,
          (List.range (natAt r 4)).map (fun i => { start := natAt r (5 + 3 * i), stop := natAt r (6 + 3 * i), crc := natAt r (7 + 3 * i) }))
      else none,
    recovery := 0, retried := false, avoid := 24, absent := (l.drop 17).take na, failed := (l.drop (17 + na)).take nf,
    lateSeen := false, fetchLate := false, frozen := none, blankAt := none }

/-- A journal entry without its data and results. -/
def entryNats (e : JEntry) : List Nat :=
  [e.session, e.seq, e.ring, e.state, e.progress, e.status, e.result0, e.result1, e.imageLine, e.ptNs, e.ptSec,
    twos 64 e.webPos, b2n e.replayed + 2 * b2n e.late + 4 * b2n e.ready + 8 * b2n e.waiting + 16 * b2n e.peer]

/-- The entry at the joining unit: a command of the active's rings is a peer entry there (R87). -/
def entryOf (stamp : Nat) (l : List Nat) (entry : List Byte) : JEntry :=
  { stamp := stamp, session := natAt l 0, seq := natAt l 1, ring := natAt l 2, entry := entry, data := [],
    state := natAt l 3, progress := natAt l 4, status := natAt l 5, result0 := natAt l 6, result1 := natAt l 7,
    result := [], imageLine := natAt l 8, ptNs := natAt l 9, ptSec := natAt l 10, webPos := signed 64 (natAt l 11),
    replayed := bitOf (natAt l 12) 0, peer := natAt l 0 == 0, written := false, withheld := false,
    late := bitOf (natAt l 12) 1, ready := bitOf (natAt l 12) 2, pairSeq := 0, wpos := none,
    waiting := bitOf (natAt l 12) 3 }

/-! ### COPY messages (R356, R357)

A COPY body is a region, an offset of 8 bytes, and data. Regions: 0 register words, 1 committed words, 2 sessions,
3 journal entries, 4 bytes of image memory, 5 descriptors, 6 jobs, 7 frozen PINNED slots, 8 words of the pipeline's
tables, 9 and 10 data and results of the last journal entry, 11 enables of the event controller, 12 AIM words of the
loop, 13 lines of its last changes, 14 commits it has armed, 15 staged nozzle entries, 16 and 17 last Dm and De. -/

/-- Sends one COPY message and counts its bytes. -/
def sendCopy (s : State) (region off : Nat) (data : List Byte) : State :=
  pairSendSeq (countN s pgPair 8 data.length) 0x20 0 (leBytes 1 region ++ leBytes 8 off ++ data)

/-- Sends bytes in pieces, with a running offset. -/
def sendPieces (s : State) (region off : Nat) (bs : List Byte) : State :=
  (List.range (ceilDiv bs.length 2048)).foldl
    (fun s i => sendCopy s region (off + 2048 * i) ((bs.drop (2048 * i)).take 2048)) s

/-- Sends a journal entry. -/
def sendEntry (s : State) (slot : Nat) (e : JEntry) : State :=
  let s := sendCopy s 3 slot (encNats (entryNats e) ++ e.entry)
  sendPieces (sendPieces s 9 0 e.data) 10 0 e.result

/-- Sends what decides the loop's next updates: AIM, the lines of its last changes, the commits it has armed, the staged
nozzle entries, and the last results (R301, R304, R22). -/
def sendLoop (s0 s : State) : State :=
  let s := s0.cams.aim.foldl (fun s e => sendCopy s 12 e.1 (encNats [e.2])) s
  let s := s0.cams.changed.foldl (fun s e => sendCopy s 13 e.1 (encNats [e.2])) s
  let s := s0.cams.armed.foldl (fun s e => sendCopy s 14 e.1 (encNats (e.2.1 :: e.2.2))) s
  let s := (List.range 8).foldl (fun s b => (getBar s0 b).staging.foldl (fun s e =>
    sendCopy s 15 b (encNats [e.1, e.2.toNat])) s) s
  let s := s0.cams.lastDm.foldl (fun s e => sendCopy s 16 e.1 (encNats [e.2.1, e.2.2])) s
  s0.cams.lastDe.foldl (fun s e => sendCopy s 17 e.1 (encNats [e.2.1, e.2.2])) s

/-- A byte with bit b for each bar that has a property. -/
def barMask (f : Nat → Bool) : Nat := (((List.range 8).filter f).map (fun b => 2 ^ b)).sum

/-- Step 2: registers, table windows, sessions and journal (R356). Its marker names the bars that print and those in a
return pass. -/
def sendTables (s0 : State) : State :=
  let s := setPair s0 { s0.pair with joinStep := 2 }
  let s := pairSendSeq s 0x21 0 (stepMark 2 ++ leBytes 1 (barMask (printing s0)) ++ leBytes 1 (barMask (retPass s0)))
  let s := (s0.regs.filter (fun e => copiedWord e.1)).foldl (fun s e => sendCopy s 0 e.1 (leBytes 4 e.2.toNat)) s
  let s := (s0.committed.filter (fun e => copiedWord e.1)).foldl (fun s e => sendCopy s 1 e.1 (leBytes 4 e.2.toNat)) s
  let s := s0.cams.ispTable.foldl (fun s e => sendCopy s 8 e.1 (leBytes 4 e.2.toNat)) s
  let s := sendLoop s0 (sendCopy s 11 0 (leBytes 64 s0.evc.en))
  let s := (s0.host.sessions.filter (fun e => e.1 != 0)).foldl (fun s e => pairSendSeq s 0x20 0 (sessionBytes e.1 e.2)) s
  (s0.host.journal.filter (fun e => !e.2.peer)).foldl (fun s e => sendEntry s e.1 e.2) s

/-- Sends the container of a tile, its frozen PINNED slot, and then its descriptor (R357). -/
def sendTile (s : State) (t : Tile) : State :=
  let s := if t.length = 0 then s else sendPieces s 4 (granAddr s t.gran) (memRead s.dram.mem (granAddr s t.gran) t.length)
  let s := match t.arriving with
    | some a => sendPieces s 4 (granAddr s a.1) (memRead s.dram.mem (granAddr s a.1) a.2.1)
    | none => s
  let s := sendCopy s 5 0 (encNats (tileNats t))
  if t.state = 4 ∧ t.pinned = true ∧ t.slot ≠ 0 then
    sendPieces s 7 (t.slot - 1)
      (frozenContainer (freezeDepth s 0) t.job t.plane t.x t.y (readSlot s (t.slot - 1) (dimsOf s t).1 (dimsOf s t).2) [])
  else s

/-- Step 3: jobs, Firn granules in use, descriptors and PINNED slots (R357). -/
def sendRegions (s0 : State) : State :=
  let s := setPair s0 { s0.pair with joinStep := 3, dirty := [] }
  let s := pairSendSeq s 0x21 0 (stepMark 3)
  let s := s0.print.jobs.foldl (fun s j => sendCopy s 6 0 (encNats (jobNats j))) s
  s0.print.tiles.foldl sendTile s

/-- Sends the dirty blocks and all descriptors again (R357). -/
def sendDirty (s0 : State) : State :=
  let s := countN (setPair s0 { s0.pair with dirty := [] }) pgPair 9 s0.pair.dirty.length
  let s := pairSendSeq s 0x21 0 (leBytes 1 2)
  let s := s0.pair.dirty.foldl (fun s b => sendPieces s 4 (65536 * b) (memRead s.dram.mem (65536 * b) 65536)) s
  s0.print.tiles.foldl (fun s t => sendCopy s 5 0 (encNats (tileNats t))) s

/-- COPY_PASS_DONE (R357, R436): a pass of step 3 ends, and the next begins in an open slot of throttling (log 63). Step 3
ends when the dirty data are at most DIRTY_MAX. -/
def execCopyPassDone (s : State) : Host.Outcome State Fault Refusal :=
  .next (if (s.pair.role == 3 && s.pair.joinStep == 3 && mayThrottled s) then
      let small := decide (s.pair.dirty.length ≤ 16 * rdf s (pairA 0x80) 11 0)
      let s := sendDirty s
      if small then pairSendSeq (setPair s { s.pair with joinStep := 4 }) 0x21 0 (stepMark 4) else s
    else s)

/-- The joining unit clears what step 2 copies. -/
def clearCopied (s : State) : State :=
  let s := { s with
    regs := s.regs.filter (fun e => !copiedWord e.1)
    committed := s.committed.filter (fun e => !copiedWord e.1)
    held := s.held.filter (fun e => !copiedWord e.1) }
  let s := { s with host := { s.host with sessions := s.host.sessions.filter (fun e => e.1 == 0),
                                          journal := s.host.journal.filter (fun e => e.2.session == 0 && !e.2.peer) } }
  { s with print := { s.print with jobs := [], tiles := [], thawQueue := [], windows := [], bars := [], past := [] },
           cams := { s.cams with ispTable := [], aim := [], changed := [], armed := [], lastDm := [], lastDe := [] } }

/-- The last journal entry written. -/
def lastEntry (s : State) : Option (Nat × JEntry) :=
  s.host.journal.foldl (fun best x => match best with
    | some y => if y.2.stamp < x.2.stamp then some x else best
    | none => some x) none

/-- A container failed its check at the joining unit: it asks the partner for the tile again (R113). -/
def copyTile (s : State) (t : Tile) : State :=
  let s := setTile s t
  if decide (t.length ≠ 0) && crc32c (memRead s.dram.mem (granAddr s t.gran) t.length) != t.storeCrc then askPartner s t 4
  else s

/-- A frozen slot: expanded into its slot, once complete, and checked against CONTENT_CRC (R121). -/
def copySlot (s : State) (off : Nat) (data : List Byte) : State :=
  let k := off % 2048
  let key := 64 + k
  let c := tget (fun _ => []) s.print.frozen key ++ data
  let keep (c : List Byte) : State :=
    { s with print := { s.print with frozen := if c.isEmpty then tdel s.print.frozen key else tset s.print.frozen key c } }
  if c.length < 24 + bytesAt c 0x10 4 then keep c
  else
    let s := keep []
    match findTile s (bytesAt c 4 4) (bytesAt c 8 1) (bytesAt c 9 1) (bytesAt c 0xA 6) with
    | none => s
    | some t =>
      let r := inflate false t.size (c.drop 24)
      if r.1 = thOk ∧ crc32c r.2 = bytesAt c 0x14 4 then writeSlot s (t.slot - 1) (dimsOf s t).1 r.2
      else setTile s { t with state := 2, slot := 0 }

/-- A COPY message of the loop's state is written (regions 12 to 17). -/
def copyLoop (s : State) (region off : Nat) (data : List Byte) : State :=
  let n := decNats data
  let x := natAt n 0
  let y := natAt n 1
  if region = 12 then { s with cams := { s.cams with aim := tset s.cams.aim off x } }
  else if region = 13 then { s with cams := { s.cams with changed := tset s.cams.changed off x } }
  else if region = 14 then { s with cams := { s.cams with armed := s.cams.armed ++ [(off, x, n.drop 1)] } }
  else if region = 15 then
    setBar s off { getBar s off with staging := tset (getBar s off).staging x (BitVec.ofNat 32 y) }
  else if region = 16 then { s with cams := { s.cams with lastDm := tset s.cams.lastDm off (x, y) } }
  else if region = 17 then { s with cams := { s.cams with lastDe := tset s.cams.lastDe off (x, y) } }
  else s

/-- A COPY message is written (R356, R357, R86). -/
def onCopy (s : State) (body : List Byte) : State :=
  let region := bytesAt body 0 1
  let off := bytesAt body 1 8
  let data := body.drop 9
  if s.pair.role ≠ 4 ∧ s.pair.role ≠ 5 then s
  else if region = 2 then
    setSession s (off % 17)
      { state := bytesAt data 0 1, id := bytesAt data 1 8, major := bytesAt data 9 1, minor := bytesAt data 10 1,
        window := bytesAt data 11 4, maxMsg := bytesAt data 15 4, accepted := bytesAt data 19 4,
        srcAddr := bytesAt data 23 16, srcPort := bytesAt data 39 2, ethPort := bytesAt data 41 1,
        events := bytesAt data 42 4, service := bytesAt data 46 1 == 1 }
  else if s.pair.role ≠ 4 ∨ s.pair.joinStep < 2 then s
  else
    let s := countN s pgPair 8 data.length
    let w := BitVec.ofNat 32 (bytesAt data 0 4)
    if region = 0 then (if copiedWord off then wr s off w.toNat else s)
    else if region = 1 then (if copiedWord off then setCm s off w.toNat else s)
    else if region = 3 then
      let e := entryOf s.host.nextStamp (decNats (data.take 104)) (data.drop 104)
      match (List.range 256).find? (fun i => (getEntry s i).isNone) with
      | some k => setEntry { s with host := { s.host with nextStamp := s.host.nextStamp + 1 } } k e
      | none => s
    else if region = 9 ∨ region = 10 then
      match lastEntry s with
      | some x => setEntry s x.1 (if region = 9 then { x.2 with data := x.2.data ++ data }
                                  else { x.2 with result := x.2.result ++ data })
      | none => s
    else if region = 4 then writeMem s off data
    else if region = 5 then copyTile s (tileOf (decNats data))
    else if region = 6 then setJob s (jobOf (decNats data))
    else if region = 7 then copySlot s off data
    else if region = 8 then { s with cams := { s.cams with ispTable := tset s.cams.ispTable off w } }
    else if region = 11 then { s with evc := { s.evc with en := bytesAt data 0 64 } }
    else copyLoop s region off data

/-! ### Catch-up (R358 to R362) -/

/-- The bar whose build line L counts from: the reference bar, or the first printing one. -/
def catchBar (s : State) : Nat :=
  if printing s (refBar s) then refBar s else (((List.range 8).find? (printing s)).getD 0)

/-- Channels of the catch-up: those that feed printing bars; without one, those in QUAD mode that a LINE.SRCb names
(R358, R362). -/
def catchChannels (s : State) : List Nat :=
  (List.range 8).filter (fun c =>
    if anyPrinting s then !(barsOn s c).isEmpty
    else (List.range 8).any (fun b => lineChan s b == c) && rdf s (ra (pgPos c) 0x40) 2 0 == 1)

/-- A POSITION message of a channel: its last latch with position, H and W (R359). -/
def sendPosition (s : State) (c : Nat) : State :=
  let ch := getChan s c
  let x := (ch.edges.head?).getD (ch.pos, ch.latchT)
  pairSendSeq s 0x22 0 (leBytes 1 c ++ leBytes 1 0 ++ leBytes 6 x.2 ++ leBytes 8 (twos 64 x.1) ++
    leBytes 8 (twos 64 ch.high) ++ leBytes 8 (twos 64 ch.low))

/-- A bar in the CATCHUP message: bar, job, return flag, and S_b of each sheet begun (R358). -/
def catchEntry (s : State) (b : Nat) : List Byte :=
  let br := getBar s b
  leBytes 1 b ++ leBytes 4 br.job ++ leBytes 1 (b2n br.ret) ++ leBytes 2 br.starts.length ++
    br.starts.flatMap (fun p => leBytes 8 (twos 64 p))

/-- The active answers a catch-up request: it chooses L and sends CATCHUP and the positions (R358, R359). -/
def sendCatchup (s : State) (c : Nat) : State :=
  if c < 8 then sendPosition s c
  else
    let l := (lineAfter s (catchBar s) (rdf s (pairA 0x70) 15 0) % (2 ^ 48 : Nat)).toNat
    let bars := (List.range 8).filter (printing s)
    let cs := catchChannels s
    let s := setPair (clearRuns s) { (clearRuns s).pair with catchup := some l, joinStep := 4 }
    let s := pairSendSeq s 0x21 0 (leBytes 1 4 ++ leBytes 6 l ++ leBytes 1 (cs.map (fun c => 2 ^ c)).sum ++
      leBytes 1 bars.length ++ bars.flatMap (catchEntry s))
    cs.foldl sendPosition s

/-- The bars of a CATCHUP message. -/
def readBars : Nat → List Byte → List (Nat × Nat × List Int × Bool)
  | 0, _ => []
  | k + 1, b =>
    let n := bytesAt b 6 2
    (bytesAt b 0 1 % 8, bytesAt b 1 4, (List.range n).map (fun i => signed 64 (bytesAt b (8 + 8 * i) 8)),
      bytesAt b 5 1 == 1) :: readBars k (b.drop (8 + 8 * n))

/-- Number of row-lines from 0 on that satisfy a condition that, once false, stays false. -/
def countReached (f : Nat → Bool) : Nat → Nat → Nat
  | 0, acc => acc
  | i + 1, acc => countReached f i (if f (acc + 2 ^ i - 1) then acc + 2 ^ i else acc)

/-- A row stream continues at the first row-line that H or W has not reached (R174, R226, R360). -/
def catchStream (s : State) (b : Nat) (br : Bar) (t : Stream) : Stream :=
  let front := frontOf s b br.ret
  let k := countReached (fun k => sheetBegun br k &&
    (if br.ret then decide (front ≤ compareValue s b br t k) else decide (compareValue s b br t k ≤ front))) 40 0
  { t with next := k, done := !lineLeft s b br k }

/-- A printing bar of the active starts at the joining unit (R358, R360). -/
def catchStart (s : State) (x : Nat × Nat × List Int × Bool) : State :=
  match findJob s x.2.1 with
  | none => s
  | some j =>
    let b := x.1
    let br : Bar := { freshBar s b j 0 with printing := true, ret := x.2.2.2, starts := x.2.2.1 }
    let s := setWin (setBar s b { br with streams := br.streams.map (catchStream s b br) }) b []
    let l : Int := (s.pair.catchup.getD 0 : Nat)
    let row := 16 * br.u
    if row = 0 then s
    else if br.ret then thawRows s b (buildLineI s b - thawDist s br) (rowFirst br (l.toNat / row))
    else thawRows s b (l.toNat / row * row : Nat) (buildLineI s b + thawDist s br)

/-- All channels are aligned: the unit builds from here, or is Ready when no bar prints (R360, R362). -/
def aligned (s : State) : State :=
  let s := setPair s { s.pair with peerBars := 0 }
  if s.pair.catchBars.isEmpty then becomeReady s false
  else claimPrint (s.pair.catchBars.foldl catchStart s)

/-- CATCHUP at the joining unit (R358). -/
def onCatchup (s : State) (body : List Byte) : State :=
  if s.pair.role = 4 ∧ s.pair.joinStep = 4 then
    let s := clearRuns s
    let cs := (List.range 8).filter (bitOf (bytesAt body 7 1))
    let s := setPair s { s.pair with catchup := some (bytesAt body 1 6), catchChans := cs, posFails := 0,
                                     catchBars := readBars (bytesAt body 8 1) (body.drop 9) }
    if cs.isEmpty then aligned s else s
  else s

/-- Distance of two latch times in 2^-8 ns. -/
def timeApart (t u : Nat) : Nat := (signed 48 ((t + 2 ^ 48 - u % 2 ^ 48) % 2 ^ 48)).natAbs

/-- The own latch that matches a latch time of the active, with H and W at it: the nearest one, within a quarter of the
present edge interval, when no other lies within half of it (R359). On a web that stands still it is the last latch. -/
def matchLatch (ch : Channel) (t : Nat) : Option (Int × Int × Int) :=
  let es := (ch.edges.zip ch.marks).map (fun x => (timeApart x.1.2 t, x.1.1, x.2.1, x.2.2))
  let near := es.foldl (fun best x => match best with
    | some y => if x.1 < y.1 then some x else best
    | none => some x) (none : Option (Nat × Int × Int × Int))
  match near with
  | none => if ch.speed = 0 then some (ch.pos, ch.high, ch.low) else none
  | some x =>
    if ch.speed = 0 then (es.head?).map (fun y => y.2)
    else
      let iv := 10 ^ 9 * 2 ^ 24 / ch.speed.natAbs
      if 4 * x.1 ≤ iv ∧ (es.filter (fun y => decide (2 * y.1 ≤ iv))).length ≤ 1 then some x.2 else none

/-- A POSITION message at the joining unit (R359). -/
def onPosition (s : State) (body : List Byte) : State :=
  let c := bytesAt body 0 1
  if s.pair.role ≠ 4 ∨ s.pair.joinStep ≠ 4 ∨ s.pair.catchChans.contains c = false then s
  else
    let ch := getChan s c
    let t := (((bytesAt body 2 6 : Nat) + s.clk.pairOffset) % (2 ^ 48 : Nat)).toNat
    let inTime := s.clk.state == 6 && decide (s.clk.pairOffset.natAbs ≤ pairLimit s)
    match (if inTime then matchLatch ch t else none) with
    | none =>
      if 7 ≤ s.pair.posFails then joinFail s
      else pairSendSeq (setPair s { s.pair with posFails := s.pair.posFails + 1 }) 0x21 0 (catchRequest c)
    | some m =>
      let d := signed 64 (bytesAt body 8 8) - m.1
      let mv (x : Int × Nat) : Int × Nat := (x.1 + d, x.2)
      let s := setChan s c { ch with
        pos := ch.pos + d
        high := ch.high + (signed 64 (bytesAt body 0x10 8) - m.2.1)
        low := ch.low + (signed 64 (bytesAt body 0x18 8) - m.2.2)
        dirMark := ch.dirMark + d
        edges := ch.edges.map mv
        winFirst := ch.winFirst.map mv
        winLast := ch.winLast.map mv }
      let s := setPair s { s.pair with catchChans := s.pair.catchChans.filter (fun x => x != c) }
      if s.pair.catchChans.isEmpty then aligned s else s

/-- Acknowledgements that waited for a joining unit or a standby that is gone are sent (R79, R368). -/
def releaseHeld (s : State) (free : JEntry → Bool) : State :=
  let es := s.host.journal.filter (fun e => e.2.withheld && free e.2)
  let s := { s with host := { s.host with journal := s.host.journal.map (fun e =>
    if e.2.withheld && free e.2 then (e.1, { e.2 with withheld := false }) else e) } }
  let s := (List.range 16).foldl (fun s i =>
    if es.any (fun e => e.2.session == i + 1) && ((getSession s (i + 1)).state == 1 || (getSession s (i + 1)).state == 2) then
      sendHeader s (i + 1) 0x11
    else s) s
  (es.filter (fun e => e.2.session == 0 && !e.2.peer)).foldl (fun s e => advanceHead s e.2.ring) s

/-- The active's join has ended: the partner holds no more inputs back. -/
def endCopy (s : State) : State :=
  let s := clearRuns s
  releaseHeld (setPair s { s.pair with joinStep := 0, dirty := [] }) (fun _ => true)

/-- A COPY_CTRL message: kind 1 a step of the join, 2 a pass over dirty blocks, 3 a catch-up request, 4 CATCHUP. -/
def onCopyCtrl (s : State) (body : List Byte) : State :=
  let kind := bytesAt body 0 1
  let v := bytesAt body 1 1
  if s.pair.role = 3 then
    (if kind = 1 ∧ v = 1 then sendTables s
     else if kind = 1 ∧ v = 0 then endCopy s
     else if kind = 1 ∧ v = 5 ∧ s.pair.joinStep = 4 then setPair s { s.pair with joinStep := 5 }
     else if kind = 3 ∧ 4 ≤ s.pair.joinStep then sendCatchup s v
     else s)
  else if s.pair.role = 4 then
    (if kind = 1 ∧ v = 2 then setPair (clearCopied s) { (clearCopied s).pair with joinStep := 2, inputs := [], peerBars := bytesAt body 2 2 }
     else if kind = 1 ∧ v = 3 then setPair s { s.pair with joinStep := 3 }
     else if kind = 1 ∧ v = 4 then pairSendSeq (setPair s { s.pair with joinStep := 4 }) 0x21 0 (catchRequest 0xFF)
     else if kind = 2 then { s with print := { s.print with tiles := [] } }
     else if kind = 4 then onCatchup s body
     else s)
  else s

/-! ### Tiles of the partner (R113, R114) -/

/-- TILE_REQ: the container and its descriptor, when the store holds it sound. -/
def onTileReq (s : State) (body : List Byte) : State :=
  match findTile s (bytesAt body 0 4) (bytesAt body 4 1) (bytesAt body 5 1) (bytesAt body 6 6) with
  | none => s
  | some t =>
    let c := memRead s.dram.mem (granAddr s t.gran) t.length
    if t.length = 0 ∨ crc32c c ≠ t.storeCrc then s
    else pairSendSeq s 0x32 0 (c ++ descBytes t)

/-- TILE_DATA: a defective Firn copy is replaced and thawed again; in a recovery the content is written into a new slot
once it matches CONTENT_CRC, and is fetched from there (R113, R114, R117). -/
def onTileData (s : State) (body : List Byte) : State :=
  let n := 24 + bytesAt body 0x10 4
  let c := body.take n
  match findTile s (bytesAt c 4 4) (bytesAt c 8 1) (bytesAt c 9 1) (bytesAt c 0xA 6) with
  | none => s
  | some t =>
    let crc := bytesAt body (n + 0x18) 4
    if t.recovery = 4 then
      (if crc32c c = crc ∧ n = t.length then
         enqueueThaw (setTile (writeMem s (granAddr s t.gran) c)
           { t with recovery := 0, state := 2, storeCrc := crc, contentCrc := bytesAt c 0x14 4 }) 0 t
       else tileDefective (scrubError s) { t with recovery := 0, lastErr := thStore } 7 0x0301 8)
    else if t.recovery = 5 then
      let r := inflate (bytesAt c 3 1 == 1) t.size ((c.drop 24).take (bytesAt c 0x10 4))
      if r.1 = thOk ∧ crc32c r.2 = t.contentCrc then
        match freeSlot s with
        | some k =>
          setTile (writeSlot s k (dimsOf s t).1 r.2) 
            { t with slot := k + 1, storageCrc := crc32c r.2, state := 4, recovery := 3 }
        | none => dropFetches (recoveryEnd s t false 0) t
      else dropFetches (recoveryEnd s t false 0) t
    else s

/-- DRAM_SCRUB (R378, R436): a standby, in an open slot of throttling, reads a THAWED slot or a STORED container and checks it. -/
def execDramScrub (job plane x y : Nat) (s : State) : Host.Outcome State Fault Refusal :=
  .next <| match findTile s job plane x y with
    | none => s
    | some t =>
      if s.pair.role ≠ 5 ∨ mayThrottled s = false then s
      else if recoveryWaits s t then s
      else if t.state = 4 ∧ t.slot ≠ 0 then
        let s := demand s 4 t.size
        if crc32c (readSlot s (t.slot - 1) (dimsOf s t).1 (dimsOf s t).2) = t.storageCrc then
          (if t.recovery = 0 ∨ t.recovery = 4 then s else recoveryEnd s t true (3 + t.recovery))
        else recoverTile s t
      else if t.state = 2 ∧ t.length ≠ 0 ∧ t.recovery = 0 then
        let s := demand s 4 t.length
        if crc32c (memRead s.dram.mem (granAddr s t.gran) t.length) = t.storeCrc then s
        else askPartner (count s pgFirn 2) t 4
      else s

end Sys2Proof.Machine
end

