-- ==== Sys2Proof/Machine/Loop.lean ====
section
/-! DEFINITION. The colour loop (10): qualified patches, band results, the update law, bar-coherent commits, ladders and
nozzle classes, and the enables with their checks. -/

namespace Sys2Proof.Machine

open Sys2Proof

/-! ### Qualified patches and band results (R298, R299) -/

/-- LOOP.QUAL and LOOP.AHEAD fields. -/
def loopA (o : Nat) : Nat := ra pgLoop o

/-- Samples of a full patch. -/
def patchSamples (s : State) : Nat := (64 - 2 * loopGuard s) * (loopStripe s - 2 * loopRowGuard s)

/-- The expected record of a bar for a patch. -/
def expectedOf (s : State) (w b k stripe : Nat) : Expected :=
  tget (fun _ => ({} : Expected)) s.cams.expected (patchKey w b k stripe)

/-- The measured sums of a patch. -/
def patchOf (s : State) (w k stripe : Nat) : Patch := tget (fun _ => ({} : Patch)) s.cams.patches (patchKey w 0 k stripe)

/-- Bars of the job that the loop reference bar prints. -/
def jobOfLoop (s : State) : List Nat :=
  (List.range 8).filter (fun b => printing s b && (getBar s b).job == (getBar s (loopRef s)).job)

/-- Bars of BARS that the loop does not ignore: a twinned secondary is (R302). -/
def loopMeasured (s : State) : List Nat := (loopBars s).filter (fun b => !(twinMode s b != 0 && twinSecondary s b))

/-- The printing ones of them. -/
def loopPrimaries (s : State) : List Nat := (loopMeasured s).filter (printing s)

/-- Bars p and b are twins. -/
def twins (s : State) (p b : Nat) : Bool := twinMode s b != 0 && twinPartner s b == p

/-- A patch meets the conditions of R298 for bar b. -/
def meets (s : State) (w b k stripe : Nat) : Bool :=
  let e := expectedOf s w b k stripe
  let q (hi lo : Nat) : Nat := rdf s (loopA 0x50) hi lo
  decide (rdf s (loopA 0x5C) 23 16 ≤ (patchOf s w k stripe).pixels) &&
    (jobOfLoop s).all (fun p => !(expectedOf s w p k stripe).dirty) &&
    (jobOfLoop s).all (fun p => p == b || twins s p b || decide ((expectedOf s w p k stripe).maxV ≤ q 7 0)) &&
    decide (e.minV ≤ e.maxV) && decide (e.maxV - e.minV ≤ q 15 8) && decide (q 23 16 ≤ e.minV) && decide (e.maxV ≤ q 31 24)

/-- A patch measures bar b: it meets the conditions for b. DESIGN CHOICE (log 54): where OTHER_MAX lets it meet them for
several bars, it measures the lowest (R298: a patch measures at most one bar). -/
def qualifies (s : State) (w b k stripe : Nat) : Bool :=
  meets s w b k stripe && !(loopMeasured s).any (fun p => decide (p < b) && meets s w p k stripe)

/-- N, Dm and De of a band of a bar in a window (R299); none without data. -/
structure BandResult where
  bar : Nat
  band : Nat
  n : Nat
  dm : Nat
  de : Nat
deriving DecidableEq, Repr

def bandResult (s : State) (w b k : Nat) : Option BandResult :=
  let qs := (List.range (loopLines s / loopStripe s)).filter (qualifies s w b k)
  if qs.isEmpty then none
  else
    let px := (qs.map (fun t => (patchOf s w k t).pixels)).sum
    let d := (qs.map (fun t => ((patchOf s w k t).d[loopChan s b]?).getD 0)).sum
    let a := (qs.map (fun t => (expectedOf s w b k t).sumA)).sum
    some { bar := b, band := k, n := qs.length, dm := (roundHalfUp d px).toNat,
           de := (roundHalfUp a (qs.length * patchSamples s)).toNat }

/-- Band results of a window. -/
def windowResults (s : State) (w : Nat) : List BandResult :=
  (loopPrimaries s).flatMap (fun b => (List.range 2048).filterMap (bandResult s w b))

/-! ### The update law (R300, R301, R307) -/

/-- The line of the last change of a band (R301). -/
def changedAt (s : State) (b k : Nat) : Option Nat := (s.cams.changed.find? (fun e => e.1 == 2048 * b + k)).map (fun e => e.2)

/-- T_MIN and T_MAX. -/
def tMin (s : State) : Int := signed 12 (rdf s (loopA 0x58) 11 0)
def tMax (s : State) : Int := signed 12 (rdf s (loopA 0x58) 27 16)

/-- TRIM_SEL as committed: the bank in use (R195). -/
def bankInUse (s : State) (b : Nat) : Nat := cm s (ra (pgBar b) 0x54) % 2

/-- The clamped step of R300; none where the band is not updated. -/
def bandDelta (s : State) (n0 : Nat) (r : BandResult) : Option Int :=
  let law (hi lo : Nat) : Nat := rdf s (loopA 0x54) hi lo
  let e : Int := (r.de : Int) - r.dm
  let seen := match changedAt s r.bar r.band with
    | some c => !before (retPass s r.bar) n0 c
    | none => true
  if r.n < law 7 4 ∨ r.de = 0 ∨ seen = false ∨ e.natAbs * 1024 ≤ law 15 8 * r.de then none
  else
    let step : Int := law 22 16
    some (min step (max (-step) (roundHalfUp (law 31 24 * e * 4096) (256 * r.de))))

/-- The trim after a step (R300). -/
def nextTrim (s : State) (r : BandResult) (d : Int) : Int :=
  min (tMax s) (max (tMin s) (bandTrim s r.bar (bankInUse s r.bar) r.band + d))

/-- The band is held at a limit while it still calls for a change in that direction (R307). -/
def heldAtLimit (s : State) (r : BandResult) (d : Int) : Bool :=
  nextTrim s r d != bandTrim s r.bar (bankInUse s r.bar) r.band + d

/-- TRIM_LIMIT once, until the band has left the limit (R307). -/
def trimLimit (s : State) (r : BandResult) (d : Int) : State :=
  let key := (r.bar, r.band)
  if heldAtLimit s r d then
    (if s.cams.atLimit.contains key then s
     else
      let s := { s with cams := { s.cams with atLimit := s.cams.atLimit ++ [key] } }
      fault (ev (count s pgLoop (4 * r.bar + 2)) pgLoop 10) 0x0802 1 pgLoop r.bar [r.band])
  else
    let t := nextTrim s r d
    if tMin s < t ∧ t < tMax s then
      { s with cams := { s.cams with atLimit := s.cams.atLimit.filter (fun e => e != key) } }
    else s

/-! ### Coherent commits (R302, R303, R304) -/

/-- The secondary that shares the updates of a primary (R302). -/
def twinOf (s : State) (b : Nat) : List Nat :=
  b :: (if twinMode s b != 0 && !twinSecondary s b then [twinPartner s b] else [])

/-- Copies the bank in use into the other bank. -/
def copyBank (s : State) (b j : Nat) : State :=
  (List.range 2048).foldl (fun s k => wr s (trimAddr b (1 - j) k) (rd s (trimAddr b j k))) s

/-- A commit refused as late drops the update (R303). -/
def dropUpdate (s : State) : State := count (ev s pgLoop 9) pgLoop 35

/-- Arms the BAR page of a bar for a loop commit of some bands. -/
def armLoop (s : State) (b line : Nat) (bands : List Nat) : State :=
  let s := armAt s (pgBar b) line
  if commitPending s (pgBar b) then
    { s with cams := { s.cams with armed := s.cams.armed.filter (fun e => e.1 != b) ++ [(b, line, bands)] } }
  else dropUpdate s

/-- A commit of the BAR page of b has applied: when the loop armed it, its bands have changed at its line (R301). -/
def loopCommitted (s : State) (b : Nat) : State :=
  match s.cams.armed.find? (fun e => e.1 == b && e.2.1 % 2 ^ 32 == commitLine s (pgBar b)) with
  | some (_, line, bands) =>
    let s := { s with cams := { s.cams with
        armed := s.cams.armed.filter (fun e => e.1 != b),
        changed := bands.foldl (fun t k => tset t (2048 * b + k) line) s.cams.changed } }
    wr64 s (loopA 0x78) line
  | none => s

/-- Writes the changed trims of a bar into its other bank, selects it, and arms the commit (R303). -/
def changeTrims (s : State) (b line : Nat) (ts : List (Nat × Int)) : State :=
  let j := bankInUse s b
  let s := copyBank s b j
  let s := ts.foldl (fun s x => wr s (trimAddr b (1 - j) x.1) (twos 12 x.2)) s
  armLoop (wrf s (ra (pgBar b) 0x54) 0 0 (1 - j)) b line (ts.map (fun x => x.1))

/-- LOOP.CFG.HOLD. -/
def loopHold (s : State) : Bool := rdb s (loopA 0x40) 7

/-- The results of one bar: kept as the last measured, and its bands updated (R300 to R304). -/
def barResults (s : State) (n0 line b : Nat) (rs : List BandResult) : State :=
  let s := rs.foldl (fun s r => { s with cams := { s.cams with
      lastDm := tset s.cams.lastDm (2048 * b + r.band) (r.dm, r.n),
      lastDe := tset s.cams.lastDe (2048 * b + r.band) (r.de, r.n) } }) s
  let br := getBar s b
  let built := if br.ret then br.len - 1 - buildLine s b else buildLine s b
  let s := setBar (count s pgLoop (4 * b)) b { br with loopData := built }
  let s := { s with cams := { s.cams with noData := s.cams.noData.filter (fun x => x != b) } }
  let ds := rs.filterMap (fun r => (bandDelta s n0 r).map (fun d => (r, d)))
  let ts := (ds.map (fun x => (x.1.band, nextTrim s x.1 x.2))).filter (fun x => x.2 != bandTrim s b (bankInUse s b) x.1)
  if ds.isEmpty then s
  else if loopHold s then dropUpdate s
  else if (twinOf s b).any (fun q => commitPending s (pgBar q)) then s
  else
    let s' := ds.foldl (fun s x => trimLimit s x.1 x.2) s
    if ts.isEmpty then s'
    else ev ((twinOf s b).foldl (fun s q => changeTrims s q line ts) (countN s' pgLoop (4 * b + 1) ts.length)) pgLoop 8

/-- Runs the update law on the results of a window (R300, R306), also at a joining unit whose bars do not print yet
(R356). -/
def applyLoop (s : State) (n0 line : Nat) (rs : List BandResult) : State :=
  ((loopMeasured s).filter (barPasses s)).foldl (fun s b =>
    let mine := rs.filter (fun r => r.bar == b)
    if mine.isEmpty then s else barResults s n0 line b mine) s

/-- The payload of a LOOP input: n0, the commit line, and each band's results (R306). -/
def loopPayload (n0 line : Nat) (rs : List BandResult) : List Byte :=
  leBytes 6 n0 ++ leBytes 6 line ++ rs.flatMap (fun r =>
    leBytes 1 r.bar ++ leBytes 2 r.band ++ leBytes 2 r.n ++ leBytes 2 r.dm ++ leBytes 2 r.de)

/-- The results of a window in payloads whose 16-bit SIZE holds them: one of at most 7,280 results, else one per bar; the
update law takes each bar by itself. -/
def loopParts (rs : List BandResult) : List (List BandResult) :=
  if rs.length ≤ 7280 then [rs]
  else ((List.range 8).map (fun b => rs.filter (fun r => r.bar == b))).filter (fun l => !l.isEmpty)

/-- The band results of a LOOP payload. -/
def loopRead (p : List Byte) : List BandResult :=
  (List.range ((p.length - 12) / 9)).map (fun i =>
    let a (o n : Nat) : Nat := bytesAt p (12 + 9 * i + o) n
    { bar := a 0 1, band := a 1 2, n := a 3 2, dm := a 5 2, de := a 7 2 })

/-- A LOOP input takes effect; a late one drops its update (R303, R306). -/
def applyLoopInput (s : State) (p : List Byte) (late : Bool) : State :=
  if late then dropUpdate s else applyLoop s (bytesAt p 0 6) (bytesAt p 6 6) (loopRead p)

/-- A patch or expected record belongs to a window. -/
def ofWindow (w k : Nat) : Bool := k / (4096 * 4096) / 8 == w

/-- This unit's cameras have shown pixels of a window that is still open (R306). -/
def ownMeasures (s : State) (w : Nat) : Bool := s.cams.patches.any (fun e => ofWindow w e.1)

/-- The window that starts at n0 has been measured by this unit's own cameras. -/
def keepOwn (s : State) (n0 : Nat) : State :=
  { s with cams := { s.cams with ownWindows := (n0 :: s.cams.ownWindows).take 16 } }

/-- The active's own cameras measured what a proposal reports: the window of band results, or the ladder of nozzle
states (R306). DESIGN CHOICE (log 55): what counts is what they have shown by the time the proposal comes. -/
def measuredHere (s : State) (kind : Nat) (p : List Byte) : Bool :=
  if kind = 3 then
    let n0 := bytesAt p 0 6
    s.cams.ownWindows.contains n0 ||
      (s.cams.windows.contains n0 && ownMeasures s (if loopPeriod s = 0 then 0 else n0 / loopPeriod s))
  else decide (kind = 4) && s.cams.ownLadder == some (bytesAt p 6 6)

/-- Removes what was kept of a window. -/
def closeWindow (s : State) (w : Nat) : State :=
  let own (k : Nat) : Bool := ofWindow w k
  let ws := s.cams.windows.drop 1
  let s := { s with cams := { s.cams with windows := ws, patches := s.cams.patches.filter (fun e => !own e.1),
                                          expected := s.cams.expected.filter (fun e => !own e.1) } }
  wrf s (loopA 0x70) 0 0 (b2n !ws.isEmpty)

/-- The commit line of R303: the reference bar's build line plus AHEAD. -/
def loopLineAhead (s : State) : Nat :=
  ((lineAfter s (loopRef s) (rdf s (loopA 0x5C) 11 0)) % (2 ^ 48 : Nat)).toNat

/-- LOOP_UPDATE (R298 to R304, R306, R307): the last frame of the oldest window has been measured. -/
def execLoopUpdate (s : State) : Host.Outcome State Fault Refusal :=
  .next <| match s.cams.windows with
    | [] => s
    | n0 :: _ =>
      let w := if loopPeriod s = 0 then 0 else n0 / loopPeriod s
      let rs := windowResults s w
      let line := loopLineAhead s
      let s := closeWindow (if ownMeasures s w then keepOwn s n0 else s) w
      if rs.isEmpty || !pgEn s pgLoop then s
      else (loopParts rs).foldl (fun s rs =>
        asInput s 3 (loopRef s) (some line) (loopPayload n0 line rs) (fun s => applyLoop s n0 line rs)) s

/-- Image lines a bar has built in its pass, by its build line. -/
def linesBuilt (s : State) (b : Nat) : Nat :=
  if retPass s b then (getBar s b).len - 1 - buildLine s b else buildLine s b

/-- LOOP_NO_DATA (R307): a printing bar of BARS has had no data for STALE x 1,024 image lines. -/
def execLoopNoData (bar : Nat) (s : State) : Host.Outcome State Fault Refusal :=
  let b := bar % 8
  .next (if pgEn s pgLoop && (loopPrimaries s).contains b && !s.cams.noData.contains b &&
      decide ((getBar s b).loopData + 1024 * rdf s (loopA 0x60) 15 0 ≤ linesBuilt s b) then
      fault (ev { s with cams := { s.cams with noData := s.cams.noData ++ [b] } } pgLoop 11) 0x0803 1 pgLoop b []
    else s)

/-! ### Ladder classes (R311 to R314) -/

/-- Inserts an amplitude, a sum and its scale, into a rising list. -/
def insertAmp (x : Nat × Nat) : List (Nat × Nat) → List (Nat × Nat)
  | [] => [x]
  | y :: r => if x.1 * y.2 ≤ y.1 * x.2 then x :: y :: r else y :: insertAmp x r

/-- The lower median of amplitudes (R311). -/
def lowerMedian (l : List (Nat × Nat)) : Nat × Nat := ((l.foldr insertAmp [])[(l.length - 1) / 2]?).getD (0, 1)

/-- STATE that a column has or is about to take. -/
def stateNext (s : State) (b c : Nat) : Nat := nzState (nozzleNext s b c)

/-- Amplitudes of the neighbours of a column that give its reference (R311). -/
def neighbours (s : State) (e : LadderCol) : List (Nat × Nat) :=
  (s.cams.ladderRead.filter (fun f => f.bar == e.bar && f.col != e.col && f.col % ladderSteps s == e.col % ladderSteps s &&
    decide (((f.col : Int) - e.col).natAbs ≤ 16 * ladderSteps s) && stateNext s f.bar f.col != 3)).map (fun f => (f.amp, f.scale))

/-- The candidate class of a column: 0 GOOD, 1 WEAK, 2 MISSING; none when it is not classified (R311, R312). -/
def candidate (s : State) (e : LadderCol) : Option Nat :=
  let ns := neighbours s e
  let ref := lowerMedian ns
  let st := stateNext s e.bar e.col
  if st = 3 ∨ (st = 2 ∧ bitOf (ladderCfg s) 30 = false) ∨ ns.length < 8 ∨ ref.1 < rdf s (loopA 0x94) 23 8 * ref.2 then none
  else
    let ratio := if ref.1 = 0 then Config.ratioByZero e.amp else 1024 * e.amp * ref.2 / (ref.1 * e.scale)
    if ratio < rdf s (loopA 0x90) 9 0 then some 2
    else if ratio < rdf s (loopA 0x90) 25 16 ∨ e.wide = true then some 1
    else some 0

/-- The nozzle entry with a new STATE, and COMP when it becomes MISSING without one (R313). -/
def reclassed (s : State) (b c st : Nat) : Nat :=
  let e := putField (nozzleNext s b c) 23 22 st
  if st = 2 ∧ nzComp e = 0 then putField e 27 24 (field (ladderCfg s) 27 24) else e

/-- Counts of consecutive ladders, and the confirmed changes, at most 1,024 (R313): (bar, column, class). -/
def classifyStep (s0 : State) (acc : Tab Nat × List (Nat × Nat × Nat)) (e : LadderCol) :
    Tab Nat × List (Nat × Nat × Nat) :=
  let key := 131072 * e.bar + e.col
  match candidate s0 e with
  | none => acc
  | some cl =>
    if cl = stateNext s0 e.bar e.col then (tdel acc.1 key, acc.2)
    else
      let n := tget (fun _ => 0) acc.1 key + 1
      if field (ladderCfg s0) 11 8 ≤ n ∧ acc.2.length < 1024 then (tdel acc.1 key, acc.2 ++ [(e.bar, e.col, cl)])
      else (tset acc.1 key n, acc.2)

/-- MISSING columns of a bar, as in effect (R314). -/
def missingCount (s : State) (b : Nat) : Nat :=
  ((s.regs.filter (fun e => decide (nozzleAddr b 0 ≤ e.1) && decide (e.1 < nozzleAddr b (ncols s b)))).filter
    (fun e => nzState e.2.toNat == 2)).length

/-- NOZZLE_LIMIT when the count reaches MISS_LIMIT, again only after it has fallen below (R314). -/
def missLimit (s : State) (b : Nat) : State :=
  let hit := decide (rdf s (loopA 0x98) 16 0 ≤ missingCount s b)
  if hit && !s.cams.limitSeen.contains b then
    fault (ev { s with cams := { s.cams with limitSeen := s.cams.limitSeen ++ [b] } } pgLoop 14) 0x0806 1 pgLoop b []
  else if hit then s
  else { s with cams := { s.cams with limitSeen := s.cams.limitSeen.filter (fun x => x != b) } }

/-- The payload of a NOZZLE input: the commit line, the first line of the ladder, then bar, column and entry of each
change. -/
def nozzlePayload (s : State) (line base : Nat) (cs : List (Nat × Nat × Nat)) : List Byte :=
  leBytes 6 line ++ leBytes 6 base ++ cs.flatMap (fun x => leBytes 1 x.1 ++ leBytes 3 x.2.1 ++ leBytes 4 (reclassed s x.1 x.2.1 x.2.2))

/-- Entries of a NOZZLE payload: bar, column, word. -/
def nozzleRead (p : List Byte) : List (Nat × Nat × Nat) :=
  (List.range ((p.length - 12) / 8)).map (fun i =>
    (bytesAt p (12 + 8 * i) 1 % 8, bytesAt p (13 + 8 * i) 3 % 131072, bytesAt p (16 + 8 * i) 4))

/-- Stages the entries of one bar and arms its commit, or joins the loop's pending one (R303, R304, R313). -/
def nozzleBar (s : State) (line b : Nat) (es : List (Nat × Nat)) : State :=
  let mine := s.cams.armed.any (fun e => e.1 == b)
  if es.isEmpty then s
  else if loopHold s then dropUpdate s
  else if commitPending s (pgBar b) && !mine then dropUpdate s
  else
    let s := es.foldl (fun s x => nozzleWrite s b x.1 x.2) s
    if barPasses s b then (if commitPending s (pgBar b) then s else armLoop s b line []) else missLimit s b

/-- A NOZZLE input takes effect (R306, R313). -/
def applyNozzles (s : State) (line : Nat) (es : List (Nat × Nat × Nat)) : State :=
  (List.range 8).foldl (fun s b =>
    nozzleBar s line b ((es.filter (fun x => x.1 == b)).map (fun x => x.2))) s

def applyNozzleInput (s : State) (p : List Byte) (late : Bool) : State :=
  if late then dropUpdate s else applyNozzles s (bytesAt p 0 6) (nozzleRead p)

/-- LADDER_CLASSIFY (R311 to R314): core 1 classifies the columns that a ladder frame has shown. -/
def execLadderClassify (s : State) : Host.Outcome State Fault Refusal :=
  .next <| match s.cams.ladderLine, s.cams.ladderRead with
    | none, _ => s
    | some _, [] => s
    | some base, _ :: _ =>
      let out := s.cams.ladderRead.foldl (classifyStep s) (s.cams.ladderCount, [])
      let cs := out.2
      let line := loopLineAhead s
      let payload := nozzlePayload s line base cs
      let s := { s with cams := { s.cams with ladderCount := out.1, ladderRead := [], ladderLine := none } }
      let s := ev (count (wrf s (loopA 0x70) 1 1 0) pgLoop 32) pgLoop 12
      let s := cs.foldl (fun s x => count s pgLoop (4 * x.1 + 3)) s
      let n (st : Nat) : Nat := (cs.filter (fun x => x.2.2 == st)).length
      if cs.isEmpty then s
      else
        let s := fault (ev s pgLoop 13) 0x0805 0 pgLoop noBar [n 0, n 1, n 2]
        asInput s 4 (loopRef s) (some line) payload (fun s => applyNozzles s line (nozzleRead payload))

/-! ### Enabling the loop and its ladders (R315) -/

/-- Image lines that a frame of a context shows. -/
def linesShown (s : State) (x : Nat) : Nat := lineAtDist s (loopRef s) (ctxHeight s x * (rowPitch s x).natAbs)

/-- The reason that refuses LOOP.PG_CTRL.EN, 0 when none does. -/
def loopCheck (s : State) : Nat :=
  let firsts := (loopBars s).map (firstCol s)
  if firsts.any (fun f => some f != firsts.head?) then 1
  else if loopLines s % loopStripe s ≠ 0 ∨ loopPeriod s < loopLines s then 2
  else if (List.range 8).any (fun x => ctxOn s x && ctxLoop s x && decide (linesShown s x < loopLines s)) then 3
  else if 4 < rdf s (loopA 0x4C) 18 16 ∨ loopStripe s < 4 * loopRowGuard s ∨ 24 < loopGuard s ∨ tMax s < tMin s then 4
  else 0

/-- The reason that refuses LADDER_CFG.EN, 0 when none does. -/
def ladderCheck (s : State) : Nat :=
  let x := field (ladderCfg s) 7 4 % 8
  let level := field (ladderCfg s) 15 12
  if linesShown s x < ladderT s * (ladderBars s).length + 2 * (ladderDash s + ladderGap s) ∨
      rdf s (loopA 0x90) 25 16 ≤ rdf s (loopA 0x90) 9 0 then 5
  else if level = 0 ∨ (ladderBars s).any (fun b => !drop4 s b && decide (3 < level)) then 6
  else 0

/-- LADDER_ENABLE (R315): a write of LOOP.LADDER_CFG. -/
def execLadderEnable (_rq : Requester) (val : Word) (s : State) : Host.Outcome State Fault Refusal :=
  let a := loopA 0x80
  .next (gated s a val.toNat (fun s =>
    let v := val.toNat &&& 0xCFFFFFF0
    let on := bitOf v 31
    if bitOf (ladderCfg s) 31 then
      let s := if v % 2 ^ 31 = ladderCfg s % 2 ^ 31 then s else refuse s pgLoop
      if on then s else wrf s a 31 31 0
    else
      let s := wr s a (v % 2 ^ 31)
      if on = false then s
      else if ladderCheck s ≠ 0 then wr (refuse s pgLoop) (loopA 0x74) (ladderCheck s)
      else wrf s a 31 31 1))

end Sys2Proof.Machine
end

