-- ==== Sys2Proof/Machine/Pair.lean ====
section
/-! DEFINITION. The redundant pair (12): pair messages and their order, HELLO, heartbeats, roles, takeover and switch-over
commands, health reports and the state digest (R340 to R352, R363 to R379). -/

namespace Sys2Proof.Machine

open Sys2Proof

/-! ### Becoming active and losing the partner (R346, R347, R364 to R368) -/

/-- A unit becomes active: a new epoch above every one seen, and ACTIVE_ALONE (R346, R347). It takes the service
addresses (R85), its step generators resume (R371), and its outputs are driven again. -/
def becomeActive (s : State) : State :=
  let e := max (epoch s) (max (peerEpoch s) (rd s (pairA 0x54))) + 1
  if 0xFFFFFF < e then pairRecord s 0x0A0A 3
  else
    let s := clearRuns (wr (wr s (pairA 0x4C) e) (pairA 0x54) e)
    let s := setPair s { s.pair with joinStep := 0, verified := false, switchPending := false, soloWait := false,
                                     safe := false, mustWait := false, digest := none }
    let s := checkCamera (setRole { s with host := { s.host with arpLeft := 3 } } 3)
    resumeAxes (slowSync s)

/-- In its first tick as active a unit that has taken over sets the flag of target 4 when it has an eligible host source,
and delivers it (R415). -/
def signalHost (s : State) : State :=
  if bestSource s 4 = 0 then s else setFlag (setEvc s { s.evc with flags := s.evc.flags % 16 }) 4

/-- Every UDP session is continued from the service address (R86). -/
def serveFromService (s : State) : State :=
  { s with host := { s.host with
      sessions := s.host.sessions.map (fun x => if x.1 = 0 then x else (x.1, { x.2 with service := true })) } }

/-- Takeover by a standby (R366): completions that are Done and not retired are sent again. -/
def takeover (s : State) : State :=
  let s := becomeActive s
  if s.pair.role ≠ 3 then s
  else
    let s := (List.range 17).foldl replaySession (serveFromService s)
    let s := signalHost s
    let s := count (ev (ev s pgPair 8) pgPair 9) pgPair 10
    pairRecord s 0x0A01 1

/-- The numbering of sequenced messages begins again. -/
def restartSeq (s : State) : State :=
  setPair s { s.pair with txSeq := 0, rxSeq := 0, unacked := [], sentOn := [], early := [], partial_ := none }

/-- The partner has stopped: a standby takes over, and an active unit waits for SOLO_WAIT (R365, R366, R368). -/
def partnerStopped (s : State) : State :=
  if s.pair.role = 5 then takeover s
  else if s.pair.role = 2 then ev (setPair s { s.pair with soloWait := true }) pgPair 9
  else s

/-- A heartbeat timer runs: a partner in pair mode has been accepted. -/
def paired (s : State) : Bool := pairMode s && s.pair.peerSeen && rd s (pairA 0x94) == 0

/-- HB_TIMEOUT (R346, R364 to R366, R368): no HB on any pair lane for HB_MISS periods. -/
def execHbTimeout (s : State) : Host.Outcome State Fault Refusal :=
  .next <|
    if paired s = false ∨ s.pair.hbLost = true then s
    else
      let s := setPair s { s.pair with hbLost := true, peerRole := 15 }
      if s.pair.role = 4 ∧ s.pair.joinStep ≠ 0 then
        let s := clearRuns s
        pairRecord (ev (setPair s { s.pair with joinStep := 0 }) pgPair 16) 0x0A07 2
      else if s.pair.role = 3 then ev (endCopy s) pgPair 9
      else partnerStopped s

/-- PAIR_FAULT's effect (R365). -/
def onFault (s : State) : State := partnerStopped s

/-- SOLO_WAIT (R346, R368): the active goes on alone and releases the acknowledgements. -/
def execSoloWait (s : State) : Host.Outcome State Fault Refusal :=
  .next (if s.pair.role == 2 && s.pair.soloWait then
      let s := clearRuns s
      let s := setPair s { s.pair with soloWait := false, verified := false, switchPending := false, unacked := [], sentOn := [] }
      pairRecord (releaseHeld (checkCamera (setRole s 3)) (fun _ => true)) 0x0A01 1
    else s)

/-- FORM_TIMEOUT (R342, R346). -/
def execFormTimeout (s : State) : Host.Outcome State Fault Refusal :=
  .next (if s.pair.role == 1 then
      let s := if s.pair.peerSeen then s else pairRecord s 0x0A03 1
      if rdb s (pairA 0x40) 2 && !(s.pair.sameUnit && pairLink s) then becomeActive s else s
    else s)

/-- SAFE_OUTPUT (R372): IO_HOLD has passed since a non-active unit lost the active's heartbeat. -/
def execSafeOutput (s : State) : Host.Outcome State Fault Refusal :=
  .next (if paired s && s.pair.hbLost && !isActive s then slowSync (setPair s { s.pair with safe := true }) else s)

/-! ### HELLO and heartbeats (R342, R344, R346, R376) -/

/-- PEER_EPOCH follows a higher epoch (R344). -/
def seeEpoch (s : State) (e : Nat) : State := if peerEpoch s < e then wr s (pairA 0x50) e else s

/-- The reason for which a HELLO is refused, 0 when none (R342). -/
def helloReason (s : State) (b : List Byte) : Nat :=
  if bitOf (bytesAt b 2 1) 0 = unitA s then 1
  else if bytesAt b 1 1 ≠ 1 then 2
  else if bytesAt b 0x10 4 ≠ drgSize s then 3
  else if bytesAt b 0x14 4 ≠ Config.configCrc % 2 ^ 32 then 4
  else if pairMode s = false ∨ bytesAt b 3 1 = 0 then 5
  else 0

/-- A DEMOTED unit rejoins an active partner, and a JOINING one starts its join (R346). -/
def rejoin (s : State) : State :=
  if s.pair.role = 6 ∧ s.sys.stopped = false ∧ rdb s (pairA 0x40) 3 = true ∧ peerActive s = true ∧ pairLink s = true then
    enterJoining s
  else startJoin s

/-- Both units report themselves active: the one with the smaller claim demotes itself (R376). -/
def bothActive (s : State) (claim : Nat) : State :=
  if isActive s && peerActive s && decide (claimWord s < claim) then demote s else s

/-- Role changes that a HELLO of an accepted partner brings (R346). -/
def helloRoles (s : State) (keep peerEp : Nat) : State :=
  let own := rd s (pairA 0x54)
  let p := s.pair.peerRole
  if s.pair.role = 1 then
    (if p = 2 ∨ p = 3 then enterJoining s
     else if p = 1 then
       (if keep < own ∨ (keep = own ∧ unitA s = true) then becomeActive s else enterJoining s)
     else s)
  else if s.pair.role = 3 ∧ p = 5 then
    let s := clearRuns s
    setRole (setPair s { s.pair with joinStep := 0, verified := false }) 2
  else if s.pair.role = 2 ∧ p = 4 then
    let s := endCopy s
    setRole (setPair s { s.pair with verified := false, switchPending := false, soloWait := false }) 3
  else rejoin (bothActive s (peerEp * 256 + 0x80 + b2n (!unitA s)))

/-- A HELLO message (R342, R344, R346). -/
def onHello (s : State) (b : List Byte) : State :=
  let s := wr s (pairA 0x98) (bytesAt b 0xC 2 * 65536 + bytesAt b 1 1 * 256 + bytesAt b 0 1)
  let s := setPair s { s.pair with peerRole := bytesAt b 3 1 % 16, peerSeen := true }
  let s := seeEpoch s (bytesAt b 4 3)
  let reason := helloReason s b
  let s := setPair (wr s (pairA 0x94) reason) { s.pair with sameUnit := reason == 1 }
  if reason ≠ 0 then pairRecord s 0x0A02 1
  else
    let s := setPair s { s.pair with hbLost := false, minor := min 3 (bytesAt b 0 1) }
    helloRoles s (bytesAt b 8 3) (bytesAt b 4 3)

/-- The flags of an HB or of a HEALTH report that follow from the state. -/
def hbBody (s : State) (n : Nat) : List Byte :=
  leBytes 1 s.pair.role ++ leBytes 1 (b2n s.pair.verified + 2 * b2n s.pair.soloWait) ++ leBytes 2 0 ++
    leBytes 4 (claimWord s) ++ leBytes 6 (if printing s (refBar s) then buildLine s (refBar s) else ones48) ++
    leBytes 2 0 ++ leBytes 4 n

/-- HB_SEND (R344): an HB on every pair lane that is up. -/
def execHbSend (s : State) : Host.Outcome State Fault Refusal :=
  .next (if pairMode s then
      let n := (s.pair.hbCount + 1) % 2 ^ 32
      let body := hbBody s n
      (pairLanes s).foldl (fun s l => pairPut s l 0x02 0 0 body)
        (setPair s { s.pair with hbCount := n })
    else s)

/-- A heartbeat (R344 to R346, R365, R376). One of a FORMING partner does not end a loss: its HELLO does. -/
def onHb (s : State) (b : List Byte) : State :=
  let claim := bytesAt b 4 4
  let role := bytesAt b 0 1 % 16
  if paired s = false then s
  else
    let s := seeEpoch s (claim / 256)
    let s := setPair s { s.pair with peerRole := role, peerBuild := bytesAt b 8 6,
                                     hbLost := s.pair.hbLost && role == 1,
                                     soloWait := s.pair.soloWait && role == 1,
                                     safe := s.pair.safe && !(role == 2 || role == 3) }
    let s := if s.pair.role = 5 ∧ peerActive s = true then wr s (pairA 0x4C) (claim / 256) else s
    let s := if s.pair.role = 2 ∧ role = 5 then
        setPair s { s.pair with verified := bitOf (bytesAt b 1 1) 0 } else s
    slowSync (rejoin (bothActive s claim))

/-! ### Inputs that arrive (R79, R348 to R350) -/

/-- The standby writes a forwarded command into its journal; it runs at its apply-line (R79, R348). -/
def peerJournal (s : State) (p : List Byte) : State :=
  let n := bytesAt p 0 4
  let entry := (p.drop 8).take 64
  match freeEntry s with
  | none => s
  | some slot =>
    let e : JEntry :=
      { stamp := s.host.nextStamp, session := n, seq := bytesAt p 4 4, ring := if n = 0 then 0 else 0xFF,
        entry := entry, data := p.drop 72, state := 0, progress := 0, status := 0, result0 := 0, result1 := 0,
        result := [], imageLine := 0, ptNs := 0, ptSec := 0, webPos := 0, replayed := false, peer := n == 0,
        written := false, withheld := false, late := false, ready := false, pairSeq := 0, wpos := none,
        waiting := false }
    let s := setEntry { s with host := { s.host with nextStamp := s.host.nextStamp + 1 } } slot e
    let known := if n = 0 then opcodes.contains (eOpcode entry) else opcodeKnown (getSession s n) 0xFF (eOpcode entry)
    if known then s else finishStatus s slot stBadOpcode

/-- The line that a proposal names: the commit line of camera results (R306), or that of a snapshot (R56). -/
def proposedLine (kind : Nat) (p : List Byte) : Option Nat :=
  if kind = 3 then some (bytesAt p 6 6)
  else if kind = 4 then some (bytesAt p 0 6)
  else if kind = 8 ∧ bitOf (bytesAt p 0 1) 0 = true then some (bytesAt p 1 6)
  else none

/-- A whole INPUT message: a proposal becomes the active's own input, and any other is held for its apply-line. -/
def onInput (s : State) (b : List Byte) : State :=
  let kind := bytesAt b 0 1
  let bar := bytesAt b 0xA 1 % 8
  let p := b.drop 12
  if bitOf (bytesAt b 1 1) 1 then
    (if isActive s = false ∨ measuredHere s kind p = true then s
     else takeInput s kind bar (proposedLine kind p) p)
  else if s.pair.role = 5 ∨ (s.pair.role = 4 ∧ 2 ≤ s.pair.joinStep) then
    let s := if kind = 1 ∧ (bytesAt p 0 4 ≠ 0 ∨ bytesAt p 4 4 ≠ 0) then peerJournal s p else s
    setPair s { s.pair with inputs := s.pair.inputs ++
      [{ kind := kind, late := bitOf (bytesAt b 1 1) 0, apply := bytesAt b 4 6, bar := bar, payload := p, seq := 0,
         own := false }] }
  else s

/-- An input is due at this unit. At a joining unit inputs wait for the end of step 2; those of lines before L apply at
once, which before L is known are those of lines that the active has reached (R349, R350, R356). -/
def dueHere (s : State) (i : PairInput) : Bool :=
  if s.pair.role = 4 then
    decide (3 ≤ s.pair.joinStep) && (i.apply == ones48 ||
      (match s.pair.catchup with
       | none => s.pair.peerBuild == ones48 || decide (i.apply ≤ s.pair.peerBuild)
       | some l => before (retPass s i.bar) i.apply l || lineReached s i.bar i.apply))
  else inputDue s i

/-! ### Health (R378, R379) -/

/-- The state digest: CRC-32C over the committed registers of the BAR, PLC, LINE, WAVE, FIRN and THAW pages, and over
the words of the table windows (R378). -/
def stateDigest (s : State) : Nat :=
  let pages := (List.range 8).flatMap (fun b => [pgBar b, pgPlc b]) ++ [pgLine, pgWave, pgFirn, pgThaw]
  let regs := pages.flatMap (fun p => (List.range 1024).flatMap (fun i =>
    match regSpec (ra p (4 * i)) with
    | some r => if r.sh then leBytes 4 (cm s (ra p (4 * i))) else []
    | none => []))
  let tables := (s.regs.filter (fun e => decide (0x400000 ≤ e.1))).flatMap (fun e => leBytes 4 e.1 ++ leBytes 4 e.2.toNat)
  crc32c (regs ++ tables)

/-- CHECK_INPUT (R378): the active forwards a CHECK, with its digest of the last one. -/
def execCheckInput (s : State) : Host.Outcome State Fault Refusal :=
  .next (if isActive s && partnered s then
      takeInput s 10 (refBar s) none
        (leBytes 1 (b2n s.pair.digest.isSome) ++ leBytes 4 (s.pair.digest.getD 0))
    else s)

/-- A CHECK is applied: the standby compares its digest of the last CHECK with the active's (R378). -/
def applyCheck (s : State) (own : Bool) (p : List Byte) : State :=
  let bad := !own && bytesAt p 0 1 == 1 && s.pair.digest.isSome && s.pair.digest != some (bytesAt p 1 4)
  setPair s { s.pair with digest := some (stateDigest s), digestErr := s.pair.digestErr || bad }

/-- Both units hold a report in HEALTH0 to HEALTH11 and raise HEALTH (R379). -/
def holdHealth (s : State) (b : List Byte) : State :=
  let s := (List.range 12).foldl (fun s i => wr s (pairA (0xA0 + 4 * i)) (bytesAt b (4 * i) 4)) s
  count (ev s pgPair 15) pgPair 12

/-- The health report (R379). -/
def healthBody (s : State) (laneErr : Bool) (mib : Nat) : List Byte :=
  let flags := b2n (s.pair.role == 5) + 2 * b2n s.pair.verified + 4 * b2n (s.pair.scrubErrs != 0) + 8 * b2n laneErr +
    16 * b2n s.pair.digestErr + 32 * b2n s.pair.diverged + 64 * b2n s.clk.pairBeyond + 128 * b2n (s.power.level != 0) +
    256 * b2n (s.power.stop != 0) + 512 * b2n (rdf s (pairA 0x98) 7 0 != 3)
  leBytes 1 1 ++ leBytes 1 s.pair.role ++ leBytes 2 flags ++ leBytes 4 (s.pair.healthNo + 1) ++ leBytes 4 s.clk.ns ++
    leBytes 4 s.clk.sec ++ leBytes 8 (if printing s (refBar s) then buildLine s (refBar s) else ones48) ++
    leBytes 4 mib ++ leBytes 2 s.pair.scrubErrs ++ leBytes 2 (twos 16 s.power.tmax) ++
    leBytes 8 (((List.range 48).filter (laneActive s)).map (fun l => 2 ^ l)).sum ++ leBytes 4 s.pair.excused ++
    leBytes 4 (twos 32 (s.clk.pairOffset / 256))

/-- HEALTH_SEND (R378, R379): a standby's report. `laneErr` tells that a lane on which the active is ACTIVE is not, or is
below FOM_MIN. A digest or scrub error marks the standby unhealthy. -/
def execHealthSend (laneErr : Bool) (scrubbedMiB : Nat) (s : State) : Host.Outcome State Fault Refusal :=
  .next (if s.pair.role == 5 then
      let body := healthBody s laneErr scrubbedMiB
      let sick := s.pair.digestErr || s.pair.scrubErrs != 0
      let s := holdHealth (pairSendSeq s 0x28 0 body) body
      let s := setPair s { s.pair with healthNo := s.pair.healthNo + 1, scrubErrs := 0, excused := 0, diverged := false,
                                       digestErr := false }
      if sick then enterJoining (pairRecord s 0x0A08 1) else s
    else s)

/-! ### Receiving pair messages (R343) -/

/-- The message types of the table of R343. -/
def pairTypes : List Nat := [0x01, 0x02, 0x03, 0x10, 0x11, 0x20, 0x21, 0x22, 0x28, 0x30, 0x31, 0x32]

/-- A message that is not discarded: known TYPE, LEN within 2,304 and as long as it says, and a good CRC (R343, R249). -/
def pairSound (m : List Byte) : Bool :=
  decide (bytesAt m 2 2 ≤ 2304) && m.length == 16 + bytesAt m 2 2 && pairTypes.contains (bytesAt m 0 1) &&
    bytesAt m (12 + bytesAt m 2 2) 4 == crc32c (m.take (12 + bytesAt m 2 2))

def pairBody (m : List Byte) : List Byte := (m.drop 12).take (bytesAt m 2 2)

/-- Length of the whole body of an INPUT or TILE_DATA that may go on in further messages. -/
def wholeLength (type : Nat) (b : List Byte) : Nat :=
  if type = 0x10 then 12 + bytesAt b 2 2 else 24 + bytesAt b 0x10 4 + 64

/-- What a message of a type does, once it is whole and its turn has come. -/
def deliverPair (s : State) (type : Nat) (b : List Byte) : State :=
  if type = 0x01 then onHello s b
  else if type = 0x10 ∨ type = 0x32 then
    let whole := match s.pair.partial_ with
      | some (t, first) => if t = type then first ++ b else b
      | none => b
    if whole.length < wholeLength type whole then setPair s { s.pair with partial_ := some (type, whole) }
    else
      let s := setPair s { s.pair with partial_ := none }
      if type = 0x10 then onInput s whole else onTileData s whole
  else if type = 0x11 then onCrc s b
  else if type = 0x20 then onCopy s b
  else if type = 0x21 then onCopyCtrl s b
  else if type = 0x22 then onPosition s b
  else if type = 0x28 then holdHealth s b
  else if type = 0x30 then onFault s
  else if type = 0x31 then onTileReq s b
  else s

/-- Delivers messages held ahead of their turn, now that it has come. -/
def deliverEarly : Nat → State → State
  | 0, s => s
  | k + 1, s =>
    match s.pair.early.find? (fun e => e.1 == nextSeq s.pair.rxSeq) with
    | none => s
    | some e =>
      let s := setPair s { s.pair with rxSeq := e.1, early := s.pair.early.filter (fun x => x.1 != e.1) }
      deliverEarly k (deliverPair s e.2.1 e.2.2.2)

/-- The partner has acknowledged up to a SEQ: its messages are dropped, and commands it now holds are acknowledged to
host software (R79, R343). Step 2 of a join ends when all is acknowledged. -/
def takeAck (s : State) (ack : Nat) : State :=
  let got := s.pair.unacked.filter (fun u => seqLe u.1 ack)
  if got.isEmpty then s
  else
    let s := setPair s { s.pair with unacked := s.pair.unacked.filter (fun u => !seqLe u.1 ack),
                                     sentOn := s.pair.sentOn.filter (fun u => !seqLe u.1 ack) }
    let s := releaseHeld s (fun e => e.pairSeq != 0 && got.any (fun u => u.1 == e.pairSeq))
    if s.pair.role = 3 ∧ s.pair.joinStep = 2 ∧ s.pair.unacked.isEmpty = true then sendRegions s else s

/-- A partner that was lost begins again at SEQ 1 with its HELLO: so does this unit. -/
def partnerRestart (s : State) (type seq : Nat) : State :=
  if type = 1 ∧ seq = 1 ∧ s.pair.hbLost = true ∧ s.pair.rxSeq ≠ 0 then pairSendSeq (restartSeq s) 0x01 0 (helloBody s)
  else s

/-- A sequenced message in, ahead of or behind its turn (R343). -/
def inOrder (s : State) (type flags seq : Nat) (b : List Byte) : State :=
  if seq = nextSeq s.pair.rxSeq then
    let s := deliverPair (setPair s { s.pair with rxSeq := seq }) type b
    deliverEarly s.pair.early.length s
  else if seqLe seq s.pair.rxSeq || s.pair.early.any (fun e => e.1 == seq) then s
  else setPair s { s.pair with early := s.pair.early ++ [(seq, type, flags, b)] }

/-- A pair message of type `t` is received (R343): discarded, delivered at once, or in SEQ order. -/
def pairReceive (s : State) (m : PairRx) (t : Nat) : State :=
  let l := 48 + m.lane % 4
  if laneActive s l = false then s
  else if pairSound m.bytes = false then count s (pgPrl (l - 48)) 2
  else if bytesAt m.bytes 0 1 ≠ t then s
  else
    let s := count (count s (pgPrl (l - 48)) 1) pgPair 1
    let seq := bytesAt m.bytes 4 4
    let b := pairBody m.bytes
    let s := partnerRestart s t seq
    let s := takeAck s (bytesAt m.bytes 8 4)
    if t = 2 then onHb s b
    else if t = 3 then pairTime s l b
    else inOrder s t (bytesAt m.bytes 1 1) seq b

/-- PAIR_HELLO (R342 to R344, R346, R347, R376). -/
def execPairHello (m : PairRx) (s : State) : Host.Outcome State Fault Refusal := .next (pairReceive s m 0x01)

/-- HB (R344 to R346, R376). -/
def execHb (m : PairRx) (s : State) : Host.Outcome State Fault Refusal := .next (pairReceive s m 0x02)

/-- TIME_MESSAGE (R337). -/
def execTimeMessage (m : PairRx) (s : State) : Host.Outcome State Fault Refusal := .next (pairReceive s m 0x03)

/-- INPUT (R79, R343, R348, R350). -/
def execInput (m : PairRx) (s : State) : Host.Outcome State Fault Refusal := .next (pairReceive s m 0x10)

/-- CRC_MESSAGE (R353, R354, R361, R362). -/
def execCrcMessage (m : PairRx) (s : State) : Host.Outcome State Fault Refusal := .next (pairReceive s m 0x11)

/-- COPY (R343, R356, R357). -/
def execCopy (m : PairRx) (s : State) : Host.Outcome State Fault Refusal := .next (pairReceive s m 0x20)

/-- COPY_CTRL (R356 to R358). -/
def execCopyCtrl (m : PairRx) (s : State) : Host.Outcome State Fault Refusal := .next (pairReceive s m 0x21)

/-- POSITION (R359, R360, R362). -/
def execPosition (m : PairRx) (s : State) : Host.Outcome State Fault Refusal := .next (pairReceive s m 0x22)

/-- HEALTH (R379). -/
def execHealth (m : PairRx) (s : State) : Host.Outcome State Fault Refusal := .next (pairReceive s m 0x28)

/-- PAIR_FAULT (R365, R366). -/
def execPairFault (m : PairRx) (s : State) : Host.Outcome State Fault Refusal := .next (pairReceive s m 0x30)

/-- TILE_REQ (R114). -/
def execTileReq (m : PairRx) (s : State) : Host.Outcome State Fault Refusal := .next (pairReceive s m 0x31)

/-- TILE_DATA (R113, R114, R116). -/
def execTileData (m : PairRx) (s : State) : Host.Outcome State Fault Refusal := .next (pairReceive s m 0x32)

/-- The lane of a retransmission: the next one up after the lane that carried the message last (R343). -/
def retryLane (s : State) (seq : Nat) : Option Nat :=
  let last := tget (fun _ => 0) s.pair.sentOn seq
  match (pairLanes s).find? (fun l => decide (last < l)) with
  | some l => some l
  | none => (pairLanes s).head?

/-- RETRY (R343): a message that is not acknowledged within RETRY is sent again on another lane, until the heartbeat is
lost. -/
def execRetry (seq : Nat) (s : State) : Host.Outcome State Fault Refusal :=
  .next <| match s.pair.unacked.find? (fun u => u.1 == seq), retryLane s seq with
    | some u, some l =>
      if s.pair.hbLost then s
      else
        let s := setPair s { s.pair with sentOn := tset s.pair.sentOn seq l }
        count (pairPut s l u.2.1 u.2.2.1 u.1 u.2.2.2) pgPair 2
    | _, _ => s

/-- COPY_TIMEOUT (R363): step 2 or 3 of the join has not ended in time. -/
def execCopyTimeout (s : State) : Host.Outcome State Fault Refusal :=
  .next (if s.pair.role == 4 && (s.pair.joinStep == 2 || s.pair.joinStep == 3) then joinFail s else s)

/-! ### Commands of PAIR.CMD (R346, R364, R373) -/

/-- SWITCH (R373): on the active. -/
def execSwitch (_rq : Requester) (s : State) : Host.Outcome State Fault Refusal :=
  .next (gated s (pairA 0x48) 1 requestSwitch)

/-- What CMD.SOLO discards at a joining unit: the copied state; pages and tables return to the boot configuration, the
journal is lost (R364, R83). -/
def soloReset (s : State) : State :=
  let s := clearRuns (stopBars (clearCopied s) (List.range 8))
  let s := { s with host := { s.host with sessions := [], journal := [] } }
  let s := setPair s { s.pair with joinStep := 0, inputs := [] }
  let s := wr s (ra pgJrn 0x44) (rd s (ra pgJrn 0x44) + 1)
  fault s 0x0202 1 pgJrn noBar [rd s (ra pgJrn 0x44)]

/-- SOLO (R342, R346, R364): from FORMING or JOINING. -/
def execSolo (_rq : Requester) (s : State) : Host.Outcome State Fault Refusal :=
  .next (gated s (pairA 0x48) 2 (fun s =>
    if s.pair.role = 1 ∧ (s.pair.sameUnit && pairLink s) = false then becomeActive s
    else if s.pair.role = 4 then becomeActive (soloReset s)
    else refuse s pgPair))

/-- JOIN (R346): a DEMOTED or waiting JOINING unit starts a join. -/
def execJoin (_rq : Requester) (s : State) : Host.Outcome State Fault Refusal :=
  .next (gated s (pairA 0x48) 4 (fun s =>
    if s.pair.role = 4 ∧ s.pair.joinStep = 0 then startJoin (setPair s { s.pair with mustWait := false })
    else if s.pair.role = 6 ∧ s.sys.stopped = false ∧ peerActive s = true ∧ pairLink s = true then
      enterJoining (setPair s { s.pair with mustWait := false })
    else refuse s pgPair))

/-- LEAVE (R346): a standby leaves and waits in JOINING for CMD.JOIN. -/
def execLeave (_rq : Requester) (s : State) : Host.Outcome State Fault Refusal :=
  .next (gated s (pairA 0x48) 8 (fun s =>
    if s.pair.role = 5 then enterJoining (setPair s { s.pair with mustWait := true }) else refuse s pgPair))

/-- A SWITCH is applied: both units change role in one press-time tick, at the next epoch (R373, R374). -/
def applySwitch (s : State) : State :=
  let e := epoch s + 1
  let s := setPair s { s.pair with switchPending := false }
  if s.pair.role ≠ 2 ∧ s.pair.role ≠ 5 then s
  else if 0xFFFFFF < e then (if s.pair.role = 5 then pairRecord s 0x0A0A 3 else s)
  else
    let toActive := s.pair.role == 5
    let s := wr (wr s (pairA 0x4C) e) (pairA 0x54) e
    let s := count (ev (clearRuns s) pgPair 14) pgPair 11
    let s := setPair s { s.pair with digest := none }
    if toActive then
      resumeAxes (slowSync (setRole { s with host := { s.host with arpLeft := 3 } } 2))
    else setRole s 5

end Sys2Proof.Machine
end

