-- ==== Sys2Proof/Machine/Events.lean ====
section
/-! DEFINITION. The event controller's commands (14): GPIO edges, the set and clear arrays, claim and complete, source
configuration, repeated EVENT messages, and the MSI-X table (R403 to R416, R61). -/

namespace Sys2Proof.Machine

open Sys2Proof

/-- An address of the event controller's header page. -/
def evcA (o : Nat) : Nat := ra pgEvc o

/-- Bit n of x set or cleared. -/
def withBit (x n : Nat) (v : Bool) : Nat := if v then x ||| 2 ^ n else x - (x &&& 2 ^ n)

/-- SRCCFG.LOCK: a requester other than a control core cannot change the source (R416). -/
def lockedFor (s : State) (rq : Requester) (src : Nat) : Bool := !isCore rq && rdb s (srccfgAddr src) 31

/-- GPIO_EDGE (R403 to R405): a new level of a pin has been accepted. A pin that is no input feeds no source. -/
def execGpioEdge (pin : Nat) (level : Bool) (s : State) : Host.Outcome State Fault Refusal :=
  let n := pin % 32
  let src := 0x20 + n
  let was := bitOf s.evc.gpio n
  let s := setEvc s { s.evc with gpio := withBit s.evc.gpio n level }
  .next (if gpioInput s n && was != level then
      let k := senseOf s src
      if k < 2 then notify s src
      else if k = 4 ∨ (k = 2 ∧ level = true) ∨ (k = 3 ∧ level = false) then edgeEvent s src
      else s
    else s)

/-- The sources of a word of an array whose bit in a written value is 1 and that the requester may change. -/
def writtenSources (s : State) (rq : Requester) (word : Nat) (val : Word) : List Nat :=
  ((List.range 32).filter (fun i => val.getLsbD i && sourceExists (32 * (word % 16) + i) &&
    !lockedFor s rq (32 * (word % 16) + i))).map (fun i => 32 * (word % 16) + i)

/-- Some bit of the write is for a source locked to the requester. -/
def writesLocked (s : State) (rq : Requester) (word : Nat) (val : Word) : Bool :=
  (List.range 32).any (fun i => val.getLsbD i && sourceExists (32 * (word % 16) + i) &&
    lockedFor s rq (32 * (word % 16) + i))

/-- A write of one of the arrays at offset `base`: each bit takes effect on its own source, bits for locked sources are
refused (R406, R416). -/
def arrayWrite (s : State) (base : Nat) (rq : Requester) (word : Nat) (val : Word) (act : State → Nat → State) : State :=
  gated s (evcA (base + 4 * (word % 16))) val.toNat (fun s =>
    let s' := if writesLocked s rq word val then refuse s pgEvc else s
    (writtenSources s rq word val).foldl act s')

/-- PEND_SET (R406). -/
def execPendSet (rq : Requester) (word : Nat) (val : Word) (s : State) : Host.Outcome State Fault Refusal :=
  .next (arrayWrite s 0xC0 rq word val (fun s src =>
    if levelSource s src then s else notify (setEvc s { s.evc with pend := withBit s.evc.pend src true }) src))

/-- PEND_CLR (R406). -/
def execPendClr (rq : Requester) (word : Nat) (val : Word) (s : State) : Host.Outcome State Fault Refusal :=
  .next (arrayWrite s 0x100 rq word val (fun s src =>
    if levelSource s src then s else setEvc s { s.evc with pend := withBit s.evc.pend src false }))

/-- EN_SET (R406). -/
def execEnSet (rq : Requester) (word : Nat) (val : Word) (s : State) : Host.Outcome State Fault Refusal :=
  .next (arrayWrite s 0x180 rq word val (fun s src =>
    notify (setEvc s { s.evc with en := withBit s.evc.en src true }) src))

/-- EN_CLR (R406): P and A stay. -/
def execEnClr (rq : Requester) (word : Nat) (val : Word) (s : State) : Host.Outcome State Fault Refusal :=
  .next (arrayWrite s 0x1C0 rq word val (fun s src => setEvc s { s.evc with en := withBit s.evc.en src false }))

/-- Sets the flag of a target again when it still has an eligible source (R411, R412). -/
def presentAgain (s : State) (t : Nat) : State := if bestSource s t = 0 then s else setFlag s t

/-- What a claim read does: the answer, and the state after it (R408, R411); without the block's clock it reads zero
(R33). -/
def claimRead (s : State) (rq : Requester) (t : Nat) : Nat × State :=
  if 5 ≤ t ∨ serves rq t = false ∨ pgClkOn s pgEvc = false then (0, s)
  else
    let src := bestSource s t
    let s := hostPin s (setEvc s { s.evc with flags := withBit s.evc.flags t false })
    if src = 0 then (0, count s pgEvc (4 * t + 1))
    else
      let s := setEvc s { s.evc with active := withBit s.evc.active src true, pend := withBit s.evc.pend src false }
      (src, presentAgain (count s pgEvc (4 * t)) t)

/-- CLAIM (R408, R411): a read of TGTt.CLAIM. -/
def execClaim (rq : Requester) (target : Nat) (s : State) : Host.Outcome State Fault Refusal :=
  let r := claimRead s rq target
  .next (answerRead r.2 (rqKey rq) r.1)

/-- COMPLETE (R409): a write of TGTt.COMPLETE. -/
def execComplete (rq : Requester) (target source : Nat) (s : State) : Host.Outcome State Fault Refusal :=
  let src := source % 512
  .next (if 5 ≤ target then s
    else gated s (ra (pgEvc + 3) (0x44 + 0x10 * target)) src (fun s =>
      if serves rq target && targetOf s src == target && bitOf s.evc.active src then
        let s := setEvc s { s.evc with active := withBit s.evc.active src false }
        presentAgain (count s pgEvc (4 * target + 2)) target
      else ev (count s pgEvc (4 * target + 3)) pgEvc 8))

/-- EVMSG_REPEAT (R414): the flag of target 4 has stayed set without a claim. -/
def execEvmsgRepeat (s : State) : Host.Outcome State Fault Refusal :=
  .next (if flagOf s 4 && rdb s (evcA 0x244) 10 then sendEvents s else s)

/-- The SRCCFG word of a source after a write of v: SENSE of software and page sources is fixed (R403). -/
def srccfgNext (s : State) (src v : Nat) : Nat :=
  let sense := if 0x20 ≤ src ∧ src < 0x40 then field v 2 0 else rdf s (srccfgAddr src) 2 0
  rd s (srccfgAddr src) / 2 ^ 31 * 2 ^ 31 + field v 10 8 * 256 + field v 7 4 * 16 + sense

/-- A write of SRCCFG is refused (R416). -/
def srccfgRefused (s : State) (rq : Requester) (src v : Nat) : Bool :=
  lockedFor s rq src || decide (4 < field v 10 8) || (decide (4 < field v 2 0) && decide (0x20 ≤ src) && decide (src < 0x40)) ||
    (bitOf s.evc.en src && field (srccfgNext s src v) 2 0 != senseOf s src) ||
    (bitOf s.evc.active src && field v 10 8 != targetOf s src)

/-- A write of SRCCFG of a source (R416); the words of reserved sources read zero. -/
def srccfgSet (s : State) (rq : Requester) (source v : Nat) : State :=
  let src := source % 512
  if sourceExists src = false then s
  else if pgClkOn s pgEvc = false then ev s pgEvc 6
  else if srccfgRefused s rq src v then refuse s pgEvc
  else notify (wr s (srccfgAddr src) (srccfgNext s src v)) src

/-- SRCCFG_WRITE (R416). -/
def execSrccfgWrite (rq : Requester) (source : Nat) (val : Word) (s : State) : Host.Outcome State Fault Refusal :=
  .next (srccfgSet s rq source val.toNat)

/-- MSIX_TABLE_WRITE (R61, R413): a word of the MSI-X table; a held message is sent when its vector is unmasked. -/
def execMsixTableWrite (index : Nat) (val : Word) (s : State) : Host.Outcome State Fault Refusal :=
  let i := index % 256
  let v := i / 4
  let s := { s with host := { s.host with msixTable := tset s.host.msixTable i val } }
  .next (if (msixWord s (4 * v + 3)).getLsbD 0 = false ∧ s.host.msixPending.contains v = true then
      let s := send { s with host := { s.host with msixPending := s.host.msixPending.filter (fun x => x != v) } } (.msix v)
      if s.evc.msixHeld && v == rdf s (evcA 0x244) 5 0 then count (setEvc s { s.evc with msixHeld := false }) pgEvc 22 else s
    else s)

end Sys2Proof.Machine
end

