-- ==== Sys2Proof/Machine/Power.lean ====
section
/-! DEFINITION. Power states, wake and clocks (15): Doze and Deep, the wake sources, the always-on clock, block clocks and
the camera PLL (R417 to R428). -/

namespace Sys2Proof.Machine

open Sys2Proof

/-- An address of the CLK page. -/
def clkA (o : Nat) : Nat := ra pgClk o

def setPower (s : State) (p : Power) : State := { s with power := p }

/-- A request for Doze or Deep is refused (R420). -/
def powerRefused (s : State) (deep : Bool) : Bool :=
  anyPrinting s || !s.print.jobs.isEmpty ||
    (List.range 16).any (fun n => decide (2 ≤ axState s n) && decide (axState s n ≤ 5)) ||
    (pairMode s && (s.pair.role == 2 || s.pair.role == 3 || s.pair.role == 4 || s.pair.role == 5)) ||
    s.clk.stepBusy || freqBusy s || s.power.stop != 0 ||
    (deep && ((getSession s 0).state == 1 || s.host.journal.any (fun e => e.2.state != 2)))

/-- All sub-channels enter self-refresh (R143). -/
def selfRefresh (s : State) : State :=
  (List.range 8).foldl (fun s k => if subState s k = 2 then s else setSubState (dramCmd s k 4) k 2) s

/-- ACTIVE lanes to an HCB of version 2.1 or later are asked to enter electrical idle (R277, R421). -/
def idleLanes (s : State) : State :=
  (List.range 48).foldl (fun s l =>
    let ln := getLane s l
    if ln.state = 6 ∧ ln.kind = 1 ∧ ((decide (3 ≤ ln.verMajor) || (ln.verMajor == 2 && decide (1 ≤ ln.verMinor))) = true) then
      askIdle s l
    else s) s

/-- PSTATE_DOZE (R420, R421): a write of CLK.PSTATE.REQ = Doze. The panel's sink is powered down first (17). -/
def execPstateDoze (_rq : Requester) (s : State) : Host.Outcome State Fault Refusal :=
  .next (gated s (clkA 0x40) 2 (fun s =>
    if dozing s then s
    else if powerRefused s false then refuse s pgClk
    else
      let s := idleLanes (selfRefresh s)
      let s := { s with disp := { s.disp with state := if s.disp.state = 0 then 0 else 4 } }
      count (setPower s { s.power with pstate := 3, camPll := false }) pgClk 0))

/-- PSTATE_DEEP (R420, R423): a write of CLK.PSTATE.REQ = Deep. Every session is closed, and the resume record written. -/
def execPstateDeep (_rq : Requester) (s : State) : Host.Outcome State Fault Refusal :=
  .next (gated s (clkA 0x40) 3 (fun s =>
    if dozing s then s
    else if powerRefused s true then refuse s pgClk
    else
      let s := { s with host := { s.host with sessions := [], rx := [] } }
      let s := idleLanes (selfRefresh s)
      let edges := s.dram.subs.flatMap (fun d => d.2.edges.map (fun e => (16 * d.1 + e.1, e.2)))
      count (setPower s { s.power with pstate := 5, resume := true, resumeEdges := edges, camPll := false }) pgClk 2))

/-- A wake source is enabled and its condition met (R424): an edge of the polarity in WAKE_POL on a pin, the timer once it
has been set, a frame on a Host port in Doze and on ETH_PORT in Deep, and in Doze a signalled host event. -/
def wakeEnabled (s : State) (cause pin : Nat) : Bool :=
  let cfg := rd s (clkA 0x44)
  if cause = 1 then bitOf cfg (4 + pin % 4) && bitOf pin 2 == rdb s (clkA 0x48) (pin % 4)
  else if cause = 2 then bitOf cfg 1 && rd s (clkA 0x4C) != 0
  else if cause = 3 then
    bitOf cfg 3 && (if s.power.pstate = 5 ∨ s.power.waking = true then pin % 4 == field cfg 9 8 else ethRole s (pin % 4) == 1)
  else if cause = 4 then bitOf cfg 2
  else cause == 5 && bitOf cfg 0 && s.power.pstate != 5 && !s.power.waking && flagOf s 4

/-- WAKE (R424, R425): 1 wake pin, 2 timer, 3 Ethernet, 4 PCIe, 5 host event. `pin` is the pin or the Ethernet port, and 4
more for a falling edge of a pin. Further wake events are only counted. -/
def execWake (cause pin : Nat) (s : State) : Host.Outcome State Fault Refusal :=
  .next (if s.power.pstate == 4 then (if wakeEnabled s cause pin then count s pgClk 1 else s)
    else if (s.power.pstate == 3 || s.power.pstate == 5) && wakeEnabled s cause pin then
      let s := wr s (clkA 0x50) (cause + (if cause = 1 then 16 * (pin % 4) else 0))
      setPower s { s.power with pstate := 4, waking := s.power.pstate == 5 }
    else s)

/-- XTAL_FAIL (R418): the crystal misses an edge. -/
def execXtalFail (s : State) : Host.Outcome State Fault Refusal :=
  .next (if s.power.rc then s
    else fault (ev (setPower s { s.power with rc := true }) pgClk 10) 0x0C01 1 pgClk noBar [])

/-- XTAL_RESTORE (R418): 4,096 good cycles. -/
def execXtalRestore (s : State) : Host.Outcome State Fault Refusal :=
  .next (setPower s { s.power with rc := false })

/-- Pages that stay clocked in Doze (R422). -/
def dozePage (p : Nat) : Bool :=
  p == pgSys || p == pgClk || p == pgThm || p == pgMon || p == pgPin || p == pgEvc || p == pgPtc || p == pgPcie ||
    (decide (0x10 ≤ p) && decide (p < 0x14)) || (decide (0x70 ≤ p) && decide (p ≤ 0xA0)) ||
    (decide (0xA8 ≤ p) && decide (p < 0xAC))

/-- A CAM or ISP page has EN or CLKREQ set. -/
def cameraClock (s : State) : Bool :=
  [0xB0, 0xB1, 0xB2, 0xB3, 0xB4].any (fun p => rdf s (ra p 0x10) 2 0 &&& 5 != 0)

/-- The block's clock runs from now on; a camera page starts its PLL. -/
def clockOn (s : State) (p : Nat) : State :=
  let s := wrf s (ra p 0x14) 1 1 1
  if cameraPage p then setPower s { s.power with camPll := true } else s

/-- CLOCK_START (R33, R428): the start time has passed since EN or CLKREQ was set. -/
def execClockStart (page : Nat) (s : State) : Host.Outcome State Fault Refusal :=
  .next (if isHeader page && (rd s (ra page 0x10) &&& 5 != 0) && (!dozing s || dozePage page) then clockOn s page else s)

/-- CAMERA_PLL_STOP (R428): 1 ms after no CAM or ISP page has EN or CLKREQ set. -/
def execCameraPllStop (s : State) : Host.Outcome State Fault Refusal :=
  .next (if cameraClock s then s
    else setPower ([0xB0, 0xB1, 0xB2, 0xB3, 0xB4].foldl (fun s p => wrf s (ra p 0x14) 1 1 0) s)
      { s.power with camPll := false })

/-- CLK.PSTATE.STATE: Run while a bar prints, Ready otherwise, and the low-power states. -/
def pstateShown (s : State) : Nat :=
  if s.power.pstate ≤ 1 then (if anyPrinting s then 0 else 1) else if s.power.pstate = 5 then 3 else s.power.pstate

/-- CLK.PLL_STAT (R418): the PLLs that run, and RC. -/
def pllStat (s : State) : Nat :=
  let up := !s.power.tripped && s.power.pstate != 5
  b2n (up && !dozing s) + 2 * b2n up + 4 * b2n up + 8 * b2n (up && s.power.camPll) + 16 * b2n s.power.rc

end Sys2Proof.Machine
end

