-- ==== Sys2Proof/Machine/Flash.lean ====
section
/-! DEFINITION. The bytes of the boot flash, and how an operation on it ends (18: R488; R441). -/

namespace Sys2Proof.Machine

open Sys2Proof

def nvmA (o : Nat) : Nat := ra pgNvm o

/-- A page of 256 bytes of the flash. -/
def flashPage (s : State) (n : Nat) : List Byte :=
  tget (fun n => (List.range 256).map (fun i => Config.flashByte (256 * n + i))) s.sys.flash n

def setFlashPage (s : State) (n : Nat) (bs : List Byte) : State :=
  { s with sys := { s.sys with flash := tset s.sys.flash n bs } }

/-- `n` bytes of the flash from an address. -/
def flashRead (s : State) (a n : Nat) : List Byte :=
  (((List.range (n / 256 + 2)).flatMap (fun i => flashPage s (a / 256 + i))).drop (a % 256)).take n

/-- The 256 pages of the sector at a page number take the bytes that `f` gives. -/
def setSector (s : State) (page : Nat) (f : Nat → List Byte) : State :=
  (List.range 256).foldl (fun s i => setFlashPage s (page + i) (f i)) s

/-- An erased page. -/
def erasedPage : List Byte := List.replicate 256 0xFF#8

/-- The flash address of NVM.ADDR. -/
def nvmAddr (s : State) : Nat := rdf s (nvmA 0x44) 26 0

/-- Bytes that an operation touches: 1 READ, 2 PROGRAM, 3 ERASE. -/
def nvmSpan (op : Nat) : Nat := if op = 3 then 65536 else 256

/-- The end of an operation: DONE, or ERR with a reason; NVM_DONE. -/
def nvmEnd (s : State) (reason : Nat) : State :=
  let s := wr s (nvmA 0x4C) (if reason = 0 then 2 else 4 + 16 * reason)
  let s := { s with sys := { s.sys with flashOp := 0 } }
  ev (if reason = 0 then s else count s pgNvm 3) pgNvm 8

/-- What a failed or abandoned operation leaves in the flash is open: free bytes. -/
def spoil (s : State) (op : Nat) : State :=
  let (v, s) := drawFree s (8 * nvmSpan op)
  let page (i : Nat) : List Byte := leBytes 256 (v / 2 ^ (2048 * i))
  if op = 3 then setSector s (nvmAddr s / 256) page else setFlashPage s (nvmAddr s / 256) (page 0)

/-- An erase in progress at STOP is suspended and abandoned (R441). -/
def eraseAbandoned (s : State) : State := if s.sys.flashOp = 3 then nvmEnd (spoil s 3) 5 else s

/-- A reset cuts a program or erase short. DESIGN CHOICE (log 59): what it leaves in the page or sector is free. -/
def flashCut (s : State) : State := if s.sys.flashOp = 2 ∨ s.sys.flashOp = 3 then spoil s s.sys.flashOp else s

end Sys2Proof.Machine
end

