-- ==== Sys2Proof/Machine/Reset.lean ====
section
/-! DEFINITION. What a reset of the unit leaves (18): the always-on domain, image memory with the journal, the logs, and
the levels on the pins. Everything else returns to its reset value. -/

namespace Sys2Proof.Machine

open Sys2Proof

/-- Words that the always-on domain keeps (R417): straps, reset cause, EPOCH_KEEP, wake registers, BOOT_PREF and the
OSC codes (R451, R489). JRN.EPOCH is kept so that it can tell a lost journal (R83). -/
def alwaysOn (a : Nat) : Bool :=
  a == ra pgSys 0x4C || a == ra pgSys 0x50 || a == ra pgPair 0x54 || (decide (clkA 0x44 ≤ a) && decide (a ≤ clkA 0x50)) ||
    a == ra pgNvm 0x54 || a == ra pgTrim 0x168 || a == ra pgTrim 0x368 || a == ra pgJrn 0x44

/-- An axis after a reset: only the levels of its inputs are there. -/
def Axis.inputsOnly (x : Axis) : Axis := { limP := x.limP, limN := x.limN, homeIn := x.homeIn }

/-- A position channel after a reset: only the levels of its inputs are there. -/
def Channel.inputsOnly (c : Channel) : Channel := { levels := c.levels, lastLegal := c.lastLegal }

/-- A tile after a reset that keeps image memory: a thaw under way starts again. -/
def Tile.afterReset (t : Tile) : Tile := if t.state = 3 then { t with state := 2 } else t

/-- A job after a reset: it is no longer started. -/
def Job.afterReset (j : Job) : Job := { j with started := false, startSlot := none, held := false }

/-- The print state that image memory keeps: jobs and tiles. -/
def keptPrint (s : State) : Print := { jobs := s.print.jobs.map Job.afterReset, tiles := s.print.tiles.map Tile.afterReset }

/-- The unit with every domain but the always-on domain at its reset values (R474). With `keep`, image memory is in
self-refresh and its contents, the journal and the RAM log survive (R82, R143, R486). -/
def volatileReset (s : State) (keep : Bool) : State :=
  let s := flashCut s
  let s0 : State :=
    { regs := s.regs.filter (fun e => alwaysOn e.1)
      counters := s.counters.filter (fun e => e.1 == 128 * pgSys + 7)
      lastRead := s.lastRead
      print := if keep then keptPrint s else {}
      dram := if keep then { mem := s.dram.mem } else {}
      host :=
        { journal := if keep then s.host.journal.map (fun e => (e.1, { e.2 with withheld := false })) else []
          sessions := if keep then s.host.sessions.map (fun e => (e.1, { e.2 with state := 0 })) else []
          nextStamp := s.host.nextStamp
          nextSessionId := s.host.nextSessionId }
      chans := s.chans.map (fun e => (e.1, e.2.inputsOnly))
      motion := { axes := s.motion.axes.map (fun e => (e.1, e.2.inputsOnly)) }
      evc := { gpio := s.evc.gpio }
      power :=
        { resume := s.power.resume
          resumeEdges := s.power.resumeEdges
          tripSensor := s.power.tripSensor
          tripValue := s.power.tripValue
          tripNs := s.power.tripNs
          tripPos := s.power.tripPos
          rc := s.power.rc }
      disp := { hpd := s.disp.hpd, maxRate := s.disp.maxRate, maxLanes := s.disp.maxLanes }
      sys :=
        { seq := s.sys.seq
          ramLog := if keep then s.sys.ramLog else []
          nvWait := if keep then s.sys.nvWait else []
          nvLog := s.sys.nvLog
          nvNext := s.sys.nvNext
          powered := s.sys.powered
          recSec := s.sys.recSec
          recNs := s.sys.recNs
          recPos := s.sys.recPos
          recLine := s.sys.recLine
          recSeq := s.sys.recSeq
          lateFaults := s.sys.lateFaults
          memLost := s.sys.memLost || !keep
          flash := s.sys.flash }
      freeCount := s.freeCount
      out := s.out
      pending := s.pending }
  ptShowAll s (if keep then selfRefresh s0 else s0)

/-- The always-on domain is reset as well (R417, R474). -/
def fullReset (s : State) : State :=
  let s := flashCut s
  ptShowAll s
  { host := { nextStamp := s.host.nextStamp, nextSessionId := s.host.nextSessionId }
    regs := s.regs.filter (fun e => e.1 == ra pgJrn 0x44)
    lastRead := s.lastRead
    chans := s.chans.map (fun e => (e.1, e.2.inputsOnly))
    motion := { axes := s.motion.axes.map (fun e => (e.1, e.2.inputsOnly)) }
    evc := { gpio := s.evc.gpio }
    disp := { hpd := s.disp.hpd, maxRate := s.disp.maxRate, maxLanes := s.disp.maxLanes }
    sys := { nvLog := s.sys.nvLog, nvNext := s.sys.nvNext, flash := s.sys.flash }
    freeCount := s.freeCount
    out := s.out
    pending := s.pending }

/-- The cause is recorded and boot starts at step 0 (R474, R477). -/
def startBoot (s : State) (cause core : Nat) : State :=
  { wr s (ra pgSys 0x50) (cause + 16 * (core % 4)) with
    sys := { s.sys with bootState := 0, cause := cause, triedOther := false, bootFailSeen := false, inReset := false } }

/-- The outputs that R367 releases, without FAULT: a single unit first tells its IO nodes to stop (R23, R513). -/
def releaseOutputs (s : State) : State :=
  if pairMode s then s
  else
    let s := wrf { s with links := { s.links with slowReq := true } } (ra pgFlng 0x7C) 0 0 1
    ioResend s

/-- WATCHDOG_EXPIRY (R23, R143, R367, R485): the fault is recorded after the restart. The watchdogs run from Ready on and
pause in Doze (R421, R477). A single unit drives SLOW_REQ. DESIGN CHOICE (log 60): it does so until it is Ready again. -/
def execWatchdogExpiry (core : Nat) (s : State) : Host.Outcome State Fault Refusal :=
  .next (if s.sys.bootState ≠ 5 ∨ s.sys.inReset = true ∨ dozing s = true then s
    else
      let single := !pairMode s
      let s := volatileReset (releaseOutputs s) true
      let s := { s with sys := { s.sys with wdStop := single }, links := { s.links with slowReq := single } }
      startBoot { s with sys := { s.sys with lateFaults := s.sys.lateFaults ++ [(0x0101, core % 4)] } } 2 core)

/-- The unit enters reset through nRESET. -/
def enterReset (s : State) : State :=
  let s := volatileReset (releaseOutputs s) true
  { s with sys := { s.sys with inReset := true } }

/-- NRESET (R474, R506): pulses shorter than 200 ns are filtered; from 200 ns to 1 us the unit resets or does not. -/
def execNreset (widthNs : Nat) (s : State) : Host.Outcome State Fault Refusal :=
  .next (if s.sys.inReset ∨ s.sys.powered = false ∨ widthNs < 200 then s
    else if 1000 ≤ widthNs then enterReset s
    else
      let (v, s) := drawFree s 1
      if v = 0 then s else enterReset s)

/-- The straps that a rising edge of nRESET, or the end of power-on reset, samples (R476). -/
def sampleStraps (s : State) (straps : Nat) : State := wr s (ra pgSys 0x4C) (straps % 32)

/-- NRESET_RELEASE (R476, R477): the straps are sampled and boot starts; without supply the unit stays in reset. -/
def execNresetRelease (straps : Nat) (s : State) : Host.Outcome State Fault Refusal :=
  .next (if s.sys.inReset = false ∨ s.sys.powered = false then s
    else startBoot (sampleStraps s straps) 1 0)

/-- POWER_ON_RESET (R474, R476): VDD_AON has entered its range; the journal and image memory are lost (R83). -/
def execPowerOnReset (straps : Nat) (s : State) : Host.Outcome State Fault Refusal :=
  .next (startBoot (sampleStraps (fullReset s) straps) 0 0)

/-- VDD_AON_LOSS (R474): the unit is in power-on reset until VDD_AON returns. -/
def execVddAonLoss (s : State) : Host.Outcome State Fault Refusal :=
  let s := fullReset s
  .next { s with sys := { s.sys with powered := false, inReset := true } }

/-- The journal is lost: the epoch goes on and JOURNAL_LOST is recorded (R83). -/
def journalLost (s : State) : State :=
  let s := wr s (ra pgJrn 0x44) (rd s (ra pgJrn 0x44) + 1)
  fault s 0x0202 1 pgJrn noBar [rd s (ra pgJrn 0x44)]

/-- DRAM_SUPPLY_LOSS (R83): image memory with the tiles, the RAM log and the journal. -/
def execDramSupplyLoss (s : State) : Host.Outcome State Fault Refusal :=
  let s := { s with
    dram := { s.dram with mem := [] }
    print := { s.print with jobs := [], tiles := [], windows := [], thawQueue := [] }
    host := { s.host with journal := [] }
    sys := { s.sys with ramLog := [] } }
  .next (if s.sys.bootState = 5 then journalLost s else { s with sys := { s.sys with memLost := true } })

/-- RESET_RECORD_COPY (R485). -/
def execResetRecordCopy (s : State) : Host.Outcome State Fault Refusal :=
  .next (if s.sys.inReset ∨ s.sys.bootState ≠ 5 then s
    else { s with sys := { s.sys with
      recSec := s.clk.sec
      recNs := s.clk.ns
      recPos := webPos s (refBar s)
      recLine := buildLine s (refBar s)
      recSeq := s.sys.seq } })

end Sys2Proof.Machine
end

