-- ==== Sys2Proof/Machine/Thermal.lean ====
section
/-! DEFINITION. Temperatures, throttling, the orderly stop and the trip (15: R429 to R442). -/

namespace Sys2Proof.Machine

open Sys2Proof

def thmA (o : Nat) : Nat := ra pgThm o

/-- A remote input is enabled; the on-die sensors always are. -/
def sensorOn (s : State) (n : Nat) : Bool := decide (n < 16) || (decide (n < 24) && rdb s (thmA (0x200 + 4 * (n - 16))) 31)

def getSensor (s : State) (n : Nat) : Sensor := tget (fun _ => {}) s.power.sensors n
def setSensor (s : State) (n : Nat) (x : Sensor) : State :=
  setPower s { s.power with sensors := tset s.power.sensors n x }

/-- The listed neighbours of a sensor that are enabled. -/
def listedNear (s : State) (n : Nat) : List Nat :=
  (List.range 24).filter (fun j => rdb s (thmA (0x180 + 4 * n)) j && sensorOn s j)

/-! ### Trims of a conversion (R458) -/

/-- The word of a trim entry in effect when a conversion started that has run through `applied` applies of its group; `o` is
the offset of the live word. -/
def trimUsed (s : State) (o applied : Nat) : Nat :=
  let live := rd s (ra pgTrim o)
  let past := tget (fun _ => []) s.power.trimPast o
  if applied = 0 then live else (past[applied - 1]?).getD ((past.getLast?).getD live)

/-- A conversion is complete: the next one uses the codes that are live now. -/
def trimsSeen (s : State) (o : Nat) : State := setPower s { s.power with trimPast := tdel s.power.trimPast o }

/-- Offset of the live trim word of a sensor: TSENSE or RDIODE (R450). -/
def sensorTrim (n : Nat) : Nat := if n < 16 then 0x100 + 4 * n else 0x140 + 4 * (n - 16)

/-! ### Conversion (R430) -/

/-- ln 16 times 10^50. -/
def ln16 : Int := 277258872223978123766892848583270627230200053744102

/-- The sum of `n` terms of the series of ln (1 + c / 1000) from term `k` on, whose power is `p`. -/
def lnTerms (c : Int) : Nat → Nat → Int → Int
  | 0, _, _ => 0
  | n + 1, k, p => p / k + lnTerms c n (k + 1) (-(p * c) / 1000)

/-- ln of the current ratio with a code of RDIODE, times 10^50: 0.1 % of N for each code (R450). -/
def lnRatio (code : Int) : Int := ln16 + lnTerms code 60 1 (code * 10 ^ 50 / 1000)

/-- The voltage difference that an input with a code of RDIODE measures, in microvolts times 10^50 ln 16: it grows with the
ln of the current ratio. DEDUCED (log 58). -/
def trimmedDv (dv code : Int) : Int := dv * lnRatio code

/-- Diode mode: T = dV q / (n k ln N) in 1/16 degrees, from dV in microvolts times 10^50 ln 16, and IDEAL as 2.14. q / k is
16021766340 / 1380649 kelvin per volt, and 0 degrees is 273.15 kelvin. -/
def diodeTemp (dv : Int) (ideal : Nat) : Int :=
  if ideal = 0 then Config.diodeByZero dv
  else
    let num : Int := 16 * dv * 16021766340 * 16384 * 10 ^ 50
    let den : Int := 10 ^ 6 * 1380649 * ideal * ln16 * ln16
    (10 * num - 43704 * den + 5 * den) / (10 * den)

/-- NTC mode: linear between the points of the table. -/
def ntcTemp (s : State) (r : Nat) (code : Int) : Int :=
  let c := code.toNat
  let i := min 31 (c / 128)
  let t (k : Nat) : Int := signed 16 (rdf s (thmA (0x300 + 0x84 * r + 4 * k)) 15 0)
  t i + roundHalfUp ((t (i + 1) - t i) * ((c : Int) - 128 * i)) 128

/-- The value of a reading and the reason it fails OPEN or SHORT, 0 when it does not (R430, R431), with the trims in effect
at its start (R458): the offset of an on-die sensor, 0.25 degrees for each code, and the current ratio of an input in diode
mode. DEDUCED (log 58): how a code acts on a reading. -/
def convert (s : State) (x : TempReading) : Int × Nat :=
  let w := trimUsed s (sensorTrim x.sensor) x.applied
  if x.sensor < 16 then (x.value + 4 * signed 6 (field w 5 0), 0)
  else
    let cfg := rd s (thmA (0x200 + 4 * (x.sensor - 16)))
    if bitOf cfg 30 then
      (if 4079 < x.value then (0, 1) else if x.value < 16 then (0, 2) else (ntcTemp s (x.sensor - 16) x.value, 0))
    else
      let dv := trimmedDv x.value (signed 7 (field w 6 0))
      if 150000 * ln16 < dv then (0, 1) else if dv < 20000 * ln16 then (0, 2)
      else (diodeTemp dv (cfg % 2 ^ 16), 0)

/-! ### Checks (R431, R432) -/

/-- Within 20 degrees per elapsed millisecond of an earlier value. -/
def rateOk (now : Nat) (v : Int) (last : Option (Int × Nat)) : Bool :=
  match last with
  | none => true
  | some p => decide ((v - p.1).natAbs * 1000000 ≤ 320 * (now - p.2))

/-- The first of the reasons 1 to 3 that a reading meets, 0 when none. -/
def basicReason (v : Int × Nat) : Nat :=
  if v.2 ≠ 0 then v.2 else if v.1 < -640 ∨ 2400 < v.1 then 3 else 0

/-- The first of the reasons 1 to 4 that a reading meets. -/
def rateReason (s : State) (n : Nat) (v : Int × Nat) : Nat :=
  let b := basicReason v
  if b ≠ 0 then b else if rateOk (ptTotalNs s) v.1 (getSensor s n).last then 0 else 4

/-- Sorted insertion. -/
def insertInt (x : Int) : List Int → List Int
  | [] => [x]
  | y :: r => if x ≤ y then x :: y :: r else y :: insertInt x r

/-- The median, the lower middle value of an even count; 0 of nothing. -/
def median (xs : List Int) : Int :=
  let ys := xs.foldl (fun a x => insertInt x a) []
  (ys[(ys.length - 1) / 2]?).getD 0

/-- A reading on its way through a measurement: sensor, value, first reason of 1 to 4, and whether the sensor was valid. -/
structure Conv where
  sensor : Nat
  value : Int
  reason : Nat
  basic : Nat
  wasValid : Bool
deriving DecidableEq, Repr

/-- The conversions of one measurement. -/
def conversions (s : State) (rs : List TempReading) : List Conv :=
  (rs.filter (fun x => decide (x.sensor < 24) && sensorOn s x.sensor)).map (fun x =>
    let v := convert s x
    { sensor := x.sensor, value := v.1, reason := rateReason s x.sensor v, basic := basicReason v,
      wasValid := !(getSensor s x.sensor).failed })

/-- The reason a reading fails, DEVIATION among them. -/
def finalReason (s : State) (cs : List Conv) (c : Conv) : Nat :=
  if c.reason ≠ 0 then c.reason
  else
    let ns := (cs.filter (fun d => (listedNear s c.sensor).contains d.sensor && d.reason == 0 && d.wasValid)).map
      (fun d => d.value)
    if decide (2 ≤ ns.length) && decide (240 < (c.value - median ns).natAbs) then 5 else 0

/-- A sensor after its reading, by R431 and R432: a valid one fails at its first failing reading; a failed one becomes
valid with its 16th consecutive good reading. -/
def sensorAfter (now : Nat) (x : Sensor) (c : Conv) (reason : Nat) : Sensor :=
  if x.failed then
    (if c.basic ≠ 0 then { x with good := 0, reason := c.basic }
     else
       let good := if x.good ≠ 0 ∧ rateOk now c.value x.last = true then x.good + 1 else 1
       if 16 ≤ good then { x with failed := false, reason := 0, good := 0, value := c.value, last := some (c.value, now) }
       else { x with good := good, last := some (c.value, now) })
  else if reason = 0 then { x with value := c.value, last := some (c.value, now) }
  else { x with failed := true, reason := reason, good := 0 }

/-- The value of a failed sensor: from its valid neighbours, or STOP (R432). -/
def replacement (s : State) (n : Nat) : Int :=
  let vs := ((listedNear s n).filter (fun j => !(getSensor s j).failed)).map (fun j => (getSensor s j).value)
  match vs with
  | a :: b :: r => (b :: r).foldl max a + 80
  | _ => signed 16 (rdf s (thmA 0x44) 15 0)

/-- Takes one reading: counts and records its failure. -/
def takeConv (s : State) (cs : List Conv) (c : Conv) : State :=
  let reason := finalReason s cs c
  let x := getSensor s c.sensor
  let y := sensorAfter (ptTotalNs s) x c reason
  let s := if reason = 0 then s else count s pgThm 1
  let s := setSensor s c.sensor y
  if y.failed && !x.failed then fault (ev s pgThm 10) 0x0C03 1 pgThm noBar [c.sensor, reason] else s

/-- The values in use of the failed sensors follow their neighbours. -/
def replaceFailed (s : State) : State :=
  (List.range 24).foldl (fun s n =>
    let x := getSensor s n
    if sensorOn s n && x.failed then setSensor s n { x with value := replacement s n } else s) s

/-- REMOTE_HOT (R433), and the hot test of image memory that reads the same value (R137). -/
def remoteHot (s : State) (r : Nat) : State :=
  if sensorOn s (16 + r) then
    let x := getSensor s (16 + r)
    let alert := signed 16 (rdf s (thmA (0x220 + 4 * r)) 15 0)
    let s := dramSensor s (16 + r) x.value true
    if decide (alert ≤ x.value) && !x.hotSeen then
      fault (ev (setSensor s (16 + r) { x with hotSeen := true }) pgThm 11) 0x0C04 1 pgThm noBar [16 + r, twos 32 x.value]
    else if x.value < alert - rdf s (thmA 0x4C) 7 0 then setSensor s (16 + r) { x with hotSeen := false } else s
  else s

/-! ### Levels (R434, R435, R438) -/

/-- The sensor with the largest value in use among the on-die sensors, the lowest number among equals. -/
def hottest (s : State) : Nat :=
  (List.range 16).foldl (fun b n => if (getSensor s b).value < (getSensor s n).value then n else b) 0

def throttleAt (s : State) : Int := signed 16 (rdf s (thmA 0x40) 15 0)
def stopAt (s : State) : Int := signed 16 (rdf s (thmA 0x44) 15 0)

/-- At least `ns` since the last change of level. -/
def levelDue (s : State) (ns : Nat) : Bool :=
  match s.power.lastChange with
  | none => true
  | some t => decide (ns ≤ ptTotalNs s - t)

def setLevel (s : State) (l : Nat) : State := setPower s { s.power with level := l, lastChange := some (ptTotalNs s) }

/-- The level after a measurement (R434). -/
def updateLevel (s : State) : State :=
  let p := s.power
  if p.stop ≠ 0 then s
  else if throttleAt s ≤ p.tmax ∧ p.level < 7 ∧ levelDue s 10000000 = true then
    (let s := setLevel s (p.level + 1)
     if p.level = 0 then fault (ev s pgThm 8) 0x0C05 1 pgThm noBar [p.tmaxSensor, twos 32 p.tmax] else s)
  else if p.tmax < throttleAt s - rdf s (thmA 0x4C) 7 0 ∧ p.hold = false ∧ 0 < p.level ∧ levelDue s 100000000 = true then
    setLevel s (p.level - 1)
  else s

/-- Tmax reaches STOP: the orderly stop begins (R438), and an erase of the flash is abandoned (R441). -/
def checkStop (s : State) : State :=
  if s.power.stop = 0 ∧ stopAt s ≤ s.power.tmax then
    let s := setPower s { s.power with stop := 1, level := 7, lastChange := some (ptTotalNs s) }
    eraseAbandoned (stopBars (slowSync s) (List.range 8))
  else s

/-! ### The trip (R439, R440) -/

/-- The trip: every PLL stops, the outputs are released but SLOW_REQ; the domains that are not always on are reset. -/
def trip (s : State) (n : Nat) (v : Int) : State :=
  let s := setPower s { s.power with tripSensor := n, tripValue := v }
  let s := volatileReset s false
  let s := setPower s { s.power with tripped := true }
  { s with sys := { s.sys with inReset := true }, links := { s.links with slowReq := true } }

/-- A valid on-die reading at or above TRIP. In Deep, where press time stands, only its range is checked. -/
def tripping (s : State) (cs : List Conv) : Option Conv :=
  cs.find? (fun c => decide (c.sensor < 16) && decide (2000 ≤ c.value) && c.wasValid &&
    (if s.power.pstate = 5 then c.basic == 0 else finalReason s cs c == 0))

/-- A measurement outside Deep: readings, replacements, remote inputs, hold, level and stop. -/
def measure (s : State) (cs : List Conv) : State :=
  let before := s.power.tmaxSensor
  let was := (getSensor s before).failed
  let s := count s pgThm 0
  let s := replaceFailed (cs.foldl (fun s c => takeConv s cs c) s)
  let s := (List.range 8).foldl remoteHot s
  let s := if !was && (getSensor s before).failed && s.power.level != 0 then
      setPower s { s.power with hold := true, holdSensor := before } else s
  let h := hottest s
  let t := (getSensor s h).value
  let s := setPower s { s.power with tmaxSensor := h, tmax := t }
  let fast := if throttleAt s - 160 ≤ t then true else if t < throttleAt s - 192 then false else s.power.fast
  let s := setPower s { s.power with fast := fast }
  checkStop (updateLevel s)

/-- TEMP_MEASUREMENT (R429 to R440). In Deep only the TRIP comparison of the on-die sensors runs. -/
def execTempMeasurement (readings : List TempReading) (s : State) : Host.Outcome State Fault Refusal :=
  let cs := conversions s readings
  .next (if s.power.tripped ∨ s.sys.inReset = true then s
    else
      let s := if s.power.pstate = 5 then s
        else setPower s { s.power with tripNs := ptTotalNs s, tripPos := webPos s (refBar s) }
      let done (s : State) : State := readings.foldl (fun s x => trimsSeen s (sensorTrim x.sensor)) s
      match tripping s cs with
      | some c => trip s c.sensor c.value
      | none => done (if s.power.pstate = 5 then s else measure s cs))

/-- HOLD_EXPIRY (R435): the replacement value has been in use for 1 s without a break. -/
def execHoldExpiry (s : State) : Host.Outcome State Fault Refusal :=
  .next (if s.power.hold && (getSensor s s.power.holdSensor).failed then setPower s { s.power with hold := false } else s)

/-- THERMAL_STOP_DONE (R438): after the last fire time every engine stops, STOPPED is set and THERMAL_STOP is raised. -/
def execThermalStopDone (s : State) : Host.Outcome State Fault Refusal :=
  .next (if s.power.stop ≠ 1 ∨ (List.range 8).any (barStopping s) = true then s
    else
      let s := setPower s { s.power with stop := 2 }
      let s := { s with print := { s.print with engines := [], thawQueue := [], tiles := s.print.tiles.map Tile.afterReset } }
      let s := ev s pgThm 9
      let handed := pairMode s && (s.pair.peerRole == 2 || s.pair.peerRole == 5)
      fault s 0x0C06 (if handed then 3 else 2) pgThm noBar [s.power.tmaxSensor, twos 32 s.power.tmax])

/-- CLR_STOP (R438): refused until Tmax is below STOP - 10 degrees. -/
def execClrStop (_rq : Requester) (s : State) : Host.Outcome State Fault Refusal :=
  .next (gated s (thmA 0x54) 1 (fun s =>
    if stopAt s - 160 ≤ s.power.tmax then refuse s pgThm
    else slowSync (setPower s { s.power with stop := 0 })))

/-- Press time has entered a new slot of 128 us: slots at levels 1 to 7 are counted (R436). -/
def slotTick (before s : State) : State :=
  if s.power.level ≠ 0 ∧ ptTotalNs before / 128000 ≠ ptTotalNs s / 128000 then count s pgThm (1 + s.power.level) else s

/-- THM.TEMPs (R431, R432). -/
def tempWord (s : State) (n : Nat) : Nat :=
  let x := getSensor s n
  twos 16 x.value + 2 ^ 28 * x.reason + (if x.failed then 2 ^ 31 + 2 ^ 27 else 0)

/-- THM.STAT. -/
def thermalStat (s : State) : Nat :=
  let p := s.power
  2 ^ 16 * twos 16 p.tmax + 256 * p.tmaxSensor + 16 * p.level + 8 * b2n p.hold + 4 * b2n (p.stop == 2) + 2 * b2n p.fast

end Sys2Proof.Machine
end

