-- ==== Sys2Proof/Machine/Trim.lean ====
section
/-! DEFINITION. Self-calibration and trims (16): the six groups with their live, staging and factory windows, the
calibration, the checks of staging, and applying a group (R450 to R459). -/

namespace Sys2Proof.Machine

open Sys2Proof

def trimA (o : Nat) : Nat := ra pgTrim o

/-- Live base and number of entries of a group (R450). -/
def trimBase (g : Nat) : Nat :=
  if g = 0 then 0x100 else if g = 1 then 0x140 else if g = 2 then 0x160 else if g = 3 then 0x168 else if g = 4 then 0x180 else 0x260
def trimCount (g : Nat) : Nat :=
  if g = 0 then 16 else if g = 1 then 8 else if g = 2 then 2 else if g = 3 then 1 else if g = 4 then 52 else 8

def trimLive (s : State) (g i : Nat) : Nat := rd s (trimA (trimBase g + 4 * i))
def trimStaging (s : State) (g i : Nat) : Nat := rd s (trimA (trimBase g + 0x200 + 4 * i))
def trimFact (s : State) (g i : Nat) : Nat := rd s (trimA (trimBase g + 0x400 + 4 * i))

/-- The codes of an entry: high bit, low bit, signed (R450). The preset of a LANE entry is no code that is checked. -/
def trimFields (g i : Nat) : List (Nat × Nat × Bool) :=
  if g = 0 then [(5, 0, true)]
  else if g = 1 then [(6, 0, true)]
  else if g = 2 then (if i = 0 then [(7, 0, true)] else [(5, 0, true)])
  else if g = 3 then [(7, 0, false)]
  else if g = 4 then [(13, 8, false), (7, 4, false)]
  else [(12, 8, false), (4, 0, false)]

/-- The value of a code in a word. -/
def trimCode (w : Nat) (f : Nat × Nat × Bool) : Int :=
  let v := field w f.1 f.2.1
  if f.2.2 then signed (f.1 + 1 - f.2.1) v else v

/-- A code lies in its field. -/
def trimFits (f : Nat × Nat × Bool) (v : Int) : Bool :=
  let n := f.1 + 1 - f.2.1
  if f.2.2 then decide (-(2 ^ (n - 1)) ≤ v) && decide (v < 2 ^ (n - 1)) else decide (0 ≤ v) && decide (v < 2 ^ n)

def calLimit (s : State) (g : Nat) : Nat := rdf s (trimA (0x48 + 4 * g)) 7 0

/-- BUSY of a group. -/
def trimBusy (s : State) (g : Nat) : Bool := rdb s (trimA 0x44) (16 + g)
def setTrimBusy (s : State) (g : Nat) (b : Bool) : State := wrf s (trimA 0x44) (16 + g) (16 + g) (b2n b)
def setTrimFail (s : State) (g : Nat) (b : Bool) : State := wrf s (trimA 0x44) (8 + g) (8 + g) (b2n b)

/-- A word for each entry of a group. -/
def trimWords (g : Nat) (f : Nat → Nat) : List (Nat × Nat) := (List.range (trimCount g)).map (fun i => (i, f i))

/-- Writes one window of a group: 0 live, 0x200 staging. -/
def putTrims (s : State) (g window : Nat) (ws : List (Nat × Nat)) : State :=
  ws.foldl (fun s x => wr s (trimA (trimBase g + window + 4 * x.1)) x.2) s

/-- A conversion that runs when its group is applied completes with the old codes (R458). -/
def keepTrims (s : State) (g : Nat) : State :=
  if 2 < g then s
  else (trimWords g (trimLive s g)).foldl (fun s x =>
    let o := trimBase g + 4 * x.1
    setPower s { s.power with trimPast := tset s.power.trimPast o (x.2 :: tget (fun _ => []) s.power.trimPast o) }) s

/-- Live codes follow staging in one fabric tick (R455, R458). -/
def applyTrims (s : State) (g : Nat) : State := putTrims (keepTrims s g) g 0 (trimWords g (trimStaging s g))

/-- The first entry of which a code of staging differs from its factory code by more than the limit (R454, reason 2). -/
def trimOff (s : State) (g : Nat) (ws : List (Nat × Nat)) : Option Nat :=
  (ws.find? (fun x => (trimFields g x.1).any (fun f =>
    decide (calLimit s g < (trimCode x.2 f - trimCode (trimFact s g x.1) f).natAbs)))).map (fun x => x.1)

/-- A failure: FAIL, the group and the reason, and TRIM_FAIL with the group, the first failing entry and the reason (R453,
R455). -/
def trimFail (s : State) (g entry reason : Nat) : State :=
  let s := wrf (wrf (setTrimFail s g true) (trimA 0x44) 7 4 reason) (trimA 0x44) 2 0 g
  fault (count (ev s pgTrim 10) pgTrim 2) 0x0D01 1 pgTrim noBar [g, entry, reason]

/-- CAL and APPLY of LANE or DDRPHY are refused while a bar prints or the DRAM changes frequency (R456). -/
def trimRefused (s : State) (g : Nat) : Bool :=
  decide (5 < g) || trimBusy s g || (decide (4 ≤ g) && (anyPrinting s || freqBusy s))

/-- CAL (R453, R456). -/
def execCal (_rq : Requester) (group : Nat) (s : State) : Host.Outcome State Fault Refusal :=
  .next (gated s (trimA 0x40) (0x100 + group % 6) (fun s =>
    if trimRefused s group then refuse s pgTrim else count (setTrimBusy s group true) pgTrim 0))

/-- An entry is measured: of LANE only lanes in DOWN, DETECT or FAIL (R453); at boot all are. -/
def trimMeasured (s : State) (g i : Nat) : Bool :=
  let ln := getLane s i
  let page := if i < 48 then pgFln i else pgPrl (i - 48)
  g != 4 || ((s.sys.bootState != 5 || pgEn s page) && (decide (ln.state ≤ 1) || ln.state == 9))

/-- The corrections of an entry, one for each of its codes, in 2^-16 codes. -/
def trimCorr (g i : Nat) (cs : List Int) : List Int :=
  let n := (trimFields g i).length
  (List.range n).map (fun k => (cs[n * i + k]?).getD 0)

/-- The new codes of an entry: live code plus correction, rounded half-up. -/
def newCodes (s : State) (g i : Nat) (cs : List Int) : List ((Nat × Nat × Bool) × Int) :=
  ((trimFields g i).zip (trimCorr g i cs)).map (fun x =>
    (x.1, trimCode (trimLive s g i) x.1 + (if trimMeasured s g i then roundHalfUp x.2 65536 else 0)))

/-- The word with new codes. -/
def newWord (s : State) (g i : Nat) (cs : List Int) : Nat :=
  (newCodes s g i cs).foldl (fun w x => putField w x.1.1 x.1.2.1 (twos (x.1.1 + 1 - x.1.2.1) x.2)) (trimLive s g i)

/-- The group that boot firmware calibrates after another in step 2 (R452). -/
def bootNext (g : Nat) : Option Nat :=
  if g = 2 then some 0 else if g = 0 then some 1 else if g = 1 then some 3 else if g = 3 then some 5 else none

/-- The outcome of a calibration is settled: BUSY clears, and in boot step 2 the next group begins (R452, R453). -/
def calEnd (s : State) (g : Nat) : State :=
  let s := setTrimBusy s g false
  match (if s.sys.bootState = 2 then bootNext g else none) with
  | some n => count (setTrimBusy s n true) pgTrim 0
  | none => s

/-- The end of a calibration that fails: staging returns to the live codes (R453). -/
def calFail (s : State) (g entry reason : Nat) : State :=
  trimFail (calEnd (putTrims s g 0x200 (trimWords g (trimLive s g))) g) g entry reason

/-- CAL_DONE (R452 to R455): every entry of the group is measured. -/
def execCalDone (group : Nat) (corrections : List Int) (s : State) : Host.Outcome State Fault Refusal :=
  .next (if 5 < group ∨ trimBusy s group = false then s
    else match (List.range (trimCount group)).find? (fun i =>
        (newCodes s group i corrections).any (fun x => !trimFits x.1 x.2)) with
      | some i => calFail s group i 1
      | none =>
        let ws := trimWords group (fun i => newWord s group i corrections)
        match trimOff s group ws with
        | some i => calFail s group i 2
        | none =>
          let s := applyTrims (putTrims s group 0x200 ws) group
          ev (setTrimFail (calEnd s group) group false) pgTrim 8)

/-- CALIBRATION_BOUND (R454, reason 3): `entry` is the first that is not done. -/
def execCalibrationBound (at_ : TrimEntry) (s : State) : Host.Outcome State Fault Refusal :=
  .next (if 5 < at_.group ∨ trimBusy s at_.group = false then s
    else calFail s at_.group (at_.entry % trimCount at_.group) 3)

/-- APPLY (R454, R455, R456). -/
def execApply (_rq : Requester) (group : Nat) (s : State) : Host.Outcome State Fault Refusal :=
  .next (gated s (trimA 0x40) (0x200 + group % 6) (fun s =>
    if trimRefused s group then refuse s pgTrim
    else match trimOff s group (trimWords group (trimStaging s group)) with
      | some i => trimFail s group i 2
      | none => ev (count (setTrimFail (applyTrims s group) group false) pgTrim 1) pgTrim 9))

/-- RELOAD (R455, R456). -/
def execReload (_rq : Requester) (group : Nat) (s : State) : Host.Outcome State Fault Refusal :=
  .next (gated s (trimA 0x40) (0x400 + group % 6) (fun s =>
    if decide (5 < group) || trimBusy s group then refuse s pgTrim
    else putTrims s group 0x200 (trimWords group (trimFact s group))))

/-- A write of TRIM.CMD (R453, R455): GROUP with at most one of CAL, APPLY and RELOAD. -/
def trimCmdBits (v : Nat) : Nat := b2n (bitOf v 8) + b2n (bitOf v 9) + b2n (bitOf v 10)

/-- The group whose staging window holds a page offset. -/
def stagingGroup (o : Nat) : Option Nat :=
  (List.range 6).find? (fun g => decide (trimBase g + 0x200 ≤ o) && decide (o < trimBase g + 0x200 + 4 * trimCount g))

/-- A write of a staging word is refused while its group is BUSY (R456). -/
def stagingRefused (s : State) (o : Nat) : Bool :=
  match stagingGroup o with
  | some g => trimBusy s g
  | none => false

end Sys2Proof.Machine
end

