-- ==== Sys2Proof/Machine/Monitor.lean ====
section
/-! DEFINITION. Supply and process monitors, and the adaptive core voltage with its regulator (15: R443 to R448). -/

namespace Sys2Proof.Machine

open Sys2Proof

def monA (o : Nat) : Nat := ra pgMon o

def getRail (s : State) (c : Nat) : Rail := tget (fun _ => {}) s.power.rails c
def setRail (s : State) (c : Nat) (x : Rail) : State := setPower s { s.power with rails := tset s.power.rails c x }

/-- A reading lies within the limits of a word: [31:16] high, [15:0] low. -/
def within (w v : Nat) : Bool := decide (field w 15 0 ≤ v) && decide (v ≤ field w 31 16)

/-- The monitors run: not in reset and not in Deep. -/
def monitoring (s : State) : Bool := !s.sys.inReset && s.power.pstate != 5

/-! ### Voltages (R443) -/

/-- The warning limits of a channel: SUPPLY_FAULT at three consecutive readings outside them. -/
def warnCheck (s : State) (c v : Nat) : State :=
  let x := getRail s c
  if within (rd s (monA (0x80 + 4 * c))) v then
    setRail s c { x with warn := 0, goodW := x.goodW + 1, warned := x.warned && decide (x.goodW + 1 < 100) }
  else
    let s := count s pgMon c
    let n := x.warn + 1
    if n = 3 ∧ x.warned = false then
      fault (ev (setRail s c { x with warn := n, warned := true, goodW := 0 }) pgMon 8) 0x0C08 1 pgMon noBar [c, v]
    else setRail s c { x with warn := n }

/-- The critical limits: SUPPLY_CRIT at two consecutive readings outside them. -/
def critCheck (s : State) (c v : Nat) : State :=
  let x := getRail s c
  if within (rd s (monA (0xC0 + 4 * c))) v then
    setRail s c { x with crit := 0, goodC := x.goodC + 1, critical := x.critical && decide (x.goodC + 1 < 100) }
  else
    let n := x.crit + 1
    if n = 2 ∧ x.critical = false then
      fault (ev (setRail s c { x with crit := n, critical := true, goodC := 0 }) pgMon 9) 0x0C09 3 pgMon noBar [c, v]
    else setRail s c { x with crit := n }

/-- A conversion of the monitor ADC in mV, from what it gives with its codes at zero: a gain of 0.05 % and an offset of
0.5 mV for each code of MONADC in effect at its start (R450, R458). DEDUCED (log 58): how a code acts. -/
def adcValue (s : State) (applied mv : Nat) : Nat :=
  let gain := signed 8 (field (trimUsed s 0x160 applied) 7 0)
  let offset := signed 6 (field (trimUsed s 0x164 applied) 5 0)
  (roundHalfUp (mv * (2000 + gain) + 1000 * offset) 2000).toNat

/-- VOLTAGE_CONVERSION (R443, R458): the 12 channels; records of one tick are made in the order of their codes (R484). -/
def execVoltageConversion (reading : RailReading) (s : State) : Host.Outcome State Fault Refusal :=
  let vs := (reading.mv.take 12).map (adcValue s reading.applied)
  let each (f : State → Nat → Nat → State) (s : State) : State :=
    (List.range vs.length).foldl (fun s c => f s c ((vs[c]?).getD 0)) s
  .next (if monitoring s then
      (let s := each (fun s c v => wr s (monA (0x40 + 4 * c)) (v % 2 ^ 16)) s
       trimsSeen (trimsSeen (each critCheck (each warnCheck s)) 0x160) 0x164)
    else s)

/-! ### The regulator (R446, R447) -/

/-- PMBus command codes. -/
def pmbVoutMode : Nat := 0x20
def pmbVoutCommand : Nat := 0x21
def pmbReadVout : Nat := 0x8B
def pmbReadIout : Nat := 0x8C
def pmbStatusWord : Nat := 0x79

/-- Linear VOUT_MODE with an exponent from -16 to -8. -/
def modeOk (m : Nat) : Bool := decide (16 ≤ m) && decide (m ≤ 24)

/-- -e of a supported VOUT_MODE. -/
def modeExp (m : Nat) : Nat := 32 - m

/-- The mantissa for V mV: round-half-up(V x 2^(-e) / 1000). -/
def mantissa (m v : Nat) : Nat := (roundHalfUp (v * 2 ^ modeExp m) 1000).toNat

def vcore (s : State) : Nat := rdf s (monA 0x128) 15 0

/-- What a command of the controller carries. -/
def pmbValue (s : State) (cmd : Nat) : Nat := if cmd = pmbVoutCommand then mantissa s.power.voutMode (vcore s) else 0

/-- Starts a transaction. -/
def pmbSend (s : State) (cmd : Nat) : State := send (wrf s (monA 0x134) 16 16 1) (.pmbus cmd (pmbValue s cmd))

/-- A transaction that fails is retried twice; the third failure records PMBUS_FAULT and AVS holds V. -/
def pmbFailed (s : State) (cmd : Nat) : State :=
  if s.power.pmbFails < 2 then
    pmbSend (count (setPower s { s.power with pmbFails := s.power.pmbFails + 1 }) pgMon 12) cmd
  else
    let s := setPower s { s.power with pmbFails := 0, avsHeld := true, voutRetry := false }
    let s := wrf (wrf s (monA 0x134) 16 16 0) (monA 0x134) 17 17 1
    fault (ev s pgMon 11) 0x0C0B 1 pgMon noBar [cmd, vcore s]

/-- A transaction that succeeds. -/
def pmbOk (s : State) : State :=
  wrf (setPower s { s.power with pmbFails := 0, avsHeld := false }) (monA 0x134) 17 16 0

/-- A reading of READ_VOUT in mV is shown; one that checks a change of V fails when it is more than 10 mV from V (R447). -/
def voutSeen (s : State) (mv : Nat) (check : Bool) : State :=
  let s := wr s (monA 0x138) (mv % 2 ^ 16)
  if check && decide (10 < ((mv : Int) - vcore s).natAbs) then
    pmbFailed (setPower s { s.power with voutRetry := true }) pmbReadVout
  else pmbOk (setPower s { s.power with voutRetry := false })

/-- PMBUS_TRANSACTION (R446, R447). -/
def execPmbusTransaction (cmd : Nat) (result : PmbusEnd) (s : State) : Host.Outcome State Fault Refusal :=
  .next (if monitoring s then
      match result with
      | .failed => pmbFailed s cmd
      | .ok mode reading =>
        if cmd = pmbReadVout then
          voutSeen s (roundHalfUp (1000 * reading) (2 ^ modeExp s.power.voutMode)).toNat s.power.voutRetry
        else
        let s := pmbOk s
        if cmd = pmbVoutMode then
          let s := setPower s { s.power with voutMode := mode % 256 }
          if modeOk (mode % 256) then s else fault (ev s pgMon 11) 0x0C0B 1 pgMon noBar [cmd, mode % 256]
        else if cmd = pmbReadIout then wr s (monA 0x13C) (reading % 2 ^ 16)
        else if cmd = pmbStatusWord then wrf s (monA 0x134) 15 0 reading
        else s
    else s)

/-- VOUT_CHECK (R447): READ_VOUT 1 ms after a change of V. -/
def execVoutCheck (mv : Nat) (s : State) : Host.Outcome State Fault Refusal :=
  .next (if monitoring s then voutSeen s mv true else s)

/-! ### Ring oscillators and AVS (R444, R445) -/

/-- V changes: VCORE_SET, the warning limits of channel 0, and VOUT_COMMAND. -/
def setVcore (s : State) (v : Nat) : State :=
  let s := wr (wr s (monA 0x128) v) (monA 0x80) (2 ^ 16 * (v + 30) + (v - 30))
  pmbSend (count s pgMon 13) pmbVoutCommand

/-- A lowering may come now: no bar prints, or the last one was 100 ms ago. -/
def mayLower (s : State) : Bool :=
  !anyPrinting s || (match s.power.lastLower with
    | none => true
    | some t => decide (100000000 ≤ ptTotalNs s - t))

/-- The AVS step after a count with minimum `f`. -/
def avsStep (s : State) (f : Nat) : State :=
  let target := rdf s (monA 0x120) 19 0
  let vmax := rdf s (monA 0x12C) 31 16
  let vmin := rdf s (monA 0x12C) 15 0
  let v := vcore s
  let low := if decide (f < target) && decide (vmax ≤ v) then s.power.avsLow + 1 else 0
  let s := setPower s { s.power with avsLow := low }
  let s := if low = 10 then fault (ev s pgMon 10) 0x0C0A 1 pgMon noBar [v, f] else s
  if s.power.avsHeld = true ∨ modeOk s.power.voutMode = false then s
  else if f < target ∧ v < vmax then setVcore s (min vmax (v + 5))
  else if target + rdf s (monA 0x124) 15 0 < f ∧ vmin < v ∧ mayLower s = true then
    setVcore (setPower s { s.power with lastLower := some (ptTotalNs s) }) (max vmin (v - 5))
  else s

/-- RO_COUNT (R444, R445). Control core 3 is stopped in Doze (R421). -/
def execRoCount (counts : List Nat) (s : State) : Host.Outcome State Fault Refusal :=
  .next (if monitoring s = false ∨ counts.length ≠ 8 then s
    else
      let s := (List.range 8).foldl (fun s c => wr s (monA (0x100 + 4 * c)) ((counts[c]?).getD 0 % 2 ^ 20)) s
      let f := counts.foldl min (2 ^ 20)
      if rdb s (monA 0x120) 31 && !dozing s then avsStep s f else s)

end Sys2Proof.Machine
end

