-- ==== Sys2Proof/Machine/Nvm.lean ====
section
/-! DEFINITION. The boot flash (18): the non-volatile fault log, and the NVM page with its protected areas (R487 to R489). -/

namespace Sys2Proof.Machine

open Sys2Proof

/-! ### The non-volatile log (R482, R487) -/

/-- The 64 bytes of a fault record. -/
def recordBytes (r : FaultRecord) : List Byte :=
  withCrc (leBytes 2 r.code ++
    leBytes 1 (r.cls % 4 + 4 * b2n r.unitA + 8 * b2n r.late + 16 * (r.role % 16)) ++ leBytes 1 (r.bar % 16) ++
    leBytes 4 r.seq ++ leBytes 8 (r.ptSec % 2 ^ 48) ++ leBytes 4 (r.ptNs % 2 ^ 30) ++ leBytes 4 r.boots ++
    leBytes 8 (twos 64 r.webPos) ++ leBytes 8 (r.imageLine % 2 ^ 48) ++
    (List.range 4).flatMap (fun i => leBytes 4 ((r.detail[i]?).getD 0)) ++ leBytes 1 r.page ++ zeroBytes 3)

/-- First flash page of the log: 0x0410_0000. -/
def nvPage : Nat := 0x41000

/-- Records that the ring holds: two pages each. -/
def nvRing : Nat := 4096

/-- Programs one record into its two pages; a sector is erased when the ring reaches it, which drops its records. -/
def nvProgram (s : State) (r : FaultRecord) : State :=
  let i := s.sys.nvNext
  let s := if i % 128 = 0 then setSector s (nvPage + 2 * i) (fun _ => erasedPage) else s
  let kept := if i % 128 = 0 then s.sys.nvLog.drop (s.sys.nvLog.length - (nvRing - 128)) else s.sys.nvLog
  let page := recordBytes r ++ List.replicate 192 0xFF#8
  let s := setFlashPage (setFlashPage s (nvPage + 2 * i) page) (nvPage + 2 * i + 1) page
  { s with sys := { s.sys with nvLog := kept ++ [r], nvNext := (i + 1) % nvRing } }

/-- NV_LOG_PROGRAM (R487): at most 64 records a second; it waits for a page program of the host (R488). -/
def execNvLogProgram (s : State) : Host.Outcome State Fault Refusal :=
  let n := if s.sys.nvSec = s.clk.sec then s.sys.nvCount else 0
  .next (match s.sys.nvWait with
    | [] => s
    | r :: rest =>
      if 64 ≤ n ∨ s.sys.flashOp = 2 ∨ s.power.tripped = true then s
      else
        let s := { s with sys := { s.sys with nvWait := rest, nvSec := s.clk.sec, nvCount := n + 1 } }
        count (nvProgram s r) pgSys 5)

/-! ### The NVM page (R488, R489) -/

/-- STAT.BUSY. -/
def nvmBusy (s : State) : Bool := rdb s (nvmA 0x4C) 0

/-- Two address ranges meet. -/
def overlaps (a n b m : Nat) : Bool := decide (a < b + m) && decide (b < a + n)

/-- The protected areas (R489): the boot ROM's, the slot of the running image, and the fault log. -/
def nvmProtected (s : State) (a n : Nat) : Bool :=
  overlaps a n 0x10000 0xF0000 || overlaps a n (if rdb s (ra pgSys 0x54) 0 then 0x2100000 else 0x100000) 0x2000000 ||
    overlaps a n 0x4100000 0x200000

/-- The reason for which an operation does not start, 0 when it does. -/
def nvmReason (s : State) (op : Nat) : Nat :=
  let a := nvmAddr s
  if op ≠ 1 ∧ rdb s (nvmA 0x40) 0 = false then 1
  else if (op ≠ 1 ∧ a % nvmSpan op ≠ 0) ∨ rdf s (nvmA 0x50) 11 0 * 1048576 < a + nvmSpan op then 2
  else if op ≠ 1 ∧ nvmProtected s a (nvmSpan op) = true then 3
  else 0

/-- A write of NVM.CMD with an operation. -/
def nvmStart (s : State) (op : Nat) : State :=
  gated s (nvmA 0x48) op (fun s =>
    if nvmBusy s then refuse s pgNvm
    else
      let r := nvmReason s op
      if r ≠ 0 then nvmEnd s r
      else
        let s := count (wr s (nvmA 0x4C) 1) pgNvm (op - 1)
        send { s with sys := { s.sys with flashOp := op } } (.flash op (nvmAddr s)))

/-- NVM_READ (R488). -/
def execNvmRead (_rq : Requester) (s : State) : Host.Outcome State Fault Refusal := .next (nvmStart s 1)

/-- NVM_PROGRAM (R488, R489). -/
def execNvmProgram (_rq : Requester) (s : State) : Host.Outcome State Fault Refusal := .next (nvmStart s 2)

/-- NVM_ERASE (R488, R489). -/
def execNvmErase (_rq : Requester) (s : State) : Host.Outcome State Fault Refusal := .next (nvmStart s 3)

/-- The words of NVM.BUF, and back. -/
def bufBytes (s : State) : List Byte := (List.range 64).flatMap (fun i => leBytes 4 (rd s (nvmA (0x100 + 4 * i))))
def setBuf (s : State) (bs : List Byte) : State :=
  (List.range 64).foldl (fun s i => wr s (nvmA (0x100 + 4 * i)) (bytesAt bs (4 * i) 4)) s

/-- NVM_DONE (R441, R488): the running operation ends. An erase is abandoned only at STOP. -/
def execNvmDone (r : FlashEnd) (s : State) : Host.Outcome State Fault Refusal :=
  let op := s.sys.flashOp
  .next (if op = 0 then s
    else match r with
      | .done =>
        nvmEnd (if op = 1 then setBuf s (flashRead s (nvmAddr s) 256)
          else if op = 2 then setFlashPage s (nvmAddr s / 256) (bufBytes s)
          else setSector s (nvmAddr s / 256) (fun _ => erasedPage)) 0
      | .failed => if op = 1 then s else nvmEnd (spoil s op) 4
      | .abandoned => if s.power.stop ≠ 0 then eraseAbandoned s else s)

end Sys2Proof.Machine
end

