-- ==== Sys2Proof/Machine/Display.lean ====
section
/-! DEFINITION. The operator display (17): link bring-up and hot plug, composition of the layers, the latch with the
commits of the DISP page, frame events, underrun and the output checks (R460 to R473). -/

namespace Sys2Proof.Machine

open Sys2Proof

def dispA (o : Nat) : Nat := ra pgDisp o
def setDisp (s : State) (d : Disp) : State := { s with disp := d }

/-! ### Committing the shadows of a page (R38, R43) -/

/-- Addresses of the shadowed registers of a page. -/
def shadowAddrs (p : Nat) : List Nat :=
  match pageInfo p with
  | some i => (i.regs.filter (fun r => r.sh)).flatMap (fun r =>
      (List.range r.n).map (fun k => ra p (r.off + r.stride * k)))
  | none => []

/-- The pages of the block with a header page. -/
def blockPages (h : Nat) : List Nat := (List.range 4).map (fun i => h + i) |>.filter (fun p => (pageInfo p).isSome && headerOf p == h)

/-- Shadowed addresses of a block. -/
def blockShadows (h : Nat) : List Nat := (blockPages h).flatMap shadowAddrs

/-- Copies every shadow of a block into its committed registers. -/
def copyShadows (s : State) (h : Nat) : State := (blockShadows h).foldl (fun s a => setCm s a (rd s a)) s

/-- A commit is applied: PENDING clears, COMMIT_DONE is set (R43). -/
def commitDone (s : State) (h : Nat) : State := ev (wr s (ra h 0x18) (rd s (ra h 0x18) &&& 0xA)) h 0

/-- A commit is refused by its check: the shadows stay (R43). -/
def commitRefused (s : State) (h : Nat) : State := ev (wr s (ra h 0x18) (rd s (ra h 0x18) &&& 0xA)) h 2

/-! ### The link (R460 to R462) -/

/-- Megabits per second of a rate code, and lanes of a LANES code. -/
def dispRate (r : Nat) : Nat := if r = 0 then 1620 else if r = 1 then 2700 else 5400
def dispLanes (c : Nat) : Nat := 2 ^ min c 2

/-- Bits per pixel of a CFG word. -/
def dispBits (cfg : Nat) : Nat := if bitOf cfg 2 then 18 else 24

/-- PCLK x bits per pixel is at most 99 % of LANES x rate x 8/10 (R461). -/
def rateFits (cfg pclk r : Nat) : Bool :=
  decide (pclk * dispBits cfg * 1000 ≤ 99 * 8 * dispLanes (field cfg 9 8) * dispRate r * 1000)

/-- The lowest rate that meets the conditions of R461, within the panel's maximum. -/
def chooseRate (cfg pclk panel : Nat) : Option Nat :=
  (List.range 3).find? (fun r => decide (r ≤ field cfg 5 4) && decide (r ≤ panel) && rateFits cfg pclk r)

/-- No rate could be trained: DISP_LINK, and a new start 1 s later (R461). -/
def linkFail (s : State) : State :=
  fault (setDisp s { s.disp with state := 4 }) 0x0E01 1 pgDisp noBar [field (dcm s 0x40) 9 8, s.disp.maxRate]

/-- A training at a rate begins. -/
def trainAt (s : State) (r : Nat) : State :=
  send (count (setDisp s { s.disp with state := 1, rate := r, lanes := field (dcm s 0x40) 9 8 }) pgDisp 6) (.disp 0)

/-- Brings the link up when the page is enabled and HPD is high (R461). -/
def dispStart (s : State) : State :=
  if pgEn s pgDisp && s.disp.hpd && !dozing s then
    (if s.disp.maxLanes < dispLanes (field (dcm s 0x40) 9 8) then linkFail s
     else match chooseRate (dcm s 0x40) (field (dcm s 0x44) 18 0) s.disp.maxRate with
       | some r => trainAt s r
       | none => linkFail s)
  else s

/-- The stream runs: content or the black frame. -/
def dispRunning (s : State) : Bool := s.disp.state == 2 || s.disp.state == 3

/-- HPD_PLUG (R461, R462): HPD is high; the DPCD gives the panel's maximum rate and lanes. -/
def execHpdPlug (maxRate maxLanes : Nat) (s : State) : Host.Outcome State Fault Refusal :=
  .next (dispStart (setDisp s { s.disp with hpd := true, maxRate := maxRate, maxLanes := maxLanes }))

/-- HPD_UNPLUG (R462). -/
def execHpdUnplug (s : State) : Host.Outcome State Fault Refusal :=
  .next (if s.disp.hpd then
      ev (setDisp s { s.disp with hpd := false, state := if pgEn s pgDisp then 4 else 0 }) pgDisp 15
    else s)

/-- HPD_IRQ (R462): retraining at the present rate when lock or alignment is lost. -/
def execHpdIrq (lockLost : Bool) (s : State) : Host.Outcome State Fault Refusal :=
  .next (if s.disp.hpd then
      (let s := ev s pgDisp 16
       if lockLost && dispRunning s then trainAt s s.disp.rate else s)
    else s)

/-- LINK_TRAINING_DONE (R461, R471): the stream starts at line 0, after a mode change with a black frame. -/
def execLinkTrainingDone (s : State) : Host.Outcome State Fault Refusal :=
  .next (if s.disp.state = 1 then
      send (setDisp s { s.disp with state := if s.disp.switching then 3 else 2, scanLine := 0, scanNs := ptTotalNs s }) (.disp 1)
    else s)

/-- LT_TIMEOUT (R461): the next higher rate, if any. -/
def execLtTimeout (s : State) : Host.Outcome State Fault Refusal :=
  .next (if s.disp.state = 1 then
      (if s.disp.rate < min (field (dcm s 0x40) 5 4) s.disp.maxRate then trainAt s (s.disp.rate + 1) else linkFail s)
    else s)

/-- DISP_RETRY (R461): 1 s after the link was left idle. -/
def execDispRetry (s : State) : Host.Outcome State Fault Refusal :=
  .next (if s.disp.state = 4 ∧ dozing s = false then dispStart s else s)

/-! ### Composition (R463, R464, R467) -/

/-- A committed register of layer l. -/
def layer (s : State) (l o : Nat) : Nat := dcm s (0x80 + 0x20 * l + o)
def layerOn (s : State) (l : Nat) : Bool := bitOf (layer s l 0) 31
def layerX (s : State) (l : Nat) : Nat := field (layer s l 4) 11 0
def layerY (s : State) (l : Nat) : Nat := field (layer s l 4) 26 16
def layerW (s : State) (l : Nat) : Nat := field (layer s l 8) 11 0
def layerH (s : State) (l : Nat) : Nat := field (layer s l 8) 26 16
def layerBase (s : State) (l : Nat) : Nat := 256 * field (layer s l 0xC) 27 0
def layerStride (s : State) (l : Nat) : Nat := field (layer s l 0x10) 17 0

/-- L0 is a ring, and L1 with FOLLOW. -/
def layerRing (s : State) (l : Nat) : Bool := l == 0 || (l == 1 && bitOf (layer s 1 0) 30)

/-- Bytes of a pixel of a layer: RGB888, an index, ARGB8888. -/
def layerBpp (l : Nat) : Nat := if l = 0 then 3 else if l = 1 then 1 else 4

/-- The line of a layer's surface or ring that its row `dy` shows (R467). -/
def layerLine (s : State) (l dy : Nat) : Nat :=
  if layerRing s l then
    let d := max 1 (ringDepth s)
    let back := if bitOf (dcm s 0xE0) 30 then dy else layerH s l - 1 - dy
    ((((s.disp.shown.getD 0 : Nat) : Int) - (back : Int)) % (d : Int)).toNat
  else dy

/-- Alpha, R, G and B of a pixel of a layer, at column dx and row dy of it. -/
def layerPixel (s : State) (l dx dy : Nat) : Nat × Nat × Nat × Nat :=
  let a := layerBase s l + layerStride s l * layerLine s l dy + layerBpp l * dx
  let b (i : Nat) : Nat := (memByte s.dram.mem (a + i)).toNat
  if l = 0 then (255, b 0, b 1, b 2)
  else if l = 1 then
    let p := dcm s (0x400 + 4 * b 0)
    (field p 31 24, field p 23 16, field p 15 8, field p 7 0)
  else (b 3, b 2, b 1, b 0)

/-- Blending of one channel (R463). -/
def blend (c src a galpha : Nat) : Nat :=
  let al := (roundHalfUp (a * galpha) 255).toNat
  (roundHalfUp (src * al + c * (255 - al)) 255).toNat

/-- A layer covers a pixel and has not underrun before it (R463, R469). -/
def layerCovers (s : State) (l x y idx : Nat) : Bool :=
  layerOn s l && decide (layerX s l ≤ x) && decide (x < layerX s l + layerW s l) && decide (layerY s l ≤ y) &&
    decide (y < layerY s l + layerH s l) && s.disp.offLayers.all (fun e => e.1 != l || decide (idx < e.2))

def hActive (s : State) : Nat := field (dcm s 0x48) 27 16
def vActive (s : State) : Nat := field (dcm s 0x50) 26 16

/-- Stream-clock ticks of a line, and lines of a frame. -/
def hTotal (s : State) : Nat := hActive s + field (dcm s 0x48) 9 0 + field (dcm s 0x4C) 25 16 + field (dcm s 0x4C) 9 0
def vTotal (s : State) : Nat := vActive s + field (dcm s 0x50) 7 0 + field (dcm s 0x54) 23 16 + field (dcm s 0x54) 7 0

/-- The present line of the scan, counted from 0 at the first active line (R468). DEDUCED (log 62): PCLK runs with press time
from the last latch, or from the start of the stream, and the scan stands on the last active line until the next latch. -/
def presentLine (s : State) : Nat :=
  let n := s.disp.scanLine + (ptTotalNs s - s.disp.scanNs) * field (dcm s 0x44) 18 0 / (1000000 * max 1 (hTotal s))
  if n < vTotal s then n else min (n - vTotal s) (vActive s - 1)

/-- The last active line has started, and the latch has not come (R470). -/
def lastLine (s : State) : Bool := s.disp.lastActive || presentLine s + 1 == vActive s

/-- R, G and B of a pixel of the frame: the layers from L0 to L2 over BG; all layers are off in the black frame, which
is black (R463, R471). -/
def framePixel (s : State) (x y : Nat) : Nat × Nat × Nat :=
  if s.disp.state = 3 then (0, 0, 0)
  else
    let bg := dcm s 0x58
    (List.range 3).foldl (fun c l =>
      if layerCovers s l x y (y * hActive s + x) then
        (let p := layerPixel s l (x - layerX s l) (y - layerY s l)
         let g := field (layer s l 0) 7 0
         (blend c.1 p.2.1 p.1 g, blend c.2.1 p.2.2.1 p.1 g, blend c.2.2 p.2.2.2 p.1 g))
      else c) (field bg 23 16, field bg 15 8, field bg 7 0)

/-- A component as the checks see it: 8 bits, or 6 in the low bits (R472). -/
def component (s : State) (v : Nat) : Byte :=
  BitVec.ofNat 8 (if bitOf (dcm s 0x40) 2 then Config.sixBits v % 64 else v)

/-- The bytes of a rectangle of the frame in raster order, R first. -/
def frameBytes (s : State) (x y w h : Nat) : List Byte :=
  (List.range h).flatMap (fun dy => (List.range w).flatMap (fun dx =>
    let p := framePixel s (x + dx) (y + dy)
    [component s p.1, component s p.2.1, component s p.2.2]))

/-! ### Commits and the frame (R467, R470, R471) -/

/-- Frames per second times one, rounded up, is at most 61; every timing field lies in its range (CHECK_ERR 1). -/
def timingOk (s : State) : Bool :=
  let v (o : Nat) : Nat := rd s (dispA o)
  let hAct := field (v 0x48) 27 16
  let vAct := field (v 0x50) 26 16
  let h := hAct + field (v 0x48) 9 0 + field (v 0x4C) 25 16 + field (v 0x4C) 9 0
  let w := vAct + field (v 0x50) 7 0 + field (v 0x54) 23 16 + field (v 0x54) 7 0
  let pclk := field (v 0x44) 18 0
  decide (25000 ≤ pclk ∧ pclk ≤ 300000 ∧ 16 ≤ hAct ∧ hAct ≤ 2560 ∧ 16 ≤ vAct ∧ vAct ≤ 1600) &&
    decide (pclk * 1000 ≤ 61 * h * w) &&
    [field (v 0x48) 9 0, field (v 0x4C) 25 16, field (v 0x4C) 9 0, field (v 0x50) 7 0, field (v 0x54) 23 16,
      field (v 0x54) 7 0].all (fun n => n != 0)

/-- Layers that the shadows enable. -/
def shadowLayers (s : State) : List Nat := (List.range 3).filter (fun l => rdb s (dispA (0x80 + 0x20 * l)) 31)

/-- A layer lies inside the active area, with a legal stride (CHECK_ERR 3). -/
def layerFits (s : State) (l : Nat) : Bool :=
  let a (o : Nat) : Nat := rd s (dispA (0x80 + 0x20 * l + o))
  let stride := field (a 0x10) 17 0
  decide (field (a 4) 11 0 + field (a 8) 11 0 ≤ rdf s (dispA 0x48) 27 16) &&
    decide (field (a 4) 26 16 + field (a 8) 26 16 ≤ rdf s (dispA 0x50) 26 16) &&
    decide (layerBpp l * field (a 8) 11 0 ≤ stride) && stride % 64 == 0

/-- The ring of L0, and that of L1 when it follows, holds H + 64 lines (R467; CHECK_ERR 4). -/
def ringFits (s : State) : Bool :=
  let depth := rdf s (dispA 0x94) 13 0
  (shadowLayers s).all (fun l =>
    let follows := l == 0 || (l == 1 && rdb s (dispA 0xA0) 30)
    !follows || decide (rdf s (dispA (0x88 + 0x20 * l)) 26 16 + 64 ≤ depth))

/-- The areas of image memory that the shadows name: surfaces, rings, and the sample rings of an enabled preview. -/
def dispAreas (s : State) : List (Nat × Nat) :=
  let one (l : Nat) : Nat × Nat :=
    let a (o : Nat) : Nat := rd s (dispA (0x80 + 0x20 * l + o))
    let lines := if l = 0 ∨ (l = 1 ∧ bitOf (a 0) 30 = true) then rdf s (dispA 0x94) 13 0 else field (a 8) 26 16
    (256 * field (a 0xC) 27 0, field (a 0x10) 17 0 * lines)
  let prev := rd s (dispA 0xE0)
  let planes := ((List.range 8).filter (fun b => bitOf (field prev 15 8) b)).length
  (shadowLayers s).map one ++
    (if bitOf prev 31 then
      [(256 * rdf s (dispA 0xEC) 27 0, planes * rdf s (dispA 0xF0) 13 0 * rdf s (dispA 0x88) 11 0)] else [])

/-- An area overlaps a FIRN region, an ISP area or the journal, or lies at or above DRG.SIZE (CHECK_ERR 5). -/
def dispClash (s : State) : Bool :=
  let others := fixedAreas s ++ ((List.range 8).filter (ctxOn s)).flatMap (ctxAreas s)
  (dispAreas s).any (fun a => others.any (overlap a) ||
    decide (drgSize s * 2 ^ 20 < a.1 + a.2))

/-- The check of a commit of the DISP page: 0 when it passes, else CHECK_ERR. -/
def dispCheck (s : State) : Nat :=
  if timingOk s = false then 1
  else if (chooseRate (rd s (dispA 0x40)) (rdf s (dispA 0x44) 18 0) (if s.disp.hpd then s.disp.maxRate else 2)).isNone then 2
  else if (shadowLayers s).all (layerFits s) = false then 3
  else if ringFits s = false then 4
  else if dispClash s then 5
  else 0

/-- The commit changes CFG, PCLK or a timing register (R471). -/
def modeChange (s : State) : Bool := [0x40, 0x44, 0x48, 0x4C, 0x50, 0x54].any (fun o => rd s (dispA o) != dcm s o)

/-- A mode change at the latch: the old stream ends; a new rate or lane count retrains, else the black frame follows. -/
def switchMode (s : State) : State :=
  let s := send (setDisp s { s.disp with switching := true }) (.disp 2)
  match chooseRate (dcm s 0x40) (field (dcm s 0x44) 18 0) s.disp.maxRate with
  | some r =>
    if s.disp.maxLanes < dispLanes (field (dcm s 0x40) 9 8) then linkFail s
    else if r ≠ s.disp.rate ∨ field (dcm s 0x40) 9 8 ≠ s.disp.lanes then trainAt s r
    else setDisp s { s.disp with state := 3 }
  | none => linkFail s

/-- Applies a pending commit of the DISP page (R43, R471). -/
def dispCommit (s : State) : State :=
  let c := dispCheck s
  if c ≠ 0 then commitRefused (wr s (dispA 0x64) c) pgDisp
  else
    let change := modeChange s
    let s := commitDone (copyShadows s pgDisp) pgDisp
    if change && dispRunning s then switchMode s else s

/-- An ARM on the DISP page (R470): late from the start of the last active line up to the latch. -/
def dispArm (s : State) : State :=
  if commitPending s pgDisp then s
  else
    let s := wr s (ra pgDisp 0x18) (rd s (ra pgDisp 0x18) &&& 0xA ||| 5)
    if dispRunning s && lastLine s then
      ev (count (setDisp (wrf s (ra pgDisp 0x18) 3 3 1) { s.disp with armedLate := true }) pgDisp 9) pgDisp 1
    else s

/-- LATCH (R467, R470, R471): the start of the first line of vertical blanking. -/
def execLatch (s : State) : Host.Outcome State Fault Refusal :=
  .next (if dispRunning s then
      (let black := s.disp.state == 3
       let late := s.disp.armedLate
       let s := setDisp s { s.disp with
         shown := s.disp.newest
         lastActive := false
         scanLine := vActive s
         scanNs := ptTotalNs s
         offLayers := []
         armedLate := false
         state := 2
         switching := s.disp.switching && !black }
       let s := if black then ev s pgDisp 12 else s
       let s := if commitPending s pgDisp && !late then dispCommit s else s
       setDisp s { s.disp with scanLine := vActive s })
    else s)

/-- VBLANK (R468). -/
def execVblank (s : State) : Host.Outcome State Fault Refusal := .next (if dispRunning s then ev s pgDisp 8 else s)

/-- LINE_MATCH (R468): the start of line LINE_MATCH; the last active line closes the frame to ARMs (R470). -/
def execLineMatch (s : State) : Host.Outcome State Fault Refusal :=
  .next (if dispRunning s then
      ev (if field (dcm s 0x5C) 10 0 + 1 = vActive s then setDisp s { s.disp with lastActive := true } else s) pgDisp 9
    else s)

/-- The check of one rectangle (R473). -/
def rectCheck (s : State) (k : Nat) : State :=
  if rdb s (dispA 0x140) k then
    let pos := dcm s (0x150 + 0x10 * k)
    let size := dcm s (0x154 + 0x10 * k)
    let crc := crc32c (frameBytes s (field pos 11 0) (field pos 26 16) (field size 11 0) (field size 26 16))
    let s := wr s (dispA (0x15C + 0x10 * k)) crc
    if crc = rd s (dispA (0x158 + 0x10 * k)) then s
    else
      let s := count (ev s pgDisp 14) pgDisp 5
      if s.sys.bootState = 5 then s else fault s 0x0E02 1 pgDisp noBar [k, crc]
  else s

/-- The two checksums of a frame (R472). -/
def crcCheck (s : State) (own back : Nat) : State :=
  let s := wr (wr s (dispA 0x144) own) (dispA 0x148) back
  let d := s.disp
  if own = back then
    setDisp s { d with mismatches := 0, matches_ := d.matches_ + 1, crcRecorded := d.crcRecorded && decide (d.matches_ + 1 < 60) }
  else
    let s := setDisp s { d with mismatches := d.mismatches + 1, matches_ := 0 }
    let s := count (ev s pgDisp 13) pgDisp 4
    if 3 ≤ d.mismatches + 1 ∧ d.crcRecorded = false then
      fault (setDisp s { s.disp with crcRecorded := true }) 0x0E02 1 pgDisp noBar [own, back]
    else s

/-- FRAME_DONE (R468, R472, R473): the last active pixel has left the compositor. `readback` are the bytes that the
read-back receiver decoded at the pins. Before Ready only the rectangles are used. -/
def execFrameDone (readback : List Byte) (s : State) : Host.Outcome State Fault Refusal :=
  .next (if dispRunning s then
      (let own := crc32c (frameBytes s 0 0 (hActive s) (vActive s))
       let under := (List.range 3).foldl (fun v l => if s.disp.offLayers.any (fun e => e.1 == l) then v + 2 ^ l else v) 0
       let s := wrf (count s pgDisp 0) (dispA 0x60) 10 8 under
       let s := (List.range 4).foldl rectCheck (crcCheck s own (crc32c readback))
       ev (setDisp s { s.disp with lastActive := true }) pgDisp 10)
    else if s.sys.bootState ≠ 5 then (List.range 4).foldl rectCheck s
    else s)

/-- One layer underruns at a pixel of the frame (R469). -/
def underrunLayer (pixel : Nat) (s : State) (l : Nat) : State :=
  if decide (l < 3) && layerOn s l && !s.disp.offLayers.any (fun e => e.1 == l) then
    count (ev (setDisp s { s.disp with offLayers := s.disp.offLayers ++ [(l, pixel)] }) pgDisp 11) pgDisp (1 + l)
  else s

/-- UNDERRUN (R469). -/
def execUnderrun (layers : List Nat) (pixel : Nat) (s : State) : Host.Outcome State Fault Refusal :=
  .next (if s.disp.state = 2 then layers.foldl (underrunLayer pixel) s else s)

/-- DISP.STAT. -/
def dispStat (s : State) : Nat :=
  65536 * (if dispRunning s then presentLine s else 0) + 256 * rdf s (dispA 0x60) 10 8 + 16 * s.disp.rate + 4 * s.disp.lanes + 2 * b2n s.disp.hpd + b2n (dispRunning s)

end Sys2Proof.Machine
end

