-- ==== Sys2Proof/Machine/Boot.lean ====
section
/-! DEFINITION. Enabling and resetting blocks (R28, R31, R32), and bring-up (18: R476 to R480, R508): the boot steps, image
slots, self-test, and what boot firmware sets before Ready. -/

namespace Sys2Proof.Machine

open Sys2Proof

/-! ### Enabling and disabling a page -/

/-- The lane of an FLN or PRL page. -/
def laneOfPage (p : Nat) : Option Nat :=
  if 0x70 ≤ p ∧ p < 0xA0 then some (p - 0x70) else if 0xA8 ≤ p ∧ p < 0xAC then some (p - 0xA8 + 48) else none

/-- The ball group that enabling a page claims, with the owner code (R148, R381). -/
def enableClaim (s : State) (p : Nat) : Option (Nat × Nat) :=
  if 0x44 ≤ p ∧ p < 0x48 then (if rdf s (ra p 0x40) 2 0 = 0 then none else some (ownEnc (p - 0x40), 1))
  else if 0xD4 ≤ p ∧ p < 0xD8 then some (ownEnc (p - 0xC8 - 8), 2)
  else none

/-- The claim of a page succeeds or is not needed. -/
def claimFree (s : State) (p : Nat) : Bool :=
  match enableClaim s p with
  | some c => claimable s c.1 c.2
  | none => true

/-- A block starts: its claim is made; a lane polls for a receiver (R251), a channel counts edges afresh (R165), the
display link comes up (R461). -/
def pageStarts (s : State) (p : Nat) : State :=
  let s := match enableClaim s p with
    | some c => claimRes s c.1 c.2
    | none => s
  match laneOfPage p with
  | some l => setLane s l { getLane s l with state := if (getLane s l).state = 0 then 1 else (getLane s l).state }
  | none =>
    if 0x40 ≤ p ∧ p < 0x48 then
      let c := getChan s (p - 0x40)
      setChan s (p - 0x40) { pos := c.pos, high := c.high, low := c.low, levels := c.levels, lastLegal := c.lastLegal, dirMark := c.dirMark }
    else if p = pgDisp then dispStart s
    else if p = pgLoop ∨ cameraPage p = true then checkCamera s
    else s

/-- A block stops: a lane is powered down (09), an axis stands, compare units disarm, the display output ends. -/
def pageStops (s : State) (p : Nat) : State :=
  let s := match enableClaim s p with
    | some c => wrf s c.1 31 31 0
    | none => s
  match laneOfPage p with
  | some l => setLane s l { keepSerial := (getLane s l).keepSerial }
  | none =>
    if 0xC8 ≤ p ∧ p < 0xD8 then
      let x := getAxis s (p - 0xC8)
      setAxis s (p - 0xC8) { act := x.act, cmd := x.act * 65536, homed := x.homed, limP := x.limP, limN := x.limN, homeIn := x.homeIn }
    else if p = pgCmp then
      { s with motion := { s.motion with cmps := s.motion.cmps.map (fun e => (e.1, { e.2 with armed := false })) } }
    else if p = pgDisp then setDisp s { s.disp with state := 0, switching := false }
    else if p = pgLoop ∨ cameraPage p = true then checkCamera s
    else if 0x10 ≤ p ∧ p < 0x14 then wr s (ra p 0x50) 0
    else s

/-- Writes EN and CLKREQ of a header page, with what they start and stop (R28, R49, R50). -/
def ctrlWrite (s : State) (p : Nat) (en clkReq : Bool) : State :=
  let was := pgEn s p
  if en && !was && !claimFree s p then
    (match enableClaim s p with
     | some c => setCtrl (conflict s c.1 c.2 p) p false clkReq
     | none => s)
  else
    let s := setCtrl s p en clkReq
    if en && !was then pageStarts s p else if !en && was then pageStops s p else s

/-- LOOP_ENABLE with its checks (R315), then what the loop starts or stops. -/
def loopCtrl (s : State) (en clkReq : Bool) : State :=
  if en && !pgEn s pgLoop && loopCheck s != 0 then
    wr (setCtrl (refuse s pgLoop) pgLoop false clkReq) (loopA 0x74) (loopCheck s)
  else ctrlWrite s pgLoop en clkReq

/-- LOOP_ENABLE (R28, R315): a write of LOOP.PG_CTRL. -/
def execLoopEnable (_rq : Requester) (val : Word) (s : State) : Host.Outcome State Fault Refusal :=
  .next (loopCtrl s (val.getLsbD 0) (val.getLsbD 2))

/-- BLOCK_ENABLE (R28, R30, R32, R33, R49): a write of EN and CLKREQ of a page. -/
def blockEnable (s : State) (p : Nat) (en clkReq : Bool) : State :=
  if isHeader p = false then s
  else if ctrlRefused s p en then refuse s p
  else if p = pgLoop then loopCtrl s en clkReq
  else ctrlWrite s p en clkReq

/-- BLOCK_ENABLE (R28, R32, R33). -/
def execBlockEnable (_rq : Requester) (page : Nat) (en clkReq : Bool) (s : State) : Host.Outcome State Fault Refusal :=
  .next (blockEnable s page en clkReq)

/-! ### Block reset (R31, R32, R475) -/

/-- A word of a block that its reset clears: the block registers and EV_PEND; SYS words and those of the always-on
domain stay (R417), the routing of EVC (R416), and JRN.EPOCH (R83). -/
def blockWord (h a : Nat) : Bool :=
  decide (a < 0x400000) && (pageInfo (a / 4096)).isSome && headerOf (a / 4096) == h && !alwaysOn a &&
    (if h = pgEvc ∧ a / 4096 ≠ pgEvc then decide (0x8040 ≤ a) && decide (a < 0x80A0)
     else decide (0x40 ≤ a % 4096) || a % 4096 == 0x24)

/-- The state that the engines of a block hold returns to its reset value. -/
def engineReset (s : State) (h : Nat) : State :=
  match laneOfPage h with
  | some l => setLane s l { state := if pgEn s h then 1 else 0 }
  | none =>
    if h = pgEvc then hostPin s (setEvc s { gpio := s.evc.gpio })
    else if h = pgThm then setPower s { s.power with sensors := [], tmax := 0, tmaxSensor := 0, level := 0, hold := false, fast := false, lastChange := none }
    else if h = pgMon then setPower s { s.power with rails := [], avsLow := 0, lastLower := none, pmbFails := 0, avsHeld := false, voutMode := 0, voutRetry := false }
    else if h = pgTrim then setPower s { s.power with trimPast := [] }
    else if h = pgNvm then (let s := flashCut s; { s with sys := { s.sys with flashOp := 0 } })
    else if h = pgGsh then { s with host := { s.host with sessions := [], rx := [], phase := [], errs := [], annCount := 0 } }
    else if h = pgPtc then ptcSource (setClk s {})
    else if 0x28 ≤ h ∧ h < 0x2C then setSub (setSub (setDram s (h - 0x28) {}) (2 * (h - 0x28)) {}) (2 * (h - 0x28) + 1) {}
    else if h = pgThaw then
      { s with print := { s.print with engines := [], thawQueue := [], tiles := s.print.tiles.map Tile.afterReset } }
    else if 0x32 ≤ h ∧ h < 0x36 then { s with print := { s.print with frozen := tdel s.print.frozen (h - 0x32) } }
    else if 0x40 ≤ h ∧ h < 0x48 then setChan s (h - 0x40) (getChan s (h - 0x40)).inputsOnly
    else if 0x50 ≤ h ∧ h < 0x60 then 
      setBar { s with print := { s.print with old := s.print.old.filter (fun e => e.1 != (h - 0x50) / 2) } } ((h - 0x50) / 2) {}
    else if h = pgIsp then { s with cams := { s.cams with ctxs := [], skipping := [], busy := none, loadedRegs := [], loadedTable := [] } }
    else if h = pgLoop then
      checkCamera { s with cams := { s.cams with
        windows := [], patches := [], expected := [], changed := [], armed := [], atLimit := [], noData := [],
        ladderCount := [], ladderRead := [], ladderLine := none, limitSeen := [], ownWindows := [], ownLadder := none,
        aim := [], lastDm := [], lastDe := [] } }
    else if h = pgPair then
      setRole { s with pair := { sameUnit := s.pair.sameUnit } } (if pairMode s then 1 else 0)
    else if 0xC8 ≤ h ∧ h < 0xD8 then setAxis s (h - 0xC8) (getAxis s (h - 0xC8)).inputsOnly
    else if h = pgCmp then { s with motion := { s.motion with cmps := [] } }
    else if h = pgDisp then
      dispStart (setDisp s { hpd := s.disp.hpd, maxRate := s.disp.maxRate, maxLanes := s.disp.maxLanes })
    else if h = pgRime then { s with snapWait := [] }
    else s

/-- The enables that SRST clears no longer use their resources (R51): IN_USE of the compare units of CMP and ISP and of
the ball groups of a channel; an axis keeps its EN. -/
def freeUse (s : State) (h : Nat) : State :=
  (List.range 36).foldl (fun s r =>
    let a := if r < 4 then ra pgPin (0x40 + 4 * r) else ra pgPin (0x80 + 4 * (r - 4))
    let user := if r < 4 then (if rdf s a 3 0 = 1 then pgPos (r + 4) else pgAx (r + 12))
      else if rdf s a 3 0 = 2 then pgIsp else pgCmp
    if rdb s a 31 && user == h && !(decide (0xC8 ≤ h) && decide (h < 0xD8)) then wrf s a 31 31 0 else s) s

/-- The block registers, shadows, counters, pending commit and events of a block return to their reset values (R31). -/
def blockReset (s : State) (h : Nat) : State :=
  let old := s
  let s := freeUse s h
  let s := { s with
    regs := s.regs.filter (fun e => !blockWord h e.1)
    committed := s.committed.filter (fun e => !blockWord h e.1)
    held := s.held.filter (fun e => !blockWord h e.1)
    counters := s.counters.filter (fun e => e.1 / 128 != h) }
  ptShowAll old (gpioShow old (engineReset (wr s (ra h 0x18) (rd s (ra h 0x18) &&& 0xA)) h))

/-- SRST (R31, R32, R475): of the SYS page it resets the unit, of any other header page its block. -/
def srst (s : State) (p : Nat) : State :=
  if isHeader p = false then s
  else if p = pgSys then
    (if anyPrinting s then refuse s pgSys else startBoot (volatileReset (releaseOutputs s) true) 3 0)
  else if pageInUse s p then refuse s p
  else wrf (blockReset s p) (ra p 0x10) 1 1 1

/-- SRST (R31, R32, R475). -/
def execSrst (_rq : Requester) (page : Nat) (s : State) : Host.Outcome State Fault Refusal := .next (srst s page)

/-- SRST_DONE (R31): SRST clears itself. -/
def execSrstDone (page : Nat) (s : State) : Host.Outcome State Fault Refusal :=
  .next (if isHeader page then wrf s (ra page 0x10) 1 1 0 else s)

/-! ### Ready (R508) -/

/-- Boot firmware enables a page (R508). -/
def bootEn (s : State) (p : Nat) : Bool :=
  Config.bootEnable p || (decide (0x10 ≤ p) && decide (p < 0x14) && rdf s (ra p 0x40) 9 8 != 0) ||
    (decide (0x70 ≤ p) && decide (p < 0xA0) && rdf s (ra p 0x54) 31 28 != 0) ||
    (decide (0xA8 ≤ p) && decide (p < 0xAC) && pairMode s) || p == pgDrg || (decide (0x28 ≤ p) && decide (p < 0x2C)) ||
    p == pgFirn || p == pgThaw || p == pgPtc

/-- CLKREQ and EN of one page at Ready; every page but the camera pages is clocked. -/
def bootPage (s : State) (p : Nat) : State :=
  let cam := cameraPage p
  let s := ctrlWrite s p (bootEn s p) (!cam || (List.range 5).any (fun i => Config.bootEnable (0xB0 + i)))
  if rd s (ra p 0x10) &&& 5 ≠ 0 then clockOn s p else s

/-- A fault that was detected while the unit reset is recorded with what the reset record last copied (R485); THERMAL_TRIP
carries the press time and position of the TRIP record (R440). -/
def lateRecord (s : State) (f : Nat × Nat) : State :=
  if f.1 = 0x0C02 then fault (ev (ev s pgClk 9) pgClk 8) 0x0C02 0 pgClk noBar []
  else
    let trip := f.1 == 0x0C07
    let r := { faultRecord s f.1 3 (if trip then pgThm else pgSys) noBar
        (if trip then [f.2, twos 32 s.power.tripValue] else [f.2]) none with
      late := true
      seq := s.sys.recSeq
      ptSec := if trip then s.power.tripNs / 1000000000 else s.sys.recSec
      ptNs := if trip then s.power.tripNs % 1000000000 else s.sys.recNs
      webPos := if trip then s.power.tripPos else s.sys.recPos
      imageLine := s.sys.recLine }
    let s := nvEnter (ramEnter s r) r
    let s := { s with sys := { s.sys with seq := max s.sys.seq (s.sys.recSeq + 1) } }
    let s := ev (ev (count s pgSys 3) pgSys 11) r.page 3
    if rdb s (ra pgRime 0x40) 3 then armSnapshot s 2 else s

/-- A page of the non-volatile log carries a record with its CRC. -/
def nvPageOk (s : State) (n : Nat) : Bool :=
  let p := (flashPage s n).take 64
  bytesAt p 60 4 == crc32c (p.take 60)

/-- The records of the non-volatile log that boot finds: one whose pages both fail is discarded and counted (R487). -/
def readLog (s : State) : State :=
  let n := s.sys.nvLog.length
  let place (i : Nat) : Nat := nvPage + 2 * ((s.sys.nvNext + nvRing - n + i) % nvRing)
  let good := (s.sys.nvLog.zipIdx).filter (fun x => nvPageOk s (place x.2) || nvPageOk s (place x.2 + 1))
  countN { s with sys := { s.sys with nvLog := good.map (fun x => x.1) } } pgSys 6 (n - good.length)

/-- Boot firmware copies the records of the non-volatile log that the RAM log lacks, after a power-on reset (R487). -/
def copyLog (s : State) : State :=
  let old := s.sys.nvLog.filter (fun r => !s.sys.ramLog.contains r)
  let log := old ++ s.sys.ramLog
  { s with sys := { s.sys with ramLog := log.drop (log.length - 1024) } }

/-- The journal after a reset: lost (R83), or about to be replayed (R82). -/
def bootJournal (s : State) : State :=
  if s.sys.memLost then journalLost { s with sys := { s.sys with memLost := false } }
  else wrf s (ra pgJrn 0x40) 17 17 1

/-- The boot time in BOOT_STAT, which no command reports, is a free value. -/
def bootTime (s : State) : State :=
  let (v, s) := drawFree s 8
  wrf s (ra pgSys 0x54) 15 8 v

/-- Ready (R477): pages and tables hold the boot configuration, blocks are clocked and enabled, the role is taken, late
faults are recorded, and READY is raised. -/
def bootReady (s : State) : State :=
  let s := headerPages.foldl bootPage s
  let s := { s with sys := { s.sys with bootState := 5, wdStop := false } }
  let s := if pairMode s then setRole s 1 else ptcSource s
  let s := readLog s
  let s := if s.sys.cause = 0 then copyLog s else s
  let late := s.sys.lateFaults
  let s := { bootJournal s with sys := { (bootJournal s).sys with lateFaults := [] } }
  let s := late.foldl lateRecord s
  pmbSend (slowSync (ev (bootTime s) pgSys 12)) pmbVoutMode

/-! ### Boot steps (R477 to R480) -/

/-- The slot that a valid boot record names (R489). -/
def bootRecordSlot (s : State) : Option Nat :=
  let r := (flashPage s 0).take 16
  if bytesAt r 0 4 = 0x52535A42 ∧ bytesAt r 12 4 = crc32c (r.take 12) ∧ bytesAt r 4 1 ≤ 1 then some (bytesAt r 4 1) else none

/-- The slot that the boot ROM checks first (R478): BOOT_PREF after a reset other than power-on, then the boot record,
then the strap. -/
def firstSlot (s : State) : Nat :=
  if rdb s (nvmA 0x54) 1 && s.sys.cause != 0 then rdf s (nvmA 0x54) 0 0
  else match bootRecordSlot s with
    | some n => n
    | none => rdf s (ra pgSys 0x4C) 1 1

/-- Boot firmware begins to calibrate groups: BUSY until each one's outcome, with which the next begins (R452). -/
def bootTrims (s : State) (gs : List Nat) : State := gs.foldl (fun s g => count (setTrimBusy s g true) pgTrim 0) s

/-- Step 0 ends: the slot is chosen and the BOOT_PREF that named it is used up (R478, R489); a boot is counted. -/
def bootChoose (s : State) : State :=
  let n := firstSlot s
  let s := if s.sys.cause ≠ 0 then wrf s (nvmA 0x54) 1 1 0 else s
  count { s with sys := { s.sys with slot := n, triedOther := false, bootState := 1 } } pgSys 7

/-- First flash byte of an image slot. -/
def slotBase (n : Nat) : Nat := if n = 0 then 0x100000 else 0x2100000

/-- The first check that the image of a slot fails, 0 when it is sound (R478): MAGIC, LENGTH and CRC are read from the flash;
checks 4 to 6, which need SHA-256, ECDSA and OTP, have the outcome that the command gives (log 61). -/
def imageReason (s : State) (slot given : Nat) : Nat :=
  let h := flashRead s (slotBase slot) 256
  let len := bytesAt h 4 4
  if bytesAt h 0 4 ≠ 0x46575A53 then 1
  else if len = 0 ∨ 16777216 < len then 2
  else if bytesAt h 0x90 4 ≠ crc32c (h.take 0x90 ++ flashRead s (slotBase slot + 256) len) then 3
  else if 4 ≤ given ∧ given ≤ 6 then given
  else 0

/-- Step 1 ends: the image of the present slot runs (R478). -/
def imageOk (s : State) : State :=
  let s := wrf (wrf s (ra pgSys 0x54) 0 0 s.sys.slot) (ra pgSys 0x54) 1 1 (b2n s.sys.triedOther)
  let s := { s with sys := { s.sys with bootState := 2 } }
  let s := if s.sys.triedOther then fault s 0x0102 1 pgSys noBar [rdf s (ra pgSys 0x54) 7 4] else s
  bootTrims s [2]

/-- Both slots have failed: STATE 6 with SLOW_REQ; BOOT_FAIL once, in the non-volatile log (R479). The unit is not held
stopped, since it retries. -/
def bootFail (s : State) : State :=
  let s := { s with sys := { s.sys with bootState := 6 } }
  if s.sys.bootFailSeen then slowSync s
  else
    let s := { s with sys := { s.sys with bootFailSeen := true } }
    let r := faultRecord s 0x0103 3 pgSys noBar [rdf s (ra pgSys 0x54) 7 4] none
    slowSync (ev (ev (count (nvEnter (ramEnter s r) r) pgSys 3) pgSys 11) pgSys 3)

/-- A slot fails: its reason is shown, and the other slot is checked, if it has not been (R478, R479). -/
def slotFails (s : State) (reason : Nat) : State :=
  let s := wrf s (ra pgSys 0x54) 7 4 reason
  if s.sys.triedOther then bootFail s
  else { s with sys := { s.sys with triedOther := true, slot := 1 - s.sys.slot } }

/-- Step 1 ends: the image of the present slot is judged (R478). -/
def judgeImage (s : State) (given : Nat) : State :=
  let r := imageReason s s.sys.slot given
  if r = 0 then imageOk s else slotFails s r

/-- The end of the trims of a boot step: a group without an outcome keeps its codes. -/
def endTrims (s : State) (gs : List Nat) : State := gs.foldl (fun s g => setTrimBusy s g false) s

/-- Image memory is trained: every sub-channel serves (R143, R477). -/
def memTrained (s : State) : State :=
  let s := (List.range 8).foldl (fun s k =>
    trainArea (setSubState (if subState s k = 2 then dramCmd s k 5 else s) k 1) k) s
  syncDram s

/-- The self-test is over (R480): a failure other than a low margin leaves the unit in STATE 6. -/
def selftestDone (s : State) (bits : Nat) : State :=
  let s := wrf s (ra pgSys 0x58) 3 0 bits
  let failed := bits &&& 0xD != 0
  let s := endTrims { s with sys := { s.sys with bootState := if failed then 6 else 4 } } [4]
  let s := if failed then slowSync (fault s 0x0104 3 pgSys noBar [bits % 16]) else s
  if bitOf bits 1 then fault s 0x0403 1 pgDrg noBar [] else s

/-- BOOT_STEP_DONE (R477 to R480): the step in progress ends with a result that it can have. -/
def bootStep (s : State) (r : BootResult) : State :=
  match s.sys.bootState, r with
  | 0, .ok => bootChoose s
  | 1, .ok => judgeImage s 0
  | 1, .slotFailed reason => judgeImage s reason
  | 2, .ok =>
    let s := memTrained (endTrims s [2, 0, 1, 3, 5])
    bootTrims { s with sys := { s.sys with bootState := 3 } } [4]
  | 2, .trainFailed =>
    slowSync (fault { s with sys := { s.sys with bootState := 6 } } 0x0404 3 pgDrg noBar [])
  | 3, .ok => { endTrims s [4] with sys := { s.sys with bootState := 4 } }
  | 3, .repaired n => { endTrims (wrf s (ra pgSys 0x58) 15 8 n) [4] with sys := { s.sys with bootState := 4 } }
  | 3, .selftestFailed bits => selftestDone s bits
  | 4, .ok => bootReady s
  | _, _ => s

/-- BOOT_STEP_DONE (R477). -/
def execBootStepDone (r : BootResult) (s : State) : Host.Outcome State Fault Refusal :=
  .next (if s.sys.inReset then s else bootStep s r)

/-- BOOT_RETRY (R479): every 10 s both slots are checked again. -/
def execBootRetry (slot0 slot1 : Nat) (s : State) : Host.Outcome State Fault Refusal :=
  let first := firstSlot s
  let r (n : Nat) : Nat := imageReason s n (if n = 0 then slot0 else slot1)
  .next (if s.sys.bootState ≠ 6 ∨ s.sys.inReset = true ∨ s.sys.bootFailSeen = false ∨ s.sys.stopped = true then s
    else
      let s := { s with sys := { s.sys with bootState := 1, triedOther := false, slot := first } }
      if r first = 0 then slowSync (imageOk s)
      else
        let s := slotFails s (r first)
        if r (1 - first) = 0 then slowSync (imageOk s) else slotFails s (r (1 - first)))

/-- TRIP_RESTART (R440, R474): all on-die sensors are below 100 degrees, and the unit boots. -/
def execTripRestart (temps : List Int) (s : State) : Host.Outcome State Fault Refusal :=
  let cool (x : Int × Nat) : Bool := decide ((convert s { sensor := x.2, value := x.1 }).1 < 1600)
  .next (if s.power.tripped && decide (16 ≤ temps.length) && (temps.take 16).zipIdx.all cool then
      let s := setPower s { s.power with tripped := false }
      startBoot { s with sys := { s.sys with lateFaults := s.sys.lateFaults ++ [(0x0C07, s.power.tripSensor)], memLost := true } } 4 0
    else s)

/-- ETH_LINK_CHANGE (R84): block lock, FEC lock and link of a port; the rate class of its corrected codewords is free. -/
def execEthLinkChange (port : Nat) (blockLock fecLock linkUp : Bool) (s : State) : Host.Outcome State Fault Refusal :=
  let p := pgEth (port % 4)
  let (v, s) := drawFree s 8
  .next (wr s (ra p 0x50)
    (if pgEn s p then b2n blockLock + 2 * b2n fecLock + 4 * b2n linkUp + 256 * v else 0))

/-- A fabric tick in which nothing is commanded (R316, R434): press time advances by INCR, and the refused refill slots of
throttling are counted. No tick passes in reset, while tripped, in Deep, or before a wake from Deep is done.
DESIGN CHOICE: ticks pass only while no command waits. Unsafe where a claim relates elapsed time to commands. -/
def tick (s : State) : State :=
  if s.sys.inReset || s.power.tripped || s.power.pstate == 5 || (s.power.pstate == 4 && s.power.waking) then s
  else slotTick s (ptTick s)

end Sys2Proof.Machine
end

