-- ==== Sys2Proof/Machine/Commits.lean ====
section
/-! DEFINITION. Commits (R38 to R45, R514): arming and cancelling, the checks of the LINE, BAR, PLC, DRYP and FIRN pages
(R123, R175, R203, R211, R229, R245), groups of commits at one line, and applying them with staged nozzle entries (R47). -/

namespace Sys2Proof.Machine

open Sys2Proof

/-! ### Arming and cancelling (R40 to R44, R470) -/

/-- ARM with AT_LINE = 0 (R41): the commit waits for the next line boundary, or for the next fabric tick. -/
def armNow (s : State) (p : Nat) : State :=
  if commitPending s p then s
  else setCm (wr s (ra p 0x18) (rd s (ra p 0x18) &&& 8 ||| 5)) (ra p 0x18) 0

/-- ARM of a page with the given AT_LINE (R40, R41); the DISP page commits at its latch (R470). -/
def commitArm (s : State) (p : Nat) (atLine : Bool) : State :=
  if p = pgDisp then dispArm s
  else if atLine then armAt s p (rd s (ra p 0x1C))
  else armNow s p

/-- COMMIT_ARM (R40 to R42, R44, R470): a write of PG_COMMIT with ARM = 1. With CANCEL too it is ignored as a whole. -/
def execCommitArm (_rq : Requester) (page : Nat) (val : Word) (s : State) : Host.Outcome State Fault Refusal :=
  .next (if isHeader page = false then s
    else if val.getLsbD 4 then refuse s page
    else
      let s := if val.getLsbD 3 then wrf s (ra page 0x18) 3 3 0 else s
      let s := if val.getLsbD 0 then commitArm s page (val.getLsbD 1) else s
      wrf s (ra page 0x18) 1 1 (b2n (val.getLsbD 1)))

/-- A pending commit of the loop on a bar is forgotten. -/
def forgetLoop (s : State) (p : Nat) : State :=
  { s with cams := { s.cams with armed := s.cams.armed.filter (fun e => pgBar e.1 != p) } }

/-- CANCEL of a page (R44): a pending commit is dropped, the committed values stay. -/
def commitCancel (s : State) (p : Nat) : State :=
  if commitPending s p then
    let s := wr s (ra p 0x18) (rd s (ra p 0x18) &&& 0xA)
    if p = pgDisp then setDisp s { s.disp with armedLate := false } else forgetLoop s p
  else s

/-- COMMIT_CANCEL (R44). -/
def execCommitCancel (_rq : Requester) (page : Nat) (s : State) : Host.Outcome State Fault Refusal :=
  .next (if isHeader page then commitCancel s page else s)

/-! ### Checks

Each check reads a candidate state `s` in which the shadows of the whole group are committed; `o` is the state before. -/

/-- A committed word would change. -/
def cmChanged (o s : State) (a : Nat) : Bool := cm o a != cm s a

/-- R175: the LINE page. -/
def lineCheck (o s : State) : Nat :=
  let bars := List.range 8
  let moved (b : Nat) : Bool := [0, 4, 8, 0xC].any (fun i => cmChanged o s (ra pgLine (0x40 + 0x20 * b + i)))
  let cd (b : Nat) : Nat := cmf s (ra pgLine (0x48 + 0x20 * b)) 15 0
  let cn (b : Nat) : Nat := cmf s (ra pgLine (0x48 + 0x20 * b)) 31 16
  let used (b : Nat) : Bool := printing o b || o.print.jobs.any (fun j => bitOf j.mask b)
  if bars.any (fun b => decide (pitch s b < 0x10000)) then 1
  else if bars.any (fun b => cd b != 0 && decide (cd b ≤ cn b)) then 2
  else if bars.any (fun b => printing o b && moved b) then 3
  else if bars.any (fun b => used b && (posMode s (lineChan s b) != 1 || !channelOwned s (lineChan s b))) then 4
  else 0

/-- The twin partner does not name this bar with the same TWIN and the opposite ROLE, or PARTNER names the bar itself
(R203). -/
def twinAstray (s : State) (b : Nat) : Bool :=
  let q := twinPartner s b
  twinMode s b != 0 && (q == b || twinMode s q != twinMode s b || twinPartner s q != b || twinSecondary s q == twinSecondary s b)

/-- The bar has begun to build image lines. DESIGN CHOICE (log 21): TWIN, ROLE, PARTNER and IL_COMP may still change in a
commit that waited for the bar's first build line, or no bar could ever be twinned (R203, R40, R211, R514). -/
def hasBegun (s : State) (b : Nat) : Bool :=
  printing s b && ((getBar s b).streams.any (fun t => t.next != 0) || !(getBar s b).lines.isEmpty)

/-- R211: a BAR header page. -/
def barCheck (o s : State) (b : Nat) : Nat :=
  let q := twinPartner s b
  if twinMode s b = 3 then 1
  else if twinAstray s b then 2
  else if twinMode s b ≠ 0 ∧ (drop4 s b ≠ drop4 s q ∨ firstCol s b ≠ firstCol s q) then 3
  else if ncols s b ≤ firstCol s b then 4
  else if hasBegun o b && cmChanged o s (ra (pgBar b) 0x40) then 5
  else if printing o b && (drop4 o b != drop4 s b || firstCol o b != firstCol s b || ncols o b != ncols s b) then 5
  else 0

/-- Column c is the column of a nozzle of a head (R214). -/
def hasNozzle (s : State) (b h c : Nat) : Bool :=
  (List.range (headRows s b h)).any (fun r =>
    let base := headCol0 s b h + rowCol s b r
    decide (base ≤ c) && (c - base) % headStep s b h == 0 && decide ((c - base) / headStep s b h < headNpr s b h))

/-- The columns that a head owns. -/
def ownedRange (s : State) (b h : Nat) : List Nat :=
  (List.range (ownLast s b h + 1 - ownFirst s b h)).map (fun i => ownFirst s b h + i)

/-- R216: every column below NCOLS is owned by exactly one enabled head, and owned columns have nozzles. -/
def ownershipOk (s : State) (b : Nat) : Bool :=
  (List.range (ncols s b)).all (fun c => ((headsOf s b).filter (fun h => owns s b h c)).length == 1) &&
    (headsOf s b).all (fun h => (ownedRange s b h).all (hasNozzle s b h))

/-- An enabled head has a nozzle at column 131,072 or beyond. -/
def beyondColumns (s : State) (b : Nat) : Bool :=
  (headsOf s b).any (fun h => (List.range (headRows s b h)).any (fun r => decide (131072 ≤ (rowCols s b h r).2)))

/-- Two enabled heads of a bar have the same lane and slot. -/
def sharedSlot (s : State) (b : Nat) : Bool :=
  (headsOf s b).any (fun h => (headsOf s b).any (fun g =>
    g != h && headLane s b g == headLane s b h && headSlot s b g == headSlot s b h))

/-- Shadowed words of a PLC page that may not change while the bar prints: RET, LEAD, ORIGIN, ROWr, head descriptors. -/
def plcFixed (b : Nat) : List Nat :=
  (shadowAddrs (pgPlc b)).filter (fun a => !(a % 4096 == 0x44 || a % 4096 == 0x48 || a % 4096 == 0x58))

/-- R245: a PLC page. -/
def plcCheck (o s : State) (b : Nat) : Nat :=
  let f := cmf s (ra (pgPlc b) 0x48) 23 0
  if ownershipOk s b = false ∨ beyondColumns s b = true then 1
  else if 128 < (streamsOf s b).length then 2
  else if sharedSlot s b then 3
  else if ahead s b < leadLines s b + ceilDiv (f * 160000) (16 * 10 ^ 9) + 2 then 4
  else if printing o b && (plcFixed b).any (cmChanged o s) then 5
  else if retOf s b && sheetMode s b then 6
  else 0

/-- R229: the DRYP page. -/
def drypCheck (s : State) : Nat :=
  let bars := (List.range 8).filter (fun b => bitOf (field (drypCfg s) 15 8) b)
  if 3 < drypPattern s then 1
  else if 2 ≤ drypPattern s ∧ 1 < bars.length then 2
  else if drypPattern s = 3 ∧ 256 < drypCount s then 3
  else 0

/-- R123, R127: the FIRN page. -/
def firnCheck (s : State) : Nat :=
  let regions := fixedAreas s
  let mine := regions.take 3
  let clash := (List.range 3).any (fun i => (List.range 4).any (fun j =>
    decide (i < j) && overlap ((regions[i]?).getD (0, 0)) ((regions[j]?).getD (0, 0))))
  if s.print.jobs ≠ [] then 1
  else if clash then 2
  else if mine.any (fun a => decide (drgSize s * 2 ^ 20 < a.1 + a.2)) then 3
  else if cmf s (ra pgFirn 0x70) 17 0 * 2 ^ 20 < cmf s (ra pgFirn 0x54) 21 0 * 64 then 4
  else 0

/-- The check of the commit of a page: the reason of its refusal, 0 when it passes (R43). -/
def pageCheck (o s : State) (p : Nat) : Nat :=
  if p = pgLine then lineCheck o s
  else if p = pgDryp then drypCheck s
  else if p = pgFirn then firnCheck s
  else if 0x50 ≤ p ∧ p < 0x60 then barCheck o s ((p - 0x50) / 2)
  else if 0x60 ≤ p ∧ p < 0x68 then plcCheck o s (p - 0x60)
  else 0

/-- The register that reports the reason. -/
def checkErrOf (p : Nat) : Option Nat :=
  if p = pgLine then some (ra p 0x160)
  else if p = pgDryp then some (ra p 0x58)
  else if p = pgFirn then some (ra p 0x6C)
  else if 0x50 ≤ p ∧ p < 0x60 then some (ra p 0x58)
  else if 0x60 ≤ p ∧ p < 0x68 then some (ra p 0x70)
  else none

/-- The pages whose values the check of a page reads (R203, R245). -/
def checkReads (s : State) (p : Nat) : List Nat :=
  if 0x50 ≤ p ∧ p < 0x60 then
    (if twinMode s ((p - 0x50) / 2) = 0 then [] else [pgBar (twinPartner s ((p - 0x50) / 2))])
  else if 0x60 ≤ p ∧ p < 0x68 then [pgBar (p - 0x60), pgLine]
  else []

/-! ### Groups (R45, R514) -/

/-- Two BAR pages that name each other as twins in their shadows (R514). -/
def namedTwins (s : State) (p q : Nat) : Bool :=
  let isBar (x : Nat) : Bool := decide (0x50 ≤ x) && decide (x < 0x60)
  let names (x y : Nat) : Bool := rdf s (ra x 0x40) 9 8 != 0 && pgBar (rdf s (ra x 0x40) 14 12) == y
  isBar p && isBar q && names p q && names q p

/-- The commits that apply with that of a page: those armed at the same line on the same reference bar, and that of the
BAR page which the page and which itself names as twin. DESIGN CHOICE (log 20): R514 makes two twinned pages apply
together, and their reference bars differ by R39; both are taken when the first of the two bars reaches the line, and
each bar uses its new values from that image line on. -/
def commitGroup (s : State) (p : Nat) : List Nat :=
  if commitAtLine s p then
    headerPages.filter (fun q => q != pgDisp && commitAtLine s q && commitLine s q == commitLine s p &&
      (pageBar s q == pageBar s p || namedTwins s p q))
  else [p]

/-- Adds the commits whose check read the values of a refused commit, as often as there are commits. -/
def refusedClosure (s : State) (g : List Nat) : Nat → List Nat → List Nat
  | 0, bad => bad
  | n + 1, bad => refusedClosure s g n (g.filter (fun p => bad.contains p || (checkReads s p).any bad.contains))

/-! ### Applying -/

/-- Sends the NOZZLE and GROUP items that a commit of staged entries has changed, with its apply line (R263). -/
def sendChanged (old s : State) (b flags n : Nat) : State :=
  (headsOf s b).foldl (fun s h => (List.range (headRows s b h)).foldl (fun s r =>
    let l := headLane s b h
    let ap := n % 65536
    let was := nozzleBodies old b h r ap n ++ [groupBody old b h r ap n]
    let now := nozzleBodies s b h r ap n ++ [groupBody s b h r ap n]
    (now.filter (fun m => !was.contains m)).foldl (fun s m => flnSend s l 2 flags m) s) s) s

/-- The staged entries of a bar take effect (R47), the line-rate limits follow (R239), and the heads are told (R263). -/
def applyStaged (s : State) (b n : Nat) : State :=
  let br := getBar s b
  if br.staging.isEmpty then s
  else
    let s1 := br.staging.foldl (fun s e => wr s (nozzleAddr b e.1) e.2.toNat) (setBar s b { br with staging := [] })
    let s1 := refreshLimits (countN s1 (pgBar b) 12 br.staging.length) b
    if printing s b then sendChanged s s1 b 1 n else sendChanged s s1 b 0 0

/-- What a commit replaces for the lines before its own: words that differ, staged entries, and the status of Drypoint
(R10, R40, R198). -/
def replaced (s : State) (p b : Nat) : List (Nat × Word) :=
  let words := (blockShadows p).filter (fun a => rd s a != cm s a)
  words.map (fun a => (a, BitVec.ofNat 32 (cm s a))) ++
    (if p = pgBar b then (getBar s b).staging.map (fun e => (nozzleAddr b e.1, BitVec.ofNat 32 (rd s (nozzleAddr b e.1)))) else []) ++
    (if p = pgDryp then [(ra p 0x54, BitVec.ofNat 32 (rd s (ra p 0x54)))] else [])

/-- The image line from which the commit of a page applies: its target line, or the build line of its reference bar
(R40, R41). -/
def commitFrom (s : State) (p : Nat) : Int :=
  if commitAtLine s p then
    (if retPass s (pageBar s p) then buildLineI s (pageBar s p) - commitDist s p
     else buildLineI s (pageBar s p) + commitDist s p)
  else buildLineI s (pageBar s p)

/-- Bars whose row-lines a commit of a page changes: the page's own bar, and for DRYP every bar. A commit of LINE keeps
the words of printing bars (R175); it changes those of bars that are stopping. -/
def commitBars (s : State) (p : Nat) : List Nat :=
  if tiedPage p then [pageBar s p]
  else if p = pgDryp ∨ p = pgLine then (List.range 8).filter (fun b => p == pgDryp || barStopping s b)
  else []

/-- Remembers the values before a commit for the row-lines of a pass of bar b, printing or stopping, that lie before its
line. A bar that has already started lines beyond that line takes it from its own build line; of a pass that is stopping
all row-lines have started. -/
def keepPastOf (s : State) (p b : Nat) (n : Int) (br : Bar) : State :=
  if br.printing || br.stopping then
    let n : Int := if br.stopping then (if br.ret then -1 else 2 ^ 48)
      else if before br.ret n (buildLineI s b) then buildLineI s b else n
    let e : PastCommit := { page := p, bar := b, job := br.job, ret := br.ret, line := n, old := replaced s p b }
    { s with print := { s.print with past := e :: s.print.past } }
  else s

/-- Remembers what the commit of a page replaces, and forgets what no row-line lies before any more. -/
def keepPast (s : State) (p : Nat) : State :=
  let n := commitFrom s p
  forgetPast ((commitBars s p).foldl (fun t b => (passesOf s b).foldl (fun t br => keepPastOf t p b n br) t) s)

/-- What a page does once its shadows are committed. -/
def committed (s : State) (p b n : Nat) : State :=
  if p = pgBar b then missLimit (loopCommitted (applyStaged s b n) b) b
  else if p = pgDryp then wr s (ra pgDryp 0x54) (b2n (drypPattern s != 0))
  else if p = pgPlc b then slowSync s
  else s

/-- Applies the commit of one page: all shadows at once, COMMIT_DONE (R43). Row-lines before its line keep the values that
it replaces, also on a twin that has not reached the line (R514). -/
def applyPage (s : State) (p : Nat) : State :=
  let b := pageBar s p
  let n := (commitFrom s p % (2 ^ 48 : Nat)).toNat
  let s := keepPast s p
  committed (commitDone (copyShadows s p) p) p b n

/-- Refuses the commit of one page with a reason (R43); one that is refused with another has no reason of its own. -/
def refusePage (s : State) (x : Nat × Nat) : State :=
  let s := match checkErrOf x.1 with
    | some a => if x.2 = 0 then s else wr s a x.2
    | none => s
  forgetLoop (commitRefused s x.1) x.1

/-- The outcome of a group: each commit is refused by its own check, or by that of a commit it reads (R514). -/
def applyGroup (s : State) (g : List Nat) : State :=
  let cand := g.foldl copyShadows s
  let reason (p : Nat) : Nat := pageCheck s cand p
  let bad := refusedClosure cand g g.length (g.filter (fun p => reason p != 0))
  let s := bad.foldl (fun s p => refusePage s (p, reason p)) s
  (g.filter (fun p => !bad.contains p)).foldl applyPage s

/-- A joining unit whose bars do not print yet applies a commit once the active has reached its line (R356). -/
def commitPassedThere (s : State) (p : Nat) : Bool :=
  !printing s (pageBar s p) && barPasses s (pageBar s p) && s.pair.peerBuild != ones48 &&
    (let d : Int := (s.pair.peerBuild : Int) - commitLine s p
     decide ((if bitOf s.pair.peerBars (8 + pageBar s p) then -d else d) % (2 ^ 32 : Nat) < (2 ^ 31 : Nat)))

/-- The pending commit of a page is due: its line is reached (R40), or, with AT_LINE = 0, the next line or fabric tick
(R41). -/
def commitDue (s : State) (p : Nat) : Bool :=
  if commitAtLine s p then
    commitPassedThere s p || printing s (pageBar s p) && (commitDist s p == 0 || decide (2 ^ 31 ≤ commitDist s p))
  else true

/-- COMMIT_APPLY (R40, R41, R43, R45, R514, R471). -/
def execCommitApply (page : Nat) (s : State) : Host.Outcome State Fault Refusal :=
  .next (if isHeader page = false ∨ commitPending s page = false then s
    else if page = pgDisp then (if dispRunning s then s else dispCommit s)
    else if commitDue s page then applyGroup s (commitGroup s page)
    else s)

end Sys2Proof.Machine
end

