-- ==== Sys2Proof/Machine/Position.lean ====
section
/-! DEFINITION. Web position (06): count edges of quadrature and switch inputs, serial samples, speed, direction,
reversal, index checking, position faults, and the registers that act (R147 to R172). -/

namespace Sys2Proof.Machine

open Sys2Proof

/-- A register of a position channel. -/
def posA (c o : Nat) : Nat := ra (pgPos c) o
def posFilt (s : State) (c : Nat) : Nat := rdf s (posA c 0x40) 15 10

/-! ### Decoding of inputs (R151, R153) -/

/-- Place of the levels A + 2 B in the forward sequence 00, 10, 11, 01 of (A, B) (R151). -/
def quadPlace (lv : Nat) : Nat := if lv = 0 then 0 else if lv = 1 then 1 else if lv = 3 then 2 else 3

/-- Place of the state 4 U + 2 V + W in the forward sequence 100, 110, 010, 011, 001, 101; none for 000 and 111 (R153). -/
def switchPlace (lv : Nat) : Option Nat :=
  if lv = 4 then some 0 else if lv = 6 then some 1 else if lv = 2 then some 2 else if lv = 3 then some 3
  else if lv = 1 then some 4 else if lv = 5 then some 5 else none

/-- The step from one place of a cyclic sequence of n to another: a neighbour, the same, or illegal. -/
def cyclicStep (n x y : Nat) : Option Int :=
  let d := (y + n - x) % n
  if d = 0 then some 0 else if d = 1 then some 1 else if d = n - 1 then some (-1) else none

/-- A channel with new accepted levels; the last legal switch state is remembered (R153). -/
def withLevels (ch : Channel) (u v w : Bool) : Channel :=
  let sw := 4 * b2n u + 2 * b2n v + b2n w
  { ch with
    levels := b2n u + 2 * b2n v + 4 * b2n w
    lastLegal := if (switchPlace sw).isSome then sw else ch.lastLegal }

/-- The count of a change of levels, none for an illegal transition, and the channel with its new levels. -/
def decodeEdge (s : State) (c : Nat) (u v w : Bool) : Option Int × Channel :=
  let ch := getChan s c
  let n := withLevels ch u v w
  if posMode s c = 1 then (cyclicStep 4 (quadPlace (ch.levels % 4)) (quadPlace (n.levels % 4)), n)
  else
    match switchPlace (4 * b2n u + 2 * b2n v + b2n w), switchPlace ch.lastLegal with
    | none, _ => (none, n)
    | some _, none => (some 0, n)
    | some y, some x => (cyclicStep 6 x y, n)

/-! ### Position, direction and high-water mark (R158, R162, R163, R226) -/

/-- DIR after a new position: 2 counts of hysteresis (R162). -/
def newDir (ch : Channel) (p : Int) : Channel :=
  if ch.reverse then
    let m := min ch.dirMark p
    if m + 2 * 65536 ≤ p then { ch with reverse := false, dirMark := p } else { ch with dirMark := m }
  else
    let m := max ch.dirMark p
    if p ≤ m - 2 * 65536 then { ch with reverse := true, dirMark := p } else { ch with dirMark := m }

/-- Moves the position by a number of counts; H and W follow (R163, R226). -/
def moveBy (ch : Channel) (d : Int) : Channel :=
  let p := ch.pos + d * 65536
  newDir { ch with pos := p, high := max ch.high p, low := min ch.low p } p

/-- Keeps the last 256 latches. -/
def keepEdge (ch : Channel) (p : Int) (t : Nat) : Channel := 
  { ch with
    edges := ((p, t) :: ch.edges).take 256
    marks := ((ch.high, ch.low) :: ch.marks).take 256 }

/-! ### Speed (R165, R166) -/

/-- Time from one latch to a later one, in 2^-8 ns. -/
def timeSpan (t0 t1 : Nat) : Nat := (t1 + 2 ^ 48 - t0 % 2 ^ 48) % 2 ^ 48

/-- Magnitude in 2^-16 counts/s of `d` 2^-16 counts in `dt` 2^-8 ns, rounded down. -/
def speedOf (d dt : Nat) : Nat := d * 10 ^ 9 * 256 / dt

/-- POSn.SPD_AVG. -/
def spdAvg (s : State) (c : Nat) : Nat := rdf s (posA c 0x4C) 7 0

/-- The period speed at an edge just latched (R165): over the last n = min(N, e - 1) intervals. -/
def periodSpeed (s : State) (c : Nat) (ch : Channel) : Nat :=
  let n := min (spdAvg s c) (ch.nEdges - 1)
  match ch.edges.head?, ch.edges[n]? with
  | some x, some y =>
    let dt := timeSpan y.2 x.2
    if n = 0 ∨ dt = 0 then ch.perSpeed else speedOf (n * 65536) dt
  | _, _ => ch.perSpeed

/-- Speed of two latches by the window formula (R165). -/
def spanSpeed (x y : Int × Nat) : Nat :=
  let dt := timeSpan x.2 y.2
  if dt = 0 then 0 else speedOf (y.1 - x.1).natAbs dt

/-- The selected speed of an incremental channel with the sign of DIR. -/
def selected (ch : Channel) : Int :=
  let v : Int := if ch.useWindow then ch.winSpeed else ch.perSpeed
  if ch.reverse then -v else v

/-- SPD_XOVER and SPD_HYST. -/
def xover (s : State) (c : Nat) : Nat := rdf s (posA c 0x44) 25 0
def xhyst (s : State) (c : Nat) : Nat := rdf s (posA c 0x48) 23 0

/-- An update of the period speed selects the window method above SPD_XOVER + SPD_HYST (R166). -/
def chooseWindow (s : State) (c : Nat) : State :=
  let ch := getChan s c
  if ch.useWindow = false ∧ (xover s c + xhyst s c) * 65536 < ch.perSpeed then
    ev (setChan s c { ch with useWindow := true }) (pgPos c) 14
  else s

/-- An update of the window speed selects the period method below SPD_XOVER (R166). -/
def choosePeriod (s : State) (c : Nat) : State :=
  let ch := getChan s c
  if ch.useWindow = true ∧ ch.winSpeed < xover s c * 65536 then
    ev (setChan s c { ch with useWindow := false }) (pgPos c) 14
  else s

/-! ### Faults of a channel -/

/-- The bars on a channel have a self-check failure until their next start or catch-up (R353). -/
def markPersistent (s : State) (c : Nat) : State :=
  (barsOn s c).foldl (fun s b => setBar s b { getBar s b with persistent := true }) s

/-- QUAD_ERR: the position stays, live counter 2 counts, and the fault is recorded (R151, R153). -/
def quadErr (s : State) (c : Nat) : State :=
  fault (ev (count (markPersistent s c) (pgPos c) 2) (pgPos c) 11) 0x0501 1 (pgPos c) noBar [c]

/-- POS_FAULT (R172): class C and no further line starts when a bar on the channel prints, else class B. -/
def posFault (s : State) (c : Nat) : State :=
  let bs := barsOn s c
  let s := ev (setChan (markPersistent s c) c { getChan s c with posFault := true }) (pgPos c) 9
  if bs.isEmpty then fault s 0x0503 1 (pgPos c) noBar [c]
  else fault (stopBars s bs) 0x0503 2 (pgPos c) noBar [c]

/-- POSn.REVERSE_LIMIT in 2^-16 counts. -/
def reverseLimit (s : State) (c : Nat) : Int := (rdf s (posA c 0x74) 15 0 * 65536 : Nat)

/-- The distance that R164 and R226 compare with REVERSE_LIMIT. -/
def backDistance (s : State) (c : Nat) : Int :=
  let ch := getChan s c
  if (barsOn s c).any (retPass s) then ch.pos - ch.low else ch.high - ch.pos

/-- REVERSE (R164): the distance exceeds the limit, and did not before (`within`) or REVERSED is not yet set. It is recorded
while bars on the channel print. -/
def reversal (s : State) (c : Nat) (within : Bool) : State :=
  if reverseLimit s c < backDistance s c ∧ (within = true ∨ (getChan s c).reversed = false) then
    let bs := barsOn s c
    let s := setChan s c { getChan s c with reversed := true }
    if bs.isEmpty then s
    else fault (ev (stopBars s bs) (pgPos c) 10) 0x0504 2 (pgPos c) noBar [c]
  else s

/-! ### Count edges (R150, R151, R153, R158) -/

/-- A count of d = 1 or -1 latched at time t. -/
def countEdge (s : State) (c : Nat) (d : Int) (t : Nat) : State :=
  let within := decide (backDistance s c ≤ reverseLimit s c)
  let ch := moveBy (getChan s c) d
  let ch := keepEdge { ch with nEdges := (if ch.still then 0 else ch.nEdges) + 1, still := false, latchT := t } ch.pos t
  let ch := { ch with perSpeed := periodSpeed s c ch }
  let ch := match ch.winFirst with
    | none => { ch with winFirst := some (ch.pos, t) }
    | some _ => { ch with winLast := some (ch.pos, t) }
  let s := chooseWindow (setChan s c ch) c
  let s := setChan s c { getChan s c with speed := selected (getChan s c) }
  let s := count s (pgPos c) (if d = 1 then 0 else 1)
  let s := reversal s c within
  let s := (List.range 8).foldl (fun s b => if (barsOn s c).contains b then lineStarts s b else s) s
  masterEvent s c

/-- COUNT_EDGE: the accepted levels of a channel after the filter, in core tick `phase` of the fabric tick; the latch
time is referred back to the pin (R158). Levels equal to the accepted ones tell of a pulse that the filter rejected: live
counter 7 counts it (R150). -/
def execCountEdge (chan : Nat) (u v w : Bool) (phase : Nat) (s : State) : Host.Outcome State Fault Refusal :=
  let c := chan % 8
  .next (if pgEn s (pgPos c) && incremental s c then
      let x := decodeEdge s c u v w
      let same := x.2.levels == (getChan s c).levels
      let s := ptShowAll s (setChan s c x.2)
      if same then count s (pgPos c) 7
      else match x.1 with
      | none => quadErr s c
      | some d =>
        if d = 0 then s
        else
          let t := (fireNow s + 2 ^ 48 + 256 * (phase % 4) - 256 * (posFilt s c + 3)) % 2 ^ 48
          countEdge s c (if rdb s (posA c 0x40) 3 then -d else d) t
    else ptShowAll s (setChan s c (withLevels (getChan s c) u v w)))

/-- SPEED_WINDOW (R165, R166): a window of SPD_WIN ends; fewer than two edges give no new value. -/
def execSpeedWindow (chan : Nat) (s : State) : Host.Outcome State Fault Refusal :=
  let c := chan % 8
  .next (if pgEn s (pgPos c) && incremental s c then
      let ch := getChan s c
      let t := { ch with winFirst := none, winLast := none }
      match ch.winFirst, ch.winLast with
      | some x, some y => choosePeriod (setChan s c { t with winSpeed := spanSpeed x y }) c
      | _, _ => setChan s c t
    else s)

/-- STILL_TIMEOUT (R167): no edge for STILL_TIMEOUT; the speed is 0. -/
def execStillTimeout (chan : Nat) (s : State) : Host.Outcome State Fault Refusal :=
  let c := chan % 8
  let ch := getChan s c
  .next (if pgEn s (pgPos c) && incremental s c && !ch.still then
      ev (setChan s c { ch with still := true, speed := 0, perSpeed := 0, winSpeed := 0, nEdges := 0 }) (pgPos c) 13
    else s)

/-! ### Index checking (R168 to R171) -/

/-- The deviation of R168 in counts. -/
def indexDeviation (p : Int) (expected rev : Nat) : Int :=
  (p / 65536 % (rev : Int) - expected + (rev / 2 : Nat)) % (rev : Int) - (rev / 2 : Nat)

/-- An index beyond INDEX_TOL (R170, R171). -/
def indexError (s : State) (c : Nat) (d : Int) : State :=
  let s := fault (ev (count s (pgPos c) 4) (pgPos c) 8) 0x0502 1 (pgPos c) noBar [c, twos 32 d]
  let ch := getChan s c
  if rdb s (posA c 0x40) 6 && (barsOn s c).isEmpty then
    let k := d * 65536
    setChan s c { shiftChan ch k with dirMark := ch.dirMark - k, idxErrs := 0 }
  else
    let n := min 255 (ch.idxErrs + 1)
    let s := setChan s c { ch with idxErrs := n }
    if n = rdf s (posA c 0x64) 7 0 ∧ ch.idxErrs < n then posFault s c else s

/-- A qualified index: learned, counted, or checked (R168 to R170). Only the first one since EN or LOAD is learned. -/
def indexSeen (s : State) (c : Nat) : State :=
  let ch := getChan s c
  let s := setChan s c { ch with indexPos := ch.pos / 65536 * 65536, indexed := true }
  let rev := rd s (posA c 0x58)
  if rev = 0 then count s (pgPos c) 3
  else if rdb s (posA c 0x40) 7 && !ch.indexed then
    let r := (ch.pos / 65536 % (rev : Int)).toNat
    count (wr (setChan s c { getChan s c with learned := true }) (posA c 0x5C) r) (pgPos c) 3
  else
    let d := indexDeviation ch.pos (rd s (posA c 0x5C)) rev
    let s := setChan s c { getChan s c with indexDev := d }
    if d.natAbs ≤ rdf s (posA c 0x60) 14 0 then
      count (setChan s c { getChan s c with idxErrs := 0 }) (pgPos c) 3
    else indexError s c d

/-- INDEX (R168 to R171, R394): a rising edge of Z in QUAD mode with Z_EN, qualified by A = B = 1 with Z_GATE. -/
def execIndex (chan : Nat) (s : State) : Host.Outcome State Fault Refusal :=
  let c := chan % 8
  .next (if pgEn s (pgPos c) && posMode s c == 1 && rdb s (posA c 0x40) 4 &&
      (!rdb s (posA c 0x40) 5 || (getChan s c).levels % 4 == 3) then indexHomes (indexSeen s c) c
    else s)

/-! ### Serial channels (R154 to R156) -/

def serial (s : State) (c : Nat) : Bool := posMode s c == 3 || posMode s c == 4
def serLen (s : State) (c : Nat) : Nat := rdf s (posA c 0x68) 5 0

/-- SERIAL_FRAME (R154): MA clocks a frame; its first clock edge gives the latch time. -/
def execSerialFrame (chan : Nat) (s : State) : Host.Outcome State Fault Refusal :=
  let c := chan % 8
  .next (if pgEn s (pgPos c) && serial s c then
      let s := send s (.maClock c (rdf s (posA c 0x68) 15 8))
      count (setChan s c { getChan s c with serOpen := true, serT := fireNow s }) (pgPos c) 5
    else s)

/-- A failed frame (R155). -/
def serialFail (s : State) (c : Nat) : State :=
  let ch := getChan s c
  let n := min 255 (ch.serErrs + 1)
  let s := setChan s c { ch with serOpen := false, serErrs := n }
  let s := ev (count (markPersistent s c) (pgPos c) 6) (pgPos c) 12
  if n = rdf s (posA c 0x68) 23 16 ∧ ch.serErrs < n then posFault s c else s

/-- Binary from Gray code. -/
def grayToBin (n x : Nat) : Nat := (List.range n).foldl (fun a i => a ^^^ (x >>> i)) 0 % 2 ^ n

/-- One step of the CRC of BiSS-C: polynomial x^6 + x + 1, most significant bit first (R154). -/
def bissStep (crc : Nat) (bit : Bool) : Nat :=
  let top := bitOf crc 5 != bit
  (crc * 2 % 64) ^^^ (if top then 3 else 0)

/-- The CRC of LEN data bits, nE and nW, as transmitted: inverted (R154). -/
def bissCrc (len data : Nat) (nE nW : Bool) : Nat :=
  let bits := (List.range len).map (fun i => bitOf data (len - 1 - i)) ++ [nE, nW]
  63 - bits.foldl bissStep 0

/-- A good sample: the unwrapped difference moves the position (R156); speed over the last SPD_AVG + 1 samples. -/
def serialMove (s : State) (c v : Nat) : State :=
  let ch := getChan s c
  let d : Int := match ch.serPrev with
    | some p => signed (serLen s c) ((v + 2 ^ serLen s c - p) % 2 ^ serLen s c)
    | none => 0
  let within := decide (backDistance s c ≤ reverseLimit s c)
  let ch := moveBy ch d
  let ch := keepEdge { ch with serPrev := some v, serOpen := false, serErrs := 0, latchT := ch.serT, still := false } ch.pos ch.serT
  let v : Nat := match ch.edges.head?, ch.edges[min (spdAvg s c) (ch.edges.length - 1)]? with
    | some x, some y => spanSpeed y x
    | _, _ => 0
  let sv : Int := (if ch.reverse then -1 else 1) * Int.ofNat v
  let s := setChan s c { ch with perSpeed := v, speed := sv }
  let s := countN s (pgPos c) (if 0 ≤ d then 0 else 1) d.natAbs
  masterEvent (reversal s c within) c

/-- SERIAL_SAMPLE (R154 to R156): a frame is complete. -/
def execSerialSample (chan : Nat) (f : SerialFrame) (s : State) : Host.Outcome State Fault Refusal :=
  let c := chan % 8
  .next (if pgEn s (pgPos c) && serial s c && (getChan s c).serOpen then
      let biss := posMode s c == 4
      let s := if biss then setChan s c { getChan s c with warn := !f.nW } else s
      let x := f.data % 2 ^ serLen s c
      let ok := f.startOk && (!biss || (f.crc % 64 == bissCrc (serLen s c) x f.nE f.nW && f.nE))
      if ok then serialMove s c (if biss = false ∧ rdb s (posA c 0x68) 6 = true then grayToBin (serLen s c) x else x)
      else serialFail s c
    else s)

/-- SER_TIMEOUT (R155): no start bit in time. -/
def execSerTimeout (chan : Nat) (s : State) : Host.Outcome State Fault Refusal :=
  let c := chan % 8
  .next (if pgEn s (pgPos c) && posMode s c == 4 && (getChan s c).serOpen then serialFail s c else s)

/-! ### Register actions (R149, R160, R161, R172) -/

/-- A bar whose line starts come from the channel prints. -/
def chanPrinting (s : State) (c : Nat) : Bool := !(barsOn s c).isEmpty

/-- LOAD of POS_SET (R161, R163, R226): what has been latched is kept in the new coordinate. -/
def loadPos (s : State) (c : Nat) : State :=
  let ch := getChan s c
  let p := signed 64 (rd64 s (posA c 0x78))
  let d := p - ch.pos
  let mv (x : Int × Nat) : Int × Nat := (x.1 + d, x.2)
  setChan s c { ch with pos := p, high := p, low := p, dirMark := p, reversed := false, learned := false, indexed := false,
                        edges := ch.edges.map mv, marks := ch.marks.map (fun _ => (p, p)), winFirst := ch.winFirst.map mv, winLast := ch.winLast.map mv }

/-- LOAD (R149, R161): a write of POS_CMD.LOAD. -/
def execLoad (_rq : Requester) (chan : Nat) (s : State) : Host.Outcome State Fault Refusal :=
  let c := chan % 8
  .next (refuseIf (chanPrinting s c) s (posA c 0x80) 1 (fun s => loadPos s c))

/-- CLR_FAULT (R149, R172). -/
def execClrFault (_rq : Requester) (chan : Nat) (s : State) : Host.Outcome State Fault Refusal :=
  let c := chan % 8
  .next (refuseIf (chanPrinting s c) s (posA c 0x80) 2 (fun s =>
    setChan s c { getChan s c with posFault := false, idxErrs := 0, serErrs := 0 }))

/-- Address of a word in a requester's captured set (R160). -/
def capKey (rq : Requester) (a : Nat) : Nat := rqKey rq * 2 ^ 24 + a

/-- Captures a word for a requester. -/
def capture (s : State) (rq : Requester) (a v : Nat) : State :=
  { s with captured := tset s.captured (capKey rq a) (BitVec.ofNat 32 v) }

/-- POS_LO_READ (R160, R167): captures the latch for the requester, with the speed in effect at the read. -/
def execPosLoRead (rq : Requester) (chan : Nat) (s : State) : Host.Outcome State Fault Refusal :=
  let c := chan % 8
  let ch := getChan s c
  let v := twos 64 (signedSpeedAt s c (fireNow s))
  .next (if pgClkOn s (pgPos c) then
      let s := capture s rq (posA c 0x8C) (twos 64 ch.pos / 2 ^ 32)
      let s := capture (capture s rq (posA c 0x90) (ch.latchT % 2 ^ 32)) rq (posA c 0x94) (ch.latchT / 2 ^ 32)
      let s := capture (capture s rq (posA c 0x98) (v % 2 ^ 32)) rq (posA c 0x9C) (v / 2 ^ 32)
      answerRead s (rqKey rq) (twos 64 ch.pos)
    else answerRead s (rqKey rq) 0)

end Sys2Proof.Machine
end

