-- ==== Sys2Proof/Machine/Windows.lean ====
section
/-! DEFINITION. Writes of the table windows (R46 to R48): nozzle tables, screens, density sets, band trims, alignment sets
and waveforms, with the sets and banks that a printing bar keeps from being written (R195, R238, R305). -/

namespace Sys2Proof.Machine

open Sys2Proof

/-! ### Nozzle tables (R46, R47, R238) -/

/-- A write of a nozzle table entry: refused when its WSET fails the checks of R238, staged on a printing bar. -/
def nozzleTable (s : State) (b c v : Nat) : State :=
  if setOk s (nzWset v) (drop4 s b) then
    (let s := nozzleWrite s b c v
     if barPasses s b then s else missLimit s b)
  else refuse s (pgBar b)

/-- NOZZLE_TABLE_WRITE (R46, R47, R238). -/
def execNozzleTableWrite (_rq : Requester) (bar col : Nat) (val : Word) (s : State) : Host.Outcome State Fault Refusal :=
  .next (nozzleTable s (bar % 8) (col % 131072) val.toNat)

/-! ### Selections that are still in use (R48, R195) -/

/-- Density set k is selected (R48, R193). -/
def densitySelected (s : State) (b k : Nat) : Bool := selects s b (ra (pgBar b) 0x44) (fun v => v % 16) k false

/-- Band trim bank j (R195): the bank that a printing bar uses, for the lines to build. -/
def bankUsed (s : State) (b j : Nat) : Bool :=
  let a := ra (pgBar b) 0x54
  printing s b && (cm s a % 2 == j || oldSelects s b a (fun v => v % 2) j false)

/-- Stores a word of a table window unless a bar of the list keeps it. -/
def windowStore (s : State) (bs : List Nat) (a v : Nat) : State :=
  if bs.isEmpty then wr s a (v &&& tableMask s a) else refuseBars s bs

/-! ### Band trims (R194, R195, R305) -/

/-- A write of a band trim: refused on LOOP while the loop rules the bar, on BAR for the bank in use. -/
def bandTrimStore (s : State) (rq : Requester) (b j k v : Nat) : State :=
  if pgEn s pgLoop && bitOf (rdf s (ra pgLoop 0x40) 15 8) b && rq != .core 1 then refuse s pgLoop
  else if bankUsed s b j then refuse s (pgBar b)
  else wr s (trimAddr b j k) (v % 4096)

/-- BAND_TRIM_WRITE (R194, R195, R305). -/
def execBandTrimWrite (rq : Requester) (bar bank band : Nat) (val : Word) (s : State) :
    Host.Outcome State Fault Refusal :=
  .next (bandTrimStore s rq (bar % 8) (bank % 2) (band % 2048) val.toNat)

/-! ### Waveforms (R231, R234, R238) -/

/-- Printing bars that use a waveform. -/
def waveBars (s : State) (w : Nat) : List Nat :=
  (List.range 8).filter (fun b =>
    printing s b && ((setsInUse s b).flatMap (fun k => setWaves s k (drop4 s b))).contains w)

/-- A write of a waveform that is not in use clears its VALID bit (R234). -/
def waveStore (s : State) (w a v : Nat) : State :=
  match waveBars s w with
  | [] => wr (wr s a (v &&& windowMask a)) (ra pgWave 0x80) (rd s (ra pgWave 0x80) &&& (0xFFFFFFFF ^^^ 2 ^ w))
  | b :: r => refuseBars s (b :: r)

/-! ### The whole window (R46) -/

/-- A write of a word of the table windows. -/
def windowWrite (s : State) (rq : Requester) (a v : Nat) : State :=
  let bars := List.range 8
  if windowMask a = 0 ∨ a % 4 ≠ 0 then s
  else if a < 0x800000 then nozzleTable s ((a - 0x400000) / 0x80000) ((a - 0x400000) / 4 % 131072) v
  else if a < 0xC00000 then windowStore s (bars.filter (fun b => printing s b && b == (a - 0x800000) / 0x80000)) a v
  else if a < 0xC20000 then
    windowStore s (bars.filter (fun b => densitySelected s b ((a - 0xC00000) / 0x2000))) a v
  else if a < 0xC60000 then
    bandTrimStore s rq ((a - 0xC40000) / 0x4000) ((a - 0xC40000) / 0x2000 % 2) ((a - 0xC40000) / 4 % 2048) v
  else if a < 0xC90000 then
    windowStore s (bars.filter (fun b => alignSelected s b ((a - 0xC80000) / 0x1000))) a v
  else waveStore s ((a - 0xD00000) / 0x800) a v

/-- TABLE_WINDOW_WRITE (R46, R48, R193, R195, R222, R231, R238). -/
def execTableWindowWrite (rq : Requester) (addr : Nat) (val : Word) (s : State) : Host.Outcome State Fault Refusal :=
  .next (windowWrite s rq addr val.toNat)

end Sys2Proof.Machine
end

