-- ==== Sys2Proof/Machine/RegRead.lean ====
section
/-! DEFINITION. Reads of the register window (R6, R25, R28, R33, R34, R36 to R38, R54, R160): the header words, the read-only
words that show the state of the engines, counters with the high-word latch, and captured sets. -/

namespace Sys2Proof.Machine

open Sys2Proof

/-! ### Words that show engine state -/

/-- A word of a 512-bit array: bit i is `f (32 w + i)`. -/
def maskWord (f : Nat → Bool) (w : Nat) : Nat :=
  (List.range 32).foldl (fun v i => if f (32 * w + i) then v + 2 ^ i else v) 0

/-- Low or high word of a signed 64-bit value. -/
def halfOf (x : Int) (hi : Bool) : Nat := if hi then twos 64 x / 2 ^ 32 else twos 64 x % 2 ^ 32

/-- SYS: FLOG_SEQ and FLOG_DATA (R482, R487). -/
def sysView (s : State) (o v : Nat) : Nat :=
  if o = 0x60 then s.sys.seq % 2 ^ 32
  else if 0x100 ≤ o ∧ o < 0x140 then
    (match (s.sys.ramLog ++ s.sys.nvLog).find? (fun r => r.seq % 2 ^ 32 == rd s (ra pgSys 0x64)) with
     | some r => bytesAt (recordBytes r) (o - 0x100) 4
     | none => 0)
  else v

/-- CLK: PSTATE and PLL_STAT (R418, R420). -/
def clkView (s : State) (o v : Nat) : Nat :=
  if o = 0x40 then 16 * pstateShown s else if o = 0x54 then pllStat s else v

/-- THM: STAT and TEMPs (R432, R434). -/
def thmView (s : State) (o v : Nat) : Nat :=
  if o = 0x50 then thermalStat s
  else if 0x100 ≤ o ∧ o < 0x160 then tempWord s ((o - 0x100) / 4)
  else v

/-- EVC: RAW, PEND, EN, ACTIVE, PEND_SET, PEND_CLR, EN_SET, EN_CLR (R405, R406, R408). -/
def evcView (s : State) (o v : Nat) : Nat :=
  if o < 0x80 then maskWord (fun i => sourceExists i && rawLevel s i) ((o - 0x40) / 4)
  else if o < 0x140 then maskWord (pendOf s) ((o - 0x80) % 0x40 / 4)
  else if o < 0x200 then maskWord (bitOf s.evc.en) ((o - 0x140) % 0x40 / 4)
  else if o < 0x240 then maskWord (bitOf s.evc.active) ((o - 0x200) / 4)
  else v

/-- EVC: TGTt.TOP (R407). -/
def topView (s : State) (o v : Nat) : Nat :=
  let t := (o - 0x40) / 16
  let best := bestSource s t
  if o % 16 = 0xC then best + (if best = 0 then 0 else 65536 * prioOf s best) + 2 ^ 24 * b2n (flagOf s t) else v

/-- PIN: GPIO_OUT_SET, GPIO_OUT_CLR and GPIO_IN (R53): the driven level of a pin that the unit drives, the accepted level
of every other. -/
def pinView (s : State) (o v : Nat) : Nat :=
  let out := rd s (ra pgPin 0x208)
  if o = 0x20C ∨ o = 0x210 then out
  else if o = 0x214 then ((gpioDrive s).2 &&& (gpioDrive s).1) ||| (s.evc.gpio &&& (0xFFFFFFFF ^^^ (gpioDrive s).1))
  else v

/-- GSH: SESS_OPEN (R66). -/
def gshView (s : State) (o v : Nat) : Nat :=
  if o = 0x74 then maskWord (fun n => decide (n ≤ 16) && (getSession s n).state != 0) 0 else v

/-- FIRN: FREE, in whole MiB (R511). -/
def firnView (s : State) (o v : Nat) : Nat := if o = 0x68 then storeFree s / 2 ^ 20 else v

/-- JRN: STAT (R80). -/
def jrnView (s : State) (o v : Nat) : Nat :=
  if o = 0x40 then putField (putField v 8 0 s.host.journal.length) 16 16 (b2n (decide (256 ≤ s.host.journal.length)))
  else v

/-- PTC: STAT, the press time, and the latencies of the ports (R316, R320, R332). -/
def ptcView (s : State) (o v : Nat) : Nat :=
  if o = 0x44 then s.clk.state + 256 * b2n s.clk.jump + 512 * b2n s.clk.stepBusy
  else if o = 0x58 then s.clk.frac % 2 ^ 32
  else if o = 0x5C then s.clk.ns
  else if o = 0x60 then s.clk.sec % 2 ^ 32
  else if o = 0x64 then s.clk.sec / 2 ^ 32 % 65536
  else if 0xA0 ≤ o ∧ o < 0xB0 then latency s ((o - 0xA0) / 4)
  else v

/-- POS: STAT, the latch, the high-water mark and the last index (R160, R162, R163, R168). -/
def posView (s : State) (c o v : Nat) : Nat :=
  let ch := getChan s c
  let speed := signedSpeedAt s c (fireNow s)
  if o = 0x84 then
    b2n ch.reverse + 2 * b2n ch.useWindow + 4 * b2n ch.still + 8 * b2n ch.posFault + 16 * b2n ch.reversed +
      32 * b2n ch.warn + 256 * (ch.idxErrs % 256) + 65536 * b2n ch.learned
  else if o = 0x88 ∨ o = 0x8C then halfOf ch.pos (o == 0x8C)
  else if o = 0x90 then ch.latchT % 2 ^ 32
  else if o = 0x94 then ch.latchT / 2 ^ 32 % 65536
  else if o = 0x98 ∨ o = 0x9C then halfOf speed (o == 0x9C)
  else if o = 0xA0 ∨ o = 0xA4 then halfOf ch.high (o == 0xA4)
  else if o = 0xA8 ∨ o = 0xAC then halfOf ch.indexPos (o == 0xAC)
  else if o = 0xB0 then twos 32 ch.indexDev
  else v

/-- LINE: LSTATb (R181). -/
def lineView (s : State) (o v : Nat) : Nat :=
  if 0x140 ≤ o ∧ o < 0x160 then
    let br := getBar s ((o - 0x140) / 4)
    b2n br.printing + 2 * b2n br.armed + 4 * b2n br.sheet
  else v

/-- The second page of a bar: STAGED (R47). -/
def barView (s : State) (b o v : Nat) : Nat := if o = 0x48 then (getBar s b).staging.length else v

/-- WAVE: IN_USE (R238). -/
def waveView (s : State) (o v : Nat) : Nat :=
  if o = 0x90 then maskWord (waveInUse s) 0 else v

/-- FLN and PRL: what the lane knows of its partner (R253, R256, R258, R262, R273, R276, R341). -/
def laneView (s : State) (l o v : Nat) : Nat :=
  let ln := getLane s l
  if o = 0x44 then
    ln.rate % 4 + 16 * b2n ln.delayValid + 65536 * (ln.fom % 256) +
      (if l < 48 then 32 * b2n (planMatches s l) + 64 * b2n ln.accepted + 2 ^ 24 * (ln.pfom % 256) else 0)
  else if o = 0x48 then 256 * (ln.verMinor % 256) + 65536 * (ln.verMajor % 256) + 2 ^ 24 * (ln.rates % 16) + 2 ^ 28 * (ln.kind % 16)
  else if o = 0x4C then ln.serial % 2 ^ 32
  else if o = 0x50 then ln.serial / 2 ^ 32 % 2 ^ 32
  else if 0x60 ≤ o ∧ o < 0x80 then
    (match ln.slots[(o - 0x60) / 4]? with
     | some x => if x.2 = 0 then 0 else x.2 % 8192 + 8192 * ((x.1 - 1) % 8) + 2 ^ 31
     | none => 0)
  else if o = 0x80 then twos 32 ln.delay
  else if o = 0x8C then ln.ioIn % 2 ^ 32
  else if o = 0x90 then ln.setup % 4096
  else v

/-- FLNG: CLAIM and UP (R251, R270). -/
def flngView (s : State) (o v : Nat) : Nat :=
  if o = 0x40 then claimWord s
  else if o = 0x74 then maskWord (laneActive s) 0
  else if o = 0x78 then maskWord (laneActive s) 1 % 65536
  else v

/-- ISP: BUSY (R286). -/
def ispView (s : State) (o v : Nat) : Nat :=
  if o = 0x4C then (match s.cams.busy with
    | some x => 8 + x.1 % 8
    | none => 0)
  else v

/-- LOOP: STAT and MISSING (R296, R314). -/
def loopView (s : State) (o v : Nat) : Nat :=
  if o = 0x70 then
    putField v 15 8 (maskWord (fun b => decide (b < 8) && s.cams.armed.any (fun e => e.1 == b) && commitPending s (pgBar b)) 0)
  else if 0xA0 ≤ o ∧ o < 0xC0 then missingCount s ((o - 0xA0) / 4)
  else v

/-- PAIR: STAT (R345, R361, R368). -/
def pairView (s : State) (o v : Nat) : Nat :=
  let p := s.pair
  if o = 0x44 then
    p.role + 16 * b2n (unitA s) + 256 * b2n (pairLink s) + 512 * b2n p.soloWait + 1024 * b2n p.switchPending +
      2048 * b2n p.verified + 65536 * (p.peerRole % 16) + 2 ^ 20 * (p.joinStep % 16)
  else v

/-- AX: positions, STAT and DEV (R380, R381, R391). -/
def axView (s : State) (n o v : Nat) : Nat :=
  let x := getAxis s n
  if o = 0x68 ∨ o = 0x6C then halfOf x.cmd (o == 0x6C)
  else if o = 0x70 ∨ o = 0x74 then halfOf x.act (o == 0x74)
  else if o = 0xD4 then
    b2n x.busy + 2 * b2n x.lastNeg + 4 * b2n x.atTarget + 8 * b2n x.homed + 16 * b2n x.geared + 32 * b2n x.pend +
      64 * b2n x.limP + 128 * b2n x.limN + 256 * b2n x.homeIn + 512 * b2n x.stalled + 1024 * b2n x.backlog
  else if o = 0xD8 then twos 32 (ssatN 32 (axDev s n))
  else if (o = 0x60 ∨ o = 0x64) ∧ x.waiting = 0 then halfOf (twos 48 x.target : Nat) (o == 0x64)
  else v

/-- A host snapshot is on its way: a SNAPSHOT command that waits, or an input of the pair (R55, R56). -/
def snapAsked (s : State) : Bool :=
  s.host.journal.any (fun x => x.2.waiting && eOpcode x.2.entry == 0x38) || s.pair.inputs.any (fun i => i.kind == 8)

/-- A word of the block registers of page `p`, where the state of an engine shows in it; `v` is the stored word. -/
def blockView (s : State) (p o v : Nat) : Nat :=
  if p = pgSys then sysView s o v
  else if p = pgClk then clkView s o v
  else if p = pgThm then thmView s o v
  else if p = pgEvc then evcView s o v
  else if p = 0x08 then topView s o v
  else if p = pgPin then pinView s o v
  else if p = pgGsh then gshView s o v
  else if p = pgJrn then jrnView s o v
  else if p = pgFirn then firnView s o v
  else if p = pgPtc then ptcView s o v
  else if 0x40 ≤ p ∧ p < 0x48 then posView s (p - 0x40) o v
  else if p = pgLine then lineView s o v
  else if 0x50 ≤ p ∧ p < 0x60 ∧ p % 2 = 1 then barView s ((p - 0x50) / 2) o v
  else if p = pgWave then waveView s o v
  else if 0x70 ≤ p ∧ p < 0xA0 then laneView s (p - 0x70) o v
  else if p = pgFlng then flngView s o v
  else if 0xA8 ≤ p ∧ p < 0xAC then laneView s (p - 0xA8 + 48) o v
  else if p = pgIsp then ispView s o v
  else if p = pgLoop then loopView s o v
  else if p = pgPair then pairView s o v
  else if 0xC8 ≤ p ∧ p < 0xD8 then axView s (p - 0xC8) o v
  else if p = pgDisp ∧ o = 0x60 then dispStat s
  else if p = pgDrg ∧ o = 0x78 then drgSize s
  else if p = pgRime ∧ o = 0x40 then
    (v &&& 0xA) + 4 * b2n (!s.snapWait.isEmpty || snapAsked s) + b2n (s.snapWait.contains 0 || snapAsked s)
  else v

/-! ### The common header (R28, R54) -/

/-- PG_STAT.STATE of a page, as its chapter defines it; 0 where it defines none. -/
def pageState (s : State) (p : Nat) : Nat :=
  if p = pgSys then s.sys.bootState
  else if p = pgClk then pstateShown s
  else if p = pgPtc then s.clk.state
  else if 0x40 ≤ p ∧ p < 0x48 then
    let ch := getChan s (p - 0x40)
    if ch.posFault then 3 else if pgEn s p = false ∨ rdf s (ra p 0x40) 2 0 = 0 then 0 else if ch.still then 2 else 1
  else if 0x50 ≤ p ∧ p < 0x60 then
    let br := getBar s ((p - 0x50) / 2)
    if br.printing then 1 else if barStopping s ((p - 0x50) / 2) then 2 else 0
  else if 0x60 ≤ p ∧ p < 0x68 then (getBar s (p - 0x60)).ovs
  else if 0x70 ≤ p ∧ p < 0xA0 then (getLane s (p - 0x70)).state
  else if 0xA8 ≤ p ∧ p < 0xAC then (getLane s (p - 0xA8 + 48)).state
  else if p = pgPair then s.pair.role
  else if 0xC8 ≤ p ∧ p < 0xD8 then axState s (p - 0xC8)
  else if p = pgDisp then s.disp.state
  else 0

/-- Block bits of EV_PEND that a page defines, with its common bits. -/
def evMask (p : Nat) : Nat :=
  let upTo (n : Nat) : Nat := 2 ^ (n + 1) - 1 - 128
  if p = pgSys then upTo 12 + 128
  else if p = pgClk ∨ p = pgTrim then upTo 10
  else if p = pgThm ∨ p = pgMon then upTo 11
  else if p = pgEvc ∨ p = pgNvm ∨ p = pgGsh ∨ p = pgThaw then upTo 8
  else if p = pgPtc ∨ p = pgFirn ∨ p = pgDrg then upTo 13
  else if 0x40 ≤ p ∧ p < 0x48 then upTo 14
  else if p = pgLine then upTo 23
  else if 0x50 ≤ p ∧ p < 0x60 then upTo 10
  else if 0x60 ≤ p ∧ p < 0x68 then upTo 13
  else if p = pgWave ∨ p = pgDryp then upTo 10
  else if 0x70 ≤ p ∧ p < 0xA0 then upTo 14
  else if 0xB0 ≤ p ∧ p < 0xB4 then upTo 10
  else if p = pgIsp then upTo 12
  else if p = pgLoop then upTo 15
  else if p = pgPair ∨ p = pgDisp then upTo 16
  else if 0xC8 ≤ p ∧ p < 0xD8 then upTo 18
  else if p = pgCmp then upTo 10
  else 127

/-- PG_ID (R27, R28). -/
def pageId (i : PageInfo) (p : Nat) : Nat := 65536 * i.type + 256 * i.inst + (if i.header = p then 1 else 2)

/-- PG_STAT (R28, R33). -/
def pageStat (s : State) (p : Nat) : Nat :=
  16 * (pageState s p % 16) + 4 * b2n (bitOf (evPend s p) 3) + 2 * b2n (pgClkOn s p) + b2n (pgEn s p && pgClkOn s p)

/-- The present state of the standing conditions of a page's events (R54), as a list of bits. DESIGN CHOICE (log 22): the
events of which the state keeps the condition are these; every other event is over when it has been raised, and shows 0. -/
def rawConds (s : State) (p : Nat) : List (Nat × Bool) :=
  let lane (l : Nat) : List (Nat × Bool) :=
    let ln := getLane s l
    [(8, ln.state == 6), (9, ln.state != 6), (10, ln.state == 8), (11, ln.degraded), (12, ln.lost.isSome),
     (13, ln.refused), (14, isActive s && ln.state == 6 && !ln.accepted)]
  if p = pgSys then [(12, s.sys.bootState == 5)]
  else if p = pgClk then [(10, s.power.rc)]
  else if p = pgThm then
    [(8, s.power.level != 0), (9, s.power.stop != 0), (10, s.power.sensors.any (fun e => e.2.failed)),
     (11, s.power.sensors.any (fun e => e.2.hotSeen))]
  else if p = pgMon then
    [(8, s.power.rails.any (fun e => e.2.warned)), (9, s.power.rails.any (fun e => e.2.critical)), (10, s.power.avsHeld)]
  else if p = pgPtc then
    [(8, s.clk.jump), (9, s.clk.state == 3), (10, s.clk.state == 4), (12, srcPtp s && s.clk.best.isNone), (13, s.clk.pairBeyond)]
  else if 0x40 ≤ p ∧ p < 0x48 then
    let ch := getChan s (p - 0x40)
    [(9, ch.posFault), (10, ch.reversed), (13, ch.still)]
  else if 0x50 ≤ p ∧ p < 0x60 then [(8, decide (1024 ≤ (getBar s ((p - 0x50) / 2)).staging.length))]
  else if 0x60 ≤ p ∧ p < 0x68 then
    let br := getBar s (p - 0x60)
    [(8, br.ovs == 1), (9, br.ovs == 2), (10, br.ovs == 3), (11, br.skip.isSome)]
  else if 0x70 ≤ p ∧ p < 0xA0 then lane (p - 0x70)
  else if p = pgPair then [(9, s.pair.hbLost), (13, s.pair.role == 6)]
  else if 0xC8 ≤ p ∧ p < 0xD8 then
    let x := getAxis s (p - 0xC8)
    [(8, x.atTarget), (11, x.limP || x.limN), (13, x.stalled)]
  else []

/-- EV_RAW of a page (R54). -/
def evRaw (s : State) (p : Nat) : Nat := (rawConds s p).foldl (fun v x => v ||| 2 ^ x.1 * b2n x.2) 0

/-- A word of the header of a header page (R5, R28, R54). -/
def headerRead (s : State) (p o : Nat) : Nat × State :=
  if o = 4 ∨ o = 8 ∨ o = 0xC then ((Config.blockInfo p o).toNat, s)
  else if o = 0x14 then (pageStat s p, s)
  else if o = 0x20 then (evRaw s p &&& evMask p, s)
  else if o = 0x28 then (evPend s p, s)
  else if o = 0x30 ∨ o = 0x34 then (rd s (ra p 0x2C), s)
  else if o = 0x38 then (0x100 + p, s)
  else (rd s (ra p o), s)

/-! ### Counters, latches and captured sets (R36, R37, R160) -/

/-- Sets the high-word latch of a requester (R26, R36). -/
def setLatch (s : State) (rq : Requester) (v : Nat) : State := { s with latches := tset s.latches (rqKey rq) (v % 2 ^ 32) }

def latchOf (s : State) (rq : Requester) : Nat := tget (fun _ => 0) s.latches (rqKey rq)

/-- A live counter or its Rime copy. -/
def counterOf (s : State) (p k : Nat) (rime : Bool) : Nat :=
  if rime then tget (fun _ => 0) s.rime (128 * p + k) else counter s p k

/-- A read of a counter word (R36): the low word captures the high word. -/
def counterRead (s : State) (rq : Requester) (p k : Nat) (rime high : Bool) : Nat × State :=
  let c := counterOf s p k rime
  if (pageInfo p).isNone || !pgClkOn s p then (0, s)
  else if high then (latchOf s rq, s)
  else (c % 2 ^ 32, setLatch s rq (c / 2 ^ 32))

/-- COUNTER_LOW_READ (R36). -/
def execCounterLowRead (rq : Requester) (page k : Nat) (rime : Bool) (s : State) : Host.Outcome State Fault Refusal :=
  let x := counterRead s rq (page % 256) (k % 128) rime false
  .next (answerRead x.2 (rqKey rq) x.1)

/-- COUNTER_HIGH_READ (R36). -/
def execCounterHighRead (rq : Requester) (page k : Nat) (rime : Bool) (s : State) : Host.Outcome State Fault Refusal :=
  let x := counterRead s rq (page % 256) (k % 128) rime true
  .next (answerRead x.2 (rqKey rq) x.1)

/-- The word that a requester has captured at an address. -/
def capturedWord (s : State) (rq : Requester) (a : Nat) : Nat := (tget (fun _ => 0#32) s.captured (capKey rq a)).toNat

/-- Words that show a captured set (R160, and TIME_FRAC in 11). -/
def isCaptured (p o : Nat) : Bool :=
  (decide (0x40 ≤ p) && decide (p < 0x48) && [0x8C, 0x90, 0x94, 0x98, 0x9C, 0xA4, 0xAC].contains o) ||
    (p == pgPtc && [0x5C, 0x60, 0x64].contains o)

/-- A read of the first word of a set captures the others. -/
def captureSet (s : State) (rq : Requester) (p o : Nat) : State :=
  let set : List Nat :=
    if 0x40 ≤ p ∧ p < 0x48 then
      (if o = 0x88 then [0x8C, 0x90, 0x94, 0x98, 0x9C] else if o = 0xA0 then [0xA4] else if o = 0xA8 then [0xAC] else [])
    else if p = pgPtc ∧ o = 0x58 then [0x5C, 0x60, 0x64]
    else []
  set.foldl (fun t x => capture t rq (ra p x) (blockView s p x 0)) s

/-! ### Table ports of ISP and LOOP -/

/-- The next index of ISP.TBL_ADDR. -/
def ispAdvance (s : State) : State := wrf s (ra pgIsp 0x40) 15 0 (rdf s (ra pgIsp 0x40) 15 0 + 1)

/-- Bits that an ISP table word has; 0 for an unlisted index. -/
def ispMask (i : Nat) : Nat :=
  if i < 5 ∨ (8 ≤ i ∧ i < 0xD) then 0x3FFF
  else if (0x10 ≤ i ∧ i < 0x24) ∨ (0x28 ≤ i ∧ i < 0x2C) then 0xFFFF
  else if 0x40 ≤ i ∧ i < 0xBD then 0xFFF
  else if 0x100 ≤ i ∧ i < 0x100 + 1485 then 0xFFFF
  else 0

/-- A read of ISP.TBL_DATA. -/
def ispTableRead (s : State) : Nat × State :=
  let i := rdf s (ra pgIsp 0x40) 15 0
  ((if ispMask i = 0 then 0 else ispWord s (rdf s (ra pgIsp 0x40) 18 16) i), ispAdvance s)

/-- The next index of LOOP.TBL_ADDR. -/
def loopAdvance (s : State) : State := wrf s (loopA 0x68) 10 0 (rdf s (loopA 0x68) 10 0 + 1)

/-- A read of LOOP.TBL_DATA: AIM, last Dm or last De with N saturated at 255. -/
def loopTableRead (s : State) : Nat × State :=
  let sec := rdf s (loopA 0x68) 18 16
  let b := rdf s (loopA 0x68) 13 11
  let i := rdf s (loopA 0x68) 10 0
  let pairOf (t : Tab (Nat × Nat)) : Nat :=
    let x := tget (fun _ => (0, 0)) t (2048 * b + i)
    x.1 % 65536 + 65536 * min 255 x.2
  let v := if sec = 0 then (if i < 256 then tget (fun _ => 0) s.cams.aim (256 * b + i) % 65536 else 0)
    else if sec = 1 then pairOf s.cams.lastDm
    else if sec = 2 then pairOf s.cams.lastDe
    else 0
  (v, loopAdvance s)

/-! ### One read -/

/-- What PAIR.COPY_LEFT, CAM.STAT and the present line in DISP.STAT show is a free value within their bits. -/
def freeMask (s : State) (p o : Nat) : Nat :=
  if p = pgPair ∧ o = 0x9C then (if s.pair.joinStep = 3 then 0x3FFFF else 0)
  else if 0xB0 ≤ p ∧ p < 0xB4 ∧ o = 0x44 then (if pgEn s p then 0x3F else 0)
  else if p = pgDisp ∧ o = 0x60 then (if dispRunning s then 0xFFFF0000 else 0)
  else 0

/-- A read of a word that a register map defines, of a clocked block. -/
def blockRead (s : State) (rq : Requester) (p o : Nat) (r : RegSpec) : Nat × State :=
  let a := ra p o
  if p = 0x08 ∧ o % 16 = 0 then claimRead s rq ((o - 0x40) / 16)
  else if p = pgIsp ∧ o = 0x44 then ispTableRead s
  else if p = pgLoop ∧ o = 0x6C then loopTableRead s
  else if isCaptured p o then (capturedWord s rq a, s)
  else if r.half = 1 then (rd s a, setLatch s rq (rd s (a + 4)))
  else if r.half = 2 then (latchOf s rq, s)
  else if r.rc ≠ 0 then (rd s a, wr s a (rd s a &&& (0xFFFFFFFF ^^^ r.rc)))
  else
    let m := freeMask s p o
    let v := blockView s p o (rd s a)
    if m = 0 then (v, captureSet s rq p o)
    else
      let x := drawFree s 32
      (v ||| (x.1 &&& m), x.2)

/-- A read of an aligned word of the register window (R6, R25, R33, R46): the value, and the state after it. -/
def readReg (s : State) (rq : Requester) (a : Nat) : Nat × State :=
  let p := a / 4096
  let o := a % 4096
  if a % 4 ≠ 0 then (0, s)
  else if 0x400000 ≤ a then (rd s a &&& tableMask s a, s)
  else match pageInfo p with
    | none => (0, s)
    | some i =>
      if o = 0 then (pageId i p, s)
      else if o < 0x40 then (if i.header = p then headerRead s p o else (0, s))
      else if pgClkOn s p = false then (0, s)
      else if 0x800 ≤ o then counterRead s rq p ((o - 0x800) % 0x400 / 8) (decide (0xC00 ≤ o)) (o % 8 == 4)
      else match regSpec a with
        | none => (0, s)
        | some r => blockRead s rq p o r

/-- In STATE 6 the boot ROM serves only the SYS page over BAR0, and that only with the strap PCIE_EN (R479). -/
def romOnly (s : State) (p : Nat) : Bool := s.sys.bootState == 6 && !(p == pgSys && rdb s (ra pgSys 0x4C) 3)

/-- A read of the PCIe function (R34, R479): of fewer than four bytes, those bytes of the aligned word that `byteEn` names. -/
def pcieRead (s : State) (a : Nat) (byteEn : BitVec 4) : List (Option Byte) × State :=
  let x := if romOnly s (a / 4096) then (0, s) else readReg s .pcie (a - a % 4)
  ((List.range 4).map (fun i => if byteEn.getLsbD i then some (BitVec.ofNat 8 (x.1 / 2 ^ (8 * i))) else none), x.2)

end Sys2Proof.Machine
end

