-- ==== Sys2Proof/Machine/RegWrite.lean ====
section
/-! DEFINITION. Writes of the register pages: the header words (R28, R32, R40 to R44, R54), ownership (R49 to R52), the GPIO
pins (R53), snapshot triggers (R55, R56), and the block registers whose writes a rule refuses or gives an effect. -/

namespace Sys2Proof.Machine

open Sys2Proof

/-- The state that a command which always completes leaves. -/
def taken (s : State) (o : Host.Outcome State Fault Refusal) : State :=
  match o with
  | .next t => t
  | _ => s

/-! ### The common header (R28, R54) -/

/-- A write of PG_CTRL (R28, R31, R32): refused as a whole when a printing bar keeps EN or the block. -/
def ctrlWord (s : State) (p v : Nat) : State :=
  let reset := bitOf v 1
  if ctrlRefused s p (bitOf v 0) || (reset && (pageInUse s p || (p == pgSys && anyPrinting s))) then refuse s p
  else
    let s := blockEnable s p (bitOf v 0) (bitOf v 2)
    if reset then srst s p else s

/-- A write of PG_COMMIT (R40 to R44). AT_LINE is stored by every write but one that sets both CANCEL and ARM; the line
and the AT_LINE of a pending commit stay those of its ARM. -/
def commitWord (s : State) (p v : Nat) : State :=
  if bitOf v 4 && bitOf v 0 then refuse s p
  else
    let s := if bitOf v 3 then wrf s (ra p 0x18) 3 3 0 else s
    let s := if bitOf v 4 then commitCancel s p else if bitOf v 0 then commitArm s p (bitOf v 1) else s
    wrf s (ra p 0x18) 1 1 (b2n (bitOf v 1))

/-- A write of EV_SET (R54): for test, the bits that the page defines. -/
def evSet (s : State) (p v : Nat) : State := evBits s p (v &&& evMask p)

/-- A write of EV_EN_SET or EV_EN_CLR (R54). -/
def evEnable (s : State) (p v : Nat) (on : Bool) : State :=
  let old := rd s (ra p 0x2C)
  notify (wr s (ra p 0x2C) (if on then old ||| (v &&& evMask p) else old &&& (0xFFFFFFFF ^^^ v))) (0x100 + p)

/-- A write of a header word; RO words and the RZ words of continuation pages take nothing. -/
def headerWrite (s : State) (p o v : Nat) : State :=
  if isHeader p = false then s
  else if o = 0x10 then ctrlWord s p v
  else if o = 0x18 then commitWord s p v
  else if o = 0x1C then wr s (ra p 0x1C) v
  else if o = 0x24 then wr s (ra p 0x24) (evPend s p &&& (0xFFFFFFFF ^^^ v))
  else if o = 0x28 then evSet s p v
  else if o = 0x30 then evEnable s p v true
  else if o = 0x34 then evEnable s p v false
  else s

/-- EV_SET_WRITE (R54). -/
def execEvSetWrite (_rq : Requester) (page : Nat) (val : Word) (s : State) : Host.Outcome State Fault Refusal :=
  .next (if isHeader page then evSet s page val.toNat else s)

/-! ### Ownership (R49 to R52) -/

/-- PIN.OWN_* of resource r: ENC4 to ENC7, then CMP0 to CMP31, then THAW0 to THAW23. -/
def ownAddr (r : Nat) : Nat :=
  if r < 4 then ra pgPin (0x40 + 4 * r) else if r < 36 then ra pgPin (0x80 + 4 * (r - 4)) else ra pgPin (0x100 + 4 * (r - 36))

/-- The page of the function that a code names for a resource: the channel or the axis of an ENC group, CMP or ISP for a
compare unit, THAW for an engine (R50). -/
def claimant (r code : Nat) : Nat :=
  if r < 4 then (if code = 1 then pgPos (r + 4) else pgAx (r + 12))
  else if r < 36 then (if code = 2 then pgIsp else pgCmp)
  else pgThaw

/-- A write of OWNER: a claim, or a release while IN_USE is 0 (R49 to R51). -/
def ownWrite (s : State) (rq : Requester) (r v : Nat) : State :=
  let a := ownAddr r
  let code := v % 16
  gated s a v (fun s =>
    if decide (36 ≤ r) && !isCore rq then refuse s pgPin
    else if code = 0 then (if rdb s a 31 then refuse s pgPin else wrf s a 3 0 0)
    else if rdf s a 3 0 = code then s
    else if claimable s a code then wrf s a 3 0 code
    else conflict s a code (claimant r code))

/-- OWNER_WRITE (R49 to R52). -/
def execOwnerWrite (rq : Requester) (resource : Nat) (code : Nat) (s : State) : Host.Outcome State Fault Refusal :=
  .next (ownWrite s rq (resource % 60) code)

/-! ### GPIO (R53, R404) -/

/-- The GPIO sources see a pin only while it is an input (R404): level sources follow a change of direction. -/
def gpioNotify (s : State) : State := (List.range 32).foldl (fun s n => notify s (0x20 + n)) s

/-- A write of GPIO_DIR: the strap pins stay inputs before Ready. -/
def dirWrite (s : State) (v : Nat) : State :=
  refuseIf (s.sys.bootState != 5 && v &&& 0xF0 != 0) s (ra pgPin 0x200) v (fun s =>
    gpioNotify (gpioShow s (store s (ra pgPin 0x200) v)))

/-- A write of GPIO_OD. -/
def odWrite (s : State) (v : Nat) : State := gpioShow s (plainWrite s (ra pgPin 0x204) v)

/-- GPIO_DIR_WRITE (R53): a write of GPIO_DIR, or with `openDrain` of GPIO_OD. -/
def execGpioDirWrite (_rq : Requester) (openDrain : Bool) (val : Word) (s : State) : Host.Outcome State Fault Refusal :=
  .next (if openDrain then odWrite s val.toNat else dirWrite s val.toNat)

/-- A write of GPIO_OUT (op 0), GPIO_OUT_SET (1) or GPIO_OUT_CLR (2). -/
def outWrite (s : State) (op v : Nat) : State :=
  let a := ra pgPin 0x208
  gated s (a + 4 * op) v (fun s =>
    gpioShow s (wr s a (if op = 0 then v else if op = 1 then rd s a ||| v else rd s a &&& (0xFFFFFFFF ^^^ v))))

/-- GPIO_OUT_WRITE (R53). -/
def execGpioOutWrite (_rq : Requester) (op : Nat) (val : Word) (s : State) : Host.Outcome State Fault Refusal :=
  .next (outWrite s (op % 3) val.toNat)

/-! ### Snapshot triggers (R55, R56) -/

/-- RIME.SNAP_LINE. -/
def snapLine (s : State) : Nat := rd64 s (ra pgRime 0x44) % 2 ^ 48

/-- An image line has passed for the test of R55, over all 48 bits. -/
def snapLate (s : State) (n : Nat) : Bool :=
  let l := buildLine s (refBar s)
  let d := if retPass s (refBar s) then (l + 2 ^ 48 - n % 2 ^ 48) % 2 ^ 48 else (n + 2 ^ 48 - l) % 2 ^ 48
  printing s (refBar s) && decide (2 ^ 47 ≤ d)

/-- Arms a host snapshot; a late target is refused with COMMIT_LATE, and PENDING clears (R55). -/
def snapArm (s : State) (atLine : Bool) (n : Nat) : State :=
  if atLine && snapLate s n then ev { s with snapWait := s.snapWait.filter (fun c => c != 0) } pgRime 1
  else armSnapshot s 0

/-- The payload of a SNAPSHOT input: AT_LINE and the line. -/
def snapPayload (atLine : Bool) (n : Nat) : List Byte := leBytes 1 (b2n atLine) ++ leBytes 6 n

/-- A write of SNAP_CTRL; a host trigger of a pair is an input of both units (R56). DESIGN CHOICE (log 23): TRIGGER, which
a 1 sets (R5), reads 1 until the snapshot that it arms is taken or refused, as PG_COMMIT.ARM does while PENDING is 1. -/
def snapWrite (s : State) (v : Nat) : State :=
  gated s (ra pgRime 0x40) v (fun s =>
    let s := wr s (ra pgRime 0x40) (v &&& 0xA)
    let atLine := bitOf v 1
    if bitOf v 0 = false then s
    else asInput s 8 (refBar s) (if atLine then some (snapLine s) else none) (snapPayload atLine (snapLine s))
      (fun s => snapArm s atLine (snapLine s)))

/-- SNAPSHOT_TRIGGER (R55, R56). -/
def execSnapshotTrigger (_rq : Requester) (val : Word) (s : State) : Host.Outcome State Fault Refusal :=
  .next (snapWrite s val.toNat)

/-! ### Block registers, page by page

Each function is a write of offset `o` of its page; `v` is the word written. A register that a function does not name is
written plainly. -/

/-- CLK: PSTATE.REQ (R420). -/
def clkWrite (s : State) (rq : Requester) (o v : Nat) : State :=
  if o = 0x40 then
    gated s (clkA o) v (fun s =>
      if v % 4 = 2 then taken s (execPstateDoze rq s) else if v % 4 = 3 then taken s (execPstateDeep rq s) else s)
  else plainWrite s (clkA o) v

/-- THM: STOP at least THROTTLE + 80, and CMD (R438). -/
def thmWrite (s : State) (rq : Requester) (o v : Nat) : State :=
  if o = 0x44 then
    refuseIf (decide (signed 16 v < signed 16 (rd s (thmA 0x40)) + 80)) s (thmA o) v (fun s => store s (thmA o) v)
  else if o = 0x54 then gated s (thmA o) v (fun s => if bitOf v 0 then taken s (execClrStop rq s) else s)
  else plainWrite s (thmA o) v

/-- TRIM: CMD with at most one action, and the staging windows of a group that is not busy (R453). -/
def trimWrite (s : State) (rq : Requester) (o v : Nat) : State :=
  if o = 0x40 then
    refuseIf (decide (1 < trimCmdBits v)) s (trimA o) v (fun s =>
      if bitOf v 8 then taken s (execCal rq (v % 8) s)
      else if bitOf v 9 then taken s (execApply rq (v % 8) s)
      else if bitOf v 10 then taken s (execReload rq (v % 8) s)
      else s)
  else refuseIf (stagingRefused s o) s (trimA o) v (fun s => store s (trimA o) v)

/-- EVC: the arrays, SRCCFG, COMPLETE and THRESH (R406, R407, R409, R416). -/
def evcWrite (s : State) (rq : Requester) (p o v : Nat) : State :=
  let w := BitVec.ofNat 32 v
  let i := o % 0x40 / 4
  if p = 0x05 then
    (if 0xC0 ≤ o ∧ o < 0x100 then taken s (execPendSet rq i w s)
     else if 0x100 ≤ o ∧ o < 0x140 then taken s (execPendClr rq i w s)
     else if 0x180 ≤ o ∧ o < 0x1C0 then taken s (execEnSet rq i w s)
     else if 0x1C0 ≤ o ∧ o < 0x200 then taken s (execEnClr rq i w s)
     else hostPin s (plainWrite s (ra p o) v))
  else if p = 0x08 then
    (if o % 16 = 4 then gated s (ra p o) v (fun s => taken s (execComplete rq ((o - 0x44) / 16) (v % 512) s))
     else notifyAll (hostPin s (plainWrite s (ra p o) v)))
  else match srccfgSource (ra p o) with
    | some src => srccfgSet s rq src v
    | none => s

/-- PIN: owners and GPIO (R49 to R53). -/
def pinWrite (s : State) (rq : Requester) (o v : Nat) : State :=
  if o < 0x50 then ownWrite s rq ((o - 0x40) / 4) v
  else if 0x80 ≤ o ∧ o < 0x100 then ownWrite s rq ((o - 0x80) / 4 + 4) v
  else if 0x100 ≤ o ∧ o < 0x160 then ownWrite s rq ((o - 0x100) / 4 + 36) v
  else if o = 0x200 then dirWrite s v
  else if o = 0x204 then odWrite s v
  else if o = 0x208 then outWrite s 0 v
  else if o = 0x20C then outWrite s 1 v
  else if o = 0x210 then outWrite s 2 v
  else plainWrite s (ra pgPin o) v

/-- NVM: CMD, and the registers that are held while an operation runs (R488). -/
def nvmWrite (s : State) (rq : Requester) (o v : Nat) : State :=
  if o = 0x48 then
    gated s (nvmA o) v (fun s =>
      if v % 4 = 1 then taken s (execNvmRead rq s)
      else if v % 4 = 2 then taken s (execNvmProgram rq s)
      else if v % 4 = 3 then taken s (execNvmErase rq s)
      else s)
  else refuseIf (nvmBusy s && (o == 0x44 || decide (0x100 ≤ o))) s (nvmA o) v (fun s => store s (nvmA o) v)

/-- ETH: the port is configured while it is disabled (R58); a reserved ROLE is written as Off. -/
def ethWrite (s : State) (p o v : Nat) : State :=
  let x := if o = 0x40 ∧ field v 9 8 = 3 then putField v 9 8 0 else v
  refuseIf (pgEn s p && decide (o < 0x50)) s (ra p o) x (fun s => store s (ra p o) x)

/-- GSH rings (R68): BASE and CFG are held while CFG.EN is 1, and a size outside 2^4 to 2^12 does not enable. DESIGN CHOICE
(log 38): a ring that is enabled again goes on with its HEAD, TAIL and phase; R70 names no event that resets them. -/
def ringWrite (s : State) (p o v : Nat) : State :=
  let cfg := ra p (o - o % 0x20 + 8)
  let on := rdb s cfg 31
  let small := decide (field v 3 0 < 4) || decide (12 < field v 3 0)
  let x := if o % 0x20 = 8 ∧ small = true then putField v 31 31 0 else v
  refuseIf (on && !(o % 0x20 == 8 && !bitOf v 31)) s (ra p o) x (fun s => store s (ra p o) x)

/-- Ports in the Press-ring role (R331). -/
def ringPorts (s : State) : Nat := ((List.range 4).filter (ringPort s)).length

/-- PTC: CFG (R320, R334), CMD (R322, R327) and INCR (R318). -/
def ptcWrite (s : State) (rq : Requester) (o v : Nat) : State :=
  let old := rd s (ptcA 0x40)
  let changed (hi lo : Nat) : Bool := field v hi lo != field old hi lo
  if o = 0x40 then
    let held := (changed 23 16 || changed 13 12 || changed 10 10 || changed 9 8) && (srcPtp s || tcMode s != 0)
    let tc := field v 13 12 != 0 && ringPorts s != 2
    refuseIf (held || tc) s (ptcA o) v (fun s =>
      let s' := store s (ptcA o) v
      if changed 0 0 || changed 4 4 then ptcSource s' else s')
  else if o = 0x48 then
    refuseIf (decide (1 < b2n (bitOf v 0) + b2n (bitOf v 1) + b2n (bitOf v 2))) s (ptcA o) v (fun s =>
      if bitOf v 0 then taken s (execPtcStep rq s)
      else if bitOf v 1 then taken s (execAdj rq s)
      else if bitOf v 2 then taken s (execAcceptStep rq s)
      else s)
  else if o = 0x50 then refuseIf (srcPtp s || s.clk.state == 6) s (ptcA o) v (fun s => store s (ptcA o) v)
  else if o = 0x54 then taken s (execIncrWrite rq (BitVec.ofNat 32 v) s)
  else plainWrite s (ptcA o) v

/-- DRC: the timing registers of the active set are held (05). -/
def drcWrite (s : State) (p o v : Nat) : State :=
  refuseIf (decide (0x50 ≤ o) && (o - 0x50) / 16 == activeSet s) s (ra p o) v (fun s => store s (ra p o) v)

/-- DRG: CFG keeps set 0 enabled, and its density once memory is trained (R141); FREQ starts a change of set. -/
def drgWrite (s : State) (rq : Requester) (o v : Nat) : State :=
  let a := ra pgDrg o
  if o = 0x40 then
    let trained := (List.range 8).any (fun k => subState s k != 0)
    let x := if trained then putField v 11 10 (rdf s a 11 10) else v
    gated s a v (fun s => syncSlow (syncDram (store s a (x ||| 1))))
  else if o = 0x6C then gated s a v (fun s => hotCfgChanged (store s a v))
  else if o = 0x44 then taken s (execFreqReq rq (v % 4) (bitOf v 8) s)
  else gated s a v (fun s => syncDram (store s a v))

/-- THAW: CFG is held while a job is defined (R107). -/
def thawWrite (s : State) (o v : Nat) : State :=
  refuseIf (o == 0x40 && !s.print.jobs.isEmpty) s (ra pgThaw o) v (fun s => store s (ra pgThaw o) v)

/-- POSn.CFG as a write leaves it: PT_MODE is RZ on channels 4 to 7, and its value 3 is OFF (R173). -/
def ptMode (c v : Nat) : Nat := if 4 ≤ c ∨ field v 9 8 = 3 then putField v 9 8 0 else v

/-- A write of POSn.CFG (R148, R149): MODE from 0 on an enabled channel 4 to 7 is a claim. -/
def posCfg (s : State) (c v : Nat) : State :=
  let a := posA c 0x40
  let v := ptMode c v
  refuseIf (chanPrinting s c) s a v (fun s =>
    let on := decide (4 ≤ c) && pgEn s (pgPos c)
    let was := rdf s a 2 0
    let mode := field v 2 0
    ptShowAll s <| if on = true ∧ was = 0 ∧ mode ≠ 0 then
      (if claimable s (ownEnc c) 1 then store (claimRes s (ownEnc c) 1) a v else conflict s (ownEnc c) 1 (pgPos c))
    else if on = true ∧ was ≠ 0 ∧ mode = 0 then wrf (store s a v) (ownEnc c) 31 31 0
    else store s a v)

/-- SER_PERIOD is shorter than a frame with its timeout (R154, R157), in ns: SER_CFG, SER_PERIOD, SER_TIMEOUT words. -/
def serShort (cfg period timeout : Nat) : Bool :=
  decide (period % 2 ^ 17 * 1000 < (field cfg 5 0 + 3) * (4 * (field cfg 15 8 + 1)) + timeout % 4096 * 1000)

/-- POS: CFG, the serial frame, the index, and POS_CMD (R148, R149, R157, R161, R168). -/
def posWrite (s : State) (rq : Requester) (p o v : Nat) : State :=
  let c := p - 0x40
  let r (x : Nat) : Nat := if o = x then v else rd s (posA c x)
  if o = 0x40 then posCfg s c v
  else if o = 0x58 then
    refuseIf (v != 0 && decide (v ≤ rd s (posA c 0x5C))) s (posA c o) v (fun s => store s (posA c o) v)
  else if o = 0x5C then
    refuseIf (rd s (posA c 0x58) != 0 && decide (rd s (posA c 0x58) ≤ v)) s (posA c o) v (fun s => store s (posA c o) v)
  else if o = 0x68 ∨ o = 0x6C ∨ o = 0x70 then
    refuseIf (serShort (r 0x68) (r 0x6C) (r 0x70)) s (posA c o) v (fun s => store s (posA c o) v)
  else if o = 0x74 then
    gated s (posA c o) v (fun s =>
      let far := decide (backDistance s c ≤ reverseLimit s c)
      let s := store s (posA c o) v
      reversal s c far)
  else if o = 0x80 then
    gated s (posA c o) v (fun s =>
      let s := if bitOf v 0 then taken s (execLoad rq c s) else s
      if bitOf v 1 then taken s (execClrFault rq c s) else s)
  else plainWrite s (posA c o) v

/-- WAVE: the sets and VALIDATE (R234, R238). -/
def waveWrite (s : State) (rq : Requester) (o v : Nat) : State :=
  let a := ra pgWave o
  if o < 0x80 then refuseIf (setInUse s ((o - 0x40) / 4)) s a v (fun s => store s a v)
  else if o = 0x84 then taken s (execValidate rq (v % 32) s)
  else plainWrite s a v

/-- FLN: configuration that a head of a printing bar holds, the plan, and the outputs (R255, R513). -/
def flnWrite (s : State) (rq : Requester) (p o v : Nat) : State :=
  let l := p - 0x70
  let w := BitVec.ofNat 32 v
  if o = 0x54 then taken s (execPlanWrite rq l false w s)
  else if o = 0x5C then taken s (execPlanWrite rq l true w s)
  else if o = 0x40 ∨ o = 0x58 then refuseIf (lanePrinting s l) s (ra p o) v (fun s => store s (ra p o) v)
  else if o = 0x94 then taken s (execIoOutWrite rq l w s)
  else if o = 0xA0 then taken s (execIoSafeWrite rq l false w s)
  else if o = 0xA4 then taken s (execIoSafeWrite rq l true w s)
  else plainWrite s (ra p o) v

/-- FLNG: the hold times and the replay margin while bars print, and STOP, which every IO node is sent (R513). -/
def flngWrite (s : State) (o v : Nat) : State :=
  let a := ra pgFlng o
  if o = 0x44 ∨ o = 0x48 ∨ o = 0x4C then refuseIf (anyPrinting s) s a v (fun s => store s a v)
  else if o = 0x7C then
    gated s a v (fun s => if rdb s a 0 = bitOf v 0 then store s a v else ioResend (store s a v))
  else plainWrite s a v

/-- A write of ISP.TBL_DATA: the tables of an enabled context are held; WHITE is 1 to 16,383. -/
def ispTableWrite (s : State) (v : Nat) : State :=
  gated s (ra pgIsp 0x44) v (fun s =>
    let x := rdf s (ra pgIsp 0x40) 18 16
    let i := rdf s (ra pgIsp 0x40) 15 0
    let m := ispMask i
    let white := decide (8 ≤ i) && decide (i < 0xD)
    let zero := white && v &&& m == 0
    if ctxOn s x || zero then ispAdvance (refuse s pgIsp)
    else if m = 0 then ispAdvance s
    else
      let t := tsetD ispReset s.cams.ispTable (65536 * x + i) (BitVec.ofNat 32 (v &&& m))
      ispAdvance { s with cams := { s.cams with ispTable := t } })

/-- ISP: tables and contexts (R282 to R294). -/
def ispWrite (s : State) (rq : Requester) (o v : Nat) : State :=
  let a := ra pgIsp o
  let x := (o - 0x100) / 0x40
  let i := (o - 0x100) % 0x40
  if o = 0x44 then ispTableWrite s v
  else if o < 0x100 then plainWrite s a v
  else if i = 0 then taken s (execContextEnable rq x (BitVec.ofNat 32 v) s)
  else if i = 0x34 then taken s (execTapRel rq x (BitVec.ofNat 32 v) s)
  else
    refuseIf (ctxOn s x || (i == 4 && (v % 4 != 0 || v / 65536 % 4 != 0))) s a v (fun s => store s a v)

/-- A write of LOOP.TBL_DATA: AIM while the loop is off; the other sections are RO (R297, R315). -/
def loopTableWrite (s : State) (v : Nat) : State :=
  gated s (loopA 0x6C) v (fun s =>
    let sec := rdf s (loopA 0x68) 18 16
    let b := rdf s (loopA 0x68) 13 11
    let i := rdf s (loopA 0x68) 10 0
    if sec ≠ 0 ∨ 256 ≤ i then loopAdvance s
    else if pgEn s pgLoop then loopAdvance (refuse s pgLoop)
    else
      let t := tsetD (fun _ => 0) s.cams.aim (256 * b + i) (v % 65536)
      loopAdvance { s with cams := { s.cams with aim := t } })

/-- LOOP: held while EN is 1 but for HOLD, LAW and TLIM; the ladder registers while its own EN is 1 (R309, R315). -/
def loopWrite (s : State) (rq : Requester) (o v : Nat) : State :=
  let a := loopA o
  let on := pgEn s pgLoop
  if o = 0x40 then
    refuseIf (on && (v &&& 0xFF07) != (rd s a &&& 0xFF07)) s a v (fun s => store s a v)
  else if o < 0x68 then refuseIf (on && o != 0x54 && o != 0x58) s a v (fun s => store s a v)
  else if o = 0x6C then loopTableWrite s v
  else if o = 0x80 then taken s (execLadderEnable rq (BitVec.ofNat 32 v) s)
  else if 0x84 ≤ o ∧ o < 0x98 then refuseIf (bitOf (ladderCfg s) 31) s a v (fun s => store s a v)
  else plainWrite s a v

/-- PAIR: CFG while no bar prints, and CMD (R346, R373). -/
def pairWrite (s : State) (rq : Requester) (o v : Nat) : State :=
  let a := ra pgPair o
  if o = 0x40 then
    refuseIf (anyPrinting s && ((v &&& 0xFF01) != (rd s a &&& 0xFF01))) s a v (fun s => store s a v)
  else if o = 0x48 then
    gated s a v (fun s =>
      let s := if bitOf v 0 then taken s (execSwitch rq s) else s
      let s := if bitOf v 1 then taken s (execSolo rq s) else s
      let s := if bitOf v 2 then taken s (execJoin rq s) else s
      if bitOf v 3 then taken s (execLeave rq s) else s)
  else plainWrite s a v

/-- A write of AXn.CFG: ENC_EN needs a channel that is not OFF, and latches the references (R391). -/
def axCfg (s : State) (n v : Nat) : State :=
  let a := axA n 0x40
  let moving := decide (2 ≤ axState s n) && decide (axState s n ≤ 5)
  gated s a v (fun s =>
    if moving then refuse s (pgAx n)
    else
      let t := store s a v
      let enc := bitOf v 15
      if enc && posMode s (axEnc t n) == 0 then refuse s (pgAx n)
      else if enc && !rdb s a 15 then setAxis t n (latchRef t n (getAxis t n))
      else t)

/-- AX.CMD: each bit set is one command, in bit order. -/
def axCmd (s : State) (rq : Requester) (n v : Nat) : State :=
  gated s (axA n 0xD0) v (fun s =>
    let act (s : State) (i : Nat) (f : State → Host.Outcome State Fault Refusal) : State :=
      if bitOf v i then taken s (f s) else s
    let s := act s 0 (execStop rq n)
    let s := act s 1 (execQstop rq n)
    let s := act s 2 (execHome rq n)
    let s := act s 3 (execEngage rq n)
    let s := act s 4 (execDisengage rq n)
    let s := act s 5 (execSetPos rq n)
    act s 6 (execAxisClrFault rq n))

/-- AX: configuration, target, gearing and CMD (R380 to R396). -/
def axWrite (s : State) (rq : Requester) (p o v : Nat) : State :=
  let n := p - 0xC8
  let a := ra p o
  let w := BitVec.ofNat 32 v
  let moving := decide (2 ≤ axState s n) && decide (axState s n ≤ 5)
  if o = 0x40 then axCfg s n v
  else if o = 0x58 ∨ o = 0xB4 then refuseIf moving s a v (fun s => store s a v)
  else if o = 0x64 then taken s (execTargetWrite rq n w s)
  else if o = 0x78 ∨ o = 0x7C then refuseIf (getAxis s n).geared s a v (fun s => store s a v)
  else if o = 0x8C then taken s (execPendArm rq n w s)
  else if o = 0xD0 then axCmd s rq n v
  else plainWrite s a v

/-- Another enabled unit drives the TRIG pin that a CFG word names (R400). -/
def trigUsed (s : State) (k v : Nat) : Bool :=
  bitOf v 8 && (List.range 32).any (fun j => j != k && bitOf (cmpCfg s j) 31 && bitOf (cmpCfg s j) 8 &&
    field (cmpCfg s j) 3 0 == field v 3 0)

/-- A write of CMP.CFGk (R400, R401): a held unit takes OUT, OUT_EN and POL only; EN claims the unit; clearing EN disarms
it. -/
def cmpCfgWrite (s : State) (rq : Requester) (k v : Nat) : State :=
  let a := cmpA k 0
  gated s a v (fun s =>
    let old := cmpCfg s k
    let code := if field v 29 28 = 2 then 3 else 1
    if cmpHeld s rq k && (old &&& 0xFEF70000) != (v &&& 0xFEF70000) then refuse s pgCmp
    else if bitOf v 31 && !bitOf old 31 then
      let s := wrf (store s a v) a 31 31 0
      if trigUsed s k v then ev s pgCmp 5
      else if claimable s (ownCmp k) code then wrf (claimRes s (ownCmp k) code) a 31 31 1
      else conflict s (ownCmp k) code pgCmp
    else if bitOf old 31 && !bitOf v 31 then
      cmpShow (setCmp (wrf (store s a v) (ownCmp k) 31 31 0) k { getCmp s k with armed := false }) k
    else store s a v)

/-- A write of FIRED or PASSED clears bits, and STATk follows (R398, R400). -/
def cmpFlags (s : State) (o v : Nat) : State :=
  let a := ra pgCmp o
  gated s a v (fun s =>
    let s := store s a v
    (List.range 32).foldl (fun s k =>
      if bitOf v k then
        cmpShow (if o = 0x544 then setCmp s k { getCmp s k with passed := false } else s) k
      else s) s)

/-- CMP: CFG, VAL, PERIOD, FIRED and PASSED (R397 to R401). -/
def cmpWrite (s : State) (rq : Requester) (o v : Nat) : State :=
  let a := ra pgCmp o
  let k := (o - 0x40) / 0x20
  let i := (o - 0x40) % 0x20
  if 0x540 ≤ o then cmpFlags s o v
  else if 0x440 ≤ o then plainWrite s a v
  else if i = 0 then cmpCfgWrite s rq k v
  else if i = 0xC then taken s (execCompareArm rq k (BitVec.ofNat 32 v) s)
  else if i = 8 ∨ i = 0x10 then refuseIf (cmpHeld s rq k) s a v (fun s => store s a v)
  else if i = 0x14 then
    refuseIf (cmpHeld s rq k || decide (heldLow s (a - 4) + 2 ^ 32 * v < 65536)) s a v (fun s => store s a v)
  else plainWrite s a v

/-- A write of a block register, by page. -/
def blockWrite (s : State) (rq : Requester) (p o v : Nat) : State :=
  if p = pgClk then clkWrite s rq o v
  else if p = pgThm then thmWrite s rq o v
  else if p = pgTrim then trimWrite s rq o v
  else if 0x05 ≤ p ∧ p < 0x09 then evcWrite s rq p o v
  else if p = pgPin then pinWrite s rq o v
  else if p = pgNvm then nvmWrite s rq o v
  else if 0x10 ≤ p ∧ p < 0x14 then ethWrite s p o v
  else if p = 0x19 ∨ p = 0x1A then ringWrite s p o v
  else if p = pgPtc then ptcWrite s rq o v
  else if 0x28 ≤ p ∧ p < 0x2C then drcWrite s p o v
  else if p = pgDrg then drgWrite s rq o v
  else if p = pgThaw then thawWrite s o v
  else if 0x40 ≤ p ∧ p < 0x48 then posWrite s rq p o v
  else if p = pgWave then waveWrite s rq o v
  else if 0x70 ≤ p ∧ p < 0xA0 then flnWrite s rq p o v
  else if p = pgFlng then flngWrite s o v
  else if 0xB0 ≤ p ∧ p < 0xB4 then refuseIf (pgEn s p) s (ra p o) v (fun s => store s (ra p o) v)
  else if p = pgIsp then ispWrite s rq o v
  else if p = pgLoop then loopWrite s rq o v
  else if p = pgPair then pairWrite s rq o v
  else if 0xC8 ≤ p ∧ p < 0xD8 then axWrite s rq p o v
  else if p = pgCmp then cmpWrite s rq o v
  else if p = pgRime ∧ o = 0x40 then snapWrite s v
  else plainWrite s (ra p o) v

end Sys2Proof.Machine
end

