-- ==== Sys2Proof/Machine/Registers.lean ====
section
/-! DEFINITION. The register window as requesters reach it (R25, R26, R34, R422): writes of words, those of a pair's host
that both units make (R348), and the taking of Rime snapshots (R55 to R57). -/

namespace Sys2Proof.Machine

open Sys2Proof

/-- A write of an aligned word of the register window, by this unit (R6, R25, R28, R33, R36, R46). -/
def writeReg (s : State) (rq : Requester) (a v : Nat) : State :=
  let p := a / 4096
  let o := a % 4096
  if a % 4 ≠ 0 ∨ 2 ^ 24 ≤ a then s
  else if 0x400000 ≤ a then windowWrite s rq a v
  else if (pageInfo p).isNone then s
  else if o < 0x40 then headerWrite s p o v
  else if 0x800 ≤ o then (if pgClkOn s p then s else ev s (headerOf p) 6)
  else if (regSpec a).isNone then s
  else blockWrite s rq p o v

/-- Nothing of the unit but its always-on domain works: in Deep, on the wake from it, in reset, or after a trip. -/
def unreachable (s : State) : Bool :=
  s.sys.inReset || s.power.tripped || s.power.pstate == 5 || s.power.waking

/-- Words whose writes by the host of an active unit are forwarded to its partner (R348): what R356 copies, but not what
belongs to one unit's host links, its event controller, its unit reset, or the trigger that has an input of its own. -/
def forwardable (a : Nat) : Bool :=
  let p := a / 4096
  let o := a % 4096
  let h := headerOf p
  if 0x400000 ≤ a then windowMask a != 0
  else if ownPage h || ownAddress p o || h == pgEvc || (decide (0x10 ≤ h) && decide (h < 0x20)) then false
  else if o < 0x40 then isHeader p && ((o == 0x10 && p != pgSys) || o == 0x18 || o == 0x1C)
  else (regSpec a).isSome && !(p == pgRime && o == 0x40)

/-- A REG_WRITE entry with one pair, as which a register write of the PCIe function is forwarded; its session and SEQ
are 0, which no journalled command has (R72). -/
def writePayload (a v : Nat) : List Byte :=
  zeroBytes 8 ++ (leBytes 1 0x21 ++ zeroBytes 0x17 ++ leBytes 4 8 ++ zeroBytes 4 ++ leBytes 4 1 ++ zeroBytes 0x1C) ++
    leBytes 4 a ++ leBytes 4 v

/-- A write by a requester: a write of an active unit's host becomes an input of the pair (R348, R349). -/
def hostWrite (s : State) (rq : Requester) (a v : Nat) : State :=
  if rq = .pcie ∧ s.pair.role ≠ 0 ∧ isActive s = true ∧ forwardable a = true then
    takeInput s 1 (if a < 0x400000 then pageBar s (a / 4096) else refBar s) none (writePayload a v)
  else writeReg s rq a v

/-- A word write as it arrives: partial writes of PCIe are ignored with BAD_ACCESS (R34), and in Doze its writes to pages
that are not clocked are held until the wake (R422). -/
def arriveWrite (s : State) (rq : Requester) (a : Nat) (val : Word) (byteEn : BitVec 4) : State :=
  if unreachable s then s
  else if rq = .pcie ∧ romOnly s (a / 4096) = true then s
  else if rq = .pcie ∧ byteEn ≠ 0xF#4 then ev s pgSys 7
  else if rq = .pcie ∧ dozing s = true ∧ dozePage (headerOf (a / 4096)) = false then
    { s with host := { s.host with heldWrites := s.host.heldWrites ++ [(a, val, byteEn)] } }
  else hostWrite s rq a val.toNat

/-- The requester of a register write of the table. -/
def writerOf : Instr → Option Requester
  | .registerWrite rq _ _ _ => some rq
  | .highWordWrite rq _ _ => some rq
  | .nozzleTableWrite rq _ _ _ => some rq
  | .tableWindowWrite rq _ _ => some rq
  | .ownerWrite rq _ _ => some rq
  | .gpioDirWrite rq _ _ => some rq
  | .gpioOutWrite rq _ _ => some rq
  | .commitArm rq _ _ => some rq
  | .commitCancel rq _ => some rq
  | .blockEnable rq _ _ _ => some rq
  | .srst rq _ => some rq
  | _ => none

/-- Puts a write of a fabric tick in its place: after those of requesters that come before its own (R26). -/
def placeWrite (i : Instr) : List Instr → List Instr
  | [] => [i]
  | j :: r =>
    if ((writerOf j).map rqKey).getD 0 ≤ ((writerOf i).map rqKey).getD 0 then j :: placeWrite i r else i :: j :: r

/-- The writes that complete in one fabric tick, in the order of R26: control cores 0 to 3, PCIe, Gisha sessions
ascending; of two claims on one resource the first in this order succeeds (R52). -/
def tickOrder (ws : List Instr) : List Instr := ws.foldl (fun q i => placeWrite i q) []

/-- The writes of one fabric tick arrive: they join the queue in the order of R26. -/
def arriveTick (s : State) (ws : List Instr) : State := { s with pending := s.pending ++ tickOrder ws }

/-- REGISTER_WRITE (R5, R6, R25, R26, R30, R33 to R35, R38, R42, R509). -/
def execRegisterWrite (rq : Requester) (addr : Nat) (val : Word) (byteEn : BitVec 4) (s : State) :
    Host.Outcome State Fault Refusal :=
  .next (arriveWrite s rq addr val byteEn)

/-- The high word of a 64-bit register. -/
def isHighWord (a : Nat) : Bool :=
  match regSpec a with
  | some r => r.half == 2
  | none => false

/-- HIGH_WORD_WRITE (R37): the held low word takes effect together with the high word. -/
def execHighWordWrite (rq : Requester) (addr : Nat) (val : Word) (s : State) : Host.Outcome State Fault Refusal :=
  .next (if isHighWord addr then arriveWrite s rq addr val 0xF#4 else s)

/-! ### Snapshots (R55 to R57) -/

/-- A SNAPSHOT command waits for its line. -/
def snapEntry (e : JEntry) : Bool := e.waiting && eOpcode e.entry == 0x38

/-- A snapshot of the host may be taken (R55): no bar prints, or the reference bar starts building an image line, its
target if it has one. -/
def snapReady (s : State) (atLine : Bool) (n : Nat) : Bool :=
  !anyPrinting s || (printing s (refBar s) && (!atLine || lineReached s (refBar s) n))

/-- The line that a SNAPSHOT command names is reached, or it names none. -/
def snapReached (s : State) (e : JEntry) : Bool := snapReady s (bitOf (eParam e.entry 0 1) 0) (eParam e.entry 4 6)

/-- SNAPSHOT commands whose snapshot is due. -/
def snapSlots (s : State) : List Nat :=
  (s.host.journal.filter (fun x => snapEntry x.2 && snapReached s x.2)).map (fun x => x.1)

/-- The host trigger of SNAP_CTRL is due. DESIGN CHOICE (log 24): AT_LINE and SNAP_LINE are those that the registers hold
when the line is reached, not those of the trigger; R55 does not say that a trigger keeps them. -/
def hostSnapDue (s : State) : Bool :=
  s.snapWait.contains 0 && snapReady s (rdb s (ra pgRime 0x40) 1) (snapLine s)

/-- The host trigger waited for a reference bar that has started printing beyond its line: it is late (R40, R55). -/
def dropLateSnap (s : State) : State :=
  if s.snapWait.contains 0 && rdb s (ra pgRime 0x40) 1 && snapLate s (snapLine s) then
    ev { s with snapWait := s.snapWait.filter (fun c => c != 0) } pgRime 1
  else s

/-- Causes of a snapshot that are due at the present line: 0 host, 1 periodic, 2 fault, 3 partner (R55). -/
def snapCauses (s : State) : List Nat :=
  let period := rdf s (ra pgRime 0x4C) 23 0
  let slots := snapSlots s
  let now := !anyPrinting s || printing s (refBar s)
  let periodic := printing s (refBar s) && period != 0 && buildLine s (refBar s) % period == 0
  (if hostSnapDue s || (!slots.isEmpty && s.pair.role != 5) then [0] else []) ++ (if periodic then [1] else []) ++
    (if now && s.snapWait.contains 2 then [2] else []) ++
    (if (now && s.snapWait.contains 3) || (!slots.isEmpty && s.pair.role == 5) then [3] else [])

/-- Copies every live counter into its Rime copy and records the snapshot with the lowest cause (R55, R57). -/
def snapRecord (s : State) (cause : Nat) : State :=
  let b := refBar s
  let pos := twos 64 (webPos s b)
  let img := buildLine s b
  let a (o : Nat) : Nat := ra pgRime o
  let s := wr (wr { s with rime := s.counters } (a 0x50) (rd s (a 0x50) + 1)) (a 0x54) cause
  let s := wr64 (wr64 s (a 0x58) img) (a 0x60) pos
  wr64 (wr s (a 0x68) s.clk.ns) (a 0x6C) s.clk.sec

/-- Takes a snapshot for the causes that are due, and completes the SNAPSHOT commands that waited for it. -/
def snapTake (s : State) : State :=
  let s := dropLateSnap s
  match snapCauses s with
  | [] => s
  | c :: r =>
    let slots := snapSlots s
    let img := if printing s (refBar s) then buildLine s (refBar s) else 0
    let s := snapRecord s c
    let s := { s with snapWait := s.snapWait.filter (fun x => !(c :: r).contains x) }
    slots.foldl (fun s k => finish s k stOk 0 0 [] img) s

/-- SNAPSHOT_TAKE (R55, R57): the start of building an image line on the reference bar, or, while it does not print, the
tick after a trigger. -/
def execSnapshotTake (s : State) : Host.Outcome State Fault Refusal := .next (snapTake s)

end Sys2Proof.Machine
end

