-- ==== Sys2Proof/Machine/Requests.lean ====
section
/-! DEFINITION. Commands of the journal that reach the register window (R55, R75 to R77, R81, R436), the inputs of a pair at
their apply-lines (R182, R348 to R351), and the end of a wake (R422, R425, R426). -/

namespace Sys2Proof.Machine

open Sys2Proof

/-- The requester that a journal entry speaks for (R26): its Gisha session; that of the rings is session 0, which is not
the PCIe function that reaches BAR0. -/
def entryRq (e : JEntry) : Requester := .session e.session

/-! ### Refused writes (R75) -/

/-- EV_PEND bits of a page that a refused write raises: REFUSED, CONFLICT, CLOCK_OFF, STAGE_FULL of a bar, and the
refusals of an axis target. -/
def refusalBits (p : Nat) : Nat :=
  if 0x50 ≤ p ∧ p < 0x60 then 0x170 else if 0xC8 ≤ p ∧ p < 0xD8 then 0xE70 else 0x70

/-- No event is pending. -/
def quiet (s : State) : State :=
  { s with regs := s.regs.filter (fun e => !(decide (e.1 < 0x100000) && e.1 % 4096 == 0x24)) }

/-- A write is refused: made with no event pending, it raises a refusal. A write of EV_SET raises its bits for test (R54)
and is never refused; nor is one of EV_EN_SET or EV_EN_CLR. -/
def writeRefused (s : State) (rq : Requester) (a v : Nat) : Bool :=
  let t := writeReg (quiet s) rq a v
  let test := decide (a < 0x100000) && decide (0x20 ≤ a % 4096) && decide (a % 4096 < 0x40)
  !test && headerPages.any (fun p => evPend t p &&& refusalBits p != 0)

/-- Writes a list of address and value pairs in order, up to the first refused one (R75): the state, how many were
written, and whether all were. -/
def writePairs (rq : Requester) : List (Nat × Nat) → Nat → State → State × Nat × Bool
  | [], k, s => (s, k, true)
  | (a, v) :: r, k, s =>
    if writeRefused s rq a v then (writeReg s rq a v, k, false) else writePairs rq r (k + 1) (writeReg s rq a v)

/-- The pairs of a REG_WRITE. -/
def pairsOf (data : List Byte) : List (Nat × Nat) :=
  (List.range (data.length / 8)).map (fun i => (bytesAt data (8 * i) 4, bytesAt data (8 * i + 4) 4))

/-- Keeps the progress count and the result of the steps made so far (R81). -/
def setProgress (s : State) (slot n : Nat) (result : List Byte) : State :=
  match getEntry s slot with
  | some e => setEntry s slot { e with state := 1, progress := n, result := result }
  | none => s

/-- Makes the writes of a command that its progress count has not made yet (R81, R82) and completes it with OK or REFUSED.
DESIGN CHOICE (log 39): a TABLE_WRITE that is refused reports the words written before in RESULT0, as REG_WRITE does. -/
def runWrites (s : State) (slot : Nat) (e : JEntry) (ps : List (Nat × Nat)) (img : Nat) (r0 : Bool) : State :=
  let x := writePairs (entryRq e) (ps.drop e.progress) e.progress s
  let n := if r0 || !x.2.2 then x.2.1 else 0
  finish (setProgress x.1 slot x.2.1 []) slot (if x.2.2 then stOk else stRefused) n 0 [] img

/-! ### REG_READ (R25, R76, R77) -/

/-- Reads consecutive words. -/
def readWords (rq : Requester) : Nat → Nat → State → List Byte × State
  | 0, _, s => ([], s)
  | n + 1, a, s =>
    let x := readReg s rq a
    let y := readWords rq n (a + 4) x.2
    (leBytes 4 x.1 ++ y.1, y.2)

/-- The parameters of a REG_READ are in range: 1 to 64 aligned words of the window. -/
def readParamsOk (e : JEntry) : Bool :=
  let a := eParam e.entry 0 4
  let n := eParam e.entry 4 4
  decide (1 ≤ n) && decide (n ≤ 64) && a % 4 == 0 && decide (a + 4 * n ≤ 2 ^ 24)

/-- REG_READ (R25, R76, R77). -/
def regReadRun (s : State) (slot : Nat) (e : JEntry) : State :=
  let n := eParam e.entry 4 4
  let room := if onRing e then decide (4 * n ≤ eDataLen e.entry) && decide (eDataLen e.entry ≤ 256)
    else resultFits s e (4 * n)
  if readParamsOk e = false ∨ room = false then finishStatus s slot stBadParam
  else
    let k := e.progress
    let x := readWords (entryRq e) (n - k) (eParam e.entry 0 4 + 4 * k) s
    let bytes := e.result.take (4 * k) ++ x.1
    finish (setProgress x.2 slot n bytes) slot stOk 0 0 bytes 0

def execRegRead (slot : Nat) (s : State) : Host.Outcome State Fault Refusal := .next <| onEntry s slot 0x20 (fun s e => regReadRun s slot e)

/-! ### REG_WRITE (R25, R75, R76) -/

/-- APPLY of a REG_WRITE, and its apply image line. -/
def applies (e : JEntry) : Bool := bitOf (eParam e.entry 4 4) 0
def applyOf (e : JEntry) : Nat := eParam e.entry 8 6

/-- The parameters of a REG_WRITE: 1 to 64 pairs of aligned words; APPLY needs version 3.3. -/
def writeParamsOk (s : State) (e : JEntry) : Bool :=
  let n := eParam e.entry 0 4
  let ss := getSession s e.session
  decide (1 ≤ n) && decide (n ≤ 64) && eDataLen e.entry == 8 * n &&
    (pairsOf e.data).all (fun x => x.1 % 4 == 0 && decide (x.1 < 2 ^ 24)) &&
    (!applies e || e.peer || decide (0x303 ≤ 256 * ss.major + ss.minor))

/-- A passed line completes with LATE and writes nothing; a line ahead is waited for (R75). -/
def regWriteRun (s : State) (slot : Nat) (e : JEntry) : State :=
  let b := commandBar s e.entry e.data
  if dataInside e = true ∧ writeParamsOk s e = false then finishStatus s slot stBadParam
  else withData s slot e 512 (fun s =>
    if applies e = false then runWrites s slot e (pairsOf e.data) 0 true
    else if e.late || linePassed s b (applyOf e) then finishStatus s slot stLate
    else if lineReached s b (applyOf e) then runWrites s slot e (pairsOf e.data) (applyOf e) true
    else setEntry s slot { e with waiting := true, state := 1 })

def execRegWrite (slot : Nat) (s : State) : Host.Outcome State Fault Refusal := .next <| onEntry s slot 0x21 (fun s e => regWriteRun s slot e)

/-- APPLY_LINE_WRITE (R75): the start of building of the apply image line of a REG_WRITE that waits; when its bar has
started printing beyond that line, it is late. -/
def execApplyLineWrite (slot : Nat) (s : State) : Host.Outcome State Fault Refusal :=
  .next (match getEntry s slot with
    | some e =>
      let b := commandBar s e.entry e.data
      if e.waiting && eOpcode e.entry == 0x21 && linePassed s b (applyOf e) then finishStatus s slot stLate
      else if e.waiting && eOpcode e.entry == 0x21 && lineReached s b (applyOf e) then
        runWrites s slot e (pairsOf e.data) (applyOf e) true
      else s
    | none => s)

/-! ### TABLE_WRITE (R47, R48, R75, R76, R436) -/

/-- Word writes of consecutive data to the table windows. -/
def tablePairs (a : Nat) (data : List Byte) : List (Nat × Nat) :=
  (List.range (data.length / 4)).map (fun i => (a + 4 * i, bytesAt data (4 * i) 4))

/-- The parameters of a TABLE_WRITE: whole words inside the table windows. -/
def tableParamsOk (e : JEntry) : Bool :=
  let a := eParam e.entry 0 4
  a % 4 == 0 && decide (0x400000 ≤ a) && decide (a + eDataLen e.entry ≤ 0xD10000) && eDataLen e.entry % 4 == 0 &&
    eDataLen e.entry != 0 && decide (eDataLen e.entry ≤ 2 ^ 20)

/-- TABLE_WRITE (R48, R75, R76): a refused word stops it as it stops REG_WRITE. Its steps are throttled work (R436). -/
def tableWriteRun (s : State) (slot : Nat) (e : JEntry) : State :=
  if mayThrottled s = false then s
  else if dataInside e = true ∧ tableParamsOk e = false then finishStatus s slot stBadParam
  else withData s slot e (2 ^ 20) (fun s => runWrites s slot e (tablePairs (eParam e.entry 0 4) e.data) 0 false)

def execTableWrite (slot : Nat) (s : State) : Host.Outcome State Fault Refusal := .next <| onEntry s slot 0x28 (fun s e => tableWriteRun s slot e)

/-! ### SNAPSHOT (R55) -/

/-- SNAPSHOT waits for its snapshot; a passed line completes with LATE. -/
def snapshotRun (s : State) (slot : Nat) (e : JEntry) : State :=
  let atLine := bitOf (eParam e.entry 0 4) 0
  if e.late then finishStatus s slot stLate
  else if atLine && snapLate s (eParam e.entry 4 6) then finishStatus (ev s pgRime 1) slot stLate
  else setEntry s slot { e with waiting := true, state := 1 }

/-- SNAPSHOT (R55): the command form of a host trigger. -/
def execSnapshot (slot : Nat) (s : State) : Host.Outcome State Fault Refusal := .next <| onEntry s slot 0x38 (fun s e => snapshotRun s slot e)

/-! ### Inputs of a pair (R22, R182, R306, R348 to R351, R402) -/

/-- A COMMAND input lets its journal entry run; with session and SEQ 0 it is a register write of the active's host. -/
def commandInput (s : State) (i : PairInput) : State :=
  let n := bytesAt i.payload 0 4
  let q := bytesAt i.payload 4 4
  if n = 0 ∧ q = 0 then (writePairs .pcie (pairsOf (i.payload.drop 72)) 0 s).1
  else
    let mine (e : JEntry) : Bool := e.session == n && e.seq == q && e.peer == (!i.own && n == 0) && !e.ready
    let slots := (s.host.journal.filter (fun x => mine x.2)).map (fun x => x.1)
    let s := { s with host := { s.host with
        journal := s.host.journal.map (fun x => if mine x.2 then (x.1, { x.2 with ready := true, late := i.late }) else x) } }
    slots.foldl tilePutAt s

/-- A RETIRE input frees Done entries; those of the active's rings are peer entries at the standby (R79). -/
def retireInput (s : State) (i : PairInput) : State :=
  let n := bytesAt i.payload 0 4
  let q := bytesAt i.payload 4 4
  if i.own || n != 0 then retireNow s n q
  else { s with host := { s.host with journal := s.host.journal.filter (fun e =>
    !(e.2.peer && e.2.session == 0 && e.2.state == 2 && seqLe e.2.seq q)) } }

/-- A PIN input adds the shift of an axis to the position that this unit counts on the ball; its own coordinates are
shifted by its own SET_POS or homing (R402). -/
def pinInput (s : State) (i : PairInput) : State :=
  let n := bytesAt i.payload 1 1 % 16
  if i.own || bytesAt i.payload 0 1 != 1 then s
  else setAxis s n { getAxis s n with counted := (getAxis s n).counted + signed 64 (bytesAt i.payload 2 8) }

/-- The effect of an input at its apply-line, by its kind. -/
def applyInput (s : State) (i : PairInput) : State :=
  if i.kind = 1 then commandInput s i
  else if i.kind = 2 then retireInput s i
  else if i.kind = 3 then applyLoopInput s i.payload i.late
  else if i.kind = 4 then applyNozzleInput s i.payload i.late
  else if i.kind = 5 then drypDone s (drypRead i.payload (i.payload.length / 5))
  else if i.kind = 6 then acceptMark s (bytesAt i.payload 0 1 % 8) (signed 64 (bytesAt i.payload 1 8))
  else if i.kind = 7 then applyStart s i.payload
  else if i.kind = 8 then (if i.late then ev s pgRime 1 else armSnapshot s (if i.own then 0 else 3))
  else if i.kind = 9 then pinInput s i
  else if i.kind = 10 then applyCheck s i.own i.payload
  else if i.kind = 11 then applySwitch s
  else s

/-- The first held input that is due, with the others. -/
def takeDue (s : State) : List PairInput → Option (PairInput × List PairInput)
  | [] => none
  | i :: r => if dueHere s i then some (i, r) else (takeDue s r).map (fun x => (x.1, i :: x.2))

/-- INPUT_APPLY (R22, R39, R182, R306, R348 to R351, R402): the first held input whose apply-line starts building, or, when
ordered, the first in SEQ order. Live counter 4 counts the partner's. -/
def execInputApply (s : State) : Host.Outcome State Fault Refusal :=
  .next (match takeDue s s.pair.inputs with
    | none => s
    | some x =>
      let s := { s with pair := { s.pair with inputs := x.2 } }
      applyInput (if x.1.own then s else count s pgPair 4) x.1)

/-! ### The end of a wake (R422, R425, R426) -/

/-- A Doze wake: image memory serves again, the panel is lit again, and what PCIe has asked of gated pages is done. -/
def wakeDoze (s : State) : State :=
  let s := memTrained (setPower s { s.power with pstate := 1, camPll := cameraClock s })
  let s := if pgEn s pgDisp && s.disp.hpd then dispStart (setDisp s { s.disp with switching := true }) else s
  let held := s.host.heldWrites
  let s := { s with host := { s.host with heldWrites := [] } }
  ev (held.foldl (fun s x => arriveWrite s .pcie x.1 x.2.1 x.2.2) s) pgClk 8

/-- The trained delays of the resume record return to the sub-channels (R426). -/
def restoreDelays (s : State) : State :=
  (List.range 8).foldl (fun s k =>
    let mine := s.power.resumeEdges.filter (fun e => e.1 / 16 == k)
    setSub s k { getSub s k with edges := mine.map (fun e => (e.1 % 16, e.2)) }) s

/-- A Deep wake with a sound resume record: the resident image runs. -/
def wakeDeep (s : State) : State :=
  let t := restoreDelays (volatileReset s true)
  ev (bootReady (memTrained { t with out := s.out })) pgClk 8

/-- A cold wake from Deep: the unit boots from the flash, and records WAKE_COLD when it is Ready. -/
def wakeCold (s : State) : State :=
  let t := volatileReset s true
  startBoot { t with out := s.out, sys := { t.sys with lateFaults := t.sys.lateFaults ++ [(0x0C02, 0)] } } 5 0

/-- WAKE_DONE (R422, R425, R426). `recordOk` tells whether the resident image matches the resume record. -/
def execWakeDone (recordOk : Bool) (s : State) : Host.Outcome State Fault Refusal :=
  .next (if s.power.pstate ≠ 4 then s
    else if s.power.waking = false then wakeDoze s
    else if recordOk && s.power.resume then wakeDeep s
    else wakeCold s)

end Sys2Proof.Machine
end

