-- ==== Sys2Proof/Machine/Dispatch.lean ====
section
/-! DEFINITION. One arm per command: each calls the meaning of its row. -/

namespace Sys2Proof.Machine

open Sys2Proof

def exec (i : Instr) (s : State) : Host.Outcome State Fault Refusal :=
  match i with
  | .watchdogExpiry core => Sys2Proof.Machine.execWatchdogExpiry core s
  | .registerWrite rq addr val byteEn => Sys2Proof.Machine.execRegisterWrite rq addr val byteEn s
  | .srst rq page => Sys2Proof.Machine.execSrst rq page s
  | .srstDone page => Sys2Proof.Machine.execSrstDone page s
  | .blockEnable rq page en clkReq => Sys2Proof.Machine.execBlockEnable rq page en clkReq s
  | .clockStart page => Sys2Proof.Machine.execClockStart page s
  | .counterLowRead rq page k rime => Sys2Proof.Machine.execCounterLowRead rq page k rime s
  | .counterHighRead rq page k rime => Sys2Proof.Machine.execCounterHighRead rq page k rime s
  | .highWordWrite rq addr val => Sys2Proof.Machine.execHighWordWrite rq addr val s
  | .commitArm rq page val => Sys2Proof.Machine.execCommitArm rq page val s
  | .commitCancel rq page => Sys2Proof.Machine.execCommitCancel rq page s
  | .commitApply page => Sys2Proof.Machine.execCommitApply page s
  | .nozzleTableWrite rq bar col val => Sys2Proof.Machine.execNozzleTableWrite rq bar col val s
  | .tableWindowWrite rq addr val => Sys2Proof.Machine.execTableWindowWrite rq addr val s
  | .ownerWrite rq resource code => Sys2Proof.Machine.execOwnerWrite rq resource code s
  | .gpioDirWrite rq openDrain val => Sys2Proof.Machine.execGpioDirWrite rq openDrain val s
  | .gpioOutWrite rq op val => Sys2Proof.Machine.execGpioOutWrite rq op val s
  | .evSetWrite rq page val => Sys2Proof.Machine.execEvSetWrite rq page val s
  | .snapshotTrigger rq val => Sys2Proof.Machine.execSnapshotTrigger rq val s
  | .snapshotTake => Sys2Proof.Machine.execSnapshotTake s
  | .ethFrameReceive port frame => Sys2Proof.Machine.execEthFrameReceive port frame s
  | .hello m => Sys2Proof.Machine.execHello m s
  | .close m => Sys2Proof.Machine.execClose m s
  | .keepalive m => Sys2Proof.Machine.execKeepalive m s
  | .cmd m => Sys2Proof.Machine.execCmd m s
  | .helloRing slot => Sys2Proof.Machine.execHelloRing slot s
  | .closeRing slot => Sys2Proof.Machine.execCloseRing slot s
  | .nop slot => Sys2Proof.Machine.execNop slot s
  | .jobDefine slot => Sys2Proof.Machine.execJobDefine slot s
  | .jobStart slot => Sys2Proof.Machine.execJobStart slot s
  | .jobStop slot => Sys2Proof.Machine.execJobStop slot s
  | .jobRelease slot => Sys2Proof.Machine.execJobRelease slot s
  | .tilePut slot => Sys2Proof.Machine.execTilePut slot s
  | .tileQuery slot => Sys2Proof.Machine.execTileQuery slot s
  | .regRead slot => Sys2Proof.Machine.execRegRead slot s
  | .regWrite slot => Sys2Proof.Machine.execRegWrite slot s
  | .applyLineWrite slot => Sys2Proof.Machine.execApplyLineWrite slot s
  | .tableWrite slot => Sys2Proof.Machine.execTableWrite slot s
  | .inflate slot => Sys2Proof.Machine.execInflate slot s
  | .inflateDone slot => Sys2Proof.Machine.execInflateDone slot s
  | .snapshot slot => Sys2Proof.Machine.execSnapshot slot s
  | .sessionTimeout session => Sys2Proof.Machine.execSessionTimeout session s
  | .resumeLimit session => Sys2Proof.Machine.execResumeLimit session s
  | .pcieLinkLoss => Sys2Proof.Machine.execPcieLinkLoss s
  | .submissionDoorbell q tail => Sys2Proof.Machine.execSubmissionDoorbell q tail s
  | .completionDoorbell q head => Sys2Proof.Machine.execCompletionDoorbell q head s
  | .submissionFetch q entry data => Sys2Proof.Machine.execSubmissionFetch q entry data s
  | .completionWrite q => Sys2Proof.Machine.execCompletionWrite q s
  | .announce => Sys2Proof.Machine.execAnnounce s
  | .journalReplay => Sys2Proof.Machine.execJournalReplay s
  | .gratuitousArp => Sys2Proof.Machine.execGratuitousArp s
  | .fragmentStoreDone slot => Sys2Proof.Machine.execFragmentStoreDone slot s
  | .fragTimeout job plane x y => Sys2Proof.Machine.execFragTimeout job plane x y s
  | .thawStart engine => Sys2Proof.Machine.execThawStart engine s
  | .thawDone engine => Sys2Proof.Machine.execThawDone engine s
  | .tileFetchDone bar x y => Sys2Proof.Machine.execTileFetchDone bar x y s
  | .reqTimeout job plane x y => Sys2Proof.Machine.execReqTimeout job plane x y s
  | .freezeDone engine client input flushes => Sys2Proof.Machine.execFreezeDone engine client input flushes s
  | .refresh sub => Sys2Proof.Machine.execRefresh sub s
  | .mr4Read sub double0 double1 => Sys2Proof.Machine.execMr4Read sub double0 double1 s
  | .retrainStep sub edge move margins => Sys2Proof.Machine.execRetrainStep sub edge move margins s
  | .hotHoldExpiry sub => Sys2Proof.Machine.execHotHoldExpiry sub s
  | .agePromotion channel request => Sys2Proof.Machine.execAgePromotion channel request s
  | .dramRead addr cls => Sys2Proof.Machine.execDramRead addr cls s
  | .dramWrite addr cls bytes => Sys2Proof.Machine.execDramWrite addr cls bytes s
  | .freqReq rq target req => Sys2Proof.Machine.execFreqReq rq target req s
  | .freqDone ok => Sys2Proof.Machine.execFreqDone ok s
  | .derateWindow => Sys2Proof.Machine.execDerateWindow s
  | .countEdge chan u v w phase => Sys2Proof.Machine.execCountEdge chan u v w phase s
  | .index chan => Sys2Proof.Machine.execIndex chan s
  | .serialFrame chan => Sys2Proof.Machine.execSerialFrame chan s
  | .serialSample chan f => Sys2Proof.Machine.execSerialSample chan f s
  | .serTimeout chan => Sys2Proof.Machine.execSerTimeout chan s
  | .load rq chan => Sys2Proof.Machine.execLoad rq chan s
  | .clrFault rq chan => Sys2Proof.Machine.execClrFault rq chan s
  | .posLoRead rq chan => Sys2Proof.Machine.execPosLoRead rq chan s
  | .speedWindow chan => Sys2Proof.Machine.execSpeedWindow chan s
  | .stillTimeout chan => Sys2Proof.Machine.execStillTimeout chan s
  | .mark bar falling edgesBack => Sys2Proof.Machine.execMark bar falling edgesBack s
  | .rowLineBuilt bar => Sys2Proof.Machine.execRowLineBuilt bar s
  | .bandTrimWrite rq bar bank band val => Sys2Proof.Machine.execBandTrimWrite rq bar bank band val s
  | .lineSend bar stream => Sys2Proof.Machine.execLineSend bar stream s
  | .skipEpisodeEnd bar => Sys2Proof.Machine.execSkipEpisodeEnd bar s
  | .drypointDone results => Sys2Proof.Machine.execDrypointDone results s
  | .validate rq wave => Sys2Proof.Machine.execValidate rq wave s
  | .tempTimeout lane slot => Sys2Proof.Machine.execTempTimeout lane slot s
  | .detect lane terminated => Sys2Proof.Machine.execDetect lane terminated s
  | .trainDone lane found => Sys2Proof.Machine.execTrainDone lane found s
  | .trainTimeout lane => Sys2Proof.Machine.execTrainTimeout lane s
  | .cap lane f => Sys2Proof.Machine.execCap lane f s
  | .capTimeout lane => Sys2Proof.Machine.execCapTimeout lane s
  | .lane lane f => Sys2Proof.Machine.execLane lane f s
  | .blockLockLost lane => Sys2Proof.Machine.execBlockLockLost lane s
  | .stat lane f => Sys2Proof.Machine.execStat lane f s
  | .lineLostEpisodeEnd lane bar => Sys2Proof.Machine.execLineLostEpisodeEnd lane bar s
  | .nack lane f => Sys2Proof.Machine.execNack lane f s
  | .timeResp lane f => Sys2Proof.Machine.execTimeResp lane f s
  | .idle lane f => Sys2Proof.Machine.execIdle lane f s
  | .idleSend lane => Sys2Proof.Machine.execIdleSend lane s
  | .linkTimeout lane => Sys2Proof.Machine.execLinkTimeout lane s
  | .syncSend lane => Sys2Proof.Machine.execSyncSend lane s
  | .waveResend lane wave => Sys2Proof.Machine.execWaveResend lane wave s
  | .planWrite rq lane serialHi val => Sys2Proof.Machine.execPlanWrite rq lane serialHi val s
  | .fomReport lane fom => Sys2Proof.Machine.execFomReport lane fom s
  | .eiDelay lane => Sys2Proof.Machine.execEiDelay lane s
  | .eiWake lane => Sys2Proof.Machine.execEiWake lane s
  | .ioOutWrite rq lane val => Sys2Proof.Machine.execIoOutWrite rq lane val s
  | .ioSafeWrite rq lane mask val => Sys2Proof.Machine.execIoSafeWrite rq lane mask val s
  | .ioOutResend => Sys2Proof.Machine.execIoOutResend s
  | .csiPacket port vc dataType wordCount ecc crcOk payload => Sys2Proof.Machine.execCsiPacket port vc dataType wordCount ecc crcOk payload s
  | .frameStart port vc number => Sys2Proof.Machine.execFrameStart port vc number s
  | .frameEnd port vc => Sys2Proof.Machine.execFrameEnd port vc s
  | .strobeTimeout ctx => Sys2Proof.Machine.execStrobeTimeout ctx s
  | .pipelineStart => Sys2Proof.Machine.execPipelineStart s
  | .pipelineDone => Sys2Proof.Machine.execPipelineDone s
  | .contextEnable rq ctx val => Sys2Proof.Machine.execContextEnable rq ctx val s
  | .tapRel rq ctx val => Sys2Proof.Machine.execTapRel rq ctx val s
  | .loopUpdate => Sys2Proof.Machine.execLoopUpdate s
  | .ladderClassify => Sys2Proof.Machine.execLadderClassify s
  | .loopEnable rq val => Sys2Proof.Machine.execLoopEnable rq val s
  | .ladderEnable rq val => Sys2Proof.Machine.execLadderEnable rq val s
  | .loopNoData bar => Sys2Proof.Machine.execLoopNoData bar s
  | .incrWrite rq hi => Sys2Proof.Machine.execIncrWrite rq hi s
  | .ptpSync m => Sys2Proof.Machine.execPtpSync m s
  | .followUp m => Sys2Proof.Machine.execFollowUp m s
  | .delayResp m => Sys2Proof.Machine.execDelayResp m s
  | .pdelay kind m => Sys2Proof.Machine.execPdelay kind m s
  | .ptpAnnounce m d => Sys2Proof.Machine.execPtpAnnounce m d s
  | .servoMeasurement => Sys2Proof.Machine.execServoMeasurement s
  | .announceTimeout => Sys2Proof.Machine.execAnnounceTimeout s
  | .ptcStep rq => Sys2Proof.Machine.execPtcStep rq s
  | .adj rq => Sys2Proof.Machine.execAdj rq s
  | .acceptStep rq => Sys2Proof.Machine.execAcceptStep rq s
  | .stepDone => Sys2Proof.Machine.execStepDone s
  | .tcForward kind m transport trailer egress => Sys2Proof.Machine.execTcForward kind m transport trailer egress s
  | .pairTimeExchange => Sys2Proof.Machine.execPairTimeExchange s
  | .pairHello m => Sys2Proof.Machine.execPairHello m s
  | .hbSend => Sys2Proof.Machine.execHbSend s
  | .hb m => Sys2Proof.Machine.execHb m s
  | .hbTimeout => Sys2Proof.Machine.execHbTimeout s
  | .pairFault m => Sys2Proof.Machine.execPairFault m s
  | .input m => Sys2Proof.Machine.execInput m s
  | .inputApply => Sys2Proof.Machine.execInputApply s
  | .crcMessage m => Sys2Proof.Machine.execCrcMessage m s
  | .crcWait line bar => Sys2Proof.Machine.execCrcWait line bar s
  | .copy m => Sys2Proof.Machine.execCopy m s
  | .copyCtrl m => Sys2Proof.Machine.execCopyCtrl m s
  | .copyPassDone => Sys2Proof.Machine.execCopyPassDone s
  | .position m => Sys2Proof.Machine.execPosition m s
  | .health m => Sys2Proof.Machine.execHealth m s
  | .healthSend laneErr scrubbedMiB => Sys2Proof.Machine.execHealthSend laneErr scrubbedMiB s
  | .checkInput => Sys2Proof.Machine.execCheckInput s
  | .tileReq m => Sys2Proof.Machine.execTileReq m s
  | .tileData m => Sys2Proof.Machine.execTileData m s
  | .retry seq => Sys2Proof.Machine.execRetry seq s
  | .formTimeout => Sys2Proof.Machine.execFormTimeout s
  | .switch rq => Sys2Proof.Machine.execSwitch rq s
  | .join rq => Sys2Proof.Machine.execJoin rq s
  | .solo rq => Sys2Proof.Machine.execSolo rq s
  | .leave rq => Sys2Proof.Machine.execLeave rq s
  | .soloWait => Sys2Proof.Machine.execSoloWait s
  | .copyTimeout => Sys2Proof.Machine.execCopyTimeout s
  | .safeOutput => Sys2Proof.Machine.execSafeOutput s
  | .profileUpdate axis => Sys2Proof.Machine.execProfileUpdate axis s
  | .targetWrite rq axis hi => Sys2Proof.Machine.execTargetWrite rq axis hi s
  | .stop rq axis => Sys2Proof.Machine.execStop rq axis s
  | .qstop rq axis => Sys2Proof.Machine.execQstop rq axis s
  | .home rq axis => Sys2Proof.Machine.execHome rq axis s
  | .engage rq axis => Sys2Proof.Machine.execEngage rq axis s
  | .disengage rq axis => Sys2Proof.Machine.execDisengage rq axis s
  | .setPos rq axis => Sys2Proof.Machine.execSetPos rq axis s
  | .axisClrFault rq axis => Sys2Proof.Machine.execAxisClrFault rq axis s
  | .pendArm rq axis hi => Sys2Proof.Machine.execPendArm rq axis hi s
  | .ratioApply axis => Sys2Proof.Machine.execRatioApply axis s
  | .step axis => Sys2Proof.Machine.execStep axis s
  | .stall axis => Sys2Proof.Machine.execStall axis s
  | .limitAssert axis positive => Sys2Proof.Machine.execLimitAssert axis positive s
  | .limitRelease axis positive => Sys2Proof.Machine.execLimitRelease axis positive s
  | .homeInput axis active stepsBack => Sys2Proof.Machine.execHomeInput axis active stepsBack s
  | .homeTimeout axis => Sys2Proof.Machine.execHomeTimeout axis s
  | .compareArm rq unit hi => Sys2Proof.Machine.execCompareArm rq unit hi s
  | .compareFire unit => Sys2Proof.Machine.execCompareFire unit s
  | .gpioEdge pin level => Sys2Proof.Machine.execGpioEdge pin level s
  | .pendSet rq word val => Sys2Proof.Machine.execPendSet rq word val s
  | .pendClr rq word val => Sys2Proof.Machine.execPendClr rq word val s
  | .enSet rq word val => Sys2Proof.Machine.execEnSet rq word val s
  | .enClr rq word val => Sys2Proof.Machine.execEnClr rq word val s
  | .claim rq target => Sys2Proof.Machine.execClaim rq target s
  | .complete rq target source => Sys2Proof.Machine.execComplete rq target source s
  | .evmsgRepeat => Sys2Proof.Machine.execEvmsgRepeat s
  | .srccfgWrite rq source val => Sys2Proof.Machine.execSrccfgWrite rq source val s
  | .pstateDoze rq => Sys2Proof.Machine.execPstateDoze rq s
  | .pstateDeep rq => Sys2Proof.Machine.execPstateDeep rq s
  | .wake cause pin => Sys2Proof.Machine.execWake cause pin s
  | .wakeDone recordOk => Sys2Proof.Machine.execWakeDone recordOk s
  | .xtalFail => Sys2Proof.Machine.execXtalFail s
  | .xtalRestore => Sys2Proof.Machine.execXtalRestore s
  | .tempMeasurement readings => Sys2Proof.Machine.execTempMeasurement readings s
  | .thermalStopDone => Sys2Proof.Machine.execThermalStopDone s
  | .tripRestart temps => Sys2Proof.Machine.execTripRestart temps s
  | .holdExpiry => Sys2Proof.Machine.execHoldExpiry s
  | .clrStop rq => Sys2Proof.Machine.execClrStop rq s
  | .voltageConversion reading => Sys2Proof.Machine.execVoltageConversion reading s
  | .roCount counts => Sys2Proof.Machine.execRoCount counts s
  | .pmbusTransaction cmd result => Sys2Proof.Machine.execPmbusTransaction cmd result s
  | .voutCheck mv => Sys2Proof.Machine.execVoutCheck mv s
  | .cal rq group => Sys2Proof.Machine.execCal rq group s
  | .calDone group corrections => Sys2Proof.Machine.execCalDone group corrections s
  | .apply rq group => Sys2Proof.Machine.execApply rq group s
  | .reload rq group => Sys2Proof.Machine.execReload rq group s
  | .hpdUnplug => Sys2Proof.Machine.execHpdUnplug s
  | .hpdIrq lockLost => Sys2Proof.Machine.execHpdIrq lockLost s
  | .linkTrainingDone => Sys2Proof.Machine.execLinkTrainingDone s
  | .ltTimeout => Sys2Proof.Machine.execLtTimeout s
  | .dispRetry => Sys2Proof.Machine.execDispRetry s
  | .latch => Sys2Proof.Machine.execLatch s
  | .vblank => Sys2Proof.Machine.execVblank s
  | .lineMatch => Sys2Proof.Machine.execLineMatch s
  | .frameDone readback => Sys2Proof.Machine.execFrameDone readback s
  | .underrun layers pixel => Sys2Proof.Machine.execUnderrun layers pixel s
  | .powerOnReset straps => Sys2Proof.Machine.execPowerOnReset straps s
  | .nreset widthNs => Sys2Proof.Machine.execNreset widthNs s
  | .bootStepDone r => Sys2Proof.Machine.execBootStepDone r s
  | .bootRetry slot0 slot1 => Sys2Proof.Machine.execBootRetry slot0 slot1 s
  | .resetRecordCopy => Sys2Proof.Machine.execResetRecordCopy s
  | .nvLogProgram => Sys2Proof.Machine.execNvLogProgram s
  | .nvmRead rq => Sys2Proof.Machine.execNvmRead rq s
  | .nvmProgram rq => Sys2Proof.Machine.execNvmProgram rq s
  | .nvmErase rq => Sys2Proof.Machine.execNvmErase rq s
  | .nvmDone r => Sys2Proof.Machine.execNvmDone r s
  | .barStoppingEnd bar => Sys2Proof.Machine.execBarStoppingEnd bar s
  | .blockLockGained lane => Sys2Proof.Machine.execBlockLockGained lane s
  | .bringUpResend lane => Sys2Proof.Machine.execBringUpResend lane s
  | .applyTReached lane => Sys2Proof.Machine.execApplyTReached lane s
  | .requestIssue sub => Sys2Proof.Machine.execRequestIssue sub s
  | .sharedStepPulse axis dir => Sys2Proof.Machine.execSharedStepPulse axis dir s
  | .dramScrub job plane x y => Sys2Proof.Machine.execDramScrub job plane x y s
  | .timeMessage m => Sys2Proof.Machine.execTimeMessage m s
  | .msixTableWrite index val => Sys2Proof.Machine.execMsixTableWrite index val s
  | .hpdPlug maxRate maxLanes => Sys2Proof.Machine.execHpdPlug maxRate maxLanes s
  | .nresetRelease straps => Sys2Proof.Machine.execNresetRelease straps s
  | .vddAonLoss => Sys2Proof.Machine.execVddAonLoss s
  | .dramSupplyLoss => Sys2Proof.Machine.execDramSupplyLoss s
  | .ethLinkChange port blockLock fecLock linkUp => Sys2Proof.Machine.execEthLinkChange port blockLock fecLock linkUp s
  | .ptpSyncInterval => Sys2Proof.Machine.execPtpSyncInterval s
  | .ptpAnnounceInterval => Sys2Proof.Machine.execPtpAnnounceInterval s
  | .delayRequestInterval => Sys2Proof.Machine.execDelayRequestInterval s
  | .delayReq m => Sys2Proof.Machine.execDelayReq m s
  | .cameraPllStop => Sys2Proof.Machine.execCameraPllStop s
  | .calibrationBound at_ => Sys2Proof.Machine.execCalibrationBound at_ s

end Sys2Proof.Machine
end

