-- ==== Sys2Proof/Safety.lean ====
section
/-! DEFINITION. The terms in which the statements speak: that a command completes, which parts of the state a change leaves
as they were, what each command may change at all, events and fault records, and the canonical form of image memory. -/

namespace Sys2Proof.Machine

open Sys2Proof

/-! ### Completion -/

/-- The command completes: it answers a next state, and that state has the property. -/
def completes (c : Instr) (s : State) (P : State → Prop) : Prop := ∃ t, exec c s = .next t ∧ P t

/-! ### Frames -/

/-- The parts of the state, in the order of its fields. -/
inductive Part where
  | regs
  | committed
  | held
  | latches
  | captured
  | lastRead
  | counters
  | rime
  | clk
  | chans
  | print
  | dram
  | host
  | links
  | cams
  | pair
  | motion
  | evc
  | power
  | disp
  | sys
  | snapWait
  | freeCount
  | out
  | pending
deriving DecidableEq, Repr

/-- A part of the state is unchanged. -/
def Part.same (p : Part) (s t : State) : Prop :=
  match p with
  | .regs => t.regs = s.regs
  | .committed => t.committed = s.committed
  | .held => t.held = s.held
  | .latches => t.latches = s.latches
  | .captured => t.captured = s.captured
  | .lastRead => t.lastRead = s.lastRead
  | .counters => t.counters = s.counters
  | .rime => t.rime = s.rime
  | .clk => t.clk = s.clk
  | .chans => t.chans = s.chans
  | .print => t.print = s.print
  | .dram => t.dram = s.dram
  | .host => t.host = s.host
  | .links => t.links = s.links
  | .cams => t.cams = s.cams
  | .pair => t.pair = s.pair
  | .motion => t.motion = s.motion
  | .evc => t.evc = s.evc
  | .power => t.power = s.power
  | .disp => t.disp = s.disp
  | .sys => t.sys = s.sys
  | .snapWait => t.snapWait = s.snapWait
  | .freeCount => t.freeCount = s.freeCount
  | .out => t.out = s.out
  | .pending => t.pending = s.pending

/-- Only the listed parts differ. -/
def onlyChanges (ps : List Part) (s t : State) : Prop := ∀ p : Part, p ∉ ps → p.same s t

/-- What raising an event may change: EV_PEND, the event controller with its counters, and what delivery sends. -/
def eventParts : List Part := [.regs, .counters, .host, .evc, .out]

/-- What recording a fault may change: beside the event, the logs, and what its class does to the unit (R481). -/
def faultParts : List Part := [.regs, .counters, .clk, .print, .host, .links, .pair, .evc, .sys, .snapWait, .out]

/-- Every part but the queue of commands. -/
def everything : List Part :=
  [.regs, .committed, .held, .latches, .captured, .lastRead, .counters, .rime, .clk, .chans, .print, .dram, .host, .links,
   .cams, .pair, .motion, .evc, .power, .disp, .sys, .snapWait, .freeCount, .out]

/-- The parts of the state that a command may change at all. -/
def mayChange (c : Instr) : List Part :=
  match c with
  | .watchdogExpiry .. | .registerWrite .. | .srst .. | .highWordWrite .. | .regWrite .. | .applyLineWrite ..
  | .tableWrite .. | .inputApply | .wakeDone .. | .tempMeasurement .. | .powerOnReset .. | .nreset ..
  | .vddAonLoss =>
    everything
  | .srstDone .. =>
    [.regs]
  | .blockEnable .. | .loopEnable .. =>
    faultParts ++ [.chans, .cams, .motion, .disp]
  | .clockStart .. | .cameraPllStop =>
    [.regs, .power]
  | .counterLowRead .. | .counterHighRead .. =>
    [.latches, .lastRead]
  | .commitArm .. =>
    eventParts ++ [.committed, .disp]
  | .commitCancel .. =>
    [.regs, .cams, .disp]
  | .commitApply .. | .latch =>
    faultParts ++ [.committed, .cams, .disp]
  | .nozzleTableWrite .. | .tableWindowWrite .. | .sessionTimeout .. | .resumeLimit .. | .reqTimeout ..
  | .skipEpisodeEnd .. | .tempTimeout .. | .cap .. | .stat .. | .lineLostEpisodeEnd .. | .timeResp ..
  | .linkTimeout .. | .waveResend .. | .fomReport .. | .strobeTimeout .. | .loopNoData .. | .ptpAnnounce ..
  | .announceTimeout | .crcWait .. | .healthSend .. | .soloWait | .copyTimeout | .bootRetry ..
  | .calibrationBound .. =>
    faultParts ++ [.cams]
  | .ownerWrite .. | .gpioOutWrite .. | .evSetWrite .. | .snapshot .. | .submissionDoorbell .. | .bandTrimWrite ..
  | .ladderEnable .. | .pendSet .. | .pendClr .. | .enSet .. | .enClr .. | .complete .. | .srccfgWrite .. | .cal ..
  | .reload .. | .vblank =>
    eventParts
  | .gpioDirWrite .. =>
    eventParts ++ [.held]
  | .snapshotTrigger .. =>
    eventParts ++ [.pair, .snapWait]
  | .snapshotTake =>
    eventParts ++ [.rime, .snapWait]
  | .ethFrameReceive .. =>
    [.counters, .dram, .host, .out]
  | .hello .. | .close .. | .keepalive .. | .cmd .. =>
    [.counters, .host, .pair, .out]
  | .helloRing .. | .closeRing .. | .nop .. | .tileQuery .. | .announce | .gratuitousArp =>
    [.host, .out]
  | .jobDefine .. | .jobStop .. =>
    [.print, .host, .out]
  | .jobStart .. | .freqDone .. | .stepDone =>
    faultParts ++ [.chans, .dram, .cams, .motion]
  | .jobRelease .. =>
    [.regs, .print, .host, .pair, .out]
  | .tilePut .. =>
    eventParts ++ [.print, .dram, .pair]
  | .regRead .. =>
    eventParts ++ [.latches, .captured, .freeCount]
  | .inflate .. =>
    [.regs, .print, .dram, .host, .out]
  | .inflateDone .. =>
    eventParts ++ [.print]
  | .pcieLinkLoss =>
    [.host]
  | .completionDoorbell .. | .switch .. =>
    eventParts ++ [.pair]
  | .submissionFetch .. =>
    [.regs, .counters, .dram, .host, .pair, .out]
  | .completionWrite .. =>
    [.regs, .host, .out]
  | .journalReplay =>
    [.regs, .counters, .host, .out]
  | .fragmentStoreDone .. =>
    [.counters, .print, .dram, .host, .pair, .out]
  | .fragTimeout .. =>
    eventParts ++ [.print, .pair]
  | .thawStart .. =>
    [.regs, .print, .dram]
  | .thawDone .. | .tileFetchDone .. | .derateWindow | .dramScrub .. | .dramSupplyLoss =>
    faultParts ++ [.dram, .cams]
  | .freezeDone .. =>
    [.regs, .counters, .print, .dram, .pair]
  | .refresh .. =>
    [.counters, .dram, .out]
  | .mr4Read .. | .hotHoldExpiry .. =>
    eventParts ++ [.dram, .links]
  | .retrainStep .. =>
    faultParts ++ [.dram, .cams, .freeCount]
  | .agePromotion .. | .dramRead .. | .dramWrite .. =>
    [.counters, .dram]
  | .freqReq .. =>
    eventParts ++ [.dram]
  | .countEdge .. =>
    faultParts ++ [.chans, .dram, .cams, .motion, .disp]
  | .index .. | .serialSample .. =>
    faultParts ++ [.chans, .cams, .motion]
  | .serialFrame .. =>
    [.counters, .chans, .out]
  | .serTimeout .. =>
    faultParts ++ [.chans, .cams]
  | .load .. | .clrFault .. | .speedWindow .. | .stillTimeout .. =>
    eventParts ++ [.chans]
  | .posLoRead .. =>
    [.captured, .lastRead]
  | .mark .. =>
    faultParts ++ [.dram, .cams, .motion]
  | .rowLineBuilt .. =>
    faultParts ++ [.committed, .dram, .cams]
  | .lineSend .. | .loopUpdate | .ladderClassify =>
    faultParts ++ [.committed, .cams]
  | .drypointDone .. =>
    eventParts ++ [.committed, .pair]
  | .validate .. | .ioOutWrite .. =>
    eventParts ++ [.links]
  | .detect .. | .eiWake .. =>
    [.links, .out]
  | .trainDone .. | .safeOutput =>
    [.counters, .links, .pair, .out]
  | .trainTimeout .. | .capTimeout .. | .lane .. | .nack .. | .idleSend .. | .syncSend .. | .eiDelay ..
  | .ioOutResend | .blockLockGained .. | .bringUpResend .. | .applyTReached .. =>
    [.counters, .links, .out]
  | .blockLockLost .. =>
    [.clk, .links]
  | .idle .. =>
    [.counters]
  | .planWrite .. =>
    faultParts ++ [.held, .cams]
  | .ioSafeWrite .. =>
    eventParts ++ [.held, .links]
  | .csiPacket .. | .pipelineDone =>
    eventParts ++ [.dram, .cams]
  | .frameStart .. | .frameEnd .. | .contextEnable .. | .tapRel .. =>
    eventParts ++ [.cams]
  | .pipelineStart =>
    [.regs, .cams]
  | .incrWrite .. =>
    eventParts ++ [.held, .clk]
  | .ptpSync .. | .followUp .. | .delayResp .. =>
    [.regs, .counters, .clk]
  | .pdelay .. =>
    [.regs, .counters, .clk, .out]
  | .servoMeasurement =>
    faultParts ++ [.cams, .freeCount]
  | .ptcStep .. | .adj .. =>
    eventParts ++ [.clk, .links]
  | .acceptStep .. =>
    eventParts ++ [.clk]
  | .tcForward .. =>
    [.counters, .out]
  | .pairTimeExchange | .delayRequestInterval =>
    [.counters, .clk, .out]
  | .pairHello .. | .hb .. | .pairFault .. | .input .. | .crcMessage .. | .copy .. | .copyCtrl .. | .position ..
  | .health .. | .tileReq .. | .tileData .. | .timeMessage .. =>
    faultParts ++ [.committed, .held, .chans, .dram, .cams, .motion, .freeCount]
  | .hbSend | .copyPassDone | .checkInput | .retry .. =>
    [.counters, .pair, .out]
  | .hbTimeout | .formTimeout | .stall .. | .limitAssert .. | .homeTimeout .. =>
    faultParts ++ [.cams, .motion]
  | .join .. | .leave .. =>
    eventParts ++ [.clk, .print, .cams, .pair]
  | .solo .. =>
    faultParts ++ [.committed, .held, .cams, .motion]
  | .profileUpdate .. | .stop .. | .qstop .. | .home .. | .engage .. | .disengage .. | .axisClrFault ..
  | .ratioApply .. =>
    eventParts ++ [.motion]
  | .targetWrite .. | .pendArm .. =>
    eventParts ++ [.held, .motion]
  | .setPos .. | .homeInput .. =>
    eventParts ++ [.pair, .motion]
  | .step .. =>
    [.counters, .motion, .out]
  | .limitRelease .. | .sharedStepPulse .. =>
    [.motion]
  | .compareArm .. =>
    eventParts ++ [.held, .cams, .motion]
  | .compareFire .. =>
    eventParts ++ [.cams, .motion]
  | .gpioEdge .. | .msixTableWrite .. =>
    [.counters, .host, .evc, .out]
  | .claim .. =>
    [.lastRead, .counters, .host, .evc, .out]
  | .evmsgRepeat =>
    [.counters, .host, .out]
  | .pstateDoze .. =>
    eventParts ++ [.dram, .links, .power, .disp]
  | .pstateDeep .. =>
    eventParts ++ [.dram, .links, .power]
  | .wake .. =>
    [.regs, .counters, .power]
  | .xtalFail | .thermalStopDone | .voltageConversion .. | .roCount .. | .pmbusTransaction .. | .voutCheck ..
  | .calDone .. | .apply .. =>
    faultParts ++ [.cams, .power]
  | .xtalRestore | .holdExpiry =>
    [.power]
  | .tripRestart .. =>
    [.regs, .power, .sys]
  | .clrStop .. =>
    eventParts ++ [.links, .power]
  | .hpdUnplug | .hpdIrq .. | .lineMatch | .underrun .. =>
    eventParts ++ [.disp]
  | .linkTrainingDone =>
    [.disp, .out]
  | .ltTimeout | .dispRetry | .frameDone .. | .hpdPlug .. =>
    faultParts ++ [.cams, .disp]
  | .bootStepDone .. =>
    faultParts ++ [.chans, .dram, .cams, .motion, .power, .disp, .freeCount]
  | .resetRecordCopy =>
    [.sys]
  | .nvLogProgram =>
    [.counters, .sys]
  | .nvmRead .. | .nvmProgram .. | .nvmErase .. =>
    eventParts ++ [.sys]
  | .nvmDone .. =>
    eventParts ++ [.sys, .freeCount]
  | .barStoppingEnd .. =>
    [.regs, .counters, .print, .links, .pair, .out]
  | .requestIssue .. =>
    [.regs, .counters, .dram, .out]
  | .nresetRelease .. =>
    [.regs, .sys]
  | .ethLinkChange .. =>
    [.regs, .freeCount]
  | .ptpSyncInterval | .ptpAnnounceInterval =>
    [.clk, .out]
  | .delayReq .. =>
    [.out]

/-- Every word of the register window but the listed ones reads as stored before. -/
def wordsKept (as : List Nat) (s t : State) : Prop := ∀ a, a ∉ as → rd t a = rd s a

/-- Every live counter but the listed one (page and number) holds what it held. -/
def countersKept (p k : Nat) (s t : State) : Prop :=
  ∀ q j, 128 * q + j ≠ 128 * p + k → counter t q j = counter s q j

/-! ### Events, counts and faults -/

/-- A bit of a page's EV_PEND is set, and its other bits are as they were. -/
def raised (s t : State) (page bit : Nat) : Prop := evPend t page = evPend s page ||| 2 ^ bit

/-- A live counter has counted one. -/
def counted (s t : State) (p k : Nat) : Prop := counter t p k = (counter s p k + 1) % 2 ^ 64

/-- A fault record of a code and class has been entered in the RAM log, with the next record number. -/
def recorded (s t : State) (code cls : Nat) : Prop :=
  t.sys.seq = s.sys.seq + 1 ∧
    ∃ r, t.sys.ramLog.getLast? = some r ∧ r.code = code ∧ r.cls = cls ∧ r.seq = s.sys.seq

/-- A write of a block register passes the checks that every write passes (R6, R33, R42, R509). -/
def admitted (s : State) (a v : Nat) : Prop := gate s a v = none

/-- Pages whose registers no rule gives an effect of their own at the write: LINE, BAR, PLC, DRYP and FIRN. -/
def plainPage (p : Nat) : Bool :=
  p == pgLine || p == pgDryp || p == pgFirn || (decide (0x50 ≤ p) && decide (p < 0x68))

/-- Nothing has been sent but the listed messages, in their order. -/
def sends (s t : State) (os : List Out) : Prop := t.out = s.out ++ os

/-! ### Host commands -/

/-- The journal entry of a command is Done with a status (R78). -/
def doneAs (t : State) (slot st : Nat) : Prop := ∃ e, getEntry t slot = some e ∧ e.state = 2 ∧ e.status = st

/-- The other journal entries are as they were. -/
def entriesKept (s t : State) (slot : Nat) : Prop := ∀ k, k ≠ slot → getEntry t k = getEntry s k

/-- A Gisha message of a type reaches the open session n of an active unit that handles commands (R62, R422). -/
def heard (s : State) (m : UdpMsg) (type n : Nat) : Prop :=
  dozing s = false ∧ arrives s m = true ∧ gWellFormed m.data = true ∧ gType m.data = type ∧ sessionOf s m = some n ∧
    isActive s = true

/-- The journal entry of a command on a ring is in place, as it came. -/
def journalled (t : State) (k q : Nat) (entry data : List Byte) : Prop :=
  ∃ e, getEntry t k = some e ∧ e.session = 0 ∧ e.ring = q ∧ e.seq = eSeq entry ∧ e.entry = entry ∧ e.data = data

/-- Writing address and value pairs in order, up to and with the first that is refused: k pairs are written unrefused, and
u is the state that the writes leave (R75). -/
def wroteInOrder (rq : Requester) (ps : List (Nat × Nat)) (s : State) (k : Nat) (u : State) : Prop :=
  let after (n : Nat) : State := (ps.take n).foldl (fun s x => writeReg s rq x.1 x.2) s
  k ≤ ps.length ∧ u = after (k + 1) ∧
    (∀ i x, i < k → ps[i]? = some x → writeRefused (after i) rq x.1 x.2 = false) ∧
    (∀ x, ps[k]? = some x → writeRefused (after k) rq x.1 x.2 = true)

/-! ### Image memory -/

/-- The canonical form of image memory: addresses rise strictly and no listed byte equals what an unlisted one reads. -/
abbrev memoryCanonical (s : State) : Prop := memWf s.dram.mem = true

end Sys2Proof.Machine
end

