-- ==== Sys2Proof/Certificates/Slice0/Obligations.lean ====
section
/-! DEFINITION. The statements for the provers, by the chapters of the spec. A statement about a command names what the next
state holds (its own effect) and which parts stay; `CommandFrames` says for every command which parts may change at all. -/

section Statements

open Sys2Proof Sys2Proof.Machine

/-! ### The machine as a whole -/

/-- A step takes the command at the front of the queue and runs it with the queue's rest. -/
def Obligations.StepRunsFrontCommand : Prop :=
  ∀ (c : Instr) (r : List Instr) (s : State),
    Machine.step { s with pending := c :: r } = exec c { s with pending := r }

/-- With no command waiting and the unit running, a step is one press-time tick (R316): NS and FRAC gain INCR, SEC counts a
full second, and nothing but press time and the counts of throttled slots changes. That a step on an empty queue is a tick
is the model's choice (assumption log 10). -/
def Obligations.EmptyQueueTicks : Prop :=
  ∀ s : State, s.pending = [] → unreachable s = false → s.clk.ns < 10 ^ 9 → s.clk.frac < 2 ^ 32 → s.clk.incr < 2 ^ 40 →
    ∃ t, Machine.step s = .next t ∧
      (t.clk.sec = s.clk.sec ∧
          t.clk.ns * 2 ^ 32 + t.clk.frac = s.clk.ns * 2 ^ 32 + s.clk.frac + s.clk.incr ∧ t.clk.ns < 10 ^ 9 ∨
        t.clk.sec = (s.clk.sec + 1) % 2 ^ 48 ∧
          10 ^ 9 * 2 ^ 32 + t.clk.ns * 2 ^ 32 + t.clk.frac = s.clk.ns * 2 ^ 32 + s.clk.frac + s.clk.incr ∧
          t.clk.ns < 10 ^ 9) ∧
      t.clk.frac < 2 ^ 32 ∧ onlyChanges [.clk, .counters] s t

/-- Every command answers a next state, but for an access to image memory beyond what is installed, which faults. -/
def Obligations.EveryCommandAnswers : Prop :=
  (∀ (c : Instr) (s : State), (∀ a k, c ≠ .dramRead a k) → (∀ a k bs, c ≠ .dramWrite a k bs) → ∃ t, exec c s = .next t) ∧
  (∀ (a k : Nat) (s : State), outside s (a / 64 * 64) = false → ∃ t, exec (.dramRead a k) s = .next t) ∧
  (∀ (a k : Nat) (bs : List (Option Byte)) (s : State), outside s (a / 64 * 64) = false →
    ∃ t, exec (.dramWrite a k bs) s = .next t) ∧
  (∀ (a k : Nat) (bs : List (Option Byte)) (s : State), outside s (a / 64 * 64) = true →
    exec (.dramRead a k) s = .fault (.outsideImageMemory (a / 64 * 64)) ∧
    exec (.dramWrite a k bs) s = .fault (.outsideImageMemory (a / 64 * 64)))

/-- The frame of all 250 commands: a command changes only the parts of the state that the table `mayChange` gives it. -/
def Obligations.CommandFrames : Prop :=
  ∀ (c : Instr) (s t : State), exec c s = .next t → onlyChanges (mayChange c) s t

/-- Image memory stays in its canonical form over every step, from any state in which it has it. -/
def Obligations.StepKeepsMemoryCanonical : Prop :=
  ∀ s t : State, memoryCanonical s → Machine.step s = .next t → memoryCanonical t

/-- The state after reset: the spec's reset values that the state holds apart from the register window (which reads its
reset values while nothing is written), image memory in its canonical form, and no command waiting. -/
def Obligations.ResetState : Prop :=
  memoryCanonical State.reset ∧ State.reset.pending = [] ∧ State.reset.out = [] ∧ State.reset.dram.mem = [] ∧
    State.reset.pair.role = 0 ∧ State.reset.clk.incr = 4 * 2 ^ 32 ∧ State.reset.sys.bootState = 0 ∧
    State.reset.sys.ramLog = [] ∧ State.reset.host.journal = [] ∧ State.reset.host.sessions = [] ∧
    (∀ a, rd State.reset a = (regReset a).toNat) ∧ (∀ a, cm State.reset a = (regReset a).toNat) ∧
    (∀ p k, counter State.reset p k = 0)

/-- What the block has sent stays sent, no free value is drawn a second time, and a step takes exactly the front command
from the queue. -/
def Obligations.StepHistory : Prop :=
  ∀ s t : State, Machine.step s = .next t →
    s.out <+: t.out ∧ s.freeCount ≤ t.freeCount ∧ t.pending = s.pending.tail

/-! ### The register window (02) -/

/-- REGISTER_WRITE and HIGH_WORD_WRITE on the pages whose registers have no rule of their own (R5, R25, R37): a write that
passes the checks stores the writable bits; a low word of 64 bits is held, and takes effect with its high word. Nothing
else changes. A write of the PCIe function to an active unit of a pair goes the way of an input instead
(`RegisterWriteForwardedRule`). -/
def RegisterWriteStoresRule : Prop :=
  ∀ (s : State) (rq : Requester) (a : Nat) (v : Word) (r : RegSpec),
    unreachable s = false →
    (rq ≠ .pcie ∨ dozing s = false ∧ romOnly s (a / 4096) = false ∧ (s.pair.role = 0 ∨ isActive s = false)) →
    regSpec a = some r → plainPage (a / 4096) = true → a % 4 = 0 →
    0x40 ≤ a % 4096 → a % 4096 < 0x800 → admitted s a v.toNat →
    (r.half = 0 →
      completes (.registerWrite rq a v 0xF#4) s (fun t =>
        rd t a = writtenWord r (rd s a) v.toNat ∧ wordsKept [a] s t ∧ onlyChanges [.regs] s t)) ∧
    (r.half = 1 →
      completes (.registerWrite rq a v 0xF#4) s (fun t =>
        heldLow t a = v.toNat &&& r.rw ∧ wordsKept [] s t ∧ onlyChanges [.held] s t)) ∧
    (r.half = 2 → 4 ≤ a →
      completes (.highWordWrite rq a v) s (fun t =>
        rd t (a - 4) = heldLow s (a - 4) ∧ rd t a = writtenWord r (rd s a) v.toNat ∧ wordsKept [a - 4, a] s t ∧
          onlyChanges [.regs, .held] s t))

/-- A write of the PCIe function to an active unit of a pair, of a word that R356 copies, becomes an input of both units, and
no word changes before its apply-line (R348, R349). -/
def RegisterWriteForwardedRule : Prop :=
  ∀ (s : State) (a : Nat) (v : Word), unreachable s = false → dozing s = false → romOnly s (a / 4096) = false →
    s.pair.role ≠ 0 → isActive s = true → forwardable a = true →
    completes (.registerWrite .pcie a v 0xF#4) s (fun t =>
      (∃ i, t.pair.inputs = s.pair.inputs ++ [i] ∧ i.kind = 1 ∧ i.own = true ∧ i.payload = writePayload a v.toNat) ∧
        t.regs = s.regs ∧ onlyChanges [.counters, .pair, .out] s t)

/-- A REGISTER_WRITE that a check turns away has no effect but its event (R6, R33, R34, R42): an undefined address none at
all, a block whose clock is off CLOCK_OFF, a shadow of a page with a pending commit REFUSED, a partial write of PCIe
BAD_ACCESS on SYS. In Doze a PCIe write to a page that is not clocked is held until the wake (R422), and in Deep, on the
wake from it, in reset and after a trip no write reaches a register. -/
def RegisterWriteRefusedRule : Prop :=
  ∀ (s : State) (rq : Requester) (a : Nat) (v : Word), unreachable s = false →
    (rq ≠ .pcie → plainPage (a / 4096) = true → a % 4 = 0 → 0x40 ≤ a % 4096 → a % 4096 < 0x800 →
      (regSpec a = none → exec (.registerWrite rq a v 0xF#4) s = .next s) ∧
      (∀ r, regSpec a = some r →
        (pgClkOn s (a / 4096) = false →
          completes (.registerWrite rq a v 0xF#4) s (fun t =>
            raised s t (headerOf (a / 4096)) 6 ∧ wordsKept [ra (headerOf (a / 4096)) 0x24] s t ∧
              onlyChanges eventParts s t)) ∧
        (pgClkOn s (a / 4096) = true → r.sh = true → commitPending s (headerOf (a / 4096)) = true →
          completes (.registerWrite rq a v 0xF#4) s (fun t =>
            raised s t (headerOf (a / 4096)) 4 ∧ wordsKept [ra (headerOf (a / 4096)) 0x24] s t ∧
              onlyChanges eventParts s t)))) ∧
    (∀ be : BitVec 4, be ≠ 0xF#4 → romOnly s (a / 4096) = false →
      completes (.registerWrite .pcie a v be) s (fun t =>
        raised s t pgSys 7 ∧ wordsKept [ra pgSys 0x24] s t ∧ onlyChanges eventParts s t)) ∧
    (dozing s = true → dozePage (headerOf (a / 4096)) = false → romOnly s (a / 4096) = false →
      completes (.registerWrite .pcie a v 0xF#4) s (fun t =>
        t.host.heldWrites = s.host.heldWrites ++ [(a, v, 0xF#4)] ∧ t.regs = s.regs ∧ onlyChanges [.host] s t)) ∧
    ∀ u : State, unreachable u = true → exec (.registerWrite rq a v 0xF#4) u = .next u

/-- Writes of the registers that no rule gives an effect of their own, stored, forwarded or turned away (R5, R6, R25, R33,
R34, R37, R42, R348, R422). -/
def Obligations.RegisterWrites : Prop := RegisterWriteStoresRule ∧ RegisterWriteForwardedRule ∧ RegisterWriteRefusedRule

/-- COUNTER_LOW_READ and COUNTER_HIGH_READ (R26, R36): the low word is answered and the high word goes to the latch of the
requester, from which the high read answers; the latches of other requesters stay, and a read changes nothing else. -/
def CounterReadPairRule : Prop :=
  ∀ (s : State) (rq : Requester) (p k : Nat) (rime : Bool), p < 256 → k < 128 → (pageInfo p).isSome = true →
    pgClkOn s p = true →
    completes (.counterLowRead rq p k rime) s (fun t =>
      tget (fun _ => 0#32) t.lastRead (rqKey rq) = BitVec.ofNat 32 (counterOf s p k rime) ∧
        latchOf t rq = counterOf s p k rime / 2 ^ 32 % 2 ^ 32 ∧
        (∀ o, rqKey o ≠ rqKey rq → latchOf t o = latchOf s o) ∧ onlyChanges [.latches, .lastRead] s t) ∧
    completes (.counterHighRead rq p k rime) s (fun t =>
      tget (fun _ => 0#32) t.lastRead (rqKey rq) = BitVec.ofNat 32 (latchOf s rq) ∧ onlyChanges [.lastRead] s t)

/-- A low read and then a high read of a counter by one requester give the two halves of the one value that the counter had
at the low read, whatever commands of other kinds ran between, so long as the requester's latch stayed (R36). -/
def CounterReadsAreConsistentRule : Prop :=
  ∀ (s t u w : State) (rq : Requester) (p k : Nat) (rime : Bool), p < 256 → k < 128 → (pageInfo p).isSome = true →
    pgClkOn s p = true → pgClkOn u p = true → counterOf s p k rime < 2 ^ 64 →
    exec (.counterLowRead rq p k rime) s = .next t → u.latches = t.latches →
    exec (.counterHighRead rq p k rime) u = .next w →
    (tget (fun _ => 0#32) w.lastRead (rqKey rq)).toNat * 2 ^ 32 + (tget (fun _ => 0#32) t.lastRead (rqKey rq)).toNat =
      counterOf s p k rime

/-- The live counters as requesters read them (R26, R36). -/
def Obligations.CounterReads : Prop := CounterReadPairRule ∧ CounterReadsAreConsistentRule

/-- COMMIT_ARM (R40, R41, R42): ARM with AT_LINE = 0 on a page with no pending commit sets PENDING; with AT_LINE = 1, while
the reference bar does not print, the commit waits for the line that PG_COMMIT_LINE holds; a second ARM leaves the
pending commit as it is. No shadow and no committed value changes. -/
def CommitArmRule : Prop :=
  ∀ (s : State) (rq : Requester) (p : Nat) (v : Word), isHeader p = true → p ≠ pgDisp →
    v.getLsbD 0 = true → v.getLsbD 3 = false → v.getLsbD 4 = false →
    (commitPending s p = false → v.getLsbD 1 = false →
      completes (.commitArm rq p v) s (fun t =>
        commitPending t p = true ∧ commitAtLine t p = false ∧ rdb t (ra p 0x18) 1 = false ∧ wordsKept [ra p 0x18] s t ∧
          (∀ a, a ≠ ra p 0x18 → cm t a = cm s a) ∧ onlyChanges [.regs, .committed] s t)) ∧
    (commitPending s p = false → v.getLsbD 1 = true → printing s (pageBar s p) = false →
      completes (.commitArm rq p v) s (fun t =>
        commitPending t p = true ∧ commitAtLine t p = true ∧ commitLine t p = rd s (ra p 0x1C) ∧
          wordsKept [ra p 0x18] s t ∧ (∀ a, a ≠ ra p 0x18 → a ≠ ra p 0x1C → cm t a = cm s a) ∧
          onlyChanges [.regs, .committed] s t)) ∧
    (commitPending s p = true →
      completes (.commitArm rq p v) s (fun t =>
        commitPending t p = true ∧ commitAtLine t p = commitAtLine s p ∧ commitLine t p = commitLine s p ∧
          wordsKept [ra p 0x18] s t ∧ onlyChanges [.regs] s t))

/-- COMMIT_CANCEL (R44): a pending commit is dropped and the committed values stay; with none pending nothing happens. A
write with both CANCEL and ARM is ignored as a whole and sets REFUSED. -/
def Obligations.CommitCancel : Prop :=
  ∀ (s : State) (rq : Requester) (p : Nat), isHeader p = true →
    (commitPending s p = true →
      completes (.commitCancel rq p) s (fun t =>
        commitPending t p = false ∧ rdb t (ra p 0x18) 1 = rdb s (ra p 0x18) 1 ∧ wordsKept [ra p 0x18] s t ∧
          onlyChanges [.regs, .cams, .disp] s t)) ∧
    (commitPending s p = false → exec (.commitCancel rq p) s = .next s) ∧
    (∀ v : Word, v.getLsbD 4 = true →
      completes (.commitArm rq p v) s (fun t =>
        raised s t (headerOf p) 4 ∧ wordsKept [ra (headerOf p) 0x24] s t ∧ onlyChanges eventParts s t))

/-- COMMIT_APPLY of a page that is committed alone (R41, R43): when every check passes, all shadows of the block are
committed at once, PENDING clears and COMMIT_DONE is set; when one fails, none is, PENDING clears and COMMIT_REFUSED is
set. The shadows stay either way. -/
def CommitApplyRule : Prop :=
  ∀ (s : State) (p : Nat), isHeader p = true → p ≠ pgDisp → (p < 0x50 ∨ 0x60 ≤ p) → commitPending s p = true →
    commitAtLine s p = false →
    (pageCheck s (copyShadows s p) p = 0 →
      completes (.commitApply p) s (fun t =>
        (∀ a ∈ blockShadows p, cm t a = rd s a) ∧ (∀ a, a ∉ blockShadows p → cm t a = cm s a) ∧
          commitPending t p = false ∧ rdb t (ra p 0x24) 0 = true ∧ wordsKept [ra p 0x18, ra p 0x24, ra pgDryp 0x54] s t)) ∧
    (pageCheck s (copyShadows s p) p ≠ 0 →
      completes (.commitApply p) s (fun t =>
        t.committed = s.committed ∧ commitPending t p = false ∧ rdb t (ra p 0x24) 2 = true ∧
          (∀ a, checkErrOf p = some a → rd t a = pageCheck s (copyShadows s p) p % 2 ^ 32) ∧
          (∀ a, a ≠ ra p 0x18 → a ≠ ra p 0x24 → checkErrOf p ≠ some a → rd t a = rd s a)))

/-- Arming a commit, and applying the commit of a page that is committed alone (R40 to R43). -/
def Obligations.Commits : Prop := CommitArmRule ∧ CommitApplyRule

/-- NOZZLE_TABLE_WRITE (R47): the entry of a bar that does not print takes the value at once, and what was staged for its
column is removed; on a printing bar the value is staged, and the entry in effect stays; nozzles
MISSING up to LADDER_LIMIT are recorded, class B (R313); with a full buffer and a column
not yet staged nothing is stored and STAGE_FULL is set. BAND_TRIM_WRITE stores 12 bits (R194); TABLE_WINDOW_WRITE of a
screen word of a bar that does not print stores its defined bits, and is refused on a printing bar (R46, R48). -/
def Obligations.TableWrites : Prop :=
  (∀ (s : State) (rq : Requester) (b c : Nat) (v : Word), b < 8 → c < 131072 → setOk s (nzWset v.toNat) (drop4 s b) = true →
    (barPasses s b = false →
      completes (.nozzleTableWrite rq b c v) s (fun t =>
        rd t (nozzleAddr b c) = v.toNat % 2 ^ 28 ∧ staged t b c = false ∧
          (missingCount t b < rdf s (loopA 0x98) 16 0 →
            wordsKept [nozzleAddr b c] s t ∧ onlyChanges [.regs, .print, .cams] s t) ∧
          (rdf s (loopA 0x98) 16 0 ≤ missingCount t b → b ∉ s.cams.limitSeen → recorded s t 0x0806 1))) ∧
    (barPasses s b = true → staged s b c = true ∨ (getBar s b).staging.length < 1024 →
      completes (.nozzleTableWrite rq b c v) s (fun t =>
        nozzleNext t b c = v.toNat % 2 ^ 28 ∧ (∀ d, d ≠ c → nozzleNext t b d = nozzleNext s b d) ∧ wordsKept [] s t ∧
          onlyChanges [.print] s t)) ∧
    (barPasses s b = true → staged s b c = false → 1024 ≤ (getBar s b).staging.length →
      completes (.nozzleTableWrite rq b c v) s (fun t =>
        raised s t (pgBar b) 8 ∧ wordsKept [ra (pgBar b) 0x24] s t ∧ onlyChanges eventParts s t))) ∧
  (∀ (s : State) (rq : Requester) (b j k : Nat) (v : Word), b < 8 → j < 2 → k < 2048 → bankUsed s b j = false →
    (pgEn s pgLoop = false ∨ rq = .core 1) →
    completes (.bandTrimWrite rq b j k v) s (fun t =>
      rd t (trimAddr b j k) = v.toNat % 4096 ∧ wordsKept [trimAddr b j k] s t ∧ onlyChanges [.regs] s t)) ∧
  (∀ (s : State) (rq : Requester) (a : Nat) (v : Word), a % 4 = 0 → 0x800000 ≤ a → a < 0xC00000 →
    (printing s ((a - 0x800000) / 0x80000) = false →
      completes (.tableWindowWrite rq a v) s (fun t => rd t a = v.toNat &&& tableMask s a ∧ wordsKept [a] s t ∧ onlyChanges [.regs] s t)) ∧
    (printing s ((a - 0x800000) / 0x80000) = true →
      completes (.tableWindowWrite rq a v) s (fun t =>
        raised s t (pgBar ((a - 0x800000) / 0x80000)) 4 ∧ wordsKept [ra (pgBar ((a - 0x800000) / 0x80000)) 0x24] s t ∧
          onlyChanges eventParts s t)))

/-- OWNER_WRITE (R49 to R51): the engines of the pool take writes of control cores only; a claim of a FREE resource takes it; a claim by another function is refused,
keeps OWNER, leaves the claimant's code in LAST_REFUSED and sets CONFLICT on the PIN page; FREE releases the resource only
while IN_USE is 0, and sets REFUSED otherwise. -/
def OwnerWriteRule : Prop :=
  ∀ (s : State) (rq : Requester) (r code : Nat), r < 60 → code < 16 → admitted s (ownAddr r) code →
    (36 ≤ r → isCore rq = false →
      completes (.ownerWrite rq r code) s (fun t =>
        raised s t pgPin 4 ∧ wordsKept [ra pgPin 0x24] s t ∧ onlyChanges eventParts s t)) ∧
    ((36 ≤ r → isCore rq = true) →
    (rdf s (ownAddr r) 3 0 = 0 → code ≠ 0 →
      completes (.ownerWrite rq r code) s (fun t =>
        rdf t (ownAddr r) 3 0 = code ∧ rdf t (ownAddr r) 31 4 = rdf s (ownAddr r) 31 4 ∧ wordsKept [ownAddr r] s t ∧
          onlyChanges [.regs] s t)) ∧
    (rdf s (ownAddr r) 3 0 ≠ 0 → code ≠ 0 → rdf s (ownAddr r) 3 0 ≠ code →
      completes (.ownerWrite rq r code) s (fun t =>
        rdf t (ownAddr r) 3 0 = rdf s (ownAddr r) 3 0 ∧ rdf t (ownAddr r) 11 8 = code ∧ rdb t (ra pgPin 0x24) 5 = true ∧
          rdb t (ra (headerOf (claimant r code)) 0x24) 5 = true ∧ onlyChanges eventParts s t)) ∧
    (code = 0 → rdb s (ownAddr r) 31 = false →
      completes (.ownerWrite rq r code) s (fun t =>
        rdf t (ownAddr r) 3 0 = 0 ∧ wordsKept [ownAddr r] s t ∧ onlyChanges [.regs] s t)) ∧
    (code = 0 → rdb s (ownAddr r) 31 = true →
      completes (.ownerWrite rq r code) s (fun t =>
        raised s t pgPin 4 ∧ wordsKept [ra pgPin 0x24] s t ∧ onlyChanges eventParts s t)))

/-- After a write to the pins' registers the balls carry what the registers drive: a pin is driven where its direction is out
and it is not the high of an open drain, with its output level; the change, if any, is sent (R53). -/
def drivesPins (s t : State) : Prop :=
  let dir := if drivesOutputs t then rd t (ra pgPin 0x200) else 0
  let driven := dir &&& (0xFFFFFFFF ^^^ (rd t (ra pgPin 0x204) &&& rd t (ra pgPin 0x208)))
  gpioDrive t = (driven, rd t (ra pgPin 0x208)) ∧
    (t.out = s.out ∨ t.out = s.out ++ [.gpio driven (rd t (ra pgPin 0x208) &&& driven)])

/-- GPIO_DIR_WRITE, GPIO_OUT_WRITE and EV_SET_WRITE (R53, R54): directions are stored, but not those of the strap pins
before Ready, and GPIO_OD; GPIO_OUT, GPIO_OUT_SET and GPIO_OUT_CLR write, set and clear output levels; EV_SET sets the bits of EV_PEND
that the page defines, for test. -/
def PinAndEventWritesRule : Prop :=
  (∀ (s : State) (rq : Requester) (v : Word), admitted s (ra pgPin 0x200) v.toNat →
    (s.sys.bootState = 5 ∨ v.toNat &&& 0xF0 = 0 →
      completes (.gpioDirWrite rq false v) s (fun t =>
        rd t (ra pgPin 0x200) &&& 0xFFFFFFF0 = v.toNat &&& 0xFFFFFFF0 ∧ wordsKept [ra pgPin 0x200] s t ∧
          onlyChanges (.held :: eventParts) s t)) ∧
    (s.sys.bootState ≠ 5 → v.toNat &&& 0xF0 ≠ 0 →
      completes (.gpioDirWrite rq false v) s (fun t =>
        raised s t pgPin 4 ∧ wordsKept [ra pgPin 0x24] s t ∧ onlyChanges eventParts s t))) ∧
  (∀ (s : State) (rq : Requester) (v : Word), admitted s (ra pgPin 0x204) v.toNat →
    completes (.gpioDirWrite rq true v) s (fun t =>
      rd t (ra pgPin 0x204) = v.toNat &&& 0xFFFFFFF0 ∧ wordsKept [ra pgPin 0x204] s t ∧ drivesPins s t ∧ onlyChanges [.regs, .out] s t)) ∧
  (∀ (s : State) (rq : Requester) (v : Word), admitted s (ra pgPin 0x208) v.toNat →
    completes (.gpioOutWrite rq 0 v) s (fun t =>
      rd t (ra pgPin 0x208) = v.toNat ∧ wordsKept [ra pgPin 0x208] s t ∧ drivesPins s t ∧ onlyChanges [.regs, .out] s t)) ∧
  (∀ (s : State) (rq : Requester) (v : Word), admitted s (ra pgPin 0x20C) v.toNat →
    completes (.gpioOutWrite rq 1 v) s (fun t =>
      rd t (ra pgPin 0x208) = rd s (ra pgPin 0x208) ||| v.toNat ∧ wordsKept [ra pgPin 0x208] s t ∧ drivesPins s t ∧
        onlyChanges [.regs, .out] s t)) ∧
  (∀ (s : State) (rq : Requester) (v : Word), admitted s (ra pgPin 0x210) v.toNat →
    completes (.gpioOutWrite rq 2 v) s (fun t =>
      (∀ i, i < 32 → rdb t (ra pgPin 0x208) i = (rdb s (ra pgPin 0x208) i && !v.getLsbD i)) ∧
        wordsKept [ra pgPin 0x208] s t ∧ drivesPins s t ∧ onlyChanges [.regs, .out] s t)) ∧
  (∀ (s : State) (rq : Requester) (p : Nat) (v : Word), isHeader p = true →
    completes (.evSetWrite rq p v) s (fun t =>
      evPend t p = evPend s p ||| (v.toNat &&& evMask p) ∧ wordsKept [ra p 0x24] s t ∧ onlyChanges eventParts s t))

/-- Ownership, general pins and EV_SET (R49 to R51, R53, R54). -/
def Obligations.OwnersPinsEvents : Prop := OwnerWriteRule ∧ PinAndEventWritesRule

/-- SNAPSHOT_TRIGGER and SNAPSHOT_TAKE (R55 to R57): a trigger of a single unit arms a host snapshot, and one with AT_LINE
whose target has passed is refused with COMMIT_LATE; one of an active unit is an input of both units, and a standby proposes
it. Taking a snapshot copies every live counter into its Rime copy at once, counts SEQ, records the lowest of the causes that
are due, and completes the SNAPSHOT commands that waited for it. -/
def SnapshotsRule : Prop :=
  (∀ (s : State) (rq : Requester) (v : Word), admitted s (ra pgRime 0x40) v.toNat →
    (v.getLsbD 0 = false →
      completes (.snapshotTrigger rq v) s (fun t =>
        rd t (ra pgRime 0x40) = v.toNat &&& 0xA ∧ wordsKept [ra pgRime 0x40] s t ∧ onlyChanges [.regs] s t)) ∧
    (v.getLsbD 0 = true → s.pair.role = 0 → (v.getLsbD 1 = false ∨ snapLate s (snapLine s) = false) →
      completes (.snapshotTrigger rq v) s (fun t =>
        0 ∈ t.snapWait ∧ (∀ c, c ∈ t.snapWait ↔ c = 0 ∨ c ∈ s.snapWait) ∧ rd t (ra pgRime 0x40) = v.toNat &&& 0xA ∧
          wordsKept [ra pgRime 0x40] s t ∧ onlyChanges [.regs, .snapWait] s t)) ∧
    (v.getLsbD 0 = true → s.pair.role = 0 → v.getLsbD 1 = true → snapLate s (snapLine s) = true →
      completes (.snapshotTrigger rq v) s (fun t =>
        0 ∉ t.snapWait ∧ raised s t pgRime 1 ∧ wordsKept [ra pgRime 0x40, ra pgRime 0x24] s t)) ∧
    (v.getLsbD 0 = true → s.pair.role ≠ 0 → isActive s = true →
      completes (.snapshotTrigger rq v) s (fun t =>
        (∃ i, t.pair.inputs = s.pair.inputs ++ [i] ∧ i.kind = 8 ∧ i.own = true ∧ i.bar = refBar s ∧
            i.payload = snapPayload (v.getLsbD 1) (snapLine s)) ∧
          rd t (ra pgRime 0x40) = v.toNat &&& 0xA ∧ t.snapWait = s.snapWait ∧
          onlyChanges [.regs, .counters, .pair, .out] s t)) ∧
    (v.getLsbD 0 = true → s.pair.role = 5 →
      completes (.snapshotTrigger rq v) s (fun t =>
        (∃ u, t.pair.unacked = s.pair.unacked ++ [u] ∧ u.2.1 = 0x10 ∧
            u.2.2.2 = inputBody 8 false true ones48 (refBar s) (snapPayload (v.getLsbD 1) (snapLine s))) ∧
          t.pair.inputs = s.pair.inputs ∧ t.snapWait = s.snapWait ∧ onlyChanges [.regs, .counters, .pair, .out] s t)) ∧
    (v.getLsbD 0 = true → s.pair.role ≠ 0 → s.pair.role ≠ 5 → isActive s = false →
      completes (.snapshotTrigger rq v) s (fun t => t.snapWait = s.snapWait ∧ onlyChanges [.regs] s t))) ∧
  (∀ (s : State) (c : Nat) (cs : List Nat), snapCauses (dropLateSnap s) = c :: cs →
    completes .snapshotTake s (fun t =>
      t.rime = (dropLateSnap s).counters ∧ rd t (ra pgRime 0x50) = (rd s (ra pgRime 0x50) + 1) % 2 ^ 32 ∧
        rd t (ra pgRime 0x54) = c ∧ c < 4 ∧ (∀ x ∈ cs, c < x) ∧ (∀ x ∈ c :: cs, x ∉ t.snapWait) ∧
        (∀ k ∈ snapSlots (dropLateSnap s), doneAs t k stOk))) ∧
  (∀ s : State, snapCauses (dropLateSnap s) = [] → exec .snapshotTake s = .next (dropLateSnap s)) ∧
  (∀ s : State,
    ((s.snapWait.contains 0 = false ∨ rdb s (ra pgRime 0x40) 1 = false ∨ snapLate s (snapLine s) = false) →
      dropLateSnap s = s) ∧
    (s.snapWait.contains 0 = true → rdb s (ra pgRime 0x40) 1 = true → snapLate s (snapLine s) = true →
      0 ∉ (dropLateSnap s).snapWait ∧ raised s (dropLateSnap s) pgRime 1))

/-- Pages that nothing but their words starts or stops with their EN: no lane, channel, axis, port, camera, loop, display or
compare page, and none that claims a ball group. -/
def wordsOnly (s : State) (p : Nat) : Prop :=
  laneOfPage p = none ∧ ¬(0x40 ≤ p ∧ p < 0x48) ∧ ¬(0xC8 ≤ p ∧ p < 0xD8) ∧ ¬(0x10 ≤ p ∧ p < 0x14) ∧ p ≠ pgDisp ∧ p ≠ pgLoop ∧
    p ≠ pgCmp ∧ cameraPage p = false ∧ enableClaim s p = none

/-- BLOCK_ENABLE and CLOCK_START (R28, R30, R32, R33, R49, R315, R428): EN and CLKREQ of any page are stored, and without
either the block's clock stops; a page that a printing bar needs is not disabled; an enable whose claim fails leaves EN 0 and
sets CONFLICT, one of LOOP whose check fails leaves EN 0 with the reason; the clock starts once EN or CLKREQ is set, and with
that of a camera page its PLL. -/
def BlockEnableRule : Prop :=
  (∀ (s : State) (rq : Requester) (p : Nat) (en req : Bool),
    (isHeader p = false → exec (.blockEnable rq p en req) s = .next s) ∧
    (isHeader p = true → ctrlRefused s p en = true →
      completes (.blockEnable rq p en req) s (fun t =>
        raised s t p 4 ∧ wordsKept [ra p 0x24] s t ∧ onlyChanges eventParts s t)) ∧
    (isHeader p = true → ctrlRefused s p en = false →
      (en = true → pgEn s p = false → claimFree s p = true ∧ (p = pgLoop → loopCheck s = 0)) →
      completes (.blockEnable rq p en req) s (fun t =>
        rd t (ra p 0x10) = b2n en + 4 * b2n req ∧
          (en = false → req = false → cameraPage p = false → rdb t (ra p 0x14) 1 = false) ∧
          (wordsOnly s p → wordsKept [ra p 0x10, ra p 0x14] s t ∧ onlyChanges [.regs] s t))) ∧
    (isHeader p = true → en = true → pgEn s p = false → p ≠ pgLoop → ∀ c, enableClaim s p = some c →
      claimable s c.1 c.2 = false →
      completes (.blockEnable rq p en req) s (fun t =>
        rd t (ra p 0x10) = 4 * b2n req ∧ (evPend t p).testBit 5 = true ∧ (evPend t pgPin).testBit 5 = true ∧
          rdf t c.1 11 8 = c.2 ∧ rdf t c.1 3 0 = rdf s c.1 3 0)) ∧
    (en = true → pgEn s pgLoop = false → loopCheck s ≠ 0 →
      completes (.blockEnable rq pgLoop en req) s (fun t =>
        rd t (ra pgLoop 0x10) = 4 * b2n req ∧ raised s t pgLoop 4 ∧ rd t (loopA 0x74) = loopCheck s))) ∧
  (∀ (s : State) (p : Nat),
    (isHeader p = false ∨ rd s (ra p 0x10) &&& 5 = 0 ∨ dozing s = true ∧ dozePage p = false →
      exec (.clockStart p) s = .next s) ∧
    (isHeader p = true → rd s (ra p 0x10) &&& 5 ≠ 0 → (dozing s = false ∨ dozePage p = true) →
      completes (.clockStart p) s (fun t =>
        rdb t (ra p 0x14) 1 = true ∧ wordsKept [ra p 0x14] s t ∧
          t.power = { s.power with camPll := cameraPage p || s.power.camPll } ∧ onlyChanges [.regs, .power] s t)))

/-- SRST and SRST_DONE (R31, R32, R475): SRST returns the block's registers, shadows and counters to their reset values,
cancels a pending commit, clears EV_PEND, and stays set until it clears itself; on a page that a printing bar depends on it is
refused. Of SYS it resets the unit, image memory kept, and is refused while a bar prints. -/
def BlockResetRule : Prop :=
  (∀ (s : State) (rq : Requester) (p : Nat),
    (isHeader p = false → exec (.srst rq p) s = .next s) ∧
    (isHeader p = true → (if p = pgSys then anyPrinting s else pageInUse s p) = true →
      completes (.srst rq p) s (fun t =>
        raised s t p 4 ∧ wordsKept [ra p 0x24] s t ∧ onlyChanges eventParts s t)) ∧
    (isHeader p = true → p ≠ pgSys → pageInUse s p = false →
      completes (.srst rq p) s (fun t =>
        (∀ a, blockWord p a = true → cm t a = (regReset a).toNat ∧ (a % 4096 ≠ 0x24 → rd t a = (regReset a).toNat)) ∧
          commitPending t p = false ∧ rdb t (ra p 0x10) 1 = true ∧
          (p ≠ pgEvc → p ≠ pgPair → p ≠ pgDisp → (∀ k, k < 128 → counter t p k = 0)) ∧
          (p ≠ pgLoop → p ≠ pgDisp → evPend t p = 0) ∧
          (p ∉ [pgEvc, pgPair, pgDisp, pgLoop, pgNvm] →
            ∀ a, blockWord p a = false → a ≠ ra p 0x10 → a ≠ ra p 0x18 → a / 4096 ≠ pgPin → rd t a = rd s a))) ∧
    (p = pgSys → anyPrinting s = false →
      completes (.srst rq p) s (fun t =>
        t.sys.bootState = 0 ∧ t.sys.cause = 3 ∧ rd t (ra pgSys 0x50) = 3 ∧ t.dram.mem = s.dram.mem ∧ t.committed = [] ∧
          t.sys.ramLog = s.sys.ramLog ∧ t.print.tiles.length = s.print.tiles.length ∧ t.clk.sec = 0 ∧ t.clk.ns = 0 ∧
          (∀ a, alwaysOn a = true → a ≠ ra pgSys 0x50 → rd t a = rd s a)))) ∧
  (∀ (s : State) (p : Nat),
    (isHeader p = false → exec (.srstDone p) s = .next s) ∧
    (isHeader p = true →
      completes (.srstDone p) s (fun t =>
        rdb t (ra p 0x10) 1 = false ∧ wordsKept [ra p 0x10] s t ∧ onlyChanges [.regs] s t)))

/-- Rime snapshots, and the enable, clock and soft reset of blocks (R28, R30 to R33, R49, R55 to R57, R315, R428, R475). -/
def Obligations.SnapshotsAndBlocks : Prop := SnapshotsRule ∧ BlockEnableRule ∧ BlockResetRule

/-! ### Host links (03) -/

/-- ETH_FRAME_RECEIVE on an enabled Host port with link up (R58, R59): a frame with a bad FCS, over-long, or with other
tags than the port's is dropped and counted, and does nothing else; of a good one, a Gisha message waits to be processed,
an ARP, neighbour or echo request for an address of the unit is answered on the port, a fragment and a frame of another protocol are dropped and counted,
and the frame's bytes count as host traffic of image memory. -/
def EthernetFramesRule : Prop :=
  ∀ (s : State) (p : Nat) (f : EthFrame), p < 4 → pgEn s (pgEth p) = true → ethRole s p = 1 →
    rdb s (ra (pgEth p) 0x50) 2 = true →
    (f.fcsOk = false ∨ tagsOk s p f.vids = false ∨
        (if rdb s (ra (pgEth p) 0x40) 4 then 9600 else 1518) < f.length →
      completes (.ethFrameReceive p f) s (fun t =>
        counted s t (pgEth p) 0 ∧ countersKept (pgEth p) 0 s t ∧ onlyChanges [.counters] s t)) ∧
    (f.fcsOk = true → tagsOk s p f.vids = true →
        f.length ≤ (if rdb s (ra (pgEth p) 0x40) 4 then 9600 else 1518) →
      (∀ m, f.kind = .gisha m → dozing s = false → (m.toService = false ∨ isActive s = true) →
        completes (.ethFrameReceive p f) s (fun t =>
          t.host.rx = s.host.rx ++ [m] ∧ t.dram.c2 = s.dram.c2 + f.length ∧ onlyChanges [.host, .dram] s t)) ∧
      (∀ x, f.kind = .arp x → ownsV4 s x = true →
        completes (.ethFrameReceive p f) s (fun t =>
          sends s t [.ethReply p (.arp x) (portTag s p)] ∧ onlyChanges [.out, .dram] s t)) ∧
      (∀ x, f.kind = .ndp x → ownsV6 s p x = true →
        completes (.ethFrameReceive p f) s (fun t =>
          sends s t [.ethReply p (.ndp x) (portTag s p)] ∧ onlyChanges [.out, .dram] s t)) ∧
      (∀ x, f.kind = .icmpEcho x → ownsV4 s x = true ∨ ownsV6 s p x = true →
        completes (.ethFrameReceive p f) s (fun t =>
          sends s t [.ethReply p (.icmpEcho x) (portTag s p)] ∧ onlyChanges [.out, .dram] s t)) ∧
      (f.kind = .ipFragment ∨ f.kind = .other →
        completes (.ethFrameReceive p f) s (fun t =>
          counted s t (pgEth p) 0 ∧ countersKept (pgEth p) 0 s t ∧ onlyChanges [.counters, .dram] s t)))

/-- HELLO on UDP (R63, R65): a new one on an active unit opens the lowest free session in the highest common version and is
answered with HELLO_ACK; one that names a Suspended session of its sender's address resumes it; without a common version,
without a free session, or on a unit that is not active it is refused, and no session changes. -/
def HelloOpensSessionRule : Prop :=
  ∀ (s : State) (m : UdpMsg) (ver id : Nat), dozing s = false → arrives s m = true → gWellFormed m.data = true →
    gType m.data = 1 → gCount m.data = 1 →
    chooseVersion (bytesAt (gEntry m.data 0) 0 2) (bytesAt (gEntry m.data 0) 2 2) = ver → bytesAt (gEntry m.data 0) 8 8 = id →
    (∀ n, isActive s = true → ver ≠ 0 → id = 0 → freeSession s = some n →
      completes (.hello m) s (fun t =>
        (getSession t n).state = 1 ∧ 256 * (getSession t n).major + (getSession t n).minor = ver ∧
          (getSession t n).accepted = 0 ∧ (getSession t n).srcAddr = m.srcAddr ∧ (getSession t n).srcPort = m.srcPort ∧
          1 ≤ (getSession t n).window ∧ (getSession t n).window ≤ 64 ∧ (∀ k, k ≠ n → getSession t k = getSession s k) ∧
          t.host.journal = s.host.journal ∧
          ∃ w o, t.out.getLast? = some (.udp m.ethPort n w o) ∧ gType o = 2 ∧ w.service = m.toService ∧ w.addr = m.srcAddr ∧
              w.port = m.srcPort)) ∧
    (∀ n, isActive s = true → ver ≠ 0 → id ≠ 0 → 1 ≤ n → n ≤ 16 → (getSession s n).state = 3 → (getSession s n).id = id →
      (getSession s n).srcAddr = m.srcAddr → (getSession s n).major = 3 → 1 ≤ (getSession s n).minor →
      (∀ k, k < n → (getSession s k).id ≠ id) →
      completes (.hello m) s (fun t =>
        getSession t n = { getSession s n with
            state := 1, srcPort := m.srcPort, ethPort := m.ethPort, service := m.toService } ∧
          (∀ k, k ≠ n → getSession t k = getSession s k))) ∧
    (isActive s = false ∨ ver = 0 ∨ id = 0 ∧ freeSession s = none →
      completes (.hello m) s (fun t =>
        t.host.sessions = s.host.sessions ∧ t.host.rx = s.host.rx.erase m ∧
          (∃ w o, t.out = s.out ++ [.udp m.ethPort 0 w o] ∧ gType o = 2) ∧ onlyChanges [.host, .out] s t))

/-- Messages of an open session (R62, R66, R72, R73, R80): CLOSE frees the session with CLOSE_ACK once none of its commands
remains, and leaves it Closing before; KEEPALIVE is answered with KEEPALIVE; a CMD whose one command has the next SEQ, with a free
entry and window, is journalled and acknowledged; without a free entry it is answered with BUSY, counted, and not
journalled; one accepted before is not run again. -/
def SessionMessagesRule : Prop :=
  (∀ (s : State) (m : UdpMsg) (n : Nat), heard s m 0x03 n → (getSession s n).state = 1 →
    completes (.close m) s (fun t =>
      (entriesOf (hostAck (rxDone s m) n m.data) n = [] →
        getSession t n = {} ∧ ∃ w o, .udp (getSession s n).ethPort n w o ∈ t.out ∧ gType o = 4) ∧
      (entriesOf (hostAck (rxDone s m) n m.data) n ≠ [] → (getSession t n).state = 2) ∧
      ∀ k, k ≠ n → getSession t k = getSession s k)) ∧
  (∀ (s : State) (m : UdpMsg) (n : Nat), heard s m 0x05 n → (getSession s n).state = 1 →
    completes (.keepalive m) s (fun t =>
      getSession t n = getSession s n ∧
        ∃ w o, t.out.getLast? = some (.udp (getSession s n).ethPort n w o) ∧ gType o = 5)) ∧
  (∀ (s : State) (m : UdpMsg) (n : Nat), heard s m 0x10 n → gCount m.data = 1 → gAckValid m.data = false →
    (∀ k, eSeq (gEntry m.data 0) = nextSeq (getSession s n).accepted → freeEntry s = some k →
        windowOf s n < (getSession s n).window → eCrcOk (gEntry m.data 0) = true → (getSession s n).state = 1 →
      completes (.cmd m) s (fun t =>
        (∃ e, getEntry t k = some e ∧ e.session = n ∧ e.seq = eSeq (gEntry m.data 0) ∧ e.entry = gEntry m.data 0) ∧
          (getSession t n).accepted = eSeq (gEntry m.data 0) ∧ entriesKept s t k ∧ counted s t pgJrn 0 ∧
          ∃ w o, t.out.getLast? = some (.udp (getSession s n).ethPort n w o) ∧ gType o = 0x11)) ∧
    (eSeq (gEntry m.data 0) = nextSeq (getSession s n).accepted → freeEntry s = none →
      completes (.cmd m) s (fun t =>
        t.host.journal = s.host.journal ∧ t.host.sessions = s.host.sessions ∧ counted s t pgJrn 3 ∧
          ∃ w o, t.out.getLast? = some (.udp (getSession s n).ethPort n w o) ∧ gType o = 0x12)) ∧
    (eSeq (gEntry m.data 0) ≠ nextSeq (getSession s n).accepted →
        seqLe (eSeq (gEntry m.data 0)) (getSession s n).accepted = true → eSeq (gEntry m.data 0) ≠ 0 → freeEntry s ≠ none →
      completes (.cmd m) s (fun t =>
        t.host.sessions = s.host.sessions ∧ counted s t pgJrn 1 ∧
          (∀ x ∈ t.host.journal, ∃ y ∈ s.host.journal,
            y.1 = x.1 ∧ y.2.seq = x.2.seq ∧ y.2.state = x.2.state ∧ y.2.status = x.2.status) ∧
          ∃ w o, t.out.getLast? = some (.udp (getSession s n).ethPort n w o) ∧ gType o = 0x11)))

/-- How sessions end (R66, R67): SESSION_TIMEOUT suspends an Open UDP session of which no message waits, or discards it when
RESUME_LIMIT is 0; RESUME_LIMIT discards a Suspended one, for which no HELLO waits, with its journal entries and records
SESSION_LOST, class B; PCIE_LINK_LOSS closes session 0 and keeps its completions. -/
def SessionEndsRule : Prop :=
  (∀ (s : State) (n : Nat), 1 ≤ n → n ≤ 16 → (getSession s n).state = 1 → messageWaits s n = false →
    (rdf s (ra pgGsh 0x48) 11 0 ≠ 0 →
      completes (.sessionTimeout n) s (fun t =>
        getSession t n = { getSession s n with state := 3 } ∧ (∀ k, k ≠ n → getSession t k = getSession s k) ∧
          t.host.journal = s.host.journal ∧ onlyChanges [.counters, .host, .pair, .out] s t)) ∧
    (rdf s (ra pgGsh 0x48) 11 0 = 0 →
      completes (.sessionTimeout n) s (fun t =>
        (getSession t n).state = 0 ∧ (∀ x ∈ t.host.journal, x.2.session ≠ n ∨ x.2.peer = true) ∧ recorded s t 0x0201 1))) ∧
  (∀ (s : State) (n : Nat), (getSession s n).state ≠ 1 ∨ messageWaits s n = true →
    exec (.sessionTimeout n) s = .next s) ∧
  (∀ (s : State) (n : Nat), (getSession s n).state ≠ 3 ∨ helloWaits s n = true → exec (.resumeLimit n) s = .next s) ∧
  (∀ (s : State) (n : Nat), 1 ≤ n → n ≤ 16 → (getSession s n).state = 3 → helloWaits s n = false →
    completes (.resumeLimit n) s (fun t =>
      (getSession t n).state = 0 ∧ (∀ x ∈ t.host.journal, x.2.session ≠ n ∨ x.2.peer = true) ∧
        (∀ x ∈ s.host.journal, x.2.session ≠ n → x ∈ t.host.journal) ∧ recorded s t 0x0201 1)) ∧
  (∀ s : State,
    completes .pcieLinkLoss s (fun t =>
      getSession t 0 = {} ∧ (∀ k, k ≠ 0 → getSession t k = getSession s k) ∧ t.host.journal = s.host.journal ∧
        t.host.errs = s.host.errs ∧ onlyChanges [.host] s t))

/-- UDP sessions from HELLO to their end (R62 to R67, R72, R73, R80). -/
def Obligations.UdpSessions : Prop := HelloOpensSessionRule ∧ SessionMessagesRule ∧ SessionEndsRule

/-- Session 0 and NOP of the journal (R63, R66, R67, R72, R77): NOP completes with OK; HELLO of ring 0 with a common 3.x version opens session
0 when it is not open, is refused with NO_SESSION when it is, and without a common version with VERSION; CLOSE of ring 0
makes it Closing. A command with other than 64 bytes for HELLO_ACK completes with BAD_PARAM. -/
def RingSessionRule : Prop :=
  ∀ (s : State) (slot : Nat) (e : JEntry),
    (startable s slot 3 = some e →
      completes (.nop slot) s (fun t => doneAs t slot stOk ∧ entriesKept s t slot ∧ onlyChanges [.host, .out] s t)) ∧
    (startable s slot 1 = some e →
      (eDataLen e.entry ≠ 64 → completes (.helloRing slot) s (fun t => doneAs t slot stBadParam ∧ entriesKept s t slot)) ∧
      (eDataLen e.entry = 64 → chooseVersion (eParam e.entry 0 2) (eParam e.entry 2 2) / 256 ≠ 3 →
        completes (.helloRing slot) s (fun t =>
          doneAs t slot stVersion ∧ entriesKept s t slot ∧ t.host.sessions = s.host.sessions)) ∧
      (eDataLen e.entry = 64 → chooseVersion (eParam e.entry 0 2) (eParam e.entry 2 2) / 256 = 3 →
        ((getSession s 0).state ≠ 0 →
          completes (.helloRing slot) s (fun t =>
            doneAs t slot stNoSession ∧ entriesKept s t slot ∧ t.host.sessions = s.host.sessions)) ∧
        ((getSession s 0).state = 0 →
          completes (.helloRing slot) s (fun t =>
            doneAs t slot stOk ∧ (getSession t 0).state = 1 ∧
              256 * (getSession t 0).major + (getSession t 0).minor =
                chooseVersion (eParam e.entry 0 2) (eParam e.entry 2 2) ∧
              (getSession t 0).accepted = 0 ∧ (∀ k, k ≠ 0 → getSession t k = getSession s k))))) ∧
    (startable s slot 2 = some e →
      completes (.closeRing slot) s (fun t =>
        doneAs t slot stOk ∧ getSession t 0 = { getSession s 0 with state := 2 } ∧
          (∀ k, k ≠ 0 → getSession t k = getSession s k) ∧ entriesKept s t slot ∧ onlyChanges [.host, .out] s t))

/-- REG_READ, REG_WRITE and TABLE_WRITE (R75 to R77). The words of a REG_READ are read one after the other. The pairs of a REG_WRITE
and the words of a TABLE_WRITE are written one after the other, each as a register write of the requester, up to and with
the first that is refused, from the progress count of the journal entry on; the command then completes with OK, or with
REFUSED and the number of those written before it. APPLY_LINE_WRITE is the REG_WRITE that waited for its line, which one with
APPLY and its line ahead does, or LATE when its bar starts printing beyond it. The steps of a TABLE_WRITE are throttled
work (R436). -/
def RegisterCommandsRule : Prop :=
  ∀ (s : State) (slot : Nat) (e : JEntry),
    (startable s slot 0x20 = some e → readParamsOk e = true →
        (onRing e = true ∧ 4 * eParam e.entry 4 4 ≤ eDataLen e.entry ∧ eDataLen e.entry ≤ 256 ∨
          onRing e = false ∧ resultFits s e (4 * eParam e.entry 4 4) = true) →
      ∃ bs u, readWords (entryRq e) (eParam e.entry 4 4 - e.progress) (eParam e.entry 0 4 + 4 * e.progress) s = (bs, u) ∧
        bs.length = 4 * (eParam e.entry 4 4 - e.progress) ∧
        completes (.regRead slot) s (fun t =>
          (∃ x, getEntry t slot = some x ∧ x.state = 2 ∧ x.status = stOk ∧ x.progress = eParam e.entry 4 4 ∧
            x.result = e.result.take (4 * e.progress) ++ bs) ∧
          entriesKept s t slot ∧ t.regs = u.regs ∧ t.captured = u.captured ∧ t.latches = u.latches)) ∧
    (startable s slot 0x21 = some e → dataInside e = true → writeParamsOk s e = true →
        (onRing e = true → eDataLen e.entry ≤ 512) → dataCrcOk e = true →
      (applies e = false ∨ e.late = false ∧ linePassed s (commandBar s e.entry e.data) (applyOf e) = false ∧
          lineReached s (commandBar s e.entry e.data) (applyOf e) = true →
        ∃ k u, wroteInOrder (entryRq e) ((pairsOf e.data).drop e.progress) s k u ∧
          exec (.regWrite slot) s = .next (finish (setProgress u slot (e.progress + k) []) slot
            (if k = ((pairsOf e.data).drop e.progress).length then stOk else stRefused) (e.progress + k) 0 []
            (if applies e then applyOf e else 0))) ∧
      (applies e = true → e.late = true ∨ linePassed s (commandBar s e.entry e.data) (applyOf e) = true →
        completes (.regWrite slot) s (fun t =>
          doneAs t slot stLate ∧ entriesKept s t slot ∧ onlyChanges [.host, .out] s t)) ∧
      (applies e = true → e.late = false → linePassed s (commandBar s e.entry e.data) (applyOf e) = false →
          lineReached s (commandBar s e.entry e.data) (applyOf e) = false →
        completes (.regWrite slot) s (fun t =>
          getEntry t slot = some { e with waiting := true, state := 1 } ∧ entriesKept s t slot ∧
            onlyChanges [.host] s t))) ∧
    (getEntry s slot = some e → e.waiting = true → eOpcode e.entry = 0x21 →
      (linePassed s (commandBar s e.entry e.data) (applyOf e) = true →
        completes (.applyLineWrite slot) s (fun t =>
          doneAs t slot stLate ∧ entriesKept s t slot ∧ onlyChanges [.host, .out] s t)) ∧
      (linePassed s (commandBar s e.entry e.data) (applyOf e) = false →
          lineReached s (commandBar s e.entry e.data) (applyOf e) = true →
        ∃ k u, wroteInOrder (entryRq e) ((pairsOf e.data).drop e.progress) s k u ∧
          exec (.applyLineWrite slot) s = .next (finish (setProgress u slot (e.progress + k) []) slot
            (if k = ((pairsOf e.data).drop e.progress).length then stOk else stRefused) (e.progress + k) 0 []
            (applyOf e)))) ∧
    (startable s slot 0x28 = some e → mayThrottled s = true → dataInside e = true → tableParamsOk e = true →
        dataCrcOk e = true →
      ∃ k u, wroteInOrder (entryRq e) ((tablePairs (eParam e.entry 0 4) e.data).drop e.progress) s k u ∧
        exec (.tableWrite slot) s = .next (let t := setProgress u slot (e.progress + k) []
          if k = ((tablePairs (eParam e.entry 0 4) e.data).drop e.progress).length then finish t slot stOk 0 0 [] 0
          else finish t slot stRefused (e.progress + k) 0 [] 0)) ∧
    (startable s slot 0x28 = some e → mayThrottled s = false → exec (.tableWrite slot) s = .next s)

/-- SNAPSHOT and INFLATE of the journal (R55, R77, R107, R112): SNAPSHOT waits for its snapshot, or completes with LATE when its line has passed,
which sets COMMIT_LATE on RIME; INFLATE claims the lowest free THAW engine and runs on it, or completes with CONFLICT when
none is free; INFLATE_DONE delivers what the engine unpacked, or BAD_PARAM and the code of a damaged stream. -/
def SnapshotAndInflateRule : Prop :=
  ∀ (s : State) (slot : Nat) (e : JEntry),
    (startable s slot 0x38 = some e → e.late = false →
      ((bitOf (eParam e.entry 0 4) 0 && snapLate s (eParam e.entry 4 6)) = false →
        completes (.snapshot slot) s (fun t =>
          getEntry t slot = some { e with waiting := true, state := 1 } ∧ entriesKept s t slot ∧
            onlyChanges [.host] s t)) ∧
      ((bitOf (eParam e.entry 0 4) 0 && snapLate s (eParam e.entry 4 6)) = true →
        completes (.snapshot slot) s (fun t =>
          doneAs t slot stLate ∧ raised s t pgRime 1 ∧ wordsKept [ra pgRime 0x24] s t ∧ entriesKept s t slot))) ∧
    (startable s slot 0x30 = some e → dataInside e = true → (onRing e = true → eDataLen e.entry ≤ 40960) →
        dataCrcOk e = true → eParam e.entry 0 4 ≤ 32768 → resultFits s e (eParam e.entry 0 4) = true →
        mayThrottled s = true → mayThaw s (eParam e.entry 0 4 + e.data.length) = true →
      (∀ k, (List.range 24).find? (fun k => thawOwner s k == 0) = some k →
        completes (.inflate slot) s (fun t =>
          thawOwner t k = 2 ∧ (getEngine t k).inflate = some slot ∧ getEntry t slot = some { e with state := 1 } ∧
            rdb t (ra pgThaw 0x48) k = true ∧ wordsKept [ownThaw k, ra pgThaw 0x48] s t ∧ entriesKept s t slot)) ∧
      ((∀ k, k < 24 → thawOwner s k ≠ 0) →
        completes (.inflate slot) s (fun t => doneAs t slot stConflict ∧ entriesKept s t slot ∧ onlyChanges [.host, .out] s t))) ∧
    (∀ k, inflateEngine s slot = some k → getEntry s slot = some e →
      ((Machine.inflate false (eParam e.entry 0 4) e.data).1 = 0 →
        completes (.inflateDone slot) s (fun t =>
          (∃ e', getEntry t slot = some e' ∧ e'.state = 2 ∧ e'.status = stOk ∧
            e'.result = (Machine.inflate false (eParam e.entry 0 4) e.data).2) ∧ entriesKept s t slot)) ∧
      ((Machine.inflate false (eParam e.entry 0 4) e.data).1 ≠ 0 →
        completes (.inflateDone slot) s (fun t =>
          (∃ e', getEntry t slot = some e' ∧ e'.state = 2 ∧ e'.status = stBadParam ∧
            e'.result0 = (Machine.inflate false (eParam e.entry 0 4) e.data).1) ∧
            (evPend t pgThaw).testBit 8 = true ∧ entriesKept s t slot)))

/-- The register, table, snapshot and inflate commands of the journal (R55, R75 to R77, R107, R112). -/
def Obligations.JournalCommands : Prop := RegisterCommandsRule ∧ SnapshotAndInflateRule

/-- The rings of the PCIe function (R68 to R71, R411): a doorbell of an enabled ring with a value below its size is stored, another
one sets RING_ERR and is ignored; the head of a completion ring retires the completions that it passes, and no entry that
is not written to a ring; SUBMISSION_FETCH journals the entry at HEAD and advances HEAD; COMPLETION_WRITE writes the
oldest completion at TAIL, with the ring's phase, and advances TAIL; a write of the MSI-X table stores its word and sends a message that its vector's
mask held back. -/
def RingsRule : Prop :=
  (∀ (s : State) (q v : Nat), q < 32 → v < 4096 →
    (doorbellOk s (subRing q) v = true →
      completes (.submissionDoorbell q v) s (fun t =>
        rd t (subRing q + 0x10) = v ∧ wordsKept [subRing q + 0x10] s t ∧ onlyChanges [.regs] s t)) ∧
    (doorbellOk s (subRing q) v = false →
      completes (.submissionDoorbell q v) s (fun t =>
        raised s t pgGsh 8 ∧ wordsKept [ra pgGsh 0x24] s t ∧ onlyChanges eventParts s t)) ∧
    (doorbellOk s (cplRing q) v = true →
      completes (.completionDoorbell q v) s (fun t =>
        rd t (cplRing q + 0xC) = v ∧ wordsKept [cplRing q + 0xC] s t ∧
          (∀ x ∈ s.host.journal, x.2.written = false → x ∈ t.host.journal) ∧
          (∀ x ∈ t.host.journal, x ∈ s.host.journal) ∧
          (∀ x ∈ s.host.journal, ∀ i, x.2.written = true → x.2.peer = false → x.2.session = 0 → x.2.ring = q →
            x.2.wpos = some i →
            (i + ringSize s (cplRing q) - ringHead s (cplRing q)) % ringSize s (cplRing q) <
              (v + ringSize s (cplRing q) - ringHead s (cplRing q)) % ringSize s (cplRing q) → x ∉ t.host.journal))) ∧
    (doorbellOk s (cplRing q) v = false →
      completes (.completionDoorbell q v) s (fun t =>
        raised s t pgGsh 8 ∧ wordsKept [ra pgGsh 0x24] s t ∧ onlyChanges eventParts s t))) ∧
  (∀ (s : State) (q k : Nat) (entry data : List Byte), q < 32 → ringEn s (subRing q) = true →
    ringHead s (subRing q) ≠ ringTail s (subRing q) → ringHeld s q = false → freeEntry s = some k → s.pair.role = 0 →
    (getSession s 0).state = 1 → eSeq (padTo 64 entry) = nextSeq (getSession s 0).accepted →
    windowOf s 0 < (getSession s 0).window → eCrcOk (padTo 64 entry) = true →
    completes (.submissionFetch q entry data) s (fun t =>
      journalled t k q (padTo 64 entry) data ∧ entriesKept s t k ∧ (getSession t 0).accepted = eSeq (padTo 64 entry) ∧
        rd t (subRing q + 0xC) = (ringHead s (subRing q) + 1) % ringSize s (subRing q) ∧
        wordsKept [subRing q + 0xC] s t ∧ counted s t pgJrn 0)) ∧
  (∀ (s : State) (q k : Nat) (e : JEntry), q < 32 → ringEn s (cplRing q) = true →
    (ringTail s (cplRing q) + 1) % ringSize s (cplRing q) ≠ ringHead s (cplRing q) →
    s.host.errs.find? (fun e => e.ring == q) = none → (getSession s 0).state = 1 →
    oldest (waitingFor s q) = some (k, e) →
    completes (.completionWrite q) s (fun t =>
      getEntry t k = some { e with written := true, wpos := some (ringTail s (cplRing q)) } ∧ entriesKept s t k ∧
        rd t (cplRing q + 0x10) = (ringTail s (cplRing q) + 1) % ringSize s (cplRing q) ∧
        wordsKept [cplRing q + 0x10] s t ∧
        .host (rd64 s (cplRing q) / 4096 * 4096 + 64 * ringTail s (cplRing q))
          (completionEntry s e (tget (fun _ => true) s.host.phase q)) ∈ t.out)) ∧
  (∀ (s : State) (i : Nat) (v : Word), i < 256 →
    completes (.msixTableWrite i v) s (fun t =>
      msixWord t i = v ∧ (∀ j, j ≠ i → msixWord t j = msixWord s j) ∧
        ((msixWord t (i / 4 * 4 + 3)).getLsbD 0 = false ∧ s.host.msixPending.contains (i / 4) = true →
          sends s t [.msix (i / 4)] ∧ i / 4 ∉ t.host.msixPending ∧ onlyChanges [.counters, .host, .evc, .out] s t) ∧
        (¬((msixWord t (i / 4 * 4 + 3)).getLsbD 0 = false ∧ s.host.msixPending.contains (i / 4) = true) →
          onlyChanges [.host] s t ∧ t.host.msixPending = s.host.msixPending)))

/-- Session 0, and the rings of the PCIe function (R63, R66 to R72, R77, R411). -/
def Obligations.RingsAndSession0 : Prop := RingSessionRule ∧ RingsRule

/-- ANNOUNCE, GRATUITOUS_ARP, ETH_LINK_CHANGE and JOURNAL_REPLAY (R60, R78, R82, R84, R85): with discovery on and no
session open, every Host port sends the announcement with its count to each group of the enabled IP versions; a unit that
became active makes its service addresses known on every Host port; the locks and the link of an enabled port show in its status, the rate class of its
corrected codewords being a free value; after a reset that kept image memory every journal entry is replayed: a Done one is to be
delivered again with REPLAYED, any other is to run. -/
def AnnounceAndReplayRule : Prop :=
  (∀ s : State, rdb s (ra pgGsh 0x40) 29 = true → (∀ n, n < 17 → (getSession s n).state ≠ 1) →
    completes .announce s (fun t =>
      t.host.annCount = (s.host.annCount + 1) % 2 ^ 32 ∧
        sends s t ((hostPorts s).flatMap (fun p => (announceGroups s).map (fun g =>
          .udp p 0 (announcePath s p g) (gMessage 4 3 0x08 0 0 s.host.annCount 0 [] (announcement s))))) ∧
        onlyChanges [.host, .out] s t)) ∧
  (∀ s : State, 0 < s.host.arpLeft → isActive s = true →
    completes .gratuitousArp s (fun t =>
      t.host.arpLeft = s.host.arpLeft - 1 ∧
        sends s t ((hostPorts s).flatMap (fun p =>
          (if ipv4On s then [.ethAnnounce p false (rd s (ra pgGsh 0x60)) (portTag s p)] else []) ++
            (if ipv6On s then [.ethAnnounce p true (rd128 s (ra pgGsh 0x64)) (portTag s p)] else []))) ∧
        onlyChanges [.host, .out] s t)) ∧
  (∀ (s : State) (p : Nat) (bl fec up : Bool), p < 4 →
    completes (.ethLinkChange p bl fec up) s (fun t =>
      (pgEn s (pgEth p) = true → rdf t (ra (pgEth p) 0x50) 2 0 = b2n bl + 2 * b2n fec + 4 * b2n up) ∧
        (pgEn s (pgEth p) = false → rd t (ra (pgEth p) 0x50) = 0) ∧ wordsKept [ra (pgEth p) 0x50] s t ∧
        t.freeCount = s.freeCount + 1 ∧ onlyChanges [.regs, .freeCount] s t)) ∧
  (∀ s : State, rdb s (ra pgJrn 0x40) 17 = true →
    completes .journalReplay s (fun t =>
      rdb t (ra pgJrn 0x40) 17 = false ∧ counter t pgJrn 2 % 2 ^ 64 = (counter s pgJrn 2 + s.host.journal.length) % 2 ^ 64 ∧
        (∀ k, (getEntry t k).isSome = (getEntry s k).isSome) ∧
        (∀ k e, getEntry t k = some e →
          e.state = 2 ∧ e.replayed = true ∧ e.written = false ∨ e.state = 0 ∧ e.ready = true ∧ e.waiting = false)))

/-- Ethernet frames, discovery, link state and the replay of the journal (R58 to R60, R78, R82, R84, R85). -/
def Obligations.EthernetAndAnnounce : Prop := EthernetFramesRule ∧ AnnounceAndReplayRule

/-! ### The Firn store (04) -/

/-- JOB_DEFINE and JOB_RELEASE (R90, R94, R102, R511): a definition whose number is new and whose parameters are in range gets its
descriptors and its reservation, and completes with the bytes reserved; bad parameters complete with BAD_PARAM and too little
space with NO_SPACE, and define nothing; a release frees the job with its tiles, and its bars start no further line. -/
def JobsRule : Prop :=
  ∀ (s : State) (slot : Nat) (e : JEntry),
    let mask := eParam e.entry 0 1
    let hi := bitOf (eParam e.entry 1 1) 0
    let width := eParam e.entry 4 4
    let rep := eParam e.entry 0x10 6
    let quota := eParam e.entry 0x18 4 * 2 ^ 20
    let bad := (findJob s (eJob e.entry)).isSome = true ∨ mask = 0 ∨ width = 0 ∨ (if hi then 131072 else 65536) < width ∨
      rep % 16 ≠ 0
    (startable s slot 0x10 = some e →
      (bad → completes (.jobDefine slot) s (fun t =>
        doneAs t slot stBadParam ∧ entriesKept s t slot ∧ onlyChanges [.host, .out] s t)) ∧
      (¬bad → storeFree s < quota →
        completes (.jobDefine slot) s (fun t =>
          doneAs t slot stNoSpace ∧ entriesKept s t slot ∧ onlyChanges [.host, .out] s t)) ∧
      (¬bad → quota ≤ storeFree s → descUse s = [] →
          ((List.range 8).filter (fun b => bitOf mask b)).length * ceilDiv width 2048 *
            tileRows (eParam e.entry 8 6) rep (rdf s (ra pgFirn 0x58) 15 0) ≤ descCount s →
        completes (.jobDefine slot) s (fun t =>
          (∃ j, findJob t (eJob e.entry) = some j ∧ j.mask = mask ∧ j.dpi1200 = hi ∧ j.width = width ∧
            j.length = eParam e.entry 8 6 ∧ j.repeatLen = rep ∧ j.quota = quota ∧ j.alloc = 0 ∧ j.ringBase = 0) ∧
          (∀ n, n ≠ eJob e.entry → findJob t n = findJob s n) ∧
          (∃ e', getEntry t slot = some e' ∧ e'.state = 2 ∧ e'.status = stOk ∧ e'.result0 = quota) ∧
          entriesKept s t slot ∧ onlyChanges [.print, .host, .out] s t))) ∧
    (startable s slot 0x13 = some e →
      (findJob s (eJob e.entry) = none →
        completes (.jobRelease slot) s (fun t =>
          doneAs t slot stBadParam ∧ entriesKept s t slot ∧ onlyChanges [.host, .out] s t)) ∧
      (∀ j, findJob s (eJob e.entry) = some j →
        completes (.jobRelease slot) s (fun t =>
          doneAs t slot stOk ∧ findJob t j.number = none ∧ (∀ n, n ≠ j.number → findJob t n = findJob s n) ∧
            (∀ u ∈ t.print.tiles, u ∈ s.print.tiles ∧ u.job ≠ j.number) ∧
            (∀ u ∈ s.print.tiles, u.job ≠ j.number → u ∈ t.print.tiles) ∧
            (∀ b ∈ jobBars s j.number, printing t b = false ∧ (getBar t b).armed = false))))

/-- TILE_PUT (R74, R76, R94, R97, R103): a first fragment inside its job allocates the whole container in 256 B granules,
drawing on the job, makes an ABSENT tile PARTIAL, and starts to be stored; one outside the job, over-long, beyond its
total, or of a tile beyond STORED completes with BAD_PARAM; one beyond the ring of an open-ended job with NO_SPACE and
RING_FULL; one that finds no space with NO_SPACE. TILE_QUERY answers the state and the last error of a tile (R105). -/
def TileArrivalRule : Prop :=
  ∀ (s : State) (slot : Nat) (e : JEntry) (j : Job), findJob s (eJob e.entry) = some j →
    let total := eParam e.entry 0 4
    let plane := eParam e.entry 8 1 % 8
    let x := eParam e.entry 9 1 % 64
    let y := eParam e.entry 0xC 6
    let u := tileOr s j.number plane x y
    (startable s slot 0x18 = some e →
      (placeOf j plane x y = .outside ∨
          placeOf j plane x y = .inside ∧ (dataInside e = false ∨ 40960 < total ∨ eDataLen e.entry = 0 ∨
            total < eParam e.entry 4 4 + eDataLen e.entry ∨ 3 ≤ u.state) →
        completes (.tilePut slot) s (fun t =>
          doneAs t slot stBadParam ∧ entriesKept s t slot ∧ onlyChanges [.host, .out] s t)) ∧
      (placeOf j plane x y = .beyondRing →
        completes (.tilePut slot) s (fun t =>
          doneAs t slot stNoSpace ∧ raised s t pgFirn 11 ∧ entriesKept s t slot ∧ t.print = s.print)) ∧
      (placeOf j plane x y = .inside → dataInside e = true → total ≤ 40960 → eDataLen e.entry ≠ 0 →
          eDataLen e.entry ≤ 40960 → eParam e.entry 4 4 + eDataLen e.entry ≤ total → u.state < 3 → u.arriving = none →
          (farTile s j plane y = false ∨ mayThrottled s = true) →
        (∀ g, (if j.quota = 0 then 256 * grans total ≤ storeFree s else j.alloc + 256 * grans total ≤ j.quota) →
            firstFit (granUse s) (grans total) (storeSize s / 256) = some g →
          completes (.tilePut slot) s (fun t =>
            findTile t j.number plane x y =
                some { u with state := if u.state = 0 then 1 else u.state, arriving := some (g, total, e.session, []) } ∧
              (findJob t j.number).map (fun k => k.alloc) = some (j.alloc + 256 * grans total) ∧
              getEntry t slot = some { e with state := 1 } ∧ entriesKept s t slot ∧
              onlyChanges [.print, .host] s t)) ∧
        ((if j.quota = 0 then storeFree s < 256 * grans total else j.quota < j.alloc + 256 * grans total) →
          completes (.tilePut slot) s (fun t =>
            doneAs t slot stNoSpace ∧ entriesKept s t slot ∧ onlyChanges [.host, .out] s t)))) ∧
    (startable s slot 0x19 = some e → eParam e.entry 0 4 < 8 →
        placeOf j (eParam e.entry 0 4) (eParam e.entry 4 4) (eParam e.entry 8 6) = .inside →
      completes (.tileQuery slot) s (fun t =>
        (∃ e', getEntry t slot = some e' ∧ e'.state = 2 ∧ e'.status = stOk ∧
          e'.result0 = (tileOr s j.number (eParam e.entry 0 4) (eParam e.entry 4 4) (eParam e.entry 8 6)).state +
            256 * (tileOr s j.number (eParam e.entry 0 4) (eParam e.entry 4 4) (eParam e.entry 8 6)).lastErr) ∧
          entriesKept s t slot ∧ onlyChanges [.host, .out] s t))

/-- Jobs and the arrival of their tiles (R74, R76, R90, R94, R97, R102, R103, R105, R511). -/
def Obligations.JobsAndTiles : Prop := JobsRule ∧ TileArrivalRule

/-- FRAGMENT_STORE_DONE and FRAG_TIMEOUT (R74, R95, R96, R98): the bytes of a fragment that were not received before stand
in the store at their offset, whatever the check of DATA_CRC then finds; a fragment with a bad DATA_CRC is counted and
completes with BAD_CRC, and takes an arrival of which nothing else has come with it; one that changes bytes received
before discards the arrival with BAD_PARAM; with the last byte a container whose header names the tile and fits its job
makes the tile STORED with the CRC of what was stored, and any other is discarded with BAD_PARAM; a tile that stays
PARTIAL too long becomes ABSENT, with FRAG_DROP. -/
def FragmentStoreRule : Prop :=
  (∀ (s : State) (slot : Nat) (e : JEntry) (u : Tile) (g total ses : Nat) (rs : List Run),
    getEntry s slot = some e → e.state = 1 → eOpcode e.entry = 0x18 → memoryCanonical s →
    findTile s (eJob e.entry) (eParam e.entry 8 1 % 8) (eParam e.entry 9 1 % 64) (eParam e.entry 0xC 6) = some u →
    u.arriving = some (g, total, ses, rs) →
    let ofs := eParam e.entry 4 4
    let new := newRuns rs ofs e.data []
    let all := (List.range total).all (fun i => received rs i || decide (ofs ≤ i ∧ i < ofs + e.data.length))
    let again := rewrites s (granAddr s g) rs ofs e.data
    let mem := new.foldl (fun m r => memWrite m (granAddr s g + r.1) r.2) s.dram.mem
    let fits := headerOk s u (memRead mem (granAddr s g) 24) total
    completes (.fragmentStoreDone slot) s (fun t =>
      (∀ a, memByte t.dram.mem a =
        if granAddr s g + ofs ≤ a ∧ a < granAddr s g + ofs + e.data.length ∧ received rs (a - granAddr s g) = false then
          (e.data[a - (granAddr s g + ofs)]?).getD 0#8 else memByte s.dram.mem a) ∧
      (∃ v, findTile t u.job u.plane u.x u.y = some v ∧
        (dataCrcOk e = false →
          doneAs t slot stBadCrc ∧ counted s t pgFirn 1 ∧
            (rs = [] → v = { u with arriving := none, state := if u.state = 1 then 0 else u.state }) ∧
            (rs ≠ [] → v = u)) ∧
        (dataCrcOk e = true → again = true →
          doneAs t slot stBadParam ∧ v = { u with arriving := none, state := if u.state = 1 then 0 else u.state }) ∧
        (dataCrcOk e = true → again = false → all = false →
          doneAs t slot stOk ∧
            v = { u with arriving := v.arriving } ∧ v.arriving.map (fun x => (x.1, x.2.1, x.2.2.1)) = some (g, total, ses) ∧
            ∀ i, received ((v.arriving.map (fun x => x.2.2.2)).getD []) i =
              (received rs i || decide (ofs ≤ i ∧ i < ofs + e.data.length))) ∧
        (dataCrcOk e = true → again = false → all = true → fits = true → u.state < 3 →
          doneAs t slot stOk ∧ v.state = 2 ∧ v.gran = g ∧ v.length = total ∧ v.arriving = none ∧
            v.storeCrc = combineCrcs (rs ++ new.map (fun r => { start := r.1, stop := r.1 + r.2.length, crc := crc32c r.2 }))
              (rs.length + new.length) 0 0 ∧
            (rs = [] → ofs = 0 → e.data ≠ [] → v.storeCrc = crc32c e.data) ∧ counted s t pgFirn 0) ∧
        (dataCrcOk e = true → again = false → all = true → fits = false ∨ 3 ≤ u.state →
          doneAs t slot stBadParam ∧ v = { u with arriving := none, state := if u.state = 1 then 0 else u.state })) ∧
      entriesKept s t slot)) ∧
  (∀ (s : State) (u : Tile), findTile s u.job u.plane u.x u.y = some u → u.state = 1 → u.arriving.isSome = true →
    (∀ x ∈ s.host.journal, x.2.state ≠ 1) →
    completes (.fragTimeout u.job u.plane u.x u.y) s (fun t =>
      findTile t u.job u.plane u.x u.y = some { u with state := 0, arriving := none } ∧ raised s t pgFirn 12 ∧
        t.dram.mem = s.dram.mem))

/-- THAW_START and THAW_DONE (R104, R107, R108, R111 to R113): an idle engine of PRINT with a free slot takes the first tile of
the queue that may go to it, which becomes THAWING, and is busy. When it is done, a tile whose stream, store CRC and content CRC are right
stands THAWED in the lowest free slot with the CRC of what was written there; a content error is thawed once more; a
stream error makes the tile BAD or BOMB and records its fault, class B; the engine is free either way. -/
def Obligations.Thaw : Prop :=
  (∀ (s : State) (k : Nat) (q : Nat × Nat × Nat × Nat × Nat) (u : Tile), k < 24 → s.power.stop ≠ 2 → thawOwner s k = 1 →
    (getEngine s k).tile = none → thawing s < winSize s / 32768 - (slotsUsed s).length → nextThaw s k = some q →
    findTile s q.2.1 q.2.2.1 q.2.2.2.1 q.2.2.2.2 = some u → u.length ≠ 0 → u.state = 2 →
    mayThaw s (u.size + u.compLen) = true →
    completes (.thawStart k) s (fun t =>
      (getEngine t k).tile = some (u.job, u.plane, u.x, u.y) ∧ (∀ i, i ≠ k → getEngine t i = getEngine s i) ∧
        findTile t u.job u.plane u.x u.y = some { u with state := 3 } ∧
        t.print.thawQueue = s.print.thawQueue.erase q ∧ rdb t (ra pgThaw 0x48) k = true ∧
        t.dram.c1Begun = s.dram.c1Begun + u.size + u.compLen ∧
        wordsKept [ra pgThaw 0x48, ownThaw k] s t ∧ onlyChanges [.regs, .print, .dram] s t)) ∧
  (∀ (s : State) (k : Nat) (u : Tile), k < 24 → (getEngine s k).tile = some (u.job, u.plane, u.x, u.y) →
    findTile s u.job u.plane u.x u.y = some u → u.frozen = none → u.recovery = 0 →
    ((thawResult s u).1 = 0 →
      (∀ f, freeSlot (setTile s u) = some f →
        completes (.thawDone k) s (fun t =>
          (∃ v, findTile t u.job u.plane u.x u.y = some v ∧ v.state = 4 ∧ v.slot = f + 1 ∧
            v.storageCrc = crc32c (thawResult s u).2) ∧
            getEngine t k = {} ∧ rdb t (ra pgThaw 0x48) k = false ∧
            counter t pgThaw k = (counter s pgThaw k + (thawResult s u).2.length) % 2 ^ 64))) ∧
    ((thawResult s u).1 = thContent → u.retried = false →
      completes (.thawDone k) s (fun t =>
        (∃ v, findTile t u.job u.plane u.x u.y = some v ∧ v.state = 2 ∧ v.retried = true ∧ v.avoid = k ∧
          v.lastErr = thContent) ∧ (evPend t pgThaw).testBit 8 = true ∧ getEngine t k = {})) ∧
    ((thawResult s u).1 = thBomb →
      completes (.thawDone k) s (fun t =>
        (findTile t u.job u.plane u.x u.y).map (fun v => v.state) = some 6 ∧ recorded s t 0x0303 1 ∧
          (evPend t pgFirn).testBit 9 = true ∧ getEngine t k = {})) ∧
    ((thawResult s u).1 = thStore → pairReady s = false →
      completes (.thawDone k) s (fun t =>
        (findTile t u.job u.plane u.x u.y).map (fun v => v.state) = some 7 ∧ recorded s t 0x0301 1 ∧
          (evPend t pgFirn).testBit 8 = true ∧ getEngine t k = {})))

/-- TILE_FETCH_DONE, REQ_TIMEOUT and DRAM_SCRUB (R100, R114 to R117, R378): a fetched tile with the right storage checksum is in the
row window; a wrong one starts its recovery and is counted; without the partner's tile in time the recovery of a THAWED
tile has FAILED and that of a tile in the store makes it BAD, both with TILE_CHECK, class B; a standby that scrubs a
sound tile in an open slot of throttling changes nothing, and asks its partner for a STORED one whose CRC is wrong. FREEZE_DONE (R118 to R122) counts
input and output bytes, and the output is the container of the input. -/
def TileChecksRule : Prop :=
  (∀ (s : State) (b x y : Nat) (w : WinSlot) (u : Tile), openFetch s b x y = some w → w.x = x → w.y = y →
    findTile s w.job w.plane x y = some u → u.job = w.job → u.plane = w.plane → u.x = x → u.y = y → u.state = 4 →
    u.slot ≠ 0 → u.recovery = 0 →
    (crc32c (readSlot s (u.slot - 1) (dimsOf s u).1 (dimsOf s u).2) = u.storageCrc →
      completes (.tileFetchDone b x y) s (fun t =>
        (∃ v ∈ winSlots t b, v.ready = true ∧ v.x = x ∧ v.y = y ∧ v.job = w.job) ∧ t.print.tiles = s.print.tiles ∧
          (∀ c, c ≠ b → winSlots t c = winSlots s c) ∧ wordsKept [ra (pgBar b + 1) 0x40, ra (pgBar b + 1) 0x44] s t ∧
          onlyChanges [.regs, .print] s t)) ∧
    (crc32c (readSlot s (u.slot - 1) (dimsOf s u).1 (dimsOf s u).2) ≠ u.storageCrc →
      completes (.tileFetchDone b x y) s (fun t =>
        findTile t u.job u.plane x y = some { u with recovery := 1 } ∧ counted s t pgFirn 3 ∧
          (winSlots t b).map (fun v => { v with step := 0 }) = (winSlots s b).map (fun v => { v with step := 0 }) ∧
          (∀ c, c ≠ b → winSlots t c = winSlots s c) ∧
          countersKept pgFirn 3 s t ∧ wordsKept [ra (pgBar b + 1) 0x40, ra (pgBar b + 1) 0x44] s t ∧
          onlyChanges [.regs, .print, .counters] s t))) ∧
  (∀ (s : State) (u : Tile), findTile s u.job u.plane u.x u.y = some u →
    (u.recovery = 5 →
      completes (.reqTimeout u.job u.plane u.x u.y) s (fun t =>
        (∃ v, findTile t u.job u.plane u.x u.y = some v ∧ v.recovery = 0 ∧ v.failed.length = u.failed.length + 1 ∧
          v.state = u.state) ∧ recorded s t 0x0301 1)) ∧
    (u.recovery = 4 →
      completes (.reqTimeout u.job u.plane u.x u.y) s (fun t =>
        findTile t u.job u.plane u.x u.y = some { u with recovery := 0, state := 7, lastErr := thStore } ∧
          recorded s t 0x0301 1))) ∧
  (∀ (s : State) (k client : Nat) (input : List Byte) (flushes : List Nat), k < 4 → client ≠ 4 →
    completes (.freezeDone k client input flushes) s (fun t =>
      (∃ c, tget (fun _ => []) t.print.frozen k = c ∧ bytesAt c 0x14 4 = (crc32c input) % 2 ^ 32 ∧
        counter t (pgFrz k) 1 = (counter s (pgFrz k) 1 + c.length) % 2 ^ 64) ∧
        counter t (pgFrz k) 0 = (counter s (pgFrz k) 0 + input.length) % 2 ^ 64 ∧ rd t (ra (pgFrz k) 0x44) = 0 ∧
        wordsKept [ra (pgFrz k) 0x44] s t ∧ onlyChanges [.regs, .counters, .print] s t)) ∧
  (∀ (s : State) (u : Tile), s.pair.role = 5 → mayThrottled s = true → findTile s u.job u.plane u.x u.y = some u → u.recovery = 0 →
    (u.state = 4 → u.slot ≠ 0 → crc32c (readSlot s (u.slot - 1) (dimsOf s u).1 (dimsOf s u).2) = u.storageCrc →
      completes (.dramScrub u.job u.plane u.x u.y) s (fun t =>
        onlyChanges [] s t)) ∧
    (u.state = 2 → u.length ≠ 0 → crc32c (memRead s.dram.mem (granAddr s u.gran) u.length) ≠ u.storeCrc →
      completes (.dramScrub u.job u.plane u.x u.y) s (fun t =>
        findTile t u.job u.plane u.x u.y = some { u with recovery := 4 } ∧ counted s t pgFirn 2 ∧
          t.dram.mem = s.dram.mem)))

/-- Fragments in the store, and the checks along the chain of checksums (R95, R96, R98, R100, R114 to R122, R378). -/
def Obligations.StoreAndChecks : Prop := FragmentStoreRule ∧ TileChecksRule

/-! ### Image memory (05) -/

/-- DRAM_WRITE and DRAM_READ inside the installed memory (R128, R131, R133, R134, R141), where no earlier request of the
channel waits: with its queue full, or during a frequency change, a request waits at its source; a write of a block with no
queued write enters its channel's write queue; a read of a block whose queued
write covers all of it is served from the queue with those bytes, one whose queued write covers it in part waits for that
write, and any other enters the read queue. Image memory itself does not change. -/
def DramQueuesRule : Prop :=
  (∀ (s : State) (a cls : Nat) (bs : List (Option Byte)), a % 64 = 0 → outside s a = false →
    (getDram s (chanOf a)).offers = [] →
    (freqBusy s = true ∨ queuedWrite (getDram s (chanOf a)) a = none ∧ 64 ≤ (getDram s (chanOf a)).writes.length →
      completes (.dramWrite a cls bs) s (fun t =>
        (∃ o, (getDram t (chanOf a)).offers = [] ++ [o] ∧ o.addr = a ∧ o.cls = min cls 4 ∧ o.bytes = some (mergeBytes [] bs)) ∧
          (getDram t (chanOf a)).writes = (getDram s (chanOf a)).writes ∧
          (getDram t (chanOf a)).reads = (getDram s (chanOf a)).reads ∧
          (∀ c, c ≠ chanOf a → getDram t c = getDram s c) ∧ t.dram.mem = s.dram.mem ∧ onlyChanges [.dram] s t)) ∧
    (freqBusy s = false → queuedWrite (getDram s (chanOf a)) a = none → (getDram s (chanOf a)).writes.length < 64 →
      completes (.dramWrite a cls bs) s (fun t =>
        (∃ w, (getDram t (chanOf a)).writes = (getDram s (chanOf a)).writes ++ [w] ∧ w.addr = a ∧ w.cls = min cls 4 ∧
          ∀ i, i < 64 → w.bytes[i]?.join = bs[i]?.join) ∧
          (getDram t (chanOf a)).reads = (getDram s (chanOf a)).reads ∧
          (∀ c, c ≠ chanOf a → getDram t c = getDram s c) ∧ t.dram.mem = s.dram.mem ∧ onlyChanges [.dram] s t))) ∧
  (∀ (s : State) (a cls : Nat), a % 64 = 0 → outside s a = false → (getDram s (chanOf a)).offers = [] →
    freqBusy s = true ∨ 128 ≤ (getDram s (chanOf a)).reads.length →
    completes (.dramRead a cls) s (fun t =>
      (∃ o, (getDram t (chanOf a)).offers = [] ++ [o] ∧ o.addr = a ∧ o.cls = min cls 4 ∧ o.bytes = none) ∧
        (getDram t (chanOf a)).writes = (getDram s (chanOf a)).writes ∧
        (getDram t (chanOf a)).reads = (getDram s (chanOf a)).reads ∧
        (∀ c, c ≠ chanOf a → getDram t c = getDram s c) ∧ t.dram.mem = s.dram.mem ∧ onlyChanges [.dram] s t)) ∧
  (∀ (s : State) (a cls : Nat), a % 64 = 0 → outside s a = false → freqBusy s = false →
    (getDram s (chanOf a)).offers = [] → (getDram s (chanOf a)).reads.length < 128 →
    (queuedWrite (getDram s (chanOf a)) a = none →
      completes (.dramRead a cls) s (fun t =>
        (∃ r, (getDram t (chanOf a)).reads = (getDram s (chanOf a)).reads ++ [r] ∧ r.addr = a ∧ r.held = false) ∧
          t.dram.mem = s.dram.mem ∧ onlyChanges [.dram] s t)) ∧
    (∀ w, queuedWrite (getDram s (chanOf a)) a = some w →
      (w.bytes.all (fun b => b.isSome) = true →
        completes (.dramRead a cls) s (fun t =>
          t.dram.lastRead = w.bytes.map (fun b => b.getD 0#8) ∧ (∀ c, getDram t c = getDram s c) ∧
            counted s t (pgDrc (chanOf a)) 8 ∧ t.dram.mem = s.dram.mem ∧ onlyChanges [.dram, .counters] s t)) ∧
      (w.bytes.all (fun b => b.isSome) = false →
        completes (.dramRead a cls) s (fun t =>
          (∃ r, (getDram t (chanOf a)).reads = (getDram s (chanOf a)).reads ++ [r] ∧ r.addr = a ∧ r.held = true) ∧
            counted s t (pgDrc (chanOf a)) 9 ∧ t.dram.mem = s.dram.mem ∧ onlyChanges [.dram, .counters] s t))))

/-- REQUEST_ISSUE of a serving sub-channel outside a frequency change, with nothing waiting for its channel (R128 to R131,
R134): the chosen write stores its enabled bytes and no other byte of image memory changes; the chosen read answers the 64
bytes at its address, those of the descriptor in the descriptor table (R101), and image memory stays; the request leaves its
queue either way, and a read that waited for the write need not wait any more. A read that waited at its source enters the
queue when a read leaves it full. AGE_PROMOTION moves a request of C1 to C4 that reached its age limit ahead, once. -/
def DramIssueRule : Prop :=
  (∀ (s : State) (k : Nat) (x : Cand), k < 8 → subState s k = 1 → (getSub s k).retrainDue = false → freqBusy s = false →
    choose s k = some x →
    (∀ w, x.write = true → (getDram s (k / 2)).writes.find? (fun w => w.id == x.id) = some w →
      memoryCanonical s → (getDram s (k / 2)).offers = [] →
      completes (.requestIssue k) s (fun t =>
        (∀ i, i < w.bytes.length → memByte t.dram.mem (w.addr + i) =
          match w.bytes[i]?.join with
          | some b => b
          | none => memByte s.dram.mem (w.addr + i)) ∧
          (∀ b, b < w.addr ∨ w.addr + w.bytes.length ≤ b → memByte t.dram.mem b = memByte s.dram.mem b) ∧
          (∀ v ∈ (getDram t (k / 2)).writes, v.id ≠ x.id) ∧
          (∀ r ∈ (getDram t (k / 2)).reads, r.addr = w.addr → r.held = false) ∧
          sends s t [.dram k 2 (bankOf s w.addr) (rowOf s w.addr) (colOf w.addr)] ∧
          onlyChanges [.counters, .dram, .out] s t)) ∧
    (∀ r, x.write = false → (getDram s (k / 2)).reads.find? (fun r => r.id == x.id) = some r →
      ((getDram s (k / 2)).offers = [] →
        completes (.requestIssue k) s (fun t =>
          (r.addr < descTable s ∨ descTable s + 64 * descCount s ≤ r.addr →
            t.dram.lastRead = (List.range 64).map (fun i => memByte s.dram.mem (r.addr + i))) ∧
          (∀ u, descTable s ≤ r.addr → r.addr < descTable s + 64 * descCount s →
            descTile s ((r.addr - descTable s) / 64) = some u → t.dram.lastRead = descBytes u) ∧
          t.dram.mem = s.dram.mem ∧ (∀ v ∈ (getDram t (k / 2)).reads, v.id ≠ x.id) ∧
          sends s t [.dram k 1 (bankOf s r.addr) (rowOf s r.addr) (colOf r.addr)] ∧
          onlyChanges [.counters, .dram, .out] s t)) ∧
      (∀ o, (getDram s (k / 2)).offers = [o] → o.bytes = none → queuedWrite (getDram s (k / 2)) o.addr = none →
        (getDram s (k / 2)).reads.length ≤ 128 →
        completes (.requestIssue k) s (fun t =>
          (getDram t (k / 2)).offers = [] ∧
            ∃ q, (getDram t (k / 2)).reads = (getDram s (k / 2)).reads.filter (fun v => v.id != x.id) ++ [q] ∧
              q.addr = o.addr ∧ q.cls = o.cls ∧ q.held = false)))) ∧
  (∀ (s : State) (c id : Nat) (r : DramReq), c < 4 → r ∈ (getDram s c).reads → r.id = id → r.cls ≠ 0 → r.promoted = false →
    completes (.agePromotion c id) s (fun t =>
      { r with promoted := true } ∈ (getDram t c).reads ∧ (getDram t c).reads.length = (getDram s c).reads.length ∧
        counted s t (pgDrc c) 10 ∧ countersKept (pgDrc c) 10 s t ∧ t.dram.mem = s.dram.mem ∧
        onlyChanges [.counters, .dram] s t))

/-- Reads and writes of image memory from their entry to their issue (R128 to R131, R133, R134). -/
def Obligations.DramRequests : Prop := DramQueuesRule ∧ DramIssueRule

/-- REFRESH, RETRAIN_STEP, MR4_READ and HOT_HOLD_EXPIRY (R127, R136 to R140): a refresh closes every row of the sub-channel,
is counted, and makes a retraining step due with every 64th; a step moves one delay edge by at most one tap and writes
nothing but its part of the training area; the 192nd ends a sweep and shows the margins of the four byte lanes, where a
margin below MARGIN_MIN records DRAM_MARGIN, class B, and a margin of 0 the class D fault DRAM_TRAIN; a doubled refresh
rate makes a sub-channel hot at once, and it is normal again only at the end of its hold. That the margins come with the
command is the model's choice (assumption log 45). -/
def DramRefreshRule : Prop :=
  ∀ (s : State) (k : Nat), k < 8 →
    (subState s k = 1 →
      completes (.refresh k) s (fun t =>
        (getSub t k).openRows = [] ∧ (getSub t k).refreshes = (getSub s k).refreshes + 1 ∧
          (((getSub s k).refreshes + 1) % 64 = 0 → rdb s (ra pgDrg 0x74) 0 = true → (getSub t k).retrainDue = true) ∧
          (∀ i, i ≠ k → getSub t i = getSub s i) ∧ counted s t (pgDrc (k / 2)) 6 ∧ t.dram.mem = s.dram.mem ∧
          sends s t [.dram k 0 0 0 0] ∧ onlyChanges [.counters, .dram, .out] s t)) ∧
    (∀ (edge : Nat) (move : Int) (ms : List Nat), edge < 16 → ms.length = 4 → subState s k = 1 →
      (getSub s k).retrainDue = true → memoryCanonical s →
      completes (.retrainStep k edge move ms) s (fun t =>
        (getSub t k).retrainDue = false ∧
          (getSub t k).sweep = (if (getSub s k).sweep + 1 = 192 then 0 else (getSub s k).sweep + 1) ∧
          tget (fun _ => (0 : Int)) (getSub t k).edges edge =
            tget (fun _ => (0 : Int)) (getSub s k).edges edge + max (-1) (min 1 move) ∧
          (∀ i, i ≠ edge →
            tget (fun _ => (0 : Int)) (getSub t k).edges i = tget (fun _ => (0 : Int)) (getSub s k).edges i) ∧
          counted s t (pgDrc (k / 2)) 7 ∧
          (∀ a, a < trainBase s + 256 * k ∨ trainBase s + 256 * k + 64 ≤ a →
            memByte t.dram.mem a = memByte s.dram.mem a)) ∧
      ((getSub s k).sweep + 1 ≠ 192 →
        completes (.retrainStep k edge move ms) s (fun t =>
          onlyChanges [.counters, .dram, .out, .freeCount] s t)) ∧
      ((getSub s k).sweep + 1 = 192 →
        ((∀ m ∈ ms, rdf s (ra (pgDrc (k / 2)) 0x48) 3 0 ≤ m ∧ m ≠ 0 ∧ m < 16) →
          completes (.retrainStep k edge move ms) s (fun t =>
            (∀ lane, lane < 4 → some (rdf t (ra (pgDrc (k / 2)) 0x44) (4 * (4 * (k % 2) + lane) + 3)
              (4 * (4 * (k % 2) + lane))) = ms[lane]?) ∧ wordsKept [ra (pgDrc (k / 2)) 0x44] s t ∧
              onlyChanges [.regs, .counters, .dram, .out, .freeCount] s t)) ∧
        (∀ lane, lane < 4 → (∀ i, i < 4 → i ≠ lane → ms[i]? = some 15) →
          (∀ m, ms[lane]? = some m → 0 < m → m < rdf s (ra (pgDrc (k / 2)) 0x48) 3 0 →
            completes (.retrainStep k edge move ms) s (fun t => recorded s t 0x0403 1)) ∧
          (ms[lane]? = some 0 → rdf s (ra (pgDrc (k / 2)) 0x48) 3 0 = 0 →
            completes (.retrainStep k edge move ms) s (fun t => recorded s t 0x0404 3))))) ∧
    (∀ d0 d1, d0 = true ∨ d1 = true →
      completes (.mr4Read k d0 d1) s (fun t =>
        (getSub t k).hotMr4 = true ∧ (getSub t k).hot = true ∧ (∀ i, i ≠ k → getSub t i = getSub s i) ∧
          t.dram.mem = s.dram.mem)) ∧
    (completes (.mr4Read k false false) s (fun t =>
      (getSub t k).hotMr4 = false ∧ ((getSub s k).hot = true → (getSub t k).hot = true) ∧ t.dram.mem = s.dram.mem)) ∧
    ((getSub s k).hot = true → (getSub s k).hotMr4 = false → (getSub s k).hotTs = false →
      completes (.hotHoldExpiry k) s (fun t =>
        (getSub t k).hot = false ∧ rdb t (ra (pgDrc (k / 2)) 0x40) (8 + k % 2) = false ∧
          (∀ i, i ≠ k → getSub t i = getSub s i) ∧ t.dram.mem = s.dram.mem))

/-- FREQ_REQ, FREQ_DONE and DERATE_WINDOW (R141, R144 to R146): a request for another trained set while no bar prints
makes FREQ busy; one while a bar prints is refused; the end of the change, with every sub-channel in self-refresh, sets the
timing set that was asked for in use, all sub-channels
serve again, and FREQ_DONE is raised; a failed one records DRAM_TRAIN, class D; each window the demand counts start again, and while the controller derates the speed
limit for the demands of the window is stated, with DRAM_DERATE, class B, when the web first runs faster. -/
def DramFrequencyRule : Prop :=
  (∀ (s : State) (rq : Requester) (f : Nat), f < 3 → pgClkOn s pgDrg = true →
    (anyPrinting s = false → rdb s (ra pgDrg 0x40) f = true → f ≠ activeSet s → freqBusy s = false →
      completes (.freqReq rq f true) s (fun t =>
        freqBusy t = true ∧ rdf t (ra pgDrg 0x44) 1 0 = f ∧ t.dram.freqTarget = f ∧ t.dram.mem = s.dram.mem ∧ t.dram.chans = s.dram.chans)) ∧
    (anyPrinting s = true →
      completes (.freqReq rq f true) s (fun t =>
        raised s t pgDrg 4 ∧ wordsKept [ra pgDrg 0x24] s t ∧ onlyChanges eventParts s t))) ∧
  (∀ s : State, freqBusy s = true → allSelf s = true → s.dram.freqTarget < 3 → s.print.jobs = [] →
    completes (.freqDone true) s (fun t =>
      freqBusy t = false ∧ activeSet t = s.dram.freqTarget ∧ (∀ k, k < 8 → subState t k = 1) ∧
        (evPend t pgDrg).testBit 8 = true ∧ t.dram.mem = s.dram.mem) ∧
    completes (.freqDone false) s (fun t => freqBusy t = false ∧ recorded s t 0x0404 3 ∧ t.dram.mem = s.dram.mem)) ∧
  (∀ s : State,
    completes .derateWindow s (fun t =>
      t.dram.c0 = 0 ∧ t.dram.c1 = 0 ∧ t.dram.c2 = 0 ∧ t.dram.c3 = 0 ∧ t.dram.mem = s.dram.mem ∧
        (derating s = false → onlyChanges [.dram] s t) ∧
        (derating s = true → rdf s (ra pgDrg 0x5C) 11 0 = 0 → s.dram.c3 < 100000 →
          s.dram.c0 / 100000 + s.dram.c1 / 100000 + s.dram.c2 / 100000 ≠ 0 →
          rd t (ra pgDrg 0x68) = min (webSpeed s * rdf s (ra pgDrg 0x60) 11 0 /
            (s.dram.c0 / 100000 + s.dram.c1 / 100000 + s.dram.c2 / 100000)) 0xFFFFF)))

/-- Refresh, retraining, heat, frequency and derating of image memory (R136 to R141, R144 to R146). -/
def Obligations.DramUpkeep : Prop := DramRefreshRule ∧ DramFrequencyRule

/-- At most one queued write for each 64-byte block in every channel. -/
def blocksOnce (s : State) : Prop := ∀ c, ((getDram s c).writes.map (fun w => w.addr / 64)).Nodup

/-- R133: the write queue never holds two entries for one block, over any step from a state in which it does not; a write to a
block that has a queued entry merges into it, where the newer bytes replace the older ones. -/
def Obligations.QueuedBlocks : Prop :=
  blocksOnce State.reset ∧ (∀ s t : State, blocksOnce s → Machine.step s = .next t → blocksOnce t) ∧
  (∀ (s : State) (a cls : Nat) (bs : List (Option Byte)) (w : DramWr), a % 64 = 0 → outside s a = false → freqBusy s = false →
    (getDram s (chanOf a)).offers = [] → queuedWrite (getDram s (chanOf a)) a = some w →
    completes (.dramWrite a cls bs) s (fun t =>
      (∀ v ∈ (getDram t (chanOf a)).writes, v.id = w.id →
        ∃ o ∈ (getDram s (chanOf a)).writes, o.id = w.id ∧
          ∀ i, i < 64 → v.bytes[i]?.join = match bs[i]?.join with
            | some b => some b
            | none => o.bytes[i]?.join) ∧
        (getDram t (chanOf a)).writes.length = (getDram s (chanOf a)).writes.length ∧
        (getDram t (chanOf a)).reads = (getDram s (chanOf a)).reads ∧ t.dram.mem = s.dram.mem ∧
        onlyChanges [.dram] s t))

/-! ### Web position (06) -/

/-- COUNT_EDGE of an enabled incremental channel (R150, R151, R153, R158, R163): a legal change of the accepted levels moves the position by one count, in the
other direction with INVERT, and latches the time at the pin; H and W follow the position. An illegal one leaves the
position, sets QUAD_ERR and records it, class B. Unchanged levels tell of a rejected pulse, which is counted and does nothing else. -/
def CountEdgesRule : Prop :=
  ∀ (s : State) (c : Nat) (u v w : Bool) (ph : Nat), c < 8 → ph < 4 → pgEn s (pgPos c) = true → incremental s c = true →
    let x := decodeEdge s c u v w
    ((getChan s c).levels = b2n u + 2 * b2n v + 4 * b2n w →
      completes (.countEdge c u v w ph) s (fun t =>
        (getChan t c).pos = (getChan s c).pos ∧ counted s t (pgPos c) 7 ∧ countersKept (pgPos c) 7 s t ∧
          onlyChanges [.counters, .chans] s t)) ∧
    ((getChan s c).levels ≠ b2n u + 2 * b2n v + 4 * b2n w →
      (∀ d, x.1 = some d → d ≠ 0 →
        completes (.countEdge c u v w ph) s (fun t =>
          (getChan t c).pos = (getChan s c).pos + (if rdb s (posA c 0x40) 3 then -d else d) * 65536 ∧
            (getChan t c).latchT = (fireNow s + 2 ^ 48 + 256 * ph - 256 * (posFilt s c + 3)) % 2 ^ 48 ∧
            (getChan t c).high = max (getChan s c).high (getChan t c).pos ∧
            (getChan t c).low = min (getChan s c).low (getChan t c).pos ∧ (getChan t c).still = false ∧
            ∀ e, e ≠ c → getChan t e = getChan s e)) ∧
      (x.1 = none →
        completes (.countEdge c u v w ph) s (fun t =>
          (getChan t c).pos = (getChan s c).pos ∧ (getChan t c).levels = b2n u + 2 * b2n v + 4 * b2n w ∧
            (evPend t (pgPos c)).testBit 11 = true ∧ recorded s t 0x0501 1 ∧ ∀ e, e ≠ c → getChan t e = getChan s e)))

/-- The quadrature sequence of R151 and the switch sequence of R153: from every pair of levels the next one forward counts
1, the next one backward -1, and, in QUAD mode, the opposite one is illegal; 000 and 111 are illegal in SWITCH mode. -/
def EdgeDecodingRule : Prop :=
  (∀ (s : State) (c : Nat) (a b : Bool), posMode s c = 1 → (getChan s c).levels = b2n a + 2 * b2n b →
    (decodeEdge s c (!b) a false).1 = some 1 ∧ (decodeEdge s c b (!a) false).1 = some (-1) ∧
      (decodeEdge s c (!a) (!b) false).1 = none ∧ (decodeEdge s c a b false).1 = some 0) ∧
  (∀ (s : State) (c : Nat) (l : Bool), posMode s c = 2 → (decodeEdge s c l l l).1 = none) ∧
  (∀ (s : State) (c k : Nat) (f : Nat → Bool × Bool × Bool),
    f = (fun i => match i % 6 with
      | 0 => (true, false, false)
      | 1 => (true, true, false)
      | 2 => (false, true, false)
      | 3 => (false, true, true)
      | 4 => (false, false, true)
      | _ => (true, false, true)) →
    posMode s c = 2 → (getChan s c).lastLegal = 4 * b2n (f k).1 + 2 * b2n (f k).2.1 + b2n (f k).2.2 →
    (decodeEdge s c (f (k + 1)).1 (f (k + 1)).2.1 (f (k + 1)).2.2).1 = some 1 ∧
      (decodeEdge s c (f (k + 5)).1 (f (k + 5)).2.1 (f (k + 5)).2.2).1 = some (-1))

/-- Count edges of incremental channels and their sequences (R150, R151, R153, R158, R163). -/
def Obligations.EdgesOfChannels : Prop := CountEdgesRule ∧ EdgeDecodingRule

/-- INDEX of a QUAD channel with Z_EN, qualified (R168 to R171): the index latches the position; with LEARN the first one since EN or LOAD sets INDEX_EXP; within INDEX_TOL of the
expected place it clears the error count; beyond, INDEX_ERR is set and recorded, class B. The position stays, unless
the channel corrects itself with no bar printing on it. -/
def IndexPulsesRule : Prop :=
  ∀ (s : State) (c : Nat), c < 8 → pgEn s (pgPos c) = true → posMode s c = 1 → rdb s (posA c 0x40) 4 = true →
    (rdb s (posA c 0x40) 5 = false ∨ (getChan s c).levels % 4 = 3) →
    let rev := rd s (posA c 0x58)
    let dev := indexDeviation (getChan s c).pos (rd s (posA c 0x5C)) rev
    (rev = 0 → completes (.index c) s (fun t =>
      getChan t c = { getChan s c with indexPos := (getChan s c).pos / 65536 * 65536, indexed := true } ∧
        ∀ e, e ≠ c → getChan t e = getChan s e)) ∧
    (rev ≠ 0 → rdb s (posA c 0x40) 7 = true → (getChan s c).indexed = false →
      completes (.index c) s (fun t =>
        (getChan t c).learned = true ∧ (getChan t c).pos = (getChan s c).pos ∧
          ((∀ n, n < 16 → (getAxis s n).homing ≠ 1) →
            rd t (posA c 0x5C) = ((getChan s c).pos / 65536 % (rev : Int)).toNat ∧ wordsKept [posA c 0x5C] s t))) ∧
    (rev ≠ 0 → rdb s (posA c 0x40) 7 = false ∨ (getChan s c).indexed = true →
      (dev.natAbs ≤ rdf s (posA c 0x60) 14 0 →
        completes (.index c) s (fun t =>
          (getChan t c).indexDev = dev ∧ (getChan t c).idxErrs = 0 ∧ (getChan t c).pos = (getChan s c).pos ∧
            ∀ e, e ≠ c → getChan t e = getChan s e)) ∧
      (rdf s (posA c 0x60) 14 0 < dev.natAbs →
        completes (.index c) s (fun t =>
          (evPend t (pgPos c)).testBit 8 = true ∧ (∀ e, e ≠ c → getChan t e = getChan s e) ∧
            (rdb s (posA c 0x40) 6 = true ∧ barsOn s c = [] →
              (getChan t c).pos = (getChan s c).pos - dev * 65536 ∧ (getChan t c).idxErrs = 0) ∧
            (¬(rdb s (posA c 0x40) 6 = true ∧ barsOn s c = []) →
              (getChan t c).pos = (getChan s c).pos ∧ (getChan t c).idxErrs = min 255 ((getChan s c).idxErrs + 1)))))

/-- SERIAL_FRAME, SERIAL_SAMPLE and SER_TIMEOUT of an enabled serial channel (R154 to R156, R172): a frame clocks MA and latches
the time of its first clock edge; a good sample moves the position by its difference to the last one as a signed number of
LENGTH bits, the first by nothing; a failed one leaves the position, counts and sets SER_ERR, and with the count at its limit
POS_FAULT is recorded, class C while a bar prints on the channel and class B otherwise. -/
def SerialChannelsRule : Prop :=
  ∀ (s : State) (c : Nat), c < 8 → pgEn s (pgPos c) = true → serial s c = true →
    (completes (.serialFrame c) s (fun t =>
      getChan t c = { getChan s c with serOpen := true, serT := fireNow s } ∧ counted s t (pgPos c) 5 ∧
        sends s t [.maClock c (rdf s (posA c 0x68) 15 8)] ∧ (∀ e, e ≠ c → getChan t e = getChan s e) ∧
        onlyChanges [.counters, .chans, .out] s t)) ∧
    (∀ f : SerialFrame, (getChan s c).serOpen = true →
      let raw := f.data % 2 ^ serLen s c
      let good := f.startOk = true ∧ (posMode s c = 4 → f.crc % 64 = bissCrc (serLen s c) raw f.nE f.nW ∧ f.nE = true)
      let v := if posMode s c ≠ 4 ∧ rdb s (posA c 0x68) 6 = true then grayToBin (serLen s c) raw else raw
      (good → (∀ p, (getChan s c).serPrev = some p →
          completes (.serialSample c f) s (fun t =>
            (getChan t c).pos =
                (getChan s c).pos + signed (serLen s c) ((v + 2 ^ serLen s c - p) % 2 ^ serLen s c) * 65536 ∧
              (getChan t c).serPrev = some v ∧ (getChan t c).serErrs = 0 ∧ (getChan t c).serOpen = false ∧
              (getChan t c).latchT = (getChan s c).serT ∧ ∀ e, e ≠ c → getChan t e = getChan s e)) ∧
        ((getChan s c).serPrev = none →
          completes (.serialSample c f) s (fun t =>
            (getChan t c).pos = (getChan s c).pos ∧ (getChan t c).serPrev = some v))) ∧
      (¬good →
        completes (.serialSample c f) s (fun t =>
          (getChan t c).pos = (getChan s c).pos ∧ (getChan t c).serErrs = min 255 ((getChan s c).serErrs + 1) ∧
            (getChan t c).serOpen = false ∧ (evPend t (pgPos c)).testBit 12 = true))) ∧
    (posMode s c = 4 → (getChan s c).serOpen = true →
      completes (.serTimeout c) s (fun t =>
        (getChan t c).pos = (getChan s c).pos ∧ (getChan t c).serErrs = min 255 ((getChan s c).serErrs + 1) ∧
          (getChan t c).serOpen = false ∧ (evPend t (pgPos c)).testBit 12 = true ∧
          ((getChan s c).serErrs < 255 → rdf s (posA c 0x68) 23 16 = (getChan s c).serErrs + 1 →
            (getChan t c).posFault = true ∧ recorded s t 0x0503 (if barsOn s c = [] then 1 else 2))))

/-- Index pulses, and serial channels (R154 to R156, R168 to R172). -/
def Obligations.IndexAndSerial : Prop := IndexPulsesRule ∧ SerialChannelsRule

/-- Registers and timers of a channel (R149, R160, R161, R165, R167, R172): LOAD sets the position and both marks to
POS_SET, CLR_FAULT clears POS_FAULT and the error counts, and both are refused while a bar prints on the channel; a read of POS_LO
captures the position, its time and the speed in effect for its requester; a speed window with two edges gives the window speed; without edges for STILL_TIMEOUT the
speed is 0. -/
def Obligations.PositionRegisters : Prop :=
  ∀ (s : State) (rq : Requester) (c : Nat), c < 8 →
    (admitted s (posA c 0x80) 1 →
      (barsOn s c = [] →
        completes (.load rq c) s (fun t =>
          (getChan t c).pos = signed 64 (rd64 s (posA c 0x78)) ∧ (getChan t c).high = (getChan t c).pos ∧
            (getChan t c).low = (getChan t c).pos ∧ (getChan t c).latchT = (getChan s c).latchT ∧
            (∀ e, e ≠ c → getChan t e = getChan s e) ∧ onlyChanges [.chans] s t)) ∧
      (barsOn s c ≠ [] →
        completes (.load rq c) s (fun t =>
          raised s t (pgPos c) 4 ∧ wordsKept [ra (pgPos c) 0x24] s t ∧ onlyChanges eventParts s t))) ∧
    (admitted s (posA c 0x80) 2 →
      (barsOn s c = [] →
        completes (.clrFault rq c) s (fun t =>
          getChan t c = { getChan s c with posFault := false, idxErrs := 0, serErrs := 0 } ∧
            (∀ e, e ≠ c → getChan t e = getChan s e) ∧ onlyChanges [.chans] s t)) ∧
      (barsOn s c ≠ [] →
        completes (.clrFault rq c) s (fun t =>
          raised s t (pgPos c) 4 ∧ wordsKept [ra (pgPos c) 0x24] s t ∧ onlyChanges eventParts s t))) ∧
    (pgClkOn s (pgPos c) = true →
      completes (.posLoRead rq c) s (fun t =>
        tget (fun _ => 0#32) t.lastRead (rqKey rq) = BitVec.ofNat 32 (twos 64 (getChan s c).pos) ∧
          tget (fun _ => 0#32) t.captured (capKey rq (posA c 0x8C)) =
            BitVec.ofNat 32 (twos 64 (getChan s c).pos / 2 ^ 32) ∧
          tget (fun _ => 0#32) t.captured (capKey rq (posA c 0x90)) = BitVec.ofNat 32 (getChan s c).latchT ∧
          tget (fun _ => 0#32) t.captured (capKey rq (posA c 0x94)) = BitVec.ofNat 32 ((getChan s c).latchT / 2 ^ 32) ∧
          tget (fun _ => 0#32) t.captured (capKey rq (posA c 0x98)) =
            BitVec.ofNat 32 (twos 64 (signedSpeedAt s c (fireNow s))) ∧
          onlyChanges [.captured, .lastRead] s t)) ∧
    (pgEn s (pgPos c) = true → incremental s c = true →
      (∀ x y, (getChan s c).winFirst = some x → (getChan s c).winLast = some y →
        completes (.speedWindow c) s (fun t =>
          (getChan t c).winSpeed = spanSpeed x y ∧ (getChan t c).winFirst = none ∧ (getChan t c).winLast = none ∧
            (getChan t c).pos = (getChan s c).pos ∧ ∀ e, e ≠ c → getChan t e = getChan s e)) ∧
      ((getChan s c).winLast = none →
        completes (.speedWindow c) s (fun t =>
          getChan t c = { getChan s c with winFirst := none, winLast := none } ∧
            (∀ e, e ≠ c → getChan t e = getChan s e) ∧ onlyChanges [.chans] s t)) ∧
      ((getChan s c).still = false →
        completes (.stillTimeout c) s (fun t =>
          getChan t c = { getChan s c with still := true, speed := 0, perSpeed := 0, winSpeed := 0, nEdges := 0 } ∧
            raised s t (pgPos c) 13 ∧ wordsKept [ra (pgPos c) 0x24] s t ∧ ∀ e, e ≠ c → getChan t e = getChan s e)))

/-! ### Lines, placement and waveforms (07, 08) -/

/-- JOB_START (R142, R176, R177, R180, R225, R323): it completes with BAD_PARAM, and starts nothing, when the job is not
defined, is started already or any check fails; with LATE when the position of a mode 1 start lies behind the web; it is
held during a step of press time, and in mode 0 during a frequency change; mode 2 arms the bars for their marks; otherwise every
bar of the job begins its pass at its start position, before what the start of a job begins. -/
def Obligations.JobStart : Prop :=
  (∀ (s : State) (slot : Nat) (e : JEntry), startable s slot 0x11 = some e →
    let mode := eParam e.entry 0 4
    let arg := signed 64 (eParam e.entry 8 8)
    (findJob s (eJob e.entry) = none →
      completes (.jobStart slot) s (fun t => doneAs t slot stBadParam ∧ entriesKept s t slot ∧ onlyChanges [.host, .out] s t)) ∧
    (∀ j, findJob s (eJob e.entry) = some j →
      let u := resetLow s (barsOfJob s j)
      let late := decide (mode = 1) && startLate u j (jobStarts u j (some arg)) 0
      (j.startSlot.isSome = true ∨ startOk s j mode arg = false →
        completes (.jobStart slot) s (fun t =>
          doneAs t slot stBadParam ∧ entriesKept s t slot ∧ onlyChanges [.host, .out] s t)) ∧
      (j.startSlot = none → startOk s j mode arg = true →
        (s.clk.stepBusy = true ∨ freqBusy s = true ∧ mode = 0 →
          completes (.jobStart slot) s (fun t =>
            findJob t j.number = some { j with startSlot := some slot, held := true, mode := mode, arg := arg } ∧
              getEntry t slot = some { e with state := 1 } ∧ t.print.bars = s.print.bars ∧
              onlyChanges [.print, .host] s t)) ∧
        (s.clk.stepBusy = false → freqBusy s = false →
          (mode = 2 → exec (.jobStart slot) s = .next (armJob u slot j arg e)) ∧
          (mode ≠ 2 → s.pair.role = 0 →
            (late = true →
              completes (.jobStart slot) s (fun t =>
                doneAs t slot stLate ∧ entriesKept s t slot ∧ onlyChanges [.chans, .host, .out] s t)) ∧
            (late = false →
              exec (.jobStart slot) s =
                .next (startJob u slot j (jobStarts u j (if mode = 1 then some arg else none))))))))) ∧
  (∀ (s : State) (b : Nat) (j : Job) (sb : Int),
    getBar (beginPass s b j sb) b =
      { freshBar s b j 0 with printing := true, starts := [sb], sheet := (freshBar s b j 0).per != 0 } ∧
    (∀ c, c ≠ b → getBar (beginPass s b j sb) c = getBar s c))

/-- JOB_STOP (R512): every printing bar of the job gets its last line, the named one, or the next in build order when none
is named or the named one has passed; a passed one completes with LATE, and the command answers the last line. With no
bar printing it completes with OK. One that the pair forwarded as late completes with LATE and stops nothing (R349). MARK (R179, R180, R182): a qualified mark of an armed bar gives the bar its next start
position, S = mark + OFS + the offset of its start; one of an unarmed bar that prints a sheet is counted and raises its event; and one that is not
qualified does nothing. -/
def Obligations.StopsAndMarks : Prop :=
  (∀ (s : State) (slot : Nat) (e : JEntry) (j : Job), startable s slot 0x12 = some e →
    findJob s (eJob e.entry) = some j →
    let bs := (jobBars s j.number).filter (printing s)
    let named := eParam e.entry 0 6
    let late := named != ones48 && bs.any (fun b => linePassed s b named)
    (bs = [] →
      completes (.jobStop slot) s (fun t => doneAs t slot stOk ∧ ∀ b, printing t b = printing s b)) ∧
    (bs ≠ [] → e.late = true →
      completes (.jobStop slot) s (fun t => doneAs t slot stLate ∧ entriesKept s t slot ∧ onlyChanges [.host, .out] s t)) ∧
    (bs ≠ [] → e.late = false →
      completes (.jobStop slot) s (fun t =>
        ∃ e' q, getEntry t slot = some e' ∧ e'.state = 2 ∧ e'.status = (if late then stLate else stOk) ∧ e'.imageLine = q ∧
          (∀ b ∈ bs, (getBar t b).stopLine = some q) ∧ (∀ b, b ∉ bs → printing t b = printing s b) ∧
          (named ≠ ones48 → late = false → j.length = 0 → q = named)))) ∧
  (∀ (s : State) (b back : Nat) (fall : Bool), b < 8 → s.pair.role = 0 →
    let cfg := rd s (ra pgLine (0x50 + 0x20 * b))
    (bitOf cfg 8 = false ∨ bitOf cfg 9 ≠ fall → exec (.mark b fall back) s = .next s) ∧
    (bitOf cfg 8 = true → bitOf cfg 9 = fall →
      ((getBar s b).armed = true → (getBar s b).starts ≠ [] ∨ markMarginOk s b (getBar s b) (getBar s b).markOfs = true →
        exec (.mark b fall back) s = .next (acceptMark s b (markPos s b back))) ∧
      ((getBar s b).armed = false → (getBar s b).printing = true → (getBar s b).sheet = true →
        completes (.mark b fall back) s (fun t =>
          raised s t pgLine (16 + b) ∧ wordsKept [ra pgLine 0x24] s t ∧ onlyChanges eventParts s t)))) ∧
  (∀ (s : State) (b : Nat) (m sb : Int), (getBar s b).starts ≠ [] →
    getBar (takeMark s b m sb) b =
      { getBar s b with armed := false, printing := true, sheet := (getBar s b).per != 0, starts := (getBar s b).starts ++ [sb],
                        lastMark := some m, misses := 0 })

/-- ROW_LINE_BUILT and LINE_SEND of a bar with no earlier pass on its way (R178, R185, R187, R217 to R219, R242): a
row-line whose tiles are all fetched is built as the bar's oldest one that is not, with the level string of its columns
under the words in effect for its image line; at its send position the oldest built row-line of its stream leaves the bar,
and the LINE frame with its fire time, the speed and its levels goes to the lane of its head; one whose fire time lies too
close to the last goes without levels. -/
def Obligations.RowLines : Prop :=
  (∀ (s : State) (b : Nat) (l : RowLine) (q : Stream), b < 8 → (∀ e ∈ s.print.old, e.1 ≠ b) →
    nextToBuild (getBar s b) = some l → (getBar s b).streams[l.stream]? = some q → unfetched s b (getBar s b) l = [] →
    exec (.rowLineBuilt b) s =
        .next (let u := openFetches (sendIfLate (rearm (compareLines (lineLBuilt (buildRowLine s b l q))) b l) b l q) b
          freePassed u (getBar u b).job) ∧
      (getBar (buildRowLine s b l q) b).lines =
        (let v := asOf s b l.img
        let str := packLevels (if drop4 v b then 4 else 2) (rowLevels v b (getBar s b) l.blanks q.head q.row l.img)
        markBuilt (getBar s b).lines { l with built := true, string := str })) ∧
  (∀ (s : State) (b i : Nat) (l : RowLine) (q : Stream), b < 8 → (∀ e ∈ s.print.old, e.1 ≠ b) →
    (getBar s b).lines.find? (fun x => x.built && x.stream == i) = some l → (getBar s b).streams[i]? = some q →
    sendReached s b (getBar s b) q l = true → s.pair.role ≠ 4 →
    let u := asOf s b l.img
    let lane := headLane u b q.head
    let ch := getChan s (lineChan u b)
    let v := ch.speed.natAbs
    let fire := fireTime (getBar s b) (targetPos u b (getBar s b) q l.k l.img) ch.pos ch.latchT v (flight u b l.img)
    let skip := tooClose s b q l fire
    (getLane s lane).state = 6 → mayBegin s = true →
    completes (.lineSend b i) s (fun t =>
      (getBar t b).lines = dropSent i (getBar s b).lines ∧
        (getBar t b).streams =
          (getBar s b).streams.set i { q with lastFire := if skip then q.lastFire else some fire } ∧
        .fln lane (flnFrame 1 (lineFlags u b lane (getBar s b) l skip) (claimWord s)
          (lineBody s lane (headSlot u b q.head) q.row l fire v skip)) ∈ t.out))

/-- SKIP_EPISODE_END, BAR_STOPPING_END, TEMP_TIMEOUT and VALIDATE (R234, R236, R241, R243): a skip episode ends after 1,024 line starts
without a skip with its second record, LINE_SKIP of class B; a bar whose row-lines are all sent is idle with an empty row window;
a head that reports no temperature is lost once, with its record, class B; a waveform is marked valid exactly when it passes its check, and goes to
every active HCB then; else its reason is reported. -/
def EpisodesAndWaveformsRule : Prop :=
  (∀ (s : State) (b : Nat) (e : Episode), b < 8 → (getBar s b).skip = some e → 1024 ≤ e.quiet →
    completes (.skipEpisodeEnd b) s (fun t =>
      (getBar t b).skip = none ∧ recorded s t 0x0601 1 ∧ (evPend t (pgPlc b)).testBit 11 = true)) ∧
  (∀ (s : State) (b : Nat), b < 8 → (getBar s b).stopping = true → (getBar s b).lines = [] →
    (∀ e ∈ s.print.old, e.1 ≠ b) →
    completes (.barStoppingEnd b) s (fun t =>
      getBar t b = { getBar s b with stopping := false, ovs := 0, fastMap := false, maps := [] } ∧ winSlots t b = [] ∧
        (∀ c, c ≠ b → getBar t c = getBar s c) ∧ (∀ x ∈ t.print.past, x ∈ s.print.past))) ∧
  (∀ (s : State) (l slot b h : Nat), l < 48 → b < 8 → h ∈ headsOnLane s b l → headSlot s b h = slot →
    ((getLane s l).state = 6 ∨ (getLane s l).state = 7) → (getLane s l).tempLost.contains slot = false →
    completes (.tempTimeout l slot) s (fun t =>
      slot ∈ (getLane t l).tempLost ∧ recorded s t 0x0602 1 ∧ (evPend t pgWave).testBit 10 = true)) ∧
  (∀ (s : State) (rq : Requester) (w : Nat), w < 32 → admitted s (ra pgWave 0x84) w →
    (waveCheck s w = 0 →
      completes (.validate rq w) s (fun t =>
        rdb t (ra pgWave 0x80) w = true ∧ (∀ i, i < 32 → i ≠ w → rdb t (ra pgWave 0x80) i = rdb s (ra pgWave 0x80) i) ∧
          raised s t pgWave 8 ∧ wordsKept [ra pgWave 0x80, ra pgWave 0x24] s t)) ∧
    (waveCheck s w ≠ 0 →
      completes (.validate rq w) s (fun t =>
        rdb t (ra pgWave 0x80) w = false ∧ rd t (ra pgWave 0x88) = 256 * waveCheck s w + w ∧ raised s t pgWave 9 ∧
          wordsKept [ra pgWave 0x80, ra pgWave 0x88, ra pgWave 0x24] s t ∧ onlyChanges eventParts s t)))

/-- DRYPOINT_DONE of a pattern that prints (R229, R285): each result of the committed pattern is stored, for BAR relative to
the mark of bar REF, 0 for a mark that was not found and for every mark of a flagged frame; the status is DONE, and DONE is
raised, with NOT_FOUND when an expected mark has no result. Without AUTO nothing else changes. That BAR has no result
without the mark of REF is the model's choice (assumption log 47). -/
def DrypointResultsRule : Prop :=
  ∀ (s : State) (rs : List (Option Int)), s.pair.role = 0 → drypOn s = true →
    let ref := rs[field (drypCfg s) 26 24]?.join
    let res : Nat → Option Int := fun i =>
      if (getCtx s (field (drypCfg s) 19 16 % 8)).unfit then none
      else if drypPattern s = 1 then ref.bind (fun r => (rs[i]?.join).map (fun e => e - r))
      else rs[i]?.join
    completes (.drypointDone rs) s (fun t =>
      (∀ i, i < min (drypCount s) 256 → rd t (ra pgDryp (0x400 + 4 * i)) = twos 32 ((res i).getD 0)) ∧
        rd t (ra pgDryp 0x54) = 4 ∧ (evPend t pgDryp).testBit 8 = true ∧
        ((∃ i, i < min (drypCount s) 256 ∧ drypExpected s i = true ∧ res i = none) →
          (evPend t pgDryp).testBit 10 = true) ∧
        (bitOf (drypCfg s) 31 = false → onlyChanges eventParts s t))

/-- Skip episodes, stopping bars, lost temperatures, waveform checks and drypoint results (R229, R234, R236, R241, R243). -/
def Obligations.EpisodesAndResults : Prop := EpisodesAndWaveformsRule ∧ DrypointResultsRule

/-! ### Flelyn lanes (09) -/

/-- Bringing a lane up (R251 to R253, R276, R277): with a terminated receiver an idle lane of an enabled page trains at the
lowest rate with the preset of its lane trim; block lock in both directions starts the exchange of CAP frames, which is
repeated while its answer is awaited; a CAP frame of a supported version is taken and the highest common rate asked for,
one of a refused version fails the lane for good with LINK_VERSION, class B; a granted rate request changes the rate and
trains again, and goes on to time synchronisation with presets selected for a 2.3 partner; training or CAP frames out of
time fail the lane, a rate above the lowest is stepped down first; a granted idle request idles the lane. That the presets
come with TRAIN_DONE is the model's choice (assumption log 50). -/
def LaneBringUpRule : Prop :=
  ∀ (s : State) (l : Nat), l < 48 →
    let ln := getLane s l
    ((ln.state ≤ 1 ∨ ln.state = 9) → ln.refused = false → pgEn s (pgFln l) = true →
      completes (.detect l true) s (fun t =>
        getLane t l = { ln with state := 2, rate := 0, want := 0, capSeen := false, lock := true } ∧
          sends s t [.lanePhy l (4 + rdf s (ra pgTrim (0x180 + 4 * l)) 1 0), .lanePhy l 0] ∧
          (∀ k, k ≠ l → getLane t k = getLane s k) ∧ onlyChanges [.links, .out] s t) ∧
      completes (.detect l false) s (fun t =>
        getLane t l = { ln with state := 1 } ∧ (∀ k, k ≠ l → getLane t k = getLane s k) ∧ onlyChanges [.links] s t)) ∧
    (∀ fom own peer,
      (ln.state = 2 →
        completes (.trainDone l ⟨fom, own, peer⟩) s (fun t =>
          getLane t l = { ln with fom := fom, lock := true, state := 3 } ∧
            sends s t [.fln l (flnFrame 7 0 (claimWord s) (capBody s))] ∧
            (∀ k, k ≠ l → getLane t k = getLane s k) ∧ onlyChanges [.counters, .links, .out] s t)) ∧
      (ln.state = 4 → ln.rate = ln.want → (rdf s (ra pgFlng 0x70) 7 0 ≤ fom ∨ ln.rate = 0) →
        completes (.trainDone l ⟨fom, own, peer⟩) s (fun t =>
          (getLane t l).state = 5 ∧ (getLane t l).exchanges = 0 ∧ (getLane t l).rate = ln.rate ∧
            (presetPartner s l = true → (getLane t l).preset = own % 4 ∧ .lanePhy l (4 + own % 4) ∈ t.out) ∧
            (presetPartner s l = true → mayBegin s = true →
              .fln l (flnFrame 2 0 (claimWord s) (leBytes 1 0x0A ++ leBytes 1 (peer % 4))) ∈ t.out) ∧
            (presetPartner s l = false → sends s t []) ∧
            (∀ k, k ≠ l → getLane t k = getLane s k) ∧ onlyChanges [.counters, .links, .out] s t)) ∧
      (ln.state = 4 → ln.rate = ln.want → fom < rdf s (ra pgFlng 0x70) 7 0 → ln.rate ≠ 0 →
        completes (.trainDone l ⟨fom, own, peer⟩) s (fun t =>
          (getLane t l).state = 4 ∧ (getLane t l).rate = rateBelow s l ln.want ∧
            (getLane t l).want = rateBelow s l ln.want ∧ counted s t (pgFln l) 8 ∧
            (∀ k, k ≠ l → getLane t k = getLane s k)))) ∧
    ((ln.state = 2 ∨ ln.state = 4 ∧ ln.rate = ln.want ∧ ln.rate = 0) →
      completes (.trainTimeout l) s (fun t =>
        getLane t l = { ln with state := 9 } ∧ (∀ k, k ≠ l → getLane t k = getLane s k) ∧
          counted s t (pgFln l) 8 ∧ onlyChanges [.counters, .links] s t)) ∧
    (ln.state = 4 → ln.rate = ln.want → ln.rate ≠ 0 →
      completes (.trainTimeout l) s (fun t =>
        getLane t l = { ln with rate := rateBelow s l ln.want, want := rateBelow s l ln.want } ∧
          (∀ k, k ≠ l → getLane t k = getLane s k) ∧
          counted s t (pgFln l) 8 ∧ onlyChanges [.counters, .links] s t)) ∧
    (∀ f, ln.state = 3 → ln.lock = true → frameOk f 7 = true →
      (versionRefused (bytesAt (fBody f) 2 1) (bytesAt (fBody f) 1 1) = true →
        completes (.cap l f) s (fun t =>
          (getLane t l).state = 9 ∧ (getLane t l).refused = true ∧ (evPend t (pgFln l)).testBit 13 = true ∧
            recorded s t 0x0703 1)) ∧
      (versionRefused (bytesAt (fBody f) 2 1) (bytesAt (fBody f) 1 1) = false →
        completes (.cap l f) s (fun t =>
          (getLane t l).kind = bytesAt (fBody f) 0 1 ∧ (getLane t l).serial = bytesAt (fBody f) 4 8 ∧
            (getLane t l).verMajor = bytesAt (fBody f) 2 1 ∧ (getLane t l).verMinor = bytesAt (fBody f) 1 1 ∧
            ((getLane t l).state = 4 ∧ (getLane t l).want = rateBelow t l 4 ∧ (getLane t l).want ≠ 0 ∨
              (getLane t l).state = 5 ∧ rateBelow t l 4 = 0) ∧
            (∀ k, k ≠ l → getLane t k = getLane s k) ∧ onlyChanges [.counters, .links, .out] s t))) ∧
    (ln.state = 3 →
      completes (.capTimeout l) s (fun t =>
        getLane t l = { ln with state := 9 } ∧ (∀ k, k ≠ l → getLane t k = getLane s k) ∧ onlyChanges [.links] s t) ∧
      completes (.bringUpResend l) s (fun t =>
        sends s t [.fln l (flnFrame 7 0 (claimWord s) (capBody s))] ∧ counted s t (pgFln l) 0 ∧
          onlyChanges [.counters, .out] s t)) ∧
    (ln.state = 4 → ln.rate ≠ ln.want →
      completes (.capTimeout l) s (fun t =>
        counted s t (pgFln l) 8 ∧
          ((getLane t l).state = 4 ∧ (getLane t l).want = rateBelow s l ln.want ∧ rateBelow s l ln.want ≠ 0 ∨
            (getLane t l).state = 5 ∧ rateBelow s l ln.want = 0) ∧ (∀ k, k ≠ l → getLane t k = getLane s k)) ∧
      (mayBegin s = true →
        completes (.bringUpResend l) s (fun t =>
          sends s t [.fln l (flnFrame 2 0 (claimWord s) (rateRequest ln.want))] ∧ counted s t (pgFln l) 0 ∧
            onlyChanges [.counters, .out] s t))) ∧
    (∀ f, ln.lock = true → frameOk f 2 = true → bytesAt (fBody f) 0 1 = 9 →
      (ln.state = 4 → bitOf (bytesAt (fBody f) 1 1) 3 = true → bytesAt (fBody f) 2 1 = ln.want → ln.rate ≠ ln.want →
        completes (.lane l f) s (fun t =>
          getLane t l = { ln with rate := ln.want, lock := false } ∧ sends s t [.lanePhy l 2] ∧
            counted s t (pgFln l) 1 ∧ (∀ k, k ≠ l → getLane t k = getLane s k) ∧
            onlyChanges [.counters, .links, .out] s t)) ∧
      (ln.state = 6 → bitOf (bytesAt (fBody f) 1 1) 1 = true → ln.eiAsked = true →
        completes (.lane l f) s (fun t =>
          getLane t l = { ln with state := 7, eiAsked := false } ∧ sends s t [.lanePhy l 3] ∧
            counted s t (pgFln l) 9 ∧ (∀ k, k ≠ l → getLane t k = getLane s k) ∧
            onlyChanges [.counters, .links, .out] s t)))

/-- Frames and time on a lane (R247 to R249, R251, R257, R258, R278): a frame with a wrong CRC, length, type or block is
discarded and counted; a heartbeat is counted; a lane in use that has sent nothing for a while sends its next IDLE; SYNC
carries the time of its sending and the next number, and its answer in time is one more exchange, whose delay is that of
R258, and makes the lane ACTIVE after eight; loss of block lock takes the receive direction down until it returns, and
its return to an idle lane starts the exchange that wakes it. -/
def LaneFramesRule : Prop :=
  (∀ (s : State) (l : Nat) (f : RxFrame), l < 48 → receiving s l = true →
    let ln := getLane s l
    (frameOk f 0xF = false →
      completes (.idle l f) s (fun t =>
        counted s t (pgFln l) 2 ∧ countersKept (pgFln l) 2 s t ∧ onlyChanges [.counters] s t)) ∧
    (frameOk f 0xF = true →
      completes (.idle l f) s (fun t =>
        counted s t (pgFln l) 1 ∧ countersKept (pgFln l) 1 s t ∧ onlyChanges [.counters] s t)) ∧
    (frameOk f 3 = false →
      completes (.timeResp l f) s (fun t =>
        counted s t (pgFln l) 2 ∧ countersKept (pgFln l) 2 s t ∧ onlyChanges [.counters] s t)) ∧
    (∀ t1, frameOk f 3 = true → ln.syncT1 = some t1 → bytesAt (fBody f) 0 1 = 2 →
      bytesAt (fBody f) 1 1 = ln.syncSeq → (fireNow s + 2 ^ 48 - t1) % 2 ^ 48 ≤ 100000 * 256 →
      let ds := (delayOf t1 (bytesAt (fBody f) 4 6) (bytesAt (fBody f) 0xA 6) (fireNow s) :: ln.delays).take 8
      (ds.length < 8 ∨ meanDelay s l ds ≤ 100000 * 256) →
      (ln.state ≠ 5 ∨ ln.wasActive = false ∧ ln.exchanges + 1 < 8 →
        completes (.timeResp l f) s (fun t =>
          (getLane t l).delays = ds ∧ (getLane t l).exchanges = ln.exchanges + 1 ∧
            (getLane t l).syncT1 = none ∧ (getLane t l).state = ln.state ∧
            (ds.length = 8 → (getLane t l).delay = meanDelay s l ds) ∧
            (∀ k, k ≠ l → getLane t k = getLane s k) ∧ onlyChanges [.counters, .links] s t)) ∧
      (ln.state = 5 → ln.wasActive = false → 7 ≤ ln.exchanges → ln.keepSerial = none →
        (planMatches s l = true →
          completes (.timeResp l f) s (fun t => (getLane t l).state = 6 ∧ (evPend t (pgFln l)).testBit 8 = true)) ∧
        (planMatches s l = false →
          completes (.timeResp l f) s (fun t => (getLane t l).state = 8 ∧ recorded s t 0x0702 1))) ∧
      (ln.state = 5 → ln.wasActive = true → planMatches s l = true →
        completes (.timeResp l f) s (fun t =>
          (getLane t l).state = 6 ∧ (getLane t l).wasActive = false ∧ (getLane t l).queued = [])))) ∧
  (∀ (s : State) (l : Nat), l < 48 →
    let ln := getLane s l
    (3 ≤ ln.state → ln.state ≠ 7 → ln.state < 9 →
      completes (.idleSend l) s (fun t =>
        (getLane t l).idleCnt = ln.idleCnt + 1 ∧ (getLane t l).state = ln.state ∧
          sends s t [.fln l (flnFrame 0xF 0 (claimWord s) (leBytes 4 (ln.idleCnt + 1)))] ∧
          (∀ k, k ≠ l → getLane t k = getLane s k) ∧ onlyChanges [.counters, .links, .out] s t)) ∧
    (ln.state = 5 ∨ ln.state = 6 ∨ ln.state = 8 →
      completes (.syncSend l) s (fun t =>
        (getLane t l).syncSeq = (ln.syncSeq + 1) % 256 ∧ (getLane t l).syncT1 = some (fireNow s) ∧
          (∃ frame, t.out = s.out ++ [.fln l frame] ∧ bytesAt frame 0 1 = 3 ∧ bytesAt frame 8 1 = 1 ∧
            bytesAt frame 9 1 = (ln.syncSeq + 1) % 256 ∧ bytesAt frame 0xC 6 = fireNow s % 2 ^ 48) ∧
          (∀ k, k ≠ l → getLane t k = getLane s k) ∧ onlyChanges [.counters, .links, .out] s t)) ∧
    (completes (.blockLockLost l) s (fun t =>
      getLane t l = { ln with lock := false } ∧ (∀ k, k ≠ l → getLane t k = getLane s k) ∧
        onlyChanges [.clk, .links] s t)) ∧
    (ln.state ≠ 7 →
      completes (.blockLockGained l) s (fun t =>
        getLane t l = { ln with lock := true } ∧ (∀ k, k ≠ l → getLane t k = getLane s k) ∧
          onlyChanges [.links] s t)) ∧
    (ln.state = 7 →
      completes (.blockLockGained l) s (fun t =>
        (getLane t l).state = 5 ∧ (getLane t l).lock = true ∧ (getLane t l).syncT1 = some (fireNow s) ∧
          (∀ k, k ≠ l → getLane t k = getLane s k) ∧ onlyChanges [.counters, .links, .out] s t)))

/-- Lanes from detection to ACTIVE, and their frames in time (R247 to R249, R251 to R253, R257, R258, R276 to R278). -/
def Obligations.Lanes : Prop := LaneBringUpRule ∧ LaneFramesRule

/-- What a lane reports (R235, R257, R264 to R269, R273, R276): LINK_TIMEOUT takes a lane that is up down and records
LINK_DOWN, class B; a STAT of an accepting partner is taken, with the temperatures of an HCB and the levels of an IO node;
a NACK counts each entry, and replays a row-line that is still in the history in time; an episode of lost lines ends with
its second record; a figure of merit below the minimum records LINK_DEGRADED, class B, once, until it is well above; a
waveform not held is sent again up to three times. -/
def LaneReportsRule : Prop :=
  ∀ (s : State) (l : Nat), l < 48 →
    let ln := getLane s l
    (ln.state = 5 ∨ ln.state = 6 ∨ ln.state = 8 →
      completes (.linkTimeout l) s (fun t =>
        (getLane t l).state = 1 ∧ (getLane t l).delays = [] ∧ (getLane t l).amps = [] ∧
          (evPend t (pgFln l)).testBit 9 = true ∧ recorded s t 0x0701 1)) ∧
    (∀ f, receiving s l = true → frameOk f 4 = true → bitOf (bytesAt (fBody f) 1 1) 0 = true →
        bytesAt (fBody f) 8 4 = ln.blankCnt → ln.blankCnt < 2 ^ 32 → ln.eiReturn = false →
      (ln.kind ≠ 1 →
        completes (.stat l f) s (fun t =>
          (getLane t l).accepted = true ∧ (getLane t l).waveHeld = bytesAt (fBody f) 0x14 4 ∧
            (getLane t l).pfom = (if presetPartner s l then bytesAt (fBody f) 2 1 else 0) ∧
            (ln.kind = 2 → (getLane t l).ioIn = bytesAt (fBody f) 0x1C 4) ∧
            (∀ k, k ≠ l → getLane t k = getLane s k) ∧ onlyChanges [.counters, .links] s t)) ∧
      (ln.kind = 1 → bytesAt (fBody f) 3 1 = 1 → bytesAt (fBody f) 0x1C 2 ≠ 0x8000 →
        completes (.stat l f) s (fun t =>
          (getLane t l).accepted = true ∧ (getLane t l).waveHeld = bytesAt (fBody f) 0x14 4 ∧
            tget (fun _ => (0 : Int)) (getLane t l).temps 0 = signed 16 (bytesAt (fBody f) 0x1C 2) ∧
            0 ∉ (getLane t l).tempLost ∧ counted s t pgWave 2 ∧ (∀ k, k ≠ l → getLane t k = getLane s k) ∧
            onlyChanges [.counters, .links, .out] s t))) ∧
    (∀ f, receiving s l = true → frameOk f 5 = true → bytesAt (fBody f) 0 1 = 1 →
      completes (.nack l f) s (fun t =>
        counted s t (pgFln l) 3 ∧
          (ln.history.all (fun y => !(y.slot == bytesAt (fBody f) 4 1 / 8 && y.row == bytesAt (fBody f) 4 1 % 8 &&
              y.rline == bytesAt (fBody f) 6 2)) = true →
            counted s t (pgFln l) 5 ∧ t.out = s.out ∧ onlyChanges [.counters] s t) ∧
          (∀ y ∈ ln.history, ln.history = [y] → y.slot = bytesAt (fBody f) 4 1 / 8 → y.row = bytesAt (fBody f) 4 1 % 8 →
              y.rline = bytesAt (fBody f) 6 2 → ln.state = 6 → mayBegin s = true → claimWord s / 256 ≠ 0 →
              0 ≤ signed 48 ((((y.fire : Int) + y.minGofs * 64 - (rdf s (ra pgFlng 0x4C) 11 0 * 10 * 256 : Nat) -
                fireNow s) % (2 ^ 48 : Nat)).toNat) →
            counted s t (pgFln l) 4 ∧ sends s t [.fln l (flnFrame 1 (y.flags + 4) (claimWord s) y.body)]))) ∧
    (∀ e bar, ln.lost = some e → 1024 ≤ e.quiet → ln.lostBar = bar ∨ ln.lostBar = noBar →
      completes (.lineLostEpisodeEnd l bar) s (fun t => (getLane t l).lost = none ∧ recorded s t 0x0705 1)) ∧
    (∀ fom, fom < rdf s (ra pgFlng 0x70) 7 0 → ln.degraded = false → ln.state = 6 →
      completes (.fomReport l fom) s (fun t =>
        (getLane t l).fom = fom ∧ (getLane t l).degraded = true ∧ (evPend t (pgFln l)).testBit 11 = true ∧
          recorded s t 0x0704 1 ∧ (lanePrinting s l = false → (getLane t l).state = 2))) ∧
    (∀ fom, rdf s (ra pgFlng 0x70) 7 0 ≤ fom →
      completes (.fomReport l fom) s (fun t =>
        getLane t l =
            { ln with fom := fom, degraded := if rdf s (ra pgFlng 0x70) 7 0 + 16 < fom then false else ln.degraded } ∧
          (∀ k, k ≠ l → getLane t k = getLane s k) ∧ onlyChanges [.links] s t)) ∧
    (∀ w n, ln.waveSent = [(w, n)] → bitOf ln.waveHeld w = false → ln.state = 6 →
      (n < 3 → mayBegin s = true →
        completes (.waveResend l w) s (fun t =>
          (getLane t l).waveSent = [(w, n + 1)] ∧
            sends s t [.fln l (flnFrame 6 0 (claimWord s) (waveBody s w))] ∧ counted s t pgWave 0 ∧
            (∀ k, k ≠ l → getLane t k = getLane s k) ∧ onlyChanges [.counters, .links, .out] s t)) ∧
      (3 ≤ n → completes (.waveResend l w) s (fun t => (getLane t l).state = 1 ∧ recorded s t 0x0701 1)))

/-- What the unit asks of a lane (R14, R255, R274, R277, R278, R513): the plan of a lane that prints is refused, and stored
otherwise, where a lane in use that it no longer matches is in MISMATCH, with its record, class B, and one in MISMATCH that
it now matches is ACTIVE; a lane no bar needs is asked to idle, and a burst wakes an idle one; the output levels of an
active IO node go to it with the mask of what changed, at once or at their time; the safe levels are stored and sent. -/
def LaneOutputsRule : Prop :=
  ∀ (s : State) (rq : Requester) (l : Nat), l < 48 →
    let ln := getLane s l
    (∀ (hi : Bool) (v : Word), admitted s (ra (pgFln l) (if hi then 0x5C else 0x54)) v.toNat →
      (lanePrinting s l = true →
        completes (.planWrite rq l hi v) s (fun t =>
          raised s t (pgFln l) 4 ∧ wordsKept [ra (pgFln l) 0x24] s t ∧ onlyChanges eventParts s t)) ∧
      (lanePrinting s l = false →
        completes (.planWrite rq l hi v) s (fun t =>
          (hi = false → rdf t (ra (pgFln l) 0x54) 31 28 = field v.toNat 31 28 ∧
            rd64 t (ra (pgFln l) 0x58) = rd64 s (ra (pgFln l) 0x58)) ∧
          (hi = true → rd64 t (ra (pgFln l) 0x58) = heldLow s (ra (pgFln l) 0x58) + v.toNat * 2 ^ 32 ∧
            rd t (ra (pgFln l) 0x54) = rd s (ra (pgFln l) 0x54)) ∧
          (ln.state < 6 ∨ ln.state = 9 →
            wordsKept [ra (pgFln l) 0x54, ra (pgFln l) 0x58, ra (pgFln l) 0x5C] s t ∧ onlyChanges [.regs, .held] s t) ∧
          (ln.state = 6 ∨ ln.state = 7 → planMatches t l = true → onlyChanges [.regs, .held] s t) ∧
          (ln.state = 6 ∨ ln.state = 7 → planMatches t l = false → (getLane t l).state = 8 ∧ recorded s t 0x0702 1) ∧
          (ln.state = 8 → planMatches t l = true → (getLane t l).state = 6 ∧ (evPend t (pgFln l)).testBit 8 = true)))) ∧
    (rdb s (ra (pgFln l) 0x40) 8 = true → ln.state = 6 → ln.kind = 1 → (3 ≤ ln.verMajor ∨ ln.verMajor = 2 ∧ 1 ≤ ln.verMinor) →
        lanePrinting s l = false →
        mayBegin s = true →
      completes (.eiDelay l) s (fun t =>
        getLane t l = { ln with eiAsked := true } ∧
          sends s t [.fln l (flnFrame 2 0 (claimWord s) (leBytes 1 9 ++ leBytes 1 1 ++ leBytes 1 0))] ∧
          (∀ k, k ≠ l → getLane t k = getLane s k) ∧ onlyChanges [.counters, .links, .out] s t)) ∧
    (ln.state = 7 →
      completes (.eiWake l) s (fun t =>
        getLane t l = { ln with eiAsked := true, eiReturn := true } ∧ sends s t [.lanePhy l 1] ∧
          (∀ k, k ≠ l → getLane t k = getLane s k) ∧ onlyChanges [.links, .out] s t)) ∧
    (∀ v : Word, admitted s (ra (pgFln l) 0x94) v.toNat →
      let mask := rd s (ra (pgFln l) 0x94) ^^^ v.toNat
      (ioActive s l = false →
        completes (.ioOutWrite rq l v) s (fun t =>
          rd t (ra (pgFln l) 0x94) = v.toNat ∧ wordsKept [ra (pgFln l) 0x94] s t ∧ onlyChanges [.regs] s t)) ∧
      (ioActive s l = true → ln.state = 6 → mayBegin s = true →
        (rd64 s (ra (pgFln l) 0x98) = 0 →
          completes (.ioOutWrite rq l v) s (fun t =>
            rd t (ra (pgFln l) 0x94) = v.toNat ∧ getLane t l = { ln with ioLevel := masked ln.ioLevel v.toNat mask } ∧
              sends s t [.fln l (flnFrame 2 0 (claimWord s) (ioOutBody s 0 v.toNat mask))] ∧
              wordsKept [ra (pgFln l) 0x94] s t)) ∧
        (rd64 s (ra (pgFln l) 0x98) ≠ 0 →
          completes (.ioOutWrite rq l v) s (fun t =>
            rd t (ra (pgFln l) 0x94) = v.toNat ∧ rd64 t (ra (pgFln l) 0x98) = 0 ∧
              getLane t l = { ln with ioTimed := ln.ioTimed ++ [(rd64 s (ra (pgFln l) 0x98), v.toNat, mask)] } ∧
              (timedIo s l = true →
                sends s t [.fln l (flnFrame 2 0 (claimWord s) (ioOutBody s (rd64 s (ra (pgFln l) 0x98)) v.toNat mask))]) ∧
              (timedIo s l = false → t.out = s.out))))) ∧
    (∀ x ∈ ln.ioTimed, firstTimed (fireNow s) ln.ioTimed = some x →
      completes (.applyTReached l) s (fun t =>
        getLane t l = { ln with ioTimed := ln.ioTimed.erase x, ioLevel := masked ln.ioLevel x.2.1 x.2.2 } ∧
          (∀ k, k ≠ l → getLane t k = getLane s k) ∧ (timedIo s l = true → t.out = s.out) ∧
          (timedIo s l = false → ln.state = 6 → mayBegin s = true →
            sends s t [.fln l (flnFrame 2 0 (claimWord s) (ioOutBody s 0 x.2.1 x.2.2))]))) ∧
    (∀ (mask : Bool) (v : Word), admitted s (ra (pgFln l) (if mask then 0xA4 else 0xA0)) v.toNat →
      completes (.ioSafeWrite rq l mask v) s (fun t =>
        rd t (ra (pgFln l) (if mask then 0xA4 else 0xA0)) = v.toNat ∧
          wordsKept [ra (pgFln l) (if mask then 0xA4 else 0xA0)] s t ∧
          (ioActive s l = false → sends s t []) ∧
          (ioActive s l = true → ln.state = 6 → mayBegin s = true →
            sends s t [.fln l (flnFrame 2 0 (claimWord s) (ioSafeBody t l))]))) ∧
    completes .ioOutResend s (fun t =>
      (∀ k ∈ ioLanes s, (getLane s k).state = 6 → mayBegin s = true →
        .fln k (flnFrame 2 0 (claimWord s) (ioOutBody s 0 (getLane s k).ioLevel 0xFFFFFFFF)) ∈ t.out) ∧
        wordsKept [] s t ∧ onlyChanges [.counters, .links, .out] s t)

/-- What a lane reports, and what the unit asks of it (R14, R235, R255, R257, R264 to R269, R273, R274, R276 to R278, R513). -/
def Obligations.LaneService : Prop := LaneReportsRule ∧ LaneOutputsRule

/-! ### Cameras, pipeline and loop (10) -/

/-- Camera packets (R279 to R285): on a disabled port nothing happens; a frame start takes the FREE slot, or the lower of two, and
the oldest waiting strobe, drops the frame when both are taken, and is skipped when no context names its port and channel; a packet with a bad header is counted and makes its frame ERR;
a line of the right length is one more line of the frame, and one with a bad checksum makes it ERR; a frame end makes the slot READY with the flags of R285; a strobe that no frame start follows in time is
dropped with CAMERA_LOST, class B. -/
def CameraFramesRule : Prop :=
  (∀ (s : State) (p vc dt wc n : Nat) (ecc : EccStatus) (ok : Bool) (bs : List Byte), p < 4 → pgEn s (pgCam p) = false →
    exec (.csiPacket p vc dt wc ecc ok bs) s = .next s ∧ exec (.frameStart p vc n) s = .next s ∧
      exec (.frameEnd p vc) s = .next s) ∧
  (∀ (s : State) (p vc n : Nat), p < 4 → vc < 4 → pgEn s (pgCam p) = true →
    (∀ x i, ctxFor s p vc = some x → (getCtx s x).current = none →
        (i = 0 ∧ (getCtx s x).slot0 = 0 ∨ i = 1 ∧ (getCtx s x).slot0 ≠ 0 ∧ (getCtx s x).slot1 = 0) →
      completes (.frameStart p vc n) s (fun t =>
        (getCtx t x).current = some { slot := i, number := n % 65536, lines := 0, short := false, long := false, err := false,
                                      strobe := (getCtx s x).strobes.head? } ∧
          (getCtx t x).strobes = (getCtx s x).strobes.drop 1 ∧ slotOf (getCtx t x) i = 1 ∧ counted s t (pgCam p) 5 ∧
          (∀ y, y ≠ x → getCtx t y = getCtx s y) ∧ onlyChanges [.regs, .counters, .cams] s t)) ∧
    (∀ x, ctxFor s p vc = some x → (getCtx s x).current = none → (getCtx s x).slot0 ≠ 0 → (getCtx s x).slot1 ≠ 0 →
      completes (.frameStart p vc n) s (fun t =>
        (getCtx t x).current = none ∧ (p, vc) ∈ t.cams.skipping ∧ (evPend t pgIsp).testBit 9 = true)) ∧
    (ctxFor s p vc = none →
      completes (.frameStart p vc n) s (fun t =>
        t.cams.ctxs = s.cams.ctxs ∧ (p, vc) ∈ t.cams.skipping ∧ (evPend t (pgCam p)).testBit 10 = true))) ∧
  (∀ (s : State) (p vc dt wc x : Nat) (ok : Bool) (bs : List Byte) (f : Frame), p < 4 → vc < 4 → pgEn s (pgCam p) = true →
    ctxFor s p vc = some x → (getCtx s x).current = some f →
    completes (.csiPacket p vc dt wc .bad ok bs) s (fun t =>
      (getCtx t x).current = some { f with err := true } ∧ counted s t (pgCam p) 2 ∧ (evPend t (pgCam p)).testBit 8 = true ∧
        (∀ y, y ≠ x → getCtx t y = getCtx s y)) ∧
    (0x2B ≤ dt → dt ≤ 0x2D → s.cams.skipping.contains (p, vc) = false → 8 * wc = ctxWidth s x * rawBits s x →
      f.lines < ctxHeight s x →
      completes (.csiPacket p vc dt wc .ok true bs) s (fun t =>
        (getCtx t x).current = some { f with lines := f.lines + 1 } ∧ counted s t (pgCam p) 0 ∧
          (∀ y, y ≠ x → getCtx t y = getCtx s y) ∧ onlyChanges [.counters, .dram, .cams] s t)) ∧
    (0x2B ≤ dt → dt ≤ 0x2D →
      completes (.csiPacket p vc dt wc .ok false bs) s (fun t =>
        (getCtx t x).current = some { f with err := true, lines := f.lines + 1,
                                             long := f.long || decide (ctxHeight s x ≤ f.lines) } ∧
          counted s t (pgCam p) 3 ∧ (evPend t (pgCam p)).testBit 9 = true ∧ t.dram = s.dram ∧
          (∀ y, y ≠ x → getCtx t y = getCtx s y))) ∧
    completes (.frameEnd p vc) s (fun t =>
      let f' := { f with short := decide (f.lines < ctxHeight s x) }
      (getCtx t x).current = none ∧ (getCtx t x).ready = (getCtx s x).ready ++ [f'] ∧ slotOf (getCtx t x) f.slot = 2 ∧
        rdf t (ctxA x 0x30) 10 8 = b2n f'.short + 2 * b2n f'.long + 4 * b2n f'.err ∧
        (f'.short || f'.long || f'.err → (evPend t pgIsp).testBit 10 = true ∧ counted s t pgIsp (4 * x + 2)) ∧
        (∀ y, y ≠ x → getCtx t y = getCtx s y))) ∧
  (∀ (s : State) (x : Nat), x < 8 → ctxOn s x = true → (getCtx s x).strobes ≠ [] →
    completes (.strobeTimeout x) s (fun t =>
      (getCtx t x).strobes = (getCtx s x).strobes.drop 1 ∧ recorded s t 0x0801 1 ∧ (evPend t pgIsp).testBit 11 = true ∧
        (∀ y, y ≠ x → getCtx t y = getCtx s y)))

/-- The camera pipeline and its contexts (R282, R283, R286, R287, R292): an idle pipeline takes the READY frame of the context of highest priority, of
equal ones the lowest number, among those that throttling lets begin, and there the older frame; a finished frame frees its slot; TAP_REL releases exactly the tap
slots written 1; SRC with EN set enables the context when its checks pass, with the compare unit claimed where it strobes, and is refused with the
reason in CHECK_ERR otherwise; clearing EN drops what the context held. -/
def PipelineRule : Prop :=
  (∀ (s : State) (x : Nat), nextCtx s = some x →
    x < 8 ∧ (getCtx s x).ready ≠ [] ∧ mayBeginFrame s x = true ∧
      ∀ y, y < 8 → (getCtx s y).ready ≠ [] → mayBeginFrame s y = true → ctxPrio s x < ctxPrio s y ∨ ctxPrio s x = ctxPrio s y ∧ x ≤ y) ∧
  (∀ (s : State) (x : Nat) (f : Frame) (r : List Frame), s.cams.busy = none → nextCtx s = some x →
    (getCtx s x).ready = f :: r → pgEn s pgIsp = true →
    completes .pipelineStart s (fun t =>
      t.cams.busy = some (x, f) ∧ (getCtx t x).ready = r ∧ slotOf (getCtx t x) f.slot = 3 ∧ rd t (ra pgIsp 0x4C) = 8 + x ∧
        (∀ y, y ≠ x → getCtx t y = getCtx s y) ∧ onlyChanges [.regs, .cams] s t)) ∧
  (∀ (s : State) (x : Nat) (f : Frame), x < 8 → s.cams.busy = some (x, f) →
    completes .pipelineDone s (fun t =>
      t.cams.busy = none ∧ slotOf (getCtx t x) f.slot = 0 ∧ rd t (ra pgIsp 0x4C) = 0 ∧
        (evPend t pgIsp).testBit 8 = true)) ∧
  (∀ (s : State) (rq : Requester) (x : Nat) (v : Word), x < 8 → admitted s (ctxA x 0x34) v.toNat →
    let kept := (getCtx s x).taps &&& (0x3FF ^^^ (v.toNat &&& 0x3FF))
    completes (.tapRel rq x v) s (fun t =>
      (getCtx t x).taps = kept ∧ rd t (ctxA x 0x38) = kept ∧ wordsKept [ctxA x 0x38] s t ∧
        (∀ y, y ≠ x → getCtx t y = getCtx s y) ∧ onlyChanges [.regs, .cams] s t)) ∧
  (∀ (s : State) (rq : Requester) (x : Nat) (v : Word), x < 8 → admitted s (ctxA x 0) v.toNat →
    let w := v.toNat &&& 0xDF7333DF
    let u := wr s (ctxA x 0) (w % 2 ^ 31)
    let own := ownCmp (field w 28 24)
    (ctxOn s x = false → bitOf w 31 = false →
      completes (.contextEnable rq x v) s (fun t =>
        rd t (ctxA x 0) = w ∧ wordsKept [ctxA x 0] s t ∧ onlyChanges [.regs] s t)) ∧
    (ctxOn s x = false → bitOf w 31 = true → ctxCheck u x = 0 → bitOf w 30 = false →
      completes (.contextEnable rq x v) s (fun t =>
        rd t (ctxA x 0) = w ∧ wordsKept [ctxA x 0] s t ∧ onlyChanges [.regs] s t)) ∧
    (ctxOn s x = false → bitOf w 31 = true → ctxCheck u x = 0 → bitOf w 30 = true → claimable s own 2 = true →
      completes (.contextEnable rq x v) s (fun t =>
        rd t (ctxA x 0) = w ∧ rdf t own 3 0 = 2 ∧ bitOf (rd t own) 31 = true ∧ wordsKept [ctxA x 0, own] s t ∧
          onlyChanges [.regs] s t)) ∧
    (ctxOn s x = false → bitOf w 31 = true → ctxCheck u x ≠ 0 →
      completes (.contextEnable rq x v) s (fun t =>
        ctxOn t x = false ∧ rd t (ra pgIsp 0x48) = ctxCheck u x ∧ raised s t pgIsp 4 ∧
          wordsKept [ctxA x 0, ra pgIsp 0x48, ra pgIsp 0x24] s t ∧ onlyChanges eventParts s t)) ∧
    (ctxOn s x = true → bitOf w 31 = false → w % 2 ^ 31 = ctxSrc s x % 2 ^ 31 →
      completes (.contextEnable rq x v) s (fun t =>
        ctxOn t x = false ∧ (getCtx t x).current = none ∧ (getCtx t x).strobes = [] ∧ (getCtx t x).ready = [] ∧
          (∀ y, y ≠ x → getCtx t y = getCtx s y) ∧ onlyChanges [.regs, .cams] s t)) ∧
    (ctxOn s x = true → bitOf w 31 = true → w % 2 ^ 31 ≠ ctxSrc s x % 2 ^ 31 →
      completes (.contextEnable rq x v) s (fun t =>
        raised s t pgIsp 4 ∧ wordsKept [ra pgIsp 0x24] s t ∧ onlyChanges eventParts s t)))

/-- Camera frames and contexts, and the pipeline that takes them (R279 to R286, R292). -/
def Obligations.CamerasAndPipeline : Prop := CameraFramesRule ∧ PipelineRule

/-- The density loop (R300, R302 to R304, R307, R315): a window that closes is measured no more; HOLD keeps every trim and commit as it is; the change of a trim is at most STEP, in the
direction of the error, and the trim stays within its limits; a measured bar that prints without data is recorded once, class B; PG_CTRL.EN and LADDER_CFG.EN are
refused with their reason; a ladder's classification clears what was read and raises LADDER_DONE, and NOZZLE_CHANGE when a state changes. -/
def Obligations.Loop : Prop :=
  (∀ (s : State) (n : Nat) (r : List Nat), s.cams.windows = n :: r →
    let w := if loopPeriod s = 0 then 0 else n / loopPeriod s
    let rs := windowResults s w
    ((rs = [] ∨ pgEn s pgLoop = false) →
      completes .loopUpdate s (fun t => t.cams.windows = r ∧ wordsKept [loopA 0x70] s t ∧ onlyChanges [.regs, .cams] s t)) ∧
    (rs ≠ [] → pgEn s pgLoop = true → s.pair.role = 0 →
      exec .loopUpdate s = .next ((loopParts rs).foldl (fun u part => applyLoop u n (loopLineAhead s) part)
        (closeWindow (if ownMeasures s w then keepOwn s n else s) w)) ∧
      (loopHold s = true →
        completes .loopUpdate s (fun t =>
          t.committed = s.committed ∧ wordsKept [loopA 0x70, loopA 0x24] s t ∧ t.cams.windows = r)))) ∧
  (∀ (s : State) (n : Nat) (r : BandResult) (d : Int), bandDelta s n r = some d →
    d.natAbs ≤ rdf s (loopA 0x54) 22 16 ∧ (r.dm ≤ r.de → 0 ≤ d) ∧ (r.de ≤ r.dm → d ≤ 0) ∧
      (tMin s ≤ tMax s → tMin s ≤ nextTrim s r d ∧ nextTrim s r d ≤ tMax s)) ∧
  (∀ (s : State) (b : Nat), b < 8 → pgEn s pgLoop = true → b ∈ loopPrimaries s →
    (b ∈ s.cams.noData → exec (.loopNoData b) s = .next s) ∧
    (b ∉ s.cams.noData → (getBar s b).loopData + 1024 * rdf s (loopA 0x60) 15 0 ≤ linesBuilt s b →
      completes (.loopNoData b) s (fun t =>
        t.cams.noData = s.cams.noData ++ [b] ∧ recorded s t 0x0803 1 ∧ (evPend t pgLoop).testBit 11 = true))) ∧
  (∀ (s : State) (rq : Requester) (v : Word), pgEn s pgLoop = false → v.getLsbD 0 = true → loopCheck s ≠ 0 →
    completes (.loopEnable rq v) s (fun t =>
      pgEn t pgLoop = false ∧ rd t (loopA 0x74) = loopCheck s ∧ raised s t pgLoop 4)) ∧
  (∀ (s : State) (rq : Requester) (v : Word), pgEn s pgLoop = false → v.getLsbD 0 = true → loopCheck s = 0 →
    completes (.loopEnable rq v) s (fun t => pgEn t pgLoop = true)) ∧
  (∀ (s : State) (rq : Requester) (v : Word), v.getLsbD 0 = false →
    completes (.loopEnable rq v) s (fun t => pgEn t pgLoop = false ∧ t.committed = s.committed)) ∧
  (∀ (s : State) (rq : Requester) (v : Word), admitted s (loopA 0x80) v.toNat → bitOf (ladderCfg s) 31 = false →
    let w := v.toNat &&& 0xCFFFFFF0
    let u := wr s (loopA 0x80) (w % 2 ^ 31)
    (bitOf w 31 = false ∨ ladderCheck u = 0 →
      completes (.ladderEnable rq v) s (fun t =>
        rd t (loopA 0x80) = w ∧ wordsKept [loopA 0x80] s t ∧ onlyChanges [.regs] s t)) ∧
    (bitOf w 31 = true → ladderCheck u ≠ 0 →
      completes (.ladderEnable rq v) s (fun t =>
        bitOf (ladderCfg t) 31 = false ∧ rd t (loopA 0x74) = ladderCheck u ∧ raised s t pgLoop 4 ∧
          wordsKept [loopA 0x80, loopA 0x74, loopA 0x24] s t ∧ onlyChanges eventParts s t))) ∧
  (∀ s : State, s.cams.ladderLine.isSome = true → s.cams.ladderRead ≠ [] → s.pair.role = 0 →
    let cs := (s.cams.ladderRead.foldl (classifyStep s) (s.cams.ladderCount, [])).2
    completes .ladderClassify s (fun t =>
      t.cams.ladderRead = [] ∧ t.cams.ladderLine = none ∧ (evPend t pgLoop).testBit 12 = true ∧
        (cs ≠ [] → (evPend t pgLoop).testBit 13 = true ∧ s.sys.seq < t.sys.seq)))

/-! ### Press time (11) -/

/-- Setting and stepping press time (R318, R322, R323, R327): INCR takes effect with its high word when it lies in its range, SRC is
FREE and the state is not PAIR, and is refused otherwise; STEP loads the set time with FRAC 0 and ADJ adds ADJ_NS, each
taking every ACTIVE and EIDLE lane through bring-up, and both are refused while a bar prints; STEP_DONE comes when every lane that was ACTIVE is so again; ACCEPT_STEP with JUMP 0
has no effect, with JUMP 1 it adopts the present best master. -/
def Obligations.PressTimeSteps : Prop :=
  (∀ (s : State) (rq : Requester) (hi : Word), admitted s (ptcA 0x54) hi.toNat →
    let v := heldLow s (ptcA 0x50) + 2 ^ 32 * (hi.toNat % 256)
    (srcPtp s = false → s.clk.state ≠ 6 → 0x3FF7CED92 ≤ v → v ≤ 0x40083126E →
      completes (.incrWrite rq hi) s (fun t =>
        t.clk = { s.clk with incr := v } ∧ rd64 t (ptcA 0x50) = v ∧ wordsKept [ptcA 0x50, ptcA 0x54] s t ∧
          onlyChanges [.regs, .held, .clk] s t)) ∧
    (srcPtp s = true ∨ s.clk.state = 6 ∨ v < 0x3FF7CED92 ∨ 0x40083126E < v →
      completes (.incrWrite rq hi) s (fun t =>
        t.clk = s.clk ∧ raised s t pgPtc 4 ∧ wordsKept [ptcA 0x24] s t))) ∧
  (∀ (s : State) (rq : Requester) (adj : Bool), admitted s (ptcA 0x48) (if adj then 2 else 1) →
    let c : Instr := if adj then .adj rq else .ptcStep rq
    let total : Int := if adj then (s.clk.sec * 1000000000 + s.clk.ns : Nat) + signed 32 (rd s (ptcA 0x74))
      else ((rd64 s (ptcA 0x6C) % 2 ^ 48 * 1000000000 + rdf s (ptcA 0x68) 29 0 : Nat) : Int)
    (anyPrinting s = true →
      completes c s (fun t =>
        t.clk = s.clk ∧ t.links = s.links ∧ raised s t pgPtc 4 ∧ counted s t pgPtc 8 ∧ wordsKept [ptcA 0x24] s t ∧
          onlyChanges eventParts s t)) ∧
    (anyPrinting s = false →
      completes c s (fun t =>
        ((t.clk.sec * 1000000000 + t.clk.ns : Nat) : Int) = total % (2 ^ 48 * 1000000000) ∧ t.clk.ns < 1000000000 ∧
          t.clk.frac = (if adj then s.clk.frac else 0) ∧ t.clk.incr = s.clk.incr ∧ t.clk.stepBusy = true ∧
          (∀ l, l ∈ t.clk.stepLanes ↔ l < 48 ∧ (getLane s l).state = 6) ∧
          (∀ l, l < 48 → ((getLane s l).state = 6 ∨ (getLane s l).state = 7) →
            (getLane t l).state = 2 ∧ (getLane t l).rate = 0) ∧
          (∀ l, (getLane s l).state ≠ 6 → (getLane s l).state ≠ 7 → getLane t l = getLane s l) ∧
          onlyChanges [.clk, .links, .out] s t))) ∧
  (∀ s : State,
    (s.clk.stepBusy = false ∨ (∃ l ∈ s.clk.stepLanes, (getLane s l).state ≠ 6) → exec .stepDone s = .next s) ∧
    (s.clk.stepBusy = true → (∀ l ∈ s.clk.stepLanes, (getLane s l).state = 6) →
      let u := ev (setClk s { s.clk with stepBusy := false, stepLanes := [] }) pgPtc 11
      exec .stepDone s = .next (releaseStarts u) ∧
        ((∀ j ∈ s.print.jobs, j.held = false) →
          completes .stepDone s (fun t =>
            t.clk = { s.clk with stepBusy := false, stepLanes := [] } ∧ raised s t pgPtc 11)))) ∧
  (∀ (s : State) (rq : Requester), admitted s (ptcA 0x48) 4 →
    (s.clk.jump = false → exec (.acceptStep rq) s = .next s) ∧
    (∀ p d, s.clk.jump = true → s.clk.best = some (p, d) →
      completes (.acceptStep rq) s (fun t =>
        t.clk = { s.clk with jump := false, state := 2, adopted := some d.grandmaster, suspended := anyPrinting s,
                             first := !anyPrinting s, goodRun := 0, badRun := 0 } ∧ onlyChanges [.clk] s t)))

/-- Measuring against the master and acting on it (R324 to R328, R330, R333): a Sync of the master, or its Follow_Up in time, gives the offset
t2 - t1 - mean path delay, a Delay_Resp with the right number the mean path delay; the servo never applies an offset beyond
JUMP_THRESHOLD when locked: HOLDOVER, JUMP and MASTER_JUMP of class B, with INCR and the counter kept; in ACQUIRE the first measurement
steps the counter to the master when no bar prints; in HOLDOVER only a measurement within the threshold of the adopted grandmaster is applied; a master that falls silent is
lost with PTP_LOST, class B. -/
def PtpMeasurementRule : Prop :=
  (∀ (s : State) (m : PtpMsg), fromMaster s m = false →
    exec (.ptpSync m) s = .next s ∧ exec (.followUp m) s = .next s ∧ exec (.delayResp m) s = .next s) ∧
  (∀ (s : State) (m : PtpMsg), fromMaster s m = true →
    (m.twoStep = true →
      completes (.ptpSync m) s (fun t =>
        t.clk = { s.clk with heldSync := some m } ∧ counted s t pgPtc 0 ∧ onlyChanges [.counters, .clk] s t)) ∧
    (m.twoStep = false →
      let off := rxStamp s m - (m.origin + m.correction) - s.clk.mpd
      completes (.ptpSync m) s (fun t =>
        t.clk = { s.clk with t1 := m.origin + m.correction, t2 := rxStamp s m, measured := some off } ∧
          rd t (ptcA 0x90) = satNs off ∧ wordsKept [ptcA 0x90] s t ∧ counted s t pgPtc 0 ∧
          onlyChanges [.regs, .counters, .clk] s t)) ∧
    (∀ h, s.clk.heldSync = some h → h.seq = m.seq → m.rxTime ≤ h.rxTime + interval s 31 24 →
      completes (.followUp m) s (fun t =>
        t.clk.measured = some (rxStamp s h - (m.origin + m.correction + h.correction) - s.clk.mpd) ∧
          t.clk.heldSync = none ∧ wordsKept [ptcA 0x90] s t ∧ counted s t pgPtc 1 ∧
          onlyChanges [.regs, .counters, .clk] s t)) ∧
    ((∀ h, s.clk.heldSync = some h → h.seq ≠ m.seq ∨ h.rxTime + interval s 31 24 < m.rxTime) →
      completes (.followUp m) s (fun t => counted s t pgPtc 10 ∧ onlyChanges [.counters] s t)) ∧
    (delayP2p s = false → m.seq = s.clk.reqSeq →
      let d := (s.clk.t2 - s.clk.t3 + (m.origin - m.correction - s.clk.t1)) / 2
      completes (.delayResp m) s (fun t =>
        t.clk = { s.clk with mpd := d } ∧ rd t (ptcA 0x94) = satNs d ∧ wordsKept [ptcA 0x94] s t ∧ counted s t pgPtc 3 ∧
          onlyChanges [.regs, .counters, .clk] s t))) ∧
  (∀ (s : State) (off : Int) (p : Nat) (d : AnnounceData), s.clk.measured = some off → s.clk.best = some (p, d) →
    pgEn s pgPtc = true → srcPtp s = true →
    let limit := rdf s (ptcA 0x78) 19 0 * 65536
    ((s.clk.state = 3 ∨ s.clk.state = 2 ∧ s.clk.first = false) → s.clk.suspended = false → limit < off.natAbs →
      completes .servoMeasurement s (fun t =>
        t.clk.state = 4 ∧ t.clk.jump = true ∧ t.clk.incr = s.clk.incr ∧ t.clk.sec = s.clk.sec ∧ t.clk.ns = s.clk.ns ∧
          t.clk.frac = s.clk.frac ∧ (evPend t pgPtc).testBit 8 = true ∧ (evPend t pgPtc).testBit 10 = true ∧
          recorded s t 0x0901 1)) ∧
    (s.clk.state = 2 → s.clk.first = true → anyPrinting s = false →
      completes .servoMeasurement s (fun t =>
        ((t.clk.sec * 1000000000 + t.clk.ns : Nat) : Int) = (((now16 s : Int) - off) / 65536) % (2 ^ 48 * 1000000000) ∧
          t.clk.stepBusy = true ∧ t.clk.first = false ∧ t.clk.incr = s.clk.incr)) ∧
    (s.clk.state = 4 → off.natAbs ≤ limit → s.clk.adopted = some d.grandmaster →
      completes .servoMeasurement s (fun t =>
        t.clk.jump = false ∧ (t.clk.state = 2 ∨ t.clk.state = 3) ∧ 0x3FF7CED92 ≤ t.clk.incr ∧ t.clk.incr ≤ 0x40083126E)) ∧
    (s.clk.state = 4 → (limit < off.natAbs ∨ s.clk.adopted ≠ some d.grandmaster) →
      completes .servoMeasurement s (fun t =>
        t.clk = { s.clk with measured := none } ∧ onlyChanges [.clk] s t))) ∧
  (∀ (s : State), pgEn s pgPtc = true → srcPtp s = true → s.clk.state ≠ 6 →
    (∀ p d, s.clk.best = some (p, d) → s.clk.foreign.filter (fun f => !(f.1 == p && f.2.1 == s.clk.parent)) = [] →
      completes .announceTimeout s (fun t =>
        t.clk.state = 4 ∧ t.clk.best = none ∧ t.clk.incr = s.clk.incr ∧ (evPend t pgPtc).testBit 10 = true ∧
          (evPend t pgPtc).testBit 12 = true ∧ recorded s t 0x0902 1)) ∧
    (s.clk.best = none → s.clk.state = 1 → slaveOnly s = false →
      completes .announceTimeout s (fun t => t.clk = { s.clk with state := 5 } ∧ onlyChanges [.clk] s t))) ∧
  (∀ (s : State) (m : PtpMsg) (d : AnnounceData),
    (hears s m = false ∨ s.clk.state = 6 → exec (.ptpAnnounce m d) s = .next s) ∧
    (hears s m = true → s.clk.state ≠ 6 →
      completes (.ptpAnnounce m d) s (fun t => (m.port, m.sourceClock, d) ∈ t.clk.foreign ∧ counted s t pgPtc 5)))

/-- A PTP message of the unit itself. -/
def ownPtp (s : State) (p seq : Nat) (origin correction : Int) : PtpMsg :=
  { port := p, domain := rdf s (ptcA 0x40) 23 16, sourceClock := Config.clockIdentity, sourcePort := 1, seq := seq,
    twoStep := false, correction := correction, origin := origin.toNat, rxTime := 0 }

/-- What the unit sends (R329, R333 to R337): as master a one-step Sync with its transmit time, an Announce, and answers with the receive time; as slave a Delay_Req
whose transmit time is t3; a peer-delay request is answered with the time between, and the answers to the unit's own give the peer delay; the transparent clock forwards an event message on the other port
with the residence time, and as peer-to-peer clock the delay of a Sync's path, added to its correction, and never out of the port it came in; a unit that follows its partner asks it for the time on the lowest pair lane in lock. -/
def PtpMessagesRule : Prop :=
  (∀ s : State,
    let ring := (List.range 4).filter (ringPort s)
    (ptpMaster s = true →
      completes .ptpSyncInterval s (fun t =>
        let q := (s.clk.syncSeq + 1) % 65536
        t.clk = { s.clk with syncSeq := q } ∧ sends s t (ring.map (fun p => .ptp p 0 (ownPtp s p q (txStamp s p) 0))) ∧
          onlyChanges [.clk, .out] s t) ∧
      completes .ptpAnnounceInterval s (fun t =>
        let q := (s.clk.annSeq + 1) % 65536
        t.clk = { s.clk with annSeq := q } ∧ sends s t (ring.map (fun p => .ptp p 3 (ownPtp s p q 0 0))) ∧
          onlyChanges [.clk, .out] s t) ∧
      (∀ m, hears s m = true → delayP2p s = false →
        completes (.delayReq m) s (fun t =>
          sends s t [.ptp m.port 2 (ownPtp s m.port (m.seq % 65536) (rxStamp s m) m.correction)] ∧
            onlyChanges [.out] s t))) ∧
    (ptpMaster s = false →
      exec .ptpSyncInterval s = .next s ∧ exec .ptpAnnounceInterval s = .next s ∧
        ∀ m, exec (.delayReq m) s = .next s) ∧
    (∀ p d, pgEn s pgPtc = true → srcPtp s = true → delayP2p s = false → tcMode s ≠ 2 → s.clk.best = some (p, d) →
        s.clk.state ≠ 5 → ringPort s p = true →
      completes .delayRequestInterval s (fun t =>
        let q := (s.clk.reqSeq + 1) % 65536
        t.clk = { s.clk with reqSeq := q, t3 := txStamp s p } ∧ sends s t [.ptp p 1 (ownPtp s p q (txStamp s p) 0)] ∧
          counted s t pgPtc 2 ∧ onlyChanges [.counters, .clk, .out] s t)) ∧
    (∀ p, pgEn s pgPtc = true → tcMode s = 2 → ring = [p] → s.clk.best = none →
      completes .delayRequestInterval s (fun t =>
        let q := (s.clk.reqSeq + 1) % 65536
        t.clk = { s.clk with reqSeq := q, pdReq := tset s.clk.pdReq p (q, txStamp s p) } ∧
          sends s t [.ptp p 4 (ownPtp s p q 0 0)] ∧ onlyChanges [.clk, .out] s t))) ∧
  (∀ (s : State) (m : PtpMsg), pgEn s pgPtc = true → ringPort s m.port = true → (delayP2p s = true ∨ tcMode s = 2) →
    completes (.pdelay .req m) s (fun t =>
      sends s t [.ptp m.port 5 (ownPtp s m.port (m.seq % 65536) 0 (m.correction + (txStamp s m.port - rxStamp s m)))] ∧
        onlyChanges [.out] s t) ∧
    (∀ e ∈ s.clk.pdReq, s.clk.pdReq.find? (fun x => x.1 == m.port) = some e → e.2.1 = m.seq → m.twoStep = true →
      completes (.pdelay .resp m) s (fun t =>
        tget (fun _ => m) t.clk.pdHeld m.port = m ∧ onlyChanges [.clk] s t)) ∧
    (∀ e ∈ s.clk.pdReq, ∀ h ∈ s.clk.pdHeld, s.clk.pdReq.find? (fun x => x.1 == m.port) = some e → e.2.1 = m.seq →
      s.clk.pdHeld.find? (fun x => x.1 == m.port) = some h → h.2.seq = m.seq →
      completes (.pdelay .respFollowUp m) s (fun t =>
        tget (fun _ => 0) t.clk.peerDelay m.port =
            (rxStamp s h.2 - e.2.2 - (m.origin - h.2.origin) - h.2.correction - m.correction) / 2 ∧
          counted s t pgPtc 4 ∧ wordsKept [ptcA 0x94] s t ∧ onlyChanges [.regs, .counters, .clk] s t)) ∧
    (∀ e ∈ s.clk.pdReq, s.clk.pdReq.find? (fun x => x.1 == m.port) = some e → e.2.1 = m.seq → m.twoStep = false →
      completes (.pdelay .resp m) s (fun t =>
        tget (fun _ => 0) t.clk.peerDelay m.port = (rxStamp s m - e.2.2 - m.correction) / 2 ∧ counted s t pgPtc 4 ∧
          wordsKept [ptcA 0x94] s t ∧ onlyChanges [.regs, .counters, .clk] s t))) ∧
  (∀ (s : State) (kind : TcKind) (m : PtpMsg) (tr : Nat) (ok : Bool) (e : Nat),
    (e = m.port ∨ tcMode s = 0 ∨ m.sourceClock = Config.clockIdentity → exec (.tcForward kind m tr ok e) s = .next s) ∧
    (pgEn s pgPtc = true → tcMode s = 1 → ringPort s m.port = true → ringPort s e = true → e ≠ m.port →
        m.sourceClock ≠ Config.clockIdentity →
      (kind = .general ∨ kind = .pdelayFollowUp →
        completes (.tcForward kind m tr ok e) s (fun t => sends s t [.ptp e 6 m] ∧ onlyChanges [.out] s t)) ∧
      (kind ≠ .general → kind ≠ .pdelayFollowUp → (tr ≠ 2 ∨ ok = true) →
        completes (.tcForward kind m tr ok e) s (fun t =>
          sends s t [.ptp e (7 + tr % 3) { m with correction := m.correction + (txStamp s e - rxStamp s m) }] ∧
            counted s t pgPtc 6 ∧ onlyChanges [.counters, .out] s t)) ∧
      (kind ≠ .general → kind ≠ .pdelayFollowUp → tr = 2 → ok = false →
        completes (.tcForward kind m tr ok e) s (fun t =>
          sends s t [.ptp e 6 m] ∧ counted s t pgPtc 7 ∧ onlyChanges [.counters, .out] s t))) ∧
    (pgEn s pgPtc = true → tcMode s = 2 → ringPort s m.port = true → ringPort s e = true → e ≠ m.port →
        m.sourceClock ≠ Config.clockIdentity → (tr ≠ 2 ∨ ok = true) →
      completes (.tcForward .sync m tr ok e) s (fun t =>
        sends s t [.ptp e (7 + tr % 3) { m with correction :=
          m.correction + (txStamp s e - rxStamp s m) + tget (fun _ => 0) s.clk.peerDelay m.port }] ∧
          counted s t pgPtc 6 ∧ onlyChanges [.counters, .out] s t))) ∧
  (∀ (s : State) (l : Nat), pairFollow s = true → (pairLanes s).find? (fun l => (getLane s l).lock) = some l →
    completes .pairTimeExchange s (fun t =>
      let q := (s.clk.pairSeq + 1) % 256
      t.clk.pairSeq = q ∧ t.clk.pairT1 = some (fireNow s) ∧ t.clk.pairLane = some l ∧
        (s.clk.pairLane.isSome = true → s.clk.pairLane ≠ some l → t.clk.pairDiscard = 8) ∧
        sends s t [.pair l (pairMessage 3 0 0 s.pair.rxSeq (leBytes 1 1 ++ leBytes 1 q ++ leBytes 2 0 ++
          leBytes 6 (fireNow s) ++ leBytes 4 0 ++ leBytes 2 0))] ∧ onlyChanges [.counters, .clk, .out] s t))

/-- PTP: measuring, acting on it, and what the unit sends (R324 to R330, R333 to R337). -/
def Obligations.PtpTime : Prop := PtpMeasurementRule ∧ PtpMessagesRule

/-! ### The redundant pair (12) -/

/-- A sound pair message of a type arrives on a lane in use; it acknowledges nothing that waits, and no HELLO of a partner that begins
anew. -/
def pairHeard (s : State) (m : PairRx) (type : Nat) : Prop :=
  laneActive s (48 + m.lane % 4) = true ∧ pairSound m.bytes = true ∧ bytesAt m.bytes 0 1 = type ∧
    (∀ u ∈ s.pair.unacked, seqLe u.1 (bytesAt m.bytes 8 4) = false) ∧ (type = 1 → s.pair.hbLost = false)

/-- It is next in SEQ order, with no message held ahead of its turn and none begun. -/
def pairInTurn (s : State) (m : PairRx) (type : Nat) : Prop :=
  pairHeard s m type ∧ bytesAt m.bytes 4 4 = nextSeq s.pair.rxSeq ∧ s.pair.early = [] ∧ s.pair.partial_ = none

/-- The counts of a received pair message. -/
def pairCounted (s : State) (m : PairRx) : State := count (count s (pgPrl (m.lane % 4)) 1) pgPair 1

/-- The sequenced messages by their TYPE. -/
def pairSequenced : List (Nat × (PairRx → Instr)) :=
  [(0x01, .pairHello), (0x10, .input), (0x11, .crcMessage), (0x20, .copy), (0x21, .copyCtrl), (0x22, .position),
   (0x28, .health), (0x30, .pairFault), (0x31, .tileReq), (0x32, .tileData)]

/-- Receiving pair messages (R343): none on a lane that is not in use; an unsound one is discarded and counted in counter 2 of
its lane; HB and TIME act at once; a sequenced message in its turn is delivered, and those held behind it follow; one of an earlier turn is discarded, one of a
later turn held. -/
def PairMessagesRule : Prop :=
  (∀ (s : State) (m : PairRx) (x : Nat × (PairRx → Instr)),
    x ∈ pairSequenced ++ [(0x02, Instr.hb), (0x03, Instr.timeMessage)] →
    (laneActive s (48 + m.lane % 4) = false → exec (x.2 m) s = .next s) ∧
    (laneActive s (48 + m.lane % 4) = true → pairSound m.bytes = false →
      completes (x.2 m) s (fun t => counted s t (pgPrl (m.lane % 4)) 2 ∧ onlyChanges [.counters] s t))) ∧
  (∀ (s : State) (m : PairRx),
    (pairHeard s m 2 → exec (.hb m) s = .next (onHb (pairCounted s m) (pairBody m.bytes))) ∧
    (pairHeard s m 3 → exec (.timeMessage m) s = .next (pairTime (pairCounted s m) (48 + m.lane % 4) (pairBody m.bytes)))) ∧
  (∀ (s : State) (m : PairRx) (x : Nat × (PairRx → Instr)), x ∈ pairSequenced → pairHeard s m x.1 →
    let q := bytesAt m.bytes 4 4
    let u := pairCounted s m
    (q = nextSeq s.pair.rxSeq →
      let d := deliverPair (setPair u { u.pair with rxSeq := q }) x.1 (pairBody m.bytes)
      exec (x.2 m) s = .next (deliverEarly d.pair.early.length d)) ∧
    (q ≠ nextSeq s.pair.rxSeq → seqLe q s.pair.rxSeq = true → exec (x.2 m) s = .next u) ∧
    (q ≠ nextSeq s.pair.rxSeq → seqLe q s.pair.rxSeq = false → s.pair.early.any (fun e => e.1 == q) = false →
      completes (x.2 m) s (fun t =>
        t.pair = { s.pair with early := s.pair.early ++ [(q, x.1, bytesAt m.bytes 1 1, pairBody m.bytes)] } ∧
          onlyChanges [.counters, .pair] s t))) ∧
  (∀ (s : State) (m : PairRx), pairHeard s m 3 → bytesAt (pairBody m.bytes) 0 1 = 1 → isActive s = true →
    completes (.timeMessage m) s (fun t =>
      sends s t [.pair (48 + m.lane % 4) (pairMessage 3 0 0 s.pair.rxSeq (leBytes 1 2 ++
        leBytes 1 (bytesAt (pairBody m.bytes) 1 1) ++ leBytes 2 0 ++ leBytes 6 (fireNow s) ++ leBytes 6 (fireNow s)))] ∧ onlyChanges [.counters, .out] s t))

/-- Sending on the pair lanes (R343, R344): an HB with the next count goes out on every pair lane that is up; a message not
acknowledged in time is sent again with its own number on the next lane up, until the heartbeat is lost. -/
def PairSendingRule : Prop :=
  (∀ s : State,
    (pairMode s = false → exec .hbSend s = .next s) ∧
    (pairMode s = true →
      completes .hbSend s (fun t =>
        let n := (s.pair.hbCount + 1) % 2 ^ 32
        t.pair = { s.pair with hbCount := n } ∧
          sends s t ((pairLanes s).map (fun l => .pair l (pairMessage 2 0 0 s.pair.rxSeq (hbBody s n)))) ∧
          onlyChanges [.counters, .pair, .out] s t))) ∧
  (∀ (s : State) (q : Nat),
    (s.pair.unacked.any (fun u => u.1 == q) = false ∨ s.pair.hbLost = true ∨ pairLink s = false →
      exec (.retry q) s = .next s) ∧
    (∀ u l, s.pair.unacked.find? (fun u => u.1 == q) = some u → retryLane s q = some l → s.pair.hbLost = false →
      completes (.retry q) s (fun t =>
        sends s t [.pair l (pairMessage u.2.1 u.2.2.1 q s.pair.rxSeq u.2.2.2)] ∧ t.pair.unacked = s.pair.unacked ∧
          tget (fun _ => 0) t.pair.sentOn q = l ∧ laneActive s l = true ∧
          (∀ k, laneActive s k = true → 48 ≤ k → k < 52 → k ≠ tget (fun _ => 0) s.pair.sentOn q →
            l ≠ tget (fun _ => 0) s.pair.sentOn q) ∧ onlyChanges [.counters, .pair, .out] s t)))

/-- Messages on the pair lanes (R343, R344). -/
def Obligations.PairLink : Prop := PairMessagesRule ∧ PairSendingRule

/-- A HELLO and a heartbeat of the partner (R342, R344, R346, R376): a HELLO that R342 refuses writes its reason to CHECK_ERR and records
PAIR_REFUSED, class B, and the role stays; a FORMING unit joins an active partner, and of two FORMING units the one with the higher EPOCH_KEEP, or unit A, becomes active with a higher
epoch; an active alone whose partner is STANDBY is ACTIVE, and an ACTIVE one whose partner is JOINING is alone; PEER_EPOCH follows every higher epoch; of two active units the one with the smaller claim demotes itself. -/
def PairPartnerRule : Prop :=
  (∀ (s : State) (m : PairRx), pairInTurn s m 1 →
    let b := pairBody m.bytes
    let seen := max (peerEpoch s) (bytesAt b 4 3)
    let own := rd s (pairA 0x54)
    let keep := bytesAt b 8 3
    let e := max (epoch s) (max seen own) + 1
    let peer := bytesAt b 3 1 % 16
    (helloReason s b ≠ 0 →
      completes (.pairHello m) s (fun t =>
        rd t (pairA 0x94) = helloReason s b ∧ peerEpoch t = seen ∧ t.pair.role = s.pair.role ∧ recorded s t 0x0A02 1)) ∧
    (helloReason s b = 0 → s.pair.role = 1 →
      ((peer = 2 ∨ peer = 3) → completes (.pairHello m) s (fun t => t.pair.role = 4 ∧ epoch t = epoch s)) ∧
      (peer = 1 → (keep < own ∨ keep = own ∧ unitA s = true) → e ≤ 0xFFFFFF →
        completes (.pairHello m) s (fun t => t.pair.role = 3 ∧ epoch t = e ∧ rd t (pairA 0x54) = e)) ∧
      (peer = 1 → own < keep ∨ keep = own ∧ unitA s = false →
        completes (.pairHello m) s (fun t => t.pair.role = 4 ∧ epoch t = epoch s))) ∧
    (helloReason s b = 0 → s.pair.role = 3 → peer = 5 →
      completes (.pairHello m) s (fun t => t.pair.role = 2 ∧ epoch t = epoch s ∧ peerEpoch t = seen)) ∧
    (helloReason s b = 0 → s.pair.role = 2 → peer = 4 →
      completes (.pairHello m) s (fun t =>
        t.pair.role = 3 ∧ t.pair.verified = false ∧ epoch t = epoch s ∧ peerEpoch t = seen))) ∧
  (∀ (s : State) (m : PairRx), pairHeard s m 2 →
    let b := pairBody m.bytes
    (paired s = false →
      completes (.hb m) s (fun t => onlyChanges [.counters] s t)) ∧
    (paired s = true → bytesAt b 0 1 % 16 ∉ [2, 3] → s.pair.role = 2 ∨ s.pair.role = 3 →
      completes (.hb m) s (fun t =>
        t.pair.role = s.pair.role ∧ t.pair.peerRole = bytesAt b 0 1 % 16 ∧ t.pair.peerBuild = bytesAt b 8 6 ∧
          peerEpoch t = max (peerEpoch s) (bytesAt b 4 4 / 256) ∧ epoch t = epoch s)) ∧
    (paired s = true → (bytesAt b 0 1 % 16 = 2 ∨ bytesAt b 0 1 % 16 = 3) → (s.pair.role = 2 ∨ s.pair.role = 3) →
      rdb s (pairA 0x40) 3 = false →
      (claimWord s < bytesAt b 4 4 →
        completes (.hb m) s (fun t => t.pair.role = 6 ∧ (evPend t pgPair).testBit 13 = true)) ∧
      (bytesAt b 4 4 ≤ claimWord s → completes (.hb m) s (fun t => t.pair.role = s.pair.role))))

/-- The partner is lost or stops (R346, R347, R364 to R366, R368, R372): a standby takes over with an epoch above all seen and PAIR_LOST, class B;
a unit whose epoch would exceed 24 bits does not; an active unit waits for SOLO_WAIT, and goes on alone after it; a join breaks off with
COPY_INCOMPLETE, class C; an absent partner is recorded once as PAIR_ABSENT, class B, and SOLO_OK makes the FORMING unit active; a unit that is not active drives its
safe levels after IO_HOLD. -/
def PairLossRule : Prop :=
  (∀ (s : State) (m : PairRx) (byMessage : Bool), (if byMessage then pairInTurn s m 0x30 else paired s = true ∧ s.pair.hbLost = false) →
    let c : Instr := if byMessage then .pairFault m else .hbTimeout
    let e := max (epoch s) (max (peerEpoch s) (rd s (pairA 0x54))) + 1
    (s.pair.role = 5 → e ≤ 0xFFFFFF →
      completes c s (fun t =>
        t.pair.role = 3 ∧ epoch t = e ∧ rd t (pairA 0x54) = e ∧ (evPend t pgPair).testBit 8 = true ∧
          (evPend t pgPair).testBit 9 = true ∧ ∃ r, t.sys.ramLog.getLast? = some r ∧ r.code = 0x0A01 ∧ r.cls = 1)) ∧
    (s.pair.role = 5 → 0xFFFFFF < e →
      completes c s (fun t => t.pair.role ≠ 3 ∧ epoch t = epoch s ∧ rd t (pairA 0x54) = rd s (pairA 0x54))) ∧
    (s.pair.role = 2 →
      completes c s (fun t => t.pair.role = 2 ∧ t.pair.soloWait = true ∧ raised s t pgPair 9 ∧ epoch t = epoch s))) ∧
  (∀ s : State,
    (paired s = false ∨ s.pair.hbLost = true → exec .hbTimeout s = .next s) ∧
    (paired s = true → s.pair.hbLost = false → s.pair.role = 4 → s.pair.joinStep ≠ 0 →
      completes .hbTimeout s (fun t =>
        t.pair.role = 4 ∧ t.pair.joinStep = 0 ∧ t.pair.hbLost = true ∧ (evPend t pgPair).testBit 16 = true ∧
          recorded s t 0x0A07 2)) ∧
    (s.pair.role ≠ 2 ∨ s.pair.soloWait = false → exec .soloWait s = .next s) ∧
    (s.pair.role = 2 → s.pair.soloWait = true →
      completes .soloWait s (fun t =>
        t.pair.role = 3 ∧ t.pair.soloWait = false ∧ epoch t = epoch s ∧
          ∃ r, t.sys.ramLog.getLast? = some r ∧ r.code = 0x0A01 ∧ r.cls = 1)) ∧
    (s.pair.role ≠ 1 → exec .formTimeout s = .next s) ∧
    (s.pair.role = 1 → s.pair.peerSeen = false → rdb s (pairA 0x40) 2 = false →
      completes .formTimeout s (fun t => t.pair = s.pair ∧ recorded s t 0x0A03 1)) ∧
    (s.pair.role = 1 → rdb s (pairA 0x40) 2 = true → (s.pair.sameUnit && pairLink s) = false →
      let e := max (epoch s) (max (peerEpoch s) (rd s (pairA 0x54))) + 1
      e ≤ 0xFFFFFF → completes .formTimeout s (fun t => t.pair.role = 3 ∧ epoch t = e ∧ rd t (pairA 0x54) = e)) ∧
    (paired s = true → s.pair.hbLost = true → isActive s = false →
      completes .safeOutput s (fun t =>
        t.pair = { s.pair with safe := true } ∧ onlyChanges [.counters, .links, .pair, .out] s t)) ∧
    (s.pair.hbLost = false ∨ isActive s = true → exec .safeOutput s = .next s))

/-- What the partner says of itself, and its loss (R342, R344, R346, R347, R364 to R366, R368, R372, R376). -/
def Obligations.PairRoles : Prop := PairPartnerRule ∧ PairLossRule

/-- PAIR.CMD (R346, R364, R373): SWITCH is taken as an input by an ACTIVE unit with a verified standby, once; SOLO makes a FORMING or JOINING unit active with a
new epoch, a JOINING one without what it has copied; JOIN starts the join of a waiting unit, and LEAVE makes a standby wait in
JOINING; each is refused in any other role. -/
def Obligations.PairCommands : Prop :=
  (∀ (s : State) (rq : Requester) (v : Nat) (c : Instr), (v, c) ∈ [(1, .switch rq), (2, .solo rq), (4, .join rq), (8, .leave rq)] →
    admitted s (pairA 0x48) v →
    (v = 1 ∧ ¬(s.pair.role = 2 ∧ s.pair.verified = true) ∨
        v = 2 ∧ s.pair.role ≠ 1 ∧ s.pair.role ≠ 4 ∨ v = 2 ∧ s.pair.role = 1 ∧ s.pair.sameUnit = true ∧ pairLink s = true ∨
        v = 4 ∧ s.pair.role ≠ 4 ∧ s.pair.role ≠ 6 ∨ v = 8 ∧ s.pair.role ≠ 5) →
    completes c s (fun t => raised s t pgPair 4 ∧ wordsKept [pairA 0x24] s t ∧ onlyChanges eventParts s t)) ∧
  (∀ (s : State) (rq : Requester), admitted s (pairA 0x48) 1 → s.pair.role = 2 → s.pair.verified = true →
    (s.pair.switchPending = true → exec (.switch rq) s = .next s) ∧
    (s.pair.switchPending = false →
      completes (.switch rq) s (fun t =>
        t.pair.switchPending = true ∧ t.pair.role = 2 ∧ epoch t = epoch s ∧
          ∃ i, t.pair.inputs = s.pair.inputs ++ [i] ∧ i.kind = 11 ∧ i.own = true ∧ i.bar = refBar s))) ∧
  (∀ (s : State) (rq : Requester), admitted s (pairA 0x48) 2 →
    let e := max (epoch s) (max (peerEpoch s) (rd s (pairA 0x54))) + 1
    e ≤ 0xFFFFFF →
    (s.pair.role = 1 → (s.pair.sameUnit && pairLink s) = false →
      completes (.solo rq) s (fun t => t.pair.role = 3 ∧ epoch t = e ∧ rd t (pairA 0x54) = e)) ∧
    (s.pair.role = 4 →
      completes (.solo rq) s (fun t =>
        t.pair.role = 3 ∧ epoch t = e ∧ t.pair.inputs = [] ∧ t.host.journal = [] ∧ t.host.sessions = [] ∧
          t.print.jobs = [] ∧ t.print.tiles = []))) ∧
  (∀ (s : State) (rq : Requester), admitted s (pairA 0x48) 4 → peerActive s = true → pairLink s = true →
    (s.pair.role = 4 → s.pair.joinStep = 0 →
      completes (.join rq) s (fun t => t.pair.role = 4 ∧ t.pair.joinStep = 1 ∧ t.pair.mustWait = false)) ∧
    (s.pair.role = 6 → s.sys.stopped = false →
      completes (.join rq) s (fun t => t.pair.role = 4 ∧ t.pair.joinStep = 1 ∧ t.pair.mustWait = false))) ∧
  (∀ (s : State) (rq : Requester), admitted s (pairA 0x48) 8 → s.pair.role = 5 →
    completes (.leave rq) s (fun t =>
      t.pair.role = 4 ∧ t.pair.joinStep = 0 ∧ t.pair.mustWait = true ∧ t.pair.verified = false ∧ epoch t = epoch s))

/-- Inputs and their apply-lines (R348, R349, R373, R374, R378): a standby holds a whole input with its apply-line; a proposal becomes an input of the active's own, but for
results that the active has measured itself; INPUT_APPLY
runs the first held input that is due, and with none due nothing happens; an applied SWITCH exchanges the roles at the next epoch; the active with a partner takes
a CHECK as an input. -/
def Obligations.PairInputs : Prop :=
  (∀ (s : State) (m : PairRx), pairInTurn s m 0x10 →
    let b := pairBody m.bytes
    12 + bytesAt b 2 2 ≤ b.length →
    (bitOf (bytesAt b 1 1) 1 = false → bytesAt b 0 1 ≠ 1 → s.pair.role = 5 →
      completes (.input m) s (fun t =>
        t.pair = { s.pair with rxSeq := nextSeq s.pair.rxSeq, inputs := s.pair.inputs ++
          [{ kind := bytesAt b 0 1, late := bitOf (bytesAt b 1 1) 0, apply := bytesAt b 4 6, bar := bytesAt b 0xA 1 % 8,
             payload := b.drop 12, seq := 0, own := false }] } ∧ onlyChanges [.counters, .pair] s t)) ∧
    (bitOf (bytesAt b 1 1) 1 = false → s.pair.role ≠ 5 → s.pair.role ≠ 4 →
      completes (.input m) s (fun t =>
        t.pair = { s.pair with rxSeq := nextSeq s.pair.rxSeq } ∧ onlyChanges [.counters, .pair] s t)) ∧
    (bitOf (bytesAt b 1 1) 1 = true → isActive s = true → measuredHere s (bytesAt b 0 1) (b.drop 12) = false →
      completes (.input m) s (fun t =>
        ∃ i, t.pair.inputs = s.pair.inputs ++ [i] ∧ i.kind = bytesAt b 0 1 ∧ i.own = true ∧ i.payload = b.drop 12 ∧
          t.pair.role = s.pair.role)) ∧
    (bitOf (bytesAt b 1 1) 1 = true → (isActive s = false ∨ measuredHere s (bytesAt b 0 1) (b.drop 12) = true) →
      completes (.input m) s (fun t =>
        t.pair = { s.pair with rxSeq := nextSeq s.pair.rxSeq } ∧ onlyChanges [.counters, .pair] s t))) ∧
  (∀ s : State,
    ((∀ i ∈ s.pair.inputs, dueHere s i = false) → exec .inputApply s = .next s) ∧
    (∀ (xs ys : List PairInput) (i : PairInput), s.pair.inputs = xs ++ i :: ys → (∀ x ∈ xs, dueHere s x = false) →
      dueHere s i = true →
      let u := { s with pair := { s.pair with inputs := xs ++ ys } }
      exec .inputApply s = .next (applyInput (if i.own then u else count u pgPair 4) i) ∧
        (i.kind = 11 → epoch s < 0xFFFFFF →
          (s.pair.role = 2 → completes .inputApply s (fun t =>
            t.pair.role = 5 ∧ epoch t = epoch s + 1 ∧ rd t (pairA 0x54) = epoch s + 1 ∧ t.pair.inputs = xs ++ ys)) ∧
          (s.pair.role = 5 → completes .inputApply s (fun t =>
            t.pair.role = 2 ∧ epoch t = epoch s + 1 ∧ rd t (pairA 0x54) = epoch s + 1 ∧
              t.pair.inputs = xs ++ ys))))) ∧
  (∀ s : State,
    (isActive s = false ∨ partnered s = false → exec .checkInput s = .next s) ∧
    (isActive s = true → partnered s = true →
      completes .checkInput s (fun t =>
        ∃ i, t.pair.inputs = s.pair.inputs ++ [i] ∧ i.kind = 10 ∧ i.own = true ∧ onlyChanges [.counters, .pair, .out] s t)))

/-- Comparing bar lines (R354, R355): an entry of the partner that has no own one yet is held; a differing line follows the table of R354: excused and counted
in counter 7 when its flags allow it, or else DIVERGENCE and the standby joins again; a wait that ends counts as a differing line with the partner's flags clear. -/
def PairVerifyRule : Prop :=
  (∀ (s : State) (line bar : Nat),
    (s.print.ownCrcs.any (fun e => e.line == line && e.bar == bar) = false → exec (.crcWait line bar) s = .next s) ∧
    (∀ e, s.print.ownCrcs.find? (fun e => e.line == line && e.bar == bar) = some e →
      (s.pair.role = 5 → (e.persistent = true ∨ e.transient = false) →
        completes (.crcWait line bar) s (fun t =>
          t.pair.role = 4 ∧ t.pair.diverged = true ∧ counted s t pgPair 6 ∧ counted s t pgPair 5 ∧
            (evPend t pgPair).testBit 12 = true ∧ recorded s t 0x0A05 1)) ∧
      (s.pair.role = 5 → e.persistent = false → e.transient = true →
        completes (.crcWait line bar) s (fun t =>
          t.pair.role = 5 ∧ t.pair.excused = s.pair.excused + 1 ∧ counted s t pgPair 7 ∧ counted s t pgPair 5)) ∧
      (s.pair.role = 2 → e.persistent = false → e.transient = false →
        completes (.crcWait line bar) s (fun t =>
          t.pair.role = 2 ∧ t.pair.diverged = true ∧ counted s t pgPair 6 ∧ recorded s t 0x0A05 1)) ∧
      (s.pair.role = 2 → e.persistent = false → e.transient = true →
        completes (.crcWait line bar) s (fun t =>
          t.pair.role = 2 ∧ t.pair.excused = s.pair.excused + 1 ∧ counted s t pgPair 7)) ∧
      (s.pair.role = 2 → e.persistent = true → s.pair.verified = true →
        completes (.crcWait line bar) s (fun t => t.pair.switchPending = true ∧ counted s t pgPair 7)))) ∧
  (∀ (s : State) (m : PairRx), pairInTurn s m 0x11 → s.print.ownCrcs = [] →
    completes (.crcMessage m) s (fun t =>
      t.print.peerCrcs = s.print.peerCrcs ++
          (crcEntries (pairBody m.bytes)).filter (fun e => decide (e.bar < 8) && verifying s e.bar e.line) ∧
        t.print.bars = s.print.bars ∧ onlyChanges [.counters, .print, .pair] s t)) ∧
  (∀ (s : State) (own peer : CrcEntry), own.crc = peer.crc →
    (compareEntry s own peer).sys = s.sys ∧ (compareEntry s own peer).print.bars = s.print.bars)

/-- Health reports (R378, R379): a report received is shown in HEALTH0 to HEALTH11 and raises HEALTH; a standby's own report has the next number and
clears what it has reported, and a standby with a digest or scrub error joins again; no other unit reports. -/
def PairHealthRule : Prop :=
  (∀ (s : State) (m : PairRx), pairInTurn s m 0x28 →
    completes (.health m) s (fun t =>
      (∀ i, i < 12 → rd t (pairA (0xA0 + 4 * i)) = bytesAt (pairBody m.bytes) (4 * i) 4) ∧ raised s t pgPair 15 ∧
        counted s t pgPair 12 ∧ t.pair = { s.pair with rxSeq := nextSeq s.pair.rxSeq } ∧
        onlyChanges (.pair :: eventParts) s t)) ∧
  (∀ (s : State) (err : Bool) (mib : Nat),
    (s.pair.role ≠ 5 → exec (.healthSend err mib) s = .next s) ∧
    (s.pair.role = 5 → s.pair.digestErr = false → s.pair.scrubErrs = 0 →
      completes (.healthSend err mib) s (fun t =>
        t.pair.role = 5 ∧ t.pair.healthNo = s.pair.healthNo + 1 ∧ t.pair.excused = 0 ∧ t.pair.diverged = false ∧
          raised s t pgPair 15 ∧ counted s t pgPair 12 ∧ onlyChanges (.pair :: eventParts) s t)) ∧
    (s.pair.role = 5 → (s.pair.digestErr = true ∨ s.pair.scrubErrs ≠ 0) →
      completes (.healthSend err mib) s (fun t =>
        t.pair.role = 4 ∧ t.pair.scrubErrs = 0 ∧ t.pair.digestErr = false ∧ recorded s t 0x0A08 1)))

/-- Comparing bar lines, and health reports (R354, R355, R378, R379). -/
def Obligations.PairChecks : Prop := PairVerifyRule ∧ PairHealthRule

/-- The copy of a join (R356 to R361, R363): COPY writes register words, committed words and image memory of a joining unit, and nothing of a unit
that is neither joining nor standby; COPY_CTRL moves both units from step to step; step 3 ends when at most DIRTY_MAX data are dirty; a join not done in time
fails with JOIN_FAIL, class B, and waits; POSITION moves a channel by the difference to the active's latch. -/
def PairCopyRule : Prop :=
  (∀ (s : State) (m : PairRx), pairInTurn s m 0x20 →
    let b := pairBody m.bytes
    let off := bytesAt b 1 8
    (s.pair.role ≠ 4 → s.pair.role ≠ 5 →
      completes (.copy m) s (fun t =>
        t.pair = { s.pair with rxSeq := nextSeq s.pair.rxSeq } ∧ onlyChanges [.counters, .pair] s t)) ∧
    (s.pair.role = 4 → 2 ≤ s.pair.joinStep →
      (bytesAt b 0 1 = 0 → copiedWord off = true →
        completes (.copy m) s (fun t =>
          rd t off = bytesAt b 9 4 ∧ wordsKept [off] s t ∧ onlyChanges [.regs, .counters, .pair] s t)) ∧
      (bytesAt b 0 1 = 0 → copiedWord off = false →
        completes (.copy m) s (fun t => onlyChanges [.counters, .pair] s t)) ∧
      (bytesAt b 0 1 = 1 → copiedWord off = true →
        completes (.copy m) s (fun t =>
          cm t off = bytesAt b 9 4 ∧ (∀ a, a ≠ off → cm t a = cm s a) ∧
            onlyChanges [.committed, .counters, .pair] s t)) ∧
      (bytesAt b 0 1 = 4 → memoryCanonical s →
        completes (.copy m) s (fun t =>
          (∀ i v, (b.drop 9)[i]? = some v → memByte t.dram.mem (off + i) = v) ∧
            (∀ a, a < off ∨ off + (b.drop 9).length ≤ a → memByte t.dram.mem a = memByte s.dram.mem a))))) ∧
  (∀ (s : State) (m : PairRx), pairInTurn s m 0x21 →
    let b := pairBody m.bytes
    (s.pair.role ≠ 3 → s.pair.role ≠ 4 →
      completes (.copyCtrl m) s (fun t => onlyChanges [.counters, .pair] s t)) ∧
    (s.pair.role = 4 → bytesAt b 0 1 = 1 →
      (bytesAt b 1 1 = 2 →
        completes (.copyCtrl m) s (fun t =>
          t.pair.joinStep = 2 ∧ t.pair.inputs = [] ∧ t.pair.peerBars = bytesAt b 2 2 ∧ t.print.jobs = [] ∧ t.print.tiles = [] ∧
            (∀ a, copiedWord a = true → rd t a = (regReset a).toNat ∧ cm t a = (regReset a).toNat))) ∧
      (bytesAt b 1 1 = 3 → completes (.copyCtrl m) s (fun t => t.pair.joinStep = 3 ∧ onlyChanges [.counters, .pair] s t)) ∧
      (bytesAt b 1 1 = 4 → completes (.copyCtrl m) s (fun t => t.pair.joinStep = 4))) ∧
    (s.pair.role = 3 → bytesAt b 0 1 = 1 →
      (bytesAt b 1 1 = 5 → s.pair.joinStep = 4 →
        completes (.copyCtrl m) s (fun t => t.pair.joinStep = 5 ∧ onlyChanges [.counters, .pair] s t)) ∧
      (bytesAt b 1 1 = 1 → completes (.copyCtrl m) s (fun t => t.pair.joinStep = 2)) ∧
      (bytesAt b 1 1 = 0 → completes (.copyCtrl m) s (fun t => t.pair.joinStep = 0 ∧ t.pair.dirty = [])))) ∧
  (∀ s : State,
    (s.pair.role ≠ 3 ∨ s.pair.joinStep ≠ 3 ∨ mayThrottled s = false → exec .copyPassDone s = .next s) ∧
    (s.pair.role = 3 → s.pair.joinStep = 3 → mayThrottled s = true →
      completes .copyPassDone s (fun t =>
        t.pair.dirty = [] ∧
          t.pair.joinStep = (if s.pair.dirty.length ≤ 16 * rdf s (pairA 0x80) 11 0 then 4 else 3) ∧
          onlyChanges [.counters, .pair, .out] s t)) ∧
    (s.pair.role ≠ 4 ∨ s.pair.joinStep ∉ [2, 3] → exec .copyTimeout s = .next s) ∧
    (s.pair.role = 4 → s.pair.joinStep = 2 ∨ s.pair.joinStep = 3 →
      completes .copyTimeout s (fun t =>
        t.pair.role = 4 ∧ t.pair.joinStep = 0 ∧ t.pair.mustWait = true ∧ (∀ b, b < 8 → printing t b = false) ∧
          (evPend t pgPair).testBit 11 = true ∧ recorded s t 0x0A06 1))) ∧
  (∀ (s : State) (m : PairRx), pairInTurn s m 0x22 →
    let b := pairBody m.bytes
    let c := bytesAt b 0 1
    let at' := (((bytesAt b 2 6 : Nat) + s.clk.pairOffset) % (2 ^ 48 : Nat)).toNat
    (s.pair.role ≠ 4 ∨ s.pair.joinStep ≠ 4 ∨ c ∉ s.pair.catchChans →
      completes (.position m) s (fun t => onlyChanges [.counters, .pair] s t)) ∧
    (∀ p h w, s.pair.role = 4 → s.pair.joinStep = 4 → c ∈ s.pair.catchChans → s.clk.state = 6 →
        s.clk.pairOffset.natAbs ≤ pairLimit s → matchLatch (getChan s c) at' = some (p, h, w) →
        (∃ d ∈ s.pair.catchChans, d ≠ c) →
      completes (.position m) s (fun t =>
        (getChan t c).pos = (getChan s c).pos + (signed 64 (bytesAt b 8 8) - p) ∧
          (getChan t c).high = (getChan s c).high + (signed 64 (bytesAt b 0x10 8) - h) ∧
          (getChan t c).low = (getChan s c).low + (signed 64 (bytesAt b 0x18 8) - w) ∧
          (getChan t c).dirMark = (getChan s c).dirMark + (signed 64 (bytesAt b 8 8) - p) ∧
          (getChan t c).edges = (getChan s c).edges.map (fun x => (x.1 + (signed 64 (bytesAt b 8 8) - p), x.2)) ∧ c ∉ t.pair.catchChans ∧
          (∀ d, d ≠ c → getChan t d = getChan s d) ∧ onlyChanges [.counters, .chans, .pair] s t)))

/-- Tiles of the partner (R113, R114): a request for a tile whose container is sound is answered, any other is not; the sound data of a tile that
was asked for replace its container, and those of any other change nothing. -/
def PairTilesRule : Prop :=
  (∀ (s : State) (m : PairRx), pairInTurn s m 0x31 →
    let b := pairBody m.bytes
    let found := findTile s (bytesAt b 0 4) (bytesAt b 4 1) (bytesAt b 5 1) (bytesAt b 6 6)
    ((∀ x, found = some x → x.length = 0 ∨ crc32c (memRead s.dram.mem (granAddr s x.gran) x.length) ≠ x.storeCrc) →
      completes (.tileReq m) s (fun t =>
        t.pair = { s.pair with rxSeq := nextSeq s.pair.rxSeq } ∧ onlyChanges [.counters, .pair] s t)) ∧
    (∀ x, found = some x → x.length ≠ 0 → crc32c (memRead s.dram.mem (granAddr s x.gran) x.length) = x.storeCrc →
      completes (.tileReq m) s (fun t =>
        (∃ us, us ≠ [] ∧ t.pair.unacked = s.pair.unacked ++ us ∧ (∀ u ∈ us, u.2.1 = 0x32) ∧
            (us.flatMap (fun u => u.2.2.2)).take x.length = memRead s.dram.mem (granAddr s x.gran) x.length) ∧
          onlyChanges [.counters, .pair, .out] s t))) ∧
  (∀ (s : State) (m : PairRx), pairInTurn s m 0x32 →
    let b := pairBody m.bytes
    let n := 24 + bytesAt b 0x10 4
    let c := b.take n
    let found := findTile s (bytesAt c 4 4) (bytesAt c 8 1) (bytesAt c 9 1) (bytesAt c 0xA 6)
    n + 64 ≤ b.length →
    ((∀ x, found = some x → x.recovery ≠ 4 ∧ x.recovery ≠ 5) →
      completes (.tileData m) s (fun t =>
        t.pair = { s.pair with rxSeq := nextSeq s.pair.rxSeq } ∧ onlyChanges [.counters, .pair] s t)) ∧
    (∀ x, found = some x → x.recovery = 4 → crc32c c = bytesAt b (n + 0x18) 4 → n = x.length →
      completes (.tileData m) s (fun t =>
        t.dram.mem = memWrite s.dram.mem (granAddr s x.gran) c)))

/-- The copy of a join, and tiles of the partner (R113, R114, R356 to R361, R363). -/
def Obligations.PairJoin : Prop := PairCopyRule ∧ PairTilesRule

/-! ### Axes, gearing and compare units (13) -/

/-- A command bit of an enabled axis is taken. -/
def axisTakes (s : State) (n bit : Nat) : Prop := n < 16 ∧ admitted s (axA n 0xD0) (2 ^ bit) ∧ pgEn s (pgAx n) = true

/-- The other axes are as they were. -/
def axesKept (s t : State) (n : Nat) : Prop := ∀ k, k ≠ n → getAxis t k = getAxis s k

/-- Steps and profiles (R380, R382 to R387): a scheduled step moves ACT_POS by one and leaves on the ball that the unit drives, and one within Pmin of the last or within
DIR_SETUP of a change of direction waits with BACKLOG set; an update of a plan adds its jerk to a, a to v and
v to p, and CMD_POS follows; in its last update the axis stands at its target with AT_TARGET; a quick stop brakes by QDEC until v would
change sign; a target is taken, to be planned 20 updates later, or refused with its event and nothing else changed; STOP and QSTOP end gearing and homing; every command of an axis
that is off is refused. -/
def Obligations.AxisMotion : Prop :=
  (∀ (s : State) (n : Nat), n < 16 →
    let x := getAxis s n
    (x.sched = 0 → exec (.step n) s = .next s) ∧
    (x.sched ≠ 0 → stepHeld s n = true →
      completes (.step n) s (fun t =>
        getAxis t n = { x with backlog := true } ∧ axesKept s t n ∧ onlyChanges [.motion] s t)) ∧
    (x.sched ≠ 0 → stepHeld s n = false →
      completes (.step n) s (fun t =>
        (getAxis t n).act = (if x.schedNeg then x.act - 1 else x.act + 1) ∧ (getAxis t n).sched = x.sched - 1 ∧
          (getAxis t n).cmd = x.cmd ∧ counted s t (pgAx n) (b2n x.schedNeg) ∧
          sends s t (if drivesShared s then [.stepPulse n (x.schedNeg == rdb s (axA n 0x40) 3)] else []) ∧
          axesKept s t n ∧ onlyChanges [.counters, .motion, .out] s t))) ∧
  (∀ (s : State) (n : Nat), n < 16 →
    let x := getAxis s n
    (pgEn s (pgAx n) = false → exec (.profileUpdate n) s = .next s) ∧
    (pgEn s (pgAx n) = true → x.waiting = 0 →
      (∀ j k rest, x.qstop = false → x.plan = (j, k) :: rest → 1 < k →
        completes (.profileUpdate n) s (fun t =>
          let p := x.p + (x.v + (x.a + j))
          (getAxis t n).a = x.a + j ∧ (getAxis t n).v = x.v + (x.a + j) ∧ (getAxis t n).p = p ∧
            (getAxis t n).cmd = p / 2 ^ 32 ∧ (getAxis t n).plan = (j, k - 1) :: rest ∧ (getAxis t n).act = x.act ∧
            (getAxis t n).sched = (p / 2 ^ 32 / 65536 - x.act).natAbs ∧ axesKept s t n)) ∧
      (∀ j, x.qstop = false → x.plan = [(j, 1)] → x.homing = 0 → x.stopping = false →
        completes (.profileUpdate n) s (fun t =>
          (getAxis t n).p = x.goal * 2 ^ 48 ∧ (getAxis t n).cmd = x.goal * 65536 ∧ (getAxis t n).v = 0 ∧
            (getAxis t n).a = 0 ∧ (getAxis t n).plan = [] ∧ (getAxis t n).atTarget = true ∧
            (evPend t (pgAx n)).testBit 8 = true ∧ counted s t (pgAx n) 2 ∧ axesKept s t n)) ∧
      (x.qstop = true →
        let a : Int := if 0 < x.v then -(axQdec s n : Int) else axQdec s n
        completes (.profileUpdate n) s (fun t =>
          ((x.v = 0 ∨ (x.v + a) * x.v ≤ 0) → (getAxis t n).v = 0 ∧ (getAxis t n).a = 0 ∧ (getAxis t n).qstop = false ∧
              (getAxis t n).p = x.p) ∧
            (¬(x.v = 0 ∨ (x.v + a) * x.v ≤ 0) → (getAxis t n).v = x.v + a ∧ (getAxis t n).p = x.p + (x.v + a) ∧
              (getAxis t n).qstop = true) ∧
            (getAxis t n).act = x.act ∧ axesKept s t n)))) ∧
  (∀ (s : State) (rq : Requester) (n : Nat) (hi : Word), n < 16 → admitted s (axA n 0x64) hi.toNat →
    let v := signed 48 (heldLow s (axA n 0x60) + 2 ^ 32 * (hi.toNat % 65536))
    (targetRefusal s n v = none →
      completes (.targetWrite rq n hi) s (fun t =>
        getAxis t n = { getAxis s n with waiting := 20, atTarget := false } ∧ axSteps t n 0x60 = v ∧ axesKept s t n)) ∧
    (∀ b, targetRefusal s n v = some b →
      completes (.targetWrite rq n hi) s (fun t =>
        t.motion = s.motion ∧ raised s t (pgAx n) b ∧ wordsKept [axA n 0x24] s t))) ∧
  (∀ (s : State) (rq : Requester) (n : Nat),
    (axisTakes s n 0 →
      completes (.stop rq n) s (fun t =>
        (getAxis t n).geared = false ∧ (getAxis t n).homing = 0 ∧ (getAxis t n).act = (getAxis s n).act ∧
          ((getAxis s n).qstop = false → (getAxis t n).waiting = 0 ∧
            ((getAxis s n).geared = false → (getAxis s n).v = 0 → (getAxis s n).a = 0 → (getAxis t n).plan = [])) ∧
          axesKept s t n ∧ onlyChanges [.motion] s t)) ∧
    (axisTakes s n 1 →
      completes (.qstop rq n) s (fun t =>
        (getAxis t n).geared = false ∧ (getAxis t n).homing = 0 ∧ (getAxis t n).plan = [] ∧ (getAxis t n).waiting = 0 ∧
          (getAxis t n).qstop = decide ((getAxis t n).v ≠ 0) ∧ (getAxis t n).act = (getAxis s n).act ∧
          axesKept s t n ∧ onlyChanges [.motion] s t))) ∧
  (∀ (s : State) (rq : Requester) (n bit : Nat) (c : Instr), n < 16 →
    (bit, c) ∈ [(0, .stop rq n), (1, .qstop rq n), (2, .home rq n), (3, .engage rq n), (4, .disengage rq n),
      (5, .setPos rq n), (6, .axisClrFault rq n)] → admitted s (axA n 0xD0) (2 ^ bit) → pgEn s (pgAx n) = false →
    completes c s (fun t => raised s t (pgAx n) 4 ∧ wordsKept [axA n 0x24] s t ∧ onlyChanges eventParts s t))

/-- Homing and limits (R392 to R396): HOME begins the search, or is refused, or stands at a limit; the edge of the home in the approach becomes HOME_OFS; a homing sequence out of time aborts with HOMING_FAIL and its fault, class
B; a limit that comes in motion stops the axis quickly and records AXIS_LIMIT, class B, one at rest is only counted, and a return to active before release is
chatter; in homing the limit that is the home ends its phase, the end limit of the search reverses it, and any other aborts. -/
def Obligations.HomingAndLimits : Prop :=
  (∀ (s : State) (rq : Requester) (n : Nat), axisTakes s n 2 →
    let x := getAxis s n
    let limit := if homePos s n then x.limP else x.limN
    let bad := x.geared = true ∨ homeMethod s n = 3 ∨ axMode s n ≠ 1 ∨ x.fault = true
    (bad → completes (.home rq n) s (fun t =>
      raised s t (pgAx n) 4 ∧ wordsKept [axA n 0x24] s t ∧ onlyChanges eventParts s t)) ∧
    (¬bad → limit = true → homeMethod s n ≠ 2 →
      completes (.home rq n) s (fun t =>
        raised s t (pgAx n) 11 ∧ wordsKept [axA n 0x24] s t ∧ onlyChanges eventParts s t)) ∧
    (¬bad → (limit = false ∨ homeMethod s n = 2) → (homeMethod s n = 1 ∨ homeActive s n = false) →
      completes (.home rq n) s (fun t =>
        (getAxis t n).homing = 1 ∧ (getAxis t n).homed = false ∧ (getAxis t n).act = x.act ∧ axesKept s t n ∧
          onlyChanges [.motion] s t)) ∧
    (¬bad → (limit = false ∨ homeMethod s n = 2) → homeMethod s n ≠ 1 → homeActive s n = true →
      completes (.home rq n) s (fun t =>
        (getAxis t n).homing ∈ [2, 3] ∧ (getAxis t n).homed = false ∧ (getAxis t n).act = x.act ∧
          axesKept s t n))) ∧
  (∀ (s : State) (n : Nat) (active : Bool) (back : Nat), n < 16 →
    let x := getAxis s n
    (x.homing = 0 ∨ homeMethod s n ≠ 0 →
      completes (.homeInput n active back) s (fun t =>
        getAxis t n = { x with homeIn := active } ∧ axesKept s t n ∧ onlyChanges [.motion] s t)) ∧
    (homeMethod s n = 0 → x.homing = 1 → x.homeRev = false → active = true →
      completes (.homeInput n active back) s (fun t => (getAxis t n).homing = 2 ∧ (getAxis t n).act = x.act ∧ axesKept s t n)) ∧
    (homeMethod s n = 0 → x.homing = 1 → x.homeRev = true → active = true →
      completes (.homeInput n active back) s (fun t =>
        getAxis t n = { x with homeIn := active, homing := 7 } ∧ axesKept s t n ∧ onlyChanges [.motion] s t)) ∧
    (homeMethod s n = 0 → x.homing = 7 → active = false →
      completes (.homeInput n active back) s (fun t => (getAxis t n).homing = 5 ∧ (getAxis t n).act = x.act ∧ axesKept s t n)) ∧
    (homeMethod s n = 0 → x.homing = 3 → active = false →
      completes (.homeInput n active back) s (fun t => (getAxis t n).homing = 4 ∧ (getAxis t n).act = x.act ∧ axesKept s t n)) ∧
    (homeMethod s n = 0 → x.homing = 5 → active = true →
      completes (.homeInput n active back) s (fun t =>
        let edge : Int := if homePos s n then x.act - back else x.act + back
        (getAxis t n).act = x.act + (axSteps s n 0xC4 - edge) ∧
          ((getAxis t n).homing = 6 ∨ (getAxis t n).homing = 0 ∧ (getAxis t n).homed = true) ∧ axesKept s t n))) ∧
  (∀ (s : State) (n : Nat), n < 16 →
    ((getAxis s n).homing = 0 → exec (.homeTimeout n) s = .next s) ∧
    ((getAxis s n).homing ≠ 0 →
      completes (.homeTimeout n) s (fun t =>
        (getAxis t n).homing = 0 ∧ (getAxis t n).plan = [] ∧ (evPend t (pgAx n)).testBit 15 = true ∧
          recorded s t 0x0B04 1 ∧ axesKept s t n))) ∧
  (∀ (s : State) (n : Nat) (pos : Bool), n < 16 →
    let x := getAxis s n
    (limitOf x pos = true →
      completes (.limitAssert n pos) s (fun t =>
        t.motion = s.motion ∧ raised s t (pgAx n) 12 ∧ counted s t (pgAx n) 4)) ∧
    (limitOf x pos = false → x.homing = 0 → Axis.busy x = false → x.geared = false →
      completes (.limitAssert n pos) s (fun t =>
        getAxis t n = setLimit x pos true ∧ counted s t (pgAx n) 3 ∧ axesKept s t n ∧
          onlyChanges [.counters, .motion] s t)) ∧
    (limitOf x pos = false → x.homing = 0 → (Axis.busy x = true ∨ x.geared = true) →
      completes (.limitAssert n pos) s (fun t =>
        limitOf (getAxis t n) pos = true ∧ (getAxis t n).geared = false ∧ (getAxis t n).plan = [] ∧
          (getAxis t n).qstop = decide ((getAxis t n).v ≠ 0) ∧ counted s t (pgAx n) 3 ∧
          (evPend t (pgAx n)).testBit 11 = true ∧ recorded s t 0x0B02 1 ∧ axesKept s t n)) ∧
    (limitOf x pos = false → x.homing ≠ 0 → (homeMethod s n ≠ 2 ∨ pos ≠ homePos s n) →
        ¬(x.homing = 1 ∧ x.homeRev = false ∧ pos = homePos s n) →
      completes (.limitAssert n pos) s (fun t =>
        (getAxis t n).homing = 0 ∧ (evPend t (pgAx n)).testBit 15 = true ∧ recorded s t 0x0B03 1 ∧ axesKept s t n)) ∧
    (limitOf x pos = false → x.homing = 1 → homeMethod s n = 2 → pos = homePos s n →
      completes (.limitAssert n pos) s (fun t =>
        (getAxis t n).homing = 2 ∧ limitOf (getAxis t n) pos = true ∧ (getAxis t n).act = x.act ∧
          counted s t (pgAx n) 3 ∧ axesKept s t n)) ∧
    (limitOf x pos = false → x.homing = 5 → homeMethod s n = 2 → pos = homePos s n →
      completes (.limitAssert n pos) s (fun t =>
        let back : Int := stepsSinceEdge s x
        (getAxis t n).act = axSteps s n 0xC4 + (if pos then back else -back) ∧ counted s t (pgAx n) 3 ∧
          axesKept s t n)) ∧
    (limitOf x pos = false → x.homing ≠ 0 → x.homing ≠ 1 → x.homing ≠ 5 → homeMethod s n = 2 → pos = homePos s n →
      completes (.limitAssert n pos) s (fun t =>
        getAxis t n = setLimit x pos true ∧ counted s t (pgAx n) 3 ∧ axesKept s t n ∧
          onlyChanges [.counters, .motion] s t)) ∧
    (limitOf x pos = false → x.homing = 1 → homeMethod s n ≠ 2 → x.homeRev = false → pos = homePos s n →
      completes (.limitAssert n pos) s (fun t =>
        ((getAxis t n).homing = 8 ∨ (getAxis t n).homing = 1 ∧ (getAxis t n).homeRev = true) ∧
          (getAxis t n).act = x.act ∧ counted s t (pgAx n) 3 ∧ axesKept s t n)) ∧
    (x.homing = 3 → homeMethod s n = 2 → pos = homePos s n →
      completes (.limitRelease n pos) s (fun t =>
        (getAxis t n).homing = 4 ∧ limitOf (getAxis t n) pos = false ∧ (getAxis t n).act = x.act ∧ axesKept s t n)) ∧
    (x.homing ≠ 3 →
      completes (.limitRelease n pos) s (fun t =>
        getAxis t n = setLimit x pos false ∧ axesKept s t n ∧ onlyChanges [.motion] s t)))

/-- Gearing, positions and stalls (R371, R388 to R391): ENGAGE latches the master's position and the axis's own and is refused for a moving axis, a master that is OFF or at a limit; the pending ratio applies from
MP on, and the geared position is the same at MP by the old and the new ratio; DISENGAGE ends gearing; SET_POS gives an axis at rest
the position HOME_OFS; clearing the fault returns the axis to idle; a stall is recorded, class B, and with STALL_ACT 0 discards what is scheduled; a unit that does not drive
the balls counts the pulses. -/
def Obligations.Gearing : Prop :=
  (∀ (s : State) (rq : Requester) (n : Nat), axisTakes s n 3 →
    let x := getAxis s n
    let c := axMaster s n
    let bad := (axMode s n ≠ 2 ∧ axMode s n ≠ 3) ∨ Axis.busy x = true ∧ x.geared = false ∨ posMode s c = 0 ∨ x.limP = true ∨
      x.limN = true ∨ x.fault = true
    (bad → completes (.engage rq n) s (fun t =>
      raised s t (pgAx n) 4 ∧ wordsKept [axA n 0x24] s t ∧ onlyChanges eventParts s t)) ∧
    (¬bad → completes (.engage rq n) s (fun t =>
      (getAxis t n).geared = true ∧ (getAxis t n).m0 = (getChan s c).pos ∧ (getAxis t n).p0 = x.cmd ∧
        (getAxis t n).pref = x.act ∧ (getAxis t n).act = x.act ∧ (getAxis t n).cmd = x.cmd ∧ axesKept s t n ∧
        onlyChanges [.motion] s t))) ∧
  (∀ (s : State) (rq : Requester) (n : Nat), axisTakes s n 4 →
    ((getAxis s n).geared = false → exec (.disengage rq n) s = .next s) ∧
    ((getAxis s n).geared = true →
      completes (.disengage rq n) s (fun t =>
        (getAxis t n).geared = false ∧ (getAxis t n).pend = false ∧ (getAxis t n).act = (getAxis s n).act ∧
          (getAxis t n).cmd = (getAxis s n).cmd ∧ axesKept s t n ∧ onlyChanges [.motion] s t))) ∧
  (∀ (s : State) (rq : Requester) (n : Nat), axisTakes s n 5 →
    let x := getAxis s n
    ((Axis.busy x = true ∨ x.geared = true ∨ x.homing ≠ 0) →
      completes (.setPos rq n) s (fun t =>
        raised s t (pgAx n) 4 ∧ wordsKept [axA n 0x24] s t ∧ onlyChanges eventParts s t)) ∧
    (Axis.busy x = false → x.geared = false → x.homing = 0 →
      completes (.setPos rq n) s (fun t =>
        let v := axSteps s n 0xC4
        (getAxis t n).act = v ∧ (getAxis t n).cmd = v * 65536 ∧ (getAxis t n).p = v * 2 ^ 48 ∧ (getAxis t n).target = v ∧
          (getAxis t n).pref = v ∧ axesKept s t n))) ∧
  (∀ (s : State) (rq : Requester) (n : Nat), axisTakes s n 6 →
    completes (.axisClrFault rq n) s (fun t =>
      getAxis t n = { getAxis s n with stalled := false, fault := false } ∧ axesKept s t n ∧ onlyChanges [.motion] s t)) ∧
  (∀ (s : State) (rq : Requester) (n : Nat) (hi : Word), n < 16 → admitted s (axA n 0x8C) hi.toNat →
    let u := store s (axA n 0x8C) hi.toNat
    let mp := signed 64 (rd64 u (axA n 0x88))
    let ch := getChan s (axMaster s n)
    ((if ch.reverse then mp < ch.pos else ch.pos < mp) →
      completes (.pendArm rq n hi) s (fun t =>
        getAxis t n = { getAxis s n with pend := true, mp := mp, pendBelow := decide (ch.pos < mp) } ∧ axesKept s t n)) ∧
    ((if ch.reverse then ch.pos ≤ mp else mp ≤ ch.pos) →
      completes (.pendArm rq n hi) s (fun t =>
        (getAxis t n).pend = false ∧ (evPend t (pgAx n)).testBit 17 = true ∧ (evPend t (pgAx n)).testBit 16 = true ∧
          rd64 t (axA n 0x78) = rd64 u (axA n 0x80) ∧ axesKept s t n))) ∧
  (∀ (s : State) (n : Nat), n < 16 →
    let x := getAxis s n
    let m := (getChan s (axMaster s n)).pos
    ((x.pend = false ∨ (if x.pendBelow then m < x.mp else x.mp < m)) → exec (.ratioApply n) s = .next s) ∧
    (x.pend = true → (if x.pendBelow then x.mp ≤ m else m ≤ x.mp) →
      completes (.ratioApply n) s (fun t =>
        (getAxis t n).pend = false ∧ raised s t (pgAx n) 16 ∧ counted s t (pgAx n) 7 ∧
          rd64 t (axA n 0x78) = rd64 s (axA n 0x80) ∧
          (x.geared = true →
            (getAxis t n).m0 = x.mp ∧ (getAxis t n).p0 = gearedCmd x.p0 x.m0 (axRatio s n) x.mp) ∧
          (x.geared = false → (getAxis t n).cmd = x.cmd) ∧ axesKept s t n))) ∧
  (∀ p0 m0 r r' m : Int, gearedCmd (gearedCmd p0 m0 r m) m r' m = gearedCmd p0 m0 r m ∧ gearedCmd p0 m0 r m0 = p0) ∧
  (∀ (s : State) (n : Nat), n < 16 →
    let x := getAxis s n
    let stall := rdb s (axA n 0x40) 15 = true ∧ rdf s (axA n 0x94) 15 0 < (axDev s n).natAbs ∧ x.stalled = false
    (¬stall → exec (.stall n) s = .next s) ∧
    (stall →
      completes (.stall n) s (fun t =>
        (getAxis t n).stalled = true ∧ (getAxis t n).act = x.act ∧ (evPend t (pgAx n)).testBit 13 = true ∧
          counted s t (pgAx n) 5 ∧ recorded s t 0x0B01 1 ∧ axesKept s t n ∧
          (rdb s (axA n 0x40) 6 = false →
            (getAxis t n).plan = [] ∧ (getAxis t n).geared = false ∧ (getAxis t n).sched = 0 ∧ (getAxis t n).v = 0 ∧
              (getAxis t n).cmd = x.act * 65536 ∧
              (getAxis t n).fault = true) ∧
          (rdb s (axA n 0x40) 6 = true → getAxis t n = { x with stalled := true })))) ∧
  (∀ (s : State) (n : Nat) (d : Bool), n < 16 →
    (drivesShared s = true → exec (.sharedStepPulse n d) s = .next s) ∧
    (drivesShared s = false →
      completes (.sharedStepPulse n d) s (fun t =>
        (getAxis t n).counted = (getAxis s n).counted + (if d = rdb s (axA n 0x40) 3 then -1 else 1) ∧
          (getAxis t n).act = (getAxis s n).act ∧ axesKept s t n ∧ onlyChanges [.motion] s t)))

/-- R386: with SOFT_EN a target below SOFT_MIN or above SOFT_MAX that an axis of PROFILE mode can otherwise be given is refused with
SOFT_LIMIT, and the axis keeps its present move. -/
def Obligations.SoftLimits : Prop :=
  ∀ (s : State) (rq : Requester) (n : Nat) (hi : Word), n < 16 → admitted s (axA n 0x64) hi.toNat →
    axMode s n = 1 → pgEn s (pgAx n) = true → (getAxis s n).fault = false → (getAxis s n).homing = 0 →
    rdb s (axA n 0x40) 7 = true →
    let v := signed 48 (heldLow s (axA n 0x60) + 2 ^ 32 * (hi.toNat % 65536))
    (v < axSteps s n 0xA0 ∨ axSteps s n 0xA8 < v) →
    completes (.targetWrite rq n hi) s (fun t =>
      t.motion = s.motion ∧ raised s t (pgAx n) 10 ∧ wordsKept [axA n 0x24] s t ∧ onlyChanges (.held :: eventParts) s t)

/-- Compare units (R397 to R401): arming stores the value, arms the unit when the value lies ahead, and is refused when the source is
off or the unit belongs to a strobe or mark; an armed unit fires when its source has reached the value: FIRED, the latch time and
the event, and it disarms, or in REPEAT mode arms again with a value that lies ahead. -/
def Obligations.CompareUnits : Prop :=
  (∀ (s : State) (rq : Requester) (k : Nat) (hi : Word), k < 32 → admitted s (cmpA k 0xC) hi.toNat →
    let u := store s (cmpA k 0xC) hi.toNat
    let v := signed 64 (rd64 u (cmpA k 8))
    (cmpHeld s rq k = true →
      completes (.compareArm rq k hi) s (fun t =>
        t.motion = s.motion ∧ raised s t pgCmp 4 ∧ wordsKept [ra pgCmp 0x24] s t)) ∧
    (cmpHeld s rq k = false → (cmpOn s k = false ∨ cmpMode s k = 2) → exec (.compareArm rq k hi) s = .next u) ∧
    (cmpHeld s rq k = false → cmpOn s k = true → cmpMode s k ≠ 2 →
      (cmpSrcOff s k = true →
        completes (.compareArm rq k hi) s (fun t => t.motion = s.motion ∧ raised s t pgCmp 4)) ∧
      (cmpSrcOff s k = false → cmpReached s k (cmpNeg s k) v = false →
        completes (.compareArm rq k hi) s (fun t =>
          getCmp t k = { armed := true, neg := cmpNeg s k, value := v, passed := false } ∧
            (∀ i, i ≠ k → getCmp t i = getCmp s i) ∧ rdb t (cmpA k 0x18) 0 = true)))) ∧
  (∀ (s : State) (k : Nat), k < 32 →
    let c := getCmp s k
    (c.armed = false ∨ cmpReached s k c.neg c.value = false → exec (.compareFire k) s = .next s) ∧
    (c.armed = true → cmpReached s k c.neg c.value = true →
      completes (.compareFire k) s (fun t =>
        (rd t (ra pgCmp 0x540)).testBit k = true ∧ (evPend t pgCmp).testBit 8 = true ∧ counted s t pgCmp k ∧
          rd64 t (ra pgCmp (0x440 + 8 * k)) = cmpLatch s k % 2 ^ 64 ∧
          (bitOf (cmpCfg s k) 8 = true → drivesShared s = true →
            .trig (field (cmpCfg s k) 3 0) (bitOf (cmpCfg s k) 9) (10 * rdf s (cmpA k 4) 15 0) ∈ t.out) ∧
          (cmpMode s k ≠ 1 → getCmp t k = { c with armed := false }) ∧
          (cmpMode s k = 1 → 0 < cmpPeriod s k →
            (getCmp t k).armed = true ∧ cmpReached t k c.neg (getCmp t k).value = false ∧
              ∃ n : Nat, 1 ≤ n ∧ (getCmp t k).value =
                (if c.neg then c.value - n * cmpPeriod s k else c.value + n * cmpPeriod s k)) ∧
          (∀ i, i ≠ k → getCmp t i = getCmp s i))))

/-- R398: a value that is behind at the arm sets the unit's bit in PASSED and raises COMPARE_PASSED, and the unit does not arm;
with LATE_FIRE it also fires, once. A unit of MODE REPEAT that fires here arms again, as R399 says of every firing. -/
def Obligations.CompareBehind : Prop :=
  ∀ (s : State) (rq : Requester) (k : Nat) (hi : Word), k < 32 → admitted s (cmpA k 0xC) hi.toNat →
    cmpHeld s rq k = false → cmpOn s k = true → cmpMode s k ≠ 2 → cmpSrcOff s k = false →
    let u := store s (cmpA k 0xC) hi.toNat
    let v := signed 64 (rd64 u (cmpA k 8))
    cmpReached s k (cmpNeg s k) v = true →
    (bitOf (cmpCfg s k) 30 = false →
      completes (.compareArm rq k hi) s (fun t =>
        getCmp t k = { armed := false, neg := cmpNeg s k, value := v, passed := true } ∧
          (∀ i, i ≠ k → getCmp t i = getCmp s i) ∧ (rd t (ra pgCmp 0x544)).testBit k = true ∧ raised s t pgCmp 9 ∧
          rd t (ra pgCmp 0x540) = rd s (ra pgCmp 0x540) ∧ counter t pgCmp k = counter s pgCmp k)) ∧
    (bitOf (cmpCfg s k) 30 = true →
      completes (.compareArm rq k hi) s (fun t =>
        (rd t (ra pgCmp 0x544)).testBit k = true ∧ (evPend t pgCmp).testBit 9 = true ∧
          (rd t (ra pgCmp 0x540)).testBit k = true ∧ (evPend t pgCmp).testBit 8 = true ∧ counted s t pgCmp k ∧
          (cmpMode s k ≠ 1 → (getCmp t k).armed = false) ∧ (∀ i, i ≠ k → getCmp t i = getCmp s i)))

/-! ### Events and interrupts (14) -/

/-- GPIO edges, the set and clear arrays and SRCCFG (R403 to R406, R416): an accepted level is kept, and an edge that an input's SENSE selects sets P; each bit written sets
or clears its own source's P or EN and no other bit, with level sources unaffected by PEND writes and locked sources refused; SRCCFG
of a source is written or refused as a whole; while the flag of target 4 stays set the EVENT messages are sent again (R414). -/
def Obligations.EventSources : Prop :=
  (∀ (s : State) (n : Nat) (level : Bool), n < 32 →
    completes (.gpioEdge n level) s (fun t =>
      let k := senseOf s (0x20 + n)
      bitOf t.evc.gpio n = level ∧ (∀ i, i ≠ n → bitOf t.evc.gpio i = bitOf s.evc.gpio i) ∧ t.evc.active = s.evc.active ∧
        t.evc.en = s.evc.en ∧ (∀ i, i ≠ 0x20 + n → bitOf t.evc.pend i = bitOf s.evc.pend i) ∧
        (gpioInput s n = true → bitOf s.evc.gpio n ≠ level → (k = 4 ∨ k = 2 ∧ level = true ∨ k = 3 ∧ level = false) →
          bitOf t.evc.pend (0x20 + n) = true) ∧
        (gpioInput s n = false ∨ bitOf s.evc.gpio n = level ∨ k < 2 ∨ k = 2 ∧ level = false ∨ k = 3 ∧ level = true →
          t.evc.pend = s.evc.pend))) ∧
  (∀ (s : State) (rq : Requester) (w : Nat) (val : Word), w < 16 →
    let takes (i src : Nat) : Prop :=
      src = 32 * w + i ∧ i < 32 ∧ val.getLsbD i = true ∧ sourceExists src = true ∧ lockedFor s rq src = false
    let locked := writesLocked s rq w val = true
    (admitted s (ra pgEvc (0xC0 + 4 * w)) val.toNat →
      completes (.pendSet rq w val) s (fun t =>
        t.evc.en = s.evc.en ∧ t.evc.active = s.evc.active ∧ (locked → (evPend t pgEvc).testBit 4 = true) ∧
          (∀ i src, takes i src → levelSource s src = false → bitOf t.evc.pend src = true) ∧
          (∀ src, (¬∃ i, takes i src) ∨ levelSource s src = true → bitOf t.evc.pend src = bitOf s.evc.pend src))) ∧
    (admitted s (ra pgEvc (0x100 + 4 * w)) val.toNat →
      completes (.pendClr rq w val) s (fun t =>
        t.evc.en = s.evc.en ∧ t.evc.active = s.evc.active ∧ (locked → (evPend t pgEvc).testBit 4 = true) ∧
          (∀ i src, takes i src → levelSource s src = false → bitOf t.evc.pend src = false) ∧
          (∀ src, (¬∃ i, takes i src) ∨ levelSource s src = true → bitOf t.evc.pend src = bitOf s.evc.pend src))) ∧
    (admitted s (ra pgEvc (0x180 + 4 * w)) val.toNat →
      completes (.enSet rq w val) s (fun t =>
        t.evc.pend = s.evc.pend ∧ t.evc.active = s.evc.active ∧ (locked → (evPend t pgEvc).testBit 4 = true) ∧
          (∀ i src, takes i src → bitOf t.evc.en src = true) ∧
          (∀ src, (¬∃ i, takes i src) → bitOf t.evc.en src = bitOf s.evc.en src))) ∧
    (admitted s (ra pgEvc (0x1C0 + 4 * w)) val.toNat →
      completes (.enClr rq w val) s (fun t =>
        t.evc.pend = s.evc.pend ∧ t.evc.active = s.evc.active ∧ (locked → (evPend t pgEvc).testBit 4 = true) ∧
          (∀ i src, takes i src → bitOf t.evc.en src = false) ∧
          (∀ src, (¬∃ i, takes i src) → bitOf t.evc.en src = bitOf s.evc.en src)))) ∧
  (∀ (s : State) (rq : Requester) (src : Nat) (v : Word), src < 512 →
    (sourceExists src = false → exec (.srccfgWrite rq src v) s = .next s) ∧
    (sourceExists src = true → pgClkOn s pgEvc = true →
      (srccfgRefused s rq src v.toNat = true →
        completes (.srccfgWrite rq src v) s (fun t =>
          raised s t pgEvc 4 ∧ wordsKept [ra pgEvc 0x24] s t ∧ onlyChanges eventParts s t)) ∧
      (srccfgRefused s rq src v.toNat = false →
        completes (.srccfgWrite rq src v) s (fun t =>
          rd t (srccfgAddr src) = srccfgNext s src v.toNat ∧ targetOf t src = field v.toNat 10 8 ∧
            prioOf t src = field v.toNat 7 4 ∧ wordsKept [srccfgAddr src] s t ∧ onlyChanges eventParts s t)))) ∧
  (∀ s : State,
    (flagOf s 4 = false ∨ rdb s (ra pgEvc 0x244) 10 = false → exec .evmsgRepeat s = .next s) ∧
    (flagOf s 4 = true → rdb s (ra pgEvc 0x244) 10 = true →
      completes .evmsgRepeat s (fun t =>
        t = sendEvents s ∧ t.evc = s.evc ∧ s.out <+: t.out ∧ onlyChanges [.counters, .host, .out] s t)))

/-- R407: a source is eligible for its target when P = 1, A = 0, its EN bit is 1 and its PRIO is at least THRESH; the best source
is an eligible one of the highest priority, of equal priorities the one with the lowest number; there is none exactly when no source is
eligible; a read of TOP shows it and its priority and changes nothing. -/
def Obligations.BestSource : Prop :=
  (∀ (s : State) (g src : Nat),
    eligible s g src = true ↔
      targetOf s src = g ∧ pendOf s src = true ∧ bitOf s.evc.active src = false ∧ bitOf s.evc.en src = true ∧
        threshOf s g ≤ prioOf s src) ∧
  (∀ (s : State) (g : Nat), bestSource s g ≠ 0 →
    bestSource s g < 512 ∧ eligible s g (bestSource s g) = true ∧
      ∀ src, src < 512 → src ≠ 0 → eligible s g src = true →
        prioOf s src < prioOf s (bestSource s g) ∨
          prioOf s src = prioOf s (bestSource s g) ∧ bestSource s g ≤ src) ∧
  (∀ (s : State) (g src : Nat), bestSource s g = 0 → src < 512 → src ≠ 0 → eligible s g src = false) ∧
  (∀ (s : State) (rq : Requester) (g : Nat), g < 5 → pgClkOn s (pgEvc + 3) = true →
    let top := readReg s rq (ra (pgEvc + 3) (0x4C + 0x10 * g))
    top.2 = s ∧ field top.1 8 0 = bestSource s g ∧
      field top.1 19 16 = (if bestSource s g = 0 then 0 else prioOf s (bestSource s g)) ∧
      bitOf top.1 24 = flagOf s g)

/-- R408: a claim by a requester of the target returns the best source, sets its A and clears its P, and no other source's; with none
eligible it returns 0, changes no source and is counted as spurious; a claim by any other requester, or without the block's
clock, returns 0 and has no effect. Control core t alone serves target t, the PCIe function and the sessions serve target 4. -/
def Obligations.Claims : Prop :=
  (∀ (n g : Nat), n < 4 → g < 5 → (serves (.core n) g = true ↔ g = n)) ∧
  (∀ (n g : Nat), g < 5 → (serves .pcie g = true ↔ g = 4) ∧ (serves (.session n) g = true ↔ g = 4)) ∧
  (∀ (s : State) (rq : Requester) (g : Nat),
    let answer (t : State) : Word := tget (fun _ => 0#32) t.lastRead (rqKey rq)
    let b := bestSource s g
    (5 ≤ g ∨ serves rq g = false ∨ pgClkOn s pgEvc = false →
      completes (.claim rq g) s (fun t => answer t = 0#32 ∧ onlyChanges [.lastRead] s t)) ∧
    (g < 5 → serves rq g = true → pgClkOn s pgEvc = true → b ≠ 0 →
      completes (.claim rq g) s (fun t =>
        answer t = BitVec.ofNat 32 b ∧ bitOf t.evc.active b = true ∧ bitOf t.evc.pend b = false ∧ pendOf t b = false ∧
          (∀ i, i ≠ b → bitOf t.evc.active i = bitOf s.evc.active i ∧ bitOf t.evc.pend i = bitOf s.evc.pend i) ∧
          t.evc.en = s.evc.en ∧ counted s t pgEvc (4 * g) ∧ flagOf t g = decide (bestSource t g ≠ 0))) ∧
    (g < 5 → serves rq g = true → pgClkOn s pgEvc = true → b = 0 →
      completes (.claim rq g) s (fun t =>
        answer t = 0#32 ∧ t.evc.active = s.evc.active ∧ t.evc.pend = s.evc.pend ∧ t.evc.en = s.evc.en ∧
          flagOf t g = false ∧ counted s t pgEvc (4 * g + 1) ∧ countersKept pgEvc (4 * g + 1) s t ∧ wordsKept [] s t)))

/-- R409: a completion by a requester of the target, of a source that is routed to the target and has A = 1, clears its A, and a level
source is then pending exactly if its level is still asserted, while an edge source keeps its P; any other completion
changes no source, is counted and sets BAD_COMPLETE. -/
def Obligations.Completions : Prop :=
  ∀ (s : State) (rq : Requester) (g src : Nat), src < 512 →
    (5 ≤ g → exec (.complete rq g src) s = .next s) ∧
    (g < 5 → admitted s (ra (pgEvc + 3) (0x44 + 0x10 * g)) src →
      (serves rq g = true → targetOf s src = g → bitOf s.evc.active src = true →
        completes (.complete rq g src) s (fun t =>
          bitOf t.evc.active src = false ∧ (∀ i, i ≠ src → bitOf t.evc.active i = bitOf s.evc.active i) ∧
            ((levelSource s src = true ∨ 0x100 ≤ src) → sourceExists src = true → pendOf t src = asserted t src) ∧
            t.evc.pend = s.evc.pend ∧ t.evc.en = s.evc.en ∧ counted s t pgEvc (4 * g + 2))) ∧
      (serves rq g = false ∨ targetOf s src ≠ g ∨ bitOf s.evc.active src = false →
        completes (.complete rq g src) s (fun t =>
          t.evc.active = s.evc.active ∧ t.evc.pend = s.evc.pend ∧ raised s t pgEvc 8 ∧
            counted s t pgEvc (4 * g + 3))))

/-! ### Power states, clocks, thermal control and monitors (15) -/

/-- Doze, Deep and the wake from them (R418, R420 to R426, R428): a request in Run or Ready is refused by R420, or takes the unit to its state with image memory in self-refresh, Deep with every
session closed; an enabled wake event in either begins the wake with its cause, and further ones are only counted; a Doze wake that ends serves
image memory again with WAKE_DONE, a Deep wake with a sound record is Ready, one without boots from the flash; a missed crystal edge changes to the RC clock with its record,
class B, until the crystal is good. -/
def Obligations.PowerStates : Prop :=
  (∀ (s : State) (rq : Requester) (deep : Bool), admitted s (clkA 0x40) (if deep then 3 else 2) →
    let c : Instr := if deep then .pstateDeep rq else .pstateDoze rq
    (2 ≤ s.power.pstate → exec c s = .next s) ∧
    (s.power.pstate < 2 → powerRefused s deep = true →
      completes c s (fun t => raised s t pgClk 4 ∧ wordsKept [clkA 0x24] s t ∧ onlyChanges eventParts s t)) ∧
    (s.power.pstate < 2 → powerRefused s deep = false →
      completes c s (fun t =>
        t.power.pstate = (if deep then 5 else 3) ∧ t.power.camPll = false ∧ (∀ k, k < 8 → subState t k = 2) ∧
          counted s t pgClk (if deep then 2 else 0) ∧ t.dram.mem = s.dram.mem ∧
          (deep = true → t.host.sessions = [] ∧ t.power.resume = true) ∧ t.host.journal = s.host.journal))) ∧
  (∀ (s : State) (cause pin : Nat),
    (s.power.pstate = 4 → wakeEnabled s cause pin = true →
      completes (.wake cause pin) s (fun t => counted s t pgClk 1 ∧ onlyChanges [.counters] s t)) ∧
    ((s.power.pstate = 3 ∨ s.power.pstate = 5) → wakeEnabled s cause pin = true →
      completes (.wake cause pin) s (fun t =>
        t.power = { s.power with pstate := 4, waking := decide (s.power.pstate = 5) } ∧
          rdf t (clkA 0x50) 3 0 = cause % 16 ∧ wordsKept [clkA 0x50] s t ∧ onlyChanges [.regs, .power] s t)) ∧
    ((s.power.pstate < 3 ∨ wakeEnabled s cause pin = false) →
      exec (.wake cause pin) s = .next s)) ∧
  (∀ (s : State) (ok : Bool),
    (s.power.pstate ≠ 4 → exec (.wakeDone ok) s = .next s) ∧
    (s.power.pstate = 4 → s.power.waking = false → s.host.heldWrites = [] →
      completes (.wakeDone ok) s (fun t =>
        t.power.pstate = 1 ∧ (∀ k, k < 8 → subState t k = 1) ∧ (evPend t pgClk).testBit 8 = true ∧
          (∀ a, memoryCanonical s → a < trainBase s → memByte t.dram.mem a = memByte s.dram.mem a) ∧
          t.host.journal = s.host.journal)) ∧
    (s.power.pstate = 4 → s.power.waking = true → (ok && s.power.resume) = true →
      completes (.wakeDone ok) s (fun t =>
        t.sys.bootState = 5 ∧ t.power.pstate = 1 ∧ (evPend t pgClk).testBit 8 = true ∧
          ∀ a, memoryCanonical s → a < 2 ^ 34 - 2 ^ 18 → memByte t.dram.mem a = memByte s.dram.mem a)) ∧
    (s.power.pstate = 4 → s.power.waking = true → (ok && s.power.resume) = false →
      completes (.wakeDone ok) s (fun t =>
        t.sys.bootState = 0 ∧ t.sys.cause = 5 ∧ rd t (ra pgSys 0x50) = 5 ∧ (0x0C02, 0) ∈ t.sys.lateFaults ∧
          t.dram.mem = s.dram.mem))) ∧
  (∀ s : State,
    (s.power.rc = true → exec .xtalFail s = .next s) ∧
    (s.power.rc = false →
      completes .xtalFail s (fun t =>
        t.power = { s.power with rc := true } ∧ (evPend t pgClk).testBit 10 = true ∧ recorded s t 0x0C01 1)) ∧
    completes .xtalRestore s (fun t => t.power = { s.power with rc := false } ∧ onlyChanges [.power] s t) ∧
    (cameraClock s = true → exec .cameraPllStop s = .next s) ∧
    (cameraClock s = false →
      completes .cameraPllStop s (fun t =>
        t.power = { s.power with camPll := false } ∧ (∀ p, 0xB0 ≤ p → p ≤ 0xB4 → rdb t (ra p 0x14) 1 = false) ∧
          onlyChanges [.regs, .power] s t)))

/-- Temperatures (R434, R435, R438 to R440): a measurement leaves Tmax at the largest on-die value in use and the level at most one higher, or at 7 when Tmax has reached STOP, which stops
every bar  and begins the stop; a reading at TRIP stops the unit in reset with SLOW_REQ; the stop ends with the engines stopped and THERMAL_STOP raised, class C, or D for a unit whose partner can go on; CLR_STOP is refused until Tmax is 10 degrees
below STOP; a tripped unit starts again when every sensor is below 100 degrees. -/
def ThermalRule : Prop :=
  (∀ (s : State) (rs : List TempReading),
    (s.power.tripped = true ∨ s.sys.inReset = true → exec (.tempMeasurement rs) s = .next s) ∧
    (s.power.tripped = false → s.sys.inReset = false →
      (∀ c, tripping (if s.power.pstate = 5 then s else setPower s { s.power with tripNs := ptTotalNs s, tripPos := webPos s (refBar s) })
            (conversions s rs) = some c →
        completes (.tempMeasurement rs) s (fun t =>
          t.power.tripped = true ∧ t.sys.inReset = true ∧ t.links.slowReq = true ∧ t.power.tripSensor = c.sensor ∧
            t.power.tripValue = c.value ∧ t.dram.mem = [] ∧ (∀ b, printing t b = false))) ∧
      (tripping (if s.power.pstate = 5 then s else setPower s { s.power with tripNs := ptTotalNs s, tripPos := webPos s (refBar s) })
            (conversions s rs) = none →
        (s.power.pstate = 5 →
          completes (.tempMeasurement rs) s (fun t =>
            t.power = { s.power with trimPast := t.power.trimPast } ∧ onlyChanges [.power] s t)) ∧
        (s.power.pstate ≠ 5 →
          completes (.tempMeasurement rs) s (fun t =>
            t.power.tmaxSensor < 16 ∧ t.power.tmax = (getSensor t t.power.tmaxSensor).value ∧
              (∀ n, n < 16 → (getSensor t n).value ≤ t.power.tmax) ∧ counted s t pgThm 0 ∧
              (t.power.level ≤ s.power.level + 1 ∨ t.power.level = 7) ∧
              (s.power.stop = 0 → stopAt s ≤ t.power.tmax →
                t.power.stop = 1 ∧ t.power.level = 7 ∧ (∀ b, b < 8 → printing t b = false)) ∧
              (s.power.stop = 0 → t.power.tmax < stopAt s → t.power.stop = 0)))))) ∧
  (∀ s : State,
    (s.power.hold = false ∨ (getSensor s s.power.holdSensor).failed = false → exec .holdExpiry s = .next s) ∧
    (s.power.hold = true → (getSensor s s.power.holdSensor).failed = true →
      completes .holdExpiry s (fun t => t.power = { s.power with hold := false } ∧ onlyChanges [.power] s t)) ∧
    (s.power.stop ≠ 1 → exec .thermalStopDone s = .next s) ∧
    (s.power.stop = 1 → (∀ b, b < 8 → barStopping s b = false) →
      completes .thermalStopDone s (fun t =>
        t.power = { s.power with stop := 2 } ∧ t.print.engines = [] ∧ t.print.thawQueue = [] ∧
          (evPend t pgThm).testBit 9 = true ∧
          recorded s t 0x0C06
            (if pairMode s && (s.pair.peerRole == 2 || s.pair.peerRole == 5) then 3 else 2)))) ∧
  (∀ (s : State) (rq : Requester), admitted s (thmA 0x54) 1 →
    (stopAt s - 160 ≤ s.power.tmax →
      completes (.clrStop rq) s (fun t => raised s t pgThm 4 ∧ wordsKept [thmA 0x24] s t ∧ onlyChanges eventParts s t)) ∧
    (s.power.tmax < stopAt s - 160 →
      completes (.clrStop rq) s (fun t => t.power = { s.power with stop := 0 }))) ∧
  (∀ (s : State) (ts : List Int),
    (s.power.tripped = false ∨ ts.length < 16 ∨
        (∃ x ∈ (ts.take 16).zipIdx, 1600 ≤ (convert s { sensor := x.2, value := x.1 }).1) →
      exec (.tripRestart ts) s = .next s) ∧
    (s.power.tripped = true → 16 ≤ ts.length → (∀ x ∈ (ts.take 16).zipIdx, (convert s { sensor := x.2, value := x.1 }).1 < 1600) →
      completes (.tripRestart ts) s (fun t =>
        t.power = { s.power with tripped := false } ∧ t.sys.bootState = 0 ∧ t.sys.cause = 4 ∧ t.sys.inReset = false ∧
          t.sys.memLost = true ∧ (0x0C07, s.power.tripSensor) ∈ t.sys.lateFaults ∧ onlyChanges [.regs, .power, .sys] s t)))

/-- Supply and process monitors and the regulator (R443 to R447): a conversion shows its value and counts every reading outside the warning limits; ring counts are shown, and AVS moves the
core voltage by at most 5 mV; a transaction that fails is tried again twice, and the third failure is recorded, class B, and holds the voltage; a
READ_VOUT off by more than 10 mV is such a failure. -/
def MonitorsRule : Prop :=
  (∀ (s : State) (mv : List Nat) (ap : Nat),
    (monitoring s = false → exec (.voltageConversion ⟨mv, ap⟩) s = .next s) ∧
    (monitoring s = true →
      let value (c v : Nat) : Prop := c < 12 ∧ (mv.map (adcValue s ap))[c]? = some v
      completes (.voltageConversion ⟨mv, ap⟩) s (fun t =>
        (∀ c v, value c v → rd t (monA (0x40 + 4 * c)) = v % 2 ^ 16) ∧
          (∀ c v, value c v → within (rd s (monA (0x80 + 4 * c))) v = false → counted s t pgMon c) ∧
          (∀ c v, value c v → within (rd s (monA (0xC0 + 4 * c))) v = true → (getRail t c).crit = 0) ∧
          (∀ c v, value c v → within (rd s (monA (0xC0 + 4 * c))) v = false → (getRail s c).crit = 1 →
            (getRail s c).critical = false → (getRail t c).critical = true ∧ (evPend t pgMon).testBit 9 = true ∧
              t.sys.stopped = true) ∧
          t.power.pstate = s.power.pstate))) ∧
  (∀ (s : State) (cs : List Nat),
    (monitoring s = false ∨ cs.length ≠ 8 → exec (.roCount cs) s = .next s) ∧
    (monitoring s = true → cs.length = 8 →
      completes (.roCount cs) s (fun t =>
        (∀ c v, c < 8 → cs[c]? = some v → rd t (monA (0x100 + 4 * c)) = v % 2 ^ 20) ∧
          ((rdb s (monA 0x120) 31 = false ∨ dozing s = true ∨ s.power.avsHeld = true ∨ modeOk s.power.voutMode = false) →
            vcore t = vcore s) ∧
          vcore t ≤ vcore s + 5 ∧ vcore s ≤ vcore t + 5))) ∧
  (∀ (s : State) (cmd : Nat),
    (∀ r, monitoring s = false → exec (.pmbusTransaction cmd r) s = .next s) ∧
    (monitoring s = true →
      (s.power.pmbFails < 2 →
        completes (.pmbusTransaction cmd .failed) s (fun t =>
          t.power = { s.power with pmbFails := s.power.pmbFails + 1 } ∧ counted s t pgMon 12 ∧
            sends s t [.pmbus cmd (pmbValue s cmd)] ∧ onlyChanges [.regs, .counters, .power, .out] s t)) ∧
      (2 ≤ s.power.pmbFails →
        completes (.pmbusTransaction cmd .failed) s (fun t =>
          t.power = { s.power with pmbFails := 0, avsHeld := true, voutRetry := false } ∧ rdb t (monA 0x134) 17 = true ∧
            (evPend t pgMon).testBit 11 = true ∧ recorded s t 0x0C0B 1)) ∧
      (∀ mode reading : Nat, cmd = 0x8B →
        let mv := (roundHalfUp (1000 * reading) (2 ^ modeExp s.power.voutMode)).toNat
        (s.power.voutRetry = false ∨ ((mv : Int) - vcore s).natAbs ≤ 10) →
        completes (.pmbusTransaction cmd (.ok mode reading)) s (fun t =>
          t.power = { s.power with pmbFails := 0, avsHeld := false, voutRetry := false } ∧ rdf t (monA 0x134) 17 16 = 0 ∧
            rd t (monA 0x138) = mv % 2 ^ 16 ∧ wordsKept [monA 0x134, monA 0x138] s t ∧ onlyChanges [.regs, .power] s t)) ∧
      (∀ mode reading, cmd = 0x20 →
        completes (.pmbusTransaction cmd (.ok mode reading)) s (fun t =>
          t.power = { s.power with pmbFails := 0, avsHeld := false, voutMode := mode % 256 } ∧
            (modeOk (mode % 256) = false → recorded s t 0x0C0B 1)))) ) ∧
  (∀ (s : State) (mv : Nat),
    (monitoring s = false → exec (.voutCheck mv) s = .next s) ∧
    (monitoring s = true → ((mv : Int) - vcore s).natAbs ≤ 10 →
      completes (.voutCheck mv) s (fun t =>
        rd t (monA 0x138) = mv % 2 ^ 16 ∧
          t.power = { s.power with pmbFails := 0, avsHeld := false, voutRetry := false } ∧
          onlyChanges [.regs, .power] s t)) ∧
    (monitoring s = true → 10 < ((mv : Int) - vcore s).natAbs → s.power.pmbFails < 2 →
      completes (.voutCheck mv) s (fun t =>
        rd t (monA 0x138) = mv % 2 ^ 16 ∧
          t.power = { s.power with pmbFails := s.power.pmbFails + 1, voutRetry := true } ∧
          counted s t pgMon 12)) ∧
    (monitoring s = true → 10 < ((mv : Int) - vcore s).natAbs → 2 ≤ s.power.pmbFails →
      completes (.voutCheck mv) s (fun t => t.power.avsHeld = true ∧ recorded s t 0x0C0B 1)))

/-- Temperatures, supplies, ring oscillators and the regulator (R434, R435, R438 to R440, R443 to R447). -/
def Obligations.ThermalAndMonitors : Prop := ThermalRule ∧ MonitorsRule

/-! ### Self-calibration (16) -/

/-- The trim groups (R450 to R456): CAL of a group makes it BUSY and is refused while it may not run; a calibration within codes and limits leaves live and staging equal and raises CAL_DONE; one that leaves a field or the
limit, or runs out of its bound, leaves the live codes as they were with staging equal to them, FAIL with its reason and TRIM_FAIL, class B, with the group, the entry and the
reason; APPLY copies staging to the live codes or fails by the limit; RELOAD returns staging to the factory
codes. -/
def Obligations.TrimGroups : Prop :=
  (∀ (s : State) (rq : Requester) (g : Nat), g < 6 →
    (admitted s (trimA 0x40) (0x100 + g) →
      (trimRefused s g = true →
        completes (.cal rq g) s (fun t => raised s t pgTrim 4 ∧ wordsKept [trimA 0x24] s t ∧ onlyChanges eventParts s t)) ∧
      (trimRefused s g = false →
        completes (.cal rq g) s (fun t =>
          trimBusy t g = true ∧ counted s t pgTrim 0 ∧ wordsKept [trimA 0x44] s t ∧ onlyChanges [.regs, .counters] s t))) ∧
    (admitted s (trimA 0x40) (0x200 + g) →
      (trimRefused s g = true →
        completes (.apply rq g) s (fun t => raised s t pgTrim 4 ∧ wordsKept [trimA 0x24] s t ∧ onlyChanges eventParts s t)) ∧
      (trimRefused s g = false → trimOff s g (trimWords g (trimStaging s g)) = none →
        completes (.apply rq g) s (fun t =>
          (∀ i, i < trimCount g → trimLive t g i = trimStaging s g i ∧ trimStaging t g i = trimStaging s g i) ∧
            rdb t (trimA 0x44) (8 + g) = false ∧ raised s t pgTrim 9 ∧ counted s t pgTrim 1)) ∧
      (∀ i, trimRefused s g = false → trimOff s g (trimWords g (trimStaging s g)) = some i →
        completes (.apply rq g) s (fun t =>
          (∀ i, i < trimCount g → trimLive t g i = trimLive s g i) ∧ rdb t (trimA 0x44) (8 + g) = true ∧
            rdf t (trimA 0x44) 7 4 = 2 ∧ recorded s t 0x0D01 1 ∧
            (t.sys.ramLog.getLast?).map (fun r => r.detail) = some [g, i, 2, 0]))) ∧
    (admitted s (trimA 0x40) (0x400 + g) →
      (trimBusy s g = true →
        completes (.reload rq g) s (fun t => raised s t pgTrim 4 ∧ wordsKept [trimA 0x24] s t ∧ onlyChanges eventParts s t)) ∧
      (trimBusy s g = false →
        completes (.reload rq g) s (fun t =>
          (∀ i, i < trimCount g → trimStaging t g i = trimFact s g i ∧ trimLive t g i = trimLive s g i) ∧
            onlyChanges [.regs] s t)))) ∧
  (∀ (s : State) (g e : Nat) (cs : List Int),
    ((5 < g ∨ trimBusy s g = false) → exec (.calDone g cs) s = .next s ∧ exec (.calibrationBound ⟨g, e⟩) s = .next s) ∧
    (g < 6 → trimBusy s g = true →
      let unfit := (List.range (trimCount g)).any (fun i => (newCodes s g i cs).any (fun x => !trimFits x.1 x.2))
      let off := (trimOff s g (trimWords g (fun i => newWord s g i cs))).isSome
      completes (.calibrationBound ⟨g, e⟩) s (fun t =>
        trimBusy t g = false ∧ (∀ i, i < trimCount g → trimLive t g i = trimLive s g i ∧ trimStaging t g i = trimLive s g i) ∧
          rdb t (trimA 0x44) (8 + g) = true ∧ rdf t (trimA 0x44) 7 4 = 3 ∧ recorded s t 0x0D01 1) ∧
      (unfit = true ∨ off = true →
        completes (.calDone g cs) s (fun t =>
          trimBusy t g = false ∧ (∀ i, i < trimCount g → trimLive t g i = trimLive s g i ∧ trimStaging t g i = trimLive s g i) ∧
            rdb t (trimA 0x44) (8 + g) = true ∧ rdf t (trimA 0x44) 7 4 = (if unfit then 1 else 2) ∧
            recorded s t 0x0D01 1)) ∧
      (unfit = false → off = false →
        completes (.calDone g cs) s (fun t =>
          trimBusy t g = false ∧ (∀ i, i < trimCount g → trimLive t g i = newWord s g i cs ∧ trimStaging t g i = newWord s g i cs) ∧
            rdb t (trimA 0x44) (8 + g) = false ∧ raised s t pgTrim 8))))

/-! ### Operator display (17) -/

/-- The display link (R461, R462): with a panel plugged in, the link trains at the lowest rate that carries the mode, or DISP_LINK is recorded, class B, when none does; an unplug ends the
output with LINK_DOWN; an interrupt of the panel retrains at the present rate when lock is lost; a training that ends starts the stream, one that takes too
long goes on at the next higher rate within both maxima, and with none left the link stays idle until its retry. -/
def DisplayLinkRule : Prop :=
  (∀ (s : State) (mr ml : Nat),
    let u := setDisp s { s.disp with hpd := true, maxRate := mr, maxLanes := ml }
    let cfg := cm s (ra pgDisp 0x40)
    let rate := chooseRate cfg (field (cm s (ra pgDisp 0x44)) 18 0) mr
    (pgEn s pgDisp = false ∨ dozing s = true → exec (.hpdPlug mr ml) s = .next u) ∧
    (pgEn s pgDisp = true → dozing s = false → dispLanes (field cfg 9 8) ≤ ml → ∀ r, rate = some r →
      completes (.hpdPlug mr ml) s (fun t =>
        t.disp = { u.disp with state := 1, rate := r, lanes := field cfg 9 8 } ∧ sends s t [.disp 0] ∧ counted s t pgDisp 6 ∧
          onlyChanges [.counters, .disp, .out] s t)) ∧
    (pgEn s pgDisp = true → dozing s = false → (ml < dispLanes (field cfg 9 8) ∨ rate = none) →
      completes (.hpdPlug mr ml) s (fun t => t.disp = { u.disp with state := 4 } ∧ recorded s t 0x0E01 1))) ∧
  (∀ (cfg pclk panel r : Nat), chooseRate cfg pclk panel = some r →
    r < 3 ∧ r ≤ field cfg 5 4 ∧ r ≤ panel ∧ rateFits cfg pclk r = true ∧ ∀ q, q < r → rateFits cfg pclk q = false) ∧
  (∀ s : State,
    (s.disp.hpd = false → exec .hpdUnplug s = .next s ∧ ∀ b, exec (.hpdIrq b) s = .next s) ∧
    (s.disp.hpd = true →
      completes .hpdUnplug s (fun t =>
        t.disp = { s.disp with hpd := false, state := if pgEn s pgDisp then 4 else 0 } ∧ raised s t pgDisp 15 ∧
          wordsKept [dispA 0x24] s t) ∧
      completes (.hpdIrq false) s (fun t => t.disp = s.disp ∧ raised s t pgDisp 16 ∧ wordsKept [dispA 0x24] s t) ∧
      (dispRunning s = true →
        completes (.hpdIrq true) s (fun t =>
          t.disp.state = 1 ∧ t.disp.rate = s.disp.rate ∧ raised s t pgDisp 16 ∧ counted s t pgDisp 6))) ∧
    (s.disp.state ≠ 1 → exec .linkTrainingDone s = .next s ∧ exec .ltTimeout s = .next s) ∧
    (s.disp.state = 1 →
      completes .linkTrainingDone s (fun t =>
        t.disp = { s.disp with state := if s.disp.switching then 3 else 2, scanLine := 0, scanNs := ptTotalNs s } ∧ sends s t [.disp 1] ∧
          onlyChanges [.disp, .out] s t) ∧
      (s.disp.rate < min (field (cm s (ra pgDisp 0x40)) 5 4) s.disp.maxRate →
        completes .ltTimeout s (fun t =>
          t.disp.state = 1 ∧ t.disp.rate = s.disp.rate + 1 ∧ counted s t pgDisp 6 ∧ sends s t [.disp 0] ∧
            onlyChanges [.counters, .disp, .out] s t)) ∧
      (min (field (cm s (ra pgDisp 0x40)) 5 4) s.disp.maxRate ≤ s.disp.rate →
        completes .ltTimeout s (fun t => t.disp = { s.disp with state := 4 } ∧ recorded s t 0x0E01 1))) ∧
    (s.disp.state ≠ 4 ∨ dozing s = true → exec .dispRetry s = .next s) ∧
    (s.disp.state = 4 → dozing s = false → pgEn s pgDisp = true → s.disp.hpd = true →
        dispLanes (field (cm s (ra pgDisp 0x40)) 9 8) ≤ s.disp.maxLanes →
      ∀ r, chooseRate (cm s (ra pgDisp 0x40)) (field (cm s (ra pgDisp 0x44)) 18 0) s.disp.maxRate = some r →
        completes .dispRetry s (fun t =>
          t.disp.state = 1 ∧ t.disp.rate = r ∧ sends s t [.disp 0] ∧ onlyChanges [.counters, .disp, .out] s t)))

/-- The frame of the display (R467 to R471, R473): the latch shows the newest composed line, brings back every layer and ends a black frame with MODE_SWITCHED; VBLANK and LINE_MATCH are
raised while the stream runs, and the last active line closes the frame to ARMs; the last pixel of a frame raises FRAME_DONE and is counted, and in bring-up a frame shows the checksums of the enabled rectangles; a layer that
underruns is off from its pixel on and counted once a frame; a commit applied at the latch makes the shadows the committed values, and one that
fails its check leaves them with its reason. -/
def DisplayFrameRule : Prop :=
  (∀ s : State, dispRunning s = false → exec .latch s = .next s ∧ exec .vblank s = .next s ∧ exec .lineMatch s = .next s) ∧
  (∀ s : State, dispRunning s = true →
    ((commitPending s pgDisp = false ∨ s.disp.armedLate = true) →
      completes .latch s (fun t =>
        t.disp = { s.disp with shown := s.disp.newest, lastActive := false, offLayers := [], armedLate := false, state := 2,
                               scanLine := vActive s, scanNs := ptTotalNs s,
                               switching := s.disp.switching && !(s.disp.state == 3) } ∧
          (s.disp.state = 3 → raised s t pgDisp 12) ∧ t.committed = s.committed ∧ wordsKept [dispA 0x24] s t)) ∧
    (commitPending s pgDisp = true → s.disp.armedLate = false →
      (dispCheck s = 0 →
        completes .latch s (fun t =>
          (∀ a ∈ shadowAddrs pgDisp, cm t a = rd s a) ∧ commitPending t pgDisp = false ∧
            (evPend t pgDisp).testBit 0 = true ∧ t.disp.shown = s.disp.newest)) ∧
      (dispCheck s ≠ 0 →
        completes .latch s (fun t =>
          t.committed = s.committed ∧ commitPending t pgDisp = false ∧ rd t (dispA 0x64) = dispCheck s ∧
            (evPend t pgDisp).testBit 2 = true ∧ t.disp.shown = s.disp.newest))) ∧
    completes .vblank s (fun t => raised s t pgDisp 8 ∧ wordsKept [dispA 0x24] s t ∧ onlyChanges eventParts s t) ∧
    completes .lineMatch s (fun t =>
      raised s t pgDisp 9 ∧ wordsKept [dispA 0x24] s t ∧
        t.disp = { s.disp with lastActive := decide (field (cm s (ra pgDisp 0x5C)) 10 0 + 1 = vActive s) || s.disp.lastActive } ∧
        onlyChanges (.disp :: eventParts) s t) ∧
    (∀ bs, completes (.frameDone bs) s (fun t =>
      t.disp.lastActive = true ∧ t.disp.shown = s.disp.shown ∧ t.disp.offLayers = s.disp.offLayers ∧
        (evPend t pgDisp).testBit 10 = true ∧ counted s t pgDisp 0 ∧ rd t (dispA 0x148) = crc32c bs ∧
        t.committed = s.committed))) ∧
  (∀ (s : State) (bs : List Byte), dispRunning s = false →
    (s.sys.bootState = 5 → exec (.frameDone bs) s = .next s) ∧
    (s.sys.bootState ≠ 5 →
      completes (.frameDone bs) s (fun t =>
        t.disp = s.disp ∧ t.committed = s.committed ∧
          ∀ k, k < 4 → rdb s (dispA 0x140) k = true →
            rd t (dispA (0x15C + 0x10 * k)) =
              crc32c (frameBytes s (field (cm s (dispA (0x150 + 0x10 * k))) 11 0) (field (cm s (dispA (0x150 + 0x10 * k))) 26 16)
                (field (cm s (dispA (0x154 + 0x10 * k))) 11 0) (field (cm s (dispA (0x154 + 0x10 * k))) 26 16))))) ∧
  (∀ (s : State) (l px : Nat), l < 3 →
    (s.disp.state ≠ 2 ∨ layerOn s l = false ∨ s.disp.offLayers.any (fun e => e.1 == l) = true →
      exec (.underrun [l] px) s = .next s) ∧
    (s.disp.state = 2 → layerOn s l = true → s.disp.offLayers.any (fun e => e.1 == l) = false →
      completes (.underrun [l] px) s (fun t =>
        t.disp = { s.disp with offLayers := s.disp.offLayers ++ [(l, px)] } ∧ raised s t pgDisp 11 ∧
          counted s t pgDisp (1 + l) ∧ wordsKept [dispA 0x24] s t)))

/-- The display link and its frames (R461, R462, R467 to R471, R473). -/
def Obligations.Display : Prop := DisplayLinkRule ∧ DisplayFrameRule

/-! ### Bring-up, reset, logs and the boot flash (18) -/

/-- What a power-on reset and a warm reset leave, of every part (R82, R83, R143, R474, R486): the always-on words, and with `keep` image memory with the journal and the RAM
log. -/
def resetKeeps (s t : State) (keep : Bool) : Prop :=
  (∀ a, alwaysOn a = true → a ≠ ra pgSys 0x50 → a ≠ ra pgSys 0x4C → rd t a = rd s a) ∧
    t.dram.mem = (if keep then s.dram.mem else []) ∧ t.sys.ramLog = (if keep then s.sys.ramLog else []) ∧
    (keep = false → t.host.journal = [] ∧ t.print.tiles = [] ∧ t.print.jobs = []) ∧
    (keep = true → t.host.journal.map (fun e => (e.1, e.2.entry)) = s.host.journal.map (fun e => (e.1, e.2.entry)) ∧
      t.print.tiles.length = s.print.tiles.length) ∧
    (∀ n, (getSession t n).state = 0) ∧ t.pair.role = 0 ∧ t.clk.sec = 0 ∧ t.clk.ns = 0 ∧ t.clk.frac = 0 ∧ t.clk.incr = 4 * 2 ^ 32 ∧
    t.committed = [] ∧ t.rime = [] ∧ (∀ b, printing t b = false) ∧
    (s.sys.flashOp ≠ 2 → s.sys.flashOp ≠ 3 → t.sys.flash = s.sys.flash) ∧ t.pending = s.pending

/-- Resets (R83, R474, R476, R477, R485, R506): power-on reset loses image memory, journal and RAM log, samples the straps and boots with cause 0; nRESET of 1 us or more holds the unit in reset with image memory kept, and a pulse below 200 ns
does nothing; its release samples the straps and boots with cause 1; the watchdog of a Ready unit resets and boots it with cause 2, to record WATCHDOG after the restart, and a single unit drives SLOW_REQ meanwhile; without supply
the unit is in reset; a loss of the DRAM supply takes image memory, journal and RAM log; a Ready unit copies its reset record. -/
def ResetsRule : Prop :=
  (∀ (s : State) (straps : Nat),
    completes (.powerOnReset straps) s (fun t =>
      t.dram.mem = [] ∧ t.host.journal = [] ∧ t.host.sessions = [] ∧ t.sys.ramLog = [] ∧ t.print.tiles = [] ∧
        t.sys.bootState = 0 ∧ t.sys.cause = 0 ∧ rd t (ra pgSys 0x50) = 0 ∧ rd t (ra pgSys 0x4C) = straps % 32 ∧
        (∀ a, a ≠ ra pgSys 0x50 → a ≠ ra pgSys 0x4C → a ≠ ra pgJrn 0x44 → rd t a = (regReset a).toNat) ∧
        t.pair.role = 0 ∧ t.clk.sec = 0 ∧ t.clk.ns = 0 ∧ t.sys.inReset = false ∧
        (s.sys.flashOp ≠ 2 → s.sys.flashOp ≠ 3 → t.sys.flash = s.sys.flash))) ∧
  (∀ (s : State) (w : Nat),
    (s.sys.inReset = true ∨ s.sys.powered = false ∨ w < 200 → exec (.nreset w) s = .next s) ∧
    (s.sys.inReset = false → s.sys.powered = true → 1000 ≤ w →
      completes (.nreset w) s (fun t => t.sys.inReset = true ∧ resetKeeps s t true))) ∧
  (∀ (s : State) (straps : Nat),
    (s.sys.inReset = false ∨ s.sys.powered = false → exec (.nresetRelease straps) s = .next s) ∧
    (s.sys.inReset = true → s.sys.powered = true →
      completes (.nresetRelease straps) s (fun t =>
        t.sys.inReset = false ∧ t.sys.bootState = 0 ∧ t.sys.cause = 1 ∧ rd t (ra pgSys 0x4C) = straps % 32 ∧
          rd t (ra pgSys 0x50) = 1 ∧ wordsKept [ra pgSys 0x4C, ra pgSys 0x50] s t ∧ onlyChanges [.regs, .sys] s t))) ∧
  (∀ (s : State) (core : Nat),
    (s.sys.bootState ≠ 5 ∨ s.sys.inReset = true ∨ 2 ≤ s.power.pstate → exec (.watchdogExpiry core) s = .next s) ∧
    (s.sys.bootState = 5 → s.sys.inReset = false → s.power.pstate < 2 →
      completes (.watchdogExpiry core) s (fun t =>
        t.sys.bootState = 0 ∧ t.sys.cause = 2 ∧ rd t (ra pgSys 0x50) = 2 + 16 * (core % 4) ∧
          (0x0101, core % 4) ∈ t.sys.lateFaults ∧ (pairMode s = false → t.links.slowReq = true) ∧
          resetKeeps s t true))) ∧
  (∀ s : State,
    completes .vddAonLoss s (fun t =>
      t.sys.powered = false ∧ t.sys.inReset = true ∧ t.dram.mem = [] ∧ t.host.journal = [] ∧ t.sys.ramLog = []) ∧
    completes .dramSupplyLoss s (fun t =>
      t.dram.mem = [] ∧ t.host.journal = [] ∧ t.print.tiles = [] ∧ t.print.jobs = [] ∧
        (s.sys.bootState = 5 → rd t (ra pgJrn 0x44) = (rd s (ra pgJrn 0x44) + 1) % 2 ^ 32) ∧
        (s.sys.bootState ≠ 5 → t.sys.memLost = true ∧ t.sys.ramLog = [])) ∧
    (s.sys.inReset = true ∨ s.sys.bootState ≠ 5 → exec .resetRecordCopy s = .next s) ∧
    (s.sys.inReset = false → s.sys.bootState = 5 →
      completes .resetRecordCopy s (fun t =>
        t.sys = { s.sys with recSec := s.clk.sec, recNs := s.clk.ns, recPos := webPos s (refBar s),
                             recLine := buildLine s (refBar s), recSeq := s.sys.seq } ∧ onlyChanges [.sys] s t)))

/-- Boot (R477 to R480): the steps follow one another; an image is sound only with its MAGIC, length and CRC; a slot that fails its check gives its reason and the other slot is checked, and when
both have failed the unit stays in STATE 6 with SLOW_REQ; an image from the other slot records IMAGE_FALLBACK, class B; training or self-test that
fail leave STATE 6 with their class D fault; the last step reaches Ready with READY raised; every 10 s both slots are tried again. -/
def BootRule : Prop :=
  (∀ s : State, s.sys.inReset = true → ∀ r, exec (.bootStepDone r) s = .next s) ∧
  (∀ s : State, s.sys.inReset = false →
    (s.sys.bootState = 0 →
      completes (.bootStepDone .ok) s (fun t =>
        t.sys.bootState = 1 ∧ t.sys.slot = firstSlot s ∧ t.sys.triedOther = false ∧ counted s t pgSys 7)) ∧
    (s.sys.bootState = 1 →
      ∀ (r : BootResult) (n : Nat), (r, n) ∈ [(.ok, 0), (.slotFailed n, n)] →
        let bad := imageReason s s.sys.slot n
        (bad = 0 →
          completes (.bootStepDone r) s (fun t =>
            t.sys.bootState = 2 ∧ rdf t (ra pgSys 0x54) 0 0 = s.sys.slot % 2 ∧ trimBusy t 2 = true ∧
              (s.sys.triedOther = true → recorded s t 0x0102 1) ∧ (s.sys.triedOther = false → t.sys.seq = s.sys.seq))) ∧
        (bad ≠ 0 → s.sys.triedOther = false →
          completes (.bootStepDone r) s (fun t =>
            t.sys = { s.sys with triedOther := true, slot := 1 - s.sys.slot } ∧ rdf t (ra pgSys 0x54) 7 4 = bad ∧
              wordsKept [ra pgSys 0x54] s t ∧ onlyChanges [.regs, .sys] s t)) ∧
        (bad ≠ 0 → s.sys.triedOther = true → s.sys.bootFailSeen = false →
          completes (.bootStepDone r) s (fun t =>
            t.sys.bootState = 6 ∧ t.sys.bootFailSeen = true ∧ recorded s t 0x0103 3 ∧ t.links.slowReq = true))) ∧
    (s.sys.bootState = 2 →
      completes (.bootStepDone .ok) s (fun t => t.sys.bootState = 3 ∧ ∀ k, k < 8 → subState t k = 1) ∧
      completes (.bootStepDone .trainFailed) s (fun t => t.sys.bootState = 6 ∧ recorded s t 0x0404 3)) ∧
    (s.sys.bootState = 3 →
      completes (.bootStepDone .ok) s (fun t => t.sys.bootState = 4 ∧ onlyChanges [.regs, .sys] s t) ∧
      (∀ n, completes (.bootStepDone (.repaired n)) s (fun t =>
        t.sys.bootState = 4 ∧ rdf t (ra pgSys 0x58) 15 8 = n % 256 ∧ onlyChanges [.regs, .sys] s t)) ∧
      (∀ b, b &&& 0xD ≠ 0 → bitOf b 1 = false →
        completes (.bootStepDone (.selftestFailed b)) s (fun t => t.sys.bootState = 6 ∧ recorded s t 0x0104 3)) ∧
      (∀ b, b &&& 0xF = 2 →
        completes (.bootStepDone (.selftestFailed b)) s (fun t => t.sys.bootState = 4 ∧ recorded s t 0x0403 1))) ∧
    (s.sys.bootState = 4 →
      completes (.bootStepDone .ok) s (fun t => t.sys.bootState = 5 ∧ (evPend t pgSys).testBit 12 = true))) ∧
  (∀ (s : State) (a b : Nat),
    (s.sys.bootState ≠ 6 ∨ s.sys.inReset = true ∨ s.sys.bootFailSeen = false ∨ s.sys.stopped = true →
      exec (.bootRetry a b) s = .next s) ∧
    (s.sys.bootState = 6 → s.sys.inReset = false → s.sys.bootFailSeen = true → s.sys.stopped = false →
      (imageReason s 0 a ≠ 0 → imageReason s 1 b ≠ 0 →
        completes (.bootRetry a b) s (fun t => t.sys.bootState = 6 ∧ t.sys.seq = s.sys.seq)) ∧
      (imageReason s (firstSlot s) (if firstSlot s = 0 then a else b) = 0 →
        completes (.bootRetry a b) s (fun t =>
          t.sys.bootState = 2 ∧ t.sys.slot = firstSlot s ∧ t.sys.triedOther = false))) ∧
    (∀ slot n, imageReason s slot n = 0 →
      let h := flashRead s (slotBase slot) 256
      bytesAt h 0 4 = 0x46575A53 ∧ bytesAt h 4 4 ≠ 0 ∧ bytesAt h 4 4 ≤ 2 ^ 24 ∧
        bytesAt h 0x90 4 = crc32c (h.take 0x90 ++ flashRead s (slotBase slot + 256) (bytesAt h 4 4))))

/-- Resets and the boot that follows them (R83, R474, R476 to R480, R485, R506). -/
def Obligations.ResetsAndBoot : Prop := ResetsRule ∧ BootRule

/-- The logs and the flash (R481, R487 to R489): a record that waits is programmed into two pages and enters the non-volatile log, 64 a second at most; an operation starts on a flash that is not busy, and one that breaks a condition of
R488 ends at once with its reason, the flash not touched; a READ that ends shows the page in BUF, a PROGRAM writes BUF into the page, an ERASE sets its sector to ones. -/
def Obligations.LogsAndFlash : Prop :=
  (∀ s : State,
    (s.sys.nvWait = [] → exec .nvLogProgram s = .next s) ∧
    (∀ r rest, s.sys.nvWait = r :: rest → s.sys.nvSec ≠ s.clk.sec ∨ s.sys.nvCount < 64 → s.sys.flashOp ≠ 2 →
        s.power.tripped = false →
      completes .nvLogProgram s (fun t =>
        t.sys.nvWait = rest ∧ t.sys.nvLog.getLast? = some r ∧ t.sys.nvNext = (s.sys.nvNext + 1) % 4096 ∧
          flashPage t (0x41000 + 2 * s.sys.nvNext) = flashPage t (0x41000 + 2 * s.sys.nvNext + 1) ∧
          (flashPage t (0x41000 + 2 * s.sys.nvNext)).take 64 = recordBytes r ∧ counted s t pgSys 5 ∧
          onlyChanges [.counters, .sys] s t)) ∧
    (s.sys.nvSec = s.clk.sec → 64 ≤ s.sys.nvCount → exec .nvLogProgram s = .next s)) ∧
  (∀ (s : State) (rq : Requester) (op : Nat) (c : Instr), (op, c) ∈ [(1, .nvmRead rq), (2, .nvmProgram rq), (3, .nvmErase rq)] →
    admitted s (nvmA 0x48) op →
    (nvmBusy s = true → completes c s (fun t => raised s t pgNvm 4 ∧ wordsKept [nvmA 0x24] s t ∧ onlyChanges eventParts s t)) ∧
    (nvmBusy s = false → nvmReason s op ≠ 0 →
      completes c s (fun t =>
        rd t (nvmA 0x4C) = 4 + 16 * nvmReason s op ∧ raised s t pgNvm 8 ∧ counted s t pgNvm 3 ∧
          t.sys.flash = s.sys.flash ∧ t.sys.flashOp = 0)) ∧
    (nvmBusy s = false → nvmReason s op = 0 →
      completes c s (fun t =>
        rd t (nvmA 0x4C) = 1 ∧ t.sys.flashOp = op ∧ counted s t pgNvm (op - 1) ∧ sends s t [.flash op (nvmAddr s)] ∧
          t.sys.flash = s.sys.flash ∧ wordsKept [nvmA 0x4C] s t))) ∧
  (∀ s : State,
    (s.sys.flashOp = 0 → ∀ r, exec (.nvmDone r) s = .next s) ∧
    (s.sys.flashOp = 1 →
      completes (.nvmDone .done) s (fun t =>
        (∀ i, i < 64 → rd t (nvmA (0x100 + 4 * i)) = bytesAt (flashRead s (nvmAddr s) 256) (4 * i) 4) ∧
          rd t (nvmA 0x4C) = 2 ∧ raised s t pgNvm 8 ∧ t.sys = { s.sys with flashOp := 0 })) ∧
    (s.sys.flashOp = 2 →
      completes (.nvmDone .done) s (fun t =>
        flashPage t (nvmAddr s / 256) = bufBytes s ∧ (∀ p, p ≠ nvmAddr s / 256 → flashPage t p = flashPage s p) ∧
          rd t (nvmA 0x4C) = 2 ∧ raised s t pgNvm 8 ∧ t.sys.flashOp = 0) ∧
      completes (.nvmDone .failed) s (fun t =>
        rd t (nvmA 0x4C) = 4 + 16 * 4 ∧ raised s t pgNvm 8 ∧ counted s t pgNvm 3 ∧
          (∀ p, p ≠ nvmAddr s / 256 → flashPage t p = flashPage s p) ∧ t.sys.flashOp = 0)) ∧
    (s.sys.flashOp = 3 →
      completes (.nvmDone .done) s (fun t =>
        (∀ i, i < 256 → flashPage t (nvmAddr s / 256 + i) = List.replicate 256 0xFF#8) ∧
          (∀ p, p < nvmAddr s / 256 ∨ nvmAddr s / 256 + 256 ≤ p → flashPage t p = flashPage s p) ∧
          rd t (nvmA 0x4C) = 2 ∧ t.sys.flashOp = 0) ∧
      (s.power.stop ≠ 0 →
        completes (.nvmDone .abandoned) s (fun t =>
          rd t (nvmA 0x4C) = 4 + 16 * 5 ∧ raised s t pgNvm 8 ∧ counted s t pgNvm 3 ∧ t.sys.flashOp = 0)))) ∧
  (∀ (s : State) (a n : Nat), 0 < n → nvmProtected s a n = false →
    ∀ x, a ≤ x → x < a + n → ¬(0x10000 ≤ x ∧ x < 0x100000) ∧ ¬(0x4100000 ≤ x ∧ x < 0x4300000) ∧
      ¬((if rdb s (ra pgSys 0x54) 0 then 0x2100000 else 0x100000) ≤ x ∧
        x < (if rdb s (ra pgSys 0x54) 0 then 0x4100000 else 0x2100000)))
end Statements
end

