-- ==== Sys2Proof/Laws/Memory.lean ====
section
/-! SUPPORT. Every operation on image memory keeps its canonical form: the write of one byte, of consecutive bytes, and of
a block under byte enables. -/

namespace Sys2Proof.Machine
open Sys2Proof

theorem memWf_cons {a : Nat} {v : Byte} {r : List Host.Cell} :
    memWf ((a, v) :: r) = true ↔ v ≠ memDefault ∧ memWf r = true ∧ (∀ b w, r.head? = some (b, w) → a < b) := by
  cases r with
  | nil => simp [memWf]
  | cons x r =>
    obtain ⟨b, w⟩ := x
    simp [memWf, and_comm, and_assoc]
    tauto

theorem memWf_tail {a : Nat} {v : Byte} {r : List Host.Cell} (h : memWf ((a, v) :: r) = true) : memWf r = true :=
  (memWf_cons.1 h).2.1

theorem memWf_lt {a : Nat} {v : Byte} {r : List Host.Cell} (h : memWf ((a, v) :: r) = true) :
    ∀ x ∈ r, a < x.1 := by
  induction r generalizing a v with
  | nil => simp
  | cons y r ih =>
    obtain ⟨b, w⟩ := y
    have hb : a < b := (memWf_cons.1 h).2.2 b w rfl
    have ht := memWf_tail h
    intro x hx
    rcases List.mem_cons.1 hx with rfl | hx
    · exact hb
    · exact Nat.lt_trans hb (ih ht x hx)

theorem memWf_of {a : Nat} {v : Byte} {r : List Host.Cell} (hv : v ≠ memDefault) (hr : memWf r = true)
    (hl : ∀ x ∈ r, a < x.1) : memWf ((a, v) :: r) = true := by
  refine memWf_cons.2 ⟨hv, hr, fun b w h => ?_⟩
  have := List.mem_of_mem_head? h
  exact hl _ this

theorem mem_tdel {α : Type} {t : Tab α} {k : Nat} {x : Nat × α} (h : x ∈ tdel t k) : x ∈ t := by
  induction t with
  | nil => simp [tdel] at h
  | cons y r ih =>
    obtain ⟨j, w⟩ := y
    simp only [tdel] at h
    split at h
    · exact List.mem_cons_of_mem _ (ih h)
    · rcases List.mem_cons.1 h with rfl | h
      · exact List.mem_cons_self
      · exact List.mem_cons_of_mem _ (ih h)

theorem mem_tins {α : Type} {t : Tab α} {k : Nat} {v : α} {x : Nat × α} (h : x ∈ tins t k v) : x ∈ t ∨ x = (k, v) := by
  induction t with
  | nil => simp [tins] at h; exact Or.inr h
  | cons y r ih =>
    obtain ⟨j, w⟩ := y
    simp only [tins] at h
    split at h
    · rcases List.mem_cons.1 h with h | h
      · exact Or.inr h
      · exact Or.inl h
    · rcases List.mem_cons.1 h with rfl | h
      · exact Or.inl List.mem_cons_self
      · rcases ih h with h | h
        · exact Or.inl (List.mem_cons_of_mem _ h)
        · exact Or.inr h

theorem tdel_wf {m : List Host.Cell} (h : memWf m = true) (k : Nat) : memWf (tdel m k) = true := by
  induction m with
  | nil => exact h
  | cons y r ih =>
    obtain ⟨j, w⟩ := y
    simp only [tdel]
    split
    · exact ih (memWf_tail h)
    · exact memWf_of (memWf_cons.1 h).1 (ih (memWf_tail h)) (fun x hx => memWf_lt h x (mem_tdel hx))

theorem not_mem_tdel {α : Type} (t : Tab α) (k : Nat) : ∀ x ∈ tdel t k, x.1 ≠ k := by
  induction t with
  | nil => simp [tdel]
  | cons y r ih =>
    obtain ⟨j, w⟩ := y
    simp only [tdel]
    split
    · exact ih
    · intro x hx
      rcases List.mem_cons.1 hx with rfl | hx
      · assumption
      · exact ih x hx

theorem tins_wf {m : List Host.Cell} (h : memWf m = true) {k : Nat} {v : Byte} (hv : v ≠ memDefault)
    (hk : ∀ x ∈ m, x.1 ≠ k) : memWf (tins m k v) = true := by
  induction m with
  | nil => exact memWf_of hv rfl (by simp)
  | cons y r ih =>
    obtain ⟨j, w⟩ := y
    simp only [tins]
    split
    · rename_i hlt
      refine memWf_of hv h (fun x hx => ?_)
      rcases List.mem_cons.1 hx with rfl | hx
      · exact hlt
      · exact Nat.lt_trans hlt (memWf_lt h x hx)
    · rename_i hge
      have hj : j ≠ k := hk _ List.mem_cons_self
      refine memWf_of (memWf_cons.1 h).1 (ih (memWf_tail h) (fun x hx => hk x (List.mem_cons_of_mem _ hx))) (fun x hx => ?_)
      rcases mem_tins hx with hx | rfl
      · exact memWf_lt h x hx
      · simp only; omega

/-- Writing a byte keeps the canonical form of image memory. -/
theorem memSet_wf {m : List Host.Cell} (h : memWf m = true) (a : Nat) (v : Byte) : memWf (memSet m a v) = true := by
  unfold memSet tsetD
  split
  · exact tdel_wf h a
  · exact tins_wf (tdel_wf h a) (by assumption) (not_mem_tdel m a)

theorem memWrite_wf {m : List Host.Cell} (h : memWf m = true) (a : Nat) (bs : List Byte) : memWf (memWrite m a bs) = true := by
  induction bs generalizing m a with
  | nil => exact h
  | cons b r ih => exact ih (memSet_wf h a b) (a + 1)

theorem writeBlock_wf {m : List Host.Cell} (h : memWf m = true) (a : Nat) (bs : List (Option Byte)) :
    memWf (writeBlock m a bs) = true := by
  induction bs generalizing m a with
  | nil => exact h
  | cons b r ih =>
    cases b with
    | none => exact ih h (a + 1)
    | some b => exact ih (memSet_wf h a b) (a + 1)

end Sys2Proof.Machine
end

