-- ==== Sys2Proof/Laws/Frame.lean ====
section
/-! SUPPORT. The frame of a change of state: `Evolves m s t` says that only the fields of State in the mask `m` differ, that
image memory keeps its canonical form, that what was sent stays sent, and that no free value is drawn again; with one
lemma for each update of a record. -/

set_option linter.all false

namespace Sys2Proof.Machine
set_option Elab.async false
set_option maxRecDepth 4000
open Sys2Proof

/-- What a state may become while only the fields of State whose bit is set in `m` change (bits count in the order of
the declaration): the other fields stay, image memory keeps its canonical form, what was sent stays sent, and free values
are not drawn again. -/
def Evolves (m : Nat) (s t : State) : Prop :=
  (m.testBit 0 = false → t.regs = s.regs) ∧
  (m.testBit 1 = false → t.committed = s.committed) ∧
  (m.testBit 2 = false → t.held = s.held) ∧
  (m.testBit 3 = false → t.latches = s.latches) ∧
  (m.testBit 4 = false → t.captured = s.captured) ∧
  (m.testBit 5 = false → t.lastRead = s.lastRead) ∧
  (m.testBit 6 = false → t.counters = s.counters) ∧
  (m.testBit 7 = false → t.rime = s.rime) ∧
  (m.testBit 8 = false → t.clk = s.clk) ∧
  (m.testBit 9 = false → t.chans = s.chans) ∧
  (m.testBit 10 = false → t.print = s.print) ∧
  (m.testBit 11 = false → t.dram = s.dram) ∧
  (m.testBit 12 = false → t.host = s.host) ∧
  (m.testBit 13 = false → t.links = s.links) ∧
  (m.testBit 14 = false → t.cams = s.cams) ∧
  (m.testBit 15 = false → t.pair = s.pair) ∧
  (m.testBit 16 = false → t.motion = s.motion) ∧
  (m.testBit 17 = false → t.evc = s.evc) ∧
  (m.testBit 18 = false → t.power = s.power) ∧
  (m.testBit 19 = false → t.disp = s.disp) ∧
  (m.testBit 20 = false → t.sys = s.sys) ∧
  (m.testBit 21 = false → t.snapWait = s.snapWait) ∧
  (m.testBit 22 = false → t.freeCount = s.freeCount) ∧
  (m.testBit 23 = false → t.out = s.out) ∧
  (m.testBit 24 = false → t.pending = s.pending) ∧
  (memWf s.dram.mem = true → memWf t.dram.mem = true) ∧ s.out <+: t.out ∧ s.freeCount ≤ t.freeCount

theorem Evolves.rfl {m : Nat} {s : State} : Evolves m s s := by
  unfold Evolves; simp

theorem Evolves.trans {m : Nat} {s t u : State} (h : Evolves m s t) (g : Evolves m t u) : Evolves m s u := by
  obtain ⟨h0, h1, h2, h3, h4, h5, h6, h7, h8, h9, h10, h11, h12, h13, h14, h15, h16, h17, h18, h19, h20, h21, h22, h23, h24, hW, hO, hF⟩ := h
  obtain ⟨g0, g1, g2, g3, g4, g5, g6, g7, g8, g9, g10, g11, g12, g13, g14, g15, g16, g17, g18, g19, g20, g21, g22, g23, g24, gW, gO, gF⟩ := g
  exact ⟨fun b => (g0 b).trans (h0 b), fun b => (g1 b).trans (h1 b), fun b => (g2 b).trans (h2 b), fun b => (g3 b).trans (h3 b), fun b => (g4 b).trans (h4 b), fun b => (g5 b).trans (h5 b), fun b => (g6 b).trans (h6 b), fun b => (g7 b).trans (h7 b), fun b => (g8 b).trans (h8 b), fun b => (g9 b).trans (h9 b), fun b => (g10 b).trans (h10 b), fun b => (g11 b).trans (h11 b), fun b => (g12 b).trans (h12 b), fun b => (g13 b).trans (h13 b), fun b => (g14 b).trans (h14 b), fun b => (g15 b).trans (h15 b), fun b => (g16 b).trans (h16 b), fun b => (g17 b).trans (h17 b), fun b => (g18 b).trans (h18 b), fun b => (g19 b).trans (h19 b), fun b => (g20 b).trans (h20 b), fun b => (g21 b).trans (h21 b), fun b => (g22 b).trans (h22 b), fun b => (g23 b).trans (h23 b), fun b => (g24 b).trans (h24 b), fun w => gW (hW w), hO.trans gO, Nat.le_trans hF gF⟩

theorem testBit_of_lor {k m i : Nat} (h : k ||| m = m) (b : m.testBit i = false) : k.testBit i = false := by
  rw [← h, Nat.testBit_or] at b; simp_all

theorem lor_of_beq {j k : Nat} (h : (j ||| k == k) = true) : j ||| k = k := by simpa using h

theorem memWf_keep {l : List Host.Cell} : memWf l = true → memWf l = true := id

theorem memWf_write {l : List Host.Cell} {a : Nat} {bs : List Byte} :
    memWf l = true → memWf (memWrite l a bs) = true := fun w => memWrite_wf w _ _

theorem memWf_block {l : List Host.Cell} {a : Nat} {bs : List (Option Byte)} :
    memWf l = true → memWf (writeBlock l a bs) = true := fun w => writeBlock_wf w _ _

theorem lor_sub {j k m : Nat} (h : j ||| k = k) (g : k ||| m = m) : j ||| m = m := by
  rw [← g, ← Nat.lor_assoc, h]

theorem Evolves.mono {k m : Nat} {s t : State} (h : Evolves k s t) (hm : k ||| m = m) : Evolves m s t := by
  obtain ⟨h0, h1, h2, h3, h4, h5, h6, h7, h8, h9, h10, h11, h12, h13, h14, h15, h16, h17, h18, h19, h20, h21, h22, h23, h24, hW, hO, hF⟩ := h
  exact ⟨fun b => h0 (testBit_of_lor hm b), fun b => h1 (testBit_of_lor hm b), fun b => h2 (testBit_of_lor hm b), fun b => h3 (testBit_of_lor hm b), fun b => h4 (testBit_of_lor hm b), fun b => h5 (testBit_of_lor hm b), fun b => h6 (testBit_of_lor hm b), fun b => h7 (testBit_of_lor hm b), fun b => h8 (testBit_of_lor hm b), fun b => h9 (testBit_of_lor hm b), fun b => h10 (testBit_of_lor hm b), fun b => h11 (testBit_of_lor hm b), fun b => h12 (testBit_of_lor hm b), fun b => h13 (testBit_of_lor hm b), fun b => h14 (testBit_of_lor hm b), fun b => h15 (testBit_of_lor hm b), fun b => h16 (testBit_of_lor hm b), fun b => h17 (testBit_of_lor hm b), fun b => h18 (testBit_of_lor hm b), fun b => h19 (testBit_of_lor hm b), fun b => h20 (testBit_of_lor hm b), fun b => h21 (testBit_of_lor hm b), fun b => h22 (testBit_of_lor hm b), fun b => h23 (testBit_of_lor hm b), fun b => h24 (testBit_of_lor hm b), hW, hO, hF⟩

theorem Evolves.step {k m : Nat} {s u v : State} (h : Evolves k u v) (hm : k ||| m = m) (g : Evolves m s u) :
    Evolves m s v :=
  g.trans (h.mono hm)

theorem Evolves.ite {m : Nat} {s a b : State} {c : Prop} [Decidable c] (h : c → Evolves m s a) (g : ¬c → Evolves m s b) :
    Evolves m s (if c then a else b) := by
  split <;> simp_all

theorem Evolves.next {m : Nat} {s t u : State} (h : Evolves m s t) : Evolves m s (taken u (.next t)) := h

theorem Evolves.foldl {m : Nat} {α : Type} {s u : State} {f : State → α → State} {l : List α} (h : Evolves m s u)
    (g : ∀ x y, Evolves m s x → Evolves m s (f x y)) : Evolves m s (l.foldl f u) := by
  induction l generalizing u with
  | nil => exact h
  | cons a l ih => exact ih (g _ _ h)

theorem Evolves.upd_1 {m : Nat} {s u : State} {x0 : Tab Word} (b0 : m.testBit 0 = true)
    (h : Evolves m s u) :
    Evolves m s { u with regs := x0 } := by
  obtain ⟨_, h1, h2, h3, h4, h5, h6, h7, h8, h9, h10, h11, h12, h13, h14, h15, h16, h17, h18, h19, h20, h21, h22, h23, h24, hW, hO, hF⟩ := h
  exact ⟨fun b => absurd b (by simp [b0]), h1, h2, h3, h4, h5, h6, h7, h8, h9, h10, h11, h12, h13, h14, h15, h16, h17, h18, h19, h20, h21, h22, h23, h24, hW, hO, hF⟩

theorem Evolves.upd_2 {m : Nat} {s u : State} {x1 : Tab Word} (b1 : m.testBit 1 = true)
    (h : Evolves m s u) :
    Evolves m s { u with committed := x1 } := by
  obtain ⟨h0, _, h2, h3, h4, h5, h6, h7, h8, h9, h10, h11, h12, h13, h14, h15, h16, h17, h18, h19, h20, h21, h22, h23, h24, hW, hO, hF⟩ := h
  exact ⟨h0, fun b => absurd b (by simp [b1]), h2, h3, h4, h5, h6, h7, h8, h9, h10, h11, h12, h13, h14, h15, h16, h17, h18, h19, h20, h21, h22, h23, h24, hW, hO, hF⟩

theorem Evolves.upd_4 {m : Nat} {s u : State} {x2 : Tab Word} (b2 : m.testBit 2 = true)
    (h : Evolves m s u) :
    Evolves m s { u with held := x2 } := by
  obtain ⟨h0, h1, _, h3, h4, h5, h6, h7, h8, h9, h10, h11, h12, h13, h14, h15, h16, h17, h18, h19, h20, h21, h22, h23, h24, hW, hO, hF⟩ := h
  exact ⟨h0, h1, fun b => absurd b (by simp [b2]), h3, h4, h5, h6, h7, h8, h9, h10, h11, h12, h13, h14, h15, h16, h17, h18, h19, h20, h21, h22, h23, h24, hW, hO, hF⟩

theorem Evolves.upd_7 {m : Nat} {s u : State} {x0 : Tab Word} {x1 : Tab Word} {x2 : Tab Word} (b0 : m.testBit 0 = true) (b1 : m.testBit 1 = true) (b2 : m.testBit 2 = true)
    (h : Evolves m s u) :
    Evolves m s { u with regs := x0, committed := x1, held := x2 } := by
  obtain ⟨_, _, _, h3, h4, h5, h6, h7, h8, h9, h10, h11, h12, h13, h14, h15, h16, h17, h18, h19, h20, h21, h22, h23, h24, hW, hO, hF⟩ := h
  exact ⟨fun b => absurd b (by simp [b0]), fun b => absurd b (by simp [b1]), fun b => absurd b (by simp [b2]), h3, h4, h5, h6, h7, h8, h9, h10, h11, h12, h13, h14, h15, h16, h17, h18, h19, h20, h21, h22, h23, h24, hW, hO, hF⟩

theorem Evolves.upd_8 {m : Nat} {s u : State} {x3 : Tab Nat} (b3 : m.testBit 3 = true)
    (h : Evolves m s u) :
    Evolves m s { u with latches := x3 } := by
  obtain ⟨h0, h1, h2, _, h4, h5, h6, h7, h8, h9, h10, h11, h12, h13, h14, h15, h16, h17, h18, h19, h20, h21, h22, h23, h24, hW, hO, hF⟩ := h
  exact ⟨h0, h1, h2, fun b => absurd b (by simp [b3]), h4, h5, h6, h7, h8, h9, h10, h11, h12, h13, h14, h15, h16, h17, h18, h19, h20, h21, h22, h23, h24, hW, hO, hF⟩

theorem Evolves.upd_16 {m : Nat} {s u : State} {x4 : Tab Word} (b4 : m.testBit 4 = true)
    (h : Evolves m s u) :
    Evolves m s { u with captured := x4 } := by
  obtain ⟨h0, h1, h2, h3, _, h5, h6, h7, h8, h9, h10, h11, h12, h13, h14, h15, h16, h17, h18, h19, h20, h21, h22, h23, h24, hW, hO, hF⟩ := h
  exact ⟨h0, h1, h2, h3, fun b => absurd b (by simp [b4]), h5, h6, h7, h8, h9, h10, h11, h12, h13, h14, h15, h16, h17, h18, h19, h20, h21, h22, h23, h24, hW, hO, hF⟩

theorem Evolves.upd_32 {m : Nat} {s u : State} {x5 : Tab Word} (b5 : m.testBit 5 = true)
    (h : Evolves m s u) :
    Evolves m s { u with lastRead := x5 } := by
  obtain ⟨h0, h1, h2, h3, h4, _, h6, h7, h8, h9, h10, h11, h12, h13, h14, h15, h16, h17, h18, h19, h20, h21, h22, h23, h24, hW, hO, hF⟩ := h
  exact ⟨h0, h1, h2, h3, h4, fun b => absurd b (by simp [b5]), h6, h7, h8, h9, h10, h11, h12, h13, h14, h15, h16, h17, h18, h19, h20, h21, h22, h23, h24, hW, hO, hF⟩

theorem Evolves.upd_64 {m : Nat} {s u : State} {x6 : Tab Nat} (b6 : m.testBit 6 = true)
    (h : Evolves m s u) :
    Evolves m s { u with counters := x6 } := by
  obtain ⟨h0, h1, h2, h3, h4, h5, _, h7, h8, h9, h10, h11, h12, h13, h14, h15, h16, h17, h18, h19, h20, h21, h22, h23, h24, hW, hO, hF⟩ := h
  exact ⟨h0, h1, h2, h3, h4, h5, fun b => absurd b (by simp [b6]), h7, h8, h9, h10, h11, h12, h13, h14, h15, h16, h17, h18, h19, h20, h21, h22, h23, h24, hW, hO, hF⟩

theorem Evolves.upd_71 {m : Nat} {s u : State} {x0 : Tab Word} {x1 : Tab Word} {x2 : Tab Word} {x6 : Tab Nat} (b0 : m.testBit 0 = true) (b1 : m.testBit 1 = true) (b2 : m.testBit 2 = true) (b6 : m.testBit 6 = true)
    (h : Evolves m s u) :
    Evolves m s { u with regs := x0, committed := x1, held := x2, counters := x6 } := by
  obtain ⟨_, _, _, h3, h4, h5, _, h7, h8, h9, h10, h11, h12, h13, h14, h15, h16, h17, h18, h19, h20, h21, h22, h23, h24, hW, hO, hF⟩ := h
  exact ⟨fun b => absurd b (by simp [b0]), fun b => absurd b (by simp [b1]), fun b => absurd b (by simp [b2]), h3, h4, h5, fun b => absurd b (by simp [b6]), h7, h8, h9, h10, h11, h12, h13, h14, h15, h16, h17, h18, h19, h20, h21, h22, h23, h24, hW, hO, hF⟩

theorem Evolves.upd_128 {m : Nat} {s u : State} {x7 : Tab Nat} (b7 : m.testBit 7 = true)
    (h : Evolves m s u) :
    Evolves m s { u with rime := x7 } := by
  obtain ⟨h0, h1, h2, h3, h4, h5, h6, _, h8, h9, h10, h11, h12, h13, h14, h15, h16, h17, h18, h19, h20, h21, h22, h23, h24, hW, hO, hF⟩ := h
  exact ⟨h0, h1, h2, h3, h4, h5, h6, fun b => absurd b (by simp [b7]), h8, h9, h10, h11, h12, h13, h14, h15, h16, h17, h18, h19, h20, h21, h22, h23, h24, hW, hO, hF⟩

theorem Evolves.upd_256 {m : Nat} {s u : State} {x8 : Clock} (b8 : m.testBit 8 = true)
    (h : Evolves m s u) :
    Evolves m s { u with clk := x8 } := by
  obtain ⟨h0, h1, h2, h3, h4, h5, h6, h7, _, h9, h10, h11, h12, h13, h14, h15, h16, h17, h18, h19, h20, h21, h22, h23, h24, hW, hO, hF⟩ := h
  exact ⟨h0, h1, h2, h3, h4, h5, h6, h7, fun b => absurd b (by simp [b8]), h9, h10, h11, h12, h13, h14, h15, h16, h17, h18, h19, h20, h21, h22, h23, h24, hW, hO, hF⟩

theorem Evolves.upd_512 {m : Nat} {s u : State} {x9 : Tab Channel} (b9 : m.testBit 9 = true)
    (h : Evolves m s u) :
    Evolves m s { u with chans := x9 } := by
  obtain ⟨h0, h1, h2, h3, h4, h5, h6, h7, h8, _, h10, h11, h12, h13, h14, h15, h16, h17, h18, h19, h20, h21, h22, h23, h24, hW, hO, hF⟩ := h
  exact ⟨h0, h1, h2, h3, h4, h5, h6, h7, h8, fun b => absurd b (by simp [b9]), h10, h11, h12, h13, h14, h15, h16, h17, h18, h19, h20, h21, h22, h23, h24, hW, hO, hF⟩

theorem Evolves.upd_1024 {m : Nat} {s u : State} {x10 : Print} (b10 : m.testBit 10 = true)
    (h : Evolves m s u) :
    Evolves m s { u with print := x10 } := by
  obtain ⟨h0, h1, h2, h3, h4, h5, h6, h7, h8, h9, _, h11, h12, h13, h14, h15, h16, h17, h18, h19, h20, h21, h22, h23, h24, hW, hO, hF⟩ := h
  exact ⟨h0, h1, h2, h3, h4, h5, h6, h7, h8, h9, fun b => absurd b (by simp [b10]), h11, h12, h13, h14, h15, h16, h17, h18, h19, h20, h21, h22, h23, h24, hW, hO, hF⟩

theorem Evolves.upd_2048 {m : Nat} {s u : State} {x11 : Dram} (b11 : m.testBit 11 = true) (hw : memWf u.dram.mem = true → memWf x11.mem = true)
    (h : Evolves m s u) :
    Evolves m s { u with dram := x11 } := by
  obtain ⟨h0, h1, h2, h3, h4, h5, h6, h7, h8, h9, h10, _, h12, h13, h14, h15, h16, h17, h18, h19, h20, h21, h22, h23, h24, hW, hO, hF⟩ := h
  exact ⟨h0, h1, h2, h3, h4, h5, h6, h7, h8, h9, h10, fun b => absurd b (by simp [b11]), h12, h13, h14, h15, h16, h17, h18, h19, h20, h21, h22, h23, h24, fun w => hw (hW w), hO, hF⟩

theorem Evolves.upd_4096 {m : Nat} {s u : State} {x12 : HostSide} (b12 : m.testBit 12 = true)
    (h : Evolves m s u) :
    Evolves m s { u with host := x12 } := by
  obtain ⟨h0, h1, h2, h3, h4, h5, h6, h7, h8, h9, h10, h11, _, h13, h14, h15, h16, h17, h18, h19, h20, h21, h22, h23, h24, hW, hO, hF⟩ := h
  exact ⟨h0, h1, h2, h3, h4, h5, h6, h7, h8, h9, h10, h11, fun b => absurd b (by simp [b12]), h13, h14, h15, h16, h17, h18, h19, h20, h21, h22, h23, h24, hW, hO, hF⟩

theorem Evolves.upd_8192 {m : Nat} {s u : State} {x13 : Links} (b13 : m.testBit 13 = true)
    (h : Evolves m s u) :
    Evolves m s { u with links := x13 } := by
  obtain ⟨h0, h1, h2, h3, h4, h5, h6, h7, h8, h9, h10, h11, h12, _, h14, h15, h16, h17, h18, h19, h20, h21, h22, h23, h24, hW, hO, hF⟩ := h
  exact ⟨h0, h1, h2, h3, h4, h5, h6, h7, h8, h9, h10, h11, h12, fun b => absurd b (by simp [b13]), h14, h15, h16, h17, h18, h19, h20, h21, h22, h23, h24, hW, hO, hF⟩

theorem Evolves.upd_16384 {m : Nat} {s u : State} {x14 : Cams} (b14 : m.testBit 14 = true)
    (h : Evolves m s u) :
    Evolves m s { u with cams := x14 } := by
  obtain ⟨h0, h1, h2, h3, h4, h5, h6, h7, h8, h9, h10, h11, h12, h13, _, h15, h16, h17, h18, h19, h20, h21, h22, h23, h24, hW, hO, hF⟩ := h
  exact ⟨h0, h1, h2, h3, h4, h5, h6, h7, h8, h9, h10, h11, h12, h13, fun b => absurd b (by simp [b14]), h15, h16, h17, h18, h19, h20, h21, h22, h23, h24, hW, hO, hF⟩

theorem Evolves.upd_17408 {m : Nat} {s u : State} {x10 : Print} {x14 : Cams} (b10 : m.testBit 10 = true) (b14 : m.testBit 14 = true)
    (h : Evolves m s u) :
    Evolves m s { u with print := x10, cams := x14 } := by
  obtain ⟨h0, h1, h2, h3, h4, h5, h6, h7, h8, h9, _, h11, h12, h13, _, h15, h16, h17, h18, h19, h20, h21, h22, h23, h24, hW, hO, hF⟩ := h
  exact ⟨h0, h1, h2, h3, h4, h5, h6, h7, h8, h9, fun b => absurd b (by simp [b10]), h11, h12, h13, fun b => absurd b (by simp [b14]), h15, h16, h17, h18, h19, h20, h21, h22, h23, h24, hW, hO, hF⟩

theorem Evolves.upd_32768 {m : Nat} {s u : State} {x15 : PairSt} (b15 : m.testBit 15 = true)
    (h : Evolves m s u) :
    Evolves m s { u with pair := x15 } := by
  obtain ⟨h0, h1, h2, h3, h4, h5, h6, h7, h8, h9, h10, h11, h12, h13, h14, _, h16, h17, h18, h19, h20, h21, h22, h23, h24, hW, hO, hF⟩ := h
  exact ⟨h0, h1, h2, h3, h4, h5, h6, h7, h8, h9, h10, h11, h12, h13, h14, fun b => absurd b (by simp [b15]), h16, h17, h18, h19, h20, h21, h22, h23, h24, hW, hO, hF⟩

theorem Evolves.upd_49152 {m : Nat} {s u : State} {x14 : Cams} {x15 : PairSt} (b14 : m.testBit 14 = true) (b15 : m.testBit 15 = true)
    (h : Evolves m s u) :
    Evolves m s { u with cams := x14, pair := x15 } := by
  obtain ⟨h0, h1, h2, h3, h4, h5, h6, h7, h8, h9, h10, h11, h12, h13, _, _, h16, h17, h18, h19, h20, h21, h22, h23, h24, hW, hO, hF⟩ := h
  exact ⟨h0, h1, h2, h3, h4, h5, h6, h7, h8, h9, h10, h11, h12, h13, fun b => absurd b (by simp [b14]), fun b => absurd b (by simp [b15]), h16, h17, h18, h19, h20, h21, h22, h23, h24, hW, hO, hF⟩

theorem Evolves.upd_65536 {m : Nat} {s u : State} {x16 : Motion} (b16 : m.testBit 16 = true)
    (h : Evolves m s u) :
    Evolves m s { u with motion := x16 } := by
  obtain ⟨h0, h1, h2, h3, h4, h5, h6, h7, h8, h9, h10, h11, h12, h13, h14, h15, _, h17, h18, h19, h20, h21, h22, h23, h24, hW, hO, hF⟩ := h
  exact ⟨h0, h1, h2, h3, h4, h5, h6, h7, h8, h9, h10, h11, h12, h13, h14, h15, fun b => absurd b (by simp [b16]), h17, h18, h19, h20, h21, h22, h23, h24, hW, hO, hF⟩

theorem Evolves.upd_131072 {m : Nat} {s u : State} {x17 : Evc} (b17 : m.testBit 17 = true)
    (h : Evolves m s u) :
    Evolves m s { u with evc := x17 } := by
  obtain ⟨h0, h1, h2, h3, h4, h5, h6, h7, h8, h9, h10, h11, h12, h13, h14, h15, h16, _, h18, h19, h20, h21, h22, h23, h24, hW, hO, hF⟩ := h
  exact ⟨h0, h1, h2, h3, h4, h5, h6, h7, h8, h9, h10, h11, h12, h13, h14, h15, h16, fun b => absurd b (by simp [b17]), h18, h19, h20, h21, h22, h23, h24, hW, hO, hF⟩

theorem Evolves.upd_262144 {m : Nat} {s u : State} {x18 : Power} (b18 : m.testBit 18 = true)
    (h : Evolves m s u) :
    Evolves m s { u with power := x18 } := by
  obtain ⟨h0, h1, h2, h3, h4, h5, h6, h7, h8, h9, h10, h11, h12, h13, h14, h15, h16, h17, _, h19, h20, h21, h22, h23, h24, hW, hO, hF⟩ := h
  exact ⟨h0, h1, h2, h3, h4, h5, h6, h7, h8, h9, h10, h11, h12, h13, h14, h15, h16, h17, fun b => absurd b (by simp [b18]), h19, h20, h21, h22, h23, h24, hW, hO, hF⟩

theorem Evolves.upd_524288 {m : Nat} {s u : State} {x19 : Disp} (b19 : m.testBit 19 = true)
    (h : Evolves m s u) :
    Evolves m s { u with disp := x19 } := by
  obtain ⟨h0, h1, h2, h3, h4, h5, h6, h7, h8, h9, h10, h11, h12, h13, h14, h15, h16, h17, h18, _, h20, h21, h22, h23, h24, hW, hO, hF⟩ := h
  exact ⟨h0, h1, h2, h3, h4, h5, h6, h7, h8, h9, h10, h11, h12, h13, h14, h15, h16, h17, h18, fun b => absurd b (by simp [b19]), h20, h21, h22, h23, h24, hW, hO, hF⟩

theorem Evolves.upd_1048576 {m : Nat} {s u : State} {x20 : Sys} (b20 : m.testBit 20 = true)
    (h : Evolves m s u) :
    Evolves m s { u with sys := x20 } := by
  obtain ⟨h0, h1, h2, h3, h4, h5, h6, h7, h8, h9, h10, h11, h12, h13, h14, h15, h16, h17, h18, h19, _, h21, h22, h23, h24, hW, hO, hF⟩ := h
  exact ⟨h0, h1, h2, h3, h4, h5, h6, h7, h8, h9, h10, h11, h12, h13, h14, h15, h16, h17, h18, h19, fun b => absurd b (by simp [b20]), h21, h22, h23, h24, hW, hO, hF⟩

theorem Evolves.upd_1055744 {m : Nat} {s u : State} {x10 : Print} {x11 : Dram} {x12 : HostSide} {x20 : Sys} (b10 : m.testBit 10 = true) (b11 : m.testBit 11 = true) (b12 : m.testBit 12 = true) (b20 : m.testBit 20 = true) (hw : memWf u.dram.mem = true → memWf x11.mem = true)
    (h : Evolves m s u) :
    Evolves m s { u with print := x10, dram := x11, host := x12, sys := x20 } := by
  obtain ⟨h0, h1, h2, h3, h4, h5, h6, h7, h8, h9, _, _, _, h13, h14, h15, h16, h17, h18, h19, _, h21, h22, h23, h24, hW, hO, hF⟩ := h
  exact ⟨h0, h1, h2, h3, h4, h5, h6, h7, h8, h9, fun b => absurd b (by simp [b10]), fun b => absurd b (by simp [b11]), fun b => absurd b (by simp [b12]), h13, h14, h15, h16, h17, h18, h19, fun b => absurd b (by simp [b20]), h21, h22, h23, h24, fun w => hw (hW w), hO, hF⟩

theorem Evolves.upd_1056768 {m : Nat} {s u : State} {x13 : Links} {x20 : Sys} (b13 : m.testBit 13 = true) (b20 : m.testBit 20 = true)
    (h : Evolves m s u) :
    Evolves m s { u with links := x13, sys := x20 } := by
  obtain ⟨h0, h1, h2, h3, h4, h5, h6, h7, h8, h9, h10, h11, h12, _, h14, h15, h16, h17, h18, h19, _, h21, h22, h23, h24, hW, hO, hF⟩ := h
  exact ⟨h0, h1, h2, h3, h4, h5, h6, h7, h8, h9, h10, h11, h12, fun b => absurd b (by simp [b13]), h14, h15, h16, h17, h18, h19, fun b => absurd b (by simp [b20]), h21, h22, h23, h24, hW, hO, hF⟩

theorem Evolves.upd_2097152 {m : Nat} {s u : State} {x21 : List Nat} (b21 : m.testBit 21 = true)
    (h : Evolves m s u) :
    Evolves m s { u with snapWait := x21 } := by
  obtain ⟨h0, h1, h2, h3, h4, h5, h6, h7, h8, h9, h10, h11, h12, h13, h14, h15, h16, h17, h18, h19, h20, _, h22, h23, h24, hW, hO, hF⟩ := h
  exact ⟨h0, h1, h2, h3, h4, h5, h6, h7, h8, h9, h10, h11, h12, h13, h14, h15, h16, h17, h18, h19, h20, fun b => absurd b (by simp [b21]), h22, h23, h24, hW, hO, hF⟩

theorem Evolves.upd_4194304 {m : Nat} {s u : State} {x22 : Nat} (b22 : m.testBit 22 = true) (hf : u.freeCount ≤ x22)
    (h : Evolves m s u) :
    Evolves m s { u with freeCount := x22 } := by
  obtain ⟨h0, h1, h2, h3, h4, h5, h6, h7, h8, h9, h10, h11, h12, h13, h14, h15, h16, h17, h18, h19, h20, h21, _, h23, h24, hW, hO, hF⟩ := h
  exact ⟨h0, h1, h2, h3, h4, h5, h6, h7, h8, h9, h10, h11, h12, h13, h14, h15, h16, h17, h18, h19, h20, h21, fun b => absurd b (by simp [b22]), h23, h24, hW, hO, Nat.le_trans hF hf⟩

theorem Evolves.upd_8388608 {m : Nat} {s u : State} {x23 : List Out} (b23 : m.testBit 23 = true) (ho : u.out <+: x23)
    (h : Evolves m s u) :
    Evolves m s { u with out := x23 } := by
  obtain ⟨h0, h1, h2, h3, h4, h5, h6, h7, h8, h9, h10, h11, h12, h13, h14, h15, h16, h17, h18, h19, h20, h21, h22, _, h24, hW, hO, hF⟩ := h
  exact ⟨h0, h1, h2, h3, h4, h5, h6, h7, h8, h9, h10, h11, h12, h13, h14, h15, h16, h17, h18, h19, h20, h21, h22, fun b => absurd b (by simp [b23]), h24, hW, hO.trans ho, hF⟩

end Sys2Proof.Machine
end

