-- ==== Sys2Proof/Laws/Frames.lean ====
section
/-! SUPPORT. What each operation and each meaning can change: for every definition `f` of the machine that answers a state,
one lemma `f_evolves` with the mask of the fields that it may change (bits count in the order of State's declaration). -/

set_option linter.all false

namespace Sys2Proof.Machine
set_option Elab.async false
set_option maxRecDepth 4000
open Sys2Proof

variable {m : Nat} {u : State}

theorem dropLine_evolves (s : State) (x1) (hm : 1024 ||| m = m) (h : Evolves m u s) :
    Evolves m u (dropLine s x1) := by
  refine Evolves.step (k := 1024) ?_ hm h; clear h hm; unfold dropLine
  repeat' first
  | with_reducible first
     | apply Evolves.rfl | assumption | (apply lor_of_beq; focus decide)
     | fail_if_no_progress (apply Evolves.upd_1024; focus decide) | apply Evolves.ite | apply Evolves.foldl
  | intro _ | split | dsimp only

theorem setCounter_evolves (s : State) (x1) (x2) (x3) (hm : 64 ||| m = m) (h : Evolves m u s) :
    Evolves m u (setCounter s x1 x2 x3) := by
  refine Evolves.step (k := 64) ?_ hm h; clear h hm; unfold setCounter
  repeat' first
  | with_reducible first
     | apply Evolves.rfl | assumption | (apply lor_of_beq; focus decide)
     | fail_if_no_progress (apply Evolves.upd_64; focus decide) | apply Evolves.ite | apply Evolves.foldl
  | intro _ | split | dsimp only

theorem countN_evolves (s : State) (x1) (x2) (x3) (hm : 64 ||| m = m) (h : Evolves m u s) :
    Evolves m u (countN s x1 x2 x3) := by
  refine Evolves.step (k := 64) ?_ hm h; clear h hm; unfold countN
  repeat' first
  | with_reducible first
     | apply Evolves.rfl | assumption | (apply lor_of_beq; focus decide)
     | apply setCounter_evolves | apply Evolves.ite | apply Evolves.foldl
  | intro _ | split | dsimp only

theorem count_evolves (s : State) (x1) (x2) (hm : 64 ||| m = m) (h : Evolves m u s) :
    Evolves m u (count s x1 x2) := by
  refine Evolves.step (k := 64) ?_ hm h; clear h hm; unfold count
  repeat' first
  | with_reducible first
     | apply Evolves.rfl | assumption | (apply lor_of_beq; focus decide)
     | apply countN_evolves | apply Evolves.ite | apply Evolves.foldl
  | intro _ | split | dsimp only

theorem send_evolves (s : State) (x1) (hm : 8388608 ||| m = m) (h : Evolves m u s) :
    Evolves m u (send s x1) := by
  refine Evolves.step (k := 8388608) ?_ hm h; clear h hm; unfold send
  exact Evolves.upd_8388608 (by decide) (List.prefix_append _ _) Evolves.rfl

theorem setLane_evolves (s : State) (x1) (x2) (hm : 8192 ||| m = m) (h : Evolves m u s) :
    Evolves m u (setLane s x1 x2) := by
  refine Evolves.step (k := 8192) ?_ hm h; clear h hm; unfold setLane
  repeat' first
  | with_reducible first
     | apply Evolves.rfl | assumption | (apply lor_of_beq; focus decide)
     | fail_if_no_progress (apply Evolves.upd_8192; focus decide) | apply Evolves.ite | apply Evolves.foldl
  | intro _ | split | dsimp only

theorem flnSend_evolves (s : State) (x1) (x2) (x3) (x4) (hm : 8396864 ||| m = m) (h : Evolves m u s) :
    Evolves m u (flnSend s x1 x2 x3 x4) := by
  refine Evolves.step (k := 8396864) ?_ hm h; clear h hm; unfold flnSend
  repeat' first
  | with_reducible first
     | apply Evolves.rfl | assumption | (apply lor_of_beq; focus decide)
     | apply count_evolves | apply send_evolves | apply setLane_evolves | apply Evolves.ite | apply Evolves.foldl
  | intro _ | split | dsimp only

theorem sendSync_evolves (s : State) (x1) (hm : 8396864 ||| m = m) (h : Evolves m u s) :
    Evolves m u (sendSync s x1) := by
  refine Evolves.step (k := 8396864) ?_ hm h; clear h hm; unfold sendSync
  repeat' first
  | with_reducible first
     | apply Evolves.rfl | assumption | (apply lor_of_beq; focus decide)
     | apply flnSend_evolves | apply setLane_evolves | apply Evolves.ite | apply Evolves.foldl
  | intro _ | split | dsimp only

theorem execSyncSend_evolves (x0) (s1 : State) (hm : 8396864 ||| m = m) (h : Evolves m u s1) :
    Evolves m u (taken s1 (execSyncSend x0 s1)) := by
  refine Evolves.step (k := 8396864) ?_ hm h; clear h hm; unfold execSyncSend
  repeat' first
  | with_reducible first
     | apply Evolves.rfl | assumption | (apply lor_of_beq; focus decide)
     | apply Evolves.next | apply sendSync_evolves | apply Evolves.ite | apply Evolves.foldl
  | intro _ | split | dsimp only

theorem wr_evolves (s : State) (x1) (x2) (hm : 1 ||| m = m) (h : Evolves m u s) :
    Evolves m u (wr s x1 x2) := by
  refine Evolves.step (k := 1) ?_ hm h; clear h hm; unfold wr
  repeat' first
  | with_reducible first
     | apply Evolves.rfl | assumption | (apply lor_of_beq; focus decide)
     | fail_if_no_progress (apply Evolves.upd_1; focus decide) | apply Evolves.ite | apply Evolves.foldl
  | intro _ | split | dsimp only

theorem setSession_evolves (s : State) (x1) (x2) (hm : 4096 ||| m = m) (h : Evolves m u s) :
    Evolves m u (setSession s x1 x2) := by
  refine Evolves.step (k := 4096) ?_ hm h; clear h hm; unfold setSession
  repeat' first
  | with_reducible first
     | apply Evolves.rfl | assumption | (apply lor_of_beq; focus decide)
     | fail_if_no_progress (apply Evolves.upd_4096; focus decide) | apply Evolves.ite | apply Evolves.foldl
  | intro _ | split | dsimp only

theorem sendMsg_evolves (s : State) (x1) (x2) (x3) (hm : 8388608 ||| m = m) (h : Evolves m u s) :
    Evolves m u (sendMsg s x1 x2 x3) := by
  refine Evolves.step (k := 8388608) ?_ hm h; clear h hm; unfold sendMsg
  repeat' first
  | with_reducible first
     | apply Evolves.rfl | assumption | (apply lor_of_beq; focus decide)
     | apply send_evolves | apply Evolves.ite | apply Evolves.foldl
  | intro _ | split | dsimp only

theorem sendEvent_evolves (s : State) (x1) (hm : 8392768 ||| m = m) (h : Evolves m u s) :
    Evolves m u (sendEvent s x1) := by
  refine Evolves.step (k := 8392768) ?_ hm h; clear h hm; unfold sendEvent
  repeat' first
  | with_reducible first
     | apply Evolves.rfl | assumption | (apply lor_of_beq; focus decide)
     | apply setSession_evolves | apply sendMsg_evolves | apply count_evolves | apply Evolves.ite
     | apply Evolves.foldl
  | intro _ | split | dsimp only

theorem sendEvents_evolves (s : State) (hm : 8392768 ||| m = m) (h : Evolves m u s) :
    Evolves m u (sendEvents s) := by
  refine Evolves.step (k := 8392768) ?_ hm h; clear h hm; unfold sendEvents
  repeat' first
  | with_reducible first
     | apply Evolves.rfl | assumption | (apply lor_of_beq; focus decide)
     | apply sendEvent_evolves | apply Evolves.ite | apply Evolves.foldl
  | intro _ | split | dsimp only

theorem setEvc_evolves (s : State) (x1) (hm : 131072 ||| m = m) (h : Evolves m u s) :
    Evolves m u (setEvc s x1) := by
  refine Evolves.step (k := 131072) ?_ hm h; clear h hm; unfold setEvc
  repeat' first
  | with_reducible first
     | apply Evolves.rfl | assumption | (apply lor_of_beq; focus decide)
     | fail_if_no_progress (apply Evolves.upd_131072; focus decide) | apply Evolves.ite | apply Evolves.foldl
  | intro _ | split | dsimp only

theorem msix_evolves (s : State) (x1) (hm : 8392704 ||| m = m) (h : Evolves m u s) :
    Evolves m u (msix s x1) := by
  refine Evolves.step (k := 8392704) ?_ hm h; clear h hm; unfold msix
  repeat' first
  | with_reducible first
     | apply Evolves.rfl | assumption | (apply lor_of_beq; focus decide)
     | apply send_evolves | fail_if_no_progress (apply Evolves.upd_4096; focus decide) | apply Evolves.ite
     | apply Evolves.foldl
  | intro _ | split | dsimp only

theorem signalMsix_evolves (s : State) (hm : 8523840 ||| m = m) (h : Evolves m u s) :
    Evolves m u (signalMsix s) := by
  refine Evolves.step (k := 8523840) ?_ hm h; clear h hm; unfold signalMsix
  repeat' first
  | with_reducible first
     | apply Evolves.rfl | assumption | (apply lor_of_beq; focus decide)
     | apply count_evolves | apply setEvc_evolves | apply msix_evolves | apply Evolves.ite | apply Evolves.foldl
  | intro _ | split | dsimp only

theorem hostPin_evolves (s : State) (s1 : State) (hm : 8388672 ||| m = m) (h : Evolves m u s1) :
    Evolves m u (hostPin s s1) := by
  refine Evolves.step (k := 8388672) ?_ hm h; clear h hm; unfold hostPin
  repeat' first
  | with_reducible first
     | apply Evolves.rfl | assumption | (apply lor_of_beq; focus decide)
     | apply count_evolves | apply send_evolves | apply Evolves.ite | apply Evolves.foldl
  | intro _ | split | dsimp only

theorem setFlag_evolves (s : State) (x1) (hm : 8523840 ||| m = m) (h : Evolves m u s) :
    Evolves m u (setFlag s x1) := by
  refine Evolves.step (k := 8523840) ?_ hm h; clear h hm; unfold setFlag
  repeat' first
  | with_reducible first
     | apply Evolves.rfl | assumption | (apply lor_of_beq; focus decide)
     | apply sendEvents_evolves | apply signalMsix_evolves | apply hostPin_evolves | apply setEvc_evolves
     | apply Evolves.ite | apply Evolves.foldl
  | intro _ | split | dsimp only

theorem notify_evolves (s : State) (x1) (hm : 8523840 ||| m = m) (h : Evolves m u s) :
    Evolves m u (notify s x1) := by
  refine Evolves.step (k := 8523840) ?_ hm h; clear h hm; unfold notify
  repeat' first
  | with_reducible first
     | apply Evolves.rfl | assumption | (apply lor_of_beq; focus decide)
     | apply setFlag_evolves | apply Evolves.ite | apply Evolves.foldl
  | intro _ | split | dsimp only

theorem evBits_evolves (s : State) (x1) (x2) (hm : 8523841 ||| m = m) (h : Evolves m u s) :
    Evolves m u (evBits s x1 x2) := by
  refine Evolves.step (k := 8523841) ?_ hm h; clear h hm; unfold evBits
  repeat' first
  | with_reducible first
     | apply Evolves.rfl | assumption | (apply lor_of_beq; focus decide)
     | apply wr_evolves | apply notify_evolves | apply Evolves.ite | apply Evolves.foldl
  | intro _ | split | dsimp only

theorem evSet_evolves (s : State) (x1) (x2) (hm : 8523841 ||| m = m) (h : Evolves m u s) :
    Evolves m u (evSet s x1 x2) := by
  refine Evolves.step (k := 8523841) ?_ hm h; clear h hm; unfold evSet
  repeat' first
  | with_reducible first
     | apply Evolves.rfl | assumption | (apply lor_of_beq; focus decide)
     | apply evBits_evolves | apply Evolves.ite | apply Evolves.foldl
  | intro _ | split | dsimp only

theorem ev_evolves (s : State) (x1) (x2) (hm : 8523841 ||| m = m) (h : Evolves m u s) :
    Evolves m u (ev s x1 x2) := by
  refine Evolves.step (k := 8523841) ?_ hm h; clear h hm; unfold ev
  repeat' first
  | with_reducible first
     | apply Evolves.rfl | assumption | (apply lor_of_beq; focus decide)
     | apply evBits_evolves | apply Evolves.ite | apply Evolves.foldl
  | intro _ | split | dsimp only

theorem holdHealth_evolves (s : State) (x1) (hm : 8523841 ||| m = m) (h : Evolves m u s) :
    Evolves m u (holdHealth s x1) := by
  refine Evolves.step (k := 8523841) ?_ hm h; clear h hm; unfold holdHealth
  repeat' first
  | with_reducible first
     | apply Evolves.rfl | assumption | (apply lor_of_beq; focus decide)
     | apply ev_evolves | apply count_evolves | apply wr_evolves | apply Evolves.ite | apply Evolves.foldl
  | intro _ | split | dsimp only

theorem ramEnter_evolves (s : State) (x1) (hm : 1048640 ||| m = m) (h : Evolves m u s) :
    Evolves m u (ramEnter s x1) := by
  refine Evolves.step (k := 1048640) ?_ hm h; clear h hm; unfold ramEnter
  repeat' first
  | with_reducible first
     | apply Evolves.rfl | assumption | (apply lor_of_beq; focus decide)
     | apply count_evolves | fail_if_no_progress (apply Evolves.upd_1048576; focus decide) | apply Evolves.ite
     | apply Evolves.foldl
  | intro _ | split | dsimp only

theorem nvEnter_evolves (s : State) (x1) (hm : 1048576 ||| m = m) (h : Evolves m u s) :
    Evolves m u (nvEnter s x1) := by
  refine Evolves.step (k := 1048576) ?_ hm h; clear h hm; unfold nvEnter
  repeat' first
  | with_reducible first
     | apply Evolves.rfl | assumption | (apply lor_of_beq; focus decide)
     | fail_if_no_progress (apply Evolves.upd_1048576; focus decide) | apply Evolves.ite | apply Evolves.foldl
  | intro _ | split | dsimp only

theorem ioResend_evolves (s : State) (hm : 8396864 ||| m = m) (h : Evolves m u s) :
    Evolves m u (ioResend s) := by
  refine Evolves.step (k := 8396864) ?_ hm h; clear h hm; unfold ioResend
  repeat' first
  | with_reducible first
     | apply Evolves.rfl | assumption | (apply lor_of_beq; focus decide)
     | apply flnSend_evolves | apply Evolves.ite | apply Evolves.foldl
  | intro _ | split | dsimp only

theorem slowSync_evolves (s : State) (hm : 8396864 ||| m = m) (h : Evolves m u s) :
    Evolves m u (slowSync s) := by
  refine Evolves.step (k := 8396864) ?_ hm h; clear h hm; unfold slowSync
  repeat' first
  | with_reducible first
     | apply Evolves.rfl | assumption | (apply lor_of_beq; focus decide)
     | apply ioResend_evolves | fail_if_no_progress (apply Evolves.upd_8192; focus decide) | apply Evolves.ite
     | apply Evolves.foldl
  | intro _ | split | dsimp only

theorem bootFail_evolves (s : State) (hm : 9580609 ||| m = m) (h : Evolves m u s) :
    Evolves m u (bootFail s) := by
  refine Evolves.step (k := 9580609) ?_ hm h; clear h hm; unfold bootFail
  repeat' first
  | with_reducible first
     | apply Evolves.rfl | assumption | (apply lor_of_beq; focus decide)
     | apply ramEnter_evolves | apply nvEnter_evolves | apply count_evolves | apply ev_evolves
     | apply slowSync_evolves | fail_if_no_progress (apply Evolves.upd_1048576; focus decide) | apply Evolves.ite
     | apply Evolves.foldl
  | intro _ | split | dsimp only

theorem wrf_evolves (s : State) (x1) (x2) (x3) (x4) (hm : 1 ||| m = m) (h : Evolves m u s) :
    Evolves m u (wrf s x1 x2 x3 x4) := by
  refine Evolves.step (k := 1) ?_ hm h; clear h hm; unfold wrf
  repeat' first
  | with_reducible first
     | apply Evolves.rfl | assumption | (apply lor_of_beq; focus decide)
     | apply wr_evolves | apply Evolves.ite | apply Evolves.foldl
  | intro _ | split | dsimp only

theorem slotFails_evolves (s : State) (x1) (hm : 9580609 ||| m = m) (h : Evolves m u s) :
    Evolves m u (slotFails s x1) := by
  refine Evolves.step (k := 9580609) ?_ hm h; clear h hm; unfold slotFails
  repeat' first
  | with_reducible first
     | apply Evolves.rfl | assumption | (apply lor_of_beq; focus decide)
     | apply bootFail_evolves | apply wrf_evolves | fail_if_no_progress (apply Evolves.upd_1048576; focus decide)
     | apply Evolves.ite | apply Evolves.foldl
  | intro _ | split | dsimp only

theorem setTrimBusy_evolves (s : State) (x1) (x2) (hm : 1 ||| m = m) (h : Evolves m u s) :
    Evolves m u (setTrimBusy s x1 x2) := by
  refine Evolves.step (k := 1) ?_ hm h; clear h hm; unfold setTrimBusy
  repeat' first
  | with_reducible first
     | apply Evolves.rfl | assumption | (apply lor_of_beq; focus decide)
     | apply wrf_evolves | apply Evolves.ite | apply Evolves.foldl
  | intro _ | split | dsimp only

theorem bootTrims_evolves (s : State) (x1) (hm : 65 ||| m = m) (h : Evolves m u s) :
    Evolves m u (bootTrims s x1) := by
  refine Evolves.step (k := 65) ?_ hm h; clear h hm; unfold bootTrims
  repeat' first
  | with_reducible first
     | apply Evolves.rfl | assumption | (apply lor_of_beq; focus decide)
     | apply setTrimBusy_evolves | apply count_evolves | apply Evolves.ite | apply Evolves.foldl
  | intro _ | split | dsimp only

theorem pairPut_evolves (s : State) (x1) (x2) (x3) (x4) (x5) (hm : 8388672 ||| m = m) (h : Evolves m u s) :
    Evolves m u (pairPut s x1 x2 x3 x4 x5) := by
  refine Evolves.step (k := 8388672) ?_ hm h; clear h hm; unfold pairPut
  repeat' first
  | with_reducible first
     | apply Evolves.rfl | assumption | (apply lor_of_beq; focus decide)
     | apply send_evolves | apply count_evolves | apply Evolves.ite | apply Evolves.foldl
  | intro _ | split | dsimp only

theorem pairSendOn_evolves (s : State) (x1) (x2) (x3) (x4) (hm : 8421440 ||| m = m) (h : Evolves m u s) :
    Evolves m u (pairSendOn s x1 x2 x3 x4) := by
  refine Evolves.step (k := 8421440) ?_ hm h; clear h hm; unfold pairSendOn
  repeat' first
  | with_reducible first
     | apply Evolves.rfl | assumption | (apply lor_of_beq; focus decide)
     | apply pairPut_evolves | fail_if_no_progress (apply Evolves.upd_32768; focus decide) | apply Evolves.ite
     | apply Evolves.foldl
  | intro _ | split | dsimp only

theorem pairSendOne_evolves (s : State) (x1) (x2) (x3) (hm : 8421440 ||| m = m) (h : Evolves m u s) :
    Evolves m u (pairSendOne s x1 x2 x3) := by
  refine Evolves.step (k := 8421440) ?_ hm h; clear h hm; unfold pairSendOne
  repeat' first
  | with_reducible first
     | apply Evolves.rfl | assumption | (apply lor_of_beq; focus decide)
     | apply pairSendOn_evolves | apply Evolves.ite | apply Evolves.foldl
  | intro _ | split | dsimp only

theorem pairSendSeq_evolves (s : State) (x1) (x2) (x3) (hm : 8421440 ||| m = m) (h : Evolves m u s) :
    Evolves m u (pairSendSeq s x1 x2 x3) := by
  refine Evolves.step (k := 8421440) ?_ hm h; clear h hm; unfold pairSendSeq
  repeat' first
  | with_reducible first
     | apply Evolves.rfl | assumption | (apply lor_of_beq; focus decide)
     | apply pairSendOne_evolves | apply Evolves.ite | apply Evolves.foldl
  | intro _ | split | dsimp only

theorem gpioShow_evolves (s : State) (s1 : State) (hm : 8388608 ||| m = m) (h : Evolves m u s1) :
    Evolves m u (gpioShow s s1) := by
  refine Evolves.step (k := 8388608) ?_ hm h; clear h hm; unfold gpioShow
  repeat' first
  | with_reducible first
     | apply Evolves.rfl | assumption | (apply lor_of_beq; focus decide)
     | apply send_evolves | apply Evolves.ite | apply Evolves.foldl
  | intro _ | split | dsimp only

theorem setClk_evolves (s : State) (x1) (hm : 256 ||| m = m) (h : Evolves m u s) :
    Evolves m u (setClk s x1) := by
  refine Evolves.step (k := 256) ?_ hm h; clear h hm; unfold setClk
  repeat' first
  | with_reducible first
     | apply Evolves.rfl | assumption | (apply lor_of_beq; focus decide)
     | fail_if_no_progress (apply Evolves.upd_256; focus decide) | apply Evolves.ite | apply Evolves.foldl
  | intro _ | split | dsimp only

theorem ptcSource_evolves (s : State) (hm : 256 ||| m = m) (h : Evolves m u s) :
    Evolves m u (ptcSource s) := by
  refine Evolves.step (k := 256) ?_ hm h; clear h hm; unfold ptcSource
  repeat' first
  | with_reducible first
     | apply Evolves.rfl | assumption | (apply lor_of_beq; focus decide)
     | apply setClk_evolves | apply Evolves.ite | apply Evolves.foldl
  | intro _ | split | dsimp only

theorem setRole_evolves (s : State) (x1) (hm : 8438080 ||| m = m) (h : Evolves m u s) :
    Evolves m u (setRole s x1) := by
  refine Evolves.step (k := 8438080) ?_ hm h; clear h hm; unfold setRole
  have h1 : Evolves 8438080 s (ptcSource { s with
      pair := { s.pair with role := x1 }
      cams := { s.cams with noCamera := s.cams.noCamera && (x1 == 0 || x1 == 3) } }) :=
    ptcSource_evolves _ (by decide) (Evolves.upd_49152 (by decide) (by decide) Evolves.rfl)
  have h2 := gpioShow_evolves s _ (by decide) h1
  dsimp only
  split
  · exact pairSendSeq_evolves _ _ _ _ (by decide) h2
  · exact h2

theorem ptShow_evolves (x0) (s1 : State) (x2) (hm : 8388608 ||| m = m) (h : Evolves m u s1) :
    Evolves m u (ptShow x0 s1 x2) := by
  refine Evolves.step (k := 8388608) ?_ hm h; clear h hm; unfold ptShow
  repeat' first
  | with_reducible first
     | apply Evolves.rfl | assumption | (apply lor_of_beq; focus decide)
     | apply send_evolves | apply Evolves.ite | apply Evolves.foldl
  | intro _ | split | dsimp only

theorem ptShowAll_evolves (s : State) (s1 : State) (hm : 8388608 ||| m = m) (h : Evolves m u s1) :
    Evolves m u (ptShowAll s s1) := by
  refine Evolves.step (k := 8388608) ?_ hm h; clear h hm; unfold ptShowAll
  repeat' first
  | with_reducible first
     | apply Evolves.rfl | assumption | (apply lor_of_beq; focus decide)
     | apply ptShow_evolves | apply Evolves.ite | apply Evolves.foldl
  | intro _ | split | dsimp only

theorem setBar_evolves (s : State) (x1) (x2) (hm : 1024 ||| m = m) (h : Evolves m u s) :
    Evolves m u (setBar s x1 x2) := by
  refine Evolves.step (k := 1024) ?_ hm h; clear h hm; unfold setBar
  repeat' first
  | with_reducible first
     | apply Evolves.rfl | assumption | (apply lor_of_beq; focus decide)
     | fail_if_no_progress (apply Evolves.upd_1024; focus decide) | apply Evolves.ite | apply Evolves.foldl
  | intro _ | split | dsimp only

theorem stopBar_evolves (s : State) (x1) (hm : 1024 ||| m = m) (h : Evolves m u s) :
    Evolves m u (stopBar s x1) := by
  refine Evolves.step (k := 1024) ?_ hm h; clear h hm; unfold stopBar
  repeat' first
  | with_reducible first
     | apply Evolves.rfl | assumption | (apply lor_of_beq; focus decide)
     | apply setBar_evolves | apply Evolves.ite | apply Evolves.foldl
  | intro _ | split | dsimp only

theorem stopBars_evolves (s : State) (x1) (hm : 1024 ||| m = m) (h : Evolves m u s) :
    Evolves m u (stopBars s x1) := by
  refine Evolves.step (k := 1024) ?_ hm h; clear h hm; unfold stopBars
  repeat' first
  | with_reducible first
     | apply Evolves.rfl | assumption | (apply lor_of_beq; focus decide)
     | apply stopBar_evolves | apply Evolves.ite | apply Evolves.foldl
  | intro _ | split | dsimp only

theorem stopUnit_evolves (s : State) (x1) (hm : 9495872 ||| m = m) (h : Evolves m u s) :
    Evolves m u (stopUnit s x1) := by
  refine Evolves.step (k := 9495872) ?_ hm h; clear h hm; unfold stopUnit
  repeat' first
  | with_reducible first
     | apply Evolves.rfl | assumption | (apply lor_of_beq; focus decide)
     | apply slowSync_evolves | apply setRole_evolves | apply ptShowAll_evolves | apply stopBars_evolves
     | apply pairSendOn_evolves | fail_if_no_progress (apply Evolves.upd_1048576; focus decide) | apply Evolves.ite
     | apply Evolves.foldl
  | intro _ | split | dsimp only

theorem armSnapshot_evolves (s : State) (x1) (hm : 2097152 ||| m = m) (h : Evolves m u s) :
    Evolves m u (armSnapshot s x1) := by
  refine Evolves.step (k := 2097152) ?_ hm h; clear h hm; unfold armSnapshot
  repeat' first
  | with_reducible first
     | apply Evolves.rfl | assumption | (apply lor_of_beq; focus decide)
     | fail_if_no_progress (apply Evolves.upd_2097152; focus decide) | apply Evolves.ite | apply Evolves.foldl
  | intro _ | split | dsimp only

theorem faultAt_evolves (s : State) (x1) (x2) (x3) (x4) (x5) (x6) (hm : 11728193 ||| m = m) (h : Evolves m u s) :
    Evolves m u (faultAt s x1 x2 x3 x4 x5 x6) := by
  refine Evolves.step (k := 11728193) ?_ hm h; clear h hm; unfold faultAt
  repeat' first
  | with_reducible first
     | apply Evolves.rfl | assumption | (apply lor_of_beq; focus decide)
     | apply stopUnit_evolves | apply armSnapshot_evolves | apply ev_evolves | apply count_evolves
     | apply ramEnter_evolves | apply nvEnter_evolves | apply Evolves.ite | apply Evolves.foldl
  | intro _ | split | dsimp only

theorem fault_evolves (s : State) (x1) (x2) (x3) (x4) (x5) (hm : 11728193 ||| m = m) (h : Evolves m u s) :
    Evolves m u (fault s x1 x2 x3 x4 x5) := by
  refine Evolves.step (k := 11728193) ?_ hm h; clear h hm; unfold fault
  repeat' first
  | with_reducible first
     | apply Evolves.rfl | assumption | (apply lor_of_beq; focus decide)
     | apply faultAt_evolves | apply Evolves.ite | apply Evolves.foldl
  | intro _ | split | dsimp only

theorem imageOk_evolves (s : State) (hm : 11728193 ||| m = m) (h : Evolves m u s) :
    Evolves m u (imageOk s) := by
  refine Evolves.step (k := 11728193) ?_ hm h; clear h hm; unfold imageOk
  repeat' first
  | with_reducible first
     | apply Evolves.rfl | assumption | (apply lor_of_beq; focus decide)
     | apply bootTrims_evolves | apply fault_evolves | apply wrf_evolves
     | fail_if_no_progress (apply Evolves.upd_1048576; focus decide) | apply Evolves.ite | apply Evolves.foldl
  | intro _ | split | dsimp only

theorem execBootRetry_evolves (x0) (x1) (s2 : State) (hm : 11728193 ||| m = m) (h : Evolves m u s2) :
    Evolves m u (taken s2 (execBootRetry x0 x1 s2)) := by
  refine Evolves.step (k := 11728193) ?_ hm h; clear h hm; unfold execBootRetry
  repeat' first
  | with_reducible first
     | apply Evolves.rfl | assumption | (apply lor_of_beq; focus decide)
     | apply Evolves.next | apply slotFails_evolves | apply imageOk_evolves | apply slowSync_evolves
     | fail_if_no_progress (apply Evolves.upd_1048576; focus decide) | apply Evolves.ite | apply Evolves.foldl
  | intro _ | split | dsimp only

theorem setChan_evolves (s : State) (x1) (x2) (hm : 512 ||| m = m) (h : Evolves m u s) :
    Evolves m u (setChan s x1 x2) := by
  refine Evolves.step (k := 512) ?_ hm h; clear h hm; unfold setChan
  repeat' first
  | with_reducible first
     | apply Evolves.rfl | assumption | (apply lor_of_beq; focus decide)
     | fail_if_no_progress (apply Evolves.upd_512; focus decide) | apply Evolves.ite | apply Evolves.foldl
  | intro _ | split | dsimp only

theorem execStillTimeout_evolves (x0) (s1 : State) (hm : 8524353 ||| m = m) (h : Evolves m u s1) :
    Evolves m u (taken s1 (execStillTimeout x0 s1)) := by
  refine Evolves.step (k := 8524353) ?_ hm h; clear h hm; unfold execStillTimeout
  repeat' first
  | with_reducible first
     | apply Evolves.rfl | assumption | (apply lor_of_beq; focus decide)
     | apply Evolves.next | apply setChan_evolves | apply ev_evolves | apply Evolves.ite | apply Evolves.foldl
  | intro _ | split | dsimp only

theorem gshDiscard_evolves (s : State) (hm : 64 ||| m = m) (h : Evolves m u s) :
    Evolves m u (gshDiscard s) := by
  refine Evolves.step (k := 64) ?_ hm h; clear h hm; unfold gshDiscard
  repeat' first
  | with_reducible first
     | apply Evolves.rfl | assumption | (apply lor_of_beq; focus decide)
     | apply count_evolves | apply Evolves.ite | apply Evolves.foldl
  | intro _ | split | dsimp only

theorem rxDone_evolves (s : State) (x1) (hm : 4096 ||| m = m) (h : Evolves m u s) :
    Evolves m u (rxDone s x1) := by
  refine Evolves.step (k := 4096) ?_ hm h; clear h hm; unfold rxDone
  repeat' first
  | with_reducible first
     | apply Evolves.rfl | assumption | (apply lor_of_beq; focus decide)
     | fail_if_no_progress (apply Evolves.upd_4096; focus decide) | apply Evolves.ite | apply Evolves.foldl
  | intro _ | split | dsimp only

theorem onSession_evolves (s : State) (x1) (x2) (f3) (hf : ∀ x y0, Evolves m x (f3 x y0)) (hm : 4160 ||| m = m) (h : Evolves m u s) :
    Evolves m u (onSession s x1 x2 f3) := by
  refine h.trans ?_; clear h; unfold onSession
  repeat' first
  | with_reducible first
     | apply Evolves.rfl | assumption | (apply lor_of_beq; focus decide)
     | exact lor_sub (by decide) hm | apply Evolves.trans _ (hf _ _) | apply gshDiscard_evolves | apply rxDone_evolves
     | apply Evolves.ite | apply Evolves.foldl
  | intro _ | split | dsimp only

theorem markPersistent_evolves (s : State) (x1) (hm : 1024 ||| m = m) (h : Evolves m u s) :
    Evolves m u (markPersistent s x1) := by
  refine Evolves.step (k := 1024) ?_ hm h; clear h hm; unfold markPersistent
  repeat' first
  | with_reducible first
     | apply Evolves.rfl | assumption | (apply lor_of_beq; focus decide)
     | apply setBar_evolves | apply Evolves.ite | apply Evolves.foldl
  | intro _ | split | dsimp only

theorem quadErr_evolves (s : State) (x1) (hm : 11728193 ||| m = m) (h : Evolves m u s) :
    Evolves m u (quadErr s x1) := by
  refine Evolves.step (k := 11728193) ?_ hm h; clear h hm; unfold quadErr
  repeat' first
  | with_reducible first
     | apply Evolves.rfl | assumption | (apply lor_of_beq; focus decide)
     | apply markPersistent_evolves | apply count_evolves | apply ev_evolves | apply fault_evolves | apply Evolves.ite
     | apply Evolves.foldl
  | intro _ | split | dsimp only

theorem freeUse_evolves (s : State) (x1) (hm : 1 ||| m = m) (h : Evolves m u s) :
    Evolves m u (freeUse s x1) := by
  refine Evolves.step (k := 1) ?_ hm h; clear h hm; unfold freeUse
  repeat' first
  | with_reducible first
     | apply Evolves.rfl | assumption | (apply lor_of_beq; focus decide)
     | apply wrf_evolves | apply Evolves.ite | apply Evolves.foldl
  | intro _ | split | dsimp only

theorem dropUpdate_evolves (s : State) (hm : 8523841 ||| m = m) (h : Evolves m u s) :
    Evolves m u (dropUpdate s) := by
  refine Evolves.step (k := 8523841) ?_ hm h; clear h hm; unfold dropUpdate
  repeat' first
  | with_reducible first
     | apply Evolves.rfl | assumption | (apply lor_of_beq; focus decide)
     | apply ev_evolves | apply count_evolves | apply Evolves.ite | apply Evolves.foldl
  | intro _ | split | dsimp only

theorem refuseLate_evolves (s : State) (x1) (hm : 8523841 ||| m = m) (h : Evolves m u s) :
    Evolves m u (refuseLate s x1) := by
  refine Evolves.step (k := 8523841) ?_ hm h; clear h hm; unfold refuseLate
  repeat' first
  | with_reducible first
     | apply Evolves.rfl | assumption | (apply lor_of_beq; focus decide)
     | apply wr_evolves | apply ev_evolves | apply Evolves.ite | apply Evolves.foldl
  | intro _ | split | dsimp only

theorem setCm_evolves (s : State) (x1) (x2) (hm : 2 ||| m = m) (h : Evolves m u s) :
    Evolves m u (setCm s x1 x2) := by
  refine Evolves.step (k := 2) ?_ hm h; clear h hm; unfold setCm
  repeat' first
  | with_reducible first
     | apply Evolves.rfl | assumption | (apply lor_of_beq; focus decide)
     | fail_if_no_progress (apply Evolves.upd_2; focus decide) | apply Evolves.ite | apply Evolves.foldl
  | intro _ | split | dsimp only

theorem armAt_evolves (s : State) (x1) (x2) (hm : 8523843 ||| m = m) (h : Evolves m u s) :
    Evolves m u (armAt s x1 x2) := by
  refine Evolves.step (k := 8523843) ?_ hm h; clear h hm; unfold armAt
  repeat' first
  | with_reducible first
     | apply Evolves.rfl | assumption | (apply lor_of_beq; focus decide)
     | apply refuseLate_evolves | apply setCm_evolves | apply wr_evolves | apply Evolves.ite | apply Evolves.foldl
  | intro _ | split | dsimp only

theorem armLoop_evolves (s : State) (x1) (x2) (x3) (hm : 8540227 ||| m = m) (h : Evolves m u s) :
    Evolves m u (armLoop s x1 x2 x3) := by
  refine Evolves.step (k := 8540227) ?_ hm h; clear h hm; unfold armLoop
  repeat' first
  | with_reducible first
     | apply Evolves.rfl | assumption | (apply lor_of_beq; focus decide)
     | apply dropUpdate_evolves | apply armAt_evolves | fail_if_no_progress (apply Evolves.upd_16384; focus decide)
     | apply Evolves.ite | apply Evolves.foldl
  | intro _ | split | dsimp only

theorem wr64_evolves (s : State) (x1) (x2) (hm : 1 ||| m = m) (h : Evolves m u s) :
    Evolves m u (wr64 s x1 x2) := by
  refine Evolves.step (k := 1) ?_ hm h; clear h hm; unfold wr64
  repeat' first
  | with_reducible first
     | apply Evolves.rfl | assumption | (apply lor_of_beq; focus decide)
     | apply wr_evolves | apply Evolves.ite | apply Evolves.foldl
  | intro _ | split | dsimp only

theorem loopCommitted_evolves (s : State) (x1) (hm : 16385 ||| m = m) (h : Evolves m u s) :
    Evolves m u (loopCommitted s x1) := by
  refine Evolves.step (k := 16385) ?_ hm h; clear h hm; unfold loopCommitted
  repeat' first
  | with_reducible first
     | apply Evolves.rfl | assumption | (apply lor_of_beq; focus decide)
     | apply wr64_evolves | fail_if_no_progress (apply Evolves.upd_16384; focus decide) | apply Evolves.ite
     | apply Evolves.foldl
  | intro _ | split | dsimp only

theorem markMiss_evolves (s : State) (x1) (hm : 11728193 ||| m = m) (h : Evolves m u s) :
    Evolves m u (markMiss s x1) := by
  refine Evolves.step (k := 11728193) ?_ hm h; clear h hm; unfold markMiss
  repeat' first
  | with_reducible first
     | apply Evolves.rfl | assumption | (apply lor_of_beq; focus decide)
     | apply ev_evolves | apply fault_evolves | apply setBar_evolves | apply countN_evolves | apply Evolves.ite
     | apply Evolves.foldl
  | intro _ | split | dsimp only

theorem rearm_evolves (s : State) (x1) (x2) (hm : 11728193 ||| m = m) (h : Evolves m u s) :
    Evolves m u (rearm s x1 x2) := by
  refine Evolves.step (k := 11728193) ?_ hm h; clear h hm; unfold rearm
  repeat' first
  | with_reducible first
     | apply Evolves.rfl | assumption | (apply lor_of_beq; focus decide)
     | apply setBar_evolves | apply markMiss_evolves | apply Evolves.ite | apply Evolves.foldl
  | intro _ | split | dsimp only

theorem missLimit_evolves (s : State) (x1) (hm : 11728193 ||| m = m) (h : Evolves m u s) :
    Evolves m u (missLimit s x1) := by
  refine Evolves.step (k := 11728193) ?_ hm h; clear h hm; unfold missLimit
  repeat' first
  | with_reducible first
     | apply Evolves.rfl | assumption | (apply lor_of_beq; focus decide)
     | apply ev_evolves | apply fault_evolves | fail_if_no_progress (apply Evolves.upd_16384; focus decide)
     | apply Evolves.ite | apply Evolves.foldl
  | intro _ | split | dsimp only

theorem nozzleWrite_evolves (s : State) (x1) (x2) (x3) (hm : 8524865 ||| m = m) (h : Evolves m u s) :
    Evolves m u (nozzleWrite s x1 x2 x3) := by
  refine Evolves.step (k := 8524865) ?_ hm h; clear h hm; unfold nozzleWrite
  repeat' first
  | with_reducible first
     | apply Evolves.rfl | assumption | (apply lor_of_beq; focus decide)
     | apply wr_evolves | apply ev_evolves | apply setBar_evolves | apply Evolves.ite | apply Evolves.foldl
  | intro _ | split | dsimp only

theorem nozzleBar_evolves (s : State) (x1) (x2) (x3) (hm : 11728195 ||| m = m) (h : Evolves m u s) :
    Evolves m u (nozzleBar s x1 x2 x3) := by
  refine Evolves.step (k := 11728195) ?_ hm h; clear h hm; unfold nozzleBar
  repeat' first
  | with_reducible first
     | apply Evolves.rfl | assumption | (apply lor_of_beq; focus decide)
     | apply missLimit_evolves | apply armLoop_evolves | apply nozzleWrite_evolves | apply dropUpdate_evolves
     | apply Evolves.ite | apply Evolves.foldl
  | intro _ | split | dsimp only

theorem applyNozzles_evolves (s : State) (x1) (x2) (hm : 11728195 ||| m = m) (h : Evolves m u s) :
    Evolves m u (applyNozzles s x1 x2) := by
  refine Evolves.step (k := 11728195) ?_ hm h; clear h hm; unfold applyNozzles
  repeat' first
  | with_reducible first
     | apply Evolves.rfl | assumption | (apply lor_of_beq; focus decide)
     | apply nozzleBar_evolves | apply Evolves.ite | apply Evolves.foldl
  | intro _ | split | dsimp only

theorem dropLateSnap_evolves (s : State) (hm : 10620993 ||| m = m) (h : Evolves m u s) :
    Evolves m u (dropLateSnap s) := by
  refine Evolves.step (k := 10620993) ?_ hm h; clear h hm; unfold dropLateSnap
  repeat' first
  | with_reducible first
     | apply Evolves.rfl | assumption | (apply lor_of_beq; focus decide)
     | apply ev_evolves | fail_if_no_progress (apply Evolves.upd_2097152; focus decide) | apply Evolves.ite
     | apply Evolves.foldl
  | intro _ | split | dsimp only

theorem syncHeld_evolves (s : State) (hm : 1 ||| m = m) (h : Evolves m u s) :
    Evolves m u (syncHeld s) := by
  refine Evolves.step (k := 1) ?_ hm h; clear h hm; unfold syncHeld
  repeat' first
  | with_reducible first
     | apply Evolves.rfl | assumption | (apply lor_of_beq; focus decide)
     | apply wr_evolves | apply Evolves.ite | apply Evolves.foldl
  | intro _ | split | dsimp only

theorem releasePrint_evolves (s : State) (hm : 1 ||| m = m) (h : Evolves m u s) :
    Evolves m u (releasePrint s) := by
  refine Evolves.step (k := 1) ?_ hm h; clear h hm; unfold releasePrint
  repeat' first
  | with_reducible first
     | apply Evolves.rfl | assumption | (apply lor_of_beq; focus decide)
     | apply wrf_evolves | apply syncHeld_evolves | apply Evolves.ite | apply Evolves.foldl
  | intro _ | split | dsimp only

theorem setEntry_evolves (s : State) (x1) (x2) (hm : 4096 ||| m = m) (h : Evolves m u s) :
    Evolves m u (setEntry s x1 x2) := by
  refine Evolves.step (k := 4096) ?_ hm h; clear h hm; unfold setEntry
  repeat' first
  | with_reducible first
     | apply Evolves.rfl | assumption | (apply lor_of_beq; focus decide)
     | fail_if_no_progress (apply Evolves.upd_4096; focus decide) | apply Evolves.ite | apply Evolves.foldl
  | intro _ | split | dsimp only

theorem sendComplete_evolves (s : State) (x1) (hm : 8388608 ||| m = m) (h : Evolves m u s) :
    Evolves m u (sendComplete s x1) := by
  refine Evolves.step (k := 8388608) ?_ hm h; clear h hm; unfold sendComplete
  repeat' first
  | with_reducible first
     | apply Evolves.rfl | assumption | (apply lor_of_beq; focus decide)
     | apply sendMsg_evolves | apply Evolves.ite | apply Evolves.foldl
  | intro _ | split | dsimp only

theorem deliver_evolves (s : State) (x1) (hm : 8388608 ||| m = m) (h : Evolves m u s) :
    Evolves m u (deliver s x1) := by
  refine Evolves.step (k := 8388608) ?_ hm h; clear h hm; unfold deliver
  repeat' first
  | with_reducible first
     | apply Evolves.rfl | assumption | (apply lor_of_beq; focus decide)
     | apply sendComplete_evolves | apply Evolves.ite | apply Evolves.foldl
  | intro _ | split | dsimp only

theorem finish_evolves (s : State) (x1) (x2) (x3) (x4) (x5) (x6) (hm : 8392704 ||| m = m) (h : Evolves m u s) :
    Evolves m u (finish s x1 x2 x3 x4 x5 x6) := by
  refine Evolves.step (k := 8392704) ?_ hm h; clear h hm; unfold finish
  repeat' first
  | with_reducible first
     | apply Evolves.rfl | assumption | (apply lor_of_beq; focus decide)
     | apply setEntry_evolves | apply deliver_evolves | apply Evolves.ite | apply Evolves.foldl
  | intro _ | split | dsimp only

theorem markDirty_evolves (s : State) (x1) (x2) (hm : 32768 ||| m = m) (h : Evolves m u s) :
    Evolves m u (markDirty s x1 x2) := by
  refine Evolves.step (k := 32768) ?_ hm h; clear h hm; unfold markDirty
  repeat' first
  | with_reducible first
     | apply Evolves.rfl | assumption | (apply lor_of_beq; focus decide)
     | fail_if_no_progress (apply Evolves.upd_32768; focus decide) | apply Evolves.ite | apply Evolves.foldl
  | intro _ | split | dsimp only

theorem finishStatus_evolves (s : State) (x1) (x2) (hm : 8392704 ||| m = m) (h : Evolves m u s) :
    Evolves m u (finishStatus s x1 x2) := by
  refine Evolves.step (k := 8392704) ?_ hm h; clear h hm; unfold finishStatus
  repeat' first
  | with_reducible first
     | apply Evolves.rfl | assumption | (apply lor_of_beq; focus decide)
     | apply finish_evolves | apply Evolves.ite | apply Evolves.foldl
  | intro _ | split | dsimp only

theorem abortJob_evolves (s : State) (x1) (hm : 8392704 ||| m = m) (h : Evolves m u s) :
    Evolves m u (abortJob s x1) := by
  refine Evolves.step (k := 8392704) ?_ hm h; clear h hm; unfold abortJob
  repeat' first
  | with_reducible first
     | apply Evolves.rfl | assumption | (apply lor_of_beq; focus decide)
     | apply finishStatus_evolves | apply Evolves.ite | apply Evolves.foldl
  | intro _ | split | dsimp only

theorem jobRelease_evolves (s : State) (x1) (x2) (hm : 8426497 ||| m = m) (h : Evolves m u s) :
    Evolves m u (jobRelease s x1 x2) := by
  refine Evolves.step (k := 8426497) ?_ hm h; clear h hm; unfold jobRelease
  repeat' first
  | with_reducible first
     | apply Evolves.rfl | assumption | (apply lor_of_beq; focus decide)
     | apply releasePrint_evolves | apply finish_evolves | apply markDirty_evolves | apply abortJob_evolves
     | apply stopBars_evolves | apply finishStatus_evolves
     | fail_if_no_progress (apply Evolves.upd_1024; focus decide) | apply Evolves.ite | apply Evolves.foldl
  | intro _ | split | dsimp only

theorem onEntry_evolves (s : State) (x1) (x2) (f3) (hf : ∀ x y0, Evolves m x (f3 x y0)) (hm : 0 ||| m = m) (h : Evolves m u s) :
    Evolves m u (onEntry s x1 x2 f3) := by
  refine h.trans ?_; clear h; unfold onEntry
  repeat' first
  | with_reducible first
     | apply Evolves.rfl | assumption | (apply lor_of_beq; focus decide)
     | exact lor_sub (by decide) hm | apply Evolves.trans _ (hf _ _) | apply Evolves.ite | apply Evolves.foldl
  | intro _ | split | dsimp only

theorem execJobRelease_evolves (x0) (s1 : State) (hm : 8426497 ||| m = m) (h : Evolves m u s1) :
    Evolves m u (taken s1 (execJobRelease x0 s1)) := by
  refine Evolves.step (k := 8426497) ?_ hm h; clear h hm; unfold execJobRelease
  repeat' first
  | with_reducible first
     | apply Evolves.rfl | assumption | (apply lor_of_beq; focus decide)
     | apply Evolves.next | apply jobRelease_evolves | apply onEntry_evolves | apply Evolves.ite | apply Evolves.foldl
  | intro _ | split | dsimp only

theorem pushOld_evolves (s : State) (x1) (hm : 1024 ||| m = m) (h : Evolves m u s) :
    Evolves m u (pushOld s x1) := by
  refine Evolves.step (k := 1024) ?_ hm h; clear h hm; unfold pushOld
  repeat' first
  | with_reducible first
     | apply Evolves.rfl | assumption | (apply lor_of_beq; focus decide)
     | fail_if_no_progress (apply Evolves.upd_1024; focus decide) | apply Evolves.ite | apply Evolves.foldl
  | intro _ | split | dsimp only

theorem setPower_evolves (s : State) (x1) (hm : 262144 ||| m = m) (h : Evolves m u s) :
    Evolves m u (setPower s x1) := by
  refine Evolves.step (k := 262144) ?_ hm h; clear h hm; unfold setPower
  repeat' first
  | with_reducible first
     | apply Evolves.rfl | assumption | (apply lor_of_beq; focus decide)
     | fail_if_no_progress (apply Evolves.upd_262144; focus decide) | apply Evolves.ite | apply Evolves.foldl
  | intro _ | split | dsimp only

theorem setSensor_evolves (s : State) (x1) (x2) (hm : 262144 ||| m = m) (h : Evolves m u s) :
    Evolves m u (setSensor s x1 x2) := by
  refine Evolves.step (k := 262144) ?_ hm h; clear h hm; unfold setSensor
  repeat' first
  | with_reducible first
     | apply Evolves.rfl | assumption | (apply lor_of_beq; focus decide)
     | apply setPower_evolves | apply Evolves.ite | apply Evolves.foldl
  | intro _ | split | dsimp only

theorem replaceFailed_evolves (s : State) (hm : 262144 ||| m = m) (h : Evolves m u s) :
    Evolves m u (replaceFailed s) := by
  refine Evolves.step (k := 262144) ?_ hm h; clear h hm; unfold replaceFailed
  repeat' first
  | with_reducible first
     | apply Evolves.rfl | assumption | (apply lor_of_beq; focus decide)
     | apply setSensor_evolves | apply Evolves.ite | apply Evolves.foldl
  | intro _ | split | dsimp only

theorem setSub_evolves (s : State) (x1) (x2) (hm : 2048 ||| m = m) (h : Evolves m u s) :
    Evolves m u (setSub s x1 x2) := by
  refine Evolves.step (k := 2048) ?_ hm h; clear h hm; unfold setSub
  repeat' first
  | with_reducible first
     | apply Evolves.rfl | assumption | (apply lor_of_beq; focus decide)
     | fail_if_no_progress (apply Evolves.upd_2048; focus decide) | apply memWf_keep | apply memWf_write
     | apply memWf_block | apply Nat.le_succ | apply Evolves.ite | apply Evolves.foldl
  | intro _ | split | dsimp only

theorem syncDram_evolves (s : State) (hm : 8398913 ||| m = m) (h : Evolves m u s) :
    Evolves m u (syncDram s) := by
  refine Evolves.step (k := 8398913) ?_ hm h; clear h hm; unfold syncDram
  have hs (a v b w : Nat) : Evolves 8398913 s (wr (wr s a v) b w) :=
    wr_evolves _ _ _ (by decide) (wr_evolves _ _ _ (by decide) Evolves.rfl)
  dsimp only
  split
  · exact hs _ _ _ _
  · exact slowSync_evolves _ (by decide) (Evolves.upd_2048 (by decide) id
      (wr_evolves _ _ _ (by decide) (wr_evolves _ _ _ (by decide) (hs _ _ _ _))))

theorem makeHot_evolves (s : State) (x1) (hm : 8534081 ||| m = m) (h : Evolves m u s) :
    Evolves m u (makeHot s x1) := by
  refine Evolves.step (k := 8534081) ?_ hm h; clear h hm; unfold makeHot
  repeat' first
  | with_reducible first
     | apply Evolves.rfl | assumption | (apply lor_of_beq; focus decide)
     | apply syncDram_evolves | apply ev_evolves | apply wrf_evolves | apply setSub_evolves | apply Evolves.ite
     | apply Evolves.foldl
  | intro _ | split | dsimp only

theorem dramSensor_evolves (s : State) (x1) (x2) (x3) (hm : 8534081 ||| m = m) (h : Evolves m u s) :
    Evolves m u (dramSensor s x1 x2 x3) := by
  refine Evolves.step (k := 8534081) ?_ hm h; clear h hm; unfold dramSensor
  repeat' first
  | with_reducible first
     | apply Evolves.rfl | assumption | (apply lor_of_beq; focus decide)
     | apply setSub_evolves | apply makeHot_evolves | apply Evolves.ite | apply Evolves.foldl
  | intro _ | split | dsimp only

theorem remoteHot_evolves (s : State) (x1) (hm : 11992385 ||| m = m) (h : Evolves m u s) :
    Evolves m u (remoteHot s x1) := by
  refine Evolves.step (k := 11992385) ?_ hm h; clear h hm; unfold remoteHot
  repeat' first
  | with_reducible first
     | apply Evolves.rfl | assumption | (apply lor_of_beq; focus decide)
     | apply setSensor_evolves | apply ev_evolves | apply fault_evolves | apply dramSensor_evolves | apply Evolves.ite
     | apply Evolves.foldl
  | intro _ | split | dsimp only

theorem dirtyLine_evolves (s : State) (x1) (x2) (x3) (x4) (x5) (hm : 16384 ||| m = m) (h : Evolves m u s) :
    Evolves m u (dirtyLine s x1 x2 x3 x4 x5) := by
  refine Evolves.step (k := 16384) ?_ hm h; clear h hm; unfold dirtyLine
  repeat' first
  | with_reducible first
     | apply Evolves.rfl | assumption | (apply lor_of_beq; focus decide)
     | fail_if_no_progress (apply Evolves.upd_16384; focus decide) | apply Evolves.ite | apply Evolves.foldl
  | intro _ | split | dsimp only

theorem forgetPast_evolves (s : State) (hm : 1024 ||| m = m) (h : Evolves m u s) :
    Evolves m u (forgetPast s) := by
  refine Evolves.step (k := 1024) ?_ hm h; clear h hm; unfold forgetPast
  repeat' first
  | with_reducible first
     | apply Evolves.rfl | assumption | (apply lor_of_beq; focus decide)
     | fail_if_no_progress (apply Evolves.upd_1024; focus decide) | apply Evolves.ite | apply Evolves.foldl
  | intro _ | split | dsimp only

theorem setWin_evolves (s : State) (x1) (x2) (hm : 1025 ||| m = m) (h : Evolves m u s) :
    Evolves m u (setWin s x1 x2) := by
  refine Evolves.step (k := 1025) ?_ hm h; clear h hm; unfold setWin
  repeat' first
  | with_reducible first
     | apply Evolves.rfl | assumption | (apply lor_of_beq; focus decide)
     | apply wr_evolves | fail_if_no_progress (apply Evolves.upd_1024; focus decide) | apply Evolves.ite
     | apply Evolves.foldl
  | intro _ | split | dsimp only

theorem releaseSlots_evolves (s : State) (x1) (hm : 1025 ||| m = m) (h : Evolves m u s) :
    Evolves m u (releaseSlots s x1) := by
  refine Evolves.step (k := 1025) ?_ hm h; clear h hm; unfold releaseSlots
  repeat' first
  | with_reducible first
     | apply Evolves.rfl | assumption | (apply lor_of_beq; focus decide)
     | apply setWin_evolves | apply Evolves.ite | apply Evolves.foldl
  | intro _ | split | dsimp only

theorem setJob_evolves (s : State) (x1) (hm : 1024 ||| m = m) (h : Evolves m u s) :
    Evolves m u (setJob s x1) := by
  refine Evolves.step (k := 1024) ?_ hm h; clear h hm; unfold setJob
  repeat' first
  | with_reducible first
     | apply Evolves.rfl | assumption | (apply lor_of_beq; focus decide)
     | fail_if_no_progress (apply Evolves.upd_1024; focus decide) | apply Evolves.ite | apply Evolves.foldl
  | intro _ | split | dsimp only

theorem setTile_evolves (s : State) (x1) (hm : 1024 ||| m = m) (h : Evolves m u s) :
    Evolves m u (setTile s x1) := by
  refine Evolves.step (k := 1024) ?_ hm h; clear h hm; unfold setTile
  repeat' first
  | with_reducible first
     | apply Evolves.rfl | assumption | (apply lor_of_beq; focus decide)
     | fail_if_no_progress (apply Evolves.upd_1024; focus decide) | apply Evolves.ite | apply Evolves.foldl
  | intro _ | split | dsimp only

theorem jobAlloc_evolves (s : State) (x1) (f2) (hm : 1024 ||| m = m) (h : Evolves m u s) :
    Evolves m u (jobAlloc s x1 f2) := by
  refine Evolves.step (k := 1024) ?_ hm h; clear h hm; unfold jobAlloc
  repeat' first
  | with_reducible first
     | apply Evolves.rfl | assumption | (apply lor_of_beq; focus decide)
     | apply setJob_evolves | apply Evolves.ite | apply Evolves.foldl
  | intro _ | split | dsimp only

theorem freeTile_evolves (s : State) (x1) (hm : 33792 ||| m = m) (h : Evolves m u s) :
    Evolves m u (freeTile s x1) := by
  refine Evolves.step (k := 33792) ?_ hm h; clear h hm; unfold freeTile
  repeat' first
  | with_reducible first
     | apply Evolves.rfl | assumption | (apply lor_of_beq; focus decide)
     | apply setTile_evolves | apply markDirty_evolves | apply jobAlloc_evolves | apply Evolves.ite
     | apply Evolves.foldl
  | intro _ | split | dsimp only

theorem freePassed_evolves (s : State) (x1) (hm : 33792 ||| m = m) (h : Evolves m u s) :
    Evolves m u (freePassed s x1) := by
  refine Evolves.step (k := 33792) ?_ hm h; clear h hm; unfold freePassed
  repeat' first
  | with_reducible first
     | apply Evolves.rfl | assumption | (apply lor_of_beq; focus decide)
     | apply setJob_evolves | apply freeTile_evolves | fail_if_no_progress (apply Evolves.upd_1024; focus decide)
     | apply Evolves.ite | apply Evolves.foldl
  | intro _ | split | dsimp only

theorem endOld_evolves (s : State) (x1) (hm : 33793 ||| m = m) (h : Evolves m u s) :
    Evolves m u (endOld s x1) := by
  refine Evolves.step (k := 33793) ?_ hm h; clear h hm; unfold endOld
  repeat' first
  | with_reducible first
     | apply Evolves.rfl | assumption | (apply lor_of_beq; focus decide)
     | apply forgetPast_evolves | apply releaseSlots_evolves | apply freePassed_evolves
     | fail_if_no_progress (apply Evolves.upd_1024; focus decide) | apply Evolves.ite | apply Evolves.foldl
  | intro _ | split | dsimp only

theorem cmpShow_evolves (s : State) (x1) (hm : 1 ||| m = m) (h : Evolves m u s) :
    Evolves m u (cmpShow s x1) := by
  refine Evolves.step (k := 1) ?_ hm h; clear h hm; unfold cmpShow
  repeat' first
  | with_reducible first
     | apply Evolves.rfl | assumption | (apply lor_of_beq; focus decide)
     | apply wr_evolves | apply Evolves.ite | apply Evolves.foldl
  | intro _ | split | dsimp only

theorem setCmp_evolves (s : State) (x1) (x2) (hm : 65536 ||| m = m) (h : Evolves m u s) :
    Evolves m u (setCmp s x1 x2) := by
  refine Evolves.step (k := 65536) ?_ hm h; clear h hm; unfold setCmp
  repeat' first
  | with_reducible first
     | apply Evolves.rfl | assumption | (apply lor_of_beq; focus decide)
     | fail_if_no_progress (apply Evolves.upd_65536; focus decide) | apply Evolves.ite | apply Evolves.foldl
  | intro _ | split | dsimp only

theorem setCtx_evolves (s : State) (x1) (x2) (hm : 16384 ||| m = m) (h : Evolves m u s) :
    Evolves m u (setCtx s x1 x2) := by
  refine Evolves.step (k := 16384) ?_ hm h; clear h hm; unfold setCtx
  repeat' first
  | with_reducible first
     | apply Evolves.rfl | assumption | (apply lor_of_beq; focus decide)
     | fail_if_no_progress (apply Evolves.upd_16384; focus decide) | apply Evolves.ite | apply Evolves.foldl
  | intro _ | split | dsimp only

theorem strobe_evolves (s : State) (x1) (x2) (hm : 16448 ||| m = m) (h : Evolves m u s) :
    Evolves m u (strobe s x1 x2) := by
  refine Evolves.step (k := 16448) ?_ hm h; clear h hm; unfold strobe
  repeat' first
  | with_reducible first
     | apply Evolves.rfl | assumption | (apply lor_of_beq; focus decide)
     | apply count_evolves | apply setCtx_evolves | apply Evolves.ite | apply Evolves.foldl
  | intro _ | split | dsimp only

theorem cmpPulse_evolves (s : State) (x1) (x2) (hm : 8540225 ||| m = m) (h : Evolves m u s) :
    Evolves m u (cmpPulse s x1 x2) := by
  refine Evolves.step (k := 8540225) ?_ hm h; clear h hm; unfold cmpPulse
  repeat' first
  | with_reducible first
     | apply Evolves.rfl | assumption | (apply lor_of_beq; focus decide)
     | apply strobe_evolves | apply send_evolves | apply wr64_evolves | apply count_evolves | apply ev_evolves
     | apply wr_evolves | apply Evolves.ite | apply Evolves.foldl
  | intro _ | split | dsimp only

theorem cmpFire_evolves (s : State) (x1) (hm : 8605761 ||| m = m) (h : Evolves m u s) :
    Evolves m u (cmpFire s x1) := by
  refine Evolves.step (k := 8605761) ?_ hm h; clear h hm; unfold cmpFire
  repeat' first
  | with_reducible first
     | apply Evolves.rfl | assumption | (apply lor_of_beq; focus decide)
     | apply countN_evolves | apply ev_evolves | apply cmpShow_evolves | apply wr64_evolves | apply setCmp_evolves
     | apply cmpPulse_evolves | apply Evolves.ite | apply Evolves.foldl
  | intro _ | split | dsimp only

theorem refuse_evolves (s : State) (x1) (hm : 8523841 ||| m = m) (h : Evolves m u s) :
    Evolves m u (refuse s x1) := by
  refine Evolves.step (k := 8523841) ?_ hm h; clear h hm; unfold refuse
  repeat' first
  | with_reducible first
     | apply Evolves.rfl | assumption | (apply lor_of_beq; focus decide)
     | apply ev_evolves | apply Evolves.ite | apply Evolves.foldl
  | intro _ | split | dsimp only

theorem cmpArmDir_evolves (s : State) (x1) (x2) (x3) (hm : 8605761 ||| m = m) (h : Evolves m u s) :
    Evolves m u (cmpArmDir s x1 x2 x3) := by
  refine Evolves.step (k := 8605761) ?_ hm h; clear h hm; unfold cmpArmDir
  repeat' first
  | with_reducible first
     | apply Evolves.rfl | assumption | (apply lor_of_beq; focus decide)
     | apply cmpShow_evolves | apply cmpFire_evolves | apply wr_evolves | apply ev_evolves | apply setCmp_evolves
     | apply refuse_evolves | apply Evolves.ite | apply Evolves.foldl
  | intro _ | split | dsimp only

theorem cmpArm_evolves (s : State) (x1) (x2) (hm : 8605761 ||| m = m) (h : Evolves m u s) :
    Evolves m u (cmpArm s x1 x2) := by
  refine Evolves.step (k := 8605761) ?_ hm h; clear h hm; unfold cmpArm
  repeat' first
  | with_reducible first
     | apply Evolves.rfl | assumption | (apply lor_of_beq; focus decide)
     | apply cmpArmDir_evolves | apply Evolves.ite | apply Evolves.foldl
  | intro _ | split | dsimp only

theorem writeStrobe_evolves (s : State) (x1) (x2) (hm : 8605761 ||| m = m) (h : Evolves m u s) :
    Evolves m u (writeStrobe s x1 x2) := by
  refine Evolves.step (k := 8605761) ?_ hm h; clear h hm; unfold writeStrobe
  repeat' first
  | with_reducible first
     | apply Evolves.rfl | assumption | (apply lor_of_beq; focus decide)
     | apply count_evolves | apply wr64_evolves | apply cmpArm_evolves | apply wrf_evolves | apply Evolves.ite
     | apply Evolves.foldl
  | intro _ | split | dsimp only

theorem loopLine_evolves (s : State) (x1) (hm : 8605761 ||| m = m) (h : Evolves m u s) :
    Evolves m u (loopLine s x1) := by
  refine Evolves.step (k := 8605761) ?_ hm h; clear h hm; unfold loopLine
  repeat' first
  | with_reducible first
     | apply Evolves.rfl | assumption | (apply lor_of_beq; focus decide)
     | apply count_evolves | apply ev_evolves | apply writeStrobe_evolves | apply wrf_evolves
     | fail_if_no_progress (apply Evolves.upd_16384; focus decide) | apply Evolves.ite | apply Evolves.foldl
  | intro _ | split | dsimp only

theorem demand_evolves (s : State) (x1) (x2) (hm : 2048 ||| m = m) (h : Evolves m u s) :
    Evolves m u (demand s x1 x2) := by
  refine Evolves.step (k := 2048) ?_ hm h; clear h hm; unfold demand
  refine Evolves.upd_2048 (by decide) ?_ Evolves.rfl
  intro w
  repeat' split
  all_goals exact w

theorem enqueueThaw_evolves (s : State) (x1) (x2) (hm : 3072 ||| m = m) (h : Evolves m u s) :
    Evolves m u (enqueueThaw s x1 x2) := by
  refine Evolves.step (k := 3072) ?_ hm h; clear h hm; unfold enqueueThaw
  repeat' first
  | with_reducible first
     | apply Evolves.rfl | assumption | (apply lor_of_beq; focus decide)
     | apply demand_evolves | fail_if_no_progress (apply Evolves.upd_1024; focus decide) | apply Evolves.ite
     | apply Evolves.foldl
  | intro _ | split | dsimp only

theorem tileFault_evolves (s : State) (x1) (x2) (x3) (x4) (hm : 11728193 ||| m = m) (h : Evolves m u s) :
    Evolves m u (tileFault s x1 x2 x3 x4) := by
  refine Evolves.step (k := 11728193) ?_ hm h; clear h hm; unfold tileFault
  repeat' first
  | with_reducible first
     | apply Evolves.rfl | assumption | (apply lor_of_beq; focus decide)
     | apply ev_evolves | apply faultAt_evolves | apply Evolves.ite | apply Evolves.foldl
  | intro _ | split | dsimp only

theorem thawTile_evolves (s : State) (x1) (x2) (x3) (hm : 11730241 ||| m = m) (h : Evolves m u s) :
    Evolves m u (thawTile s x1 x2 x3) := by
  refine Evolves.step (k := 11730241) ?_ hm h; clear h hm; unfold thawTile
  repeat' first
  | with_reducible first
     | apply Evolves.rfl | assumption | (apply lor_of_beq; focus decide)
     | apply enqueueThaw_evolves | apply setTile_evolves | apply tileFault_evolves | apply Evolves.ite
     | apply Evolves.foldl
  | intro _ | split | dsimp only

theorem thawRows_evolves (s : State) (x1) (x2) (x3) (hm : 11730241 ||| m = m) (h : Evolves m u s) :
    Evolves m u (thawRows s x1 x2 x3) := by
  refine Evolves.step (k := 11730241) ?_ hm h; clear h hm; unfold thawRows
  repeat' first
  | with_reducible first
     | apply Evolves.rfl | assumption | (apply lor_of_beq; focus decide)
     | apply thawTile_evolves | apply Evolves.ite | apply Evolves.foldl
  | intro _ | split | dsimp only

theorem thawLines_evolves (s : State) (x1) (x2) (hm : 11730241 ||| m = m) (h : Evolves m u s) :
    Evolves m u (thawLines s x1 x2) := by
  refine Evolves.step (k := 11730241) ?_ hm h; clear h hm; unfold thawLines
  repeat' first
  | with_reducible first
     | apply Evolves.rfl | assumption | (apply lor_of_beq; focus decide)
     | apply thawRows_evolves | apply Evolves.ite | apply Evolves.foldl
  | intro _ | split | dsimp only

theorem newBuildLine_evolves (s : State) (x1) (x2) (hm : 11795777 ||| m = m) (h : Evolves m u s) :
    Evolves m u (newBuildLine s x1 x2) := by
  refine Evolves.step (k := 11795777) ?_ hm h; clear h hm; unfold newBuildLine
  repeat' first
  | with_reducible first
     | apply Evolves.rfl | assumption | (apply lor_of_beq; focus decide)
     | apply loopLine_evolves | apply thawLines_evolves | apply Evolves.ite | apply Evolves.foldl
  | intro _ | split | dsimp only

theorem sendHeadItems_evolves (s : State) (x1) (x2) (x3) (x4) (x5) (x6) (hm : 8396864 ||| m = m) (h : Evolves m u s) :
    Evolves m u (sendHeadItems s x1 x2 x3 x4 x5 x6) := by
  refine Evolves.step (k := 8396864) ?_ hm h; clear h hm; unfold sendHeadItems
  repeat' first
  | with_reducible first
     | apply Evolves.rfl | assumption | (apply lor_of_beq; focus decide)
     | apply flnSend_evolves | apply Evolves.ite | apply Evolves.foldl
  | intro _ | split | dsimp only

theorem sendJobItems_evolves (s : State) (x1) (hm : 8396864 ||| m = m) (h : Evolves m u s) :
    Evolves m u (sendJobItems s x1) := by
  refine Evolves.step (k := 8396864) ?_ hm h; clear h hm; unfold sendJobItems
  repeat' first
  | with_reducible first
     | apply Evolves.rfl | assumption | (apply lor_of_beq; focus decide)
     | apply sendHeadItems_evolves | apply flnSend_evolves | apply Evolves.ite | apply Evolves.foldl
  | intro _ | split | dsimp only

theorem showLoads_evolves (s : State) (x1) (hm : 1 ||| m = m) (h : Evolves m u s) :
    Evolves m u (showLoads s x1) := by
  refine Evolves.step (k := 1) ?_ hm h; clear h hm; unfold showLoads
  repeat' first
  | with_reducible first
     | apply Evolves.rfl | assumption | (apply lor_of_beq; focus decide)
     | apply wr_evolves | apply Evolves.ite | apply Evolves.foldl
  | intro _ | split | dsimp only

theorem claimPrint_evolves (s : State) (hm : 1 ||| m = m) (h : Evolves m u s) :
    Evolves m u (claimPrint s) := by
  refine Evolves.step (k := 1) ?_ hm h; clear h hm; unfold claimPrint
  repeat' first
  | with_reducible first
     | apply Evolves.rfl | assumption | (apply lor_of_beq; focus decide)
     | apply wrf_evolves | apply syncHeld_evolves | apply Evolves.ite | apply Evolves.foldl
  | intro _ | split | dsimp only

theorem jobBegun_evolves (s : State) (x1) (x2) (hm : 11795777 ||| m = m) (h : Evolves m u s) :
    Evolves m u (jobBegun s x1 x2) := by
  refine Evolves.step (k := 11795777) ?_ hm h; clear h hm; unfold jobBegun
  repeat' first
  | with_reducible first
     | apply Evolves.rfl | assumption | (apply lor_of_beq; focus decide)
     | apply newBuildLine_evolves | apply sendJobItems_evolves | apply showLoads_evolves | apply claimPrint_evolves
     | apply setJob_evolves | apply Evolves.ite | apply Evolves.foldl
  | intro _ | split | dsimp only

theorem disarmJob_evolves (s : State) (x1) (hm : 8393728 ||| m = m) (h : Evolves m u s) :
    Evolves m u (disarmJob s x1) := by
  refine Evolves.step (k := 8393728) ?_ hm h; clear h hm; unfold disarmJob
  repeat' first
  | with_reducible first
     | apply Evolves.rfl | assumption | (apply lor_of_beq; focus decide)
     | apply finishStatus_evolves | apply setJob_evolves | apply setBar_evolves | apply Evolves.ite
     | apply Evolves.foldl
  | intro _ | split | dsimp only

theorem onTileReq_evolves (s : State) (x1) (hm : 8421440 ||| m = m) (h : Evolves m u s) :
    Evolves m u (onTileReq s x1) := by
  refine Evolves.step (k := 8421440) ?_ hm h; clear h hm; unfold onTileReq
  repeat' first
  | with_reducible first
     | apply Evolves.rfl | assumption | (apply lor_of_beq; focus decide)
     | apply pairSendSeq_evolves | apply Evolves.ite | apply Evolves.foldl
  | intro _ | split | dsimp only

theorem setPair_evolves (s : State) (x1) (hm : 32768 ||| m = m) (h : Evolves m u s) :
    Evolves m u (setPair s x1) := by
  refine Evolves.step (k := 32768) ?_ hm h; clear h hm; unfold setPair
  repeat' first
  | with_reducible first
     | apply Evolves.rfl | assumption | (apply lor_of_beq; focus decide)
     | fail_if_no_progress (apply Evolves.upd_32768; focus decide) | apply Evolves.ite | apply Evolves.foldl
  | intro _ | split | dsimp only

theorem pairRecord_evolves (s : State) (x1) (x2) (hm : 11728193 ||| m = m) (h : Evolves m u s) :
    Evolves m u (pairRecord s x1 x2) := by
  refine Evolves.step (k := 11728193) ?_ hm h; clear h hm; unfold pairRecord
  repeat' first
  | with_reducible first
     | apply Evolves.rfl | assumption | (apply lor_of_beq; focus decide)
     | apply fault_evolves | apply Evolves.ite | apply Evolves.foldl
  | intro _ | split | dsimp only

theorem signalHost_evolves (s : State) (hm : 8523840 ||| m = m) (h : Evolves m u s) :
    Evolves m u (signalHost s) := by
  refine Evolves.step (k := 8523840) ?_ hm h; clear h hm; unfold signalHost
  repeat' first
  | with_reducible first
     | apply Evolves.rfl | assumption | (apply lor_of_beq; focus decide)
     | apply setEvc_evolves | apply setFlag_evolves | apply Evolves.ite | apply Evolves.foldl
  | intro _ | split | dsimp only

theorem serveFromService_evolves (s : State) (hm : 4096 ||| m = m) (h : Evolves m u s) :
    Evolves m u (serveFromService s) := by
  refine Evolves.step (k := 4096) ?_ hm h; clear h hm; unfold serveFromService
  repeat' first
  | with_reducible first
     | apply Evolves.rfl | assumption | (apply lor_of_beq; focus decide)
     | fail_if_no_progress (apply Evolves.upd_4096; focus decide) | apply Evolves.ite | apply Evolves.foldl
  | intro _ | split | dsimp only

theorem replaySession_evolves (s : State) (x1) (hm : 8392704 ||| m = m) (h : Evolves m u s) :
    Evolves m u (replaySession s x1) := by
  refine Evolves.step (k := 8392704) ?_ hm h; clear h hm; unfold replaySession
  repeat' first
  | with_reducible first
     | apply Evolves.rfl | assumption | (apply lor_of_beq; focus decide)
     | apply setEntry_evolves | apply deliver_evolves | apply Evolves.ite | apply Evolves.foldl
  | intro _ | split | dsimp only

theorem setAxis_evolves (s : State) (x1) (x2) (hm : 65536 ||| m = m) (h : Evolves m u s) :
    Evolves m u (setAxis s x1 x2) := by
  refine Evolves.step (k := 65536) ?_ hm h; clear h hm; unfold setAxis
  repeat' first
  | with_reducible first
     | apply Evolves.rfl | assumption | (apply lor_of_beq; focus decide)
     | fail_if_no_progress (apply Evolves.upd_65536; focus decide) | apply Evolves.ite | apply Evolves.foldl
  | intro _ | split | dsimp only

theorem resumeAxes_evolves (s : State) (hm : 65536 ||| m = m) (h : Evolves m u s) :
    Evolves m u (resumeAxes s) := by
  refine Evolves.step (k := 65536) ?_ hm h; clear h hm; unfold resumeAxes
  repeat' first
  | with_reducible first
     | apply Evolves.rfl | assumption | (apply lor_of_beq; focus decide)
     | apply setAxis_evolves | apply Evolves.ite | apply Evolves.foldl
  | intro _ | split | dsimp only

theorem checkCamera_evolves (s : State) (hm : 11728193 ||| m = m) (h : Evolves m u s) :
    Evolves m u (checkCamera s) := by
  refine Evolves.step (k := 11728193) ?_ hm h; clear h hm; unfold checkCamera
  repeat' first
  | with_reducible first
     | apply Evolves.rfl | assumption | (apply lor_of_beq; focus decide)
     | apply fault_evolves | fail_if_no_progress (apply Evolves.upd_16384; focus decide) | apply Evolves.ite
     | apply Evolves.foldl
  | intro _ | split | dsimp only

theorem clearRuns_evolves (s : State) (hm : 33792 ||| m = m) (h : Evolves m u s) :
    Evolves m u (clearRuns s) := by
  refine Evolves.step (k := 33792) ?_ hm h; clear h hm; unfold clearRuns
  repeat' first
  | with_reducible first
     | apply Evolves.rfl | assumption | (apply lor_of_beq; focus decide)
     | apply setPair_evolves | fail_if_no_progress (apply Evolves.upd_1024; focus decide) | apply Evolves.ite
     | apply Evolves.foldl
  | intro _ | split | dsimp only

theorem becomeActive_evolves (s : State) (hm : 11793729 ||| m = m) (h : Evolves m u s) :
    Evolves m u (becomeActive s) := by
  refine Evolves.step (k := 11793729) ?_ hm h; clear h hm; unfold becomeActive
  repeat' first
  | with_reducible first
     | apply Evolves.rfl | assumption | (apply lor_of_beq; focus decide)
     | apply slowSync_evolves | apply resumeAxes_evolves | apply setRole_evolves | apply checkCamera_evolves
     | apply setPair_evolves | apply wr_evolves | apply clearRuns_evolves | apply pairRecord_evolves
     | fail_if_no_progress (apply Evolves.upd_4096; focus decide) | apply Evolves.ite | apply Evolves.foldl
  | intro _ | split | dsimp only

theorem takeover_evolves (s : State) (hm : 11793729 ||| m = m) (h : Evolves m u s) :
    Evolves m u (takeover s) := by
  refine Evolves.step (k := 11793729) ?_ hm h; clear h hm; unfold takeover
  repeat' first
  | with_reducible first
     | apply Evolves.rfl | assumption | (apply lor_of_beq; focus decide)
     | apply pairRecord_evolves | apply ev_evolves | apply count_evolves | apply signalHost_evolves
     | apply serveFromService_evolves | apply replaySession_evolves | apply becomeActive_evolves | apply Evolves.ite
     | apply Evolves.foldl
  | intro _ | split | dsimp only

theorem partnerStopped_evolves (s : State) (hm : 11793729 ||| m = m) (h : Evolves m u s) :
    Evolves m u (partnerStopped s) := by
  refine Evolves.step (k := 11793729) ?_ hm h; clear h hm; unfold partnerStopped
  repeat' first
  | with_reducible first
     | apply Evolves.rfl | assumption | (apply lor_of_beq; focus decide)
     | apply setPair_evolves | apply ev_evolves | apply takeover_evolves | apply Evolves.ite | apply Evolves.foldl
  | intro _ | split | dsimp only

theorem onFault_evolves (s : State) (hm : 11793729 ||| m = m) (h : Evolves m u s) :
    Evolves m u (onFault s) := by
  refine Evolves.step (k := 11793729) ?_ hm h; clear h hm; unfold onFault
  repeat' first
  | with_reducible first
     | apply Evolves.rfl | assumption | (apply lor_of_beq; focus decide)
     | apply partnerStopped_evolves | apply Evolves.ite | apply Evolves.foldl
  | intro _ | split | dsimp only

theorem catchStart_evolves (s : State) (x1) (hm : 11730241 ||| m = m) (h : Evolves m u s) :
    Evolves m u (catchStart s x1) := by
  refine Evolves.step (k := 11730241) ?_ hm h; clear h hm; unfold catchStart
  repeat' first
  | with_reducible first
     | apply Evolves.rfl | assumption | (apply lor_of_beq; focus decide)
     | apply thawRows_evolves | apply setBar_evolves | apply setWin_evolves | apply Evolves.ite | apply Evolves.foldl
  | intro _ | split | dsimp only

theorem becomeReady_evolves (s : State) (x1) (hm : 8574273 ||| m = m) (h : Evolves m u s) :
    Evolves m u (becomeReady s x1) := by
  refine Evolves.step (k := 8574273) ?_ hm h; clear h hm; unfold becomeReady
  repeat' first
  | with_reducible first
     | apply Evolves.rfl | assumption | (apply lor_of_beq; focus decide)
     | apply setRole_evolves | apply ev_evolves | apply setPair_evolves | apply wr_evolves | apply clearRuns_evolves
     | apply Evolves.ite | apply Evolves.foldl
  | intro _ | split | dsimp only

theorem aligned_evolves (s : State) (hm : 11730241 ||| m = m) (h : Evolves m u s) :
    Evolves m u (aligned s) := by
  refine Evolves.step (k := 11730241) ?_ hm h; clear h hm; unfold aligned
  repeat' first
  | with_reducible first
     | apply Evolves.rfl | assumption | (apply lor_of_beq; focus decide)
     | apply catchStart_evolves | apply claimPrint_evolves | apply becomeReady_evolves | apply setPair_evolves
     | apply Evolves.ite | apply Evolves.foldl
  | intro _ | split | dsimp only

theorem joinFail_evolves (s : State) (hm : 11728193 ||| m = m) (h : Evolves m u s) :
    Evolves m u (joinFail s) := by
  refine Evolves.step (k := 11728193) ?_ hm h; clear h hm; unfold joinFail
  repeat' first
  | with_reducible first
     | apply Evolves.rfl | assumption | (apply lor_of_beq; focus decide)
     | apply pairSendSeq_evolves | apply ev_evolves | apply pairRecord_evolves | apply setPair_evolves
     | apply stopBars_evolves | apply clearRuns_evolves | apply Evolves.ite | apply Evolves.foldl
  | intro _ | split | dsimp only

theorem onPosition_evolves (s : State) (x1) (hm : 11730753 ||| m = m) (h : Evolves m u s) :
    Evolves m u (onPosition s x1) := by
  refine Evolves.step (k := 11730753) ?_ hm h; clear h hm; unfold onPosition
  repeat' first
  | with_reducible first
     | apply Evolves.rfl | assumption | (apply lor_of_beq; focus decide)
     | apply aligned_evolves | apply setChan_evolves | apply setPair_evolves | apply pairSendSeq_evolves
     | apply joinFail_evolves | apply Evolves.ite | apply Evolves.foldl
  | intro _ | split | dsimp only

theorem onCatchup_evolves (s : State) (x1) (hm : 11730241 ||| m = m) (h : Evolves m u s) :
    Evolves m u (onCatchup s x1) := by
  refine Evolves.step (k := 11730241) ?_ hm h; clear h hm; unfold onCatchup
  repeat' first
  | with_reducible first
     | apply Evolves.rfl | assumption | (apply lor_of_beq; focus decide)
     | apply aligned_evolves | apply setPair_evolves | apply clearRuns_evolves | apply Evolves.ite
     | apply Evolves.foldl
  | intro _ | split | dsimp only

theorem clearCopied_evolves (s : State) (hm : 21511 ||| m = m) (h : Evolves m u s) :
    Evolves m u (clearCopied s) := by
  refine Evolves.step (k := 21511) ?_ hm h; clear h hm; unfold clearCopied
  exact
    ⟨fun b => absurd b (by decide), fun b => absurd b (by decide), fun b => absurd b (by decide), fun _ => rfl,
    fun _ => rfl, fun _ => rfl, fun _ => rfl, fun _ => rfl, fun _ => rfl, fun _ => rfl, fun b => absurd b (by
    decide), fun _ => rfl, fun b => absurd b (by decide), fun _ => rfl, fun b => absurd b (by decide), fun _ =>
    rfl, fun _ => rfl, fun _ => rfl, fun _ => rfl, fun _ => rfl, fun _ => rfl, fun _ => rfl, fun _ => rfl, fun _
    => rfl, fun _ => rfl, fun w => w, List.prefix_rfl, Nat.le_refl _⟩

theorem sendPosition_evolves (s : State) (x1) (hm : 8421440 ||| m = m) (h : Evolves m u s) :
    Evolves m u (sendPosition s x1) := by
  refine Evolves.step (k := 8421440) ?_ hm h; clear h hm; unfold sendPosition
  repeat' first
  | with_reducible first
     | apply Evolves.rfl | assumption | (apply lor_of_beq; focus decide)
     | apply pairSendSeq_evolves | apply Evolves.ite | apply Evolves.foldl
  | intro _ | split | dsimp only

theorem sendCatchup_evolves (s : State) (x1) (hm : 8422464 ||| m = m) (h : Evolves m u s) :
    Evolves m u (sendCatchup s x1) := by
  refine Evolves.step (k := 8422464) ?_ hm h; clear h hm; unfold sendCatchup
  repeat' first
  | with_reducible first
     | apply Evolves.rfl | assumption | (apply lor_of_beq; focus decide)
     | apply pairSendSeq_evolves | apply clearRuns_evolves | apply setPair_evolves | apply sendPosition_evolves
     | apply Evolves.ite | apply Evolves.foldl
  | intro _ | split | dsimp only

theorem advanceHead_evolves (s : State) (x1) (hm : 1 ||| m = m) (h : Evolves m u s) :
    Evolves m u (advanceHead s x1) := by
  refine Evolves.step (k := 1) ?_ hm h; clear h hm; unfold advanceHead
  repeat' first
  | with_reducible first
     | apply Evolves.rfl | assumption | (apply lor_of_beq; focus decide)
     | apply wr_evolves | apply Evolves.ite | apply Evolves.foldl
  | intro _ | split | dsimp only

theorem sendHeader_evolves (s : State) (x1) (x2) (hm : 8388608 ||| m = m) (h : Evolves m u s) :
    Evolves m u (sendHeader s x1 x2) := by
  refine Evolves.step (k := 8388608) ?_ hm h; clear h hm; unfold sendHeader
  repeat' first
  | with_reducible first
     | apply Evolves.rfl | assumption | (apply lor_of_beq; focus decide)
     | apply sendMsg_evolves | apply Evolves.ite | apply Evolves.foldl
  | intro _ | split | dsimp only

theorem releaseHeld_evolves (s : State) (f1) (hm : 8392705 ||| m = m) (h : Evolves m u s) :
    Evolves m u (releaseHeld s f1) := by
  refine Evolves.step (k := 8392705) ?_ hm h; clear h hm; unfold releaseHeld
  repeat' first
  | with_reducible first
     | apply Evolves.rfl | assumption | (apply lor_of_beq; focus decide)
     | apply advanceHead_evolves | apply sendHeader_evolves
     | fail_if_no_progress (apply Evolves.upd_4096; focus decide) | apply Evolves.ite | apply Evolves.foldl
  | intro _ | split | dsimp only

theorem endCopy_evolves (s : State) (hm : 8426497 ||| m = m) (h : Evolves m u s) :
    Evolves m u (endCopy s) := by
  refine Evolves.step (k := 8426497) ?_ hm h; clear h hm; unfold endCopy
  repeat' first
  | with_reducible first
     | apply Evolves.rfl | assumption | (apply lor_of_beq; focus decide)
     | apply setPair_evolves | apply releaseHeld_evolves | apply clearRuns_evolves | apply Evolves.ite
     | apply Evolves.foldl
  | intro _ | split | dsimp only

theorem sendCopy_evolves (s : State) (x1) (x2) (x3) (hm : 8421440 ||| m = m) (h : Evolves m u s) :
    Evolves m u (sendCopy s x1 x2 x3) := by
  refine Evolves.step (k := 8421440) ?_ hm h; clear h hm; unfold sendCopy
  repeat' first
  | with_reducible first
     | apply Evolves.rfl | assumption | (apply lor_of_beq; focus decide)
     | apply countN_evolves | apply pairSendSeq_evolves | apply Evolves.ite | apply Evolves.foldl
  | intro _ | split | dsimp only

theorem sendPieces_evolves (s : State) (x1) (x2) (x3) (hm : 8421440 ||| m = m) (h : Evolves m u s) :
    Evolves m u (sendPieces s x1 x2 x3) := by
  refine Evolves.step (k := 8421440) ?_ hm h; clear h hm; unfold sendPieces
  repeat' first
  | with_reducible first
     | apply Evolves.rfl | assumption | (apply lor_of_beq; focus decide)
     | apply sendCopy_evolves | apply Evolves.ite | apply Evolves.foldl
  | intro _ | split | dsimp only

theorem sendEntry_evolves (s : State) (x1) (x2) (hm : 8421440 ||| m = m) (h : Evolves m u s) :
    Evolves m u (sendEntry s x1 x2) := by
  refine Evolves.step (k := 8421440) ?_ hm h; clear h hm; unfold sendEntry
  repeat' first
  | with_reducible first
     | apply Evolves.rfl | assumption | (apply lor_of_beq; focus decide)
     | apply sendPieces_evolves | apply sendCopy_evolves | apply Evolves.ite | apply Evolves.foldl
  | intro _ | split | dsimp only

theorem sendLoop_evolves (s : State) (s1 : State) (hm : 8421440 ||| m = m) (h : Evolves m u s1) :
    Evolves m u (sendLoop s s1) := by
  refine Evolves.step (k := 8421440) ?_ hm h; clear h hm; unfold sendLoop
  repeat' first
  | with_reducible first
     | apply Evolves.rfl | assumption | (apply lor_of_beq; focus decide)
     | apply sendCopy_evolves | apply Evolves.ite | apply Evolves.foldl
  | intro _ | split | dsimp only

theorem sendTables_evolves (s : State) (hm : 8421440 ||| m = m) (h : Evolves m u s) :
    Evolves m u (sendTables s) := by
  refine Evolves.step (k := 8421440) ?_ hm h; clear h hm; unfold sendTables
  repeat' first
  | with_reducible first
     | apply Evolves.rfl | assumption | (apply lor_of_beq; focus decide)
     | apply sendEntry_evolves | apply sendLoop_evolves | apply sendCopy_evolves | apply pairSendSeq_evolves
     | apply setPair_evolves | apply Evolves.ite | apply Evolves.foldl
  | intro _ | split | dsimp only

theorem onCopyCtrl_evolves (s : State) (x1) (hm : 11730247 ||| m = m) (h : Evolves m u s) :
    Evolves m u (onCopyCtrl s x1) := by
  refine Evolves.step (k := 11730247) ?_ hm h; clear h hm; unfold onCopyCtrl
  repeat' first
  | with_reducible first
     | apply Evolves.rfl | assumption | (apply lor_of_beq; focus decide)
     | apply onCatchup_evolves | apply pairSendSeq_evolves | apply clearCopied_evolves | apply sendCatchup_evolves
     | apply setPair_evolves | apply endCopy_evolves | apply sendTables_evolves
     | fail_if_no_progress (apply Evolves.upd_1024; focus decide) | apply Evolves.ite | apply Evolves.foldl
  | intro _ | split | dsimp only

theorem copyLoop_evolves (s : State) (x1) (x2) (x3) (hm : 17408 ||| m = m) (h : Evolves m u s) :
    Evolves m u (copyLoop s x1 x2 x3) := by
  refine Evolves.step (k := 17408) ?_ hm h; clear h hm; unfold copyLoop
  repeat' first
  | with_reducible first
     | apply Evolves.rfl | assumption | (apply lor_of_beq; focus decide)
     | apply setBar_evolves | fail_if_no_progress (apply Evolves.upd_16384; focus decide) | apply Evolves.ite
     | apply Evolves.foldl
  | intro _ | split | dsimp only

theorem writeMem_evolves (s : State) (x1) (x2) (hm : 2048 ||| m = m) (h : Evolves m u s) :
    Evolves m u (writeMem s x1 x2) := by
  refine Evolves.step (k := 2048) ?_ hm h; clear h hm; unfold writeMem
  exact Evolves.upd_2048 (by decide) (fun w => memWrite_wf w _ _) Evolves.rfl

theorem writeSlot_evolves (s : State) (x1) (x2) (x3) (hm : 2048 ||| m = m) (h : Evolves m u s) :
    Evolves m u (writeSlot s x1 x2 x3) := by
  refine Evolves.step (k := 2048) ?_ hm h; clear h hm; unfold writeSlot
  repeat' first
  | with_reducible first
     | apply Evolves.rfl | assumption | (apply lor_of_beq; focus decide)
     | apply writeMem_evolves | apply Evolves.ite | apply Evolves.foldl
  | intro _ | split | dsimp only

theorem copySlot_evolves (s : State) (x1) (x2) (hm : 3072 ||| m = m) (h : Evolves m u s) :
    Evolves m u (copySlot s x1 x2) := by
  refine Evolves.step (k := 3072) ?_ hm h; clear h hm; unfold copySlot
  repeat' first
  | with_reducible first
     | apply Evolves.rfl | assumption | (apply lor_of_beq; focus decide)
     | apply setTile_evolves | apply writeSlot_evolves | fail_if_no_progress (apply Evolves.upd_1024; focus decide)
     | apply Evolves.ite | apply Evolves.foldl
  | intro _ | split | dsimp only

theorem askPartner_evolves (s : State) (x1) (x2) (hm : 8422464 ||| m = m) (h : Evolves m u s) :
    Evolves m u (askPartner s x1 x2) := by
  refine Evolves.step (k := 8422464) ?_ hm h; clear h hm; unfold askPartner
  repeat' first
  | with_reducible first
     | apply Evolves.rfl | assumption | (apply lor_of_beq; focus decide)
     | apply setTile_evolves | apply pairSendSeq_evolves | apply Evolves.ite | apply Evolves.foldl
  | intro _ | split | dsimp only

theorem copyTile_evolves (s : State) (x1) (hm : 8422464 ||| m = m) (h : Evolves m u s) :
    Evolves m u (copyTile s x1) := by
  refine Evolves.step (k := 8422464) ?_ hm h; clear h hm; unfold copyTile
  repeat' first
  | with_reducible first
     | apply Evolves.rfl | assumption | (apply lor_of_beq; focus decide)
     | apply askPartner_evolves | apply setTile_evolves | apply Evolves.ite | apply Evolves.foldl
  | intro _ | split | dsimp only

theorem onCopy_evolves (s : State) (x1) (hm : 8576067 ||| m = m) (h : Evolves m u s) :
    Evolves m u (onCopy s x1) := by
  refine Evolves.step (k := 8576067) ?_ hm h; clear h hm; unfold onCopy
  repeat' first
  | with_reducible first
     | apply Evolves.rfl | assumption | (apply lor_of_beq; focus decide)
     | apply copyLoop_evolves | apply copySlot_evolves | apply setJob_evolves | apply copyTile_evolves
     | apply writeMem_evolves | apply setEntry_evolves | apply setCm_evolves | apply wr_evolves | apply countN_evolves
     | apply setSession_evolves | fail_if_no_progress (apply Evolves.upd_4096; focus decide)
     | fail_if_no_progress (apply Evolves.upd_16384; focus decide)
     | fail_if_no_progress (apply Evolves.upd_131072; focus decide) | apply Evolves.ite | apply Evolves.foldl
  | intro _ | split | dsimp only

theorem takeInput_evolves (s : State) (x1) (x2) (x3) (x4) (hm : 8421440 ||| m = m) (h : Evolves m u s) :
    Evolves m u (takeInput s x1 x2 x3 x4) := by
  refine Evolves.step (k := 8421440) ?_ hm h; clear h hm; unfold takeInput
  repeat' first
  | with_reducible first
     | apply Evolves.rfl | assumption | (apply lor_of_beq; focus decide)
     | apply count_evolves | apply pairSendSeq_evolves | fail_if_no_progress (apply Evolves.upd_32768; focus decide)
     | apply Evolves.ite | apply Evolves.foldl
  | intro _ | split | dsimp only

theorem requestSwitch_evolves (s : State) (hm : 8556609 ||| m = m) (h : Evolves m u s) :
    Evolves m u (requestSwitch s) := by
  refine Evolves.step (k := 8556609) ?_ hm h; clear h hm; unfold requestSwitch
  repeat' first
  | with_reducible first
     | apply Evolves.rfl | assumption | (apply lor_of_beq; focus decide)
     | apply refuse_evolves | apply setPair_evolves | apply takeInput_evolves | apply Evolves.ite
     | apply Evolves.foldl
  | intro _ | split | dsimp only

theorem divergence_evolves (s : State) (x1) (x2) (x3) (hm : 11728193 ||| m = m) (h : Evolves m u s) :
    Evolves m u (divergence s x1 x2 x3) := by
  refine Evolves.step (k := 11728193) ?_ hm h; clear h hm; unfold divergence
  repeat' first
  | with_reducible first
     | apply Evolves.rfl | assumption | (apply lor_of_beq; focus decide)
     | apply ev_evolves | apply faultAt_evolves | apply Evolves.ite | apply Evolves.foldl
  | intro _ | split | dsimp only

theorem excuse_evolves (s : State) (x1) (x2) (x3) (hm : 11728193 ||| m = m) (h : Evolves m u s) :
    Evolves m u (excuse s x1 x2 x3) := by
  refine Evolves.step (k := 11728193) ?_ hm h; clear h hm; unfold excuse
  repeat' first
  | with_reducible first
     | apply Evolves.rfl | assumption | (apply lor_of_beq; focus decide)
     | apply setBar_evolves | apply divergence_evolves | apply setPair_evolves | apply count_evolves
     | apply Evolves.ite | apply Evolves.foldl
  | intro _ | split | dsimp only

theorem restartJoin_evolves (s : State) (hm : 11728193 ||| m = m) (h : Evolves m u s) :
    Evolves m u (restartJoin s) := by
  refine Evolves.step (k := 11728193) ?_ hm h; clear h hm; unfold restartJoin
  repeat' first
  | with_reducible first
     | apply Evolves.rfl | assumption | (apply lor_of_beq; focus decide)
     | apply pairSendSeq_evolves | apply setPair_evolves | apply stopBars_evolves | apply clearRuns_evolves
     | apply joinFail_evolves | apply Evolves.ite | apply Evolves.foldl
  | intro _ | split | dsimp only

theorem startJoin_evolves (s : State) (hm : 8422464 ||| m = m) (h : Evolves m u s) :
    Evolves m u (startJoin s) := by
  refine Evolves.step (k := 8422464) ?_ hm h; clear h hm; unfold startJoin
  repeat' first
  | with_reducible first
     | apply Evolves.rfl | assumption | (apply lor_of_beq; focus decide)
     | apply pairSendSeq_evolves | apply clearRuns_evolves | apply setPair_evolves | apply Evolves.ite
     | apply Evolves.foldl
  | intro _ | split | dsimp only

theorem enterJoining_evolves (s : State) (hm : 8439104 ||| m = m) (h : Evolves m u s) :
    Evolves m u (enterJoining s) := by
  refine Evolves.step (k := 8439104) ?_ hm h; clear h hm; unfold enterJoining
  repeat' first
  | with_reducible first
     | apply Evolves.rfl | assumption | (apply lor_of_beq; focus decide)
     | apply setRole_evolves | apply startJoin_evolves | apply setPair_evolves | apply clearRuns_evolves
     | apply Evolves.ite | apply Evolves.foldl
  | intro _ | split | dsimp only

theorem unexplained_evolves (s : State) (x1) (x2) (hm : 11728193 ||| m = m) (h : Evolves m u s) :
    Evolves m u (unexplained s x1 x2) := by
  refine Evolves.step (k := 11728193) ?_ hm h; clear h hm; unfold unexplained
  repeat' first
  | with_reducible first
     | apply Evolves.rfl | assumption | (apply lor_of_beq; focus decide)
     | apply restartJoin_evolves | apply enterJoining_evolves | apply setPair_evolves | apply count_evolves
     | apply divergence_evolves | apply Evolves.ite | apply Evolves.foldl
  | intro _ | split | dsimp only

theorem lineDiffers_evolves (s : State) (x1) (x2) (x3) (hm : 11728193 ||| m = m) (h : Evolves m u s) :
    Evolves m u (lineDiffers s x1 x2 x3) := by
  refine Evolves.step (k := 11728193) ?_ hm h; clear h hm; unfold lineDiffers
  repeat' first
  | with_reducible first
     | apply Evolves.rfl | assumption | (apply lor_of_beq; focus decide)
     | apply requestSwitch_evolves | apply excuse_evolves | apply unexplained_evolves | apply Evolves.ite
     | apply Evolves.foldl
  | intro _ | split | dsimp only

theorem lineMatched_evolves (s : State) (x1) (hm : 8574273 ||| m = m) (h : Evolves m u s) :
    Evolves m u (lineMatched s x1) := by
  refine Evolves.step (k := 8574273) ?_ hm h; clear h hm; unfold lineMatched
  repeat' first
  | with_reducible first
     | apply Evolves.rfl | assumption | (apply lor_of_beq; focus decide)
     | apply becomeReady_evolves | apply setPair_evolves | apply Evolves.ite | apply Evolves.foldl
  | intro _ | split | dsimp only

theorem compareEntry_evolves (s : State) (x1) (x2) (hm : 11728193 ||| m = m) (h : Evolves m u s) :
    Evolves m u (compareEntry s x1 x2) := by
  refine Evolves.step (k := 11728193) ?_ hm h; clear h hm; unfold compareEntry
  repeat' first
  | with_reducible first
     | apply Evolves.rfl | assumption | (apply lor_of_beq; focus decide)
     | apply lineDiffers_evolves | apply lineMatched_evolves | apply count_evolves | apply Evolves.ite
     | apply Evolves.foldl
  | intro _ | split | dsimp only

theorem compareLines_evolves (s : State) (hm : 11728193 ||| m = m) (h : Evolves m u s) :
    Evolves m u (compareLines s) := by
  refine Evolves.step (k := 11728193) ?_ hm h; clear h hm; unfold compareLines
  repeat' first
  | with_reducible first
     | apply Evolves.rfl | assumption | (apply lor_of_beq; focus decide)
     | apply dropLine_evolves | apply compareEntry_evolves | apply Evolves.ite | apply Evolves.foldl
  | intro _ | split | dsimp only

theorem onCrc_evolves (s : State) (x1) (hm : 11728193 ||| m = m) (h : Evolves m u s) :
    Evolves m u (onCrc s x1) := by
  refine Evolves.step (k := 11728193) ?_ hm h; clear h hm; unfold onCrc
  repeat' first
  | with_reducible first
     | apply Evolves.rfl | assumption | (apply lor_of_beq; focus decide)
     | apply compareLines_evolves | fail_if_no_progress (apply Evolves.upd_1024; focus decide) | apply Evolves.ite
     | apply Evolves.foldl
  | intro _ | split | dsimp only

theorem scrubError_evolves (s : State) (hm : 32832 ||| m = m) (h : Evolves m u s) :
    Evolves m u (scrubError s) := by
  refine Evolves.step (k := 32832) ?_ hm h; clear h hm; unfold scrubError
  repeat' first
  | with_reducible first
     | apply Evolves.rfl | assumption | (apply lor_of_beq; focus decide)
     | apply count_evolves | fail_if_no_progress (apply Evolves.upd_32768; focus decide) | apply Evolves.ite
     | apply Evolves.foldl
  | intro _ | split | dsimp only

theorem recoveryEnd_evolves (s : State) (x1) (x2) (x3) (hm : 11728193 ||| m = m) (h : Evolves m u s) :
    Evolves m u (recoveryEnd s x1 x2 x3) := by
  refine Evolves.step (k := 11728193) ?_ hm h; clear h hm; unfold recoveryEnd
  repeat' first
  | with_reducible first
     | apply Evolves.rfl | assumption | (apply lor_of_beq; focus decide)
     | apply faultAt_evolves | apply scrubError_evolves | apply count_evolves | apply ev_evolves
     | apply setTile_evolves | apply Evolves.ite | apply Evolves.foldl
  | intro _ | split | dsimp only

theorem dropFetches_evolves (s : State) (x1) (hm : 1025 ||| m = m) (h : Evolves m u s) :
    Evolves m u (dropFetches s x1) := by
  refine Evolves.step (k := 1025) ?_ hm h; clear h hm; unfold dropFetches
  repeat' first
  | with_reducible first
     | apply Evolves.rfl | assumption | (apply lor_of_beq; focus decide)
     | apply setWin_evolves | apply Evolves.ite | apply Evolves.foldl
  | intro _ | split | dsimp only

theorem tileDefective_evolves (s : State) (x1) (x2) (x3) (x4) (hm : 11728193 ||| m = m) (h : Evolves m u s) :
    Evolves m u (tileDefective s x1 x2 x3 x4) := by
  refine Evolves.step (k := 11728193) ?_ hm h; clear h hm; unfold tileDefective
  repeat' first
  | with_reducible first
     | apply Evolves.rfl | assumption | (apply lor_of_beq; focus decide)
     | apply setTile_evolves | apply tileFault_evolves | apply Evolves.ite | apply Evolves.foldl
  | intro _ | split | dsimp only

theorem onTileData_evolves (s : State) (x1) (hm : 11730241 ||| m = m) (h : Evolves m u s) :
    Evolves m u (onTileData s x1) := by
  refine Evolves.step (k := 11730241) ?_ hm h; clear h hm; unfold onTileData
  repeat' first
  | with_reducible first
     | apply Evolves.rfl | assumption | (apply lor_of_beq; focus decide)
     | apply recoveryEnd_evolves | apply dropFetches_evolves | apply writeSlot_evolves | apply scrubError_evolves
     | apply tileDefective_evolves | apply writeMem_evolves | apply setTile_evolves | apply enqueueThaw_evolves
     | apply Evolves.ite | apply Evolves.foldl
  | intro _ | split | dsimp only

theorem peerJournal_evolves (s : State) (x1) (hm : 8392704 ||| m = m) (h : Evolves m u s) :
    Evolves m u (peerJournal s x1) := by
  refine Evolves.step (k := 8392704) ?_ hm h; clear h hm; unfold peerJournal
  repeat' first
  | with_reducible first
     | apply Evolves.rfl | assumption | (apply lor_of_beq; focus decide)
     | apply finishStatus_evolves | apply setEntry_evolves
     | fail_if_no_progress (apply Evolves.upd_4096; focus decide) | apply Evolves.ite | apply Evolves.foldl
  | intro _ | split | dsimp only

theorem onInput_evolves (s : State) (x1) (hm : 8425536 ||| m = m) (h : Evolves m u s) :
    Evolves m u (onInput s x1) := by
  refine Evolves.step (k := 8425536) ?_ hm h; clear h hm; unfold onInput
  repeat' first
  | with_reducible first
     | apply Evolves.rfl | assumption | (apply lor_of_beq; focus decide)
     | apply setPair_evolves | apply peerJournal_evolves | apply takeInput_evolves | apply Evolves.ite
     | apply Evolves.foldl
  | intro _ | split | dsimp only

theorem demote_evolves (s : State) (hm : 11728193 ||| m = m) (h : Evolves m u s) :
    Evolves m u (demote s) := by
  refine Evolves.step (k := 11728193) ?_ hm h; clear h hm; unfold demote
  repeat' first
  | with_reducible first
     | apply Evolves.rfl | assumption | (apply lor_of_beq; focus decide)
     | apply slowSync_evolves | apply ev_evolves | apply fault_evolves
     | fail_if_no_progress (apply Evolves.upd_32768; focus decide) | apply Evolves.ite | apply Evolves.foldl
  | intro _ | split | dsimp only

theorem bothActive_evolves (s : State) (x1) (hm : 11728193 ||| m = m) (h : Evolves m u s) :
    Evolves m u (bothActive s x1) := by
  refine Evolves.step (k := 11728193) ?_ hm h; clear h hm; unfold bothActive
  repeat' first
  | with_reducible first
     | apply Evolves.rfl | assumption | (apply lor_of_beq; focus decide)
     | apply demote_evolves | apply Evolves.ite | apply Evolves.foldl
  | intro _ | split | dsimp only

theorem rejoin_evolves (s : State) (hm : 8439104 ||| m = m) (h : Evolves m u s) :
    Evolves m u (rejoin s) := by
  refine Evolves.step (k := 8439104) ?_ hm h; clear h hm; unfold rejoin
  repeat' first
  | with_reducible first
     | apply Evolves.rfl | assumption | (apply lor_of_beq; focus decide)
     | apply startJoin_evolves | apply enterJoining_evolves | apply Evolves.ite | apply Evolves.foldl
  | intro _ | split | dsimp only

theorem helloRoles_evolves (s : State) (x1) (x2) (hm : 11793729 ||| m = m) (h : Evolves m u s) :
    Evolves m u (helloRoles s x1 x2) := by
  refine Evolves.step (k := 11793729) ?_ hm h; clear h hm; unfold helloRoles
  repeat' first
  | with_reducible first
     | apply Evolves.rfl | assumption | (apply lor_of_beq; focus decide)
     | apply bothActive_evolves | apply rejoin_evolves | apply endCopy_evolves | apply setPair_evolves
     | apply setRole_evolves | apply clearRuns_evolves | apply becomeActive_evolves | apply enterJoining_evolves
     | apply Evolves.ite | apply Evolves.foldl
  | intro _ | split | dsimp only

theorem seeEpoch_evolves (s : State) (x1) (hm : 1 ||| m = m) (h : Evolves m u s) :
    Evolves m u (seeEpoch s x1) := by
  refine Evolves.step (k := 1) ?_ hm h; clear h hm; unfold seeEpoch
  repeat' first
  | with_reducible first
     | apply Evolves.rfl | assumption | (apply lor_of_beq; focus decide)
     | apply wr_evolves | apply Evolves.ite | apply Evolves.foldl
  | intro _ | split | dsimp only

theorem onHello_evolves (s : State) (x1) (hm : 11793729 ||| m = m) (h : Evolves m u s) :
    Evolves m u (onHello s x1) := by
  refine Evolves.step (k := 11793729) ?_ hm h; clear h hm; unfold onHello
  repeat' first
  | with_reducible first
     | apply Evolves.rfl | assumption | (apply lor_of_beq; focus decide)
     | apply helloRoles_evolves | apply pairRecord_evolves | apply seeEpoch_evolves | apply setPair_evolves
     | apply wr_evolves | apply Evolves.ite | apply Evolves.foldl
  | intro _ | split | dsimp only

theorem deliverPair_evolves (s : State) (x1) (x2) (hm : 11796295 ||| m = m) (h : Evolves m u s) :
    Evolves m u (deliverPair s x1 x2) := by
  refine Evolves.step (k := 11796295) ?_ hm h; clear h hm; unfold deliverPair
  repeat' first
  | with_reducible first
     | apply Evolves.rfl | assumption | (apply lor_of_beq; focus decide)
     | apply onTileReq_evolves | apply onFault_evolves | apply holdHealth_evolves | apply onPosition_evolves
     | apply onCopyCtrl_evolves | apply onCopy_evolves | apply onCrc_evolves | apply onTileData_evolves
     | apply onInput_evolves | apply setPair_evolves | apply onHello_evolves | apply Evolves.ite | apply Evolves.foldl
  | intro _ | split | dsimp only

theorem laneFail_evolves (s : State) (x1) (hm : 8192 ||| m = m) (h : Evolves m u s) :
    Evolves m u (laneFail s x1) := by
  refine Evolves.step (k := 8192) ?_ hm h; clear h hm; unfold laneFail
  repeat' first
  | with_reducible first
     | apply Evolves.rfl | assumption | (apply lor_of_beq; focus decide)
     | apply setLane_evolves | apply Evolves.ite | apply Evolves.foldl
  | intro _ | split | dsimp only

theorem marksDone_evolves (s : State) (x1) (hm : 8393728 ||| m = m) (h : Evolves m u s) :
    Evolves m u (marksDone s x1) := by
  refine Evolves.step (k := 8393728) ?_ hm h; clear h hm; unfold marksDone
  repeat' first
  | with_reducible first
     | apply Evolves.rfl | assumption | (apply lor_of_beq; focus decide)
     | apply finish_evolves | apply setJob_evolves | apply Evolves.ite | apply Evolves.foldl
  | intro _ | split | dsimp only

theorem endPass_evolves (s : State) (x1) (hm : 8430657 ||| m = m) (h : Evolves m u s) :
    Evolves m u (endPass s x1) := by
  refine Evolves.step (k := 8430657) ?_ hm h; clear h hm; unfold endPass
  repeat' first
  | with_reducible first
     | apply Evolves.rfl | assumption | (apply lor_of_beq; focus decide)
     | apply wr_evolves | apply setWin_evolves | apply freePassed_evolves | apply slowSync_evolves
     | apply setBar_evolves | apply forgetPast_evolves | apply Evolves.ite | apply Evolves.foldl
  | intro _ | split | dsimp only

theorem execBarStoppingEnd_evolves (x0) (s1 : State) (hm : 8430657 ||| m = m) (h : Evolves m u s1) :
    Evolves m u (taken s1 (execBarStoppingEnd x0 s1)) := by
  refine Evolves.step (k := 8430657) ?_ hm h; clear h hm; unfold execBarStoppingEnd
  repeat' first
  | with_reducible first
     | apply Evolves.rfl | assumption | (apply lor_of_beq; focus decide)
     | apply Evolves.next | apply endPass_evolves | apply endOld_evolves | apply Evolves.ite | apply Evolves.foldl
  | intro _ | split | dsimp only

theorem askRate_evolves (s : State) (x1) (x2) (hm : 8396864 ||| m = m) (h : Evolves m u s) :
    Evolves m u (askRate s x1 x2) := by
  refine Evolves.step (k := 8396864) ?_ hm h; clear h hm; unfold askRate
  repeat' first
  | with_reducible first
     | apply Evolves.rfl | assumption | (apply lor_of_beq; focus decide)
     | apply flnSend_evolves | apply setLane_evolves | apply Evolves.ite | apply Evolves.foldl
  | intro _ | split | dsimp only

theorem stepDown_evolves (s : State) (x1) (hm : 8396864 ||| m = m) (h : Evolves m u s) :
    Evolves m u (stepDown s x1) := by
  refine Evolves.step (k := 8396864) ?_ hm h; clear h hm; unfold stepDown
  repeat' first
  | with_reducible first
     | apply Evolves.rfl | assumption | (apply lor_of_beq; focus decide)
     | apply askRate_evolves | apply setLane_evolves | apply Evolves.ite | apply Evolves.foldl
  | intro _ | split | dsimp only

theorem setTaps_evolves (s : State) (x1) (x2) (hm : 16385 ||| m = m) (h : Evolves m u s) :
    Evolves m u (setTaps s x1 x2) := by
  refine Evolves.step (k := 16385) ?_ hm h; clear h hm; unfold setTaps
  repeat' first
  | with_reducible first
     | apply Evolves.rfl | assumption | (apply lor_of_beq; focus decide)
     | apply setCtx_evolves | apply wr_evolves | apply Evolves.ite | apply Evolves.foldl
  | intro _ | split | dsimp only

theorem writeTap_evolves (s : State) (x1) (x2) (x3) (hm : 8542273 ||| m = m) (h : Evolves m u s) :
    Evolves m u (writeTap s x1 x2 x3) := by
  refine Evolves.step (k := 8542273) ?_ hm h; clear h hm; unfold writeTap
  dsimp only
  split
  · exact setTaps_evolves _ _ _ (by decide) (Evolves.upd_2048 (by decide) (fun w => memWrite_wf w _ _)
      (demand_evolves _ _ _ (by decide) Evolves.rfl))
  · split
    · exact setTaps_evolves _ _ _ (by decide) (Evolves.upd_2048 (by decide) (fun w => memWrite_wf w _ _)
        (demand_evolves _ _ _ (by decide) Evolves.rfl))
    · exact ev_evolves _ _ _ (by decide) (count_evolves _ _ _ (by decide) Evolves.rfl)

theorem nvmEnd_evolves (s : State) (x1) (hm : 9572417 ||| m = m) (h : Evolves m u s) :
    Evolves m u (nvmEnd s x1) := by
  refine Evolves.step (k := 9572417) ?_ hm h; clear h hm; unfold nvmEnd
  repeat' first
  | with_reducible first
     | apply Evolves.rfl | assumption | (apply lor_of_beq; focus decide)
     | apply count_evolves | apply ev_evolves | apply wr_evolves
     | fail_if_no_progress (apply Evolves.upd_1048576; focus decide) | apply Evolves.ite | apply Evolves.foldl
  | intro _ | split | dsimp only

theorem gate_evolves (s : State) (x1) (x2) {t : State} (ho : gate s x1 x2 = some t) (hm : 8523841 ||| m = m) (h : Evolves m u s) :
    Evolves m u t := by
  refine Evolves.step (k := 8523841) ?_ hm h; clear h hm; unfold gate at ho
  split at ho
  · cases ho; exact Evolves.rfl
  · split at ho
    · cases ho; exact ev_evolves _ _ _ (by decide) Evolves.rfl
    · split at ho
      · cases ho; exact refuse_evolves _ _ (by decide) Evolves.rfl
      · split at ho
        · cases ho; exact refuse_evolves _ _ (by decide) Evolves.rfl
        · cases ho

theorem gated_evolves (s : State) (x1) (x2) (f3) (hf : ∀ x, Evolves m x (f3 x)) (hm : 8523841 ||| m = m) (h : Evolves m u s) :
    Evolves m u (gated s x1 x2 f3) := by
  refine h.trans ?_; clear h; unfold gated
  split
  · exact gate_evolves _ _ _ (by assumption) hm Evolves.rfl
  · exact hf _

theorem nvmStart_evolves (s : State) (x1) (hm : 9572417 ||| m = m) (h : Evolves m u s) :
    Evolves m u (nvmStart s x1) := by
  refine Evolves.step (k := 9572417) ?_ hm h; clear h hm; unfold nvmStart
  repeat' first
  | with_reducible first
     | apply Evolves.rfl | assumption | (apply lor_of_beq; focus decide)
     | apply send_evolves | apply wr_evolves | apply count_evolves | apply nvmEnd_evolves | apply refuse_evolves
     | apply gated_evolves | fail_if_no_progress (apply Evolves.upd_1048576; focus decide) | apply Evolves.ite
     | apply Evolves.foldl
  | intro _ | split | dsimp only

theorem execNvmRead_evolves (x0) (s1 : State) (hm : 9572417 ||| m = m) (h : Evolves m u s1) :
    Evolves m u (taken s1 (execNvmRead x0 s1)) := by
  refine Evolves.step (k := 9572417) ?_ hm h; clear h hm; unfold execNvmRead
  repeat' first
  | with_reducible first
     | apply Evolves.rfl | assumption | (apply lor_of_beq; focus decide)
     | apply Evolves.next | apply nvmStart_evolves | apply Evolves.ite | apply Evolves.foldl
  | intro _ | split | dsimp only

theorem execTrainTimeout_evolves (x0) (s1 : State) (hm : 8396864 ||| m = m) (h : Evolves m u s1) :
    Evolves m u (taken s1 (execTrainTimeout x0 s1)) := by
  refine Evolves.step (k := 8396864) ?_ hm h; clear h hm; unfold execTrainTimeout
  repeat' first
  | with_reducible first
     | apply Evolves.rfl | assumption | (apply lor_of_beq; focus decide)
     | apply Evolves.next | apply laneFail_evolves | apply stepDown_evolves | apply count_evolves | apply Evolves.ite
     | apply Evolves.foldl
  | intro _ | split | dsimp only

theorem store_evolves (s : State) (x1) (x2) (hm : 5 ||| m = m) (h : Evolves m u s) :
    Evolves m u (store s x1 x2) := by
  refine Evolves.step (k := 5) ?_ hm h; clear h hm; unfold store
  repeat' first
  | with_reducible first
     | apply Evolves.rfl | assumption | (apply lor_of_beq; focus decide)
     | apply wr_evolves | fail_if_no_progress (apply Evolves.upd_4; focus decide) | apply Evolves.ite
     | apply Evolves.foldl
  | intro _ | split | dsimp only

theorem plainWrite_evolves (s : State) (x1) (x2) (hm : 8523845 ||| m = m) (h : Evolves m u s) :
    Evolves m u (plainWrite s x1 x2) := by
  refine Evolves.step (k := 8523845) ?_ hm h; clear h hm; unfold plainWrite
  split
  · exact gate_evolves _ _ _ (by assumption) (by decide) Evolves.rfl
  · exact store_evolves _ _ _ (by decide) Evolves.rfl

theorem snapArm_evolves (s : State) (x1) (x2) (hm : 10620993 ||| m = m) (h : Evolves m u s) :
    Evolves m u (snapArm s x1 x2) := by
  refine Evolves.step (k := 10620993) ?_ hm h; clear h hm; unfold snapArm
  repeat' first
  | with_reducible first
     | apply Evolves.rfl | assumption | (apply lor_of_beq; focus decide)
     | apply armSnapshot_evolves | apply ev_evolves | fail_if_no_progress (apply Evolves.upd_2097152; focus decide)
     | apply Evolves.ite | apply Evolves.foldl
  | intro _ | split | dsimp only

theorem asInput_evolves (s : State) (x1) (x2) (x3) (x4) (f5) (hf : ∀ x, Evolves m x (f5 x)) (hm : 8421440 ||| m = m) (h : Evolves m u s) :
    Evolves m u (asInput s x1 x2 x3 x4 f5) := by
  refine h.trans ?_; clear h; unfold asInput
  repeat' first
  | with_reducible first
     | apply Evolves.rfl | assumption | (apply lor_of_beq; focus decide)
     | exact lor_sub (by decide) hm | apply Evolves.trans _ (hf _) | apply pairSendSeq_evolves
     | apply takeInput_evolves | apply Evolves.ite | apply Evolves.foldl
  | intro _ | split | dsimp only

theorem snapWrite_evolves (s : State) (x1) (hm : 10653761 ||| m = m) (h : Evolves m u s) :
    Evolves m u (snapWrite s x1) := by
  refine Evolves.step (k := 10653761) ?_ hm h; clear h hm; unfold snapWrite
  repeat' first
  | with_reducible first
     | apply Evolves.rfl | assumption | (apply lor_of_beq; focus decide)
     | apply snapArm_evolves | apply asInput_evolves | apply wr_evolves | apply gated_evolves | apply Evolves.ite
     | apply Evolves.foldl
  | intro _ | split | dsimp only

theorem refuseIf_evolves (x0) (s1 : State) (x2) (x3) (f4) (hf : ∀ x, Evolves m x (f4 x)) (hm : 8523841 ||| m = m) (h : Evolves m u s1) :
    Evolves m u (refuseIf x0 s1 x2 x3 f4) := by
  refine h.trans ?_; clear h; unfold refuseIf
  repeat' first
  | with_reducible first
     | apply Evolves.rfl | assumption | (apply lor_of_beq; focus decide)
     | exact lor_sub (by decide) hm | apply Evolves.trans _ (hf _) | apply refuse_evolves | apply gated_evolves
     | apply Evolves.ite | apply Evolves.foldl
  | intro _ | split | dsimp only

theorem execCompareArm_evolves (x0) (x1) (x2) (s3 : State) (hm : 8605765 ||| m = m) (h : Evolves m u s3) :
    Evolves m u (taken s3 (execCompareArm x0 x1 x2 s3)) := by
  refine Evolves.step (k := 8605765) ?_ hm h; clear h hm; unfold execCompareArm
  repeat' first
  | with_reducible first
     | apply Evolves.rfl | assumption | (apply lor_of_beq; focus decide)
     | apply Evolves.next | apply cmpArm_evolves | apply store_evolves | apply refuseIf_evolves | apply Evolves.ite
     | apply Evolves.foldl
  | intro _ | split | dsimp only

theorem conflict_evolves (s : State) (x1) (x2) (x3) (hm : 8523841 ||| m = m) (h : Evolves m u s) :
    Evolves m u (conflict s x1 x2 x3) := by
  refine Evolves.step (k := 8523841) ?_ hm h; clear h hm; unfold conflict
  repeat' first
  | with_reducible first
     | apply Evolves.rfl | assumption | (apply lor_of_beq; focus decide)
     | apply wrf_evolves | apply ev_evolves | apply Evolves.ite | apply Evolves.foldl
  | intro _ | split | dsimp only

theorem claimRes_evolves (s : State) (x1) (x2) (hm : 1 ||| m = m) (h : Evolves m u s) :
    Evolves m u (claimRes s x1 x2) := by
  refine Evolves.step (k := 1) ?_ hm h; clear h hm; unfold claimRes
  repeat' first
  | with_reducible first
     | apply Evolves.rfl | assumption | (apply lor_of_beq; focus decide)
     | apply wrf_evolves | apply Evolves.ite | apply Evolves.foldl
  | intro _ | split | dsimp only

theorem cmpCfgWrite_evolves (s : State) (x1) (x2) (x3) (hm : 8589381 ||| m = m) (h : Evolves m u s) :
    Evolves m u (cmpCfgWrite s x1 x2 x3) := by
  refine Evolves.step (k := 8589381) ?_ hm h; clear h hm; unfold cmpCfgWrite
  repeat' first
  | with_reducible first
     | apply Evolves.rfl | assumption | (apply lor_of_beq; focus decide)
     | apply setCmp_evolves | apply cmpShow_evolves | apply conflict_evolves | apply claimRes_evolves
     | apply ev_evolves | apply store_evolves | apply wrf_evolves | apply refuse_evolves | apply gated_evolves
     | apply Evolves.ite | apply Evolves.foldl
  | intro _ | split | dsimp only

theorem cmpFlags_evolves (s : State) (x1) (x2) (hm : 8589381 ||| m = m) (h : Evolves m u s) :
    Evolves m u (cmpFlags s x1 x2) := by
  refine Evolves.step (k := 8589381) ?_ hm h; clear h hm; unfold cmpFlags
  repeat' first
  | with_reducible first
     | apply Evolves.rfl | assumption | (apply lor_of_beq; focus decide)
     | apply setCmp_evolves | apply cmpShow_evolves | apply store_evolves | apply gated_evolves | apply Evolves.ite
     | apply Evolves.foldl
  | intro _ | split | dsimp only

theorem cmpWrite_evolves (s : State) (x1) (x2) (x3) (hm : 8605765 ||| m = m) (h : Evolves m u s) :
    Evolves m u (cmpWrite s x1 x2 x3) := by
  refine Evolves.step (k := 8605765) ?_ hm h; clear h hm; unfold cmpWrite
  repeat' first
  | with_reducible first
     | apply Evolves.rfl | assumption | (apply lor_of_beq; focus decide)
     | apply store_evolves | apply refuseIf_evolves | apply execCompareArm_evolves | apply cmpCfgWrite_evolves
     | apply plainWrite_evolves | apply cmpFlags_evolves | apply Evolves.ite | apply Evolves.foldl
  | intro _ | split | dsimp only

theorem axisCmd_evolves (s : State) (x1) (x2) (f3) (hf : ∀ x, Evolves m x (f3 x)) (hm : 8523841 ||| m = m) (h : Evolves m u s) :
    Evolves m u (axisCmd s x1 x2 f3) := by
  refine h.trans ?_; clear h; unfold axisCmd
  repeat' first
  | with_reducible first
     | apply Evolves.rfl | assumption | (apply lor_of_beq; focus decide)
     | exact lor_sub (by decide) hm | apply Evolves.trans _ (hf _) | apply refuse_evolves | apply gated_evolves
     | apply Evolves.ite | apply Evolves.foldl
  | intro _ | split | dsimp only

theorem execAxisClrFault_evolves (x0) (x1) (s2 : State) (hm : 8589377 ||| m = m) (h : Evolves m u s2) :
    Evolves m u (taken s2 (execAxisClrFault x0 x1 s2)) := by
  refine Evolves.step (k := 8589377) ?_ hm h; clear h hm; unfold execAxisClrFault
  repeat' first
  | with_reducible first
     | apply Evolves.rfl | assumption | (apply lor_of_beq; focus decide)
     | apply Evolves.next | apply setAxis_evolves | apply axisCmd_evolves | apply Evolves.ite | apply Evolves.foldl
  | intro _ | split | dsimp only

theorem forwardShift_evolves (s : State) (x1) (x2) (hm : 8421440 ||| m = m) (h : Evolves m u s) :
    Evolves m u (forwardShift s x1 x2) := by
  refine Evolves.step (k := 8421440) ?_ hm h; clear h hm; unfold forwardShift
  repeat' first
  | with_reducible first
     | apply Evolves.rfl | assumption | (apply lor_of_beq; focus decide)
     | apply count_evolves | apply pairSendSeq_evolves | apply Evolves.ite | apply Evolves.foldl
  | intro _ | split | dsimp only

theorem execSetPos_evolves (x0) (x1) (s2 : State) (hm : 8622145 ||| m = m) (h : Evolves m u s2) :
    Evolves m u (taken s2 (execSetPos x0 x1 s2)) := by
  refine Evolves.step (k := 8622145) ?_ hm h; clear h hm; unfold execSetPos
  repeat' first
  | with_reducible first
     | apply Evolves.rfl | assumption | (apply lor_of_beq; focus decide)
     | apply Evolves.next | apply setAxis_evolves | apply forwardShift_evolves | apply refuse_evolves
     | apply axisCmd_evolves | apply Evolves.ite | apply Evolves.foldl
  | intro _ | split | dsimp only

theorem execDisengage_evolves (x0) (x1) (s2 : State) (hm : 8589377 ||| m = m) (h : Evolves m u s2) :
    Evolves m u (taken s2 (execDisengage x0 x1 s2)) := by
  refine Evolves.step (k := 8589377) ?_ hm h; clear h hm; unfold execDisengage
  repeat' first
  | with_reducible first
     | apply Evolves.rfl | assumption | (apply lor_of_beq; focus decide)
     | apply Evolves.next | apply setAxis_evolves | apply axisCmd_evolves | apply Evolves.ite | apply Evolves.foldl
  | intro _ | split | dsimp only

theorem execEngage_evolves (x0) (x1) (s2 : State) (hm : 8589377 ||| m = m) (h : Evolves m u s2) :
    Evolves m u (taken s2 (execEngage x0 x1 s2)) := by
  refine Evolves.step (k := 8589377) ?_ hm h; clear h hm; unfold execEngage
  repeat' first
  | with_reducible first
     | apply Evolves.rfl | assumption | (apply lor_of_beq; focus decide)
     | apply Evolves.next | apply setAxis_evolves | apply refuse_evolves | apply axisCmd_evolves | apply Evolves.ite
     | apply Evolves.foldl
  | intro _ | split | dsimp only

theorem homed_evolves (s : State) (x1) (hm : 8589377 ||| m = m) (h : Evolves m u s) :
    Evolves m u (homed s x1) := by
  refine Evolves.step (k := 8589377) ?_ hm h; clear h hm; unfold homed
  repeat' first
  | with_reducible first
     | apply Evolves.rfl | assumption | (apply lor_of_beq; focus decide)
     | apply setAxis_evolves | apply ev_evolves | apply Evolves.ite | apply Evolves.foldl
  | intro _ | split | dsimp only

theorem approach_evolves (s : State) (x1) (hm : 65536 ||| m = m) (h : Evolves m u s) :
    Evolves m u (approach s x1) := by
  refine Evolves.step (k := 65536) ?_ hm h; clear h hm; unfold approach
  repeat' first
  | with_reducible first
     | apply Evolves.rfl | assumption | (apply lor_of_beq; focus decide)
     | apply setAxis_evolves | apply Evolves.ite | apply Evolves.foldl
  | intro _ | split | dsimp only

theorem backOffSteps_evolves (s : State) (x1) (hm : 65536 ||| m = m) (h : Evolves m u s) :
    Evolves m u (backOffSteps s x1) := by
  refine Evolves.step (k := 65536) ?_ hm h; clear h hm; unfold backOffSteps
  repeat' first
  | with_reducible first
     | apply Evolves.rfl | assumption | (apply lor_of_beq; focus decide)
     | apply setAxis_evolves | apply Evolves.ite | apply Evolves.foldl
  | intro _ | split | dsimp only

theorem planEnd_evolves (s : State) (x1) (hm : 8589377 ||| m = m) (h : Evolves m u s) :
    Evolves m u (planEnd s x1) := by
  refine Evolves.step (k := 8589377) ?_ hm h; clear h hm; unfold planEnd
  repeat' first
  | with_reducible first
     | apply Evolves.rfl | assumption | (apply lor_of_beq; focus decide)
     | apply count_evolves | apply ev_evolves | apply homed_evolves | apply approach_evolves
     | apply backOffSteps_evolves | apply setAxis_evolves | apply Evolves.ite | apply Evolves.foldl
  | intro _ | split | dsimp only

theorem execHome_evolves (x0) (x1) (s2 : State) (hm : 8589377 ||| m = m) (h : Evolves m u s2) :
    Evolves m u (taken s2 (execHome x0 x1 s2)) := by
  refine Evolves.step (k := 8589377) ?_ hm h; clear h hm; unfold execHome
  repeat' first
  | with_reducible first
     | apply Evolves.rfl | assumption | (apply lor_of_beq; focus decide)
     | apply Evolves.next | apply planEnd_evolves | apply setAxis_evolves | apply ev_evolves | apply refuse_evolves
     | apply axisCmd_evolves | apply Evolves.ite | apply Evolves.foldl
  | intro _ | split | dsimp only

theorem quickStop_evolves (s : State) (x1) (hm : 65536 ||| m = m) (h : Evolves m u s) :
    Evolves m u (quickStop s x1) := by
  refine Evolves.step (k := 65536) ?_ hm h; clear h hm; unfold quickStop
  repeat' first
  | with_reducible first
     | apply Evolves.rfl | assumption | (apply lor_of_beq; focus decide)
     | apply setAxis_evolves | apply Evolves.ite | apply Evolves.foldl
  | intro _ | split | dsimp only

theorem execQstop_evolves (x0) (x1) (s2 : State) (hm : 8589377 ||| m = m) (h : Evolves m u s2) :
    Evolves m u (taken s2 (execQstop x0 x1 s2)) := by
  refine Evolves.step (k := 8589377) ?_ hm h; clear h hm; unfold execQstop
  repeat' first
  | with_reducible first
     | apply Evolves.rfl | assumption | (apply lor_of_beq; focus decide)
     | apply Evolves.next | apply quickStop_evolves | apply axisCmd_evolves | apply Evolves.ite | apply Evolves.foldl
  | intro _ | split | dsimp only

theorem execStop_evolves (x0) (x1) (s2 : State) (hm : 8589377 ||| m = m) (h : Evolves m u s2) :
    Evolves m u (taken s2 (execStop x0 x1 s2)) := by
  refine Evolves.step (k := 8589377) ?_ hm h; clear h hm; unfold execStop
  repeat' first
  | with_reducible first
     | apply Evolves.rfl | assumption | (apply lor_of_beq; focus decide)
     | apply Evolves.next | apply setAxis_evolves | apply axisCmd_evolves | apply Evolves.ite | apply Evolves.foldl
  | intro _ | split | dsimp only

theorem axCmd_evolves (s : State) (x1) (x2) (x3) (hm : 8622145 ||| m = m) (h : Evolves m u s) :
    Evolves m u (axCmd s x1 x2 x3) := by
  refine Evolves.step (k := 8622145) ?_ hm h; clear h hm; unfold axCmd
  repeat' first
  | with_reducible first
     | apply Evolves.rfl | assumption | (apply lor_of_beq; focus decide)
     | apply execAxisClrFault_evolves | apply execSetPos_evolves | apply execDisengage_evolves
     | apply execEngage_evolves | apply execHome_evolves | apply execQstop_evolves | apply execStop_evolves
     | apply gated_evolves | apply Evolves.ite | apply Evolves.foldl
  | intro _ | split | dsimp only

theorem takeRatio_evolves (s : State) (x1) (hm : 1 ||| m = m) (h : Evolves m u s) :
    Evolves m u (takeRatio s x1) := by
  refine Evolves.step (k := 1) ?_ hm h; clear h hm; unfold takeRatio
  repeat' first
  | with_reducible first
     | apply Evolves.rfl | assumption | (apply lor_of_beq; focus decide)
     | apply wr64_evolves | apply Evolves.ite | apply Evolves.foldl
  | intro _ | split | dsimp only

theorem applyRatio_evolves (s : State) (x1) (x2) (hm : 8589377 ||| m = m) (h : Evolves m u s) :
    Evolves m u (applyRatio s x1 x2) := by
  refine Evolves.step (k := 8589377) ?_ hm h; clear h hm; unfold applyRatio
  repeat' first
  | with_reducible first
     | apply Evolves.rfl | assumption | (apply lor_of_beq; focus decide)
     | apply setAxis_evolves | apply count_evolves | apply ev_evolves | apply takeRatio_evolves | apply Evolves.ite
     | apply Evolves.foldl
  | intro _ | split | dsimp only

theorem execPendArm_evolves (x0) (x1) (x2) (s3 : State) (hm : 8589381 ||| m = m) (h : Evolves m u s3) :
    Evolves m u (taken s3 (execPendArm x0 x1 x2 s3)) := by
  refine Evolves.step (k := 8589381) ?_ hm h; clear h hm; unfold execPendArm
  repeat' first
  | with_reducible first
     | apply Evolves.rfl | assumption | (apply lor_of_beq; focus decide)
     | apply Evolves.next | apply setAxis_evolves | apply ev_evolves | apply applyRatio_evolves | apply store_evolves
     | apply gated_evolves | apply Evolves.ite | apply Evolves.foldl
  | intro _ | split | dsimp only

theorem execTargetWrite_evolves (x0) (x1) (x2) (s3 : State) (hm : 8589381 ||| m = m) (h : Evolves m u s3) :
    Evolves m u (taken s3 (execTargetWrite x0 x1 x2 s3)) := by
  refine Evolves.step (k := 8589381) ?_ hm h; clear h hm; unfold execTargetWrite
  repeat' first
  | with_reducible first
     | apply Evolves.rfl | assumption | (apply lor_of_beq; focus decide)
     | apply Evolves.next | apply setAxis_evolves | apply store_evolves | apply ev_evolves | apply gated_evolves
     | fail_if_no_progress (apply Evolves.upd_4; focus decide) | apply Evolves.ite | apply Evolves.foldl
  | intro _ | split | dsimp only

theorem axCfg_evolves (s : State) (x1) (x2) (hm : 8589381 ||| m = m) (h : Evolves m u s) :
    Evolves m u (axCfg s x1 x2) := by
  refine Evolves.step (k := 8589381) ?_ hm h; clear h hm; unfold axCfg
  repeat' first
  | with_reducible first
     | apply Evolves.rfl | assumption | (apply lor_of_beq; focus decide)
     | apply setAxis_evolves | apply store_evolves | apply refuse_evolves | apply gated_evolves | apply Evolves.ite
     | apply Evolves.foldl
  | intro _ | split | dsimp only

theorem axWrite_evolves (s : State) (x1) (x2) (x3) (x4) (hm : 8622149 ||| m = m) (h : Evolves m u s) :
    Evolves m u (axWrite s x1 x2 x3 x4) := by
  refine Evolves.step (k := 8622149) ?_ hm h; clear h hm; unfold axWrite
  repeat' first
  | with_reducible first
     | apply Evolves.rfl | assumption | (apply lor_of_beq; focus decide)
     | apply plainWrite_evolves | apply axCmd_evolves | apply execPendArm_evolves | apply execTargetWrite_evolves
     | apply store_evolves | apply refuseIf_evolves | apply axCfg_evolves | apply Evolves.ite | apply Evolves.foldl
  | intro _ | split | dsimp only

theorem execLeave_evolves (x0) (s1 : State) (hm : 8574273 ||| m = m) (h : Evolves m u s1) :
    Evolves m u (taken s1 (execLeave x0 s1)) := by
  refine Evolves.step (k := 8574273) ?_ hm h; clear h hm; unfold execLeave
  repeat' first
  | with_reducible first
     | apply Evolves.rfl | assumption | (apply lor_of_beq; focus decide)
     | apply Evolves.next | apply refuse_evolves | apply setPair_evolves | apply enterJoining_evolves
     | apply gated_evolves | apply Evolves.ite | apply Evolves.foldl
  | intro _ | split | dsimp only

theorem execJoin_evolves (x0) (s1 : State) (hm : 8574273 ||| m = m) (h : Evolves m u s1) :
    Evolves m u (taken s1 (execJoin x0 s1)) := by
  refine Evolves.step (k := 8574273) ?_ hm h; clear h hm; unfold execJoin
  repeat' first
  | with_reducible first
     | apply Evolves.rfl | assumption | (apply lor_of_beq; focus decide)
     | apply Evolves.next | apply refuse_evolves | apply enterJoining_evolves | apply setPair_evolves
     | apply startJoin_evolves | apply gated_evolves | apply Evolves.ite | apply Evolves.foldl
  | intro _ | split | dsimp only

theorem soloReset_evolves (s : State) (hm : 11728199 ||| m = m) (h : Evolves m u s) :
    Evolves m u (soloReset s) := by
  refine Evolves.step (k := 11728199) ?_ hm h; clear h hm; unfold soloReset
  repeat' first
  | with_reducible first
     | apply Evolves.rfl | assumption | (apply lor_of_beq; focus decide)
     | apply fault_evolves | apply wr_evolves | apply setPair_evolves | apply clearCopied_evolves
     | apply stopBars_evolves | apply clearRuns_evolves | fail_if_no_progress (apply Evolves.upd_4096; focus decide)
     | apply Evolves.ite | apply Evolves.foldl
  | intro _ | split | dsimp only

theorem execSolo_evolves (x0) (s1 : State) (hm : 11793735 ||| m = m) (h : Evolves m u s1) :
    Evolves m u (taken s1 (execSolo x0 s1)) := by
  refine Evolves.step (k := 11793735) ?_ hm h; clear h hm; unfold execSolo
  repeat' first
  | with_reducible first
     | apply Evolves.rfl | assumption | (apply lor_of_beq; focus decide)
     | apply Evolves.next | apply refuse_evolves | apply soloReset_evolves | apply becomeActive_evolves
     | apply gated_evolves | apply Evolves.ite | apply Evolves.foldl
  | intro _ | split | dsimp only

theorem execSwitch_evolves (x0) (s1 : State) (hm : 8556609 ||| m = m) (h : Evolves m u s1) :
    Evolves m u (taken s1 (execSwitch x0 s1)) := by
  refine Evolves.step (k := 8556609) ?_ hm h; clear h hm; unfold execSwitch
  repeat' first
  | with_reducible first
     | apply Evolves.rfl | assumption | (apply lor_of_beq; focus decide)
     | apply Evolves.next | apply requestSwitch_evolves | apply gated_evolves | apply Evolves.ite
     | apply Evolves.foldl
  | intro _ | split | dsimp only

theorem pairWrite_evolves (s : State) (x1) (x2) (x3) (hm : 11793735 ||| m = m) (h : Evolves m u s) :
    Evolves m u (pairWrite s x1 x2 x3) := by
  refine Evolves.step (k := 11793735) ?_ hm h; clear h hm; unfold pairWrite
  repeat' first
  | with_reducible first
     | apply Evolves.rfl | assumption | (apply lor_of_beq; focus decide)
     | apply plainWrite_evolves | apply execLeave_evolves | apply execJoin_evolves | apply execSolo_evolves
     | apply execSwitch_evolves | apply gated_evolves | apply store_evolves | apply refuseIf_evolves
     | apply Evolves.ite | apply Evolves.foldl
  | intro _ | split | dsimp only

theorem execLadderEnable_evolves (x0) (x1) (s2 : State) (hm : 8523841 ||| m = m) (h : Evolves m u s2) :
    Evolves m u (taken s2 (execLadderEnable x0 x1 s2)) := by
  refine Evolves.step (k := 8523841) ?_ hm h; clear h hm; unfold execLadderEnable
  repeat' first
  | with_reducible first
     | apply Evolves.rfl | assumption | (apply lor_of_beq; focus decide)
     | apply Evolves.next | apply wr_evolves | apply wrf_evolves | apply refuse_evolves | apply gated_evolves
     | apply Evolves.ite | apply Evolves.foldl
  | intro _ | split | dsimp only

theorem loopAdvance_evolves (s : State) (hm : 1 ||| m = m) (h : Evolves m u s) :
    Evolves m u (loopAdvance s) := by
  refine Evolves.step (k := 1) ?_ hm h; clear h hm; unfold loopAdvance
  repeat' first
  | with_reducible first
     | apply Evolves.rfl | assumption | (apply lor_of_beq; focus decide)
     | apply wrf_evolves | apply Evolves.ite | apply Evolves.foldl
  | intro _ | split | dsimp only

theorem loopTableWrite_evolves (s : State) (x1) (hm : 8540225 ||| m = m) (h : Evolves m u s) :
    Evolves m u (loopTableWrite s x1) := by
  refine Evolves.step (k := 8540225) ?_ hm h; clear h hm; unfold loopTableWrite
  repeat' first
  | with_reducible first
     | apply Evolves.rfl | assumption | (apply lor_of_beq; focus decide)
     | apply refuse_evolves | apply loopAdvance_evolves | apply gated_evolves
     | fail_if_no_progress (apply Evolves.upd_16384; focus decide) | apply Evolves.ite | apply Evolves.foldl
  | intro _ | split | dsimp only

theorem loopWrite_evolves (s : State) (x1) (x2) (x3) (hm : 8540229 ||| m = m) (h : Evolves m u s) :
    Evolves m u (loopWrite s x1 x2 x3) := by
  refine Evolves.step (k := 8540229) ?_ hm h; clear h hm; unfold loopWrite
  repeat' first
  | with_reducible first
     | apply Evolves.rfl | assumption | (apply lor_of_beq; focus decide)
     | apply plainWrite_evolves | apply execLadderEnable_evolves | apply loopTableWrite_evolves | apply store_evolves
     | apply refuseIf_evolves | apply Evolves.ite | apply Evolves.foldl
  | intro _ | split | dsimp only

theorem execTapRel_evolves (x0) (x1) (x2) (s3 : State) (hm : 8540225 ||| m = m) (h : Evolves m u s3) :
    Evolves m u (taken s3 (execTapRel x0 x1 x2 s3)) := by
  refine Evolves.step (k := 8540225) ?_ hm h; clear h hm; unfold execTapRel
  repeat' first
  | with_reducible first
     | apply Evolves.rfl | assumption | (apply lor_of_beq; focus decide)
     | apply Evolves.next | apply setTaps_evolves | apply gated_evolves | apply Evolves.ite | apply Evolves.foldl
  | intro _ | split | dsimp only

theorem ctxRefuse_evolves (s : State) (x1) (hm : 8523841 ||| m = m) (h : Evolves m u s) :
    Evolves m u (ctxRefuse s x1) := by
  refine Evolves.step (k := 8523841) ?_ hm h; clear h hm; unfold ctxRefuse
  repeat' first
  | with_reducible first
     | apply Evolves.rfl | assumption | (apply lor_of_beq; focus decide)
     | apply refuse_evolves | apply wr_evolves | apply Evolves.ite | apply Evolves.foldl
  | intro _ | split | dsimp only

theorem enableCtx_evolves (s : State) (x1) (hm : 8523841 ||| m = m) (h : Evolves m u s) :
    Evolves m u (enableCtx s x1) := by
  refine Evolves.step (k := 8523841) ?_ hm h; clear h hm; unfold enableCtx
  repeat' first
  | with_reducible first
     | apply Evolves.rfl | assumption | (apply lor_of_beq; focus decide)
     | apply conflict_evolves | apply claimRes_evolves | apply wrf_evolves | apply ctxRefuse_evolves
     | apply Evolves.ite | apply Evolves.foldl
  | intro _ | split | dsimp only

theorem setSlot_evolves (s : State) (x1) (x2) (x3) (hm : 16385 ||| m = m) (h : Evolves m u s) :
    Evolves m u (setSlot s x1 x2 x3) := by
  refine Evolves.step (k := 16385) ?_ hm h; clear h hm; unfold setSlot
  repeat' first
  | with_reducible first
     | apply Evolves.rfl | assumption | (apply lor_of_beq; focus decide)
     | apply wrf_evolves | apply setCtx_evolves | apply Evolves.ite | apply Evolves.foldl
  | intro _ | split | dsimp only

theorem disableCtx_evolves (s : State) (x1) (hm : 16385 ||| m = m) (h : Evolves m u s) :
    Evolves m u (disableCtx s x1) := by
  refine Evolves.step (k := 16385) ?_ hm h; clear h hm; unfold disableCtx
  repeat' first
  | with_reducible first
     | apply Evolves.rfl | assumption | (apply lor_of_beq; focus decide)
     | apply setSlot_evolves | apply setCtx_evolves | apply wrf_evolves | apply Evolves.ite | apply Evolves.foldl
  | intro _ | split | dsimp only

theorem execContextEnable_evolves (x0) (x1) (x2) (s3 : State) (hm : 8540225 ||| m = m) (h : Evolves m u s3) :
    Evolves m u (taken s3 (execContextEnable x0 x1 x2 s3)) := by
  refine Evolves.step (k := 8540225) ?_ hm h; clear h hm; unfold execContextEnable
  repeat' first
  | with_reducible first
     | apply Evolves.rfl | assumption | (apply lor_of_beq; focus decide)
     | apply Evolves.next | apply enableCtx_evolves | apply wr_evolves | apply disableCtx_evolves
     | apply refuse_evolves | apply gated_evolves | apply Evolves.ite | apply Evolves.foldl
  | intro _ | split | dsimp only

theorem ispAdvance_evolves (s : State) (hm : 1 ||| m = m) (h : Evolves m u s) :
    Evolves m u (ispAdvance s) := by
  refine Evolves.step (k := 1) ?_ hm h; clear h hm; unfold ispAdvance
  repeat' first
  | with_reducible first
     | apply Evolves.rfl | assumption | (apply lor_of_beq; focus decide)
     | apply wrf_evolves | apply Evolves.ite | apply Evolves.foldl
  | intro _ | split | dsimp only

theorem ispTableWrite_evolves (s : State) (x1) (hm : 8540225 ||| m = m) (h : Evolves m u s) :
    Evolves m u (ispTableWrite s x1) := by
  refine Evolves.step (k := 8540225) ?_ hm h; clear h hm; unfold ispTableWrite
  repeat' first
  | with_reducible first
     | apply Evolves.rfl | assumption | (apply lor_of_beq; focus decide)
     | apply refuse_evolves | apply ispAdvance_evolves | apply gated_evolves
     | fail_if_no_progress (apply Evolves.upd_16384; focus decide) | apply Evolves.ite | apply Evolves.foldl
  | intro _ | split | dsimp only

theorem ispWrite_evolves (s : State) (x1) (x2) (x3) (hm : 8540229 ||| m = m) (h : Evolves m u s) :
    Evolves m u (ispWrite s x1 x2 x3) := by
  refine Evolves.step (k := 8540229) ?_ hm h; clear h hm; unfold ispWrite
  repeat' first
  | with_reducible first
     | apply Evolves.rfl | assumption | (apply lor_of_beq; focus decide)
     | apply store_evolves | apply refuseIf_evolves | apply execTapRel_evolves | apply execContextEnable_evolves
     | apply plainWrite_evolves | apply ispTableWrite_evolves | apply Evolves.ite | apply Evolves.foldl
  | intro _ | split | dsimp only

theorem flngWrite_evolves (s : State) (x1) (x2) (hm : 8532037 ||| m = m) (h : Evolves m u s) :
    Evolves m u (flngWrite s x1 x2) := by
  refine Evolves.step (k := 8532037) ?_ hm h; clear h hm; unfold flngWrite
  repeat' first
  | with_reducible first
     | apply Evolves.rfl | assumption | (apply lor_of_beq; focus decide)
     | apply plainWrite_evolves | apply ioResend_evolves | apply gated_evolves | apply store_evolves
     | apply refuseIf_evolves | apply Evolves.ite | apply Evolves.foldl
  | intro _ | split | dsimp only

theorem execIoSafeWrite_evolves (x0) (x1) (x2) (x3) (s4 : State) (hm : 8532037 ||| m = m) (h : Evolves m u s4) :
    Evolves m u (taken s4 (execIoSafeWrite x0 x1 x2 x3 s4)) := by
  refine Evolves.step (k := 8532037) ?_ hm h; clear h hm; unfold execIoSafeWrite
  repeat' first
  | with_reducible first
     | apply Evolves.rfl | assumption | (apply lor_of_beq; focus decide)
     | apply Evolves.next | apply flnSend_evolves | apply store_evolves | apply gated_evolves | apply Evolves.ite
     | apply Evolves.foldl
  | intro _ | split | dsimp only

theorem ioOutEffect_evolves (s : State) (x1) (x2) (hm : 8396865 ||| m = m) (h : Evolves m u s) :
    Evolves m u (ioOutEffect s x1 x2) := by
  refine Evolves.step (k := 8396865) ?_ hm h; clear h hm; unfold ioOutEffect
  repeat' first
  | with_reducible first
     | apply Evolves.rfl | assumption | (apply lor_of_beq; focus decide)
     | apply wr64_evolves | apply setLane_evolves | apply flnSend_evolves | apply wr_evolves | apply Evolves.ite
     | apply Evolves.foldl
  | intro _ | split | dsimp only

theorem execIoOutWrite_evolves (x0) (x1) (x2) (s3 : State) (hm : 8532033 ||| m = m) (h : Evolves m u s3) :
    Evolves m u (taken s3 (execIoOutWrite x0 x1 x2 s3)) := by
  refine Evolves.step (k := 8532033) ?_ hm h; clear h hm; unfold execIoOutWrite
  repeat' first
  | with_reducible first
     | apply Evolves.rfl | assumption | (apply lor_of_beq; focus decide)
     | apply Evolves.next | apply ioOutEffect_evolves | apply gated_evolves | apply Evolves.ite | apply Evolves.foldl
  | intro _ | split | dsimp only

theorem enterMismatch_evolves (s : State) (x1) (hm : 11728193 ||| m = m) (h : Evolves m u s) :
    Evolves m u (enterMismatch s x1) := by
  refine Evolves.step (k := 11728193) ?_ hm h; clear h hm; unfold enterMismatch
  repeat' first
  | with_reducible first
     | apply Evolves.rfl | assumption | (apply lor_of_beq; focus decide)
     | apply ev_evolves | apply fault_evolves | apply setLane_evolves | apply Evolves.ite | apply Evolves.foldl
  | intro _ | split | dsimp only

theorem sendAmp_evolves (s : State) (x1) (x2) (x3) (x4) (hm : 8396864 ||| m = m) (h : Evolves m u s) :
    Evolves m u (sendAmp s x1 x2 x3 x4) := by
  refine Evolves.step (k := 8396864) ?_ hm h; clear h hm; unfold sendAmp
  repeat' first
  | with_reducible first
     | apply Evolves.rfl | assumption | (apply lor_of_beq; focus decide)
     | apply count_evolves | apply flnSend_evolves | apply setLane_evolves | apply Evolves.ite | apply Evolves.foldl
  | intro _ | split | dsimp only

theorem sendAmps_evolves (s : State) (x1) (x2) (x3) (hm : 8396864 ||| m = m) (h : Evolves m u s) :
    Evolves m u (sendAmps s x1 x2 x3) := by
  refine Evolves.step (k := 8396864) ?_ hm h; clear h hm; unfold sendAmps
  repeat' first
  | with_reducible first
     | apply Evolves.rfl | assumption | (apply lor_of_beq; focus decide)
     | apply sendAmp_evolves | apply Evolves.ite | apply Evolves.foldl
  | intro _ | split | dsimp only

theorem sendWave_evolves (s : State) (x1) (x2) (hm : 8396864 ||| m = m) (h : Evolves m u s) :
    Evolves m u (sendWave s x1 x2) := by
  refine Evolves.step (k := 8396864) ?_ hm h; clear h hm; unfold sendWave
  repeat' first
  | with_reducible first
     | apply Evolves.rfl | assumption | (apply lor_of_beq; focus decide)
     | apply count_evolves | apply flnSend_evolves | apply setLane_evolves | apply Evolves.ite | apply Evolves.foldl
  | intro _ | split | dsimp only

theorem sendBarState_evolves (s : State) (x1) (x2) (hm : 8396864 ||| m = m) (h : Evolves m u s) :
    Evolves m u (sendBarState s x1 x2) := by
  refine Evolves.step (k := 8396864) ?_ hm h; clear h hm; unfold sendBarState
  repeat' first
  | with_reducible first
     | apply Evolves.rfl | assumption | (apply lor_of_beq; focus decide)
     | apply sendHeadItems_evolves | apply flnSend_evolves | apply Evolves.ite | apply Evolves.foldl
  | intro _ | split | dsimp only

theorem sendFullState_evolves (s : State) (x1) (hm : 8396864 ||| m = m) (h : Evolves m u s) :
    Evolves m u (sendFullState s x1) := by
  refine Evolves.step (k := 8396864) ?_ hm h; clear h hm; unfold sendFullState
  repeat' first
  | with_reducible first
     | apply Evolves.rfl | assumption | (apply lor_of_beq; focus decide)
     | apply sendAmps_evolves | apply setLane_evolves | apply sendWave_evolves | apply sendBarState_evolves
     | apply flnSend_evolves | apply Evolves.ite | apply Evolves.foldl
  | intro _ | split | dsimp only

theorem enterActive_evolves (s : State) (x1) (hm : 8532033 ||| m = m) (h : Evolves m u s) :
    Evolves m u (enterActive s x1) := by
  refine Evolves.step (k := 8532033) ?_ hm h; clear h hm; unfold enterActive
  repeat' first
  | with_reducible first
     | apply Evolves.rfl | assumption | (apply lor_of_beq; focus decide)
     | apply ev_evolves | apply sendFullState_evolves | apply setLane_evolves | apply Evolves.ite
     | apply Evolves.foldl
  | intro _ | split | dsimp only

theorem checkPlan_evolves (s : State) (x1) (hm : 11728193 ||| m = m) (h : Evolves m u s) :
    Evolves m u (checkPlan s x1) := by
  refine Evolves.step (k := 11728193) ?_ hm h; clear h hm; unfold checkPlan
  repeat' first
  | with_reducible first
     | apply Evolves.rfl | assumption | (apply lor_of_beq; focus decide)
     | apply enterMismatch_evolves | apply enterActive_evolves | apply Evolves.ite | apply Evolves.foldl
  | intro _ | split | dsimp only

theorem execPlanWrite_evolves (x0) (x1) (x2) (x3) (s4 : State) (hm : 11728197 ||| m = m) (h : Evolves m u s4) :
    Evolves m u (taken s4 (execPlanWrite x0 x1 x2 x3 s4)) := by
  refine Evolves.step (k := 11728197) ?_ hm h; clear h hm; unfold execPlanWrite
  repeat' first
  | with_reducible first
     | apply Evolves.rfl | assumption | (apply lor_of_beq; focus decide)
     | apply Evolves.next | apply store_evolves | apply checkPlan_evolves | apply refuseIf_evolves | apply Evolves.ite
     | apply Evolves.foldl
  | intro _ | split | dsimp only

theorem flnWrite_evolves (s : State) (x1) (x2) (x3) (x4) (hm : 11728197 ||| m = m) (h : Evolves m u s) :
    Evolves m u (flnWrite s x1 x2 x3 x4) := by
  refine Evolves.step (k := 11728197) ?_ hm h; clear h hm; unfold flnWrite
  repeat' first
  | with_reducible first
     | apply Evolves.rfl | assumption | (apply lor_of_beq; focus decide)
     | apply plainWrite_evolves | apply execIoSafeWrite_evolves | apply execIoOutWrite_evolves | apply store_evolves
     | apply refuseIf_evolves | apply execPlanWrite_evolves | apply Evolves.ite | apply Evolves.foldl
  | intro _ | split | dsimp only

theorem execValidate_evolves (x0) (x1) (s2 : State) (hm : 8532033 ||| m = m) (h : Evolves m u s2) :
    Evolves m u (taken s2 (execValidate x0 x1 s2)) := by
  refine Evolves.step (k := 8532033) ?_ hm h; clear h hm; unfold execValidate
  repeat' first
  | with_reducible first
     | apply Evolves.rfl | assumption | (apply lor_of_beq; focus decide)
     | apply Evolves.next | apply wr_evolves | apply wrf_evolves | apply ev_evolves | apply sendWave_evolves
     | apply gated_evolves | apply Evolves.ite | apply Evolves.foldl
  | intro _ | split | dsimp only

theorem waveWrite_evolves (s : State) (x1) (x2) (x3) (hm : 8532037 ||| m = m) (h : Evolves m u s) :
    Evolves m u (waveWrite s x1 x2 x3) := by
  refine Evolves.step (k := 8532037) ?_ hm h; clear h hm; unfold waveWrite
  repeat' first
  | with_reducible first
     | apply Evolves.rfl | assumption | (apply lor_of_beq; focus decide)
     | apply plainWrite_evolves | apply execValidate_evolves | apply store_evolves | apply refuseIf_evolves
     | apply Evolves.ite | apply Evolves.foldl
  | intro _ | split | dsimp only

theorem execClrFault_evolves (x0) (x1) (s2 : State) (hm : 8524353 ||| m = m) (h : Evolves m u s2) :
    Evolves m u (taken s2 (execClrFault x0 x1 s2)) := by
  refine Evolves.step (k := 8524353) ?_ hm h; clear h hm; unfold execClrFault
  repeat' first
  | with_reducible first
     | apply Evolves.rfl | assumption | (apply lor_of_beq; focus decide)
     | apply Evolves.next | apply setChan_evolves | apply refuseIf_evolves | apply Evolves.ite | apply Evolves.foldl
  | intro _ | split | dsimp only

theorem loadPos_evolves (s : State) (x1) (hm : 512 ||| m = m) (h : Evolves m u s) :
    Evolves m u (loadPos s x1) := by
  refine Evolves.step (k := 512) ?_ hm h; clear h hm; unfold loadPos
  repeat' first
  | with_reducible first
     | apply Evolves.rfl | assumption | (apply lor_of_beq; focus decide)
     | apply setChan_evolves | apply Evolves.ite | apply Evolves.foldl
  | intro _ | split | dsimp only

theorem execLoad_evolves (x0) (x1) (s2 : State) (hm : 8524353 ||| m = m) (h : Evolves m u s2) :
    Evolves m u (taken s2 (execLoad x0 x1 s2)) := by
  refine Evolves.step (k := 8524353) ?_ hm h; clear h hm; unfold execLoad
  repeat' first
  | with_reducible first
     | apply Evolves.rfl | assumption | (apply lor_of_beq; focus decide)
     | apply Evolves.next | apply loadPos_evolves | apply refuseIf_evolves | apply Evolves.ite | apply Evolves.foldl
  | intro _ | split | dsimp only

theorem reversal_evolves (s : State) (x1) (x2) (hm : 11728705 ||| m = m) (h : Evolves m u s) :
    Evolves m u (reversal s x1 x2) := by
  refine Evolves.step (k := 11728705) ?_ hm h; clear h hm; unfold reversal
  repeat' first
  | with_reducible first
     | apply Evolves.rfl | assumption | (apply lor_of_beq; focus decide)
     | apply stopBars_evolves | apply ev_evolves | apply fault_evolves | apply setChan_evolves | apply Evolves.ite
     | apply Evolves.foldl
  | intro _ | split | dsimp only

theorem posCfg_evolves (s : State) (x1) (x2) (hm : 8523845 ||| m = m) (h : Evolves m u s) :
    Evolves m u (posCfg s x1 x2) := by
  refine Evolves.step (k := 8523845) ?_ hm h; clear h hm; unfold posCfg
  repeat' first
  | with_reducible first
     | apply Evolves.rfl | assumption | (apply lor_of_beq; focus decide)
     | apply wrf_evolves | apply conflict_evolves | apply claimRes_evolves | apply store_evolves
     | apply ptShowAll_evolves | apply refuseIf_evolves | apply Evolves.ite | apply Evolves.foldl
  | intro _ | split | dsimp only

theorem posWrite_evolves (s : State) (x1) (x2) (x3) (x4) (hm : 11728709 ||| m = m) (h : Evolves m u s) :
    Evolves m u (posWrite s x1 x2 x3 x4) := by
  refine Evolves.step (k := 11728709) ?_ hm h; clear h hm; unfold posWrite
  repeat' first
  | with_reducible first
     | apply Evolves.rfl | assumption | (apply lor_of_beq; focus decide)
     | apply plainWrite_evolves | apply execClrFault_evolves | apply execLoad_evolves | apply reversal_evolves
     | apply gated_evolves | apply store_evolves | apply refuseIf_evolves | apply posCfg_evolves | apply Evolves.ite
     | apply Evolves.foldl
  | intro _ | split | dsimp only

theorem thawWrite_evolves (s : State) (x1) (x2) (hm : 8523845 ||| m = m) (h : Evolves m u s) :
    Evolves m u (thawWrite s x1 x2) := by
  refine Evolves.step (k := 8523845) ?_ hm h; clear h hm; unfold thawWrite
  repeat' first
  | with_reducible first
     | apply Evolves.rfl | assumption | (apply lor_of_beq; focus decide)
     | apply store_evolves | apply refuseIf_evolves | apply Evolves.ite | apply Evolves.foldl
  | intro _ | split | dsimp only

theorem dramCmd_evolves (s : State) (x1) (x2) (hm : 8388608 ||| m = m) (h : Evolves m u s) :
    Evolves m u (dramCmd s x1 x2) := by
  refine Evolves.step (k := 8388608) ?_ hm h; clear h hm; unfold dramCmd
  repeat' first
  | with_reducible first
     | apply Evolves.rfl | assumption | (apply lor_of_beq; focus decide)
     | apply send_evolves | apply Evolves.ite | apply Evolves.foldl
  | intro _ | split | dsimp only

theorem setSubState_evolves (s : State) (x1) (x2) (hm : 2049 ||| m = m) (h : Evolves m u s) :
    Evolves m u (setSubState s x1 x2) := by
  refine Evolves.step (k := 2049) ?_ hm h; clear h hm; unfold setSubState
  repeat' first
  | with_reducible first
     | apply Evolves.rfl | assumption | (apply lor_of_beq; focus decide)
     | apply wrf_evolves | apply setSub_evolves | apply Evolves.ite | apply Evolves.foldl
  | intro _ | split | dsimp only

theorem enterSelf_evolves (s : State) (hm : 8390657 ||| m = m) (h : Evolves m u s) :
    Evolves m u (enterSelf s) := by
  refine Evolves.step (k := 8390657) ?_ hm h; clear h hm; unfold enterSelf
  repeat' first
  | with_reducible first
     | apply Evolves.rfl | assumption | (apply lor_of_beq; focus decide)
     | apply dramCmd_evolves | apply setSubState_evolves | apply Evolves.ite | apply Evolves.foldl
  | intro _ | split | dsimp only

theorem execFreqReq_evolves (x0) (x1) (x2) (s3 : State) (hm : 8525889 ||| m = m) (h : Evolves m u s3) :
    Evolves m u (taken s3 (execFreqReq x0 x1 x2 s3)) := by
  refine Evolves.step (k := 8525889) ?_ hm h; clear h hm; unfold execFreqReq
  dsimp only
  refine Evolves.next ?_
  split
  · exact ev_evolves _ _ _ (by decide) Evolves.rfl
  split
  · exact refuse_evolves _ _ (by decide) Evolves.rfl
  split
  · exact wrf_evolves _ _ _ _ _ (by decide) Evolves.rfl
  split
  · exact refuse_evolves _ _ (by decide) Evolves.rfl
  · refine enterSelf_evolves _ (by decide) (Evolves.foldl (Evolves.upd_2048 (by decide) id (wrf_evolves _ _ _ _ _ (by decide)
      (wrf_evolves _ _ _ _ _ (by decide) (wrf_evolves _ _ _ _ _ (by decide) Evolves.rfl)))) ?_)
    intro x y hx
    exact setSub_evolves _ _ _ (by decide) hx

theorem hotCfgChanged_evolves (s : State) (hm : 8534081 ||| m = m) (h : Evolves m u s) :
    Evolves m u (hotCfgChanged s) := by
  refine Evolves.step (k := 8534081) ?_ hm h; clear h hm; unfold hotCfgChanged
  repeat' first
  | with_reducible first
     | apply Evolves.rfl | assumption | (apply lor_of_beq; focus decide)
     | apply setSub_evolves | apply makeHot_evolves | apply Evolves.ite | apply Evolves.foldl
  | intro _ | split | dsimp only

theorem syncSlow_evolves (s : State) (hm : 8398912 ||| m = m) (h : Evolves m u s) :
    Evolves m u (syncSlow s) := by
  refine Evolves.step (k := 8398912) ?_ hm h; clear h hm; unfold syncSlow
  repeat' first
  | with_reducible first
     | apply Evolves.rfl | assumption | (apply lor_of_beq; focus decide)
     | apply slowSync_evolves | fail_if_no_progress (apply Evolves.upd_2048; focus decide) | apply memWf_keep
     | apply memWf_write | apply memWf_block | apply Nat.le_succ | apply Evolves.ite | apply Evolves.foldl
  | intro _ | split | dsimp only

theorem drgWrite_evolves (s : State) (x1) (x2) (x3) (hm : 8534085 ||| m = m) (h : Evolves m u s) :
    Evolves m u (drgWrite s x1 x2 x3) := by
  refine Evolves.step (k := 8534085) ?_ hm h; clear h hm; unfold drgWrite
  repeat' first
  | with_reducible first
     | apply Evolves.rfl | assumption | (apply lor_of_beq; focus decide)
     | apply execFreqReq_evolves | apply hotCfgChanged_evolves | apply store_evolves | apply syncDram_evolves
     | apply syncSlow_evolves | apply gated_evolves | apply Evolves.ite | apply Evolves.foldl
  | intro _ | split | dsimp only

theorem drcWrite_evolves (s : State) (x1) (x2) (x3) (hm : 8523845 ||| m = m) (h : Evolves m u s) :
    Evolves m u (drcWrite s x1 x2 x3) := by
  refine Evolves.step (k := 8523845) ?_ hm h; clear h hm; unfold drcWrite
  repeat' first
  | with_reducible first
     | apply Evolves.rfl | assumption | (apply lor_of_beq; focus decide)
     | apply store_evolves | apply refuseIf_evolves | apply Evolves.ite | apply Evolves.foldl
  | intro _ | split | dsimp only

theorem setIncr_evolves (s : State) (x1) (hm : 257 ||| m = m) (h : Evolves m u s) :
    Evolves m u (setIncr s x1) := by
  refine Evolves.step (k := 257) ?_ hm h; clear h hm; unfold setIncr
  repeat' first
  | with_reducible first
     | apply Evolves.rfl | assumption | (apply lor_of_beq; focus decide)
     | apply setClk_evolves | apply wr64_evolves | apply Evolves.ite | apply Evolves.foldl
  | intro _ | split | dsimp only

theorem execIncrWrite_evolves (x0) (x1) (s2 : State) (hm : 8524101 ||| m = m) (h : Evolves m u s2) :
    Evolves m u (taken s2 (execIncrWrite x0 x1 s2)) := by
  refine Evolves.step (k := 8524101) ?_ hm h; clear h hm; unfold execIncrWrite
  repeat' first
  | with_reducible first
     | apply Evolves.rfl | assumption | (apply lor_of_beq; focus decide)
     | apply Evolves.next | apply setIncr_evolves | apply refuse_evolves | apply gated_evolves
     | fail_if_no_progress (apply Evolves.upd_4; focus decide) | apply Evolves.ite | apply Evolves.foldl
  | intro _ | split | dsimp only

theorem execAcceptStep_evolves (x0) (s1 : State) (hm : 8524097 ||| m = m) (h : Evolves m u s1) :
    Evolves m u (taken s1 (execAcceptStep x0 s1)) := by
  refine Evolves.step (k := 8524097) ?_ hm h; clear h hm; unfold execAcceptStep
  repeat' first
  | with_reducible first
     | apply Evolves.rfl | assumption | (apply lor_of_beq; focus decide)
     | apply Evolves.next | apply setClk_evolves | apply gated_evolves | apply Evolves.ite | apply Evolves.foldl
  | intro _ | split | dsimp only

theorem setTotal_evolves (s : State) (x1) (hm : 256 ||| m = m) (h : Evolves m u s) :
    Evolves m u (setTotal s x1) := by
  refine Evolves.step (k := 256) ?_ hm h; clear h hm; unfold setTotal
  repeat' first
  | with_reducible first
     | apply Evolves.rfl | assumption | (apply lor_of_beq; focus decide)
     | apply setClk_evolves | apply Evolves.ite | apply Evolves.foldl
  | intro _ | split | dsimp only

theorem retrainLanes_evolves (s : State) (hm : 8397056 ||| m = m) (h : Evolves m u s) :
    Evolves m u (retrainLanes s) := by
  refine Evolves.step (k := 8397056) ?_ hm h; clear h hm; unfold retrainLanes
  repeat' first
  | with_reducible first
     | apply Evolves.rfl | assumption | (apply lor_of_beq; focus decide)
     | apply setClk_evolves | apply setLane_evolves | apply send_evolves | apply Evolves.ite | apply Evolves.foldl
  | intro _ | split | dsimp only

theorem stepTo_evolves (s : State) (x1) (hm : 8397056 ||| m = m) (h : Evolves m u s) :
    Evolves m u (stepTo s x1) := by
  refine Evolves.step (k := 8397056) ?_ hm h; clear h hm; unfold stepTo
  repeat' first
  | with_reducible first
     | apply Evolves.rfl | assumption | (apply lor_of_beq; focus decide)
     | apply setTotal_evolves | apply retrainLanes_evolves | apply Evolves.ite | apply Evolves.foldl
  | intro _ | split | dsimp only

theorem execAdj_evolves (x0) (s1 : State) (hm : 8532289 ||| m = m) (h : Evolves m u s1) :
    Evolves m u (taken s1 (execAdj x0 s1)) := by
  refine Evolves.step (k := 8532289) ?_ hm h; clear h hm; unfold execAdj
  repeat' first
  | with_reducible first
     | apply Evolves.rfl | assumption | (apply lor_of_beq; focus decide)
     | apply Evolves.next | apply stepTo_evolves | apply count_evolves | apply refuse_evolves | apply gated_evolves
     | apply Evolves.ite | apply Evolves.foldl
  | intro _ | split | dsimp only

theorem execPtcStep_evolves (x0) (s1 : State) (hm : 8532289 ||| m = m) (h : Evolves m u s1) :
    Evolves m u (taken s1 (execPtcStep x0 s1)) := by
  refine Evolves.step (k := 8532289) ?_ hm h; clear h hm; unfold execPtcStep
  repeat' first
  | with_reducible first
     | apply Evolves.rfl | assumption | (apply lor_of_beq; focus decide)
     | apply Evolves.next | apply stepTo_evolves | apply setClk_evolves | apply count_evolves | apply refuse_evolves
     | apply gated_evolves | apply Evolves.ite | apply Evolves.foldl
  | intro _ | split | dsimp only

theorem ptcWrite_evolves (s : State) (x1) (x2) (x3) (hm : 8532293 ||| m = m) (h : Evolves m u s) :
    Evolves m u (ptcWrite s x1 x2 x3) := by
  refine Evolves.step (k := 8532293) ?_ hm h; clear h hm; unfold ptcWrite
  repeat' first
  | with_reducible first
     | apply Evolves.rfl | assumption | (apply lor_of_beq; focus decide)
     | apply plainWrite_evolves | apply execIncrWrite_evolves | apply execAcceptStep_evolves | apply execAdj_evolves
     | apply execPtcStep_evolves | apply ptcSource_evolves | apply store_evolves | apply refuseIf_evolves
     | apply Evolves.ite | apply Evolves.foldl
  | intro _ | split | dsimp only

theorem ringWrite_evolves (s : State) (x1) (x2) (x3) (hm : 8523845 ||| m = m) (h : Evolves m u s) :
    Evolves m u (ringWrite s x1 x2 x3) := by
  refine Evolves.step (k := 8523845) ?_ hm h; clear h hm; unfold ringWrite
  repeat' first
  | with_reducible first
     | apply Evolves.rfl | assumption | (apply lor_of_beq; focus decide)
     | apply store_evolves | apply refuseIf_evolves | apply Evolves.ite | apply Evolves.foldl
  | intro _ | split | dsimp only

theorem ethWrite_evolves (s : State) (x1) (x2) (x3) (hm : 8523845 ||| m = m) (h : Evolves m u s) :
    Evolves m u (ethWrite s x1 x2 x3) := by
  refine Evolves.step (k := 8523845) ?_ hm h; clear h hm; unfold ethWrite
  repeat' first
  | with_reducible first
     | apply Evolves.rfl | assumption | (apply lor_of_beq; focus decide)
     | apply store_evolves | apply refuseIf_evolves | apply Evolves.ite | apply Evolves.foldl
  | intro _ | split | dsimp only

theorem execNvmErase_evolves (x0) (s1 : State) (hm : 9572417 ||| m = m) (h : Evolves m u s1) :
    Evolves m u (taken s1 (execNvmErase x0 s1)) := by
  refine Evolves.step (k := 9572417) ?_ hm h; clear h hm; unfold execNvmErase
  repeat' first
  | with_reducible first
     | apply Evolves.rfl | assumption | (apply lor_of_beq; focus decide)
     | apply Evolves.next | apply nvmStart_evolves | apply Evolves.ite | apply Evolves.foldl
  | intro _ | split | dsimp only

theorem execNvmProgram_evolves (x0) (s1 : State) (hm : 9572417 ||| m = m) (h : Evolves m u s1) :
    Evolves m u (taken s1 (execNvmProgram x0 s1)) := by
  refine Evolves.step (k := 9572417) ?_ hm h; clear h hm; unfold execNvmProgram
  repeat' first
  | with_reducible first
     | apply Evolves.rfl | assumption | (apply lor_of_beq; focus decide)
     | apply Evolves.next | apply nvmStart_evolves | apply Evolves.ite | apply Evolves.foldl
  | intro _ | split | dsimp only

theorem nvmWrite_evolves (s : State) (x1) (x2) (x3) (hm : 9572421 ||| m = m) (h : Evolves m u s) :
    Evolves m u (nvmWrite s x1 x2 x3) := by
  refine Evolves.step (k := 9572421) ?_ hm h; clear h hm; unfold nvmWrite
  repeat' first
  | with_reducible first
     | apply Evolves.rfl | assumption | (apply lor_of_beq; focus decide)
     | apply store_evolves | apply refuseIf_evolves | apply execNvmErase_evolves | apply execNvmProgram_evolves
     | apply execNvmRead_evolves | apply gated_evolves | apply Evolves.ite | apply Evolves.foldl
  | intro _ | split | dsimp only

theorem outWrite_evolves (s : State) (x1) (x2) (hm : 8523841 ||| m = m) (h : Evolves m u s) :
    Evolves m u (outWrite s x1 x2) := by
  refine Evolves.step (k := 8523841) ?_ hm h; clear h hm; unfold outWrite
  repeat' first
  | with_reducible first
     | apply Evolves.rfl | assumption | (apply lor_of_beq; focus decide)
     | apply wr_evolves | apply gpioShow_evolves | apply gated_evolves | apply Evolves.ite | apply Evolves.foldl
  | intro _ | split | dsimp only

theorem odWrite_evolves (s : State) (x1) (hm : 8523845 ||| m = m) (h : Evolves m u s) :
    Evolves m u (odWrite s x1) := by
  refine Evolves.step (k := 8523845) ?_ hm h; clear h hm; unfold odWrite
  repeat' first
  | with_reducible first
     | apply Evolves.rfl | assumption | (apply lor_of_beq; focus decide)
     | apply plainWrite_evolves | apply gpioShow_evolves | apply Evolves.ite | apply Evolves.foldl
  | intro _ | split | dsimp only

theorem gpioNotify_evolves (s : State) (hm : 8523840 ||| m = m) (h : Evolves m u s) :
    Evolves m u (gpioNotify s) := by
  refine Evolves.step (k := 8523840) ?_ hm h; clear h hm; unfold gpioNotify
  repeat' first
  | with_reducible first
     | apply Evolves.rfl | assumption | (apply lor_of_beq; focus decide)
     | apply notify_evolves | apply Evolves.ite | apply Evolves.foldl
  | intro _ | split | dsimp only

theorem dirWrite_evolves (s : State) (x1) (hm : 8523845 ||| m = m) (h : Evolves m u s) :
    Evolves m u (dirWrite s x1) := by
  refine Evolves.step (k := 8523845) ?_ hm h; clear h hm; unfold dirWrite
  repeat' first
  | with_reducible first
     | apply Evolves.rfl | assumption | (apply lor_of_beq; focus decide)
     | apply store_evolves | apply gpioShow_evolves | apply gpioNotify_evolves | apply refuseIf_evolves
     | apply Evolves.ite | apply Evolves.foldl
  | intro _ | split | dsimp only

theorem ownWrite_evolves (s : State) (x1) (x2) (x3) (hm : 8523841 ||| m = m) (h : Evolves m u s) :
    Evolves m u (ownWrite s x1 x2 x3) := by
  refine Evolves.step (k := 8523841) ?_ hm h; clear h hm; unfold ownWrite
  repeat' first
  | with_reducible first
     | apply Evolves.rfl | assumption | (apply lor_of_beq; focus decide)
     | apply conflict_evolves | apply wrf_evolves | apply refuse_evolves | apply gated_evolves | apply Evolves.ite
     | apply Evolves.foldl
  | intro _ | split | dsimp only

theorem pinWrite_evolves (s : State) (x1) (x2) (x3) (hm : 8523845 ||| m = m) (h : Evolves m u s) :
    Evolves m u (pinWrite s x1 x2 x3) := by
  refine Evolves.step (k := 8523845) ?_ hm h; clear h hm; unfold pinWrite
  repeat' first
  | with_reducible first
     | apply Evolves.rfl | assumption | (apply lor_of_beq; focus decide)
     | apply plainWrite_evolves | apply outWrite_evolves | apply odWrite_evolves | apply dirWrite_evolves
     | apply ownWrite_evolves | apply Evolves.ite | apply Evolves.foldl
  | intro _ | split | dsimp only

theorem srccfgSet_evolves (s : State) (x1) (x2) (x3) (hm : 8523841 ||| m = m) (h : Evolves m u s) :
    Evolves m u (srccfgSet s x1 x2 x3) := by
  refine Evolves.step (k := 8523841) ?_ hm h; clear h hm; unfold srccfgSet
  repeat' first
  | with_reducible first
     | apply Evolves.rfl | assumption | (apply lor_of_beq; focus decide)
     | apply wr_evolves | apply notify_evolves | apply refuse_evolves | apply ev_evolves | apply Evolves.ite
     | apply Evolves.foldl
  | intro _ | split | dsimp only

theorem notifyAll_evolves (s : State) (hm : 8523840 ||| m = m) (h : Evolves m u s) :
    Evolves m u (notifyAll s) := by
  refine Evolves.step (k := 8523840) ?_ hm h; clear h hm; unfold notifyAll
  repeat' first
  | with_reducible first
     | apply Evolves.rfl | assumption | (apply lor_of_beq; focus decide)
     | apply setFlag_evolves | apply Evolves.ite | apply Evolves.foldl
  | intro _ | split | dsimp only

theorem presentAgain_evolves (s : State) (x1) (hm : 8523840 ||| m = m) (h : Evolves m u s) :
    Evolves m u (presentAgain s x1) := by
  refine Evolves.step (k := 8523840) ?_ hm h; clear h hm; unfold presentAgain
  repeat' first
  | with_reducible first
     | apply Evolves.rfl | assumption | (apply lor_of_beq; focus decide)
     | apply setFlag_evolves | apply Evolves.ite | apply Evolves.foldl
  | intro _ | split | dsimp only

theorem execComplete_evolves (x0) (x1) (x2) (s3 : State) (hm : 8523841 ||| m = m) (h : Evolves m u s3) :
    Evolves m u (taken s3 (execComplete x0 x1 x2 s3)) := by
  refine Evolves.step (k := 8523841) ?_ hm h; clear h hm; unfold execComplete
  repeat' first
  | with_reducible first
     | apply Evolves.rfl | assumption | (apply lor_of_beq; focus decide)
     | apply Evolves.next | apply ev_evolves | apply count_evolves | apply presentAgain_evolves | apply setEvc_evolves
     | apply gated_evolves | apply Evolves.ite | apply Evolves.foldl
  | intro _ | split | dsimp only

theorem arrayWrite_evolves (s : State) (x1) (x2) (x3) (x4) (f5) (hf : ∀ x y0, Evolves m x (f5 x y0)) (hm : 8523841 ||| m = m) (h : Evolves m u s) :
    Evolves m u (arrayWrite s x1 x2 x3 x4 f5) := by
  refine h.trans ?_; clear h; unfold arrayWrite
  repeat' first
  | with_reducible first
     | apply Evolves.rfl | assumption | (apply lor_of_beq; focus decide)
     | exact lor_sub (by decide) hm | apply Evolves.trans _ (hf _ _) | apply refuse_evolves | apply gated_evolves
     | apply Evolves.ite | apply Evolves.foldl
  | intro _ | split | dsimp only

theorem execEnClr_evolves (x0) (x1) (x2) (s3 : State) (hm : 8523841 ||| m = m) (h : Evolves m u s3) :
    Evolves m u (taken s3 (execEnClr x0 x1 x2 s3)) := by
  refine Evolves.step (k := 8523841) ?_ hm h; clear h hm; unfold execEnClr
  repeat' first
  | with_reducible first
     | apply Evolves.rfl | assumption | (apply lor_of_beq; focus decide)
     | apply Evolves.next | apply setEvc_evolves | apply arrayWrite_evolves | apply Evolves.ite | apply Evolves.foldl
  | intro _ | split | dsimp only

theorem execEnSet_evolves (x0) (x1) (x2) (s3 : State) (hm : 8523841 ||| m = m) (h : Evolves m u s3) :
    Evolves m u (taken s3 (execEnSet x0 x1 x2 s3)) := by
  refine Evolves.step (k := 8523841) ?_ hm h; clear h hm; unfold execEnSet
  repeat' first
  | with_reducible first
     | apply Evolves.rfl | assumption | (apply lor_of_beq; focus decide)
     | apply Evolves.next | apply setEvc_evolves | apply notify_evolves | apply arrayWrite_evolves | apply Evolves.ite
     | apply Evolves.foldl
  | intro _ | split | dsimp only

theorem execPendClr_evolves (x0) (x1) (x2) (s3 : State) (hm : 8523841 ||| m = m) (h : Evolves m u s3) :
    Evolves m u (taken s3 (execPendClr x0 x1 x2 s3)) := by
  refine Evolves.step (k := 8523841) ?_ hm h; clear h hm; unfold execPendClr
  repeat' first
  | with_reducible first
     | apply Evolves.rfl | assumption | (apply lor_of_beq; focus decide)
     | apply Evolves.next | apply setEvc_evolves | apply arrayWrite_evolves | apply Evolves.ite | apply Evolves.foldl
  | intro _ | split | dsimp only

theorem execPendSet_evolves (x0) (x1) (x2) (s3 : State) (hm : 8523841 ||| m = m) (h : Evolves m u s3) :
    Evolves m u (taken s3 (execPendSet x0 x1 x2 s3)) := by
  refine Evolves.step (k := 8523841) ?_ hm h; clear h hm; unfold execPendSet
  repeat' first
  | with_reducible first
     | apply Evolves.rfl | assumption | (apply lor_of_beq; focus decide)
     | apply Evolves.next | apply setEvc_evolves | apply notify_evolves | apply arrayWrite_evolves | apply Evolves.ite
     | apply Evolves.foldl
  | intro _ | split | dsimp only

theorem evcWrite_evolves (s : State) (x1) (x2) (x3) (x4) (hm : 8523845 ||| m = m) (h : Evolves m u s) :
    Evolves m u (evcWrite s x1 x2 x3 x4) := by
  refine Evolves.step (k := 8523845) ?_ hm h; clear h hm; unfold evcWrite
  repeat' first
  | with_reducible first
     | apply Evolves.rfl | assumption | (apply lor_of_beq; focus decide)
     | apply srccfgSet_evolves | apply notifyAll_evolves | apply execComplete_evolves | apply gated_evolves
     | apply plainWrite_evolves | apply hostPin_evolves | apply execEnClr_evolves | apply execEnSet_evolves
     | apply execPendClr_evolves | apply execPendSet_evolves | apply Evolves.ite | apply Evolves.foldl
  | intro _ | split | dsimp only

theorem putTrims_evolves (s : State) (x1) (x2) (x3) (hm : 1 ||| m = m) (h : Evolves m u s) :
    Evolves m u (putTrims s x1 x2 x3) := by
  refine Evolves.step (k := 1) ?_ hm h; clear h hm; unfold putTrims
  repeat' first
  | with_reducible first
     | apply Evolves.rfl | assumption | (apply lor_of_beq; focus decide)
     | apply wr_evolves | apply Evolves.ite | apply Evolves.foldl
  | intro _ | split | dsimp only

theorem execReload_evolves (x0) (x1) (s2 : State) (hm : 8523841 ||| m = m) (h : Evolves m u s2) :
    Evolves m u (taken s2 (execReload x0 x1 s2)) := by
  refine Evolves.step (k := 8523841) ?_ hm h; clear h hm; unfold execReload
  repeat' first
  | with_reducible first
     | apply Evolves.rfl | assumption | (apply lor_of_beq; focus decide)
     | apply Evolves.next | apply putTrims_evolves | apply refuse_evolves | apply gated_evolves | apply Evolves.ite
     | apply Evolves.foldl
  | intro _ | split | dsimp only

theorem keepTrims_evolves (s : State) (x1) (hm : 262144 ||| m = m) (h : Evolves m u s) :
    Evolves m u (keepTrims s x1) := by
  refine Evolves.step (k := 262144) ?_ hm h; clear h hm; unfold keepTrims
  repeat' first
  | with_reducible first
     | apply Evolves.rfl | assumption | (apply lor_of_beq; focus decide)
     | apply setPower_evolves | apply Evolves.ite | apply Evolves.foldl
  | intro _ | split | dsimp only

theorem applyTrims_evolves (s : State) (x1) (hm : 262145 ||| m = m) (h : Evolves m u s) :
    Evolves m u (applyTrims s x1) := by
  refine Evolves.step (k := 262145) ?_ hm h; clear h hm; unfold applyTrims
  repeat' first
  | with_reducible first
     | apply Evolves.rfl | assumption | (apply lor_of_beq; focus decide)
     | apply keepTrims_evolves | apply putTrims_evolves | apply Evolves.ite | apply Evolves.foldl
  | intro _ | split | dsimp only

theorem setTrimFail_evolves (s : State) (x1) (x2) (hm : 1 ||| m = m) (h : Evolves m u s) :
    Evolves m u (setTrimFail s x1 x2) := by
  refine Evolves.step (k := 1) ?_ hm h; clear h hm; unfold setTrimFail
  repeat' first
  | with_reducible first
     | apply Evolves.rfl | assumption | (apply lor_of_beq; focus decide)
     | apply wrf_evolves | apply Evolves.ite | apply Evolves.foldl
  | intro _ | split | dsimp only

theorem trimFail_evolves (s : State) (x1) (x2) (x3) (hm : 11728193 ||| m = m) (h : Evolves m u s) :
    Evolves m u (trimFail s x1 x2 x3) := by
  refine Evolves.step (k := 11728193) ?_ hm h; clear h hm; unfold trimFail
  repeat' first
  | with_reducible first
     | apply Evolves.rfl | assumption | (apply lor_of_beq; focus decide)
     | apply ev_evolves | apply count_evolves | apply fault_evolves | apply setTrimFail_evolves | apply wrf_evolves
     | apply Evolves.ite | apply Evolves.foldl
  | intro _ | split | dsimp only

theorem execApply_evolves (x0) (x1) (s2 : State) (hm : 11990337 ||| m = m) (h : Evolves m u s2) :
    Evolves m u (taken s2 (execApply x0 x1 s2)) := by
  refine Evolves.step (k := 11990337) ?_ hm h; clear h hm; unfold execApply
  repeat' first
  | with_reducible first
     | apply Evolves.rfl | assumption | (apply lor_of_beq; focus decide)
     | apply Evolves.next | apply applyTrims_evolves | apply setTrimFail_evolves | apply count_evolves
     | apply ev_evolves | apply trimFail_evolves | apply refuse_evolves | apply gated_evolves | apply Evolves.ite
     | apply Evolves.foldl
  | intro _ | split | dsimp only

theorem execCal_evolves (x0) (x1) (s2 : State) (hm : 8523841 ||| m = m) (h : Evolves m u s2) :
    Evolves m u (taken s2 (execCal x0 x1 s2)) := by
  refine Evolves.step (k := 8523841) ?_ hm h; clear h hm; unfold execCal
  repeat' first
  | with_reducible first
     | apply Evolves.rfl | assumption | (apply lor_of_beq; focus decide)
     | apply Evolves.next | apply setTrimBusy_evolves | apply count_evolves | apply refuse_evolves
     | apply gated_evolves | apply Evolves.ite | apply Evolves.foldl
  | intro _ | split | dsimp only

theorem trimWrite_evolves (s : State) (x1) (x2) (x3) (hm : 11990341 ||| m = m) (h : Evolves m u s) :
    Evolves m u (trimWrite s x1 x2 x3) := by
  refine Evolves.step (k := 11990341) ?_ hm h; clear h hm; unfold trimWrite
  repeat' first
  | with_reducible first
     | apply Evolves.rfl | assumption | (apply lor_of_beq; focus decide)
     | apply store_evolves | apply execReload_evolves | apply execApply_evolves | apply execCal_evolves
     | apply refuseIf_evolves | apply Evolves.ite | apply Evolves.foldl
  | intro _ | split | dsimp only

theorem execClrStop_evolves (x0) (s1 : State) (hm : 8794177 ||| m = m) (h : Evolves m u s1) :
    Evolves m u (taken s1 (execClrStop x0 s1)) := by
  refine Evolves.step (k := 8794177) ?_ hm h; clear h hm; unfold execClrStop
  repeat' first
  | with_reducible first
     | apply Evolves.rfl | assumption | (apply lor_of_beq; focus decide)
     | apply Evolves.next | apply setPower_evolves | apply slowSync_evolves | apply refuse_evolves
     | apply gated_evolves | apply Evolves.ite | apply Evolves.foldl
  | intro _ | split | dsimp only

theorem thmWrite_evolves (s : State) (x1) (x2) (x3) (hm : 8794181 ||| m = m) (h : Evolves m u s) :
    Evolves m u (thmWrite s x1 x2 x3) := by
  refine Evolves.step (k := 8794181) ?_ hm h; clear h hm; unfold thmWrite
  repeat' first
  | with_reducible first
     | apply Evolves.rfl | assumption | (apply lor_of_beq; focus decide)
     | apply plainWrite_evolves | apply execClrStop_evolves | apply gated_evolves | apply store_evolves
     | apply refuseIf_evolves | apply Evolves.ite | apply Evolves.foldl
  | intro _ | split | dsimp only

theorem selfRefresh_evolves (s : State) (hm : 8390657 ||| m = m) (h : Evolves m u s) :
    Evolves m u (selfRefresh s) := by
  refine Evolves.step (k := 8390657) ?_ hm h; clear h hm; unfold selfRefresh
  repeat' first
  | with_reducible first
     | apply Evolves.rfl | assumption | (apply lor_of_beq; focus decide)
     | apply dramCmd_evolves | apply setSubState_evolves | apply Evolves.ite | apply Evolves.foldl
  | intro _ | split | dsimp only

theorem askIdle_evolves (s : State) (x1) (hm : 8396864 ||| m = m) (h : Evolves m u s) :
    Evolves m u (askIdle s x1) := by
  refine Evolves.step (k := 8396864) ?_ hm h; clear h hm; unfold askIdle
  repeat' first
  | with_reducible first
     | apply Evolves.rfl | assumption | (apply lor_of_beq; focus decide)
     | apply setLane_evolves | apply flnSend_evolves | apply Evolves.ite | apply Evolves.foldl
  | intro _ | split | dsimp only

theorem idleLanes_evolves (s : State) (hm : 8396864 ||| m = m) (h : Evolves m u s) :
    Evolves m u (idleLanes s) := by
  refine Evolves.step (k := 8396864) ?_ hm h; clear h hm; unfold idleLanes
  repeat' first
  | with_reducible first
     | apply Evolves.rfl | assumption | (apply lor_of_beq; focus decide)
     | apply askIdle_evolves | apply Evolves.ite | apply Evolves.foldl
  | intro _ | split | dsimp only

theorem execPstateDeep_evolves (x0) (s1 : State) (hm : 8796225 ||| m = m) (h : Evolves m u s1) :
    Evolves m u (taken s1 (execPstateDeep x0 s1)) := by
  refine Evolves.step (k := 8796225) ?_ hm h; clear h hm; unfold execPstateDeep
  repeat' first
  | with_reducible first
     | apply Evolves.rfl | assumption | (apply lor_of_beq; focus decide)
     | apply Evolves.next | apply setPower_evolves | apply count_evolves | apply selfRefresh_evolves
     | apply idleLanes_evolves | apply refuse_evolves | apply gated_evolves
     | fail_if_no_progress (apply Evolves.upd_4096; focus decide) | apply Evolves.ite | apply Evolves.foldl
  | intro _ | split | dsimp only

theorem execPstateDoze_evolves (x0) (s1 : State) (hm : 9320513 ||| m = m) (h : Evolves m u s1) :
    Evolves m u (taken s1 (execPstateDoze x0 s1)) := by
  refine Evolves.step (k := 9320513) ?_ hm h; clear h hm; unfold execPstateDoze
  repeat' first
  | with_reducible first
     | apply Evolves.rfl | assumption | (apply lor_of_beq; focus decide)
     | apply Evolves.next | apply setPower_evolves | apply count_evolves | apply selfRefresh_evolves
     | apply idleLanes_evolves | apply refuse_evolves | apply gated_evolves
     | fail_if_no_progress (apply Evolves.upd_524288; focus decide) | apply Evolves.ite | apply Evolves.foldl
  | intro _ | split | dsimp only

theorem clkWrite_evolves (s : State) (x1) (x2) (x3) (hm : 9320517 ||| m = m) (h : Evolves m u s) :
    Evolves m u (clkWrite s x1 x2 x3) := by
  refine Evolves.step (k := 9320517) ?_ hm h; clear h hm; unfold clkWrite
  repeat' first
  | with_reducible first
     | apply Evolves.rfl | assumption | (apply lor_of_beq; focus decide)
     | apply plainWrite_evolves | apply execPstateDeep_evolves | apply execPstateDoze_evolves | apply gated_evolves
     | apply Evolves.ite | apply Evolves.foldl
  | intro _ | split | dsimp only

theorem blockWrite_evolves (s : State) (x1) (x2) (x3) (x4) (hm : 12582727 ||| m = m) (h : Evolves m u s) :
    Evolves m u (blockWrite s x1 x2 x3 x4) := by
  refine Evolves.step (k := 12582727) ?_ hm h; clear h hm; unfold blockWrite
  repeat' first
  | with_reducible first
     | apply Evolves.rfl | assumption | (apply lor_of_beq; focus decide)
     | apply plainWrite_evolves | apply snapWrite_evolves | apply cmpWrite_evolves | apply axWrite_evolves
     | apply pairWrite_evolves | apply loopWrite_evolves | apply ispWrite_evolves | apply store_evolves
     | apply refuseIf_evolves | apply flngWrite_evolves | apply flnWrite_evolves | apply waveWrite_evolves
     | apply posWrite_evolves | apply thawWrite_evolves | apply drgWrite_evolves | apply drcWrite_evolves
     | apply ptcWrite_evolves | apply ringWrite_evolves | apply ethWrite_evolves | apply nvmWrite_evolves
     | apply pinWrite_evolves | apply evcWrite_evolves | apply trimWrite_evolves | apply thmWrite_evolves
     | apply clkWrite_evolves | apply Evolves.ite | apply Evolves.foldl
  | intro _ | split | dsimp only

theorem evEnable_evolves (s : State) (x1) (x2) (x3) (hm : 8523841 ||| m = m) (h : Evolves m u s) :
    Evolves m u (evEnable s x1 x2 x3) := by
  refine Evolves.step (k := 8523841) ?_ hm h; clear h hm; unfold evEnable
  repeat' first
  | with_reducible first
     | apply Evolves.rfl | assumption | (apply lor_of_beq; focus decide)
     | apply wr_evolves | apply notify_evolves | apply Evolves.ite | apply Evolves.foldl
  | intro _ | split | dsimp only

theorem armNow_evolves (s : State) (x1) (hm : 3 ||| m = m) (h : Evolves m u s) :
    Evolves m u (armNow s x1) := by
  refine Evolves.step (k := 3) ?_ hm h; clear h hm; unfold armNow
  repeat' first
  | with_reducible first
     | apply Evolves.rfl | assumption | (apply lor_of_beq; focus decide)
     | apply wr_evolves | apply setCm_evolves | apply Evolves.ite | apply Evolves.foldl
  | intro _ | split | dsimp only

theorem setDisp_evolves (s : State) (x1) (hm : 524288 ||| m = m) (h : Evolves m u s) :
    Evolves m u (setDisp s x1) := by
  refine Evolves.step (k := 524288) ?_ hm h; clear h hm; unfold setDisp
  repeat' first
  | with_reducible first
     | apply Evolves.rfl | assumption | (apply lor_of_beq; focus decide)
     | fail_if_no_progress (apply Evolves.upd_524288; focus decide) | apply Evolves.ite | apply Evolves.foldl
  | intro _ | split | dsimp only

theorem dispArm_evolves (s : State) (hm : 9048129 ||| m = m) (h : Evolves m u s) :
    Evolves m u (dispArm s) := by
  refine Evolves.step (k := 9048129) ?_ hm h; clear h hm; unfold dispArm
  repeat' first
  | with_reducible first
     | apply Evolves.rfl | assumption | (apply lor_of_beq; focus decide)
     | apply wrf_evolves | apply setDisp_evolves | apply count_evolves | apply ev_evolves | apply wr_evolves
     | apply Evolves.ite | apply Evolves.foldl
  | intro _ | split | dsimp only

theorem commitArm_evolves (s : State) (x1) (x2) (hm : 9048131 ||| m = m) (h : Evolves m u s) :
    Evolves m u (commitArm s x1 x2) := by
  refine Evolves.step (k := 9048131) ?_ hm h; clear h hm; unfold commitArm
  repeat' first
  | with_reducible first
     | apply Evolves.rfl | assumption | (apply lor_of_beq; focus decide)
     | apply armNow_evolves | apply armAt_evolves | apply dispArm_evolves | apply Evolves.ite | apply Evolves.foldl
  | intro _ | split | dsimp only

theorem forgetLoop_evolves (s : State) (x1) (hm : 16384 ||| m = m) (h : Evolves m u s) :
    Evolves m u (forgetLoop s x1) := by
  refine Evolves.step (k := 16384) ?_ hm h; clear h hm; unfold forgetLoop
  repeat' first
  | with_reducible first
     | apply Evolves.rfl | assumption | (apply lor_of_beq; focus decide)
     | fail_if_no_progress (apply Evolves.upd_16384; focus decide) | apply Evolves.ite | apply Evolves.foldl
  | intro _ | split | dsimp only

theorem commitCancel_evolves (s : State) (x1) (hm : 540673 ||| m = m) (h : Evolves m u s) :
    Evolves m u (commitCancel s x1) := by
  refine Evolves.step (k := 540673) ?_ hm h; clear h hm; unfold commitCancel
  repeat' first
  | with_reducible first
     | apply Evolves.rfl | assumption | (apply lor_of_beq; focus decide)
     | apply forgetLoop_evolves | apply setDisp_evolves | apply wr_evolves | apply Evolves.ite | apply Evolves.foldl
  | intro _ | split | dsimp only

theorem commitWord_evolves (s : State) (x1) (x2) (hm : 9064515 ||| m = m) (h : Evolves m u s) :
    Evolves m u (commitWord s x1 x2) := by
  refine Evolves.step (k := 9064515) ?_ hm h; clear h hm; unfold commitWord
  repeat' first
  | with_reducible first
     | apply Evolves.rfl | assumption | (apply lor_of_beq; focus decide)
     | apply commitArm_evolves | apply commitCancel_evolves | apply wrf_evolves | apply refuse_evolves
     | apply Evolves.ite | apply Evolves.foldl
  | intro _ | split | dsimp only

theorem trainAt_evolves (s : State) (x1) (hm : 8912960 ||| m = m) (h : Evolves m u s) :
    Evolves m u (trainAt s x1) := by
  refine Evolves.step (k := 8912960) ?_ hm h; clear h hm; unfold trainAt
  repeat' first
  | with_reducible first
     | apply Evolves.rfl | assumption | (apply lor_of_beq; focus decide)
     | apply setDisp_evolves | apply count_evolves | apply send_evolves | apply Evolves.ite | apply Evolves.foldl
  | intro _ | split | dsimp only

theorem linkFail_evolves (s : State) (hm : 12252481 ||| m = m) (h : Evolves m u s) :
    Evolves m u (linkFail s) := by
  refine Evolves.step (k := 12252481) ?_ hm h; clear h hm; unfold linkFail
  repeat' first
  | with_reducible first
     | apply Evolves.rfl | assumption | (apply lor_of_beq; focus decide)
     | apply setDisp_evolves | apply fault_evolves | apply Evolves.ite | apply Evolves.foldl
  | intro _ | split | dsimp only

theorem dispStart_evolves (s : State) (hm : 12252481 ||| m = m) (h : Evolves m u s) :
    Evolves m u (dispStart s) := by
  refine Evolves.step (k := 12252481) ?_ hm h; clear h hm; unfold dispStart
  repeat' first
  | with_reducible first
     | apply Evolves.rfl | assumption | (apply lor_of_beq; focus decide)
     | apply trainAt_evolves | apply linkFail_evolves | apply Evolves.ite | apply Evolves.foldl
  | intro _ | split | dsimp only

theorem setDram_evolves (s : State) (x1) (x2) (hm : 2048 ||| m = m) (h : Evolves m u s) :
    Evolves m u (setDram s x1 x2) := by
  refine Evolves.step (k := 2048) ?_ hm h; clear h hm; unfold setDram
  repeat' first
  | with_reducible first
     | apply Evolves.rfl | assumption | (apply lor_of_beq; focus decide)
     | fail_if_no_progress (apply Evolves.upd_2048; focus decide) | apply memWf_keep | apply memWf_write
     | apply memWf_block | apply Nat.le_succ | apply Evolves.ite | apply Evolves.foldl
  | intro _ | split | dsimp only

theorem setFlashPage_evolves (s : State) (x1) (x2) (hm : 1048576 ||| m = m) (h : Evolves m u s) :
    Evolves m u (setFlashPage s x1 x2) := by
  refine Evolves.step (k := 1048576) ?_ hm h; clear h hm; unfold setFlashPage
  repeat' first
  | with_reducible first
     | apply Evolves.rfl | assumption | (apply lor_of_beq; focus decide)
     | fail_if_no_progress (apply Evolves.upd_1048576; focus decide) | apply Evolves.ite | apply Evolves.foldl
  | intro _ | split | dsimp only

theorem setSector_evolves (s : State) (x1) (f2) (hm : 1048576 ||| m = m) (h : Evolves m u s) :
    Evolves m u (setSector s x1 f2) := by
  refine Evolves.step (k := 1048576) ?_ hm h; clear h hm; unfold setSector
  repeat' first
  | with_reducible first
     | apply Evolves.rfl | assumption | (apply lor_of_beq; focus decide)
     | apply setFlashPage_evolves | apply Evolves.ite | apply Evolves.foldl
  | intro _ | split | dsimp only

theorem drawFree_evolves (s : State) (x1) (hm : 4194304 ||| m = m) (h : Evolves m u s) :
    Evolves m u (drawFree s x1).2 := by
  refine Evolves.step (k := 4194304) ?_ hm h; clear h hm; unfold drawFree
  exact Evolves.upd_4194304 (by decide) (Nat.le_succ _) Evolves.rfl

theorem spoil_evolves (s : State) (x1) (hm : 5242880 ||| m = m) (h : Evolves m u s) :
    Evolves m u (spoil s x1) := by
  refine Evolves.step (k := 5242880) ?_ hm h; clear h hm; unfold spoil
  repeat' first
  | with_reducible first
     | apply Evolves.rfl | assumption | (apply lor_of_beq; focus decide)
     | apply setFlashPage_evolves | apply setSector_evolves | apply drawFree_evolves | apply Evolves.ite
     | apply Evolves.foldl
  | intro _ | split | dsimp only

theorem flashCut_evolves (s : State) (hm : 5242880 ||| m = m) (h : Evolves m u s) :
    Evolves m u (flashCut s) := by
  refine Evolves.step (k := 5242880) ?_ hm h; clear h hm; unfold flashCut
  repeat' first
  | with_reducible first
     | apply Evolves.rfl | assumption | (apply lor_of_beq; focus decide)
     | apply spoil_evolves | apply Evolves.ite | apply Evolves.foldl
  | intro _ | split | dsimp only

theorem engineReset_evolves (s : State) (x1) (hm : 16777025 ||| m = m) (h : Evolves m u s) :
    Evolves m u (engineReset s x1) := by
  refine Evolves.step (k := 16777025) ?_ hm h; clear h hm; unfold engineReset
  repeat' first
  | with_reducible first
     | apply Evolves.rfl | assumption | (apply lor_of_beq; focus decide)
     | apply setDisp_evolves | apply dispStart_evolves | apply setAxis_evolves | apply setRole_evolves
     | apply checkCamera_evolves | apply setBar_evolves | apply setChan_evolves | apply setDram_evolves
     | apply setSub_evolves | apply setClk_evolves | apply ptcSource_evolves | apply flashCut_evolves
     | apply setPower_evolves | apply setEvc_evolves | apply hostPin_evolves | apply setLane_evolves
     | fail_if_no_progress (apply Evolves.upd_1024; focus decide)
     | fail_if_no_progress (apply Evolves.upd_4096; focus decide)
     | fail_if_no_progress (apply Evolves.upd_16384; focus decide)
     | fail_if_no_progress (apply Evolves.upd_32768; focus decide)
     | fail_if_no_progress (apply Evolves.upd_65536; focus decide)
     | fail_if_no_progress (apply Evolves.upd_1048576; focus decide)
     | fail_if_no_progress (apply Evolves.upd_2097152; focus decide) | apply Evolves.ite | apply Evolves.foldl
  | intro _ | split | dsimp only

theorem blockReset_evolves (s : State) (x1) (hm : 16777031 ||| m = m) (h : Evolves m u s) :
    Evolves m u (blockReset s x1) := by
  refine Evolves.step (k := 16777031) ?_ hm h; clear h hm; unfold blockReset
  refine ptShowAll_evolves _ _ (by decide) (gpioShow_evolves _ _ (by decide)
    (engineReset_evolves _ _ (by decide) (wr_evolves _ _ _ (by decide) ?_)))
  refine (freeUse_evolves (m := 16777031) s x1 (by decide) Evolves.rfl).trans ?_
  generalize freeUse s x1 = s
  exact
    ⟨fun b => absurd b (by decide), fun b => absurd b (by decide), fun b => absurd b (by decide), fun _ => rfl,
    fun _ => rfl, fun _ => rfl, fun b => absurd b (by decide), fun _ => rfl, fun _ => rfl, fun _ => rfl, fun _ =>
    rfl, fun _ => rfl, fun _ => rfl, fun _ => rfl, fun _ => rfl, fun _ => rfl, fun _ => rfl, fun _ => rfl, fun _
    => rfl, fun _ => rfl, fun _ => rfl, fun _ => rfl, fun _ => rfl, fun _ => rfl, fun _ => rfl, fun w => w,
    List.prefix_rfl, Nat.le_refl _⟩

theorem releaseOutputs_evolves (s : State) (hm : 8396865 ||| m = m) (h : Evolves m u s) :
    Evolves m u (releaseOutputs s) := by
  refine Evolves.step (k := 8396865) ?_ hm h; clear h hm; unfold releaseOutputs
  repeat' first
  | with_reducible first
     | apply Evolves.rfl | assumption | (apply lor_of_beq; focus decide)
     | apply ioResend_evolves | apply wrf_evolves | fail_if_no_progress (apply Evolves.upd_8192; focus decide)
     | apply Evolves.ite | apply Evolves.foldl
  | intro _ | split | dsimp only

theorem volatileReset_evolves (s : State) (x1) (hm : 16777183 ||| m = m) (h : Evolves m u s) :
    Evolves m u (volatileReset s x1) := by
  refine Evolves.step (k := 16777183) ?_ hm h; clear h hm; unfold volatileReset
  refine (flashCut_evolves (m := 16777183) s (by decide) Evolves.rfl).trans ?_
  generalize flashCut s = s
  have hv (s0 : State) (hs : Evolves 16777183 s s0) : Evolves 16777183 s (if x1 = true then selfRefresh s0 else s0) := by
    split
    · exact selfRefresh_evolves _ (by decide) hs
    · exact hs
  refine ptShowAll_evolves _ _ (by decide) (hv _ ?_)
  exact
    ⟨fun b => absurd b (by decide), fun b => absurd b (by decide), fun b => absurd b (by decide), fun b => absurd
    b (by decide), fun b => absurd b (by decide), fun _ => rfl, fun b => absurd b (by decide), fun b => absurd b
    (by decide), fun b => absurd b (by decide), fun b => absurd b (by decide), fun b => absurd b (by decide), fun
    b => absurd b (by decide), fun b => absurd b (by decide), fun b => absurd b (by decide), fun b => absurd b (by
    decide), fun b => absurd b (by decide), fun b => absurd b (by decide), fun b => absurd b (by decide), fun b =>
    absurd b (by decide), fun b => absurd b (by decide), fun b => absurd b (by decide), fun b => absurd b (by
    decide), fun b => absurd b (by decide), fun b => absurd b (by decide), fun _ => rfl, fun w => by cases x1 <;>
    simp_all [memWf], List.prefix_rfl, Nat.le_refl _⟩

theorem startBoot_evolves (s : State) (x1) (x2) (hm : 1048577 ||| m = m) (h : Evolves m u s) :
    Evolves m u (startBoot s x1 x2) := by
  refine Evolves.step (k := 1048577) ?_ hm h; clear h hm; unfold startBoot
  repeat' first
  | with_reducible first
     | apply Evolves.rfl | assumption | (apply lor_of_beq; focus decide)
     | apply wr_evolves | fail_if_no_progress (apply Evolves.upd_1048576; focus decide) | apply Evolves.ite
     | apply Evolves.foldl
  | intro _ | split | dsimp only

theorem srst_evolves (s : State) (x1) (hm : 16777183 ||| m = m) (h : Evolves m u s) :
    Evolves m u (srst s x1) := by
  refine Evolves.step (k := 16777183) ?_ hm h; clear h hm; unfold srst
  repeat' first
  | with_reducible first
     | apply Evolves.rfl | assumption | (apply lor_of_beq; focus decide)
     | apply blockReset_evolves | apply wrf_evolves | apply releaseOutputs_evolves | apply volatileReset_evolves
     | apply startBoot_evolves | apply refuse_evolves | apply Evolves.ite | apply Evolves.foldl
  | intro _ | split | dsimp only

theorem pageStops_evolves (s : State) (x1) (hm : 12318017 ||| m = m) (h : Evolves m u s) :
    Evolves m u (pageStops s x1) := by
  refine Evolves.step (k := 12318017) ?_ hm h; clear h hm; unfold pageStops
  repeat' first
  | with_reducible first
     | apply Evolves.rfl | assumption | (apply lor_of_beq; focus decide)
     | apply wr_evolves | apply checkCamera_evolves | apply setDisp_evolves | apply setAxis_evolves
     | apply setLane_evolves | apply wrf_evolves | fail_if_no_progress (apply Evolves.upd_65536; focus decide)
     | apply Evolves.ite | apply Evolves.foldl
  | intro _ | split | dsimp only

theorem pageStarts_evolves (s : State) (x1) (hm : 12252993 ||| m = m) (h : Evolves m u s) :
    Evolves m u (pageStarts s x1) := by
  refine Evolves.step (k := 12252993) ?_ hm h; clear h hm; unfold pageStarts
  repeat' first
  | with_reducible first
     | apply Evolves.rfl | assumption | (apply lor_of_beq; focus decide)
     | apply checkCamera_evolves | apply dispStart_evolves | apply setChan_evolves | apply setLane_evolves
     | apply claimRes_evolves | apply Evolves.ite | apply Evolves.foldl
  | intro _ | split | dsimp only

theorem setCtrl_evolves (s : State) (x1) (x2) (x3) (hm : 1 ||| m = m) (h : Evolves m u s) :
    Evolves m u (setCtrl s x1 x2 x3) := by
  refine Evolves.step (k := 1) ?_ hm h; clear h hm; unfold setCtrl
  repeat' first
  | with_reducible first
     | apply Evolves.rfl | assumption | (apply lor_of_beq; focus decide)
     | apply wrf_evolves | apply wr_evolves | apply Evolves.ite | apply Evolves.foldl
  | intro _ | split | dsimp only

theorem ctrlWrite_evolves (s : State) (x1) (x2) (x3) (hm : 12318529 ||| m = m) (h : Evolves m u s) :
    Evolves m u (ctrlWrite s x1 x2 x3) := by
  refine Evolves.step (k := 12318529) ?_ hm h; clear h hm; unfold ctrlWrite
  repeat' first
  | with_reducible first
     | apply Evolves.rfl | assumption | (apply lor_of_beq; focus decide)
     | apply pageStops_evolves | apply pageStarts_evolves | apply conflict_evolves | apply setCtrl_evolves
     | apply Evolves.ite | apply Evolves.foldl
  | intro _ | split | dsimp only

theorem loopCtrl_evolves (s : State) (x1) (x2) (hm : 12318529 ||| m = m) (h : Evolves m u s) :
    Evolves m u (loopCtrl s x1 x2) := by
  refine Evolves.step (k := 12318529) ?_ hm h; clear h hm; unfold loopCtrl
  repeat' first
  | with_reducible first
     | apply Evolves.rfl | assumption | (apply lor_of_beq; focus decide)
     | apply ctrlWrite_evolves | apply refuse_evolves | apply setCtrl_evolves | apply wr_evolves | apply Evolves.ite
     | apply Evolves.foldl
  | intro _ | split | dsimp only

theorem blockEnable_evolves (s : State) (x1) (x2) (x3) (hm : 12318529 ||| m = m) (h : Evolves m u s) :
    Evolves m u (blockEnable s x1 x2 x3) := by
  refine Evolves.step (k := 12318529) ?_ hm h; clear h hm; unfold blockEnable
  repeat' first
  | with_reducible first
     | apply Evolves.rfl | assumption | (apply lor_of_beq; focus decide)
     | apply ctrlWrite_evolves | apply loopCtrl_evolves | apply refuse_evolves | apply Evolves.ite
     | apply Evolves.foldl
  | intro _ | split | dsimp only

theorem ctrlWord_evolves (s : State) (x1) (x2) (hm : 16777183 ||| m = m) (h : Evolves m u s) :
    Evolves m u (ctrlWord s x1 x2) := by
  refine Evolves.step (k := 16777183) ?_ hm h; clear h hm; unfold ctrlWord
  repeat' first
  | with_reducible first
     | apply Evolves.rfl | assumption | (apply lor_of_beq; focus decide)
     | apply srst_evolves | apply blockEnable_evolves | apply refuse_evolves | apply Evolves.ite | apply Evolves.foldl
  | intro _ | split | dsimp only

theorem headerWrite_evolves (s : State) (x1) (x2) (x3) (hm : 16777183 ||| m = m) (h : Evolves m u s) :
    Evolves m u (headerWrite s x1 x2 x3) := by
  refine Evolves.step (k := 16777183) ?_ hm h; clear h hm; unfold headerWrite
  repeat' first
  | with_reducible first
     | apply Evolves.rfl | assumption | (apply lor_of_beq; focus decide)
     | apply evEnable_evolves | apply evSet_evolves | apply wr_evolves | apply commitWord_evolves
     | apply ctrlWord_evolves | apply Evolves.ite | apply Evolves.foldl
  | intro _ | split | dsimp only

theorem refuseBars_evolves (s : State) (x1) (hm : 8523841 ||| m = m) (h : Evolves m u s) :
    Evolves m u (refuseBars s x1) := by
  refine Evolves.step (k := 8523841) ?_ hm h; clear h hm; unfold refuseBars
  repeat' first
  | with_reducible first
     | apply Evolves.rfl | assumption | (apply lor_of_beq; focus decide)
     | apply refuse_evolves | apply Evolves.ite | apply Evolves.foldl
  | intro _ | split | dsimp only

theorem waveStore_evolves (s : State) (x1) (x2) (x3) (hm : 8523841 ||| m = m) (h : Evolves m u s) :
    Evolves m u (waveStore s x1 x2 x3) := by
  refine Evolves.step (k := 8523841) ?_ hm h; clear h hm; unfold waveStore
  repeat' first
  | with_reducible first
     | apply Evolves.rfl | assumption | (apply lor_of_beq; focus decide)
     | apply refuseBars_evolves | apply wr_evolves | apply Evolves.ite | apply Evolves.foldl
  | intro _ | split | dsimp only

theorem bandTrimStore_evolves (s : State) (x1) (x2) (x3) (x4) (x5) (hm : 8523841 ||| m = m) (h : Evolves m u s) :
    Evolves m u (bandTrimStore s x1 x2 x3 x4 x5) := by
  refine Evolves.step (k := 8523841) ?_ hm h; clear h hm; unfold bandTrimStore
  repeat' first
  | with_reducible first
     | apply Evolves.rfl | assumption | (apply lor_of_beq; focus decide)
     | apply wr_evolves | apply refuse_evolves | apply Evolves.ite | apply Evolves.foldl
  | intro _ | split | dsimp only

theorem windowStore_evolves (s : State) (x1) (x2) (x3) (hm : 8523841 ||| m = m) (h : Evolves m u s) :
    Evolves m u (windowStore s x1 x2 x3) := by
  refine Evolves.step (k := 8523841) ?_ hm h; clear h hm; unfold windowStore
  repeat' first
  | with_reducible first
     | apply Evolves.rfl | assumption | (apply lor_of_beq; focus decide)
     | apply refuseBars_evolves | apply wr_evolves | apply Evolves.ite | apply Evolves.foldl
  | intro _ | split | dsimp only

theorem nozzleTable_evolves (s : State) (x1) (x2) (x3) (hm : 11728193 ||| m = m) (h : Evolves m u s) :
    Evolves m u (nozzleTable s x1 x2 x3) := by
  refine Evolves.step (k := 11728193) ?_ hm h; clear h hm; unfold nozzleTable
  repeat' first
  | with_reducible first
     | apply Evolves.rfl | assumption | (apply lor_of_beq; focus decide)
     | apply refuse_evolves | apply missLimit_evolves | apply nozzleWrite_evolves | apply Evolves.ite
     | apply Evolves.foldl
  | intro _ | split | dsimp only

theorem windowWrite_evolves (s : State) (x1) (x2) (x3) (hm : 11728193 ||| m = m) (h : Evolves m u s) :
    Evolves m u (windowWrite s x1 x2 x3) := by
  refine Evolves.step (k := 11728193) ?_ hm h; clear h hm; unfold windowWrite
  repeat' first
  | with_reducible first
     | apply Evolves.rfl | assumption | (apply lor_of_beq; focus decide)
     | apply waveStore_evolves | apply bandTrimStore_evolves | apply windowStore_evolves | apply nozzleTable_evolves
     | apply Evolves.ite | apply Evolves.foldl
  | intro _ | split | dsimp only

theorem writeReg_evolves (s : State) (x1) (x2) (x3) (hm : 16777183 ||| m = m) (h : Evolves m u s) :
    Evolves m u (writeReg s x1 x2 x3) := by
  refine Evolves.step (k := 16777183) ?_ hm h; clear h hm; unfold writeReg
  repeat' first
  | with_reducible first
     | apply Evolves.rfl | assumption | (apply lor_of_beq; focus decide)
     | apply blockWrite_evolves | apply ev_evolves | apply headerWrite_evolves | apply windowWrite_evolves
     | apply Evolves.ite | apply Evolves.foldl
  | intro _ | split | dsimp only

theorem hostWrite_evolves (s : State) (x1) (x2) (x3) (hm : 16777183 ||| m = m) (h : Evolves m u s) :
    Evolves m u (hostWrite s x1 x2 x3) := by
  refine Evolves.step (k := 16777183) ?_ hm h; clear h hm; unfold hostWrite
  repeat' first
  | with_reducible first
     | apply Evolves.rfl | assumption | (apply lor_of_beq; focus decide)
     | apply writeReg_evolves | apply takeInput_evolves | apply Evolves.ite | apply Evolves.foldl
  | intro _ | split | dsimp only

theorem arriveWrite_evolves (s : State) (x1) (x2) (x3) (x4) (hm : 16777183 ||| m = m) (h : Evolves m u s) :
    Evolves m u (arriveWrite s x1 x2 x3 x4) := by
  refine Evolves.step (k := 16777183) ?_ hm h; clear h hm; unfold arriveWrite
  repeat' first
  | with_reducible first
     | apply Evolves.rfl | assumption | (apply lor_of_beq; focus decide)
     | apply hostWrite_evolves | apply ev_evolves | fail_if_no_progress (apply Evolves.upd_4096; focus decide)
     | apply Evolves.ite | apply Evolves.foldl
  | intro _ | split | dsimp only

theorem trainArea_evolves (s : State) (x1) (hm : 4196352 ||| m = m) (h : Evolves m u s) :
    Evolves m u (trainArea s x1) := by
  refine Evolves.step (k := 4196352) ?_ hm h; clear h hm; unfold trainArea
  repeat' first
  | with_reducible first
     | apply Evolves.rfl | assumption | (apply lor_of_beq; focus decide)
     | apply drawFree_evolves | fail_if_no_progress (apply Evolves.upd_2048; focus decide) | apply memWf_keep
     | apply memWf_write | apply memWf_block | apply Nat.le_succ | apply Evolves.ite | apply Evolves.foldl
  | intro _ | split | dsimp only

theorem memTrained_evolves (s : State) (hm : 12593217 ||| m = m) (h : Evolves m u s) :
    Evolves m u (memTrained s) := by
  refine Evolves.step (k := 12593217) ?_ hm h; clear h hm; unfold memTrained
  repeat' first
  | with_reducible first
     | apply Evolves.rfl | assumption | (apply lor_of_beq; focus decide)
     | apply syncDram_evolves | apply dramCmd_evolves | apply setSubState_evolves | apply trainArea_evolves
     | apply Evolves.ite | apply Evolves.foldl
  | intro _ | split | dsimp only

theorem wakeDoze_evolves (s : State) (hm : 16777183 ||| m = m) (h : Evolves m u s) :
    Evolves m u (wakeDoze s) := by
  refine Evolves.step (k := 16777183) ?_ hm h; clear h hm; unfold wakeDoze
  repeat' first
  | with_reducible first
     | apply Evolves.rfl | assumption | (apply lor_of_beq; focus decide)
     | apply arriveWrite_evolves | apply ev_evolves | apply setDisp_evolves | apply dispStart_evolves
     | apply setPower_evolves | apply memTrained_evolves | fail_if_no_progress (apply Evolves.upd_4096; focus decide)
     | apply Evolves.ite | apply Evolves.foldl
  | intro _ | split | dsimp only

theorem refreshLimits_evolves (s : State) (x1) (hm : 1 ||| m = m) (h : Evolves m u s) :
    Evolves m u (refreshLimits s x1) := by
  refine Evolves.step (k := 1) ?_ hm h; clear h hm; unfold refreshLimits
  repeat' first
  | with_reducible first
     | apply Evolves.rfl | assumption | (apply lor_of_beq; focus decide)
     | apply wr_evolves | apply Evolves.ite | apply Evolves.foldl
  | intro _ | split | dsimp only

theorem placePass_evolves (s : State) (x1) (x2) (hm : 8397889 ||| m = m) (h : Evolves m u s) :
    Evolves m u (placePass s x1 x2) := by
  refine Evolves.step (k := 8397889) ?_ hm h; clear h hm; unfold placePass
  repeat' first
  | with_reducible first
     | apply Evolves.rfl | assumption | (apply lor_of_beq; focus decide)
     | apply setWin_evolves | apply slowSync_evolves | apply wr_evolves | apply refreshLimits_evolves
     | apply pushOld_evolves | apply setBar_evolves | apply Evolves.ite | apply Evolves.foldl
  | intro _ | split | dsimp only

theorem addAlign_evolves (s : State) (x1) (x2) (x3) (x4) (hm : 1 ||| m = m) (h : Evolves m u s) :
    Evolves m u (addAlign s x1 x2 x3 x4) := by
  refine Evolves.step (k := 1) ?_ hm h; clear h hm; unfold addAlign
  repeat' first
  | with_reducible first
     | apply Evolves.rfl | assumption | (apply lor_of_beq; focus decide)
     | apply wr_evolves | apply Evolves.ite | apply Evolves.foldl
  | intro _ | split | dsimp only

theorem copyAlign_evolves (s : State) (x1) (x2) (x3) (hm : 1 ||| m = m) (h : Evolves m u s) :
    Evolves m u (copyAlign s x1 x2 x3) := by
  refine Evolves.step (k := 1) ?_ hm h; clear h hm; unfold copyAlign
  repeat' first
  | with_reducible first
     | apply Evolves.rfl | assumption | (apply lor_of_beq; focus decide)
     | apply wr_evolves | apply Evolves.ite | apply Evolves.foldl
  | intro _ | split | dsimp only

theorem copySelected_evolves (s : State) (x1) (x2) (hm : 1 ||| m = m) (h : Evolves m u s) :
    Evolves m u (copySelected s x1 x2) := by
  refine Evolves.step (k := 1) ?_ hm h; clear h hm; unfold copySelected
  repeat' first
  | with_reducible first
     | apply Evolves.rfl | assumption | (apply lor_of_beq; focus decide)
     | apply copyAlign_evolves | apply Evolves.ite | apply Evolves.foldl
  | intro _ | split | dsimp only

theorem drypAuto_evolves (s : State) (hm : 8523843 ||| m = m) (h : Evolves m u s) :
    Evolves m u (drypAuto s) := by
  refine Evolves.step (k := 8523843) ?_ hm h; clear h hm; unfold drypAuto
  repeat' first
  | with_reducible first
     | apply Evolves.rfl | assumption | (apply lor_of_beq; focus decide)
     | apply armAt_evolves | apply wrf_evolves | apply addAlign_evolves | apply copySelected_evolves
     | apply refuseBars_evolves | apply Evolves.ite | apply Evolves.foldl
  | intro _ | split | dsimp only

theorem drypDone_evolves (s : State) (x1) (hm : 8523843 ||| m = m) (h : Evolves m u s) :
    Evolves m u (drypDone s x1) := by
  refine Evolves.step (k := 8523843) ?_ hm h; clear h hm; unfold drypDone
  repeat' first
  | with_reducible first
     | apply Evolves.rfl | assumption | (apply lor_of_beq; focus decide)
     | apply drypAuto_evolves | apply ev_evolves | apply wr_evolves | apply Evolves.ite | apply Evolves.foldl
  | intro _ | split | dsimp only

theorem execDrypointDone_evolves (x0) (s1 : State) (hm : 8556611 ||| m = m) (h : Evolves m u s1) :
    Evolves m u (taken s1 (execDrypointDone x0 s1)) := by
  refine Evolves.step (k := 8556611) ?_ hm h; clear h hm; unfold execDrypointDone
  repeat' first
  | with_reducible first
     | apply Evolves.rfl | assumption | (apply lor_of_beq; focus decide)
     | apply Evolves.next | apply drypDone_evolves | apply asInput_evolves | apply Evolves.ite | apply Evolves.foldl
  | intro _ | split | dsimp only

theorem moveCont_evolves (s : State) (x1) (x2) (hm : 35840 ||| m = m) (h : Evolves m u s) :
    Evolves m u (moveCont s x1 x2) := by
  refine Evolves.step (k := 35840) ?_ hm h; clear h hm; unfold moveCont
  repeat' first
  | with_reducible first
     | apply Evolves.rfl | assumption | (apply lor_of_beq; focus decide)
     | apply setTile_evolves | apply markDirty_evolves | apply writeMem_evolves | apply Evolves.ite
     | apply Evolves.foldl
  | intro _ | split | dsimp only

theorem compactStore_evolves (s : State) (hm : 35840 ||| m = m) (h : Evolves m u s) :
    Evolves m u (compactStore s) := by
  refine Evolves.step (k := 35840) ?_ hm h; clear h hm; unfold compactStore
  have hf (l : List (Tile × Nat × Nat × Nat)) : ∀ x : State × Nat, Evolves 35840 s x.1 →
      Evolves 35840 s (l.foldl (fun x c => (moveCont x.1 c x.2, x.2 + grans c.2.2.2)) x).1 := by
    induction l with
    | nil => exact fun x hx => hx
    | cons c l ih => exact fun x hx => ih _ (moveCont_evolves _ _ _ (by decide) hx)
  exact hf _ _ Evolves.rfl

theorem placeStore_evolves (s : State) (x1) {p : Nat × State} (ho : placeStore s x1 = some p) (hm : 35840 ||| m = m)
    (h : Evolves m u s) : Evolves m u p.2 := by
  refine Evolves.step (k := 35840) ?_ hm h; clear h hm; unfold placeStore at ho
  split at ho
  · cases ho; exact Evolves.rfl
  · obtain ⟨g, hg, rfl⟩ := Option.map_eq_some_iff.mp ho
    exact compactStore_evolves _ (by decide) Evolves.rfl

theorem tilePut_evolves (s : State) (x1) (x2) (hm : 8559681 ||| m = m) (h : Evolves m u s) :
    Evolves m u (tilePut s x1 x2) := by
  refine Evolves.step (k := 8559681) ?_ hm h; clear h hm; unfold tilePut
  have hf (v : Nat) (x : State) (hx : Evolves 8559681 s x) : Evolves 8559681 s (finishStatus x x1 v) :=
    finishStatus_evolves _ _ _ (by decide) hx
  have he (e : JEntry) (x : State) (hx : Evolves 8559681 s x) : Evolves 8559681 s (setEntry x x1 e) :=
    setEntry_evolves _ _ _ (by decide) hx
  have hp (c : Bool) (n g : Nat) (t : State) (ht : (if c = true then placeStore s n else none) = some (g, t)) :
      Evolves 8559681 s t := by
    split at ht
    · exact placeStore_evolves s _ ht (by decide) Evolves.rfl
    · cases ht
  dsimp only
  repeat' first
    | exact Evolves.rfl
    | refine hf _ _ ?_
    | exact ev_evolves _ _ _ (by decide) Evolves.rfl
    | refine he _ _ ?_
    | refine setTile_evolves _ _ (by decide) (jobAlloc_evolves _ _ _ (by decide) ?_)
    | exact hp _ _ _ _ (by assumption)
    | split

theorem execTilePut_evolves (x0) (s1 : State) (hm : 8559681 ||| m = m) (h : Evolves m u s1) :
    Evolves m u (taken s1 (execTilePut x0 s1)) := by
  refine Evolves.step (k := 8559681) ?_ hm h; clear h hm; unfold execTilePut
  repeat' first
  | with_reducible first
     | apply Evolves.rfl | assumption | (apply lor_of_beq; focus decide)
     | apply Evolves.next | apply tilePut_evolves | apply onEntry_evolves | apply Evolves.ite | apply Evolves.foldl
  | intro _ | split | dsimp only

theorem readLadder_evolves (s : State) (x1) (x2) (x3) (x4) (hm : 16384 ||| m = m) (h : Evolves m u s) :
    Evolves m u (readLadder s x1 x2 x3 x4) := by
  refine Evolves.step (k := 16384) ?_ hm h; clear h hm; unfold readLadder
  repeat' first
  | with_reducible first
     | apply Evolves.rfl | assumption | (apply lor_of_beq; focus decide)
     | fail_if_no_progress (apply Evolves.upd_16384; focus decide) | apply Evolves.ite | apply Evolves.foldl
  | intro _ | split | dsimp only

theorem patchPixel_evolves (s : State) (x1) (x2) (x3) (x4) (x5) (hm : 16384 ||| m = m) (h : Evolves m u s) :
    Evolves m u (patchPixel s x1 x2 x3 x4 x5) := by
  refine Evolves.step (k := 16384) ?_ hm h; clear h hm; unfold patchPixel
  repeat' first
  | with_reducible first
     | apply Evolves.rfl | assumption | (apply lor_of_beq; focus decide)
     | fail_if_no_progress (apply Evolves.upd_16384; focus decide) | apply Evolves.ite | apply Evolves.foldl
  | intro _ | split | dsimp only

theorem measureFrame_evolves (s : State) (x1) (x2) (x3) (hm : 16384 ||| m = m) (h : Evolves m u s) :
    Evolves m u (measureFrame s x1 x2 x3) := by
  refine Evolves.step (k := 16384) ?_ hm h; clear h hm; unfold measureFrame
  repeat' first
  | with_reducible first
     | apply Evolves.rfl | assumption | (apply lor_of_beq; focus decide)
     | apply patchPixel_evolves | apply Evolves.ite | apply Evolves.foldl
  | intro _ | split | dsimp only

theorem useFrame_evolves (s : State) (x1) (x2) (hm : 16384 ||| m = m) (h : Evolves m u s) :
    Evolves m u (useFrame s x1 x2) := by
  refine Evolves.step (k := 16384) ?_ hm h; clear h hm; unfold useFrame
  repeat' first
  | with_reducible first
     | apply Evolves.rfl | assumption | (apply lor_of_beq; focus decide)
     | apply readLadder_evolves | apply measureFrame_evolves | apply Evolves.ite | apply Evolves.foldl
  | intro _ | split | dsimp only

theorem offsetMeasured_evolves (s : State) (x1) (x2) (hm : 257 ||| m = m) (h : Evolves m u s) :
    Evolves m u (offsetMeasured s x1 x2) := by
  refine Evolves.step (k := 257) ?_ hm h; clear h hm; unfold offsetMeasured
  repeat' first
  | with_reducible first
     | apply Evolves.rfl | assumption | (apply lor_of_beq; focus decide)
     | apply setClk_evolves | apply wr_evolves | apply Evolves.ite | apply Evolves.foldl
  | intro _ | split | dsimp only

theorem judgeMargin_evolves (s : State) (x1) (x2) (x3) (hm : 11728193 ||| m = m) (h : Evolves m u s) :
    Evolves m u (judgeMargin s x1 x2 x3) := by
  refine Evolves.step (k := 11728193) ?_ hm h; clear h hm; unfold judgeMargin
  repeat' first
  | with_reducible first
     | apply Evolves.rfl | assumption | (apply lor_of_beq; focus decide)
     | apply ev_evolves | apply fault_evolves | apply wrf_evolves | apply Evolves.ite | apply Evolves.foldl
  | intro _ | split | dsimp only

theorem judgeEye_evolves (s : State) (x1) (x2) (x3) (hm : 11728193 ||| m = m) (h : Evolves m u s) :
    Evolves m u (judgeEye s x1 x2 x3) := by
  refine Evolves.step (k := 11728193) ?_ hm h; clear h hm; unfold judgeEye
  repeat' first
  | with_reducible first
     | apply Evolves.rfl | assumption | (apply lor_of_beq; focus decide)
     | apply fault_evolves | apply Evolves.ite | apply Evolves.foldl
  | intro _ | split | dsimp only

theorem judgeSweep_evolves (s : State) (x1) (x2) (hm : 11728193 ||| m = m) (h : Evolves m u s) :
    Evolves m u (judgeSweep s x1 x2) := by
  refine Evolves.step (k := 11728193) ?_ hm h; clear h hm; unfold judgeSweep
  repeat' first
  | with_reducible first
     | apply Evolves.rfl | assumption | (apply lor_of_beq; focus decide)
     | apply judgeMargin_evolves | apply judgeEye_evolves | apply Evolves.ite | apply Evolves.foldl
  | intro _ | split | dsimp only

theorem deliverEarly_evolves (x0) (s1 : State) (hm : 11796295 ||| m = m) (h : Evolves m u s1) :
    Evolves m u (deliverEarly x0 s1) := by
  induction x0 generalizing s1 with
  | zero => exact h
  | succ n ih =>
    simp only [deliverEarly]
    split
    · exact h
    · exact ih _ (deliverPair_evolves _ _ _ (lor_sub (by decide) hm) (setPair_evolves _ _ (lor_sub (by decide) hm) h))

theorem inOrder_evolves (s : State) (x1) (x2) (x3) (x4) (hm : 11796295 ||| m = m) (h : Evolves m u s) :
    Evolves m u (inOrder s x1 x2 x3 x4) := by
  refine Evolves.step (k := 11796295) ?_ hm h; clear h hm; unfold inOrder
  repeat' first
  | with_reducible first
     | apply Evolves.rfl | assumption | (apply lor_of_beq; focus decide)
     | apply deliverEarly_evolves | apply setPair_evolves | apply deliverPair_evolves | apply Evolves.ite
     | apply Evolves.foldl
  | intro _ | split | dsimp only

theorem enterHoldover_evolves (s : State) (hm : 8524097 ||| m = m) (h : Evolves m u s) :
    Evolves m u (enterHoldover s) := by
  refine Evolves.step (k := 8524097) ?_ hm h; clear h hm; unfold enterHoldover
  repeat' first
  | with_reducible first
     | apply Evolves.rfl | assumption | (apply lor_of_beq; focus decide)
     | apply setClk_evolves | apply ev_evolves | apply Evolves.ite | apply Evolves.foldl
  | intro _ | split | dsimp only

theorem masterJump_evolves (s : State) (x1) (x2) (hm : 11728193 ||| m = m) (h : Evolves m u s) :
    Evolves m u (masterJump s x1 x2) := by
  refine Evolves.step (k := 11728193) ?_ hm h; clear h hm; unfold masterJump
  repeat' first
  | with_reducible first
     | apply Evolves.rfl | assumption | (apply lor_of_beq; focus decide)
     | apply ev_evolves | apply fault_evolves | apply setClk_evolves | apply enterHoldover_evolves | apply Evolves.ite
     | apply Evolves.foldl
  | intro _ | split | dsimp only

theorem slew_evolves (s : State) (x1) (hm : 4194625 ||| m = m) (h : Evolves m u s) :
    Evolves m u (slew s x1) := by
  refine Evolves.step (k := 4194625) ?_ hm h; clear h hm; unfold slew
  refine setIncr_evolves _ _ (by decide) ?_
  split
  · exact Evolves.upd_4194304 (by decide) (Nat.le_succ _) Evolves.rfl
  · exact count_evolves _ _ _ (by decide) (Evolves.upd_4194304 (by decide) (Nat.le_succ _) Evolves.rfl)

theorem pairTimeCheck_evolves (s : State) (x1) (hm : 11728193 ||| m = m) (h : Evolves m u s) :
    Evolves m u (pairTimeCheck s x1) := by
  refine Evolves.step (k := 11728193) ?_ hm h; clear h hm; unfold pairTimeCheck
  repeat' first
  | with_reducible first
     | apply Evolves.rfl | assumption | (apply lor_of_beq; focus decide)
     | apply ev_evolves | apply fault_evolves | apply setClk_evolves | apply Evolves.ite | apply Evolves.foldl
  | intro _ | split | dsimp only

theorem setTime16_evolves (s : State) (x1) (hm : 256 ||| m = m) (h : Evolves m u s) :
    Evolves m u (setTime16 s x1) := by
  refine Evolves.step (k := 256) ?_ hm h; clear h hm; unfold setTime16
  repeat' first
  | with_reducible first
     | apply Evolves.rfl | assumption | (apply lor_of_beq; focus decide)
     | apply setClk_evolves | apply setTotal_evolves | apply Evolves.ite | apply Evolves.foldl
  | intro _ | split | dsimp only

theorem stepBack_evolves (s : State) (x1) (hm : 8397056 ||| m = m) (h : Evolves m u s) :
    Evolves m u (stepBack s x1) := by
  refine Evolves.step (k := 8397056) ?_ hm h; clear h hm; unfold stepBack
  repeat' first
  | with_reducible first
     | apply Evolves.rfl | assumption | (apply lor_of_beq; focus decide)
     | apply setTime16_evolves | apply retrainLanes_evolves | apply Evolves.ite | apply Evolves.foldl
  | intro _ | split | dsimp only

theorem pairServo_evolves (s : State) (x1) (hm : 15922497 ||| m = m) (h : Evolves m u s) :
    Evolves m u (pairServo s x1) := by
  refine Evolves.step (k := 15922497) ?_ hm h; clear h hm; unfold pairServo
  repeat' first
  | with_reducible first
     | apply Evolves.rfl | assumption | (apply lor_of_beq; focus decide)
     | apply masterJump_evolves | apply slew_evolves | apply pairTimeCheck_evolves | apply stepBack_evolves
     | apply count_evolves | apply setClk_evolves | apply wr_evolves | apply Evolves.ite | apply Evolves.foldl
  | intro _ | split | dsimp only

theorem pairTime_evolves (s : State) (x1) (x2) (hm : 15922497 ||| m = m) (h : Evolves m u s) :
    Evolves m u (pairTime s x1 x2) := by
  refine Evolves.step (k := 15922497) ?_ hm h; clear h hm; unfold pairTime
  repeat' first
  | with_reducible first
     | apply Evolves.rfl | assumption | (apply lor_of_beq; focus decide)
     | apply setClk_evolves | apply pairServo_evolves | apply pairPut_evolves | apply Evolves.ite
     | apply Evolves.foldl
  | intro _ | split | dsimp only

theorem onHb_evolves (s : State) (x1) (hm : 11728193 ||| m = m) (h : Evolves m u s) :
    Evolves m u (onHb s x1) := by
  refine Evolves.step (k := 11728193) ?_ hm h; clear h hm; unfold onHb
  repeat' first
  | with_reducible first
     | apply Evolves.rfl | assumption | (apply lor_of_beq; focus decide)
     | apply bothActive_evolves | apply rejoin_evolves | apply slowSync_evolves | apply wr_evolves
     | apply setPair_evolves | apply seeEpoch_evolves | apply Evolves.ite | apply Evolves.foldl
  | intro _ | split | dsimp only

theorem sendTile_evolves (s : State) (x1) (hm : 8421440 ||| m = m) (h : Evolves m u s) :
    Evolves m u (sendTile s x1) := by
  refine Evolves.step (k := 8421440) ?_ hm h; clear h hm; unfold sendTile
  repeat' first
  | with_reducible first
     | apply Evolves.rfl | assumption | (apply lor_of_beq; focus decide)
     | apply sendCopy_evolves | apply sendPieces_evolves | apply Evolves.ite | apply Evolves.foldl
  | intro _ | split | dsimp only

theorem sendRegions_evolves (s : State) (hm : 8421440 ||| m = m) (h : Evolves m u s) :
    Evolves m u (sendRegions s) := by
  refine Evolves.step (k := 8421440) ?_ hm h; clear h hm; unfold sendRegions
  repeat' first
  | with_reducible first
     | apply Evolves.rfl | assumption | (apply lor_of_beq; focus decide)
     | apply sendTile_evolves | apply sendCopy_evolves | apply pairSendSeq_evolves | apply setPair_evolves
     | apply Evolves.ite | apply Evolves.foldl
  | intro _ | split | dsimp only

theorem takeAck_evolves (s : State) (x1) (hm : 8425537 ||| m = m) (h : Evolves m u s) :
    Evolves m u (takeAck s x1) := by
  refine Evolves.step (k := 8425537) ?_ hm h; clear h hm; unfold takeAck
  repeat' first
  | with_reducible first
     | apply Evolves.rfl | assumption | (apply lor_of_beq; focus decide)
     | apply sendRegions_evolves | apply releaseHeld_evolves | apply setPair_evolves | apply Evolves.ite
     | apply Evolves.foldl
  | intro _ | split | dsimp only

theorem restartSeq_evolves (s : State) (hm : 32768 ||| m = m) (h : Evolves m u s) :
    Evolves m u (restartSeq s) := by
  refine Evolves.step (k := 32768) ?_ hm h; clear h hm; unfold restartSeq
  repeat' first
  | with_reducible first
     | apply Evolves.rfl | assumption | (apply lor_of_beq; focus decide)
     | apply setPair_evolves | apply Evolves.ite | apply Evolves.foldl
  | intro _ | split | dsimp only

theorem partnerRestart_evolves (s : State) (x1) (x2) (hm : 8421440 ||| m = m) (h : Evolves m u s) :
    Evolves m u (partnerRestart s x1 x2) := by
  refine Evolves.step (k := 8421440) ?_ hm h; clear h hm; unfold partnerRestart
  repeat' first
  | with_reducible first
     | apply Evolves.rfl | assumption | (apply lor_of_beq; focus decide)
     | apply restartSeq_evolves | apply pairSendSeq_evolves | apply Evolves.ite | apply Evolves.foldl
  | intro _ | split | dsimp only

theorem pairReceive_evolves (s : State) (x1) (x2) (hm : 15990599 ||| m = m) (h : Evolves m u s) :
    Evolves m u (pairReceive s x1 x2) := by
  refine Evolves.step (k := 15990599) ?_ hm h; clear h hm; unfold pairReceive
  repeat' first
  | with_reducible first
     | apply Evolves.rfl | assumption | (apply lor_of_beq; focus decide)
     | apply inOrder_evolves | apply pairTime_evolves | apply onHb_evolves | apply takeAck_evolves
     | apply partnerRestart_evolves | apply count_evolves | apply Evolves.ite | apply Evolves.foldl
  | intro _ | split | dsimp only

theorem execPairHello_evolves (x0) (s1 : State) (hm : 15990599 ||| m = m) (h : Evolves m u s1) :
    Evolves m u (taken s1 (execPairHello x0 s1)) := by
  refine Evolves.step (k := 15990599) ?_ hm h; clear h hm; unfold execPairHello
  repeat' first
  | with_reducible first
     | apply Evolves.rfl | assumption | (apply lor_of_beq; focus decide)
     | apply Evolves.next | apply pairReceive_evolves | apply Evolves.ite | apply Evolves.foldl
  | intro _ | split | dsimp only

theorem keepOwn_evolves (s : State) (x1) (hm : 16384 ||| m = m) (h : Evolves m u s) :
    Evolves m u (keepOwn s x1) := by
  refine Evolves.step (k := 16384) ?_ hm h; clear h hm; unfold keepOwn
  repeat' first
  | with_reducible first
     | apply Evolves.rfl | assumption | (apply lor_of_beq; focus decide)
     | fail_if_no_progress (apply Evolves.upd_16384; focus decide) | apply Evolves.ite | apply Evolves.foldl
  | intro _ | split | dsimp only

theorem forgetSession_evolves (s : State) (x1) (hm : 4096 ||| m = m) (h : Evolves m u s) :
    Evolves m u (forgetSession s x1) := by
  refine Evolves.step (k := 4096) ?_ hm h; clear h hm; unfold forgetSession
  repeat' first
  | with_reducible first
     | apply Evolves.rfl | assumption | (apply lor_of_beq; focus decide)
     | fail_if_no_progress (apply Evolves.upd_4096; focus decide) | apply Evolves.ite | apply Evolves.foldl
  | intro _ | split | dsimp only

theorem shareSession_evolves (s : State) (x1) (hm : 8421440 ||| m = m) (h : Evolves m u s) :
    Evolves m u (shareSession s x1) := by
  refine Evolves.step (k := 8421440) ?_ hm h; clear h hm; unfold shareSession
  repeat' first
  | with_reducible first
     | apply Evolves.rfl | assumption | (apply lor_of_beq; focus decide)
     | apply pairSendSeq_evolves | apply Evolves.ite | apply Evolves.foldl
  | intro _ | split | dsimp only

theorem putSession_evolves (s : State) (x1) (x2) (hm : 8425536 ||| m = m) (h : Evolves m u s) :
    Evolves m u (putSession s x1 x2) := by
  refine Evolves.step (k := 8425536) ?_ hm h; clear h hm; unfold putSession
  repeat' first
  | with_reducible first
     | apply Evolves.rfl | assumption | (apply lor_of_beq; focus decide)
     | apply setSession_evolves | apply shareSession_evolves | apply Evolves.ite | apply Evolves.foldl
  | intro _ | split | dsimp only

theorem discardSession_evolves (s : State) (x1) (hm : 11728193 ||| m = m) (h : Evolves m u s) :
    Evolves m u (discardSession s x1) := by
  refine Evolves.step (k := 11728193) ?_ hm h; clear h hm; unfold discardSession
  repeat' first
  | with_reducible first
     | apply Evolves.rfl | assumption | (apply lor_of_beq; focus decide)
     | apply forgetSession_evolves | apply putSession_evolves | apply fault_evolves | apply Evolves.ite
     | apply Evolves.foldl
  | intro _ | split | dsimp only

theorem recoverByPartner_evolves (s : State) (x1) (hm : 11728193 ||| m = m) (h : Evolves m u s) :
    Evolves m u (recoverByPartner s x1) := by
  refine Evolves.step (k := 11728193) ?_ hm h; clear h hm; unfold recoverByPartner
  repeat' first
  | with_reducible first
     | apply Evolves.rfl | assumption | (apply lor_of_beq; focus decide)
     | apply recoveryEnd_evolves | apply askPartner_evolves | apply Evolves.ite | apply Evolves.foldl
  | intro _ | split | dsimp only

theorem capture_evolves (s : State) (x1) (x2) (x3) (hm : 16 ||| m = m) (h : Evolves m u s) :
    Evolves m u (capture s x1 x2 x3) := by
  refine Evolves.step (k := 16) ?_ hm h; clear h hm; unfold capture
  repeat' first
  | with_reducible first
     | apply Evolves.rfl | assumption | (apply lor_of_beq; focus decide)
     | fail_if_no_progress (apply Evolves.upd_16; focus decide) | apply Evolves.ite | apply Evolves.foldl
  | intro _ | split | dsimp only

theorem captureSet_evolves (s : State) (x1) (x2) (x3) (hm : 16 ||| m = m) (h : Evolves m u s) :
    Evolves m u (captureSet s x1 x2 x3) := by
  refine Evolves.step (k := 16) ?_ hm h; clear h hm; unfold captureSet
  repeat' first
  | with_reducible first
     | apply Evolves.rfl | assumption | (apply lor_of_beq; focus decide)
     | apply capture_evolves | apply Evolves.ite | apply Evolves.foldl
  | intro _ | split | dsimp only

theorem setLatch_evolves (s : State) (x1) (x2) (hm : 8 ||| m = m) (h : Evolves m u s) :
    Evolves m u (setLatch s x1 x2) := by
  refine Evolves.step (k := 8) ?_ hm h; clear h hm; unfold setLatch
  repeat' first
  | with_reducible first
     | apply Evolves.rfl | assumption | (apply lor_of_beq; focus decide)
     | fail_if_no_progress (apply Evolves.upd_8; focus decide) | apply Evolves.ite | apply Evolves.foldl
  | intro _ | split | dsimp only

theorem loopTableRead_evolves (s : State) (hm : 1 ||| m = m) (h : Evolves m u s) :
    Evolves m u (loopTableRead s).2 := by
  refine Evolves.step (k := 1) ?_ hm h; clear h hm; unfold loopTableRead
  repeat' first
  | with_reducible first
     | apply Evolves.rfl | assumption | (apply lor_of_beq; focus decide)
     | apply loopAdvance_evolves | apply Evolves.ite | apply Evolves.foldl
  | intro _ | split | dsimp only

theorem ispTableRead_evolves (s : State) (hm : 1 ||| m = m) (h : Evolves m u s) :
    Evolves m u (ispTableRead s).2 := by
  refine Evolves.step (k := 1) ?_ hm h; clear h hm; unfold ispTableRead
  repeat' first
  | with_reducible first
     | apply Evolves.rfl | assumption | (apply lor_of_beq; focus decide)
     | apply ispAdvance_evolves | apply Evolves.ite | apply Evolves.foldl
  | intro _ | split | dsimp only

theorem claimRead_evolves (s : State) (x1) (x2) (hm : 8523840 ||| m = m) (h : Evolves m u s) :
    Evolves m u (claimRead s x1 x2).2 := by
  refine Evolves.step (k := 8523840) ?_ hm h; clear h hm; unfold claimRead
  repeat' first
  | with_reducible first
     | apply Evolves.rfl | assumption | (apply lor_of_beq; focus decide)
     | apply presentAgain_evolves | apply count_evolves | apply setEvc_evolves | apply hostPin_evolves
     | apply Evolves.ite | apply Evolves.foldl
  | intro _ | split | dsimp only

theorem blockRead_evolves (s : State) (x1) (x2) (x3) (x4) (hm : 12718169 ||| m = m) (h : Evolves m u s) :
    Evolves m u (blockRead s x1 x2 x3 x4).2 := by
  refine Evolves.step (k := 12718169) ?_ hm h; clear h hm; unfold blockRead
  repeat' first
  | with_reducible first
     | apply Evolves.rfl | assumption | (apply lor_of_beq; focus decide)
     | apply drawFree_evolves | apply captureSet_evolves | apply wr_evolves | apply setLatch_evolves
     | apply loopTableRead_evolves | apply ispTableRead_evolves | apply claimRead_evolves | apply Evolves.ite
     | apply Evolves.foldl
  | intro _ | split | dsimp only

theorem copyLog_evolves (s : State) (hm : 1048576 ||| m = m) (h : Evolves m u s) :
    Evolves m u (copyLog s) := by
  refine Evolves.step (k := 1048576) ?_ hm h; clear h hm; unfold copyLog
  repeat' first
  | with_reducible first
     | apply Evolves.rfl | assumption | (apply lor_of_beq; focus decide)
     | fail_if_no_progress (apply Evolves.upd_1048576; focus decide) | apply Evolves.ite | apply Evolves.foldl
  | intro _ | split | dsimp only

theorem testArmed_evolves (s : State) (x1) (hm : 8523841 ||| m = m) (h : Evolves m u s) :
    Evolves m u (testArmed s x1) := by
  refine Evolves.step (k := 8523841) ?_ hm h; clear h hm; unfold testArmed
  repeat' first
  | with_reducible first
     | apply Evolves.rfl | assumption | (apply lor_of_beq; focus decide)
     | apply refuseLate_evolves | apply Evolves.ite | apply Evolves.foldl
  | intro _ | split | dsimp only

theorem beginPass_evolves (s : State) (x1) (x2) (x3) (hm : 8533057 ||| m = m) (h : Evolves m u s) :
    Evolves m u (beginPass s x1 x2 x3) := by
  refine Evolves.step (k := 8533057) ?_ hm h; clear h hm; unfold beginPass
  repeat' first
  | with_reducible first
     | apply Evolves.rfl | assumption | (apply lor_of_beq; focus decide)
     | apply placePass_evolves | apply testArmed_evolves | apply Evolves.ite | apply Evolves.foldl
  | intro _ | split | dsimp only

theorem startJob_evolves (s : State) (x1) (x2) (x3) (hm : 11795777 ||| m = m) (h : Evolves m u s) :
    Evolves m u (startJob s x1 x2 x3) := by
  refine Evolves.step (k := 11795777) ?_ hm h; clear h hm; unfold startJob
  repeat' first
  | with_reducible first
     | apply Evolves.rfl | assumption | (apply lor_of_beq; focus decide)
     | apply finish_evolves | apply jobBegun_evolves | apply beginPass_evolves | apply Evolves.ite
     | apply Evolves.foldl
  | intro _ | split | dsimp only

theorem resetLow_evolves (s : State) (x1) (hm : 512 ||| m = m) (h : Evolves m u s) :
    Evolves m u (resetLow s x1) := by
  refine Evolves.step (k := 512) ?_ hm h; clear h hm; unfold resetLow
  repeat' first
  | with_reducible first
     | apply Evolves.rfl | assumption | (apply lor_of_beq; focus decide)
     | apply setChan_evolves | apply Evolves.ite | apply Evolves.foldl
  | intro _ | split | dsimp only

theorem applyStart_evolves (s : State) (x1) (hm : 11796289 ||| m = m) (h : Evolves m u s) :
    Evolves m u (applyStart s x1) := by
  refine Evolves.step (k := 11796289) ?_ hm h; clear h hm; unfold applyStart
  repeat' first
  | with_reducible first
     | apply Evolves.rfl | assumption | (apply lor_of_beq; focus decide)
     | apply startJob_evolves | apply resetLow_evolves | apply finishStatus_evolves | apply Evolves.ite
     | apply Evolves.foldl
  | intro _ | split | dsimp only

theorem execLoopEnable_evolves (x0) (x1) (s2 : State) (hm : 12318529 ||| m = m) (h : Evolves m u s2) :
    Evolves m u (taken s2 (execLoopEnable x0 x1 s2)) := by
  refine Evolves.step (k := 12318529) ?_ hm h; clear h hm; unfold execLoopEnable
  repeat' first
  | with_reducible first
     | apply Evolves.rfl | assumption | (apply lor_of_beq; focus decide)
     | apply Evolves.next | apply loopCtrl_evolves | apply Evolves.ite | apply Evolves.foldl
  | intro _ | split | dsimp only

theorem execHealth_evolves (x0) (s1 : State) (hm : 15990599 ||| m = m) (h : Evolves m u s1) :
    Evolves m u (taken s1 (execHealth x0 s1)) := by
  refine Evolves.step (k := 15990599) ?_ hm h; clear h hm; unfold execHealth
  repeat' first
  | with_reducible first
     | apply Evolves.rfl | assumption | (apply lor_of_beq; focus decide)
     | apply Evolves.next | apply pairReceive_evolves | apply Evolves.ite | apply Evolves.foldl
  | intro _ | split | dsimp only

theorem counterRead_evolves (s : State) (x1) (x2) (x3) (x4) (x5) (hm : 8 ||| m = m) (h : Evolves m u s) :
    Evolves m u (counterRead s x1 x2 x3 x4 x5).2 := by
  refine Evolves.step (k := 8) ?_ hm h; clear h hm; unfold counterRead
  repeat' first
  | with_reducible first
     | apply Evolves.rfl | assumption | (apply lor_of_beq; focus decide)
     | apply setLatch_evolves | apply Evolves.ite | apply Evolves.foldl
  | intro _ | split | dsimp only

theorem headerRead_evolves (s : State) (x1) (x2) (hm : 0 ||| m = m) (h : Evolves m u s) :
    Evolves m u (headerRead s x1 x2).2 := by
  refine Evolves.step (k := 0) ?_ hm h; clear h hm; unfold headerRead
  repeat' first
  | with_reducible first
     | apply Evolves.rfl | assumption | (apply lor_of_beq; focus decide)
     | apply Evolves.ite | apply Evolves.foldl
  | intro _ | split | dsimp only

theorem readReg_evolves (s : State) (x1) (x2) (hm : 12718169 ||| m = m) (h : Evolves m u s) :
    Evolves m u (readReg s x1 x2).2 := by
  refine Evolves.step (k := 12718169) ?_ hm h; clear h hm; unfold readReg
  repeat' first
  | with_reducible first
     | apply Evolves.rfl | assumption | (apply lor_of_beq; focus decide)
     | apply blockRead_evolves | apply counterRead_evolves | apply headerRead_evolves | apply Evolves.ite
     | apply Evolves.foldl
  | intro _ | split | dsimp only

theorem readWords_evolves (x0) (x1) (x2) (s3 : State) (hm : 12718169 ||| m = m) (h : Evolves m u s3) :
    Evolves m u (readWords x0 x1 x2 s3).2 := by
  induction x1 generalizing x2 s3 with
  | zero => exact h
  | succ n ih => exact ih _ _ (readReg_evolves _ _ _ (lor_sub (by decide) hm) h)

theorem setProgress_evolves (s : State) (x1) (x2) (x3) (hm : 4096 ||| m = m) (h : Evolves m u s) :
    Evolves m u (setProgress s x1 x2 x3) := by
  refine Evolves.step (k := 4096) ?_ hm h; clear h hm; unfold setProgress
  repeat' first
  | with_reducible first
     | apply Evolves.rfl | assumption | (apply lor_of_beq; focus decide)
     | apply setEntry_evolves | apply Evolves.ite | apply Evolves.foldl
  | intro _ | split | dsimp only

theorem writePairs_evolves (x0) (x1) (x2) (s3 : State) (hm : 16777183 ||| m = m) (h : Evolves m u s3) :
    Evolves m u (writePairs x0 x1 x2 s3).1 := by
  induction x1 generalizing x2 s3 with
  | nil => exact h
  | cons a r ih =>
    obtain ⟨a, v⟩ := a
    simp only [writePairs]
    split
    · exact writeReg_evolves _ _ _ _ (lor_sub (by decide) hm) h
    · exact ih _ _ (writeReg_evolves _ _ _ _ (lor_sub (by decide) hm) h)

theorem runWrites_evolves (s : State) (x1) (x2) (x3) (x4) (x5) (hm : 16777183 ||| m = m) (h : Evolves m u s) :
    Evolves m u (runWrites s x1 x2 x3 x4 x5) := by
  refine Evolves.step (k := 16777183) ?_ hm h; clear h hm; unfold runWrites
  repeat' first
  | with_reducible first
     | apply Evolves.rfl | assumption | (apply lor_of_beq; focus decide)
     | apply setProgress_evolves | apply finish_evolves | apply writePairs_evolves | apply Evolves.ite
     | apply Evolves.foldl
  | intro _ | split | dsimp only

theorem withData_evolves (s : State) (x1) (x2) (x3) (f4) (hf : ∀ x, Evolves m x (f4 x)) (hm : 8392704 ||| m = m) (h : Evolves m u s) :
    Evolves m u (withData s x1 x2 x3 f4) := by
  refine h.trans ?_; clear h; unfold withData
  repeat' first
  | with_reducible first
     | apply Evolves.rfl | assumption | (apply lor_of_beq; focus decide)
     | exact lor_sub (by decide) hm | apply Evolves.trans _ (hf _) | apply finishStatus_evolves | apply Evolves.ite
     | apply Evolves.foldl
  | intro _ | split | dsimp only

theorem regWriteRun_evolves (s : State) (x1) (x2) (hm : 16777183 ||| m = m) (h : Evolves m u s) :
    Evolves m u (regWriteRun s x1 x2) := by
  refine Evolves.step (k := 16777183) ?_ hm h; clear h hm; unfold regWriteRun
  repeat' first
  | with_reducible first
     | apply Evolves.rfl | assumption | (apply lor_of_beq; focus decide)
     | apply setEntry_evolves | apply runWrites_evolves | apply withData_evolves | apply finishStatus_evolves
     | apply Evolves.ite | apply Evolves.foldl
  | intro _ | split | dsimp only

theorem quiet_evolves (s : State) (hm : 1 ||| m = m) (h : Evolves m u s) :
    Evolves m u (quiet s) := by
  refine Evolves.step (k := 1) ?_ hm h; clear h hm; unfold quiet
  repeat' first
  | with_reducible first
     | apply Evolves.rfl | assumption | (apply lor_of_beq; focus decide)
     | fail_if_no_progress (apply Evolves.upd_1; focus decide) | apply Evolves.ite | apply Evolves.foldl
  | intro _ | split | dsimp only

theorem pmbOk_evolves (s : State) (hm : 262145 ||| m = m) (h : Evolves m u s) :
    Evolves m u (pmbOk s) := by
  refine Evolves.step (k := 262145) ?_ hm h; clear h hm; unfold pmbOk
  repeat' first
  | with_reducible first
     | apply Evolves.rfl | assumption | (apply lor_of_beq; focus decide)
     | apply setPower_evolves | apply wrf_evolves | apply Evolves.ite | apply Evolves.foldl
  | intro _ | split | dsimp only

theorem execSafeOutput_evolves (s : State) (hm : 8429632 ||| m = m) (h : Evolves m u s) :
    Evolves m u (taken s (execSafeOutput s)) := by
  refine Evolves.step (k := 8429632) ?_ hm h; clear h hm; unfold execSafeOutput
  repeat' first
  | with_reducible first
     | apply Evolves.rfl | assumption | (apply lor_of_beq; focus decide)
     | apply Evolves.next | apply setPair_evolves | apply slowSync_evolves | apply Evolves.ite | apply Evolves.foldl
  | intro _ | split | dsimp only

theorem homeLatch_evolves (s : State) (x1) (x2) (hm : 8622145 ||| m = m) (h : Evolves m u s) :
    Evolves m u (homeLatch s x1 x2) := by
  refine Evolves.step (k := 8622145) ?_ hm h; clear h hm; unfold homeLatch
  repeat' first
  | with_reducible first
     | apply Evolves.rfl | assumption | (apply lor_of_beq; focus decide)
     | apply planEnd_evolves | apply setAxis_evolves | apply forwardShift_evolves | apply Evolves.ite
     | apply Evolves.foldl
  | intro _ | split | dsimp only

theorem execHomeInput_evolves (x0) (x1) (x2) (s3 : State) (hm : 8622145 ||| m = m) (h : Evolves m u s3) :
    Evolves m u (taken s3 (execHomeInput x0 x1 x2 s3)) := by
  refine Evolves.step (k := 8622145) ?_ hm h; clear h hm; unfold execHomeInput
  repeat' first
  | with_reducible first
     | apply Evolves.rfl | assumption | (apply lor_of_beq; focus decide)
     | apply Evolves.next | apply homeLatch_evolves | apply backOffSteps_evolves | apply approach_evolves
     | apply setAxis_evolves | apply Evolves.ite | apply Evolves.foldl
  | intro _ | split | dsimp only

theorem answerAgain_evolves (s : State) (x1) (x2) (hm : 8392768 ||| m = m) (h : Evolves m u s) :
    Evolves m u (answerAgain s x1 x2) := by
  refine Evolves.step (k := 8392768) ?_ hm h; clear h hm; unfold answerAgain
  repeat' first
  | with_reducible first
     | apply Evolves.rfl | assumption | (apply lor_of_beq; focus decide)
     | apply sendComplete_evolves | apply setEntry_evolves | apply deliver_evolves | apply count_evolves
     | fail_if_no_progress (apply Evolves.upd_4096; focus decide) | apply Evolves.ite | apply Evolves.foldl
  | intro _ | split | dsimp only

theorem afterWake_evolves (s : State) (x1) (hm : 8396864 ||| m = m) (h : Evolves m u s) :
    Evolves m u (afterWake s x1) := by
  refine Evolves.step (k := 8396864) ?_ hm h; clear h hm; unfold afterWake
  repeat' first
  | with_reducible first
     | apply Evolves.rfl | assumption | (apply lor_of_beq; focus decide)
     | apply askIdle_evolves | apply setLane_evolves | apply Evolves.ite | apply Evolves.foldl
  | intro _ | split | dsimp only

theorem endStarts_evolves (s : State) (x1) (hm : 1024 ||| m = m) (h : Evolves m u s) :
    Evolves m u (endStarts s x1) := by
  refine Evolves.step (k := 1024) ?_ hm h; clear h hm; unfold endStarts
  repeat' first
  | with_reducible first
     | apply Evolves.rfl | assumption | (apply lor_of_beq; focus decide)
     | apply setBar_evolves | apply Evolves.ite | apply Evolves.foldl
  | intro _ | split | dsimp only

theorem startFetch_evolves (s : State) (x1) (x2) (x3) (x4) (hm : 3137 ||| m = m) (h : Evolves m u s) :
    Evolves m u (startFetch s x1 x2 x3 x4) := by
  refine Evolves.step (k := 3137) ?_ hm h; clear h hm; unfold startFetch
  repeat' first
  | with_reducible first
     | apply Evolves.rfl | assumption | (apply lor_of_beq; focus decide)
     | apply setWin_evolves | apply count_evolves | apply setBar_evolves | apply demand_evolves | apply Evolves.ite
     | apply Evolves.foldl
  | intro _ | split | dsimp only

theorem needTile_evolves (s : State) (x1) (x2) (x3) (hm : 3137 ||| m = m) (h : Evolves m u s) :
    Evolves m u (needTile s x1 x2 x3) := by
  refine Evolves.step (k := 3137) ?_ hm h; clear h hm; unfold needTile
  repeat' first
  | with_reducible first
     | apply Evolves.rfl | assumption | (apply lor_of_beq; focus decide)
     | apply setBar_evolves | apply startFetch_evolves | apply setWin_evolves | apply Evolves.ite
     | apply Evolves.foldl
  | intro _ | split | dsimp only

theorem openFetches_evolves (s : State) (x1) (hm : 3137 ||| m = m) (h : Evolves m u s) :
    Evolves m u (openFetches s x1) := by
  refine Evolves.step (k := 3137) ?_ hm h; clear h hm; unfold openFetches
  repeat' first
  | with_reducible first
     | apply Evolves.rfl | assumption | (apply lor_of_beq; focus decide)
     | apply needTile_evolves | apply Evolves.ite | apply Evolves.foldl
  | intro _ | split | dsimp only

theorem recordLate_evolves (s : State) (x1) (x2) (x3) (hm : 11728193 ||| m = m) (h : Evolves m u s) :
    Evolves m u (recordLate s x1 x2 x3) := by
  refine Evolves.step (k := 11728193) ?_ hm h; clear h hm; unfold recordLate
  repeat' first
  | with_reducible first
     | apply Evolves.rfl | assumption | (apply lor_of_beq; focus decide)
     | apply setTile_evolves | apply tileFault_evolves | apply Evolves.ite | apply Evolves.foldl
  | intro _ | split | dsimp only

theorem compose_evolves (s : State) (x1) (hm : 526336 ||| m = m) (h : Evolves m u s) :
    Evolves m u (compose s x1) := by
  refine Evolves.step (k := 526336) ?_ hm h; clear h hm; unfold compose
  repeat' first
  | with_reducible first
     | apply Evolves.rfl | assumption | (apply lor_of_beq; focus decide)
     | apply writeMem_evolves | apply demand_evolves | fail_if_no_progress (apply Evolves.upd_524288; focus decide)
     | apply Evolves.ite | apply Evolves.foldl
  | intro _ | split | dsimp only

theorem sampleLine_evolves (s : State) (x1) (x2) (hm : 526400 ||| m = m) (h : Evolves m u s) :
    Evolves m u (sampleLine s x1 x2) := by
  refine Evolves.step (k := 526400) ?_ hm h; clear h hm; unfold sampleLine
  repeat' first
  | with_reducible first
     | apply Evolves.rfl | assumption | (apply lor_of_beq; focus decide)
     | apply writeMem_evolves | apply demand_evolves | apply compose_evolves | apply count_evolves
     | fail_if_no_progress (apply Evolves.upd_524288; focus decide) | apply Evolves.ite | apply Evolves.foldl
  | intro _ | split | dsimp only

theorem overspeed_evolves (s : State) (x1) (hm : 8533057 ||| m = m) (h : Evolves m u s) :
    Evolves m u (overspeed s x1) := by
  refine Evolves.step (k := 8533057) ?_ hm h; clear h hm; unfold overspeed
  repeat' first
  | with_reducible first
     | apply Evolves.rfl | assumption | (apply lor_of_beq; focus decide)
     | apply slowSync_evolves | apply ev_evolves | apply count_evolves | apply wr_evolves | apply setBar_evolves
     | apply Evolves.ite | apply Evolves.foldl
  | intro _ | split | dsimp only

theorem quietLanes_evolves (s : State) (x1) (hm : 8192 ||| m = m) (h : Evolves m u s) :
    Evolves m u (quietLanes s x1) := by
  refine Evolves.step (k := 8192) ?_ hm h; clear h hm; unfold quietLanes
  repeat' first
  | with_reducible first
     | apply Evolves.rfl | assumption | (apply lor_of_beq; focus decide)
     | apply setLane_evolves | apply Evolves.ite | apply Evolves.foldl
  | intro _ | split | dsimp only

theorem referenceStart_evolves (s : State) (x1) (x2) (x3) (hm : 9059393 ||| m = m) (h : Evolves m u s) :
    Evolves m u (referenceStart s x1 x2 x3) := by
  refine Evolves.step (k := 9059393) ?_ hm h; clear h hm; unfold referenceStart
  repeat' first
  | with_reducible first
     | apply Evolves.rfl | assumption | (apply lor_of_beq; focus decide)
     | apply sampleLine_evolves | apply wr_evolves | apply setBar_evolves | apply count_evolves
     | apply overspeed_evolves | apply quietLanes_evolves | apply Evolves.ite | apply Evolves.foldl
  | intro _ | split | dsimp only

theorem startRowLine_evolves (s : State) (x1) (x2) (hm : 12320065 ||| m = m) (h : Evolves m u s) :
    Evolves m u (startRowLine s x1 x2) := by
  refine Evolves.step (k := 12320065) ?_ hm h; clear h hm; unfold startRowLine
  repeat' first
  | with_reducible first
     | apply Evolves.rfl | assumption | (apply lor_of_beq; focus decide)
     | apply newBuildLine_evolves | apply openFetches_evolves | apply recordLate_evolves
     | apply referenceStart_evolves | apply setBar_evolves | apply Evolves.ite | apply Evolves.foldl
  | intro _ | split | dsimp only

theorem lineStart_evolves (s : State) (x1) (x2) (hm : 12320065 ||| m = m) (h : Evolves m u s) :
    Evolves m u (lineStart s x1 x2) := by
  refine Evolves.step (k := 12320065) ?_ hm h; clear h hm; unfold lineStart
  repeat' first
  | with_reducible first
     | apply Evolves.rfl | assumption | (apply lor_of_beq; focus decide)
     | apply startRowLine_evolves | apply Evolves.ite | apply Evolves.foldl
  | intro _ | split | dsimp only

theorem lineStarts_evolves (s : State) (x1) (hm : 12320065 ||| m = m) (h : Evolves m u s) :
    Evolves m u (lineStarts s x1) := by
  refine Evolves.step (k := 12320065) ?_ hm h; clear h hm; unfold lineStarts
  repeat' first
  | with_reducible first
     | apply Evolves.rfl | assumption | (apply lor_of_beq; focus decide)
     | apply endStarts_evolves | apply markMiss_evolves | apply lineStart_evolves | apply Evolves.ite
     | apply Evolves.foldl
  | intro _ | split | dsimp only

theorem closeFrame_evolves (s : State) (x1) (x2) (hm : 8540225 ||| m = m) (h : Evolves m u s) :
    Evolves m u (closeFrame s x1 x2) := by
  refine Evolves.step (k := 8540225) ?_ hm h; clear h hm; unfold closeFrame
  repeat' first
  | with_reducible first
     | apply Evolves.rfl | assumption | (apply lor_of_beq; focus decide)
     | apply count_evolves | apply ev_evolves | apply wrf_evolves | apply setCtx_evolves | apply setSlot_evolves
     | apply Evolves.ite | apply Evolves.foldl
  | intro _ | split | dsimp only

theorem execFrameEnd_evolves (x0) (x1) (s2 : State) (hm : 8540225 ||| m = m) (h : Evolves m u s2) :
    Evolves m u (taken s2 (execFrameEnd x0 x1 s2)) := by
  refine Evolves.step (k := 8540225) ?_ hm h; clear h hm; unfold execFrameEnd
  repeat' first
  | with_reducible first
     | apply Evolves.rfl | assumption | (apply lor_of_beq; focus decide)
     | apply Evolves.next | apply closeFrame_evolves | apply count_evolves | apply Evolves.ite | apply Evolves.foldl
  | intro _ | split | dsimp only

theorem execJournalReplay_evolves (s : State) (hm : 8392769 ||| m = m) (h : Evolves m u s) :
    Evolves m u (taken s (execJournalReplay s)) := by
  refine Evolves.step (k := 8392769) ?_ hm h; clear h hm; unfold execJournalReplay
  repeat' first
  | with_reducible first
     | apply Evolves.rfl | assumption | (apply lor_of_beq; focus decide)
     | apply Evolves.next | apply setEntry_evolves | apply deliver_evolves | apply count_evolves | apply wrf_evolves
     | apply Evolves.ite | apply Evolves.foldl
  | intro _ | split | dsimp only

theorem applySwitch_evolves (s : State) (hm : 11793729 ||| m = m) (h : Evolves m u s) :
    Evolves m u (applySwitch s) := by
  refine Evolves.step (k := 11793729) ?_ hm h; clear h hm; unfold applySwitch
  repeat' first
  | with_reducible first
     | apply Evolves.rfl | assumption | (apply lor_of_beq; focus decide)
     | apply setRole_evolves | apply slowSync_evolves | apply resumeAxes_evolves | apply clearRuns_evolves
     | apply ev_evolves | apply count_evolves | apply wr_evolves | apply pairRecord_evolves | apply setPair_evolves
     | fail_if_no_progress (apply Evolves.upd_4096; focus decide) | apply Evolves.ite | apply Evolves.foldl
  | intro _ | split | dsimp only

theorem backToActive_evolves (s : State) (x1) (hm : 11728193 ||| m = m) (h : Evolves m u s) :
    Evolves m u (backToActive s x1) := by
  refine Evolves.step (k := 11728193) ?_ hm h; clear h hm; unfold backToActive
  repeat' first
  | with_reducible first
     | apply Evolves.rfl | assumption | (apply lor_of_beq; focus decide)
     | apply enterMismatch_evolves | apply flnSend_evolves | apply setLane_evolves | apply Evolves.ite
     | apply Evolves.foldl
  | intro _ | split | dsimp only

theorem execSharedStepPulse_evolves (x0) (x1) (s2 : State) (hm : 65536 ||| m = m) (h : Evolves m u s2) :
    Evolves m u (taken s2 (execSharedStepPulse x0 x1 s2)) := by
  refine Evolves.step (k := 65536) ?_ hm h; clear h hm; unfold execSharedStepPulse
  repeat' first
  | with_reducible first
     | apply Evolves.rfl | assumption | (apply lor_of_beq; focus decide)
     | apply Evolves.next | apply setAxis_evolves | apply Evolves.ite | apply Evolves.foldl
  | intro _ | split | dsimp only

theorem applyCheck_evolves (s : State) (x1) (x2) (hm : 32768 ||| m = m) (h : Evolves m u s) :
    Evolves m u (applyCheck s x1 x2) := by
  refine Evolves.step (k := 32768) ?_ hm h; clear h hm; unfold applyCheck
  repeat' first
  | with_reducible first
     | apply Evolves.rfl | assumption | (apply lor_of_beq; focus decide)
     | apply setPair_evolves | apply Evolves.ite | apply Evolves.foldl
  | intro _ | split | dsimp only

theorem swapPass_evolves (s : State) (x1) (hm : 1024 ||| m = m) (h : Evolves m u s) :
    Evolves m u (swapPass s x1) := by
  refine Evolves.step (k := 1024) ?_ hm h; clear h hm; unfold swapPass
  repeat' first
  | with_reducible first
     | apply Evolves.rfl | assumption | (apply lor_of_beq; focus decide)
     | apply setBar_evolves | fail_if_no_progress (apply Evolves.upd_1024; focus decide) | apply Evolves.ite
     | apply Evolves.foldl
  | intro _ | split | dsimp only

theorem trimLimit_evolves (s : State) (x1) (x2) (hm : 11728193 ||| m = m) (h : Evolves m u s) :
    Evolves m u (trimLimit s x1 x2) := by
  refine Evolves.step (k := 11728193) ?_ hm h; clear h hm; unfold trimLimit
  repeat' first
  | with_reducible first
     | apply Evolves.rfl | assumption | (apply lor_of_beq; focus decide)
     | apply count_evolves | apply ev_evolves | apply fault_evolves
     | fail_if_no_progress (apply Evolves.upd_16384; focus decide) | apply Evolves.ite | apply Evolves.foldl
  | intro _ | split | dsimp only

theorem helloGranted_evolves (s : State) (x1) (hm : 8388608 ||| m = m) (h : Evolves m u s) :
    Evolves m u (helloGranted s x1) := by
  refine Evolves.step (k := 8388608) ?_ hm h; clear h hm; unfold helloGranted
  repeat' first
  | with_reducible first
     | apply Evolves.rfl | assumption | (apply lor_of_beq; focus decide)
     | apply sendMsg_evolves | apply Evolves.ite | apply Evolves.foldl
  | intro _ | split | dsimp only

theorem helloRefused_evolves (s : State) (x1) (x2) (x3) (hm : 8388608 ||| m = m) (h : Evolves m u s) :
    Evolves m u (helloRefused s x1 x2 x3) := by
  refine Evolves.step (k := 8388608) ?_ hm h; clear h hm; unfold helloRefused
  repeat' first
  | with_reducible first
     | apply Evolves.rfl | assumption | (apply lor_of_beq; focus decide)
     | apply send_evolves | apply Evolves.ite | apply Evolves.foldl
  | intro _ | split | dsimp only

theorem hello_evolves (s : State) (x1) (hm : 8425536 ||| m = m) (h : Evolves m u s) :
    Evolves m u (hello s x1) := by
  refine Evolves.step (k := 8425536) ?_ hm h; clear h hm; unfold hello
  repeat' first
  | with_reducible first
     | apply Evolves.rfl | assumption | (apply lor_of_beq; focus decide)
     | apply replaySession_evolves | apply putSession_evolves | apply helloGranted_evolves
     | apply forgetSession_evolves | apply helloRefused_evolves
     | fail_if_no_progress (apply Evolves.upd_4096; focus decide) | apply Evolves.ite | apply Evolves.foldl
  | intro _ | split | dsimp only

theorem calEnd_evolves (s : State) (x1) (hm : 65 ||| m = m) (h : Evolves m u s) :
    Evolves m u (calEnd s x1) := by
  refine Evolves.step (k := 65) ?_ hm h; clear h hm; unfold calEnd
  repeat' first
  | with_reducible first
     | apply Evolves.rfl | assumption | (apply lor_of_beq; focus decide)
     | apply count_evolves | apply setTrimBusy_evolves | apply Evolves.ite | apply Evolves.foldl
  | intro _ | split | dsimp only

theorem execLimitRelease_evolves (x0) (x1) (s2 : State) (hm : 65536 ||| m = m) (h : Evolves m u s2) :
    Evolves m u (taken s2 (execLimitRelease x0 x1 s2)) := by
  refine Evolves.step (k := 65536) ?_ hm h; clear h hm; unfold execLimitRelease
  repeat' first
  | with_reducible first
     | apply Evolves.rfl | assumption | (apply lor_of_beq; focus decide)
     | apply Evolves.next | apply backOffSteps_evolves | apply setAxis_evolves | apply Evolves.ite
     | apply Evolves.foldl
  | intro _ | split | dsimp only

theorem answerRead_evolves (s : State) (x1) (x2) (hm : 32 ||| m = m) (h : Evolves m u s) :
    Evolves m u (answerRead s x1 x2) := by
  refine Evolves.step (k := 32) ?_ hm h; clear h hm; unfold answerRead
  repeat' first
  | with_reducible first
     | apply Evolves.rfl | assumption | (apply lor_of_beq; focus decide)
     | fail_if_no_progress (apply Evolves.upd_32; focus decide) | apply Evolves.ite | apply Evolves.foldl
  | intro _ | split | dsimp only

theorem execClaim_evolves (x0) (x1) (s2 : State) (hm : 8523872 ||| m = m) (h : Evolves m u s2) :
    Evolves m u (taken s2 (execClaim x0 x1 s2)) := by
  refine Evolves.step (k := 8523872) ?_ hm h; clear h hm; unfold execClaim
  repeat' first
  | with_reducible first
     | apply Evolves.rfl | assumption | (apply lor_of_beq; focus decide)
     | apply Evolves.next | apply answerRead_evolves | apply claimRead_evolves | apply Evolves.ite
     | apply Evolves.foldl
  | intro _ | split | dsimp only

theorem ptTick_evolves (s : State) (hm : 256 ||| m = m) (h : Evolves m u s) :
    Evolves m u (ptTick s) := by
  refine Evolves.step (k := 256) ?_ hm h; clear h hm; unfold ptTick
  repeat' first
  | with_reducible first
     | apply Evolves.rfl | assumption | (apply lor_of_beq; focus decide)
     | apply setClk_evolves | apply Evolves.ite | apply Evolves.foldl
  | intro _ | split | dsimp only

theorem execBlockLockGained_evolves (x0) (s1 : State) (hm : 8396864 ||| m = m) (h : Evolves m u s1) :
    Evolves m u (taken s1 (execBlockLockGained x0 s1)) := by
  refine Evolves.step (k := 8396864) ?_ hm h; clear h hm; unfold execBlockLockGained
  repeat' first
  | with_reducible first
     | apply Evolves.rfl | assumption | (apply lor_of_beq; focus decide)
     | apply Evolves.next | apply sendSync_evolves | apply send_evolves | apply setLane_evolves | apply Evolves.ite
     | apply Evolves.foldl
  | intro _ | split | dsimp only

theorem onFrame_evolves (s : State) (x1) (x2) (x3) (f4) (hf : ∀ x y0, Evolves m x (f4 x y0)) (hm : 64 ||| m = m) (h : Evolves m u s) :
    Evolves m u (onFrame s x1 x2 x3 f4) := by
  refine h.trans ?_; clear h; unfold onFrame
  repeat' first
  | with_reducible first
     | apply Evolves.rfl | assumption | (apply lor_of_beq; focus decide)
     | exact lor_sub (by decide) hm | apply Evolves.trans _ (hf _ _) | apply count_evolves | apply Evolves.ite
     | apply Evolves.foldl
  | intro _ | split | dsimp only

theorem completeError_evolves (s : State) (x1) (x2) (x3) (x4) (x5) (hm : 8392704 ||| m = m) (h : Evolves m u s) :
    Evolves m u (completeError s x1 x2 x3 x4 x5) := by
  refine Evolves.step (k := 8392704) ?_ hm h; clear h hm; unfold completeError
  repeat' first
  | with_reducible first
     | apply Evolves.rfl | assumption | (apply lor_of_beq; focus decide)
     | apply sendComplete_evolves | fail_if_no_progress (apply Evolves.upd_4096; focus decide) | apply Evolves.ite
     | apply Evolves.foldl
  | intro _ | split | dsimp only

theorem switchMode_evolves (s : State) (hm : 12252481 ||| m = m) (h : Evolves m u s) :
    Evolves m u (switchMode s) := by
  refine Evolves.step (k := 12252481) ?_ hm h; clear h hm; unfold switchMode
  repeat' first
  | with_reducible first
     | apply Evolves.rfl | assumption | (apply lor_of_beq; focus decide)
     | apply trainAt_evolves | apply linkFail_evolves | apply setDisp_evolves | apply send_evolves | apply Evolves.ite
     | apply Evolves.foldl
  | intro _ | split | dsimp only

theorem copyShadows_evolves (s : State) (x1) (hm : 2 ||| m = m) (h : Evolves m u s) :
    Evolves m u (copyShadows s x1) := by
  refine Evolves.step (k := 2) ?_ hm h; clear h hm; unfold copyShadows
  repeat' first
  | with_reducible first
     | apply Evolves.rfl | assumption | (apply lor_of_beq; focus decide)
     | apply setCm_evolves | apply Evolves.ite | apply Evolves.foldl
  | intro _ | split | dsimp only

theorem commitDone_evolves (s : State) (x1) (hm : 8523841 ||| m = m) (h : Evolves m u s) :
    Evolves m u (commitDone s x1) := by
  refine Evolves.step (k := 8523841) ?_ hm h; clear h hm; unfold commitDone
  repeat' first
  | with_reducible first
     | apply Evolves.rfl | assumption | (apply lor_of_beq; focus decide)
     | apply wr_evolves | apply ev_evolves | apply Evolves.ite | apply Evolves.foldl
  | intro _ | split | dsimp only

theorem commitRefused_evolves (s : State) (x1) (hm : 8523841 ||| m = m) (h : Evolves m u s) :
    Evolves m u (commitRefused s x1) := by
  refine Evolves.step (k := 8523841) ?_ hm h; clear h hm; unfold commitRefused
  repeat' first
  | with_reducible first
     | apply Evolves.rfl | assumption | (apply lor_of_beq; focus decide)
     | apply wr_evolves | apply ev_evolves | apply Evolves.ite | apply Evolves.foldl
  | intro _ | split | dsimp only

theorem dispCommit_evolves (s : State) (hm : 12252483 ||| m = m) (h : Evolves m u s) :
    Evolves m u (dispCommit s) := by
  refine Evolves.step (k := 12252483) ?_ hm h; clear h hm; unfold dispCommit
  repeat' first
  | with_reducible first
     | apply Evolves.rfl | assumption | (apply lor_of_beq; focus decide)
     | apply switchMode_evolves | apply copyShadows_evolves | apply commitDone_evolves | apply wr_evolves
     | apply commitRefused_evolves | apply Evolves.ite | apply Evolves.foldl
  | intro _ | split | dsimp only

theorem regReadRun_evolves (s : State) (x1) (x2) (hm : 12718169 ||| m = m) (h : Evolves m u s) :
    Evolves m u (regReadRun s x1 x2) := by
  refine Evolves.step (k := 12718169) ?_ hm h; clear h hm; unfold regReadRun
  repeat' first
  | with_reducible first
     | apply Evolves.rfl | assumption | (apply lor_of_beq; focus decide)
     | apply setProgress_evolves | apply finish_evolves | apply readWords_evolves | apply finishStatus_evolves
     | apply Evolves.ite | apply Evolves.foldl
  | intro _ | split | dsimp only

theorem execRegRead_evolves (x0) (s1 : State) (hm : 12718169 ||| m = m) (h : Evolves m u s1) :
    Evolves m u (taken s1 (execRegRead x0 s1)) := by
  refine Evolves.step (k := 12718169) ?_ hm h; clear h hm; unfold execRegRead
  repeat' first
  | with_reducible first
     | apply Evolves.rfl | assumption | (apply lor_of_beq; focus decide)
     | apply Evolves.next | apply regReadRun_evolves | apply onEntry_evolves | apply Evolves.ite | apply Evolves.foldl
  | intro _ | split | dsimp only

theorem frozenChecked_evolves (s : State) (x1) (x2) (hm : 33792 ||| m = m) (h : Evolves m u s) :
    Evolves m u (frozenChecked s x1 x2) := by
  refine Evolves.step (k := 33792) ?_ hm h; clear h hm; unfold frozenChecked
  repeat' first
  | with_reducible first
     | apply Evolves.rfl | assumption | (apply lor_of_beq; focus decide)
     | apply setTile_evolves | apply markDirty_evolves | apply jobAlloc_evolves | apply Evolves.ite
     | apply Evolves.foldl
  | intro _ | split | dsimp only

theorem countColumn_evolves (s : State) (x1) (x2) (x3) (x4) (s5 : State) (x6) (hm : 8523841 ||| m = m) (h : Evolves m u s5) :
    Evolves m u (countColumn s x1 x2 x3 x4 s5 x6) := by
  refine Evolves.step (k := 8523841) ?_ hm h; clear h hm; unfold countColumn
  repeat' first
  | with_reducible first
     | apply Evolves.rfl | assumption | (apply lor_of_beq; focus decide)
     | apply count_evolves | apply ev_evolves | apply countN_evolves | apply Evolves.ite | apply Evolves.foldl
  | intro _ | split | dsimp only

theorem execSnapshotTrigger_evolves (x0) (x1) (s2 : State) (hm : 10653761 ||| m = m) (h : Evolves m u s2) :
    Evolves m u (taken s2 (execSnapshotTrigger x0 x1 s2)) := by
  refine Evolves.step (k := 10653761) ?_ hm h; clear h hm; unfold execSnapshotTrigger
  repeat' first
  | with_reducible first
     | apply Evolves.rfl | assumption | (apply lor_of_beq; focus decide)
     | apply Evolves.next | apply snapWrite_evolves | apply Evolves.ite | apply Evolves.foldl
  | intro _ | split | dsimp only

theorem armMarks_evolves (s : State) (x1) (x2) (hm : 8605761 ||| m = m) (h : Evolves m u s) :
    Evolves m u (armMarks s x1 x2) := by
  refine Evolves.step (k := 8605761) ?_ hm h; clear h hm; unfold armMarks
  repeat' first
  | with_reducible first
     | apply Evolves.rfl | assumption | (apply lor_of_beq; focus decide)
     | apply cmpArmDir_evolves | apply wrf_evolves | apply Evolves.ite | apply Evolves.foldl
  | intro _ | split | dsimp only

theorem takeMark_evolves (s : State) (x1) (x2) (x3) (hm : 11795777 ||| m = m) (h : Evolves m u s) :
    Evolves m u (takeMark s x1 x2 x3) := by
  refine Evolves.step (k := 11795777) ?_ hm h; clear h hm; unfold takeMark
  repeat' first
  | with_reducible first
     | apply Evolves.rfl | assumption | (apply lor_of_beq; focus decide)
     | apply testArmed_evolves | apply newBuildLine_evolves | apply armMarks_evolves | apply setBar_evolves
     | apply Evolves.ite | apply Evolves.foldl
  | intro _ | split | dsimp only

theorem acceptMark_evolves (s : State) (x1) (x2) (hm : 11795777 ||| m = m) (h : Evolves m u s) :
    Evolves m u (acceptMark s x1 x2) := by
  refine Evolves.step (k := 11795777) ?_ hm h; clear h hm; unfold acceptMark
  repeat' first
  | with_reducible first
     | apply Evolves.rfl | assumption | (apply lor_of_beq; focus decide)
     | apply marksDone_evolves | apply count_evolves | apply takeMark_evolves | apply Evolves.ite
     | apply Evolves.foldl
  | intro _ | split | dsimp only

theorem execMark_evolves (x0) (x1) (x2) (s3 : State) (hm : 11795777 ||| m = m) (h : Evolves m u s3) :
    Evolves m u (taken s3 (execMark x0 x1 x2 s3)) := by
  refine Evolves.step (k := 11795777) ?_ hm h; clear h hm; unfold execMark
  repeat' first
  | with_reducible first
     | apply Evolves.rfl | assumption | (apply lor_of_beq; focus decide)
     | apply Evolves.next | apply ev_evolves | apply acceptMark_evolves | apply count_evolves
     | apply pairSendSeq_evolves | apply disarmJob_evolves | apply finishStatus_evolves | apply Evolves.ite
     | apply Evolves.foldl
  | intro _ | split | dsimp only

theorem lockRuns_evolves (s : State) (x1) (hm : 8524097 ||| m = m) (h : Evolves m u s) :
    Evolves m u (lockRuns s x1) := by
  refine Evolves.step (k := 8524097) ?_ hm h; clear h hm; unfold lockRuns
  repeat' first
  | with_reducible first
     | apply Evolves.rfl | assumption | (apply lor_of_beq; focus decide)
     | apply ev_evolves | apply setClk_evolves | apply Evolves.ite | apply Evolves.foldl
  | intro _ | split | dsimp only

theorem servo_evolves (s : State) (x1) (x2) (hm : 15922497 ||| m = m) (h : Evolves m u s) :
    Evolves m u (servo s x1 x2) := by
  refine Evolves.step (k := 15922497) ?_ hm h; clear h hm; unfold servo
  repeat' first
  | with_reducible first
     | apply Evolves.rfl | assumption | (apply lor_of_beq; focus decide)
     | apply masterJump_evolves | apply stepBack_evolves | apply setClk_evolves | apply slew_evolves
     | apply lockRuns_evolves | apply Evolves.ite | apply Evolves.foldl
  | intro _ | split | dsimp only

theorem execSoloWait_evolves (s : State) (hm : 11728193 ||| m = m) (h : Evolves m u s) :
    Evolves m u (taken s (execSoloWait s)) := by
  refine Evolves.step (k := 11728193) ?_ hm h; clear h hm; unfold execSoloWait
  repeat' first
  | with_reducible first
     | apply Evolves.rfl | assumption | (apply lor_of_beq; focus decide)
     | apply Evolves.next | apply setRole_evolves | apply checkCamera_evolves | apply releaseHeld_evolves
     | apply pairRecord_evolves | apply setPair_evolves | apply clearRuns_evolves | apply Evolves.ite
     | apply Evolves.foldl
  | intro _ | split | dsimp only

theorem journalEntry_evolves (s : State) (x1) (x2) (x3) (x4) (x5) (x6) (hm : 8425536 ||| m = m) (h : Evolves m u s) :
    Evolves m u (journalEntry s x1 x2 x3 x4 x5 x6) := by
  refine Evolves.step (k := 8425536) ?_ hm h; clear h hm; unfold journalEntry
  repeat' first
  | with_reducible first
     | apply Evolves.rfl | assumption | (apply lor_of_beq; focus decide)
     | apply finishStatus_evolves | apply takeInput_evolves | apply setEntry_evolves | apply count_evolves
     | fail_if_no_progress (apply Evolves.upd_4096; focus decide) | apply Evolves.ite | apply Evolves.foldl
  | intro _ | split | dsimp only

theorem acceptCommand_evolves (s : State) (x1) (x2) (x3) (x4) (x5) (hm : 8425536 ||| m = m) (h : Evolves m u s) :
    Evolves m u (acceptCommand s x1 x2 x3 x4 x5).2 := by
  refine Evolves.step (k := 8425536) ?_ hm h; clear h hm; unfold acceptCommand
  repeat' first
  | with_reducible first
     | apply Evolves.rfl | assumption | (apply lor_of_beq; focus decide)
     | apply shareSession_evolves | apply journalEntry_evolves | apply completeError_evolves
     | apply setSession_evolves | apply Evolves.ite | apply Evolves.foldl
  | intro _ | split | dsimp only

theorem slotTick_evolves (s : State) (s1 : State) (hm : 64 ||| m = m) (h : Evolves m u s1) :
    Evolves m u (slotTick s s1) := by
  refine Evolves.step (k := 64) ?_ hm h; clear h hm; unfold slotTick
  repeat' first
  | with_reducible first
     | apply Evolves.rfl | assumption | (apply lor_of_beq; focus decide)
     | apply count_evolves | apply Evolves.ite | apply Evolves.foldl
  | intro _ | split | dsimp only

theorem tick_evolves (s : State) (hm : 320 ||| m = m) (h : Evolves m u s) :
    Evolves m u (tick s) := by
  refine Evolves.step (k := 320) ?_ hm h; clear h hm; unfold tick
  repeat' first
  | with_reducible first
     | apply Evolves.rfl | assumption | (apply lor_of_beq; focus decide)
     | apply ptTick_evolves | apply slotTick_evolves | apply Evolves.ite | apply Evolves.foldl
  | intro _ | split | dsimp only

theorem execHpdIrq_evolves (x0) (s1 : State) (hm : 9048129 ||| m = m) (h : Evolves m u s1) :
    Evolves m u (taken s1 (execHpdIrq x0 s1)) := by
  refine Evolves.step (k := 9048129) ?_ hm h; clear h hm; unfold execHpdIrq
  repeat' first
  | with_reducible first
     | apply Evolves.rfl | assumption | (apply lor_of_beq; focus decide)
     | apply Evolves.next | apply trainAt_evolves | apply ev_evolves | apply Evolves.ite | apply Evolves.foldl
  | intro _ | split | dsimp only

theorem storeFrozen_evolves (s : State) (x1) (x2) (hm : 35840 ||| m = m) (h : Evolves m u s) :
    Evolves m u (storeFrozen s x1 x2) := by
  refine Evolves.step (k := 35840) ?_ hm h; clear h hm; unfold storeFrozen
  dsimp only
  split
  · exact Evolves.rfl
  split
  · exact Evolves.rfl
  · rename_i g t ht
    have hp : Evolves 35840 s t := by
      split at ht
      · exact placeStore_evolves s _ ht (by decide) Evolves.rfl
      · cases ht
    exact enqueueThaw_evolves _ _ _ (by decide) (setTile_evolves _ _ (by decide) (jobAlloc_evolves _ _ _ (by decide)
      (writeMem_evolves _ _ _ (by decide) hp)))

theorem execFreezeDone_evolves (x0) (x1) (x2) (x3) (s4 : State) (hm : 35905 ||| m = m) (h : Evolves m u s4) :
    Evolves m u (taken s4 (execFreezeDone x0 x1 x2 x3 s4)) := by
  refine Evolves.step (k := 35905) ?_ hm h; clear h hm; unfold execFreezeDone
  repeat' first
  | with_reducible first
     | apply Evolves.rfl | assumption | (apply lor_of_beq; focus decide)
     | apply Evolves.next | apply storeFrozen_evolves | apply wr_evolves | apply countN_evolves
     | fail_if_no_progress (apply Evolves.upd_1024; focus decide) | apply Evolves.ite | apply Evolves.foldl
  | intro _ | split | dsimp only

theorem setLevel_evolves (s : State) (x1) (hm : 262144 ||| m = m) (h : Evolves m u s) :
    Evolves m u (setLevel s x1) := by
  refine Evolves.step (k := 262144) ?_ hm h; clear h hm; unfold setLevel
  repeat' first
  | with_reducible first
     | apply Evolves.rfl | assumption | (apply lor_of_beq; focus decide)
     | apply setPower_evolves | apply Evolves.ite | apply Evolves.foldl
  | intro _ | split | dsimp only

theorem updateLevel_evolves (s : State) (hm : 11990337 ||| m = m) (h : Evolves m u s) :
    Evolves m u (updateLevel s) := by
  refine Evolves.step (k := 11990337) ?_ hm h; clear h hm; unfold updateLevel
  repeat' first
  | with_reducible first
     | apply Evolves.rfl | assumption | (apply lor_of_beq; focus decide)
     | apply ev_evolves | apply fault_evolves | apply setLevel_evolves | apply Evolves.ite | apply Evolves.foldl
  | intro _ | split | dsimp only

theorem eraseAbandoned_evolves (s : State) (hm : 13766721 ||| m = m) (h : Evolves m u s) :
    Evolves m u (eraseAbandoned s) := by
  refine Evolves.step (k := 13766721) ?_ hm h; clear h hm; unfold eraseAbandoned
  repeat' first
  | with_reducible first
     | apply Evolves.rfl | assumption | (apply lor_of_beq; focus decide)
     | apply spoil_evolves | apply nvmEnd_evolves | apply Evolves.ite | apply Evolves.foldl
  | intro _ | split | dsimp only

theorem checkStop_evolves (s : State) (hm : 14038081 ||| m = m) (h : Evolves m u s) :
    Evolves m u (checkStop s) := by
  refine Evolves.step (k := 14038081) ?_ hm h; clear h hm; unfold checkStop
  repeat' first
  | with_reducible first
     | apply Evolves.rfl | assumption | (apply lor_of_beq; focus decide)
     | apply slowSync_evolves | apply stopBars_evolves | apply eraseAbandoned_evolves | apply setPower_evolves
     | apply Evolves.ite | apply Evolves.foldl
  | intro _ | split | dsimp only

theorem takeConv_evolves (s : State) (x1) (x2) (hm : 11990337 ||| m = m) (h : Evolves m u s) :
    Evolves m u (takeConv s x1 x2) := by
  refine Evolves.step (k := 11990337) ?_ hm h; clear h hm; unfold takeConv
  repeat' first
  | with_reducible first
     | apply Evolves.rfl | assumption | (apply lor_of_beq; focus decide)
     | apply ev_evolves | apply fault_evolves | apply setSensor_evolves | apply count_evolves | apply Evolves.ite
     | apply Evolves.foldl
  | intro _ | split | dsimp only

theorem measure_evolves (s : State) (x1) (hm : 16186689 ||| m = m) (h : Evolves m u s) :
    Evolves m u (measure s x1) := by
  refine Evolves.step (k := 16186689) ?_ hm h; clear h hm; unfold measure
  repeat' first
  | with_reducible first
     | apply Evolves.rfl | assumption | (apply lor_of_beq; focus decide)
     | apply updateLevel_evolves | apply checkStop_evolves | apply setPower_evolves | apply remoteHot_evolves
     | apply takeConv_evolves | apply replaceFailed_evolves | apply count_evolves | apply Evolves.ite
     | apply Evolves.foldl
  | intro _ | split | dsimp only

theorem execTileData_evolves (x0) (s1 : State) (hm : 15990599 ||| m = m) (h : Evolves m u s1) :
    Evolves m u (taken s1 (execTileData x0 s1)) := by
  refine Evolves.step (k := 15990599) ?_ hm h; clear h hm; unfold execTileData
  repeat' first
  | with_reducible first
     | apply Evolves.rfl | assumption | (apply lor_of_beq; focus decide)
     | apply Evolves.next | apply pairReceive_evolves | apply Evolves.ite | apply Evolves.foldl
  | intro _ | split | dsimp only

theorem rectCheck_evolves (s : State) (x1) (hm : 11728193 ||| m = m) (h : Evolves m u s) :
    Evolves m u (rectCheck s x1) := by
  refine Evolves.step (k := 11728193) ?_ hm h; clear h hm; unfold rectCheck
  repeat' first
  | with_reducible first
     | apply Evolves.rfl | assumption | (apply lor_of_beq; focus decide)
     | apply fault_evolves | apply ev_evolves | apply count_evolves | apply wr_evolves | apply Evolves.ite
     | apply Evolves.foldl
  | intro _ | split | dsimp only

theorem execSessionTimeout_evolves (x0) (s1 : State) (hm : 11728193 ||| m = m) (h : Evolves m u s1) :
    Evolves m u (taken s1 (execSessionTimeout x0 s1)) := by
  refine Evolves.step (k := 11728193) ?_ hm h; clear h hm; unfold execSessionTimeout
  repeat' first
  | with_reducible first
     | apply Evolves.rfl | assumption | (apply lor_of_beq; focus decide)
     | apply Evolves.next | apply discardSession_evolves | apply putSession_evolves | apply Evolves.ite
     | apply Evolves.foldl
  | intro _ | split | dsimp only

theorem armJob_evolves (s : State) (x1) (x2) (x3) (x4) (hm : 11795777 ||| m = m) (h : Evolves m u s) :
    Evolves m u (armJob s x1 x2 x3 x4) := by
  refine Evolves.step (k := 11795777) ?_ hm h; clear h hm; unfold armJob
  repeat' first
  | with_reducible first
     | apply Evolves.rfl | assumption | (apply lor_of_beq; focus decide)
     | apply jobBegun_evolves | apply setJob_evolves | apply setEntry_evolves | apply placePass_evolves
     | apply Evolves.ite | apply Evolves.foldl
  | intro _ | split | dsimp only

theorem jobStart_evolves (s : State) (x1) (x2) (hm : 11796289 ||| m = m) (h : Evolves m u s) :
    Evolves m u (jobStart s x1 x2) := by
  refine Evolves.step (k := 11796289) ?_ hm h; clear h hm; unfold jobStart
  repeat' first
  | with_reducible first
     | apply Evolves.rfl | assumption | (apply lor_of_beq; focus decide)
     | apply takeInput_evolves | apply startJob_evolves | apply armJob_evolves | apply resetLow_evolves
     | apply setEntry_evolves | apply setJob_evolves | apply finishStatus_evolves | apply Evolves.ite
     | apply Evolves.foldl
  | intro _ | split | dsimp only

theorem releaseStarts_evolves (s : State) (hm : 11796289 ||| m = m) (h : Evolves m u s) :
    Evolves m u (releaseStarts s) := by
  refine Evolves.step (k := 11796289) ?_ hm h; clear h hm; unfold releaseStarts
  repeat' first
  | with_reducible first
     | apply Evolves.rfl | assumption | (apply lor_of_beq; focus decide)
     | apply jobStart_evolves | apply setJob_evolves | apply Evolves.ite | apply Evolves.foldl
  | intro _ | split | dsimp only

theorem execStepDone_evolves (s : State) (hm : 11796289 ||| m = m) (h : Evolves m u s) :
    Evolves m u (taken s (execStepDone s)) := by
  refine Evolves.step (k := 11796289) ?_ hm h; clear h hm; unfold execStepDone
  repeat' first
  | with_reducible first
     | apply Evolves.rfl | assumption | (apply lor_of_beq; focus decide)
     | apply Evolves.next | apply setClk_evolves | apply ev_evolves | apply releaseStarts_evolves | apply Evolves.ite
     | apply Evolves.foldl
  | intro _ | split | dsimp only

theorem selectMaster_evolves (s : State) (x1) (hm : 11728193 ||| m = m) (h : Evolves m u s) :
    Evolves m u (selectMaster s x1) := by
  refine Evolves.step (k := 11728193) ?_ hm h; clear h hm; unfold selectMaster
  repeat' first
  | with_reducible first
     | apply Evolves.rfl | assumption | (apply lor_of_beq; focus decide)
     | apply masterJump_evolves | apply setClk_evolves | apply wr64_evolves | apply Evolves.ite | apply Evolves.foldl
  | intro _ | split | dsimp only

theorem execStall_evolves (x0) (s1 : State) (hm : 11793729 ||| m = m) (h : Evolves m u s1) :
    Evolves m u (taken s1 (execStall x0 s1)) := by
  refine Evolves.step (k := 11793729) ?_ hm h; clear h hm; unfold execStall
  repeat' first
  | with_reducible first
     | apply Evolves.rfl | assumption | (apply lor_of_beq; focus decide)
     | apply Evolves.next | apply fault_evolves | apply setAxis_evolves | apply count_evolves | apply ev_evolves
     | apply Evolves.ite | apply Evolves.foldl
  | intro _ | split | dsimp only

theorem ringErr_evolves (s : State) (hm : 8523841 ||| m = m) (h : Evolves m u s) :
    Evolves m u (ringErr s) := by
  refine Evolves.step (k := 8523841) ?_ hm h; clear h hm; unfold ringErr
  repeat' first
  | with_reducible first
     | apply Evolves.rfl | assumption | (apply lor_of_beq; focus decide)
     | apply ev_evolves | apply Evolves.ite | apply Evolves.foldl
  | intro _ | split | dsimp only

theorem execSubmissionDoorbell_evolves (x0) (x1) (s2 : State) (hm : 8523841 ||| m = m) (h : Evolves m u s2) :
    Evolves m u (taken s2 (execSubmissionDoorbell x0 x1 s2)) := by
  refine Evolves.step (k := 8523841) ?_ hm h; clear h hm; unfold execSubmissionDoorbell
  repeat' first
  | with_reducible first
     | apply Evolves.rfl | assumption | (apply lor_of_beq; focus decide)
     | apply Evolves.next | apply ringErr_evolves | apply wr_evolves | apply Evolves.ite | apply Evolves.foldl
  | intro _ | split | dsimp only

theorem homingFail_evolves (s : State) (x1) (x2) (hm : 11793729 ||| m = m) (h : Evolves m u s) :
    Evolves m u (homingFail s x1 x2) := by
  refine Evolves.step (k := 11793729) ?_ hm h; clear h hm; unfold homingFail
  repeat' first
  | with_reducible first
     | apply Evolves.rfl | assumption | (apply lor_of_beq; focus decide)
     | apply quickStop_evolves | apply ev_evolves | apply fault_evolves | apply Evolves.ite | apply Evolves.foldl
  | intro _ | split | dsimp only

theorem execHomeTimeout_evolves (x0) (s1 : State) (hm : 11793729 ||| m = m) (h : Evolves m u s1) :
    Evolves m u (taken s1 (execHomeTimeout x0 s1)) := by
  refine Evolves.step (k := 11793729) ?_ hm h; clear h hm; unfold execHomeTimeout
  repeat' first
  | with_reducible first
     | apply Evolves.rfl | assumption | (apply lor_of_beq; focus decide)
     | apply Evolves.next | apply homingFail_evolves | apply Evolves.ite | apply Evolves.foldl
  | intro _ | split | dsimp only

theorem enterWrite_evolves (s : State) (x1) (x2) (x3) (x4) (hm : 2048 ||| m = m) (h : Evolves m u s) :
    Evolves m u (enterWrite s x1 x2 x3 x4) := by
  refine Evolves.step (k := 2048) ?_ hm h; clear h hm; unfold enterWrite
  dsimp only
  split
  · exact setDram_evolves _ _ _ (by decide) Evolves.rfl
  · exact setDram_evolves _ _ _ (by decide) (Evolves.upd_2048 (by decide) id Evolves.rfl)

theorem countRead_evolves (s : State) (x1) (x2) (hm : 64 ||| m = m) (h : Evolves m u s) :
    Evolves m u (countRead s x1 x2) := by
  refine Evolves.step (k := 64) ?_ hm h; clear h hm; unfold countRead
  repeat' first
  | with_reducible first
     | apply Evolves.rfl | assumption | (apply lor_of_beq; focus decide)
     | apply countN_evolves | apply Evolves.ite | apply Evolves.foldl
  | intro _ | split | dsimp only

theorem enterRead_evolves (s : State) (x1) (x2) (x3) (hm : 2112 ||| m = m) (h : Evolves m u s) :
    Evolves m u (enterRead s x1 x2 x3) := by
  refine Evolves.step (k := 2112) ?_ hm h; clear h hm; unfold enterRead
  dsimp only
  have hs : Evolves 2112 s { s with dram := { s.dram with nextId := s.dram.nextId + 1 } } :=
    Evolves.upd_2048 (by decide) id Evolves.rfl
  split
  · exact setDram_evolves _ _ _ (by decide) hs
  split
  · exact Evolves.upd_2048 (by decide) id (countRead_evolves _ _ _ (by decide) (count_evolves _ _ _ (by decide) hs))
  · exact setDram_evolves _ _ _ (by decide) (count_evolves _ _ _ (by decide) hs)

theorem enterWaiting_evolves (s : State) (x1) (hm : 2112 ||| m = m) (h : Evolves m u s) :
    Evolves m u (enterWaiting s x1) := by
  refine Evolves.step (k := 2112) ?_ hm h; clear h hm; unfold enterWaiting
  dsimp only
  split
  · exact Evolves.rfl
  have hf (l : List DramOffer) : ∀ x : State × List DramOffer, Evolves 2112 s x.1 →
      Evolves 2112 s (l.foldl (fun (x : State × List DramOffer) o =>
        if x.2.any (fun w => w.cls == o.cls) || !hasRoom x.1 x1 o then (x.1, x.2 ++ [o])
        else match o.bytes with
          | none => (enterRead x.1 x1 o.addr o.cls, x.2)
          | some bs => (enterWrite x.1 x1 o.addr o.cls bs, x.2)) x).1 := by
    induction l with
    | nil => exact fun x hx => hx
    | cons o l ih =>
      intro x hx
      refine ih _ ?_
      dsimp only
      split
      · exact hx
      split
      · exact enterRead_evolves _ _ _ _ (by decide) hx
      · exact enterWrite_evolves _ _ _ _ _ (by decide) hx
  exact setDram_evolves _ _ _ (by decide) (hf _ _ Evolves.rfl)

theorem freqEnd_evolves (s : State) (x1) (hm : 11730241 ||| m = m) (h : Evolves m u s) :
    Evolves m u (freqEnd s x1) := by
  refine Evolves.step (k := 11730241) ?_ hm h; clear h hm; unfold freqEnd
  repeat' first
  | with_reducible first
     | apply Evolves.rfl | assumption | (apply lor_of_beq; focus decide)
     | apply fault_evolves | apply syncDram_evolves | apply ev_evolves | apply enterWaiting_evolves
     | apply dramCmd_evolves | apply setSub_evolves | apply setSubState_evolves | apply wrf_evolves
     | apply Evolves.ite | apply Evolves.foldl
  | intro _ | split | dsimp only

theorem execWatchdogExpiry_evolves (x0) (s1 : State) (hm : 16777183 ||| m = m) (h : Evolves m u s1) :
    Evolves m u (taken s1 (execWatchdogExpiry x0 s1)) := by
  refine Evolves.step (k := 16777183) ?_ hm h; clear h hm; unfold execWatchdogExpiry
  refine Evolves.next ?_
  split
  · exact Evolves.rfl
  · exact startBoot_evolves _ _ _ (by decide) (Evolves.upd_1048576 (by decide) (Evolves.upd_1056768 (by decide) (by decide)
      (volatileReset_evolves _ _ (by decide) (releaseOutputs_evolves _ (by decide) Evolves.rfl))))

theorem execCounterHighRead_evolves (x0) (x1) (x2) (x3) (s4 : State) (hm : 40 ||| m = m) (h : Evolves m u s4) :
    Evolves m u (taken s4 (execCounterHighRead x0 x1 x2 x3 s4)) := by
  refine Evolves.step (k := 40) ?_ hm h; clear h hm; unfold execCounterHighRead
  repeat' first
  | with_reducible first
     | apply Evolves.rfl | assumption | (apply lor_of_beq; focus decide)
     | apply Evolves.next | apply answerRead_evolves | apply counterRead_evolves | apply Evolves.ite
     | apply Evolves.foldl
  | intro _ | split | dsimp only

theorem posFault_evolves (s : State) (x1) (hm : 11728705 ||| m = m) (h : Evolves m u s) :
    Evolves m u (posFault s x1) := by
  refine Evolves.step (k := 11728705) ?_ hm h; clear h hm; unfold posFault
  repeat' first
  | with_reducible first
     | apply Evolves.rfl | assumption | (apply lor_of_beq; focus decide)
     | apply stopBars_evolves | apply fault_evolves | apply markPersistent_evolves | apply setChan_evolves
     | apply ev_evolves | apply Evolves.ite | apply Evolves.foldl
  | intro _ | split | dsimp only

theorem indexError_evolves (s : State) (x1) (x2) (hm : 11728705 ||| m = m) (h : Evolves m u s) :
    Evolves m u (indexError s x1 x2) := by
  refine Evolves.step (k := 11728705) ?_ hm h; clear h hm; unfold indexError
  repeat' first
  | with_reducible first
     | apply Evolves.rfl | assumption | (apply lor_of_beq; focus decide)
     | apply posFault_evolves | apply setChan_evolves | apply count_evolves | apply ev_evolves | apply fault_evolves
     | apply Evolves.ite | apply Evolves.foldl
  | intro _ | split | dsimp only

theorem indexSeen_evolves (s : State) (x1) (hm : 11728705 ||| m = m) (h : Evolves m u s) :
    Evolves m u (indexSeen s x1) := by
  refine Evolves.step (k := 11728705) ?_ hm h; clear h hm; unfold indexSeen
  repeat' first
  | with_reducible first
     | apply Evolves.rfl | assumption | (apply lor_of_beq; focus decide)
     | apply indexError_evolves | apply wr_evolves | apply count_evolves | apply setChan_evolves | apply Evolves.ite
     | apply Evolves.foldl
  | intro _ | split | dsimp only

theorem execRefresh_evolves (x0) (s1 : State) (hm : 8390720 ||| m = m) (h : Evolves m u s1) :
    Evolves m u (taken s1 (execRefresh x0 s1)) := by
  refine Evolves.step (k := 8390720) ?_ hm h; clear h hm; unfold execRefresh
  repeat' first
  | with_reducible first
     | apply Evolves.rfl | assumption | (apply lor_of_beq; focus decide)
     | apply Evolves.next | apply setSub_evolves | apply dramCmd_evolves | apply count_evolves | apply Evolves.ite
     | apply Evolves.foldl
  | intro _ | split | dsimp only

theorem setRail_evolves (s : State) (x1) (x2) (hm : 262144 ||| m = m) (h : Evolves m u s) :
    Evolves m u (setRail s x1 x2) := by
  refine Evolves.step (k := 262144) ?_ hm h; clear h hm; unfold setRail
  repeat' first
  | with_reducible first
     | apply Evolves.rfl | assumption | (apply lor_of_beq; focus decide)
     | apply setPower_evolves | apply Evolves.ite | apply Evolves.foldl
  | intro _ | split | dsimp only

theorem warnCheck_evolves (s : State) (x1) (x2) (hm : 11990337 ||| m = m) (h : Evolves m u s) :
    Evolves m u (warnCheck s x1 x2) := by
  refine Evolves.step (k := 11990337) ?_ hm h; clear h hm; unfold warnCheck
  repeat' first
  | with_reducible first
     | apply Evolves.rfl | assumption | (apply lor_of_beq; focus decide)
     | apply ev_evolves | apply fault_evolves | apply count_evolves | apply setRail_evolves | apply Evolves.ite
     | apply Evolves.foldl
  | intro _ | split | dsimp only

theorem execIdle_evolves (x0) (x1) (s2 : State) (hm : 64 ||| m = m) (h : Evolves m u s2) :
    Evolves m u (taken s2 (execIdle x0 x1 s2)) := by
  refine Evolves.step (k := 64) ?_ hm h; clear h hm; unfold execIdle
  repeat' first
  | with_reducible first
     | apply Evolves.rfl | assumption | (apply lor_of_beq; focus decide)
     | apply Evolves.next | apply onFrame_evolves | apply Evolves.ite | apply Evolves.foldl
  | intro _ | split | dsimp only

theorem withFrame_evolves (s : State) (x1) (f2) (hm : 16384 ||| m = m) (h : Evolves m u s) :
    Evolves m u (withFrame s x1 f2) := by
  refine Evolves.step (k := 16384) ?_ hm h; clear h hm; unfold withFrame
  repeat' first
  | with_reducible first
     | apply Evolves.rfl | assumption | (apply lor_of_beq; focus decide)
     | apply setCtx_evolves | apply Evolves.ite | apply Evolves.foldl
  | intro _ | split | dsimp only

theorem writeLine_evolves (s : State) (x1) (x2) (x3) (hm : 18432 ||| m = m) (h : Evolves m u s) :
    Evolves m u (writeLine s x1 x2 x3) := by
  refine Evolves.step (k := 18432) ?_ hm h; clear h hm; unfold writeLine
  repeat' first
  | with_reducible first
     | apply Evolves.rfl | assumption | (apply lor_of_beq; focus decide)
     | apply withFrame_evolves | apply demand_evolves | fail_if_no_progress (apply Evolves.upd_2048; focus decide)
     | apply memWf_keep | apply memWf_write | apply memWf_block | apply Nat.le_succ | apply Evolves.ite
     | apply Evolves.foldl
  | intro _ | split | dsimp only

theorem lostLine_evolves (s : State) (x1) (hm : 16384 ||| m = m) (h : Evolves m u s) :
    Evolves m u (lostLine s x1) := by
  refine Evolves.step (k := 16384) ?_ hm h; clear h hm; unfold lostLine
  repeat' first
  | with_reducible first
     | apply Evolves.rfl | assumption | (apply lor_of_beq; focus decide)
     | apply withFrame_evolves | apply Evolves.ite | apply Evolves.foldl
  | intro _ | split | dsimp only

theorem takeLine_evolves (s : State) (x1) (x2) (x3) (hm : 18432 ||| m = m) (h : Evolves m u s) :
    Evolves m u (takeLine s x1 x2 x3) := by
  refine Evolves.step (k := 18432) ?_ hm h; clear h hm; unfold takeLine
  repeat' first
  | with_reducible first
     | apply Evolves.rfl | assumption | (apply lor_of_beq; focus decide)
     | apply writeLine_evolves | apply withFrame_evolves | apply lostLine_evolves | apply Evolves.ite
     | apply Evolves.foldl
  | intro _ | split | dsimp only

theorem badPacket_evolves (s : State) (x1) (x2) (x3) (hm : 16384 ||| m = m) (h : Evolves m u s) :
    Evolves m u (badPacket s x1 x2 x3) := by
  refine Evolves.step (k := 16384) ?_ hm h; clear h hm; unfold badPacket
  repeat' first
  | with_reducible first
     | apply Evolves.rfl | assumption | (apply lor_of_beq; focus decide)
     | apply withFrame_evolves | apply lostLine_evolves | apply Evolves.ite | apply Evolves.foldl
  | intro _ | split | dsimp only

theorem execCsiPacket_evolves (x0) (x1) (x2) (x3) (x4) (x5) (x6) (s7 : State) (hm : 8542273 ||| m = m) (h : Evolves m u s7) :
    Evolves m u (taken s7 (execCsiPacket x0 x1 x2 x3 x4 x5 x6 s7)) := by
  refine Evolves.step (k := 8542273) ?_ hm h; clear h hm; unfold execCsiPacket
  repeat' first
  | with_reducible first
     | apply Evolves.rfl | assumption | (apply lor_of_beq; focus decide)
     | apply Evolves.next | apply takeLine_evolves | apply badPacket_evolves | apply count_evolves | apply ev_evolves
     | apply Evolves.ite | apply Evolves.foldl
  | intro _ | split | dsimp only

theorem ethDrop_evolves (s : State) (x1) (hm : 64 ||| m = m) (h : Evolves m u s) :
    Evolves m u (ethDrop s x1) := by
  refine Evolves.step (k := 64) ?_ hm h; clear h hm; unfold ethDrop
  repeat' first
  | with_reducible first
     | apply Evolves.rfl | assumption | (apply lor_of_beq; focus decide)
     | apply count_evolves | apply Evolves.ite | apply Evolves.foldl
  | intro _ | split | dsimp only

theorem takeMessage_evolves (s : State) (x1) (hm : 4160 ||| m = m) (h : Evolves m u s) :
    Evolves m u (takeMessage s x1) := by
  refine Evolves.step (k := 4160) ?_ hm h; clear h hm; unfold takeMessage
  repeat' first
  | with_reducible first
     | apply Evolves.rfl | assumption | (apply lor_of_beq; focus decide)
     | apply ethDrop_evolves | fail_if_no_progress (apply Evolves.upd_4096; focus decide) | apply Evolves.ite
     | apply Evolves.foldl
  | intro _ | split | dsimp only

theorem hostFrame_evolves (s : State) (x1) (x2) (hm : 8392768 ||| m = m) (h : Evolves m u s) :
    Evolves m u (hostFrame s x1 x2) := by
  refine Evolves.step (k := 8392768) ?_ hm h; clear h hm; unfold hostFrame
  repeat' first
  | with_reducible first
     | apply Evolves.rfl | assumption | (apply lor_of_beq; focus decide)
     | apply takeMessage_evolves | apply ethDrop_evolves | apply send_evolves | apply Evolves.ite
     | apply Evolves.foldl
  | intro _ | split | dsimp only

theorem closeIfDone_evolves (s : State) (x1) (hm : 8425536 ||| m = m) (h : Evolves m u s) :
    Evolves m u (closeIfDone s x1) := by
  refine Evolves.step (k := 8425536) ?_ hm h; clear h hm; unfold closeIfDone
  repeat' first
  | with_reducible first
     | apply Evolves.rfl | assumption | (apply lor_of_beq; focus decide)
     | apply putSession_evolves | apply sendHeader_evolves | apply Evolves.ite | apply Evolves.foldl
  | intro _ | split | dsimp only

theorem execLane_evolves (x0) (x1) (s2 : State) (hm : 8396864 ||| m = m) (h : Evolves m u s2) :
    Evolves m u (taken s2 (execLane x0 x1 s2)) := by
  refine Evolves.step (k := 8396864) ?_ hm h; clear h hm; unfold execLane
  repeat' first
  | with_reducible first
     | apply Evolves.rfl | assumption | (apply lor_of_beq; focus decide)
     | apply Evolves.next | apply count_evolves | apply setLane_evolves | apply send_evolves | apply onFrame_evolves
     | apply Evolves.ite | apply Evolves.foldl
  | intro _ | split | dsimp only

theorem indexHomes_evolves (s : State) (x1) (hm : 8622145 ||| m = m) (h : Evolves m u s) :
    Evolves m u (indexHomes s x1) := by
  refine Evolves.step (k := 8622145) ?_ hm h; clear h hm; unfold indexHomes
  repeat' first
  | with_reducible first
     | apply Evolves.rfl | assumption | (apply lor_of_beq; focus decide)
     | apply homeLatch_evolves | apply Evolves.ite | apply Evolves.foldl
  | intro _ | split | dsimp only

theorem execIndex_evolves (x0) (s1 : State) (hm : 11794241 ||| m = m) (h : Evolves m u s1) :
    Evolves m u (taken s1 (execIndex x0 s1)) := by
  refine Evolves.step (k := 11794241) ?_ hm h; clear h hm; unfold execIndex
  repeat' first
  | with_reducible first
     | apply Evolves.rfl | assumption | (apply lor_of_beq; focus decide)
     | apply Evolves.next | apply indexSeen_evolves | apply indexHomes_evolves | apply Evolves.ite
     | apply Evolves.foldl
  | intro _ | split | dsimp only

theorem sourceEvent_evolves (s : State) (x1) (x2) (hm : 8589377 ||| m = m) (h : Evolves m u s) :
    Evolves m u (sourceEvent s x1 x2) := by
  refine Evolves.step (k := 8589377) ?_ hm h; clear h hm; unfold sourceEvent
  repeat' first
  | with_reducible first
     | apply Evolves.rfl | assumption | (apply lor_of_beq; focus decide)
     | apply setAxis_evolves | apply ev_evolves | apply count_evolves | apply Evolves.ite | apply Evolves.foldl
  | intro _ | split | dsimp only

theorem masterEvent_evolves (s : State) (x1) (hm : 8589377 ||| m = m) (h : Evolves m u s) :
    Evolves m u (masterEvent s x1) := by
  refine Evolves.step (k := 8589377) ?_ hm h; clear h hm; unfold masterEvent
  repeat' first
  | with_reducible first
     | apply Evolves.rfl | assumption | (apply lor_of_beq; focus decide)
     | apply setAxis_evolves | apply sourceEvent_evolves | apply Evolves.ite | apply Evolves.foldl
  | intro _ | split | dsimp only

theorem chooseWindow_evolves (s : State) (x1) (hm : 8524353 ||| m = m) (h : Evolves m u s) :
    Evolves m u (chooseWindow s x1) := by
  refine Evolves.step (k := 8524353) ?_ hm h; clear h hm; unfold chooseWindow
  repeat' first
  | with_reducible first
     | apply Evolves.rfl | assumption | (apply lor_of_beq; focus decide)
     | apply setChan_evolves | apply ev_evolves | apply Evolves.ite | apply Evolves.foldl
  | intro _ | split | dsimp only

theorem countEdge_evolves (s : State) (x1) (x2) (x3) (hm : 12320577 ||| m = m) (h : Evolves m u s) :
    Evolves m u (countEdge s x1 x2 x3) := by
  refine Evolves.step (k := 12320577) ?_ hm h; clear h hm; unfold countEdge
  repeat' first
  | with_reducible first
     | apply Evolves.rfl | assumption | (apply lor_of_beq; focus decide)
     | apply masterEvent_evolves | apply lineStarts_evolves | apply reversal_evolves | apply count_evolves
     | apply setChan_evolves | apply chooseWindow_evolves | apply Evolves.ite | apply Evolves.foldl
  | intro _ | split | dsimp only

theorem execCountEdge_evolves (x0) (x1) (x2) (x3) (x4) (s5 : State) (hm : 12320577 ||| m = m) (h : Evolves m u s5) :
    Evolves m u (taken s5 (execCountEdge x0 x1 x2 x3 x4 s5)) := by
  refine Evolves.step (k := 12320577) ?_ hm h; clear h hm; unfold execCountEdge
  repeat' first
  | with_reducible first
     | apply Evolves.rfl | assumption | (apply lor_of_beq; focus decide)
     | apply Evolves.next | apply countEdge_evolves | apply quadErr_evolves | apply count_evolves
     | apply setChan_evolves | apply ptShowAll_evolves | apply Evolves.ite | apply Evolves.foldl
  | intro _ | split | dsimp only

theorem underrunLayer_evolves (x0) (s1 : State) (x2) (hm : 9048129 ||| m = m) (h : Evolves m u s1) :
    Evolves m u (underrunLayer x0 s1 x2) := by
  refine Evolves.step (k := 9048129) ?_ hm h; clear h hm; unfold underrunLayer
  repeat' first
  | with_reducible first
     | apply Evolves.rfl | assumption | (apply lor_of_beq; focus decide)
     | apply setDisp_evolves | apply ev_evolves | apply count_evolves | apply Evolves.ite | apply Evolves.foldl
  | intro _ | split | dsimp only

theorem execUnderrun_evolves (x0) (x1) (s2 : State) (hm : 9048129 ||| m = m) (h : Evolves m u s2) :
    Evolves m u (taken s2 (execUnderrun x0 x1 s2)) := by
  refine Evolves.step (k := 9048129) ?_ hm h; clear h hm; unfold execUnderrun
  repeat' first
  | with_reducible first
     | apply Evolves.rfl | assumption | (apply lor_of_beq; focus decide)
     | apply Evolves.next | apply underrunLayer_evolves | apply Evolves.ite | apply Evolves.foldl
  | intro _ | split | dsimp only

theorem snapRecord_evolves (s : State) (x1) (hm : 129 ||| m = m) (h : Evolves m u s) :
    Evolves m u (snapRecord s x1) := by
  refine Evolves.step (k := 129) ?_ hm h; clear h hm; unfold snapRecord
  repeat' first
  | with_reducible first
     | apply Evolves.rfl | assumption | (apply lor_of_beq; focus decide)
     | apply wr64_evolves | apply wr_evolves | fail_if_no_progress (apply Evolves.upd_128; focus decide)
     | apply Evolves.ite | apply Evolves.foldl
  | intro _ | split | dsimp only

theorem snapTake_evolves (s : State) (hm : 10621121 ||| m = m) (h : Evolves m u s) :
    Evolves m u (snapTake s) := by
  refine Evolves.step (k := 10621121) ?_ hm h; clear h hm; unfold snapTake
  repeat' first
  | with_reducible first
     | apply Evolves.rfl | assumption | (apply lor_of_beq; focus decide)
     | apply finish_evolves | apply snapRecord_evolves | apply dropLateSnap_evolves
     | fail_if_no_progress (apply Evolves.upd_2097152; focus decide) | apply Evolves.ite | apply Evolves.foldl
  | intro _ | split | dsimp only

theorem tileThawed_evolves (s : State) (x1) (x2) (hm : 3072 ||| m = m) (h : Evolves m u s) :
    Evolves m u (tileThawed s x1 x2) := by
  refine Evolves.step (k := 3072) ?_ hm h; clear h hm; unfold tileThawed
  repeat' first
  | with_reducible first
     | apply Evolves.rfl | assumption | (apply lor_of_beq; focus decide)
     | apply writeSlot_evolves | apply setTile_evolves | apply Evolves.ite | apply Evolves.foldl
  | intro _ | split | dsimp only

theorem thawOutcome_evolves (s : State) (x1) (x2) (x3) (x4) (hm : 11730241 ||| m = m) (h : Evolves m u s) :
    Evolves m u (thawOutcome s x1 x2 x3 x4) := by
  refine Evolves.step (k := 11730241) ?_ hm h; clear h hm; unfold thawOutcome
  repeat' first
  | with_reducible first
     | apply Evolves.rfl | assumption | (apply lor_of_beq; focus decide)
     | apply tileDefective_evolves | apply askPartner_evolves | apply setTile_evolves | apply enqueueThaw_evolves
     | apply count_evolves | apply recoverByPartner_evolves | apply tileThawed_evolves | apply frozenChecked_evolves
     | apply Evolves.ite | apply Evolves.foldl
  | intro _ | split | dsimp only

theorem setEngine_evolves (s : State) (x1) (x2) (hm : 1024 ||| m = m) (h : Evolves m u s) :
    Evolves m u (setEngine s x1 x2) := by
  refine Evolves.step (k := 1024) ?_ hm h; clear h hm; unfold setEngine
  repeat' first
  | with_reducible first
     | apply Evolves.rfl | assumption | (apply lor_of_beq; focus decide)
     | fail_if_no_progress (apply Evolves.upd_1024; focus decide) | apply Evolves.ite | apply Evolves.foldl
  | intro _ | split | dsimp only

theorem engineBusy_evolves (s : State) (x1) (x2) (hm : 1 ||| m = m) (h : Evolves m u s) :
    Evolves m u (engineBusy s x1 x2) := by
  refine Evolves.step (k := 1) ?_ hm h; clear h hm; unfold engineBusy
  repeat' first
  | with_reducible first
     | apply Evolves.rfl | assumption | (apply lor_of_beq; focus decide)
     | apply wrf_evolves | apply Evolves.ite | apply Evolves.foldl
  | intro _ | split | dsimp only

theorem execThawDone_evolves (x0) (s1 : State) (hm : 11730241 ||| m = m) (h : Evolves m u s1) :
    Evolves m u (taken s1 (execThawDone x0 s1)) := by
  refine Evolves.step (k := 11730241) ?_ hm h; clear h hm; unfold execThawDone
  repeat' first
  | with_reducible first
     | apply Evolves.rfl | assumption | (apply lor_of_beq; focus decide)
     | apply Evolves.next | apply setTile_evolves | apply thawOutcome_evolves | apply wr_evolves | apply ev_evolves
     | apply countN_evolves | apply setEngine_evolves | apply engineBusy_evolves | apply Evolves.ite
     | apply Evolves.foldl
  | intro _ | split | dsimp only

theorem withParams_evolves (s : State) (x1) (x2) (x3) (hm : 16385 ||| m = m) (h : Evolves m u s) :
    Evolves m u (withParams s x1 x2 x3) := by
  refine Evolves.step (k := 16385) ?_ hm h; clear h hm; unfold withParams
  repeat' first
  | with_reducible first
     | apply Evolves.rfl | assumption | (apply lor_of_beq; focus decide)
     | apply wr_evolves | fail_if_no_progress (apply Evolves.upd_16384; focus decide) | apply Evolves.ite
     | apply Evolves.foldl
  | intro _ | split | dsimp only

theorem processFrame_evolves (s : State) (x1) (x2) (hm : 8542273 ||| m = m) (h : Evolves m u s) :
    Evolves m u (processFrame s x1 x2) := by
  refine Evolves.step (k := 8542273) ?_ hm h; clear h hm; unfold processFrame
  repeat' first
  | with_reducible first
     | apply Evolves.rfl | assumption | (apply lor_of_beq; focus decide)
     | apply setCtx_evolves | apply useFrame_evolves | apply writeTap_evolves | apply withParams_evolves
     | apply Evolves.ite | apply Evolves.foldl
  | intro _ | split | dsimp only

theorem asOf_evolves (s : State) (x1) (x2) (hm : 3 ||| m = m) (h : Evolves m u s) :
    Evolves m u (asOf s x1 x2) := by
  refine Evolves.step (k := 3) ?_ hm h; clear h hm; unfold asOf
  repeat' first
  | with_reducible first
     | apply Evolves.rfl | assumption | (apply lor_of_beq; focus decide)
     | apply setCm_evolves | apply wr_evolves | apply Evolves.ite | apply Evolves.foldl
  | intro _ | split | dsimp only

theorem recordSkip_evolves (s : State) (x1) (x2) (x3) (hm : 11728193 ||| m = m) (h : Evolves m u s) :
    Evolves m u (recordSkip s x1 x2 x3) := by
  refine Evolves.step (k := 11728193) ?_ hm h; clear h hm; unfold recordSkip
  repeat' first
  | with_reducible first
     | apply Evolves.rfl | assumption | (apply lor_of_beq; focus decide)
     | apply faultAt_evolves | apply ev_evolves | apply setBar_evolves | apply count_evolves | apply wr64_evolves
     | apply Evolves.ite | apply Evolves.foldl
  | intro _ | split | dsimp only

theorem sendRowLine_evolves (s : State) (x1) (x2) (x3) (x4) (x5) (hm : 11728195 ||| m = m) (h : Evolves m u s) :
    Evolves m u (sendRowLine s x1 x2 x3 x4 x5) := by
  refine Evolves.step (k := 11728195) ?_ hm h; clear h hm; unfold sendRowLine
  repeat' first
  | with_reducible first
     | apply Evolves.rfl | assumption | (apply lor_of_beq; focus decide)
     | apply flnSend_evolves | apply setLane_evolves | apply count_evolves | apply recordSkip_evolves
     | apply dirtyLine_evolves | apply countN_evolves | apply ev_evolves | apply setBar_evolves | apply asOf_evolves
     | apply Evolves.ite | apply Evolves.foldl
  | intro _ | split | dsimp only

theorem sendDue_evolves (s : State) (x1) (x2) (hm : 11728195 ||| m = m) (h : Evolves m u s) :
    Evolves m u (sendDue s x1 x2) := by
  refine Evolves.step (k := 11728195) ?_ hm h; clear h hm; unfold sendDue
  repeat' first
  | with_reducible first
     | apply Evolves.rfl | assumption | (apply lor_of_beq; focus decide)
     | apply asOf_evolves | apply sendRowLine_evolves | apply Evolves.ite | apply Evolves.foldl
  | intro _ | split | dsimp only

theorem inView_evolves (s : State) (x1) (hm : 1024 ||| m = m) (h : Evolves m u s) :
    Evolves m u (inView s x1) := by
  refine Evolves.step (k := 1024) ?_ hm h; clear h hm; unfold inView
  repeat' first
  | with_reducible first
     | apply Evolves.rfl | assumption | (apply lor_of_beq; focus decide)
     | apply swapPass_evolves | apply Evolves.ite | apply Evolves.foldl
  | intro _ | split | dsimp only

theorem onView_evolves (s : State) (x1) (f2) (hf : ∀ x, Evolves m x (f2 x)) (hm : 1024 ||| m = m) (h : Evolves m u s) :
    Evolves m u (onView s x1 f2) := by
  refine h.trans ?_; clear h; unfold onView
  refine Evolves.foldl ((inView_evolves _ _ hm Evolves.rfl).trans (hf _)) ?_
  intro x y hx
  exact swapPass_evolves _ _ hm hx

theorem onPass_evolves (s : State) (x1) (x2) (f3) (hf : ∀ x, Evolves m x (f3 x)) (hm : 1024 ||| m = m) (h : Evolves m u s) :
    Evolves m u (onPass s x1 x2 f3) := by
  unfold onPass
  split
  · exact onView_evolves _ _ _ hf hm h
  · exact h

theorem execLineSend_evolves (x0) (x1) (s2 : State) (hm : 11728195 ||| m = m) (h : Evolves m u s2) :
    Evolves m u (taken s2 (execLineSend x0 x1 s2)) := by
  refine Evolves.step (k := 11728195) ?_ hm h; clear h hm; unfold execLineSend
  repeat' first
  | with_reducible first
     | apply Evolves.rfl | assumption | (apply lor_of_beq; focus decide)
     | apply Evolves.next | apply sendDue_evolves | apply onPass_evolves | apply Evolves.ite | apply Evolves.foldl
  | intro _ | split | dsimp only

theorem offer_evolves (s : State) (x1) (x2) (x3) (hm : 2112 ||| m = m) (h : Evolves m u s) :
    Evolves m u (offer s x1 x2 x3) := by
  refine Evolves.step (k := 2112) ?_ hm h; clear h hm; unfold offer
  repeat' first
  | with_reducible first
     | apply Evolves.rfl | assumption | (apply lor_of_beq; focus decide)
     | apply setDram_evolves | apply enterWaiting_evolves | apply Evolves.ite | apply Evolves.foldl
  | intro _ | split | dsimp only

theorem execDramRead_evolves (x0) (x1) (s2 : State) (hm : 2112 ||| m = m) (h : Evolves m u s2) :
    Evolves m u (taken s2 (execDramRead x0 x1 s2)) := by
  refine Evolves.step (k := 2112) ?_ hm h; clear h hm; unfold execDramRead
  dsimp only
  split
  · exact Evolves.rfl
  · exact Evolves.next (offer_evolves _ _ _ _ (by decide) Evolves.rfl)

theorem keepPastOf_evolves (s : State) (x1) (x2) (x3) (x4) (hm : 1024 ||| m = m) (h : Evolves m u s) :
    Evolves m u (keepPastOf s x1 x2 x3 x4) := by
  refine Evolves.step (k := 1024) ?_ hm h; clear h hm; unfold keepPastOf
  repeat' first
  | with_reducible first
     | apply Evolves.rfl | assumption | (apply lor_of_beq; focus decide)
     | fail_if_no_progress (apply Evolves.upd_1024; focus decide) | apply Evolves.ite | apply Evolves.foldl
  | intro _ | split | dsimp only

theorem execCommitArm_evolves (x0) (x1) (x2) (s3 : State) (hm : 9048131 ||| m = m) (h : Evolves m u s3) :
    Evolves m u (taken s3 (execCommitArm x0 x1 x2 s3)) := by
  refine Evolves.step (k := 9048131) ?_ hm h; clear h hm; unfold execCommitArm
  repeat' first
  | with_reducible first
     | apply Evolves.rfl | assumption | (apply lor_of_beq; focus decide)
     | apply Evolves.next | apply commitArm_evolves | apply wrf_evolves | apply refuse_evolves | apply Evolves.ite
     | apply Evolves.foldl
  | intro _ | split | dsimp only

theorem serialFail_evolves (s : State) (x1) (hm : 11728705 ||| m = m) (h : Evolves m u s) :
    Evolves m u (serialFail s x1) := by
  refine Evolves.step (k := 11728705) ?_ hm h; clear h hm; unfold serialFail
  repeat' first
  | with_reducible first
     | apply Evolves.rfl | assumption | (apply lor_of_beq; focus decide)
     | apply posFault_evolves | apply markPersistent_evolves | apply count_evolves | apply ev_evolves
     | apply setChan_evolves | apply Evolves.ite | apply Evolves.foldl
  | intro _ | split | dsimp only

theorem execPairTimeExchange_evolves (s : State) (hm : 8388928 ||| m = m) (h : Evolves m u s) :
    Evolves m u (taken s (execPairTimeExchange s)) := by
  refine Evolves.step (k := 8388928) ?_ hm h; clear h hm; unfold execPairTimeExchange
  repeat' first
  | with_reducible first
     | apply Evolves.rfl | assumption | (apply lor_of_beq; focus decide)
     | apply Evolves.next | apply pairPut_evolves | apply setClk_evolves | apply Evolves.ite | apply Evolves.foldl
  | intro _ | split | dsimp only

theorem trip_evolves (s : State) (x1) (x2) (hm : 16777183 ||| m = m) (h : Evolves m u s) :
    Evolves m u (trip s x1 x2) := by
  refine Evolves.step (k := 16777183) ?_ hm h; clear h hm; unfold trip
  exact Evolves.upd_1056768 (by decide) (by decide) (setPower_evolves _ _ (by decide)
    (volatileReset_evolves _ _ (by decide) (setPower_evolves _ _ (by decide) Evolves.rfl)))

theorem bootTime_evolves (s : State) (hm : 4194305 ||| m = m) (h : Evolves m u s) :
    Evolves m u (bootTime s) := by
  refine Evolves.step (k := 4194305) ?_ hm h; clear h hm; unfold bootTime
  repeat' first
  | with_reducible first
     | apply Evolves.rfl | assumption | (apply lor_of_beq; focus decide)
     | apply wrf_evolves | apply drawFree_evolves | apply Evolves.ite | apply Evolves.foldl
  | intro _ | split | dsimp only

theorem pmbSend_evolves (s : State) (x1) (hm : 8388609 ||| m = m) (h : Evolves m u s) :
    Evolves m u (pmbSend s x1) := by
  refine Evolves.step (k := 8388609) ?_ hm h; clear h hm; unfold pmbSend
  repeat' first
  | with_reducible first
     | apply Evolves.rfl | assumption | (apply lor_of_beq; focus decide)
     | apply wrf_evolves | apply send_evolves | apply Evolves.ite | apply Evolves.foldl
  | intro _ | split | dsimp only

theorem lateRecord_evolves (s : State) (x1) (hm : 11728193 ||| m = m) (h : Evolves m u s) :
    Evolves m u (lateRecord s x1) := by
  refine Evolves.step (k := 11728193) ?_ hm h; clear h hm; unfold lateRecord
  repeat' first
  | with_reducible first
     | apply Evolves.rfl | assumption | (apply lor_of_beq; focus decide)
     | apply armSnapshot_evolves | apply count_evolves | apply ramEnter_evolves | apply nvEnter_evolves
     | apply ev_evolves | apply fault_evolves | fail_if_no_progress (apply Evolves.upd_1048576; focus decide)
     | apply Evolves.ite | apply Evolves.foldl
  | intro _ | split | dsimp only

theorem journalLost_evolves (s : State) (hm : 11728193 ||| m = m) (h : Evolves m u s) :
    Evolves m u (journalLost s) := by
  refine Evolves.step (k := 11728193) ?_ hm h; clear h hm; unfold journalLost
  repeat' first
  | with_reducible first
     | apply Evolves.rfl | assumption | (apply lor_of_beq; focus decide)
     | apply fault_evolves | apply wr_evolves | apply Evolves.ite | apply Evolves.foldl
  | intro _ | split | dsimp only

theorem bootJournal_evolves (s : State) (hm : 11728193 ||| m = m) (h : Evolves m u s) :
    Evolves m u (bootJournal s) := by
  refine Evolves.step (k := 11728193) ?_ hm h; clear h hm; unfold bootJournal
  repeat' first
  | with_reducible first
     | apply Evolves.rfl | assumption | (apply lor_of_beq; focus decide)
     | apply wrf_evolves | apply journalLost_evolves | fail_if_no_progress (apply Evolves.upd_1048576; focus decide)
     | apply Evolves.ite | apply Evolves.foldl
  | intro _ | split | dsimp only

theorem readLog_evolves (s : State) (hm : 1048640 ||| m = m) (h : Evolves m u s) :
    Evolves m u (readLog s) := by
  refine Evolves.step (k := 1048640) ?_ hm h; clear h hm; unfold readLog
  repeat' first
  | with_reducible first
     | apply Evolves.rfl | assumption | (apply lor_of_beq; focus decide)
     | apply countN_evolves | fail_if_no_progress (apply Evolves.upd_1048576; focus decide) | apply Evolves.ite
     | apply Evolves.foldl
  | intro _ | split | dsimp only

theorem clockOn_evolves (s : State) (x1) (hm : 262145 ||| m = m) (h : Evolves m u s) :
    Evolves m u (clockOn s x1) := by
  refine Evolves.step (k := 262145) ?_ hm h; clear h hm; unfold clockOn
  repeat' first
  | with_reducible first
     | apply Evolves.rfl | assumption | (apply lor_of_beq; focus decide)
     | apply setPower_evolves | apply wrf_evolves | apply Evolves.ite | apply Evolves.foldl
  | intro _ | split | dsimp only

theorem bootPage_evolves (s : State) (x1) (hm : 12580673 ||| m = m) (h : Evolves m u s) :
    Evolves m u (bootPage s x1) := by
  refine Evolves.step (k := 12580673) ?_ hm h; clear h hm; unfold bootPage
  repeat' first
  | with_reducible first
     | apply Evolves.rfl | assumption | (apply lor_of_beq; focus decide)
     | apply clockOn_evolves | apply ctrlWrite_evolves | apply Evolves.ite | apply Evolves.foldl
  | intro _ | split | dsimp only

theorem bootReady_evolves (s : State) (hm : 16774977 ||| m = m) (h : Evolves m u s) :
    Evolves m u (bootReady s) := by
  refine Evolves.step (k := 16774977) ?_ hm h; clear h hm; unfold bootReady
  repeat' first
  | with_reducible first
     | apply Evolves.rfl | assumption | (apply lor_of_beq; focus decide)
     | apply bootTime_evolves | apply ev_evolves | apply slowSync_evolves | apply pmbSend_evolves
     | apply lateRecord_evolves | apply bootJournal_evolves | apply copyLog_evolves | apply readLog_evolves
     | apply ptcSource_evolves | apply setRole_evolves | apply bootPage_evolves
     | fail_if_no_progress (apply Evolves.upd_1048576; focus decide) | apply Evolves.ite | apply Evolves.foldl
  | intro _ | split | dsimp only

theorem restoreDelays_evolves (s : State) (hm : 2048 ||| m = m) (h : Evolves m u s) :
    Evolves m u (restoreDelays s) := by
  refine Evolves.step (k := 2048) ?_ hm h; clear h hm; unfold restoreDelays
  repeat' first
  | with_reducible first
     | apply Evolves.rfl | assumption | (apply lor_of_beq; focus decide)
     | apply setSub_evolves | apply Evolves.ite | apply Evolves.foldl
  | intro _ | split | dsimp only

theorem wakeDeep_evolves (s : State) (hm : 16777183 ||| m = m) (h : Evolves m u s) :
    Evolves m u (wakeDeep s) := by
  refine Evolves.step (k := 16777183) ?_ hm h; clear h hm; unfold wakeDeep
  have hv := restoreDelays_evolves (m := 16777183) (u := s) _ (by decide) (volatileReset_evolves s true (by decide) Evolves.rfl)
  refine ev_evolves _ _ _ (by decide) (bootReady_evolves _ (by decide) (memTrained_evolves _ (by decide) ?_))
  generalize restoreDelays (volatileReset s true) = t at hv
  obtain ⟨h0, h1, h2, h3, h4, h5, h6, h7, h8, h9, h10, h11, h12, h13, h14, h15, h16, h17, h18, h19, h20, h21, h22, h23, h24, hW, _, hF⟩ := hv
  exact ⟨h0, h1, h2, h3, h4, h5, h6, h7, h8, h9, h10, h11, h12, h13, h14, h15, h16, h17, h18, h19, h20, h21, h22, fun _ => rfl, h24, hW, List.prefix_rfl, hF⟩

theorem execHealthSend_evolves (x0) (x1) (s2 : State) (hm : 11728193 ||| m = m) (h : Evolves m u s2) :
    Evolves m u (taken s2 (execHealthSend x0 x1 s2)) := by
  refine Evolves.step (k := 11728193) ?_ hm h; clear h hm; unfold execHealthSend
  repeat' first
  | with_reducible first
     | apply Evolves.rfl | assumption | (apply lor_of_beq; focus decide)
     | apply Evolves.next | apply pairRecord_evolves | apply enterJoining_evolves | apply setPair_evolves
     | apply pairSendSeq_evolves | apply holdHealth_evolves | apply Evolves.ite | apply Evolves.foldl
  | intro _ | split | dsimp only

theorem pmbFailed_evolves (s : State) (x1) (hm : 11990337 ||| m = m) (h : Evolves m u s) :
    Evolves m u (pmbFailed s x1) := by
  refine Evolves.step (k := 11990337) ?_ hm h; clear h hm; unfold pmbFailed
  repeat' first
  | with_reducible first
     | apply Evolves.rfl | assumption | (apply lor_of_beq; focus decide)
     | apply ev_evolves | apply fault_evolves | apply wrf_evolves | apply setPower_evolves | apply count_evolves
     | apply pmbSend_evolves | apply Evolves.ite | apply Evolves.foldl
  | intro _ | split | dsimp only

theorem voutSeen_evolves (s : State) (x1) (x2) (hm : 11990337 ||| m = m) (h : Evolves m u s) :
    Evolves m u (voutSeen s x1 x2) := by
  refine Evolves.step (k := 11990337) ?_ hm h; clear h hm; unfold voutSeen
  repeat' first
  | with_reducible first
     | apply Evolves.rfl | assumption | (apply lor_of_beq; focus decide)
     | apply pmbOk_evolves | apply setPower_evolves | apply pmbFailed_evolves | apply wr_evolves | apply Evolves.ite
     | apply Evolves.foldl
  | intro _ | split | dsimp only

theorem execVoutCheck_evolves (x0) (s1 : State) (hm : 11990337 ||| m = m) (h : Evolves m u s1) :
    Evolves m u (taken s1 (execVoutCheck x0 s1)) := by
  refine Evolves.step (k := 11990337) ?_ hm h; clear h hm; unfold execVoutCheck
  repeat' first
  | with_reducible first
     | apply Evolves.rfl | assumption | (apply lor_of_beq; focus decide)
     | apply Evolves.next | apply voutSeen_evolves | apply Evolves.ite | apply Evolves.foldl
  | intro _ | split | dsimp only

theorem sendPtp_evolves (s : State) (x1) (x2) (x3) (x4) (x5) (hm : 8388608 ||| m = m) (h : Evolves m u s) :
    Evolves m u (sendPtp s x1 x2 x3 x4 x5) := by
  refine Evolves.step (k := 8388608) ?_ hm h; clear h hm; unfold sendPtp
  repeat' first
  | with_reducible first
     | apply Evolves.rfl | assumption | (apply lor_of_beq; focus decide)
     | apply send_evolves | apply Evolves.ite | apply Evolves.foldl
  | intro _ | split | dsimp only

theorem execDelayReq_evolves (x0) (s1 : State) (hm : 8388608 ||| m = m) (h : Evolves m u s1) :
    Evolves m u (taken s1 (execDelayReq x0 s1)) := by
  refine Evolves.step (k := 8388608) ?_ hm h; clear h hm; unfold execDelayReq
  repeat' first
  | with_reducible first
     | apply Evolves.rfl | assumption | (apply lor_of_beq; focus decide)
     | apply Evolves.next | apply sendPtp_evolves | apply Evolves.ite | apply Evolves.foldl
  | intro _ | split | dsimp only

theorem sendDirty_evolves (s : State) (hm : 8421440 ||| m = m) (h : Evolves m u s) :
    Evolves m u (sendDirty s) := by
  refine Evolves.step (k := 8421440) ?_ hm h; clear h hm; unfold sendDirty
  repeat' first
  | with_reducible first
     | apply Evolves.rfl | assumption | (apply lor_of_beq; focus decide)
     | apply sendCopy_evolves | apply sendPieces_evolves | apply pairSendSeq_evolves | apply setPair_evolves
     | apply countN_evolves | apply Evolves.ite | apply Evolves.foldl
  | intro _ | split | dsimp only

theorem execCopyPassDone_evolves (s : State) (hm : 8421440 ||| m = m) (h : Evolves m u s) :
    Evolves m u (taken s (execCopyPassDone s)) := by
  refine Evolves.step (k := 8421440) ?_ hm h; clear h hm; unfold execCopyPassDone
  repeat' first
  | with_reducible first
     | apply Evolves.rfl | assumption | (apply lor_of_beq; focus decide)
     | apply Evolves.next | apply setPair_evolves | apply pairSendSeq_evolves | apply sendDirty_evolves
     | apply Evolves.ite | apply Evolves.foldl
  | intro _ | split | dsimp only

theorem openFrame_evolves (s : State) (x1) (x2) (x3) (x4) (hm : 8540225 ||| m = m) (h : Evolves m u s) :
    Evolves m u (openFrame s x1 x2 x3 x4) := by
  refine Evolves.step (k := 8540225) ?_ hm h; clear h hm; unfold openFrame
  repeat' first
  | with_reducible first
     | apply Evolves.rfl | assumption | (apply lor_of_beq; focus decide)
     | apply count_evolves | apply ev_evolves | apply setSlot_evolves | apply wrf_evolves | apply setCtx_evolves
     | apply closeFrame_evolves | fail_if_no_progress (apply Evolves.upd_16384; focus decide) | apply Evolves.ite
     | apply Evolves.foldl
  | intro _ | split | dsimp only

theorem execHello_evolves (x0) (s1 : State) (hm : 8425536 ||| m = m) (h : Evolves m u s1) :
    Evolves m u (taken s1 (execHello x0 s1)) := by
  refine Evolves.step (k := 8425536) ?_ hm h; clear h hm; unfold execHello
  repeat' first
  | with_reducible first
     | apply Evolves.rfl | assumption | (apply lor_of_beq; focus decide)
     | apply Evolves.next | apply hello_evolves | apply gshDiscard_evolves | apply rxDone_evolves | apply Evolves.ite
     | apply Evolves.foldl
  | intro _ | split | dsimp only

theorem freeEntries_evolves (s : State) (f1) (hm : 4096 ||| m = m) (h : Evolves m u s) :
    Evolves m u (freeEntries s f1) := by
  refine Evolves.step (k := 4096) ?_ hm h; clear h hm; unfold freeEntries
  repeat' first
  | with_reducible first
     | apply Evolves.rfl | assumption | (apply lor_of_beq; focus decide)
     | fail_if_no_progress (apply Evolves.upd_4096; focus decide) | apply Evolves.ite | apply Evolves.foldl
  | intro _ | split | dsimp only

theorem execFollowUp_evolves (x0) (s1 : State) (hm : 321 ||| m = m) (h : Evolves m u s1) :
    Evolves m u (taken s1 (execFollowUp x0 s1)) := by
  refine Evolves.step (k := 321) ?_ hm h; clear h hm; unfold execFollowUp
  repeat' first
  | with_reducible first
     | apply Evolves.rfl | assumption | (apply lor_of_beq; focus decide)
     | apply Evolves.next | apply setClk_evolves | apply offsetMeasured_evolves | apply count_evolves
     | apply Evolves.ite | apply Evolves.foldl
  | intro _ | split | dsimp only

theorem endTrims_evolves (s : State) (x1) (hm : 1 ||| m = m) (h : Evolves m u s) :
    Evolves m u (endTrims s x1) := by
  refine Evolves.step (k := 1) ?_ hm h; clear h hm; unfold endTrims
  repeat' first
  | with_reducible first
     | apply Evolves.rfl | assumption | (apply lor_of_beq; focus decide)
     | apply setTrimBusy_evolves | apply Evolves.ite | apply Evolves.foldl
  | intro _ | split | dsimp only

theorem selftestDone_evolves (s : State) (x1) (hm : 11728193 ||| m = m) (h : Evolves m u s) :
    Evolves m u (selftestDone s x1) := by
  refine Evolves.step (k := 11728193) ?_ hm h; clear h hm; unfold selftestDone
  repeat' first
  | with_reducible first
     | apply Evolves.rfl | assumption | (apply lor_of_beq; focus decide)
     | apply fault_evolves | apply slowSync_evolves | apply endTrims_evolves | apply wrf_evolves
     | fail_if_no_progress (apply Evolves.upd_1048576; focus decide) | apply Evolves.ite | apply Evolves.foldl
  | intro _ | split | dsimp only

theorem judgeImage_evolves (s : State) (x1) (hm : 11728193 ||| m = m) (h : Evolves m u s) :
    Evolves m u (judgeImage s x1) := by
  refine Evolves.step (k := 11728193) ?_ hm h; clear h hm; unfold judgeImage
  repeat' first
  | with_reducible first
     | apply Evolves.rfl | assumption | (apply lor_of_beq; focus decide)
     | apply slotFails_evolves | apply imageOk_evolves | apply Evolves.ite | apply Evolves.foldl
  | intro _ | split | dsimp only

theorem bootChoose_evolves (s : State) (hm : 1048641 ||| m = m) (h : Evolves m u s) :
    Evolves m u (bootChoose s) := by
  refine Evolves.step (k := 1048641) ?_ hm h; clear h hm; unfold bootChoose
  repeat' first
  | with_reducible first
     | apply Evolves.rfl | assumption | (apply lor_of_beq; focus decide)
     | apply count_evolves | apply wrf_evolves | fail_if_no_progress (apply Evolves.upd_1048576; focus decide)
     | apply Evolves.ite | apply Evolves.foldl
  | intro _ | split | dsimp only

theorem bootStep_evolves (s : State) (x1) (hm : 16777025 ||| m = m) (h : Evolves m u s) :
    Evolves m u (bootStep s x1) := by
  refine Evolves.step (k := 16777025) ?_ hm h; clear h hm; unfold bootStep
  repeat' first
  | with_reducible first
     | apply Evolves.rfl | assumption | (apply lor_of_beq; focus decide)
     | apply bootReady_evolves | apply selftestDone_evolves | apply wrf_evolves | apply fault_evolves
     | apply slowSync_evolves | apply bootTrims_evolves | apply endTrims_evolves | apply memTrained_evolves
     | apply judgeImage_evolves | apply bootChoose_evolves
     | fail_if_no_progress (apply Evolves.upd_1048576; focus decide) | apply Evolves.ite | apply Evolves.foldl
  | intro _ | split | dsimp only

theorem execDramSupplyLoss_evolves (s : State) (hm : 11730241 ||| m = m) (h : Evolves m u s) :
    Evolves m u (taken s (execDramSupplyLoss s)) := by
  refine Evolves.step (k := 11730241) ?_ hm h; clear h hm; unfold execDramSupplyLoss
  dsimp only
  refine Evolves.next ?_
  have hs : Evolves 11730241 s
      { s with
        dram := { s.dram with mem := [] }
        print := { s.print with jobs := [], tiles := [], windows := [], thawQueue := [] }
        host := { s.host with journal := [] }
        sys := { s.sys with ramLog := [] } } :=
      ⟨fun _ => rfl, fun _ => rfl, fun _ => rfl, fun _ => rfl, fun _ => rfl, fun _ => rfl, fun _ => rfl, fun _
      => rfl, fun _ => rfl, fun _ => rfl, fun b => absurd b (by decide), fun b => absurd b (by decide), fun b =>
      absurd b (by decide), fun _ => rfl, fun _ => rfl, fun _ => rfl, fun _ => rfl, fun _ => rfl, fun _ => rfl,
      fun _ => rfl, fun b => absurd b (by decide), fun _ => rfl, fun _ => rfl, fun _ => rfl, fun _ => rfl, fun _
      => rfl, List.prefix_rfl, Nat.le_refl _⟩
  split
  · exact journalLost_evolves _ (by decide) hs
  · exact Evolves.upd_1048576 (by decide) hs

theorem execHbSend_evolves (s : State) (hm : 8421440 ||| m = m) (h : Evolves m u s) :
    Evolves m u (taken s (execHbSend s)) := by
  refine Evolves.step (k := 8421440) ?_ hm h; clear h hm; unfold execHbSend
  repeat' first
  | with_reducible first
     | apply Evolves.rfl | assumption | (apply lor_of_beq; focus decide)
     | apply Evolves.next | apply setPair_evolves | apply pairPut_evolves | apply Evolves.ite | apply Evolves.foldl
  | intro _ | split | dsimp only

theorem replay_evolves (s : State) (x1) (x2) (x3) (hm : 8396864 ||| m = m) (h : Evolves m u s) :
    Evolves m u (replay s x1 x2 x3) := by
  refine Evolves.step (k := 8396864) ?_ hm h; clear h hm; unfold replay
  repeat' first
  | with_reducible first
     | apply Evolves.rfl | assumption | (apply lor_of_beq; focus decide)
     | apply flnSend_evolves | apply count_evolves | apply Evolves.ite | apply Evolves.foldl
  | intro _ | split | dsimp only

theorem refusePage_evolves (s : State) (x1) (hm : 8540225 ||| m = m) (h : Evolves m u s) :
    Evolves m u (refusePage s x1) := by
  refine Evolves.step (k := 8540225) ?_ hm h; clear h hm; unfold refusePage
  repeat' first
  | with_reducible first
     | apply Evolves.rfl | assumption | (apply lor_of_beq; focus decide)
     | apply commitRefused_evolves | apply forgetLoop_evolves | apply wr_evolves | apply Evolves.ite
     | apply Evolves.foldl
  | intro _ | split | dsimp only

theorem copyBank_evolves (s : State) (x1) (x2) (hm : 1 ||| m = m) (h : Evolves m u s) :
    Evolves m u (copyBank s x1 x2) := by
  refine Evolves.step (k := 1) ?_ hm h; clear h hm; unfold copyBank
  repeat' first
  | with_reducible first
     | apply Evolves.rfl | assumption | (apply lor_of_beq; focus decide)
     | apply wr_evolves | apply Evolves.ite | apply Evolves.foldl
  | intro _ | split | dsimp only

theorem changeTrims_evolves (s : State) (x1) (x2) (x3) (hm : 8540227 ||| m = m) (h : Evolves m u s) :
    Evolves m u (changeTrims s x1 x2 x3) := by
  refine Evolves.step (k := 8540227) ?_ hm h; clear h hm; unfold changeTrims
  repeat' first
  | with_reducible first
     | apply Evolves.rfl | assumption | (apply lor_of_beq; focus decide)
     | apply wrf_evolves | apply armLoop_evolves | apply wr_evolves | apply copyBank_evolves | apply Evolves.ite
     | apply Evolves.foldl
  | intro _ | split | dsimp only

theorem barResults_evolves (s : State) (x1) (x2) (x3) (x4) (hm : 11728195 ||| m = m) (h : Evolves m u s) :
    Evolves m u (barResults s x1 x2 x3 x4) := by
  refine Evolves.step (k := 11728195) ?_ hm h; clear h hm; unfold barResults
  repeat' first
  | with_reducible first
     | apply Evolves.rfl | assumption | (apply lor_of_beq; focus decide)
     | apply countN_evolves | apply changeTrims_evolves | apply ev_evolves | apply trimLimit_evolves
     | apply dropUpdate_evolves | apply count_evolves | apply setBar_evolves
     | fail_if_no_progress (apply Evolves.upd_16384; focus decide) | apply Evolves.ite | apply Evolves.foldl
  | intro _ | split | dsimp only

theorem applyLoop_evolves (s : State) (x1) (x2) (x3) (hm : 11728195 ||| m = m) (h : Evolves m u s) :
    Evolves m u (applyLoop s x1 x2 x3) := by
  refine Evolves.step (k := 11728195) ?_ hm h; clear h hm; unfold applyLoop
  repeat' first
  | with_reducible first
     | apply Evolves.rfl | assumption | (apply lor_of_beq; focus decide)
     | apply barResults_evolves | apply Evolves.ite | apply Evolves.foldl
  | intro _ | split | dsimp only

theorem discardArriving_evolves (s : State) (x1) (hm : 33792 ||| m = m) (h : Evolves m u s) :
    Evolves m u (discardArriving s x1) := by
  refine Evolves.step (k := 33792) ?_ hm h; clear h hm; unfold discardArriving
  repeat' first
  | with_reducible first
     | apply Evolves.rfl | assumption | (apply lor_of_beq; focus decide)
     | apply setTile_evolves | apply jobAlloc_evolves | apply markDirty_evolves | apply Evolves.ite
     | apply Evolves.foldl
  | intro _ | split | dsimp only

theorem setBuf_evolves (s : State) (x1) (hm : 1 ||| m = m) (h : Evolves m u s) :
    Evolves m u (setBuf s x1) := by
  refine Evolves.step (k := 1) ?_ hm h; clear h hm; unfold setBuf
  repeat' first
  | with_reducible first
     | apply Evolves.rfl | assumption | (apply lor_of_beq; focus decide)
     | apply wr_evolves | apply Evolves.ite | apply Evolves.foldl
  | intro _ | split | dsimp only

theorem execResetRecordCopy_evolves (s : State) (hm : 1048576 ||| m = m) (h : Evolves m u s) :
    Evolves m u (taken s (execResetRecordCopy s)) := by
  refine Evolves.step (k := 1048576) ?_ hm h; clear h hm; unfold execResetRecordCopy
  repeat' first
  | with_reducible first
     | apply Evolves.rfl | assumption | (apply lor_of_beq; focus decide)
     | apply Evolves.next | fail_if_no_progress (apply Evolves.upd_1048576; focus decide) | apply Evolves.ite
     | apply Evolves.foldl
  | intro _ | split | dsimp only

theorem execLatch_evolves (s : State) (hm : 12252483 ||| m = m) (h : Evolves m u s) :
    Evolves m u (taken s (execLatch s)) := by
  refine Evolves.step (k := 12252483) ?_ hm h; clear h hm; unfold execLatch
  repeat' first
  | with_reducible first
     | apply Evolves.rfl | assumption | (apply lor_of_beq; focus decide)
     | apply Evolves.next | apply dispCommit_evolves | apply ev_evolves | apply setDisp_evolves | apply Evolves.ite
     | apply Evolves.foldl
  | intro _ | split | dsimp only

theorem execHb_evolves (x0) (s1 : State) (hm : 15990599 ||| m = m) (h : Evolves m u s1) :
    Evolves m u (taken s1 (execHb x0 s1)) := by
  refine Evolves.step (k := 15990599) ?_ hm h; clear h hm; unfold execHb
  repeat' first
  | with_reducible first
     | apply Evolves.rfl | assumption | (apply lor_of_beq; focus decide)
     | apply Evolves.next | apply pairReceive_evolves | apply Evolves.ite | apply Evolves.foldl
  | intro _ | split | dsimp only

theorem storeCheck_evolves (s : State) (x1) (x2) (x3) (x4) (x5) (hm : 8426560 ||| m = m) (h : Evolves m u s) :
    Evolves m u (storeCheck s x1 x2 x3 x4 x5) := by
  refine Evolves.step (k := 8426560) ?_ hm h; clear h hm; unfold storeCheck
  repeat' first
  | with_reducible first
     | apply Evolves.rfl | assumption | (apply lor_of_beq; focus decide)
     | apply discardArriving_evolves | apply finishStatus_evolves | apply setTile_evolves | apply count_evolves
     | apply finish_evolves | apply markDirty_evolves | apply jobAlloc_evolves | apply Evolves.ite
     | apply Evolves.foldl
  | intro _ | split | dsimp only

theorem fragmentDone_evolves (s : State) (x1) (x2) (hm : 8428608 ||| m = m) (h : Evolves m u s) :
    Evolves m u (fragmentDone s x1 x2) := by
  refine Evolves.step (k := 8428608) ?_ hm h; clear h hm; unfold fragmentDone
  repeat' first
  | with_reducible first
     | apply Evolves.rfl | assumption | (apply lor_of_beq; focus decide)
     | apply setTile_evolves | apply finish_evolves | apply storeCheck_evolves | apply discardArriving_evolves
     | apply count_evolves | apply writeMem_evolves | apply finishStatus_evolves | apply Evolves.ite
     | apply Evolves.foldl
  | intro _ | split | dsimp only

theorem tilePutAt_evolves (s : State) (x1) (hm : 8559681 ||| m = m) (h : Evolves m u s) :
    Evolves m u (tilePutAt s x1) := by
  refine Evolves.step (k := 8559681) ?_ hm h; clear h hm; unfold tilePutAt
  repeat' first
  | with_reducible first
     | apply Evolves.rfl | assumption | (apply lor_of_beq; focus decide)
     | apply fragmentDone_evolves | apply tilePut_evolves | apply onEntry_evolves | apply Evolves.ite
     | apply Evolves.foldl
  | intro _ | split | dsimp only

theorem recoverTile_evolves (s : State) (x1) (hm : 11730241 ||| m = m) (h : Evolves m u s) :
    Evolves m u (recoverTile s x1) := by
  refine Evolves.step (k := 11730241) ?_ hm h; clear h hm; unfold recoverTile
  repeat' first
  | with_reducible first
     | apply Evolves.rfl | assumption | (apply lor_of_beq; focus decide)
     | apply recoverByPartner_evolves | apply recoveryEnd_evolves | apply dropFetches_evolves
     | apply enqueueThaw_evolves | apply count_evolves | apply setTile_evolves | apply Evolves.ite
     | apply Evolves.foldl
  | intro _ | split | dsimp only

theorem joinRecovery_evolves (s : State) (x1) (x2) (x3) (hm : 1025 ||| m = m) (h : Evolves m u s) :
    Evolves m u (joinRecovery s x1 x2 x3) := by
  refine Evolves.step (k := 1025) ?_ hm h; clear h hm; unfold joinRecovery
  repeat' first
  | with_reducible first
     | apply Evolves.rfl | assumption | (apply lor_of_beq; focus decide)
     | apply setWin_evolves | apply Evolves.ite | apply Evolves.foldl
  | intro _ | split | dsimp only

theorem fetchFails_evolves (s : State) (x1) (x2) (x3) (hm : 11730241 ||| m = m) (h : Evolves m u s) :
    Evolves m u (fetchFails s x1 x2 x3) := by
  refine Evolves.step (k := 11730241) ?_ hm h; clear h hm; unfold fetchFails
  repeat' first
  | with_reducible first
     | apply Evolves.rfl | assumption | (apply lor_of_beq; focus decide)
     | apply dropFetches_evolves | apply recoverTile_evolves | apply joinRecovery_evolves | apply Evolves.ite
     | apply Evolves.foldl
  | intro _ | split | dsimp only

theorem execTileFetchDone_evolves (x0) (x1) (x2) (s3 : State) (hm : 11730241 ||| m = m) (h : Evolves m u s3) :
    Evolves m u (taken s3 (execTileFetchDone x0 x1 x2 s3)) := by
  refine Evolves.step (k := 11730241) ?_ hm h; clear h hm; unfold execTileFetchDone
  repeat' first
  | with_reducible first
     | apply Evolves.rfl | assumption | (apply lor_of_beq; focus decide)
     | apply Evolves.next | apply fetchFails_evolves | apply recoveryEnd_evolves | apply setWin_evolves
     | apply Evolves.ite | apply Evolves.foldl
  | intro _ | split | dsimp only

theorem calFail_evolves (s : State) (x1) (x2) (x3) (hm : 11728193 ||| m = m) (h : Evolves m u s) :
    Evolves m u (calFail s x1 x2 x3) := by
  refine Evolves.step (k := 11728193) ?_ hm h; clear h hm; unfold calFail
  repeat' first
  | with_reducible first
     | apply Evolves.rfl | assumption | (apply lor_of_beq; focus decide)
     | apply putTrims_evolves | apply calEnd_evolves | apply trimFail_evolves | apply Evolves.ite
     | apply Evolves.foldl
  | intro _ | split | dsimp only

theorem execCalibrationBound_evolves (x0) (s1 : State) (hm : 11728193 ||| m = m) (h : Evolves m u s1) :
    Evolves m u (taken s1 (execCalibrationBound x0 s1)) := by
  refine Evolves.step (k := 11728193) ?_ hm h; clear h hm; unfold execCalibrationBound
  repeat' first
  | with_reducible first
     | apply Evolves.rfl | assumption | (apply lor_of_beq; focus decide)
     | apply Evolves.next | apply calFail_evolves | apply Evolves.ite | apply Evolves.foldl
  | intro _ | split | dsimp only

theorem execCameraPllStop_evolves (s : State) (hm : 262145 ||| m = m) (h : Evolves m u s) :
    Evolves m u (taken s (execCameraPllStop s)) := by
  refine Evolves.step (k := 262145) ?_ hm h; clear h hm; unfold execCameraPllStop
  repeat' first
  | with_reducible first
     | apply Evolves.rfl | assumption | (apply lor_of_beq; focus decide)
     | apply Evolves.next | apply wrf_evolves | apply setPower_evolves | apply Evolves.ite | apply Evolves.foldl
  | intro _ | split | dsimp only

theorem sendPdelayReq_evolves (s : State) (x1) (hm : 8388864 ||| m = m) (h : Evolves m u s) :
    Evolves m u (sendPdelayReq s x1) := by
  refine Evolves.step (k := 8388864) ?_ hm h; clear h hm; unfold sendPdelayReq
  repeat' first
  | with_reducible first
     | apply Evolves.rfl | assumption | (apply lor_of_beq; focus decide)
     | apply setClk_evolves | apply sendPtp_evolves | apply Evolves.ite | apply Evolves.foldl
  | intro _ | split | dsimp only

theorem execDelayRequestInterval_evolves (s : State) (hm : 8388928 ||| m = m) (h : Evolves m u s) :
    Evolves m u (taken s (execDelayRequestInterval s)) := by
  refine Evolves.step (k := 8388928) ?_ hm h; clear h hm; unfold execDelayRequestInterval
  repeat' first
  | with_reducible first
     | apply Evolves.rfl | assumption | (apply lor_of_beq; focus decide)
     | apply Evolves.next | apply setClk_evolves | apply sendPtp_evolves | apply count_evolves
     | apply sendPdelayReq_evolves | apply Evolves.ite | apply Evolves.foldl
  | intro _ | split | dsimp only

theorem execPtpAnnounceInterval_evolves (s : State) (hm : 8388864 ||| m = m) (h : Evolves m u s) :
    Evolves m u (taken s (execPtpAnnounceInterval s)) := by
  refine Evolves.step (k := 8388864) ?_ hm h; clear h hm; unfold execPtpAnnounceInterval
  repeat' first
  | with_reducible first
     | apply Evolves.rfl | assumption | (apply lor_of_beq; focus decide)
     | apply Evolves.next | apply sendPtp_evolves | apply setClk_evolves | apply Evolves.ite | apply Evolves.foldl
  | intro _ | split | dsimp only

theorem execPtpSyncInterval_evolves (s : State) (hm : 8388864 ||| m = m) (h : Evolves m u s) :
    Evolves m u (taken s (execPtpSyncInterval s)) := by
  refine Evolves.step (k := 8388864) ?_ hm h; clear h hm; unfold execPtpSyncInterval
  repeat' first
  | with_reducible first
     | apply Evolves.rfl | assumption | (apply lor_of_beq; focus decide)
     | apply Evolves.next | apply sendPtp_evolves | apply setClk_evolves | apply Evolves.ite | apply Evolves.foldl
  | intro _ | split | dsimp only

theorem execEthLinkChange_evolves (x0) (x1) (x2) (x3) (s4 : State) (hm : 4194305 ||| m = m) (h : Evolves m u s4) :
    Evolves m u (taken s4 (execEthLinkChange x0 x1 x2 x3 s4)) := by
  refine Evolves.step (k := 4194305) ?_ hm h; clear h hm; unfold execEthLinkChange
  repeat' first
  | with_reducible first
     | apply Evolves.rfl | assumption | (apply lor_of_beq; focus decide)
     | apply Evolves.next | apply wr_evolves | apply drawFree_evolves | apply Evolves.ite | apply Evolves.foldl
  | intro _ | split | dsimp only

theorem fullReset_evolves (s : State) (hm : 16777183 ||| m = m) (h : Evolves m u s) :
    Evolves m u (fullReset s) := by
  refine Evolves.step (k := 16777183) ?_ hm h; clear h hm; unfold fullReset
  refine (flashCut_evolves (m := 16777183) s (by decide) Evolves.rfl).trans ?_
  generalize flashCut s = s
  refine ptShowAll_evolves _ _ (by decide) ?_
  exact
    ⟨fun b => absurd b (by decide), fun b => absurd b (by decide), fun b => absurd b (by decide), fun b => absurd
    b (by decide), fun b => absurd b (by decide), fun _ => rfl, fun b => absurd b (by decide), fun b => absurd b
    (by decide), fun b => absurd b (by decide), fun b => absurd b (by decide), fun b => absurd b (by decide), fun
    b => absurd b (by decide), fun b => absurd b (by decide), fun b => absurd b (by decide), fun b => absurd b (by
    decide), fun b => absurd b (by decide), fun b => absurd b (by decide), fun b => absurd b (by decide), fun b =>
    absurd b (by decide), fun b => absurd b (by decide), fun b => absurd b (by decide), fun b => absurd b (by
    decide), fun b => absurd b (by decide), fun b => absurd b (by decide), fun _ => rfl, fun _ => rfl,
    List.prefix_rfl, Nat.le_refl _⟩

theorem execVddAonLoss_evolves (s : State) (hm : 16777183 ||| m = m) (h : Evolves m u s) :
    Evolves m u (taken s (execVddAonLoss s)) := by
  refine Evolves.step (k := 16777183) ?_ hm h; clear h hm; unfold execVddAonLoss
  repeat' first
  | with_reducible first
     | apply Evolves.rfl | assumption | (apply lor_of_beq; focus decide)
     | apply Evolves.next | apply fullReset_evolves | fail_if_no_progress (apply Evolves.upd_1048576; focus decide)
     | apply Evolves.ite | apply Evolves.foldl
  | intro _ | split | dsimp only

theorem sampleStraps_evolves (s : State) (x1) (hm : 1 ||| m = m) (h : Evolves m u s) :
    Evolves m u (sampleStraps s x1) := by
  refine Evolves.step (k := 1) ?_ hm h; clear h hm; unfold sampleStraps
  repeat' first
  | with_reducible first
     | apply Evolves.rfl | assumption | (apply lor_of_beq; focus decide)
     | apply wr_evolves | apply Evolves.ite | apply Evolves.foldl
  | intro _ | split | dsimp only

theorem execNresetRelease_evolves (x0) (s1 : State) (hm : 1048577 ||| m = m) (h : Evolves m u s1) :
    Evolves m u (taken s1 (execNresetRelease x0 s1)) := by
  refine Evolves.step (k := 1048577) ?_ hm h; clear h hm; unfold execNresetRelease
  repeat' first
  | with_reducible first
     | apply Evolves.rfl | assumption | (apply lor_of_beq; focus decide)
     | apply Evolves.next | apply sampleStraps_evolves | apply startBoot_evolves | apply Evolves.ite
     | apply Evolves.foldl
  | intro _ | split | dsimp only

theorem execHpdPlug_evolves (x0) (x1) (s2 : State) (hm : 12252481 ||| m = m) (h : Evolves m u s2) :
    Evolves m u (taken s2 (execHpdPlug x0 x1 s2)) := by
  refine Evolves.step (k := 12252481) ?_ hm h; clear h hm; unfold execHpdPlug
  repeat' first
  | with_reducible first
     | apply Evolves.rfl | assumption | (apply lor_of_beq; focus decide)
     | apply Evolves.next | apply setDisp_evolves | apply dispStart_evolves | apply Evolves.ite | apply Evolves.foldl
  | intro _ | split | dsimp only

theorem execMsixTableWrite_evolves (x0) (x1) (s2 : State) (hm : 8523840 ||| m = m) (h : Evolves m u s2) :
    Evolves m u (taken s2 (execMsixTableWrite x0 x1 s2)) := by
  refine Evolves.step (k := 8523840) ?_ hm h; clear h hm; unfold execMsixTableWrite
  repeat' first
  | with_reducible first
     | apply Evolves.rfl | assumption | (apply lor_of_beq; focus decide)
     | apply Evolves.next | apply setEvc_evolves | apply count_evolves | apply send_evolves
     | fail_if_no_progress (apply Evolves.upd_4096; focus decide) | apply Evolves.ite | apply Evolves.foldl
  | intro _ | split | dsimp only

theorem execTimeMessage_evolves (x0) (s1 : State) (hm : 15990599 ||| m = m) (h : Evolves m u s1) :
    Evolves m u (taken s1 (execTimeMessage x0 s1)) := by
  refine Evolves.step (k := 15990599) ?_ hm h; clear h hm; unfold execTimeMessage
  repeat' first
  | with_reducible first
     | apply Evolves.rfl | assumption | (apply lor_of_beq; focus decide)
     | apply Evolves.next | apply pairReceive_evolves | apply Evolves.ite | apply Evolves.foldl
  | intro _ | split | dsimp only

theorem execDramScrub_evolves (x0) (x1) (x2) (x3) (s4 : State) (hm : 11730241 ||| m = m) (h : Evolves m u s4) :
    Evolves m u (taken s4 (execDramScrub x0 x1 x2 x3 s4)) := by
  refine Evolves.step (k := 11730241) ?_ hm h; clear h hm; unfold execDramScrub
  repeat' first
  | with_reducible first
     | apply Evolves.rfl | assumption | (apply lor_of_beq; focus decide)
     | apply Evolves.next | apply count_evolves | apply askPartner_evolves | apply recoverTile_evolves
     | apply recoveryEnd_evolves | apply demand_evolves | apply Evolves.ite | apply Evolves.foldl
  | intro _ | split | dsimp only

theorem dramAt_evolves (s : State) (x1) (x2) (x3) (hm : 8388608 ||| m = m) (h : Evolves m u s) :
    Evolves m u (dramAt s x1 x2 x3) := by
  refine Evolves.step (k := 8388608) ?_ hm h; clear h hm; unfold dramAt
  repeat' first
  | with_reducible first
     | apply Evolves.rfl | assumption | (apply lor_of_beq; focus decide)
     | apply send_evolves | apply Evolves.ite | apply Evolves.foldl
  | intro _ | split | dsimp only

theorem touchRow_evolves (s : State) (x1) (x2) (x3) (hm : 2048 ||| m = m) (h : Evolves m u s) :
    Evolves m u (touchRow s x1 x2 x3) := by
  refine Evolves.step (k := 2048) ?_ hm h; clear h hm; unfold touchRow
  repeat' first
  | with_reducible first
     | apply Evolves.rfl | assumption | (apply lor_of_beq; focus decide)
     | apply setSub_evolves | apply Evolves.ite | apply Evolves.foldl
  | intro _ | split | dsimp only

theorem execRequestIssue_evolves (x0) (s1 : State) (hm : 8390721 ||| m = m) (h : Evolves m u s1) :
    Evolves m u (taken s1 (execRequestIssue x0 s1)) := by
  refine Evolves.step (k := 8390721) ?_ hm h; clear h hm; unfold execRequestIssue
  dsimp only
  refine Evolves.next ?_
  split
  · exact Evolves.rfl
  split
  · exact Evolves.rfl
  split
  · split
    · exact Evolves.rfl
    · exact enterSelf_evolves _ (by decide) (enterWaiting_evolves _ _ (by decide) (setDram_evolves _ _ _ (by decide)
        (Evolves.upd_2048 (by decide) (fun w => writeBlock_wf w _ _) (countN_evolves _ _ _ _ (by decide)
          (dramAt_evolves _ _ _ _ (by decide) (touchRow_evolves _ _ _ _ (by decide) Evolves.rfl))))))
  · split
    · exact Evolves.rfl
    · exact enterSelf_evolves _ (by decide) (enterWaiting_evolves _ _ (by decide) (setDram_evolves _ _ _ (by decide)
        (Evolves.upd_2048 (by decide) id (countRead_evolves _ _ _ (by decide)
          (dramAt_evolves _ _ _ _ (by decide) (touchRow_evolves _ _ _ _ (by decide) Evolves.rfl))))))

theorem execApplyTReached_evolves (x0) (s1 : State) (hm : 8396864 ||| m = m) (h : Evolves m u s1) :
    Evolves m u (taken s1 (execApplyTReached x0 s1)) := by
  refine Evolves.step (k := 8396864) ?_ hm h; clear h hm; unfold execApplyTReached
  repeat' first
  | with_reducible first
     | apply Evolves.rfl | assumption | (apply lor_of_beq; focus decide)
     | apply Evolves.next | apply flnSend_evolves | apply setLane_evolves | apply Evolves.ite | apply Evolves.foldl
  | intro _ | split | dsimp only

theorem execBringUpResend_evolves (x0) (s1 : State) (hm : 8396864 ||| m = m) (h : Evolves m u s1) :
    Evolves m u (taken s1 (execBringUpResend x0 s1)) := by
  refine Evolves.step (k := 8396864) ?_ hm h; clear h hm; unfold execBringUpResend
  repeat' first
  | with_reducible first
     | apply Evolves.rfl | assumption | (apply lor_of_beq; focus decide)
     | apply Evolves.next | apply flnSend_evolves | apply Evolves.ite | apply Evolves.foldl
  | intro _ | split | dsimp only

theorem execNvmDone_evolves (x0) (s1 : State) (hm : 13766721 ||| m = m) (h : Evolves m u s1) :
    Evolves m u (taken s1 (execNvmDone x0 s1)) := by
  refine Evolves.step (k := 13766721) ?_ hm h; clear h hm; unfold execNvmDone
  repeat' first
  | with_reducible first
     | apply Evolves.rfl | assumption | (apply lor_of_beq; focus decide)
     | apply Evolves.next | apply eraseAbandoned_evolves | apply spoil_evolves | apply setSector_evolves
     | apply setFlashPage_evolves | apply setBuf_evolves | apply nvmEnd_evolves | apply Evolves.ite
     | apply Evolves.foldl
  | intro _ | split | dsimp only

theorem nvProgram_evolves (s : State) (x1) (hm : 1048576 ||| m = m) (h : Evolves m u s) :
    Evolves m u (nvProgram s x1) := by
  refine Evolves.step (k := 1048576) ?_ hm h; clear h hm; unfold nvProgram
  repeat' first
  | with_reducible first
     | apply Evolves.rfl | assumption | (apply lor_of_beq; focus decide)
     | apply setFlashPage_evolves | apply setSector_evolves
     | fail_if_no_progress (apply Evolves.upd_1048576; focus decide) | apply Evolves.ite | apply Evolves.foldl
  | intro _ | split | dsimp only

theorem execNvLogProgram_evolves (s : State) (hm : 1048640 ||| m = m) (h : Evolves m u s) :
    Evolves m u (taken s (execNvLogProgram s)) := by
  refine Evolves.step (k := 1048640) ?_ hm h; clear h hm; unfold execNvLogProgram
  repeat' first
  | with_reducible first
     | apply Evolves.rfl | assumption | (apply lor_of_beq; focus decide)
     | apply Evolves.next | apply nvProgram_evolves | apply count_evolves
     | fail_if_no_progress (apply Evolves.upd_1048576; focus decide) | apply Evolves.ite | apply Evolves.foldl
  | intro _ | split | dsimp only

theorem execBootStepDone_evolves (x0) (s1 : State) (hm : 16777025 ||| m = m) (h : Evolves m u s1) :
    Evolves m u (taken s1 (execBootStepDone x0 s1)) := by
  refine Evolves.step (k := 16777025) ?_ hm h; clear h hm; unfold execBootStepDone
  repeat' first
  | with_reducible first
     | apply Evolves.rfl | assumption | (apply lor_of_beq; focus decide)
     | apply Evolves.next | apply bootStep_evolves | apply Evolves.ite | apply Evolves.foldl
  | intro _ | split | dsimp only

theorem enterReset_evolves (s : State) (hm : 16777183 ||| m = m) (h : Evolves m u s) :
    Evolves m u (enterReset s) := by
  refine Evolves.step (k := 16777183) ?_ hm h; clear h hm; unfold enterReset
  repeat' first
  | with_reducible first
     | apply Evolves.rfl | assumption | (apply lor_of_beq; focus decide)
     | apply releaseOutputs_evolves | apply volatileReset_evolves
     | fail_if_no_progress (apply Evolves.upd_1048576; focus decide) | apply Evolves.ite | apply Evolves.foldl
  | intro _ | split | dsimp only

theorem execNreset_evolves (x0) (s1 : State) (hm : 16777183 ||| m = m) (h : Evolves m u s1) :
    Evolves m u (taken s1 (execNreset x0 s1)) := by
  refine Evolves.step (k := 16777183) ?_ hm h; clear h hm; unfold execNreset
  repeat' first
  | with_reducible first
     | apply Evolves.rfl | assumption | (apply lor_of_beq; focus decide)
     | apply Evolves.next | apply drawFree_evolves | apply enterReset_evolves | apply Evolves.ite
     | apply Evolves.foldl
  | intro _ | split | dsimp only

theorem execPowerOnReset_evolves (x0) (s1 : State) (hm : 16777183 ||| m = m) (h : Evolves m u s1) :
    Evolves m u (taken s1 (execPowerOnReset x0 s1)) := by
  refine Evolves.step (k := 16777183) ?_ hm h; clear h hm; unfold execPowerOnReset
  repeat' first
  | with_reducible first
     | apply Evolves.rfl | assumption | (apply lor_of_beq; focus decide)
     | apply Evolves.next | apply fullReset_evolves | apply sampleStraps_evolves | apply startBoot_evolves
     | apply Evolves.ite | apply Evolves.foldl
  | intro _ | split | dsimp only

theorem crcCheck_evolves (s : State) (x1) (x2) (hm : 12252481 ||| m = m) (h : Evolves m u s) :
    Evolves m u (crcCheck s x1 x2) := by
  refine Evolves.step (k := 12252481) ?_ hm h; clear h hm; unfold crcCheck
  repeat' first
  | with_reducible first
     | apply Evolves.rfl | assumption | (apply lor_of_beq; focus decide)
     | apply fault_evolves | apply ev_evolves | apply count_evolves | apply setDisp_evolves | apply wr_evolves
     | apply Evolves.ite | apply Evolves.foldl
  | intro _ | split | dsimp only

theorem execFrameDone_evolves (x0) (s1 : State) (hm : 12252481 ||| m = m) (h : Evolves m u s1) :
    Evolves m u (taken s1 (execFrameDone x0 s1)) := by
  refine Evolves.step (k := 12252481) ?_ hm h; clear h hm; unfold execFrameDone
  repeat' first
  | with_reducible first
     | apply Evolves.rfl | assumption | (apply lor_of_beq; focus decide)
     | apply Evolves.next | apply setDisp_evolves | apply ev_evolves | apply crcCheck_evolves
     | apply rectCheck_evolves | apply count_evolves | apply wrf_evolves | apply Evolves.ite | apply Evolves.foldl
  | intro _ | split | dsimp only

theorem execLineMatch_evolves (s : State) (hm : 9048129 ||| m = m) (h : Evolves m u s) :
    Evolves m u (taken s (execLineMatch s)) := by
  refine Evolves.step (k := 9048129) ?_ hm h; clear h hm; unfold execLineMatch
  repeat' first
  | with_reducible first
     | apply Evolves.rfl | assumption | (apply lor_of_beq; focus decide)
     | apply Evolves.next | apply setDisp_evolves | apply ev_evolves | apply Evolves.ite | apply Evolves.foldl
  | intro _ | split | dsimp only

theorem execVblank_evolves (s : State) (hm : 8523841 ||| m = m) (h : Evolves m u s) :
    Evolves m u (taken s (execVblank s)) := by
  refine Evolves.step (k := 8523841) ?_ hm h; clear h hm; unfold execVblank
  repeat' first
  | with_reducible first
     | apply Evolves.rfl | assumption | (apply lor_of_beq; focus decide)
     | apply Evolves.next | apply ev_evolves | apply Evolves.ite | apply Evolves.foldl
  | intro _ | split | dsimp only

theorem execDispRetry_evolves (s : State) (hm : 12252481 ||| m = m) (h : Evolves m u s) :
    Evolves m u (taken s (execDispRetry s)) := by
  refine Evolves.step (k := 12252481) ?_ hm h; clear h hm; unfold execDispRetry
  repeat' first
  | with_reducible first
     | apply Evolves.rfl | assumption | (apply lor_of_beq; focus decide)
     | apply Evolves.next | apply dispStart_evolves | apply Evolves.ite | apply Evolves.foldl
  | intro _ | split | dsimp only

theorem execLtTimeout_evolves (s : State) (hm : 12252481 ||| m = m) (h : Evolves m u s) :
    Evolves m u (taken s (execLtTimeout s)) := by
  refine Evolves.step (k := 12252481) ?_ hm h; clear h hm; unfold execLtTimeout
  repeat' first
  | with_reducible first
     | apply Evolves.rfl | assumption | (apply lor_of_beq; focus decide)
     | apply Evolves.next | apply linkFail_evolves | apply trainAt_evolves | apply Evolves.ite | apply Evolves.foldl
  | intro _ | split | dsimp only

theorem execLinkTrainingDone_evolves (s : State) (hm : 8912896 ||| m = m) (h : Evolves m u s) :
    Evolves m u (taken s (execLinkTrainingDone s)) := by
  refine Evolves.step (k := 8912896) ?_ hm h; clear h hm; unfold execLinkTrainingDone
  repeat' first
  | with_reducible first
     | apply Evolves.rfl | assumption | (apply lor_of_beq; focus decide)
     | apply Evolves.next | apply setDisp_evolves | apply send_evolves | apply Evolves.ite | apply Evolves.foldl
  | intro _ | split | dsimp only

theorem execHpdUnplug_evolves (s : State) (hm : 9048129 ||| m = m) (h : Evolves m u s) :
    Evolves m u (taken s (execHpdUnplug s)) := by
  refine Evolves.step (k := 9048129) ?_ hm h; clear h hm; unfold execHpdUnplug
  repeat' first
  | with_reducible first
     | apply Evolves.rfl | assumption | (apply lor_of_beq; focus decide)
     | apply Evolves.next | apply setDisp_evolves | apply ev_evolves | apply Evolves.ite | apply Evolves.foldl
  | intro _ | split | dsimp only

theorem execCalDone_evolves (x0) (x1) (s2 : State) (hm : 11990337 ||| m = m) (h : Evolves m u s2) :
    Evolves m u (taken s2 (execCalDone x0 x1 s2)) := by
  refine Evolves.step (k := 11990337) ?_ hm h; clear h hm; unfold execCalDone
  repeat' first
  | with_reducible first
     | apply Evolves.rfl | assumption | (apply lor_of_beq; focus decide)
     | apply Evolves.next | apply calEnd_evolves | apply setTrimFail_evolves | apply ev_evolves
     | apply putTrims_evolves | apply applyTrims_evolves | apply calFail_evolves | apply Evolves.ite
     | apply Evolves.foldl
  | intro _ | split | dsimp only

theorem execPmbusTransaction_evolves (x0) (x1) (s2 : State) (hm : 11990337 ||| m = m) (h : Evolves m u s2) :
    Evolves m u (taken s2 (execPmbusTransaction x0 x1 s2)) := by
  refine Evolves.step (k := 11990337) ?_ hm h; clear h hm; unfold execPmbusTransaction
  repeat' first
  | with_reducible first
     | apply Evolves.rfl | assumption | (apply lor_of_beq; focus decide)
     | apply Evolves.next | apply wrf_evolves | apply wr_evolves | apply ev_evolves | apply fault_evolves
     | apply setPower_evolves | apply pmbOk_evolves | apply voutSeen_evolves | apply pmbFailed_evolves
     | apply Evolves.ite | apply Evolves.foldl
  | intro _ | split | dsimp only

theorem setVcore_evolves (s : State) (x1) (hm : 8388673 ||| m = m) (h : Evolves m u s) :
    Evolves m u (setVcore s x1) := by
  refine Evolves.step (k := 8388673) ?_ hm h; clear h hm; unfold setVcore
  repeat' first
  | with_reducible first
     | apply Evolves.rfl | assumption | (apply lor_of_beq; focus decide)
     | apply count_evolves | apply pmbSend_evolves | apply wr_evolves | apply Evolves.ite | apply Evolves.foldl
  | intro _ | split | dsimp only

theorem avsStep_evolves (s : State) (x1) (hm : 11990337 ||| m = m) (h : Evolves m u s) :
    Evolves m u (avsStep s x1) := by
  refine Evolves.step (k := 11990337) ?_ hm h; clear h hm; unfold avsStep
  repeat' first
  | with_reducible first
     | apply Evolves.rfl | assumption | (apply lor_of_beq; focus decide)
     | apply setVcore_evolves | apply ev_evolves | apply fault_evolves | apply setPower_evolves | apply Evolves.ite
     | apply Evolves.foldl
  | intro _ | split | dsimp only

theorem execRoCount_evolves (x0) (s1 : State) (hm : 11990337 ||| m = m) (h : Evolves m u s1) :
    Evolves m u (taken s1 (execRoCount x0 s1)) := by
  refine Evolves.step (k := 11990337) ?_ hm h; clear h hm; unfold execRoCount
  repeat' first
  | with_reducible first
     | apply Evolves.rfl | assumption | (apply lor_of_beq; focus decide)
     | apply Evolves.next | apply avsStep_evolves | apply wr_evolves | apply Evolves.ite | apply Evolves.foldl
  | intro _ | split | dsimp only

theorem critCheck_evolves (s : State) (x1) (x2) (hm : 11990337 ||| m = m) (h : Evolves m u s) :
    Evolves m u (critCheck s x1 x2) := by
  refine Evolves.step (k := 11990337) ?_ hm h; clear h hm; unfold critCheck
  repeat' first
  | with_reducible first
     | apply Evolves.rfl | assumption | (apply lor_of_beq; focus decide)
     | apply ev_evolves | apply fault_evolves | apply setRail_evolves | apply Evolves.ite | apply Evolves.foldl
  | intro _ | split | dsimp only

theorem trimsSeen_evolves (s : State) (x1) (hm : 262144 ||| m = m) (h : Evolves m u s) :
    Evolves m u (trimsSeen s x1) := by
  refine Evolves.step (k := 262144) ?_ hm h; clear h hm; unfold trimsSeen
  repeat' first
  | with_reducible first
     | apply Evolves.rfl | assumption | (apply lor_of_beq; focus decide)
     | apply setPower_evolves | apply Evolves.ite | apply Evolves.foldl
  | intro _ | split | dsimp only

theorem execVoltageConversion_evolves (x0) (s1 : State) (hm : 11990337 ||| m = m) (h : Evolves m u s1) :
    Evolves m u (taken s1 (execVoltageConversion x0 s1)) := by
  refine Evolves.step (k := 11990337) ?_ hm h; clear h hm; unfold execVoltageConversion
  repeat' first
  | with_reducible first
     | apply Evolves.rfl | assumption | (apply lor_of_beq; focus decide)
     | apply Evolves.next | apply warnCheck_evolves | apply critCheck_evolves | apply trimsSeen_evolves
     | apply wr_evolves | apply Evolves.ite | apply Evolves.foldl
  | intro _ | split | dsimp only

theorem execHoldExpiry_evolves (s : State) (hm : 262144 ||| m = m) (h : Evolves m u s) :
    Evolves m u (taken s (execHoldExpiry s)) := by
  refine Evolves.step (k := 262144) ?_ hm h; clear h hm; unfold execHoldExpiry
  repeat' first
  | with_reducible first
     | apply Evolves.rfl | assumption | (apply lor_of_beq; focus decide)
     | apply Evolves.next | apply setPower_evolves | apply Evolves.ite | apply Evolves.foldl
  | intro _ | split | dsimp only

theorem execTripRestart_evolves (x0) (s1 : State) (hm : 1310721 ||| m = m) (h : Evolves m u s1) :
    Evolves m u (taken s1 (execTripRestart x0 s1)) := by
  refine Evolves.step (k := 1310721) ?_ hm h; clear h hm; unfold execTripRestart
  repeat' first
  | with_reducible first
     | apply Evolves.rfl | assumption | (apply lor_of_beq; focus decide)
     | apply Evolves.next | apply startBoot_evolves | apply setPower_evolves
     | fail_if_no_progress (apply Evolves.upd_1048576; focus decide) | apply Evolves.ite | apply Evolves.foldl
  | intro _ | split | dsimp only

theorem execThermalStopDone_evolves (s : State) (hm : 11990337 ||| m = m) (h : Evolves m u s) :
    Evolves m u (taken s (execThermalStopDone s)) := by
  refine Evolves.step (k := 11990337) ?_ hm h; clear h hm; unfold execThermalStopDone
  repeat' first
  | with_reducible first
     | apply Evolves.rfl | assumption | (apply lor_of_beq; focus decide)
     | apply Evolves.next | apply fault_evolves | apply ev_evolves | apply setPower_evolves
     | fail_if_no_progress (apply Evolves.upd_1024; focus decide) | apply Evolves.ite | apply Evolves.foldl
  | intro _ | split | dsimp only

theorem execTempMeasurement_evolves (x0) (s1 : State) (hm : 16777183 ||| m = m) (h : Evolves m u s1) :
    Evolves m u (taken s1 (execTempMeasurement x0 s1)) := by
  refine Evolves.step (k := 16777183) ?_ hm h; clear h hm; unfold execTempMeasurement
  repeat' first
  | with_reducible first
     | apply Evolves.rfl | assumption | (apply lor_of_beq; focus decide)
     | apply Evolves.next | apply measure_evolves | apply trip_evolves | apply trimsSeen_evolves
     | apply setPower_evolves | apply Evolves.ite | apply Evolves.foldl
  | intro _ | split | dsimp only

theorem execXtalRestore_evolves (s : State) (hm : 262144 ||| m = m) (h : Evolves m u s) :
    Evolves m u (taken s (execXtalRestore s)) := by
  refine Evolves.step (k := 262144) ?_ hm h; clear h hm; unfold execXtalRestore
  repeat' first
  | with_reducible first
     | apply Evolves.rfl | assumption | (apply lor_of_beq; focus decide)
     | apply Evolves.next | apply setPower_evolves | apply Evolves.ite | apply Evolves.foldl
  | intro _ | split | dsimp only

theorem execXtalFail_evolves (s : State) (hm : 11990337 ||| m = m) (h : Evolves m u s) :
    Evolves m u (taken s (execXtalFail s)) := by
  refine Evolves.step (k := 11990337) ?_ hm h; clear h hm; unfold execXtalFail
  repeat' first
  | with_reducible first
     | apply Evolves.rfl | assumption | (apply lor_of_beq; focus decide)
     | apply Evolves.next | apply setPower_evolves | apply ev_evolves | apply fault_evolves | apply Evolves.ite
     | apply Evolves.foldl
  | intro _ | split | dsimp only

theorem wakeCold_evolves (s : State) (hm : 16777183 ||| m = m) (h : Evolves m u s) :
    Evolves m u (wakeCold s) := by
  refine Evolves.step (k := 16777183) ?_ hm h; clear h hm; unfold wakeCold
  have hv := volatileReset_evolves (m := 16777183) (u := s) s true (by decide) Evolves.rfl
  refine startBoot_evolves _ _ _ (by decide) ?_
  dsimp only
  generalize volatileReset s true = t at hv
  obtain ⟨h0, h1, h2, h3, h4, h5, h6, h7, h8, h9, h10, h11, h12, h13, h14, h15, h16, h17, h18, h19, _, h21, h22, h23, h24, hW, _, hF⟩ := hv
  exact ⟨h0, h1, h2, h3, h4, h5, h6, h7, h8, h9, h10, h11, h12, h13, h14, h15, h16, h17, h18, h19, fun b => absurd b (by decide), h21, h22, fun _ => rfl, h24, hW, List.prefix_rfl, hF⟩

theorem execWakeDone_evolves (x0) (s1 : State) (hm : 16777183 ||| m = m) (h : Evolves m u s1) :
    Evolves m u (taken s1 (execWakeDone x0 s1)) := by
  refine Evolves.step (k := 16777183) ?_ hm h; clear h hm; unfold execWakeDone
  repeat' first
  | with_reducible first
     | apply Evolves.rfl | assumption | (apply lor_of_beq; focus decide)
     | apply Evolves.next | apply wakeCold_evolves | apply wakeDeep_evolves | apply wakeDoze_evolves
     | apply Evolves.ite | apply Evolves.foldl
  | intro _ | split | dsimp only

theorem execWake_evolves (x0) (x1) (s2 : State) (hm : 262209 ||| m = m) (h : Evolves m u s2) :
    Evolves m u (taken s2 (execWake x0 x1 s2)) := by
  refine Evolves.step (k := 262209) ?_ hm h; clear h hm; unfold execWake
  repeat' first
  | with_reducible first
     | apply Evolves.rfl | assumption | (apply lor_of_beq; focus decide)
     | apply Evolves.next | apply setPower_evolves | apply wr_evolves | apply count_evolves | apply Evolves.ite
     | apply Evolves.foldl
  | intro _ | split | dsimp only

theorem execSrccfgWrite_evolves (x0) (x1) (x2) (s3 : State) (hm : 8523841 ||| m = m) (h : Evolves m u s3) :
    Evolves m u (taken s3 (execSrccfgWrite x0 x1 x2 s3)) := by
  refine Evolves.step (k := 8523841) ?_ hm h; clear h hm; unfold execSrccfgWrite
  repeat' first
  | with_reducible first
     | apply Evolves.rfl | assumption | (apply lor_of_beq; focus decide)
     | apply Evolves.next | apply srccfgSet_evolves | apply Evolves.ite | apply Evolves.foldl
  | intro _ | split | dsimp only

theorem execEvmsgRepeat_evolves (s : State) (hm : 8392768 ||| m = m) (h : Evolves m u s) :
    Evolves m u (taken s (execEvmsgRepeat s)) := by
  refine Evolves.step (k := 8392768) ?_ hm h; clear h hm; unfold execEvmsgRepeat
  repeat' first
  | with_reducible first
     | apply Evolves.rfl | assumption | (apply lor_of_beq; focus decide)
     | apply Evolves.next | apply sendEvents_evolves | apply Evolves.ite | apply Evolves.foldl
  | intro _ | split | dsimp only

theorem edgeEvent_evolves (s : State) (x1) (hm : 8523840 ||| m = m) (h : Evolves m u s) :
    Evolves m u (edgeEvent s x1) := by
  refine Evolves.step (k := 8523840) ?_ hm h; clear h hm; unfold edgeEvent
  repeat' first
  | with_reducible first
     | apply Evolves.rfl | assumption | (apply lor_of_beq; focus decide)
     | apply setEvc_evolves | apply notify_evolves | apply count_evolves | apply Evolves.ite | apply Evolves.foldl
  | intro _ | split | dsimp only

theorem execGpioEdge_evolves (x0) (x1) (s2 : State) (hm : 8523840 ||| m = m) (h : Evolves m u s2) :
    Evolves m u (taken s2 (execGpioEdge x0 x1 s2)) := by
  refine Evolves.step (k := 8523840) ?_ hm h; clear h hm; unfold execGpioEdge
  repeat' first
  | with_reducible first
     | apply Evolves.rfl | assumption | (apply lor_of_beq; focus decide)
     | apply Evolves.next | apply edgeEvent_evolves | apply notify_evolves | apply setEvc_evolves | apply Evolves.ite
     | apply Evolves.foldl
  | intro _ | split | dsimp only

theorem execCompareFire_evolves (x0) (s1 : State) (hm : 8605761 ||| m = m) (h : Evolves m u s1) :
    Evolves m u (taken s1 (execCompareFire x0 s1)) := by
  refine Evolves.step (k := 8605761) ?_ hm h; clear h hm; unfold execCompareFire
  repeat' first
  | with_reducible first
     | apply Evolves.rfl | assumption | (apply lor_of_beq; focus decide)
     | apply Evolves.next | apply cmpFire_evolves | apply Evolves.ite | apply Evolves.foldl
  | intro _ | split | dsimp only

theorem limitHoming_evolves (s : State) (x1) (x2) (hm : 11793729 ||| m = m) (h : Evolves m u s) :
    Evolves m u (limitHoming s x1 x2) := by
  refine Evolves.step (k := 11793729) ?_ hm h; clear h hm; unfold limitHoming
  repeat' first
  | with_reducible first
     | apply Evolves.rfl | assumption | (apply lor_of_beq; focus decide)
     | apply homingFail_evolves | apply planEnd_evolves | apply homeLatch_evolves | apply setAxis_evolves
     | apply Evolves.ite | apply Evolves.foldl
  | intro _ | split | dsimp only

theorem execLimitAssert_evolves (x0) (x1) (s2 : State) (hm : 11793729 ||| m = m) (h : Evolves m u s2) :
    Evolves m u (taken s2 (execLimitAssert x0 x1 s2)) := by
  refine Evolves.step (k := 11793729) ?_ hm h; clear h hm; unfold execLimitAssert
  repeat' first
  | with_reducible first
     | apply Evolves.rfl | assumption | (apply lor_of_beq; focus decide)
     | apply Evolves.next | apply quickStop_evolves | apply fault_evolves | apply limitHoming_evolves
     | apply setAxis_evolves | apply count_evolves | apply ev_evolves | apply Evolves.ite | apply Evolves.foldl
  | intro _ | split | dsimp only

theorem execStep_evolves (x0) (s1 : State) (hm : 8454208 ||| m = m) (h : Evolves m u s1) :
    Evolves m u (taken s1 (execStep x0 s1)) := by
  refine Evolves.step (k := 8454208) ?_ hm h; clear h hm; unfold execStep
  repeat' first
  | with_reducible first
     | apply Evolves.rfl | assumption | (apply lor_of_beq; focus decide)
     | apply Evolves.next | apply send_evolves | apply count_evolves | apply setAxis_evolves | apply Evolves.ite
     | apply Evolves.foldl
  | intro _ | split | dsimp only

theorem execRatioApply_evolves (x0) (s1 : State) (hm : 8589377 ||| m = m) (h : Evolves m u s1) :
    Evolves m u (taken s1 (execRatioApply x0 s1)) := by
  refine Evolves.step (k := 8589377) ?_ hm h; clear h hm; unfold execRatioApply
  repeat' first
  | with_reducible first
     | apply Evolves.rfl | assumption | (apply lor_of_beq; focus decide)
     | apply Evolves.next | apply applyRatio_evolves | apply Evolves.ite | apply Evolves.foldl
  | intro _ | split | dsimp only

theorem execProfileUpdate_evolves (x0) (s1 : State) (hm : 8589377 ||| m = m) (h : Evolves m u s1) :
    Evolves m u (taken s1 (execProfileUpdate x0 s1)) := by
  refine Evolves.step (k := 8589377) ?_ hm h; clear h hm; unfold execProfileUpdate
  repeat' first
  | with_reducible first
     | apply Evolves.rfl | assumption | (apply lor_of_beq; focus decide)
     | apply Evolves.next | apply planEnd_evolves | apply setAxis_evolves | apply sourceEvent_evolves
     | apply Evolves.ite | apply Evolves.foldl
  | intro _ | split | dsimp only

theorem execCopyTimeout_evolves (s : State) (hm : 11728193 ||| m = m) (h : Evolves m u s) :
    Evolves m u (taken s (execCopyTimeout s)) := by
  refine Evolves.step (k := 11728193) ?_ hm h; clear h hm; unfold execCopyTimeout
  repeat' first
  | with_reducible first
     | apply Evolves.rfl | assumption | (apply lor_of_beq; focus decide)
     | apply Evolves.next | apply joinFail_evolves | apply Evolves.ite | apply Evolves.foldl
  | intro _ | split | dsimp only

theorem execFormTimeout_evolves (s : State) (hm : 11793729 ||| m = m) (h : Evolves m u s) :
    Evolves m u (taken s (execFormTimeout s)) := by
  refine Evolves.step (k := 11793729) ?_ hm h; clear h hm; unfold execFormTimeout
  repeat' first
  | with_reducible first
     | apply Evolves.rfl | assumption | (apply lor_of_beq; focus decide)
     | apply Evolves.next | apply becomeActive_evolves | apply pairRecord_evolves | apply Evolves.ite
     | apply Evolves.foldl
  | intro _ | split | dsimp only

theorem execRetry_evolves (x0) (s1 : State) (hm : 8421440 ||| m = m) (h : Evolves m u s1) :
    Evolves m u (taken s1 (execRetry x0 s1)) := by
  refine Evolves.step (k := 8421440) ?_ hm h; clear h hm; unfold execRetry
  repeat' first
  | with_reducible first
     | apply Evolves.rfl | assumption | (apply lor_of_beq; focus decide)
     | apply Evolves.next | apply pairPut_evolves | apply count_evolves | apply setPair_evolves | apply Evolves.ite
     | apply Evolves.foldl
  | intro _ | split | dsimp only

theorem execTileReq_evolves (x0) (s1 : State) (hm : 15990599 ||| m = m) (h : Evolves m u s1) :
    Evolves m u (taken s1 (execTileReq x0 s1)) := by
  refine Evolves.step (k := 15990599) ?_ hm h; clear h hm; unfold execTileReq
  repeat' first
  | with_reducible first
     | apply Evolves.rfl | assumption | (apply lor_of_beq; focus decide)
     | apply Evolves.next | apply pairReceive_evolves | apply Evolves.ite | apply Evolves.foldl
  | intro _ | split | dsimp only

theorem execCheckInput_evolves (s : State) (hm : 8421440 ||| m = m) (h : Evolves m u s) :
    Evolves m u (taken s (execCheckInput s)) := by
  refine Evolves.step (k := 8421440) ?_ hm h; clear h hm; unfold execCheckInput
  repeat' first
  | with_reducible first
     | apply Evolves.rfl | assumption | (apply lor_of_beq; focus decide)
     | apply Evolves.next | apply takeInput_evolves | apply Evolves.ite | apply Evolves.foldl
  | intro _ | split | dsimp only

theorem execPosition_evolves (x0) (s1 : State) (hm : 15990599 ||| m = m) (h : Evolves m u s1) :
    Evolves m u (taken s1 (execPosition x0 s1)) := by
  refine Evolves.step (k := 15990599) ?_ hm h; clear h hm; unfold execPosition
  repeat' first
  | with_reducible first
     | apply Evolves.rfl | assumption | (apply lor_of_beq; focus decide)
     | apply Evolves.next | apply pairReceive_evolves | apply Evolves.ite | apply Evolves.foldl
  | intro _ | split | dsimp only

theorem execCopyCtrl_evolves (x0) (s1 : State) (hm : 15990599 ||| m = m) (h : Evolves m u s1) :
    Evolves m u (taken s1 (execCopyCtrl x0 s1)) := by
  refine Evolves.step (k := 15990599) ?_ hm h; clear h hm; unfold execCopyCtrl
  repeat' first
  | with_reducible first
     | apply Evolves.rfl | assumption | (apply lor_of_beq; focus decide)
     | apply Evolves.next | apply pairReceive_evolves | apply Evolves.ite | apply Evolves.foldl
  | intro _ | split | dsimp only

theorem execCopy_evolves (x0) (s1 : State) (hm : 15990599 ||| m = m) (h : Evolves m u s1) :
    Evolves m u (taken s1 (execCopy x0 s1)) := by
  refine Evolves.step (k := 15990599) ?_ hm h; clear h hm; unfold execCopy
  repeat' first
  | with_reducible first
     | apply Evolves.rfl | assumption | (apply lor_of_beq; focus decide)
     | apply Evolves.next | apply pairReceive_evolves | apply Evolves.ite | apply Evolves.foldl
  | intro _ | split | dsimp only

theorem execCrcWait_evolves (x0) (x1) (s2 : State) (hm : 11728193 ||| m = m) (h : Evolves m u s2) :
    Evolves m u (taken s2 (execCrcWait x0 x1 s2)) := by
  refine Evolves.step (k := 11728193) ?_ hm h; clear h hm; unfold execCrcWait
  repeat' first
  | with_reducible first
     | apply Evolves.rfl | assumption | (apply lor_of_beq; focus decide)
     | apply Evolves.next | apply dropLine_evolves | apply count_evolves | apply lineDiffers_evolves
     | apply Evolves.ite | apply Evolves.foldl
  | intro _ | split | dsimp only

theorem execCrcMessage_evolves (x0) (s1 : State) (hm : 15990599 ||| m = m) (h : Evolves m u s1) :
    Evolves m u (taken s1 (execCrcMessage x0 s1)) := by
  refine Evolves.step (k := 15990599) ?_ hm h; clear h hm; unfold execCrcMessage
  repeat' first
  | with_reducible first
     | apply Evolves.rfl | assumption | (apply lor_of_beq; focus decide)
     | apply Evolves.next | apply pairReceive_evolves | apply Evolves.ite | apply Evolves.foldl
  | intro _ | split | dsimp only

theorem pinInput_evolves (s : State) (x1) (hm : 65536 ||| m = m) (h : Evolves m u s) :
    Evolves m u (pinInput s x1) := by
  refine Evolves.step (k := 65536) ?_ hm h; clear h hm; unfold pinInput
  repeat' first
  | with_reducible first
     | apply Evolves.rfl | assumption | (apply lor_of_beq; focus decide)
     | apply setAxis_evolves | apply Evolves.ite | apply Evolves.foldl
  | intro _ | split | dsimp only

theorem applyNozzleInput_evolves (s : State) (x1) (x2) (hm : 11728195 ||| m = m) (h : Evolves m u s) :
    Evolves m u (applyNozzleInput s x1 x2) := by
  refine Evolves.step (k := 11728195) ?_ hm h; clear h hm; unfold applyNozzleInput
  repeat' first
  | with_reducible first
     | apply Evolves.rfl | assumption | (apply lor_of_beq; focus decide)
     | apply applyNozzles_evolves | apply dropUpdate_evolves | apply Evolves.ite | apply Evolves.foldl
  | intro _ | split | dsimp only

theorem applyLoopInput_evolves (s : State) (x1) (x2) (hm : 11728195 ||| m = m) (h : Evolves m u s) :
    Evolves m u (applyLoopInput s x1 x2) := by
  refine Evolves.step (k := 11728195) ?_ hm h; clear h hm; unfold applyLoopInput
  repeat' first
  | with_reducible first
     | apply Evolves.rfl | assumption | (apply lor_of_beq; focus decide)
     | apply applyLoop_evolves | apply dropUpdate_evolves | apply Evolves.ite | apply Evolves.foldl
  | intro _ | split | dsimp only

theorem retireNow_evolves (s : State) (x1) (x2) (hm : 8425536 ||| m = m) (h : Evolves m u s) :
    Evolves m u (retireNow s x1 x2) := by
  refine Evolves.step (k := 8425536) ?_ hm h; clear h hm; unfold retireNow
  repeat' first
  | with_reducible first
     | apply Evolves.rfl | assumption | (apply lor_of_beq; focus decide)
     | apply freeEntries_evolves | apply closeIfDone_evolves | apply Evolves.ite | apply Evolves.foldl
  | intro _ | split | dsimp only

theorem retireInput_evolves (s : State) (x1) (hm : 8425536 ||| m = m) (h : Evolves m u s) :
    Evolves m u (retireInput s x1) := by
  refine Evolves.step (k := 8425536) ?_ hm h; clear h hm; unfold retireInput
  repeat' first
  | with_reducible first
     | apply Evolves.rfl | assumption | (apply lor_of_beq; focus decide)
     | apply retireNow_evolves | fail_if_no_progress (apply Evolves.upd_4096; focus decide) | apply Evolves.ite
     | apply Evolves.foldl
  | intro _ | split | dsimp only

theorem commandInput_evolves (s : State) (x1) (hm : 16777183 ||| m = m) (h : Evolves m u s) :
    Evolves m u (commandInput s x1) := by
  refine Evolves.step (k := 16777183) ?_ hm h; clear h hm; unfold commandInput
  repeat' first
  | with_reducible first
     | apply Evolves.rfl | assumption | (apply lor_of_beq; focus decide)
     | apply tilePutAt_evolves | apply writePairs_evolves | fail_if_no_progress (apply Evolves.upd_4096; focus decide)
     | apply Evolves.ite | apply Evolves.foldl
  | intro _ | split | dsimp only

theorem applyInput_evolves (s : State) (x1) (hm : 16777183 ||| m = m) (h : Evolves m u s) :
    Evolves m u (applyInput s x1) := by
  refine Evolves.step (k := 16777183) ?_ hm h; clear h hm; unfold applyInput
  repeat' first
  | with_reducible first
     | apply Evolves.rfl | assumption | (apply lor_of_beq; focus decide)
     | apply applySwitch_evolves | apply applyCheck_evolves | apply pinInput_evolves | apply armSnapshot_evolves
     | apply ev_evolves | apply applyStart_evolves | apply acceptMark_evolves | apply drypDone_evolves
     | apply applyNozzleInput_evolves | apply applyLoopInput_evolves | apply retireInput_evolves
     | apply commandInput_evolves | apply Evolves.ite | apply Evolves.foldl
  | intro _ | split | dsimp only

theorem execInputApply_evolves (s : State) (hm : 16777183 ||| m = m) (h : Evolves m u s) :
    Evolves m u (taken s (execInputApply s)) := by
  refine Evolves.step (k := 16777183) ?_ hm h; clear h hm; unfold execInputApply
  repeat' first
  | with_reducible first
     | apply Evolves.rfl | assumption | (apply lor_of_beq; focus decide)
     | apply Evolves.next | apply count_evolves | apply applyInput_evolves
     | fail_if_no_progress (apply Evolves.upd_32768; focus decide) | apply Evolves.ite | apply Evolves.foldl
  | intro _ | split | dsimp only

theorem execInput_evolves (x0) (s1 : State) (hm : 15990599 ||| m = m) (h : Evolves m u s1) :
    Evolves m u (taken s1 (execInput x0 s1)) := by
  refine Evolves.step (k := 15990599) ?_ hm h; clear h hm; unfold execInput
  repeat' first
  | with_reducible first
     | apply Evolves.rfl | assumption | (apply lor_of_beq; focus decide)
     | apply Evolves.next | apply pairReceive_evolves | apply Evolves.ite | apply Evolves.foldl
  | intro _ | split | dsimp only

theorem execPairFault_evolves (x0) (s1 : State) (hm : 15990599 ||| m = m) (h : Evolves m u s1) :
    Evolves m u (taken s1 (execPairFault x0 s1)) := by
  refine Evolves.step (k := 15990599) ?_ hm h; clear h hm; unfold execPairFault
  repeat' first
  | with_reducible first
     | apply Evolves.rfl | assumption | (apply lor_of_beq; focus decide)
     | apply Evolves.next | apply pairReceive_evolves | apply Evolves.ite | apply Evolves.foldl
  | intro _ | split | dsimp only

theorem execHbTimeout_evolves (s : State) (hm : 11793729 ||| m = m) (h : Evolves m u s) :
    Evolves m u (taken s (execHbTimeout s)) := by
  refine Evolves.step (k := 11793729) ?_ hm h; clear h hm; unfold execHbTimeout
  repeat' first
  | with_reducible first
     | apply Evolves.rfl | assumption | (apply lor_of_beq; focus decide)
     | apply Evolves.next | apply partnerStopped_evolves | apply endCopy_evolves | apply ev_evolves
     | apply pairRecord_evolves | apply clearRuns_evolves | apply setPair_evolves | apply Evolves.ite
     | apply Evolves.foldl
  | intro _ | split | dsimp only

theorem execTcForward_evolves (x0) (x1) (x2) (x3) (x4) (s5 : State) (hm : 8388672 ||| m = m) (h : Evolves m u s5) :
    Evolves m u (taken s5 (execTcForward x0 x1 x2 x3 x4 s5)) := by
  refine Evolves.step (k := 8388672) ?_ hm h; clear h hm; unfold execTcForward
  repeat' first
  | with_reducible first
     | apply Evolves.rfl | assumption | (apply lor_of_beq; focus decide)
     | apply Evolves.next | apply count_evolves | apply send_evolves | apply Evolves.ite | apply Evolves.foldl
  | intro _ | split | dsimp only

theorem runBmca_evolves (s : State) (hm : 11728193 ||| m = m) (h : Evolves m u s) :
    Evolves m u (runBmca s) := by
  refine Evolves.step (k := 11728193) ?_ hm h; clear h hm; unfold runBmca
  repeat' first
  | with_reducible first
     | apply Evolves.rfl | assumption | (apply lor_of_beq; focus decide)
     | apply selectMaster_evolves | apply setClk_evolves | apply Evolves.ite | apply Evolves.foldl
  | intro _ | split | dsimp only

theorem execAnnounceTimeout_evolves (s : State) (hm : 11728193 ||| m = m) (h : Evolves m u s) :
    Evolves m u (taken s (execAnnounceTimeout s)) := by
  refine Evolves.step (k := 11728193) ?_ hm h; clear h hm; unfold execAnnounceTimeout
  repeat' first
  | with_reducible first
     | apply Evolves.rfl | assumption | (apply lor_of_beq; focus decide)
     | apply Evolves.next | apply fault_evolves | apply runBmca_evolves | apply enterHoldover_evolves
     | apply ev_evolves | apply setClk_evolves | apply Evolves.ite | apply Evolves.foldl
  | intro _ | split | dsimp only

theorem execServoMeasurement_evolves (s : State) (hm : 15922497 ||| m = m) (h : Evolves m u s) :
    Evolves m u (taken s (execServoMeasurement s)) := by
  refine Evolves.step (k := 15922497) ?_ hm h; clear h hm; unfold execServoMeasurement
  repeat' first
  | with_reducible first
     | apply Evolves.rfl | assumption | (apply lor_of_beq; focus decide)
     | apply Evolves.next | apply servo_evolves | apply setClk_evolves | apply Evolves.ite | apply Evolves.foldl
  | intro _ | split | dsimp only

theorem execPtpAnnounce_evolves (x0) (x1) (s2 : State) (hm : 11728193 ||| m = m) (h : Evolves m u s2) :
    Evolves m u (taken s2 (execPtpAnnounce x0 x1 s2)) := by
  refine Evolves.step (k := 11728193) ?_ hm h; clear h hm; unfold execPtpAnnounce
  repeat' first
  | with_reducible first
     | apply Evolves.rfl | assumption | (apply lor_of_beq; focus decide)
     | apply Evolves.next | apply setClk_evolves | apply runBmca_evolves | apply count_evolves | apply Evolves.ite
     | apply Evolves.foldl
  | intro _ | split | dsimp only

theorem setMpd_evolves (s : State) (x1) (hm : 257 ||| m = m) (h : Evolves m u s) :
    Evolves m u (setMpd s x1) := by
  refine Evolves.step (k := 257) ?_ hm h; clear h hm; unfold setMpd
  repeat' first
  | with_reducible first
     | apply Evolves.rfl | assumption | (apply lor_of_beq; focus decide)
     | apply setClk_evolves | apply wr_evolves | apply Evolves.ite | apply Evolves.foldl
  | intro _ | split | dsimp only

theorem setPeerDelay_evolves (s : State) (x1) (x2) (hm : 321 ||| m = m) (h : Evolves m u s) :
    Evolves m u (setPeerDelay s x1 x2) := by
  refine Evolves.step (k := 321) ?_ hm h; clear h hm; unfold setPeerDelay
  repeat' first
  | with_reducible first
     | apply Evolves.rfl | assumption | (apply lor_of_beq; focus decide)
     | apply setMpd_evolves | apply setClk_evolves | apply count_evolves | apply Evolves.ite | apply Evolves.foldl
  | intro _ | split | dsimp only

theorem execPdelay_evolves (x0) (x1) (s2 : State) (hm : 8388929 ||| m = m) (h : Evolves m u s2) :
    Evolves m u (taken s2 (execPdelay x0 x1 s2)) := by
  refine Evolves.step (k := 8388929) ?_ hm h; clear h hm; unfold execPdelay
  repeat' first
  | with_reducible first
     | apply Evolves.rfl | assumption | (apply lor_of_beq; focus decide)
     | apply Evolves.next | apply setPeerDelay_evolves | apply setClk_evolves | apply sendPtp_evolves
     | apply Evolves.ite | apply Evolves.foldl
  | intro _ | split | dsimp only

theorem execDelayResp_evolves (x0) (s1 : State) (hm : 321 ||| m = m) (h : Evolves m u s1) :
    Evolves m u (taken s1 (execDelayResp x0 s1)) := by
  refine Evolves.step (k := 321) ?_ hm h; clear h hm; unfold execDelayResp
  repeat' first
  | with_reducible first
     | apply Evolves.rfl | assumption | (apply lor_of_beq; focus decide)
     | apply Evolves.next | apply setMpd_evolves | apply count_evolves | apply Evolves.ite | apply Evolves.foldl
  | intro _ | split | dsimp only

theorem execPtpSync_evolves (x0) (s1 : State) (hm : 321 ||| m = m) (h : Evolves m u s1) :
    Evolves m u (taken s1 (execPtpSync x0 s1)) := by
  refine Evolves.step (k := 321) ?_ hm h; clear h hm; unfold execPtpSync
  repeat' first
  | with_reducible first
     | apply Evolves.rfl | assumption | (apply lor_of_beq; focus decide)
     | apply Evolves.next | apply offsetMeasured_evolves | apply setClk_evolves | apply count_evolves
     | apply Evolves.ite | apply Evolves.foldl
  | intro _ | split | dsimp only

theorem execLoopNoData_evolves (x0) (s1 : State) (hm : 11728193 ||| m = m) (h : Evolves m u s1) :
    Evolves m u (taken s1 (execLoopNoData x0 s1)) := by
  refine Evolves.step (k := 11728193) ?_ hm h; clear h hm; unfold execLoopNoData
  repeat' first
  | with_reducible first
     | apply Evolves.rfl | assumption | (apply lor_of_beq; focus decide)
     | apply Evolves.next | apply ev_evolves | apply fault_evolves
     | fail_if_no_progress (apply Evolves.upd_16384; focus decide) | apply Evolves.ite | apply Evolves.foldl
  | intro _ | split | dsimp only

theorem execLadderClassify_evolves (s : State) (hm : 11728195 ||| m = m) (h : Evolves m u s) :
    Evolves m u (taken s (execLadderClassify s)) := by
  refine Evolves.step (k := 11728195) ?_ hm h; clear h hm; unfold execLadderClassify
  repeat' first
  | with_reducible first
     | apply Evolves.rfl | assumption | (apply lor_of_beq; focus decide)
     | apply Evolves.next | apply applyNozzles_evolves | apply asInput_evolves | apply fault_evolves
     | apply wrf_evolves | apply count_evolves | apply ev_evolves
     | fail_if_no_progress (apply Evolves.upd_16384; focus decide) | apply Evolves.ite | apply Evolves.foldl
  | intro _ | split | dsimp only

theorem closeWindow_evolves (s : State) (x1) (hm : 16385 ||| m = m) (h : Evolves m u s) :
    Evolves m u (closeWindow s x1) := by
  refine Evolves.step (k := 16385) ?_ hm h; clear h hm; unfold closeWindow
  repeat' first
  | with_reducible first
     | apply Evolves.rfl | assumption | (apply lor_of_beq; focus decide)
     | apply wrf_evolves | fail_if_no_progress (apply Evolves.upd_16384; focus decide) | apply Evolves.ite
     | apply Evolves.foldl
  | intro _ | split | dsimp only

theorem execLoopUpdate_evolves (s : State) (hm : 11728195 ||| m = m) (h : Evolves m u s) :
    Evolves m u (taken s (execLoopUpdate s)) := by
  refine Evolves.step (k := 11728195) ?_ hm h; clear h hm; unfold execLoopUpdate
  repeat' first
  | with_reducible first
     | apply Evolves.rfl | assumption | (apply lor_of_beq; focus decide)
     | apply Evolves.next | apply applyLoop_evolves | apply asInput_evolves | apply keepOwn_evolves
     | apply closeWindow_evolves | apply Evolves.ite | apply Evolves.foldl
  | intro _ | split | dsimp only

theorem execPipelineDone_evolves (s : State) (hm : 8542273 ||| m = m) (h : Evolves m u s) :
    Evolves m u (taken s (execPipelineDone s)) := by
  refine Evolves.step (k := 8542273) ?_ hm h; clear h hm; unfold execPipelineDone
  repeat' first
  | with_reducible first
     | apply Evolves.rfl | assumption | (apply lor_of_beq; focus decide)
     | apply Evolves.next | apply count_evolves | apply ev_evolves | apply wr_evolves | apply setSlot_evolves
     | apply processFrame_evolves | fail_if_no_progress (apply Evolves.upd_16384; focus decide) | apply Evolves.ite
     | apply Evolves.foldl
  | intro _ | split | dsimp only

theorem execPipelineStart_evolves (s : State) (hm : 16385 ||| m = m) (h : Evolves m u s) :
    Evolves m u (taken s (execPipelineStart s)) := by
  refine Evolves.step (k := 16385) ?_ hm h; clear h hm; unfold execPipelineStart
  repeat' first
  | with_reducible first
     | apply Evolves.rfl | assumption | (apply lor_of_beq; focus decide)
     | apply Evolves.next | apply wr_evolves | apply setCtx_evolves | apply setSlot_evolves
     | fail_if_no_progress (apply Evolves.upd_16384; focus decide) | apply Evolves.ite | apply Evolves.foldl
  | intro _ | split | dsimp only

theorem execStrobeTimeout_evolves (x0) (s1 : State) (hm : 11728193 ||| m = m) (h : Evolves m u s1) :
    Evolves m u (taken s1 (execStrobeTimeout x0 s1)) := by
  refine Evolves.step (k := 11728193) ?_ hm h; clear h hm; unfold execStrobeTimeout
  repeat' first
  | with_reducible first
     | apply Evolves.rfl | assumption | (apply lor_of_beq; focus decide)
     | apply Evolves.next | apply ev_evolves | apply fault_evolves | apply setCtx_evolves | apply count_evolves
     | apply Evolves.ite | apply Evolves.foldl
  | intro _ | split | dsimp only

theorem execFrameStart_evolves (x0) (x1) (x2) (s3 : State) (hm : 8540225 ||| m = m) (h : Evolves m u s3) :
    Evolves m u (taken s3 (execFrameStart x0 x1 x2 s3)) := by
  refine Evolves.step (k := 8540225) ?_ hm h; clear h hm; unfold execFrameStart
  repeat' first
  | with_reducible first
     | apply Evolves.rfl | assumption | (apply lor_of_beq; focus decide)
     | apply Evolves.next | apply ev_evolves | apply openFrame_evolves | apply count_evolves
     | fail_if_no_progress (apply Evolves.upd_16384; focus decide) | apply Evolves.ite | apply Evolves.foldl
  | intro _ | split | dsimp only

theorem execIoOutResend_evolves (s : State) (hm : 8396864 ||| m = m) (h : Evolves m u s) :
    Evolves m u (taken s (execIoOutResend s)) := by
  refine Evolves.step (k := 8396864) ?_ hm h; clear h hm; unfold execIoOutResend
  repeat' first
  | with_reducible first
     | apply Evolves.rfl | assumption | (apply lor_of_beq; focus decide)
     | apply Evolves.next | apply ioResend_evolves | apply Evolves.ite | apply Evolves.foldl
  | intro _ | split | dsimp only

theorem execEiWake_evolves (x0) (s1 : State) (hm : 8396800 ||| m = m) (h : Evolves m u s1) :
    Evolves m u (taken s1 (execEiWake x0 s1)) := by
  refine Evolves.step (k := 8396800) ?_ hm h; clear h hm; unfold execEiWake
  repeat' first
  | with_reducible first
     | apply Evolves.rfl | assumption | (apply lor_of_beq; focus decide)
     | apply Evolves.next | apply setLane_evolves | apply send_evolves | apply Evolves.ite | apply Evolves.foldl
  | intro _ | split | dsimp only

theorem execEiDelay_evolves (x0) (s1 : State) (hm : 8396864 ||| m = m) (h : Evolves m u s1) :
    Evolves m u (taken s1 (execEiDelay x0 s1)) := by
  refine Evolves.step (k := 8396864) ?_ hm h; clear h hm; unfold execEiDelay
  repeat' first
  | with_reducible first
     | apply Evolves.rfl | assumption | (apply lor_of_beq; focus decide)
     | apply Evolves.next | apply askIdle_evolves | apply Evolves.ite | apply Evolves.foldl
  | intro _ | split | dsimp only

theorem execFomReport_evolves (x0) (x1) (s2 : State) (hm : 11728193 ||| m = m) (h : Evolves m u s2) :
    Evolves m u (taken s2 (execFomReport x0 x1 s2)) := by
  refine Evolves.step (k := 11728193) ?_ hm h; clear h hm; unfold execFomReport
  repeat' first
  | with_reducible first
     | apply Evolves.rfl | assumption | (apply lor_of_beq; focus decide)
     | apply Evolves.next | apply ev_evolves | apply fault_evolves | apply setLane_evolves | apply Evolves.ite
     | apply Evolves.foldl
  | intro _ | split | dsimp only

theorem laneDown_evolves (s : State) (x1) (hm : 11728193 ||| m = m) (h : Evolves m u s) :
    Evolves m u (laneDown s x1) := by
  refine Evolves.step (k := 11728193) ?_ hm h; clear h hm; unfold laneDown
  repeat' first
  | with_reducible first
     | apply Evolves.rfl | assumption | (apply lor_of_beq; focus decide)
     | apply ev_evolves | apply fault_evolves | apply setLane_evolves | apply Evolves.ite | apply Evolves.foldl
  | intro _ | split | dsimp only

theorem execWaveResend_evolves (x0) (x1) (s2 : State) (hm : 11728193 ||| m = m) (h : Evolves m u s2) :
    Evolves m u (taken s2 (execWaveResend x0 x1 s2)) := by
  refine Evolves.step (k := 11728193) ?_ hm h; clear h hm; unfold execWaveResend
  repeat' first
  | with_reducible first
     | apply Evolves.rfl | assumption | (apply lor_of_beq; focus decide)
     | apply Evolves.next | apply laneDown_evolves | apply setLane_evolves | apply count_evolves
     | apply flnSend_evolves | apply Evolves.ite | apply Evolves.foldl
  | intro _ | split | dsimp only

theorem execLinkTimeout_evolves (x0) (s1 : State) (hm : 11728193 ||| m = m) (h : Evolves m u s1) :
    Evolves m u (taken s1 (execLinkTimeout x0 s1)) := by
  refine Evolves.step (k := 11728193) ?_ hm h; clear h hm; unfold execLinkTimeout
  repeat' first
  | with_reducible first
     | apply Evolves.rfl | assumption | (apply lor_of_beq; focus decide)
     | apply Evolves.next | apply laneDown_evolves | apply Evolves.ite | apply Evolves.foldl
  | intro _ | split | dsimp only

theorem execIdleSend_evolves (x0) (s1 : State) (hm : 8396864 ||| m = m) (h : Evolves m u s1) :
    Evolves m u (taken s1 (execIdleSend x0 s1)) := by
  refine Evolves.step (k := 8396864) ?_ hm h; clear h hm; unfold execIdleSend
  repeat' first
  | with_reducible first
     | apply Evolves.rfl | assumption | (apply lor_of_beq; focus decide)
     | apply Evolves.next | apply setLane_evolves | apply flnSend_evolves | apply Evolves.ite | apply Evolves.foldl
  | intro _ | split | dsimp only

theorem finishBringUp_evolves (s : State) (x1) (hm : 11728193 ||| m = m) (h : Evolves m u s) :
    Evolves m u (finishBringUp s x1) := by
  refine Evolves.step (k := 11728193) ?_ hm h; clear h hm; unfold finishBringUp
  repeat' first
  | with_reducible first
     | apply Evolves.rfl | assumption | (apply lor_of_beq; focus decide)
     | apply enterMismatch_evolves | apply enterActive_evolves | apply Evolves.ite | apply Evolves.foldl
  | intro _ | split | dsimp only

theorem execTimeResp_evolves (x0) (x1) (s2 : State) (hm : 11728193 ||| m = m) (h : Evolves m u s2) :
    Evolves m u (taken s2 (execTimeResp x0 x1 s2)) := by
  refine Evolves.step (k := 11728193) ?_ hm h; clear h hm; unfold execTimeResp
  repeat' first
  | with_reducible first
     | apply Evolves.rfl | assumption | (apply lor_of_beq; focus decide)
     | apply Evolves.next | apply finishBringUp_evolves | apply backToActive_evolves | apply fault_evolves
     | apply laneDown_evolves | apply setLane_evolves | apply count_evolves | apply onFrame_evolves
     | apply Evolves.ite | apply Evolves.foldl
  | intro _ | split | dsimp only

theorem execNack_evolves (x0) (x1) (s2 : State) (hm : 8396864 ||| m = m) (h : Evolves m u s2) :
    Evolves m u (taken s2 (execNack x0 x1 s2)) := by
  refine Evolves.step (k := 8396864) ?_ hm h; clear h hm; unfold execNack
  repeat' first
  | with_reducible first
     | apply Evolves.rfl | assumption | (apply lor_of_beq; focus decide)
     | apply Evolves.next | apply replay_evolves | apply onFrame_evolves | apply Evolves.ite | apply Evolves.foldl
  | intro _ | split | dsimp only

theorem execLineLostEpisodeEnd_evolves (x0) (x1) (s2 : State) (hm : 11728193 ||| m = m) (h : Evolves m u s2) :
    Evolves m u (taken s2 (execLineLostEpisodeEnd x0 x1 s2)) := by
  refine Evolves.step (k := 11728193) ?_ hm h; clear h hm; unfold execLineLostEpisodeEnd
  repeat' first
  | with_reducible first
     | apply Evolves.rfl | assumption | (apply lor_of_beq; focus decide)
     | apply Evolves.next | apply setLane_evolves | apply fault_evolves | apply Evolves.ite | apply Evolves.foldl
  | intro _ | split | dsimp only

theorem tempReport_evolves (s : State) (x1) (x2) (x3) (hm : 8396864 ||| m = m) (h : Evolves m u s) :
    Evolves m u (tempReport s x1 x2 x3) := by
  refine Evolves.step (k := 8396864) ?_ hm h; clear h hm; unfold tempReport
  repeat' first
  | with_reducible first
     | apply Evolves.rfl | assumption | (apply lor_of_beq; focus decide)
     | apply count_evolves | apply sendAmps_evolves | apply setLane_evolves | apply Evolves.ite | apply Evolves.foldl
  | intro _ | split | dsimp only

theorem reportBlank_evolves (s : State) (x1) (x2) (x3) (x4) (hm : 11728193 ||| m = m) (h : Evolves m u s) :
    Evolves m u (reportBlank s x1 x2 x3 x4) := by
  refine Evolves.step (k := 11728193) ?_ hm h; clear h hm; unfold reportBlank
  repeat' first
  | with_reducible first
     | apply Evolves.rfl | assumption | (apply lor_of_beq; focus decide)
     | apply ev_evolves | apply faultAt_evolves | apply setLane_evolves | apply dirtyLine_evolves
     | apply countN_evolves | apply Evolves.ite | apply Evolves.foldl
  | intro _ | split | dsimp only

theorem execStat_evolves (x0) (x1) (s2 : State) (hm : 11728193 ||| m = m) (h : Evolves m u s2) :
    Evolves m u (taken s2 (execStat x0 x1 s2)) := by
  refine Evolves.step (k := 11728193) ?_ hm h; clear h hm; unfold execStat
  repeat' first
  | with_reducible first
     | apply Evolves.rfl | assumption | (apply lor_of_beq; focus decide)
     | apply Evolves.next | apply afterWake_evolves | apply demote_evolves | apply ev_evolves
     | apply tempReport_evolves | apply reportBlank_evolves | apply countN_evolves | apply setLane_evolves
     | apply onFrame_evolves | apply Evolves.ite | apply Evolves.foldl
  | intro _ | split | dsimp only

theorem execBlockLockLost_evolves (x0) (s1 : State) (hm : 8448 ||| m = m) (h : Evolves m u s1) :
    Evolves m u (taken s1 (execBlockLockLost x0 s1)) := by
  refine Evolves.step (k := 8448) ?_ hm h; clear h hm; unfold execBlockLockLost
  repeat' first
  | with_reducible first
     | apply Evolves.rfl | assumption | (apply lor_of_beq; focus decide)
     | apply Evolves.next | apply setLane_evolves | fail_if_no_progress (apply Evolves.upd_256; focus decide)
     | apply Evolves.ite | apply Evolves.foldl
  | intro _ | split | dsimp only

theorem execCapTimeout_evolves (x0) (s1 : State) (hm : 8396864 ||| m = m) (h : Evolves m u s1) :
    Evolves m u (taken s1 (execCapTimeout x0 s1)) := by
  refine Evolves.step (k := 8396864) ?_ hm h; clear h hm; unfold execCapTimeout
  repeat' first
  | with_reducible first
     | apply Evolves.rfl | assumption | (apply lor_of_beq; focus decide)
     | apply Evolves.next | apply count_evolves | apply askRate_evolves | apply laneFail_evolves | apply Evolves.ite
     | apply Evolves.foldl
  | intro _ | split | dsimp only

theorem takeCap_evolves (s : State) (x1) (x2) (hm : 11728193 ||| m = m) (h : Evolves m u s) :
    Evolves m u (takeCap s x1 x2) := by
  refine Evolves.step (k := 11728193) ?_ hm h; clear h hm; unfold takeCap
  repeat' first
  | with_reducible first
     | apply Evolves.rfl | assumption | (apply lor_of_beq; focus decide)
     | apply askRate_evolves | apply ev_evolves | apply fault_evolves | apply setLane_evolves | apply Evolves.ite
     | apply Evolves.foldl
  | intro _ | split | dsimp only

theorem execCap_evolves (x0) (x1) (s2 : State) (hm : 11728193 ||| m = m) (h : Evolves m u s2) :
    Evolves m u (taken s2 (execCap x0 x1 s2)) := by
  refine Evolves.step (k := 11728193) ?_ hm h; clear h hm; unfold execCap
  repeat' first
  | with_reducible first
     | apply Evolves.rfl | assumption | (apply lor_of_beq; focus decide)
     | apply Evolves.next | apply takeCap_evolves | apply onFrame_evolves | apply Evolves.ite | apply Evolves.foldl
  | intro _ | split | dsimp only

theorem enterPairUp_evolves (s : State) (x1) (hm : 8429632 ||| m = m) (h : Evolves m u s) :
    Evolves m u (enterPairUp s x1) := by
  refine Evolves.step (k := 8429632) ?_ hm h; clear h hm; unfold enterPairUp
  repeat' first
  | with_reducible first
     | apply Evolves.rfl | assumption | (apply lor_of_beq; focus decide)
     | apply pairSendSeq_evolves | apply setLane_evolves | apply Evolves.ite | apply Evolves.foldl
  | intro _ | split | dsimp only

theorem showPreset_evolves (s : State) (x1) (hm : 8388608 ||| m = m) (h : Evolves m u s) :
    Evolves m u (showPreset s x1) := by
  refine Evolves.step (k := 8388608) ?_ hm h; clear h hm; unfold showPreset
  repeat' first
  | with_reducible first
     | apply Evolves.rfl | assumption | (apply lor_of_beq; focus decide)
     | apply send_evolves | apply Evolves.ite | apply Evolves.foldl
  | intro _ | split | dsimp only

theorem selectPresets_evolves (s : State) (x1) (x2) (x3) (hm : 8396864 ||| m = m) (h : Evolves m u s) :
    Evolves m u (selectPresets s x1 x2 x3) := by
  refine Evolves.step (k := 8396864) ?_ hm h; clear h hm; unfold selectPresets
  repeat' first
  | with_reducible first
     | apply Evolves.rfl | assumption | (apply lor_of_beq; focus decide)
     | apply setLane_evolves | apply showPreset_evolves | apply flnSend_evolves | apply Evolves.ite
     | apply Evolves.foldl
  | intro _ | split | dsimp only

theorem pairTrained_evolves (s : State) (x1) (hm : 8429632 ||| m = m) (h : Evolves m u s) :
    Evolves m u (pairTrained s x1) := by
  refine Evolves.step (k := 8429632) ?_ hm h; clear h hm; unfold pairTrained
  repeat' first
  | with_reducible first
     | apply Evolves.rfl | assumption | (apply lor_of_beq; focus decide)
     | apply setLane_evolves | apply send_evolves | apply enterPairUp_evolves | apply Evolves.ite
     | apply Evolves.foldl
  | intro _ | split | dsimp only

theorem execTrainDone_evolves (x0) (x1) (s2 : State) (hm : 8429632 ||| m = m) (h : Evolves m u s2) :
    Evolves m u (taken s2 (execTrainDone x0 x1 s2)) := by
  refine Evolves.step (k := 8429632) ?_ hm h; clear h hm; unfold execTrainDone
  repeat' first
  | with_reducible first
     | apply Evolves.rfl | assumption | (apply lor_of_beq; focus decide)
     | apply Evolves.next | apply askRate_evolves | apply count_evolves | apply stepDown_evolves
     | apply enterPairUp_evolves | apply selectPresets_evolves | apply pairTrained_evolves | apply flnSend_evolves
     | apply setLane_evolves | apply Evolves.ite | apply Evolves.foldl
  | intro _ | split | dsimp only

theorem execDetect_evolves (x0) (x1) (s2 : State) (hm : 8396800 ||| m = m) (h : Evolves m u s2) :
    Evolves m u (taken s2 (execDetect x0 x1 s2)) := by
  refine Evolves.step (k := 8396800) ?_ hm h; clear h hm; unfold execDetect
  repeat' first
  | with_reducible first
     | apply Evolves.rfl | assumption | (apply lor_of_beq; focus decide)
     | apply Evolves.next | apply setLane_evolves | apply showPreset_evolves | apply send_evolves | apply Evolves.ite
     | apply Evolves.foldl
  | intro _ | split | dsimp only

theorem execTempTimeout_evolves (x0) (x1) (s2 : State) (hm : 11728193 ||| m = m) (h : Evolves m u s2) :
    Evolves m u (taken s2 (execTempTimeout x0 x1 s2)) := by
  refine Evolves.step (k := 11728193) ?_ hm h; clear h hm; unfold execTempTimeout
  repeat' first
  | with_reducible first
     | apply Evolves.rfl | assumption | (apply lor_of_beq; focus decide)
     | apply Evolves.next | apply setLane_evolves | apply ev_evolves | apply fault_evolves | apply Evolves.ite
     | apply Evolves.foldl
  | intro _ | split | dsimp only

theorem execSkipEpisodeEnd_evolves (x0) (s1 : State) (hm : 11728193 ||| m = m) (h : Evolves m u s1) :
    Evolves m u (taken s1 (execSkipEpisodeEnd x0 s1)) := by
  refine Evolves.step (k := 11728193) ?_ hm h; clear h hm; unfold execSkipEpisodeEnd
  repeat' first
  | with_reducible first
     | apply Evolves.rfl | assumption | (apply lor_of_beq; focus decide)
     | apply Evolves.next | apply setBar_evolves | apply ev_evolves | apply fault_evolves | apply Evolves.ite
     | apply Evolves.foldl
  | intro _ | split | dsimp only

theorem execBandTrimWrite_evolves (x0) (x1) (x2) (x3) (x4) (s5 : State) (hm : 8523841 ||| m = m) (h : Evolves m u s5) :
    Evolves m u (taken s5 (execBandTrimWrite x0 x1 x2 x3 x4 s5)) := by
  refine Evolves.step (k := 8523841) ?_ hm h; clear h hm; unfold execBandTrimWrite
  repeat' first
  | with_reducible first
     | apply Evolves.rfl | assumption | (apply lor_of_beq; focus decide)
     | apply Evolves.next | apply bandTrimStore_evolves | apply Evolves.ite | apply Evolves.foldl
  | intro _ | split | dsimp only

theorem sendIfLate_evolves (s : State) (x1) (x2) (x3) (hm : 11728195 ||| m = m) (h : Evolves m u s) :
    Evolves m u (sendIfLate s x1 x2 x3) := by
  refine Evolves.step (k := 11728195) ?_ hm h; clear h hm; unfold sendIfLate
  repeat' first
  | with_reducible first
     | apply Evolves.rfl | assumption | (apply lor_of_beq; focus decide)
     | apply asOf_evolves | apply sendRowLine_evolves | apply count_evolves | apply ev_evolves | apply Evolves.ite
     | apply Evolves.foldl
  | intro _ | split | dsimp only

theorem completeLine_evolves (s : State) (x1) (x2) (hm : 8422464 ||| m = m) (h : Evolves m u s) :
    Evolves m u (completeLine s x1 x2) := by
  refine Evolves.step (k := 8422464) ?_ hm h; clear h hm; unfold completeLine
  repeat' first
  | with_reducible first
     | apply Evolves.rfl | assumption | (apply lor_of_beq; focus decide)
     | apply pairSendSeq_evolves | apply count_evolves | apply setBar_evolves
     | fail_if_no_progress (apply Evolves.upd_1024; focus decide) | apply Evolves.ite | apply Evolves.foldl
  | intro _ | split | dsimp only

theorem expectColumn_evolves (s : State) (x1) (x2) (x3) (x4) (x5) (x6) (x7) (hm : 18432 ||| m = m) (h : Evolves m u s) :
    Evolves m u (expectColumn s x1 x2 x3 x4 x5 x6 x7) := by
  refine Evolves.step (k := 18432) ?_ hm h; clear h hm; unfold expectColumn
  repeat' first
  | with_reducible first
     | apply Evolves.rfl | assumption | (apply lor_of_beq; focus decide)
     | apply demand_evolves | fail_if_no_progress (apply Evolves.upd_16384; focus decide) | apply Evolves.ite
     | apply Evolves.foldl
  | intro _ | split | dsimp only

theorem expectLine_evolves (s : State) (x1) (x2) (x3) (x4) (x5) (x6) (hm : 18432 ||| m = m) (h : Evolves m u s) :
    Evolves m u (expectLine s x1 x2 x3 x4 x5 x6) := by
  refine Evolves.step (k := 18432) ?_ hm h; clear h hm; unfold expectLine
  repeat' first
  | with_reducible first
     | apply Evolves.rfl | assumption | (apply lor_of_beq; focus decide)
     | apply expectColumn_evolves | apply Evolves.ite | apply Evolves.foldl
  | intro _ | split | dsimp only

theorem countLevels_evolves (s : State) (x1) (x2) (x3) (hm : 64 ||| m = m) (h : Evolves m u s) :
    Evolves m u (countLevels s x1 x2 x3) := by
  refine Evolves.step (k := 64) ?_ hm h; clear h hm; unfold countLevels
  repeat' first
  | with_reducible first
     | apply Evolves.rfl | assumption | (apply lor_of_beq; focus decide)
     | apply count_evolves | apply Evolves.ite | apply Evolves.foldl
  | intro _ | split | dsimp only

theorem buildRowLine_evolves (s : State) (x1) (x2) (x3) (hm : 8576067 ||| m = m) (h : Evolves m u s) :
    Evolves m u (buildRowLine s x1 x2 x3) := by
  refine Evolves.step (k := 8576067) ?_ hm h; clear h hm; unfold buildRowLine
  repeat' first
  | with_reducible first
     | apply Evolves.rfl | assumption | (apply lor_of_beq; focus decide)
     | apply completeLine_evolves | apply releaseSlots_evolves | apply setBar_evolves | apply count_evolves
     | apply ev_evolves | apply expectLine_evolves | apply countLevels_evolves | apply countColumn_evolves
     | apply asOf_evolves | apply Evolves.ite | apply Evolves.foldl
  | intro _ | split | dsimp only

theorem lineLBuilt_evolves (s : State) (hm : 8421440 ||| m = m) (h : Evolves m u s) :
    Evolves m u (lineLBuilt s) := by
  refine Evolves.step (k := 8421440) ?_ hm h; clear h hm; unfold lineLBuilt
  repeat' first
  | with_reducible first
     | apply Evolves.rfl | assumption | (apply lor_of_beq; focus decide)
     | apply setPair_evolves | apply pairSendSeq_evolves | apply Evolves.ite | apply Evolves.foldl
  | intro _ | split | dsimp only

theorem fetchLate_evolves (s : State) (x1) (x2) (x3) (x4) (x5) (hm : 11728195 ||| m = m) (h : Evolves m u s) :
    Evolves m u (fetchLate s x1 x2 x3 x4 x5) := by
  refine Evolves.step (k := 11728195) ?_ hm h; clear h hm; unfold fetchLate
  repeat' first
  | with_reducible first
     | apply Evolves.rfl | assumption | (apply lor_of_beq; focus decide)
     | apply ev_evolves | apply fault_evolves | apply asOf_evolves | apply setTile_evolves | apply Evolves.ite
     | apply Evolves.foldl
  | intro _ | split | dsimp only

theorem finishLine_evolves (s : State) (x1) (hm : 11730243 ||| m = m) (h : Evolves m u s) :
    Evolves m u (finishLine s x1) := by
  refine Evolves.step (k := 11730243) ?_ hm h; clear h hm; unfold finishLine
  repeat' first
  | with_reducible first
     | apply Evolves.rfl | assumption | (apply lor_of_beq; focus decide)
     | apply freePassed_evolves | apply openFetches_evolves | apply sendIfLate_evolves | apply rearm_evolves
     | apply buildRowLine_evolves | apply lineLBuilt_evolves | apply compareLines_evolves | apply fetchLate_evolves
     | apply Evolves.ite | apply Evolves.foldl
  | intro _ | split | dsimp only

theorem execRowLineBuilt_evolves (x0) (s1 : State) (hm : 11730243 ||| m = m) (h : Evolves m u s1) :
    Evolves m u (taken s1 (execRowLineBuilt x0 s1)) := by
  refine Evolves.step (k := 11730243) ?_ hm h; clear h hm; unfold execRowLineBuilt
  repeat' first
  | with_reducible first
     | apply Evolves.rfl | assumption | (apply lor_of_beq; focus decide)
     | apply Evolves.next | apply finishLine_evolves | apply onPass_evolves | apply Evolves.ite | apply Evolves.foldl
  | intro _ | split | dsimp only

theorem choosePeriod_evolves (s : State) (x1) (hm : 8524353 ||| m = m) (h : Evolves m u s) :
    Evolves m u (choosePeriod s x1) := by
  refine Evolves.step (k := 8524353) ?_ hm h; clear h hm; unfold choosePeriod
  repeat' first
  | with_reducible first
     | apply Evolves.rfl | assumption | (apply lor_of_beq; focus decide)
     | apply setChan_evolves | apply ev_evolves | apply Evolves.ite | apply Evolves.foldl
  | intro _ | split | dsimp only

theorem execSpeedWindow_evolves (x0) (s1 : State) (hm : 8524353 ||| m = m) (h : Evolves m u s1) :
    Evolves m u (taken s1 (execSpeedWindow x0 s1)) := by
  refine Evolves.step (k := 8524353) ?_ hm h; clear h hm; unfold execSpeedWindow
  repeat' first
  | with_reducible first
     | apply Evolves.rfl | assumption | (apply lor_of_beq; focus decide)
     | apply Evolves.next | apply setChan_evolves | apply choosePeriod_evolves | apply Evolves.ite
     | apply Evolves.foldl
  | intro _ | split | dsimp only

theorem execPosLoRead_evolves (x0) (x1) (s2 : State) (hm : 48 ||| m = m) (h : Evolves m u s2) :
    Evolves m u (taken s2 (execPosLoRead x0 x1 s2)) := by
  refine Evolves.step (k := 48) ?_ hm h; clear h hm; unfold execPosLoRead
  repeat' first
  | with_reducible first
     | apply Evolves.rfl | assumption | (apply lor_of_beq; focus decide)
     | apply Evolves.next | apply answerRead_evolves | apply capture_evolves | apply Evolves.ite | apply Evolves.foldl
  | intro _ | split | dsimp only

theorem execSerTimeout_evolves (x0) (s1 : State) (hm : 11728705 ||| m = m) (h : Evolves m u s1) :
    Evolves m u (taken s1 (execSerTimeout x0 s1)) := by
  refine Evolves.step (k := 11728705) ?_ hm h; clear h hm; unfold execSerTimeout
  repeat' first
  | with_reducible first
     | apply Evolves.rfl | assumption | (apply lor_of_beq; focus decide)
     | apply Evolves.next | apply serialFail_evolves | apply Evolves.ite | apply Evolves.foldl
  | intro _ | split | dsimp only

theorem serialMove_evolves (s : State) (x1) (x2) (hm : 11794241 ||| m = m) (h : Evolves m u s) :
    Evolves m u (serialMove s x1 x2) := by
  refine Evolves.step (k := 11794241) ?_ hm h; clear h hm; unfold serialMove
  repeat' first
  | with_reducible first
     | apply Evolves.rfl | assumption | (apply lor_of_beq; focus decide)
     | apply reversal_evolves | apply masterEvent_evolves | apply countN_evolves | apply setChan_evolves
     | apply Evolves.ite | apply Evolves.foldl
  | intro _ | split | dsimp only

theorem execSerialSample_evolves (x0) (x1) (s2 : State) (hm : 11794241 ||| m = m) (h : Evolves m u s2) :
    Evolves m u (taken s2 (execSerialSample x0 x1 s2)) := by
  refine Evolves.step (k := 11794241) ?_ hm h; clear h hm; unfold execSerialSample
  repeat' first
  | with_reducible first
     | apply Evolves.rfl | assumption | (apply lor_of_beq; focus decide)
     | apply Evolves.next | apply serialFail_evolves | apply serialMove_evolves | apply setChan_evolves
     | apply Evolves.ite | apply Evolves.foldl
  | intro _ | split | dsimp only

theorem execSerialFrame_evolves (x0) (s1 : State) (hm : 8389184 ||| m = m) (h : Evolves m u s1) :
    Evolves m u (taken s1 (execSerialFrame x0 s1)) := by
  refine Evolves.step (k := 8389184) ?_ hm h; clear h hm; unfold execSerialFrame
  repeat' first
  | with_reducible first
     | apply Evolves.rfl | assumption | (apply lor_of_beq; focus decide)
     | apply Evolves.next | apply setChan_evolves | apply count_evolves | apply send_evolves | apply Evolves.ite
     | apply Evolves.foldl
  | intro _ | split | dsimp only

theorem execDerateWindow_evolves (s : State) (hm : 11730241 ||| m = m) (h : Evolves m u s) :
    Evolves m u (taken s (execDerateWindow s)) := by
  refine Evolves.step (k := 11730241) ?_ hm h; clear h hm; unfold execDerateWindow
  dsimp only
  refine Evolves.next ?_
  have hs : Evolves 11730241 s { s with dram := { s.dram with c0 := 0, c1 := 0, c2 := 0, c3 := 0, c1Begun := 0 } } :=
    Evolves.upd_2048 (by decide) id Evolves.rfl
  have hw (a v b w : Nat) := wr_evolves (m := 11730241) _ b w (by decide) (wr_evolves _ a v (by decide) hs)
  split
  · refine syncSlow_evolves _ (by decide) (Evolves.upd_2048 (by decide) id (Evolves.ite (fun _ => ?_) (fun _ => ?_)))
    · exact fault_evolves _ _ _ _ _ _ (by decide) (ev_evolves _ _ _ (by decide) (hw _ _ _ _))
    · exact hw _ _ _ _
  · exact hs

theorem execFreqDone_evolves (x0) (s1 : State) (hm : 11796289 ||| m = m) (h : Evolves m u s1) :
    Evolves m u (taken s1 (execFreqDone x0 s1)) := by
  refine Evolves.step (k := 11796289) ?_ hm h; clear h hm; unfold execFreqDone
  repeat' first
  | with_reducible first
     | apply Evolves.rfl | assumption | (apply lor_of_beq; focus decide)
     | apply Evolves.next | apply freqEnd_evolves | apply releaseStarts_evolves | apply Evolves.ite
     | apply Evolves.foldl
  | intro _ | split | dsimp only

theorem execDramWrite_evolves (x0) (x1) (x2) (s3 : State) (hm : 2112 ||| m = m) (h : Evolves m u s3) :
    Evolves m u (taken s3 (execDramWrite x0 x1 x2 s3)) := by
  refine Evolves.step (k := 2112) ?_ hm h; clear h hm; unfold execDramWrite
  dsimp only
  split
  · exact Evolves.rfl
  · exact Evolves.next (offer_evolves _ _ _ _ (by decide) Evolves.rfl)

theorem execAgePromotion_evolves (x0) (x1) (s2 : State) (hm : 2112 ||| m = m) (h : Evolves m u s2) :
    Evolves m u (taken s2 (execAgePromotion x0 x1 s2)) := by
  refine Evolves.step (k := 2112) ?_ hm h; clear h hm; unfold execAgePromotion
  repeat' first
  | with_reducible first
     | apply Evolves.rfl | assumption | (apply lor_of_beq; focus decide)
     | apply Evolves.next | apply count_evolves | apply setDram_evolves | apply Evolves.ite | apply Evolves.foldl
  | intro _ | split | dsimp only

theorem execHotHoldExpiry_evolves (x0) (s1 : State) (hm : 8534081 ||| m = m) (h : Evolves m u s1) :
    Evolves m u (taken s1 (execHotHoldExpiry x0 s1)) := by
  refine Evolves.step (k := 8534081) ?_ hm h; clear h hm; unfold execHotHoldExpiry
  repeat' first
  | with_reducible first
     | apply Evolves.rfl | assumption | (apply lor_of_beq; focus decide)
     | apply Evolves.next | apply syncDram_evolves | apply ev_evolves | apply wrf_evolves | apply setSub_evolves
     | apply Evolves.ite | apply Evolves.foldl
  | intro _ | split | dsimp only

theorem execRetrainStep_evolves (x0) (x1) (x2) (x3) (s4 : State) (hm : 15924545 ||| m = m) (h : Evolves m u s4) :
    Evolves m u (taken s4 (execRetrainStep x0 x1 x2 x3 s4)) := by
  refine Evolves.step (k := 15924545) ?_ hm h; clear h hm; unfold execRetrainStep
  repeat' first
  | with_reducible first
     | apply Evolves.rfl | assumption | (apply lor_of_beq; focus decide)
     | apply Evolves.next | apply judgeSweep_evolves | apply setSub_evolves | apply dramCmd_evolves
     | apply count_evolves | apply trainArea_evolves | apply Evolves.ite | apply Evolves.foldl
  | intro _ | split | dsimp only

theorem execMr4Read_evolves (x0) (x1) (x2) (s3 : State) (hm : 8534081 ||| m = m) (h : Evolves m u s3) :
    Evolves m u (taken s3 (execMr4Read x0 x1 x2 s3)) := by
  refine Evolves.step (k := 8534081) ?_ hm h; clear h hm; unfold execMr4Read
  repeat' first
  | with_reducible first
     | apply Evolves.rfl | assumption | (apply lor_of_beq; focus decide)
     | apply Evolves.next | apply setSub_evolves | apply makeHot_evolves | apply Evolves.ite | apply Evolves.foldl
  | intro _ | split | dsimp only

theorem execReqTimeout_evolves (x0) (x1) (x2) (x3) (s4 : State) (hm : 11728193 ||| m = m) (h : Evolves m u s4) :
    Evolves m u (taken s4 (execReqTimeout x0 x1 x2 x3 s4)) := by
  refine Evolves.step (k := 11728193) ?_ hm h; clear h hm; unfold execReqTimeout
  repeat' first
  | with_reducible first
     | apply Evolves.rfl | assumption | (apply lor_of_beq; focus decide)
     | apply Evolves.next | apply scrubError_evolves | apply tileDefective_evolves | apply recoveryEnd_evolves
     | apply dropFetches_evolves | apply Evolves.ite | apply Evolves.foldl
  | intro _ | split | dsimp only

theorem beginThaw_evolves (s : State) (x1) (hm : 2048 ||| m = m) (h : Evolves m u s) :
    Evolves m u (beginThaw s x1) := by
  refine Evolves.step (k := 2048) ?_ hm h; clear h hm; unfold beginThaw
  repeat' first
  | with_reducible first
     | apply Evolves.rfl | assumption | (apply lor_of_beq; focus decide)
     | fail_if_no_progress (apply Evolves.upd_2048; focus decide) | apply memWf_keep | apply memWf_write
     | apply memWf_block | apply Nat.le_succ | apply Evolves.ite | apply Evolves.foldl
  | intro _ | split | dsimp only

theorem execThawStart_evolves (x0) (s1 : State) (hm : 3073 ||| m = m) (h : Evolves m u s1) :
    Evolves m u (taken s1 (execThawStart x0 s1)) := by
  refine Evolves.step (k := 3073) ?_ hm h; clear h hm; unfold execThawStart
  repeat' first
  | with_reducible first
     | apply Evolves.rfl | assumption | (apply lor_of_beq; focus decide)
     | apply Evolves.next | apply setEngine_evolves | apply engineBusy_evolves | apply setTile_evolves
     | apply beginThaw_evolves | fail_if_no_progress (apply Evolves.upd_1024; focus decide) | apply Evolves.ite
     | apply Evolves.foldl
  | intro _ | split | dsimp only

theorem execFragTimeout_evolves (x0) (x1) (x2) (x3) (s4 : State) (hm : 8557633 ||| m = m) (h : Evolves m u s4) :
    Evolves m u (taken s4 (execFragTimeout x0 x1 x2 x3 s4)) := by
  refine Evolves.step (k := 8557633) ?_ hm h; clear h hm; unfold execFragTimeout
  repeat' first
  | with_reducible first
     | apply Evolves.rfl | assumption | (apply lor_of_beq; focus decide)
     | apply Evolves.next | apply discardArriving_evolves | apply ev_evolves | apply Evolves.ite | apply Evolves.foldl
  | intro _ | split | dsimp only

theorem execFragmentStoreDone_evolves (x0) (s1 : State) (hm : 8428608 ||| m = m) (h : Evolves m u s1) :
    Evolves m u (taken s1 (execFragmentStoreDone x0 s1)) := by
  refine Evolves.step (k := 8428608) ?_ hm h; clear h hm; unfold execFragmentStoreDone
  repeat' first
  | with_reducible first
     | apply Evolves.rfl | assumption | (apply lor_of_beq; focus decide)
     | apply Evolves.next | apply fragmentDone_evolves | apply Evolves.ite | apply Evolves.foldl
  | intro _ | split | dsimp only

theorem execGratuitousArp_evolves (s : State) (hm : 8392704 ||| m = m) (h : Evolves m u s) :
    Evolves m u (taken s (execGratuitousArp s)) := by
  refine Evolves.step (k := 8392704) ?_ hm h; clear h hm; unfold execGratuitousArp
  repeat' first
  | with_reducible first
     | apply Evolves.rfl | assumption | (apply lor_of_beq; focus decide)
     | apply Evolves.next | apply send_evolves | fail_if_no_progress (apply Evolves.upd_4096; focus decide)
     | apply Evolves.ite | apply Evolves.foldl
  | intro _ | split | dsimp only

theorem execAnnounce_evolves (s : State) (hm : 8392704 ||| m = m) (h : Evolves m u s) :
    Evolves m u (taken s (execAnnounce s)) := by
  refine Evolves.step (k := 8392704) ?_ hm h; clear h hm; unfold execAnnounce
  repeat' first
  | with_reducible first
     | apply Evolves.rfl | assumption | (apply lor_of_beq; focus decide)
     | apply Evolves.next | apply send_evolves | fail_if_no_progress (apply Evolves.upd_4096; focus decide)
     | apply Evolves.ite | apply Evolves.foldl
  | intro _ | split | dsimp only

theorem writeCompletion_evolves (s : State) (x1) (x2) (hm : 8392705 ||| m = m) (h : Evolves m u s) :
    Evolves m u (writeCompletion s x1 x2) := by
  refine Evolves.step (k := 8392705) ?_ hm h; clear h hm; unfold writeCompletion
  repeat' first
  | with_reducible first
     | apply Evolves.rfl | assumption | (apply lor_of_beq; focus decide)
     | apply msix_evolves | apply wr_evolves | apply send_evolves
     | fail_if_no_progress (apply Evolves.upd_4096; focus decide) | apply Evolves.ite | apply Evolves.foldl
  | intro _ | split | dsimp only

theorem execCompletionWrite_evolves (x0) (s1 : State) (hm : 8392705 ||| m = m) (h : Evolves m u s1) :
    Evolves m u (taken s1 (execCompletionWrite x0 s1)) := by
  refine Evolves.step (k := 8392705) ?_ hm h; clear h hm; unfold execCompletionWrite
  repeat' first
  | with_reducible first
     | apply Evolves.rfl | assumption | (apply lor_of_beq; focus decide)
     | apply Evolves.next | apply setEntry_evolves | apply writeCompletion_evolves
     | fail_if_no_progress (apply Evolves.upd_4096; focus decide) | apply Evolves.ite | apply Evolves.foldl
  | intro _ | split | dsimp only

theorem execSubmissionFetch_evolves (x0) (x1) (x2) (s3 : State) (hm : 8427585 ||| m = m) (h : Evolves m u s3) :
    Evolves m u (taken s3 (execSubmissionFetch x0 x1 x2 s3)) := by
  refine Evolves.step (k := 8427585) ?_ hm h; clear h hm; unfold execSubmissionFetch
  dsimp only
  refine Evolves.next ?_
  split
  · exact Evolves.rfl
  have hd : Evolves 8427585 s3 (demand s3 2 (64 + x2.length)) := demand_evolves _ _ _ (by decide) Evolves.rfl
  have adv (t : State) (ht : Evolves 8427585 s3 t) : Evolves 8427585 s3 (if ringHeld t x0 = true then t else advanceHead t x0) := by
    split
    · exact ht
    · exact advanceHead_evolves _ _ (by decide) ht
  split
  · split
    · exact adv _ (journalEntry_evolves _ _ _ _ _ _ _ (by decide) hd)
    · exact adv _ (completeError_evolves _ _ _ _ _ _ (by decide) hd)
  generalize hx : acceptCommand _ _ _ _ _ _ = y
  have hy : Evolves 8427585 s3 y.2 := by
    rw [← hx]; exact acceptCommand_evolves _ _ _ _ _ _ (by decide) hd
  obtain ⟨k, t⟩ := y
  cases k
  all_goals first
    | exact hy
    | exact adv _ hy
    | exact adv _ (answerAgain_evolves _ _ _ (by decide) hy)

theorem forwardRetired_evolves (s : State) (x1) (hm : 8421440 ||| m = m) (h : Evolves m u s) :
    Evolves m u (forwardRetired s x1) := by
  refine Evolves.step (k := 8421440) ?_ hm h; clear h hm; unfold forwardRetired
  repeat' first
  | with_reducible first
     | apply Evolves.rfl | assumption | (apply lor_of_beq; focus decide)
     | apply count_evolves | apply pairSendSeq_evolves | apply Evolves.ite | apply Evolves.foldl
  | intro _ | split | dsimp only

theorem execCompletionDoorbell_evolves (x0) (x1) (s2 : State) (hm : 8556609 ||| m = m) (h : Evolves m u s2) :
    Evolves m u (taken s2 (execCompletionDoorbell x0 x1 s2)) := by
  refine Evolves.step (k := 8556609) ?_ hm h; clear h hm; unfold execCompletionDoorbell
  repeat' first
  | with_reducible first
     | apply Evolves.rfl | assumption | (apply lor_of_beq; focus decide)
     | apply Evolves.next | apply ringErr_evolves | apply freeEntries_evolves | apply wr_evolves
     | apply forwardRetired_evolves | apply closeIfDone_evolves | apply Evolves.ite | apply Evolves.foldl
  | intro _ | split | dsimp only

theorem execPcieLinkLoss_evolves (s : State) (hm : 4096 ||| m = m) (h : Evolves m u s) :
    Evolves m u (taken s (execPcieLinkLoss s)) := by
  refine Evolves.step (k := 4096) ?_ hm h; clear h hm; unfold execPcieLinkLoss
  repeat' first
  | with_reducible first
     | apply Evolves.rfl | assumption | (apply lor_of_beq; focus decide)
     | apply Evolves.next | apply setSession_evolves | apply Evolves.ite | apply Evolves.foldl
  | intro _ | split | dsimp only

theorem execResumeLimit_evolves (x0) (s1 : State) (hm : 11728193 ||| m = m) (h : Evolves m u s1) :
    Evolves m u (taken s1 (execResumeLimit x0 s1)) := by
  refine Evolves.step (k := 11728193) ?_ hm h; clear h hm; unfold execResumeLimit
  repeat' first
  | with_reducible first
     | apply Evolves.rfl | assumption | (apply lor_of_beq; focus decide)
     | apply Evolves.next | apply discardSession_evolves | apply Evolves.ite | apply Evolves.foldl
  | intro _ | split | dsimp only

theorem snapshotRun_evolves (s : State) (x1) (x2) (hm : 8523841 ||| m = m) (h : Evolves m u s) :
    Evolves m u (snapshotRun s x1 x2) := by
  refine Evolves.step (k := 8523841) ?_ hm h; clear h hm; unfold snapshotRun
  repeat' first
  | with_reducible first
     | apply Evolves.rfl | assumption | (apply lor_of_beq; focus decide)
     | apply setEntry_evolves | apply ev_evolves | apply finishStatus_evolves | apply Evolves.ite
     | apply Evolves.foldl
  | intro _ | split | dsimp only

theorem execSnapshot_evolves (x0) (s1 : State) (hm : 8523841 ||| m = m) (h : Evolves m u s1) :
    Evolves m u (taken s1 (execSnapshot x0 s1)) := by
  refine Evolves.step (k := 8523841) ?_ hm h; clear h hm; unfold execSnapshot
  repeat' first
  | with_reducible first
     | apply Evolves.rfl | assumption | (apply lor_of_beq; focus decide)
     | apply Evolves.next | apply snapshotRun_evolves | apply onEntry_evolves | apply Evolves.ite
     | apply Evolves.foldl
  | intro _ | split | dsimp only

theorem releaseInflate_evolves (s : State) (x1) (hm : 1025 ||| m = m) (h : Evolves m u s) :
    Evolves m u (releaseInflate s x1) := by
  refine Evolves.step (k := 1025) ?_ hm h; clear h hm; unfold releaseInflate
  repeat' first
  | with_reducible first
     | apply Evolves.rfl | assumption | (apply lor_of_beq; focus decide)
     | apply claimPrint_evolves | apply wrf_evolves | apply setEngine_evolves | apply engineBusy_evolves
     | apply Evolves.ite | apply Evolves.foldl
  | intro _ | split | dsimp only

theorem execInflateDone_evolves (x0) (s1 : State) (hm : 8524865 ||| m = m) (h : Evolves m u s1) :
    Evolves m u (taken s1 (execInflateDone x0 s1)) := by
  refine Evolves.step (k := 8524865) ?_ hm h; clear h hm; unfold execInflateDone
  repeat' first
  | with_reducible first
     | apply Evolves.rfl | assumption | (apply lor_of_beq; focus decide)
     | apply Evolves.next | apply wr_evolves | apply ev_evolves | apply finish_evolves | apply releaseInflate_evolves
     | apply countN_evolves | apply Evolves.ite | apply Evolves.foldl
  | intro _ | split | dsimp only

theorem execInflate_evolves (x0) (s1 : State) (hm : 8395777 ||| m = m) (h : Evolves m u s1) :
    Evolves m u (taken s1 (execInflate x0 s1)) := by
  refine Evolves.step (k := 8395777) ?_ hm h; clear h hm; unfold execInflate
  repeat' first
  | with_reducible first
     | apply Evolves.rfl | assumption | (apply lor_of_beq; focus decide)
     | apply Evolves.next | apply setEngine_evolves | apply setEntry_evolves | apply beginThaw_evolves
     | apply wrf_evolves | apply engineBusy_evolves | apply finishStatus_evolves | apply withData_evolves
     | apply onEntry_evolves | apply Evolves.ite | apply Evolves.foldl
  | intro _ | split | dsimp only

theorem tableWriteRun_evolves (s : State) (x1) (x2) (hm : 16777183 ||| m = m) (h : Evolves m u s) :
    Evolves m u (tableWriteRun s x1 x2) := by
  refine Evolves.step (k := 16777183) ?_ hm h; clear h hm; unfold tableWriteRun
  repeat' first
  | with_reducible first
     | apply Evolves.rfl | assumption | (apply lor_of_beq; focus decide)
     | apply runWrites_evolves | apply withData_evolves | apply finishStatus_evolves | apply Evolves.ite
     | apply Evolves.foldl
  | intro _ | split | dsimp only

theorem execTableWrite_evolves (x0) (s1 : State) (hm : 16777183 ||| m = m) (h : Evolves m u s1) :
    Evolves m u (taken s1 (execTableWrite x0 s1)) := by
  refine Evolves.step (k := 16777183) ?_ hm h; clear h hm; unfold execTableWrite
  repeat' first
  | with_reducible first
     | apply Evolves.rfl | assumption | (apply lor_of_beq; focus decide)
     | apply Evolves.next | apply tableWriteRun_evolves | apply onEntry_evolves | apply Evolves.ite
     | apply Evolves.foldl
  | intro _ | split | dsimp only

theorem execApplyLineWrite_evolves (x0) (s1 : State) (hm : 16777183 ||| m = m) (h : Evolves m u s1) :
    Evolves m u (taken s1 (execApplyLineWrite x0 s1)) := by
  refine Evolves.step (k := 16777183) ?_ hm h; clear h hm; unfold execApplyLineWrite
  repeat' first
  | with_reducible first
     | apply Evolves.rfl | assumption | (apply lor_of_beq; focus decide)
     | apply Evolves.next | apply runWrites_evolves | apply finishStatus_evolves | apply Evolves.ite
     | apply Evolves.foldl
  | intro _ | split | dsimp only

theorem execRegWrite_evolves (x0) (s1 : State) (hm : 16777183 ||| m = m) (h : Evolves m u s1) :
    Evolves m u (taken s1 (execRegWrite x0 s1)) := by
  refine Evolves.step (k := 16777183) ?_ hm h; clear h hm; unfold execRegWrite
  repeat' first
  | with_reducible first
     | apply Evolves.rfl | assumption | (apply lor_of_beq; focus decide)
     | apply Evolves.next | apply regWriteRun_evolves | apply onEntry_evolves | apply Evolves.ite
     | apply Evolves.foldl
  | intro _ | split | dsimp only

theorem execTileQuery_evolves (x0) (s1 : State) (hm : 8392704 ||| m = m) (h : Evolves m u s1) :
    Evolves m u (taken s1 (execTileQuery x0 s1)) := by
  refine Evolves.step (k := 8392704) ?_ hm h; clear h hm; unfold execTileQuery
  repeat' first
  | with_reducible first
     | apply Evolves.rfl | assumption | (apply lor_of_beq; focus decide)
     | apply Evolves.next | apply finish_evolves | apply finishStatus_evolves | apply onEntry_evolves
     | apply Evolves.ite | apply Evolves.foldl
  | intro _ | split | dsimp only

theorem setStopLine_evolves (s : State) (x1) (x2) (hm : 1024 ||| m = m) (h : Evolves m u s) :
    Evolves m u (setStopLine s x1 x2) := by
  refine Evolves.step (k := 1024) ?_ hm h; clear h hm; unfold setStopLine
  repeat' first
  | with_reducible first
     | apply Evolves.rfl | assumption | (apply lor_of_beq; focus decide)
     | apply endStarts_evolves | apply setBar_evolves | apply Evolves.ite | apply Evolves.foldl
  | intro _ | split | dsimp only

theorem jobStop_evolves (s : State) (x1) (x2) (hm : 8393728 ||| m = m) (h : Evolves m u s) :
    Evolves m u (jobStop s x1 x2) := by
  refine Evolves.step (k := 8393728) ?_ hm h; clear h hm; unfold jobStop
  repeat' first
  | with_reducible first
     | apply Evolves.rfl | assumption | (apply lor_of_beq; focus decide)
     | apply setStopLine_evolves | apply disarmJob_evolves | apply finish_evolves | apply finishStatus_evolves
     | apply Evolves.ite | apply Evolves.foldl
  | intro _ | split | dsimp only

theorem execJobStop_evolves (x0) (s1 : State) (hm : 8393728 ||| m = m) (h : Evolves m u s1) :
    Evolves m u (taken s1 (execJobStop x0 s1)) := by
  refine Evolves.step (k := 8393728) ?_ hm h; clear h hm; unfold execJobStop
  repeat' first
  | with_reducible first
     | apply Evolves.rfl | assumption | (apply lor_of_beq; focus decide)
     | apply Evolves.next | apply jobStop_evolves | apply onEntry_evolves | apply Evolves.ite | apply Evolves.foldl
  | intro _ | split | dsimp only

theorem execJobStart_evolves (x0) (s1 : State) (hm : 11796289 ||| m = m) (h : Evolves m u s1) :
    Evolves m u (taken s1 (execJobStart x0 s1)) := by
  refine Evolves.step (k := 11796289) ?_ hm h; clear h hm; unfold execJobStart
  repeat' first
  | with_reducible first
     | apply Evolves.rfl | assumption | (apply lor_of_beq; focus decide)
     | apply Evolves.next | apply jobStart_evolves | apply onEntry_evolves | apply Evolves.ite | apply Evolves.foldl
  | intro _ | split | dsimp only

theorem jobDefine_evolves (s : State) (x1) (x2) (hm : 8393728 ||| m = m) (h : Evolves m u s) :
    Evolves m u (jobDefine s x1 x2) := by
  refine Evolves.step (k := 8393728) ?_ hm h; clear h hm; unfold jobDefine
  repeat' first
  | with_reducible first
     | apply Evolves.rfl | assumption | (apply lor_of_beq; focus decide)
     | apply setJob_evolves | apply finish_evolves | apply finishStatus_evolves | apply Evolves.ite
     | apply Evolves.foldl
  | intro _ | split | dsimp only

theorem execJobDefine_evolves (x0) (s1 : State) (hm : 8393728 ||| m = m) (h : Evolves m u s1) :
    Evolves m u (taken s1 (execJobDefine x0 s1)) := by
  refine Evolves.step (k := 8393728) ?_ hm h; clear h hm; unfold execJobDefine
  repeat' first
  | with_reducible first
     | apply Evolves.rfl | assumption | (apply lor_of_beq; focus decide)
     | apply Evolves.next | apply jobDefine_evolves | apply onEntry_evolves | apply Evolves.ite | apply Evolves.foldl
  | intro _ | split | dsimp only

theorem execNop_evolves (x0) (s1 : State) (hm : 8392704 ||| m = m) (h : Evolves m u s1) :
    Evolves m u (taken s1 (execNop x0 s1)) := by
  refine Evolves.step (k := 8392704) ?_ hm h; clear h hm; unfold execNop
  repeat' first
  | with_reducible first
     | apply Evolves.rfl | assumption | (apply lor_of_beq; focus decide)
     | apply Evolves.next | apply finishStatus_evolves | apply onEntry_evolves | apply Evolves.ite
     | apply Evolves.foldl
  | intro _ | split | dsimp only

theorem execCloseRing_evolves (x0) (s1 : State) (hm : 8392704 ||| m = m) (h : Evolves m u s1) :
    Evolves m u (taken s1 (execCloseRing x0 s1)) := by
  refine Evolves.step (k := 8392704) ?_ hm h; clear h hm; unfold execCloseRing
  repeat' first
  | with_reducible first
     | apply Evolves.rfl | assumption | (apply lor_of_beq; focus decide)
     | apply Evolves.next | apply setSession_evolves | apply finishStatus_evolves | apply onEntry_evolves
     | apply Evolves.ite | apply Evolves.foldl
  | intro _ | split | dsimp only

theorem execHelloRing_evolves (x0) (s1 : State) (hm : 8392704 ||| m = m) (h : Evolves m u s1) :
    Evolves m u (taken s1 (execHelloRing x0 s1)) := by
  refine Evolves.step (k := 8392704) ?_ hm h; clear h hm; unfold execHelloRing
  repeat' first
  | with_reducible first
     | apply Evolves.rfl | assumption | (apply lor_of_beq; focus decide)
     | apply Evolves.next | apply setEntry_evolves | apply setSession_evolves | apply finish_evolves
     | apply finishStatus_evolves | apply onEntry_evolves | fail_if_no_progress (apply Evolves.upd_4096; focus decide)
     | apply Evolves.ite | apply Evolves.foldl
  | intro _ | split | dsimp only

theorem acceptAll_evolves (s : State) (x1) (x2) (x3) (x4) (hm : 8425536 ||| m = m) (h : Evolves m u s) :
    Evolves m u (acceptAll s x1 x2 x3 x4).2 := by
  induction x4 generalizing s x3 with
  | zero => exact h
  | succ n ih =>
    simp only [acceptAll]
    generalize hx : acceptCommand s x1 0xFF (eSeq (gEntry x2 x3)) (gEntry x2 x3)
      (((List.drop 32 x2).drop (eDataAddr (gEntry x2 x3))).take (eDataLen (gEntry x2 x3))) = y
    have hy : Evolves m u y.2 := by
      rw [← hx]; exact acceptCommand_evolves _ _ _ _ _ _ (lor_sub (by decide) hm) h
    obtain ⟨k, t⟩ := y
    cases k
    all_goals first
      | exact hy
      | exact ih _ _ hy
      | exact ih _ _ (answerAgain_evolves _ _ _ (lor_sub (by decide) hm) hy)

theorem retire_evolves (s : State) (x1) (x2) (hm : 8425536 ||| m = m) (h : Evolves m u s) :
    Evolves m u (retire s x1 x2) := by
  refine Evolves.step (k := 8425536) ?_ hm h; clear h hm; unfold retire
  repeat' first
  | with_reducible first
     | apply Evolves.rfl | assumption | (apply lor_of_beq; focus decide)
     | apply retireNow_evolves | apply asInput_evolves | apply Evolves.ite | apply Evolves.foldl
  | intro _ | split | dsimp only

theorem hostAck_evolves (s : State) (x1) (x2) (hm : 8425536 ||| m = m) (h : Evolves m u s) :
    Evolves m u (hostAck s x1 x2) := by
  refine Evolves.step (k := 8425536) ?_ hm h; clear h hm; unfold hostAck
  repeat' first
  | with_reducible first
     | apply Evolves.rfl | assumption | (apply lor_of_beq; focus decide)
     | apply retire_evolves | apply Evolves.ite | apply Evolves.foldl
  | intro _ | split | dsimp only

theorem execCmd_evolves (x0) (s1 : State) (hm : 8425536 ||| m = m) (h : Evolves m u s1) :
    Evolves m u (taken s1 (execCmd x0 s1)) := by
  refine Evolves.step (k := 8425536) ?_ hm h; clear h hm; unfold execCmd
  refine Evolves.next (onSession_evolves _ _ _ _ (fun s n => ?_) (by decide) Evolves.rfl)
  split
  · exact gshDiscard_evolves _ (by decide) Evolves.rfl
  have hh : Evolves 8425536 s (hostAck s n x0.data) := hostAck_evolves _ _ _ (by decide) Evolves.rfl
  have hy := acceptAll_evolves (m := 8425536) (u := s) (hostAck s n x0.data) n x0.data 0 (gCount x0.data) (by decide) hh
  dsimp only
  split
  · exact sendHeader_evolves _ _ _ (by decide) (count_evolves _ _ _ (by decide) hh)
  split
  · rename_i t ht
    rw [ht] at hy
    exact sendHeader_evolves _ _ _ (by decide) (count_evolves _ _ _ (by decide) hy)
  · rename_i t ht
    rw [ht] at hy
    exact sendHeader_evolves _ _ _ (by decide) hy

theorem execKeepalive_evolves (x0) (s1 : State) (hm : 8425536 ||| m = m) (h : Evolves m u s1) :
    Evolves m u (taken s1 (execKeepalive x0 s1)) := by
  refine Evolves.step (k := 8425536) ?_ hm h; clear h hm; unfold execKeepalive
  repeat' first
  | with_reducible first
     | apply Evolves.rfl | assumption | (apply lor_of_beq; focus decide)
     | apply Evolves.next | apply sendHeader_evolves | apply hostAck_evolves | apply onSession_evolves
     | apply Evolves.ite | apply Evolves.foldl
  | intro _ | split | dsimp only

theorem execClose_evolves (x0) (s1 : State) (hm : 8425536 ||| m = m) (h : Evolves m u s1) :
    Evolves m u (taken s1 (execClose x0 s1)) := by
  refine Evolves.step (k := 8425536) ?_ hm h; clear h hm; unfold execClose
  repeat' first
  | with_reducible first
     | apply Evolves.rfl | assumption | (apply lor_of_beq; focus decide)
     | apply Evolves.next | apply putSession_evolves | apply closeIfDone_evolves | apply hostAck_evolves
     | apply onSession_evolves | apply Evolves.ite | apply Evolves.foldl
  | intro _ | split | dsimp only

theorem ringFrame_evolves (s : State) (x1) (x2) (hm : 64 ||| m = m) (h : Evolves m u s) :
    Evolves m u (ringFrame s x1 x2) := by
  refine Evolves.step (k := 64) ?_ hm h; clear h hm; unfold ringFrame
  repeat' first
  | with_reducible first
     | apply Evolves.rfl | assumption | (apply lor_of_beq; focus decide)
     | apply ethDrop_evolves | apply Evolves.ite | apply Evolves.foldl
  | intro _ | split | dsimp only

theorem execEthFrameReceive_evolves (x0) (x1) (s2 : State) (hm : 8394816 ||| m = m) (h : Evolves m u s2) :
    Evolves m u (taken s2 (execEthFrameReceive x0 x1 s2)) := by
  refine Evolves.step (k := 8394816) ?_ hm h; clear h hm; unfold execEthFrameReceive
  repeat' first
  | with_reducible first
     | apply Evolves.rfl | assumption | (apply lor_of_beq; focus decide)
     | apply Evolves.next | apply ringFrame_evolves | apply demand_evolves | apply hostFrame_evolves
     | apply ethDrop_evolves | apply Evolves.ite | apply Evolves.foldl
  | intro _ | split | dsimp only

theorem execSnapshotTake_evolves (s : State) (hm : 10621121 ||| m = m) (h : Evolves m u s) :
    Evolves m u (taken s (execSnapshotTake s)) := by
  refine Evolves.step (k := 10621121) ?_ hm h; clear h hm; unfold execSnapshotTake
  repeat' first
  | with_reducible first
     | apply Evolves.rfl | assumption | (apply lor_of_beq; focus decide)
     | apply Evolves.next | apply snapTake_evolves | apply Evolves.ite | apply Evolves.foldl
  | intro _ | split | dsimp only

theorem execEvSetWrite_evolves (x0) (x1) (x2) (s3 : State) (hm : 8523841 ||| m = m) (h : Evolves m u s3) :
    Evolves m u (taken s3 (execEvSetWrite x0 x1 x2 s3)) := by
  refine Evolves.step (k := 8523841) ?_ hm h; clear h hm; unfold execEvSetWrite
  repeat' first
  | with_reducible first
     | apply Evolves.rfl | assumption | (apply lor_of_beq; focus decide)
     | apply Evolves.next | apply evSet_evolves | apply Evolves.ite | apply Evolves.foldl
  | intro _ | split | dsimp only

theorem execGpioOutWrite_evolves (x0) (x1) (x2) (s3 : State) (hm : 8523841 ||| m = m) (h : Evolves m u s3) :
    Evolves m u (taken s3 (execGpioOutWrite x0 x1 x2 s3)) := by
  refine Evolves.step (k := 8523841) ?_ hm h; clear h hm; unfold execGpioOutWrite
  repeat' first
  | with_reducible first
     | apply Evolves.rfl | assumption | (apply lor_of_beq; focus decide)
     | apply Evolves.next | apply outWrite_evolves | apply Evolves.ite | apply Evolves.foldl
  | intro _ | split | dsimp only

theorem execGpioDirWrite_evolves (x0) (x1) (x2) (s3 : State) (hm : 8523845 ||| m = m) (h : Evolves m u s3) :
    Evolves m u (taken s3 (execGpioDirWrite x0 x1 x2 s3)) := by
  refine Evolves.step (k := 8523845) ?_ hm h; clear h hm; unfold execGpioDirWrite
  repeat' first
  | with_reducible first
     | apply Evolves.rfl | assumption | (apply lor_of_beq; focus decide)
     | apply Evolves.next | apply dirWrite_evolves | apply odWrite_evolves | apply Evolves.ite | apply Evolves.foldl
  | intro _ | split | dsimp only

theorem execOwnerWrite_evolves (x0) (x1) (x2) (s3 : State) (hm : 8523841 ||| m = m) (h : Evolves m u s3) :
    Evolves m u (taken s3 (execOwnerWrite x0 x1 x2 s3)) := by
  refine Evolves.step (k := 8523841) ?_ hm h; clear h hm; unfold execOwnerWrite
  repeat' first
  | with_reducible first
     | apply Evolves.rfl | assumption | (apply lor_of_beq; focus decide)
     | apply Evolves.next | apply ownWrite_evolves | apply Evolves.ite | apply Evolves.foldl
  | intro _ | split | dsimp only

theorem execTableWindowWrite_evolves (x0) (x1) (x2) (s3 : State) (hm : 11728193 ||| m = m) (h : Evolves m u s3) :
    Evolves m u (taken s3 (execTableWindowWrite x0 x1 x2 s3)) := by
  refine Evolves.step (k := 11728193) ?_ hm h; clear h hm; unfold execTableWindowWrite
  repeat' first
  | with_reducible first
     | apply Evolves.rfl | assumption | (apply lor_of_beq; focus decide)
     | apply Evolves.next | apply windowWrite_evolves | apply Evolves.ite | apply Evolves.foldl
  | intro _ | split | dsimp only

theorem execNozzleTableWrite_evolves (x0) (x1) (x2) (x3) (s4 : State) (hm : 11728193 ||| m = m) (h : Evolves m u s4) :
    Evolves m u (taken s4 (execNozzleTableWrite x0 x1 x2 x3 s4)) := by
  refine Evolves.step (k := 11728193) ?_ hm h; clear h hm; unfold execNozzleTableWrite
  repeat' first
  | with_reducible first
     | apply Evolves.rfl | assumption | (apply lor_of_beq; focus decide)
     | apply Evolves.next | apply nozzleTable_evolves | apply Evolves.ite | apply Evolves.foldl
  | intro _ | split | dsimp only

theorem sendChanged_evolves (s : State) (s1 : State) (x2) (x3) (x4) (hm : 8396864 ||| m = m) (h : Evolves m u s1) :
    Evolves m u (sendChanged s s1 x2 x3 x4) := by
  refine Evolves.step (k := 8396864) ?_ hm h; clear h hm; unfold sendChanged
  repeat' first
  | with_reducible first
     | apply Evolves.rfl | assumption | (apply lor_of_beq; focus decide)
     | apply flnSend_evolves | apply Evolves.ite | apply Evolves.foldl
  | intro _ | split | dsimp only

theorem applyStaged_evolves (s : State) (x1) (x2) (hm : 8397889 ||| m = m) (h : Evolves m u s) :
    Evolves m u (applyStaged s x1 x2) := by
  refine Evolves.step (k := 8397889) ?_ hm h; clear h hm; unfold applyStaged
  repeat' first
  | with_reducible first
     | apply Evolves.rfl | assumption | (apply lor_of_beq; focus decide)
     | apply sendChanged_evolves | apply countN_evolves | apply refreshLimits_evolves | apply setBar_evolves
     | apply wr_evolves | apply Evolves.ite | apply Evolves.foldl
  | intro _ | split | dsimp only

theorem committed_evolves (s : State) (x1) (x2) (x3) (hm : 11728193 ||| m = m) (h : Evolves m u s) :
    Evolves m u (committed s x1 x2 x3) := by
  refine Evolves.step (k := 11728193) ?_ hm h; clear h hm; unfold committed
  repeat' first
  | with_reducible first
     | apply Evolves.rfl | assumption | (apply lor_of_beq; focus decide)
     | apply slowSync_evolves | apply wr_evolves | apply applyStaged_evolves | apply loopCommitted_evolves
     | apply missLimit_evolves | apply Evolves.ite | apply Evolves.foldl
  | intro _ | split | dsimp only

theorem keepPast_evolves (s : State) (x1) (hm : 1024 ||| m = m) (h : Evolves m u s) :
    Evolves m u (keepPast s x1) := by
  refine Evolves.step (k := 1024) ?_ hm h; clear h hm; unfold keepPast
  repeat' first
  | with_reducible first
     | apply Evolves.rfl | assumption | (apply lor_of_beq; focus decide)
     | apply keepPastOf_evolves | apply forgetPast_evolves | apply Evolves.ite | apply Evolves.foldl
  | intro _ | split | dsimp only

theorem applyPage_evolves (s : State) (x1) (hm : 11728195 ||| m = m) (h : Evolves m u s) :
    Evolves m u (applyPage s x1) := by
  refine Evolves.step (k := 11728195) ?_ hm h; clear h hm; unfold applyPage
  repeat' first
  | with_reducible first
     | apply Evolves.rfl | assumption | (apply lor_of_beq; focus decide)
     | apply copyShadows_evolves | apply commitDone_evolves | apply committed_evolves | apply keepPast_evolves
     | apply Evolves.ite | apply Evolves.foldl
  | intro _ | split | dsimp only

theorem applyGroup_evolves (s : State) (x1) (hm : 11728195 ||| m = m) (h : Evolves m u s) :
    Evolves m u (applyGroup s x1) := by
  refine Evolves.step (k := 11728195) ?_ hm h; clear h hm; unfold applyGroup
  repeat' first
  | with_reducible first
     | apply Evolves.rfl | assumption | (apply lor_of_beq; focus decide)
     | apply applyPage_evolves | apply refusePage_evolves | apply copyShadows_evolves | apply Evolves.ite
     | apply Evolves.foldl
  | intro _ | split | dsimp only

theorem execCommitApply_evolves (x0) (s1 : State) (hm : 12252483 ||| m = m) (h : Evolves m u s1) :
    Evolves m u (taken s1 (execCommitApply x0 s1)) := by
  refine Evolves.step (k := 12252483) ?_ hm h; clear h hm; unfold execCommitApply
  repeat' first
  | with_reducible first
     | apply Evolves.rfl | assumption | (apply lor_of_beq; focus decide)
     | apply Evolves.next | apply applyGroup_evolves | apply dispCommit_evolves | apply Evolves.ite
     | apply Evolves.foldl
  | intro _ | split | dsimp only

theorem execCommitCancel_evolves (x0) (x1) (s2 : State) (hm : 540673 ||| m = m) (h : Evolves m u s2) :
    Evolves m u (taken s2 (execCommitCancel x0 x1 s2)) := by
  refine Evolves.step (k := 540673) ?_ hm h; clear h hm; unfold execCommitCancel
  repeat' first
  | with_reducible first
     | apply Evolves.rfl | assumption | (apply lor_of_beq; focus decide)
     | apply Evolves.next | apply commitCancel_evolves | apply Evolves.ite | apply Evolves.foldl
  | intro _ | split | dsimp only

theorem execHighWordWrite_evolves (x0) (x1) (x2) (s3 : State) (hm : 16777183 ||| m = m) (h : Evolves m u s3) :
    Evolves m u (taken s3 (execHighWordWrite x0 x1 x2 s3)) := by
  refine Evolves.step (k := 16777183) ?_ hm h; clear h hm; unfold execHighWordWrite
  repeat' first
  | with_reducible first
     | apply Evolves.rfl | assumption | (apply lor_of_beq; focus decide)
     | apply Evolves.next | apply arriveWrite_evolves | apply Evolves.ite | apply Evolves.foldl
  | intro _ | split | dsimp only

theorem execCounterLowRead_evolves (x0) (x1) (x2) (x3) (s4 : State) (hm : 40 ||| m = m) (h : Evolves m u s4) :
    Evolves m u (taken s4 (execCounterLowRead x0 x1 x2 x3 s4)) := by
  refine Evolves.step (k := 40) ?_ hm h; clear h hm; unfold execCounterLowRead
  repeat' first
  | with_reducible first
     | apply Evolves.rfl | assumption | (apply lor_of_beq; focus decide)
     | apply Evolves.next | apply answerRead_evolves | apply counterRead_evolves | apply Evolves.ite
     | apply Evolves.foldl
  | intro _ | split | dsimp only

theorem execClockStart_evolves (x0) (s1 : State) (hm : 262145 ||| m = m) (h : Evolves m u s1) :
    Evolves m u (taken s1 (execClockStart x0 s1)) := by
  refine Evolves.step (k := 262145) ?_ hm h; clear h hm; unfold execClockStart
  repeat' first
  | with_reducible first
     | apply Evolves.rfl | assumption | (apply lor_of_beq; focus decide)
     | apply Evolves.next | apply clockOn_evolves | apply Evolves.ite | apply Evolves.foldl
  | intro _ | split | dsimp only

theorem execBlockEnable_evolves (x0) (x1) (x2) (x3) (s4 : State) (hm : 12318529 ||| m = m) (h : Evolves m u s4) :
    Evolves m u (taken s4 (execBlockEnable x0 x1 x2 x3 s4)) := by
  refine Evolves.step (k := 12318529) ?_ hm h; clear h hm; unfold execBlockEnable
  repeat' first
  | with_reducible first
     | apply Evolves.rfl | assumption | (apply lor_of_beq; focus decide)
     | apply Evolves.next | apply blockEnable_evolves | apply Evolves.ite | apply Evolves.foldl
  | intro _ | split | dsimp only

theorem execSrstDone_evolves (x0) (s1 : State) (hm : 1 ||| m = m) (h : Evolves m u s1) :
    Evolves m u (taken s1 (execSrstDone x0 s1)) := by
  refine Evolves.step (k := 1) ?_ hm h; clear h hm; unfold execSrstDone
  repeat' first
  | with_reducible first
     | apply Evolves.rfl | assumption | (apply lor_of_beq; focus decide)
     | apply Evolves.next | apply wrf_evolves | apply Evolves.ite | apply Evolves.foldl
  | intro _ | split | dsimp only

theorem execSrst_evolves (x0) (x1) (s2 : State) (hm : 16777183 ||| m = m) (h : Evolves m u s2) :
    Evolves m u (taken s2 (execSrst x0 x1 s2)) := by
  refine Evolves.step (k := 16777183) ?_ hm h; clear h hm; unfold execSrst
  repeat' first
  | with_reducible first
     | apply Evolves.rfl | assumption | (apply lor_of_beq; focus decide)
     | apply Evolves.next | apply srst_evolves | apply Evolves.ite | apply Evolves.foldl
  | intro _ | split | dsimp only

theorem execRegisterWrite_evolves (x0) (x1) (x2) (x3) (s4 : State) (hm : 16777183 ||| m = m) (h : Evolves m u s4) :
    Evolves m u (taken s4 (execRegisterWrite x0 x1 x2 x3 s4)) := by
  refine Evolves.step (k := 16777183) ?_ hm h; clear h hm; unfold execRegisterWrite
  repeat' first
  | with_reducible first
     | apply Evolves.rfl | assumption | (apply lor_of_beq; focus decide)
     | apply Evolves.next | apply arriveWrite_evolves | apply Evolves.ite | apply Evolves.foldl
  | intro _ | split | dsimp only

theorem pcieRead_evolves (s : State) (x1) (x2) (hm : 12718169 ||| m = m) (h : Evolves m u s) :
    Evolves m u (pcieRead s x1 x2).2 := by
  refine Evolves.step (k := 12718169) ?_ hm h; clear h hm; unfold pcieRead
  repeat' first
  | with_reducible first
     | apply Evolves.rfl | assumption | (apply lor_of_beq; focus decide)
     | apply readReg_evolves | apply Evolves.ite | apply Evolves.foldl
  | intro _ | split | dsimp only

theorem delEntry_evolves (s : State) (x1) (hm : 4096 ||| m = m) (h : Evolves m u s) :
    Evolves m u (delEntry s x1) := by
  refine Evolves.step (k := 4096) ?_ hm h; clear h hm; unfold delEntry
  repeat' first
  | with_reducible first
     | apply Evolves.rfl | assumption | (apply lor_of_beq; focus decide)
     | fail_if_no_progress (apply Evolves.upd_4096; focus decide) | apply Evolves.ite | apply Evolves.foldl
  | intro _ | split | dsimp only

theorem pairSend_evolves (s : State) (x1) (x2) (x3) (hm : 8388672 ||| m = m) (h : Evolves m u s) :
    Evolves m u (pairSend s x1 x2 x3) := by
  refine Evolves.step (k := 8388672) ?_ hm h; clear h hm; unfold pairSend
  repeat' first
  | with_reducible first
     | apply Evolves.rfl | assumption | (apply lor_of_beq; focus decide)
     | apply pairPut_evolves | apply Evolves.ite | apply Evolves.foldl
  | intro _ | split | dsimp only

end Sys2Proof.Machine
end

