-- ==== Sys2Proof/Laws/Ops.lean ====
section
/-! SUPPORT. Laws of the named operations: what a table reads after an entry is set, what a register word, a counter, a
record of an engine reads after a write, and that what is not written reads as before. -/

namespace Sys2Proof.Machine
open Sys2Proof

/-! ### Sparse tables -/

variable {α : Type}

@[simp] theorem tget_nil (d : Nat → α) (k : Nat) : tget d [] k = d k := rfl

theorem tget_tdel_same (d : Nat → α) (t : Tab α) (k : Nat) : tget d (tdel t k) k = d k := by
  induction t with
  | nil => rfl
  | cons x r ih =>
    obtain ⟨j, v⟩ := x
    by_cases h : j = k <;> simp [tdel, h, ih, tget]

theorem tget_tdel_other (d : Nat → α) (t : Tab α) {k j : Nat} (h : j ≠ k) : tget d (tdel t k) j = tget d t j := by
  induction t with
  | nil => rfl
  | cons x r ih =>
    obtain ⟨i, v⟩ := x
    by_cases hi : i = k
    · subst hi; simp [tdel, tget, ih, h.symm]
    · simp only [tdel, hi, if_false, tget, ih]

theorem tget_tins_other (d : Nat → α) (t : Tab α) {k j : Nat} (v : α) (h : j ≠ k) :
    tget d (tins t k v) j = tget d t j := by
  induction t with
  | nil => simp [tins, tget, h.symm]
  | cons x r ih =>
    obtain ⟨i, w⟩ := x
    by_cases hi : k < i
    · simp [tins, hi, tget, h.symm]
    · simp only [tins, hi, if_false, tget, ih]

theorem tget_tins_same (d : Nat → α) (t : Tab α) (k : Nat) (v : α) (h : ∀ x ∈ t, x.1 ≠ k) :
    tget d (tins t k v) k = v := by
  induction t with
  | nil => simp [tins, tget]
  | cons x r ih =>
    obtain ⟨i, w⟩ := x
    have hi : i ≠ k := h _ List.mem_cons_self
    by_cases hl : k < i
    · simp [tins, hl, tget]
    · simp [tins, hl, tget, hi, ih (fun y hy => h y (List.mem_cons_of_mem _ hy))]

@[simp] theorem tget_tset_same (d : Nat → α) (t : Tab α) (k : Nat) (v : α) : tget d (tset t k v) k = v :=
  tget_tins_same d _ k v (not_mem_tdel t k)

theorem tget_tset_other (d : Nat → α) (t : Tab α) {k j : Nat} (v : α) (h : j ≠ k) :
    tget d (tset t k v) j = tget d t j := by
  rw [tset, tget_tins_other d _ v h, tget_tdel_other d t h]

theorem tget_tset (d : Nat → α) (t : Tab α) (k j : Nat) (v : α) :
    tget d (tset t k v) j = if j = k then v else tget d t j := by
  by_cases h : j = k
  · simp [h]
  · simp [h, tget_tset_other]

theorem tget_tsetD [DecidableEq α] (d : Nat → α) (t : Tab α) (k j : Nat) (v : α) :
    tget d (tsetD d t k v) j = if j = k then v else tget d t j := by
  unfold tsetD
  by_cases hv : v = d k
  · by_cases h : j = k
    · subst h; simp [hv, tget_tdel_same]
    · simp [hv, h, tget_tdel_other]
  · simp [hv, tget_tset]

/-! ### Register words -/

theorem rd_wr (s : State) (a v b : Nat) : rd (wr s a v) b = if b = a then v % 2 ^ 32 else rd s b := by
  simp only [rd, wr, tget_tsetD]
  split <;> simp

@[simp] theorem rd_wr_same (s : State) (a v : Nat) : rd (wr s a v) a = v % 2 ^ 32 := by simp [rd_wr]

theorem rd_lt (s : State) (a : Nat) : rd s a < 2 ^ 32 := (tget regReset s.regs a).isLt

theorem cm_setCm (s : State) (a v b : Nat) : cm (setCm s a v) b = if b = a then v % 2 ^ 32 else cm s b := by
  simp only [cm, setCm, tget_tsetD]
  split <;> simp

/-! ### Fields of a word -/

theorem testBit_putField (x hi lo v i : Nat) (h : lo ≤ hi) :
    (putField x hi lo v).testBit i =
      if i < lo then x.testBit i else if i ≤ hi then v.testBit (i - lo) else x.testBit i := by
  have e : putField x hi lo v =
      2 ^ lo * (2 ^ (hi + 1 - lo) * (x / 2 ^ (hi + 1)) + v % 2 ^ (hi + 1 - lo)) + x % 2 ^ lo := by
    have h2 : 2 ^ (hi + 1) = 2 ^ lo * 2 ^ (hi + 1 - lo) := by rw [← Nat.pow_add]; congr 1; omega
    unfold putField
    rw [Nat.mul_add, ← Nat.mul_assoc, ← h2]
    ring
  rw [e, Nat.testBit_two_pow_mul_add _ (Nat.mod_lt _ (Nat.two_pow_pos _)),
    Nat.testBit_two_pow_mul_add _ (Nat.mod_lt _ (Nat.two_pow_pos _)), Nat.testBit_mod_two_pow, Nat.testBit_mod_two_pow,
    Nat.testBit_div_two_pow]
  split
  · simp_all
  · by_cases g : i ≤ hi
    · have : i - lo < hi + 1 - lo := by omega
      simp [g, this]
    · have k : ¬ i - lo < hi + 1 - lo := by omega
      have k2 : hi + 1 + (i - lo - (hi + 1 - lo)) = i := by omega
      simp [g, k, Nat.add_comm, k2]

theorem testBit_field (x hi lo i : Nat) :
    (field x hi lo).testBit i = (decide (i < hi + 1 - lo) && x.testBit (i + lo)) := by
  simp [field, Nat.testBit_mod_two_pow, Nat.testBit_div_two_pow, Nat.add_comm]

theorem testBit_rd_wr (s : State) (a v i : Nat) :
    (rd (wr s a v) a).testBit i = (decide (i < 32) && v.testBit i) := by
  rw [rd_wr_same, Nat.testBit_mod_two_pow]

/-- A field that was stored reads back. -/
theorem rdf_wrf_same (s : State) (a : Nat) {hi lo : Nat} (v : Nat) (h : lo ≤ hi) (g : hi < 32) :
    rdf (wrf s a hi lo v) a hi lo = v % 2 ^ (hi + 1 - lo) := by
  apply Nat.eq_of_testBit_eq
  intro i
  rw [rdf, wrf, testBit_field, testBit_rd_wr, testBit_putField _ _ _ _ _ h, Nat.testBit_mod_two_pow]
  by_cases k : i < hi + 1 - lo
  · have h1 : i + lo < 32 := by omega
    have h2 : ¬ i + lo < lo := by omega
    have h3 : i + lo ≤ hi := by omega
    simp [k, h1, h2, h3]
  · simp [k]

/-- A field beside the one that was stored reads as before. -/
theorem rdf_wrf_beside (s : State) (a : Nat) {hi lo h2 l2 : Nat} (v : Nat) (h : lo ≤ hi) (g : h2 < 32)
    (d : h2 < lo ∨ hi < l2) : rdf (wrf s a hi lo v) a h2 l2 = rdf s a h2 l2 := by
  apply Nat.eq_of_testBit_eq
  intro i
  rw [rdf, wrf, testBit_field, testBit_rd_wr, testBit_putField _ _ _ _ _ h, rdf, testBit_field]
  by_cases k : i < h2 + 1 - l2
  · have h1 : i + l2 < 32 := by omega
    rcases d with d | d
    · have : i + l2 < lo := by omega
      simp [h1, this]
    · have e1 : ¬ i + l2 < lo := by omega
      have e2 : ¬ i + l2 ≤ hi := by omega
      simp [h1, e1, e2]
  · simp [k]

theorem rdf_eq_of_rd {s t : State} {a : Nat} (h : rd t a = rd s a) (hi lo : Nat) : rdf t a hi lo = rdf s a hi lo := by
  simp [rdf, h]

theorem rd_wrf_other (s : State) {a b : Nat} (hi lo v : Nat) (h : b ≠ a) : rd (wrf s a hi lo v) b = rd s b := by
  rw [wrf, rd_wr, if_neg h]

theorem rdb_eq_rdf (s : State) (a i : Nat) : rdb s a i = decide (rdf s a i i = 1) := by
  have h : rdf s a i i = ((rd s a).testBit i).toNat := by
    rw [rdf, field, Nat.testBit_eq_decide_div_mod_eq]
    have : i + 1 - i = 1 := by omega
    rw [this]
    have := Nat.mod_two_eq_zero_or_one (rd s a / 2 ^ i)
    rcases this with h | h <;> simp [h]
  rw [rdb, bitOf, h]
  cases (rd s a).testBit i <;> simp

theorem rdb_wrf_same (s : State) (a i v : Nat) (h : i < 32) : rdb (wrf s a i i v) a i = decide (v % 2 = 1) := by
  rw [rdb_eq_rdf, rdf_wrf_same s a v (Nat.le_refl i) h]
  have : i + 1 - i = 1 := by omega
  simp [this]

/-! ### Counters -/

theorem counter_setCounter (s : State) (p k v q j : Nat) :
    counter (setCounter s p k v) q j = if 128 * q + j = 128 * p + k then v % 2 ^ 64 else counter s q j := by
  simp [counter, setCounter, tget_tsetD]

theorem counter_count (s : State) (p k q j : Nat) :
    counter (count s p k) q j =
      if 128 * q + j = 128 * p + k then (counter s p k + 1) % 2 ^ 64 else counter s q j := by
  simp [count, countN, counter_setCounter]

/-! ### Records of engines -/

theorem getChan_setChan (s : State) (c d : Nat) (v : Channel) :
    getChan (setChan s c v) d = if d = c then v else getChan s d := by simp [getChan, setChan, tget_tset]

theorem getBar_setBar (s : State) (c d : Nat) (v : Bar) :
    getBar (setBar s c v) d = if d = c then v else getBar s d := by simp [getBar, setBar, tget_tset]

theorem getLane_setLane (s : State) (c d : Nat) (v : Lane) :
    getLane (setLane s c v) d = if d = c then v else getLane s d := by simp [getLane, setLane, tget_tset]

theorem getAxis_setAxis (s : State) (c d : Nat) (v : Axis) :
    getAxis (setAxis s c v) d = if d = c then v else getAxis s d := by simp [getAxis, setAxis, tget_tset]

theorem getCmp_setCmp (s : State) (c d : Nat) (v : Cmp) :
    getCmp (setCmp s c v) d = if d = c then v else getCmp s d := by simp [getCmp, setCmp, tget_tset]

theorem getCtx_setCtx (s : State) (c d : Nat) (v : Ctx) :
    getCtx (setCtx s c v) d = if d = c then v else getCtx s d := by simp [getCtx, setCtx, tget_tset]

theorem getSession_setSession (s : State) (c d : Nat) (v : Session) :
    getSession (setSession s c v) d = if d = c then v else getSession s d := by
  simp [getSession, setSession, tget_tset]

theorem getDram_setDram (s : State) (c d : Nat) (v : DramChan) :
    getDram (setDram s c v) d = if d = c then v else getDram s d := by simp [getDram, setDram, tget_tset]

theorem getSub_setSub (s : State) (c d : Nat) (v : DramSub) :
    getSub (setSub s c v) d = if d = c then v else getSub s d := by simp [getSub, setSub, tget_tset]

theorem getEngine_setEngine (s : State) (c d : Nat) (v : Engine) :
    getEngine (setEngine s c v) d = if d = c then v else getEngine s d := by simp [getEngine, setEngine, tget_tset]

theorem memByte_memSet (m : List Host.Cell) (a b : Nat) (v : Byte) :
    memByte (memSet m a v) b = if b = a then v else memByte m b := by simp [memByte, memSet, tget_tsetD]

/-! ### Bytes and checks -/

/-- A number written as n little-endian bytes and read back. -/
theorem leNat_leBytes (n v : Nat) : leNat (leBytes n v) = v % 256 ^ n := by
  induction n generalizing v with
  | zero => simp [leBytes, leNat, Nat.mod_one]
  | succ n ih =>
    rw [leBytes, leNat, ih, BitVec.toNat_ofNat]
    exact (Nat.pow_succ' ▸ Nat.mod_mul).symm

theorem leBytes_length (n v : Nat) : (leBytes n v).length = n := by
  induction n generalizing v with
  | zero => rfl
  | succ n ih => rw [leBytes, List.length_cons, ih]

theorem crcBit_lt {c : Nat} (h : c < 2 ^ 32) : crcBit c < 2 ^ 32 := by
  have : c >>> 1 < 2 ^ 32 := by rw [Nat.shiftRight_eq_div_pow]; omega
  unfold crcBit
  split
  · exact Nat.xor_lt_two_pow this (by decide)
  · exact this

theorem crcByte_lt {c : Nat} (b : Byte) (h : c < 2 ^ 32) : crcByte c b < 2 ^ 32 := by
  have hb : b.toNat < 2 ^ 32 := by omega
  simp only [crcByte]
  exact crcBit_lt (crcBit_lt (crcBit_lt (crcBit_lt (crcBit_lt (crcBit_lt (crcBit_lt (crcBit_lt
    (Nat.xor_lt_two_pow h hb))))))))

/-- A CRC-32C has 32 bits (R93). -/
theorem crc32c_lt (bs : List Byte) : crc32c bs < 2 ^ 32 := by
  have h : ∀ (l : List Byte) (c : Nat), c < 2 ^ 32 → l.foldl crcByte c < 2 ^ 32 := by
    intro l
    induction l with
    | nil => exact fun c h => h
    | cons b l ih => exact fun c h => ih _ (crcByte_lt b h)
  exact Nat.xor_lt_two_pow (h bs _ (by decide)) (by decide)

/-- The CRC that `withCrc` appends reads as the CRC of what is before it. -/
theorem bytesAt_withCrc (bs : List Byte) : bytesAt (withCrc bs) bs.length 4 = crc32c bs := by
  rw [bytesAt, withCrc, List.drop_left, List.take_of_length_le (by rw [leBytes_length]), leNat_leBytes]
  exact Nat.mod_eq_of_lt (crc32c_lt bs)

theorem take_withCrc (bs : List Byte) : (withCrc bs).take bs.length = bs := List.take_left

/-! ### What an operation leaves alone -/

/-- A change within a mask leaves a field outside it. -/
theorem Evolves.keep {m : Nat} {s t : State} (h : Evolves m s t) :
    (m.testBit 0 = false → ∀ a, rd t a = rd s a) ∧
    (m.testBit 1 = false → ∀ a, cm t a = cm s a) ∧
    (m.testBit 6 = false → ∀ p k, counter t p k = counter s p k) := by
  obtain ⟨h0, h1, _, _, _, _, h6, _⟩ := h
  exact ⟨fun b a => by simp [rd, h0 b], fun b a => by simp [cm, h1 b], fun b p k => by simp [counter, h6 b]⟩

end Sys2Proof.Machine
end

