-- ==== Sys2Proof/Laws/State.lean ====
section
/-! SUPPORT. For each update of the state, what it leaves: one conjunct for each field, so that no proof unfolds an update. -/

namespace Sys2Proof.Machine
open Sys2Proof

@[simp] theorem wr_fields (s : State) (a v : Nat) :
    (wr s a v).committed = s.committed ∧ (wr s a v).held = s.held ∧ (wr s a v).latches = s.latches ∧
    (wr s a v).captured = s.captured ∧ (wr s a v).lastRead = s.lastRead ∧ (wr s a v).counters = s.counters ∧
    (wr s a v).rime = s.rime ∧ (wr s a v).clk = s.clk ∧ (wr s a v).chans = s.chans ∧ (wr s a v).print = s.print ∧
    (wr s a v).dram = s.dram ∧ (wr s a v).host = s.host ∧ (wr s a v).links = s.links ∧ (wr s a v).cams = s.cams ∧
    (wr s a v).pair = s.pair ∧ (wr s a v).motion = s.motion ∧ (wr s a v).evc = s.evc ∧ (wr s a v).power = s.power ∧
    (wr s a v).disp = s.disp ∧ (wr s a v).sys = s.sys ∧ (wr s a v).snapWait = s.snapWait ∧
    (wr s a v).freeCount = s.freeCount ∧ (wr s a v).out = s.out ∧ (wr s a v).pending = s.pending ∧
    (∀ i, cm (wr s a v) i = cm s i) ∧ (∀ pg n, counter (wr s a v) pg n = counter s pg n) ∧
    (∀ i, getChan (wr s a v) i = getChan s i) ∧ (∀ i, getBar (wr s a v) i = getBar s i) ∧
    (∀ i, getEngine (wr s a v) i = getEngine s i) ∧ (∀ i, getLane (wr s a v) i = getLane s i) ∧
    (∀ i, getAxis (wr s a v) i = getAxis s i) ∧ (∀ i, getCmp (wr s a v) i = getCmp s i) ∧
    (∀ i, getCtx (wr s a v) i = getCtx s i) ∧ (∀ i, getSession (wr s a v) i = getSession s i) ∧
    (∀ i, getDram (wr s a v) i = getDram s i) ∧ (∀ i, getSub (wr s a v) i = getSub s i) := by
  refine ⟨?_, ?_, ?_, ?_, ?_, ?_, ?_, ?_, ?_, ?_, ?_, ?_, ?_, ?_, ?_, ?_, ?_, ?_, ?_, ?_, ?_, ?_, ?_, ?_, ?_, ?_, ?_, ?_, ?_, ?_, ?_, ?_, ?_, ?_, ?_, ?_⟩ <;> first | rfl | (intros; rfl)

@[simp] theorem wrf_fields (s : State) (a hi lo v : Nat) :
    (wrf s a hi lo v).committed = s.committed ∧ (wrf s a hi lo v).held = s.held ∧
    (wrf s a hi lo v).latches = s.latches ∧ (wrf s a hi lo v).captured = s.captured ∧
    (wrf s a hi lo v).lastRead = s.lastRead ∧ (wrf s a hi lo v).counters = s.counters ∧
    (wrf s a hi lo v).rime = s.rime ∧ (wrf s a hi lo v).clk = s.clk ∧ (wrf s a hi lo v).chans = s.chans ∧
    (wrf s a hi lo v).print = s.print ∧ (wrf s a hi lo v).dram = s.dram ∧ (wrf s a hi lo v).host = s.host ∧
    (wrf s a hi lo v).links = s.links ∧ (wrf s a hi lo v).cams = s.cams ∧ (wrf s a hi lo v).pair = s.pair ∧
    (wrf s a hi lo v).motion = s.motion ∧ (wrf s a hi lo v).evc = s.evc ∧ (wrf s a hi lo v).power = s.power ∧
    (wrf s a hi lo v).disp = s.disp ∧ (wrf s a hi lo v).sys = s.sys ∧ (wrf s a hi lo v).snapWait = s.snapWait ∧
    (wrf s a hi lo v).freeCount = s.freeCount ∧ (wrf s a hi lo v).out = s.out ∧
    (wrf s a hi lo v).pending = s.pending ∧ (∀ i, cm (wrf s a hi lo v) i = cm s i) ∧
    (∀ pg n, counter (wrf s a hi lo v) pg n = counter s pg n) ∧ (∀ i, getChan (wrf s a hi lo v) i = getChan s i) ∧
    (∀ i, getBar (wrf s a hi lo v) i = getBar s i) ∧ (∀ i, getEngine (wrf s a hi lo v) i = getEngine s i) ∧
    (∀ i, getLane (wrf s a hi lo v) i = getLane s i) ∧ (∀ i, getAxis (wrf s a hi lo v) i = getAxis s i) ∧
    (∀ i, getCmp (wrf s a hi lo v) i = getCmp s i) ∧ (∀ i, getCtx (wrf s a hi lo v) i = getCtx s i) ∧
    (∀ i, getSession (wrf s a hi lo v) i = getSession s i) ∧ (∀ i, getDram (wrf s a hi lo v) i = getDram s i) ∧
    (∀ i, getSub (wrf s a hi lo v) i = getSub s i) := by
  refine ⟨?_, ?_, ?_, ?_, ?_, ?_, ?_, ?_, ?_, ?_, ?_, ?_, ?_, ?_, ?_, ?_, ?_, ?_, ?_, ?_, ?_, ?_, ?_, ?_, ?_, ?_, ?_, ?_, ?_, ?_, ?_, ?_, ?_, ?_, ?_, ?_⟩ <;> first | rfl | (intros; rfl)

@[simp] theorem setCm_fields (s : State) (a v : Nat) :
    (setCm s a v).regs = s.regs ∧ (setCm s a v).held = s.held ∧ (setCm s a v).latches = s.latches ∧
    (setCm s a v).captured = s.captured ∧ (setCm s a v).lastRead = s.lastRead ∧ (setCm s a v).counters = s.counters ∧
    (setCm s a v).rime = s.rime ∧ (setCm s a v).clk = s.clk ∧ (setCm s a v).chans = s.chans ∧
    (setCm s a v).print = s.print ∧ (setCm s a v).dram = s.dram ∧ (setCm s a v).host = s.host ∧
    (setCm s a v).links = s.links ∧ (setCm s a v).cams = s.cams ∧ (setCm s a v).pair = s.pair ∧
    (setCm s a v).motion = s.motion ∧ (setCm s a v).evc = s.evc ∧ (setCm s a v).power = s.power ∧
    (setCm s a v).disp = s.disp ∧ (setCm s a v).sys = s.sys ∧ (setCm s a v).snapWait = s.snapWait ∧
    (setCm s a v).freeCount = s.freeCount ∧ (setCm s a v).out = s.out ∧ (setCm s a v).pending = s.pending ∧
    (∀ i, rd (setCm s a v) i = rd s i) ∧ (∀ pg n, counter (setCm s a v) pg n = counter s pg n) ∧
    (∀ i, getChan (setCm s a v) i = getChan s i) ∧ (∀ i, getBar (setCm s a v) i = getBar s i) ∧
    (∀ i, getEngine (setCm s a v) i = getEngine s i) ∧ (∀ i, getLane (setCm s a v) i = getLane s i) ∧
    (∀ i, getAxis (setCm s a v) i = getAxis s i) ∧ (∀ i, getCmp (setCm s a v) i = getCmp s i) ∧
    (∀ i, getCtx (setCm s a v) i = getCtx s i) ∧ (∀ i, getSession (setCm s a v) i = getSession s i) ∧
    (∀ i, getDram (setCm s a v) i = getDram s i) ∧ (∀ i, getSub (setCm s a v) i = getSub s i) := by
  refine ⟨?_, ?_, ?_, ?_, ?_, ?_, ?_, ?_, ?_, ?_, ?_, ?_, ?_, ?_, ?_, ?_, ?_, ?_, ?_, ?_, ?_, ?_, ?_, ?_, ?_, ?_, ?_, ?_, ?_, ?_, ?_, ?_, ?_, ?_, ?_, ?_⟩ <;> first | rfl | (intros; rfl)

@[simp] theorem setCounter_fields (s : State) (p k v : Nat) :
    (setCounter s p k v).regs = s.regs ∧ (setCounter s p k v).committed = s.committed ∧
    (setCounter s p k v).held = s.held ∧ (setCounter s p k v).latches = s.latches ∧
    (setCounter s p k v).captured = s.captured ∧ (setCounter s p k v).lastRead = s.lastRead ∧
    (setCounter s p k v).rime = s.rime ∧ (setCounter s p k v).clk = s.clk ∧ (setCounter s p k v).chans = s.chans ∧
    (setCounter s p k v).print = s.print ∧ (setCounter s p k v).dram = s.dram ∧ (setCounter s p k v).host = s.host ∧
    (setCounter s p k v).links = s.links ∧ (setCounter s p k v).cams = s.cams ∧ (setCounter s p k v).pair = s.pair ∧
    (setCounter s p k v).motion = s.motion ∧ (setCounter s p k v).evc = s.evc ∧
    (setCounter s p k v).power = s.power ∧ (setCounter s p k v).disp = s.disp ∧ (setCounter s p k v).sys = s.sys ∧
    (setCounter s p k v).snapWait = s.snapWait ∧ (setCounter s p k v).freeCount = s.freeCount ∧
    (setCounter s p k v).out = s.out ∧ (setCounter s p k v).pending = s.pending ∧
    (∀ i, rd (setCounter s p k v) i = rd s i) ∧ (∀ i, cm (setCounter s p k v) i = cm s i) ∧
    (∀ i, getChan (setCounter s p k v) i = getChan s i) ∧ (∀ i, getBar (setCounter s p k v) i = getBar s i) ∧
    (∀ i, getEngine (setCounter s p k v) i = getEngine s i) ∧ (∀ i, getLane (setCounter s p k v) i = getLane s i) ∧
    (∀ i, getAxis (setCounter s p k v) i = getAxis s i) ∧ (∀ i, getCmp (setCounter s p k v) i = getCmp s i) ∧
    (∀ i, getCtx (setCounter s p k v) i = getCtx s i) ∧ (∀ i, getSession (setCounter s p k v) i = getSession s i) ∧
    (∀ i, getDram (setCounter s p k v) i = getDram s i) ∧ (∀ i, getSub (setCounter s p k v) i = getSub s i) := by
  refine ⟨?_, ?_, ?_, ?_, ?_, ?_, ?_, ?_, ?_, ?_, ?_, ?_, ?_, ?_, ?_, ?_, ?_, ?_, ?_, ?_, ?_, ?_, ?_, ?_, ?_, ?_, ?_, ?_, ?_, ?_, ?_, ?_, ?_, ?_, ?_, ?_⟩ <;> first | rfl | (intros; rfl)

@[simp] theorem countN_fields (s : State) (p k n : Nat) :
    (countN s p k n).regs = s.regs ∧ (countN s p k n).committed = s.committed ∧ (countN s p k n).held = s.held ∧
    (countN s p k n).latches = s.latches ∧ (countN s p k n).captured = s.captured ∧
    (countN s p k n).lastRead = s.lastRead ∧ (countN s p k n).rime = s.rime ∧ (countN s p k n).clk = s.clk ∧
    (countN s p k n).chans = s.chans ∧ (countN s p k n).print = s.print ∧ (countN s p k n).dram = s.dram ∧
    (countN s p k n).host = s.host ∧ (countN s p k n).links = s.links ∧ (countN s p k n).cams = s.cams ∧
    (countN s p k n).pair = s.pair ∧ (countN s p k n).motion = s.motion ∧ (countN s p k n).evc = s.evc ∧
    (countN s p k n).power = s.power ∧ (countN s p k n).disp = s.disp ∧ (countN s p k n).sys = s.sys ∧
    (countN s p k n).snapWait = s.snapWait ∧ (countN s p k n).freeCount = s.freeCount ∧
    (countN s p k n).out = s.out ∧ (countN s p k n).pending = s.pending ∧ (∀ i, rd (countN s p k n) i = rd s i) ∧
    (∀ i, cm (countN s p k n) i = cm s i) ∧ (∀ i, getChan (countN s p k n) i = getChan s i) ∧
    (∀ i, getBar (countN s p k n) i = getBar s i) ∧ (∀ i, getEngine (countN s p k n) i = getEngine s i) ∧
    (∀ i, getLane (countN s p k n) i = getLane s i) ∧ (∀ i, getAxis (countN s p k n) i = getAxis s i) ∧
    (∀ i, getCmp (countN s p k n) i = getCmp s i) ∧ (∀ i, getCtx (countN s p k n) i = getCtx s i) ∧
    (∀ i, getSession (countN s p k n) i = getSession s i) ∧ (∀ i, getDram (countN s p k n) i = getDram s i) ∧
    (∀ i, getSub (countN s p k n) i = getSub s i) := by
  refine ⟨?_, ?_, ?_, ?_, ?_, ?_, ?_, ?_, ?_, ?_, ?_, ?_, ?_, ?_, ?_, ?_, ?_, ?_, ?_, ?_, ?_, ?_, ?_, ?_, ?_, ?_, ?_, ?_, ?_, ?_, ?_, ?_, ?_, ?_, ?_, ?_⟩ <;> first | rfl | (intros; rfl)

@[simp] theorem count_fields (s : State) (p k : Nat) :
    (count s p k).regs = s.regs ∧ (count s p k).committed = s.committed ∧ (count s p k).held = s.held ∧
    (count s p k).latches = s.latches ∧ (count s p k).captured = s.captured ∧ (count s p k).lastRead = s.lastRead ∧
    (count s p k).rime = s.rime ∧ (count s p k).clk = s.clk ∧ (count s p k).chans = s.chans ∧
    (count s p k).print = s.print ∧ (count s p k).dram = s.dram ∧ (count s p k).host = s.host ∧
    (count s p k).links = s.links ∧ (count s p k).cams = s.cams ∧ (count s p k).pair = s.pair ∧
    (count s p k).motion = s.motion ∧ (count s p k).evc = s.evc ∧ (count s p k).power = s.power ∧
    (count s p k).disp = s.disp ∧ (count s p k).sys = s.sys ∧ (count s p k).snapWait = s.snapWait ∧
    (count s p k).freeCount = s.freeCount ∧ (count s p k).out = s.out ∧ (count s p k).pending = s.pending ∧
    (∀ i, rd (count s p k) i = rd s i) ∧ (∀ i, cm (count s p k) i = cm s i) ∧
    (∀ i, getChan (count s p k) i = getChan s i) ∧ (∀ i, getBar (count s p k) i = getBar s i) ∧
    (∀ i, getEngine (count s p k) i = getEngine s i) ∧ (∀ i, getLane (count s p k) i = getLane s i) ∧
    (∀ i, getAxis (count s p k) i = getAxis s i) ∧ (∀ i, getCmp (count s p k) i = getCmp s i) ∧
    (∀ i, getCtx (count s p k) i = getCtx s i) ∧ (∀ i, getSession (count s p k) i = getSession s i) ∧
    (∀ i, getDram (count s p k) i = getDram s i) ∧ (∀ i, getSub (count s p k) i = getSub s i) := by
  refine ⟨?_, ?_, ?_, ?_, ?_, ?_, ?_, ?_, ?_, ?_, ?_, ?_, ?_, ?_, ?_, ?_, ?_, ?_, ?_, ?_, ?_, ?_, ?_, ?_, ?_, ?_, ?_, ?_, ?_, ?_, ?_, ?_, ?_, ?_, ?_, ?_⟩ <;> first | rfl | (intros; rfl)

@[simp] theorem answerRead_fields (s : State) (k v : Nat) :
    (answerRead s k v).regs = s.regs ∧ (answerRead s k v).committed = s.committed ∧
    (answerRead s k v).held = s.held ∧ (answerRead s k v).latches = s.latches ∧
    (answerRead s k v).captured = s.captured ∧ (answerRead s k v).lastRead = tset s.lastRead k (BitVec.ofNat 32 v) ∧
    (answerRead s k v).counters = s.counters ∧ (answerRead s k v).rime = s.rime ∧ (answerRead s k v).clk = s.clk ∧
    (answerRead s k v).chans = s.chans ∧ (answerRead s k v).print = s.print ∧ (answerRead s k v).dram = s.dram ∧
    (answerRead s k v).host = s.host ∧ (answerRead s k v).links = s.links ∧ (answerRead s k v).cams = s.cams ∧
    (answerRead s k v).pair = s.pair ∧ (answerRead s k v).motion = s.motion ∧ (answerRead s k v).evc = s.evc ∧
    (answerRead s k v).power = s.power ∧ (answerRead s k v).disp = s.disp ∧ (answerRead s k v).sys = s.sys ∧
    (answerRead s k v).snapWait = s.snapWait ∧ (answerRead s k v).freeCount = s.freeCount ∧
    (answerRead s k v).out = s.out ∧ (answerRead s k v).pending = s.pending ∧
    (∀ i, rd (answerRead s k v) i = rd s i) ∧ (∀ i, cm (answerRead s k v) i = cm s i) ∧
    (∀ pg n, counter (answerRead s k v) pg n = counter s pg n) ∧ (∀ i, getChan (answerRead s k v) i = getChan s i) ∧
    (∀ i, getBar (answerRead s k v) i = getBar s i) ∧ (∀ i, getEngine (answerRead s k v) i = getEngine s i) ∧
    (∀ i, getLane (answerRead s k v) i = getLane s i) ∧ (∀ i, getAxis (answerRead s k v) i = getAxis s i) ∧
    (∀ i, getCmp (answerRead s k v) i = getCmp s i) ∧ (∀ i, getCtx (answerRead s k v) i = getCtx s i) ∧
    (∀ i, getSession (answerRead s k v) i = getSession s i) ∧ (∀ i, getDram (answerRead s k v) i = getDram s i) ∧
    (∀ i, getSub (answerRead s k v) i = getSub s i) := by
  refine ⟨?_, ?_, ?_, ?_, ?_, ?_, ?_, ?_, ?_, ?_, ?_, ?_, ?_, ?_, ?_, ?_, ?_, ?_, ?_, ?_, ?_, ?_, ?_, ?_, ?_, ?_, ?_, ?_, ?_, ?_, ?_, ?_, ?_, ?_, ?_, ?_, ?_, ?_⟩ <;> first | rfl | (intros; rfl)

@[simp] theorem setLatch_fields (s : State) (rq : Requester) (v : Nat) :
    (setLatch s rq v).regs = s.regs ∧ (setLatch s rq v).committed = s.committed ∧ (setLatch s rq v).held = s.held ∧
    (setLatch s rq v).latches = tset s.latches (rqKey rq) (v % 2 ^ 32) ∧ (setLatch s rq v).captured = s.captured ∧
    (setLatch s rq v).lastRead = s.lastRead ∧ (setLatch s rq v).counters = s.counters ∧
    (setLatch s rq v).rime = s.rime ∧ (setLatch s rq v).clk = s.clk ∧ (setLatch s rq v).chans = s.chans ∧
    (setLatch s rq v).print = s.print ∧ (setLatch s rq v).dram = s.dram ∧ (setLatch s rq v).host = s.host ∧
    (setLatch s rq v).links = s.links ∧ (setLatch s rq v).cams = s.cams ∧ (setLatch s rq v).pair = s.pair ∧
    (setLatch s rq v).motion = s.motion ∧ (setLatch s rq v).evc = s.evc ∧ (setLatch s rq v).power = s.power ∧
    (setLatch s rq v).disp = s.disp ∧ (setLatch s rq v).sys = s.sys ∧ (setLatch s rq v).snapWait = s.snapWait ∧
    (setLatch s rq v).freeCount = s.freeCount ∧ (setLatch s rq v).out = s.out ∧
    (setLatch s rq v).pending = s.pending ∧ (∀ i, rd (setLatch s rq v) i = rd s i) ∧
    (∀ i, cm (setLatch s rq v) i = cm s i) ∧ (∀ pg n, counter (setLatch s rq v) pg n = counter s pg n) ∧
    (∀ i, getChan (setLatch s rq v) i = getChan s i) ∧ (∀ i, getBar (setLatch s rq v) i = getBar s i) ∧
    (∀ i, getEngine (setLatch s rq v) i = getEngine s i) ∧ (∀ i, getLane (setLatch s rq v) i = getLane s i) ∧
    (∀ i, getAxis (setLatch s rq v) i = getAxis s i) ∧ (∀ i, getCmp (setLatch s rq v) i = getCmp s i) ∧
    (∀ i, getCtx (setLatch s rq v) i = getCtx s i) ∧ (∀ i, getSession (setLatch s rq v) i = getSession s i) ∧
    (∀ i, getDram (setLatch s rq v) i = getDram s i) ∧ (∀ i, getSub (setLatch s rq v) i = getSub s i) := by
  refine ⟨?_, ?_, ?_, ?_, ?_, ?_, ?_, ?_, ?_, ?_, ?_, ?_, ?_, ?_, ?_, ?_, ?_, ?_, ?_, ?_, ?_, ?_, ?_, ?_, ?_, ?_, ?_, ?_, ?_, ?_, ?_, ?_, ?_, ?_, ?_, ?_, ?_, ?_⟩ <;> first | rfl | (intros; rfl)

@[simp] theorem setChan_fields (s : State) (c : Nat) (v : Channel) :
    (setChan s c v).regs = s.regs ∧ (setChan s c v).committed = s.committed ∧ (setChan s c v).held = s.held ∧
    (setChan s c v).latches = s.latches ∧ (setChan s c v).captured = s.captured ∧
    (setChan s c v).lastRead = s.lastRead ∧ (setChan s c v).counters = s.counters ∧ (setChan s c v).rime = s.rime ∧
    (setChan s c v).clk = s.clk ∧ (setChan s c v).chans = tset s.chans c v ∧ (setChan s c v).print = s.print ∧
    (setChan s c v).dram = s.dram ∧ (setChan s c v).host = s.host ∧ (setChan s c v).links = s.links ∧
    (setChan s c v).cams = s.cams ∧ (setChan s c v).pair = s.pair ∧ (setChan s c v).motion = s.motion ∧
    (setChan s c v).evc = s.evc ∧ (setChan s c v).power = s.power ∧ (setChan s c v).disp = s.disp ∧
    (setChan s c v).sys = s.sys ∧ (setChan s c v).snapWait = s.snapWait ∧ (setChan s c v).freeCount = s.freeCount ∧
    (setChan s c v).out = s.out ∧ (setChan s c v).pending = s.pending ∧ (∀ i, rd (setChan s c v) i = rd s i) ∧
    (∀ i, cm (setChan s c v) i = cm s i) ∧ (∀ pg n, counter (setChan s c v) pg n = counter s pg n) ∧
    (∀ i, getBar (setChan s c v) i = getBar s i) ∧ (∀ i, getEngine (setChan s c v) i = getEngine s i) ∧
    (∀ i, getLane (setChan s c v) i = getLane s i) ∧ (∀ i, getAxis (setChan s c v) i = getAxis s i) ∧
    (∀ i, getCmp (setChan s c v) i = getCmp s i) ∧ (∀ i, getCtx (setChan s c v) i = getCtx s i) ∧
    (∀ i, getSession (setChan s c v) i = getSession s i) ∧ (∀ i, getDram (setChan s c v) i = getDram s i) ∧
    (∀ i, getSub (setChan s c v) i = getSub s i) := by
  refine ⟨?_, ?_, ?_, ?_, ?_, ?_, ?_, ?_, ?_, ?_, ?_, ?_, ?_, ?_, ?_, ?_, ?_, ?_, ?_, ?_, ?_, ?_, ?_, ?_, ?_, ?_, ?_, ?_, ?_, ?_, ?_, ?_, ?_, ?_, ?_, ?_, ?_⟩ <;> first | rfl | (intros; rfl)

@[simp] theorem setBar_fields (s : State) (b : Nat) (v : Bar) :
    (setBar s b v).regs = s.regs ∧ (setBar s b v).committed = s.committed ∧ (setBar s b v).held = s.held ∧
    (setBar s b v).latches = s.latches ∧ (setBar s b v).captured = s.captured ∧
    (setBar s b v).lastRead = s.lastRead ∧ (setBar s b v).counters = s.counters ∧ (setBar s b v).rime = s.rime ∧
    (setBar s b v).clk = s.clk ∧ (setBar s b v).chans = s.chans ∧ (setBar s b v).dram = s.dram ∧
    (setBar s b v).host = s.host ∧ (setBar s b v).links = s.links ∧ (setBar s b v).cams = s.cams ∧
    (setBar s b v).pair = s.pair ∧ (setBar s b v).motion = s.motion ∧ (setBar s b v).evc = s.evc ∧
    (setBar s b v).power = s.power ∧ (setBar s b v).disp = s.disp ∧ (setBar s b v).sys = s.sys ∧
    (setBar s b v).snapWait = s.snapWait ∧ (setBar s b v).freeCount = s.freeCount ∧ (setBar s b v).out = s.out ∧
    (setBar s b v).pending = s.pending ∧ (∀ i, rd (setBar s b v) i = rd s i) ∧ (∀ i, cm (setBar s b v) i = cm s i) ∧
    (∀ pg n, counter (setBar s b v) pg n = counter s pg n) ∧ (∀ i, getChan (setBar s b v) i = getChan s i) ∧
    (∀ i, getEngine (setBar s b v) i = getEngine s i) ∧ (∀ i, getLane (setBar s b v) i = getLane s i) ∧
    (∀ i, getAxis (setBar s b v) i = getAxis s i) ∧ (∀ i, getCmp (setBar s b v) i = getCmp s i) ∧
    (∀ i, getCtx (setBar s b v) i = getCtx s i) ∧ (∀ i, getSession (setBar s b v) i = getSession s i) ∧
    (∀ i, getDram (setBar s b v) i = getDram s i) ∧ (∀ i, getSub (setBar s b v) i = getSub s i) := by
  refine ⟨?_, ?_, ?_, ?_, ?_, ?_, ?_, ?_, ?_, ?_, ?_, ?_, ?_, ?_, ?_, ?_, ?_, ?_, ?_, ?_, ?_, ?_, ?_, ?_, ?_, ?_, ?_, ?_, ?_, ?_, ?_, ?_, ?_, ?_, ?_, ?_⟩ <;> first | rfl | (intros; rfl)

@[simp] theorem setEngine_fields (s : State) (e : Nat) (v : Engine) :
    (setEngine s e v).regs = s.regs ∧ (setEngine s e v).committed = s.committed ∧ (setEngine s e v).held = s.held ∧
    (setEngine s e v).latches = s.latches ∧ (setEngine s e v).captured = s.captured ∧
    (setEngine s e v).lastRead = s.lastRead ∧ (setEngine s e v).counters = s.counters ∧
    (setEngine s e v).rime = s.rime ∧ (setEngine s e v).clk = s.clk ∧ (setEngine s e v).chans = s.chans ∧
    (setEngine s e v).dram = s.dram ∧ (setEngine s e v).host = s.host ∧ (setEngine s e v).links = s.links ∧
    (setEngine s e v).cams = s.cams ∧ (setEngine s e v).pair = s.pair ∧ (setEngine s e v).motion = s.motion ∧
    (setEngine s e v).evc = s.evc ∧ (setEngine s e v).power = s.power ∧ (setEngine s e v).disp = s.disp ∧
    (setEngine s e v).sys = s.sys ∧ (setEngine s e v).snapWait = s.snapWait ∧
    (setEngine s e v).freeCount = s.freeCount ∧ (setEngine s e v).out = s.out ∧
    (setEngine s e v).pending = s.pending ∧ (∀ i, rd (setEngine s e v) i = rd s i) ∧
    (∀ i, cm (setEngine s e v) i = cm s i) ∧ (∀ pg n, counter (setEngine s e v) pg n = counter s pg n) ∧
    (∀ i, getChan (setEngine s e v) i = getChan s i) ∧ (∀ i, getBar (setEngine s e v) i = getBar s i) ∧
    (∀ i, getLane (setEngine s e v) i = getLane s i) ∧ (∀ i, getAxis (setEngine s e v) i = getAxis s i) ∧
    (∀ i, getCmp (setEngine s e v) i = getCmp s i) ∧ (∀ i, getCtx (setEngine s e v) i = getCtx s i) ∧
    (∀ i, getSession (setEngine s e v) i = getSession s i) ∧ (∀ i, getDram (setEngine s e v) i = getDram s i) ∧
    (∀ i, getSub (setEngine s e v) i = getSub s i) := by
  refine ⟨?_, ?_, ?_, ?_, ?_, ?_, ?_, ?_, ?_, ?_, ?_, ?_, ?_, ?_, ?_, ?_, ?_, ?_, ?_, ?_, ?_, ?_, ?_, ?_, ?_, ?_, ?_, ?_, ?_, ?_, ?_, ?_, ?_, ?_, ?_, ?_⟩ <;> first | rfl | (intros; rfl)

@[simp] theorem setJob_fields (s : State) (j : Job) :
    (setJob s j).regs = s.regs ∧ (setJob s j).committed = s.committed ∧ (setJob s j).held = s.held ∧
    (setJob s j).latches = s.latches ∧ (setJob s j).captured = s.captured ∧ (setJob s j).lastRead = s.lastRead ∧
    (setJob s j).counters = s.counters ∧ (setJob s j).rime = s.rime ∧ (setJob s j).clk = s.clk ∧
    (setJob s j).chans = s.chans ∧ (setJob s j).dram = s.dram ∧ (setJob s j).host = s.host ∧
    (setJob s j).links = s.links ∧ (setJob s j).cams = s.cams ∧ (setJob s j).pair = s.pair ∧
    (setJob s j).motion = s.motion ∧ (setJob s j).evc = s.evc ∧ (setJob s j).power = s.power ∧
    (setJob s j).disp = s.disp ∧ (setJob s j).sys = s.sys ∧ (setJob s j).snapWait = s.snapWait ∧
    (setJob s j).freeCount = s.freeCount ∧ (setJob s j).out = s.out ∧ (setJob s j).pending = s.pending ∧
    (∀ i, rd (setJob s j) i = rd s i) ∧ (∀ i, cm (setJob s j) i = cm s i) ∧
    (∀ pg n, counter (setJob s j) pg n = counter s pg n) ∧ (∀ i, getChan (setJob s j) i = getChan s i) ∧
    (∀ i, getBar (setJob s j) i = getBar s i) ∧ (∀ i, getEngine (setJob s j) i = getEngine s i) ∧
    (∀ i, getLane (setJob s j) i = getLane s i) ∧ (∀ i, getAxis (setJob s j) i = getAxis s i) ∧
    (∀ i, getCmp (setJob s j) i = getCmp s i) ∧ (∀ i, getCtx (setJob s j) i = getCtx s i) ∧
    (∀ i, getSession (setJob s j) i = getSession s i) ∧ (∀ i, getDram (setJob s j) i = getDram s i) ∧
    (∀ i, getSub (setJob s j) i = getSub s i) := by
  refine ⟨?_, ?_, ?_, ?_, ?_, ?_, ?_, ?_, ?_, ?_, ?_, ?_, ?_, ?_, ?_, ?_, ?_, ?_, ?_, ?_, ?_, ?_, ?_, ?_, ?_, ?_, ?_, ?_, ?_, ?_, ?_, ?_, ?_, ?_, ?_, ?_, ?_⟩ <;> first | rfl | (intros; rfl)

@[simp] theorem setTile_fields (s : State) (t : Tile) :
    (setTile s t).regs = s.regs ∧ (setTile s t).committed = s.committed ∧ (setTile s t).held = s.held ∧
    (setTile s t).latches = s.latches ∧ (setTile s t).captured = s.captured ∧ (setTile s t).lastRead = s.lastRead ∧
    (setTile s t).counters = s.counters ∧ (setTile s t).rime = s.rime ∧ (setTile s t).clk = s.clk ∧
    (setTile s t).chans = s.chans ∧ (setTile s t).dram = s.dram ∧ (setTile s t).host = s.host ∧
    (setTile s t).links = s.links ∧ (setTile s t).cams = s.cams ∧ (setTile s t).pair = s.pair ∧
    (setTile s t).motion = s.motion ∧ (setTile s t).evc = s.evc ∧ (setTile s t).power = s.power ∧
    (setTile s t).disp = s.disp ∧ (setTile s t).sys = s.sys ∧ (setTile s t).snapWait = s.snapWait ∧
    (setTile s t).freeCount = s.freeCount ∧ (setTile s t).out = s.out ∧ (setTile s t).pending = s.pending ∧
    (∀ i, rd (setTile s t) i = rd s i) ∧ (∀ i, cm (setTile s t) i = cm s i) ∧
    (∀ pg n, counter (setTile s t) pg n = counter s pg n) ∧ (∀ i, getChan (setTile s t) i = getChan s i) ∧
    (∀ i, getBar (setTile s t) i = getBar s i) ∧ (∀ i, getEngine (setTile s t) i = getEngine s i) ∧
    (∀ i, getLane (setTile s t) i = getLane s i) ∧ (∀ i, getAxis (setTile s t) i = getAxis s i) ∧
    (∀ i, getCmp (setTile s t) i = getCmp s i) ∧ (∀ i, getCtx (setTile s t) i = getCtx s i) ∧
    (∀ i, getSession (setTile s t) i = getSession s i) ∧ (∀ i, getDram (setTile s t) i = getDram s i) ∧
    (∀ i, getSub (setTile s t) i = getSub s i) := by
  refine ⟨?_, ?_, ?_, ?_, ?_, ?_, ?_, ?_, ?_, ?_, ?_, ?_, ?_, ?_, ?_, ?_, ?_, ?_, ?_, ?_, ?_, ?_, ?_, ?_, ?_, ?_, ?_, ?_, ?_, ?_, ?_, ?_, ?_, ?_, ?_, ?_, ?_⟩ <;> first | rfl | (intros; rfl)

@[simp] theorem setLane_fields (s : State) (l : Nat) (v : Lane) :
    (setLane s l v).regs = s.regs ∧ (setLane s l v).committed = s.committed ∧ (setLane s l v).held = s.held ∧
    (setLane s l v).latches = s.latches ∧ (setLane s l v).captured = s.captured ∧
    (setLane s l v).lastRead = s.lastRead ∧ (setLane s l v).counters = s.counters ∧ (setLane s l v).rime = s.rime ∧
    (setLane s l v).clk = s.clk ∧ (setLane s l v).chans = s.chans ∧ (setLane s l v).print = s.print ∧
    (setLane s l v).dram = s.dram ∧ (setLane s l v).host = s.host ∧ (setLane s l v).cams = s.cams ∧
    (setLane s l v).pair = s.pair ∧ (setLane s l v).motion = s.motion ∧ (setLane s l v).evc = s.evc ∧
    (setLane s l v).power = s.power ∧ (setLane s l v).disp = s.disp ∧ (setLane s l v).sys = s.sys ∧
    (setLane s l v).snapWait = s.snapWait ∧ (setLane s l v).freeCount = s.freeCount ∧ (setLane s l v).out = s.out ∧
    (setLane s l v).pending = s.pending ∧ (∀ i, rd (setLane s l v) i = rd s i) ∧
    (∀ i, cm (setLane s l v) i = cm s i) ∧ (∀ pg n, counter (setLane s l v) pg n = counter s pg n) ∧
    (∀ i, getChan (setLane s l v) i = getChan s i) ∧ (∀ i, getBar (setLane s l v) i = getBar s i) ∧
    (∀ i, getEngine (setLane s l v) i = getEngine s i) ∧ (∀ i, getAxis (setLane s l v) i = getAxis s i) ∧
    (∀ i, getCmp (setLane s l v) i = getCmp s i) ∧ (∀ i, getCtx (setLane s l v) i = getCtx s i) ∧
    (∀ i, getSession (setLane s l v) i = getSession s i) ∧ (∀ i, getDram (setLane s l v) i = getDram s i) ∧
    (∀ i, getSub (setLane s l v) i = getSub s i) := by
  refine ⟨?_, ?_, ?_, ?_, ?_, ?_, ?_, ?_, ?_, ?_, ?_, ?_, ?_, ?_, ?_, ?_, ?_, ?_, ?_, ?_, ?_, ?_, ?_, ?_, ?_, ?_, ?_, ?_, ?_, ?_, ?_, ?_, ?_, ?_, ?_, ?_⟩ <;> first | rfl | (intros; rfl)

@[simp] theorem setAxis_fields (s : State) (a : Nat) (v : Axis) :
    (setAxis s a v).regs = s.regs ∧ (setAxis s a v).committed = s.committed ∧ (setAxis s a v).held = s.held ∧
    (setAxis s a v).latches = s.latches ∧ (setAxis s a v).captured = s.captured ∧
    (setAxis s a v).lastRead = s.lastRead ∧ (setAxis s a v).counters = s.counters ∧ (setAxis s a v).rime = s.rime ∧
    (setAxis s a v).clk = s.clk ∧ (setAxis s a v).chans = s.chans ∧ (setAxis s a v).print = s.print ∧
    (setAxis s a v).dram = s.dram ∧ (setAxis s a v).host = s.host ∧ (setAxis s a v).links = s.links ∧
    (setAxis s a v).cams = s.cams ∧ (setAxis s a v).pair = s.pair ∧ (setAxis s a v).evc = s.evc ∧
    (setAxis s a v).power = s.power ∧ (setAxis s a v).disp = s.disp ∧ (setAxis s a v).sys = s.sys ∧
    (setAxis s a v).snapWait = s.snapWait ∧ (setAxis s a v).freeCount = s.freeCount ∧ (setAxis s a v).out = s.out ∧
    (setAxis s a v).pending = s.pending ∧ (∀ i, rd (setAxis s a v) i = rd s i) ∧
    (∀ i, cm (setAxis s a v) i = cm s i) ∧ (∀ pg n, counter (setAxis s a v) pg n = counter s pg n) ∧
    (∀ i, getChan (setAxis s a v) i = getChan s i) ∧ (∀ i, getBar (setAxis s a v) i = getBar s i) ∧
    (∀ i, getEngine (setAxis s a v) i = getEngine s i) ∧ (∀ i, getLane (setAxis s a v) i = getLane s i) ∧
    (∀ i, getCmp (setAxis s a v) i = getCmp s i) ∧ (∀ i, getCtx (setAxis s a v) i = getCtx s i) ∧
    (∀ i, getSession (setAxis s a v) i = getSession s i) ∧ (∀ i, getDram (setAxis s a v) i = getDram s i) ∧
    (∀ i, getSub (setAxis s a v) i = getSub s i) := by
  refine ⟨?_, ?_, ?_, ?_, ?_, ?_, ?_, ?_, ?_, ?_, ?_, ?_, ?_, ?_, ?_, ?_, ?_, ?_, ?_, ?_, ?_, ?_, ?_, ?_, ?_, ?_, ?_, ?_, ?_, ?_, ?_, ?_, ?_, ?_, ?_, ?_⟩ <;> first | rfl | (intros; rfl)

@[simp] theorem setCmp_fields (s : State) (k : Nat) (v : Cmp) :
    (setCmp s k v).regs = s.regs ∧ (setCmp s k v).committed = s.committed ∧ (setCmp s k v).held = s.held ∧
    (setCmp s k v).latches = s.latches ∧ (setCmp s k v).captured = s.captured ∧
    (setCmp s k v).lastRead = s.lastRead ∧ (setCmp s k v).counters = s.counters ∧ (setCmp s k v).rime = s.rime ∧
    (setCmp s k v).clk = s.clk ∧ (setCmp s k v).chans = s.chans ∧ (setCmp s k v).print = s.print ∧
    (setCmp s k v).dram = s.dram ∧ (setCmp s k v).host = s.host ∧ (setCmp s k v).links = s.links ∧
    (setCmp s k v).cams = s.cams ∧ (setCmp s k v).pair = s.pair ∧ (setCmp s k v).evc = s.evc ∧
    (setCmp s k v).power = s.power ∧ (setCmp s k v).disp = s.disp ∧ (setCmp s k v).sys = s.sys ∧
    (setCmp s k v).snapWait = s.snapWait ∧ (setCmp s k v).freeCount = s.freeCount ∧ (setCmp s k v).out = s.out ∧
    (setCmp s k v).pending = s.pending ∧ (∀ i, rd (setCmp s k v) i = rd s i) ∧ (∀ i, cm (setCmp s k v) i = cm s i) ∧
    (∀ pg n, counter (setCmp s k v) pg n = counter s pg n) ∧ (∀ i, getChan (setCmp s k v) i = getChan s i) ∧
    (∀ i, getBar (setCmp s k v) i = getBar s i) ∧ (∀ i, getEngine (setCmp s k v) i = getEngine s i) ∧
    (∀ i, getLane (setCmp s k v) i = getLane s i) ∧ (∀ i, getAxis (setCmp s k v) i = getAxis s i) ∧
    (∀ i, getCtx (setCmp s k v) i = getCtx s i) ∧ (∀ i, getSession (setCmp s k v) i = getSession s i) ∧
    (∀ i, getDram (setCmp s k v) i = getDram s i) ∧ (∀ i, getSub (setCmp s k v) i = getSub s i) := by
  refine ⟨?_, ?_, ?_, ?_, ?_, ?_, ?_, ?_, ?_, ?_, ?_, ?_, ?_, ?_, ?_, ?_, ?_, ?_, ?_, ?_, ?_, ?_, ?_, ?_, ?_, ?_, ?_, ?_, ?_, ?_, ?_, ?_, ?_, ?_, ?_, ?_⟩ <;> first | rfl | (intros; rfl)

@[simp] theorem setCtx_fields (s : State) (x : Nat) (v : Ctx) :
    (setCtx s x v).regs = s.regs ∧ (setCtx s x v).committed = s.committed ∧ (setCtx s x v).held = s.held ∧
    (setCtx s x v).latches = s.latches ∧ (setCtx s x v).captured = s.captured ∧
    (setCtx s x v).lastRead = s.lastRead ∧ (setCtx s x v).counters = s.counters ∧ (setCtx s x v).rime = s.rime ∧
    (setCtx s x v).clk = s.clk ∧ (setCtx s x v).chans = s.chans ∧ (setCtx s x v).print = s.print ∧
    (setCtx s x v).dram = s.dram ∧ (setCtx s x v).host = s.host ∧ (setCtx s x v).links = s.links ∧
    (setCtx s x v).pair = s.pair ∧ (setCtx s x v).motion = s.motion ∧ (setCtx s x v).evc = s.evc ∧
    (setCtx s x v).power = s.power ∧ (setCtx s x v).disp = s.disp ∧ (setCtx s x v).sys = s.sys ∧
    (setCtx s x v).snapWait = s.snapWait ∧ (setCtx s x v).freeCount = s.freeCount ∧ (setCtx s x v).out = s.out ∧
    (setCtx s x v).pending = s.pending ∧ (∀ i, rd (setCtx s x v) i = rd s i) ∧ (∀ i, cm (setCtx s x v) i = cm s i) ∧
    (∀ pg n, counter (setCtx s x v) pg n = counter s pg n) ∧ (∀ i, getChan (setCtx s x v) i = getChan s i) ∧
    (∀ i, getBar (setCtx s x v) i = getBar s i) ∧ (∀ i, getEngine (setCtx s x v) i = getEngine s i) ∧
    (∀ i, getLane (setCtx s x v) i = getLane s i) ∧ (∀ i, getAxis (setCtx s x v) i = getAxis s i) ∧
    (∀ i, getCmp (setCtx s x v) i = getCmp s i) ∧ (∀ i, getSession (setCtx s x v) i = getSession s i) ∧
    (∀ i, getDram (setCtx s x v) i = getDram s i) ∧ (∀ i, getSub (setCtx s x v) i = getSub s i) := by
  refine ⟨?_, ?_, ?_, ?_, ?_, ?_, ?_, ?_, ?_, ?_, ?_, ?_, ?_, ?_, ?_, ?_, ?_, ?_, ?_, ?_, ?_, ?_, ?_, ?_, ?_, ?_, ?_, ?_, ?_, ?_, ?_, ?_, ?_, ?_, ?_, ?_⟩ <;> first | rfl | (intros; rfl)

@[simp] theorem setSession_fields (s : State) (k : Nat) (v : Session) :
    (setSession s k v).regs = s.regs ∧ (setSession s k v).committed = s.committed ∧
    (setSession s k v).held = s.held ∧ (setSession s k v).latches = s.latches ∧
    (setSession s k v).captured = s.captured ∧ (setSession s k v).lastRead = s.lastRead ∧
    (setSession s k v).counters = s.counters ∧ (setSession s k v).rime = s.rime ∧ (setSession s k v).clk = s.clk ∧
    (setSession s k v).chans = s.chans ∧ (setSession s k v).print = s.print ∧ (setSession s k v).dram = s.dram ∧
    (setSession s k v).links = s.links ∧ (setSession s k v).cams = s.cams ∧ (setSession s k v).pair = s.pair ∧
    (setSession s k v).motion = s.motion ∧ (setSession s k v).evc = s.evc ∧ (setSession s k v).power = s.power ∧
    (setSession s k v).disp = s.disp ∧ (setSession s k v).sys = s.sys ∧ (setSession s k v).snapWait = s.snapWait ∧
    (setSession s k v).freeCount = s.freeCount ∧ (setSession s k v).out = s.out ∧
    (setSession s k v).pending = s.pending ∧ (∀ i, rd (setSession s k v) i = rd s i) ∧
    (∀ i, cm (setSession s k v) i = cm s i) ∧ (∀ pg n, counter (setSession s k v) pg n = counter s pg n) ∧
    (∀ i, getChan (setSession s k v) i = getChan s i) ∧ (∀ i, getBar (setSession s k v) i = getBar s i) ∧
    (∀ i, getEngine (setSession s k v) i = getEngine s i) ∧ (∀ i, getLane (setSession s k v) i = getLane s i) ∧
    (∀ i, getAxis (setSession s k v) i = getAxis s i) ∧ (∀ i, getCmp (setSession s k v) i = getCmp s i) ∧
    (∀ i, getCtx (setSession s k v) i = getCtx s i) ∧ (∀ i, getDram (setSession s k v) i = getDram s i) ∧
    (∀ i, getSub (setSession s k v) i = getSub s i) := by
  refine ⟨?_, ?_, ?_, ?_, ?_, ?_, ?_, ?_, ?_, ?_, ?_, ?_, ?_, ?_, ?_, ?_, ?_, ?_, ?_, ?_, ?_, ?_, ?_, ?_, ?_, ?_, ?_, ?_, ?_, ?_, ?_, ?_, ?_, ?_, ?_, ?_⟩ <;> first | rfl | (intros; rfl)

@[simp] theorem setEntry_fields (s : State) (k : Nat) (e : JEntry) :
    (setEntry s k e).regs = s.regs ∧ (setEntry s k e).committed = s.committed ∧ (setEntry s k e).held = s.held ∧
    (setEntry s k e).latches = s.latches ∧ (setEntry s k e).captured = s.captured ∧
    (setEntry s k e).lastRead = s.lastRead ∧ (setEntry s k e).counters = s.counters ∧
    (setEntry s k e).rime = s.rime ∧ (setEntry s k e).clk = s.clk ∧ (setEntry s k e).chans = s.chans ∧
    (setEntry s k e).print = s.print ∧ (setEntry s k e).dram = s.dram ∧ (setEntry s k e).links = s.links ∧
    (setEntry s k e).cams = s.cams ∧ (setEntry s k e).pair = s.pair ∧ (setEntry s k e).motion = s.motion ∧
    (setEntry s k e).evc = s.evc ∧ (setEntry s k e).power = s.power ∧ (setEntry s k e).disp = s.disp ∧
    (setEntry s k e).sys = s.sys ∧ (setEntry s k e).snapWait = s.snapWait ∧
    (setEntry s k e).freeCount = s.freeCount ∧ (setEntry s k e).out = s.out ∧ (setEntry s k e).pending = s.pending ∧
    (∀ i, rd (setEntry s k e) i = rd s i) ∧ (∀ i, cm (setEntry s k e) i = cm s i) ∧
    (∀ pg n, counter (setEntry s k e) pg n = counter s pg n) ∧ (∀ i, getChan (setEntry s k e) i = getChan s i) ∧
    (∀ i, getBar (setEntry s k e) i = getBar s i) ∧ (∀ i, getEngine (setEntry s k e) i = getEngine s i) ∧
    (∀ i, getLane (setEntry s k e) i = getLane s i) ∧ (∀ i, getAxis (setEntry s k e) i = getAxis s i) ∧
    (∀ i, getCmp (setEntry s k e) i = getCmp s i) ∧ (∀ i, getCtx (setEntry s k e) i = getCtx s i) ∧
    (∀ i, getSession (setEntry s k e) i = getSession s i) ∧ (∀ i, getDram (setEntry s k e) i = getDram s i) ∧
    (∀ i, getSub (setEntry s k e) i = getSub s i) := by
  refine ⟨?_, ?_, ?_, ?_, ?_, ?_, ?_, ?_, ?_, ?_, ?_, ?_, ?_, ?_, ?_, ?_, ?_, ?_, ?_, ?_, ?_, ?_, ?_, ?_, ?_, ?_, ?_, ?_, ?_, ?_, ?_, ?_, ?_, ?_, ?_, ?_, ?_⟩ <;> first | rfl | (intros; rfl)

@[simp] theorem setDram_fields (s : State) (c : Nat) (v : DramChan) :
    (setDram s c v).regs = s.regs ∧ (setDram s c v).committed = s.committed ∧ (setDram s c v).held = s.held ∧
    (setDram s c v).latches = s.latches ∧ (setDram s c v).captured = s.captured ∧
    (setDram s c v).lastRead = s.lastRead ∧ (setDram s c v).counters = s.counters ∧ (setDram s c v).rime = s.rime ∧
    (setDram s c v).clk = s.clk ∧ (setDram s c v).chans = s.chans ∧ (setDram s c v).print = s.print ∧
    (setDram s c v).host = s.host ∧ (setDram s c v).links = s.links ∧ (setDram s c v).cams = s.cams ∧
    (setDram s c v).pair = s.pair ∧ (setDram s c v).motion = s.motion ∧ (setDram s c v).evc = s.evc ∧
    (setDram s c v).power = s.power ∧ (setDram s c v).disp = s.disp ∧ (setDram s c v).sys = s.sys ∧
    (setDram s c v).snapWait = s.snapWait ∧ (setDram s c v).freeCount = s.freeCount ∧ (setDram s c v).out = s.out ∧
    (setDram s c v).pending = s.pending ∧ (∀ i, rd (setDram s c v) i = rd s i) ∧
    (∀ i, cm (setDram s c v) i = cm s i) ∧ (∀ pg n, counter (setDram s c v) pg n = counter s pg n) ∧
    (∀ i, getChan (setDram s c v) i = getChan s i) ∧ (∀ i, getBar (setDram s c v) i = getBar s i) ∧
    (∀ i, getEngine (setDram s c v) i = getEngine s i) ∧ (∀ i, getLane (setDram s c v) i = getLane s i) ∧
    (∀ i, getAxis (setDram s c v) i = getAxis s i) ∧ (∀ i, getCmp (setDram s c v) i = getCmp s i) ∧
    (∀ i, getCtx (setDram s c v) i = getCtx s i) ∧ (∀ i, getSession (setDram s c v) i = getSession s i) ∧
    (∀ i, getSub (setDram s c v) i = getSub s i) := by
  refine ⟨?_, ?_, ?_, ?_, ?_, ?_, ?_, ?_, ?_, ?_, ?_, ?_, ?_, ?_, ?_, ?_, ?_, ?_, ?_, ?_, ?_, ?_, ?_, ?_, ?_, ?_, ?_, ?_, ?_, ?_, ?_, ?_, ?_, ?_, ?_, ?_⟩ <;> first | rfl | (intros; rfl)

@[simp] theorem setSub_fields (s : State) (c : Nat) (v : DramSub) :
    (setSub s c v).regs = s.regs ∧ (setSub s c v).committed = s.committed ∧ (setSub s c v).held = s.held ∧
    (setSub s c v).latches = s.latches ∧ (setSub s c v).captured = s.captured ∧
    (setSub s c v).lastRead = s.lastRead ∧ (setSub s c v).counters = s.counters ∧ (setSub s c v).rime = s.rime ∧
    (setSub s c v).clk = s.clk ∧ (setSub s c v).chans = s.chans ∧ (setSub s c v).print = s.print ∧
    (setSub s c v).host = s.host ∧ (setSub s c v).links = s.links ∧ (setSub s c v).cams = s.cams ∧
    (setSub s c v).pair = s.pair ∧ (setSub s c v).motion = s.motion ∧ (setSub s c v).evc = s.evc ∧
    (setSub s c v).power = s.power ∧ (setSub s c v).disp = s.disp ∧ (setSub s c v).sys = s.sys ∧
    (setSub s c v).snapWait = s.snapWait ∧ (setSub s c v).freeCount = s.freeCount ∧ (setSub s c v).out = s.out ∧
    (setSub s c v).pending = s.pending ∧ (∀ i, rd (setSub s c v) i = rd s i) ∧ (∀ i, cm (setSub s c v) i = cm s i) ∧
    (∀ pg n, counter (setSub s c v) pg n = counter s pg n) ∧ (∀ i, getChan (setSub s c v) i = getChan s i) ∧
    (∀ i, getBar (setSub s c v) i = getBar s i) ∧ (∀ i, getEngine (setSub s c v) i = getEngine s i) ∧
    (∀ i, getLane (setSub s c v) i = getLane s i) ∧ (∀ i, getAxis (setSub s c v) i = getAxis s i) ∧
    (∀ i, getCmp (setSub s c v) i = getCmp s i) ∧ (∀ i, getCtx (setSub s c v) i = getCtx s i) ∧
    (∀ i, getSession (setSub s c v) i = getSession s i) ∧ (∀ i, getDram (setSub s c v) i = getDram s i) := by
  refine ⟨?_, ?_, ?_, ?_, ?_, ?_, ?_, ?_, ?_, ?_, ?_, ?_, ?_, ?_, ?_, ?_, ?_, ?_, ?_, ?_, ?_, ?_, ?_, ?_, ?_, ?_, ?_, ?_, ?_, ?_, ?_, ?_, ?_, ?_, ?_, ?_⟩ <;> first | rfl | (intros; rfl)

@[simp] theorem send_fields (s : State) (o : Out) :
    (send s o).regs = s.regs ∧ (send s o).committed = s.committed ∧ (send s o).held = s.held ∧
    (send s o).latches = s.latches ∧ (send s o).captured = s.captured ∧ (send s o).lastRead = s.lastRead ∧
    (send s o).counters = s.counters ∧ (send s o).rime = s.rime ∧ (send s o).clk = s.clk ∧
    (send s o).chans = s.chans ∧ (send s o).print = s.print ∧ (send s o).dram = s.dram ∧ (send s o).host = s.host ∧
    (send s o).links = s.links ∧ (send s o).cams = s.cams ∧ (send s o).pair = s.pair ∧ (send s o).motion = s.motion ∧
    (send s o).evc = s.evc ∧ (send s o).power = s.power ∧ (send s o).disp = s.disp ∧ (send s o).sys = s.sys ∧
    (send s o).snapWait = s.snapWait ∧ (send s o).freeCount = s.freeCount ∧ (send s o).out = s.out ++ [o] ∧
    (send s o).pending = s.pending ∧ (∀ i, rd (send s o) i = rd s i) ∧ (∀ i, cm (send s o) i = cm s i) ∧
    (∀ pg n, counter (send s o) pg n = counter s pg n) ∧ (∀ i, getChan (send s o) i = getChan s i) ∧
    (∀ i, getBar (send s o) i = getBar s i) ∧ (∀ i, getEngine (send s o) i = getEngine s i) ∧
    (∀ i, getLane (send s o) i = getLane s i) ∧ (∀ i, getAxis (send s o) i = getAxis s i) ∧
    (∀ i, getCmp (send s o) i = getCmp s i) ∧ (∀ i, getCtx (send s o) i = getCtx s i) ∧
    (∀ i, getSession (send s o) i = getSession s i) ∧ (∀ i, getDram (send s o) i = getDram s i) ∧
    (∀ i, getSub (send s o) i = getSub s i) := by
  refine ⟨?_, ?_, ?_, ?_, ?_, ?_, ?_, ?_, ?_, ?_, ?_, ?_, ?_, ?_, ?_, ?_, ?_, ?_, ?_, ?_, ?_, ?_, ?_, ?_, ?_, ?_, ?_, ?_, ?_, ?_, ?_, ?_, ?_, ?_, ?_, ?_, ?_, ?_⟩ <;> first | rfl | (intros; rfl)

@[simp] theorem setEvc_fields (s : State) (e : Evc) :
    (setEvc s e).regs = s.regs ∧ (setEvc s e).committed = s.committed ∧ (setEvc s e).held = s.held ∧
    (setEvc s e).latches = s.latches ∧ (setEvc s e).captured = s.captured ∧ (setEvc s e).lastRead = s.lastRead ∧
    (setEvc s e).counters = s.counters ∧ (setEvc s e).rime = s.rime ∧ (setEvc s e).clk = s.clk ∧
    (setEvc s e).chans = s.chans ∧ (setEvc s e).print = s.print ∧ (setEvc s e).dram = s.dram ∧
    (setEvc s e).host = s.host ∧ (setEvc s e).links = s.links ∧ (setEvc s e).cams = s.cams ∧
    (setEvc s e).pair = s.pair ∧ (setEvc s e).motion = s.motion ∧ (setEvc s e).evc = e ∧
    (setEvc s e).power = s.power ∧ (setEvc s e).disp = s.disp ∧ (setEvc s e).sys = s.sys ∧
    (setEvc s e).snapWait = s.snapWait ∧ (setEvc s e).freeCount = s.freeCount ∧ (setEvc s e).out = s.out ∧
    (setEvc s e).pending = s.pending ∧ (∀ i, rd (setEvc s e) i = rd s i) ∧ (∀ i, cm (setEvc s e) i = cm s i) ∧
    (∀ pg n, counter (setEvc s e) pg n = counter s pg n) ∧ (∀ i, getChan (setEvc s e) i = getChan s i) ∧
    (∀ i, getBar (setEvc s e) i = getBar s i) ∧ (∀ i, getEngine (setEvc s e) i = getEngine s i) ∧
    (∀ i, getLane (setEvc s e) i = getLane s i) ∧ (∀ i, getAxis (setEvc s e) i = getAxis s i) ∧
    (∀ i, getCmp (setEvc s e) i = getCmp s i) ∧ (∀ i, getCtx (setEvc s e) i = getCtx s i) ∧
    (∀ i, getSession (setEvc s e) i = getSession s i) ∧ (∀ i, getDram (setEvc s e) i = getDram s i) ∧
    (∀ i, getSub (setEvc s e) i = getSub s i) := by
  refine ⟨?_, ?_, ?_, ?_, ?_, ?_, ?_, ?_, ?_, ?_, ?_, ?_, ?_, ?_, ?_, ?_, ?_, ?_, ?_, ?_, ?_, ?_, ?_, ?_, ?_, ?_, ?_, ?_, ?_, ?_, ?_, ?_, ?_, ?_, ?_, ?_, ?_, ?_⟩ <;> first | rfl | (intros; rfl)

@[simp] theorem setClk_fields (s : State) (c : Clock) :
    (setClk s c).regs = s.regs ∧ (setClk s c).committed = s.committed ∧ (setClk s c).held = s.held ∧
    (setClk s c).latches = s.latches ∧ (setClk s c).captured = s.captured ∧ (setClk s c).lastRead = s.lastRead ∧
    (setClk s c).counters = s.counters ∧ (setClk s c).rime = s.rime ∧ (setClk s c).clk = c ∧
    (setClk s c).chans = s.chans ∧ (setClk s c).print = s.print ∧ (setClk s c).dram = s.dram ∧
    (setClk s c).host = s.host ∧ (setClk s c).links = s.links ∧ (setClk s c).cams = s.cams ∧
    (setClk s c).pair = s.pair ∧ (setClk s c).motion = s.motion ∧ (setClk s c).evc = s.evc ∧
    (setClk s c).power = s.power ∧ (setClk s c).disp = s.disp ∧ (setClk s c).sys = s.sys ∧
    (setClk s c).snapWait = s.snapWait ∧ (setClk s c).freeCount = s.freeCount ∧ (setClk s c).out = s.out ∧
    (setClk s c).pending = s.pending ∧ (∀ i, rd (setClk s c) i = rd s i) ∧ (∀ i, cm (setClk s c) i = cm s i) ∧
    (∀ pg n, counter (setClk s c) pg n = counter s pg n) ∧ (∀ i, getChan (setClk s c) i = getChan s i) ∧
    (∀ i, getBar (setClk s c) i = getBar s i) ∧ (∀ i, getEngine (setClk s c) i = getEngine s i) ∧
    (∀ i, getLane (setClk s c) i = getLane s i) ∧ (∀ i, getAxis (setClk s c) i = getAxis s i) ∧
    (∀ i, getCmp (setClk s c) i = getCmp s i) ∧ (∀ i, getCtx (setClk s c) i = getCtx s i) ∧
    (∀ i, getSession (setClk s c) i = getSession s i) ∧ (∀ i, getDram (setClk s c) i = getDram s i) ∧
    (∀ i, getSub (setClk s c) i = getSub s i) := by
  refine ⟨?_, ?_, ?_, ?_, ?_, ?_, ?_, ?_, ?_, ?_, ?_, ?_, ?_, ?_, ?_, ?_, ?_, ?_, ?_, ?_, ?_, ?_, ?_, ?_, ?_, ?_, ?_, ?_, ?_, ?_, ?_, ?_, ?_, ?_, ?_, ?_, ?_, ?_⟩ <;> first | rfl | (intros; rfl)

@[simp] theorem setPair_fields (s : State) (p : PairSt) :
    (setPair s p).regs = s.regs ∧ (setPair s p).committed = s.committed ∧ (setPair s p).held = s.held ∧
    (setPair s p).latches = s.latches ∧ (setPair s p).captured = s.captured ∧ (setPair s p).lastRead = s.lastRead ∧
    (setPair s p).counters = s.counters ∧ (setPair s p).rime = s.rime ∧ (setPair s p).clk = s.clk ∧
    (setPair s p).chans = s.chans ∧ (setPair s p).print = s.print ∧ (setPair s p).dram = s.dram ∧
    (setPair s p).host = s.host ∧ (setPair s p).links = s.links ∧ (setPair s p).cams = s.cams ∧
    (setPair s p).pair = p ∧ (setPair s p).motion = s.motion ∧ (setPair s p).evc = s.evc ∧
    (setPair s p).power = s.power ∧ (setPair s p).disp = s.disp ∧ (setPair s p).sys = s.sys ∧
    (setPair s p).snapWait = s.snapWait ∧ (setPair s p).freeCount = s.freeCount ∧ (setPair s p).out = s.out ∧
    (setPair s p).pending = s.pending ∧ (∀ i, rd (setPair s p) i = rd s i) ∧ (∀ i, cm (setPair s p) i = cm s i) ∧
    (∀ pg n, counter (setPair s p) pg n = counter s pg n) ∧ (∀ i, getChan (setPair s p) i = getChan s i) ∧
    (∀ i, getBar (setPair s p) i = getBar s i) ∧ (∀ i, getEngine (setPair s p) i = getEngine s i) ∧
    (∀ i, getLane (setPair s p) i = getLane s i) ∧ (∀ i, getAxis (setPair s p) i = getAxis s i) ∧
    (∀ i, getCmp (setPair s p) i = getCmp s i) ∧ (∀ i, getCtx (setPair s p) i = getCtx s i) ∧
    (∀ i, getSession (setPair s p) i = getSession s i) ∧ (∀ i, getDram (setPair s p) i = getDram s i) ∧
    (∀ i, getSub (setPair s p) i = getSub s i) := by
  refine ⟨?_, ?_, ?_, ?_, ?_, ?_, ?_, ?_, ?_, ?_, ?_, ?_, ?_, ?_, ?_, ?_, ?_, ?_, ?_, ?_, ?_, ?_, ?_, ?_, ?_, ?_, ?_, ?_, ?_, ?_, ?_, ?_, ?_, ?_, ?_, ?_, ?_, ?_⟩ <;> first | rfl | (intros; rfl)

@[simp] theorem setPower_fields (s : State) (p : Power) :
    (setPower s p).regs = s.regs ∧ (setPower s p).committed = s.committed ∧ (setPower s p).held = s.held ∧
    (setPower s p).latches = s.latches ∧ (setPower s p).captured = s.captured ∧
    (setPower s p).lastRead = s.lastRead ∧ (setPower s p).counters = s.counters ∧ (setPower s p).rime = s.rime ∧
    (setPower s p).clk = s.clk ∧ (setPower s p).chans = s.chans ∧ (setPower s p).print = s.print ∧
    (setPower s p).dram = s.dram ∧ (setPower s p).host = s.host ∧ (setPower s p).links = s.links ∧
    (setPower s p).cams = s.cams ∧ (setPower s p).pair = s.pair ∧ (setPower s p).motion = s.motion ∧
    (setPower s p).evc = s.evc ∧ (setPower s p).power = p ∧ (setPower s p).disp = s.disp ∧
    (setPower s p).sys = s.sys ∧ (setPower s p).snapWait = s.snapWait ∧ (setPower s p).freeCount = s.freeCount ∧
    (setPower s p).out = s.out ∧ (setPower s p).pending = s.pending ∧ (∀ i, rd (setPower s p) i = rd s i) ∧
    (∀ i, cm (setPower s p) i = cm s i) ∧ (∀ pg n, counter (setPower s p) pg n = counter s pg n) ∧
    (∀ i, getChan (setPower s p) i = getChan s i) ∧ (∀ i, getBar (setPower s p) i = getBar s i) ∧
    (∀ i, getEngine (setPower s p) i = getEngine s i) ∧ (∀ i, getLane (setPower s p) i = getLane s i) ∧
    (∀ i, getAxis (setPower s p) i = getAxis s i) ∧ (∀ i, getCmp (setPower s p) i = getCmp s i) ∧
    (∀ i, getCtx (setPower s p) i = getCtx s i) ∧ (∀ i, getSession (setPower s p) i = getSession s i) ∧
    (∀ i, getDram (setPower s p) i = getDram s i) ∧ (∀ i, getSub (setPower s p) i = getSub s i) := by
  refine ⟨?_, ?_, ?_, ?_, ?_, ?_, ?_, ?_, ?_, ?_, ?_, ?_, ?_, ?_, ?_, ?_, ?_, ?_, ?_, ?_, ?_, ?_, ?_, ?_, ?_, ?_, ?_, ?_, ?_, ?_, ?_, ?_, ?_, ?_, ?_, ?_, ?_, ?_⟩ <;> first | rfl | (intros; rfl)

@[simp] theorem setDisp_fields (s : State) (d : Disp) :
    (setDisp s d).regs = s.regs ∧ (setDisp s d).committed = s.committed ∧ (setDisp s d).held = s.held ∧
    (setDisp s d).latches = s.latches ∧ (setDisp s d).captured = s.captured ∧ (setDisp s d).lastRead = s.lastRead ∧
    (setDisp s d).counters = s.counters ∧ (setDisp s d).rime = s.rime ∧ (setDisp s d).clk = s.clk ∧
    (setDisp s d).chans = s.chans ∧ (setDisp s d).print = s.print ∧ (setDisp s d).dram = s.dram ∧
    (setDisp s d).host = s.host ∧ (setDisp s d).links = s.links ∧ (setDisp s d).cams = s.cams ∧
    (setDisp s d).pair = s.pair ∧ (setDisp s d).motion = s.motion ∧ (setDisp s d).evc = s.evc ∧
    (setDisp s d).power = s.power ∧ (setDisp s d).disp = d ∧ (setDisp s d).sys = s.sys ∧
    (setDisp s d).snapWait = s.snapWait ∧ (setDisp s d).freeCount = s.freeCount ∧ (setDisp s d).out = s.out ∧
    (setDisp s d).pending = s.pending ∧ (∀ i, rd (setDisp s d) i = rd s i) ∧ (∀ i, cm (setDisp s d) i = cm s i) ∧
    (∀ pg n, counter (setDisp s d) pg n = counter s pg n) ∧ (∀ i, getChan (setDisp s d) i = getChan s i) ∧
    (∀ i, getBar (setDisp s d) i = getBar s i) ∧ (∀ i, getEngine (setDisp s d) i = getEngine s i) ∧
    (∀ i, getLane (setDisp s d) i = getLane s i) ∧ (∀ i, getAxis (setDisp s d) i = getAxis s i) ∧
    (∀ i, getCmp (setDisp s d) i = getCmp s i) ∧ (∀ i, getCtx (setDisp s d) i = getCtx s i) ∧
    (∀ i, getSession (setDisp s d) i = getSession s i) ∧ (∀ i, getDram (setDisp s d) i = getDram s i) ∧
    (∀ i, getSub (setDisp s d) i = getSub s i) := by
  refine ⟨?_, ?_, ?_, ?_, ?_, ?_, ?_, ?_, ?_, ?_, ?_, ?_, ?_, ?_, ?_, ?_, ?_, ?_, ?_, ?_, ?_, ?_, ?_, ?_, ?_, ?_, ?_, ?_, ?_, ?_, ?_, ?_, ?_, ?_, ?_, ?_, ?_, ?_⟩ <;> first | rfl | (intros; rfl)

@[simp] theorem ev_fields (s : State) (p b : Nat) :
    (ev s p b).committed = s.committed ∧ (ev s p b).held = s.held ∧ (ev s p b).latches = s.latches ∧
    (ev s p b).captured = s.captured ∧ (ev s p b).lastRead = s.lastRead ∧ (ev s p b).rime = s.rime ∧
    (ev s p b).clk = s.clk ∧ (ev s p b).chans = s.chans ∧ (ev s p b).print = s.print ∧ (ev s p b).dram = s.dram ∧
    (ev s p b).links = s.links ∧ (ev s p b).cams = s.cams ∧ (ev s p b).pair = s.pair ∧ (ev s p b).motion = s.motion ∧
    (ev s p b).power = s.power ∧ (ev s p b).disp = s.disp ∧ (ev s p b).sys = s.sys ∧
    (ev s p b).snapWait = s.snapWait ∧ (ev s p b).freeCount = s.freeCount ∧ (ev s p b).pending = s.pending ∧
    (∀ i, cm (ev s p b) i = cm s i) ∧ (∀ i, getChan (ev s p b) i = getChan s i) ∧
    (∀ i, getBar (ev s p b) i = getBar s i) ∧ (∀ i, getEngine (ev s p b) i = getEngine s i) ∧
    (∀ i, getLane (ev s p b) i = getLane s i) ∧ (∀ i, getAxis (ev s p b) i = getAxis s i) ∧
    (∀ i, getCmp (ev s p b) i = getCmp s i) ∧ (∀ i, getCtx (ev s p b) i = getCtx s i) ∧
    (∀ i, getDram (ev s p b) i = getDram s i) ∧ (∀ i, getSub (ev s p b) i = getSub s i) := by
  have h := ev_evolves s p b (m := 8523841) (by decide) Evolves.rfl
  have k := h.keep
  unfold Evolves at h
  obtain ⟨_, h1, h2, h3, h4, h5, _, h7, h8, h9, h10, h11, _, h13, h14, h15, h16, _, h18, h19, h20, h21, h22, _, h24, _⟩ := h
  exact ⟨h1 (by decide),
    h2 (by decide),
    h3 (by decide),
    h4 (by decide),
    h5 (by decide),
    h7 (by decide),
    h8 (by decide),
    h9 (by decide),
    h10 (by decide),
    h11 (by decide),
    h13 (by decide),
    h14 (by decide),
    h15 (by decide),
    h16 (by decide),
    h18 (by decide),
    h19 (by decide),
    h20 (by decide),
    h21 (by decide),
    h22 (by decide),
    h24 (by decide),
    k.2.1 (by decide),
    fun i => by simp [getChan, h9 (by decide)],
    fun i => by simp [getBar, h10 (by decide)],
    fun i => by simp [getEngine, h10 (by decide)],
    fun i => by simp [getLane, h13 (by decide)],
    fun i => by simp [getAxis, h16 (by decide)],
    fun i => by simp [getCmp, h16 (by decide)],
    fun i => by simp [getCtx, h14 (by decide)],
    fun i => by simp [getDram, h11 (by decide)],
    fun i => by simp [getSub, h11 (by decide)]⟩

@[simp] theorem refuse_fields (s : State) (p : Nat) :
    (refuse s p).committed = s.committed ∧ (refuse s p).held = s.held ∧ (refuse s p).latches = s.latches ∧
    (refuse s p).captured = s.captured ∧ (refuse s p).lastRead = s.lastRead ∧ (refuse s p).rime = s.rime ∧
    (refuse s p).clk = s.clk ∧ (refuse s p).chans = s.chans ∧ (refuse s p).print = s.print ∧
    (refuse s p).dram = s.dram ∧ (refuse s p).links = s.links ∧ (refuse s p).cams = s.cams ∧
    (refuse s p).pair = s.pair ∧ (refuse s p).motion = s.motion ∧ (refuse s p).power = s.power ∧
    (refuse s p).disp = s.disp ∧ (refuse s p).sys = s.sys ∧ (refuse s p).snapWait = s.snapWait ∧
    (refuse s p).freeCount = s.freeCount ∧ (refuse s p).pending = s.pending ∧ (∀ i, cm (refuse s p) i = cm s i) ∧
    (∀ i, getChan (refuse s p) i = getChan s i) ∧ (∀ i, getBar (refuse s p) i = getBar s i) ∧
    (∀ i, getEngine (refuse s p) i = getEngine s i) ∧ (∀ i, getLane (refuse s p) i = getLane s i) ∧
    (∀ i, getAxis (refuse s p) i = getAxis s i) ∧ (∀ i, getCmp (refuse s p) i = getCmp s i) ∧
    (∀ i, getCtx (refuse s p) i = getCtx s i) ∧ (∀ i, getDram (refuse s p) i = getDram s i) ∧
    (∀ i, getSub (refuse s p) i = getSub s i) := by
  have h := refuse_evolves s p (m := 8523841) (by decide) Evolves.rfl
  have k := h.keep
  unfold Evolves at h
  obtain ⟨_, h1, h2, h3, h4, h5, _, h7, h8, h9, h10, h11, _, h13, h14, h15, h16, _, h18, h19, h20, h21, h22, _, h24, _⟩ := h
  exact ⟨h1 (by decide),
    h2 (by decide),
    h3 (by decide),
    h4 (by decide),
    h5 (by decide),
    h7 (by decide),
    h8 (by decide),
    h9 (by decide),
    h10 (by decide),
    h11 (by decide),
    h13 (by decide),
    h14 (by decide),
    h15 (by decide),
    h16 (by decide),
    h18 (by decide),
    h19 (by decide),
    h20 (by decide),
    h21 (by decide),
    h22 (by decide),
    h24 (by decide),
    k.2.1 (by decide),
    fun i => by simp [getChan, h9 (by decide)],
    fun i => by simp [getBar, h10 (by decide)],
    fun i => by simp [getEngine, h10 (by decide)],
    fun i => by simp [getLane, h13 (by decide)],
    fun i => by simp [getAxis, h16 (by decide)],
    fun i => by simp [getCmp, h16 (by decide)],
    fun i => by simp [getCtx, h14 (by decide)],
    fun i => by simp [getDram, h11 (by decide)],
    fun i => by simp [getSub, h11 (by decide)]⟩

end Sys2Proof.Machine
end

