-- ==== Sys2Proof/Laws/Effects.lean ====
section
/-! SUPPORT. What the shared effects do: raising an event, recording a fault, and what a frame in masks says of the parts. -/

namespace Sys2Proof.Machine
open Sys2Proof

/-- The place of a part among the fields of State. -/
def Part.bit : Part → Nat
  | .regs => 0 | .committed => 1 | .held => 2 | .latches => 3 | .captured => 4 | .lastRead => 5 | .counters => 6
  | .rime => 7 | .clk => 8 | .chans => 9 | .print => 10 | .dram => 11 | .host => 12 | .links => 13 | .cams => 14
  | .pair => 15 | .motion => 16 | .evc => 17 | .power => 18 | .disp => 19 | .sys => 20 | .snapWait => 21
  | .freeCount => 22 | .out => 23 | .pending => 24

theorem Evolves.same {m : Nat} {s t : State} (h : Evolves m s t) (p : Part) (b : m.testBit p.bit = false) :
    p.same s t := by
  unfold Evolves at h
  cases p <;> simp only [Part.same, Part.bit] at * <;> simp_all

/-- A change within a mask changes only the parts that the mask names. -/
theorem Evolves.only {m : Nat} {s t : State} (h : Evolves m s t) {ps : List Part}
    (b : (Part.pending :: everything).all (fun p => ps.contains p || !m.testBit p.bit) = true) : onlyChanges ps s t := by
  intro p hp
  have hm : p ∈ Part.pending :: everything := by cases p <;> decide
  have := List.all_eq_true.1 b p hm
  exact h.same p (by simpa [hp] using this)

theorem onlyChanges.trans {ps : List Part} {s t u : State} (h : onlyChanges ps s t) (g : onlyChanges ps t u) :
    onlyChanges ps s u := by
  intro p hp
  have h1 := h p hp
  have g1 := g p hp
  cases p <;> exact Eq.trans g1 h1

theorem onlyChanges.mono {ps qs : List Part} {s t : State} (h : onlyChanges ps s t) (q : ∀ p ∈ ps, p ∈ qs) :
    onlyChanges qs s t := fun p hp => h p (fun hm => hp (q p hm))

/-! ### Events -/

theorem notify_regs (s : State) (n : Nat) : (notify s n).regs = s.regs :=
  (notify_evolves s n (m := 8523840) (by decide) Evolves.rfl).1 (by decide)

theorem rd_evBits (s : State) (p b a : Nat) :
    rd (evBits s p b) a = if a = ra p 0x24 then (evPend s p ||| b) % 2 ^ 32 else rd s a := by
  rw [← rd_wr]; simp [evBits, rd, notify_regs]

theorem rd_ev (s : State) (p b a : Nat) :
    rd (ev s p b) a = if a = ra p 0x24 then (evPend s p ||| 2 ^ b) % 2 ^ 32 else rd s a := rd_evBits s p _ a

theorem or_lt {x b : Nat} (h : x < 2 ^ 32) (hb : b < 32) : (x ||| 2 ^ b) % 2 ^ 32 = x ||| 2 ^ b :=
  Nat.mod_eq_of_lt (Nat.or_lt_two_pow h (Nat.pow_lt_pow_right (by decide) hb))

theorem raised_ev (s : State) (p : Nat) {b : Nat} (hb : b < 32) : raised s (ev s p b) p b := by
  unfold raised evPend
  rw [rd_ev, if_pos rfl]
  exact or_lt (rd_lt s _) hb

theorem wordsKept_ev (s : State) (p b : Nat) : wordsKept [ra p 0x24] s (ev s p b) := by
  intro a h
  simp at h
  rw [rd_ev, if_neg h]

theorem only_ev (s : State) (p b : Nat) : onlyChanges eventParts s (ev s p b) :=
  (ev_evolves s p b (m := 8523841) (by decide) Evolves.rfl).only (by decide)

/-! ### Fault records -/

theorem Evolves.sys_eq {m : Nat} {s t : State} (h : Evolves m s t) (b : m.testBit 20 = false) : t.sys = s.sys :=
  h.same .sys b

/-- The RAM log and the record number are as they were. -/
def keepsLog (s t : State) : Prop := t.sys.seq = s.sys.seq ∧ t.sys.ramLog = s.sys.ramLog

theorem keepsLog.rfl {s : State} : keepsLog s s := ⟨Eq.refl _, Eq.refl _⟩

theorem keepsLog.trans {s t u : State} (h : keepsLog s t) (g : keepsLog t u) : keepsLog s u :=
  ⟨g.1.trans h.1, g.2.trans h.2⟩

theorem keepsLog.of {m : Nat} {s t : State} (h : Evolves m s t) (b : m.testBit 20 = false) : keepsLog s t := by
  have := h.same .sys b
  simp only [Part.same] at this
  exact ⟨by rw [this], by rw [this]⟩

theorem keepsLog.ite {s a b : State} {c : Prop} [Decidable c] (h : keepsLog s a) (g : keepsLog s b) :
    keepsLog s (if c then a else b) := by
  split
  · exact h
  · exact g

theorem keepsLog.slowSync {s u : State} (h : keepsLog s u) : keepsLog s (slowSync u) :=
  h.trans (.of (slowSync_evolves u (m := 8396864) (by decide) Evolves.rfl) (by decide))

theorem keepsLog.setRole {s u : State} (r : Nat) (h : keepsLog s u) : keepsLog s (setRole u r) :=
  h.trans (.of (setRole_evolves u r (m := 8438080) (by decide) Evolves.rfl) (by decide))

theorem keepsLog.stopBars {s u : State} (bs : List Nat) (h : keepsLog s u) : keepsLog s (stopBars u bs) :=
  h.trans (.of (stopBars_evolves u bs (m := 1024) (by decide) Evolves.rfl) (by decide))

theorem keepsLog.pairSendOn {s u : State} (ls : List Nat) (t f : Nat) (b : List Byte) (h : keepsLog s u) :
    keepsLog s (pairSendOn u ls t f b) :=
  h.trans (.of (pairSendOn_evolves u ls t f b (m := 8421440) (by decide) Evolves.rfl) (by decide))

theorem keepsLog.ptShowAll {s u : State} (v : State) (h : keepsLog s u) : keepsLog s (ptShowAll v u) :=
  h.trans (.of (ptShowAll_evolves v u (m := 8388608) (by decide) Evolves.rfl) (by decide))

theorem keepsLog.stopped {s u : State} (b : Bool) (h : keepsLog s u) :
    keepsLog s { u with sys := { u.sys with stopped := b } } := h

theorem stopUnit_log (s : State) (code : Nat) : keepsLog s (stopUnit s code) := by
  unfold stopUnit
  repeat' first
  | with_reducible first
    | apply keepsLog.rfl | apply keepsLog.slowSync | apply keepsLog.setRole | apply keepsLog.stopBars
    | apply keepsLog.pairSendOn | apply keepsLog.ptShowAll | apply keepsLog.ite | apply keepsLog.stopped

theorem nvEnter_log (s : State) (r : FaultRecord) : keepsLog s (nvEnter s r) := by
  unfold nvEnter
  extract_lets n
  exact keepsLog.ite .rfl ⟨rfl, rfl⟩

theorem ramEnter_log (s : State) (r : FaultRecord) :
    (ramEnter s r).sys.seq = s.sys.seq + 1 ∧ ∃ l, (ramEnter s r).sys.ramLog = l ++ [r] := by
  unfold ramEnter
  extract_lets a
  have h : keepsLog s a := keepsLog.ite .rfl ⟨rfl, rfl⟩
  exact ⟨by simp only [h.1], _, rfl⟩

theorem faultAt_log (s : State) (code cls page bar : Nat) (d : List Nat) (w : Option (Nat × Int)) :
    keepsLog (ramEnter s (faultRecord s code cls page bar d w)) (faultAt s code cls page bar d w) := by
  unfold faultAt
  extract_lets r a b c e
  have ha : keepsLog (ramEnter s r) a := nvEnter_log _ _
  have hb : keepsLog a b := ⟨by simp [b], by simp [b]⟩
  have hc : keepsLog b c := ⟨by simp [c], by simp [c]⟩
  have hd : keepsLog c e := keepsLog.ite ⟨rfl, rfl⟩ .rfl
  exact (((ha.trans hb).trans hc).trans hd).trans (keepsLog.ite (stopUnit_log e code) .rfl)

/-- Recording a fault enters its record in the RAM log, with the next number (R481, R483, R486). -/
theorem recorded_faultAt (s : State) (code cls page bar : Nat) (d : List Nat) (w : Option (Nat × Int)) :
    recorded s (faultAt s code cls page bar d w) code cls := by
  have h := faultAt_log s code cls page bar d w
  have g := ramEnter_log s (faultRecord s code cls page bar d w)
  obtain ⟨l, hl⟩ := g.2
  refine ⟨h.1.trans g.1, faultRecord s code cls page bar d w, ?_, rfl, rfl, rfl⟩
  rw [h.2, hl, List.getLast?_concat]

theorem recorded_fault (s : State) (code cls page bar : Nat) (d : List Nat) :
    recorded s (fault s code cls page bar d) code cls := recorded_faultAt s code cls page bar d none

end Sys2Proof.Machine
end

