-- ==== Sys2Proof/Tests/Slice0.lean ====
section
/-! SUPPORT. The model's own tests: an ill-formed term for each check of WellFormed, values of the manual's worked examples,
and for every statement with hypotheses a theorem `witness_<statement>` that shows, clause by clause, a concrete state and
operands that meet all hypotheses of the clause together. -/

set_option maxRecDepth 100000
set_option Elab.async false
set_option linter.unusedVariables false

namespace Sys2Proof.Tests

open Sys2Proof Sys2Proof.Machine

/-- A word of the register window, put into the state. -/
def put (s : State) (a v : Nat) : State := { s with regs := tset s.regs a (BitVec.ofNat 32 v) }

/-- Words whose reset value is a free constant of Config (the image configuration, a factory trim): 0 in these tests. -/
def bootWords : List Nat :=
  [0x21BC, 0x4100, 0x4104, 0x4108, 0x410C, 0x4110, 0x4114, 0x4118, 0x411C, 0x4120, 0x4124, 0x4128, 0x412C,
   0x4130, 0x4134, 0x4138, 0x413C, 0x6044, 0x6048, 0x604C, 0x6050, 0x6054, 0x6058, 0x605C, 0x6060, 0x6064,
   0x6068, 0x606C, 0x6070, 0x6074, 0x6078, 0x607C, 0x6138, 0x613C, 0xA050, 0x10048, 0x1004C, 0x12040, 0x13040,
   0x20040, 0x2C040, 0x30040, 0x30044, 0x30048, 0x3004C, 0x30050, 0x30054, 0x30070, 0x68040, 0x70058, 0x7005C,
   0xC0040, 0xE0048, 0xE004C, 0xE0054, 0xC80000, 0xC80080, 0xD0F800]

/-- The state after reset, in which boot has loaded 0 into those words. -/
def z : State := { State.reset with regs := bootWords.map (fun a => (a, 0#32)), committed := bootWords.map (fun a => (a, 0#32)) }

/-- The block of a page runs: EN and CLK_ON. -/
def on (s : State) (p : Nat) : State := put (put s (ra p 0x10) 1) (ra p 0x14) 2

/-- The block of each page runs. -/
def ons (s : State) (ps : List Nat) : State := ps.foldl on s

/-- Words of the register window. -/
def regs (s : State) (ws : List (Nat × Nat)) : State := ws.foldl (fun s w => put s w.1 w.2) s

/-- A bar prints. -/
def printBar (s : State) (b : Nat) : State := setBar s b { getBar s b with printing := true }

/-- A bar prints a pass of 1,000 lines, of which row-line k is the next to build. -/
def printAt (s : State) (b k : Nat) : State :=
  setBar s b { printing := true, starts := [0], len := 1000, streams := [{ head := 0, row := 0, g := 0, next := k, done := false, lastFire := none }] }

/-- A Gisha message without an acknowledgement (R62). -/
def gMsg (type count session seq : Nat) (body : List Byte) : List Byte :=
  let h := leBytes 2 0x4753 ++ [4#8, 3#8] ++ leBytes 1 type ++ leBytes 1 count ++ leBytes 2 0 ++ leBytes 4 session ++
    leBytes 4 seq ++ leBytes 4 0 ++ leBytes 4 body.length ++ zeroBytes 4
  h ++ leBytes 4 (crc32c (h ++ zeroBytes 4 ++ body.take (64 * count))) ++ body

/-- A command entry (R72) with its PARAMS. -/
def cmdEntry (op seq job len dcrc : Nat) (params : List Byte) : List Byte :=
  let b := leBytes 4 op ++ leBytes 4 seq ++ leBytes 4 job ++ zeroBytes 4 ++ leBytes 8 0x1000 ++ leBytes 4 len ++ leBytes 4 dcrc ++
    padTo 28 params
  b ++ leBytes 4 (crc32c b)

/-- An entry of the journal that may start. -/
def journalEntry (session : Nat) (entry data : List Byte) : JEntry :=
  { stamp := 1, session := session, seq := 1, ring := 0, entry := entry, data := data, state := 0, progress := 0, status := 0,
    result0 := 0, result1 := 0, result := [], imageLine := 0, ptNs := 0, ptSec := 0, webPos := 0, replayed := false,
    peer := false, written := false, withheld := false, late := false, ready := true, pairSeq := 0, wpos := none,
    waiting := false }

/-- A UDP message from the one host of these tests. -/
def udp (data : List Byte) : UdpMsg := { ethPort := 0, srcAddr := 0x0A000001, srcPort := 5000, toService := false, data := data }

/-- Port 0 is an enabled host port with link up. -/
def hostUp (s : State) : State := regs (ons s [0x10, 0x18, 0x1C]) [(ra 0x10 0x40, 0x110), (ra 0x10 0x50, 7), (ra 0x18 0x40, 0xC0000000)]

/-- Session n is open for that host. -/
def openSession (s : State) (n state : Nat) : State :=
  setSession s n { state := state, id := 77, major := 3, minor := 4, window := 8, maxMsg := 1500, srcAddr := 0x0A000001, srcPort := 5000 }

/-- The state with a committed word. -/
def cmt (s : State) (ws : List (Nat × Nat)) : State := ws.foldl (fun s w => { put s w.1 w.2 with committed := tset s.committed w.1 (BitVec.ofNat 32 w.2) }) s

/-- A store of 1 MiB at 0, a print window of 1 MiB behind it, and descriptors. -/
def storeUp (s : State) : State :=
  cmt (ons s [0x30, 0x31, 0x48]) [(ra 0x30 0x40, 0), (ra 0x30 0x44, 1), (ra 0x30 0x48, 1), (ra 0x30 0x4C, 1), (ra 0x30 0x54, 100)]

/-- A job of one small tile. -/
def job9 : Job :=
  { number := 9, mask := 1, dpi1200 := false, width := 4, length := 1, repeatLen := 0, quota := 0, alloc := 0, descBase := 0,
    descRows := 1, ringBase := 0, started := false, startSlot := none, held := false, mode := 0, arg := 0 }

/-- A final stored block of DEFLATE. -/
def storedBytes (c : List Byte) : List Byte := [1#8] ++ leBytes 2 c.length ++ leBytes 2 (65535 - c.length) ++ c

/-- A tile container (R91) of stored content for job 9. -/
def container (content : List Byte) : List Byte :=
  leBytes 2 0x4946 ++ [1#8, 1#8] ++ leBytes 4 9 ++ [0#8, 0#8] ++ leBytes 6 0 ++ leBytes 4 (content.length + 5) ++
    leBytes 4 (crc32c content) ++ storedBytes content

/-- Bar 0 with one head of one row of four nozzles on lane 0, ready to print job 9. -/
def pressUp (s : State) : State :=
  let s := storeUp (ons s [0x40, 0x48, 0x50, 0x60, 0x68, 0x70, 0xA0])
  let s := regs s [(ra 0x40 0x40, 1), (ra 0x68 0x80, 0xFFFFFFFF), (ra 0x70 0x54, 0x10000000)]
  let s := cmt s [(ra 0x60 0x100, 0x80000000), (ra 0x60 0x104, 0x00040001), (ra 0x60 0x10C, 3), (ra 0x50 0x4C, 8)]
  let s := setLane s 0 { state := 6, kind := 1, verMajor := 3, verMinor := 3, slots := [(1, 4)] }
  setJob { s with sys := { s.sys with bootState := 5 } } job9

/-- The i-th of these states. -/
def stateAt (l : List State) (i : Nat) : State := l.getD i State.reset

/-! ### Well-formedness: each check refuses an ill-formed term -/

theorem test_wf_requester : Requester.wf (.core 4) = false ∧ Requester.wf (.session 17) = false ∧ Requester.wf .pcie = true := by
  decide

theorem test_wf_parts :
    UdpMsg.wf { ethPort := 4, srcAddr := 0, srcPort := 1, toService := false, data := [] } = false ∧
    UdpMsg.wf { ethPort := 3, srcAddr := 0, srcPort := 65536, toService := false, data := [] } = false ∧
    EthFrame.wf { length := 64, fcsOk := true, vids := [4096], kind := EthKind.other } = false ∧
    EthFrame.wf ⟨64, true, [], .gisha { ethPort := 4, srcAddr := 0, srcPort := 1, toService := false, data := [] }⟩ = false ∧
    RxFrame.wf { bytes := List.replicate 11 0#8, blocksOk := true } = false ∧
    PairRx.wf { lane := 47, bytes := List.replicate 16 0#8 } = false ∧
    PairRx.wf { lane := 52, bytes := List.replicate 16 0#8 } = false ∧
    PairRx.wf { lane := 48, bytes := List.replicate 15 0#8 } = false ∧
    TempReading.wf { sensor := 24, value := 0 } = false ∧ addrWf 2 = false ∧ addrWf 16777216 = false ∧ pageWf 256 = false ∧
    tileWf 0 8 0 0 = false ∧ tileWf 0 0 64 0 = false ∧ tileWf (2 ^ 32) 0 0 0 = false ∧ tileWf 0 0 0 (2 ^ 32) = false := by
  decide

/-- Commands of the register window and the host links. -/
theorem test_wf_refused_registers :
    [Instr.watchdogExpiry 4, .registerWrite .pcie 16777216 0#32 15#4, .registerWrite (.core 0) 2 0#32 15#4,
     .highWordWrite (.core 9) 0 0#32, .tableWindowWrite (.core 0) 1 0#32, .srst .pcie 256, .srst (.core 4) 0, .srstDone 256,
     .blockEnable .pcie 256 true true, .clockStart 256, .counterLowRead .pcie 0 128 false, .counterHighRead .pcie 256 0 false,
     .commitArm .pcie 256 0#32, .commitCancel (.session 17) 0, .commitApply 256, .nozzleTableWrite .pcie 8 0 0#32,
     .nozzleTableWrite .pcie 0 131072 0#32, .ownerWrite .pcie 60 0, .ownerWrite .pcie 0 4, .gpioDirWrite (.core 4) false 0#32,
     .gpioOutWrite .pcie 3 0#32, .evSetWrite .pcie 256 0#32, .snapshotTrigger (.core 4) 0#32, .helloRing 256, .regRead 256,
     .sessionTimeout 0, .sessionTimeout 17, .resumeLimit 0, .submissionDoorbell 32 0, .submissionDoorbell 0 4096,
     .completionDoorbell 32 0, .completionDoorbell 0 4096, .submissionFetch 32 (List.replicate 64 0#8) [],
     .submissionFetch 0 [] [], .completionWrite 32, .msixTableWrite 256 0#32, .ethLinkChange 4 true true true].all
      (fun c => !wellFormed c) = true := by
  decide

/-- Commands of the tile store, image memory, positions and bars. -/
theorem test_wf_refused_print :
    [Instr.fragmentStoreDone 256, .fragTimeout 0 8 0 0, .reqTimeout 0 0 64 0, .dramScrub 0 0 0 (2 ^ 32), .thawStart 24,
     .thawDone 24, .tileFetchDone 8 0 0, .tileFetchDone 0 64 0, .freezeDone 4 0 [] [], .freezeDone 0 5 [] [], .refresh 8,
     .mr4Read 8 false false, .retrainStep 8 0 0 [0, 0, 0, 0], .retrainStep 0 16 0 [0, 0, 0, 0], .retrainStep 0 0 2 [0, 0, 0, 0],
     .retrainStep 0 0 0 [0, 0, 0], .retrainStep 0 0 0 [16, 0, 0, 0], .hotHoldExpiry 8, .agePromotion 4 0,
     .dramRead (2 ^ 36) 0, .dramRead 0 5, .dramWrite (2 ^ 36) 0 [], .dramWrite 0 5 [], .dramWrite 0 0 (List.replicate 65 none),
     .freqReq .pcie 4 true, .requestIssue 8, .countEdge 8 false false false 0, .countEdge 0 false false false 4, .index 8,
     .serialSample 8 ⟨true, 0, 0, false, false⟩, .serialSample 0 ⟨true, 2 ^ 40, 0, false, false⟩,
     .serialSample 0 ⟨true, 0, 64, false, false⟩, .load .pcie 8, .mark 8 false 0, .bandTrimWrite .pcie 8 0 0 0#32,
     .bandTrimWrite .pcie 0 2 0 0#32, .bandTrimWrite .pcie 0 0 2048 0#32, .lineSend 8 0, .lineSend 0 128,
     .drypointDone (List.replicate 1025 none), .validate .pcie 32].all (fun c => !wellFormed c) = true := by
  decide

/-- Commands of the lanes, cameras, clocks and the pair. -/
theorem test_wf_refused_links :
    [Instr.tempTimeout 48 0, .tempTimeout 0 16, .detect 52 true, .trainDone 52 ⟨0, 0, 0⟩, .trainDone 0 ⟨256, 0, 0⟩,
     .trainDone 0 ⟨0, 4, 0⟩, .trainDone 0 ⟨0, 0, 4⟩, .cap 52 ⟨List.replicate 12 0#8, true⟩, .cap 0 ⟨[], true⟩, .stat 48 ⟨List.replicate 12 0#8, true⟩,
     .lineLostEpisodeEnd 48 0, .lineLostEpisodeEnd 0 8, .syncSend 48, .waveResend 48 0, .waveResend 0 32,
     .planWrite .pcie 48 false 0#32, .ioOutWrite .pcie 48 0#32, .ioSafeWrite .pcie 48 false 0#32, .fomReport 52 0,
     .fomReport 0 256, .csiPacket 4 0 0 0 .ok true [], .csiPacket 0 16 0 0 .ok true [], .csiPacket 0 0 64 0 .ok true [],
     .csiPacket 0 0 0 65536 .ok true [], .frameStart 4 0 0, .frameStart 0 16 0, .frameStart 0 0 65536, .frameEnd 4 0,
     .frameEnd 0 16, .strobeTimeout 8, .contextEnable .pcie 8 0#32, .tapRel .pcie 8 0#32, .loopNoData 8,
     .ptpSync ⟨4, 0, 0, 0, 0, false, 0, 0, 0⟩, .ptpSync ⟨0, 0, 0, 0, 65536, false, 0, 0, 0⟩,
     .tcForward .sync ⟨0, 0, 0, 0, 0, false, 0, 0, 0⟩ 3 true 0, .tcForward .sync ⟨0, 0, 0, 0, 0, false, 0, 0, 0⟩ 0 true 4,
     .hb ⟨47, List.replicate 16 0#8⟩, .crcWait (2 ^ 48) 0, .crcWait 0 8, .retry (2 ^ 32), .switch (.core 4)].all
      (fun c => !wellFormed c) = true := by
  decide

/-- Commands of motion, events, power, display and boot. -/
theorem test_wf_refused_unit :
    [Instr.profileUpdate 16, .targetWrite .pcie 16 0#32, .stop .pcie 16, .pendArm .pcie 16 0#32, .homeInput 16 true 0,
     .sharedStepPulse 16 true, .compareArm .pcie 32 0#32, .compareFire 32, .gpioEdge 32 true, .pendSet .pcie 16 0#32,
     .claim .pcie 5, .complete .pcie 5 0, .complete .pcie 0 512, .srccfgWrite .pcie 512 0#32, .wake 0 0, .wake 6 0, .wake 1 8, .wake 2 4,
     .tempMeasurement [⟨24, 0, 0⟩], .tripRestart (List.replicate 17 0), .voltageConversion ⟨[], 0⟩, .roCount [],
     .pmbusTransaction 256 .failed, .voutCheck 65536, .cal .pcie 6, .calDone 6 [], .calibrationBound ⟨6, 0⟩, .underrun [3] 0,
     .underrun [] 2560, .powerOnReset 32, .nresetRelease 32, .bootRetry 16 0, .bootRetry 0 16, .hpdPlug 3 4, .hpdPlug 0 5].all
      (fun c => !wellFormed c) = true := by
  decide

/-! ### The queue, the frame and the memory -/

/-- The state after reset with one command waiting. -/
def queued (c : Instr) : State := { State.reset with pending := [c] }

/-- A step answers a next state. -/
def answers (s : State) : Bool := match Machine.step s with
  | .next _ => true
  | _ => false

theorem answers_next (s : State) (h : answers s = true) : ∃ t, Machine.step s = .next t := by
  unfold answers at h
  split at h
  · exact ⟨_, ‹_›⟩
  · cases h

/-- The hypotheses of `EmptyQueueTicks`. -/
theorem witness_EmptyQueueTicks :
    State.reset.pending = [] ∧ unreachable State.reset = false ∧
      State.reset.clk.ns < 10 ^ 9 ∧ State.reset.clk.frac < 2 ^ 32 ∧ State.reset.clk.incr < 2 ^ 40 := by
  decide +kernel

/-- The cases of `EveryCommandAnswers`: an address inside installed memory, and the first outside. -/
theorem witness_EveryCommandAnswers :
    outside z (64 / 64 * 64) = false ∧ outside z (2 ^ 40 / 64 * 64) = true ∧
      (∀ a k, Instr.refresh 0 ≠ .dramRead a k) ∧ (∀ a k bs, Instr.refresh 0 ≠ .dramWrite a k bs) :=
  ⟨by decide +kernel, by decide +kernel, fun _ _ h => (nomatch h), fun _ _ _ h => (nomatch h)⟩

/-- The premise of `CommandFrames`, `StepHistory`, `StepKeepsMemoryCanonical` and of the first part of `QueuedBlocks`. -/
theorem witness_Step :
    memoryCanonical (queued (.refresh 0)) ∧ blocksOnce (queued (.refresh 0)) ∧
      ∃ t, Machine.step (queued (.refresh 0)) = .next t :=
  ⟨by decide +kernel, fun c => by show ((getDram State.reset c).writes.map _).Nodup; exact List.nodup_nil,
    answers_next _ (by decide +kernel)⟩

/-! ### Values that the manual states -/

/-- One step with one command, and a question about the state after it. -/
def after (c : Instr) (s : State) (p : State → Bool) : Bool := match Machine.exec c s with
  | .next t => p t
  | _ => false

/-- R93: the check value of CRC-32C over "123456789". -/
theorem test_crc32c : crc32c [0x31#8, 0x32#8, 0x33#8, 0x34#8, 0x35#8, 0x36#8, 0x37#8, 0x38#8, 0x39#8] = 0xE3069283 := by
  decide +kernel

/-- The growth bounds of the worked example in 04. -/
theorem test_growth_bounds : freezeBound 32768 0 = 32797 ∧ freezeBound 9728 0 = 9757 ∧ freezeBound 8388608 31 = 8389432 := by
  decide

/-- The line positions of the worked example in 06. -/
theorem test_line_positions :
    let s := cmt z [(ra pgLine 0x44, 0x002A5555), (ra pgLine 0x48, 0x00010003)]
    (List.range 10).map (linePos s 0) =
      [0, 2774357, 5548714, 8323072, 11097429, 13871786, 16646144, 19420501, 22194858, 24969216] ∧
    linePos s 0 64 = 177558869 := by
  decide +kernel

/-- VD_CAP of the worked example in 05. -/
theorem test_derate_cap :
    let s := regs z [(ra pgDrg 0x60, 1057), (ra pgDrg 0x5C, 40)]
    let s := { s with dram := { s.dram with c0 := 51000000, c1 := 46000000, c2 := 5000000, c3 := 2000000 } }
    let s := setSub s 0 { getSub s 0 with hot := true }
    derating s = true ∧ after .derateWindow s (fun t => rdf t (ra pgDrg 0x64) 11 0 == 437) = true := by
  decide +kernel

/-! ### Witnesses, by the part of the state that the statements are about -/

namespace Registers

def r1 : State := ons z [0x48,0x69,0x50,0x60]
def l1 : State := { r1 with held := [(ra 0x48 0x58, 7#32)], counters := [(128*0x48+3, 0x500000007)], latches := [(5, 9)] }
def cp1 : State := put r1 (ra 0x48 0x18) 4
def sample1 : List (BitVec 4) := [3#4, 15#4]
def sample2 : List (RegSpec) := [ra 0x48 0x40, ra 0x48 0x58, ra 0x48 0x5C, ra 0x30 0x40].filterMap regSpec
def fw1 : State := { r1 with pair := { r1.pair with role := 2 } }
def fw2 : State := setPower { r1 with pair := { r1.pair with role := 3 } } { r1.power with pstate := 3 }
-- commits
def c1 : State := ons z [0x48, 0x50, 0x30, 0x68]
def c2 : State := put c1 (ra 0x50 0x18) 4
def c3 : State := put (put c1 (ra 0x30 0x18) 6) (ra 0x30 0x1C) 77
def c7 : State := put (put (on c1 0x31) (ra 0x31 0x18) 6) (ra 0x31 0x1C) 77
def c4 : State := put (put c1 (ra 0x48 0x18) 4) (ra 0x48 0x44) 9
def c5 : State := put (put c1 (ra 0x30 0x18) 4) (ra 0x30 0x40) 1
def c6 : State := put (put c1 (ra 0x69 0x18) 4) (ra 0x69 0x40) 0x80000001
def t0 : State := regs (ons z [0x50, 0x51, 0xF0, 0x09, 0xC8, 0xD8, 0x68]) [(ra 0x68 0x80, 0xFFFFFFFF)]
def t1 : State := printBar t0 1
def t2 : State := setBar t1 1 { getBar t1 1 with staging := (List.range 1024).map (fun i => (i, 5#32)) }
def t3 : State := printBar (on z 0x50) 1
def o1 : State := ons z [0x09, 0x40, 0x44, 0xC8, 0xD4, 0xD8, 0xB4, 0x31]
def o2 : State := regs o1 [(ownAddr 0, 1), (ownAddr 59, 0x80000002), (ownAddr 4, 0x80000002)]
def o3 : State := { o1 with sys := { o1.sys with bootState := 5 } }
def n0 : State := ons z [0xF0, 0x48, 0x50, 0x18]
def n1 : State := { put n0 (ra pgRime 0x44) 0xFFFFFFFF with snapWait := [0] }
def n2 : State := printBar (put n0 (ra pgRime 0x48) 0xFFFF) 0
def n3 : State := { put n0 (ra pgRime 0x50) 0xFFFFFFFF with snapWait := [2, 3] }
def n4 : State := { put (put n2 (ra pgRime 0x40) 2) (ra pgRime 0x44) 0xFFFFFFFF with snapWait := [0] }
def n5 : State := { n2 with host := { n2.host with journal := [(4, { journalEntry 1 (cmdEntry 0x38 1 0 0 0 []) [] with waiting := true, state := 1 })] }, counters := [(3, 4)] }
def n6 : State := { n0 with pair := { n0.pair with role := 3 } }
def n7 : State := { n0 with pair := { n0.pair with role := 5 } }
def n8 : State := { n0 with pair := { n0.pair with role := 4 } }
def b0 : State := ons z [0x68, 0x69, 0x30, 0x31, 0x50]
def b1 : State := { regs b0 [(ra 0x69 0x40, 5), (ra 0x69 0x18, 4), (ra 0x69 0x24, 0x101), (ra 0x68 0x10, 5)] with counters := [(128*0x69, 4)] }
def b2 : State := printBar b1 0
def b3 : State := regs z [(ownEnc 4, 2), (posA 4 0x40, 1), (ra 0xF0 0x10, 1), (loopA 0x4C, 0x50000)]
def b4 : State := setPower b1 { b1.power with pstate := 3 }
def b5 : State := put (ons z (headerPages.filter (fun p => p ≠ 0xC8))) (ra pgSys 0x50) 1
def goodA : List Nat := (b5.regs ++ b1.regs).map (·.1)

theorem witness_RegisterWriteStores :
    (Option.any
        (fun (x : RegSpec) =>
          decide
            (unreachable r1 = false ∧
              (Requester.core 1 ≠ Requester.pcie ∨
                  dozing r1 = false ∧ romOnly r1 (ra 72 64 / 4096) = false ∧ (r1.pair.role = 0 ∨ isActive r1 = false)) ∧
                regSpec (ra 72 64) = some x ∧
                  plainPage (ra 72 64 / 4096) = true ∧
                    ra 72 64 % 4 = 0 ∧
                      64 ≤ ra 72 64 % 4096 ∧
                        ra 72 64 % 4096 < 2048 ∧ gate r1 (ra 72 64) (0#32).toNat = none ∧ x.half = 0))
        sample2[0]? =
      true) ∧
    (Option.any
        (fun (x : RegSpec) =>
          decide
            (unreachable r1 = false ∧
              (Requester.core 1 ≠ Requester.pcie ∨
                  dozing r1 = false ∧ romOnly r1 (ra 72 88 / 4096) = false ∧ (r1.pair.role = 0 ∨ isActive r1 = false)) ∧
                regSpec (ra 72 88) = some x ∧
                  plainPage (ra 72 88 / 4096) = true ∧
                    ra 72 88 % 4 = 0 ∧
                      64 ≤ ra 72 88 % 4096 ∧
                        ra 72 88 % 4096 < 2048 ∧ gate r1 (ra 72 88) (0#32).toNat = none ∧ x.half = 1))
        sample2[1]? =
      true) ∧
    (Option.any
        (fun (x : RegSpec) =>
          decide
            (unreachable r1 = false ∧
              (Requester.core 1 ≠ Requester.pcie ∨
                  dozing r1 = false ∧ romOnly r1 (ra 72 92 / 4096) = false ∧ (r1.pair.role = 0 ∨ isActive r1 = false)) ∧
                regSpec (ra 72 92) = some x ∧
                  plainPage (ra 72 92 / 4096) = true ∧
                    ra 72 92 % 4 = 0 ∧
                      64 ≤ ra 72 92 % 4096 ∧
                        ra 72 92 % 4096 < 2048 ∧ gate r1 (ra 72 92) (0#32).toNat = none ∧ x.half = 2 ∧ 4 ≤ ra 72 92))
        sample2[2]? =
      true) := by
  decide +kernel

theorem witness_RegisterWriteRefused :
    (unreachable r1 = false ∧
      Requester.core 1 ≠ Requester.pcie ∧
        plainPage (ra 72 2044 / 4096) = true ∧
          ra 72 2044 % 4 = 0 ∧ 64 ≤ ra 72 2044 % 4096 ∧ ra 72 2044 % 4096 < 2048 ∧ regSpec (ra 72 2044) = none) ∧
    (unreachable r1 = false ∧
      Requester.core 1 ≠ Requester.pcie ∧
        plainPage (ra 48 64 / 4096) = true ∧
          ra 48 64 % 4 = 0 ∧
            64 ≤ ra 48 64 % 4096 ∧
              ra 48 64 % 4096 < 2048 ∧
                Option.any (fun (r : RegSpec) => decide (pgClkOn r1 (ra 48 64 / 4096) = false)) (regSpec (ra 48 64)) =
                  true) ∧
    (unreachable cp1 = false ∧
      Requester.core 1 ≠ Requester.pcie ∧
        plainPage (ra 72 64 / 4096) = true ∧
          ra 72 64 % 4 = 0 ∧
            64 ≤ ra 72 64 % 4096 ∧
              ra 72 64 % 4096 < 2048 ∧
                Option.any
                    (fun (r : RegSpec) =>
                      decide
                        (pgClkOn cp1 (ra 72 64 / 4096) = true ∧
                          r.sh = true ∧ commitPending cp1 (headerOf (ra 72 64 / 4096)) = true))
                    (regSpec (ra 72 64)) =
                  true) ∧
    (unreachable r1 = false ∧
      Option.any (fun (x : BitVec 4) => decide (x ≠ 15#4 ∧ romOnly r1 (ra 72 64 / 4096) = false)) sample1[0]? = true) := by
  decide +kernel

theorem witness_RegisterWriteRefusedBy :
    (unreachable r1 = false ∧
      Requester.core 1 ≠ Requester.pcie ∧
        plainPage (ra 72 2044 / 4096) = true ∧
          ra 72 2044 % 4 = 0 ∧ 64 ≤ ra 72 2044 % 4096 ∧ ra 72 2044 % 4096 < 2048 ∧ regSpec (ra 72 2044) = none) ∧
    (unreachable r1 = false ∧
      Requester.core 1 ≠ Requester.pcie ∧
        plainPage (ra 48 64 / 4096) = true ∧
          ra 48 64 % 4 = 0 ∧
            64 ≤ ra 48 64 % 4096 ∧
              ra 48 64 % 4096 < 2048 ∧
                Option.any (fun (r : RegSpec) => decide (pgClkOn r1 (ra 48 64 / 4096) = false)) (regSpec (ra 48 64)) =
                  true) ∧
    (unreachable r1 = false ∧
      Option.any (fun (x : BitVec 4) => decide (x ≠ 15#4 ∧ romOnly r1 (ra 72 64 / 4096) = false)) sample1[0]? = true) ∧
    (unreachable fw2 = false ∧
      dozing fw2 = true ∧ dozePage (headerOf (ra 72 64 / 4096)) = false ∧ romOnly fw2 (ra 72 64 / 4096) = false) ∧
    (unreachable r1 = false ∧
      unreachable
          (setPower r1
            (have __src : Power := r1.power;
            { __src with pstate := 5 })) =
        true) := by
  decide +kernel

theorem witness_RegisterWriteForwarded :
    (unreachable fw1 = false ∧
      dozing fw1 = false ∧
        romOnly fw1 (ra 72 64 / 4096) = false ∧ fw1.pair.role ≠ 0 ∧ isActive fw1 = true ∧ forwardable (ra 72 64) = true) := by
  decide +kernel

theorem witness_CounterReadPair :
    (72 < 256 ∧ 72 < 128 ∧ (pageInfo 72).isSome = true ∧ pgClkOn r1 72 = true) := by
  decide +kernel

theorem witness_CommitArm :
    (isHeader 72 = true ∧
      72 ≠ pgDisp ∧
        (1#32).getLsbD 0 = true ∧
          (1#32).getLsbD 3 = false ∧ (1#32).getLsbD 4 = false ∧ commitPending c1 72 = false ∧ (1#32).getLsbD 1 = false) ∧
    (isHeader 72 = true ∧
      72 ≠ pgDisp ∧
        (3#32).getLsbD 0 = true ∧
          (3#32).getLsbD 3 = false ∧
            (3#32).getLsbD 4 = false ∧
              commitPending c1 72 = false ∧ (3#32).getLsbD 1 = true ∧ printing c1 (pageBar c1 72) = false) ∧
    (isHeader 80 = true ∧
      80 ≠ pgDisp ∧
        (1#32).getLsbD 0 = true ∧ (1#32).getLsbD 3 = false ∧ (1#32).getLsbD 4 = false ∧ commitPending c2 80 = true) := by
  decide +kernel

theorem witness_CommitCancel :
    (isHeader 80 = true ∧ commitPending c2 80 = true) ∧
    (isHeader 72 = true ∧ commitPending c1 72 = false) ∧
    (isHeader 72 = true ∧ (16#32).getLsbD 4 = true) := by
  decide +kernel

theorem witness_CommitApply :
    (isHeader 49 = true ∧
      49 ≠ pgDisp ∧
        (49 < 80 ∨ 96 ≤ 49) ∧
          commitPending c7 49 = true ∧ commitAtLine c7 49 = false ∧ pageCheck c7 (copyShadows c7 49) 49 = 0) ∧
    (isHeader 72 = true ∧
      72 ≠ pgDisp ∧
        (72 < 80 ∨ 96 ≤ 72) ∧
          commitPending c4 72 = true ∧ commitAtLine c4 72 = false ∧ pageCheck c4 (copyShadows c4 72) 72 ≠ 0) := by
  decide +kernel

theorem witness_TableWrites :
    (0 < 8 ∧ 0 < 131072 ∧ setOk t0 (nzWset (0#32).toNat) (drop4 t0 0) = true ∧ barPasses t0 0 = false) ∧
    (1 < 8 ∧
      0 < 131072 ∧
        setOk t1 (nzWset (0#32).toNat) (drop4 t1 1) = true ∧
          barPasses t1 1 = true ∧ (staged t1 1 0 = true ∨ List.length (getBar t1 1).staging < 1024)) ∧
    (1 < 8 ∧
      2047 < 131072 ∧
        setOk t2 (nzWset (0#32).toNat) (drop4 t2 1) = true ∧
          barPasses t2 1 = true ∧ staged t2 1 2047 = false ∧ 1024 ≤ List.length (getBar t2 1).staging) ∧
    (0 < 8 ∧ 0 < 2 ∧ 0 < 2048 ∧ bankUsed t0 0 0 = false ∧ (pgEn t0 pgLoop = false ∨ Requester.core 1 = Requester.core 1)) ∧
    (8388608 % 4 = 0 ∧ 8388608 ≤ 8388608 ∧ 8388608 < 12582912 ∧ printing t0 ((8388608 - 8388608) / 524288) = false) ∧
    (8912900 % 4 = 0 ∧ 8388608 ≤ 8912900 ∧ 8912900 < 12582912 ∧ printing t1 ((8912900 - 8388608) / 524288) = true) := by
  decide +kernel

theorem witness_OwnerWrite :
    (59 < 60 ∧ 0 < 16 ∧ gate o1 (ownAddr 59) 0 = none ∧ 36 ≤ 59 ∧ isCore Requester.pcie = false) ∧
    (0 < 60 ∧
      1 < 16 ∧
        gate o1 (ownAddr 0) 1 = none ∧ (36 ≤ 0 → isCore (Requester.core 1) = true) ∧ rdf o1 (ownAddr 0) 3 0 = 0 ∧ 1 ≠ 0) ∧
    (0 < 60 ∧
      2 < 16 ∧
        gate o2 (ownAddr 0) 2 = none ∧
          (36 ≤ 0 → isCore (Requester.core 1) = true) ∧ rdf o2 (ownAddr 0) 3 0 ≠ 0 ∧ 2 ≠ 0 ∧ rdf o2 (ownAddr 0) 3 0 ≠ 2) ∧
    (0 < 60 ∧
      0 < 16 ∧
        gate o1 (ownAddr 0) 0 = none ∧
          (36 ≤ 0 → isCore (Requester.core 1) = true) ∧ 0 = 0 ∧ rdb o1 (ownAddr 0) 31 = false) ∧
    (4 < 60 ∧
      0 < 16 ∧
        gate o2 (ownAddr 4) 0 = none ∧
          (36 ≤ 4 → isCore (Requester.core 1) = true) ∧ 0 = 0 ∧ rdb o2 (ownAddr 4) 31 = true) := by
  decide +kernel

theorem witness_PinAndEventWrites :
    (gate o1 (ra pgPin 512) (0#32).toNat = none ∧ (o1.sys.bootState = 5 ∨ (0#32).toNat &&& 240 = 0)) ∧
    (gate o1 (ra pgPin 512) (240#32).toNat = none ∧ o1.sys.bootState ≠ 5 ∧ (240#32).toNat &&& 240 ≠ 0) ∧
    (gate o1 (ra pgPin 516) (0#32).toNat = none) ∧
    (gate o1 (ra pgPin 520) (0#32).toNat = none) ∧
    (gate o1 (ra pgPin 524) (0#32).toNat = none) ∧
    (gate o1 (ra pgPin 528) (0#32).toNat = none) ∧
    (isHeader 0 = true) := by
  decide +kernel

theorem witness_Snapshots :
    (gate n0 (ra pgRime 64) (0#32).toNat = none ∧ (0#32).getLsbD 0 = false) ∧
    (gate n0 (ra pgRime 64) (1#32).toNat = none ∧
      (1#32).getLsbD 0 = true ∧ n0.pair.role = 0 ∧ ((1#32).getLsbD 1 = false ∨ snapLate n0 (snapLine n0) = false)) ∧
    (gate n2 (ra pgRime 64) (3#32).toNat = none ∧
      (3#32).getLsbD 0 = true ∧ n2.pair.role = 0 ∧ (3#32).getLsbD 1 = true ∧ snapLate n2 (snapLine n2) = true) ∧
    (gate n6 (ra pgRime 64) (1#32).toNat = none ∧ (1#32).getLsbD 0 = true ∧ n6.pair.role ≠ 0 ∧ isActive n6 = true) ∧
    (gate n7 (ra pgRime 64) (1#32).toNat = none ∧ (1#32).getLsbD 0 = true ∧ n7.pair.role = 5) ∧
    (gate n8 (ra pgRime 64) (1#32).toNat = none ∧
      (1#32).getLsbD 0 = true ∧ n8.pair.role ≠ 0 ∧ n8.pair.role ≠ 5 ∧ isActive n8 = false) ∧
    (snapCauses (dropLateSnap n1) = [0]) ∧
    (snapCauses (dropLateSnap n0) = []) ∧
    (n0.snapWait.contains 0 = false ∨ rdb n0 (ra pgRime 64) 1 = false ∨ snapLate n0 (snapLine n0) = false) ∧
    (n4.snapWait.contains 0 = true ∧ rdb n4 (ra pgRime 64) 1 = true ∧ snapLate n4 (snapLine n4) = true) := by
  decide +kernel

theorem witness_BlockEnable :
    (Option.any (fun (x : ℕ) => decide (isHeader x = false)) ([81, 255] ++ headerPages)[0]? = true) ∧
    (Option.any (fun (x : ℕ) => decide (isHeader x = true ∧ ctrlRefused b2 x false = true))
        ([81, 255] ++ headerPages)[23]? =
      true) ∧
    (Option.any
        (fun (x : ℕ) =>
          decide
            (isHeader x = true ∧
              ctrlRefused z x false = false ∧
                (false = true → pgEn z x = false → claimFree z x = true ∧ (x = pgLoop → loopCheck z = 0))))
        ([81, 255] ++ headerPages)[2]? =
      true) ∧
    (Option.any
        (fun (x : ℕ) =>
          decide
            (isHeader x = true ∧
              true = true ∧
                pgEn b3 x = false ∧
                  x ≠ pgLoop ∧
                    Option.any (fun (c : ℕ × ℕ) => decide (claimable b3 c.1 c.2 = false)) (enableClaim b3 x) = true))
        ([81, 255] ++ headerPages)[33]? =
      true) ∧
    (Option.any (fun (x : ℕ) => decide (true = true ∧ pgEn b3 pgLoop = false ∧ loopCheck b3 ≠ 0))
        ([81, 255] ++ headerPages)[0]? =
      true) ∧
    (Option.any
        (fun (x : ℕ) => decide (isHeader x = false ∨ rd z (ra x 16) &&& 5 = 0 ∨ dozing z = true ∧ dozePage x = false))
        ([81, 255] ++ headerPages)[0]? =
      true) ∧
    (Option.any
        (fun (x : ℕ) =>
          decide (isHeader x = true ∧ rd b0 (ra x 16) &&& 5 ≠ 0 ∧ (dozing b0 = false ∨ dozePage x = true)))
        ([81, 255] ++ headerPages)[23]? =
      true) := by
  decide +kernel

theorem witness_BlockReset :
    (Option.any (fun (x : ℕ) => decide (isHeader x = false)) ([81, 255] ++ headerPages)[0]? = true) ∧
    (Option.any
        (fun (x : ℕ) => decide (isHeader x = true ∧ (if x = pgSys then anyPrinting b2 else pageInUse b2 x) = true))
        ([81, 255] ++ headerPages)[2]? =
      true) ∧
    (Option.any (fun (x : ℕ) => decide (isHeader x = true ∧ x ≠ pgSys ∧ pageInUse z x = false))
        ([81, 255] ++ headerPages)[3]? =
      true) ∧
    (Option.any (fun (x : ℕ) => decide (x = pgSys ∧ anyPrinting z = false)) ([81, 255] ++ headerPages)[2]? = true) ∧
    (Option.any (fun (x : ℕ) => decide (isHeader x = true)) ([81, 255] ++ headerPages)[2]? = true) := by
  decide +kernel

end Registers

namespace Sessions

def e0 : State := hostUp z
def e1 : State := regs e0 [(ra 0x10 0x40, 0x118), (ra 0x10 0x44, 5), (ra 0x18 0x4C, 0x0A000002)]
def e2 : State := { e1 with host := { e1.host with arpLeft := 2, annCount := 0xFFFFFFFF, journal := [(0, journalEntry 1 (cmdEntry 1 1 0 0 0 []) []), (3, { journalEntry 0 (cmdEntry 1 1 0 0 0 []) [] with state := 2 })] } }
def e3 : State := put (put e2 (ra 0x18 0x40) 0xE0000000) (ra 0x1C 0x40) 0x20000
def sample1 : List (State) := [e0, e1, e2, e3, regs e0 [(ra 0x18 0x4C, 0x0A000002)]]
def sample2 : List (UdpMsg) := [udp [1#8]]
def sample3 : List (EthFrame) := (([1518, 1519, 9600, 64].flatMap (fun n => ([[], [5]] : List (List Nat)).flatMap (fun v => [EthKind.gisha (udp [1#8]), .arp 0x0A000002, .ndp (linkLocal e0 0), .icmpEcho 0x0A000002, .ipFragment].flatMap (fun k => [{ length := n, fcsOk := true, vids := v, kind := k }, { length := n, fcsOk := false, vids := v, kind := k }])))) : List EthFrame)
def h0 : State := hostUp z
def hm : UdpMsg := udp (gMsg 1 1 0 0 (leBytes 2 0x300 ++ leBytes 2 0x304 ++ leBytes 4 0 ++ leBytes 8 0 ++ leBytes 2 4 ++ zeroBytes 46))
def hm2 : UdpMsg := udp (gMsg 1 1 0 0 (leBytes 2 0x300 ++ leBytes 2 0x304 ++ leBytes 4 0 ++ leBytes 8 77 ++ leBytes 2 4 ++ zeroBytes 46))
def hm3 : UdpMsg := udp (gMsg 1 1 0 0 (leBytes 2 0x400 ++ leBytes 2 0x404 ++ leBytes 4 0 ++ leBytes 8 77 ++ leBytes 2 4 ++ zeroBytes 46))
def withRx (s : State) (m : UdpMsg) : State := { s with host := { s.host with rx := [m] } }
def full : State := (List.range 16).foldl (fun s i => openSession s (i + 1) 1) h0
def sample4 : List (State) := [withRx h0 hm, withRx (openSession h0 1 1) hm, withRx (openSession h0 16 3) hm2, withRx full hm, withRx h0 hm3, { h0 with pair := { h0.pair with role := 1 } }]
def sample5 : List (UdpMsg) := [hm, hm2, hm3]
def msgs : List UdpMsg := [udp (gMsg 3 0 1 0 []), udp (gMsg 5 0 1 0 []), udp (gMsg 0x10 1 1 0 (cmdEntry 1 1 0 0 0 [])), udp (gMsg 0x10 1 1 0 (cmdEntry 1 0xFFFFFFFF 0 0 0 []))]
def so : State := openSession h0 1 1
def sj : State := setEntry so 0 (journalEntry 1 (cmdEntry 1 1 0 0 0 []) [])
def sf : State := (List.range 256).foldl (fun s i => setEntry s i (journalEntry 9 [] [])) so
def sample6 : List (State) := [so, sj, sf, openSession h0 1 3, put so (ra pgGsh 0x48) 0, put sj (ra pgGsh 0x48) 0, setEntry (setEntry (openSession h0 1 3) 3 (journalEntry 1 [] [])) 4 (journalEntry 2 [] []),  { so with freeCount := 1 }]
def ring0 (s : State) : State := regs (ons s [0x18, 0x1C]) [(subRing 0 + 8, 0x80000004), (cplRing 31 + 8, 0x80008004), (cplRing 0 + 8, 0x80008004), (subRing 0 + 0x10, 3), (subRing 31 + 8, 4)]
def es (op len : Nat) (ps : List Byte) : State := setEntry (ring0 z) 5 (journalEntry 0 (cmdEntry op 1 0 len 0 ps) [])
def sample7 : List (State) := [es 3 0 [], es 1 64 (leBytes 2 0x300 ++ leBytes 2 0x304), es 1 60 (leBytes 2 0x300 ++ leBytes 2 0x304), es 1 64 (leBytes 2 0x200 ++ leBytes 2 0x204), openSession (es 1 64 (leBytes 2 0x300 ++ leBytes 2 0x304)) 0 1, es 2 0 []]
def sample8 : List (JEntry) := [(es 3 0 []), es 1 64 (leBytes 2 0x300 ++ leBytes 2 0x304), es 1 60 (leBytes 2 0x300 ++ leBytes 2 0x304), es 1 64 (leBytes 2 0x200 ++ leBytes 2 0x204), es 2 0 []].filterMap (fun s => getEntry s 5)
def ce : List Byte := cmdEntry 3 1 0 0 0 []
def g0 : State := openSession (ring0 z) 0 1
def g1 : State := setEntry g0 7 { journalEntry 0 ce [] with state := 2, written := true, wpos := some 0 }
def g2 : State := setEntry g0 7 { journalEntry 0 ce [] with state := 2 }
def g3 : State := { g2 with host := { g2.host with msixPending := [0] } }
def sample9 : List (State) := [g0, g1, g2, g3]
def sample10 : List (List Byte) := [[], ce]
def sample11 : List (JEntry) := [g1, g2].filterMap (fun s => getEntry s 7)
def q0 : State := ons (openSession (ring0 z) 1 1) [0x48, 0x31, 0xF0, 0x09, 0x68]
def jc (ses : Nat) (e d : List Byte) : State := setEntry q0 5 (journalEntry ses e d)
def wd : List Byte := leBytes 4 (ra 0x48 0x44) ++ leBytes 4 7 ++ leBytes 4 (ra 0x48 0x48) ++ leBytes 4 9
def s20 : State := jc 1 (cmdEntry 0x20 1 0 0 0 (leBytes 4 (ra 0x48 0x40) ++ leBytes 4 2)) []
def s21 : State := jc 1 (cmdEntry 0x21 1 0 16 (crc32c wd) (leBytes 4 2)) wd
def s21a : State := jc 1 (cmdEntry 0x21 1 0 16 (crc32c wd) (leBytes 4 2 ++ leBytes 4 1 ++ leBytes 6 40)) wd
def s21r : State := printBar s21a 0
def s21b : State := setEntry q0 5 { journalEntry 1 (cmdEntry 0x21 1 0 16 (crc32c wd) (leBytes 4 2 ++ leBytes 4 1 ++ leBytes 6 40)) wd with late := true }
def s21w : State := setEntry (printBar (put q0 (ra 0x48 0x44) 3) 0) 5 { journalEntry 1 (cmdEntry 0x21 1 0 16 (crc32c wd) (leBytes 4 2 ++ leBytes 4 1 ++ leBytes 6 0)) wd with waiting := true, state := 1 }
def s21c : State := jc 1 (cmdEntry 0x21 1 0 16 (crc32c wd) (leBytes 4 2)) wd |> fun s => put s (ra 0x48 0x18) 4
def s28 : State := jc 1 (cmdEntry 0x28 1 0 16 (crc32c wd) (leBytes 4 0x800000)) wd
def s38 : State := jc 1 (cmdEntry 0x38 1 0 0 0 []) []
def s38l : State := printBar (jc 1 (cmdEntry 0x38 1 0 0 0 (leBytes 4 1 ++ leBytes 6 0x800000000001)) []) 0
def sto : List Byte := [0x01#8, 0x02#8, 0x00#8, 0xFD#8, 0xFF#8, 0x41#8, 0x42#8]
def s30 (d : List Byte) : State := jc 1 (cmdEntry 0x30 1 0 d.length (crc32c d) (leBytes 4 2)) d
def s30n : State := (List.range 24).foldl (fun s k => put s (ownThaw k) 0x80000001) (s30 sto)
def s30d (d : List Byte) : State := setEngine (setEntry (s30 d) 5 { journalEntry 1 (cmdEntry 0x30 1 0 d.length (crc32c d) (leBytes 4 2)) d with state := 1 }) 3 { inflate := some 5 }
def s28t : State := setPower s28 { s28.power with level := 8 }
def s21v : State := setBar s21w 0 { getBar s21w 0 with streams := [], starts := [0] }
def s21x : State := setEntry (printAt (put q0 (ra 0x48 0x44) 3) 0 9) 5 { journalEntry 1 (cmdEntry 0x21 1 0 16 (crc32c wd) (leBytes 4 2 ++ leBytes 4 1 ++ leBytes 6 7)) wd with waiting := true, state := 1 }
def allS : List State := [s28t, s21v, s21x, s20, s21, s21a, s21r, s21b, s21w, s21c, s28, s38, s38l, s30 sto, s30n, s30d sto, s30d (sto.take 5)]
def sample12 : List (JEntry) := allS.filterMap (fun s => getEntry s 5)

theorem witness_EthernetFrames :
    (Option.any
        (fun (x : EthFrame) =>
          decide
            (0 < 4 ∧
              pgEn (stateAt sample1 0) (pgEth 0) = true ∧
                ethRole (stateAt sample1 0) 0 = 1 ∧
                  rdb (stateAt sample1 0) (ra (pgEth 0) 80) 2 = true ∧
                    (x.fcsOk = false ∨
                      tagsOk (stateAt sample1 0) 0 x.vids = false ∨
                        (if rdb (stateAt sample1 0) (ra (pgEth 0) 64) 4 = true then 9600 else 1518) < x.length)))
        sample3[1]? =
      true) ∧
    (Option.any
        (fun (x : EthFrame) =>
          decide
            (0 < 4 ∧
              pgEn (stateAt sample1 0) (pgEth 0) = true ∧
                ethRole (stateAt sample1 0) 0 = 1 ∧
                  rdb (stateAt sample1 0) (ra (pgEth 0) 80) 2 = true ∧
                    x.fcsOk = true ∧
                      tagsOk (stateAt sample1 0) 0 x.vids = true ∧
                        (x.length ≤ if rdb (stateAt sample1 0) (ra (pgEth 0) 64) 4 = true then 9600 else 1518) ∧
                          Option.any
                              (fun (x_1 : UdpMsg) =>
                                decide
                                  (x.kind = EthKind.gisha x_1 ∧
                                    dozing (stateAt sample1 0) = false ∧
                                      (x_1.toService = false ∨ isActive (stateAt sample1 0) = true)))
                              sample2[0]? =
                            true))
        sample3[0]? =
      true) ∧
    (Option.any
        (fun (x : EthFrame) =>
          decide
            (0 < 4 ∧
              pgEn (stateAt sample1 1) (pgEth 0) = true ∧
                ethRole (stateAt sample1 1) 0 = 1 ∧
                  rdb (stateAt sample1 1) (ra (pgEth 0) 80) 2 = true ∧
                    x.fcsOk = true ∧
                      tagsOk (stateAt sample1 1) 0 x.vids = true ∧
                        (x.length ≤ if rdb (stateAt sample1 1) (ra (pgEth 0) 64) 4 = true then 9600 else 1518) ∧
                          x.kind = EthKind.arp 167772162 ∧ ownsV4 (stateAt sample1 1) 167772162 = true))
        sample3[12]? =
      true) ∧
    (Option.any
        (fun (x : EthFrame) =>
          decide
            (0 < 4 ∧
              pgEn (stateAt sample1 0) (pgEth 0) = true ∧
                ethRole (stateAt sample1 0) 0 = 1 ∧
                  rdb (stateAt sample1 0) (ra (pgEth 0) 80) 2 = true ∧
                    x.fcsOk = true ∧
                      tagsOk (stateAt sample1 0) 0 x.vids = true ∧
                        (x.length ≤ if rdb (stateAt sample1 0) (ra (pgEth 0) 64) 4 = true then 9600 else 1518) ∧
                          x.kind = EthKind.ndp (linkLocal e0 0) ∧ ownsV6 (stateAt sample1 0) 0 (linkLocal e0 0) = true))
        sample3[4]? =
      true) ∧
    (Option.any
        (fun (x : EthFrame) =>
          decide
            (0 < 4 ∧
              pgEn (stateAt sample1 1) (pgEth 0) = true ∧
                ethRole (stateAt sample1 1) 0 = 1 ∧
                  rdb (stateAt sample1 1) (ra (pgEth 0) 80) 2 = true ∧
                    x.fcsOk = true ∧
                      tagsOk (stateAt sample1 1) 0 x.vids = true ∧
                        (x.length ≤ if rdb (stateAt sample1 1) (ra (pgEth 0) 64) 4 = true then 9600 else 1518) ∧
                          x.kind = EthKind.icmpEcho 167772162 ∧
                            (ownsV4 (stateAt sample1 1) 167772162 = true ∨
                              ownsV6 (stateAt sample1 1) 0 167772162 = true)))
        sample3[16]? =
      true) ∧
    (Option.any
        (fun (x : EthFrame) =>
          decide
            (0 < 4 ∧
              pgEn (stateAt sample1 0) (pgEth 0) = true ∧
                ethRole (stateAt sample1 0) 0 = 1 ∧
                  rdb (stateAt sample1 0) (ra (pgEth 0) 80) 2 = true ∧
                    x.fcsOk = true ∧
                      tagsOk (stateAt sample1 0) 0 x.vids = true ∧
                        (x.length ≤ if rdb (stateAt sample1 0) (ra (pgEth 0) 64) 4 = true then 9600 else 1518) ∧
                          (x.kind = EthKind.ipFragment ∨ x.kind = EthKind.other)))
        sample3[8]? =
      true) := by
  decide +kernel

theorem witness_AnnounceAndReplay :
    (rdb (stateAt sample1 3) (ra pgGsh 64) 29 = true ∧ ∀ n < 17, (getSession (stateAt sample1 3) n).state ≠ 1) ∧
    (0 < (stateAt sample1 2).host.arpLeft ∧ isActive (stateAt sample1 2) = true) ∧
    (0 < 4) ∧
    (rdb (stateAt sample1 3) (ra pgJrn 64) 17 = true) := by
  decide +kernel

theorem witness_HelloOpensSession :
    (Option.any
        (fun (x : UdpMsg) =>
          decide
            (dozing (stateAt sample4 0) = false ∧
              arrives (stateAt sample4 0) x = true ∧
                gWellFormed x.data = true ∧
                  gType x.data = 1 ∧
                    gCount x.data = 1 ∧
                      chooseVersion (bytesAt (gEntry x.data 0) 0 2) (bytesAt (gEntry x.data 0) 2 2) = 772 ∧
                        bytesAt (gEntry x.data 0) 8 8 = 0 ∧
                          isActive (stateAt sample4 0) = true ∧
                            772 ≠ 0 ∧ 0 = 0 ∧ freeSession (stateAt sample4 0) = some 1))
        sample5[0]? =
      true) ∧
    (Option.any
        (fun (x : UdpMsg) =>
          decide
            (dozing (stateAt sample4 2) = false ∧
              arrives (stateAt sample4 2) x = true ∧
                gWellFormed x.data = true ∧
                  gType x.data = 1 ∧
                    gCount x.data = 1 ∧
                      chooseVersion (bytesAt (gEntry x.data 0) 0 2) (bytesAt (gEntry x.data 0) 2 2) = 772 ∧
                        bytesAt (gEntry x.data 0) 8 8 = 77 ∧
                          isActive (stateAt sample4 2) = true ∧
                            772 ≠ 0 ∧
                              77 ≠ 0 ∧
                                1 ≤ 16 ∧
                                  16 ≤ 16 ∧
                                    (getSession (stateAt sample4 2) 16).state = 3 ∧
                                      (getSession (stateAt sample4 2) 16).id = 77 ∧
                                        (getSession (stateAt sample4 2) 16).srcAddr = x.srcAddr ∧
                                          (getSession (stateAt sample4 2) 16).major = 3 ∧
                                            1 ≤ (getSession (stateAt sample4 2) 16).minor ∧
                                              ∀ k < 16, (getSession (stateAt sample4 2) k).id ≠ 77))
        sample5[1]? =
      true) ∧
    (Option.any
        (fun (x : UdpMsg) =>
          decide
            (dozing (stateAt sample4 0) = false ∧
              arrives (stateAt sample4 0) x = true ∧
                gWellFormed x.data = true ∧
                  gType x.data = 1 ∧
                    gCount x.data = 1 ∧
                      chooseVersion (bytesAt (gEntry x.data 0) 0 2) (bytesAt (gEntry x.data 0) 2 2) = 0 ∧
                        bytesAt (gEntry x.data 0) 8 8 = 77 ∧
                          (isActive (stateAt sample4 0) = false ∨
                            0 = 0 ∨ 77 = 0 ∧ freeSession (stateAt sample4 0) = none)))
        sample5[2]? =
      true) := by
  decide +kernel

theorem witness_SessionMessages :
    (Option.any
        (fun (x : UdpMsg) =>
          decide
            ((dozing (stateAt sample6 0) = false ∧
                arrives (stateAt sample6 0) x = true ∧
                  gWellFormed x.data = true ∧
                    gType x.data = 3 ∧ sessionOf (stateAt sample6 0) x = some 1 ∧ isActive (stateAt sample6 0) = true) ∧
              (getSession (stateAt sample6 0) 1).state = 1))
        msgs[0]? =
      true) ∧
    (Option.any
        (fun (x : UdpMsg) =>
          decide
            ((dozing (stateAt sample6 0) = false ∧
                arrives (stateAt sample6 0) x = true ∧
                  gWellFormed x.data = true ∧
                    gType x.data = 5 ∧ sessionOf (stateAt sample6 0) x = some 1 ∧ isActive (stateAt sample6 0) = true) ∧
              (getSession (stateAt sample6 0) 1).state = 1))
        msgs[1]? =
      true) ∧
    (Option.any
        (fun (x : UdpMsg) =>
          decide
            ((dozing (stateAt sample6 0) = false ∧
                arrives (stateAt sample6 0) x = true ∧
                  gWellFormed x.data = true ∧
                    gType x.data = 16 ∧
                      sessionOf (stateAt sample6 0) x = some 1 ∧ isActive (stateAt sample6 0) = true) ∧
              gCount x.data = 1 ∧
                gAckValid x.data = false ∧
                  eSeq (gEntry x.data 0) = nextSeq (getSession (stateAt sample6 0) 1).accepted ∧
                    freeEntry (stateAt sample6 0) = some 0 ∧
                      windowOf (stateAt sample6 0) 1 < (getSession (stateAt sample6 0) 1).window ∧
                        eCrcOk (gEntry x.data 0) = true ∧ (getSession (stateAt sample6 0) 1).state = 1))
        msgs[2]? =
      true) ∧
    (Option.any
        (fun (x : UdpMsg) =>
          decide
            ((dozing (stateAt sample6 2) = false ∧
                arrives (stateAt sample6 2) x = true ∧
                  gWellFormed x.data = true ∧
                    gType x.data = 16 ∧
                      sessionOf (stateAt sample6 2) x = some 1 ∧ isActive (stateAt sample6 2) = true) ∧
              gCount x.data = 1 ∧
                gAckValid x.data = false ∧
                  eSeq (gEntry x.data 0) = nextSeq (getSession (stateAt sample6 2) 1).accepted ∧
                    freeEntry (stateAt sample6 2) = none))
        msgs[2]? =
      true) ∧
    (Option.any
        (fun (x : UdpMsg) =>
          decide
            ((dozing (stateAt sample6 0) = false ∧
                arrives (stateAt sample6 0) x = true ∧
                  gWellFormed x.data = true ∧
                    gType x.data = 16 ∧
                      sessionOf (stateAt sample6 0) x = some 1 ∧ isActive (stateAt sample6 0) = true) ∧
              gCount x.data = 1 ∧
                gAckValid x.data = false ∧
                  eSeq (gEntry x.data 0) ≠ nextSeq (getSession (stateAt sample6 0) 1).accepted ∧
                    seqLe (eSeq (gEntry x.data 0)) (getSession (stateAt sample6 0) 1).accepted = true ∧
                      eSeq (gEntry x.data 0) ≠ 0 ∧ freeEntry (stateAt sample6 0) ≠ none))
        msgs[3]? =
      true) := by
  decide +kernel

theorem witness_SessionEnds :
    (1 ≤ 1 ∧
      1 ≤ 16 ∧
        (getSession (stateAt sample6 0) 1).state = 1 ∧
          messageWaits (stateAt sample6 0) 1 = false ∧ rdf (stateAt sample6 0) (ra pgGsh 72) 11 0 ≠ 0) ∧
    (1 ≤ 1 ∧
      1 ≤ 16 ∧
        (getSession (stateAt sample6 4) 1).state = 1 ∧
          messageWaits (stateAt sample6 4) 1 = false ∧ rdf (stateAt sample6 4) (ra pgGsh 72) 11 0 = 0) ∧
    ((getSession (stateAt sample6 0) 0).state ≠ 1 ∨ messageWaits (stateAt sample6 0) 0 = true) ∧
    ((getSession (stateAt sample6 0) 0).state ≠ 3 ∨ helloWaits (stateAt sample6 0) 0 = true) ∧
    (1 ≤ 1 ∧ 1 ≤ 16 ∧ (getSession (stateAt sample6 3) 1).state = 3 ∧ helloWaits (stateAt sample6 3) 1 = false) := by
  decide +kernel

theorem witness_RingSession :
    (Option.any (fun (x : JEntry) => decide (startable (stateAt sample7 0) 5 3 = some x)) sample8[0]? = true) ∧
    (Option.any (fun (x : JEntry) => decide (startable (stateAt sample7 2) 5 1 = some x ∧ eDataLen x.entry ≠ 64))
        sample8[2]? =
      true) ∧
    (Option.any
        (fun (x : JEntry) =>
          decide
            (startable (stateAt sample7 3) 5 1 = some x ∧
              eDataLen x.entry = 64 ∧ chooseVersion (eParam x.entry 0 2) (eParam x.entry 2 2) / 256 ≠ 3))
        sample8[3]? =
      true) ∧
    (Option.any
        (fun (x : JEntry) =>
          decide
            (startable (stateAt sample7 4) 5 1 = some x ∧
              eDataLen x.entry = 64 ∧
                chooseVersion (eParam x.entry 0 2) (eParam x.entry 2 2) / 256 = 3 ∧
                  (getSession (stateAt sample7 4) 0).state ≠ 0))
        sample8[1]? =
      true) ∧
    (Option.any
        (fun (x : JEntry) =>
          decide
            (startable (stateAt sample7 1) 5 1 = some x ∧
              eDataLen x.entry = 64 ∧
                chooseVersion (eParam x.entry 0 2) (eParam x.entry 2 2) / 256 = 3 ∧
                  (getSession (stateAt sample7 1) 0).state = 0))
        sample8[1]? =
      true) ∧
    (Option.any (fun (x : JEntry) => decide (startable (stateAt sample7 5) 5 2 = some x)) sample8[4]? = true) := by
  decide +kernel

theorem witness_Rings :
    (0 < 32 ∧ 0 < 4096 ∧ doorbellOk (stateAt sample9 0) (subRing 0) 0 = true) ∧
    (0 < 32 ∧ 31 < 4096 ∧ doorbellOk (stateAt sample9 0) (subRing 0) 31 = false) ∧
    (0 < 32 ∧ 0 < 4096 ∧ doorbellOk (stateAt sample9 0) (cplRing 0) 0 = true) ∧
    (0 < 32 ∧ 31 < 4096 ∧ doorbellOk (stateAt sample9 0) (cplRing 0) 31 = false) ∧
    (Option.any
        (fun (x : List Byte) =>
          decide
            (Option.any
                (fun (x_1 : List Byte) =>
                  decide
                    (0 < 32 ∧
                      ringEn (stateAt sample9 0) (subRing 0) = true ∧
                        ringHead (stateAt sample9 0) (subRing 0) ≠ ringTail (stateAt sample9 0) (subRing 0) ∧
                          ringHeld (stateAt sample9 0) 0 = false ∧
                            freeEntry (stateAt sample9 0) = some 0 ∧
                              (stateAt sample9 0).pair.role = 0 ∧
                                (getSession (stateAt sample9 0) 0).state = 1 ∧
                                  eSeq (padTo 64 x) = nextSeq (getSession (stateAt sample9 0) 0).accepted ∧
                                    windowOf (stateAt sample9 0) 0 < (getSession (stateAt sample9 0) 0).window ∧
                                      eCrcOk (padTo 64 x) = true))
                sample10[0]? =
              true))
        sample10[1]? =
      true) ∧
    (Option.any
        (fun (x : JEntry) =>
          decide
            (0 < 32 ∧
              ringEn (stateAt sample9 2) (cplRing 0) = true ∧
                (ringTail (stateAt sample9 2) (cplRing 0) + 1) % ringSize (stateAt sample9 2) (cplRing 0) ≠
                    ringHead (stateAt sample9 2) (cplRing 0) ∧
                  List.find? (fun (e : JEntry) => e.ring == 0) (stateAt sample9 2).host.errs = none ∧
                    (getSession (stateAt sample9 2) 0).state = 1 ∧
                      oldest (waitingFor (stateAt sample9 2) 0) = some (7, x)))
        sample11[1]? =
      true) ∧
    (0 < 256) := by
  decide +kernel

theorem witness_RegisterCommands :
    (Option.any
        (fun (x : JEntry) =>
          decide
            (startable (stateAt allS 3) 5 32 = some x ∧
              readParamsOk x = true ∧
                (onRing x = true ∧ 4 * eParam x.entry 4 4 ≤ eDataLen x.entry ∧ eDataLen x.entry ≤ 256 ∨
                  onRing x = false ∧ resultFits (stateAt allS 3) x (4 * eParam x.entry 4 4) = true)))
        sample12[3]? =
      true) ∧
    (Option.any
        (fun (x : JEntry) =>
          decide
            (startable (stateAt allS 4) 5 33 = some x ∧
              dataInside x = true ∧
                writeParamsOk (stateAt allS 4) x = true ∧
                  (onRing x = true → eDataLen x.entry ≤ 512) ∧
                    dataCrcOk x = true ∧
                      (applies x = false ∨
                        x.late = false ∧
                          linePassed (stateAt allS 4) (commandBar (stateAt allS 4) x.entry x.data) (applyOf x) = false ∧
                            lineReached (stateAt allS 4) (commandBar (stateAt allS 4) x.entry x.data) (applyOf x) =
                              true)))
        sample12[4]? =
      true) ∧
    (Option.any
        (fun (x : JEntry) =>
          decide
            (startable (stateAt allS 7) 5 33 = some x ∧
              dataInside x = true ∧
                writeParamsOk (stateAt allS 7) x = true ∧
                  (onRing x = true → eDataLen x.entry ≤ 512) ∧
                    dataCrcOk x = true ∧
                      applies x = true ∧
                        (x.late = true ∨
                          linePassed (stateAt allS 7) (commandBar (stateAt allS 7) x.entry x.data) (applyOf x) = true)))
        sample12[7]? =
      true) ∧
    (Option.any
        (fun (x : JEntry) =>
          decide
            (startable (stateAt allS 5) 5 33 = some x ∧
              dataInside x = true ∧
                writeParamsOk (stateAt allS 5) x = true ∧
                  (onRing x = true → eDataLen x.entry ≤ 512) ∧
                    dataCrcOk x = true ∧
                      applies x = true ∧
                        x.late = false ∧
                          linePassed (stateAt allS 5) (commandBar (stateAt allS 5) x.entry x.data) (applyOf x) = false ∧
                            lineReached (stateAt allS 5) (commandBar (stateAt allS 5) x.entry x.data) (applyOf x) =
                              false))
        sample12[5]? =
      true) ∧
    (Option.any
        (fun (x : JEntry) =>
          decide
            (getEntry (stateAt allS 2) 5 = some x ∧
              x.waiting = true ∧
                eOpcode x.entry = 33 ∧
                  linePassed (stateAt allS 2) (commandBar (stateAt allS 2) x.entry x.data) (applyOf x) = true))
        sample12[2]? =
      true) ∧
    (Option.any
        (fun (x : JEntry) =>
          decide
            (getEntry (stateAt allS 1) 5 = some x ∧
              x.waiting = true ∧
                eOpcode x.entry = 33 ∧
                  linePassed (stateAt allS 1) (commandBar (stateAt allS 1) x.entry x.data) (applyOf x) = false ∧
                    lineReached (stateAt allS 1) (commandBar (stateAt allS 1) x.entry x.data) (applyOf x) = true))
        sample12[1]? =
      true) ∧
    (Option.any
        (fun (x : JEntry) =>
          decide
            (startable (stateAt allS 10) 5 40 = some x ∧
              mayThrottled (stateAt allS 10) = true ∧
                dataInside x = true ∧ tableParamsOk x = true ∧ dataCrcOk x = true))
        sample12[0]? =
      true) ∧
    (Option.any
        (fun (x : JEntry) => decide (startable (stateAt allS 0) 5 40 = some x ∧ mayThrottled (stateAt allS 0) = false))
        sample12[0]? =
      true) := by
  decide +kernel

theorem witness_SnapshotAndInflate :
    (Option.any
        (fun (x : JEntry) =>
          decide
            (startable (stateAt allS 11) 5 56 = some x ∧
              x.late = false ∧
                (bitOf (eParam x.entry 0 4) 0 && snapLate (stateAt allS 11) (eParam x.entry 4 6)) = false))
        sample12[11]? =
      true) ∧
    (Option.any
        (fun (x : JEntry) =>
          decide
            (startable (stateAt allS 12) 5 56 = some x ∧
              x.late = false ∧
                (bitOf (eParam x.entry 0 4) 0 && snapLate (stateAt allS 12) (eParam x.entry 4 6)) = true))
        sample12[12]? =
      true) ∧
    (Option.any
        (fun (x : JEntry) =>
          decide
            (startable (stateAt allS 13) 5 48 = some x ∧
              dataInside x = true ∧
                (onRing x = true → eDataLen x.entry ≤ 40960) ∧
                  dataCrcOk x = true ∧
                    eParam x.entry 0 4 ≤ 32768 ∧
                      resultFits (stateAt allS 13) x (eParam x.entry 0 4) = true ∧
                        mayThrottled (stateAt allS 13) = true ∧
                          mayThaw (stateAt allS 13) (eParam x.entry 0 4 + x.data.length) = true ∧
                            (List.find? (fun (k : ℕ) => thawOwner (stateAt allS 13) k == 0) (List.range 24)).isSome =
                              true))
        sample12[13]? =
      true) ∧
    (Option.any
        (fun (x : JEntry) =>
          decide
            (startable (stateAt allS 14) 5 48 = some x ∧
              dataInside x = true ∧
                (onRing x = true → eDataLen x.entry ≤ 40960) ∧
                  dataCrcOk x = true ∧
                    eParam x.entry 0 4 ≤ 32768 ∧
                      resultFits (stateAt allS 14) x (eParam x.entry 0 4) = true ∧
                        mayThrottled (stateAt allS 14) = true ∧
                          mayThaw (stateAt allS 14) (eParam x.entry 0 4 + x.data.length) = true ∧
                            ∀ k ∈ List.range 24, thawOwner (stateAt allS 14) k ≠ 0))
        sample12[13]? =
      true) ∧
    (Option.any
        (fun (x : JEntry) =>
          decide
            (Option.any
                (fun (k : ℕ) =>
                  decide (getEntry (stateAt allS 15) 5 = some x ∧ (inflate false (eParam x.entry 0 4) x.data).1 = 0))
                (inflateEngine (stateAt allS 15) 5) =
              true))
        sample12[15]? =
      true) ∧
    (Option.any
        (fun (x : JEntry) =>
          decide
            (Option.any
                (fun (k : ℕ) =>
                  decide (getEntry (stateAt allS 16) 5 = some x ∧ (inflate false (eParam x.entry 0 4) x.data).1 ≠ 0))
                (inflateEngine (stateAt allS 16) 5) =
              true))
        sample12[16]? =
      true) :=
  ⟨by decide +kernel,
   by decide +kernel,
   by decide +kernel,
   by decide +kernel,
   by decide +kernel,
   by decide +kernel⟩

end Sessions

namespace Tiles

def sj : State := setJob (storeUp z) job9
def en (s : State) (op : Nat) (job : Nat) (ps d : List Byte) : State := setEntry (openSession s 1 1) 5 (journalEntry 1 (cmdEntry op 1 job d.length (crc32c d) ps) d)
def jd (mask width len rep quota : Nat) : List Byte := leBytes 4 mask ++ leBytes 4 width ++ leBytes 8 len ++ leBytes 8 rep ++ leBytes 4 quota
def jdS : List State := [en sj 0x10 9 (jd 1 4 1 0 0) [], en sj 0x10 8 (jd 3 4 1 0 0) [], en sj 0x10 8 (jd 3 65537 1 0 0) [], en sj 0x10 8 (jd 3 65536 1 0 1) [], en sj 0x10 8 (jd 3 65536 1 0 2) [], en (storeUp z) 0x10 8 (jd 3 65536 1 0 1) [], en sj 0x13 9 [] [], en (setBar sj 0 { job := 9, printing := true }) 0x13 9 [] [], en sj 0x13 8 [] [], en (setTile (setTile sj (newTile 9 0 0 0)) (newTile 8 0 0 0)) 0x13 9 [] []]
def sample1 : List (JEntry) := jdS.filterMap (fun s => getEntry s 5)
def sample2 : List (Job) := [job9]
def c9 : List Byte := container [1#8, 2#8, 3#8, 4#8]
def tp (total ofs plane x y : Nat) : List Byte := leBytes 4 total ++ leBytes 4 ofs ++ leBytes 1 plane ++ leBytes 1 x ++ leBytes 2 0 ++ leBytes 6 y
def job0 : Job := { job9 with length := 0, descRows := 4 }
def sj0 : State := setJob (storeUp z) job0
def nos : State := setJob (cmt (storeUp z) [(ra 0x30 0x44, 0)]) job9
def tS : List State := [en sj 0x18 9 (tp c9.length 0 0 0 0) c9, en sj 0x18 9 (tp c9.length 0 0 0 1) c9, en sj 0x18 9 (tp 40961 0 0 0 0) c9, en sj0 0x18 9 (tp c9.length 0 0 0 4) c9, en nos 0x18 9 (tp c9.length 0 0 0 0) c9, en (setTile sj { newTile 9 0 0 0 with state := 4, lastErr := 3 }) 0x18 9 (tp c9.length 0 0 0 0) c9, en (setTile sj { newTile 9 0 0 0 with state := 4, lastErr := 3 }) 0x19 9 (leBytes 4 0 ++ leBytes 4 0 ++ leBytes 6 0) []]
def sample3 : List (JEntry) := tS.filterMap (fun s => getEntry s 5)
def sample4 : List (Job) := [job9, job0]
def putFrag (d total : List Byte) (ofs : Nat) (rs : List Run) (bad : Bool) : State :=
  let s := en sj 0x18 9 (tp total.length ofs 0 0 0) d
  let s := setEntry s 5 { journalEntry 1 (cmdEntry 0x18 1 9 d.length (crc32c d + b2n bad) (tp total.length ofs 0 0 0)) d with state := 1 }
  setTile s { newTile 9 0 0 0 with state := 1, arriving := some (0, total.length, 1, rs) }
def fS : List State := [putFrag c9 c9 0 [] true, putFrag (c9.take 10) c9 0 [] false, putFrag c9 c9 0 [] false, putFrag (c9.set 8 1#8) c9 0 [] false, putFrag (c9.drop 10) c9 10 [⟨0,10,crc32c (c9.take 10)⟩] false, putFrag (c9.drop 10) c9 10 [⟨0,10,crc32c (c9.take 10)⟩] true, putFrag (c9.drop 10) c9 9 [⟨0,10,crc32c (c9.take 10)⟩] false]
def sample5 : List (State) := fS ++ fS.map (fun s => setEntry s 5 { journalEntry 1 [] [] with state := 2 })
def sample6 : List (JEntry) := fS.filterMap (fun s => getEntry s 5)
def sample7 : List (Tile) := fS.filterMap (fun s => findTile s 9 0 0 0)
def sample8 : List (List Run) := [[], [⟨0,10,crc32c (c9.take 10)⟩]]
def st (c : List Byte) : State :=
  let s := put (on sj 0x09) (ownThaw 3) 1
  let s := { s with dram := { s.dram with mem := memWrite [] (granAddr s 2) c } }
  setTile s { newTile 9 0 0 0 with state := 2, gran := 2, length := c.length, compLen := c.length - 24, size := 4, storeCrc := crc32c c9, contentCrc := crc32c [1#8, 2#8, 3#8, 4#8], storedFmt := true }
def ready (s : State) : State := { s with print := { s.print with thawQueue := [(0, 9, 0, 0, 0)] } }
def busyT (s : State) (f : Tile → Tile) : State := setEngine ((findTile s 9 0 0 0).elim s (fun t => setTile s (f { t with state := 3 }))) 3 { tile := some (9, 0, 0, 0) }
def thS : List State := [ready (st c9), busyT (st c9) id, busyT (st c9) (fun t => { t with contentCrc := 0 }), busyT (st c9) (fun t => { t with size := 3 }), busyT (st (c9.set 26 7#8)) id]
def sample9 : List (Nat × Nat × Nat × Nat × Nat) := [(0, 9, 0, 0, 0)]
def sample10 : List (Tile) := thS.filterMap (fun s => findTile s 9 0 0 0)
def win : WinSlot := { job := 9, plane := 0, x := 0, y := 0, ready := false, last := 0, bytes := [] }
def tck (good : Bool) (rec : Nat) (state : Nat) : State :=
  let s := setTile sj { newTile 9 0 0 0 with state := state, slot := 1, gran := 2, length := 3, size := 4, recovery := rec, storeCrc := if good then crc32c [0#8,0#8,0#8] else 5, storageCrc := if good then crc32c [0#8,0#8,0#8,0#8] else 5 }
  { s with print := { s.print with windows := [(0, [win])] } }
def ckS : List State := [tck true 0 4, tck false 0 4, tck true 5 4, tck true 4 2, tck false 0 2]
def sample11 : List (State) := ckS ++ ckS.map (fun s => { s with pair := { s.pair with role := 5 } })
def sample12 : List (WinSlot) := [win]
def sample13 : List (List Byte) := [[], [65#8, 66#8]]
def sample14 : List (Tile) := ckS.filterMap (fun s => findTile s 9 0 0 0)
def sample15 : List (List Nat) := [[], [1]]

theorem witness_Jobs :
    (Option.any
        (fun (x : JEntry) =>
          decide
            (startable (stateAt jdS 0) 5 16 = some x ∧
              ((findJob (stateAt jdS 0) (eJob x.entry)).isSome = true ∨
                eParam x.entry 0 1 = 0 ∨
                  eParam x.entry 4 4 = 0 ∨
                    (if bitOf (eParam x.entry 1 1) 0 = true then 131072 else 65536) < eParam x.entry 4 4 ∨
                      eParam x.entry 16 6 % 16 ≠ 0)))
        sample1[0]? =
      true) ∧
    (Option.any
        (fun (x : JEntry) =>
          decide
            (startable (stateAt jdS 4) 5 16 = some x ∧
              ¬((findJob (stateAt jdS 4) (eJob x.entry)).isSome = true ∨
                    eParam x.entry 0 1 = 0 ∨
                      eParam x.entry 4 4 = 0 ∨
                        (if bitOf (eParam x.entry 1 1) 0 = true then 131072 else 65536) < eParam x.entry 4 4 ∨
                          eParam x.entry 16 6 % 16 ≠ 0) ∧
                storeFree (stateAt jdS 4) < eParam x.entry 24 4 * 2 ^ 20))
        sample1[4]? =
      true) ∧
    (Option.any
        (fun (x : JEntry) =>
          decide
            (startable (stateAt jdS 5) 5 16 = some x ∧
              ¬((findJob (stateAt jdS 5) (eJob x.entry)).isSome = true ∨
                    eParam x.entry 0 1 = 0 ∨
                      eParam x.entry 4 4 = 0 ∨
                        (if bitOf (eParam x.entry 1 1) 0 = true then 131072 else 65536) < eParam x.entry 4 4 ∨
                          eParam x.entry 16 6 % 16 ≠ 0) ∧
                eParam x.entry 24 4 * 2 ^ 20 ≤ storeFree (stateAt jdS 5) ∧
                  descUse (stateAt jdS 5) = [] ∧
                    (List.filter (fun (b : ℕ) => bitOf (eParam x.entry 0 1) b) (List.range 8)).length *
                          ceilDiv (eParam x.entry 4 4) 2048 *
                        tileRows (eParam x.entry 8 6) (eParam x.entry 16 6) (rdf (stateAt jdS 5) (ra pgFirn 88) 15 0) ≤
                      descCount (stateAt jdS 5)))
        sample1[3]? =
      true) ∧
    (Option.any
        (fun (x : JEntry) =>
          decide (startable (stateAt jdS 8) 5 19 = some x ∧ findJob (stateAt jdS 8) (eJob x.entry) = none))
        sample1[8]? =
      true) ∧
    (Option.any
        (fun (x : JEntry) =>
          decide (startable (stateAt jdS 6) 5 19 = some x ∧ (findJob (stateAt jdS 6) (eJob x.entry)).isSome = true))
        sample1[6]? =
      true) := by
  decide +kernel

theorem witness_TileArrival :
    (Option.any
        (fun (x : JEntry) =>
          decide
            (Option.any
                (fun (j : Job) =>
                  decide
                    (startable (stateAt tS 1) 5 24 = some x ∧
                      (placeOf j (eParam x.entry 8 1 % 8) (eParam x.entry 9 1 % 64) (eParam x.entry 12 6) =
                          Place.outside ∨
                        placeOf j (eParam x.entry 8 1 % 8) (eParam x.entry 9 1 % 64) (eParam x.entry 12 6) =
                            Place.inside ∧
                          (dataInside x = false ∨
                            40960 < eParam x.entry 0 4 ∨
                              eDataLen x.entry = 0 ∨
                                eParam x.entry 0 4 < eParam x.entry 4 4 + eDataLen x.entry ∨
                                  3 ≤
                                    (tileOr (stateAt tS 1) j.number (eParam x.entry 8 1 % 8) (eParam x.entry 9 1 % 64)
                                        (eParam x.entry 12 6)).state))))
                (findJob (stateAt tS 1) (eJob x.entry)) =
              true))
        sample3[1]? =
      true) ∧
    (Option.any
        (fun (x : JEntry) =>
          decide
            (Option.any
                (fun (j : Job) =>
                  decide
                    (startable (stateAt tS 3) 5 24 = some x ∧
                      placeOf j (eParam x.entry 8 1 % 8) (eParam x.entry 9 1 % 64) (eParam x.entry 12 6) =
                        Place.beyondRing))
                (findJob (stateAt tS 3) (eJob x.entry)) =
              true))
        sample3[3]? =
      true) ∧
    (Option.any
        (fun (x : JEntry) =>
          decide
            (Option.any
                (fun (j : Job) =>
                  decide
                    (startable (stateAt tS 0) 5 24 = some x ∧
                      placeOf j (eParam x.entry 8 1 % 8) (eParam x.entry 9 1 % 64) (eParam x.entry 12 6) =
                          Place.inside ∧
                        dataInside x = true ∧
                          eParam x.entry 0 4 ≤ 40960 ∧
                            eDataLen x.entry ≠ 0 ∧
                              eDataLen x.entry ≤ 40960 ∧
                                eParam x.entry 4 4 + eDataLen x.entry ≤ eParam x.entry 0 4 ∧
                                  (tileOr (stateAt tS 0) j.number (eParam x.entry 8 1 % 8) (eParam x.entry 9 1 % 64)
                                          (eParam x.entry 12 6)).state <
                                      3 ∧
                                    (tileOr (stateAt tS 0) j.number (eParam x.entry 8 1 % 8) (eParam x.entry 9 1 % 64)
                                            (eParam x.entry 12 6)).arriving =
                                        none ∧
                                      (farTile (stateAt tS 0) j (eParam x.entry 8 1 % 8) (eParam x.entry 12 6) = false ∨
                                          mayThrottled (stateAt tS 0) = true) ∧
                                        (if j.quota = 0 then 256 * grans (eParam x.entry 0 4) ≤ storeFree (stateAt tS 0)
                                          else j.alloc + 256 * grans (eParam x.entry 0 4) ≤ j.quota) ∧
                                          firstFit (granUse (stateAt tS 0)) (grans (eParam x.entry 0 4))
                                              (storeSize (stateAt tS 0) / 256) =
                                            some 0))
                (findJob (stateAt tS 0) (eJob x.entry)) =
              true))
        sample3[0]? =
      true) ∧
    (Option.any
        (fun (x : JEntry) =>
          decide
            (Option.any
                (fun (j : Job) =>
                  decide
                    (startable (stateAt tS 4) 5 24 = some x ∧
                      placeOf j (eParam x.entry 8 1 % 8) (eParam x.entry 9 1 % 64) (eParam x.entry 12 6) =
                          Place.inside ∧
                        dataInside x = true ∧
                          eParam x.entry 0 4 ≤ 40960 ∧
                            eDataLen x.entry ≠ 0 ∧
                              eDataLen x.entry ≤ 40960 ∧
                                eParam x.entry 4 4 + eDataLen x.entry ≤ eParam x.entry 0 4 ∧
                                  (tileOr (stateAt tS 4) j.number (eParam x.entry 8 1 % 8) (eParam x.entry 9 1 % 64)
                                          (eParam x.entry 12 6)).state <
                                      3 ∧
                                    (tileOr (stateAt tS 4) j.number (eParam x.entry 8 1 % 8) (eParam x.entry 9 1 % 64)
                                            (eParam x.entry 12 6)).arriving =
                                        none ∧
                                      (farTile (stateAt tS 4) j (eParam x.entry 8 1 % 8) (eParam x.entry 12 6) = false ∨
                                          mayThrottled (stateAt tS 4) = true) ∧
                                        if j.quota = 0 then storeFree (stateAt tS 4) < 256 * grans (eParam x.entry 0 4)
                                        else j.quota < j.alloc + 256 * grans (eParam x.entry 0 4)))
                (findJob (stateAt tS 4) (eJob x.entry)) =
              true))
        sample3[0]? =
      true) ∧
    (Option.any
        (fun (x : JEntry) =>
          decide
            (Option.any
                (fun (j : Job) =>
                  decide
                    (startable (stateAt tS 6) 5 25 = some x ∧
                      eParam x.entry 0 4 < 8 ∧
                        placeOf j (eParam x.entry 0 4) (eParam x.entry 4 4) (eParam x.entry 8 6) = Place.inside))
                (findJob (stateAt tS 6) (eJob x.entry)) =
              true))
        sample3[6]? =
      true) := by
  decide +kernel

theorem witness_FragmentStore :
    (Option.any
        (fun (x : JEntry) =>
          decide
            (Option.any
                (fun (x_1 : Tile) =>
                  decide
                    (Option.any
                        (fun (x_2 : List Run) =>
                          decide
                            (getEntry (stateAt sample5 0) 5 = some x ∧
                              x.state = 1 ∧
                                eOpcode x.entry = 24 ∧
                                  memWf (stateAt sample5 0).dram.mem = true ∧
                                    findTile (stateAt sample5 0) (eJob x.entry) (eParam x.entry 8 1 % 8)
                                          (eParam x.entry 9 1 % 64) (eParam x.entry 12 6) =
                                        some x_1 ∧
                                      x_1.arriving = some (0, c9.length, 1, x_2)))
                        sample8[0]? =
                      true))
                sample7[0]? =
              true))
        sample6[0]? =
      true) ∧
    (Option.any
        (fun (x : Tile) =>
          decide
            (findTile (stateAt sample5 7) x.job x.plane x.x x.y = some x ∧
              x.state = 1 ∧ x.arriving.isSome = true ∧ ∀ x ∈ (stateAt sample5 7).host.journal, x.2.state ≠ 1))
        sample7[0]? =
      true) := by
  decide +kernel

theorem witness_Thaw :
    (Option.any
        (fun (x : ℕ × ℕ × ℕ × ℕ × ℕ) =>
          decide
            (Option.any
                (fun (x_1 : Tile) =>
                  decide
                    (3 < 24 ∧
                      (stateAt thS 0).power.stop ≠ 2 ∧
                        thawOwner (stateAt thS 0) 3 = 1 ∧
                          (getEngine (stateAt thS 0) 3).tile = none ∧
                            thawing (stateAt thS 0) <
                                winSize (stateAt thS 0) / 32768 - (slotsUsed (stateAt thS 0)).length ∧
                              nextThaw (stateAt thS 0) 3 = some x ∧
                                findTile (stateAt thS 0) x.2.1 x.2.2.1 x.2.2.2.1 x.2.2.2.2 = some x_1 ∧
                                  x_1.length ≠ 0 ∧
                                    x_1.state = 2 ∧ mayThaw (stateAt thS 0) (x_1.size + x_1.compLen) = true))
                sample10[0]? =
              true))
        sample9[0]? =
      true) ∧
    (Option.any
        (fun (x : Tile) =>
          decide
            (3 < 24 ∧
              (getEngine (stateAt thS 1) 3).tile = some (x.job, x.plane, x.x, x.y) ∧
                findTile (stateAt thS 1) x.job x.plane x.x x.y = some x ∧
                  x.frozen = none ∧
                    x.recovery = 0 ∧
                      (thawResult (stateAt thS 1) x).1 = 0 ∧ (freeSlot (setTile (stateAt thS 1) x)).isSome = true))
        sample10[1]? =
      true) ∧
    (Option.any
        (fun (x : Tile) =>
          decide
            (3 < 24 ∧
              (getEngine (stateAt thS 2) 3).tile = some (x.job, x.plane, x.x, x.y) ∧
                findTile (stateAt thS 2) x.job x.plane x.x x.y = some x ∧
                  x.frozen = none ∧ x.recovery = 0 ∧ (thawResult (stateAt thS 2) x).1 = thContent ∧ x.retried = false))
        sample10[2]? =
      true) ∧
    (Option.any
        (fun (x : Tile) =>
          decide
            (3 < 24 ∧
              (getEngine (stateAt thS 3) 3).tile = some (x.job, x.plane, x.x, x.y) ∧
                findTile (stateAt thS 3) x.job x.plane x.x x.y = some x ∧
                  x.frozen = none ∧ x.recovery = 0 ∧ (thawResult (stateAt thS 3) x).1 = thBomb))
        sample10[3]? =
      true) ∧
    (Option.any
        (fun (x : Tile) =>
          decide
            (3 < 24 ∧
              (getEngine (stateAt thS 4) 3).tile = some (x.job, x.plane, x.x, x.y) ∧
                findTile (stateAt thS 4) x.job x.plane x.x x.y = some x ∧
                  x.frozen = none ∧
                    x.recovery = 0 ∧ (thawResult (stateAt thS 4) x).1 = thStore ∧ pairReady (stateAt thS 4) = false))
        sample10[1]? =
      true) := by
  decide +kernel

theorem witness_TileChecks :
    (Option.any
        (fun (x : WinSlot) =>
          decide
            (Option.any
                (fun (x_1 : Tile) =>
                  decide
                    (openFetch (stateAt sample11 0) 0 0 0 = some x ∧
                      x.x = 0 ∧
                        x.y = 0 ∧
                          findTile (stateAt sample11 0) x.job x.plane 0 0 = some x_1 ∧
                            x_1.job = x.job ∧
                              x_1.plane = x.plane ∧
                                x_1.x = 0 ∧
                                  x_1.y = 0 ∧
                                    x_1.state = 4 ∧
                                      x_1.slot ≠ 0 ∧
                                        x_1.recovery = 0 ∧
                                          crc32c
                                              (readSlot (stateAt sample11 0) (x_1.slot - 1)
                                                (dimsOf (stateAt sample11 0) x_1).1
                                                (dimsOf (stateAt sample11 0) x_1).2) =
                                            x_1.storageCrc))
                sample14[0]? =
              true))
        sample12[0]? =
      true) ∧
    (Option.any
        (fun (x : WinSlot) =>
          decide
            (Option.any
                (fun (x_1 : Tile) =>
                  decide
                    (openFetch (stateAt sample11 1) 0 0 0 = some x ∧
                      x.x = 0 ∧
                        x.y = 0 ∧
                          findTile (stateAt sample11 1) x.job x.plane 0 0 = some x_1 ∧
                            x_1.job = x.job ∧
                              x_1.plane = x.plane ∧
                                x_1.x = 0 ∧
                                  x_1.y = 0 ∧
                                    x_1.state = 4 ∧
                                      x_1.slot ≠ 0 ∧
                                        x_1.recovery = 0 ∧
                                          crc32c
                                              (readSlot (stateAt sample11 1) (x_1.slot - 1)
                                                (dimsOf (stateAt sample11 1) x_1).1
                                                (dimsOf (stateAt sample11 1) x_1).2) ≠
                                            x_1.storageCrc))
                sample14[1]? =
              true))
        sample12[0]? =
      true) ∧
    (Option.any
        (fun (x : Tile) => decide (findTile (stateAt sample11 2) x.job x.plane x.x x.y = some x ∧ x.recovery = 5))
        sample14[2]? =
      true) ∧
    (Option.any
        (fun (x : Tile) => decide (findTile (stateAt sample11 3) x.job x.plane x.x x.y = some x ∧ x.recovery = 4))
        sample14[3]? =
      true) ∧
    (Option.any
        (fun (x : List Byte) => decide (Option.any (fun (x : List ℕ) => decide (0 < 4 ∧ 0 ≠ 4)) sample15[0]? = true))
        sample13[0]? =
      true) ∧
    (Option.any
        (fun (x : Tile) =>
          decide
            ((stateAt sample11 5).pair.role = 5 ∧
              mayThrottled (stateAt sample11 5) = true ∧
                findTile (stateAt sample11 5) x.job x.plane x.x x.y = some x ∧
                  x.recovery = 0 ∧
                    x.state = 4 ∧
                      x.slot ≠ 0 ∧
                        crc32c
                            (readSlot (stateAt sample11 5) (x.slot - 1) (dimsOf (stateAt sample11 5) x).1
                              (dimsOf (stateAt sample11 5) x).2) =
                          x.storageCrc))
        sample14[0]? =
      true) ∧
    (Option.any
        (fun (x : Tile) =>
          decide
            ((stateAt sample11 9).pair.role = 5 ∧
              mayThrottled (stateAt sample11 9) = true ∧
                findTile (stateAt sample11 9) x.job x.plane x.x x.y = some x ∧
                  x.recovery = 0 ∧
                    x.state = 2 ∧
                      x.length ≠ 0 ∧
                        crc32c (memRead (stateAt sample11 9).dram.mem (granAddr (stateAt sample11 9) x.gran) x.length) ≠
                          x.storeCrc))
        sample14[4]? =
      true) := by
  decide +kernel

end Tiles

namespace Memory

def d0 : State := cmt (ons z [0x28,0x29,0x2A,0x2B,0x2C,0x48]) [(ra 0x2C 0x48, 0x3)]
def by1 : List (Option Byte) := [some 1#8, none, some 3#8]
def by64 : List (Option Byte) := List.replicate 64 (some 7#8)
def wq (bs : List (Option Byte)) : State := setDram d0 0 { writes := [{ id := 4, addr := 0, cls := 1, promoted := false, bytes := bs }] }
def rq1 : State := setDram d0 0 { reads := [{ id := 4, addr := 0, cls := 1, promoted := false, held := false }], writes := [] }
def sv (s : State) : State := [0x28,0x29,0x2A,0x2B].foldl (fun s p => put s (ra p 0x40) 0x11) s
def rq2 : State := setDram d0 0 { reads := [{ id := 4, addr := 0, cls := 1, promoted := false, held := false }, { id := 5, addr := 64, cls := 1, promoted := false, held := false }, { id := 6, addr := 0, cls := 1, promoted := false, held := true }], writes := [{ id := 9, addr := 0, cls := 0, promoted := false, bytes := by1 }, { id := 10, addr := 4096, cls := 0, promoted := false, bytes := by1 }] }
def full : State := setDram d0 0 { reads := (List.range 128).map (fun i => { id := i, addr := 64 * 64 * i, cls := 1, promoted := false, held := false }), writes := (List.range 64).map (fun i => { id := 500 + i, addr := 64 * 64 * (i + 3), cls := 1, promoted := false, bytes := by1 }) }
def fbusy : State := put d0 (ra 0x2C 0x44) 0x201
def off : DramOffer := { addr := 0, cls := 2, bytes := none }
def rqo : State := setDram d0 0 { reads := [{ id := 4, addr := 0, cls := 1, promoted := false, held := false }], writes := [], offers := [off] }
def rqd : State := 
  let s := setDram (storeUp d0) 0 { reads := [{ id := 4, addr := 0, cls := 1, promoted := false, held := false }], writes := [] }
  setTile (setJob s { job9 with descBase := 0 }) (newTile 9 0 0 0)
def dS : List State := [d0, wq by1, wq by64, sv (wq by1), sv (wq by64), sv rq1, sv rq2, sv (setDram rq2 0 { getDram rq2 0 with drain := true }), z, full, fbusy, sv rqo, sv rqd]
def sample1 : List (List (Option Byte)) := [by1, by64, []]
def sample2 : List (DramOffer) := [off]
def sample3 : List (Tile) := [newTile 9 0 0 0]
def sample4 : List (DramWr) := dS.flatMap (fun s => (getDram s 0).writes)
def sample5 : List (DramReq) := dS.flatMap (fun s => (getDram s 0).reads)
def sample6 : List (Cand) := dS.filterMap (fun s => choose s 0)
def u1 : State := put (put (put (sv d0) (ra 0x2C 0x74) 0x1) (ra 0x2C 0x70) 5) (ra 0x28 0x48) 1
def u2 : State := (List.range 8).foldl (fun s k => setSub s k { state := 1, refreshes := 63, retrainDue := true }) u1
def u2e : State := (List.range 8).foldl (fun s k => setSub s k { state := 1, refreshes := 63, retrainDue := true, sweep := 191 }) u1
def u3 : State := (List.range 8).foldl (fun s k => setSub s k { state := 1, hot := true }) u1
def u4 : State := put (printBar u1 0) (ra 0x2C 0x40) 7
def u5 : State := put u1 (ra 0x2C 0x40) 7
def u6 : State := put u5 (ra 0x2C 0x44) 0x201
def u8 : State := [0x28,0x29,0x2A,0x2B].foldl (fun s p => put s (ra p 0x40) 0x22) u6
def u7 : State := { setSub (regs u1 [(0x2C05C, 0), (0x2C060, 0x500)]) 0 { state := 1, hot := true } with dram := { (setSub u1 0 { state := 1, hot := true }).dram with c0 := 500000, c1 := 100000, c2 := 0, c3 := 7 } }
def uz : State := regs u2e [(ra 0x28 0x48, 0), (ra 0x29 0x48, 0), (ra 0x2A 0x48, 0), (ra 0x2B 0x48, 0)]
def u3h : State := (List.range 8).foldl (fun s k => setSub s k { state := 1, hot := true, hotMr4 := true }) u1
def sample7 : List (State) := [u1, u2, u3, u4, u5, u6, u7, u2e, u8, uz, u3h]
def sample8 : List (List Nat) := [[15,15,15,15], [15, 1, 15, 15], [15, 15, 15, 0], [0, 15, 15, 15], [7,8,9,10]]

theorem witness_DramQueues :
    (Option.any
        (fun (x : List (Option Byte)) =>
          decide
            (0 % 64 = 0 ∧
              outside (stateAt dS 9) 0 = false ∧
                (getDram (stateAt dS 9) (chanOf 0)).offers = [] ∧
                  (freqBusy (stateAt dS 9) = true ∨
                    queuedWrite (getDram (stateAt dS 9) (chanOf 0)) 0 = none ∧
                      64 ≤ (getDram (stateAt dS 9) (chanOf 0)).writes.length)))
        sample1[0]? =
      true) ∧
    (Option.any
        (fun (x : List (Option Byte)) =>
          decide
            (0 % 64 = 0 ∧
              outside (stateAt dS 0) 0 = false ∧
                (getDram (stateAt dS 0) (chanOf 0)).offers = [] ∧
                  freqBusy (stateAt dS 0) = false ∧
                    queuedWrite (getDram (stateAt dS 0) (chanOf 0)) 0 = none ∧
                      (getDram (stateAt dS 0) (chanOf 0)).writes.length < 64))
        sample1[0]? =
      true) ∧
    (0 % 64 = 0 ∧
      outside (stateAt dS 9) 0 = false ∧
        (getDram (stateAt dS 9) (chanOf 0)).offers = [] ∧
          (freqBusy (stateAt dS 9) = true ∨ 128 ≤ (getDram (stateAt dS 9) (chanOf 0)).reads.length)) ∧
    (0 % 64 = 0 ∧
      outside (stateAt dS 0) 0 = false ∧
        freqBusy (stateAt dS 0) = false ∧
          (getDram (stateAt dS 0) (chanOf 0)).offers = [] ∧
            (getDram (stateAt dS 0) (chanOf 0)).reads.length < 128 ∧
              queuedWrite (getDram (stateAt dS 0) (chanOf 0)) 0 = none) ∧
    (0 % 64 = 0 ∧
      outside (stateAt dS 2) 0 = false ∧
        freqBusy (stateAt dS 2) = false ∧
          (getDram (stateAt dS 2) (chanOf 0)).offers = [] ∧
            (getDram (stateAt dS 2) (chanOf 0)).reads.length < 128 ∧
              Option.any (fun (w : DramWr) => decide ((w.bytes.all fun (b : Option Byte) => b.isSome) = true))
                  (queuedWrite (getDram (stateAt dS 2) (chanOf 0)) 0) =
                true) ∧
    (0 % 64 = 0 ∧
      outside (stateAt dS 1) 0 = false ∧
        freqBusy (stateAt dS 1) = false ∧
          (getDram (stateAt dS 1) (chanOf 0)).offers = [] ∧
            (getDram (stateAt dS 1) (chanOf 0)).reads.length < 128 ∧
              Option.any (fun (w : DramWr) => decide ((w.bytes.all fun (b : Option Byte) => b.isSome) = false))
                  (queuedWrite (getDram (stateAt dS 1) (chanOf 0)) 0) =
                true) := by
  decide +kernel

theorem witness_DramIssue :
    (Option.any
        (fun (x : Cand) =>
          decide
            (0 < 8 ∧
              subState (stateAt dS 3) 0 = 1 ∧
                (getSub (stateAt dS 3) 0).retrainDue = false ∧
                  freqBusy (stateAt dS 3) = false ∧
                    choose (stateAt dS 3) 0 = some x ∧
                      Option.any
                          (fun (x_1 : DramWr) =>
                            decide
                              (x.write = true ∧
                                List.find? (fun (w : DramWr) => w.id == x.id) (getDram (stateAt dS 3) (0 / 2)).writes =
                                    some x_1 ∧
                                  memWf (stateAt dS 3).dram.mem = true ∧ (getDram (stateAt dS 3) (0 / 2)).offers = []))
                          sample4[0]? =
                        true))
        sample6[0]? =
      true) ∧
    (Option.any
        (fun (x : Cand) =>
          decide
            (0 < 8 ∧
              subState (stateAt dS 5) 0 = 1 ∧
                (getSub (stateAt dS 5) 0).retrainDue = false ∧
                  freqBusy (stateAt dS 5) = false ∧
                    choose (stateAt dS 5) 0 = some x ∧
                      Option.any
                          (fun (x_1 : DramReq) =>
                            decide
                              (x.write = false ∧
                                List.find? (fun (r : DramReq) => r.id == x.id) (getDram (stateAt dS 5) (0 / 2)).reads =
                                    some x_1 ∧
                                  (getDram (stateAt dS 5) (0 / 2)).offers = []))
                          sample5[0]? =
                        true))
        sample6[4]? =
      true) ∧
    (Option.any
        (fun (x : Cand) =>
          decide
            (0 < 8 ∧
              subState (stateAt dS 11) 0 = 1 ∧
                (getSub (stateAt dS 11) 0).retrainDue = false ∧
                  freqBusy (stateAt dS 11) = false ∧
                    choose (stateAt dS 11) 0 = some x ∧
                      Option.any
                          (fun (x_1 : DramReq) =>
                            decide
                              (x.write = false ∧
                                List.find? (fun (r : DramReq) => r.id == x.id) (getDram (stateAt dS 11) (0 / 2)).reads =
                                    some x_1 ∧
                                  Option.any
                                      (fun (x : DramOffer) =>
                                        decide
                                          ((getDram (stateAt dS 11) (0 / 2)).offers = [x] ∧
                                            x.bytes = none ∧
                                              queuedWrite (getDram (stateAt dS 11) (0 / 2)) x.addr = none ∧
                                                (getDram (stateAt dS 11) (0 / 2)).reads.length ≤ 128))
                                      sample2[0]? =
                                    true))
                          sample5[0]? =
                        true))
        sample6[4]? =
      true) ∧
    (Option.any
        (fun (x : DramReq) =>
          decide (0 < 4 ∧ x ∈ (getDram (stateAt dS 5) 0).reads ∧ x.id = 4 ∧ x.cls ≠ 0 ∧ x.promoted = false))
        sample5[0]? =
      true) := by
  decide +kernel

theorem witness_QueuedBlocks :
    (Option.any
        (fun (x : List (Option Byte)) =>
          decide
            (Option.any
                (fun (x : DramWr) =>
                  decide
                    (0 % 64 = 0 ∧
                      outside (stateAt dS 1) 0 = false ∧
                        freqBusy (stateAt dS 1) = false ∧
                          (getDram (stateAt dS 1) (chanOf 0)).offers = [] ∧
                            queuedWrite (getDram (stateAt dS 1) (chanOf 0)) 0 = some x))
                sample4[0]? =
              true))
        sample1[0]? =
      true) := by
  decide +kernel

theorem witness_DramRefresh :
    (0 < 8 ∧ subState (stateAt sample7 0) 0 = 1) ∧
    (0 < 8 ∧
      Option.any
          (fun (x : List ℕ) =>
            decide
              (0 < 16 ∧
                x.length = 4 ∧
                  subState (stateAt sample7 1) 0 = 1 ∧
                    (getSub (stateAt sample7 1) 0).retrainDue = true ∧ memWf (stateAt sample7 1).dram.mem = true))
          sample8[0]? =
        true) ∧
    (0 < 8 ∧
      Option.any
          (fun (x : List ℕ) =>
            decide
              (0 < 16 ∧
                x.length = 4 ∧
                  subState (stateAt sample7 1) 0 = 1 ∧
                    (getSub (stateAt sample7 1) 0).retrainDue = true ∧
                      memWf (stateAt sample7 1).dram.mem = true ∧ (getSub (stateAt sample7 1) 0).sweep + 1 ≠ 192))
          sample8[0]? =
        true) ∧
    (0 < 8 ∧
      Option.any
          (fun (x : List ℕ) =>
            decide
              (0 < 16 ∧
                x.length = 4 ∧
                  subState (stateAt sample7 7) 0 = 1 ∧
                    (getSub (stateAt sample7 7) 0).retrainDue = true ∧
                      memWf (stateAt sample7 7).dram.mem = true ∧
                        (getSub (stateAt sample7 7) 0).sweep + 1 = 192 ∧
                          ∀ m ∈ x, rdf (stateAt sample7 7) (ra (pgDrc (0 / 2)) 72) 3 0 ≤ m ∧ m ≠ 0 ∧ m < 16))
          sample8[0]? =
        true) ∧
    (2 < 8 ∧
      Option.any
          (fun (x : List ℕ) =>
            decide
              (0 < 16 ∧
                x.length = 4 ∧
                  subState (stateAt sample7 7) 2 = 1 ∧
                    (getSub (stateAt sample7 7) 2).retrainDue = true ∧
                      memWf (stateAt sample7 7).dram.mem = true ∧
                        (getSub (stateAt sample7 7) 2).sweep + 1 = 192 ∧
                          1 < 4 ∧
                            (∀ i < 4, i ≠ 1 → x[i]? = some 15) ∧
                              Option.any
                                  (fun (m : ℕ) =>
                                    decide (0 < m ∧ m < rdf (stateAt sample7 7) (ra (pgDrc (2 / 2)) 72) 3 0))
                                  x[1]? =
                                true))
          sample8[1]? =
        true) ∧
    (0 < 8 ∧
      Option.any
          (fun (x : List ℕ) =>
            decide
              (0 < 16 ∧
                x.length = 4 ∧
                  subState (stateAt sample7 9) 0 = 1 ∧
                    (getSub (stateAt sample7 9) 0).retrainDue = true ∧
                      memWf (stateAt sample7 9).dram.mem = true ∧
                        (getSub (stateAt sample7 9) 0).sweep + 1 = 192 ∧
                          3 < 4 ∧
                            (∀ i < 4, i ≠ 3 → x[i]? = some 15) ∧
                              x[3]? = some 0 ∧ rdf (stateAt sample7 9) (ra (pgDrc (0 / 2)) 72) 3 0 = 0))
          sample8[2]? =
        true) ∧
    (0 < 8 ∧ (false = true ∨ true = true)) ∧
    (0 < 8) ∧
    (0 < 8 ∧
      (getSub (stateAt sample7 2) 0).hot = true ∧
        (getSub (stateAt sample7 2) 0).hotMr4 = false ∧ (getSub (stateAt sample7 2) 0).hotTs = false) := by
  decide +kernel

theorem witness_DramFrequency :
    (1 < 3 ∧
      pgClkOn (stateAt sample7 4) pgDrg = true ∧
        anyPrinting (stateAt sample7 4) = false ∧
          rdb (stateAt sample7 4) (ra pgDrg 64) 1 = true ∧
            1 ≠ activeSet (stateAt sample7 4) ∧ freqBusy (stateAt sample7 4) = false) ∧
    (0 < 3 ∧ pgClkOn (stateAt sample7 3) pgDrg = true ∧ anyPrinting (stateAt sample7 3) = true) ∧
    (freqBusy (stateAt sample7 8) = true ∧
      allSelf (stateAt sample7 8) = true ∧ (stateAt sample7 8).dram.freqTarget < 3 ∧ (stateAt sample7 8).print.jobs = []) := by
  decide +kernel

end Memory

namespace Positions

def pc (m : Nat) (f : Channel → Channel) : State := setChan (put (ons z [0x40, 0x47, 0x48]) (ra 0x40 0x40) m) 0 (f {})
def cS : List State := [pc 1 id, pc 9 id, pc 2 id, pc 1 (fun c => { c with levels := 0 }), pc 2 (fun c => { c with levels := 1, lastLegal := 4 }), put (pc 1 id) (ra 0x47 0x40) 2]
def fsw : Nat → Bool × Bool × Bool := (fun i => match i % 6 with
      | 0 => (true, false, false)
      | 1 => (true, true, false)
      | 2 => (false, true, false)
      | 3 => (false, true, true)
      | 4 => (false, false, true)
      | _ => (true, false, true))
def sample1 : List (Nat → Bool × Bool × Bool) := [fsw]
def dS : List State := (List.range 4).map (fun l => pc 1 (fun c => { c with levels := l })) ++ (List.range 8).map (fun l => pc 2 (fun c => { c with levels := 0, lastLegal := l }))
def ix (m : Nat) (f : Channel → Channel) : State := regs (pc (m + 0x11) f) [(ra 0x40 0x58, 4000), (ra 0x40 0x5C, 10), (ra 0x40 0x60, 4)]
def iS : List State := [pc 0x11 id, ix 0x80 id, ix 0 id, ix 0 (fun c => { c with pos := 14 * 65536 }), ix 0x40 (fun c => { c with pos := 15 * 65536 }), printBar (ix 0x40 (fun c => { c with pos := -15 * 65536 })) 0]
def se (m : Nat) (f : Channel → Channel) : State := put (pc m f) (ra 0x40 0x68) 0x0003004C
def sS : List State := [se 3 id, se 4 id, se 3 (fun c => { c with serOpen := true }), se 4 (fun c => { c with serOpen := true, serPrev := some 4095, serErrs := 2 }), printBar (se 4 (fun c => { c with serOpen := true, serErrs := 2, posFault := false })) 0, se 3 (fun c => { c with serOpen := true, serPrev := some 5 })]
def sf (d : Nat) (st e w : Bool) (bad : Nat) : SerialFrame := { startOk := st, data := d, crc := (bissCrc (serLen (se 4 id) 0) (d % 4096) e w + bad) % 64, nE := e, nW := w }
def sample2 : List (SerialFrame) := [sf 3 true true true 0, sf 3 true true true 1, sf 3 false true true 0, sf 3 true false true 0, sf 3 true true false 0]
def prS : List State := [pc 1 id, printBar (pc 1 id) 0, regs (pc 1 (fun c => { c with pos := 7, posFault := true, idxErrs := 3 })) [(ra 0x40 0x78, 5), (ra 0x40 0x7C, 0xFFFFFFFF)], pc 1 (fun c => { c with winFirst := some (0, 0), winLast := some (65536, 2560000) })]
def sample3 : List (Int × Nat) := [(0,0), (65536, 2560000)]

theorem witness_CountEdges :
    (0 < 8 ∧
      0 < 4 ∧
        pgEn (stateAt cS 0) (pgPos 0) = true ∧
          incremental (stateAt cS 0) 0 = true ∧
            (getChan (stateAt cS 0) 0).levels = b2n true + 2 * b2n true + 4 * b2n true) ∧
    (0 < 8 ∧
      0 < 4 ∧
        pgEn (stateAt cS 0) (pgPos 0) = true ∧
          incremental (stateAt cS 0) 0 = true ∧
            (getChan (stateAt cS 0) 0).levels ≠ b2n false + 2 * b2n true + 4 * b2n false ∧
              Option.any (fun (d : ℤ) => decide (d ≠ 0)) (decodeEdge (stateAt cS 0) 0 false true false).1 = true) ∧
    (0 < 8 ∧
      0 < 4 ∧
        pgEn (stateAt cS 0) (pgPos 0) = true ∧
          incremental (stateAt cS 0) 0 = true ∧
            (getChan (stateAt cS 0) 0).levels ≠ b2n false + 2 * b2n false + 4 * b2n false ∧
              (decodeEdge (stateAt cS 0) 0 false false false).1 = none) := by
  decide +kernel

theorem witness_EdgeDecoding :
    (posMode (stateAt dS 0) 0 = 1 ∧ (getChan (stateAt dS 0) 0).levels = b2n false + 2 * b2n false) ∧
    (posMode (stateAt dS 4) 0 = 2) ∧
    (∃ x : ℕ → Bool × Bool × Bool,
      (x = fun (i : ℕ) =>
          match i % 6 with
          | 0 => (true, false, false)
          | 1 => (true, true, false)
          | 2 => (false, true, false)
          | 3 => (false, true, true)
          | 4 => (false, false, true)
          | _ => (true, false, true)) ∧
        posMode (stateAt dS 5) 0 = 2 ∧
          (getChan (stateAt dS 5) 0).lastLegal = 4 * b2n (x 4).1 + 2 * b2n (x 4).2.1 + b2n (x 4).2.2) :=
  ⟨by decide +kernel,
   by decide +kernel,
   ⟨_, rfl, by decide +kernel, by decide +kernel⟩⟩

theorem witness_IndexPulses :
    (0 < 8 ∧
      pgEn (stateAt iS 0) (pgPos 0) = true ∧
        posMode (stateAt iS 0) 0 = 1 ∧
          rdb (stateAt iS 0) (posA 0 64) 4 = true ∧
            (rdb (stateAt iS 0) (posA 0 64) 5 = false ∨ (getChan (stateAt iS 0) 0).levels % 4 = 3) ∧
              rd (stateAt iS 0) (posA 0 88) = 0) ∧
    (0 < 8 ∧
      pgEn (stateAt iS 1) (pgPos 0) = true ∧
        posMode (stateAt iS 1) 0 = 1 ∧
          rdb (stateAt iS 1) (posA 0 64) 4 = true ∧
            (rdb (stateAt iS 1) (posA 0 64) 5 = false ∨ (getChan (stateAt iS 1) 0).levels % 4 = 3) ∧
              rd (stateAt iS 1) (posA 0 88) ≠ 0 ∧
                rdb (stateAt iS 1) (posA 0 64) 7 = true ∧ (getChan (stateAt iS 1) 0).indexed = false) ∧
    (0 < 8 ∧
      pgEn (stateAt iS 3) (pgPos 0) = true ∧
        posMode (stateAt iS 3) 0 = 1 ∧
          rdb (stateAt iS 3) (posA 0 64) 4 = true ∧
            (rdb (stateAt iS 3) (posA 0 64) 5 = false ∨ (getChan (stateAt iS 3) 0).levels % 4 = 3) ∧
              rd (stateAt iS 3) (posA 0 88) ≠ 0 ∧
                (rdb (stateAt iS 3) (posA 0 64) 7 = false ∨ (getChan (stateAt iS 3) 0).indexed = true) ∧
                  (indexDeviation (getChan (stateAt iS 3) 0).pos (rd (stateAt iS 3) (posA 0 92))
                        (rd (stateAt iS 3) (posA 0 88))).natAbs ≤
                    rdf (stateAt iS 3) (posA 0 96) 14 0) ∧
    (0 < 8 ∧
      pgEn (stateAt iS 2) (pgPos 0) = true ∧
        posMode (stateAt iS 2) 0 = 1 ∧
          rdb (stateAt iS 2) (posA 0 64) 4 = true ∧
            (rdb (stateAt iS 2) (posA 0 64) 5 = false ∨ (getChan (stateAt iS 2) 0).levels % 4 = 3) ∧
              rd (stateAt iS 2) (posA 0 88) ≠ 0 ∧
                (rdb (stateAt iS 2) (posA 0 64) 7 = false ∨ (getChan (stateAt iS 2) 0).indexed = true) ∧
                  rdf (stateAt iS 2) (posA 0 96) 14 0 <
                    (indexDeviation (getChan (stateAt iS 2) 0).pos (rd (stateAt iS 2) (posA 0 92))
                        (rd (stateAt iS 2) (posA 0 88))).natAbs) := by
  decide +kernel

theorem witness_SerialChannels :
    (0 < 8 ∧ pgEn (stateAt sS 0) (pgPos 0) = true ∧ serial (stateAt sS 0) 0 = true) ∧
    (0 < 8 ∧
      pgEn (stateAt sS 3) (pgPos 0) = true ∧
        serial (stateAt sS 3) 0 = true ∧
          Option.any
              (fun (x : SerialFrame) =>
                decide
                  ((getChan (stateAt sS 3) 0).serOpen = true ∧
                    (x.startOk = true ∧
                        (posMode (stateAt sS 3) 0 = 4 →
                          x.crc % 64 =
                              bissCrc (serLen (stateAt sS 3) 0) (x.data % 2 ^ serLen (stateAt sS 3) 0) x.nE x.nW ∧
                            x.nE = true)) ∧
                      (getChan (stateAt sS 3) 0).serPrev.isSome = true))
              sample2[0]? =
            true) ∧
    (0 < 8 ∧
      pgEn (stateAt sS 2) (pgPos 0) = true ∧
        serial (stateAt sS 2) 0 = true ∧
          Option.any
              (fun (x : SerialFrame) =>
                decide
                  ((getChan (stateAt sS 2) 0).serOpen = true ∧
                    (x.startOk = true ∧
                        (posMode (stateAt sS 2) 0 = 4 →
                          x.crc % 64 =
                              bissCrc (serLen (stateAt sS 2) 0) (x.data % 2 ^ serLen (stateAt sS 2) 0) x.nE x.nW ∧
                            x.nE = true)) ∧
                      (getChan (stateAt sS 2) 0).serPrev = none))
              sample2[0]? =
            true) ∧
    (0 < 8 ∧
      pgEn (stateAt sS 2) (pgPos 0) = true ∧
        serial (stateAt sS 2) 0 = true ∧
          Option.any
              (fun (x : SerialFrame) =>
                decide
                  ((getChan (stateAt sS 2) 0).serOpen = true ∧
                    ¬(x.startOk = true ∧
                        (posMode (stateAt sS 2) 0 = 4 →
                          x.crc % 64 =
                              bissCrc (serLen (stateAt sS 2) 0) (x.data % 2 ^ serLen (stateAt sS 2) 0) x.nE x.nW ∧
                            x.nE = true))))
              sample2[2]? =
            true) ∧
    (0 < 8 ∧
      pgEn (stateAt sS 3) (pgPos 0) = true ∧
        serial (stateAt sS 3) 0 = true ∧ posMode (stateAt sS 3) 0 = 4 ∧ (getChan (stateAt sS 3) 0).serOpen = true) := by
  decide +kernel

theorem witness_PositionRegisters :
    (0 < 8 ∧ gate (stateAt prS 0) (posA 0 128) 1 = none ∧ barsOn (stateAt prS 0) 0 = []) ∧
    (0 < 8 ∧ gate (stateAt prS 1) (posA 0 128) 1 = none ∧ barsOn (stateAt prS 1) 0 ≠ []) ∧
    (0 < 8 ∧ gate (stateAt prS 0) (posA 0 128) 2 = none ∧ barsOn (stateAt prS 0) 0 = []) ∧
    (0 < 8 ∧ gate (stateAt prS 1) (posA 0 128) 2 = none ∧ barsOn (stateAt prS 1) 0 ≠ []) ∧
    (0 < 8 ∧ pgClkOn (stateAt prS 0) (pgPos 0) = true) ∧
    (0 < 8 ∧
      pgEn (stateAt prS 3) (pgPos 0) = true ∧
        incremental (stateAt prS 3) 0 = true ∧
          Option.any
              (fun (x : ℤ × ℕ) =>
                decide
                  (Option.any
                      (fun (x_1 : ℤ × ℕ) =>
                        decide
                          ((getChan (stateAt prS 3) 0).winFirst = some x ∧
                            (getChan (stateAt prS 3) 0).winLast = some x_1))
                      sample3[1]? =
                    true))
              sample3[0]? =
            true) ∧
    (0 < 8 ∧
      pgEn (stateAt prS 0) (pgPos 0) = true ∧
        incremental (stateAt prS 0) 0 = true ∧ (getChan (stateAt prS 0) 0).winLast = none) ∧
    (0 < 8 ∧
      pgEn (stateAt prS 0) (pgPos 0) = true ∧
        incremental (stateAt prS 0) 0 = true ∧ (getChan (stateAt prS 0) 0).still = false) := by
  decide +kernel

end Positions

namespace Lines

def en (s : State) (op : Nat) (job : Nat) (ps : List Byte) : State := setEntry (openSession s 1 1) 0 (journalEntry 1 (cmdEntry op 1 job 0 0 ps) [])
def pp := pressUp z
def stS : List State := [en pp 0x11 9 [], en pp 0x11 8 [], en pp 0x11 9 (leBytes 8 1 ++ leBytes 8 (2^63 - 2^20)), en pp 0x11 9 (leBytes 8 1 ++ leBytes 8 (2^64 - 655360000)), en pp 0x11 9 (leBytes 8 2 ++ leBytes 8 655360000), en { pp with clk := { pp.clk with stepBusy := true } } 0x11 9 [], en (put pp (ra 0x2C 0x44) 0x200) 0x11 9 [], en (put pp (ra 0x68 0x80) 0) 0x11 9 [], en (setJob pp { job9 with startSlot := some 3 }) 0x11 9 []]
def sample1 : List (Job) := [job9, { job9 with startSlot := some 3 }]
def sample2 : List (JEntry) := stS.filterMap (fun s => getEntry s 0)
def pr (f : Bar → Bar) (l : Int) : State := setChan (setBar pp 0 (f { printing := true, job := 9, u := 2, len := 2, wc := 8, starts := [0], streams := [{ head := 0, row := 0, g := 0, next := 0, done := false, lastFire := none }] })) 0 { high := l, pos := l }
def soS : List State := [en pp 0x12 9 (leBytes 6 (2^48-1)), en (pr id 0) 0x12 9 (leBytes 6 (2^48-1)), en (pr id 0) 0x12 9 (leBytes 6 1), en (pr id (2^40)) 0x12 9 (leBytes 6 0), en (setJob (pr id 0) { job9 with length := 0 }) 0x12 9 (leBytes 6 1), (let s := en (pr id 0) 0x12 9 (leBytes 6 1); (getEntry s 0).elim s (fun e => setEntry s 0 { e with late := true }))]
def mkc (s : State) (v : Nat) : State := put s (ra 0x48 0x50) v
def mkS : List State := [mkc pp 0, mkc pp 0x300, mkc (pr (fun b => { b with armed := true, printing := false }) 0) 0x300, mkc (pr (fun b => { b with sheet := true }) 0) 0x100, mkc (pr (fun b => { b with armed := true, starts := [], printing := false, markOfs := 2^40 }) 0) 0x100]
def sample3 : List (State) := soS ++ mkS
def sample4 : List (Job) := [job9, { job9 with length := 0 }]
def sample5 : List (JEntry) := soS.filterMap (fun s => getEntry s 0)
def rl (built : Bool) : RowLine := { stream := 0, k := 0, img := 0, built := built, fast := false, blanks := [0], transient := false, string := [], tiles := [] }
def st0 : Stream := { head := 0, row := 0, g := 0, next := 0, done := false, lastFire := none }
def rS : List State := [pr (fun b => { b with lines := [rl false] }) 0, setChan (pr (fun b => { b with lines := [rl true] }) (2^30)) 0 { high := 2^30, pos := 2^30, speed := 2^30 }]
def sample6 : List (RowLine) := [rl true, rl false]
def sample7 : List (Stream) := [st0]
def ep : Episode := { count := 3, lastImg := 4, quiet := 1024 }
def w0 : State := on z 0x68
def wv (k : Nat) (w : State) : State := regs w [(0xD00000 + 4 * 0, k)]
def wok : State := regs w0 ([(0xD00000, 1), (0xD00004, 1000), (0xD00100, 0), (0xD00104, 10), (0xD00040, 0), (0xD00044, 10)] ++ (List.range 8).map (fun i => (0xD00010 + 4 * i, i * 65536 + 0x2000)))
def eS : List State := [wok, pr (fun b => { b with skip := some ep, stopping := true, printing := false }) 0, pr id 0, w0, wv 1 w0]
def sample8 : List (Episode) := [ep]
def dy : State := cmt (put (ons z [0x69, 0x60]) (ra 0x69 0x54) 2) [(ra 0x69 0x40, 0x0000FF01)]
def sample9 : List (State) := [dy, cmt dy [(ra 0x69 0x40, 0x80000001)]]
def sample10 : List (List (Option Int)) := [[], [some 3, some (-4), none]]

theorem witness_JobStart :
    (Option.any (fun (e : JEntry) => decide (findJob (stateAt stS 1) (eJob e.entry) = none))
        (startable (stateAt stS 1) 0 17) =
      true) ∧
    (Option.any
        (fun (e : JEntry) =>
          decide
            (Option.any
                (fun (j : Job) =>
                  decide
                    (j.startSlot.isSome = true ∨
                      startOk (stateAt stS 7) j (eParam e.entry 0 4) (signed 64 (eParam e.entry 8 8)) = false))
                (findJob (stateAt stS 7) (eJob e.entry)) =
              true))
        (startable (stateAt stS 7) 0 17) =
      true) ∧
    (Option.any
        (fun (e : JEntry) =>
          decide
            (Option.any
                (fun (j : Job) =>
                  decide
                    (j.startSlot = none ∧
                      startOk (stateAt stS 5) j (eParam e.entry 0 4) (signed 64 (eParam e.entry 8 8)) = true ∧
                        ((stateAt stS 5).clk.stepBusy = true ∨
                          freqBusy (stateAt stS 5) = true ∧ eParam e.entry 0 4 = 0)))
                (findJob (stateAt stS 5) (eJob e.entry)) =
              true))
        (startable (stateAt stS 5) 0 17) =
      true) ∧
    (Option.any
        (fun (e : JEntry) =>
          decide
            (Option.any
                (fun (j : Job) =>
                  decide
                    (j.startSlot = none ∧
                      startOk (stateAt stS 4) j (eParam e.entry 0 4) (signed 64 (eParam e.entry 8 8)) = true ∧
                        (stateAt stS 4).clk.stepBusy = false ∧
                          freqBusy (stateAt stS 4) = false ∧ eParam e.entry 0 4 = 2))
                (findJob (stateAt stS 4) (eJob e.entry)) =
              true))
        (startable (stateAt stS 4) 0 17) =
      true) ∧
    (Option.any
        (fun (e : JEntry) =>
          decide
            (Option.any
                (fun (j : Job) =>
                  decide
                    (j.startSlot = none ∧
                      startOk (stateAt stS 3) j (eParam e.entry 0 4) (signed 64 (eParam e.entry 8 8)) = true ∧
                        (stateAt stS 3).clk.stepBusy = false ∧
                          freqBusy (stateAt stS 3) = false ∧
                            eParam e.entry 0 4 ≠ 2 ∧
                              (stateAt stS 3).pair.role = 0 ∧
                                (decide (eParam e.entry 0 4 = 1) &&
                                    startLate (resetLow (stateAt stS 3) (barsOfJob (stateAt stS 3) j)) j
                                      (jobStarts (resetLow (stateAt stS 3) (barsOfJob (stateAt stS 3) j)) j
                                        (some (signed 64 (eParam e.entry 8 8))))
                                      0) =
                                  true))
                (findJob (stateAt stS 3) (eJob e.entry)) =
              true))
        (startable (stateAt stS 3) 0 17) =
      true) ∧
    (Option.any
        (fun (e : JEntry) =>
          decide
            (Option.any
                (fun (j : Job) =>
                  decide
                    (j.startSlot = none ∧
                      startOk (stateAt stS 0) j (eParam e.entry 0 4) (signed 64 (eParam e.entry 8 8)) = true ∧
                        (stateAt stS 0).clk.stepBusy = false ∧
                          freqBusy (stateAt stS 0) = false ∧
                            eParam e.entry 0 4 ≠ 2 ∧
                              (stateAt stS 0).pair.role = 0 ∧
                                (decide (eParam e.entry 0 4 = 1) &&
                                    startLate (resetLow (stateAt stS 0) (barsOfJob (stateAt stS 0) j)) j
                                      (jobStarts (resetLow (stateAt stS 0) (barsOfJob (stateAt stS 0) j)) j
                                        (some (signed 64 (eParam e.entry 8 8))))
                                      0) =
                                  false))
                (findJob (stateAt stS 0) (eJob e.entry)) =
              true))
        (startable (stateAt stS 0) 0 17) =
      true) ∧
    (Option.any (fun (x : Job) => decide True) sample1[0]? = true) := by
  decide +kernel

theorem witness_StopsAndMarks :
    (Option.any
        (fun (x : JEntry) =>
          decide
            (Option.any
                (fun (x_1 : Job) =>
                  decide
                    (startable (stateAt sample3 0) 0 18 = some x ∧
                      findJob (stateAt sample3 0) (eJob x.entry) = some x_1 ∧
                        List.filter (printing (stateAt sample3 0)) (jobBars (stateAt sample3 0) x_1.number) = []))
                sample4[0]? =
              true))
        sample5[0]? =
      true) ∧
    (Option.any
        (fun (x : JEntry) =>
          decide
            (Option.any
                (fun (x_1 : Job) =>
                  decide
                    (startable (stateAt sample3 5) 0 18 = some x ∧
                      findJob (stateAt sample3 5) (eJob x.entry) = some x_1 ∧
                        List.filter (printing (stateAt sample3 5)) (jobBars (stateAt sample3 5) x_1.number) ≠ [] ∧
                          x.late = true))
                sample4[0]? =
              true))
        sample5[5]? =
      true) ∧
    (Option.any
        (fun (x : JEntry) =>
          decide
            (Option.any
                (fun (x_1 : Job) =>
                  decide
                    (startable (stateAt sample3 1) 0 18 = some x ∧
                      findJob (stateAt sample3 1) (eJob x.entry) = some x_1 ∧
                        List.filter (printing (stateAt sample3 1)) (jobBars (stateAt sample3 1) x_1.number) ≠ [] ∧
                          x.late = false))
                sample4[0]? =
              true))
        sample5[0]? =
      true) ∧
    (0 < 8 ∧
      (stateAt sample3 0).pair.role = 0 ∧
        (bitOf (rd (stateAt sample3 0) (ra pgLine (80 + 32 * 0))) 8 = false ∨
          bitOf (rd (stateAt sample3 0) (ra pgLine (80 + 32 * 0))) 9 ≠ false)) ∧
    (0 < 8 ∧
      (stateAt sample3 8).pair.role = 0 ∧
        bitOf (rd (stateAt sample3 8) (ra pgLine (80 + 32 * 0))) 8 = true ∧
          bitOf (rd (stateAt sample3 8) (ra pgLine (80 + 32 * 0))) 9 = true ∧
            (getBar (stateAt sample3 8) 0).armed = true ∧
              ((getBar (stateAt sample3 8) 0).starts ≠ [] ∨
                markMarginOk (stateAt sample3 8) 0 (getBar (stateAt sample3 8) 0)
                    (getBar (stateAt sample3 8) 0).markOfs =
                  true)) ∧
    (0 < 8 ∧
      (stateAt sample3 9).pair.role = 0 ∧
        bitOf (rd (stateAt sample3 9) (ra pgLine (80 + 32 * 0))) 8 = true ∧
          bitOf (rd (stateAt sample3 9) (ra pgLine (80 + 32 * 0))) 9 = false ∧
            (getBar (stateAt sample3 9) 0).armed = false ∧
              (getBar (stateAt sample3 9) 0).printing = true ∧ (getBar (stateAt sample3 9) 0).sheet = true) ∧
    ((getBar (stateAt sample3 1) 0).starts ≠ []) := by
  decide +kernel

theorem witness_RowLines :
    (Option.any
        (fun (x : RowLine) =>
          decide
            (Option.any
                (fun (x_1 : Machine.Stream) =>
                  decide
                    (0 < 8 ∧
                      (∀ e ∈ (stateAt rS 0).print.old, e.1 ≠ 0) ∧
                        nextToBuild (getBar (stateAt rS 0) 0) = some x ∧
                          (getBar (stateAt rS 0) 0).streams[x.stream]? = some x_1 ∧
                            unfetched (stateAt rS 0) 0 (getBar (stateAt rS 0) 0) x = []))
                sample7[0]? =
              true))
        sample6[1]? =
      true) ∧
    (Option.any
        (fun (x : RowLine) =>
          decide
            (Option.any
                (fun (x_1 : Machine.Stream) =>
                  decide
                    (0 < 8 ∧
                      (∀ e ∈ (stateAt rS 1).print.old, e.1 ≠ 0) ∧
                        List.find? (fun (x : RowLine) => x.built && x.stream == 0) (getBar (stateAt rS 1) 0).lines =
                            some x ∧
                          (getBar (stateAt rS 1) 0).streams[0]? = some x_1 ∧
                            sendReached (stateAt rS 1) 0 (getBar (stateAt rS 1) 0) x_1 x = true ∧
                              (stateAt rS 1).pair.role ≠ 4 ∧
                                (getLane (stateAt rS 1)
                                        (headLane (asOf (stateAt rS 1) 0 (↑x.img : ℤ)) 0 x_1.head)).state =
                                    6 ∧
                                  mayBegin (stateAt rS 1) = true))
                sample7[0]? =
              true))
        sample6[0]? =
      true) := by
  decide +kernel

theorem witness_EpisodesAndWaveforms :
    (Option.any (fun (x : Episode) => decide (0 < 8 ∧ (getBar (stateAt eS 1) 0).skip = some x ∧ 1024 ≤ x.quiet))
        sample8[0]? =
      true) ∧
    (0 < 8 ∧
      (getBar (stateAt eS 1) 0).stopping = true ∧
        (getBar (stateAt eS 1) 0).lines = [] ∧ ∀ e ∈ (stateAt eS 1).print.old, e.1 ≠ 0) ∧
    (0 < 48 ∧
      0 < 8 ∧
        0 ∈ headsOnLane (stateAt eS 1) 0 0 ∧
          headSlot (stateAt eS 1) 0 0 = 0 ∧
            ((getLane (stateAt eS 1) 0).state = 6 ∨ (getLane (stateAt eS 1) 0).state = 7) ∧
              (getLane (stateAt eS 1) 0).tempLost.contains 0 = false) ∧
    (0 < 32 ∧ gate (stateAt eS 0) (ra pgWave 132) 0 = none ∧ waveCheck (stateAt eS 0) 0 = 0) ∧
    (31 < 32 ∧ gate (stateAt eS 0) (ra pgWave 132) 31 = none ∧ waveCheck (stateAt eS 0) 31 ≠ 0) := by
  decide +kernel

theorem witness_DrypointResults :
    (Option.any
        (fun (x : List (Option ℤ)) => decide ((stateAt sample9 0).pair.role = 0 ∧ drypOn (stateAt sample9 0) = true))
        sample10[0]? =
      true) := by
  decide +kernel

end Lines

namespace Links

def pp := pressUp z
def setL (s : State) (f : Lane → Lane) : State := setLane s 0 (f (getLane s 0))
def lb (rate : Nat) : State := regs (ons z [0x70, 0x68, 0xA0]) [(ra 0x70 0x40, 16 * rate), (ra 0xA0 0x70, 100)]
def fr (type : Nat) (body : List Byte) : RxFrame := ⟨flnFrame type 0 0 body, true⟩
def cap (kind minor major rates : Nat) : RxFrame := fr 7 (leBytes 1 kind ++ leBytes 1 minor ++ leBytes 1 major ++ leBytes 1 rates ++ leBytes 8 77 ++ leBytes 4 0)
def bad : RxFrame := ⟨flnFrame 15 0 0 [1#8], false⟩
def bS : List State := [lb 3] ++ [0,1,2,3,9].map (fun k => setL (lb 3) (fun l => { l with state := k })) ++
  [setL (lb 3) (fun l => { l with state := 9, refused := true }),
   setL (lb 3) (fun l => { l with state := 4, rate := 2, want := 2, rates := 15, verMajor := 2, verMinor := 3, capSeen := true }),
   setL (lb 3) (fun l => { l with state := 4, rate := 2, want := 2, rates := 15, verMajor := 2, verMinor := 2, capSeen := true }),
   setL (lb 3) (fun l => { l with state := 4, rate := 0, want := 0, rates := 15, verMajor := 2, verMinor := 2, capSeen := true }),
   setL (lb 3) (fun l => { l with state := 4, rate := 0, want := 2, rates := 15, verMajor := 2, verMinor := 2, capSeen := true }),
   setL (lb 3) (fun l => { l with state := 4, rate := 0, want := 1, rates := 15, verMajor := 2, verMinor := 2, capSeen := true }),
   setL (lb 3) (fun l => { l with state := 6, eiAsked := true }),
   setL (lb 0) (fun l => { l with state := 3 })]
def sample1 : List (State) := bS ++ bS.map (fun s => { s with pair := { s.pair with role := 6 } })
def sample2 : List (RxFrame) := [bad, cap 1 3 2 15, cap 1 1 1 1, cap 1 0 3 1, cap 1 2 1 1, fr 2 [9#8, 8#8, 2#8], fr 2 [9#8, 2#8, 0#8]]
def tr (seq : Nat) (t2 t3 : Nat) : RxFrame := fr 3 (leBytes 1 2 ++ leBytes 1 seq ++ leBytes 2 0 ++ leBytes 6 t2 ++ leBytes 6 t3)
def base : State := put (lb 3) (ra 0x70 0x54) 0x10000000
def act (k : Nat) : State := setL base (fun l => { l with state := k, kind := 1, capSeen := true, verMajor := 2, verMinor := 3, syncT1 := some 0, syncSeq := 4 })
def fS : List State := [act 5, act 6, act 7, act 8, act 9, act 0,
  setL (act 5) (fun l => { l with exchanges := 7, delays := List.replicate 7 0 }),
  setL (act 5) (fun l => { l with exchanges := 7, delays := List.replicate 7 0, kind := 2 }),
  setL (act 5) (fun l => { l with wasActive := true }),
  setL (act 6) (fun l => { l with exchanges := 7, delays := List.replicate 8 5 })]
def sample3 : List (State) := fS ++ fS.map (fun s => { s with pair := { s.pair with role := 6 } })
def sample4 : List (RxFrame) := [bad, tr 4 100 100, tr 3 100 200, fr 15 [1#8,2#8,3#8,4#8]]
def stat (acc pf blank : Nat) : RxFrame := fr 4 (leBytes 1 0 ++ leBytes 1 acc ++ leBytes 1 pf ++ leBytes 1 1 ++ leBytes 4 0 ++ leBytes 4 blank ++ leBytes 4 0 ++ leBytes 4 0 ++ leBytes 4 5 ++ leBytes 4 0 ++ leBytes 2 0xFFF0 ++ leBytes 2 0)
def nackF : RxFrame := fr 5 (leBytes 1 1 ++ zeroBytes 3 ++ leBytes 1 9 ++ leBytes 1 0 ++ leBytes 2 4)
def sent : SentLine := { slot := 1, row := 1, rline := 4, fire := 2^40, minGofs := 0, flags := 0, body := [1#8], img := 0, bar := 0, target := 0 }
def rS : List State := [act 5, act 6, act 8, act 3, setL (act 6) (fun l => { l with kind := 2 }), setL (act 6) (fun l => { l with history := [sent] }),
  setL (act 6) (fun l => { l with lost := some { count := 3, lastImg := 4, quiet := 1024 } }),
  setL (act 6) (fun l => { l with lost := some { count := 3, lastImg := 4, quiet := 1024 }, lostBar := 0 }),
  setL (act 6) (fun l => { l with waveSent := [(0, 2)] }), setL (act 6) (fun l => { l with waveSent := [(0, 3)] }),
  setL (act 6) (fun l => { l with degraded := true })]
def sample5 : List (SentLine) := [sent]
def sample6 : List (Episode) := [{ count := 3, lastImg := 4, quiet := 1024 }]
def sample7 : List (RxFrame) := [bad, stat 1 7 0, stat 0 7 0, nackF]
def io (minor : Nat) : State := setL (ons base [0x48]) (fun l => { l with state := 6, kind := 2, capSeen := true, verMajor := 2, verMinor := minor, ioLevel := 0xFF })
def io2 (minor : Nat) : State := regs (io minor) [(ra 0x70 0x98, 7), (ra 0x70 0x9C, 0)]
def plan (k : Nat) : State := setL base (fun l => { l with state := k, kind := 1, capSeen := true })
def oS : List State := [lb 3, io 3, io 1, io2 3, io2 1, plan 6, plan 8, plan 7, setL (plan 6) (fun l => { l with serial := 5 * 2^32 }), put (setL (plan 6) (fun l => { l with verMajor := 2, verMinor := 3 })) (ra 0x70 0x40) 0x100,
   setL (plan 8) (fun l => { l with serial := 5 * 2^32 }), printBar pp 0, setL (io 3) (fun l => { l with ioTimed := [(5, 1, 1), (3, 2, 2)] }), setL (io 1) (fun l => { l with ioTimed := [(5, 1, 1), (3, 2, 2)] })]
def sample8 : List (State) := oS ++ oS.map (fun s => { s with pair := { s.pair with role := 6 } })
def sample9 : List (Nat × Nat × Nat) := [(5, 1, 1), (3, 2, 2)]

theorem witness_LaneBringUp :
    (0 < 48 ∧
      ((getLane (stateAt sample1 0) 0).state ≤ 1 ∨ (getLane (stateAt sample1 0) 0).state = 9) ∧
        (getLane (stateAt sample1 0) 0).refused = false ∧ pgEn (stateAt sample1 0) (pgFln 0) = true) ∧
    (0 < 48 ∧ (getLane (stateAt sample1 3) 0).state = 2) ∧
    (0 < 48 ∧
      (getLane (stateAt sample1 7) 0).state = 4 ∧
        (getLane (stateAt sample1 7) 0).rate = (getLane (stateAt sample1 7) 0).want ∧
          (rdf (stateAt sample1 7) (ra pgFlng 112) 7 0 ≤ 200 ∨ (getLane (stateAt sample1 7) 0).rate = 0)) ∧
    (0 < 48 ∧
      (getLane (stateAt sample1 7) 0).state = 4 ∧
        (getLane (stateAt sample1 7) 0).rate = (getLane (stateAt sample1 7) 0).want ∧
          0 < rdf (stateAt sample1 7) (ra pgFlng 112) 7 0 ∧ (getLane (stateAt sample1 7) 0).rate ≠ 0) ∧
    (0 < 48 ∧
      ((getLane (stateAt sample1 3) 0).state = 2 ∨
        (getLane (stateAt sample1 3) 0).state = 4 ∧
          (getLane (stateAt sample1 3) 0).rate = (getLane (stateAt sample1 3) 0).want ∧
            (getLane (stateAt sample1 3) 0).rate = 0)) ∧
    (0 < 48 ∧
      (getLane (stateAt sample1 7) 0).state = 4 ∧
        (getLane (stateAt sample1 7) 0).rate = (getLane (stateAt sample1 7) 0).want ∧
          (getLane (stateAt sample1 7) 0).rate ≠ 0) ∧
    (0 < 48 ∧
      Option.any
          (fun (x : RxFrame) =>
            decide
              ((getLane (stateAt sample1 4) 0).state = 3 ∧
                (getLane (stateAt sample1 4) 0).lock = true ∧
                  frameOk x 7 = true ∧ versionRefused (bytesAt (fBody x) 2 1) (bytesAt (fBody x) 1 1) = true))
          sample2[2]? =
        true) ∧
    (0 < 48 ∧
      Option.any
          (fun (x : RxFrame) =>
            decide
              ((getLane (stateAt sample1 4) 0).state = 3 ∧
                (getLane (stateAt sample1 4) 0).lock = true ∧
                  frameOk x 7 = true ∧ versionRefused (bytesAt (fBody x) 2 1) (bytesAt (fBody x) 1 1) = false))
          sample2[1]? =
        true) ∧
    (0 < 48 ∧ (getLane (stateAt sample1 4) 0).state = 3) ∧
    (0 < 48 ∧
      (getLane (stateAt sample1 10) 0).state = 4 ∧
        (getLane (stateAt sample1 10) 0).rate ≠ (getLane (stateAt sample1 10) 0).want) ∧
    (0 < 48 ∧
      (getLane (stateAt sample1 10) 0).state = 4 ∧
        (getLane (stateAt sample1 10) 0).rate ≠ (getLane (stateAt sample1 10) 0).want ∧
          mayBegin (stateAt sample1 10) = true) ∧
    (0 < 48 ∧
      Option.any
          (fun (x : RxFrame) =>
            decide
              ((getLane (stateAt sample1 10) 0).lock = true ∧
                frameOk x 2 = true ∧
                  bytesAt (fBody x) 0 1 = 9 ∧
                    (getLane (stateAt sample1 10) 0).state = 4 ∧
                      bitOf (bytesAt (fBody x) 1 1) 3 = true ∧
                        bytesAt (fBody x) 2 1 = (getLane (stateAt sample1 10) 0).want ∧
                          (getLane (stateAt sample1 10) 0).rate ≠ (getLane (stateAt sample1 10) 0).want))
          sample2[5]? =
        true) ∧
    (0 < 48 ∧
      Option.any
          (fun (x : RxFrame) =>
            decide
              ((getLane (stateAt sample1 12) 0).lock = true ∧
                frameOk x 2 = true ∧
                  bytesAt (fBody x) 0 1 = 9 ∧
                    (getLane (stateAt sample1 12) 0).state = 6 ∧
                      bitOf (bytesAt (fBody x) 1 1) 1 = true ∧ (getLane (stateAt sample1 12) 0).eiAsked = true))
          sample2[6]? =
        true) := by
  decide +kernel

theorem witness_LaneFrames :
    (Option.any (fun (x : RxFrame) => decide (0 < 48 ∧ receiving (stateAt sample3 0) 0 = true ∧ frameOk x 15 = false))
        sample4[0]? =
      true) ∧
    (Option.any (fun (x : RxFrame) => decide (0 < 48 ∧ receiving (stateAt sample3 0) 0 = true ∧ frameOk x 15 = true))
        sample4[3]? =
      true) ∧
    (Option.any (fun (x : RxFrame) => decide (0 < 48 ∧ receiving (stateAt sample3 0) 0 = true ∧ frameOk x 3 = false))
        sample4[0]? =
      true) ∧
    (Option.any
        (fun (x : RxFrame) =>
          decide
            (0 < 48 ∧
              receiving (stateAt sample3 0) 0 = true ∧
                frameOk x 3 = true ∧
                  (getLane (stateAt sample3 0) 0).syncT1 = some 0 ∧
                    bytesAt (fBody x) 0 1 = 2 ∧
                      bytesAt (fBody x) 1 1 = (getLane (stateAt sample3 0) 0).syncSeq ∧
                        (fireNow (stateAt sample3 0) + 2 ^ 48 - 0) % 2 ^ 48 ≤ 100000 * 256 ∧
                          ((List.take 8
                                    (delayOf 0 (bytesAt (fBody x) 4 6) (bytesAt (fBody x) 10 6)
                                        (fireNow (stateAt sample3 0)) ::
                                      (getLane (stateAt sample3 0) 0).delays)).length <
                                8 ∨
                              meanDelay (stateAt sample3 0) 0
                                  (List.take 8
                                    (delayOf 0 (bytesAt (fBody x) 4 6) (bytesAt (fBody x) 10 6)
                                        (fireNow (stateAt sample3 0)) ::
                                      (getLane (stateAt sample3 0) 0).delays)) ≤
                                100000 * 256) ∧
                            ((getLane (stateAt sample3 0) 0).state ≠ 5 ∨
                              (getLane (stateAt sample3 0) 0).wasActive = false ∧
                                (getLane (stateAt sample3 0) 0).exchanges + 1 < 8)))
        sample4[1]? =
      true) ∧
    (Option.any
        (fun (x : RxFrame) =>
          decide
            (0 < 48 ∧
              receiving (stateAt sample3 6) 0 = true ∧
                frameOk x 3 = true ∧
                  (getLane (stateAt sample3 6) 0).syncT1 = some 0 ∧
                    bytesAt (fBody x) 0 1 = 2 ∧
                      bytesAt (fBody x) 1 1 = (getLane (stateAt sample3 6) 0).syncSeq ∧
                        (fireNow (stateAt sample3 6) + 2 ^ 48 - 0) % 2 ^ 48 ≤ 100000 * 256 ∧
                          ((List.take 8
                                    (delayOf 0 (bytesAt (fBody x) 4 6) (bytesAt (fBody x) 10 6)
                                        (fireNow (stateAt sample3 6)) ::
                                      (getLane (stateAt sample3 6) 0).delays)).length <
                                8 ∨
                              meanDelay (stateAt sample3 6) 0
                                  (List.take 8
                                    (delayOf 0 (bytesAt (fBody x) 4 6) (bytesAt (fBody x) 10 6)
                                        (fireNow (stateAt sample3 6)) ::
                                      (getLane (stateAt sample3 6) 0).delays)) ≤
                                100000 * 256) ∧
                            (getLane (stateAt sample3 6) 0).state = 5 ∧
                              (getLane (stateAt sample3 6) 0).wasActive = false ∧
                                7 ≤ (getLane (stateAt sample3 6) 0).exchanges ∧
                                  (getLane (stateAt sample3 6) 0).keepSerial = none ∧
                                    planMatches (stateAt sample3 6) 0 = true))
        sample4[1]? =
      true) ∧
    (Option.any
        (fun (x : RxFrame) =>
          decide
            (0 < 48 ∧
              receiving (stateAt sample3 7) 0 = true ∧
                frameOk x 3 = true ∧
                  (getLane (stateAt sample3 7) 0).syncT1 = some 0 ∧
                    bytesAt (fBody x) 0 1 = 2 ∧
                      bytesAt (fBody x) 1 1 = (getLane (stateAt sample3 7) 0).syncSeq ∧
                        (fireNow (stateAt sample3 7) + 2 ^ 48 - 0) % 2 ^ 48 ≤ 100000 * 256 ∧
                          ((List.take 8
                                    (delayOf 0 (bytesAt (fBody x) 4 6) (bytesAt (fBody x) 10 6)
                                        (fireNow (stateAt sample3 7)) ::
                                      (getLane (stateAt sample3 7) 0).delays)).length <
                                8 ∨
                              meanDelay (stateAt sample3 7) 0
                                  (List.take 8
                                    (delayOf 0 (bytesAt (fBody x) 4 6) (bytesAt (fBody x) 10 6)
                                        (fireNow (stateAt sample3 7)) ::
                                      (getLane (stateAt sample3 7) 0).delays)) ≤
                                100000 * 256) ∧
                            (getLane (stateAt sample3 7) 0).state = 5 ∧
                              (getLane (stateAt sample3 7) 0).wasActive = false ∧
                                7 ≤ (getLane (stateAt sample3 7) 0).exchanges ∧
                                  (getLane (stateAt sample3 7) 0).keepSerial = none ∧
                                    planMatches (stateAt sample3 7) 0 = false))
        sample4[1]? =
      true) ∧
    (Option.any
        (fun (x : RxFrame) =>
          decide
            (0 < 48 ∧
              receiving (stateAt sample3 8) 0 = true ∧
                frameOk x 3 = true ∧
                  (getLane (stateAt sample3 8) 0).syncT1 = some 0 ∧
                    bytesAt (fBody x) 0 1 = 2 ∧
                      bytesAt (fBody x) 1 1 = (getLane (stateAt sample3 8) 0).syncSeq ∧
                        (fireNow (stateAt sample3 8) + 2 ^ 48 - 0) % 2 ^ 48 ≤ 100000 * 256 ∧
                          ((List.take 8
                                    (delayOf 0 (bytesAt (fBody x) 4 6) (bytesAt (fBody x) 10 6)
                                        (fireNow (stateAt sample3 8)) ::
                                      (getLane (stateAt sample3 8) 0).delays)).length <
                                8 ∨
                              meanDelay (stateAt sample3 8) 0
                                  (List.take 8
                                    (delayOf 0 (bytesAt (fBody x) 4 6) (bytesAt (fBody x) 10 6)
                                        (fireNow (stateAt sample3 8)) ::
                                      (getLane (stateAt sample3 8) 0).delays)) ≤
                                100000 * 256) ∧
                            (getLane (stateAt sample3 8) 0).state = 5 ∧
                              (getLane (stateAt sample3 8) 0).wasActive = true ∧
                                planMatches (stateAt sample3 8) 0 = true))
        sample4[1]? =
      true) ∧
    (0 < 48 ∧
      3 ≤ (getLane (stateAt sample3 0) 0).state ∧
        (getLane (stateAt sample3 0) 0).state ≠ 7 ∧ (getLane (stateAt sample3 0) 0).state < 9) ∧
    (0 < 48 ∧
      ((getLane (stateAt sample3 0) 0).state = 5 ∨
        (getLane (stateAt sample3 0) 0).state = 6 ∨ (getLane (stateAt sample3 0) 0).state = 8)) ∧
    (0 < 48) ∧
    (0 < 48 ∧ (getLane (stateAt sample3 0) 0).state ≠ 7) ∧
    (0 < 48 ∧ (getLane (stateAt sample3 2) 0).state = 7) := by
  decide +kernel

theorem witness_LaneReports :
    (0 < 48 ∧
      ((getLane (stateAt rS 0) 0).state = 5 ∨
        (getLane (stateAt rS 0) 0).state = 6 ∨ (getLane (stateAt rS 0) 0).state = 8)) ∧
    (0 < 48 ∧
      Option.any
          (fun (x : RxFrame) =>
            decide
              (receiving (stateAt rS 4) 0 = true ∧
                frameOk x 4 = true ∧
                  bitOf (bytesAt (fBody x) 1 1) 0 = true ∧
                    bytesAt (fBody x) 8 4 = (getLane (stateAt rS 4) 0).blankCnt ∧
                      (getLane (stateAt rS 4) 0).blankCnt < 2 ^ 32 ∧
                        (getLane (stateAt rS 4) 0).eiReturn = false ∧ (getLane (stateAt rS 4) 0).kind ≠ 1))
          sample7[1]? =
        true) ∧
    (0 < 48 ∧
      Option.any
          (fun (x : RxFrame) =>
            decide
              (receiving (stateAt rS 0) 0 = true ∧
                frameOk x 4 = true ∧
                  bitOf (bytesAt (fBody x) 1 1) 0 = true ∧
                    bytesAt (fBody x) 8 4 = (getLane (stateAt rS 0) 0).blankCnt ∧
                      (getLane (stateAt rS 0) 0).blankCnt < 2 ^ 32 ∧
                        (getLane (stateAt rS 0) 0).eiReturn = false ∧
                          (getLane (stateAt rS 0) 0).kind = 1 ∧
                            bytesAt (fBody x) 3 1 = 1 ∧ bytesAt (fBody x) 28 2 ≠ 32768))
          sample7[1]? =
        true) ∧
    (0 < 48 ∧
      Option.any
          (fun (x : RxFrame) =>
            decide (receiving (stateAt rS 0) 0 = true ∧ frameOk x 5 = true ∧ bytesAt (fBody x) 0 1 = 1))
          sample7[3]? =
        true) ∧
    (0 < 48 ∧
      Option.any
          (fun (x : Episode) =>
            decide
              ((getLane (stateAt rS 6) 0).lost = some x ∧
                1024 ≤ x.quiet ∧ ((getLane (stateAt rS 6) 0).lostBar = 0 ∨ (getLane (stateAt rS 6) 0).lostBar = noBar)))
          sample6[0]? =
        true) ∧
    (0 < 48 ∧
      0 < rdf (stateAt rS 1) (ra pgFlng 112) 7 0 ∧
        (getLane (stateAt rS 1) 0).degraded = false ∧ (getLane (stateAt rS 1) 0).state = 6) ∧
    (0 < 48 ∧ rdf (stateAt rS 0) (ra pgFlng 112) 7 0 ≤ 110) ∧
    (0 < 48 ∧
      (getLane (stateAt rS 8) 0).waveSent = [(0, 2)] ∧
        bitOf (getLane (stateAt rS 8) 0).waveHeld 0 = false ∧
          (getLane (stateAt rS 8) 0).state = 6 ∧ 2 < 3 ∧ mayBegin (stateAt rS 8) = true) ∧
    (0 < 48 ∧
      (getLane (stateAt rS 9) 0).waveSent = [(0, 3)] ∧
        bitOf (getLane (stateAt rS 9) 0).waveHeld 0 = false ∧ (getLane (stateAt rS 9) 0).state = 6 ∧ 3 ≤ 3) := by
  decide +kernel

theorem witness_LaneOutputs :
    (0 < 48 ∧
      gate (stateAt sample8 11) (ra (pgFln 0) (if false = true then 92 else 84)) (5#32).toNat = none ∧
        lanePrinting (stateAt sample8 11) 0 = true) ∧
    (0 < 48 ∧
      gate (stateAt sample8 0) (ra (pgFln 0) (if false = true then 92 else 84)) (5#32).toNat = none ∧
        lanePrinting (stateAt sample8 0) 0 = false) ∧
    (0 < 48 ∧
      rdb (stateAt sample8 9) (ra (pgFln 0) 64) 8 = true ∧
        (getLane (stateAt sample8 9) 0).state = 6 ∧
          (getLane (stateAt sample8 9) 0).kind = 1 ∧
            (3 ≤ (getLane (stateAt sample8 9) 0).verMajor ∨
                (getLane (stateAt sample8 9) 0).verMajor = 2 ∧ 1 ≤ (getLane (stateAt sample8 9) 0).verMinor) ∧
              lanePrinting (stateAt sample8 9) 0 = false ∧ mayBegin (stateAt sample8 9) = true) ∧
    (0 < 48 ∧ (getLane (stateAt sample8 7) 0).state = 7) ∧
    (0 < 48 ∧ gate (stateAt sample8 0) (ra (pgFln 0) 148) (5#32).toNat = none ∧ ioActive (stateAt sample8 0) 0 = false) ∧
    (0 < 48 ∧
      gate (stateAt sample8 1) (ra (pgFln 0) 148) (5#32).toNat = none ∧
        ioActive (stateAt sample8 1) 0 = true ∧
          (getLane (stateAt sample8 1) 0).state = 6 ∧
            mayBegin (stateAt sample8 1) = true ∧ rd64 (stateAt sample8 1) (ra (pgFln 0) 152) = 0) ∧
    (0 < 48 ∧
      gate (stateAt sample8 3) (ra (pgFln 0) 148) (5#32).toNat = none ∧
        ioActive (stateAt sample8 3) 0 = true ∧
          (getLane (stateAt sample8 3) 0).state = 6 ∧
            mayBegin (stateAt sample8 3) = true ∧ rd64 (stateAt sample8 3) (ra (pgFln 0) 152) ≠ 0) ∧
    (0 < 48 ∧
      ((getLane (stateAt sample8 12) 0).ioTimed.any fun (x : ℕ × ℕ × ℕ) =>
          decide (firstTimed (fireNow (stateAt sample8 12)) (getLane (stateAt sample8 12) 0).ioTimed = some x)) =
        true) ∧
    (0 < 48 ∧ gate (stateAt sample8 0) (ra (pgFln 0) (if false = true then 164 else 160)) (5#32).toNat = none) ∧
    (0 < 48) := by
  decide +kernel

end Links

namespace Cameras

def pp := pressUp z
def cS0 : State := regs (ons z [0xB0, 0xB4, 0xB8, 0x48]) [(0xB4100, 0x80000000), (0xB4104, 0x00100010)]
def fm (i : Nat) : Frame := { slot := i, number := 4, lines := 15, short := false, long := false, err := false, strobe := none }
def cx (s : State) (c : Ctx) : State := setCtx s 0 c
def cS : List State := [z, cS0, cx cS0 { slot0 := 1 }, cx cS0 { slot0 := 1, slot1 := 2 }, cx cS0 { strobes := [3, 4] }, cx cS0 { current := some (fm 0), slot0 := 1 }, cx cS0 { current := some { fm 0 with lines := 16 }, slot0 := 1 }, cx cS0 { current := some { fm 1 with err := true }, slot0 := 1 },
 { cx cS0 { current := some (fm 0), slot0 := 1 } with cams := { (cx cS0 { current := some (fm 0), slot0 := 1 }).cams with skipping := [(0, 0)] } }]
def sample1 : List (Frame) := cS.filterMap (fun s => (getCtx s 0).current)
def sample2 : List (List Byte) := [List.replicate 20 7#8]
def kk (s : State) : State := { s with cams := { s.cams with ispTable := (List.range 25).map (fun n => (0x40 + n, 1#32)) } }
def pS : List State := [kk (regs cS0 [(0xB4100, 0)]), z, cS0, regs cS0 [(0xB4100, 0)], regs cS0 [(0xB4100, 0x40000000)], regs cS0 [(0xB4100, 0x0), (0xB4104, 1)],
  cx cS0 { ready := [fm 0, fm 1], slot0 := 2, slot1 := 2 }, setCtx (regs (cx cS0 { ready := [fm 0], slot0 := 2}) [(0xB4140, 0x80100000)]) 1 { ready := [fm 1], slot1 := 2 },
  { cx cS0 { slot0 := 3, taps := 7 } with cams := { (cx cS0 { slot0 := 3, taps := 7 }).cams with busy := some (0, fm 0) } },
  cx cS0 { current := some (fm 1), slot1 := 1, strobes := [3], ready := [fm 0], slot0 := 2 }, regs cS0 [(0xB4100, 0x80000000), (0x09540, 1)]]
def sample3 : List (Frame) := [fm 0, fm 1]
def sample4 : List (List Frame) := [[], [fm 1]]
def lp0 : State :=
  let s := regs (ons (printAt pp 0 5) [0xB8, 0xB4]) [(0xB8040, 0x100), (0xB8044, 1024), (0xB8048, 64), (0xB804C, 0x20000), (0xB8050, 0xFFFFFF00 + 255), (0xB8054, 0x40100000), (0xB8058, 0x07FF0000), (0xB805C, 0), (0xB8060, 0)]
  let s := put s 0xB8050 0xFF01FFFF
  { s with cams := { s.cams with windows := [0, 1024] } }
def lp1 (sum : Nat) : State := { lp0 with cams := { lp0.cams with patches := [(patchKey 0 0 0 0, { pixels := 100, d := [200, 200, 200, 200] })], expected := [(patchKey 0 0 0 0, { sumA := sum, minV := 50, maxV := 60, dirty := false })] } }
def hold (s : State) : State := put s 0xB8040 0x180
def off (s : State) : State := put s 0xB8010 0
def lad (s : State) (w : Nat) : State := regs s [(0xB8080, w)]
def col : LadderCol := { bar := 0, col := 3, amp := 0, scale := 1, wide := true }
def ldS (cs : List LadderCol) : State :=
  let s := regs (lad lp0 0x800100F0) [(0xB8084, 0x00010101), (0xB8090, 0x00400020)]
  { s with cams := { s.cams with ladderLine := some 100, ladderRead := cs } }
def cols8 : List LadderCol := (List.range 24).map (fun c => { bar := 0, col := c, amp := if c = 8 then 0 else 1000, scale := 1, wide := false })
def lS : List State := [lp0, lp1 4096, { lp0 with cams := { lp0.cams with noData := [0] } }, regs (lad lp0 0) [(0xB8084, 0), (0xB8090, 0x00400020)], lp1 40960, lp1 3072000, hold (lp1 3072000), off (lp1 3072000), off lp0, off (put lp0 0xB8048 63), lad lp0 0, regs (lad lp0 0) [(0xB8084, 0x00010101), (0xB8090, 0x00400020)], ldS [col], ldS cols8, put (ldS cols8) 0xB8080 0x80010100, z]
def sample5 : List (List Nat) := [[1024]]
def sample6 : List (BandResult) := lS.flatMap (fun s => (List.range 2).filterMap (bandResult s 0 0))

theorem witness_CameraFrames :
    (Option.any (fun (x : List Byte) => decide (0 < 4 ∧ pgEn (stateAt cS 0) (pgCam 0) = false)) sample2[0]? = true) ∧
    (0 < 4 ∧
      0 < 4 ∧
        pgEn (stateAt cS 1) (pgCam 0) = true ∧
          ctxFor (stateAt cS 1) 0 0 = some 0 ∧
            (getCtx (stateAt cS 1) 0).current = none ∧
              (0 = 0 ∧ (getCtx (stateAt cS 1) 0).slot0 = 0 ∨
                0 = 1 ∧ (getCtx (stateAt cS 1) 0).slot0 ≠ 0 ∧ (getCtx (stateAt cS 1) 0).slot1 = 0)) ∧
    (0 < 4 ∧
      0 < 4 ∧
        pgEn (stateAt cS 3) (pgCam 0) = true ∧
          Option.any
              (fun (x : ℕ) =>
                decide
                  ((getCtx (stateAt cS 3) x).current = none ∧
                    (getCtx (stateAt cS 3) x).slot0 ≠ 0 ∧ (getCtx (stateAt cS 3) x).slot1 ≠ 0))
              (ctxFor (stateAt cS 3) 0 0) =
            true) ∧
    (0 < 4 ∧ 1 < 4 ∧ pgEn (stateAt cS 1) (pgCam 0) = true ∧ ctxFor (stateAt cS 1) 0 1 = none) ∧
    (Option.any
        (fun (x : List Byte) =>
          decide
            (Option.any
                (fun (x : Frame) =>
                  decide
                    (0 < 4 ∧
                      0 < 4 ∧
                        pgEn (stateAt cS 5) (pgCam 0) = true ∧
                          ctxFor (stateAt cS 5) 0 0 = some 0 ∧ (getCtx (stateAt cS 5) 0).current = some x))
                sample1[0]? =
              true))
        sample2[0]? =
      true) ∧
    (Option.any
        (fun (x : List Byte) =>
          decide
            (Option.any
                (fun (x : Frame) =>
                  decide
                    (0 < 4 ∧
                      0 < 4 ∧
                        pgEn (stateAt cS 5) (pgCam 0) = true ∧
                          ctxFor (stateAt cS 5) 0 0 = some 0 ∧
                            (getCtx (stateAt cS 5) 0).current = some x ∧
                              43 ≤ 43 ∧
                                43 ≤ 45 ∧
                                  (stateAt cS 5).cams.skipping.contains (0, 0) = false ∧
                                    8 * 20 = ctxWidth (stateAt cS 5) 0 * rawBits (stateAt cS 5) 0 ∧
                                      x.lines < ctxHeight (stateAt cS 5) 0))
                sample1[0]? =
              true))
        sample2[0]? =
      true) ∧
    (Option.any
        (fun (x : List Byte) =>
          decide
            (Option.any
                (fun (x : Frame) =>
                  decide
                    (0 < 4 ∧
                      0 < 4 ∧
                        pgEn (stateAt cS 5) (pgCam 0) = true ∧
                          ctxFor (stateAt cS 5) 0 0 = some 0 ∧
                            (getCtx (stateAt cS 5) 0).current = some x ∧ 43 ≤ 43 ∧ 43 ≤ 45))
                sample1[0]? =
              true))
        sample2[0]? =
      true) ∧
    (0 < 8 ∧ ctxOn (stateAt cS 4) 0 = true ∧ (getCtx (stateAt cS 4) 0).strobes ≠ []) := by
  decide +kernel

theorem witness_Pipeline :
    ((nextCtx (stateAt pS 6)).isSome = true) ∧
    (Option.any
        (fun (x : ℕ) => decide (0 < 8 ∧ (getCtx (stateAt pS 6) 0).ready ≠ [] ∧ mayBeginFrame (stateAt pS 6) 0 = true))
        (nextCtx (stateAt pS 6)) =
      true) ∧
    (Option.any
        (fun (x : Frame) =>
          decide
            (Option.any
                (fun (x_1 : List Frame) =>
                  decide
                    ((stateAt pS 6).cams.busy = none ∧
                      nextCtx (stateAt pS 6) = some 0 ∧
                        (getCtx (stateAt pS 6) 0).ready = x :: x_1 ∧ pgEn (stateAt pS 6) pgIsp = true))
                sample4[1]? =
              true))
        sample3[0]? =
      true) ∧
    (Option.any (fun (x : Frame) => decide (0 < 8 ∧ (stateAt pS 8).cams.busy = some (0, x))) sample3[0]? = true) ∧
    (0 < 8 ∧ gate (stateAt pS 0) (ctxA 0 52) (2147483648#32).toNat = none) ∧
    (0 < 8 ∧
      gate (stateAt pS 0) (ctxA 0 0) (0#32).toNat = none ∧
        ctxOn (stateAt pS 0) 0 = false ∧ bitOf ((0#32).toNat &&& 3748869087) 31 = false) ∧
    (1 < 8 ∧
      gate (stateAt pS 0) (ctxA 1 0) (2147483648#32).toNat = none ∧
        ctxOn (stateAt pS 0) 1 = false ∧
          bitOf ((2147483648#32).toNat &&& 3748869087) 31 = true ∧
            ctxCheck (wr (stateAt pS 0) (ctxA 1 0) (((2147483648#32).toNat &&& 3748869087) % 2 ^ 31)) 1 ≠ 0) ∧
    (0 < 8 ∧
      gate (stateAt pS 2) (ctxA 0 0) (0#32).toNat = none ∧
        ctxOn (stateAt pS 2) 0 = true ∧
          bitOf ((0#32).toNat &&& 3748869087) 31 = false ∧
            ((0#32).toNat &&& 3748869087) % 2 ^ 31 = ctxSrc (stateAt pS 2) 0 % 2 ^ 31) ∧
    (0 < 8 ∧
      gate (stateAt pS 2) (ctxA 0 0) (3221225472#32).toNat = none ∧
        ctxOn (stateAt pS 2) 0 = true ∧
          bitOf ((3221225472#32).toNat &&& 3748869087) 31 = true ∧
            ((3221225472#32).toNat &&& 3748869087) % 2 ^ 31 ≠ ctxSrc (stateAt pS 2) 0 % 2 ^ 31) :=
  ⟨by decide +kernel,
   by decide +kernel,
   by decide +kernel,
   by decide +kernel,
   by decide +kernel,
   by decide +kernel,
   by decide +kernel,
   by decide +kernel,
   by decide +kernel⟩

theorem witness_Loop :
    (Option.any
        (fun (x : List ℕ) =>
          decide
            ((stateAt lS 0).cams.windows = 0 :: x ∧
              (windowResults (stateAt lS 0)
                    (if loopPeriod (stateAt lS 0) = 0 then 0 else 0 / loopPeriod (stateAt lS 0)) =
                  [] ∨
                pgEn (stateAt lS 0) pgLoop = false)))
        sample5[0]? =
      true) ∧
    (Option.any
        (fun (x : List ℕ) =>
          decide
            ((stateAt lS 1).cams.windows = 0 :: x ∧
              windowResults (stateAt lS 1)
                    (if loopPeriod (stateAt lS 1) = 0 then 0 else 0 / loopPeriod (stateAt lS 1)) ≠
                  [] ∧
                pgEn (stateAt lS 1) pgLoop = true ∧ (stateAt lS 1).pair.role = 0))
        sample5[0]? =
      true) ∧
    (Option.any
        (fun (x : List ℕ) =>
          decide
            ((stateAt lS 6).cams.windows = 0 :: x ∧
              windowResults (stateAt lS 6)
                    (if loopPeriod (stateAt lS 6) = 0 then 0 else 0 / loopPeriod (stateAt lS 6)) ≠
                  [] ∧
                pgEn (stateAt lS 6) pgLoop = true ∧ (stateAt lS 6).pair.role = 0 ∧ loopHold (stateAt lS 6) = true))
        sample5[0]? =
      true) ∧
    (Option.any (fun (x : BandResult) => decide ((bandDelta (stateAt lS 0) 0 x).isSome = true)) sample6[0]? = true) ∧
    (Option.any
        (fun (x : BandResult) =>
          decide (Option.any (fun (d : ℤ) => decide (x.dm ≤ x.de)) (bandDelta (stateAt lS 0) 0 x) = true))
        sample6[1]? =
      true) ∧
    (Option.any
        (fun (x : BandResult) =>
          decide (Option.any (fun (d : ℤ) => decide (x.de ≤ x.dm)) (bandDelta (stateAt lS 0) 0 x) = true))
        sample6[0]? =
      true) ∧
    (Option.any
        (fun (x : BandResult) =>
          decide
            (Option.any (fun (d : ℤ) => decide (tMin (stateAt lS 0) ≤ tMax (stateAt lS 0)))
                (bandDelta (stateAt lS 0) 0 x) =
              true))
        sample6[0]? =
      true) ∧
    (0 < 8 ∧ pgEn (stateAt lS 2) pgLoop = true ∧ 0 ∈ loopPrimaries (stateAt lS 2) ∧ 0 ∈ (stateAt lS 2).cams.noData) ∧
    (0 < 8 ∧
      pgEn (stateAt lS 0) pgLoop = true ∧
        0 ∈ loopPrimaries (stateAt lS 0) ∧
          0 ∉ (stateAt lS 0).cams.noData ∧
            (getBar (stateAt lS 0) 0).loopData + 1024 * rdf (stateAt lS 0) (loopA 96) 15 0 ≤ linesBuilt (stateAt lS 0) 0) ∧
    (pgEn (stateAt lS 9) pgLoop = false ∧ (1#32).getLsbD 0 = true ∧ loopCheck (stateAt lS 9) ≠ 0) ∧
    (pgEn (stateAt lS 7) pgLoop = false ∧ (1#32).getLsbD 0 = true ∧ loopCheck (stateAt lS 7) = 0) ∧
    ((0#32).getLsbD 0 = false) ∧
    (gate (stateAt lS 3) (loopA 128) (2147553536#32).toNat = none ∧
      bitOf (ladderCfg (stateAt lS 3)) 31 = false ∧
        (bitOf ((2147553536#32).toNat &&& 3489660912) 31 = false ∨
          ladderCheck (wr (stateAt lS 3) (loopA 128) (((2147553536#32).toNat &&& 3489660912) % 2 ^ 31)) = 0)) ∧
    (gate (stateAt lS 0) (loopA 128) (2147553536#32).toNat = none ∧
      bitOf (ladderCfg (stateAt lS 0)) 31 = false ∧
        bitOf ((2147553536#32).toNat &&& 3489660912) 31 = true ∧
          ladderCheck (wr (stateAt lS 0) (loopA 128) (((2147553536#32).toNat &&& 3489660912) % 2 ^ 31)) ≠ 0) ∧
    ((stateAt lS 12).cams.ladderLine.isSome = true ∧ (stateAt lS 12).cams.ladderRead ≠ [] ∧ (stateAt lS 12).pair.role = 0) := by
  decide +kernel

/-- Context 0 with its capture ring at a MiB. -/
def ringAt (m : Nat) : State := regs (stateAt pS 0) [(ctxA 0 8, m)]

/-- A context clashes with nothing where it clashes with no area of a known place and not with the journal. -/
theorem areaClash_of (s : State) (x : Nat)
    (h : (ctxAreas s x).any (fun a => ((fixedAreas s).take 3 ++ ((List.range 8).filter (fun y => y != x)).flatMap (ctxAreas s)).any
      (overlap a) || (a.2 != 0 && decide (drgSize s * 2 ^ 20 < a.1 + a.2))) = false)
    (hj : (ctxAreas s x).any (fun a => overlap a journalArea) = false) : areaClash s x = false := by
  have e : fixedAreas s = (fixedAreas s).take 3 ++ [journalArea] := rfl
  simp only [List.any_eq_false, List.any_append, Bool.or_eq_true, not_or] at h hj
  simp only [areaClash]
  rw [e]
  simp only [List.any_eq_false, List.any_append, List.any_cons, List.any_nil, Bool.or_eq_true, Bool.or_false, not_or]
  exact fun a ha => ⟨⟨⟨(h a ha).1.1, hj a ha⟩, (h a ha).1.2⟩, (h a ha).2⟩

theorem captureArea (v : Nat) (hv : v = 0 ∨ v = 0x40000000) (m : Nat) (hm : m = 0 ∨ m = 16) :
    ctxAreas (wr (ringAt m) (ctxA 0 0) v) 0 = [(m * 2 ^ 20, 1024), (0, 0)] := by
  rcases hv with rfl | rfl <;> rcases hm with rfl | rfl <;> decide +kernel

theorem noClash (v : Nat) (hv : v = 0 ∨ v = 0x40000000) :
    areaClash (wr (ringAt 0) (ctxA 0 0) v) 0 = false ∨ areaClash (wr (ringAt 16) (ctxA 0 0) v) 0 = false := by
  by_cases h : 1024 ≤ journalArea.1
  · left
    refine areaClash_of _ _ (by rcases hv with rfl | rfl <;> decide +kernel) ?_
    rw [captureArea v hv 0 (.inl rfl)]
    simp [overlap]; omega
  · right
    refine areaClash_of _ _ (by rcases hv with rfl | rfl <;> decide +kernel) ?_
    rw [captureArea v hv 16 (.inr rfl)]
    have : journalArea.2 ≤ 9 * 2 ^ 20 := by simp only [journalArea]; omega
    simp [overlap]; omega

/-- The first check but the third passes. -/
theorem ctxCheck_ring (v : Nat) (hv : v = 0 ∨ v = 0x40000000) (m : Nat) (hm : m = 0 ∨ m = 16)
    (h : areaClash (wr (ringAt m) (ctxA 0 0) v) 0 = false) : ctxCheck (wr (ringAt m) (ctxA 0 0) v) 0 = 0 := by
  unfold ctxCheck
  rw [h]
  rcases hv with rfl | rfl <;> rcases hm with rfl | rfl <;> decide +kernel

/-- A context is enabled, with or without a strobe: wherever boot firmware has laid the journal (log 64), one of two rings
is clear of it. -/
theorem witness_ContextEnable :
    (∃ s : State, gate s (ctxA 0 0) 0x80000000 = none ∧ ctxOn s 0 = false ∧ bitOf (0x80000000 &&& 3748869087) 31 = true ∧
      ctxCheck (wr s (ctxA 0 0) ((0x80000000 &&& 3748869087) % 2 ^ 31)) 0 = 0 ∧
      bitOf (0x80000000 &&& 3748869087) 30 = false) ∧
    (∃ s : State, gate s (ctxA 0 0) 0xC0000000 = none ∧ ctxOn s 0 = false ∧ bitOf (0xC0000000 &&& 3748869087) 31 = true ∧
      ctxCheck (wr s (ctxA 0 0) ((0xC0000000 &&& 3748869087) % 2 ^ 31)) 0 = 0 ∧
      bitOf (0xC0000000 &&& 3748869087) 30 = true ∧
      claimable s (ownCmp (field (0xC0000000 &&& 3748869087) 28 24)) 2 = true) := by
  constructor
  · rcases noClash 0 (.inl rfl) with h | h
    · exact ⟨ringAt 0, by decide +kernel, by decide +kernel, by decide +kernel, ctxCheck_ring 0 (.inl rfl) 0 (.inl rfl) h, by decide +kernel⟩
    · exact ⟨ringAt 16, by decide +kernel, by decide +kernel, by decide +kernel, ctxCheck_ring 0 (.inl rfl) 16 (.inr rfl) h, by decide +kernel⟩
  · rcases noClash 0x40000000 (.inr rfl) with h | h
    · exact ⟨ringAt 0, by decide +kernel, by decide +kernel, by decide +kernel, ctxCheck_ring _ (.inr rfl) 0 (.inl rfl) h, by decide +kernel, by decide +kernel⟩
    · exact ⟨ringAt 16, by decide +kernel, by decide +kernel, by decide +kernel, ctxCheck_ring _ (.inr rfl) 16 (.inr rfl) h, by decide +kernel, by decide +kernel⟩

end Cameras

namespace Time

def pp := pressUp z
def k0 : State := ons z [0x20, 0x70, 0xA0, 0x68]
def kc (s : State) (f : Clock → Clock) : State := { s with clk := f s.clk }
def actv (s : State) : State := setLane (setLane s 0 { state := 6, lock := true, rate := 2 }) 1 { state := 7, rate := 1 }
def jobS (h : Bool) : State := setJob k0 { job9 with held := h, startSlot := none }
def kS : List State := [k0, put k0 0x20040 1, kc k0 (fun c => { c with state := 6 }), printBar k0 0, actv k0, kc (actv k0) (fun c => { c with stepBusy := true, stepLanes := [0] }), kc (actv k0) (fun c => { c with stepBusy := true, stepLanes := [1] }),
  kc (jobS true) (fun c => { c with stepBusy := true }), kc k0 (fun c => { c with jump := true, best := some (1, ⟨1,2,3,4,5,6,7⟩) }), kc (printBar k0 0) (fun c => { c with jump := true, best := some (1, ⟨1,2,3,4,5,6,7⟩) }),
  { regs k0 [(0x2006C, 7), (0x20074, 0xFFFFFFF0), (0x20068, 999999999)] with clk := { k0.clk with sec := 0, ns := 3, frac := 7 } }, { k0 with held := [(0x20050, 0xFF7CED92#32)] }]
def sample1 : List (AnnounceData) := [⟨1,2,3,4,5,6,7⟩]
def ptp : State := regs (ons z [0x20, 0x10, 0x11, 0xA0]) [(0x20040, 1), (0x10040, 0x210), (0x10050, 7), (0x11040, 0x210), (0x11050, 7)]
/-- A clock identity that is not the unit's own. -/
def other : Nat := Config.clockIdentity + 1
def ann : AnnounceData := ⟨1,2,3,4,5,6,7⟩
def pm (seq : Nat) (two : Bool) : PtpMsg := { port := 0, domain := 0, sourceClock := other, sourcePort := 1, seq := seq, twoStep := two, correction := -3, origin := 1000, rxTime := 70000 }
def slv (f : Clock → Clock) : State := kc ptp (fun c => f { c with state := 3, best := some (0, ann), parent := other, adopted := some 6, foreign := [] })
def p2p (s : State) (tc : Nat) : State := put s 0x20040 (1 + 0x400 + 0x1000 * tc)
def mS : List State := [ptp, slv id, slv (fun c => { c with heldSync := some (pm 4 true) }), slv (fun c => { c with heldSync := some { pm 4 true with rxTime := 0 } }), slv (fun c => { c with heldSync := some (pm 5 true), reqSeq := 4 }),
  p2p (slv id) 0, slv (fun c => { c with measured := some 70000000000000 }), slv (fun c => { c with measured := some 7 }), slv (fun c => { c with measured := some 7, state := 2, first := true }), slv (fun c => { c with measured := some (-70000000000000), state := 2, first := true }),
  slv (fun c => { c with measured := some 7, state := 4 }), slv (fun c => { c with measured := some (-70000000000000), state := 4 }), slv (fun c => { c with measured := some 7, state := 4, adopted := some 5 }),
  slv (fun c => { c with state := 6 }), slv (fun c => { c with best := none, state := 1 }), slv (fun c => { c with best := none, state := 5 }), slv (fun c => { c with measured := some 7, state := 4, goodRun := 200, jump := true }), slv (fun c => { c with measured := some 7, state := 2, goodRun := 200 })]
def sample2 : List (PtpMsg) := [pm 4 true, pm 4 false, pm 5 false, { pm 4 false with sourceClock := 3 }, { pm 4 false with domain := 3 }]
def sample3 : List (AnnounceData) := [ann]
def mast : State := kc ptp (fun c => { c with state := 5 })
def wpd (s : State) (seq : Nat) : State := kc s (fun c => { c with pdReq := [(0, seq, 5)], pdHeld := [(0, { pm 4 true with sourceClock := 9 })] })
def prl (s : State) (roleN : Nat) : State := { setLane (setLane (ons s [0xA8, 0xA9]) 49 { state := 6, lock := true }) 48 { state := 6, lock := true } with pair := { s.pair with role := roleN } }
def eS : List State := [mast, ptp, slv id, p2p (slv id) 0, p2p ptp 2, put (p2p ptp 2) 0x11010 0, wpd (p2p ptp 0) 4, wpd (p2p ptp 2) 5, p2p ptp 1, kc (p2p ptp 2) (fun c => { c with peerDelay := [(0, 500)] }), prl (put ptp 0x20040 0x11) 5, kc (prl (put ptp 0x20040 0x11) 5) (fun c => { c with pairLane := some 49 })]
def Ex2 (o : Host.Outcome State Fault Refusal) (P : State → Prop) : Prop := ∃ t, o = .next t ∧ P t
def PtpMessages2Rule : Prop :=
  (∀ s : State,
    let ring := (List.range 4).filter (ringPort s)
    (ptpMaster s = true →
      completes .ptpSyncInterval s (fun t =>
        let q := (s.clk.syncSeq + 1) % 65536
        t.clk = { s.clk with syncSeq := q } ∧ sends s t (ring.map (fun p => .ptp p 0 (ownPtp s p q (txStamp s p) 0))) ∧
          onlyChanges [.clk, .out] s t) ∧
      completes .ptpAnnounceInterval s (fun t =>
        let q := (s.clk.annSeq + 1) % 65536
        t.clk = { s.clk with annSeq := q } ∧ sends s t (ring.map (fun p => .ptp p 3 (ownPtp s p q 0 0))) ∧
          onlyChanges [.clk, .out] s t) ∧
      (∀ m, hears s m = true → delayP2p s = false →
        Ex2 (Sys2Proof.Machine.execDelayReq m s) (fun t =>
          sends s t [.ptp m.port 2 (ownPtp s m.port (m.seq % 65536) (rxStamp s m) m.correction)] ∧
            onlyChanges [.out] s t))) ∧
    (ptpMaster s = false →
      exec .ptpSyncInterval s = .next s ∧ exec .ptpAnnounceInterval s = .next s ∧
        ∀ m, Sys2Proof.Machine.execDelayReq m s = .next s) ∧
    (∀ p d, pgEn s pgPtc = true → srcPtp s = true → delayP2p s = false → tcMode s ≠ 2 → s.clk.best = some (p, d) →
        s.clk.state ≠ 5 → ringPort s p = true →
      completes .delayRequestInterval s (fun t =>
        let q := (s.clk.reqSeq + 1) % 65536
        t.clk = { s.clk with reqSeq := q, t3 := txStamp s p } ∧ sends s t [.ptp p 1 (ownPtp s p q (txStamp s p) 0)] ∧
          counted s t pgPtc 2 ∧ onlyChanges [.counters, .clk, .out] s t)) ∧
    (∀ p, pgEn s pgPtc = true → tcMode s = 2 → ring = [p] → s.clk.best = none →
      completes .delayRequestInterval s (fun t =>
        let q := (s.clk.reqSeq + 1) % 65536
        t.clk = { s.clk with reqSeq := q, pdReq := tset s.clk.pdReq p (q, txStamp s p) } ∧
          sends s t [.ptp p 4 (ownPtp s p q 0 0)] ∧ onlyChanges [.clk, .out] s t))) ∧
  (∀ (s : State) (m : PtpMsg), pgEn s pgPtc = true → ringPort s m.port = true → (delayP2p s = true ∨ tcMode s = 2) →
    completes (.pdelay .req m) s (fun t =>
      sends s t [.ptp m.port 5 (ownPtp s m.port (m.seq % 65536) 0 (m.correction + (txStamp s m.port - rxStamp s m)))] ∧
        onlyChanges [.out] s t) ∧
    (∀ e ∈ s.clk.pdReq, s.clk.pdReq.find? (fun x => x.1 == m.port) = some e → e.2.1 = m.seq → m.twoStep = true →
      completes (.pdelay .resp m) s (fun t =>
        tget (fun _ => m) t.clk.pdHeld m.port = m ∧ onlyChanges [.clk] s t)) ∧
    (∀ e ∈ s.clk.pdReq, ∀ h ∈ s.clk.pdHeld, s.clk.pdReq.find? (fun x => x.1 == m.port) = some e → e.2.1 = m.seq →
      s.clk.pdHeld.find? (fun x => x.1 == m.port) = some h → h.2.seq = m.seq →
      completes (.pdelay .respFollowUp m) s (fun t =>
        tget (fun _ => 0) t.clk.peerDelay m.port =
            (rxStamp s h.2 - e.2.2 - (m.origin - h.2.origin) - h.2.correction - m.correction) / 2 ∧
          counted s t pgPtc 4 ∧ wordsKept [ptcA 0x94] s t ∧ onlyChanges [.regs, .counters, .clk] s t)) ∧
    (∀ e ∈ s.clk.pdReq, s.clk.pdReq.find? (fun x => x.1 == m.port) = some e → e.2.1 = m.seq → m.twoStep = false →
      completes (.pdelay .resp m) s (fun t =>
        tget (fun _ => 0) t.clk.peerDelay m.port = (rxStamp s m - e.2.2 - m.correction) / 2 ∧ counted s t pgPtc 4 ∧
          wordsKept [ptcA 0x94] s t ∧ onlyChanges [.regs, .counters, .clk] s t))) ∧
  (∀ (s : State) (kind : TcKind) (m : PtpMsg) (tr : Nat) (ok : Bool) (e : Nat),
    (e = m.port ∨ tcMode s = 0 ∨ m.sourceClock = Config.clockIdentity → exec (.tcForward kind m tr ok e) s = .next s) ∧
    (pgEn s pgPtc = true → tcMode s = 1 → ringPort s m.port = true → ringPort s e = true → e ≠ m.port →
        m.sourceClock ≠ Config.clockIdentity →
      (kind = .general ∨ kind = .pdelayFollowUp →
        completes (.tcForward kind m tr ok e) s (fun t => sends s t [.ptp e 6 m] ∧ onlyChanges [.out] s t)) ∧
      (kind ≠ .general → kind ≠ .pdelayFollowUp → (tr ≠ 2 ∨ ok = true) →
        completes (.tcForward kind m tr ok e) s (fun t =>
          sends s t [.ptp e (7 + tr % 3) { m with correction := m.correction + (txStamp s e - rxStamp s m) }] ∧
            counted s t pgPtc 6 ∧ onlyChanges [.counters, .out] s t)) ∧
      (kind ≠ .general → kind ≠ .pdelayFollowUp → tr = 2 → ok = false →
        completes (.tcForward kind m tr ok e) s (fun t =>
          sends s t [.ptp e 6 m] ∧ counted s t pgPtc 7 ∧ onlyChanges [.counters, .out] s t))) ∧
    (pgEn s pgPtc = true → tcMode s = 2 → ringPort s m.port = true → ringPort s e = true → e ≠ m.port →
        m.sourceClock ≠ Config.clockIdentity → (tr ≠ 2 ∨ ok = true) →
      completes (.tcForward .sync m tr ok e) s (fun t =>
        sends s t [.ptp e (7 + tr % 3) { m with correction :=
          m.correction + (txStamp s e - rxStamp s m) + tget (fun _ => 0) s.clk.peerDelay m.port }] ∧
          counted s t pgPtc 6 ∧ onlyChanges [.counters, .out] s t))) ∧
  (∀ (s : State) (l : Nat), pairFollow s = true → (pairLanes s).find? (fun l => (getLane s l).lock) = some l →
    completes .pairTimeExchange s (fun t =>
      let q := (s.clk.pairSeq + 1) % 256
      t.clk.pairSeq = q ∧ t.clk.pairT1 = some (fireNow s) ∧ t.clk.pairLane = some l ∧
        (s.clk.pairLane.isSome = true → s.clk.pairLane ≠ some l → t.clk.pairDiscard = 8) ∧
        sends s t [.pair l (pairMessage 3 0 0 s.pair.rxSeq (leBytes 1 1 ++ leBytes 1 q ++ leBytes 2 0 ++
          leBytes 6 (fireNow s) ++ leBytes 4 0 ++ leBytes 2 0))] ∧ onlyChanges [.counters, .clk, .out] s t))

/-- A message with another clock's identity is heard where the port, the domain and the enables admit it. -/
theorem hears_other (s : State) (m : PtpMsg)
    (h : (pgEn s pgPtc && srcPtp s && ringPort s m.port && m.domain == ptpDomain s) = true) (hc : m.sourceClock = other) :
    hears s m = true := by
  simp [hears, hc, other, h]

/-- It is the master's where the identity is that of the parent. -/
theorem fromMaster_other (s : State) (m : PtpMsg)
    (h : (pgEn s pgPtc && srcPtp s && ringPort s m.port && m.domain == ptpDomain s) = true) (hc : m.sourceClock = other)
    (hb : ((s.clk.best.map (fun b => b.1)) == some m.port) = true) (hp : s.clk.parent = other) :
    fromMaster s m = true := by
  simp [fromMaster, hears_other s m h hc, hb, hp, hc]

theorem other_ne : other ≠ Config.clockIdentity := Nat.succ_ne_self _

theorem witness_PressTimeSteps :
    (gate (stateAt kS 0) (ptcA 84) (4#32).toNat = none ∧
      srcPtp (stateAt kS 0) = false ∧
        (stateAt kS 0).clk.state ≠ 6 ∧
          17171279250 ≤ heldLow (stateAt kS 0) (ptcA 80) + 2 ^ 32 * ((4#32).toNat % 256) ∧
            heldLow (stateAt kS 0) (ptcA 80) + 2 ^ 32 * ((4#32).toNat % 256) ≤ 17188459118) ∧
    (gate (stateAt kS 0) (ptcA 84) (3#32).toNat = none ∧
      (srcPtp (stateAt kS 0) = true ∨
        (stateAt kS 0).clk.state = 6 ∨
          heldLow (stateAt kS 0) (ptcA 80) + 2 ^ 32 * ((3#32).toNat % 256) < 17171279250 ∨
            17188459118 < heldLow (stateAt kS 0) (ptcA 80) + 2 ^ 32 * ((3#32).toNat % 256))) ∧
    (gate (stateAt kS 3) (ptcA 72) (if false = true then 2 else 1) = none ∧ anyPrinting (stateAt kS 3) = true) ∧
    (gate (stateAt kS 0) (ptcA 72) (if false = true then 2 else 1) = none ∧ anyPrinting (stateAt kS 0) = false) ∧
    ((stateAt kS 0).clk.stepBusy = false ∨ ∃ l ∈ (stateAt kS 0).clk.stepLanes, (getLane (stateAt kS 0) l).state ≠ 6) ∧
    ((stateAt kS 5).clk.stepBusy = true ∧ ∀ l ∈ (stateAt kS 5).clk.stepLanes, (getLane (stateAt kS 5) l).state = 6) ∧
    ((stateAt kS 5).clk.stepBusy = true ∧
      (∀ l ∈ (stateAt kS 5).clk.stepLanes, (getLane (stateAt kS 5) l).state = 6) ∧
        ∀ j ∈ (stateAt kS 5).print.jobs, j.held = false) ∧
    (gate (stateAt kS 0) (ptcA 72) 4 = none ∧ (stateAt kS 0).clk.jump = false) ∧
    (gate (stateAt kS 8) (ptcA 72) 4 = none ∧
      Option.any
          (fun (x : AnnounceData) => decide ((stateAt kS 8).clk.jump = true ∧ (stateAt kS 8).clk.best = some (1, x)))
          sample1[0]? =
        true) := by
  decide +kernel

theorem witness_PtpMeasurement :
    (fromMaster (stateAt mS 0) { pm 4 true with domain := 3 } = false) ∧
    (fromMaster (stateAt mS 1) (pm 4 true) = true ∧ (pm 4 true).twoStep = true) ∧
    (fromMaster (stateAt mS 1) (pm 4 false) = true ∧ (pm 4 false).twoStep = false) ∧
    (fromMaster (stateAt mS 2) (pm 4 true) = true ∧ (stateAt mS 2).clk.heldSync = some (pm 4 true) ∧
      (pm 4 true).rxTime ≤ (pm 4 true).rxTime + interval (stateAt mS 2) 31 24) ∧
    (fromMaster (stateAt mS 1) (pm 4 true) = true ∧ (stateAt mS 1).clk.heldSync = none) ∧
    (fromMaster (stateAt mS 4) (pm 4 true) = true ∧ delayP2p (stateAt mS 4) = false ∧ (pm 4 true).seq = (stateAt mS 4).clk.reqSeq) ∧
    (Option.any
        (fun (x : AnnounceData) =>
          decide
            ((stateAt mS 6).clk.measured = some 70000000000000 ∧
              (stateAt mS 6).clk.best = some (0, x) ∧
                pgEn (stateAt mS 6) pgPtc = true ∧
                  srcPtp (stateAt mS 6) = true ∧
                    ((stateAt mS 6).clk.state = 3 ∨ (stateAt mS 6).clk.state = 2 ∧ (stateAt mS 6).clk.first = false) ∧
                      (stateAt mS 6).clk.suspended = false ∧
                        rdf (stateAt mS 6) (ptcA 120) 19 0 * 65536 < Int.natAbs 70000000000000))
        sample3[0]? =
      true) ∧
    (Option.any
        (fun (x : AnnounceData) =>
          decide
            ((stateAt mS 8).clk.measured = some 7 ∧
              (stateAt mS 8).clk.best = some (0, x) ∧
                pgEn (stateAt mS 8) pgPtc = true ∧
                  srcPtp (stateAt mS 8) = true ∧
                    (stateAt mS 8).clk.state = 2 ∧
                      (stateAt mS 8).clk.first = true ∧ anyPrinting (stateAt mS 8) = false))
        sample3[0]? =
      true) ∧
    (Option.any
        (fun (x : AnnounceData) =>
          decide
            ((stateAt mS 10).clk.measured = some 7 ∧
              (stateAt mS 10).clk.best = some (0, x) ∧
                pgEn (stateAt mS 10) pgPtc = true ∧
                  srcPtp (stateAt mS 10) = true ∧
                    (stateAt mS 10).clk.state = 4 ∧
                      Int.natAbs 7 ≤ rdf (stateAt mS 10) (ptcA 120) 19 0 * 65536 ∧
                        (stateAt mS 10).clk.adopted = some x.grandmaster))
        sample3[0]? =
      true) ∧
    (Option.any
        (fun (x : AnnounceData) =>
          decide
            ((stateAt mS 11).clk.measured = some (-70000000000000) ∧
              (stateAt mS 11).clk.best = some (0, x) ∧
                pgEn (stateAt mS 11) pgPtc = true ∧
                  srcPtp (stateAt mS 11) = true ∧
                    (stateAt mS 11).clk.state = 4 ∧
                      (rdf (stateAt mS 11) (ptcA 120) 19 0 * 65536 < (-70000000000000).natAbs ∨
                        (stateAt mS 11).clk.adopted ≠ some x.grandmaster)))
        sample3[0]? =
      true) ∧
    (pgEn (stateAt mS 1) pgPtc = true ∧
      srcPtp (stateAt mS 1) = true ∧
        (stateAt mS 1).clk.state ≠ 6 ∧
          Option.any
              (fun (x : AnnounceData) =>
                decide
                  ((stateAt mS 1).clk.best = some (0, x) ∧
                    List.filter (fun (f : ℕ × ℕ × AnnounceData) => !(f.1 == 0 && f.2.1 == (stateAt mS 1).clk.parent))
                        (stateAt mS 1).clk.foreign =
                      []))
              sample3[0]? =
            true) ∧
    (pgEn (stateAt mS 14) pgPtc = true ∧
      srcPtp (stateAt mS 14) = true ∧
        (stateAt mS 14).clk.state ≠ 6 ∧
          (stateAt mS 14).clk.best = none ∧ (stateAt mS 14).clk.state = 1 ∧ slaveOnly (stateAt mS 14) = false) ∧
    (Option.any
        (fun (x : PtpMsg) =>
          decide
            (Option.any
                (fun (x_1 : AnnounceData) => decide (hears (stateAt mS 0) x = false ∨ (stateAt mS 0).clk.state = 6))
                sample3[0]? =
              true))
        sample2[4]? =
      true) ∧
    (hears (stateAt mS 0) (pm 4 true) = true ∧ (stateAt mS 0).clk.state ≠ 6) :=
  ⟨by decide +kernel,
   ⟨fromMaster_other _ _ (by decide +kernel) rfl (by decide +kernel) rfl, rfl⟩,
   ⟨fromMaster_other _ _ (by decide +kernel) rfl (by decide +kernel) rfl, rfl⟩,
   ⟨fromMaster_other _ _ (by decide +kernel) rfl (by decide +kernel) rfl, rfl, by decide +kernel⟩,
   ⟨fromMaster_other _ _ (by decide +kernel) rfl (by decide +kernel) rfl, rfl⟩,
   ⟨fromMaster_other _ _ (by decide +kernel) rfl (by decide +kernel) rfl, by decide +kernel, rfl⟩,
   by decide +kernel,
   by decide +kernel,
   by decide +kernel,
   by decide +kernel,
   by decide +kernel,
   by decide +kernel,
   by decide +kernel,
   ⟨hears_other _ _ (by decide +kernel) rfl, by decide +kernel⟩⟩

theorem witness_PtpMessages :
    (ptpMaster (stateAt eS 0) = true) ∧
    (ptpMaster (stateAt eS 0) = true ∧ hears (stateAt eS 0) (pm 4 true) = true ∧ delayP2p (stateAt eS 0) = false) ∧
    (ptpMaster (stateAt eS 1) = false) ∧
    (ptpMaster (stateAt eS 1) = false ∧ Option.any (fun (x : PtpMsg) => decide True) sample2[0]? = true) ∧
    (Option.any
        (fun (x : AnnounceData) =>
          decide
            (pgEn (stateAt eS 2) pgPtc = true ∧
              srcPtp (stateAt eS 2) = true ∧
                delayP2p (stateAt eS 2) = false ∧
                  tcMode (stateAt eS 2) ≠ 2 ∧
                    (stateAt eS 2).clk.best = some (0, x) ∧
                      (stateAt eS 2).clk.state ≠ 5 ∧ ringPort (stateAt eS 2) 0 = true))
        sample3[0]? =
      true) ∧
    (pgEn (stateAt eS 5) pgPtc = true ∧
      tcMode (stateAt eS 5) = 2 ∧
        List.filter (ringPort (stateAt eS 5)) (List.range 4) = [0] ∧ (stateAt eS 5).clk.best = none) ∧
    (Option.any
        (fun (x : PtpMsg) =>
          decide
            (pgEn (stateAt eS 3) pgPtc = true ∧
              ringPort (stateAt eS 3) x.port = true ∧ (delayP2p (stateAt eS 3) = true ∨ tcMode (stateAt eS 3) = 2)))
        sample2[0]? =
      true) ∧
    (Option.any
        (fun (x : PtpMsg) =>
          decide
            (pgEn (stateAt eS 6) pgPtc = true ∧
              ringPort (stateAt eS 6) x.port = true ∧
                (delayP2p (stateAt eS 6) = true ∨ tcMode (stateAt eS 6) = 2) ∧
                  (List.any (stateAt eS 6).clk.pdReq fun (e : ℕ × ℕ × ℤ) =>
                      decide
                        (List.find? (fun (x_1 : ℕ × ℕ × ℤ) => x_1.1 == x.port) (stateAt eS 6).clk.pdReq = some e ∧
                          e.2.1 = x.seq ∧ x.twoStep = true)) =
                    true))
        sample2[0]? =
      true) ∧
    (Option.any
        (fun (x : PtpMsg) =>
          decide
            (pgEn (stateAt eS 6) pgPtc = true ∧
              ringPort (stateAt eS 6) x.port = true ∧
                (delayP2p (stateAt eS 6) = true ∨ tcMode (stateAt eS 6) = 2) ∧
                  (List.any (stateAt eS 6).clk.pdReq fun (e : ℕ × ℕ × ℤ) =>
                      decide
                        ((List.any (stateAt eS 6).clk.pdHeld fun (h : ℕ × PtpMsg) =>
                            decide
                              (List.find? (fun (x_1 : ℕ × ℕ × ℤ) => x_1.1 == x.port) (stateAt eS 6).clk.pdReq = some e ∧
                                e.2.1 = x.seq ∧
                                  List.find? (fun (x_1 : ℕ × PtpMsg) => x_1.1 == x.port) (stateAt eS 6).clk.pdHeld =
                                      some h ∧
                                    h.2.seq = x.seq)) =
                          true)) =
                    true))
        sample2[0]? =
      true) ∧
    (Option.any
        (fun (x : PtpMsg) =>
          decide
            (pgEn (stateAt eS 6) pgPtc = true ∧
              ringPort (stateAt eS 6) x.port = true ∧
                (delayP2p (stateAt eS 6) = true ∨ tcMode (stateAt eS 6) = 2) ∧
                  (List.any (stateAt eS 6).clk.pdReq fun (e : ℕ × ℕ × ℤ) =>
                      decide
                        (List.find? (fun (x_1 : ℕ × ℕ × ℤ) => x_1.1 == x.port) (stateAt eS 6).clk.pdReq = some e ∧
                          e.2.1 = x.seq ∧ x.twoStep = false)) =
                    true))
        sample2[1]? =
      true) ∧
    (Option.any
        (fun (x : PtpMsg) => decide (0 = x.port ∨ tcMode (stateAt eS 0) = 0 ∨ x.sourceClock = Config.clockIdentity))
        sample2[0]? =
      true) ∧
    (pgEn (stateAt eS 8) pgPtc = true ∧ tcMode (stateAt eS 8) = 1 ∧ ringPort (stateAt eS 8) (pm 4 true).port = true ∧
      ringPort (stateAt eS 8) 1 = true ∧ 1 ≠ (pm 4 true).port ∧ (pm 4 true).sourceClock ≠ Config.clockIdentity ∧
      (TcKind.general = TcKind.general ∨ TcKind.general = TcKind.pdelayFollowUp)) ∧
    (pgEn (stateAt eS 8) pgPtc = true ∧ tcMode (stateAt eS 8) = 1 ∧ ringPort (stateAt eS 8) (pm 4 true).port = true ∧
      ringPort (stateAt eS 8) 1 = true ∧ 1 ≠ (pm 4 true).port ∧ (pm 4 true).sourceClock ≠ Config.clockIdentity ∧
      TcKind.sync ≠ TcKind.general ∧ TcKind.sync ≠ TcKind.pdelayFollowUp ∧ (0 ≠ 2 ∨ false = true)) ∧
    (pgEn (stateAt eS 8) pgPtc = true ∧ tcMode (stateAt eS 8) = 1 ∧ ringPort (stateAt eS 8) (pm 4 true).port = true ∧
      ringPort (stateAt eS 8) 1 = true ∧ 1 ≠ (pm 4 true).port ∧ (pm 4 true).sourceClock ≠ Config.clockIdentity ∧
      TcKind.sync ≠ TcKind.general ∧ TcKind.sync ≠ TcKind.pdelayFollowUp ∧ 2 = 2 ∧ false = false) ∧
    (pgEn (stateAt eS 4) pgPtc = true ∧ tcMode (stateAt eS 4) = 2 ∧ ringPort (stateAt eS 4) (pm 4 true).port = true ∧
      ringPort (stateAt eS 4) 1 = true ∧ 1 ≠ (pm 4 true).port ∧ (pm 4 true).sourceClock ≠ Config.clockIdentity ∧ (0 ≠ 2 ∨ false = true)) ∧
    (pairFollow (stateAt eS 10) = true ∧
      List.find? (fun (l : ℕ) => (getLane (stateAt eS 10) l).lock) (pairLanes (stateAt eS 10)) = some 48) :=
  ⟨by decide +kernel,
   ⟨by decide +kernel, hears_other _ _ (by decide +kernel) rfl, by decide +kernel⟩,
   by decide +kernel,
   by decide +kernel,
   by decide +kernel,
   by decide +kernel,
   by decide +kernel,
   by decide +kernel,
   by decide +kernel,
   by decide +kernel,
   by decide +kernel,
   ⟨by decide +kernel, by decide +kernel, by decide +kernel, by decide +kernel, by decide +kernel, other_ne, by decide +kernel⟩,
   ⟨by decide +kernel, by decide +kernel, by decide +kernel, by decide +kernel, by decide +kernel, other_ne, by decide +kernel⟩,
   ⟨by decide +kernel, by decide +kernel, by decide +kernel, by decide +kernel, by decide +kernel, other_ne, by decide +kernel⟩,
   ⟨by decide +kernel, by decide +kernel, by decide +kernel, by decide +kernel, by decide +kernel, other_ne, by decide +kernel⟩,
   by decide +kernel⟩

end Time

namespace Pair

def pp := pressUp z
def pb (s : State) : State := put (setLane (setLane (ons s [0xA8, 0xA9, 0xC0, 0x48, 0x20]) 49 { state := 6, lock := true }) 48 { state := 6, lock := true }) 0xC0040 1
def pr (f : PairSt → PairSt) (s : State) : State := { s with pair := f s.pair }
def ro (k : Nat) (s : State) : State := pr (fun p => { p with role := k }) s
def msg (type seq : Nat) (body : List Byte) : PairRx := ⟨0, pairMessage type 0 seq 0 body⟩
def badm : PairRx := ⟨0, [1#8, 2#8]⟩
def tmB (k : Nat) : List Byte := leBytes 1 k ++ leBytes 1 4 ++ zeroBytes 2 ++ leBytes 6 0 ++ leBytes 6 0
def hbb (role claim : Nat) : List Byte := leBytes 1 role ++ leBytes 1 0 ++ leBytes 2 0 ++ leBytes 4 claim ++ leBytes 6 77 ++ leBytes 2 0 ++ leBytes 4 5
def lS : List State := [z, ro 2 (pb z), ro 5 (pb z), ro 4 (pb z), ro 3 (pb z), pr (fun p => { p with role := 2, unacked := [(7, 0x10, 0, [1#8])], sentOn := [(7, 48)] }) (pb z), pr (fun p => { p with role := 2, unacked := [(7, 0x10, 0, [1#8])], sentOn := [(7, 49)], hbLost := true }) (pb z), pr (fun p => { p with early := [(2, 0x28, 0, zeroBytes 48)] }) (ro 2 (pb z))]
def sample1 : List (PairRx) := [badm, msg 1 1 (zeroBytes 32), msg 2 0 (hbb 5 7), msg 3 0 (tmB 1), msg 3 0 (tmB 2), msg 0x10 1 (inputBody 8 false false 0 0 []), msg 0x28 1 (zeroBytes 48), msg 0x28 0 (zeroBytes 48), msg 0x28 3 (zeroBytes 48), msg 0x30 1 []]
def sample2 : List (Nat × Nat × Nat × List Byte) := [(7, 0x10, 0, [1#8])]
def hel (f : List Byte → List Byte) : List Byte := f (leBytes 1 3 ++ leBytes 1 1 ++ leBytes 1 1 ++ leBytes 1 1 ++ leBytes 4 9 ++ leBytes 4 4 ++ leBytes 2 0 ++ zeroBytes 2 ++ leBytes 4 (drgSize (pb z)) ++ leBytes 4 Config.configCrc ++ leBytes 8 6)
def st (i v : Nat) (l : List Byte) : List Byte := l.set i (BitVec.ofNat 8 v)
def keepE (v : Nat) (s : State) : State := put s 0xC0054 v
def hS : List State := [ro 1 (pb z), ro 1 (keepE 4 (pb z)), ro 1 (keepE 5 (pb z)), ro 1 (keepE 4 (put (pb z) 0x0004C 1)), ro 3 (pb z), ro 2 (pb z), ro 5 (pb z), ro 4 (pb z), z,
  pr (fun p => { p with role := 2, peerSeen := true }) (pb z), pr (fun p => { p with role := 3, peerSeen := true }) (pb z), pr (fun p => { p with role := 2, peerSeen := true }) (put (pb z) 0xC0050 3)]
def sample3 : List (PairRx) := [msg 1 1 (hel id), msg 1 1 (hel (st 2 0)), msg 1 1 (hel (st 3 2)), msg 1 1 (hel (st 3 5)), msg 1 1 (hel (st 3 4)), msg 1 1 (hel (fun l => st 2 0 (st 3 1 l))), msg 1 1 (hel (st 1 2)), msg 2 0 (hbb 5 7), msg 2 0 (hbb 2 7), msg 2 0 (hbb 2 0xFFFFFF00), msg 2 0 (hbb 3 0)]
def ps (s : State) : State := pr (fun p => { p with peerSeen := true }) (pb s)
def jobbed (s : State) : State := printAt (pressUp s) 0 5
def oS : List State := [ro 5 (ps z), ro 5 (keepE 0xFFFFFF (ps z)), ro 2 (ps z), ro 2 (ps (jobbed z)), ro 5 (ps (jobbed z)), pr (fun p => { p with role := 4, joinStep := 2 }) (ps (jobbed z)), pr (fun p => { p with role := 2, soloWait := true }) (ps (jobbed z)), ro 1 (pb z), ro 1 (put (pb z) 0xC0040 5), pr (fun p => { p with role := 5, hbLost := true }) (ps (jobbed z)), pr (fun p => { p with role := 1, sameUnit := true }) (put (pb z) 0xC0040 5), z, ro 1 (ps z)]
def sample4 : List (PairRx) := [msg 0x30 1 []]
def cS : List State := [pr (fun p => { p with role := 2, verified := true }) (ps z), pr (fun p => { p with role := 2, verified := true }) (ps (jobbed z)), pr (fun p => { p with role := 2, verified := true, switchPending := true }) (ps (jobbed z)), ro 2 (ps z), ro 1 (ps z), ro 1 (pb z), pr (fun p => { p with role := 4, peerRole := 3 }) (ps (jobbed z)), pr (fun p => { p with role := 6, peerRole := 3 }) (ps (jobbed z)), ro 5 (ps (jobbed z)), ro 3 (ps z), pr (fun p => { p with role := 1, sameUnit := true }) (ps z), ro 1 (keepE 0xFFFFFF (pb z))]

/-- A HELLO of a bad layout. -/
def helloBad : PairRx := msg 1 1 (zeroBytes 32)

/-- A message that `pairMessage` makes is sound where its type is one of the pair's and its body is short. -/
theorem pairSound_message (type seq : Nat) (body : List Byte) (n : Nat) (hn : body.length = n) (hs : n ≤ 2304)
    (hl : bytesAt (pairMessage type 0 seq 0 body) 2 2 = n)
    (ht : pairTypes.contains (bytesAt (pairMessage type 0 seq 0 body) 0 1) = true) :
    pairSound (pairMessage type 0 seq 0 body) = true := by
  have hh : (leBytes 1 type ++ leBytes 1 0 ++ leBytes 2 body.length ++ leBytes 4 seq ++ leBytes 4 0 ++ body).length = 12 + n := by
    simp [leBytes_length, hn]; omega
  have h1 := bytesAt_withCrc (leBytes 1 type ++ leBytes 1 0 ++ leBytes 2 body.length ++ leBytes 4 seq ++ leBytes 4 0 ++ body)
  have h2 := take_withCrc (leBytes 1 type ++ leBytes 1 0 ++ leBytes 2 body.length ++ leBytes 4 seq ++ leBytes 4 0 ++ body)
  rw [hh] at h1 h2
  have h3 : (pairMessage type 0 seq 0 body).length = 16 + n := by
    rw [pairMessage, withCrc, List.length_append, hh, leBytes_length]; omega
  unfold pairSound
  rw [hl, ht, h3]
  simp [pairMessage] at h1 h2 ⊢
  simp [h1, h2, hs]

/-- A HELLO is not refused where its fields are those of the partner unit (R342). -/
theorem helloReason_zero (s : State) (b : List Byte) (h1 : bitOf (bytesAt b 2 1) 0 ≠ unitA s) (h2 : bytesAt b 1 1 = 1)
    (h3 : bytesAt b 0x10 4 = drgSize s) (h4 : bytesAt b 0x14 4 = leNat (leBytes 4 Config.configCrc))
    (h5 : pairMode s ≠ false ∧ bytesAt b 3 1 ≠ 0) : helloReason s b = 0 := by
  rw [leNat_leBytes] at h4
  simp [helloReason, h1, h2, h3, h4, h5]

theorem witness_PairMessages :
    (Option.any
        (fun (x : PairRx) =>
          decide
            (((pairSequenced ++ [(2, Instr.hb), (3, Instr.timeMessage)]).any fun (x_1 : ℕ × (PairRx → Instr)) =>
                decide (laneActive (stateAt lS 0) (48 + x.lane % 4) = false)) =
              true))
        sample1[0]? =
      true) ∧
    (Option.any
        (fun (x : PairRx) =>
          decide
            (((pairSequenced ++ [(2, Instr.hb), (3, Instr.timeMessage)]).any fun (x_1 : ℕ × (PairRx → Instr)) =>
                decide (laneActive (stateAt lS 1) (48 + x.lane % 4) = true ∧ pairSound x.bytes = false)) =
              true))
        sample1[0]? =
      true) ∧
    (Option.any
        (fun (x : PairRx) =>
          decide
            (laneActive (stateAt lS 1) (48 + x.lane % 4) = true ∧
              pairSound x.bytes = true ∧
                bytesAt x.bytes 0 1 = 2 ∧
                  (∀ u ∈ (stateAt lS 1).pair.unacked, seqLe u.1 (bytesAt x.bytes 8 4) = false) ∧
                    (2 = 1 → (stateAt lS 1).pair.hbLost = false)))
        sample1[2]? =
      true) ∧
    (Option.any
        (fun (x : PairRx) =>
          decide
            (laneActive (stateAt lS 1) (48 + x.lane % 4) = true ∧
              pairSound x.bytes = true ∧
                bytesAt x.bytes 0 1 = 3 ∧
                  (∀ u ∈ (stateAt lS 1).pair.unacked, seqLe u.1 (bytesAt x.bytes 8 4) = false) ∧
                    (3 = 1 → (stateAt lS 1).pair.hbLost = false)))
        sample1[3]? =
      true) ∧
    (Option.any
        (fun (x : PairRx) =>
          decide
            ((pairSequenced.any fun (x_1 : ℕ × (PairRx → Instr)) =>
                decide
                  ((laneActive (stateAt lS 1) (48 + x.lane % 4) = true ∧
                      pairSound x.bytes = true ∧
                        bytesAt x.bytes 0 1 = x_1.1 ∧
                          (∀ u ∈ (stateAt lS 1).pair.unacked, seqLe u.1 (bytesAt x.bytes 8 4) = false) ∧
                            (x_1.1 = 1 → (stateAt lS 1).pair.hbLost = false)) ∧
                    bytesAt x.bytes 4 4 = nextSeq (stateAt lS 1).pair.rxSeq)) =
              true))
        sample1[1]? =
      true) ∧
    (Option.any
        (fun (x : PairRx) =>
          decide
            ((pairSequenced.any fun (x_1 : ℕ × (PairRx → Instr)) =>
                decide
                  ((laneActive (stateAt lS 1) (48 + x.lane % 4) = true ∧
                      pairSound x.bytes = true ∧
                        bytesAt x.bytes 0 1 = x_1.1 ∧
                          (∀ u ∈ (stateAt lS 1).pair.unacked, seqLe u.1 (bytesAt x.bytes 8 4) = false) ∧
                            (x_1.1 = 1 → (stateAt lS 1).pair.hbLost = false)) ∧
                    bytesAt x.bytes 4 4 ≠ nextSeq (stateAt lS 1).pair.rxSeq ∧
                      seqLe (bytesAt x.bytes 4 4) (stateAt lS 1).pair.rxSeq = true)) =
              true))
        sample1[7]? =
      true) ∧
    (Option.any
        (fun (x : PairRx) =>
          decide
            ((pairSequenced.any fun (x_1 : ℕ × (PairRx → Instr)) =>
                decide
                  ((laneActive (stateAt lS 1) (48 + x.lane % 4) = true ∧
                      pairSound x.bytes = true ∧
                        bytesAt x.bytes 0 1 = x_1.1 ∧
                          (∀ u ∈ (stateAt lS 1).pair.unacked, seqLe u.1 (bytesAt x.bytes 8 4) = false) ∧
                            (x_1.1 = 1 → (stateAt lS 1).pair.hbLost = false)) ∧
                    bytesAt x.bytes 4 4 ≠ nextSeq (stateAt lS 1).pair.rxSeq ∧
                      seqLe (bytesAt x.bytes 4 4) (stateAt lS 1).pair.rxSeq = false ∧
                        ((stateAt lS 1).pair.early.any fun (e : ℕ × ℕ × ℕ × List Byte) => e.1 == bytesAt x.bytes 4 4) =
                          false)) =
              true))
        sample1[8]? =
      true) ∧
    (Option.any
        (fun (x : PairRx) =>
          decide
            ((laneActive (stateAt lS 1) (48 + x.lane % 4) = true ∧
                pairSound x.bytes = true ∧
                  bytesAt x.bytes 0 1 = 3 ∧
                    (∀ u ∈ (stateAt lS 1).pair.unacked, seqLe u.1 (bytesAt x.bytes 8 4) = false) ∧
                      (3 = 1 → (stateAt lS 1).pair.hbLost = false)) ∧
              bytesAt (pairBody x.bytes) 0 1 = 1 ∧ isActive (stateAt lS 1) = true))
        sample1[3]? =
      true) := by
  decide +kernel

theorem witness_PairSending :
    (pairMode (stateAt lS 0) = false) ∧
    (pairMode (stateAt lS 1) = true) ∧
    (((stateAt lS 0).pair.unacked.any fun (u : ℕ × ℕ × ℕ × List Byte) => u.1 == 7) = false ∨
      (stateAt lS 0).pair.hbLost = true ∨ pairLink (stateAt lS 0) = false) ∧
    (Option.any
        (fun (x : ℕ × ℕ × ℕ × List Byte) =>
          decide
            (List.find? (fun (u : ℕ × ℕ × ℕ × List Byte) => u.1 == 7) (stateAt lS 5).pair.unacked = some x ∧
              retryLane (stateAt lS 5) 7 = some 49 ∧ (stateAt lS 5).pair.hbLost = false))
        sample2[0]? =
      true) := by
  decide +kernel

theorem witness_PairPartner :
    (Option.any
        (fun (x : PairRx) =>
          decide
            (((laneActive (stateAt hS 0) (48 + x.lane % 4) = true ∧
                  pairSound x.bytes = true ∧
                    bytesAt x.bytes 0 1 = 1 ∧
                      (∀ u ∈ (stateAt hS 0).pair.unacked, seqLe u.1 (bytesAt x.bytes 8 4) = false) ∧
                        (1 = 1 → (stateAt hS 0).pair.hbLost = false)) ∧
                bytesAt x.bytes 4 4 = nextSeq (stateAt hS 0).pair.rxSeq ∧
                  (stateAt hS 0).pair.early = [] ∧ (stateAt hS 0).pair.partial_ = none) ∧
              helloReason (stateAt hS 0) (pairBody x.bytes) ≠ 0))
        (some helloBad) =
      true) ∧
    (Option.any
        (fun (x : PairRx) =>
          decide
            (((laneActive (stateAt hS 0) (48 + x.lane % 4) = true ∧
                  pairSound x.bytes = true ∧
                    bytesAt x.bytes 0 1 = 1 ∧
                      (∀ u ∈ (stateAt hS 0).pair.unacked, seqLe u.1 (bytesAt x.bytes 8 4) = false) ∧
                        (1 = 1 → (stateAt hS 0).pair.hbLost = false)) ∧
                bytesAt x.bytes 4 4 = nextSeq (stateAt hS 0).pair.rxSeq ∧
                  (stateAt hS 0).pair.early = [] ∧ (stateAt hS 0).pair.partial_ = none) ∧
              helloReason (stateAt hS 0) (pairBody x.bytes) = 0 ∧
                (stateAt hS 0).pair.role = 1 ∧
                  (bytesAt (pairBody x.bytes) 3 1 % 16 = 2 ∨ bytesAt (pairBody x.bytes) 3 1 % 16 = 3)))
        sample3[2]? =
      true) ∧
    (Option.any
        (fun (x : PairRx) =>
          decide
            (((laneActive (stateAt hS 2) (48 + x.lane % 4) = true ∧
                  pairSound x.bytes = true ∧
                    bytesAt x.bytes 0 1 = 1 ∧
                      (∀ u ∈ (stateAt hS 2).pair.unacked, seqLe u.1 (bytesAt x.bytes 8 4) = false) ∧
                        (1 = 1 → (stateAt hS 2).pair.hbLost = false)) ∧
                bytesAt x.bytes 4 4 = nextSeq (stateAt hS 2).pair.rxSeq ∧
                  (stateAt hS 2).pair.early = [] ∧ (stateAt hS 2).pair.partial_ = none) ∧
              helloReason (stateAt hS 2) (pairBody x.bytes) = 0 ∧
                (stateAt hS 2).pair.role = 1 ∧
                  bytesAt (pairBody x.bytes) 3 1 % 16 = 1 ∧
                    (bytesAt (pairBody x.bytes) 8 3 < rd (stateAt hS 2) (pairA 84) ∨
                        bytesAt (pairBody x.bytes) 8 3 = rd (stateAt hS 2) (pairA 84) ∧ unitA (stateAt hS 2) = true) ∧
                      max (epoch (stateAt hS 2))
                            (max (max (peerEpoch (stateAt hS 2)) (bytesAt (pairBody x.bytes) 4 3))
                              (rd (stateAt hS 2) (pairA 84))) +
                          1 ≤
                        16777215))
        sample3[0]? =
      true) ∧
    (Option.any
        (fun (x : PairRx) =>
          decide
            (((laneActive (stateAt hS 0) (48 + x.lane % 4) = true ∧
                  pairSound x.bytes = true ∧
                    bytesAt x.bytes 0 1 = 1 ∧
                      (∀ u ∈ (stateAt hS 0).pair.unacked, seqLe u.1 (bytesAt x.bytes 8 4) = false) ∧
                        (1 = 1 → (stateAt hS 0).pair.hbLost = false)) ∧
                bytesAt x.bytes 4 4 = nextSeq (stateAt hS 0).pair.rxSeq ∧
                  (stateAt hS 0).pair.early = [] ∧ (stateAt hS 0).pair.partial_ = none) ∧
              helloReason (stateAt hS 0) (pairBody x.bytes) = 0 ∧
                (stateAt hS 0).pair.role = 1 ∧
                  bytesAt (pairBody x.bytes) 3 1 % 16 = 1 ∧
                    (rd (stateAt hS 0) (pairA 84) < bytesAt (pairBody x.bytes) 8 3 ∨
                      bytesAt (pairBody x.bytes) 8 3 = rd (stateAt hS 0) (pairA 84) ∧ unitA (stateAt hS 0) = false)))
        sample3[0]? =
      true) ∧
    (Option.any
        (fun (x : PairRx) =>
          decide
            (((laneActive (stateAt hS 4) (48 + x.lane % 4) = true ∧
                  pairSound x.bytes = true ∧
                    bytesAt x.bytes 0 1 = 1 ∧
                      (∀ u ∈ (stateAt hS 4).pair.unacked, seqLe u.1 (bytesAt x.bytes 8 4) = false) ∧
                        (1 = 1 → (stateAt hS 4).pair.hbLost = false)) ∧
                bytesAt x.bytes 4 4 = nextSeq (stateAt hS 4).pair.rxSeq ∧
                  (stateAt hS 4).pair.early = [] ∧ (stateAt hS 4).pair.partial_ = none) ∧
              helloReason (stateAt hS 4) (pairBody x.bytes) = 0 ∧
                (stateAt hS 4).pair.role = 3 ∧ bytesAt (pairBody x.bytes) 3 1 % 16 = 5))
        sample3[3]? =
      true) ∧
    (Option.any
        (fun (x : PairRx) =>
          decide
            (((laneActive (stateAt hS 5) (48 + x.lane % 4) = true ∧
                  pairSound x.bytes = true ∧
                    bytesAt x.bytes 0 1 = 1 ∧
                      (∀ u ∈ (stateAt hS 5).pair.unacked, seqLe u.1 (bytesAt x.bytes 8 4) = false) ∧
                        (1 = 1 → (stateAt hS 5).pair.hbLost = false)) ∧
                bytesAt x.bytes 4 4 = nextSeq (stateAt hS 5).pair.rxSeq ∧
                  (stateAt hS 5).pair.early = [] ∧ (stateAt hS 5).pair.partial_ = none) ∧
              helloReason (stateAt hS 5) (pairBody x.bytes) = 0 ∧
                (stateAt hS 5).pair.role = 2 ∧ bytesAt (pairBody x.bytes) 3 1 % 16 = 4))
        sample3[4]? =
      true) ∧
    (Option.any
        (fun (x : PairRx) =>
          decide
            ((laneActive (stateAt hS 0) (48 + x.lane % 4) = true ∧
                pairSound x.bytes = true ∧
                  bytesAt x.bytes 0 1 = 2 ∧
                    (∀ u ∈ (stateAt hS 0).pair.unacked, seqLe u.1 (bytesAt x.bytes 8 4) = false) ∧
                      (2 = 1 → (stateAt hS 0).pair.hbLost = false)) ∧
              paired (stateAt hS 0) = false))
        sample3[7]? =
      true) ∧
    (Option.any
        (fun (x : PairRx) =>
          decide
            ((laneActive (stateAt hS 9) (48 + x.lane % 4) = true ∧
                pairSound x.bytes = true ∧
                  bytesAt x.bytes 0 1 = 2 ∧
                    (∀ u ∈ (stateAt hS 9).pair.unacked, seqLe u.1 (bytesAt x.bytes 8 4) = false) ∧
                      (2 = 1 → (stateAt hS 9).pair.hbLost = false)) ∧
              paired (stateAt hS 9) = true ∧
                bytesAt (pairBody x.bytes) 0 1 % 16 ∉ [2, 3] ∧
                  ((stateAt hS 9).pair.role = 2 ∨ (stateAt hS 9).pair.role = 3)))
        sample3[7]? =
      true) ∧
    (Option.any
        (fun (x : PairRx) =>
          decide
            ((laneActive (stateAt hS 9) (48 + x.lane % 4) = true ∧
                pairSound x.bytes = true ∧
                  bytesAt x.bytes 0 1 = 2 ∧
                    (∀ u ∈ (stateAt hS 9).pair.unacked, seqLe u.1 (bytesAt x.bytes 8 4) = false) ∧
                      (2 = 1 → (stateAt hS 9).pair.hbLost = false)) ∧
              paired (stateAt hS 9) = true ∧
                (bytesAt (pairBody x.bytes) 0 1 % 16 = 2 ∨ bytesAt (pairBody x.bytes) 0 1 % 16 = 3) ∧
                  ((stateAt hS 9).pair.role = 2 ∨ (stateAt hS 9).pair.role = 3) ∧
                    rdb (stateAt hS 9) (pairA 64) 3 = false ∧
                      claimWord (stateAt hS 9) < bytesAt (pairBody x.bytes) 4 4))
        sample3[9]? =
      true) ∧
    (Option.any
        (fun (x : PairRx) =>
          decide
            ((laneActive (stateAt hS 9) (48 + x.lane % 4) = true ∧
                pairSound x.bytes = true ∧
                  bytesAt x.bytes 0 1 = 2 ∧
                    (∀ u ∈ (stateAt hS 9).pair.unacked, seqLe u.1 (bytesAt x.bytes 8 4) = false) ∧
                      (2 = 1 → (stateAt hS 9).pair.hbLost = false)) ∧
              paired (stateAt hS 9) = true ∧
                (bytesAt (pairBody x.bytes) 0 1 % 16 = 2 ∨ bytesAt (pairBody x.bytes) 0 1 % 16 = 3) ∧
                  ((stateAt hS 9).pair.role = 2 ∨ (stateAt hS 9).pair.role = 3) ∧
                    rdb (stateAt hS 9) (pairA 64) 3 = false ∧
                      bytesAt (pairBody x.bytes) 4 4 ≤ claimWord (stateAt hS 9)))
        sample3[8]? =
      true) :=
  ⟨by decide +kernel,
   decide_eq_true ⟨⟨⟨by decide +kernel, pairSound_message 1 1 _ 32 rfl (by decide) (by decide +kernel) (by decide +kernel), by decide +kernel, by decide +kernel, by decide +kernel⟩, by decide +kernel, rfl, rfl⟩,
    helloReason_zero _ _ (by decide +kernel) (by decide +kernel) (by decide +kernel) rfl (by decide +kernel), by decide +kernel⟩,
   decide_eq_true ⟨⟨⟨by decide +kernel, pairSound_message 1 1 _ 32 rfl (by decide) (by decide +kernel) (by decide +kernel), by decide +kernel, by decide +kernel, by decide +kernel⟩, by decide +kernel, rfl, rfl⟩,
    helloReason_zero _ _ (by decide +kernel) (by decide +kernel) (by decide +kernel) rfl (by decide +kernel), by decide +kernel⟩,
   decide_eq_true ⟨⟨⟨by decide +kernel, pairSound_message 1 1 _ 32 rfl (by decide) (by decide +kernel) (by decide +kernel), by decide +kernel, by decide +kernel, by decide +kernel⟩, by decide +kernel, rfl, rfl⟩,
    helloReason_zero _ _ (by decide +kernel) (by decide +kernel) (by decide +kernel) rfl (by decide +kernel), by decide +kernel⟩,
   decide_eq_true ⟨⟨⟨by decide +kernel, pairSound_message 1 1 _ 32 rfl (by decide) (by decide +kernel) (by decide +kernel), by decide +kernel, by decide +kernel, by decide +kernel⟩, by decide +kernel, rfl, rfl⟩,
    helloReason_zero _ _ (by decide +kernel) (by decide +kernel) (by decide +kernel) rfl (by decide +kernel), by decide +kernel⟩,
   decide_eq_true ⟨⟨⟨by decide +kernel, pairSound_message 1 1 _ 32 rfl (by decide) (by decide +kernel) (by decide +kernel), by decide +kernel, by decide +kernel, by decide +kernel⟩, by decide +kernel, rfl, rfl⟩,
    helloReason_zero _ _ (by decide +kernel) (by decide +kernel) (by decide +kernel) rfl (by decide +kernel), by decide +kernel⟩,
   by decide +kernel,
   by decide +kernel,
   by decide +kernel,
   by decide +kernel⟩

theorem witness_PairLoss :
    (Option.any
        (fun (x : PairRx) =>
          decide
            ((if false = true then
                (laneActive (stateAt oS 0) (48 + x.lane % 4) = true ∧
                    pairSound x.bytes = true ∧
                      bytesAt x.bytes 0 1 = 48 ∧
                        (∀ u ∈ (stateAt oS 0).pair.unacked, seqLe u.1 (bytesAt x.bytes 8 4) = false) ∧
                          (48 = 1 → (stateAt oS 0).pair.hbLost = false)) ∧
                  bytesAt x.bytes 4 4 = nextSeq (stateAt oS 0).pair.rxSeq ∧
                    (stateAt oS 0).pair.early = [] ∧ (stateAt oS 0).pair.partial_ = none
              else paired (stateAt oS 0) = true ∧ (stateAt oS 0).pair.hbLost = false) ∧
              (stateAt oS 0).pair.role = 5 ∧
                max (epoch (stateAt oS 0)) (max (peerEpoch (stateAt oS 0)) (rd (stateAt oS 0) (pairA 84))) + 1 ≤
                  16777215))
        sample4[0]? =
      true) ∧
    (Option.any
        (fun (x : PairRx) =>
          decide
            ((if false = true then
                (laneActive (stateAt oS 1) (48 + x.lane % 4) = true ∧
                    pairSound x.bytes = true ∧
                      bytesAt x.bytes 0 1 = 48 ∧
                        (∀ u ∈ (stateAt oS 1).pair.unacked, seqLe u.1 (bytesAt x.bytes 8 4) = false) ∧
                          (48 = 1 → (stateAt oS 1).pair.hbLost = false)) ∧
                  bytesAt x.bytes 4 4 = nextSeq (stateAt oS 1).pair.rxSeq ∧
                    (stateAt oS 1).pair.early = [] ∧ (stateAt oS 1).pair.partial_ = none
              else paired (stateAt oS 1) = true ∧ (stateAt oS 1).pair.hbLost = false) ∧
              (stateAt oS 1).pair.role = 5 ∧
                16777215 <
                  max (epoch (stateAt oS 1)) (max (peerEpoch (stateAt oS 1)) (rd (stateAt oS 1) (pairA 84))) + 1))
        sample4[0]? =
      true) ∧
    (Option.any
        (fun (x : PairRx) =>
          decide
            ((if false = true then
                (laneActive (stateAt oS 2) (48 + x.lane % 4) = true ∧
                    pairSound x.bytes = true ∧
                      bytesAt x.bytes 0 1 = 48 ∧
                        (∀ u ∈ (stateAt oS 2).pair.unacked, seqLe u.1 (bytesAt x.bytes 8 4) = false) ∧
                          (48 = 1 → (stateAt oS 2).pair.hbLost = false)) ∧
                  bytesAt x.bytes 4 4 = nextSeq (stateAt oS 2).pair.rxSeq ∧
                    (stateAt oS 2).pair.early = [] ∧ (stateAt oS 2).pair.partial_ = none
              else paired (stateAt oS 2) = true ∧ (stateAt oS 2).pair.hbLost = false) ∧
              (stateAt oS 2).pair.role = 2))
        sample4[0]? =
      true) ∧
    (paired (stateAt oS 7) = false ∨ (stateAt oS 7).pair.hbLost = true) ∧
    (paired (stateAt oS 5) = true ∧
      (stateAt oS 5).pair.hbLost = false ∧ (stateAt oS 5).pair.role = 4 ∧ (stateAt oS 5).pair.joinStep ≠ 0) ∧
    ((stateAt oS 0).pair.role ≠ 2 ∨ (stateAt oS 0).pair.soloWait = false) ∧
    ((stateAt oS 6).pair.role = 2 ∧ (stateAt oS 6).pair.soloWait = true) ∧
    ((stateAt oS 0).pair.role ≠ 1) ∧
    ((stateAt oS 7).pair.role = 1 ∧ (stateAt oS 7).pair.peerSeen = false ∧ rdb (stateAt oS 7) (pairA 64) 2 = false) ∧
    ((stateAt oS 8).pair.role = 1 ∧
      rdb (stateAt oS 8) (pairA 64) 2 = true ∧
        ((stateAt oS 8).pair.sameUnit && pairLink (stateAt oS 8)) = false ∧
          max (epoch (stateAt oS 8)) (max (peerEpoch (stateAt oS 8)) (rd (stateAt oS 8) (pairA 84))) + 1 ≤ 16777215) ∧
    (paired (stateAt oS 9) = true ∧ (stateAt oS 9).pair.hbLost = true ∧ isActive (stateAt oS 9) = false) ∧
    ((stateAt oS 0).pair.hbLost = false ∨ isActive (stateAt oS 0) = true) := by
  decide +kernel

theorem witness_PairCommands :
    ((2, Instr.solo (Requester.core 1)) ∈
        [(1, Instr.switch (Requester.core 1)), (2, Instr.solo (Requester.core 1)), (4, Instr.join (Requester.core 1)),
          (8, Instr.leave (Requester.core 1))] ∧
      gate (stateAt cS 0) (pairA 72) 2 = none ∧
        (2 = 1 ∧ ¬((stateAt cS 0).pair.role = 2 ∧ (stateAt cS 0).pair.verified = true) ∨
          2 = 2 ∧ (stateAt cS 0).pair.role ≠ 1 ∧ (stateAt cS 0).pair.role ≠ 4 ∨
            2 = 2 ∧
                (stateAt cS 0).pair.role = 1 ∧ (stateAt cS 0).pair.sameUnit = true ∧ pairLink (stateAt cS 0) = true ∨
              2 = 4 ∧ (stateAt cS 0).pair.role ≠ 4 ∧ (stateAt cS 0).pair.role ≠ 6 ∨
                2 = 8 ∧ (stateAt cS 0).pair.role ≠ 5)) ∧
    (gate (stateAt cS 2) (pairA 72) 1 = none ∧
      (stateAt cS 2).pair.role = 2 ∧ (stateAt cS 2).pair.verified = true ∧ (stateAt cS 2).pair.switchPending = true) ∧
    (gate (stateAt cS 0) (pairA 72) 1 = none ∧
      (stateAt cS 0).pair.role = 2 ∧ (stateAt cS 0).pair.verified = true ∧ (stateAt cS 0).pair.switchPending = false) ∧
    (gate (stateAt cS 4) (pairA 72) 2 = none ∧
      max (epoch (stateAt cS 4)) (max (peerEpoch (stateAt cS 4)) (rd (stateAt cS 4) (pairA 84))) + 1 ≤ 16777215 ∧
        (stateAt cS 4).pair.role = 1 ∧ ((stateAt cS 4).pair.sameUnit && pairLink (stateAt cS 4)) = false) ∧
    (gate (stateAt cS 6) (pairA 72) 2 = none ∧
      max (epoch (stateAt cS 6)) (max (peerEpoch (stateAt cS 6)) (rd (stateAt cS 6) (pairA 84))) + 1 ≤ 16777215 ∧
        (stateAt cS 6).pair.role = 4) ∧
    (gate (stateAt cS 6) (pairA 72) 4 = none ∧
      peerActive (stateAt cS 6) = true ∧
        pairLink (stateAt cS 6) = true ∧ (stateAt cS 6).pair.role = 4 ∧ (stateAt cS 6).pair.joinStep = 0) ∧
    (gate (stateAt cS 7) (pairA 72) 4 = none ∧
      peerActive (stateAt cS 7) = true ∧
        pairLink (stateAt cS 7) = true ∧ (stateAt cS 7).pair.role = 6 ∧ (stateAt cS 7).sys.stopped = false) ∧
    (gate (stateAt cS 8) (pairA 72) 8 = none ∧ (stateAt cS 8).pair.role = 5) := by
  decide +kernel

end Pair

namespace Join

def pp := pressUp z
def pb (s : State) : State := put (setLane (setLane (ons s [0xA8, 0xA9, 0xC0, 0x48, 0x20]) 49 { state := 6, lock := true }) 48 { state := 6, lock := true }) 0xC0040 1
def pr (f : PairSt → PairSt) (s : State) : State := { s with pair := f s.pair }
def ro (k : Nat) (s : State) : State := pr (fun p => { p with role := k }) s
def msg (type seq : Nat) (body : List Byte) : PairRx := ⟨0, pairMessage type 0 seq 0 body⟩
def ps (s : State) : State := pr (fun p => { p with peerSeen := true }) (pb s)
def jobbed (s : State) : State := printAt (pressUp s) 0 5
def pin (k apply : Nat) (own : Bool) (pl : List Byte) : PairInput := { kind := k, late := false, apply := apply, bar := 0, payload := pl, seq := 0, own := own }
def md (f : State → State) (own : Bool) (k : Nat) : State := pr (fun p => { p with inputs := [pin 8 99999 true [], pin k 0 own []] }) (f (ps (jobbed z)))
def windowed (s : State) : State := { s with cams := { s.cams with ownWindows := [0] } }
def iS : List State := [ro 5 (ps (jobbed z)), ro 4 (ps (jobbed z)), ro 2 (ps (jobbed z)), ro 3 (ps (jobbed z)), windowed (ro 2 (ps (jobbed z))), ro 1 (ps z), md (ro 2) true 11, md (ro 5) false 11, md (ro 2) true 8, md (ro 5) false 8, z, ro 2 (ps z), pr (fun p => { p with role := 3, joinStep := 4 }) (ps (jobbed z))]
def sample1 : List (PairRx) := [msg 0x10 1 (inputBody 8 false false 3 0 []), msg 0x10 1 (inputBody 8 false true 3 0 []), msg 0x10 1 (inputBody 3 false true 3 0 (zeroBytes 30)), msg 0x10 1 (inputBody 11 false true 3 0 [])]
def sample2 : List (List PairInput) := [[], [pin 8 99999 true []], [pin 11 0 true []]]
def sample3 : List (PairInput) := iS.flatMap (fun s => s.pair.inputs)
def ce (p t : Bool) (crc : Nat) : CrcEntry := { line := 3, bar := 0, transient := t, persistent := p, crc := crc }
def oc (e : CrcEntry) (s : State) : State := { s with print := { s.print with ownCrcs := [e] } }
def vf (s : State) : State := pr (fun p => { p with verified := true }) s
def vS : List State := [ro 5 (ps (jobbed z)), ro 2 (ps (jobbed z))] ++ ([ce false false 1, ce false true 1, ce true false 1, ce true true 1].flatMap (fun e => [oc e (vf (ro 5 (ps (jobbed z)))), oc e (vf (ro 2 (ps (jobbed z)))), oc e (ro 2 (ps (jobbed z)))]))
def crcB : List Byte := leBytes 6 3 ++ leBytes 1 0 ++ leBytes 1 0 ++ leBytes 4 1
def sample4 : List (PairRx) := [msg 0x11 1 crcB, msg 0x11 1 (crcB ++ crcB)]
def sample5 : List (CrcEntry) := [ce false false 1, ce false true 1, ce true false 1, ce true true 2]
def hlS : List State := [ro 2 (ps (jobbed z)), pr (fun p => { p with role := 5, excused := 4 }) (ps (jobbed z)), pr (fun p => { p with role := 5, digestErr := true }) (ps (jobbed z)), pr (fun p => { p with role := 5, scrubErrs := 3 }) (ps (jobbed z))]
def sample6 : List (PairRx) := [msg 0x28 1 ((List.range 48).map (fun i => BitVec.ofNat 8 (i + 1)))]
def cb (k off : Nat) (d : List Byte) : PairRx := msg 0x20 1 (leBytes 1 k ++ leBytes 8 off ++ d)
def cc (d : List Byte) : PairRx := msg 0x21 1 d
def jn (role step : Nat) (s : State) : State := pr (fun p => { p with role := role, joinStep := step }) s
def chS : State := setChan (pr (fun p => { p with catchChans := [0, 1] }) { jn 4 4 (ps (jobbed z)) with clk := { (ps (jobbed z)).clk with state := 6 } }) 0 { (getChan (jobbed z) 0) with edges := [(5, 0)], marks := [(1, 2)] }
def jS : List State := [jn 2 0 (ps (jobbed z)), jn 4 2 (ps (jobbed z)), jn 4 3 (ps (jobbed z)), jn 3 4 (ps (jobbed z)), jn 3 3 (ps (jobbed z)), jn 3 0 (ps z), pr (fun p => { p with dirty := List.range 20 }) (jn 3 3 (put (ps (jobbed z)) 0xC0080 1)), pr (fun p => { p with dirty := [1] }) (jn 3 3 (put (ps (jobbed z)) 0xC0080 1)), jn 3 2 (ps z), chS, jn 4 0 (ps z)]
def pos (c t : Nat) : PairRx := msg 0x22 1 (leBytes 1 c ++ zeroBytes 1 ++ leBytes 6 t ++ leBytes 8 1000 ++ leBytes 8 2000 ++ leBytes 8 (2^64-3))
def c9 : List Byte := container [1#8, 2#8, 3#8, 4#8]
def tl (rec : Nat) (good : Bool) : State :=
  let s := storeUp (ro 2 (ps z))
  let s := { s with dram := { s.dram with mem := memWrite [] (granAddr s 2) c9 } }
  setTile (setJob s job9) { newTile 9 0 0 0 with state := 2, gran := 2, length := c9.length, recovery := rec, storeCrc := if good then crc32c c9 else 1 }
def treq (y : Nat) : PairRx := msg 0x31 1 (leBytes 4 9 ++ leBytes 1 0 ++ leBytes 1 0 ++ leBytes 6 y)
def tdat : PairRx := msg 0x32 1 (c9 ++ zeroBytes 0x18 ++ leBytes 4 (crc32c c9) ++ zeroBytes (64 - 0x1C))
def sample7 : List (State) := [tl 0 true, tl 0 false, tl 4 true, tl 5 true]
def sample8 : List (Tile) := [tl 0 true, tl 0 false, tl 4 true, tl 5 true].flatMap (fun s => s.print.tiles)
def sample9 : List (PairRx) := [treq 0, treq 1, tdat]

theorem witness_PairInputs :
    (Option.any
        (fun (x : PairRx) =>
          decide
            (((laneActive (stateAt iS 0) (48 + x.lane % 4) = true ∧
                  pairSound x.bytes = true ∧
                    bytesAt x.bytes 0 1 = 16 ∧
                      (∀ u ∈ (stateAt iS 0).pair.unacked, seqLe u.1 (bytesAt x.bytes 8 4) = false) ∧
                        (16 = 1 → (stateAt iS 0).pair.hbLost = false)) ∧
                bytesAt x.bytes 4 4 = nextSeq (stateAt iS 0).pair.rxSeq ∧
                  (stateAt iS 0).pair.early = [] ∧ (stateAt iS 0).pair.partial_ = none) ∧
              12 + bytesAt (pairBody x.bytes) 2 2 ≤ (pairBody x.bytes).length ∧
                bitOf (bytesAt (pairBody x.bytes) 1 1) 1 = false ∧
                  bytesAt (pairBody x.bytes) 0 1 ≠ 1 ∧ (stateAt iS 0).pair.role = 5))
        sample1[0]? =
      true) ∧
    (Option.any
        (fun (x : PairRx) =>
          decide
            (((laneActive (stateAt iS 2) (48 + x.lane % 4) = true ∧
                  pairSound x.bytes = true ∧
                    bytesAt x.bytes 0 1 = 16 ∧
                      (∀ u ∈ (stateAt iS 2).pair.unacked, seqLe u.1 (bytesAt x.bytes 8 4) = false) ∧
                        (16 = 1 → (stateAt iS 2).pair.hbLost = false)) ∧
                bytesAt x.bytes 4 4 = nextSeq (stateAt iS 2).pair.rxSeq ∧
                  (stateAt iS 2).pair.early = [] ∧ (stateAt iS 2).pair.partial_ = none) ∧
              12 + bytesAt (pairBody x.bytes) 2 2 ≤ (pairBody x.bytes).length ∧
                bitOf (bytesAt (pairBody x.bytes) 1 1) 1 = false ∧
                  (stateAt iS 2).pair.role ≠ 5 ∧ (stateAt iS 2).pair.role ≠ 4))
        sample1[0]? =
      true) ∧
    (Option.any
        (fun (x : PairRx) =>
          decide
            (((laneActive (stateAt iS 2) (48 + x.lane % 4) = true ∧
                  pairSound x.bytes = true ∧
                    bytesAt x.bytes 0 1 = 16 ∧
                      (∀ u ∈ (stateAt iS 2).pair.unacked, seqLe u.1 (bytesAt x.bytes 8 4) = false) ∧
                        (16 = 1 → (stateAt iS 2).pair.hbLost = false)) ∧
                bytesAt x.bytes 4 4 = nextSeq (stateAt iS 2).pair.rxSeq ∧
                  (stateAt iS 2).pair.early = [] ∧ (stateAt iS 2).pair.partial_ = none) ∧
              12 + bytesAt (pairBody x.bytes) 2 2 ≤ (pairBody x.bytes).length ∧
                bitOf (bytesAt (pairBody x.bytes) 1 1) 1 = true ∧
                  isActive (stateAt iS 2) = true ∧
                    measuredHere (stateAt iS 2) (bytesAt (pairBody x.bytes) 0 1) (List.drop 12 (pairBody x.bytes)) =
                      false))
        sample1[1]? =
      true) ∧
    (Option.any
        (fun (x : PairRx) =>
          decide
            (((laneActive (stateAt iS 0) (48 + x.lane % 4) = true ∧
                  pairSound x.bytes = true ∧
                    bytesAt x.bytes 0 1 = 16 ∧
                      (∀ u ∈ (stateAt iS 0).pair.unacked, seqLe u.1 (bytesAt x.bytes 8 4) = false) ∧
                        (16 = 1 → (stateAt iS 0).pair.hbLost = false)) ∧
                bytesAt x.bytes 4 4 = nextSeq (stateAt iS 0).pair.rxSeq ∧
                  (stateAt iS 0).pair.early = [] ∧ (stateAt iS 0).pair.partial_ = none) ∧
              12 + bytesAt (pairBody x.bytes) 2 2 ≤ (pairBody x.bytes).length ∧
                bitOf (bytesAt (pairBody x.bytes) 1 1) 1 = true ∧
                  (isActive (stateAt iS 0) = false ∨
                    measuredHere (stateAt iS 0) (bytesAt (pairBody x.bytes) 0 1) (List.drop 12 (pairBody x.bytes)) =
                      true)))
        sample1[1]? =
      true) ∧
    (∀ i ∈ (stateAt iS 0).pair.inputs, dueHere (stateAt iS 0) i = false) ∧
    (Option.any
        (fun (x : List PairInput) =>
          decide
            (Option.any
                (fun (x_1 : List PairInput) =>
                  decide
                    (Option.any
                        (fun (x_2 : PairInput) =>
                          decide
                            ((stateAt iS 6).pair.inputs = x ++ x_2 :: x_1 ∧
                              (∀ x_3 ∈ x, dueHere (stateAt iS 6) x_3 = false) ∧ dueHere (stateAt iS 6) x_2 = true))
                        sample3[1]? =
                      true))
                sample2[0]? =
              true))
        sample2[1]? =
      true) ∧
    (Option.any
        (fun (x : List PairInput) =>
          decide
            (Option.any
                (fun (x_1 : List PairInput) =>
                  decide
                    (Option.any
                        (fun (x_2 : PairInput) =>
                          decide
                            ((stateAt iS 6).pair.inputs = x ++ x_2 :: x_1 ∧
                              (∀ x_3 ∈ x, dueHere (stateAt iS 6) x_3 = false) ∧
                                dueHere (stateAt iS 6) x_2 = true ∧
                                  x_2.kind = 11 ∧ epoch (stateAt iS 6) < 16777215 ∧ (stateAt iS 6).pair.role = 2))
                        sample3[1]? =
                      true))
                sample2[0]? =
              true))
        sample2[1]? =
      true) ∧
    (Option.any
        (fun (x : List PairInput) =>
          decide
            (Option.any
                (fun (x_1 : List PairInput) =>
                  decide
                    (Option.any
                        (fun (x_2 : PairInput) =>
                          decide
                            ((stateAt iS 7).pair.inputs = x ++ x_2 :: x_1 ∧
                              (∀ x_3 ∈ x, dueHere (stateAt iS 7) x_3 = false) ∧
                                dueHere (stateAt iS 7) x_2 = true ∧
                                  x_2.kind = 11 ∧ epoch (stateAt iS 7) < 16777215 ∧ (stateAt iS 7).pair.role = 5))
                        sample3[3]? =
                      true))
                sample2[0]? =
              true))
        sample2[1]? =
      true) ∧
    (isActive (stateAt iS 0) = false ∨ partnered (stateAt iS 0) = false) ∧
    (isActive (stateAt iS 2) = true ∧ partnered (stateAt iS 2) = true) := by
  decide +kernel

theorem witness_PairVerify :
    (((stateAt vS 0).print.ownCrcs.any fun (e : CrcEntry) => e.line == 3 && e.bar == 3) = false) ∧
    (Option.any
        (fun (e : CrcEntry) => decide ((stateAt vS 2).pair.role = 5 ∧ (e.persistent = true ∨ e.transient = false)))
        (List.find? (fun (e : CrcEntry) => e.line == 3 && e.bar == 0) (stateAt vS 2).print.ownCrcs) =
      true) ∧
    (Option.any (fun (e : CrcEntry) => decide ((stateAt vS 5).pair.role = 5 ∧ e.persistent = false ∧ e.transient = true))
        (List.find? (fun (e : CrcEntry) => e.line == 3 && e.bar == 0) (stateAt vS 5).print.ownCrcs) =
      true) ∧
    (Option.any
        (fun (e : CrcEntry) => decide ((stateAt vS 3).pair.role = 2 ∧ e.persistent = false ∧ e.transient = false))
        (List.find? (fun (e : CrcEntry) => e.line == 3 && e.bar == 0) (stateAt vS 3).print.ownCrcs) =
      true) ∧
    (Option.any (fun (e : CrcEntry) => decide ((stateAt vS 6).pair.role = 2 ∧ e.persistent = false ∧ e.transient = true))
        (List.find? (fun (e : CrcEntry) => e.line == 3 && e.bar == 0) (stateAt vS 6).print.ownCrcs) =
      true) ∧
    (Option.any
        (fun (e : CrcEntry) =>
          decide ((stateAt vS 9).pair.role = 2 ∧ e.persistent = true ∧ (stateAt vS 9).pair.verified = true))
        (List.find? (fun (e : CrcEntry) => e.line == 3 && e.bar == 0) (stateAt vS 9).print.ownCrcs) =
      true) ∧
    (Option.any
        (fun (x : PairRx) =>
          decide
            (((laneActive (stateAt vS 0) (48 + x.lane % 4) = true ∧
                  pairSound x.bytes = true ∧
                    bytesAt x.bytes 0 1 = 17 ∧
                      (∀ u ∈ (stateAt vS 0).pair.unacked, seqLe u.1 (bytesAt x.bytes 8 4) = false) ∧
                        (17 = 1 → (stateAt vS 0).pair.hbLost = false)) ∧
                bytesAt x.bytes 4 4 = nextSeq (stateAt vS 0).pair.rxSeq ∧
                  (stateAt vS 0).pair.early = [] ∧ (stateAt vS 0).pair.partial_ = none) ∧
              (stateAt vS 0).print.ownCrcs = []))
        sample4[0]? =
      true) ∧
    (Option.any
        (fun (x : CrcEntry) =>
          decide (Option.any (fun (x_1 : CrcEntry) => decide (x.crc = x_1.crc)) sample5[0]? = true))
        sample5[0]? =
      true) := by
  decide +kernel

theorem witness_PairHealth :
    (Option.any
        (fun (x : PairRx) =>
          decide
            ((laneActive (stateAt hlS 0) (48 + x.lane % 4) = true ∧
                pairSound x.bytes = true ∧
                  bytesAt x.bytes 0 1 = 40 ∧
                    (∀ u ∈ (stateAt hlS 0).pair.unacked, seqLe u.1 (bytesAt x.bytes 8 4) = false) ∧
                      (40 = 1 → (stateAt hlS 0).pair.hbLost = false)) ∧
              bytesAt x.bytes 4 4 = nextSeq (stateAt hlS 0).pair.rxSeq ∧
                (stateAt hlS 0).pair.early = [] ∧ (stateAt hlS 0).pair.partial_ = none))
        sample6[0]? =
      true) ∧
    ((stateAt hlS 0).pair.role ≠ 5) ∧
    ((stateAt hlS 1).pair.role = 5 ∧ (stateAt hlS 1).pair.digestErr = false ∧ (stateAt hlS 1).pair.scrubErrs = 0) ∧
    ((stateAt hlS 2).pair.role = 5 ∧ ((stateAt hlS 2).pair.digestErr = true ∨ (stateAt hlS 2).pair.scrubErrs ≠ 0)) := by
  decide +kernel

theorem witness_PairCopy :
    (((laneActive (stateAt jS 0) (48 + (cb 0 426048 [1#8, 2#8, 3#8, 4#8]).lane % 4) = true ∧
          pairSound (cb 0 426048 [1#8, 2#8, 3#8, 4#8]).bytes = true ∧
            bytesAt (cb 0 426048 [1#8, 2#8, 3#8, 4#8]).bytes 0 1 = 32 ∧
              (∀ u ∈ (stateAt jS 0).pair.unacked,
                  seqLe u.1 (bytesAt (cb 0 426048 [1#8, 2#8, 3#8, 4#8]).bytes 8 4) = false) ∧
                (32 = 1 → (stateAt jS 0).pair.hbLost = false)) ∧
        bytesAt (cb 0 426048 [1#8, 2#8, 3#8, 4#8]).bytes 4 4 = nextSeq (stateAt jS 0).pair.rxSeq ∧
          (stateAt jS 0).pair.early = [] ∧ (stateAt jS 0).pair.partial_ = none) ∧
      (stateAt jS 0).pair.role ≠ 4 ∧ (stateAt jS 0).pair.role ≠ 5) ∧
    (((laneActive (stateAt jS 1) (48 + (cb 0 426048 [1#8, 2#8, 3#8, 4#8]).lane % 4) = true ∧
          pairSound (cb 0 426048 [1#8, 2#8, 3#8, 4#8]).bytes = true ∧
            bytesAt (cb 0 426048 [1#8, 2#8, 3#8, 4#8]).bytes 0 1 = 32 ∧
              (∀ u ∈ (stateAt jS 1).pair.unacked,
                  seqLe u.1 (bytesAt (cb 0 426048 [1#8, 2#8, 3#8, 4#8]).bytes 8 4) = false) ∧
                (32 = 1 → (stateAt jS 1).pair.hbLost = false)) ∧
        bytesAt (cb 0 426048 [1#8, 2#8, 3#8, 4#8]).bytes 4 4 = nextSeq (stateAt jS 1).pair.rxSeq ∧
          (stateAt jS 1).pair.early = [] ∧ (stateAt jS 1).pair.partial_ = none) ∧
      (stateAt jS 1).pair.role = 4 ∧
        2 ≤ (stateAt jS 1).pair.joinStep ∧
          bytesAt (pairBody (cb 0 426048 [1#8, 2#8, 3#8, 4#8]).bytes) 0 1 = 0 ∧
            copiedWord (bytesAt (pairBody (cb 0 426048 [1#8, 2#8, 3#8, 4#8]).bytes) 1 8) = true) ∧
    (((laneActive (stateAt jS 1) (48 + (cb 0 786516 [1#8, 2#8, 3#8, 4#8]).lane % 4) = true ∧
          pairSound (cb 0 786516 [1#8, 2#8, 3#8, 4#8]).bytes = true ∧
            bytesAt (cb 0 786516 [1#8, 2#8, 3#8, 4#8]).bytes 0 1 = 32 ∧
              (∀ u ∈ (stateAt jS 1).pair.unacked,
                  seqLe u.1 (bytesAt (cb 0 786516 [1#8, 2#8, 3#8, 4#8]).bytes 8 4) = false) ∧
                (32 = 1 → (stateAt jS 1).pair.hbLost = false)) ∧
        bytesAt (cb 0 786516 [1#8, 2#8, 3#8, 4#8]).bytes 4 4 = nextSeq (stateAt jS 1).pair.rxSeq ∧
          (stateAt jS 1).pair.early = [] ∧ (stateAt jS 1).pair.partial_ = none) ∧
      (stateAt jS 1).pair.role = 4 ∧
        2 ≤ (stateAt jS 1).pair.joinStep ∧
          bytesAt (pairBody (cb 0 786516 [1#8, 2#8, 3#8, 4#8]).bytes) 0 1 = 0 ∧
            copiedWord (bytesAt (pairBody (cb 0 786516 [1#8, 2#8, 3#8, 4#8]).bytes) 1 8) = false) ∧
    (((laneActive (stateAt jS 1) (48 + (cb 1 393288 [1#8, 2#8, 3#8, 4#8]).lane % 4) = true ∧
          pairSound (cb 1 393288 [1#8, 2#8, 3#8, 4#8]).bytes = true ∧
            bytesAt (cb 1 393288 [1#8, 2#8, 3#8, 4#8]).bytes 0 1 = 32 ∧
              (∀ u ∈ (stateAt jS 1).pair.unacked,
                  seqLe u.1 (bytesAt (cb 1 393288 [1#8, 2#8, 3#8, 4#8]).bytes 8 4) = false) ∧
                (32 = 1 → (stateAt jS 1).pair.hbLost = false)) ∧
        bytesAt (cb 1 393288 [1#8, 2#8, 3#8, 4#8]).bytes 4 4 = nextSeq (stateAt jS 1).pair.rxSeq ∧
          (stateAt jS 1).pair.early = [] ∧ (stateAt jS 1).pair.partial_ = none) ∧
      (stateAt jS 1).pair.role = 4 ∧
        2 ≤ (stateAt jS 1).pair.joinStep ∧
          bytesAt (pairBody (cb 1 393288 [1#8, 2#8, 3#8, 4#8]).bytes) 0 1 = 1 ∧
            copiedWord (bytesAt (pairBody (cb 1 393288 [1#8, 2#8, 3#8, 4#8]).bytes) 1 8) = true) ∧
    (((laneActive (stateAt jS 1) (48 + (cb 4 4096 [1#8, 2#8, 3#8]).lane % 4) = true ∧
          pairSound (cb 4 4096 [1#8, 2#8, 3#8]).bytes = true ∧
            bytesAt (cb 4 4096 [1#8, 2#8, 3#8]).bytes 0 1 = 32 ∧
              (∀ u ∈ (stateAt jS 1).pair.unacked, seqLe u.1 (bytesAt (cb 4 4096 [1#8, 2#8, 3#8]).bytes 8 4) = false) ∧
                (32 = 1 → (stateAt jS 1).pair.hbLost = false)) ∧
        bytesAt (cb 4 4096 [1#8, 2#8, 3#8]).bytes 4 4 = nextSeq (stateAt jS 1).pair.rxSeq ∧
          (stateAt jS 1).pair.early = [] ∧ (stateAt jS 1).pair.partial_ = none) ∧
      (stateAt jS 1).pair.role = 4 ∧
        2 ≤ (stateAt jS 1).pair.joinStep ∧
          bytesAt (pairBody (cb 4 4096 [1#8, 2#8, 3#8]).bytes) 0 1 = 4 ∧ memWf (stateAt jS 1).dram.mem = true) ∧
    (((laneActive (stateAt jS 0) (48 + (cc [1#8, 2#8, 1#8, 0#8]).lane % 4) = true ∧
          pairSound (cc [1#8, 2#8, 1#8, 0#8]).bytes = true ∧
            bytesAt (cc [1#8, 2#8, 1#8, 0#8]).bytes 0 1 = 33 ∧
              (∀ u ∈ (stateAt jS 0).pair.unacked, seqLe u.1 (bytesAt (cc [1#8, 2#8, 1#8, 0#8]).bytes 8 4) = false) ∧
                (33 = 1 → (stateAt jS 0).pair.hbLost = false)) ∧
        bytesAt (cc [1#8, 2#8, 1#8, 0#8]).bytes 4 4 = nextSeq (stateAt jS 0).pair.rxSeq ∧
          (stateAt jS 0).pair.early = [] ∧ (stateAt jS 0).pair.partial_ = none) ∧
      (stateAt jS 0).pair.role ≠ 3 ∧ (stateAt jS 0).pair.role ≠ 4) ∧
    (((laneActive (stateAt jS 1) (48 + (cc [1#8, 2#8, 1#8, 0#8]).lane % 4) = true ∧
          pairSound (cc [1#8, 2#8, 1#8, 0#8]).bytes = true ∧
            bytesAt (cc [1#8, 2#8, 1#8, 0#8]).bytes 0 1 = 33 ∧
              (∀ u ∈ (stateAt jS 1).pair.unacked, seqLe u.1 (bytesAt (cc [1#8, 2#8, 1#8, 0#8]).bytes 8 4) = false) ∧
                (33 = 1 → (stateAt jS 1).pair.hbLost = false)) ∧
        bytesAt (cc [1#8, 2#8, 1#8, 0#8]).bytes 4 4 = nextSeq (stateAt jS 1).pair.rxSeq ∧
          (stateAt jS 1).pair.early = [] ∧ (stateAt jS 1).pair.partial_ = none) ∧
      (stateAt jS 1).pair.role = 4 ∧
        bytesAt (pairBody (cc [1#8, 2#8, 1#8, 0#8]).bytes) 0 1 = 1 ∧
          bytesAt (pairBody (cc [1#8, 2#8, 1#8, 0#8]).bytes) 1 1 = 2) ∧
    (((laneActive (stateAt jS 1) (48 + (cc [1#8, 3#8]).lane % 4) = true ∧
          pairSound (cc [1#8, 3#8]).bytes = true ∧
            bytesAt (cc [1#8, 3#8]).bytes 0 1 = 33 ∧
              (∀ u ∈ (stateAt jS 1).pair.unacked, seqLe u.1 (bytesAt (cc [1#8, 3#8]).bytes 8 4) = false) ∧
                (33 = 1 → (stateAt jS 1).pair.hbLost = false)) ∧
        bytesAt (cc [1#8, 3#8]).bytes 4 4 = nextSeq (stateAt jS 1).pair.rxSeq ∧
          (stateAt jS 1).pair.early = [] ∧ (stateAt jS 1).pair.partial_ = none) ∧
      (stateAt jS 1).pair.role = 4 ∧
        bytesAt (pairBody (cc [1#8, 3#8]).bytes) 0 1 = 1 ∧ bytesAt (pairBody (cc [1#8, 3#8]).bytes) 1 1 = 3) ∧
    (((laneActive (stateAt jS 1) (48 + (cc [1#8, 4#8]).lane % 4) = true ∧
          pairSound (cc [1#8, 4#8]).bytes = true ∧
            bytesAt (cc [1#8, 4#8]).bytes 0 1 = 33 ∧
              (∀ u ∈ (stateAt jS 1).pair.unacked, seqLe u.1 (bytesAt (cc [1#8, 4#8]).bytes 8 4) = false) ∧
                (33 = 1 → (stateAt jS 1).pair.hbLost = false)) ∧
        bytesAt (cc [1#8, 4#8]).bytes 4 4 = nextSeq (stateAt jS 1).pair.rxSeq ∧
          (stateAt jS 1).pair.early = [] ∧ (stateAt jS 1).pair.partial_ = none) ∧
      (stateAt jS 1).pair.role = 4 ∧
        bytesAt (pairBody (cc [1#8, 4#8]).bytes) 0 1 = 1 ∧ bytesAt (pairBody (cc [1#8, 4#8]).bytes) 1 1 = 4) ∧
    (((laneActive (stateAt jS 3) (48 + (cc [1#8, 5#8]).lane % 4) = true ∧
          pairSound (cc [1#8, 5#8]).bytes = true ∧
            bytesAt (cc [1#8, 5#8]).bytes 0 1 = 33 ∧
              (∀ u ∈ (stateAt jS 3).pair.unacked, seqLe u.1 (bytesAt (cc [1#8, 5#8]).bytes 8 4) = false) ∧
                (33 = 1 → (stateAt jS 3).pair.hbLost = false)) ∧
        bytesAt (cc [1#8, 5#8]).bytes 4 4 = nextSeq (stateAt jS 3).pair.rxSeq ∧
          (stateAt jS 3).pair.early = [] ∧ (stateAt jS 3).pair.partial_ = none) ∧
      (stateAt jS 3).pair.role = 3 ∧
        bytesAt (pairBody (cc [1#8, 5#8]).bytes) 0 1 = 1 ∧
          bytesAt (pairBody (cc [1#8, 5#8]).bytes) 1 1 = 5 ∧ (stateAt jS 3).pair.joinStep = 4) ∧
    (((laneActive (stateAt jS 3) (48 + (cc [1#8, 1#8]).lane % 4) = true ∧
          pairSound (cc [1#8, 1#8]).bytes = true ∧
            bytesAt (cc [1#8, 1#8]).bytes 0 1 = 33 ∧
              (∀ u ∈ (stateAt jS 3).pair.unacked, seqLe u.1 (bytesAt (cc [1#8, 1#8]).bytes 8 4) = false) ∧
                (33 = 1 → (stateAt jS 3).pair.hbLost = false)) ∧
        bytesAt (cc [1#8, 1#8]).bytes 4 4 = nextSeq (stateAt jS 3).pair.rxSeq ∧
          (stateAt jS 3).pair.early = [] ∧ (stateAt jS 3).pair.partial_ = none) ∧
      (stateAt jS 3).pair.role = 3 ∧
        bytesAt (pairBody (cc [1#8, 1#8]).bytes) 0 1 = 1 ∧ bytesAt (pairBody (cc [1#8, 1#8]).bytes) 1 1 = 1) ∧
    (((laneActive (stateAt jS 3) (48 + (cc [1#8, 0#8]).lane % 4) = true ∧
          pairSound (cc [1#8, 0#8]).bytes = true ∧
            bytesAt (cc [1#8, 0#8]).bytes 0 1 = 33 ∧
              (∀ u ∈ (stateAt jS 3).pair.unacked, seqLe u.1 (bytesAt (cc [1#8, 0#8]).bytes 8 4) = false) ∧
                (33 = 1 → (stateAt jS 3).pair.hbLost = false)) ∧
        bytesAt (cc [1#8, 0#8]).bytes 4 4 = nextSeq (stateAt jS 3).pair.rxSeq ∧
          (stateAt jS 3).pair.early = [] ∧ (stateAt jS 3).pair.partial_ = none) ∧
      (stateAt jS 3).pair.role = 3 ∧
        bytesAt (pairBody (cc [1#8, 0#8]).bytes) 0 1 = 1 ∧ bytesAt (pairBody (cc [1#8, 0#8]).bytes) 1 1 = 0) ∧
    ((stateAt jS 0).pair.role ≠ 3 ∨ (stateAt jS 0).pair.joinStep ≠ 3 ∨ mayThrottled (stateAt jS 0) = false) ∧
    ((stateAt jS 4).pair.role = 3 ∧ (stateAt jS 4).pair.joinStep = 3 ∧ mayThrottled (stateAt jS 4) = true) ∧
    ((stateAt jS 0).pair.role ≠ 4 ∨ (stateAt jS 0).pair.joinStep ∉ [2, 3]) ∧
    ((stateAt jS 1).pair.role = 4 ∧ ((stateAt jS 1).pair.joinStep = 2 ∨ (stateAt jS 1).pair.joinStep = 3)) ∧
    (((laneActive (stateAt jS 0) (48 + (pos 0 0).lane % 4) = true ∧
          pairSound (pos 0 0).bytes = true ∧
            bytesAt (pos 0 0).bytes 0 1 = 34 ∧
              (∀ u ∈ (stateAt jS 0).pair.unacked, seqLe u.1 (bytesAt (pos 0 0).bytes 8 4) = false) ∧
                (34 = 1 → (stateAt jS 0).pair.hbLost = false)) ∧
        bytesAt (pos 0 0).bytes 4 4 = nextSeq (stateAt jS 0).pair.rxSeq ∧
          (stateAt jS 0).pair.early = [] ∧ (stateAt jS 0).pair.partial_ = none) ∧
      ((stateAt jS 0).pair.role ≠ 4 ∨
        (stateAt jS 0).pair.joinStep ≠ 4 ∨ bytesAt (pairBody (pos 0 0).bytes) 0 1 ∉ (stateAt jS 0).pair.catchChans)) ∧
    (((laneActive (stateAt jS 9) (48 + (pos 0 0).lane % 4) = true ∧
          pairSound (pos 0 0).bytes = true ∧
            bytesAt (pos 0 0).bytes 0 1 = 34 ∧
              (∀ u ∈ (stateAt jS 9).pair.unacked, seqLe u.1 (bytesAt (pos 0 0).bytes 8 4) = false) ∧
                (34 = 1 → (stateAt jS 9).pair.hbLost = false)) ∧
        bytesAt (pos 0 0).bytes 4 4 = nextSeq (stateAt jS 9).pair.rxSeq ∧
          (stateAt jS 9).pair.early = [] ∧ (stateAt jS 9).pair.partial_ = none) ∧
      (stateAt jS 9).pair.role = 4 ∧
        (stateAt jS 9).pair.joinStep = 4 ∧
          bytesAt (pairBody (pos 0 0).bytes) 0 1 ∈ (stateAt jS 9).pair.catchChans ∧
            (stateAt jS 9).clk.state = 6 ∧
              (stateAt jS 9).clk.pairOffset.natAbs ≤ pairLimit (stateAt jS 9) ∧
                matchLatch (getChan (stateAt jS 9) (bytesAt (pairBody (pos 0 0).bytes) 0 1))
                      (((↑(bytesAt (pairBody (pos 0 0).bytes) 2 6) : ℤ) + (stateAt jS 9).clk.pairOffset) %
                          (↑(2 ^ 48) : ℤ)).toNat =
                    some (5, 1, 2) ∧
                  ∃ d ∈ (stateAt jS 9).pair.catchChans, d ≠ bytesAt (pairBody (pos 0 0).bytes) 0 1) := by
  refine ⟨?_, ?_, ?_, ?_, ?_, ?_, ?_, ?_, ?_, ?_, ?_, ?_, ?_, ?_, ?_, ?_, ?_, ?_⟩ <;> decide +kernel

theorem witness_PairTiles :
    (Option.any
        (fun (x : PairRx) =>
          decide
            (((laneActive (stateAt sample7 0) (48 + x.lane % 4) = true ∧
                  pairSound x.bytes = true ∧
                    bytesAt x.bytes 0 1 = 49 ∧
                      (∀ u ∈ (stateAt sample7 0).pair.unacked, seqLe u.1 (bytesAt x.bytes 8 4) = false) ∧
                        (49 = 1 → (stateAt sample7 0).pair.hbLost = false)) ∧
                bytesAt x.bytes 4 4 = nextSeq (stateAt sample7 0).pair.rxSeq ∧
                  (stateAt sample7 0).pair.early = [] ∧ (stateAt sample7 0).pair.partial_ = none) ∧
              ∀ (x_1 : Tile),
                findTile (stateAt sample7 0) (bytesAt (pairBody x.bytes) 0 4) (bytesAt (pairBody x.bytes) 4 1)
                      (bytesAt (pairBody x.bytes) 5 1) (bytesAt (pairBody x.bytes) 6 6) =
                    some x_1 →
                  x_1.length = 0 ∨
                    crc32c (memRead (stateAt sample7 0).dram.mem (granAddr (stateAt sample7 0) x_1.gran) x_1.length) ≠
                      x_1.storeCrc))
        sample9[1]? =
      true) ∧
    (Option.any
        (fun (x : PairRx) =>
          decide
            (((laneActive (stateAt sample7 0) (48 + x.lane % 4) = true ∧
                  pairSound x.bytes = true ∧
                    bytesAt x.bytes 0 1 = 49 ∧
                      (∀ u ∈ (stateAt sample7 0).pair.unacked, seqLe u.1 (bytesAt x.bytes 8 4) = false) ∧
                        (49 = 1 → (stateAt sample7 0).pair.hbLost = false)) ∧
                bytesAt x.bytes 4 4 = nextSeq (stateAt sample7 0).pair.rxSeq ∧
                  (stateAt sample7 0).pair.early = [] ∧ (stateAt sample7 0).pair.partial_ = none) ∧
              Option.any
                  (fun (x : Tile) =>
                    decide
                      (x.length ≠ 0 ∧
                        crc32c (memRead (stateAt sample7 0).dram.mem (granAddr (stateAt sample7 0) x.gran) x.length) =
                          x.storeCrc))
                  (findTile (stateAt sample7 0) (bytesAt (pairBody x.bytes) 0 4) (bytesAt (pairBody x.bytes) 4 1)
                    (bytesAt (pairBody x.bytes) 5 1) (bytesAt (pairBody x.bytes) 6 6)) =
                true))
        sample9[0]? =
      true) ∧
    (Option.any
        (fun (x : PairRx) =>
          decide
            (((laneActive (stateAt sample7 0) (48 + x.lane % 4) = true ∧
                  pairSound x.bytes = true ∧
                    bytesAt x.bytes 0 1 = 50 ∧
                      (∀ u ∈ (stateAt sample7 0).pair.unacked, seqLe u.1 (bytesAt x.bytes 8 4) = false) ∧
                        (50 = 1 → (stateAt sample7 0).pair.hbLost = false)) ∧
                bytesAt x.bytes 4 4 = nextSeq (stateAt sample7 0).pair.rxSeq ∧
                  (stateAt sample7 0).pair.early = [] ∧ (stateAt sample7 0).pair.partial_ = none) ∧
              24 + bytesAt (pairBody x.bytes) 16 4 + 64 ≤ (pairBody x.bytes).length ∧
                ∀ (x_1 : Tile),
                  findTile (stateAt sample7 0)
                        (bytesAt (List.take (24 + bytesAt (pairBody x.bytes) 16 4) (pairBody x.bytes)) 4 4)
                        (bytesAt (List.take (24 + bytesAt (pairBody x.bytes) 16 4) (pairBody x.bytes)) 8 1)
                        (bytesAt (List.take (24 + bytesAt (pairBody x.bytes) 16 4) (pairBody x.bytes)) 9 1)
                        (bytesAt (List.take (24 + bytesAt (pairBody x.bytes) 16 4) (pairBody x.bytes)) 10 6) =
                      some x_1 →
                    x_1.recovery ≠ 4 ∧ x_1.recovery ≠ 5))
        sample9[2]? =
      true) ∧
    (Option.any
        (fun (x : PairRx) =>
          decide
            (((laneActive (stateAt sample7 2) (48 + x.lane % 4) = true ∧
                  pairSound x.bytes = true ∧
                    bytesAt x.bytes 0 1 = 50 ∧
                      (∀ u ∈ (stateAt sample7 2).pair.unacked, seqLe u.1 (bytesAt x.bytes 8 4) = false) ∧
                        (50 = 1 → (stateAt sample7 2).pair.hbLost = false)) ∧
                bytesAt x.bytes 4 4 = nextSeq (stateAt sample7 2).pair.rxSeq ∧
                  (stateAt sample7 2).pair.early = [] ∧ (stateAt sample7 2).pair.partial_ = none) ∧
              24 + bytesAt (pairBody x.bytes) 16 4 + 64 ≤ (pairBody x.bytes).length ∧
                Option.any
                    (fun (x_1 : Tile) =>
                      decide
                        (x_1.recovery = 4 ∧
                          crc32c (List.take (24 + bytesAt (pairBody x.bytes) 16 4) (pairBody x.bytes)) =
                              bytesAt (pairBody x.bytes) (24 + bytesAt (pairBody x.bytes) 16 4 + 24) 4 ∧
                            24 + bytesAt (pairBody x.bytes) 16 4 = x_1.length))
                    (findTile (stateAt sample7 2)
                      (bytesAt (List.take (24 + bytesAt (pairBody x.bytes) 16 4) (pairBody x.bytes)) 4 4)
                      (bytesAt (List.take (24 + bytesAt (pairBody x.bytes) 16 4) (pairBody x.bytes)) 8 1)
                      (bytesAt (List.take (24 + bytesAt (pairBody x.bytes) 16 4) (pairBody x.bytes)) 9 1)
                      (bytesAt (List.take (24 + bytesAt (pairBody x.bytes) 16 4) (pairBody x.bytes)) 10 6)) =
                  true))
        sample9[2]? =
      true) := by
  decide +kernel

end Join

namespace Motion

def ax (ctrl home : Nat) (f : Axis → Axis) : State :=
  let s := regs (ons z [0xC8, 0xC9, 0x40, 0x41, 0xD8, 0x48]) [(0xC8040, ctrl), (0xC80B4, home), (0xC80C4, 77), (0xC8054, 0x1000), (0xC8090, 0x10000), (0xC80A0, 0xFFFFFF00), (0xC80A4, 0xFFFF), (0xC80A8, 0x100), (0x40040, 1)]
  setAxis s 0 (f {})
def big : Int := 2 ^ 60
def fs : List (Axis → Axis) := [id, fun x => { x with sched := 3 }, fun x => { x with sched := 3, schedNeg := true }, fun x => { x with sched := 3, stepT := some 0 }, fun x => { x with sched := 3, dirT := some 0 },
  fun x => { x with plan := [(5, 2), (-5, 1)] }, fun x => { x with plan := [(5, 1)], target := 9 }, fun x => { x with qstop := true, v := big }, fun x => { x with qstop := true, v := -big }, fun x => { x with qstop := true, v := 5 }, fun x => { x with qstop := true, v := 0 },
  fun x => { x with geared := true, v := big }, fun x => { x with geared := true, pend := true, mp := 65536 * 4, m0 := 65536, p0 := 100, pendBelow := true }, fun x => { x with pend := true, mp := 0 }, fun x => { x with pend := true, mp := -5, pendBelow := true },
  fun x => { x with fault := true }, fun x => { x with limP := true }, fun x => { x with limN := true }, fun x => { x with v := big, p := 5 }, fun x => { x with act := 100000, pref := 3 }, fun x => { x with act := 100000, stalled := true },
  fun x => { x with waiting := 3 }, fun x => { x with homeIn := true }, fun x => { x with stopping := true, plan := [(5, 1)], v := 7 }]
  ++ (List.range 9).flatMap (fun h => [fun x => { x with homing := h, v := big }, fun x => { x with homing := h, homeRev := true }, fun x => { x with homing := h, limP := true, v := big }, fun x => { x with homing := h, homeIn := true }])
def aS (ctrls homes : List Nat) : List State := ctrls.flatMap (fun c => homes.flatMap (fun h => fs.map (fun f => ax c h f)))
def sample1 : List (List (Int × Nat)) := [[], [(-5, 1)]]
def sample2 : List (State) := aS [1, 0x81, 0x11, 0] [0] ++ (aS [1] [0]).map (fun s => regs s [(0xC8010, 0)]) ++ [{ ax 1 0 id with held := [(0xC8060, 50#32)] }, { ax 0x81 0 id with held := [(0xC8060, 50#32)] }]
def sample3 : List (State) := aS [1] [0, 1, 2, 3, 0x10, 0x12] ++ aS [2] [0x10]
def mv (s : State) (f : Channel → Channel) : State := setChan s 0 (f (getChan s 0))
def sample4 : List (State) := aS [2, 3, 0x8002, 0x8042, 1] [0] ++ (aS [2] [0]).map (fun s => mv s (fun c => { c with pos := 65536 * 9 })) ++ [mv (ax 2 0 id) (fun c => { c with reverse := true, pos := 5 })] ++ (aS [0x8002, 2] [0]).map (fun s => { s with sys := { s.sys with stopped := true } })
def cp (cfg : Nat) (f : Cmp → Cmp) (g : Channel → Channel) : State := mv (setCmp (regs (ax 1 0 (fun x => { x with act := 7, cmd := 7 * 65536, lastNeg := true })) [(cmpA 0 0, cfg), (cmpA 0 0x10, 4)]) 0 (f {})) g
def cfgs : List Nat := [0x80000000, 0xC0000000, 0x90000000, 0x92000000, 0xD0000000, 0xA0000000, 0x80000100, 0x88000000, 0x82000000, 0x82100000, 0x80100000, 0x00000000]
def sample5 : List (State) := cfgs.flatMap (fun c => [cp c id id, cp c (fun k => { k with armed := true, value := 0 }) id, cp c (fun k => { k with armed := true, value := 100 }) (fun ch => { ch with pos := 5 }), cp c (fun k => { k with armed := true, value := -3 }) (fun ch => { ch with pos := 5 }), cp c (fun k => { k with armed := true, value := 3, neg := true }) (fun ch => { ch with pos := -50, reverse := true }), put (cp c id id) (ownCmp 0) 2, cp c id (fun ch => { ch with pos := -50, reverse := true })])

theorem witness_AxisMotion :
    (0 < 16 ∧ (getAxis (stateAt sample2 0) 0).sched = 0) ∧
    (0 < 16 ∧ (getAxis (stateAt sample2 3) 0).sched ≠ 0 ∧ stepHeld (stateAt sample2 3) 0 = true) ∧
    (0 < 16 ∧ (getAxis (stateAt sample2 1) 0).sched ≠ 0 ∧ stepHeld (stateAt sample2 1) 0 = false) ∧
    (2 < 16 ∧ pgEn (stateAt sample2 0) (pgAx 2) = false) ∧
    (0 < 16 ∧
      pgEn (stateAt sample2 5) (pgAx 0) = true ∧
        (getAxis (stateAt sample2 5) 0).waiting = 0 ∧
          Option.any
              (fun (x : List (ℤ × ℕ)) =>
                decide
                  ((getAxis (stateAt sample2 5) 0).qstop = false ∧
                    (getAxis (stateAt sample2 5) 0).plan = (5, 2) :: x ∧ 1 < 2))
              sample1[1]? =
            true) ∧
    (0 < 16 ∧
      pgEn (stateAt sample2 6) (pgAx 0) = true ∧
        (getAxis (stateAt sample2 6) 0).waiting = 0 ∧
          (getAxis (stateAt sample2 6) 0).qstop = false ∧
            (getAxis (stateAt sample2 6) 0).plan = [(5, 1)] ∧
              (getAxis (stateAt sample2 6) 0).homing = 0 ∧ (getAxis (stateAt sample2 6) 0).stopping = false) ∧
    (0 < 16 ∧
      pgEn (stateAt sample2 7) (pgAx 0) = true ∧
        (getAxis (stateAt sample2 7) 0).waiting = 0 ∧ (getAxis (stateAt sample2 7) 0).qstop = true) ∧
    (0 < 16 ∧
      gate (stateAt sample2 0) (axA 0 100) (0#32).toNat = none ∧
        targetRefusal (stateAt sample2 0) 0
            (signed 48 (heldLow (stateAt sample2 0) (axA 0 96) + 2 ^ 32 * ((0#32).toNat % 65536))) =
          none) ∧
    (1 < 16 ∧
      gate (stateAt sample2 0) (axA 1 100) (0#32).toNat = none ∧
        (targetRefusal (stateAt sample2 0) 1
              (signed 48 (heldLow (stateAt sample2 0) (axA 1 96) + 2 ^ 32 * ((0#32).toNat % 65536)))).isSome =
          true) ∧
    (0 < 16 ∧ gate (stateAt sample2 0) (axA 0 208) (2 ^ 0) = none ∧ pgEn (stateAt sample2 0) (pgAx 0) = true) ∧
    (0 < 16 ∧ gate (stateAt sample2 0) (axA 0 208) (2 ^ 1) = none ∧ pgEn (stateAt sample2 0) (pgAx 0) = true) ∧
    (0 < 16 ∧
      (0, Instr.stop (Requester.core 1) 0) ∈
          [(0, Instr.stop (Requester.core 1) 0), (1, Instr.qstop (Requester.core 1) 0),
            (2, Instr.home (Requester.core 1) 0), (3, Instr.engage (Requester.core 1) 0),
            (4, Instr.disengage (Requester.core 1) 0), (5, Instr.setPos (Requester.core 1) 0),
            (6, Instr.axisClrFault (Requester.core 1) 0)] ∧
        gate (stateAt sample2 240) (axA 0 208) (2 ^ 0) = none ∧ pgEn (stateAt sample2 240) (pgAx 0) = false) := by
  decide +kernel

theorem witness_SoftLimits :
    (0 < 16 ∧
      gate (stateAt sample2 60) (axA 0 100) (5#32).toNat = none ∧
        axMode (stateAt sample2 60) 0 = 1 ∧
          pgEn (stateAt sample2 60) (pgAx 0) = true ∧
            (getAxis (stateAt sample2 60) 0).fault = false ∧
              (getAxis (stateAt sample2 60) 0).homing = 0 ∧
                rdb (stateAt sample2 60) (axA 0 64) 7 = true ∧
                  (signed 48 (heldLow (stateAt sample2 60) (axA 0 96) + 2 ^ 32 * ((5#32).toNat % 65536)) <
                      axSteps (stateAt sample2 60) 0 160 ∨
                    axSteps (stateAt sample2 60) 0 168 <
                      signed 48 (heldLow (stateAt sample2 60) (axA 0 96) + 2 ^ 32 * ((5#32).toNat % 65536)))) := by
  decide +kernel

theorem witness_HomingAndLimits :
    ((1 < 16 ∧ gate (stateAt sample3 0) (axA 1 208) (2 ^ 2) = none ∧ pgEn (stateAt sample3 0) (pgAx 1) = true) ∧
      ((getAxis (stateAt sample3 0) 1).geared = true ∨
        homeMethod (stateAt sample3 0) 1 = 3 ∨
          axMode (stateAt sample3 0) 1 ≠ 1 ∨ (getAxis (stateAt sample3 0) 1).fault = true)) ∧
    ((0 < 16 ∧ gate (stateAt sample3 17) (axA 0 208) (2 ^ 2) = none ∧ pgEn (stateAt sample3 17) (pgAx 0) = true) ∧
      ¬((getAxis (stateAt sample3 17) 0).geared = true ∨
            homeMethod (stateAt sample3 17) 0 = 3 ∨
              axMode (stateAt sample3 17) 0 ≠ 1 ∨ (getAxis (stateAt sample3 17) 0).fault = true) ∧
        (if homePos (stateAt sample3 17) 0 = true then (getAxis (stateAt sample3 17) 0).limP
            else (getAxis (stateAt sample3 17) 0).limN) =
            true ∧
          homeMethod (stateAt sample3 17) 0 ≠ 2) ∧
    ((0 < 16 ∧ gate (stateAt sample3 0) (axA 0 208) (2 ^ 2) = none ∧ pgEn (stateAt sample3 0) (pgAx 0) = true) ∧
      ¬((getAxis (stateAt sample3 0) 0).geared = true ∨
            homeMethod (stateAt sample3 0) 0 = 3 ∨
              axMode (stateAt sample3 0) 0 ≠ 1 ∨ (getAxis (stateAt sample3 0) 0).fault = true) ∧
        ((if homePos (stateAt sample3 0) 0 = true then (getAxis (stateAt sample3 0) 0).limP
              else (getAxis (stateAt sample3 0) 0).limN) =
              false ∨
            homeMethod (stateAt sample3 0) 0 = 2) ∧
          (homeMethod (stateAt sample3 0) 0 = 1 ∨ homeActive (stateAt sample3 0) 0 = false)) ∧
    ((0 < 16 ∧ gate (stateAt sample3 22) (axA 0 208) (2 ^ 2) = none ∧ pgEn (stateAt sample3 22) (pgAx 0) = true) ∧
      ¬((getAxis (stateAt sample3 22) 0).geared = true ∨
            homeMethod (stateAt sample3 22) 0 = 3 ∨
              axMode (stateAt sample3 22) 0 ≠ 1 ∨ (getAxis (stateAt sample3 22) 0).fault = true) ∧
        ((if homePos (stateAt sample3 22) 0 = true then (getAxis (stateAt sample3 22) 0).limP
              else (getAxis (stateAt sample3 22) 0).limN) =
              false ∨
            homeMethod (stateAt sample3 22) 0 = 2) ∧
          homeMethod (stateAt sample3 22) 0 ≠ 1 ∧ homeActive (stateAt sample3 22) 0 = true) ∧
    (0 < 16 ∧ ((getAxis (stateAt sample3 0) 0).homing = 0 ∨ homeMethod (stateAt sample3 0) 0 ≠ 0)) ∧
    (0 < 16 ∧
      homeMethod (stateAt sample3 28) 0 = 0 ∧
        (getAxis (stateAt sample3 28) 0).homing = 1 ∧ (getAxis (stateAt sample3 28) 0).homeRev = false ∧ true = true) ∧
    (0 < 16 ∧
      homeMethod (stateAt sample3 29) 0 = 0 ∧
        (getAxis (stateAt sample3 29) 0).homing = 1 ∧ (getAxis (stateAt sample3 29) 0).homeRev = true ∧ true = true) ∧
    (0 < 16 ∧ homeMethod (stateAt sample3 52) 0 = 0 ∧ (getAxis (stateAt sample3 52) 0).homing = 7 ∧ false = false) ∧
    (0 < 16 ∧ homeMethod (stateAt sample3 36) 0 = 0 ∧ (getAxis (stateAt sample3 36) 0).homing = 3 ∧ false = false) ∧
    (0 < 16 ∧ homeMethod (stateAt sample3 44) 0 = 0 ∧ (getAxis (stateAt sample3 44) 0).homing = 5 ∧ true = true) ∧
    (0 < 16 ∧ (getAxis (stateAt sample3 0) 0).homing = 0) ∧
    (0 < 16 ∧ (getAxis (stateAt sample3 28) 0).homing ≠ 0) ∧
    (0 < 16 ∧ limitOf (getAxis (stateAt sample3 16) 0) true = true) ∧
    (0 < 16 ∧
      limitOf (getAxis (stateAt sample3 0) 0) false = false ∧
        (getAxis (stateAt sample3 0) 0).homing = 0 ∧
          (getAxis (stateAt sample3 0) 0).busy = false ∧ (getAxis (stateAt sample3 0) 0).geared = false) ∧
    (0 < 16 ∧
      limitOf (getAxis (stateAt sample3 1) 0) false = false ∧
        (getAxis (stateAt sample3 1) 0).homing = 0 ∧
          ((getAxis (stateAt sample3 1) 0).busy = true ∨ (getAxis (stateAt sample3 1) 0).geared = true)) ∧
    (0 < 16 ∧
      limitOf (getAxis (stateAt sample3 28) 0) true = false ∧
        (getAxis (stateAt sample3 28) 0).homing ≠ 0 ∧
          (homeMethod (stateAt sample3 28) 0 ≠ 2 ∨ true ≠ homePos (stateAt sample3 28) 0) ∧
            ¬((getAxis (stateAt sample3 28) 0).homing = 1 ∧
                (getAxis (stateAt sample3 28) 0).homeRev = false ∧ true = homePos (stateAt sample3 28) 0)) ∧
    (0 < 16 ∧
      limitOf (getAxis (stateAt sample3 148) 0) false = false ∧
        (getAxis (stateAt sample3 148) 0).homing = 1 ∧
          homeMethod (stateAt sample3 148) 0 = 2 ∧ false = homePos (stateAt sample3 148) 0) ∧
    (0 < 16 ∧
      limitOf (getAxis (stateAt sample3 164) 0) false = false ∧
        (getAxis (stateAt sample3 164) 0).homing = 5 ∧
          homeMethod (stateAt sample3 164) 0 = 2 ∧ false = homePos (stateAt sample3 164) 0) ∧
    (0 < 16 ∧
      limitOf (getAxis (stateAt sample3 152) 0) false = false ∧
        (getAxis (stateAt sample3 152) 0).homing ≠ 0 ∧
          (getAxis (stateAt sample3 152) 0).homing ≠ 1 ∧
            (getAxis (stateAt sample3 152) 0).homing ≠ 5 ∧
              homeMethod (stateAt sample3 152) 0 = 2 ∧ false = homePos (stateAt sample3 152) 0) ∧
    (0 < 16 ∧
      limitOf (getAxis (stateAt sample3 28) 0) false = false ∧
        (getAxis (stateAt sample3 28) 0).homing = 1 ∧
          homeMethod (stateAt sample3 28) 0 ≠ 2 ∧
            (getAxis (stateAt sample3 28) 0).homeRev = false ∧ false = homePos (stateAt sample3 28) 0) ∧
    (0 < 16 ∧
      (getAxis (stateAt sample3 156) 0).homing = 3 ∧
        homeMethod (stateAt sample3 156) 0 = 2 ∧ false = homePos (stateAt sample3 156) 0) ∧
    (0 < 16 ∧ (getAxis (stateAt sample3 0) 0).homing ≠ 3) := by
  refine ⟨?_, ?_, ?_, ?_, ?_, ?_, ?_, ?_, ?_, ?_, ?_, ?_, ?_, ?_, ?_, ?_, ?_, ?_, ?_, ?_, ?_, ?_⟩ <;> decide +kernel

theorem witness_Gearing :
    ((1 < 16 ∧ gate (stateAt sample4 0) (axA 1 208) (2 ^ 3) = none ∧ pgEn (stateAt sample4 0) (pgAx 1) = true) ∧
      (axMode (stateAt sample4 0) 1 ≠ 2 ∧ axMode (stateAt sample4 0) 1 ≠ 3 ∨
        (getAxis (stateAt sample4 0) 1).busy = true ∧ (getAxis (stateAt sample4 0) 1).geared = false ∨
          posMode (stateAt sample4 0) (axMaster (stateAt sample4 0) 1) = 0 ∨
            (getAxis (stateAt sample4 0) 1).limP = true ∨
              (getAxis (stateAt sample4 0) 1).limN = true ∨ (getAxis (stateAt sample4 0) 1).fault = true)) ∧
    ((0 < 16 ∧ gate (stateAt sample4 0) (axA 0 208) (2 ^ 3) = none ∧ pgEn (stateAt sample4 0) (pgAx 0) = true) ∧
      ¬(axMode (stateAt sample4 0) 0 ≠ 2 ∧ axMode (stateAt sample4 0) 0 ≠ 3 ∨
          (getAxis (stateAt sample4 0) 0).busy = true ∧ (getAxis (stateAt sample4 0) 0).geared = false ∨
            posMode (stateAt sample4 0) (axMaster (stateAt sample4 0) 0) = 0 ∨
              (getAxis (stateAt sample4 0) 0).limP = true ∨
                (getAxis (stateAt sample4 0) 0).limN = true ∨ (getAxis (stateAt sample4 0) 0).fault = true)) ∧
    ((0 < 16 ∧ gate (stateAt sample4 0) (axA 0 208) (2 ^ 4) = none ∧ pgEn (stateAt sample4 0) (pgAx 0) = true) ∧
      (getAxis (stateAt sample4 0) 0).geared = false) ∧
    ((0 < 16 ∧ gate (stateAt sample4 11) (axA 0 208) (2 ^ 4) = none ∧ pgEn (stateAt sample4 11) (pgAx 0) = true) ∧
      (getAxis (stateAt sample4 11) 0).geared = true) ∧
    ((0 < 16 ∧ gate (stateAt sample4 1) (axA 0 208) (2 ^ 5) = none ∧ pgEn (stateAt sample4 1) (pgAx 0) = true) ∧
      ((getAxis (stateAt sample4 1) 0).busy = true ∨
        (getAxis (stateAt sample4 1) 0).geared = true ∨ (getAxis (stateAt sample4 1) 0).homing ≠ 0)) ∧
    ((0 < 16 ∧ gate (stateAt sample4 0) (axA 0 208) (2 ^ 5) = none ∧ pgEn (stateAt sample4 0) (pgAx 0) = true) ∧
      (getAxis (stateAt sample4 0) 0).busy = false ∧
        (getAxis (stateAt sample4 0) 0).geared = false ∧ (getAxis (stateAt sample4 0) 0).homing = 0) ∧
    (0 < 16 ∧ gate (stateAt sample4 0) (axA 0 208) (2 ^ 6) = none ∧ pgEn (stateAt sample4 0) (pgAx 0) = true) ∧
    (0 < 16 ∧
      gate (stateAt sample4 0) (axA 0 140) (5#32).toNat = none ∧
        if (getChan (stateAt sample4 0) (axMaster (stateAt sample4 0) 0)).reverse = true then
          signed 64 (rd64 (store (stateAt sample4 0) (axA 0 140) (5#32).toNat) (axA 0 136)) <
            (getChan (stateAt sample4 0) (axMaster (stateAt sample4 0) 0)).pos
        else
          (getChan (stateAt sample4 0) (axMaster (stateAt sample4 0) 0)).pos <
            signed 64 (rd64 (store (stateAt sample4 0) (axA 0 140) (5#32).toNat) (axA 0 136))) ∧
    (0 < 16 ∧
      gate (stateAt sample4 0) (axA 0 140) (0#32).toNat = none ∧
        if (getChan (stateAt sample4 0) (axMaster (stateAt sample4 0) 0)).reverse = true then
          (getChan (stateAt sample4 0) (axMaster (stateAt sample4 0) 0)).pos ≤
            signed 64 (rd64 (store (stateAt sample4 0) (axA 0 140) (0#32).toNat) (axA 0 136))
        else
          signed 64 (rd64 (store (stateAt sample4 0) (axA 0 140) (0#32).toNat) (axA 0 136)) ≤
            (getChan (stateAt sample4 0) (axMaster (stateAt sample4 0) 0)).pos) ∧
    (0 < 16 ∧
      ((getAxis (stateAt sample4 0) 0).pend = false ∨
        if (getAxis (stateAt sample4 0) 0).pendBelow = true then
          (getChan (stateAt sample4 0) (axMaster (stateAt sample4 0) 0)).pos < (getAxis (stateAt sample4 0) 0).mp
        else (getAxis (stateAt sample4 0) 0).mp < (getChan (stateAt sample4 0) (axMaster (stateAt sample4 0) 0)).pos)) ∧
    (0 < 16 ∧
      (getAxis (stateAt sample4 13) 0).pend = true ∧
        if (getAxis (stateAt sample4 13) 0).pendBelow = true then
          (getAxis (stateAt sample4 13) 0).mp ≤ (getChan (stateAt sample4 13) (axMaster (stateAt sample4 13) 0)).pos
        else (getChan (stateAt sample4 13) (axMaster (stateAt sample4 13) 0)).pos ≤ (getAxis (stateAt sample4 13) 0).mp) ∧
    (0 < 16 ∧
      ¬(rdb (stateAt sample4 0) (axA 0 64) 15 = true ∧
          rdf (stateAt sample4 0) (axA 0 148) 15 0 < (axDev (stateAt sample4 0) 0).natAbs ∧
            (getAxis (stateAt sample4 0) 0).stalled = false)) ∧
    (0 < 16 ∧
      rdb (stateAt sample4 139) (axA 0 64) 15 = true ∧
        rdf (stateAt sample4 139) (axA 0 148) 15 0 < (axDev (stateAt sample4 139) 0).natAbs ∧
          (getAxis (stateAt sample4 139) 0).stalled = false) ∧
    (0 < 16 ∧ drivesShared (stateAt sample4 0) = true) ∧
    (0 < 16 ∧ drivesShared (stateAt sample4 361) = false) := by
  refine ⟨?_, ?_, ?_, ?_, ?_, ?_, ?_, ?_, ?_, ?_, ?_, ?_, ?_, ?_, ?_⟩ <;> decide +kernel

theorem witness_CompareUnits :
    (0 < 32 ∧
      gate (stateAt sample5 5) (cmpA 0 12) (0#32).toNat = none ∧ cmpHeld (stateAt sample5 5) Requester.pcie 0 = true) ∧
    (1 < 32 ∧
      gate (stateAt sample5 0) (cmpA 1 12) (0#32).toNat = none ∧
        cmpHeld (stateAt sample5 0) (Requester.core 1) 1 = false ∧
          (cmpOn (stateAt sample5 0) 1 = false ∨ cmpMode (stateAt sample5 0) 1 = 2)) ∧
    (0 < 32 ∧
      gate (stateAt sample5 63) (cmpA 0 12) (0#32).toNat = none ∧
        cmpHeld (stateAt sample5 63) (Requester.core 1) 0 = false ∧
          cmpOn (stateAt sample5 63) 0 = true ∧
            cmpMode (stateAt sample5 63) 0 ≠ 2 ∧ cmpSrcOff (stateAt sample5 63) 0 = true) ∧
    (0 < 32 ∧
      gate (stateAt sample5 0) (cmpA 0 12) (5#32).toNat = none ∧
        cmpHeld (stateAt sample5 0) (Requester.core 1) 0 = false ∧
          cmpOn (stateAt sample5 0) 0 = true ∧
            cmpMode (stateAt sample5 0) 0 ≠ 2 ∧
              cmpSrcOff (stateAt sample5 0) 0 = false ∧
                cmpReached (stateAt sample5 0) 0 (cmpNeg (stateAt sample5 0) 0)
                    (signed 64 (rd64 (store (stateAt sample5 0) (cmpA 0 12) (5#32).toNat) (cmpA 0 8))) =
                  false) ∧
    (0 < 32 ∧
      ((getCmp (stateAt sample5 0) 0).armed = false ∨
        cmpReached (stateAt sample5 0) 0 (getCmp (stateAt sample5 0) 0).neg (getCmp (stateAt sample5 0) 0).value =
          false)) ∧
    (0 < 32 ∧
      (getCmp (stateAt sample5 1) 0).armed = true ∧
        cmpReached (stateAt sample5 1) 0 (getCmp (stateAt sample5 1) 0).neg (getCmp (stateAt sample5 1) 0).value = true) := by
  decide +kernel

theorem witness_CompareBehind :
    (0 < 32 ∧
      gate (stateAt sample5 0) (cmpA 0 12) (0#32).toNat = none ∧
        cmpHeld (stateAt sample5 0) (Requester.core 1) 0 = false ∧
          cmpOn (stateAt sample5 0) 0 = true ∧
            cmpMode (stateAt sample5 0) 0 ≠ 2 ∧
              cmpSrcOff (stateAt sample5 0) 0 = false ∧
                cmpReached (stateAt sample5 0) 0 (cmpNeg (stateAt sample5 0) 0)
                      (signed 64 (rd64 (store (stateAt sample5 0) (cmpA 0 12) (0#32).toNat) (cmpA 0 8))) =
                    true ∧
                  bitOf (cmpCfg (stateAt sample5 0) 0) 30 = false) ∧
    (0 < 32 ∧
      gate (stateAt sample5 7) (cmpA 0 12) (0#32).toNat = none ∧
        cmpHeld (stateAt sample5 7) (Requester.core 1) 0 = false ∧
          cmpOn (stateAt sample5 7) 0 = true ∧
            cmpMode (stateAt sample5 7) 0 ≠ 2 ∧
              cmpSrcOff (stateAt sample5 7) 0 = false ∧
                cmpReached (stateAt sample5 7) 0 (cmpNeg (stateAt sample5 7) 0)
                      (signed 64 (rd64 (store (stateAt sample5 7) (cmpA 0 12) (0#32).toNat) (cmpA 0 8))) =
                    true ∧
                  bitOf (cmpCfg (stateAt sample5 7) 0) 30 = true) := by
  decide +kernel

end Motion

namespace Events

def few : List Nat := (List.range 45) ++ [63, 64, 100, 256, 257, 264, 300, 511]
def e0 : State := regs (ons z [0x05, 0x09, 0x40, 0x48]) [(0x9200, 0), (0x6244, 0)]
def ev1 (s : State) (f : Evc → Evc) : State := { s with evc := f s.evc }
def cfgd : State := regs e0 ((List.range 30).map (fun i => (srccfgAddr (0x20 + i), (i % 5) * 256 + 0x30 + (i % 5))))
def lk : State := put cfgd (srccfgAddr 0x22) 0x80000002
def all1 : Nat := 2 ^ 512 - 1
def eS : List State := [e0, cfgd, lk, ev1 cfgd (fun e => { e with gpio := 0xFFFFFFFF }), ev1 lk (fun e => { e with en := all1, pend := all1 }), ev1 cfgd (fun e => { e with en := all1, pend := all1, active := 2 ^ 34, flags := 31 }), put (ev1 cfgd (fun e => { e with en := all1, pend := all1, active := 2 ^ 34, flags := 31 })) 0x5244 0x400, z]
def sample1 : List (State) := eS ++ eS.map (fun s => ev1 s (fun e => { e with active := all1 }))

theorem witness_EventSources :
    (0 < 32) ∧
    (0 < 16 ∧ gate (stateAt eS 0) (ra pgEvc (192 + 4 * 0)) (4294967295#32).toNat = none) ∧
    (0 < 16 ∧ gate (stateAt eS 0) (ra pgEvc (256 + 4 * 0)) (4294967295#32).toNat = none) ∧
    (0 < 16 ∧ gate (stateAt eS 0) (ra pgEvc (384 + 4 * 0)) (4294967295#32).toNat = none) ∧
    (0 < 16 ∧ gate (stateAt eS 0) (ra pgEvc (448 + 4 * 0)) (4294967295#32).toNat = none) ∧
    (0 < 512 ∧ sourceExists 0 = false) ∧
    (1 < 512 ∧
      sourceExists 1 = true ∧
        pgClkOn (stateAt eS 0) pgEvc = true ∧
          srccfgRefused (stateAt eS 0) (Requester.core 1) 1 (4294967295#32).toNat = true) ∧
    (1 < 512 ∧
      sourceExists 1 = true ∧
        pgClkOn (stateAt eS 0) pgEvc = true ∧ srccfgRefused (stateAt eS 0) (Requester.core 1) 1 (4#32).toNat = false) ∧
    (flagOf (stateAt eS 0) 4 = false ∨ rdb (stateAt eS 0) (ra pgEvc 580) 10 = false) ∧
    (flagOf (stateAt eS 6) 4 = true ∧ rdb (stateAt eS 6) (ra pgEvc 580) 10 = true) := by
  decide +kernel

theorem witness_BestSource :
    (bestSource (stateAt eS 4) 0 ≠ 0) ∧
    (bestSource (stateAt eS 4) 0 ≠ 0 ∧ 1 < 512 ∧ 1 ≠ 0 ∧ eligible (stateAt eS 4) 0 1 = true) ∧
    (bestSource (stateAt eS 0) 0 = 0 ∧ 1 < 512 ∧ 1 ≠ 0) ∧
    (0 < 5 ∧ pgClkOn (stateAt eS 0) (pgEvc + 3) = true) := by
  decide +kernel

theorem witness_Claims :
    (0 < 4 ∧ 0 < 5) ∧
    (0 < 5) ∧
    (5 ≤ 0 ∨ serves (Requester.core 1) 0 = false ∨ pgClkOn (stateAt eS 0) pgEvc = false) ∧
    (1 < 5 ∧ serves (Requester.core 1) 1 = true ∧ pgClkOn (stateAt eS 4) pgEvc = true ∧ bestSource (stateAt eS 4) 1 ≠ 0) ∧
    (1 < 5 ∧ serves (Requester.core 1) 1 = true ∧ pgClkOn (stateAt eS 0) pgEvc = true ∧ bestSource (stateAt eS 0) 1 = 0) := by
  decide +kernel

theorem witness_Completions :
    (0 < 512 ∧ 5 ≤ 5) ∧
    (34 < 512 ∧
      2 < 5 ∧
        gate (stateAt sample1 5) (ra (pgEvc + 3) (68 + 16 * 2)) 34 = none ∧
          serves (Requester.core 2) 2 = true ∧
            targetOf (stateAt sample1 5) 34 = 2 ∧ bitOf (stateAt sample1 5).evc.active 34 = true) ∧
    (0 < 512 ∧
      0 < 5 ∧
        gate (stateAt sample1 0) (ra (pgEvc + 3) (68 + 16 * 0)) 0 = none ∧
          (serves (Requester.core 1) 0 = false ∨
            targetOf (stateAt sample1 0) 0 ≠ 0 ∨ bitOf (stateAt sample1 0).evc.active 0 = false)) := by
  decide +kernel

end Events

namespace Power

def pp := pressUp z
def few : List Nat := (List.range 53) ++ [0xB0, 0xB4] ++ [63, 64, 100, 256]
def p0 : State := ons z [0x00, 0x01, 0x02, 0x03, 0x04, 0x48, 0xB0, 0xB4]
def pw (s : State) (f : Power → Power) : State := { s with power := f s.power }
def wS : List State := [p0, printBar p0 0, pw p0 (fun p => { p with pstate := 3 }), pw (put p0 0x01044 0xFF) (fun p => { p with pstate := 3 }), pw (put p0 0x01044 0xFF) (fun p => { p with pstate := 4 }), pw (put p0 0x01044 0xFF) (fun p => { p with pstate := 5 }), pw p0 (fun p => { p with pstate := 4 }), pw p0 (fun p => { p with pstate := 4, waking := true, resume := true }), pw p0 (fun p => { p with pstate := 4, waking := true }),
  pw p0 (fun p => { p with rc := false }), pw z (fun p => { p with camPll := true }), openSession p0 0 1, openSession p0 1 1]
def tr (n : Nat) (v : Int) : TempReading := { sensor := n, value := v, applied := 0 }
def tset16 (v : Int) : List TempReading := (List.range 16).map (fun n => tr n (v + n))
def warm (v : Int) (f : Power → Power) (s : State) : State := pw s (fun p => f { p with sensors := (List.range 24).map (fun n => (n, { failed := false, reason := 0, value := v })), tmax := v })
def jobbed (s : State) : State := printAt (pressUp s) 0 5
def tS : List State := [p0, warm 2000 id p0, warm 1990 id p0, warm 500 id (jobbed p0), warm 1700 id (jobbed p0), warm 2000 (fun p => { p with pstate := 5 }) p0, warm 800 (fun p => { p with pstate := 5 }) p0, pw p0 (fun p => { p with tripped := true }), warm 500 (fun p => { p with hold := true, holdSensor := 3, sensors := [(3, { failed := true })] }) p0, warm 500 (fun p => { p with hold := true }) p0, pw (jobbed p0) (fun p => { p with stop := 1 }), setBar (pw (jobbed p0) (fun p => { p with stop := 1 })) 0 { printing := false, stopping := true },  pw p0 (fun p => { p with stop := 1 }), pw (put p0 0xC0040 1) (fun p => { p with stop := 1 }), warm 1200 (fun p => { p with stop := 2 }) p0, warm 1800 (fun p => { p with stop := 2 }) p0]
def sample1 : List (List TempReading) := [tset16 500, tset16 1700, tset16 1985, tset16 2005, []]
def sample2 : List (List Int) := [List.replicate 16 500, List.replicate 16 1700]
def sample3 : List (Conv) := tS.flatMap (fun s => [tset16 1985, tset16 2005].filterMap (fun rs => tripping s (conversions s rs)))
def mn : State := put p0 0x03120 0x80000000
def mS : List State := [mn, p0, pw mn (fun p => { p with pmbFails := 1 }), pw mn (fun p => { p with pmbFails := 2 }), pw mn (fun p => { p with voutRetry := true }), pw mn (fun p => { p with voutMode := 20 }), pw mn (fun p => { p with voutMode := 20, voutRetry := true }), pw mn (fun p => { p with avsHeld := true }), pw mn (fun p => { p with pstate := 5 }), regs mn ((List.range 12).flatMap (fun c => [(monA (0x80 + 4 * c), 0x07D00000 + 100), (monA (0xC0 + 4 * c), 0x0BB80000)])), pw (regs mn ((List.range 12).flatMap (fun c => [(monA (0x80 + 4 * c), 0x07D00000 + 100), (monA (0xC0 + 4 * c), 0x0BB80000)]))) (fun p => { p with rails := (List.range 12).map (fun c => (c, { crit := 1 })) })]
def sample4 : List (List Nat) := [[800, 100, 1234, 5000, 800, 2500], [100], [1,2,3,4,5,6,7,8], List.replicate 8 100000, []]

theorem witness_PowerStates :
    (gate (stateAt wS 2) (clkA 64) (if false = true then 3 else 2) = none ∧ 2 ≤ (stateAt wS 2).power.pstate) ∧
    (gate (stateAt wS 1) (clkA 64) (if false = true then 3 else 2) = none ∧
      (stateAt wS 1).power.pstate < 2 ∧ powerRefused (stateAt wS 1) false = true) ∧
    (gate (stateAt wS 0) (clkA 64) (if false = true then 3 else 2) = none ∧
      (stateAt wS 0).power.pstate < 2 ∧ powerRefused (stateAt wS 0) false = false) ∧
    ((stateAt wS 4).power.pstate = 4 ∧ wakeEnabled (stateAt wS 4) 1 1 = true) ∧
    (((stateAt wS 2).power.pstate = 3 ∨ (stateAt wS 2).power.pstate = 5) ∧ wakeEnabled (stateAt wS 2) 4 1 = true) ∧
    ((stateAt wS 0).power.pstate < 3 ∨ wakeEnabled (stateAt wS 0) 1 1 = false) ∧
    ((stateAt wS 0).power.pstate ≠ 4) ∧
    ((stateAt wS 4).power.pstate = 4 ∧ (stateAt wS 4).power.waking = false ∧ (stateAt wS 4).host.heldWrites = []) ∧
    ((stateAt wS 7).power.pstate = 4 ∧ (stateAt wS 7).power.waking = true ∧ (true && (stateAt wS 7).power.resume) = true) ∧
    ((stateAt wS 7).power.pstate = 4 ∧
      (stateAt wS 7).power.waking = true ∧ (false && (stateAt wS 7).power.resume) = false) ∧
    ((stateAt wS 0).power.rc = true) ∧
    ((stateAt wS 9).power.rc = false) ∧
    (cameraClock (stateAt wS 0) = true) ∧
    (cameraClock (stateAt wS 10) = false) := by
  decide +kernel

theorem witness_Thermal :
    (Option.any
        (fun (x : List TempReading) => decide ((stateAt tS 7).power.tripped = true ∨ (stateAt tS 7).sys.inReset = true))
        sample1[0]? =
      true) ∧
    (Option.any
        (fun (x : List TempReading) =>
          decide
            ((stateAt tS 0).power.tripped = false ∧
              (stateAt tS 0).sys.inReset = false ∧
                (tripping
                      (if (stateAt tS 0).power.pstate = 5 then stateAt tS 0
                      else
                        setPower (stateAt tS 0)
                          { (stateAt tS 0).power with tripNs := ptTotalNs (stateAt tS 0), tripPos := webPos (stateAt tS 0) (refBar (stateAt tS 0)) })
                      (conversions (stateAt tS 0) x)).isSome =
                  true))
        sample1[2]? =
      true) ∧
    (Option.any
        (fun (x : List TempReading) =>
          decide
            ((stateAt tS 5).power.tripped = false ∧
              (stateAt tS 5).sys.inReset = false ∧
                tripping
                      (if (stateAt tS 5).power.pstate = 5 then stateAt tS 5
                      else
                        setPower (stateAt tS 5)
                          { (stateAt tS 5).power with tripNs := ptTotalNs (stateAt tS 5), tripPos := webPos (stateAt tS 5) (refBar (stateAt tS 5)) })
                      (conversions (stateAt tS 5) x) =
                    none ∧
                  (stateAt tS 5).power.pstate = 5))
        sample1[0]? =
      true) ∧
    (Option.any
        (fun (x : List TempReading) =>
          decide
            ((stateAt tS 0).power.tripped = false ∧
              (stateAt tS 0).sys.inReset = false ∧
                tripping
                      (if (stateAt tS 0).power.pstate = 5 then stateAt tS 0
                      else
                        setPower (stateAt tS 0)
                          { (stateAt tS 0).power with tripNs := ptTotalNs (stateAt tS 0), tripPos := webPos (stateAt tS 0) (refBar (stateAt tS 0)) })
                      (conversions (stateAt tS 0) x) =
                    none ∧
                  (stateAt tS 0).power.pstate ≠ 5))
        sample1[0]? =
      true) ∧
    ((stateAt tS 0).power.hold = false ∨ (getSensor (stateAt tS 0) (stateAt tS 0).power.holdSensor).failed = false) ∧
    ((stateAt tS 8).power.hold = true ∧ (getSensor (stateAt tS 8) (stateAt tS 8).power.holdSensor).failed = true) ∧
    ((stateAt tS 0).power.stop ≠ 1) ∧
    ((stateAt tS 10).power.stop = 1 ∧ ∀ b < 8, barStopping (stateAt tS 10) b = false) ∧
    (gate (stateAt tS 1) (thmA 84) 1 = none ∧ stopAt (stateAt tS 1) - 160 ≤ (stateAt tS 1).power.tmax) ∧
    (gate (stateAt tS 0) (thmA 84) 1 = none ∧ (stateAt tS 0).power.tmax < stopAt (stateAt tS 0) - 160) ∧
    (Option.any
        (fun (x : List ℤ) =>
          decide
            ((stateAt tS 0).power.tripped = false ∨
              x.length < 16 ∨
                ∃ x_1 ∈ (List.take 16 x).zipIdx,
                  1600 ≤ (convert (stateAt tS 0) { sensor := x_1.2, value := x_1.1 : TempReading }).1))
        sample2[0]? =
      true) ∧
    (Option.any
        (fun (x : List ℤ) =>
          decide
            ((stateAt tS 7).power.tripped = true ∧
              16 ≤ x.length ∧
                ∀ x_1 ∈ (List.take 16 x).zipIdx,
                  (convert (stateAt tS 7) { sensor := x_1.2, value := x_1.1 : TempReading }).1 < 1600))
        sample2[0]? =
      true) := by
  decide +kernel

theorem witness_Monitors :
    (Option.any (fun (x : List ℕ) => decide (monitoring (stateAt mS 8) = false)) sample4[0]? = true) ∧
    (Option.any (fun (x : List ℕ) => decide (monitoring (stateAt mS 0) = true)) sample4[0]? = true) ∧
    (Option.any (fun (x : List ℕ) => decide (monitoring (stateAt mS 0) = false ∨ x.length ≠ 8)) sample4[0]? = true) ∧
    (Option.any (fun (x : List ℕ) => decide (monitoring (stateAt mS 0) = true ∧ x.length = 8)) sample4[2]? = true) ∧
    (monitoring (stateAt mS 8) = false) ∧
    (monitoring (stateAt mS 0) = true ∧ (stateAt mS 0).power.pmbFails < 2) ∧
    (monitoring (stateAt mS 3) = true ∧ 2 ≤ (stateAt mS 3).power.pmbFails) ∧
    (monitoring (stateAt mS 0) = true ∧
      139 = 139 ∧
        ((stateAt mS 0).power.voutRetry = false ∨
          ((↑(roundHalfUp (1000 * (↑0 : ℤ)) (2 ^ modeExp (stateAt mS 0).power.voutMode)).toNat : ℤ) -
                (↑(vcore (stateAt mS 0)) : ℤ)).natAbs ≤
            10)) ∧
    (monitoring (stateAt mS 0) = true ∧ 32 = 32) ∧
    (monitoring (stateAt mS 0) = true ∧ ((↑(vcore p0) : ℤ) - (↑(vcore (stateAt mS 0)) : ℤ)).natAbs ≤ 10) ∧
    (monitoring (stateAt mS 0) = true ∧
      10 < ((↑0 : ℤ) - (↑(vcore (stateAt mS 0)) : ℤ)).natAbs ∧ (stateAt mS 0).power.pmbFails < 2) ∧
    (monitoring (stateAt mS 3) = true ∧
      10 < ((↑0 : ℤ) - (↑(vcore (stateAt mS 3)) : ℤ)).natAbs ∧ 2 ≤ (stateAt mS 3).power.pmbFails) := by
  decide +kernel

end Power

namespace Display

def few : List Nat := (List.range 65) ++ [100, 256, 0x41000, 0x41001, 0x10000, 0x50, 0x0004C, 0x00050, 0x09200, 0xE0024]
def dz (f : Disp → Disp) (s : State) : State := { s with disp := f s.disp }
def d0 : State := cmt (ons z [0xE0, 0x2C, 0x48]) [(0xE0040, 0x220), (0xE0044, 74250), (0xE0050, 0x02D00000)]
def lay : State := cmt d0 [(0xE0080, 0x80000000)]
def dS : List State := [z, d0, dz (fun d => { d with hpd := true, maxRate := 2, maxLanes := 4 }) d0, dz (fun d => { d with hpd := true, maxRate := 2, maxLanes := 4, state := 2 }) d0, dz (fun d => { d with hpd := true, maxRate := 2, maxLanes := 4, state := 1, rate := 0 }) d0,
  dz (fun d => { d with hpd := true, maxRate := 2, maxLanes := 4, state := 1, rate := 2, switching := true }) d0, dz (fun d => { d with hpd := true, maxRate := 2, maxLanes := 4, state := 4 }) d0, { dz (fun d => { d with hpd := true, state := 4 }) d0 with power := { d0.power with pstate := 3 } }, cmt d0 [(0xE0044, 0x7FFFF)]]
def rn (f : Disp → Disp) (s : State) : State := dz (fun d => f { d with hpd := true, maxRate := 2, maxLanes := 4, state := 2 }) s
def arm (s : State) : State := put s 0xE0018 4
def fS : List State := [z, d0, rn id d0, rn (fun d => { d with state := 3, switching := true }) d0, rn id (arm d0), rn id (arm (regs d0 [(0xE0040, 0x220), (0xE0044, 74250), (0xE0048, 0x05000028), (0xE004C, 0x00DC006E), (0xE0050, 0x02D00014), (0xE0054, 0x00050005), (0xE0094, 0x100)])), rn (fun d => { d with armedLate := true }) (arm d0), rn id lay, rn (fun d => { d with offLayers := [(0, 5)] }) lay, { d0 with sys := { d0.sys with bootState := 5 } }, rn id { d0 with sys := { d0.sys with bootState := 5 } }, cmt (put d0 0xE0140 5) [(0xE0150, 0x00010001), (0xE0154, 0x00010001), (0xE0170, 0), (0xE0174, 0x00020003)]]
def sample1 : List (List Byte) := [[1#8, 2#8]]
def sy (f : Sys → Sys) (s : State) : State := { s with sys := f s.sys }
def rich : State := let s := openSession (storeUp (ons (printBar pp0 0) [0x00, 0x04])) 1 1; setEntry (setTile (setJob s job9) (newTile 9 0 0 0)) 5 (journalEntry 1 [] [])
  where pp0 := pressUp z
def img (s : State) (slot : Nat) (good : Bool) : State :=
  let h := leBytes 4 0x46575A53 ++ leBytes 4 1 ++ zeroBytes 0x88
  let d := padTo 256 [7#8]
  let page := padTo 256 (h ++ leBytes 4 (crc32c (h ++ [7#8]) + (if good then 0 else 1)))
  sy (fun y => { y with flash := tset (tset y.flash (slotBase slot / 256) page) (slotBase slot / 256 + 1) d }) s
def rS : List State := [rich, z, sy (fun y => { y with inReset := true }) rich, sy (fun y => { y with powered := false, inReset := true }) rich, sy (fun y => { y with bootState := 5 }) rich, sy (fun y => { y with bootState := 5, flashOp := 2, flash := [(0, List.replicate 256 3#8)] }) rich, sy (fun y => { y with bootState := 5 }) (put rich 0xC0040 1), { sy (fun y => { y with bootState := 5 }) rich with power := { rich.power with pstate := 3 } }, sy (fun y => { y with bootState := 5, ramLog := [{ code := 1, cls := 0, unitA := true, late := false, role := 0, bar := 0, seq := 0, ptSec := 0, ptNs := 0, boots := 0, webPos := 0, imageLine := 0, detail := [], page := 0 }] }) rich]
def bt (n : Nat) (f : Sys → Sys) (s : State) : State := sy (fun y => f { y with bootState := n, inReset := false }) s
def bS : List State := [sy (fun y => { y with inReset := true }) rich, bt 0 id rich, bt 1 id (img rich 0 true), bt 1 id (img rich 0 false), bt 1 (fun y => { y with triedOther := true, slot := 1 }) (img rich 1 true), bt 1 (fun y => { y with triedOther := true, slot := 1 }) rich, bt 2 id rich, bt 3 id rich, bt 4 id rich, bt 6 (fun y => { y with bootFailSeen := true }) (img (img rich 0 false) 1 false), bt 6 (fun y => { y with bootFailSeen := true, cause := 4 }) (put (img rich 0 true) (nvmA 0x54) 2), bt 6 (fun y => { y with bootFailSeen := true }) (img (img rich 0 true) 1 true), bt 6 (fun y => { y with bootFailSeen := false }) (img rich 0 true), bt 5 id (img rich 0 true)]
def nv (f : Sys → Sys) (regsL : List (Nat × Nat)) : State := sy f (regs (ons z [0x00, 0x0A]) regsL)
def rec0 : FaultRecord := { code := 1, cls := 0, unitA := true, late := false, role := 0, bar := 0, seq := 0, ptSec := 0, ptNs := 0, boots := 0, webPos := 0, imageLine := 0, detail := [], page := 0 }
def A (a : Nat) : List (Nat × Nat) := [(0x0A040, 1), (0x0A044, a), (0x0A050, 128)]
def nS : List State := [nv (fun y => { y with nvWait := [rec0, rec0] }) [], nv (fun y => { y with nvWait := [rec0, rec0], nvCount := 64 }) [], nv (fun y => { y with nvWait := [rec0, rec0], nvCount := 64, nvSec := 4 }) [], nv id (A 0), nv id (A 0x5000000), nv id (A 0x5000100), nv id (A 0x20000), nv id (A 5), nv id ((A 0x5000000) ++ [(0x0A04C, 1)]), nv id [(0x0A040, 0), (0x0A050, 128)], nv (fun y => { y with flashOp := 1 }) (A 0x5000000), nv (fun y => { y with flashOp := 2 }) (A 0x5000000), nv (fun y => { y with flashOp := 3 }) (A 0x5000000), (let s := nv (fun y => { y with flashOp := 3 }) (A 0x5000000); { s with power := { s.power with stop := 1 } })]
def sample2 : List (FaultRecord) := [rec0]
def sample3 : List (List FaultRecord) := [[], [rec0]]

theorem witness_DisplayLink :
    (pgEn (stateAt dS 0) pgDisp = false ∨ dozing (stateAt dS 0) = true) ∧
    (pgEn (stateAt dS 1) pgDisp = true ∧
      dozing (stateAt dS 1) = false ∧
        dispLanes (field (cm (stateAt dS 1) (ra pgDisp 64)) 9 8) ≤ 4 ∧
          (chooseRate (cm (stateAt dS 1) (ra pgDisp 64)) (field (cm (stateAt dS 1) (ra pgDisp 68)) 18 0) 0).isSome =
            true) ∧
    (pgEn (stateAt dS 1) pgDisp = true ∧
      dozing (stateAt dS 1) = false ∧
        (0 < dispLanes (field (cm (stateAt dS 1) (ra pgDisp 64)) 9 8) ∨
          chooseRate (cm (stateAt dS 1) (ra pgDisp 64)) (field (cm (stateAt dS 1) (ra pgDisp 68)) 18 0) 0 = none)) ∧
    ((chooseRate 0 0 0).isSome = true) ∧
    (Option.any (fun (r : ℕ) => decide (0 < r)) (chooseRate 544 600000 2) = true) ∧
    ((stateAt dS 0).disp.hpd = false) ∧
    ((stateAt dS 2).disp.hpd = true) ∧
    ((stateAt dS 3).disp.hpd = true ∧ dispRunning (stateAt dS 3) = true) ∧
    ((stateAt dS 0).disp.state ≠ 1) ∧
    ((stateAt dS 4).disp.state = 1) ∧
    ((stateAt dS 4).disp.state = 1 ∧
      (stateAt dS 4).disp.rate < min (field (cm (stateAt dS 4) (ra pgDisp 64)) 5 4) (stateAt dS 4).disp.maxRate) ∧
    ((stateAt dS 5).disp.state = 1 ∧
      min (field (cm (stateAt dS 5) (ra pgDisp 64)) 5 4) (stateAt dS 5).disp.maxRate ≤ (stateAt dS 5).disp.rate) ∧
    ((stateAt dS 0).disp.state ≠ 4 ∨ dozing (stateAt dS 0) = true) ∧
    ((stateAt dS 6).disp.state = 4 ∧
      dozing (stateAt dS 6) = false ∧
        pgEn (stateAt dS 6) pgDisp = true ∧
          (stateAt dS 6).disp.hpd = true ∧
            dispLanes (field (cm (stateAt dS 6) (ra pgDisp 64)) 9 8) ≤ (stateAt dS 6).disp.maxLanes ∧
              (chooseRate (cm (stateAt dS 6) (ra pgDisp 64)) (field (cm (stateAt dS 6) (ra pgDisp 68)) 18 0)
                    (stateAt dS 6).disp.maxRate).isSome =
                true) := by
  decide +kernel

theorem witness_DisplayFrame :
    (dispRunning (stateAt fS 0) = false) ∧
    (dispRunning (stateAt fS 2) = true ∧
      (commitPending (stateAt fS 2) pgDisp = false ∨ (stateAt fS 2).disp.armedLate = true)) ∧
    (dispRunning (stateAt fS 5) = true ∧
      commitPending (stateAt fS 5) pgDisp = true ∧ (stateAt fS 5).disp.armedLate = false ∧ dispCheck (stateAt fS 5) = 0) ∧
    (dispRunning (stateAt fS 4) = true ∧
      commitPending (stateAt fS 4) pgDisp = true ∧ (stateAt fS 4).disp.armedLate = false ∧ dispCheck (stateAt fS 4) ≠ 0) ∧
    (dispRunning (stateAt fS 2) = true) ∧
    (dispRunning (stateAt fS 2) = true ∧ Option.any (fun (x : List Byte) => decide True) sample1[0]? = true) ∧
    (Option.any (fun (x : List Byte) => decide (dispRunning (stateAt fS 9) = false ∧ (stateAt fS 9).sys.bootState = 5))
        sample1[0]? =
      true) ∧
    (Option.any (fun (x : List Byte) => decide (dispRunning (stateAt fS 0) = false ∧ (stateAt fS 0).sys.bootState ≠ 5))
        sample1[0]? =
      true) ∧
    (0 < 3 ∧
      ((stateAt fS 0).disp.state ≠ 2 ∨
        layerOn (stateAt fS 0) 0 = false ∨ ((stateAt fS 0).disp.offLayers.any fun (e : ℕ × ℕ) => e.1 == 0) = true)) ∧
    (0 < 3 ∧
      (stateAt fS 7).disp.state = 2 ∧
        layerOn (stateAt fS 7) 0 = true ∧ ((stateAt fS 7).disp.offLayers.any fun (e : ℕ × ℕ) => e.1 == 0) = false) := by
  decide +kernel

theorem witness_Resets :
    ((stateAt rS 0).sys.inReset = true ∨ (stateAt rS 0).sys.powered = false ∨ 0 < 200) ∧
    ((stateAt rS 0).sys.inReset = false ∧ (stateAt rS 0).sys.powered = true ∧ 1000 ≤ 1000) ∧
    ((stateAt rS 0).sys.inReset = false ∨ (stateAt rS 0).sys.powered = false) ∧
    ((stateAt rS 2).sys.inReset = true ∧ (stateAt rS 2).sys.powered = true) ∧
    ((stateAt rS 1).sys.bootState ≠ 5 ∨ (stateAt rS 1).sys.inReset = true ∨ 2 ≤ (stateAt rS 1).power.pstate) ∧
    ((stateAt rS 0).sys.bootState = 5 ∧ (stateAt rS 0).sys.inReset = false ∧ (stateAt rS 0).power.pstate < 2) ∧
    ((stateAt rS 1).sys.inReset = true ∨ (stateAt rS 1).sys.bootState ≠ 5) ∧
    ((stateAt rS 0).sys.inReset = false ∧ (stateAt rS 0).sys.bootState = 5) := by
  decide +kernel

theorem witness_Boot :
    ((stateAt bS 0).sys.inReset = true) ∧
    ((stateAt bS 1).sys.inReset = false ∧ (stateAt bS 1).sys.bootState = 0) ∧
    ((stateAt bS 2).sys.inReset = false ∧
      (stateAt bS 2).sys.bootState = 1 ∧
        (BootResult.ok, 0) ∈ [(BootResult.ok, 0), (BootResult.slotFailed 0, 0)] ∧
          imageReason (stateAt bS 2) (stateAt bS 2).sys.slot 0 = 0) ∧
    ((stateAt bS 2).sys.inReset = false ∧
      (stateAt bS 2).sys.bootState = 1 ∧
        (BootResult.slotFailed 5, 5) ∈ [(BootResult.ok, 0), (BootResult.slotFailed 5, 5)] ∧
          imageReason (stateAt bS 2) (stateAt bS 2).sys.slot 5 ≠ 0 ∧ (stateAt bS 2).sys.triedOther = false) ∧
    ((stateAt bS 4).sys.inReset = false ∧
      (stateAt bS 4).sys.bootState = 1 ∧
        (BootResult.slotFailed 5, 5) ∈ [(BootResult.ok, 0), (BootResult.slotFailed 5, 5)] ∧
          imageReason (stateAt bS 4) (stateAt bS 4).sys.slot 5 ≠ 0 ∧
            (stateAt bS 4).sys.triedOther = true ∧ (stateAt bS 4).sys.bootFailSeen = false) ∧
    ((stateAt bS 6).sys.inReset = false ∧ (stateAt bS 6).sys.bootState = 2) ∧
    ((stateAt bS 7).sys.inReset = false ∧ (stateAt bS 7).sys.bootState = 3) ∧
    ((stateAt bS 7).sys.inReset = false ∧ (stateAt bS 7).sys.bootState = 3 ∧ 1 &&& 13 ≠ 0 ∧ bitOf 1 1 = false) ∧
    ((stateAt bS 7).sys.inReset = false ∧ (stateAt bS 7).sys.bootState = 3 ∧ 2 &&& 15 = 2) ∧
    ((stateAt bS 8).sys.inReset = false ∧ (stateAt bS 8).sys.bootState = 4) ∧
    ((stateAt bS 0).sys.bootState ≠ 6 ∨
      (stateAt bS 0).sys.inReset = true ∨ (stateAt bS 0).sys.bootFailSeen = false ∨ (stateAt bS 0).sys.stopped = true) ∧
    ((stateAt bS 9).sys.bootState = 6 ∧
      (stateAt bS 9).sys.inReset = false ∧
        (stateAt bS 9).sys.bootFailSeen = true ∧
          (stateAt bS 9).sys.stopped = false ∧ imageReason (stateAt bS 9) 0 0 ≠ 0 ∧ imageReason (stateAt bS 9) 1 0 ≠ 0) ∧
    ((stateAt bS 10).sys.bootState = 6 ∧
      (stateAt bS 10).sys.inReset = false ∧
        (stateAt bS 10).sys.bootFailSeen = true ∧
          (stateAt bS 10).sys.stopped = false ∧
            imageReason (stateAt bS 10) (firstSlot (stateAt bS 10)) (if firstSlot (stateAt bS 10) = 0 then 0 else 0) = 0) ∧
    (imageReason (stateAt bS 2) 0 0 = 0) := by
  decide +kernel

theorem witness_LogsAndFlash :
    ((stateAt nS 3).sys.nvWait = []) ∧
    (Option.any
        (fun (x : FaultRecord) =>
          decide
            (Option.any
                (fun (x_1 : List FaultRecord) =>
                  decide
                    ((stateAt nS 0).sys.nvWait = x :: x_1 ∧
                      ((stateAt nS 0).sys.nvSec ≠ (stateAt nS 0).clk.sec ∨ (stateAt nS 0).sys.nvCount < 64) ∧
                        (stateAt nS 0).sys.flashOp ≠ 2 ∧ (stateAt nS 0).power.tripped = false))
                sample3[1]? =
              true))
        sample2[0]? =
      true) ∧
    ((stateAt nS 1).sys.nvSec = (stateAt nS 1).clk.sec ∧ 64 ≤ (stateAt nS 1).sys.nvCount) ∧
    ((1, Instr.nvmRead (Requester.core 1)) ∈
        [(1, Instr.nvmRead (Requester.core 1)), (2, Instr.nvmProgram (Requester.core 1)),
          (3, Instr.nvmErase (Requester.core 1))] ∧
      gate (stateAt nS 8) (nvmA 72) 1 = none ∧ nvmBusy (stateAt nS 8) = true) ∧
    ((1, Instr.nvmRead (Requester.core 1)) ∈
        [(1, Instr.nvmRead (Requester.core 1)), (2, Instr.nvmProgram (Requester.core 1)),
          (3, Instr.nvmErase (Requester.core 1))] ∧
      gate (stateAt nS 0) (nvmA 72) 1 = none ∧ nvmBusy (stateAt nS 0) = false ∧ nvmReason (stateAt nS 0) 1 ≠ 0) ∧
    ((1, Instr.nvmRead (Requester.core 1)) ∈
        [(1, Instr.nvmRead (Requester.core 1)), (2, Instr.nvmProgram (Requester.core 1)),
          (3, Instr.nvmErase (Requester.core 1))] ∧
      gate (stateAt nS 3) (nvmA 72) 1 = none ∧ nvmBusy (stateAt nS 3) = false ∧ nvmReason (stateAt nS 3) 1 = 0) ∧
    ((stateAt nS 0).sys.flashOp = 0) ∧
    ((stateAt nS 10).sys.flashOp = 1) ∧
    ((stateAt nS 11).sys.flashOp = 2) ∧
    ((stateAt nS 12).sys.flashOp = 3) ∧
    ((stateAt nS 13).sys.flashOp = 3 ∧ (stateAt nS 13).power.stop ≠ 0) ∧
    (0 < 1 ∧ nvmProtected (stateAt nS 0) 0 1 = false ∧ 0 ≤ 0 ∧ 0 < 0 + 1) := by
  decide +kernel

end Display

end Sys2Proof.Tests
end

section
/-! PROOFS. COMMIT_CANCEL, and a write of PG_COMMIT with both CANCEL and ARM (R44). -/

namespace Sys2Proof.Machine
open Sys2Proof

/-! ### What the two commands run -/

theorem exec_commitCancel (s : State) (rq : Requester) (p : Nat) :
    exec (.commitCancel rq p) s = execCommitCancel rq p s := rfl

theorem exec_commitArm (s : State) (rq : Requester) (p : Nat) (v : Word) :
    exec (.commitArm rq p v) s = execCommitArm rq p v s := rfl

theorem exec_commitCancel_header (s : State) (rq : Requester) {p : Nat} (hp : isHeader p = true) :
    exec (.commitCancel rq p) s = .next (commitCancel s p) := by
  rw [exec_commitCancel, execCommitCancel, if_pos hp]

theorem exec_commitArm_with_cancel (s : State) (rq : Requester) {p : Nat} {v : Word} (hp : isHeader p = true)
    (hv : v.getLsbD 4 = true) : exec (.commitArm rq p v) s = .next (refuse s p) := by
  rw [exec_commitArm, execCommitArm, if_neg (by simp [hp]), if_pos hv]

/-! ### What a CANCEL leaves -/

@[simp] theorem rd_forgetLoop (s : State) (p a : Nat) : rd (forgetLoop s p) a = rd s a := rfl

theorem commitCancel_of_not_pending {s : State} {p : Nat} (h : commitPending s p = false) : commitCancel s p = s := by
  simp [commitCancel, h]

/-- Of the register words only PG_COMMIT changes: LATE and AT_LINE stay, ARM and PENDING clear (the mask 0xA). -/
theorem rd_commitCancel {s : State} {p : Nat} (h : commitPending s p = true) (a : Nat) :
    rd (commitCancel s p) a = rd (wr s (ra p 0x18) (rd s (ra p 0x18) &&& 0xA)) a := by
  simp only [commitCancel, h, if_true]
  split <;> simp

theorem rdb_commitCancel {s : State} {p i : Nat} (h : commitPending s p = true) (hi : i < 32) :
    rdb (commitCancel s p) (ra p 0x18) i = (rdb s (ra p 0x18) i && bitOf 0xA i) := by
  simp only [rdb, bitOf]
  rw [rd_commitCancel h, testBit_rd_wr, Nat.testBit_and, decide_eq_true hi, Bool.true_and]

theorem commitPending_commitCancel {s : State} {p : Nat} (h : commitPending s p = true) :
    commitPending (commitCancel s p) p = false := by
  rw [commitPending, rdb_commitCancel h (by decide), show bitOf 0xA 2 = false by decide, Bool.and_false]

theorem atLine_commitCancel {s : State} {p : Nat} (h : commitPending s p = true) :
    rdb (commitCancel s p) (ra p 0x18) 1 = rdb s (ra p 0x18) 1 := by
  rw [rdb_commitCancel h (by decide), show bitOf 0xA 1 = true by decide, Bool.and_true]

theorem wordsKept_commitCancel {s : State} {p : Nat} (h : commitPending s p = true) :
    wordsKept [ra p 0x18] s (commitCancel s p) := by
  intro a ha
  rw [rd_commitCancel h, rd_wr, if_neg (by simpa using ha)]

theorem only_commitCancel (s : State) (p : Nat) : onlyChanges [.regs, .cams, .disp] s (commitCancel s p) :=
  (commitCancel_evolves s p (m := 540673) (by decide) Evolves.rfl).only (by decide)

end Sys2Proof.Machine

namespace Sys2Proof.Proofs
open Sys2Proof Sys2Proof.Machine

/-- Settles O10: a CANCEL masks PENDING out of PG_COMMIT, without a pending commit it leaves the state, and with ARM it is
a refused write. -/
theorem commitCancel : Obligations.CommitCancel := by
  intro s rq p hp
  refine ⟨fun pending => ?_, fun idle => ?_, fun v hv => ?_⟩
  · exact ⟨_, exec_commitCancel_header s rq hp, commitPending_commitCancel pending, atLine_commitCancel pending,
      wordsKept_commitCancel pending, only_commitCancel s p⟩
  · rw [exec_commitCancel_header s rq hp, commitCancel_of_not_pending idle]
  · exact ⟨_, exec_commitArm_with_cancel s rq hp hv, raised_ev s _ (by decide), wordsKept_ev s _ 4, only_ev s _ 4⟩

end Sys2Proof.Proofs
end

section
/-! PROOFS. The queues of the memory channels (R128, R130 to R135): which operations leave them as they are. An operation whose
frame (Laws/Frames.lean) leaves the whole memory side has it from there; for the others `queues_f` says it of `f`. -/

namespace Sys2Proof.Machine
open Sys2Proof

/-- The mask of every field of State but the memory side, which is bit 11 of 25. -/
abbrev allButDram : Nat := 2 ^ 25 - 1 - 2 ^ 11

theorem Evolves.dram_eq {s t : State} (h : Evolves allButDram s t) : t.dram = s.dram := h.same .dram (by decide)

/-! ### Choices, folds and continuations -/

@[simp] theorem queues_ite {c : Prop} [Decidable c] (s t : State) :
    (if c then s else t).dram.chans = if c then s.dram.chans else t.dram.chans := by split <;> rfl

theorem queues_of_ite {c : Prop} [Decidable c] {s t : State} {q : Tab DramChan} (h : c → s.dram.chans = q)
    (g : ¬c → t.dram.chans = q) : (if c then s else t).dram.chans = q := by
  split
  · exact h ‹_›
  · exact g ‹_›

@[simp] theorem queues_foldl {α : Type} {f : State → α → State} (h : ∀ s x, (f s x).dram.chans = s.dram.chans)
    (l : List α) (s : State) : (l.foldl f s).dram.chans = s.dram.chans := by
  induction l generalizing s with
  | nil => rfl
  | cons x l ih => rw [List.foldl_cons, ih, h]

@[simp] theorem queues_foldl_fst {α β : Type} {f : State × β → α → State × β}
    (h : ∀ p x, (f p x).1.dram.chans = p.1.dram.chans) (l : List α) (p : State × β) :
    (l.foldl f p).1.dram.chans = p.1.dram.chans := by
  induction l generalizing p with
  | nil => rfl
  | cons x l ih => rw [List.foldl_cons, ih, h]

@[simp] theorem queues_onEntry {f : State → JEntry → State} (h : ∀ s e, (f s e).dram.chans = s.dram.chans) (s : State)
    (slot op : Nat) : (onEntry s slot op f).dram.chans = s.dram.chans := by
  unfold onEntry
  split
  · exact h _ _
  · rfl

@[simp] theorem queues_gated {f : State → State} (h : ∀ s, (f s).dram.chans = s.dram.chans) (s : State) (a v : Nat) :
    (gated s a v f).dram.chans = s.dram.chans := by
  unfold gated
  split
  · next g => rw [(gate_evolves _ _ _ g (by decide) .rfl).dram_eq]
  · exact h _

theorem queues_onView {f : State → State} (h : ∀ s, (f s).dram.chans = s.dram.chans) (s : State) (v : List Nat) :
    (onView s v f).dram.chans = s.dram.chans := by
  have swap (s : State) (i : Nat) : (swapPass s i).dram.chans = s.dram.chans := by
    rw [(swapPass_evolves s i (by decide) .rfl).dram_eq]
  rw [onView, queues_foldl swap, h, inView, queues_foldl swap]

@[simp] theorem queues_onPass {f : State → State} (h : ∀ s, (f s).dram.chans = s.dram.chans) (s : State) (b : Nat)
    (p : State → Bool) : (onPass s b p f).dram.chans = s.dram.chans := by
  unfold onPass
  split
  · exact queues_onView h s _
  · rfl

/-! ### Operations that leave the memory side -/

@[simp] theorem dram_drawFree (s : State) (bits : Nat) : (drawFree s bits).2.dram = s.dram := rfl

@[simp] theorem dram_refuse (s : State) (p : Nat) : (refuse s p).dram = s.dram :=
  (refuse_evolves _ _ (by decide) .rfl).dram_eq

@[simp] theorem dram_pairSendSeq (s : State) (type flags : Nat) (body : List Byte) :
    (pairSendSeq s type flags body).dram = s.dram :=
  (pairSendSeq_evolves _ _ _ _ (by decide) .rfl).dram_eq

@[simp] theorem dram_slowSync (s : State) : (slowSync s).dram = s.dram :=
  (slowSync_evolves _ (by decide) .rfl).dram_eq

@[simp] theorem dram_ptShowAll (old s : State) : (ptShowAll old s).dram = s.dram :=
  (ptShowAll_evolves _ _ (by decide) .rfl).dram_eq

@[simp] theorem dram_fault (s : State) (code cls page bar : Nat) (detail : List Nat) :
    (fault s code cls page bar detail).dram = s.dram :=
  (fault_evolves _ _ _ _ _ _ (by decide) .rfl).dram_eq

@[simp] theorem dram_setWin (s : State) (b : Nat) (w : List WinSlot) : (setWin s b w).dram = s.dram :=
  (setWin_evolves _ _ _ (by decide) .rfl).dram_eq

@[simp] theorem dram_store (s : State) (a v : Nat) : (store s a v).dram = s.dram :=
  (store_evolves _ _ _ (by decide) .rfl).dram_eq

@[simp] theorem dram_plainWrite (s : State) (a v : Nat) : (plainWrite s a v).dram = s.dram :=
  (plainWrite_evolves _ _ _ (by decide) .rfl).dram_eq

@[simp] theorem dram_takeInput (s : State) (kind bar : Nat) (line : Option Nat) (payload : List Byte) :
    (takeInput s kind bar line payload).dram = s.dram :=
  (takeInput_evolves _ _ _ _ _ (by decide) .rfl).dram_eq

@[simp] theorem dram_dramCmd (s : State) (k kind : Nat) : (dramCmd s k kind).dram = s.dram :=
  (dramCmd_evolves _ _ _ (by decide) .rfl).dram_eq

@[simp] theorem dram_countRead (s : State) (a cls : Nat) : (countRead s a cls).dram = s.dram :=
  (countRead_evolves _ _ _ (by decide) .rfl).dram_eq

@[simp] theorem dram_finish (s : State) (slot : Nat) (status r0 r1 : Nat) (result : List Byte) (img : Nat) :
    (finish s slot status r0 r1 result img).dram = s.dram :=
  (finish_evolves _ _ _ _ _ _ _ (by decide) .rfl).dram_eq

@[simp] theorem dram_finishStatus (s : State) (slot status : Nat) : (finishStatus s slot status).dram = s.dram :=
  (finishStatus_evolves _ _ _ (by decide) .rfl).dram_eq

@[simp] theorem dram_claimPrint (s : State) : (claimPrint s).dram = s.dram :=
  (claimPrint_evolves _ (by decide) .rfl).dram_eq

@[simp] theorem dram_engineBusy (s : State) (e : Nat) (on : Bool) : (engineBusy s e on).dram = s.dram :=
  (engineBusy_evolves _ _ _ (by decide) .rfl).dram_eq

@[simp] theorem dram_jobAlloc (s : State) (job : Nat) (f : Nat → Nat) : (jobAlloc s job f).dram = s.dram :=
  (jobAlloc_evolves _ _ _ (by decide) .rfl).dram_eq

@[simp] theorem dram_tileDefective (s : State) (t : Tile) (state code evBit : Nat) :
    (tileDefective s t state code evBit).dram = s.dram :=
  (tileDefective_evolves _ _ _ _ _ (by decide) .rfl).dram_eq

@[simp] theorem dram_askPartner (s : State) (t : Tile) (step : Nat) : (askPartner s t step).dram = s.dram :=
  (askPartner_evolves _ _ _ (by decide) .rfl).dram_eq

@[simp] theorem dram_recoveryEnd (s : State) (t : Tile) (ok : Bool) (how : Nat) :
    (recoveryEnd s t ok how).dram = s.dram :=
  (recoveryEnd_evolves _ _ _ _ (by decide) .rfl).dram_eq

@[simp] theorem dram_recoverByPartner (s : State) (t : Tile) : (recoverByPartner s t).dram = s.dram :=
  (recoverByPartner_evolves _ _ (by decide) .rfl).dram_eq

@[simp] theorem dram_dropFetches (s : State) (t : Tile) : (dropFetches s t).dram = s.dram :=
  (dropFetches_evolves _ _ (by decide) .rfl).dram_eq

@[simp] theorem dram_withFrame (s : State) (x : Nat) (g : Frame → Frame) : (withFrame s x g).dram = s.dram :=
  (withFrame_evolves _ _ _ (by decide) .rfl).dram_eq

@[simp] theorem dram_resetLow (s : State) (bs : List Nat) : (resetLow s bs).dram = s.dram :=
  (resetLow_evolves _ _ (by decide) .rfl).dram_eq

@[simp] theorem dram_idleLanes (s : State) : (idleLanes s).dram = s.dram :=
  (idleLanes_evolves _ (by decide) .rfl).dram_eq

@[simp] theorem dram_flashCut (s : State) : (flashCut s).dram = s.dram :=
  (flashCut_evolves _ (by decide) .rfl).dram_eq

@[simp] theorem dram_startBoot (s : State) (cause core : Nat) : (startBoot s cause core).dram = s.dram :=
  (startBoot_evolves _ _ _ (by decide) .rfl).dram_eq

@[simp] theorem dram_releaseOutputs (s : State) : (releaseOutputs s).dram = s.dram :=
  (releaseOutputs_evolves _ (by decide) .rfl).dram_eq

@[simp] theorem dram_dispStart (s : State) : (dispStart s).dram = s.dram :=
  (dispStart_evolves _ (by decide) .rfl).dram_eq

@[simp] theorem dram_bootReady (s : State) : (bootReady s).dram = s.dram :=
  (bootReady_evolves _ (by decide) .rfl).dram_eq

@[simp] theorem queues_refuseIf {f : State → State} (h : ∀ s, (f s).dram.chans = s.dram.chans) (c : Bool) (s : State)
    (a v : Nat) : (refuseIf c s a v f).dram.chans = s.dram.chans := by
  simp [refuseIf, h]

@[simp] theorem queues_withData {f : State → State} (h : ∀ s, (f s).dram.chans = s.dram.chans) (s : State) (slot : Nat)
    (e : JEntry) (n : Nat) : (withData s slot e n f).dram.chans = s.dram.chans := by
  simp [withData, h]

theorem dram_of_acceptCommand {s t : State} {n ring seq : Nat} {entry data : List Byte} {r : Accepted}
    (e : acceptCommand s n ring seq entry data = (r, t)) : t.dram = s.dram := by
  have h := (acceptCommand_evolves s n ring seq entry data (by decide) .rfl).dram_eq
  rwa [e] at h

theorem queues_bootTrims {s u : State} (h : u.dram.chans = s.dram.chans) (y : Sys) (groups : List Nat) :
    (bootTrims { u with sys := y } groups).dram.chans = s.dram.chans := by
  rw [(bootTrims_evolves _ _ (by decide) .rfl).dram_eq]
  exact h

/-! ### Shared operations -/

@[simp] theorem queues_demand (s : State) (c n : Nat) : (demand s c n).dram.chans = s.dram.chans := by
  unfold demand
  repeat' split
  all_goals simp

@[simp] theorem queues_setSub (s : State) (c : Nat) (v : DramSub) : (setSub s c v).dram.chans = s.dram.chans := by
  simp [setSub]

/-! ### Building a row-line -/

@[simp] theorem queues_expectColumn (s : State) (b : Nat) (br : Bar) (n w stripe : Nat) (dirty : Bool) (c : Nat) :
    (expectColumn s b br n w stripe dirty c).dram.chans = s.dram.chans := by
  simp [expectColumn]

@[simp] theorem queues_expectLine (s : State) (b : Nat) (br : Bar) (h r n : Nat) (dirty : Bool) :
    (expectLine s b br h r n dirty).dram.chans = s.dram.chans := by
  unfold expectLine
  repeat' split
  all_goals simp

@[simp] theorem queues_buildRowLine (s : State) (b : Nat) (l : RowLine) (t : Stream) :
    (buildRowLine s b l t).dram.chans = s.dram.chans := by
  simp [buildRowLine, (countColumn_evolves _ _ _ _ _ _ _ (by decide) .rfl).dram_eq,
    (countLevels_evolves _ _ _ _ (by decide) .rfl).dram_eq, (completeLine_evolves _ _ _ (by decide) .rfl).dram_eq,
    (releaseSlots_evolves _ _ (by decide) .rfl).dram_eq]

/-! ### The memory controller -/

@[simp] theorem queues_trainArea (s : State) (k : Nat) : (trainArea s k).dram.chans = s.dram.chans := by
  simp [trainArea]

@[simp] theorem queues_setSubState (s : State) (k v : Nat) : (setSubState s k v).dram.chans = s.dram.chans := by
  simp [setSubState]

@[simp] theorem queues_syncDram (s : State) : (syncDram s).dram.chans = s.dram.chans := by
  simp [syncDram]

@[simp] theorem queues_syncSlow (s : State) : (syncSlow s).dram.chans = s.dram.chans := by
  simp [syncSlow]

@[simp] theorem queues_makeHot (s : State) (k : Nat) : (makeHot s k).dram.chans = s.dram.chans := by
  simp [makeHot]

@[simp] theorem queues_execHotHoldExpiry (sub : Nat) (s : State) :
    (taken s (execHotHoldExpiry sub s)).dram.chans = s.dram.chans := by
  simp [execHotHoldExpiry, taken]

@[simp] theorem queues_dramSensor (s : State) (sensor : Nat) (value : Int) (good : Bool) :
    (dramSensor s sensor value good).dram.chans = s.dram.chans := by
  simp [dramSensor]

@[simp] theorem queues_hotCfgChanged (s : State) : (hotCfgChanged s).dram.chans = s.dram.chans := by
  simp [hotCfgChanged]

@[simp] theorem queues_execRefresh (sub : Nat) (s : State) :
    (taken s (execRefresh sub s)).dram.chans = s.dram.chans := by
  simp [execRefresh, taken]

@[simp] theorem queues_execRetrainStep (sub edge : Nat) (move : Int) (margins : List Nat) (s : State) :
    (taken s (execRetrainStep sub edge move margins s)).dram.chans = s.dram.chans := by
  simp [execRetrainStep, taken, (judgeSweep_evolves _ _ _ (by decide) .rfl).dram_eq]

@[simp] theorem queues_touchRow (s : State) (k a : Nat) (x : Cand) : (touchRow s k a x).dram.chans = s.dram.chans := by
  simp [touchRow]

@[simp] theorem queues_enterSelf (s : State) : (enterSelf s).dram.chans = s.dram.chans := by
  simp [enterSelf]

@[simp] theorem queues_execFreqReq (rq : Requester) (target : Nat) (req : Bool) (s : State) :
    (taken s (execFreqReq rq target req s)).dram.chans = s.dram.chans := by
  simp [execFreqReq, taken]

@[simp] theorem queues_beginThaw (s : State) (n : Nat) : (beginThaw s n).dram.chans = s.dram.chans := by
  simp [beginThaw]

@[simp] theorem queues_execDerateWindow (s : State) : (taken s (execDerateWindow s)).dram.chans = s.dram.chans := by
  simp [execDerateWindow, taken]

/-! ### Frames and entries of the host -/

@[simp] theorem queues_execEthFrameReceive (port : Nat) (f : EthFrame) (s : State) :
    (taken s (execEthFrameReceive port f s)).dram.chans = s.dram.chans := by
  simp [execEthFrameReceive, taken, (ethDrop_evolves _ _ (by decide) .rfl).dram_eq,
    (hostFrame_evolves _ _ _ (by decide) .rfl).dram_eq, (ringFrame_evolves _ _ _ (by decide) .rfl).dram_eq]

@[simp] theorem queues_execSubmissionFetch (q : Nat) (entry data : List Byte) (s : State) :
    (taken s (execSubmissionFetch q entry data s)).dram.chans = s.dram.chans := by
  unfold execSubmissionFetch
  dsimp only
  split
  · rfl
  · split
    · split <;> simp [(completeError_evolves _ _ _ _ _ _ (by decide) .rfl).dram_eq,
      (journalEntry_evolves _ _ _ _ _ _ _ (by decide) .rfl).dram_eq,
      (advanceHead_evolves _ _ (by decide) .rfl).dram_eq, taken]
    · split
      all_goals
        next e =>
          simp [taken, dram_of_acceptCommand e, (answerAgain_evolves _ _ _ (by decide) .rfl).dram_eq,
            (advanceHead_evolves _ _ (by decide) .rfl).dram_eq]

/-! ### Tiles, their store and the thaw engines -/

@[simp] theorem queues_writeMem (s : State) (a : Nat) (bs : List Byte) :
    (writeMem s a bs).dram.chans = s.dram.chans := by
  simp [writeMem]

@[simp] theorem queues_moveCont (s : State) (c : Tile × Nat × Nat × Nat) (g : Nat) :
    (moveCont s c g).dram.chans = s.dram.chans := by
  unfold moveCont
  split <;> simp [(markDirty_evolves _ _ _ (by decide) .rfl).dram_eq]

@[simp] theorem queues_compactStore (s : State) : (compactStore s).dram.chans = s.dram.chans := by
  simp [compactStore]

theorem queues_of_placeStore {s t : State} {n g : Nat} (e : placeStore s n = some (g, t)) :
    t.dram.chans = s.dram.chans := by
  unfold placeStore at e
  split at e
  · cases e; rfl
  · obtain ⟨_, _, h⟩ := Option.map_eq_some_iff.mp e
    cases h
    exact queues_compactStore s

@[simp] theorem queues_tilePut (s : State) (slot : Nat) (e : JEntry) :
    (tilePut s slot e).dram.chans = s.dram.chans := by
  unfold tilePut
  dsimp only
  split
  · simp
  · split
    · simp
    · simp
    · split_ifs
      · simp
      · rfl
      · simp
      · split
        · simp
        · next e => simp [queues_of_placeStore e]
      · simp

@[simp] theorem queues_fragmentDone (s : State) (slot : Nat) (e : JEntry) :
    (fragmentDone s slot e).dram.chans = s.dram.chans := by
  unfold fragmentDone
  dsimp only
  repeat' split
  all_goals simp [(discardArriving_evolves _ _ (by decide) .rfl).dram_eq,
    (storeCheck_evolves _ _ _ _ _ _ (by decide) .rfl).dram_eq]

@[simp] theorem queues_tilePutAt (s : State) (slot : Nat) : (tilePutAt s slot).dram.chans = s.dram.chans := by
  unfold tilePutAt
  dsimp only
  repeat' split
  all_goals simp

@[simp] theorem queues_execFragmentStoreDone (slot : Nat) (s : State) :
    (taken s (execFragmentStoreDone slot s)).dram.chans = s.dram.chans := by
  unfold execFragmentStoreDone
  split <;> simp [taken]

@[simp] theorem queues_enqueueThaw (s : State) (order : Nat) (t : Tile) :
    (enqueueThaw s order t).dram.chans = s.dram.chans := by
  simp [enqueueThaw]

@[simp] theorem queues_execThawStart (engine : Nat) (s : State) :
    (taken s (execThawStart engine s)).dram.chans = s.dram.chans := by
  unfold execThawStart
  repeat' split
  all_goals simp [taken]

@[simp] theorem queues_writeSlot (s : State) (k w : Nat) (content : List Byte) :
    (writeSlot s k w content).dram.chans = s.dram.chans := by
  simp [writeSlot]

@[simp] theorem queues_tileThawed (s : State) (t : Tile) (content : List Byte) :
    (tileThawed s t content).dram.chans = s.dram.chans := by
  unfold tileThawed
  split <;> simp

@[simp] theorem queues_thawOutcome (s : State) (e : Nat) (t : Tile) (code : Nat) (out : List Byte) :
    (thawOutcome s e t code out).dram.chans = s.dram.chans := by
  simp [thawOutcome, (frozenChecked_evolves _ _ _ (by decide) .rfl).dram_eq]

@[simp] theorem queues_execThawDone (engine : Nat) (s : State) :
    (taken s (execThawDone engine s)).dram.chans = s.dram.chans := by
  unfold execThawDone
  dsimp only
  repeat' split
  all_goals simp [taken]

@[simp] theorem queues_recoverTile (s : State) (t : Tile) : (recoverTile s t).dram.chans = s.dram.chans := by
  simp [recoverTile]

@[simp] theorem queues_fetchFails (s : State) (b : Nat) (w : WinSlot) (t : Tile) :
    (fetchFails s b w t).dram.chans = s.dram.chans := by
  unfold fetchFails
  dsimp only
  repeat' split
  all_goals simp [(joinRecovery_evolves _ _ _ _ (by decide) .rfl).dram_eq]

@[simp] theorem queues_execTileFetchDone (bar x y : Nat) (s : State) :
    (taken s (execTileFetchDone bar x y s)).dram.chans = s.dram.chans := by
  unfold execTileFetchDone
  repeat' split
  all_goals simp [taken]

@[simp] theorem queues_storeFrozen (s : State) (t : Tile) (c : List Byte) :
    (storeFrozen s t c).dram.chans = s.dram.chans := by
  unfold storeFrozen
  split
  · rfl
  · split_ifs
    · split
      · rfl
      · next e => simp [queues_of_placeStore e]
    · rfl

@[simp] theorem queues_execFreezeDone (engine client : Nat) (input : List Byte) (flushes : List Nat) (s : State) :
    (taken s (execFreezeDone engine client input flushes s)).dram.chans = s.dram.chans := by
  unfold execFreezeDone
  dsimp only
  repeat' split
  all_goals simp [taken]

@[simp] theorem queues_execInflate (slot : Nat) (s : State) :
    (taken s (execInflate slot s)).dram.chans = s.dram.chans := by
  simp only [execInflate, taken]
  refine queues_onEntry (fun s e => ?_) s slot 0x30
  refine queues_withData (fun s => ?_) s slot e 40960
  split_ifs
  · simp
  · rfl
  · split <;> simp

/-! ### The preview -/

@[simp] theorem queues_compose (s : State) (p : Nat) : (compose s p).dram.chans = s.dram.chans := by
  simp [compose]

@[simp] theorem queues_sampleLine (s : State) (b m : Nat) : (sampleLine s b m).dram.chans = s.dram.chans := by
  simp [sampleLine]

/-! ### Line starts -/

@[simp] theorem queues_thawTile (s : State) (br : Bar) (a x : Nat) : (thawTile s br a x).dram.chans = s.dram.chans := by
  simp [thawTile, (tileFault_evolves _ _ _ _ _ (by decide) .rfl).dram_eq]

@[simp] theorem queues_thawRows (s : State) (b : Nat) (lo hi : Int) :
    (thawRows s b lo hi).dram.chans = s.dram.chans := by
  unfold thawRows
  dsimp only
  repeat' split
  all_goals simp

@[simp] theorem queues_thawLines (s : State) (b : Nat) (prev : Option Int) :
    (thawLines s b prev).dram.chans = s.dram.chans := by
  simp [thawLines]

@[simp] theorem queues_startFetch (s : State) (b : Nat) (br : Bar) (t : Tile) (a : Nat) :
    (startFetch s b br t a).dram.chans = s.dram.chans := by
  simp [startFetch]

@[simp] theorem queues_needTile (s : State) (b n x : Nat) : (needTile s b n x).dram.chans = s.dram.chans := by
  unfold needTile
  dsimp only
  repeat' split
  all_goals simp

@[simp] theorem queues_openFetches (s : State) (b : Nat) : (openFetches s b).dram.chans = s.dram.chans := by
  simp [openFetches]

@[simp] theorem queues_newBuildLine (s : State) (b : Nat) (prev : Option Int) :
    (newBuildLine s b prev).dram.chans = s.dram.chans := by
  simp [newBuildLine, (loopLine_evolves _ _ (by decide) .rfl).dram_eq]

@[simp] theorem queues_referenceStart (s : State) (b k n : Nat) :
    (referenceStart s b k n).dram.chans = s.dram.chans := by
  simp [referenceStart, (overspeed_evolves _ _ (by decide) .rfl).dram_eq,
    (quietLanes_evolves _ _ (by decide) .rfl).dram_eq]

@[simp] theorem queues_startRowLine (s : State) (b i : Nat) : (startRowLine s b i).dram.chans = s.dram.chans := by
  unfold startRowLine
  dsimp only
  repeat' split
  all_goals simp [(recordLate_evolves _ _ _ _ (by decide) .rfl).dram_eq]

@[simp] theorem queues_lineStart (s : State) (b i : Nat) : (lineStart s b i).dram.chans = s.dram.chans := by
  unfold lineStart
  dsimp only
  repeat' split
  all_goals simp

@[simp] theorem queues_lineStarts (s : State) (b : Nat) : (lineStarts s b).dram.chans = s.dram.chans := by
  simp [lineStarts, (endStarts_evolves _ _ (by decide) .rfl).dram_eq, (markMiss_evolves _ _ (by decide) .rfl).dram_eq]

@[simp] theorem queues_finishLine (s : State) (b : Nat) : (finishLine s b).dram.chans = s.dram.chans := by
  unfold finishLine
  repeat' split
  all_goals simp [(sendIfLate_evolves _ _ _ _ (by decide) .rfl).dram_eq,
    (compareLines_evolves _ (by decide) .rfl).dram_eq, (lineLBuilt_evolves _ (by decide) .rfl).dram_eq,
    (freePassed_evolves _ _ (by decide) .rfl).dram_eq, (fetchLate_evolves _ _ _ _ _ _ (by decide) .rfl).dram_eq,
    (rearm_evolves _ _ _ (by decide) .rfl).dram_eq]

@[simp] theorem queues_execRowLineBuilt (bar : Nat) (s : State) :
    (taken s (execRowLineBuilt bar s)).dram.chans = s.dram.chans := by
  simp [execRowLineBuilt, taken]

/-! ### Taps -/

@[simp] theorem queues_writeTap (s : State) (x slot t : Nat) : (writeTap s x slot t).dram.chans = s.dram.chans := by
  simp [writeTap, (setTaps_evolves _ _ _ (by decide) .rfl).dram_eq]

/-! ### Camera lines and frames -/

@[simp] theorem queues_writeLine (s : State) (x : Nat) (f : Frame) (payload : List Byte) :
    (writeLine s x f payload).dram.chans = s.dram.chans := by
  simp [writeLine]

@[simp] theorem queues_takeLine (s : State) (x wc : Nat) (payload : List Byte) :
    (takeLine s x wc payload).dram.chans = s.dram.chans := by
  unfold takeLine
  split <;> simp [(lostLine_evolves _ _ (by decide) .rfl).dram_eq]

@[simp] theorem queues_execCsiPacket (port vc dataType wordCount : Nat) (ecc : EccStatus) (crcOk : Bool)
    (payload : List Byte) (s : State) :
    (taken s (execCsiPacket port vc dataType wordCount ecc crcOk payload s)).dram.chans = s.dram.chans := by
  unfold execCsiPacket
  dsimp only
  repeat' split
  all_goals simp [taken, (badPacket_evolves _ _ _ _ (by decide) .rfl).dram_eq]

@[simp] theorem queues_processFrame (s : State) (x : Nat) (f : Frame) :
    (processFrame s x f).dram.chans = s.dram.chans := by
  simp [processFrame, (withParams_evolves _ _ _ _ (by decide) .rfl).dram_eq,
    (useFrame_evolves _ _ _ (by decide) .rfl).dram_eq]

@[simp] theorem queues_execPipelineDone (s : State) : (taken s (execPipelineDone s)).dram.chans = s.dram.chans := by
  unfold execPipelineDone
  split <;> simp [taken, (setSlot_evolves _ _ _ _ (by decide) .rfl).dram_eq]

/-! ### Job starts and marks -/

@[simp] theorem queues_jobBegun (s : State) (j : Job) (bs : List Nat) :
    (jobBegun s j bs).dram.chans = s.dram.chans := by
  simp [jobBegun, (showLoads_evolves _ _ (by decide) .rfl).dram_eq,
    (sendJobItems_evolves _ _ (by decide) .rfl).dram_eq]

@[simp] theorem queues_startJob (s : State) (slot : Nat) (j : Job) (starts : List (Nat × Int)) :
    (startJob s slot j starts).dram.chans = s.dram.chans := by
  simp [startJob, (beginPass_evolves _ _ _ _ (by decide) .rfl).dram_eq]

@[simp] theorem queues_armJob (s : State) (slot : Nat) (j : Job) (ofs : Int) (e : JEntry) :
    (armJob s slot j ofs e).dram.chans = s.dram.chans := by
  simp [armJob, (placePass_evolves _ _ _ (by decide) .rfl).dram_eq]

@[simp] theorem queues_jobStart (s : State) (slot : Nat) (e : JEntry) :
    (jobStart s slot e).dram.chans = s.dram.chans := by
  unfold jobStart
  split <;> simp

@[simp] theorem queues_applyStart (s : State) (payload : List Byte) :
    (applyStart s payload).dram.chans = s.dram.chans := by
  unfold applyStart
  repeat' split
  all_goals simp

@[simp] theorem queues_releaseStarts (s : State) : (releaseStarts s).dram.chans = s.dram.chans := by
  refine queues_foldl (fun s j => ?_) s.print.jobs s
  dsimp only
  repeat' split
  all_goals simp

@[simp] theorem queues_takeMark (s : State) (b : Nat) (m sb : Int) : (takeMark s b m sb).dram.chans = s.dram.chans := by
  simp [takeMark, (armMarks_evolves _ _ _ (by decide) .rfl).dram_eq, (testArmed_evolves _ _ (by decide) .rfl).dram_eq]

@[simp] theorem queues_acceptMark (s : State) (b : Nat) (m : Int) : (acceptMark s b m).dram.chans = s.dram.chans := by
  unfold acceptMark
  dsimp only
  repeat' split
  all_goals simp [(marksDone_evolves _ _ (by decide) .rfl).dram_eq]

@[simp] theorem queues_execMark (bar : Nat) (falling : Bool) (edgesBack : Nat) (s : State) :
    (taken s (execMark bar falling edgesBack s)).dram.chans = s.dram.chans := by
  unfold execMark
  dsimp only
  repeat' split
  all_goals simp [taken, (disarmJob_evolves _ _ (by decide) .rfl).dram_eq]

/-! ### The end of a step -/

@[simp] theorem queues_execStepDone (s : State) : (taken s (execStepDone s)).dram.chans = s.dram.chans := by
  simp [execStepDone, taken]

/-! ### Copies to a joining unit -/

@[simp] theorem queues_copySlot (s : State) (off : Nat) (data : List Byte) :
    (copySlot s off data).dram.chans = s.dram.chans := by
  unfold copySlot
  dsimp only
  repeat' split
  all_goals simp

@[simp] theorem queues_onCopy (s : State) (body : List Byte) : (onCopy s body).dram.chans = s.dram.chans := by
  unfold onCopy
  extract_lets region off data u w e
  have hu : u.dram.chans = s.dram.chans := by simp [u]
  clear_value u
  repeat' with_reducible refine queues_of_ite (fun _ => ?_) (fun _ => ?_)
  · rfl
  · simp
  · rfl
  · simp [hu]
  · exact hu
  · simp [hu]
  · exact hu
  · split <;> simp [hu]
  · split <;> simp [hu]
  all_goals simp [hu, (copyTile_evolves _ _ (by decide) .rfl).dram_eq,
    (copyLoop_evolves _ _ _ _ (by decide) .rfl).dram_eq]

@[simp] theorem queues_catchStart (s : State) (x : Nat × Nat × List Int × Bool) :
    (catchStart s x).dram.chans = s.dram.chans := by
  unfold catchStart
  split <;> simp

@[simp] theorem queues_aligned (s : State) : (aligned s).dram.chans = s.dram.chans := by
  simp [aligned, (becomeReady_evolves _ _ (by decide) .rfl).dram_eq]

@[simp] theorem queues_onCatchup (s : State) (body : List Byte) : (onCatchup s body).dram.chans = s.dram.chans := by
  simp [onCatchup, (clearRuns_evolves _ (by decide) .rfl).dram_eq]

@[simp] theorem queues_onPosition (s : State) (body : List Byte) : (onPosition s body).dram.chans = s.dram.chans := by
  unfold onPosition
  dsimp only
  repeat' split
  all_goals simp [(joinFail_evolves _ (by decide) .rfl).dram_eq]

@[simp] theorem queues_onCopyCtrl (s : State) (body : List Byte) : (onCopyCtrl s body).dram.chans = s.dram.chans := by
  simp [onCopyCtrl, (sendTables_evolves _ (by decide) .rfl).dram_eq, (clearCopied_evolves _ (by decide) .rfl).dram_eq,
    (sendCatchup_evolves _ _ (by decide) .rfl).dram_eq, (endCopy_evolves _ (by decide) .rfl).dram_eq]

@[simp] theorem queues_onTileData (s : State) (body : List Byte) : (onTileData s body).dram.chans = s.dram.chans := by
  unfold onTileData
  dsimp only
  repeat' split
  all_goals simp [(scrubError_evolves _ (by decide) .rfl).dram_eq]

@[simp] theorem queues_execDramScrub (job plane x y : Nat) (s : State) :
    (taken s (execDramScrub job plane x y s)).dram.chans = s.dram.chans := by
  unfold execDramScrub
  split <;> simp [taken]

/-! ### Messages of the pair -/

@[simp] theorem queues_deliverPair (s : State) (type : Nat) (b : List Byte) :
    (deliverPair s type b).dram.chans = s.dram.chans := by
  simp [deliverPair, (onCrc_evolves _ _ (by decide) .rfl).dram_eq, (onTileReq_evolves _ _ (by decide) .rfl).dram_eq,
    (onFault_evolves _ (by decide) .rfl).dram_eq, (onHello_evolves _ _ (by decide) .rfl).dram_eq,
    (onInput_evolves _ _ (by decide) .rfl).dram_eq, (holdHealth_evolves _ _ (by decide) .rfl).dram_eq]

@[simp] theorem queues_deliverEarly (k : Nat) (s : State) : (deliverEarly k s).dram.chans = s.dram.chans := by
  induction k generalizing s with
  | zero => rfl
  | succ k ih =>
    simp only [deliverEarly]
    split
    · rfl
    · simp [ih]

@[simp] theorem queues_inOrder (s : State) (type flags seq : Nat) (b : List Byte) :
    (inOrder s type flags seq b).dram.chans = s.dram.chans := by
  simp [inOrder]

@[simp] theorem queues_pairReceive (s : State) (m : PairRx) (t : Nat) :
    (pairReceive s m t).dram.chans = s.dram.chans := by
  simp [pairReceive, (pairTime_evolves _ _ _ (by decide) .rfl).dram_eq, (onHb_evolves _ _ (by decide) .rfl).dram_eq,
    (takeAck_evolves _ _ (by decide) .rfl).dram_eq, (partnerRestart_evolves _ _ _ (by decide) .rfl).dram_eq]

/-! ### Self-refresh and power states -/

@[simp] theorem queues_selfRefresh (s : State) : (selfRefresh s).dram.chans = s.dram.chans := by
  simp [selfRefresh]

@[simp] theorem queues_execPstateDoze (rq : Requester) (s : State) :
    (taken s (execPstateDoze rq s)).dram.chans = s.dram.chans := by
  simp [execPstateDoze, taken]

@[simp] theorem queues_execPstateDeep (rq : Requester) (s : State) :
    (taken s (execPstateDeep rq s)).dram.chans = s.dram.chans := by
  simp [execPstateDeep, taken]

/-! ### Loss of the supply -/

@[simp] theorem queues_execDramSupplyLoss (s : State) : (taken s (execDramSupplyLoss s)).dram.chans = s.dram.chans := by
  simp [execDramSupplyLoss, taken, (journalLost_evolves _ (by decide) .rfl).dram_eq]

/-! ### Temperatures -/

@[simp] theorem queues_remoteHot (s : State) (r : Nat) : (remoteHot s r).dram.chans = s.dram.chans := by
  simp [remoteHot, (setSensor_evolves _ _ _ (by decide) .rfl).dram_eq]

@[simp] theorem queues_measure (s : State) (cs : List Conv) : (measure s cs).dram.chans = s.dram.chans := by
  simp [measure, (takeConv_evolves _ _ _ (by decide) .rfl).dram_eq,
    (replaceFailed_evolves _ (by decide) .rfl).dram_eq, (updateLevel_evolves _ (by decide) .rfl).dram_eq,
    (checkStop_evolves _ (by decide) .rfl).dram_eq]

/-! ### Bring-up -/

@[simp] theorem queues_memTrained (s : State) : (memTrained s).dram.chans = s.dram.chans := by
  simp [memTrained]

@[simp] theorem queues_bootStep (s : State) (r : BootResult) : (bootStep s r).dram.chans = s.dram.chans := by
  unfold bootStep
  split
  · rw [(bootChoose_evolves _ (by decide) .rfl).dram_eq]
  · rw [(judgeImage_evolves _ _ (by decide) .rfl).dram_eq]
  · rw [(judgeImage_evolves _ _ (by decide) .rfl).dram_eq]
  · refine queues_bootTrims ?_ _ _
    rw [queues_memTrained, (endTrims_evolves _ _ (by decide) .rfl).dram_eq]
  all_goals
    simp [(endTrims_evolves _ _ (by decide) .rfl).dram_eq, (selftestDone_evolves _ _ (by decide) .rfl).dram_eq]

@[simp] theorem queues_execBootStepDone (r : BootResult) (s : State) :
    (taken s (execBootStepDone r s)).dram.chans = s.dram.chans := by
  simp [execBootStepDone, taken]

/-! ### Counted edges -/

@[simp] theorem queues_countEdge (s : State) (c : Nat) (d : Int) (t : Nat) :
    (countEdge s c d t).dram.chans = s.dram.chans := by
  simp [countEdge, (masterEvent_evolves _ _ (by decide) .rfl).dram_eq,
    (chooseWindow_evolves _ _ (by decide) .rfl).dram_eq, (reversal_evolves _ _ _ (by decide) .rfl).dram_eq]

@[simp] theorem queues_execCountEdge (chan : Nat) (u v w : Bool) (phase : Nat) (s : State) :
    (taken s (execCountEdge chan u v w phase s)).dram.chans = s.dram.chans := by
  unfold execCountEdge
  dsimp only
  repeat' split
  all_goals simp [taken, (quadErr_evolves _ _ (by decide) .rfl).dram_eq]

/-! ### Register writes of a block -/

@[simp] theorem queues_clkWrite (s : State) (rq : Requester) (o v : Nat) :
    (clkWrite s rq o v).dram.chans = s.dram.chans := by
  simp [clkWrite]

@[simp] theorem queues_drgWrite (s : State) (rq : Requester) (o v : Nat) :
    (drgWrite s rq o v).dram.chans = s.dram.chans := by
  simp [drgWrite]

@[simp] theorem queues_blockWrite (s : State) (rq : Requester) (p o v : Nat) :
    (blockWrite s rq p o v).dram.chans = s.dram.chans := by
  simp [blockWrite, (snapWrite_evolves _ _ (by decide) .rfl).dram_eq,
    (thmWrite_evolves _ _ _ _ (by decide) .rfl).dram_eq, (trimWrite_evolves _ _ _ _ (by decide) .rfl).dram_eq,
    (evcWrite_evolves _ _ _ _ _ (by decide) .rfl).dram_eq, (pinWrite_evolves _ _ _ _ (by decide) .rfl).dram_eq,
    (nvmWrite_evolves _ _ _ _ (by decide) .rfl).dram_eq, (ethWrite_evolves _ _ _ _ (by decide) .rfl).dram_eq,
    (ringWrite_evolves _ _ _ _ (by decide) .rfl).dram_eq, (ptcWrite_evolves _ _ _ _ (by decide) .rfl).dram_eq,
    (drcWrite_evolves _ _ _ _ (by decide) .rfl).dram_eq, (thawWrite_evolves _ _ _ (by decide) .rfl).dram_eq,
    (posWrite_evolves _ _ _ _ _ (by decide) .rfl).dram_eq, (waveWrite_evolves _ _ _ _ (by decide) .rfl).dram_eq,
    (flnWrite_evolves _ _ _ _ _ (by decide) .rfl).dram_eq, (flngWrite_evolves _ _ _ (by decide) .rfl).dram_eq,
    (ispWrite_evolves _ _ _ _ (by decide) .rfl).dram_eq, (loopWrite_evolves _ _ _ _ (by decide) .rfl).dram_eq,
    (pairWrite_evolves _ _ _ _ (by decide) .rfl).dram_eq, (axWrite_evolves _ _ _ _ _ (by decide) .rfl).dram_eq,
    (cmpWrite_evolves _ _ _ _ (by decide) .rfl).dram_eq]

/-! ### Delays kept over Deep -/

@[simp] theorem queues_restoreDelays (s : State) : (restoreDelays s).dram.chans = s.dram.chans := by
  simp [restoreDelays]

end Sys2Proof.Machine
end

section
/-! PROOFS. At most one queued write for a block (R133): every operation keeps it. The write queues change where requests enter
and leave them (R128, R130 to R135), and a reset empties them. -/

namespace Sys2Proof.Machine
open Sys2Proof

variable {s t : State}

/-! ### What the property rests on -/

/-- The write queue of a channel holds at most one entry for a block. -/
def DramChan.once (ch : DramChan) : Prop := (ch.writes.map (fun w => w.addr / 64)).Nodup

theorem DramChan.once_empty : DramChan.once {} := List.nodup_nil

theorem blocksOnce_of_queues (h : blocksOnce s) (e : t.dram.chans = s.dram.chans) : blocksOnce t := by
  intro c
  rw [getDram, e]
  exact h c

theorem blocksOnce_of_frame (h : blocksOnce s) (g : Evolves allButDram s t) : blocksOnce t :=
  blocksOnce_of_queues h (by rw [g.dram_eq])

theorem blocksOnce_of_no_queues (e : s.dram.chans = []) : blocksOnce s := by
  intro c
  simp [getDram, e]

theorem blocksOnce_foldl {α : Type} {f : State → α → State} (hf : ∀ s x, blocksOnce s → blocksOnce (f s x)) (l : List α)
    (h : blocksOnce s) : blocksOnce (l.foldl f s) :=
  List.foldlRecOn l f h (fun s hs x _ => hf s x hs)

theorem blocksOnce_of_ite {c : Prop} [Decidable c] (h : c → blocksOnce s) (g : ¬c → blocksOnce t) :
    blocksOnce (if c then s else t) := by
  split
  · exact h ‹_›
  · exact g ‹_›

theorem blocksOnce_onEntry {f : State → JEntry → State} (hf : ∀ s e, blocksOnce s → blocksOnce (f s e)) (h : blocksOnce s)
    (slot op : Nat) : blocksOnce (onEntry s slot op f) := by
  unfold onEntry
  split
  · exact hf s _ h
  · exact h

theorem blocksOnce_withData {f : State → State} (hf : ∀ s, blocksOnce s → blocksOnce (f s)) (h : blocksOnce s) (slot : Nat)
    (e : JEntry) (n : Nat) : blocksOnce (withData s slot e n f) := by
  unfold withData
  split_ifs
  · exact blocksOnce_of_queues h (by simp)
  · exact blocksOnce_of_queues h (by simp)
  · exact hf s h

/-! ### Requests enter and leave the queues -/

theorem blocksOnce_setDram (h : blocksOnce s) (c : Nat) {ch : DramChan} (hc : ch.once) : blocksOnce (setDram s c ch) := by
  intro d
  rw [getDram_setDram]
  split
  · exact hc
  · exact h d

theorem blocksOnce_setDram_same_writes (h : blocksOnce s) {c : Nat} {ch : DramChan}
    (e : ch.writes = (getDram s c).writes) : blocksOnce (setDram s c ch) :=
  blocksOnce_setDram h c (by rw [DramChan.once, e]; exact h c)

theorem blocksOnce_enterRead (h : blocksOnce s) (c a cls : Nat) : blocksOnce (enterRead s c a cls) := by
  unfold enterRead
  dsimp only
  split
  · exact blocksOnce_setDram_same_writes (blocksOnce_of_queues h rfl) rfl
  · split
    · exact blocksOnce_of_queues h (by simp)
    · exact blocksOnce_setDram_same_writes (blocksOnce_of_queues h (by simp)) (by simp [getDram])

/-- Newer bytes for the entry with an id. -/
def mergedWith (id : Nat) (bs : List (Option Byte)) (v : DramWr) : DramWr :=
  if v.id = id then { v with bytes := mergeBytes v.bytes bs } else v

@[simp] theorem mergedWith_addr (id : Nat) (bs : List (Option Byte)) (v : DramWr) : (mergedWith id bs v).addr = v.addr := by
  unfold mergedWith
  split <;> rfl

@[simp] theorem mergedWith_id (id : Nat) (bs : List (Option Byte)) (v : DramWr) : (mergedWith id bs v).id = v.id := by
  unfold mergedWith
  split <;> rfl

theorem enterWrite_of_queued {c a : Nat} {w : DramWr} (hq : queuedWrite (getDram s c) a = some w) (cls : Nat)
    (bs : List (Option Byte)) :
    enterWrite s c a cls bs =
      setDram s c { getDram s c with writes := (getDram s c).writes.map (mergedWith w.id bs) } := by
  simp only [enterWrite, hq]
  rfl

/-- A merge leaves the blocks of the queue; a new entry comes only where the queue has none for its block. -/
theorem blocksOnce_enterWrite (h : blocksOnce s) (c a cls : Nat) (bs : List (Option Byte)) :
    blocksOnce (enterWrite s c a cls bs) := by
  cases hq : queuedWrite (getDram s c) a with
  | some w =>
    rw [enterWrite_of_queued hq]
    refine blocksOnce_setDram h c ?_
    simpa [DramChan.once, Function.comp_def] using h c
  | none =>
    simp only [enterWrite, hq]
    refine blocksOnce_setDram (blocksOnce_of_queues h rfl) c ?_
    have new : a / 64 ∉ (getDram s c).writes.map (fun w => w.addr / 64) := by
      simpa [queuedWrite] using hq
    simpa [DramChan.once] using (h c).concat new

theorem blocksOnce_enterWaiting (h : blocksOnce s) (c : Nat) : blocksOnce (enterWaiting s c) := by
  unfold enterWaiting
  split
  · exact h
  · extract_lets x
    have hx : blocksOnce x.1 := by
      refine List.foldlRecOn (motive := fun x : State × List DramOffer => blocksOnce x.1) _ _ h ?_
      intro y hy o _
      split
      · exact hy
      · split
        · exact blocksOnce_enterRead hy c _ _
        · exact blocksOnce_enterWrite hy c _ _ _
    exact blocksOnce_setDram_same_writes hx rfl

theorem blocksOnce_offer (h : blocksOnce s) (a cls : Nat) (bytes : Option (List (Option Byte))) :
    blocksOnce (offer s a cls bytes) := by
  refine blocksOnce_enterWaiting (blocksOnce_setDram_same_writes h ?_) (chanOf a)
  rfl

theorem blocksOnce_execDramRead (h : blocksOnce s) (addr cls : Nat) : blocksOnce (taken s (execDramRead addr cls s)) := by
  unfold execDramRead
  dsimp only
  split
  · exact h
  · exact blocksOnce_offer h _ _ _

theorem blocksOnce_execDramWrite (h : blocksOnce s) (addr cls : Nat) (bytes : List (Option Byte)) :
    blocksOnce (taken s (execDramWrite addr cls bytes s)) := by
  unfold execDramWrite
  dsimp only
  split
  · exact h
  · exact blocksOnce_offer h _ _ _

theorem blocksOnce_execAgePromotion (h : blocksOnce s) (channel request : Nat) :
    blocksOnce (taken s (execAgePromotion channel request s)) := by
  unfold execAgePromotion
  dsimp only [taken]
  split
  · refine blocksOnce_setDram (blocksOnce_of_queues h (by simp)) _ ?_
    simpa [DramChan.once, Function.comp_def, apply_ite DramWr.addr] using h (channel % 4)
  · exact h

/-- After a request has left its queue, what waited enters. -/
theorem blocksOnce_issued {u : State} (h : blocksOnce s) (hu : u.dram.chans = s.dram.chans) {ch : DramChan} (hc : ch.once)
    (c : Nat) : blocksOnce (enterSelf (enterWaiting (setDram u c ch) c)) :=
  blocksOnce_of_queues (blocksOnce_enterWaiting (blocksOnce_setDram (blocksOnce_of_queues h hu) c hc) c) (by simp)

/-- What a read returns is kept beside the queues. Said of any state: for the one that REQUEST_ISSUE builds, checking the same
by computation would compare the block read with the one kept before, byte by byte. -/
theorem queues_with_lastRead (s : State) (bs : List Byte) :
    ({ s with dram := { s.dram with lastRead := bs } } : State).dram.chans = s.dram.chans := rfl

theorem blocksOnce_execRequestIssue (h : blocksOnce s) (sub : Nat) : blocksOnce (taken s (execRequestIssue sub s)) := by
  have hd (u : State) (k kind a : Nat) : (dramAt u k kind a).dram = u.dram :=
    (dramAt_evolves _ _ _ _ (by decide) .rfl).dram_eq
  unfold execRequestIssue
  extract_lets k c ch
  dsimp -zeta only [taken]
  split
  · exact h
  · split
    · exact h
    · split
      · split
        · exact h
        · extract_lets ws u v d m rs drain
          have hm : m.dram.chans = s.dram.chans := by simp [m, d, v, u, hd]
          exact blocksOnce_issued h hm ((h c).sublist (List.filter_sublist.map _)) c
      · split
        · exact h
        · extract_lets u v d m
          have hv : v.dram.chans = s.dram.chans := by simp [v, u, hd]
          have hm : m.dram.chans = s.dram.chans := (queues_with_lastRead v _).trans hv
          refine blocksOnce_issued h hm ?_ c
          exact h c

theorem blocksOnce_freqEnd (h : blocksOnce s) (ok : Bool) : blocksOnce (freqEnd s ok) := by
  unfold freqEnd
  dsimp only
  split
  · exact blocksOnce_foldl (fun s c hs => blocksOnce_enterWaiting hs c) _ (blocksOnce_of_queues h (by simp))
  · exact blocksOnce_of_queues h (by simp)

theorem blocksOnce_execFreqDone (h : blocksOnce s) (ok : Bool) : blocksOnce (taken s (execFreqDone ok s)) := by
  unfold execFreqDone
  dsimp only [taken]
  split
  · exact blocksOnce_of_queues (blocksOnce_freqEnd h ok) (by simp)
  · exact h

/-! ### Resets -/

@[simp] theorem queues_volatileReset (s : State) (keep : Bool) : (volatileReset s keep).dram.chans = [] := by
  cases keep <;> simp [volatileReset]

@[simp] theorem queues_fullReset (s : State) : (fullReset s).dram.chans = [] := by
  simp [fullReset]

theorem blocksOnce_execWatchdogExpiry (h : blocksOnce s) (core : Nat) :
    blocksOnce (taken s (execWatchdogExpiry core s)) := by
  unfold execWatchdogExpiry
  dsimp only [taken]
  split
  · exact h
  · exact blocksOnce_of_no_queues (by simp)

theorem blocksOnce_enterReset (s : State) : blocksOnce (enterReset s) :=
  blocksOnce_of_no_queues (by simp [enterReset])

theorem blocksOnce_execNreset (h : blocksOnce s) (widthNs : Nat) : blocksOnce (taken s (execNreset widthNs s)) := by
  unfold execNreset
  dsimp only [taken]
  split_ifs
  · exact h
  · exact blocksOnce_enterReset s
  · exact blocksOnce_of_queues h rfl
  · exact blocksOnce_enterReset _

theorem blocksOnce_execPowerOnReset (s : State) (straps : Nat) : blocksOnce (taken s (execPowerOnReset straps s)) :=
  blocksOnce_of_no_queues (by simp [execPowerOnReset, taken, (sampleStraps_evolves _ _ (by decide) .rfl).dram_eq])

theorem blocksOnce_execVddAonLoss (s : State) : blocksOnce (taken s (execVddAonLoss s)) :=
  blocksOnce_of_no_queues (by simp [execVddAonLoss, taken])

theorem blocksOnce_execTempMeasurement (h : blocksOnce s) (readings : List TempReading) :
    blocksOnce (taken s (execTempMeasurement readings s)) := by
  unfold execTempMeasurement
  dsimp only [taken]
  split
  · exact h
  · split
    · exact blocksOnce_of_no_queues (by simp [trip])
    · exact blocksOnce_of_queues h (by simp [(trimsSeen_evolves _ _ (by decide) .rfl).dram_eq])

/-- The reset of a controller page empties the queues of its channel. -/
theorem queues_engineReset_controller (s : State) {p : Nat} (hp : 0x28 ≤ p ∧ p < 0x2C) :
    (engineReset s p).dram.chans = (setDram s (p - 0x28) {}).dram.chans := by
  obtain ⟨lo, hi⟩ := hp
  interval_cases p <;> rfl

theorem queues_engineReset_other (s : State) {p : Nat} (hp : ¬(0x28 ≤ p ∧ p < 0x2C)) :
    (engineReset s p).dram.chans = s.dram.chans := by
  unfold engineReset
  split
  · simp
  · rw [if_neg hp]
    simp [(hostPin_evolves _ _ (by decide) .rfl).dram_eq, (ptcSource_evolves _ (by decide) .rfl).dram_eq,
      (checkCamera_evolves _ (by decide) .rfl).dram_eq, (setRole_evolves _ _ (by decide) .rfl).dram_eq]

theorem blocksOnce_engineReset (h : blocksOnce s) (p : Nat) : blocksOnce (engineReset s p) := by
  by_cases hp : 0x28 ≤ p ∧ p < 0x2C
  · exact blocksOnce_of_queues (blocksOnce_setDram h (p - 0x28) DramChan.once_empty) (queues_engineReset_controller s hp)
  · exact blocksOnce_of_queues h (queues_engineReset_other s hp)

theorem blocksOnce_blockReset (h : blocksOnce s) (p : Nat) : blocksOnce (blockReset s p) := by
  unfold blockReset
  dsimp only
  refine blocksOnce_of_queues (blocksOnce_engineReset (s := _) (p := p) ?_) (by
    rw [dram_ptShowAll, (gpioShow_evolves _ _ (by decide) .rfl).dram_eq])
  exact blocksOnce_of_queues h (by simp [(freeUse_evolves _ _ (by decide) .rfl).dram_eq])

theorem blocksOnce_srst (h : blocksOnce s) (p : Nat) : blocksOnce (srst s p) := by
  unfold srst
  split_ifs
  · exact h
  · exact blocksOnce_of_queues h (by simp)
  · exact blocksOnce_of_no_queues (by simp)
  · exact blocksOnce_of_queues h (by simp)
  · exact blocksOnce_of_queues (blocksOnce_blockReset h p) (by simp)

/-! ### Register writes -/

theorem blocksOnce_ctrlWord (h : blocksOnce s) (p v : Nat) : blocksOnce (ctrlWord s p v) := by
  have he : blocksOnce (blockEnable s p (bitOf v 0) (bitOf v 2)) :=
    blocksOnce_of_frame h (blockEnable_evolves _ _ _ _ (by decide) .rfl)
  unfold ctrlWord
  dsimp only
  split_ifs
  · exact blocksOnce_of_queues h (by simp)
  · exact blocksOnce_srst he p
  · exact he

theorem blocksOnce_headerWrite (h : blocksOnce s) (p o v : Nat) : blocksOnce (headerWrite s p o v) := by
  unfold headerWrite
  split_ifs
  · exact h
  · exact blocksOnce_ctrlWord h p v
  · exact blocksOnce_of_frame h (commitWord_evolves _ _ _ (by decide) .rfl)
  · exact blocksOnce_of_queues h (by simp)
  · exact blocksOnce_of_queues h (by simp)
  · exact blocksOnce_of_frame h (evSet_evolves _ _ _ (by decide) .rfl)
  · exact blocksOnce_of_frame h (evEnable_evolves _ _ _ _ (by decide) .rfl)
  · exact blocksOnce_of_frame h (evEnable_evolves _ _ _ _ (by decide) .rfl)
  · exact h

theorem blocksOnce_writeReg (h : blocksOnce s) (rq : Requester) (a v : Nat) : blocksOnce (writeReg s rq a v) := by
  unfold writeReg
  dsimp only
  split_ifs
  · exact h
  · exact blocksOnce_of_frame h (windowWrite_evolves _ _ _ _ (by decide) .rfl)
  · exact h
  · exact blocksOnce_headerWrite h _ _ _
  · exact h
  · exact blocksOnce_of_queues h (by simp)
  · exact h
  · exact blocksOnce_of_queues h (by simp)

theorem blocksOnce_arriveWrite (h : blocksOnce s) (rq : Requester) (a : Nat) (val : Word) (byteEn : BitVec 4) :
    blocksOnce (arriveWrite s rq a val byteEn) := by
  unfold arriveWrite
  split_ifs
  · exact h
  · exact h
  · exact blocksOnce_of_queues h (by simp)
  · exact blocksOnce_of_queues h rfl
  · unfold hostWrite
    split
    · exact blocksOnce_of_queues h (by simp)
    · exact blocksOnce_writeReg h _ _ _

theorem blocksOnce_execHighWordWrite (h : blocksOnce s) (rq : Requester) (addr : Nat) (val : Word) :
    blocksOnce (taken s (execHighWordWrite rq addr val s)) := by
  unfold execHighWordWrite
  dsimp only [taken]
  split
  · exact blocksOnce_arriveWrite h _ _ _ _
  · exact h

theorem blocksOnce_writePairs (rq : Requester) (ps : List (Nat × Nat)) (k : Nat) (h : blocksOnce s) :
    blocksOnce (writePairs rq ps k s).1 := by
  induction ps generalizing k s with
  | nil => exact h
  | cons x ps ih =>
    rw [writePairs]
    split
    · exact blocksOnce_writeReg h _ _ _
    · exact ih _ (blocksOnce_writeReg h _ _ _)

theorem blocksOnce_runWrites (h : blocksOnce s) (slot : Nat) (e : JEntry) (ps : List (Nat × Nat)) (img : Nat) (r0 : Bool) :
    blocksOnce (runWrites s slot e ps img r0) := by
  have hw := blocksOnce_writePairs (entryRq e) (ps.drop e.progress) e.progress h
  exact blocksOnce_of_queues hw (by simp [runWrites, (setProgress_evolves _ _ _ _ (by decide) .rfl).dram_eq])

theorem blocksOnce_regWriteRun (h : blocksOnce s) (slot : Nat) (e : JEntry) : blocksOnce (regWriteRun s slot e) := by
  unfold regWriteRun
  dsimp only
  split
  · exact blocksOnce_of_queues h (by simp)
  · refine blocksOnce_withData (fun s h => ?_) h slot e 512
    split_ifs
    · exact blocksOnce_runWrites h _ _ _ _ _
    · exact blocksOnce_of_queues h (by simp)
    · exact blocksOnce_runWrites h _ _ _ _ _
    · exact blocksOnce_of_queues h (by simp)

theorem blocksOnce_execApplyLineWrite (h : blocksOnce s) (slot : Nat) :
    blocksOnce (taken s (execApplyLineWrite slot s)) := by
  unfold execApplyLineWrite
  dsimp only [taken]
  split
  · split_ifs
    · exact blocksOnce_of_queues h (by simp)
    · exact blocksOnce_runWrites h _ _ _ _ _
    · exact h
  · exact h

theorem blocksOnce_tableWriteRun (h : blocksOnce s) (slot : Nat) (e : JEntry) : blocksOnce (tableWriteRun s slot e) := by
  unfold tableWriteRun
  split_ifs
  · exact h
  · exact blocksOnce_of_queues h (by simp)
  · exact blocksOnce_withData (fun s h => blocksOnce_runWrites h _ _ _ _ _) h slot e _

/-! ### Inputs of the pair -/

theorem blocksOnce_commandInput (h : blocksOnce s) (i : PairInput) : blocksOnce (commandInput s i) := by
  unfold commandInput
  dsimp only
  split
  · exact blocksOnce_writePairs _ _ _ h
  · exact blocksOnce_of_queues h (by simp)

theorem blocksOnce_applyInput (h : blocksOnce s) (i : PairInput) : blocksOnce (applyInput s i) := by
  unfold applyInput
  repeat' with_reducible refine blocksOnce_of_ite (fun _ => ?_) (fun _ => ?_)
  · exact blocksOnce_commandInput h i
  · exact blocksOnce_of_frame h (retireInput_evolves _ _ (by decide) .rfl)
  · exact blocksOnce_of_frame h (applyLoopInput_evolves _ _ _ (by decide) .rfl)
  · exact blocksOnce_of_frame h (applyNozzleInput_evolves _ _ _ (by decide) .rfl)
  · exact blocksOnce_of_frame h (drypDone_evolves _ _ (by decide) .rfl)
  · exact blocksOnce_of_queues h (by simp)
  · exact blocksOnce_of_queues h (by simp)
  · exact blocksOnce_of_queues h (by simp)
  · exact blocksOnce_of_frame h (armSnapshot_evolves _ _ (by decide) .rfl)
  · exact blocksOnce_of_frame h (pinInput_evolves _ _ (by decide) .rfl)
  · exact blocksOnce_of_frame h (applyCheck_evolves _ _ _ (by decide) .rfl)
  · exact blocksOnce_of_frame h (applySwitch_evolves _ (by decide) .rfl)
  · exact h

theorem blocksOnce_execInputApply (h : blocksOnce s) : blocksOnce (taken s (execInputApply s)) := by
  unfold execInputApply
  dsimp only [taken]
  split
  · exact h
  · exact blocksOnce_applyInput (blocksOnce_of_queues h (by simp)) _

/-! ### Wakes -/

theorem blocksOnce_wakeDoze (h : blocksOnce s) : blocksOnce (wakeDoze s) := by
  unfold wakeDoze
  extract_lets _ u _ v held _ w
  have hw : w.dram.chans = s.dram.chans := by simp [w, v, u]
  have arrived : blocksOnce (held.foldl (fun s x => arriveWrite s .pcie x.1 x.2.1 x.2.2) w) :=
    blocksOnce_foldl (fun s x hs => blocksOnce_arriveWrite hs _ _ _ _) held (blocksOnce_of_queues h hw)
  exact blocksOnce_of_queues arrived (by simp)

theorem blocksOnce_wakeDeep (s : State) : blocksOnce (wakeDeep s) :=
  blocksOnce_of_no_queues (by simp [wakeDeep])

theorem blocksOnce_wakeCold (s : State) : blocksOnce (wakeCold s) :=
  blocksOnce_of_no_queues (by simp [wakeCold])

theorem blocksOnce_execWakeDone (h : blocksOnce s) (recordOk : Bool) : blocksOnce (taken s (execWakeDone recordOk s)) := by
  unfold execWakeDone
  dsimp only [taken]
  split_ifs
  · exact h
  · exact blocksOnce_wakeDoze h
  · exact blocksOnce_wakeDeep s
  · exact blocksOnce_wakeCold s

end Sys2Proof.Machine
end

section
/-! PROOFS. QueuedBlocks (R133): no step queues two writes for one block, and a write to a block that has a queued entry
merges into it. -/

namespace Sys2Proof.Machine
open Sys2Proof

/-! ### Every step -/

/-- Every command keeps at most one queued write for a block: a command whose frame leaves the memory side, or whose own lemma
leaves the queues, keeps them; the others have a lemma of their own. -/
theorem blocksOnce_exec {s : State} (h : blocksOnce s) (i : Instr) : blocksOnce (taken s (exec i s)) := by
  cases i with
  | watchdogExpiry core => exact blocksOnce_execWatchdogExpiry h core
  | registerWrite _ _ _ _ => exact blocksOnce_arriveWrite h _ _ _ _
  | srst _ page => exact blocksOnce_srst h page
  | srstDone page => exact blocksOnce_of_frame h (execSrstDone_evolves page s (by decide) .rfl)
  | blockEnable rq page en clkReq =>
    exact blocksOnce_of_frame h (execBlockEnable_evolves rq page en clkReq s (by decide) .rfl)
  | clockStart page => exact blocksOnce_of_frame h (execClockStart_evolves page s (by decide) .rfl)
  | counterLowRead rq page k rime =>
    exact blocksOnce_of_frame h (execCounterLowRead_evolves rq page k rime s (by decide) .rfl)
  | counterHighRead rq page k rime =>
    exact blocksOnce_of_frame h (execCounterHighRead_evolves rq page k rime s (by decide) .rfl)
  | highWordWrite rq addr val => exact blocksOnce_execHighWordWrite h rq addr val
  | commitArm rq page val => exact blocksOnce_of_frame h (execCommitArm_evolves rq page val s (by decide) .rfl)
  | commitCancel rq page => exact blocksOnce_of_frame h (execCommitCancel_evolves rq page s (by decide) .rfl)
  | commitApply page => exact blocksOnce_of_frame h (execCommitApply_evolves page s (by decide) .rfl)
  | nozzleTableWrite rq bar col val =>
    exact blocksOnce_of_frame h (execNozzleTableWrite_evolves rq bar col val s (by decide) .rfl)
  | tableWindowWrite rq addr val =>
    exact blocksOnce_of_frame h (execTableWindowWrite_evolves rq addr val s (by decide) .rfl)
  | ownerWrite rq resource code =>
    exact blocksOnce_of_frame h (execOwnerWrite_evolves rq resource code s (by decide) .rfl)
  | gpioDirWrite rq openDrain val =>
    exact blocksOnce_of_frame h (execGpioDirWrite_evolves rq openDrain val s (by decide) .rfl)
  | gpioOutWrite rq op val => exact blocksOnce_of_frame h (execGpioOutWrite_evolves rq op val s (by decide) .rfl)
  | evSetWrite rq page val => exact blocksOnce_of_frame h (execEvSetWrite_evolves rq page val s (by decide) .rfl)
  | snapshotTrigger rq val => exact blocksOnce_of_frame h (execSnapshotTrigger_evolves rq val s (by decide) .rfl)
  | snapshotTake => exact blocksOnce_of_frame h (execSnapshotTake_evolves s (by decide) .rfl)
  | ethFrameReceive port frame => exact blocksOnce_of_queues h (queues_execEthFrameReceive port frame s)
  | hello m => exact blocksOnce_of_frame h (execHello_evolves m s (by decide) .rfl)
  | close m => exact blocksOnce_of_frame h (execClose_evolves m s (by decide) .rfl)
  | keepalive m => exact blocksOnce_of_frame h (execKeepalive_evolves m s (by decide) .rfl)
  | cmd m => exact blocksOnce_of_frame h (execCmd_evolves m s (by decide) .rfl)
  | helloRing slot => exact blocksOnce_of_frame h (execHelloRing_evolves slot s (by decide) .rfl)
  | closeRing slot => exact blocksOnce_of_frame h (execCloseRing_evolves slot s (by decide) .rfl)
  | nop slot => exact blocksOnce_of_frame h (execNop_evolves slot s (by decide) .rfl)
  | jobDefine slot => exact blocksOnce_of_frame h (execJobDefine_evolves slot s (by decide) .rfl)
  | jobStart slot => exact blocksOnce_of_queues h (queues_onEntry (fun s e => queues_jobStart s slot e) s slot 0x11)
  | jobStop slot => exact blocksOnce_of_frame h (execJobStop_evolves slot s (by decide) .rfl)
  | jobRelease slot => exact blocksOnce_of_frame h (execJobRelease_evolves slot s (by decide) .rfl)
  | tilePut slot => exact blocksOnce_of_queues h (queues_onEntry (fun s e => queues_tilePut s slot e) s slot 0x18)
  | tileQuery slot => exact blocksOnce_of_frame h (execTileQuery_evolves slot s (by decide) .rfl)
  | regRead slot => exact blocksOnce_of_frame h (execRegRead_evolves slot s (by decide) .rfl)
  | regWrite slot => exact blocksOnce_onEntry (fun _ e h => blocksOnce_regWriteRun h slot e) h slot 0x21
  | applyLineWrite slot => exact blocksOnce_execApplyLineWrite h slot
  | tableWrite slot => exact blocksOnce_onEntry (fun _ e h => blocksOnce_tableWriteRun h slot e) h slot 0x28
  | inflate slot => exact blocksOnce_of_queues h (queues_execInflate slot s)
  | inflateDone slot => exact blocksOnce_of_frame h (execInflateDone_evolves slot s (by decide) .rfl)
  | snapshot slot => exact blocksOnce_of_frame h (execSnapshot_evolves slot s (by decide) .rfl)
  | sessionTimeout session => exact blocksOnce_of_frame h (execSessionTimeout_evolves session s (by decide) .rfl)
  | resumeLimit session => exact blocksOnce_of_frame h (execResumeLimit_evolves session s (by decide) .rfl)
  | pcieLinkLoss => exact blocksOnce_of_frame h (execPcieLinkLoss_evolves s (by decide) .rfl)
  | submissionDoorbell q tail => exact blocksOnce_of_frame h (execSubmissionDoorbell_evolves q tail s (by decide) .rfl)
  | completionDoorbell q head => exact blocksOnce_of_frame h (execCompletionDoorbell_evolves q head s (by decide) .rfl)
  | submissionFetch q entry data => exact blocksOnce_of_queues h (queues_execSubmissionFetch q entry data s)
  | completionWrite q => exact blocksOnce_of_frame h (execCompletionWrite_evolves q s (by decide) .rfl)
  | announce => exact blocksOnce_of_frame h (execAnnounce_evolves s (by decide) .rfl)
  | journalReplay => exact blocksOnce_of_frame h (execJournalReplay_evolves s (by decide) .rfl)
  | gratuitousArp => exact blocksOnce_of_frame h (execGratuitousArp_evolves s (by decide) .rfl)
  | fragmentStoreDone slot => exact blocksOnce_of_queues h (queues_execFragmentStoreDone slot s)
  | fragTimeout job plane x y => exact blocksOnce_of_frame h (execFragTimeout_evolves job plane x y s (by decide) .rfl)
  | thawStart engine => exact blocksOnce_of_queues h (queues_execThawStart engine s)
  | thawDone engine => exact blocksOnce_of_queues h (queues_execThawDone engine s)
  | tileFetchDone bar x y => exact blocksOnce_of_queues h (queues_execTileFetchDone bar x y s)
  | reqTimeout job plane x y => exact blocksOnce_of_frame h (execReqTimeout_evolves job plane x y s (by decide) .rfl)
  | freezeDone engine client input flushes =>
    exact blocksOnce_of_queues h (queues_execFreezeDone engine client input flushes s)
  | refresh sub => exact blocksOnce_of_queues h (queues_execRefresh sub s)
  | mr4Read _ _ _ => exact blocksOnce_of_queues h ((queues_makeHot _ _).trans (queues_setSub _ _ _))
  | retrainStep sub edge move margins => exact blocksOnce_of_queues h (queues_execRetrainStep sub edge move margins s)
  | hotHoldExpiry sub => exact blocksOnce_of_queues h (queues_execHotHoldExpiry sub s)
  | agePromotion channel request => exact blocksOnce_execAgePromotion h channel request
  | dramRead addr cls => exact blocksOnce_execDramRead h addr cls
  | dramWrite addr cls bytes => exact blocksOnce_execDramWrite h addr cls bytes
  | freqReq rq target req => exact blocksOnce_of_queues h (queues_execFreqReq rq target req s)
  | freqDone ok => exact blocksOnce_execFreqDone h ok
  | derateWindow => exact blocksOnce_of_queues h (queues_execDerateWindow s)
  | countEdge chan u v w phase => exact blocksOnce_of_queues h (queues_execCountEdge chan u v w phase s)
  | index chan => exact blocksOnce_of_frame h (execIndex_evolves chan s (by decide) .rfl)
  | serialFrame chan => exact blocksOnce_of_frame h (execSerialFrame_evolves chan s (by decide) .rfl)
  | serialSample chan f => exact blocksOnce_of_frame h (execSerialSample_evolves chan f s (by decide) .rfl)
  | serTimeout chan => exact blocksOnce_of_frame h (execSerTimeout_evolves chan s (by decide) .rfl)
  | load rq chan => exact blocksOnce_of_frame h (execLoad_evolves rq chan s (by decide) .rfl)
  | clrFault rq chan => exact blocksOnce_of_frame h (execClrFault_evolves rq chan s (by decide) .rfl)
  | posLoRead rq chan => exact blocksOnce_of_frame h (execPosLoRead_evolves rq chan s (by decide) .rfl)
  | speedWindow chan => exact blocksOnce_of_frame h (execSpeedWindow_evolves chan s (by decide) .rfl)
  | stillTimeout chan => exact blocksOnce_of_frame h (execStillTimeout_evolves chan s (by decide) .rfl)
  | mark bar falling edgesBack => exact blocksOnce_of_queues h (queues_execMark bar falling edgesBack s)
  | rowLineBuilt bar => exact blocksOnce_of_queues h (queues_execRowLineBuilt bar s)
  | bandTrimWrite rq bar bank band val =>
    exact blocksOnce_of_frame h (execBandTrimWrite_evolves rq bar bank band val s (by decide) .rfl)
  | lineSend bar stream => exact blocksOnce_of_frame h (execLineSend_evolves bar stream s (by decide) .rfl)
  | skipEpisodeEnd bar => exact blocksOnce_of_frame h (execSkipEpisodeEnd_evolves bar s (by decide) .rfl)
  | drypointDone results => exact blocksOnce_of_frame h (execDrypointDone_evolves results s (by decide) .rfl)
  | validate rq wave => exact blocksOnce_of_frame h (execValidate_evolves rq wave s (by decide) .rfl)
  | tempTimeout lane slot => exact blocksOnce_of_frame h (execTempTimeout_evolves lane slot s (by decide) .rfl)
  | detect lane terminated => exact blocksOnce_of_frame h (execDetect_evolves lane terminated s (by decide) .rfl)
  | trainDone lane found => exact blocksOnce_of_frame h (execTrainDone_evolves lane found s (by decide) .rfl)
  | trainTimeout lane => exact blocksOnce_of_frame h (execTrainTimeout_evolves lane s (by decide) .rfl)
  | cap lane f => exact blocksOnce_of_frame h (execCap_evolves lane f s (by decide) .rfl)
  | capTimeout lane => exact blocksOnce_of_frame h (execCapTimeout_evolves lane s (by decide) .rfl)
  | lane lane f => exact blocksOnce_of_frame h (execLane_evolves lane f s (by decide) .rfl)
  | blockLockLost lane => exact blocksOnce_of_frame h (execBlockLockLost_evolves lane s (by decide) .rfl)
  | stat lane f => exact blocksOnce_of_frame h (execStat_evolves lane f s (by decide) .rfl)
  | lineLostEpisodeEnd lane bar =>
    exact blocksOnce_of_frame h (execLineLostEpisodeEnd_evolves lane bar s (by decide) .rfl)
  | nack lane f => exact blocksOnce_of_frame h (execNack_evolves lane f s (by decide) .rfl)
  | timeResp lane f => exact blocksOnce_of_frame h (execTimeResp_evolves lane f s (by decide) .rfl)
  | idle lane f => exact blocksOnce_of_frame h (execIdle_evolves lane f s (by decide) .rfl)
  | idleSend lane => exact blocksOnce_of_frame h (execIdleSend_evolves lane s (by decide) .rfl)
  | linkTimeout lane => exact blocksOnce_of_frame h (execLinkTimeout_evolves lane s (by decide) .rfl)
  | syncSend lane => exact blocksOnce_of_frame h (execSyncSend_evolves lane s (by decide) .rfl)
  | waveResend lane wave => exact blocksOnce_of_frame h (execWaveResend_evolves lane wave s (by decide) .rfl)
  | planWrite rq lane serialHi val =>
    exact blocksOnce_of_frame h (execPlanWrite_evolves rq lane serialHi val s (by decide) .rfl)
  | fomReport lane fom => exact blocksOnce_of_frame h (execFomReport_evolves lane fom s (by decide) .rfl)
  | eiDelay lane => exact blocksOnce_of_frame h (execEiDelay_evolves lane s (by decide) .rfl)
  | eiWake lane => exact blocksOnce_of_frame h (execEiWake_evolves lane s (by decide) .rfl)
  | ioOutWrite rq lane val => exact blocksOnce_of_frame h (execIoOutWrite_evolves rq lane val s (by decide) .rfl)
  | ioSafeWrite rq lane mask val =>
    exact blocksOnce_of_frame h (execIoSafeWrite_evolves rq lane mask val s (by decide) .rfl)
  | ioOutResend => exact blocksOnce_of_frame h (execIoOutResend_evolves s (by decide) .rfl)
  | csiPacket port vc dataType wordCount ecc crcOk payload =>
    exact blocksOnce_of_queues h (queues_execCsiPacket port vc dataType wordCount ecc crcOk payload s)
  | frameStart port vc number => exact blocksOnce_of_frame h (execFrameStart_evolves port vc number s (by decide) .rfl)
  | frameEnd port vc => exact blocksOnce_of_frame h (execFrameEnd_evolves port vc s (by decide) .rfl)
  | strobeTimeout ctx => exact blocksOnce_of_frame h (execStrobeTimeout_evolves ctx s (by decide) .rfl)
  | pipelineStart => exact blocksOnce_of_frame h (execPipelineStart_evolves s (by decide) .rfl)
  | pipelineDone => exact blocksOnce_of_queues h (queues_execPipelineDone s)
  | contextEnable rq ctx val => exact blocksOnce_of_frame h (execContextEnable_evolves rq ctx val s (by decide) .rfl)
  | tapRel rq ctx val => exact blocksOnce_of_frame h (execTapRel_evolves rq ctx val s (by decide) .rfl)
  | loopUpdate => exact blocksOnce_of_frame h (execLoopUpdate_evolves s (by decide) .rfl)
  | ladderClassify => exact blocksOnce_of_frame h (execLadderClassify_evolves s (by decide) .rfl)
  | loopEnable rq val => exact blocksOnce_of_frame h (execLoopEnable_evolves rq val s (by decide) .rfl)
  | ladderEnable rq val => exact blocksOnce_of_frame h (execLadderEnable_evolves rq val s (by decide) .rfl)
  | loopNoData bar => exact blocksOnce_of_frame h (execLoopNoData_evolves bar s (by decide) .rfl)
  | incrWrite rq hi => exact blocksOnce_of_frame h (execIncrWrite_evolves rq hi s (by decide) .rfl)
  | ptpSync m => exact blocksOnce_of_frame h (execPtpSync_evolves m s (by decide) .rfl)
  | followUp m => exact blocksOnce_of_frame h (execFollowUp_evolves m s (by decide) .rfl)
  | delayResp m => exact blocksOnce_of_frame h (execDelayResp_evolves m s (by decide) .rfl)
  | pdelay kind m => exact blocksOnce_of_frame h (execPdelay_evolves kind m s (by decide) .rfl)
  | ptpAnnounce m d => exact blocksOnce_of_frame h (execPtpAnnounce_evolves m d s (by decide) .rfl)
  | servoMeasurement => exact blocksOnce_of_frame h (execServoMeasurement_evolves s (by decide) .rfl)
  | announceTimeout => exact blocksOnce_of_frame h (execAnnounceTimeout_evolves s (by decide) .rfl)
  | ptcStep rq => exact blocksOnce_of_frame h (execPtcStep_evolves rq s (by decide) .rfl)
  | adj rq => exact blocksOnce_of_frame h (execAdj_evolves rq s (by decide) .rfl)
  | acceptStep rq => exact blocksOnce_of_frame h (execAcceptStep_evolves rq s (by decide) .rfl)
  | stepDone => exact blocksOnce_of_queues h (queues_execStepDone s)
  | tcForward kind m transport trailer egress =>
    exact blocksOnce_of_frame h (execTcForward_evolves kind m transport trailer egress s (by decide) .rfl)
  | pairTimeExchange => exact blocksOnce_of_frame h (execPairTimeExchange_evolves s (by decide) .rfl)
  | pairHello m => exact blocksOnce_of_queues h (queues_pairReceive s m _)
  | hbSend => exact blocksOnce_of_frame h (execHbSend_evolves s (by decide) .rfl)
  | hb m => exact blocksOnce_of_queues h (queues_pairReceive s m _)
  | hbTimeout => exact blocksOnce_of_frame h (execHbTimeout_evolves s (by decide) .rfl)
  | pairFault m => exact blocksOnce_of_queues h (queues_pairReceive s m _)
  | input m => exact blocksOnce_of_queues h (queues_pairReceive s m _)
  | inputApply => exact blocksOnce_execInputApply h
  | crcMessage m => exact blocksOnce_of_queues h (queues_pairReceive s m _)
  | crcWait line bar => exact blocksOnce_of_frame h (execCrcWait_evolves line bar s (by decide) .rfl)
  | copy m => exact blocksOnce_of_queues h (queues_pairReceive s m _)
  | copyCtrl m => exact blocksOnce_of_queues h (queues_pairReceive s m _)
  | copyPassDone => exact blocksOnce_of_frame h (execCopyPassDone_evolves s (by decide) .rfl)
  | position m => exact blocksOnce_of_queues h (queues_pairReceive s m _)
  | health m => exact blocksOnce_of_queues h (queues_pairReceive s m _)
  | healthSend laneErr scrubbedMiB =>
    exact blocksOnce_of_frame h (execHealthSend_evolves laneErr scrubbedMiB s (by decide) .rfl)
  | checkInput => exact blocksOnce_of_frame h (execCheckInput_evolves s (by decide) .rfl)
  | tileReq m => exact blocksOnce_of_queues h (queues_pairReceive s m _)
  | tileData m => exact blocksOnce_of_queues h (queues_pairReceive s m _)
  | retry seq => exact blocksOnce_of_frame h (execRetry_evolves seq s (by decide) .rfl)
  | formTimeout => exact blocksOnce_of_frame h (execFormTimeout_evolves s (by decide) .rfl)
  | switch rq => exact blocksOnce_of_frame h (execSwitch_evolves rq s (by decide) .rfl)
  | join rq => exact blocksOnce_of_frame h (execJoin_evolves rq s (by decide) .rfl)
  | solo rq => exact blocksOnce_of_frame h (execSolo_evolves rq s (by decide) .rfl)
  | leave rq => exact blocksOnce_of_frame h (execLeave_evolves rq s (by decide) .rfl)
  | soloWait => exact blocksOnce_of_frame h (execSoloWait_evolves s (by decide) .rfl)
  | copyTimeout => exact blocksOnce_of_frame h (execCopyTimeout_evolves s (by decide) .rfl)
  | safeOutput => exact blocksOnce_of_frame h (execSafeOutput_evolves s (by decide) .rfl)
  | profileUpdate axis => exact blocksOnce_of_frame h (execProfileUpdate_evolves axis s (by decide) .rfl)
  | targetWrite rq axis hi => exact blocksOnce_of_frame h (execTargetWrite_evolves rq axis hi s (by decide) .rfl)
  | stop rq axis => exact blocksOnce_of_frame h (execStop_evolves rq axis s (by decide) .rfl)
  | qstop rq axis => exact blocksOnce_of_frame h (execQstop_evolves rq axis s (by decide) .rfl)
  | home rq axis => exact blocksOnce_of_frame h (execHome_evolves rq axis s (by decide) .rfl)
  | engage rq axis => exact blocksOnce_of_frame h (execEngage_evolves rq axis s (by decide) .rfl)
  | disengage rq axis => exact blocksOnce_of_frame h (execDisengage_evolves rq axis s (by decide) .rfl)
  | setPos rq axis => exact blocksOnce_of_frame h (execSetPos_evolves rq axis s (by decide) .rfl)
  | axisClrFault rq axis => exact blocksOnce_of_frame h (execAxisClrFault_evolves rq axis s (by decide) .rfl)
  | pendArm rq axis hi => exact blocksOnce_of_frame h (execPendArm_evolves rq axis hi s (by decide) .rfl)
  | ratioApply axis => exact blocksOnce_of_frame h (execRatioApply_evolves axis s (by decide) .rfl)
  | step axis => exact blocksOnce_of_frame h (execStep_evolves axis s (by decide) .rfl)
  | stall axis => exact blocksOnce_of_frame h (execStall_evolves axis s (by decide) .rfl)
  | limitAssert axis positive => exact blocksOnce_of_frame h (execLimitAssert_evolves axis positive s (by decide) .rfl)
  | limitRelease axis positive =>
    exact blocksOnce_of_frame h (execLimitRelease_evolves axis positive s (by decide) .rfl)
  | homeInput axis active stepsBack =>
    exact blocksOnce_of_frame h (execHomeInput_evolves axis active stepsBack s (by decide) .rfl)
  | homeTimeout axis => exact blocksOnce_of_frame h (execHomeTimeout_evolves axis s (by decide) .rfl)
  | compareArm rq unit hi => exact blocksOnce_of_frame h (execCompareArm_evolves rq unit hi s (by decide) .rfl)
  | compareFire unit => exact blocksOnce_of_frame h (execCompareFire_evolves unit s (by decide) .rfl)
  | gpioEdge pin level => exact blocksOnce_of_frame h (execGpioEdge_evolves pin level s (by decide) .rfl)
  | pendSet rq word val => exact blocksOnce_of_frame h (execPendSet_evolves rq word val s (by decide) .rfl)
  | pendClr rq word val => exact blocksOnce_of_frame h (execPendClr_evolves rq word val s (by decide) .rfl)
  | enSet rq word val => exact blocksOnce_of_frame h (execEnSet_evolves rq word val s (by decide) .rfl)
  | enClr rq word val => exact blocksOnce_of_frame h (execEnClr_evolves rq word val s (by decide) .rfl)
  | claim rq target => exact blocksOnce_of_frame h (execClaim_evolves rq target s (by decide) .rfl)
  | complete rq target source => exact blocksOnce_of_frame h (execComplete_evolves rq target source s (by decide) .rfl)
  | evmsgRepeat => exact blocksOnce_of_frame h (execEvmsgRepeat_evolves s (by decide) .rfl)
  | srccfgWrite rq source val => exact blocksOnce_of_frame h (execSrccfgWrite_evolves rq source val s (by decide) .rfl)
  | pstateDoze rq => exact blocksOnce_of_queues h (queues_execPstateDoze rq s)
  | pstateDeep rq => exact blocksOnce_of_queues h (queues_execPstateDeep rq s)
  | wake cause pin => exact blocksOnce_of_frame h (execWake_evolves cause pin s (by decide) .rfl)
  | wakeDone recordOk => exact blocksOnce_execWakeDone h recordOk
  | xtalFail => exact blocksOnce_of_frame h (execXtalFail_evolves s (by decide) .rfl)
  | xtalRestore => exact blocksOnce_of_frame h (execXtalRestore_evolves s (by decide) .rfl)
  | tempMeasurement readings => exact blocksOnce_execTempMeasurement h readings
  | thermalStopDone => exact blocksOnce_of_frame h (execThermalStopDone_evolves s (by decide) .rfl)
  | tripRestart temps => exact blocksOnce_of_frame h (execTripRestart_evolves temps s (by decide) .rfl)
  | holdExpiry => exact blocksOnce_of_frame h (execHoldExpiry_evolves s (by decide) .rfl)
  | clrStop rq => exact blocksOnce_of_frame h (execClrStop_evolves rq s (by decide) .rfl)
  | voltageConversion reading => exact blocksOnce_of_frame h (execVoltageConversion_evolves reading s (by decide) .rfl)
  | roCount counts => exact blocksOnce_of_frame h (execRoCount_evolves counts s (by decide) .rfl)
  | pmbusTransaction cmd result =>
    exact blocksOnce_of_frame h (execPmbusTransaction_evolves cmd result s (by decide) .rfl)
  | voutCheck mv => exact blocksOnce_of_frame h (execVoutCheck_evolves mv s (by decide) .rfl)
  | cal rq group => exact blocksOnce_of_frame h (execCal_evolves rq group s (by decide) .rfl)
  | calDone group corrections => exact blocksOnce_of_frame h (execCalDone_evolves group corrections s (by decide) .rfl)
  | apply rq group => exact blocksOnce_of_frame h (execApply_evolves rq group s (by decide) .rfl)
  | reload rq group => exact blocksOnce_of_frame h (execReload_evolves rq group s (by decide) .rfl)
  | hpdUnplug => exact blocksOnce_of_frame h (execHpdUnplug_evolves s (by decide) .rfl)
  | hpdIrq lockLost => exact blocksOnce_of_frame h (execHpdIrq_evolves lockLost s (by decide) .rfl)
  | linkTrainingDone => exact blocksOnce_of_frame h (execLinkTrainingDone_evolves s (by decide) .rfl)
  | ltTimeout => exact blocksOnce_of_frame h (execLtTimeout_evolves s (by decide) .rfl)
  | dispRetry => exact blocksOnce_of_frame h (execDispRetry_evolves s (by decide) .rfl)
  | latch => exact blocksOnce_of_frame h (execLatch_evolves s (by decide) .rfl)
  | vblank => exact blocksOnce_of_frame h (execVblank_evolves s (by decide) .rfl)
  | lineMatch => exact blocksOnce_of_frame h (execLineMatch_evolves s (by decide) .rfl)
  | frameDone readback => exact blocksOnce_of_frame h (execFrameDone_evolves readback s (by decide) .rfl)
  | underrun layers pixel => exact blocksOnce_of_frame h (execUnderrun_evolves layers pixel s (by decide) .rfl)
  | powerOnReset straps => exact blocksOnce_execPowerOnReset s straps
  | nreset widthNs => exact blocksOnce_execNreset h widthNs
  | bootStepDone r => exact blocksOnce_of_queues h (queues_execBootStepDone r s)
  | bootRetry slot0 slot1 => exact blocksOnce_of_frame h (execBootRetry_evolves slot0 slot1 s (by decide) .rfl)
  | resetRecordCopy => exact blocksOnce_of_frame h (execResetRecordCopy_evolves s (by decide) .rfl)
  | nvLogProgram => exact blocksOnce_of_frame h (execNvLogProgram_evolves s (by decide) .rfl)
  | nvmRead rq => exact blocksOnce_of_frame h (execNvmRead_evolves rq s (by decide) .rfl)
  | nvmProgram rq => exact blocksOnce_of_frame h (execNvmProgram_evolves rq s (by decide) .rfl)
  | nvmErase rq => exact blocksOnce_of_frame h (execNvmErase_evolves rq s (by decide) .rfl)
  | nvmDone r => exact blocksOnce_of_frame h (execNvmDone_evolves r s (by decide) .rfl)
  | barStoppingEnd bar => exact blocksOnce_of_frame h (execBarStoppingEnd_evolves bar s (by decide) .rfl)
  | blockLockGained lane => exact blocksOnce_of_frame h (execBlockLockGained_evolves lane s (by decide) .rfl)
  | bringUpResend lane => exact blocksOnce_of_frame h (execBringUpResend_evolves lane s (by decide) .rfl)
  | applyTReached lane => exact blocksOnce_of_frame h (execApplyTReached_evolves lane s (by decide) .rfl)
  | requestIssue sub => exact blocksOnce_execRequestIssue h sub
  | sharedStepPulse axis dir => exact blocksOnce_of_frame h (execSharedStepPulse_evolves axis dir s (by decide) .rfl)
  | dramScrub job plane x y => exact blocksOnce_of_queues h (queues_execDramScrub job plane x y s)
  | timeMessage m => exact blocksOnce_of_queues h (queues_pairReceive s m _)
  | msixTableWrite index val => exact blocksOnce_of_frame h (execMsixTableWrite_evolves index val s (by decide) .rfl)
  | hpdPlug maxRate maxLanes => exact blocksOnce_of_frame h (execHpdPlug_evolves maxRate maxLanes s (by decide) .rfl)
  | nresetRelease straps => exact blocksOnce_of_frame h (execNresetRelease_evolves straps s (by decide) .rfl)
  | vddAonLoss => exact blocksOnce_execVddAonLoss s
  | dramSupplyLoss => exact blocksOnce_of_queues h (queues_execDramSupplyLoss s)
  | ethLinkChange port blockLock fecLock linkUp =>
    exact blocksOnce_of_frame h (execEthLinkChange_evolves port blockLock fecLock linkUp s (by decide) .rfl)
  | ptpSyncInterval => exact blocksOnce_of_frame h (execPtpSyncInterval_evolves s (by decide) .rfl)
  | ptpAnnounceInterval => exact blocksOnce_of_frame h (execPtpAnnounceInterval_evolves s (by decide) .rfl)
  | delayRequestInterval => exact blocksOnce_of_frame h (execDelayRequestInterval_evolves s (by decide) .rfl)
  | delayReq m => exact blocksOnce_of_frame h (execDelayReq_evolves m s (by decide) .rfl)
  | cameraPllStop => exact blocksOnce_of_frame h (execCameraPllStop_evolves s (by decide) .rfl)
  | calibrationBound at_ => exact blocksOnce_of_frame h (execCalibrationBound_evolves at_ s (by decide) .rfl)
theorem blocksOnce_step {s t : State} (h : blocksOnce s) (e : step s = .next t) : blocksOnce t := by
  unfold step at e
  split at e
  · cases e
    exact blocksOnce_of_frame h (tick_evolves s (by decide) .rfl)
  · next c r _ =>
    have hr := blocksOnce_exec (s := { s with pending := r }) (blocksOnce_of_queues h rfl) c
    rwa [e] at hr

/-! ### A write that merges -/

/-- A waiting request that is alone and finds room enters. -/
theorem enterWaiting_write {s : State} {c : Nat} {o : DramOffer} {bs : List (Option Byte)} (idle : freqBusy s = false)
    (ho : (getDram s c).offers = [o]) (hb : o.bytes = some bs) (room : hasRoom s c o = true) :
    enterWaiting s c =
      setDram (enterWrite s c o.addr o.cls bs) c { getDram (enterWrite s c o.addr o.cls bs) c with offers := [] } := by
  simp [enterWaiting, idle, ho, room, hb]

/-- A write to a block that has a queued entry brings its bytes into that entry; nothing else of the channel changes. -/
theorem offer_write_merges {s : State} {a : Nat} {w : DramWr} (cls : Nat) (bs : List (Option Byte))
    (idle : freqBusy s = false) (none_waits : (getDram s (chanOf a)).offers = [])
    (hq : queuedWrite (getDram s (chanOf a)) a = some w) :
    getDram (offer s a cls (some bs)) (chanOf a) =
        { getDram s (chanOf a) with writes := (getDram s (chanOf a)).writes.map (mergedWith w.id bs) } ∧
      (offer s a cls (some bs)).dram.mem = s.dram.mem ∧ onlyChanges [.dram] s (offer s a cls (some bs)) := by
  let o : DramOffer := { addr := a, cls := min cls 4, bytes := some bs }
  let u := setDram s (chanOf a) { getDram s (chanOf a) with offers := [o] }
  have hu : getDram u (chanOf a) = { getDram s (chanOf a) with offers := [o] } := by simp [u, getDram_setDram]
  have hqu : queuedWrite (getDram u (chanOf a)) a = some w := by rw [hu]; exact hq
  have room : hasRoom u (chanOf a) o = true := by simp [hasRoom, o, hqu]
  have idle_u : freqBusy u = false := by simpa [freqBusy, rdb, u] using idle
  have entered : offer s a cls (some bs) = setDram (enterWrite u (chanOf a) a (min cls 4) bs) (chanOf a)
      { getDram (enterWrite u (chanOf a) a (min cls 4) bs) (chanOf a) with offers := [] } := by
    rw [offer, none_waits]
    exact enterWaiting_write idle_u (by rw [hu]) rfl room
  rw [entered, enterWrite_of_queued hqu]
  refine ⟨?_, rfl, ?_⟩
  · simp [getDram_setDram, hu, none_waits]
  · have h1 : Evolves 2048 s u := setDram_evolves _ _ _ (by decide) .rfl
    exact (setDram_evolves _ _ _ (by decide) (setDram_evolves _ _ _ (by decide) h1)).only (by decide)

/-- Of each byte of a block the newer one holds, where there is one. -/
theorem mergeBytes_getElem? (old new : List (Option Byte)) {i : Nat} (hi : i < 64) :
    (mergeBytes old new)[i]?.join = (new[i]?.join).or (old[i]?.join) := by
  cases hn : new[i]?.join <;> simp [mergeBytes, hi, hn]

end Sys2Proof.Machine

namespace Sys2Proof.Proofs
open Sys2Proof Sys2Proof.Machine

/-- Settles O24: the queues are empty at reset, every step keeps at most one entry for a block, and a write to a queued block
is merged into its entry. -/
theorem queuedBlocks : Obligations.QueuedBlocks := by
  refine ⟨blocksOnce_of_no_queues rfl, fun s t h e => blocksOnce_step h e, ?_⟩
  intro s a cls bs w aligned inside idle none_waits hq
  obtain ⟨hch, hmem, only⟩ := offer_write_merges cls (mergeBytes [] bs) idle none_waits hq
  have hex : exec (.dramWrite a cls bs) s = .next (offer s a cls (some (mergeBytes [] bs))) := by
    have block : a / 64 * 64 = a := by omega
    simp [exec, execDramWrite, block, inside]
  refine ⟨_, hex, ?_, ?_, ?_, hmem, only⟩
  · intro v hv hid
    rw [hch] at hv
    obtain ⟨o, ho, rfl⟩ := List.mem_map.1 hv
    rw [mergedWith_id] at hid
    refine ⟨o, ho, hid, fun i hi => ?_⟩
    rw [mergedWith, if_pos hid, mergeBytes_getElem? _ _ hi, mergeBytes_getElem? _ _ hi]
    cases bs[i]?.join <;> rfl
  · rw [hch, List.length_map]
  · rw [hch]

end Sys2Proof.Proofs
end

section
/-! PROOFS. What several commands share: a write that passes its checks, the words that a stored write leaves, and the counters
that an event leaves. -/

namespace Sys2Proof.Machine
open Sys2Proof

/-! ### Writes that pass their checks -/

theorem gated_of_admitted {s : State} {a v : Nat} (h : admitted s a v) (f : State → State) : gated s a v f = f s := by
  simp only [gated, show gate s a v = none from h]

theorem refuseIf_false_of_admitted {s : State} {a v : Nat} (h : admitted s a v) (f : State → State) :
    refuseIf false s a v f = f s := by
  simp [refuseIf, gated_of_admitted h]

/-- A stored write reaches the word of its own address and, of a high word, that of the low one (R37). -/
theorem rd_store_other (s : State) {a b : Nat} (v : Nat) (h : b ≠ a) (h4 : b ≠ a - 4) :
    rd (store s a v) b = rd s b := by
  unfold store
  split
  · rfl
  split_ifs
  · rfl
  · exact (rd_wr ..).trans (by rw [if_neg h, rd_wr, if_neg h4])
  · rw [rd_wr, if_neg h]

theorem store_frame (s : State) (a v : Nat) : Evolves 5 s (store s a v) := store_evolves s a v (by decide) .rfl

/-! ### Records and counters in a frame -/

theorem Evolves.rd_eq {m : Nat} {s t : State} (h : Evolves m s t) (b : m.testBit 0 = false) (a : Nat) :
    rd t a = rd s a := by
  rw [rd, show t.regs = s.regs from h.same .regs b, rd]

theorem Evolves.counter_eq {m : Nat} {s t : State} (h : Evolves m s t) (b : m.testBit 6 = false) (p k : Nat) :
    counter t p k = counter s p k := by
  rw [counter, show t.counters = s.counters from h.same .counters b, counter]

theorem Evolves.getChan_eq {m : Nat} {s t : State} (h : Evolves m s t) (b : m.testBit 9 = false) (c : Nat) :
    getChan t c = getChan s c := by
  rw [getChan, show t.chans = s.chans from h.same .chans b, getChan]

theorem Evolves.getAxis_eq {m : Nat} {s t : State} (h : Evolves m s t) (b : m.testBit 16 = false) (n : Nat) :
    getAxis t n = getAxis s n := by
  rw [getAxis, show t.motion = s.motion from h.same .motion b, getAxis]

theorem Evolves.getCmp_eq {m : Nat} {s t : State} (h : Evolves m s t) (b : m.testBit 16 = false) (k : Nat) :
    getCmp t k = getCmp s k := by
  rw [getCmp, show t.motion = s.motion from h.same .motion b, getCmp]

/-! ### Counters that an event leaves

Delivering an event counts on the page of the event controller only (R411 to R414). -/

/-- What no element of a list changes, the whole list leaves. -/
theorem foldl_keeps {α β : Type} (g : State → β) {f : State → α → State} (h : ∀ s x, g (f s x) = g s) (l : List α)
    (s : State) : g (l.foldl f s) = g s := by
  rw [← List.foldl_hom g (g₂ := fun b _ => b) (fun s x => (h s x).symm), List.foldl_fixed]

section
variable {q j : Nat} (hq : q ≠ pgEvc) (hj : j < 128)
include hq hj

theorem counter_count_evc (s : State) {k : Nat} (hk : k < 128) : counter (count s pgEvc k) q j = counter s q j := by
  rw [counter_count, if_neg (by omega)]

theorem counter_sendEvents (s : State) : counter (sendEvents s) q j = counter s q j := by
  have one (s : State) (n : Nat) : counter (sendEvent s n) q j = counter s q j := by
    unfold sendEvent
    dsimp only
    split
    · rw [counter_count_evc hq hj _ (by decide)]; simp [sendMsg]
    · rfl
  unfold sendEvents
  split
  · exact foldl_keeps (counter · q j) (fun s i => one s (i + 1)) _ s
  · rfl

theorem counter_hostPin (old s : State) : counter (hostPin old s) q j = counter s q j := by
  unfold hostPin
  split_ifs
  · rfl
  · simp [counter_count_evc hq hj]
  · simp

theorem counter_signalMsix (s : State) : counter (signalMsix s) q j = counter s q j := by
  have msix_keeps (s : State) (v : Nat) : counter (msix s v) q j = counter s q j := by
    unfold msix
    split <;> rfl
  unfold signalMsix
  dsimp only
  split
  · simp [msix_keeps]
  · rw [counter_count_evc hq hj _ (by decide), msix_keeps]

theorem counter_setFlag (s : State) (t : Nat) : counter (setFlag s t) q j = counter s q j := by
  unfold setFlag
  dsimp only
  split_ifs <;> simp [counter_sendEvents hq hj, counter_signalMsix hq hj, counter_hostPin hq hj]

theorem counter_notify (s : State) (src : Nat) : counter (notify s src) q j = counter s q j := by
  unfold notify
  dsimp only
  split_ifs <;> simp [counter_setFlag hq hj]

theorem counter_ev (s : State) (p b : Nat) : counter (ev s p b) q j = counter s q j := by
  simp [ev, evBits, counter_notify hq hj]

end

end Sys2Proof.Machine
end

section
/-! PROOFS. SoftLimits (R386): a target beyond the soft limits is refused before anything of the axis changes. -/

namespace Sys2Proof.Machine
open Sys2Proof

/-- The target that a write of TARGET_HI completes with the held low word (R37). -/
def writtenTarget (s : State) (n : Nat) (hi : Word) : Int :=
  signed 48 (heldLow s (axA n 0x60) + 2 ^ 32 * (hi.toNat % 65536))

theorem targetRefusal_softLimit {s : State} {n : Nat} {v : Int} (profile : axMode s n = 1) (enabled : pgEn s (pgAx n) = true)
    (sound : (getAxis s n).fault = false) (idle : (getAxis s n).homing = 0) (soft : rdb s (axA n 0x40) 7 = true)
    (beyond : v < axSteps s n 0xA0 ∨ axSteps s n 0xA8 < v) : targetRefusal s n v = some 10 := by
  simp only [targetRefusal]
  rw [if_neg (by simp [profile, enabled, sound, idle]), if_pos ⟨soft, beyond⟩]

/-- The low word held at an address is dropped. -/
def dropHeld (s : State) (a : Nat) : State := { s with held := tdel s.held a }

theorem dropHeld_frame (s : State) (a : Nat) : Evolves 4 s (dropHeld s a) := Evolves.upd_4 (by decide) .rfl

theorem exec_targetWrite_refused {s : State} {n b : Nat} {hi : Word} (rq : Requester) (hn : n < 16)
    (adm : admitted s (axA n 0x64) hi.toNat) (refused : targetRefusal s n (writtenTarget s n hi) = some b) :
    exec (.targetWrite rq n hi) s = .next (ev (dropHeld s (axA n 0x60)) (pgAx n) b) := by
  have low : axA n 0x64 - 4 = axA n 0x60 := rfl
  rw [writtenTarget] at refused
  simp only [exec, execTargetWrite, Nat.mod_eq_of_lt hn, gated_of_admitted adm, low, refused, dropHeld]

end Sys2Proof.Machine

namespace Sys2Proof.Proofs
open Sys2Proof Sys2Proof.Machine

/-- Settles O47: the write is refused with event 10, which drops the held low word and leaves the axis. -/
theorem softLimits : Obligations.SoftLimits := by
  intro s rq n hi hn adm profile enabled sound idle soft v beyond
  have dropped := dropHeld_frame s (axA n 0x60)
  have dropped_motion : (dropHeld s (axA n 0x60)).motion = s.motion := dropped.same .motion (by decide)
  refine ⟨_, exec_targetWrite_refused rq hn adm (targetRefusal_softLimit profile enabled sound idle soft beyond),
    by simp [dropped_motion], raised_ev _ _ (by decide), wordsKept_ev _ _ _, ?_⟩
  exact (dropped.only (by decide)).trans ((only_ev _ _ _).mono fun _ => List.mem_cons_of_mem _)

end Sys2Proof.Proofs
end

section
/-! PROOFS. CompareBehind (R398): an arm whose value is behind sets PASSED and does not arm; with LATE_FIRE it fires, and a
firing (R399, R400) leaves the other units and the flags that stand. -/

namespace Sys2Proof.Machine
open Sys2Proof

variable {s t u : State} {k : Nat}

/-! ### What a stored VAL leaves of the unit's configuration and source -/

/-- VAL is held at offsets 8 and 12 of every 32 bytes. -/
theorem rd_store_cmpVal (s : State) (k v : Nat) {a : Nat} (h : a % 32 ≠ 8) (h4 : a % 32 ≠ 12) :
    rd (store s (cmpA k 0xC) v) a = rd s a := by
  apply rd_store_other <;> simp only [cmpA, ra, pgCmp] <;> omega

theorem cmpCfg_store_cmpVal (s : State) (k v : Nat) : cmpCfg (store s (cmpA k 0xC) v) k = cmpCfg s k :=
  rd_store_cmpVal s k v (by simp only [cmpA, ra, pgCmp]; omega) (by simp only [cmpA, ra, pgCmp]; omega)

theorem cmpMode_store_cmpVal (s : State) (k v : Nat) : cmpMode (store s (cmpA k 0xC) v) k = cmpMode s k := by
  rw [cmpMode, cmpCfg_store_cmpVal, cmpMode]

theorem cmpSrc_store_cmpVal (s : State) (k v : Nat) : cmpSrc (store s (cmpA k 0xC) v) k = cmpSrc s k := by
  rw [cmpSrc, cmpCfg_store_cmpVal, cmpSrc]

theorem cmpOnAxis_store_cmpVal (s : State) (k v : Nat) : cmpOnAxis (store s (cmpA k 0xC) v) k = cmpOnAxis s k := by
  rw [cmpOnAxis, cmpCfg_store_cmpVal, cmpOnAxis]

theorem pgEn_store_cmpVal (s : State) (k v p : Nat) : pgEn (store s (cmpA k 0xC) v) p = pgEn s p := by
  rw [pgEn, rdb, rd_store_cmpVal _ _ _ (by simp only [ra]; omega) (by simp only [ra]; omega), pgEn, rdb]

theorem cmpOn_store_cmpVal (s : State) (k v : Nat) : cmpOn (store s (cmpA k 0xC) v) k = cmpOn s k := by
  rw [cmpOn, cmpCfg_store_cmpVal, pgEn_store_cmpVal, cmpOn]

theorem axMode_store_cmpVal (s : State) (k v n : Nat) : axMode (store s (cmpA k 0xC) v) n = axMode s n :=
  rdf_eq_of_rd (rd_store_cmpVal s k v (by simp only [axA, ra]; omega) (by simp only [axA, ra]; omega)) _ _

theorem posMode_store_cmpVal (s : State) (k v c : Nat) : posMode (store s (cmpA k 0xC) v) c = posMode s c :=
  rdf_eq_of_rd (rd_store_cmpVal s k v (by simp only [ra]; omega) (by simp only [ra]; omega)) _ _

theorem cmpSrcOff_store_cmpVal (s : State) (k v : Nat) : cmpSrcOff (store s (cmpA k 0xC) v) k = cmpSrcOff s k := by
  simp only [cmpSrcOff, cmpOnAxis_store_cmpVal, cmpSrc_store_cmpVal, axMode_store_cmpVal, pgEn_store_cmpVal,
    posMode_store_cmpVal]

theorem cmpNeg_store_cmpVal (s : State) (k v : Nat) : cmpNeg (store s (cmpA k 0xC) v) k = cmpNeg s k := by
  simp only [cmpNeg, cmpCfg_store_cmpVal, cmpOnAxis_store_cmpVal, cmpSrc_store_cmpVal,
    (store_frame ..).getAxis_eq (by decide), (store_frame ..).getChan_eq (by decide)]

theorem cmpPos_store_cmpVal (s : State) (k v : Nat) : cmpPos (store s (cmpA k 0xC) v) k = cmpPos s k := by
  simp only [cmpPos, cmpOnAxis_store_cmpVal, cmpSrc_store_cmpVal, (store_frame ..).getAxis_eq (by decide),
    (store_frame ..).getChan_eq (by decide)]

theorem cmpReached_store_cmpVal (s : State) (k v : Nat) (neg : Bool) (x : Int) :
    cmpReached (store s (cmpA k 0xC) v) k neg x = cmpReached s k neg x := by
  rw [cmpReached, cmpPos_store_cmpVal, cmpReached]

/-! ### The arm of a value that is behind -/

/-- Unit k passed at the arm: not armed, PASSED set, COMPARE_PASSED raised (R398). -/
def cmpPassed (s : State) (k : Nat) (neg : Bool) (v : Int) : State :=
  let s := setCmp s k { armed := false, neg := neg, value := v, passed := true }
  ev (wr s (ra pgCmp 0x544) (rd s (ra pgCmp 0x544) ||| 2 ^ k)) pgCmp 9

theorem cmpArm_behind {v : Int} (on : cmpSrcOff s k = false) (behind : cmpReached s k (cmpNeg s k) v = true) :
    cmpArm s k v =
      if bitOf (cmpCfg (cmpPassed s k (cmpNeg s k) v) k) 30 then cmpFire (cmpPassed s k (cmpNeg s k) v) k
      else cmpShow (cmpPassed s k (cmpNeg s k) v) k := by
  simp only [cmpArm, cmpArmDir, on, behind, if_true, cmpPassed]
  rfl

theorem exec_compareArm_enabled {rq : Requester} {hi : Word} (hk : k < 32) (adm : admitted s (cmpA k 0xC) hi.toNat)
    (free : cmpHeld s rq k = false) (on : cmpOn s k = true) (mode : cmpMode s k ≠ 2) :
    exec (.compareArm rq k hi) s = .next (cmpArm (store s (cmpA k 0xC) hi.toNat) k
      (signed 64 (rd64 (store s (cmpA k 0xC) hi.toNat) (cmpA k 8)))) := by
  simp only [exec, execCompareArm, Nat.mod_eq_of_lt hk, free, refuseIf_false_of_admitted adm, cmpOn_store_cmpVal,
    cmpMode_store_cmpVal, on, mode, bne_iff_ne, ne_eq, not_false_eq_true, Bool.and_eq_true, and_self, if_true]

theorem rd_cmpPassed (s : State) (k : Nat) (neg : Bool) (v : Int) {a : Nat} (h : a ≠ ra pgCmp 0x24)
    (h4 : a ≠ ra pgCmp 0x544) : rd (cmpPassed s k neg v) a = rd s a := by
  rw [cmpPassed, rd_ev, if_neg h, rd_wr, if_neg h4]
  simp

theorem cmpCfg_cmpPassed (s : State) (k : Nat) (neg : Bool) (v : Int) : cmpCfg (cmpPassed s k neg v) k = cmpCfg s k :=
  rd_cmpPassed s k neg v (by simp only [cmpA, ra, pgCmp]; omega) (by simp only [cmpA, ra, pgCmp]; omega)

theorem passed_cmpPassed (s : State) (hk : k < 32) (neg : Bool) (v : Int) :
    (rd (cmpPassed s k neg v) (ra pgCmp 0x544)).testBit k = true := by
  rw [cmpPassed, rd_ev, if_neg (by decide), testBit_rd_wr]
  simp [hk]

theorem raised_cmpPassed (s : State) (k : Nat) (neg : Bool) (v : Int) : raised s (cmpPassed s k neg v) pgCmp 9 := by
  have h := raised_ev (wr (setCmp s k { armed := false, neg := neg, value := v, passed := true }) (ra pgCmp 0x544)
    (rd s (ra pgCmp 0x544) ||| 2 ^ k)) pgCmp (b := 9) (by decide)
  rw [raised, evPend, evPend, rd_wr, if_neg (by decide)] at h
  simpa [raised, evPend, cmpPassed] using h

theorem getCmp_cmpPassed (s : State) (k : Nat) (neg : Bool) (v : Int) (i : Nat) :
    getCmp (cmpPassed s k neg v) i =
      if i = k then { armed := false, neg := neg, value := v, passed := true } else getCmp s i := by
  simp [cmpPassed, getCmp_setCmp]

theorem counter_cmpPassed (s : State) (hk : k < 32) (neg : Bool) (v : Int) :
    counter (cmpPassed s k neg v) pgCmp k = counter s pgCmp k := by
  rw [cmpPassed, counter_ev (by decide) (by omega)]
  simp

theorem rd_cmpShow (s : State) (k : Nat) {a : Nat} (h : a ≠ cmpA k 0x18) : rd (cmpShow s k) a = rd s a := by
  rw [cmpShow, rd_wr, if_neg h]

/-! ### The write of VAL that arms with a value behind -/

/-- The state of COMPARE_ARM after the store of VAL_HI and the arm of a value that is behind, before LATE_FIRE. -/
def cmpArmPassed (s : State) (k hi : Nat) : State :=
  cmpPassed (store s (cmpA k 0xC) hi) k (cmpNeg s k) (signed 64 (rd64 (store s (cmpA k 0xC) hi) (cmpA k 8)))

theorem cmpCfg_cmpArmPassed (s : State) (k hi : Nat) : cmpCfg (cmpArmPassed s k hi) k = cmpCfg s k := by
  rw [cmpArmPassed, cmpCfg_cmpPassed, cmpCfg_store_cmpVal]

theorem exec_compareArm_behind {rq : Requester} {hi : Word} (hk : k < 32) (adm : admitted s (cmpA k 0xC) hi.toNat)
    (free : cmpHeld s rq k = false) (on : cmpOn s k = true) (mode : cmpMode s k ≠ 2) (source : cmpSrcOff s k = false)
    (behind : cmpReached s k (cmpNeg s k)
      (signed 64 (rd64 (store s (cmpA k 0xC) hi.toNat) (cmpA k 8))) = true) :
    exec (.compareArm rq k hi) s = .next (if bitOf (cmpCfg s k) 30 then cmpFire (cmpArmPassed s k hi.toNat) k
      else cmpShow (cmpArmPassed s k hi.toNat) k) := by
  rw [exec_compareArm_enabled hk adm free on mode, cmpArm_behind, cmpNeg_store_cmpVal, ← cmpCfg_cmpArmPassed s k hi.toNat,
    cmpArmPassed]
  · rw [cmpSrcOff_store_cmpVal, source]
  · rw [cmpReached_store_cmpVal, cmpNeg_store_cmpVal, behind]

theorem passed_cmpArmPassed (s : State) (hk : k < 32) (hi : Nat) :
    (rd (cmpArmPassed s k hi) (ra pgCmp 0x544)).testBit k = true := passed_cmpPassed _ hk _ _

theorem raised_cmpArmPassed (s : State) (k hi : Nat) : raised s (cmpArmPassed s k hi) pgCmp 9 := by
  rw [raised, cmpArmPassed, raised_cmpPassed, evPend, rd_store_cmpVal s k hi (by decide) (by decide), evPend]

theorem fired_cmpArmPassed (s : State) (k hi : Nat) :
    rd (cmpArmPassed s k hi) (ra pgCmp 0x540) = rd s (ra pgCmp 0x540) := by
  rw [cmpArmPassed, rd_cmpPassed _ _ _ _ (by decide) (by decide), rd_store_cmpVal s k hi (by decide) (by decide)]

theorem counter_cmpArmPassed (s : State) (hk : k < 32) (hi : Nat) :
    counter (cmpArmPassed s k hi) pgCmp k = counter s pgCmp k := by
  rw [cmpArmPassed, counter_cmpPassed _ hk, (store_frame ..).counter_eq (by decide)]

theorem getCmp_cmpArmPassed_other (s : State) (hi : Nat) {i : Nat} (h : i ≠ k) :
    getCmp (cmpArmPassed s k hi) i = getCmp s i := by
  rw [cmpArmPassed, getCmp_cmpPassed, if_neg h, (store_frame ..).getCmp_eq (by decide)]

/-! ### What a firing sets (R400) -/

theorem rd_wr64_other (s : State) {a b : Nat} (v : Nat) (h : b ≠ a) (h4 : b ≠ a + 4) : rd (wr64 s a v) b = rd s b := by
  rw [wr64, rd_wr, if_neg h4, rd_wr, if_neg h]

/-- The firing of a unit without what it gives to others: FIRED, FIRE_T, its count, and COMPARE_FIRED. -/
def cmpLatched (s : State) (k : Nat) : State :=
  let s := wr s (ra pgCmp 0x540) (rd s (ra pgCmp 0x540) ||| 2 ^ k)
  ev (count (wr64 s (ra pgCmp (0x440 + 8 * k)) (cmpLatch s k)) pgCmp k) pgCmp 8

theorem cmpPulse_eq (s : State) (k : Nat) (v : Int) :
    cmpPulse s k v = strobe
      (if bitOf (cmpCfg s k) 8 && drivesShared (cmpLatched s k) then
        send (cmpLatched s k)
          (.trig (field (cmpCfg s k) 3 0) (bitOf (cmpCfg s k) 9) (10 * rdf (cmpLatched s k) (cmpA k 4) 15 0))
      else cmpLatched s k) k v := rfl

theorem getCmp_cmpLatched (s : State) (k i : Nat) : getCmp (cmpLatched s k) i = getCmp s i := by
  simp [cmpLatched, wr64]

/-- FIRE_T and EV_PEND aside, the words are those with FIRED set. -/
theorem rd_cmpLatched (s : State) (k : Nat) {a : Nat} (hp : a ≠ ra pgCmp 0x24) (ht : a ≠ ra pgCmp (0x440 + 8 * k))
    (ht4 : a ≠ ra pgCmp (0x440 + 8 * k) + 4) :
    rd (cmpLatched s k) a = rd (wr s (ra pgCmp 0x540) (rd s (ra pgCmp 0x540) ||| 2 ^ k)) a := by
  simp only [cmpLatched]
  rw [rd_ev, if_neg hp]
  simp only [count_fields]
  exact rd_wr64_other _ _ ht ht4

theorem fired_cmpLatched (s : State) (hk : k < 32) : (rd (cmpLatched s k) (ra pgCmp 0x540)).testBit k = true := by
  rw [rd_cmpLatched s k (by decide) (by simp only [ra]; omega) (by simp only [ra]; omega), testBit_rd_wr]
  simp [hk]

theorem passed_cmpLatched (s : State) (hk : k < 32) :
    rd (cmpLatched s k) (ra pgCmp 0x544) = rd s (ra pgCmp 0x544) := by
  rw [rd_cmpLatched s k (by decide) (by simp only [ra]; omega) (by simp only [ra]; omega), rd_wr, if_neg (by decide)]

theorem cmpCfg_cmpLatched (s : State) (hk : k < 32) : cmpCfg (cmpLatched s k) k = cmpCfg s k := by
  simp only [cmpCfg, cmpA, pgCmp]
  rw [rd_cmpLatched s k, rd_wr, if_neg] <;> simp only [ra, pgCmp] <;> omega

theorem raised_cmpLatched (s : State) (k : Nat) : raised s (cmpLatched s k) pgCmp 8 := by
  simp only [cmpLatched]
  rw [raised, raised_ev _ _ (by decide), evPend, evPend]
  simp only [count_fields]
  rw [rd_wr64_other _ _ (by simp only [ra]; omega) (by simp only [ra]; omega), rd_wr, if_neg (by decide)]

theorem counted_cmpLatched (s : State) (hk : k < 32) : counted s (cmpLatched s k) pgCmp k := by
  simp only [counted, cmpLatched]
  rw [counter_ev (by decide) (by omega), counter_count]
  simp [wr64]

/-! ### What a firing leaves after that -/

/-- From `s` to `t` the flags of the compare page that stand stay, and the count of unit k and the other units are as they
were. -/
structure CmpKept (k : Nat) (s t : State) : Prop where
  flags : ∀ o ∈ [0x24, 0x540, 0x544], ∀ i, (rd s (ra pgCmp o)).testBit i = true →
    (rd t (ra pgCmp o)).testBit i = true
  count : counter t pgCmp k = counter s pgCmp k
  others : ∀ i, i ≠ k → getCmp t i = getCmp s i

theorem CmpKept.trans (h : CmpKept k s t) (g : CmpKept k t u) : CmpKept k s u :=
  ⟨fun o ho i b => g.flags o ho i (h.flags o ho i b), g.count.trans h.count,
    fun i hi => (g.others i hi).trans (h.others i hi)⟩

/-- Only changes of register words, counters and motion can touch what is kept. -/
theorem CmpKept.of_frame {m : Nat} (h : Evolves m s t) (hr : m.testBit 0 = false) (hc : m.testBit 6 = false)
    (hm : m.testBit 16 = false) : CmpKept k s t :=
  ⟨fun _ _ _ b => by rwa [h.rd_eq hr], h.counter_eq hc _ _, fun _ _ => h.getCmp_eq hm _⟩

theorem CmpKept.rfl : CmpKept k s s := .of_frame (m := 0) .rfl (by decide) (by decide) (by decide)

theorem cmpKept_wr (s : State) {a : Nat} (v : Nat) (h : ∀ o ∈ [0x24, 0x540, 0x544], ra pgCmp o ≠ a) :
    CmpKept k s (wr s a v) :=
  ⟨fun o ho _ b => by rwa [rd_wr, if_neg (h o ho)], by simp, by simp⟩

theorem cmpKept_setCmp (s : State) (c : Cmp) : CmpKept k s (setCmp s k c) :=
  ⟨by simp, by simp, fun i hi => by rw [getCmp_setCmp, if_neg hi]⟩

theorem cmpKept_countN (s : State) {p j : Nat} (n : Nat) (h : 128 * pgCmp + k ≠ 128 * p + j) :
    CmpKept k s (countN s p j n) :=
  ⟨by simp, by rw [countN, counter_setCounter, if_neg h], by simp⟩

theorem cmpKept_ev (s : State) (hk : k < 32) {b : Nat} (hb : b < 32) : CmpKept k s (ev s pgCmp b) := by
  refine ⟨fun o ho i set => ?_, counter_ev (by decide) (by omega) _ _ _, by simp⟩
  rw [rd_ev]
  split
  · next is_pend =>
    rw [evPend, or_lt (rd_lt s _) hb, Nat.testBit_or, ← is_pend, set, Bool.true_or]
  · exact set

theorem cmpKept_foldl {α : Type} {f : State → α → State} {l : List α} (h : ∀ x ∈ l, ∀ s, CmpKept k s (f s x))
    (s : State) :
    CmpKept k s (l.foldl f s) := by
  induction l generalizing s with
  | nil => exact .rfl
  | cons x l ih =>
    exact (h x List.mem_cons_self s).trans (ih (fun y hy => h y (List.mem_cons_of_mem _ hy)) _)

/-- A strobe counts on the page of the camera contexts. -/
theorem cmpKept_strobe (s : State) (hk : k < 32) (v : Int) : CmpKept k s (strobe s k v) := by
  refine cmpKept_foldl (fun x hx s => ?_) s
  have own_page : 128 * pgCmp + k ≠ 128 * pgIsp + (4 * x + 1) := by
    have := List.mem_range.1 hx
    simp only [pgCmp, pgIsp]; omega
  have ctx (c : Ctx) : CmpKept k s (setCtx s x c) :=
    .of_frame (setCtx_evolves s x c (m := 16384) (by decide) .rfl) (by decide) (by decide) (by decide)
  dsimp only
  split_ifs
  · exact ctx _
  · exact (ctx _).trans (cmpKept_countN _ 1 own_page)
  · exact .rfl

/-- The pulse and the strobe change what was sent, the camera contexts and their counters. -/
theorem cmpPulse_frame (s : State) (k : Nat) (v : Int) : Evolves 8405056 (cmpLatched s k) (cmpPulse s k v) := by
  rw [cmpPulse_eq]
  exact strobe_evolves _ _ _ (by decide) (.ite (fun _ => send_evolves _ _ (by decide) .rfl) (fun _ => .rfl))

theorem cmpKept_cmpPulse (s : State) (hk : k < 32) (v : Int) : CmpKept k (cmpLatched s k) (cmpPulse s k v) := by
  rw [cmpPulse_eq]
  refine CmpKept.trans ?_ (cmpKept_strobe _ hk v)
  split
  · exact .of_frame (send_evolves _ _ (m := 8388608) (by decide) .rfl) (by decide) (by decide) (by decide)
  · exact .rfl

theorem cmpKept_cmpShow (s : State) (k : Nat) : CmpKept k s (cmpShow s k) := 
  cmpKept_wr s _ (by simp [ra, pgCmp, cmpA]; omega)

theorem cmpKept_wr64Val (s : State) (k v : Nat) : CmpKept k s (wr64 s (cmpA k 8) v) :=
  (cmpKept_wr s _ (by simp [ra, pgCmp, cmpA]; omega)).trans (cmpKept_wr _ _ (by simp [ra, pgCmp, cmpA]; omega))

theorem cmpKept_cmpFire (s : State) (hk : k < 32) : CmpKept k (cmpLatched s k) (cmpFire s k) := by
  refine (cmpKept_cmpPulse s hk (getCmp s k).value).trans ?_
  have skips (s : State) (n : Nat) : CmpKept k s (ev (countN s pgCmp 32 n) pgCmp 10) :=
    (cmpKept_countN s n (by omega)).trans (cmpKept_ev _ hk (by decide))
  unfold cmpFire
  dsimp only
  split_ifs
  · exact (cmpKept_setCmp ..).trans ((cmpKept_wr64Val ..).trans (cmpKept_cmpShow ..))
  · exact (cmpKept_setCmp ..).trans ((cmpKept_wr64Val ..).trans ((skips ..).trans (cmpKept_cmpShow ..)))
  · exact (cmpKept_setCmp ..).trans (cmpKept_cmpShow ..)

/-- A firing without REPEAT disarms the unit (R397). -/
theorem armed_cmpFire (s : State) (hk : k < 32) (once : cmpMode s k ≠ 1) : (getCmp (cmpFire s k) k).armed = false := by
  have mode : cmpMode (cmpPulse s k (getCmp s k).value) k = cmpMode s k := by
    rw [cmpMode, cmpCfg, (cmpPulse_frame ..).rd_eq (by decide), ← cmpCfg, cmpCfg_cmpLatched s hk, cmpMode]
  simp only [cmpFire]
  rw [mode, if_neg once]
  simp [cmpShow, getCmp_setCmp]

theorem fired_cmpFire (s : State) (hk : k < 32) : (rd (cmpFire s k) (ra pgCmp 0x540)).testBit k = true :=
  (cmpKept_cmpFire s hk).flags 0x540 (by decide) k (fired_cmpLatched s hk)

theorem passed_cmpFire (hk : k < 32) (h : (rd s (ra pgCmp 0x544)).testBit k = true) :
    (rd (cmpFire s k) (ra pgCmp 0x544)).testBit k = true :=
  (cmpKept_cmpFire s hk).flags 0x544 (by decide) k (by rwa [passed_cmpLatched s hk])

/-- COMPARE_FIRED is raised, and what was raised stays. -/
theorem evPend_cmpFire (hk : k < 32) {i : Nat} (h : i = 8 ∨ (evPend s pgCmp).testBit i = true) :
    (evPend (cmpFire s k) pgCmp).testBit i = true := by
  refine (cmpKept_cmpFire s hk).flags 0x24 (by decide) i ?_
  rw [← evPend, raised_cmpLatched, Nat.testBit_or]
  rcases h with rfl | stood
  · rw [Nat.testBit_two_pow_self, Bool.or_true]
  · rw [stood, Bool.true_or]

theorem counted_cmpFire (s : State) (hk : k < 32) : counted s (cmpFire s k) pgCmp k := by
  rw [counted, (cmpKept_cmpFire s hk).count, counted_cmpLatched s hk]

theorem getCmp_cmpFire_other (s : State) (hk : k < 32) {i : Nat} (hi : i ≠ k) : getCmp (cmpFire s k) i = getCmp s i := by
  rw [(cmpKept_cmpFire s hk).others i hi, getCmp_cmpLatched]

end Sys2Proof.Machine

namespace Sys2Proof.Proofs
open Sys2Proof Sys2Proof.Machine

/-- Settles O49: the arm leaves the unit passed; without LATE_FIRE only STAT follows, and with it the unit fires, which
leaves the flags of the arm. -/
theorem compareBehind : Obligations.CompareBehind := by
  intro s rq k hi hk adm free on mode source u v behind
  have runs := exec_compareArm_behind hk adm free on mode source behind
  refine ⟨fun no_late => ?_, fun late => ?_⟩
  · rw [no_late, if_neg (by decide)] at runs
    have word (o : Nat) (h : o % 32 ≠ 24) :
        rd (cmpShow (cmpArmPassed s k hi.toNat) k) (ra pgCmp o) = rd (cmpArmPassed s k hi.toNat) (ra pgCmp o) :=
      rd_cmpShow _ k (by simp only [ra, cmpA]; omega)
    have unit (i : Nat) : getCmp (cmpShow (cmpArmPassed s k hi.toNat) k) i = getCmp (cmpArmPassed s k hi.toNat) i := by
      simp [cmpShow]
    refine ⟨_, runs, ?_, fun i h => (unit i).trans (getCmp_cmpArmPassed_other s _ h), ?_, ?_, ?_, ?_⟩
    · rw [unit, cmpArmPassed, getCmp_cmpPassed, if_pos rfl]
    · rw [word _ (by decide), passed_cmpArmPassed s hk]
    · rw [raised, evPend, word _ (by decide), ← evPend, raised_cmpArmPassed]
    · rw [word _ (by decide), fired_cmpArmPassed]
    · simpa [cmpShow] using counter_cmpArmPassed s hk hi.toNat
  · rw [late, if_pos rfl] at runs
    have pend : (evPend (cmpArmPassed s k hi.toNat) pgCmp).testBit 9 = true := by
      rw [raised_cmpArmPassed, Nat.testBit_or, Nat.testBit_two_pow_self, Bool.or_true]
    refine ⟨_, runs, passed_cmpFire hk (passed_cmpArmPassed s hk _), evPend_cmpFire hk (.inr pend), fired_cmpFire _ hk,
      evPend_cmpFire hk (.inl rfl), ?_, fun once => armed_cmpFire _ hk ?_, fun i h => ?_⟩
    · rw [counted, counted_cmpFire _ hk, counter_cmpArmPassed s hk]
    · rwa [cmpMode, cmpCfg_cmpArmPassed]
    · rw [getCmp_cmpFire_other _ hk h, getCmp_cmpArmPassed_other s _ h]

end Sys2Proof.Proofs
end

section
/-! PROOFS. The event controller (R407 to R412): one bit of a mask, what the best source of a target rests on, and what the
delivery of a signal leaves. -/

namespace Sys2Proof.Machine
open Sys2Proof

/-! ### One bit of a mask -/

theorem withBit_false (x n : Nat) : withBit x n false = putField x n n 0 := by
  have whole : putField x n n (x / 2 ^ n) = x := by
    apply Nat.eq_of_testBit_eq
    intro i
    rw [testBit_putField _ _ _ _ _ (Nat.le_refl n), Nat.testBit_div_two_pow]
    split_ifs
    · rfl
    · rw [Nat.sub_add_cancel (by omega)]
    · rfl
  have bit : x &&& 2 ^ n = x / 2 ^ n % 2 * 2 ^ n := by
    rw [Nat.and_two_pow, Nat.toNat_testBit]
  simp only [putField, Nat.add_sub_cancel_left, pow_one] at whole
  simp only [withBit, Bool.false_eq_true, if_false, putField, bit, Nat.zero_mod, Nat.zero_mul, Nat.add_zero]
  omega

theorem bitOf_withBit (x n : Nat) (v : Bool) (i : Nat) :
    bitOf (withBit x n v) i = if i = n then v else bitOf x i := by
  cases v with
  | true =>
    rw [withBit, if_pos rfl, bitOf, Nat.testBit_or, Nat.testBit_two_pow]
    split_ifs with h
    · simp [h]
    · simp [bitOf, Ne.symm h]
  | false =>
    rw [withBit_false, bitOf, testBit_putField _ _ _ _ _ (Nat.le_refl n)]
    split_ifs with below upto at_n at_n
    · omega
    · rfl
    · exact Nat.zero_testBit _
    · omega
    · omega
    · rfl

@[simp] theorem bitOf_withBit_same (x n : Nat) (v : Bool) : bitOf (withBit x n v) n = v := by
  rw [bitOf_withBit, if_pos rfl]

theorem bitOf_withBit_other (x : Nat) {n i : Nat} (v : Bool) (h : i ≠ n) : bitOf (withBit x n v) i = bitOf x i := by
  rw [bitOf_withBit, if_neg h]

/-! ### What eligibility rests on (R407) -/

/-- What eligibility rests on stays: the register words, P, A and EN of every source, and the accepted pin levels. -/
structure SourcesKept (s t : State) : Prop where
  regs : t.regs = s.regs
  pend : t.evc.pend = s.evc.pend
  active : t.evc.active = s.evc.active
  en : t.evc.en = s.evc.en
  gpio : t.evc.gpio = s.evc.gpio

namespace SourcesKept
variable {s t : State} (h : SourcesKept s t)
include h

theorem rd_eq (a : Nat) : rd t a = rd s a := by rw [rd, h.regs, rd]

theorem prioOf_eq (src : Nat) : prioOf t src = prioOf s src := by rw [prioOf, h.rd_eq, prioOf]

theorem targetOf_eq (src : Nat) : targetOf t src = targetOf s src := by rw [targetOf, h.rd_eq, targetOf]

theorem threshOf_eq (g : Nat) : threshOf t g = threshOf s g := rdf_eq_of_rd (h.rd_eq _) 3 0

theorem levelSource_eq (src : Nat) : levelSource t src = levelSource s src := by
  rw [levelSource, senseOf, h.rd_eq, ← senseOf, levelSource]

theorem asserted_eq (src : Nat) : asserted t src = asserted s src := by
  simp only [asserted, rawLevel, gpioInput, senseOf, evPend, rdb, h.rd_eq, h.gpio]

theorem pendOf_eq (src : Nat) : pendOf t src = pendOf s src := by
  simp only [pendOf, h.levelSource_eq, h.asserted_eq, h.pend, h.active]

theorem eligible_eq (g src : Nat) : eligible t g src = eligible s g src := by
  simp only [eligible, h.pendOf_eq, h.targetOf_eq, h.threshOf_eq, h.prioOf_eq, h.active, h.en]

theorem bestSource_eq (g : Nat) : bestSource t g = bestSource s g := by
  simp only [bestSource, h.eligible_eq, h.prioOf_eq]

end SourcesKept

theorem SourcesKept.trans {s t u : State} (h : SourcesKept s t) (g : SourcesKept t u) : SourcesKept s u :=
  ⟨g.regs.trans h.regs, g.pend.trans h.pend, g.active.trans h.active, g.en.trans h.en, g.gpio.trans h.gpio⟩

/-! ### The delivery of a signal (R411 to R414) -/

theorem evc_signalMsix (s : State) : ∃ held, (signalMsix s).evc = { s.evc with msixHeld := held } := by
  have msix_keeps (s : State) (v : Nat) : (msix s v).evc = s.evc := (msix_evolves s v (m := 8392704) rfl .rfl).same .evc rfl
  unfold signalMsix
  dsimp only
  split
  · exact ⟨true, by simp [msix_keeps]⟩
  · exact ⟨s.evc.msixHeld, by simp [msix_keeps]⟩

theorem evc_hostPin (old s : State) : (hostPin old s).evc = s.evc :=
  (hostPin_evolves old s (m := 8388672) rfl .rfl).same .evc rfl

theorem evc_sendEvents (s : State) : (sendEvents s).evc = s.evc :=
  (sendEvents_evolves s (m := 8392768) rfl .rfl).same .evc rfl

/-- A flag that is set already stays as it is. -/
theorem flags_or_of_flagOf {s : State} {t : Nat} (h : flagOf s t = true) : s.evc.flags ||| 2 ^ t = s.evc.flags := by
  apply Nat.eq_of_testBit_eq
  intro i
  rw [Nat.testBit_or, Nat.testBit_two_pow]
  by_cases at_t : t = i
  · subst at_t
    simpa [flagOf, bitOf] using h
  · simp [at_t]

/-- Of the event controller, setting a flag changes that flag, and what is held of its message. -/
theorem evc_setFlag (s : State) (t : Nat) :
    ∃ held, (setFlag s t).evc = { s.evc with flags := s.evc.flags ||| 2 ^ t, msixHeld := held } := by
  unfold setFlag
  dsimp only
  split_ifs with stands
  · exact ⟨s.evc.msixHeld, by rw [flags_or_of_flagOf stands]⟩
  · obtain ⟨held, msix⟩ := evc_signalMsix (hostPin s (setEvc s { s.evc with flags := s.evc.flags ||| 2 ^ t }))
    exact ⟨held, by simp [evc_sendEvents, msix, evc_hostPin]⟩
  · exact ⟨s.evc.msixHeld, by simp [evc_sendEvents, evc_hostPin]⟩
  · exact ⟨s.evc.msixHeld, by simp⟩

/-- Presenting a source sets at most signal flags. -/
theorem evc_notify (s : State) (src : Nat) :
    ∃ flags held, (notify s src).evc = { s.evc with flags := flags, msixHeld := held } := by
  unfold notify
  dsimp only
  split_ifs
  · exact ⟨_, evc_setFlag s _⟩
  all_goals exact ⟨_, _, rfl⟩

theorem evc_ev (s : State) (p b : Nat) :
    ∃ flags held, (ev s p b).evc = { s.evc with flags := flags, msixHeld := held } := by
  simpa [ev, evBits] using evc_notify (wr s (ra p 0x24) (evPend s p ||| 2 ^ b)) (0x100 + p)

theorem sourcesKept_setFlag (s : State) (t : Nat) : SourcesKept s (setFlag s t) := by
  have regs : (setFlag s t).regs = s.regs := (setFlag_evolves s t (m := 8523840) rfl .rfl).same .regs rfl
  obtain ⟨held, evc⟩ := evc_setFlag s t
  constructor <;> simp only [regs, evc]

theorem sourcesKept_presentAgain (s : State) (t : Nat) : SourcesKept s (presentAgain s t) := by
  unfold presentAgain
  split
  · exact ⟨rfl, rfl, rfl, rfl, rfl⟩
  · exact sourcesKept_setFlag s t

theorem flagOf_setFlag (s : State) (t : Nat) : flagOf (setFlag s t) t = true := by
  obtain ⟨held, evc⟩ := evc_setFlag s t
  simp [flagOf, evc, bitOf]

/-- A cleared flag is set again exactly if the target has an eligible source (R411). -/
theorem flagOf_presentAgain {s : State} {t : Nat} (cleared : flagOf s t = false) :
    flagOf (presentAgain s t) t = decide (bestSource (presentAgain s t) t ≠ 0) := by
  rw [(sourcesKept_presentAgain s t).bestSource_eq]
  unfold presentAgain
  split_ifs with none
  · simp [cleared, none]
  · simp [flagOf_setFlag, none]

/-! ### The counters of claims and completions -/

section
variable {j : Nat} (hj : j < 20)
include hj

/-- Deliveries are counted from counter 20 on. -/
theorem counter_evc_count_delivery (s : State) {k : Nat} (hk : 20 ≤ k) :
    counter (count s pgEvc k) pgEvc j = counter s pgEvc j := by
  rw [counter_count, if_neg (by omega)]

theorem counter_evc_sendEvents (s : State) : counter (sendEvents s) pgEvc j = counter s pgEvc j := by
  have one (s : State) (n : Nat) : counter (sendEvent s n) pgEvc j = counter s pgEvc j := by
    unfold sendEvent
    dsimp only
    split
    · rw [counter_evc_count_delivery hj _ (by decide)]; simp [sendMsg]
    · rfl
  unfold sendEvents
  split
  · exact foldl_keeps (counter · pgEvc j) (fun s i => one s (i + 1)) _ s
  · rfl

theorem counter_evc_hostPin (old s : State) : counter (hostPin old s) pgEvc j = counter s pgEvc j := by
  unfold hostPin
  split_ifs
  · rfl
  · simp [counter_evc_count_delivery hj]
  · simp

theorem counter_evc_signalMsix (s : State) : counter (signalMsix s) pgEvc j = counter s pgEvc j := by
  have msix_keeps (s : State) (v : Nat) : counter (msix s v) pgEvc j = counter s pgEvc j :=
    (msix_evolves s v (m := 8392704) rfl .rfl).counter_eq rfl _ _
  unfold signalMsix
  dsimp only
  split
  · simp [msix_keeps]
  · rw [counter_evc_count_delivery hj _ (by decide), msix_keeps]

theorem counter_evc_setFlag (s : State) (t : Nat) : counter (setFlag s t) pgEvc j = counter s pgEvc j := by
  unfold setFlag
  dsimp only
  split_ifs <;> simp [counter_evc_sendEvents hj, counter_evc_signalMsix hj, counter_evc_hostPin hj]

theorem counter_evc_presentAgain (s : State) (t : Nat) : counter (presentAgain s t) pgEvc j = counter s pgEvc j := by
  unfold presentAgain
  split
  · rfl
  · exact counter_evc_setFlag hj s t

theorem counter_evc_ev (s : State) (p b : Nat) : counter (ev s p b) pgEvc j = counter s pgEvc j := by
  unfold ev evBits notify
  dsimp only
  split_ifs <;> simp [counter_evc_setFlag hj]

end

end Sys2Proof.Machine
end

section
/-! PROOFS. BestSource (R407): the search for the best source of a target, and what TOP shows of it. -/

namespace Sys2Proof.Machine
open Sys2Proof

/-! ### The search over the source numbers -/

/-- One step of the search: source `src` against the best one before it, 0 for none. -/
def better (s : State) (g best src : Nat) : Nat :=
  if eligible s g src = true then
    (if best = 0 then src else if prioOf s best < prioOf s src then src else best)
  else best

/-- What the search holds after the sources below `n`. -/
def bestBelow (s : State) (g n : Nat) : Nat := (List.range n).foldl (better s g) 0

theorem bestSource_eq_bestBelow (s : State) (g : Nat) : bestSource s g = bestBelow s g 512 := rfl

theorem bestBelow_succ (s : State) (g n : Nat) : bestBelow s g (n + 1) = better s g (bestBelow s g n) n := by
  rw [bestBelow, List.range_succ, List.foldl_append, List.foldl_cons, List.foldl_nil, bestBelow]

/-- `b` is the eligible source below `n` of the highest priority, of equal priorities the lowest. -/
structure IsBest (s : State) (g n b : Nat) : Prop where
  below : b < n
  fits : eligible s g b = true
  first : ∀ src, src < n → eligible s g src = true →
    prioOf s src < prioOf s b ∨ prioOf s src = prioOf s b ∧ b ≤ src

theorem eligible_iff (s : State) (g src : Nat) :
    eligible s g src = true ↔
      targetOf s src = g ∧ pendOf s src = true ∧ bitOf s.evc.active src = false ∧ bitOf s.evc.en src = true ∧
        threshOf s g ≤ prioOf s src := by
  simp only [eligible, Bool.and_eq_true, beq_iff_eq, decide_eq_true_eq, Bool.not_eq_true']
  tauto

/-- Source 0 does not exist, so that 0 can say that there is none. -/
theorem not_eligible_zero (s : State) (g : Nat) : eligible s g 0 = false := by
  simp [eligible, pendOf, sourceExists]

theorem IsBest.ne_zero {s : State} {g n b : Nat} (h : IsBest s g n b) : b ≠ 0 := by
  rintro rfl
  exact absurd h.fits (by simp [not_eligible_zero])

/-- The best one stays so when the next source is not eligible, or has no higher priority. -/
theorem IsBest.stays {s : State} {g n b : Nat} (h : IsBest s g n b)
    (next : eligible s g n = true → prioOf s n ≤ prioOf s b) : IsBest s g (n + 1) b := by
  have below := h.below
  refine ⟨by omega, h.fits, fun src lt el => ?_⟩
  rcases Nat.lt_succ_iff_lt_or_eq.1 lt with lt | rfl
  · exact h.first src lt el
  · have := next el
    omega

/-- An eligible source is the best one when all eligible ones before it have a lower priority. -/
theorem isBest_of_higher {s : State} {g n : Nat} (el : eligible s g n = true)
    (higher : ∀ src, src < n → eligible s g src = true → prioOf s src < prioOf s n) : IsBest s g (n + 1) n := by
  refine ⟨Nat.lt_succ_self n, el, fun src lt el => ?_⟩
  rcases Nat.lt_succ_iff_lt_or_eq.1 lt with lt | rfl
  · exact .inl (higher src lt el)
  · exact .inr ⟨rfl, Nat.le_refl _⟩

theorem bestBelow_spec (s : State) (g n : Nat) :
    (bestBelow s g n = 0 ∧ ∀ src, src < n → eligible s g src = false) ∨ IsBest s g n (bestBelow s g n) := by
  induction n with
  | zero => exact .inl ⟨rfl, fun _ lt => absurd lt (Nat.not_lt_zero _)⟩
  | succ n ih =>
    rw [bestBelow_succ, better]
    rcases ih with ⟨none, all⟩ | best
    · split_ifs with el
      · exact .inr (isBest_of_higher el fun src lt el' => absurd el' (by simp [all src lt]))
      · refine .inl ⟨none, fun src lt => ?_⟩
        rcases Nat.lt_succ_iff_lt_or_eq.1 lt with lt | rfl
        · exact all src lt
        · exact Bool.eq_false_iff.2 el
    · rw [if_neg best.ne_zero]
      split_ifs with el higher
      · refine .inr (isBest_of_higher el fun src lt el' => ?_)
        have := best.first src lt el'
        omega
      · exact .inr (best.stays fun _ => by omega)
      · exact .inr (best.stays fun el' => absurd el' el)

theorem bestSource_spec (s : State) (g : Nat) :
    (bestSource s g = 0 ∧ ∀ src, src < 512 → eligible s g src = false) ∨ IsBest s g 512 (bestSource s g) := by
  rw [bestSource_eq_bestBelow]
  exact bestBelow_spec s g 512

theorem isBest_bestSource {s : State} {g : Nat} (h : bestSource s g ≠ 0) : IsBest s g 512 (bestSource s g) :=
  (bestSource_spec s g).resolve_left fun none => h none.1

theorem not_eligible_of_bestSource_zero {s : State} {g src : Nat} (h : bestSource s g = 0) (lt : src < 512) :
    eligible s g src = false := by
  rcases bestSource_spec s g with ⟨_, all⟩ | best
  · exact all src lt
  · exact absurd h best.ne_zero

theorem bestSource_lt (s : State) (g : Nat) : bestSource s g < 512 := by
  by_cases h : bestSource s g = 0
  · omega
  · exact (isBest_bestSource h).below

/-! ### A read of TOP -/

/-- A read of a register of a clocked block, beyond the header and before the counters. -/
theorem readReg_eq_blockRead {s : State} {p o : Nat} {i : PageInfo} {r : RegSpec} (rq : Requester) (hp : p < 0x400)
    (aligned : o % 4 = 0) (header : 0x40 ≤ o) (counters : o < 0x800) (info : pageInfo p = some i)
    (spec : regSpec (ra p o) = some r) (on : pgClkOn s p = true) : readReg s rq (ra p o) = blockRead s rq p o r := by
  have page : ra p o / 4096 = p := by simp only [ra]; omega
  have offset : ra p o % 4096 = o := by simp only [ra]; omega
  have word : ra p o % 4 = 0 := by simp only [ra]; omega
  have window : ra p o < 0x400000 := by simp only [ra]; omega
  simp only [readReg, page, offset, info, spec, on]
  rw [if_neg (by omega), if_neg (by omega), if_neg (by omega), if_neg (by omega), if_neg (by decide), if_neg (by omega)]

/-- The register TOP of the five targets. -/
def topReg : RegSpec := { off := 0x4C, n := 5, stride := 0x10 }

theorem regSpec_top {g : Nat} (hg : g < 5) : regSpec (ra 8 (0x4C + 0x10 * g)) = some topReg := by
  interval_cases g <;> rfl

theorem blockRead_top (s : State) (rq : Requester) {g : Nat} (hg : g < 5) :
    blockRead s rq 8 (0x4C + 0x10 * g) topReg = (topView s (0x4C + 0x10 * g) (rd s (ra 8 (0x4C + 0x10 * g))), s) := by
  interval_cases g <;> rfl

/-- The word of TOP: best source, priority and signal flag. -/
def topWord (s : State) (g : Nat) : Nat :=
  bestSource s g + 2 ^ 16 * (if bestSource s g = 0 then 0 else prioOf s (bestSource s g)) + 2 ^ 24 * b2n (flagOf s g)

theorem prioOf_lt (s : State) (src : Nat) : prioOf s src < 16 := Nat.mod_lt _ (by decide)

theorem source_topWord (s : State) (g : Nat) : field (topWord s g) 8 0 = bestSource s g := by
  have := bestSource_lt s g
  simp only [field, topWord]
  omega

theorem prio_topWord (s : State) (g : Nat) :
    field (topWord s g) 19 16 = if bestSource s g = 0 then 0 else prioOf s (bestSource s g) := by
  have := bestSource_lt s g
  have := prioOf_lt s (bestSource s g)
  simp only [field, topWord]
  split <;> omega

theorem flag_topWord (s : State) (g : Nat) : bitOf (topWord s g) 24 = flagOf s g := by
  have := bestSource_lt s g
  have := prioOf_lt s (bestSource s g)
  have flag : topWord s g / 2 ^ 24 = b2n (flagOf s g) := by
    simp only [topWord]
    split <;> omega
  rw [bitOf, Nat.testBit_eq_decide_div_mod_eq, flag]
  cases flagOf s g <;> rfl

theorem topView_eq_topWord (s : State) (g v : Nat) : topView s (0x4C + 0x10 * g) v = topWord s g := by
  have target : (0x4C + 0x10 * g - 0x40) / 16 = g := by omega
  rw [topView, target, if_pos (by omega), topWord]
  split_ifs <;> rfl

theorem readReg_top {s : State} {g : Nat} (rq : Requester) (hg : g < 5) (on : pgClkOn s (pgEvc + 3) = true) :
    readReg s rq (ra (pgEvc + 3) (0x4C + 0x10 * g)) = (topWord s g, s) := by
  have is_block := readReg_eq_blockRead (p := 8) rq (by decide) (by omega) (by omega) (by omega) rfl (regSpec_top hg) on
  exact is_block.trans (by rw [blockRead_top s rq hg, topView_eq_topWord])

end Sys2Proof.Machine

namespace Sys2Proof.Proofs
open Sys2Proof Sys2Proof.Machine

/-- Settles O51: the search keeps an eligible source that is best among those it has passed, and TOP is not a word whose
read has an effect. -/
theorem bestSource : Obligations.BestSource := by
  refine ⟨eligible_iff, fun s g some => ?_, fun s g src none lt _ => not_eligible_of_bestSource_zero none lt,
    fun s rq g hg on => ?_⟩
  · obtain ⟨below, el, first⟩ := isBest_bestSource some
    exact ⟨below, el, fun src lt _ => first src lt⟩
  · intro top
    have is_top : top = (topWord s g, s) := readReg_top rq hg on
    rw [is_top]
    exact ⟨rfl, source_topWord s g, prio_topWord s g, flag_topWord s g⟩

end Sys2Proof.Proofs
end

section
/-! PROOFS. Claims (R408, R411): a claim clears the flag of its target, begins the service of the best source, and presents
the target again. -/

namespace Sys2Proof.Machine
open Sys2Proof

variable {s : State} {rq : Requester} {g : Nat}

/-! ### The flag that a claim clears (R411, R412) -/

/-- The state in which the flag of target `g` has been cleared and HOST_INTn has followed. -/
def flagCleared (s : State) (g : Nat) : State :=
  hostPin s (setEvc s { s.evc with flags := withBit s.evc.flags g false })

@[simp] theorem evc_flagCleared (s : State) (g : Nat) :
    (flagCleared s g).evc = { s.evc with flags := withBit s.evc.flags g false } := by
  simp [flagCleared, evc_hostPin]

@[simp] theorem regs_flagCleared (s : State) (g : Nat) : (flagCleared s g).regs = s.regs := by
  have pin : (flagCleared s g).regs = _ := (hostPin_evolves s _ (m := 8388672) rfl .rfl).same .regs rfl
  rw [pin, setEvc]

/-- Without the flag the pin is not driven low, so that no assertion is counted. -/
theorem hostIntLow_of_cleared (h : hostIntLow (setEvc s { s.evc with flags := withBit s.evc.flags g false }) = true) :
    hostIntLow s = true := by
  simp only [hostIntLow, flagOf, rdb, setEvc_fields, bitOf_withBit, Bool.and_eq_true] at h ⊢
  split at h
  · exact absurd h.1 (by decide)
  · exact h

theorem counters_hostPin_released {old s : State} (h : hostIntLow s = true → hostIntLow old = true) :
    (hostPin old s).counters = s.counters := by
  unfold hostPin
  split_ifs with same low
  · rfl
  · exact absurd ((h low).trans low.symm) same
  · simp

@[simp] theorem counter_flagCleared (s : State) (g p k : Nat) : counter (flagCleared s g) p k = counter s p k := by
  rw [counter, flagCleared, counters_hostPin_released hostIntLow_of_cleared]
  simp [counter]

/-! ### What a claim runs -/

theorem exec_claim_unserved (h : 5 ≤ g ∨ serves rq g = false ∨ pgClkOn s pgEvc = false) :
    exec (.claim rq g) s = .next (answerRead s (rqKey rq) 0) := by
  simp only [exec, execClaim, claimRead, if_pos h]

theorem exec_claim_none (hg : g < 5) (served : serves rq g = true) (on : pgClkOn s pgEvc = true)
    (none : bestSource s g = 0) :
    exec (.claim rq g) s = .next (answerRead (count (flagCleared s g) pgEvc (4 * g + 1)) (rqKey rq) 0) := by
  have taken : ¬(5 ≤ g ∨ serves rq g = false ∨ pgClkOn s pgEvc = false) := by simp [hg, served, on]
  simp only [exec, execClaim, claimRead, if_neg taken, if_pos none, flagCleared]

/-- The state in which the claim of target `g` is counted and the service of source `b` begins. -/
def serviceBegun (s : State) (g b : Nat) : State :=
  let s := flagCleared s g
  count (setEvc s { s.evc with active := withBit s.evc.active b true, pend := withBit s.evc.pend b false }) pgEvc (4 * g)

theorem exec_claim_best (hg : g < 5) (served : serves rq g = true) (on : pgClkOn s pgEvc = true)
    (some : bestSource s g ≠ 0) :
    exec (.claim rq g) s =
      .next (answerRead (presentAgain (serviceBegun s g (bestSource s g)) g) (rqKey rq) (bestSource s g)) := by
  have taken : ¬(5 ≤ g ∨ serves rq g = false ∨ pgClkOn s pgEvc = false) := by simp [hg, served, on]
  simp only [exec, execClaim, claimRead, if_neg taken, if_neg some, flagCleared, serviceBegun]

/-! ### The service that a claim begins -/

theorem evc_serviceBegun (s : State) (g b : Nat) :
    (serviceBegun s g b).evc =
      { s.evc with flags := withBit s.evc.flags g false, active := withBit s.evc.active b true,
                   pend := withBit s.evc.pend b false } := by
  simp [serviceBegun]

theorem flagOf_serviceBegun (s : State) (g b : Nat) : flagOf (serviceBegun s g b) g = false := by
  simp [flagOf, evc_serviceBegun]

theorem counted_serviceBegun (s : State) (g b : Nat) : counted s (serviceBegun s g b) pgEvc (4 * g) := by
  simp [counted, serviceBegun, counter_count]

/-- A source that is served and whose P bit is clear is not pending, whatever its sense. -/
theorem pendOf_of_served {s : State} {src : Nat} (active : bitOf s.evc.active src = true)
    (pend : bitOf s.evc.pend src = false) : pendOf s src = false := by
  simp [pendOf, active, pend]

theorem sourcesKept_answerRead (s : State) (k v : Nat) : SourcesKept s (answerRead s k v) := by
  constructor <;> simp

theorem flagOf_answerRead (s : State) (k v g : Nat) : flagOf (answerRead s k v) g = flagOf s g := rfl

theorem serves_core {n : Nat} (hn : n < 4) (g : Nat) : serves (.core n) g = true ↔ g = n := by
  rw [serves, Nat.mod_eq_of_lt hn, beq_iff_eq, eq_comm]

end Sys2Proof.Machine

namespace Sys2Proof.Proofs
open Sys2Proof Sys2Proof.Machine

/-- Settles O52: a claim that takes effect clears the flag, begins the service of the best source, and presents the target
again, which touches no source; the others only answer. -/
theorem claims : Obligations.Claims := by
  refine ⟨fun n g hn _ => serves_core hn g, fun n g _ => ⟨by simp [serves], by simp [serves]⟩, fun s rq g => ?_⟩
  intro answer b
  have answered (t : State) (v : Nat) : answer (answerRead t (rqKey rq) v) = BitVec.ofNat 32 v := by simp [answer]
  refine ⟨fun unserved => ?_, fun hg served on some => ?_, fun hg served on none => ?_⟩
  · exact ⟨_, exec_claim_unserved unserved, answered s 0, (answerRead_evolves s _ _ (m := 32) rfl .rfl).only (by decide)⟩
  · have kept := (sourcesKept_presentAgain (serviceBegun s g b) g).trans (sourcesKept_answerRead _ (rqKey rq) b)
    have active : bitOf (serviceBegun s g b).evc.active b = true := by simp [evc_serviceBegun]
    have pend : bitOf (serviceBegun s g b).evc.pend b = false := by simp [evc_serviceBegun]
    refine ⟨_, exec_claim_best hg served on some, answered _ b, ?_, ?_, ?_, fun i other => ⟨?_, ?_⟩, ?_, ?_, ?_⟩
    · rw [kept.active, active]
    · rw [kept.pend, pend]
    · rw [kept.pendOf_eq, pendOf_of_served active pend]
    · rw [kept.active, evc_serviceBegun, bitOf_withBit_other _ _ other]
    · rw [kept.pend, evc_serviceBegun, bitOf_withBit_other _ _ other]
    · rw [kept.en, evc_serviceBegun]
    · simp only [counted, answerRead_fields, counter_evc_presentAgain (by omega : 4 * g < 20)]
      exact counted_serviceBegun s g b
    · rw [(sourcesKept_answerRead ..).bestSource_eq, flagOf_answerRead]
      exact flagOf_presentAgain (flagOf_serviceBegun s g b)
  · refine ⟨_, exec_claim_none hg served on none, answered _ 0, by simp, by simp, by simp, ?_, ?_, ?_, ?_⟩
    · simp [flagOf]
    · simp [counted, counter_count]
    · intro q j other
      simp [counter_count, other]
    · intro a _
      simp [rd]

end Sys2Proof.Proofs
end

section
/-! PROOFS. Completions (R409): a completion that takes effect ends the service of its source and presents the target again,
any other raises BAD_COMPLETE. -/

namespace Sys2Proof.Machine
open Sys2Proof

variable {s : State} {rq : Requester} {g src : Nat}

/-- The state in which the completion of source `src` is counted and its service has ended. -/
def serviceEnded (s : State) (g src : Nat) : State :=
  count (setEvc s { s.evc with active := withBit s.evc.active src false }) pgEvc (4 * g + 2)

theorem evc_serviceEnded (s : State) (g src : Nat) :
    (serviceEnded s g src).evc = { s.evc with active := withBit s.evc.active src false } := by
  simp [serviceEnded]

theorem counted_serviceEnded (s : State) (g src : Nat) : counted s (serviceEnded s g src) pgEvc (4 * g + 2) := by
  simp [counted, serviceEnded, counter_count]

theorem levelSource_serviceEnded (s : State) (g i src : Nat) :
    levelSource (serviceEnded s g i) src = levelSource s src := by
  simp [levelSource, senseOf, serviceEnded]

/-! ### What a completion runs -/

theorem exec_complete_no_target (hg : 5 ≤ g) (rq : Requester) (src : Nat) (s : State) :
    exec (.complete rq g src) s = .next s := by
  simp only [exec, execComplete, if_pos hg]

/-- The conditions under which a completion takes effect (R409). -/
def completionTaken (s : State) (rq : Requester) (g src : Nat) : Bool :=
  serves rq g && targetOf s src == g && bitOf s.evc.active src

theorem exec_complete_admitted (hsrc : src < 512) (hg : g < 5)
    (adm : admitted s (ra (pgEvc + 3) (0x44 + 0x10 * g)) src) :
    exec (.complete rq g src) s =
      .next (if completionTaken s rq g src then presentAgain (serviceEnded s g src) g
        else ev (count s pgEvc (4 * g + 3)) pgEvc 8) := by
  simp only [exec, execComplete, Nat.mod_eq_of_lt hsrc, if_neg (Nat.not_le.2 hg), gated_of_admitted adm]
  rfl

/-! ### The source after its completion -/

/-- A level source that is not served is pending as its level is asserted (R405). -/
theorem pendOf_of_level (exist : sourceExists src = true) (level : levelSource s src = true ∨ 0x100 ≤ src)
    (idle : bitOf s.evc.active src = false) : pendOf s src = asserted s src := by
  rcases level with level | page
  · simp [pendOf, exist, level, idle]
  · simp [pendOf, exist, page, idle]

end Sys2Proof.Machine

namespace Sys2Proof.Proofs
open Sys2Proof Sys2Proof.Machine

/-- Settles O53: a completion that takes effect clears A of its source, and presenting the target again touches no source;
another one is counted and raises BAD_COMPLETE, which sets flags only. -/
theorem completions : Obligations.Completions := by
  intro s rq g src hsrc
  refine ⟨fun no_target => exec_complete_no_target no_target rq src s, fun hg adm => ?_⟩
  have runs := exec_complete_admitted (rq := rq) hsrc hg adm
  refine ⟨fun served routed active => ?_, fun untaken => ?_⟩
  · rw [if_pos (by simp [completionTaken, served, routed, active])] at runs
    have kept := sourcesKept_presentAgain (serviceEnded s g src) g
    have ended : bitOf (presentAgain (serviceEnded s g src) g).evc.active src = false := by
      rw [kept.active, evc_serviceEnded, bitOf_withBit_same]
    refine ⟨_, runs, ended, fun i other => ?_, fun level exist => pendOf_of_level exist ?_ ended, ?_, ?_, ?_⟩
    · rw [kept.active, evc_serviceEnded, bitOf_withBit_other _ _ other]
    · rwa [kept.levelSource_eq, levelSource_serviceEnded]
    · rw [kept.pend, evc_serviceEnded]
    · rw [kept.en, evc_serviceEnded]
    · rw [counted, counter_evc_presentAgain (by omega), counted_serviceEnded]
  · have not_taken : completionTaken s rq g src = false := by
      rcases untaken with unserved | elsewhere | idle
      · simp [completionTaken, unserved]
      · simp [completionTaken, elsewhere]
      · simp [completionTaken, idle]
    rw [not_taken, if_neg (by decide)] at runs
    obtain ⟨flags, held, evc⟩ := evc_ev (count s pgEvc (4 * g + 3)) pgEvc 8
    refine ⟨_, runs, ?_, ?_, ?_, ?_⟩
    · simp [evc]
    · simp [evc]
    · simpa [raised, evPend] using raised_ev (count s pgEvc (4 * g + 3)) pgEvc (b := 8) (by decide)
    · rw [counted, counter_evc_ev (by omega), counter_count, if_pos rfl]

end Sys2Proof.Proofs
end

section
/-! PROOFS. The machine as a whole: the frame of every command and of every step (CommandFrames), and what follows from it:
image memory stays canonical, what was sent stays sent, and every command answers. -/

namespace Sys2Proof.Machine
open Sys2Proof

/-! ### Parts as masks -/

/-- The mask of a list of parts. -/
def maskOf : List Part → Nat
  | [] => 0
  | p :: ps => 2 ^ p.bit ||| maskOf ps

theorem Part.bit_injective : Function.Injective Part.bit := by
  intro p q
  cases p <;> cases q <;> decide

theorem testBit_maskOf (ps : List Part) (p : Part) : (maskOf ps).testBit p.bit = decide (p ∈ ps) := by
  induction ps with
  | nil => simp [maskOf]
  | cons q ps ih =>
    have same : q.bit = p.bit ↔ p = q := ⟨fun e => (Part.bit_injective e).symm, fun e => by rw [e]⟩
    simp [maskOf, Nat.testBit_or, Nat.testBit_two_pow, ih, same]

/-- A change within the mask of a list of parts changes only these parts. -/
theorem Evolves.onlyChanges_maskOf {ps : List Part} {s t : State} (h : Evolves (maskOf ps) s t) : onlyChanges ps s t :=
  fun p hp => h.same p (by simp [testBit_maskOf, hp])

/-- What every change within a frame keeps: the canonical form of image memory, what was sent, the free values drawn. -/
theorem Evolves.kept {m : Nat} {s t : State} (h : Evolves m s t) :
    (memoryCanonical s → memoryCanonical t) ∧ s.out <+: t.out ∧ s.freeCount ≤ t.freeCount := by
  obtain ⟨_, _, _, _, _, _, _, _, _, _, _, _, _, _, _, _, _, _, _, _, _, _, _, _, _, canonical, sent, drawn⟩ := h
  exact ⟨canonical, sent, drawn⟩

/-! ### Every command -/

/-- Every command changes at most the parts that `mayChange` gives it: the frame of its meaning lies within their mask. -/
theorem exec_evolves (c : Instr) (s : State) : Evolves (maskOf (mayChange c)) s (taken s (exec c s)) := by
  cases c <;> dsimp only [mayChange]
  case watchdogExpiry core => exact execWatchdogExpiry_evolves core s rfl .rfl
  case registerWrite rq addr val byteEn => exact execRegisterWrite_evolves rq addr val byteEn s rfl .rfl
  case srst rq page => exact execSrst_evolves rq page s rfl .rfl
  case srstDone page => exact execSrstDone_evolves page s rfl .rfl
  case blockEnable rq page en clkReq => exact execBlockEnable_evolves rq page en clkReq s rfl .rfl
  case clockStart page => exact execClockStart_evolves page s rfl .rfl
  case counterLowRead rq page k rime => exact execCounterLowRead_evolves rq page k rime s rfl .rfl
  case counterHighRead rq page k rime => exact execCounterHighRead_evolves rq page k rime s rfl .rfl
  case highWordWrite rq addr val => exact execHighWordWrite_evolves rq addr val s rfl .rfl
  case commitArm rq page val => exact execCommitArm_evolves rq page val s rfl .rfl
  case commitCancel rq page => exact execCommitCancel_evolves rq page s rfl .rfl
  case commitApply page => exact execCommitApply_evolves page s rfl .rfl
  case nozzleTableWrite rq bar col val => exact execNozzleTableWrite_evolves rq bar col val s rfl .rfl
  case tableWindowWrite rq addr val => exact execTableWindowWrite_evolves rq addr val s rfl .rfl
  case ownerWrite rq resource code => exact execOwnerWrite_evolves rq resource code s rfl .rfl
  case gpioDirWrite rq openDrain val => exact execGpioDirWrite_evolves rq openDrain val s rfl .rfl
  case gpioOutWrite rq op val => exact execGpioOutWrite_evolves rq op val s rfl .rfl
  case evSetWrite rq page val => exact execEvSetWrite_evolves rq page val s rfl .rfl
  case snapshotTrigger rq val => exact execSnapshotTrigger_evolves rq val s rfl .rfl
  case snapshotTake => exact execSnapshotTake_evolves s rfl .rfl
  case ethFrameReceive port frame => exact execEthFrameReceive_evolves port frame s rfl .rfl
  case hello m => exact execHello_evolves m s rfl .rfl
  case close m => exact execClose_evolves m s rfl .rfl
  case keepalive m => exact execKeepalive_evolves m s rfl .rfl
  case cmd m => exact execCmd_evolves m s rfl .rfl
  case helloRing slot => exact execHelloRing_evolves slot s rfl .rfl
  case closeRing slot => exact execCloseRing_evolves slot s rfl .rfl
  case nop slot => exact execNop_evolves slot s rfl .rfl
  case jobDefine slot => exact execJobDefine_evolves slot s rfl .rfl
  case jobStart slot => exact execJobStart_evolves slot s rfl .rfl
  case jobStop slot => exact execJobStop_evolves slot s rfl .rfl
  case jobRelease slot => exact execJobRelease_evolves slot s rfl .rfl
  case tilePut slot => exact execTilePut_evolves slot s rfl .rfl
  case tileQuery slot => exact execTileQuery_evolves slot s rfl .rfl
  case regRead slot => exact execRegRead_evolves slot s rfl .rfl
  case regWrite slot => exact execRegWrite_evolves slot s rfl .rfl
  case applyLineWrite slot => exact execApplyLineWrite_evolves slot s rfl .rfl
  case tableWrite slot => exact execTableWrite_evolves slot s rfl .rfl
  case inflate slot => exact execInflate_evolves slot s rfl .rfl
  case inflateDone slot => exact execInflateDone_evolves slot s rfl .rfl
  case snapshot slot => exact execSnapshot_evolves slot s rfl .rfl
  case sessionTimeout session => exact execSessionTimeout_evolves session s rfl .rfl
  case resumeLimit session => exact execResumeLimit_evolves session s rfl .rfl
  case pcieLinkLoss => exact execPcieLinkLoss_evolves s rfl .rfl
  case submissionDoorbell q tail => exact execSubmissionDoorbell_evolves q tail s rfl .rfl
  case completionDoorbell q head => exact execCompletionDoorbell_evolves q head s rfl .rfl
  case submissionFetch q entry data => exact execSubmissionFetch_evolves q entry data s rfl .rfl
  case completionWrite q => exact execCompletionWrite_evolves q s rfl .rfl
  case announce => exact execAnnounce_evolves s rfl .rfl
  case journalReplay => exact execJournalReplay_evolves s rfl .rfl
  case gratuitousArp => exact execGratuitousArp_evolves s rfl .rfl
  case fragmentStoreDone slot => exact execFragmentStoreDone_evolves slot s rfl .rfl
  case fragTimeout job plane x y => exact execFragTimeout_evolves job plane x y s rfl .rfl
  case thawStart engine => exact execThawStart_evolves engine s rfl .rfl
  case thawDone engine => exact execThawDone_evolves engine s rfl .rfl
  case tileFetchDone bar x y => exact execTileFetchDone_evolves bar x y s rfl .rfl
  case reqTimeout job plane x y => exact execReqTimeout_evolves job plane x y s rfl .rfl
  case freezeDone engine client input flushes => exact execFreezeDone_evolves engine client input flushes s rfl .rfl
  case refresh sub => exact execRefresh_evolves sub s rfl .rfl
  case mr4Read sub double0 double1 => exact execMr4Read_evolves sub double0 double1 s rfl .rfl
  case retrainStep sub edge move margins => exact execRetrainStep_evolves sub edge move margins s rfl .rfl
  case hotHoldExpiry sub => exact execHotHoldExpiry_evolves sub s rfl .rfl
  case agePromotion channel request => exact execAgePromotion_evolves channel request s rfl .rfl
  case dramRead addr cls => exact execDramRead_evolves addr cls s rfl .rfl
  case dramWrite addr cls bytes => exact execDramWrite_evolves addr cls bytes s rfl .rfl
  case freqReq rq target req => exact execFreqReq_evolves rq target req s rfl .rfl
  case freqDone ok => exact execFreqDone_evolves ok s rfl .rfl
  case derateWindow => exact execDerateWindow_evolves s rfl .rfl
  case countEdge chan u v w phase => exact execCountEdge_evolves chan u v w phase s rfl .rfl
  case index chan => exact execIndex_evolves chan s rfl .rfl
  case serialFrame chan => exact execSerialFrame_evolves chan s rfl .rfl
  case serialSample chan f => exact execSerialSample_evolves chan f s rfl .rfl
  case serTimeout chan => exact execSerTimeout_evolves chan s rfl .rfl
  case load rq chan => exact execLoad_evolves rq chan s rfl .rfl
  case clrFault rq chan => exact execClrFault_evolves rq chan s rfl .rfl
  case posLoRead rq chan => exact execPosLoRead_evolves rq chan s rfl .rfl
  case speedWindow chan => exact execSpeedWindow_evolves chan s rfl .rfl
  case stillTimeout chan => exact execStillTimeout_evolves chan s rfl .rfl
  case mark bar falling edgesBack => exact execMark_evolves bar falling edgesBack s rfl .rfl
  case rowLineBuilt bar => exact execRowLineBuilt_evolves bar s rfl .rfl
  case bandTrimWrite rq bar bank band val => exact execBandTrimWrite_evolves rq bar bank band val s rfl .rfl
  case lineSend bar stream => exact execLineSend_evolves bar stream s rfl .rfl
  case skipEpisodeEnd bar => exact execSkipEpisodeEnd_evolves bar s rfl .rfl
  case drypointDone results => exact execDrypointDone_evolves results s rfl .rfl
  case validate rq wave => exact execValidate_evolves rq wave s rfl .rfl
  case tempTimeout lane slot => exact execTempTimeout_evolves lane slot s rfl .rfl
  case detect lane terminated => exact execDetect_evolves lane terminated s rfl .rfl
  case trainDone lane found => exact execTrainDone_evolves lane found s rfl .rfl
  case trainTimeout lane => exact execTrainTimeout_evolves lane s rfl .rfl
  case cap lane f => exact execCap_evolves lane f s rfl .rfl
  case capTimeout lane => exact execCapTimeout_evolves lane s rfl .rfl
  case lane lane f => exact execLane_evolves lane f s rfl .rfl
  case blockLockLost lane => exact execBlockLockLost_evolves lane s rfl .rfl
  case stat lane f => exact execStat_evolves lane f s rfl .rfl
  case lineLostEpisodeEnd lane bar => exact execLineLostEpisodeEnd_evolves lane bar s rfl .rfl
  case nack lane f => exact execNack_evolves lane f s rfl .rfl
  case timeResp lane f => exact execTimeResp_evolves lane f s rfl .rfl
  case idle lane f => exact execIdle_evolves lane f s rfl .rfl
  case idleSend lane => exact execIdleSend_evolves lane s rfl .rfl
  case linkTimeout lane => exact execLinkTimeout_evolves lane s rfl .rfl
  case syncSend lane => exact execSyncSend_evolves lane s rfl .rfl
  case waveResend lane wave => exact execWaveResend_evolves lane wave s rfl .rfl
  case planWrite rq lane serialHi val => exact execPlanWrite_evolves rq lane serialHi val s rfl .rfl
  case fomReport lane fom => exact execFomReport_evolves lane fom s rfl .rfl
  case eiDelay lane => exact execEiDelay_evolves lane s rfl .rfl
  case eiWake lane => exact execEiWake_evolves lane s rfl .rfl
  case ioOutWrite rq lane val => exact execIoOutWrite_evolves rq lane val s rfl .rfl
  case ioSafeWrite rq lane mask val => exact execIoSafeWrite_evolves rq lane mask val s rfl .rfl
  case ioOutResend => exact execIoOutResend_evolves s rfl .rfl
  case csiPacket port vc dataType wordCount ecc crcOk payload =>
    exact execCsiPacket_evolves port vc dataType wordCount ecc crcOk payload s rfl .rfl
  case frameStart port vc number => exact execFrameStart_evolves port vc number s rfl .rfl
  case frameEnd port vc => exact execFrameEnd_evolves port vc s rfl .rfl
  case strobeTimeout ctx => exact execStrobeTimeout_evolves ctx s rfl .rfl
  case pipelineStart => exact execPipelineStart_evolves s rfl .rfl
  case pipelineDone => exact execPipelineDone_evolves s rfl .rfl
  case contextEnable rq ctx val => exact execContextEnable_evolves rq ctx val s rfl .rfl
  case tapRel rq ctx val => exact execTapRel_evolves rq ctx val s rfl .rfl
  case loopUpdate => exact execLoopUpdate_evolves s rfl .rfl
  case ladderClassify => exact execLadderClassify_evolves s rfl .rfl
  case loopEnable rq val => exact execLoopEnable_evolves rq val s rfl .rfl
  case ladderEnable rq val => exact execLadderEnable_evolves rq val s rfl .rfl
  case loopNoData bar => exact execLoopNoData_evolves bar s rfl .rfl
  case incrWrite rq hi => exact execIncrWrite_evolves rq hi s rfl .rfl
  case ptpSync m => exact execPtpSync_evolves m s rfl .rfl
  case followUp m => exact execFollowUp_evolves m s rfl .rfl
  case delayResp m => exact execDelayResp_evolves m s rfl .rfl
  case pdelay kind m => exact execPdelay_evolves kind m s rfl .rfl
  case ptpAnnounce m d => exact execPtpAnnounce_evolves m d s rfl .rfl
  case servoMeasurement => exact execServoMeasurement_evolves s rfl .rfl
  case announceTimeout => exact execAnnounceTimeout_evolves s rfl .rfl
  case ptcStep rq => exact execPtcStep_evolves rq s rfl .rfl
  case adj rq => exact execAdj_evolves rq s rfl .rfl
  case acceptStep rq => exact execAcceptStep_evolves rq s rfl .rfl
  case stepDone => exact execStepDone_evolves s rfl .rfl
  case tcForward kind m transport trailer egress =>
    exact execTcForward_evolves kind m transport trailer egress s rfl .rfl
  case pairTimeExchange => exact execPairTimeExchange_evolves s rfl .rfl
  case pairHello m => exact execPairHello_evolves m s rfl .rfl
  case hbSend => exact execHbSend_evolves s rfl .rfl
  case hb m => exact execHb_evolves m s rfl .rfl
  case hbTimeout => exact execHbTimeout_evolves s rfl .rfl
  case pairFault m => exact execPairFault_evolves m s rfl .rfl
  case input m => exact execInput_evolves m s rfl .rfl
  case inputApply => exact execInputApply_evolves s rfl .rfl
  case crcMessage m => exact execCrcMessage_evolves m s rfl .rfl
  case crcWait line bar => exact execCrcWait_evolves line bar s rfl .rfl
  case copy m => exact execCopy_evolves m s rfl .rfl
  case copyCtrl m => exact execCopyCtrl_evolves m s rfl .rfl
  case copyPassDone => exact execCopyPassDone_evolves s rfl .rfl
  case position m => exact execPosition_evolves m s rfl .rfl
  case health m => exact execHealth_evolves m s rfl .rfl
  case healthSend laneErr scrubbedMiB => exact execHealthSend_evolves laneErr scrubbedMiB s rfl .rfl
  case checkInput => exact execCheckInput_evolves s rfl .rfl
  case tileReq m => exact execTileReq_evolves m s rfl .rfl
  case tileData m => exact execTileData_evolves m s rfl .rfl
  case retry seq => exact execRetry_evolves seq s rfl .rfl
  case formTimeout => exact execFormTimeout_evolves s rfl .rfl
  case switch rq => exact execSwitch_evolves rq s rfl .rfl
  case join rq => exact execJoin_evolves rq s rfl .rfl
  case solo rq => exact execSolo_evolves rq s rfl .rfl
  case leave rq => exact execLeave_evolves rq s rfl .rfl
  case soloWait => exact execSoloWait_evolves s rfl .rfl
  case copyTimeout => exact execCopyTimeout_evolves s rfl .rfl
  case safeOutput => exact execSafeOutput_evolves s rfl .rfl
  case profileUpdate axis => exact execProfileUpdate_evolves axis s rfl .rfl
  case targetWrite rq axis hi => exact execTargetWrite_evolves rq axis hi s rfl .rfl
  case stop rq axis => exact execStop_evolves rq axis s rfl .rfl
  case qstop rq axis => exact execQstop_evolves rq axis s rfl .rfl
  case home rq axis => exact execHome_evolves rq axis s rfl .rfl
  case engage rq axis => exact execEngage_evolves rq axis s rfl .rfl
  case disengage rq axis => exact execDisengage_evolves rq axis s rfl .rfl
  case setPos rq axis => exact execSetPos_evolves rq axis s rfl .rfl
  case axisClrFault rq axis => exact execAxisClrFault_evolves rq axis s rfl .rfl
  case pendArm rq axis hi => exact execPendArm_evolves rq axis hi s rfl .rfl
  case ratioApply axis => exact execRatioApply_evolves axis s rfl .rfl
  case step axis => exact execStep_evolves axis s rfl .rfl
  case stall axis => exact execStall_evolves axis s rfl .rfl
  case limitAssert axis positive => exact execLimitAssert_evolves axis positive s rfl .rfl
  case limitRelease axis positive => exact execLimitRelease_evolves axis positive s rfl .rfl
  case homeInput axis active stepsBack => exact execHomeInput_evolves axis active stepsBack s rfl .rfl
  case homeTimeout axis => exact execHomeTimeout_evolves axis s rfl .rfl
  case compareArm rq unit hi => exact execCompareArm_evolves rq unit hi s rfl .rfl
  case compareFire unit => exact execCompareFire_evolves unit s rfl .rfl
  case gpioEdge pin level => exact execGpioEdge_evolves pin level s rfl .rfl
  case pendSet rq word val => exact execPendSet_evolves rq word val s rfl .rfl
  case pendClr rq word val => exact execPendClr_evolves rq word val s rfl .rfl
  case enSet rq word val => exact execEnSet_evolves rq word val s rfl .rfl
  case enClr rq word val => exact execEnClr_evolves rq word val s rfl .rfl
  case claim rq target => exact execClaim_evolves rq target s rfl .rfl
  case complete rq target source => exact execComplete_evolves rq target source s rfl .rfl
  case evmsgRepeat => exact execEvmsgRepeat_evolves s rfl .rfl
  case srccfgWrite rq source val => exact execSrccfgWrite_evolves rq source val s rfl .rfl
  case pstateDoze rq => exact execPstateDoze_evolves rq s rfl .rfl
  case pstateDeep rq => exact execPstateDeep_evolves rq s rfl .rfl
  case wake cause pin => exact execWake_evolves cause pin s rfl .rfl
  case wakeDone recordOk => exact execWakeDone_evolves recordOk s rfl .rfl
  case xtalFail => exact execXtalFail_evolves s rfl .rfl
  case xtalRestore => exact execXtalRestore_evolves s rfl .rfl
  case tempMeasurement readings => exact execTempMeasurement_evolves readings s rfl .rfl
  case thermalStopDone => exact execThermalStopDone_evolves s rfl .rfl
  case tripRestart temps => exact execTripRestart_evolves temps s rfl .rfl
  case holdExpiry => exact execHoldExpiry_evolves s rfl .rfl
  case clrStop rq => exact execClrStop_evolves rq s rfl .rfl
  case voltageConversion reading => exact execVoltageConversion_evolves reading s rfl .rfl
  case roCount counts => exact execRoCount_evolves counts s rfl .rfl
  case pmbusTransaction cmd result => exact execPmbusTransaction_evolves cmd result s rfl .rfl
  case voutCheck mv => exact execVoutCheck_evolves mv s rfl .rfl
  case cal rq group => exact execCal_evolves rq group s rfl .rfl
  case calDone group corrections => exact execCalDone_evolves group corrections s rfl .rfl
  case apply rq group => exact execApply_evolves rq group s rfl .rfl
  case reload rq group => exact execReload_evolves rq group s rfl .rfl
  case hpdUnplug => exact execHpdUnplug_evolves s rfl .rfl
  case hpdIrq lockLost => exact execHpdIrq_evolves lockLost s rfl .rfl
  case linkTrainingDone => exact execLinkTrainingDone_evolves s rfl .rfl
  case ltTimeout => exact execLtTimeout_evolves s rfl .rfl
  case dispRetry => exact execDispRetry_evolves s rfl .rfl
  case latch => exact execLatch_evolves s rfl .rfl
  case vblank => exact execVblank_evolves s rfl .rfl
  case lineMatch => exact execLineMatch_evolves s rfl .rfl
  case frameDone readback => exact execFrameDone_evolves readback s rfl .rfl
  case underrun layers pixel => exact execUnderrun_evolves layers pixel s rfl .rfl
  case powerOnReset straps => exact execPowerOnReset_evolves straps s rfl .rfl
  case nreset widthNs => exact execNreset_evolves widthNs s rfl .rfl
  case bootStepDone r => exact execBootStepDone_evolves r s rfl .rfl
  case bootRetry slot0 slot1 => exact execBootRetry_evolves slot0 slot1 s rfl .rfl
  case resetRecordCopy => exact execResetRecordCopy_evolves s rfl .rfl
  case nvLogProgram => exact execNvLogProgram_evolves s rfl .rfl
  case nvmRead rq => exact execNvmRead_evolves rq s rfl .rfl
  case nvmProgram rq => exact execNvmProgram_evolves rq s rfl .rfl
  case nvmErase rq => exact execNvmErase_evolves rq s rfl .rfl
  case nvmDone r => exact execNvmDone_evolves r s rfl .rfl
  case barStoppingEnd bar => exact execBarStoppingEnd_evolves bar s rfl .rfl
  case blockLockGained lane => exact execBlockLockGained_evolves lane s rfl .rfl
  case bringUpResend lane => exact execBringUpResend_evolves lane s rfl .rfl
  case applyTReached lane => exact execApplyTReached_evolves lane s rfl .rfl
  case requestIssue sub => exact execRequestIssue_evolves sub s rfl .rfl
  case sharedStepPulse axis dir => exact execSharedStepPulse_evolves axis dir s rfl .rfl
  case dramScrub job plane x y => exact execDramScrub_evolves job plane x y s rfl .rfl
  case timeMessage m => exact execTimeMessage_evolves m s rfl .rfl
  case msixTableWrite index val => exact execMsixTableWrite_evolves index val s rfl .rfl
  case hpdPlug maxRate maxLanes => exact execHpdPlug_evolves maxRate maxLanes s rfl .rfl
  case nresetRelease straps => exact execNresetRelease_evolves straps s rfl .rfl
  case vddAonLoss => exact execVddAonLoss_evolves s rfl .rfl
  case dramSupplyLoss => exact execDramSupplyLoss_evolves s rfl .rfl
  case ethLinkChange port blockLock fecLock linkUp =>
    exact execEthLinkChange_evolves port blockLock fecLock linkUp s rfl .rfl
  case ptpSyncInterval => exact execPtpSyncInterval_evolves s rfl .rfl
  case ptpAnnounceInterval => exact execPtpAnnounceInterval_evolves s rfl .rfl
  case delayRequestInterval => exact execDelayRequestInterval_evolves s rfl .rfl
  case delayReq m => exact execDelayReq_evolves m s rfl .rfl
  case cameraPllStop => exact execCameraPllStop_evolves s rfl .rfl
  case calibrationBound at_ => exact execCalibrationBound_evolves at_ s rfl .rfl

theorem exec_evolves_of_next {c : Instr} {s t : State} (e : exec c s = .next t) : Evolves (maskOf (mayChange c)) s t := by
  have h := exec_evolves c s
  rwa [e] at h

/-- Of all commands only accesses to image memory can stop. -/
theorem exec_answers {c : Instr} (s : State) (hr : ∀ a k, c ≠ .dramRead a k) (hw : ∀ a k bs, c ≠ .dramWrite a k bs) :
    ∃ t, exec c s = .next t := by
  cases c with
  | dramRead a k => exact absurd rfl (hr a k)
  | dramWrite a k bs => exact absurd rfl (hw a k bs)
  | _ => exact ⟨_, rfl⟩

theorem mayChange_pending (c : Instr) : Part.pending ∉ mayChange c := by
  cases c <;> simp only [mayChange] <;> decide


/-! ### Every step -/

theorem step_of_empty {s : State} (h : s.pending = []) : step s = .next (tick s) := by simp [step, h]

theorem step_of_cons {s : State} {c : Instr} {r : List Instr} (h : s.pending = c :: r) :
    step s = exec c { s with pending := r } := by simp [step, h]

/-- A step is a change within the frame of a tick, or, with the front command taken from the queue, within that of the command. -/
theorem step_evolves {s t : State} (e : step s = .next t) :
    ∃ ps, Part.pending ∉ ps ∧ Evolves (maskOf ps) { s with pending := s.pending.tail } t := by
  cases hq : s.pending with
  | nil =>
    rw [step_of_empty hq] at e
    cases e
    refine ⟨[.counters, .clk], by decide, ?_⟩
    have here : { s with pending := [] } = s := by rw [← hq]
    rw [List.tail_nil, here]
    exact tick_evolves s rfl .rfl
  | cons c r =>
    rw [step_of_cons hq] at e
    exact ⟨mayChange c, mayChange_pending c, exec_evolves_of_next e⟩

/-! ### A tick of press time (R316) -/

/-- INCR is added to NS and FRAC; a full second is carried (R316). -/
theorem clk_ptTick {s : State} (hns : s.clk.ns < 10 ^ 9) (hincr : s.clk.incr < 2 ^ 40) (hfrac : s.clk.frac < 2 ^ 32) :
    ((ptTick s).clk.sec = s.clk.sec ∧
        (ptTick s).clk.ns * 2 ^ 32 + (ptTick s).clk.frac = s.clk.ns * 2 ^ 32 + s.clk.frac + s.clk.incr ∧
        (ptTick s).clk.ns < 10 ^ 9 ∨
      (ptTick s).clk.sec = (s.clk.sec + 1) % 2 ^ 48 ∧
        10 ^ 9 * 2 ^ 32 + (ptTick s).clk.ns * 2 ^ 32 + (ptTick s).clk.frac =
          s.clk.ns * 2 ^ 32 + s.clk.frac + s.clk.incr ∧
        (ptTick s).clk.ns < 10 ^ 9) ∧
      (ptTick s).clk.frac < 2 ^ 32 := by
  simp only [ptTick, setClk]
  split <;> dsimp only <;> omega

theorem clk_slotTick (before s : State) : (slotTick before s).clk = s.clk := by
  unfold slotTick
  split <;> simp

theorem tick_of_reachable {s : State} (h : unreachable s = false) : tick s = slotTick s (ptTick s) := by
  simp only [unreachable, Bool.or_eq_false_iff] at h
  obtain ⟨⟨⟨running, untripped⟩, not_deep⟩, awake⟩ := h
  simp [tick, running, untripped, not_deep, awake]

end Sys2Proof.Machine

namespace Sys2Proof.Proofs
open Sys2Proof Sys2Proof.Machine

/-- Settles O1: the queue's front is what `step` matches on. -/
theorem stepRunsFrontCommand : Obligations.StepRunsFrontCommand := fun _ _ _ => step_of_cons rfl

/-- Settles O2: the tick adds INCR to press time, and its frame names press time and the counters only. -/
theorem emptyQueueTicks : Obligations.EmptyQueueTicks := by
  intro s empty reachable hns hfrac hincr
  obtain ⟨time, frac⟩ := clk_ptTick hns hincr hfrac
  refine ⟨tick s, step_of_empty empty, ?_, ?_, (tick_evolves s rfl .rfl).onlyChanges_maskOf (ps := [.clk, .counters])⟩
  all_goals rw [tick_of_reachable reachable, clk_slotTick]
  · exact time
  · exact frac

/-- Settles O3: only accesses to image memory look at what is installed, and nothing else can stop a command. -/
theorem everyCommandAnswers : Obligations.EveryCommandAnswers := by
  refine ⟨fun c s => exec_answers s, fun a k s inside => ?_, fun a k bs s inside => ?_, fun a k bs s outside => ?_⟩
  · exact ⟨_, by simp [exec, execDramRead, inside]; rfl⟩
  · exact ⟨_, by simp [exec, execDramWrite, inside]; rfl⟩
  · simp [exec, execDramRead, execDramWrite, outside]

/-- Settles O4: the frame of the command's meaning, read as parts. -/
theorem commandFrames : Obligations.CommandFrames :=
  fun _ _ _ e => (exec_evolves_of_next e).onlyChanges_maskOf

/-- Settles O5: every frame keeps the canonical form, and so does every step. -/
theorem stepKeepsMemoryCanonical : Obligations.StepKeepsMemoryCanonical := by
  intro s t canonical e
  obtain ⟨ps, _, frame⟩ := step_evolves e
  exact frame.kept.1 canonical

/-- Settles O7: every frame keeps what was sent and the count of free values, and none but the step itself names the queue. -/
theorem stepHistory : Obligations.StepHistory := by
  intro s t e
  obtain ⟨ps, no_pending, frame⟩ := step_evolves e
  obtain ⟨_, sent, drawn⟩ := frame.kept
  exact ⟨sent, drawn, frame.onlyChanges_maskOf .pending no_pending⟩

/-- Settles O6: the defaults of the fields of the state. -/
theorem resetState : Obligations.ResetState := by
  refine ⟨rfl, rfl, rfl, rfl, rfl, rfl, rfl, rfl, rfl, rfl, fun a => rfl, fun a => rfl, fun p k => rfl⟩

end Sys2Proof.Proofs
end

section
/-! PROOFS. RegisterWrites (R5, R6, R25, R33, R34, R37, R42, R348, R422): the way of a register write through the checks, and what
it stores, forwards or holds. -/

namespace Sys2Proof.Machine
open Sys2Proof

variable {s : State} {rq : Requester} {a v : Nat}

/-! ### Events that turn a write away -/

/-- An event sets its bit and leaves every other word; what else it changes is its delivery. -/
theorem ev_turns_away (s : State) (p : Nat) {b : Nat} (hb : b < 32) :
    raised s (ev s p b) p b ∧ wordsKept [ra p 0x24] s (ev s p b) ∧ onlyChanges eventParts s (ev s p b) :=
  ⟨raised_ev s p hb, wordsKept_ev s p b, only_ev s p b⟩

/-! ### The pages without rules of their own -/

theorem plainPage_cases {p : Nat} (h : plainPage p = true) : p = 0x48 ∨ p = 0x69 ∨ p = 0x30 ∨ (0x50 ≤ p ∧ p < 0x68) := by
  simpa [plainPage, pgLine, pgDryp, pgFirn, or_assoc] using h

theorem pageInfo_plainPage {p : Nat} (h : plainPage p = true) : (pageInfo p).isNone = false := by
  rcases plainPage_cases h with rfl | rfl | rfl | ⟨lo, hi⟩
  · rfl
  · rfl
  · rfl
  · unfold pageInfo
    rw [if_neg (by omega), if_neg (by omega), if_pos (by omega), if_neg (by omega), if_neg (by omega)]
    split_ifs <;> first | rfl | omega

theorem blockWrite_plainPage {p : Nat} (h : plainPage p = true) (s : State) (rq : Requester) (o v : Nat) :
    blockWrite s rq p o v = plainWrite s (ra p o) v := by
  have hp := plainPage_cases h
  have other (q : Nat) (hq : q ≠ 0x48 ∧ q ≠ 0x69 ∧ q ≠ 0x30 ∧ ¬(0x50 ≤ q ∧ q < 0x68)) : p ≠ q := by omega
  unfold blockWrite
  iterate 3 rw [if_neg (other _ (by decide))]
  rw [if_neg (by omega), if_neg (other _ (by decide)), if_neg (other _ (by decide)), if_neg (by omega), if_neg (by omega),
    if_neg (other _ (by decide)), if_neg (by omega), if_neg (other _ (by decide)), if_neg (other _ (by decide)),
    if_neg (by omega), if_neg (other _ (by decide)), if_neg (by omega), if_neg (other _ (by decide)), if_neg (by omega)]
  iterate 3 rw [if_neg (other _ (by decide))]
  rw [if_neg (by omega), if_neg (other _ (by decide)), if_neg (fun rime => other _ (by decide) rime.1)]

/-- A write to a page without rules of its own is a plain write of its word; an undefined word takes nothing (R6). -/
theorem writeReg_plainPage (h : plainPage (a / 4096) = true) (aligned : a % 4 = 0) (lo : 0x40 ≤ a % 4096)
    (hi : a % 4096 < 0x800) : writeReg s rq a v = plainWrite s a v := by
  have hp := plainPage_cases h
  have word : ra (a / 4096) (a % 4096) = a := by rw [ra]; omega
  simp only [writeReg]
  rw [if_neg (by omega), if_neg (by omega), pageInfo_plainPage h, if_neg (by decide), if_neg (by omega), if_neg (by omega),
    blockWrite_plainPage h, word]
  split
  · next undefined => simp [plainWrite, gate, Option.isNone_iff_eq_none.1 undefined]
  · rfl

theorem plainWrite_of_admitted (h : admitted s a v) : plainWrite s a v = store s a v := by
  rw [plainWrite, show gate s a v = none from h]

theorem plainWrite_of_gate {t : State} (h : gate s a v = some t) : plainWrite s a v = t := by rw [plainWrite, h]

/-! ### The checks (R6, R33, R42) -/

theorem gate_of_undefined (h : regSpec a = none) : gate s a v = some s := by simp [gate, h]

theorem gate_of_clock_off {r : RegSpec} (h : regSpec a = some r) (off : pgClkOn s (a / 4096) = false) :
    gate s a v = some (ev s (headerOf (a / 4096)) 6) := by simp [gate, h, off]

theorem gate_of_locked {r : RegSpec} (h : regSpec a = some r) (on : pgClkOn s (a / 4096) = true) (shadow : r.sh = true)
    (locked : commitPending s (headerOf (a / 4096)) = true) : gate s a v = some (ev s (headerOf (a / 4096)) 4) := by
  simp [gate, h, on, shadow, locked, refuse]

/-! ### What a stored write leaves (R5, R37) -/

theorem writtenWord_lt (r : RegSpec) (old v : Nat) : writtenWord r old v < 2 ^ 32 := by
  refine Nat.and_lt_two_pow _ (Nat.xor_lt_two_pow (by decide) (Nat.and_lt_two_pow _ (by decide)))

theorem heldLow_lt (s : State) (a : Nat) : heldLow s a < 2 ^ 32 := (tget _ s.held a).isLt

theorem store_word {r : RegSpec} (h : regSpec a = some r) (half : r.half = 0) :
    store s a v = wr s a (writtenWord r (rd s a) v) := by simp [store, h, half]

theorem store_low {r : RegSpec} (h : regSpec a = some r) (half : r.half = 1) :
    store s a v = { s with held := tset s.held a (BitVec.ofNat 32 (v &&& r.rw)) } := by simp [store, h, half]

theorem store_high {r : RegSpec} (h : regSpec a = some r) (half : r.half = 2) :
    store s a v = { wr (wr s (a - 4) (heldLow s (a - 4))) a (writtenWord r (rd s a) v) with held := tdel s.held (a - 4) } := by
  simp [store, h, half]

theorem wordsKept_wr (s : State) (a v : Nat) : wordsKept [a] s (wr s a v) := by
  intro b hb
  rw [rd_wr, if_neg (by simpa using hb)]

theorem only_wr (s : State) (a v : Nat) : onlyChanges [.regs] s (wr s a v) :=
  (wr_evolves s a v (m := 1) rfl .rfl).only (by decide)

/-! ### The way to the register (R34, R348, R422) -/

theorem hostWrite_of_not_forwarded (h : rq ≠ .pcie ∨ s.pair.role = 0 ∨ isActive s = false) :
    hostWrite s rq a v = writeReg s rq a v := by
  rw [hostWrite, if_neg]
  rintro ⟨pcie, paired, active, _⟩
  rcases h with h | h | h
  · exact h pcie
  · exact paired h
  · simp [active] at h

theorem arriveWrite_unreachable (h : unreachable s = true) (rq : Requester) (a : Nat) (v : Word) (be : BitVec 4) :
    arriveWrite s rq a v be = s := by simp [arriveWrite, h]

/-- A whole word of any requester but a host that Doze or the ROM keeps away reaches the registers (R34, R422). -/
theorem arriveWrite_reaches (reach : unreachable s = false)
    (h : rq ≠ .pcie ∨ dozing s = false ∧ romOnly s (a / 4096) = false) (v : Word) :
    arriveWrite s rq a v 0xF#4 = hostWrite s rq a v.toNat := by
  rcases h with h | ⟨awake, ram⟩
  · simp [arriveWrite, reach, h]
  · simp [arriveWrite, reach, awake, ram]

theorem arriveWrite_plain {v : Word} (reach : unreachable s = false)
    (h : rq ≠ .pcie ∨ dozing s = false ∧ romOnly s (a / 4096) = false ∧ (s.pair.role = 0 ∨ isActive s = false))
    (plain : plainPage (a / 4096) = true) (aligned : a % 4 = 0) (lo : 0x40 ≤ a % 4096) (hi : a % 4096 < 0x800) :
    arriveWrite s rq a v 0xF#4 = plainWrite s a v.toNat := by
  rw [arriveWrite_reaches reach (h.imp_right fun h => ⟨h.1, h.2.1⟩), hostWrite_of_not_forwarded (h.imp_right fun h => h.2.2),
    writeReg_plainPage plain aligned lo hi]

/-! ### Inputs that the active takes (R348, R349) -/

@[simp] theorem pair_pairPut (s : State) (l type flags seq : Nat) (body : List Byte) :
    (pairPut s l type flags seq body).pair = s.pair := by simp [pairPut]

theorem pair_foldl_pairPut (ls : List Nat) (s : State) (type flags seq : Nat) (body : List Byte) :
    (ls.foldl (fun s l => pairPut s l type flags seq body) s).pair = s.pair :=
  foldl_keeps (·.pair) (fun s l => pair_pairPut s l type flags seq body) ls s

@[simp] theorem inputs_pairSendOn (s : State) (ls : List Nat) (type flags : Nat) (body : List Byte) :
    (pairSendOn s ls type flags body).pair.inputs = s.pair.inputs := by
  simp only [pairSendOn, pair_foldl_pairPut]

@[simp] theorem inputs_pairSendSeq (s : State) (type flags : Nat) (body : List Byte) :
    (pairSendSeq s type flags body).pair.inputs = s.pair.inputs :=
  foldl_keeps (·.pair.inputs) (fun s b => inputs_pairSendOn s _ type flags b) _ s

/-- The active holds a taken input as its own, after those before it. -/
theorem inputs_takeInput (s : State) (kind bar : Nat) (line : Option Nat) (payload : List Byte) :
    ∃ i, (takeInput s kind bar line payload).pair.inputs = s.pair.inputs ++ [i] ∧ i.kind = kind ∧ i.own = true ∧
      i.bar = bar ∧ i.payload = payload := by
  have same (body : List Byte) :
      (if partnered s then pairSendSeq (count s pgPair 3) 0x10 0 body else s).pair.inputs = s.pair.inputs := by
    split <;> simp
  simp only [takeInput, same]
  exact ⟨_, rfl, rfl, rfl, rfl, rfl⟩

theorem takeInput_frame (s : State) (kind bar : Nat) (line : Option Nat) (payload : List Byte) :
    Evolves 8421440 s (takeInput s kind bar line payload) := takeInput_evolves s kind bar line payload rfl .rfl

/-! ### The three rules -/

theorem exec_registerWrite (s : State) (rq : Requester) (a : Nat) (v : Word) (be : BitVec 4) :
    exec (.registerWrite rq a v be) s = .next (arriveWrite s rq a v be) := rfl

theorem exec_highWordWrite {r : RegSpec} (h : regSpec a = some r) (half : r.half = 2) (v : Word) :
    exec (.highWordWrite rq a v) s = .next (arriveWrite s rq a v 0xF#4) := by
  simp [exec, execHighWordWrite, isHighWord, h, half]

theorem registerWriteStoresRule : RegisterWriteStoresRule := by
  intro s rq a v r reach way spec plain aligned lo hi adm
  have stores : arriveWrite s rq a v 0xF#4 = store s a v.toNat := by
    rw [arriveWrite_plain reach way plain aligned lo hi, plainWrite_of_admitted adm]
  refine ⟨fun half => ?_, fun half => ?_, fun half h4 => ?_⟩
  · refine ⟨_, by rw [exec_registerWrite, stores, store_word spec half], ?_, wordsKept_wr _ _ _, only_wr _ _ _⟩
    rw [rd_wr_same, Nat.mod_eq_of_lt (writtenWord_lt ..)]
  · have frame : Evolves 4 s (store s a v.toNat) := by rw [store_low spec half]; exact .upd_4 rfl .rfl
    refine ⟨_, by rw [exec_registerWrite, stores], ?_, fun b _ => frame.rd_eq rfl b, frame.only (by decide)⟩
    rw [store_low spec half, heldLow, tget_tset_same, BitVec.toNat_ofNat]
    exact Nat.mod_eq_of_lt (Nat.lt_of_le_of_lt Nat.and_le_left v.isLt)
  · refine ⟨_, by rw [exec_highWordWrite spec half, stores], ?_, ?_, ?_, (store_frame ..).only (by decide)⟩
    · rw [store_high spec half]
      refine (rd_wr ..).trans ?_
      rw [if_neg (by omega), rd_wr_same, Nat.mod_eq_of_lt (heldLow_lt ..)]
    · rw [store_high spec half]
      exact (rd_wr_same ..).trans (Nat.mod_eq_of_lt (writtenWord_lt ..))
    · intro b hb
      simp only [List.mem_cons, List.not_mem_nil, or_false, not_or] at hb
      exact rd_store_other s _ hb.2 hb.1

theorem registerWriteForwardedRule : RegisterWriteForwardedRule := by
  intro s a v reach awake ram paired active fwd
  obtain ⟨i, inputs, kind, own, _, payload⟩ :=
    inputs_takeInput s 1 (if a < 0x400000 then pageBar s (a / 4096) else refBar s) none (writePayload a v.toNat)
  have frame := takeInput_frame s 1 (if a < 0x400000 then pageBar s (a / 4096) else refBar s) none (writePayload a v.toNat)
  refine ⟨_, ?_, ⟨i, inputs, kind, own, payload⟩, frame.same .regs rfl, frame.only (by decide)⟩
  rw [exec_registerWrite, arriveWrite_reaches reach (.inr ⟨awake, ram⟩), hostWrite, if_pos ⟨rfl, paired, active, fwd⟩]

theorem registerWriteRefusedRule : RegisterWriteRefusedRule := by
  intro s rq a v reach
  refine ⟨fun other plain aligned lo hi => ⟨fun undefined => ?_, fun r spec => ⟨fun off => ?_, fun on shadow locked => ?_⟩⟩,
    fun be part ram => ?_, fun doze unclocked ram => ?_, fun u dead => ?_⟩
  · rw [exec_registerWrite, arriveWrite_plain reach (.inl other) plain aligned lo hi,
      plainWrite_of_gate (gate_of_undefined undefined)]
  · refine ⟨_, ?_, ev_turns_away s _ (by decide)⟩
    rw [exec_registerWrite, arriveWrite_plain reach (.inl other) plain aligned lo hi,
      plainWrite_of_gate (gate_of_clock_off spec off)]
  · refine ⟨_, ?_, ev_turns_away s _ (by decide)⟩
    rw [exec_registerWrite, arriveWrite_plain reach (.inl other) plain aligned lo hi,
      plainWrite_of_gate (gate_of_locked spec on shadow locked)]
  · exact ⟨_, by simp [exec_registerWrite, arriveWrite, reach, ram, part], ev_turns_away s pgSys (by decide)⟩
  · refine ⟨{ s with host := { s.host with heldWrites := s.host.heldWrites ++ [(a, v, 0xF#4)] } },
      by simp [exec_registerWrite, arriveWrite, reach, ram, doze, unclocked], rfl, rfl, ?_⟩
    exact Evolves.only (m := 4096) (.upd_4096 rfl .rfl) (by decide)
  · rw [exec_registerWrite, arriveWrite_unreachable dead]

/-! ### Reads of counters (R26, R36) -/

theorem counterRead_low {p k : Nat} {rime : Bool} (page : (pageInfo p).isSome = true) (on : pgClkOn s p = true) :
    counterRead s rq p k rime false =
      (counterOf s p k rime % 2 ^ 32, setLatch s rq (counterOf s p k rime / 2 ^ 32)) := by
  simp [counterRead, on, Option.isNone_eq_false_iff.2 page]

theorem counterRead_high {p k : Nat} {rime : Bool} (page : (pageInfo p).isSome = true) (on : pgClkOn s p = true) :
    counterRead s rq p k rime true = (latchOf s rq, s) := by
  simp [counterRead, on, Option.isNone_eq_false_iff.2 page]

theorem exec_counterLowRead {p k : Nat} {rime : Bool} (hp : p < 256) (hk : k < 128) (page : (pageInfo p).isSome = true)
    (on : pgClkOn s p = true) :
    exec (.counterLowRead rq p k rime) s = .next (answerRead (setLatch s rq (counterOf s p k rime / 2 ^ 32)) (rqKey rq)
      (counterOf s p k rime % 2 ^ 32)) := by
  simp only [exec, execCounterLowRead, Nat.mod_eq_of_lt hp, Nat.mod_eq_of_lt hk, counterRead_low page on]

theorem exec_counterHighRead {p k : Nat} {rime : Bool} (hp : p < 256) (hk : k < 128) (page : (pageInfo p).isSome = true)
    (on : pgClkOn s p = true) :
    exec (.counterHighRead rq p k rime) s = .next (answerRead s (rqKey rq) (latchOf s rq)) := by
  simp only [exec, execCounterHighRead, Nat.mod_eq_of_lt hp, Nat.mod_eq_of_lt hk, counterRead_high page on]

/-- The word that a requester has read last is the one that the read answered. -/
theorem lastRead_answerRead (s : State) (k v : Nat) :
    tget (fun _ => 0#32) (answerRead s k v).lastRead k = BitVec.ofNat 32 v := by
  rw [answerRead, tget_tset_same]

theorem latchOf_setLatch (s : State) (rq o : Requester) (v : Nat) :
    latchOf (setLatch s rq v) o = if rqKey o = rqKey rq then v % 2 ^ 32 else latchOf s o := by
  simp [latchOf, setLatch, tget_tset]

theorem counterReadPairRule : CounterReadPairRule := by
  intro s rq p k rime hp hk page on
  refine ⟨⟨_, exec_counterLowRead hp hk page on, ?_, ?_, fun o other => ?_, ?_⟩, ⟨_, exec_counterHighRead hp hk page on, ?_, ?_⟩⟩
  · rw [lastRead_answerRead]
    exact BitVec.eq_of_toNat_eq (by simp)
  · exact (latchOf_setLatch ..).trans (if_pos rfl)
  · exact (latchOf_setLatch ..).trans (if_neg other)
  · exact (answerRead_evolves _ _ _ (m := 40) rfl (setLatch_evolves _ _ _ rfl .rfl)).only (by decide)
  · rw [lastRead_answerRead]
  · exact (answerRead_evolves _ _ _ (m := 32) rfl .rfl).only (by decide)

theorem counterReadsAreConsistentRule : CounterReadsAreConsistentRule := by
  intro s t u w rq p k rime hp hk page on on' bound low latches high
  rw [exec_counterLowRead hp hk page on] at low
  rw [exec_counterHighRead hp hk page on'] at high
  cases low
  cases high
  have latch : latchOf u rq = counterOf s p k rime / 2 ^ 32 := by
    rw [latchOf, latches]
    refine (latchOf_setLatch s rq rq _).trans ?_
    rw [if_pos rfl, Nat.mod_eq_of_lt (by omega)]
  rw [lastRead_answerRead, lastRead_answerRead, latch, BitVec.toNat_ofNat, BitVec.toNat_ofNat]
  omega

end Sys2Proof.Machine

namespace Sys2Proof.Proofs
open Sys2Proof Sys2Proof.Machine

/-- Settles O8: a write that reaches the registers is stored or turned away by the checks, one of an active unit's host becomes an
input, and none passes where the unit does not work. -/
theorem registerWrites : Obligations.RegisterWrites :=
  ⟨registerWriteStoresRule, registerWriteForwardedRule, registerWriteRefusedRule⟩

/-- Settles O9: the low read latches the high half for its requester only, and the high read answers from that latch. -/
theorem counterReads : Obligations.CounterReads := ⟨counterReadPairRule, counterReadsAreConsistentRule⟩

end Sys2Proof.Proofs
end

section
/-! PROOFS. Commits (R40 to R43): what an ARM leaves in PG_COMMIT and its kept line, and what applying the commit of one page
does when its check passes and when it fails. -/

namespace Sys2Proof.Machine
open Sys2Proof

variable {s t : State} {p : Nat}

/-! ### Words that hold bits of their own -/

theorem rdb_wr_same (s : State) (a v : Nat) {i : Nat} (hi : i < 32) : rdb (wr s a v) a i = bitOf v i := by
  rw [rdb, bitOf, testBit_rd_wr, decide_eq_true hi, Bool.true_and, bitOf]

theorem rdb_wr_other (s : State) {a b : Nat} (v i : Nat) (h : b ≠ a) : rdb (wr s a v) b i = rdb s b i := by
  rw [rdb, rd_wr, if_neg h, rdb]

/-- Storing one bit of a word stores that bit and leaves the others. -/
theorem rdb_wrf_bit (s : State) (a v : Nat) {i j : Nat} (hi : i < 32) (hj : j < 32) :
    rdb (wrf s a i i v) a j = if j = i then decide (v % 2 = 1) else rdb s a j := by
  split
  · next same => rw [same, rdb_wrf_same s a i v hi]
  · next other =>
    rw [rdb_eq_rdf, rdb_eq_rdf, rdf_wrf_beside s a v (Nat.le_refl i) hj (by omega)]

theorem wordsKept.trans {as : List Nat} {s t u : State} (h : wordsKept as s t) (g : wordsKept as t u) : wordsKept as s u :=
  fun a ha => (g a ha).trans (h a ha)

theorem wordsKept.mono {as bs : List Nat} {s t : State} (h : wordsKept as s t) (sub : ∀ a ∈ as, a ∈ bs) : wordsKept bs s t :=
  fun a ha => h a (fun m => ha (sub a m))

theorem wordsKept_of_regs {s t : State} (h : t.regs = s.regs) (as : List Nat) : wordsKept as s t :=
  fun a _ => by rw [rd, h, rd]

theorem wordsKept_wrf (s : State) (a hi lo v : Nat) : wordsKept [a] s (wrf s a hi lo v) := wordsKept_wr s a _

theorem isHeader_lt (h : isHeader p = true) : p < 256 := by
  by_contra hp
  have none : pageInfo p = none := by
    unfold pageInfo
    iterate 4 rw [if_neg (by omega)]
    repeat rw [if_neg (by omega)]
  simp [isHeader, none] at h

@[simp] theorem ra_inj (p a b : Nat) : ra p a = ra p b ↔ a = b := by simp only [ra]; omega

/-! ### Arming (R40 to R42) -/

/-- An ARM with neither LATE nor CANCEL on a page but DISP arms the commit, and stores AT_LINE. -/
theorem exec_commitArm_arms {rq : Requester} {v : Word} (hp : isHeader p = true) (disp : p ≠ pgDisp)
    (arm : v.getLsbD 0 = true) (late : v.getLsbD 3 = false) (cancel : v.getLsbD 4 = false) :
    exec (.commitArm rq p v) s = .next (wrf (if v.getLsbD 1 then armAt s p (rd s (ra p 0x1C)) else armNow s p)
      (ra p 0x18) 1 1 (b2n (v.getLsbD 1))) := by
  simp only [exec, execCommitArm, hp, arm, late, cancel, commitArm, disp, Bool.true_eq_false, Bool.false_eq_true, if_true, if_false]

theorem armNow_of_pending (h : commitPending s p = true) : armNow s p = s := by simp [armNow, h]

theorem armAt_of_pending (h : commitPending s p = true) (line : Nat) : armAt s p line = s := by simp [armAt, h]

theorem armNow_of_idle (h : commitPending s p = false) :
    armNow s p = setCm (wr s (ra p 0x18) (rd s (ra p 0x18) &&& 8 ||| 5)) (ra p 0x18) 0 := by simp [armNow, h]

/-- The state of an ARM at a line: PENDING and AT_LINE are set, and both the line and AT_LINE are kept. -/
def armedAt (s : State) (p line : Nat) : State :=
  setCm (setCm (wr (wr s (ra p 0x1C) (line % 2 ^ 32)) (ra p 0x18) (rd s (ra p 0x18) &&& 8 ||| 7))
    (ra p 0x1C) (line % 2 ^ 32)) (ra p 0x18) 2

theorem printing_armedAt (line b : Nat) :
    printing (armedAt s p line) b = printing s b ∧ pageBar (armedAt s p line) p = pageBar s p := by
  have other : ra pgSys 0x48 ≠ ra p 0x1C ∧ ra pgSys 0x48 ≠ ra p 0x18 := by simp only [ra, pgSys]; omega
  have word : rd (armedAt s p line) (ra pgSys 0x48) = rd s (ra pgSys 0x48) := by
    simp [armedAt, rd_wr, other]
  exact ⟨by simp [printing, armedAt], by simp only [pageBar, refBar, rdf, word]⟩

/-- Before the bar prints no line has passed. -/
theorem armAt_of_idle (h : commitPending s p = false) (rests : printing s (pageBar s p) = false) (line : Nat) :
    armAt s p line = armedAt s p line := by
  obtain ⟨same, bar⟩ := printing_armedAt (s := s) line (pageBar s p)
  have runs : armAt s p line = if printing (armedAt s p line) (pageBar (armedAt s p line) p) &&
      decide (2 ^ 31 ≤ commitDist (armedAt s p line) p) then refuseLate (armedAt s p line) p else armedAt s p line := by
    rw [armAt, if_neg (by simp [h])]
    rfl
  rw [runs, bar, same, rests, Bool.false_and, if_neg (by decide)]

theorem commitArmRule : CommitArmRule := by
  intro s rq p v header disp arm late cancel
  have runs := exec_commitArm_arms (s := s) (rq := rq) header disp arm late cancel
  have pending (u : State) (x : Nat) : commitPending (wrf u (ra p 0x18) 1 1 x) p = commitPending u p := by
    rw [commitPending, rdb_wrf_bit _ _ _ (by decide) (by decide), if_neg (by decide), commitPending]
  have kept (u : State) (x : Nat) : wordsKept [ra p 0x18] u (wrf u (ra p 0x18) 1 1 x) := wordsKept_wrf u _ 1 1 x
  have armed (u : State) (line : Nat) : commitPending (armedAt u p line) p = true :=
    (rdb_wr_same _ _ _ (by decide)).trans (by rw [bitOf, Nat.testBit_or, show Nat.testBit 7 2 = true from rfl, Bool.or_true])
  refine ⟨fun idle now => ?_, fun idle atLine rests => ?_, fun waits => ?_⟩
  · rw [now, if_neg (by decide), armNow_of_idle idle] at runs
    refine ⟨_, runs, ?_, ?_, ?_, ?_, fun a ha => ?_, ?_⟩
    · rw [pending]
      exact (rdb_wr_same _ _ _ (by decide)).trans
        (by rw [bitOf, Nat.testBit_or, show Nat.testBit 5 2 = true from rfl, Bool.or_true])
    · simp [commitAtLine, cmb, cm_setCm, bitOf]
    · rw [rdb_wrf_same _ _ _ _ (by decide)]
      rfl
    · exact (wordsKept_wr s _ _).trans (kept _ _)
    · simp [cm_setCm, ha]
    · exact (wrf_evolves _ _ _ _ _ (m := 3) rfl (setCm_evolves _ _ _ rfl (wr_evolves _ _ _ rfl .rfl))).only (by decide)
  · rw [atLine, if_pos rfl, armAt_of_idle idle rests] at runs
    refine ⟨_, runs, ?_, ?_, ?_, ?_, fun a h18 h1C => ?_, ?_⟩
    · rw [pending]
      exact armed s _
    · rw [commitAtLine, pending, show commitPending (armedAt s p _) p = true from armed s _]
      simp [armedAt, cmb, cm_setCm, bitOf, show Nat.testBit 2 1 = true from rfl]
    · simpa [armedAt, commitLine, cm_setCm] using rd_lt s _
    · refine .trans (fun a ha => ?_) (kept _ _)
      have other : a ≠ ra p 0x18 := by simpa using ha
      simp only [armedAt, setCm_fields, rd_wr, if_neg other]
      split
      · next same => simpa [same] using rd_lt s _
      · rfl
    · simp [armedAt, cm_setCm, h18, h1C]
    · exact (wrf_evolves _ _ _ _ _ (m := 3) rfl (setCm_evolves _ _ _ rfl (setCm_evolves _ _ _ rfl
        (wr_evolves _ _ _ rfl (wr_evolves _ _ _ rfl .rfl))))).only (by decide)
  · have same : (if v.getLsbD 1 then armAt s p (rd s (ra p 0x1C)) else armNow s p) = s := by
      rw [armAt_of_pending waits, armNow_of_pending waits, ite_self]
    rw [same] at runs
    refine ⟨_, runs, ?_, ?_, ?_, kept _ _, ?_⟩
    · rw [pending, waits]
    · rw [commitAtLine, pending]
      simp [commitAtLine, cmb]
    · simp [commitLine]
    · exact (wrf_evolves _ _ _ _ _ (m := 1) rfl .rfl).only (by decide)

/-! ### Applying (R43) -/

theorem pageBar_lt (s : State) (p : Nat) : pageBar s p < 8 := by
  have ref : refBar s < 8 := Nat.mod_lt _ (by decide)
  unfold pageBar
  split_ifs <;> omega

theorem copy_words (l : List Nat) (s : State) :
    (l.foldl (fun s a => setCm s a (rd s a)) s).regs = s.regs ∧
      ∀ a, cm (l.foldl (fun s a => setCm s a (rd s a)) s) a = if a ∈ l then rd s a else cm s a := by
  induction l generalizing s with
  | nil => simp
  | cons x l ih =>
    obtain ⟨regs, words⟩ := ih (setCm s x (rd s x))
    refine ⟨by simpa using regs, fun a => ?_⟩
    rw [List.foldl_cons, words, cm_setCm, Nat.mod_eq_of_lt (rd_lt s x)]
    by_cases here : a = x
    · simp [here]
    · simp [here]

/-- The shadows of the block are committed, and only they (R43). -/
theorem cm_copyShadows (s : State) (h a : Nat) : cm (copyShadows s h) a = if a ∈ blockShadows h then rd s a else cm s a :=
  (copy_words _ s).2 a

theorem regs_copyShadows (s : State) (h : Nat) : (copyShadows s h).regs = s.regs := (copy_words _ s).1

theorem raised.rdb {s t : State} {page bit : Nat} (h : raised s t page bit) : rdb t (ra page 0x24) bit = true := by
  rw [Machine.rdb, bitOf, show rd t (ra page 0x24) = evPend t page from Eq.refl _, h, Nat.testBit_or, Nat.testBit_two_pow_self,
    Bool.or_true]

/-- The end of a commit of page p with event b: PENDING and ARM clear, the event is set, no committed word changes. -/
theorem commit_ends (s : State) (p : Nat) {b : Nat} (hb : b < 32) :
    let t := ev (wr s (ra p 0x18) (rd s (ra p 0x18) &&& 0xA)) p b
    commitPending t p = false ∧ rdb t (ra p 0x24) b = true ∧ wordsKept [ra p 0x18, ra p 0x24] s t ∧
      t.committed = s.committed := by
  refine ⟨?_, (raised_ev _ _ hb).rdb, fun a ha => ?_, by simp⟩
  · rw [commitPending, rdb, rd_ev, if_neg (by simp), ← rdb, rdb_wr_same _ _ _ (by decide), bitOf, Nat.testBit_and,
      show Nat.testBit 0xA 2 = false from rfl, Bool.and_false]
  · simp only [List.mem_cons, List.not_mem_nil, or_false, not_or] at ha
    rw [rd_ev, if_neg ha.2, rd_wr, if_neg ha.1]

/-- What the commit of a page that is committed alone brings with it: the status of DRYP, or SLOW_REQ. -/
theorem committed_alone (u : State) {p b : Nat} (hb : b < 8) (alone : p < 0x50 ∨ 0x60 ≤ p) (n : Nat) :
    wordsKept [ra pgDryp 0x54] u (committed u p b n) ∧ (committed u p b n).committed = u.committed := by
  unfold committed
  rw [if_neg (by simp only [pgBar]; omega)]
  split_ifs
  · exact ⟨wordsKept_wr _ _ _, by simp⟩
  · have frame : Evolves 8396864 u (slowSync u) := slowSync_evolves u rfl .rfl
    exact ⟨wordsKept_of_regs (frame.same .regs rfl) _, frame.same .committed rfl⟩
  · exact ⟨fun _ _ => rfl, rfl⟩

theorem commitGroup_alone (h : commitAtLine s p = false) : commitGroup s p = [p] := by simp [commitGroup, h]

theorem applyGroup_passes (h : pageCheck s (copyShadows s p) p = 0) : applyGroup s [p] = applyPage s p := by
  simp [applyGroup, h, refusedClosure]

theorem applyGroup_fails (h : pageCheck s (copyShadows s p) p ≠ 0) :
    applyGroup s [p] = refusePage s (p, pageCheck s (copyShadows s p) p) := by
  simp [applyGroup, h, refusedClosure]

theorem exec_commitApply_alone (header : isHeader p = true) (disp : p ≠ pgDisp) (waits : commitPending s p = true)
    (now : commitAtLine s p = false) : exec (.commitApply p) s = .next (applyGroup s [p]) := by
  simp [exec, execCommitApply, header, disp, waits, commitDue, now, commitGroup_alone now]

theorem applyPage_alone (s : State) (alone : p < 0x50 ∨ 0x60 ≤ p) :
    (∀ a, cm (applyPage s p) a = if a ∈ blockShadows p then rd s a else cm s a) ∧
      commitPending (applyPage s p) p = false ∧ rdb (applyPage s p) (ra p 0x24) 0 = true ∧
      wordsKept [ra p 0x18, ra p 0x24, ra pgDryp 0x54] s (applyPage s p) := by
  have past : Evolves 1024 s (keepPast s p) := keepPast_evolves s p rfl .rfl
  let u := copyShadows (keepPast s p) p
  obtain ⟨idle, event, words, cms⟩ := commit_ends u p (b := 0) (by decide)
  obtain ⟨last, kept⟩ := committed_alone (commitDone u p) (pageBar_lt s p) alone (commitFrom s p % (2 ^ 48 : Nat)).toNat
  have header (o : Nat) (ho : o = 0x18 ∨ o = 0x24) : rd (applyPage s p) (ra p o) = rd (commitDone u p) (ra p o) :=
    last _ (by simp [ra, pgDryp]; omega)
  refine ⟨fun a => ?_, ?_, ?_, ?_⟩
  · have same : cm (applyPage s p) a = cm u a := by
      rw [cm, show (applyPage s p).committed = u.committed from kept.trans cms, cm]
    rw [same, cm_copyShadows, past.rd_eq rfl, cm, cm, show (keepPast s p).committed = s.committed from past.same .committed rfl]
  · rw [commitPending, rdb, header _ (.inl rfl)]
    exact idle
  · rw [rdb, header _ (.inr rfl)]
    exact event
  · have start : wordsKept [] s u := wordsKept_of_regs ((regs_copyShadows _ _).trans (past.same .regs rfl)) _
    exact ((start.mono (by simp)).trans (words.mono (by simp))).trans (last.mono (by simp))

theorem refusePage_reports {r : Nat} (hr : r ≠ 0) :
    (refusePage s (p, r)).committed = s.committed ∧ commitPending (refusePage s (p, r)) p = false ∧
      rdb (refusePage s (p, r)) (ra p 0x24) 2 = true ∧
      (∀ a, checkErrOf p = some a → a ≠ ra p 0x18 → a ≠ ra p 0x24 → rd (refusePage s (p, r)) a = r % 2 ^ 32) ∧
      (∀ a, a ≠ ra p 0x18 → a ≠ ra p 0x24 → checkErrOf p ≠ some a → rd (refusePage s (p, r)) a = rd s a) := by
  cases err : checkErrOf p with
  | none =>
    obtain ⟨idle, event, words, cms⟩ := commit_ends s p (b := 2) (by decide)
    have runs : refusePage s (p, r) = forgetLoop (commitRefused s p) p := by simp [refusePage, err]
    rw [runs]
    exact ⟨cms, idle, event, by simp, fun a h18 h24 _ => words a (by simp [h18, h24])⟩
  | some e =>
    obtain ⟨idle, event, words, cms⟩ := commit_ends (wr s e r) p (b := 2) (by decide)
    have runs : refusePage s (p, r) = forgetLoop (commitRefused (wr s e r) p) p := by simp [refusePage, err, hr]
    rw [runs]
    refine ⟨cms, idle, event, fun a ha h18 h24 => ?_, fun a h18 h24 other => ?_⟩
    · cases ha
      exact (words _ (by simp [h18, h24])).trans (rd_wr_same _ _ _)
    · refine (words _ (by simp [h18, h24])).trans ?_
      rw [rd_wr, if_neg (fun same => other (by rw [same]))]

/-- The reason of a refusal has a register of its own, beside PG_COMMIT and EV_PEND. -/
theorem checkErrOf_beside {a : Nat} (h : checkErrOf p = some a) : a ≠ ra p 0x18 ∧ a ≠ ra p 0x24 := by
  unfold checkErrOf at h
  split_ifs at h <;> cases h <;> simp

theorem commitApplyRule : CommitApplyRule := by
  intro s p header disp alone waits now
  have runs := exec_commitApply_alone header disp waits now
  refine ⟨fun passes => ?_, fun fails => ?_⟩
  · rw [applyGroup_passes passes] at runs
    obtain ⟨cms, idle, event, words⟩ := applyPage_alone s alone
    exact ⟨_, runs, fun a ha => by rw [cms, if_pos ha], fun a ha => by rw [cms, if_neg ha], idle, event, words⟩
  · rw [applyGroup_fails fails] at runs
    obtain ⟨cms, idle, event, reason, words⟩ := refusePage_reports (s := s) (p := p) fails
    exact ⟨_, runs, cms, idle, event,
      fun a ha => reason a ha (checkErrOf_beside ha).1 (checkErrOf_beside ha).2, words⟩

end Sys2Proof.Machine

namespace Sys2Proof.Proofs
open Sys2Proof Sys2Proof.Machine

/-- Settles O11: an ARM sets PENDING and keeps its line; a commit that passes its check copies the shadows, one that fails
reports its reason, and either ends with PENDING clear. -/
theorem commits : Obligations.Commits := ⟨commitArmRule, commitApplyRule⟩

end Sys2Proof.Proofs
end

section
/-! PROOFS. Fault records below class D (R481 to R486): they end no role and stop no bar, so that of the unit only the logs, the
counters, EV_PEND with its delivery and an armed snapshot change. -/

namespace Sys2Proof.Machine
open Sys2Proof

/-- Only class D stops the unit (R481). -/
theorem faultAt_below_D (s : State) (code page bar : Nat) {cls : Nat} (h : cls ≠ 3) (d : List Nat) (w : Option (Nat × Int)) :
    Evolves 11669569 s (faultAt s code cls page bar d w) := by
  unfold faultAt
  rw [if_neg h]
  have logged (r : FaultRecord) : Evolves 11669569 s (nvEnter (ramEnter s r) r) :=
    nvEnter_evolves _ _ rfl (ramEnter_evolves _ _ rfl .rfl)
  have events (u : State) (e : Evolves 11669569 s u) (b : Nat) : Evolves 11669569 s (ev (ev (count u pgSys cls) pgSys b) page 3) :=
    ev_evolves _ _ _ rfl (ev_evolves _ _ _ rfl (count_evolves _ _ _ rfl e))
  exact .ite (fun _ => armSnapshot_evolves _ _ rfl (events _ (logged _) _)) (fun _ => events _ (logged _) _)

theorem fault_below_D (s : State) (code page bar : Nat) {cls : Nat} (h : cls ≠ 3) (d : List Nat) :
    Evolves 11669569 s (fault s code cls page bar d) := faultAt_below_D s code page bar h d none

@[simp] theorem fault_fields (s : State) (code page bar : Nat) {cls : Nat} (h : cls ≠ 3) (d : List Nat) :
    (fault s code cls page bar d).committed = s.committed ∧ (fault s code cls page bar d).held = s.held ∧
      (fault s code cls page bar d).clk = s.clk ∧ (fault s code cls page bar d).chans = s.chans ∧
      (fault s code cls page bar d).print = s.print ∧ (fault s code cls page bar d).dram = s.dram ∧
      (fault s code cls page bar d).links = s.links ∧ (fault s code cls page bar d).cams = s.cams ∧
      (fault s code cls page bar d).pair = s.pair ∧ (fault s code cls page bar d).motion = s.motion ∧
      (fault s code cls page bar d).power = s.power ∧ (fault s code cls page bar d).disp = s.disp ∧
      (fault s code cls page bar d).freeCount = s.freeCount ∧ (fault s code cls page bar d).pending = s.pending := by
  have e := fault_below_D s code page bar h d
  exact ⟨e.same .committed rfl, e.same .held rfl, e.same .clk rfl, e.same .chans rfl, e.same .print rfl, e.same .dram rfl,
    e.same .links rfl, e.same .cams rfl, e.same .pair rfl, e.same .motion rfl, e.same .power rfl, e.same .disp rfl,
    e.same .freeCount rfl, e.same .pending rfl⟩

/-- A record below class D sets event bits of SYS and of its page, and changes no other word. -/
theorem rd_fault (s : State) (code page bar : Nat) {cls a : Nat} (h : cls ≠ 3) (d : List Nat) (sys : a ≠ ra pgSys 0x24)
    (own : a ≠ ra page 0x24) : rd (fault s code cls page bar d) a = rd s a := by
  have armed (u : State) (c : Prop) [Decidable c] : rd (if c then armSnapshot u 2 else u) a = rd u a := by
    split <;> rfl
  have entered (r : FaultRecord) : rd (nvEnter (ramEnter s r) r) a = rd s a :=
    (nvEnter_evolves _ _ (m := 1048640) rfl (ramEnter_evolves s r rfl .rfl)).rd_eq rfl a
  simp only [fault, faultAt, if_neg h, armed]
  rw [rd_ev, if_neg own, rd_ev, if_neg sys]
  simp only [count_fields]
  exact entered _

theorem wordsKept_fault (s : State) (code page bar : Nat) {cls : Nat} (h : cls ≠ 3) (d : List Nat) :
    wordsKept [ra pgSys 0x24, ra page 0x24] s (fault s code cls page bar d) := by
  intro a ha
  simp only [List.mem_cons, List.not_mem_nil, or_false, not_or] at ha
  exact rd_fault s code page bar h d ha.1 ha.2

/-- A record is that of the state before, when what comes between leaves the log. -/
theorem recorded_of_keepsLog {s u t : State} {code cls : Nat} (h : keepsLog s u) (g : recorded u t code cls) :
    recorded s t code cls := by
  obtain ⟨seq, r, last, hc, hl, hs⟩ := g
  exact ⟨by rw [seq, h.1], r, last, hc, hl, hs.trans h.1⟩

end Sys2Proof.Machine
end

section
/-! PROOFS. TableWrites (R46 to R48, R194, R238, R313): nozzle entries at once or staged, the count of missing nozzles, band trims
and screen words. -/

namespace Sys2Proof.Machine
open Sys2Proof

variable {s : State} {b c v : Nat}

/-! ### Entries of a table that a test selects -/

theorem filter_tdel {α : Type} {f : Nat × α → Bool} {k : Nat} (h : ∀ w, f (k, w) = false) (t : Tab α) :
    (tdel t k).filter f = t.filter f := by
  induction t with
  | nil => rfl
  | cons x t ih =>
    obtain ⟨j, w⟩ := x
    by_cases hj : j = k
    · subst hj; simp [tdel, ih, h]
    · simp [tdel, hj, List.filter_cons, ih]

theorem filter_tins {α : Type} {f : Nat × α → Bool} {k : Nat} {w : α} (h : f (k, w) = false) (t : Tab α) :
    (tins t k w).filter f = t.filter f := by
  induction t with
  | nil => simp [tins, h]
  | cons x t ih =>
    obtain ⟨j, w'⟩ := x
    unfold tins
    split
    · simp [List.filter_cons, h]
    · simp [List.filter_cons, ih]

/-- Setting a key that a test does not select leaves what the test selects. -/
theorem filter_tsetD {α : Type} [DecidableEq α] {f : Nat × α → Bool} {k : Nat} (h : ∀ w, f (k, w) = false) (d : Nat → α)
    (t : Tab α) (w : α) : (tsetD d t k w).filter f = t.filter f := by
  unfold tsetD tset
  split
  · exact filter_tdel h t
  · rw [filter_tins (h w), filter_tdel h]

/-! ### The count of missing nozzles (R314) -/

/-- The stored words of the table windows. -/
def tableWords (s : State) : List (Nat × Word) := s.regs.filter (fun e => decide (0x400000 ≤ e.1))

theorem tableWords_wr {a : Nat} (h : a < 0x400000) (s : State) (v : Nat) : tableWords (wr s a v) = tableWords s :=
  filter_tsetD (by simpa using h) _ _ _

theorem tableWords_ev (s : State) {p : Nat} (hp : p < 256) (b : Nat) : tableWords (ev s p b) = tableWords s := by
  rw [tableWords, ev, evBits, notify_regs]
  exact tableWords_wr (by simp only [ra]; omega) s _

theorem tableWords_eq {t : State} (h : t.regs = s.regs) : tableWords t = tableWords s := by rw [tableWords, h, tableWords]

theorem tableWords_fault (s : State) (code bar : Nat) {page cls : Nat} (hp : page < 256) (h : cls ≠ 3) (d : List Nat) :
    tableWords (fault s code cls page bar d) = tableWords s := by
  have armed (u : State) (c : Prop) [Decidable c] : tableWords (if c then armSnapshot u 2 else u) = tableWords u := by
    split <;> rfl
  have entered (r : FaultRecord) : tableWords (nvEnter (ramEnter s r) r) = tableWords s :=
    tableWords_eq ((nvEnter_evolves _ _ (m := 1048640) rfl (ramEnter_evolves s r rfl .rfl)).same .regs rfl)
  simp only [fault, faultAt, if_neg h, armed]
  rw [tableWords_ev _ hp, tableWords_ev _ (by decide), ← entered (faultRecord s code cls page bar d none)]
  rfl

/-- The count rests on the table and on NCOLS. -/
theorem missingCount_eq {t : State} (words : tableWords t = tableWords s) (cols : t.committed = s.committed) (b : Nat) :
    missingCount t b = missingCount s b := by
  have inner (u : State) : missingCount u b = (((tableWords u).filter (fun e => decide (nozzleAddr b 0 ≤ e.1) &&
      decide (e.1 < nozzleAddr b (ncols u b)))).filter (fun e => nzState e.2.toNat == 2)).length := by
    simp only [missingCount, tableWords, List.filter_filter]
    congr 2
    funext e
    have base : 0x400000 ≤ nozzleAddr b 0 := by simp [nozzleAddr]
    by_cases low : nozzleAddr b 0 ≤ e.1
    · simp [low, Nat.le_trans base low]
    · simp [low]
  have same : ncols t b = ncols s b := by simp only [ncols, cmf, cm, cols]
  rw [inner, inner, words, same]

/-- NOZZLE_LIMIT of the bar has been reached (R314). -/
def limitReached (s : State) (b : Nat) : Prop := rdf s (loopA 0x98) 16 0 ≤ missingCount s b

/-- What the check of MISS_LIMIT leaves: the entries and the bars; below the limit all words; at the limit, the first time, a
record (R313, R314). -/
theorem missLimit_leaves (s : State) (b : Nat) :
    (∀ a, 0x400000 ≤ a → rd (missLimit s b) a = rd s a) ∧ (missLimit s b).print = s.print ∧
      missingCount (missLimit s b) b = missingCount s b ∧
      (¬ limitReached s b → Evolves 16384 s (missLimit s b)) ∧
      (limitReached s b → b ∉ s.cams.limitSeen → recorded s (missLimit s b) 0x0806 1) := by
  unfold missLimit
  dsimp only
  split_ifs with first hit
  · have reached : limitReached s b := by
      simp only [Bool.and_eq_true, decide_eq_true_eq] at first
      exact first.1
    let u := { s with cams := { s.cams with limitSeen := s.cams.limitSeen ++ [b] } }
    refine ⟨fun a ha => ?_, by simp, ?_, fun below => absurd reached below, fun _ _ => ?_⟩
    · rw [rd_fault _ _ _ _ (by decide) _ (by simp only [ra, pgSys]; omega) (by simp only [ra, pgLoop]; omega), rd_ev,
        if_neg (by simp only [ra, pgLoop]; omega)]
      rfl
    · refine missingCount_eq ?_ (by simp) b
      rw [tableWords_fault _ _ _ (by decide) (by decide), tableWords_ev _ (by decide)]
      rfl
    · exact recorded_of_keepsLog (u := ev u pgLoop 14) ⟨by simp [u], by simp [u]⟩ (recorded_fault _ _ _ _ _ _)
  · have seen : b ∈ s.cams.limitSeen := by simpa [hit] using first
    exact ⟨fun _ _ => rfl, rfl, rfl, fun _ => .rfl, fun _ unseen => absurd seen unseen⟩
  · refine ⟨fun _ _ => rfl, rfl, rfl, fun _ => .upd_16384 rfl .rfl, fun reached _ => ?_⟩
    exact absurd reached (by simpa [limitReached] using hit)

/-! ### Nozzle entries (R47) -/

theorem exec_nozzleTableWrite {rq : Requester} {v : Word} (hb : b < 8) (hc : c < 131072)
    (ok : setOk s (nzWset v.toNat) (drop4 s b) = true) :
    exec (.nozzleTableWrite rq b c v) s = .next (if barPasses (nozzleWrite s b c v.toNat) b then nozzleWrite s b c v.toNat
      else missLimit (nozzleWrite s b c v.toNat) b) := by
  simp only [exec, execNozzleTableWrite, Nat.mod_eq_of_lt hb, Nat.mod_eq_of_lt hc, nozzleTable, ok, if_true]

/-- The bar that does not print takes the entry at once. -/
def entryTaken (s : State) (b c v : Nat) : State :=
  wr (setBar s b { getBar s b with staging := tdel (getBar s b).staging c }) (nozzleAddr b c) (v % 2 ^ 28)

theorem nozzleWrite_at_rest (h : barPasses s b = false) : nozzleWrite s b c v = entryTaken s b c v := by
  simp [nozzleWrite, h, entryTaken]

theorem nozzleWrite_staged (h : barPasses s b = true) (room : staged s b c = true ∨ (getBar s b).staging.length < 1024) :
    nozzleWrite s b c v =
      setBar s b { getBar s b with staging := tset (getBar s b).staging c (BitVec.ofNat 32 (v % 2 ^ 28)) } := by
  have : (staged s b c || decide ((getBar s b).staging.length < 1024)) = true := by simpa using room
  simp only [nozzleWrite, h, this, if_true]

theorem nozzleWrite_full (h : barPasses s b = true) (new : staged s b c = false) (full : 1024 ≤ (getBar s b).staging.length) :
    nozzleWrite s b c v = ev s (pgBar b) 8 := by
  simp [nozzleWrite, h, new, Nat.not_lt.2 full]

theorem barPasses_eq {t : State} (printing : (getBar t b).printing = (getBar s b).printing) (pair : t.pair = s.pair) :
    barPasses t b = barPasses s b := by
  simp only [barPasses, Machine.printing, printing, pair]

theorem tableWrite_nozzle_at_rest {rq : Requester} {v : Word} (hb : b < 8) (hc : c < 131072)
    (ok : setOk s (nzWset v.toNat) (drop4 s b) = true) (rests : barPasses s b = false) :
    completes (.nozzleTableWrite rq b c v) s (fun t =>
      rd t (nozzleAddr b c) = v.toNat % 2 ^ 28 ∧ staged t b c = false ∧
        (missingCount t b < rdf s (loopA 0x98) 16 0 →
          wordsKept [nozzleAddr b c] s t ∧ onlyChanges [.regs, .print, .cams] s t) ∧
        (rdf s (loopA 0x98) 16 0 ≤ missingCount t b → b ∉ s.cams.limitSeen → recorded s t 0x0806 1)) := by
  have runs := exec_nozzleTableWrite (rq := rq) hb hc ok
  have base : 0x400000 ≤ nozzleAddr b c := by simp [nozzleAddr]
  have still : barPasses (entryTaken s b c v.toNat) b = false := by
    rw [barPasses_eq (s := s) (by simp [entryTaken, getBar_setBar]) (by simp [entryTaken]), rests]
  rw [nozzleWrite_at_rest rests, still, if_neg (by decide)] at runs
  obtain ⟨words, print, count, below, reached⟩ := missLimit_leaves (entryTaken s b c v.toNat) b
  have limit : rdf (entryTaken s b c v.toNat) (loopA 0x98) 16 0 = rdf s (loopA 0x98) 16 0 := by
    refine rdf_eq_of_rd ((rd_wr ..).trans ?_) 16 0
    rw [if_neg (by simp only [loopA, ra, pgLoop]; omega)]
    simp
  have frame : Evolves 1025 s (entryTaken s b c v.toNat) := wr_evolves _ _ _ rfl (setBar_evolves _ _ _ rfl .rfl)
  refine ⟨_, runs, ?_, ?_, fun few => ?_, fun many unseen => ?_⟩
  · rw [words _ base]
    refine (rd_wr_same ..).trans (Nat.mod_eq_of_lt ?_)
    omega
  · have bar : getBar (missLimit (entryTaken s b c v.toNat) b) b =
        { getBar s b with staging := tdel (getBar s b).staging c } := by
      rw [getBar, print]
      refine (show _ = getBar (entryTaken s b c v.toNat) b from Eq.refl _).trans ?_
      simp [entryTaken, getBar_setBar]
    rw [staged, bar]
    simpa using not_mem_tdel (getBar s b).staging c
  · rw [count] at few
    have under := below (by rw [limitReached, limit]; omega)
    refine ⟨fun a ha => ?_, (((frame.mono (m := 17409) rfl).trans (under.mono rfl))).only (by decide)⟩
    rw [under.rd_eq rfl, entryTaken, rd_wr, if_neg (by simpa using ha)]
    simp
  · rw [count] at many
    have keeps : keepsLog s (entryTaken s b c v.toNat) := .of frame rfl
    refine recorded_of_keepsLog keeps (reached (by rwa [limitReached, limit]) ?_)
    simpa [entryTaken] using unseen

theorem tableWrite_nozzle_staged {rq : Requester} {v : Word} (hb : b < 8) (hc : c < 131072)
    (ok : setOk s (nzWset v.toNat) (drop4 s b) = true) (prints : barPasses s b = true)
    (room : staged s b c = true ∨ (getBar s b).staging.length < 1024) :
    completes (.nozzleTableWrite rq b c v) s (fun t =>
      nozzleNext t b c = v.toNat % 2 ^ 28 ∧ (∀ d, d ≠ c → nozzleNext t b d = nozzleNext s b d) ∧ wordsKept [] s t ∧
        onlyChanges [.print] s t) := by
  have runs := exec_nozzleTableWrite (rq := rq) hb hc ok
  rw [nozzleWrite_staged prints room, barPasses_eq (s := s) (by simp [getBar_setBar]) (by simp), prints, if_pos rfl] at runs
  refine ⟨_, runs, ?_, fun d hd => ?_, fun a _ => by simp, (setBar_evolves _ _ _ (m := 1024) rfl .rfl).only (by decide)⟩
  · simp only [nozzleNext, getBar_setBar, if_pos, tget_tset_same, BitVec.toNat_ofNat]
    omega
  · simp [nozzleNext, getBar_setBar, tget_tset_other _ _ _ hd]

theorem tableWrite_nozzle_full {rq : Requester} {v : Word} (hb : b < 8) (hc : c < 131072)
    (ok : setOk s (nzWset v.toNat) (drop4 s b) = true) (prints : barPasses s b = true) (new : staged s b c = false)
    (full : 1024 ≤ (getBar s b).staging.length) :
    completes (.nozzleTableWrite rq b c v) s (fun t =>
      raised s t (pgBar b) 8 ∧ wordsKept [ra (pgBar b) 0x24] s t ∧ onlyChanges eventParts s t) := by
  have runs := exec_nozzleTableWrite (rq := rq) hb hc ok
  rw [nozzleWrite_full prints new full, barPasses_eq (s := s) (by simp) (by simp), prints, if_pos rfl] at runs
  exact ⟨_, runs, ev_turns_away s _ (by decide)⟩

/-! ### Band trims and screens (R46, R48, R194) -/

theorem exec_bandTrimWrite {rq : Requester} {j k : Nat} {v : Word} (hb : b < 8) (hj : j < 2) (hk : k < 2048)
    (free : bankUsed s b j = false) (ruled : pgEn s pgLoop = false ∨ rq = .core 1) :
    exec (.bandTrimWrite rq b j k v) s = .next (wr s (trimAddr b j k) (v.toNat % 4096)) := by
  have may : (pgEn s pgLoop && bitOf (rdf s (ra pgLoop 0x40) 15 8) b && rq != .core 1) = false := by
    rcases ruled with off | core
    · simp [off]
    · simp [core]
  simp only [exec, execBandTrimWrite, Nat.mod_eq_of_lt hb, Nat.mod_eq_of_lt hj, Nat.mod_eq_of_lt hk, bandTrimStore, may, free,
    Bool.false_eq_true, if_false]

/-- Of the printing bars, the one with a number. -/
theorem printing_bars_eq {n : Nat} (hn : n < 8) :
    (List.range 8).filter (fun b => printing s b && b == n) = if printing s n then [n] else [] := by
  have step (b : Nat) : (printing s b && b == n) = (printing s n && b == n) := by
    by_cases same : b = n
    · rw [same]
    · rw [beq_false_of_ne same, Bool.and_false, Bool.and_false]
  rw [funext step]
  cases printing s n
  · simp
  · interval_cases n <;> rfl

theorem windowMask_screen {a : Nat} (lo : 0x800000 ≤ a) (hi : a < 0xC00000) : windowMask a ≠ 0 := by
  unfold windowMask
  rw [if_neg (by omega), if_neg (by omega), if_pos hi]
  decide

theorem windowStore_free (s : State) (a v : Nat) : windowStore s [] a v = wr s a (v &&& tableMask s a) := rfl

theorem windowStore_kept (s : State) (b a v : Nat) : windowStore s [b] a v = refuse s (pgBar b) := rfl

/-- A write of a screen word is stored, or refused on the bar that prints with the screen. -/
theorem exec_screenWrite {rq : Requester} {a : Nat} {v : Word} (aligned : a % 4 = 0) (lo : 0x800000 ≤ a) (hi : a < 0xC00000) :
    exec (.tableWindowWrite rq a v) s = .next (if printing s ((a - 0x800000) / 0x80000) then
      refuse s (pgBar ((a - 0x800000) / 0x80000)) else wr s a (v.toNat &&& tableMask s a)) := by
  have mask := windowMask_screen lo hi
  have bar : (a - 0x800000) / 0x80000 < 8 := by omega
  simp only [exec, execTableWindowWrite, windowWrite]
  rw [if_neg (by omega), if_neg (by omega), if_pos hi, printing_bars_eq bar]
  cases printing s ((a - 0x800000) / 0x80000) with
  | true => rw [if_pos (Eq.refl true), if_pos (Eq.refl true), windowStore_kept]
  | false => rw [if_neg Bool.false_ne_true, if_neg Bool.false_ne_true, windowStore_free]

theorem tableWindowWrite_screen {rq : Requester} {a : Nat} {v : Word} (aligned : a % 4 = 0) (lo : 0x800000 ≤ a)
    (hi : a < 0xC00000) :
    (printing s ((a - 0x800000) / 0x80000) = false →
      completes (.tableWindowWrite rq a v) s (fun t =>
        rd t a = v.toNat &&& tableMask s a ∧ wordsKept [a] s t ∧ onlyChanges [.regs] s t)) ∧
    (printing s ((a - 0x800000) / 0x80000) = true →
      completes (.tableWindowWrite rq a v) s (fun t =>
        raised s t (pgBar ((a - 0x800000) / 0x80000)) 4 ∧ wordsKept [ra (pgBar ((a - 0x800000) / 0x80000)) 0x24] s t ∧
          onlyChanges eventParts s t)) := by
  have runs := exec_screenWrite (s := s) (rq := rq) (v := v) aligned lo hi
  refine ⟨fun rests => ?_, fun prints => ?_⟩
  · rw [rests, if_neg (by decide)] at runs
    refine ⟨_, runs, ?_, wordsKept_wr _ _ _, only_wr _ _ _⟩
    exact (rd_wr_same ..).trans (Nat.mod_eq_of_lt (Nat.lt_of_le_of_lt Nat.and_le_left v.isLt))
  · rw [prints, if_pos rfl] at runs
    have header : headerOf (pgBar ((a - 0x800000) / 0x80000)) = pgBar ((a - 0x800000) / 0x80000) := by
      have : (a - 0x800000) / 0x80000 < 8 := by omega
      interval_cases (a - 0x800000) / 0x80000 <;> rfl
    refine ⟨_, runs, ?_⟩
    rw [refuse, header]
    exact ev_turns_away s _ (by decide)

end Sys2Proof.Machine

namespace Sys2Proof.Proofs
open Sys2Proof Sys2Proof.Machine

/-- Settles O12: an entry is taken at once, staged or turned away as the bar prints; trims and screens are stored where no
printing bar uses them. -/
theorem tableWrites : Obligations.TableWrites := by
  refine ⟨fun s rq b c v hb hc ok => ⟨fun rests => tableWrite_nozzle_at_rest hb hc ok rests,
      fun prints room => tableWrite_nozzle_staged hb hc ok prints room,
      fun prints new full => tableWrite_nozzle_full hb hc ok prints new full⟩,
    fun s rq b j k v hb hj hk free ruled => ?_, fun s rq a v aligned lo hi => tableWindowWrite_screen aligned lo hi⟩
  refine ⟨_, exec_bandTrimWrite hb hj hk free ruled, ?_, wordsKept_wr _ _ _, only_wr _ _ _⟩
  refine (rd_wr_same ..).trans (Nat.mod_eq_of_lt ?_)
  omega

end Sys2Proof.Proofs
end

section
/-! PROOFS. OwnersPinsEvents fails (R53): the low four bits of GPIO_OD are not writable (R5), so that a state that holds one of
them keeps it, where the statement has the whole word replaced. -/

namespace Sys2Proof.Machine
open Sys2Proof

/-- The PIN page is clocked and GPIO_OD holds its bit 0, which no write of the model reaches. -/
def reservedPinHeld : State := wr (wr {} (ra pgPin 0x14) 2) (ra pgPin 0x204) 1

theorem admitted_reservedPinHeld : admitted reservedPinHeld (ra pgPin 0x204) 0 := by
  unfold admitted
  decide

theorem rd_gpioShow (old s : State) (a : Nat) : rd (gpioShow old s) a = rd s a :=
  (gpioShow_evolves old s (m := 8388608) rfl .rfl).rd_eq rfl a

/-- A write of GPIO_OD with 0 keeps the bit. -/
theorem rd_odWrite_reservedPinHeld : rd (odWrite reservedPinHeld 0) (ra pgPin 0x204) = 1 := by
  rw [odWrite, rd_gpioShow]
  decide

end Sys2Proof.Machine

namespace Sys2Proof.Proofs
open Sys2Proof Sys2Proof.Machine

/-- Refutes O13: a write of 0 to GPIO_OD, whose bits 3 to 0 are not writable, leaves the bit 0 that the state holds. -/
theorem not_ownersPinsEvents : ¬ Obligations.OwnersPinsEvents := by
  rintro ⟨_, _, openDrain, _⟩
  obtain ⟨t, runs, word, _⟩ := openDrain reservedPinHeld .pcie 0#32 admitted_reservedPinHeld
  have written : t = odWrite reservedPinHeld 0 := by
    have : exec (.gpioDirWrite .pcie true 0#32) reservedPinHeld = .next (odWrite reservedPinHeld 0) := rfl
    rw [this] at runs
    exact (Host.Outcome.next.inj runs).symm
  rw [written, rd_odWrite_reservedPinHeld] at word
  exact absurd word (by decide)

end Sys2Proof.Proofs
end

section
/-! PROOFS. SnapshotsRule (R55 to R57): triggers of a host snapshot, and the taking of one. -/

namespace Sys2Proof.Machine
open Sys2Proof

variable {s : State}

/-! ### Journal entries -/

theorem find?_tins_other {α : Type} (t : Tab α) {k j : Nat} (v : α) (h : j ≠ k) :
    (tins t k v).find? (fun e => e.1 == j) = t.find? (fun e => e.1 == j) := by
  induction t with
  | nil => simp [tins, h.symm]
  | cons x t ih =>
    unfold tins
    split
    · simp [List.find?_cons, h.symm]
    · simp [List.find?_cons, ih]

theorem find?_tdel_other {α : Type} (t : Tab α) {k j : Nat} (h : j ≠ k) :
    (tdel t k).find? (fun e => e.1 == j) = t.find? (fun e => e.1 == j) := by
  induction t with
  | nil => rfl
  | cons x t ih =>
    unfold tdel
    split
    · next same => simp [ih, same, h.symm]
    · simp [List.find?_cons, ih]

theorem find?_tins_same {α : Type} (t : Tab α) (k : Nat) (v : α) (h : ∀ x ∈ t, x.1 ≠ k) :
    (tins t k v).find? (fun e => e.1 == k) = some (k, v) := by
  induction t with
  | nil => simp [tins]
  | cons x t ih =>
    have here : (x.1 == k) = false := beq_false_of_ne (h x List.mem_cons_self)
    unfold tins
    split
    · simp
    · simp [here, ih (fun y hy => h y (List.mem_cons_of_mem _ hy))]

/-- A journal slot reads the entry that was set, and the others read as before. -/
theorem getEntry_setEntry (s : State) (k j : Nat) (e : JEntry) :
    getEntry (setEntry s k e) j = if j = k then some e else getEntry s j := by
  simp only [getEntry, setEntry, tset]
  split
  · next same => rw [same, find?_tins_same _ _ _ (not_mem_tdel _ _)]; rfl
  · next other => rw [find?_tins_other _ _ other, find?_tdel_other _ other]

theorem getEntry_of_host {t : State} (h : t.host = s.host) (k : Nat) : getEntry t k = getEntry s k := by
  rw [getEntry, h, getEntry]

theorem sendComplete_host (s : State) (e : JEntry) : (sendComplete s e).host = s.host := by
  unfold sendComplete
  dsimp only
  split <;> simp [sendMsg]

theorem deliver_host (s : State) (k : Nat) : (deliver s k).host = s.host := by
  unfold deliver
  split
  · split
    · exact sendComplete_host _ _
    · rfl
  · rfl

/-- A finished command is Done with its status and results; the other entries stay (R78). -/
theorem getEntry_finish {k : Nat} {e : JEntry} (h : getEntry s k = some e) (st r0 r1 : Nat) (res : List Byte) (img j : Nat) :
    getEntry (finish s k st r0 r1 res img) j = if j = k then
      some { e with state := 2, status := st, result0 := r0, result1 := r1, result := res, imageLine := img, ptNs := s.clk.ns,
                    ptSec := s.clk.sec % 2 ^ 32, webPos := webPos s (refBar s), waiting := false }
      else getEntry s j := by
  simp only [finish, h]
  rw [getEntry_of_host (deliver_host _ _), getEntry_setEntry]

theorem finish_of_no_entry {k : Nat} (h : getEntry s k = none) (st r0 r1 : Nat) (res : List Byte) (img : Nat) :
    finish s k st r0 r1 res img = s := by simp only [finish, h]

theorem doneAs_finish_other {k j : Nat} (st st' r0 r1 : Nat) (res : List Byte) (img : Nat) (h : doneAs s j st) (same : k = j → st' = st) :
    doneAs (finish s k st' r0 r1 res img) j st := by
  obtain ⟨e, he, hs, hst⟩ := h
  cases hk : getEntry s k with
  | none => rw [finish_of_no_entry hk]; exact ⟨e, he, hs, hst⟩
  | some x =>
    rw [doneAs, getEntry_finish hk]
    split
    · next here => exact ⟨_, rfl, rfl, same here.symm⟩
    · exact ⟨e, he, hs, hst⟩

theorem doneAs_finish {k : Nat} {e : JEntry} (h : getEntry s k = some e) (st r0 r1 : Nat) (res : List Byte) (img : Nat) :
    doneAs (finish s k st r0 r1 res img) k st := by
  rw [doneAs, getEntry_finish h, if_pos rfl]
  exact ⟨_, rfl, rfl, rfl⟩

/-- Finishing the commands of a list leaves all of them Done. -/
theorem doneAs_foldl_finish (st r0 r1 : Nat) (res : List Byte) (img : Nat) (l : List Nat) (s : State)
    (h : ∀ k ∈ l, (getEntry s k).isSome = true) :
    ∀ k ∈ l, doneAs (l.foldl (fun s k => finish s k st r0 r1 res img) s) k st := by
  have stay (l : List Nat) (s : State) (j : Nat) (d : doneAs s j st) :
      doneAs (l.foldl (fun s k => finish s k st r0 r1 res img) s) j st := by
    induction l generalizing s with
    | nil => exact d
    | cons k l ih => exact ih _ (doneAs_finish_other _ _ _ _ _ _ d (fun _ => rfl))
  induction l generalizing s with
  | nil => simp
  | cons k l ih =>
    obtain ⟨e, he⟩ := Option.isSome_iff_exists.1 (h k List.mem_cons_self)
    intro j hj
    rcases List.mem_cons.1 hj with rfl | hj
    · exact stay l _ _ (doneAs_finish he _ _ _ _ _)
    · refine ih _ (fun i hi => ?_) j hj
      rw [getEntry_finish he]
      split
      · rfl
      · exact h i (List.mem_cons_of_mem _ hi)

/-! ### Triggers (R55, R56) -/

/-- What SNAP_CTRL holds after a write of it. -/
def snapStored (s : State) (v : Nat) : State := wr s (ra pgRime 0x40) (v &&& 0xA)

theorem snapStored_leaves (s : State) (v : Nat) :
    snapLine (snapStored s v) = snapLine s ∧ refBar (snapStored s v) = refBar s ∧
      ∀ n, snapLate (snapStored s v) n = snapLate s n := by
  have line : snapLine (snapStored s v) = snapLine s := by
    simp only [snapLine, rd64, snapStored, rd_wr, ra, pgRime]
    rfl
  have bar : refBar (snapStored s v) = refBar s := by
    simp only [refBar, rdf, snapStored, rd_wr, ra, pgRime, pgSys]
    rfl
  refine ⟨line, bar, fun n => ?_⟩
  simp only [snapLate, bar]
  rfl

theorem exec_snapshotTrigger {rq : Requester} {v : Word} (adm : admitted s (ra pgRime 0x40) v.toNat) :
    exec (.snapshotTrigger rq v) s = .next (if v.getLsbD 0 = false then snapStored s v.toNat
      else asInput (snapStored s v.toNat) 8 (refBar s) (if v.getLsbD 1 then some (snapLine s) else none)
        (snapPayload (v.getLsbD 1) (snapLine s)) (fun u => snapArm u (v.getLsbD 1) (snapLine u))) := by
  obtain ⟨line, bar, _⟩ := snapStored_leaves s v.toNat
  simp only [exec, execSnapshotTrigger, snapWrite, gated_of_admitted adm]
  rw [← line, ← bar]
  rfl

theorem asInput_single (h : s.pair.role = 0) (kind bar : Nat) (line : Option Nat) (p : List Byte) (act : State → State) :
    asInput s kind bar line p act = act s := by rw [asInput, if_pos h]

theorem asInput_active (h : s.pair.role ≠ 0) (active : isActive s = true) (kind bar : Nat) (line : Option Nat) (p : List Byte)
    (act : State → State) : asInput s kind bar line p act = takeInput s kind bar line p := by
  rw [asInput, if_neg h, if_pos active]

theorem asInput_standby (h : s.pair.role = 5) (kind bar : Nat) (line : Option Nat) (p : List Byte) (act : State → State) :
    asInput s kind bar line p act = pairSendSeq s 0x10 0 (inputBody kind false true ones48 bar p) := by
  have idle : isActive s = false := by simp [isActive, h]
  rw [asInput, if_neg (by omega), idle, if_neg (by decide), if_pos h]

theorem asInput_elsewhere (h : s.pair.role ≠ 0) (idle : isActive s = false) (standby : s.pair.role ≠ 5) (kind bar : Nat)
    (line : Option Nat) (p : List Byte) (act : State → State) : asInput s kind bar line p act = s := by
  rw [asInput, if_neg h, idle, if_neg (by decide), if_neg standby]

/-- A short sequenced message is numbered and kept until it is acknowledged (R343). -/
theorem unacked_pairSendSeq (s : State) (type flags : Nat) {body : List Byte} (h : body.length ≤ 2304) :
    ∃ u : Nat × Nat × Nat × List Byte, (pairSendSeq s type flags body).pair.unacked = s.pair.unacked ++ [u] ∧ u.2.1 = type ∧
      u.2.2.2 = body := by
  have one : pieces 2304 (body.length / 2304 + 1) body = [body] := by rw [pieces, if_pos h]
  refine ⟨(nextSeq s.pair.txSeq, type, flags, body), ?_, rfl, rfl⟩
  simp only [pairSendSeq, one, List.foldl_cons, List.foldl_nil, pairSendOne, pairSendOn, pair_foldl_pairPut]

theorem mem_snapWait_armSnapshot (s : State) (c d : Nat) : d ∈ (armSnapshot s c).snapWait ↔ d = c ∨ d ∈ s.snapWait := by
  simp only [armSnapshot]
  split
  · next h =>
    have : c ∈ s.snapWait := by simpa using h
    exact ⟨.inr, fun h => h.elim (fun e => e ▸ this) id⟩
  · simp [or_comm]

/-- A late host trigger: it no longer waits, and COMMIT_LATE is set (R55). -/
def snapDropped (s : State) : State := ev { s with snapWait := s.snapWait.filter (fun c => c != 0) } pgRime 1

theorem snapDropped_leaves (s : State) : 0 ∉ (snapDropped s).snapWait ∧ raised s (snapDropped s) pgRime 1 ∧
    wordsKept [ra pgRime 0x24] s (snapDropped s) := by
  refine ⟨by simp [snapDropped], ?_, ?_⟩
  · exact raised_ev { s with snapWait := s.snapWait.filter (fun c => c != 0) } pgRime (by decide)
  · exact wordsKept_ev { s with snapWait := s.snapWait.filter (fun c => c != 0) } pgRime 1

theorem snapTriggerRule (s : State) (rq : Requester) (v : Word) (adm : admitted s (ra pgRime 0x40) v.toNat) :
    (v.getLsbD 0 = false →
      completes (.snapshotTrigger rq v) s (fun t =>
        rd t (ra pgRime 0x40) = v.toNat &&& 0xA ∧ wordsKept [ra pgRime 0x40] s t ∧ onlyChanges [.regs] s t)) ∧
    (v.getLsbD 0 = true → s.pair.role = 0 → (v.getLsbD 1 = false ∨ snapLate s (snapLine s) = false) →
      completes (.snapshotTrigger rq v) s (fun t =>
        0 ∈ t.snapWait ∧ (∀ c, c ∈ t.snapWait ↔ c = 0 ∨ c ∈ s.snapWait) ∧ rd t (ra pgRime 0x40) = v.toNat &&& 0xA ∧
          wordsKept [ra pgRime 0x40] s t ∧ onlyChanges [.regs, .snapWait] s t)) ∧
    (v.getLsbD 0 = true → s.pair.role = 0 → v.getLsbD 1 = true → snapLate s (snapLine s) = true →
      completes (.snapshotTrigger rq v) s (fun t =>
        0 ∉ t.snapWait ∧ raised s t pgRime 1 ∧ wordsKept [ra pgRime 0x40, ra pgRime 0x24] s t)) ∧
    (v.getLsbD 0 = true → s.pair.role ≠ 0 → isActive s = true →
      completes (.snapshotTrigger rq v) s (fun t =>
        (∃ i, t.pair.inputs = s.pair.inputs ++ [i] ∧ i.kind = 8 ∧ i.own = true ∧ i.bar = refBar s ∧
            i.payload = snapPayload (v.getLsbD 1) (snapLine s)) ∧
          rd t (ra pgRime 0x40) = v.toNat &&& 0xA ∧ t.snapWait = s.snapWait ∧
          onlyChanges [.regs, .counters, .pair, .out] s t)) ∧
    (v.getLsbD 0 = true → s.pair.role = 5 →
      completes (.snapshotTrigger rq v) s (fun t =>
        (∃ u, t.pair.unacked = s.pair.unacked ++ [u] ∧ u.2.1 = 0x10 ∧
            u.2.2.2 = inputBody 8 false true ones48 (refBar s) (snapPayload (v.getLsbD 1) (snapLine s))) ∧
          t.pair.inputs = s.pair.inputs ∧ t.snapWait = s.snapWait ∧ onlyChanges [.regs, .counters, .pair, .out] s t)) ∧
    (v.getLsbD 0 = true → s.pair.role ≠ 0 → s.pair.role ≠ 5 → isActive s = false →
      completes (.snapshotTrigger rq v) s (fun t => t.snapWait = s.snapWait ∧ onlyChanges [.regs] s t)) := by
  have runs := exec_snapshotTrigger (rq := rq) adm
  obtain ⟨line, bar, late⟩ := snapStored_leaves s v.toNat
  have stored : rd (snapStored s v.toNat) (ra pgRime 0x40) = v.toNat &&& 0xA :=
    (rd_wr_same ..).trans (Nat.mod_eq_of_lt (Nat.and_lt_two_pow _ (by decide)))
  have kept : wordsKept [ra pgRime 0x40] s (snapStored s v.toNat) := wordsKept_wr s _ _
  have frame : Evolves 1 s (snapStored s v.toNat) := wr_evolves _ _ _ rfl .rfl
  have pair : (snapStored s v.toNat).pair = s.pair := frame.same .pair rfl
  have waits : (snapStored s v.toNat).snapWait = s.snapWait := frame.same .snapWait rfl
  have active : isActive (snapStored s v.toNat) = isActive s := by rw [isActive, pair, isActive]
  refine ⟨fun idle => ?_, fun trigger single inTime => ?_, fun trigger single atLine passed => ?_,
    fun trigger paired acts => ?_, fun trigger standby => ?_, fun trigger paired other idle => ?_⟩
  · rw [if_pos idle] at runs
    exact ⟨_, runs, stored, kept, frame.only (by decide)⟩
  all_goals rw [if_neg (by simp [trigger])] at runs
  · have arms : snapArm (snapStored s v.toNat) (v.getLsbD 1) (snapLine s) = armSnapshot (snapStored s v.toNat) 0 := by
      have no : (v.getLsbD 1 && snapLate (snapStored s v.toNat) (snapLine s)) = false := by
        rw [late]
        rcases inTime with h | h
        · rw [h, Bool.false_and]
        · rw [h, Bool.and_false]
      rw [snapArm, no, if_neg (by decide)]
    rw [asInput_single (by rw [pair, single]), line, arms] at runs
    have all := mem_snapWait_armSnapshot (snapStored s v.toNat) 0
    rw [waits] at all
    exact ⟨_, runs, (all 0).2 (.inl rfl), all, stored, kept, (armSnapshot_evolves _ _ rfl (frame.mono (m := 2097153) rfl)).only (by decide)⟩
  · have drops : snapArm (snapStored s v.toNat) (v.getLsbD 1) (snapLine s) = snapDropped (snapStored s v.toNat) := by
      rw [snapArm, atLine, late, passed]
      rfl
    rw [asInput_single (by rw [pair, single]), line, drops] at runs
    obtain ⟨gone, event, words⟩ := snapDropped_leaves (snapStored s v.toNat)
    refine ⟨_, runs, gone, ?_, (kept.mono (by simp)).trans (words.mono (by simp))⟩
    rw [raised, event, evPend, evPend, kept _ (by decide)]
  · rw [asInput_active (by rw [pair]; exact paired) (by rw [active, acts])] at runs
    obtain ⟨i, inputs, kind, own, onBar, payload⟩ := inputs_takeInput (snapStored s v.toNat) 8 (refBar s)
      (if v.getLsbD 1 then some (snapLine s) else none) (snapPayload (v.getLsbD 1) (snapLine s))
    have took := takeInput_frame (snapStored s v.toNat) 8 (refBar s) (if v.getLsbD 1 then some (snapLine s) else none)
      (snapPayload (v.getLsbD 1) (snapLine s))
    exact ⟨_, runs, ⟨i, by rw [inputs, pair], kind, own, onBar, payload⟩, (took.rd_eq rfl _).trans stored,
      (took.same .snapWait rfl).trans waits, ((frame.mono (m := 8421441) rfl).trans (took.mono rfl)).only (by decide)⟩
  · rw [asInput_standby (by rw [pair, standby])] at runs
    have short : (inputBody 8 false true ones48 (refBar s) (snapPayload (v.getLsbD 1) (snapLine s))).length ≤ 2304 := by
      simp [inputBody, snapPayload, leBytes_length]
    obtain ⟨u, unacked, type, body⟩ := unacked_pairSendSeq (snapStored s v.toNat) 0x10 0 short
    have sent : Evolves 8421440 (snapStored s v.toNat) (pairSendSeq (snapStored s v.toNat) 0x10 0
      (inputBody 8 false true ones48 (refBar s) (snapPayload (v.getLsbD 1) (snapLine s)))) :=
      pairSendSeq_evolves _ _ _ _ rfl .rfl
    exact ⟨_, runs, ⟨u, by rw [unacked, pair], type, body⟩, by rw [inputs_pairSendSeq, pair],
      (sent.same .snapWait rfl).trans waits, ((frame.mono (m := 8421441) rfl).trans (sent.mono rfl)).only (by decide)⟩
  · rw [asInput_elsewhere (by rw [pair]; exact paired) (by rw [active, idle]) (by rw [pair]; exact other)] at runs
    exact ⟨_, runs, waits, frame.only (by decide)⟩

/-! ### Taking a snapshot (R55, R57) -/

theorem dropLateSnap_of_late (waits : s.snapWait.contains 0 = true) (atLine : rdb s (ra pgRime 0x40) 1 = true)
    (late : snapLate s (snapLine s) = true) : dropLateSnap s = snapDropped s := by
  rw [dropLateSnap, waits, atLine, late]
  rfl

theorem dropLateSnap_of_due
    (h : s.snapWait.contains 0 = false ∨ rdb s (ra pgRime 0x40) 1 = false ∨ snapLate s (snapLine s) = false) :
    dropLateSnap s = s := by
  have no : (s.snapWait.contains 0 && rdb s (ra pgRime 0x40) 1 && snapLate s (snapLine s)) = false := by
    rcases h with h | h | h <;> simp only [h, Bool.false_and, Bool.and_false]
  rw [dropLateSnap, no, if_neg (by decide)]

theorem wordsKept_dropLateSnap (s : State) : wordsKept [ra pgRime 0x24] s (dropLateSnap s) := by
  unfold dropLateSnap
  split
  · exact (snapDropped_leaves s).2.2
  · exact fun _ _ => rfl

theorem exec_snapshotTake_idle (h : snapCauses (dropLateSnap s) = []) : exec .snapshotTake s = .next (dropLateSnap s) := by
  simp only [exec, execSnapshotTake, snapTake, h]

/-- The state in which a snapshot of causes `cs` is recorded, before the commands that waited complete. -/
def snapshotOf (s : State) (cs : List Nat) : State :=
  let t := snapRecord s (cs.headD 0)
  { t with snapWait := t.snapWait.filter (fun x => !cs.contains x) }

theorem exec_snapshotTake_due {c : Nat} {cs : List Nat} (h : snapCauses (dropLateSnap s) = c :: cs) :
    ∃ img, exec .snapshotTake s = .next ((snapSlots (dropLateSnap s)).foldl (fun s k => finish s k stOk 0 0 [] img)
      (snapshotOf (dropLateSnap s) (c :: cs))) := by
  refine ⟨if printing (dropLateSnap s) (refBar (dropLateSnap s)) then buildLine (dropLateSnap s) (refBar (dropLateSnap s)) else 0, ?_⟩
  simp only [exec, execSnapshotTake, snapTake, h]
  rfl

/-- The causes of a snapshot rise, and are those of SNAP_CAUSE. -/
theorem snapCauses_sorted (s : State) : (snapCauses s).Pairwise (· < ·) ∧ ∀ c ∈ snapCauses s, c < 4 := by
  unfold snapCauses
  dsimp only
  split_ifs <;> simp

theorem snapSlots_listed {k : Nat} (h : k ∈ snapSlots s) : (getEntry s k).isSome = true := by
  obtain ⟨x, hx, rfl⟩ := List.mem_map.1 h
  have listed : x ∈ s.host.journal := (List.mem_filter.1 hx).1
  rw [getEntry, Option.isSome_map, List.find?_isSome]
  exact ⟨x, listed, by simp⟩

theorem snapRecord_words (s : State) (c : Nat) : rd (snapRecord s c) (ra pgRime 0x50) = (rd s (ra pgRime 0x50) + 1) % 2 ^ 32 ∧
    rd (snapRecord s c) (ra pgRime 0x54) = c % 2 ^ 32 ∧ (snapRecord s c).rime = s.counters := by
  refine ⟨?_, ?_, ?_⟩
  · simp [snapRecord, wr64, rd_wr, ra, pgRime]
  · simp [snapRecord, wr64, rd_wr, ra, pgRime]
  · simp [snapRecord, wr64]

theorem snapshotsRule : SnapshotsRule := by
  refine ⟨snapTriggerRule, fun s c cs due => ?_, fun s idle => exec_snapshotTake_idle idle, fun s =>
    ⟨dropLateSnap_of_due, fun waits atLine late => ?_⟩⟩
  · obtain ⟨img, runs⟩ := exec_snapshotTake_due due
    obtain ⟨sorted, bound⟩ := snapCauses_sorted (dropLateSnap s)
    rw [due] at sorted bound
    obtain ⟨seq, cause, rime⟩ := snapRecord_words (dropLateSnap s) c
    let u := snapshotOf (dropLateSnap s) (c :: cs)
    have ends : Evolves 8392704 u ((snapSlots (dropLateSnap s)).foldl (fun s k => finish s k stOk 0 0 [] img) u) :=
      .foldl .rfl (fun s k e => finish_evolves s k _ _ _ _ _ rfl e)
    have small : c < 4 := bound c List.mem_cons_self
    refine ⟨_, runs, (ends.same .rime rfl).trans rime, ?_, ?_, small, fun x hx => List.rel_of_pairwise_cons sorted hx,
      fun x hx => ?_, doneAs_foldl_finish _ _ _ _ _ _ _ (fun k hk => ?_)⟩
    · rw [ends.rd_eq rfl, ← wordsKept_dropLateSnap s _ (by decide)]
      exact seq
    · rw [ends.rd_eq rfl]
      exact cause.trans (Nat.mod_eq_of_lt (by omega))
    · rw [show _ = u.snapWait from ends.same .snapWait rfl]
      simp only [u, snapshotOf, List.mem_filter, not_and]
      simpa using fun _ other => (List.mem_cons.1 hx).resolve_left other
    · rw [getEntry_of_host (t := snapshotOf (dropLateSnap s) (c :: cs)) (s := dropLateSnap s)
        ((snapRecord_evolves (dropLateSnap s) c (m := 129) rfl .rfl).same .host rfl)]
      exact snapSlots_listed hk
  · rw [dropLateSnap_of_late waits atLine late]
    exact ⟨(snapDropped_leaves s).1, (snapDropped_leaves s).2.1⟩

end Sys2Proof.Machine
end

section
/-! PROOFS. BlockEnableRule (R28, R30, R32, R33, R49, R315, R428): EN and CLKREQ of a page, the claim and the checks of an
enable, and the start of a clock. -/

namespace Sys2Proof.Machine
open Sys2Proof

variable {s : State} {p : Nat}

theorem headerOf_of_isHeader (h : isHeader p = true) : headerOf p = p := by
  unfold isHeader at h
  unfold headerOf
  split at h
  · simpa using h
  · simp at h

/-! ### Words of a page header stay when a block starts or stops -/

/-- A checked camera or display link records a fault of class B at most: of the words, EV_PEND alone changes. -/
theorem rd_checkCamera (s : State) {a : Nat} (h : a % 4096 ≠ 0x24) : rd (checkCamera s) a = rd s a := by
  unfold checkCamera
  dsimp only
  split_ifs
  · rfl
  · exact rd_fault _ _ _ _ (by decide) _ (by simp only [ra]; omega) (by simp only [ra]; omega)
  · rfl

theorem rd_linkFail (s : State) {a : Nat} (h : a % 4096 ≠ 0x24) : rd (linkFail s) a = rd s a :=
  rd_fault _ _ _ _ (by decide) _ (by simp only [ra]; omega) (by simp only [ra]; omega)

theorem rd_trainAt (s : State) (r a : Nat) : rd (trainAt s r) a = rd s a :=
  (trainAt_evolves s r (m := 8912960) rfl .rfl).rd_eq rfl a

theorem rd_dispStart (s : State) {a : Nat} (h : a % 4096 ≠ 0x24) : rd (dispStart s) a = rd s a := by
  unfold dispStart
  split
  · split
    · exact rd_linkFail s h
    · split
      · exact rd_trainAt s _ a
      · exact rd_linkFail s h
  · rfl

theorem enableClaim_addr {c : Nat × Nat} (h : enableClaim s p = some c) :
    c.1 / 4096 = pgPin ∧ 0x40 ≤ c.1 % 4096 ∧ (c.2 = 1 ∨ c.2 = 2) ∧ (0x44 ≤ p ∧ p < 0x48 ∨ 0xD4 ≤ p ∧ p < 0xD8) := by
  unfold enableClaim at h
  split_ifs at h with serial off axis
  all_goals
    obtain rfl := Option.some.inj h
    refine ⟨?_, ?_, ?_, ?_⟩
    · simp only [ownEnc, ra, pgPin]; omega
    · simp only [ownEnc, ra, pgPin]; omega
    · simp
    · omega

theorem rd_wrf_claim {c : Nat × Nat} (claim : enableClaim s p = some c) (u : State) (hi lo v : Nat) {a : Nat} (h : a % 4096 < 0x24) :
    rd (wrf u c.1 hi lo v) a = rd u a := by
  have off := (enableClaim_addr claim).2.1
  refine rd_wrf_other _ _ _ _ ?_
  rintro rfl
  omega

/-- A block that starts leaves the header words of all pages below EV_PEND. -/
theorem rd_pageStarts (s : State) (p : Nat) {a : Nat} (h : a % 4096 < 0x24) : rd (pageStarts s p) a = rd s a := by
  have event : a % 4096 ≠ 0x24 := by omega
  unfold pageStarts
  extract_lets u
  have claimed : rd u a = rd s a := by
    cases claim : enableClaim s p with
    | none => simp only [u, claim]
    | some c => simp only [u, claim, claimRes, rd_wrf_claim claim _ _ _ _ h]
  clear_value u
  rw [← claimed]
  split
  · rfl
  · split_ifs
    · rfl
    · exact rd_dispStart u event
    · exact rd_checkCamera u event
    · rfl

/-- A block that stops leaves the header words of all pages below EV_PEND. -/
theorem rd_pageStops (s : State) (p : Nat) {a : Nat} (h : a % 4096 < 0x24) : rd (pageStops s p) a = rd s a := by
  have event : a % 4096 ≠ 0x24 := by omega
  unfold pageStops
  extract_lets u
  have released : rd u a = rd s a := by
    cases claim : enableClaim s p with
    | none => simp only [u, claim]
    | some c => simp only [u, claim, rd_wrf_claim claim _ _ _ _ h]
  clear_value u
  rw [← released]
  split
  · rfl
  · split_ifs
    · rfl
    · rfl
    · rfl
    · exact rd_checkCamera u event
    · exact (rd_wr ..).trans (if_neg (by simp only [ra]; omega))
    · rfl

/-- Pages whose enable and disable change words alone start and stop nothing. -/
theorem pageStarts_wordsOnly (h : wordsOnly s p) : pageStarts s p = s ∧ pageStops s p = s := by
  obtain ⟨lane, chan, axis, eth, disp, loop, cmp, camera, claim⟩ := h
  have seen : ¬(p = pgLoop ∨ cameraPage p = true) := by simp [loop, camera]
  constructor
  · simp only [pageStarts, claim, lane, if_neg chan, if_neg disp, if_neg seen]
  · simp only [pageStops, claim, lane, if_neg axis, if_neg cmp, if_neg disp, if_neg seen, if_neg eth]

/-! ### EN and CLKREQ -/

theorem rd_setCtrl (s : State) (p : Nat) (en req : Bool) : rd (setCtrl s p en req) (ra p 0x10) = b2n en + 4 * b2n req := by
  have word : (b2n en + 4 * b2n req) % 2 ^ 32 = b2n en + 4 * b2n req := by cases en <;> cases req <;> rfl
  unfold setCtrl
  dsimp only
  split
  · rw [rd_wr_same, word]
  · rw [rd_wrf_other _ _ _ _ (by simp), rd_wr_same, word]

theorem wordsKept_setCtrl (s : State) (p : Nat) (en req : Bool) : wordsKept [ra p 0x10, ra p 0x14] s (setCtrl s p en req) := by
  have stored : wordsKept [ra p 0x10, ra p 0x14] s (wr s (ra p 0x10) (b2n en + 4 * b2n req)) :=
    (wordsKept_wr s _ _).mono (by simp)
  unfold setCtrl
  dsimp only
  split
  · exact stored
  · exact stored.trans ((wordsKept_wrf _ _ _ _ _).mono (by simp))

/-- A block that requests no clock has none (R33), but for the camera pages. -/
theorem clock_setCtrl (s : State) (camera : cameraPage p = false) : rdb (setCtrl s p false false) (ra p 0x14) 1 = false := by
  rw [setCtrl, camera]
  exact rdb_wrf_same _ _ _ _ (by decide)

theorem only_setCtrl (s : State) (p : Nat) (en req : Bool) : onlyChanges [.regs] s (setCtrl s p en req) :=
  (setCtrl_evolves s p en req (m := 1) rfl .rfl).only (by decide)

theorem wordsOnly_setCtrl (en req : Bool) (h : wordsOnly s p) : wordsOnly (setCtrl s p en req) p := by
  obtain ⟨lane, chan, axis, eth, disp, loop, cmp, camera, claim⟩ := h
  refine ⟨lane, chan, axis, eth, disp, loop, cmp, camera, ?_⟩
  rw [enableClaim, rdf_eq_of_rd (wordsKept_setCtrl s p en req (ra p 0x40) (by simp))]
  exact claim

/-- An enable that no check stops stores the bits, and starts or stops the block where EN changes. -/
theorem ctrlWrite_of_free {en : Bool} (req : Bool) (h : en = true → pgEn s p = false → claimFree s p = true) :
    ctrlWrite s p en req = if en && !pgEn s p then pageStarts (setCtrl s p en req) p
      else if !en && pgEn s p then pageStops (setCtrl s p en req) p else setCtrl s p en req := by
  have no : (en && !pgEn s p && !claimFree s p) = false := by
    cases en with
    | false => rfl
    | true =>
      cases on : pgEn s p with
      | true => rfl
      | false => rw [h rfl on]; rfl
  rw [ctrlWrite, no, if_neg (by decide)]

theorem ctrlWrite_of_claimed {c : Nat × Nat} (req : Bool) (off : pgEn s p = false) (claim : enableClaim s p = some c)
    (taken : claimable s c.1 c.2 = false) : ctrlWrite s p true req = setCtrl (conflict s c.1 c.2 p) p false req := by
  simp only [ctrlWrite, off, claimFree, claim, taken, Bool.not_false, Bool.and_self, if_true]

theorem rd_ctrlWrite {en : Bool} (req : Bool) (h : en = true → pgEn s p = false → claimFree s p = true) {a : Nat}
    (ha : a % 4096 < 0x24) : rd (ctrlWrite s p en req) a = rd (setCtrl s p en req) a := by
  rw [ctrlWrite_of_free req h]
  split_ifs
  · exact rd_pageStarts _ p ha
  · exact rd_pageStops _ p ha
  · rfl

theorem ctrlWrite_wordsOnly (en req : Bool) (h : wordsOnly s p) : ctrlWrite s p en req = setCtrl s p en req := by
  obtain ⟨starts, stops⟩ := pageStarts_wordsOnly (wordsOnly_setCtrl en req h)
  have claim : enableClaim s p = none := h.2.2.2.2.2.2.2.2
  rw [ctrlWrite_of_free req (fun _ _ => by simp [claimFree, claim]), starts, stops, ite_self, ite_self]

/-- What a write of EN and CLKREQ that no check stops leaves (R28, R33). -/
theorem ctrlWrite_stores {en : Bool} (req : Bool) (h : en = true → pgEn s p = false → claimFree s p = true) :
    rd (ctrlWrite s p en req) (ra p 0x10) = b2n en + 4 * b2n req ∧
      (en = false → req = false → cameraPage p = false → rdb (ctrlWrite s p en req) (ra p 0x14) 1 = false) ∧
      (wordsOnly s p → wordsKept [ra p 0x10, ra p 0x14] s (ctrlWrite s p en req) ∧
        onlyChanges [.regs] s (ctrlWrite s p en req)) := by
  have low (o : Nat) (ho : o < 0x24) : rd (ctrlWrite s p en req) (ra p o) = rd (setCtrl s p en req) (ra p o) :=
    rd_ctrlWrite req h (by simp only [ra]; omega)
  refine ⟨?_, fun noEn noReq camera => ?_, fun words => ?_⟩
  · rw [low _ (by decide), rd_setCtrl]
  · rw [rdb, low _ (by decide)]
    subst noEn noReq
    exact clock_setCtrl s camera
  · rw [ctrlWrite_wordsOnly en req words]
    exact ⟨wordsKept_setCtrl s p en req, only_setCtrl s p en req⟩

theorem exec_blockEnable {rq : Requester} {en req : Bool} (header : isHeader p = true) (allowed : ctrlRefused s p en = false) :
    exec (.blockEnable rq p en req) s = .next (if p = pgLoop then loopCtrl s en req else ctrlWrite s p en req) := by
  simp only [exec, execBlockEnable, blockEnable, header, allowed, Bool.true_eq_false, Bool.false_eq_true, if_false]

theorem ctrlRefused_enable (s : State) (p : Nat) : ctrlRefused s p true = false := by simp [ctrlRefused]

/-- A claim that fails names the claimant and sets CONFLICT on PIN and on its page (R50). -/
theorem conflict_reports {c : Nat × Nat} (header : headerOf p = p) (claim : enableClaim s p = some c) :
    (evPend (conflict s c.1 c.2 p) p).testBit 5 = true ∧ (evPend (conflict s c.1 c.2 p) pgPin).testBit 5 = true ∧
      rdf (conflict s c.1 c.2 p) c.1 11 8 = c.2 ∧ rdf (conflict s c.1 c.2 p) c.1 3 0 = rdf s c.1 3 0 := by
  obtain ⟨page, off, code, own⟩ := enableClaim_addr claim
  have noEvent (q : Nat) : c.1 ≠ ra q 0x24 := by rintro h; rw [h] at off; simp only [ra] at off; omega
  have notPin : ra p 0x24 ≠ ra pgPin 0x24 := by simp only [ra, pgPin]; omega
  have word : rd (conflict s c.1 c.2 p) c.1 = rd (wrf s c.1 11 8 c.2) c.1 := by
    rw [conflict, rd_ev, if_neg (noEvent _), rd_ev, if_neg (noEvent _)]
  have raisedOwn := raised_ev (ev (wrf s c.1 11 8 c.2) pgPin 5) p (b := 5) (by decide)
  have raisedPin := raised_ev (wrf s c.1 11 8 c.2) pgPin (b := 5) (by decide)
  refine ⟨?_, ?_, ?_, ?_⟩
  · rw [conflict, header, raisedOwn, Nat.testBit_or, Nat.testBit_two_pow_self, Bool.or_true]
  · rw [conflict, header, evPend, rd_ev, if_neg notPin.symm]
    rw [raised, evPend] at raisedPin
    rw [raisedPin, Nat.testBit_or, Nat.testBit_two_pow_self, Bool.or_true]
  · rw [rdf, word]
    refine (rdf_wrf_same s c.1 c.2 (by decide) (by decide)).trans ?_
    rcases code with h | h <;> simp [h]
  · rw [rdf, word]
    exact rdf_wrf_beside s c.1 c.2 (by decide) (by decide) (by decide)

theorem loopCheck_lt (s : State) : loopCheck s < 5 := by
  unfold loopCheck
  dsimp only
  split_ifs <;> decide

/-- An enable of the loop whose check fails leaves EN 0 with the reason (R315). -/
theorem loopCtrl_refused (off : pgEn s pgLoop = false) (bad : loopCheck s ≠ 0) (req : Bool) :
    rd (loopCtrl s true req) (ra pgLoop 0x10) = 4 * b2n req ∧ raised s (loopCtrl s true req) pgLoop 4 ∧
      rd (loopCtrl s true req) (loopA 0x74) = loopCheck s := by
  have runs : loopCtrl s true req = wr (setCtrl (refuse s pgLoop) pgLoop false req) (loopA 0x74) (loopCheck s) := by
    simp [loopCtrl, off, bad]
  have small := loopCheck_lt s
  rw [runs]
  refine ⟨?_, ?_, ?_⟩
  · rw [rd_wr, if_neg (by simp [loopA]), rd_setCtrl]
    exact Nat.zero_add _
  · rw [raised, evPend, rd_wr, if_neg (by simp [loopA]), wordsKept_setCtrl _ _ _ _ _ (by simp)]
    exact raised_ev s pgLoop (by decide)
  · rw [rd_wr_same, Nat.mod_eq_of_lt (by omega)]

theorem clockStart_next (starts : isHeader p = true) (asked : rd s (ra p 0x10) &&& 5 ≠ 0)
    (awake : dozing s = false ∨ dozePage p = true) : exec (.clockStart p) s = .next (clockOn s p) := by
  have run : (isHeader p && (rd s (ra p 0x10) &&& 5 != 0) && (!dozing s || dozePage p)) = true := by
    simpa [starts, asked] using awake
  simp only [exec, execClockStart, run, if_true]

theorem clockOn_starts (s : State) (p : Nat) :
    rdb (clockOn s p) (ra p 0x14) 1 = true ∧ wordsKept [ra p 0x14] s (clockOn s p) ∧
      (clockOn s p).power = { s.power with camPll := cameraPage p || s.power.camPll } ∧
      onlyChanges [.regs, .power] s (clockOn s p) := by
  have starts : rdb (wrf s (ra p 0x14) 1 1 1) (ra p 0x14) 1 = true := rdb_wrf_same _ _ _ _ (by decide)
  have kept := wordsKept_wrf s (ra p 0x14) 1 1 1
  have frame : Evolves 262145 s (clockOn s p) := clockOn_evolves s p rfl .rfl
  refine ⟨?_, ?_, ?_, frame.only (by decide)⟩ <;> unfold clockOn <;> dsimp only <;> cases camera : cameraPage p
  · exact starts
  · exact starts
  · exact kept
  · exact kept
  · rfl
  · rfl

theorem blockEnableRule : BlockEnableRule := by
  refine ⟨fun s rq p en req => ⟨fun none => ?_, fun header refused => ?_, fun header allowed free => ?_,
    fun header enables off other c claim taken => ?_, fun enables off bad => ?_⟩, fun s p => ⟨fun idle => ?_, fun header asked awake =>
      ⟨_, clockStart_next header asked awake, clockOn_starts s p⟩⟩⟩
  · simp [exec, execBlockEnable, blockEnable, none]
  · refine ⟨_, ?_, ev_turns_away s p (by decide)⟩
    simp [exec, execBlockEnable, blockEnable, header, refused, refuse, headerOf_of_isHeader header]
  · refine ⟨_, exec_blockEnable header allowed, ?_⟩
    have loop (h : p = pgLoop) : loopCtrl s en req = ctrlWrite s p en req := by
      have passes : (en && !pgEn s pgLoop && loopCheck s != 0) = false := by
        cases en with
        | false => rfl
        | true =>
          cases on : pgEn s pgLoop with
          | true => rfl
          | false => simp [(free rfl (h ▸ on)).2 h]
      rw [loopCtrl, passes, if_neg (by decide), h]
    rw [show (if p = pgLoop then loopCtrl s en req else ctrlWrite s p en req) = ctrlWrite s p en req by
      split
      · next h => exact loop h
      · rfl]
    exact ctrlWrite_stores req (fun on off => (free on off).1)
  · subst enables
    have run := exec_blockEnable (rq := rq) (req := req) header (ctrlRefused_enable s p)
    rw [if_neg other, ctrlWrite_of_claimed req off claim taken] at run
    obtain ⟨own, pin, code, owner⟩ := conflict_reports (headerOf_of_isHeader header) claim
    have kept := wordsKept_setCtrl (conflict s c.1 c.2 p) p false req
    have resource : c.1 ∉ [ra p 0x10, ra p 0x14] := by
      have := (enableClaim_addr claim).2.1
      simp only [List.mem_cons, List.not_mem_nil, or_false, ra]
      rintro (h | h) <;> rw [h] at this <;> omega
    refine ⟨_, run, ?_, ?_, ?_, ?_, ?_⟩
    · rw [rd_setCtrl]
      exact Nat.zero_add _
    · rw [evPend, kept _ (by simp)]
      exact own
    · rw [evPend, kept _ (by simp only [List.mem_cons, List.not_mem_nil, or_false, ra, pgPin]; omega)]
      exact pin
    · rw [rdf, kept _ resource]
      exact code
    · rw [rdf, kept _ resource]
      exact owner
  · subst enables
    exact ⟨_, exec_blockEnable rfl (ctrlRefused_enable s pgLoop), loopCtrl_refused off bad req⟩
  · have no : (isHeader p && (rd s (ra p 0x10) &&& 5 != 0) && (!dozing s || dozePage p)) = false := by
      rcases idle with h | h | ⟨h, g⟩
      · rw [h]; rfl
      · rw [h]; simp
      · rw [h, g]; simp
    simp only [exec, execClockStart, no, Bool.false_eq_true, if_false]

end Sys2Proof.Machine
end

section
/-! PROOFS. BlockResetRule (R31, R32, R475): what SRST of a block clears and what it leaves, and SRST of SYS. -/

namespace Sys2Proof.Machine
open Sys2Proof

variable {s : State} {p : Nat}

/-! ### Tables that lose the entries of a block -/

theorem tget_filter {α : Type} (d : Nat → α) (t : Tab α) (f : Nat → Bool) (k : Nat) :
    tget d (t.filter (fun e => f e.1)) k = if f k then tget d t k else d k := by
  induction t with
  | nil => simp
  | cons x t ih =>
    rw [List.filter_cons]
    split
    · next keep =>
      unfold tget
      split
      · next here => simp [← here, keep]
      · exact ih
    · next drop =>
      rw [ih]
      split
      · next keep =>
        have other : x.1 ≠ k := by rintro rfl; exact drop keep
        rw [tget, if_neg other]
      · rfl

theorem tget_no_key {α : Type} (d : Nat → α) (t : Tab α) (f : Nat → Bool) {k : Nat} (h : f k = false) :
    tget d (t.filter (fun e => f e.1)) k = d k := by rw [tget_filter, h, if_neg (by decide)]

/-! ### Folds and conditions -/

/-- A property that each element of a list keeps holds after the whole list. -/
theorem foldl_kept {α β : Type} {f : β → α → β} (P : β → Prop) {l : List α} (step : ∀ b, ∀ x ∈ l, P b → P (f b x)) {b : β}
    (start : P b) : P (l.foldl f b) :=
  List.foldlRecOn l f start (fun b hb x hx => step b x hx hb)

theorem ite_keeps {β : Type} (g : State → β) {c : Prop} [Decidable c] {x y : State} {w : β} (h : c → g x = w)
    (k : ¬c → g y = w) : g (if c then x else y) = w := by
  split
  · next yes => exact h yes
  · next no => exact k no

/-! ### What freeing resources and resetting engines leave -/

theorem rd_freeUse (s : State) (h : Nat) {a : Nat} (pin : a / 4096 ≠ pgPin) : rd (freeUse s h) a = rd s a := by
  refine foldl_kept (fun u => rd u a = rd s a) (fun u r hr kept => ?_) rfl
  have bound : r < 36 := List.mem_range.1 hr
  refine ite_keeps (rd · a) (fun _ => (rd_wrf_other _ _ _ _ ?_).trans kept) (fun _ => kept)
  rintro rfl
  refine pin ?_
  split <;> (simp only [ra, pgPin]; omega)

theorem rd_hostPin (old s : State) (a : Nat) : rd (hostPin old s) a = rd s a :=
  (hostPin_evolves old s (m := 8388672) rfl .rfl).rd_eq rfl a

theorem rd_setRole (s : State) (r a : Nat) : rd (setRole s r) a = rd s a :=
  (setRole_evolves s r (m := 8438080) rfl .rfl).rd_eq rfl a

/-- Words and counters of a state. -/
def registerFile (s : State) : Tab Word × Tab Nat := (s.regs, s.counters)

theorem Evolves.registerFile {m : Nat} {s t : State} (h : Evolves m s t) (regs : m.testBit 0 = false)
    (counters : m.testBit 6 = false) : registerFile t = registerFile s :=
  Prod.ext (h.same .regs regs) (h.same .counters counters)

/-- Apart from the event controller, the pair, the loop and the display, no engine that is reset touches words or counters. -/
theorem registerFile_engineReset (s : State) (h : Nat) (evc : h ≠ pgEvc) (pair : h ≠ pgPair) (loop : h ≠ pgLoop) (disp : h ≠ pgDisp) :
    registerFile (engineReset s h) = registerFile s := by
  unfold engineReset
  split
  · rfl
  · rw [if_neg evc]
    refine ite_keeps registerFile (fun _ => rfl) fun _ => ite_keeps registerFile (fun _ => rfl) fun _ =>
      ite_keeps registerFile (fun _ => rfl) fun _ => ite_keeps registerFile (fun _ => ?_) fun _ =>
      ite_keeps registerFile (fun _ => rfl) fun _ => ite_keeps registerFile (fun _ => ?_) fun _ =>
      ite_keeps registerFile (fun _ => rfl) fun _ => ite_keeps registerFile (fun _ => rfl) fun _ =>
      ite_keeps registerFile (fun _ => rfl) fun _ => ite_keeps registerFile (fun _ => rfl) fun _ =>
      ite_keeps registerFile (fun _ => rfl) fun _ => ite_keeps registerFile (fun _ => rfl) fun _ => ?_
    · exact (flashCut_evolves s (m := 5242880) rfl .rfl).registerFile rfl rfl
    · exact (ptcSource_evolves _ (m := 256) rfl .rfl).registerFile rfl rfl
    · rw [if_neg loop, if_neg pair]
      refine ite_keeps registerFile (fun _ => rfl) fun _ => ite_keeps registerFile (fun _ => rfl) fun _ => ?_
      rw [if_neg disp]
      exact ite_keeps registerFile (fun _ => rfl) fun _ => rfl

theorem rd_of_registerFile {t : State} (h : registerFile t = registerFile s) (a : Nat) : rd t a = rd s a := by
  rw [rd, show t.regs = s.regs from congrArg Prod.fst h, rd]

theorem counter_of_registerFile {t : State} (h : registerFile t = registerFile s) (q j : Nat) : counter t q j = counter s q j := by
  rw [counter, show t.counters = s.counters from congrArg Prod.snd h, counter]

theorem engineReset_evc (s : State) : engineReset s pgEvc = hostPin s (setEvc s { gpio := s.evc.gpio }) := rfl

theorem engineReset_pair (s : State) :
    engineReset s pgPair = setRole { s with pair := { sameUnit := s.pair.sameUnit } } (if pairMode s then 1 else 0) := rfl

theorem engineReset_disp (s : State) :
    engineReset s pgDisp = dispStart (setDisp s { hpd := s.disp.hpd, maxRate := s.disp.maxRate, maxLanes := s.disp.maxLanes }) := rfl

theorem engineReset_loop (s : State) : engineReset s pgLoop = checkCamera { s with cams := { s.cams with
    windows := [], patches := [], expected := [], changed := [], armed := [], atLimit := [], noData := [],
    ladderCount := [], ladderRead := [], ladderLine := none, limitSeen := [], ownWindows := [], ownLadder := none,
    aim := [], lastDm := [], lastDe := [] } } := rfl

/-- The engines of a block that is reset write no word, but for an event of the camera check and of the display link. -/
theorem rd_engineReset (s : State) (h : Nat) {a : Nat} (event : h = pgLoop ∨ h = pgDisp → a % 4096 ≠ 0x24) :
    rd (engineReset s h) a = rd s a := by
  by_cases evc : h = pgEvc
  · rw [evc, engineReset_evc]
    exact rd_hostPin _ _ a
  · by_cases pair : h = pgPair
    · rw [pair, engineReset_pair]
      exact rd_setRole _ _ a
    · by_cases loop : h = pgLoop
      · rw [loop, engineReset_loop]
        exact rd_checkCamera _ (event (.inl loop))
      · by_cases disp : h = pgDisp
        · rw [disp, engineReset_disp]
          exact rd_dispStart _ (event (.inr disp))
        · exact rd_of_registerFile (registerFile_engineReset s h evc pair loop disp) a

/-- A record below class D counts on SYS and on the event controller only. -/
theorem counter_fault (s : State) (code page bar : Nat) {cls q j : Nat} (h : cls < 3) (d : List Nat) (sys : q ≠ pgSys)
    (evc : q ≠ pgEvc) (hj : j < 128) : counter (fault s code cls page bar d) q j = counter s q j := by
  have sysCount (u : State) {k : Nat} (hk : k < 128) : counter (count u pgSys k) q j = counter u q j := by
    rw [counter_count, if_neg (by simp only [pgSys] at sys ⊢; omega)]
  have armed (u : State) (c : Prop) [Decidable c] : counter (if c then armSnapshot u 2 else u) q j = counter u q j := by
    split <;> rfl
  have entered (r : FaultRecord) : counter (ramEnter s r) q j = counter s q j := by
    refine Eq.trans (b := counter (if s.sys.ramLog.length < 1024 then s else count s pgSys 4) q j) rfl ?_
    split
    · rfl
    · exact sysCount s (by decide)
  have kept (u : State) (r : FaultRecord) : counter (nvEnter u r) q j = counter u q j :=
    (nvEnter_evolves u r (m := 1048576) rfl .rfl).counter_eq rfl q j
  simp only [fault, faultAt, if_neg (show cls ≠ 3 by omega), armed, counter_ev evc hj, sysCount _ (show cls < 128 by omega)]
  exact (kept _ _).trans (entered _)

theorem counter_checkCamera (s : State) {q j : Nat} (sys : q ≠ pgSys) (evc : q ≠ pgEvc) (hj : j < 128) :
    counter (checkCamera s) q j = counter s q j := by
  unfold checkCamera
  dsimp only
  split_ifs
  · rfl
  · exact counter_fault _ _ _ _ (by decide) _ sys evc hj
  · rfl

/-- The counters of a block other than the event controller, the pair and the display stay when its engines are reset. -/
theorem counter_engineReset (s : State) {h j : Nat} (sys : h ≠ pgSys) (evc : h ≠ pgEvc) (pair : h ≠ pgPair) (disp : h ≠ pgDisp)
    (hj : j < 128) : counter (engineReset s h) h j = counter s h j := by
  by_cases loop : h = pgLoop
  · subst loop
    rw [engineReset_loop]
    exact counter_checkCamera _ sys evc hj
  · exact counter_of_registerFile (registerFile_engineReset s h evc pair loop disp) h j

/-! ### Block reset -/

/-- The tables without the entries of a block, with no commit pending. -/
def blockCleared (s : State) (h : Nat) : State :=
  let u := freeUse s h
  let v := { u with
    regs := u.regs.filter (fun e => !blockWord h e.1)
    committed := u.committed.filter (fun e => !blockWord h e.1)
    held := u.held.filter (fun e => !blockWord h e.1)
    counters := u.counters.filter (fun e => e.1 / 128 != h) }
  wr v (ra h 0x18) (rd v (ra h 0x18) &&& 0xA)

theorem blockReset_eq (s : State) (h : Nat) :
    blockReset s h = ptShowAll s (gpioShow s (engineReset (blockCleared s h) h)) := rfl

theorem shown_evolves (s u : State) : Evolves 8388608 u (ptShowAll s (gpioShow s u)) :=
  ptShowAll_evolves s _ rfl (gpioShow_evolves s u rfl .rfl)

theorem rd_blockReset (s : State) (h : Nat) {a : Nat} (event : h = pgLoop ∨ h = pgDisp → a % 4096 ≠ 0x24) :
    rd (blockReset s h) a = rd (blockCleared s h) a := by
  rw [blockReset_eq, (shown_evolves _ _).rd_eq rfl]
  exact rd_engineReset _ _ event

/-- A word of the block reads its reset value, and any other word outside PIN what it read. -/
theorem rd_blockCleared (s : State) (h : Nat) {a : Nat} (commit : a ≠ ra h 0x18) :
    rd (blockCleared s h) a = if blockWord h a then (regReset a).toNat else rd (freeUse s h) a := by
  unfold blockCleared
  rw [rd_wr, if_neg commit, rd, tget_filter _ _ (fun k => !blockWord h k)]
  cases blockWord h a <;> rfl

theorem cm_blockReset (s : State) (h : Nat) {a : Nat} (word : blockWord h a = true) :
    cm (blockReset s h) a = (regReset a).toNat := by
  have committed : (blockReset s h).committed = (freeUse s h).committed.filter (fun e => !blockWord h e.1) := by
    rw [blockReset_eq]
    exact ((shown_evolves _ _).same .committed rfl).trans
      ((engineReset_evolves (blockCleared s h) h (m := 16777025) rfl .rfl).same .committed rfl)
  rw [cm, committed, tget_no_key _ _ (fun k => !blockWord h k) (by simp [word])]

theorem blockWord_off {h a : Nat} (word : blockWord h a = true) : a % 4096 = 0x24 ∨ 0x40 ≤ a % 4096 := by
  simp only [blockWord, Bool.and_eq_true, decide_eq_true_eq] at word
  have last := word.2
  split at last
  · simp only [Bool.and_eq_true, decide_eq_true_eq] at last
    omega
  · simp only [Bool.or_eq_true, decide_eq_true_eq, beq_iff_eq] at last
    omega

theorem alwaysOn_off {a : Nat} (h : alwaysOn a = true) : a % 4096 ≠ 0x24 := by
  simp only [alwaysOn, Bool.or_eq_true, beq_iff_eq, Bool.and_eq_true, decide_eq_true_eq] at h
  simp only [clkA, ra, pgSys, pgPair, pgClk, pgNvm, pgTrim, pgJrn] at h
  omega

/-- EV_PEND is a word of its block, and resets to 0. -/
theorem blockWord_evPend (header : isHeader p = true) : blockWord p (ra p 0x24) = true := by
  have bound := isHeader_lt header
  have page : ra p 0x24 / 4096 = p := by simp only [ra]; omega
  have known : (pageInfo p).isSome = true := by
    unfold isHeader at header
    split at header
    · next h => rw [h]; rfl
    · simp at header
  have off : ra p 0x24 % 4096 = 0x24 := by simp only [ra]; omega
  have kept : alwaysOn (ra p 0x24) = false := Bool.eq_false_iff.2 (fun on => alwaysOn_off on off)
  have own : ¬(p = pgEvc ∧ p ≠ pgEvc) := fun h => h.2 h.1
  have small : ra p 0x24 < 0x400000 := by simp only [ra]; omega
  simp only [blockWord, page, known, headerOf_of_isHeader header, kept, if_neg own, off, decide_eq_true small,
    beq_self_eq_true, Bool.or_true, Bool.and_true, Bool.not_false]

theorem regs_below_header : ∀ p : Fin 256, (pageInfo p).all (fun i => i.regs.all (fun r => decide (0x40 ≤ r.off))) = true := by
  decide +kernel

theorem regReset_evPend (bound : p < 256) : (regReset (ra p 0x24)).toNat = 0 := by
  have page : ra p 0x24 / 4096 = p := by simp only [ra]; omega
  have off : ra p 0x24 % 4096 = 0x24 := by simp only [ra]; omega
  have undefined : regSpec (ra p 0x24) = none := by
    have below := regs_below_header ⟨p, bound⟩
    rw [regSpec, page, off]
    cases info : pageInfo p with
    | none => rfl
    | some i =>
      simp only [info, Option.all_some, List.all_eq_true, decide_eq_true_eq] at below
      refine List.find?_eq_none.2 (fun r hr => ?_)
      have := below r hr
      simp only [RegSpec.holds, Bool.and_eq_true, decide_eq_true_eq, not_and]
      omega
  have source : srccfgSource (ra p 0x24) = none := by
    have addr : ra p 0x24 = p * 4096 + 0x24 := rfl
    rw [srccfgSource, if_neg (by omega), if_neg (by omega)]
  rw [regReset, if_neg (by simp only [ra]; omega), if_neg (by simp only [ra]; omega), source]
  simp only [undefined]
  rfl

theorem srst_block (header : isHeader p = true) (sys : p ≠ pgSys) (free : pageInUse s p = false) (rq : Requester) :
    exec (.srst rq p) s = .next (wrf (blockReset s p) (ra p 0x10) 1 1 1) := by
  simp only [exec, execSrst, srst, header, free, if_neg sys, Bool.true_eq_false, Bool.false_eq_true, if_false]

theorem srst_block_clears (header : isHeader p = true) (sys : p ≠ pgSys) :
    let t := wrf (blockReset s p) (ra p 0x10) 1 1 1
    (∀ a, blockWord p a = true → cm t a = (regReset a).toNat ∧ (a % 4096 ≠ 0x24 → rd t a = (regReset a).toNat)) ∧
      commitPending t p = false ∧ rdb t (ra p 0x10) 1 = true ∧
      (p ≠ pgEvc → p ≠ pgPair → p ≠ pgDisp → (∀ k, k < 128 → counter t p k = 0)) ∧
      (p ≠ pgLoop → p ≠ pgDisp → evPend t p = 0) ∧
      (p ∉ [pgEvc, pgPair, pgDisp, pgLoop, pgNvm] →
        ∀ a, blockWord p a = false → a ≠ ra p 0x10 → a ≠ ra p 0x18 → a / 4096 ≠ pgPin → rd t a = rd s a) := by
  intro t
  have words : wordsKept [ra p 0x10] (blockReset s p) t := wordsKept_wrf _ _ _ _ _
  have header24 : ra p 0x24 % 4096 = 0x24 := by simp only [ra]; omega
  refine ⟨fun a word => ⟨?_, fun event => ?_⟩, ?_, rdb_wrf_same _ _ _ _ (by decide), fun evc pair disp k hk => ?_,
    fun loop disp => ?_, fun plain a word ctrl commit pin => ?_⟩
  · exact cm_blockReset s p word
  · have off := blockWord_off word
    have low (o : Nat) (ho : o < 0x24) : a ≠ ra p o := by rintro rfl; simp only [ra] at off; omega
    rw [words a (by simpa using low 0x10 (by decide)), rd_blockReset s p (fun _ => event),
      rd_blockCleared s p (low 0x18 (by decide)), if_pos word]
  · rw [commitPending, rdb, words _ (by simp), rd_blockReset s p (fun _ => by simp only [ra]; omega)]
    refine (rdb_wr_same _ _ _ (by decide)).trans ?_
    rw [bitOf, Nat.testBit_and, show Nat.testBit 0xA 2 = false from rfl, Bool.and_false]
  · have reset : counter (blockCleared s p) p k = 0 :=
      tget_no_key _ _ (fun e => e / 128 != p) (by simp only [bne_eq_false_iff_eq]; omega)
    rw [show counter t p k = counter (blockReset s p) p k from rfl, blockReset_eq, (shown_evolves _ _).counter_eq rfl,
      counter_engineReset _ sys evc pair disp hk, reset]
  · rw [evPend, words _ (by simp), rd_blockReset s p (fun h => absurd h (by simp [loop, disp])), rd_blockCleared s p (by simp),
      if_pos (blockWord_evPend header), regReset_evPend (isHeader_lt header)]
  · simp only [List.mem_cons, List.not_mem_nil, or_false, not_or] at plain
    rw [words a (by simpa using ctrl), rd_blockReset s p (fun h => absurd h (by simp [plain])), rd_blockCleared s p commit,
      if_neg (by simp [word]), rd_freeUse s p pin]

/-! ### Reset of the unit -/

/-- The logs and the boot state without the bytes of the flash. -/
def recordKeeping (s : State) : Sys := { s.sys with flash := [] }

theorem recordKeeping_setFlashPage (s : State) (n : Nat) (bs : List Byte) :
    recordKeeping (setFlashPage s n bs) = recordKeeping s := rfl

theorem recordKeeping_setSector (s : State) (page : Nat) (f : Nat → List Byte) :
    recordKeeping (setSector s page f) = recordKeeping s := by
  unfold setSector
  generalize List.range 256 = pages
  exact foldl_keeps recordKeeping (fun u i => recordKeeping_setFlashPage u (page + i) (f i)) pages s

/-- A reset that cuts a program or erase short leaves the unit's record keeping; only bytes of the flash are spoilt. -/
theorem recordKeeping_flashCut (s : State) : recordKeeping (flashCut s) = recordKeeping s := by
  have spoilt (op : Nat) : recordKeeping (spoil s op) = recordKeeping s := by
    unfold spoil
    refine ite_keeps recordKeeping (fun _ => ?_) (fun _ => ?_)
    · rw [recordKeeping_setSector]
      rfl
    · rw [recordKeeping_setFlashPage]
      rfl
  exact ite_keeps recordKeeping (fun _ => spoilt _) (fun _ => rfl)

theorem ramLog_flashCut (s : State) : (flashCut s).sys.ramLog = s.sys.ramLog := by
  have kept := congrArg Sys.ramLog (recordKeeping_flashCut s)
  exact kept

/-- The unit after a reset of its volatile domains, before image memory is put in self-refresh: the words that the always-on
domain keeps, and the parts that survive with image memory (R417, R474). -/
theorem volatileReset_eq (s : State) (keep : Bool) :
    ∃ u : State, volatileReset s keep = ptShowAll (flashCut s) (if keep then selfRefresh u else u) ∧
      u.regs = (flashCut s).regs.filter (fun e => alwaysOn e.1) ∧ u.committed = [] ∧ u.clk = {} ∧
      u.dram.mem = (if keep then (flashCut s).dram.mem else []) ∧
      u.print = (if keep then keptPrint (flashCut s) else {}) ∧
      u.sys.ramLog = (if keep then (flashCut s).sys.ramLog else []) :=
  ⟨_, rfl, rfl, rfl, rfl, by cases keep <;> rfl, rfl, rfl⟩

/-- Self-refresh changes words of STAT of the memory controllers only, and no byte of image memory (R143). -/
theorem selfRefresh_leaves (s : State) : (selfRefresh s).dram.mem = s.dram.mem ∧
    ∀ a, a % 4096 ≠ 0x40 ∨ a / 4096 < 0x28 ∨ 0x2C ≤ a / 4096 → rd (selfRefresh s) a = rd s a := by
  refine ⟨foldl_kept (fun u : State => u.dram.mem = s.dram.mem) (fun u k _ kept => ?_) rfl, fun a ha =>
    foldl_kept (fun u => rd u a = rd s a) (fun u k hk kept => ?_) rfl⟩
  · exact ite_keeps (fun v => v.dram.mem) (fun _ => kept) (fun _ => kept)
  · have bound : k < 8 := List.mem_range.1 hk
    refine ite_keeps (rd · a) (fun _ => kept) (fun _ => Eq.trans (rd_wrf_other _ _ _ _ ?_) kept)
    rintro rfl
    simp only [ra, pgDrc] at ha
    omega

/-- A reset of the volatile domains that keeps image memory keeps its bytes, the words of the always-on domain and the RAM
log (R82, R143, R417, R486). -/
theorem volatileReset_keeps (s : State) :
    (volatileReset s true).dram.mem = s.dram.mem ∧ (volatileReset s true).committed = [] ∧
      (volatileReset s true).sys.ramLog = s.sys.ramLog ∧ (volatileReset s true).print = keptPrint s ∧
      (volatileReset s true).clk = {} ∧ ∀ a, alwaysOn a = true → rd (volatileReset s true) a = rd s a := by
  obtain ⟨u, runs, regs, committed, clk, mem, print, log⟩ := volatileReset_eq s true
  have cut : Evolves 5242880 s (flashCut s) := flashCut_evolves s rfl .rfl
  have shown : Evolves 8388608 (selfRefresh u) (volatileReset s true) := by
    rw [runs]
    exact ptShowAll_evolves _ _ rfl .rfl
  have slept : Evolves 8390657 u (selfRefresh u) := selfRefresh_evolves u rfl .rfl
  have prints : keptPrint (flashCut s) = keptPrint s := by rw [keptPrint, cut.same .print rfl, keptPrint]
  refine ⟨?_, ?_, ?_, ?_, ?_, fun a on => ?_⟩
  · rw [shown.same .dram rfl, (selfRefresh_leaves u).1, mem, if_pos rfl, cut.same .dram rfl]
  · rw [shown.same .committed rfl, slept.same .committed rfl, committed]
  · rw [shown.same .sys rfl, slept.same .sys rfl, log, if_pos rfl, ramLog_flashCut]
  · rw [shown.same .print rfl, slept.same .print rfl, print, if_pos rfl, prints]
  · rw [shown.same .clk rfl, slept.same .clk rfl, clk]
  · have page : a % 4096 ≠ 0x40 ∨ a / 4096 < 0x28 ∨ 0x2C ≤ a / 4096 := by
      simp only [alwaysOn, Bool.or_eq_true, beq_iff_eq, Bool.and_eq_true, decide_eq_true_eq] at on
      simp only [clkA, ra, pgSys, pgPair, pgClk, pgNvm, pgTrim, pgJrn] at on
      omega
    rw [shown.rd_eq rfl, (selfRefresh_leaves u).2 a page, rd, regs, tget_filter _ _ alwaysOn, if_pos on]
    exact cut.rd_eq rfl a

/-- Releasing the outputs tells the IO nodes; of the words only the one of the IO nodes changes (R23, R513). -/
theorem releaseOutputs_leaves (s : State) : wordsKept [ra pgFlng 0x7C] s (releaseOutputs s) ∧
    onlyChanges [.regs, .counters, .links, .out] s (releaseOutputs s) := by
  refine ⟨?_, (releaseOutputs_evolves s (m := 8396865) rfl .rfl).only (by decide)⟩
  unfold releaseOutputs
  split
  · exact fun _ _ => rfl
  · intro a ha
    exact ((ioResend_evolves _ (m := 8396864) rfl .rfl).rd_eq rfl a).trans (wordsKept_wrf _ _ _ _ _ a ha)

theorem rd_startBoot (s : State) (cause core a : Nat) :
    rd (startBoot s cause core) a = rd (wr s (ra pgSys 0x50) (cause + 16 * (core % 4))) a := rfl

theorem srst_sys (idle : anyPrinting s = false) (rq : Requester) :
    exec (.srst rq pgSys) s = .next (startBoot (volatileReset (releaseOutputs s) true) 3 0) := by
  have header : isHeader pgSys = true := rfl
  simp only [exec, execSrst, srst, header, idle, Bool.true_eq_false, Bool.false_eq_true, if_false, if_true]

theorem srst_sys_clears (s : State) :
    let t := startBoot (volatileReset (releaseOutputs s) true) 3 0
    t.sys.bootState = 0 ∧ t.sys.cause = 3 ∧ rd t (ra pgSys 0x50) = 3 ∧ t.dram.mem = s.dram.mem ∧ t.committed = [] ∧
      t.sys.ramLog = s.sys.ramLog ∧ t.print.tiles.length = s.print.tiles.length ∧ t.clk.sec = 0 ∧ t.clk.ns = 0 ∧
      (∀ a, alwaysOn a = true → a ≠ ra pgSys 0x50 → rd t a = rd s a) := by
  intro t
  obtain ⟨mem, committed, log, print, clk, words⟩ := volatileReset_keeps (releaseOutputs s)
  have released : Evolves 8396865 s (releaseOutputs s) := releaseOutputs_evolves s rfl .rfl
  refine ⟨rfl, rfl, (rd_startBoot _ _ _ _).trans (rd_wr_same _ _ _), mem.trans (by rw [released.same .dram rfl]), committed,
    log.trans (by rw [released.same .sys rfl]), ?_, ?_, ?_, fun a on other => ?_⟩
  · rw [show t.print = keptPrint (releaseOutputs s) from print, keptPrint, released.same .print rfl, List.length_map]
  · rw [show t.clk = {} from clk]
  · rw [show t.clk = {} from clk]
  · rw [rd_startBoot]
    refine (wordsKept_wr _ _ _ a (by simpa using other)).trans ((words a on).trans ((releaseOutputs_leaves s).1 a ?_))
    simp only [List.mem_singleton]
    rintro rfl
    exact absurd on (by decide)

theorem blockResetRule : BlockResetRule := by
  refine ⟨fun s rq p => ⟨fun none => ?_, fun header used => ?_, fun header sys free =>
    ⟨_, srst_block header sys free rq, srst_block_clears header sys⟩, fun sys idle => ?_⟩, fun s p => ⟨fun none => ?_, fun header => ?_⟩⟩
  · simp [exec, execSrst, srst, none]
  · refine ⟨_, ?_, ev_turns_away s p (by decide)⟩
    by_cases sys : p = pgSys
    · subst sys
      simp only [if_true] at used
      simp [exec, execSrst, srst, header, used, refuse, headerOf_of_isHeader header]
    · simp only [if_neg sys] at used
      simp [exec, execSrst, srst, header, used, sys, refuse, headerOf_of_isHeader header]
  · subst sys
    exact ⟨_, srst_sys idle rq, srst_sys_clears s⟩
  · simp [exec, execSrstDone, none]
  · refine ⟨wrf s (ra p 0x10) 1 1 0, by simp [exec, execSrstDone, header], rdb_wrf_same _ _ _ _ (by decide),
      wordsKept_wrf _ _ _ _ _, (wrf_evolves _ _ _ _ _ (m := 1) rfl .rfl).only (by decide)⟩

end Sys2Proof.Machine

namespace Sys2Proof.Proofs
open Sys2Proof Sys2Proof.Machine

/-- Settles O14: its three rules, of the snapshots, of enables and clocks, and of the resets of blocks. -/
theorem snapshotsAndBlocks : Obligations.SnapshotsAndBlocks := ⟨snapshotsRule, blockEnableRule, blockResetRule⟩

end Sys2Proof.Proofs
end

section
/-! PROOFS. UdpSessions fails (R65): a reset leaves the journal to sessions that it frees (R82), and a HELLO that opens such a
session again forgets their commands, where the statement has the journal stay. -/

namespace Sys2Proof.Machine
open Sys2Proof

/-- A command that the journal holds for session 1. -/
def orphanEntry : JEntry :=
  { stamp := 0, session := 1, seq := 1, ring := 0, entry := [], data := [], state := 0, progress := 0, status := 0,
    result0 := 0, result1 := 0, result := [], imageLine := 0, ptNs := 0, ptSec := 0, webPos := 0, replayed := false,
    peer := false, written := false, withheld := false, late := false, ready := true, pairSeq := 0, wpos := none,
    waiting := false }

/-- A single unit with Ethernet port 0 up as Host port, every session free, and a command of session 1 in the journal. -/
def orphanedJournal : State :=
  { regs := [(ra (pgEth 0) 0x10, 1#32), (ra (pgEth 0) 0x40, 0x100#32), (ra (pgEth 0) 0x50, 4#32)]
    host := { journal := [(0, orphanEntry)] } }

/-- A HELLO of versions 3.0 to 3.4 for a new session. -/
def newHello : UdpMsg :=
  { ethPort := 0, srcAddr := 1, srcPort := 2, toService := false,
    data := gMessage 4 3 1 1 0 0 0 (padTo 64 (leBytes 2 0x300 ++ leBytes 2 0x304)) [] }

theorem newHello_wellFormed : gWellFormed newHello.data = true ∧ gType newHello.data = 1 ∧ gCount newHello.data = 1 ∧
    chooseVersion (bytesAt (gEntry newHello.data 0) 0 2) (bytesAt (gEntry newHello.data 0) 2 2) = 0x304 ∧
    bytesAt (gEntry newHello.data 0) 8 8 = 0 := by
  decide +kernel

theorem newHello_arrives : dozing orphanedJournal = false ∧ arrives orphanedJournal newHello = true ∧
    isActive orphanedJournal = true ∧ freeSession orphanedJournal = some 1 := by
  decide +kernel

/-- The HELLO empties the journal. -/
theorem journal_newHello : (taken orphanedJournal (exec (.hello newHello) orphanedJournal)).host.journal.length = 0 := by
  decide +kernel

end Sys2Proof.Machine

namespace Sys2Proof.Proofs
open Sys2Proof Sys2Proof.Machine

/-- Refutes O15: a HELLO that opens session 1 forgets the command that the journal holds for session 1. -/
theorem not_udpSessions : ¬ Obligations.UdpSessions := by
  rintro ⟨opens, _, _⟩
  obtain ⟨formed, type, count, version, new⟩ := newHello_wellFormed
  obtain ⟨awake, arrives, active, free⟩ := newHello_arrives
  obtain ⟨t, runs, _, _, _, _, _, _, _, _, journal, _⟩ :=
    (opens orphanedJournal newHello _ _ awake arrives formed type count version new).1 1 active (by decide) rfl free
  have emptied := journal_newHello
  rw [runs, taken, journal] at emptied
  exact absurd emptied (by decide)

end Sys2Proof.Proofs
end

section
/-! PROOFS. JournalCommands (R55, R75 to R77, R107, R112): what the journal keeps of events and reads, the writes of a command in
order, and the commands of the journal that use them. -/

namespace Sys2Proof.Machine
open Sys2Proof

variable {s : State}

/-! ### Events, claims and reads leave the journal -/

@[simp] theorem journal_count (s : State) (p k : Nat) : (count s p k).host.journal = s.host.journal := by simp

@[simp] theorem journal_sendEvent (s : State) (n : Nat) : (sendEvent s n).host.journal = s.host.journal := by
  unfold sendEvent
  dsimp only
  split <;> simp [sendMsg, setSession]

@[simp] theorem journal_sendEvents (s : State) : (sendEvents s).host.journal = s.host.journal := by
  unfold sendEvents
  split
  · exact foldl_keeps (fun u : State => u.host.journal) (fun u i => journal_sendEvent u (i + 1)) _ s
  · rfl

@[simp] theorem journal_hostPin (old s : State) : (hostPin old s).host.journal = s.host.journal := by
  rw [(hostPin_evolves old s (m := 8388672) rfl .rfl).same .host rfl]

@[simp] theorem journal_signalMsix (s : State) : (signalMsix s).host.journal = s.host.journal := by
  have msix_keeps (s : State) (v : Nat) : (msix s v).host.journal = s.host.journal := by
    unfold msix
    split <;> simp
  unfold signalMsix
  dsimp only
  split <;> simp [msix_keeps]

@[simp] theorem journal_setFlag (s : State) (t : Nat) : (setFlag s t).host.journal = s.host.journal := by
  unfold setFlag
  dsimp only
  split_ifs <;> simp

@[simp] theorem journal_notify (s : State) (src : Nat) : (notify s src).host.journal = s.host.journal := by
  unfold notify
  dsimp only
  split_ifs <;> simp

/-- An event may be told to sessions, but touches no command of the journal. -/
@[simp] theorem journal_ev (s : State) (p b : Nat) : (ev s p b).host.journal = s.host.journal := by simp [ev, evBits]

@[simp] theorem journal_claimRead (s : State) (rq : Requester) (t : Nat) : (claimRead s rq t).2.host.journal = s.host.journal := by
  unfold claimRead presentAgain
  dsimp only
  split_ifs <;> simp

theorem host_of_frame {m : Nat} {s t : State} (h : Evolves m s t) (b : m.testBit 12 = false) : t.host.journal = s.host.journal := by
  rw [h.same .host b]

theorem journal_blockRead (s : State) (rq : Requester) (p o : Nat) (r : RegSpec) :
    (blockRead s rq p o r).2.host.journal = s.host.journal := by
  unfold blockRead
  dsimp only
  split_ifs
  · exact journal_claimRead s rq _
  · exact host_of_frame (ispTableRead_evolves s (m := 1) rfl .rfl) rfl
  · exact host_of_frame (loopTableRead_evolves s (m := 1) rfl .rfl) rfl
  · rfl
  · rfl
  · rfl
  · rfl
  · exact host_of_frame (captureSet_evolves s rq p o (m := 16) rfl .rfl) rfl
  · rfl

theorem journal_readReg (s : State) (rq : Requester) (a : Nat) : (readReg s rq a).2.host.journal = s.host.journal := by
  unfold readReg
  dsimp only
  cases pageInfo (a / 4096) with
  | none => split_ifs <;> rfl
  | some i =>
    dsimp only
    split_ifs
    · rfl
    · rfl
    · rfl
    · exact host_of_frame (headerRead_evolves s _ _ (m := 0) rfl .rfl) rfl
    · rfl
    · rfl
    · exact host_of_frame (counterRead_evolves s rq _ _ _ _ (m := 8) rfl .rfl) rfl
    · cases regSpec a with
      | none => rfl
      | some r => exact journal_blockRead s rq _ _ r

theorem journal_readWords (rq : Requester) (n a : Nat) (s : State) :
    (readWords rq n a s).2.host.journal = s.host.journal := by
  induction n generalizing a s with
  | zero => rfl
  | succ n ih => exact (ih _ _).trans (journal_readReg s rq a)

theorem length_readWords (rq : Requester) (n a : Nat) (s : State) : (readWords rq n a s).1.length = 4 * n := by
  induction n generalizing a s with
  | zero => rfl
  | succ n ih =>
    simp only [readWords, List.length_append, leBytes_length, ih]
    omega

/-! ### One entry of the journal -/

theorem getEntry_of_journal {t : State} (h : t.host.journal = s.host.journal) (k : Nat) : getEntry t k = getEntry s k := by
  rw [getEntry, h, getEntry]

theorem getEntry_setProgress {k : Nat} {e : JEntry} (h : getEntry s k = some e) (n : Nat) (res : List Byte) (j : Nat) :
    getEntry (setProgress s k n res) j = if j = k then some { e with state := 1, progress := n, result := res } else getEntry s j := by
  simp only [setProgress, h, getEntry_setEntry]

theorem entriesKept_finish (s : State) (k st r0 r1 : Nat) (res : List Byte) (img : Nat) :
    entriesKept s (finish s k st r0 r1 res img) k := by
  intro j hj
  cases h : getEntry s k with
  | none => rw [finish_of_no_entry h]
  | some e => rw [getEntry_finish h, if_neg hj]

theorem entriesKept.trans {t u : State} {k : Nat} (h : entriesKept s t k) (g : entriesKept t u k) : entriesKept s u k :=
  fun j hj => (g j hj).trans (h j hj)

theorem entriesKept_of_journal {t : State} (h : t.host.journal = s.host.journal) (k : Nat) : entriesKept s t k :=
  fun j _ => getEntry_of_journal h j

theorem entriesKept_setEntry (s : State) (k : Nat) (e : JEntry) : entriesKept s (setEntry s k e) k :=
  fun j hj => by rw [getEntry_setEntry, if_neg hj]

theorem entriesKept_setProgress (s : State) (k n : Nat) (res : List Byte) : entriesKept s (setProgress s k n res) k := by
  intro j hj
  cases h : getEntry s k with
  | none => simp only [setProgress, h]
  | some e => rw [getEntry_setProgress h, if_neg hj]

theorem only_finish (s : State) (k st r0 r1 : Nat) (res : List Byte) (img : Nat) :
    onlyChanges [.host, .out] s (finish s k st r0 r1 res img) :=
  (finish_evolves s k st r0 r1 res img (m := 8392704) rfl .rfl).only (by decide)

theorem only_setEntry (s : State) (k : Nat) (e : JEntry) : onlyChanges [.host] s (setEntry s k e) :=
  (setEntry_evolves s k e (m := 4096) rfl .rfl).only (by decide)

theorem startable_entry {slot op : Nat} {e : JEntry} (h : startable s slot op = some e) : getEntry s slot = some e := by
  unfold startable at h
  split at h
  · next x hx =>
    split at h
    · rw [hx, h]
    · cases h
  · cases h

theorem onEntry_of_startable {slot op : Nat} {e : JEntry} (h : startable s slot op = some e) (act : State → JEntry → State) :
    onEntry s slot op act = act s e := by simp only [onEntry, h]

/-! ### Writes in order (R75) -/

theorem wroteInOrder_nil (rq : Requester) (s : State) : wroteInOrder rq [] s 0 s :=
  ⟨Nat.le_refl 0, rfl, fun _ _ h => absurd h (Nat.not_lt_zero _), fun x hx => by simp at hx⟩

theorem wroteInOrder_refused {rq : Requester} {a v : Nat} (ps : List (Nat × Nat)) (h : writeRefused s rq a v = true) :
    wroteInOrder rq ((a, v) :: ps) s 0 (writeReg s rq a v) := by
  refine ⟨Nat.zero_le _, rfl, fun _ _ h => absurd h (Nat.not_lt_zero _), fun x hx => ?_⟩
  obtain rfl : (a, v) = x := Option.some.inj hx
  exact h

theorem wroteInOrder_cons {rq : Requester} {a v k : Nat} {ps : List (Nat × Nat)} {u : State} (h : writeRefused s rq a v = false)
    (g : wroteInOrder rq ps (writeReg s rq a v) k u) : wroteInOrder rq ((a, v) :: ps) s (k + 1) u := by
  obtain ⟨bound, last, allowed, refused⟩ := g
  refine ⟨Nat.succ_le_succ bound, last, fun i x hi hx => ?_, fun x hx => refused x hx⟩
  cases i with
  | zero =>
    obtain rfl : (a, v) = x := Option.some.inj hx
    exact h
  | succ i => exact allowed i x (Nat.lt_of_succ_lt_succ hi) hx

/-- The writes of a command are those of its pairs in order, up to and with the first that is refused. -/
theorem writePairs_inOrder (rq : Requester) (ps : List (Nat × Nat)) (n : Nat) (s : State) :
    ∃ k u, wroteInOrder rq ps s k u ∧ writePairs rq ps n s = (u, n + k, decide (k = ps.length)) := by
  induction ps generalizing n s with
  | nil => exact ⟨0, s, wroteInOrder_nil rq s, rfl⟩
  | cons x ps ih =>
    obtain ⟨a, v⟩ := x
    cases refused : writeRefused s rq a v with
    | true =>
      refine ⟨0, _, wroteInOrder_refused ps refused, ?_⟩
      simp [writePairs, refused]
    | false =>
      obtain ⟨k, u, order, run⟩ := ih (n + 1) (writeReg s rq a v)
      refine ⟨k + 1, u, wroteInOrder_cons refused order, ?_⟩
      simp only [writePairs, refused, Bool.false_eq_true, if_false, run, List.length_cons, Nat.add_right_cancel_iff]
      rw [Nat.add_right_comm, Nat.add_assoc]

/-- A REG_WRITE makes its writes in order and completes with OK or with the number of pairs written (R75). -/
theorem runWrites_pairs (s : State) (slot : Nat) (e : JEntry) (ps : List (Nat × Nat)) (img : Nat) :
    ∃ k u, wroteInOrder (entryRq e) (ps.drop e.progress) s k u ∧
      runWrites s slot e ps img true = finish (setProgress u slot (e.progress + k) []) slot
        (if k = (ps.drop e.progress).length then stOk else stRefused) (e.progress + k) 0 [] img := by
  obtain ⟨k, u, order, run⟩ := writePairs_inOrder (entryRq e) (ps.drop e.progress) e.progress s
  refine ⟨k, u, order, ?_⟩
  simp only [runWrites, run, Bool.true_or, if_true, decide_eq_true_eq]

/-- A TABLE_WRITE reports the number of words written only when one is refused (R75, R76). -/
theorem runWrites_table (s : State) (slot : Nat) (e : JEntry) (ps : List (Nat × Nat)) :
    ∃ k u, wroteInOrder (entryRq e) (ps.drop e.progress) s k u ∧
      runWrites s slot e ps 0 false = (let t := setProgress u slot (e.progress + k) []
        if k = (ps.drop e.progress).length then finish t slot stOk 0 0 [] 0 else finish t slot stRefused (e.progress + k) 0 [] 0) := by
  obtain ⟨k, u, order, run⟩ := writePairs_inOrder (entryRq e) (ps.drop e.progress) e.progress s
  refine ⟨k, u, order, ?_⟩
  simp only [runWrites, run, Bool.false_or]
  by_cases all : k = (ps.drop e.progress).length
  · simp only [all, decide_true, Bool.not_true, Bool.false_eq_true, if_false, if_true]
  · simp only [all, decide_false, Bool.not_false, Bool.false_eq_true, if_false, if_true]

/-! ### REG_READ, REG_WRITE, APPLY_LINE_WRITE and TABLE_WRITE -/

theorem withData_of_sound {slot : Nat} {e : JEntry} {ringMax : Nat} (inside : dataInside e = true)
    (fits : onRing e = true → eDataLen e.entry ≤ ringMax) (crc : dataCrcOk e = true) (act : State → State) :
    withData s slot e ringMax act = act s := by
  have short : ¬(dataInside e = false ∨ onRing e = true ∧ ringMax < eDataLen e.entry) := by
    rintro (h | ⟨h, long⟩)
    · rw [inside] at h; cases h
    · exact absurd (fits h) (Nat.not_le.2 long)
  rw [withData, if_neg short, crc, if_neg (by decide)]

theorem late_finishes {slot : Nat} {e : JEntry} (h : getEntry s slot = some e) :
    doneAs (finishStatus s slot stLate) slot stLate ∧ entriesKept s (finishStatus s slot stLate) slot ∧
      onlyChanges [.host, .out] s (finishStatus s slot stLate) :=
  ⟨doneAs_finish h _ _ _ _ _, entriesKept_finish _ _ _ _ _ _ _, only_finish _ _ _ _ _ _ _⟩

theorem waits_for_line (s : State) (slot : Nat) (e : JEntry) :
    getEntry (setEntry s slot e) slot = some e ∧ entriesKept s (setEntry s slot e) slot ∧
      onlyChanges [.host] s (setEntry s slot e) :=
  ⟨by rw [getEntry_setEntry, if_pos rfl], entriesKept_setEntry _ _ _, only_setEntry _ _ _⟩

theorem regRead_completes {slot : Nat} {e : JEntry} (start : startable s slot 0x20 = some e) (params : readParamsOk e = true)
    (room : onRing e = true ∧ 4 * eParam e.entry 4 4 ≤ eDataLen e.entry ∧ eDataLen e.entry ≤ 256 ∨
      onRing e = false ∧ resultFits s e (4 * eParam e.entry 4 4) = true) :
    ∃ bs u, readWords (entryRq e) (eParam e.entry 4 4 - e.progress) (eParam e.entry 0 4 + 4 * e.progress) s = (bs, u) ∧
      bs.length = 4 * (eParam e.entry 4 4 - e.progress) ∧
      completes (.regRead slot) s (fun t =>
        (∃ x, getEntry t slot = some x ∧ x.state = 2 ∧ x.status = stOk ∧ x.progress = eParam e.entry 4 4 ∧
          x.result = e.result.take (4 * e.progress) ++ bs) ∧
        entriesKept s t slot ∧ t.regs = u.regs ∧ t.captured = u.captured ∧ t.latches = u.latches) := by
  have same := journal_readWords (entryRq e) (eParam e.entry 4 4 - e.progress) (eParam e.entry 0 4 + 4 * e.progress) s
  have long := length_readWords (entryRq e) (eParam e.entry 4 4 - e.progress) (eParam e.entry 0 4 + 4 * e.progress) s
  have fits : (if onRing e then decide (4 * eParam e.entry 4 4 ≤ eDataLen e.entry) && decide (eDataLen e.entry ≤ 256)
      else resultFits s e (4 * eParam e.entry 4 4)) = true := by
    rcases room with ⟨ring, long, short⟩ | ⟨udp, fits⟩
    · simp [ring, long, short]
    · simp [udp, fits]
  have run : exec (.regRead slot) s = .next (regReadRun s slot e) := by
    simp only [exec, execRegRead, onEntry_of_startable start]
  rw [regReadRun, params] at run
  simp only [fits, Bool.true_eq_false, or_self, if_false] at run
  revert same long run
  generalize readWords (entryRq e) (eParam e.entry 4 4 - e.progress) (eParam e.entry 0 4 + 4 * e.progress) s = x
  intro same long run
  have here : getEntry x.2 slot = some e := (getEntry_of_journal same slot).trans (startable_entry start)
  have progress := getEntry_setProgress here (eParam e.entry 4 4) (e.result.take (4 * e.progress) ++ x.1) slot
  rw [if_pos rfl] at progress
  have frame : Evolves 8392704 x.2 (finish (setProgress x.2 slot (eParam e.entry 4 4) (e.result.take (4 * e.progress) ++ x.1))
      slot stOk 0 0 (e.result.take (4 * e.progress) ++ x.1) 0) :=
    finish_evolves _ _ _ _ _ _ _ rfl (setProgress_evolves _ _ _ _ rfl .rfl)
  refine ⟨x.1, x.2, rfl, long, _, run, ⟨_, (getEntry_finish progress _ _ _ _ _ _).trans (if_pos rfl), rfl, rfl, rfl, rfl⟩, ?_,
    frame.same .regs rfl, frame.same .captured rfl, frame.same .latches rfl⟩
  exact ((entriesKept_of_journal same slot).trans (entriesKept_setProgress _ _ _ _)).trans (entriesKept_finish _ _ _ _ _ _ _)

theorem regWrite_run {slot : Nat} {e : JEntry} (start : startable s slot 0x21 = some e) (inside : dataInside e = true)
    (params : writeParamsOk s e = true) (fits : onRing e = true → eDataLen e.entry ≤ 512) (crc : dataCrcOk e = true) :
    exec (.regWrite slot) s = .next (if applies e = false then runWrites s slot e (pairsOf e.data) 0 true
      else if e.late || linePassed s (commandBar s e.entry e.data) (applyOf e) then finishStatus s slot stLate
      else if lineReached s (commandBar s e.entry e.data) (applyOf e) then runWrites s slot e (pairsOf e.data) (applyOf e) true
      else setEntry s slot { e with waiting := true, state := 1 }) := by
  have allowed : ¬(dataInside e = true ∧ writeParamsOk s e = false) := by simp [params]
  simp only [exec, execRegWrite, onEntry_of_startable start, regWriteRun, if_neg allowed, withData_of_sound inside fits crc]

theorem regWrite_rule {slot : Nat} {e : JEntry} (start : startable s slot 0x21 = some e) (inside : dataInside e = true)
    (params : writeParamsOk s e = true) (fits : onRing e = true → eDataLen e.entry ≤ 512) (crc : dataCrcOk e = true) :
    (applies e = false ∨ e.late = false ∧ linePassed s (commandBar s e.entry e.data) (applyOf e) = false ∧
        lineReached s (commandBar s e.entry e.data) (applyOf e) = true →
      ∃ k u, wroteInOrder (entryRq e) ((pairsOf e.data).drop e.progress) s k u ∧
        exec (.regWrite slot) s = .next (finish (setProgress u slot (e.progress + k) []) slot
          (if k = ((pairsOf e.data).drop e.progress).length then stOk else stRefused) (e.progress + k) 0 []
          (if applies e then applyOf e else 0))) ∧
    (applies e = true → e.late = true ∨ linePassed s (commandBar s e.entry e.data) (applyOf e) = true →
      completes (.regWrite slot) s (fun t =>
        doneAs t slot stLate ∧ entriesKept s t slot ∧ onlyChanges [.host, .out] s t)) ∧
    (applies e = true → e.late = false → linePassed s (commandBar s e.entry e.data) (applyOf e) = false →
        lineReached s (commandBar s e.entry e.data) (applyOf e) = false →
      completes (.regWrite slot) s (fun t =>
        getEntry t slot = some { e with waiting := true, state := 1 } ∧ entriesKept s t slot ∧ onlyChanges [.host] s t)) := by
  have run := regWrite_run start inside params fits crc
  refine ⟨fun due => ?_, fun applied passed => ?_, fun applied inTime ahead waits => ?_⟩
  · rw [run]
    cases applied : applies e with
    | false => simpa using runWrites_pairs s slot e (pairsOf e.data) 0
    | true =>
      obtain ⟨inTime, ahead, reached⟩ : e.late = false ∧ linePassed s (commandBar s e.entry e.data) (applyOf e) = false ∧
        lineReached s (commandBar s e.entry e.data) (applyOf e) = true := by simpa [applied] using due
      simpa [inTime, ahead, reached] using runWrites_pairs s slot e (pairsOf e.data) (applyOf e)
  · have late : (e.late || linePassed s (commandBar s e.entry e.data) (applyOf e)) = true := by simpa using passed
    simp only [applied, late, Bool.true_eq_false, if_false, if_true] at run
    exact ⟨_, run, late_finishes (startable_entry start)⟩
  · have early : (e.late || linePassed s (commandBar s e.entry e.data) (applyOf e)) = false := by rw [inTime, ahead]; rfl
    simp only [applied, early, waits, Bool.false_eq_true, Bool.true_eq_false, if_false] at run
    exact ⟨_, run, waits_for_line s slot _⟩

theorem applyLineWrite_rule {slot : Nat} {e : JEntry} (here : getEntry s slot = some e) (waits : e.waiting = true)
    (op : eOpcode e.entry = 0x21) :
    (linePassed s (commandBar s e.entry e.data) (applyOf e) = true →
      completes (.applyLineWrite slot) s (fun t =>
        doneAs t slot stLate ∧ entriesKept s t slot ∧ onlyChanges [.host, .out] s t)) ∧
    (linePassed s (commandBar s e.entry e.data) (applyOf e) = false →
        lineReached s (commandBar s e.entry e.data) (applyOf e) = true →
      ∃ k u, wroteInOrder (entryRq e) ((pairsOf e.data).drop e.progress) s k u ∧
        exec (.applyLineWrite slot) s = .next (finish (setProgress u slot (e.progress + k) []) slot
          (if k = ((pairsOf e.data).drop e.progress).length then stOk else stRefused) (e.progress + k) 0 [] (applyOf e))) := by
  refine ⟨fun passed => ⟨_, ?_, late_finishes here⟩, fun ahead reached => ?_⟩
  · simp [exec, execApplyLineWrite, here, waits, op, passed]
  · obtain ⟨k, u, order, run⟩ := runWrites_pairs s slot e (pairsOf e.data) (applyOf e)
    refine ⟨k, u, order, ?_⟩
    rw [← run]
    simp [exec, execApplyLineWrite, here, waits, op, ahead, reached]

theorem tableWrite_run {slot : Nat} {e : JEntry} (start : startable s slot 0x28 = some e) (room : mayThrottled s = true)
    (inside : dataInside e = true) (params : tableParamsOk e = true) (crc : dataCrcOk e = true) :
    exec (.tableWrite slot) s = .next (runWrites s slot e (tablePairs (eParam e.entry 0 4) e.data) 0 false) := by
  have allowed : ¬(dataInside e = true ∧ tableParamsOk e = false) := by simp [params]
  have short : eDataLen e.entry ≤ 2 ^ 20 := by
    simp only [tableParamsOk, Bool.and_eq_true, decide_eq_true_eq] at params
    exact params.2
  simp only [exec, execTableWrite, onEntry_of_startable start, tableWriteRun, room, Bool.true_eq_false, if_false, if_neg allowed,
    withData_of_sound inside (fun _ => short) crc]

theorem registerCommandsRule : RegisterCommandsRule := by
  intro s slot e
  refine ⟨fun start params room => regRead_completes start params room,
    fun start inside params fits crc => regWrite_rule start inside params fits crc,
    fun here waits op => applyLineWrite_rule here waits op, fun start room inside params crc => ?_, fun start full => ?_⟩
  · rw [tableWrite_run start room inside params crc]
    obtain ⟨k, u, order, run⟩ := runWrites_table s slot e (tablePairs (eParam e.entry 0 4) e.data)
    exact ⟨k, u, order, congrArg _ run⟩
  · simp only [exec, execTableWrite, onEntry_of_startable start, tableWriteRun, full, if_true]

/-! ### SNAPSHOT and INFLATE (R55, R77, R107, R112) -/

theorem snapshot_rule {slot : Nat} {e : JEntry} (start : startable s slot 0x38 = some e) (inTime : e.late = false) :
    ((bitOf (eParam e.entry 0 4) 0 && snapLate s (eParam e.entry 4 6)) = false →
      completes (.snapshot slot) s (fun t =>
        getEntry t slot = some { e with waiting := true, state := 1 } ∧ entriesKept s t slot ∧ onlyChanges [.host] s t)) ∧
    ((bitOf (eParam e.entry 0 4) 0 && snapLate s (eParam e.entry 4 6)) = true →
      completes (.snapshot slot) s (fun t =>
        doneAs t slot stLate ∧ raised s t pgRime 1 ∧ wordsKept [ra pgRime 0x24] s t ∧ entriesKept s t slot)) := by
  have run : exec (.snapshot slot) s = .next (snapshotRun s slot e) := by
    simp only [exec, execSnapshot, onEntry_of_startable start]
  rw [snapshotRun, if_neg (by rw [inTime]; decide)] at run
  refine ⟨fun ahead => ?_, fun passed => ?_⟩
  · simp only [ahead, Bool.false_eq_true, if_false] at run
    exact ⟨_, run, waits_for_line s slot _⟩
  · simp only [passed, if_true] at run
    have here : getEntry (ev s pgRime 1) slot = some e := (getEntry_of_journal (journal_ev s _ _) slot).trans (startable_entry start)
    have words (a : Nat) : rd (finishStatus (ev s pgRime 1) slot stLate) a = rd (ev s pgRime 1) a :=
      (finishStatus_evolves _ _ _ (m := 8392704) rfl .rfl).rd_eq rfl a
    refine ⟨_, run, (late_finishes here).1, ?_, fun a ha => (words a).trans (wordsKept_ev s pgRime 1 a ha),
      (entriesKept_of_journal (journal_ev s _ _) slot).trans (entriesKept_finish _ _ _ _ _ _ _)⟩
    rw [raised, evPend, words]
    exact raised_ev s pgRime (by decide)

/-- The state in which engine k works on an INFLATE. -/
def inflateBegun (s : State) (slot k : Nat) (e : JEntry) : State :=
  setEntry (setEngine (engineBusy (wrf (beginThaw s (eParam e.entry 0 4 + e.data.length)) (ownThaw k) 3 0 2) k true) k
    { tile := none, inflate := some slot }) slot { e with state := 1 }

theorem inflate_run {slot : Nat} {e : JEntry} (start : startable s slot 0x30 = some e) (inside : dataInside e = true)
    (fits : onRing e = true → eDataLen e.entry ≤ 40960) (crc : dataCrcOk e = true) (size : eParam e.entry 0 4 ≤ 32768)
    (result : resultFits s e (eParam e.entry 0 4) = true) (room : mayThrottled s = true)
    (thaw : mayThaw s (eParam e.entry 0 4 + e.data.length) = true) :
    (∀ k, (List.range 24).find? (fun k => thawOwner s k == 0) = some k →
      exec (.inflate slot) s = .next (inflateBegun s slot k e)) ∧
    ((List.range 24).find? (fun k => thawOwner s k == 0) = none →
      exec (.inflate slot) s = .next (finishStatus s slot stConflict)) := by
  have params : ¬(32768 < eParam e.entry 0 4 ∨ resultFits s e (eParam e.entry 0 4) = false) := by
    simp only [result, Bool.true_eq_false, or_false]
    omega
  have free : ¬(mayThrottled s = false ∨ mayThaw s (eParam e.entry 0 4 + e.data.length) = false) := by simp [room, thaw]
  constructor
  · intro k found
    simp only [exec, execInflate, onEntry_of_startable start, withData_of_sound inside fits crc, if_neg params, if_neg free, found]
    rfl
  · intro found
    simp only [exec, execInflate, onEntry_of_startable start, withData_of_sound inside fits crc, if_neg params, if_neg free, found]

theorem ownThaw_ne_busy (k : Nat) (hk : k < 24) : ownThaw k ≠ ra pgThaw 0x48 := by
  simp only [ownThaw, ra, pgPin, pgThaw]
  omega

theorem inflateBegun_claims {k : Nat} (hk : k < 24) (slot : Nat) (e : JEntry) :
    let t := inflateBegun s slot k e
    thawOwner t k = 2 ∧ (getEngine t k).inflate = some slot ∧ getEntry t slot = some { e with state := 1 } ∧
      rdb t (ra pgThaw 0x48) k = true ∧ wordsKept [ownThaw k, ra pgThaw 0x48] s t ∧ entriesKept s t slot := by
  intro t
  have other := ownThaw_ne_busy k hk
  have words (a : Nat) : rd t a = rd (engineBusy (wrf (beginThaw s (eParam e.entry 0 4 + e.data.length)) (ownThaw k) 3 0 2) k true) a :=
    (setEntry_evolves _ _ _ (m := 5120) rfl (setEngine_evolves _ _ _ rfl .rfl)).rd_eq rfl a
  refine ⟨?_, ?_, ?_, ?_, fun a ha => ?_, ?_⟩
  · rw [thawOwner, rdf_eq_of_rd (words _), engineBusy, rdf_wrf_beside _ _ _ (by decide) (by decide) (by decide),
      rdf_eq_of_rd (rd_wrf_other _ _ _ _ other), rdf_wrf_same _ _ _ (by decide) (by decide)]
    rfl
  · simp [t, inflateBegun, setEntry, getEngine, setEngine]
  · simp only [t, inflateBegun, getEntry_setEntry, if_true]
  · rw [rdb, words, engineBusy, rd_wrf_other _ _ _ _ other.symm]
    exact rdb_wrf_same _ _ _ _ (by omega)
  · simp only [List.mem_cons, List.not_mem_nil, or_false, not_or] at ha
    rw [words, engineBusy, rd_wrf_other _ _ _ _ ha.1, rd_wrf_other _ _ _ _ ha.2, rd_wrf_other _ _ _ _ ha.1]
    exact (beginThaw_evolves s _ (m := 2048) rfl .rfl).rd_eq rfl a
  · have before : (setEngine (engineBusy (wrf (beginThaw s (eParam e.entry 0 4 + e.data.length)) (ownThaw k) 3 0 2) k true) k
        { tile := none, inflate := some slot }).host.journal = s.host.journal :=
      host_of_frame (setEngine_evolves _ _ _ (m := 3073) rfl (engineBusy_evolves _ _ _ rfl (wrf_evolves _ _ _ _ _ rfl
        (beginThaw_evolves _ _ rfl .rfl)))) rfl
    exact (entriesKept_of_journal before slot).trans (entriesKept_setEntry _ slot _)

/-- What INFLATE_DONE does with the bytes and the code that the engine unpacked. -/
theorem inflateDone_run {slot k : Nat} {e : JEntry} (engine : inflateEngine s slot = some k) (here : getEntry s slot = some e) :
    ∃ u, u.host.journal = s.host.journal ∧
      exec (.inflateDone slot) s = .next (if (Machine.inflate false (eParam e.entry 0 4) e.data).1 = 0
        then finish u slot stOk 0 0 (Machine.inflate false (eParam e.entry 0 4) e.data).2 0
        else finish (ev (wr u (ra pgThaw 0x4C) (k * 256 + (Machine.inflate false (eParam e.entry 0 4) e.data).1)) pgThaw 8) slot
          stBadParam (Machine.inflate false (eParam e.entry 0 4) e.data).1 0 [] 0) := by
  refine ⟨countN (releaseInflate s k) pgThaw k (Machine.inflate false (eParam e.entry 0 4) e.data).2.length, ?_, ?_⟩
  · exact host_of_frame (countN_evolves _ _ _ _ (m := 1089) rfl (releaseInflate_evolves s k rfl .rfl)) rfl
  · simp only [exec, execInflateDone, engine, here]

theorem inflateDone_rule {slot k : Nat} {e : JEntry} (engine : inflateEngine s slot = some k) (here : getEntry s slot = some e) :
    ((Machine.inflate false (eParam e.entry 0 4) e.data).1 = 0 →
      completes (.inflateDone slot) s (fun t =>
        (∃ e', getEntry t slot = some e' ∧ e'.state = 2 ∧ e'.status = stOk ∧
          e'.result = (Machine.inflate false (eParam e.entry 0 4) e.data).2) ∧ entriesKept s t slot)) ∧
    ((Machine.inflate false (eParam e.entry 0 4) e.data).1 ≠ 0 →
      completes (.inflateDone slot) s (fun t =>
        (∃ e', getEntry t slot = some e' ∧ e'.state = 2 ∧ e'.status = stBadParam ∧
          e'.result0 = (Machine.inflate false (eParam e.entry 0 4) e.data).1) ∧
          (evPend t pgThaw).testBit 8 = true ∧ entriesKept s t slot)) := by
  obtain ⟨u, same, run⟩ := inflateDone_run engine here
  refine ⟨fun sound => ?_, fun damaged => ?_⟩
  · rw [if_pos sound] at run
    have entry := (getEntry_of_journal same slot).trans here
    exact ⟨_, run, ⟨_, (getEntry_finish entry _ _ _ _ _ _).trans (if_pos rfl), rfl, rfl, rfl⟩,
      (entriesKept_of_journal same slot).trans (entriesKept_finish _ _ _ _ _ _ _)⟩
  · rw [if_neg damaged] at run
    revert run
    generalize hv : wr u (ra pgThaw 0x4C) (k * 256 + (Machine.inflate false (eParam e.entry 0 4) e.data).1) = v
    intro run
    have kept : (ev v pgThaw 8).host.journal = s.host.journal := by rw [journal_ev, ← hv]; exact same
    have entry := (getEntry_of_journal kept slot).trans here
    refine ⟨_, run, ⟨_, (getEntry_finish entry _ _ _ _ _ _).trans (if_pos rfl), rfl, rfl, rfl⟩, ?_,
      (entriesKept_of_journal kept slot).trans (entriesKept_finish _ _ _ _ _ _ _)⟩
    rw [evPend, (finish_evolves _ _ _ _ _ _ _ (m := 8392704) rfl .rfl).rd_eq rfl]
    have event := raised_ev v pgThaw (b := 8) (by decide)
    rw [raised, evPend] at event
    rw [event, Nat.testBit_or, Nat.testBit_two_pow_self, Bool.or_true]

theorem snapshotAndInflateRule : SnapshotAndInflateRule := by
  intro s slot e
  refine ⟨fun start inTime => snapshot_rule start inTime, fun start inside fits crc size result room thaw => ?_,
    fun k engine here => inflateDone_rule engine here⟩
  obtain ⟨claims, conflicts⟩ := inflate_run start inside fits crc size result room thaw
  refine ⟨fun k found => ?_, fun held => ?_⟩
  · have bound : k < 24 := List.mem_range.1 (List.mem_of_find?_eq_some found)
    exact ⟨_, claims k found, inflateBegun_claims bound slot e⟩
  · have none : (List.range 24).find? (fun k => thawOwner s k == 0) = none :=
      List.find?_eq_none.2 (fun k hk => by simpa using held k (List.mem_range.1 hk))
    exact ⟨_, conflicts none, doneAs_finish (startable_entry start) _ _ _ _ _, entriesKept_finish _ _ _ _ _ _ _,
      only_finish _ _ _ _ _ _ _⟩

end Sys2Proof.Machine

namespace Sys2Proof.Proofs
open Sys2Proof Sys2Proof.Machine

/-- Settles O16: the commands that reach the register window, and those of snapshots and of INFLATE. -/
theorem journalCommands : Obligations.JournalCommands := ⟨registerCommandsRule, snapshotAndInflateRule⟩

end Sys2Proof.Proofs
end

section
/-! PROOFS. RingsAndSession0 fails (R87): a HELLO that another unit's rings have brought completes with OK and opens nothing,
whatever its parameters, where the statement has it checked like one of the unit's own ring 0. -/

namespace Sys2Proof.Machine
open Sys2Proof

/-- A HELLO from the rings of another unit, with no room for HELLO_ACK. -/
def peerHello : JEntry :=
  { stamp := 0, session := 0, seq := 1, ring := 0, entry := padTo 64 [1#8], data := [], state := 0, progress := 0, status := 0,
    result0 := 0, result1 := 0, result := [], imageLine := 0, ptNs := 0, ptSec := 0, webPos := 0, replayed := false,
    peer := true, written := false, withheld := false, late := false, ready := true, pairSeq := 0, wpos := none,
    waiting := false }

def peerHelloHeld : State := setEntry {} 0 peerHello

theorem startable_peerHelloHeld : startable peerHelloHeld 0 1 = some peerHello := by decide +kernel

theorem exec_helloRing_peer {s : State} {slot : Nat} {e : JEntry} (start : startable s slot 1 = some e) (peer : e.peer = true) :
    exec (.helloRing slot) s = .next (finishStatus s slot stOk) := by
  simp only [exec, execHelloRing, onEntry_of_startable start, peer, if_true]

end Sys2Proof.Machine

namespace Sys2Proof.Proofs
open Sys2Proof Sys2Proof.Machine

/-- Refutes O17: a HELLO of the partner's rings with no 64 bytes for HELLO_ACK completes with OK, not with BAD_PARAM. -/
theorem not_ringsAndSession0 : ¬ Obligations.RingsAndSession0 := by
  rintro ⟨session, _⟩
  have start := startable_peerHelloHeld
  obtain ⟨t, runs, ⟨x, entry, _, status⟩, _⟩ := ((session peerHelloHeld 0 peerHello).2.1 start).1 (by decide)
  rw [exec_helloRing_peer start rfl] at runs
  obtain rfl := Host.Outcome.next.inj runs
  obtain ⟨y, entry', _, ok⟩ := doneAs_finish (startable_entry start) stOk 0 0 [] 0
  rw [show finishStatus peerHelloHeld 0 stOk = finish peerHelloHeld 0 stOk 0 0 [] 0 from rfl, entry'] at entry
  obtain rfl := Option.some.inj entry
  rw [ok] at status
  exact absurd status (by decide)

end Sys2Proof.Proofs
end

section
/-! PROOFS. JobsAndTiles (R74, R76, R90, R94, R97, R102, R103, R105, R511): jobs and tiles by their names, and the commands that
define, release and fill jobs. -/

namespace Sys2Proof.Machine
open Sys2Proof

variable {s : State}

/-! ### Jobs and tiles by their names -/

/-- Filtering out one name leaves the search for any other as it was. -/
theorem find?_filter_other {α : Type} (l : List α) {keep sought : α → Bool} (h : ∀ a ∈ l, sought a = true → keep a = true) :
    (l.filter keep).find? sought = l.find? sought := by
  rw [List.find?_filter]
  induction l with
  | nil => rfl
  | cons a l ih =>
    have rest := ih (fun b hb => h b (List.mem_cons_of_mem _ hb))
    cases here : sought a with
    | true => simp [here, h a List.mem_cons_self here]
    | false => simpa [List.find?_cons, here] using rest

theorem findJob_setJob (s : State) (j : Job) (n : Nat) :
    findJob (setJob s j) n = if n = j.number then some j else findJob s n := by
  simp only [findJob, setJob, List.find?_append]
  split
  · next same =>
    have none : (s.print.jobs.filter (fun x => x.number != j.number)).find? (fun x => x.number == n) = none := by
      refine List.find?_eq_none.2 (fun x hx => ?_)
      have := (List.mem_filter.1 hx).2
      simpa [same] using this
    rw [none]
    simp [same]
  · next other =>
    rw [find?_filter_other _ (fun x _ hx => by simp only [beq_iff_eq] at hx; simp [hx, other])]
    have no : (j.number == n) = false := beq_false_of_ne (Ne.symm other)
    simp [no]

theorem number_of_findJob {n : Nat} {j : Job} (h : findJob s n = some j) : j.number = n := by
  simpa using List.find?_some h

theorem findTile_setTile_same (s : State) (t : Tile) : findTile (setTile s t) t.job t.plane t.x t.y = some t := by
  simp only [findTile, setTile, List.find?_append]
  have none : (s.print.tiles.filter (fun u => !(u.job == t.job && u.plane == t.plane && u.x == t.x && u.y == t.y))).find?
      (fun u => u.job == t.job && u.plane == t.plane && u.x == t.x && u.y == t.y) = none :=
    List.find?_eq_none.2 (fun u hu => by simpa only [Bool.not_eq_true', Bool.not_eq_true] using (List.mem_filter.1 hu).2)
  rw [none]
  simp

theorem findTile_setTile_named (s : State) (t : Tile) {job plane x y : Nat} (hj : t.job = job) (hp : t.plane = plane) (hx : t.x = x)
    (hy : t.y = y) : findTile (setTile s t) job plane x y = some t := by
  rw [← hj, ← hp, ← hx, ← hy, findTile_setTile_same]

/-- The tile of a name has that name. -/
theorem tileOr_name (s : State) (job plane x y : Nat) : (tileOr s job plane x y).job = job ∧ (tileOr s job plane x y).plane = plane ∧
    (tileOr s job plane x y).x = x ∧ (tileOr s job plane x y).y = y := by
  unfold tileOr
  cases found : findTile s job plane x y with
  | none => exact ⟨rfl, rfl, rfl, rfl⟩
  | some t =>
    have name := List.find?_some found
    simp only [Bool.and_eq_true, beq_iff_eq] at name
    obtain ⟨⟨⟨hj, hp⟩, hx⟩, hy⟩ := name
    exact ⟨hj, hp, hx, hy⟩

theorem tileOr_of_print {t : State} (h : t.print.tiles = s.print.tiles) (job plane x y : Nat) :
    tileOr t job plane x y = tileOr s job plane x y := by
  rw [tileOr, findTile, h, tileOr, findTile]

theorem findJob_of_print {t : State} (h : t.print.jobs = s.print.jobs) (n : Nat) : findJob t n = findJob s n := by
  rw [findJob, h, findJob]

theorem jobAlloc_of_job {n : Nat} {j : Job} (h : findJob s n = some j) (f : Nat → Nat) :
    jobAlloc s n f = setJob s { j with alloc := f j.alloc } := by simp only [jobAlloc, h]

/-! ### A command that finishes at once -/

/-- What a command that finishes with a status leaves. -/
theorem finishStatus_done {slot : Nat} {e : JEntry} (h : getEntry s slot = some e) (st : Nat) :
    doneAs (finishStatus s slot st) slot st ∧ entriesKept s (finishStatus s slot st) slot ∧
      onlyChanges [.host, .out] s (finishStatus s slot st) :=
  ⟨doneAs_finish h _ _ _ _ _, entriesKept_finish _ _ _ _ _ _ _, only_finish _ _ _ _ _ _ _⟩

/-! ### JOB_DEFINE (R90, R102, R511) -/

/-- The job that a JOB_DEFINE defines, without its descriptors. -/
def definedJob (s : State) (e : JEntry) : Job :=
  { number := eJob e.entry, mask := eParam e.entry 0 1, dpi1200 := bitOf (eParam e.entry 1 1) 0, width := eParam e.entry 4 4,
    length := eParam e.entry 8 6, repeatLen := eParam e.entry 0x10 6, quota := eParam e.entry 0x18 4 * 2 ^ 20, alloc := 0,
    descBase := 0, descRows := tileRows (eParam e.entry 8 6) (eParam e.entry 0x10 6) (rdf s (ra pgFirn 0x58) 15 0),
    ringBase := 0, started := false, startSlot := none, held := false, mode := 0, arg := 0 }

/-- A definition that BAD_PARAM turns away. -/
def badDefinition (s : State) (e : JEntry) : Prop :=
  (findJob s (eJob e.entry)).isSome = true ∨ eParam e.entry 0 1 = 0 ∨ eParam e.entry 4 4 = 0 ∨
    (if bitOf (eParam e.entry 1 1) 0 then 131072 else 65536) < eParam e.entry 4 4 ∨ eParam e.entry 0x10 6 % 16 ≠ 0

theorem jobDefine_bad {slot : Nat} {e : JEntry} (start : startable s slot 0x10 = some e) (bad : badDefinition s e) :
    exec (.jobDefine slot) s = .next (finishStatus s slot stBadParam) := by
  unfold badDefinition at bad
  simp only [exec, execJobDefine, onEntry_of_startable start, jobDefine, if_pos bad]

theorem jobDefine_no_space {slot : Nat} {e : JEntry} (start : startable s slot 0x10 = some e) (good : ¬badDefinition s e)
    (full : storeFree s < eParam e.entry 0x18 4 * 2 ^ 20) :
    exec (.jobDefine slot) s = .next (finishStatus s slot stNoSpace) := by
  unfold badDefinition at good
  simp only [exec, execJobDefine, onEntry_of_startable start, jobDefine, if_neg good, if_pos full]

theorem firstFit_of_empty {n top : Nat} (h : n ≤ top) : firstFit [] n top = some 0 := by
  simp [firstFit, h]

theorem jobDefine_defines {slot : Nat} {e : JEntry} (start : startable s slot 0x10 = some e) (good : ¬badDefinition s e)
    (room : eParam e.entry 0x18 4 * 2 ^ 20 ≤ storeFree s) (unused : descUse s = [])
    (descs : (definedJob s e).planes * (definedJob s e).across * (definedJob s e).descRows ≤ descCount s) :
    exec (.jobDefine slot) s = .next (finish (setJob s (definedJob s e)) slot stOk (eParam e.entry 0x18 4 * 2 ^ 20) 0 [] 0) := by
  have fit : firstFit (descUse s) ((definedJob s e).planes * (definedJob s e).across * (definedJob s e).descRows) (descCount s) = some 0 := by
    rw [unused, firstFit_of_empty descs]
  unfold badDefinition at good
  simp only [definedJob] at fit ⊢
  simp only [exec, execJobDefine, onEntry_of_startable start, jobDefine, if_neg good, if_neg (Nat.not_lt.2 room), fit]

/-! ### JOB_RELEASE (R106, R107, R511, R512) -/

/-- A bar that is stopped neither prints nor is armed; the others stay. -/
theorem getBar_stopBar (s : State) (b c : Nat) :
    ((getBar (stopBar s b) c).printing = false ∧ (getBar (stopBar s b) c).armed = false) ∨
      (c ≠ b ∧ getBar (stopBar s b) c = getBar s c) := by
  by_cases same : c = b
  · refine .inl ?_
    unfold stopBar
    dsimp only
    split_ifs with prints armed
    · simp [same, getBar_setBar]
    · simpa [same, getBar_setBar] using prints
    · rw [same]
      exact ⟨by simpa using prints, by simpa using armed⟩
  · refine .inr ⟨same, ?_⟩
    unfold stopBar
    dsimp only
    split_ifs
    · rw [getBar_setBar, if_neg same]
    · rw [getBar_setBar, if_neg same]
    · rfl

theorem stopBars_stops (bs : List Nat) (s : State) (b : Nat)
    (h : b ∈ bs ∨ (getBar s b).printing = false ∧ (getBar s b).armed = false) :
    (getBar (stopBars s bs) b).printing = false ∧ (getBar (stopBars s bs) b).armed = false := by
  induction bs generalizing s with
  | nil => simpa [stopBars] using h
  | cons c bs ih =>
    refine ih (stopBar s c) ?_
    rcases getBar_stopBar s c b with stopped | ⟨other, same⟩
    · exact .inr stopped
    · rw [same]
      rcases h with h | h
      · exact .inl ((List.mem_cons.1 h).resolve_left other)
      · exact .inr h

theorem stopBars_leaves (s : State) (bs : List Nat) :
    (stopBars s bs).print.tiles = s.print.tiles ∧ (stopBars s bs).print.jobs = s.print.jobs := by
  have one (s : State) (b : Nat) : ((stopBar s b).print.tiles, (stopBar s b).print.jobs) = (s.print.tiles, s.print.jobs) := by
    unfold stopBar
    dsimp only
    split_ifs <;> simp [setBar]
  have all : ((stopBars s bs).print.tiles, (stopBars s bs).print.jobs) = (s.print.tiles, s.print.jobs) :=
    foldl_keeps (fun u : State => (u.print.tiles, u.print.jobs)) one bs s
  exact ⟨congrArg Prod.fst all, congrArg Prod.snd all⟩

theorem getEntry_isSome_abortJob (s : State) (job k : Nat) (h : (getEntry s k).isSome = true) :
    (getEntry (abortJob s job) k).isSome = true := by
  refine foldl_kept (fun u => (getEntry u k).isSome = true) (fun u x _ some => ?_) h
  refine ite_keeps (fun v => (getEntry v k).isSome) (fun _ => ?_) (fun _ => some)
  cases entry : getEntry u x.1 with
  | none => rw [finishStatus, finish_of_no_entry entry]; exact some
  | some e =>
    rw [finishStatus, getEntry_finish entry]
    split
    · rfl
    · exact some

/-- The state in which the bars of a job have stopped and its waiting commands have ended. -/
def jobEnded (s : State) (j : Job) : State :=
  (s.print.tiles.filter (fun t => t.job == j.number)).foldl
    (fun s t => markDirty s (granAddr s t.gran) t.length) (abortJob (stopBars s (jobBars s j.number)) j.number)

/-- The state in which the job is gone with its tiles. -/
def jobGone (s : State) (j : Job) : State :=
  { s with print := { s.print with
      jobs := s.print.jobs.filter (fun x => x.number != j.number),
      tiles := s.print.tiles.filter (fun t => t.job != j.number),
      thawQueue := s.print.thawQueue.filter (fun q => q.2.1 != j.number) } }

theorem jobEnded_frame (s : State) (j : Job) :
    Evolves 8425472 (stopBars s (jobBars s j.number)) (jobEnded s j) :=
  .foldl (abortJob_evolves _ _ rfl .rfl) (fun _ _ e => markDirty_evolves _ _ _ rfl e)

theorem jobRelease_run {slot : Nat} {e : JEntry} {j : Job} (start : startable s slot 0x13 = some e)
    (found : findJob s (eJob e.entry) = some j) :
    exec (.jobRelease slot) s = .next (finish (releasePrint (jobGone (jobEnded s j) j)) slot stOk (jobTakes j) 0 [] 0) := by
  have tiles : (abortJob (stopBars s (jobBars s j.number)) j.number).print.tiles = s.print.tiles := by
    rw [(abortJob_evolves (stopBars s (jobBars s j.number)) j.number (m := 8392704) rfl .rfl).same .print rfl]
    exact (stopBars_leaves s _).1
  simp only [exec, execJobRelease, onEntry_of_startable start, jobRelease, found, tiles]
  rfl

theorem jobRelease_releases {slot : Nat} {e : JEntry} {j : Job} (start : startable s slot 0x13 = some e) :
    let t := finish (releasePrint (jobGone (jobEnded s j) j)) slot stOk (jobTakes j) 0 [] 0
    doneAs t slot stOk ∧ findJob t j.number = none ∧ (∀ n, n ≠ j.number → findJob t n = findJob s n) ∧
      (∀ u ∈ t.print.tiles, u ∈ s.print.tiles ∧ u.job ≠ j.number) ∧
      (∀ u ∈ s.print.tiles, u.job ≠ j.number → u ∈ t.print.tiles) ∧
      (∀ b ∈ jobBars s j.number, printing t b = false ∧ (getBar t b).armed = false) := by
  intro t
  have ended : (jobEnded s j).print = (stopBars s (jobBars s j.number)).print := (jobEnded_frame s j).same .print rfl
  have frame : Evolves 8392705 (jobGone (jobEnded s j) j) t :=
    finish_evolves _ _ _ _ _ _ _ rfl (releasePrint_evolves _ rfl .rfl)
  obtain ⟨tiles, jobs⟩ := stopBars_leaves s (jobBars s j.number)
  have print : t.print = (jobGone (jobEnded s j) j).print := frame.same .print rfl
  have jobsNow : t.print.jobs = s.print.jobs.filter (fun x => x.number != j.number) := by
    rw [print, ← jobs, ← ended]
    rfl
  have tilesNow : t.print.tiles = s.print.tiles.filter (fun t => t.job != j.number) := by
    rw [print, ← tiles, ← ended]
    rfl
  have entry : (getEntry (releasePrint (jobGone (jobEnded s j) j)) slot).isSome = true := by
    have start' : (getEntry (stopBars s (jobBars s j.number)) slot).isSome = true := by
      rw [getEntry_of_host ((stopBars_evolves s _ (m := 1024) rfl .rfl).same .host rfl), startable_entry start]
      rfl
    have aborted := getEntry_isSome_abortJob _ j.number slot start'
    have marked : Evolves 32768 (abortJob (stopBars s (jobBars s j.number)) j.number) (jobEnded s j) :=
      .foldl .rfl (fun _ _ e => markDirty_evolves _ _ _ rfl e)
    rw [getEntry_of_host ((releasePrint_evolves _ (m := 1) rfl .rfl).same .host rfl),
      show getEntry (jobGone (jobEnded s j) j) slot = getEntry (jobEnded s j) slot from rfl,
      getEntry_of_host (marked.same .host rfl)]
    exact aborted
  obtain ⟨x, here⟩ := Option.isSome_iff_exists.1 entry
  refine ⟨doneAs_finish here _ _ _ _ _, ?_, fun n other => ?_, fun u hu => ?_, fun u hu other => ?_, fun b hb => ?_⟩
  · rw [findJob, jobsNow]
    exact List.find?_eq_none.2 (fun x hx => by simpa using (List.mem_filter.1 hx).2)
  · rw [findJob, jobsNow]
    exact find?_filter_other _ (fun x _ hx => by simp only [beq_iff_eq] at hx; simp [hx, other])
  · rw [tilesNow] at hu
    obtain ⟨mem, other⟩ := List.mem_filter.1 hu
    exact ⟨mem, by simpa using other⟩
  · rw [tilesNow]
    exact List.mem_filter.2 ⟨hu, by simpa using other⟩
  · have bar : getBar t b = getBar (stopBars s (jobBars s j.number)) b := by
      have bars : t.print.bars = (stopBars s (jobBars s j.number)).print.bars := by
        rw [print, ← ended]
        rfl
      rw [getBar, bars, getBar]
    rw [printing, bar]
    exact stopBars_stops _ s b (.inl hb)

theorem jobsRule : JobsRule := by
  intro s slot e
  dsimp only
  refine ⟨fun start => ⟨fun bad => ?_, fun good full => ?_, fun good room unused descs => ?_⟩, fun start => ⟨fun none => ?_, fun j found => ?_⟩⟩
  · exact ⟨_, jobDefine_bad start bad, finishStatus_done (startable_entry start) _⟩
  · exact ⟨_, jobDefine_no_space start good full, finishStatus_done (startable_entry start) _⟩
  · have entry : getEntry (setJob s (definedJob s e)) slot = some e :=
      (getEntry_of_host ((setJob_evolves s _ (m := 1024) rfl .rfl).same .host rfl) slot).trans (startable_entry start)
    have frame : Evolves 8392704 (setJob s (definedJob s e))
        (finish (setJob s (definedJob s e)) slot stOk (eParam e.entry 0x18 4 * 2 ^ 20) 0 [] 0) := finish_evolves _ _ _ _ _ _ _ rfl .rfl
    have jobs (n : Nat) : findJob (finish (setJob s (definedJob s e)) slot stOk (eParam e.entry 0x18 4 * 2 ^ 20) 0 [] 0) n =
        if n = eJob e.entry then some (definedJob s e) else findJob s n := by
      rw [findJob_of_print (congrArg Print.jobs (frame.same .print rfl)), findJob_setJob]
      rfl
    refine ⟨_, jobDefine_defines start good room unused descs, ⟨definedJob s e, ?_, rfl, rfl, rfl, rfl, rfl, rfl, rfl, rfl⟩,
      fun n other => ?_, ⟨_, (getEntry_finish entry _ _ _ _ _ _).trans (if_pos rfl), rfl, rfl, rfl⟩, ?_, ?_⟩
    · rw [jobs, if_pos rfl]
    · rw [jobs, if_neg other]
    · exact .trans (entriesKept_of_journal (by rw [(setJob_evolves s _ (m := 1024) rfl .rfl).same .host rfl]) slot)
        (entriesKept_finish _ _ _ _ _ _ _)
    · exact ((setJob_evolves s _ (m := 8393728) rfl .rfl).trans (frame.mono rfl)).only (by decide)
  · refine ⟨finishStatus s slot stBadParam, ?_, finishStatus_done (startable_entry start) _⟩
    simp only [exec, execJobRelease, onEntry_of_startable start, jobRelease, none]
  · exact ⟨_, jobRelease_run start found, jobRelease_releases start⟩

/-! ### TILE_PUT and TILE_QUERY (R74, R76, R94, R103, R105) -/

/-- The tile that a TILE_PUT names. -/
def putTile (s : State) (e : JEntry) (j : Job) : Tile :=
  tileOr s j.number (eParam e.entry 8 1 % 8) (eParam e.entry 9 1 % 64) (eParam e.entry 0xC 6)

/-- Where the tile of a TILE_PUT lies. -/
def putPlace (e : JEntry) (j : Job) : Place := placeOf j (eParam e.entry 8 1 % 8) (eParam e.entry 9 1 % 64) (eParam e.entry 0xC 6)

section
variable {slot : Nat} {e : JEntry} {j : Job} (start : startable s slot 0x18 = some e) (job : findJob s (eJob e.entry) = some j)
include start job

theorem tilePut_outside (place : putPlace e j = .outside) : exec (.tilePut slot) s = .next (finishStatus s slot stBadParam) := by
  rw [putPlace] at place
  simp only [exec, execTilePut, onEntry_of_startable start, tilePut, job, place]

theorem tilePut_beyond (place : putPlace e j = .beyondRing) :
    exec (.tilePut slot) s = .next (finishStatus (ev s pgFirn 11) slot stNoSpace) := by
  rw [putPlace] at place
  simp only [exec, execTilePut, onEntry_of_startable start, tilePut, job, place]

theorem tilePut_bad (place : putPlace e j = .inside)
    (bad : dataInside e = false ∨ 40960 < eParam e.entry 0 4 ∨ eDataLen e.entry = 0 ∨
      eParam e.entry 0 4 < eParam e.entry 4 4 + eDataLen e.entry ∨ 3 ≤ (putTile s e j).state) :
    exec (.tilePut slot) s = .next (finishStatus s slot stBadParam) := by
  rw [putPlace] at place
  rw [putTile] at bad
  simp only [exec, execTilePut, onEntry_of_startable start, tilePut, job, place]
  rw [if_pos]
  rcases bad with h | h | h | h | h
  · exact .inl h
  · exact .inr (.inr (.inl h))
  · exact .inr (.inr (.inr (.inr (.inl h))))
  · exact .inr (.inr (.inr (.inl h)))
  · exact .inr (.inr (.inr (.inr (.inr (.inl h)))))

/-- The state in which the container of a first fragment has its granules, drawn on its job. -/
def arrivalBegun (s : State) (slot : Nat) (e : JEntry) (j : Job) (g : Nat) : State :=
  setEntry (setTile (setJob s { j with alloc := j.alloc + 256 * grans (eParam e.entry 0 4) })
    { putTile s e j with
        state := if (putTile s e j).state = 0 then 1 else (putTile s e j).state
        arriving := some (g, eParam e.entry 0 4, e.session, []) }) slot { e with state := 1 }

theorem tilePut_first (place : putPlace e j = .inside) (inside : dataInside e = true) (total : eParam e.entry 0 4 ≤ 40960)
    (some_ : eDataLen e.entry ≠ 0) (short : eDataLen e.entry ≤ 40960)
    (within : eParam e.entry 4 4 + eDataLen e.entry ≤ eParam e.entry 0 4) (state : (putTile s e j).state < 3)
    (fresh : (putTile s e j).arriving = none)
    (near : farTile s j (eParam e.entry 8 1 % 8) (eParam e.entry 0xC 6) = false ∨ mayThrottled s = true) :
    (jobFits s j (256 * grans (eParam e.entry 0 4)) = false → exec (.tilePut slot) s = .next (finishStatus s slot stNoSpace)) ∧
    (∀ g, jobFits s j (256 * grans (eParam e.entry 0 4)) = true →
      firstFit (granUse s) (grans (eParam e.entry 0 4)) (storeSize s / 256) = some g →
      exec (.tilePut slot) s = .next (arrivalBegun s slot e j g)) := by
  rw [putPlace] at place
  rw [putTile] at state fresh
  have number : findJob s j.number = some j := by rw [number_of_findJob job, job]
  have good : ¬(dataInside e = false ∨ onRing e = true ∧ 40960 < eDataLen e.entry ∨ 40960 < eParam e.entry 0 4 ∨
      eParam e.entry 0 4 < eParam e.entry 4 4 + eDataLen e.entry ∨ eDataLen e.entry = 0 ∨
      3 ≤ (tileOr s j.number (eParam e.entry 8 1 % 8) (eParam e.entry 9 1 % 64) (eParam e.entry 0xC 6)).state ∨ False) := by
    simp only [inside, Bool.true_eq_false, false_or, or_false]
    omega
  have due : ¬(farTile s j (eParam e.entry 8 1 % 8) (eParam e.entry 0xC 6) = true ∧ mayThrottled s = false ∧ partnered s = false) := by
    rintro ⟨far, full, _⟩
    rcases near with h | h
    · rw [h] at far; cases far
    · rw [h] at full; cases full
  refine ⟨fun full => ?_, fun g fits space => ?_⟩
  · simp only [exec, execTilePut, onEntry_of_startable start, tilePut, job, place, fresh, if_neg good, if_neg due, full,
      Option.isSome_none, Bool.false_eq_true, if_false]
  · simp only [exec, execTilePut, onEntry_of_startable start, tilePut, job, place, fresh, if_neg good, if_neg due, fits, placeStore, space,
      Option.isSome_none, Bool.false_eq_true, if_false, if_true, jobAlloc_of_job number]
    rfl

omit start job in
theorem arrivalBegun_holds (g : Nat) :
    let t := arrivalBegun s slot e j g
    findTile t j.number (eParam e.entry 8 1 % 8) (eParam e.entry 9 1 % 64) (eParam e.entry 0xC 6) =
        some { putTile s e j with
          state := if (putTile s e j).state = 0 then 1 else (putTile s e j).state
          arriving := some (g, eParam e.entry 0 4, e.session, []) } ∧
      (findJob t j.number).map (fun k => k.alloc) = some (j.alloc + 256 * grans (eParam e.entry 0 4)) ∧
      getEntry t slot = some { e with state := 1 } ∧ entriesKept s t slot ∧ onlyChanges [.print, .host] s t := by
  intro t
  obtain ⟨hj, hp, hx, hy⟩ := tileOr_name s j.number (eParam e.entry 8 1 % 8) (eParam e.entry 9 1 % 64) (eParam e.entry 0xC 6)
  refine ⟨?_, ?_, ?_, ?_, ?_⟩
  · exact findTile_setTile_named _ _ hj hp hx hy
  · have found : findJob t j.number = some { j with alloc := j.alloc + 256 * grans (eParam e.entry 0 4) } :=
      (findJob_setJob s { j with alloc := j.alloc + 256 * grans (eParam e.entry 0 4) } j.number).trans (if_pos rfl)
    rw [found]
    rfl
  · simp only [t, arrivalBegun, getEntry_setEntry, if_true]
  · exact .trans (entriesKept_of_journal rfl slot) (entriesKept_setEntry _ slot _)
  · exact (setEntry_evolves _ _ _ (m := 5120) rfl (setTile_evolves _ _ rfl (setJob_evolves _ _ rfl .rfl))).only (by decide)

end

theorem tileQuery_answers {slot : Nat} {e : JEntry} {j : Job} (start : startable s slot 0x19 = some e)
    (job : findJob s (eJob e.entry) = some j) (plane : eParam e.entry 0 4 < 8)
    (place : placeOf j (eParam e.entry 0 4) (eParam e.entry 4 4) (eParam e.entry 8 6) = .inside) :
    exec (.tileQuery slot) s = .next (finish s slot stOk
      ((tileOr s j.number (eParam e.entry 0 4) (eParam e.entry 4 4) (eParam e.entry 8 6)).state +
        256 * (tileOr s j.number (eParam e.entry 0 4) (eParam e.entry 4 4) (eParam e.entry 8 6)).lastErr) 0 [] 0) := by
  simp only [exec, execTileQuery, onEntry_of_startable start, job, plane, place, and_self, if_true]

theorem tileArrivalRule : TileArrivalRule := by
  intro s slot e j job
  dsimp only
  refine ⟨fun start => ⟨fun bad => ?_, fun beyond => ?_, fun place inside total some_ short within state fresh near =>
    ⟨fun g fits space => ?_, fun full => ?_⟩⟩, fun start plane place => ?_⟩
  · refine ⟨_, ?_, finishStatus_done (startable_entry start) _⟩
    rcases bad with outside | ⟨place, bad⟩
    · exact tilePut_outside start job outside
    · exact tilePut_bad start job place bad
  · have entry : getEntry (ev s pgFirn 11) slot = some e :=
      (getEntry_of_journal (journal_ev s _ _) slot).trans (startable_entry start)
    have frame : Evolves 8392704 (ev s pgFirn 11) (finishStatus (ev s pgFirn 11) slot stNoSpace) := finishStatus_evolves _ _ _ rfl .rfl
    obtain ⟨done, kept, _⟩ := finishStatus_done entry stNoSpace
    refine ⟨_, tilePut_beyond start job beyond, done, ?_, (entriesKept_of_journal (journal_ev s _ _) slot).trans kept, ?_⟩
    · rw [raised, evPend, frame.rd_eq rfl]
      exact raised_ev s pgFirn (by decide)
    · rw [frame.same .print rfl]
      simp
  · have room : jobFits s j (256 * grans (eParam e.entry 0 4)) = true := by
      unfold jobFits
      split at fits
      · next free => rw [if_pos free]; exact decide_eq_true fits
      · next quota => rw [if_neg quota]; exact decide_eq_true fits
    exact ⟨_, (tilePut_first start job place inside total some_ short within state fresh near).2 g room space,
      arrivalBegun_holds g⟩
  · have room : jobFits s j (256 * grans (eParam e.entry 0 4)) = false := by
      unfold jobFits
      split at full
      · next free => rw [if_pos free]; exact decide_eq_false (Nat.not_le.2 full)
      · next quota => rw [if_neg quota]; exact decide_eq_false (Nat.not_le.2 full)
    exact ⟨_, (tilePut_first start job place inside total some_ short within state fresh near).1 room,
      finishStatus_done (startable_entry start) _⟩
  · exact ⟨_, tileQuery_answers start job plane place,
      ⟨_, (getEntry_finish (startable_entry start) _ _ _ _ _ _).trans (if_pos rfl), rfl, rfl, rfl⟩,
      entriesKept_finish _ _ _ _ _ _ _, only_finish _ _ _ _ _ _ _⟩

end Sys2Proof.Machine

namespace Sys2Proof.Proofs
open Sys2Proof Sys2Proof.Machine

/-- Settles O19: the definition and release of jobs, and the arrival of their tiles. -/
theorem jobsAndTiles : Obligations.JobsAndTiles := ⟨jobsRule, tileArrivalRule⟩

end Sys2Proof.Proofs
end

section
/-! PROOFS. DramRequests (R128 to R131, R133, R134): a request that waits or enters its channel, and the issue of a chosen one. -/

namespace Sys2Proof.Machine
open Sys2Proof

variable {s t : State} {c : Nat}

/-! ### Requests at their source -/

theorem getDram_of_queues (e : t.dram.chans = s.dram.chans) (c : Nat) : getDram t c = getDram s c := by rw [getDram, e, getDram]

theorem freqBusy_of_regs (h : t.regs = s.regs) : freqBusy t = freqBusy s := by
  rw [freqBusy, rdb, rd, h]
  rfl

/-- With none waiting, nothing enters. -/
theorem enterWaiting_none (idle : freqBusy s = false) (none_waits : (getDram s c).offers = []) :
    enterWaiting s c = setDram s c (getDram s c) := by
  simp only [enterWaiting, idle, none_waits, List.foldl_nil, Bool.false_eq_true, if_false]
  rw [← none_waits]

/-- A waiting request that is alone and finds no room goes on waiting. -/
theorem enterWaiting_full {o : DramOffer} (idle : freqBusy s = false) (ho : (getDram s c).offers = [o])
    (full : hasRoom s c o = false) : enterWaiting s c = setDram s c (getDram s c) := by
  simp only [enterWaiting, idle, ho, List.foldl_cons, List.foldl_nil, full, Bool.not_false, Bool.or_true, if_true,
    Bool.false_eq_true, if_false, List.nil_append]
  rw [← ho]

/-- A read that waits alone and finds room enters. -/
theorem enterWaiting_read {o : DramOffer} (idle : freqBusy s = false) (ho : (getDram s c).offers = [o]) (hb : o.bytes = none)
    (room : hasRoom s c o = true) :
    enterWaiting s c =
      setDram (enterRead s c o.addr o.cls) c { getDram (enterRead s c o.addr o.cls) c with offers := [] } := by
  simp [enterWaiting, idle, ho, room, hb]

/-- A channel with one more request at its source. -/
def offered (s : State) (a cls : Nat) (bytes : Option (List (Option Byte))) : State :=
  setDram s (chanOf a)
    { getDram s (chanOf a) with
      offers := (getDram s (chanOf a)).offers ++ [{ addr := a, cls := min cls 4, bytes := bytes }] }

theorem offer_eq (s : State) (a cls : Nat) (bytes : Option (List (Option Byte))) :
    offer s a cls bytes = enterWaiting (offered s a cls bytes) (chanOf a) := rfl

theorem getDram_offered (s : State) (a cls : Nat) (bytes : Option (List (Option Byte))) :
    getDram (offered s a cls bytes) (chanOf a) =
      { getDram s (chanOf a) with
        offers := (getDram s (chanOf a)).offers ++ [{ addr := a, cls := min cls 4, bytes := bytes }] } := by
  simp [offered, getDram_setDram]

theorem getDram_offered_other {a d : Nat} (h : d ≠ chanOf a) (s : State) (cls : Nat) (bytes : Option (List (Option Byte))) :
    getDram (offered s a cls bytes) d = getDram s d := by
  simp [offered, getDram_setDram, h]

theorem only_setDram (s : State) (c : Nat) (ch : DramChan) : onlyChanges [.dram] s (setDram s c ch) :=
  (setDram_evolves (m := 2048) _ _ _ (by decide) .rfl).only (by decide)

theorem only_offered (s : State) (a cls : Nat) (bytes : Option (List (Option Byte))) :
    onlyChanges [.dram] s (offered s a cls bytes) := only_setDram _ _ _

/-- A request that finds no room, or comes during a frequency change, waits at its source. -/
theorem offer_waits {a cls : Nat} {bytes : Option (List (Option Byte))}
    (none_waits : (getDram s (chanOf a)).offers = [])
    (waits : freqBusy s = true ∨ hasRoom s (chanOf a) { addr := a, cls := min cls 4, bytes := bytes } = false) :
    getDram (offer s a cls bytes) (chanOf a) =
        { getDram s (chanOf a) with offers := [{ addr := a, cls := min cls 4, bytes := bytes }] } ∧
      (∀ d, d ≠ chanOf a → getDram (offer s a cls bytes) d = getDram s d) ∧
      (offer s a cls bytes).dram.mem = s.dram.mem ∧ onlyChanges [.dram] s (offer s a cls bytes) := by
  have here := getDram_offered s a cls bytes
  rw [none_waits, List.nil_append] at here
  have busy : freqBusy (offered s a cls bytes) = freqBusy s := freqBusy_of_regs rfl
  have shape : offer s a cls bytes = offered s a cls bytes ∨
      offer s a cls bytes = setDram (offered s a cls bytes) (chanOf a) (getDram (offered s a cls bytes) (chanOf a)) := by
    rw [offer_eq]
    rcases Bool.eq_false_or_eq_true (freqBusy s) with change | idle
    · exact .inl (by rw [enterWaiting, busy, change, if_pos rfl])
    · have full : hasRoom s (chanOf a) { addr := a, cls := min cls 4, bytes := bytes } = false :=
        waits.resolve_left (by simp [idle])
      refine .inr (enterWaiting_full (busy.trans idle) (by rw [here]) ?_)
      cases bytes <;> simpa [hasRoom, queuedWrite, here] using full
  rcases shape with e | e
  · rw [e]
    exact ⟨here, fun d hd => getDram_offered_other hd s cls bytes, rfl, only_offered s a cls bytes⟩
  · rw [e]
    refine ⟨by rw [getDram_setDram, if_pos rfl, here], fun d hd => ?_, rfl, ?_⟩
    · rw [getDram_setDram, if_neg hd, getDram_offered_other hd]
    · exact (only_offered s a cls bytes).trans (only_setDram _ _ _)


/-! ### Requests that enter -/

theorem enterWrite_of_new {a : Nat} (hq : queuedWrite (getDram s c) a = none) (cls : Nat) (bs : List (Option Byte)) :
    (∃ w, (getDram (enterWrite s c a cls bs) c).writes = (getDram s c).writes ++ [w] ∧ w.addr = a ∧ w.cls = cls ∧
        w.bytes = bs) ∧
      (getDram (enterWrite s c a cls bs) c).reads = (getDram s c).reads ∧
      (∀ d, d ≠ c → getDram (enterWrite s c a cls bs) d = getDram s d) ∧
      (enterWrite s c a cls bs).dram.mem = s.dram.mem := by
  simp only [enterWrite, hq, getDram_setDram, if_pos]
  refine ⟨⟨_, rfl, rfl, rfl, rfl⟩, trivial, fun d hd => ?_, rfl⟩
  rw [if_neg hd]
  rfl

theorem enterRead_of_new {a : Nat} (hq : queuedWrite (getDram s c) a = none) (cls : Nat) :
    (∃ r, (getDram (enterRead s c a cls) c).reads = (getDram s c).reads ++ [r] ∧ r.addr = a ∧ r.cls = cls ∧ r.held = false) ∧
      (enterRead s c a cls).dram.mem = s.dram.mem ∧ onlyChanges [.dram] s (enterRead s c a cls) := by
  simp only [enterRead, hq, getDram_setDram, if_pos]
  exact ⟨⟨_, rfl, rfl, rfl, rfl⟩, rfl, fun p hp => by cases p <;> simp_all [Part.same]⟩

/-- A read of a block whose queued write covers it in part waits for that write. -/
theorem enterRead_of_partial {a : Nat} {w : DramWr} (hq : queuedWrite (getDram s c) a = some w)
    (partly : w.bytes.all (fun b => b.isSome) = false) (cls : Nat) :
    (∃ r, (getDram (enterRead s c a cls) c).reads = (getDram s c).reads ++ [r] ∧ r.addr = a ∧ r.held = true) ∧
      counted s (enterRead s c a cls) (pgDrc c) 9 ∧ (enterRead s c a cls).dram.mem = s.dram.mem := by
  simp only [enterRead, hq, partly, Bool.false_eq_true, if_false, getDram_setDram, if_pos]
  refine ⟨⟨_, rfl, rfl, rfl⟩, ?_, rfl⟩
  rw [counted, (setDram_evolves (m := 2048) _ _ _ rfl .rfl).counter_eq rfl, counter_count, if_pos rfl]
  rfl

/-- A read of a block whose queued write covers all of it is served from the queue. -/
theorem enterRead_of_covered {a : Nat} {w : DramWr} (hq : queuedWrite (getDram s c) a = some w)
    (covers : w.bytes.all (fun b => b.isSome) = true) (hc : chanOf a = c) (cls : Nat) :
    (enterRead s c a cls).dram.lastRead = w.bytes.map (fun b => b.getD 0#8) ∧
      (∀ d, getDram (enterRead s c a cls) d = getDram s d) ∧
      counted s (enterRead s c a cls) (pgDrc c) 8 ∧ (enterRead s c a cls).dram.mem = s.dram.mem := by
  simp only [enterRead, hq, covers, if_true]
  refine ⟨trivial, fun d => getDram_of_queues rfl d, ?_, rfl⟩
  show counter (countRead (count { s with dram := { s.dram with nextId := s.dram.nextId + 1 } } (pgDrc c) 8) a cls) (pgDrc c) 8 = _
  rw [countRead, hc, countN, counter_setCounter, if_neg (by omega), counter_count, if_pos rfl]
  rfl

theorem hasRoom_offered (s : State) {a cls : Nat} {bytes : Option (List (Option Byte))} (o : DramOffer) :
    hasRoom (offered s a cls bytes) (chanOf a) o = hasRoom s (chanOf a) o := by
  unfold hasRoom
  rw [getDram_offered]
  rfl

/-- The channel of an address before its request has entered. -/
theorem getDram_offered_alone {a : Nat} (none_waits : (getDram s (chanOf a)).offers = []) (cls : Nat)
    (bytes : Option (List (Option Byte))) :
    getDram (offered s a cls bytes) (chanOf a) =
      { getDram s (chanOf a) with offers := [{ addr := a, cls := min cls 4, bytes := bytes }] } := by
  rw [getDram_offered, none_waits, List.nil_append]

/-- A write of a block with no queued write, with room in the queue, enters it. -/
theorem offer_write_enters {a cls : Nat} {bs : List (Option Byte)} (idle : freqBusy s = false)
    (none_waits : (getDram s (chanOf a)).offers = []) (hq : queuedWrite (getDram s (chanOf a)) a = none)
    (room : (getDram s (chanOf a)).writes.length < 64) :
    (∃ w, (getDram (offer s a cls (some bs)) (chanOf a)).writes = (getDram s (chanOf a)).writes ++ [w] ∧ w.addr = a ∧
        w.cls = min cls 4 ∧ w.bytes = bs) ∧
      (getDram (offer s a cls (some bs)) (chanOf a)).reads = (getDram s (chanOf a)).reads ∧
      (∀ d, d ≠ chanOf a → getDram (offer s a cls (some bs)) d = getDram s d) ∧
      (offer s a cls (some bs)).dram.mem = s.dram.mem ∧ onlyChanges [.dram] s (offer s a cls (some bs)) := by
  let u := offered s a cls (some bs)
  have here : getDram u (chanOf a) = _ := getDram_offered_alone none_waits cls (some bs)
  have hqu : queuedWrite (getDram u (chanOf a)) a = none := by rw [here]; exact hq
  have entered := enterWaiting_write (s := u) (c := chanOf a) (o := ⟨a, min cls 4, some bs⟩)
    ((freqBusy_of_regs (s := s) (t := u) rfl).trans idle) (by rw [here]) rfl
    (by rw [hasRoom_offered]; simp [hasRoom, room])
  obtain ⟨⟨w, hw, named⟩, reads, beside, mem⟩ := enterWrite_of_new hqu (min cls 4) bs
  have only : onlyChanges [.dram] u (enterWrite u (chanOf a) a (min cls 4) bs) :=
    (enterWrite_evolves (m := 2048) u _ _ _ _ rfl .rfl).only (by decide)
  rw [here] at hw reads
  rw [offer_eq, entered]
  refine ⟨⟨w, ?_, named⟩, ?_, fun d hd => ?_, mem, ((only_offered s a cls (some bs)).trans only).trans (only_setDram _ _ _)⟩
  · rw [getDram_setDram, if_pos rfl]
    exact hw
  · rw [getDram_setDram, if_pos rfl]
    exact reads
  · rw [getDram_setDram, if_neg hd, beside d hd, getDram_offered_other hd]

/-- A read that comes alone and finds room enters its channel. -/
theorem offer_read_enters {a : Nat} (cls : Nat) (idle : freqBusy s = false) (none_waits : (getDram s (chanOf a)).offers = [])
    (room : (getDram s (chanOf a)).reads.length < 128) :
    offer s a cls none =
      setDram (enterRead (offered s a cls none) (chanOf a) a (min cls 4)) (chanOf a)
        { getDram (enterRead (offered s a cls none) (chanOf a) a (min cls 4)) (chanOf a) with offers := [] } :=
  enterWaiting_read (s := offered s a cls none) (o := ⟨a, min cls 4, none⟩) ((freqBusy_of_regs (s := s) rfl).trans idle)
    (by rw [getDram_offered_alone none_waits]) rfl (by rw [hasRoom_offered]; simp [hasRoom, room])

section Reads
variable {a : Nat} (idle : freqBusy s = false) (none_waits : (getDram s (chanOf a)).offers = [])
  (room : (getDram s (chanOf a)).reads.length < 128)
include idle none_waits room

theorem offer_read_of_new (hq : queuedWrite (getDram s (chanOf a)) a = none) (cls : Nat) :
    (∃ r, (getDram (offer s a cls none) (chanOf a)).reads = (getDram s (chanOf a)).reads ++ [r] ∧ r.addr = a ∧
        r.held = false) ∧
      (offer s a cls none).dram.mem = s.dram.mem ∧ onlyChanges [.dram] s (offer s a cls none) := by
  have here := getDram_offered_alone none_waits cls none
  obtain ⟨⟨r, hr, addr, -, held⟩, mem, only⟩ :=
    enterRead_of_new (s := offered s a cls none) (c := chanOf a) (a := a) (by rw [here]; exact hq) (min cls 4)
  rw [here] at hr
  rw [offer_read_enters cls idle none_waits room]
  refine ⟨⟨r, ?_, addr, held⟩, mem, ((only_offered s a cls none).trans only).trans (only_setDram _ _ _)⟩
  rw [getDram_setDram, if_pos rfl]
  exact hr

theorem only_offer_read (cls : Nat) : onlyChanges [.dram, .counters] s (offer s a cls none) := by
  have entered := enterRead_evolves (m := 2112) (offered s a cls none) (chanOf a) a (min cls 4) rfl
    (setDram_evolves _ _ _ rfl .rfl)
  rw [offer_read_enters cls idle none_waits room]
  exact (setDram_evolves _ _ _ rfl entered).only (by decide)

theorem offer_read_of_partial {w : DramWr} (hq : queuedWrite (getDram s (chanOf a)) a = some w)
    (partly : w.bytes.all (fun b => b.isSome) = false) (cls : Nat) :
    (∃ r, (getDram (offer s a cls none) (chanOf a)).reads = (getDram s (chanOf a)).reads ++ [r] ∧ r.addr = a ∧
        r.held = true) ∧
      counted s (offer s a cls none) (pgDrc (chanOf a)) 9 ∧ (offer s a cls none).dram.mem = s.dram.mem := by
  have here := getDram_offered_alone none_waits cls none
  obtain ⟨⟨r, hr, addr, held⟩, count, mem⟩ :=
    enterRead_of_partial (s := offered s a cls none) (c := chanOf a) (a := a) (by rw [here]; exact hq) partly (min cls 4)
  rw [here] at hr
  rw [offer_read_enters cls idle none_waits room]
  refine ⟨⟨r, ?_, addr, held⟩, count, mem⟩
  rw [getDram_setDram, if_pos rfl]
  exact hr

theorem offer_read_of_covered {w : DramWr} (hq : queuedWrite (getDram s (chanOf a)) a = some w)
    (covers : w.bytes.all (fun b => b.isSome) = true) (cls : Nat) :
    (offer s a cls none).dram.lastRead = w.bytes.map (fun b => b.getD 0#8) ∧
      (∀ c, getDram (offer s a cls none) c = getDram s c) ∧
      counted s (offer s a cls none) (pgDrc (chanOf a)) 8 ∧ (offer s a cls none).dram.mem = s.dram.mem := by
  have here := getDram_offered_alone none_waits cls none
  obtain ⟨last, queues, count, mem⟩ :=
    enterRead_of_covered (s := offered s a cls none) (c := chanOf a) (a := a) (by rw [here]; exact hq) covers rfl (min cls 4)
  rw [offer_read_enters cls idle none_waits room]
  refine ⟨last, fun c => ?_, count, mem⟩
  rw [getDram_setDram, queues, queues]
  split
  · next same => rw [same, here, ← none_waits]
  · next other => exact getDram_offered_other other s cls none

end Reads

/-! ### The issue of a write -/

theorem memByte_writeBlock_before (bs : List (Option Byte)) :
    ∀ (m : List Host.Cell) (a : Nat) {b : Nat}, b < a → memByte (writeBlock m a bs) b = memByte m b := by
  induction bs with
  | nil => exact fun _ _ _ _ => rfl
  | cons x bs ih =>
    intro m a b before
    cases x with
    | none => exact ih m (a + 1) (by omega)
    | some v => rw [writeBlock, ih _ _ (by omega), memByte_memSet, if_neg (by omega)]

theorem memByte_writeBlock_beyond (bs : List (Option Byte)) :
    ∀ (m : List Host.Cell) (a : Nat) {b : Nat}, a + bs.length ≤ b → memByte (writeBlock m a bs) b = memByte m b := by
  induction bs with
  | nil => exact fun _ _ _ _ => rfl
  | cons x bs ih =>
    intro m a b beyond
    rw [List.length_cons] at beyond
    cases x with
    | none => exact ih m (a + 1) (by omega)
    | some v => rw [writeBlock, ih _ _ (by omega), memByte_memSet, if_neg (by omega)]

/-- The enabled bytes of a block are stored, the others stay. -/
theorem memByte_writeBlock_inside (bs : List (Option Byte)) :
    ∀ (m : List Host.Cell) (a : Nat) {i : Nat}, i < bs.length →
      memByte (writeBlock m a bs) (a + i) = bs[i]?.join.getD (memByte m (a + i)) := by
  induction bs with
  | nil => exact fun _ _ _ h => absurd h (Nat.not_lt_zero _)
  | cons x bs ih =>
    intro m a i inside
    rw [List.length_cons] at inside
    cases i with
    | zero =>
      cases x with
      | none => exact memByte_writeBlock_before bs m (a + 1) (by omega)
      | some v => rw [writeBlock, memByte_writeBlock_before bs _ _ (by omega), memByte_memSet, if_pos (by omega)]; rfl
    | succ i =>
      have at_ : a + (i + 1) = a + 1 + i := by omega
      have later := fun m => ih m (a + 1) (i := i) (by omega)
      cases x with
      | none => rw [at_, writeBlock, later, List.getElem?_cons_succ]
      | some v => rw [at_, writeBlock, later, List.getElem?_cons_succ, memByte_memSet, if_neg (by omega)]

/-! ### What an issue reads and leaves -/

theorem memRead_eq (m : List Host.Cell) (n : Nat) : ∀ a, memRead m a n = (List.range n).map (fun i => memByte m (a + i)) := by
  induction n with
  | zero => exact fun _ => rfl
  | succ n ih =>
    intro a
    rw [memRead, ih, List.range_succ_eq_map, List.map_cons, List.map_map]
    congr 1
    exact List.map_congr_left fun i _ => by simp [Nat.add_assoc, Nat.add_comm 1 i]

theorem density_of_regs (h : t.regs = s.regs) : density_ t = density_ s := by rw [density_, rdf, rd, h]; rfl

theorem bankOf_of_regs (h : t.regs = s.regs) (a : Nat) : bankOf t a = bankOf s a := by simp only [bankOf, density_of_regs h]

theorem rowOf_of_regs (h : t.regs = s.regs) (a : Nat) : rowOf t a = rowOf s a := by simp only [rowOf, density_of_regs h]

/-- A read of a block is decided by the tiles, the committed words and the bytes of image memory. -/
theorem blockBytes_of_parts (committed : t.committed = s.committed) (print : t.print = s.print)
    (mem : t.dram.mem = s.dram.mem) (a : Nat) : blockBytes t a = blockBytes s a := by
  have table : descTable t = descTable s := by simp only [descTable, cmf, cm, committed]
  have size : cmf t (ra pgFirn 0x54) 21 0 = cmf s (ra pgFirn 0x54) 21 0 := by simp only [cmf, cm, committed]
  have tile (i : Nat) : descTile t i = descTile s i := by
    unfold descTile
    rw [print]
    simp only [findTile, print]
  simp only [blockBytes, table, size, tile, mem]

theorem mem_touchRow (s : State) (k a : Nat) (x : Cand) : (touchRow s k a x).dram.mem = s.dram.mem := rfl

theorem sends_dramAt (s : State) (k kind a b : Nat) (x : Cand) :
    (dramAt (touchRow s k a x) k kind b).out = s.out ++ [.dram k kind (bankOf s b) (rowOf s b) (colOf b)] := by
  have regs : (touchRow s k a x).regs = s.regs := (touchRow_evolves (m := 2048) _ _ _ _ rfl .rfl).same .regs rfl
  have out : (touchRow s k a x).out = s.out := (touchRow_evolves (m := 2048) _ _ _ _ rfl .rfl).same .out rfl
  simp only [dramAt, send, bankOf_of_regs regs, rowOf_of_regs regs, out]
/-- The state after a chosen write has gone to image memory, before the queues are looked at again. -/
def storedWrite (s : State) (k : Nat) (x : Cand) (w : DramWr) : State :=
  let u := countN (dramAt (touchRow s k w.addr x) k 2 w.addr) (pgDrc (k / 2)) 5 (w.bytes.filter (fun b => b.isSome)).length
  let u := { u with dram := { u.dram with mem := writeBlock u.dram.mem w.addr w.bytes } }
  setDram u (k / 2) { getDram s (k / 2) with
    writes := (getDram s (k / 2)).writes.filter (fun v => v.id != x.id),
    drain := (getDram s (k / 2)).drain && decide (16 < ((getDram s (k / 2)).writes.filter (fun v => v.id != x.id)).length),
    reads := (getDram s (k / 2)).reads.map (fun r => if r.addr = w.addr then { r with held := false } else r) }

/-- The state after a chosen read has been answered, before what waits enters. -/
def answeredRead (s : State) (k : Nat) (x : Cand) (r : DramReq) : State :=
  let u := countRead (dramAt (touchRow s k r.addr x) k 1 r.addr) r.addr r.cls
  let u := { u with dram := { u.dram with lastRead := blockBytes u r.addr } }
  setDram u (k / 2) { getDram s (k / 2) with reads := (getDram s (k / 2)).reads.filter (fun v => v.id != x.id) }

theorem enterSelf_setDram (idle : freqBusy s = false) (c : Nat) (ch : DramChan) :
    enterSelf (setDram s c ch) = setDram s c ch := by
  have idle' : freqBusy (setDram s c ch) = false := (freqBusy_of_regs rfl).trans idle
  simp only [enterSelf, idle', Bool.false_and, Bool.false_eq_true, if_false]

theorem exec_requestIssue_write {k : Nat} {x : Cand} {w : DramWr} (hk : k < 8) (serves : subState s k = 1)
    (trained : (getSub s k).retrainDue = false) (chosen : choose s k = some x) (hx : x.write = true)
    (hw : (getDram s (k / 2)).writes.find? (fun w => w.id == x.id) = some w) :
    exec (.requestIssue k) s = .next (enterSelf (enterWaiting (storedWrite s k x w) (k / 2))) := by
  simp only [exec, execRequestIssue, Nat.mod_eq_of_lt hk, serves, trained, chosen, hx, hw, ne_eq, not_true_eq_false,
    Bool.false_eq_true, or_self, if_false, if_true]
  rfl

theorem exec_requestIssue_read {k : Nat} {x : Cand} {r : DramReq} (hk : k < 8) (serves : subState s k = 1)
    (trained : (getSub s k).retrainDue = false) (chosen : choose s k = some x) (hx : x.write = false)
    (hr : (getDram s (k / 2)).reads.find? (fun r => r.id == x.id) = some r) :
    exec (.requestIssue k) s = .next (enterSelf (enterWaiting (answeredRead s k x r) (k / 2))) := by
  simp only [exec, execRequestIssue, Nat.mod_eq_of_lt hk, serves, trained, chosen, hx, hr, ne_eq, not_true_eq_false,
    Bool.false_eq_true, or_self, if_false]
  rfl


theorem storedWrite_evolves (s : State) (k : Nat) (x : Cand) (w : DramWr) : Evolves 8390720 s (storedWrite s k x w) :=
  setDram_evolves _ _ _ rfl (.upd_2048 rfl (fun h => writeBlock_wf h _ _) (countN_evolves _ _ _ _ rfl
    (dramAt_evolves _ _ _ _ rfl (touchRow_evolves _ _ _ _ rfl .rfl))))

theorem answeredRead_evolves (s : State) (k : Nat) (x : Cand) (r : DramReq) : Evolves 8390720 s (answeredRead s k x r) :=
  setDram_evolves _ _ _ rfl (.upd_2048 rfl id (countRead_evolves _ _ _ rfl
    (dramAt_evolves _ _ _ _ rfl (touchRow_evolves _ _ _ _ rfl .rfl))))

theorem getDram_storedWrite (s : State) (k : Nat) (x : Cand) (w : DramWr) :
    (getDram (storedWrite s k x w) (k / 2)).offers = (getDram s (k / 2)).offers ∧
      (getDram (storedWrite s k x w) (k / 2)).writes = (getDram s (k / 2)).writes.filter (fun v => v.id != x.id) ∧
      (getDram (storedWrite s k x w) (k / 2)).reads =
        (getDram s (k / 2)).reads.map (fun r => if r.addr = w.addr then { r with held := false } else r) := by
  simp only [storedWrite, getDram_setDram, if_pos, and_self]

theorem getDram_answeredRead (s : State) (k : Nat) (x : Cand) (r : DramReq) :
    getDram (answeredRead s k x r) (k / 2) =
      { getDram s (k / 2) with reads := (getDram s (k / 2)).reads.filter (fun v => v.id != x.id) } := by
  simp only [answeredRead, getDram_setDram, if_pos]

/-- Where nothing waits for the channel, an issue ends with the queues as they are. -/
theorem issue_ends {u : State} (idle : freqBusy u = false) (none_waits : (getDram u c).offers = []) :
    getDram (enterSelf (enterWaiting u c)) c = getDram u c ∧ (enterSelf (enterWaiting u c)).dram.mem = u.dram.mem ∧
      (enterSelf (enterWaiting u c)).dram.lastRead = u.dram.lastRead ∧
      Evolves 2048 u (enterSelf (enterWaiting u c)) := by
  rw [enterWaiting_none idle none_waits, enterSelf_setDram idle, getDram_setDram, if_pos rfl]
  exact ⟨rfl, rfl, rfl, setDram_evolves _ _ _ rfl .rfl⟩

theorem lastRead_answeredRead (s : State) (k : Nat) (x : Cand) (r : DramReq) :
    (answeredRead s k x r).dram.lastRead = blockBytes s r.addr := by
  have sent : Evolves 8390720 s (countRead (dramAt (touchRow s k r.addr x) k 1 r.addr) r.addr r.cls) :=
    countRead_evolves _ _ _ rfl (dramAt_evolves _ _ _ _ rfl (touchRow_evolves _ _ _ _ rfl .rfl))
  exact blockBytes_of_parts (sent.same .committed rfl) (sent.same .print rfl) rfl r.addr

theorem mem_with_lastRead (u : State) (bs : List Byte) :
    ({ u with dram := { u.dram with lastRead := bs } } : State).dram.mem = u.dram.mem ∧
      ({ u with dram := { u.dram with lastRead := bs } } : State).out = u.out := ⟨rfl, rfl⟩

theorem mem_setDram (u : State) (c : Nat) (ch : DramChan) :
    (setDram u c ch).dram.mem = u.dram.mem ∧ (setDram u c ch).dram.lastRead = u.dram.lastRead ∧ (setDram u c ch).out = u.out :=
  ⟨rfl, rfl, rfl⟩

/-- What an answered read leaves, and what it sends. -/
theorem mem_answeredRead (s : State) (k : Nat) (x : Cand) (r : DramReq) :
    (answeredRead s k x r).dram.mem = s.dram.mem ∧
      sends s (answeredRead s k x r) [.dram k 1 (bankOf s r.addr) (rowOf s r.addr) (colOf r.addr)] := by
  simp only [answeredRead, sends]
  rw [(mem_setDram _ _ _).1, (mem_setDram _ _ _).2.2, (mem_with_lastRead _ _).1, (mem_with_lastRead _ _).2]
  exact ⟨by rw [dram_countRead, show (dramAt _ k 1 r.addr).dram = _ from (dramAt_evolves (m := 8388608) _ _ _ _ rfl .rfl).same .dram rfl,
        mem_touchRow],
    ((countRead_evolves (m := 64) _ _ _ rfl .rfl).same .out rfl).trans (sends_dramAt s k 1 r.addr r.addr x)⟩

theorem blockBytes_of_descriptor {a : Nat} {u : Tile} (lo : descTable s ≤ a) (hi : a < descTable s + 64 * descCount s)
    (ht : descTile s ((a - descTable s) / 64) = some u) : blockBytes s a = descBytes u := by
  rw [blockBytes, if_pos ⟨lo, hi⟩]
  simp only [ht]

theorem blockBytes_of_memory {a : Nat} (h : a < descTable s ∨ descTable s + 64 * descCount s ≤ a) :
    blockBytes s a = (List.range 64).map (fun i => memByte s.dram.mem (a + i)) := by
  rw [blockBytes, if_neg (by rw [← descCount]; omega), memRead_eq]

end Sys2Proof.Machine

namespace Sys2Proof.Proofs
open Sys2Proof Sys2Proof.Machine

theorem dramQueues : DramQueuesRule := by
  have block {a : Nat} (h : a % 64 = 0) : a / 64 * 64 = a := by omega
  refine ⟨fun s a cls bs aligned inside none_waits => ⟨fun waits => ?_, fun idle hq room => ?_⟩,
    fun s a cls aligned inside none_waits waits => ?_, fun s a cls aligned inside idle none_waits room => ⟨fun hq => ?_,
      fun w hq => ⟨fun covers => ?_, fun partly => ?_⟩⟩⟩
  · obtain ⟨here, beside, mem, only⟩ := offer_waits (cls := cls) (bytes := some (mergeBytes [] bs)) none_waits
      (waits.imp_right fun ⟨hq, full⟩ => by simp [hasRoom, hq, full])
    refine ⟨_, by simp [exec, execDramWrite, block aligned, inside], ⟨⟨a, min cls 4, some (mergeBytes [] bs)⟩, ?_, rfl, rfl, rfl⟩, ?_, ?_, beside,
      mem, only⟩ <;> rw [here]
    rfl
  · obtain ⟨⟨w, hw, addr, class_, bytes⟩, reads, beside, mem, only⟩ :=
      offer_write_enters (cls := cls) (bs := mergeBytes [] bs) idle none_waits hq room
    refine ⟨_, by simp [exec, execDramWrite, block aligned, inside], ⟨w, hw, addr, class_, fun i hi => ?_⟩, reads, beside, mem,
      only⟩
    rw [bytes, mergeBytes_getElem? _ _ hi]
    simp
  · obtain ⟨here, beside, mem, only⟩ := offer_waits (cls := cls) (bytes := none) none_waits
      (waits.imp_right fun full => by simp [hasRoom, full])
    refine ⟨_, by simp [exec, execDramRead, block aligned, inside], ⟨⟨a, min cls 4, none⟩, ?_, rfl, rfl, rfl⟩, ?_, ?_, beside,
      mem, only⟩ <;> rw [here]
    rfl
  · exact ⟨_, by simp [exec, execDramRead, block aligned, inside], offer_read_of_new idle none_waits room hq cls⟩
  · obtain ⟨last, queues, count, mem⟩ := offer_read_of_covered idle none_waits room hq covers cls
    exact ⟨_, by simp [exec, execDramRead, block aligned, inside], last, queues, count, mem,
      only_offer_read idle none_waits room cls⟩
  · obtain ⟨entered, count, mem⟩ := offer_read_of_partial idle none_waits room hq partly cls
    exact ⟨_, by simp [exec, execDramRead, block aligned, inside], entered, count, mem,
      only_offer_read idle none_waits room cls⟩

/-- A chosen write is stored and leaves its queue. -/
theorem writeIssue {s : State} {k : Nat} {x : Cand} {w : DramWr} (hk : k < 8) (serves : subState s k = 1)
    (trained : (getSub s k).retrainDue = false) (idle : freqBusy s = false) (chosen : choose s k = some x)
    (hx : x.write = true) (hw : (getDram s (k / 2)).writes.find? (fun w => w.id == x.id) = some w)
    (none_waits : (getDram s (k / 2)).offers = []) :
    completes (.requestIssue k) s (fun t =>
      t.dram.mem = writeBlock s.dram.mem w.addr w.bytes ∧
        (∀ v ∈ (getDram t (k / 2)).writes, v.id ≠ x.id) ∧
        (∀ r ∈ (getDram t (k / 2)).reads, r.addr = w.addr → r.held = false) ∧
        sends s t [.dram k 2 (bankOf s w.addr) (rowOf s w.addr) (colOf w.addr)] ∧
        onlyChanges [.counters, .dram, .out] s t) := by
  obtain ⟨offers, writes, reads⟩ := getDram_storedWrite s k x w
  have stored := storedWrite_evolves s k x w
  obtain ⟨queues, mem, -, step⟩ := issue_ends (u := storedWrite s k x w) (c := k / 2)
    ((freqBusy_of_regs (stored.same .regs rfl)).trans idle) (offers.trans none_waits)
  refine ⟨_, exec_requestIssue_write hk serves trained chosen hx hw, ?_⟩
  generalize enterSelf (enterWaiting (storedWrite s k x w) (k / 2)) = t at queues mem step ⊢
  rw [queues, writes, reads]
  refine ⟨mem, fun v hv => ?_, fun r hr same => ?_, (step.same .out rfl).trans (sends_dramAt s k 2 w.addr w.addr x),
    (stored.trans (step.mono rfl)).only (by decide)⟩
  · simpa using (List.mem_filter.1 hv).2
  · obtain ⟨q, -, rfl⟩ := List.mem_map.1 hr
    by_cases here : q.addr = w.addr
    · rw [if_pos here]
    · rw [if_neg here] at same
      exact absurd same here

theorem agePromotion_of_read {s : State} {c id : Nat} {r : DramReq} (hc : c < 4) (hr : r ∈ (getDram s c).reads)
    (hid : r.id = id) (hcls : r.cls ≠ 0) (fresh : r.promoted = false) :
    completes (.agePromotion c id) s (fun t =>
      { r with promoted := true } ∈ (getDram t c).reads ∧ (getDram t c).reads.length = (getDram s c).reads.length ∧
        counted s t (pgDrc c) 10 ∧ countersKept (pgDrc c) 10 s t ∧ t.dram.mem = s.dram.mem ∧
        onlyChanges [.counters, .dram] s t) := by
  have hit : (r.id == id && r.cls != 0 && !r.promoted) = true := by simp [hid, hcls, fresh]
  have waits : (getDram s c).reads.any (fun r => r.id == id && r.cls != 0 && !r.promoted) = true :=
    List.any_eq_true.2 ⟨r, hr, hit⟩
  refine ⟨_, by simp only [exec, execAgePromotion, Nat.mod_eq_of_lt hc, waits, Bool.true_or, if_true]; rfl, ?_⟩
  beta_reduce
  rw [getDram_setDram, if_pos rfl]
  refine ⟨List.mem_map.2 ⟨r, hr, if_pos hit⟩, List.length_map .., ?_, fun q j other => ?_, rfl,
    (setDram_evolves _ _ _ rfl (count_evolves (m := 2112) s _ _ rfl .rfl)).only (by decide)⟩
  · rw [counted, (setDram_evolves (m := 2048) _ _ _ rfl .rfl).counter_eq rfl, counter_count, if_pos rfl]
  · rw [(setDram_evolves (m := 2048) _ _ _ rfl .rfl).counter_eq rfl, counter_count, if_neg other]

/-- A chosen read answers its 64 bytes and leaves its queue. -/
theorem readIssue {s : State} {k : Nat} {x : Cand} {r : DramReq} (hk : k < 8) (serves : subState s k = 1)
    (trained : (getSub s k).retrainDue = false) (idle : freqBusy s = false) (chosen : choose s k = some x)
    (hx : x.write = false) (hr : (getDram s (k / 2)).reads.find? (fun r => r.id == x.id) = some r)
    (none_waits : (getDram s (k / 2)).offers = []) :
    completes (.requestIssue k) s (fun t =>
      (r.addr < descTable s ∨ descTable s + 64 * descCount s ≤ r.addr →
        t.dram.lastRead = (List.range 64).map (fun i => memByte s.dram.mem (r.addr + i))) ∧
      (∀ u, descTable s ≤ r.addr → r.addr < descTable s + 64 * descCount s →
        descTile s ((r.addr - descTable s) / 64) = some u → t.dram.lastRead = descBytes u) ∧
      t.dram.mem = s.dram.mem ∧ (∀ v ∈ (getDram t (k / 2)).reads, v.id ≠ x.id) ∧
      sends s t [.dram k 1 (bankOf s r.addr) (rowOf s r.addr) (colOf r.addr)] ∧
      onlyChanges [.counters, .dram, .out] s t) := by
  have answered := answeredRead_evolves s k x r
  have here := getDram_answeredRead s k x r
  obtain ⟨queues, same_mem, same_last, step⟩ := issue_ends (u := answeredRead s k x r) (c := k / 2)
    ((freqBusy_of_regs (answered.same .regs rfl)).trans idle) (by rw [here]; exact none_waits)
  obtain ⟨mem, sent⟩ := mem_answeredRead s k x r
  have last := same_last.trans (lastRead_answeredRead s k x r)
  refine ⟨_, exec_requestIssue_read hk serves trained chosen hx hr, ?_⟩
  generalize enterSelf (enterWaiting (answeredRead s k x r) (k / 2)) = t at queues same_mem last step ⊢
  rw [queues, here]
  refine ⟨fun h => last.trans (blockBytes_of_memory h), fun u lo hi ht => last.trans (blockBytes_of_descriptor lo hi ht),
    same_mem.trans mem, fun v hv => ?_, Eq.trans (step.same .out rfl) sent, (answered.trans (step.mono rfl)).only (by decide)⟩
  simpa using (List.mem_filter.1 hv).2

/-- A read that waits at its source enters the queue that a chosen read leaves. -/
theorem readIssue_enters {s : State} {k : Nat} {x : Cand} {r : DramReq} {o : DramOffer} (hk : k < 8) (serves : subState s k = 1)
    (trained : (getSub s k).retrainDue = false) (idle : freqBusy s = false) (chosen : choose s k = some x)
    (hx : x.write = false) (hr : (getDram s (k / 2)).reads.find? (fun r => r.id == x.id) = some r)
    (ho : (getDram s (k / 2)).offers = [o]) (hb : o.bytes = none) (hq : queuedWrite (getDram s (k / 2)) o.addr = none)
    (room : (getDram s (k / 2)).reads.length ≤ 128) :
    completes (.requestIssue k) s (fun t =>
      (getDram t (k / 2)).offers = [] ∧
        ∃ q, (getDram t (k / 2)).reads = (getDram s (k / 2)).reads.filter (fun v => v.id != x.id) ++ [q] ∧
          q.addr = o.addr ∧ q.cls = o.cls ∧ q.held = false) := by
  have answered := answeredRead_evolves s k x r
  have here := getDram_answeredRead s k x r
  have idle' := (freqBusy_of_regs (answered.same .regs rfl)).trans idle
  have left : ((getDram s (k / 2)).reads.filter (fun v => v.id != x.id)).length < 128 := by
    have named := List.find?_some hr
    have fewer : ((getDram s (k / 2)).reads.filter (fun v => v.id != x.id)).length < _ :=
      List.length_filter_lt_length_iff_exists.2 ⟨r, List.mem_of_find?_eq_some hr, by simpa using named⟩
    omega
  have fits : hasRoom (answeredRead s k x r) (k / 2) o = true := by simp only [hasRoom, hb, here]; simpa using left
  have entered := enterWaiting_read idle' (by rw [here]; exact ho) hb fits
  obtain ⟨⟨q, hq', addr, class_, held⟩, -, only⟩ :=
    enterRead_of_new (s := answeredRead s k x r) (c := k / 2) (a := o.addr) (by rw [here]; exact hq) o.cls
  refine ⟨_, exec_requestIssue_read hk serves trained chosen hx hr, ?_⟩
  have still : freqBusy (enterRead (answeredRead s k x r) (k / 2) o.addr o.cls) = false :=
    (freqBusy_of_regs (only .regs (by simp))).trans idle'
  rw [entered, enterSelf_setDram still]
  beta_reduce
  rw [getDram_setDram, if_pos rfl]
  rw [here] at hq'
  exact ⟨rfl, q, hq', addr, class_, held⟩

theorem dramIssue : DramIssueRule := by
  refine ⟨fun s k x hk serves trained idle chosen => ⟨fun w hx hw _ none_waits => ?_, fun r hx hr =>
    ⟨fun none_waits => ?_, fun o ho hb hq room => ?_⟩⟩, fun s c id r hc hr hid hcls fresh => ?_⟩
  · obtain ⟨t, ht, mem, left, freed, sent, only⟩ := writeIssue hk serves trained idle chosen hx hw none_waits
    refine ⟨t, ht, fun i hi => ?_, fun b hb => ?_, left, freed, sent, only⟩
    · rw [mem, memByte_writeBlock_inside _ _ _ hi]
      cases w.bytes[i]?.join <;> rfl
    · rw [mem]
      exact hb.elim (memByte_writeBlock_before _ _ _) (memByte_writeBlock_beyond _ _ _)
  · exact readIssue hk serves trained idle chosen hx hr none_waits
  · exact readIssue_enters hk serves trained idle chosen hx hr ho hb hq room
  · exact agePromotion_of_read hc hr hid hcls fresh

/-- Settles O22: a request waits or enters as its channel has room, and a chosen one is issued and leaves its queue. -/
theorem dramRequests : Obligations.DramRequests := ⟨dramQueues, dramIssue⟩

end Sys2Proof.Proofs
end

section
/-! PROOFS. EdgesOfChannels and PositionRegisters (R149 to R172): count edges of a channel, its registers and its timers. -/

namespace Sys2Proof.Machine
open Sys2Proof

variable {s t : State}

/-! ### Events that stay -/

theorem evPend_of_regs (h : t.regs = s.regs) (p : Nat) : evPend t p = evPend s p := by rw [evPend, rd, h, evPend, rd]

/-- An event bit stays set while other events are raised. -/
theorem testBit_evPend_ev {p i : Nat} (h : (evPend s p).testBit i = true) (q b : Nat) :
    (evPend (ev s q b) p).testBit i = true := by
  rw [evPend, rd_ev]
  split
  · next same =>
    have low : i < 32 := by
      by_contra high
      have small : evPend s p < 2 ^ i := (rd_lt s _).trans_le (Nat.pow_le_pow_right (by decide) (Nat.le_of_not_lt high))
      rw [Nat.testBit_lt_two_pow small] at h
      exact absurd h (by decide)
    have page : evPend s q = evPend s p := by rw [evPend, evPend, same]
    rw [Nat.testBit_mod_two_pow, Nat.testBit_or, page, h]
    simp [low]
  · exact h

theorem testBit_evPend_raised (s : State) (p : Nat) {b : Nat} (hb : b < 32) : (evPend (ev s p b) p).testBit b = true := by
  rw [raised_ev s p hb, Nat.testBit_or, Nat.testBit_two_pow_self, Bool.or_true]

/-- An event bit stays set while a fault below class D is recorded. -/
theorem testBit_evPend_fault {p i : Nat} (h : (evPend s p).testBit i = true) (code page bar : Nat) {cls : Nat} (hc : cls ≠ 3)
    (d : List Nat) : (evPend (fault s code cls page bar d) p).testBit i = true := by
  have armed (u : State) (c : Prop) [Decidable c] : evPend (if c then armSnapshot u 2 else u) p = evPend u p := by
    split <;> rfl
  have entered (r : FaultRecord) : (nvEnter (ramEnter s r) r).regs = s.regs :=
    (nvEnter_evolves _ _ (m := 1048640) rfl (ramEnter_evolves s r rfl .rfl)).same .regs rfl
  simp only [fault, faultAt, if_neg hc, armed]
  refine testBit_evPend_ev (testBit_evPend_ev ?_ _ _) _ _
  rw [evPend_of_regs (s := s)]
  · exact h
  · simp only [count_fields]
    exact entered _

/-! ### The pass-through outputs -/

theorem getChan_of_chans (h : t.chans = s.chans) (c : Nat) : getChan t c = getChan s c := by rw [getChan, h, getChan]

/-- What the pass-through outputs show is decided by the mode of the channel and its accepted levels. -/
theorem ptOut_of_levels {c : Nat} (regs : t.regs = s.regs) (sys : t.sys = s.sys)
    (levels : (getChan t c).levels = (getChan s c).levels) : ptOut t c = ptOut s c := by
  have word (a hi lo : Nat) : rdf t a hi lo = rdf s a hi lo := by rw [rdf, rd, regs]; rfl
  have mode : posMode t c = posMode s c := word _ _ _
  simp only [ptOut, mode, word, sys, levels]

/-- Outputs that do not differ are not sent. -/
theorem ptShowAll_same (h : ∀ c, ptOut t c = ptOut s c) : ptShowAll s t = t := by
  have each (l : List Nat) : l.foldl (fun u c => ptShow (ptOut s c) u c) t = t := by
    induction l with
    | nil => rfl
    | cons c l ih => rw [List.foldl_cons, ptShow, if_pos (h c), ih]
  exact each _

/-! ### A count edge -/

/-- A channel has the position, the marks and the latch of another. -/
def Channel.latchedAs (a b : Channel) : Prop :=
  a.pos = b.pos ∧ a.latchT = b.latchT ∧ a.high = b.high ∧ a.low = b.low ∧ a.still = b.still

theorem newDir_latched (ch : Channel) (p : Int) : (newDir ch p).latchedAs ch := by
  unfold newDir
  dsimp only
  split_ifs <;> exact ⟨rfl, rfl, rfl, rfl, rfl⟩

/-- Only channel c may differ, and its position, marks and latch do not. -/
def latchKept (c : Nat) (s t : State) : Prop :=
  (getChan t c).latchedAs (getChan s c) ∧ ∀ e, e ≠ c → getChan t e = getChan s e

theorem latchKept_of_chans (c : Nat) (h : t.chans = s.chans) : latchKept c s t :=
  ⟨by rw [getChan_of_chans h]; exact ⟨rfl, rfl, rfl, rfl, rfl⟩, fun e _ => getChan_of_chans h e⟩

theorem latchKept.trans {c : Nat} {u : State} (h : latchKept c s t) (g : latchKept c t u) : latchKept c s u := by
  obtain ⟨⟨h1, h2, h3, h4, h5⟩, h6⟩ := h
  obtain ⟨⟨g1, g2, g3, g4, g5⟩, g6⟩ := g
  exact ⟨⟨g1.trans h1, g2.trans h2, g3.trans h3, g4.trans h4, g5.trans h5⟩, fun e he => (g6 e he).trans (h6 e he)⟩

theorem latchKept_setChan {c : Nat} {ch : Channel} (h : ch.latchedAs (getChan s c)) : latchKept c s (setChan s c ch) :=
  ⟨by rw [getChan_setChan, if_pos rfl]; exact h, fun e he => by rw [getChan_setChan, if_neg he]⟩

theorem chans_ev (s : State) (p b : Nat) : (ev s p b).chans = s.chans :=
  (ev_evolves (m := 8523841) s p b (by decide) .rfl).same .chans rfl

theorem latchKept_chooseWindow (s : State) (c : Nat) : latchKept c s (chooseWindow s c) := by
  unfold chooseWindow
  dsimp only
  split
  · exact (latchKept_setChan (ch := { getChan s c with useWindow := true }) ⟨rfl, rfl, rfl, rfl, rfl⟩).trans
      (latchKept_of_chans c (chans_ev _ _ _))
  · exact latchKept_of_chans c rfl

theorem latchKept_choosePeriod (s : State) (c : Nat) : latchKept c s (choosePeriod s c) := by
  unfold choosePeriod
  dsimp only
  split
  · exact (latchKept_setChan (ch := { getChan s c with useWindow := false }) ⟨rfl, rfl, rfl, rfl, rfl⟩).trans
      (latchKept_of_chans c (chans_ev _ _ _))
  · exact latchKept_of_chans c rfl

theorem latchKept_reversal (s : State) (c : Nat) (within : Bool) : latchKept c s (reversal s c within) := by
  unfold reversal
  dsimp only
  have marked : latchKept c s (setChan s c { getChan s c with reversed := true }) :=
    latchKept_setChan ⟨rfl, rfl, rfl, rfl, rfl⟩
  split
  · split
    · exact marked
    · refine marked.trans (latchKept_of_chans c ?_)
      exact ((fault_evolves (m := 11728193) _ _ _ _ _ _ (by decide) (ev_evolves _ _ _ (by decide)
        (stopBars_evolves _ _ (by decide) .rfl))).same .chans rfl)
  · exact latchKept_of_chans c rfl

/-- After the position has been latched, a count changes the speed, the direction and the reversal of the channel only. -/
theorem latchKept_countEdge (s : State) (c : Nat) (d : Int) (t : Nat) :
    ∃ ch : Channel, latchKept c (setChan s c ch) (countEdge s c d t) ∧ ch.pos = (getChan s c).pos + d * 65536 ∧ ch.latchT = t ∧
      ch.high = max (getChan s c).high ch.pos ∧ ch.low = min (getChan s c).low ch.pos ∧ ch.still = false := by
  unfold countEdge
  extract_lets within ch1 ch2 ch3 ch4 u1 ch5 u2 u3 u4 u5
  obtain ⟨pos, -, high, low, -⟩ : ch1.latchedAs _ := newDir_latched _ _
  obtain ⟨pos4, time4, high4, low4, still4⟩ : ch4.latchedAs ch3 := by
    dsimp only [ch4]
    split <;> exact ⟨rfl, rfl, rfl, rfl, rfl⟩
  have first : latchKept c (setChan s c ch4) u1 := latchKept_chooseWindow _ c
  have second : latchKept c u1 u2 := latchKept_setChan ⟨rfl, rfl, rfl, rfl, rfl⟩
  have third : latchKept c u2 u3 := latchKept_of_chans c (by simp only [u3, count_fields])
  have fourth : latchKept c u3 u4 := latchKept_reversal _ c _
  have fifth : latchKept c u4 u5 := latchKept_of_chans c (Evolves.same (m := 12320065)
    (.foldl .rfl fun x y h => .ite (fun _ => lineStarts_evolves _ _ rfl h) fun _ => h) .chans rfl)
  refine ⟨ch4, ?_, pos4.trans pos, time4, high4.trans (high.trans ?_), low4.trans (low.trans ?_), still4⟩
  · exact (first.trans (second.trans (third.trans (fourth.trans fifth)))).trans
      (latchKept_of_chans c ((masterEvent_evolves _ _ (m := 8589377) rfl .rfl).same .chans rfl))
  · rw [pos4.trans pos]
  · rw [pos4.trans pos]

/-! ### Accepted levels -/

theorem withLevels_latched (ch : Channel) (u v w : Bool) : (withLevels ch u v w).latchedAs ch := ⟨rfl, rfl, rfl, rfl, rfl⟩

theorem decodeEdge_levels (s : State) (c : Nat) (u v w : Bool) : (decodeEdge s c u v w).2 = withLevels (getChan s c) u v w := by
  unfold decodeEdge
  dsimp only
  split
  · rfl
  · split <;> rfl

/-- The state with the new levels of a channel, its pass-through outputs shown. -/
def edgeSeen (s : State) (c : Nat) (u v w : Bool) : State :=
  ptShowAll s (setChan s c (withLevels (getChan s c) u v w))

theorem edgeSeen_evolves (s : State) (c : Nat) (u v w : Bool) : Evolves 8389120 s (edgeSeen s c u v w) :=
  ptShowAll_evolves _ _ rfl (setChan_evolves _ _ _ rfl .rfl)

theorem getChan_edgeSeen (s : State) (c : Nat) (u v w : Bool) (e : Nat) :
    getChan (edgeSeen s c u v w) e = if e = c then withLevels (getChan s c) u v w else getChan s e := by
  rw [edgeSeen, getChan_of_chans ((ptShowAll_evolves (m := 8388608) s _ rfl .rfl).same .chans rfl), getChan_setChan]

section Edges
variable {c : Nat} {u v w : Bool} (ph : Nat) (hc : c < 8) (enabled : pgEn s (pgPos c) = true) (counts : incremental s c = true)
include hc enabled counts

theorem exec_countEdge_same (same : (getChan s c).levels = b2n u + 2 * b2n v + 4 * b2n w) :
    exec (.countEdge c u v w ph) s = .next (count (edgeSeen s c u v w) (pgPos c) 7) := by
  have eq : ((decodeEdge s c u v w).2.levels == (getChan s c).levels) = true := by
    rw [decodeEdge_levels, same]; exact beq_self_eq_true _
  simp only [exec, execCountEdge, Nat.mod_eq_of_lt hc, enabled, counts, Bool.and_self, if_true, eq]
  rw [decodeEdge_levels]
  rfl

theorem exec_countEdge_illegal (changed : (getChan s c).levels ≠ b2n u + 2 * b2n v + 4 * b2n w)
    (illegal : (decodeEdge s c u v w).1 = none) :
    exec (.countEdge c u v w ph) s = .next (quadErr (edgeSeen s c u v w) c) := by
  have ne : ((decodeEdge s c u v w).2.levels == (getChan s c).levels) = false := by
    rw [decodeEdge_levels]; exact beq_false_of_ne (Ne.symm changed)
  simp only [exec, execCountEdge, Nat.mod_eq_of_lt hc, enabled, counts, Bool.and_self, if_true, ne, illegal,
    Bool.false_eq_true, if_false]
  rw [decodeEdge_levels]
  rfl

theorem exec_countEdge_counts (hph : ph < 4) (changed : (getChan s c).levels ≠ b2n u + 2 * b2n v + 4 * b2n w) {d : Int}
    (legal : (decodeEdge s c u v w).1 = some d) (moves : d ≠ 0) :
    exec (.countEdge c u v w ph) s = .next (countEdge (edgeSeen s c u v w) c (if rdb s (posA c 0x40) 3 then -d else d)
      ((fireNow s + 2 ^ 48 + 256 * ph - 256 * (posFilt s c + 3)) % 2 ^ 48)) := by
  have ne : ((decodeEdge s c u v w).2.levels == (getChan s c).levels) = false := by
    rw [decodeEdge_levels]; exact beq_false_of_ne (Ne.symm changed)
  have seen := edgeSeen_evolves s c u v w
  have time : fireNow (edgeSeen s c u v w) = fireNow s := by
    rw [fireNow, ptTotalNs, show (edgeSeen s c u v w).clk = s.clk from seen.same .clk rfl]; rfl
  have filter : posFilt (edgeSeen s c u v w) c = posFilt s c := rdf_eq_of_rd (seen.rd_eq rfl _) _ _
  have invert : rdb (edgeSeen s c u v w) (posA c 0x40) 3 = rdb s (posA c 0x40) 3 := by rw [rdb, seen.rd_eq rfl]; rfl
  rw [← time, ← filter, ← invert]
  simp only [exec, execCountEdge, Nat.mod_eq_of_lt hc, enabled, counts, Bool.and_self, if_true, ne, legal, moves,
    Bool.false_eq_true, if_false, Nat.mod_eq_of_lt hph]
  rw [decodeEdge_levels]
  rfl

end Edges


/-- An illegal change of levels: the channels stay, and the fault is recorded. -/
theorem quadErr_records (s : State) (c : Nat) :
    (quadErr s c).chans = s.chans ∧ (evPend (quadErr s c) (pgPos c)).testBit 11 = true ∧ recorded s (quadErr s c) 0x0501 1 := by
  refine ⟨(quadErr_evolves (m := 11728193) s c rfl .rfl).same .chans rfl,
    testBit_evPend_fault (testBit_evPend_raised _ _ (by decide)) _ _ _ (by decide) _,
    recorded_of_keepsLog (keepsLog.of (m := 8524865) ?_ rfl) (recorded_fault _ _ _ _ _ _)⟩
  exact ev_evolves _ _ _ rfl (count_evolves _ _ _ rfl (markPersistent_evolves _ _ rfl .rfl))

end Sys2Proof.Machine

namespace Sys2Proof.Proofs
open Sys2Proof Sys2Proof.Machine

theorem countEdges : CountEdgesRule := by
  intro s c u v w ph hc hph enabled counts x
  have chan := getChan_edgeSeen s c u v w
  have seen := edgeSeen_evolves s c u v w
  refine ⟨fun same => ?_, fun changed => ⟨fun d legal moves => ?_, fun illegal => ?_⟩⟩
  · refine ⟨_, exec_countEdge_same ph hc enabled counts same, ?_⟩
    have shown : edgeSeen s c u v w = setChan s c (withLevels (getChan s c) u v w) := ptShowAll_same fun e => by
      refine ptOut_of_levels rfl rfl ?_
      rw [getChan_setChan]
      split
      · next here => rw [here, same]; rfl
      · rfl
    rw [shown]
    refine ⟨?_, ?_, fun q j other => ?_, ?_⟩
    · simp [getChan_setChan, withLevels]
    · rw [counted, counter_count, if_pos rfl]; rfl
    · rw [counter_count, if_neg other]; rfl
    · exact (count_evolves (m := 576) _ _ _ rfl (setChan_evolves _ _ _ rfl .rfl)).only (by decide)
  · refine ⟨_, exec_countEdge_counts ph hc enabled counts hph changed legal moves, ?_⟩
    obtain ⟨ch, ⟨⟨pos, time, high, low, still⟩, beside⟩, hpos, htime, hhigh, hlow, hstill⟩ := latchKept_countEdge
      (edgeSeen s c u v w) c (if rdb s (posA c 0x40) 3 then -d else d)
      ((fireNow s + 2 ^ 48 + 256 * ph - 256 * (posFilt s c + 3)) % 2 ^ 48)
    simp only [getChan_setChan, if_pos] at pos time high low still
    rw [chan, if_pos rfl] at hpos hhigh hlow
    refine ⟨pos.trans hpos, time.trans htime, ?_, ?_, still.trans hstill, fun e he => ?_⟩
    · rw [pos, high]; exact hhigh
    · rw [pos, low]; exact hlow
    · rw [beside e he, getChan_setChan, if_neg he, chan, if_neg he]
  · refine ⟨_, exec_countEdge_illegal ph hc enabled counts changed illegal, ?_⟩
    obtain ⟨chans, event, record⟩ := quadErr_records (edgeSeen s c u v w) c
    have after (e : Nat) := getChan_of_chans chans e
    refine ⟨?_, ?_, event, recorded_of_keepsLog (.of seen rfl) record, fun e he => ?_⟩
    · rw [after, chan, if_pos rfl]; rfl
    · rw [after, chan, if_pos rfl]; rfl
    · rw [after, chan, if_neg he]

theorem edgeDecoding : EdgeDecodingRule := by
  refine ⟨fun s c a b mode levels => ?_, fun s c l mode => ?_, fun s c k f hf mode legal => ?_⟩
  · simp only [decodeEdge, mode, if_true, withLevels, levels]
    cases a <;> cases b <;> decide
  · have none : switchPlace (4 * b2n l + 2 * b2n l + b2n l) = .none := by cases l <;> rfl
    simp [decodeEdge, mode, none]
  · have place (i : Nat) : switchPlace (4 * b2n (f i).1 + 2 * b2n (f i).2.1 + b2n (f i).2.2) = some (i % 6) := by
      have small : i % 6 < 6 := Nat.mod_lt _ (by decide)
      rw [hf]
      beta_reduce
      interval_cases i % 6 <;> rfl
    simp only [decodeEdge, mode, place, legal, cyclicStep]
    have forward : ((k + 1) % 6 + 6 - k % 6) % 6 = 1 := by omega
    have backward : ((k + 5) % 6 + 6 - k % 6) % 6 = 5 := by omega
    simp [forward, backward]

/-- Settles O25: a count edge decoded by the sequence of its mode moves the position, is illegal, or tells of a rejected pulse. -/
theorem edgesOfChannels : Obligations.EdgesOfChannels := ⟨countEdges, edgeDecoding⟩

end Sys2Proof.Proofs
end

section
/-! PROOFS. PositionRegisters (R149, R160, R161, R165, R167, R172): what acts on a channel beside its edges. -/

namespace Sys2Proof.Machine
open Sys2Proof

variable {s : State}

/-! ### Refused writes -/

theorem refuseIf_true_of_admitted {a v : Nat} (h : admitted s a v) (f : State → State) :
    refuseIf true s a v f = refuse s (a / 4096) := by
  simp [refuseIf, gated_of_admitted h]

/-- A refusal raises REFUSED and changes no other word. -/
theorem refuse_leaves (s : State) {p : Nat} (header : isHeader p = true) :
    raised s (refuse s p) p 4 ∧ wordsKept [ra p 0x24] s (refuse s p) ∧ onlyChanges eventParts s (refuse s p) :=
by
  rw [refuse, headerOf_of_isHeader header]
  exact ⟨raised_ev s p (by decide), wordsKept_ev s p 4, only_ev s p 4⟩

theorem isHeader_pos {c : Nat} (h : c < 8) : isHeader (pgPos c) = true := by
  interval_cases c <;> decide

theorem chanPrinting_of_bars {c : Nat} (h : barsOn s c ≠ []) : chanPrinting s c = true := by simp [chanPrinting, h]

theorem chanPrinting_of_none {c : Nat} (h : barsOn s c = []) : chanPrinting s c = false := by simp [chanPrinting, h]

theorem posA_page (c o : Nat) (ho : o < 4096) : posA c o / 4096 = pgPos c := by
  simp only [posA, ra]
  omega

theorem only_setChan (s : State) (c : Nat) (ch : Channel) : onlyChanges [.chans] s (setChan s c ch) :=
  (setChan_evolves (m := 512) _ _ _ rfl .rfl).only (by decide)

theorem getChan_setChan_beside (s : State) (c : Nat) (ch : Channel) : ∀ e, e ≠ c → getChan (setChan s c ch) e = getChan s e :=
  fun e he => by rw [getChan_setChan, if_neg he]

theorem getChan_setChan_same (s : State) (c : Nat) (ch : Channel) : getChan (setChan s c ch) c = ch := by
  rw [getChan_setChan, if_pos rfl]

/-- The choice of the period method changes nothing of a channel but the method. -/
theorem getChan_choosePeriod (s : State) (c : Nat) :
    (∃ b, getChan (choosePeriod s c) c = { getChan s c with useWindow := b }) ∧
      ∀ e, e ≠ c → getChan (choosePeriod s c) e = getChan s e := by
  refine ⟨?_, (latchKept_choosePeriod s c).2⟩
  unfold choosePeriod
  dsimp only
  split
  · exact ⟨false, (getChan_of_chans (chans_ev _ _ _) c).trans (getChan_setChan_same _ _ _)⟩
  · exact ⟨(getChan s c).useWindow, rfl⟩

/-! ### Captured words -/

theorem tget_capture (s : State) (rq : Requester) (a v b : Nat) :
    tget (fun _ => 0#32) (capture s rq a v).captured (capKey rq b) =
      if b = a then BitVec.ofNat 32 v else tget (fun _ => 0#32) s.captured (capKey rq b) := by
  simp only [capture, tget_tset, capKey, Nat.add_left_cancel_iff]

theorem ofNat_mod_word (v : Nat) : BitVec.ofNat 32 (v % 2 ^ 32) = BitVec.ofNat 32 v := by
  apply BitVec.eq_of_toNat_eq
  simp

theorem posA_inj {c o o' : Nat} : posA c o = posA c o' ↔ o = o' := by
  unfold posA ra
  omega

theorem only_capture (s : State) (rq : Requester) (a v : Nat) : onlyChanges [.captured, .lastRead] s (capture s rq a v) :=
  (capture_evolves (m := 16) _ _ _ _ rfl .rfl).only (by decide)

end Sys2Proof.Machine

namespace Sys2Proof.Proofs
open Sys2Proof Sys2Proof.Machine

/-- Settles O27: the registers and timers of a channel write that channel only, and LOAD and CLR_FAULT are refused while a bar
prints on it. -/
theorem positionRegisters : Obligations.PositionRegisters := by
  intro s rq c hc
  have chan : c % 8 = c := Nat.mod_eq_of_lt hc
  refine ⟨fun open_ => ⟨fun none => ?_, fun some => ?_⟩, fun open_ => ⟨fun none => ?_, fun some => ?_⟩, fun clock => ?_,
    fun enabled counts => ⟨fun x y hx hy => ?_, fun hy => ?_, fun moving => ?_⟩⟩
  · refine ⟨loadPos s c, by simp only [exec, execLoad, chan, chanPrinting_of_none none, refuseIf_false_of_admitted open_], ?_⟩
    simp only [loadPos, getChan_setChan_same]
    exact ⟨trivial, trivial, trivial, trivial, getChan_setChan_beside _ _ _, only_setChan _ _ _⟩
  · refine ⟨_, by simp only [exec, execLoad, chan, chanPrinting_of_bars some, refuseIf_true_of_admitted open_]; rfl, ?_⟩
    rw [posA_page c 0x80 (by decide)]
    exact refuse_leaves s (isHeader_pos hc)
  · exact ⟨_, by simp only [exec, execClrFault, chan, chanPrinting_of_none none, refuseIf_false_of_admitted open_],
      getChan_setChan_same _ _ _, getChan_setChan_beside _ _ _, only_setChan _ _ _⟩
  · refine ⟨_, by simp only [exec, execClrFault, chan, chanPrinting_of_bars some, refuseIf_true_of_admitted open_]; rfl, ?_⟩
    rw [posA_page c 0x80 (by decide)]
    exact refuse_leaves s (isHeader_pos hc)
  · refine ⟨_, by simp only [exec, execPosLoRead, chan, clock, if_true]; rfl, ?_⟩
    simp only [answerRead, tget_tset_same, tget_capture, posA_inj]
    refine ⟨trivial, rfl, ?_, rfl, ?_, ?_⟩
    · exact ofNat_mod_word _
    · exact ofNat_mod_word _
    · exact (answerRead_evolves (m := 48) _ _ _ rfl (capture_evolves _ _ _ _ rfl (capture_evolves _ _ _ _ rfl (capture_evolves _ _ _ _ rfl
        (capture_evolves _ _ _ _ rfl (capture_evolves _ _ _ _ rfl .rfl)))))).only (by decide)
  · refine ⟨_, by simp only [exec, execSpeedWindow, chan, enabled, counts, Bool.and_self, if_true, hx, hy]; rfl, ?_⟩
    obtain ⟨⟨b, here⟩, beside⟩ := getChan_choosePeriod
      (setChan s c { getChan s c with winFirst := none, winLast := none, winSpeed := spanSpeed x y }) c
    rw [getChan_setChan_same] at here
    refine ⟨?_, ?_, ?_, ?_, fun e he => (beside e he).trans (getChan_setChan_beside _ _ _ e he)⟩ <;> rw [here]
  · refine ⟨setChan s c { getChan s c with winFirst := none, winLast := none }, ?_, getChan_setChan_same _ _ _,
      getChan_setChan_beside _ _ _, only_setChan _ _ _⟩
    simp only [exec, execSpeedWindow, chan, enabled, counts, Bool.and_self, if_true, hy]
    cases (getChan s c).winFirst <;> rfl
  · refine ⟨_, by
      simp only [exec, execStillTimeout, chan, enabled, counts, moving, Bool.not_false, Bool.and_self, if_true]; rfl, ?_⟩
    have chans := chans_ev (setChan s c { getChan s c with still := true, speed := 0, perSpeed := 0, winSpeed := 0, nEdges := 0 })
      (pgPos c) 13
    refine ⟨(getChan_of_chans chans c).trans (getChan_setChan_same _ _ _), raised_ev _ _ (by decide), wordsKept_ev _ _ _,
      fun e he => (getChan_of_chans chans e).trans (getChan_setChan_beside _ _ _ e he)⟩

end Sys2Proof.Proofs
end

section
/-! PROOFS. RowLines (R178, R185, R187, R217 to R219, R242): a row-line is built, and a built one is sent. -/

namespace Sys2Proof.Machine
open Sys2Proof

variable {s t : State} {b : Nat}

/-! ### The present pass of a bar -/

theorem getBar_of_print (h : t.print = s.print) (b : Nat) : getBar t b = getBar s b := by rw [getBar, h, getBar]

/-- With no earlier pass on its way, a bar has the one view of its present pass. -/
theorem passViews_of_none (h : ∀ e ∈ s.print.old, e.1 ≠ b) : passViews s b = [[]] := by
  have none : (List.range s.print.old.length).filter (fun i => (s.print.old[i]?).map (fun e => e.1) == some b) = [] := by
    refine List.filter_eq_nil_iff.2 (fun i _ here => ?_)
    cases e : s.print.old[i]? with
    | none => simp [e] at here
    | some x => exact h x (List.mem_of_getElem? e) (by simpa [e] using here)
  simp only [passViews, none, List.map_nil, List.nil_append]

/-- What the present pass of such a bar has to do is done on the state as it is. -/
theorem onPass_of_none (h : ∀ e ∈ s.print.old, e.1 ≠ b) {p : State → Bool} (hp : p s = true) (f : State → State) :
    onPass s b p f = f s := by
  have found : (passViews s b).find? (fun v => p (inView s v)) = some [] := by
    rw [passViews_of_none h, List.find?_singleton, if_pos]
    exact hp
  simp only [onPass, found]
  rfl

/-! ### A row-line is built -/

theorem finishLine_of_fetched {l : RowLine} {q : Stream} (next : nextToBuild (getBar s b) = some l)
    (stream : (getBar s b).streams[l.stream]? = some q) (fetched : unfetched s b (getBar s b) l = []) :
    finishLine s b =
      let u := openFetches (sendIfLate (rearm (compareLines (lineLBuilt (buildRowLine s b l q))) b l) b l q) b
      freePassed u (getBar u b).job := by
  have same : ({ l with blanks := l.blanks ++ [], transient := l.transient || !([] : List Nat).isEmpty } : RowLine) = l := by
    simp
  simp only [finishLine, next, stream, fetched, List.foldl_nil, same]

theorem getBar_setWin (s : State) (b : Nat) (w : List WinSlot) (c : Nat) : getBar (setWin s b w) c = getBar s c := by
  unfold setWin
  dsimp only
  split <;> rfl

theorem getBar_releaseSlots (s : State) (b c : Nat) : getBar (releaseSlots s b) c = getBar s c := getBar_setWin _ _ _ _

/-- The end of an image line takes strings from the bar, and no row-line. -/
theorem lines_completeLine (s : State) (b n : Nat) : (getBar (completeLine s b n) b).lines = (getBar s b).lines := by
  have sent (u : State) (body : List Byte) : (pairSendSeq u 0x11 0 body).print = u.print :=
    (pairSendSeq_evolves (m := 8421440) _ _ _ _ rfl .rfl).same .print rfl
  unfold completeLine
  extract_lets br e u1 u2 own u3
  have here : getBar u2 b = { br with strings := br.strings.filter (fun x => x.1 != n),
                                      transients := br.transients.filter (fun x => x != n) } := by
    have counted : u2.print = u1.print := (count_evolves (m := 64) _ _ _ rfl .rfl).same .print rfl
    rw [getBar_of_print counted, getBar_setBar, if_pos rfl]
  split
  · split
    · rw [getBar_of_print (sent _ _), show getBar u3 b = getBar u2 b from rfl, here]
    · rw [here]
  · rfl

/-- The row-line that a bar builds has its level string, under the words in effect for its image line. -/
theorem lines_buildRowLine (s : State) (b : Nat) (l : RowLine) (q : Stream) :
    (getBar (buildRowLine s b l q) b).lines =
      (let v := asOf s b l.img
       let str := packLevels (if drop4 v b then 4 else 2) (rowLevels v b (getBar s b) l.blanks q.head q.row l.img)
       markBuilt (getBar s b).lines { l with built := true, string := str }) := by
  unfold buildRowLine
  extract_lets
  rw [getBar_releaseSlots, lines_completeLine, getBar_setBar, if_pos rfl]


/-! ### What a LINE frame rests on -/

/-- The lanes, the role, the state of the unit and the claim that it sends are those of another state (R257, R270). -/
def sendsAs (s t : State) : Prop :=
  t.links = s.links ∧ t.pair = s.pair ∧ t.sys.stopped = s.sys.stopped ∧ rd t (ra pgSys 0x4C) = rd s (ra pgSys 0x4C) ∧
    rd t (ra pgPair 0x4C) = rd s (ra pgPair 0x4C)

theorem sendsAs.trans {u : State} (h : sendsAs s t) (g : sendsAs t u) : sendsAs s u := by
  obtain ⟨h1, h2, h3, h4, h5⟩ := h
  obtain ⟨g1, g2, g3, g4, g5⟩ := g
  exact ⟨g1.trans h1, g2.trans h2, g3.trans h3, g4.trans h4, g5.trans h5⟩

/-- A change beside lanes, role and system that leaves the two words of the claim. -/
theorem sendsAs_of_beside {m : Nat} (h : Evolves m s t) (links : m.testBit 13 = false) (pair : m.testBit 15 = false)
    (sys : m.testBit 20 = false) (words : ∀ p, rd t (ra p 0x4C) = rd s (ra p 0x4C)) : sendsAs s t :=
  ⟨h.same .links links, h.same .pair pair, by rw [h.sys_eq sys], words _, words _⟩

theorem sendsAs_of_evolves {m : Nat} (h : Evolves m s t) (links : m.testBit 13 = false) (pair : m.testBit 15 = false)
    (sys : m.testBit 20 = false) (regs : m.testBit 0 = false) : sendsAs s t :=
  sendsAs_of_beside h links pair sys fun _ => h.rd_eq regs _

theorem sendsAs_ev (s : State) (p b : Nat) : sendsAs s (ev s p b) :=
  sendsAs_of_beside (ev_evolves (m := 8523841) _ _ _ rfl .rfl) rfl rfl rfl fun q => by
    rw [rd_ev, if_neg]
    simp only [ra]
    omega

theorem sendsAs_wr64 (s : State) (p o v : Nat) (h : o < 4088) (h1 : o ≠ 0x4C) (h2 : o ≠ 0x48) : sendsAs s (wr64 s (ra p o) v) :=
  sendsAs_of_beside (wr64_evolves (m := 1) _ _ _ rfl .rfl) rfl rfl rfl fun q => by
    rw [wr64, rd_wr, if_neg, rd_wr, if_neg] <;> simp only [ra] <;> omega

theorem sendsAs_faultAt (s : State) (code page bar : Nat) {cls : Nat} (h : cls < 2) (d : List Nat) (w : Option (Nat × Int)) :
    sendsAs s (faultAt s code cls page bar d w) := by
  have entered (r : FaultRecord) : sendsAs s (nvEnter (ramEnter s r) r) := by
    have e : Evolves 1048640 s (nvEnter (ramEnter s r) r) := nvEnter_evolves _ _ rfl (ramEnter_evolves _ _ rfl .rfl)
    have stopped : (nvEnter (ramEnter s r) r).sys.stopped = s.sys.stopped := by
      have ram : (ramEnter s r).sys.stopped = s.sys.stopped := by
        unfold ramEnter
        dsimp only
        split <;> rfl
      rw [← ram]
      unfold nvEnter
      extract_lets n
      split <;> rfl
    exact ⟨e.same .links rfl, e.same .pair rfl, stopped, e.rd_eq rfl _, e.rd_eq rfl _⟩
  unfold faultAt
  have below : (decide (2 ≤ cls)) = false := by simpa using h
  rw [if_neg (by omega), below, Bool.false_and, if_neg (by decide)]
  have counted : sendsAs _ (count (nvEnter (ramEnter s (faultRecord s code cls page bar d w)) (faultRecord s code cls page bar d w))
      pgSys cls) := sendsAs_of_evolves (count_evolves (m := 64) _ _ _ rfl .rfl) rfl rfl rfl rfl
  exact ((entered _).trans counted).trans ((sendsAs_ev _ _ _).trans (sendsAs_ev _ _ _))

theorem claimWord_of_words (pair : t.pair = s.pair) (sys : rd t (ra pgSys 0x4C) = rd s (ra pgSys 0x4C))
    (epoch_ : rd t (ra pgPair 0x4C) = rd s (ra pgPair 0x4C)) : claimWord t = claimWord s := by
  have same : epoch t = epoch s := epoch_
  have unit : unitA t = unitA s := by rw [unitA, rdb, sys]; rfl
  simp only [claimWord, pair, same, unit]

theorem mayBegin_of_parts (pair : t.pair = s.pair) (stopped : t.sys.stopped = s.sys.stopped) : mayBegin t = mayBegin s := by
  simp only [mayBegin, pair, stopped]

theorem getLane_of_links (h : t.links = s.links) (l : Nat) : getLane t l = getLane s l := by rw [getLane, h, getLane]

/-- The row-lines and streams of the bar are those of another state. -/
def linesAs (b : Nat) (s t : State) : Prop :=
  (getBar t b).lines = (getBar s b).lines ∧ (getBar t b).streams = (getBar s b).streams

theorem linesAs.trans {u : State} (h : linesAs b s t) (g : linesAs b t u) : linesAs b s u :=
  ⟨g.1.trans h.1, g.2.trans h.2⟩

theorem linesAs_of_print (h : t.print = s.print) : linesAs b s t := by
  rw [linesAs, getBar_of_print h]
  exact ⟨rfl, rfl⟩

theorem linesAs_setBar (s : State) {br : Bar} (h : br.lines = (getBar s b).lines) (g : br.streams = (getBar s b).streams) :
    linesAs b s (setBar s b br) := by
  rw [linesAs, getBar_setBar, if_pos rfl]
  exact ⟨h, g⟩

theorem sendsAs_setBar (s : State) (b : Nat) (br : Bar) : sendsAs s (setBar s b br) :=
  sendsAs_of_evolves (setBar_evolves (m := 1024) _ _ _ rfl .rfl) rfl rfl rfl rfl

/-- A skip notes its episode on the bar, and leaves its row-lines and what a frame rests on. -/
theorem recordSkip_keeps (s : State) (b : Nat) (l : RowLine) (x : Int) :
    linesAs b s (recordSkip s b l x) ∧ sendsAs s (recordSkip s b l x) := by
  unfold recordSkip
  extract_lets u br v w
  have noted : Evolves 65 s u := wr64_evolves _ _ _ rfl (count_evolves _ _ _ rfl .rfl)
  have lines : linesAs b s u := linesAs_of_print (noted.same .print rfl)
  have basis : sendsAs s u := (sendsAs_of_evolves (count_evolves (m := 64) _ _ _ rfl .rfl) rfl rfl rfl rfl).trans
    (sendsAs_wr64 _ _ _ _ (by decide) (by decide) (by decide))
  split
  · exact ⟨lines.trans (linesAs_setBar _ rfl rfl), basis.trans (sendsAs_setBar _ _ _)⟩
  · have opened : linesAs b u v := linesAs_setBar _ rfl rfl
    have raised : w.print = v.print := (ev_evolves (m := 8523841) _ _ _ rfl (wr64_evolves _ _ _ rfl .rfl)).same .print rfl
    refine ⟨(lines.trans opened).trans (linesAs_of_print ?_), (basis.trans (sendsAs_setBar _ _ _)).trans
      (((sendsAs_wr64 _ _ _ _ (by decide) (by decide) (by decide)).trans (sendsAs_ev _ _ _)).trans
        (sendsAs_faultAt _ _ _ _ (by decide) _ _))⟩
    exact ((faultAt_below_D _ _ _ _ (by decide) _ _).same .print rfl).trans raised

/-- A frame for an ACTIVE lane goes out at once, with the present claim. -/
theorem flnSend_active {l : Nat} (active : (getLane s l).state = 6) (may : mayBegin s = true) (type flags : Nat)
    (body : List Byte) :
    flnSend s l type flags body = count (send s (.fln l (flnFrame type flags (claimWord s) body))) (pgFln l) 0 := by
  simp [flnSend, active, may]

/-! ### A row-line is sent -/

section Send
variable {i v : Nat} {l : RowLine} {q : Stream}

theorem sendRowLine_sends (joined : s.pair.role ≠ 4)
    (active : (getLane s (headLane (asOf s b l.img) b q.head)).state = 6) (may : mayBegin s = true) :
    let u := asOf s b l.img
    let lane := headLane u b q.head
    let ch := getChan s (lineChan u b)
    let fire := fireTime (getBar s b) (targetPos u b (getBar s b) q l.k l.img) ch.pos ch.latchT v (flight u b l.img)
    let skip := tooClose s b q l fire
    (getBar (sendRowLine s b i l q v) b).lines = dropSent i (getBar s b).lines ∧
      (getBar (sendRowLine s b i l q v) b).streams =
        (getBar s b).streams.set i { q with lastFire := if skip then q.lastFire else some fire } ∧
      .fln lane (flnFrame 1 (lineFlags u b lane (getBar s b) l skip) (claimWord s)
        (lineBody s lane (headSlot u b q.head) q.row l fire v skip)) ∈ (sendRowLine s b i l q v).out := by
  unfold sendRowLine
  extract_lets u lane ch fire skip br x fire' skip' gs sat slot body flags streams u1 u2 u3 ln u4 u5
  have left : (getBar u1 b).lines = dropSent i br.lines ∧ (getBar u1 b).streams = streams := by
    simp only [u1, getBar_setBar, if_pos, and_self]
  have second : linesAs b u1 u2 ∧ sendsAs u1 u2 := by
    dsimp only [u2]
    split
    · exact ⟨linesAs_of_print rfl, sendsAs_of_evolves (m := 0) .rfl rfl rfl rfl rfl⟩
    · exact ⟨linesAs_of_print ((ev_evolves (m := 8523841) _ _ _ rfl (countN_evolves _ _ _ _ rfl .rfl)).same .print rfl),
        (sendsAs_of_evolves (countN_evolves (m := 64) _ _ _ _ rfl .rfl) rfl rfl rfl rfl).trans (sendsAs_ev _ _ _)⟩
  have third : linesAs b u2 u3 ∧ sendsAs u2 u3 := by
    dsimp only [u3]
    split
    · have dirty := dirtyLine_evolves (m := 16384) (recordSkip u2 b l x) b br q.head q.row l.img rfl .rfl
      exact ⟨(recordSkip_keeps _ _ _ _).1.trans (linesAs_of_print (dirty.same .print rfl)),
        (recordSkip_keeps _ _ _ _).2.trans (sendsAs_of_evolves dirty rfl rfl rfl rfl)⟩
    · exact ⟨linesAs_of_print rfl, sendsAs_of_evolves (m := 0) .rfl rfl rfl rfl rfl⟩
  have basis : sendsAs s u3 := ((sendsAs_setBar _ _ _).trans second.2).trans third.2
  have lines := (second.1.trans third.1)
  have state : ln.state = 6 := by rw [show ln = getLane s lane from getLane_of_links basis.1 _, active]
  have role : u3.pair.role ≠ 4 := by rw [basis.2.1]; exact joined
  rw [if_neg (fun h => role h.1), if_pos (Or.inl state)]
  have lane5 : (getLane u5 lane).state = 6 := by
    have same : getLane u4 lane = getLane u3 lane := by simp only [u4, count_fields]
    rw [getLane_setLane, if_pos rfl, keepSent, same]
    exact state
  have step : Evolves 8256 u3 u5 := setLane_evolves _ _ _ rfl (count_evolves _ _ _ rfl .rfl)
  have pair5 : u5.pair = s.pair := (show u5.pair = u3.pair from step.same .pair rfl).trans basis.2.1
  have may5 : mayBegin u5 = true := by
    rw [mayBegin_of_parts pair5 ((congrArg Sys.stopped (step.sys_eq rfl)).trans basis.2.2.1), may]
  have claim5 : claimWord u5 = claimWord s :=
    claimWord_of_words pair5 ((step.rd_eq rfl _).trans basis.2.2.2.1) ((step.rd_eq rfl _).trans basis.2.2.2.2)
  rw [flnSend_active lane5 may5, claim5]
  have print : (count (send u5 (.fln lane (flnFrame 1 flags (claimWord s) body))) (pgFln lane) 0).print = u3.print := by
    simp only [count_fields, send_fields]
    exact step.same .print rfl
  rw [getBar_of_print print]
  refine ⟨lines.1.trans left.1, lines.2.trans left.2, ?_⟩
  simp only [count_fields, send_fields]
  exact List.mem_append_right _ List.mem_cons_self

end Send

end Sys2Proof.Machine

namespace Sys2Proof.Proofs
open Sys2Proof Sys2Proof.Machine

/-- Settles O30: with the present pass alone on its way, a fetched row-line is built and a due one is sent to its head's lane. -/
theorem rowLines : Obligations.RowLines := by
  refine ⟨fun s b l q hb none next stream fetched => ⟨?_, lines_buildRowLine s b l q⟩, ?_⟩
  · have due : (nextToBuild (getBar s b)).isSome = true := by rw [next]; rfl
    simp only [exec, execRowLineBuilt, Nat.mod_eq_of_lt hb]
    rw [onPass_of_none none due, finishLine_of_fetched next stream fetched]
  · intro s b i l q hb none found stream reached joined u lane ch v fire skip active may
    have due : dueLine s b i = some (l, q) := by simp only [dueLine, found, stream, reached, if_true]
    have is_due : (dueLine s b i).isSome = true := by rw [due]; rfl
    refine ⟨sendRowLine s b i l q v, ?_, sendRowLine_sends joined active may⟩
    simp only [exec, execLineSend, Nat.mod_eq_of_lt hb]
    rw [onPass_of_none none is_due, sendDue, due]

end Sys2Proof.Proofs
end

section
/-! PROOFS. LaneService fails on a lane in electrical idle: the output levels that become due there, of an IO node that does not
time them itself, wait in the lane's queue (R278), which the statement says stays as it was. -/

namespace Sys2Proof.Machine
open Sys2Proof

/-- Lane 0 in electrical idle, with one timed change of its outputs. -/
def idleIoLane : State := { links := { lanes := [(0, { state := 7, ioTimed := [(0, 1, 1)] })] } }

theorem firstTimed_idleIoLane : firstTimed (fireNow idleIoLane) (getLane idleIoLane 0).ioTimed = some (0, 1, 1) := by
  decide +kernel

/-- What becomes due is queued behind the burst that wakes the lane. -/
theorem queued_idleIoLane :
    ∀ t, exec (.applyTReached 0) idleIoLane = .next t → (getLane t 0).queued ≠ [] := by
  intro t runs
  obtain rfl := Host.Outcome.next.inj runs
  decide +kernel

end Sys2Proof.Machine

namespace Sys2Proof.Proofs
open Sys2Proof Sys2Proof.Machine

/-- Refutes O33: the outputs of an untimed IO node that become due on a lane in electrical idle are queued on the lane. -/
theorem not_laneService : ¬ Obligations.LaneService := by
  rintro ⟨_, outputs⟩
  obtain ⟨_, _, _, _, due, _⟩ := outputs idleIoLane (.core 0) 0 (by decide)
  obtain ⟨t, runs, lane, _⟩ := due (0, 1, 1) (by decide +kernel) firstTimed_idleIoLane
  have empty : (getLane t 0).queued = (getLane idleIoLane 0).queued := by rw [lane]
  exact queued_idleIoLane t runs (empty.trans (by decide +kernel))

end Sys2Proof.Proofs
end

section
/-! PROOFS. Lanes (R247 to R249, R251 to R253, R257, R258, R276 to R278): what a frame that is sent or received leaves, and the
steps of bring-up. -/

namespace Sys2Proof.Machine
open Sys2Proof

variable {s t : State} {l : Nat}

/-! ### Frames that are sent -/

theorem getLane_setLane_same (s : State) (l : Nat) (ln : Lane) : getLane (setLane s l ln) l = ln := by
  rw [getLane_setLane, if_pos rfl]

theorem getLane_setLane_beside (s : State) (l : Nat) (ln : Lane) : ∀ k, k ≠ l → getLane (setLane s l ln) k = getLane s k :=
  fun k hk => by rw [getLane_setLane, if_neg hk]

/-- A frame of the type passes on a lane in its present state, and does not wait (R255, R257, R278). -/
def passes (s : State) (l type : Nat) : Prop :=
  3 ≤ (getLane s l).state ∧ (getLane s l).state ≠ 7 ∧ (getLane s l).state ≠ 9 ∧
    ((getLane s l).state = 5 → (getLane s l).wasActive = true → type = 3 ∨ type = 0xF) ∧
    ((type == 1 || type == 2 || type == 6) = true → (getLane s l).state ≠ 8 ∧ mayBegin s = true)

theorem flnSend_passes {type : Nat} (h : passes s l type) (flags : Nat) (body : List Byte) :
    flnSend s l type flags body = count (send s (.fln l (flnFrame type flags (claimWord s) body))) (pgFln l) 0 := by
  obtain ⟨up, awake, sound, exchange, data⟩ := h
  unfold flnSend
  extract_lets ln printData
  rw [if_neg, if_neg, if_neg awake, if_neg, if_neg]
  · show ¬((getLane s l).state ≤ 2 ∨ (getLane s l).state = 9)
    omega
  · rintro ⟨h8, h⟩
    exact (data h).1 h8
  · rintro ⟨h5, was, h3, hF⟩
    exact (exchange h5 was).elim h3 hF
  · intro h
    obtain ⟨h, no⟩ := Bool.and_eq_true_iff.1 h
    rw [(data h).2] at no
    exact absurd no (by decide)

/-- The lane does not keep a frame until it wakes. -/
def awake (s : State) (l type : Nat) : Prop :=
  (getLane s l).state ≠ 7 ∧ ((getLane s l).state = 5 → (getLane s l).wasActive = true → type = 3 ∨ type = 0xF)

theorem awake_of_state {n type : Nat} (h : (getLane s l).state = n) (h7 : n ≠ 7) (h5 : n ≠ 5) : awake s l type := by
  rw [awake, h]
  exact ⟨h7, fun e => absurd e h5⟩

theorem passes_of_state {n type : Nat} (h : (getLane s l).state = n) (up : 3 ≤ n) (h7 : n ≠ 7) (h9 : n ≠ 9) (h5 : n ≠ 5)
    (data : (type == 1 || type == 2 || type == 6) = true → n ≠ 8 ∧ mayBegin s = true) : passes s l type := by
  rw [passes, h]
  exact ⟨up, h7, h9, fun e => absurd e h5, data⟩

/-- A frame on such a lane is sent or dropped: no lane changes. -/
theorem links_flnSend {type : Nat} (h : awake s l type) (flags : Nat) (body : List Byte) :
    (flnSend s l type flags body).links = s.links := by
  obtain ⟨idle, exchange⟩ := h
  unfold flnSend
  extract_lets ln printData
  split
  · rfl
  · rw [if_neg (fun ⟨h5, was, h3, hF⟩ => (exchange h5 was).elim h3 hF)]
    split
    · rfl
    · split
      · rfl
      · simp

/-- A frame counts as counter 0 of its lane, and as no other. -/
theorem counter_flnSend (s : State) (l type flags : Nat) (body : List Byte) {p k : Nat} (h : 128 * p + k ≠ 128 * pgFln l + 0) :
    counter (flnSend s l type flags body) p k = counter s p k := by
  have sent (u : State) (o : Out) (e : counter u p k = counter s p k) : counter (count (send u o) (pgFln l) 0) p k = counter s p k := by
    rw [counter_count, if_neg h]
    simpa using e
  unfold flnSend
  extract_lets ln printData
  split_ifs
  · rfl
  · rfl
  · rfl
  · rfl
  · rfl
  · rfl
  · exact sent _ _ rfl

theorem getLane_count (s : State) (p k l : Nat) : getLane (count s p k) l = getLane s l := by simp

theorem getLane_send (s : State) (o : Out) (l : Nat) : getLane (send s o) l = getLane s l := rfl

theorem getLane_showPreset (s : State) (l k : Nat) : getLane (showPreset s l) k = getLane s k := rfl

theorem claimWord_of_regs (regs : t.regs = s.regs) (pair : t.pair = s.pair) : claimWord t = claimWord s :=
  claimWord_of_words pair (by rw [rd, regs, rd]) (by rw [rd, regs, rd])

theorem mayBegin_of_sys (pair : t.pair = s.pair) (sys : t.sys = s.sys) : mayBegin t = mayBegin s :=
  mayBegin_of_parts pair (by rw [sys])

theorem counted_count (s : State) (p k : Nat) : counted s (count s p k) p k := by
  rw [counted, counter_count, if_pos rfl]

theorem countersKept_count (s : State) (p k : Nat) : countersKept p k s (count s p k) :=
  fun q j h => by rw [counter_count, if_neg h]

theorem only_count (s : State) (p k : Nat) : onlyChanges [.counters] s (count s p k) :=
  (count_evolves (m := 64) _ _ _ rfl .rfl).only (by decide)

/-! ### Rates -/

/-- The common rates are those of the partner's CAP data and of MAX_RATE. -/
theorem rateBelow_of_lane (regs : t.regs = s.regs) (rates : (getLane t l).rates = (getLane s l).rates)
    (version : (getLane t l).verMajor = (getLane s l).verMajor) (top : Nat) : rateBelow t l top = rateBelow s l top := by
  have max : rdf t (ra (pgFln l) 0x40) 5 4 = rdf s (ra (pgFln l) 0x40) 5 4 := by rw [rdf, rd, regs]; rfl
  have common (r : Nat) : commonRate t l r = commonRate s l r := by simp only [commonRate, rates, version, max]
  simp only [rateBelow, common]

/-- A lane that asks for a rate, or goes on with time synchronisation when none above the lowest is left. -/
def Lane.asked (ln : Lane) (r : Nat) : Lane :=
  if r = 0 then { ln with state := 5, want := 0, exchanges := 0, delays := [], delayValid := false }
  else { ln with state := 4, want := r }

theorem getLane_askRate (s : State) (l r k : Nat) :
    getLane (askRate s l r) k = if k = l then (getLane s l).asked r else getLane s k := by
  unfold askRate Lane.asked
  extract_lets ln
  by_cases h : r = 0
  · rw [if_pos h, if_pos h, getLane_setLane]
  · have open4 : awake (setLane s l { ln with state := 4, want := r }) l 2 :=
      awake_of_state (n := 4) (by rw [getLane_setLane_same]) (by decide) (by decide)
    rw [if_neg h, if_neg h, getLane_of_links (links_flnSend open4 _ _), getLane_setLane]

theorem counter_askRate (s : State) (l r : Nat) {k : Nat} (h : k ≠ 0) :
    counter (askRate s l r) (pgFln l) k = counter s (pgFln l) k := by
  unfold askRate
  extract_lets ln
  split
  · rfl
  · rw [counter_flnSend _ _ _ _ _ (by omega)]
    rfl

theorem only_askRate (s : State) (l r : Nat) : onlyChanges [.counters, .links, .out] s (askRate s l r) :=
  (askRate_evolves (m := 8396864) _ _ _ rfl .rfl).only (by decide)

theorem Lane.asked_rates (ln : Lane) (r : Nat) : (ln.asked r).rates = ln.rates ∧ (ln.asked r).verMajor = ln.verMajor := by
  unfold Lane.asked
  split <;> exact ⟨rfl, rfl⟩

/-- The rate asked for is the one awaited, or none is left. -/
theorem Lane.asked_state (ln : Lane) (r : Nat) :
    (ln.asked r).state = 4 ∧ (ln.asked r).want = r ∧ r ≠ 0 ∨ (ln.asked r).state = 5 ∧ r = 0 := by
  unfold Lane.asked
  split
  · exact .inr ⟨rfl, ‹_›⟩
  · exact .inl ⟨rfl, rfl, ‹_›⟩


/-! ### Steps of bring-up -/

theorem isLane_of_lt (hl : l < 48) : isLane l = true := by
  rw [isLane, decide_eq_true_eq]
  omega

theorem lanePage_of_lt (hl : l < 48) : lanePage l = pgFln l := if_pos hl

/-- The presets that training has selected with a 2.3 partner. -/
theorem selectPresets_leaves {ln : Lane} (here : getLane s l = ln) (own peer : Nat) (trains : ln.state = 4) :
    let t := selectPresets s l own peer
    (∃ p, getLane t l = { ln with preset := p } ∧ (presetPartner s l = true → p = own % 4)) ∧
      (∀ k, k ≠ l → getLane t k = getLane s k) ∧
      (presetPartner s l = true → .lanePhy l (4 + own % 4) ∈ t.out) ∧
      (presetPartner s l = true → mayBegin s = true →
        .fln l (flnFrame 2 0 (claimWord s) (leBytes 1 0x0A ++ leBytes 1 (peer % 4))) ∈ t.out) ∧
      (presetPartner s l = false → t = s) := by
  unfold selectPresets
  by_cases new : presetPartner s l = true
  · rw [if_pos new, here]
    let u := setLane s l { ln with preset := own % 4 }
    have lane : getLane (showPreset u l) l = { ln with preset := own % 4 } := by
      rw [getLane_showPreset, getLane_setLane_same]
    have preset : txPreset u l = own % 4 := by
      have same : presetPartner u l = true := by
        rw [← new]
        simp only [presetPartner, u, getLane_setLane_same, here]
      rw [txPreset, if_pos same, getLane_setLane_same]
    have shown : .lanePhy l (4 + own % 4) ∈ (showPreset u l).out := by
      rw [showPreset, preset]
      exact List.mem_append_right _ List.mem_cons_self
    have open4 (type : Nat) : awake (showPreset u l) l type :=
      awake_of_state (n := 4) (by rw [lane]; exact trains) (by decide) (by decide)
    have links := links_flnSend (open4 2) 0 (leBytes 1 0x0A ++ leBytes 1 (peer % 4))
    refine ⟨⟨own % 4, (getLane_of_links links l).trans lane, fun _ => rfl⟩, fun k hk => (getLane_of_links links k).trans ?_,
      fun _ => ?_, fun _ may => ?_, fun h => absurd (h.symm.trans new) (by decide)⟩
    · rw [getLane_showPreset, getLane_setLane_beside _ _ _ k hk]
    · have grows := flnSend_evolves (m := 8396864) (showPreset u l) l 2 0 (leBytes 1 0x0A ++ leBytes 1 (peer % 4)) rfl .rfl
      exact grows.kept.2.1.subset shown
    · have goes : passes (showPreset u l) l 2 := passes_of_state (n := 4) (by rw [lane]; exact trains) (by decide) (by decide)
        (by decide) (by decide) fun _ => ⟨by decide, may⟩
      have claim : claimWord (showPreset u l) = claimWord s := claimWord_of_regs rfl rfl
      rw [flnSend_passes goes, claim]
      simp only [count_fields, send_fields]
      exact List.mem_append_right _ List.mem_cons_self
  · rw [if_neg new]
    exact ⟨⟨ln.preset, here, fun h => absurd h new⟩, fun _ _ => rfl, fun h => absurd h new, fun h => absurd h new, fun _ => rfl⟩

theorem counter_selectPresets (s : State) (l own peer : Nat) {k : Nat} (h : k ≠ 0) :
    counter (selectPresets s l own peer) (pgFln l) k = counter s (pgFln l) k := by
  unfold selectPresets
  split
  · rw [counter_flnSend _ _ _ _ _ (by omega)]
    rfl
  · rfl

/-- A frame that passes on the lane leaves the lanes, is counted, and is sent. -/
theorem sent_frame {type : Nat} (goes : passes s l type) (flags : Nat) (body : List Byte) :
    sends s (flnSend s l type flags body) [.fln l (flnFrame type flags (claimWord s) body)] ∧
      counted s (flnSend s l type flags body) (pgFln l) 0 ∧ onlyChanges [.counters, .out] s (flnSend s l type flags body) := by
  rw [flnSend_passes goes]
  refine ⟨by simp [sends], ?_, (count_evolves (m := 8388672) _ _ _ rfl (send_evolves _ _ rfl .rfl)).only (by decide)⟩
  exact counted_count (send s (.fln l (flnFrame type flags (claimWord s) body))) (pgFln l) 0

/-! ### Frames that are received -/

theorem onFrame_ok {type : Nat} {f : RxFrame} (hl : l < 48) (up : receiving s l = true) (ok : frameOk f type = true)
    (act : State → List Byte → State) : onFrame s l type f act = act (count s (pgFln l) 1) (fBody f) := by
  simp [onFrame, hl, up, ok]

theorem onFrame_bad {type : Nat} {f : RxFrame} (hl : l < 48) (up : receiving s l = true) (bad : frameOk f type = false)
    (act : State → List Byte → State) : onFrame s l type f act = count s (pgFln l) 2 := by
  simp [onFrame, hl, up, bad]

theorem receiving_of {n : Nat} (state : (getLane s l).state = n) (lock : (getLane s l).lock = true) (up : 3 ≤ n) (sound : n ≠ 9) :
    receiving s l = true := by
  simp [receiving, state, lock, up, sound]

section BringUp
variable {ln : Lane} (hl : l < 48) (here : getLane s l = ln)
include hl here

theorem detect_found (idle : ln.state ≤ 1 ∨ ln.state = 9) (good : ln.refused = false) (enabled : pgEn s (pgFln l) = true) :
    completes (.detect l true) s (fun t =>
      getLane t l = { ln with state := 2, rate := 0, want := 0, capSeen := false, lock := true } ∧
        sends s t [.lanePhy l (4 + rdf s (ra pgTrim (0x180 + 4 * l)) 1 0), .lanePhy l 0] ∧
        (∀ k, k ≠ l → getLane t k = getLane s k) ∧ onlyChanges [.links, .out] s t) := by
  have ready : (isLane l && pgEn s (lanePage l) && !ln.refused && (decide (ln.state ≤ 1) || ln.state == 9)) = true := by
    rw [isLane_of_lt hl, lanePage_of_lt hl, enabled, good]
    simpa using idle
  let u := setLane s l { ln with state := 2, rate := 0, want := 0, capSeen := false, lock := true }
  have trim : txPreset u l = rdf s (ra pgTrim (0x180 + 4 * l)) 1 0 := by
    have none : presetPartner u l = false := by simp only [presetPartner, u, getLane_setLane_same, Bool.false_and]
    rw [txPreset, none]
    rfl
  refine ⟨send (showPreset u l) (.lanePhy l 0), ?_, ?_, ?_, fun k hk => ?_,
    (send_evolves (m := 8396800) _ _ rfl (send_evolves _ _ rfl (setLane_evolves _ _ _ rfl .rfl))).only (by decide)⟩
  · simp only [exec, execDetect, here, ready, if_true]
    rfl
  · rw [getLane_send, getLane_showPreset, getLane_setLane_same]
  · rw [sends, ← trim]
    simp only [showPreset, send, List.append_assoc, List.cons_append, List.nil_append]
    rfl
  · rw [getLane_send, getLane_showPreset, getLane_setLane_beside _ _ _ k hk]

theorem detect_none (idle : ln.state ≤ 1 ∨ ln.state = 9) (good : ln.refused = false) (enabled : pgEn s (pgFln l) = true) :
    completes (.detect l false) s (fun t =>
      getLane t l = { ln with state := 1 } ∧ (∀ k, k ≠ l → getLane t k = getLane s k) ∧ onlyChanges [.links] s t) := by
  have ready : (isLane l && pgEn s (lanePage l) && !ln.refused && (decide (ln.state ≤ 1) || ln.state == 9)) = true := by
    rw [isLane_of_lt hl, lanePage_of_lt hl, enabled, good]
    simpa using idle
  refine ⟨setLane s l { ln with state := 1 }, ?_, getLane_setLane_same _ _ _, getLane_setLane_beside _ _ _,
    (setLane_evolves (m := 8192) _ _ _ rfl .rfl).only (by decide)⟩
  simp only [exec, execDetect, here, ready, if_true, Bool.false_eq_true, if_false]

theorem trainDone_first (fom own peer : Nat) (trains : ln.state = 2) :
    completes (.trainDone l ⟨fom, own, peer⟩) s (fun t =>
      getLane t l = { ln with fom := fom, lock := true, state := 3 } ∧
        sends s t [.fln l (flnFrame 7 0 (claimWord s) (capBody s))] ∧
        (∀ k, k ≠ l → getLane t k = getLane s k) ∧ onlyChanges [.counters, .links, .out] s t) := by
  let u := setLane s l { ln with fom := fom, lock := true }
  let v := setLane u l { ln with fom := fom, lock := true, state := 3 }
  have goes : passes v l 7 := passes_of_state (n := 3) (by rw [getLane_setLane_same]) (by decide) (by decide) (by decide)
    (by decide) (fun h => absurd h (by decide))
  have cap : capBody u = capBody s := rfl
  have claim : claimWord v = claimWord s := claimWord_of_regs rfl rfl
  refine ⟨flnSend v l 7 0 (capBody u), ?_, ?_⟩
  · simp only [exec, execTrainDone, isLane_of_lt hl, here, if_true, getLane_setLane_same]
    rw [if_pos trains, if_pos hl]
  · rw [flnSend_passes goes, cap, claim]
    simp only [getLane_count, getLane_send]
    refine ⟨getLane_setLane_same _ _ _, ?_, fun k hk => ?_, (count_evolves (m := 8396864) _ _ _ rfl (send_evolves _ _ rfl
      (setLane_evolves _ _ _ rfl (setLane_evolves _ _ _ rfl .rfl)))).only (by decide)⟩
    · simp [sends, u, v]
    · rw [getLane_setLane_beside _ _ _ k hk, getLane_setLane_beside _ _ _ k hk]

theorem trainDone_done (fom own peer : Nat) (trains : ln.state = 4) (reached : ln.rate = ln.want)
    (good : rdf s (ra pgFlng 0x70) 7 0 ≤ fom ∨ ln.rate = 0) :
    completes (.trainDone l ⟨fom, own, peer⟩) s (fun t =>
      (getLane t l).state = 5 ∧ (getLane t l).exchanges = 0 ∧ (getLane t l).rate = ln.rate ∧
        (presetPartner s l = true → (getLane t l).preset = own % 4 ∧ .lanePhy l (4 + own % 4) ∈ t.out) ∧
        (presetPartner s l = true → mayBegin s = true →
          .fln l (flnFrame 2 0 (claimWord s) (leBytes 1 0x0A ++ leBytes 1 (peer % 4))) ∈ t.out) ∧
        (presetPartner s l = false → sends s t []) ∧
        (∀ k, k ≠ l → getLane t k = getLane s k) ∧ onlyChanges [.counters, .links, .out] s t) := by
  let u := setLane s l { ln with fom := fom, lock := true }
  have at_u : getLane u l = { ln with fom := fom, lock := true } := getLane_setLane_same _ _ _
  have partner : presetPartner u l = presetPartner s l := by simp only [presetPartner, at_u, here]
  have claim : claimWord u = claimWord s := claimWord_of_regs rfl rfl
  obtain ⟨⟨p, lane, chosen⟩, beside, shown, asked, same⟩ := selectPresets_leaves (s := u) at_u own peer trains
  have step := selectPresets_evolves (m := 8396864) u l own peer rfl (setLane_evolves _ _ _ rfl .rfl)
  rw [partner] at chosen shown asked same
  have threshold : rdf (selectPresets u l own peer) (ra pgFlng 0x70) 7 0 = rdf s (ra pgFlng 0x70) 7 0 :=
    rdf_eq_of_rd (step.rd_eq rfl _) _ _
  refine ⟨askRate (selectPresets u l own peer) l 0, ?_, ?_⟩
  · have enough : ¬(fom < rdf (selectPresets u l own peer) (ra pgFlng 0x70) 7 0 ∧ ln.rate ≠ 0) := by rw [threshold]; omega
    have first : ¬ln.state = 2 := by omega
    simp only [exec, execTrainDone, isLane_of_lt hl, here, if_true]
    rw [if_neg first, if_pos ⟨trains, reached⟩, if_pos hl, if_neg (by omega : ¬48 ≤ l), if_neg enough]
  · simp only [getLane_askRate, if_pos, lane, Lane.asked]
    refine ⟨trivial, trivial, trivial, fun new => ⟨chosen new, shown new⟩, fun new may => ?_, fun old => ?_, fun k hk => ?_,
      onlyChanges.trans (step.only (by decide)) (only_askRate _ _ _)⟩
    · have sent := asked new may
      rwa [claim] at sent
    · rw [same old]
      exact (List.append_nil _).symm
    · rw [if_neg hk, beside k hk, getLane_setLane_beside _ _ _ k hk]

theorem trainDone_poor (fom own peer : Nat) (trains : ln.state = 4) (reached : ln.rate = ln.want)
    (poor : fom < rdf s (ra pgFlng 0x70) 7 0) (stepped : ln.rate ≠ 0) :
    completes (.trainDone l ⟨fom, own, peer⟩) s (fun t =>
      (getLane t l).state = 4 ∧ (getLane t l).rate = rateBelow s l ln.want ∧
        (getLane t l).want = rateBelow s l ln.want ∧ counted s t (pgFln l) 8 ∧
        (∀ k, k ≠ l → getLane t k = getLane s k)) := by
  let u := setLane s l { ln with fom := fom, lock := true }
  have at_u : getLane u l = { ln with fom := fom, lock := true } := getLane_setLane_same _ _ _
  obtain ⟨⟨p, lane, -⟩, beside, -⟩ := selectPresets_leaves (s := u) at_u own peer trains
  let v := selectPresets u l own peer
  have step : Evolves 8396864 s v := selectPresets_evolves u l own peer rfl (setLane_evolves _ _ _ rfl .rfl)
  have threshold : rdf v (ra pgFlng 0x70) 7 0 = rdf s (ra pgFlng 0x70) 7 0 := rdf_eq_of_rd (step.rd_eq rfl _) _ _
  let w := count v (pgFln l) 8
  have at_w : getLane w l = { ln with fom := fom, lock := true, preset := p } := (getLane_count v _ _ l).trans lane
  have below : rateBelow w l ln.want = rateBelow s l ln.want :=
    rateBelow_of_lane ((count_evolves (m := 8396864) _ _ _ rfl step).same .regs rfl) (by rw [at_w, here]) (by rw [at_w, here]) _
  refine ⟨stepDown w l, ?_, ?_⟩
  · simp only [exec, execTrainDone, isLane_of_lt hl, here, if_true]
    rw [if_neg (by omega : ¬ln.state = 2), if_pos ⟨trains, reached⟩, if_pos hl, if_neg (by omega : ¬48 ≤ l)]
    rw [if_pos]
    exact ⟨by rw [threshold]; exact poor, stepped⟩
  · have down : stepDown w l = setLane w l { ln with fom := fom, lock := true, preset := p, rate := rateBelow s l ln.want,
                                                     want := rateBelow s l ln.want } := by
      simp only [stepDown, at_w, below]
      rw [if_pos reached]
    have before : counter (selectPresets u l own peer) (pgFln l) 8 = counter s (pgFln l) 8 := by
      rw [counter_selectPresets _ _ _ _ (by decide)]
      rfl
    rw [down]
    beta_reduce
    rw [getLane_setLane_same]
    refine ⟨trains, rfl, rfl, ?_, fun k hk => ?_⟩
    · have counted : counter w (pgFln l) 8 = _ := counted_count v (pgFln l) 8
      rw [Machine.counted, ← before]
      exact counted
    · rw [getLane_setLane_beside _ _ _ k hk, getLane_count, beside k hk, getLane_setLane_beside _ _ _ k hk]

theorem trainTimeout_fails (trains : ln.state = 2 ∨ ln.state = 4 ∧ ln.rate = ln.want ∧ ln.rate = 0) :
    completes (.trainTimeout l) s (fun t =>
      getLane t l = { ln with state := 9 } ∧ (∀ k, k ≠ l → getLane t k = getLane s k) ∧
        counted s t (pgFln l) 8 ∧ onlyChanges [.counters, .links] s t) := by
  have due : (isLane l && (ln.state == 2 || (ln.state == 4 && ln.rate == ln.want))) = true := by
    rw [isLane_of_lt hl, Bool.true_and]
    rcases trains with h | ⟨h, same, -⟩
    · simp [h]
    · simp [h, same]
  have lowest : ¬(ln.state = 4 ∧ l < 48 ∧ ln.rate ≠ 0) := by omega
  refine ⟨laneFail (count s (pgFln l) 8) l, ?_, ?_⟩
  · simp only [exec, execTrainTimeout, here, due, if_true]
    rw [if_neg lowest, if_pos hl]
  · simp only [laneFail, getLane_count, here, getLane_setLane_same]
    refine ⟨trivial, fun k hk => ?_, counted_count s _ _, (setLane_evolves (m := 8256) _ _ _ rfl
      (count_evolves _ _ _ rfl .rfl)).only (by decide)⟩
    rw [getLane_setLane_beside _ _ _ k hk, getLane_count]

theorem trainTimeout_steps (trains : ln.state = 4) (reached : ln.rate = ln.want) (stepped : ln.rate ≠ 0) :
    completes (.trainTimeout l) s (fun t =>
      getLane t l = { ln with rate := rateBelow s l ln.want, want := rateBelow s l ln.want } ∧
        (∀ k, k ≠ l → getLane t k = getLane s k) ∧
        counted s t (pgFln l) 8 ∧ onlyChanges [.counters, .links] s t) := by
  have due : (isLane l && (ln.state == 2 || (ln.state == 4 && ln.rate == ln.want))) = true := by
    simp [isLane_of_lt hl, trains, reached]
  have lane : getLane (count s (pgFln l) 8) l = ln := (getLane_count _ _ _ _).trans here
  have below : rateBelow (count s (pgFln l) 8) l ln.want = rateBelow s l ln.want :=
    rateBelow_of_lane (by simp only [count_fields]) (by rw [getLane_count]) (by rw [getLane_count]) _
  refine ⟨stepDown (count s (pgFln l) 8) l, ?_, ?_⟩
  · simp only [exec, execTrainTimeout, here, due, if_true]
    rw [if_pos ⟨trains, hl, stepped⟩, if_pos hl]
  · simp only [stepDown, lane, below]
    rw [if_pos reached]
    refine ⟨getLane_setLane_same _ _ _, fun k hk => ?_, counted_count s _ _, (setLane_evolves (m := 8256) _ _ _ rfl
      (count_evolves _ _ _ rfl .rfl)).only (by decide)⟩
    rw [getLane_setLane_beside _ _ _ k hk, getLane_count]

theorem capTimeout_fails (waits : ln.state = 3) :
    completes (.capTimeout l) s (fun t =>
      getLane t l = { ln with state := 9 } ∧ (∀ k, k ≠ l → getLane t k = getLane s k) ∧ onlyChanges [.links] s t) := by
  refine ⟨laneFail s l, ?_, ?_⟩
  · simp only [exec, execCapTimeout, here, hl, if_true]
    rw [if_pos waits]
  · simp only [laneFail, here]
    exact ⟨getLane_setLane_same _ _ _, getLane_setLane_beside _ _ _, (setLane_evolves (m := 8192) _ _ _ rfl .rfl).only (by decide)⟩

theorem capTimeout_steps (asks : ln.state = 4) (awaits : ln.rate ≠ ln.want) :
    completes (.capTimeout l) s (fun t =>
      counted s t (pgFln l) 8 ∧
        ((getLane t l).state = 4 ∧ (getLane t l).want = rateBelow s l ln.want ∧ rateBelow s l ln.want ≠ 0 ∨
          (getLane t l).state = 5 ∧ rateBelow s l ln.want = 0) ∧ (∀ k, k ≠ l → getLane t k = getLane s k)) := by
  refine ⟨askRate (count s (pgFln l) 8) l (rateBelow s l ln.want), ?_, ?_, ?_, fun k hk => ?_⟩
  · simp only [exec, execCapTimeout, here, hl, if_true]
    rw [if_neg (by omega : ¬ln.state = 3), if_pos ⟨asks, awaits⟩]
  · rw [counted, counter_askRate _ _ _ (by decide)]
    exact counted_count s _ _
  · rw [getLane_askRate, if_pos rfl]
    exact Lane.asked_state _ _
  · rw [getLane_askRate, if_neg hk, getLane_count]

theorem bringUpResend_cap (waits : ln.state = 3) :
    completes (.bringUpResend l) s (fun t =>
      sends s t [.fln l (flnFrame 7 0 (claimWord s) (capBody s))] ∧ counted s t (pgFln l) 0 ∧
        onlyChanges [.counters, .out] s t) := by
  refine ⟨flnSend s l 7 0 (capBody s), ?_, sent_frame ?_ _ _⟩
  · simp only [exec, execBringUpResend, here, hl, if_true]
    rw [if_pos waits]
  · exact passes_of_state (here ▸ waits) (by decide) (by decide) (by decide) (by decide) (fun h => absurd h (by decide))

theorem bringUpResend_rate (asks : ln.state = 4) (awaits : ln.rate ≠ ln.want) (may : mayBegin s = true) :
    completes (.bringUpResend l) s (fun t =>
      sends s t [.fln l (flnFrame 2 0 (claimWord s) (rateRequest ln.want))] ∧ counted s t (pgFln l) 0 ∧
        onlyChanges [.counters, .out] s t) := by
  refine ⟨flnSend s l 2 0 (rateRequest ln.want), ?_, sent_frame ?_ _ _⟩
  · simp only [exec, execBringUpResend, here, hl, if_true]
    rw [if_neg (by omega : ¬ln.state = 3), if_pos ⟨asks, awaits⟩]
  · exact passes_of_state (here ▸ asks) (by decide) (by decide) (by decide) (by decide) fun _ => ⟨by decide, may⟩

/-- The lane as its partner's CAP frame describes it (R253). -/
def Lane.capped (ln : Lane) (m : List Byte) : Lane :=
  { ln with capSeen := true, kind := bytesAt m 0 1, verMinor := bytesAt m 1 1, verMajor := bytesAt m 2 1, rates := bytesAt m 3 1,
            serial := bytesAt m 4 8, setup := bytesAt m 0xE 2, slots := if bytesAt m 0 1 = 1 then capSlots m else [],
            temps := if ln.serial = bytesAt m 4 8 then ln.temps else [] }

theorem exec_cap {f : RxFrame} (waits : ln.state = 3) (lock : ln.lock = true) (ok : frameOk f 7 = true) :
    exec (.cap l f) s = .next (takeCap (count s (pgFln l) 1) l (fBody f)) := by
  have up : receiving s l = true := receiving_of (n := 3) (here ▸ waits) (here ▸ lock) (by decide) (by decide)
  have state : (getLane (count s (pgFln l) 1) l).state = 3 := by rw [getLane_count, here, waits]
  simp only [exec, execCap, onFrame_ok hl up ok, state, if_true]

theorem cap_refused {f : RxFrame} (waits : ln.state = 3) (lock : ln.lock = true) (ok : frameOk f 7 = true)
    (refused : versionRefused (bytesAt (fBody f) 2 1) (bytesAt (fBody f) 1 1) = true) :
    completes (.cap l f) s (fun t =>
      (getLane t l).state = 9 ∧ (getLane t l).refused = true ∧ (evPend t (pgFln l)).testBit 13 = true ∧
        recorded s t 0x0703 1) := by
  refine ⟨_, exec_cap hl here waits lock ok, ?_⟩
  let v := setLane (count s (pgFln l) 1) l { ln.capped (fBody f) with state := 9, refused := true }
  have taken : takeCap (count s (pgFln l) 1) l (fBody f) = fault (ev v (pgFln l) 13) 0x0703 1 (pgFln l) noBar [l] := by
    simp only [takeCap, getLane_count, here, refused, if_true]
    rfl
  have links : (fault (ev v (pgFln l) 13) 0x0703 1 (pgFln l) noBar [l]).links = v.links :=
    ((fault_below_D _ _ _ _ (by decide) _).same .links rfl).trans ((ev_evolves (m := 8523841) _ _ _ rfl .rfl).same .links rfl)
  rw [taken]
  beta_reduce
  rw [getLane_of_links links, getLane_setLane_same]
  refine ⟨rfl, rfl, testBit_evPend_fault (testBit_evPend_raised _ _ (by decide)) _ _ _ (by decide) _, ?_⟩
  exact recorded_of_keepsLog (keepsLog.of (m := 8532033) (ev_evolves _ _ _ rfl (setLane_evolves _ _ _ rfl
    (count_evolves _ _ _ rfl .rfl))) rfl) (recorded_fault _ _ _ _ _ _)

theorem cap_taken {f : RxFrame} (waits : ln.state = 3) (lock : ln.lock = true) (ok : frameOk f 7 = true)
    (supported : versionRefused (bytesAt (fBody f) 2 1) (bytesAt (fBody f) 1 1) = false) :
    completes (.cap l f) s (fun t =>
      (getLane t l).kind = bytesAt (fBody f) 0 1 ∧ (getLane t l).serial = bytesAt (fBody f) 4 8 ∧
        (getLane t l).verMajor = bytesAt (fBody f) 2 1 ∧ (getLane t l).verMinor = bytesAt (fBody f) 1 1 ∧
        ((getLane t l).state = 4 ∧ (getLane t l).want = rateBelow t l 4 ∧ (getLane t l).want ≠ 0 ∨
          (getLane t l).state = 5 ∧ rateBelow t l 4 = 0) ∧
        (∀ k, k ≠ l → getLane t k = getLane s k) ∧ onlyChanges [.counters, .links, .out] s t) := by
  refine ⟨_, exec_cap hl here waits lock ok, ?_⟩
  let v := setLane (count s (pgFln l) 1) l (ln.capped (fBody f))
  have taken : takeCap (count s (pgFln l) 1) l (fBody f) = askRate v l (rateBelow v l 4) := by
    simp only [takeCap, getLane_count, here, supported, Bool.false_eq_true, if_false]
    rfl
  let r := rateBelow v l 4
  have lane : getLane (askRate v l r) l = (ln.capped (fBody f)).asked r := by
    rw [getLane_askRate, if_pos rfl, getLane_setLane_same]
  have regs : (askRate v l r).regs = v.regs := (askRate_evolves (m := 8396864) _ _ _ rfl .rfl).same .regs rfl
  have below : rateBelow (askRate v l r) l 4 = r := by
    refine rateBelow_of_lane regs ?_ ?_ 4
    · rw [lane, getLane_setLane_same, (Lane.asked_rates _ _).1]
    · rw [lane, getLane_setLane_same, (Lane.asked_rates _ _).2]
  rw [taken, show rateBelow v l 4 = r from rfl]
  beta_reduce
  rw [below, lane]
  have capped : ((ln.capped (fBody f)).asked r).kind = bytesAt (fBody f) 0 1 ∧
      ((ln.capped (fBody f)).asked r).serial = bytesAt (fBody f) 4 8 ∧
      ((ln.capped (fBody f)).asked r).verMajor = bytesAt (fBody f) 2 1 ∧
      ((ln.capped (fBody f)).asked r).verMinor = bytesAt (fBody f) 1 1 := by
    unfold Lane.asked
    split <;> exact ⟨rfl, rfl, rfl, rfl⟩
  obtain ⟨kind, serial, major, minor⟩ := capped
  refine ⟨kind, serial, major, minor, ?_, fun k hk => ?_, onlyChanges.trans ((setLane_evolves (m := 8256) _ _ _ rfl
    (count_evolves _ _ _ rfl .rfl)).only (by decide)) (only_askRate _ _ _)⟩
  · rcases Lane.asked_state (ln.capped (fBody f)) r with ⟨state, want, some⟩ | ⟨state, none⟩
    · exact .inl ⟨state, want, by rw [want]; exact some⟩
    · exact .inr ⟨state, none⟩
  · rw [getLane_askRate, if_neg hk, getLane_setLane_beside _ _ _ k hk, getLane_count]

theorem lane_rate {f : RxFrame} (lock : ln.lock = true) (ok : frameOk f 2 = true) (kind : bytesAt (fBody f) 0 1 = 9)
    (asks : ln.state = 4) (granted : bitOf (bytesAt (fBody f) 1 1) 3 = true) (rate : bytesAt (fBody f) 2 1 = ln.want)
    (awaits : ln.rate ≠ ln.want) :
    completes (.lane l f) s (fun t =>
      getLane t l = { ln with rate := ln.want, lock := false } ∧ sends s t [.lanePhy l 2] ∧
        counted s t (pgFln l) 1 ∧ (∀ k, k ≠ l → getLane t k = getLane s k) ∧
        onlyChanges [.counters, .links, .out] s t) := by
  have up : receiving s l = true := receiving_of (n := 4) (here ▸ asks) (here ▸ lock) (by decide) (by decide)
  refine ⟨send (setLane (count s (pgFln l) 1) l { ln with rate := ln.want, lock := false }) (.lanePhy l 2), ?_, ?_⟩
  · simp only [exec, execLane, onFrame_ok hl up ok, getLane_count, here]
    rw [if_neg (not_not.2 kind), if_pos ⟨asks, granted, rate, awaits⟩]
  · refine ⟨getLane_setLane_same _ _ _, by simp [sends], counted_count s _ _, fun k hk => ?_,
      (send_evolves (m := 8396864) _ _ rfl (setLane_evolves _ _ _ rfl (count_evolves _ _ _ rfl .rfl))).only (by decide)⟩
    rw [getLane_send, getLane_setLane_beside _ _ _ k hk, getLane_count]

theorem lane_idle {f : RxFrame} (lock : ln.lock = true) (ok : frameOk f 2 = true) (kind : bytesAt (fBody f) 0 1 = 9)
    (active : ln.state = 6) (granted : bitOf (bytesAt (fBody f) 1 1) 1 = true) (asked : ln.eiAsked = true) :
    completes (.lane l f) s (fun t =>
      getLane t l = { ln with state := 7, eiAsked := false } ∧ sends s t [.lanePhy l 3] ∧
        counted s t (pgFln l) 9 ∧ (∀ k, k ≠ l → getLane t k = getLane s k) ∧
        onlyChanges [.counters, .links, .out] s t) := by
  have up : receiving s l = true := receiving_of (n := 6) (here ▸ active) (here ▸ lock) (by decide) (by decide)
  let v := send (setLane (count s (pgFln l) 1) l { ln with state := 7, eiAsked := false }) (.lanePhy l 3)
  have before : counter v (pgFln l) 9 = counter s (pgFln l) 9 := countersKept_count s _ _ _ _ (by omega)
  refine ⟨count v (pgFln l) 9, ?_, ?_⟩
  · simp only [exec, execLane, onFrame_ok hl up ok, getLane_count, here]
    rw [if_neg (not_not.2 kind), if_neg (by omega), if_pos ⟨active, granted, asked⟩]
  · refine ⟨?_, by simp [sends, v], ?_, fun k hk => ?_,
      (count_evolves (m := 8396864) _ _ _ rfl (send_evolves _ _ rfl (setLane_evolves _ _ _ rfl (count_evolves _ _ _ rfl .rfl)))).only
        (by decide)⟩
    · rw [getLane_count]
      exact getLane_setLane_same _ _ _
    · rw [counted, ← before]
      exact counted_count v _ _
    · rw [getLane_count, getLane_send, getLane_setLane_beside _ _ _ k hk, getLane_count]

end BringUp

end Sys2Proof.Machine

namespace Sys2Proof.Proofs
open Sys2Proof Sys2Proof.Machine

theorem laneBringUp : LaneBringUpRule := by
  intro s l hl ln
  refine ⟨fun idle good enabled => ⟨detect_found hl rfl idle good enabled, detect_none hl rfl idle good enabled⟩,
    fun fom own peer => ⟨trainDone_first hl rfl fom own peer, trainDone_done hl rfl fom own peer,
      trainDone_poor hl rfl fom own peer⟩, trainTimeout_fails hl rfl, trainTimeout_steps hl rfl,
    fun f waits lock ok => ⟨cap_refused hl rfl waits lock ok, cap_taken hl rfl waits lock ok⟩,
    fun waits => ⟨capTimeout_fails hl rfl waits, bringUpResend_cap hl rfl waits⟩,
    fun asks awaits => ⟨capTimeout_steps hl rfl asks awaits, bringUpResend_rate hl rfl asks awaits⟩,
    fun f lock ok kind => ⟨lane_rate hl rfl lock ok kind, lane_idle hl rfl lock ok kind⟩⟩

end Sys2Proof.Proofs
end

section
/-! PROOFS. Lanes (R247 to R249, R251, R257, R258, R278): frames in time, the exchange that makes a lane ACTIVE, and block lock. -/

namespace Sys2Proof.Machine
open Sys2Proof

variable {s t : State} {l : Nat}

/-! ### What the full state of a lane leaves -/

/-- The lane is as it was but for the frames that it keeps account of: waveforms sent, amplitudes, output levels. -/
def stays (l n : Nat) (s t : State) : Prop := (getLane s l).state = n → (getLane t l).state = n

theorem stays.trans {n : Nat} {u : State} (h : stays l n s t) (g : stays l n t u) : stays l n s u := fun e => g (h e)

theorem stays_of_links {n : Nat} (h : t.links = s.links) : stays l n s t := fun e => by rw [getLane_of_links h]; exact e

theorem stays_setLane {n : Nat} {ln : Lane} (h : ln.state = (getLane s l).state) : stays l n s (setLane s l ln) :=
  fun e => by rw [getLane_setLane_same, h]; exact e

theorem stays_flnSend (s : State) (l type flags : Nat) (body : List Byte) : stays l 6 s (flnSend s l type flags body) :=
  fun e => by rw [getLane_of_links (links_flnSend (awake_of_state e (by decide) (by decide)) flags body)]; exact e

theorem stays_foldl {α : Type} {n : Nat} {f : State → α → State} (h : ∀ s x, stays l n s (f s x)) (xs : List α) (s : State) :
    stays l n s (xs.foldl f s) :=
  fun e => List.foldlRecOn (motive := fun s => (getLane s l).state = n) xs f e (fun s hs x _ => h s x hs)

theorem stays_ite {n : Nat} {c : Prop} [Decidable c] {u : State} (h : stays l n s t) (g : stays l n s u) :
    stays l n s (if c then t else u) := by
  split
  · exact h
  · exact g

theorem stays_of_getLane {n : Nat} (h : getLane t l = getLane s l) : stays l n s t := fun e => by rw [h]; exact e

theorem stays_count {n : Nat} (s : State) (p k : Nat) : stays l n s (count s p k) := stays_of_getLane (getLane_count _ _ _ _)

theorem stays_sendHeadItems (s : State) (l b h flags apply n : Nat) : stays l 6 s (sendHeadItems s l b h flags apply n) := by
  unfold sendHeadItems
  exact stays_foldl (fun s r => (stays_foldl (fun s m => stays_flnSend s l _ _ _) _ s).trans (stays_flnSend _ l _ _ _)) _ s

theorem stays_sendBarState (s : State) (l b : Nat) : stays l 6 s (sendBarState s l b) := by
  unfold sendBarState
  exact stays_foldl (fun s h => ((stays_flnSend s l _ _ _).trans (stays_sendHeadItems _ _ _ _ _ _ _)).trans
    (stays_foldl (fun s m => stays_sendHeadItems _ _ _ _ _ _ _) _ _)) _ s

theorem stays_sendWave (s : State) (l w : Nat) : stays l 6 s (sendWave s l w) := by
  unfold sendWave
  refine stays.trans (stays.trans ?_ (stays_count _ _ _)) (stays_flnSend _ l _ _ _)
  exact stays_setLane rfl

theorem stays_sendAmp (s : State) (l slot w : Nat) (t : Int) : stays l 6 s (sendAmp s l slot w t) := by
  unfold sendAmp
  dsimp only
  refine stays_ite (stays_of_links rfl) (stays.trans (stays.trans ?_ (stays_count _ _ _)) (stays_flnSend _ l _ _ _))
  exact stays_setLane rfl

theorem stays_sendAmps (s : State) (l slot : Nat) (t : Int) : stays l 6 s (sendAmps s l slot t) := by
  unfold sendAmps
  exact stays_foldl (fun s b => stays_foldl (fun s h => stays_ite (stays_foldl (fun s w => stays_sendAmp _ _ _ _ _) _ s)
    (stays_of_links rfl)) _ s) _ s

theorem stays_sendFullState (s : State) (l : Nat) : stays l 6 s (sendFullState s l) := by
  unfold sendFullState
  extract_lets u u1 u2 u3 ln1 u4 v1 ln2 v2 v3
  refine stays.trans (t := u) (stays_flnSend s l _ _ _) ?_
  split
  · refine stays.trans (t := u4) ?_ (stays_foldl (fun s x => stays_sendAmps s l _ _) _ _)
    refine stays.trans (t := u3) ?_ (stays_setLane rfl)
    refine stays.trans (t := u2) ?_ (stays_foldl (fun s w => stays_ite (stays_sendWave s l w) (stays_of_links rfl)) _ _)
    exact stays.trans (t := u1) (stays_foldl (fun s b => stays_sendBarState s l b) _ _) (stays_flnSend _ l _ _ _)
  · refine stays.trans (t := v3) ?_ (stays_ite (stays_foldl (fun s x => stays_flnSend s l _ _ _) _ _) (stays_of_links rfl))
    refine stays.trans (t := v2) ?_ (stays_flnSend _ l _ _ _)
    exact stays.trans (t := v1) (stays_flnSend _ l _ _ _) (stays_setLane rfl)

/-! ### The ends of bring-up -/

/-- A lane that is ACTIVE is up, and says so. -/
theorem enterActive_up (s : State) (l : Nat) :
    (getLane (enterActive s l) l).state = 6 ∧ (evPend (enterActive s l) (pgFln l)).testBit 8 = true := by
  let u := setLane s l { getLane s l with state := 6, keepSerial := none }
  have links : (ev u (pgFln l) 8).links = u.links := (ev_evolves (m := 8523841) _ _ _ rfl .rfl).same .links rfl
  refine ⟨stays_sendFullState (ev u (pgFln l) 8) l ?_, ?_⟩
  · rw [getLane_of_links links, getLane_setLane_same]
  · rw [show enterActive s l = sendFullState (ev u (pgFln l) 8) l from rfl,
      evPend_of_regs ((sendFullState_evolves (m := 8396864) (ev u (pgFln l) 8) l rfl .rfl).same .regs rfl)]
    exact testBit_evPend_raised _ _ (by decide)

theorem enterMismatch_records (s : State) (l : Nat) :
    (getLane (enterMismatch s l) l).state = 8 ∧ recorded s (enterMismatch s l) 0x0702 1 := by
  let u := setLane s l { getLane s l with state := 8 }
  have links : (fault (ev u (pgFln l) 10) 0x0702 1 (pgFln l) noBar [l]).links = u.links :=
    ((fault_below_D _ _ _ _ (by decide) _).same .links rfl).trans ((ev_evolves (m := 8523841) _ _ _ rfl .rfl).same .links rfl)
  refine ⟨?_, recorded_of_keepsLog (keepsLog.of (m := 8532033) (ev_evolves _ _ _ rfl (setLane_evolves _ _ _ rfl .rfl)) rfl)
    (recorded_fault _ _ _ _ _ _)⟩
  rw [show enterMismatch s l = fault (ev u (pgFln l) 10) 0x0702 1 (pgFln l) noBar [l] from rfl, getLane_of_links links,
    getLane_setLane_same]

/-- Whether the partner matches is decided by what it has said of itself and by the plan. -/
theorem planMatches_of_lane (regs : t.regs = s.regs) (seen : (getLane t l).capSeen = (getLane s l).capSeen)
    (kind : (getLane t l).kind = (getLane s l).kind) (serial : (getLane t l).serial = (getLane s l).serial) :
    planMatches t l = planMatches s l := by
  simp only [planMatches, seen, kind, serial, rdf, rd64, rd, regs]

/-! ### Time exchanges -/

section Exchange
variable {ln : Lane} (hl : l < 48) (here : getLane s l = ln)
include hl here

/-- The lane with one more measurement. -/
def Lane.measured (ln : Lane) (ds : List Nat) (d : Int) : Lane :=
  { ln with delays := ds, delay := if decide (8 ≤ ds.length) then d else ln.delay,
            delayValid := ln.delayValid || decide (8 ≤ ds.length), exchanges := ln.exchanges + 1, syncT1 := none }

/-- The state after a sound answer to a SYNC, before bring-up goes on. -/
def measuredState (s : State) (l : Nat) (ds : List Nat) : State :=
  count (setLane (count s (pgFln l) 1) l ((getLane s l).measured ds (meanDelay s l ds))) (pgFln l) 10

theorem exec_timeResp {f : RxFrame} {t1 : Nat} (up : receiving s l = true) (ok : frameOk f 3 = true)
    (asked : ln.syncT1 = some t1) (answer : bytesAt (fBody f) 0 1 = 2) (seq : bytesAt (fBody f) 1 1 = ln.syncSeq)
    (inTime : (fireNow s + 2 ^ 48 - t1) % 2 ^ 48 ≤ 100000 * 256) {ds : List Nat}
    (hds : ds = (delayOf t1 (bytesAt (fBody f) 4 6) (bytesAt (fBody f) 0xA 6) (fireNow s) :: ln.delays).take 8)
    (fits : ds.length < 8 ∨ meanDelay s l ds ≤ 100000 * 256) :
    exec (.timeResp l f) s = .next (
      if ln.state = 5 ∧ ln.wasActive = true then backToActive (measuredState s l ds) l
      else if ln.state = 5 ∧ 8 ≤ ln.exchanges + 1 then finishBringUp (measuredState s l ds) l else measuredState s l ds) := by
  have now : fireNow (count s (pgFln l) 1) = fireNow s := by simp only [fireNow, ptTotalNs, count_fields]
  have mean : meanDelay (count s (pgFln l) 1) l ds = meanDelay s l ds := by simp only [meanDelay, count_fields]
  have sound : ¬(decide (8 ≤ ds.length) = true ∧ 100000 * 256 < meanDelay s l ds) := by
    rw [decide_eq_true_eq]
    omega
  simp only [exec, execTimeResp, onFrame_ok hl up ok, getLane_count, here, asked, now]
  rw [if_neg (by omega), ← hds, mean, if_neg sound]
  simp only [measuredState, here]
  rfl

omit hl in
theorem getLane_measuredState (ds : List Nat) (k : Nat) :
    getLane (measuredState s l ds) k = if k = l then ln.measured ds (meanDelay s l ds) else getLane s k := by
  rw [measuredState, getLane_count, getLane_setLane, getLane_count, here]

omit hl here in
theorem measuredState_evolves (s : State) (l : Nat) (ds : List Nat) : Evolves 8256 s (measuredState s l ds) :=
  count_evolves _ _ _ rfl (setLane_evolves _ _ _ rfl (count_evolves _ _ _ rfl .rfl))

omit hl in
theorem planMatches_measuredState (ds : List Nat) : planMatches (measuredState s l ds) l = planMatches s l := by
  refine planMatches_of_lane ((measuredState_evolves s l ds).same .regs rfl) ?_ ?_ ?_ <;>
    rw [getLane_measuredState here, if_pos rfl, here] <;> rfl

omit hl in
/-- An exchange after which nothing else is due. -/
theorem measuredState_leaves {ds : List Nat} :
    let t := measuredState s l ds
    (getLane t l).delays = ds ∧ (getLane t l).exchanges = ln.exchanges + 1 ∧
      (getLane t l).syncT1 = none ∧ (getLane t l).state = ln.state ∧
      (ds.length = 8 → (getLane t l).delay = meanDelay s l ds) ∧
      (∀ k, k ≠ l → getLane t k = getLane s k) ∧ onlyChanges [.counters, .links] s t := by
  dsimp only
  rw [getLane_measuredState here, if_pos rfl]
  refine ⟨rfl, rfl, rfl, rfl, fun full => ?_, fun k hk => ?_, (measuredState_evolves s l ds).only (by decide)⟩
  · rw [Lane.measured, if_pos (by simp [full])]
  · rw [getLane_measuredState here, if_neg hk]

omit hl in
/-- The eighth exchange makes a lane that its plan names ACTIVE. -/
theorem finishBringUp_matches (ds : List Nat) (fresh : ln.keepSerial = none) (plan : planMatches s l = true) :
    (getLane (finishBringUp (measuredState s l ds) l) l).state = 6 ∧
      (evPend (finishBringUp (measuredState s l ds) l) (pgFln l)).testBit 8 = true := by
  have lane : (getLane (measuredState s l ds) l).keepSerial = none := by rw [getLane_measuredState here, if_pos rfl]; exact fresh
  have up : finishBringUp (measuredState s l ds) l = enterActive (measuredState s l ds) l := by
    simp only [finishBringUp, lane, planMatches_measuredState here, plan, Bool.and_self, if_true]
  rw [up]
  exact enterActive_up _ _

omit hl in
theorem finishBringUp_differs (ds : List Nat) (plan : planMatches s l = false) :
    (getLane (finishBringUp (measuredState s l ds) l) l).state = 8 ∧
      recorded s (finishBringUp (measuredState s l ds) l) 0x0702 1 := by
  have down : finishBringUp (measuredState s l ds) l = enterMismatch (measuredState s l ds) l := by
    simp only [finishBringUp, planMatches_measuredState here, plan, Bool.false_and, Bool.false_eq_true, if_false]
  rw [down]
  obtain ⟨state, record⟩ := enterMismatch_records (measuredState s l ds) l
  exact ⟨state, recorded_of_keepsLog (.of (measuredState_evolves s l ds) rfl) record⟩

omit hl in
/-- A lane that comes out of electrical idle is ACTIVE again, and what waited has been sent. -/
theorem backToActive_matches (ds : List Nat) (plan : planMatches s l = true) :
    let t := backToActive (measuredState s l ds) l
    (getLane t l).state = 6 ∧ (getLane t l).wasActive = false ∧ (getLane t l).queued = [] := by
  let u := setLane (measuredState s l ds) l { ln.measured ds (meanDelay s l ds) with state := 6, wasActive := false, queued := [] }
  have same : planMatches u l = true := by
    rw [← plan, ← planMatches_measuredState here ds]
    refine planMatches_of_lane rfl ?_ ?_ ?_ <;> rw [getLane_setLane_same, getLane_measuredState here, if_pos rfl]
  have back : backToActive (measuredState s l ds) l =
      (ln.measured ds (meanDelay s l ds)).queued.foldl (fun s x => flnSend s l x.1 x.2.1 x.2.2) u := by
    have lane : getLane (measuredState s l ds) l = ln.measured ds (meanDelay s l ds) := by
      rw [getLane_measuredState here, if_pos rfl]
    simp only [backToActive, lane]
    rw [if_pos same]
  have sent (xs : List (Nat × Nat × List Byte)) (v : State) (active : (getLane v l).state = 6) :
      (xs.foldl (fun s x => flnSend s l x.1 x.2.1 x.2.2) v).links = v.links := by
    induction xs generalizing v with
    | nil => rfl
    | cons x xs ih =>
      have links := links_flnSend (awake_of_state (type := x.1) active (by decide) (by decide)) x.2.1 x.2.2
      rw [List.foldl_cons, ih _ (by rw [getLane_of_links links]; exact active), links]
  dsimp only
  rw [back, getLane_of_links (sent _ u (by rw [getLane_setLane_same])), getLane_setLane_same]
  exact ⟨rfl, rfl, rfl⟩

end Exchange

/-! ### Heartbeats, SYNC and block lock -/

section Beat
variable {ln : Lane} (hl : l < 48) (here : getLane s l = ln)
include hl here

theorem idleSend_beats (up : 3 ≤ ln.state) (awake : ln.state ≠ 7) (sound : ln.state < 9) :
    completes (.idleSend l) s (fun t =>
      (getLane t l).idleCnt = ln.idleCnt + 1 ∧ (getLane t l).state = ln.state ∧
        sends s t [.fln l (flnFrame 0xF 0 (claimWord s) (leBytes 4 (ln.idleCnt + 1)))] ∧
        (∀ k, k ≠ l → getLane t k = getLane s k) ∧ onlyChanges [.counters, .links, .out] s t) := by
  let u := setLane s l { ln with idleCnt := ln.idleCnt + 1 }
  have lane : getLane u l = { ln with idleCnt := ln.idleCnt + 1 } := getLane_setLane_same _ _ _
  have goes : passes u l 0xF := by
    rw [passes, lane]
    exact ⟨up, awake, Nat.ne_of_lt sound, fun _ _ => .inr rfl, fun h => absurd h (by decide)⟩
  have claim : claimWord u = claimWord s := claimWord_of_regs rfl rfl
  have due : (decide (l < 48) && decide (3 ≤ ln.state) && ln.state != 7 && ln.state != 9) = true := by
    have : ln.state ≠ 9 := by omega
    simp [hl, up, awake, this]
  refine ⟨flnSend u l 0xF 0 (leBytes 4 (ln.idleCnt + 1)), ?_, ?_⟩
  · simp only [exec, execIdleSend, here, due, if_true]
    rfl
  · rw [flnSend_passes goes, claim]
    simp only [getLane_count, getLane_send, lane]
    refine ⟨trivial, trivial, by simp [sends, u], fun k hk => getLane_setLane_beside _ _ _ k hk, (count_evolves (m := 8396864) _ _ _
      rfl (send_evolves _ _ rfl (setLane_evolves _ _ _ rfl .rfl))).only (by decide)⟩

/-- The lane that has sent a SYNC. -/
def Lane.synced (ln : Lane) (now : Nat) : Lane := { ln with syncSeq := (ln.syncSeq + 1) % 256, syncT1 := some now }

omit hl here in
/-- What stands behind the first part of a frame. -/
theorem bytesAt_skip (as bs : List Byte) {o : Nat} (h : as.length ≤ o) (n : Nat) :
    bytesAt (as ++ bs) o n = bytesAt bs (o - as.length) n := by
  rw [bytesAt, List.drop_append, List.drop_eq_nil_of_le h, List.nil_append, bytesAt]

omit hl here in
theorem bytesAt_leBytes (n v : Nat) (bs : List Byte) : bytesAt (leBytes n v ++ bs) 0 n = v % 256 ^ n := by
  rw [bytesAt, List.drop_zero, List.take_left' (leBytes_length n v), leNat_leBytes]

omit hl here in
theorem bytesAt_flnFrame (type flags claim : Nat) (body : List Byte) :
    bytesAt (flnFrame type flags claim body) 0 1 = type % 256 := by
  simp only [flnFrame, withCrc, List.append_assoc, bytesAt_leBytes, pow_one]

omit hl here in
/-- A frame holds its body behind 8 bytes of header (R248). -/
theorem bytesAt_flnFrame_body (type flags claim : Nat) {body : List Byte} (o n : Nat) :
    ∃ rest, bytesAt (flnFrame type flags claim body) (8 + o) n = bytesAt (body ++ rest) o n := by
  let head := leBytes 1 type ++ leBytes 1 flags ++ leBytes 2 body.length ++ leBytes 4 claim
  have length : head.length = 8 := by simp only [head, List.length_append, leBytes_length]
  refine ⟨leBytes 4 (crc32c (head ++ body)), ?_⟩
  have split : flnFrame type flags claim body = head ++ (body ++ leBytes 4 (crc32c (head ++ body))) := List.append_assoc _ _ _
  rw [split, bytesAt_skip _ _ (by omega), length, Nat.add_sub_cancel_left]

omit hl in
theorem sendSync_leaves (up : 3 ≤ ln.state) (awake : ln.state ≠ 7) (sound : ln.state ≠ 9) :
    getLane (sendSync s l) l = ln.synced (fireNow s) ∧
      (∃ frame, (sendSync s l).out = s.out ++ [.fln l frame] ∧ bytesAt frame 0 1 = 3 ∧ bytesAt frame 8 1 = 1 ∧
        bytesAt frame 9 1 = (ln.syncSeq + 1) % 256 ∧ bytesAt frame 0xC 6 = fireNow s % 2 ^ 48) ∧
      (∀ k, k ≠ l → getLane (sendSync s l) k = getLane s k) ∧ onlyChanges [.counters, .links, .out] s (sendSync s l) := by
  let u := setLane s l (ln.synced (fireNow s))
  let body := leBytes 1 1 ++ leBytes 1 ((ln.syncSeq + 1) % 256) ++ leBytes 2 0 ++ leBytes 6 (fireNow s) ++
    leBytes 4 (if ln.delayValid then twos 32 ln.delay else 0) ++ leBytes 2 0
  have lane : getLane u l = ln.synced (fireNow s) := getLane_setLane_same _ _ _
  have goes : passes u l 3 := by
    rw [passes, lane]
    exact ⟨up, awake, sound, fun _ _ => .inl rfl, fun h => absurd h (by decide)⟩
  have sent : sendSync s l = count (send u (.fln l (flnFrame 3 0 (claimWord u) body))) (pgFln l) 0 := by
    rw [← flnSend_passes goes]
    simp only [sendSync, here]
    rfl
  rw [sent]
  simp only [getLane_count, getLane_send, lane]
  refine ⟨trivial, ⟨flnFrame 3 0 (claimWord u) body, by simp [u], bytesAt_flnFrame _ _ _ _, ?_, ?_, ?_⟩,
    fun k hk => getLane_setLane_beside _ _ _ k hk, (count_evolves (m := 8396864) _ _ _ rfl (send_evolves _ _ rfl
      (setLane_evolves _ _ _ rfl .rfl))).only (by decide)⟩
  · obtain ⟨rest, at_⟩ := bytesAt_flnFrame_body 3 0 (claimWord u) (body := body) 0 1
    rw [at_]
    simp only [body, List.append_assoc, bytesAt_leBytes, Nat.reducePow, Nat.reduceMod]
  · obtain ⟨rest, at_⟩ := bytesAt_flnFrame_body 3 0 (claimWord u) (body := body) 1 1
    rw [at_]
    simp only [body, List.append_assoc]
    rw [bytesAt_skip _ _ (by rw [leBytes_length]), leBytes_length, Nat.sub_self, bytesAt_leBytes]
    omega
  · obtain ⟨rest, at_⟩ := bytesAt_flnFrame_body 3 0 (claimWord u) (body := body) 4 6
    rw [at_]
    simp only [body, List.append_assoc]
    rw [bytesAt_skip _ _ (by rw [leBytes_length]; omega), leBytes_length, bytesAt_skip _ _ (by rw [leBytes_length]; omega),
      leBytes_length, bytesAt_skip _ _ (by rw [leBytes_length]), leBytes_length, Nat.sub_self, bytesAt_leBytes]
    omega

theorem syncSend_sends (used : ln.state = 5 ∨ ln.state = 6 ∨ ln.state = 8) :
    completes (.syncSend l) s (fun t =>
      (getLane t l).syncSeq = (ln.syncSeq + 1) % 256 ∧ (getLane t l).syncT1 = some (fireNow s) ∧
        (∃ frame, t.out = s.out ++ [.fln l frame] ∧ bytesAt frame 0 1 = 3 ∧ bytesAt frame 8 1 = 1 ∧
          bytesAt frame 9 1 = (ln.syncSeq + 1) % 256 ∧ bytesAt frame 0xC 6 = fireNow s % 2 ^ 48) ∧
        (∀ k, k ≠ l → getLane t k = getLane s k) ∧ onlyChanges [.counters, .links, .out] s t) := by
  obtain ⟨lane, frame, beside, only⟩ := sendSync_leaves (ln := ln) here (by omega) (by omega) (by omega)
  have due : (decide (l < 48) && (ln.state == 5 || ln.state == 6 || ln.state == 8)) = true := by simpa [hl, or_assoc] using used
  refine ⟨sendSync s l, by simp only [exec, execSyncSend, here, due, if_true], ?_⟩
  beta_reduce
  rw [lane]
  exact ⟨rfl, rfl, frame, beside, only⟩

theorem blockLockLost_leaves :
    completes (.blockLockLost l) s (fun t =>
      getLane t l = { ln with lock := false } ∧ (∀ k, k ≠ l → getLane t k = getLane s k) ∧ onlyChanges [.clk, .links] s t) := by
  refine ⟨_, by simp only [exec, execBlockLockLost, isLane_of_lt hl, if_true, here]; rfl, ?_⟩
  let u := setLane s l { ln with lock := false }
  have step : Evolves 8192 s u := setLane_evolves _ _ _ rfl .rfl
  split
  · refine ⟨getLane_setLane_same _ _ _, getLane_setLane_beside _ _ _, ?_⟩
    exact (Evolves.upd_256 (m := 8448) rfl (step.mono rfl)).only (by decide)
  · exact ⟨getLane_setLane_same _ _ _, getLane_setLane_beside _ _ _, (step.mono rfl : Evolves 8448 s u).only (by decide)⟩

theorem blockLockGained_locks (other : ln.state ≠ 7) :
    completes (.blockLockGained l) s (fun t =>
      getLane t l = { ln with lock := true } ∧ (∀ k, k ≠ l → getLane t k = getLane s k) ∧ onlyChanges [.links] s t) := by
  refine ⟨setLane s l { ln with lock := true }, ?_, getLane_setLane_same _ _ _, getLane_setLane_beside _ _ _,
    (setLane_evolves (m := 8192) _ _ _ rfl .rfl).only (by decide)⟩
  simp only [exec, execBlockLockGained, isLane_of_lt hl, if_true, here]
  rw [if_neg other]

theorem blockLockGained_wakes (idle : ln.state = 7) :
    completes (.blockLockGained l) s (fun t =>
      (getLane t l).state = 5 ∧ (getLane t l).lock = true ∧ (getLane t l).syncT1 = some (fireNow s) ∧
        (∀ k, k ≠ l → getLane t k = getLane s k) ∧ onlyChanges [.counters, .links, .out] s t) := by
  let woken : Lane := { ln with lock := true, state := 5, exchanges := 7, wasActive := true, eiAsked := false }
  let v := if ln.eiAsked then setLane s l { ln with lock := true } else send (setLane s l { ln with lock := true }) (.lanePhy l 1)
  have chosen : v = setLane s l { ln with lock := true } ∨ v = send (setLane s l { ln with lock := true }) (.lanePhy l 1) := by
    dsimp only [v]
    split
    · exact .inl rfl
    · exact .inr rfl
  have step : Evolves 8396800 s v := by
    rcases chosen with e | e <;> rw [e]
    · exact setLane_evolves _ _ _ rfl .rfl
    · exact send_evolves _ _ rfl (setLane_evolves _ _ _ rfl .rfl)
  have beside_v (k : Nat) (hk : k ≠ l) : getLane v k = getLane s k := by
    rcases chosen with e | e <;> rw [e]
    · exact getLane_setLane_beside _ _ _ k hk
    · exact getLane_setLane_beside _ _ _ k hk
  let w := setLane v l woken
  obtain ⟨lane, -, beside, only⟩ := sendSync_leaves (s := w) (l := l) (getLane_setLane_same v l woken) (Nat.le_of_ble_eq_true rfl)
    (show (5 : Nat) ≠ 7 by decide) (show (5 : Nat) ≠ 9 by decide)
  have now : fireNow w = fireNow s := by
    rw [fireNow, ptTotalNs, show w.clk = s.clk from (setLane_evolves (m := 8396800) _ _ _ rfl step).same .clk rfl]
    rfl
  refine ⟨sendSync w l, ?_, ?_⟩
  · simp only [exec, execBlockLockGained, isLane_of_lt hl, if_true, here]
    rw [if_pos idle]
  · beta_reduce
    rw [lane, now]
    refine ⟨rfl, rfl, rfl, fun k hk => ?_, onlyChanges.trans
      ((setLane_evolves (m := 8396800) _ _ _ rfl step).only (by decide)) only⟩
    rw [beside k hk, getLane_setLane_beside _ _ _ k hk, beside_v k hk]

end Beat

end Sys2Proof.Machine

namespace Sys2Proof.Proofs
open Sys2Proof Sys2Proof.Machine

theorem laneFrames : LaneFramesRule := by
  refine ⟨fun s l f hl up => ⟨fun bad => ?_, fun ok => ?_, fun bad => ?_, ?_⟩, fun s l hl =>
    ⟨idleSend_beats hl rfl, syncSend_sends hl rfl, blockLockLost_leaves hl rfl, blockLockGained_locks hl rfl,
      blockLockGained_wakes hl rfl⟩⟩
  · exact ⟨_, by simp only [exec, execIdle, onFrame_bad hl up bad], counted_count s _ _, countersKept_count s _ _, only_count s _ _⟩
  · exact ⟨_, by simp only [exec, execIdle, onFrame_ok hl up ok], counted_count s _ _, countersKept_count s _ _, only_count s _ _⟩
  · exact ⟨_, by simp only [exec, execTimeResp, onFrame_bad hl up bad], counted_count s _ _, countersKept_count s _ _,
      only_count s _ _⟩
  · intro t1 ok asked answer seq inTime ds fits
    have runs := exec_timeResp hl rfl up ok asked answer seq inTime rfl fits
    refine ⟨fun quiet => ?_, fun trains fresh enough single => ⟨fun plan => ?_, fun plan => ?_⟩, fun trains was plan => ?_⟩
    · rw [if_neg (by rintro ⟨h5, was⟩; rcases quiet with h | ⟨h, -⟩ <;> simp_all), if_neg (by omega)] at runs
      exact ⟨_, runs, measuredState_leaves rfl⟩
    · rw [if_neg (by rw [fresh]; simp), if_pos ⟨trains, by omega⟩] at runs
      exact ⟨_, runs, finishBringUp_matches rfl ds single plan⟩
    · rw [if_neg (by rw [fresh]; simp), if_pos ⟨trains, by omega⟩] at runs
      exact ⟨_, runs, finishBringUp_differs rfl ds plan⟩
    · rw [if_pos ⟨trains, was⟩] at runs
      exact ⟨_, runs, backToActive_matches rfl ds plan⟩

/-- Settles O32: bring-up, and the frames of a lane in time, case by case. -/
theorem lanes : Obligations.Lanes := ⟨laneBringUp, laneFrames⟩

end Sys2Proof.Proofs
end

section
/-! PROOFS. CamerasAndPipeline (R279 to R287, R292): contexts, their slots, and the frames that packets make. -/

namespace Sys2Proof.Machine
open Sys2Proof

variable {s t : State}

/-! ### Contexts and their slots -/

theorem getCtx_of_cams (h : t.cams = s.cams) (x : Nat) : getCtx t x = getCtx s x := by rw [getCtx, h, getCtx]

theorem getCtx_setCtx_same (s : State) (x : Nat) (c : Ctx) : getCtx (setCtx s x c) x = c := by rw [getCtx_setCtx, if_pos rfl]

theorem getCtx_setCtx_beside (s : State) (x : Nat) (c : Ctx) : ∀ y, y ≠ x → getCtx (setCtx s x c) y = getCtx s y :=
  fun y h => by rw [getCtx_setCtx, if_neg h]

theorem getCtx_wr (s : State) (a v x : Nat) : getCtx (wr s a v) x = getCtx s x := rfl

theorem getCtx_wrf (s : State) (a hi lo v x : Nat) : getCtx (wrf s a hi lo v) x = getCtx s x := rfl

theorem getCtx_count (s : State) (p k x : Nat) : getCtx (count s p k) x = getCtx s x := getCtx_of_cams (by simp only [count_fields]) x

theorem cams_ev (s : State) (p b : Nat) : (ev s p b).cams = s.cams :=
  (ev_evolves (m := 8523841) _ _ _ rfl .rfl).same .cams rfl

theorem getCtx_ev (s : State) (p b x : Nat) : getCtx (ev s p b) x = getCtx s x := getCtx_of_cams (cams_ev s p b) x

/-- A context with another state of slot i. -/
def Ctx.withSlot (c : Ctx) (i v : Nat) : Ctx := if i = 0 then { c with slot0 := v } else { c with slot1 := v }

theorem slotOf_withSlot (c : Ctx) (i v : Nat) : slotOf (c.withSlot i v) i = v := by
  unfold slotOf Ctx.withSlot
  split <;> rfl

theorem withSlot_leaves (c : Ctx) (i v : Nat) :
    (c.withSlot i v).current = c.current ∧ (c.withSlot i v).ready = c.ready ∧ (c.withSlot i v).strobes = c.strobes := by
  unfold Ctx.withSlot
  split <;> exact ⟨rfl, rfl, rfl⟩

theorem getCtx_setSlot (s : State) (x i v y : Nat) :
    getCtx (setSlot s x i v) y = if y = x then (getCtx s x).withSlot i v else getCtx s y := by
  unfold setSlot Ctx.withSlot
  dsimp only
  split <;> rw [getCtx_wrf, getCtx_setCtx]

theorem rd_setSlot (s : State) (x i v : Nat) {a : Nat} (h : a ≠ ctxA x 0x30) : rd (setSlot s x i v) a = rd s a := by
  unfold setSlot
  dsimp only
  split <;> exact rd_wrf_other _ _ _ _ h

/-! ### What decides the context of a packet -/

/-- The words of the contexts that a packet is judged by. -/
def contextWords (s t : State) : Prop :=
  pgEn t pgIsp = pgEn s pgIsp ∧ (∀ x, ctxSrc t x = ctxSrc s x) ∧ ∀ x, rd t (ctxA x 4) = rd s (ctxA x 4)

theorem contextWords.trans {u : State} (h : contextWords s t) (g : contextWords t u) : contextWords s u :=
  ⟨g.1.trans h.1, fun x => (g.2.1 x).trans (h.2.1 x), fun x => (g.2.2 x).trans (h.2.2 x)⟩

theorem contextWords_of_regs (h : t.regs = s.regs) : contextWords s t := by
  have word (a : Nat) : rd t a = rd s a := by rw [rd, h, rd]
  exact ⟨by rw [pgEn, rdb, word, pgEn, rdb], fun x => word _, fun x => word _⟩

theorem contextWords_ev (s : State) (p b : Nat) : contextWords s (ev s p b) := by
  have word {a : Nat} (h : a ≠ ra p 0x24) : rd (ev s p b) a = rd s a := wordsKept_ev s p b a (by simpa using h)
  refine ⟨?_, fun x => word ?_, fun x => word ?_⟩
  · rw [pgEn, rdb, word (by unfold ra; omega), pgEn, rdb]
  · unfold ctxA ra
    omega
  · unfold ctxA ra
    omega

theorem contextWords_count (s : State) (p k : Nat) : contextWords s (count s p k) := contextWords_of_regs (by simp only [count_fields])

section Words
variable (h : contextWords s t)
include h

theorem ctxFor_of_words (p c : Nat) : ctxFor t p c = ctxFor s p c := by
  obtain ⟨en, src, -⟩ := h
  simp only [ctxFor, en, ctxOn, src]

theorem ctxHeight_of_words (x : Nat) : ctxHeight t x = ctxHeight s x := rdf_eq_of_rd (h.2.2 x) _ _

theorem ctxWidth_of_words (x : Nat) : ctxWidth t x = ctxWidth s x := rdf_eq_of_rd (h.2.2 x) _ _

theorem rawBits_of_words (x : Nat) : rawBits t x = rawBits s x := by rw [rawBits, h.2.1, rawBits]

end Words

theorem ctxFor_lt {p c x : Nat} (h : ctxFor s p c = some x) : x < 8 := by
  unfold ctxFor at h
  split at h
  · exact List.mem_range.1 (List.mem_of_find?_eq_some h)
  · exact absurd h (by simp)

/-! ### Frames start -/

theorem closeFrame_none {x : Nat} (early : Bool) (h : (getCtx s x).current = none) : closeFrame s x early = s := by
  rw [closeFrame, h]

/-- The context has given its oldest strobe to a frame, whose number FSTAT shows. -/
def strobeTaken (s : State) (x n : Nat) : State :=
  wrf (setCtx s x { getCtx s x with strobes := (getCtx s x).strobes.drop 1 }) (ctxA x 0x30) 31 16 n

/-- The frame that a frame start opens in slot i. -/
def newFrame (s : State) (x i n : Nat) : Frame :=
  { slot := i, number := n % 65536, lines := 0, short := false, long := false, err := false, strobe := (getCtx s x).strobes.head? }

theorem getCtx_strobeTaken (s : State) (x n y : Nat) :
    getCtx (strobeTaken s x n) y = if y = x then { getCtx s x with strobes := (getCtx s x).strobes.drop 1 } else getCtx s y := by
  rw [strobeTaken, getCtx_wrf, getCtx_setCtx]

theorem openFrame_takes {p c x n i : Nat} (closed : (getCtx s x).current = none)
    (free : i = 0 ∧ (getCtx s x).slot0 = 0 ∨ i = 1 ∧ (getCtx s x).slot0 ≠ 0 ∧ (getCtx s x).slot1 = 0) :
    let v := strobeTaken s x n
    openFrame s p c x n = setSlot (setCtx v x { getCtx v x with current := some (newFrame s x i n) }) x i 1 := by
  have here : getCtx (strobeTaken s x n) x = _ := (getCtx_strobeTaken s x n x).trans (if_pos rfl)
  have slot0 : (getCtx (strobeTaken s x n) x).slot0 = (getCtx s x).slot0 := by rw [here]
  have slot1 : (getCtx (strobeTaken s x n) x).slot1 = (getCtx s x).slot1 := by rw [here]
  unfold openFrame
  rw [closeFrame_none true closed]
  intro v
  extract_lets u st c0 u1 u2 c1 take
  rcases free with ⟨rfl, h0⟩ | ⟨rfl, h0, h1⟩
  · exact if_pos (slot0.trans h0)
  · exact (if_neg (fun e => h0 (slot0.symm.trans e))).trans (if_pos (slot1.trans h1))

theorem openFrame_drops {p c x n : Nat} (closed : (getCtx s x).current = none) (h0 : (getCtx s x).slot0 ≠ 0)
    (h1 : (getCtx s x).slot1 ≠ 0) :
    let v := ev (count (strobeTaken s x n) pgIsp (4 * x + 1)) pgIsp 9
    openFrame s p c x n = { v with cams := { v.cams with skipping := v.cams.skipping ++ [(p, c)] } } := by
  have here : getCtx (strobeTaken s x n) x = _ := (getCtx_strobeTaken s x n x).trans (if_pos rfl)
  have slot0 : (getCtx (strobeTaken s x n) x).slot0 = (getCtx s x).slot0 := by rw [here]
  have slot1 : (getCtx (strobeTaken s x n) x).slot1 = (getCtx s x).slot1 := by rw [here]
  unfold openFrame
  rw [closeFrame_none true closed]
  exact (if_neg (fun e => h0 (slot0.symm.trans e))).trans (if_neg (fun e => h1 (slot1.symm.trans e)))

/-- A frame start has been counted, and its virtual channel is looked at again. -/
def startSeen (s : State) (p c : Nat) : State :=
  let s := count s (pgCam p) 5
  { s with cams := { s.cams with skipping := s.cams.skipping.filter (fun e => e != (p, c)) } }

theorem getCtx_startSeen (s : State) (p c x : Nat) : getCtx (startSeen s p c) x = getCtx s x := by
  rw [startSeen, getCtx]
  simp only [count_fields]
  rfl

theorem startSeen_evolves (s : State) (p c : Nat) : Evolves 16448 s (startSeen s p c) :=
  Evolves.upd_16384 rfl (count_evolves _ _ _ rfl .rfl)

theorem ctxFor_startSeen (s : State) (p c : Nat) : ctxFor (startSeen s p c) p c = ctxFor s p c :=
  ctxFor_of_words (contextWords_of_regs ((startSeen_evolves s p c).same .regs rfl)) p c

theorem counted_startSeen (s : State) (p c : Nat) : counted s (startSeen s p c) (pgCam p) 5 := counted_count s _ _

section Start
variable {p c : Nat} (hp : p < 4) (hc : c < 4) (enabled : pgEn s (pgCam p) = true)
include hp hc enabled

theorem exec_frameStart_context {x : Nat} (n : Nat) (here : ctxFor s p c = some x) :
    exec (.frameStart p c n) s = .next (openFrame (startSeen s p c) p c x n) := by
  have found : ctxFor (startSeen s p c) p c = some x := (ctxFor_startSeen s p c).trans here
  unfold startSeen at found
  simp only [exec, execFrameStart, Nat.mod_eq_of_lt hp, enabled, Nat.not_le.2 hc, if_false, Bool.true_eq_false, found]
  rfl

theorem frameStart_takes {x i n : Nat} (here : ctxFor s p c = some x) (closed : (getCtx s x).current = none)
    (free : i = 0 ∧ (getCtx s x).slot0 = 0 ∨ i = 1 ∧ (getCtx s x).slot0 ≠ 0 ∧ (getCtx s x).slot1 = 0) :
    completes (.frameStart p c n) s (fun t =>
      (getCtx t x).current = some { slot := i, number := n % 65536, lines := 0, short := false, long := false, err := false,
                                    strobe := (getCtx s x).strobes.head? } ∧
        (getCtx t x).strobes = (getCtx s x).strobes.drop 1 ∧ slotOf (getCtx t x) i = 1 ∧ counted s t (pgCam p) 5 ∧
        (∀ y, y ≠ x → getCtx t y = getCtx s y) ∧ onlyChanges [.regs, .counters, .cams] s t) := by
  have same (y : Nat) := getCtx_startSeen s p c y
  let v := strobeTaken (startSeen s p c) x n
  let w := setCtx v x { getCtx v x with current := some (newFrame (startSeen s p c) x i n) }
  have opened : openFrame (startSeen s p c) p c x n = setSlot w x i 1 :=
    openFrame_takes (by rw [same]; exact closed) (by rw [same]; exact free)
  have at_w : getCtx w x = { getCtx v x with current := some (newFrame (startSeen s p c) x i n) } := getCtx_setCtx_same _ _ _
  have at_v : getCtx v x = { getCtx s x with strobes := (getCtx s x).strobes.drop 1 } := by
    rw [getCtx_strobeTaken, if_pos rfl, same]
  have step : Evolves 16385 (startSeen s p c) (setSlot w x i 1) :=
    setSlot_evolves _ _ _ _ rfl (setCtx_evolves _ _ _ rfl (wrf_evolves _ _ _ _ _ rfl (setCtx_evolves _ _ _ rfl .rfl)))
  refine ⟨setSlot w x i 1, by rw [exec_frameStart_context hp hc enabled n here, opened], ?_⟩
  beta_reduce
  obtain ⟨current, -, strobes⟩ := withSlot_leaves (getCtx w x) i 1
  rw [getCtx_setSlot, if_pos rfl, current, strobes, slotOf_withSlot]
  refine ⟨?_, ?_, rfl, ?_, fun y hy => ?_, ?_⟩
  · rw [at_w, newFrame, same]
  · rw [at_w, at_v]
  · rw [counted, step.counter_eq rfl]
    exact counted_startSeen s p c
  · rw [getCtx_setSlot, if_neg hy, getCtx_setCtx_beside _ _ _ y hy, getCtx_strobeTaken, if_neg hy, same]
  · exact ((startSeen_evolves s p c).mono rfl |>.trans (step.mono rfl) : Evolves 16449 s _).only (by decide)

theorem frameStart_drops {x n : Nat} (here : ctxFor s p c = some x) (closed : (getCtx s x).current = none)
    (h0 : (getCtx s x).slot0 ≠ 0) (h1 : (getCtx s x).slot1 ≠ 0) :
    completes (.frameStart p c n) s (fun t =>
      (getCtx t x).current = none ∧ (p, c) ∈ t.cams.skipping ∧ (evPend t pgIsp).testBit 9 = true) := by
  have same (y : Nat) := getCtx_startSeen s p c y
  refine ⟨_, exec_frameStart_context hp hc enabled n here, ?_⟩
  beta_reduce
  rw [openFrame_drops (by rw [same]; exact closed) (by rw [same]; exact h0) (by rw [same]; exact h1)]
  refine ⟨?_, List.mem_append_right _ (List.mem_singleton_self _), testBit_evPend_raised _ _ (by decide)⟩
  let v := ev (count (strobeTaken (startSeen s p c) x n) pgIsp (4 * x + 1)) pgIsp 9
  have at_v : getCtx v x = getCtx (strobeTaken (startSeen s p c) x n) x := (getCtx_ev _ _ _ _).trans (getCtx_count _ _ _ _)
  have kept : (getCtx v x).current = none := by rw [at_v, getCtx_strobeTaken, if_pos rfl, same]; exact closed
  exact kept

theorem frameStart_skips {n : Nat} (none_ : ctxFor s p c = none) :
    completes (.frameStart p c n) s (fun t =>
      t.cams.ctxs = s.cams.ctxs ∧ (p, c) ∈ t.cams.skipping ∧ (evPend t (pgCam p)).testBit 10 = true) := by
  let v := ev (count (startSeen s p c) (pgCam p) 6) (pgCam p) 10
  have found : ctxFor (startSeen s p c) p c = none := (ctxFor_startSeen s p c).trans none_
  unfold startSeen at found
  refine ⟨{ v with cams := { v.cams with skipping := v.cams.skipping ++ [(p, c)] } }, ?_, ?_,
    List.mem_append_right _ (List.mem_singleton_self _), testBit_evPend_raised _ _ (by decide)⟩
  · simp only [exec, execFrameStart, Nat.mod_eq_of_lt hp, enabled, Nat.not_le.2 hc, if_false, Bool.true_eq_false, found]
    rfl
  · have cams : v.cams = (startSeen s p c).cams := (cams_ev _ _ _).trans (by simp only [count_fields])
    have ctxs : v.cams.ctxs = (startSeen s p c).cams.ctxs := by rw [cams]
    exact ctxs.trans (by simp only [startSeen, count_fields])

end Start

/-! ### Lines and frame ends -/

theorem getCtx_withFrame (s : State) (x : Nat) (g : Frame → Frame) (y : Nat) :
    getCtx (withFrame s x g) y = if y = x then { getCtx s x with current := (getCtx s x).current.map g } else getCtx s y :=
  getCtx_setCtx _ _ _ _

theorem current_withFrame {x : Nat} {f : Frame} (h : (getCtx s x).current = some f) (g : Frame → Frame) :
    (getCtx (withFrame s x g) x).current = some (g f) := by rw [getCtx_withFrame, if_pos rfl, h]; rfl

theorem getCtx_withFrame_beside (s : State) (x : Nat) (g : Frame → Frame) : ∀ y, y ≠ x → getCtx (withFrame s x g) y = getCtx s y :=
  getCtx_setCtx_beside _ _ _

/-- A line goes to its slot, and the other contexts stay. -/
theorem writeLine_leaves {x : Nat} {f : Frame} (h : (getCtx s x).current = some f) (payload : List Byte) :
    (getCtx (writeLine s x f payload) x).current = some { f with lines := f.lines + 1 } ∧
      (∀ y, y ≠ x → getCtx (writeLine s x f payload) y = getCtx s y) ∧ Evolves 18432 s (writeLine s x f payload) := by
  have step : Evolves 18432 s (writeLine s x f payload) := writeLine_evolves _ _ _ _ rfl .rfl
  unfold writeLine at step ⊢
  extract_lets w bytes u d v
  have cams (y : Nat) : getCtx v y = getCtx s y := rfl
  have now : (getCtx v x).current = some f := by rw [cams]; exact h
  refine ⟨current_withFrame now _, fun y hy => (getCtx_withFrame_beside _ _ _ y hy).trans (cams y), step⟩

section Line
variable {p c x dt wc : Nat} {ok : Bool} {bs : List Byte} {f : Frame} (hp : p < 4) (hc : c < 4) (enabled : pgEn s (pgCam p) = true)
  (here : ctxFor s p c = some x) (open_ : (getCtx s x).current = some f)
include hp enabled here open_

theorem csiPacket_bad :
    completes (.csiPacket p c dt wc .bad ok bs) s (fun t =>
      (getCtx t x).current = some { f with err := true } ∧ counted s t (pgCam p) 2 ∧ (evPend t (pgCam p)).testBit 8 = true ∧
        (∀ y, y ≠ x → getCtx t y = getCtx s y)) := by
  let u := ev (count s (pgCam p) 2) (pgCam p) 8
  have found : ctxFor u p c = some x := (ctxFor_of_words ((contextWords_count _ _ _).trans (contextWords_ev _ _ _)) p c).trans here
  have same (y : Nat) : getCtx u y = getCtx s y := (getCtx_ev _ _ _ _).trans (getCtx_count _ _ _ _)
  have regs : (withFrame u x fun f => { f with err := true }).regs = u.regs := rfl
  refine ⟨withFrame u x (fun f => { f with err := true }), ?_, ?_, ?_, ?_, fun y hy => ?_⟩
  · simp only [exec, execCsiPacket, Nat.mod_eq_of_lt hp, enabled, Bool.true_eq_false, if_false, reduceCtorEq, if_true, badPacket]
    rw [show ctxFor (ev (count s (pgCam p) 2) (pgCam p) 8) p c = some x from found]
  · exact current_withFrame (by rw [same]; exact open_) _
  · have kept : counter (withFrame u x fun f => { f with err := true }) (pgCam p) 2 = counter (count s (pgCam p) 2) (pgCam p) 2 :=
      counter_ev (by unfold pgCam pgEvc; omega) (by decide) _ _ _
    rw [counted, kept]
    exact counted_count s _ _
  · rw [evPend_of_regs regs]
    exact testBit_evPend_raised _ _ (by decide)
  · rw [getCtx_withFrame_beside _ _ _ y hy, same]

include hc

omit open_ in
/-- A long packet of image data with a good header is counted, and then taken or lost. -/
theorem exec_csiPacket_image (lo : 0x2B ≤ dt) (hi : dt ≤ 0x2D) :
    let u := count s (pgCam p) 0
    exec (.csiPacket p c dt wc .ok ok bs) s = .next (
      if ok = false then lostLine (ev (count u (pgCam p) 3) (pgCam p) 9) x
      else if s.cams.skipping.contains (p, c) then u else takeLine u x wc bs) := by
  have found {v : State} (h : contextWords s v) : ctxFor v p c = some x := (ctxFor_of_words h p c).trans here
  have short : ¬(c < 4 ∧ (dt = 2 ∨ dt = 3)) := by omega
  have long : ¬(4 ≤ c ∨ dt < 0x2B ∨ 0x2D < dt) := by omega
  have skipping : (count s (pgCam p) 0).cams = s.cams := by simp only [count_fields]
  have lost := (contextWords_count s (pgCam p) 0).trans ((contextWords_count _ (pgCam p) 3).trans (contextWords_ev _ (pgCam p) 9))
  simp only [exec, execCsiPacket, Nat.mod_eq_of_lt hp, enabled, Bool.true_eq_false, if_false, reduceCtorEq, short, long, skipping,
    badPacket, found lost, if_true, found (contextWords_count s (pgCam p) 0)]

theorem csiPacket_line (lo : 0x2B ≤ dt) (hi : dt ≤ 0x2D) (wanted : s.cams.skipping.contains (p, c) = false)
    (length : 8 * wc = ctxWidth s x * rawBits s x) (inside : f.lines < ctxHeight s x) :
    completes (.csiPacket p c dt wc .ok true bs) s (fun t =>
      (getCtx t x).current = some { f with lines := f.lines + 1 } ∧ counted s t (pgCam p) 0 ∧
        (∀ y, y ≠ x → getCtx t y = getCtx s y) ∧ onlyChanges [.counters, .dram, .cams] s t) := by
  let u := count s (pgCam p) 0
  have words : contextWords s u := contextWords_count _ _ _
  have now : (getCtx u x).current = some f := by rw [getCtx_count]; exact open_
  have taken_ : takeLine u x wc bs = writeLine u x f bs := by
    unfold takeLine
    rw [now]
    dsimp only
    rw [ctxWidth_of_words words, rawBits_of_words words, ctxHeight_of_words words, if_neg (not_not_intro length),
      if_neg (Nat.not_le.2 inside)]
  obtain ⟨current, beside, step⟩ := writeLine_leaves now bs
  refine ⟨writeLine u x f bs, ?_, current, ?_, fun y hy => (beside y hy).trans (getCtx_count _ _ _ _), ?_⟩
  · rw [exec_csiPacket_image hp hc enabled here lo hi, ← taken_, if_neg (by decide), wanted, if_neg (by decide)]
  · rw [counted, step.counter_eq rfl]
    exact counted_count s _ _
  · exact ((count_evolves _ _ _ rfl .rfl : Evolves 18496 s u).trans (step.mono rfl)).only (by decide)

theorem csiPacket_lost (lo : 0x2B ≤ dt) (hi : dt ≤ 0x2D) :
    completes (.csiPacket p c dt wc .ok false bs) s (fun t =>
      (getCtx t x).current = some { f with err := true, lines := f.lines + 1,
                                           long := f.long || decide (ctxHeight s x ≤ f.lines) } ∧
        counted s t (pgCam p) 3 ∧ (evPend t (pgCam p)).testBit 9 = true ∧ t.dram = s.dram ∧
        (∀ y, y ≠ x → getCtx t y = getCtx s y)) := by
  let v := count (count s (pgCam p) 0) (pgCam p) 3
  let u := ev v (pgCam p) 9
  have words : contextWords s u := (contextWords_count s _ _).trans ((contextWords_count _ _ _).trans (contextWords_ev _ _ _))
  have same (y : Nat) : getCtx u y = getCtx s y := (getCtx_ev _ _ _ _).trans ((getCtx_count _ _ _ _).trans (getCtx_count _ _ _ _))
  have step : Evolves 8523841 s u := ev_evolves _ _ _ rfl (count_evolves _ _ _ rfl (count_evolves _ _ _ rfl .rfl))
  have lost : Evolves 16384 u (lostLine u x) := lostLine_evolves _ _ rfl .rfl
  refine ⟨lostLine u x, ?_, ?_, ?_, ?_, ?_, fun y hy => ?_⟩
  · rw [exec_csiPacket_image hp hc enabled here lo hi, if_pos rfl]
  · rw [lostLine, current_withFrame (by rw [same]; exact open_), ctxHeight_of_words words]
  · rw [counted, lost.counter_eq rfl, show counter u _ _ = counter v (pgCam p) 3 from counter_ev (by unfold pgCam pgEvc; omega) (by decide) _ _ _, counted_count,
      counter_count, if_neg (by omega)]
  · rw [evPend_of_regs (lost.same .regs rfl)]
    exact testBit_evPend_raised _ _ (by decide)
  · exact (lost.same .dram rfl).trans (step.same .dram rfl)
  · exact (getCtx_withFrame_beside _ _ _ y hy).trans (same y)

end Line

/-- The frame of a context ends: its flags are in FSTAT, and its slot is READY. -/
theorem frameEnd_closes {p c x : Nat} {f : Frame} (hp : p < 4) (hc : c < 4) (enabled : pgEn s (pgCam p) = true)
    (here : ctxFor s p c = some x) (open_ : (getCtx s x).current = some f) :
    completes (.frameEnd p c) s (fun t =>
      let f' := { f with short := decide (f.lines < ctxHeight s x) }
      (getCtx t x).current = none ∧ (getCtx t x).ready = (getCtx s x).ready ++ [f'] ∧ slotOf (getCtx t x) f.slot = 2 ∧
        rdf t (ctxA x 0x30) 10 8 = b2n f'.short + 2 * b2n f'.long + 4 * b2n f'.err ∧
        (f'.short || f'.long || f'.err → (evPend t pgIsp).testBit 10 = true ∧ counted s t pgIsp (4 * x + 2)) ∧
        (∀ y, y ≠ x → getCtx t y = getCtx s y)) := by
  let f' : Frame := { f with short := decide (f.lines < ctxHeight s x) }
  let u := setCtx s x { getCtx s x with current := none, ready := (getCtx s x).ready ++ [f'] }
  let v := setSlot u x f.slot 2
  let w := wrf v (ctxA x 0x30) 10 8 (b2n f'.short + 2 * b2n f'.long + 4 * b2n f'.err)
  let bad := f'.short || f'.long || f'.err
  let z := if bad then ev (count w pgIsp (4 * x + 2)) pgIsp 10 else w
  have cams : z.cams = v.cams := by
    dsimp only [z]
    split
    · rw [cams_ev]
      simp only [count_fields]
      rfl
    · rfl
  have same (y : Nat) : getCtx z y = getCtx v y := getCtx_of_cams cams y
  have at_u : getCtx u x = { getCtx s x with current := none, ready := (getCtx s x).ready ++ [f'] } := getCtx_setCtx_same _ _ _
  have at_v : getCtx v x = (getCtx u x).withSlot f.slot 2 := by rw [getCtx_setSlot, if_pos rfl]
  obtain ⟨current, ready, -⟩ := withSlot_leaves (getCtx u x) f.slot 2
  refine ⟨z, ?_, ?_, ?_, ?_, ?_, fun flagged => ?_, fun y hy => ?_⟩
  · simp only [exec, execFrameEnd, Nat.mod_eq_of_lt hp, enabled, Nat.not_le.2 hc, if_false, Bool.true_eq_false, here, closeFrame, open_,
      Bool.or_false]
    rfl
  · rw [same, at_v, current, at_u]
  · rw [same, at_v, ready, at_u]
  · rw [same, at_v, slotOf_withSlot]
  · have stat : rd z (ctxA x 0x30) = rd w (ctxA x 0x30) := by
      dsimp only [z]
      split
      · rw [rd_ev, if_neg (by unfold ctxA ra; omega)]
        simp only [rd, count_fields]
      · rfl
    rw [rdf_eq_of_rd stat, rdf_wrf_same _ _ _ (by decide) (by decide)]
    refine Nat.mod_eq_of_lt ?_
    have bit (b : Bool) : b2n b ≤ 1 := by cases b <;> decide
    have := bit f'.short
    have := bit f'.long
    have := bit f'.err
    omega
  · have raise : z = ev (count w pgIsp (4 * x + 2)) pgIsp 10 := if_pos flagged
    have step : Evolves 16385 s w := wrf_evolves _ _ _ _ _ rfl (setSlot_evolves _ _ _ _ rfl (setCtx_evolves _ _ _ rfl .rfl))
    rw [raise]
    refine ⟨testBit_evPend_raised _ _ (by decide), ?_⟩
    rw [counted, counter_ev (by decide) (by have := ctxFor_lt here; omega), counted_count, step.counter_eq rfl]
  · rw [same, getCtx_setSlot, if_neg hy, getCtx_setCtx_beside _ _ _ y hy]

/-- No frame start has followed the oldest strobe in time. -/
theorem strobeTimeout_drops {x : Nat} (hx : x < 8) (on : ctxOn s x = true) (waits : (getCtx s x).strobes ≠ []) :
    completes (.strobeTimeout x) s (fun t =>
      (getCtx t x).strobes = (getCtx s x).strobes.drop 1 ∧ recorded s t 0x0801 1 ∧ (evPend t pgIsp).testBit 11 = true ∧
        (∀ y, y ≠ x → getCtx t y = getCtx s y)) := by
  let u := setCtx s x { getCtx s x with strobes := (getCtx s x).strobes.drop 1 }
  let v := ev (count u pgIsp (4 * x + 1)) pgIsp 11
  let z := fault v 0x0801 1 pgIsp noBar [x]
  have cams : z.cams = u.cams := ((fault_below_D _ _ _ _ (by decide) _).same .cams rfl).trans
    ((cams_ev _ _ _).trans (by simp only [count_fields]))
  refine ⟨z, ?_, ?_, ?_, ?_, fun y hy => ?_⟩
  · simp only [exec, execStrobeTimeout, Nat.mod_eq_of_lt hx]
    rw [if_pos ⟨on, waits⟩]
  · rw [getCtx_of_cams cams, getCtx_setCtx_same]
  · exact recorded_of_keepsLog (.of (m := 8540225) (ev_evolves _ _ _ rfl (count_evolves _ _ _ rfl (setCtx_evolves _ _ _ rfl .rfl))) rfl)
      (recorded_fault v _ _ _ _ _)
  · exact testBit_evPend_fault (testBit_evPend_raised _ _ (by decide)) _ _ _ (by decide) _
  · rw [getCtx_of_cams cams, getCtx_setCtx_beside _ _ _ y hy]

end Sys2Proof.Machine

namespace Sys2Proof.Proofs
open Sys2Proof Sys2Proof.Machine

theorem cameraFrames : CameraFramesRule := by
  refine ⟨fun s p c dt wc n ecc ok bs hp off => ?_, fun s p c n hp hc enabled => ⟨fun x i here closed free => ?_,
    fun x here closed h0 h1 => ?_, fun none_ => ?_⟩, fun s p c dt wc x ok bs f hp hc enabled here open_ => ⟨?_,
    fun lo hi wanted length inside => ?_, fun lo hi => ?_, ?_⟩, fun s x hx on waits => strobeTimeout_drops hx on waits⟩
  · refine ⟨?_, ?_, ?_⟩
    · simp only [exec, execCsiPacket, Nat.mod_eq_of_lt hp, off, if_true]
    · simp only [exec, execFrameStart, Nat.mod_eq_of_lt hp, off, if_true]
    · simp only [exec, execFrameEnd, Nat.mod_eq_of_lt hp, off, if_true]
  · exact frameStart_takes hp hc enabled here closed free
  · exact frameStart_drops hp hc enabled here closed h0 h1
  · exact frameStart_skips hp hc enabled none_
  · exact csiPacket_bad hp enabled here open_
  · exact csiPacket_line hp hc enabled here open_ lo hi wanted length inside
  · exact csiPacket_lost hp hc enabled here open_ lo hi
  · exact frameEnd_closes hp hc enabled here open_

end Sys2Proof.Proofs
end

section
/-! PROOFS. PipelineRule (R282, R283, R286, R287, R292): the shared pipeline, and the enable of a context. -/

namespace Sys2Proof.Machine
open Sys2Proof

variable {s t : State} {x : Nat}

/-! ### The choice of a frame -/

/-- A context has a frame that the pipeline may begin. -/
def offersFrame (s : State) (x : Nat) : Prop := (getCtx s x).ready ≠ [] ∧ mayBeginFrame s x = true

/-- The choice among the contexts below n. -/
def nextCtxBelow (s : State) (n : Nat) : Option Nat :=
  (List.range n).foldl (fun best x =>
    if (getCtx s x).ready.isEmpty || !mayBeginFrame s x then best
    else match best with
      | none => some x
      | some y => if ctxPrio s x < ctxPrio s y then some x else best) none

theorem nextCtxBelow_passes {n : Nat} (h : ¬offersFrame s n) : nextCtxBelow s (n + 1) = nextCtxBelow s n := by
  have skipped : ((getCtx s n).ready.isEmpty || !mayBeginFrame s n) = true := by
    rw [offersFrame] at h
    grind
  rw [nextCtxBelow, List.range_succ, List.foldl_append, List.foldl_cons, List.foldl_nil, if_pos skipped]
  rfl

theorem nextCtxBelow_looks {n : Nat} (h : offersFrame s n) : nextCtxBelow s (n + 1) =
    match nextCtxBelow s n with
    | none => some n
    | some y => if ctxPrio s n < ctxPrio s y then some n else some y := by
  have looked : ¬((getCtx s n).ready.isEmpty || !mayBeginFrame s n) = true := by
    obtain ⟨some_, may⟩ := h
    simp [some_, may]
  rw [nextCtxBelow, List.range_succ, List.foldl_append, List.foldl_cons, List.foldl_nil, if_neg looked]
  change (match nextCtxBelow s n with
    | none => some n
    | some y => if ctxPrio s n < ctxPrio s y then some n else nextCtxBelow s n) = _
  cases nextCtxBelow s n <;> rfl

/-- The chosen context comes before every other that offers a frame, by priority and then by number. -/
theorem nextCtxBelow_first (s : State) (n : Nat) :
    (nextCtxBelow s n = none → ∀ y, y < n → ¬offersFrame s y) ∧
      ∀ x, nextCtxBelow s n = some x → x < n ∧ offersFrame s x ∧
        ∀ y, y < n → offersFrame s y → ctxPrio s x < ctxPrio s y ∨ ctxPrio s x = ctxPrio s y ∧ x ≤ y := by
  induction n with
  | zero => exact ⟨fun _ y h => absurd h (Nat.not_lt_zero y), fun x h => by simp [nextCtxBelow] at h⟩
  | succ n ih =>
    obtain ⟨nobody, first⟩ := ih
    by_cases offers : offersFrame s n
    · rw [nextCtxBelow_looks offers]
      cases before : nextCtxBelow s n with
      | none =>
        refine ⟨fun h => absurd h (by simp), fun x h => ?_⟩
        obtain rfl : n = x := by simpa using h
        refine ⟨Nat.lt_succ_self n, offers, fun y hy gives => ?_⟩
        rcases Nat.lt_succ_iff_lt_or_eq.1 hy with below | rfl
        · exact absurd gives (nobody before y below)
        · exact .inr ⟨rfl, Nat.le_refl _⟩
      | some z =>
        obtain ⟨hz, gives_z, least⟩ := first z before
        dsimp only
        split
        · next better =>
          refine ⟨fun h => absurd h (by simp), fun x h => ?_⟩
          obtain rfl : n = x := by simpa using h
          refine ⟨Nat.lt_succ_self n, offers, fun y hy gives => ?_⟩
          rcases Nat.lt_succ_iff_lt_or_eq.1 hy with below | rfl
          · rcases least y below gives with lower | ⟨same, -⟩
            · exact .inl (better.trans lower)
            · exact .inl (better.trans_eq same)
          · exact .inr ⟨rfl, Nat.le_refl _⟩
        · next worse =>
          refine ⟨fun h => absurd h (by simp), fun x h => ?_⟩
          obtain rfl : z = x := by simpa using h
          refine ⟨hz.trans (Nat.lt_succ_self n), gives_z, fun y hy gives => ?_⟩
          rcases Nat.lt_succ_iff_lt_or_eq.1 hy with below | rfl
          · exact least y below gives
          · rcases Nat.lt_or_eq_of_le (Nat.le_of_not_lt worse) with lower | same
            · exact .inl lower
            · exact .inr ⟨same, hz.le⟩
    · rw [nextCtxBelow_passes offers]
      refine ⟨fun h y hy => ?_, fun x h => ?_⟩
      · rcases Nat.lt_succ_iff_lt_or_eq.1 hy with below | rfl
        · exact nobody h y below
        · exact offers
      · obtain ⟨hx, gives_x, least⟩ := first x h
        refine ⟨hx.trans (Nat.lt_succ_self n), gives_x, fun y hy gives => ?_⟩
        rcases Nat.lt_succ_iff_lt_or_eq.1 hy with below | rfl
        · exact least y below gives
        · exact absurd gives offers

theorem nextCtx_first (h : nextCtx s = some x) : x < 8 ∧ (getCtx s x).ready ≠ [] ∧ mayBeginFrame s x = true ∧
    ∀ y, y < 8 → (getCtx s y).ready ≠ [] → mayBeginFrame s y = true → ctxPrio s x < ctxPrio s y ∨ ctxPrio s x = ctxPrio s y ∧ x ≤ y := by
  obtain ⟨hx, ⟨some_, may⟩, least⟩ := (nextCtxBelow_first s 8).2 x h
  exact ⟨hx, some_, may, fun y hy ready begin_ => least y hy ⟨ready, begin_⟩⟩

/-! ### The pipeline -/

theorem pipelineStart_takes {f : Frame} {r : List Frame} (idle : s.cams.busy = none) (next : nextCtx s = some x)
    (ready : (getCtx s x).ready = f :: r) (enabled : pgEn s pgIsp = true) :
    completes .pipelineStart s (fun t =>
      t.cams.busy = some (x, f) ∧ (getCtx t x).ready = r ∧ slotOf (getCtx t x) f.slot = 3 ∧ rd t (ra pgIsp 0x4C) = 8 + x ∧
        (∀ y, y ≠ x → getCtx t y = getCtx s y) ∧ onlyChanges [.regs, .cams] s t) := by
  let u := setCtx s x { getCtx s x with ready := r }
  let v := setSlot u x f.slot 3
  let w : State := { v with cams := { v.cams with busy := some (x, f), loadedRegs := ctxRegs v x, loadedTable := ctxTable v x } }
  have same (y : Nat) : getCtx (wr w (ra pgIsp 0x4C) (8 + x)) y = getCtx v y := rfl
  have at_v : getCtx v x = (getCtx u x).withSlot f.slot 3 := by rw [getCtx_setSlot, if_pos rfl]
  have at_u : (getCtx u x).ready = r := by rw [getCtx_setCtx_same]
  have lt := (nextCtx_first next).1
  refine ⟨wr w (ra pgIsp 0x4C) (8 + x), ?_, rfl, ?_, ?_, ?_, fun y hy => ?_, ?_⟩
  · simp only [exec, execPipelineStart, idle, next, ready, enabled, if_true]
    rfl
  · rw [same, at_v, (withSlot_leaves _ _ _).2.1, at_u]
  · rw [same, at_v, slotOf_withSlot]
  · rw [rd_wr_same]
    omega
  · rw [same, getCtx_setSlot, if_neg hy, getCtx_setCtx_beside _ _ _ y hy]
  · exact (wr_evolves _ _ _ rfl (Evolves.upd_16384 rfl (setSlot_evolves _ _ _ _ rfl (setCtx_evolves _ _ _ rfl .rfl))) :
      Evolves 16385 s _).only (by decide)

theorem pipelineDone_frees {f : Frame} (busy : s.cams.busy = some (x, f)) :
    completes .pipelineDone s (fun t =>
      t.cams.busy = none ∧ slotOf (getCtx t x) f.slot = 0 ∧ rd t (ra pgIsp 0x4C) = 0 ∧ (evPend t pgIsp).testBit 8 = true) := by
  let u := processFrame s x f
  let v : State := { u with cams := { u.cams with busy := none } }
  let w := setSlot (wr v (ra pgIsp 0x4C) 0) x f.slot 0
  let z := ev (count w pgIsp (4 * x)) pgIsp 8
  have cams : z.cams = w.cams := (cams_ev _ _ _).trans (by simp only [count_fields])
  have free : w.cams.busy = none := by
    simp only [w, setSlot]
    split <;> rfl
  refine ⟨z, ?_, ?_, ?_, ?_, testBit_evPend_raised _ _ (by decide)⟩
  · simp only [exec, execPipelineDone, busy]
    rfl
  · rw [cams, free]
  · rw [getCtx_of_cams cams, getCtx_setSlot, if_pos rfl, slotOf_withSlot]
  · have word : rd z (ra pgIsp 0x4C) = rd w (ra pgIsp 0x4C) := by
      rw [rd_ev, if_neg (by unfold ra; omega)]
      simp only [rd, count_fields]
    rw [word, rd_setSlot _ _ _ _ (by unfold ctxA ra; omega), rd_wr_same, Nat.zero_mod]

theorem tapRel_releases (rq : Requester) {v : Word} (hx : x < 8) (open_ : admitted s (ctxA x 0x34) v.toNat) :
    let kept := (getCtx s x).taps &&& (0x3FF ^^^ (v.toNat &&& 0x3FF))
    completes (.tapRel rq x v) s (fun t =>
      (getCtx t x).taps = kept ∧ rd t (ctxA x 0x38) = kept ∧ wordsKept [ctxA x 0x38] s t ∧
        (∀ y, y ≠ x → getCtx t y = getCtx s y) ∧ onlyChanges [.regs, .cams] s t) := by
  intro kept
  have small : kept < 2 ^ 32 := by
    refine (Nat.and_le_right.trans_lt ?_ : kept < _)
    have low : v.toNat &&& 0x3FF < 2 ^ 10 := Nat.and_lt_two_pow _ (by decide)
    exact (Nat.xor_lt_two_pow (by decide) low).trans (by decide)
  refine ⟨setTaps s x kept, ?_, ?_, ?_, fun a ha => ?_, fun y hy => ?_, (setTaps_evolves (m := 16385) _ _ _ rfl .rfl).only (by decide)⟩
  · simp only [exec, execTapRel, Nat.mod_eq_of_lt hx, gated_of_admitted open_]
    rfl
  · rw [setTaps, getCtx_wr, getCtx_setCtx_same]
  · rw [setTaps, rd_wr_same, Nat.mod_eq_of_lt small]
  · rw [setTaps, rd_wr, if_neg (by simpa using ha)]
    rfl
  · rw [setTaps, getCtx_wr, getCtx_setCtx_beside _ _ _ y hy]

/-! ### The enable of a context -/

theorem isHeader_isp : isHeader pgIsp = true := by decide

/-- A refused enable shows its reason. -/
theorem ctxRefuse_leaves (s : State) {r : Nat} (hr : r < 2 ^ 32) :
    rd (ctxRefuse s r) (ra pgIsp 0x48) = r ∧ raised s (ctxRefuse s r) pgIsp 4 ∧
      wordsKept [ra pgIsp 0x48, ra pgIsp 0x24] s (ctxRefuse s r) ∧ onlyChanges eventParts s (ctxRefuse s r) := by
  obtain ⟨raise, words, only⟩ := refuse_leaves s isHeader_isp
  refine ⟨?_, ?_, fun a ha => ?_, only.trans ((wr_evolves (m := 1) _ _ _ rfl .rfl).only (by decide))⟩
  · rw [ctxRefuse, rd_wr_same, Nat.mod_eq_of_lt hr]
  · rw [raised, evPend, ctxRefuse, rd_wr, if_neg (by decide)]
    exact raise
  · rw [ctxRefuse, rd_wr, if_neg (by simp at ha; exact ha.1)]
    exact words a (by simp at ha ⊢; exact ha.2)

theorem ctxCheck_le (s : State) (x : Nat) : ctxCheck s x ≤ 7 := by
  unfold ctxCheck
  dsimp only
  split_ifs <;> decide

/-- Setting bit 31 of a word whose other bits are stored completes it. -/
theorem putField_top {w : Nat} (hw : w < 2 ^ 32) (top : w.testBit 31 = true) : putField (w % 2 ^ 31) 31 31 1 = w := by
  have value : w = 2 ^ 31 + w % 2 ^ 31 := by
    rw [Nat.testBit_eq_decide_div_mod_eq] at top
    simp at top
    omega
  unfold putField
  omega

/-- Bit 31 of a word to which it was written alone. -/
theorem testBit_top_wrf (s : State) (a v : Nat) : bitOf (rd (wrf s a 31 31 v) a) 31 = v.testBit 0 := by
  rw [bitOf, wrf, rd_wr_same, Nat.testBit_mod_two_pow, testBit_putField _ _ _ _ _ (by decide)]
  simp

section Enable
variable (rq : Requester) {v : Word} (hx : x < 8) (open_ : admitted s (ctxA x 0) v.toNat)
include hx open_

theorem exec_contextEnable : exec (.contextEnable rq x v) s = .next (
    if ctxOn s x = true then
      let u := if (v.toNat &&& 0xDF7333DF) % 2 ^ 31 = ctxSrc s x % 2 ^ 31 then s else refuse s pgIsp
      if bitOf (v.toNat &&& 0xDF7333DF) 31 = true then u else disableCtx u x
    else
      let u := wr s (ctxA x 0) ((v.toNat &&& 0xDF7333DF) % 2 ^ 31)
      if bitOf (v.toNat &&& 0xDF7333DF) 31 = true then enableCtx u x else u) := by
  simp only [exec, execContextEnable, Nat.mod_eq_of_lt hx, gated_of_admitted open_]

end Enable

/-- The state in which the fields of SRC are stored, and EN is not. -/
def srcStored (s : State) (x w : Nat) : State := wr s (ctxA x 0) (w % 2 ^ 31)

section Stored
variable {w : Nat} (hw : w < 2 ^ 32)

theorem ctxSrc_srcStored (s : State) (x w : Nat) : ctxSrc (srcStored s x w) x = w % 2 ^ 31 := by
  rw [ctxSrc, srcStored, rd_wr_same]
  omega

theorem wordsKept_srcStored (s : State) (x w : Nat) : wordsKept [ctxA x 0] s (srcStored s x w) :=
  fun a ha => by rw [srcStored, rd_wr, if_neg (by simpa using ha)]

theorem bit30_srcStored (s : State) (x w : Nat) : bitOf (ctxSrc (srcStored s x w) x) 30 = bitOf w 30 := by
  rw [ctxSrc_srcStored, bitOf, Nat.testBit_mod_two_pow]
  simp [bitOf]

theorem unit_srcStored (s : State) (x w : Nat) : field (ctxSrc (srcStored s x w) x) 28 24 = field w 28 24 := by
  rw [ctxSrc_srcStored, field, field]
  omega

theorem only_srcStored (s : State) (x w : Nat) : onlyChanges [.regs] s (srcStored s x w) :=
  (wr_evolves (m := 1) _ _ _ rfl .rfl).only (by decide)

theorem ownCmp_ne_src (k x : Nat) (hk : k < 32) : ownCmp k ≠ ctxA x 0 := by
  have : pgPin < pgIsp := by decide
  unfold ownCmp ctxA ra
  omega

theorem unit_lt (w : Nat) : field w 28 24 < 32 := Nat.mod_lt _ (by decide)

/-- EN is set on top of the other fields. -/
theorem ctx_enabled {u : State} (stored : rd u (ctxA x 0) = w % 2 ^ 31) (hw : w < 2 ^ 32) (top : bitOf w 31 = true) :
    rd (wrf u (ctxA x 0) 31 31 1) (ctxA x 0) = w := by
  rw [wrf, rd_wr_same, stored, putField_top hw top, Nat.mod_eq_of_lt hw]

theorem enableCtx_plain (good : ctxCheck (srcStored s x w) x = 0) (single : bitOf w 30 = false) :
    enableCtx (srcStored s x w) x = wrf (srcStored s x w) (ctxA x 0) 31 31 1 := by
  unfold enableCtx
  dsimp only
  rw [good, if_neg (not_not_intro rfl), bit30_srcStored, single, if_neg (by decide)]

theorem claimable_srcStored {k : Nat} (hk : k < 32) : claimable (srcStored s x w) (ownCmp k) 2 = claimable s (ownCmp k) 2 := by
  have word := wordsKept_srcStored s x w (ownCmp k) (by simpa using ownCmp_ne_src k x hk)
  rw [claimable, rdf_eq_of_rd word, claimable]

theorem enableCtx_strobes (good : ctxCheck (srcStored s x w) x = 0) (strobes : bitOf w 30 = true)
    (free : claimable s (ownCmp (field w 28 24)) 2 = true) :
    enableCtx (srcStored s x w) x = wrf (claimRes (srcStored s x w) (ownCmp (field w 28 24)) 2) (ctxA x 0) 31 31 1 := by
  unfold enableCtx
  dsimp only
  rw [good, if_neg (not_not_intro rfl), bit30_srcStored, strobes, if_pos rfl, unit_srcStored, claimable_srcStored (unit_lt w), free,
    if_pos rfl]

theorem enableCtx_refused (bad : ctxCheck (srcStored s x w) x ≠ 0) :
    enableCtx (srcStored s x w) x = ctxRefuse (srcStored s x w) (ctxCheck (srcStored s x w) x) := by
  unfold enableCtx
  exact if_pos bad

/-- A claimed resource names its owner and is in use; no other word changes. -/
theorem claimRes_leaves (s : State) (a : Nat) :
    rdf (claimRes s a 2) a 3 0 = 2 ∧ bitOf (rd (claimRes s a 2) a) 31 = true ∧ wordsKept [a] s (claimRes s a 2) := by
  refine ⟨?_, ?_, fun b hb => ?_⟩
  · rw [claimRes, rdf_wrf_beside _ _ _ (by decide) (by decide) (by decide), rdf_wrf_same _ _ _ (by decide) (by decide)]
    rfl
  · exact testBit_top_wrf _ _ _
  · have ne : b ≠ a := by simpa using hb
    rw [claimRes, rd_wrf_other _ _ _ _ ne, rd_wrf_other _ _ _ _ ne]

end Stored

theorem rd_setCtx (s : State) (x : Nat) (c : Ctx) (a : Nat) : rd (setCtx s x c) a = rd s a := rfl

/-- A disabled context waits for nothing and captures nothing. -/
theorem disableCtx_leaves (s : State) (x : Nat) :
    let t := disableCtx s x
    ctxOn t x = false ∧ (getCtx t x).current = none ∧ (getCtx t x).strobes = [] ∧ (getCtx t x).ready = [] ∧
      (∀ y, y ≠ x → getCtx t y = getCtx s y) ∧ onlyChanges [.regs, .cams] s t := by
  intro t
  have only : onlyChanges [.regs, .cams] s t := (disableCtx_evolves (m := 16385) _ _ rfl .rfl).only (by decide)
  let k := field (ctxSrc s x) 28 24
  let u := if bitOf (ctxSrc s x) 30 && !strobeShared s x k then wrf s (ownCmp k) 31 31 0 else s
  have same (y : Nat) : getCtx u y = getCtx s y := by
    dsimp only [u]
    split
    · exact getCtx_wrf _ _ _ _ _ _
    · rfl
  let v := setCtx (wrf u (ctxA x 0) 31 31 0) x { getCtx u x with strobes := [], current := none, ready := [] }
  let cleared (w : State) : Prop := ctxOn w x = false ∧ (getCtx w x).current = none ∧ (getCtx w x).strobes = [] ∧
    (getCtx w x).ready = [] ∧ ∀ y, y ≠ x → getCtx w y = getCtx s y
  have start : cleared v := by
    have at_v : getCtx v x = { getCtx u x with strobes := [], current := none, ready := [] } := getCtx_setCtx_same _ _ _
    refine ⟨?_, by rw [at_v], by rw [at_v], by rw [at_v], fun y hy => ?_⟩
    · rw [ctxOn, ctxSrc, rd_setCtx]
      exact testBit_top_wrf _ _ _
    · rw [getCtx_setCtx_beside _ _ _ y hy, getCtx_wrf, same]
  have each (w : State) (i : Nat) (h : cleared w) : cleared (if slotOf (getCtx u x) i = 3 then w else setSlot w x i 0) := by
    split
    · exact h
    · obtain ⟨off, current, strobes, ready, beside⟩ := h
      obtain ⟨current', ready', strobes'⟩ := withSlot_leaves (getCtx w x) i 0
      have at_w : getCtx (setSlot w x i 0) x = (getCtx w x).withSlot i 0 := by rw [getCtx_setSlot, if_pos rfl]
      refine ⟨?_, by rw [at_w, current', current], by rw [at_w, strobes', strobes], by rw [at_w, ready', ready], fun y hy => ?_⟩
      · rw [ctxOn, ctxSrc, rd_setSlot _ _ _ _ (by unfold ctxA ra; omega)]
        exact off
      · rw [getCtx_setSlot, if_neg hy, beside y hy]
  have steps : t = [0, 1].foldl (fun w i => if slotOf (getCtx u x) i = 3 then w else setSlot w x i 0) v := by
    simp only [t, disableCtx, u, v, k]
  obtain ⟨off, current, strobes, ready, beside⟩ : cleared t := by
    rw [steps]
    exact List.foldlRecOn _ _ start fun w h i _ => each w i h
  exact ⟨off, current, strobes, ready, beside, only⟩

end Sys2Proof.Machine

namespace Sys2Proof.Proofs
open Sys2Proof Sys2Proof.Machine

theorem pipeline : PipelineRule := by
  refine ⟨fun s x next => nextCtx_first next, fun s x f r idle next ready enabled => pipelineStart_takes idle next ready enabled,
    fun s x f hx busy => pipelineDone_frees busy, fun s rq x v hx open_ => tapRel_releases rq hx open_,
    fun s rq x v hx open_ => ?_⟩
  intro w u own
  have hw : w < 2 ^ 32 := Nat.and_le_left.trans_lt v.isLt
  have runs := exec_contextEnable rq hx open_
  have ne : own ≠ ctxA x 0 := ownCmp_ne_src _ _ (unit_lt w)
  refine ⟨fun off low => ?_, fun off top good single => ?_, fun off top good strobes free => ?_, fun off top bad => ?_,
    fun on low same => ?_, fun on top differs => ?_⟩
  · rw [if_neg (by rw [off]; decide), if_neg (by rw [low]; decide)] at runs
    refine ⟨u, runs, ?_, wordsKept_srcStored s x w, only_srcStored s x w⟩
    have small : w < 2 ^ 31 := by
      by_contra high
      have : w.testBit 31 = true := Nat.testBit_of_two_pow_le_and_two_pow_add_one_gt (Nat.le_of_not_lt high) hw
      exact absurd (this.symm.trans low) (by decide)
    rw [show rd u (ctxA x 0) = w % 2 ^ 31 from ctxSrc_srcStored s x w, Nat.mod_eq_of_lt small]
  · rw [if_neg (by rw [off]; decide), if_pos top] at runs
    refine ⟨_, runs, ?_⟩
    dsimp only
    rw [show enableCtx u x = _ from enableCtx_plain good single]
    refine ⟨ctx_enabled (ctxSrc_srcStored s x w) hw top, fun a ha => ?_, (only_srcStored s x w).trans
      ((wrf_evolves (m := 1) _ _ _ _ _ rfl .rfl).only (by decide))⟩
    rw [rd_wrf_other _ _ _ _ (by simpa using ha), wordsKept_srcStored s x w a ha]
  · rw [if_neg (by rw [off]; decide), if_pos top] at runs
    refine ⟨_, runs, ?_⟩
    dsimp only
    rw [show enableCtx u x = _ from enableCtx_strobes good strobes free]
    obtain ⟨owner, used, words⟩ := claimRes_leaves (srcStored s x w) own
    have kept : rd (wrf (claimRes (srcStored s x w) own 2) (ctxA x 0) 31 31 1) own = rd (claimRes (srcStored s x w) own 2) own :=
      rd_wrf_other _ _ _ _ ne
    refine ⟨ctx_enabled ((words _ (by simpa using ne.symm)).trans (ctxSrc_srcStored s x w)) hw top,
      (rdf_eq_of_rd kept 3 0).trans owner, by rw [kept, used], fun a ha => ?_, ?_⟩
    · simp only [List.mem_cons, List.not_mem_nil, or_false, not_or] at ha
      rw [rd_wrf_other _ _ _ _ ha.1, words a (by simpa using ha.2), wordsKept_srcStored s x w a (by simpa using ha.1)]
    · exact (only_srcStored s x w).trans ((wrf_evolves (m := 1) _ _ _ _ _ rfl (claimRes_evolves _ _ _ rfl .rfl)).only (by decide))
  · rw [if_neg (by rw [off]; decide), if_pos top] at runs
    refine ⟨_, runs, ?_⟩
    dsimp only
    rw [show enableCtx u x = _ from enableCtx_refused bad]
    obtain ⟨reason, raise, words, only⟩ := ctxRefuse_leaves (srcStored s x w) (r := ctxCheck u x)
      ((ctxCheck_le u x).trans_lt (by decide))
    have pend : evPend u pgIsp = evPend s pgIsp := wordsKept_srcStored s x w _ (by simp [ctxA, ra]; omega)
    refine ⟨?_, reason, raise.trans (by rw [show evPend (srcStored s x w) pgIsp = _ from pend]), fun a ha => ?_,
      (only_srcStored s x w).mono (by decide) |>.trans only⟩
    · have src : ctxSrc (ctxRefuse u (ctxCheck u x)) x = w % 2 ^ 31 :=
        (words _ (by simp [ctxA, ra]; omega)).trans (ctxSrc_srcStored s x w)
      rw [ctxOn, show ctxSrc (ctxRefuse (srcStored s x w) (ctxCheck (srcStored s x w) x)) x = _ from src, bitOf,
        Nat.testBit_mod_two_pow]
      rfl
    · simp only [List.mem_cons, List.not_mem_nil, or_false, not_or] at ha
      exact (words a (by simp [ha.2.1, ha.2.2])).trans (wordsKept_srcStored s x w a (by simpa using ha.1))
  · rw [if_pos on] at runs
    dsimp only at runs
    rw [if_pos same, if_neg (by rw [low]; decide)] at runs
    exact ⟨_, runs, disableCtx_leaves s x⟩
  · rw [if_pos on] at runs
    dsimp only at runs
    rw [if_neg differs, if_pos top] at runs
    exact ⟨_, runs, refuse_leaves s isHeader_isp⟩

/-- Settles O34: camera frames, slot by slot, and the pipeline and contexts that take them. -/
theorem camerasAndPipeline : Obligations.CamerasAndPipeline := ⟨cameraFrames, pipeline⟩

end Sys2Proof.Proofs
end

section
/-! PROOFS. PressTimeSteps (R318, R322, R323, R327): the increment, steps of the counter, and the step that an operator accepts. -/

namespace Sys2Proof.Machine
open Sys2Proof

variable {s t : State}

/-! ### Words of 64 bits -/

theorem rd64_wr64_same (s : State) (a : Nat) {v : Nat} (h : v < 2 ^ 64) : rd64 (wr64 s a v) a = v := by
  rw [rd64, wr64, rd_wr, if_neg (by omega), rd_wr_same, rd_wr_same]
  omega

theorem wordsKept_wr64 (s : State) (a v : Nat) : wordsKept [a, a + 4] s (wr64 s a v) := fun b hb => by
  simp only [List.mem_cons, List.not_mem_nil, or_false, not_or] at hb
  exact rd_wr64_other s v hb.1 hb.2

theorem isHeader_ptc : isHeader pgPtc = true := by decide

/-! ### The increment -/

section Incr
variable (rq : Requester) {hi : Word} (open_ : admitted s (ptcA 0x54) hi.toNat)
include open_

theorem incrWrite_in_range (free : srcPtp s = false) (alone : s.clk.state ≠ 6)
    (lo : 0x3FF7CED92 ≤ heldLow s (ptcA 0x50) + 2 ^ 32 * (hi.toNat % 256))
    (high : heldLow s (ptcA 0x50) + 2 ^ 32 * (hi.toNat % 256) ≤ 0x40083126E) :
    let v := heldLow s (ptcA 0x50) + 2 ^ 32 * (hi.toNat % 256)
    completes (.incrWrite rq hi) s (fun t =>
      t.clk = { s.clk with incr := v } ∧ rd64 t (ptcA 0x50) = v ∧ wordsKept [ptcA 0x50, ptcA 0x54] s t ∧
        onlyChanges [.regs, .held, .clk] s t) := by
  intro v
  let u : State := { s with held := tdel s.held (ptcA 0x50) }
  have fits : (srcPtp u || u.clk.state == 6 || decide (v < incrMin) || decide (incrMax < v)) = false := by
    have own : srcPtp u = false := free
    have state : (u.clk.state == 6) = false := by simpa [u] using alone
    have above : decide (v < incrMin) = false := decide_eq_false (Nat.not_lt.2 lo)
    have below : decide (incrMax < v) = false := decide_eq_false (Nat.not_lt.2 high)
    rw [own, state, above, below]
    rfl
  refine ⟨setIncr u v, ?_, ?_, rd64_wr64_same _ _ (high.trans_lt (by decide)), wordsKept_wr64 _ _ _, ?_⟩
  · simp only [exec, execIncrWrite, gated_of_admitted open_]
    rw [show ptcA 84 - 4 = ptcA 0x50 from rfl]
    exact congrArg _ (if_neg (by rw [fits]; decide))
  · exact (wr64_evolves (m := 1) (setClk u { u.clk with incr := v }) _ _ rfl .rfl).same .clk rfl
  · exact (wr64_evolves _ _ _ rfl (setClk_evolves _ _ rfl (Evolves.upd_4 (by decide) .rfl)) : Evolves 261 s (setIncr u v)).only (by decide)

theorem incrWrite_refused
    (bad : srcPtp s = true ∨ s.clk.state = 6 ∨ heldLow s (ptcA 0x50) + 2 ^ 32 * (hi.toNat % 256) < 0x3FF7CED92 ∨
      0x40083126E < heldLow s (ptcA 0x50) + 2 ^ 32 * (hi.toNat % 256)) :
    completes (.incrWrite rq hi) s (fun t => t.clk = s.clk ∧ raised s t pgPtc 4 ∧ wordsKept [ptcA 0x24] s t) := by
  let u : State := { s with held := tdel s.held (ptcA 0x50) }
  let v := heldLow s (ptcA 0x50) + 2 ^ 32 * (hi.toNat % 256)
  have fails : (srcPtp u || u.clk.state == 6 || decide (v < incrMin) || decide (incrMax < v)) = true := by
    have own : srcPtp u = srcPtp s := rfl
    have state : u.clk.state = s.clk.state := rfl
    rw [own, state]
    simp only [Bool.or_eq_true, beq_iff_eq, decide_eq_true_eq, or_assoc]
    exact bad
  obtain ⟨raise, words, only⟩ := refuse_leaves u isHeader_ptc
  refine ⟨refuse u pgPtc, ?_, only .clk (by decide), raise, words⟩
  simp only [exec, execIncrWrite, gated_of_admitted open_]
  rw [show ptcA 84 - 4 = ptcA 0x50 from rfl]
  exact congrArg _ (if_pos fails)

end Incr

/-! ### Steps -/

/-- A lane starts its bring-up again. -/
def retrainLane (s : State) (l : Nat) : State :=
  send (setLane s l { getLane s l with state := 2, rate := 0, want := 0, capSeen := false, delays := [], delayValid := false,
                                       exchanges := 0, eiAsked := false, eiReturn := false, wasActive := false,
                                       queued := [] }) (.lanePhy l 0)

theorem getLane_retrainLane_same (s : State) (l : Nat) :
    (getLane (retrainLane s l) l).state = 2 ∧ (getLane (retrainLane s l) l).rate = 0 := by
  rw [retrainLane, getLane_send, getLane_setLane_same]
  exact ⟨rfl, rfl⟩

theorem getLane_retrainLane_beside {l k : Nat} (h : k ≠ l) : getLane (retrainLane s l) k = getLane s k := by
  rw [retrainLane, getLane_send, getLane_setLane_beside _ _ _ k h]

theorem getLane_retrained (ls : List Nat) (s : State) (l : Nat) :
    (l ∈ ls → (getLane (ls.foldl retrainLane s) l).state = 2 ∧ (getLane (ls.foldl retrainLane s) l).rate = 0) ∧
      (l ∉ ls → getLane (ls.foldl retrainLane s) l = getLane s l) := by
  induction ls generalizing s with
  | nil => exact ⟨fun h => absurd h List.not_mem_nil, fun _ => rfl⟩
  | cons a ls ih =>
    obtain ⟨again, kept⟩ := ih (retrainLane s a)
    rw [List.foldl_cons]
    by_cases later : l ∈ ls
    · exact ⟨fun _ => again later, fun h => absurd (List.mem_cons_of_mem a later) h⟩
    · rw [kept later]
      refine ⟨fun h => ?_, fun h => getLane_retrainLane_beside (List.ne_of_not_mem_cons h)⟩
      obtain rfl : l = a := (List.mem_cons.1 h).resolve_right later
      exact getLane_retrainLane_same s l

theorem foldl_retrainLane_evolves (ls : List Nat) (s : State) : Evolves 8396800 s (ls.foldl retrainLane s) :=
  .foldl .rfl fun _ _ h => send_evolves _ _ rfl (setLane_evolves _ _ _ rfl h)

/-- The lanes that a step takes through bring-up. -/
def stepped (s : State) : List Nat := (List.range 48).filter (fun l => (getLane s l).state == 6 || (getLane s l).state == 7)

theorem mem_stepped {l : Nat} : l ∈ stepped s ↔ l < 48 ∧ ((getLane s l).state = 6 ∨ (getLane s l).state = 7) := by
  simp [stepped]

theorem retrainLanes_eq (s : State) :
    retrainLanes s = setClk ((stepped s).foldl retrainLane s)
      { ((stepped s).foldl retrainLane s).clk with stepBusy := true, stepLanes := (stepped s).filter (laneActive s) } := rfl

theorem retrainLanes_leaves (s : State) :
    let t := retrainLanes s
    t.clk = { s.clk with stepBusy := true, stepLanes := (stepped s).filter (laneActive s) } ∧
      (∀ l, l ∈ t.clk.stepLanes ↔ l < 48 ∧ (getLane s l).state = 6) ∧
      (∀ l, l < 48 → ((getLane s l).state = 6 ∨ (getLane s l).state = 7) → (getLane t l).state = 2 ∧ (getLane t l).rate = 0) ∧
      (∀ l, (getLane s l).state ≠ 6 → (getLane s l).state ≠ 7 → getLane t l = getLane s l) := by
  intro t
  have clk : ((stepped s).foldl retrainLane s).clk = s.clk := (foldl_retrainLane_evolves _ s).same .clk rfl
  have lane (l : Nat) : getLane t l = getLane ((stepped s).foldl retrainLane s) l := rfl
  have now : t.clk = { s.clk with stepBusy := true, stepLanes := (stepped s).filter (laneActive s) } := by
    rw [← clk]
    rfl
  refine ⟨now, fun l => ?_, fun l hl up => ?_, fun l active idle => ?_⟩
  · rw [now]
    simp only [List.mem_filter, mem_stepped, laneActive, beq_iff_eq]
    tauto
  · rw [lane]
    exact (getLane_retrained _ s l).1 (mem_stepped.2 ⟨hl, up⟩)
  · rw [lane]
    refine (getLane_retrained _ s l).2 fun h => ?_
    rcases (mem_stepped.1 h).2 with h | h
    · exact active h
    · exact idle h

/-- The counter holds a total of nanoseconds, modulo 2^48 seconds. -/
theorem setTotal_total (s : State) (t : Int) :
    let c := (setTotal s t).clk
    ((c.sec * 1000000000 + c.ns : Nat) : Int) = t % (2 ^ 48 * 1000000000) ∧ c.ns < 1000000000 := by
  intro c
  have sec : c.sec = (t % ((2 ^ 48 * 1000000000 : Nat) : Int)).toNat / 1000000000 := rfl
  have ns : c.ns = (t % ((2 ^ 48 * 1000000000 : Nat) : Int)).toNat % 1000000000 := rfl
  have low : 0 ≤ t % ((2 ^ 48 * 1000000000 : Nat) : Int) := Int.emod_nonneg _ (by decide)
  rw [sec, ns, Nat.div_add_mod', Int.toNat_of_nonneg low]
  exact ⟨rfl, Nat.mod_lt _ (by decide)⟩

/-- A step of the counter, with what it asks of the lanes. -/
theorem stepTo_leaves (s : State) (total : Int) :
    let t := stepTo s total
    ((t.clk.sec * 1000000000 + t.clk.ns : Nat) : Int) = total % (2 ^ 48 * 1000000000) ∧ t.clk.ns < 1000000000 ∧
      t.clk.frac = s.clk.frac ∧ t.clk.incr = s.clk.incr ∧ t.clk.stepBusy = true ∧
      (∀ l, l ∈ t.clk.stepLanes ↔ l < 48 ∧ (getLane s l).state = 6) ∧
      (∀ l, l < 48 → ((getLane s l).state = 6 ∨ (getLane s l).state = 7) → (getLane t l).state = 2 ∧ (getLane t l).rate = 0) ∧
      (∀ l, (getLane s l).state ≠ 6 → (getLane s l).state ≠ 7 → getLane t l = getLane s l) ∧
      onlyChanges [.clk, .links, .out] s t := by
  intro t
  obtain ⟨clk, lanes, trains, rest⟩ := retrainLanes_leaves (setTotal s total)
  obtain ⟨sum, small⟩ := setTotal_total s total
  have now : t.clk = _ := clk
  refine ⟨?_, ?_, ?_, ?_, ?_, lanes, trains, rest, (stepTo_evolves (m := 8397056) _ _ rfl .rfl).only (by decide)⟩
  · rw [now]
    exact sum
  · rw [now]
    exact small
  · rw [now]
    rfl
  · rw [now]
    rfl
  · rw [now]

theorem stepRefused_leaves (s : State) :
    let t := refuse (count s pgPtc 8) pgPtc
    t.clk = s.clk ∧ t.links = s.links ∧ raised s t pgPtc 4 ∧ counted s t pgPtc 8 ∧ wordsKept [ptcA 0x24] s t ∧
      onlyChanges eventParts s t := by
  obtain ⟨raise, words, only⟩ := refuse_leaves (count s pgPtc 8) isHeader_ptc
  have first : onlyChanges eventParts s (count s pgPtc 8) := (only_count s _ _).mono (by decide)
  have all := first.trans only
  have regs (a : Nat) : rd (count s pgPtc 8) a = rd s a := by simp only [rd, count_fields]
  refine ⟨all .clk (by decide), all .links (by decide), ?_, ?_, fun a ha => (words a ha).trans (regs a), all⟩
  · rw [raised, raise, evPend, regs, evPend]
  · rw [counted, refuse, counter_ev (by decide) (by decide), counted_count]

/-! ### The end of a step -/

theorem releaseStarts_none (h : ∀ j ∈ s.print.jobs, j.held = false) : releaseStarts s = s := by
  unfold releaseStarts
  refine List.foldlRecOn (motive := fun u => u = s) _ _ rfl fun u hu j hj => ?_
  rw [h j hj]
  exact hu

end Sys2Proof.Machine

namespace Sys2Proof.Proofs
open Sys2Proof Sys2Proof.Machine

/-- Settles O36: the increment, both kinds of step, the end of a step, and the acceptance of a master's time. -/
theorem pressTimeSteps : Obligations.PressTimeSteps := by
  refine ⟨fun s rq hi open_ => ⟨incrWrite_in_range rq open_, incrWrite_refused rq open_⟩, fun s rq adj open_ => ?_, fun s => ⟨fun waits => ?_,
    fun busy all => ?_⟩, fun s rq open_ => ⟨fun none_ => ?_, fun p d jump best => ?_⟩⟩
  · cases adj with
    | true =>
      have open_ : admitted s (ptcA 0x48) 2 := open_
      refine ⟨fun printing => ⟨_, ?_, stepRefused_leaves s⟩, fun still => ⟨_, ?_, stepTo_leaves s _⟩⟩
      · simp only [if_true, exec, execAdj, gated_of_admitted open_, printing]
      · simp only [if_true, exec, execAdj, gated_of_admitted open_, still, Bool.false_eq_true, if_false]
        rfl
    | false =>
      have open_ : admitted s (ptcA 0x48) 1 := open_
      refine ⟨fun printing => ⟨_, ?_, stepRefused_leaves s⟩, fun still => ⟨stepTo (setClk s { s.clk with frac := 0 })
        ((rd64 s (ptcA 0x6C) % 2 ^ 48 * 1000000000 + rdf s (ptcA 0x68) 29 0 : Nat) : Int), ?_, ?_⟩⟩
      · simp only [Bool.false_eq_true, if_false, exec, execPtcStep, gated_of_admitted open_, printing, if_true]
      · simp only [Bool.false_eq_true, if_false, exec, execPtcStep, gated_of_admitted open_, still]
      · obtain ⟨sum, small, frac, incr, stepBusy, lanes, trains, rest, only⟩ := stepTo_leaves (setClk s { s.clk with frac := 0 })
          ((rd64 s (ptcA 0x6C) % 2 ^ 48 * 1000000000 + rdf s (ptcA 0x68) 29 0 : Nat) : Int)
        exact ⟨sum, small, frac, incr, stepBusy, lanes, trains, rest,
          ((setClk_evolves (m := 256) s _ rfl .rfl).only (by decide)).trans only⟩
  · have not_done : (s.clk.stepBusy && s.clk.stepLanes.all (laneActive s)) = false := by
      rcases waits with off | ⟨l, hl, down⟩
      · rw [off, Bool.false_and]
      · rw [Bool.and_eq_false_iff]
        exact .inr (List.all_eq_false.2 ⟨l, hl, by simpa [laneActive] using down⟩)
    simp only [exec, execStepDone, not_done, Bool.false_eq_true, if_false]
  · have done : (s.clk.stepBusy && s.clk.stepLanes.all (laneActive s)) = true := by
      rw [busy, Bool.true_and]
      exact List.all_eq_true.2 fun l hl => by simpa [laneActive] using all l hl
    have runs : exec .stepDone s =
        .next (releaseStarts (ev (setClk s { s.clk with stepBusy := false, stepLanes := [] }) pgPtc 11)) := by
      simp only [exec, execStepDone, done, if_true]
    refine ⟨runs, fun free => ⟨_, runs, ?_⟩⟩
    let v := setClk s { s.clk with stepBusy := false, stepLanes := [] }
    have step : Evolves 8523841 v (ev v pgPtc 11) := ev_evolves _ _ _ rfl .rfl
    have jobs : (ev v pgPtc 11).print = s.print := step.same .print rfl
    beta_reduce
    rw [releaseStarts_none (by rw [jobs]; exact free)]
    exact ⟨step.same .clk rfl, raised_ev v pgPtc (by decide)⟩
  · simp only [exec, execAcceptStep, gated_of_admitted open_, none_]
  · exact ⟨_, by simp only [exec, execAcceptStep, gated_of_admitted open_, jump, best], rfl,
      (setClk_evolves (m := 256) s _ rfl .rfl).only (by decide)⟩

end Sys2Proof.Proofs
end

section
/-! PROOFS. PtpMeasurementRule (R324 to R328, R330, R333): measuring against the master, and acting on the measurement. -/

namespace Sys2Proof.Machine
open Sys2Proof

variable {s t : State}

/-! ### What faults and events leave -/

theorem clk_ev (s : State) (p b : Nat) : (ev s p b).clk = s.clk := (ev_evolves (m := 8523841) _ _ _ rfl .rfl).same .clk rfl

theorem clk_wr64 (s : State) (a v : Nat) : (wr64 s a v).clk = s.clk := (wr64_evolves (m := 1) _ _ _ rfl .rfl).same .clk rfl

theorem clk_fault (s : State) (code page bar : Nat) {cls : Nat} (h : cls ≠ 3) (d : List Nat) :
    (fault s code cls page bar d).clk = s.clk := (fault_below_D s code page bar h d).same .clk rfl

/-! ### Measurements -/

theorem satNs_lt (x : Int) : satNs x < 2 ^ 32 := by
  unfold satNs twos
  have := Int.emod_lt_of_pos (ssatN 32 (roundHalfUp x 65536)) (b := ((2 ^ 32 : Nat) : Int)) (by decide)
  have := Int.emod_nonneg (ssatN 32 (roundHalfUp x 65536)) (b := ((2 ^ 32 : Nat) : Int)) (by decide)
  omega

/-- A word shows a saturated time; press time alone changes beside it. -/
theorem shown_ns (s : State) (c : Clock) (a : Nat) (x : Int) :
    let t := wr (setClk s c) a (satNs x)
    t.clk = c ∧ rd t a = satNs x ∧ wordsKept [a] s t ∧ Evolves 257 s t := by
  refine ⟨rfl, ?_, fun b hb => ?_, wr_evolves _ _ _ rfl (setClk_evolves _ _ rfl .rfl)⟩
  · rw [rd_wr_same, Nat.mod_eq_of_lt (satNs_lt x)]
  · rw [rd_wr, if_neg (by simpa using hb)]
    rfl

theorem rxStamp_of_regs (h : t.regs = s.regs) (m : PtpMsg) : rxStamp t m = rxStamp s m := by
  simp only [rxStamp, latency, asym, rd, h]

theorem interval_of_regs (h : t.regs = s.regs) (hi lo : Nat) : interval t hi lo = interval s hi lo := by
  rw [interval, rdf, rd, h]
  rfl

theorem delayP2p_of_regs (h : t.regs = s.regs) : delayP2p t = delayP2p s := by simp only [delayP2p, rdb, rd, h]

theorem regs_count (s : State) (p k : Nat) : (count s p k).regs = s.regs := by simp only [count_fields]

theorem clk_count (s : State) (p k : Nat) : (count s p k).clk = s.clk := by simp only [count_fields]

theorem words_count (s : State) (p k : Nat) (as : List Nat) : wordsKept as s (count s p k) :=
  fun a _ => by simp only [rd, count_fields]

section Measure
variable {m : PtpMsg} (own : fromMaster s m = true)
include own

theorem ptpSync_held (two : m.twoStep = true) :
    completes (.ptpSync m) s (fun t =>
      t.clk = { s.clk with heldSync := some m } ∧ counted s t pgPtc 0 ∧ onlyChanges [.counters, .clk] s t) := by
  refine ⟨setClk (count s pgPtc 0) { s.clk with heldSync := some m }, ?_, rfl, counted_count s _ _,
    (setClk_evolves _ _ rfl (count_evolves _ _ _ rfl .rfl) : Evolves 320 s _).only (by decide)⟩
  simp only [exec, execPtpSync, own, two, if_true, clk_count]

theorem ptpSync_measures (one : m.twoStep = false) :
    let off := rxStamp s m - (m.origin + m.correction) - s.clk.mpd
    completes (.ptpSync m) s (fun t =>
      t.clk = { s.clk with t1 := m.origin + m.correction, t2 := rxStamp s m, measured := some off } ∧
        rd t (ptcA 0x90) = satNs off ∧ wordsKept [ptcA 0x90] s t ∧ counted s t pgPtc 0 ∧
        onlyChanges [.regs, .counters, .clk] s t) := by
  intro off
  let u := count s pgPtc 0
  obtain ⟨clk, word, words, step⟩ := shown_ns u
    { s.clk with t1 := m.origin + m.correction, t2 := rxStamp s m, measured := some off } (ptcA 0x90) off
  refine ⟨_, ?_, clk, word, (words_count s _ _ _).trans words, ?_, ?_⟩
  · simp only [exec, execPtpSync, own, one, if_true, Bool.false_eq_true, if_false, offsetMeasured,
      rxStamp_of_regs (regs_count s pgPtc 0), clk_count]
    rfl
  · rw [counted, step.counter_eq rfl]
    exact counted_count s _ _
  · exact ((count_evolves _ _ _ rfl .rfl : Evolves 321 s u).trans (step.mono rfl)).only (by decide)

theorem followUp_measures {h : PtpMsg} (held : s.clk.heldSync = some h) (seq : h.seq = m.seq)
    (inTime : m.rxTime ≤ h.rxTime + interval s 31 24) :
    completes (.followUp m) s (fun t =>
      t.clk.measured = some (rxStamp s h - (m.origin + m.correction + h.correction) - s.clk.mpd) ∧
        t.clk.heldSync = none ∧ wordsKept [ptcA 0x90] s t ∧ counted s t pgPtc 1 ∧
        onlyChanges [.regs, .counters, .clk] s t) := by
  let u := count s pgPtc 1
  let off := rxStamp s h - (m.origin + m.correction + h.correction) - s.clk.mpd
  obtain ⟨clk, -, words, step⟩ := shown_ns u
    { s.clk with heldSync := none, t1 := m.origin + m.correction + h.correction, t2 := rxStamp s h, measured := some off } (ptcA 0x90) off
  refine ⟨_, ?_, by rw [clk], by rw [clk], (words_count s _ _ _).trans words, ?_, ?_⟩
  · have regs := regs_count s pgPtc 1
    simp only [exec, execFollowUp, own, if_true, clk_count, held, interval_of_regs regs]
    rw [if_pos ⟨seq, inTime⟩]
    simp only [offsetMeasured, rxStamp_of_regs regs]
    rfl
  · rw [counted, step.counter_eq rfl]
    exact counted_count s _ _
  · exact ((count_evolves _ _ _ rfl .rfl : Evolves 321 s u).trans (step.mono rfl)).only (by decide)

theorem followUp_discarded (none_ : ∀ h, s.clk.heldSync = some h → h.seq ≠ m.seq ∨ h.rxTime + interval s 31 24 < m.rxTime) :
    completes (.followUp m) s (fun t => counted s t pgPtc 10 ∧ onlyChanges [.counters] s t) := by
  let u := count s pgPtc 1
  refine ⟨count u pgPtc 10, ?_, ?_, ?_⟩
  · simp only [exec, execFollowUp, own, if_true, clk_count, interval_of_regs (regs_count s pgPtc 1)]
    cases held : s.clk.heldSync with
    | none => rfl
    | some h =>
      have late : ¬(h.seq = m.seq ∧ m.rxTime ≤ h.rxTime + interval s 31 24) := by
        rcases none_ h held with differs | later
        · exact fun x => differs x.1
        · exact fun x => absurd x.2 (Nat.not_le.2 later)
      dsimp only
      rw [if_neg late]
  · rw [counted, counted_count, counter_count, if_neg (by decide)]
  · exact (only_count s _ _).trans (only_count _ _ _)

theorem delayResp_measures (e2e : delayP2p s = false) (seq : m.seq = s.clk.reqSeq) :
    let d := (s.clk.t2 - s.clk.t3 + (m.origin - m.correction - s.clk.t1)) / 2
    completes (.delayResp m) s (fun t =>
      t.clk = { s.clk with mpd := d } ∧ rd t (ptcA 0x94) = satNs d ∧ wordsKept [ptcA 0x94] s t ∧ counted s t pgPtc 3 ∧
        onlyChanges [.regs, .counters, .clk] s t) := by
  intro d
  let u := count s pgPtc 3
  obtain ⟨clk, word, words, step⟩ := shown_ns u { s.clk with mpd := d } (ptcA 0x94) d
  refine ⟨_, ?_, clk, word, (words_count s _ _ _).trans words, ?_, ?_⟩
  · simp only [exec, execDelayResp, own, e2e, Bool.not_false, Bool.and_self, if_true, clk_count]
    rw [if_pos seq, setMpd, clk_count]
  · rw [counted, step.counter_eq rfl]
    exact counted_count s _ _
  · exact ((count_evolves _ _ _ rfl .rfl : Evolves 321 s u).trans (step.mono rfl)).only (by decide)

end Measure

/-! ### The servo -/

/-- A refused measurement: HOLDOVER, with JUMP, the events and the record; the counter and INCR stay. -/
theorem masterJump_leaves (s : State) (off : Int) (gm : Nat) :
    let t := masterJump s off gm
    t.clk = { s.clk with jump := true, state := 4, goodRun := 0, badRun := 0 } ∧ (evPend t pgPtc).testBit 8 = true ∧
      (evPend t pgPtc).testBit 10 = true ∧ recorded s t 0x0901 1 := by
  intro t
  let u := setClk s { s.clk with jump := true, state := 4, goodRun := 0, badRun := 0 }
  let v := ev (ev u pgPtc 10) pgPtc 8
  have eq : t = fault v 0x0901 1 pgPtc noBar [satNs off, gm % 2 ^ 32, gm / 2 ^ 32] := rfl
  rw [eq]
  refine ⟨?_, ?_, ?_, ?_⟩
  · rw [clk_fault _ _ _ _ (by decide), clk_ev, clk_ev]
    rfl
  · exact testBit_evPend_fault (testBit_evPend_raised _ _ (by decide)) _ _ _ (by decide) _
  · exact testBit_evPend_fault (testBit_evPend_ev (testBit_evPend_raised _ _ (by decide)) _ _) _ _ _ (by decide) _
  · exact recorded_of_keepsLog (.of (m := 8524097) (ev_evolves _ _ _ rfl (ev_evolves _ _ _ rfl (setClk_evolves _ _ rfl .rfl))) rfl)
      (recorded_fault v _ _ _ _ _)

/-- Press time goes on: nothing but the judgement of the measurements differs, in ACQUIRE and LOCKED. -/
def judgedOnly (c d : Clock) : Prop :=
  d.sec = c.sec ∧ d.ns = c.ns ∧ d.incr = c.incr ∧ d.stepBusy = c.stepBusy ∧ d.first = c.first ∧ d.jump = c.jump ∧
    (c.state = 2 → d.state = 2 ∨ d.state = 3)

theorem lockRuns_leaves (s : State) (off : Int) : judgedOnly s.clk (lockRuns s off).clk := by
  unfold lockRuns
  extract_lets good g b u v
  split
  · rw [clk_ev]
    exact ⟨rfl, rfl, rfl, rfl, rfl, rfl, fun _ => .inr rfl⟩
  · split
    · exact ⟨rfl, rfl, rfl, rfl, rfl, rfl, fun _ => .inl rfl⟩
    · exact ⟨rfl, rfl, rfl, rfl, rfl, rfl, fun h => .inl h⟩

/-- Slewing sets an increment within its range, and nothing else of press time. -/
theorem slew_leaves (s : State) (off : Int) :
    ∃ v, (slew s off).clk = { s.clk with incr := v } ∧ 0x3FF7CED92 ≤ v ∧ v ≤ 0x40083126E := by
  unfold slew
  extract_lets raw u v
  refine ⟨v, ?_, le_max_left _ _, max_le (by norm_num [incrMin]) (min_le_left _ _)⟩
  have clk (w : State) : (setIncr w v).clk = { w.clk with incr := v } := clk_wr64 _ _ _
  rw [clk]
  split
  · rfl
  · rw [clk_count]

/-- The state in which the servo takes up the measurement that waited. -/
def measureTaken (s : State) : State := setClk s { s.clk with measured := none }

section Servo
variable {off : Int} {p : Nat} {d : AnnounceData} (waits : s.clk.measured = some off) (best : s.clk.best = some (p, d))
  (enabled : pgEn s pgPtc = true) (ptp : srcPtp s = true)
include waits best enabled ptp

theorem exec_servoMeasurement : exec .servoMeasurement s = .next (servo (measureTaken s) off d.grandmaster) := by
  have on : (pgEn (measureTaken s) pgPtc && srcPtp (measureTaken s)) = true := by
    rw [show pgEn (measureTaken s) pgPtc = pgEn s pgPtc from rfl, show srcPtp (measureTaken s) = srcPtp s from rfl, enabled, ptp]
    rfl
  simp only [measureTaken, best] at on
  simp only [exec, execServoMeasurement, measureTaken, waits, best, on, if_true]

theorem servo_refuses (locked : s.clk.state = 3 ∨ s.clk.state = 2 ∧ s.clk.first = false) (bound : s.clk.suspended = false)
    (beyond : rdf s (ptcA 0x78) 19 0 * 65536 < off.natAbs) :
    completes .servoMeasurement s (fun t =>
      t.clk.state = 4 ∧ t.clk.jump = true ∧ t.clk.incr = s.clk.incr ∧ t.clk.sec = s.clk.sec ∧ t.clk.ns = s.clk.ns ∧
        t.clk.frac = s.clk.frac ∧ (evPend t pgPtc).testBit 8 = true ∧ (evPend t pgPtc).testBit 10 = true ∧
        recorded s t 0x0901 1) := by
  let u := measureTaken s
  have within : (decide (off.natAbs ≤ rdf u (ptcA 0x78) 19 0 * 65536) || u.clk.suspended) = false := by
    rw [show u.clk.suspended = s.clk.suspended from rfl, bound, Bool.or_false]
    exact decide_eq_false (Nat.not_le.2 beyond)
  have run : servo u off d.grandmaster = masterJump u off d.grandmaster := by
    have state : u.clk.state = s.clk.state := rfl
    have first : u.clk.first = s.clk.first := rfl
    unfold servo
    dsimp only
    rw [if_neg (by rw [state]; omega), if_neg (by rw [state, first]; rintro ⟨h, g, -⟩; rcases locked with l | ⟨-, l⟩ <;> simp_all),
      if_pos (by rw [state]; omega), within, if_neg (by decide)]
  obtain ⟨clk, jump, holdover, record⟩ := masterJump_leaves u off d.grandmaster
  refine ⟨_, exec_servoMeasurement waits best enabled ptp, ?_⟩
  beta_reduce
  rw [show servo (measureTaken s) off d.grandmaster = _ from run, clk]
  exact ⟨rfl, rfl, rfl, rfl, rfl, rfl, jump, holdover, record⟩

theorem servo_steps (acquires : s.clk.state = 2) (first : s.clk.first = true) (still : anyPrinting s = false) :
    completes .servoMeasurement s (fun t =>
      ((t.clk.sec * 1000000000 + t.clk.ns : Nat) : Int) = (((now16 s : Int) - off) / 65536) % (2 ^ 48 * 1000000000) ∧
        t.clk.stepBusy = true ∧ t.clk.first = false ∧ t.clk.incr = s.clk.incr) := by
  let u := measureTaken s
  let v := setClk u { u.clk with first := false }
  have run : servo u off d.grandmaster = lockRuns (stepBack v off) off := by
    have state : u.clk.state = 2 := acquires
    unfold servo
    dsimp only
    rw [if_neg (by omega), if_pos ⟨state, first, still⟩]
  let total : Int := ((now16 s : Int) - off) / 65536
  let w := setClk v { v.clk with frac := (((now16 s : Int) - off) % (65536 : Nat)).toNat * 65536 + v.clk.frac % 65536 }
  have back : stepBack v off = retrainLanes (setTotal w total) := rfl
  obtain ⟨sec, ns, incr, busy, first', -, -⟩ := lockRuns_leaves (stepBack v off) off
  obtain ⟨sum, -⟩ := setTotal_total w total
  obtain ⟨clk, -, -, -⟩ := retrainLanes_leaves (setTotal w total)
  refine ⟨_, exec_servoMeasurement waits best enabled ptp, ?_⟩
  beta_reduce
  rw [show servo (measureTaken s) off d.grandmaster = _ from run, sec, ns, incr, busy, first', back, clk]
  exact ⟨sum, rfl, rfl, rfl⟩

theorem servo_returns (holdover : s.clk.state = 4) (within : off.natAbs ≤ rdf s (ptcA 0x78) 19 0 * 65536)
    (adopted : s.clk.adopted = some d.grandmaster) :
    completes .servoMeasurement s (fun t =>
      t.clk.jump = false ∧ (t.clk.state = 2 ∨ t.clk.state = 3) ∧ 0x3FF7CED92 ≤ t.clk.incr ∧ t.clk.incr ≤ 0x40083126E) := by
  let u := measureTaken s
  let v := setClk u { u.clk with state := 2, jump := false, first := false }
  have run : servo u off d.grandmaster = lockRuns (slew v off) off := by
    have state : u.clk.state = 4 := holdover
    have good : (decide (off.natAbs ≤ rdf u (ptcA 0x78) 19 0 * 65536) && u.clk.adopted == some d.grandmaster) = true := by
      rw [show u.clk.adopted = s.clk.adopted from rfl, adopted, beq_self_eq_true, Bool.and_true]
      exact decide_eq_true within
    unfold servo
    dsimp only
    rw [if_pos state, good, if_pos rfl]
  obtain ⟨-, -, incr, -, -, jump, state⟩ := lockRuns_leaves (slew v off) off
  obtain ⟨x, clk, lo, hi⟩ := slew_leaves v off
  refine ⟨_, exec_servoMeasurement waits best enabled ptp, ?_⟩
  beta_reduce
  rw [show servo (measureTaken s) off d.grandmaster = _ from run]
  refine ⟨?_, state (by rw [clk]; rfl), ?_, ?_⟩
  · rw [jump, clk]
    rfl
  · rw [incr, clk]
    exact lo
  · rw [incr, clk]
    exact hi

theorem servo_holds (holdover : s.clk.state = 4)
    (bad : rdf s (ptcA 0x78) 19 0 * 65536 < off.natAbs ∨ s.clk.adopted ≠ some d.grandmaster) :
    completes .servoMeasurement s (fun t => t.clk = { s.clk with measured := none } ∧ onlyChanges [.clk] s t) := by
  let u := measureTaken s
  have run : servo u off d.grandmaster = u := by
    have state : u.clk.state = 4 := holdover
    have fails : ¬(decide (off.natAbs ≤ rdf u (ptcA 0x78) 19 0 * 65536) && u.clk.adopted == some d.grandmaster) = true := by
      rw [Bool.and_eq_true, decide_eq_true_eq, beq_iff_eq]
      rintro ⟨within, adopted⟩
      rcases bad with beyond | other
      · exact absurd within (Nat.not_le.2 beyond)
      · exact other adopted
    unfold servo
    dsimp only
    rw [if_pos state, if_neg fails]
  exact ⟨u, by rw [exec_servoMeasurement waits best enabled ptp, run], rfl, (setClk_evolves (m := 256) s _ rfl .rfl).only (by decide)⟩

end Servo

/-! ### Masters heard -/

theorem announceTimeout_loses {p : Nat} {d : AnnounceData} (enabled : pgEn s pgPtc = true) (ptp : srcPtp s = true)
    (alone : s.clk.state ≠ 6) (best : s.clk.best = some (p, d))
    (none_ : s.clk.foreign.filter (fun f => !(f.1 == p && f.2.1 == s.clk.parent)) = []) :
    completes .announceTimeout s (fun t =>
      t.clk.state = 4 ∧ t.clk.best = none ∧ t.clk.incr = s.clk.incr ∧ (evPend t pgPtc).testBit 10 = true ∧
        (evPend t pgPtc).testBit 12 = true ∧ recorded s t 0x0902 1) := by
  let u := setClk s { s.clk with best := none, foreign := [] , state := 4, goodRun := 0, badRun := 0 }
  let v := ev (ev u pgPtc 10) pgPtc 12
  let w := fault v 0x0902 1 pgPtc noBar [rd v (ptcA 0x90), d.grandmaster % 2 ^ 32, d.grandmaster / 2 ^ 32]
  have clk : w.clk = u.clk := (clk_fault _ _ _ _ (by decide) _).trans ((clk_ev _ _ _).trans (clk_ev _ _ _))
  have nobody : runBmca w = w := by
    have empty : bestForeign w = none := by
      rw [bestForeign, clk]
      rfl
    rw [runBmca, empty]
  have due : (pgEn s pgPtc && srcPtp s && s.clk.state != 6) = true := by simp [enabled, ptp, alone]
  refine ⟨w, ?_, by rw [clk]; rfl, by rw [clk]; rfl, by rw [clk]; rfl, ?_, ?_, ?_⟩
  · simp only [exec, execAnnounceTimeout, due, if_true, best, none_]
    exact congrArg _ nobody
  · exact testBit_evPend_fault (testBit_evPend_ev (testBit_evPend_raised _ _ (by decide)) _ _) _ _ _ (by decide) _
  · exact testBit_evPend_fault (testBit_evPend_raised _ _ (by decide)) _ _ _ (by decide) _
  · exact recorded_of_keepsLog (.of (m := 8524097) (ev_evolves _ _ _ rfl (ev_evolves _ _ _ rfl (setClk_evolves _ _ rfl .rfl))) rfl)
      (recorded_fault v _ _ _ _ _)

theorem announceTimeout_masters (enabled : pgEn s pgPtc = true) (ptp : srcPtp s = true) (best : s.clk.best = none)
    (listens : s.clk.state = 1) (may : slaveOnly s = false) :
    completes .announceTimeout s (fun t => t.clk = { s.clk with state := 5 } ∧ onlyChanges [.clk] s t) := by
  have due : (pgEn s pgPtc && srcPtp s && s.clk.state != 6) = true := by simp [enabled, ptp, listens]
  have free : (decide (s.clk.state = 1) && !slaveOnly s) = true := by simp [listens, may]
  refine ⟨setClk s { s.clk with state := 5 }, ?_, rfl, (setClk_evolves (m := 256) s _ rfl .rfl).only (by decide)⟩
  simp only [exec, execAnnounceTimeout, due, if_true, best, free]

/-- The choice of a master keeps the masters heard and the counts of PTP. -/
def keepsForeign (s t : State) : Prop := t.clk.foreign = s.clk.foreign ∧ counter t pgPtc 5 = counter s pgPtc 5

theorem keepsForeign_masterJump (s : State) (off : Int) (gm : Nat) : keepsForeign s (masterJump s off gm) := by
  refine ⟨by rw [(masterJump_leaves s off gm).1], ?_⟩
  unfold masterJump enterHoldover
  dsimp only
  rw [counter_fault _ _ _ _ (by decide) _ (by decide) (by decide) (by decide), counter_ev (by decide) (by decide),
    counter_ev (by decide) (by decide)]
  rfl

theorem keepsForeign_selectMaster (s : State) (f : Nat × Nat × AnnounceData) : keepsForeign s (selectMaster s f) := by
  unfold selectMaster
  extract_lets gm new c u
  have clk : u.clk = { s.clk with best := some (f.1, f.2.2), parent := f.2.1 } := clk_wr64 _ _ _
  have start : keepsForeign s u :=
    ⟨by rw [clk], (wr64_evolves (m := 257) _ _ _ rfl (setClk_evolves _ _ rfl .rfl)).counter_eq rfl _ _⟩
  split
  · exact start
  · split
    · exact start
    · split
      · obtain ⟨foreign, count⟩ := keepsForeign_masterJump u (signed 32 (rd u (ptcA 0x90)) * 65536) gm
        exact ⟨foreign.trans start.1, count.trans start.2⟩
      · exact start

theorem keepsForeign_runBmca (s : State) : keepsForeign s (runBmca s) := by
  unfold runBmca
  split
  · exact ⟨rfl, rfl⟩
  · split
    · split <;> exact ⟨rfl, rfl⟩
    · exact keepsForeign_selectMaster _ _

theorem ptpAnnounce_heard {m : PtpMsg} (d : AnnounceData) (hears_ : hears s m = true) (alone : s.clk.state ≠ 6) :
    completes (.ptpAnnounce m d) s (fun t => (m.port, m.sourceClock, d) ∈ t.clk.foreign ∧ counted s t pgPtc 5) := by
  let u := count s pgPtc 5
  let rest := s.clk.foreign.filter (fun f => !(f.1 == m.port && f.2.1 == m.sourceClock))
  let v := setClk u { s.clk with foreign := rest ++ [(m.port, m.sourceClock, d)] }
  obtain ⟨foreign, count⟩ := keepsForeign_runBmca v
  have due : (hears s m && s.clk.state != 6) = true := by simp [hears_, alone]
  refine ⟨runBmca v, ?_, ?_, ?_⟩
  · simp only [exec, execPtpAnnounce, due, if_true, clk_count]
    rfl
  · rw [foreign]
    exact List.mem_append_right _ (List.mem_singleton_self _)
  · rw [counted, count]
    exact counted_count s _ _

end Sys2Proof.Machine

namespace Sys2Proof.Proofs
open Sys2Proof Sys2Proof.Machine

theorem ptpMeasurement : PtpMeasurementRule := by
  refine ⟨fun s m other => ?_, fun s m own => ⟨ptpSync_held own, ptpSync_measures own, fun h => followUp_measures own,
    followUp_discarded own, delayResp_measures own⟩, fun s off p d waits best enabled ptp => ?_, fun s enabled ptp alone => ?_,
    fun s m d => ⟨fun deaf => ?_, ptpAnnounce_heard d⟩⟩
  · refine ⟨?_, ?_, ?_⟩
    · simp only [exec, execPtpSync, other, Bool.false_eq_true, if_false]
    · simp only [exec, execFollowUp, other, Bool.false_eq_true, if_false]
    · simp only [exec, execDelayResp, other, Bool.false_and, Bool.false_eq_true, if_false]
  · exact ⟨servo_refuses waits best enabled ptp, servo_steps waits best enabled ptp, servo_returns waits best enabled ptp,
      servo_holds waits best enabled ptp⟩
  · exact ⟨fun p d best none_ => announceTimeout_loses enabled ptp alone best none_,
      fun best listens may => announceTimeout_masters enabled ptp best listens may⟩
  · have quiet : (hears s m && s.clk.state != 6) = false := by
      rcases deaf with h | h <;> simp [h]
    simp only [exec, execPtpAnnounce, quiet, Bool.false_eq_true, if_false]

end Sys2Proof.Proofs
end

section
/-! PROOFS. PtpMessagesRule (R329, R333 to R337): what the unit sends of PTP, peer delay, the transparent clock, and the time of a pair. -/

namespace Sys2Proof.Machine
open Sys2Proof Sys2Proof.Proofs

variable {s t : State}

/-! ### Messages of the unit's own -/

theorem sendPtp_own (s : State) (p kind seq : Nat) (origin correction : Int) :
    sendPtp s p kind seq origin correction = send s (.ptp p kind (ownPtp s p (seq % 65536) origin correction)) := rfl

theorem only_send (s : State) (o : Out) : onlyChanges [.out] s (send s o) :=
  (send_evolves (m := 8388608) _ _ rfl .rfl).only (by decide)

/-- A message on each of the given ports. -/
theorem foldl_sendPtp (kind q : Nat) (o : State → Nat → Int) (ho : ∀ u x p, o (send u x) p = o u p) (ps : List Nat) (s : State) :
    sends s (ps.foldl (fun u p => sendPtp u p kind q (o u p) 0) s)
      (ps.map (fun p => .ptp p kind (ownPtp s p (q % 65536) (o s p) 0))) := by
  induction ps generalizing s with
  | nil => simp [sends]
  | cons p ps ih =>
    have first : (sendPtp s p kind q (o s p) 0).out = s.out ++ [.ptp p kind (ownPtp s p (q % 65536) (o s p) 0)] := rfl
    have same : o (sendPtp s p kind q (o s p) 0) = o s := funext fun x => ho s _ x
    rw [List.foldl_cons, List.map_cons, sends, ih, first, same, List.append_assoc]
    rfl

theorem foldl_sendPtp_evolves (kind q : Nat) (o : State → Nat → Int) (ps : List Nat) (s : State) :
    Evolves 8388608 s (ps.foldl (fun u p => sendPtp u p kind q (o u p) 0) s) :=
  .foldl .rfl fun _ _ h => sendPtp_evolves _ _ _ _ _ _ rfl h

section Master
variable (master : ptpMaster s = true)
include master

theorem syncInterval_sends :
    completes .ptpSyncInterval s (fun t =>
      let q := (s.clk.syncSeq + 1) % 65536
      t.clk = { s.clk with syncSeq := q } ∧
        sends s t (((List.range 4).filter (ringPort s)).map (fun p => .ptp p 0 (ownPtp s p q (txStamp s p) 0))) ∧
        onlyChanges [.clk, .out] s t) := by
  let q := (s.clk.syncSeq + 1) % 65536
  let u := setClk s { s.clk with syncSeq := q }
  let ring := (List.range 4).filter (ringPort s)
  have sent := foldl_sendPtp 0 q txStamp (fun _ _ _ => rfl) ring u
  have step := foldl_sendPtp_evolves 0 q txStamp ring u
  refine ⟨_, by simp only [exec, execPtpSyncInterval, master, if_true]; rfl, step.same .clk rfl, ?_, ?_⟩
  · rw [show q % 65536 = q from Nat.mod_mod _ _] at sent
    exact sent
  · exact ((setClk_evolves _ _ rfl .rfl : Evolves 8388864 s u).trans (step.mono rfl)).only (by decide)

theorem announceInterval_sends :
    completes .ptpAnnounceInterval s (fun t =>
      let q := (s.clk.annSeq + 1) % 65536
      t.clk = { s.clk with annSeq := q } ∧
        sends s t (((List.range 4).filter (ringPort s)).map (fun p => .ptp p 3 (ownPtp s p q 0 0))) ∧
        onlyChanges [.clk, .out] s t) := by
  let q := (s.clk.annSeq + 1) % 65536
  let u := setClk s { s.clk with annSeq := q }
  let ring := (List.range 4).filter (ringPort s)
  have sent := foldl_sendPtp 3 q (fun _ _ => 0) (fun _ _ _ => rfl) ring u
  have step := foldl_sendPtp_evolves 3 q (fun _ _ => 0) ring u
  refine ⟨_, by simp only [exec, execPtpAnnounceInterval, master, if_true]; rfl, step.same .clk rfl, ?_, ?_⟩
  · rw [show q % 65536 = q from Nat.mod_mod _ _] at sent
    exact sent
  · exact ((setClk_evolves _ _ rfl .rfl : Evolves 8388864 s u).trans (step.mono rfl)).only (by decide)

theorem delayReq_answers {m : PtpMsg} (heard : hears s m = true) (e2e : delayP2p s = false) :
    completes (.delayReq m) s (fun t =>
      sends s t [.ptp m.port 2 (ownPtp s m.port (m.seq % 65536) (rxStamp s m) m.correction)] ∧ onlyChanges [.out] s t) := by
  refine ⟨sendPtp s m.port 2 m.seq (rxStamp s m) m.correction, ?_, rfl, only_send _ _⟩
  simp only [exec, execDelayReq, master, heard, e2e, Bool.not_false, Bool.and_self, if_true]

end Master

/-! ### Delay requests -/

theorem sendPdelayReq_leaves (s : State) (p : Nat) :
    let q := (s.clk.reqSeq + 1) % 65536
    let t := sendPdelayReq s p
    t.clk = { s.clk with reqSeq := q, pdReq := tset s.clk.pdReq p (q, txStamp s p) } ∧
      sends s t [.ptp p 4 (ownPtp s p q 0 0)] ∧ onlyChanges [.clk, .out] s t := by
  refine ⟨rfl, ?_, (sendPdelayReq_evolves (m := 8388864) _ _ rfl .rfl).only (by decide)⟩
  unfold sendPdelayReq
  dsimp only
  rw [sendPtp_own, Nat.mod_mod]
  rfl

theorem delayRequest_asks {p : Nat} {d : AnnounceData} (enabled : pgEn s pgPtc = true) (ptp : srcPtp s = true)
    (e2e : delayP2p s = false) (ordinary : tcMode s ≠ 2) (best : s.clk.best = some (p, d)) (slave : s.clk.state ≠ 5)
    (up : ringPort s p = true) :
    completes .delayRequestInterval s (fun t =>
      let q := (s.clk.reqSeq + 1) % 65536
      t.clk = { s.clk with reqSeq := q, t3 := txStamp s p } ∧ sends s t [.ptp p 1 (ownPtp s p q (txStamp s p) 0)] ∧
        counted s t pgPtc 2 ∧ onlyChanges [.counters, .clk, .out] s t) := by
  let q := (s.clk.reqSeq + 1) % 65536
  let u := setClk s { s.clk with reqSeq := q, t3 := txStamp s p }
  let v := sendPtp u p 1 q (txStamp s p) 0
  have due : (srcPtp s && !delayP2p s && s.clk.state != 5 && ringPort s p) = true := by simp [ptp, e2e, slave, up]
  have none_ : (delayP2p s && srcPtp s) = false := by rw [e2e, Bool.false_and]
  refine ⟨count v pgPtc 2, ?_, clk_count _ _ _, ?_, counted_count v _ _, ?_⟩
  · simp only [exec, execDelayRequestInterval, enabled, Bool.true_eq_false, if_false, v, u, q]
    rw [if_neg ordinary, none_, if_neg (by decide), List.foldl_nil, best]
    dsimp only
    rw [if_pos due]
  · have out : (count v pgPtc 2).out = v.out := by simp only [count_fields]
    rw [sends, out]
    simp only [v, sendPtp_own, show q % 65536 = q from Nat.mod_mod _ _]
    rfl
  · exact (count_evolves _ _ _ rfl (sendPtp_evolves _ _ _ _ _ _ rfl (setClk_evolves _ _ rfl .rfl)) :
      Evolves 8388928 s _).only (by decide)

theorem delayRequest_peer {p : Nat} (enabled : pgEn s pgPtc = true) (peer : tcMode s = 2)
    (ring : (List.range 4).filter (ringPort s) = [p]) (none_ : s.clk.best = none) :
    completes .delayRequestInterval s (fun t =>
      let q := (s.clk.reqSeq + 1) % 65536
      t.clk = { s.clk with reqSeq := q, pdReq := tset s.clk.pdReq p (q, txStamp s p) } ∧
        sends s t [.ptp p 4 (ownPtp s p q 0 0)] ∧ onlyChanges [.clk, .out] s t) := by
  refine ⟨sendPdelayReq s p, ?_, sendPdelayReq_leaves s p⟩
  have best : (sendPdelayReq s p).clk.best = none := none_
  simp only [exec, execDelayRequestInterval, enabled, Bool.true_eq_false, if_false, ring, if_pos peer, List.foldl_cons, List.foldl_nil,
    best]

/-! ### Peer delay -/

section Peer
variable {m : PtpMsg} (enabled : pgEn s pgPtc = true) (up : ringPort s m.port = true) (peer : delayP2p s = true ∨ tcMode s = 2)
include enabled up peer

theorem pdelay_due : (pgEn s pgPtc && ringPort s m.port && (delayP2p s || tcMode s == 2)) = true := by
  rw [enabled, up]
  rcases peer with h | h <;> simp [h]

theorem pdelayReq_answers :
    completes (.pdelay .req m) s (fun t =>
      sends s t [.ptp m.port 5 (ownPtp s m.port (m.seq % 65536) 0 (m.correction + (txStamp s m.port - rxStamp s m)))] ∧
        onlyChanges [.out] s t) := by
  refine ⟨sendPtp s m.port 5 m.seq 0 (m.correction + (txStamp s m.port - rxStamp s m)), ?_, rfl, only_send _ _⟩
  simp only [exec, execPdelay, pdelay_due enabled up peer, Bool.true_eq_false, if_false]

omit enabled up peer in
/-- A peer delay that has been measured, which a peer-to-peer slave shows. -/
theorem setPeerDelay_leaves (s : State) (p : Nat) (d : Int) :
    let t := setPeerDelay s p d
    tget (fun _ => 0) t.clk.peerDelay p = d ∧ counted s t pgPtc 4 ∧ wordsKept [ptcA 0x94] s t ∧
      onlyChanges [.regs, .counters, .clk] s t := by
  intro t
  let c : Clock := { s.clk with peerDelay := tset s.clk.peerDelay p d, pdHeld := tdel s.clk.pdHeld p }
  let u := count (setClk s c) pgPtc 4
  have clk : u.clk = c := clk_count _ _ _
  have step : Evolves 320 s u := count_evolves _ _ _ rfl (setClk_evolves _ _ rfl .rfl)
  have first : counted s u pgPtc 4 := counted_count (setClk s c) _ _
  have cases_ : t = setMpd u d ∨ t = u := by
    dsimp only [t, setPeerDelay]
    split
    · exact .inl rfl
    · exact .inr rfl
  rcases cases_ with e | e <;> rw [e]
  · obtain ⟨now, -, words, more⟩ := shown_ns u { u.clk with mpd := d } (ptcA 0x94) d
    refine ⟨?_, ?_, (words_count (setClk s c) _ _ _).trans words, ?_⟩
    · rw [setMpd, now, clk]
      exact tget_tset_same _ _ _ _
    · rw [counted, setMpd, more.counter_eq rfl]
      exact first
    · exact ((step.mono rfl).trans (more.mono rfl) : Evolves 321 s _).only (by decide)
  · refine ⟨?_, first, words_count (setClk s c) _ _ _, step.only (by decide)⟩
    rw [clk]
    exact tget_tset_same _ _ _ _

section Request
variable {e : Nat × Nat × Int} (asked : s.clk.pdReq.find? (fun x => x.1 == m.port) = some e) (seq : e.2.1 = m.seq)
include asked seq

theorem pdelayResp_held (two : m.twoStep = true) :
    completes (.pdelay .resp m) s (fun t => tget (fun _ => m) t.clk.pdHeld m.port = m ∧ onlyChanges [.clk] s t) := by
  obtain ⟨x, q, t1⟩ := e
  refine ⟨setClk s { s.clk with pdHeld := tset s.clk.pdHeld m.port m }, ?_, tget_tset_same _ _ _ _,
    (setClk_evolves (m := 256) _ _ rfl .rfl).only (by decide)⟩
  simp only [exec, execPdelay, pdelay_due enabled up peer, Bool.true_eq_false, if_false, asked]
  rw [if_neg (not_not_intro seq), if_pos two]

theorem pdelayResp_measures (one : m.twoStep = false) :
    completes (.pdelay .resp m) s (fun t =>
      tget (fun _ => 0) t.clk.peerDelay m.port = (rxStamp s m - e.2.2 - m.correction) / 2 ∧ counted s t pgPtc 4 ∧
        wordsKept [ptcA 0x94] s t ∧ onlyChanges [.regs, .counters, .clk] s t) := by
  obtain ⟨x, q, t1⟩ := e
  refine ⟨setPeerDelay s m.port ((rxStamp s m - t1 - m.correction) / 2), ?_, setPeerDelay_leaves s m.port _⟩
  simp only [exec, execPdelay, pdelay_due enabled up peer, Bool.true_eq_false, if_false, asked]
  rw [if_neg (not_not_intro seq), one, if_neg (by decide)]

theorem pdelayFollowUp_measures {h : Nat × PtpMsg} (held : s.clk.pdHeld.find? (fun x => x.1 == m.port) = some h)
    (same : h.2.seq = m.seq) :
    completes (.pdelay .respFollowUp m) s (fun t =>
      tget (fun _ => 0) t.clk.peerDelay m.port =
          (rxStamp s h.2 - e.2.2 - (m.origin - h.2.origin) - h.2.correction - m.correction) / 2 ∧
        counted s t pgPtc 4 ∧ wordsKept [ptcA 0x94] s t ∧ onlyChanges [.regs, .counters, .clk] s t) := by
  obtain ⟨x, q, t1⟩ := e
  obtain ⟨y, h⟩ := h
  refine ⟨setPeerDelay s m.port ((rxStamp s h - t1 - (m.origin - h.origin) - h.correction - m.correction) / 2), ?_,
    setPeerDelay_leaves s m.port _⟩
  simp only [exec, execPdelay, pdelay_due enabled up peer, Bool.true_eq_false, if_false, asked, held]
  rw [if_neg (by rintro (h | h); exacts [h seq, h same])]

end Request
end Peer

/-! ### The transparent clock -/

section Forward
variable {m : PtpMsg} {e tr : Nat} {ok : Bool} {kind : TcKind}

theorem tcForward_stays (h : e = m.port ∨ tcMode s = 0 ∨ m.sourceClock = Config.clockIdentity) :
    exec (.tcForward kind m tr ok e) s = .next s := by
  simp only [exec, execTcForward]
  rw [if_pos]
  rcases h with h | h | h <;> simp [h]

/-- A frame that the transparent clock forwards. -/
theorem exec_tcForward (enabled : pgEn s pgPtc = true) (clock : tcMode s ≠ 0)
    (link : ¬(tcMode s = 2 ∧ (kind = .pdelayReq ∨ kind = .pdelayResp ∨ kind = .pdelayFollowUp)))
    (from_ : ringPort s m.port = true) (toward : ringPort s e = true) (other : e ≠ m.port) (foreign : m.sourceClock ≠ Config.clockIdentity) :
    exec (.tcForward kind m tr ok e) s = .next (
      if kind = .general ∨ kind = .pdelayFollowUp then send s (.ptp e 6 m)
      else if tr = 2 ∧ ok = false then send (count s pgPtc 7) (.ptp e 6 m)
      else send (count s pgPtc 6) (.ptp e (7 + tr % 3) { m with correction :=
        m.correction + (txStamp s e - rxStamp s m) +
          (if tcMode s = 2 ∧ kind = .sync then tget (fun _ => 0) s.clk.peerDelay m.port else 0) })) := by
  have passes_ : (pgEn s pgPtc && tcMode s != 0 && ringPort s m.port && ringPort s e && e != m.port &&
      m.sourceClock != Config.clockIdentity &&
        !(tcMode s == 2 && (kind == .pdelayReq || kind == .pdelayResp || kind == .pdelayFollowUp))) = true := by
    rw [enabled, from_, toward]
    simp only [Bool.and_eq_true, Bool.not_eq_true', bne_iff_ne, Bool.and_eq_false_iff, Bool.or_eq_false_iff, beq_eq_false_iff_ne]
    refine ⟨⟨⟨⟨⟨⟨trivial, clock⟩, trivial⟩, trivial⟩, other⟩, foreign⟩, ?_⟩
    tauto
  simp only [exec, execTcForward, passes_, Bool.true_eq_false, if_false]

theorem only_count_send (s : State) (p k : Nat) (o : Out) : onlyChanges [.counters, .out] s (send (count s p k) o) :=
  (send_evolves _ _ rfl (count_evolves _ _ _ rfl .rfl) : Evolves 8388672 s _).only (by decide)

theorem sends_count_send (s : State) (p k : Nat) (o : Out) : sends s (send (count s p k) o) [o] := by
  simp [sends, send]

end Forward

/-! ### The time of a pair -/

theorem pairTimeExchange_asks {l : Nat} (follows : pairFollow s = true)
    (lane : (pairLanes s).find? (fun l => (getLane s l).lock) = some l) :
    completes .pairTimeExchange s (fun t =>
      let q := (s.clk.pairSeq + 1) % 256
      t.clk.pairSeq = q ∧ t.clk.pairT1 = some (fireNow s) ∧ t.clk.pairLane = some l ∧
        (s.clk.pairLane.isSome = true → s.clk.pairLane ≠ some l → t.clk.pairDiscard = 8) ∧
        sends s t [.pair l (pairMessage 3 0 0 s.pair.rxSeq (leBytes 1 1 ++ leBytes 1 q ++ leBytes 2 0 ++
          leBytes 6 (fireNow s) ++ leBytes 4 0 ++ leBytes 2 0))] ∧ onlyChanges [.counters, .clk, .out] s t) := by
  let q := (s.clk.pairSeq + 1) % 256
  let moved := s.clk.pairLane.isSome && s.clk.pairLane != some l
  let u := setClk s { s.clk with pairSeq := q, pairT1 := some (fireNow s), pairLane := some l,
                                 pairDiscard := if moved then 8 else s.clk.pairDiscard }
  let body := leBytes 1 1 ++ leBytes 1 q ++ leBytes 2 0 ++ leBytes 6 (fireNow s) ++ leBytes 4 0 ++ leBytes 2 0
  have put : Evolves 8388672 u (pairPut u l 3 0 0 body) := pairPut_evolves _ _ _ _ _ _ rfl .rfl
  have clk : (pairPut u l 3 0 0 body).clk = u.clk := put.same .clk rfl
  refine ⟨pairPut u l 3 0 0 body, ?_, ?_, ?_, ?_, fun some_ differs => ?_, ?_, ?_⟩
  · simp only [exec, execPairTimeExchange, follows, if_true, lane]
    rfl
  · rw [clk]
    rfl
  · rw [clk]
    rfl
  · rw [clk]
    rfl
  · have jumps : moved = true := by simp [moved, some_, differs]
    rw [clk]
    exact if_pos jumps
  · simp only [sends, pairPut, count_fields]
    rfl
  · exact ((setClk_evolves _ _ rfl .rfl : Evolves 8388928 s u).trans (put.mono rfl)).only (by decide)

end Sys2Proof.Machine

namespace Sys2Proof.Proofs
open Sys2Proof Sys2Proof.Machine

theorem ptpMessages : PtpMessagesRule := by
  refine ⟨fun s => ⟨fun master => ⟨syncInterval_sends master, announceInterval_sends master, fun m => delayReq_answers master⟩,
      fun other => ?_, fun p d enabled ptp e2e ordinary best slave up => delayRequest_asks enabled ptp e2e ordinary best slave up,
      fun p enabled peer ring none_ => delayRequest_peer enabled peer ring none_⟩,
    fun s m enabled up peer => ⟨pdelayReq_answers enabled up peer,
      fun e _ asked seq two => pdelayResp_held enabled up peer asked seq two,
      fun e _ h _ asked seq held same => pdelayFollowUp_measures enabled up peer asked seq held same,
      fun e _ asked seq one => pdelayResp_measures enabled up peer asked seq one⟩,
    fun s kind m tr ok e => ⟨tcForward_stays, fun enabled clock from_ toward other foreign => ⟨fun plain => ?_, fun event follows sound => ?_,
      fun event follows udp6 bad => ?_⟩, fun enabled clock from_ toward other foreign sound => ?_⟩,
    fun s l follows lane => pairTimeExchange_asks follows lane⟩
  · refine ⟨?_, ?_, fun m => ?_⟩
    · simp only [exec, execPtpSyncInterval, other, Bool.false_eq_true, if_false]
    · simp only [exec, execPtpAnnounceInterval, other, Bool.false_eq_true, if_false]
    · simp only [exec, execDelayReq, other, Bool.false_and, Bool.false_eq_true, if_false]
  · refine ⟨_, (exec_tcForward enabled (by omega) (by omega) from_ toward other foreign).trans (congrArg _ (if_pos plain)), rfl, only_send _ _⟩
  · refine ⟨_, (exec_tcForward enabled (by omega) (by omega) from_ toward other foreign).trans (congrArg _ ?_), sends_count_send _ _ _ _,
      counted_count s _ _, only_count_send _ _ _ _⟩
    rw [if_neg (by tauto), if_neg (by rintro ⟨h, g⟩; rcases sound with x | x <;> simp_all), if_neg (by omega), Int.add_zero]
  · refine ⟨_, (exec_tcForward enabled (by omega) (by omega) from_ toward other foreign).trans (congrArg _ ?_), sends_count_send _ _ _ _,
      counted_count s _ _, only_count_send _ _ _ _⟩
    rw [if_neg (by tauto), if_pos ⟨udp6, bad⟩]
  · refine ⟨_, (exec_tcForward enabled (by omega) (by simp) from_ toward other foreign).trans (congrArg _ ?_), sends_count_send _ _ _ _,
      counted_count s _ _, only_count_send _ _ _ _⟩
    rw [if_neg (by simp), if_neg (by rintro ⟨h, g⟩; rcases sound with x | x <;> simp_all), if_pos ⟨clock, rfl⟩]

/-- Settles O37: what press time measures and how the servo acts on it, and every PTP message that the unit sends. -/
theorem ptpTime : Obligations.PtpTime := ⟨ptpMeasurement, ptpMessages⟩

end Sys2Proof.Proofs
end

section
/-! PROOFS. PairLink (R343, R344): pair messages as they arrive, in their order, and the messages that go out. -/

namespace Sys2Proof.Machine
open Sys2Proof Sys2Proof.Proofs

variable {s t : State} {m : PairRx}

/-! ### Messages received -/

theorem exec_pairMessage {x : Nat × (PairRx → Instr)} (h : x ∈ pairSequenced ++ [(0x02, Instr.hb), (0x03, Instr.timeMessage)])
    (s : State) (m : PairRx) : exec (x.2 m) s = .next (pairReceive s m x.1) := by
  simp only [pairSequenced, List.cons_append, List.nil_append, List.mem_cons, List.not_mem_nil, or_false] at h
  rcases h with h | h | h | h | h | h | h | h | h | h | h | h <;> subst h <;> rfl

theorem regs_pairCounted (s : State) (m : PairRx) : (pairCounted s m).regs = s.regs := by simp only [pairCounted, count_fields]

theorem pair_pairCounted (s : State) (m : PairRx) : (pairCounted s m).pair = s.pair := by simp only [pairCounted, count_fields]

theorem pairCounted_evolves (s : State) (m : PairRx) : Evolves 64 s (pairCounted s m) :=
  count_evolves _ _ _ rfl (count_evolves _ _ _ rfl .rfl)

theorem partnerRestart_heard {type seq : Nat} (h : type = 1 → s.pair.hbLost = false) : partnerRestart s type seq = s := by
  refine if_neg ?_
  rintro ⟨hello, -, lost, -⟩
  rw [h hello] at lost
  exact absurd lost (by decide)

theorem takeAck_nothing {ack : Nat} (h : ∀ u ∈ s.pair.unacked, seqLe u.1 ack = false) : takeAck s ack = s := by
  have none_ : s.pair.unacked.filter (fun u => seqLe u.1 ack) = [] :=
    List.filter_eq_nil_iff.2 fun u hu => by rw [h u hu]; decide
  unfold takeAck
  exact if_pos (by rw [none_]; rfl)

/-- A message that is heard is counted, and then does what its type says (R343). -/
theorem pairReceive_heard {type : Nat} (h : pairHeard s m type) :
    pairReceive s m type =
      if type = 2 then onHb (pairCounted s m) (pairBody m.bytes)
      else if type = 3 then pairTime (pairCounted s m) (48 + m.lane % 4) (pairBody m.bytes)
      else inOrder (pairCounted s m) type (bytesAt m.bytes 1 1) (bytesAt m.bytes 4 4) (pairBody m.bytes) := by
  obtain ⟨up, sound, type_, acks, hello⟩ := h
  have page : 48 + m.lane % 4 - 48 = m.lane % 4 := by omega
  have restart : partnerRestart (pairCounted s m) type (bytesAt m.bytes 4 4) = pairCounted s m :=
    partnerRestart_heard fun e => by rw [pair_pairCounted]; exact hello e
  have ack : takeAck (pairCounted s m) (bytesAt m.bytes 8 4) = pairCounted s m :=
    takeAck_nothing fun u hu => acks u (by rwa [pair_pairCounted] at hu)
  unfold pairCounted at restart ack
  unfold pairReceive
  dsimp only
  rw [up, if_neg (by decide), sound, if_neg (by decide), type_, if_neg (not_not_intro rfl), page, restart, ack]
  rfl

/-- A message in its turn is delivered; with none held ahead of its turn nothing follows it (R343). -/
theorem inOrder_in_turn {type flags q : Nat} {b : List Byte} (turn : q = nextSeq s.pair.rxSeq) :
    inOrder s type flags q b =
      (let d := deliverPair (setPair s { s.pair with rxSeq := q }) type b
       deliverEarly d.pair.early.length d) := if_pos turn

theorem sequenced_type {x : Nat × (PairRx → Instr)} (h : x ∈ pairSequenced) : x.1 ≠ 2 ∧ x.1 ≠ 3 := by
  simp only [pairSequenced, List.mem_cons, List.not_mem_nil, or_false] at h
  rcases h with h | h | h | h | h | h | h | h | h | h <;> subst h <;> decide

theorem exec_sequenced {x : Nat × (PairRx → Instr)} (h : x ∈ pairSequenced) (heard : pairHeard s m x.1) :
    exec (x.2 m) s = .next
      (inOrder (pairCounted s m) x.1 (bytesAt m.bytes 1 1) (bytesAt m.bytes 4 4) (pairBody m.bytes)) := by
  obtain ⟨h2, h3⟩ := sequenced_type h
  rw [exec_pairMessage (List.mem_append_left _ h), pairReceive_heard heard, if_neg h2, if_neg h3]

/-! ### Messages sent -/

/-- What a message on a lane leaves. -/
theorem pairPut_leaves (s : State) (l type flags q : Nat) (body : List Byte) :
    let t := pairPut s l type flags q body
    sends s t [.pair l (pairMessage type flags q s.pair.rxSeq body)] ∧ t.pair = s.pair ∧ Evolves 8388672 s t := by
  refine ⟨?_, ?_, pairPut_evolves _ _ _ _ _ _ rfl .rfl⟩
  · simp [sends, pairPut]
  · simp only [pairPut, count_fields]
    rfl

theorem foldl_pairPut (type flags q : Nat) (body : List Byte) (ls : List Nat) (s : State) :
    let t := ls.foldl (fun s l => pairPut s l type flags q body) s
    sends s t (ls.map (fun l => .pair l (pairMessage type flags q s.pair.rxSeq body))) ∧ t.pair = s.pair ∧ Evolves 8388672 s t := by
  induction ls generalizing s with
  | nil => exact ⟨by simp [sends], rfl, .rfl⟩
  | cons l ls ih =>
    obtain ⟨first, pair, step⟩ := pairPut_leaves s l type flags q body
    obtain ⟨rest, kept, more⟩ := ih (pairPut s l type flags q body)
    refine ⟨?_, kept.trans pair, step.trans more⟩
    rw [sends, List.foldl_cons, rest, first, pair, List.append_assoc]
    rfl

theorem find?_le_of_head {ls : List Nat} (sorted : ls.Pairwise (· < ·)) {l k : Nat} (h : ls.head? = some l) (hk : k ∈ ls) : l ≤ k := by
  cases ls with
  | nil => exact absurd h (by simp)
  | cons a ls =>
    obtain rfl : a = l := by simpa using h
    rcases List.mem_cons.1 hk with rfl | later
    · exact Nat.le_refl _
    · exact (List.rel_of_pairwise_cons sorted later).le

theorem pairLanes_sorted (s : State) : (pairLanes s).Pairwise (· < ·) :=
  List.Pairwise.filter _ (by decide)

theorem mem_pairLanes {k : Nat} : k ∈ pairLanes s ↔ 48 ≤ k ∧ k < 52 ∧ laneActive s k = true := by
  rw [pairLanes, List.mem_filter, List.mem_map]
  refine ⟨fun ⟨⟨i, hi, e⟩, up⟩ => ?_, fun ⟨lo, hi, up⟩ => ⟨⟨k - 48, by simp; omega, by omega⟩, up⟩⟩
  have := List.mem_range.1 hi
  exact ⟨by omega, by omega, up⟩

/-- The lane of a retransmission is up, and is another than the last where another one is up (R343). -/
theorem retryLane_other {q l : Nat} (h : retryLane s q = some l) :
    laneActive s l = true ∧ ∀ k, k ∈ pairLanes s → k ≠ tget (fun _ => 0) s.pair.sentOn q → l ≠ tget (fun _ => 0) s.pair.sentOn q := by
  unfold retryLane at h
  dsimp only at h
  split at h
  · next j found =>
    obtain rfl : j = l := by simpa using h
    have after := List.find?_some found
    refine ⟨(mem_pairLanes.1 (List.mem_of_find?_eq_some found)).2.2, fun k _ _ e => ?_⟩
    rw [e] at after
    simp at after
  · next none_ =>
    have mem : l ∈ pairLanes s := List.mem_of_mem_head? h
    refine ⟨(mem_pairLanes.1 mem).2.2, fun k hk ne e => ?_⟩
    have before_ := find?_le_of_head (pairLanes_sorted s) h hk
    have behind := List.find?_eq_none.1 none_ k hk
    simp only [decide_eq_true_eq, not_lt] at behind
    omega

theorem retryLane_none {q : Nat} (h : pairLink s = false) : retryLane s q = none := by
  have empty : pairLanes s = [] := by simpa [pairLink] using h
  rw [retryLane, empty]
  rfl

theorem hbSend_beats (mode : pairMode s = true) :
    completes .hbSend s (fun t =>
      let n := (s.pair.hbCount + 1) % 2 ^ 32
      t.pair = { s.pair with hbCount := n } ∧
        sends s t ((pairLanes s).map (fun l => .pair l (pairMessage 2 0 0 s.pair.rxSeq (hbBody s n)))) ∧
        onlyChanges [.counters, .pair, .out] s t) := by
  let n := (s.pair.hbCount + 1) % 2 ^ 32
  let u := setPair s { s.pair with hbCount := n }
  obtain ⟨sent, pair, step⟩ := foldl_pairPut 2 0 0 (hbBody s n) (pairLanes s) u
  refine ⟨_, by simp only [exec, execHbSend, mode, if_true]; rfl, pair, sent, ?_⟩
  exact ((setPair_evolves _ _ rfl .rfl : Evolves 8421440 s u).trans (step.mono rfl)).only (by decide)

theorem retry_sends {q l : Nat} {u : Nat × Nat × Nat × List Byte} (waits : s.pair.unacked.find? (fun u => u.1 == q) = some u)
    (lane : retryLane s q = some l) (heard : s.pair.hbLost = false) :
    completes (.retry q) s (fun t =>
      sends s t [.pair l (pairMessage u.2.1 u.2.2.1 q s.pair.rxSeq u.2.2.2)] ∧ t.pair.unacked = s.pair.unacked ∧
        tget (fun _ => 0) t.pair.sentOn q = l ∧ laneActive s l = true ∧
        (∀ k, laneActive s k = true → 48 ≤ k → k < 52 → k ≠ tget (fun _ => 0) s.pair.sentOn q →
          l ≠ tget (fun _ => 0) s.pair.sentOn q) ∧ onlyChanges [.counters, .pair, .out] s t) := by
  have number : u.1 = q := by simpa using List.find?_some waits
  obtain ⟨up, other⟩ := retryLane_other lane
  let v := setPair s { s.pair with sentOn := tset s.pair.sentOn q l }
  obtain ⟨sent, pair, step⟩ := pairPut_leaves v l u.2.1 u.2.2.1 q u.2.2.2
  have last : (count (pairPut v l u.2.1 u.2.2.1 q u.2.2.2) pgPair 2).pair = v.pair := by
    rw [← pair]
    simp only [count_fields]
  refine ⟨count (pairPut v l u.2.1 u.2.2.1 q u.2.2.2) pgPair 2, ?_, ?_, by rw [last]; rfl, ?_, up,
    fun k active lo hi => other k (mem_pairLanes.2 ⟨lo, hi, active⟩), ?_⟩
  · simp only [exec, execRetry, waits, lane, number]
    rw [if_neg (by rw [heard]; decide)]
  · have out : (count (pairPut v l u.2.1 u.2.2.1 q u.2.2.2) pgPair 2).out = (pairPut v l u.2.1 u.2.2.1 q u.2.2.2).out := by
      simp only [count_fields]
    exact out.trans sent
  · rw [last]
    exact tget_tset_same _ _ _ _
  · exact (count_evolves _ _ _ rfl ((setPair_evolves _ _ rfl .rfl : Evolves 8421440 s v).trans (step.mono rfl)) :
      Evolves 8421440 s _).only (by decide)

end Sys2Proof.Machine

namespace Sys2Proof.Proofs
open Sys2Proof Sys2Proof.Machine

theorem pairMessages : PairMessagesRule := by
  refine ⟨fun s m x hx => ⟨fun down => ?_, fun up unsound => ?_⟩, fun s m => ⟨fun heard => ?_, fun heard => ?_⟩,
    fun s m x hx heard => ?_, fun s m heard ask active => ?_⟩
  · rw [exec_pairMessage hx, pairReceive]
    exact congrArg _ (if_pos down)
  · refine ⟨_, exec_pairMessage hx s m, ?_⟩
    have page : 48 + m.lane % 4 - 48 = m.lane % 4 := by omega
    have dropped : pairReceive s m x.1 = count s (pgPrl (m.lane % 4)) 2 := by
      unfold pairReceive
      dsimp only
      rw [up, if_neg (by decide), unsound, if_pos rfl, page]
    beta_reduce
    rw [dropped]
    exact ⟨counted_count _ _ _, only_count _ _ _⟩
  · rw [exec_pairMessage (x := (0x02, Instr.hb)) (by simp), pairReceive_heard heard]
    rfl
  · rw [exec_pairMessage (x := (0x03, Instr.timeMessage)) (by simp), pairReceive_heard heard]
    rfl
  · have runs := exec_sequenced hx heard
    intro q u
    have pair : u.pair = s.pair := pair_pairCounted s m
    refine ⟨fun turn => ?_, fun late past => ?_, fun ahead later fresh => ?_⟩
    · rw [runs, inOrder_in_turn (by rw [pair_pairCounted]; exact turn)]
    · have skip : inOrder u x.1 (bytesAt m.bytes 1 1) q (pairBody m.bytes) = u := by
        unfold inOrder
        rw [pair, if_neg late, past, Bool.true_or, if_pos rfl]
      rw [runs]
      exact congrArg _ skip
    · have held : inOrder u x.1 (bytesAt m.bytes 1 1) q (pairBody m.bytes) =
          setPair u { u.pair with early := u.pair.early ++ [(q, x.1, bytesAt m.bytes 1 1, pairBody m.bytes)] } := by
        unfold inOrder
        rw [pair, if_neg ahead, later, Bool.false_or, fresh, if_neg (by decide)]
      refine ⟨_, runs.trans (congrArg _ held), by rw [pair]; rfl, ?_⟩
      exact (setPair_evolves _ _ rfl ((pairCounted_evolves s m).mono rfl) : Evolves 32832 s _).only (by decide)
  · refine ⟨_, (exec_pairMessage (x := (0x03, Instr.timeMessage)) (by simp) s m).trans (congrArg _ (pairReceive_heard heard)), ?_⟩
    let u := pairCounted s m
    let body := leBytes 1 2 ++ leBytes 1 (bytesAt (pairBody m.bytes) 1 1) ++ leBytes 2 0 ++ leBytes 6 (fireNow s) ++ leBytes 6 (fireNow s)
    have pair : u.pair = s.pair := pair_pairCounted s m
    have now : fireNow u = fireNow s := by
      rw [fireNow, ptTotalNs, (pairCounted_evolves s m).same .clk rfl]
      rfl
    have runs : pairTime u (48 + m.lane % 4) (pairBody m.bytes) = pairPut u (48 + m.lane % 4) 3 0 0 body := by
      have acts : isActive u = true := by rw [isActive, pair]; exact active
      unfold pairTime
      rw [if_pos ask, acts, if_pos rfl, now]
    obtain ⟨sent, -, step⟩ := pairPut_leaves u (48 + m.lane % 4) 3 0 0 body
    have out : u.out = s.out := (pairCounted_evolves s m).same .out rfl
    beta_reduce
    rw [if_neg (by decide), if_pos rfl, show pairTime (pairCounted s m) _ _ = _ from runs]
    refine ⟨?_, (((pairCounted_evolves s m).mono rfl).trans step : Evolves 8388672 s _).only (by decide)⟩
    rw [sends, sent, out, pair]

theorem pairSending : PairSendingRule := by
  refine ⟨fun s => ⟨fun single => ?_, hbSend_beats⟩, fun s q => ⟨fun nothing => ?_, fun u l waits lane heard =>
    retry_sends waits lane heard⟩⟩
  · simp only [exec, execHbSend, single, Bool.false_eq_true, if_false]
  · simp only [exec, execRetry]
    split
    · next u l waits lane =>
      rcases nothing with none_ | lost | down
      · have same := List.find?_some waits
        have mem : s.pair.unacked.any (fun u => u.1 == q) = true :=
          List.any_eq_true.2 ⟨u, List.mem_of_find?_eq_some waits, same⟩
        exact absurd (none_.symm.trans mem) (by decide)
      · rw [if_pos lost]
      · exact absurd (lane.symm.trans (retryLane_none down)) (by simp)
    · rfl

/-- Settles O38: pair messages are counted, discarded, delivered and held by their type and order, and sent again on another lane. -/
theorem pairLink : Obligations.PairLink := ⟨pairMessages, pairSending⟩

end Sys2Proof.Proofs
end

section
/-! PROOFS. PairRoles fails (R368): an active unit that goes on alone releases the acknowledgements that its journal holds back (R79),
and HEAD of a submission ring advances for each; for an entry whose ring does not exist, that word is one of another page, here PAIR.EPOCH,
where the statement has the epoch stay. -/

namespace Sys2Proof.Machine
open Sys2Proof

/-- A command of ring 21376, of which the acknowledgement is held back. -/
def strayEntry : JEntry :=
  { stamp := 0, session := 0, seq := 1, ring := 21376, entry := [], data := [], state := 0, progress := 0, status := 0,
    result0 := 0, result1 := 0, result := [], imageLine := 0, ptNs := 0, ptSec := 0, webPos := 0, replayed := false,
    peer := false, written := false, withheld := true, late := false, ready := true, pairSeq := 0, wpos := none,
    waiting := false }

/-- An active unit of a pair that waits for SOLO_WAIT, with epoch 0. -/
def strayWait : State :=
  { regs := [(ptcA 0x40, 0#32), (pairA 0x40, 0#32), (pairA 0x48, 4#32), (pairA 0x4C, 0#32)]
    host := { journal := [(0, strayEntry)] }
    pair := { role := 2, soloWait := true } }

/-- HEAD of the ring that does not exist is PAIR.EPOCH. -/
theorem head_strayEntry : subRing strayEntry.ring + 0xC = pairA 0x4C := by decide +kernel

theorem epoch_strayWait : epoch strayWait = 0 ∧ epoch (taken strayWait (exec .soloWait strayWait)) = 1 := by decide +kernel

end Sys2Proof.Machine

namespace Sys2Proof.Proofs
open Sys2Proof Sys2Proof.Machine

/-- Refutes O39: SOLO_WAIT changes the epoch of an active unit whose journal holds back an entry of a ring that does not exist. -/
theorem not_pairRoles : ¬ Obligations.PairRoles := by
  rintro ⟨_, _, lost⟩
  obtain ⟨_, _, _, alone, _⟩ := lost strayWait
  obtain ⟨t, runs, _, _, same, _⟩ := alone rfl rfl
  obtain ⟨before_, after⟩ := epoch_strayWait
  rw [runs, taken, same, before_] at after
  exact absurd after (by decide)

end Sys2Proof.Proofs
end

section
/-! PROOFS. PairCommands (R346, R364, R373): roles, what becoming active leaves, and the commands of PAIR.CMD. -/

namespace Sys2Proof.Machine
open Sys2Proof

variable {s t : State}

/-! ### What messages of the unit leave of the pair -/

/-- Only what is kept of messages sent differs. -/
def PairSt.sentMore (p q : PairSt) : Prop := ∃ n us on, q = { p with txSeq := n, unacked := us, sentOn := on }

theorem PairSt.sentMore.rfl {p : PairSt} : p.sentMore p := ⟨p.txSeq, p.unacked, p.sentOn, Eq.refl p⟩

theorem PairSt.sentMore.trans {p q r : PairSt} (h : p.sentMore q) (g : q.sentMore r) : p.sentMore r := by
  obtain ⟨n, us, on, rfl⟩ := h
  obtain ⟨n', us', on', rfl⟩ := g
  exact ⟨n', us', on', Eq.refl _⟩

theorem sentMore_pairSendOn (s : State) (ls : List Nat) (type flags : Nat) (body : List Byte) :
    s.pair.sentMore (pairSendOn s ls type flags body).pair := by
  simp only [pairSendOn, pair_foldl_pairPut]
  exact ⟨_, _, _, rfl⟩

theorem sentMore_pairSendSeq (s : State) (type flags : Nat) (body : List Byte) :
    s.pair.sentMore (pairSendSeq s type flags body).pair := by
  unfold pairSendSeq
  exact List.foldlRecOn (motive := fun u => s.pair.sentMore u.pair) _ _ .rfl
    fun u h b _ => h.trans (sentMore_pairSendOn u _ _ _ _)

/-- A change of role is told to the partner, and nothing else of the pair changes. -/
theorem sentMore_setRole (s : State) (r : Nat) : { s.pair with role := r }.sentMore (setRole s r).pair := by
  let u : State := { s with pair := { s.pair with role := r }
                            cams := { s.cams with noCamera := s.cams.noCamera && (r == 0 || r == 3) } }
  have shown : (gpioShow s (ptcSource u)).pair = u.pair :=
    (gpioShow_evolves (m := 8388864) _ _ rfl (ptcSource_evolves u rfl .rfl)).same .pair rfl
  change PairSt.sentMore _ (if pairMode (gpioShow s (ptcSource u)) then
    pairSendSeq (gpioShow s (ptcSource u)) 0x01 0 (helloBody (gpioShow s (ptcSource u))) else gpioShow s (ptcSource u)).pair
  split
  · have sent := sentMore_pairSendSeq (gpioShow s (ptcSource u)) 0x01 0 (helloBody (gpioShow s (ptcSource u)))
    rw [shown] at sent
    exact sent
  · rw [shown]
    exact .rfl

/-! ### Joining -/

theorem pairLink_of_links (h : t.links = s.links) : pairLink t = pairLink s := by
  have active : laneActive t = laneActive s := funext fun l => by rw [laneActive, getLane_of_links h, laneActive]
  rw [pairLink, pairLanes, active, pairLink, pairLanes]

/-- A joining unit that need not wait begins its join with an active partner. -/
theorem startJoin_begins (joins : s.pair.role = 4) (idle : s.pair.joinStep = 0) (may : s.pair.mustWait = false)
    (partner : peerActive s = true) (link : pairLink s = true) :
    PairSt.sentMore { s.pair with matched := [], catchup := none, catchBars := [], catchChans := [], joinStep := 1, restarts := 0,
                                  posFails := 0 } (startJoin s).pair := by
  have begins : startJoin s = pairSendSeq (setPair (clearRuns s) { (clearRuns s).pair with joinStep := 1, restarts := 0, posFails := 0 })
      0x21 0 (stepMark 1) := if_pos ⟨joins, idle, may, partner, link⟩
  rw [begins]
  exact sentMore_pairSendSeq _ _ _ _

theorem startJoin_waits (waits : s.pair.mustWait = true) : startJoin s = s :=
  if_neg fun h => absurd (waits.symm.trans h.2.2.1) (by decide)

/-- The unit in JOINING, before it begins a join. -/
def joiningState (s : State) : State :=
  let s := clearRuns s
  setRole (setPair s { s.pair with joinStep := 0, verified := false, digest := none, switchPending := false }) 4

theorem enterJoining_eq (s : State) : enterJoining s = startJoin (joiningState s) := rfl

theorem pair_joiningState (s : State) :
    PairSt.sentMore { s.pair with matched := [], catchup := none, catchBars := [], catchChans := [], joinStep := 0, verified := false,
                                  digest := none, switchPending := false, role := 4 } (joiningState s).pair :=
  sentMore_setRole _ 4

theorem joiningState_evolves (s : State) : Evolves 8439104 s (joiningState s) :=
  setRole_evolves _ _ rfl (setPair_evolves _ _ rfl (clearRuns_evolves _ rfl .rfl))

/-! ### Becoming active -/

/-- The epoch that a unit takes on becoming active (R346, R347). -/
def nextEpoch (s : State) : Nat := max (epoch s) (max (peerEpoch s) (rd s (pairA 0x54))) + 1

theorem pair_checkCamera (s : State) : (checkCamera s).pair = s.pair := by
  unfold checkCamera
  dsimp only
  split_ifs
  · rfl
  · exact (fault_below_D _ _ _ _ (by decide) _).same .pair rfl
  · rfl

theorem print_checkCamera (s : State) : (checkCamera s).print = s.print := by
  unfold checkCamera
  dsimp only
  split_ifs
  · rfl
  · exact (fault_below_D _ _ _ _ (by decide) _).same .print rfl
  · rfl

/-- The state of a unit with a new epoch, before it changes role. -/
def claimedState (s : State) (e : Nat) : State :=
  let s := clearRuns (wr (wr s (pairA 0x4C) e) (pairA 0x54) e)
  let s := setPair s { s.pair with joinStep := 0, verified := false, switchPending := false, soloWait := false,
                                   safe := false, mustWait := false, digest := none }
  { s with host := { s.host with arpLeft := 3 } }

theorem becomeActive_eq (fits : nextEpoch s ≤ 0xFFFFFF) :
    becomeActive s = resumeAxes (slowSync (checkCamera (setRole (claimedState s (nextEpoch s)) 3))) :=
  if_neg (Nat.not_lt.2 fits)

theorem pair_becomeActive (fits : nextEpoch s ≤ 0xFFFFFF) :
    PairSt.sentMore { s.pair with matched := [], catchup := none, catchBars := [], catchChans := [], joinStep := 0, verified := false,
                                  switchPending := false, soloWait := false, safe := false, mustWait := false, digest := none,
                                  role := 3 } (becomeActive s).pair := by
  have last (u : State) : (resumeAxes (slowSync u)).pair = u.pair :=
    (resumeAxes_evolves (m := 8462400) _ rfl (slowSync_evolves u rfl .rfl)).same .pair rfl
  rw [becomeActive_eq fits, last, pair_checkCamera]
  exact sentMore_setRole _ 3

theorem rd_becomeActive (fits : nextEpoch s ≤ 0xFFFFFF) {a : Nat} (h : a % 4096 ≠ 0x24) :
    rd (becomeActive s) a = rd (wr (wr s (pairA 0x4C) (nextEpoch s)) (pairA 0x54) (nextEpoch s)) a := by
  have last (u : State) : rd (resumeAxes (slowSync u)) a = rd u a :=
    (resumeAxes_evolves (m := 8462400) _ rfl (slowSync_evolves u rfl .rfl)).rd_eq rfl a
  rw [becomeActive_eq fits, last, rd_checkCamera _ h, rd_setRole]
  rfl

theorem epoch_becomeActive (fits : nextEpoch s ≤ 0xFFFFFF) :
    epoch (becomeActive s) = nextEpoch s ∧ rd (becomeActive s) (pairA 0x54) = nextEpoch s := by
  have small : nextEpoch s % 2 ^ 32 = nextEpoch s := Nat.mod_eq_of_lt (fits.trans_lt (by decide))
  refine ⟨?_, ?_⟩
  · have word : epoch (becomeActive s) = rd (wr (wr s (pairA 0x4C) (nextEpoch s)) (pairA 0x54) (nextEpoch s)) (pairA 0x4C) :=
      rd_becomeActive fits (by decide)
    rw [word, rd_wr, if_neg (by decide), rd_wr_same, small]
  · rw [rd_becomeActive fits (by decide), rd_wr_same, small]

/-! ### Inputs of the active -/

/-- An input that the active takes waits as its own. -/
theorem pair_takeInput (s : State) (kind bar : Nat) (line : Option Nat) (payload : List Byte) :
    ∃ i : PairInput, PairSt.sentMore { s.pair with inputs := s.pair.inputs ++ [i] } (takeInput s kind bar line payload).pair ∧
      i.kind = kind ∧ i.own = true ∧ i.bar = bar ∧ i.payload = payload := by
  have sent (body : List Byte) : s.pair.sentMore (pairSendSeq (count s pgPair 3) 0x10 0 body).pair := by
    have more := sentMore_pairSendSeq (count s pgPair 3) 0x10 0 body
    rwa [show (count s pgPair 3).pair = s.pair by simp only [count_fields]] at more
  unfold takeInput
  dsimp only
  split
  · obtain ⟨n, us, on, e⟩ := sent (inputBody kind (applyLine s bar line).2 false (applyLine s bar line).1 bar payload)
    rw [e]
    exact ⟨_, ⟨_, _, _, rfl⟩, rfl, rfl, rfl, rfl⟩
  · exact ⟨_, .rfl, rfl, rfl, rfl, rfl⟩

/-! ### Events without sessions -/

/-- Nothing of the host's is kept: no session is open, and the journal is empty. -/
def hostEmpty (s : State) : Prop := s.host.sessions = [] ∧ s.host.journal = []

theorem hostEmpty_of_host (h : hostEmpty s) (e : t.host = s.host) : hostEmpty t := by
  rw [hostEmpty, e]
  exact h

theorem hostEmpty_count (h : hostEmpty s) (p k : Nat) : hostEmpty (count s p k) :=
  hostEmpty_of_host h (by simp only [count_fields])

theorem sendEvent_none (h : hostEmpty s) (n : Nat) : sendEvent s n = s := by
  have closed : getSession s n = {} := by rw [getSession, h.1, tget_nil]
  unfold sendEvent
  rw [closed]
  refine if_neg ?_
  simp

theorem sendEvents_none (h : hostEmpty s) : sendEvents s = s := by
  unfold sendEvents
  split
  · refine List.foldlRecOn (motive := fun u => u = s) _ _ rfl fun u hu i _ => ?_
    rw [hu]
    exact sendEvent_none h _
  · rfl

theorem hostEmpty_msix (h : hostEmpty s) (v : Nat) : hostEmpty (msix s v) := by
  unfold msix
  split <;> exact h

theorem hostEmpty_signalMsix (h : hostEmpty s) : hostEmpty (signalMsix s) := by
  unfold signalMsix
  dsimp only
  split
  · exact hostEmpty_msix (s := setEvc s { s.evc with msixHeld := true }) h _
  · exact hostEmpty_count (hostEmpty_msix h _) _ _

theorem hostEmpty_setFlag (h : hostEmpty s) (n : Nat) : hostEmpty (setFlag s n) := by
  have flagged : hostEmpty (setEvc s { s.evc with flags := s.evc.flags ||| 2 ^ n }) := h
  have pin := hostEmpty_of_host flagged
    ((hostPin_evolves s (setEvc s { s.evc with flags := s.evc.flags ||| 2 ^ n }) (m := 8388672) rfl .rfl).same .host rfl)
  unfold setFlag
  dsimp only
  split
  · exact h
  · split
    · split
      · rw [sendEvents_none (hostEmpty_signalMsix pin)]
        exact hostEmpty_signalMsix pin
      · rw [sendEvents_none pin]
        exact pin
    · exact flagged

theorem hostEmpty_ev (h : hostEmpty s) (p b : Nat) : hostEmpty (ev s p b) := by
  have pended : hostEmpty (wr s (ra p 0x24) (evPend s p ||| 2 ^ b)) := h
  unfold ev evBits notify
  dsimp only
  split
  · split
    · exact hostEmpty_setFlag pended _
    · exact pended
  · exact pended

theorem hostEmpty_fault (h : hostEmpty s) (code page bar : Nat) {cls : Nat} (low : cls ≠ 3) (d : List Nat) :
    hostEmpty (fault s code cls page bar d) := by
  have armed (u : State) (c : Prop) [Decidable c] (e : hostEmpty u) : hostEmpty (if c then armSnapshot u 2 else u) := by
    split <;> exact e
  have entered (r : FaultRecord) : hostEmpty (nvEnter (ramEnter s r) r) :=
    hostEmpty_of_host h ((nvEnter_evolves _ _ (m := 1048640) rfl (ramEnter_evolves s r rfl .rfl)).same .host rfl)
  simp only [fault, faultAt, if_neg low]
  exact armed _ _ (hostEmpty_ev (hostEmpty_ev (hostEmpty_count (entered _) _ _) _ _) _ _)

theorem hostEmpty_checkCamera (h : hostEmpty s) : hostEmpty (checkCamera s) := by
  unfold checkCamera
  dsimp only
  split_ifs
  · exact h
  · refine hostEmpty_fault ?_ _ _ _ (by decide) _
    exact h
  · exact h

/-- Becoming active opens no session and enters no command. -/
theorem hostEmpty_becomeActive (h : hostEmpty s) (fits : nextEpoch s ≤ 0xFFFFFF) : hostEmpty (becomeActive s) := by
  have claimed : hostEmpty (claimedState s (nextEpoch s)) := h
  have role : hostEmpty (setRole (claimedState s (nextEpoch s)) 3) :=
    hostEmpty_of_host claimed ((setRole_evolves (m := 8438080) _ _ rfl .rfl).same .host rfl)
  rw [becomeActive_eq fits]
  exact hostEmpty_of_host (hostEmpty_checkCamera role)
    ((resumeAxes_evolves (m := 8462400) _ rfl (slowSync_evolves _ rfl .rfl)).same .host rfl)

theorem print_becomeActive (fits : nextEpoch s ≤ 0xFFFFFF) :
    (becomeActive s).print = { s.print with ownCrcs := [], peerCrcs := [] } := by
  have last (u : State) : (resumeAxes (slowSync u)).print = u.print :=
    (resumeAxes_evolves (m := 8462400) _ rfl (slowSync_evolves u rfl .rfl)).same .print rfl
  rw [becomeActive_eq fits, last, print_checkCamera, (setRole_evolves (m := 8438080) _ _ rfl .rfl).same .print rfl]
  rfl

/-! ### SOLO from JOINING -/

/-- The words of the pair stay the unit's own (R356). -/
theorem rd_clearCopied (s : State) {a : Nat} (own : copiedWord a = false) : rd (clearCopied s) a = rd s a := by
  have kept : tget regReset (s.regs.filter (fun e => !copiedWord e.1)) a = tget regReset s.regs a := by
    rw [tget_filter regReset s.regs (fun k => !copiedWord k), own]
    rfl
  rw [rd, rd, ← kept]
  rfl

theorem pairWord_own {o : Nat} (h : o < 4096) : copiedWord (pairA o) = false := by
  have page : pairA o / 4096 = pgPair := by
    unfold pairA ra
    omega
  have low : ¬0x400000 ≤ pairA o := by
    unfold pairA ra pgPair
    omega
  unfold copiedWord
  dsimp only
  rw [if_neg low, page, if_pos (by decide)]

/-- Of the stopped unit, the journal, the sessions and what the pair has sent are discarded. -/
def hostDropped (s : State) : State :=
  let s := clearRuns s
  let s := { s with host := { s.host with sessions := [], journal := [] } }
  setPair s { s.pair with joinStep := 0, inputs := [] }

theorem hostDropped_leaves (s : State) :
    (hostDropped s).regs = s.regs ∧ hostEmpty (hostDropped s) ∧ (hostDropped s).pair.inputs = [] ∧
      (hostDropped s).print.jobs = s.print.jobs ∧ (hostDropped s).print.tiles = s.print.tiles :=
  ⟨rfl, ⟨rfl, rfl⟩, rfl, rfl, rfl⟩

/-- The loss of the journal is counted (R83). -/
def lossCounted (s : State) : State := wr s (ra pgJrn 0x44) (rd s (ra pgJrn 0x44) + 1)

theorem lossCounted_leaves (s : State) :
    (lossCounted s).host = s.host ∧ (lossCounted s).pair = s.pair ∧ (lossCounted s).print = s.print := ⟨rfl, rfl, rfl⟩

theorem soloReset_eq (s : State) :
    let u := lossCounted (hostDropped (stopBars (clearCopied s) (List.range 8)))
    soloReset s = fault u 0x0202 1 pgJrn noBar [rd u (ra pgJrn 0x44)] := rfl

theorem rd_soloReset (s : State) {o : Nat} (h : o < 4096) : rd (soloReset s) (pairA o) = rd s (pairA o) := by
  have other {q b : Nat} (hq : q < pgPair) (hb : b < 4096) : pairA o ≠ ra q b := by
    unfold pairA ra
    omega
  have stopped (u : State) : rd (stopBars u (List.range 8)) (pairA o) = rd u (pairA o) :=
    (stopBars_evolves (m := 1024) _ _ rfl .rfl).rd_eq rfl _
  have dropped (u : State) : rd (hostDropped u) (pairA o) = rd u (pairA o) := rfl
  rw [soloReset_eq, rd_fault _ _ _ _ (by decide) _ (other (by decide) (by decide)) (other (by decide) (by decide)), lossCounted,
    rd_wr, if_neg (other (by decide) (by decide)), dropped, stopped, rd_clearCopied s (pairWord_own h)]

theorem soloReset_leaves (s : State) :
    hostEmpty (soloReset s) ∧ (soloReset s).pair.inputs = [] ∧ (soloReset s).print.jobs = [] ∧ (soloReset s).print.tiles = [] := by
  obtain ⟨noTiles, noJobs⟩ := stopBars_leaves (clearCopied s) (List.range 8)
  rw [soloReset_eq]
  generalize stopBars (clearCopied s) (List.range 8) = v at *
  obtain ⟨-, empty, inputs, jobs, tiles⟩ := hostDropped_leaves v
  obtain ⟨host, pair, print⟩ := lossCounted_leaves (hostDropped v)
  generalize lossCounted (hostDropped v) = u at *
  have step : Evolves 11669569 u (fault u 0x0202 1 pgJrn noBar [rd u (ra pgJrn 0x44)]) := fault_below_D _ _ _ _ (by decide) _
  rw [step.same .print rfl, step.same .pair rfl, print, pair, inputs, jobs, tiles, noJobs, noTiles]
  exact ⟨hostEmpty_fault (hostEmpty_of_host empty host) _ _ _ (by decide) _, rfl, rfl, rfl⟩

end Sys2Proof.Machine

namespace Sys2Proof.Proofs
open Sys2Proof Sys2Proof.Machine

theorem isHeader_pair : isHeader pgPair = true := by decide

/-- Settles O40: each command of PAIR.CMD in the roles that take it, and its refusal in every other. -/
theorem pairCommands : Obligations.PairCommands := by
  refine ⟨fun s rq v c command open_ wrong => ?_, fun s rq open_ active verified => ⟨fun pending => ?_, fun free => ?_⟩,
    fun s rq open_ => ?_, fun s rq open_ partner link => ⟨fun joins idle => ?_, fun demoted running => ?_⟩,
    fun s rq open_ standby => ?_⟩
  · refine ⟨refuse s pgPair, ?_, refuse_leaves s isHeader_pair⟩
    simp only [List.mem_cons, List.not_mem_nil, or_false, Prod.mk.injEq] at command
    rcases command with ⟨rfl, rfl⟩ | ⟨rfl, rfl⟩ | ⟨rfl, rfl⟩ | ⟨rfl, rfl⟩
    · have other : ¬(s.pair.role = 2 ∧ s.pair.verified = true) := by simpa using wrong
      simp only [exec, execSwitch, gated_of_admitted open_, requestSwitch]
      rw [if_neg other]
    · simp only [exec, execSolo, gated_of_admitted open_]
      rw [if_neg, if_neg]
      · rintro joins
        simp [joins] at wrong
      · rintro ⟨forming, free⟩
        simp [forming] at wrong
        simp [wrong] at free
    · simp only [exec, execJoin, gated_of_admitted open_]
      rw [if_neg, if_neg]
      · rintro ⟨demoted, -⟩
        simp [demoted] at wrong
      · rintro ⟨joins, -⟩
        simp [joins] at wrong
    · have other : s.pair.role ≠ 5 := by simpa using wrong
      simp only [exec, execLeave, gated_of_admitted open_]
      rw [if_neg other]
  · simp only [exec, execSwitch, gated_of_admitted open_, requestSwitch]
    rw [if_pos ⟨active, verified⟩, if_pos pending]
  · let u := setPair s { s.pair with switchPending := true }
    obtain ⟨i, ⟨n, us, on, pair⟩, kind, own, bar, -⟩ := pair_takeInput u 11 (refBar s) none []
    have words : epoch (takeInput u 11 (refBar s) none []) = epoch u :=
      (takeInput_evolves (m := 8421440) _ _ _ _ _ rfl .rfl).rd_eq rfl _
    refine ⟨takeInput u 11 (refBar s) none [], ?_, by rw [pair]; rfl, by rw [pair]; exact active, words, i, by rw [pair]; rfl, kind, own, bar⟩
    simp only [exec, execSwitch, gated_of_admitted open_, requestSwitch]
    rw [if_pos ⟨active, verified⟩, if_neg (by rw [free]; decide)]
  · intro e fits
    refine ⟨fun forming free => ?_, fun joins => ?_⟩
    · obtain ⟨n, us, on, pair⟩ := pair_becomeActive (s := s) fits
      refine ⟨becomeActive s, ?_, by rw [pair], epoch_becomeActive fits⟩
      simp only [exec, execSolo, gated_of_admitted open_]
      rw [if_pos ⟨forming, free⟩]
    · obtain ⟨empty, inputs, jobs, tiles⟩ := soloReset_leaves s
      have same : nextEpoch (soloReset s) = e := by
        rw [nextEpoch, rd_soloReset s (by decide),
          show epoch (soloReset s) = epoch s from rd_soloReset s (o := 0x4C) (by decide),
          show peerEpoch (soloReset s) = peerEpoch s from rd_soloReset s (by decide)]
      have fits' : nextEpoch (soloReset s) ≤ 0xFFFFFF := by rw [same]; exact fits
      obtain ⟨n, us, on, pair⟩ := pair_becomeActive fits'
      obtain ⟨sessions, journal⟩ := hostEmpty_becomeActive empty fits'
      refine ⟨becomeActive (soloReset s), ?_, by rw [pair], (epoch_becomeActive fits').1.trans same, by rw [pair]; exact inputs, journal,
        sessions, by rw [print_becomeActive fits']; exact jobs, by rw [print_becomeActive fits']; exact tiles⟩
      simp only [exec, execSolo, gated_of_admitted open_]
      rw [if_neg (by rw [joins]; simp), if_pos joins]
  · let u := setPair s { s.pair with mustWait := false }
    obtain ⟨n, us, on, pair⟩ := startJoin_begins (s := u) joins idle rfl partner link
    refine ⟨startJoin u, ?_, by rw [pair]; exact joins, by rw [pair], by rw [pair]; rfl⟩
    simp only [exec, execJoin, gated_of_admitted open_]
    rw [if_pos ⟨joins, idle⟩]
  · let u := setPair s { s.pair with mustWait := false }
    obtain ⟨n, us, on, joining⟩ := pair_joiningState u
    have links : (joiningState u).links = s.links := (joiningState_evolves u).same .links rfl
    obtain ⟨n', us', on', pair⟩ := startJoin_begins (s := joiningState u) (by rw [joining]) (by rw [joining]) (by rw [joining]; rfl)
      (by rw [peerActive, joining]; exact partner) (by rw [pairLink_of_links links]; exact link)
    refine ⟨enterJoining u, ?_, ?_, ?_, ?_⟩
    · simp only [exec, execJoin, gated_of_admitted open_]
      rw [if_neg (by rw [demoted]; simp), if_pos ⟨demoted, running, partner, link⟩]
    · rw [enterJoining_eq, pair, joining]
    · rw [enterJoining_eq, pair]
    · rw [enterJoining_eq, pair, joining]
      rfl
  · let u := setPair s { s.pair with mustWait := true }
    obtain ⟨n, us, on, joining⟩ := pair_joiningState u
    have waits : enterJoining u = joiningState u := startJoin_waits (s := joiningState u) (by rw [joining]; rfl)
    refine ⟨enterJoining u, ?_, ?_, ?_, ?_, ?_, ?_⟩
    · simp only [exec, execLeave, gated_of_admitted open_]
      rw [if_pos standby]
    · rw [waits, joining]
    · rw [waits, joining]
    · rw [waits, joining]
      rfl
    · rw [waits, joining]
    · rw [waits]
      exact (joiningState_evolves u).rd_eq rfl _

end Sys2Proof.Proofs
end

section
/-! PROOFS. PairInputs (R348, R349, R373, R374, R378): messages in their turn, and the inputs that they bring and that come due. -/

namespace Sys2Proof.Machine
open Sys2Proof

variable {s t : State} {m : PairRx}

/-! ### A message in its turn -/

/-- A message in its turn has been counted, and its number is the last. -/
def arrived (s : State) (m : PairRx) : State :=
  setPair (pairCounted s m) { s.pair with rxSeq := nextSeq s.pair.rxSeq }

theorem pair_arrived (s : State) (m : PairRx) : (arrived s m).pair = { s.pair with rxSeq := nextSeq s.pair.rxSeq } := rfl

theorem arrived_evolves (s : State) (m : PairRx) : Evolves 32832 s (arrived s m) :=
  setPair_evolves _ _ rfl ((pairCounted_evolves s m).mono rfl)

theorem only_arrived (s : State) (m : PairRx) : onlyChanges [.counters, .pair] s (arrived s m) :=
  (arrived_evolves s m).only (by decide)

/-- It is delivered, and with none held ahead of its turn nothing follows it (R343). -/
theorem exec_in_turn {x : Nat × (PairRx → Instr)} (h : x ∈ pairSequenced) (turn : pairInTurn s m x.1)
    (quiet : (deliverPair (arrived s m) x.1 (pairBody m.bytes)).pair.early = []) :
    exec (x.2 m) s = .next (deliverPair (arrived s m) x.1 (pairBody m.bytes)) := by
  obtain ⟨heard, next, -, -⟩ := turn
  have same : setPair (pairCounted s m) { (pairCounted s m).pair with rxSeq := bytesAt m.bytes 4 4 } = arrived s m := by
    rw [pair_pairCounted, next]
    rfl
  rw [exec_sequenced h heard, inOrder_in_turn (by rw [pair_pairCounted]; exact next), same]
  dsimp only
  rw [quiet]
  rfl

/-! ### Inputs that arrive -/

theorem setPair_partial (u : State) (h : u.pair.partial_ = none) : setPair u { u.pair with partial_ := none } = u := by
  have same : { u.pair with partial_ := none } = u.pair := by rw [← h]
  rw [same]
  rfl

/-- A whole INPUT message in its turn is taken at once. -/
theorem deliver_input {b : List Byte} (turn : pairInTurn s m 0x10) (whole : 12 + bytesAt b 2 2 ≤ b.length) :
    deliverPair (arrived s m) 0x10 b = onInput (arrived s m) b := by
  obtain ⟨-, -, -, single⟩ := turn
  have none_ : (arrived s m).pair.partial_ = none := single
  unfold deliverPair
  rw [if_neg (by decide), if_pos (.inl rfl), none_]
  dsimp only
  rw [wholeLength, if_pos rfl, if_neg (Nat.not_lt.2 whole), setPair_partial _ none_]
  exact if_pos rfl

theorem exec_input (turn : pairInTurn s m 0x10) (whole : 12 + bytesAt (pairBody m.bytes) 2 2 ≤ (pairBody m.bytes).length)
    (quiet : (onInput (arrived s m) (pairBody m.bytes)).pair.early = []) :
    exec (.input m) s = .next (onInput (arrived s m) (pairBody m.bytes)) := by
  rw [← deliver_input turn whole] at quiet ⊢
  exact exec_in_turn (x := (0x10, .input)) (by simp [pairSequenced]) turn quiet

theorem early_arrived (turn : pairInTurn s m type) : (arrived s m).pair.early = [] := turn.2.2.1

/-- What the cameras of the unit have measured stays (R306). -/
theorem measuredHere_arrived (s : State) (m : PairRx) (kind : Nat) (p : List Byte) :
    measuredHere (arrived s m) kind p = measuredHere s kind p := by
  have step := arrived_evolves s m
  have cams : (arrived s m).cams = s.cams := step.same .cams rfl
  have period : loopPeriod (arrived s m) = loopPeriod s := by rw [loopPeriod, rdf, step.rd_eq rfl, loopPeriod, rdf]
  have measures (w : Nat) : ownMeasures (arrived s m) w = ownMeasures s w := by rw [ownMeasures, cams, ownMeasures]
  unfold measuredHere
  rw [cams, period]
  simp only [measures]

theorem onInput_held {b : List Byte} (direct : bitOf (bytesAt b 1 1) 1 = false) (kind : bytesAt b 0 1 ≠ 1) (standby : s.pair.role = 5) :
    onInput s b = setPair s { s.pair with inputs := s.pair.inputs ++
      [{ kind := bytesAt b 0 1, late := bitOf (bytesAt b 1 1) 0, apply := bytesAt b 4 6, bar := bytesAt b 0xA 1 % 8,
         payload := b.drop 12, seq := 0, own := false }] } := by
  unfold onInput
  dsimp only
  rw [if_neg (by rw [direct]; decide), if_pos (.inl standby), if_neg (fun h => kind h.1)]

theorem onInput_ignored {b : List Byte} (direct : bitOf (bytesAt b 1 1) 1 = false) (standby : s.pair.role ≠ 5) (joins : s.pair.role ≠ 4) :
    onInput s b = s := by
  unfold onInput
  dsimp only
  rw [if_neg (by rw [direct]; decide), if_neg (by simp [standby, joins])]

theorem onInput_proposed {b : List Byte} (proposal : bitOf (bytesAt b 1 1) 1 = true) (active : isActive s = true)
    (own : measuredHere s (bytesAt b 0 1) (b.drop 12) = false) :
    onInput s b = takeInput s (bytesAt b 0 1) (bytesAt b 0xA 1 % 8) (proposedLine (bytesAt b 0 1) (b.drop 12)) (b.drop 12) := by
  unfold onInput
  dsimp only
  rw [if_pos proposal, if_neg (by simp [active, own])]

theorem onInput_dropped {b : List Byte} (proposal : bitOf (bytesAt b 1 1) 1 = true)
    (idle : isActive s = false ∨ measuredHere s (bytesAt b 0 1) (b.drop 12) = true) : onInput s b = s := by
  unfold onInput
  dsimp only
  rw [if_pos proposal, if_pos idle]

/-! ### Inputs that come due -/

theorem takeDue_none {xs : List PairInput} (h : ∀ x ∈ xs, dueHere s x = false) : takeDue s xs = none := by
  induction xs with
  | nil => rfl
  | cons x xs ih =>
    obtain ⟨waits, others⟩ := List.forall_mem_cons.1 h
    rw [takeDue, if_neg (by rw [waits]; decide), ih others]
    rfl

theorem takeDue_first {xs : List PairInput} {i : PairInput} (h : ∀ x ∈ xs, dueHere s x = false) (due : dueHere s i = true)
    (ys : List PairInput) : takeDue s (xs ++ i :: ys) = some (i, xs ++ ys) := by
  induction xs with
  | nil => exact if_pos due
  | cons x xs ih =>
    obtain ⟨waits, others⟩ := List.forall_mem_cons.1 h
    rw [List.cons_append, takeDue, if_neg (by rw [waits]; decide), ih others]
    rfl

/-! ### SWITCH -/

/-- The unit at the next epoch, before it changes role (R373, R374). -/
def switchState (s : State) (e : Nat) : State :=
  let s := setPair s { s.pair with switchPending := false }
  let s := wr (wr s (pairA 0x4C) e) (pairA 0x54) e
  let s := count (ev (clearRuns s) pgPair 14) pgPair 11
  setPair s { s.pair with digest := none }

theorem applySwitch_eq (role : s.pair.role = 2 ∨ s.pair.role = 5) (fits : epoch s < 0xFFFFFF) :
    applySwitch s = if s.pair.role == 5 then
        resumeAxes (slowSync (setRole { switchState s (epoch s + 1) with
          host := { (switchState s (epoch s + 1)).host with arpLeft := 3 } } 2))
      else setRole (switchState s (epoch s + 1)) 5 := by
  have other : ¬((setPair s { s.pair with switchPending := false }).pair.role ≠ 2 ∧
      (setPair s { s.pair with switchPending := false }).pair.role ≠ 5) := fun h => role.elim h.1 h.2
  unfold applySwitch
  dsimp only
  rw [if_neg other, if_neg (by omega)]
  rfl

theorem pair_switchState (s : State) (e : Nat) :
    (switchState s e).pair = { s.pair with switchPending := false, matched := [], catchup := none, catchBars := [], catchChans := [],
                                           digest := none } := by
  have kept (u : State) : (count (ev u pgPair 14) pgPair 11).pair = u.pair :=
    (count_evolves (m := 8523841) _ _ _ rfl (ev_evolves u _ _ rfl .rfl)).same .pair rfl
  unfold switchState
  dsimp only [setPair]
  rw [kept]
  rfl

theorem rd_switchState (s : State) (e : Nat) {a : Nat} (h : a ≠ pairA 0x24) :
    rd (switchState s e) a = rd (wr (wr s (pairA 0x4C) e) (pairA 0x54) e) a := by
  have kept (u : State) : rd (count (ev u pgPair 14) pgPair 11) a = rd u a := by
    rw [(count_evolves (m := 64) _ _ _ rfl .rfl).rd_eq rfl]
    exact wordsKept_ev u pgPair 14 a (by simpa [pairA] using h)
  exact kept _

/-- A SWITCH that applies gives the unit the other role at the next epoch. -/
theorem applySwitch_exchanges {role other : Nat} (roles : (role, other) ∈ [(2, 5), (5, 2)]) (has : s.pair.role = role)
    (fits : epoch s < 0xFFFFFF) :
    (applySwitch s).pair.role = other ∧ epoch (applySwitch s) = epoch s + 1 ∧
      rd (applySwitch s) (pairA 0x54) = epoch s + 1 ∧ (applySwitch s).pair.inputs = s.pair.inputs := by
  have small : (epoch s + 1) % 2 ^ 32 = epoch s + 1 := Nat.mod_eq_of_lt (by omega)
  have words (a : Nat) (h : a ≠ pairA 0x24) (v : State) (same : v.regs = (switchState s (epoch s + 1)).regs) :
      rd (setRole v other) a = rd (wr (wr s (pairA 0x4C) (epoch s + 1)) (pairA 0x54) (epoch s + 1)) a := by
    rw [rd_setRole, rd, same]
    exact rd_switchState s _ h
  have epochs (v : State) (same : v.regs = (switchState s (epoch s + 1)).regs) :
      epoch (setRole v other) = epoch s + 1 ∧ rd (setRole v other) (pairA 0x54) = epoch s + 1 := by
    refine ⟨(words (pairA 0x4C) (by decide) v same).trans ?_, (words (pairA 0x54) (by decide) v same).trans ?_⟩
    · rw [rd_wr, if_neg (by decide), rd_wr_same, small]
    · rw [rd_wr_same, small]
  have pairs (v : State) (same : v.pair = (switchState s (epoch s + 1)).pair) :
      (setRole v other).pair.role = other ∧ (setRole v other).pair.inputs = s.pair.inputs := by
    obtain ⟨n, us, on, e⟩ := sentMore_setRole v other
    rw [e, same, pair_switchState]
    exact ⟨rfl, rfl⟩
  simp only [List.mem_cons, List.not_mem_nil, or_false, Prod.mk.injEq] at roles
  rcases roles with ⟨rfl, rfl⟩ | ⟨rfl, rfl⟩
  · rw [applySwitch_eq (.inl has) fits, if_neg (by rw [has]; decide)]
    obtain ⟨e, keep⟩ := epochs _ rfl
    obtain ⟨r, i⟩ := pairs _ rfl
    exact ⟨r, e, keep, i⟩
  · rw [applySwitch_eq (.inr has) fits, if_pos (by rw [has]; decide)]
    let v : State := { switchState s (epoch s + 1) with host := { (switchState s (epoch s + 1)).host with arpLeft := 3 } }
    obtain ⟨e, keep⟩ := epochs v rfl
    obtain ⟨r, i⟩ := pairs v rfl
    have last : Evolves 8462400 (setRole v 2) (resumeAxes (slowSync (setRole v 2))) :=
      resumeAxes_evolves _ rfl (slowSync_evolves _ rfl .rfl)
    have word : epoch (resumeAxes (slowSync (setRole v 2))) = epoch (setRole v 2) := last.rd_eq rfl _
    rw [word, last.rd_eq rfl, last.same .pair rfl]
    exact ⟨r, e, keep, i⟩

end Sys2Proof.Machine

namespace Sys2Proof.Proofs
open Sys2Proof Sys2Proof.Machine

/-- Settles O41: what an INPUT message becomes at each unit, the first input that is due, and the inputs CHECK and SWITCH. -/
theorem pairInputs : Obligations.PairInputs := by
  refine ⟨fun s m turn => ?_, fun s => ⟨fun waits => ?_, fun xs ys i held before_ due => ?_⟩, fun s => ⟨fun alone => ?_, fun active partner => ?_⟩⟩
  · intro b whole
    have early := early_arrived turn
    have ignored (same : onInput (arrived s m) b = arrived s m) : completes (.input m) s (fun t =>
        t.pair = { s.pair with rxSeq := nextSeq s.pair.rxSeq } ∧ onlyChanges [.counters, .pair] s t) := by
      refine ⟨arrived s m, ?_, rfl, only_arrived s m⟩
      rw [exec_input turn whole (by rw [same]; exact early), same]
    refine ⟨fun direct kind standby => ?_, fun direct standby joins => ignored (onInput_ignored direct standby joins),
      fun proposal active own => ?_, fun proposal idle => ignored (onInput_dropped proposal ?_)⟩
    · have holds := onInput_held (s := arrived s m) direct kind standby
      refine ⟨onInput (arrived s m) b, exec_input turn whole (by rw [holds]; exact early), ?_, ?_⟩
      · rw [holds]
        rfl
      · rw [holds]
        exact (setPair_evolves (m := 32832) _ _ rfl (arrived_evolves s m)).only (by decide)
    · have takes := onInput_proposed (s := arrived s m) proposal active (by rw [measuredHere_arrived]; exact own)
      obtain ⟨i, ⟨n, us, on, pair⟩, kind, mine, -, payload⟩ := pair_takeInput (arrived s m) (bytesAt b 0 1)
        (bytesAt b 0xA 1 % 8) (proposedLine (bytesAt b 0 1) (b.drop 12)) (b.drop 12)
      rw [← takes] at pair
      refine ⟨onInput (arrived s m) b, exec_input turn whole (by rw [pair]; exact early), i, by rw [pair]; rfl, kind, mine, payload,
        by rw [pair]; rfl⟩
    · rw [measuredHere_arrived]
      exact idle
  · simp only [exec, execInputApply]
    rw [takeDue_none waits]
  · intro u
    have taken : takeDue s s.pair.inputs = some (i, xs ++ ys) := by rw [held]; exact takeDue_first before_ due ys
    have runs : exec .inputApply s = .next (applyInput (if i.own then u else count u pgPair 4) i) := by
      simp only [exec, execInputApply]
      rw [taken]
    refine ⟨runs, fun kind fits => ?_⟩
    let v := if i.own then u else count u pgPair 4
    have step : Evolves 64 u v := by
      unfold v
      split
      · exact .rfl
      · exact count_evolves _ _ _ rfl .rfl
    have word : epoch v = epoch s := step.rd_eq rfl _
    have pair : v.pair = u.pair := step.same .pair rfl
    have switches : applyInput v i = applySwitch v := by
      unfold applyInput
      rw [kind]
      rfl
    have exchange (role other : Nat) (roles : (role, other) ∈ [(2, 5), (5, 2)]) (has : s.pair.role = role) :
        completes .inputApply s (fun t => t.pair.role = other ∧ epoch t = epoch s + 1 ∧ rd t (pairA 0x54) = epoch s + 1 ∧
          t.pair.inputs = xs ++ ys) := by
      have done := applySwitch_exchanges roles (s := v) (by rw [pair]; exact has) (by rw [word]; exact fits)
      rw [word, pair] at done
      exact ⟨applySwitch v, by rw [runs, ← switches], done⟩
    exact ⟨exchange 2 5 (by simp), exchange 5 2 (by simp)⟩
  · simp only [exec, execCheckInput]
    rw [if_neg (by rcases alone with h | h <;> rw [h] <;> simp)]
  · let p := leBytes 1 (b2n s.pair.digest.isSome) ++ leBytes 4 (s.pair.digest.getD 0)
    obtain ⟨i, ⟨n, us, on, pair⟩, kind, own, -, -⟩ := pair_takeInput s 10 (refBar s) none p
    refine ⟨takeInput s 10 (refBar s) none p, ?_, i, by rw [pair], kind, own,
      (takeInput_evolves (m := 8421440) _ _ _ _ _ rfl .rfl).only (by decide)⟩
    rw [exec, execCheckInput, if_pos (by rw [active, partner]; rfl)]

end Sys2Proof.Proofs
end

section
/-! PROOFS. PairChecks (R354, R355, R378, R379): what a comparison records and counts, and health reports. -/

namespace Sys2Proof.Machine
open Sys2Proof

variable {s t : State}

/-! ### What messages and records leave of the counters of the pair -/

/-- Messages that the unit sends count in counter 0 of the page only. -/
theorem counter_pairSendSeq (s : State) (type flags : Nat) (body : List Byte) {k : Nat} (hk : 0 < k) (h : k < 128) :
    counter (pairSendSeq s type flags body) pgPair k = counter s pgPair k := by
  have put (u : State) (l q : Nat) (b : List Byte) : counter (pairPut u l type flags q b) pgPair k = counter u pgPair k := by
    rw [pairPut, counter_count, if_neg (by omega), counter_count, if_neg (by simp only [pgPair, pgPrl]; omega)]
    simp
  have on (u : State) (ls : List Nat) (b : List Byte) : counter (pairSendOn u ls type flags b) pgPair k = counter u pgPair k := by
    refine List.foldlRecOn (motive := fun v => counter v pgPair k = counter u pgPair k) _ _ ?_ fun v hv l _ => (put v l _ b).trans hv
    rfl
  unfold pairSendSeq
  exact List.foldlRecOn (motive := fun v => counter v pgPair k = counter s pgPair k) _ _ rfl fun v hv b _ => (on v _ b).trans hv

theorem counter_setRole (s : State) (r : Nat) {k : Nat} (hk : 0 < k) (h : k < 128) :
    counter (setRole s r) pgPair k = counter s pgPair k := by
  let u : State := { s with pair := { s.pair with role := r }
                            cams := { s.cams with noCamera := s.cams.noCamera && (r == 0 || r == 3) } }
  have shown : counter (gpioShow s (ptcSource u)) pgPair k = counter s pgPair k :=
    (gpioShow_evolves (m := 8388864) _ _ rfl (ptcSource_evolves u rfl .rfl)).counter_eq rfl _ _
  change counter (if pairMode (gpioShow s (ptcSource u)) then
    pairSendSeq (gpioShow s (ptcSource u)) 0x01 0 (helloBody (gpioShow s (ptcSource u))) else gpioShow s (ptcSource u)) pgPair k = _
  split
  · rw [counter_pairSendSeq _ _ _ _ hk h, shown]
  · exact shown

theorem counter_startJoin (s : State) {k : Nat} (hk : 0 < k) (h : k < 128) : counter (startJoin s) pgPair k = counter s pgPair k := by
  unfold startJoin
  split
  · exact (counter_pairSendSeq _ _ _ _ hk h).trans rfl
  · rfl

theorem counter_enterJoining (s : State) {k : Nat} (hk : 0 < k) (h : k < 128) :
    counter (enterJoining s) pgPair k = counter s pgPair k := by
  rw [enterJoining_eq, counter_startJoin _ hk h]
  exact (counter_setRole _ _ hk h).trans rfl

theorem counter_setPair (s : State) (p : PairSt) (q j : Nat) : counter (setPair s p) q j = counter s q j := rfl

theorem counter_takeInput (s : State) (kind bar : Nat) (line : Option Nat) (payload : List Byte) {k : Nat} (hk : 3 < k) (h : k < 128) :
    counter (takeInput s kind bar line payload) pgPair k = counter s pgPair k := by
  have sent (body : List Byte) : counter (pairSendSeq (count s pgPair 3) 0x10 0 body) pgPair k = counter s pgPair k := by
    rw [counter_pairSendSeq _ _ _ _ (by omega) h, counter_count, if_neg (by omega)]
  unfold takeInput
  dsimp only
  split
  · exact (counter_setPair _ _ _ _).trans (sent _)
  · exact counter_setPair _ _ _ _

/-- What a record below class D does to the words and the counters: its events, and its count on SYS. -/
theorem faultAt_registers (s : State) (code page bar : Nat) {cls : Nat} (h : cls ≠ 3) (d : List Nat) (w : Option (Nat × Int)) :
    ∃ v : State, v.regs = s.regs ∧ (∀ q j, q ≠ pgSys → j < 128 → counter v q j = counter s q j) ∧
      (faultAt s code cls page bar d w).regs = (ev (ev (count v pgSys cls) pgSys (8 + cls)) page 3).regs ∧
      (faultAt s code cls page bar d w).counters = (ev (ev (count v pgSys cls) pgSys (8 + cls)) page 3).counters := by
  let r := faultRecord s code cls page bar d w
  refine ⟨nvEnter (ramEnter s r) r, ?_, fun q j sys hj => ?_, ?_, ?_⟩
  · exact (nvEnter_evolves (m := 1048640) _ _ rfl (ramEnter_evolves s r rfl .rfl)).same .regs rfl
  · rw [(nvEnter_evolves (m := 1048576) (ramEnter s r) r rfl .rfl).counter_eq rfl]
    refine Eq.trans (b := counter (if s.sys.ramLog.length < 1024 then s else count s pgSys 4) q j) rfl ?_
    split
    · rfl
    · rw [counter_count, if_neg (by simp only [pgSys] at sys ⊢; omega)]
  · simp only [faultAt, if_neg h, apply_ite State.regs, armSnapshot, ite_self]
    rfl
  · simp only [faultAt, if_neg h, apply_ite State.counters, armSnapshot, ite_self]
    rfl

/-! ### The outcomes of a comparison (R354) -/

theorem divergence_keeps (s : State) {cls : Nat} (h : cls < 3) (b n : Nat) :
    (divergence s cls b n).pair = s.pair ∧ recorded s (divergence s cls b n) 0x0A05 cls ∧
      (evPend (divergence s cls b n) pgPair).testBit 12 = true ∧
      ∀ k, k < 128 → counter (divergence s cls b n) pgPair k = counter s pgPair k := by
  let u := ev s pgPair 12
  have event : Evolves 8523841 s u := ev_evolves _ _ _ rfl .rfl
  have record : divergence s cls b n = faultAt u 0x0A05 cls pgPair b [epoch s, peerEpoch s] (some (n, webPos s b)) := by
    rw [divergence]
  obtain ⟨v, words, counts, regs, counters⟩ :=
    faultAt_registers u 0x0A05 pgPair b (cls := cls) (by omega) [epoch s, peerEpoch s] (some (n, webPos s b))
  rw [record]
  refine ⟨?_, recorded_of_keepsLog (.of event (by decide)) (recorded_faultAt ..), ?_, fun k hk => ?_⟩
  · rw [(faultAt_below_D u _ _ _ (by omega) _ _).same .pair rfl, event.same .pair rfl]
  · rw [evPend_of_regs regs]
    refine testBit_evPend_ev (testBit_evPend_ev ?_ _ _) _ _
    rw [evPend_of_regs (s := u) (by simp only [count_fields]; exact words)]
    exact testBit_evPend_raised s pgPair (by decide)
  · rw [counter, counters]
    refine ((counter_ev (by decide) hk _ _ _).trans (counter_ev (by decide) hk _ _ _)).trans ?_
    rw [counter_count, if_neg (by simp only [pgSys, pgPair]; omega), counts _ _ (by decide) hk]
    exact counter_ev (by decide) hk s pgPair 12

/-- An excused line counts in counter 7, and whether it is recorded or not, in no other counter of the pair. -/
theorem excuse_counts (s : State) (b n : Nat) (record : Bool) :
    (excuse s b n record).pair = { s.pair with excused := s.pair.excused + 1 } ∧ counted s (excuse s b n record) pgPair 7 ∧
      ∀ k, k < 128 → k ≠ 7 → counter (excuse s b n record) pgPair k = counter s pgPair k := by
  let u := count s pgPair 7
  let v := setPair u { u.pair with excused := u.pair.excused + 1 }
  have pair : v.pair = { s.pair with excused := s.pair.excused + 1 } := by
    have same : u.pair = s.pair := by simp only [u, count_fields]
    change { u.pair with excused := u.pair.excused + 1 } = _
    rw [same]
  have either : excuse s b n record = v ∨ excuse s b n record = divergence (setBar v b { getBar v b with lastDivA := some n }) 0 b n := by
    unfold excuse
    dsimp only [u, v]
    split_ifs
    · exact .inr rfl
    · exact .inl rfl
  have counts (k : Nat) (hk : k < 128) : counter (excuse s b n record) pgPair k = counter u pgPair k := by
    rcases either with e | e <;> rw [e]
    · rfl
    · exact (divergence_keeps _ (by decide) b n).2.2.2 k hk
  refine ⟨?_, ?_, fun k hk other => ?_⟩
  · rcases either with e | e <;> rw [e]
    · exact pair
    · rw [(divergence_keeps _ (by decide) b n).1]
      exact pair
  · rw [counted, counts 7 (by decide)]
    exact counted_count s pgPair 7
  · rw [counts k hk, counter_count, if_neg (by omega)]

/-- A line that nothing excuses: DIVERGENCE of class B, counted in counter 6. -/
def diverged (s : State) (b n : Nat) : State :=
  let s := divergence (count s pgPair 6) 1 b n
  setPair s { s.pair with diverged := true, matched := [] }

theorem unexplained_eq (s : State) (b n : Nat) :
    unexplained s b n = if (diverged s b n).pair.role = 5 then enterJoining (diverged s b n)
      else if (diverged s b n).pair.role = 4 then restartJoin (diverged s b n) else diverged s b n := rfl

theorem diverged_keeps (s : State) (b n : Nat) :
    (diverged s b n).pair = { s.pair with diverged := true, matched := [] } ∧ recorded s (diverged s b n) 0x0A05 1 ∧
      (evPend (diverged s b n) pgPair).testBit 12 = true ∧ counted s (diverged s b n) pgPair 6 ∧
      ∀ k, k < 128 → k ≠ 6 → counter (diverged s b n) pgPair k = counter s pgPair k := by
  let u := count s pgPair 6
  have step : Evolves 64 s u := count_evolves _ _ _ rfl .rfl
  obtain ⟨pair, record, event, counts⟩ := divergence_keeps u (cls := 1) (by decide) b n
  refine ⟨?_, recorded_of_keepsLog (.of step (by decide)) record, event, ?_, fun k hk other => ?_⟩
  · change { (divergence u 1 b n).pair with diverged := true, matched := [] } = _
    rw [pair, step.same .pair rfl]
  · exact (counts 6 (by decide)).trans (counted_count s pgPair 6)
  · refine (counts k hk).trans ?_
    rw [counter_count, if_neg (by omega)]

theorem recorded_kept {u : State} {code cls : Nat} (h : recorded s t code cls) (g : keepsLog t u) : recorded s u code cls := by
  rw [recorded, g.1, g.2]
  exact h

/-- A unit that enters JOINING keeps what it has to report, whether it begins a join or waits. -/
theorem enterJoining_keeps (s : State) :
    (enterJoining s).pair.role = 4 ∧ (enterJoining s).pair.diverged = s.pair.diverged ∧
      (enterJoining s).pair.scrubErrs = s.pair.scrubErrs ∧ (enterJoining s).pair.digestErr = s.pair.digestErr := by
  obtain ⟨n, us, on, joining⟩ := pair_joiningState s
  rw [enterJoining_eq]
  by_cases h : (joiningState s).pair.role = 4 ∧ (joiningState s).pair.joinStep = 0 ∧ (joiningState s).pair.mustWait = false ∧
      peerActive (joiningState s) = true ∧ pairLink (joiningState s) = true
  · obtain ⟨role, idle, may, partner, link⟩ := h
    obtain ⟨n', us', on', begun⟩ := startJoin_begins role idle may partner link
    rw [begun, joining]
    exact ⟨rfl, rfl, rfl, rfl⟩
  · have waits : startJoin (joiningState s) = joiningState s := if_neg h
    rw [waits, joining]
    exact ⟨rfl, rfl, rfl, rfl⟩

theorem evPend_enterJoining (s : State) (p : Nat) : evPend (enterJoining s) p = evPend s p :=
  evPend_of_regs ((enterJoining_evolves (m := 8439104) s rfl .rfl).same .regs rfl) p

/-- The outcome of a line of which the partner's flags are clear, by the unit's own flags (table of R354). -/
theorem lineDiffers_clear (s : State) (e : CrcEntry) :
    lineDiffers s e false false =
      if isActive s = true then
        if e.persistent = true then requestSwitch (excuse s e.bar e.line false)
        else if e.transient = true then excuse s e.bar e.line true else unexplained s e.bar e.line
      else if e.persistent = true ∨ e.transient = false then unexplained s e.bar e.line else excuse s e.bar e.line true := by
  unfold lineDiffers
  cases isActive s <;> cases e.persistent <;> cases e.transient <;> simp

/-- A planned switch-over of a verified pair is asked for. -/
theorem requestSwitch_pending (active : s.pair.role = 2) (verified : s.pair.verified = true) :
    (requestSwitch s).pair.switchPending = true ∧
      ∀ k, 3 < k → k < 128 → counter (requestSwitch s) pgPair k = counter s pgPair k := by
  unfold requestSwitch
  rw [if_pos ⟨active, verified⟩]
  split
  · next pending => exact ⟨pending, fun k _ _ => rfl⟩
  · obtain ⟨i, ⟨n, us, on, pair⟩, -⟩ := pair_takeInput (setPair s { s.pair with switchPending := true }) 11 (refBar s) none []
    refine ⟨by rw [pair]; rfl, fun k low high => ?_⟩
    rw [counter_takeInput _ _ _ _ _ low high, counter_setPair]

/-! ### Lines that match (R361, R362) -/

theorem bars_setRole (s : State) (r : Nat) : (setRole s r).print = s.print :=
  (setRole_evolves (m := 8438080) s r rfl .rfl).same .print rfl

/-- The join that a matching line completes changes no bar. -/
theorem bars_becomeReady (s : State) (verified : Bool) : (becomeReady s verified).print.bars = s.print.bars := by
  have event (u : State) : (ev u pgPair 10).print = u.print := (ev_evolves (m := 8523841) u _ _ rfl .rfl).same .print rfl
  unfold becomeReady
  dsimp only
  rw [event, bars_setRole]
  rfl

theorem bars_lineMatched (s : State) (b : Nat) : (lineMatched s b).print.bars = s.print.bars := by
  unfold lineMatched
  dsimp only
  split_ifs
  · exact bars_becomeReady _ _
  all_goals rfl

/-! ### A wait that ends (R355) -/

theorem dropped_counts (s : State) (e : CrcEntry) :
    let u := count (dropLine s e) pgPair 5
    u.pair = s.pair ∧ counted s u pgPair 5 ∧ (∀ k, k ≠ 5 → counter u pgPair k = counter s pgPair k) ∧ keepsLog s u := by
  intro u
  have step : Evolves 64 (dropLine s e) u := count_evolves _ _ _ rfl .rfl
  refine ⟨step.same .pair rfl, counted_count (dropLine s e) pgPair 5, fun k other => ?_, keepsLog.trans (t := dropLine s e) ⟨rfl, rfl⟩ (.of step (by decide))⟩
  rw [counter_count, if_neg (by omega)]
  rfl

/-! ### Entries of the partner -/

/-- The entries of a CRC message that this unit compares (R353). -/
def comparable (s : State) (body : List Byte) : List CrcEntry :=
  (crcEntries body).filter (fun e => decide (e.bar < 8) && verifying s e.bar e.line)

/-- Without entries of its own the unit holds those of the partner. -/
theorem onCrc_held (body : List Byte) (h : s.print.ownCrcs = []) :
    onCrc s body = { s with print := { s.print with peerCrcs := s.print.peerCrcs ++ comparable s body } } := by
  have nothing (t : State) (none_ : t.print.ownCrcs = []) : compareLines t = t := by rw [compareLines, none_, List.foldl_nil]
  exact nothing _ h

/-- A message in its turn that leaves none held ahead of its turn. -/
theorem exec_delivered {type : Nat} {c : PairRx → Instr} {m : PairRx} {t : State} (h : (type, c) ∈ pairSequenced)
    (turn : pairInTurn s m type) (does : deliverPair (arrived s m) type (pairBody m.bytes) = t) (quiet : t.pair.early = []) :
    exec (c m) s = .next t := by
  subst does
  exact exec_in_turn h turn quiet

theorem deliverPair_crc (s : State) (b : List Byte) : deliverPair s 0x11 b = onCrc s b := by
  unfold deliverPair
  rw [if_neg (by decide), if_neg (by decide), if_pos rfl]

theorem verifying_arrived (s : State) (m : PairRx) (b n : Nat) : verifying (arrived s m) b n = verifying s b n := by
  have pass : retPass (arrived s m) b = retPass s b := by
    rw [retPass, getBar_of_print ((arrived_evolves s m).same .print rfl), retPass]
  rw [verifying, beforeCatchup, pair_arrived, pass]
  rfl

/-! ### Health reports (R378, R379) -/

theorem leNat_lt (bs : List Byte) : leNat bs < 256 ^ bs.length := by
  induction bs with
  | nil => exact Nat.one_pos
  | cons b bs ih =>
    have byte := b.isLt
    rw [leNat, List.length_cons, Nat.pow_succ]
    omega

theorem bytesAt_lt (bs : List Byte) (o n : Nat) : bytesAt bs o n < 256 ^ n :=
  (leNat_lt _).trans_le (Nat.pow_le_pow_right (by decide) (List.length_take_le n _))

/-- A report in the words HEALTH0 to HEALTH11. -/
def healthShown (s : State) (b : List Byte) : State :=
  (List.range 12).foldl (fun s i => wr s (pairA (0xA0 + 4 * i)) (bytesAt b (4 * i) 4)) s

theorem holdHealth_eq (s : State) (b : List Byte) : holdHealth s b = count (ev (healthShown s b) pgPair 15) pgPair 12 := rfl

theorem healthShown_evolves (s : State) (b : List Byte) : Evolves 1 s (healthShown s b) :=
  Evolves.rfl.foldl fun _ _ => wr_evolves _ _ _ rfl

theorem rd_healthShown (s : State) (b : List Byte) {i : Nat} (h : i < 12) :
    rd (healthShown s b) (pairA (0xA0 + 4 * i)) = bytesAt b (4 * i) 4 := by
  have small : bytesAt b (4 * i) 4 % 2 ^ 32 = bytesAt b (4 * i) 4 := Nat.mod_eq_of_lt (bytesAt_lt b (4 * i) 4)
  have upTo (n : Nat) (hn : i < n) :
      rd ((List.range n).foldl (fun s i => wr s (pairA (0xA0 + 4 * i)) (bytesAt b (4 * i) 4)) s) (pairA (0xA0 + 4 * i)) =
        bytesAt b (4 * i) 4 := by
    induction n with
    | zero => omega
    | succ n ih =>
      rw [List.range_succ, List.foldl_append, List.foldl_cons, List.foldl_nil, rd_wr]
      split
      · next same =>
        have : i = n := by
          unfold pairA ra at same
          omega
        rw [← this, small]
      · next other => exact ih (by rcases Nat.lt_succ_iff_lt_or_eq.1 hn with h | rfl <;> [exact h; exact absurd rfl other])
  exact upTo 12 h

theorem rd_healthShown_other (s : State) (b : List Byte) : rd (healthShown s b) (pairA 0x24) = rd s (pairA 0x24) := by
  refine List.foldlRecOn (motive := fun u => rd u (pairA 0x24) = rd s (pairA 0x24)) _ _ rfl fun u hu i _ => ?_
  rw [rd_wr, if_neg, hu]
  unfold pairA ra
  omega

/-- A report is shown, raises HEALTH and is counted, and nothing else changes. -/
theorem holdHealth_shows (s : State) (b : List Byte) :
    (∀ i, i < 12 → rd (holdHealth s b) (pairA (0xA0 + 4 * i)) = bytesAt b (4 * i) 4) ∧ raised s (holdHealth s b) pgPair 15 ∧
      counted s (holdHealth s b) pgPair 12 ∧ Evolves 8523841 s (holdHealth s b) := by
  have tally (u : State) : Evolves 64 u (count u pgPair 12) := count_evolves _ _ _ rfl .rfl
  rw [holdHealth_eq]
  refine ⟨fun i hi => ?_, ?_, ?_, ?_⟩
  · rw [(tally _).rd_eq rfl, wordsKept_ev _ _ _ _ (by simp [pairA, ra]; omega), rd_healthShown s b hi]
  · rw [raised, evPend, (tally _).rd_eq rfl]
    have event := raised_ev (healthShown s b) pgPair (b := 15) (by decide)
    rw [raised, evPend, evPend] at event
    exact event.trans (congrArg (· ||| 2 ^ 15) (rd_healthShown_other s b))
  · rw [counted, counter_count, if_pos rfl, counter_ev (by decide) (by decide), (healthShown_evolves s b).counter_eq rfl]
  · exact holdHealth_evolves _ _ rfl .rfl

/-- A standby that has sent a report and clears what it has reported. -/
def reported (s : State) (b : List Byte) : State :=
  let s := holdHealth (pairSendSeq s 0x28 0 b) b
  setPair s { s.pair with healthNo := s.pair.healthNo + 1, scrubErrs := 0, excused := 0, diverged := false, digestErr := false }

theorem reported_leaves (s : State) (b : List Byte) :
    PairSt.sentMore { s.pair with healthNo := s.pair.healthNo + 1, scrubErrs := 0, excused := 0, diverged := false,
                                  digestErr := false } (reported s b).pair ∧
      raised s (reported s b) pgPair 15 ∧ counted s (reported s b) pgPair 12 ∧ Evolves 8556609 s (reported s b) := by
  let u := pairSendSeq s 0x28 0 b
  have sent : Evolves 8421440 s u := pairSendSeq_evolves _ _ _ _ rfl .rfl
  obtain ⟨-, event, tally, shown⟩ := holdHealth_shows u b
  refine ⟨?_, ?_, ?_, setPair_evolves _ _ rfl ((sent.mono rfl).trans (shown.mono rfl))⟩
  · obtain ⟨n, us, on, pair⟩ := sentMore_pairSendSeq s 0x28 0 b
    change PairSt.sentMore _ { (holdHealth u b).pair with
      healthNo := (holdHealth u b).pair.healthNo + 1, scrubErrs := 0, excused := 0, diverged := false, digestErr := false }
    rw [shown.same .pair rfl, pair]
    exact ⟨n, us, on, rfl⟩
  · have same : evPend u pgPair = evPend s pgPair := evPend_of_regs (sent.same .regs rfl) pgPair
    rw [raised, ← same]
    exact event
  · have same : counter u pgPair 12 = counter s pgPair 12 := counter_pairSendSeq s _ _ _ (by decide) (by decide)
    rw [counted, ← same]
    exact tally

theorem execHealthSend_standby (err : Bool) (mib : Nat) (h : s.pair.role = 5) :
    execHealthSend err mib s = .next (if s.pair.digestErr || s.pair.scrubErrs != 0 then
      enterJoining (pairRecord (reported s (healthBody s err mib)) 0x0A08 1) else reported s (healthBody s err mib)) := by
  have standby : (s.pair.role == 5) = true := by rw [h]; rfl
  unfold execHealthSend
  rw [if_pos standby]
  rfl

end Sys2Proof.Machine

namespace Sys2Proof.Proofs
open Sys2Proof Sys2Proof.Machine

/-- Comparing bar lines (R354, R355), by the flags of a line whose wait has ended. -/
theorem pairVerifyRule : PairVerifyRule := by
  refine ⟨fun s line bar => ⟨fun absent => ?_, fun e found => ?_⟩, fun s m turn empty => ?_, fun s own peer same => ?_⟩
  · have none_ : s.print.ownCrcs.find? (fun e => e.line == line && e.bar == bar) = none := by
      rw [List.find?_eq_none]
      exact fun x hx h => by rw [List.any_eq_false] at absent; exact absent x hx h
    simp only [exec, execCrcWait]
    rw [none_]
  · let u := count (dropLine s e) pgPair 5
    obtain ⟨pair, five, others, log⟩ := dropped_counts s e
    have runs : exec (.crcWait line bar) s = .next (lineDiffers u e false false) := by
      simp only [exec, execCrcWait]
      rw [found]
    have active : isActive u = isActive s := by rw [isActive, pair, isActive]
    have counts {t : State} {k : Nat} (h : counted u t pgPair k) (other : k ≠ 5) : counted s t pgPair k := by
      rw [counted, h, others k other]
    have fifth {t : State} (h : counter t pgPair 5 = counter u pgPair 5) : counted s t pgPair 5 := h.trans five
    obtain ⟨pairD, recordD, eventD, sixD, othersD⟩ := diverged_keeps u e.bar e.line
    refine ⟨fun standby flags => ?_, fun standby kept transient => ?_, fun act kept clear => ?_, fun act kept transient => ?_,
      fun act persists verified => ?_⟩
    · have outcome : lineDiffers u e false false = enterJoining (diverged u e.bar e.line) := by
        rw [lineDiffers_clear, active, if_neg (by rw [isActive, standby]; decide), if_pos flags, unexplained_eq, if_pos]
        rw [pairD, pair]
        exact standby
      obtain ⟨role, differs, -, -⟩ := enterJoining_keeps (diverged u e.bar e.line)
      have joined : keepsLog (diverged u e.bar e.line) (enterJoining (diverged u e.bar e.line)) :=
        .of (enterJoining_evolves (m := 8439104) _ rfl .rfl) (by decide)
      refine ⟨enterJoining (diverged u e.bar e.line), by rw [runs, outcome], role, by rw [differs, pairD], counts ?_ (by decide), fifth ?_, ?_, ?_⟩
      · rw [counted, counter_enterJoining _ (by decide) (by decide), sixD]
      · rw [counter_enterJoining _ (by decide) (by decide), othersD 5 (by decide) (by decide)]
      · rw [evPend_enterJoining]
        exact eventD
      · exact recorded_kept (recorded_of_keepsLog log recordD) joined
    · have outcome : lineDiffers u e false false = excuse u e.bar e.line true := by
        rw [lineDiffers_clear, active, if_neg (by rw [isActive, standby]; decide), if_neg (by rw [kept, transient]; decide)]
      obtain ⟨pairX, sevenX, othersX⟩ := excuse_counts u e.bar e.line true
      refine ⟨excuse u e.bar e.line true, by rw [runs, outcome], ?_, ?_, counts sevenX (by decide),
        fifth (othersX 5 (by decide) (by decide))⟩
      · rw [pairX]
        exact (congrArg PairSt.role pair).trans standby
      · rw [pairX, pair]
    · have outcome : lineDiffers u e false false = diverged u e.bar e.line := by
        rw [lineDiffers_clear, active, if_pos (by rw [isActive, act]; rfl), if_neg (by rw [kept]; decide),
          if_neg (by rw [clear]; decide), unexplained_eq, if_neg (by rw [pairD, pair]; simp [act]),
          if_neg (by rw [pairD, pair]; simp [act])]
      refine ⟨diverged u e.bar e.line, by rw [runs, outcome], ?_, by rw [pairD], counts sixD (by decide), recorded_of_keepsLog log recordD⟩
      rw [pairD]
      exact (congrArg PairSt.role pair).trans act
    · have outcome : lineDiffers u e false false = excuse u e.bar e.line true := by
        rw [lineDiffers_clear, active, if_pos (by rw [isActive, act]; rfl), if_neg (by rw [kept]; decide), if_pos transient]
      obtain ⟨pairX, sevenX, -⟩ := excuse_counts u e.bar e.line true
      refine ⟨excuse u e.bar e.line true, by rw [runs, outcome], ?_, by rw [pairX, pair], counts sevenX (by decide)⟩
      rw [pairX]
      exact (congrArg PairSt.role pair).trans act
    · obtain ⟨pairX, sevenX, -⟩ := excuse_counts u e.bar e.line false
      have outcome : lineDiffers u e false false = requestSwitch (excuse u e.bar e.line false) := by
        rw [lineDiffers_clear, active, if_pos (by rw [isActive, act]; rfl), if_pos persists]
      obtain ⟨pending, seven⟩ := requestSwitch_pending (s := excuse u e.bar e.line false)
        (by rw [pairX]; exact (congrArg PairSt.role pair).trans act) (by rw [pairX]; exact (congrArg PairSt.verified pair).trans verified)
      refine ⟨requestSwitch (excuse u e.bar e.line false), by rw [runs, outcome], pending, counts ?_ (by decide)⟩
      rw [counted, seven 7 (by decide) (by decide), sevenX]
  · have step := arrived_evolves s m
    have print : (arrived s m).print = s.print := step.same .print rfl
    have early := early_arrived turn
    have held := (deliverPair_crc (arrived s m) (pairBody m.bytes)).trans (onCrc_held (pairBody m.bytes) (by rw [print]; exact empty))
    refine ⟨_, exec_delivered (by simp [pairSequenced]) turn held early, ?_, ?_, ?_⟩
    · simp only [comparable, verifying_arrived]
      rw [print]
    · simp only [print]
    · exact (Evolves.upd_1024 (m := 33856) rfl (step.mono rfl)).only (by decide)
  · have step : Evolves 64 s (count s pgPair 5) := count_evolves _ _ _ rfl .rfl
    have matched : compareEntry s own peer = lineMatched (count s pgPair 5) own.bar := if_pos same
    have last : Evolves 8574273 s (lineMatched (count s pgPair 5) own.bar) := lineMatched_evolves _ _ rfl (step.mono rfl)
    rw [matched, bars_lineMatched, step.same .print rfl]
    exact ⟨last.same .sys rfl, rfl⟩

/-- Health reports (R378, R379): what is received, and what a standby sends. -/
theorem pairHealthRule : PairHealthRule := by
  refine ⟨fun s m turn => ?_, fun s err mib => ⟨fun other => ?_, fun standby digest scrub => ?_, fun standby sick => ?_⟩⟩
  · let u := arrived s m
    have step := arrived_evolves s m
    have does : deliverPair u 0x28 (pairBody m.bytes) = holdHealth u (pairBody m.bytes) := rfl
    obtain ⟨words, event, tally, shown⟩ := holdHealth_shows u (pairBody m.bytes)
    have pair := shown.same .pair rfl
    refine ⟨holdHealth u (pairBody m.bytes), exec_delivered (by simp [pairSequenced]) turn does ?_, words, ?_, ?_, pair, ?_⟩
    · rw [pair]
      exact early_arrived turn
    · rw [raised, event, evPend_of_regs (step.same .regs rfl)]
    · rw [counted, tally]
      have same : counter u pgPair 12 = counter s pgPair 12 := by
        change counter (pairCounted s m) pgPair 12 = _
        rw [pairCounted, counter_count, if_neg (by decide), counter_count, if_neg (by unfold pgPair pgPrl; omega)]
      rw [same]
    · exact (step.mono (m := 8556609) rfl |>.trans (shown.mono rfl)).only (by decide)
  · simp only [exec, execHealthSend]
    rw [if_neg (by simpa using other)]
  · obtain ⟨pair, event, tally, step⟩ := reported_leaves s (healthBody s err mib)
    refine ⟨reported s (healthBody s err mib), ?_, ?_⟩
    · rw [exec, execHealthSend_standby err mib standby, if_neg (by rw [digest, scrub]; decide)]
    · obtain ⟨n, us, on, pair⟩ := pair
      rw [pair]
      exact ⟨standby, rfl, rfl, rfl, event, tally, step.only (by decide)⟩
  · let u := reported s (healthBody s err mib)
    obtain ⟨⟨n, us, on, pair⟩, -, -, step⟩ := reported_leaves s (healthBody s err mib)
    have record : Evolves 11669569 u (pairRecord u 0x0A08 1) := fault_below_D _ _ _ _ (by decide) _
    obtain ⟨role, -, scrub, digest⟩ := enterJoining_keeps (pairRecord u 0x0A08 1)
    have joined : keepsLog (pairRecord u 0x0A08 1) (enterJoining (pairRecord u 0x0A08 1)) :=
      .of (enterJoining_evolves (m := 8439104) _ rfl .rfl) (by decide)
    refine ⟨enterJoining (pairRecord u 0x0A08 1), ?_, role, ?_, ?_, ?_⟩
    · rw [exec, execHealthSend_standby err mib standby, if_pos (by rcases sick with h | h <;> simp [h])]
    · rw [scrub, record.same .pair rfl, pair]
    · rw [digest, record.same .pair rfl, pair]
    · exact recorded_kept (recorded_of_keepsLog (.of step (by decide)) (recorded_fault u 0x0A08 1 pgPair noBar _)) joined

/-- Settles O42: comparisons of bar lines, and health reports. -/
theorem pairChecks : Obligations.PairChecks := ⟨pairVerifyRule, pairHealthRule⟩

end Sys2Proof.Proofs
end

section
/-! PROOFS. PairJoin (R113, R114, R356 to R361, R363): the copy of a join, its steps, the alignment of channels, and tiles of the
partner. -/

namespace Sys2Proof.Machine
open Sys2Proof

variable {s t : State} {m : PairRx}

/-! ### What a join's messages do -/

theorem deliverPair_copy (s : State) (b : List Byte) : deliverPair s 0x20 b = onCopy s b := by
  unfold deliverPair
  rw [if_neg (by decide), if_neg (by decide), if_neg (by decide), if_pos rfl]

theorem deliverPair_copyCtrl (s : State) (b : List Byte) : deliverPair s 0x21 b = onCopyCtrl s b := by
  unfold deliverPair
  rw [if_neg (by decide), if_neg (by decide), if_neg (by decide), if_neg (by decide), if_pos rfl]

theorem deliverPair_position (s : State) (b : List Byte) : deliverPair s 0x22 b = onPosition s b := by
  unfold deliverPair
  rw [if_neg (by decide), if_neg (by decide), if_neg (by decide), if_neg (by decide), if_neg (by decide), if_pos rfl]

theorem deliverPair_tileReq (s : State) (b : List Byte) : deliverPair s 0x31 b = onTileReq s b := by
  unfold deliverPair
  rw [if_neg (by decide), if_neg (by decide), if_neg (by decide), if_neg (by decide), if_neg (by decide), if_neg (by decide),
    if_neg (by decide), if_neg (by decide), if_pos rfl]

/-- A whole TILE_DATA message in its turn is taken at once. -/
theorem deliverPair_tileData {b : List Byte} (single : s.pair.partial_ = none) (whole : 24 + bytesAt b 0x10 4 + 64 ≤ b.length) :
    deliverPair s 0x32 b = onTileData s b := by
  unfold deliverPair
  rw [if_neg (by decide), if_pos (.inr rfl), single]
  dsimp only
  have length : wholeLength 0x32 b = 24 + bytesAt b 0x10 4 + 64 := if_neg (by decide)
  rw [length, if_neg (Nat.not_lt.2 whole), setPair_partial _ single]
  exact if_neg (by decide)

/-- A message that changes nothing of its unit is counted. -/
theorem completes_arrived {type : Nat} {c : PairRx → Instr} (h : (type, c) ∈ pairSequenced) (turn : pairInTurn s m type)
    (does : deliverPair (arrived s m) type (pairBody m.bytes) = arrived s m) :
    completes (c m) s (fun t => t.pair = { s.pair with rxSeq := nextSeq s.pair.rxSeq } ∧ onlyChanges [.counters, .pair] s t) :=
  ⟨arrived s m, exec_delivered h turn does (early_arrived turn), rfl, only_arrived s m⟩

/-- It is enough that a message leaves no other held ahead of its turn. -/
theorem completes_delivered {type : Nat} {c : PairRx → Instr} {P : State → Prop} (h : (type, c) ∈ pairSequenced)
    (turn : pairInTurn s m type) (does : deliverPair (arrived s m) type (pairBody m.bytes) = t)
    (quiet : t.pair.early = (arrived s m).pair.early) (then_ : P t) : completes (c m) s P :=
  ⟨t, exec_delivered h turn does (quiet.trans (early_arrived turn)), then_⟩

/-! ### Messages sent one after the other -/

theorem sentMore_foldl {α : Type} {f : State → α → State} (h : ∀ (u : State) x, u.pair.sentMore (f u x).pair) (l : List α) (s : State) :
    s.pair.sentMore (l.foldl f s).pair :=
  List.foldlRecOn (motive := fun u => s.pair.sentMore u.pair) _ _ .rfl fun u hu x _ => PairSt.sentMore.trans hu (h u x)

theorem sentMore_sendCopy (s : State) (region off : Nat) (data : List Byte) : s.pair.sentMore (sendCopy s region off data).pair := by
  have sent := sentMore_pairSendSeq (countN s pgPair 8 data.length) 0x20 0 (leBytes 1 region ++ leBytes 8 off ++ data)
  rwa [show (countN s pgPair 8 data.length).pair = s.pair by simp only [countN_fields]] at sent

theorem sentMore_sendPieces (s : State) (region off : Nat) (bs : List Byte) : s.pair.sentMore (sendPieces s region off bs).pair :=
  sentMore_foldl (fun _ _ => sentMore_sendCopy _ _ _ _) _ s

theorem sentMore_sendEntry (s : State) (slot : Nat) (e : JEntry) : s.pair.sentMore (sendEntry s slot e).pair :=
  ((sentMore_sendCopy s _ _ _).trans (sentMore_sendPieces _ _ _ _)).trans (sentMore_sendPieces _ _ _ _)

theorem sentMore_sendLoop (s0 s : State) : s.pair.sentMore (sendLoop s0 s).pair :=
  (((((sentMore_foldl (fun _ _ => sentMore_sendCopy _ _ _ _) _ s).trans (sentMore_foldl (fun _ _ => sentMore_sendCopy _ _ _ _) _ _)).trans
    (sentMore_foldl (fun _ _ => sentMore_sendCopy _ _ _ _) _ _)).trans
    (sentMore_foldl (fun u _ => sentMore_foldl (fun _ _ => sentMore_sendCopy _ _ _ _) _ u) _ _)).trans
    (sentMore_foldl (fun _ _ => sentMore_sendCopy _ _ _ _) _ _)).trans (sentMore_foldl (fun _ _ => sentMore_sendCopy _ _ _ _) _ _)

/-- Step 2 of a join at the active: beside what it sends, only the step changes. -/
theorem sentMore_sendTables (s : State) : PairSt.sentMore { s.pair with joinStep := 2 } (sendTables s).pair :=
  (((((((sentMore_pairSendSeq (setPair s { s.pair with joinStep := 2 }) _ _ _).trans
    (sentMore_foldl (fun _ _ => sentMore_sendCopy _ _ _ _) _ _)).trans (sentMore_foldl (fun _ _ => sentMore_sendCopy _ _ _ _) _ _)).trans
    (sentMore_foldl (fun _ _ => sentMore_sendCopy _ _ _ _) _ _)).trans (sentMore_sendCopy _ _ _ _)).trans (sentMore_sendLoop s _)).trans
    (sentMore_foldl (fun _ _ => sentMore_pairSendSeq _ _ _ _) _ _)).trans (sentMore_foldl (fun _ _ => sentMore_sendEntry _ _ _) _ _)

/-- Blocks of image memory; the kernel must not count their size down. -/
theorem sentMore_blocks (n : Nat) (bs : List Nat) (s : State) :
    s.pair.sentMore (bs.foldl (fun s b => sendPieces s 4 (n * b) (memRead s.dram.mem (n * b) n)) s).pair :=
  sentMore_foldl (fun _ _ => sentMore_sendPieces _ _ _ _) _ _

/-- A pass of step 3 at the active: what was dirty has been sent. -/
theorem sentMore_sendDirty (s : State) : PairSt.sentMore { s.pair with dirty := [] } (sendDirty s).pair := by
  have begun : PairSt.sentMore { s.pair with dirty := [] } (countN (setPair s { s.pair with dirty := [] }) pgPair 9 s.pair.dirty.length).pair := by
    rw [show (countN (setPair s { s.pair with dirty := [] }) pgPair 9 s.pair.dirty.length).pair =
      (setPair s { s.pair with dirty := [] }).pair by simp only [countN_fields]]
    exact .rfl
  unfold sendDirty
  dsimp only
  exact ((begun.trans (sentMore_pairSendSeq _ _ _ _)).trans (sentMore_blocks 65536 _ _)).trans
    (sentMore_foldl (fun _ _ => sentMore_sendCopy _ _ _ _) _ _)

/-! ### Image memory -/

theorem memByte_memWrite_outside (bs : List Byte) : ∀ (mem : List Host.Cell) (a b : Nat), (b < a ∨ a + bs.length ≤ b) →
    memByte (memWrite mem a bs) b = memByte mem b := by
  induction bs with
  | nil => exact fun _ _ _ _ => rfl
  | cons v bs ih =>
    intro mem a b h
    rw [List.length_cons] at h
    rw [memWrite, ih _ _ _ (by omega), memByte_memSet, if_neg (by omega)]

theorem memByte_memWrite_inside (bs : List Byte) : ∀ (mem : List Host.Cell) (a i : Nat) (v : Byte), bs[i]? = some v →
    memByte (memWrite mem a bs) (a + i) = v := by
  induction bs with
  | nil => exact fun _ _ _ _ h => by simp at h
  | cons w bs ih =>
    intro mem a i v h
    cases i with
    | zero =>
      obtain rfl : w = v := by simpa using h
      rw [memWrite, memByte_memWrite_outside _ _ _ _ (.inl (by omega)), memByte_memSet, if_pos (Nat.add_zero a)]
    | succ i => rw [memWrite, show a + (i + 1) = a + 1 + i by omega, ih _ _ _ _ (by simpa using h)]

/-! ### COPY -/

/-- A unit that takes no copies. -/
theorem onCopy_other (joins : s.pair.role ≠ 4) (standby : s.pair.role ≠ 5) (b : List Byte) : onCopy s b = s := if_pos ⟨joins, standby⟩

/-- A joining unit takes a copy of a region of words. -/
theorem onCopy_words {b : List Byte} (joins : s.pair.role = 4) (step : 2 ≤ s.pair.joinStep) {region : Nat} (is : bytesAt b 0 1 = region)
    (h : region = 0 ∨ region = 1 ∨ region = 4) :
    onCopy s b =
      let u := countN s pgPair 8 (b.drop 9).length
      let off := bytesAt b 1 8
      let w := BitVec.ofNat 32 (bytesAt b 9 4)
      if region = 0 then (if copiedWord off then wr u off w.toNat else u)
      else if region = 1 then (if copiedWord off then setCm u off w.toNat else u) else writeMem u off (b.drop 9) := by
  have data : bytesAt (b.drop 9) 0 4 = bytesAt b 9 4 := by rw [bytesAt, bytesAt, List.drop_zero]
  unfold onCopy
  dsimp only
  rw [if_neg (by simp [joins]), is, if_neg (by omega), if_neg (by omega), data]
  rcases h with rfl | rfl | rfl <;> rfl

theorem rd_clearCopied_copied {a : Nat} (h : copiedWord a = true) :
    rd (clearCopied s) a = (regReset a).toNat ∧ cm (clearCopied s) a = (regReset a).toNat := by
  have dropped (words : Tab Word) : tget regReset (words.filter (fun e => !copiedWord e.1)) a = regReset a := by
    rw [tget_filter regReset words (fun k => !copiedWord k), h]
    rfl
  exact ⟨congrArg BitVec.toNat (dropped s.regs), congrArg BitVec.toNat (dropped s.committed)⟩

/-! ### COPY_CTRL -/

theorem onCopyCtrl_other (active : s.pair.role ≠ 3) (joins : s.pair.role ≠ 4) (b : List Byte) : onCopyCtrl s b = s := by
  unfold onCopyCtrl
  rw [if_neg active, if_neg joins]

/-- A marker of a step at the joining unit. -/
theorem onCopyCtrl_joining {b : List Byte} (joins : s.pair.role = 4) (kind : bytesAt b 0 1 = 1) {v : Nat} (is : bytesAt b 1 1 = v)
    (h : v = 2 ∨ v = 3 ∨ v = 4) :
    onCopyCtrl s b =
      if v = 2 then
        setPair (clearCopied s) { (clearCopied s).pair with joinStep := 2, inputs := [], peerBars := bytesAt b 2 2 }
      else if v = 3 then setPair s { s.pair with joinStep := 3 }
      else pairSendSeq (setPair s { s.pair with joinStep := 4 }) 0x21 0 (catchRequest 0xFF) := by
  unfold onCopyCtrl
  dsimp only
  rw [if_neg (by rw [joins]; decide), if_pos joins, kind, is]
  rcases h with rfl | rfl | rfl <;> simp

/-- A marker of a step at the active. -/
theorem onCopyCtrl_active {b : List Byte} (active : s.pair.role = 3) (kind : bytesAt b 0 1 = 1) {v : Nat} (is : bytesAt b 1 1 = v)
    (h : v = 1 ∨ v = 0 ∨ v = 5 ∧ s.pair.joinStep = 4) :
    onCopyCtrl s b =
      if v = 1 then sendTables s else if v = 0 then endCopy s else setPair s { s.pair with joinStep := 5 } := by
  unfold onCopyCtrl
  dsimp only
  rw [if_pos active, kind, is]
  rcases h with rfl | rfl | ⟨rfl, four⟩
  · simp
  · simp
  · simp [four]

theorem pair_endCopy (s : State) :
    (endCopy s).pair = { s.pair with matched := [], catchup := none, catchBars := [], catchChans := [], joinStep := 0, dirty := [] } :=
  (releaseHeld_evolves (m := 8392705) _ _ rfl .rfl).same .pair rfl

/-! ### A join that fails -/

/-- A unit that has given up its join. -/
def joinStopped (s : State) : State :=
  let s := clearRuns (stopBars s (List.range 8))
  setPair s { s.pair with joinStep := 0, mustWait := true }

theorem joinFail_eq (s : State) :
    joinFail s = pairRecord (ev (pairSendSeq (joinStopped s) 0x21 0 (stepMark 0)) pgPair 11) 0x0A06 1 := rfl

theorem joinStopped_leaves (s : State) :
    (joinStopped s).pair.role = s.pair.role ∧ (joinStopped s).pair.joinStep = 0 ∧ (joinStopped s).pair.mustWait = true ∧
      keepsLog s (joinStopped s) ∧ ∀ b, b < 8 → printing (joinStopped s) b = false := by
  have stopped : (stopBars s (List.range 8)).pair = s.pair := (stopBars_evolves (m := 1024) s _ rfl .rfl).same .pair rfl
  have log : keepsLog s (stopBars s (List.range 8)) := keepsLog.stopBars (List.range 8) .rfl
  have bars (b : Nat) (hb : b < 8) : (getBar (stopBars s (List.range 8)) b).printing = false :=
    (stopBars_stops (List.range 8) s b (.inl (List.mem_range.2 hb))).1
  unfold joinStopped
  generalize stopBars s (List.range 8) = u at *
  exact ⟨by rw [← stopped]; rfl, rfl, rfl, log, bars⟩

/-- A failed join leaves the unit in JOINING, with no bar printing, until CMD.JOIN (R359, R361, R363). -/
theorem joinFail_leaves (s : State) :
    (joinFail s).pair.role = s.pair.role ∧ (joinFail s).pair.joinStep = 0 ∧ (joinFail s).pair.mustWait = true ∧
      (∀ b, b < 8 → printing (joinFail s) b = false) ∧ (evPend (joinFail s) pgPair).testBit 11 = true ∧
      recorded s (joinFail s) 0x0A06 1 := by
  obtain ⟨role, idle, waits, log, stopped⟩ := joinStopped_leaves s
  rw [joinFail_eq]
  generalize joinStopped s = v at *
  obtain ⟨n, us, on, more⟩ := sentMore_pairSendSeq v 0x21 0 (stepMark 0)
  have sent : Evolves 8421440 v (pairSendSeq v 0x21 0 (stepMark 0)) := pairSendSeq_evolves _ _ _ _ rfl .rfl
  generalize pairSendSeq v 0x21 0 (stepMark 0) = w at *
  have event : Evolves 8523841 w (ev w pgPair 11) := ev_evolves _ _ _ rfl .rfl
  have raised_ : (evPend (ev w pgPair 11) pgPair).testBit 11 = true := testBit_evPend_raised w pgPair (by decide)
  generalize ev w pgPair 11 = x at *
  have record : Evolves 11669569 x (pairRecord x 0x0A06 1) := fault_below_D _ _ _ _ (by decide) _
  have pair : (pairRecord x 0x0A06 1).pair = w.pair := by rw [record.same .pair rfl, event.same .pair rfl]
  have print : (pairRecord x 0x0A06 1).print = v.print := by
    rw [record.same .print rfl, event.same .print rfl, sent.same .print rfl]
  refine ⟨?_, ?_, ?_, fun b hb => ?_, testBit_evPend_fault raised_ _ _ _ (by decide) _,
    recorded_of_keepsLog ((log.trans (.of sent (by decide))).trans (.of event (by decide))) (recorded_fault _ _ _ _ _ _)⟩
  · rw [pair, more]
    exact role
  · rw [pair, more]
    exact idle
  · rw [pair, more]
    exact waits
  · rw [printing, getBar_of_print print]
    exact stopped b hb

/-! ### POSITION -/

theorem onPosition_other {b : List Byte} (h : s.pair.role ≠ 4 ∨ s.pair.joinStep ≠ 4 ∨ bytesAt b 0 1 ∉ s.pair.catchChans) :
    onPosition s b = s := by
  refine if_pos (h.imp_right (Or.imp_right fun out => ?_))
  simpa using out

/-- A channel moves by the difference of its latch to the active's (R359). -/
def channelMoved (ch : Channel) (body : List Byte) (own : Int × Int × Int) : Channel :=
  let d := signed 64 (bytesAt body 8 8) - own.1
  let mv (x : Int × Nat) : Int × Nat := (x.1 + d, x.2)
  { ch with
    pos := ch.pos + d
    high := ch.high + (signed 64 (bytesAt body 0x10 8) - own.2.1)
    low := ch.low + (signed 64 (bytesAt body 0x18 8) - own.2.2)
    dirMark := ch.dirMark + d
    edges := ch.edges.map mv
    winFirst := ch.winFirst.map mv
    winLast := ch.winLast.map mv }

/-- A channel that is aligned, with others still to align. -/
theorem onPosition_moves {b : List Byte} {own : Int × Int × Int} (joins : s.pair.role = 4) (four : s.pair.joinStep = 4)
    (member : bytesAt b 0 1 ∈ s.pair.catchChans) (time : s.clk.state = 6) (limit : s.clk.pairOffset.natAbs ≤ pairLimit s)
    (found : matchLatch (getChan s (bytesAt b 0 1)) (((bytesAt b 2 6 : Nat) + s.clk.pairOffset) % (2 ^ 48 : Nat)).toNat = some own)
    (another : ∃ d ∈ s.pair.catchChans, d ≠ bytesAt b 0 1) :
    onPosition s b = setPair (setChan s (bytesAt b 0 1) (channelMoved (getChan s (bytesAt b 0 1)) b own))
      { s.pair with catchChans := s.pair.catchChans.filter (fun x => x != bytesAt b 0 1) } := by
  have holds : ¬(s.pair.role ≠ 4 ∨ s.pair.joinStep ≠ 4 ∨ s.pair.catchChans.contains (bytesAt b 0 1) = false) := by
    simp [joins, four, member]
  have rest : (s.pair.catchChans.filter (fun x => x != bytesAt b 0 1)).isEmpty = false := by
    obtain ⟨d, hd, other⟩ := another
    rw [List.isEmpty_eq_false_iff]
    exact List.ne_nil_of_mem (List.mem_filter.2 ⟨hd, bne_iff_ne.2 other⟩)
  have inTime : (s.clk.state == 6 && decide (s.clk.pairOffset.natAbs ≤ pairLimit s)) = true := by simp [time, limit]
  unfold onPosition
  dsimp only
  rw [if_neg holds, if_pos inTime, found]
  exact if_neg (fun empty => Bool.false_ne_true (rest.symm.trans empty))

/-! ### Tiles asked of the partner -/

theorem mem_enqueueThaw (s : State) (order : Nat) (x : Tile) : (enqueueThaw s order x).dram.mem = s.dram.mem := rfl

theorem mem_setTile (s : State) (x : Tile) : (setTile s x).dram.mem = s.dram.mem := rfl

theorem granAddr_arrived (s : State) (m : PairRx) : granAddr (arrived s m) = granAddr s := by
  have words : (arrived s m).committed = s.committed := (arrived_evolves s m).same .committed rfl
  funext g
  rw [granAddr, storeBase, cmf, cm, words]
  rfl

theorem pieces_flatten {n : Nat} (k : Nat) (bs : List Byte) (h : bs.length ≤ n * (k + 1)) : (pieces n (k + 1) bs).flatten = bs := by
  induction k generalizing bs with
  | zero => rw [pieces, if_pos (by simpa using h), List.flatten_singleton]
  | succ k ih =>
    rw [pieces]
    split
    · exact List.flatten_singleton
    · have rest : (bs.drop n).length ≤ n * (k + 1) := by
        rw [List.length_drop]
        rw [Nat.mul_succ] at h
        omega
      rw [List.flatten_cons, ih _ rest, List.take_append_drop]

theorem unacked_sends (type flags : Nat) (bodies : List (List Byte)) (s : State) :
    ∃ us : List (Nat × Nat × Nat × List Byte),
      (bodies.foldl (fun s b => pairSendOne s type flags b) s).pair.unacked = s.pair.unacked ++ us ∧ (∀ u ∈ us, u.2.1 = type) ∧
        us.map (fun u => u.2.2.2) = bodies := by
  induction bodies generalizing s with
  | nil => exact ⟨[], (List.append_nil _).symm, by simp, rfl⟩
  | cons b bodies ih =>
    have one : (pairSendOne s type flags b).pair.unacked = s.pair.unacked ++ [(nextSeq s.pair.txSeq, type, flags, b)] := by
      simp only [pairSendOne, pairSendOn, pair_foldl_pairPut]
    obtain ⟨us, kept, types, same⟩ := ih (pairSendOne s type flags b)
    refine ⟨(nextSeq s.pair.txSeq, type, flags, b) :: us, ?_, ?_, by rw [List.map_cons, same]⟩
    · rw [List.foldl_cons, kept, one, List.append_assoc, List.singleton_append]
    · exact List.forall_mem_cons.2 ⟨rfl, types⟩

/-- A sequenced message of any length is kept until it is acknowledged, in parts that together are its body. -/
theorem unacked_pairSendSeq_parts (s : State) (type flags : Nat) (body : List Byte) :
    ∃ us : List (Nat × Nat × Nat × List Byte), us ≠ [] ∧ (pairSendSeq s type flags body).pair.unacked = s.pair.unacked ++ us ∧
      (∀ u ∈ us, u.2.1 = type) ∧ us.flatMap (fun u => u.2.2.2) = body := by
  obtain ⟨us, kept, types, bodies⟩ := unacked_sends type flags (pieces 2304 (body.length / 2304 + 1) body) s
  have whole := pieces_flatten (n := 2304) (body.length / 2304) body (by omega)
  refine ⟨us, ?_, kept, types, by rw [List.flatMap_def, bodies, whole]⟩
  rintro rfl
  rw [List.map_nil, pieces] at bodies
  split at bodies <;> simp at bodies

end Sys2Proof.Machine

namespace Sys2Proof.Proofs
open Sys2Proof Sys2Proof.Machine

/-- The copy of a join (R356 to R361, R363). -/
theorem pairCopyRule : PairCopyRule := by
  refine ⟨fun s m turn => ?_, fun s m turn => ?_, fun s => ?_, fun s m turn => ?_⟩
  · intro b off
    have copy : (0x20, Instr.copy) ∈ pairSequenced := by simp [pairSequenced]
    have role : (arrived s m).pair = { s.pair with rxSeq := nextSeq s.pair.rxSeq } := pair_arrived s m
    let u := countN (arrived s m) pgPair 8 (b.drop 9).length
    have step : Evolves 32832 s u := countN_evolves _ _ _ _ rfl (arrived_evolves s m)
    have pair : u.pair = (arrived s m).pair := by simp only [u, countN_fields]
    have early : u.pair.early = (arrived s m).pair.early := congrArg PairSt.early pair
    have word : (BitVec.ofNat 32 (bytesAt b 9 4)).toNat % 2 ^ 32 = bytesAt b 9 4 := by
      rw [BitVec.toNat_ofNat, Nat.mod_mod]
      exact Nat.mod_eq_of_lt (bytesAt_lt b 9 4)
    refine ⟨fun joins standby => completes_arrived copy turn ((deliverPair_copy _ _).trans (onCopy_other (s := arrived s m) joins standby b)),
      fun joins stepped => ⟨fun region copied => ?_, fun region other => ?_, fun region copied => ?_, fun region canonical => ?_⟩⟩
    · have does := (deliverPair_copy (arrived s m) b).trans (onCopy_words (s := arrived s m) joins stepped region (.inl rfl))
      simp only [if_pos] at does
      rw [if_pos copied] at does
      refine completes_delivered copy turn does early ⟨?_, fun a other => ?_, ?_⟩
      · exact (rd_wr_same _ _ _).trans word
      · rw [rd_wr, if_neg (by simpa using other)]
        exact step.rd_eq rfl a
      · exact (wr_evolves (m := 32833) _ _ _ rfl (step.mono rfl)).only (by decide)
    · have does := (deliverPair_copy (arrived s m) b).trans (onCopy_words (s := arrived s m) joins stepped region (.inl rfl))
      simp only [if_pos] at does
      rw [if_neg (by rw [other]; decide)] at does
      exact completes_delivered copy turn does early (step.only (by decide))
    · have does := (deliverPair_copy (arrived s m) b).trans (onCopy_words (s := arrived s m) joins stepped region (.inr (.inl rfl)))
      simp only [if_pos, if_neg Nat.one_ne_zero] at does
      rw [if_pos copied] at does
      refine completes_delivered copy turn does early ⟨?_, fun a other => ?_, ?_⟩
      · rw [cm_setCm, if_pos rfl]
        exact word
      · rw [cm_setCm, if_neg other]
        exact congrArg (fun words => (tget regReset words a).toNat) (step.same .committed rfl)
      · exact (setCm_evolves (m := 32834) _ _ _ rfl (step.mono rfl)).only (by decide)
    · have does := (deliverPair_copy (arrived s m) b).trans (onCopy_words (s := arrived s m) joins stepped region (.inr (.inr rfl)))
      simp only [if_neg (show ¬4 = 0 by decide), if_neg (show ¬4 = 1 by decide)] at does
      refine completes_delivered copy turn does early ⟨fun i v h => ?_, fun a h => ?_⟩
      · exact memByte_memWrite_inside _ _ _ _ _ h
      · refine (memByte_memWrite_outside _ _ _ _ h).trans ?_
        have same : u.dram = s.dram := step.same .dram rfl
        exact congrArg (fun d => memByte d.mem a) same
  · intro b
    have ctrl : (0x21, Instr.copyCtrl) ∈ pairSequenced := by simp [pairSequenced]
    have step := arrived_evolves s m
    refine ⟨fun active joins => ?_, fun joins kind => ⟨fun v => ?_, fun v => ?_, fun v => ?_⟩,
      fun active kind => ⟨fun v four => ?_, fun v => ?_, fun v => ?_⟩⟩
    · exact completes_delivered ctrl turn ((deliverPair_copyCtrl _ _).trans (onCopyCtrl_other (s := arrived s m) active joins b)) rfl
        (only_arrived s m)
    · have does := (deliverPair_copyCtrl (arrived s m) b).trans (onCopyCtrl_joining (s := arrived s m) joins kind v (.inl rfl))
      rw [if_pos rfl] at does
      exact completes_delivered ctrl turn does rfl ⟨rfl, rfl, rfl, rfl, rfl, fun a copied => rd_clearCopied_copied copied⟩
    · have does := (deliverPair_copyCtrl (arrived s m) b).trans (onCopyCtrl_joining (s := arrived s m) joins kind v (.inr (.inl rfl)))
      rw [if_neg (by decide), if_pos rfl] at does
      exact completes_delivered ctrl turn does rfl ⟨rfl, (setPair_evolves (m := 32832) _ _ rfl step).only (by decide)⟩
    · have does := (deliverPair_copyCtrl (arrived s m) b).trans (onCopyCtrl_joining (s := arrived s m) joins kind v (.inr (.inr rfl)))
      rw [if_neg (by decide), if_neg (by decide)] at does
      obtain ⟨n, us, on, pair⟩ := sentMore_pairSendSeq (setPair (arrived s m) { (arrived s m).pair with joinStep := 4 }) 0x21 0
        (catchRequest 0xFF)
      exact completes_delivered ctrl turn does (by rw [pair]; rfl) (by rw [pair]; rfl)
    · have does := (deliverPair_copyCtrl (arrived s m) b).trans
        (onCopyCtrl_active (s := arrived s m) active kind v (.inr (.inr ⟨rfl, four⟩)))
      rw [if_neg (by decide), if_neg (by decide)] at does
      exact completes_delivered ctrl turn does rfl ⟨rfl, (setPair_evolves (m := 32832) _ _ rfl step).only (by decide)⟩
    · have does := (deliverPair_copyCtrl (arrived s m) b).trans (onCopyCtrl_active (s := arrived s m) active kind v (.inl rfl))
      rw [if_pos rfl] at does
      obtain ⟨n, us, on, pair⟩ := sentMore_sendTables (arrived s m)
      exact completes_delivered ctrl turn does (by rw [pair]) (by rw [pair])
    · have does := (deliverPair_copyCtrl (arrived s m) b).trans (onCopyCtrl_active (s := arrived s m) active kind v (.inr (.inl rfl)))
      rw [if_neg (by decide), if_pos rfl] at does
      have pair := pair_endCopy (arrived s m)
      exact completes_delivered ctrl turn does (by rw [pair]) ⟨by rw [pair], by rw [pair]⟩
  · refine ⟨fun idle => ?_, fun active three slot => ?_, fun idle => ?_, fun joins stepped => ?_⟩
    · have may : (s.pair.role == 3 && s.pair.joinStep == 3 && mayThrottled s) = false := by
        rcases idle with h | h | h <;> simp [h]
      simp only [exec, execCopyPassDone]
      rw [may]
      rfl
    · have may : (s.pair.role == 3 && s.pair.joinStep == 3 && mayThrottled s) = true := by simp [active, three, slot]
      obtain ⟨n, us, on, pair⟩ := sentMore_sendDirty s
      have sent : Evolves 8421440 s (sendDirty s) := sendDirty_evolves _ rfl .rfl
      by_cases small : s.pair.dirty.length ≤ 16 * rdf s (pairA 0x80) 11 0
      · let u := setPair (sendDirty s) { (sendDirty s).pair with joinStep := 4 }
        obtain ⟨n', us', on', pair'⟩ := sentMore_pairSendSeq u 0x21 0 (stepMark 4)
        refine ⟨pairSendSeq u 0x21 0 (stepMark 4), ?_, ?_, ?_, ?_⟩
        · simp only [exec, execCopyPassDone]
          rw [if_pos may, if_pos (decide_eq_true small)]
        · rw [pair']
          exact congrArg PairSt.dirty pair
        · rw [pair', if_pos small]
          rfl
        · exact (pairSendSeq_evolves (m := 8421440) _ _ _ _ rfl (setPair_evolves _ _ rfl sent)).only (by decide)
      · refine ⟨sendDirty s, ?_, ?_, ?_, sent.only (by decide)⟩
        · simp only [exec, execCopyPassDone]
          rw [if_pos may, if_neg (by simpa using small)]
        · rw [pair]
        · rw [pair, if_neg small]
          exact three
    · have may : (s.pair.role == 4 && (s.pair.joinStep == 2 || s.pair.joinStep == 3)) = false := by
        rcases idle with h | h
        · simp [h]
        · simpa using fun _ => by simpa using h
      simp only [exec, execCopyTimeout]
      rw [may]
      rfl
    · have due : (s.pair.role == 4 && (s.pair.joinStep == 2 || s.pair.joinStep == 3)) = true := by
        rcases stepped with h | h <;> simp [joins, h]
      obtain ⟨role, rest⟩ := joinFail_leaves s
      refine ⟨joinFail s, ?_, role.trans joins, rest⟩
      simp only [exec, execCopyTimeout]
      rw [if_pos due]
  · intro b c at'
    have position : (0x22, Instr.position) ∈ pairSequenced := by simp [pairSequenced]
    refine ⟨fun other => ?_, fun p h w joins four member time limit found another => ?_⟩
    · exact completes_delivered position turn ((deliverPair_position _ _).trans (onPosition_other (s := arrived s m) other)) rfl
        (only_arrived s m)
    · have step := arrived_evolves s m
      have clk : (arrived s m).clk = s.clk := step.same .clk rfl
      have chans : (arrived s m).chans = s.chans := step.same .chans rfl
      have chan : getChan (arrived s m) = getChan s := funext (getChan_of_chans chans)
      have bound : pairLimit (arrived s m) = pairLimit s := by rw [pairLimit, rdf, step.rd_eq rfl, pairLimit, rdf]
      have moves := onPosition_moves (s := arrived s m) (b := b) (own := (p, h, w)) joins four member (by rw [clk]; exact time)
        (by rw [clk, bound]; exact limit) (by rw [clk, chan]; exact found) another
      have at_ := getChan_setChan_same (arrived s m) c (channelMoved (getChan (arrived s m) c) b (p, h, w))
      have beside := getChan_setChan_beside (arrived s m) c (channelMoved (getChan (arrived s m) c) b (p, h, w))
      have last : Evolves 33344 s (setChan (arrived s m) c (channelMoved (getChan (arrived s m) c) b (p, h, w))) :=
        setChan_evolves _ _ _ rfl (step.mono rfl)
      rw [chan] at moves at_ beside last
      refine completes_delivered position turn ((deliverPair_position _ _).trans moves) rfl ?_
      have kept (u : State) (p : PairSt) : getChan (setPair u p) = getChan u := rfl
      rw [kept, at_]
      refine ⟨rfl, rfl, rfl, rfl, rfl, ?_, beside, (setPair_evolves (m := 33344) _ _ rfl last).only (by decide)⟩
      exact fun mem => absurd (List.mem_filter.1 mem).2 (by simp [c])

/-- Tiles of the partner (R113, R114). -/
theorem pairTilesRule : PairTilesRule := by
  refine ⟨fun s m turn => ?_, fun s m turn => ?_⟩
  · intro b found
    have req : (0x31, Instr.tileReq) ∈ pairSequenced := by simp [pairSequenced]
    have step := arrived_evolves s m
    have dram : (arrived s m).dram = s.dram := step.same .dram rfl
    have addr : granAddr (arrived s m) = granAddr s := granAddr_arrived s m
    have same : findTile (arrived s m) (bytesAt b 0 4) (bytesAt b 4 1) (bytesAt b 5 1) (bytesAt b 6 6) = found := by
      rw [findTile, step.same .print rfl]
      rfl
    refine ⟨fun unsound => ?_, fun x is holds sound => ?_⟩
    · refine completes_arrived req turn ((deliverPair_tileReq _ _).trans ?_)
      unfold onTileReq
      rw [same]
      cases h : found with
      | none => rfl
      | some x =>
        dsimp only
        rw [dram, addr]
        exact if_pos (unsound x h)
    · let c := memRead s.dram.mem (granAddr s x.gran) x.length
      have answers : onTileReq (arrived s m) b = pairSendSeq (arrived s m) 0x32 0 (c ++ descBytes x) := by
        unfold onTileReq
        rw [same, is]
        dsimp only
        rw [dram, addr]
        exact if_neg (by rintro (h | h) <;> contradiction)
      obtain ⟨us, some_, kept, types, whole⟩ := unacked_pairSendSeq_parts (arrived s m) 0x32 0 (c ++ descBytes x)
      obtain ⟨n, vs, on, pair⟩ := sentMore_pairSendSeq (arrived s m) 0x32 0 (c ++ descBytes x)
      have length : c.length = x.length := by simp only [c, memRead_eq, List.length_map, List.length_range]
      refine completes_delivered req turn ((deliverPair_tileReq _ _).trans answers) (by rw [pair])
        ⟨⟨us, some_, kept, types, ?_⟩, (pairSendSeq_evolves (m := 8421440) _ _ _ _ rfl (step.mono rfl)).only (by decide)⟩
      rw [whole]
      exact List.take_left' length
  · intro b n c found whole
    have data : (0x32, Instr.tileData) ∈ pairSequenced := by simp [pairSequenced]
    have step := arrived_evolves s m
    have single : (arrived s m).pair.partial_ = none := turn.2.2.2
    have dram : (arrived s m).dram = s.dram := step.same .dram rfl
    have addr : granAddr (arrived s m) = granAddr s := granAddr_arrived s m
    have delivers := deliverPair_tileData single whole
    have same : findTile (arrived s m) (bytesAt c 4 4) (bytesAt c 8 1) (bytesAt c 9 1) (bytesAt c 0xA 6) = found := by
      rw [findTile, step.same .print rfl]
      rfl
    refine ⟨fun idle => ?_, fun x is asked sound length => ?_⟩
    · refine completes_arrived data turn (delivers.trans ?_)
      unfold onTileData
      dsimp only
      rw [same]
      cases h : found with
      | none => rfl
      | some x =>
        obtain ⟨no4, no5⟩ := idle x h
        dsimp only
        rw [if_neg no4, if_neg no5]
    · let y : Tile := { x with recovery := 0, state := 2, storeCrc := bytesAt b (n + 0x18) 4, contentCrc := bytesAt c 0x14 4 }
      have replaces : onTileData (arrived s m) b = enqueueThaw (setTile (writeMem (arrived s m) (granAddr s x.gran) c) y) 0 x := by
        unfold onTileData
        dsimp only
        rw [same, is]
        dsimp only
        rw [if_pos asked, addr]
        exact if_pos ⟨sound, length⟩
      refine completes_delivered data turn (delivers.trans replaces) rfl ?_
      rw [mem_enqueueThaw, mem_setTile, ← dram]
      rfl

/-- Settles O43: the copy of a join step by step, the alignment of channels, and the tiles of the partner. -/
theorem pairJoin : Obligations.PairJoin := ⟨pairCopyRule, pairTilesRule⟩

end Sys2Proof.Proofs
end

section
/-! PROOFS. AxisMotion (R380, R382 to R387): the records of the axes, steps, updates of a profile, targets and stops. -/

namespace Sys2Proof.Machine
open Sys2Proof

variable {s t : State} {n : Nat}

/-! ### One axis and the others -/

theorem getAxis_setAxis_same (s : State) (n : Nat) (x : Axis) : getAxis (setAxis s n x) n = x := by
  rw [getAxis_setAxis, if_pos rfl]

theorem axesKept_setAxis (s : State) (n : Nat) (x : Axis) : axesKept s (setAxis s n x) n :=
  fun k other => by rw [getAxis_setAxis, if_neg other]

theorem axesKept_of_motion (h : t.motion = s.motion) : axesKept s t n := fun k _ => by rw [getAxis, h, getAxis]

theorem axesKept.trans {u : State} (h : axesKept s t n) (g : axesKept t u n) : axesKept s u n :=
  fun k other => (g k other).trans (h k other)

theorem only_setAxis (s : State) (n : Nat) (x : Axis) : onlyChanges [.motion] s (setAxis s n x) :=
  (setAxis_evolves (m := 65536) _ _ _ rfl .rfl).only (by decide)

theorem motion_ev (s : State) (p b : Nat) : (ev s p b).motion = s.motion :=
  (ev_evolves (m := 8523841) _ _ _ rfl .rfl).same .motion rfl

theorem motion_count (s : State) (p k : Nat) : (count s p k).motion = s.motion := by simp only [count_fields]

theorem getAxis_of_motion (h : t.motion = s.motion) (k : Nat) : getAxis t k = getAxis s k := by rw [getAxis, h, getAxis]

theorem pgAx_not_evc (n : Nat) : pgAx n ≠ pgEvc := by
  unfold pgAx pgEvc
  omega

theorem pgAx_not_sys (n : Nat) : pgAx n ≠ pgSys := by
  unfold pgAx pgSys
  omega

theorem isHeader_ax (h : n < 16) : isHeader (pgAx n) = true := by
  interval_cases n <;> decide

/-! ### Steps that are owed -/

/-- Of an axis only what is scheduled differs. -/
def Axis.rescheduled (x y : Axis) : Prop := ∃ k neg dn dt late, y = { x with sched := k, schedNeg := neg, dirNeg := dn, dirT := dt, backlog := late }

theorem schedule_reschedules (s : State) (x : Axis) (owed : Int) :
    (∃ neg dn dt, schedule s x owed = { x with sched := owed.natAbs, schedNeg := neg, dirNeg := dn, dirT := dt }) := by
  unfold schedule
  dsimp only
  split
  · exact ⟨_, _, _, rfl⟩
  · exact ⟨_, _, _, rfl⟩

/-- A source event schedules the steps owed and counts STEP_OVERRUN only. -/
theorem sourceEvent_leaves (s : State) (n t : Nat) :
    (getAxis s n).rescheduled (getAxis (sourceEvent s n t) n) ∧
      (getAxis (sourceEvent s n t) n).sched = ((getAxis s n).cmdSteps - (getAxis s n).act).natAbs ∧
      axesKept s (sourceEvent s n t) n ∧
      ∀ k, k < 128 → k ≠ 6 → counter (sourceEvent s n t) (pgAx n) k = counter s (pgAx n) k := by
  let x := getAxis s n
  let u := if 64 < x.sched then count (ev s (pgAx n) 18) (pgAx n) 6 else s
  have motion : u.motion = s.motion := by
    unfold u
    split
    · rw [motion_count, motion_ev]
    · rfl
  have counts (k : Nat) (hk : k < 128) (other : k ≠ 6) : counter u (pgAx n) k = counter s (pgAx n) k := by
    unfold u
    split
    · rw [counter_count, if_neg (by omega), counter_ev (pgAx_not_evc n) hk]
    · rfl
  obtain ⟨neg, dn, dt, y⟩ := schedule_reschedules u x (x.cmdSteps - x.act)
  have set : sourceEvent s n t = setAxis u n { schedule u x (x.cmdSteps - x.act) with
      backlog := decide (x.cmdSteps - x.act ≠ 0) && (x.backlog || decide (t < (x.cmdSteps - x.act).natAbs * pMin u n)) } := rfl
  rw [set, getAxis_setAxis_same, y]
  exact ⟨⟨_, _, _, _, _, rfl⟩, rfl, axesKept.trans (axesKept_of_motion motion) (axesKept_setAxis u n _),
    fun k hk other => (counts k hk other)⟩

/-! ### Steps -/

theorem drivesShared_of (pair : t.pair = s.pair) (sys : t.sys = s.sys) : drivesShared t = drivesShared s := by
  rw [drivesShared, isActive, pair, sys, drivesShared, isActive]

/-- An axis that has emitted its next scheduled step. -/
def stepTaken (s : State) (x : Axis) : Axis :=
  let d : Int := if x.schedNeg then -1 else 1
  let x := if drivesShared s then { x with counted := x.counted + d } else x
  { x with act := x.act + d, sched := x.sched - 1, lastNeg := x.schedNeg, stepT := some (ptTotalNs s),
           stepHist := ptTotalNs s :: x.stepHist.take 7, backlog := x.backlog && x.sched != 1 }

/-- The step leaves on the ball that the unit drives (R380). -/
def stepSent (s : State) (n : Nat) : State :=
  let x := getAxis s n
  let s := count s (pgAx n) (b2n x.schedNeg)
  if drivesShared s then send s (.stepPulse n (x.schedNeg == rdb s (axA n 0x40) 3)) else s

theorem execStep_free (h : n < 16) (owed : (getAxis s n).sched ≠ 0) (free : stepHeld s n = false) :
    execStep n s = .next (setAxis (stepSent s n) n (stepTaken (count s (pgAx n) (b2n (getAxis s n).schedNeg)) (getAxis s n))) := by
  unfold execStep
  dsimp only
  rw [Nat.mod_eq_of_lt h, if_neg owed, if_neg (by rw [free]; decide), stepSent, stepTaken]
  cases drivesShared (count s (pgAx n) (b2n (getAxis s n).schedNeg)) <;> rfl

theorem stepSent_leaves (s : State) (n : Nat) :
    let x := getAxis s n
    (stepSent s n).motion = s.motion ∧ counted s (stepSent s n) (pgAx n) (b2n x.schedNeg) ∧
      sends s (stepSent s n) (if drivesShared s then [.stepPulse n (x.schedNeg == rdb s (axA n 0x40) 3)] else []) ∧
      Evolves 8388672 s (stepSent s n) := by
  intro x
  let u := count s (pgAx n) (b2n x.schedNeg)
  have step : Evolves 64 s u := count_evolves _ _ _ rfl .rfl
  have drives : drivesShared u = drivesShared s := drivesShared_of (step.same .pair rfl) (step.same .sys rfl)
  have word : rdb u (axA n 0x40) 3 = rdb s (axA n 0x40) 3 := by rw [rdb, step.rd_eq rfl, rdb]
  have out : u.out = s.out := step.same .out rfl
  have same : stepSent s n = if drivesShared s then send u (.stepPulse n (x.schedNeg == rdb s (axA n 0x40) 3)) else u := by
    rw [← drives, ← word]
    rfl
  rw [same]
  split
  · refine ⟨?_, ?_, ?_, send_evolves _ _ rfl (step.mono rfl)⟩
    · exact (send_evolves (m := 8388608) u _ rfl .rfl).same .motion rfl |>.trans (step.same .motion rfl)
    · rw [counted, (send_evolves (m := 8388608) u _ rfl .rfl).counter_eq rfl]
      exact counted_count s _ _
    · rw [sends, ← out]
      rfl
  · exact ⟨step.same .motion rfl, counted_count s _ _, by rw [sends, List.append_nil, out], step.mono rfl⟩

/-! ### Updates of a profile -/

theorem execProfileUpdate_off (h : n < 16) (off : pgEn s (pgAx n) = false) : execProfileUpdate n s = .next s := by
  unfold execProfileUpdate
  dsimp only
  rw [Nat.mod_eq_of_lt h, if_pos (.inl off)]

/-- An update of an axis in motion, of which no new target waits. -/
theorem execProfileUpdate_moves (h : n < 16) (on : pgEn s (pgAx n) = true) (ready : (getAxis s n).waiting = 0)
    (moves : (getAxis s n).plan ≠ [] ∨ (getAxis s n).qstop = true) :
    execProfileUpdate n s = .next (
      if (getAxis s n).qstop then sourceEvent (setAxis s n (qstopUpdate s n (getAxis s n))) n 1000
      else
        let r := planUpdate (getAxis s n)
        let u := sourceEvent (setAxis s n r.1) n 1000
        if r.2 then planEnd u n else u) := by
  have acts : ¬(pgEn s (pgAx n) = false ∨ axMode s n ≠ 1 ∧ (getAxis s n).plan.isEmpty = true ∧ (getAxis s n).qstop = false) := by
    rintro (off | ⟨-, empty, still⟩)
    · rw [on] at off
      exact absurd off (by decide)
    · rcases moves with plan | stop
      · exact plan (List.isEmpty_iff.1 empty)
      · rw [stop] at still
        exact absurd still (by decide)
  have same : startPlan s n (getAxis s n) = getAxis s n := if_pos ready
  unfold execProfileUpdate
  dsimp only
  rw [Nat.mod_eq_of_lt h, if_neg acts, same, ready]
  rfl

theorem planUpdate_phase {x : Axis} {j : Int} {k : Nat} {rest : List (Int × Nat)} (plan : x.plan = (j, k) :: rest) (more : 1 < k) :
    planUpdate x = ({ x with a := x.a + j, v := x.v + (x.a + j), p := x.p + (x.v + (x.a + j)), plan := (j, k - 1) :: rest }.follow, false) := by
  unfold planUpdate
  rw [plan]
  have on : (if k ≤ 1 then rest else (j, k - 1) :: rest) = (j, k - 1) :: rest := if_neg (by omega)
  simp only [on]
  rfl

theorem planUpdate_last {x : Axis} {j : Int} (plan : x.plan = [(j, 1)]) :
    planUpdate x = ({ x with a := 0, v := 0, p := stepUnits x.goal, plan := [] }.follow, true) := by
  unfold planUpdate
  rw [plan]
  rfl

theorem qstopUpdate_leaves (s : State) (n : Nat) (x : Axis) (a : Int) (brake : a = if 0 < x.v then -(axQdec s n : Int) else axQdec s n) :
    ((x.v = 0 ∨ (x.v + a) * x.v ≤ 0) → (qstopUpdate s n x).v = 0 ∧ (qstopUpdate s n x).a = 0 ∧ (qstopUpdate s n x).qstop = false ∧
        (qstopUpdate s n x).p = x.p) ∧
      (¬(x.v = 0 ∨ (x.v + a) * x.v ≤ 0) → (qstopUpdate s n x).v = x.v + a ∧ (qstopUpdate s n x).p = x.p + (x.v + a) ∧
        (qstopUpdate s n x).qstop = x.qstop) ∧ (qstopUpdate s n x).act = x.act := by
  have same : qstopUpdate s n x = if x.v = 0 ∨ (x.v + a) * x.v ≤ 0 then { x with v := 0, a := 0, qstop := false }.follow
      else { x with a := a, v := x.v + a, p := x.p + (x.v + a) }.follow := by
    subst brake
    rfl
  rw [same]
  split
  · next stops => exact ⟨fun _ => ⟨rfl, rfl, rfl, rfl⟩, fun goes => absurd stops goes, rfl⟩
  · next goes => exact ⟨fun stops => absurd stops goes, fun _ => ⟨rfl, rfl, rfl⟩, rfl⟩

/-- The axis has come to its target: AT_TARGET, and its count and event. -/
theorem planEnd_atTarget (rest : (getAxis s n).homing = 0) (free : (getAxis s n).stopping = false) :
    planEnd s n = ev (count (setAxis s n { getAxis s n with atTarget := true }) (pgAx n) 2) (pgAx n) 8 := by
  unfold planEnd
  dsimp only
  rw [rest, free]
  rfl

/-! ### Stops -/

theorem ungear_leaves (s : State) (n : Nat) :
    (ungear s n).geared = false ∧ (ungear s n).act = (getAxis s n).act ∧ (ungear s n).qstop = (getAxis s n).qstop ∧
      ((getAxis s n).geared = false → ungear s n = getAxis s n) := by
  unfold ungear
  dsimp only
  split
  · next geared => exact ⟨rfl, rfl, rfl, fun still => absurd (still.symm.trans geared) (by decide)⟩
  · next still => exact ⟨by simpa using still, rfl, rfl, fun _ => rfl⟩

/-! ### Targets -/

theorem signed_of_mod {w a b : Nat} (h : a % 2 ^ w = b % 2 ^ w) : signed w a = signed w b := by
  unfold signed
  rw [h]

theorem targetRefusal_lt {v : Int} {b : Nat} (h : targetRefusal s n v = some b) : b < 32 := by
  unfold targetRefusal at h
  dsimp only at h
  split_ifs at h <;> cases h <;> decide

/-- TARGET_HI has 16 writable bits, above which the target has none (R384). -/
theorem store_target (h : n < 16) (hi : Nat) :
    store s (axA n 0x64) hi = { wr (wr s (axA n 0x60) (heldLow s (axA n 0x60))) (axA n 0x64)
      (writtenWord { off := 0x64, rw := 0xFFFF, half := 2 } (rd s (axA n 0x64)) hi) with held := tdel s.held (axA n 0x60) } := by
  refine store_high ?_ rfl
  interval_cases n <;> decide

theorem writtenWord_target (old hi : Nat) :
    writtenWord { off := 0x64, rw := 0xFFFF, half := 2 } old hi % 65536 = hi % 65536 := by
  have bits (i : Nat) : (writtenWord { off := 0x64, rw := 0xFFFF, half := 2 } old hi % 2 ^ 16).testBit i = (hi % 2 ^ 16).testBit i := by
    simp only [writtenWord, Nat.testBit_mod_two_pow, Nat.testBit_and, Nat.testBit_or, Nat.testBit_xor]
    by_cases low : i < 16
    · interval_cases i <;> simp [Nat.testBit]
    · simp [low]
  exact Nat.eq_of_testBit_eq bits

theorem axSteps_store_target (h : n < 16) (hi : Word) :
    axSteps (store s (axA n 0x64) hi.toNat) n 0x60 = writtenTarget s n hi := by
  rw [axSteps, writtenTarget]
  refine signed_of_mod ?_
  have word := writtenWord_target (rd s (axA n 0x64)) hi.toNat
  have low := heldLow_lt s (axA n 0x60)
  rw [store_target h]
  generalize writtenWord _ _ _ = w at *
  have words : rd64 { wr (wr s (axA n 0x60) (heldLow s (axA n 0x60))) (axA n 0x64) w with held := tdel s.held (axA n 0x60) } (axA n 0x60) =
      heldLow s (axA n 0x60) + 2 ^ 32 * (w % 2 ^ 32) := by
    have first_ : rd (wr (wr s (axA n 0x60) (heldLow s (axA n 0x60))) (axA n 0x64) w) (axA n 0x60) = heldLow s (axA n 0x60) := by
      rw [rd_wr, if_neg (by unfold axA ra; omega), rd_wr_same, Nat.mod_eq_of_lt low]
    have second : rd (wr (wr s (axA n 0x60) (heldLow s (axA n 0x60))) (axA n 0x64) w) (axA n 0x60 + 4) = w % 2 ^ 32 := rd_wr_same _ _ _
    exact congrArg₂ (fun a b => a + 2 ^ 32 * b) first_ second
  rw [words]
  omega

end Sys2Proof.Machine

namespace Sys2Proof.Proofs
open Sys2Proof Sys2Proof.Machine

theorem bne_eq_decide (a b : Int) : (a != b) = decide (a ≠ b) := by
  rw [decide_not]
  rfl

/-- Settles O44: steps, updates of a profile, targets, and the stops of an axis. -/
theorem axisMotion : Obligations.AxisMotion := by
  refine ⟨fun s n hn => ?_, fun s n hn => ?_, fun s rq n hi hn open_ => ?_, fun s rq n => ?_, fun s rq n bit c hn command open_ off => ?_⟩
  · intro x
    have axis : n % 16 = n := Nat.mod_eq_of_lt hn
    refine ⟨fun idle => ?_, fun owed held => ?_, fun owed free => ?_⟩
    · simp only [exec, execStep, axis]
      rw [if_pos idle]
    · refine ⟨setAxis s n { x with backlog := true }, ?_, getAxis_setAxis_same s n _, axesKept_setAxis s n _, only_setAxis s n _⟩
      simp only [exec, execStep, axis]
      rw [if_neg owed, if_pos held]
    · obtain ⟨motion, tally, sent, step⟩ := stepSent_leaves s n
      refine ⟨_, execStep_free hn owed free, ?_, ?_, ?_, tally, sent, axesKept.trans (axesKept_of_motion motion) (axesKept_setAxis _ n _),
        (setAxis_evolves (m := 8454208) _ _ _ rfl (step.mono rfl)).only (by decide)⟩
      all_goals rw [getAxis_setAxis_same, stepTaken]
      · cases x.schedNeg <;> cases drivesShared (count s (pgAx n) _) <;> rfl
      · split <;> rfl
      · split <;> rfl
  · intro x
    refine ⟨fun off => execProfileUpdate_off hn off, fun on ready => ⟨fun j k rest still plan more => ?_, fun j still plan idle free => ?_,
      fun stop => ?_⟩⟩
    · let y : Axis := { x with a := x.a + j, v := x.v + (x.a + j), p := x.p + (x.v + (x.a + j)), plan := (j, k - 1) :: rest }.follow
      have does : execProfileUpdate n s = .next (sourceEvent (setAxis s n y) n 1000) := by
        rw [execProfileUpdate_moves hn on ready (.inl (by rw [plan]; exact List.cons_ne_nil _ _)), still, planUpdate_phase plan more]
        rfl
      obtain ⟨⟨sc, neg, dn, dt, late, z⟩, sched, kept, -⟩ := sourceEvent_leaves (setAxis s n y) n 1000
      rw [getAxis_setAxis_same] at z sched
      refine ⟨_, does, ?_⟩
      refine ⟨?_, ?_, ?_, ?_, ?_, ?_, sched, axesKept.trans (axesKept_setAxis s n y) kept⟩ <;> rw [z] <;> rfl
    · let y : Axis := { x with a := 0, v := 0, p := stepUnits x.goal, plan := [] }.follow
      let u := sourceEvent (setAxis s n y) n 1000
      obtain ⟨⟨sc, neg, dn, dt, late, z⟩, -, kept, counts⟩ := sourceEvent_leaves (setAxis s n y) n 1000
      rw [getAxis_setAxis_same] at z
      have ends : planEnd u n = ev (count (setAxis u n { getAxis u n with atTarget := true }) (pgAx n) 2) (pgAx n) 8 :=
        planEnd_atTarget (by rw [z]; exact idle) (by rw [z]; exact free)
      have does : execProfileUpdate n s = .next (planEnd u n) := by
        rw [execProfileUpdate_moves hn on ready (.inl (by rw [plan]; exact List.cons_ne_nil _ _)), still, planUpdate_last plan]
        rfl
      have axis : getAxis (planEnd u n) n = { getAxis u n with atTarget := true } := by
        rw [ends, getAxis_of_motion (motion_ev _ _ _), getAxis_of_motion (motion_count _ _ _), getAxis_setAxis_same]
      have others : axesKept u (planEnd u n) n := by
        rw [ends]
        exact axesKept.trans (axesKept_setAxis u n _) (axesKept_of_motion ((motion_ev _ _ _).trans (motion_count _ _ _)))
      refine ⟨_, does, ?_, ?_, ?_, ?_, ?_, ?_, ?_, ?_, axesKept.trans (axesKept.trans (axesKept_setAxis s n y) kept) others⟩
      · rw [axis, z]
        rfl
      · have scaled : x.goal * 2 ^ 48 / 2 ^ 32 = x.goal * 65536 := by omega
        rw [axis, z]
        exact scaled
      · rw [axis, z]
        rfl
      · rw [axis, z]
        rfl
      · rw [axis, z]
        rfl
      · rw [axis]
      · rw [ends]
        exact testBit_evPend_raised _ _ (by decide)
      · rw [ends, counted, counter_ev (pgAx_not_evc n) (by decide), counter_count, if_pos rfl]
        exact congrArg (fun c => (c + 1) % 2 ^ 64) (counts 2 (by decide) (by decide))
    · intro a
      let y := qstopUpdate s n x
      obtain ⟨halts, goes, act⟩ := qstopUpdate_leaves s n x a rfl
      have does : execProfileUpdate n s = .next (sourceEvent (setAxis s n y) n 1000) := by
        rw [execProfileUpdate_moves hn on ready (.inr stop), stop]
        rfl
      obtain ⟨⟨sc, neg, dn, dt, late, z⟩, -, kept, -⟩ := sourceEvent_leaves (setAxis s n y) n 1000
      rw [getAxis_setAxis_same] at z
      refine ⟨_, does, ?_, ?_, ?_, axesKept.trans (axesKept_setAxis s n y) kept⟩ <;> rw [z]
      · exact halts
      · rw [stop] at goes
        exact goes
      · exact act
  · intro v
    have given : v = writtenTarget s n hi := rfl
    refine ⟨fun free => ?_, fun b refused => ?_⟩
    · have free' : targetRefusal s n (signed 48 (heldLow s (axA n 0x64 - 4) + 2 ^ 32 * (hi.toNat % 65536))) = none := free
      let u := store s (axA n 0x64) hi.toNat
      have step : Evolves 5 s u := store_frame s _ _
      have axis : n % 16 = n := Nat.mod_eq_of_lt hn
      refine ⟨setAxis u n { getAxis u n with waiting := 20, atTarget := false }, ?_, ?_, axSteps_store_target hn hi,
        axesKept.trans (axesKept_of_motion (step.same .motion rfl)) (axesKept_setAxis u n _)⟩
      · simp only [exec, execTargetWrite, axis, gated_of_admitted open_, free']
        rfl
      · rw [getAxis_setAxis_same, step.getAxis_eq rfl]
    · have dropped := dropHeld_frame s (axA n 0x60)
      refine ⟨_, exec_targetWrite_refused rq hn open_ refused, ?_, raised_ev _ _ (targetRefusal_lt refused), wordsKept_ev _ _ _⟩
      rw [motion_ev]
      exact dropped.same .motion (by decide)
  · refine ⟨fun ⟨hn, open_, on⟩ => ?_, fun ⟨hn, open_, on⟩ => ?_⟩
    · let y : Axis := { ungear s n with homing := 0, homeRev := false }
      have on' : exec (.stop rq n) s = .next (if y.qstop then setAxis s n y else setAxis s n (planStop s n y)) := by
        have axis : n % 16 = n := Nat.mod_eq_of_lt hn
        simp only [exec, execStop, axis, axisCmd]
        rw [gated_of_admitted open_, if_pos on]
      obtain ⟨geared, act, qstop, same⟩ := ungear_leaves s n
      by_cases stops : (getAxis s n).qstop = true
      · rw [if_pos (qstop.trans stops)] at on'
        refine ⟨_, on', ?_⟩
        beta_reduce
        rw [getAxis_setAxis_same]
        exact ⟨geared, rfl, act, fun still => absurd (still.symm.trans stops) (by decide), axesKept_setAxis s n _, only_setAxis s n _⟩
      · rw [if_neg (fun h => stops (qstop.symm.trans h))] at on'
        refine ⟨_, on', ?_⟩
        beta_reduce
        rw [getAxis_setAxis_same]
        refine ⟨geared, rfl, act, fun _ => ⟨rfl, fun free v a => ?_⟩, axesKept_setAxis s n _, only_setAxis s n _⟩
        have rest : y.v = 0 ∧ y.a = 0 := by
          constructor
          · exact (congrArg Axis.v (same free)).trans v
          · exact (congrArg Axis.a (same free)).trans a
        exact if_pos rest
    · have on' : exec (.qstop rq n) s = .next (quickStop s n) := by
        have axis : n % 16 = n := Nat.mod_eq_of_lt hn
        simp only [exec, execQstop, axis, axisCmd]
        rw [gated_of_admitted open_, if_pos on]
      obtain ⟨geared, act, -, -⟩ := ungear_leaves s n
      refine ⟨quickStop s n, on', ?_⟩
      beta_reduce
      rw [quickStop, getAxis_setAxis_same]
      exact ⟨geared, rfl, rfl, rfl, bne_eq_decide _ _, act, axesKept_setAxis s n _, only_setAxis s n _⟩
  · refine ⟨refuse s (pgAx n), ?_, refuse_leaves s (isHeader_ax hn)⟩
    have off' (act : State → State) : axisCmd s n bit act = refuse s (pgAx n) := by
      rw [axisCmd, gated_of_admitted open_, off]
      rfl
    have axis : n % 16 = n := Nat.mod_eq_of_lt hn
    simp only [List.mem_cons, List.not_mem_nil, or_false, Prod.mk.injEq] at command
    rcases command with ⟨rfl, rfl⟩ | ⟨rfl, rfl⟩ | ⟨rfl, rfl⟩ | ⟨rfl, rfl⟩ | ⟨rfl, rfl⟩ | ⟨rfl, rfl⟩ | ⟨rfl, rfl⟩ <;>
      simp only [exec, execStop, execQstop, execHome, execEngage, execDisengage, execSetPos, execAxisClrFault, axis, off']

end Sys2Proof.Proofs
end

section
/-! PROOFS. HomingAndLimits (R392 to R396): the phases of a homing sequence, its latch and its failure, and the limits. -/

namespace Sys2Proof.Machine
open Sys2Proof

variable {s t : State} {n : Nat}

/-! ### Commands of an enabled axis -/

theorem axisCmd_of_takes {bit : Nat} (h : axisTakes s n bit) (act : State → State) : axisCmd s n bit act = act s := by
  obtain ⟨hn, open_, on⟩ := h
  rw [axisCmd, gated_of_admitted open_]
  exact if_pos on

theorem axis_of_takes {bit : Nat} (h : axisTakes s n bit) : n % 16 = n := Nat.mod_eq_of_lt h.1

/-! ### What the configuration of the homing depends on -/

theorem homePos_of_regs (h : t.regs = s.regs) : homePos t n = homePos s n := by rw [homePos, rdb, rd, h, homePos, rdb, rd]

theorem homeMethod_of_regs (h : t.regs = s.regs) : homeMethod t n = homeMethod s n := by rw [homeMethod, rdf, rd, h, homeMethod, rdf, rd]

theorem axSteps_of_regs (h : t.regs = s.regs) (o : Nat) : axSteps t n o = axSteps s n o := by
  rw [axSteps, rd64, rd, rd, h, axSteps, rd64, rd, rd]

theorem regs_setAxis (s : State) (n : Nat) (x : Axis) : (setAxis s n x).regs = s.regs := rfl

/-- The home input is one of the inputs of the axis. -/
theorem homeActive_setAxis {x : Axis} (home : x.homeIn = (getAxis s n).homeIn) (limP : x.limP = (getAxis s n).limP)
    (limN : x.limN = (getAxis s n).limN) : homeActive (setAxis s n x) n = homeActive s n := by
  unfold homeActive
  dsimp only
  rw [getAxis_setAxis_same, homeMethod_of_regs (regs_setAxis s n x), homePos_of_regs (regs_setAxis s n x), home, limP, limN]

/-! ### The ends of the plans of a homing sequence (R394) -/

theorem planEnd_seek (phase : (getAxis s n).homing = 2) (active : homeActive s n = true) :
    planEnd s n = setAxis s n { cruise s n (getAxis s n) (!homePos s n) 0xB8 with homing := 3 } := by
  unfold planEnd
  dsimp only
  rw [if_pos phase, if_pos active]

theorem planEnd_homed (phase : (getAxis s n).homing = 6) : planEnd s n = homed s n := by
  unfold planEnd
  dsimp only
  rw [phase, if_neg (by decide), if_neg (by decide), if_pos rfl]

theorem planEnd_reverse (phase : (getAxis s n).homing = 8) :
    planEnd s n = setAxis s n { cruise s n (getAxis s n) (!homePos s n) 0xB8 with homing := 1, homeRev := true } := by
  unfold planEnd
  dsimp only
  rw [phase, if_neg (by decide), if_neg (by decide), if_neg (by decide), if_pos rfl]

/-! ### The home is latched (R394) -/

theorem counter_pairPut (s : State) (l type flags q : Nat) (body : List Byte) {p k : Nat} (hk : 0 < k) (h : k < 128) :
    counter (pairPut s l type flags q body) p k = counter s p k := by
  rw [pairPut, counter_count, if_neg (by omega), counter_count, if_neg (by omega)]
  simp

theorem counter_sent (s : State) (type flags : Nat) (body : List Byte) {p k : Nat} (hk : 0 < k) (h : k < 128) :
    counter (pairSendSeq s type flags body) p k = counter s p k := by
  have on (u : State) (ls : List Nat) (b : List Byte) : counter (pairSendOn u ls type flags b) p k = counter u p k := by
    refine List.foldlRecOn (motive := fun v => counter v p k = counter u p k) _ _ ?_
      fun v hv l _ => (counter_pairPut v l _ _ _ b hk h).trans hv
    rfl
  unfold pairSendSeq
  exact List.foldlRecOn (motive := fun v => counter v p k = counter s p k) _ _ rfl fun v hv b _ => (on v _ b).trans hv

theorem forwardShift_leaves (s : State) (n : Nat) (d : Int) :
    (forwardShift s n d).motion = s.motion ∧ (forwardShift s n d).regs = s.regs ∧ (forwardShift s n d).clk = s.clk ∧
      ∀ k, 0 < k → k < 128 → counter (forwardShift s n d) (pgAx n) k = counter s (pgAx n) k := by
  have step : Evolves 8421440 s (forwardShift s n d) := forwardShift_evolves _ _ _ rfl .rfl
  refine ⟨step.same .motion rfl, step.same .regs rfl, step.same .clk rfl, fun k hk h => ?_⟩
  unfold forwardShift
  split
  · rw [counter_sent _ _ _ _ hk h, counter_count, if_neg (by simp only [pgPair, pgAx]; omega)]
  · rfl

/-- The home at an edge: the axis stops with its position shifted to HOME_OFS at the edge, and has homed once at rest. -/
theorem homeLatch_leaves (s : State) (n : Nat) (edge : Int) :
    (getAxis (homeLatch s n edge) n).act = (getAxis s n).act + (axSteps s n 0xC4 - edge) ∧
      ((getAxis (homeLatch s n edge) n).homing = 6 ∨
        (getAxis (homeLatch s n edge) n).homing = 0 ∧ (getAxis (homeLatch s n edge) n).homed = true) ∧
      axesKept s (homeLatch s n edge) n ∧
      ∀ k, 0 < k → k < 128 → counter (homeLatch s n edge) (pgAx n) k = counter s (pgAx n) k := by
  let d := axSteps s n 0xC4 - edge
  let x := axisShift s (getAxis s n) d
  let v := forwardShift (setAxis s n x) n d
  obtain ⟨motion, -, -, counts⟩ := forwardShift_leaves (setAxis s n x) n d
  let y : Axis := { planStop v n x with homing := 6 }
  let w := setAxis v n y
  have latches : homeLatch s n edge = if (getAxis w n).plan.isEmpty then planEnd w n else w := rfl
  have at_ : getAxis w n = y := getAxis_setAxis_same v n y
  have kept : axesKept s w n :=
    axesKept.trans (axesKept_setAxis s n x) (axesKept.trans (axesKept_of_motion motion) (axesKept_setAxis v n y))
  rw [latches]
  split
  · have rest : planEnd w n = homed w n := planEnd_homed (by rw [at_])
    have axis : getAxis (homed w n) n = latchRef w n { y with homing := 0, homeRev := false, homed := true, atTarget := false } := by
      rw [← at_]
      exact (getAxis_of_motion (motion_ev _ _ _) n).trans (getAxis_setAxis_same _ _ _)
    rw [rest, axis]
    refine ⟨rfl, .inr ⟨rfl, rfl⟩, ?_, fun k hk h => ?_⟩
    · exact axesKept.trans kept (axesKept.trans (axesKept_setAxis w n _) (axesKept_of_motion (motion_ev _ _ _)))
    · exact (counter_ev (pgAx_not_evc n) h _ _ _).trans (counts k hk h)
  · rw [at_]
    exact ⟨rfl, .inl rfl, kept, counts⟩

/-! ### A homing sequence that fails, and limits in motion (R387, R393, R395, R396) -/

/-- A quick stop, its event and its record, class B. -/
def stopRecorded (s : State) (n bit code : Nat) : State := fault (ev (quickStop s n) (pgAx n) bit) code 1 (pgAx n) noBar [n]

theorem stopRecorded_leaves (s : State) (n code : Nat) {bit : Nat} (low : bit < 32) :
    getAxis (stopRecorded s n bit code) n = getAxis (quickStop s n) n ∧ (evPend (stopRecorded s n bit code) (pgAx n)).testBit bit = true ∧
      recorded s (stopRecorded s n bit code) code 1 ∧ axesKept s (stopRecorded s n bit code) n ∧
      ∀ k, k < 128 → counter (stopRecorded s n bit code) (pgAx n) k = counter s (pgAx n) k := by
  have stop : Evolves 65536 s (quickStop s n) := quickStop_evolves _ _ rfl .rfl
  have event : Evolves 8523841 (quickStop s n) (ev (quickStop s n) (pgAx n) bit) := ev_evolves _ _ _ rfl .rfl
  have record : Evolves 11669569 (ev (quickStop s n) (pgAx n) bit) (stopRecorded s n bit code) := fault_below_D _ _ _ _ (by decide) _
  have motion : (stopRecorded s n bit code).motion = (quickStop s n).motion := by rw [record.same .motion rfl, event.same .motion rfl]
  refine ⟨getAxis_of_motion motion n, testBit_evPend_fault (testBit_evPend_raised _ _ low) _ _ _ (by decide) _,
    recorded_of_keepsLog ((keepsLog.of stop (by decide)).trans (.of event (by decide))) (recorded_fault _ _ _ _ _ _),
    axesKept.trans (axesKept_setAxis s n _) (axesKept_of_motion motion), fun k hk => ?_⟩
  have counts := counter_fault (ev (quickStop s n) (pgAx n) bit) code (pgAx n) noBar (cls := 1) (by decide) [n] (pgAx_not_sys n)
    (pgAx_not_evc n) hk
  exact counts.trans ((counter_ev (pgAx_not_evc n) hk _ _ _).trans (stop.counter_eq rfl _ _))

theorem getAxis_quickStop (s : State) (n : Nat) :
    (getAxis (quickStop s n) n).homing = 0 ∧ (getAxis (quickStop s n) n).plan = [] ∧ (getAxis (quickStop s n) n).geared = false ∧
      (getAxis (quickStop s n) n).qstop = decide ((getAxis (quickStop s n) n).v ≠ 0) ∧
      (getAxis (quickStop s n) n).limP = (getAxis s n).limP ∧ (getAxis (quickStop s n) n).limN = (getAxis s n).limN := by
  have lim : (ungear s n).limP = (getAxis s n).limP ∧ (ungear s n).limN = (getAxis s n).limN := by
    unfold ungear
    dsimp only
    split <;> exact ⟨rfl, rfl⟩
  rw [quickStop, getAxis_setAxis_same]
  exact ⟨rfl, rfl, (ungear_leaves s n).1, Proofs.bne_eq_decide _ _, lim.1, lim.2⟩

/-! ### HOME (R394, R396) -/

/-- An axis that begins its search: not homed, its profile at rest at the commanded position. -/
def searching (x : Axis) : Axis :=
  { x with homed := false, homeRev := false, atTarget := false, p := if x.busy then x.p else x.cmd * 2 ^ 32 }

/-- HOME of an axis whose home is active: a stop, and then the search away from the home. -/
def homeLeft (s : State) (n : Nat) : State :=
  let s := setAxis s n { planStop s n (searching (getAxis s n)) with homing := 2 }
  if (getAxis s n).plan.isEmpty then planEnd s n else s

theorem homeLeft_leaves (active : homeActive s n = true) :
    (getAxis (homeLeft s n) n).homing ∈ [2, 3] ∧ (getAxis (homeLeft s n) n).homed = false ∧
      (getAxis (homeLeft s n) n).act = (getAxis s n).act ∧ axesKept s (homeLeft s n) n := by
  let y : Axis := { planStop s n (searching (getAxis s n)) with homing := 2 }
  let u := setAxis s n y
  have same : homeLeft s n = if (getAxis u n).plan.isEmpty then planEnd u n else u := rfl
  have at_ : getAxis u n = y := getAxis_setAxis_same s n y
  rw [same]
  split
  · have seeks := planEnd_seek (s := u) (n := n) (by rw [at_]) ((homeActive_setAxis (x := y) rfl rfl rfl).trans active)
    rw [seeks, getAxis_setAxis_same, at_]
    exact ⟨List.mem_cons_of_mem _ List.mem_cons_self, rfl, rfl, axesKept.trans (axesKept_setAxis s n y) (axesKept_setAxis u n _)⟩
  · rw [at_]
    exact ⟨List.mem_cons_self, rfl, rfl, axesKept_setAxis s n y⟩

/-- The states that HOME finds an axis in. -/
theorem execHome_eq (rq : Requester) (takes : axisTakes s n 2) :
    execHome rq n s = .next (
      if (getAxis s n).geared = true ∨ homeMethod s n = 3 ∨ axMode s n ≠ 1 ∨ (getAxis s n).fault = true then refuse s (pgAx n)
      else if (if homePos s n then (getAxis s n).limP else (getAxis s n).limN) = true ∧ homeMethod s n ≠ 2 then ev s (pgAx n) 11
      else if homeMethod s n ≠ 1 ∧ homeActive s n = true then homeLeft s n
      else setAxis s n { cruise s n (searching (getAxis s n)) (homePos s n) (if homeMethod s n = 1 then 0xBC else 0xB8) with homing := 1 }) := by
  simp only [execHome, axisCmd_of_takes takes, axis_of_takes takes]
  rfl

/-! ### The home input (R394) -/

/-- What an edge of the home input does by the phase of the homing, in the SWITCH method. -/
def homeEdge (s : State) (n : Nat) (active : Bool) (back : Nat) : State :=
  let x := getAxis s n
  if x.homing = 1 ∧ active = true ∧ x.homeRev = false then setAxis s n { planStop s n x with homing := 2 }
  else if x.homing = 1 ∧ active = true then setAxis s n { x with homing := 7 }
  else if x.homing = 7 ∧ active = false then approach s n
  else if x.homing = 3 ∧ active = false then backOffSteps s n
  else if x.homing = 5 ∧ active = true then homeLatch s n (if homePos s n then x.act - back else x.act + back)
  else s

theorem exec_homeInput (h : n < 16) (active : Bool) (back : Nat) :
    let u := setAxis s n { getAxis s n with homeIn := active }
    exec (.homeInput n active back) s =
      .next (if (getAxis s n).homing = 0 ∨ homeMethod s n ≠ 0 then u else homeEdge u n active back) := by
  intro u
  have at_ : getAxis u n = { getAxis s n with homeIn := active } := getAxis_setAxis_same s n _
  have phase : (getAxis s n).homing = (getAxis u n).homing := by rw [at_]
  have method : homeMethod s n = homeMethod u n := rfl
  rw [phase, method]
  simp only [exec, execHomeInput, Nat.mod_eq_of_lt h]
  rfl

/-! ### Limits (R392, R393, R395) -/

/-- A limit that has come is flagged and counted. -/
def limitSet (s : State) (n : Nat) (pos : Bool) : State := count (setAxis s n (setLimit (getAxis s n) pos true)) (pgAx n) 3

theorem limitSet_leaves (s : State) (n : Nat) (pos : Bool) :
    getAxis (limitSet s n pos) n = setLimit (getAxis s n) pos true ∧ axesKept s (limitSet s n pos) n ∧
      counted s (limitSet s n pos) (pgAx n) 3 ∧ Evolves 65600 s (limitSet s n pos) := by
  refine ⟨?_, ?_, counted_count (setAxis s n _) _ _, count_evolves _ _ _ rfl (setAxis_evolves _ _ _ rfl .rfl)⟩
  · exact (getAxis_of_motion (motion_count _ _ _) n).trans (getAxis_setAxis_same s n _)
  · exact axesKept.trans (axesKept_setAxis s n _) (axesKept_of_motion (motion_count _ _ _))

theorem limitOf_setLimit (x : Axis) (pos on : Bool) : limitOf (setLimit x pos on) pos = on := by cases pos <;> rfl

theorem exec_limitAssert_new (h : n < 16) {pos : Bool} (new : limitOf (getAxis s n) pos = false) :
    exec (.limitAssert n pos) s = .next (
      if (getAxis s n).homing ≠ 0 then limitHoming (limitSet s n pos) n pos
      else if ((getAxis s n).busy || (getAxis s n).geared) = true then stopRecorded (limitSet s n pos) n 11 0x0B02
      else limitSet s n pos) := by
  simp only [exec, execLimitAssert, Nat.mod_eq_of_lt h]
  rw [new]
  rfl

theorem setLimit_keeps (x : Axis) (pos on : Bool) :
    (setLimit x pos on).homing = x.homing ∧ (setLimit x pos on).homeRev = x.homeRev ∧ (setLimit x pos on).act = x.act ∧
      (setLimit x pos on).stepHist = x.stepHist := by
  cases pos <;> exact ⟨rfl, rfl, rfl, rfl⟩

theorem limitOf_quickStop (s : State) (n : Nat) (pos : Bool) : limitOf (getAxis (quickStop s n) n) pos = limitOf (getAxis s n) pos := by
  obtain ⟨-, -, -, -, limP, limN⟩ := getAxis_quickStop s n
  cases pos
  · exact limN
  · exact limP

/-- The limit in the home direction of the LIMIT method is no trip. -/
theorem limitHoming_home {pos : Bool} (method : homeMethod s n = 2) (dir : pos = homePos s n) :
    limitHoming s n pos =
      if (getAxis s n).homing = 1 then setAxis s n { planStop s n (getAxis s n) with homing := 2 }
      else if (getAxis s n).homing = 5 then
        homeLatch s n (if homePos s n then (getAxis s n).act - stepsSinceEdge s (getAxis s n)
          else (getAxis s n).act + stepsSinceEdge s (getAxis s n))
      else s := by
  have home : (homeMethod s n == 2 && pos == homePos s n) = true := by simp [method, dir]
  unfold limitHoming
  dsimp only
  rw [if_pos home]

/-- An axis that the end limit of its search stops, to search the other way. -/
def searchStopped (s : State) (n : Nat) : State :=
  let s := setAxis s n { planStop s n (getAxis s n) with homing := 8 }
  if (getAxis s n).plan.isEmpty then planEnd s n else s

theorem limitHoming_away {pos : Bool} (other : homeMethod s n ≠ 2 ∨ pos ≠ homePos s n) :
    limitHoming s n pos =
      if (getAxis s n).homing = 1 ∧ (getAxis s n).homeRev = false ∧ pos = homePos s n then searchStopped s n
      else stopRecorded s n 15 0x0B03 := by
  have away : ¬(homeMethod s n == 2 && pos == homePos s n) = true := by
    rcases other with h | h <;> simp [h]
  unfold limitHoming
  dsimp only
  rw [if_neg away]
  rfl

theorem searchStopped_leaves (s : State) (n : Nat) :
    ((getAxis (searchStopped s n) n).homing = 8 ∨
        (getAxis (searchStopped s n) n).homing = 1 ∧ (getAxis (searchStopped s n) n).homeRev = true) ∧
      (getAxis (searchStopped s n) n).act = (getAxis s n).act ∧ axesKept s (searchStopped s n) n ∧
      ∀ p k, counter (searchStopped s n) p k = counter s p k := by
  let y : Axis := { planStop s n (getAxis s n) with homing := 8 }
  let u := setAxis s n y
  have same : searchStopped s n = if (getAxis u n).plan.isEmpty then planEnd u n else u := rfl
  have at_ : getAxis u n = y := getAxis_setAxis_same s n y
  rw [same]
  split
  · rw [planEnd_reverse (by rw [at_]), getAxis_setAxis_same, at_]
    exact ⟨.inr ⟨rfl, rfl⟩, rfl, axesKept.trans (axesKept_setAxis s n y) (axesKept_setAxis u n _), fun p k => rfl⟩
  · rw [at_]
    exact ⟨.inl rfl, rfl, axesKept_setAxis s n y, fun p k => rfl⟩

end Sys2Proof.Machine

namespace Sys2Proof.Proofs
open Sys2Proof Sys2Proof.Machine

/-- Settles O45: HOME, the home input, the time limit, and the limits in motion, at rest and in homing. -/
theorem homingAndLimits : Obligations.HomingAndLimits := by
  refine ⟨fun s rq n takes => ?_, fun s n active back hn => ?_, fun s n hn => ?_, fun s n pos hn => ?_⟩
  · intro x limit bad
    have runs : exec (.home rq n) s = _ := execHome_eq rq takes
    refine ⟨fun is => ?_, fun ok at_ method => ?_, fun ok free away => ?_, fun ok free method active => ?_⟩
    · rw [if_pos is] at runs
      exact ⟨_, runs, refuse_leaves s (isHeader_ax takes.1)⟩
    · rw [if_neg ok, if_pos ⟨at_, method⟩] at runs
      exact ⟨_, runs, raised_ev s _ (by decide), wordsKept_ev s _ _, only_ev s _ _⟩
    · have clear : ¬(limit = true ∧ homeMethod s n ≠ 2) := fun ⟨h, m⟩ => free.elim (fun f => absurd (f.symm.trans h) (by decide)) m
      have search : ¬(homeMethod s n ≠ 1 ∧ homeActive s n = true) :=
        fun ⟨m, h⟩ => away.elim m (fun f => absurd (f.symm.trans h) (by decide))
      rw [if_neg ok, if_neg clear, if_neg search] at runs
      refine ⟨_, runs, ?_⟩
      beta_reduce
      rw [getAxis_setAxis_same]
      exact ⟨rfl, rfl, rfl, axesKept_setAxis s n _, only_setAxis s n _⟩
    · have clear : ¬(limit = true ∧ homeMethod s n ≠ 2) := fun ⟨h, m⟩ => free.elim (fun f => absurd (f.symm.trans h) (by decide)) m
      rw [if_neg ok, if_neg clear, if_pos ⟨method, active⟩] at runs
      exact ⟨_, runs, homeLeft_leaves active⟩
  · intro x
    let u := setAxis s n { x with homeIn := active }
    have at_ : getAxis u n = { x with homeIn := active } := getAxis_setAxis_same s n _
    have step : axesKept s u n := axesKept_setAxis s n _
    have runs (switch : homeMethod s n = 0) (phase : x.homing ≠ 0) : exec (.homeInput n active back) s = .next (homeEdge u n active back) := by
      rw [exec_homeInput hn, if_neg (not_or.2 ⟨phase, not_not_intro switch⟩)]
    have then_ (y : Axis) : axesKept s (setAxis u n y) n := axesKept.trans step (axesKept_setAxis u n y)
    refine ⟨fun idle => ?_, fun switch phase first_ edge => ?_, fun switch phase again edge => ?_, fun switch phase edge => ?_,
      fun switch phase edge => ?_, fun switch phase edge => ?_⟩
    · refine ⟨u, ?_, at_, step, only_setAxis s n _⟩
      rw [exec_homeInput hn, if_pos idle]
    · have outcome : homeEdge u n active back = setAxis u n { planStop u n (getAxis u n) with homing := 2 } := by
        unfold homeEdge
        dsimp only
        rw [if_pos (by rw [at_]; exact ⟨phase, edge, first_⟩)]
      refine ⟨_, (runs switch (by rw [phase]; decide)).trans (congrArg _ outcome), ?_⟩
      beta_reduce
      rw [getAxis_setAxis_same, at_]
      exact ⟨rfl, rfl, then_ _⟩
    · have outcome : homeEdge u n active back = setAxis u n { getAxis u n with homing := 7 } := by
        unfold homeEdge
        dsimp only
        rw [if_neg (by rw [at_]; exact fun h => absurd (h.2.2.symm.trans again) (by decide)), if_pos (by rw [at_]; exact ⟨phase, edge⟩)]
      refine ⟨_, (runs switch (by rw [phase]; decide)).trans (congrArg _ outcome), ?_⟩
      beta_reduce
      rw [getAxis_setAxis_same, at_]
      exact ⟨rfl, then_ _, ((setAxis_evolves (m := 65536) _ _ _ rfl (setAxis_evolves _ _ _ rfl .rfl))).only (by decide)⟩
    · have outcome : homeEdge u n active back = approach u n := by
        unfold homeEdge
        dsimp only
        rw [at_]
        dsimp only
        rw [show x.homing = 7 from phase, edge]
        rfl
      refine ⟨_, (runs switch (by rw [phase]; decide)).trans (congrArg _ outcome), ?_⟩
      beta_reduce
      rw [approach, getAxis_setAxis_same, at_]
      exact ⟨rfl, rfl, then_ _⟩
    · have outcome : homeEdge u n active back = backOffSteps u n := by
        unfold homeEdge
        dsimp only
        rw [at_]
        dsimp only
        rw [show x.homing = 3 from phase, edge]
        rfl
      refine ⟨_, (runs switch (by rw [phase]; decide)).trans (congrArg _ outcome), ?_⟩
      beta_reduce
      rw [backOffSteps, getAxis_setAxis_same, at_]
      exact ⟨rfl, rfl, then_ _⟩
    · have outcome : homeEdge u n active back = homeLatch u n (if homePos s n then x.act - back else x.act + back) := by
        unfold homeEdge
        dsimp only
        rw [at_]
        dsimp only
        rw [show x.homing = 5 from phase, edge]
        rfl
      obtain ⟨act, phases, kept, -⟩ := homeLatch_leaves u n (if homePos s n then x.act - back else x.act + back)
      rw [at_] at act
      exact ⟨_, (runs switch (by rw [phase]; decide)).trans (congrArg _ outcome), act, phases, axesKept.trans step kept⟩
  · refine ⟨fun idle => ?_, fun homes => ?_⟩
    · simp only [exec, execHomeTimeout, Nat.mod_eq_of_lt hn]
      rw [if_pos idle]
    · obtain ⟨same, event, record, kept, -⟩ := stopRecorded_leaves s n 0x0B04 (bit := 15) (by decide)
      obtain ⟨homing, plan, -⟩ := getAxis_quickStop s n
      refine ⟨stopRecorded s n 15 0x0B04, ?_, by rw [same, homing], by rw [same, plan], event, record, kept⟩
      simp only [exec, execHomeTimeout, Nat.mod_eq_of_lt hn]
      rw [if_neg homes]
      rfl
  · intro x
    let u := limitSet s n pos
    obtain ⟨at_, kept, tally, step⟩ := limitSet_leaves s n pos
    obtain ⟨same1, same2, same3, same4⟩ := setLimit_keeps x pos true
    have dir' : homePos u n = homePos s n := homePos_of_regs (step.same .regs rfl)
    have method' : homeMethod u n = homeMethod s n := homeMethod_of_regs (step.same .regs rfl)
    refine ⟨fun chatter => ?_, fun new idle still free => ?_, fun new idle moves => ?_, fun new homes away search => ?_,
      fun new phase method dir => ?_, fun new phase method dir => ?_, fun new homes no1 no5 method dir => ?_,
      fun new phase method first_ dir => ?_, fun phase method dir => ?_, fun phase => ?_⟩
    · refine ⟨ev (count s (pgAx n) 4) (pgAx n) 12, ?_, ?_, ?_, ?_⟩
      · simp only [exec, execLimitAssert, Nat.mod_eq_of_lt hn]
        rw [if_pos chatter]
      · rw [motion_ev, motion_count]
      · have event := raised_ev (count s (pgAx n) 4) (pgAx n) (b := 12) (by decide)
        have same : evPend (count s (pgAx n) 4) (pgAx n) = evPend s (pgAx n) := evPend_of_regs (by simp only [count_fields]) _
        rwa [raised, same] at event
      · rw [counted, counter_ev (pgAx_not_evc n) (by decide), counter_count, if_pos rfl]
    · refine ⟨u, ?_, at_, tally, kept, step.only (by decide)⟩
      rw [exec_limitAssert_new hn new, if_neg (not_not_intro idle), if_neg (by rw [still, free]; decide)]
    · obtain ⟨same, event, record, kept', counts⟩ := stopRecorded_leaves u n 0x0B02 (bit := 11) (by decide)
      obtain ⟨-, plan, geared, qstop, -⟩ := getAxis_quickStop u n
      refine ⟨stopRecorded u n 11 0x0B02, ?_, ?_, by rw [same, geared], by rw [same, plan], by rw [same, qstop], ?_, event,
        recorded_of_keepsLog (.of step (by decide)) record, axesKept.trans kept kept'⟩
      · rw [exec_limitAssert_new hn new, if_neg (not_not_intro idle), if_pos (by rcases moves with h | h <;> rw [h] <;> simp)]
      · rw [same, limitOf_quickStop, at_, limitOf_setLimit]
      · rw [counted, counts 3 (by decide), tally]
    · obtain ⟨same, event, record, kept', -⟩ := stopRecorded_leaves u n 0x0B03 (bit := 15) (by decide)
      refine ⟨stopRecorded u n 15 0x0B03, ?_, by rw [same, (getAxis_quickStop u n).1], event,
        recorded_of_keepsLog (.of step (by decide)) record, axesKept.trans kept kept'⟩
      rw [exec_limitAssert_new hn new, if_pos homes, limitHoming_away (by rw [method', dir']; exact away), if_neg]
      rw [at_, same1, same2, dir']
      exact search
    · have outcome : exec (.limitAssert n pos) s = .next (setAxis u n { planStop u n (getAxis u n) with homing := 2 }) := by
        rw [exec_limitAssert_new hn new, if_pos (by rw [phase]; decide), limitHoming_home (method'.trans method) (dir.trans dir'.symm),
          if_pos (by rw [at_, same1]; exact phase)]
      refine ⟨_, outcome, ?_⟩
      beta_reduce
      rw [getAxis_setAxis_same, at_]
      refine ⟨rfl, ?_, same3, tally, axesKept.trans kept (axesKept_setAxis u n _)⟩
      refine Eq.trans ?_ (limitOf_setLimit x pos true)
      cases pos <;> rfl
    · have outcome : exec (.limitAssert n pos) s = .next (homeLatch u n (if homePos u n then (getAxis u n).act - stepsSinceEdge u (getAxis u n)
          else (getAxis u n).act + stepsSinceEdge u (getAxis u n))) := by
        rw [exec_limitAssert_new hn new, if_pos (by rw [phase]; decide), limitHoming_home (method'.trans method) (dir.trans dir'.symm),
          if_neg (by rw [at_, same1, phase]; decide), if_pos (by rw [at_, same1]; exact phase)]
      have back : stepsSinceEdge u (getAxis u n) = stepsSinceEdge s x := by
        have time : ptTotalNs u = ptTotalNs s := congrArg (fun c : Clock => c.sec * 1000000000 + c.ns) (step.same .clk rfl)
        rw [stepsSinceEdge, at_, same4, time, stepsSinceEdge]
      obtain ⟨act, -, kept', counts⟩ := homeLatch_leaves u n (if homePos u n then (getAxis u n).act - stepsSinceEdge u (getAxis u n)
          else (getAxis u n).act + stepsSinceEdge u (getAxis u n))
      refine ⟨_, outcome, ?_, by rw [counted, counts 3 (by decide) (by decide), tally], axesKept.trans kept kept'⟩
      rw [act, back, dir', axSteps_of_regs (step.same .regs rfl), ← dir]
      split <;> omega
    · refine ⟨u, ?_, at_, tally, kept, step.only (by decide)⟩
      rw [exec_limitAssert_new hn new, if_pos homes, limitHoming_home (method'.trans method) (dir.trans dir'.symm),
        if_neg (by rw [at_, same1]; exact no1), if_neg (by rw [at_, same1]; exact no5)]
    · obtain ⟨phases, act, kept', counts⟩ := searchStopped_leaves u n
      refine ⟨searchStopped u n, ?_, phases, by rw [act, at_, same3], by rw [counted, counts, tally], axesKept.trans kept kept'⟩
      rw [exec_limitAssert_new hn new, if_pos (by rw [phase]; decide), limitHoming_away (.inl (by rw [method']; exact method)),
        if_pos (by rw [at_, same1, same2]; exact ⟨phase, first_, dir.trans dir'.symm⟩)]
    · let v := setAxis s n (setLimit x pos false)
      have at' : getAxis v n = setLimit x pos false := getAxis_setAxis_same s n _
      refine ⟨backOffSteps v n, ?_, ?_⟩
      · simp only [exec, execLimitRelease, Nat.mod_eq_of_lt hn]
        exact congrArg _ (if_pos ⟨phase, method, dir⟩)
      · beta_reduce
        rw [backOffSteps, getAxis_setAxis_same, at']
        refine ⟨rfl, ?_, (setLimit_keeps x pos false).2.2.1, axesKept.trans (axesKept_setAxis s n _) (axesKept_setAxis v n _)⟩
        refine Eq.trans ?_ (limitOf_setLimit x pos false)
        cases pos <;> rfl
    · refine ⟨setAxis s n (setLimit x pos false), ?_, getAxis_setAxis_same s n _, axesKept_setAxis s n _, only_setAxis s n _⟩
      simp only [exec, execLimitRelease, Nat.mod_eq_of_lt hn]
      exact congrArg _ (if_neg fun h => phase h.1)

end Sys2Proof.Proofs
end

section
/-! PROOFS. Gearing (R371, R388 to R391): engaging and disengaging, the pending ratio, positions at rest, stalls, and the pulses that a
unit counts. -/

namespace Sys2Proof.Machine
open Sys2Proof

variable {s t : State} {n : Nat}

/-! ### The geared position (R388) -/

theorem roundHalfUp_zero : roundHalfUp 0 (2 ^ 32) = 0 := by decide

theorem gearedCmd_at (p0 m0 r : Int) : gearedCmd p0 m0 r m0 = p0 := by
  rw [gearedCmd, Int.sub_self, Int.mul_zero, roundHalfUp_zero, Int.add_zero]

/-! ### The pending ratio (R389, R390) -/

theorem rd64_lt (s : State) (a : Nat) : rd64 s a < 2 ^ 64 := by
  have low := rd_lt s a
  have high := rd_lt s (a + 4)
  rw [rd64]
  omega

/-- The axis whose pending ratio applies at a master position. -/
def ratioTaken (s : State) (n : Nat) (mp : Int) : Axis :=
  let x := getAxis s n
  let p0 := gearedCmd x.p0 x.m0 (axRatio s n) mp
  let s := takeRatio s n
  let m := (getChan s (axMaster s n)).pos
  let x := if x.geared then { x with p0 := p0, m0 := mp, cmd := gearedCmd p0 mp (axRatio s n) m } else x
  { x with pend := false }

/-- The ratio applied, its count and its event. -/
def ratioApplied (s : State) (n : Nat) (mp : Int) : State :=
  ev (count (setAxis (takeRatio s n) n (ratioTaken s n mp)) (pgAx n) 7) (pgAx n) 16

theorem applyRatio_eq (s : State) (n : Nat) (mp : Int) :
    applyRatio s n mp = setAxis (ratioApplied s n mp) n (schedule (ratioApplied s n mp) (getAxis (ratioApplied s n mp) n)
      ((getAxis (ratioApplied s n mp) n).cmdSteps - (getAxis (ratioApplied s n mp) n).act)) := rfl

theorem ratioTaken_keeps (s : State) (n : Nat) (mp : Int) :
    let x := getAxis s n
    let y := ratioTaken s n mp
    y.pend = false ∧ (x.geared = true → y.m0 = mp ∧ y.p0 = gearedCmd x.p0 x.m0 (axRatio s n) mp) ∧ (x.geared = false → y.cmd = x.cmd) := by
  unfold ratioTaken
  dsimp only
  split
  · next geared => exact ⟨rfl, fun _ => ⟨rfl, rfl⟩, fun free => absurd (free.symm.trans geared) (by decide)⟩
  · next free => exact ⟨rfl, fun geared => absurd geared free, fun _ => rfl⟩

theorem ratioApplied_leaves (s : State) (n : Nat) (mp : Int) :
    getAxis (ratioApplied s n mp) n = ratioTaken s n mp ∧ raised s (ratioApplied s n mp) (pgAx n) 16 ∧
      counted s (ratioApplied s n mp) (pgAx n) 7 ∧ rd64 (ratioApplied s n mp) (axA n 0x78) = rd64 s (axA n 0x80) ∧
      axesKept s (ratioApplied s n mp) n := by
  let u := setAxis (takeRatio s n) n (ratioTaken s n mp)
  let v := count u (pgAx n) 7
  have regs : v.regs = (takeRatio s n).regs := by
    have same : v.regs = u.regs := by simp only [v, count_fields]
    exact same
  have motion : (ratioApplied s n mp).motion = u.motion := (motion_ev v _ _).trans (motion_count u _ _)
  have word (a : Nat) (h : a ≠ axA n 0x24) : rd (ratioApplied s n mp) a = rd (takeRatio s n) a := by
    refine (wordsKept_ev v (pgAx n) 16 a (by simpa [axA] using h)).trans ?_
    rw [rd, regs, rd]
  refine ⟨?_, ?_, ?_, ?_, ?_⟩
  · rw [getAxis_of_motion motion]
    exact getAxis_setAxis_same _ _ _
  · have event : raised v (ratioApplied s n mp) (pgAx n) 16 := raised_ev v (pgAx n) (by decide)
    have same : evPend v (pgAx n) = evPend s (pgAx n) := by
      rw [evPend_of_regs regs, evPend, takeRatio, rd_wr64_other _ _ (by simp only [axA, ra]; omega) (by simp only [axA, ra]; omega), evPend]
    rw [raised, event, same]
  · have counts : counter (ratioApplied s n mp) (pgAx n) 7 = counter v (pgAx n) 7 := counter_ev (pgAx_not_evc n) (by decide) v _ _
    rw [counted, counts]
    exact counted_count u _ _
  · have both : rd64 (ratioApplied s n mp) (axA n 0x78) = rd64 (takeRatio s n) (axA n 0x78) := by
      rw [rd64, word _ (by simp only [axA, ra]; omega), word _ (by simp only [axA, ra]; omega), rd64]
    rw [both]
    exact rd64_wr64_same s _ (rd64_lt s _)
  · exact axesKept.trans (axesKept_setAxis (takeRatio s n) n _) (axesKept_of_motion motion)

/-- The ratio that was pending applies. -/
theorem applyRatio_leaves (s : State) (n : Nat) (mp : Int) :
    let x := getAxis s n
    let t := applyRatio s n mp
    let y := getAxis t n
    y.pend = false ∧ raised s t (pgAx n) 16 ∧ counted s t (pgAx n) 7 ∧ rd64 t (axA n 0x78) = rd64 s (axA n 0x80) ∧
      (x.geared = true → y.m0 = mp ∧ y.p0 = gearedCmd x.p0 x.m0 (axRatio s n) mp) ∧ (x.geared = false → y.cmd = x.cmd) ∧
      axesKept s t n ∧ ∀ p, evPend t p = evPend (ratioApplied s n mp) p := by
  intro x t y
  obtain ⟨at_, event, tally, ratio, kept⟩ := ratioApplied_leaves s n mp
  obtain ⟨pend, geared, free⟩ := ratioTaken_keeps s n mp
  have last : t = setAxis (ratioApplied s n mp) n _ := applyRatio_eq s n mp
  obtain ⟨neg, dn, dt, sched⟩ := schedule_reschedules (ratioApplied s n mp) (getAxis (ratioApplied s n mp) n)
    ((getAxis (ratioApplied s n mp) n).cmdSteps - (getAxis (ratioApplied s n mp) n).act)
  have axis : y = { ratioTaken s n mp with
      sched := ((getAxis (ratioApplied s n mp) n).cmdSteps - (getAxis (ratioApplied s n mp) n).act).natAbs
      schedNeg := neg, dirNeg := dn, dirT := dt } := by
    change getAxis t n = _
    rw [last, getAxis_setAxis_same, sched, at_]
  rw [axis, last]
  exact ⟨pend, event, tally, ratio, geared, free, axesKept.trans kept (axesKept_setAxis _ n _), fun p => rfl⟩

/-! ### Stalls (R391) -/

/-- A stalled axis; unless it goes on, what is scheduled is discarded. -/
def stalledAxis (x : Axis) (goes : Bool) : Axis :=
  let x := { x with stalled := true }
  if !goes then { x with plan := [], waiting := 0, qstop := false, geared := false, pend := false, sched := 0, v := 0, a := 0,
                         p := stepUnits x.act, cmd := x.act * 65536, homing := 0, stopping := false, fault := true } else x

theorem stalledAxis_keeps (x : Axis) (goes : Bool) :
    (stalledAxis x goes).stalled = true ∧ (stalledAxis x goes).act = x.act ∧
      (goes = false → (stalledAxis x goes).plan = [] ∧ (stalledAxis x goes).geared = false ∧ (stalledAxis x goes).sched = 0 ∧
        (stalledAxis x goes).v = 0 ∧ (stalledAxis x goes).cmd = x.act * 65536 ∧ (stalledAxis x goes).fault = true) ∧
      (goes = true → stalledAxis x goes = { x with stalled := true }) := by
  cases goes
  · exact ⟨rfl, rfl, fun _ => ⟨rfl, rfl, rfl, rfl, rfl, rfl⟩, fun h => absurd h (by decide)⟩
  · exact ⟨rfl, rfl, fun h => absurd h (by decide), fun _ => rfl⟩

/-- A stall is counted, raised and recorded, class B. -/
def stallRecorded (s : State) (n : Nat) (x : Axis) : State :=
  fault (ev (count (setAxis s n x) (pgAx n) 5) (pgAx n) 13) 0x0B01 1 (pgAx n) noBar [n]

theorem stallRecorded_leaves (s : State) (n : Nat) (x : Axis) :
    getAxis (stallRecorded s n x) n = x ∧ (evPend (stallRecorded s n x) (pgAx n)).testBit 13 = true ∧
      counted s (stallRecorded s n x) (pgAx n) 5 ∧ recorded s (stallRecorded s n x) 0x0B01 1 ∧ axesKept s (stallRecorded s n x) n := by
  let u := count (setAxis s n x) (pgAx n) 5
  let v := ev u (pgAx n) 13
  have event : Evolves 8523841 u v := ev_evolves _ _ _ rfl .rfl
  have tally : Evolves 65600 s u := count_evolves _ _ _ rfl (setAxis_evolves _ _ _ rfl .rfl)
  have record : Evolves 11669569 v (stallRecorded s n x) := fault_below_D _ _ _ _ (by decide) _
  have motion : (stallRecorded s n x).motion = (setAxis s n x).motion := by
    rw [record.same .motion rfl, event.same .motion rfl, motion_count]
  refine ⟨(getAxis_of_motion motion n).trans (getAxis_setAxis_same s n x),
    testBit_evPend_fault (testBit_evPend_raised _ _ (by decide)) _ _ _ (by decide) _, ?_,
    recorded_of_keepsLog ((keepsLog.of tally (by decide)).trans (.of event (by decide))) (recorded_fault _ _ _ _ _ _),
    axesKept.trans (axesKept_setAxis s n x) (axesKept_of_motion motion)⟩
  have counts := counter_fault v 0x0B01 (pgAx n) noBar (cls := 1) (by decide) [n] (pgAx_not_sys n) (pgAx_not_evc n) (show 5 < 128 by decide)
  rw [counted]
  exact counts.trans ((counter_ev (pgAx_not_evc n) (by decide) u _ _).trans (counted_count (setAxis s n x) _ _))

end Sys2Proof.Machine

namespace Sys2Proof.Proofs
open Sys2Proof Sys2Proof.Machine

/-- Settles O46: ENGAGE and DISENGAGE, SET_POS, the pending ratio, stalls, and pulses of a unit that does not drive the balls. -/
theorem gearing : Obligations.Gearing := by
  refine ⟨fun s rq n takes => ?_, fun s rq n takes => ?_, fun s rq n takes => ?_, fun s rq n takes => ?_, fun s rq n hi hn open_ => ?_,
    fun s n hn => ?_, fun p0 m0 r r' m =>
      ⟨gearedCmd_at _ m r', gearedCmd_at p0 m0 r⟩, fun s n hn => ?_, fun s n d hn => ?_⟩
  · intro x c bad
    refine ⟨fun is => ⟨refuse s (pgAx n), ?_, refuse_leaves s (isHeader_ax takes.1)⟩, fun ok => ?_⟩
    · simp only [exec, execEngage, axis_of_takes takes, axisCmd_of_takes takes]
      rw [if_pos is]
    · let y : Axis := { x with geared := true, m0 := (getChan s c).pos, p0 := x.cmd, atTarget := false
                               lastM := some ((getChan s c).pos, (getChan s c).latchT) }
      refine ⟨setAxis s n (latchRef s n y), ?_, ?_⟩
      · simp only [exec, execEngage, axis_of_takes takes, axisCmd_of_takes takes]
        rw [if_neg ok]
      beta_reduce
      rw [getAxis_setAxis_same]
      exact ⟨rfl, rfl, rfl, rfl, rfl, rfl, axesKept_setAxis s n _, only_setAxis s n _⟩
  · refine ⟨fun free => ?_, fun geared => ⟨setAxis s n (planStop s n (ungear s n)), ?_, ?_⟩⟩
    · simp only [exec, execDisengage, axis_of_takes takes, axisCmd_of_takes takes]
      rw [if_neg (by rw [free]; decide)]
    · simp only [exec, execDisengage, axis_of_takes takes, axisCmd_of_takes takes]
      rw [if_pos geared]
    · let speed := signedSpeedAt s (axMaster s n) (fireNow s) * axRatio s n / 10 ^ 6
      have left : ungear s n =
          { getAxis s n with geared := false, pend := false, p := (getAxis s n).cmd * 2 ^ 32, a := 0, v := speed } := if_pos geared
      beta_reduce
      rw [getAxis_setAxis_same, left]
      exact ⟨rfl, rfl, rfl, rfl, axesKept_setAxis s n _, only_setAxis s n _⟩
  · intro x
    refine ⟨fun busy => ⟨refuse s (pgAx n), ?_, refuse_leaves s (isHeader_ax takes.1)⟩, fun still free idle => ?_⟩
    · have moves : (x.busy || x.geared || x.homing != 0) = true := by
        rcases busy with h | h | h <;> simp [h]
      simp only [exec, execSetPos, axis_of_takes takes, axisCmd_of_takes takes]
      rw [if_pos moves]
    · have rest : ¬(x.busy || x.geared || x.homing != 0) = true := by simp [still, free, idle]
      let d := axSteps s n 0xC4 - x.act
      let y := axisShift s x d
      let z : Axis := { y with cmd := y.act * 65536, p := stepUnits y.act, target := y.act, goal := y.act }
      obtain ⟨motion, -, -, -⟩ := forwardShift_leaves (setAxis s n (latchRef s n z)) n d
      have act : y.act = axSteps s n 0xC4 := by
        change x.act + (axSteps s n 0xC4 - x.act) = _
        omega
      refine ⟨forwardShift (setAxis s n (latchRef s n z)) n d, ?_, ?_⟩
      · simp only [exec, execSetPos, axis_of_takes takes, axisCmd_of_takes takes]
        rw [if_neg rest]
      · beta_reduce
        rw [getAxis_of_motion motion, getAxis_setAxis_same]
        refine ⟨act, congrArg (· * 65536) act, congrArg (· * 2 ^ 48) act, act, act, axesKept.trans (axesKept_setAxis s n _) (axesKept_of_motion motion)⟩
  · refine ⟨setAxis s n { getAxis s n with stalled := false, fault := false }, ?_, getAxis_setAxis_same s n _, axesKept_setAxis s n _, only_setAxis s n _⟩
    simp only [exec, execAxisClrFault, axis_of_takes takes, axisCmd_of_takes takes]
  · intro u mp ch
    have step : Evolves 5 s u := store_frame s _ _
    have axis : n % 16 = n := Nat.mod_eq_of_lt hn
    have low : axA n 0x8C - 4 = axA n 0x88 := rfl
    have master : getChan u (axMaster u n) = ch := by
      have word : rd u (axA n 0x40) = rd s (axA n 0x40) :=
        rd_store_other s _ (by simp only [axA, ra]; omega) (by simp only [axA, ra]; omega)
      rw [step.getChan_eq rfl, axMaster, rdf, word]
      rfl
    have at_ : getAxis u n = getAxis s n := step.getAxis_eq rfl n
    have runs : exec (.pendArm rq n hi) s = .next (
        if (if ch.reverse then decide (ch.pos ≤ mp) else decide (mp ≤ ch.pos)) then
          applyRatio (ev (setAxis u n { getAxis u n with mp := ch.pos }) (pgAx n) 17) n ch.pos
        else setAxis u n { getAxis u n with pend := true, mp := mp, pendBelow := decide (ch.pos < mp) }) := by
      rw [← master]
      simp only [exec, execPendArm, axis, gated_of_admitted open_, low]
      rfl
    refine ⟨fun ahead => ?_, fun late => ?_⟩
    · rw [if_neg (by cases h : ch.reverse <;> rw [h] at ahead <;> simpa using ahead)] at runs
      refine ⟨_, runs, by rw [getAxis_setAxis_same, at_], axesKept.trans (axesKept_of_motion (step.same .motion rfl)) (axesKept_setAxis u n _)⟩
    · rw [if_pos (by cases h : ch.reverse <;> rw [h] at late <;> simpa using late)] at runs
      let v := ev (setAxis u n { getAxis u n with mp := ch.pos }) (pgAx n) 17
      obtain ⟨pend, event, -, ratio, -, -, kept, pends⟩ := applyRatio_leaves v n ch.pos
      have first_ : (evPend v (pgAx n)).testBit 17 = true := testBit_evPend_raised _ _ (by decide)
      have both : ∀ i, (evPend v (pgAx n)).testBit i = true ∨ i = 16 → (evPend (applyRatio v n ch.pos) (pgAx n)).testBit i = true := by
        intro i h
        rw [event, Nat.testBit_or, Nat.testBit_two_pow]
        rcases h with h | rfl <;> simp [*]
      have word (a : Nat) (h : a ≠ axA n 0x24) : rd v a = rd u a := wordsKept_ev _ (pgAx n) 17 a (by simpa [axA] using h)
      refine ⟨_, runs, pend, both 17 (.inl first_), both 16 (.inr rfl), ?_, ?_⟩
      · rw [ratio, rd64, word _ (by simp only [axA, ra]; omega), word _ (by simp only [axA, ra]; omega), rd64]
      · exact axesKept.trans (axesKept_of_motion (step.same .motion rfl)) (axesKept.trans (axesKept_setAxis u n _)
          (axesKept.trans (axesKept_of_motion (motion_ev _ _ _)) kept))
  · intro x m
    have axis : n % 16 = n := Nat.mod_eq_of_lt hn
    refine ⟨fun waits => ?_, fun pend due => ?_⟩
    · have idle : ¬(x.pend && (if x.pendBelow then decide (x.mp ≤ m) else decide (m ≤ x.mp))) = true := by
        rcases waits with h | h
        · simp [h]
        · cases hb : x.pendBelow <;> rw [hb] at h <;> simp at h ⊢ <;> exact fun _ => h
      simp only [exec, execRatioApply, axis]
      rw [if_neg idle]
    · have reached : (x.pend && (if x.pendBelow then decide (x.mp ≤ m) else decide (m ≤ x.mp))) = true := by
        cases hb : x.pendBelow <;> rw [hb] at due <;> simp at due ⊢ <;> exact ⟨pend, due⟩
      obtain ⟨done, event, tally, ratio, geared, free, kept, -⟩ := applyRatio_leaves s n x.mp
      refine ⟨applyRatio s n x.mp, ?_, done, event, tally, ratio, geared, free, kept⟩
      simp only [exec, execRatioApply, axis]
      rw [if_pos reached]
  · intro x stall
    have axis : n % 16 = n := Nat.mod_eq_of_lt hn
    let holds := rdb s (axA n 0x40) 15 && decide (rdf s (axA n 0x94) 15 0 < (axDev s n).natAbs) && !(getAxis s n).stalled
    have same : holds = true ↔ stall := by simp [holds, stall, x, and_assoc]
    refine ⟨fun well => ?_, fun stalls => ?_⟩
    · simp only [exec, execStall, axis]
      exact congrArg _ (if_neg (fun h => well (same.1 h)))
    · obtain ⟨stalled, act, stopped, goes⟩ := stalledAxis_keeps x (rdb s (axA n 0x40) 6)
      obtain ⟨at_, event, tally, record, kept⟩ := stallRecorded_leaves s n (stalledAxis x (rdb s (axA n 0x40) 6))
      refine ⟨stallRecorded s n (stalledAxis x (rdb s (axA n 0x40) 6)), ?_, ?_⟩
      · simp only [exec, execStall, axis]
        refine congrArg _ ((if_pos (same.2 stalls)).trans ?_)
        cases rdb s (axA n 0x40) 6 <;> rfl
      · beta_reduce
        rw [at_]
        exact ⟨stalled, act, event, tally, record, kept, stopped, goes⟩
  · have axis : n % 16 = n := Nat.mod_eq_of_lt hn
    refine ⟨fun drives => ?_, fun idle => ⟨setAxis s n { getAxis s n with
      counted := if (d != rdb s (axA n 0x40) 3) = true then (getAxis s n).counted + 1 else (getAxis s n).counted - 1 }, ?_, ?_⟩⟩
    · simp only [exec, execSharedStepPulse, axis]
      rw [if_pos drives]
    · simp only [exec, execSharedStepPulse, axis]
      rw [if_neg (by rw [idle]; decide)]
    · beta_reduce
      rw [getAxis_setAxis_same]
      refine ⟨?_, rfl, axesKept_setAxis s n _, only_setAxis s n _⟩
      by_cases h : d = rdb s (axA n 0x40) 3
      · simp [h, sub_eq_add_neg]
      · simp [h]

end Sys2Proof.Proofs
end

section
/-! PROOFS. CompareUnits (R397 to R401): arming a unit with a value that lies ahead, what refuses it, and a firing. -/

namespace Sys2Proof.Machine
open Sys2Proof

variable {s t : State} {k : Nat}

/-! ### Arming (R397) -/

theorem isHeader_cmp : isHeader pgCmp = true := by decide

/-- An arm that is refused changes the event bits only. -/
theorem cmpArm_off {v : Int} (off : cmpSrcOff s k = true) : cmpArm s k v = refuse s pgCmp := if_pos off

theorem cmpArm_ahead {v : Int} (on : cmpSrcOff s k = false) (ahead : cmpReached s k (cmpNeg s k) v = false) :
    cmpArm s k v = cmpShow (setCmp s k { armed := true, neg := cmpNeg s k, value := v, passed := false }) k := by
  unfold cmpArm cmpArmDir
  rw [if_neg (by rw [on]; decide), if_neg (by rw [ahead]; decide)]

/-- STAT shows that the unit is armed. -/
theorem rdb_cmpShow (s : State) (k : Nat) : rdb (cmpShow s k) (cmpA k 0x18) 0 = (getCmp s k).armed := by
  rw [rdb, cmpShow, rd_wr_same, bitOf, Nat.testBit_mod_two_pow]
  have bit : ∀ a b c d : Bool, (b2n a + 2 * b2n b + 4 * b2n c + 8 * b2n d).testBit 0 = a := by decide
  rw [bit]
  rfl

theorem getCmp_cmpShow (s : State) (k i : Nat) : getCmp (cmpShow s k) i = getCmp s i := rfl

/-! ### A firing (R400) -/

theorem execCompareFire_idle (h : k < 32) (idle : (getCmp s k).armed = false ∨ cmpReached s k (getCmp s k).neg (getCmp s k).value = false) :
    execCompareFire k s = .next s := by
  unfold execCompareFire
  dsimp only
  rw [Nat.mod_eq_of_lt h, if_neg (by rcases idle with h | h <;> rw [h] <;> simp)]

theorem execCompareFire_due (h : k < 32) (armed : (getCmp s k).armed = true)
    (reached : cmpReached s k (getCmp s k).neg (getCmp s k).value = true) : execCompareFire k s = .next (cmpFire s k) := by
  unfold execCompareFire
  dsimp only
  rw [Nat.mod_eq_of_lt h, if_pos (by rw [armed, reached]; rfl)]

theorem cmpMode_cmpPulse (s : State) (h : k < 32) (v : Int) : cmpMode (cmpPulse s k v) k = cmpMode s k := by
  rw [cmpMode, cmpCfg, (cmpPulse_frame ..).rd_eq (by decide), ← cmpCfg, cmpCfg_cmpLatched s h, cmpMode]

theorem getCmp_cmpPulse (s : State) (k : Nat) (v : Int) (i : Nat) : getCmp (cmpPulse s k v) i = getCmp s i := by
  rw [(cmpPulse_frame s k v).getCmp_eq (by decide), getCmp_cmpLatched]

/-- What a firing does after its pulse. -/
def cmpFired (s : State) (k : Nat) (c : Cmp) : State :=
  if cmpMode s k = 1 then
    let nx := cmpNext s k c.neg c.value
    let s := wr64 (setCmp s k { c with armed := true, value := nx.1, passed := false }) (cmpA k 8) (twos 64 nx.1)
    cmpShow (if nx.2 = 0 then s else ev (countN s pgCmp 32 nx.2) pgCmp 10) k
  else cmpShow (setCmp s k { c with armed := false }) k

theorem cmpFire_eq (s : State) (k : Nat) : cmpFire s k = cmpFired (cmpPulse s k (getCmp s k).value) k (getCmp s k) := rfl

/-- The words of a firing's next value, of STAT and of the events aside, it writes none. -/
theorem rd_cmpFired (s : State) (k : Nat) (c : Cmp) {a : Nat} (h8 : a ≠ cmpA k 8) (hC : a ≠ cmpA k 0xC) (h18 : a ≠ cmpA k 0x18)
    (hp : a ≠ ra pgCmp 0x24) : rd (cmpFired s k c) a = rd s a := by
  have val (u : State) (v : Nat) : rd (wr64 u (cmpA k 8) v) a = rd u a := rd_wr64_other u v h8 hC
  have skips (u : State) (n : Nat) : rd (ev (countN u pgCmp 32 n) pgCmp 10) a = rd u a := by
    rw [rd_ev, if_neg hp]
    simp only [rd, countN_fields]
  unfold cmpFired
  dsimp only
  split
  · rw [rd_cmpShow _ _ h18]
    split
    · exact val _ _
    · exact (skips _ _).trans (val _ _)
  · rw [rd_cmpShow _ _ h18]
    rfl

theorem cmpFired_evolves (s : State) (k : Nat) (c : Cmp) : Evolves 8589377 s (cmpFired s k c) := by
  unfold cmpFired
  dsimp only
  have show_ (u : State) (h : Evolves 8589377 s u) : Evolves 8589377 s (cmpShow u k) := cmpShow_evolves _ _ rfl h
  have set (c : Cmp) : Evolves 8589377 s (setCmp s k c) := setCmp_evolves _ _ _ rfl .rfl
  refine .ite (fun _ => show_ _ (.ite (fun _ => ?_) fun _ => ?_)) fun _ => show_ _ (set _)
  · exact wr64_evolves _ _ _ rfl (set _)
  · exact ev_evolves _ _ _ rfl (countN_evolves _ _ _ _ rfl (wr64_evolves _ _ _ rfl (set _)))

theorem motion_cmpShow (s : State) (k : Nat) : (cmpShow s k).motion = s.motion := rfl

/-- The unit after a firing, and the axes beside it. -/
theorem motion_cmpFired (s : State) (k : Nat) (c : Cmp) :
    (cmpFired s k c).motion = (setCmp s k (if cmpMode s k = 1 then
      { c with armed := true, value := (cmpNext s k c.neg c.value).1, passed := false } else { c with armed := false })).motion := by
  have skips (u : State) (n : Nat) : (ev (countN u pgCmp 32 n) pgCmp 10).motion = u.motion := by
    rw [motion_ev]
    simp only [countN_fields]
  unfold cmpFired
  dsimp only
  by_cases repeats : cmpMode s k = 1
  · rw [if_pos repeats, if_pos repeats, motion_cmpShow]
    split
    · rfl
    · rw [skips]
      rfl
  · rw [if_neg repeats, if_neg repeats, motion_cmpShow]

/-- The position that a unit watches is decided by its configuration and by its source. -/
theorem cmpPos_of {k : Nat} (cfg : cmpCfg t k = cmpCfg s k) (axes : t.motion.axes = s.motion.axes) (chans : t.chans = s.chans) :
    cmpPos t k = cmpPos s k := by
  rw [cmpPos, cmpOnAxis, cmpSrc, cfg, getAxis, axes, getChan, chans, cmpPos, cmpOnAxis, cmpSrc, getAxis, getChan]

/-- In REPEAT mode the next value is the first of the period's multiples that lies ahead (R399). -/
theorem cmpNext_ahead {neg : Bool} {v : Int} (reached : cmpReached s k neg v = true) (period : 0 < cmpPeriod s k) :
    cmpReached s k neg (cmpNext s k neg v).1 = false ∧
      ∃ n : Nat, 1 ≤ n ∧ (cmpNext s k neg v).1 = if neg then v - n * cmpPeriod s k else v + n * cmpPeriod s k := by
  have positive : (0 : Int) < cmpPeriod s k := by exact_mod_cast period
  have beyond (d : Int) (h : 0 ≤ d) : d < (((d / cmpPeriod s k).toNat + 1 : Nat) : Int) * cmpPeriod s k := by
    have next := Int.lt_ediv_add_one_mul_self d positive
    have whole : ((d / cmpPeriod s k).toNat : Int) = d / cmpPeriod s k := Int.toNat_of_nonneg (Int.ediv_nonneg h positive.le)
    rw [Nat.cast_add, whole]
    exact next
  cases neg
  · have at_ : v ≤ cmpPos s k := by simpa [cmpReached] using reached
    have far := beyond (cmpPos s k - v) (by omega)
    refine ⟨?_, _, Nat.le_add_left 1 _, rfl⟩
    have ahead : ¬v + (((cmpPos s k - v) / cmpPeriod s k).toNat + 1 : Nat) * cmpPeriod s k ≤ cmpPos s k := by omega
    exact decide_eq_false ahead
  · have at_ : cmpPos s k ≤ v := by simpa [cmpReached] using reached
    have far := beyond (v - cmpPos s k) (by omega)
    refine ⟨?_, _, Nat.le_add_left 1 _, rfl⟩
    have ahead : ¬cmpPos s k ≤ v - (((v - cmpPos s k) / cmpPeriod s k).toNat + 1 : Nat) * cmpPeriod s k := by omega
    exact decide_eq_false ahead

/-! ### The latch time and the pulse -/

theorem cmpLatch_wr (s : State) {a : Nat} (v : Nat) (h : cmpA k 0 ≠ a) : cmpLatch (wr s a v) k = cmpLatch s k := by
  have cfg : cmpCfg (wr s a v) k = cmpCfg s k := by rw [cmpCfg, rd_wr, if_neg h, cmpCfg]
  rw [cmpLatch, cmpOnAxis, cmpSrc, cfg, cmpLatch, cmpOnAxis, cmpSrc]
  rfl

theorem latched_cmpLatched (s : State) (h : k < 32) : rd64 (cmpLatched s k) (ra pgCmp (0x440 + 8 * k)) = cmpLatch s k % 2 ^ 64 := by
  let u := wr s (ra pgCmp 0x540) (rd s (ra pgCmp 0x540) ||| 2 ^ k)
  have latch : cmpLatch u k = cmpLatch s k := cmpLatch_wr s _ (by simp only [cmpA, ra]; omega)
  have word (a : Nat) (h : a ≠ ra pgCmp 0x24) : rd (cmpLatched s k) a = rd (wr64 u (ra pgCmp (0x440 + 8 * k)) (cmpLatch u k)) a := by
    simp only [cmpLatched]
    rw [rd_ev, if_neg h]
    simp only [count_fields]
    rfl
  rw [rd64, word _ (by simp only [ra]; omega), word _ (by simp only [ra]; omega), latch, wr64, rd_wr, if_neg (by omega), rd_wr_same, rd_wr_same]
  omega

/-- A unit that drives its shared outputs pulses on TRIG. -/
theorem trig_cmpPulse (s : State) (h : k < 32) (v : Int) (out : bitOf (cmpCfg s k) 8 = true) (drives : drivesShared s = true) :
    .trig (field (cmpCfg s k) 3 0) (bitOf (cmpCfg s k) 9) (10 * rdf s (cmpA k 4) 15 0) ∈ (cmpPulse s k v).out := by
  have step : Evolves 8523841 s (cmpLatched s k) :=
    ev_evolves _ _ _ rfl (count_evolves _ _ _ rfl (wr64_evolves _ _ _ rfl (wr_evolves _ _ _ rfl .rfl)))
  have driven : drivesShared (cmpLatched s k) = drivesShared s := drivesShared_of (step.same .pair rfl) (step.same .sys rfl)
  have width : rd (cmpLatched s k) (cmpA k 4) = rd s (cmpA k 4) := by
    rw [rd_cmpLatched s k, rd_wr, if_neg] <;> simp only [cmpA, ra, pgCmp] <;> omega
  rw [cmpPulse_eq, if_pos (by rw [out, driven, drives]; rfl)]
  refine (strobe_evolves (m := 8405056) _ _ _ (by decide) .rfl).kept.2.1.subset ?_
  rw [rdf, width]
  exact List.mem_append_right _ (List.mem_singleton_self _)

end Sys2Proof.Machine

namespace Sys2Proof.Proofs
open Sys2Proof Sys2Proof.Machine

/-- Settles O48: an arm that is kept only, refused, or lies ahead, and what a firing shows and leaves. -/
theorem compareUnits : Obligations.CompareUnits := by
  refine ⟨fun s rq k hi hk open_ => ?_, fun s k hk => ?_⟩
  · intro u v
    have step : Evolves 5 s u := store_frame s _ _
    have page : cmpA k 0xC / 4096 = pgCmp := by
      simp only [cmpA, ra, pgCmp]
      omega
    refine ⟨fun held => ?_, fun free off => ?_, fun free on mode => ⟨fun source => ?_, fun source ahead => ?_⟩⟩
    · obtain ⟨event, words, -⟩ := refuse_leaves s isHeader_cmp
      refine ⟨refuse s pgCmp, ?_, motion_ev _ _ _, event, words⟩
      simp only [exec, execCompareArm, Nat.mod_eq_of_lt hk, held, refuseIf_true_of_admitted open_, page]
    · simp only [exec, execCompareArm, Nat.mod_eq_of_lt hk, free, refuseIf_false_of_admitted open_, cmpOn_store_cmpVal, cmpMode_store_cmpVal]
      rw [if_neg (by rcases off with h | h <;> simp [h])]
    · refine ⟨refuse u pgCmp, ?_, (motion_ev _ _ _).trans (step.same .motion rfl), ?_⟩
      · rw [exec_compareArm_enabled hk open_ free on mode, cmpArm_off (by rw [cmpSrcOff_store_cmpVal]; exact source)]
      · have same : evPend u pgCmp = evPend s pgCmp := rd_store_cmpVal s k _ (by decide) (by decide)
        rw [raised, ← same]
        exact (refuse_leaves u isHeader_cmp).1
    · have runs := exec_compareArm_enabled hk open_ free on mode
      rw [cmpArm_ahead (by rw [cmpSrcOff_store_cmpVal]; exact source)
        (by rw [cmpReached_store_cmpVal, cmpNeg_store_cmpVal]; exact ahead), cmpNeg_store_cmpVal] at runs
      refine ⟨_, runs, ?_, fun i hi => ?_, ?_⟩
      · rw [getCmp_cmpShow, getCmp_setCmp, if_pos rfl]
      · rw [getCmp_cmpShow, getCmp_setCmp, if_neg hi, step.getCmp_eq rfl]
      · rw [rdb_cmpShow, getCmp_setCmp, if_pos rfl]
  · intro c
    refine ⟨fun idle => execCompareFire_idle hk idle, fun armed reached => ?_⟩
    let v := cmpPulse s k c.value
    have fired : cmpFire s k = cmpFired v k c := cmpFire_eq s k
    have pulse := cmpPulse_frame s k c.value
    have mode : cmpMode v k = cmpMode s k := cmpMode_cmpPulse s hk c.value
    have motion := motion_cmpFired v k c
    refine ⟨cmpFire s k, execCompareFire_due hk armed reached, fired_cmpFire s hk, evPend_cmpFire hk (.inl rfl), counted_cmpFire s hk, ?_,
      fun out drives => ?_, fun once => ?_, fun repeats period => ?_, fun i hi => getCmp_cmpFire_other s hk hi⟩
    · have word (o : Nat) (h : 0x440 ≤ o) : rd (cmpFire s k) (ra pgCmp o) = rd (cmpLatched s k) (ra pgCmp o) := by
        rw [fired, rd_cmpFired, pulse.rd_eq rfl] <;> simp only [cmpA, ra] <;> omega
      rw [rd64, word _ (by omega), show ra pgCmp (0x440 + 8 * k) + 4 = ra pgCmp (0x440 + 8 * k + 4) from rfl, word _ (by omega)]
      exact latched_cmpLatched s hk
    · rw [fired]
      exact (cmpFired_evolves v k c).kept.2.1.subset (trig_cmpPulse s hk c.value out drives)
    · rw [fired, getCmp, motion, mode, if_neg once]
      exact (getCmp_setCmp v k k _).trans (if_pos rfl)
    · have at_ : getCmp (cmpFired v k c) k = { c with armed := true, value := (cmpNext v k c.neg c.value).1, passed := false } := by
        rw [getCmp, motion, mode, if_pos repeats]
        exact (getCmp_setCmp v k k _).trans (if_pos rfl)
      have cfg : cmpCfg v k = cmpCfg s k := by rw [cmpCfg, pulse.rd_eq rfl, ← cmpCfg, cmpCfg_cmpLatched s hk]
      have latched : Evolves 8523841 s (cmpLatched s k) :=
        ev_evolves _ _ _ rfl (count_evolves _ _ _ rfl (wr64_evolves _ _ _ rfl (wr_evolves _ _ _ rfl .rfl)))
      have chans : v.chans = s.chans := (pulse.same .chans rfl).trans (latched.same .chans rfl)
      have before_ : cmpPos v k = cmpPos s k :=
        cmpPos_of cfg (congrArg Motion.axes ((pulse.same .motion rfl).trans (latched.same .motion rfl))) chans
      have after : cmpPos (cmpFired v k c) k = cmpPos v k := by
        refine cmpPos_of ?_ ((congrArg Motion.axes motion).trans rfl) ((cmpFired_evolves v k c).same .chans rfl)
        refine rd_cmpFired v k c ?_ ?_ ?_ ?_ <;> simp only [cmpA, ra] <;> omega
      have every : cmpPeriod v k = cmpPeriod s k := by
        rw [cmpPeriod, rd64, pulse.rd_eq rfl, pulse.rd_eq rfl, rd_cmpLatched s k, rd_cmpLatched s k, rd_wr, if_neg, rd_wr, if_neg,
          cmpPeriod, rd64] <;> simp only [cmpA, ra] <;> omega
      have due : cmpReached v k c.neg c.value = true := by
        rw [cmpReached, before_, ← cmpReached]
        exact reached
      obtain ⟨ahead, n, one, value⟩ := cmpNext_ahead due (by rw [every]; exact period)
      rw [every] at value
      rw [fired, at_]
      refine ⟨rfl, ?_, n, one, value⟩
      rw [cmpReached, after, ← cmpReached]
      exact ahead

end Sys2Proof.Proofs
end

section
/-! PROOFS. EventSources (R403 to R406, R414, R416): edges at pins, the set and clear arrays, SRCCFG, and repeated EVENT messages. -/

namespace Sys2Proof.Machine
open Sys2Proof

variable {s t : State}

/-! ### What presenting a source leaves -/

theorem regs_notify (s : State) (src : Nat) : (notify s src).regs = s.regs :=
  (notify_evolves (m := 8523840) _ _ rfl .rfl).same .regs rfl

theorem arrays_notify (s : State) (src : Nat) :
    (notify s src).evc.pend = s.evc.pend ∧ (notify s src).evc.en = s.evc.en ∧ (notify s src).evc.active = s.evc.active ∧
      (notify s src).evc.gpio = s.evc.gpio := by
  obtain ⟨flags, held, evc⟩ := evc_notify s src
  rw [evc]
  exact ⟨rfl, rfl, rfl, rfl⟩

theorem levelSource_of_regs (h : t.regs = s.regs) (src : Nat) : levelSource t src = levelSource s src := by
  rw [levelSource, senseOf, rd, h, ← rd, ← senseOf, levelSource]

/-! ### Edges (R403 to R405) -/

/-- A new level of a pin that no source takes. -/
def pinAccepted (s : State) (n : Nat) (level : Bool) : State := setEvc s { s.evc with gpio := withBit s.evc.gpio n level }

theorem exec_gpioEdge {n : Nat} (h : n < 32) (level : Bool) :
    exec (.gpioEdge n level) s = .next (if gpioInput s n = true ∧ bitOf s.evc.gpio n ≠ level then
        (if senseOf s (0x20 + n) < 2 then notify (pinAccepted s n level) (0x20 + n)
         else if senseOf s (0x20 + n) = 4 ∨ (senseOf s (0x20 + n) = 2 ∧ level = true) ∨ (senseOf s (0x20 + n) = 3 ∧ level = false) then
           edgeEvent (pinAccepted s n level) (0x20 + n)
         else pinAccepted s n level)
      else pinAccepted s n level) := by
  have changed : (gpioInput s n && bitOf s.evc.gpio n != level) = true ↔ gpioInput s n = true ∧ bitOf s.evc.gpio n ≠ level := by
    rw [Bool.and_eq_true, bne_iff_ne]
  simp only [exec, execGpioEdge, Nat.mod_eq_of_lt h, ← changed]
  rfl

/-- An edge sets the P of its source and no other. -/
theorem edgeEvent_leaves (s : State) (src : Nat) :
    bitOf (edgeEvent s src).evc.pend src = true ∧ (∀ i, i ≠ src → bitOf (edgeEvent s src).evc.pend i = bitOf s.evc.pend i) ∧
      (edgeEvent s src).evc.active = s.evc.active ∧ (edgeEvent s src).evc.en = s.evc.en ∧ (edgeEvent s src).evc.gpio = s.evc.gpio := by
  unfold edgeEvent
  split
  · next stands =>
    have same : (count s pgEvc 20).evc = s.evc := by simp only [count_fields]
    rw [same]
    exact ⟨stands, fun _ _ => rfl, rfl, rfl, rfl⟩
  · obtain ⟨pend, en, active, gpio⟩ := arrays_notify (setEvc s { s.evc with pend := s.evc.pend ||| 2 ^ src }) src
    rw [pend, en, active, gpio]
    have set : s.evc.pend ||| 2 ^ src = withBit s.evc.pend src true := (if_pos rfl).symm
    refine ⟨?_, fun i other => ?_, rfl, rfl, rfl⟩
    · exact (congrArg (bitOf · src) set).trans (bitOf_withBit_same _ _ _)
    · exact (congrArg (bitOf · i) set).trans (bitOf_withBit_other _ _ other)

/-! ### The set and clear arrays (R406) -/

/-- What each source of a list sets or clears in an array, with the rest as it was. -/
theorem foldl_bits {α : Type} {act : State → Nat → State} {get : State → Nat} {kept : State → α} {takes : Nat → Bool} {b : Bool} {r : α}
    (each : ∀ v src, kept v = r → kept (act v src) = r ∧
      ∀ i, bitOf (get (act v src)) i = if i = src ∧ takes src = true then b else bitOf (get v) i) (l : List Nat) {u : State} (start : kept u = r) :
    kept (l.foldl act u) = r ∧ ∀ i, bitOf (get (l.foldl act u)) i = if i ∈ l ∧ takes i = true then b else bitOf (get u) i := by
  induction l generalizing u with
  | nil => exact ⟨start, fun i => by simp⟩
  | cons src l ih =>
    obtain ⟨next, bits⟩ := each u src start
    obtain ⟨last, rest⟩ := ih next
    refine ⟨last, fun i => ?_⟩
    rw [List.foldl_cons, rest, bits]
    by_cases taken : takes i = true
    · by_cases here : i = src
      · subst here
        simp [taken]
      · simp [here, taken]
    · by_cases here : i = src
      · subst here
        simp [taken]
      · simp [here, taken]

theorem mem_writtenSources {rq : Requester} {w : Nat} {val : Word} {src : Nat} (h : w < 16) :
    src ∈ writtenSources s rq w val ↔
      ∃ i, src = 32 * w + i ∧ i < 32 ∧ val.getLsbD i = true ∧ sourceExists src = true ∧ lockedFor s rq src = false := by
  unfold writtenSources
  rw [Nat.mod_eq_of_lt h, List.mem_map]
  constructor
  · rintro ⟨i, member, rfl⟩
    obtain ⟨low, on⟩ := List.mem_filter.1 member
    simp only [Bool.and_eq_true, Bool.not_eq_true'] at on
    exact ⟨i, rfl, List.mem_range.1 low, on.1.1, on.1.2, on.2⟩
  · rintro ⟨i, rfl, low, bit, exists_, free⟩
    exact ⟨i, List.mem_filter.2 ⟨List.mem_range.2 low, by simp [bit, exists_, free]⟩, rfl⟩

/-- A write of an array by the sources that it takes, with REFUSED for those that are locked. -/
def arrayStart (s : State) (rq : Requester) (w : Nat) (val : Word) : State := if writesLocked s rq w val then refuse s pgEvc else s

theorem arrayStart_leaves (s : State) (rq : Requester) (w : Nat) (val : Word) :
    (arrayStart s rq w val).evc.pend = s.evc.pend ∧ (arrayStart s rq w val).evc.en = s.evc.en ∧
      (arrayStart s rq w val).evc.active = s.evc.active ∧ (∀ src, levelSource (arrayStart s rq w val) src = levelSource s src) ∧
      (writesLocked s rq w val = true → (evPend (arrayStart s rq w val) pgEvc).testBit 4 = true) := by
  unfold arrayStart
  split
  · obtain ⟨flags, held, evc⟩ := evc_ev s pgEvc 4
    have same : refuse s pgEvc = ev s pgEvc 4 := rfl
    rw [same, evc]
    refine ⟨rfl, rfl, rfl, fun src => ?_, fun _ => testBit_evPend_raised s pgEvc (by decide)⟩
    have word : rd (ev s pgEvc 4) (srccfgAddr src) = rd s (srccfgAddr src) := by
      refine wordsKept_ev s pgEvc 4 _ ?_
      unfold srccfgAddr ra pgEvc
      simp only [List.mem_singleton]
      split <;> omega
    rw [levelSource, senseOf, word, ← senseOf, levelSource]
  · next free => exact ⟨rfl, rfl, rfl, fun _ => rfl, fun locked => absurd locked free⟩

theorem arrayWrite_admitted {base w : Nat} {rq : Requester} {val : Word} (h : w < 16) (open_ : admitted s (evcA (base + 4 * w)) val.toNat)
    (act : State → Nat → State) : arrayWrite s base rq w val act = (writtenSources s rq w val).foldl act (arrayStart s rq w val) := by
  rw [arrayWrite, Nat.mod_eq_of_lt h, gated_of_admitted open_]
  rfl

/-- What setting a bit of P does, and what it leaves of the rest. -/
theorem pendSet_each {r : Tab Word × Nat × Nat} (v : State) (src : Nat) (at_ : (v.regs, v.evc.en, v.evc.active) = r) (b : Bool) (present : Bool) :
    let y := setEvc v { v.evc with pend := withBit v.evc.pend src b }
    let z := if levelSource v src then v else if present then notify y src else y
    (z.regs, z.evc.en, z.evc.active) = r ∧
      ∀ i, bitOf z.evc.pend i = if i = src ∧ (!levelSource v src) = true then b else bitOf v.evc.pend i := by
  intro y z
  have kept : ∀ i, bitOf y.evc.pend i = if i = src then b else bitOf v.evc.pend i := fun i => bitOf_withBit _ _ _ _
  by_cases level : levelSource v src = true
  · have same : z = v := if_pos level
    rw [same]
    exact ⟨at_, fun i => by simp [level]⟩
  · have takes : (!levelSource v src) = true := by simpa using level
    have moved : z = if present then notify y src else y := if_neg level
    have leaves : z.regs = v.regs ∧ z.evc.en = v.evc.en ∧ z.evc.active = v.evc.active ∧ z.evc.pend = y.evc.pend := by
      rw [moved]
      cases present
      · exact ⟨rfl, rfl, rfl, rfl⟩
      · obtain ⟨pend, en, active, -⟩ := arrays_notify y src
        exact ⟨regs_notify y src, en, active, pend⟩
    obtain ⟨regs, en, active, pend⟩ := leaves
    rw [regs, en, active, pend]
    refine ⟨at_, fun i => (kept i).trans ?_⟩
    simp only [takes, and_true]

/-- The same of a bit of EN, which every source takes. -/
theorem enSet_each {r : Tab Word × Nat × Nat} (v : State) (src : Nat) (at_ : (v.regs, v.evc.pend, v.evc.active) = r) (b : Bool) (present : Bool) :
    let y := setEvc v { v.evc with en := withBit v.evc.en src b }
    let z := if present then notify y src else y
    (z.regs, z.evc.pend, z.evc.active) = r ∧ ∀ i, bitOf z.evc.en i = if i = src ∧ true = true then b else bitOf v.evc.en i := by
  intro y z
  have kept : ∀ i, bitOf y.evc.en i = if i = src ∧ true = true then b else bitOf v.evc.en i := fun i => by
    simp only [and_true]
    exact bitOf_withBit v.evc.en src b i
  cases present
  · exact ⟨at_, kept⟩
  · obtain ⟨pend, en, active, -⟩ := arrays_notify y src
    have leaves : z = notify y src := rfl
    rw [leaves, pend, en, active, regs_notify]
    exact ⟨at_, kept⟩

/-- What a write of an array at `base` does to the bits that its sources take, with the rest of what it keeps. -/
theorem arrayWrite_bits {α : Type} {act : State → Nat → State} {get : State → Nat} {kept : State → Tab Word × α} {takes : State → Nat → Bool} {b : Bool}
    {base w : Nat} {rq : Requester} {val : Word} (h : w < 16) (open_ : admitted s (evcA (base + 4 * w)) val.toNat)
    (regs : ∀ v, (kept v).1 = v.regs) (word : ∀ v x src, v.regs = x.regs → takes v src = takes x src)
    (each : ∀ v src, kept v = kept (arrayStart s rq w val) → kept (act v src) = kept (arrayStart s rq w val) ∧
      ∀ i, bitOf (get (act v src)) i = if i = src ∧ takes v src = true then b else bitOf (get v) i) :
    kept (arrayWrite s base rq w val act) = kept (arrayStart s rq w val) ∧
      ∀ i, bitOf (get (arrayWrite s base rq w val act)) i =
        if i ∈ writtenSources s rq w val ∧ takes (arrayStart s rq w val) i = true then b else bitOf (get (arrayStart s rq w val)) i := by
  rw [arrayWrite_admitted h open_]
  refine foldl_bits (fun v src at_ => ?_) _ rfl
  have same : takes v src = takes (arrayStart s rq w val) src :=
    word _ _ _ ((regs v).symm.trans ((congrArg Prod.fst at_).trans (regs _)))
  exact same ▸ each v src at_

/-- The parts of an array write of P that no source's bit touches, and its REFUSED. -/
theorem pendWrite_keeps {base w : Nat} {rq : Requester} {val : Word} (h : w < 16) (open_ : admitted s (evcA (base + 4 * w)) val.toNat) (b present : Bool) :
    let act := fun (v : State) (src : Nat) => if levelSource v src then v else
      if present then notify (setEvc v { v.evc with pend := withBit v.evc.pend src b }) src else setEvc v { v.evc with pend := withBit v.evc.pend src b }
    let t := arrayWrite s base rq w val act
    t.evc.en = s.evc.en ∧ t.evc.active = s.evc.active ∧ (writesLocked s rq w val = true → (evPend t pgEvc).testBit 4 = true) ∧
      ∀ i, bitOf t.evc.pend i = if i ∈ writtenSources s rq w val ∧ levelSource s i = false then b else bitOf s.evc.pend i := by
  intro act t
  obtain ⟨pend, en, active, level, locked⟩ := arrayStart_leaves s rq w val
  obtain ⟨stays, bits⟩ := arrayWrite_bits (α := Nat × Nat) (act := act) (get := fun v => v.evc.pend) (kept := fun v => (v.regs, v.evc.en, v.evc.active))
    (takes := fun v src => !levelSource v src) (b := b) h open_ (fun _ => rfl) (fun v x src same => by rw [levelSource_of_regs same])
    (fun v src at_ => pendSet_each v src at_ b present)
  simp only [Prod.mk.injEq] at stays
  obtain ⟨regs, en', active'⟩ := stays
  refine ⟨en'.trans en, active'.trans active, fun l => ?_, fun i => ?_⟩
  · rw [evPend_of_regs regs]
    exact locked l
  · refine (bits i).trans ?_
    rw [level, pend]
    simp only [Bool.not_eq_true']

theorem enWrite_keeps {base w : Nat} {rq : Requester} {val : Word} (h : w < 16) (open_ : admitted s (evcA (base + 4 * w)) val.toNat) (b present : Bool) :
    let act := fun (v : State) (src : Nat) =>
      if present then notify (setEvc v { v.evc with en := withBit v.evc.en src b }) src else setEvc v { v.evc with en := withBit v.evc.en src b }
    let t := arrayWrite s base rq w val act
    t.evc.pend = s.evc.pend ∧ t.evc.active = s.evc.active ∧ (writesLocked s rq w val = true → (evPend t pgEvc).testBit 4 = true) ∧
      ∀ i, bitOf t.evc.en i = if i ∈ writtenSources s rq w val then b else bitOf s.evc.en i := by
  intro act t
  obtain ⟨pend, en, active, -, locked⟩ := arrayStart_leaves s rq w val
  obtain ⟨stays, bits⟩ := arrayWrite_bits (α := Nat × Nat) (act := act) (get := fun v => v.evc.en) (kept := fun v => (v.regs, v.evc.pend, v.evc.active))
    (takes := fun _ _ => true) (b := b) h open_ (fun _ => rfl) (fun _ _ _ _ => rfl) (fun v src at_ => enSet_each v src at_ b present)
  simp only [Prod.mk.injEq] at stays
  obtain ⟨regs, pend', active'⟩ := stays
  refine ⟨pend'.trans pend, active'.trans active, fun l => ?_, fun i => ?_⟩
  · rw [evPend_of_regs regs]
    exact locked l
  · rw [bits i, en]
    simp only [and_true]

theorem srccfgNext_lt (s : State) (src v : Nat) : srccfgNext s src v < 2 ^ 32 := by
  have word : rd s (srccfgAddr src) < 2 ^ 32 := rd_lt _ _
  have low : (if 0x20 ≤ src ∧ src < 0x40 then field v 2 0 else rdf s (srccfgAddr src) 2 0) < 8 := by
    unfold rdf field
    split <;> omega
  have group : field v 10 8 < 8 := Nat.mod_lt _ (by decide)
  have prio : field v 7 4 < 16 := Nat.mod_lt _ (by decide)
  unfold srccfgNext
  dsimp only
  omega

/-- TARGET and PRIO of the word that a write of SRCCFG stores are those of the value written. -/
theorem srccfgNext_fields (s : State) (src v : Nat) :
    field (srccfgNext s src v) 10 8 = field v 10 8 ∧ field (srccfgNext s src v) 7 4 = field v 7 4 := by
  have low : (if 0x20 ≤ src ∧ src < 0x40 then field v 2 0 else rdf s (srccfgAddr src) 2 0) < 8 := by
    unfold rdf field
    split <;> omega
  have group : field v 10 8 < 8 := Nat.mod_lt _ (by decide)
  have prio : field v 7 4 < 16 := Nat.mod_lt _ (by decide)
  unfold srccfgNext
  dsimp only
  generalize (if 0x20 ≤ src ∧ src < 0x40 then field v 2 0 else rdf s (srccfgAddr src) 2 0) = sense at low ⊢
  generalize field v 10 8 = g at group ⊢
  generalize field v 7 4 = q at prio ⊢
  unfold field
  constructor <;> omega

/-- What storing a source's SRCCFG leaves. -/
theorem srccfgStored_leaves (s : State) (src v : Nat) :
    let t := notify (wr s (srccfgAddr src) (srccfgNext s src v)) src
    rd t (srccfgAddr src) = srccfgNext s src v ∧ wordsKept [srccfgAddr src] s t ∧ onlyChanges eventParts s t := by
  intro t
  have word : ∀ a, rd t a = if a = srccfgAddr src then srccfgNext s src v % 2 ^ 32 else rd s a := fun a =>
    (by rw [rd, regs_notify]; rfl : rd t a = rd (wr s (srccfgAddr src) (srccfgNext s src v)) a).trans (rd_wr s _ _ a)
  have wrote : Evolves 8523841 s (wr s (srccfgAddr src) (srccfgNext s src v)) := wr_evolves _ _ _ rfl .rfl
  refine ⟨?_, fun a other => ?_, (notify_evolves _ _ rfl wrote).only (by decide)⟩
  · rw [word, if_pos rfl, Nat.mod_eq_of_lt (srccfgNext_lt s src v)]
  · rw [word, if_neg (List.mem_singleton.not.1 other)]

end Sys2Proof.Machine

namespace Sys2Proof.Proofs
open Sys2Proof Sys2Proof.Machine

/-- An accepted level of a pin, with the P of its source where SENSE selects the edge (R403 to R405). -/
theorem gpioEdge_accepts (s : State) (n : Nat) (level : Bool) (h : n < 32) :
    completes (.gpioEdge n level) s (fun t =>
      let k := senseOf s (0x20 + n)
      bitOf t.evc.gpio n = level ∧ (∀ i, i ≠ n → bitOf t.evc.gpio i = bitOf s.evc.gpio i) ∧ t.evc.active = s.evc.active ∧
        t.evc.en = s.evc.en ∧ (∀ i, i ≠ 0x20 + n → bitOf t.evc.pend i = bitOf s.evc.pend i) ∧
        (gpioInput s n = true → bitOf s.evc.gpio n ≠ level → (k = 4 ∨ k = 2 ∧ level = true ∨ k = 3 ∧ level = false) →
          bitOf t.evc.pend (0x20 + n) = true) ∧
        (gpioInput s n = false ∨ bitOf s.evc.gpio n = level ∨ k < 2 ∨ k = 2 ∧ level = false ∨ k = 3 ∧ level = true →
          t.evc.pend = s.evc.pend)) := by
  have here : bitOf (pinAccepted s n level).evc.gpio n = level := bitOf_withBit_same _ _ _
  have others : ∀ i, i ≠ n → bitOf (pinAccepted s n level).evc.gpio i = bitOf s.evc.gpio i := fun i other => bitOf_withBit_other _ _ other
  refine ⟨_, exec_gpioEdge h level, ?_⟩
  dsimp only
  by_cases changed : gpioInput s n = true ∧ bitOf s.evc.gpio n ≠ level
  · obtain ⟨input, differs⟩ := changed
    rw [if_pos ⟨input, differs⟩]
    by_cases flat : senseOf s (0x20 + n) < 2
    · rw [if_pos flat]
      obtain ⟨pend, en, active, gpio⟩ := arrays_notify (pinAccepted s n level) (0x20 + n)
      rw [pend, en, active, gpio]
      refine ⟨here, others, rfl, rfl, fun _ _ => rfl, fun _ _ sense => ?_, fun _ => rfl⟩
      omega
    · rw [if_neg flat]
      split
      · next taken =>
        obtain ⟨pend, rest, active, en, gpio⟩ := edgeEvent_leaves (pinAccepted s n level) (0x20 + n)
        rw [active, en, gpio]
        refine ⟨here, others, rfl, rfl, rest, fun _ _ _ => pend, fun none => ?_⟩
        rcases none with off | same | low | ⟨rising, down⟩ | ⟨falling, up⟩
        · exact absurd (input.symm.trans off) (by decide)
        · exact absurd same differs
        · exact absurd low flat
        · rcases taken with both | ⟨-, up⟩ | ⟨falling, -⟩
          · omega
          · exact absurd (up.symm.trans down) (by decide)
          · omega
        · rcases taken with both | ⟨rising, -⟩ | ⟨-, down⟩
          · omega
          · omega
          · exact absurd (up.symm.trans down) (by decide)
      · next ignored => exact ⟨here, others, rfl, rfl, fun _ _ => rfl, fun _ _ sense => absurd sense ignored, fun _ => rfl⟩
  · rw [if_neg changed]
    exact ⟨here, others, rfl, rfl, fun _ _ => rfl, fun input differs => absurd ⟨input, differs⟩ changed, fun _ => rfl⟩

/-- Settles O50: edges, the set and clear arrays, SRCCFG and repeated EVENT messages (R403 to R406, R414, R416). -/
theorem eventSources : Obligations.EventSources := by
  unfold Obligations.EventSources
  refine ⟨gpioEdge_accepts, fun s rq w val low => ?_, fun s rq src v low => ?_, fun s => ?_⟩
  · intro takes locked
    have member : ∀ src, src ∈ writtenSources s rq w val ↔ ∃ i, takes i src := fun src => mem_writtenSources low
    refine ⟨fun open_ => ?_, fun open_ => ?_, fun open_ => ?_, fun open_ => ?_⟩
    · obtain ⟨en, active, refused, bits⟩ := pendWrite_keeps (rq := rq) low open_ true true
      refine ⟨_, rfl, en, active, refused, fun i src at_ edge => ?_, fun src other => ?_⟩
      · exact (bits src).trans (if_pos ⟨(member src).2 ⟨i, at_⟩, edge⟩)
      · refine (bits src).trans (if_neg fun ⟨written, edge⟩ => ?_)
        rcases other with none | level
        · exact none ((member src).1 written)
        · exact absurd (edge.symm.trans level) (by decide)
    · obtain ⟨en, active, refused, bits⟩ := pendWrite_keeps (rq := rq) low open_ false false
      refine ⟨_, rfl, en, active, refused, fun i src at_ edge => ?_, fun src other => ?_⟩
      · exact (bits src).trans (if_pos ⟨(member src).2 ⟨i, at_⟩, edge⟩)
      · refine (bits src).trans (if_neg fun ⟨written, edge⟩ => ?_)
        rcases other with none | level
        · exact none ((member src).1 written)
        · exact absurd (edge.symm.trans level) (by decide)
    · obtain ⟨pend, active, refused, bits⟩ := enWrite_keeps (rq := rq) low open_ true true
      refine ⟨_, rfl, pend, active, refused, fun i src at_ => ?_, fun src other => ?_⟩
      · exact (bits src).trans (if_pos ((member src).2 ⟨i, at_⟩))
      · exact (bits src).trans (if_neg fun written => other ((member src).1 written))
    · obtain ⟨pend, active, refused, bits⟩ := enWrite_keeps (rq := rq) low open_ false false
      refine ⟨_, rfl, pend, active, refused, fun i src at_ => ?_, fun src other => ?_⟩
      · exact (bits src).trans (if_pos ((member src).2 ⟨i, at_⟩))
      · exact (bits src).trans (if_neg fun written => other ((member src).1 written))
  · have runs : exec (.srccfgWrite rq src v) s = .next (srccfgSet s rq src v.toNat) := rfl
    simp only [srccfgSet, Nat.mod_eq_of_lt low] at runs
    refine ⟨fun none => by rw [runs, if_pos none], fun exists_ clock => ?_⟩
    rw [if_neg (by rw [exists_]; decide), if_neg (by rw [clock]; decide)] at runs
    refine ⟨fun refused => ?_, fun taken => ?_⟩
    · rw [if_pos refused] at runs
      exact ⟨_, runs, refuse_leaves s (by decide)⟩
    · rw [if_neg (by rw [taken]; decide)] at runs
      obtain ⟨word, words, only⟩ := srccfgStored_leaves s src v.toNat
      obtain ⟨target, prio⟩ := srccfgNext_fields s src v.toNat
      refine ⟨_, runs, word, ?_, ?_, words, only⟩
      · rw [targetOf, word, target]
      · rw [prioOf, word, prio]
  · have runs : exec .evmsgRepeat s = .next (if flagOf s 4 && rdb s (evcA 0x244) 10 then sendEvents s else s) := rfl
    have sends : Evolves 8392768 s (sendEvents s) := sendEvents_evolves s rfl .rfl
    refine ⟨fun quiet => ?_, fun flag on => ?_⟩
    · rw [runs, if_neg]
      rw [Bool.and_eq_true]
      rintro ⟨flag, on⟩
      rcases quiet with off | off
      · exact absurd (flag.symm.trans off) (by decide)
      · exact absurd (on.symm.trans off) (by decide)
    · rw [if_pos (by rw [Bool.and_eq_true]; exact ⟨flag, on⟩)] at runs
      exact ⟨_, runs, rfl, evc_sendEvents s, sends.kept.2.1, sends.only (by decide)⟩

end Sys2Proof.Proofs
end

section
/-! PROOFS. PowerStates (R418, R420 to R426, R428): Doze and Deep, the wake from them, the crystal and the camera PLL. -/

namespace Sys2Proof.Machine
open Sys2Proof

variable {s t : State}

/-! ### Folds that give each element of a list its value -/

/-- A step gives an element its value and takes it from no other: after the list each element has it. -/
theorem foldl_establishes {α β : Type} {f : β → α → β} {P : α → β → Prop} {l : List α} (sets : ∀ b, ∀ x ∈ l, P x (f b x))
    (keeps : ∀ b, ∀ x ∈ l, ∀ y, P y b → P y (f b x)) (b : β) : ∀ x ∈ l, P x (l.foldl f b) := by
  induction l generalizing b with
  | nil => exact fun x none => absurd none List.not_mem_nil
  | cons z l ih =>
    have rest := ih (fun b x hx => sets b x (List.mem_cons_of_mem _ hx)) (fun b x hx => keeps b x (List.mem_cons_of_mem _ hx)) (f b z)
    refine fun x hx => ?_
    rcases List.mem_cons.1 hx with rfl | later
    · exact foldl_kept (P x) (fun b y hy => keeps b y (List.mem_cons_of_mem _ hy) x) (sets b x List.mem_cons_self)
    · exact rest x later

/-! ### States of the sub-channels (R143) -/

theorem subState_of_word {k : Nat} (h : rd t (ra (pgDrc (k / 2)) 0x40) = rd s (ra (pgDrc (k / 2)) 0x40)) : subState t k = subState s k :=
  rdf_eq_of_rd h _ _

theorem subState_setSubState_same (s : State) (k : Nat) {v : Nat} (h : v < 16) : subState (setSubState s k v) k = v := by
  have word : subState (setSubState s k v) k =
      rdf (wrf s (ra (pgDrc (k / 2)) 0x40) (4 * (k % 2) + 3) (4 * (k % 2)) v) (ra (pgDrc (k / 2)) 0x40) (4 * (k % 2) + 3) (4 * (k % 2)) := rfl
  rw [word, rdf_wrf_same _ _ _ (by omega) (by omega), show 4 * (k % 2) + 3 + 1 - 4 * (k % 2) = 4 by omega]
  exact Nat.mod_eq_of_lt h

theorem subState_setSubState_other (s : State) {k j : Nat} (v : Nat) (h : j ≠ k) : subState (setSubState s k v) j = subState s j := by
  have word : subState (setSubState s k v) j =
      rdf (wrf s (ra (pgDrc (k / 2)) 0x40) (4 * (k % 2) + 3) (4 * (k % 2)) v) (ra (pgDrc (j / 2)) 0x40) (4 * (j % 2) + 3) (4 * (j % 2)) := rfl
  rw [word]
  by_cases page : j / 2 = k / 2
  · rw [page, rdf_wrf_beside _ _ _ (by omega) (by omega) (by omega), ← page]
    rfl
  · exact rdf_eq_of_rd (rd_wrf_other _ _ _ _ (by simp only [ra, pgDrc]; omega)) _ _

theorem subState_selfRefresh (s : State) {k : Nat} (h : k < 8) : subState (selfRefresh s) k = 2 := by
  refine foldl_establishes (P := fun k u => subState u k = 2) (fun u j _ => ?_) (fun u j _ i at_ => ?_) s k (List.mem_range.2 h)
  · split
    · next rests => exact rests
    · exact subState_setSubState_same _ _ (by decide)
  · split
    · exact at_
    · by_cases same : i = j
      · rw [same]
        exact subState_setSubState_same _ _ (by decide)
      · exact (subState_setSubState_other _ _ same).trans at_

theorem rd_syncDram (s : State) {a : Nat} (page : a / 4096 ≠ pgDrg) : rd (syncDram s) a = rd s a := by
  have off (o : Nat) (ho : o < 4096) : a ≠ ra pgDrg o := fun same => page (by rw [same]; simp only [ra, pgDrg]; omega)
  unfold syncDram
  dsimp only
  split
  · rw [rd_wr, if_neg (off _ (by decide)), rd_wr, if_neg (off _ (by decide))]
  · rw [(slowSync_evolves _ (m := 8396864) rfl .rfl).rd_eq rfl]
    have beside (u : State) (d : Dram) : rd { u with dram := d } a = rd u a := rfl
    rw [beside, rd_wr, if_neg (off _ (by decide)), rd_wr, if_neg (off _ (by decide)), rd_wr, if_neg (off _ (by decide)),
      rd_wr, if_neg (off _ (by decide))]

theorem subState_syncDram (s : State) {k : Nat} (h : k < 8) : subState (syncDram s) k = subState s k :=
  subState_of_word (rd_syncDram s (by simp only [ra, pgDrc, pgDrg]; omega))

/-- A sub-channel is trained: it serves, and its first burst of the training area is written. -/
def subTrained (s : State) (k : Nat) : State := trainArea (setSubState (if subState s k = 2 then dramCmd s k 5 else s) k 1) k

theorem memTrained_eq (s : State) : memTrained s = syncDram ((List.range 8).foldl subTrained s) := rfl

theorem subState_subTrained_same (s : State) (k : Nat) : subState (subTrained s k) k = 1 :=
  Eq.trans (b := subState (setSubState (if subState s k = 2 then dramCmd s k 5 else s) k 1) k) rfl (subState_setSubState_same _ _ (by decide))

theorem subState_subTrained_other (s : State) {k j : Nat} (h : j ≠ k) : subState (subTrained s k) j = subState s j := by
  have commanded : subState (if subState s k = 2 then dramCmd s k 5 else s) j = subState s j := by
    split <;> rfl
  exact (Eq.trans (b := subState (setSubState (if subState s k = 2 then dramCmd s k 5 else s) k 1) j) rfl
    (subState_setSubState_other _ _ h)).trans commanded

/-- Once image memory is trained every sub-channel serves (R143). -/
theorem subState_memTrained (s : State) {k : Nat} (h : k < 8) : subState (memTrained s) k = 1 := by
  rw [memTrained_eq, subState_syncDram _ h]
  refine foldl_establishes (P := fun k u => subState u k = 1) (fun u j _ => subState_subTrained_same u j) (fun u j _ i at_ => ?_) s k (List.mem_range.2 h)
  by_cases same : i = j
  · rw [same]
    exact subState_subTrained_same u j
  · exact (subState_subTrained_other u same).trans at_

/-! ### Training writes the training area only (R127) -/

theorem trainBase_ge (s : State) : 2 ^ 34 - 2 ^ 18 ≤ trainBase s := by
  unfold trainBase installed
  have deep : min (density_ s) 2 ≤ 2 := Nat.min_le_right _ _
  by_cases small : density_ s = 0
  · rw [if_pos small, small]
    decide
  · rw [if_neg small]
    obtain one | two : min (density_ s) 2 = 1 ∨ min (density_ s) 2 = 2 := by omega
    · rw [one]
      decide
    · rw [two]
      decide

theorem trainBase_of_word (h : rd t (ra pgDrg 0x40) = rd s (ra pgDrg 0x40)) : trainBase t = trainBase s := by
  have dense : density_ t = density_ s := rdf_eq_of_rd h _ _
  rw [trainBase, installed, dense]
  rfl

theorem memByte_trainArea (s : State) (k : Nat) {a : Nat} (h : a < trainBase s) :
    memByte (trainArea s k).dram.mem a = memByte s.dram.mem a := by
  have writes : (trainArea s k).dram.mem = memWrite s.dram.mem (trainBase s + 256 * k) (leBytes 64 (drawFree s 512).1) := rfl
  rw [writes, memByte_memWrite_outside _ _ _ _ (.inl (Nat.lt_of_lt_of_le h (Nat.le_add_right _ _)))]

/-- Training a sub-channel leaves image memory below the training area. -/
theorem memByte_subTrained (s : State) {k a : Nat} (hk : k < 8) (h : a < trainBase s) :
    memByte (subTrained s k).dram.mem a = memByte s.dram.mem a ∧ rd (subTrained s k) (ra pgDrg 0x40) = rd s (ra pgDrg 0x40) := by
  have commanded : rd (if subState s k = 2 then dramCmd s k 5 else s) (ra pgDrg 0x40) = rd s (ra pgDrg 0x40) ∧
      (if subState s k = 2 then dramCmd s k 5 else s).dram.mem = s.dram.mem := by
    split <;> exact ⟨rfl, rfl⟩
  obtain ⟨word, mem⟩ := commanded
  unfold subTrained
  generalize (if subState s k = 2 then dramCmd s k 5 else s) = v at word mem ⊢
  have set : rd (setSubState v k 1) (ra pgDrg 0x40) = rd s (ra pgDrg 0x40) := by
    refine Eq.trans (b := rd (wrf v (ra (pgDrc (k / 2)) 0x40) (4 * (k % 2) + 3) (4 * (k % 2)) 1) (ra pgDrg 0x40)) rfl
      ((rd_wrf_other _ _ _ _ ?_).trans word)
    simp only [ra, pgDrg, pgDrc]
    omega
  exact ⟨(memByte_trainArea _ _ (by rw [trainBase_of_word set]; exact h)).trans (congrArg (memByte · a) mem), set⟩

theorem memByte_memTrained (s : State) {a : Nat} (h : a < trainBase s) : memByte (memTrained s).dram.mem a = memByte s.dram.mem a := by
  have all : memByte ((List.range 8).foldl subTrained s).dram.mem a = memByte s.dram.mem a ∧
      rd ((List.range 8).foldl subTrained s) (ra pgDrg 0x40) = rd s (ra pgDrg 0x40) := by
    refine foldl_kept (fun u : State => memByte u.dram.mem a = memByte s.dram.mem a ∧ rd u (ra pgDrg 0x40) = rd s (ra pgDrg 0x40))
      (fun u k hk kept => ?_) ⟨rfl, rfl⟩
    obtain ⟨mem, word⟩ := kept
    obtain ⟨mem', word'⟩ := memByte_subTrained u (List.mem_range.1 hk) (by rw [trainBase_of_word word]; exact h)
    exact ⟨mem'.trans mem, word'.trans word⟩
  have synced (u : State) : (syncDram u).dram.mem = u.dram.mem := by
    unfold syncDram
    dsimp only
    split
    · rfl
    · rw [(slowSync_evolves _ (m := 8396864) rfl .rfl).same .dram rfl]
      rfl
  rw [memTrained_eq, synced, all.1]

/-! ### What asking lanes to idle leaves (R421) -/

/-- Lanes asked to idle count their frames on their own pages; registers and what image memory holds stay. -/
theorem idleLanes_leaves (s : State) : (idleLanes s).regs = s.regs ∧ (idleLanes s).dram = s.dram ∧ (idleLanes s).host = s.host ∧
    (idleLanes s).power = s.power ∧ ∀ j, j < 128 → counter (idleLanes s) pgClk j = counter s pgClk j := by
  have step : Evolves 8396864 s (idleLanes s) := idleLanes_evolves s rfl .rfl
  refine ⟨step.same .regs rfl, step.same .dram rfl, step.same .host rfl, step.same .power rfl, fun j hj => ?_⟩
  refine foldl_kept (fun u => counter u pgClk j = counter s pgClk j) (fun u l hl kept => ?_) rfl
  dsimp only
  split
  · exact (counter_flnSend (setLane u l { getLane u l with eiAsked := true }) l 2 0 _ (by simp only [pgClk, pgFln]; omega)).trans kept
  · exact kept

/-! ### Recording faults while the unit boots -/

/-- The boot step and the power state are as they were. -/
def stepKept (s t : State) : Prop := t.sys.bootState = s.sys.bootState ∧ t.power.pstate = s.power.pstate

theorem stepKept.trans {u : State} (h : stepKept s t) (g : stepKept t u) : stepKept s u := ⟨g.1.trans h.1, g.2.trans h.2⟩

theorem stepKept.of {m : Nat} (h : Evolves m s t) (sys : m.testBit 20 = false) (power : m.testBit 18 = false) : stepKept s t :=
  ⟨congrArg Sys.bootState (h.same .sys sys), congrArg Power.pstate (h.same .power power)⟩

theorem stepKept.ite {a b : State} {c : Prop} [Decidable c] (h : stepKept s a) (g : stepKept s b) : stepKept s (if c then a else b) := by
  split
  · exact h
  · exact g

theorem stepKept_armed (s : State) (c : Prop) [Decidable c] : stepKept s (if c then armSnapshot s 2 else s) := .ite ⟨rfl, rfl⟩ ⟨rfl, rfl⟩

theorem stepKept_nvEnter (s : State) (r : FaultRecord) : stepKept s (nvEnter s r) := by
  unfold nvEnter
  extract_lets n
  exact .ite ⟨rfl, rfl⟩ ⟨rfl, rfl⟩

theorem stepKept_ramEnter (s : State) (r : FaultRecord) : stepKept s (ramEnter s r) := by
  unfold ramEnter
  extract_lets a
  have counts : stepKept s a := .ite ⟨rfl, rfl⟩ (.of (count_evolves s pgSys 4 (m := 64) rfl .rfl) rfl rfl)
  exact counts.trans ⟨rfl, rfl⟩

theorem stepKept_ev (s : State) (p b : Nat) : stepKept s (ev s p b) := .of (ev_evolves s p b (m := 8523841) rfl .rfl) rfl rfl

theorem stepKept_count (s : State) (p k : Nat) : stepKept s (count s p k) := .of (count_evolves s p k (m := 64) rfl .rfl) rfl rfl

theorem stepKept_fault (s : State) (code page bar : Nat) {cls : Nat} (h : cls ≠ 3) (d : List Nat) : stepKept s (fault s code cls page bar d) := by
  simp only [fault, faultAt, if_neg h]
  exact (((((stepKept_ramEnter _ _).trans (stepKept_nvEnter _ _)).trans (stepKept_count _ _ _)).trans (stepKept_ev _ _ _)).trans
    (stepKept_ev _ _ _)).trans (stepKept_armed _ _)

theorem stepKept_journalLost (s : State) : stepKept s (journalLost s) :=
  (stepKept.of (m := 1) (wr_evolves s _ _ rfl .rfl) rfl rfl).trans (stepKept_fault _ _ _ _ (by decide) _)

theorem stepKept_bootJournal (s : State) : stepKept s (bootJournal s) := by
  unfold bootJournal
  split
  · exact stepKept.trans (t := { s with sys := { s.sys with memLost := false } }) ⟨rfl, rfl⟩ (stepKept_journalLost _)
  · exact .of (m := 1) (wrf_evolves s _ _ _ _ rfl .rfl) rfl rfl

theorem stepKept_lateRecord (s : State) (f : Nat × Nat) : stepKept s (lateRecord s f) := by
  unfold lateRecord
  split
  · exact ((stepKept_ev _ _ _).trans (stepKept_ev _ _ _)).trans (stepKept_fault _ _ _ _ (by decide) _)
  · extract_lets trip base r a own b c
    have entered : stepKept s a := (stepKept_ramEnter _ _).trans (stepKept_nvEnter _ _)
    have numbered : stepKept a b := ⟨rfl, rfl⟩
    have told : stepKept b c := ((stepKept_count _ _ _).trans (stepKept_ev _ _ _)).trans (stepKept_ev _ _ _)
    exact ((entered.trans numbered).trans told).trans (stepKept_armed _ _)

theorem stepKept_setRole (s : State) (r : Nat) : stepKept s (setRole s r) := .of (m := 8438080) (setRole_evolves s r rfl .rfl) rfl rfl

/-! ### Ready (R477) -/

theorem pstate_bootPage (s : State) (p : Nat) : (bootPage s p).power.pstate = s.power.pstate := by
  unfold bootPage
  extract_lets cam u
  have wrote : u.power = s.power := (ctrlWrite_evolves s p _ _ (m := 12318529) rfl .rfl).same .power rfl
  have clocked : (clockOn u p).power.pstate = u.power.pstate := by
    unfold clockOn
    extract_lets v
    split <;> rfl
  split
  · exact clocked.trans (congrArg Power.pstate wrote)
  · exact congrArg Power.pstate wrote

/-- The unit once its pages hold the boot configuration: the role is taken and the logs are read. -/
def roleTaken (s : State) : State := if pairMode s then setRole s 1 else ptcSource s

def logsRead (s : State) : State := if (readLog s).sys.cause = 0 then copyLog (readLog s) else readLog s

/-- The journal and the late faults are recorded. -/
def lateRecorded (s : State) : State :=
  s.sys.lateFaults.foldl lateRecord { bootJournal s with sys := { (bootJournal s).sys with lateFaults := [] } }

/-- What follows once every page holds the boot configuration. -/
def becomesReady (s : State) : State :=
  pmbSend (slowSync (ev (bootTime (lateRecorded (logsRead (roleTaken
    { s with sys := { s.sys with bootState := 5, wdStop := false } })))) pgSys 12)) pmbVoutMode

theorem bootReady_eq (s : State) : bootReady s = becomesReady (headerPages.foldl bootPage s) := rfl

theorem stepKept_roleTaken (s : State) : stepKept s (roleTaken s) :=
  .ite (stepKept_setRole s 1) (.of (m := 256) (ptcSource_evolves s rfl .rfl) rfl rfl)

theorem stepKept_logsRead (s : State) : stepKept s (logsRead s) := by
  have reads : stepKept s (readLog s) := by
    have counts (u : State) (n : Nat) : stepKept u (countN u pgSys 6 n) := .of (m := 64) (countN_evolves u _ _ _ rfl .rfl) rfl rfl
    unfold readLog
    extract_lets n place good own
    refine stepKept.trans ?_ (counts _ _)
    exact ⟨rfl, rfl⟩
  exact .ite (reads.trans ⟨rfl, rfl⟩) reads

theorem stepKept_lateRecorded (s : State) : stepKept s (lateRecorded s) := by
  unfold lateRecorded
  refine foldl_kept (stepKept s) (fun u f _ kept => kept.trans (stepKept_lateRecord u f)) ?_
  exact (stepKept_bootJournal s).trans ⟨rfl, rfl⟩

theorem evPend_pmbSend (s : State) (cmd : Nat) : evPend (pmbSend s cmd) pgSys = evPend s pgSys := by
  rw [evPend, pmbSend, (send_evolves _ _ (m := 8388608) rfl .rfl).rd_eq rfl, rd_wrf_other _ _ _ _ (by decide), ← evPend]

theorem becomesReady_ready (s : State) : (becomesReady s).sys.bootState = 5 ∧ (becomesReady s).power.pstate = s.power.pstate ∧
    (evPend (becomesReady s) pgSys).testBit 12 = true := by
  unfold becomesReady
  have start : ({ s with sys := { s.sys with bootState := 5, wdStop := false } } : State).sys.bootState = 5 := rfl
  have same : ({ s with sys := { s.sys with bootState := 5, wdStop := false } } : State).power = s.power := rfl
  generalize ({ s with sys := { s.sys with bootState := 5, wdStop := false } } : State) = u at start same
  have told : stepKept u (lateRecorded (logsRead (roleTaken u))) :=
    ((stepKept_roleTaken _).trans (stepKept_logsRead _)).trans (stepKept_lateRecorded _)
  generalize lateRecorded (logsRead (roleTaken u)) = v at told
  have timed : stepKept v (bootTime v) := .of (m := 4194305) (bootTime_evolves v rfl .rfl) rfl rfl
  have raised := testBit_evPend_raised (bootTime v) pgSys (b := 12) (by decide)
  generalize bootTime v = w at timed raised
  have sync : Evolves 8396864 (ev w pgSys 12) (slowSync (ev w pgSys 12)) := slowSync_evolves _ rfl .rfl
  have asked (x : State) : stepKept x (pmbSend x pmbVoutMode) := .of (m := 8388609) (pmbSend_evolves x _ rfl .rfl) rfl rfl
  obtain ⟨state, power⟩ := (((told.trans timed).trans (stepKept_ev _ pgSys 12)).trans (.of sync rfl rfl)).trans (asked _)
  refine ⟨state.trans start, power.trans (congrArg Power.pstate same), ?_⟩
  rw [evPend_pmbSend, evPend, sync.rd_eq rfl]
  exact raised

/-- A unit that becomes Ready is at its last boot step, in the power state that it had, with READY raised. -/
theorem bootReady_ready (s : State) : (bootReady s).sys.bootState = 5 ∧ (bootReady s).power.pstate = s.power.pstate ∧
    (evPend (bootReady s) pgSys).testBit 12 = true := by
  have pages : (headerPages.foldl bootPage s).power.pstate = s.power.pstate :=
    foldl_kept (fun u => u.power.pstate = s.power.pstate) (fun u p _ kept => (pstate_bootPage u p).trans kept) rfl
  obtain ⟨state, power, event⟩ := becomesReady_ready (headerPages.foldl bootPage s)
  rw [bootReady_eq]
  exact ⟨state, power.trans pages, event⟩

/-! ### Doze and Deep (R420, R421, R423) -/

/-- Image memory in self-refresh and the lanes asked to idle. -/
theorem asleep_leaves (s : State) : (∀ k, k < 8 → subState (idleLanes (selfRefresh s)) k = 2) ∧ (idleLanes (selfRefresh s)).dram.mem = s.dram.mem ∧ (idleLanes (selfRefresh s)).host = s.host ∧
    ∀ j, j < 128 → counter (idleLanes (selfRefresh s)) pgClk j = counter s pgClk j := by
  have refreshed : Evolves 8390657 s (selfRefresh s) := selfRefresh_evolves s rfl .rfl
  obtain ⟨regs, dram, host, -, counts⟩ := idleLanes_leaves (selfRefresh s)
  refine ⟨fun k hk => ?_, ?_, host.trans (refreshed.same .host rfl), fun j hj => (counts j hj).trans (refreshed.counter_eq rfl pgClk j)⟩
  · refine Eq.trans (subState_of_word ?_) (subState_selfRefresh s hk)
    rw [rd, regs, rd]
  · rw [dram, (selfRefresh_leaves s).1]

/-- Doze entered: the panel's sink is powered down, and the power state is taken and counted. -/
def dozeEntered (s : State) : State :=
  let u := idleLanes (selfRefresh s)
  let v := { u with disp := { u.disp with state := if u.disp.state = 0 then 0 else 4 } }
  count (setPower v { v.power with pstate := 3, camPll := false }) pgClk 0

def deepEntered (s : State) : State :=
  let v := { s with host := { s.host with sessions := [], rx := [] } }
  let u := idleLanes (selfRefresh v)
  let edges := u.dram.subs.flatMap (fun d => d.2.edges.map (fun e => (16 * d.1 + e.1, e.2)))
  count (setPower u { u.power with pstate := 5, resume := true, resumeEdges := edges, camPll := false }) pgClk 2

theorem exec_pstateDoze (rq : Requester) (open_ : admitted s (clkA 0x40) 2) : exec (.pstateDoze rq) s = .next (if dozing s then s
    else if powerRefused s false then refuse s pgClk
    else dozeEntered s) :=
  congrArg Host.Outcome.next (gated_of_admitted open_ _)

theorem exec_pstateDeep (rq : Requester) (open_ : admitted s (clkA 0x40) 3) : exec (.pstateDeep rq) s = .next (if dozing s then s
    else if powerRefused s true then refuse s pgClk
    else deepEntered s) :=
  congrArg Host.Outcome.next (gated_of_admitted open_ _)

/-- A power state taken with the unit asleep: what the count of it leaves. -/
theorem powerCounted_leaves (s : State) (p : Power) (k : Nat) :
    (count (setPower s p) pgClk k).power = p ∧ (∀ j, subState (count (setPower s p) pgClk k) j = subState s j) ∧
      (count (setPower s p) pgClk k).dram = s.dram ∧ (count (setPower s p) pgClk k).host = s.host ∧
      counted s (count (setPower s p) pgClk k) pgClk k := by
  have counts : Evolves 64 (setPower s p) (count (setPower s p) pgClk k) := count_evolves _ pgClk k rfl .rfl
  exact ⟨counts.same .power rfl, fun j => subState_of_word (counts.rd_eq rfl _), counts.same .dram rfl, counts.same .host rfl,
    counted_count (setPower s p) pgClk k⟩

/-- A unit asleep that takes a power state and counts it. -/
theorem powerTaken {u t v : State} {p : Power} {k : Nat} (ends : t = count (setPower v p) pgClk k) (hk : k < 128) (sleeps : v.regs = (idleLanes (selfRefresh u)).regs)
    (counts : v.counters = (idleLanes (selfRefresh u)).counters) (dram : v.dram = (idleLanes (selfRefresh u)).dram) (host : v.host = (idleLanes (selfRefresh u)).host) :
    t.power = p ∧ (∀ k, k < 8 → subState t k = 2) ∧ counted u t pgClk k ∧ t.dram.mem = u.dram.mem ∧ t.host = u.host := by
  obtain ⟨subs, mem, host', counts'⟩ := asleep_leaves u
  obtain ⟨power, subs', dram', host'', counted'⟩ := powerCounted_leaves v p k
  rw [ends]
  refine ⟨power, fun j hj => (subs' j).trans (Eq.trans (subState_of_word ?_) (subs j hj)), ?_, ?_, host''.trans (host.trans host')⟩
  · rw [rd, sleeps, rd]
  · have before : counter v pgClk k = counter u pgClk k := Eq.trans (by rw [counter, counts, counter]) (counts' k hk)
    rw [counted] at counted' ⊢
    rw [counted', before]
  · rw [dram', dram, mem]

theorem dozeEntered_leaves (s : State) : (dozeEntered s).power.pstate = 3 ∧ (dozeEntered s).power.camPll = false ∧
    (∀ k, k < 8 → subState (dozeEntered s) k = 2) ∧ counted s (dozeEntered s) pgClk 0 ∧ (dozeEntered s).dram.mem = s.dram.mem ∧
      (dozeEntered s).host = s.host := by
  have ends : ∃ d p, dozeEntered s = count (setPower { idleLanes (selfRefresh s) with disp := d } p) pgClk 0 ∧ p.pstate = 3 ∧ p.camPll = false :=
    ⟨_, _, rfl, rfl, rfl⟩
  have beside (u : State) (d : Disp) : ({ u with disp := d } : State).regs = u.regs ∧ ({ u with disp := d } : State).counters = u.counters ∧
      ({ u with disp := d } : State).dram = u.dram ∧ ({ u with disp := d } : State).host = u.host := ⟨rfl, rfl, rfl, rfl⟩
  obtain ⟨d, p, ends, state, pll⟩ := ends
  obtain ⟨regs, counts, dram, host⟩ := beside (idleLanes (selfRefresh s)) d
  obtain ⟨power, rest⟩ := powerTaken ends (by decide) regs counts dram host
  rw [power]
  exact ⟨state, pll, rest⟩

theorem deepEntered_leaves (s : State) : (deepEntered s).power.pstate = 5 ∧ (deepEntered s).power.camPll = false ∧ (deepEntered s).power.resume = true ∧
    (∀ k, k < 8 → subState (deepEntered s) k = 2) ∧ counted s (deepEntered s) pgClk 2 ∧ (deepEntered s).dram.mem = s.dram.mem ∧
      (deepEntered s).host = { s.host with sessions := [], rx := [] } := by
  have ends : ∃ v p, deepEntered s = count (setPower v p) pgClk 2 ∧ p.pstate = 5 ∧ p.camPll = false ∧ p.resume = true ∧
      v = idleLanes (selfRefresh { s with host := { s.host with sessions := [], rx := [] } }) := ⟨_, _, rfl, rfl, rfl, rfl, rfl⟩
  obtain ⟨v, p, ends, state, pll, resume, closed⟩ := ends
  rw [closed] at ends
  obtain ⟨power, rest⟩ := powerTaken ends (by decide) rfl rfl rfl rfl
  rw [power]
  exact ⟨state, pll, resume, rest⟩

/-! ### Waking from Doze (R422, R425) -/

/-- The journal, and the writes of the PCIe function that wait for a wake. -/
def hostKept (s : State) : Tab JEntry × List (Nat × Word × BitVec 4) := (s.host.journal, s.host.heldWrites)

theorem hostKept_of {m : Nat} (h : Evolves m s t) (host : m.testBit 12 = false) : hostKept t = hostKept s := by
  rw [hostKept, h.same .host host, hostKept]

theorem hostKept_sendEvents (s : State) : hostKept (sendEvents s) = hostKept s := by
  have one (u : State) (n : Nat) : hostKept (sendEvent u n) = hostKept u := by
    unfold sendEvent
    extract_lets ss num m
    split
    · exact (hostKept_of (count_evolves _ _ _ (m := 64) rfl .rfl) rfl).trans rfl
    · rfl
  unfold sendEvents
  split
  · exact foldl_keeps hostKept (fun u i => one u (i + 1)) _ s
  · rfl

theorem hostKept_signalMsix (s : State) : hostKept (signalMsix s) = hostKept s := by
  have held (u : State) (v : Nat) : hostKept (msix u v) = hostKept u := by
    unfold msix
    split <;> rfl
  unfold signalMsix
  extract_lets v
  split
  · exact held _ _
  · exact (hostKept_of (count_evolves _ _ _ (m := 64) rfl .rfl) rfl).trans (held _ _)

/-- An event is told to the host's sessions and by MSI-X, and touches no other part of its link. -/
theorem hostKept_ev (s : State) (p b : Nat) : hostKept (ev s p b) = hostKept s := by
  have flag (u : State) (g : Nat) : hostKept (setFlag u g) = hostKept u := by
    unfold setFlag
    refine ite_keeps hostKept (fun _ => rfl) fun _ => ?_
    have pin (v : State) : hostKept (hostPin u v) = hostKept v := hostKept_of (hostPin_evolves u v (m := 8388672) rfl .rfl) rfl
    have signal (v : State) (c : Prop) [Decidable c] : hostKept (if c then signalMsix v else v) = hostKept v :=
      ite_keeps hostKept (fun _ => hostKept_signalMsix v) fun _ => rfl
    exact ite_keeps hostKept (fun _ => (hostKept_sendEvents _).trans ((signal _ _).trans ((pin _).trans rfl))) fun _ => rfl
  have presented (u : State) (src : Nat) : hostKept (notify u src) = hostKept u := by
    unfold notify
    extract_lets g
    exact ite_keeps hostKept (fun _ => ite_keeps hostKept (fun _ => flag u g) fun _ => rfl) fun _ => rfl
  exact (presented _ _).trans (hostKept_of (wr_evolves s (ra p 0x24) _ (m := 1) rfl .rfl) rfl)

theorem hostKept_fault (s : State) (code page bar : Nat) {cls : Nat} (h : cls ≠ 3) (d : List Nat) :
    hostKept (fault s code cls page bar d) = hostKept s := by
  have armed (u : State) (c : Prop) [Decidable c] : hostKept (if c then armSnapshot u 2 else u) = hostKept u := by
    split <;> rfl
  have entered (r : FaultRecord) : hostKept (count (nvEnter (ramEnter s r) r) pgSys cls) = hostKept s :=
    hostKept_of (count_evolves _ _ _ (m := 1048640) rfl (nvEnter_evolves _ _ rfl (ramEnter_evolves s r rfl .rfl))) rfl
  simp only [fault, faultAt, if_neg h, armed, hostKept_ev, entered]

theorem hostKept_dispStart (s : State) : hostKept (dispStart s) = hostKept s := by
  have fails : hostKept (linkFail s) = hostKept s := (hostKept_fault _ _ _ _ (by decide) _).trans rfl
  have trains (r : Nat) : hostKept (trainAt s r) = hostKept s := hostKept_of (trainAt_evolves s r (m := 8912960) rfl .rfl) rfl
  unfold dispStart
  split
  · split
    · exact fails
    · split
      · exact trains _
      · exact fails
  · rfl

/-- The panel is lit again after a wake, where it is there and enabled. -/
def litAgain (s : State) : State := if pgEn s pgDisp && s.disp.hpd then dispStart (setDisp s { s.disp with switching := true }) else s

theorem litAgain_leaves (s : State) : (litAgain s).power = s.power ∧ (litAgain s).dram = s.dram ∧ hostKept (litAgain s) = hostKept s ∧
    ∀ k, subState (litAgain s) k = subState s k := by
  unfold litAgain
  split
  · have started : Evolves 12252481 (setDisp s { s.disp with switching := true }) _ := dispStart_evolves _ rfl .rfl
    refine ⟨started.same .power rfl, started.same .dram rfl, (hostKept_dispStart _).trans rfl, fun k => subState_of_word (rd_dispStart _ ?_)⟩
    simp only [ra]
    omega
  · exact ⟨rfl, rfl, rfl, fun _ => rfl⟩

/-- Image memory serves again and the panel is lit. -/
def awakened (s : State) : State := litAgain (memTrained (setPower s { s.power with pstate := 1, camPll := cameraClock s }))

def writesDone (s : State) (held : List (Nat × Word × BitVec 4)) : State :=
  ev (held.foldl (fun s x => arriveWrite s .pcie x.1 x.2.1 x.2.2) { s with host := { s.host with heldWrites := [] } }) pgClk 8

theorem wakeDoze_eq (s : State) : wakeDoze s = writesDone (awakened s) (awakened s).host.heldWrites := rfl

theorem awake_leaves (s : State) : (awakened s).power.pstate = 1 ∧ hostKept (awakened s) = hostKept s ∧ (∀ k, k < 8 → subState (awakened s) k = 1) ∧
    ∀ a, a < trainBase s → memByte (awakened s).dram.mem a = memByte s.dram.mem a := by
  let u := setPower s { s.power with pstate := 1, camPll := cameraClock s }
  have trained : Evolves 12593217 u (memTrained u) := memTrained_evolves u rfl .rfl
  obtain ⟨power, dram, host, subs⟩ := litAgain_leaves (memTrained u)
  refine ⟨?_, host.trans ((hostKept_of (s := u) trained rfl).trans rfl), fun k hk => (subs k).trans (subState_memTrained u hk), fun a ha => ?_⟩
  · exact (congrArg Power.pstate (power.trans (trained.same .power rfl))).trans rfl
  · exact (congrArg (fun d => memByte d.mem a) dram).trans (memByte_memTrained u ha)

theorem wakeDoze_wakes (none_ : s.host.heldWrites = []) :
    (wakeDoze s).power.pstate = 1 ∧ (∀ k, k < 8 → subState (wakeDoze s) k = 1) ∧ (evPend (wakeDoze s) pgClk).testBit 8 = true ∧
      (∀ a, a < trainBase s → memByte (wakeDoze s).dram.mem a = memByte s.dram.mem a) ∧ (wakeDoze s).host.journal = s.host.journal := by
  obtain ⟨power, host, subs, mem⟩ := awake_leaves s
  have waiting : (awakened s).host.heldWrites = [] := (congrArg Prod.snd host).trans none_
  rw [wakeDoze_eq, waiting]
  let u : State := { awakened s with host := { (awakened s).host with heldWrites := [] } }
  have runs : writesDone (awakened s) [] = ev u pgClk 8 := rfl
  have event : Evolves 8523841 u (ev u pgClk 8) := ev_evolves _ _ _ rfl .rfl
  rw [runs]
  refine ⟨(congrArg Power.pstate (event.same .power rfl)).trans power, fun k hk => ?_, testBit_evPend_raised _ _ (by decide), fun a ha => ?_, ?_⟩
  · refine Eq.trans (subState_of_word (wordsKept_ev u pgClk 8 _ ?_)) (subs k hk)
    simp only [List.mem_singleton, ra, pgDrc, pgClk]
    omega
  · rw [event.same .dram rfl]
    exact mem a ha
  · exact (journal_ev u pgClk 8).trans (congrArg Prod.fst host)

/-! ### Waking from Deep (R426) -/

theorem pstate_volatileReset (s : State) : (volatileReset s true).power.pstate = 1 := by
  have starts : ∃ u : State, volatileReset s true = ptShowAll (flashCut s) (selfRefresh u) ∧ u.power.pstate = 1 := ⟨_, rfl, rfl⟩
  obtain ⟨u, runs, power⟩ := starts
  have slept : Evolves 8390657 u (selfRefresh u) := selfRefresh_evolves u rfl .rfl
  have shown : Evolves 8388608 (selfRefresh u) (ptShowAll (flashCut s) (selfRefresh u)) := ptShowAll_evolves _ _ rfl .rfl
  rw [runs, shown.same .power rfl, slept.same .power rfl, power]

theorem mem_restoreDelays (s : State) : (restoreDelays s).dram.mem = s.dram.mem := by
  unfold restoreDelays
  refine foldl_kept (fun u : State => u.dram.mem = s.dram.mem) (fun u k _ kept => ?_) rfl
  exact kept

/-- The unit of a Deep wake once image memory keeps what it held and serves again. -/
def resumed (s : State) : State := memTrained { restoreDelays (volatileReset s true) with out := s.out }

theorem wakeDeep_eq (s : State) : wakeDeep s = ev (bootReady (resumed s)) pgClk 8 := rfl

theorem resumed_leaves (s : State) : (resumed s).power.pstate = 1 ∧
    ∀ a, a < 2 ^ 34 - 2 ^ 18 → memByte (resumed s).dram.mem a = memByte s.dram.mem a := by
  have power : (restoreDelays (volatileReset s true)).power = (volatileReset s true).power :=
    (restoreDelays_evolves _ (m := 2048) rfl .rfl).same .power rfl
  have mem := (mem_restoreDelays (volatileReset s true)).trans (volatileReset_keeps s).1
  have pstate := (congrArg Power.pstate power).trans (pstate_volatileReset s)
  unfold resumed
  generalize restoreDelays (volatileReset s true) = t at mem pstate
  have trained : Evolves 12593217 { t with out := s.out } (memTrained { t with out := s.out }) := memTrained_evolves _ rfl .rfl
  refine ⟨(congrArg Power.pstate (trained.same .power rfl)).trans pstate, fun a ha => ?_⟩
  have base := trainBase_ge { t with out := s.out }
  exact (memByte_memTrained _ (Nat.lt_of_lt_of_le ha base)).trans (congrArg (memByte · a) mem)

/-- A Deep wake with a sound record makes the unit Ready, with image memory below every training area as it was. -/
theorem wakeDeep_wakes (s : State) :
    (wakeDeep s).sys.bootState = 5 ∧ (wakeDeep s).power.pstate = 1 ∧ (evPend (wakeDeep s) pgClk).testBit 8 = true ∧
      ∀ a, a < 2 ^ 34 - 2 ^ 18 → memByte (wakeDeep s).dram.mem a = memByte s.dram.mem a := by
  obtain ⟨pstate, mem⟩ := resumed_leaves s
  rw [wakeDeep_eq]
  generalize resumed s = u at pstate mem
  obtain ⟨state, power, -⟩ := bootReady_ready u
  have event : Evolves 8523841 (bootReady u) (ev (bootReady u) pgClk 8) := ev_evolves _ _ _ rfl .rfl
  refine ⟨?_, ?_, testBit_evPend_raised _ _ (by decide), fun a ha => ?_⟩
  · rw [event.same .sys rfl, state]
  · rw [event.same .power rfl, power, pstate]
  · rw [event.same .dram rfl, dram_bootReady, mem a ha]

/-- A cold wake boots, with image memory as it was, to record WAKE_COLD. -/
theorem wakeCold_wakes (s : State) :
    (wakeCold s).sys.bootState = 0 ∧ (wakeCold s).sys.cause = 5 ∧ rd (wakeCold s) (ra pgSys 0x50) = 5 ∧ (0x0C02, 0) ∈ (wakeCold s).sys.lateFaults ∧
      (wakeCold s).dram.mem = s.dram.mem := by
  have mem := (volatileReset_keeps s).1
  unfold wakeCold
  dsimp only
  generalize volatileReset s true = t at mem
  exact ⟨rfl, rfl, (rd_startBoot _ _ _ _).trans (rd_wr_same _ _ _), List.mem_append_right _ (List.mem_singleton.2 rfl), mem⟩

/-! ### The crystal and the camera PLL (R418, R428) -/

theorem exec_xtalFail (crystal : s.power.rc = false) :
    exec .xtalFail s = .next (fault (ev (setPower s { s.power with rc := true }) pgClk 10) 0x0C01 1 pgClk noBar []) := by
  rw [show exec .xtalFail s = execXtalFail s from rfl, execXtalFail, if_neg (by rw [crystal]; decide)]

/-- The clocks of the camera pages stop, and no other word changes. -/
theorem cameraStops (s : State) (p : Nat) (low : 0xB0 ≤ p) (high : p ≤ 0xB4) :
    rdb ([0xB0, 0xB1, 0xB2, 0xB3, 0xB4].foldl (fun s p => wrf s (ra p 0x14) 1 1 0) s) (ra p 0x14) 1 = false := by
  have cleared (u : State) (q : Nat) : rdb (wrf u (ra q 0x14) 1 1 0) (ra q 0x14) 1 = false := rdb_wrf_same u _ 1 0 (by decide)
  refine foldl_establishes (P := fun p u => rdb u (ra p 0x14) 1 = false) (fun u q _ => cleared u q) (fun u q _ r stopped => ?_) s p ?_
  · by_cases same : r = q
    · rw [same]
      exact cleared u q
    · rw [rdb, rd_wrf_other _ _ _ _ (by simp only [ra]; omega), ← rdb]
      exact stopped
  · interval_cases p <;> decide

end Sys2Proof.Machine

namespace Sys2Proof.Proofs
open Sys2Proof Sys2Proof.Machine

/-- Requests for Doze and Deep (R420, R421, R423). -/
theorem powerRequests (s : State) (rq : Requester) (deep : Bool) (open_ : admitted s (clkA 0x40) (if deep then 3 else 2)) :
    let c : Instr := if deep then .pstateDeep rq else .pstateDoze rq
    (2 ≤ s.power.pstate → exec c s = .next s) ∧
    (s.power.pstate < 2 → powerRefused s deep = true →
      completes c s (fun t => raised s t pgClk 4 ∧ wordsKept [clkA 0x24] s t ∧ onlyChanges eventParts s t)) ∧
    (s.power.pstate < 2 → powerRefused s deep = false →
      completes c s (fun t =>
        t.power.pstate = (if deep then 5 else 3) ∧ t.power.camPll = false ∧ (∀ k, k < 8 → subState t k = 2) ∧
          counted s t pgClk (if deep then 2 else 0) ∧ t.dram.mem = s.dram.mem ∧
          (deep = true → t.host.sessions = [] ∧ t.power.resume = true) ∧ t.host.journal = s.host.journal)) := by
  have sleeps : dozing s = decide (2 ≤ s.power.pstate) := rfl
  intro c
  have runs : exec c s = .next (if dozing s then s
      else if powerRefused s deep then refuse s pgClk else if deep then deepEntered s else dozeEntered s) := by
    cases deep
    · exact exec_pstateDoze rq open_
    · exact exec_pstateDeep rq open_
  refine ⟨fun low => ?_, fun up refused => ?_, fun up granted => ?_⟩
  · exact runs.trans (congrArg _ (if_pos (by rw [sleeps]; exact decide_eq_true low)))
  all_goals rw [if_neg (c := dozing s = true) (by rw [sleeps]; simpa using up)] at runs
  · rw [if_pos refused] at runs
    exact ⟨_, runs, refuse_leaves s (by decide)⟩
  · rw [if_neg (by rw [granted]; decide)] at runs
    refine ⟨_, runs, ?_⟩
    cases deep
    · obtain ⟨state, pll, subs, counts, mem, host⟩ := dozeEntered_leaves s
      exact ⟨state, pll, subs, counts, mem, fun none => absurd none (by decide), congrArg HostSide.journal host⟩
    · obtain ⟨state, pll, resume, subs, counts, mem, host⟩ := deepEntered_leaves s
      exact ⟨state, pll, subs, counts, mem, fun _ => ⟨(congrArg HostSide.sessions host).trans rfl, resume⟩, (congrArg HostSide.journal host).trans rfl⟩

/-- WAKE (R424, R425). -/
theorem wakes (s : State) (cause pin : Nat) :
    (s.power.pstate = 4 → wakeEnabled s cause pin = true →
      completes (.wake cause pin) s (fun t => counted s t pgClk 1 ∧ onlyChanges [.counters] s t)) ∧
    ((s.power.pstate = 3 ∨ s.power.pstate = 5) → wakeEnabled s cause pin = true →
      completes (.wake cause pin) s (fun t =>
        t.power = { s.power with pstate := 4, waking := decide (s.power.pstate = 5) } ∧
          rdf t (clkA 0x50) 3 0 = cause % 16 ∧ wordsKept [clkA 0x50] s t ∧ onlyChanges [.regs, .power] s t)) ∧
    ((s.power.pstate < 3 ∨ wakeEnabled s cause pin = false) → exec (.wake cause pin) s = .next s) := by
  have runs : exec (.wake cause pin) s = .next (if s.power.pstate == 4 then (if wakeEnabled s cause pin then count s pgClk 1 else s)
      else if (s.power.pstate == 3 || s.power.pstate == 5) && wakeEnabled s cause pin then
        setPower (wr s (clkA 0x50) (cause + (if cause = 1 then 16 * (pin % 4) else 0)))
          { s.power with pstate := 4, waking := s.power.pstate == 5 }
      else s) := rfl
  refine ⟨fun wakes enabled => ?_, fun sleeps enabled => ?_, fun none => ?_⟩
  · rw [if_pos (by rw [wakes]; decide), if_pos enabled] at runs
    exact ⟨_, runs, counted_count s pgClk 1, (count_evolves s pgClk 1 (m := 64) rfl .rfl).only (by decide)⟩
  · rw [if_neg (by rcases sleeps with h | h <;> rw [h] <;> decide), if_pos (by rw [enabled]; rcases sleeps with h | h <;> rw [h] <;> decide)] at runs
    have frame : Evolves 262145 s (setPower (wr s (clkA 0x50) (cause + (if cause = 1 then 16 * (pin % 4) else 0)))
        { s.power with pstate := 4, waking := s.power.pstate == 5 }) := setPower_evolves _ _ rfl (wr_evolves _ _ _ rfl .rfl)
    refine ⟨_, runs, ?_, ?_, wordsKept_wr s _ _, frame.only (by decide)⟩
    · exact congrArg (fun b => { s.power with pstate := 4, waking := b }) (beq_eq_decide s.power.pstate 5)
    · have word : rd (wr s (clkA 0x50) (cause + (if cause = 1 then 16 * (pin % 4) else 0))) (clkA 0x50) =
          (cause + (if cause = 1 then 16 * (pin % 4) else 0)) % 2 ^ 32 := rd_wr_same _ _ _
      have shown : field ((cause + (if cause = 1 then 16 * (pin % 4) else 0)) % 2 ^ 32) 3 0 = cause % 16 := by
        unfold field
        split <;> omega
      exact (congrArg (field · 3 0) word).trans shown
  · refine runs.trans (congrArg _ ?_)
    by_cases four : s.power.pstate = 4
    · rw [if_pos (by rw [four]; decide)]
      refine if_neg fun enabled => ?_
      rcases none with low | off
      · omega
      · exact absurd (enabled.symm.trans off) (by decide)
    · rw [if_neg (by simpa using four)]
      refine if_neg fun both => ?_
      simp only [Bool.and_eq_true, Bool.or_eq_true, beq_iff_eq] at both
      obtain ⟨sleeps, enabled⟩ := both
      rcases none with low | off
      · omega
      · exact absurd (enabled.symm.trans off) (by decide)

/-- Settles O54: Doze, Deep, the wake from them and the clocks (R418, R420 to R426, R428). -/
theorem powerStates : Obligations.PowerStates := by
  unfold Obligations.PowerStates
  refine ⟨powerRequests, wakes, fun s ok => ?_, fun s => ?_⟩
  · have runs : exec (.wakeDone ok) s = .next (if s.power.pstate ≠ 4 then s
        else if s.power.waking = false then wakeDoze s
        else if ok && s.power.resume then wakeDeep s else wakeCold s) := rfl
    refine ⟨fun other => runs.trans (congrArg _ (if_pos other)), fun waits doze none_ => ?_, fun waits deep sound => ?_, fun waits deep cold => ?_⟩
    all_goals rw [if_neg (not_not.2 waits)] at runs
    · rw [if_pos doze] at runs
      obtain ⟨power, subs, event, mem, journal⟩ := wakeDoze_wakes none_
      exact ⟨_, runs, power, subs, event, fun a _ ha => mem a ha, journal⟩
    · rw [if_neg (by rw [deep]; decide), if_pos sound] at runs
      obtain ⟨state, power, event, mem⟩ := wakeDeep_wakes s
      exact ⟨_, runs, state, power, event, fun a _ ha => mem a ha⟩
    · rw [if_neg (by rw [deep]; decide), if_neg (by rw [cold]; decide)] at runs
      exact ⟨_, runs, wakeCold_wakes s⟩
  · refine ⟨fun rc => ?_, fun crystal => ⟨_, exec_xtalFail crystal, ?_, ?_, ?_⟩, ⟨_, rfl, rfl, ?_⟩, fun clocked => ?_, fun idle => ?_⟩
    · exact congrArg Host.Outcome.next (if_pos rc)
    · have event : Evolves 8523841 (setPower s { s.power with rc := true }) (ev (setPower s { s.power with rc := true }) pgClk 10) :=
        ev_evolves _ _ _ rfl .rfl
      rw [(fault_below_D _ _ _ _ (by decide) _).same .power rfl, event.same .power rfl]
      rfl
    · exact testBit_evPend_fault (testBit_evPend_raised _ _ (by decide)) _ _ _ (by decide) _
    · exact recorded_of_keepsLog (.of (m := 8785985) (ev_evolves _ _ _ rfl (setPower_evolves _ _ rfl .rfl)) rfl) (recorded_fault ..)
    · exact (setPower_evolves s _ (m := 262144) rfl .rfl).only (by decide)
    · exact congrArg Host.Outcome.next (if_pos clocked)
    · have frame : Evolves 262145 s (setPower ([0xB0, 0xB1, 0xB2, 0xB3, 0xB4].foldl (fun s p => wrf s (ra p 0x14) 1 1 0) s)
          { s.power with camPll := false }) :=
        setPower_evolves _ _ rfl (Evolves.rfl.foldl fun _ _ h => wrf_evolves _ _ _ _ _ rfl h)
      have word (u : State) (q : Power) (a : Nat) : rdb (setPower u q) a 1 = rdb u a 1 := rfl
      refine ⟨_, congrArg Host.Outcome.next (if_neg (by rw [idle]; decide)), rfl, fun p low high => ?_, frame.only (by decide)⟩
      rw [word]
      exact cameraStops s p low high

end Sys2Proof.Proofs
end

section
/-! PROOFS. Faults of every class, and the temperatures of the unit (R434, R435, R438 to R440). -/

namespace Sys2Proof.Machine
open Sys2Proof

variable {s t : State}

/-! ### What recording a fault of class D leaves -/

/-- A fault of class D entered in the logs and counted. -/
def enteredD (s : State) (r : FaultRecord) : State := count (nvEnter (ramEnter s r) r) pgSys 3

/-- A fault of class D once it is told, before the unit stops. -/
def recordedD (s : State) (page : Nat) (r : FaultRecord) : State :=
  let u := ev (ev (enteredD s r) pgSys 11) page 3
  if rdb u (ra pgRime 0x40) 3 then armSnapshot u 2 else u

theorem fault_D (s : State) (code page bar : Nat) (d : List Nat) :
    fault s code 3 page bar d = stopUnit (recordedD s page (faultRecord s code 3 page bar d none)) code := by
  have low : decide (2 ≤ 3) = true := rfl
  unfold fault faultAt
  rw [if_pos rfl]
  simp only [low, Bool.true_and]
  rfl

section LowPages
variable {p k : Nat} (low : p < 0x70) (h : k < 128)
include low h

/-- The pages of the pair's lanes and of the links lie above those of the unit's own blocks. -/
theorem counter_pairPut_low (s : State) (l type flags q : Nat) (body : List Byte) :
    counter (pairPut s l type flags q body) p k = counter s p k := by
  rw [pairPut, counter_count, if_neg (by simp only [pgPair]; omega), counter_count, if_neg (by simp only [pgPrl]; omega)]
  rfl

theorem counter_pairSendOn_low (s : State) (ls : List Nat) (type flags : Nat) (b : List Byte) :
    counter (pairSendOn s ls type flags b) p k = counter s p k := by
  unfold pairSendOn
  exact foldl_kept (fun v => counter v p k = counter s p k) (fun v l _ kept => (counter_pairPut_low low h v l _ _ _ b).trans kept) rfl

theorem counter_pairSendSeq_low (s : State) (type flags : Nat) (b : List Byte) : counter (pairSendSeq s type flags b) p k = counter s p k := by
  unfold pairSendSeq
  exact foldl_kept (fun v => counter v p k = counter s p k) (fun v c _ kept => (counter_pairSendOn_low low h v _ _ _ c).trans kept) rfl

theorem counter_setRole_low (s : State) (r : Nat) : counter (setRole s r) p k = counter s p k := by
  let u : State := { s with pair := { s.pair with role := r }
                            cams := { s.cams with noCamera := s.cams.noCamera && (r == 0 || r == 3) } }
  have shown : counter (gpioShow s (ptcSource u)) p k = counter s p k :=
    (gpioShow_evolves (m := 8388864) _ _ rfl (ptcSource_evolves u rfl .rfl)).counter_eq rfl _ _
  change counter (if pairMode (gpioShow s (ptcSource u)) then
    pairSendSeq (gpioShow s (ptcSource u)) 0x01 0 (helloBody (gpioShow s (ptcSource u))) else gpioShow s (ptcSource u)) p k = _
  split
  · rw [counter_pairSendSeq_low low h, shown]
  · exact shown

theorem counter_slowSync (s : State) : counter (slowSync s) p k = counter s p k := by
  have resent (u : State) : counter (ioResend u) p k = counter u p k := by
    unfold ioResend
    exact foldl_kept (fun v => counter v p k = counter u p k)
      (fun v l _ kept => (counter_flnSend v l _ _ _ (by simp only [pgFln]; omega)).trans kept) rfl
  unfold slowSync
  split
  · rfl
  · exact (resent _).trans rfl

theorem counter_stopUnit (s : State) (code : Nat) : counter (stopUnit s code) p k = counter s p k := by
  have told (u : State) (c : Prop) [Decidable c] : counter (if c then pairSendOn u (pairLanes u) 0x30 0 [] else u) p k = counter u p k :=
    ite_keeps (counter · p k) (fun _ => counter_pairSendOn_low low h _ _ _ _ _) (fun _ => rfl)
  have held (u : State) (c : Prop) [Decidable c] (b : Bool) :
      counter (if c then u else ptShowAll u { u with sys := { u.sys with stopped := b } }) p k = counter u p k :=
    ite_keeps (counter · p k) (fun _ => rfl) (fun _ => ((ptShowAll_evolves u _ (m := 8388608) rfl .rfl).counter_eq rfl p k).trans rfl)
  have demoted (u : State) (c : Prop) [Decidable c] : counter (if c then u else setRole u 6) p k = counter u p k :=
    ite_keeps (counter · p k) (fun _ => rfl) (fun _ => counter_setRole_low low h _ _)
  have stopped (u : State) (bs : List Nat) : counter (stopBars u bs) p k = counter u p k :=
    (stopBars_evolves u bs (m := 1024) rfl .rfl).counter_eq rfl p k
  unfold stopUnit
  extract_lets a b own c e
  exact (counter_slowSync low h e).trans ((demoted c _).trans ((held b _ _).trans ((stopped a _).trans (told s _))))

end LowPages

theorem enteredD_leaves (s : State) (r : FaultRecord) : Evolves 1048640 s (enteredD s r) ∧
    ∀ q j, q ≠ pgSys → j < 128 → counter (enteredD s r) q j = counter s q j := by
  refine ⟨count_evolves _ _ _ rfl (nvEnter_evolves _ _ rfl (ramEnter_evolves s r rfl .rfl)), fun q j sys hj => ?_⟩
  rw [enteredD, counter_count, if_neg (by simp only [pgSys] at sys ⊢; omega),
    (nvEnter_evolves (m := 1048576) (ramEnter s r) r rfl .rfl).counter_eq rfl]
  refine Eq.trans (b := counter (if s.sys.ramLog.length < 1024 then s else count s pgSys 4) q j) rfl ?_
  split
  · rfl
  · rw [counter_count, if_neg (by simp only [pgSys] at sys ⊢; omega)]

/-- A record of class D sets event bits of SYS and of its page; other words, the counters of the blocks and power stay. -/
theorem recordedD_leaves (s : State) (page : Nat) (r : FaultRecord) :
    (∀ a, a ≠ ra pgSys 0x24 → a ≠ ra page 0x24 → rd (recordedD s page r) a = rd s a) ∧
      (∀ q j, q ≠ pgSys → q ≠ pgEvc → j < 128 → counter (recordedD s page r) q j = counter s q j) ∧
      (∀ p i, (evPend s p).testBit i = true → (evPend (recordedD s page r) p).testBit i = true) ∧
      (recordedD s page r).power = s.power ∧ (recordedD s page r).print = s.print := by
  obtain ⟨entered, counts⟩ := enteredD_leaves s r
  have armed (u : State) (c : Prop) [Decidable c] : (if c then armSnapshot u 2 else u).regs = u.regs ∧
      (if c then armSnapshot u 2 else u).counters = u.counters ∧ (if c then armSnapshot u 2 else u).power = u.power ∧
      (if c then armSnapshot u 2 else u).print = u.print := by
    split <;> exact ⟨rfl, rfl, rfl, rfl⟩
  have told : Evolves 9572417 s (ev (ev (enteredD s r) pgSys 11) page 3) := ev_evolves _ _ _ rfl (ev_evolves _ _ _ rfl (entered.mono rfl))
  obtain ⟨regs, counters, power, print⟩ := armed (ev (ev (enteredD s r) pgSys 11) page 3)
    (rdb (ev (ev (enteredD s r) pgSys 11) page 3) (ra pgRime 0x40) 3 = true)
  refine ⟨fun a sys own => ?_, fun q j sys evc hj => ?_, fun p i bit => ?_, power.trans (told.same .power rfl), print.trans (told.same .print rfl)⟩
  · rw [recordedD, rd, regs, ← rd, rd_ev, if_neg own, rd_ev, if_neg sys, entered.rd_eq rfl]
  · rw [recordedD, counter, counters, ← counter, counter_ev evc hj, counter_ev evc hj, counts q j sys hj]
  · rw [recordedD, evPend_of_regs regs]
    refine testBit_evPend_ev (testBit_evPend_ev ?_ _ _) _ _
    rw [evPend_of_regs (entered.same .regs rfl)]
    exact bit

/-- What a fault of any class leaves of the pages below the links: words but for EV_PEND, and counters. -/
theorem fault_leaves (s : State) (code cls page bar : Nat) (hc : cls < 4) (d : List Nat) :
    (∀ a, a ≠ ra pgSys 0x24 → a ≠ ra page 0x24 → rd (fault s code cls page bar d) a = rd s a) ∧
      (∀ q j, q ≠ pgSys → q ≠ pgEvc → q < 0x70 → j < 128 → counter (fault s code cls page bar d) q j = counter s q j) ∧
      (∀ p i, (evPend s p).testBit i = true → (evPend (fault s code cls page bar d) p).testBit i = true) ∧
      (fault s code cls page bar d).power = s.power := by
  have power := (fault_evolves s code cls page bar d (m := 11728193) rfl .rfl).same .power rfl
  by_cases worst : cls = 3
  · subst worst
    obtain ⟨words, counts, bits, -⟩ := recordedD_leaves s page (faultRecord s code 3 page bar d none)
    have stops : Evolves 9495872 (recordedD s page (faultRecord s code 3 page bar d none)) _ := stopUnit_evolves _ code rfl .rfl
    rw [fault_D] at power ⊢
    refine ⟨fun a sys own => (stops.rd_eq rfl a).trans (words a sys own),
      fun q j sys evc low hj => (counter_stopUnit low hj _ _).trans (counts q j sys evc hj), fun p i bit => ?_, power⟩
    rw [evPend_of_regs (stops.same .regs rfl)]
    exact bits p i bit
  · exact ⟨fun a sys own => rd_fault s code page bar worst d sys own,
      fun q j sys evc _ hj => counter_fault s code page bar (by omega) d sys evc hj, fun p i bit => testBit_evPend_fault bit code page bar worst d, power⟩

/-! ### Folds over distinct elements -/

/-- What holds until an element's turn, and what its turn makes of it, holds after the list. -/
theorem foldl_phase {α β : Type} {f : β → α → β} {before after : β → Prop} {l : List α} (nodup : l.Nodup) {x : α} (member : x ∈ l)
    (waits : ∀ b, ∀ y ∈ l, y ≠ x → before b → before (f b y)) (turn : ∀ b, before b → after (f b x))
    (stays : ∀ b, ∀ y ∈ l, y ≠ x → after b → after (f b y)) {b : β} (start : before b) : after (l.foldl f b) := by
  induction l generalizing b with
  | nil => exact absurd member List.not_mem_nil
  | cons z l ih =>
    obtain ⟨fresh, rest⟩ := List.nodup_cons.1 nodup
    rcases List.mem_cons.1 member with rfl | later
    · exact foldl_kept after (fun b y hy => stays b y (List.mem_cons_of_mem _ hy) fun same => fresh (same ▸ hy)) (turn b start)
    · refine ih rest later (fun b y hy => waits b y (List.mem_cons_of_mem _ hy)) (fun b y hy => stays b y (List.mem_cons_of_mem _ hy))
        (waits b z List.mem_cons_self (fun same => fresh (same ▸ later)) start)

/-! ### What a measurement leaves until Tmax is known -/

/-- The level, the stop and the words of the thermal page as they were, and its count of measurements. -/
def unmoved (s t : State) : Prop :=
  t.power.level = s.power.level ∧ t.power.stop = s.power.stop ∧ (∀ a, a / 4096 = pgThm → a % 4096 ≠ 0x24 → rd t a = rd s a) ∧
    counter t pgThm 0 = counter s pgThm 0

theorem unmoved.refl (s : State) : unmoved s s := ⟨rfl, rfl, fun _ _ _ => rfl, rfl⟩

theorem unmoved.trans {u : State} (h : unmoved s t) (g : unmoved t u) : unmoved s u := by
  obtain ⟨level, stop, words, count_⟩ := h
  obtain ⟨level', stop', words', count'⟩ := g
  exact ⟨level'.trans level, stop'.trans stop, fun a page off => (words' a page off).trans (words a page off), count'.trans count_⟩

theorem unmoved.ite {a b : State} {c : Prop} [Decidable c] (h : unmoved s a) (g : unmoved s b) : unmoved s (if c then a else b) := by
  split
  · exact h
  · exact g

theorem unmoved.power {q : Power} (level : q.level = s.power.level) (stop : q.stop = s.power.stop) : unmoved s (setPower s q) :=
  ⟨level, stop, fun _ _ _ => rfl, rfl⟩

theorem unmoved_ev (s : State) (p b : Nat) : unmoved s (ev s p b) := by
  have power := (ev_evolves s p b (m := 8523841) rfl .rfl).same .power rfl
  refine ⟨congrArg Power.level power, congrArg Power.stop power, fun a page off => wordsKept_ev s p b a ?_, counter_ev (by decide) (by decide) s p b⟩
  rw [List.mem_singleton]
  rintro rfl
  exact off (by simp only [ra]; omega)

theorem unmoved_count (s : State) {p k : Nat} (h : 128 * p + k ≠ 128 * pgThm + 0) : unmoved s (count s p k) := by
  have counts : Evolves 64 s (count s p k) := count_evolves s p k rfl .rfl
  refine ⟨congrArg Power.level (counts.same .power rfl), congrArg Power.stop (counts.same .power rfl), fun a _ _ => counts.rd_eq rfl a, ?_⟩
  rw [counter_count, if_neg (Ne.symm h)]

theorem unmoved_fault (s : State) (code cls page bar : Nat) (hc : cls < 4) (d : List Nat) : unmoved s (fault s code cls page bar d) := by
  obtain ⟨words, counts, -, power⟩ := fault_leaves s code cls page bar hc d
  have event (q : Nat) : ra q 0x24 % 4096 = 0x24 := by
    simp only [ra]
    omega
  exact ⟨congrArg Power.level power, congrArg Power.stop power,
    fun a _ off => words a (fun same => off (by rw [same, event])) (fun same => off (by rw [same, event])),
    counts _ _ (by decide) (by decide) (by decide) (by decide)⟩

theorem unmoved_setSensor (s : State) (n : Nat) (x : Sensor) : unmoved s (setSensor s n x) := by
  unfold setSensor
  exact .power rfl rfl

/-- The thermal page is not one of image memory. -/
theorem unmoved_syncDram (s : State) : unmoved s (syncDram s) := by
  have power := (syncDram_evolves s (m := 8398913) rfl .rfl).same .power rfl
  refine ⟨congrArg Power.level power, congrArg Power.stop power, fun a page _ => rd_syncDram s (by rw [page]; decide), ?_⟩
  have wrote (u : State) (a v : Nat) : counter (wr u a v) pgThm 0 = counter u pgThm 0 := (wr_evolves u a v (m := 1) rfl .rfl).counter_eq rfl _ _
  unfold syncDram
  extract_lets a hots b c
  have first : counter b pgThm 0 = counter s pgThm 0 := (wrote _ _ _).trans (wrote _ _ _)
  refine ite_keeps (counter · pgThm 0) (fun _ => first) fun _ => ?_
  have last : counter c pgThm 0 = counter s pgThm 0 := (wrote _ _ _).trans ((wrote _ _ _).trans first)
  exact (counter_slowSync (by decide) (by decide) _).trans last

theorem unmoved_makeHot (s : State) (k : Nat) : unmoved s (makeHot s k) := by
  have words (u : State) (v : Nat) : unmoved u (wrf u (ra (pgDrc (k / 2)) 0x40) (8 + k % 2) (8 + k % 2) v) := by
    refine ⟨rfl, rfl, fun a page off => rd_wrf_other _ _ _ _ ?_, (wrf_evolves _ _ _ _ _ (m := 1) rfl .rfl).counter_eq rfl _ _⟩
    rintro rfl
    simp only [ra, pgDrc, pgThm] at page
    omega
  unfold makeHot
  extract_lets d first u v w
  have set : unmoved s u := ⟨rfl, rfl, fun _ _ _ => rfl, rfl⟩
  have told : unmoved v w := .ite (unmoved_ev _ _ _) (.refl _)
  exact .ite (((set.trans (words u 1)).trans told).trans (unmoved_syncDram _)) (.refl _)

theorem unmoved_dramSensor (s : State) (n : Nat) (v : Int) (good : Bool) : unmoved s (dramSensor s n v good) := by
  unfold dramSensor
  refine .ite (foldl_kept (unmoved s) (fun u k _ kept => kept.trans ?_) (.refl s)) (.refl s)
  exact unmoved.trans (t := setSub u k _) ⟨rfl, rfl, fun _ _ _ => rfl, rfl⟩ (unmoved_makeHot _ _)

theorem unmoved_takeConv (s : State) (cs : List Conv) (c : Conv) : unmoved s (takeConv s cs c) := by
  unfold takeConv
  extract_lets reason x y u v
  have counts : unmoved s u := .ite (.refl s) (unmoved_count s (by decide))
  have set : unmoved s v := counts.trans (unmoved_setSensor u _ _)
  exact .ite ((set.trans (unmoved_ev _ _ _)).trans (unmoved_fault _ _ _ _ _ (by decide) _)) set

theorem unmoved_replaceFailed (s : State) : unmoved s (replaceFailed s) := by
  unfold replaceFailed
  exact foldl_kept (unmoved s) (fun u n _ kept => kept.trans (.ite (unmoved_setSensor _ _ _) (.refl u))) (.refl s)

theorem unmoved_remoteHot (s : State) (r : Nat) : unmoved s (remoteHot s r) := by
  unfold remoteHot
  extract_lets x alert u
  have seen : unmoved s u := unmoved_dramSensor _ _ _ _
  refine .ite (.ite (((seen.trans (unmoved_setSensor _ _ _)).trans (unmoved_ev _ _ _)).trans (unmoved_fault _ _ _ _ _ (by decide) _)) (.ite ?_ seen)) (.refl s)
  exact seen.trans (unmoved_setSensor _ _ _)

/-! ### Tmax, the level and the stop (R434, R435, R438) -/

theorem hottest_max (s : State) : hottest s < 16 ∧ ∀ n, n < 16 → (getSensor s n).value ≤ (getSensor s (hottest s)).value := by
  have all (l : List Nat) (b : Nat) : (l.foldl (fun b n => if (getSensor s b).value < (getSensor s n).value then n else b) b = b ∨
        l.foldl (fun b n => if (getSensor s b).value < (getSensor s n).value then n else b) b ∈ l) ∧
      ∀ n, n = b ∨ n ∈ l → (getSensor s n).value ≤
        (getSensor s (l.foldl (fun b n => if (getSensor s b).value < (getSensor s n).value then n else b) b)).value := by
    induction l generalizing b with
    | nil => exact ⟨.inl rfl, fun n h => by simp at h; simp [h]⟩
    | cons z l ih =>
      rw [List.foldl_cons]
      split
      · next hotter =>
        obtain ⟨found, most⟩ := ih z
        refine ⟨.inr (found.elim (fun same => by rw [same]; exact List.mem_cons_self) (List.mem_cons_of_mem _)), fun n h => ?_⟩
        rcases h with rfl | h
        · exact le_trans (le_of_lt hotter) (most z (.inl rfl))
        · exact most n (List.mem_cons.1 h)
      · next cooler =>
        obtain ⟨found, most⟩ := ih b
        refine ⟨found.imp_right (List.mem_cons_of_mem _), fun n h => ?_⟩
        rcases h with rfl | h
        · exact most n (.inl rfl)
        · rcases List.mem_cons.1 h with rfl | h
          · exact le_trans (not_lt.1 cooler) (most b (.inl rfl))
          · exact most n (.inr h)
  obtain ⟨found, most⟩ := all (List.range 16) 0
  unfold hottest
  refine ⟨?_, fun n hn => most n (.inr (List.mem_range.2 hn))⟩
  rcases found with zero | within
  · rw [zero]
    decide
  · exact List.mem_range.1 within

/-- Tmax with its sensor, and what the sensors show. -/
def figures (s : State) : Nat × Int × Tab Sensor := (s.power.tmaxSensor, s.power.tmax, s.power.sensors)

/-- A measurement's level lies at most one above the present one; the figures, the stop and the thermal words stay. -/
theorem updateLevel_leaves (s : State) : figures (updateLevel s) = figures s ∧ (updateLevel s).power.stop = s.power.stop ∧
    (updateLevel s).power.level ≤ s.power.level + 1 ∧ (∀ a, a / 4096 = pgThm → a % 4096 ≠ 0x24 → rd (updateLevel s) a = rd s a) ∧
      counter (updateLevel s) pgThm 0 = counter s pgThm 0 := by
  have level (l : Nat) : figures (setLevel s l) = figures s ∧ (setLevel s l).power.stop = s.power.stop ∧ (setLevel s l).power.level = l ∧
      (∀ a, rd (setLevel s l) a = rd s a) ∧ counter (setLevel s l) pgThm 0 = counter s pgThm 0 := ⟨rfl, rfl, rfl, fun _ => rfl, rfl⟩
  unfold updateLevel
  extract_lets p u
  split
  · exact ⟨rfl, rfl, Nat.le_succ _, fun _ _ _ => rfl, rfl⟩
  · split
    · obtain ⟨fig, stop, up, words, counts⟩ := level (p.level + 1)
      split
      · have told := (unmoved_ev u pgThm 8).trans (unmoved_fault (ev u pgThm 8) 0x0C05 1 pgThm noBar (by decide) [p.tmaxSensor, twos 32 p.tmax])
        have power : (fault (ev u pgThm 8) 0x0C05 1 pgThm noBar [p.tmaxSensor, twos 32 p.tmax]).power = u.power :=
          (fault_evolves _ _ _ _ _ _ (m := 11728193) rfl (ev_evolves _ _ _ rfl .rfl)).same .power rfl
        obtain ⟨-, -, words', counts'⟩ := told
        refine ⟨Eq.trans (by rw [figures, power, figures]) fig, (congrArg Power.stop power).trans stop, ?_,
          fun a page off => (words' a page off).trans (words a), counts'.trans counts⟩
        rw [congrArg Power.level power, up]
      · exact ⟨fig, stop, le_of_eq up, fun a _ _ => words a, counts⟩
    · split
      · obtain ⟨fig, stop, down, words, counts⟩ := level (p.level - 1)
        refine ⟨fig, stop, ?_, fun a _ _ => words a, counts⟩
        rw [down]
        exact (Nat.sub_le _ _).trans (Nat.le_succ _)
      · exact ⟨rfl, rfl, Nat.le_succ _, fun _ _ _ => rfl, rfl⟩

/-- A flash erase that is abandoned ends on the flash's own page. -/
theorem eraseAbandoned_leaves (s : State) : (eraseAbandoned s).power = s.power ∧ (eraseAbandoned s).print = s.print ∧
    counter (eraseAbandoned s) pgThm 0 = counter s pgThm 0 := by
  have frame := eraseAbandoned_evolves s (m := 13766721) rfl .rfl
  refine ⟨frame.same .power rfl, frame.same .print rfl, ?_⟩
  have spoilt : counter (spoil s 3) pgThm 0 = counter s pgThm 0 := (spoil_evolves s 3 (m := 5242880) rfl .rfl).counter_eq rfl _ _
  have ends (u : State) (r : Nat) : counter (nvmEnd u r) pgThm 0 = counter u pgThm 0 := by
    unfold nvmEnd
    extract_lets v own w
    have ended : Evolves 1 u v := wr_evolves u (nvmA 0x4C) _ rfl .rfl
    have wrote : counter w pgThm 0 = counter u pgThm 0 := Eq.trans rfl (ended.counter_eq rfl pgThm 0)
    refine (counter_ev (by decide) (by decide) _ _ _).trans (ite_keeps (counter · pgThm 0) (fun _ => wrote) (fun _ => ?_))
    rw [counter_count, if_neg (by decide)]
    exact wrote
  unfold eraseAbandoned
  exact ite_keeps (counter · pgThm 0) (fun _ => (ends _ _).trans spoilt) (fun _ => rfl)

/-- The stop begins when Tmax has reached STOP, with every bar stopped; otherwise nothing changes. -/
theorem checkStop_leaves (s : State) : figures (checkStop s) = figures s ∧ counter (checkStop s) pgThm 0 = counter s pgThm 0 ∧
    ((s.power.stop = 0 ∧ stopAt s ≤ s.power.tmax ∧ (checkStop s).power.stop = 1 ∧ (checkStop s).power.level = 7 ∧
        ∀ b, b < 8 → printing (checkStop s) b = false) ∨
      (¬(s.power.stop = 0 ∧ stopAt s ≤ s.power.tmax) ∧ checkStop s = s)) := by
  by_cases hot : s.power.stop = 0 ∧ stopAt s ≤ s.power.tmax
  · let u := setPower s { s.power with stop := 1, level := 7, lastChange := some (ptTotalNs s) }
    have runs : checkStop s = eraseAbandoned (stopBars (slowSync u) (List.range 8)) := if_pos hot
    obtain ⟨power, print, counts⟩ := eraseAbandoned_leaves (stopBars (slowSync u) (List.range 8))
    have stopped : Evolves 8397888 u (stopBars (slowSync u) (List.range 8)) := stopBars_evolves _ _ rfl (slowSync_evolves _ rfl .rfl)
    have kept : (checkStop s).power = u.power := by rw [runs, power, stopped.same .power rfl]
    refine ⟨?_, ?_, .inl ⟨hot.1, hot.2, congrArg Power.stop kept, congrArg Power.level kept, fun b hb => ?_⟩⟩
    · rw [figures, kept]
      rfl
    · rw [runs, counts, (stopBars_evolves _ _ (m := 1024) rfl .rfl).counter_eq rfl, counter_slowSync (by decide) (by decide)]
      rfl
    · rw [runs, printing, getBar_of_print print]
      exact (stopBars_stops (List.range 8) (slowSync u) b (.inl (List.mem_range.2 hb))).1
  · have runs : checkStop s = s := if_neg hot
    rw [runs]
    exact ⟨rfl, rfl, .inr ⟨hot, rfl⟩⟩

/-! ### A whole measurement -/

/-- A measurement up to the sensors' values in use. -/
def sensed (s : State) (cs : List Conv) : State :=
  (List.range 8).foldl remoteHot (replaceFailed (cs.foldl (fun u c => takeConv u cs c) (count s pgThm 0)))

theorem sensed_unmoved (s : State) (cs : List Conv) : unmoved (count s pgThm 0) (sensed s cs) := by
  have taken := foldl_kept (unmoved (count s pgThm 0)) (l := cs) (fun u c _ kept => kept.trans (unmoved_takeConv u cs c)) (.refl (count s pgThm 0))
  exact foldl_kept (unmoved (count s pgThm 0)) (fun u r _ kept => kept.trans (unmoved_remoteHot u r)) (taken.trans (unmoved_replaceFailed _))

/-- With Tmax found, whether the level and the stop follow it. -/
def tmaxFound (s u : State) : State :=
  let before := s.power.tmaxSensor
  let u := if !(getSensor s before).failed && (getSensor u before).failed && u.power.level != 0 then
      setPower u { u.power with hold := true, holdSensor := before } else u
  let t := (getSensor u (hottest u)).value
  let u := setPower u { u.power with tmaxSensor := hottest u, tmax := t }
  let fast := if throttleAt u - 160 ≤ t then true else if t < throttleAt u - 192 then false else u.power.fast
  setPower u { u.power with fast := fast }

theorem measure_eq (s : State) (cs : List Conv) : measure s cs = checkStop (updateLevel (tmaxFound s (sensed s cs))) := rfl

theorem tmaxFound_leaves (s u : State) : unmoved u (tmaxFound s u) ∧ (tmaxFound s u).power.tmaxSensor < 16 ∧
    (tmaxFound s u).power.tmax = (getSensor (tmaxFound s u) (tmaxFound s u).power.tmaxSensor).value ∧
      ∀ n, n < 16 → (getSensor (tmaxFound s u) n).value ≤ (tmaxFound s u).power.tmax := by
  unfold tmaxFound
  extract_lets before own held t shown found fast
  have holds : unmoved u held := .ite (.power rfl rfl) (.refl u)
  obtain ⟨small, most⟩ := hottest_max held
  exact ⟨(holds.trans (.power rfl rfl)).trans (.power rfl rfl), small, rfl, most⟩

/-- The trims that readings used are spent; nothing else changes. -/
def trimsSpent (s : State) (rs : List TempReading) : State := rs.foldl (fun u x => trimsSeen u (sensorTrim x.sensor)) s

theorem trimsSpent_leaves (s : State) (rs : List TempReading) : Evolves 262144 s (trimsSpent s rs) ∧
    (trimsSpent s rs).power = { s.power with trimPast := (trimsSpent s rs).power.trimPast } := by
  refine ⟨Evolves.rfl.foldl fun _ _ h => trimsSeen_evolves _ _ rfl h, ?_⟩
  refine foldl_kept (fun u : State => u.power = { s.power with trimPast := u.power.trimPast }) (fun u x _ kept => ?_) rfl
  have seen : (trimsSeen u (sensorTrim x.sensor)).power = { u.power with trimPast := (trimsSeen u (sensorTrim x.sensor)).power.trimPast } := rfl
  rw [seen, kept]

/-- The state that a measurement starts from: outside Deep the trip record takes the present time and position. -/
def measuring (s : State) : State := if s.power.pstate = 5 then s else setPower s { s.power with tripNs := ptTotalNs s, tripPos := webPos s (refBar s) }

theorem exec_tempMeasurement (rs : List TempReading) (alive : s.power.tripped = false) (out : s.sys.inReset = false) :
    (∀ c, tripping (measuring s) (conversions s rs) = some c → exec (.tempMeasurement rs) s = .next (trip (measuring s) c.sensor c.value)) ∧
      (tripping (measuring s) (conversions s rs) = none → exec (.tempMeasurement rs) s =
        .next (trimsSpent (if (measuring s).power.pstate = 5 then measuring s else measure (measuring s) (conversions s rs)) rs)) := by
  have runs : ¬(s.power.tripped = true ∨ s.sys.inReset = true) := by
    rw [alive, out]
    decide
  refine ⟨fun c found => ?_, fun none => ?_⟩
  all_goals
    rw [show exec (.tempMeasurement rs) s = execTempMeasurement rs s from rfl, execTempMeasurement]
    dsimp only
    rw [if_neg runs, ← measuring]
  · rw [found]
  · rw [none]
    rfl

/-- A trip holds the unit in reset, with image memory lost and SLOW_REQ driven. -/
theorem trip_leaves (s : State) (n : Nat) (v : Int) : (trip s n v).power.tripped = true ∧ (trip s n v).sys.inReset = true ∧
    (trip s n v).links.slowReq = true ∧ (trip s n v).power.tripSensor = n ∧ (trip s n v).power.tripValue = v ∧ (trip s n v).dram.mem = [] ∧
      ∀ b, printing (trip s n v) b = false := by
  let w := setPower s { s.power with tripSensor := n, tripValue := v }
  have cut : (flashCut w).power = w.power := (flashCut_evolves w (m := 5242880) rfl .rfl).same .power rfl
  have starts : ∃ u : State, volatileReset w false = ptShowAll (flashCut w) u ∧ u.power.tripSensor = (flashCut w).power.tripSensor ∧
      u.power.tripValue = (flashCut w).power.tripValue ∧ u.dram.mem = [] ∧ u.print = {} := ⟨_, rfl, rfl, rfl, rfl, rfl⟩
  obtain ⟨u, runs, sensor, value, mem, print⟩ := starts
  have shown : Evolves 8388608 u (ptShowAll (flashCut w) u) := ptShowAll_evolves _ _ rfl .rfl
  have ends : trip s n v = { setPower (volatileReset w false) { (volatileReset w false).power with tripped := true } with
      sys := { (volatileReset w false).sys with inReset := true }, links := { (volatileReset w false).links with slowReq := true } } := rfl
  rw [ends, runs]
  have power := shown.same .power rfl
  refine ⟨rfl, rfl, rfl, ?_, ?_, ?_, fun b => ?_⟩
  · refine (congrArg Power.tripSensor power).trans (sensor.trans ?_)
    rw [cut]
    rfl
  · refine (congrArg Power.tripValue power).trans (value.trans ?_)
    rw [cut]
    rfl
  · exact (congrArg Dram.mem (shown.same .dram rfl)).trans mem
  · have bars : (ptShowAll (flashCut w) u).print = {} := (shown.same .print rfl).trans print
    exact (congrArg (fun p : Print => (tget (fun _ => {}) p.bars b : Bar).printing) bars).trans rfl

/-- What a measurement outside Deep leaves. -/
theorem measure_leaves (s : State) (cs : List Conv) :
    let t := measure s cs
    t.power.tmaxSensor < 16 ∧ t.power.tmax = (getSensor t t.power.tmaxSensor).value ∧ (∀ n, n < 16 → (getSensor t n).value ≤ t.power.tmax) ∧
      counted s t pgThm 0 ∧ (t.power.level ≤ s.power.level + 1 ∨ t.power.level = 7) ∧
      (s.power.stop = 0 → stopAt s ≤ t.power.tmax → t.power.stop = 1 ∧ t.power.level = 7 ∧ ∀ b, b < 8 → printing t b = false) ∧
      (s.power.stop = 0 → t.power.tmax < stopAt s → t.power.stop = 0) := by
  intro t
  have counts := counted_count s pgThm 0
  have power : (count s pgThm 0).power = s.power := by simp only [count_fields]
  have sensing := sensed_unmoved s cs
  have runs : t = checkStop (updateLevel (tmaxFound s (sensed s cs))) := measure_eq s cs
  obtain ⟨found, sensor, tmax, most⟩ := tmaxFound_leaves s (sensed s cs)
  obtain ⟨level, stop, words, counter_⟩ := sensing.trans found
  rw [power] at level stop
  generalize tmaxFound s (sensed s cs) = u at *
  obtain ⟨figures', stop', up, words', counter'⟩ := updateLevel_leaves u
  obtain ⟨figures'', counter'', stops⟩ := checkStop_leaves (updateLevel u)
  have limit : stopAt (updateLevel u) = stopAt s := by
    have word : rd (updateLevel u) (thmA 0x44) = rd s (thmA 0x44) :=
      (words' _ (by decide) (by decide)).trans ((words _ (by decide) (by decide)).trans ((count_evolves s pgThm 0 (m := 64) rfl .rfl).rd_eq rfl _))
    rw [stopAt, rdf, word, ← rdf, ← stopAt]
  generalize updateLevel u = v at *
  rw [← runs] at figures'' counter'' stops
  have shown : t.power.tmaxSensor = u.power.tmaxSensor ∧ t.power.tmax = u.power.tmax ∧ t.power.sensors = u.power.sensors := by
    have all := figures''.trans figures'
    simp only [figures, Prod.mk.injEq] at all
    exact all
  have tmaxV : t.power.tmax = v.power.tmax := congrArg (fun f : Nat × Int × Tab Sensor => f.2.1) figures''
  obtain ⟨shownSensor, shownMax, sensors⟩ := shown
  have values (n : Nat) : getSensor t n = getSensor u n := by rw [getSensor, sensors, getSensor]
  refine ⟨?_, ?_, fun n hn => ?_, ?_, ?_, fun begun hot => ?_, fun begun cool => ?_⟩
  · rw [shownSensor]
    exact sensor
  · rw [values, shownMax, shownSensor]
    exact tmax
  · rw [values, shownMax]
    exact most n hn
  · rw [counted] at counts ⊢
    rw [counter'', counter', counter_, counts]
  · rcases stops with ⟨-, -, -, seven, -⟩ | ⟨-, same⟩
    · exact .inr seven
    · refine .inl ?_
      rw [same]
      exact up.trans (by rw [level])
  · rcases stops with ⟨-, -, one, seven, bars⟩ | ⟨none, -⟩
    · exact ⟨one, seven, bars⟩
    · refine absurd ⟨stop'.trans (stop.trans begun), ?_⟩ none
      rw [limit, ← tmaxV]
      exact hot
  · rcases stops with ⟨-, hot, -⟩ | ⟨-, same⟩
    · rw [limit, ← tmaxV] at hot
      exact absurd hot (not_le.2 cool)
    · rw [same, stop', stop, begun]

/-! ### The end of the stop (R438) -/

theorem engines_stopUnit (s : State) (code : Nat) : (stopUnit s code).print.engines = s.print.engines ∧
    (stopUnit s code).print.thawQueue = s.print.thawQueue := by
  have one (u : State) (b : Nat) : ((stopBar u b).print.engines, (stopBar u b).print.thawQueue) = (u.print.engines, u.print.thawQueue) := by
    unfold stopBar
    dsimp only
    split_ifs <;> simp [setBar]
  have bars (u : State) (bs : List Nat) : ((stopBars u bs).print.engines, (stopBars u bs).print.thawQueue) = (u.print.engines, u.print.thawQueue) :=
    foldl_keeps (fun u : State => (u.print.engines, u.print.thawQueue)) one bs u
  have told (u : State) (c : Prop) [Decidable c] : (if c then pairSendOn u (pairLanes u) 0x30 0 [] else u).print = u.print :=
    ite_keeps State.print (fun _ => (pairSendOn_evolves _ _ _ _ _ (m := 8421440) rfl .rfl).same .print rfl) (fun _ => rfl)
  have held (u : State) (c : Prop) [Decidable c] (b : Bool) :
      (if c then u else ptShowAll u { u with sys := { u.sys with stopped := b } }).print = u.print :=
    ite_keeps State.print (fun _ => rfl) (fun _ => ((ptShowAll_evolves u _ (m := 8388608) rfl .rfl).same .print rfl).trans rfl)
  have demoted (u : State) (c : Prop) [Decidable c] : (if c then u else setRole u 6).print = u.print :=
    ite_keeps State.print (fun _ => rfl) (fun _ => (setRole_evolves u 6 (m := 8438080) rfl .rfl).same .print rfl)
  have synced (u : State) : (slowSync u).print = u.print := (slowSync_evolves u (m := 8396864) rfl .rfl).same .print rfl
  unfold stopUnit
  extract_lets a b own c e
  have print : (slowSync e).print = b.print := (synced e).trans ((demoted c _).trans (held b _ _))
  have stops : b = stopBars a (List.range 8) := rfl
  have sent : a.print = s.print := told s _
  have both : ((slowSync e).print.engines, (slowSync e).print.thawQueue) = (s.print.engines, s.print.thawQueue) := by
    rw [print, stops, bars, sent]
  exact ⟨congrArg Prod.fst both, congrArg Prod.snd both⟩

theorem engines_fault (s : State) (code cls page bar : Nat) (d : List Nat) : (fault s code cls page bar d).print.engines = s.print.engines ∧
    (fault s code cls page bar d).print.thawQueue = s.print.thawQueue := by
  by_cases worst : cls = 3
  · subst worst
    obtain ⟨-, -, -, -, print⟩ := recordedD_leaves s page (faultRecord s code 3 page bar d none)
    rw [fault_D, (engines_stopUnit _ _).1, (engines_stopUnit _ _).2, print]
    exact ⟨rfl, rfl⟩
  · rw [(fault_below_D s code page bar worst d).same .print rfl]
    exact ⟨rfl, rfl⟩

end Sys2Proof.Machine

namespace Sys2Proof.Proofs
open Sys2Proof Sys2Proof.Machine

/-- Measurements of the temperatures (R434, R435, R438, R439). -/
theorem tempMeasured (s : State) (rs : List TempReading) :
    (s.power.tripped = true ∨ s.sys.inReset = true → exec (.tempMeasurement rs) s = .next s) ∧
    (s.power.tripped = false → s.sys.inReset = false →
      (∀ c, tripping (measuring s) (conversions s rs) = some c →
        completes (.tempMeasurement rs) s (fun t =>
          t.power.tripped = true ∧ t.sys.inReset = true ∧ t.links.slowReq = true ∧ t.power.tripSensor = c.sensor ∧
            t.power.tripValue = c.value ∧ t.dram.mem = [] ∧ (∀ b, printing t b = false))) ∧
      (tripping (measuring s) (conversions s rs) = none →
        (s.power.pstate = 5 →
          completes (.tempMeasurement rs) s (fun t =>
            t.power = { s.power with trimPast := t.power.trimPast } ∧ onlyChanges [.power] s t)) ∧
        (s.power.pstate ≠ 5 →
          completes (.tempMeasurement rs) s (fun t =>
            t.power.tmaxSensor < 16 ∧ t.power.tmax = (getSensor t t.power.tmaxSensor).value ∧
              (∀ n, n < 16 → (getSensor t n).value ≤ t.power.tmax) ∧ counted s t pgThm 0 ∧
              (t.power.level ≤ s.power.level + 1 ∨ t.power.level = 7) ∧
              (s.power.stop = 0 → stopAt s ≤ t.power.tmax →
                t.power.stop = 1 ∧ t.power.level = 7 ∧ (∀ b, b < 8 → printing t b = false)) ∧
              (s.power.stop = 0 → t.power.tmax < stopAt s → t.power.stop = 0))))) := by
  refine ⟨fun off => congrArg Host.Outcome.next (if_pos off), fun alive out => ?_⟩
  obtain ⟨trips, goes⟩ := exec_tempMeasurement rs alive out
  refine ⟨fun c found => ⟨_, trips c found, trip_leaves _ _ _⟩, fun none => ⟨fun deep => ?_, fun up => ?_⟩⟩
  · have runs := goes none
    have same : measuring s = s := if_pos deep
    rw [same, if_pos deep] at runs
    obtain ⟨frame, power⟩ := trimsSpent_leaves s rs
    exact ⟨_, runs, power, frame.only (by decide)⟩
  · have runs := goes none
    have start : measuring s = setPower s { s.power with tripNs := ptTotalNs s, tripPos := webPos s (refBar s) } := if_neg up
    rw [if_neg (by rw [start]; exact up), start] at runs
    obtain ⟨frame, power⟩ := trimsSpent_leaves
      (measure (setPower s { s.power with tripNs := ptTotalNs s, tripPos := webPos s (refBar s) }) (conversions s rs)) rs
    have measured := measure_leaves (setPower s { s.power with tripNs := ptTotalNs s, tripPos := webPos s (refBar s) }) (conversions s rs)
    dsimp only at measured
    generalize measure (setPower s { s.power with tripNs := ptTotalNs s, tripPos := webPos s (refBar s) }) (conversions s rs) = u at *
    refine ⟨_, runs, ?_⟩
    have sensors (n : Nat) : getSensor (trimsSpent u rs) n = getSensor u n := by rw [getSensor, power, getSensor]
    have bars (b : Nat) : printing (trimsSpent u rs) b = printing u b := by
      rw [printing, getBar_of_print (frame.same .print rfl), printing]
    simp only [sensors, bars, counted, frame.counter_eq rfl]
    rw [power]
    exact measured

/-- The orderly stop ends with the engines stopped and its record (R438). -/
theorem thermalStopEnds (s : State) (begun : s.power.stop = 1) (still : ∀ b, b < 8 → barStopping s b = false) :
    completes .thermalStopDone s (fun t =>
      t.power = { s.power with stop := 2 } ∧ t.print.engines = [] ∧ t.print.thawQueue = [] ∧ (evPend t pgThm).testBit 9 = true ∧
        recorded s t 0x0C06 (if pairMode s && (s.pair.peerRole == 2 || s.pair.peerRole == 5) then 3 else 2)) := by
  let u : State := { setPower s { s.power with stop := 2 } with
    print := { s.print with engines := [], thawQueue := [], tiles := s.print.tiles.map Tile.afterReset } }
  have told : Evolves 8523841 u (ev u pgThm 9) := ev_evolves _ _ _ rfl .rfl
  have pair : (ev u pgThm 9).pair = s.pair := told.same .pair rfl
  have mode : pairMode (ev u pgThm 9) = pairMode s := by
    rw [pairMode, rdb, wordsKept_ev u pgThm 9 _ (by decide)]
    rfl
  have nobody : ¬(s.power.stop ≠ 1 ∨ (List.range 8).any (barStopping s) = true) := by
    rintro (other | moving)
    · exact other begun
    · obtain ⟨b, hb, stops⟩ := List.any_eq_true.1 moving
      exact absurd (stops.symm.trans (still b (List.mem_range.1 hb))) (by decide)
  have runs : ∃ d, exec .thermalStopDone s = .next (fault (ev u pgThm 9) 0x0C06
      (if pairMode (ev u pgThm 9) && ((ev u pgThm 9).pair.peerRole == 2 || (ev u pgThm 9).pair.peerRole == 5) then 3 else 2) pgThm noBar d) :=
    ⟨_, congrArg Host.Outcome.next (if_neg nobody)⟩
  obtain ⟨d, runs⟩ := runs
  rw [mode, pair] at runs
  refine ⟨_, runs, ?_⟩
  obtain ⟨cls, hcls⟩ : ∃ cls, (if pairMode s && (s.pair.peerRole == 2 || s.pair.peerRole == 5) then 3 else 2) = cls := ⟨_, rfl⟩
  have hc : cls < 4 := by
    rw [← hcls]
    split <;> decide
  rw [hcls]
  obtain ⟨-, -, bits, power⟩ := fault_leaves (ev u pgThm 9) 0x0C06 cls pgThm noBar hc d
  obtain ⟨engines, queue⟩ := engines_fault (ev u pgThm 9) 0x0C06 cls pgThm noBar d
  refine ⟨power.trans (told.same .power rfl), engines.trans ?_, queue.trans ?_, bits _ _ (testBit_evPend_raised _ _ (by decide)), ?_⟩
  · exact congrArg Print.engines (told.same .print rfl)
  · exact congrArg Print.thawQueue (told.same .print rfl)
  · exact recorded_of_keepsLog (keepsLog.trans (t := u) ⟨rfl, rfl⟩ (.of told rfl)) (recorded_fault ..)

/-- Temperatures, the orderly stop and the trip. -/
theorem thermalRule : ThermalRule := by
  refine ⟨tempMeasured, fun s => ⟨fun none => ?_, fun held failed => ?_, fun other => ?_, thermalStopEnds s⟩, fun s rq open_ => ?_, fun s ts => ?_⟩
  · refine congrArg Host.Outcome.next (if_neg fun both => ?_)
    rw [Bool.and_eq_true] at both
    rcases none with off | valid
    · exact absurd (both.1.symm.trans off) (by decide)
    · exact absurd (both.2.symm.trans valid) (by decide)
  · refine ⟨_, congrArg Host.Outcome.next (if_pos (by rw [held, failed]; decide)), rfl, ?_⟩
    exact (setPower_evolves s _ (m := 262144) rfl .rfl).only (by decide)
  · exact congrArg Host.Outcome.next (if_pos (.inl other))
  · have runs : exec (.clrStop rq) s = .next (if stopAt s - 160 ≤ s.power.tmax then refuse s pgThm
        else slowSync (setPower s { s.power with stop := 0 })) := congrArg Host.Outcome.next (gated_of_admitted open_ _)
    refine ⟨fun hot => ?_, fun cool => ?_⟩
    · rw [if_pos hot] at runs
      exact ⟨_, runs, refuse_leaves s (by decide)⟩
    · rw [if_neg (not_le.2 cool)] at runs
      exact ⟨_, runs, (slowSync_evolves _ (m := 8396864) rfl .rfl).same .power rfl⟩
  · let cool (x : Int × Nat) : Bool := decide ((convert s { sensor := x.2, value := x.1 }).1 < 1600)
    let u := setPower s { s.power with tripped := false }
    let v : State := { u with sys := { u.sys with lateFaults := u.sys.lateFaults ++ [(0x0C07, u.power.tripSensor)], memLost := true } }
    have runs : exec (.tripRestart ts) s = .next (if s.power.tripped && decide (16 ≤ ts.length) && (ts.take 16).zipIdx.all cool then startBoot v 4 0 else s) := rfl
    refine ⟨fun none => runs.trans (congrArg _ (if_neg fun all => ?_)), fun tripped enough cold => ?_⟩
    · simp only [Bool.and_eq_true, decide_eq_true_eq, List.all_eq_true] at all
      obtain ⟨⟨tripped, enough⟩, cold⟩ := all
      rcases none with off | few | ⟨x, hx, hot⟩
      · exact absurd (tripped.symm.trans off) (by decide)
      · omega
      · exact absurd (of_decide_eq_true (cold x hx)) (not_lt.2 hot)
    · have all : (s.power.tripped && decide (16 ≤ ts.length) && (ts.take 16).zipIdx.all cool) = true := by
        rw [tripped, decide_eq_true enough, List.all_eq_true.2 fun x hx => decide_eq_true (cold x hx)]
        rfl
      rw [if_pos all] at runs
      have frame : Evolves 1310721 s (startBoot v 4 0) :=
        startBoot_evolves _ _ _ rfl (Evolves.upd_1048576 (by decide) (setPower_evolves _ _ rfl .rfl))
      exact ⟨_, runs, rfl, rfl, rfl, rfl, rfl, List.mem_append_right _ (List.mem_singleton.2 rfl), frame.only (by decide)⟩

end Sys2Proof.Proofs
end

section
/-! PROOFS. Supply and process monitors, and the regulator (R443 to R447). -/

namespace Sys2Proof.Machine
open Sys2Proof

variable {s t : State}

/-! ### What a class D fault stops -/

theorem stopped_stopUnit (s : State) {code : Nat} (h : code ≠ 0x0A09) : (stopUnit s code).sys.stopped = true := by
  have demoted (u : State) (c : Prop) [Decidable c] : (if c then u else setRole u 6).sys = u.sys :=
    ite_keeps State.sys (fun _ => rfl) (fun _ => (setRole_evolves u 6 (m := 8438080) rfl .rfl).same .sys rfl)
  have synced (u : State) : (slowSync u).sys = u.sys := (slowSync_evolves u (m := 8396864) rfl .rfl).same .sys rfl
  have held (u : State) (b : Bool) : (ptShowAll u { u with sys := { u.sys with stopped := b } }).sys = { u.sys with stopped := b } :=
    (ptShowAll_evolves u _ (m := 8388608) rfl .rfl).same .sys rfl
  unfold stopUnit
  extract_lets a b own c e
  have kept : (slowSync e).sys = c.sys := (synced e).trans (demoted c _)
  have set : c.sys = { b.sys with stopped := true } := ite_keeps State.sys (fun same => absurd same h) (fun _ => held b true)
  rw [kept, set]

theorem stopped_fault (s : State) {code : Nat} (h : code ≠ 0x0A09) (page bar : Nat) (d : List Nat) :
    (fault s code 3 page bar d).sys.stopped = true := by
  rw [fault_D]
  exact stopped_stopUnit _ h

/-! ### Rails -/

theorem getRail_setRail_same (s : State) (c : Nat) (x : Rail) : getRail (setRail s c x) c = x := by
  rw [getRail]
  exact tget_tset_same _ _ _ _

theorem getRail_setRail_beside (s : State) {c k : Nat} (x : Rail) (h : k ≠ c) : getRail (setRail s c x) k = getRail s k := by
  rw [getRail]
  exact tget_tset_other _ _ _ h

theorem getRail_of_power (h : t.power = s.power) (c : Nat) : getRail t c = getRail s c := by rw [getRail, h, getRail]

/-- The words of the monitors but EV_PEND, their event bits, and the power state are kept; a unit that is stopped stays so. -/
def monQuiet (s t : State) : Prop :=
  (∀ a, a / 4096 = pgMon → a % 4096 ≠ 0x24 → rd t a = rd s a) ∧ (∀ i, (evPend s pgMon).testBit i = true → (evPend t pgMon).testBit i = true) ∧
    t.power.pstate = s.power.pstate

theorem monQuiet.refl (s : State) : monQuiet s s := ⟨fun _ _ _ => rfl, fun _ h => h, rfl⟩

theorem monQuiet.trans {u : State} (h : monQuiet s t) (g : monQuiet t u) : monQuiet s u := by
  obtain ⟨words, bits, power⟩ := h
  obtain ⟨words', bits', power'⟩ := g
  exact ⟨fun a page off => (words' a page off).trans (words a page off), fun i h => bits' i (bits i h), power'.trans power⟩

theorem monQuiet_setRail (s : State) (c : Nat) (x : Rail) : monQuiet s (setRail s c x) := ⟨fun _ _ _ => rfl, fun _ h => h, rfl⟩

theorem monQuiet_count (s : State) (p k : Nat) : monQuiet s (count s p k) := by
  have counts : Evolves 64 s (count s p k) := count_evolves s p k rfl .rfl
  refine ⟨fun a _ _ => counts.rd_eq rfl a, fun i h => ?_, congrArg Power.pstate (counts.same .power rfl)⟩
  rw [evPend_of_regs (counts.same .regs rfl)]
  exact h

theorem monQuiet_ev (s : State) (p b : Nat) : monQuiet s (ev s p b) := by
  have power := (ev_evolves s p b (m := 8523841) rfl .rfl).same .power rfl
  refine ⟨fun a _ off => wordsKept_ev s p b a ?_, fun i h => testBit_evPend_ev h p b, congrArg Power.pstate power⟩
  rw [List.mem_singleton]
  rintro rfl
  exact off (by simp only [ra]; omega)

theorem monQuiet_fault (s : State) (code cls page bar : Nat) (hc : cls < 4) (d : List Nat) : monQuiet s (fault s code cls page bar d) := by
  obtain ⟨words, -, bits, power⟩ := fault_leaves s code cls page bar hc d
  have event (q : Nat) : ra q 0x24 % 4096 = 0x24 := by
    simp only [ra]
    omega
  exact ⟨fun a _ off => words a (fun same => off (by rw [same, event])) (fun same => off (by rw [same, event])), fun i h => bits pgMon i h,
    congrArg Power.pstate power⟩

/-- The counters of the monitors. -/
theorem counter_mon_fault (s : State) (code cls page bar : Nat) (hc : cls < 4) (d : List Nat) {k : Nat} (h : k < 128) :
    counter (fault s code cls page bar d) pgMon k = counter s pgMon k :=
  (fault_leaves s code cls page bar hc d).2.1 pgMon k (by decide) (by decide) (by decide) h

theorem counter_mon_ev (s : State) (p b : Nat) {k : Nat} (h : k < 128) : counter (ev s p b) pgMon k = counter s pgMon k := counter_ev (by decide) h s p b

/-! ### The warning limits (R443) -/

/-- A reading outside the warning limits is counted, one inside is not; no critical state changes. -/
theorem warnCheck_leaves (s : State) (c v : Nat) : monQuiet s (warnCheck s c v) ∧
    (∀ k, (getRail (warnCheck s c v) k).crit = (getRail s k).crit ∧ (getRail (warnCheck s c v) k).critical = (getRail s k).critical) ∧
    (∀ k, k < 128 → k ≠ c → counter (warnCheck s c v) pgMon k = counter s pgMon k) ∧
    (c < 128 → within (rd s (monA (0x80 + 4 * c))) v = false → counted s (warnCheck s c v) pgMon c) := by
  have rails (u : State) (x : Rail) (same : u.power = s.power) (crit : x.crit = (getRail s c).crit) (critical : x.critical = (getRail s c).critical) (k : Nat) :
      (getRail (setRail u c x) k).crit = (getRail s k).crit ∧ (getRail (setRail u c x) k).critical = (getRail s k).critical := by
    by_cases here : k = c
    · subst here
      rw [getRail_setRail_same]
      exact ⟨crit, critical⟩
    · rw [getRail_setRail_beside _ _ here, getRail_of_power same]
      exact ⟨rfl, rfl⟩
  have counts : (count s pgMon c).power = s.power := by simp only [count_fields]
  have other {k : Nat} (hk : k < 128) (off : k ≠ c) : counter (count s pgMon c) pgMon k = counter s pgMon k := by
    rw [counter_count, if_neg (by omega)]
  unfold warnCheck
  extract_lets x y n
  split
  · next inside =>
    exact ⟨monQuiet_setRail _ _ _, rails s _ rfl rfl rfl, fun _ _ _ => rfl, fun _ out => absurd (inside.symm.trans out) (by decide)⟩
  · split
    · let w := setRail y c { x with warn := n, warned := true, goodW := 0 }
      have told : (fault (ev w pgMon 8) 0x0C08 1 pgMon noBar [c, v]).power = w.power :=
        (fault_evolves _ _ _ _ _ _ (m := 11728193) rfl (ev_evolves _ _ _ rfl .rfl)).same .power rfl
      have keeps (k : Nat) (hk : k < 128) : counter (fault (ev w pgMon 8) 0x0C08 1 pgMon noBar [c, v]) pgMon k = counter y pgMon k :=
        (counter_mon_fault _ _ _ _ _ (by decide) _ hk).trans ((counter_mon_ev _ _ _ hk).trans rfl)
      refine ⟨(((monQuiet_count s _ _).trans (monQuiet_setRail _ _ _)).trans (monQuiet_ev _ _ _)).trans (monQuiet_fault _ _ _ _ _ (by decide) _),
        fun k => ?_, fun k hk off => (keeps k hk).trans (other hk off), fun hc _ => ?_⟩
      · rw [getRail_of_power told]
        exact rails y { x with warn := n, warned := true, goodW := 0 } counts rfl rfl k
      · rw [counted, keeps c hc]
        exact counted_count s pgMon c
    · exact ⟨(monQuiet_count s _ _).trans (monQuiet_setRail _ _ _), rails y _ counts rfl rfl, fun k hk off => (Eq.trans rfl (other hk off)),
        fun _ _ => counted_count s pgMon c⟩

/-! ### The critical limits (R443) -/

/-- What a check against the critical limits leaves, and what it makes of its rail. -/
theorem critCheck_leaves (s : State) (c v : Nat) : monQuiet s (critCheck s c v) ∧ (∀ k, k ≠ c → getRail (critCheck s c v) k = getRail s k) ∧
    (∀ k, k < 128 → counter (critCheck s c v) pgMon k = counter s pgMon k) ∧ (s.sys.stopped = true → (critCheck s c v).sys.stopped = true) ∧
    (within (rd s (monA (0xC0 + 4 * c))) v = true → (getRail (critCheck s c v) c).crit = 0) ∧
    (within (rd s (monA (0xC0 + 4 * c))) v = false → (getRail s c).crit = 1 → (getRail s c).critical = false →
      (getRail (critCheck s c v) c).critical = true ∧ (evPend (critCheck s c v) pgMon).testBit 9 = true ∧ (critCheck s c v).sys.stopped = true) := by
  unfold critCheck
  extract_lets x n
  split
  · next inside =>
    refine ⟨monQuiet_setRail _ _ _, fun k off => getRail_setRail_beside _ _ off, fun _ _ => rfl, fun h => h, fun _ => ?_,
      fun out => absurd (inside.symm.trans out) (by decide)⟩
    rw [getRail_setRail_same]
  · next outside =>
    split
    · let w := setRail s c { x with crit := n, critical := true, goodC := 0 }
      have told : (fault (ev w pgMon 9) 0x0C09 3 pgMon noBar [c, v]).power = w.power :=
        (fault_evolves _ _ _ _ _ _ (m := 11728193) rfl (ev_evolves _ _ _ rfl .rfl)).same .power rfl
      have stops := stopped_fault (ev w pgMon 9) (code := 0x0C09) (by decide) pgMon noBar [c, v]
      refine ⟨((monQuiet_setRail _ _ _).trans (monQuiet_ev _ _ _)).trans (monQuiet_fault _ _ _ _ _ (by decide) _), fun k off => ?_, fun k hk => ?_,
        fun _ => stops, fun inside => absurd inside outside, fun _ _ _ => ⟨?_, ?_, stops⟩⟩
      · rw [getRail_of_power told, getRail_setRail_beside _ _ off]
      · exact (counter_mon_fault _ _ _ _ _ (by decide) _ hk).trans ((counter_mon_ev _ _ _ hk).trans rfl)
      · rw [getRail_of_power told, getRail_setRail_same]
      · exact (fault_leaves _ _ _ _ _ (by decide) _).2.2.1 _ _ (testBit_evPend_raised _ _ (by decide))
    · next single =>
      refine ⟨monQuiet_setRail _ _ _, fun k off => getRail_setRail_beside _ _ off, fun _ _ => rfl, fun h => h, fun inside => absurd inside outside,
        fun _ crit critical => absurd ⟨?_, critical⟩ single⟩
      exact congrArg (· + 1) crit

/-! ### A conversion of all rails (R443) -/

/-- A check of each reading of a conversion, in the order of the channels. -/
def eachRail (vs : List Nat) (f : State → Nat → Nat → State) (s : State) : State :=
  (List.range vs.length).foldl (fun s c => f s c ((vs[c]?).getD 0)) s

/-- The readings shown. -/
def railsShown (vs : List Nat) (s : State) : State := eachRail vs (fun s c v => wr s (monA (0x40 + 4 * c)) (v % 2 ^ 16)) s

theorem exec_voltageConversion (mv : List Nat) (ap : Nat) (on : monitoring s = true) : exec (.voltageConversion ⟨mv, ap⟩) s = .next
    (let vs := (mv.take 12).map (adcValue s ap)
     trimsSeen (trimsSeen (eachRail vs critCheck (eachRail vs warnCheck (railsShown vs s))) 0x160) 0x164) :=
  congrArg Host.Outcome.next (if_pos on)

section Readings
variable {vs : List Nat} {c v : Nat} (reading : vs[c]? = some v)
include reading

theorem lt_of_reading : c < vs.length := (List.getElem?_eq_some_iff.1 reading).1

theorem railsShown_word (s : State) : rd (railsShown vs s) (monA (0x40 + 4 * c)) = v % 2 ^ 16 := by
  refine foldl_phase (before := fun _ => True) (after := fun u => rd u (monA (0x40 + 4 * c)) = v % 2 ^ 16) List.nodup_range
    (List.mem_range.2 (lt_of_reading reading)) (fun _ _ _ _ h => h) (fun u _ => ?_) (fun u y hy off shown => ?_) trivial
  · rw [rd_wr_same, reading]
    simp only [Option.getD_some]
    omega
  · rw [rd_wr, if_neg (by simp only [monA, ra]; omega)]
    exact shown

/-- The warning check of a channel counts on that channel alone. -/
theorem eachRail_warn_counts (short : vs.length ≤ 12) (s : State) (outside : within (rd s (monA (0x80 + 4 * c))) v = false) :
    counted s (eachRail vs warnCheck s) pgMon c := by
  have hc := lt_of_reading reading
  refine foldl_phase (before := fun u => monQuiet s u ∧ counter u pgMon c = counter s pgMon c) (after := fun u => counted s u pgMon c) List.nodup_range
    (List.mem_range.2 hc) (fun u y _ off kept => ?_) (fun u kept => ?_) (fun u y _ off done => ?_) ⟨.refl s, rfl⟩
  · obtain ⟨quiet, -, counts, -⟩ := warnCheck_leaves u y ((vs[y]?).getD 0)
    exact ⟨kept.1.trans quiet, (counts c (by omega) (Ne.symm off)).trans kept.2⟩
  · obtain ⟨-, -, -, counts⟩ := warnCheck_leaves u c ((vs[c]?).getD 0)
    have out : within (rd u (monA (0x80 + 4 * c))) ((vs[c]?).getD 0) = false := by
      rw [reading, kept.1.1 _ (by simp only [monA, ra, pgMon]; omega) (by simp only [monA, ra]; omega)]
      exact outside
    have counted_ := counts (by omega) out
    rw [counted, kept.2] at counted_
    exact counted_
  · obtain ⟨-, -, counts, -⟩ := warnCheck_leaves u y ((vs[y]?).getD 0)
    rw [counted, counts c (by omega) (Ne.symm off)]
    exact done

/-- The critical check of a channel: what it makes of that channel's state. -/
theorem eachRail_crit (short : vs.length ≤ 12) (s : State) :
    (within (rd s (monA (0xC0 + 4 * c))) v = true → (getRail (eachRail vs critCheck s) c).crit = 0) ∧
    (within (rd s (monA (0xC0 + 4 * c))) v = false → (getRail s c).crit = 1 → (getRail s c).critical = false →
      (getRail (eachRail vs critCheck s) c).critical = true ∧ (evPend (eachRail vs critCheck s) pgMon).testBit 9 = true ∧
        (eachRail vs critCheck s).sys.stopped = true) := by
  have hc := List.mem_range.2 (lt_of_reading reading)
  have low := lt_of_reading reading
  have limits {u : State} (quiet : monQuiet s u) : rd u (monA (0xC0 + 4 * c)) = rd s (monA (0xC0 + 4 * c)) :=
    quiet.1 _ (by simp only [monA, ra, pgMon]; omega) (by simp only [monA, ra]; omega)
  have waits (u : State) (y : Nat) (off : y ≠ c) (kept : monQuiet s u ∧ getRail u c = getRail s c) :
      monQuiet s (critCheck u y ((vs[y]?).getD 0)) ∧ getRail (critCheck u y ((vs[y]?).getD 0)) c = getRail s c := by
    obtain ⟨quiet, rails, -⟩ := critCheck_leaves u y ((vs[y]?).getD 0)
    exact ⟨kept.1.trans quiet, (rails c (Ne.symm off)).trans kept.2⟩
  refine ⟨fun inside => ?_, fun outside crit critical => ?_⟩
  · refine foldl_phase (before := fun u => monQuiet s u ∧ getRail u c = getRail s c) (after := fun u => (getRail u c).crit = 0) List.nodup_range hc
      (fun u y _ off kept => waits u y off kept) (fun u kept => ?_) (fun u y _ off done => ?_) ⟨.refl s, rfl⟩
    · refine (critCheck_leaves u c ((vs[c]?).getD 0)).2.2.2.2.1 ?_
      rw [limits kept.1, reading]
      exact inside
    · rw [(critCheck_leaves u y ((vs[y]?).getD 0)).2.1 c (Ne.symm off)]
      exact done
  · refine foldl_phase (before := fun u => monQuiet s u ∧ getRail u c = getRail s c)
      (after := fun u => (getRail u c).critical = true ∧ (evPend u pgMon).testBit 9 = true ∧ u.sys.stopped = true) List.nodup_range hc
      (fun u y _ off kept => waits u y off kept) (fun u kept => ?_) (fun u y _ off done => ?_) ⟨.refl s, rfl⟩
    · refine (critCheck_leaves u c ((vs[c]?).getD 0)).2.2.2.2.2 ?_ ?_ ?_
      · rw [limits kept.1, reading]
        exact outside
      · rw [kept.2, crit]
      · rw [kept.2, critical]
    · obtain ⟨quiet, rails, -, stopped, -⟩ := critCheck_leaves u y ((vs[y]?).getD 0)
      obtain ⟨critical, event, stops⟩ := done
      exact ⟨by rw [rails c (Ne.symm off)]; exact critical, quiet.2.1 9 event, stopped stops⟩

end Readings

/-- A conversion leaves the words of the monitors that it does not show, and the counts of its checks. -/
theorem eachRail_quiet (vs : List Nat) (s : State) : monQuiet s (eachRail vs warnCheck s) ∧ monQuiet s (eachRail vs critCheck s) ∧
    (∀ k, (getRail (eachRail vs warnCheck s) k).crit = (getRail s k).crit ∧ (getRail (eachRail vs warnCheck s) k).critical = (getRail s k).critical) ∧
    ∀ k, k < 128 → counter (eachRail vs critCheck s) pgMon k = counter s pgMon k := by
  refine ⟨foldl_kept (monQuiet s) (fun u c _ kept => kept.trans (warnCheck_leaves u c _).1) (.refl s),
    foldl_kept (monQuiet s) (fun u c _ kept => kept.trans (critCheck_leaves u c _).1) (.refl s), fun k => ?_, fun k hk => ?_⟩
  · refine foldl_kept (fun u => (getRail u k).crit = (getRail s k).crit ∧ (getRail u k).critical = (getRail s k).critical) (fun u c _ kept => ?_) ⟨rfl, rfl⟩
    obtain ⟨-, rails, -⟩ := warnCheck_leaves u c ((vs[c]?).getD 0)
    exact ⟨(rails k).1.trans kept.1, (rails k).2.trans kept.2⟩
  · exact foldl_kept (fun u => counter u pgMon k = counter s pgMon k) (fun u c _ kept => ((critCheck_leaves u c _).2.2.1 k hk).trans kept) rfl

/-- The words of the limits lie above those of the readings. -/
theorem limitWord {o c : Nat} (hc : c < 12) (low : 0x70 ≤ o) (high : o < 0xD0) :
    monA 0x70 ≤ monA (o + 4 * c) ∧ monA (o + 4 * c) / 4096 = pgMon ∧ monA (o + 4 * c) % 4096 ≠ 0x24 := by
  simp only [monA, ra, pgMon]
  omega

theorem railsShown_leaves (vs : List Nat) (short : vs.length ≤ 12) (s : State) : Evolves 1 s (railsShown vs s) ∧
    ∀ a, monA 0x70 ≤ a → rd (railsShown vs s) a = rd s a := by
  refine ⟨Evolves.rfl.foldl fun _ _ h => wr_evolves _ _ _ rfl h, fun a high => ?_⟩
  refine foldl_kept (fun u => rd u a = rd s a) (fun u c hc kept => ?_) rfl
  have low := List.mem_range.1 hc
  rw [rd_wr, if_neg (by simp only [monA, ra] at high ⊢; omega)]
  exact kept

/-! ### The regulator (R446, R447) -/

theorem rd_pmbSend (s : State) (cmd : Nat) {a : Nat} (h : a ≠ monA 0x134) : rd (pmbSend s cmd) a = rd s a := by
  rw [pmbSend, (send_evolves _ _ (m := 8388608) rfl .rfl).rd_eq rfl, rd_wrf_other _ _ _ _ h]

theorem vcore_of_word (h : rd t (monA 0x128) = rd s (monA 0x128)) : vcore t = vcore s := rdf_eq_of_rd h _ _

/-- The core voltage set, with the words of the monitors that follow it. -/
theorem setVcore_leaves (s : State) {v : Nat} (h : v < 2 ^ 16) : vcore (setVcore s v) = v ∧
    ∀ a, a ≠ monA 0x128 → a ≠ monA 0x80 → a ≠ monA 0x134 → rd (setVcore s v) a = rd s a := by
  have word (a : Nat) (off : a ≠ monA 0x134) : rd (setVcore s v) a = rd (wr (wr s (monA 0x128) v) (monA 0x80) (2 ^ 16 * (v + 30) + (v - 30))) a :=
    (rd_pmbSend _ _ off).trans ((count_evolves _ pgMon 13 (m := 64) rfl .rfl).rd_eq rfl a)
  refine ⟨?_, fun a set warn off => ?_⟩
  · have core : rd (setVcore s v) (monA 0x128) = v := by
      rw [word _ (by decide), rd_wr, if_neg (by decide), rd_wr_same, Nat.mod_eq_of_lt (by omega)]
    rw [vcore, rdf, core, field]
    omega
  · rw [word a off, rd_wr, if_neg warn, rd_wr, if_neg set]

/-- The words of the monitors, and what holds AVS, are kept. -/
def avsQuiet (s t : State) : Prop :=
  (∀ a, a / 4096 = pgMon → a % 4096 ≠ 0x24 → rd t a = rd s a) ∧ t.power.avsHeld = s.power.avsHeld ∧ t.power.voutMode = s.power.voutMode

theorem avsQuiet_recorded (s u : State) (kept : avsQuiet s u) (c : Prop) [Decidable c] (d : List Nat) :
    avsQuiet s (if c then fault (ev u pgMon 10) 0x0C0A 1 pgMon noBar d else u) := by
  split
  · have recorded := (monQuiet_ev u pgMon 10).trans (monQuiet_fault (ev u pgMon 10) 0x0C0A 1 pgMon noBar (by decide) d)
    have power : (fault (ev u pgMon 10) 0x0C0A 1 pgMon noBar d).power = u.power :=
      (fault_evolves _ _ _ _ _ _ (m := 11728193) rfl (ev_evolves _ _ _ rfl .rfl)).same .power rfl
    obtain ⟨words, held, mode⟩ := kept
    exact ⟨fun a page off => (recorded.1 a page off).trans (words a page off), by rw [power, held], by rw [power, mode]⟩
  · exact kept

/-- A field of 16 bits. -/
theorem half_lt (s : State) (a : Nat) {hi lo : Nat} (h : hi + 1 - lo = 16) : rdf s a hi lo < 2 ^ 16 := by
  rw [rdf, field, h]
  exact Nat.mod_lt _ (by decide)

/-- The core voltage after AVS has decided lies within 5 mV, and stays while AVS is held; ring counts stay. -/
theorem avsDecided_leaves (u q : State) {vmax vmin : Nat} (top : vmax < 2 ^ 16) (now : vcore u < 2 ^ 16) (same : q.regs = u.regs)
    {held raises lowers : Prop} [Decidable held] [Decidable raises] [Decidable lowers] (up : raises → vcore u < vmax) (down : lowers → vmin < vcore u) :
    let t := if held then u else if raises then setVcore u (min vmax (vcore u + 5)) else if lowers then setVcore q (max vmin (vcore u - 5)) else u
    (held → vcore t = vcore u) ∧ vcore t ≤ vcore u + 5 ∧ vcore u ≤ vcore t + 5 ∧
      ∀ c, c < 8 → rd t (monA (0x100 + 4 * c)) = rd u (monA (0x100 + 4 * c)) := by
  have off (c : Nat) (hc : c < 8) : monA (0x100 + 4 * c) ≠ monA 0x128 ∧ monA (0x100 + 4 * c) ≠ monA 0x80 ∧ monA (0x100 + 4 * c) ≠ monA 0x134 := by
    simp only [monA, ra]
    omega
  have rings (w : State) (v : Nat) (h : v < 2 ^ 16) (c : Nat) (hc : c < 8) : rd (setVcore w v) (monA (0x100 + 4 * c)) = rd w (monA (0x100 + 4 * c)) := by
    obtain ⟨h1, h2, h3⟩ := off c hc
    exact (setVcore_leaves w h).2 _ h1 h2 h3
  intro t
  by_cases stays : held
  · rw [show t = u from if_pos stays]
    exact ⟨fun _ => rfl, by omega, by omega, fun _ _ => rfl⟩
  · by_cases goesUp : raises
    · have bound := up goesUp
      rw [show t = setVcore u (min vmax (vcore u + 5)) from (if_neg stays).trans (if_pos goesUp), (setVcore_leaves u (by omega)).1]
      exact ⟨fun h => absurd h stays, by omega, by omega, rings u _ (by omega)⟩
    · by_cases goesDown : lowers
      · have bound := down goesDown
        rw [show t = setVcore q (max vmin (vcore u - 5)) from (if_neg stays).trans ((if_neg goesUp).trans (if_pos goesDown)),
          (setVcore_leaves q (by omega)).1]
        refine ⟨fun h => absurd h stays, by omega, by omega, fun c hc => (rings q _ (by omega) c hc).trans ?_⟩
        rw [rd, same, rd]
      · rw [show t = u from (if_neg stays).trans ((if_neg goesUp).trans (if_neg goesDown))]
        exact ⟨fun _ => rfl, by omega, by omega, fun _ _ => rfl⟩

/-- A step of AVS up to what it decides: a long time at the highest voltage is recorded. -/
def avsJudged (s : State) (f : Nat) : State :=
  let low := if decide (f < rdf s (monA 0x120) 19 0) && decide (rdf s (monA 0x12C) 31 16 ≤ vcore s) then s.power.avsLow + 1 else 0
  let s' := setPower s { s.power with avsLow := low }
  if low = 10 then fault (ev s' pgMon 10) 0x0C0A 1 pgMon noBar [vcore s, f] else s'

theorem avsJudged_leaves (s : State) (f : Nat) : avsQuiet s (avsJudged s f) := by
  unfold avsJudged
  extract_lets low own w
  exact avsQuiet_recorded s w ⟨fun _ _ _ => rfl, rfl, rfl⟩ _ _

/-- The core voltage after a step of AVS lies within 5 mV, and stays while AVS is held; ring counts stay. -/
theorem avsStep_leaves (s : State) (f : Nat) :
    ((s.power.avsHeld = true ∨ modeOk s.power.voutMode = false) → vcore (avsStep s f) = vcore s) ∧
      vcore (avsStep s f) ≤ vcore s + 5 ∧ vcore s ≤ vcore (avsStep s f) + 5 ∧
      ∀ c, c < 8 → rd (avsStep s f) (monA (0x100 + 4 * c)) = rd s (monA (0x100 + 4 * c)) := by
  obtain ⟨words, held, mode⟩ := avsJudged_leaves s f
  have core : vcore (avsJudged s f) = vcore s := vcore_of_word (words _ (by decide) (by decide))
  have runs : ∃ raises lowers : Prop, ∃ _ : Decidable raises, ∃ _ : Decidable lowers, (raises → vcore s < rdf s (monA 0x12C) 31 16) ∧
      (lowers → rdf s (monA 0x12C) 15 0 < vcore s) ∧ avsStep s f =
        if (avsJudged s f).power.avsHeld = true ∨ modeOk (avsJudged s f).power.voutMode = false then avsJudged s f
        else if raises then setVcore (avsJudged s f) (min (rdf s (monA 0x12C) 31 16) (vcore s + 5))
        else if lowers then setVcore (setPower (avsJudged s f) { (avsJudged s f).power with lastLower := some (ptTotalNs (avsJudged s f)) })
          (max (rdf s (monA 0x12C) 15 0) (vcore s - 5))
        else avsJudged s f := ⟨_, _, _, _, fun h => h.2, fun h => h.2.1, rfl⟩
  obtain ⟨raises, lowers, _, _, up, down, runs⟩ := runs
  generalize avsJudged s f = u at words held mode core runs
  have ends := avsDecided_leaves u (setPower u { u.power with lastLower := some (ptTotalNs u) }) (vmin := rdf s (monA 0x12C) 15 0)
    (half_lt s (monA 0x12C) (hi := 31) (lo := 16) rfl) (by rw [core]; exact half_lt s _ rfl) rfl
    (held := u.power.avsHeld = true ∨ modeOk u.power.voutMode = false) (raises := raises) (lowers := lowers) (by rw [core]; exact up) (by rw [core]; exact down)
  rw [core] at ends
  dsimp only at ends
  rw [← runs, held, mode] at ends
  obtain ⟨stays, high, low, rings⟩ := ends
  exact ⟨stays, high, low, fun c hc => (rings c hc).trans (words _ (by simp only [monA, ra, pgMon]; omega) (by simp only [monA, ra]; omega))⟩

/-- The third failure of a transaction holds the voltage and is recorded. -/
theorem pmbFailed_last (s : State) (cmd : Nat) (last : 2 ≤ s.power.pmbFails) :
    (pmbFailed s cmd).power = { s.power with pmbFails := 0, avsHeld := true, voutRetry := false } ∧ rdb (pmbFailed s cmd) (monA 0x134) 17 = true ∧
      (evPend (pmbFailed s cmd) pgMon).testBit 11 = true ∧ recorded s (pmbFailed s cmd) 0x0C0B 1 := by
  let u := wrf (wrf (setPower s { s.power with pmbFails := 0, avsHeld := true, voutRetry := false }) (monA 0x134) 16 16 0) (monA 0x134) 17 17 1
  have runs : pmbFailed s cmd = fault (ev u pgMon 11) 0x0C0B 1 pgMon noBar [cmd, vcore u] := if_neg (by omega)
  have told : Evolves 8523841 u (ev u pgMon 11) := ev_evolves _ _ _ rfl .rfl
  have frame : Evolves 8785985 s (ev u pgMon 11) :=
    ev_evolves _ _ _ rfl (wrf_evolves _ _ _ _ _ rfl (wrf_evolves _ _ _ _ _ rfl (setPower_evolves _ _ rfl .rfl)))
  have quiet := (monQuiet_ev u pgMon 11).trans (monQuiet_fault (ev u pgMon 11) 0x0C0B 1 pgMon noBar (by decide) [cmd, vcore u])
  rw [runs]
  refine ⟨?_, ?_, ?_, recorded_of_keepsLog (.of frame rfl) (recorded_fault ..)⟩
  · exact ((fault_below_D _ _ _ _ (by decide) _).same .power rfl).trans (told.same .power rfl)
  · rw [rdb, quiet.1 _ (by decide) (by decide), ← rdb]
    exact rdb_wrf_same _ _ 17 1 (by decide)
  · exact testBit_evPend_fault (testBit_evPend_raised _ _ (by decide)) _ _ _ (by decide) _

/-- An earlier failure is tried again. -/
theorem pmbFailed_again (s : State) (cmd : Nat) (again : s.power.pmbFails < 2) :
    (pmbFailed s cmd).power = { s.power with pmbFails := s.power.pmbFails + 1 } ∧ counted s (pmbFailed s cmd) pgMon 12 ∧
      sends s (pmbFailed s cmd) [.pmbus cmd (pmbValue s cmd)] ∧ onlyChanges [.regs, .counters, .power, .out] s (pmbFailed s cmd) ∧
      ∀ a, a ≠ monA 0x134 → rd (pmbFailed s cmd) a = rd s a := by
  let u := setPower s { s.power with pmbFails := s.power.pmbFails + 1 }
  have runs : pmbFailed s cmd = pmbSend (count u pgMon 12) cmd := if_pos again
  have counts : Evolves 64 u (count u pgMon 12) := count_evolves _ _ _ rfl .rfl
  have asks : Evolves 8388609 (count u pgMon 12) (pmbSend (count u pgMon 12) cmd) := pmbSend_evolves _ _ rfl .rfl
  have frame : Evolves 8650817 s (pmbSend (count u pgMon 12) cmd) :=
    pmbSend_evolves _ _ rfl (count_evolves _ _ _ rfl (setPower_evolves _ _ rfl .rfl))
  rw [runs]
  refine ⟨(asks.same .power rfl).trans (counts.same .power rfl), ?_, ?_, frame.only (by decide),
    fun a off => (rd_pmbSend _ _ off).trans (counts.rd_eq rfl a)⟩
  · rw [counted, asks.counter_eq rfl]
    exact counted_count u pgMon 12
  · have value : pmbValue (count u pgMon 12) cmd = pmbValue s cmd := by
      unfold pmbValue
      rw [vcore_of_word (counts.rd_eq rfl _), counts.same .power rfl]
      rfl
    have out : (count u pgMon 12).out = s.out := counts.same .out rfl
    simp only [sends, pmbSend, value, send_fields, wrf_fields, out]

/-! ### Readings of the voltage (R447) -/

theorem voutSeen_ok (s : State) (mv : Nat) (check : Bool) (near : check = false ∨ ((mv : Int) - vcore s).natAbs ≤ 10) :
    (voutSeen s mv check).power = { s.power with pmbFails := 0, avsHeld := false, voutRetry := false } ∧
      rdf (voutSeen s mv check) (monA 0x134) 17 16 = 0 ∧ rd (voutSeen s mv check) (monA 0x138) = mv % 2 ^ 16 ∧
      wordsKept [monA 0x134, monA 0x138] s (voutSeen s mv check) ∧ onlyChanges [.regs, .power] s (voutSeen s mv check) := by
  let u := wr s (monA 0x138) (mv % 2 ^ 16)
  let v := setPower (setPower u { u.power with voutRetry := false }) { u.power with voutRetry := false, pmbFails := 0, avsHeld := false }
  have core : vcore u = vcore s := vcore_of_word (by rw [rd_wr, if_neg (by decide)])
  have within : ¬(check && decide (10 < ((mv : Int) - vcore u).natAbs)) = true := by
    rw [core, Bool.and_eq_true, decide_eq_true_eq]
    rintro ⟨checks, far⟩
    rcases near with off | close
    · exact absurd (checks.symm.trans off) (by decide)
    · omega
  have runs : voutSeen s mv check = wrf v (monA 0x134) 17 16 0 := (if_neg within).trans rfl
  have word (a : Nat) : rd v a = rd u a := rfl
  rw [runs]
  have frame : Evolves 262145 s (wrf v (monA 0x134) 17 16 0) :=
    wrf_evolves _ _ _ _ _ rfl (setPower_evolves _ _ rfl (setPower_evolves _ _ rfl (wr_evolves _ _ _ rfl .rfl)))
  refine ⟨?_, rdf_wrf_same _ _ _ (by decide) (by decide), ?_, fun a off => ?_, frame.only (by decide)⟩
  · exact ((wrf_evolves v _ _ _ _ (m := 1) rfl .rfl).same .power rfl).trans rfl
  · rw [rd_wrf_other _ _ _ _ (by decide), word, rd_wr_same]
    omega
  · simp only [List.mem_cons, List.not_mem_nil, or_false, not_or] at off
    rw [rd_wrf_other _ _ _ _ off.1, word, rd_wr, if_neg off.2]

/-- A check of READ_VOUT that finds the voltage too far off fails like a transaction. -/
theorem voutSeen_far (s : State) (mv : Nat) (far : 10 < ((mv : Int) - vcore s).natAbs) :
    let u := wr s (monA 0x138) (mv % 2 ^ 16)
    voutSeen s mv true = pmbFailed (setPower u { u.power with voutRetry := true }) pmbReadVout := by
  have core : vcore (wr s (monA 0x138) (mv % 2 ^ 16)) = vcore s := vcore_of_word (by rw [rd_wr, if_neg (by decide)])
  exact if_pos (by rw [core, Bool.true_and]; exact decide_eq_true far)

end Sys2Proof.Machine

namespace Sys2Proof.Proofs
open Sys2Proof Sys2Proof.Machine

/-- A conversion of the rails (R443). -/
theorem railsConverted (s : State) (mv : List Nat) (ap : Nat) :
    (monitoring s = false → exec (.voltageConversion ⟨mv, ap⟩) s = .next s) ∧
    (monitoring s = true →
      let value (c v : Nat) : Prop := c < 12 ∧ (mv.map (adcValue s ap))[c]? = some v
      completes (.voltageConversion ⟨mv, ap⟩) s (fun t =>
        (∀ c v, value c v → rd t (monA (0x40 + 4 * c)) = v % 2 ^ 16) ∧
          (∀ c v, value c v → within (rd s (monA (0x80 + 4 * c))) v = false → counted s t pgMon c) ∧
          (∀ c v, value c v → within (rd s (monA (0xC0 + 4 * c))) v = true → (getRail t c).crit = 0) ∧
          (∀ c v, value c v → within (rd s (monA (0xC0 + 4 * c))) v = false → (getRail s c).crit = 1 →
            (getRail s c).critical = false → (getRail t c).critical = true ∧ (evPend t pgMon).testBit 9 = true ∧
              t.sys.stopped = true) ∧
          t.power.pstate = s.power.pstate)) := by
  refine ⟨fun off => congrArg Host.Outcome.next (if_neg (by rw [off]; decide)), fun on => ?_⟩
  intro value
  have runs := exec_voltageConversion mv ap on
  dsimp only at runs
  obtain ⟨vs, hvs⟩ : ∃ vs, (mv.take 12).map (adcValue s ap) = vs := ⟨_, rfl⟩
  have short : vs.length ≤ 12 := by
    rw [← hvs, List.length_map, List.length_take]
    exact Nat.min_le_left _ _
  have readings {c v : Nat} (h : value c v) : vs[c]? = some v := by
    obtain ⟨low, reads⟩ := h
    rw [← hvs, List.map_take, List.getElem?_take_of_lt low]
    exact reads
  rw [hvs] at runs
  obtain ⟨shown, words⟩ := railsShown_leaves vs short s
  have word {c v : Nat} (h : value c v) := railsShown_word (readings h) s
  have power : (railsShown vs s).power = s.power := shown.same .power rfl
  generalize railsShown vs s = a at *
  obtain ⟨quiet, -, rails, -⟩ := eachRail_quiet vs a
  have warns {c v : Nat} (h : value c v) := eachRail_warn_counts (readings h) short a
  generalize eachRail vs warnCheck a = b at *
  obtain ⟨-, quiet', -, counts⟩ := eachRail_quiet vs b
  have crits {c v : Nat} (h : value c v) := eachRail_crit (readings h) short b
  generalize eachRail vs critCheck b = d at *
  have both := quiet.trans quiet'
  have limits {c : Nat} (hc : c < 12) (o : Nat) (low : 0x70 ≤ o) (high : o < 0xD0) :
      rd a (monA (o + 4 * c)) = rd s (monA (o + 4 * c)) ∧ rd b (monA (o + 4 * c)) = rd a (monA (o + 4 * c)) := by
    obtain ⟨above, page, off⟩ := limitWord (c := c) hc low high
    exact ⟨words _ above, quiet.1 _ page off⟩
  refine ⟨_, runs, fun c v h => ?_, fun c v h out => ?_, fun c v h inside => ?_, fun c v h out crit critical => ?_, ?_⟩
  · have low := h.1
    exact (both.1 _ (by simp only [monA, ra, pgMon]; omega) (by simp only [monA, ra]; omega)).trans (word h)
  · have low := h.1
    have warned := warns h (by rw [(limits low 0x80 (by decide) (by decide)).1]; exact out)
    have same : counter d pgMon c = counter b pgMon c := counts c (by omega)
    have start : counter a pgMon c = counter s pgMon c := shown.counter_eq rfl _ _
    rw [counted, start] at warned
    exact same.trans warned
  · have low := h.1
    obtain ⟨first, second⟩ := limits low 0xC0 (by decide) (by decide)
    exact (crits h).1 (by rw [second, first]; exact inside)
  · have low := h.1
    obtain ⟨first, second⟩ := limits low 0xC0 (by decide) (by decide)
    obtain ⟨sameCrit, sameCritical⟩ := rails c
    exact (crits h).2 (by rw [second, first]; exact out) (by rw [sameCrit, getRail_of_power power, crit])
      (by rw [sameCritical, getRail_of_power power, critical])
  · exact both.2.2.trans (congrArg Power.pstate power)

/-- Ring counts and the step of AVS (R444, R445). -/
theorem ringsCounted (s : State) (cs : List Nat) :
    (monitoring s = false ∨ cs.length ≠ 8 → exec (.roCount cs) s = .next s) ∧
    (monitoring s = true → cs.length = 8 →
      completes (.roCount cs) s (fun t =>
        (∀ c v, c < 8 → cs[c]? = some v → rd t (monA (0x100 + 4 * c)) = v % 2 ^ 20) ∧
          ((rdb s (monA 0x120) 31 = false ∨ dozing s = true ∨ s.power.avsHeld = true ∨ modeOk s.power.voutMode = false) →
            vcore t = vcore s) ∧
          vcore t ≤ vcore s + 5 ∧ vcore s ≤ vcore t + 5)) := by
  refine ⟨fun off => congrArg Host.Outcome.next (if_pos off), fun on eight => ?_⟩
  let shown := (List.range 8).foldl (fun s c => wr s (monA (0x100 + 4 * c)) ((cs[c]?).getD 0 % 2 ^ 20)) s
  have runs : exec (.roCount cs) s = .next (if rdb shown (monA 0x120) 31 && !dozing shown then avsStep shown (cs.foldl min (2 ^ 20)) else shown) :=
    congrArg Host.Outcome.next (if_neg (by rw [on, eight]; decide))
  have frame : Evolves 1 s shown := Evolves.rfl.foldl fun _ _ h => wr_evolves _ _ _ rfl h
  have rings (c v : Nat) (hc : c < 8) (reads : cs[c]? = some v) : rd shown (monA (0x100 + 4 * c)) = v % 2 ^ 20 := by
    refine foldl_phase (before := fun _ => True) (after := fun u => rd u (monA (0x100 + 4 * c)) = v % 2 ^ 20) List.nodup_range
      (List.mem_range.2 hc) (fun _ _ _ _ h => h) (fun u _ => ?_) (fun u y hy off done => ?_) trivial
    · rw [rd_wr_same, reads, Option.getD_some]
      omega
    · rw [rd_wr, if_neg (by simp only [monA, ra]; omega)]
      exact done
  have words (a : Nat) (high : monA 0x120 ≤ a) : rd shown a = rd s a := by
    refine foldl_kept (fun u => rd u a = rd s a) (fun u c hc kept => ?_) rfl
    have low := List.mem_range.1 hc
    rw [rd_wr, if_neg (by simp only [monA, ra] at high ⊢; omega)]
    exact kept
  have power : shown.power = s.power := frame.same .power rfl
  clear_value shown
  have core : vcore shown = vcore s := vcore_of_word (words _ (by decide))
  have enable : rdb shown (monA 0x120) 31 = rdb s (monA 0x120) 31 := by rw [rdb, words _ (le_refl _), ← rdb]
  have sleeps : dozing shown = dozing s := by rw [dozing, power, ← dozing]
  refine ⟨_, runs, ?_⟩
  obtain ⟨stays, high, low, kept⟩ := avsStep_leaves shown (cs.foldl min (2 ^ 20))
  rw [core, power] at stays
  rw [core] at high low
  rw [enable, sleeps]
  split
  · next steps =>
    rw [Bool.and_eq_true, Bool.not_eq_true'] at steps
    refine ⟨fun c v hc reads => (kept c hc).trans (rings c v hc reads), fun held => ?_, high, low⟩
    rcases held with off | dozes | held
    · exact absurd (steps.1.symm.trans off) (by decide)
    · exact absurd (steps.2.symm.trans dozes) (by decide)
    · exact stays held
  · exact ⟨rings, fun _ => core, by omega, by omega⟩

/-- VOUT_MODE read from the regulator (R446). -/
theorem modeRead (s : State) (on : monitoring s = true) (mode reading : Nat) :
    completes (.pmbusTransaction 0x20 (.ok mode reading)) s (fun t =>
      t.power = { s.power with pmbFails := 0, avsHeld := false, voutMode := mode % 256 } ∧
        (modeOk (mode % 256) = false → recorded s t 0x0C0B 1)) := by
  have runs : exec (.pmbusTransaction 0x20 (.ok mode reading)) s = .next (if modeOk (mode % 256) then
      setPower (pmbOk s) { (pmbOk s).power with voutMode := mode % 256 } else
      fault (ev (setPower (pmbOk s) { (pmbOk s).power with voutMode := mode % 256 }) pgMon 11) 0x0C0B 1 pgMon noBar [0x20, mode % 256]) := by
    rw [show exec (.pmbusTransaction 0x20 (.ok mode reading)) s = execPmbusTransaction 0x20 (.ok mode reading) s from rfl, execPmbusTransaction, if_pos on]
    dsimp only
    rw [if_neg (by decide), if_pos (c := 0x20 = pmbVoutMode) rfl]
  have done : (pmbOk s).power = { s.power with pmbFails := 0, avsHeld := false } :=
    (wrf_evolves (setPower s { s.power with pmbFails := 0, avsHeld := false }) (monA 0x134) 17 16 0 (m := 1) rfl .rfl).same .power rfl
  have seen : Evolves 262145 s (pmbOk s) := pmbOk_evolves _ rfl .rfl
  generalize pmbOk s = u at runs done seen
  have set : (setPower u { u.power with voutMode := mode % 256 }).power = { s.power with pmbFails := 0, avsHeld := false, voutMode := mode % 256 } := by
    rw [show (setPower u { u.power with voutMode := mode % 256 }).power = { u.power with voutMode := mode % 256 } from rfl, done]
  have moded : Evolves 262145 s (setPower u { u.power with voutMode := mode % 256 }) := setPower_evolves _ _ rfl seen
  generalize setPower u { u.power with voutMode := mode % 256 } = v at runs set moded
  refine ⟨_, runs, ?_⟩
  split
  · next ok => exact ⟨set, fun bad => absurd (ok.symm.trans bad) (by decide)⟩
  · have told : Evolves 8523841 v (ev v pgMon 11) := ev_evolves _ _ _ rfl .rfl
    have frame : Evolves 8785985 s (ev v pgMon 11) := ev_evolves _ _ _ rfl (moded.mono rfl)
    exact ⟨((fault_below_D _ _ _ _ (by decide) _).same .power rfl).trans ((told.same .power rfl).trans set),
      fun _ => recorded_of_keepsLog (.of frame rfl) (recorded_fault ..)⟩

theorem exec_readVout (on : monitoring s = true) (mode reading : Nat) : exec (.pmbusTransaction 0x8B (.ok mode reading)) s =
    .next (voutSeen s (roundHalfUp (1000 * reading) (2 ^ modeExp s.power.voutMode)).toNat s.power.voutRetry) := by
  rw [show exec (.pmbusTransaction 0x8B (.ok mode reading)) s = execPmbusTransaction 0x8B (.ok mode reading) s from rfl, execPmbusTransaction, if_pos on]
  dsimp only
  rw [if_pos (c := 0x8B = pmbReadVout) rfl]

/-- READ_VOUT 1 ms after a change of the voltage, too far off (R447). -/
theorem voutFar (s : State) (mv : Nat) (on : monitoring s = true) (far : 10 < ((mv : Int) - vcore s).natAbs) :
    (s.power.pmbFails < 2 → completes (.voutCheck mv) s (fun t =>
      rd t (monA 0x138) = mv % 2 ^ 16 ∧ t.power = { s.power with pmbFails := s.power.pmbFails + 1, voutRetry := true } ∧ counted s t pgMon 12)) ∧
    (2 ≤ s.power.pmbFails → completes (.voutCheck mv) s (fun t => t.power.avsHeld = true ∧ recorded s t 0x0C0B 1)) := by
  have runs : exec (.voutCheck mv) s = .next (pmbFailed (setPower (wr s (monA 0x138) (mv % 2 ^ 16))
      { (wr s (monA 0x138) (mv % 2 ^ 16)).power with voutRetry := true }) pmbReadVout) := by
    rw [show exec (.voutCheck mv) s = execVoutCheck mv s from rfl, execVoutCheck, if_pos on, voutSeen_far s mv far]
  have frame : Evolves 262145 s (setPower (wr s (monA 0x138) (mv % 2 ^ 16)) { (wr s (monA 0x138) (mv % 2 ^ 16)).power with voutRetry := true }) :=
    setPower_evolves _ _ rfl (wr_evolves s _ _ rfl .rfl)
  have word : rd (setPower (wr s (monA 0x138) (mv % 2 ^ 16)) { (wr s (monA 0x138) (mv % 2 ^ 16)).power with voutRetry := true }) (monA 0x138) =
      mv % 2 ^ 16 % 2 ^ 32 := rd_wr_same s (monA 0x138) (mv % 2 ^ 16)
  have power : (setPower (wr s (monA 0x138) (mv % 2 ^ 16)) { (wr s (monA 0x138) (mv % 2 ^ 16)).power with voutRetry := true }).power =
      { s.power with voutRetry := true } := rfl
  have counts : counter (setPower (wr s (monA 0x138) (mv % 2 ^ 16)) { (wr s (monA 0x138) (mv % 2 ^ 16)).power with voutRetry := true }) pgMon 12 =
      counter s pgMon 12 := frame.counter_eq rfl pgMon 12
  generalize setPower (wr s (monA 0x138) (mv % 2 ^ 16)) { (wr s (monA 0x138) (mv % 2 ^ 16)).power with voutRetry := true } = u at runs frame word power counts
  have fails : u.power.pmbFails = s.power.pmbFails := (congrArg Power.pmbFails power).trans rfl
  refine ⟨fun again => ?_, fun last => ?_⟩
  · obtain ⟨power', counted', -, -, words⟩ := pmbFailed_again u pmbReadVout (by rw [fails]; exact again)
    refine ⟨_, runs, ?_, ?_, ?_⟩
    · rw [words _ (by decide), word]
      omega
    · rw [power', power]
    · rw [counted, counts] at counted'
      exact counted'
  · obtain ⟨power', -, -, record⟩ := pmbFailed_last u pmbReadVout (by rw [fails]; exact last)
    exact ⟨_, runs, (congrArg Power.avsHeld power').trans rfl, recorded_of_keepsLog (.of frame rfl) record⟩

/-- Transactions with the regulator and its readings (R446, R447). -/
theorem monitorsRule : MonitorsRule := by
  refine ⟨railsConverted, ringsCounted, fun s cmd => ⟨fun r off => ?_, fun on => ⟨fun again => ?_, fun last => ?_, ?_, ?_⟩⟩,
    fun s mv => ⟨fun off => ?_, fun on near => ?_, fun on far => (voutFar s mv on far).1, fun on far => (voutFar s mv on far).2⟩⟩
  · exact congrArg Host.Outcome.next (if_neg (by rw [off]; decide))
  · obtain ⟨power, counts, sent, only, -⟩ := pmbFailed_again s cmd again
    exact ⟨_, congrArg Host.Outcome.next (if_pos on), power, counts, sent, only⟩
  · exact ⟨_, congrArg Host.Outcome.next (if_pos on), pmbFailed_last s cmd last⟩
  · intro mode reading read mv near
    subst read
    exact ⟨_, exec_readVout on mode reading, voutSeen_ok s _ s.power.voutRetry near⟩
  · intro mode reading ask
    subst ask
    exact modeRead s on mode reading
  · exact congrArg Host.Outcome.next (if_neg (by rw [off]; decide))
  · obtain ⟨power, -, word, -, only⟩ := voutSeen_ok s mv true (.inr near)
    exact ⟨_, congrArg Host.Outcome.next (if_pos on), word, power, only⟩

/-- Settles O55: temperatures, supplies, ring oscillators and the regulator (R434, R435, R438 to R440, R443 to R447). -/
theorem thermalAndMonitors : Obligations.ThermalAndMonitors := ⟨thermalRule, monitorsRule⟩

end Sys2Proof.Proofs
end

section
/-! PROOFS. Display (R461, R462, R467 to R471, R473): the display link, its frames, and the commits at the latch. -/

namespace Sys2Proof.Machine
open Sys2Proof

variable {s t : State}

/-! ### The link (R461, R462) -/

/-- What a link that could not be trained leaves. -/
theorem linkFail_leaves (s : State) : (linkFail s).disp = { s.disp with state := 4 } ∧ recorded s (linkFail s) 0x0E01 1 ∧
    (linkFail s).committed = s.committed := by
  have frame : Evolves 11669569 (setDisp s { s.disp with state := 4 }) (linkFail s) := fault_below_D _ _ _ _ (by decide) _
  exact ⟨frame.same .disp rfl, recorded_of_keepsLog (keepsLog.of (m := 524288) (setDisp_evolves s _ rfl .rfl) rfl) (recorded_fault ..),
    frame.same .committed rfl⟩

/-- What a training that begins leaves. -/
theorem trainAt_leaves (s : State) (r : Nat) :
    (trainAt s r).disp = { s.disp with state := 1, rate := r, lanes := field (dcm s 0x40) 9 8 } ∧ sends s (trainAt s r) [.disp 0] ∧
      counted s (trainAt s r) pgDisp 6 ∧ onlyChanges [.counters, .disp, .out] s (trainAt s r) := by
  let u := setDisp s { s.disp with state := 1, rate := r, lanes := field (dcm s 0x40) 9 8 }
  have counts : Evolves 64 u (count u pgDisp 6) := count_evolves _ _ _ rfl .rfl
  refine ⟨?_, ?_, ?_, (trainAt_evolves s r (m := 8912960) rfl .rfl).only (by decide)⟩
  · exact (counts.same .disp rfl).trans rfl
  · have out : (count u pgDisp 6).out = s.out := counts.same .out rfl
    rw [sends, ← out]
    rfl
  · exact counted_count u pgDisp 6

theorem chooseRate_spec {cfg pclk panel r : Nat} (h : chooseRate cfg pclk panel = some r) :
    r < 3 ∧ r ≤ field cfg 5 4 ∧ r ≤ panel ∧ rateFits cfg pclk r = true ∧ ∀ q, q < r → rateFits cfg pclk q = false := by
  obtain ⟨fits, i, hi, at_, before⟩ := List.find?_eq_some_iff_getElem.1 h
  simp only [List.getElem_range] at at_ before
  subst at_
  simp only [List.length_range] at hi
  simp only [Bool.and_eq_true, decide_eq_true_eq] at fits
  obtain ⟨⟨top, most⟩, fits⟩ := fits
  refine ⟨hi, top, most, fits, fun q hq => ?_⟩
  have fails := before q hq
  rw [decide_eq_true (hq.le.trans top), decide_eq_true (hq.le.trans most)] at fails
  simpa using fails

/-- A start of the link with the panel there and the page enabled. -/
theorem dispStart_up (on : pgEn s pgDisp = true) (there : s.disp.hpd = true) (up : dozing s = false) :
    (s.disp.maxLanes < dispLanes (field (dcm s 0x40) 9 8) ∨ chooseRate (dcm s 0x40) (field (dcm s 0x44) 18 0) s.disp.maxRate = none →
      dispStart s = linkFail s) ∧
    (dispLanes (field (dcm s 0x40) 9 8) ≤ s.disp.maxLanes → ∀ r, chooseRate (dcm s 0x40) (field (dcm s 0x44) 18 0) s.disp.maxRate = some r →
      dispStart s = trainAt s r) := by
  unfold dispStart
  rw [if_pos (by rw [on, there, up]; rfl)]
  refine ⟨fun none => ?_, fun lanes r rate => ?_⟩
  · split
    · rfl
    · next enough =>
      rw [none.resolve_left enough]
  · rw [if_neg (not_lt.2 lanes), rate]

theorem dispStart_down (off : pgEn s pgDisp = false ∨ s.disp.hpd = false ∨ dozing s = true) : dispStart s = s := by
  unfold dispStart
  refine if_neg ?_
  rcases off with h | h | h <;> simp [h]

/-! ### The check of a commit (R471) -/

section Check
variable (words : ∀ a, a ≠ dispA 0x24 → rd t a = rd s a)
include words

theorem dispWord_kept {o : Nat} (h : o ≠ 0x24) : rd t (dispA o) = rd s (dispA o) := words _ (by simp only [dispA, ra]; omega)

theorem ctxWord_kept {x : Nat} (hx : x < 8) {o : Nat} (ho : o < 0x40) : rd t (ctxA x o) = rd s (ctxA x o) :=
  words _ (by simp only [ctxA, dispA, ra, pgIsp, pgDisp]; omega)

theorem timingOk_kept : timingOk t = timingOk s := by
  unfold timingOk
  simp only [dispWord_kept words (o := 0x44) (by decide), dispWord_kept words (o := 0x48) (by decide), dispWord_kept words (o := 0x4C) (by decide),
    dispWord_kept words (o := 0x50) (by decide), dispWord_kept words (o := 0x54) (by decide)]

theorem shadowLayers_kept : shadowLayers t = shadowLayers s := by
  unfold shadowLayers
  refine List.filter_congr fun l _ => ?_
  rw [rdb, dispWord_kept words (by omega), ← rdb]

theorem layerFits_kept (l : Nat) : layerFits t l = layerFits s l := by
  have word (o : Nat) : rd t (dispA (0x80 + 0x20 * l + o)) = rd s (dispA (0x80 + 0x20 * l + o)) := dispWord_kept words (by omega)
  have active (o : Nat) (h : o ≠ 0x24) : rdf t (dispA o) 27 16 = rdf s (dispA o) 27 16 := rdf_eq_of_rd (dispWord_kept words h) _ _
  have lines (o : Nat) (h : o ≠ 0x24) : rdf t (dispA o) 26 16 = rdf s (dispA o) 26 16 := rdf_eq_of_rd (dispWord_kept words h) _ _
  unfold layerFits
  simp only [word, active 0x48 (by decide), lines 0x50 (by decide)]

theorem ringFits_kept : ringFits t = ringFits s := by
  have depth : rdf t (dispA 0x94) 13 0 = rdf s (dispA 0x94) 13 0 := rdf_eq_of_rd (dispWord_kept words (by decide)) _ _
  have follows : rdb t (dispA 0xA0) 30 = rdb s (dispA 0xA0) 30 := by rw [rdb, dispWord_kept words (by decide), ← rdb]
  have lines (l : Nat) : rdf t (dispA (0x88 + 0x20 * l)) 26 16 = rdf s (dispA (0x88 + 0x20 * l)) 26 16 :=
    rdf_eq_of_rd (dispWord_kept words (by omega)) _ _
  unfold ringFits
  simp only [shadowLayers_kept words, depth, follows, lines]

theorem dispAreas_kept : dispAreas t = dispAreas s := by
  have word (l o : Nat) : rd t (dispA (0x80 + 0x20 * l + o)) = rd s (dispA (0x80 + 0x20 * l + o)) := dispWord_kept words (by omega)
  have field_ (o hi lo : Nat) (h : o ≠ 0x24) : rdf t (dispA o) hi lo = rdf s (dispA o) hi lo := rdf_eq_of_rd (dispWord_kept words h) _ _
  unfold dispAreas
  simp only [shadowLayers_kept words, word, dispWord_kept words (o := 0xE0) (by decide), field_ 0x94 13 0 (by decide), field_ 0xEC 27 0 (by decide),
    field_ 0xF0 13 0 (by decide), field_ 0x88 11 0 (by decide)]

theorem ctxAreas_kept {x : Nat} (hx : x < 8) : ctxOn t x = ctxOn s x ∧ ctxAreas t x = ctxAreas s x := by
  have src : ctxSrc t x = ctxSrc s x := ctxWord_kept words hx (by decide)
  have width : ctxWidth t x = ctxWidth s x := rdf_eq_of_rd (ctxWord_kept words hx (by decide)) _ _
  have height : ctxHeight t x = ctxHeight s x := rdf_eq_of_rd (ctxWord_kept words hx (by decide)) _ _
  have start (o : Nat) (ho : o < 0x40) : rdf t (ctxA x o) 17 0 = rdf s (ctxA x o) 17 0 := rdf_eq_of_rd (ctxWord_kept words hx ho) _ _
  have taps (n : Nat) : tapArea t x n = tapArea s x n := by
    have on : tapOn t x = tapOn s x := funext fun _ => by rw [tapOn, src, tapOn]
    unfold tapArea
    simp only [on, tapSize, width, height]
  exact ⟨by rw [ctxOn, src, ctxOn], by rw [ctxAreas, start _ (by decide), start _ (by decide), captureSize, width, height, taps]; rfl⟩

theorem dispClash_kept (committed : t.committed = s.committed) : dispClash t = dispClash s := by
  have fixed : fixedAreas t = fixedAreas s := by simp only [fixedAreas, cmf, cm, committed]
  have size : drgSize t = drgSize s := by
    have dense : density_ t = density_ s := rdf_eq_of_rd (words _ (by decide)) _ _
    rw [drgSize, installed, dense]
    rfl
  have contexts : (List.range 8).filter (ctxOn t) = (List.range 8).filter (ctxOn s) :=
    List.filter_congr fun x hx => (ctxAreas_kept words (List.mem_range.1 hx)).1
  have areas : ((List.range 8).filter (ctxOn s)).flatMap (ctxAreas t) = ((List.range 8).filter (ctxOn s)).flatMap (ctxAreas s) :=
    List.flatMap_congr fun x hx => (ctxAreas_kept words (List.mem_range.1 (List.mem_filter.1 hx).1)).2
  unfold dispClash
  rw [fixed, contexts, areas, dispAreas_kept words, size]

/-- The check of a commit reads shadows, committed words and what the panel can do, and no event. -/
theorem dispCheck_kept (committed : t.committed = s.committed) (hpd : t.disp.hpd = s.disp.hpd) (rate : t.disp.maxRate = s.disp.maxRate) :
    dispCheck t = dispCheck s := by
  have fits : layerFits t = layerFits s := funext fun l => layerFits_kept words l
  unfold dispCheck
  rw [timingOk_kept words, dispWord_kept words (by decide), rdf_eq_of_rd (dispWord_kept words (by decide)) 18 0, hpd, rate, shadowLayers_kept words,
    fits, ringFits_kept words, dispClash_kept words committed]

end Check

/-! ### The bytes of a frame (R463, R472) -/

/-- What a frame shows follows from the committed words, the display and image memory. -/
theorem frameBytes_kept (committed : t.committed = s.committed) (disp : t.disp = s.disp) (dram : t.dram = s.dram) (x y w h : Nat) :
    frameBytes t x y w h = frameBytes s x y w h := by
  have word : dcm t = dcm s := funext fun o => by rw [dcm, cm, committed, ← cm, ← dcm]
  have layers : layer t = layer s := funext fun l => funext fun o => by rw [layer, word, ← layer]
  have left : layerX t = layerX s := funext fun l => by rw [layerX, layers, ← layerX]
  have top : layerY t = layerY s := funext fun l => by rw [layerY, layers, ← layerY]
  have width : layerW t = layerW s := funext fun l => by rw [layerW, layers, ← layerW]
  have height : layerH t = layerH s := funext fun l => by rw [layerH, layers, ← layerH]
  have active : hActive t = hActive s := by rw [hActive, word, ← hActive]
  have covers : layerCovers t = layerCovers s := by
    funext l x y idx
    rw [layerCovers, layerOn, layers, left, top, width, height, disp, ← layerOn, ← layerCovers]
  have line : layerLine t = layerLine s := by
    funext l dy
    rw [layerLine, layerRing, layers, ringDepth, word, height, disp, ← layerRing, ← ringDepth, ← layerLine]
  have pixel : layerPixel t = layerPixel s := by
    funext l dx dy
    rw [layerPixel, layerBase, layerStride, layers, line, word, dram, ← layerBase, ← layerStride, ← layerPixel]
  have shown : framePixel t = framePixel s := by
    funext x y
    rw [framePixel, disp, word, covers, pixel, active, left, top, layers, ← framePixel]
  have parts : component t = component s := funext fun v => by rw [component, word, ← component]
  rw [frameBytes, shown, parts, ← frameBytes]

/-! ### The latch (R467, R470, R471) -/

/-- The display at the latch, before a commit is applied. -/
def latchDisp (s : State) : Disp :=
  { s.disp with shown := s.disp.newest, lastActive := false, offLayers := [], armedLate := false, state := 2, scanLine := vActive s,
                scanNs := ptTotalNs s, switching := s.disp.switching && !(s.disp.state == 3) }

/-- The state at the latch, before a commit is applied. -/
def latched (s : State) : State :=
  if s.disp.state == 3 then ev (setDisp s (latchDisp s)) pgDisp 12 else setDisp s (latchDisp s)

theorem latched_evolves (s : State) : Evolves 9048129 s (latched s) :=
  .ite (fun _ => ev_evolves _ _ _ rfl (setDisp_evolves s _ rfl .rfl)) (fun _ => setDisp_evolves s _ rfl .rfl)

theorem disp_latched (s : State) : (latched s).disp = latchDisp s := by
  unfold latched
  split
  · exact (ev_evolves (setDisp s (latchDisp s)) pgDisp 12 (m := 8523841) rfl .rfl).same .disp rfl
  · rfl

theorem wordsKept_latched (s : State) : wordsKept [dispA 0x24] s (latched s) := by
  unfold latched
  split
  · exact wordsKept_ev (setDisp s (latchDisp s)) pgDisp 12
  · exact fun _ _ => rfl

theorem rd_latched (s : State) {a : Nat} (h : a ≠ dispA 0x24) : rd (latched s) a = rd s a := wordsKept_latched s a (by simpa using h)

theorem raised_latched (black : s.disp.state = 3) : raised s (latched s) pgDisp 12 := by
  rw [latched, if_pos (by rw [black]; rfl)]
  exact raised_ev (setDisp s (latchDisp s)) pgDisp (by decide)

theorem commitPending_latched (s : State) : commitPending (latched s) pgDisp = commitPending s pgDisp := by
  rw [commitPending, rdb, rd_latched s (by decide), ← rdb, ← commitPending]

theorem dispCheck_latched (s : State) : dispCheck (latched s) = dispCheck s :=
  dispCheck_kept (fun _ h => rd_latched s h) ((latched_evolves s).same .committed rfl) (by rw [disp_latched]; rfl) (by rw [disp_latched]; rfl)

/-- The latch ends with the scan at the end of the active lines. -/
def scanFrom (t : State) : State := setDisp t { t.disp with scanLine := vActive t }

theorem exec_latch (run : dispRunning s = true) :
    exec .latch s = .next (scanFrom (if commitPending s pgDisp && !s.disp.armedLate then dispCommit (latched s) else latched s)) := by
  rw [← commitPending_latched]
  exact congrArg Host.Outcome.next (if_pos run)

/-- A new mode retrains the link or shows black, and leaves the shadows, the committed words and the frame shown. -/
theorem switchMode_leaves (s : State) :
    (switchMode s).committed = s.committed ∧ (∀ a, a % 4096 ≠ 0x24 → rd (switchMode s) a = rd s a) ∧
      (∀ p i, (evPend s p).testBit i = true → (evPend (switchMode s) p).testBit i = true) ∧
      (switchMode s).disp.shown = s.disp.shown := by
  let u := send (setDisp s { s.disp with switching := true }) (.disp 2)
  have begins : Evolves 8912896 s u := send_evolves _ _ rfl (setDisp_evolves s _ rfl .rfl)
  have fails : (linkFail u).committed = s.committed ∧ (∀ a, a % 4096 ≠ 0x24 → rd (linkFail u) a = rd s a) ∧
      (∀ p i, (evPend s p).testBit i = true → (evPend (linkFail u) p).testBit i = true) ∧ (linkFail u).disp.shown = s.disp.shown := by
    obtain ⟨disp, -, committed⟩ := linkFail_leaves u
    exact ⟨committed, fun a h => rd_linkFail u h, fun p i h => testBit_evPend_fault (s := setDisp u { u.disp with state := 4 }) h _ _ _ (by decide) _,
      (congrArg Disp.shown disp).trans rfl⟩
  have trains (r : Nat) : (trainAt u r).committed = s.committed ∧ (∀ a, a % 4096 ≠ 0x24 → rd (trainAt u r) a = rd s a) ∧
      (∀ p i, (evPend s p).testBit i = true → (evPend (trainAt u r) p).testBit i = true) ∧ (trainAt u r).disp.shown = s.disp.shown := by
    have train := trainAt_evolves u r (m := 8912960) rfl .rfl
    exact ⟨train.same .committed rfl, fun a _ => train.rd_eq rfl a, fun p i h => (evPend_of_regs (train.same .regs rfl) p).symm ▸ h,
      (congrArg Disp.shown (trainAt_leaves u r).1).trans rfl⟩
  unfold switchMode
  dsimp only
  split
  · split_ifs
    · exact fails
    · exact trains _
    · exact ⟨rfl, fun _ _ => rfl, fun _ _ h => h, rfl⟩
  · exact fails

/-- The word of commits after PENDING is cleared. -/
theorem commitPending_cleared (s : State) : commitPending (wr s (ra pgDisp 0x18) (rd s (ra pgDisp 0x18) &&& 0xA)) pgDisp = false := by
  rw [commitPending, rdb, rd_wr_same, bitOf, Nat.testBit_mod_two_pow, Nat.testBit_and, show Nat.testBit 0xA 2 = false from by decide,
    Bool.and_false, Bool.and_false]

theorem commitPending_of_rd (h : rd t (ra pgDisp 0x18) = rd s (ra pgDisp 0x18)) : commitPending t pgDisp = commitPending s pgDisp := by
  rw [commitPending, rdb, h, ← rdb, ← commitPending]

theorem commitPending_commitDone (s : State) : commitPending (commitDone s pgDisp) pgDisp = false := by
  rw [commitDone, commitPending_of_rd (wordsKept_ev _ pgDisp 0 _ (by decide)), commitPending_cleared]

theorem commitPending_commitRefused (s : State) : commitPending (commitRefused s pgDisp) pgDisp = false := by
  rw [commitRefused, commitPending_of_rd (wordsKept_ev _ pgDisp 2 _ (by decide)), commitPending_cleared]

theorem shadowAddrs_disp {a : Nat} (h : a ∈ shadowAddrs pgDisp) : a ∈ blockShadows pgDisp ∧ a % 4096 ≠ 0x24 := by
  have all : ∀ a ∈ shadowAddrs pgDisp, a ∈ blockShadows pgDisp := fun a h => List.mem_flatMap.2 ⟨pgDisp, by decide, h⟩
  have none : (shadowAddrs pgDisp).all (fun a => a % 4096 != 0x24) = true := by decide +kernel
  exact ⟨all a h, by simpa using List.all_eq_true.1 none a h⟩

/-- A commit that passes its check. -/
theorem dispCommit_sound (ok : dispCheck s = 0) :
    (∀ a ∈ shadowAddrs pgDisp, cm (dispCommit s) a = rd s a) ∧ commitPending (dispCommit s) pgDisp = false ∧
      (evPend (dispCommit s) pgDisp).testBit 0 = true ∧ (dispCommit s).disp.shown = s.disp.shown := by
  let u := commitDone (copyShadows s pgDisp) pgDisp
  have done : Evolves 8523841 (copyShadows s pgDisp) u := commitDone_evolves _ _ rfl .rfl
  have copied (a : Nat) (h : a ∈ shadowAddrs pgDisp) : cm u a = rd s a := by
    rw [cm, done.same .committed rfl, ← cm, cm_copyShadows, if_pos (shadowAddrs_disp h).1]
  have cleared : commitPending u pgDisp = false := commitPending_commitDone _
  have told : (evPend u pgDisp).testBit 0 = true := testBit_evPend_raised _ _ (by decide)
  have shown : u.disp.shown = s.disp.shown :=
    congrArg Disp.shown ((done.same .disp rfl).trans ((copyShadows_evolves s pgDisp (m := 2) rfl .rfl).same .disp rfl))
  unfold dispCommit
  rw [ok]
  simp only [ne_eq, not_true_eq_false, if_false]
  split
  · obtain ⟨committed, words, bits, frame⟩ := switchMode_leaves u
    refine ⟨fun a h => ?_, ?_, bits _ _ told, frame.trans shown⟩
    · rw [cm, committed, ← cm]
      exact copied a h
    · rw [commitPending_of_rd (words _ (by decide))]
      exact cleared
  · exact ⟨copied, cleared, told, shown⟩

/-- A commit that fails its check. -/
theorem dispCommit_refused (bad : dispCheck s ≠ 0) :
    (dispCommit s).committed = s.committed ∧ commitPending (dispCommit s) pgDisp = false ∧ rd (dispCommit s) (dispA 0x64) = dispCheck s ∧
      (evPend (dispCommit s) pgDisp).testBit 2 = true ∧ (dispCommit s).disp = s.disp := by
  let u := wr s (dispA 0x64) (dispCheck s)
  have refused : dispCommit s = commitRefused u pgDisp := if_pos bad
  have evolves : Evolves 8523841 s (commitRefused u pgDisp) := commitRefused_evolves _ _ rfl (wr_evolves _ _ _ rfl .rfl)
  have small : dispCheck s < 2 ^ 32 := by
    unfold dispCheck
    split_ifs <;> decide
  rw [refused]
  refine ⟨evolves.same .committed rfl, commitPending_commitRefused u, ?_, testBit_evPend_raised _ _ (by decide), evolves.same .disp rfl⟩
  rw [commitRefused, wordsKept_ev _ pgDisp 2 _ (by decide), rd_wr, if_neg (by decide), rd_wr_same, Nat.mod_eq_of_lt small]

/-! ### Checksums of a frame (R472, R473) -/

theorem counter_fault_disp (s : State) (code bar : Nat) (d : List Nat) : counter (fault s code 1 pgDisp bar d) pgDisp 0 = counter s pgDisp 0 :=
  counter_fault s code pgDisp bar (by decide) d (by decide) (by decide) (by decide)

/-- The checksum of rectangle `k`, as the committed words place it. -/
def rectCrc (s : State) (k : Nat) : Nat :=
  crc32c (frameBytes s (field (dcm s (0x150 + 0x10 * k)) 11 0) (field (dcm s (0x150 + 0x10 * k)) 26 16)
    (field (dcm s (0x154 + 0x10 * k)) 11 0) (field (dcm s (0x154 + 0x10 * k)) 26 16))

theorem rectCrc_kept (committed : t.committed = s.committed) (disp : t.disp = s.disp) (dram : t.dram = s.dram) : rectCrc t = rectCrc s := by
  funext k
  have word : dcm t = dcm s := funext fun o => by rw [dcm, cm, committed, ← cm, ← dcm]
  simp only [rectCrc, word, frameBytes_kept committed disp dram]

/-- What the check of one rectangle leaves. -/
theorem rectCheck_leaves (s : State) (k : Nat) :
    (∀ a, a % 4096 ≠ 0x24 → a ≠ dispA (0x15C + 0x10 * k) → rd (rectCheck s k) a = rd s a) ∧
      (rdb s (dispA 0x140) k = true → rd (rectCheck s k) (dispA (0x15C + 0x10 * k)) = rectCrc s k) ∧
      counter (rectCheck s k) pgDisp 0 = counter s pgDisp 0 := by
  by_cases on : rdb s (dispA 0x140) k = true
  case neg => exact (show rectCheck s k = s from if_neg on).symm ▸ ⟨fun _ _ _ => rfl, fun h => absurd h on, rfl⟩
  have small : rectCrc s k < 2 ^ 32 := crc32c_lt _
  let u := wr s (dispA (0x15C + 0x10 * k)) (rectCrc s k)
  let v := count (ev u pgDisp 14) pgDisp 5
  have runs : rectCheck s k = if rectCrc s k = rd u (dispA (0x158 + 0x10 * k)) then u else
      if v.sys.bootState = 5 then v else fault v 0x0E02 1 pgDisp noBar [k, rectCrc s k] := if_pos on
  have known : rd u (dispA (0x15C + 0x10 * k)) = rectCrc s k := by rw [rd_wr_same, Nat.mod_eq_of_lt small]
  have words (a : Nat) (h : a ≠ dispA (0x15C + 0x10 * k)) : rd u a = rd s a := by rw [rd_wr, if_neg h]
  have event (a : Nat) (h : a % 4096 ≠ 0x24) : rd v a = rd u a := by
    rw [show rd v a = rd (ev u pgDisp 14) a from rfl]
    exact wordsKept_ev u pgDisp 14 a (by simp only [List.mem_singleton, ra]; omega)
  have counts : counter v pgDisp 0 = counter s pgDisp 0 := by
    rw [counter_count, if_neg (by decide), counter_ev (by decide) (by decide)]
    rfl
  have own : dispA (0x15C + 0x10 * k) % 4096 ≠ 0x24 := by
    simp only [dispA, ra]; omega
  have faults (v : State) (d : List Nat) (a : Nat) (h : a % 4096 ≠ 0x24) : rd (fault v 0x0E02 1 pgDisp noBar d) a = rd v a :=
    rd_fault _ _ _ _ (by decide) _ (by simp only [ra]; omega) (by simp only [ra]; omega)
  rw [runs]
  split_ifs
  · exact ⟨fun a _ h => words a h, fun _ => known, rfl⟩
  · exact ⟨fun a h other => (event a h).trans (words a other), fun _ => (event _ own).trans known, counts⟩
  · exact ⟨fun a h other => ((faults _ _ a h).trans (event a h)).trans (words a other), fun _ => ((faults _ _ _ own).trans (event _ own)).trans known,
      (counter_fault_disp ..).trans counts⟩

/-- What the checksums of the whole frame leave. -/
theorem crcCheck_leaves (s : State) (own : Nat) {back : Nat} (small : back < 2 ^ 32) :
    rd (crcCheck s own back) (dispA 0x148) = back ∧ counter (crcCheck s own back) pgDisp 0 = counter s pgDisp 0 ∧
      (crcCheck s own back).disp.shown = s.disp.shown ∧ (crcCheck s own back).disp.offLayers = s.disp.offLayers := by
  let u := wr (wr s (dispA 0x144) own) (dispA 0x148) back
  have known : rd u (dispA 0x148) = back := by rw [rd_wr_same, Nat.mod_eq_of_lt small]
  let d := u.disp
  let v := setDisp u { d with mismatches := d.mismatches + 1, matches_ := 0 }
  let c := count (ev v pgDisp 13) pgDisp 4
  have runs : crcCheck s own back = if own = back then
      setDisp u { d with mismatches := 0, matches_ := d.matches_ + 1, crcRecorded := d.crcRecorded && decide (d.matches_ + 1 < 60) }
    else if 3 ≤ d.mismatches + 1 ∧ d.crcRecorded = false then
      fault (setDisp c { c.disp with crcRecorded := true }) 0x0E02 1 pgDisp noBar [own, back]
    else c := rfl
  rw [runs]
  have event : Evolves 8523841 v c := count_evolves _ _ _ rfl (ev_evolves _ _ _ rfl .rfl)
  have word : rd c (dispA 0x148) = back := by
    rw [show rd c (dispA 0x148) = rd (ev v pgDisp 13) (dispA 0x148) from rfl, wordsKept_ev v pgDisp 13 _ (by decide)]
    exact known
  have counts : counter c pgDisp 0 = counter s pgDisp 0 := by
    rw [counter_count, if_neg (by decide), counter_ev (by decide) (by decide)]
    rfl
  have shows : c.disp = v.disp := event.same .disp rfl
  split_ifs
  · exact ⟨known, rfl, rfl, rfl⟩
  · have failing := fault_below_D (setDisp c { c.disp with crcRecorded := true }) 0x0E02 pgDisp noBar (cls := 1) (by decide) [own, back]
    refine ⟨(rd_fault _ _ _ _ (by decide) _ (by decide) (by decide)).trans word, (counter_fault_disp ..).trans counts, ?_, ?_⟩
    · exact (congrArg Disp.shown (failing.same .disp rfl)).trans ((congrArg Disp.shown shows).trans rfl)
    · exact (congrArg Disp.offLayers (failing.same .disp rfl)).trans ((congrArg Disp.offLayers shows).trans rfl)
  · exact ⟨word, counts, (congrArg Disp.shown shows).trans rfl, (congrArg Disp.offLayers shows).trans rfl⟩

/-- Between the checks of the rectangles: what a frame shows, and every word but events and checksums. -/
def checking (s t : State) : Prop :=
  t.disp = s.disp ∧ t.committed = s.committed ∧ t.dram = s.dram ∧ counter t pgDisp 0 = counter s pgDisp 0 ∧
    ∀ a, a % 4096 ≠ 0x24 → (∀ j, a ≠ dispA (0x15C + 0x10 * j)) → rd t a = rd s a

theorem checking_rectCheck {u : State} (h : checking s u) (k : Nat) : checking s (rectCheck u k) := by
  obtain ⟨disp, committed, dram, counts, words⟩ := h
  have evolves := rectCheck_evolves u k (m := 11728193) rfl .rfl
  obtain ⟨kept, -, same⟩ := rectCheck_leaves u k
  exact ⟨(evolves.same .disp rfl).trans disp, (evolves.same .committed rfl).trans committed, (evolves.same .dram rfl).trans dram, same.trans counts,
    fun a h other => (kept a h (other k)).trans (words a h other)⟩

theorem checking_rectangles (s : State) : checking s ((List.range 4).foldl rectCheck s) :=
  foldl_kept (checking s) (fun _ k _ h => checking_rectCheck h k) ⟨rfl, rfl, rfl, rfl, fun _ _ _ => rfl⟩

/-- Every enabled rectangle shows its checksum. -/
theorem rectangles_shown {k : Nat} (hk : k < 4) (on : rdb s (dispA 0x140) k = true) :
    rd ((List.range 4).foldl rectCheck s) (dispA (0x15C + 0x10 * k)) = rectCrc s k := by
  have apart {y : Nat} (h : y ≠ k) : dispA (0x15C + 0x10 * k) ≠ dispA (0x15C + 0x10 * y) := by simp only [dispA, ra]; omega
  have plain : dispA (0x15C + 0x10 * k) % 4096 ≠ 0x24 := by simp only [dispA, ra]; omega
  refine foldl_phase (before := checking s) (after := fun u => rd u (dispA (0x15C + 0x10 * k)) = rectCrc s k) List.nodup_range (List.mem_range.2 hk)
    (fun _ y _ _ h => checking_rectCheck h y) (fun u h => ?_) (fun u y _ other h => ((rectCheck_leaves u y).1 _ plain (apart other)).trans h)
    ⟨rfl, rfl, rfl, rfl, fun _ _ _ => rfl⟩
  obtain ⟨disp, committed, dram, -, words⟩ := h
  have enabled : rdb u (dispA 0x140) k = true := by
    rw [rdb, words _ (by decide) fun j => by simp only [dispA, ra]; omega]
    exact on
  rw [(rectCheck_leaves u k).2.1 enabled, rectCrc_kept committed disp dram]

/-! ### The frame of a running stream, and an underrun (R468, R469) -/

/-- The layers that underran in the frame, as bits. -/
def underrunBits (s : State) : Nat := (List.range 3).foldl (fun v l => if s.disp.offLayers.any (fun e => e.1 == l) then v + 2 ^ l else v) 0

/-- The end of a frame, before the rectangles are checked. -/
def frameChecked (bs : List Byte) (s : State) : State :=
  crcCheck (wrf (count s pgDisp 0) (dispA 0x60) 10 8 (underrunBits s)) (crc32c (frameBytes s 0 0 (hActive s) (vActive s))) (crc32c bs)

/-- The rectangles, FRAME_DONE, and the mark that the last active line has started. -/
def frameEnded (u : State) : State :=
  ev (setDisp ((List.range 4).foldl rectCheck u) { ((List.range 4).foldl rectCheck u).disp with lastActive := true }) pgDisp 10

theorem exec_frameDone (run : dispRunning s = true) (bs : List Byte) : exec (.frameDone bs) s = .next (frameEnded (frameChecked bs s)) :=
  congrArg Host.Outcome.next (if_pos run)

theorem frameChecked_leaves (bs : List Byte) (s : State) :
    (frameChecked bs s).committed = s.committed ∧ counted s (frameChecked bs s) pgDisp 0 ∧ rd (frameChecked bs s) (dispA 0x148) = crc32c bs ∧
      (frameChecked bs s).disp.shown = s.disp.shown ∧ (frameChecked bs s).disp.offLayers = s.disp.offLayers := by
  let u := wrf (count s pgDisp 0) (dispA 0x60) 10 8 (underrunBits s)
  obtain ⟨known, counts, shown, off⟩ := crcCheck_leaves u (crc32c (frameBytes s 0 0 (hActive s) (vActive s))) (crc32c_lt bs)
  have begins : Evolves 65 s u := wrf_evolves _ _ _ _ _ rfl (count_evolves _ _ _ rfl .rfl)
  have checks := crcCheck_evolves u (crc32c (frameBytes s 0 0 (hActive s) (vActive s))) (crc32c bs) (m := 12252481) rfl .rfl
  have disp : u.disp = s.disp := begins.same .disp rfl
  exact ⟨(checks.same .committed rfl).trans (begins.same .committed rfl), counts.trans (counted_count s pgDisp 0), known,
    shown.trans (congrArg Disp.shown disp), off.trans (congrArg Disp.offLayers disp)⟩

theorem frameEnded_leaves (u : State) :
    (frameEnded u).disp = { u.disp with lastActive := true } ∧ (evPend (frameEnded u) pgDisp).testBit 10 = true ∧
      (frameEnded u).committed = u.committed ∧ counter (frameEnded u) pgDisp 0 = counter u pgDisp 0 ∧
      rd (frameEnded u) (dispA 0x148) = rd u (dispA 0x148) := by
  obtain ⟨disp, committed, -, counts, words⟩ := checking_rectangles u
  unfold frameEnded
  generalize (List.range 4).foldl rectCheck u = v at *
  have event := ev_evolves (setDisp v { v.disp with lastActive := true }) pgDisp 10 (m := 8523841) rfl .rfl
  refine ⟨(event.same .disp rfl).trans ?_, testBit_evPend_raised _ _ (by decide), (event.same .committed rfl).trans committed, ?_, ?_⟩
  · rw [← disp]
    rfl
  · rw [counter_ev (by decide) (by decide)]
    exact counts
  · rw [wordsKept_ev _ pgDisp 10 _ (by decide)]
    exact words _ (by decide) fun j => by simp only [dispA, ra]; omega

theorem exec_underrun {l : Nat} (px : Nat) (hl : l < 3) (run : s.disp.state = 2) :
    exec (.underrun [l] px) s = .next (if layerOn s l && !s.disp.offLayers.any (fun e => e.1 == l) then
      count (ev (setDisp s { s.disp with offLayers := s.disp.offLayers ++ [(l, px)] }) pgDisp 11) pgDisp (1 + l) else s) := by
  have runs : exec (.underrun [l] px) s = .next (underrunLayer px s l) := congrArg Host.Outcome.next (if_pos run)
  rw [runs, underrunLayer, decide_eq_true hl, Bool.true_and]

end Sys2Proof.Machine

namespace Sys2Proof.Proofs
open Sys2Proof Sys2Proof.Machine

/-- The display link (R461, R462). -/
theorem displayLinkRule : DisplayLinkRule := by
  refine ⟨fun s mr ml => ?_, fun cfg pclk panel r => chooseRate_spec, fun s => ⟨fun off => ⟨?_, fun b => ?_⟩, fun there => ⟨?_, ?_, fun run => ?_⟩,
    fun other => ⟨?_, ?_⟩, fun trains => ⟨?_, fun higher => ?_, fun highest => ?_⟩, fun rests => ?_, fun waits up on there lanes r rate => ?_⟩⟩
  · intro u cfg rate
    have runs : exec (.hpdPlug mr ml) s = .next (dispStart u) := rfl
    refine ⟨fun off => ?_, fun on up lanes r found => ?_, fun on up none => ?_⟩
    · rw [runs, dispStart_down (s := u) (off.imp_right .inr)]
    · rw [(dispStart_up (s := u) on rfl up).2 lanes r found] at runs
      obtain ⟨disp, sent, counts, only⟩ := trainAt_leaves u r
      exact ⟨_, runs, disp, sent, counts, (trainAt_evolves u r (m := 8912960) rfl (setDisp_evolves s _ rfl .rfl)).only (by decide)⟩
    · rw [(dispStart_up (s := u) on rfl up).1 none] at runs
      obtain ⟨disp, record, -⟩ := linkFail_leaves u
      exact ⟨_, runs, disp, recorded_of_keepsLog (keepsLog.of (m := 524288) (setDisp_evolves s _ rfl .rfl) rfl) record⟩
  · exact congrArg Host.Outcome.next (if_neg (by rw [off]; decide))
  · exact congrArg Host.Outcome.next (if_neg (by rw [off]; decide))
  · let u := setDisp s { s.disp with hpd := false, state := if pgEn s pgDisp then 4 else 0 }
    exact ⟨_, congrArg Host.Outcome.next (if_pos there), (ev_evolves u pgDisp 15 (m := 8523841) rfl .rfl).same .disp rfl,
      raised_ev u pgDisp (by decide), wordsKept_ev u pgDisp 15⟩
  · exact ⟨_, congrArg Host.Outcome.next (if_pos there), (ev_evolves s pgDisp 16 (m := 8523841) rfl .rfl).same .disp rfl,
      raised_ev s pgDisp (by decide), wordsKept_ev s pgDisp 16⟩
  · have told : Evolves 8523841 s (ev s pgDisp 16) := ev_evolves _ _ _ rfl .rfl
    have disp : (ev s pgDisp 16).disp = s.disp := told.same .disp rfl
    have runs : exec (.hpdIrq true) s = .next (trainAt (ev s pgDisp 16) (ev s pgDisp 16).disp.rate) := by
      have running : dispRunning (ev s pgDisp 16) = true := by rw [dispRunning, disp, ← dispRunning, run]
      refine congrArg Host.Outcome.next ((if_pos there).trans (if_pos ?_))
      rw [running]
      rfl
    obtain ⟨trained, -, counts, -⟩ := trainAt_leaves (ev s pgDisp 16) (ev s pgDisp 16).disp.rate
    have trains := trainAt_evolves (ev s pgDisp 16) (ev s pgDisp 16).disp.rate (m := 8912960) rfl .rfl
    refine ⟨_, runs, congrArg Disp.state trained, (congrArg Disp.rate trained).trans (congrArg Disp.rate disp : (ev s pgDisp 16).disp.rate = s.disp.rate), ?_, ?_⟩
    · rw [raised, evPend_of_regs (trains.same .regs rfl)]
      exact raised_ev s pgDisp (by decide)
    · rw [counted, counter_ev (by decide) (by decide)] at counts
      exact counts
  · exact congrArg Host.Outcome.next (if_neg other)
  · exact congrArg Host.Outcome.next (if_neg other)
  · refine ⟨_, congrArg Host.Outcome.next (if_pos trains), rfl, rfl, ?_⟩
    exact (send_evolves _ _ (m := 8912896) rfl (setDisp_evolves s _ rfl .rfl)).only (by decide)
  · obtain ⟨disp, sent, counts, only⟩ := trainAt_leaves s (s.disp.rate + 1)
    exact ⟨_, congrArg Host.Outcome.next ((if_pos trains).trans (if_pos higher)), congrArg Disp.state disp, congrArg Disp.rate disp, counts, sent, only⟩
  · obtain ⟨disp, record, -⟩ := linkFail_leaves s
    exact ⟨_, congrArg Host.Outcome.next ((if_pos trains).trans (if_neg (not_lt.2 highest))), disp, record⟩
  · refine congrArg Host.Outcome.next (if_neg ?_)
    rintro ⟨idle, up⟩
    rcases rests with other | dozes
    · exact other idle
    · exact absurd (up.symm.trans dozes) (by decide)
  · have runs : exec .dispRetry s = .next (dispStart s) := congrArg Host.Outcome.next (if_pos ⟨waits, up⟩)
    rw [(dispStart_up on there up).2 lanes r rate] at runs
    obtain ⟨disp, sent, -, only⟩ := trainAt_leaves s r
    exact ⟨_, runs, congrArg Disp.state disp, congrArg Disp.rate disp, sent, only⟩

/-- The frame of the display (R467 to R471, R473). -/
theorem displayFrameRule : DisplayFrameRule := by
  refine ⟨fun s rests => ?_, fun s run => ⟨fun quiet => ?_, fun pending early => ⟨fun ok => ?_, fun bad => ?_⟩, ?_, ?_, fun bs => ?_⟩,
    fun s bs rests => ⟨fun ready => ?_, fun boots => ?_⟩, fun s l px hl => ⟨fun none => ?_, fun run on first => ?_⟩⟩
  · have off : ¬dispRunning s = true := by rw [rests]; decide
    exact ⟨congrArg Host.Outcome.next (if_neg off), congrArg Host.Outcome.next (if_neg off), congrArg Host.Outcome.next (if_neg off)⟩
  · have runs : exec .latch s = .next (scanFrom (latched s)) := by
      rw [exec_latch run, if_neg]
      rcases quiet with none | late
      · simp [none]
      · simp [late]
    have committed : (latched s).committed = s.committed := (latched_evolves s).same .committed rfl
    refine ⟨_, runs, ?_, fun black => raised_latched black, committed, wordsKept_latched s⟩
    have lines : vActive (latched s) = vActive s := by rw [vActive, dcm, cm, committed, ← cm, ← dcm, ← vActive]
    rw [scanFrom, lines, disp_latched]
    rfl
  · have runs := exec_latch run
    rw [pending, early, if_pos (by decide)] at runs
    obtain ⟨copied, cleared, told, shown⟩ := dispCommit_sound (s := latched s) ((dispCheck_latched s).trans ok)
    refine ⟨_, runs, fun a h => ?_, cleared, told, shown.trans (by rw [disp_latched]; rfl)⟩
    rw [← rd_latched s fun at_ => (shadowAddrs_disp h).2 (by rw [at_]; decide)]
    exact copied a h
  · have runs := exec_latch run
    rw [pending, early, if_pos (by decide)] at runs
    obtain ⟨committed, cleared, reason, told, disp⟩ := dispCommit_refused (s := latched s) ((dispCheck_latched s).trans_ne bad)
    refine ⟨_, runs, committed.trans ((latched_evolves s).same .committed rfl), cleared, reason.trans (dispCheck_latched s), told, ?_⟩
    exact (congrArg Disp.shown disp).trans (by rw [disp_latched]; rfl)
  · exact ⟨_, congrArg Host.Outcome.next (if_pos run), raised_ev s pgDisp (by decide), wordsKept_ev s pgDisp 8, only_ev s pgDisp 8⟩
  · have last : (if field (dcm s 0x5C) 10 0 + 1 = vActive s then setDisp s { s.disp with lastActive := true } else s) =
        setDisp s { s.disp with lastActive := decide (field (dcm s 0x5C) 10 0 + 1 = vActive s) || s.disp.lastActive } := by
      split
      · next line => rw [decide_eq_true line, Bool.true_or]
      · next line => rw [decide_eq_false line, Bool.false_or]; rfl
    let u := setDisp s { s.disp with lastActive := decide (field (dcm s 0x5C) 10 0 + 1 = vActive s) || s.disp.lastActive }
    have runs : exec .lineMatch s = .next (ev u pgDisp 9) := by
      rw [show ev u pgDisp 9 = ev _ pgDisp 9 from congrArg (fun v => ev v pgDisp 9) last.symm]
      exact congrArg Host.Outcome.next (if_pos run)
    have evolves : Evolves 9048129 s (ev u pgDisp 9) := ev_evolves _ _ _ rfl (setDisp_evolves s _ rfl .rfl)
    exact ⟨_, runs, raised_ev u pgDisp (by decide), wordsKept_ev u pgDisp 9,
      (ev_evolves u pgDisp 9 (m := 8523841) rfl .rfl).same .disp rfl, evolves.only (by decide)⟩
  · obtain ⟨committed, counts, known, shown, off⟩ := frameChecked_leaves bs s
    obtain ⟨disp, told, same, kept, word⟩ := frameEnded_leaves (frameChecked bs s)
    exact ⟨_, exec_frameDone run bs, congrArg Disp.lastActive disp, (congrArg Disp.shown disp).trans shown, (congrArg Disp.offLayers disp).trans off,
      told, kept.trans counts, word.trans known, same.trans committed⟩
  · have off : ¬dispRunning s = true := by rw [rests]; decide
    exact congrArg Host.Outcome.next ((if_neg off).trans (if_neg (not_not.2 ready)))
  · have off : ¬dispRunning s = true := by rw [rests]; decide
    obtain ⟨disp, committed, -⟩ := checking_rectangles s
    exact ⟨_, congrArg Host.Outcome.next ((if_neg off).trans (if_pos boots)), disp, committed, fun k hk on => rectangles_shown hk on⟩
  · by_cases run : s.disp.state = 2
    · rw [exec_underrun px hl run, if_neg]
      rcases none with other | off | before
      · exact absurd run other
      · simp [off]
      · simp [before]
    · exact congrArg Host.Outcome.next (if_neg run)
  · let u := setDisp s { s.disp with offLayers := s.disp.offLayers ++ [(l, px)] }
    have runs := exec_underrun px hl run
    rw [on, first, if_pos (by decide)] at runs
    refine ⟨_, runs, ?_, raised_ev u pgDisp (by decide), ?_, wordsKept_ev u pgDisp 11⟩
    · exact (count_evolves _ _ _ (m := 8523841) rfl (ev_evolves u pgDisp 11 rfl .rfl)).same .disp rfl
    · have counts := counted_count (ev u pgDisp 11) pgDisp (1 + l)
      rw [counted, counter_ev (by decide) (by omega)] at counts
      exact counts

/-- Settles O57: the link by what a training that begins or fails leaves; the frame by the state at the latch, the commit that follows on it,
and the checksums, which leave all but their own words and events. -/
theorem display : Obligations.Display := ⟨displayLinkRule, displayFrameRule⟩

end Sys2Proof.Proofs
end

section
/-! PROOFS. Logs and flash (R481, R487 to R489): the pages of the flash, the non-volatile log, and the operations of the NVM page. -/

namespace Sys2Proof.Machine
open Sys2Proof

variable {s t : State}

/-! ### Pages of the flash -/

theorem flashPage_of_flash (h : t.sys.flash = s.sys.flash) (p : Nat) : flashPage t p = flashPage s p := by
  rw [flashPage, h, ← flashPage]

theorem flashPage_setFlashPage (s : State) (n : Nat) (bs : List Byte) (p : Nat) :
    flashPage (setFlashPage s n bs) p = if p = n then bs else flashPage s p :=
  tget_tset _ _ _ _ _

/-- The first `k` pages of a sector that is set. -/
theorem flashPage_foldl (f : Nat → List Byte) (page k : Nat) (s : State) (p : Nat) :
    flashPage ((List.range k).foldl (fun u i => setFlashPage u (page + i) (f i)) s) p =
      if page ≤ p ∧ p < page + k then f (p - page) else flashPage s p := by
  induction k with
  | zero => rw [List.range_zero, List.foldl_nil, if_neg (by omega)]
  | succ k ih =>
    rw [List.range_succ, List.foldl_append, List.foldl_cons, List.foldl_nil, flashPage_setFlashPage, ih]
    by_cases last : p = page + k
    · rw [if_pos last, if_pos (by omega), last, Nat.add_sub_cancel_left]
    · rw [if_neg last]
      congr 1
      exact propext ⟨fun h => by omega, fun h => by omega⟩

theorem flashPage_setSector (s : State) (page : Nat) (f : Nat → List Byte) (p : Nat) :
    flashPage (setSector s page f) p = if page ≤ p ∧ p < page + 256 then f (p - page) else flashPage s p :=
  flashPage_foldl f page 256 s p

/-! ### The non-volatile log (R487) -/

theorem recordBytes_length (r : FaultRecord) : (recordBytes r).length = 64 := by
  simp [recordBytes, withCrc, leBytes_length, zeroBytes, List.length_flatMap]

/-- What the program of a record leaves. -/
theorem nvProgram_leaves (s : State) (r : FaultRecord) :
    (nvProgram s r).sys.nvWait = s.sys.nvWait ∧ (nvProgram s r).sys.nvLog.getLast? = some r ∧
      (nvProgram s r).sys.nvNext = (s.sys.nvNext + 1) % 4096 ∧
      flashPage (nvProgram s r) (0x41000 + 2 * s.sys.nvNext) = recordBytes r ++ List.replicate 192 0xFF#8 ∧
      flashPage (nvProgram s r) (0x41000 + 2 * s.sys.nvNext + 1) = recordBytes r ++ List.replicate 192 0xFF#8 := by
  unfold nvProgram
  extract_lets i u kept page w
  have pages (p : Nat) : flashPage { w with sys := { w.sys with nvLog := kept ++ [r], nvNext := (i + 1) % nvRing } } p = flashPage w p :=
    flashPage_of_flash rfl p
  have erased : recordKeeping u = recordKeeping s := by
    unfold u
    split
    · exact recordKeeping_setSector ..
    · rfl
  refine ⟨?_, List.getLast?_concat, rfl, ?_, ?_⟩
  · exact (congrArg Sys.nvWait erased).trans rfl
  · rw [pages, flashPage_setFlashPage, if_neg (by simp only [nvPage, i]; omega), flashPage_setFlashPage]
    exact if_pos rfl
  · rw [pages, flashPage_setFlashPage]
    exact if_pos rfl

theorem execNvLogProgram_nil (none : s.sys.nvWait = []) : execNvLogProgram s = .next s := by
  unfold execNvLogProgram
  rw [none]

theorem execNvLogProgram_cons {r : FaultRecord} {rest : List FaultRecord} (waits : s.sys.nvWait = r :: rest) :
    execNvLogProgram s =
      .next (if 64 ≤ (if s.sys.nvSec = s.clk.sec then s.sys.nvCount else 0) ∨ s.sys.flashOp = 2 ∨ s.power.tripped = true then s
        else count (nvProgram { s with sys := { s.sys with nvWait := rest, nvSec := s.clk.sec,
                                                           nvCount := (if s.sys.nvSec = s.clk.sec then s.sys.nvCount else 0) + 1 } } r) pgSys 5) := by
  unfold execNvLogProgram
  rw [waits]

/-! ### Operations of the NVM page (R488, R489) -/

/-- What the end of an operation leaves. -/
theorem nvmEnd_leaves (s : State) {reason : Nat} (small : reason < 16) :
    rd (nvmEnd s reason) (nvmA 0x4C) = (if reason = 0 then 2 else 4 + 16 * reason) ∧ raised s (nvmEnd s reason) pgNvm 8 ∧
      (reason ≠ 0 → counted s (nvmEnd s reason) pgNvm 3) ∧ (nvmEnd s reason).sys = { s.sys with flashOp := 0 } ∧
      (∀ a, a ≠ nvmA 0x4C → a ≠ nvmA 0x24 → rd (nvmEnd s reason) a = rd s a) := by
  let u := wr s (nvmA 0x4C) (if reason = 0 then 2 else 4 + 16 * reason)
  let v := { u with sys := { u.sys with flashOp := 0 } }
  let w := if reason = 0 then v else count v pgNvm 3
  have runs : nvmEnd s reason = ev w pgNvm 8 := rfl
  have shown : (if reason = 0 then 2 else 4 + 16 * reason) < 2 ^ 32 := by split <;> omega
  have regs : w.regs = u.regs := by
    unfold w
    split <;> rfl
  have sys : w.sys = v.sys := by
    unfold w
    split <;> rfl
  have words (a : Nat) : rd w a = rd u a := by rw [rd, regs, ← rd]
  rw [runs]
  refine ⟨?_, ?_, fun bad => ?_, ?_, fun a status event => ?_⟩
  · rw [wordsKept_ev w pgNvm 8 _ (by decide), words, rd_wr_same, Nat.mod_eq_of_lt shown]
  · rw [raised, raised_ev w pgNvm (by decide), evPend, words, rd_wr, if_neg (by decide), ← evPend]
  · rw [counted, counter_ev (by decide) (by decide), show w = count v pgNvm 3 from if_neg bad]
    exact counted_count v pgNvm 3
  · exact ((ev_evolves w pgNvm 8 (m := 8523841) rfl .rfl).same .sys rfl).trans sys
  · rw [wordsKept_ev w pgNvm 8 _ (fun h => event (List.mem_singleton.1 h)), words, rd_wr, if_neg status]

theorem flashPage_nvmEnd (s : State) {reason : Nat} (small : reason < 16) (p : Nat) : flashPage (nvmEnd s reason) p = flashPage s p := by
  obtain ⟨-, -, -, sys, -⟩ := nvmEnd_leaves s small
  exact flashPage_of_flash ((congrArg Sys.flash sys).trans rfl) p

theorem nvmReason_lt (s : State) (op : Nat) : nvmReason s op < 16 := by
  unfold nvmReason
  dsimp only
  split_ifs <;> decide

/-- The words of BUF after a read. -/
theorem setBuf_leaves (s : State) (bs : List Byte) :
    (∀ i, i < 64 → rd (setBuf s bs) (nvmA (0x100 + 4 * i)) = bytesAt bs (4 * i) 4) ∧
      (∀ a, (∀ i, i < 64 → a ≠ nvmA (0x100 + 4 * i)) → rd (setBuf s bs) a = rd s a) := by
  have apart {i j : Nat} (h : i ≠ j) : nvmA (0x100 + 4 * i) ≠ nvmA (0x100 + 4 * j) := by simp only [nvmA, ra]; omega
  refine ⟨fun i hi => ?_, fun a other => ?_⟩
  · refine foldl_phase (before := fun _ => True) (after := fun u => rd u (nvmA (0x100 + 4 * i)) = bytesAt bs (4 * i) 4) List.nodup_range
      (List.mem_range.2 hi) (fun _ _ _ _ _ => trivial) (fun u _ => ?_) (fun u y _ differ h => ?_) trivial
    · rw [rd_wr_same, Nat.mod_eq_of_lt (show bytesAt bs (4 * i) 4 < 2 ^ 32 from bytesAt_lt ..)]
    · rw [rd_wr, if_neg (apart (Ne.symm differ))]
      exact h
  · refine foldl_kept (fun u => rd u a = rd s a) (fun u i hi h => ?_) rfl
    rw [rd_wr, if_neg (other i (List.mem_range.1 hi))]
    exact h

/-- Of the state, only the flash and the free values tell of an operation that failed. -/
theorem spoil_leaves (s : State) (op : Nat) :
    (∀ a, rd (spoil s op) a = rd s a) ∧ (∀ p k, counter (spoil s op) p k = counter s p k) ∧
      (op ≠ 3 → ∀ p, p ≠ nvmAddr s / 256 → flashPage (spoil s op) p = flashPage s p) := by
  have evolves := spoil_evolves s op (m := 5242880) rfl .rfl
  refine ⟨evolves.rd_eq rfl, evolves.counter_eq rfl, fun page p other => ?_⟩
  unfold spoil
  dsimp only
  rw [if_neg page, flashPage_setFlashPage]
  exact if_neg other

theorem overlaps_false {a n b m x : Nat} (h : overlaps a n b m = false) (from_ : a ≤ x) (below : x < a + n) : ¬(b ≤ x ∧ x < b + m) := by
  rintro ⟨start, stop⟩
  rw [overlaps, decide_eq_true (show a < b + m by omega), decide_eq_true (show b < a + n by omega)] at h
  exact absurd h (by decide)

end Sys2Proof.Machine

namespace Sys2Proof.Proofs
open Sys2Proof Sys2Proof.Machine

/-- Settles O59: the log by what the program of a record leaves, the operations by what their end leaves. -/
theorem logsAndFlash : Obligations.LogsAndFlash := by
  refine ⟨fun s => ?_, fun s rq op c kind adm => ?_, fun s => ⟨fun none r => ?_, fun reads => ?_, fun programs => ⟨?_, ?_⟩, fun erases => ⟨?_, fun stop => ?_⟩⟩,
    fun s a n _ free x from_ below => ?_⟩
  · refine ⟨execNvLogProgram_nil, fun r rest waits room free up => ?_, fun second full => ?_⟩
    · have enough : ¬64 ≤ (if s.sys.nvSec = s.clk.sec then s.sys.nvCount else 0) := by
        split
        · next same => exact not_le.2 (room.resolve_left (not_not.2 same))
        · decide
      let u := { s with sys := { s.sys with nvWait := rest, nvSec := s.clk.sec,
                                            nvCount := (if s.sys.nvSec = s.clk.sec then s.sys.nvCount else 0) + 1 } }
      have runs : exec .nvLogProgram s = .next (count (nvProgram u r) pgSys 5) := by
        refine (execNvLogProgram_cons waits).trans (congrArg Host.Outcome.next (if_neg ?_))
        rintro (late | busy | trip)
        · exact enough late
        · exact free busy
        · exact absurd (trip.symm.trans up) (by decide)
      obtain ⟨wait, log, next, first, second⟩ := nvProgram_leaves u r
      have page (p : Nat) : flashPage (count (nvProgram u r) pgSys 5) p = flashPage (nvProgram u r) p := flashPage_of_flash rfl p
      have programs : Evolves 1048640 s (count (nvProgram u r) pgSys 5) :=
        count_evolves _ _ _ rfl (nvProgram_evolves _ _ rfl (.upd_1048576 rfl .rfl))
      refine ⟨_, runs, wait, log, next, ?_, ?_, ?_, programs.only (by decide)⟩
      · rw [page, page]
        exact first.trans second.symm
      · rw [page]
        refine (congrArg (List.take 64) first).trans ?_
        rw [← recordBytes_length r, List.take_left]
      · rw [counted, counted_count, (nvProgram_evolves u r (m := 1048576) rfl .rfl).counter_eq rfl]
        rfl
    · have runs : exec .nvLogProgram s = execNvLogProgram s := rfl
      rw [runs]
      cases waits : s.sys.nvWait with
      | nil => exact execNvLogProgram_nil waits
      | cons r rest =>
        rw [execNvLogProgram_cons waits, if_pos]
        rw [if_pos second]
        exact .inl full
  · have runs : exec c s = .next (nvmStart s op) := by
      simp only [List.mem_cons, Prod.mk.injEq, List.not_mem_nil, or_false] at kind
      rcases kind with ⟨rfl, rfl⟩ | ⟨rfl, rfl⟩ | ⟨rfl, rfl⟩ <;> rfl
    have small : 1 ≤ op ∧ op ≤ 3 := by
      simp only [List.mem_cons, Prod.mk.injEq, List.not_mem_nil, or_false] at kind
      omega
    rw [nvmStart, gated_of_admitted adm] at runs
    refine ⟨fun busy => ?_, fun idle bad => ?_, fun idle ok => ?_⟩
    · rw [if_pos busy] at runs
      exact ⟨_, runs, refuse_leaves s (by decide)⟩
    · rw [if_neg (by rw [idle]; decide)] at runs
      obtain ⟨status, told, counts, sys, -⟩ := nvmEnd_leaves s (nvmReason_lt s op)
      exact ⟨_, runs.trans (congrArg Host.Outcome.next (if_pos bad)), status.trans (if_neg bad), told, counts bad, (congrArg Sys.flash sys).trans rfl,
        congrArg Sys.flashOp sys⟩
    · rw [if_neg (by rw [idle]; decide)] at runs
      let u := count (wr s (nvmA 0x4C) 1) pgNvm (op - 1)
      refine ⟨_, runs.trans (congrArg Host.Outcome.next (if_neg (not_not.2 ok))), ?_, rfl, ?_, ?_, rfl, fun a other => ?_⟩
      · exact (rd_wr_same s (nvmA 0x4C) 1).trans (by decide)
      · exact counted_count (wr s (nvmA 0x4C) 1) pgNvm (op - 1)
      · have place : nvmAddr u = nvmAddr s := rdf_eq_of_rd ((rd_wr s (nvmA 0x4C) 1 _).trans (if_neg (by decide))) _ _
        rw [sends, ← place]
        rfl
      · exact (rd_wr s (nvmA 0x4C) 1 a).trans (if_neg (by simpa using other))
  · exact congrArg Host.Outcome.next (if_pos none)
  · let u := setBuf s (flashRead s (nvmAddr s) 256)
    have runs : exec (.nvmDone .done) s = .next (nvmEnd u 0) := by
      refine congrArg Host.Outcome.next ((if_neg (by omega)).trans ?_)
      exact congrArg (fun v => nvmEnd v 0) (if_pos reads)
    obtain ⟨status, told, -, sys, kept⟩ := nvmEnd_leaves u (reason := 0) (by decide)
    obtain ⟨buf, others⟩ := setBuf_leaves s (flashRead s (nvmAddr s) 256)
    have sets : Evolves 1 s u := setBuf_evolves _ _ rfl .rfl
    refine ⟨_, runs, fun i hi => ?_, status, ?_, sys.trans (by rw [sets.same .sys rfl])⟩
    · rw [kept _ (by simp only [nvmA, ra]; omega) (by simp only [nvmA, ra]; omega)]
      exact buf i hi
    · rw [raised, told, evPend, others _ fun i _ => by simp only [nvmA, ra]; omega, ← evPend]
  · let u := setFlashPage s (nvmAddr s / 256) (bufBytes s)
    have runs : exec (.nvmDone .done) s = .next (nvmEnd u 0) := by
      refine congrArg Host.Outcome.next ((if_neg (by omega)).trans ?_)
      exact congrArg (fun v => nvmEnd v 0) ((if_neg (by omega)).trans (if_pos programs))
    obtain ⟨status, told, -, sys, -⟩ := nvmEnd_leaves u (reason := 0) (by decide)
    refine ⟨_, runs, ?_, fun p other => ?_, status, told, congrArg Sys.flashOp sys⟩
    · rw [flashPage_nvmEnd u (by decide), flashPage_setFlashPage, if_pos rfl]
    · rw [flashPage_nvmEnd u (by decide), flashPage_setFlashPage, if_neg other]
  · let u := spoil s 2
    have runs : exec (.nvmDone .failed) s = .next (nvmEnd (spoil s s.sys.flashOp) 4) :=
      congrArg Host.Outcome.next ((if_neg (by omega)).trans (if_neg (by omega)))
    rw [programs] at runs
    obtain ⟨status, told, counts, sys, -⟩ := nvmEnd_leaves u (reason := 4) (by decide)
    obtain ⟨words, counters, pages⟩ := spoil_leaves s 2
    refine ⟨_, runs, status, ?_, ?_, fun p other => ?_, congrArg Sys.flashOp sys⟩
    · rw [raised, told, evPend, words, ← evPend]
    · rw [counted, counts (by decide), counters]
    · rw [flashPage_nvmEnd u (by decide)]
      exact pages (by decide) p other
  · let u := setSector s (nvmAddr s / 256) (fun _ => erasedPage)
    have runs : exec (.nvmDone .done) s = .next (nvmEnd u 0) := by
      refine congrArg Host.Outcome.next ((if_neg (by omega)).trans ?_)
      exact congrArg (fun v => nvmEnd v 0) ((if_neg (by omega)).trans (if_neg (by omega)))
    obtain ⟨status, told, -, sys, -⟩ := nvmEnd_leaves u (reason := 0) (by decide)
    refine ⟨_, runs, fun i hi => ?_, fun p other => ?_, status, congrArg Sys.flashOp sys⟩
    · rw [flashPage_nvmEnd u (by decide), flashPage_setSector, if_pos (by omega)]
      rfl
    · rw [flashPage_nvmEnd u (by decide), flashPage_setSector, if_neg (by omega)]
  · let u := spoil s 3
    have runs : exec (.nvmDone .abandoned) s = .next (nvmEnd u 5) :=
      congrArg Host.Outcome.next ((if_neg (by omega)).trans ((if_pos stop).trans (if_pos erases)))
    obtain ⟨status, told, counts, sys, -⟩ := nvmEnd_leaves u (reason := 5) (by decide)
    obtain ⟨words, counters, -⟩ := spoil_leaves s 3
    refine ⟨_, runs, status, ?_, ?_, congrArg Sys.flashOp sys⟩
    · rw [raised, told, evPend, words, ← evPend]
    · rw [counted, counts (by decide), counters]
  · rw [nvmProtected, Bool.or_eq_false_iff, Bool.or_eq_false_iff] at free
    obtain ⟨⟨rom, slot⟩, log⟩ := free
    refine ⟨overlaps_false rom from_ below, overlaps_false log from_ below, ?_⟩
    have clear := overlaps_false slot from_ below
    split_ifs at clear ⊢ with which <;> exact clear

end Sys2Proof.Proofs
end

section
/-! PROOFS. Resets (R83, R474, R476, R477, R485, R506): what a reset keeps, and how each reset begins. -/

namespace Sys2Proof.Machine
open Sys2Proof

variable {s t : State}

/-! ### What a reset of the volatile domains keeps (R82, R83, R143, R417, R474) -/

theorem flashCut_idle (program : s.sys.flashOp ≠ 2) (erase : s.sys.flashOp ≠ 3) : flashCut s = s :=
  if_neg fun busy => busy.elim program erase

theorem getSession_closed (h : t.host.sessions = s.host.sessions.map (fun e => (e.1, { e.2 with state := 0 }))) (n : Nat) :
    (getSession t n).state = 0 := by
  rw [getSession, h]
  generalize s.host.sessions = entries
  induction entries with
  | nil => rfl
  | cons e rest ih =>
    rw [List.map_cons, tget]
    split
    · rfl
    · exact ih

/-- The parts of the unit after such a reset that no word tells of. -/
theorem volatileReset_parts (s : State) :
    (volatileReset s true).host.journal = s.host.journal.map (fun e => (e.1, { e.2 with withheld := false })) ∧
      (volatileReset s true).host.sessions = s.host.sessions.map (fun e => (e.1, { e.2 with state := 0 })) ∧
      (volatileReset s true).pair = {} ∧ (volatileReset s true).rime = [] ∧ (volatileReset s true).pending = s.pending ∧
      (volatileReset s true).sys.flash = (flashCut s).sys.flash ∧ (volatileReset s true).sys.lateFaults = (flashCut s).sys.lateFaults := by
  have starts : ∃ u : State, volatileReset s true = ptShowAll (flashCut s) (selfRefresh u) ∧
      u.host.journal = (flashCut s).host.journal.map (fun e => (e.1, { e.2 with withheld := false })) ∧
      u.host.sessions = (flashCut s).host.sessions.map (fun e => (e.1, { e.2 with state := 0 })) ∧ u.pair = {} ∧ u.rime = [] ∧
      u.pending = (flashCut s).pending ∧ u.sys.flash = (flashCut s).sys.flash ∧ u.sys.lateFaults = (flashCut s).sys.lateFaults :=
    ⟨_, rfl, rfl, rfl, rfl, rfl, rfl, rfl, rfl⟩
  obtain ⟨u, runs, journal, sessions, pair, rime, pending, flash, late⟩ := starts
  have cut : Evolves 5242880 s (flashCut s) := flashCut_evolves s rfl .rfl
  have kept : Evolves 8390657 u (volatileReset s true) := by
    rw [runs]
    exact ptShowAll_evolves _ _ rfl (selfRefresh_evolves u rfl .rfl)
  have host : (flashCut s).host = s.host := cut.same .host rfl
  rw [host] at journal sessions
  exact ⟨(congrArg HostSide.journal (kept.same .host rfl)).trans journal, (congrArg HostSide.sessions (kept.same .host rfl)).trans sessions,
    (kept.same .pair rfl).trans pair, (kept.same .rime rfl).trans rime, ((kept.same .pending rfl).trans pending).trans (cut.same .pending rfl),
    (congrArg Sys.flash (kept.same .sys rfl)).trans flash, (congrArg Sys.lateFaults (kept.same .sys rfl)).trans late⟩

/-- The unit after a reset that releases its outputs. -/
def released (s : State) : State := volatileReset (releaseOutputs s) true

theorem resetKeeps_released (s : State) : resetKeeps s (released s) true := by
  obtain ⟨mem, committed, log, print, clk, words⟩ := volatileReset_keeps (releaseOutputs s)
  obtain ⟨journal, sessions, pair, rime, pending, flash, -⟩ := volatileReset_parts (releaseOutputs s)
  have begins : Evolves 8396865 s (releaseOutputs s) := releaseOutputs_evolves s rfl .rfl
  have host : (releaseOutputs s).host = s.host := begins.same .host rfl
  have sys : (releaseOutputs s).sys = s.sys := begins.same .sys rfl
  have prints : keptPrint (releaseOutputs s) = keptPrint s := by rw [keptPrint, begins.same .print rfl, keptPrint]
  rw [host] at journal
  refine ⟨fun a on _ _ => (words a on).trans ((releaseOutputs_leaves s).1 a ?_), mem.trans (by rw [begins.same .dram rfl]; rfl),
    log.trans (by rw [sys]; rfl), nofun, fun _ => ⟨?_, ?_⟩, getSession_closed sessions, congrArg PairSt.role pair, ?_, ?_, ?_, ?_, committed, rime,
    fun b => ?_, fun program erase => ?_, pending.trans (begins.same .pending rfl)⟩
  · rw [List.mem_singleton]
    rintro rfl
    exact absurd on (by decide)
  · rw [released, journal, List.map_map]
    rfl
  · rw [released, print, prints, keptPrint, List.length_map]
  · exact congrArg Clock.sec clk
  · exact congrArg Clock.ns clk
  · exact congrArg Clock.frac clk
  · exact congrArg Clock.incr clk
  · exact (congrArg (fun p : Print => (tget (fun _ => {}) p.bars b : Bar).printing) print).trans rfl
  · rw [released, flash, flashCut_idle (by rwa [sys]) (by rwa [sys]), sys]

/-- The start of boot changes the word of the reset cause, and of the records only the boot step. -/
theorem resetKeeps.boots {keep : Bool} (h : resetKeeps s t keep) (cause core : Nat) : resetKeeps s (startBoot t cause core) keep := by
  obtain ⟨words, mem, log, lost, kept, sessions, role, sec, ns, frac, incr, committed, rime, bars, flash, pending⟩ := h
  refine ⟨fun a on other straps => ?_, mem, log, lost, kept, sessions, role, sec, ns, frac, incr, committed, rime, bars, flash, pending⟩
  rw [rd_startBoot, rd_wr, if_neg other]
  exact words a on other straps

/-! ### Power-on reset (R474, R476) -/

theorem fullReset_eq (s : State) :
    ∃ u : State, fullReset s = ptShowAll (flashCut s) u ∧ u.regs = (flashCut s).regs.filter (fun e => e.1 == ra pgJrn 0x44) ∧ u.dram.mem = [] ∧
      u.host.journal = [] ∧ u.host.sessions = [] ∧ u.print.tiles = [] ∧ u.pair.role = 0 ∧ u.clk = {} ∧ u.sys.ramLog = [] ∧
      u.sys.flash = (flashCut s).sys.flash :=
  ⟨_, rfl, rfl, rfl, rfl, rfl, rfl, rfl, rfl, rfl, rfl⟩

theorem fullReset_leaves (s : State) :
    (fullReset s).dram.mem = [] ∧ (fullReset s).host.journal = [] ∧ (fullReset s).host.sessions = [] ∧ (fullReset s).print.tiles = [] ∧
      (fullReset s).pair.role = 0 ∧ (fullReset s).clk = {} ∧ (fullReset s).sys.ramLog = [] ∧
      (fullReset s).sys.flash = (flashCut s).sys.flash ∧ ∀ a, a ≠ ra pgJrn 0x44 → rd (fullReset s) a = (regReset a).toNat := by
  obtain ⟨u, runs, regs, mem, journal, sessions, tiles, role, clk, log, flash⟩ := fullReset_eq s
  have shown : Evolves 8388608 u (fullReset s) := by
    rw [runs]
    exact ptShowAll_evolves _ _ rfl .rfl
  refine ⟨(congrArg Dram.mem (shown.same .dram rfl)).trans mem, (congrArg HostSide.journal (shown.same .host rfl)).trans journal,
    (congrArg HostSide.sessions (shown.same .host rfl)).trans sessions, (congrArg Print.tiles (shown.same .print rfl)).trans tiles,
    (congrArg PairSt.role (shown.same .pair rfl)).trans role, (shown.same .clk rfl).trans clk, (congrArg Sys.ramLog (shown.same .sys rfl)).trans log,
    (congrArg Sys.flash (shown.same .sys rfl)).trans flash, fun a other => ?_⟩
  rw [shown.rd_eq rfl, rd, regs, tget_no_key _ _ (fun e => e == ra pgJrn 0x44) (beq_false_of_ne other)]

/-! ### The watchdog (R23, R485) -/

/-- The unit after the watchdog, before it boots. -/
def watched (s : State) (core : Nat) : State :=
  { released s with
    sys := { (released s).sys with wdStop := !pairMode s, lateFaults := (released s).sys.lateFaults ++ [(0x0101, core % 4)] }
    links := { (released s).links with slowReq := !pairMode s } }

theorem exec_watchdogExpiry (ready : s.sys.bootState = 5) (up : s.sys.inReset = false) (awake : s.power.pstate < 2) (core : Nat) :
    exec (.watchdogExpiry core) s = .next (startBoot (watched s core) 2 core) := by
  refine congrArg Host.Outcome.next ((if_neg ?_).trans rfl)
  rintro (other | reset | doze)
  · exact other ready
  · exact absurd (reset.symm.trans up) (by decide)
  · exact absurd awake (not_lt.2 (of_decide_eq_true doze))

theorem resetKeeps_watched (s : State) (core : Nat) : resetKeeps s (watched s core) true := resetKeeps_released s

/-! ### Loss of the DRAM supply (R83) -/

/-- The unit without image memory, journal and RAM log. -/
def supplyLost (s : State) : State :=
  { s with dram := { s.dram with mem := [] }, print := { s.print with jobs := [], tiles := [], windows := [], thawQueue := [] },
           host := { s.host with journal := [] }, sys := { s.sys with ramLog := [] } }

theorem journalLost_leaves (s : State) :
    (journalLost s).dram = s.dram ∧ (journalLost s).print = s.print ∧ (journalLost s).host.journal = s.host.journal ∧
      rd (journalLost s) (ra pgJrn 0x44) = (rd s (ra pgJrn 0x44) + 1) % 2 ^ 32 := by
  let u := wr s (ra pgJrn 0x44) (rd s (ra pgJrn 0x44) + 1)
  have failing : Evolves 11669569 u (journalLost s) := fault_below_D u 0x0202 pgJrn noBar (cls := 1) (by decide) _
  refine ⟨failing.same .dram rfl, failing.same .print rfl, congrArg Prod.fst (hostKept_fault u 0x0202 pgJrn noBar (cls := 1) (by decide) _), ?_⟩
  rw [journalLost, rd_fault _ _ _ _ (by decide) _ (by decide) (by decide), rd_wr_same]

end Sys2Proof.Machine

namespace Sys2Proof.Proofs
open Sys2Proof Sys2Proof.Machine

/-- Resets (R83, R474, R476, R477, R485, R506). -/
theorem resetsRule : ResetsRule := by
  refine ⟨fun s straps => ?_, fun s w => ⟨fun none => ?_, fun up powered long => ?_⟩, fun s straps => ⟨fun none => ?_, fun held powered => ?_⟩,
    fun s core => ⟨fun none => ?_, fun ready up awake => ?_⟩, fun s => ⟨?_, ?_, fun none => ?_, fun up ready => ?_⟩⟩
  · obtain ⟨mem, journal, sessions, tiles, role, clk, log, flash, words⟩ := fullReset_leaves s
    have word (a : Nat) : rd (startBoot (sampleStraps (fullReset s) straps) 0 0) a =
        if a = ra pgSys 0x50 then 0 else if a = ra pgSys 0x4C then straps % 32 else rd (fullReset s) a := by
      rw [rd_startBoot, rd_wr, sampleStraps, rd_wr, Nat.mod_eq_of_lt (show straps % 32 < 2 ^ 32 by omega)]
      rfl
    refine ⟨_, rfl, mem, journal, sessions, log, tiles, rfl, rfl, word _, word _, fun a cause strap epoch => ?_, role, congrArg Clock.sec clk,
      congrArg Clock.ns clk, rfl, fun program erase => flash.trans (by rw [flashCut_idle program erase])⟩
    rw [word, if_neg cause, if_neg strap]
    exact words a epoch
  · exact congrArg Host.Outcome.next (if_pos none)
  · refine ⟨enterReset s, congrArg Host.Outcome.next ((if_neg ?_).trans (if_pos long)), rfl, resetKeeps_released s⟩
    rintro (reset | off | short)
    · exact absurd (reset.symm.trans up) (by decide)
    · exact absurd (off.symm.trans powered) (by decide)
    · omega
  · exact congrArg Host.Outcome.next (if_pos none)
  · have word (a : Nat) : rd (startBoot (sampleStraps s straps) 1 0) a =
        if a = ra pgSys 0x50 then 1 else if a = ra pgSys 0x4C then straps % 32 else rd s a := by
      rw [rd_startBoot, rd_wr, sampleStraps, rd_wr, Nat.mod_eq_of_lt (show straps % 32 < 2 ^ 32 by omega)]
      rfl
    refine ⟨_, congrArg Host.Outcome.next (if_neg ?_), rfl, rfl, rfl, word _, word _, fun a other => ?_,
      (startBoot_evolves (sampleStraps s straps) 1 0 (m := 1048577) rfl (wr_evolves s _ _ rfl .rfl)).only (by decide)⟩
    · rintro (free | off)
      · exact absurd (free.symm.trans held) (by decide)
      · exact absurd (off.symm.trans powered) (by decide)
    · simp only [List.mem_cons, List.not_mem_nil, or_false, not_or] at other
      rw [word, if_neg other.2, if_neg other.1]
  · refine congrArg Host.Outcome.next (if_pos ?_)
    exact none.imp_right (Or.imp_right fun deep => decide_eq_true deep)
  · refine ⟨_, exec_watchdogExpiry ready up awake core, rfl, rfl, ?_, List.mem_append_right _ (List.mem_singleton.2 rfl), fun single => ?_,
      (resetKeeps_watched s core).boots 2 core⟩
    · rw [rd_startBoot, rd_wr_same, Nat.mod_eq_of_lt (by omega)]
    · exact (congrArg (!·) single).trans rfl
  · obtain ⟨mem, journal, -, -, -, -, log, -⟩ := fullReset_leaves s
    exact ⟨_, rfl, rfl, rfl, mem, journal, log⟩
  · obtain ⟨dram, print, journal, epoch⟩ := journalLost_leaves (supplyLost s)
    by_cases ready : s.sys.bootState = 5
    · exact ⟨_, congrArg Host.Outcome.next (if_pos ready), congrArg Dram.mem dram, journal, congrArg Print.tiles print, congrArg Print.jobs print,
        fun _ => epoch, fun other => absurd ready other⟩
    · exact ⟨_, congrArg Host.Outcome.next (if_neg ready), rfl, rfl, rfl, rfl, fun other => absurd other ready, fun _ => ⟨rfl, rfl⟩⟩
  · refine congrArg Host.Outcome.next (if_pos none)
  · refine ⟨_, congrArg Host.Outcome.next (if_neg ?_), rfl, (Evolves.upd_1048576 (m := 1048576) rfl .rfl).only (by decide)⟩
    rintro (reset | other)
    · exact absurd (reset.symm.trans up) (by decide)
    · exact other ready

end Sys2Proof.Proofs
end

section
/-! PROOFS. Boot (R477 to R480): its steps, the check of an image, and the retry. -/

namespace Sys2Proof.Machine
open Sys2Proof

variable {s t : State}

/-! ### SLOW_REQ follows its sources (R244, R513) -/

theorem slowReq_flnSend (s : State) (l type flags : Nat) (body : List Byte) : (flnSend s l type flags body).links.slowReq = s.links.slowReq := by
  unfold flnSend
  dsimp only
  split_ifs <;> rfl

theorem slowReq_slowSync (s : State) : (slowSync s).links.slowReq = slowReq s := by
  unfold slowSync
  split
  · next same => exact same
  · exact foldl_kept (fun u : State => u.links.slowReq = slowReq s) (fun u l _ h => (slowReq_flnSend u l _ _ _).trans h) rfl

theorem sys_slowSync (s : State) : (slowSync s).sys = s.sys := (slowSync_evolves s (m := 8396864) rfl .rfl).same .sys rfl

theorem slowReq_failed (h : s.sys.bootState = 6) : slowReq s = true := by
  rw [slowReq, h]
  simp

/-! ### A class D fault while the unit boots -/

theorem bootState_stopUnit (s : State) (code : Nat) : (stopUnit s code).sys.bootState = s.sys.bootState := by
  have told (u : State) (ls : List Nat) (c : Prop) [Decidable c] : (if c then pairSendOn u ls 0x30 0 [] else u).sys = u.sys :=
    ite_keeps State.sys (fun _ => (pairSendOn_evolves u ls _ _ _ (m := 8421440) rfl .rfl).same .sys rfl) (fun _ => rfl)
  have barred (u : State) : (stopBars u (List.range 8)).sys = u.sys := (stopBars_evolves u _ (m := 1024) rfl .rfl).same .sys rfl
  have demoted (u : State) (c : Prop) [Decidable c] : (if c then u else setRole u 6).sys = u.sys :=
    ite_keeps State.sys (fun _ => rfl) (fun _ => (setRole_evolves u 6 (m := 8438080) rfl .rfl).same .sys rfl)
  have held (u : State) (c : Prop) [Decidable c] :
      (if c then u else ptShowAll u { u with sys := { u.sys with stopped := true } }).sys.bootState = u.sys.bootState := by
    split
    · rfl
    · rw [(ptShowAll_evolves u { u with sys := { u.sys with stopped := true } } (m := 8388608) rfl .rfl).same .sys rfl]
  unfold stopUnit
  extract_lets a b own c e
  have kept : (slowSync e).sys = c.sys := (sys_slowSync e).trans (demoted c _)
  have start : b.sys = s.sys := (barred a).trans (told s _ _)
  have set : c.sys.bootState = b.sys.bootState := held b _
  rw [kept, set, start]

theorem stepKept_recordedD (s : State) (page : Nat) (r : FaultRecord) : stepKept s (recordedD s page r) :=
  (((((stepKept_ramEnter _ _).trans (stepKept_nvEnter _ _)).trans (stepKept_count _ _ _)).trans (stepKept_ev _ _ _)).trans
    (stepKept_ev _ _ _)).trans (stepKept_armed _ _)

theorem bootState_fault (s : State) (code page bar : Nat) (d : List Nat) : (fault s code 3 page bar d).sys.bootState = s.sys.bootState := by
  rw [fault_D, bootState_stopUnit]
  exact (stepKept_recordedD ..).1

/-! ### Images (R478, R479) -/

theorem firstSlot_le (s : State) : firstSlot s ≤ 1 := by
  have bit (a i : Nat) : rdf s a i i ≤ 1 := by
    rw [rdf, field, Nat.add_sub_cancel_left]
    omega
  have record {n : Nat} (h : bootRecordSlot s = some n) : n ≤ 1 := by
    unfold bootRecordSlot at h
    dsimp only at h
    split_ifs at h with sound
    obtain ⟨-, -, small⟩ := sound
    exact Option.some.inj h ▸ small
  unfold firstSlot
  split
  · exact bit _ 0
  · split
    · next found => exact record found
    · exact bit _ 1

theorem imageReason_lt (s : State) (slot given : Nat) : imageReason s slot given < 16 := by
  unfold imageReason
  dsimp only
  split_ifs <;> omega

theorem imageReason_sound {slot n : Nat} (h : imageReason s slot n = 0) :
    let h := flashRead s (slotBase slot) 256
    bytesAt h 0 4 = 0x46575A53 ∧ bytesAt h 4 4 ≠ 0 ∧ bytesAt h 4 4 ≤ 2 ^ 24 ∧
      bytesAt h 0x90 4 = crc32c (h.take 0x90 ++ flashRead s (slotBase slot + 256) (bytesAt h 4 4)) := by
  unfold imageReason at h
  dsimp only at h
  split_ifs at h with magic length crc given
  · omega
  · push Not at magic length crc
    exact ⟨magic, length.1, length.2, crc⟩

/-- The image of a slot is read from the flash alone. -/
theorem imageReason_kept (h : t.sys.flash = s.sys.flash) (slot given : Nat) : imageReason t slot given = imageReason s slot given := by
  have pages : flashPage t = flashPage s := funext fun p => flashPage_of_flash h p
  have read : flashRead t = flashRead s := by
    funext a n
    rw [flashRead, pages, ← flashRead]
  rw [imageReason, read, ← imageReason]

/-- What the image that runs leaves. -/
theorem imageOk_leaves (s : State) :
    (imageOk s).sys.bootState = 2 ∧ rdf (imageOk s) (ra pgSys 0x54) 0 0 = s.sys.slot % 2 ∧ trimBusy (imageOk s) 2 = true ∧
      (s.sys.triedOther = true → recorded s (imageOk s) 0x0102 1) ∧
      (s.sys.triedOther = false → (imageOk s).sys = { s.sys with bootState := 2 }) := by
  let u := wrf (wrf s (ra pgSys 0x54) 0 0 s.sys.slot) (ra pgSys 0x54) 1 1 (b2n s.sys.triedOther)
  let v := { u with sys := { u.sys with bootState := 2 } }
  let w := if v.sys.triedOther then fault v 0x0102 1 pgSys noBar [rdf v (ra pgSys 0x54) 7 4] else v
  have runs : imageOk s = count (setTrimBusy w 2 true) pgTrim 0 := rfl
  have other : v.sys.triedOther = s.sys.triedOther := rfl
  have shown : rdf v (ra pgSys 0x54) 0 0 = s.sys.slot % 2 := by
    rw [show rdf v (ra pgSys 0x54) 0 0 = rdf u (ra pgSys 0x54) 0 0 from rfl, rdf_wrf_beside _ _ _ (by decide) (by decide) (by decide),
      rdf_wrf_same _ _ _ (by decide) (by decide)]
    rfl
  have words : rd w (ra pgSys 0x54) = rd v (ra pgSys 0x54) :=
    ite_keeps (rd · (ra pgSys 0x54)) (fun _ => rd_fault _ _ _ _ (by decide) _ (by decide) (by decide)) (fun _ => rfl)
  have ends : Evolves 65 w (imageOk s) := by
    rw [runs]
    exact count_evolves _ _ _ rfl (wrf_evolves _ _ _ _ _ rfl .rfl)
  have trimmed (a : Nat) : rd (imageOk s) a = rd (setTrimBusy w 2 true) a := by
    rw [runs]
    exact (count_evolves (setTrimBusy w 2 true) pgTrim 0 (m := 64) rfl .rfl).rd_eq rfl a
  have sys : (imageOk s).sys = w.sys := ends.same .sys rfl
  have step : stepKept v w := .ite (stepKept_fault _ _ _ _ (by decide) _) ⟨rfl, rfl⟩
  refine ⟨(congrArg Sys.bootState sys).trans step.1, ?_, ?_, fun tried => ?_, fun fresh => ?_⟩
  · have same : rd (imageOk s) (ra pgSys 0x54) = rd v (ra pgSys 0x54) := by
      rw [trimmed, setTrimBusy, rd_wrf_other _ _ _ _ (by decide), words]
    rw [rdf_eq_of_rd same, shown]
  · rw [trimBusy, rdb, trimmed, ← rdb, setTrimBusy, rdb_wrf_same _ _ _ _ (by decide)]
    rfl
  · have record : recorded v w 0x0102 1 := by
      rw [show w = _ from if_pos (other.trans tried)]
      exact recorded_fault ..
    exact recorded_kept (recorded_of_keepsLog ⟨rfl, rfl⟩ record) (.of ends rfl)
  · rw [sys, show w = v from if_neg (by rw [other, fresh]; decide)]
    rfl

theorem bootFailSeen_nvEnter (s : State) (r : FaultRecord) : (nvEnter s r).sys.bootFailSeen = s.sys.bootFailSeen := by
  unfold nvEnter
  exact ite_keeps (fun u => u.sys.bootFailSeen) (fun _ => rfl) (fun _ => rfl)

theorem bootFailSeen_ramEnter (s : State) (r : FaultRecord) : (ramEnter s r).sys.bootFailSeen = s.sys.bootFailSeen :=
  ite_keeps (fun u => u.sys.bootFailSeen) (fun _ => rfl) (fun _ => rfl)

/-- What a boot that finds no image leaves, and that BOOT_FAIL is recorded once. -/
theorem bootFail_leaves (s : State) :
    (bootFail s).sys.bootState = 6 ∧ (bootFail s).sys.bootFailSeen = true ∧ (bootFail s).links.slowReq = true ∧
      (s.sys.bootFailSeen = false → recorded s (bootFail s) 0x0103 3) ∧
      (s.sys.bootFailSeen = true → (bootFail s).sys.seq = s.sys.seq) := by
  let u := { s with sys := { s.sys with bootState := 6 } }
  let v := { u with sys := { u.sys with bootFailSeen := true } }
  let r := faultRecord v 0x0103 3 pgSys noBar [rdf v (ra pgSys 0x54) 7 4] none
  let w := ev (ev (count (nvEnter (ramEnter v r) r) pgSys 3) pgSys 11) pgSys 3
  have runs : bootFail s = if s.sys.bootFailSeen then slowSync u else slowSync w := rfl
  have entered : (nvEnter (ramEnter v r) r).sys.seq = (ramEnter v r).sys.seq ∧ (nvEnter (ramEnter v r) r).sys.ramLog = (ramEnter v r).sys.ramLog :=
    nvEnter_log _ _
  have told : w.sys = (nvEnter (ramEnter v r) r).sys :=
    (ev_evolves _ _ _ rfl (ev_evolves _ _ _ rfl (count_evolves (nvEnter (ramEnter v r) r) pgSys 3 (m := 8523841) rfl .rfl))).same .sys rfl
  have enters : keepsLog (ramEnter v r) w ∧ w.sys.bootFailSeen = true := by
    rw [keepsLog, told]
    exact ⟨entered, (bootFailSeen_nvEnter ..).trans (bootFailSeen_ramEnter ..)⟩
  have step : stepKept v w := ((((stepKept_ramEnter _ _).trans (stepKept_nvEnter _ _)).trans (stepKept_count _ _ _)).trans (stepKept_ev _ _ _)).trans
    (stepKept_ev _ _ _)
  by_cases seen : s.sys.bootFailSeen = true
  · rw [runs, if_pos seen, slowReq_slowSync, sys_slowSync]
    exact ⟨rfl, seen, slowReq_failed rfl, fun first => absurd (first.symm.trans seen) (by decide), fun _ => rfl⟩
  · rw [runs, if_neg seen, slowReq_slowSync, sys_slowSync]
    refine ⟨step.1, enters.2, slowReq_failed step.1, fun _ => ?_, fun again => absurd again seen⟩
    obtain ⟨seq, log, last⟩ := ramEnter_log v r
    have record : recorded v w 0x0103 3 := ⟨enters.1.1.trans seq, r, by rw [enters.1.2, last, List.getLast?_concat], rfl, rfl, rfl⟩
    exact recorded_kept (recorded_of_keepsLog ⟨rfl, rfl⟩ record) (.of (slowSync_evolves w (m := 8396864) rfl .rfl) rfl)

/-! ### The steps after the image (R477, R480) -/

/-- Trims of a boot step write the word of the calibration, in image memory and logs nothing. -/
theorem endTrims_leaves (s : State) (gs : List Nat) : Evolves 1 s (endTrims s gs) ∧ ∀ a, a ≠ trimA 0x44 → rd (endTrims s gs) a = rd s a :=
  ⟨Evolves.rfl.foldl fun _ _ h => wrf_evolves _ _ _ _ _ rfl h,
    fun a other => foldl_kept (fun u => rd u a = rd s a) (fun u _ _ h => (rd_wrf_other u _ _ _ other).trans h) rfl⟩

theorem subState_bootTrims (s : State) (g k : Nat) : subState (bootTrims s [g]) k = subState s k := by
  have word (a : Nat) (other : a ≠ trimA 0x44) : rd (bootTrims s [g]) a = rd s a :=
    ((count_evolves (setTrimBusy s g true) pgTrim 0 (m := 64) rfl .rfl).rd_eq rfl a).trans (rd_wrf_other s _ _ _ other)
  exact rdf_eq_of_rd (word _ (by simp only [trimA, ra, pgDrc, pgTrim]; omega)) _ _

/-! The result of each step, as the boot continues. -/

theorem bootStep_choose (at_ : s.sys.bootState = 0) : bootStep s .ok = bootChoose s := by
  simp only [bootStep, at_]

theorem bootStep_image (at_ : s.sys.bootState = 1) : bootStep s .ok = judgeImage s 0 ∧ ∀ n, bootStep s (.slotFailed n) = judgeImage s n := by
  simp only [bootStep, at_, implies_true, and_self]

/-- A state at a boot step, with the records of another. -/
def atStep (u s : State) (n : Nat) : State := { u with sys := { s.sys with bootState := n } }

theorem rd_atStep (u s : State) (n a : Nat) : rd (atStep u s n) a = rd u a := rfl

theorem subState_atStep (u s : State) (n k : Nat) : subState (atStep u s n) k = subState u k := rdf_eq_of_rd (rd_atStep u s n _) _ _

theorem bootStep_memory (at_ : s.sys.bootState = 2) :
    bootStep s .ok = bootTrims (atStep (memTrained (endTrims s [2, 0, 1, 3, 5])) (memTrained (endTrims s [2, 0, 1, 3, 5])) 3) [4] ∧
      bootStep s .trainFailed = slowSync (fault (atStep s s 6) 0x0404 3 pgDrg noBar []) := by
  simp only [bootStep, at_, atStep, and_self]

theorem bootStep_selftest (at_ : s.sys.bootState = 3) :
    bootStep s .ok = atStep (endTrims s [4]) s 4 ∧ (∀ n, bootStep s (.repaired n) = atStep (endTrims (wrf s (ra pgSys 0x58) 15 8 n) [4]) s 4) ∧
      ∀ b, bootStep s (.selftestFailed b) = selftestDone s b := by
  simp only [bootStep, at_, atStep, implies_true, and_self]

theorem bootStep_ready (at_ : s.sys.bootState = 4) : bootStep s .ok = bootReady s := by
  simp only [bootStep, at_]

/-- The image of the slot that is checked first is not sound. -/
theorem slotFails_first (fresh : s.sys.triedOther = false) {reason : Nat} (small : reason < 16) :
    (slotFails s reason).sys = { s.sys with triedOther := true, slot := 1 - s.sys.slot } ∧
      rdf (slotFails s reason) (ra pgSys 0x54) 7 4 = reason ∧ wordsKept [ra pgSys 0x54] s (slotFails s reason) ∧
      onlyChanges [.regs, .sys] s (slotFails s reason) := by
  let u := wrf s (ra pgSys 0x54) 7 4 reason
  have runs : slotFails s reason = { u with sys := { u.sys with triedOther := true, slot := 1 - u.sys.slot } } := by
    refine if_neg ?_
    rw [show u.sys.triedOther = s.sys.triedOther from rfl, fresh]
    decide
  rw [runs]
  refine ⟨rfl, ?_, wordsKept_wrf s _ _ _ _, (Evolves.upd_1048576 (m := 1048577) rfl (wrf_evolves s _ _ _ _ rfl .rfl)).only (by decide)⟩
  exact (rdf_wrf_same s _ _ (by decide) (by decide)).trans (Nat.mod_eq_of_lt small)

theorem slotFails_second (tried : s.sys.triedOther = true) (reason : Nat) :
    slotFails s reason = bootFail (wrf s (ra pgSys 0x54) 7 4 reason) := if_pos tried

/-- Step 2 ends: image memory is trained, and the next trims begin. -/
theorem bootStep_trained (at_ : s.sys.bootState = 2) :
    (bootStep s .ok).sys.bootState = 3 ∧ ∀ k, k < 8 → subState (bootStep s .ok) k = 1 := by
  rw [(bootStep_memory at_).1]
  have trained (k : Nat) (hk : k < 8) : subState (memTrained (endTrims s [2, 0, 1, 3, 5])) k = 1 := subState_memTrained _ hk
  generalize memTrained (endTrims s [2, 0, 1, 3, 5]) = u at trained ⊢
  refine ⟨congrArg Sys.bootState ((bootTrims_evolves (atStep u u 3) [4] (m := 65) rfl .rfl).same .sys rfl), fun k hk => ?_⟩
  rw [subState_bootTrims, subState_atStep, trained k hk]

/-- A self-test with a failure other than a low margin. -/
theorem selftest_fails (s : State) {b : Nat} (failed : b &&& 0xD ≠ 0) (margin : bitOf b 1 = false) :
    (selftestDone s b).sys.bootState = 6 ∧ recorded s (selftestDone s b) 0x0104 3 := by
  let u := wrf s (ra pgSys 0x58) 3 0 b
  let v := endTrims { u with sys := { u.sys with bootState := 6 } } [4]
  have runs : selftestDone s b = slowSync (fault v 0x0104 3 pgSys noBar [b % 16]) := by
    have bad : (b &&& 0xD != 0) = true := by simpa using failed
    simp only [selftestDone, bad, margin, if_true, Bool.false_eq_true, if_false]
    rfl
  have kept : v.sys = { s.sys with bootState := 6 } := ((endTrims_leaves _ [4]).1.same .sys rfl).trans rfl
  have logs : keepsLog s v := by
    rw [keepsLog, kept]
    exact ⟨rfl, rfl⟩
  rw [runs]
  refine ⟨?_, recorded_kept (recorded_of_keepsLog logs (recorded_fault v 0x0104 3 pgSys noBar [b % 16]))
    (.of (slowSync_evolves _ (m := 8396864) rfl .rfl) rfl)⟩
  rw [sys_slowSync, bootState_fault, kept]

/-- A self-test with a low margin alone. -/
theorem selftest_margin (s : State) {b : Nat} (only : b &&& 0xF = 2) :
    (selftestDone s b).sys.bootState = 4 ∧ recorded s (selftestDone s b) 0x0403 1 := by
  let u := wrf s (ra pgSys 0x58) 3 0 b
  let v := endTrims { u with sys := { u.sys with bootState := 4 } } [4]
  have low (i : Nat) (h : i < 4) : b.testBit i = Nat.testBit 2 i := by
    have bit : Nat.testBit 0xF i = true := by interval_cases i <;> rfl
    rw [← only, Nat.testBit_and, bit, Bool.and_true]
  have passed : (b &&& 0xD != 0) = false := by
    have none : b &&& 0xD = 0 := by
      rw [show (0xD : Nat) = 0xF &&& 0xD from rfl, ← Nat.and_assoc, only]
      rfl
    simp [none]
  have margin : bitOf b 1 = true := low 1 (by decide)
  have runs : selftestDone s b = fault v 0x0403 1 pgDrg noBar [] := by
    simp only [selftestDone, passed, margin, if_true, Bool.false_eq_true, if_false]
    rfl
  have kept : v.sys = { s.sys with bootState := 4 } := ((endTrims_leaves _ [4]).1.same .sys rfl).trans rfl
  have logs : keepsLog s v := by
    rw [keepsLog, kept]
    exact ⟨rfl, rfl⟩
  rw [runs]
  refine ⟨(stepKept_fault v 0x0403 pgDrg noBar (cls := 1) (by decide) []).1.trans (by rw [kept]), recorded_of_keepsLog logs (recorded_fault ..)⟩

/-! ### The retry (R479) -/

/-- The reason for which the retry does not take the image of a slot. -/
def retryReason (s : State) (a b n : Nat) : Nat := imageReason s n (if n = 0 then a else b)

/-- The retry begins with the slot that a boot checks first. -/
def retryFrom (s : State) : State := { s with sys := { s.sys with bootState := 1, triedOther := false, slot := firstSlot s } }

theorem exec_bootRetry (failed : s.sys.bootState = 6) (up : s.sys.inReset = false) (seen : s.sys.bootFailSeen = true) (runs : s.sys.stopped = false)
    (a b : Nat) :
    exec (.bootRetry a b) s =
      .next (if retryReason s a b (firstSlot s) = 0 then slowSync (imageOk (retryFrom s))
        else if retryReason s a b (1 - firstSlot s) = 0 then slowSync (imageOk (slotFails (retryFrom s) (retryReason s a b (firstSlot s))))
        else slotFails (slotFails (retryFrom s) (retryReason s a b (firstSlot s))) (retryReason s a b (1 - firstSlot s))) := by
  refine congrArg Host.Outcome.next (if_neg ?_)
  rintro (other | reset | first | stopped)
  · exact other failed
  · exact absurd (reset.symm.trans up) (by decide)
  · exact absurd (first.symm.trans seen) (by decide)
  · exact absurd (stopped.symm.trans runs) (by decide)

/-- Both slots fail again. -/
theorem retry_fails (seen : s.sys.bootFailSeen = true) {r : Nat} (small : r < 16) (q : Nat) :
    (slotFails (slotFails (retryFrom s) r) q).sys.bootState = 6 ∧ (slotFails (slotFails (retryFrom s) r) q).sys.seq = s.sys.seq := by
  obtain ⟨sys, -⟩ := slotFails_first (s := retryFrom s) rfl small
  generalize slotFails (retryFrom s) r = u at sys ⊢
  have kept (o : Nat) : (wrf u (ra pgSys 0x54) 7 4 o).sys = u.sys := rfl
  rw [slotFails_second (congrArg Sys.triedOther sys)]
  obtain ⟨state, -, -, -, seq⟩ := bootFail_leaves (wrf u (ra pgSys 0x54) 7 4 q)
  rw [kept] at seq
  exact ⟨state, (seq ((congrArg Sys.bootFailSeen sys).trans seen)).trans ((congrArg Sys.seq sys).trans rfl)⟩

end Sys2Proof.Machine

namespace Sys2Proof.Proofs
open Sys2Proof Sys2Proof.Machine

/-- Boot (R477 to R480). -/
theorem bootRule : BootRule := by
  refine ⟨fun s held r => congrArg Host.Outcome.next (if_pos held), fun s up => ?_, fun s a b => ⟨fun none => congrArg Host.Outcome.next (if_pos none),
    fun failed up seen runs => ⟨fun bad0 bad1 => ?_, fun sound => ?_⟩, fun slot n sound => imageReason_sound sound⟩⟩
  · have runs (r : BootResult) : exec (.bootStepDone r) s = .next (bootStep s r) :=
      congrArg Host.Outcome.next (if_neg (by rw [up]; decide))
    simp only [completes, runs, Host.Outcome.next.injEq, exists_eq_left']
    refine ⟨fun at_ => ?_, fun at_ r n kind => ?_, fun at_ => ⟨bootStep_trained at_, ?_⟩,
      fun at_ => ⟨?_, fun n => ?_, fun b failed margin => ?_, fun b only => ?_⟩, fun at_ => ?_⟩
    · let u := if s.sys.cause ≠ 0 then wrf s (nvmA 0x54) 1 1 0 else s
      have counters : u.counters = s.counters := ite_keeps State.counters (fun _ => rfl) (fun _ => rfl)
      rw [bootStep_choose at_]
      refine ⟨rfl, rfl, rfl, (counted_count { u with sys := { u.sys with slot := firstSlot s, triedOther := false, bootState := 1 } } pgSys 7).trans ?_⟩
      rw [counter, counter, show State.counters { u with sys := _ } = s.counters from counters]
    · have step : bootStep s r = judgeImage s n := by
        simp only [List.mem_cons, Prod.mk.injEq, List.not_mem_nil, or_false] at kind
        rcases kind with ⟨rfl, rfl⟩ | ⟨rfl, -⟩
        · exact (bootStep_image at_).1
        · exact (bootStep_image at_).2 n
      rw [step]
      refine ⟨fun sound => ?_, fun fails fresh => ?_, fun fails tried first => ?_⟩
      · rw [show judgeImage s n = imageOk s from if_pos sound]
        obtain ⟨state, slot, busy, record, same⟩ := imageOk_leaves s
        exact ⟨state, slot, busy, record, fun fresh => (congrArg Sys.seq (same fresh)).trans rfl⟩
      · rw [show judgeImage s n = slotFails s (imageReason s s.sys.slot n) from if_neg fails]
        exact slotFails_first fresh (imageReason_lt s s.sys.slot n)
      · rw [show judgeImage s n = slotFails s (imageReason s s.sys.slot n) from if_neg fails, slotFails_second tried]
        obtain ⟨state, seen, slow, record, -⟩ := bootFail_leaves (wrf s (ra pgSys 0x54) 7 4 (imageReason s s.sys.slot n))
        exact ⟨state, seen, recorded_of_keepsLog ⟨rfl, rfl⟩ (record first), slow⟩
    · rw [(bootStep_memory at_).2]
      refine ⟨?_, recorded_kept (recorded_of_keepsLog ⟨rfl, rfl⟩ (recorded_fault (atStep s s 6) 0x0404 3 pgDrg noBar []))
        (.of (slowSync_evolves _ (m := 8396864) rfl .rfl) rfl)⟩
      rw [sys_slowSync, bootState_fault]
      rfl
    · rw [(bootStep_selftest at_).1]
      exact ⟨rfl, (Evolves.upd_1048576 (m := 1048577) rfl (endTrims_evolves s [4] rfl .rfl)).only (by decide)⟩
    · rw [(bootStep_selftest at_).2.1]
      refine ⟨rfl, ?_, (Evolves.upd_1048576 (m := 1048577) rfl (endTrims_evolves _ [4] rfl (wrf_evolves s _ _ _ _ rfl .rfl))).only (by decide)⟩
      have word : rd (atStep (endTrims (wrf s (ra pgSys 0x58) 15 8 n) [4]) s 4) (ra pgSys 0x58) = rd (wrf s (ra pgSys 0x58) 15 8 n) (ra pgSys 0x58) := by
        rw [rd_atStep, (endTrims_leaves (wrf s (ra pgSys 0x58) 15 8 n) [4]).2 _ (by decide)]
      rw [rdf_eq_of_rd word, rdf_wrf_same _ _ _ (by decide) (by decide)]
      rfl
    · rw [(bootStep_selftest at_).2.2]
      exact selftest_fails s failed margin
    · rw [(bootStep_selftest at_).2.2]
      exact selftest_margin s only
    · rw [bootStep_ready at_]
      obtain ⟨state, -, told⟩ := bootReady_ready s
      exact ⟨state, told⟩
  · have bad {n : Nat} (h : n ≤ 1) : retryReason s a b n ≠ 0 := by
      interval_cases n
      · exact bad0
      · exact bad1
    rw [completes, exec_bootRetry failed up seen runs, if_neg (bad (firstSlot_le s)), if_neg (bad (Nat.sub_le _ _))]
    exact ⟨_, rfl, retry_fails seen (imageReason_lt ..) _⟩
  · have first : retryReason s a b (firstSlot s) = 0 := sound
    rw [completes, exec_bootRetry failed up seen runs, if_pos first]
    obtain ⟨-, -, -, -, same⟩ := imageOk_leaves (retryFrom s)
    have sys := (sys_slowSync (imageOk (retryFrom s))).trans (same rfl)
    exact ⟨_, rfl, congrArg Sys.bootState sys, congrArg Sys.slot sys, congrArg Sys.triedOther sys⟩

/-- Settles O58: the resets by what a reset of the volatile domains keeps, the boot by the result of each step. -/
theorem resetsAndBoot : Obligations.ResetsAndBoot := ⟨resetsRule, bootRule⟩

end Sys2Proof.Proofs
end
